-- ==== Sys2Proof/Word.lean ====
section
/-! DEFINITION. The word types of the ZL9648 model and the sparse sorted map that holds every
table of the device (00 R7, 01 R16). A map is a list of key and value pairs with strictly rising
keys, so that equal tables are equal data. -/

namespace Sys2Proof

/-- A byte of the persistent range or of a message (00 R7). -/
abbrev Byte := BitVec 8
/-- A 64-bit register or ring word (00 R7). -/
abbrev Word := BitVec 64
/-- The 64 bytes of a line, byte 0 in bits [7:0] (01 R16). -/
abbrev LineData := BitVec 512

/-- A sparse table: key and value pairs, keys strictly rising. -/
abbrev SMap (α : Type) := List (Nat × α)

namespace SMap

variable {α : Type}

/-- The value at key `k`, if the table lists one. -/
def find (m : SMap α) (k : Nat) : Option α :=
  match m with
  | [] => none
  | (j, v) :: t => if j = k then some v else if k < j then none else find t k

/-- The value at key `k`, or `d` when the table lists none. -/
def findD (m : SMap α) (k : Nat) (d : α) : α := (find m k).getD d

/-- `true` when the table lists `k`. -/
def has (m : SMap α) (k : Nat) : Bool := (find m k).isSome

/-- The table with `v` at key `k`. -/
def put (m : SMap α) (k : Nat) (v : α) : SMap α :=
  match m with
  | [] => [(k, v)]
  | (j, w) :: t => if j = k then (k, v) :: t else if k < j then (k, v) :: (j, w) :: t else (j, w) :: put t k v

/-- The table without key `k`. -/
def del (m : SMap α) (k : Nat) : SMap α :=
  match m with
  | [] => []
  | (j, w) :: t => if j = k then t else if k < j then (j, w) :: t else (j, w) :: del t k

/-- The table with the value at `k` changed by `f`, left alone when `k` is not listed. -/
def upd (m : SMap α) (k : Nat) (f : α → α) : SMap α :=
  match find m k with
  | some v => put m k (f v)
  | none => m

/-- The table with `f` applied to the value at `k`, taken as `d` when `k` is not listed. -/
def updD (m : SMap α) (k : Nat) (d : α) (f : α → α) : SMap α := put m k (f (findD m k d))

/-- Every key of the table lies above `lo`, and the keys rise strictly. -/
def risesFrom (lo : Nat) (m : SMap α) : Bool :=
  match m with
  | [] => true
  | (j, _) :: t => decide (lo ≤ j) && risesFrom (j + 1) t

/-- The canonical form: strictly rising keys. -/
def wf (m : SMap α) : Bool := risesFrom 0 m

/-- The keys of the table, rising. -/
def keys (m : SMap α) : List Nat := m.map Prod.fst

/-- The entries whose key and value meet `p`. -/
def keep (m : SMap α) (p : Nat → α → Bool) : SMap α := m.filter (fun e => p e.1 e.2)

end SMap

/-- Insert `k` into a rising list of numbers without repeats. -/
def insertSorted (k : Nat) (l : List Nat) : List Nat :=
  match l with
  | [] => [k]
  | j :: t => if j = k then j :: t else if k < j then k :: j :: t else j :: insertSorted k t

/-- Remove `k` from a list of numbers. -/
def removeNum (k : Nat) (l : List Nat) : List Nat := l.filter (fun j => j != k)

/-- The lowest number not in a rising list, looked for from `n`. -/
def lowestFreeFrom (n : Nat) (l : List Nat) : Nat :=
  match l with
  | [] => n
  | j :: t => if j = n then lowestFreeFrom (n + 1) t else if j < n then lowestFreeFrom n t else n

end Sys2Proof
end

