-- ==== Sys2Proof/Syntax.lean ====
section
/-! DEFINITION. The commands of the ZL9648: one constructor of Instr for each row of
spec/opcode_table.json, in the table's order, and the types of their operands. Numbers that name a
thing are Nat and bounded by WellFormed; what the spec treats as bits is a BitVec. An operand `at`
is the device time (ns) at which the input was stamped (00 R12). -/

namespace Sys2Proof

/-- Path of a register access (15 R401): MGMT, or a HOST port and LD. -/
inductive Via where
  | mgmt
  | host (port ld : Nat)
  deriving DecidableEq, Repr

/-- Width of a register access (00 R8): the whole word, or its low or high half. -/
inductive AccW where
  | full | lo | hi
  deriving DecidableEq, Repr

/-- A bolt table entry (01 Table 1.2). The CRC is stored as received. -/
structure BoltEntry where
  valid : Bool
  durability : Nat
  activeSide : Nat
  access : Nat
  pairId : Nat
  tenant : Nat
  claim : Nat
  dCap : Nat
  pCap : Nat
  fCap : Nat
  seq : Nat
  crc : BitVec 32
  deriving DecidableEq, Repr

/-- A heartbeat or YIELD frame, on either path (03 Tables 3.1 and 3.2). -/
structure HbFrame where
  ty : Nat
  sender : Nat
  flags : BitVec 8
  seq : BitVec 32
  echo : BitVec 32
  auditBolt : Nat
  sendDt : Nat
  claimHigh : Nat
  auditClaim : Nat
  periodUs : Nat
  crc : BitVec 32
  deriving DecidableEq, Repr

/-- The link message header (11 Table 11.6) with the port it arrived on. -/
structure Hdr where
  port : Nat
  src : Nat
  dst : Nat
  hops : Nat
  status : Nat
  tag : Nat
  source : BitVec 32
  offset : Nat
  claim : Nat
  poison : Bool
  last : Bool
  urgent : Bool
  deriving DecidableEq, Repr

/-- LINK_HELLO (11 Table 11.7). -/
structure Hello where
  bayId : BitVec 64
  deviceId : Nat
  port : Nat
  personality : Nat
  version : BitVec 64
  dirtyCount : Nat
  deriving DecidableEq, Repr

/-- What a CTRL_REQ asks the owner to carry out: a queue descriptor of the named tenant
(11 Table 11.7), or a bolt or tenant command of 01 R49 (log entry 4). -/
inductive CtrlOp where
  | desc (d : LineData)
  | bl (op : Nat) (a0 a1 a2 : Word)
  deriving DecidableEq, Repr

/-- What a MAP_XFER carries (03 R124). -/
inductive MapKind where
  | split | dirtySpan | copyList | held
  deriving DecidableEq, Repr

/-- A link message body by type (11 Table 11.7). -/
inductive Payload where
  | heartbeat (f : HbFrame)
  | yield (f : HbFrame)
  | linkHello (h : Hello)
  | timeSync (t1 t2 t3 : Nat) (answer : Bool)
  | bayState (dirtyCount : Nat) (health : Word)
  | mirrorWr (be : Word) (data : LineData)
  | mirrorAck
  | fwdRd (lines : Nat)
  | fwdWr (be : Word) (data : LineData)
  | fwdData (pmap : Word) (lines : List LineData)
  | fwdCmp
  | ctrlReq (op : CtrlOp)
  | ctrlCmp (res : List Word)
  | repairRd (lines : Nat)
  | repairData (pmap : Word) (lines : List LineData)
  | boltUpdate (e : BoltEntry)
  | boltFetch
  | quotaSet (tenant tier v dt : Nat)
  | handover (l : List (Nat × Nat))
  | handoverAck (l : List (Nat × Nat))
  | handoverReq (l : List (Nat × Nat))
  | rejoinCopy (empty : Bool) (pmap : Word) (lines : List LineData)
  | rejoinAck
  | mapXfer (kind : MapKind) (l : List Nat)
  | unknown (ty : Nat)
  deriving DecidableEq, Repr

/-- An HDM decoder as a host commits it (01 R28): host base and size, range offset of its start,
log2 of the interleave ways (0 to 4) and of the granularity over 256 B (0 to 6). -/
structure Hdm where
  base : Nat
  size : Nat
  dpa : Nat
  waysLog2 : Nat
  granLog2 : Nat
  deriving DecidableEq, Repr

/-- One port of a QUAD panel (12 Table 12.3; 11 R308 to R310). -/
structure PortPanel where
  personality : Nat
  width : Nat
  maxRate : Nat
  ldCount : Nat
  mgmtEn : Bool
  mgmtLd : Nat
  module : Nat
  deriving DecidableEq, Repr

/-- The DRAM build (06 Table 6.1): speed in MT/s ÷ 100, codes as DC_CFG has them. -/
structure DramBuild where
  channels : Nat
  x8 : Bool
  density : Nat
  stack : Nat
  pranks : Nat
  speed : Nat
  am : Nat
  deriving DecidableEq, Repr

/-- The flash build (07 Table 7.1). -/
structure FlashBuild where
  channels : Nat
  jesd : Bool
  rate : Nat
  targets : Nat
  luns : Nat
  diesPerChannel : Nat
  pageUser : Nat
  pageSpare : Nat
  planes : Nat
  blocksPerChannel : Nat
  rawTib : Nat
  ratedPe : Nat
  retryEntries : Nat
  readLimit : Nat
  vccMv : Nat
  vccqMv : Nat
  deriving DecidableEq, Repr

/-- The stripe geometry (08 Table 8.1), with the member module indices of each tier P group. -/
structure StripeGeom where
  groups : List (List Nat)
  pWidth : Nat
  pSpare : Nat
  fWidth : Nat
  pagesPerBlock : Nat
  deriving DecidableEq, Repr

/-- A route entry (01 Table 1.14). -/
structure Route where
  primary : Nat
  alt : Nat
  hops : Nat
  altHops : Nat
  deriving DecidableEq, Repr

/-- The body of a panel. The spec leaves the byte layout to Vurum (12 R332), so a body is given by
what it sets. Log entry 5. -/
inductive PanelBody where
  | device (alertGpio : Nat)
  | quad (mode : Nat) (ports : List PortPanel)
  | media (recs : List (Nat × Nat × Nat × Nat))
  | dram (b : DramBuild)
  | dramGroup (inBuild : Bool)
  | flash (b : FlashBuild)
  | flashGroup (inBuild : Bool)
  | stripe (g : StripeGeom)
  | tier (saveGib journalMib : Nat) (saveModules : List Nat)
  | power (usableJ fixedJ : Nat) (enables : List Nat)
  | engine (mhz : Nat) (engines : List Bool)
  | crown (mhz : Nat)
  | bay (bayId serial : BitVec 64) (deviceId levels : Nat) (topo : List (Nat × List Nat))
  | route (entries : List Route) (gates : List (Nat × Nat))
  | boltPolicy (weight reserved : Nat)
  deriving DecidableEq, Repr

/-- A panel with its header (12 Table 12.2) and whether its header and body CRC match and its
directory entry lies inside the image. -/
structure Panel where
  ty : Nat
  func : Nat
  inst : Nat
  inside : Bool
  hdrCrcOk : Bool
  bodyCrcOk : Bool
  body : PanelBody
  deriving DecidableEq, Repr

/-- A block image (12 Table 12.1): header, panels and the outcome of the signature check with the
hash of its public key. -/
structure Image where
  magicOk : Bool
  format : Nat
  length : Nat
  version : BitVec 64
  svn : Nat
  code : Nat
  keyId : Nat
  dirOff : Nat
  pubHash : BitVec 384
  sigOk : Bool
  panels : List Panel
  deriving DecidableEq, Repr

/-- One burst of one subchannel as read (06 R169): whether the stored word carries the poison
pattern, and the wrong symbols as component and symbol within the component. -/
structure Burst where
  poisonPat : Bool
  errs : List (Nat × Nat)
  deriving DecidableEq, Repr

/-- Where a DRAM line was read (06 Table 6.14). -/
structure DramLoc where
  ch : Nat
  sub : Nat
  prank : Nat
  lrank : Nat
  bg : Nat
  ba : Nat
  row : Nat
  cb : Nat
  deriving DecidableEq, Repr

/-- What the read behind a Crown fill met (05 R156, R161): a good beat read, a tier D burst, or a
frame of tier P or F after that tier's recovery. -/
inductive FillRes where
  | tierD (loc : DramLoc) (b : Burst)
  | frame (ok : Bool)
  deriving DecidableEq, Repr

/-- What a Trowel read met (06 Table 6.10, R197, R257; 07 R227). -/
inductive TrowelFind where
  | d (line : Option Nat) (loc : DramLoc) (b : Burst)
  | p (group row : Nat) (unreadable : Option Nat) (parity : Option (Option Nat))
  | f (frame step entry : Nat)
  deriving DecidableEq, Repr

/-- What a module tells at enumeration (11 Table 11.5). -/
structure ModuleInfo where
  memDevice : Bool
  capGib : Nat
  vid : Nat
  did : Nat
  fw : Nat
  hdmOk : Bool
  dirtyCount : Nat
  deriving DecidableEq, Repr

/-- The outcome of link training (11 R311, R312). -/
structure Train where
  flit : Bool
  rate : Nat
  lanes : Nat
  reversed : Bool
  polarity : BitVec 16
  deriving DecidableEq, Repr

/-- Tile content as its non-zero bytes, and its poisoned lines (10 R286; 04 R150). -/
structure Tile where
  bytes : List (Nat × Byte)
  poison : List Nat
  deriving DecidableEq, Repr

/-- Where a tile's or container's bytes come from: this device's copy, or another device's answer. -/
inductive TileSrc where
  | here
  | remote (t : Tile)
  deriving DecidableEq, Repr

/-- What a user kernel returns (10; its instruction set is in another document, 00): its output
tiles, the bytes used of each, its layer VALUE and its cycles. -/
structure KernelRet where
  outs : List Tile
  used : List Nat
  value : List Byte
  cycles : Nat
  deriving DecidableEq, Repr

/-- What the resync of a tier P group found (08 Table 8.3). -/
inductive Resync where
  | clean
  | list (rows : List Nat) (bad : List Nat) (oneCopy : Bool)
  | none
  deriving DecidableEq, Repr

/-- What the device's own work of a power state met, for STATE_WORK_DONE (13 Table 13.3). -/
structure WorkRes where
  railsOk : Bool
  trainFailed : List Nat
  recoat : List Nat
  lunFailed : List Nat
  noLun : List Nat
  modules : List (Nat × ModuleInfo)
  resync : List (Nat × Resync)
  mountRootOk : Bool
  orphans : Bool
  unwrapFailed : List Nat
  tornFound : Bool
  healthOk : Bool
  portsTrained : List (Nat × Train)
  saveBad : List (Nat × Nat)
  deriving DecidableEq, Repr

/-- What the restart of a function met, for FUNCTION_RESTART_DONE (12 R339): whether it came up, and which channels of a
channel group did not (06 R176, 07 R201). -/
structure RestartRes where
  ok : Bool
  bad : List Nat
  deriving DecidableEq, Repr

/-- The boundary-scan register (16 R419). -/
abbrev Bsr := BitVec 8214

/-- The commands: one constructor for each row of spec/opcode_table.json. -/
inductive Instr where
  | registerWrite (via : Via) (off : Nat) (w : AccW) (v : Word) (at_ : Nat)
  | badSizeAccess (via : Via) (off : Nat) (write : Bool)
  | memRd (port ld tag hpa at_ : Nat)
  | memWr (port ld tag hpa : Nat) (be : Word) (data : LineData) (at_ : Nat)
  | boltCacheMissFill (id at_ : Nat)
  | heldRequestRetry (id at_ : Nat)
  | holdExpiry (id at_ : Nat)
  | routeDrainDone (dev at_ : Nat)
  | bind (via : Via) (a0 a1 a2 : Word) (at_ : Nat)
  | unbind (via : Via) (a0 : Word) (at_ : Nat)
  | modify (via : Via) (a0 a1 a2 : Word) (at_ : Nat)
  | blReadEntry (via : Via) (a0 : Word) (at_ : Nat)
  | tenantCreate (via : Via) (at_ : Nat)
  | tenantDelete (via : Via) (a0 : Word) (at_ : Nat)
  | ldAttach (via : Via) (a0 : Word) (at_ : Nat)
  | blCmdTimeout (at_ : Nat)
  | dirtySpanWriteDone (span : Nat) (a b : Bool) (at_ : Nat)
  | dirtySpanRetry (span : Nat) (a b : Bool) (at_ : Nat)
  | dirtySpanClear (span : Nat) (at_ : Nat)
  | destageAgeExpiry (line at_ : Nat)
  | destageFrameDone (frame group slot : Nat) (lines : Word) (at_ : Nat)
  | rmwReadDone (frame : Nat) (ok : Bool) (at_ : Nat)
  | mergeEntryClose (sub line : Nat) (loc : DramLoc) (b : Burst) (at_ : Nat)
  | gpfPhase1 (port at_ : Nat)
  | gpfPhase2 (port at_ : Nat)
  | pwDirtyBudgetWrite (via : Via) (w : AccW) (v : Word) (at_ : Nat)
  | pwEnergyDeclWrite (via : Via) (w : AccW) (v : Word) (at_ : Nat)
  | pwPoisonCountRead (via : Via) (w : AccW)
  | heartbeatTimer (at_ : Nat)
  | plumbSendTimer (at_ : Nat)
  | plumbFrameRx (f : HbFrame) (at_ : Nat)
  | heartbeat (h : Hdr) (f : HbFrame) (at_ : Nat)
  | yield (plumb : Bool) (f : HbFrame) (at_ : Nat)
  | missDeadline (pathB : Bool) (at_ : Nat)
  | leaseLapse (at_ : Nat)
  | watchdogExpiry (at_ : Nat)
  | carrierLoss (at_ : Nat)
  | carrierPresent (at_ : Nat)
  | tFreeReached (at_ : Nat)
  | selfDiagnosisFail (at_ : Nat)
  | takeoverRecordWritten (at_ : Nat)
  | rotateSlotTimer (at_ : Nat)
  | handoverDrainDone (at_ : Nat)
  | rotateWaitTimeout (at_ : Nat)
  | handoverTimeout (at_ : Nat)
  | twCmdYield (via : Via) (at_ : Nat)
  | declareLost (via : Via) (at_ : Nat)
  | rotateNow (via : Via) (at_ : Nat)
  | fullRejoin (via : Via) (at_ : Nat)
  | twMissStatRead (via : Via) (w : AccW)
  | decayTimer (at_ : Nat)
  | migrationCopyDone (span at_ : Nat)
  | quotaWrite (via : Via) (tier : Nat) (w : AccW) (v : Word) (at_ : Nat)
  | floatGapMove (module region : Nat)
  | floatSwapCheck (module : Nat)
  | stMigCountRead (via : Via) (w : AccW)
  | crownFillDone (line : Nat) (res : FillRes) (at_ : Nat)
  | wayOffReq (via : Via) (way : Nat) (at_ : Nat)
  | wayOnReq (via : Via) (way : Nat) (at_ : Nat)
  | wayCleanDone (way at_ : Nat)
  | wayPowerUpDone (way at_ : Nat)
  | crLfsrSeedWrite (via : Via) (w : AccW) (v : Word) (at_ : Nat)
  | crSliceStatRead (via : Via) (w : AccW)
  | crHitStatRead (via : Via) (w : AccW)
  | crErrStatRead (via : Via) (w : AccW)
  | csStep (via : Via) (ch : Nat) (v : Word) (lanes : BitVec 40) (bad at_ : Nat)
  | caStep (via : Via) (ch : Nat) (v : Word) (lanes : BitVec 40) (bad at_ : Nat)
  | dqReadStep (via : Via) (ch : Nat) (v : Word) (lanes : BitVec 40) (bad at_ : Nat)
  | dqWriteStep (via : Via) (ch : Nat) (v : Word) (lanes : BitVec 40) (bad at_ : Nat)
  | requestAgeExpiry (sub line at_ : Nat)
  | retrainPause (ch sub eye lane : Nat) (noPass : List Nat) (at_ : Nat)
  | refreshRatePoll (ch : Nat) (ind : List Nat) (at_ : Nat)
  | refreshDue (ch : Nat) (busy : Bool) (at_ : Nat)
  | pprRepairDone (ch : Nat) (loc : DramLoc) (spare : Bool) (at_ : Nat)
  | softPpr (via : Via) (ch : Nat) (v : Word) (spare : Bool) (at_ : Nat)
  | hardPpr (via : Via) (ch : Nat) (v : Word) (spare : Bool) (at_ : Nat)
  | trowelReadDone (f : TrowelFind) (at_ : Nat)
  | trowelPeriodEnd (tier at_ : Nat)
  | dcErrStatRead (via : Via) (ch : Nat) (w : AccW)
  | flashReadDone (frame step entry : Nat) (ok : Bool) (at_ : Nat)
  | flashProgramDone (change : Nat) (ok : Bool) (ch block at_ : Nat)
  | mapCommitDone (change at_ : Nat)
  | fineIdleExpiry (span at_ : Nat)
  | checkpointTrigger (at_ : Nat)
  | checkpointDone (at_ : Nat)
  | fullingWindow (at_ : Nat)
  | eraseDone (band : Nat) (failed : List (Nat × Nat)) (at_ : Nat)
  | tempSample (lid junction : BitVec 12) (at_ : Nat)
  | flFullCtlWrite (via : Via) (w : AccW) (v : Word) (at_ : Nat)
  | flErrStatRead (via : Via) (ch : Nat) (w : AccW)
  | skimJournalWriteDone (group : Nat) (a b : Bool) (at_ : Nat)
  | stripeWriteDone (group row at_ : Nat)
  | stripeAllowanceWindow (use : List (Nat × Nat)) (at_ : Nat)
  | rebuildUnitDone (member row : Nat) (spare : Bool) (at_ : Nat)
  | reshapeStart (via : Via) (at_ : Nat)
  | reshapePause (via : Via) (at_ : Nat)
  | reshapeResume (via : Via) (at_ : Nat)
  | reshapeSpanDone (span group : Nat) (slots : List (Nat × Nat)) (at_ : Nat)
  | stParityStatRead (via : Via) (w : AccW)
  | doorbellWrite (via : Via) (q : Nat) (w : AccW) (v : Word) (at_ : Nat)
  | descriptorFetch (at_ : Nat)
  | copy (q ix at_ : Nat)
  | fill (q ix at_ : Nat)
  | flush (q ix at_ : Nat)
  | fence (q ix at_ : Nat)
  | migrate (q ix at_ : Nat)
  | pin (q ix at_ : Nat)
  | unpin (q ix at_ : Nat)
  | discard (q ix at_ : Nat)
  | tileFetch (q ix at_ : Nat)
  | capture (q ix at_ : Nat)
  | run (q ix at_ : Nat)
  | verify (q ix at_ : Nat)
  | descriptorDone (q ix at_ : Nat)
  | irqCoalesceTimer (q at_ : Nat)
  | contextLoadDone (q at_ : Nat)
  | captureWindowEnd (q at_ : Nat)
  | windowEndDone (q at_ : Nat)
  | create (via : Via) (a0 a1 a2 a3 a4 : Word) (at_ : Nat)
  | delete (via : Via) (a0 : Word) (at_ : Nat)
  | quStart (via : Via) (a0 : Word) (at_ : Nat)
  | quStop (via : Via) (a0 : Word) (at_ : Nat)
  | quStopTimeout (at_ : Nat)
  | quReset (via : Via) (a0 : Word) (at_ : Nat)
  | quReadEntry (via : Via) (a0 : Word) (at_ : Nat)
  | quCtxStatRead (via : Via) (w : AccW)
  | quCapStatRead (via : Via) (w : AccW)
  | jobStart (e : Nat) (src : TileSrc) (args : TileSrc) (at_ : Nat)
  | tileResident (e slot : Nat) (src : TileSrc) (at_ : Nat)
  | layerStart (e at_ : Nat)
  | layerEnd (e : Nat) (ret : KernelRet) (at_ : Nat)
  | layerComplete (e at_ : Nat)
  | fenceDeadline (e at_ : Nat)
  | kernelCycleLimit (e at_ : Nat)
  | userKernelFault (e code slot at_ : Nat)
  | engineHwFault (e slot at_ : Nat)
  | enCountRead (via : Via) (e : Nat) (w : AccW)
  | linkTrained (port : Nat) (t : Train) (at_ : Nat)
  | trainRetry (port : Nat) (t : Option Train) (at_ : Nat)
  | linkError (port : Nat) (t : Option Train) (at_ : Nat)
  | linkDown (port at_ : Nat)
  | linkHello (port : Nat) (h : Hello) (at_ : Nat)
  | linkHelloTimer (port at_ : Nat)
  | hdmCommit (port ld : Nat) (d : Hdm) (at_ : Nat)
  | hotReset (port at_ : Nat)
  | functionLevelReset (port ld at_ : Nat)
  | identifyMemoryDevice (port ld : Nat)
  | getSupportedLogs (port ld : Nat)
  | getLog (port ld : Nat) (effects : Bool) (offset len : Nat)
  | getEventRecords (port ld log : Nat)
  | clearEventRecords (port ld log : Nat) (seqs : Option (List Nat))
  | getHealthInfo (port ld : Nat)
  | getPoisonList (port ld : Nat) (remote : List Nat)
  | getLsa (port ld offset len : Nat)
  | setLsa (port ld offset : Nat) (data : List Byte)
  | getTimestamp (port ld at_ : Nat)
  | setTimestamp (port ld hostTime at_ : Nat)
  | getLdInfo (port : Nat)
  | getLdAllocations (port : Nat)
  | setLdAllocations (port : Nat)
  | unsupportedMailboxCommand (port ld op : Nat)
  | moduleHotAdd (port : Nat) (m : ModuleInfo) (at_ : Nat)
  | moduleRequestTimeout (member row : Nat) (frame : Option Nat) (at_ : Nat)
  | timeSync (h : Hdr) (t1 t2 t3 : Nat) (answer : Bool) (at_ : Nat)
  | timeSyncTimer (at_ : Nat)
  | bayState (h : Hdr) (dirtyCount : Nat) (health : Word)
  | mirrorWr (h : Hdr) (be : Word) (data : LineData) (at_ : Nat)
  | mirrorAck (h : Hdr) (at_ : Nat)
  | fwdRd (h : Hdr) (lines at_ : Nat)
  | fwdWr (h : Hdr) (be : Word) (data : LineData) (at_ : Nat)
  | fwdData (h : Hdr) (pmap : Word) (lines : List LineData) (at_ : Nat)
  | fwdCmp (h : Hdr) (at_ : Nat)
  | ctrlReq (h : Hdr) (op : CtrlOp) (at_ : Nat)
  | ctrlCmp (h : Hdr) (res : List Word) (at_ : Nat)
  | repairRd (h : Hdr) (lines at_ : Nat)
  | repairData (h : Hdr) (pmap : Word) (lines : List LineData) (at_ : Nat)
  | boltUpdate (h : Hdr) (e : BoltEntry) (at_ : Nat)
  | boltFetch (h : Hdr)
  | quotaSet (h : Hdr) (tenant tier v dt : Nat)
  | handover (h : Hdr) (l : List (Nat × Nat)) (at_ : Nat)
  | handoverAck (h : Hdr) (l : List (Nat × Nat)) (at_ : Nat)
  | handoverReq (h : Hdr) (l : List (Nat × Nat)) (at_ : Nat)
  | rejoinCopy (h : Hdr) (empty : Bool) (pmap : Word) (lines : List LineData) (at_ : Nat)
  | rejoinAck (h : Hdr) (at_ : Nat)
  | mapXfer (h : Hdr) (kind : MapKind) (l : List Nat) (at_ : Nat)
  | unknownMessage (h : Hdr) (ty : Nat)
  | hopExpiry (h : Hdr) (p : Payload)
  | retrain (via : Via) (port : Nat) (at_ : Nat)
  | prepareRemove (via : Via) (port : Nat) (at_ : Nat)
  | rescan (via : Via) (port : Nat) (t : Option Train) (m : Option ModuleInfo) (at_ : Nat)
  | ptErrStatRead (via : Via) (port : Nat) (w : AccW)
  | ptTrafficRead (via : Via) (port : Nat) (w : AccW)
  | imageLoad (via : Via) (a0 a1 : Word) (img : Image) (at_ : Nat)
  | imageErase (via : Via) (a1 : Word) (at_ : Nat)
  | change (via : Via) (a0 a1 : Word) (at_ : Nat)
  | isRestart (via : Via) (a0 : Word) (at_ : Nat)
  | svnRaise (via : Via) (at_ : Nat)
  | functionRestartDone (res : RestartRes) (at_ : Nat)
  | isBootWrite (via : Via) (w : AccW) (v : Word) (at_ : Nat)
  | pllLockLoss (island at_ : Nat)
  | keyLoad (via : Via) (a0 : Word) (at_ : Nat)
  | keyDelete (via : Via) (a0 : Word) (at_ : Nat)
  | keyFind (via : Via) (a0 : Word) (at_ : Nat)
  | cipherParityFault (lane core frame : Nat) (write retryOk : Bool) (retryCore at_ : Nat)
  | cipherWriteRetry (frame at_ : Nat)
  | xtCountRead (via : Via) (w : AccW)
  | psyncRise (at_ : Nat)
  | stateWorkDone (r : WorkRes) (at_ : Nat)
  | turn (at_ : Nat)
  | loop (at_ : Nat)
  | psyncReset (at_ : Nat)
  | stateBoundExpiry (at_ : Nat)
  | railSample (rail mv : Nat) (faultBit : Bool) (junction8 : Nat) (at_ : Nat)
  | throttleEnd (at_ : Nat)
  | pfWarnChange (low : Bool) (at_ : Nat)
  | pfFailChange (low : Bool) (at_ : Nat)
  | supplyGood (at_ : Nat)
  | pwrReqChange (high : Bool) (at_ : Nat)
  | energyStorePoll (joules at_ : Nat)
  | sysclkLoss (at_ : Nat)
  | eventCoalesceTimer (port : Option Nat) (at_ : Nat)
  | bbEvPtrWrite (via : Via) (w : AccW) (v : Word) (at_ : Nat)
  | bbEvStatRead (via : Via) (w : AccW)
  | bbAonDataRead (via : Via) (w : AccW)
  | healthSummaryTimer (at_ : Nat)
  | tmDtRead (via : Via) (w : AccW) (at_ : Nat)
  | tmCaptureRead (via : Via) (w : AccW) (at_ : Nat)
  | gpioEdge (gpio : Nat) (rising : Bool) (at_ : Nat)
  | bypass
  | idcode
  | samplePreload (pins preload : Bsr)
  | extest (pins shift : Bsr)
  | clamp
  | highz
  | extestPulse (shift : Bsr)
  | extestTrain (shift : Bsr)
  | envmRead (addr : Nat) (health : Bool) (at_ : Nat)
  | envmReadDone (at_ : Nat)
  | otpKeyhash (customer : Bool) (hash : BitVec 384)
  | blCacheStatRead (via : Via) (w : AccW)
  | sysclkReturn (at_ : Nat)
  | aonReset (code : Nat) (serial : Word)
  | mgmtLinkDown (at_ : Nat)
  | mgmtLinkTrained (rate at_ : Nat)
  | zqCalibrationTimer (at_ : Nat)
  | mirrorWrResend (id at_ : Nat)
  | creditReturn (port cls n at_ : Nat)
  | envmRecordWritten (ok : Bool) (at_ : Nat)
  deriving DecidableEq, Repr

end Sys2Proof
end

