-- ==== Sys2Proof/Decode.lean ====
section
/-! DEFINITION. The command that a word spells. spec/opcode_table.json gives none of its rows any
bits, so no word spells a command. -/

namespace Sys2Proof

/-- The command that the word `w` of `nbits` bits spells by the bits of spec/opcode_table.json: the
table gives no row any bits, so there is none. -/
def decodeTableWord (_nbits _w : Nat) : Option Instr := none

end Sys2Proof
end

