-- ==== Sys2Proof/Machine/Bits.lean ====
section
/-! DEFINITION. Bit fields, bytes of a line, byte enables, serial numbers and CRC-32C. -/

namespace Sys2Proof.Machine

open Sys2Proof

/-- Bits [lo + w - 1 : lo] of a word. -/
def bitsOf (v : Word) (lo w : Nat) : Nat := v.toNat / 2 ^ lo % 2 ^ w

/-- The word with bits [lo + w - 1 : lo] replaced by `x`. -/
def withBits (v : Word) (lo w x : Nat) : Word :=
  BitVec.ofNat 64 (v.toNat - bitsOf v lo w * 2 ^ lo + x % 2 ^ w * 2 ^ lo)

/-- A number as a word. -/
def word (n : Nat) : Word := BitVec.ofNat 64 n

/-- 1 for true, 0 for false. -/
def bit (b : Bool) : Nat := if b then 1 else 0

/-- Two's complement of a signed number in 64 bits. -/
def wordOfInt (i : Int) : Word := BitVec.ofInt 64 i

/-- Saturating sum of counters of `w` bits. -/
def satAdd (w a b : Nat) : Nat := min (2 ^ w - 1) (a + b)

/-- Byte `i` of a line (01 R16). -/
def lineByte (d : LineData) (i : Nat) : Byte := d.extractLsb' (8 * i) 8

/-- Byte enable `i` of a store (01 Table 1.2 order: bit i is byte i). -/
def beBit (be : Word) (i : Nat) : Bool := be.getLsbD i

/-- Mask with ones in every byte that `be` enables. -/
def beMask (be : Word) (n : Nat) : LineData :=
  match n with
  | 0 => 0#512
  | k + 1 => (beMask be k) ||| (if beBit be k then (0xFF#512 <<< (8 * k)) else 0#512)

/-- A line with the enabled bytes of `new` over `old` (02 R53 step 4). -/
def mergeLine (old new : LineData) (be : Word) : LineData :=
  let m := beMask be 64
  (old &&& ~~~m) ||| (new &&& m)

/-- Every byte enabled. -/
def fullBe : Word := 0xFFFFFFFFFFFFFFFF#64

/-- Number of bytes enabled. -/
def beCount (be : Word) : Nat := ((List.range 64).filter (beBit be)).length

/-- 64-bit word `i` of a line, little-endian (09 Table 9.4 and others). -/
def lineWord (d : LineData) (i : Nat) : Word := d.extractLsb' (64 * i) 64

/-- A line from its eight 64-bit words. -/
def lineOfWords (ws : List Word) : LineData :=
  match ws with
  | [] => 0#512
  | w :: t => (lineOfWords t <<< 64) ||| w.setWidth 512

/-- A line from its bytes. -/
def lineOfBytes (bs : List Byte) : LineData :=
  match bs with
  | [] => 0#512
  | b :: t => (lineOfBytes t <<< 8) ||| b.setWidth 512

/-- The bytes of a line. -/
def lineBytes (d : LineData) : List Byte := (List.range 64).map (lineByte d)

/-- `n` bytes of a number, little-endian. -/
def leBytes (n x : Nat) : List Byte :=
  match n with
  | 0 => []
  | k + 1 => BitVec.ofNat 8 x :: leBytes k (x / 256)

/-- The number that bytes spell, little-endian. -/
def leNat (bs : List Byte) : Nat :=
  match bs with
  | [] => 0
  | b :: t => b.toNat + 256 * leNat t

/-- The bits of a byte, bit 0 first. -/
def byteBits (b : Byte) : List Bool := (List.range 8).map (fun i => b.getLsbD i)

/-- One bit into the CRC-32C register, reflected polynomial 0x82F6_3B78 (PRESUMED, log entry 6). -/
def crcBit (c : BitVec 32) (b : Bool) : BitVec 32 :=
  let x := c ^^^ (BitVec.ofBool b).setWidth 32
  if x.getLsbD 0 then (x >>> 1) ^^^ 0x82F63B78#32 else x >>> 1

/-- Bits into the CRC-32C register. -/
def crcBits (c : BitVec 32) (bs : List Bool) : BitVec 32 := bs.foldl crcBit c

/-- Bytes into the CRC-32C register. -/
def crcBytes (c : BitVec 32) (bs : List Byte) : BitVec 32 :=
  bs.foldl (fun c b => crcBits c (byteBits b)) c

/-- CRC-32C of a byte string. -/
def crc32c (bs : List Byte) : BitVec 32 := ~~~ crcBytes 0xFFFFFFFF#32 bs

/-- `a` is later than `b` in serial-number order modulo 2^32 (03 R100). -/
def serialLater (a b : BitVec 32) : Bool :=
  let d := (a - b).toNat
  decide (1 ≤ d) && decide (d ≤ 2 ^ 31 - 1)

/-- `a` is at or above `b` in serial-number order (03 R100). -/
def serialGe (a b : BitVec 32) : Bool := decide ((a - b).toNat ≤ 2 ^ 31 - 1)

/-- The elements of a list, first occurrences only. -/
def nub (l : List Nat) : List Nat :=
  l.foldl (fun acc x => if acc.contains x then acc else acc ++ [x]) []

/-- `a` divided by `b`, rounded up. -/
def ceilDiv (a b : Nat) : Nat := (a + b - 1) / b

/-- Saturating percentage of `a` in `b`; 0 when `b` is 0. -/
def pctOf (a b : Nat) : Nat := if b = 0 then 0 else min 100 (a * 100 / b)

end Sys2Proof.Machine
end

