-- ==== Sys2Proof/Config.lean ====
section
/-! DEFINITION. What an implementation fixes or the spec leaves open: the free values, as opaque
constants that no proof can see into, and the constants of the device. -/

namespace Sys2Proof.Config

/-- A value drawn from the on-chip entropy source (03 R100 the first SEQ, 05 R158 the LFSR seed,
04 "Float" the start of a region's slot mapping, 12 R351 the device key). The argument is the
model's own counter State.freeIx. Log entry 2. -/
opaque entropy : Nat → BitVec 64

/-- The HUB bolt-cache victim, chosen by an LFSR whose polynomial the spec does not give (01 R21).
Log entry 2. -/
opaque hubVictim : Nat → Nat

/-- The context-cache LFSR of 09 R276, whose polynomial the spec does not give. Log entry 2. -/
opaque ctxVictim : Nat → Nat

/-- Where the slot mapping of a region starts, from the random value drawn at its module's enumeration (04 Float). Log entry 2. -/
opaque floatStart : Nat → Nat → Nat

/-- The two halves of the save key, derived from the device key in a way that the spec does not give (12 R347). Log entry 2. -/
opaque saveKey : BitVec 256 → BitVec 256
opaque saveTweakKey : BitVec 256 → BitVec 256

/-- The check bytes of the DRAM code for 64 data bytes: its field polynomial and roots are not given (06 R169). Log entry 2. -/
opaque rsCheck : BitVec 512 → BitVec 128

/-- What a command of a register finds in the hardware where a plain register write starts it: the failing lanes and bad bursts
of a training step, a spare row, a trained link, a module, the image at the place that IMAGE_LOAD names (06 R181, R192; 11 R329;
12 R356). Log entry 48. -/
opaque stepLanes : Nat → BitVec 40
opaque stepBad : Nat → BitVec 16
opaque rowSpare : Nat → Bool
opaque scanTrain : Nat → Option Train
opaque scanModule : Nat → Option ModuleInfo
opaque imageThere : Nat → Option Image

/-- The raw DEFLATE stream that LZC writes at LEVEL for an input: RFC 1951 allows many
(10 R305). Log entry 2. -/
opaque deflate : Nat → List Byte → List Byte

/-- Search nodes that RPA visits (10 R303 fixes the answer, not the pruning, so the count and
whether the node limit was met stay open). Log entry 2. -/
opaque rpaNodes : Nat → Nat

/-- The 64 bytes that go out beside a CXL poison indicator, which the spec does not state (01 R30;
02 R89). Log entry 2. -/
opaque openLine : Nat → BitVec 512

/-- A completion code that the spec does not state. Log entry 2. -/
opaque openCode : Nat → BitVec 8

/-- Bolts of the range of a bay, by its BAY_ID: the spec gives BL_RANGE_LIMIT.BOLTS a limit and no source (01 Table 1.9).
Log entry 2. -/
opaque rangeBolts : BitVec 64 → BitVec 21

/-- Whether the twin still holds a good copy of a span after both twins of a pair have restarted: no message of the spec tells
(02 Table 2.9). Log entry 2. -/
opaque twinKept : Nat → Nat → Bool

/-- Spare blocks at format of a build with so many blocks, and factory bad blocks of a channel: the spec gives neither number
(07 R225, R226). Log entry 2. -/
opaque flashSpare : Nat → BitVec 24

/-- Factory bad blocks found on a channel at first mount (07 Table 7.12). Log entry 2. -/
opaque factoryBad : Nat → BitVec 20

/-- The die of its channel on which a block lies: the spec does not place blocks on dies (07 R202). Log entry 2. -/
opaque dieOf : Nat → Nat → Nat

/-- The slew of device time that follows a measured offset, in 0.01 ppm: the spec bounds it and gives no rule for it (11 R326;
15 Table 15.5). Log entry 2. -/
opaque slew : Nat → BitVec 16

/-- A word of a black-box slot whose record was cut in its write: which words were written is not stated (14 R392, R395).
Arguments: SEQ of the record, word of the slot. Log entry 2. -/
opaque tornWord : Nat → Nat → BitVec 64

/-- The first D block of the Queue Table, whose place in tier D the spec leaves open (09 R262, Table 9.12). Log entry 2. -/
opaque queueBase : Nat → BitVec 40

/-- The tenants of a bay (01 R26). -/
def maxTenants : Nat := 4096
/-- Records of the ring of the claims partition, whose length the spec does not give (03 R106; DESIGN CHOICE, log entry 94). -/
def claimRecords : Nat := 1024
/-- Bolts of one pair (04 R144). -/
def maxPairBolts : Nat := 65536
/-- Entries the HUB caches (01 R21). -/
def boltCacheSize : Nat := 65536
/-- Queues of a device (09 R262). -/
def maxQueues : Nat := 4194304
/-- Contexts the device caches (09 R276). -/
def maxContexts : Nat := 65536
/-- Descriptors in flight per queue (09 R269). -/
def maxInFlight : Nat := 256
/-- Jobs held per engine (10 R287). -/
def maxJobs : Nat := 64
/-- Outstanding misses per Crown slice (05 R160). -/
def maxMisses : Nat := 256
/-- Key slots of a device (12 R349). -/
def maxKeySlots : Nat := 4096
/-- Records of the event log (14 R386). -/
def evLogSize : Nat := 4096
/-- Records of the AON buffer (14 R387). -/
def aonBufSize : Nat := 64
/-- Slots of the black box (14 R392). -/
def bbSlots : Nat := 65536
/-- Summary slots of the health log (14 R397). -/
def healthSlots : Nat := 1024
/-- Entries of the health list (14 R397). -/
def healthListSize : Nat := 262144
/-- Records of a CXL event log of one LD (14 R388). -/
def cxlLogSize : Nat := 64
/-- Poison records that a device keeps (11 R316). -/
def maxPoisonRecs : Nat := 65536

end Sys2Proof.Config
end

