-- ==== Sys2Proof/Machine/State.lean ====
section
/-! DEFINITION. The state of one ZL9648 (INVENTORY.md, "State"): the command queue, the registers,
the state behind each group of registers, and what has left the device. Plain data throughout. -/

namespace Sys2Proof.Machine

open Sys2Proof

/-- No command of this device stops the machine: what the spec calls a fault is state (a flag, an
event, a completion code, a poison mark, a failed step), so no meaning raises a fault. -/
inductive Fault where
  deriving DecidableEq, Repr

/-- The reasons to refuse a command. -/
inductive Refusal where
  /-- Raised only by an arm of exec whose command has no meaning yet. Safe: the model stops. -/
  | notModelled (mnemonic : String)
  deriving DecidableEq, Repr

/-- Why a request is held (01 R42, R43). -/
inductive HoldWhy where
  | noTarget | lease | isolated | yielding | rotation | downPath | stopped | service | rejoining | gate
  deriving DecidableEq, Repr

/-- Who waits for a request's end. `part` is a line read of the VERIFY that request `id` carries out. `keep` is a requester of the device's own with privilege at the Crown (05 R162): a KEEP core,
the claim logic, the Plumb-line handler. The second number of
`engine` says what the engine's request is for (Desc.lean, engKey). -/
inductive Who where
  | host (port ld tag : Nat)
  | queue (q ix : Nat)
  | remote (dev port tag : Nat) (source : BitVec 32)
  | engine (e key : Nat)
  | mirror (dev port tag : Nat)
  | part (id : Nat)
  | device
  | keep (unit : Nat)
  deriving DecidableEq, Repr

/-- What a request does: read a line, store to a line, read `n` bytes from byte `lo` of a line into byte `pos` of the
store of request `dst` (COPY), read a line for a VERIFY, read a line of a
tile for another device (`peek`, which says whether the fetch is urgent, 10 R298), carry out the part of a descriptor that lies in one bolt, or
read a tile of `rows` rows (04 R148). -/
inductive ReqOp where
  | read
  | write (be : Word) (data : LineData) (poison : Bool)
  | copyTo (dst lo n pos : Nat)
  | verify
  | peek (urgent : Bool)
  | ctrl (d : LineData)
  | tile (rows rowBytes pitch : Nat)
  deriving DecidableEq, Repr

/-- How a request ended. -/
structure Resp where
  code : Nat
  data : LineData
  poison : Bool
  deriving DecidableEq, Repr

/-- Where a request stands. `behind` waits for an earlier request of its source and bolt to be taken up
(01 R44). At the input of its Crown slice a request waits for an earlier one to its line or for its requester's miss
(`sliceWait`, 05 R161), for a miss entry (`entryWait`, R160) or for a way (`missWait`, R159). `installing` holds the twin's data of a read repair until its span is marked and the
budget has room (02 R78). A store waits for its dirty-span bit, the standby, write-through
destage. `awaiting` is the store of a COPY whose bytes are still read, by `left` reads. `ctrlWait` is a DISCARD that
waits for the bolt's mirrored stores; `ctrl` runs with its own part, the standby's part, the tag of the standby's and
the code so far; `verifying` has line reads in hand; `fetching` is a tile on its way. -/
inductive ReqSt where
  | behind
  | awaiting (left : Nat)
  | ctrlWait
  | ctrl (own peer : Bool) (tag code : Nat)
  | verifying
  | fetching
  | cacheMiss
  | held (since : Nat) (why : HoldWhy)
  | credit
  | forwarded (dev port tag : Nat) (since : Nat)
  | sliceWait
  | entryWait
  | missWait
  | filling
  | repairing (tag src : Nat)
  | installing (data : LineData) (needSpan : Bool)
  | storing (needSpan needAck needDestage : Bool) (tag : Nat)
  | refused (needSpan needDestage : Bool) (tag : Nat)
  | done (r : Resp)
  deriving DecidableEq, Repr

/-- A request in hand. -/
structure Req where
  id : Nat
  src : Nat
  who : Who
  op : ReqOp
  offset : Nat
  tenant : Nat
  since : Option Nat
  st : ReqSt
  deriving DecidableEq, Repr

/-- What leaves the device. -/
inductive Out where
  /-- A CXL.mem completion: data and poison indicator of a read, or the completion of a write. -/
  | memCmp (port ld tag : Nat) (write : Bool) (data : LineData) (poison : Bool)
  /-- The value a register read returns. -/
  | mmio (via : Via) (off : Nat) (v : Word)
  | msg (port : Nat) (h : Hdr) (p : Payload)
  | plumb (f : HbFrame)
  | msix (port ld vector : Nat)
  | mgmtMsix
  | mailbox (port ld : Nat) (code : Nat) (data : List Word)
  /-- The outcome of an HDM decoder commit: committed, or the commit error. -/
  | hdm (port ld : Nat) (ok : Bool)
  | gpf (port phase us : Nat)
  | pwrEn (ball : Nat) (on : Bool)
  | psync (low : Bool)
  | cmdLow (us : Nat)
  | tdo (ir : Nat) (v : Bsr)
  | cfgReset (port ld : Nat)
  | mediaGpf (port : Nat)
  deriving DecidableEq, Repr

/-- Device time (15 R406 to R408; 16 R418; 11 R326). -/
structure TimeSt where
  dt : Nat := 0
  dtHigh : BitVec 32 := 0
  captureUnread : Bool := false
  sysclkOk : Bool := true
  syncSent : Option Nat := none
  dtSet : Bool := false
  deriving DecidableEq, Repr

/-- What this device knows of another device of its bay. -/
structure Peer where
  reachable : Bool
  dirtyCount : Nat
  health : Word
  deriving DecidableEq, Repr

/-- A BL command that runs (01 R49). -/
structure BlBusy where
  op : Nat
  a0 : Word
  a1 : Word
  a2 : Word
  since : Nat
  tag : Option Nat
  deriving DecidableEq, Repr

/-- A forwarded or repair read of another device being served: lines asked for and lines got. -/
structure FwdIn where
  dev : Nat
  port : Nat
  tag : Nat
  repair : Bool
  first : Nat
  lines : Nat
  got : List (Nat × LineData × Bool)
  code : Nat
  deriving DecidableEq, Repr

/-- A VERIFY of bytes `lo` to `hi - 1` of one bolt being carried out for request `id` (09 R273): lines got here, lines
poisoned on the other twin, reads left, lines repaired. -/
structure Verif where
  id : Nat
  lo : Nat
  hi : Nat
  got : List (Nat × LineData × Bool)
  bad : List Nat
  left : Nat
  repaired : Nat
  deriving DecidableEq, Repr

/-- Traffic accepted by the gate above the local entry's claim, held for the entry since a device time (03 R108; 01 R43). -/
structure GateHeld where
  id : Nat
  hdr : Hdr
  body : Payload
  since : Nat
  deriving DecidableEq, Repr

/-- A request of a link that waits for a path to its destination at this device (01 R41, R42): its number, and since when. -/
structure Transit where
  id : Nat
  hdr : Hdr
  body : Payload
  since : Nat
  deriving DecidableEq, Repr

/-- A TENANT_DELETE that this device carries out while the other devices say whether an LD of theirs is attached (01 R49): who asked
for it, and the tags of the answers that are still out. -/
structure TenantDel where
  tenant : Nat
  asker : Option Hdr
  waits : List Nat
  denied : Bool
  deriving DecidableEq, Repr

/-- Bolts, tenants, requests and routes (01). `transit` holds requests of links that wait for a path, `entryReads` the READ_ENTRY
commands of other devices that wait for a bad entry, `staleBolts` the bolts whose claim here is known to be stale (03 R109).
`crcBad` holds the bolts whose entry fails its CRC here, and
`fetches` the devices asked for such an entry that have not answered (01 R23). -/
structure BaySt where
  bolts : SMap BoltEntry := []
  boltCache : List Nat := []
  tenants : List Nat := []
  ldTenant : SMap Nat := []
  decoders : SMap (List Hdm) := []
  reqs : List Req := []
  nextId : Nat := 0
  nextTag : Nat := 0
  gate : SMap Nat := []
  gateHeld : List GateHeld := []
  crcBad : List Nat := []
  fetches : SMap (List Nat) := []
  peers : SMap Peer := []
  draining : List Nat := []
  blBusy : Option BlBusy := none
  fwdIn : List FwdIn := []
  verifs : List Verif := []
  gpfWait : List Nat := []
  transit : List Transit := []
  tenantDel : Option TenantDel := none
  entryReads : List (Nat × Hdr) := []
  staleBolts : List Nat := []
  deriving DecidableEq, Repr

/-- A dirty line: when it was first dirtied, its place in that order, and whether it lies in the
Crown (02 R60, R69, R70). -/
structure Dirty where
  since : Nat
  ord : Nat
  deriving DecidableEq, Repr

/-- A dirty-span or split-bitmap write on its way to the save area (02 R57, R59; 03 R123). -/
structure SpanWrite where
  span : Nat
  failed : Bool
  deriving DecidableEq, Repr

/-- A merge-buffer entry (02 R74). `base` says that the read below tier D of a closed entry's line is on its way. -/
structure Merge where
  sub : Nat
  line : Nat
  mask : Word
  poison : Bool
  opened : Nat
  base : Bool
  deriving DecidableEq, Repr

/-- A saved line (02 Table 2.8). -/
structure SaveLine where
  line : Nat
  poison : Bool
  data : LineData
  deriving DecidableEq, Repr

/-- A save frame as it lies on both modules of a mirror pair (02 R84, Table 2.8): SEQ, its lines, COUNT of them, the two modules,
and whether the CRC of each module's copy matches. -/
structure SaveFrame where
  seq : Nat
  lines : List SaveLine
  modules : List Nat
  crcOk : List Bool
  deriving DecidableEq, Repr

/-- The save area and the commit record (02 R84; 13 R378): the latest save with its epoch, its frames and the device time at
its start; whether it runs or waits for its commit, is written, and is committed. -/
structure SaveSt where
  epoch : Nat := 0
  frames : List SaveFrame := []
  startDt : Nat := 0
  active : Bool := false
  written : Bool := false
  committed : Bool := false
  deriving DecidableEq, Repr

/-- A FLUSH, carried out for request `id`, that waits for its frames on this device (02 R82). -/
structure FlushWait where
  id : Nat
  frames : List Nat
  deriving DecidableEq, Repr

/-- A MIGRATE, carried out for request `id`, that waits for spans on this device (04 R136): those to be cleaned first, and
those that move. -/
structure MoveWait where
  id : Nat
  target : Bool
  todo : List Nat
  going : List Nat
  deriving DecidableEq, Repr

/-- Persistence (02). `spanDue` holds the spans whose bit one module of its mirror still lacks (R57),
`copyBack` the frames asked back of the twin after a restart, by request tag (Table 2.9). `closing` holds the merge
entries that left the buffer and whose line is still to be read (R74), `lost` the lines whose repair is due. `destageQ` holds frames to be destaged whatever the level; `running` the frames
in a destage pass, with their tier P group and slot and whether the read of 02 R75 is still due; `again` the lines
of such a frame stored again during the pass (02 R70); `rmwRepair` the lines that 02 R76 asks of the
twin, by request tag. -/
structure LineSt where
  dirty : SMap Dirty := []
  ordNext : Nat := 0
  poison : List Nat := []
  poisonOverflow : Bool := false
  mask : SMap Word := []
  spanReg : List Nat := []
  splitMap : List Nat := []
  spanWrites : List SpanWrite := []
  spanLost : Bool := false
  spanDue : List Nat := []
  spanClears : List Nat := []
  copyBack : List (Nat × Nat) := []
  saveOut : List Nat := []
  merge : List Merge := []
  closing : List Merge := []
  lost : List Nat := []
  destaging : Bool := false
  throttled : Bool := false
  destageQ : List Nat := []
  running : SMap (Nat × Nat × Bool) := []
  again : SMap Word := []
  rmwRepair : List (Nat × Nat) := []
  flushes : List FlushWait := []
  storeZero : Bool := false
  writeThrough : Bool := true
  saveRate : Nat := 0
  deriving DecidableEq, Repr

/-- The pair states of 03 Table 3.4, in the order of TW_STATE.PAIR_STATE. -/
inductive PairState where
  | sync | paired | suspect | wait | taking | solo | feeding | rejoining | isolated | silent | yielded
  deriving DecidableEq, Repr

/-- One heartbeat path (03 R99 to R101). -/
structure Path where
  ref : Option (BitVec 32) := none
  last : Option Nat := none
  period : Nat := 100
  miss : Nat := 0
  lost : Bool := false
  deriving DecidableEq, Repr

/-- A takeover record of the claims partition of eNVM (03 R106). -/
structure ClaimRec where
  pair : Nat
  claim : Nat
  side : Nat
  rotation : Bool
  deriving DecidableEq, Repr

/-- A takeover record on its way to eNVM (03 R105, R106). -/
structure Taking where
  claim : Nat
  rotation : Bool
  bolts : List Nat
  trigger : Nat
  poisonList : Bool
  deriving DecidableEq, Repr

/-- The handover of one group (03 Table 3.7): this device's part in it. -/
structure Group where
  bolts : List Nat
  active : Bool
  step : Nat
  since : Nat
  hold : Nat
  down : Bool
  deriving DecidableEq, Repr

/-- The twin relation (03). `leaseFrom` is the SEND_DT of the latest own heartbeat echoed (R95), `period` the PERIOD_US of the latest
own heartbeat, `claims` the ring of takeover records, newest last (R106). `copyOut` holds the copies sent and not acknowledged by tag and frame, `copyCur` the
span that a returner is taking in, `copyAcks` the copies whose acknowledgement waits for a span's bit,
`mirrorOut` the stores mirrored beside their completion, by tag and bolt. -/
structure TwinSt where
  st : PairState := .sync
  fromRejoin : Bool := false
  enteredCarrierLost : Bool := false
  pathA : Path := {}
  pathB : Path := {}
  carrier : Bool := false
  txSeq : BitVec 32 := 0
  echoSeq : BitVec 32 := 0
  echoFrozen : Bool := false
  lastHb : Option HbFrame := none
  sent : List (BitVec 32 × Nat × Nat) := []
  leaseEnd : Nat := 0
  leaseFrom : Nat := 0
  period : Nat := 100
  claims : List ClaimRec := []
  lapsed : Bool := false
  peer : Option HbFrame := none
  freeUntil : List (Nat × Nat) := []
  triggerAt : Nat := 0
  syncAt : Nat := 0
  fenced : Bool := false
  yieldSlots : Nat := 0
  yieldSeq : Option (BitVec 32) := none
  portsFenced : Bool := false
  taking : Option Taking := none
  slot : Nat := 0
  cycle : Bool := false
  slotDue : Nat := 0
  slotWork : List Nat := []
  slotPending : Bool := false
  group : Option Group := none
  moved : Nat := 0
  maxHold : Nat := 0
  rejoinRole : Nat := 0
  copyList : List Nat := []
  copyBuilt : Bool := false
  full : Bool := false
  fullNext : Bool := false
  mapsIn : List MapKind := []
  peerSpans : List Nat := []
  peerHeld : List Nat := []
  fills : SMap (List Nat) := []
  mirrorOut : List (Nat × Nat) := []
  saveSolo : Bool := false
  auditNext : Nat := 0
  divergedDone : Bool := false
  pairedAt : Nat := 0
  diagBad : Bool := false
  fedAt : Option Nat := none
  copyOut : List (Nat × Nat) := []
  copyCur : Option Nat := none
  copyAcks : List (Nat × Hdr) := []
  downWork : List Nat := []
  deriving DecidableEq, Repr

/-- Home of a span (04 R131). -/
inductive Home where
  | p | f
  deriving DecidableEq, Repr

/-- Pin state of a span (04 R137). -/
inductive Pin where
  | none | d | p
  deriving DecidableEq, Repr

/-- A span record (04 R131, R132). -/
structure SpanRec where
  home : Home
  heat : Nat
  pin : Pin
  move : Option Home
  written : List Nat
  lastUse : Nat
  deriving DecidableEq, Repr

/-- A tenant's quotas with the device time of each write (04 R139). -/
structure Quota where
  d : Nat := 0
  p : Nat := 0
  f : Nat := 0
  dtD : Nat := 0
  dtP : Nat := 0
  dtF : Nat := 0
  deriving DecidableEq, Repr

/-- A Float region: frame writes, gap slot, start of its mapping, region whose contents it holds. -/
structure Region where
  writes : Nat := 0
  sinceGap : Nat := 0
  gap : Nat := 4095
  start : Nat := 0
  holds : Option Nat := none
  deriving DecidableEq, Repr

/-- Tiers, quotas and Float (04). `floatSeed` holds by module the random value from which the mapping of its regions starts (R145). -/
structure TierSt where
  spans : SMap SpanRec := []
  pmap : SMap (Nat × Nat) := []
  quotas : SMap Quota := []
  regions : SMap Region := []
  floatSeed : SMap Nat := []
  modWrites : SMap Nat := []
  volFrames : List Nat := []
  demoting : Bool := false
  moves : List MoveWait := []
  pFrames : Nat := 0
  fFrames : Nat := 0
  deriving DecidableEq, Repr

/-- A Crown way's line (05 R155). -/
structure Cell where
  line : Nat
  dirty : Bool
  filling : Bool
  deriving DecidableEq, Repr

/-- State of a way from 8 to 15 (05 R163 to R165). -/
inductive WaySt where
  | on | cleaning | off | waking
  deriving DecidableEq, Repr

/-- The Crown (05). `wrong` holds the number of wrong bits in each beat of a line that holds any, by line address and beat
(R155). -/
structure CrownSt where
  wrong : SMap (SMap Nat) := []
  cells : SMap Cell := []
  lfsr : List (BitVec 32) := List.replicate 32 1
  reload : List Nat := []
  ways : List WaySt := List.replicate 8 .on
  wayAgain : List Nat := []
  misses : List Nat := []
  verifies : List Nat := []
  missMax : List Nat := List.replicate 32 0
  deriving DecidableEq, Repr

/-- A frame resident in tier D: its D block, lines present, lines dirty, use stamp (06 R174). -/
structure DFrame where
  block : Nat
  present : Word
  dirty : Word
  lastUse : Nat
  deriving DecidableEq, Repr

/-- A read in a subchannel's queue (06 R182 to R184). -/
structure DReq where
  line : Nat
  arrived : Nat
  aged : Bool
  deriving DecidableEq, Repr

/-- A counting window over things seen (06 R173, R191). -/
structure Window where
  start : Nat
  seen : List Nat
  deriving DecidableEq, Repr

/-- A bank: its open row, and the row hits that have passed an older request of the bank (06 R182). -/
structure BankSt where
  row : Option Nat := none
  streak : Nat := 0
  deriving DecidableEq, Repr

/-- DRAM channels (06). `candidates`, `retired`, `softRows` and `hardRows` name rows by bank number and row (`bankKey`): candidates
for repair, retired, repaired until power is removed, repaired for good (R191 to R194). By subchannel, `dq` is the read queue, `wq`
the lines of the write queue, oldest first, `ptr` the rotating pointer over its banks (R182 to R184); `banks` goes by bank number,
`refBank` gives the bank index that a channel refreshes next (R188). `trowelFin` is when each Trowel pass made its last read (R195). -/
structure DramSt where
  dframes : SMap DFrame := []
  useIx : Nat := 0
  dq : SMap (List DReq) := []
  wq : SMap (List Nat) := []
  banks : SMap BankSt := []
  ptr : SMap Nat := []
  refBank : SMap Nat := []
  softRows : List (Nat × Nat) := []
  hardRows : List (Nat × Nat) := []
  trowelFin : List (Option Nat) := [none, none, none]
  markWin : SMap Window := []
  rowWin : SMap Window := []
  candidates : List (Nat × Nat) := []
  retired : List (Nat × Nat) := []
  trowelStart : List Nat := [0, 0, 0]
  trowelDone : List Nat := [0, 0, 0]
  pauseAt : SMap Nat := []
  build : Option DramBuild := none
  deriving DecidableEq, Repr

/-- A span map entry (07 Table 7.5); MOVING is shown by the changes in flight. `wseq` is the SEQ of the journal record that first mapped
the data, which the metadata of every frame of the span carries (Table 7.2, R204). -/
structure FSpan where
  fine : Option Nat
  refresh : Bool
  band : Nat
  slot : Nat
  wseq : Nat
  subw : Nat
  window : Nat
  lastSubw : Nat
  written : List Nat
  deriving DecidableEq, Repr

/-- Band states of 07 Table 7.7. -/
inductive BandSt where
  | free | opened | closed | victim | eligible | erasing
  deriving DecidableEq, Repr

/-- A band (07 R216); `suspends` counts the suspensions of its erases by die (07 R202). -/
structure Band where
  st : BandSt
  valid : Nat
  closeDt : Nat
  refresh : Bool
  fulling : Bool
  copied : Nat
  width : Nat
  next : Nat
  suspends : SMap Nat := []
  deriving DecidableEq, Repr

/-- A flash block (07 Table 7.4, R225); `leaving` marks one whose valid frames are being relocated after a program failure. -/
structure Block where
  erases : Nat
  fails : Nat
  reads : Nat
  retired : Bool
  leaving : Bool := false
  deriving DecidableEq, Repr

/-- A map journal record (07 Table 7.7); its CRC is that of its bytes. -/
structure JRec where
  seq : Nat
  type : Nat
  frame : Nat
  count : Nat
  key : Nat
  loc : Nat
  mask : List Nat
  deriving DecidableEq, Repr

/-- A copy of the map root (07 R214): the checkpoint's SEQ, the SEQ and the ring slot of the oldest journal record still needed,
and its own sequence number. -/
structure MapRoot where
  ckpt : Nat
  start : Nat
  slot : Nat
  seq : Nat
  deriving DecidableEq, Repr

/-- Kinds of a change that writes flash (07 R212): a migration from tier P, a copy of a run, a copy of one
frame of a frame-mapped span, a return to span mapping. -/
inductive ChgKind where
  | migrate | copyRun | copyFrame | toSpan
  deriving DecidableEq, Repr

/-- A change that writes flash (07 R212): the span, its frames, the flash frame addresses they are copied
from, the target band and its first slot, whether it is a Fulling band, whether it has been programmed, and how often, by die,
its programs have been suspended (07 R202). -/
structure FChange where
  id : Nat
  kind : ChgKind
  span : Nat
  frames : List Nat
  src : List Nat
  band : Nat
  slot : Nat
  fulling : Bool
  programmed : Bool
  suspends : SMap Nat := []
  deriving DecidableEq, Repr

/-- The flash tier (07). `ring` holds the journal records from the root's start on, oldest first, of which the last `jpending` wait
to be written; `roots` the two copies of the map root by number. `failed` holds the frames that no local step could read and whose repair has not ended (R205); `zqAt` is the device time of the latest ZQ calibration. -/
structure FlashSt where
  map : SMap FSpan := []
  fine : SMap (SMap Nat) := []
  bands : SMap Band := []
  blocks : SMap Block := []
  changes : List FChange := []
  nextChange : Nat := 0
  jseq : Nat := 0
  ring : List JRec := []
  jpending : Nat := 0
  jsize : Nat := 0
  ckptAt : Nat := 0
  ckptRunning : Bool := false
  ckptFrom : Nat := 0
  rootSeq : Nat := 0
  roots : SMap MapRoot := []
  ckptSeq : Nat := 0
  credits : Nat := 0
  classCounts : List Nat := List.replicate 9 0
  failed : List Nat := []
  lidBins : List Nat := List.replicate 32 0
  juncBins : List Nat := List.replicate 32 0
  spareLeft : Nat := 0
  spareFmt : Nat := 0
  finePool : Nat := 65536
  build : Option FlashBuild := none
  zqAt : Nat := 0
  deriving DecidableEq, Repr

/-- State of a stripe member in the order of ST_MEMBER_STAT.STATE (08 Table 8.10). -/
inductive MemberSt where
  | absent | inService | unavailable | lost | rebuilding | copyBack
  deriving DecidableEq, Repr

/-- A stripe member: a tier P module (0 to 31) or a flash channel (32 to 63). `cap` is a module's capacity in GiB, `rated` its
write cycles per line. -/
structure Member where
  st : MemberSt
  group : Nat
  pos : Nat
  rowsLeft : Nat
  rowsTotal : Nat
  cap : Nat
  rated : Nat
  deriving DecidableEq, Repr

/-- The Skim journal of a tier P group (08 R241 to R245). -/
structure Skim where
  epoch : Nat := 0
  seq : Nat := 0
  slot : Nat := 0
  a : Nat := 0
  b : Nat := 0
  kind : Nat := 0
  inFlight : List Nat := []
  batch : List Nat := []
  waiting : List Nat := []
  writing : Bool := false
  deriving DecidableEq, Repr

/-- A reshape (08 R258 to R260): `saved` is the cursor as it stands in eNVM, `autoPaused` a pause of the device's own and `noRoom` one
for want of free extents (Table 8.7). -/
structure Reshape where
  st : Nat := 0
  tier : Nat := 0
  total : Nat := 0
  cursor : Nat := 0
  sinceCursor : Nat := 0
  saved : Nat := 0
  autoPaused : Bool := false
  noRoom : Bool := false
  deriving DecidableEq, Repr

/-- Stripes (08). -/
structure StripeSt where
  members : SMap Member := []
  skim : SMap Skim := []
  subst : List (Nat × Nat × Nat) := []
  suspect : List (Nat × Nat) := []
  unreadable : List (Nat × Nat) := []
  heals : List (Nat × Nat) := []
  resyncKind : Nat := 0
  resyncFull : Bool := false
  resyncAt : Nat := 0
  partialRows : Nat := 0
  allowance : SMap Nat := []
  geom : Option StripeGeom := none
  target : Option StripeGeom := none
  reshape : Reshape := {}
  deriving DecidableEq, Repr

/-- Queue states in the order of 09 Table 9.1. -/
inductive QState where
  | stopped | running | error | stopping
  deriving DecidableEq, Repr

/-- A Queue Table entry (09 Table 9.1). -/
structure QEntry where
  capture : Bool
  st : QState
  prio : Nat
  tenant : Nat
  port : Nat
  ld : Nat
  vector : Nat
  irqEn : Bool
  irqCount : Nat
  irqUs : Nat
  sqBase : Nat
  sqLog2 : Nat
  cqBase : Nat
  cqLog2 : Nat
  sqHead : Nat
  sqTail : Nat
  cqTail : Nat
  cqHead : Nat
  sqPhase : Bool
  cqPhase : Bool
  errCode : Nat
  ringBase : Nat
  ringLog2 : Nat
  fullMode : Nat
  windowUs : Nat
  winSeq : Nat
  wrPtr : Nat
  rdPtr : Nat
  deriving DecidableEq, Repr

/-- How far a descriptor has come: its line is read, it has been fetched, it runs with parts left, its operands are
in and it goes on, its operation has ended, its completion entry is being stored. -/
inductive DescSt where
  | fetching
  | fetched
  | running (left : Nat)
  | loaded
  | ended
  | writing
  deriving DecidableEq, Repr

/-- A descriptor from its fetch to its completion entry (09 R269 to R272). `more` says that the operation goes on when its
parts have ended, `held` that a CAPTURE waits for ring space, `notify` that its entry raises an interrupt, `got` the lines of
its payload, `res` the results of its parts by range offset, `engine` the engine of R290. The device's own ring stores
(a WINDOW_END, a window completion) are no descriptors: `own`. -/
structure Desc where
  q : Nat
  ix : Nat
  d : LineData
  st : DescSt
  code : Nat
  stamp : Nat
  own : Bool
  more : Bool
  held : Bool
  notify : Bool
  got : List (Nat × LineData × Bool)
  res : List (Nat × Nat × LineData)
  engine : Nat
  deriving DecidableEq, Repr

/-- A capture window being closed (09 R280): its number, the ring unit and SEQ of its WINDOW_END, what that record says,
and the number of its store once it is on its way. -/
structure Closing where
  win : Nat
  unit : Nat
  seq : Nat
  records : Nat
  dropped : Nat
  crc : BitVec 32
  stop : Bool
  restart : Bool
  ix : Option Nat
  deriving DecidableEq, Repr

/-- A capture queue's ring (09 R278 to R283): SEQ, the open window with its counts and CRC, the windows being closed, the
ring units after the WINDOW_END of each closed window, the window completions that wait for the CQ or for START, and
what tier P keeps of WR_PTR, RD_PTR and SEQ. -/
structure Cap where
  seq : Nat := 0
  window : Option Nat := none
  records : Nat := 0
  dropped : Nat := 0
  crc : BitVec 32 := 0xFFFFFFFF#32
  closings : List Closing := []
  closed : List Nat := []
  done : List Nat := []
  restarted : Option Nat := none
  stopDue : Bool := false
  saved : Nat × Nat × Nat := (0, 0, 0)
  scanned : Bool := true
  deriving DecidableEq, Repr

/-- Queues and capture rings (09). -/
structure QueueSt where
  table : SMap QEntry := []
  contexts : List Nat := []
  ctxWait : List Nat := []
  descs : List Desc := []
  nextIx : Nat := 0
  irq : SMap (Nat × Nat) := []
  caps : SMap Cap := []
  stopping : List (Nat × Nat) := []
  arb : List Nat := [8, 4, 2, 1]
  lastOf : List Nat := [0, 0, 0, 0]
  phaseStop : List Nat := []
  deriving DecidableEq, Repr

/-- A tile-store slot (10 R286). -/
structure Slot where
  valid : Bool
  tile : Tile
  deriving DecidableEq, Repr

/-- A layer entry of a container (10 Table 10.3). -/
structure LayerE where
  kernel : Nat
  ops : List Nat
  outs : List Nat
  param : Nat
  deriving DecidableEq, Repr

/-- A tile descriptor of a container (10 Table 10.4). -/
structure TileD where
  slot : Nat
  kind : Nat
  layout : Nat
  esize : Nat
  argIndex : Nat
  trim : Bool
  offset : Nat
  pitch : Nat
  cols : Nat
  deriving DecidableEq, Repr

/-- A program container as read at job start (10 Table 10.2). -/
structure Container where
  layers : List LayerE
  tiles : List TileD
  kernels : Nat
  tolerant : Bool
  deadlineUs : Nat
  cyclesLog2 : Nat
  params : List (List Byte)
  deriving DecidableEq, Repr

/-- A layer that has ended and is not complete (10 R295): the slots it is written back from, whether it is an SCT layer, the
stores left, the first code of a store that failed, and what its record says. -/
structure Wb where
  layer : Nat
  slots : List Nat
  sct : Bool
  left : Nat
  code : Nat
  status : Nat
  flags : Nat
  cycles : Nat
  value : List Byte
  deriving DecidableEq, Repr

/-- The running job of an engine (10 R294 to R300). `layer` runs, or starts next; `resident` and `fetching` are the slots
whose fetched operands are in, or on their way, for the layer that starts next; `wbs` the layers being written back, oldest
first; `endCode` and `failed` what ends the job and at which layer; `closing` says that its result header is on its way,
`leaving` that it waits for another engine after a fault. A TILE_FETCH has no layers and one tile. -/
structure Run where
  q : Nat
  ix : Nat
  tenant : Nat
  prog : Container
  args : List Nat
  deadlineUs : Nat
  layer : Nat
  layerRunning : Bool
  resident : List Nat
  fetching : List Nat
  holdSince : Option Nat
  holdUs : Nat
  wbs : List Wb
  completed : Nat
  poison : Bool
  endCode : Option Nat
  failed : Option Nat
  fault : Nat
  faults : Nat
  startDt : Nat
  closing : Bool
  leaving : Bool
  deriving DecidableEq, Repr

/-- An engine (10 R286, R287). `prefetched` holds the slots that R297 has filled for the next job. -/
structure Engine where
  slots : SMap Slot := []
  tenant : Nat := 0
  jobs : List (Nat × Nat) := []
  run : Option Run := none
  faultTimes : List Nat := []
  off : Bool := false
  prefetched : List Nat := []
  deriving DecidableEq, Repr

/-- Engines (10). -/
structure EngineSt where
  eng : SMap Engine := []
  enabled : List Nat := []
  deriving DecidableEq, Repr

/-- Ports, links and mailboxes (11). Keys per LD are port × 16 + ld. `triedAt` is when a port last failed its training. `txBytes` and `rxBytes` count what
PT_TRAFFIC has not reached a MiB for yet; `rated` holds the endurance records, `modCount` the count last read from each
module, `disabled` the links disabled for removal, `timeOff` the offsets of host time set on the LDs' bay. -/
structure PortSt where
  helloSince : SMap Nat := []
  triedAt : SMap Nat := []
  credits : SMap Nat := []
  sendq : List (Nat × Hdr × Payload) := []
  lsa : SMap (SMap Byte) := []
  cxlLogs : SMap (List (BitVec 256)) := []
  cxlOverflow : List Nat := []
  msixMasked : List Nat := []
  msixPending : List Nat := []
  rated : List (Nat × Nat × Nat × Nat) := []
  modCount : SMap Nat := []
  streamPort : SMap Nat := []
  streamWait : List (Nat × Hdr × Payload) := []
  disabled : List Nat := []
  timeOff : Option (Nat × Nat) := none
  txBytes : SMap Nat := []
  rxBytes : SMap Nat := []
  deriving DecidableEq, Repr

/-- The latest commit record (12 Table 12.7). -/
structure Commit where
  seq : Nat
  state : Nat
  func : Nat
  inst : Nat
  oldSlot : Nat
  newSlot : Nat
  boot : Nat
  fallback : Nat
  oldVersion : BitVec 64
  newVersion : BitVec 64
  dt : Nat
  deriving DecidableEq, Repr

/-- A record on its way to eNVM (12 R340, R351): a commit record, or the wrap record of a key slot. Black-box records wait in
EventSt.bbWrites. -/
inductive EnvmRec where
  | commit (c : Commit)
  | wrap (slot : Nat)
  deriving DecidableEq, Repr

/-- A change or restart in progress (12 Table 12.6): its class and instance, the slots, the fallback slot before it, its step
and start; whether it rolls back, and whether a lost PLL lock asked for it (12 R345). -/
structure Change where
  restart : Bool
  cls : Nat
  inst : Nat
  newSlot : Nat
  oldSlot : Nat
  fallback : Nat
  step : Nat
  since : Nat
  rolling : Bool
  pll : Bool
  deriving DecidableEq, Repr

/-- A slot of the image partition (12 R330, R333): state code, refuse code and step, image. -/
structure ISlot where
  st : Nat
  code : Nat
  step : Nat
  img : Option Image
  deriving DecidableEq, Repr

/-- Block image, change sets and islands (12). `envm` holds the records on their way to eNVM, oldest first, `relock` the
functions that wait for a restart after a lost PLL lock. -/
structure ImageSt where
  slots : SMap ISlot := []
  commit : Option Commit := none
  envm : List EnvmRec := []
  change : Option Change := none
  relock : List (Nat × Nat) := []
  running : Option Image := none
  chosen : Nat := 0
  fellBack : Bool := false
  bayId : BitVec 64 := 0
  baySerial : BitVec 64 := 0
  topo : List (Nat × List Nat) := []
  saveModules : List Nat := []
  unlocked : List Nat := []
  policy : SMap (Nat × Nat) := []
  deriving DecidableEq, Repr

/-- Key slot states in the order of XT_SLOT_STAT.STATE (12 R349). -/
inductive KeySt where
  | empty | loaded | deleted | lost
  deriving DecidableEq, Repr

/-- A key slot (12 R349, R350). -/
structure KeySlot where
  st : KeySt
  tenant : Nat
  key1 : BitVec 256
  key2 : BitVec 256
  deriving DecidableEq, Repr

/-- Keys and cipher (12). -/
structure CipherSt where
  slots : SMap KeySlot := []
  wraps : SMap (KeySt × Nat) := []
  coreFaults : SMap (List Nat) := []
  retries : List Nat := []
  deriving DecidableEq, Repr

/-- A rail and its monitor (13 R368, R369). -/
structure Rail where
  mv : Nat := 0
  level : Nat := 0
  overWarn : Nat := 0
  overFault : Nat := 0
  inWarn : Nat := 0
  inFault : Nat := 0
  enabled : Bool := false
  junction : Nat := 0
  jLevel : Nat := 0
  jOverWarn : Nat := 0
  jOverFault : Nat := 0
  jInWarn : Nat := 0
  jInFault : Nat := 0
  deriving DecidableEq, Repr

/-- The command low that the device is to drive (13 R362, R363). -/
inductive CmdLow where
  | turn | loop | reset
  deriving DecidableEq, Repr

/-- Power sequencing (13). `holding` says that the device holds PSYNC low, `cmd` the command low that is due, `due` the cause
that the down path is to record in state 15, `turnBack` that the due TURN goes back to state 14, `railMap` the PWR_EN ball of
each rail, `waitToggle` that PWR_REQ is to be deasserted first (13 R378), `downTop` the highest state of the last down path. -/
structure PowerSt where
  state : Nat := 0
  begun : Bool := false
  holding : Bool := true
  psyncHigh : Bool := false
  cmd : Option CmdLow := none
  cause : Nat := 0
  due : Nat := 0
  turnBack : Bool := false
  pwrReq : Bool := false
  pfWarn : Bool := false
  pfFail : Bool := false
  supply : Bool := false
  rails : SMap Rail := []
  railMap : List Nat := []
  waitToggle : Bool := false
  testMode : Bool := false
  testPin : Bool := false
  throttle : Bool := false
  emergency : Option (Nat × Nat × Nat) := none
  downTop : Nat := 0
  mgmtUp : Bool := false
  deriving DecidableEq, Repr

/-- An event record (14 Table 14.2). -/
structure EvRec where
  dt : Nat
  seq : Nat
  cls : Nat
  blk : Nat
  inst : Nat
  reg : Nat
  bit : Nat
  device : Nat
  argKind : Nat
  count : Nat
  arg : Word
  deriving DecidableEq, Repr

/-- The body of a black-box record (14 Table 14.6). -/
inductive BBody where
  | event (e : EvRec) (reg pw tw dirty : Word)
  | boot (version : Word) (slot cause : Nat) (fallback : Bool)
  | commit (epoch frames dt cause : Nat)
  | spanLoss (span cause spans : Nat)
  | takeover (pair trigger claim : Nat)
  | emergency (rail state dt : Nat)
  deriving DecidableEq, Repr

/-- A black-box record (14 Table 14.5). `torn` says that its CRC does not match. -/
structure BBRec where
  seq : Nat
  dt : Nat
  cls : Nat
  device : Nat
  state : Nat
  boot : Nat
  body : BBody
  torn : Bool
  deriving DecidableEq, Repr

/-- A health summary slot (14 Table 14.7). -/
structure Health where
  seq : Nat
  dt : Nat
  counters : List Nat
  lid : List Nat
  junction : List Nat
  classes : List Nat
  deriving DecidableEq, Repr

/-- Events, black box and health log (14). The log is keyed by entry number 0 to 4,095. -/
structure EventSt where
  log : SMap EvRec := []
  head : Nat := 0
  tail : Nat := 0
  unread : Nat := 0
  nextSeq : Nat := 0
  aonBuf : List EvRec := []
  bbRing : SMap BBRec := []
  bbNext : Nat := 0
  bbWrites : List BBRec := []
  rateStart : Nat := 0
  rateCount : Nat := 0
  health : List Nat := List.replicate 16 0
  summaries : SMap Health := []
  summarySeq : Nat := 0
  list : List (Nat × Nat × Nat) := []
  coalesce : SMap (Nat × Bool) := []
  lossCause : Nat := 0
  lossCount : Nat := 0
  deriving DecidableEq, Repr

/-- TAP instructions of 16 Table 16.5. -/
inductive TapIr where
  | bypass | idcode | sample | extest | clamp | highz | pulse | train | envmRead | otp
  deriving DecidableEq, Repr

/-- The test port (16 R419 to R421). -/
structure JtagSt where
  ir : TapIr := .idcode
  bsr : Bsr := 0
  latch : Bsr := 0
  addr : Nat := 0
  health : Bool := false
  busy : Bool := false
  ready : Bool := false
  data : Word := 0
  nvmOn : Bool := false
  deriving DecidableEq, Repr

/-- One-time-programmable cells and the security floor (12 R334, R351; 15 R405). -/
structure OtpSt where
  gwHash : Option (BitVec 384) := none
  custHash : Option (BitVec 384) := none
  deviceKey : Option (BitVec 256) := none
  floor : Nat := 0
  deriving DecidableEq, Repr

/-- The state of the device. `regs` holds the registers that no other field is the home of, each as
its difference from its reset value (Machine/Ops.lean, State.reg). -/
structure State where
  pending : List Instr := []
  out : List Out := []
  regs : SMap Word := []
  freeIx : Nat := 0
  time : TimeSt := {}
  bay : BaySt := {}
  mem : List Host.Cell := []
  lines : LineSt := {}
  save : SaveSt := {}
  twin : TwinSt := {}
  tier : TierSt := {}
  crown : CrownSt := {}
  dram : DramSt := {}
  flash : FlashSt := {}
  stripe : StripeSt := {}
  queues : QueueSt := {}
  engines : EngineSt := {}
  ports : PortSt := {}
  image : ImageSt := {}
  cipher : CipherSt := {}
  power : PowerSt := {}
  events : EventSt := {}
  jtag : JtagSt := {}
  otp : OtpSt := {}
  deriving DecidableEq, Repr

/-- The device right after AON reset with empty media: every register at its reset value, device
time 0 (15 R406), power state 0 (13 R365), nothing in the range, nothing waiting. -/
def State.reset : State := {}

end Sys2Proof.Machine
end

