-- ==== Sys2Proof/Machine/RegMap.lean ====
section
/-! DEFINITION. The register map (15 R399 to R409): every register with its block base, stride, count,
reset value and fields, written from the tables of the chapters that own the blocks. F.<REGISTER>.<FIELD>
names a field. The event log window and the doorbell window are views (Machine/Views.lean). -/

namespace Sys2Proof.Machine

open Sys2Proof

/-- The registers of the map. -/
inductive Reg where
  | GB_ID | GB_SERIAL | GB_SCRATCH | GB_TEMP | GB_ACCESS_STATUS | GB_ACCESS_LOG | BL_DEVICE_ID | BL_RANGE_LIMIT
  | BL_CMD | BL_CMD_ARG0 | BL_CMD_ARG1 | BL_CMD_ARG2 | BL_CMD_ARG3 | BL_CMD_STATUS | BL_STATUS | BL_FWD_TIMEOUT
  | BL_CACHE_STAT | BL_ROUTE | PW_DIRTY_BUDGET | PW_ENERGY_DECL | PW_DIRTY_STAT | PW_DESTAGE_CTL | PW_PERSIST_STATUS | PW_POISON_LOG
  | PW_POISON_COUNT | TW_HB_CTL | TW_TIMING | TW_STATE | TW_CLAIM_LOCAL | TW_CLAIM_PEER | TW_HB_SEQ | TW_PEER_DT
  | TW_LEASE_END | TW_STATUS | TW_MISS_STAT | TW_ROTATE_CTL | TW_ROTATE_STAT | TW_CMD | TW_CMD_STATUS | TW_REJOIN_STAT
  | TW_SPLIT_DT | ST_TIER_CTL | ST_TIER_STAT | ST_TIER_STATUS | ST_MIG_COUNT | ST_QUOTA_SEL | ST_QUOTA_D | ST_QUOTA_P
  | ST_QUOTA_F | ST_USE_D | ST_USE_P | ST_USE_F | ST_FLOAT_CTL | ST_FLOAT_STAT | CR_WAY_PWR | CR_WAY_STAT
  | CR_STATUS | CR_LFSR_SEED | CR_SLICE_SEL | CR_SLICE_STAT | CR_HIT_STAT | CR_ERR_STAT | DC_CFG | DC_STATUS
  | DC_ERR_STAT | DC_ERR_LOG | DC_MARK | DC_TRN_CTL | DC_TRN_PAT | DC_TRN_CMP | DC_RETRAIN | DC_REFRESH_CTL
  | DC_PPR_CMD | DC_MAP | DC_TROWEL_CTL | DC_TROWEL_STAT | DC_COAT_STAT | FL_CFG | FL_STATUS | FL_ERR_STAT
  | FL_BLOCKS | FL_MAP_CTL | FL_MAP_STAT | FL_FULL_CTL | FL_FULL_STAT | FL_RETRY_CTL | FL_DEV_STATUS | FL_HEALTH
  | FL_CLASS_SEL | FL_CLASS_COUNT | FL_TEMP_SEL | FL_TEMP_STAT | ST_P_CFG | ST_F_CFG | ST_MEMBER_SEL | ST_MEMBER_STAT
  | ST_REBUILD_CTL | ST_REBUILD_STAT | ST_RESYNC_STAT | ST_SKIM_STAT | ST_STATUS | ST_LOSS_LOG | ST_RESHAPE_CMD | ST_RESHAPE_STAT
  | ST_PARITY_STAT | QU_TABLE_BASE | QU_CMD | QU_CMD_ARG0 | QU_CMD_ARG1 | QU_CMD_ARG2 | QU_CMD_ARG3 | QU_CMD_ARG4
  | QU_CMD_STATUS | QU_STATUS | QU_ERR_LOG | QU_CTX_STAT | QU_COUNT | QU_CAP_STAT | EN_STATE | EN_JOB
  | EN_STATUS | EN_FAULT_LOG | EN_COUNT | EN_CTL | EN_AVAIL | EN_DEV_STATUS | PT_CFG | PT_LINK
  | PT_STATUS | PT_ERR_STAT | PT_PEER | PT_CMD | PT_TRAFFIC | PT_LD | PT_QUAD | PT_DEV_STATUS
  | PT_MGMT_LINK | IS_BOOT | IS_VERSION | IS_SLOT_STAT | IS_CMD | IS_CMD_ARG0 | IS_CMD_ARG1 | IS_CMD_STATUS
  | IS_STATUS | IS_CHANGE_STAT | IS_FUNC_STOPPED | IS_BOLT_STOPPED | IS_ISLAND_SEL | IS_ISLAND_STAT | IS_SVN | XT_CTL
  | XT_CMD | XT_CMD_ARG0 | XT_CMD_STATUS | XT_STATUS | XT_SLOT_SEL | XT_SLOT_STAT | XT_FAULT_LOG | XT_AVAIL
  | XT_COUNT | XT_SLOTS_USED | XT_KEY_DATA | PW_STATE | PW_STATUS | PW_DOWN_LOG | PW_SAVE_STAT | PW_RAIL_SEL
  | PW_RAIL_CFG | PW_RAIL_STAT | BB_EV_CTL | BB_EV_PTR | BB_EV_STAT | BB_PENDING | BB_STATUS | BB_SEQ
  | BB_AON_ADDR | BB_AON_DATA | BB_HEALTH_SEL | BB_HEALTH_DATA | TM_DT | TM_SYNC | TM_HOST_OFFSET | TM_STATUS
  | TM_CAPTURE_CTL | TM_CAPTURE
  deriving DecidableEq, Repr

/-- Access types of a field (00 Table 0.4). -/
inductive Acc where
  | ro | rw | w1c | w1s | wo
  deriving DecidableEq, Repr

/-- A field: its register, lowest bit, width, access type and, for a flag that names one, its event
class (14 Table 14.1). -/
structure FieldRef where
  reg : Reg
  lo : Nat
  w : Nat
  acc : Acc
  cls : Option Nat
  deriving DecidableEq, Repr

/-- Where a register lies (15 R399): offset of instance 0 in the register space, stride, instances. -/
structure RegInfo where
  base : Nat
  stride : Nat
  count : Nat
  deriving DecidableEq, Repr

/-- Place of each register. The instance of PT_LD is port × 16 + LD (Reg.addr). -/
def Reg.info (r : Reg) : RegInfo :=
  match r with
  | .GB_ID => ⟨0x0, 0x0, 1⟩
  | .GB_SERIAL => ⟨0x8, 0x0, 1⟩
  | .GB_SCRATCH => ⟨0x10, 0x0, 1⟩
  | .GB_TEMP => ⟨0x18, 0x0, 1⟩
  | .GB_ACCESS_STATUS => ⟨0x20, 0x0, 1⟩
  | .GB_ACCESS_LOG => ⟨0x28, 0x0, 1⟩
  | .BL_DEVICE_ID => ⟨0x500000, 0x0, 1⟩
  | .BL_RANGE_LIMIT => ⟨0x500008, 0x0, 1⟩
  | .BL_CMD => ⟨0x500010, 0x0, 1⟩
  | .BL_CMD_ARG0 => ⟨0x500018, 0x0, 1⟩
  | .BL_CMD_ARG1 => ⟨0x500020, 0x0, 1⟩
  | .BL_CMD_ARG2 => ⟨0x500028, 0x0, 1⟩
  | .BL_CMD_ARG3 => ⟨0x500030, 0x0, 1⟩
  | .BL_CMD_STATUS => ⟨0x500038, 0x0, 1⟩
  | .BL_STATUS => ⟨0x500040, 0x0, 1⟩
  | .BL_FWD_TIMEOUT => ⟨0x500048, 0x0, 1⟩
  | .BL_CACHE_STAT => ⟨0x500050, 0x0, 1⟩
  | .BL_ROUTE => ⟨0x500100, 0x8, 64⟩
  | .PW_DIRTY_BUDGET => ⟨0x100400, 0x0, 1⟩
  | .PW_ENERGY_DECL => ⟨0x100408, 0x0, 1⟩
  | .PW_DIRTY_STAT => ⟨0x100410, 0x0, 1⟩
  | .PW_DESTAGE_CTL => ⟨0x100418, 0x0, 1⟩
  | .PW_PERSIST_STATUS => ⟨0x100420, 0x0, 1⟩
  | .PW_POISON_LOG => ⟨0x100428, 0x0, 1⟩
  | .PW_POISON_COUNT => ⟨0x100430, 0x0, 1⟩
  | .TW_HB_CTL => ⟨0x400000, 0x0, 1⟩
  | .TW_TIMING => ⟨0x400008, 0x0, 1⟩
  | .TW_STATE => ⟨0x400010, 0x0, 1⟩
  | .TW_CLAIM_LOCAL => ⟨0x400018, 0x0, 1⟩
  | .TW_CLAIM_PEER => ⟨0x400020, 0x0, 1⟩
  | .TW_HB_SEQ => ⟨0x400028, 0x0, 1⟩
  | .TW_PEER_DT => ⟨0x400030, 0x0, 1⟩
  | .TW_LEASE_END => ⟨0x400038, 0x0, 1⟩
  | .TW_STATUS => ⟨0x400040, 0x0, 1⟩
  | .TW_MISS_STAT => ⟨0x400048, 0x0, 1⟩
  | .TW_ROTATE_CTL => ⟨0x400050, 0x0, 1⟩
  | .TW_ROTATE_STAT => ⟨0x400058, 0x0, 1⟩
  | .TW_CMD => ⟨0x400060, 0x0, 1⟩
  | .TW_CMD_STATUS => ⟨0x400068, 0x0, 1⟩
  | .TW_REJOIN_STAT => ⟨0x400070, 0x0, 1⟩
  | .TW_SPLIT_DT => ⟨0x400078, 0x0, 1⟩
  | .ST_TIER_CTL => ⟨0xa02000, 0x0, 1⟩
  | .ST_TIER_STAT => ⟨0xa02008, 0x0, 1⟩
  | .ST_TIER_STATUS => ⟨0xa02010, 0x0, 1⟩
  | .ST_MIG_COUNT => ⟨0xa02018, 0x0, 1⟩
  | .ST_QUOTA_SEL => ⟨0xa02020, 0x0, 1⟩
  | .ST_QUOTA_D => ⟨0xa02028, 0x0, 1⟩
  | .ST_QUOTA_P => ⟨0xa02030, 0x0, 1⟩
  | .ST_QUOTA_F => ⟨0xa02038, 0x0, 1⟩
  | .ST_USE_D => ⟨0xa02040, 0x0, 1⟩
  | .ST_USE_P => ⟨0xa02048, 0x0, 1⟩
  | .ST_USE_F => ⟨0xa02050, 0x0, 1⟩
  | .ST_FLOAT_CTL => ⟨0xa02058, 0x0, 1⟩
  | .ST_FLOAT_STAT => ⟨0xa02060, 0x0, 1⟩
  | .CR_WAY_PWR => ⟨0x700000, 0x0, 1⟩
  | .CR_WAY_STAT => ⟨0x700008, 0x0, 1⟩
  | .CR_STATUS => ⟨0x700010, 0x0, 1⟩
  | .CR_LFSR_SEED => ⟨0x700018, 0x0, 1⟩
  | .CR_SLICE_SEL => ⟨0x700020, 0x0, 1⟩
  | .CR_SLICE_STAT => ⟨0x700028, 0x0, 1⟩
  | .CR_HIT_STAT => ⟨0x700030, 0x0, 1⟩
  | .CR_ERR_STAT => ⟨0x700038, 0x0, 1⟩
  | .DC_CFG => ⟨0x800000, 0x4000, 32⟩
  | .DC_STATUS => ⟨0x800008, 0x4000, 32⟩
  | .DC_ERR_STAT => ⟨0x800010, 0x4000, 32⟩
  | .DC_ERR_LOG => ⟨0x800018, 0x4000, 32⟩
  | .DC_MARK => ⟨0x800020, 0x4000, 32⟩
  | .DC_TRN_CTL => ⟨0x800028, 0x4000, 32⟩
  | .DC_TRN_PAT => ⟨0x800030, 0x4000, 32⟩
  | .DC_TRN_CMP => ⟨0x800038, 0x4000, 32⟩
  | .DC_RETRAIN => ⟨0x800040, 0x4000, 32⟩
  | .DC_REFRESH_CTL => ⟨0x800048, 0x4000, 32⟩
  | .DC_PPR_CMD => ⟨0x800050, 0x4000, 32⟩
  | .DC_MAP => ⟨0x880000, 0x0, 1⟩
  | .DC_TROWEL_CTL => ⟨0x880008, 0x0, 1⟩
  | .DC_TROWEL_STAT => ⟨0x880010, 0x0, 1⟩
  | .DC_COAT_STAT => ⟨0x880018, 0x0, 1⟩
  | .FL_CFG => ⟨0x900000, 0x4000, 32⟩
  | .FL_STATUS => ⟨0x900008, 0x4000, 32⟩
  | .FL_ERR_STAT => ⟨0x900010, 0x4000, 32⟩
  | .FL_BLOCKS => ⟨0x900018, 0x4000, 32⟩
  | .FL_MAP_CTL => ⟨0x980000, 0x0, 1⟩
  | .FL_MAP_STAT => ⟨0x980008, 0x0, 1⟩
  | .FL_FULL_CTL => ⟨0x980010, 0x0, 1⟩
  | .FL_FULL_STAT => ⟨0x980018, 0x0, 1⟩
  | .FL_RETRY_CTL => ⟨0x980020, 0x0, 1⟩
  | .FL_DEV_STATUS => ⟨0x980028, 0x0, 1⟩
  | .FL_HEALTH => ⟨0x980030, 0x0, 1⟩
  | .FL_CLASS_SEL => ⟨0x980038, 0x0, 1⟩
  | .FL_CLASS_COUNT => ⟨0x980040, 0x0, 1⟩
  | .FL_TEMP_SEL => ⟨0x980048, 0x0, 1⟩
  | .FL_TEMP_STAT => ⟨0x980050, 0x0, 1⟩
  | .ST_P_CFG => ⟨0xa00000, 0x0, 1⟩
  | .ST_F_CFG => ⟨0xa00008, 0x0, 1⟩
  | .ST_MEMBER_SEL => ⟨0xa00010, 0x0, 1⟩
  | .ST_MEMBER_STAT => ⟨0xa00018, 0x0, 1⟩
  | .ST_REBUILD_CTL => ⟨0xa00020, 0x0, 1⟩
  | .ST_REBUILD_STAT => ⟨0xa00028, 0x0, 1⟩
  | .ST_RESYNC_STAT => ⟨0xa00030, 0x0, 1⟩
  | .ST_SKIM_STAT => ⟨0xa00038, 0x0, 1⟩
  | .ST_STATUS => ⟨0xa00040, 0x0, 1⟩
  | .ST_LOSS_LOG => ⟨0xa00048, 0x0, 1⟩
  | .ST_RESHAPE_CMD => ⟨0xa00050, 0x0, 1⟩
  | .ST_RESHAPE_STAT => ⟨0xa00058, 0x0, 1⟩
  | .ST_PARITY_STAT => ⟨0xa00060, 0x0, 1⟩
  | .QU_TABLE_BASE => ⟨0x600000, 0x0, 1⟩
  | .QU_CMD => ⟨0x600008, 0x0, 1⟩
  | .QU_CMD_ARG0 => ⟨0x600010, 0x0, 1⟩
  | .QU_CMD_ARG1 => ⟨0x600018, 0x0, 1⟩
  | .QU_CMD_ARG2 => ⟨0x600020, 0x0, 1⟩
  | .QU_CMD_ARG3 => ⟨0x600028, 0x0, 1⟩
  | .QU_CMD_ARG4 => ⟨0x600030, 0x0, 1⟩
  | .QU_CMD_STATUS => ⟨0x600038, 0x0, 1⟩
  | .QU_STATUS => ⟨0x600040, 0x0, 1⟩
  | .QU_ERR_LOG => ⟨0x600048, 0x0, 1⟩
  | .QU_CTX_STAT => ⟨0x600050, 0x0, 1⟩
  | .QU_COUNT => ⟨0x600058, 0x0, 1⟩
  | .QU_CAP_STAT => ⟨0x600060, 0x0, 1⟩
  | .EN_STATE => ⟨0xb00000, 0x4000, 48⟩
  | .EN_JOB => ⟨0xb00008, 0x4000, 48⟩
  | .EN_STATUS => ⟨0xb00010, 0x4000, 48⟩
  | .EN_FAULT_LOG => ⟨0xb00018, 0x4000, 48⟩
  | .EN_COUNT => ⟨0xb00020, 0x4000, 48⟩
  | .EN_CTL => ⟨0xbc0000, 0x0, 1⟩
  | .EN_AVAIL => ⟨0xbc0008, 0x0, 1⟩
  | .EN_DEV_STATUS => ⟨0xbc0010, 0x0, 1⟩
  | .PT_CFG => ⟨0xc00000, 0x1000, 96⟩
  | .PT_LINK => ⟨0xc00008, 0x1000, 96⟩
  | .PT_STATUS => ⟨0xc00010, 0x1000, 96⟩
  | .PT_ERR_STAT => ⟨0xc00018, 0x1000, 96⟩
  | .PT_PEER => ⟨0xc00020, 0x1000, 96⟩
  | .PT_CMD => ⟨0xc00028, 0x1000, 96⟩
  | .PT_TRAFFIC => ⟨0xc00030, 0x1000, 96⟩
  | .PT_LD => ⟨0xc00100, 0x1000, 1536⟩
  | .PT_QUAD => ⟨0xc60000, 0x8, 24⟩
  | .PT_DEV_STATUS => ⟨0xc60100, 0x0, 1⟩
  | .PT_MGMT_LINK => ⟨0xc60108, 0x0, 1⟩
  | .IS_BOOT => ⟨0x200000, 0x0, 1⟩
  | .IS_VERSION => ⟨0x200008, 0x0, 1⟩
  | .IS_SLOT_STAT => ⟨0x200010, 0x8, 4⟩
  | .IS_CMD => ⟨0x200030, 0x0, 1⟩
  | .IS_CMD_ARG0 => ⟨0x200038, 0x0, 1⟩
  | .IS_CMD_ARG1 => ⟨0x200040, 0x0, 1⟩
  | .IS_CMD_STATUS => ⟨0x200048, 0x0, 1⟩
  | .IS_STATUS => ⟨0x200050, 0x0, 1⟩
  | .IS_CHANGE_STAT => ⟨0x200058, 0x0, 1⟩
  | .IS_FUNC_STOPPED => ⟨0x200060, 0x0, 1⟩
  | .IS_BOLT_STOPPED => ⟨0x200068, 0x0, 1⟩
  | .IS_ISLAND_SEL => ⟨0x200070, 0x0, 1⟩
  | .IS_ISLAND_STAT => ⟨0x200078, 0x0, 1⟩
  | .IS_SVN => ⟨0x200080, 0x0, 1⟩
  | .XT_CTL => ⟨0xd00000, 0x0, 1⟩
  | .XT_CMD => ⟨0xd00008, 0x0, 1⟩
  | .XT_CMD_ARG0 => ⟨0xd00010, 0x0, 1⟩
  | .XT_CMD_STATUS => ⟨0xd00018, 0x0, 1⟩
  | .XT_STATUS => ⟨0xd00020, 0x0, 1⟩
  | .XT_SLOT_SEL => ⟨0xd00028, 0x0, 1⟩
  | .XT_SLOT_STAT => ⟨0xd00030, 0x0, 1⟩
  | .XT_FAULT_LOG => ⟨0xd00038, 0x0, 1⟩
  | .XT_AVAIL => ⟨0xd00040, 0x0, 1⟩
  | .XT_COUNT => ⟨0xd00048, 0x0, 1⟩
  | .XT_SLOTS_USED => ⟨0xd00050, 0x0, 1⟩
  | .XT_KEY_DATA => ⟨0xd00100, 0x8, 8⟩
  | .PW_STATE => ⟨0x100000, 0x0, 1⟩
  | .PW_STATUS => ⟨0x100008, 0x0, 1⟩
  | .PW_DOWN_LOG => ⟨0x100010, 0x0, 1⟩
  | .PW_SAVE_STAT => ⟨0x100018, 0x0, 1⟩
  | .PW_RAIL_SEL => ⟨0x100020, 0x0, 1⟩
  | .PW_RAIL_CFG => ⟨0x100028, 0x0, 1⟩
  | .PW_RAIL_STAT => ⟨0x100030, 0x0, 1⟩
  | .BB_EV_CTL => ⟨0x300000, 0x0, 1⟩
  | .BB_EV_PTR => ⟨0x300008, 0x0, 1⟩
  | .BB_EV_STAT => ⟨0x300010, 0x0, 1⟩
  | .BB_PENDING => ⟨0x300018, 0x0, 1⟩
  | .BB_STATUS => ⟨0x300020, 0x0, 1⟩
  | .BB_SEQ => ⟨0x300028, 0x0, 1⟩
  | .BB_AON_ADDR => ⟨0x300030, 0x0, 1⟩
  | .BB_AON_DATA => ⟨0x300038, 0x0, 1⟩
  | .BB_HEALTH_SEL => ⟨0x300040, 0x0, 1⟩
  | .BB_HEALTH_DATA => ⟨0x300048, 0x0, 1⟩
  | .TM_DT => ⟨0xe00000, 0x0, 1⟩
  | .TM_SYNC => ⟨0xe00008, 0x0, 1⟩
  | .TM_HOST_OFFSET => ⟨0xe00010, 0x0, 1⟩
  | .TM_STATUS => ⟨0xe00018, 0x0, 1⟩
  | .TM_CAPTURE_CTL => ⟨0xe00020, 0x0, 1⟩
  | .TM_CAPTURE => ⟨0xe00028, 0x0, 1⟩

/-- Reset value of each register; zero where the spec gives none (log entry 1). -/
def Reg.reset (r : Reg) : Word :=
  match r with
  | .GB_ID => 0x19648#64
  | .BL_DEVICE_ID => 0x20100#64
  | .BL_FWD_TIMEOUT => 0x4e20#64
  | .BL_ROUTE => 0x7f7f#64
  | .PW_DIRTY_BUDGET => 0x200#64
  | .PW_DIRTY_STAT => 0x2000000000000#64
  | .PW_DESTAGE_CTL => 0x3c011932#64
  | .TW_HB_CTL => 0x64#64
  | .TW_TIMING => 0x6403e803e8#64
  | .TW_STATE => 0x4000#64
  | .TW_ROTATE_CTL => 0x100003c1801#64
  | .ST_TIER_CTL => 0xf0a0a04#64
  | .ST_FLOAT_CTL => 0x1a10#64
  | .ST_FLOAT_STAT => 0x1#64
  | .DC_MARK => 0x400000#64
  | .DC_TRN_PAT => 0x1#64
  | .DC_RETRAIN => 0x10#64
  | .DC_TROWEL_CTL => 0x7181801#64
  | .FL_MAP_CTL => 0x510000003c10#64
  | .FL_FULL_CTL => 0x5140205070a#64
  | .FL_RETRY_CTL => 0x40400#64
  | .ST_REBUILD_CTL => 0xa03#64
  | .EN_CTL => 0x2#64
  | .PT_PEER => 0x7f00#64
  | .XT_CTL => 0x2#64
  | .XT_AVAIL => 0xffffff#64
  | .BB_EV_CTL => 0xa25#64
  | _ => 0#64

namespace F

def GB_ID.PART : FieldRef := ⟨.GB_ID, 0, 16, .ro, none⟩
def GB_ID.STEPPING : FieldRef := ⟨.GB_ID, 16, 4, .ro, none⟩
def GB_ID.CODE : FieldRef := ⟨.GB_ID, 20, 2, .ro, none⟩
def GB_SERIAL.SERIAL : FieldRef := ⟨.GB_SERIAL, 0, 64, .ro, none⟩
def GB_SCRATCH.VALUE : FieldRef := ⟨.GB_SCRATCH, 0, 64, .rw, none⟩
def GB_TEMP.LID : FieldRef := ⟨.GB_TEMP, 0, 12, .ro, none⟩
def GB_TEMP.JUNCTION : FieldRef := ⟨.GB_TEMP, 16, 12, .ro, none⟩
def GB_ACCESS_STATUS.BAD_SIZE : FieldRef := ⟨.GB_ACCESS_STATUS, 0, 1, .w1c, (some 1)⟩
def GB_ACCESS_STATUS.RSV_WRITE : FieldRef := ⟨.GB_ACCESS_STATUS, 1, 1, .w1c, (some 0)⟩
def GB_ACCESS_STATUS.UNAVAILABLE : FieldRef := ⟨.GB_ACCESS_STATUS, 2, 1, .w1c, (some 0)⟩
def GB_ACCESS_STATUS.FENCED_WRITE : FieldRef := ⟨.GB_ACCESS_STATUS, 3, 1, .w1c, (some 0)⟩
def GB_ACCESS_LOG.OFFSET : FieldRef := ⟨.GB_ACCESS_LOG, 0, 26, .ro, none⟩
def GB_ACCESS_LOG.PORT : FieldRef := ⟨.GB_ACCESS_LOG, 32, 7, .ro, none⟩
def GB_ACCESS_LOG.LD : FieldRef := ⟨.GB_ACCESS_LOG, 39, 4, .ro, none⟩
def GB_ACCESS_LOG.WRITE : FieldRef := ⟨.GB_ACCESS_LOG, 43, 1, .ro, none⟩
def GB_ACCESS_LOG.KIND : FieldRef := ⟨.GB_ACCESS_LOG, 44, 2, .ro, none⟩
def BL_DEVICE_ID.DEVICE_ID : FieldRef := ⟨.BL_DEVICE_ID, 0, 6, .ro, none⟩
def BL_DEVICE_ID.LEVELS : FieldRef := ⟨.BL_DEVICE_ID, 8, 3, .ro, none⟩
def BL_DEVICE_ID.BAY_DEVICES : FieldRef := ⟨.BL_DEVICE_ID, 16, 7, .ro, none⟩
def BL_RANGE_LIMIT.BOLTS : FieldRef := ⟨.BL_RANGE_LIMIT, 0, 21, .ro, none⟩
def BL_CMD.OP : FieldRef := ⟨.BL_CMD, 0, 8, .rw, none⟩
def BL_CMD.GO : FieldRef := ⟨.BL_CMD, 8, 1, .w1s, none⟩
def BL_CMD_ARG0.VALUE : FieldRef := ⟨.BL_CMD_ARG0, 0, 64, .rw, none⟩
def BL_CMD_ARG1.VALUE : FieldRef := ⟨.BL_CMD_ARG1, 0, 64, .rw, none⟩
def BL_CMD_ARG2.VALUE : FieldRef := ⟨.BL_CMD_ARG2, 0, 64, .rw, none⟩
def BL_CMD_ARG3.VALUE : FieldRef := ⟨.BL_CMD_ARG3, 0, 64, .rw, none⟩
def BL_CMD_STATUS.CODE : FieldRef := ⟨.BL_CMD_STATUS, 0, 8, .ro, none⟩
def BL_CMD_STATUS.BUSY : FieldRef := ⟨.BL_CMD_STATUS, 8, 1, .ro, none⟩
def BL_CMD_STATUS.RESULT : FieldRef := ⟨.BL_CMD_STATUS, 32, 20, .ro, none⟩
def BL_STATUS.UNBOUND_ACCESS : FieldRef := ⟨.BL_STATUS, 0, 1, .w1c, (some 1)⟩
def BL_STATUS.TENANT_DENY : FieldRef := ⟨.BL_STATUS, 1, 1, .w1c, (some 1)⟩
def BL_STATUS.FWD_TIMEOUT : FieldRef := ⟨.BL_STATUS, 2, 1, .w1c, (some 2)⟩
def BL_STATUS.ROUTE_ALT : FieldRef := ⟨.BL_STATUS, 3, 1, .w1c, (some 1)⟩
def BL_STATUS.ENTRY_CRC : FieldRef := ⟨.BL_STATUS, 4, 1, .w1c, (some 1)⟩
def BL_STATUS.CMD_OVERRUN : FieldRef := ⟨.BL_STATUS, 5, 1, .w1c, none⟩
def BL_FWD_TIMEOUT.TIMEOUT_US : FieldRef := ⟨.BL_FWD_TIMEOUT, 0, 24, .rw, none⟩
def BL_CACHE_STAT.HITS : FieldRef := ⟨.BL_CACHE_STAT, 0, 32, .ro, none⟩
def BL_CACHE_STAT.MISSES : FieldRef := ⟨.BL_CACHE_STAT, 32, 32, .ro, none⟩
def BL_ROUTE.PRIMARY_PORT : FieldRef := ⟨.BL_ROUTE, 0, 7, .ro, none⟩
def BL_ROUTE.ALT_PORT : FieldRef := ⟨.BL_ROUTE, 8, 7, .ro, none⟩
def BL_ROUTE.HOPS : FieldRef := ⟨.BL_ROUTE, 16, 4, .ro, none⟩
def BL_ROUTE.ALT_HOPS : FieldRef := ⟨.BL_ROUTE, 20, 4, .ro, none⟩
def BL_ROUTE.ALT_IN_USE : FieldRef := ⟨.BL_ROUTE, 24, 1, .ro, none⟩
def PW_DIRTY_BUDGET.BUDGET_GIB : FieldRef := ⟨.PW_DIRTY_BUDGET, 0, 12, .rw, none⟩
def PW_ENERGY_DECL.USABLE_J : FieldRef := ⟨.PW_ENERGY_DECL, 0, 16, .rw, none⟩
def PW_ENERGY_DECL.FIXED_J : FieldRef := ⟨.PW_ENERGY_DECL, 16, 16, .rw, none⟩
def PW_ENERGY_DECL.SAVE_AREA_GIB : FieldRef := ⟨.PW_ENERGY_DECL, 32, 16, .ro, none⟩
def PW_ENERGY_DECL.SAVE_RATE_GBS : FieldRef := ⟨.PW_ENERGY_DECL, 48, 10, .ro, none⟩
def PW_DIRTY_STAT.EFFECTIVE_GIB : FieldRef := ⟨.PW_DIRTY_STAT, 0, 12, .ro, none⟩
def PW_DIRTY_STAT.LIMIT_GIB : FieldRef := ⟨.PW_DIRTY_STAT, 12, 12, .ro, none⟩
def PW_DIRTY_STAT.DIRTY_MIB : FieldRef := ⟨.PW_DIRTY_STAT, 24, 24, .ro, none⟩
def PW_DIRTY_STAT.THROTTLE : FieldRef := ⟨.PW_DIRTY_STAT, 48, 1, .ro, none⟩
def PW_DIRTY_STAT.WRITE_THROUGH : FieldRef := ⟨.PW_DIRTY_STAT, 49, 1, .ro, none⟩
def PW_DIRTY_STAT.DESTAGING : FieldRef := ⟨.PW_DIRTY_STAT, 50, 1, .ro, none⟩
def PW_DESTAGE_CTL.START_PCT : FieldRef := ⟨.PW_DESTAGE_CTL, 0, 7, .rw, none⟩
def PW_DESTAGE_CTL.STOP_PCT : FieldRef := ⟨.PW_DESTAGE_CTL, 8, 7, .rw, none⟩
def PW_DESTAGE_CTL.HYST_GIB : FieldRef := ⟨.PW_DESTAGE_CTL, 16, 8, .rw, none⟩
def PW_DESTAGE_CTL.AGE_S : FieldRef := ⟨.PW_DESTAGE_CTL, 24, 8, .rw, none⟩
def PW_PERSIST_STATUS.BUDGET_REFUSED : FieldRef := ⟨.PW_PERSIST_STATUS, 0, 1, .w1c, (some 1)⟩
def PW_PERSIST_STATUS.THROTTLE_ENTERED : FieldRef := ⟨.PW_PERSIST_STATUS, 1, 1, .w1c, (some 0)⟩
def PW_PERSIST_STATUS.BUDGET_LOWERED : FieldRef := ⟨.PW_PERSIST_STATUS, 2, 1, .w1c, (some 1)⟩
def PW_PERSIST_STATUS.WRITE_THROUGH : FieldRef := ⟨.PW_PERSIST_STATUS, 3, 1, .w1c, (some 1)⟩
def PW_PERSIST_STATUS.READ_REPAIRED : FieldRef := ⟨.PW_PERSIST_STATUS, 4, 1, .w1c, (some 0)⟩
def PW_PERSIST_STATUS.POISON_NEW : FieldRef := ⟨.PW_PERSIST_STATUS, 5, 1, .w1c, (some 2)⟩
def PW_PERSIST_STATUS.SPAN_REG_FAULT : FieldRef := ⟨.PW_PERSIST_STATUS, 6, 1, .w1c, (some 2)⟩
def PW_PERSIST_STATUS.VOLATILE_FULL : FieldRef := ⟨.PW_PERSIST_STATUS, 7, 1, .w1c, (some 1)⟩
def PW_PERSIST_STATUS.DIRTY_LOSS : FieldRef := ⟨.PW_PERSIST_STATUS, 8, 1, .w1c, (some 3)⟩
def PW_PERSIST_STATUS.SPAN_REG_LOST : FieldRef := ⟨.PW_PERSIST_STATUS, 9, 1, .w1c, (some 3)⟩
def PW_POISON_LOG.LINE : FieldRef := ⟨.PW_POISON_LOG, 0, 50, .ro, none⟩
def PW_POISON_LOG.SOURCE : FieldRef := ⟨.PW_POISON_LOG, 50, 3, .ro, none⟩
def PW_POISON_LOG.SPAN : FieldRef := ⟨.PW_POISON_LOG, 53, 1, .ro, none⟩
def PW_POISON_COUNT.REPAIRED : FieldRef := ⟨.PW_POISON_COUNT, 0, 32, .ro, none⟩
def PW_POISON_COUNT.POISONED : FieldRef := ⟨.PW_POISON_COUNT, 32, 32, .ro, none⟩
def TW_HB_CTL.PERIOD_US : FieldRef := ⟨.TW_HB_CTL, 0, 14, .rw, none⟩
def TW_TIMING.LEASE_US : FieldRef := ⟨.TW_TIMING, 0, 16, .ro, none⟩
def TW_TIMING.GUARD_US : FieldRef := ⟨.TW_TIMING, 16, 16, .ro, none⟩
def TW_TIMING.PB_PERIOD_US : FieldRef := ⟨.TW_TIMING, 32, 14, .ro, none⟩
def TW_STATE.PAIR_STATE : FieldRef := ⟨.TW_STATE, 0, 4, .ro, none⟩
def TW_STATE.MISS_A : FieldRef := ⟨.TW_STATE, 4, 4, .ro, none⟩
def TW_STATE.MISS_B : FieldRef := ⟨.TW_STATE, 8, 4, .ro, none⟩
def TW_STATE.CARRIER : FieldRef := ⟨.TW_STATE, 12, 1, .ro, none⟩
def TW_STATE.LEASE_VALID : FieldRef := ⟨.TW_STATE, 13, 1, .ro, none⟩
def TW_STATE.SMALL_BAY : FieldRef := ⟨.TW_STATE, 14, 1, .ro, none⟩
def TW_STATE.PEER_DIAG_OK : FieldRef := ⟨.TW_STATE, 15, 1, .ro, none⟩
def TW_STATE.PEER_ID : FieldRef := ⟨.TW_STATE, 16, 6, .ro, none⟩
def TW_CLAIM_LOCAL.VALUE : FieldRef := ⟨.TW_CLAIM_LOCAL, 0, 64, .ro, none⟩
def TW_CLAIM_PEER.VALUE : FieldRef := ⟨.TW_CLAIM_PEER, 0, 64, .ro, none⟩
def TW_HB_SEQ.TX_SEQ : FieldRef := ⟨.TW_HB_SEQ, 0, 32, .ro, none⟩
def TW_HB_SEQ.RX_SEQ : FieldRef := ⟨.TW_HB_SEQ, 32, 32, .ro, none⟩
def TW_PEER_DT.VALUE : FieldRef := ⟨.TW_PEER_DT, 0, 64, .ro, none⟩
def TW_LEASE_END.VALUE : FieldRef := ⟨.TW_LEASE_END, 0, 64, .ro, none⟩
def TW_STATUS.PATH_A_LOST : FieldRef := ⟨.TW_STATUS, 0, 1, .w1c, (some 1)⟩
def TW_STATUS.PATH_B_LOST : FieldRef := ⟨.TW_STATUS, 1, 1, .w1c, (some 1)⟩
def TW_STATUS.CARRIER_LOST : FieldRef := ⟨.TW_STATUS, 2, 1, .w1c, (some 1)⟩
def TW_STATUS.SILENT_PEER : FieldRef := ⟨.TW_STATUS, 3, 1, .w1c, (some 2)⟩
def TW_STATUS.LEASE_LAPSED : FieldRef := ⟨.TW_STATUS, 4, 1, .w1c, (some 1)⟩
def TW_STATUS.TAKEOVER : FieldRef := ⟨.TW_STATUS, 5, 1, .w1c, (some 2)⟩
def TW_STATUS.YIELD_RX : FieldRef := ⟨.TW_STATUS, 6, 1, .w1c, (some 2)⟩
def TW_STATUS.STALE_SELF : FieldRef := ⟨.TW_STATUS, 7, 1, .w1c, (some 2)⟩
def TW_STATUS.REJOIN_DONE : FieldRef := ⟨.TW_STATUS, 8, 1, .w1c, (some 0)⟩
def TW_STATUS.FULL_COPY : FieldRef := ⟨.TW_STATUS, 9, 1, .w1c, (some 1)⟩
def TW_STATUS.CLAIM_MISMATCH : FieldRef := ⟨.TW_STATUS, 10, 1, .w1c, (some 1)⟩
def TW_STATUS.ROTATE_SKIP : FieldRef := ⟨.TW_STATUS, 11, 1, .w1c, (some 0)⟩
def TW_STATUS.DIVERGED : FieldRef := ⟨.TW_STATUS, 12, 1, .w1c, (some 3)⟩
def TW_STATUS.GATE_REFUSED : FieldRef := ⟨.TW_STATUS, 13, 1, .w1c, (some 0)⟩
def TW_STATUS.FRAME_CRC : FieldRef := ⟨.TW_STATUS, 14, 1, .w1c, (some 0)⟩
def TW_STATUS.CMD_OVERRUN : FieldRef := ⟨.TW_STATUS, 15, 1, .w1c, none⟩
def TW_MISS_STAT.MISSES_A : FieldRef := ⟨.TW_MISS_STAT, 0, 32, .ro, none⟩
def TW_MISS_STAT.MISSES_B : FieldRef := ⟨.TW_MISS_STAT, 32, 32, .ro, none⟩
def TW_ROTATE_CTL.EN : FieldRef := ⟨.TW_ROTATE_CTL, 0, 1, .rw, none⟩
def TW_ROTATE_CTL.SLOTS : FieldRef := ⟨.TW_ROTATE_CTL, 8, 8, .rw, none⟩
def TW_ROTATE_CTL.INTERVAL_MIN : FieldRef := ⟨.TW_ROTATE_CTL, 16, 16, .rw, none⟩
def TW_ROTATE_CTL.GROUP : FieldRef := ⟨.TW_ROTATE_CTL, 32, 9, .rw, none⟩
def TW_ROTATE_STAT.SLOT : FieldRef := ⟨.TW_ROTATE_STAT, 0, 8, .ro, none⟩
def TW_ROTATE_STAT.BOLTS_MOVED : FieldRef := ⟨.TW_ROTATE_STAT, 8, 32, .ro, none⟩
def TW_ROTATE_STAT.MAX_HOLD_US : FieldRef := ⟨.TW_ROTATE_STAT, 40, 16, .ro, none⟩
def TW_ROTATE_STAT.CYCLE : FieldRef := ⟨.TW_ROTATE_STAT, 56, 1, .ro, none⟩
def TW_CMD.OP : FieldRef := ⟨.TW_CMD, 0, 8, .rw, none⟩
def TW_CMD.GO : FieldRef := ⟨.TW_CMD, 8, 1, .w1s, none⟩
def TW_CMD_STATUS.CODE : FieldRef := ⟨.TW_CMD_STATUS, 0, 8, .ro, none⟩
def TW_CMD_STATUS.BUSY : FieldRef := ⟨.TW_CMD_STATUS, 8, 1, .ro, none⟩
def TW_REJOIN_STAT.SPANS_LEFT : FieldRef := ⟨.TW_REJOIN_STAT, 0, 40, .ro, none⟩
def TW_REJOIN_STAT.ROLE : FieldRef := ⟨.TW_REJOIN_STAT, 40, 2, .ro, none⟩
def TW_REJOIN_STAT.FULL : FieldRef := ⟨.TW_REJOIN_STAT, 42, 1, .ro, none⟩
def TW_SPLIT_DT.VALUE : FieldRef := ⟨.TW_SPLIT_DT, 0, 64, .ro, none⟩
def ST_TIER_CTL.PROMOTE_HEAT : FieldRef := ⟨.ST_TIER_CTL, 0, 8, .rw, none⟩
def ST_TIER_CTL.DECAY_S : FieldRef := ⟨.ST_TIER_CTL, 8, 8, .rw, none⟩
def ST_TIER_CTL.P_LOW_PCT : FieldRef := ⟨.ST_TIER_CTL, 16, 7, .rw, none⟩
def ST_TIER_CTL.P_HIGH_PCT : FieldRef := ⟨.ST_TIER_CTL, 24, 7, .rw, none⟩
def ST_TIER_STAT.P_FREE_PCT : FieldRef := ⟨.ST_TIER_STAT, 0, 7, .ro, none⟩
def ST_TIER_STAT.F_FREE_PCT : FieldRef := ⟨.ST_TIER_STAT, 8, 7, .ro, none⟩
def ST_TIER_STAT.DEMOTING : FieldRef := ⟨.ST_TIER_STAT, 15, 1, .ro, none⟩
def ST_TIER_STAT.MOVING : FieldRef := ⟨.ST_TIER_STAT, 16, 16, .ro, none⟩
def ST_TIER_STATUS.QUOTA_REFUSED : FieldRef := ⟨.ST_TIER_STATUS, 0, 1, .w1c, (some 1)⟩
def ST_TIER_STATUS.CAPACITY_FULL : FieldRef := ⟨.ST_TIER_STATUS, 1, 1, .w1c, (some 2)⟩
def ST_TIER_STATUS.F_FULL : FieldRef := ⟨.ST_TIER_STATUS, 2, 1, .w1c, (some 1)⟩
def ST_TIER_STATUS.WEAR_SHORT : FieldRef := ⟨.ST_TIER_STATUS, 3, 1, .w1c, (some 1)⟩
def ST_TIER_STATUS.QUOTA_OVER : FieldRef := ⟨.ST_TIER_STATUS, 4, 1, .w1c, (some 0)⟩
def ST_MIG_COUNT.PROMOTED : FieldRef := ⟨.ST_MIG_COUNT, 0, 32, .ro, none⟩
def ST_MIG_COUNT.DEMOTED : FieldRef := ⟨.ST_MIG_COUNT, 32, 32, .ro, none⟩
def ST_QUOTA_SEL.TENANT : FieldRef := ⟨.ST_QUOTA_SEL, 0, 12, .rw, none⟩
def ST_QUOTA_D.D_MIB : FieldRef := ⟨.ST_QUOTA_D, 0, 24, .rw, none⟩
def ST_QUOTA_P.FRAMES : FieldRef := ⟨.ST_QUOTA_P, 0, 40, .rw, none⟩
def ST_QUOTA_F.FRAMES : FieldRef := ⟨.ST_QUOTA_F, 0, 40, .rw, none⟩
def ST_USE_D.USE : FieldRef := ⟨.ST_USE_D, 0, 40, .ro, none⟩
def ST_USE_D.PINNED : FieldRef := ⟨.ST_USE_D, 40, 24, .ro, none⟩
def ST_USE_P.USE : FieldRef := ⟨.ST_USE_P, 0, 40, .ro, none⟩
def ST_USE_P.PINNED : FieldRef := ⟨.ST_USE_P, 40, 24, .ro, none⟩
def ST_USE_F.USE : FieldRef := ⟨.ST_USE_F, 0, 40, .ro, none⟩
def ST_USE_F.PINNED : FieldRef := ⟨.ST_USE_F, 40, 24, .ro, none⟩
def ST_FLOAT_CTL.PSI : FieldRef := ⟨.ST_FLOAT_CTL, 0, 8, .rw, none⟩
def ST_FLOAT_CTL.THRESH_LOG2 : FieldRef := ⟨.ST_FLOAT_CTL, 8, 6, .rw, none⟩
def ST_FLOAT_STAT.BOUND_OK : FieldRef := ⟨.ST_FLOAT_STAT, 0, 1, .ro, none⟩
def ST_FLOAT_STAT.WORST_MODULE : FieldRef := ⟨.ST_FLOAT_STAT, 1, 5, .ro, none⟩
def ST_FLOAT_STAT.WORST_PERMILLE : FieldRef := ⟨.ST_FLOAT_STAT, 6, 10, .ro, none⟩
def ST_FLOAT_STAT.SWAPS : FieldRef := ⟨.ST_FLOAT_STAT, 16, 32, .ro, none⟩
def CR_WAY_PWR.OFF_REQ : FieldRef := ⟨.CR_WAY_PWR, 8, 8, .rw, none⟩
def CR_WAY_STAT.OFF : FieldRef := ⟨.CR_WAY_STAT, 8, 8, .ro, none⟩
def CR_WAY_STAT.CLEANING : FieldRef := ⟨.CR_WAY_STAT, 16, 8, .ro, none⟩
def CR_WAY_STAT.WAKING : FieldRef := ⟨.CR_WAY_STAT, 24, 8, .ro, none⟩
def CR_STATUS.WAY_OFF_DONE : FieldRef := ⟨.CR_STATUS, 0, 1, .w1c, (some 0)⟩
def CR_STATUS.WAY_ON_DONE : FieldRef := ⟨.CR_STATUS, 1, 1, .w1c, (some 0)⟩
def CR_STATUS.CLEAN_ABORT : FieldRef := ⟨.CR_STATUS, 2, 1, .w1c, (some 0)⟩
def CR_STATUS.MISS_FULL : FieldRef := ⟨.CR_STATUS, 3, 1, .w1c, (some 0)⟩
def CR_STATUS.BEAT_CORRECTED : FieldRef := ⟨.CR_STATUS, 4, 1, .w1c, (some 0)⟩
def CR_STATUS.LINE_UNCORR : FieldRef := ⟨.CR_STATUS, 5, 1, .w1c, (some 1)⟩
def CR_LFSR_SEED.SEED : FieldRef := ⟨.CR_LFSR_SEED, 0, 32, .rw, none⟩
def CR_SLICE_SEL.SLICE : FieldRef := ⟨.CR_SLICE_SEL, 0, 5, .rw, none⟩
def CR_SLICE_STAT.DIRTY_LINES : FieldRef := ⟨.CR_SLICE_STAT, 0, 19, .ro, none⟩
def CR_SLICE_STAT.MISSES_OUT : FieldRef := ⟨.CR_SLICE_STAT, 19, 9, .ro, none⟩
def CR_SLICE_STAT.MISSES_MAX : FieldRef := ⟨.CR_SLICE_STAT, 28, 9, .ro, none⟩
def CR_HIT_STAT.HITS : FieldRef := ⟨.CR_HIT_STAT, 0, 32, .ro, none⟩
def CR_HIT_STAT.MISSES : FieldRef := ⟨.CR_HIT_STAT, 32, 32, .ro, none⟩
def CR_ERR_STAT.CORRECTED : FieldRef := ⟨.CR_ERR_STAT, 0, 32, .ro, none⟩
def CR_ERR_STAT.UNCORRECTABLE : FieldRef := ⟨.CR_ERR_STAT, 32, 32, .ro, none⟩
def DC_CFG.POP : FieldRef := ⟨.DC_CFG, 0, 1, .ro, none⟩
def DC_CFG.WIDTH : FieldRef := ⟨.DC_CFG, 1, 1, .ro, none⟩
def DC_CFG.DENSITY : FieldRef := ⟨.DC_CFG, 2, 3, .ro, none⟩
def DC_CFG.STACK : FieldRef := ⟨.DC_CFG, 5, 2, .ro, none⟩
def DC_CFG.PRANKS : FieldRef := ⟨.DC_CFG, 7, 1, .ro, none⟩
def DC_CFG.SPEED : FieldRef := ⟨.DC_CFG, 8, 7, .ro, none⟩
def DC_STATUS.CORRECTED : FieldRef := ⟨.DC_STATUS, 0, 1, .w1c, (some 0)⟩
def DC_STATUS.UNCORR : FieldRef := ⟨.DC_STATUS, 1, 1, .w1c, (some 1)⟩
def DC_STATUS.MARKED : FieldRef := ⟨.DC_STATUS, 2, 1, .w1c, (some 2)⟩
def DC_STATUS.EYE_LOW : FieldRef := ⟨.DC_STATUS, 3, 1, .w1c, (some 1)⟩
def DC_STATUS.RETRAIN_FAIL : FieldRef := ⟨.DC_STATUS, 4, 1, .w1c, (some 2)⟩
def DC_STATUS.HOT : FieldRef := ⟨.DC_STATUS, 5, 1, .w1c, (some 1)⟩
def DC_STATUS.PPR_DONE : FieldRef := ⟨.DC_STATUS, 6, 1, .w1c, (some 0)⟩
def DC_STATUS.PPR_EXHAUSTED : FieldRef := ⟨.DC_STATUS, 7, 1, .w1c, (some 2)⟩
def DC_STATUS.TRN_FAIL : FieldRef := ⟨.DC_STATUS, 8, 1, .w1c, (some 2)⟩
def DC_STATUS.CMD_OVERRUN : FieldRef := ⟨.DC_STATUS, 9, 1, .w1c, none⟩
def DC_ERR_STAT.CORRECTED : FieldRef := ⟨.DC_ERR_STAT, 0, 32, .ro, none⟩
def DC_ERR_STAT.UNCORRECTABLE : FieldRef := ⟨.DC_ERR_STAT, 32, 32, .ro, none⟩
def DC_ERR_LOG.SUBCH : FieldRef := ⟨.DC_ERR_LOG, 0, 1, .ro, none⟩
def DC_ERR_LOG.PRANK : FieldRef := ⟨.DC_ERR_LOG, 1, 1, .ro, none⟩
def DC_ERR_LOG.LRANK : FieldRef := ⟨.DC_ERR_LOG, 2, 2, .ro, none⟩
def DC_ERR_LOG.BG : FieldRef := ⟨.DC_ERR_LOG, 4, 3, .ro, none⟩
def DC_ERR_LOG.BA : FieldRef := ⟨.DC_ERR_LOG, 7, 2, .ro, none⟩
def DC_ERR_LOG.ROW : FieldRef := ⟨.DC_ERR_LOG, 9, 18, .ro, none⟩
def DC_ERR_LOG.CB : FieldRef := ⟨.DC_ERR_LOG, 27, 7, .ro, none⟩
def DC_ERR_LOG.COMPONENT : FieldRef := ⟨.DC_ERR_LOG, 34, 4, .ro, none⟩
def DC_ERR_LOG.KIND : FieldRef := ⟨.DC_ERR_LOG, 38, 2, .ro, none⟩
def DC_ERR_LOG.SOURCE : FieldRef := ⟨.DC_ERR_LOG, 40, 2, .ro, none⟩
def DC_MARK.COMP_A : FieldRef := ⟨.DC_MARK, 0, 4, .rw, none⟩
def DC_MARK.VALID_A : FieldRef := ⟨.DC_MARK, 4, 1, .rw, none⟩
def DC_MARK.COMP_B : FieldRef := ⟨.DC_MARK, 8, 4, .rw, none⟩
def DC_MARK.VALID_B : FieldRef := ⟨.DC_MARK, 12, 1, .rw, none⟩
def DC_MARK.THRESH : FieldRef := ⟨.DC_MARK, 16, 8, .rw, none⟩
def DC_TRN_CTL.OP : FieldRef := ⟨.DC_TRN_CTL, 0, 4, .rw, none⟩
def DC_TRN_CTL.SUBCH : FieldRef := ⟨.DC_TRN_CTL, 4, 1, .rw, none⟩
def DC_TRN_CTL.PRANK : FieldRef := ⟨.DC_TRN_CTL, 5, 1, .rw, none⟩
def DC_TRN_CTL.GO : FieldRef := ⟨.DC_TRN_CTL, 8, 1, .w1s, none⟩
def DC_TRN_CTL.BUSY : FieldRef := ⟨.DC_TRN_CTL, 9, 1, .ro, none⟩
def DC_TRN_CTL.DELAY : FieldRef := ⟨.DC_TRN_CTL, 16, 8, .rw, none⟩
def DC_TRN_CTL.CODE : FieldRef := ⟨.DC_TRN_CTL, 24, 8, .ro, none⟩
def DC_TRN_PAT.SEED : FieldRef := ⟨.DC_TRN_PAT, 0, 32, .rw, none⟩
def DC_TRN_PAT.MODE : FieldRef := ⟨.DC_TRN_PAT, 32, 1, .rw, none⟩
def DC_TRN_CMP.LANE_ERR : FieldRef := ⟨.DC_TRN_CMP, 0, 40, .ro, none⟩
def DC_TRN_CMP.BURSTS_BAD : FieldRef := ⟨.DC_TRN_CMP, 40, 16, .ro, none⟩
def DC_RETRAIN.MIN_EYE : FieldRef := ⟨.DC_RETRAIN, 0, 8, .rw, none⟩
def DC_RETRAIN.EYE_NOW : FieldRef := ⟨.DC_RETRAIN, 8, 8, .ro, none⟩
def DC_RETRAIN.LANE : FieldRef := ⟨.DC_RETRAIN, 16, 6, .ro, none⟩
def DC_RETRAIN.SUBCH : FieldRef := ⟨.DC_RETRAIN, 22, 1, .ro, none⟩
def DC_RETRAIN.PAUSES : FieldRef := ⟨.DC_RETRAIN, 23, 32, .ro, none⟩
def DC_REFRESH_CTL.MODE : FieldRef := ⟨.DC_REFRESH_CTL, 0, 1, .rw, none⟩
def DC_REFRESH_CTL.RATE : FieldRef := ⟨.DC_REFRESH_CTL, 1, 2, .ro, none⟩
def DC_REFRESH_CTL.POSTPONED : FieldRef := ⟨.DC_REFRESH_CTL, 3, 3, .ro, none⟩
def DC_PPR_CMD.OP : FieldRef := ⟨.DC_PPR_CMD, 0, 2, .rw, none⟩
def DC_PPR_CMD.SUBCH : FieldRef := ⟨.DC_PPR_CMD, 2, 1, .rw, none⟩
def DC_PPR_CMD.PRANK : FieldRef := ⟨.DC_PPR_CMD, 3, 1, .rw, none⟩
def DC_PPR_CMD.LRANK : FieldRef := ⟨.DC_PPR_CMD, 4, 2, .rw, none⟩
def DC_PPR_CMD.BG : FieldRef := ⟨.DC_PPR_CMD, 6, 3, .rw, none⟩
def DC_PPR_CMD.BA : FieldRef := ⟨.DC_PPR_CMD, 9, 2, .rw, none⟩
def DC_PPR_CMD.ROW : FieldRef := ⟨.DC_PPR_CMD, 11, 18, .rw, none⟩
def DC_PPR_CMD.GO : FieldRef := ⟨.DC_PPR_CMD, 29, 1, .w1s, none⟩
def DC_PPR_CMD.BUSY : FieldRef := ⟨.DC_PPR_CMD, 30, 1, .ro, none⟩
def DC_PPR_CMD.CODE : FieldRef := ⟨.DC_PPR_CMD, 32, 8, .ro, none⟩
def DC_MAP.AM : FieldRef := ⟨.DC_MAP, 0, 2, .ro, none⟩
def DC_MAP.CH_BITS : FieldRef := ⟨.DC_MAP, 2, 3, .ro, none⟩
def DC_MAP.GROUPS_UP : FieldRef := ⟨.DC_MAP, 8, 8, .ro, none⟩
def DC_MAP.D_BLOCKS : FieldRef := ⟨.DC_MAP, 16, 31, .ro, none⟩
def DC_TROWEL_CTL.EN : FieldRef := ⟨.DC_TROWEL_CTL, 0, 1, .rw, none⟩
def DC_TROWEL_CTL.D_PERIOD_H : FieldRef := ⟨.DC_TROWEL_CTL, 8, 8, .rw, none⟩
def DC_TROWEL_CTL.P_PERIOD_H : FieldRef := ⟨.DC_TROWEL_CTL, 16, 8, .rw, none⟩
def DC_TROWEL_CTL.F_PERIOD_D : FieldRef := ⟨.DC_TROWEL_CTL, 24, 8, .rw, none⟩
def DC_TROWEL_STAT.D_PCT : FieldRef := ⟨.DC_TROWEL_STAT, 0, 7, .ro, none⟩
def DC_TROWEL_STAT.P_PCT : FieldRef := ⟨.DC_TROWEL_STAT, 8, 7, .ro, none⟩
def DC_TROWEL_STAT.F_PCT : FieldRef := ⟨.DC_TROWEL_STAT, 16, 7, .ro, none⟩
def DC_TROWEL_STAT.LATE_D : FieldRef := ⟨.DC_TROWEL_STAT, 24, 1, .ro, none⟩
def DC_TROWEL_STAT.LATE_P : FieldRef := ⟨.DC_TROWEL_STAT, 25, 1, .ro, none⟩
def DC_TROWEL_STAT.LATE_F : FieldRef := ⟨.DC_TROWEL_STAT, 26, 1, .ro, none⟩
def DC_COAT_STAT.COATED : FieldRef := ⟨.DC_COAT_STAT, 0, 32, .ro, none⟩
def DC_COAT_STAT.FAILED : FieldRef := ⟨.DC_COAT_STAT, 32, 32, .ro, none⟩
def FL_CFG.POP : FieldRef := ⟨.FL_CFG, 0, 1, .ro, none⟩
def FL_CFG.IFACE : FieldRef := ⟨.FL_CFG, 1, 1, .ro, none⟩
def FL_CFG.RATE : FieldRef := ⟨.FL_CFG, 2, 6, .ro, none⟩
def FL_CFG.TARGETS : FieldRef := ⟨.FL_CFG, 8, 5, .ro, none⟩
def FL_CFG.DIES : FieldRef := ⟨.FL_CFG, 13, 6, .ro, none⟩
def FL_CFG.LUNS : FieldRef := ⟨.FL_CFG, 19, 2, .ro, none⟩
def FL_CFG.IN_STRIPES : FieldRef := ⟨.FL_CFG, 21, 1, .ro, none⟩
def FL_STATUS.ENUM_FAIL : FieldRef := ⟨.FL_STATUS, 0, 1, .w1c, (some 2)⟩
def FL_STATUS.PROG_FAIL : FieldRef := ⟨.FL_STATUS, 1, 1, .w1c, (some 1)⟩
def FL_STATUS.ERASE_FAIL : FieldRef := ⟨.FL_STATUS, 2, 1, .w1c, (some 1)⟩
def FL_STATUS.RETIRED : FieldRef := ⟨.FL_STATUS, 3, 1, .w1c, (some 1)⟩
def FL_STATUS.UNCORR : FieldRef := ⟨.FL_STATUS, 4, 1, .w1c, (some 1)⟩
def FL_STATUS.SUSPEND_LIMIT : FieldRef := ⟨.FL_STATUS, 5, 1, .w1c, (some 0)⟩
def FL_ERR_STAT.CORRECTED : FieldRef := ⟨.FL_ERR_STAT, 0, 32, .ro, none⟩
def FL_ERR_STAT.UNCORRECTABLE : FieldRef := ⟨.FL_ERR_STAT, 32, 32, .ro, none⟩
def FL_BLOCKS.GOOD : FieldRef := ⟨.FL_BLOCKS, 0, 20, .ro, none⟩
def FL_BLOCKS.RETIRED : FieldRef := ⟨.FL_BLOCKS, 20, 20, .ro, none⟩
def FL_BLOCKS.FACTORY_BAD : FieldRef := ⟨.FL_BLOCKS, 40, 20, .ro, none⟩
def FL_MAP_CTL.PROMOTE_WRITES : FieldRef := ⟨.FL_MAP_CTL, 0, 8, .rw, none⟩
def FL_MAP_CTL.FINE_IDLE_S : FieldRef := ⟨.FL_MAP_CTL, 8, 16, .rw, none⟩
def FL_MAP_CTL.FINE_SPANS : FieldRef := ⟨.FL_MAP_CTL, 24, 19, .rw, none⟩
def FL_MAP_CTL.CKPT_MIN : FieldRef := ⟨.FL_MAP_CTL, 43, 8, .rw, none⟩
def FL_MAP_STAT.SPANS_F : FieldRef := ⟨.FL_MAP_STAT, 0, 28, .ro, none⟩
def FL_MAP_STAT.FINE_USED : FieldRef := ⟨.FL_MAP_STAT, 28, 19, .ro, none⟩
def FL_MAP_STAT.JOURNAL_PCT : FieldRef := ⟨.FL_MAP_STAT, 47, 7, .ro, none⟩
def FL_FULL_CTL.BG_PCT : FieldRef := ⟨.FL_FULL_CTL, 0, 7, .rw, none⟩
def FL_FULL_CTL.HIGH_PCT : FieldRef := ⟨.FL_FULL_CTL, 8, 7, .rw, none⟩
def FL_FULL_CTL.LOW_PCT : FieldRef := ⟨.FL_FULL_CTL, 16, 7, .rw, none⟩
def FL_FULL_CTL.CRIT_PCT : FieldRef := ⟨.FL_FULL_CTL, 24, 7, .rw, none⟩
def FL_FULL_CTL.IDLE_PCT : FieldRef := ⟨.FL_FULL_CTL, 32, 7, .rw, none⟩
def FL_FULL_CTL.WEAR_GAP_PCT : FieldRef := ⟨.FL_FULL_CTL, 40, 7, .rw, none⟩
def FL_FULL_STAT.FREE_PCT : FieldRef := ⟨.FL_FULL_STAT, 0, 7, .ro, none⟩
def FL_FULL_STAT.MODE : FieldRef := ⟨.FL_FULL_STAT, 7, 2, .ro, none⟩
def FL_FULL_STAT.VICTIM_VALID_PCT : FieldRef := ⟨.FL_FULL_STAT, 9, 7, .ro, none⟩
def FL_FULL_STAT.BANDS_ERASED : FieldRef := ⟨.FL_FULL_STAT, 16, 32, .ro, none⟩
def FL_RETRY_CTL.ENTRIES : FieldRef := ⟨.FL_RETRY_CTL, 0, 5, .ro, none⟩
def FL_RETRY_CTL.RETRY_REFRESH : FieldRef := ⟨.FL_RETRY_CTL, 8, 4, .rw, none⟩
def FL_RETRY_CTL.SUSPEND_MAX : FieldRef := ⟨.FL_RETRY_CTL, 16, 4, .rw, none⟩
def FL_DEV_STATUS.FG_ENTERED : FieldRef := ⟨.FL_DEV_STATUS, 0, 1, .w1c, (some 0)⟩
def FL_DEV_STATUS.CRIT_ENTERED : FieldRef := ⟨.FL_DEV_STATUS, 1, 1, .w1c, (some 1)⟩
def FL_DEV_STATUS.SPARE_LOW : FieldRef := ⟨.FL_DEV_STATUS, 2, 1, .w1c, (some 1)⟩
def FL_DEV_STATUS.SPARE_OUT : FieldRef := ⟨.FL_DEV_STATUS, 3, 1, .w1c, (some 2)⟩
def FL_DEV_STATUS.MOUNT_SCAN : FieldRef := ⟨.FL_DEV_STATUS, 4, 1, .w1c, (some 2)⟩
def FL_DEV_STATUS.ORPHANS : FieldRef := ⟨.FL_DEV_STATUS, 5, 1, .w1c, (some 0)⟩
def FL_DEV_STATUS.FINE_POOL_FULL : FieldRef := ⟨.FL_DEV_STATUS, 6, 1, .w1c, (some 0)⟩
def FL_DEV_STATUS.CTL_REFUSED : FieldRef := ⟨.FL_DEV_STATUS, 7, 1, .w1c, (some 1)⟩
def FL_HEALTH.SPARE_PCT : FieldRef := ⟨.FL_HEALTH, 0, 8, .ro, none⟩
def FL_HEALTH.PE_MEAN_PCT : FieldRef := ⟨.FL_HEALTH, 8, 8, .ro, none⟩
def FL_HEALTH.PE_MAX_PCT : FieldRef := ⟨.FL_HEALTH, 16, 8, .ro, none⟩
def FL_HEALTH.RATED_PE : FieldRef := ⟨.FL_HEALTH, 24, 24, .ro, none⟩
def FL_CLASS_SEL.CLASS : FieldRef := ⟨.FL_CLASS_SEL, 0, 4, .rw, none⟩
def FL_CLASS_COUNT.COUNT : FieldRef := ⟨.FL_CLASS_COUNT, 0, 64, .ro, none⟩
def FL_TEMP_SEL.BIN : FieldRef := ⟨.FL_TEMP_SEL, 0, 5, .rw, none⟩
def FL_TEMP_SEL.SENSOR : FieldRef := ⟨.FL_TEMP_SEL, 5, 1, .rw, none⟩
def FL_TEMP_STAT.SECONDS : FieldRef := ⟨.FL_TEMP_STAT, 0, 32, .ro, none⟩
def ST_P_CFG.GROUPS : FieldRef := ⟨.ST_P_CFG, 0, 4, .ro, none⟩
def ST_P_CFG.WIDTH : FieldRef := ⟨.ST_P_CFG, 4, 5, .ro, none⟩
def ST_P_CFG.P_SPARE : FieldRef := ⟨.ST_P_CFG, 9, 2, .ro, none⟩
def ST_P_CFG.MODULES : FieldRef := ⟨.ST_P_CFG, 32, 32, .ro, none⟩
def ST_F_CFG.WIDTH : FieldRef := ⟨.ST_F_CFG, 0, 6, .ro, none⟩
def ST_F_CFG.CHANNELS : FieldRef := ⟨.ST_F_CFG, 6, 6, .ro, none⟩
def ST_F_CFG.PAGES : FieldRef := ⟨.ST_F_CFG, 12, 16, .ro, none⟩
def ST_F_CFG.OLD_WIDTH : FieldRef := ⟨.ST_F_CFG, 28, 6, .ro, none⟩
def ST_MEMBER_SEL.TIER : FieldRef := ⟨.ST_MEMBER_SEL, 0, 1, .rw, none⟩
def ST_MEMBER_SEL.MEMBER : FieldRef := ⟨.ST_MEMBER_SEL, 1, 5, .rw, none⟩
def ST_MEMBER_STAT.STATE : FieldRef := ⟨.ST_MEMBER_STAT, 0, 3, .ro, none⟩
def ST_MEMBER_STAT.GROUP : FieldRef := ⟨.ST_MEMBER_STAT, 3, 3, .ro, none⟩
def ST_MEMBER_STAT.POSITION : FieldRef := ⟨.ST_MEMBER_STAT, 6, 5, .ro, none⟩
def ST_MEMBER_STAT.ROWS_LEFT : FieldRef := ⟨.ST_MEMBER_STAT, 11, 40, .ro, none⟩
def ST_MEMBER_STAT.PCT : FieldRef := ⟨.ST_MEMBER_STAT, 51, 7, .ro, none⟩
def ST_REBUILD_CTL.EN : FieldRef := ⟨.ST_REBUILD_CTL, 0, 1, .rw, none⟩
def ST_REBUILD_CTL.COPYBACK_EN : FieldRef := ⟨.ST_REBUILD_CTL, 1, 1, .rw, none⟩
def ST_REBUILD_CTL.FLOOR_PCT : FieldRef := ⟨.ST_REBUILD_CTL, 8, 7, .rw, none⟩
def ST_REBUILD_STAT.SHARE_PCT : FieldRef := ⟨.ST_REBUILD_STAT, 0, 7, .ro, none⟩
def ST_REBUILD_STAT.ACTIVE : FieldRef := ⟨.ST_REBUILD_STAT, 7, 1, .ro, none⟩
def ST_REBUILD_STAT.ROWS_DONE : FieldRef := ⟨.ST_REBUILD_STAT, 8, 40, .ro, none⟩
def ST_RESYNC_STAT.LAST_KIND : FieldRef := ⟨.ST_RESYNC_STAT, 0, 2, .ro, none⟩
def ST_RESYNC_STAT.FULL_RUNNING : FieldRef := ⟨.ST_RESYNC_STAT, 2, 1, .ro, none⟩
def ST_RESYNC_STAT.PARTIAL_ROWS : FieldRef := ⟨.ST_RESYNC_STAT, 16, 16, .ro, none⟩
def ST_RESYNC_STAT.FULL_PCT : FieldRef := ⟨.ST_RESYNC_STAT, 32, 7, .ro, none⟩
def ST_RESYNC_STAT.SUSPECT : FieldRef := ⟨.ST_RESYNC_STAT, 39, 16, .ro, none⟩
def ST_SKIM_STAT.EPOCH : FieldRef := ⟨.ST_SKIM_STAT, 0, 32, .ro, none⟩
def ST_SKIM_STAT.MEMBER_A : FieldRef := ⟨.ST_SKIM_STAT, 32, 5, .ro, none⟩
def ST_SKIM_STAT.MEMBER_B : FieldRef := ⟨.ST_SKIM_STAT, 37, 5, .ro, none⟩
def ST_SKIM_STAT.SLOT : FieldRef := ⟨.ST_SKIM_STAT, 42, 12, .ro, none⟩
def ST_SKIM_STAT.IN_FLIGHT : FieldRef := ⟨.ST_SKIM_STAT, 54, 10, .ro, none⟩
def ST_STATUS.MEMBER_LOST : FieldRef := ⟨.ST_STATUS, 0, 1, .w1c, (some 2)⟩
def ST_STATUS.REBUILD_DONE : FieldRef := ⟨.ST_STATUS, 1, 1, .w1c, (some 0)⟩
def ST_STATUS.RESYNC_PARTIAL : FieldRef := ⟨.ST_STATUS, 2, 1, .w1c, (some 0)⟩
def ST_STATUS.RESYNC_FULL : FieldRef := ⟨.ST_STATUS, 3, 1, .w1c, (some 1)⟩
def ST_STATUS.JOURNAL_COPY_LOST : FieldRef := ⟨.ST_STATUS, 4, 1, .w1c, (some 1)⟩
def ST_STATUS.TWIN_HEAL : FieldRef := ⟨.ST_STATUS, 5, 1, .w1c, (some 1)⟩
def ST_STATUS.STRIPE_LOSS : FieldRef := ⟨.ST_STATUS, 6, 1, .w1c, (some 2)⟩
def ST_STATUS.SPARE_SHORT : FieldRef := ⟨.ST_STATUS, 7, 1, .w1c, (some 2)⟩
def ST_STATUS.PARITY_MISMATCH : FieldRef := ⟨.ST_STATUS, 8, 1, .w1c, (some 1)⟩
def ST_STATUS.COPYBACK_DONE : FieldRef := ⟨.ST_STATUS, 9, 1, .w1c, (some 0)⟩
def ST_STATUS.RESHAPE_DONE : FieldRef := ⟨.ST_STATUS, 10, 1, .w1c, (some 0)⟩
def ST_STATUS.RESHAPE_PAUSED : FieldRef := ⟨.ST_STATUS, 11, 1, .w1c, (some 1)⟩
def ST_STATUS.FENCED_READ : FieldRef := ⟨.ST_STATUS, 12, 1, .w1c, (some 0)⟩
def ST_STATUS.CMD_OVERRUN : FieldRef := ⟨.ST_STATUS, 13, 1, .w1c, none⟩
def ST_LOSS_LOG.FRAME : FieldRef := ⟨.ST_LOSS_LOG, 0, 44, .ro, none⟩
def ST_LOSS_LOG.COUNT : FieldRef := ⟨.ST_LOSS_LOG, 44, 20, .ro, none⟩
def ST_RESHAPE_CMD.OP : FieldRef := ⟨.ST_RESHAPE_CMD, 0, 8, .rw, none⟩
def ST_RESHAPE_CMD.GO : FieldRef := ⟨.ST_RESHAPE_CMD, 8, 1, .w1s, none⟩
def ST_RESHAPE_CMD.BUSY : FieldRef := ⟨.ST_RESHAPE_CMD, 9, 1, .ro, none⟩
def ST_RESHAPE_CMD.CODE : FieldRef := ⟨.ST_RESHAPE_CMD, 16, 8, .ro, none⟩
def ST_RESHAPE_STAT.STATE : FieldRef := ⟨.ST_RESHAPE_STAT, 0, 2, .ro, none⟩
def ST_RESHAPE_STAT.TIER : FieldRef := ⟨.ST_RESHAPE_STAT, 2, 1, .ro, none⟩
def ST_RESHAPE_STAT.PCT : FieldRef := ⟨.ST_RESHAPE_STAT, 3, 7, .ro, none⟩
def ST_RESHAPE_STAT.EXTENTS_LEFT : FieldRef := ⟨.ST_RESHAPE_STAT, 10, 32, .ro, none⟩
def ST_PARITY_STAT.MISMATCH : FieldRef := ⟨.ST_PARITY_STAT, 0, 32, .ro, none⟩
def ST_PARITY_STAT.HEALED : FieldRef := ⟨.ST_PARITY_STAT, 32, 32, .ro, none⟩
def QU_TABLE_BASE.D_BLOCK : FieldRef := ⟨.QU_TABLE_BASE, 0, 40, .ro, none⟩
def QU_CMD.OP : FieldRef := ⟨.QU_CMD, 0, 8, .rw, none⟩
def QU_CMD.GO : FieldRef := ⟨.QU_CMD, 8, 1, .w1s, none⟩
def QU_CMD_ARG0.VALUE : FieldRef := ⟨.QU_CMD_ARG0, 0, 64, .rw, none⟩
def QU_CMD_ARG1.VALUE : FieldRef := ⟨.QU_CMD_ARG1, 0, 64, .rw, none⟩
def QU_CMD_ARG2.VALUE : FieldRef := ⟨.QU_CMD_ARG2, 0, 64, .rw, none⟩
def QU_CMD_ARG3.VALUE : FieldRef := ⟨.QU_CMD_ARG3, 0, 64, .rw, none⟩
def QU_CMD_ARG4.VALUE : FieldRef := ⟨.QU_CMD_ARG4, 0, 64, .rw, none⟩
def QU_CMD_STATUS.CODE : FieldRef := ⟨.QU_CMD_STATUS, 0, 8, .ro, none⟩
def QU_CMD_STATUS.BUSY : FieldRef := ⟨.QU_CMD_STATUS, 8, 1, .ro, none⟩
def QU_CMD_STATUS.RESULT : FieldRef := ⟨.QU_CMD_STATUS, 32, 22, .ro, none⟩
def QU_STATUS.DB_BAD : FieldRef := ⟨.QU_STATUS, 0, 1, .w1c, (some 1)⟩
def QU_STATUS.DB_DENY : FieldRef := ⟨.QU_STATUS, 1, 1, .w1c, (some 1)⟩
def QU_STATUS.DB_INVALID : FieldRef := ⟨.QU_STATUS, 2, 1, .w1c, (some 0)⟩
def QU_STATUS.Q_ERROR : FieldRef := ⟨.QU_STATUS, 3, 1, .w1c, (some 1)⟩
def QU_STATUS.IRQ_LOST : FieldRef := ⟨.QU_STATUS, 4, 1, .w1c, (some 1)⟩
def QU_STATUS.CAP_DROP : FieldRef := ⟨.QU_STATUS, 5, 1, .w1c, (some 1)⟩
def QU_STATUS.CAP_WRAP : FieldRef := ⟨.QU_STATUS, 6, 1, .w1c, (some 0)⟩
def QU_STATUS.RESTART_CLOSE : FieldRef := ⟨.QU_STATUS, 7, 1, .w1c, (some 0)⟩
def QU_STATUS.CMD_OVERRUN : FieldRef := ⟨.QU_STATUS, 8, 1, .w1c, none⟩
def QU_ERR_LOG.QUEUE : FieldRef := ⟨.QU_ERR_LOG, 0, 22, .ro, none⟩
def QU_ERR_LOG.CODE : FieldRef := ⟨.QU_ERR_LOG, 24, 8, .ro, none⟩
def QU_ERR_LOG.PORT : FieldRef := ⟨.QU_ERR_LOG, 32, 7, .ro, none⟩
def QU_ERR_LOG.LD : FieldRef := ⟨.QU_ERR_LOG, 40, 4, .ro, none⟩
def QU_CTX_STAT.CACHED : FieldRef := ⟨.QU_CTX_STAT, 0, 17, .ro, none⟩
def QU_CTX_STAT.MISSES : FieldRef := ⟨.QU_CTX_STAT, 32, 32, .ro, none⟩
def QU_COUNT.QUEUES : FieldRef := ⟨.QU_COUNT, 0, 23, .ro, none⟩
def QU_COUNT.RUNNING : FieldRef := ⟨.QU_COUNT, 23, 23, .ro, none⟩
def QU_CAP_STAT.DROPPED : FieldRef := ⟨.QU_CAP_STAT, 0, 32, .ro, none⟩
def QU_CAP_STAT.OVERWRITTEN : FieldRef := ⟨.QU_CAP_STAT, 32, 32, .ro, none⟩
def EN_STATE.STATE : FieldRef := ⟨.EN_STATE, 0, 3, .ro, none⟩
def EN_STATE.JOBS : FieldRef := ⟨.EN_STATE, 3, 7, .ro, none⟩
def EN_STATE.SLOTS_VALID : FieldRef := ⟨.EN_STATE, 10, 16, .ro, none⟩
def EN_STATE.TENANT : FieldRef := ⟨.EN_STATE, 26, 12, .ro, none⟩
def EN_JOB.QUEUE : FieldRef := ⟨.EN_JOB, 0, 22, .ro, none⟩
def EN_JOB.LAYER : FieldRef := ⟨.EN_JOB, 22, 12, .ro, none⟩
def EN_STATUS.TILE_LATE : FieldRef := ⟨.EN_STATUS, 0, 1, .w1c, (some 1)⟩
def EN_STATUS.KERNEL_FAULT : FieldRef := ⟨.EN_STATUS, 1, 1, .w1c, (some 1)⟩
def EN_STATUS.HW_FAULT : FieldRef := ⟨.EN_STATUS, 2, 1, .w1c, (some 2)⟩
def EN_STATUS.POISON : FieldRef := ⟨.EN_STATUS, 3, 1, .w1c, (some 0)⟩
def EN_STATUS.URGENT : FieldRef := ⟨.EN_STATUS, 4, 1, .w1c, (some 0)⟩
def EN_FAULT_LOG.CODE : FieldRef := ⟨.EN_FAULT_LOG, 0, 4, .ro, none⟩
def EN_FAULT_LOG.QUEUE : FieldRef := ⟨.EN_FAULT_LOG, 4, 22, .ro, none⟩
def EN_FAULT_LOG.LAYER : FieldRef := ⟨.EN_FAULT_LOG, 26, 12, .ro, none⟩
def EN_FAULT_LOG.SLOT : FieldRef := ⟨.EN_FAULT_LOG, 38, 4, .ro, none⟩
def EN_COUNT.JOBS_DONE : FieldRef := ⟨.EN_COUNT, 0, 32, .ro, none⟩
def EN_COUNT.HOLD_US : FieldRef := ⟨.EN_COUNT, 32, 32, .ro, none⟩
def EN_CTL.FAULT_LIMIT : FieldRef := ⟨.EN_CTL, 0, 4, .rw, none⟩
def EN_AVAIL.IN_SERVICE : FieldRef := ⟨.EN_AVAIL, 0, 48, .ro, none⟩
def EN_DEV_STATUS.ENGINE_OFF : FieldRef := ⟨.EN_DEV_STATUS, 0, 1, .w1c, (some 2)⟩
def EN_DEV_STATUS.CLUSTER_FENCED : FieldRef := ⟨.EN_DEV_STATUS, 1, 1, .w1c, (some 0)⟩
def PT_CFG.PERSONALITY : FieldRef := ⟨.PT_CFG, 0, 3, .ro, none⟩
def PT_CFG.WIDTH : FieldRef := ⟨.PT_CFG, 3, 2, .ro, none⟩
def PT_CFG.MAX_RATE : FieldRef := ⟨.PT_CFG, 5, 4, .ro, none⟩
def PT_CFG.LD_COUNT : FieldRef := ⟨.PT_CFG, 9, 5, .ro, none⟩
def PT_CFG.MGMT_EN : FieldRef := ⟨.PT_CFG, 14, 1, .ro, none⟩
def PT_CFG.MGMT_LD : FieldRef := ⟨.PT_CFG, 15, 4, .ro, none⟩
def PT_CFG.MODULE : FieldRef := ⟨.PT_CFG, 19, 5, .ro, none⟩
def PT_LINK.STATE : FieldRef := ⟨.PT_LINK, 0, 4, .ro, none⟩
def PT_LINK.RATE : FieldRef := ⟨.PT_LINK, 4, 4, .ro, none⟩
def PT_LINK.LANES : FieldRef := ⟨.PT_LINK, 8, 5, .ro, none⟩
def PT_LINK.REVERSED : FieldRef := ⟨.PT_LINK, 13, 1, .ro, none⟩
def PT_LINK.POLARITY : FieldRef := ⟨.PT_LINK, 16, 16, .ro, none⟩
def PT_STATUS.LINK_UP : FieldRef := ⟨.PT_STATUS, 0, 1, .w1c, (some 0)⟩
def PT_STATUS.SURPRISE_DOWN : FieldRef := ⟨.PT_STATUS, 1, 1, .w1c, (some 1)⟩
def PT_STATUS.DEGRADED : FieldRef := ⟨.PT_STATUS, 2, 1, .w1c, (some 1)⟩
def PT_STATUS.TRAIN_FAIL : FieldRef := ⟨.PT_STATUS, 3, 1, .w1c, (some 2)⟩
def PT_STATUS.PEER_MISMATCH : FieldRef := ⟨.PT_STATUS, 4, 1, .w1c, (some 2)⟩
def PT_STATUS.HOP_EXPIRED : FieldRef := ⟨.PT_STATUS, 5, 1, .w1c, (some 1)⟩
def PT_STATUS.MODULE_REFUSED : FieldRef := ⟨.PT_STATUS, 6, 1, .w1c, (some 1)⟩
def PT_STATUS.MODULE_IDLE : FieldRef := ⟨.PT_STATUS, 7, 1, .w1c, (some 0)⟩
def PT_STATUS.HOT_RESET : FieldRef := ⟨.PT_STATUS, 8, 1, .w1c, (some 0)⟩
def PT_STATUS.CMD_OVERRUN : FieldRef := ⟨.PT_STATUS, 9, 1, .w1c, none⟩
def PT_ERR_STAT.FEC_CORRECTED : FieldRef := ⟨.PT_ERR_STAT, 0, 32, .ro, none⟩
def PT_ERR_STAT.REPLAYS : FieldRef := ⟨.PT_ERR_STAT, 32, 32, .ro, none⟩
def PT_PEER.PEER_DEVICE : FieldRef := ⟨.PT_PEER, 0, 6, .ro, none⟩
def PT_PEER.PEER_PORT : FieldRef := ⟨.PT_PEER, 8, 7, .ro, none⟩
def PT_PEER.MODULE_VID : FieldRef := ⟨.PT_PEER, 16, 16, .ro, none⟩
def PT_PEER.MODULE_DID : FieldRef := ⟨.PT_PEER, 32, 16, .ro, none⟩
def PT_CMD.OP : FieldRef := ⟨.PT_CMD, 0, 8, .rw, none⟩
def PT_CMD.GO : FieldRef := ⟨.PT_CMD, 8, 1, .w1s, none⟩
def PT_CMD.BUSY : FieldRef := ⟨.PT_CMD, 9, 1, .ro, none⟩
def PT_CMD.CODE : FieldRef := ⟨.PT_CMD, 16, 8, .ro, none⟩
def PT_TRAFFIC.TX_MIB : FieldRef := ⟨.PT_TRAFFIC, 0, 32, .ro, none⟩
def PT_TRAFFIC.RX_MIB : FieldRef := ⟨.PT_TRAFFIC, 32, 32, .ro, none⟩
def PT_LD.TENANT : FieldRef := ⟨.PT_LD, 0, 12, .ro, none⟩
def PT_LD.ATTACHED : FieldRef := ⟨.PT_LD, 12, 1, .ro, none⟩
def PT_LD.DECODERS : FieldRef := ⟨.PT_LD, 13, 4, .ro, none⟩
def PT_LD.MSIX_EN : FieldRef := ⟨.PT_LD, 17, 1, .ro, none⟩
def PT_QUAD.MODE : FieldRef := ⟨.PT_QUAD, 0, 2, .ro, none⟩
def PT_QUAD.STOPPED : FieldRef := ⟨.PT_QUAD, 2, 1, .ro, none⟩
def PT_DEV_STATUS.TWIN_LINKS_LOW : FieldRef := ⟨.PT_DEV_STATUS, 0, 1, .w1c, (some 2)⟩
def PT_DEV_STATUS.TIME_OFFSET : FieldRef := ⟨.PT_DEV_STATUS, 1, 1, .w1c, (some 1)⟩
def PT_DEV_STATUS.MGMT_DOWN : FieldRef := ⟨.PT_DEV_STATUS, 2, 1, .w1c, (some 1)⟩
def PT_MGMT_LINK.STATE : FieldRef := ⟨.PT_MGMT_LINK, 0, 4, .ro, none⟩
def PT_MGMT_LINK.RATE : FieldRef := ⟨.PT_MGMT_LINK, 4, 4, .ro, none⟩
def IS_BOOT.BOOT_SLOT : FieldRef := ⟨.IS_BOOT, 0, 2, .rw, none⟩
def IS_BOOT.FALLBACK_SLOT : FieldRef := ⟨.IS_BOOT, 2, 2, .rw, none⟩
def IS_BOOT.RUN_SLOT : FieldRef := ⟨.IS_BOOT, 4, 2, .ro, none⟩
def IS_BOOT.RAN_FALLBACK : FieldRef := ⟨.IS_BOOT, 6, 1, .ro, none⟩
def IS_VERSION.VALUE : FieldRef := ⟨.IS_VERSION, 0, 64, .ro, none⟩
def IS_SLOT_STAT.STATE : FieldRef := ⟨.IS_SLOT_STAT, 0, 2, .ro, none⟩
def IS_SLOT_STAT.REFUSE_CODE : FieldRef := ⟨.IS_SLOT_STAT, 8, 8, .ro, none⟩
def IS_SLOT_STAT.REFUSE_STEP : FieldRef := ⟨.IS_SLOT_STAT, 16, 4, .ro, none⟩
def IS_SLOT_STAT.VERSION_LO : FieldRef := ⟨.IS_SLOT_STAT, 32, 32, .ro, none⟩
def IS_CMD.OP : FieldRef := ⟨.IS_CMD, 0, 8, .rw, none⟩
def IS_CMD.GO : FieldRef := ⟨.IS_CMD, 8, 1, .w1s, none⟩
def IS_CMD_ARG0.VALUE : FieldRef := ⟨.IS_CMD_ARG0, 0, 64, .rw, none⟩
def IS_CMD_ARG1.VALUE : FieldRef := ⟨.IS_CMD_ARG1, 0, 64, .rw, none⟩
def IS_CMD_STATUS.CODE : FieldRef := ⟨.IS_CMD_STATUS, 0, 8, .ro, none⟩
def IS_CMD_STATUS.BUSY : FieldRef := ⟨.IS_CMD_STATUS, 8, 1, .ro, none⟩
def IS_STATUS.IMAGE_REFUSED : FieldRef := ⟨.IS_STATUS, 0, 1, .w1c, (some 1)⟩
def IS_STATUS.CHANGE_DONE : FieldRef := ⟨.IS_STATUS, 1, 1, .w1c, (some 0)⟩
def IS_STATUS.CHANGE_ABORTED : FieldRef := ⟨.IS_STATUS, 2, 1, .w1c, (some 1)⟩
def IS_STATUS.ROLLED_BACK : FieldRef := ⟨.IS_STATUS, 3, 1, .w1c, (some 2)⟩
def IS_STATUS.RAN_FALLBACK : FieldRef := ⟨.IS_STATUS, 4, 1, .w1c, (some 2)⟩
def IS_STATUS.CLOCK_LOST : FieldRef := ⟨.IS_STATUS, 5, 1, .w1c, (some 2)⟩
def IS_STATUS.BOOT_REFUSED : FieldRef := ⟨.IS_STATUS, 6, 1, .w1c, (some 1)⟩
def IS_STATUS.CMD_OVERRUN : FieldRef := ⟨.IS_STATUS, 7, 1, .w1c, none⟩
def IS_CHANGE_STAT.STEP : FieldRef := ⟨.IS_CHANGE_STAT, 0, 4, .ro, none⟩
def IS_CHANGE_STAT.FUNCTION : FieldRef := ⟨.IS_CHANGE_STAT, 4, 4, .ro, none⟩
def IS_CHANGE_STAT.INSTANCE : FieldRef := ⟨.IS_CHANGE_STAT, 8, 6, .ro, none⟩
def IS_CHANGE_STAT.NEW_SLOT : FieldRef := ⟨.IS_CHANGE_STAT, 14, 2, .ro, none⟩
def IS_CHANGE_STAT.LAST_MS : FieldRef := ⟨.IS_CHANGE_STAT, 16, 32, .ro, none⟩
def IS_FUNC_STOPPED.QUAD : FieldRef := ⟨.IS_FUNC_STOPPED, 0, 24, .ro, none⟩
def IS_FUNC_STOPPED.DRAM_GROUP : FieldRef := ⟨.IS_FUNC_STOPPED, 24, 8, .ro, none⟩
def IS_FUNC_STOPPED.FLASH_GROUP : FieldRef := ⟨.IS_FUNC_STOPPED, 32, 8, .ro, none⟩
def IS_FUNC_STOPPED.CLUSTER : FieldRef := ⟨.IS_FUNC_STOPPED, 40, 6, .ro, none⟩
def IS_FUNC_STOPPED.CROWN_GROUP : FieldRef := ⟨.IS_FUNC_STOPPED, 46, 8, .ro, none⟩
def IS_FUNC_STOPPED.ROUTE : FieldRef := ⟨.IS_FUNC_STOPPED, 54, 1, .ro, none⟩
def IS_BOLT_STOPPED.GROUP : FieldRef := ⟨.IS_BOLT_STOPPED, 0, 64, .ro, none⟩
def IS_ISLAND_SEL.ISLAND : FieldRef := ⟨.IS_ISLAND_SEL, 0, 8, .rw, none⟩
def IS_ISLAND_STAT.MHZ : FieldRef := ⟨.IS_ISLAND_STAT, 0, 12, .ro, none⟩
def IS_ISLAND_STAT.STOPPED : FieldRef := ⟨.IS_ISLAND_STAT, 12, 1, .ro, none⟩
def IS_ISLAND_STAT.LOCKED : FieldRef := ⟨.IS_ISLAND_STAT, 13, 1, .ro, none⟩
def IS_SVN.FLOOR : FieldRef := ⟨.IS_SVN, 0, 16, .ro, none⟩
def IS_SVN.RUN_SVN : FieldRef := ⟨.IS_SVN, 16, 16, .ro, none⟩
def IS_SVN.CUSTOMER_KEY : FieldRef := ⟨.IS_SVN, 32, 1, .ro, none⟩
def XT_CTL.FAULT_LIMIT : FieldRef := ⟨.XT_CTL, 0, 4, .rw, none⟩
def XT_CMD.OP : FieldRef := ⟨.XT_CMD, 0, 8, .rw, none⟩
def XT_CMD.GO : FieldRef := ⟨.XT_CMD, 8, 1, .w1s, none⟩
def XT_CMD_ARG0.VALUE : FieldRef := ⟨.XT_CMD_ARG0, 0, 64, .rw, none⟩
def XT_CMD_STATUS.CODE : FieldRef := ⟨.XT_CMD_STATUS, 0, 8, .ro, none⟩
def XT_CMD_STATUS.BUSY : FieldRef := ⟨.XT_CMD_STATUS, 8, 1, .ro, none⟩
def XT_CMD_STATUS.RESULT : FieldRef := ⟨.XT_CMD_STATUS, 32, 12, .ro, none⟩
def XT_STATUS.KEY_LOADED : FieldRef := ⟨.XT_STATUS, 0, 1, .w1c, (some 0)⟩
def XT_STATUS.KEY_DELETED : FieldRef := ⟨.XT_STATUS, 1, 1, .w1c, (some 0)⟩
def XT_STATUS.KEY_MISSING : FieldRef := ⟨.XT_STATUS, 2, 1, .w1c, (some 1)⟩
def XT_STATUS.KEY_PATH_DENY : FieldRef := ⟨.XT_STATUS, 3, 1, .w1c, (some 1)⟩
def XT_STATUS.CORE_FAULT : FieldRef := ⟨.XT_STATUS, 4, 1, .w1c, (some 0)⟩
def XT_STATUS.LANE_OFF : FieldRef := ⟨.XT_STATUS, 5, 1, .w1c, (some 2)⟩
def XT_STATUS.MEDIA_LOST : FieldRef := ⟨.XT_STATUS, 6, 1, .w1c, (some 2)⟩
def XT_STATUS.UNWRAP_FAIL : FieldRef := ⟨.XT_STATUS, 7, 1, .w1c, (some 3)⟩
def XT_STATUS.CMD_OVERRUN : FieldRef := ⟨.XT_STATUS, 8, 1, .w1c, none⟩
def XT_SLOT_SEL.SLOT : FieldRef := ⟨.XT_SLOT_SEL, 0, 12, .rw, none⟩
def XT_SLOT_STAT.STATE : FieldRef := ⟨.XT_SLOT_STAT, 0, 2, .ro, none⟩
def XT_SLOT_STAT.TENANT : FieldRef := ⟨.XT_SLOT_STAT, 4, 12, .ro, none⟩
def XT_FAULT_LOG.FRAME : FieldRef := ⟨.XT_FAULT_LOG, 0, 44, .ro, none⟩
def XT_FAULT_LOG.ISLAND : FieldRef := ⟨.XT_FAULT_LOG, 44, 3, .ro, none⟩
def XT_FAULT_LOG.LANE : FieldRef := ⟨.XT_FAULT_LOG, 47, 2, .ro, none⟩
def XT_FAULT_LOG.CORE : FieldRef := ⟨.XT_FAULT_LOG, 49, 4, .ro, none⟩
def XT_FAULT_LOG.WRITE : FieldRef := ⟨.XT_FAULT_LOG, 53, 1, .ro, none⟩
def XT_AVAIL.LANES : FieldRef := ⟨.XT_AVAIL, 0, 24, .ro, none⟩
def XT_COUNT.FAULTS : FieldRef := ⟨.XT_COUNT, 0, 32, .ro, none⟩
def XT_COUNT.KEY_EMPTY_READS : FieldRef := ⟨.XT_COUNT, 32, 32, .ro, none⟩
def XT_SLOTS_USED.LOADED : FieldRef := ⟨.XT_SLOTS_USED, 0, 13, .ro, none⟩
def XT_SLOTS_USED.DELETED : FieldRef := ⟨.XT_SLOTS_USED, 16, 13, .ro, none⟩
def XT_KEY_DATA.KEY : FieldRef := ⟨.XT_KEY_DATA, 0, 64, .wo, none⟩
def PW_STATE.STATE : FieldRef := ⟨.PW_STATE, 0, 5, .ro, none⟩
def PW_STATE.BEGUN : FieldRef := ⟨.PW_STATE, 5, 1, .ro, none⟩
def PW_STATE.PSYNC : FieldRef := ⟨.PW_STATE, 6, 1, .ro, none⟩
def PW_STATE.PWR_REQ : FieldRef := ⟨.PW_STATE, 7, 1, .ro, none⟩
def PW_STATE.PF_WARN : FieldRef := ⟨.PW_STATE, 8, 1, .ro, none⟩
def PW_STATE.PF_FAIL : FieldRef := ⟨.PW_STATE, 9, 1, .ro, none⟩
def PW_STATE.SUPPLY_GOOD : FieldRef := ⟨.PW_STATE, 10, 1, .ro, none⟩
def PW_STATE.CAUSE : FieldRef := ⟨.PW_STATE, 11, 3, .ro, none⟩
def PW_STATUS.RAIL_WARN : FieldRef := ⟨.PW_STATUS, 0, 1, .w1c, (some 1)⟩
def PW_STATUS.RAIL_FAULT : FieldRef := ⟨.PW_STATUS, 1, 1, .w1c, (some 2)⟩
def PW_STATUS.STEP_FAIL : FieldRef := ⟨.PW_STATUS, 2, 1, .w1c, (some 3)⟩
def PW_STATUS.SAVE_ABORTED : FieldRef := ⟨.PW_STATUS, 3, 1, .w1c, (some 1)⟩
def PW_STATUS.SAVE_DONE : FieldRef := ⟨.PW_STATUS, 4, 1, .w1c, (some 0)⟩
def PW_STATUS.EMERGENCY : FieldRef := ⟨.PW_STATUS, 5, 1, .w1c, (some 3)⟩
def PW_STATUS.STORE_NOT_READY : FieldRef := ⟨.PW_STATUS, 6, 1, .w1c, (some 1)⟩
def PW_STATUS.POWER_THROTTLE : FieldRef := ⟨.PW_STATUS, 7, 1, .w1c, (some 1)⟩
def PW_STATUS.PSYNC_FAULT : FieldRef := ⟨.PW_STATUS, 8, 1, .w1c, (some 2)⟩
def PW_DOWN_LOG.LAST_STATE : FieldRef := ⟨.PW_DOWN_LOG, 0, 5, .ro, none⟩
def PW_DOWN_LOG.CAUSE : FieldRef := ⟨.PW_DOWN_LOG, 5, 3, .ro, none⟩
def PW_DOWN_LOG.EPOCH : FieldRef := ⟨.PW_DOWN_LOG, 8, 32, .ro, none⟩
def PW_SAVE_STAT.FRAMES : FieldRef := ⟨.PW_SAVE_STAT, 0, 32, .ro, none⟩
def PW_SAVE_STAT.SAVE_MS : FieldRef := ⟨.PW_SAVE_STAT, 32, 16, .ro, none⟩
def PW_SAVE_STAT.COMMITTED : FieldRef := ⟨.PW_SAVE_STAT, 48, 1, .ro, none⟩
def PW_RAIL_SEL.RAIL : FieldRef := ⟨.PW_RAIL_SEL, 0, 4, .rw, none⟩
def PW_RAIL_CFG.NOMINAL_MV : FieldRef := ⟨.PW_RAIL_CFG, 0, 16, .ro, none⟩
def PW_RAIL_CFG.WARN_PERMILLE : FieldRef := ⟨.PW_RAIL_CFG, 16, 8, .ro, none⟩
def PW_RAIL_CFG.FAULT_PERMILLE : FieldRef := ⟨.PW_RAIL_CFG, 24, 8, .ro, none⟩
def PW_RAIL_CFG.ON_STATE : FieldRef := ⟨.PW_RAIL_CFG, 32, 5, .ro, none⟩
def PW_RAIL_CFG.OFF_STATE : FieldRef := ⟨.PW_RAIL_CFG, 37, 5, .ro, none⟩
def PW_RAIL_CFG.ENABLE : FieldRef := ⟨.PW_RAIL_CFG, 42, 4, .ro, none⟩
def PW_RAIL_CFG.PMBUS : FieldRef := ⟨.PW_RAIL_CFG, 46, 1, .ro, none⟩
def PW_RAIL_STAT.MV : FieldRef := ⟨.PW_RAIL_STAT, 0, 16, .ro, none⟩
def PW_RAIL_STAT.ENABLED : FieldRef := ⟨.PW_RAIL_STAT, 16, 1, .ro, none⟩
def PW_RAIL_STAT.LEVEL : FieldRef := ⟨.PW_RAIL_STAT, 17, 2, .ro, none⟩
def BB_EV_CTL.CXL_MIN : FieldRef := ⟨.BB_EV_CTL, 0, 2, .rw, none⟩
def BB_EV_CTL.IRQ_MIN : FieldRef := ⟨.BB_EV_CTL, 2, 2, .rw, none⟩
def BB_EV_CTL.ALERT_MIN : FieldRef := ⟨.BB_EV_CTL, 4, 2, .rw, none⟩
def BB_EV_CTL.COALESCE_US : FieldRef := ⟨.BB_EV_CTL, 8, 8, .rw, none⟩
def BB_EV_CTL.VECTOR : FieldRef := ⟨.BB_EV_CTL, 16, 11, .rw, none⟩
def BB_EV_CTL.ALERT_GPIO : FieldRef := ⟨.BB_EV_CTL, 28, 4, .ro, none⟩
def BB_EV_PTR.HEAD : FieldRef := ⟨.BB_EV_PTR, 0, 12, .rw, none⟩
def BB_EV_PTR.TAIL : FieldRef := ⟨.BB_EV_PTR, 16, 12, .ro, none⟩
def BB_EV_PTR.UNREAD : FieldRef := ⟨.BB_EV_PTR, 28, 13, .ro, none⟩
def BB_EV_STAT.LOST : FieldRef := ⟨.BB_EV_STAT, 0, 32, .ro, none⟩
def BB_EV_STAT.MERGED : FieldRef := ⟨.BB_EV_STAT, 32, 32, .ro, none⟩
def BB_PENDING.BLOCKS : FieldRef := ⟨.BB_PENDING, 0, 15, .ro, none⟩
def BB_PENDING.TOP_CLASS : FieldRef := ⟨.BB_PENDING, 16, 2, .ro, none⟩
def BB_PENDING.ALERT : FieldRef := ⟨.BB_PENDING, 18, 1, .ro, none⟩
def BB_STATUS.EV_OVERFLOW : FieldRef := ⟨.BB_STATUS, 0, 1, .w1c, (some 1)⟩
def BB_STATUS.RATE_DROP : FieldRef := ⟨.BB_STATUS, 1, 1, .w1c, (some 1)⟩
def BB_STATUS.BB_WRITE_FAIL : FieldRef := ⟨.BB_STATUS, 2, 1, .w1c, (some 2)⟩
def BB_STATUS.TORN_FOUND : FieldRef := ⟨.BB_STATUS, 3, 1, .w1c, (some 0)⟩
def BB_STATUS.LIST_FULL : FieldRef := ⟨.BB_STATUS, 4, 1, .w1c, (some 1)⟩
def BB_STATUS.HEALTH_CRC : FieldRef := ⟨.BB_STATUS, 5, 1, .w1c, (some 2)⟩
def BB_STATUS.PTR_BAD : FieldRef := ⟨.BB_STATUS, 6, 1, .w1c, none⟩
def BB_STATUS.EV_IRQ_LOST : FieldRef := ⟨.BB_STATUS, 7, 1, .w1c, none⟩
def BB_SEQ.NEXT : FieldRef := ⟨.BB_SEQ, 0, 64, .ro, none⟩
def BB_AON_ADDR.ADDR : FieldRef := ⟨.BB_AON_ADDR, 0, 24, .rw, none⟩
def BB_AON_ADDR.REGION : FieldRef := ⟨.BB_AON_ADDR, 24, 1, .rw, none⟩
def BB_AON_DATA.DATA : FieldRef := ⟨.BB_AON_DATA, 0, 64, .ro, none⟩
def BB_HEALTH_SEL.INDEX : FieldRef := ⟨.BB_HEALTH_SEL, 0, 4, .rw, none⟩
def BB_HEALTH_DATA.VALUE : FieldRef := ⟨.BB_HEALTH_DATA, 0, 64, .ro, none⟩
def TM_DT.DT : FieldRef := ⟨.TM_DT, 0, 64, .ro, none⟩
def TM_SYNC.ROOT_ID : FieldRef := ⟨.TM_SYNC, 0, 6, .ro, none⟩
def TM_SYNC.IS_ROOT : FieldRef := ⟨.TM_SYNC, 6, 1, .ro, none⟩
def TM_SYNC.SET : FieldRef := ⟨.TM_SYNC, 7, 1, .ro, none⟩
def TM_SYNC.OFFSET_NS : FieldRef := ⟨.TM_SYNC, 8, 32, .ro, none⟩
def TM_SYNC.SLEW : FieldRef := ⟨.TM_SYNC, 40, 16, .ro, none⟩
def TM_HOST_OFFSET.OFFSET : FieldRef := ⟨.TM_HOST_OFFSET, 0, 64, .ro, none⟩
def TM_STATUS.ROOT_CHANGE : FieldRef := ⟨.TM_STATUS, 0, 1, .w1c, (some 0)⟩
def TM_STATUS.CAPTURED : FieldRef := ⟨.TM_STATUS, 1, 1, .w1c, (some 0)⟩
def TM_STATUS.CAPTURE_MISSED : FieldRef := ⟨.TM_STATUS, 2, 1, .w1c, (some 1)⟩
def TM_CAPTURE_CTL.GPIO : FieldRef := ⟨.TM_CAPTURE_CTL, 0, 4, .rw, none⟩
def TM_CAPTURE_CTL.EDGE : FieldRef := ⟨.TM_CAPTURE_CTL, 4, 2, .rw, none⟩
def TM_CAPTURE.DT : FieldRef := ⟨.TM_CAPTURE, 0, 64, .ro, none⟩

end F

/-- The fields of each register. -/
def Reg.fields (r : Reg) : List FieldRef :=
  match r with
  | .GB_ID => [F.GB_ID.PART, F.GB_ID.STEPPING, F.GB_ID.CODE]
  | .GB_SERIAL => [F.GB_SERIAL.SERIAL]
  | .GB_SCRATCH => [F.GB_SCRATCH.VALUE]
  | .GB_TEMP => [F.GB_TEMP.LID, F.GB_TEMP.JUNCTION]
  | .GB_ACCESS_STATUS => [F.GB_ACCESS_STATUS.BAD_SIZE, F.GB_ACCESS_STATUS.RSV_WRITE, F.GB_ACCESS_STATUS.UNAVAILABLE, F.GB_ACCESS_STATUS.FENCED_WRITE]
  | .GB_ACCESS_LOG => [F.GB_ACCESS_LOG.OFFSET, F.GB_ACCESS_LOG.PORT, F.GB_ACCESS_LOG.LD, F.GB_ACCESS_LOG.WRITE, F.GB_ACCESS_LOG.KIND]
  | .BL_DEVICE_ID => [F.BL_DEVICE_ID.DEVICE_ID, F.BL_DEVICE_ID.LEVELS, F.BL_DEVICE_ID.BAY_DEVICES]
  | .BL_RANGE_LIMIT => [F.BL_RANGE_LIMIT.BOLTS]
  | .BL_CMD => [F.BL_CMD.OP, F.BL_CMD.GO]
  | .BL_CMD_ARG0 => [F.BL_CMD_ARG0.VALUE]
  | .BL_CMD_ARG1 => [F.BL_CMD_ARG1.VALUE]
  | .BL_CMD_ARG2 => [F.BL_CMD_ARG2.VALUE]
  | .BL_CMD_ARG3 => [F.BL_CMD_ARG3.VALUE]
  | .BL_CMD_STATUS => [F.BL_CMD_STATUS.CODE, F.BL_CMD_STATUS.BUSY, F.BL_CMD_STATUS.RESULT]
  | .BL_STATUS => [F.BL_STATUS.UNBOUND_ACCESS, F.BL_STATUS.TENANT_DENY, F.BL_STATUS.FWD_TIMEOUT, F.BL_STATUS.ROUTE_ALT, F.BL_STATUS.ENTRY_CRC, F.BL_STATUS.CMD_OVERRUN]
  | .BL_FWD_TIMEOUT => [F.BL_FWD_TIMEOUT.TIMEOUT_US]
  | .BL_CACHE_STAT => [F.BL_CACHE_STAT.HITS, F.BL_CACHE_STAT.MISSES]
  | .BL_ROUTE => [F.BL_ROUTE.PRIMARY_PORT, F.BL_ROUTE.ALT_PORT, F.BL_ROUTE.HOPS, F.BL_ROUTE.ALT_HOPS, F.BL_ROUTE.ALT_IN_USE]
  | .PW_DIRTY_BUDGET => [F.PW_DIRTY_BUDGET.BUDGET_GIB]
  | .PW_ENERGY_DECL => [F.PW_ENERGY_DECL.USABLE_J, F.PW_ENERGY_DECL.FIXED_J, F.PW_ENERGY_DECL.SAVE_AREA_GIB, F.PW_ENERGY_DECL.SAVE_RATE_GBS]
  | .PW_DIRTY_STAT => [F.PW_DIRTY_STAT.EFFECTIVE_GIB, F.PW_DIRTY_STAT.LIMIT_GIB, F.PW_DIRTY_STAT.DIRTY_MIB, F.PW_DIRTY_STAT.THROTTLE, F.PW_DIRTY_STAT.WRITE_THROUGH, F.PW_DIRTY_STAT.DESTAGING]
  | .PW_DESTAGE_CTL => [F.PW_DESTAGE_CTL.START_PCT, F.PW_DESTAGE_CTL.STOP_PCT, F.PW_DESTAGE_CTL.HYST_GIB, F.PW_DESTAGE_CTL.AGE_S]
  | .PW_PERSIST_STATUS => [F.PW_PERSIST_STATUS.BUDGET_REFUSED, F.PW_PERSIST_STATUS.THROTTLE_ENTERED, F.PW_PERSIST_STATUS.BUDGET_LOWERED, F.PW_PERSIST_STATUS.WRITE_THROUGH, F.PW_PERSIST_STATUS.READ_REPAIRED, F.PW_PERSIST_STATUS.POISON_NEW, F.PW_PERSIST_STATUS.SPAN_REG_FAULT, F.PW_PERSIST_STATUS.VOLATILE_FULL, F.PW_PERSIST_STATUS.DIRTY_LOSS, F.PW_PERSIST_STATUS.SPAN_REG_LOST]
  | .PW_POISON_LOG => [F.PW_POISON_LOG.LINE, F.PW_POISON_LOG.SOURCE, F.PW_POISON_LOG.SPAN]
  | .PW_POISON_COUNT => [F.PW_POISON_COUNT.REPAIRED, F.PW_POISON_COUNT.POISONED]
  | .TW_HB_CTL => [F.TW_HB_CTL.PERIOD_US]
  | .TW_TIMING => [F.TW_TIMING.LEASE_US, F.TW_TIMING.GUARD_US, F.TW_TIMING.PB_PERIOD_US]
  | .TW_STATE => [F.TW_STATE.PAIR_STATE, F.TW_STATE.MISS_A, F.TW_STATE.MISS_B, F.TW_STATE.CARRIER, F.TW_STATE.LEASE_VALID, F.TW_STATE.SMALL_BAY, F.TW_STATE.PEER_DIAG_OK, F.TW_STATE.PEER_ID]
  | .TW_CLAIM_LOCAL => [F.TW_CLAIM_LOCAL.VALUE]
  | .TW_CLAIM_PEER => [F.TW_CLAIM_PEER.VALUE]
  | .TW_HB_SEQ => [F.TW_HB_SEQ.TX_SEQ, F.TW_HB_SEQ.RX_SEQ]
  | .TW_PEER_DT => [F.TW_PEER_DT.VALUE]
  | .TW_LEASE_END => [F.TW_LEASE_END.VALUE]
  | .TW_STATUS => [F.TW_STATUS.PATH_A_LOST, F.TW_STATUS.PATH_B_LOST, F.TW_STATUS.CARRIER_LOST, F.TW_STATUS.SILENT_PEER, F.TW_STATUS.LEASE_LAPSED, F.TW_STATUS.TAKEOVER, F.TW_STATUS.YIELD_RX, F.TW_STATUS.STALE_SELF, F.TW_STATUS.REJOIN_DONE, F.TW_STATUS.FULL_COPY, F.TW_STATUS.CLAIM_MISMATCH, F.TW_STATUS.ROTATE_SKIP, F.TW_STATUS.DIVERGED, F.TW_STATUS.GATE_REFUSED, F.TW_STATUS.FRAME_CRC, F.TW_STATUS.CMD_OVERRUN]
  | .TW_MISS_STAT => [F.TW_MISS_STAT.MISSES_A, F.TW_MISS_STAT.MISSES_B]
  | .TW_ROTATE_CTL => [F.TW_ROTATE_CTL.EN, F.TW_ROTATE_CTL.SLOTS, F.TW_ROTATE_CTL.INTERVAL_MIN, F.TW_ROTATE_CTL.GROUP]
  | .TW_ROTATE_STAT => [F.TW_ROTATE_STAT.SLOT, F.TW_ROTATE_STAT.BOLTS_MOVED, F.TW_ROTATE_STAT.MAX_HOLD_US, F.TW_ROTATE_STAT.CYCLE]
  | .TW_CMD => [F.TW_CMD.OP, F.TW_CMD.GO]
  | .TW_CMD_STATUS => [F.TW_CMD_STATUS.CODE, F.TW_CMD_STATUS.BUSY]
  | .TW_REJOIN_STAT => [F.TW_REJOIN_STAT.SPANS_LEFT, F.TW_REJOIN_STAT.ROLE, F.TW_REJOIN_STAT.FULL]
  | .TW_SPLIT_DT => [F.TW_SPLIT_DT.VALUE]
  | .ST_TIER_CTL => [F.ST_TIER_CTL.PROMOTE_HEAT, F.ST_TIER_CTL.DECAY_S, F.ST_TIER_CTL.P_LOW_PCT, F.ST_TIER_CTL.P_HIGH_PCT]
  | .ST_TIER_STAT => [F.ST_TIER_STAT.P_FREE_PCT, F.ST_TIER_STAT.F_FREE_PCT, F.ST_TIER_STAT.DEMOTING, F.ST_TIER_STAT.MOVING]
  | .ST_TIER_STATUS => [F.ST_TIER_STATUS.QUOTA_REFUSED, F.ST_TIER_STATUS.CAPACITY_FULL, F.ST_TIER_STATUS.F_FULL, F.ST_TIER_STATUS.WEAR_SHORT, F.ST_TIER_STATUS.QUOTA_OVER]
  | .ST_MIG_COUNT => [F.ST_MIG_COUNT.PROMOTED, F.ST_MIG_COUNT.DEMOTED]
  | .ST_QUOTA_SEL => [F.ST_QUOTA_SEL.TENANT]
  | .ST_QUOTA_D => [F.ST_QUOTA_D.D_MIB]
  | .ST_QUOTA_P => [F.ST_QUOTA_P.FRAMES]
  | .ST_QUOTA_F => [F.ST_QUOTA_F.FRAMES]
  | .ST_USE_D => [F.ST_USE_D.USE, F.ST_USE_D.PINNED]
  | .ST_USE_P => [F.ST_USE_P.USE, F.ST_USE_P.PINNED]
  | .ST_USE_F => [F.ST_USE_F.USE, F.ST_USE_F.PINNED]
  | .ST_FLOAT_CTL => [F.ST_FLOAT_CTL.PSI, F.ST_FLOAT_CTL.THRESH_LOG2]
  | .ST_FLOAT_STAT => [F.ST_FLOAT_STAT.BOUND_OK, F.ST_FLOAT_STAT.WORST_MODULE, F.ST_FLOAT_STAT.WORST_PERMILLE, F.ST_FLOAT_STAT.SWAPS]
  | .CR_WAY_PWR => [F.CR_WAY_PWR.OFF_REQ]
  | .CR_WAY_STAT => [F.CR_WAY_STAT.OFF, F.CR_WAY_STAT.CLEANING, F.CR_WAY_STAT.WAKING]
  | .CR_STATUS => [F.CR_STATUS.WAY_OFF_DONE, F.CR_STATUS.WAY_ON_DONE, F.CR_STATUS.CLEAN_ABORT, F.CR_STATUS.MISS_FULL, F.CR_STATUS.BEAT_CORRECTED, F.CR_STATUS.LINE_UNCORR]
  | .CR_LFSR_SEED => [F.CR_LFSR_SEED.SEED]
  | .CR_SLICE_SEL => [F.CR_SLICE_SEL.SLICE]
  | .CR_SLICE_STAT => [F.CR_SLICE_STAT.DIRTY_LINES, F.CR_SLICE_STAT.MISSES_OUT, F.CR_SLICE_STAT.MISSES_MAX]
  | .CR_HIT_STAT => [F.CR_HIT_STAT.HITS, F.CR_HIT_STAT.MISSES]
  | .CR_ERR_STAT => [F.CR_ERR_STAT.CORRECTED, F.CR_ERR_STAT.UNCORRECTABLE]
  | .DC_CFG => [F.DC_CFG.POP, F.DC_CFG.WIDTH, F.DC_CFG.DENSITY, F.DC_CFG.STACK, F.DC_CFG.PRANKS, F.DC_CFG.SPEED]
  | .DC_STATUS => [F.DC_STATUS.CORRECTED, F.DC_STATUS.UNCORR, F.DC_STATUS.MARKED, F.DC_STATUS.EYE_LOW, F.DC_STATUS.RETRAIN_FAIL, F.DC_STATUS.HOT, F.DC_STATUS.PPR_DONE, F.DC_STATUS.PPR_EXHAUSTED, F.DC_STATUS.TRN_FAIL, F.DC_STATUS.CMD_OVERRUN]
  | .DC_ERR_STAT => [F.DC_ERR_STAT.CORRECTED, F.DC_ERR_STAT.UNCORRECTABLE]
  | .DC_ERR_LOG => [F.DC_ERR_LOG.SUBCH, F.DC_ERR_LOG.PRANK, F.DC_ERR_LOG.LRANK, F.DC_ERR_LOG.BG, F.DC_ERR_LOG.BA, F.DC_ERR_LOG.ROW, F.DC_ERR_LOG.CB, F.DC_ERR_LOG.COMPONENT, F.DC_ERR_LOG.KIND, F.DC_ERR_LOG.SOURCE]
  | .DC_MARK => [F.DC_MARK.COMP_A, F.DC_MARK.VALID_A, F.DC_MARK.COMP_B, F.DC_MARK.VALID_B, F.DC_MARK.THRESH]
  | .DC_TRN_CTL => [F.DC_TRN_CTL.OP, F.DC_TRN_CTL.SUBCH, F.DC_TRN_CTL.PRANK, F.DC_TRN_CTL.GO, F.DC_TRN_CTL.BUSY, F.DC_TRN_CTL.DELAY, F.DC_TRN_CTL.CODE]
  | .DC_TRN_PAT => [F.DC_TRN_PAT.SEED, F.DC_TRN_PAT.MODE]
  | .DC_TRN_CMP => [F.DC_TRN_CMP.LANE_ERR, F.DC_TRN_CMP.BURSTS_BAD]
  | .DC_RETRAIN => [F.DC_RETRAIN.MIN_EYE, F.DC_RETRAIN.EYE_NOW, F.DC_RETRAIN.LANE, F.DC_RETRAIN.SUBCH, F.DC_RETRAIN.PAUSES]
  | .DC_REFRESH_CTL => [F.DC_REFRESH_CTL.MODE, F.DC_REFRESH_CTL.RATE, F.DC_REFRESH_CTL.POSTPONED]
  | .DC_PPR_CMD => [F.DC_PPR_CMD.OP, F.DC_PPR_CMD.SUBCH, F.DC_PPR_CMD.PRANK, F.DC_PPR_CMD.LRANK, F.DC_PPR_CMD.BG, F.DC_PPR_CMD.BA, F.DC_PPR_CMD.ROW, F.DC_PPR_CMD.GO, F.DC_PPR_CMD.BUSY, F.DC_PPR_CMD.CODE]
  | .DC_MAP => [F.DC_MAP.AM, F.DC_MAP.CH_BITS, F.DC_MAP.GROUPS_UP, F.DC_MAP.D_BLOCKS]
  | .DC_TROWEL_CTL => [F.DC_TROWEL_CTL.EN, F.DC_TROWEL_CTL.D_PERIOD_H, F.DC_TROWEL_CTL.P_PERIOD_H, F.DC_TROWEL_CTL.F_PERIOD_D]
  | .DC_TROWEL_STAT => [F.DC_TROWEL_STAT.D_PCT, F.DC_TROWEL_STAT.P_PCT, F.DC_TROWEL_STAT.F_PCT, F.DC_TROWEL_STAT.LATE_D, F.DC_TROWEL_STAT.LATE_P, F.DC_TROWEL_STAT.LATE_F]
  | .DC_COAT_STAT => [F.DC_COAT_STAT.COATED, F.DC_COAT_STAT.FAILED]
  | .FL_CFG => [F.FL_CFG.POP, F.FL_CFG.IFACE, F.FL_CFG.RATE, F.FL_CFG.TARGETS, F.FL_CFG.DIES, F.FL_CFG.LUNS, F.FL_CFG.IN_STRIPES]
  | .FL_STATUS => [F.FL_STATUS.ENUM_FAIL, F.FL_STATUS.PROG_FAIL, F.FL_STATUS.ERASE_FAIL, F.FL_STATUS.RETIRED, F.FL_STATUS.UNCORR, F.FL_STATUS.SUSPEND_LIMIT]
  | .FL_ERR_STAT => [F.FL_ERR_STAT.CORRECTED, F.FL_ERR_STAT.UNCORRECTABLE]
  | .FL_BLOCKS => [F.FL_BLOCKS.GOOD, F.FL_BLOCKS.RETIRED, F.FL_BLOCKS.FACTORY_BAD]
  | .FL_MAP_CTL => [F.FL_MAP_CTL.PROMOTE_WRITES, F.FL_MAP_CTL.FINE_IDLE_S, F.FL_MAP_CTL.FINE_SPANS, F.FL_MAP_CTL.CKPT_MIN]
  | .FL_MAP_STAT => [F.FL_MAP_STAT.SPANS_F, F.FL_MAP_STAT.FINE_USED, F.FL_MAP_STAT.JOURNAL_PCT]
  | .FL_FULL_CTL => [F.FL_FULL_CTL.BG_PCT, F.FL_FULL_CTL.HIGH_PCT, F.FL_FULL_CTL.LOW_PCT, F.FL_FULL_CTL.CRIT_PCT, F.FL_FULL_CTL.IDLE_PCT, F.FL_FULL_CTL.WEAR_GAP_PCT]
  | .FL_FULL_STAT => [F.FL_FULL_STAT.FREE_PCT, F.FL_FULL_STAT.MODE, F.FL_FULL_STAT.VICTIM_VALID_PCT, F.FL_FULL_STAT.BANDS_ERASED]
  | .FL_RETRY_CTL => [F.FL_RETRY_CTL.ENTRIES, F.FL_RETRY_CTL.RETRY_REFRESH, F.FL_RETRY_CTL.SUSPEND_MAX]
  | .FL_DEV_STATUS => [F.FL_DEV_STATUS.FG_ENTERED, F.FL_DEV_STATUS.CRIT_ENTERED, F.FL_DEV_STATUS.SPARE_LOW, F.FL_DEV_STATUS.SPARE_OUT, F.FL_DEV_STATUS.MOUNT_SCAN, F.FL_DEV_STATUS.ORPHANS, F.FL_DEV_STATUS.FINE_POOL_FULL, F.FL_DEV_STATUS.CTL_REFUSED]
  | .FL_HEALTH => [F.FL_HEALTH.SPARE_PCT, F.FL_HEALTH.PE_MEAN_PCT, F.FL_HEALTH.PE_MAX_PCT, F.FL_HEALTH.RATED_PE]
  | .FL_CLASS_SEL => [F.FL_CLASS_SEL.CLASS]
  | .FL_CLASS_COUNT => [F.FL_CLASS_COUNT.COUNT]
  | .FL_TEMP_SEL => [F.FL_TEMP_SEL.BIN, F.FL_TEMP_SEL.SENSOR]
  | .FL_TEMP_STAT => [F.FL_TEMP_STAT.SECONDS]
  | .ST_P_CFG => [F.ST_P_CFG.GROUPS, F.ST_P_CFG.WIDTH, F.ST_P_CFG.P_SPARE, F.ST_P_CFG.MODULES]
  | .ST_F_CFG => [F.ST_F_CFG.WIDTH, F.ST_F_CFG.CHANNELS, F.ST_F_CFG.PAGES, F.ST_F_CFG.OLD_WIDTH]
  | .ST_MEMBER_SEL => [F.ST_MEMBER_SEL.TIER, F.ST_MEMBER_SEL.MEMBER]
  | .ST_MEMBER_STAT => [F.ST_MEMBER_STAT.STATE, F.ST_MEMBER_STAT.GROUP, F.ST_MEMBER_STAT.POSITION, F.ST_MEMBER_STAT.ROWS_LEFT, F.ST_MEMBER_STAT.PCT]
  | .ST_REBUILD_CTL => [F.ST_REBUILD_CTL.EN, F.ST_REBUILD_CTL.COPYBACK_EN, F.ST_REBUILD_CTL.FLOOR_PCT]
  | .ST_REBUILD_STAT => [F.ST_REBUILD_STAT.SHARE_PCT, F.ST_REBUILD_STAT.ACTIVE, F.ST_REBUILD_STAT.ROWS_DONE]
  | .ST_RESYNC_STAT => [F.ST_RESYNC_STAT.LAST_KIND, F.ST_RESYNC_STAT.FULL_RUNNING, F.ST_RESYNC_STAT.PARTIAL_ROWS, F.ST_RESYNC_STAT.FULL_PCT, F.ST_RESYNC_STAT.SUSPECT]
  | .ST_SKIM_STAT => [F.ST_SKIM_STAT.EPOCH, F.ST_SKIM_STAT.MEMBER_A, F.ST_SKIM_STAT.MEMBER_B, F.ST_SKIM_STAT.SLOT, F.ST_SKIM_STAT.IN_FLIGHT]
  | .ST_STATUS => [F.ST_STATUS.MEMBER_LOST, F.ST_STATUS.REBUILD_DONE, F.ST_STATUS.RESYNC_PARTIAL, F.ST_STATUS.RESYNC_FULL, F.ST_STATUS.JOURNAL_COPY_LOST, F.ST_STATUS.TWIN_HEAL, F.ST_STATUS.STRIPE_LOSS, F.ST_STATUS.SPARE_SHORT, F.ST_STATUS.PARITY_MISMATCH, F.ST_STATUS.COPYBACK_DONE, F.ST_STATUS.RESHAPE_DONE, F.ST_STATUS.RESHAPE_PAUSED, F.ST_STATUS.FENCED_READ, F.ST_STATUS.CMD_OVERRUN]
  | .ST_LOSS_LOG => [F.ST_LOSS_LOG.FRAME, F.ST_LOSS_LOG.COUNT]
  | .ST_RESHAPE_CMD => [F.ST_RESHAPE_CMD.OP, F.ST_RESHAPE_CMD.GO, F.ST_RESHAPE_CMD.BUSY, F.ST_RESHAPE_CMD.CODE]
  | .ST_RESHAPE_STAT => [F.ST_RESHAPE_STAT.STATE, F.ST_RESHAPE_STAT.TIER, F.ST_RESHAPE_STAT.PCT, F.ST_RESHAPE_STAT.EXTENTS_LEFT]
  | .ST_PARITY_STAT => [F.ST_PARITY_STAT.MISMATCH, F.ST_PARITY_STAT.HEALED]
  | .QU_TABLE_BASE => [F.QU_TABLE_BASE.D_BLOCK]
  | .QU_CMD => [F.QU_CMD.OP, F.QU_CMD.GO]
  | .QU_CMD_ARG0 => [F.QU_CMD_ARG0.VALUE]
  | .QU_CMD_ARG1 => [F.QU_CMD_ARG1.VALUE]
  | .QU_CMD_ARG2 => [F.QU_CMD_ARG2.VALUE]
  | .QU_CMD_ARG3 => [F.QU_CMD_ARG3.VALUE]
  | .QU_CMD_ARG4 => [F.QU_CMD_ARG4.VALUE]
  | .QU_CMD_STATUS => [F.QU_CMD_STATUS.CODE, F.QU_CMD_STATUS.BUSY, F.QU_CMD_STATUS.RESULT]
  | .QU_STATUS => [F.QU_STATUS.DB_BAD, F.QU_STATUS.DB_DENY, F.QU_STATUS.DB_INVALID, F.QU_STATUS.Q_ERROR, F.QU_STATUS.IRQ_LOST, F.QU_STATUS.CAP_DROP, F.QU_STATUS.CAP_WRAP, F.QU_STATUS.RESTART_CLOSE, F.QU_STATUS.CMD_OVERRUN]
  | .QU_ERR_LOG => [F.QU_ERR_LOG.QUEUE, F.QU_ERR_LOG.CODE, F.QU_ERR_LOG.PORT, F.QU_ERR_LOG.LD]
  | .QU_CTX_STAT => [F.QU_CTX_STAT.CACHED, F.QU_CTX_STAT.MISSES]
  | .QU_COUNT => [F.QU_COUNT.QUEUES, F.QU_COUNT.RUNNING]
  | .QU_CAP_STAT => [F.QU_CAP_STAT.DROPPED, F.QU_CAP_STAT.OVERWRITTEN]
  | .EN_STATE => [F.EN_STATE.STATE, F.EN_STATE.JOBS, F.EN_STATE.SLOTS_VALID, F.EN_STATE.TENANT]
  | .EN_JOB => [F.EN_JOB.QUEUE, F.EN_JOB.LAYER]
  | .EN_STATUS => [F.EN_STATUS.TILE_LATE, F.EN_STATUS.KERNEL_FAULT, F.EN_STATUS.HW_FAULT, F.EN_STATUS.POISON, F.EN_STATUS.URGENT]
  | .EN_FAULT_LOG => [F.EN_FAULT_LOG.CODE, F.EN_FAULT_LOG.QUEUE, F.EN_FAULT_LOG.LAYER, F.EN_FAULT_LOG.SLOT]
  | .EN_COUNT => [F.EN_COUNT.JOBS_DONE, F.EN_COUNT.HOLD_US]
  | .EN_CTL => [F.EN_CTL.FAULT_LIMIT]
  | .EN_AVAIL => [F.EN_AVAIL.IN_SERVICE]
  | .EN_DEV_STATUS => [F.EN_DEV_STATUS.ENGINE_OFF, F.EN_DEV_STATUS.CLUSTER_FENCED]
  | .PT_CFG => [F.PT_CFG.PERSONALITY, F.PT_CFG.WIDTH, F.PT_CFG.MAX_RATE, F.PT_CFG.LD_COUNT, F.PT_CFG.MGMT_EN, F.PT_CFG.MGMT_LD, F.PT_CFG.MODULE]
  | .PT_LINK => [F.PT_LINK.STATE, F.PT_LINK.RATE, F.PT_LINK.LANES, F.PT_LINK.REVERSED, F.PT_LINK.POLARITY]
  | .PT_STATUS => [F.PT_STATUS.LINK_UP, F.PT_STATUS.SURPRISE_DOWN, F.PT_STATUS.DEGRADED, F.PT_STATUS.TRAIN_FAIL, F.PT_STATUS.PEER_MISMATCH, F.PT_STATUS.HOP_EXPIRED, F.PT_STATUS.MODULE_REFUSED, F.PT_STATUS.MODULE_IDLE, F.PT_STATUS.HOT_RESET, F.PT_STATUS.CMD_OVERRUN]
  | .PT_ERR_STAT => [F.PT_ERR_STAT.FEC_CORRECTED, F.PT_ERR_STAT.REPLAYS]
  | .PT_PEER => [F.PT_PEER.PEER_DEVICE, F.PT_PEER.PEER_PORT, F.PT_PEER.MODULE_VID, F.PT_PEER.MODULE_DID]
  | .PT_CMD => [F.PT_CMD.OP, F.PT_CMD.GO, F.PT_CMD.BUSY, F.PT_CMD.CODE]
  | .PT_TRAFFIC => [F.PT_TRAFFIC.TX_MIB, F.PT_TRAFFIC.RX_MIB]
  | .PT_LD => [F.PT_LD.TENANT, F.PT_LD.ATTACHED, F.PT_LD.DECODERS, F.PT_LD.MSIX_EN]
  | .PT_QUAD => [F.PT_QUAD.MODE, F.PT_QUAD.STOPPED]
  | .PT_DEV_STATUS => [F.PT_DEV_STATUS.TWIN_LINKS_LOW, F.PT_DEV_STATUS.TIME_OFFSET, F.PT_DEV_STATUS.MGMT_DOWN]
  | .PT_MGMT_LINK => [F.PT_MGMT_LINK.STATE, F.PT_MGMT_LINK.RATE]
  | .IS_BOOT => [F.IS_BOOT.BOOT_SLOT, F.IS_BOOT.FALLBACK_SLOT, F.IS_BOOT.RUN_SLOT, F.IS_BOOT.RAN_FALLBACK]
  | .IS_VERSION => [F.IS_VERSION.VALUE]
  | .IS_SLOT_STAT => [F.IS_SLOT_STAT.STATE, F.IS_SLOT_STAT.REFUSE_CODE, F.IS_SLOT_STAT.REFUSE_STEP, F.IS_SLOT_STAT.VERSION_LO]
  | .IS_CMD => [F.IS_CMD.OP, F.IS_CMD.GO]
  | .IS_CMD_ARG0 => [F.IS_CMD_ARG0.VALUE]
  | .IS_CMD_ARG1 => [F.IS_CMD_ARG1.VALUE]
  | .IS_CMD_STATUS => [F.IS_CMD_STATUS.CODE, F.IS_CMD_STATUS.BUSY]
  | .IS_STATUS => [F.IS_STATUS.IMAGE_REFUSED, F.IS_STATUS.CHANGE_DONE, F.IS_STATUS.CHANGE_ABORTED, F.IS_STATUS.ROLLED_BACK, F.IS_STATUS.RAN_FALLBACK, F.IS_STATUS.CLOCK_LOST, F.IS_STATUS.BOOT_REFUSED, F.IS_STATUS.CMD_OVERRUN]
  | .IS_CHANGE_STAT => [F.IS_CHANGE_STAT.STEP, F.IS_CHANGE_STAT.FUNCTION, F.IS_CHANGE_STAT.INSTANCE, F.IS_CHANGE_STAT.NEW_SLOT, F.IS_CHANGE_STAT.LAST_MS]
  | .IS_FUNC_STOPPED => [F.IS_FUNC_STOPPED.QUAD, F.IS_FUNC_STOPPED.DRAM_GROUP, F.IS_FUNC_STOPPED.FLASH_GROUP, F.IS_FUNC_STOPPED.CLUSTER, F.IS_FUNC_STOPPED.CROWN_GROUP, F.IS_FUNC_STOPPED.ROUTE]
  | .IS_BOLT_STOPPED => [F.IS_BOLT_STOPPED.GROUP]
  | .IS_ISLAND_SEL => [F.IS_ISLAND_SEL.ISLAND]
  | .IS_ISLAND_STAT => [F.IS_ISLAND_STAT.MHZ, F.IS_ISLAND_STAT.STOPPED, F.IS_ISLAND_STAT.LOCKED]
  | .IS_SVN => [F.IS_SVN.FLOOR, F.IS_SVN.RUN_SVN, F.IS_SVN.CUSTOMER_KEY]
  | .XT_CTL => [F.XT_CTL.FAULT_LIMIT]
  | .XT_CMD => [F.XT_CMD.OP, F.XT_CMD.GO]
  | .XT_CMD_ARG0 => [F.XT_CMD_ARG0.VALUE]
  | .XT_CMD_STATUS => [F.XT_CMD_STATUS.CODE, F.XT_CMD_STATUS.BUSY, F.XT_CMD_STATUS.RESULT]
  | .XT_STATUS => [F.XT_STATUS.KEY_LOADED, F.XT_STATUS.KEY_DELETED, F.XT_STATUS.KEY_MISSING, F.XT_STATUS.KEY_PATH_DENY, F.XT_STATUS.CORE_FAULT, F.XT_STATUS.LANE_OFF, F.XT_STATUS.MEDIA_LOST, F.XT_STATUS.UNWRAP_FAIL, F.XT_STATUS.CMD_OVERRUN]
  | .XT_SLOT_SEL => [F.XT_SLOT_SEL.SLOT]
  | .XT_SLOT_STAT => [F.XT_SLOT_STAT.STATE, F.XT_SLOT_STAT.TENANT]
  | .XT_FAULT_LOG => [F.XT_FAULT_LOG.FRAME, F.XT_FAULT_LOG.ISLAND, F.XT_FAULT_LOG.LANE, F.XT_FAULT_LOG.CORE, F.XT_FAULT_LOG.WRITE]
  | .XT_AVAIL => [F.XT_AVAIL.LANES]
  | .XT_COUNT => [F.XT_COUNT.FAULTS, F.XT_COUNT.KEY_EMPTY_READS]
  | .XT_SLOTS_USED => [F.XT_SLOTS_USED.LOADED, F.XT_SLOTS_USED.DELETED]
  | .XT_KEY_DATA => [F.XT_KEY_DATA.KEY]
  | .PW_STATE => [F.PW_STATE.STATE, F.PW_STATE.BEGUN, F.PW_STATE.PSYNC, F.PW_STATE.PWR_REQ, F.PW_STATE.PF_WARN, F.PW_STATE.PF_FAIL, F.PW_STATE.SUPPLY_GOOD, F.PW_STATE.CAUSE]
  | .PW_STATUS => [F.PW_STATUS.RAIL_WARN, F.PW_STATUS.RAIL_FAULT, F.PW_STATUS.STEP_FAIL, F.PW_STATUS.SAVE_ABORTED, F.PW_STATUS.SAVE_DONE, F.PW_STATUS.EMERGENCY, F.PW_STATUS.STORE_NOT_READY, F.PW_STATUS.POWER_THROTTLE, F.PW_STATUS.PSYNC_FAULT]
  | .PW_DOWN_LOG => [F.PW_DOWN_LOG.LAST_STATE, F.PW_DOWN_LOG.CAUSE, F.PW_DOWN_LOG.EPOCH]
  | .PW_SAVE_STAT => [F.PW_SAVE_STAT.FRAMES, F.PW_SAVE_STAT.SAVE_MS, F.PW_SAVE_STAT.COMMITTED]
  | .PW_RAIL_SEL => [F.PW_RAIL_SEL.RAIL]
  | .PW_RAIL_CFG => [F.PW_RAIL_CFG.NOMINAL_MV, F.PW_RAIL_CFG.WARN_PERMILLE, F.PW_RAIL_CFG.FAULT_PERMILLE, F.PW_RAIL_CFG.ON_STATE, F.PW_RAIL_CFG.OFF_STATE, F.PW_RAIL_CFG.ENABLE, F.PW_RAIL_CFG.PMBUS]
  | .PW_RAIL_STAT => [F.PW_RAIL_STAT.MV, F.PW_RAIL_STAT.ENABLED, F.PW_RAIL_STAT.LEVEL]
  | .BB_EV_CTL => [F.BB_EV_CTL.CXL_MIN, F.BB_EV_CTL.IRQ_MIN, F.BB_EV_CTL.ALERT_MIN, F.BB_EV_CTL.COALESCE_US, F.BB_EV_CTL.VECTOR, F.BB_EV_CTL.ALERT_GPIO]
  | .BB_EV_PTR => [F.BB_EV_PTR.HEAD, F.BB_EV_PTR.TAIL, F.BB_EV_PTR.UNREAD]
  | .BB_EV_STAT => [F.BB_EV_STAT.LOST, F.BB_EV_STAT.MERGED]
  | .BB_PENDING => [F.BB_PENDING.BLOCKS, F.BB_PENDING.TOP_CLASS, F.BB_PENDING.ALERT]
  | .BB_STATUS => [F.BB_STATUS.EV_OVERFLOW, F.BB_STATUS.RATE_DROP, F.BB_STATUS.BB_WRITE_FAIL, F.BB_STATUS.TORN_FOUND, F.BB_STATUS.LIST_FULL, F.BB_STATUS.HEALTH_CRC, F.BB_STATUS.PTR_BAD, F.BB_STATUS.EV_IRQ_LOST]
  | .BB_SEQ => [F.BB_SEQ.NEXT]
  | .BB_AON_ADDR => [F.BB_AON_ADDR.ADDR, F.BB_AON_ADDR.REGION]
  | .BB_AON_DATA => [F.BB_AON_DATA.DATA]
  | .BB_HEALTH_SEL => [F.BB_HEALTH_SEL.INDEX]
  | .BB_HEALTH_DATA => [F.BB_HEALTH_DATA.VALUE]
  | .TM_DT => [F.TM_DT.DT]
  | .TM_SYNC => [F.TM_SYNC.ROOT_ID, F.TM_SYNC.IS_ROOT, F.TM_SYNC.SET, F.TM_SYNC.OFFSET_NS, F.TM_SYNC.SLEW]
  | .TM_HOST_OFFSET => [F.TM_HOST_OFFSET.OFFSET]
  | .TM_STATUS => [F.TM_STATUS.ROOT_CHANGE, F.TM_STATUS.CAPTURED, F.TM_STATUS.CAPTURE_MISSED]
  | .TM_CAPTURE_CTL => [F.TM_CAPTURE_CTL.GPIO, F.TM_CAPTURE_CTL.EDGE]
  | .TM_CAPTURE => [F.TM_CAPTURE.DT]

/-- All registers, block by block (15 Table 15.1). -/
def regsOfBlock (b : Nat) : List Reg :=
  match b with
  | 0 => [.GB_ID, .GB_SERIAL, .GB_SCRATCH, .GB_TEMP, .GB_ACCESS_STATUS, .GB_ACCESS_LOG]
  | 1 => [.PW_DIRTY_BUDGET, .PW_ENERGY_DECL, .PW_DIRTY_STAT, .PW_DESTAGE_CTL, .PW_PERSIST_STATUS, .PW_POISON_LOG, .PW_POISON_COUNT, .PW_STATE, .PW_STATUS, .PW_DOWN_LOG, .PW_SAVE_STAT, .PW_RAIL_SEL, .PW_RAIL_CFG, .PW_RAIL_STAT]
  | 2 => [.IS_BOOT, .IS_VERSION, .IS_SLOT_STAT, .IS_CMD, .IS_CMD_ARG0, .IS_CMD_ARG1, .IS_CMD_STATUS, .IS_STATUS, .IS_CHANGE_STAT, .IS_FUNC_STOPPED, .IS_BOLT_STOPPED, .IS_ISLAND_SEL, .IS_ISLAND_STAT, .IS_SVN]
  | 3 => [.BB_EV_CTL, .BB_EV_PTR, .BB_EV_STAT, .BB_PENDING, .BB_STATUS, .BB_SEQ, .BB_AON_ADDR, .BB_AON_DATA, .BB_HEALTH_SEL, .BB_HEALTH_DATA]
  | 4 => [.TW_HB_CTL, .TW_TIMING, .TW_STATE, .TW_CLAIM_LOCAL, .TW_CLAIM_PEER, .TW_HB_SEQ, .TW_PEER_DT, .TW_LEASE_END, .TW_STATUS, .TW_MISS_STAT, .TW_ROTATE_CTL, .TW_ROTATE_STAT, .TW_CMD, .TW_CMD_STATUS, .TW_REJOIN_STAT, .TW_SPLIT_DT]
  | 5 => [.BL_DEVICE_ID, .BL_RANGE_LIMIT, .BL_CMD, .BL_CMD_ARG0, .BL_CMD_ARG1, .BL_CMD_ARG2, .BL_CMD_ARG3, .BL_CMD_STATUS, .BL_STATUS, .BL_FWD_TIMEOUT, .BL_CACHE_STAT, .BL_ROUTE]
  | 6 => [.QU_TABLE_BASE, .QU_CMD, .QU_CMD_ARG0, .QU_CMD_ARG1, .QU_CMD_ARG2, .QU_CMD_ARG3, .QU_CMD_ARG4, .QU_CMD_STATUS, .QU_STATUS, .QU_ERR_LOG, .QU_CTX_STAT, .QU_COUNT, .QU_CAP_STAT]
  | 7 => [.CR_WAY_PWR, .CR_WAY_STAT, .CR_STATUS, .CR_LFSR_SEED, .CR_SLICE_SEL, .CR_SLICE_STAT, .CR_HIT_STAT, .CR_ERR_STAT]
  | 8 => [.DC_CFG, .DC_STATUS, .DC_ERR_STAT, .DC_ERR_LOG, .DC_MARK, .DC_TRN_CTL, .DC_TRN_PAT, .DC_TRN_CMP, .DC_RETRAIN, .DC_REFRESH_CTL, .DC_PPR_CMD, .DC_MAP, .DC_TROWEL_CTL, .DC_TROWEL_STAT, .DC_COAT_STAT]
  | 9 => [.FL_CFG, .FL_STATUS, .FL_ERR_STAT, .FL_BLOCKS, .FL_MAP_CTL, .FL_MAP_STAT, .FL_FULL_CTL, .FL_FULL_STAT, .FL_RETRY_CTL, .FL_DEV_STATUS, .FL_HEALTH, .FL_CLASS_SEL, .FL_CLASS_COUNT, .FL_TEMP_SEL, .FL_TEMP_STAT]
  | 10 => [.ST_TIER_CTL, .ST_TIER_STAT, .ST_TIER_STATUS, .ST_MIG_COUNT, .ST_QUOTA_SEL, .ST_QUOTA_D, .ST_QUOTA_P, .ST_QUOTA_F, .ST_USE_D, .ST_USE_P, .ST_USE_F, .ST_FLOAT_CTL, .ST_FLOAT_STAT, .ST_P_CFG, .ST_F_CFG, .ST_MEMBER_SEL, .ST_MEMBER_STAT, .ST_REBUILD_CTL, .ST_REBUILD_STAT, .ST_RESYNC_STAT, .ST_SKIM_STAT, .ST_STATUS, .ST_LOSS_LOG, .ST_RESHAPE_CMD, .ST_RESHAPE_STAT, .ST_PARITY_STAT]
  | 11 => [.EN_STATE, .EN_JOB, .EN_STATUS, .EN_FAULT_LOG, .EN_COUNT, .EN_CTL, .EN_AVAIL, .EN_DEV_STATUS]
  | 12 => [.PT_CFG, .PT_LINK, .PT_STATUS, .PT_ERR_STAT, .PT_PEER, .PT_CMD, .PT_TRAFFIC, .PT_LD, .PT_QUAD, .PT_DEV_STATUS, .PT_MGMT_LINK]
  | 13 => [.XT_CTL, .XT_CMD, .XT_CMD_ARG0, .XT_CMD_STATUS, .XT_STATUS, .XT_SLOT_SEL, .XT_SLOT_STAT, .XT_FAULT_LOG, .XT_AVAIL, .XT_COUNT, .XT_SLOTS_USED, .XT_KEY_DATA]
  | 14 => [.TM_DT, .TM_SYNC, .TM_HOST_OFFSET, .TM_STATUS, .TM_CAPTURE_CTL, .TM_CAPTURE]
  | _ => []

/-- Offset of instance `i` of a register in the register space. -/
def Reg.addr (r : Reg) (i : Nat) : Nat :=
  match r with
  | .PT_LD => r.info.base + i / 16 * 0x1000 + i % 16 * 8
  | _ => r.info.base + i * r.info.stride

/-- The instance of a register that lies at `off`, if one does. -/
def Reg.instAt (r : Reg) (off : Nat) : Option Nat :=
  match r with
  | .PT_LD =>
    if r.info.base ≤ off then
      let d := off - r.info.base
      if d / 0x1000 < 96 ∧ d % 0x1000 < 128 ∧ d % 8 = 0 then some (d / 0x1000 * 16 + d % 0x1000 / 8) else none
    else none
  | _ =>
    if r.info.stride = 0 then (if off = r.info.base then some 0 else none)
    else if r.info.base ≤ off then
      let d := off - r.info.base
      if d % r.info.stride = 0 ∧ d / r.info.stride < r.info.count then some (d / r.info.stride) else none
    else none

/-- The register and instance at an 8-byte offset of the register space (15 R399). -/
def regAt (off : Nat) : Option (Reg × Nat) :=
  (regsOfBlock (off / 0x100000)).findSome? (fun r => (r.instAt off).map (fun i => (r, i)))

/-- Register block of 14 Table 14.2: block base ÷ 0x10_0000. -/
def Reg.block (r : Reg) : Nat := r.info.base / 0x100000

/-- Offset of an instance of a register within its block (14 Table 14.2; 15 Table 15.2). -/
def Reg.inBlock (r : Reg) (i : Nat) : Nat := r.addr i % 0x100000

end Sys2Proof.Machine
end

