-- ==== Sys2Proof/Machine/Ops.lean ====
section
/-! DEFINITION. The named operations over the registers, the bytes of the range, device time, the
output and the free values; and the small computations that several blocks share. -/

namespace Sys2Proof.Machine

open Sys2Proof

/-! Registers. -/

/-- The stored value of instance `i` of a register (00 R7). -/
def State.reg (s : State) (r : Reg) (i : Nat) : Word :=
  SMap.findD s.regs (r.addr i) 0#64 ^^^ r.reset

/-- Instance `i` of a register at value `v`. A register at its reset value is not listed. -/
def State.setReg (s : State) (r : Reg) (i : Nat) (v : Word) : State :=
  let d := v ^^^ r.reset
  { s with regs := if d = 0#64 then SMap.del s.regs (r.addr i) else SMap.put s.regs (r.addr i) d }

/-- A field of instance `i` of its register. -/
def State.getF (s : State) (f : FieldRef) (i : Nat) : Nat := bitsOf (s.reg f.reg i) f.lo f.w

/-- A field at value `x`, the other fields of its register unchanged. -/
def State.setF (s : State) (f : FieldRef) (i x : Nat) : State :=
  s.setReg f.reg i (withBits (s.reg f.reg i) f.lo f.w x)

/-- A field of a device-wide register. -/
def State.get (s : State) (f : FieldRef) : Nat := s.getF f 0

/-- A field of a device-wide register set. -/
def State.put (s : State) (f : FieldRef) (x : Nat) : State := s.setF f 0 x

/-- A one-bit field read as a truth value. -/
def State.isSet (s : State) (f : FieldRef) (i : Nat) : Bool := s.getF f i == 1

/-- A counter raised by `n`, saturating at its width. -/
def State.bump (s : State) (f : FieldRef) (i n : Nat) : State :=
  s.setF f i (satAdd f.w (s.getF f i) n)

/-! Device time, output, free values. -/

/-- Device time advanced to the stamp of an input; DT never runs backwards (11 R326; 00 R12). -/
def State.tick (s : State) (at_ : Nat) : State :=
  { s with time := { s.time with dt := max s.time.dt at_ } }

/-- Device time. -/
def State.now (s : State) : Nat := s.time.dt

/-- Something leaves the device. -/
def State.emit (s : State) (o : Out) : State := { s with out := s.out ++ [o] }

/-- The number of the next free value, and the state after it is taken (log entry 2). -/
def State.nextFree (s : State) : Nat × State := (s.freeIx, { s with freeIx := s.freeIx + 1 })

/-- A value of the entropy source (log entry 2). -/
def State.draw (s : State) : BitVec 64 × State :=
  (Config.entropy s.freeIx, { s with freeIx := s.freeIx + 1 })

/-! The bytes of the range. An unlisted byte reads as zero: a frame never written reads as zeros
(04 R130; 07 Table 7.5). -/

/-- The byte at range offset `a`. -/
def readByte (m : List Host.Cell) (a : Nat) : Byte := SMap.findD m a 0#8

/-- Byte `a` of the range written. -/
def writeByte (m : List Host.Cell) (a : Nat) (b : Byte) : List Host.Cell :=
  if b = 0#8 then SMap.del m a else SMap.put m a b

/-- The form of memory: offsets strictly rising, no listed byte zero. -/
def memWf (m : List Host.Cell) : Bool := SMap.wf m && m.all (fun c => c.2 != 0#8)

/-- Bytes `a` to `a + n - 1`. -/
def readBytes (m : List Host.Cell) (a n : Nat) : List Byte :=
  (List.range n).map (fun k => readByte m (a + k))

/-- Bytes written from `a` on. -/
def writeBytes (m : List Host.Cell) (a : Nat) (bs : List Byte) : List Host.Cell :=
  match bs with
  | [] => m
  | b :: t => writeBytes (writeByte m a b) (a + 1) t

/-- The 64 bytes of line `l` (01 R16). -/
def readLine (m : List Host.Cell) (l : Nat) : LineData := lineOfBytes (readBytes m (64 * l) 64)

/-- The first `n` bytes of line `l` written from `d` where `be` enables them. -/
def writeLineUpTo (m : List Host.Cell) (l : Nat) (be : Word) (d : LineData) (n : Nat) : List Host.Cell :=
  match n with
  | 0 => m
  | k + 1 =>
    let m' := writeLineUpTo m l be d k
    if beBit be k then writeByte m' (64 * l + k) (lineByte d k) else m'

/-- Line `l` written under its byte enables, as one change (02 R55). -/
def writeLine (m : List Host.Cell) (l : Nat) (be : Word) (d : LineData) : List Host.Cell :=
  writeLineUpTo m l be d 64

/-- Line `l` of the device's copy. -/
def State.line (s : State) (l : Nat) : LineData := readLine s.mem l

/-- Line `l` of the device's copy written. -/
def State.putLine (s : State) (l : Nat) (be : Word) (d : LineData) : State :=
  { s with mem := writeLine s.mem l be d }

/-- Bytes `a` to `a + n - 1` of the range dropped, so that they read as zeros. -/
def State.zeroRange (s : State) (a n : Nat) : State :=
  { s with mem := s.mem.filter (fun c => c.1 < a || a + n ≤ c.1) }

/-! Places of the range (01 Table 1.1). -/

def lineOfOff (o : Nat) : Nat := o / 64
def frameOfOff (o : Nat) : Nat := o / 4096
def spanOfOff (o : Nat) : Nat := o / 1048576
def boltOfOff (o : Nat) : Nat := o / 2 ^ 36
def frameOfLine (l : Nat) : Nat := l / 64
def spanOfLine (l : Nat) : Nat := l / 16384
def boltOfLine (l : Nat) : Nat := l / 2 ^ 30
def spanOfFrame (f : Nat) : Nat := f / 256
def boltOfFrame (f : Nat) : Nat := f / 2 ^ 24
def boltOfSpan (sp : Nat) : Nat := sp / 65536
def lineInFrame (l : Nat) : Nat := l % 64

/-! Identity (01 R33 to R35). -/

/-- This device's DEVICE_ID. -/
def State.devId (s : State) : Nat := s.get F.BL_DEVICE_ID.DEVICE_ID
/-- This device's pair. -/
def State.pairId (s : State) : Nat := s.devId / 2
/-- This device's side: 0 for the even device. -/
def State.side (s : State) : Nat := s.devId % 2
/-- DEVICE_ID of the twin. -/
def State.twinId (s : State) : Nat := if s.devId % 2 = 0 then s.devId + 1 else s.devId - 1
/-- Devices of the bay. -/
def State.bayDevices (s : State) : Nat := s.get F.BL_DEVICE_ID.BAY_DEVICES
/-- Small-bay rules of 03 R110. -/
def State.smallBay (s : State) : Bool := decide (s.bayDevices ≤ 4)
/-- The power state. -/
def State.pstate (s : State) : Nat := s.power.state
/-- Service is open: state 14 begun (13 Table 13.3). -/
def State.inService (s : State) : Bool := s.power.state == 14 && s.power.begun

/-- Bolt entry never bound (01 R17). -/
def emptyEntry : BoltEntry :=
  { valid := false, durability := 0, activeSide := 0, access := 0, pairId := 0, tenant := 0,
    claim := 0, dCap := 0, pCap := 0, fCap := 0, seq := 0, crc := 0 }

/-- Word 0 of an entry (01 Table 1.2). -/
def entryWord0 (e : BoltEntry) : Word :=
  word (bit e.valid + e.durability % 4 * 2 + e.activeSide % 2 * 8 + e.access % 4 * 16
    + e.pairId % 32 * 256 + e.tenant % 4096 * 65536)
/-- Word 2 of an entry. -/
def entryWord2 (e : BoltEntry) : Word :=
  word (e.dCap % 65536 + e.pCap % 65536 * 65536 + e.fCap % 65536 * 2 ^ 32)
/-- CRC-32C over bytes 0 to 27 of an entry. -/
def entryCrc (e : BoltEntry) : BitVec 32 :=
  crc32c (leBytes 8 (entryWord0 e).toNat ++ leBytes 8 e.claim ++ leBytes 8 (entryWord2 e).toNat ++ leBytes 4 e.seq)
/-- The entry with its CRC recomputed. -/
def sealEntry (e : BoltEntry) : BoltEntry := { e with crc := entryCrc e }
/-- Word 3 of an entry. -/
def entryWord3 (e : BoltEntry) : Word := word (e.seq % 2 ^ 32 + e.crc.toNat * 2 ^ 32)

/-- The held entry of a bolt. -/
def State.entry (s : State) (b : Nat) : BoltEntry := SMap.findD s.bay.bolts b emptyEntry

/-- The entry acts as bound: VALID, not the reserved durability, its CRC good (01 R19, R23). -/
def State.bound (s : State) (b : Nat) : Bool :=
  (s.entry b).valid && (s.entry b).durability != 3 && !(s.bay.crcBad.contains b)

/-- The active device of a bolt's entry (03 R92). -/
def entryActive (e : BoltEntry) : Nat := 2 * e.pairId + e.activeSide

/-- This device is the active device of a bolt, and does not know its claim to be stale (03 R109). -/
def State.isActive (s : State) (b : Nat) : Bool :=
  s.bound b && entryActive (s.entry b) == s.devId && !s.bay.staleBolts.contains b

/-- This device is a twin of the bolt's pair. -/
def State.isPair (s : State) (b : Nat) : Bool := s.bound b && (s.entry b).pairId == s.pairId

/-- The device with nothing to do: device time counts on (15 R406; DESIGN CHOICE, log entry 8). -/
def idle (s : State) : State := s.tick (s.time.dt + 1)

/-! Budget (02 R60 to R68). -/

/-- The dirty level in bytes (02 R60). -/
def State.dirtyLevel (s : State) : Nat := 64 * s.lines.dirty.length

/-- The energy limit in GiB (02 R61; taken as 0 while the store cannot carry a save, 13 Table 13.6). -/
def State.limitGib (s : State) : Nat :=
  if s.lines.storeZero then 0
  else (s.get F.PW_ENERGY_DECL.USABLE_J - s.get F.PW_ENERGY_DECL.FIXED_J) * s.lines.saveRate / 300 / 2 ^ 30

/-- The save-area limit in GiB (02 R63). -/
def State.saveLimitGib (s : State) : Nat := (s.get F.PW_ENERGY_DECL.SAVE_AREA_GIB - 1) * 7 / 8

/-- The effective budget in GiB (02 R63; zero during an episode of R59). -/
def State.effGib (s : State) : Nat :=
  if s.lines.spanLost then 0
  else min (s.get F.PW_DIRTY_BUDGET.BUDGET_GIB) (min s.limitGib s.saveLimitGib)

/-- The effective budget in bytes. -/
def State.budgetBytes (s : State) : Nat := s.effGib * 2 ^ 30

/-! Views that an event record copies (14 Table 14.6). -/

/-- Code of a pair state (03 Table 3.11). -/
def PairState.code (p : PairState) : Nat :=
  match p with
  | .sync => 0 | .paired => 1 | .suspect => 2 | .wait => 3 | .taking => 4 | .solo => 5
  | .feeding => 6 | .rejoining => 7 | .isolated => 8 | .silent => 9 | .yielded => 10

/-- PW_STATE (13 Table 13.12). -/
def State.pwState (s : State) : Word :=
  word (s.power.state % 32 + bit s.power.begun * 32
    + bit s.power.psyncHigh * 64 + bit s.power.pwrReq * 128
    + bit s.power.pfWarn * 256 + bit s.power.pfFail * 512 + bit s.power.supply * 1024
    + s.power.cause % 8 * 2048)

/-- TW_STATE (03 Table 3.11). -/
def State.twState (s : State) : Word :=
  word (s.twin.st.code + min 8 s.twin.pathA.miss * 16 + min 8 s.twin.pathB.miss * 256
    + bit s.twin.carrier * 4096 + bit (decide (s.now < s.twin.leaseEnd)) * 8192
    + bit s.smallBay * 16384
    + (match s.twin.peer with | some f => bit (f.flags.getLsbD 0) | none => 0) * 32768
    + (if s.image.running.isSome then s.twinId else 0) * 65536)

/-- PW_DIRTY_STAT (02 Table 2.15). -/
def State.dirtyStat (s : State) : Word :=
  word (min 0xFFF s.effGib + min 0xFFF s.limitGib * 2 ^ 12
    + ceilDiv s.dirtyLevel 1048576 % 2 ^ 24 * 2 ^ 24 + bit s.lines.throttled * 2 ^ 48
    + bit s.lines.writeThrough * 2 ^ 49 + bit s.lines.destaging * 2 ^ 50)

end Sys2Proof.Machine
end

