-- ==== Sys2Proof/Machine/Flags.lean ====
section
/-! DEFINITION. Setting a status flag and what follows from it (14 R382 to R397): the event record, its
merge, the event log ring, the CXL event logs, the interrupts, the black box and the health counters. -/

namespace Sys2Proof.Machine

open Sys2Proof

/-- What an event record names in ARG (14 Table 14.2). -/
inductive EvArg where
  | none
  | off (o : Nat)
  | log (r : Reg) (i : Nat)
  deriving DecidableEq, Repr

/-- Event records enter the event log in states 10 to 20, where KEEP SRAM serves it (14 R387;
15 Table 15.4). -/
def State.logServed (s : State) : Bool := decide (10 ≤ s.power.state) && decide (s.power.state ≤ 20)

/-- INSTANCE of 14 Table 14.2: the index of a strided register, 0xFFFF for a device-wide one. -/
def evInstance (r : Reg) (i : Nat) : Nat :=
  if r.info.count ≤ 1 then 0xFFFF else (match r with | .PT_LD => i / 16 | _ => i)

/-- The record of a flag just set (14 R384). -/
def State.evRec (s : State) (f : FieldRef) (i cls : Nat) (a : EvArg) : EvRec :=
  { dt := s.now, seq := 0, cls := cls, blk := f.reg.block, inst := evInstance f.reg i,
    reg := f.reg.inBlock i, bit := f.lo, device := s.devId,
    argKind := (match a with | .none => 0 | .off _ => 1 | .log _ _ => 2),
    count := 1,
    arg := (match a with | .none => 0#64 | .off o => word (o % 2 ^ 56) | .log r k => s.reg r k) }

/-- The 32 bytes of a record (14 Table 14.2). -/
def evBytes (e : EvRec) : List Byte :=
  leBytes 8 e.dt ++ leBytes 4 e.seq ++ leBytes 1 e.cls ++ leBytes 1 e.blk ++ leBytes 2 e.inst
    ++ leBytes 3 e.reg ++ leBytes 1 e.bit ++ leBytes 1 e.device ++ leBytes 1 e.argKind
    ++ leBytes 2 e.count ++ leBytes 8 e.arg.toNat

/-- Two records of one flag in one 1 ms window of DT (14 R385). -/
def evSame (a b : EvRec) : Bool :=
  a.blk == b.blk && a.inst == b.inst && a.reg == b.reg && a.bit == b.bit
    && a.dt / 1000000 == b.dt / 1000000

/-- The entry among the `n` newest of the log that the record merges into (14 R385). -/
def evMergeAt (ev : EventSt) (e : EvRec) (n : Nat) : Option Nat :=
  (List.range n).findSome? (fun k =>
    let ix := (ev.tail + Config.evLogSize - 1 - k) % Config.evLogSize
    match SMap.find ev.log ix with
    | some o => if evSame o e then some ix else none
    | none => none)

/-- The position from HEAD of the oldest unread record of a lower class (14 R386 step 1). -/
def evVictim (ev : EventSt) (cls : Nat) : Option Nat :=
  (List.range Config.evLogSize).find? (fun k =>
    match SMap.find ev.log ((ev.head + k) % Config.evLogSize) with
    | some o => decide (o.cls < cls)
    | none => false)

/-- The `k` oldest unread records moved one entry towards TAIL (14 R386 step 2). -/
def evShift (ev : EventSt) (k : Nat) : SMap EvRec :=
  match k with
  | 0 => ev.log
  | j + 1 =>
    -- the record j places from HEAD moves into place j + 1, the ones nearer HEAD after it
    match SMap.find ev.log ((ev.head + j) % Config.evLogSize) with
    | some o => evShift { ev with log := SMap.put ev.log ((ev.head + j + 1) % Config.evLogSize) o } j
    | none => evShift ev j

/-- The event log with a record added (14 R386), and whether a record was removed or dropped. -/
def evAppend (ev : EventSt) (e : EvRec) : EventSt × Bool :=
  let e := { e with seq := ev.nextSeq % 2 ^ 32 }
  let ev := { ev with nextSeq := ev.nextSeq + 1 }
  if ev.unread < Config.evLogSize then
    ({ ev with log := SMap.put ev.log ev.tail e, tail := (ev.tail + 1) % Config.evLogSize,
               unread := ev.unread + 1 }, false)
  else
    match evVictim ev e.cls with
    | none => (ev, true)
    | some k =>
      let log := evShift ev k
      ({ ev with log := SMap.put log ev.tail e, head := (ev.head + 1) % Config.evLogSize,
                 tail := (ev.tail + 1) % Config.evLogSize }, true)

/-- Ports with a personality (11 Table 11.2). -/
def State.portsOf (s : State) (pers : Nat) : List Nat :=
  (List.range 96).filter (fun p =>
    s.getF F.PT_CFG.WIDTH p != 0 && s.getF F.PT_CFG.PERSONALITY p == pers)

/-- A port carries traffic (11 Table 11.11). -/
def State.portUp (s : State) (p : Nat) : Bool := s.getF F.PT_LINK.STATE p == 2

/-- A record copied to the CXL event log of an LD: 64 records, then the overflow flag (14 R388). -/
def State.cxlRecord (s : State) (key : Nat) (e : EvRec) : State :=
  let k := key * 4 + e.cls % 4
  let l := SMap.findD s.ports.cxlLogs k []
  if l.length < Config.cxlLogSize then
    { s with ports := { s.ports with cxlLogs := SMap.put s.ports.cxlLogs k (l ++ [(BitVec.ofNat 256 (leNat (evBytes e)))]) } }
  else { s with ports := { s.ports with cxlOverflow := insertSorted k s.ports.cxlOverflow } }

/-- The LDs that receive the CXL copy of a record (14 Table 14.3): the management LD of every HOST
port, and for a range offset every LD attached to the tenant of the bolt. -/
def State.cxlTargets (s : State) (e : EvRec) : List Nat :=
  let mg := ((s.portsOf 1).filter (fun p => s.isSet F.PT_CFG.MGMT_EN p)).map
    (fun p => p * 16 + s.getF F.PT_CFG.MGMT_LD p)
  let ten := if e.argKind = 1 then
      (s.bay.ldTenant.filter (fun x => x.2 == (s.entry (boltOfOff e.arg.toNat)).tenant)).map Prod.fst
    else []
  nub (mg ++ ten)

/-- An MSI-X message of an LD: sent, or left pending while its vector is masked (09 R275). -/
def State.msix (s : State) (port ld vector : Nat) : State :=
  let k := (port * 16 + ld) * 2048 + vector
  if s.ports.msixMasked.contains k then
    { s with ports := { s.ports with msixPending := insertSorted k s.ports.msixPending } }
  else s.emit (.msix port ld vector)

/-- MSI-X interval of 14 R389 in ns; 0 acts as 1 µs. -/
def State.coalesceNs (s : State) : Nat := max 1 (s.get F.BB_EV_CTL.COALESCE_US) * 1000

/-- The event message of one target sent now: a HOST port, or MGMT as 96 (14 R389). -/
def State.evSend (s : State) (t : Nat) : State :=
  if t = 96 then s.emit .mgmtMsix
  else if s.portUp t then s.msix t (s.getF F.PT_CFG.MGMT_LD t) (s.get F.BB_EV_CTL.VECTOR)
  else s.put F.BB_STATUS.EV_IRQ_LOST 1

/-- An event at or above the threshold reaches a target: sent at once, or covered by the message at the
end of the running interval (14 R389). -/
def State.evIrq (s : State) (t : Nat) : State :=
  match SMap.find s.events.coalesce t with
  | some (st, _) =>
    if s.now < st + s.coalesceNs then
      { s with events := { s.events with coalesce := SMap.put s.events.coalesce t (st, true) } }
    else
      let s := { s with events := { s.events with coalesce := SMap.put s.events.coalesce t (s.now, false) } }
      s.evSend t
  | none =>
    let s := { s with events := { s.events with coalesce := SMap.put s.events.coalesce t (s.now, false) } }
    s.evSend t

/-- The interrupt targets of an event (14 Table 14.3). -/
def State.irqTargets (s : State) : List Nat :=
  (s.portsOf 1).filter (fun p => s.isSet F.PT_CFG.MGMT_EN p
    && s.isSet F.PT_LD.MSIX_EN (p * 16 + s.getF F.PT_CFG.MGMT_LD p)) ++ [96]

/-- A black-box record queued for its slot (14 R392, R393). -/
def State.bbRecord (s : State) (cls : Nat) (body : BBody) : State :=
  let r : BBRec := { seq := s.events.bbNext, dt := s.now, cls := cls, device := s.devId,
                     state := s.power.state, boot := s.events.health.getD 1 0, body := body, torn := false }
  { s with events := { s.events with bbNext := s.events.bbNext + 1, bbWrites := s.events.bbWrites ++ [r] } }

/-- The black-box record of an event (14 R394), and whether the 1 s limit dropped it. -/
def State.bbEvent (s : State) (f : FieldRef) (i : Nat) (e : EvRec) : State × Bool :=
  let body := BBody.event e (s.reg f.reg i) s.pwState s.twState s.dirtyStat
  if e.cls = 3 then (s.bbRecord 3 body, false)
  else if e.cls = 2 then
    let w := s.now / 1000000000
    let n := if s.events.rateStart = w then s.events.rateCount else 0
    if n < 100 then
      let s := s.bbRecord 2 body
      ({ s with events := { s.events with rateStart := w, rateCount := n + 1 } }, false)
    else ({ s with events := { s.events with rateStart := w, rateCount := n } }, true)
  else (s, false)

/-- Flag of an event record: the field that it names. -/
def evField (e : EvRec) : Option (FieldRef × Nat) :=
  match (regsOfBlock e.blk).findSome? (fun r => (r.instAt (e.blk * 0x100000 + e.reg)).map (fun i => (r, i))) with
  | some (r, i) => (r.fields.find? (fun f => f.lo == e.bit)).map (fun f => (f, i))
  | none => none

/-- What a raise found on its way (14 R386, R394). -/
structure RaiseNote where
  overflow : Bool
  rate : Bool
  deriving DecidableEq, Repr

/-- A new record `e` in the log `p.1`, with `p.2` when a record was lost for it, goes to its targets (14 R386 to R394). -/
def State.spreadEvent (s : State) (e : EvRec) (irq : Bool) (p : EventSt × Bool) : State × RaiseNote :=
  let s := { s with events := p.1 }
  let s := if p.2 then (s.bump F.BB_EV_STAT.LOST 0 1).put F.BB_STATUS.EV_OVERFLOW 1 else s
  let s := if s.get F.BB_EV_CTL.CXL_MIN ≤ e.cls then
      (s.cxlTargets e).foldl (fun s k => s.cxlRecord k e) s else s
  let s := if irq then s.irqTargets.foldl State.evIrq s else s
  match evField e with
  | some (f, i) =>
    let (s, drop) := s.bbEvent f i e
    (if drop then s.put F.BB_STATUS.RATE_DROP 1 else s, ⟨p.2, drop⟩)
  | none => (s, ⟨p.2, false⟩)

/-- A record enters the event log and goes to its targets (14 R385 to R394). A merged set makes no
new record, so only its interrupts go out (DEDUCED, log entry 7). -/
def State.enterEvent (s : State) (e : EvRec) : State × RaiseNote :=
  let merged := if e.cls ≤ 1 then evMergeAt s.events e 16 else none
  let irq := decide (s.get F.BB_EV_CTL.IRQ_MIN ≤ e.cls)
  match merged with
  | some ix =>
    let log := SMap.upd s.events.log ix (fun o => { o with count := satAdd 16 o.count 1 })
    let s := { s with events := { s.events with log := log } }
    let s := s.bump F.BB_EV_STAT.MERGED 0 1
    (if irq then s.irqTargets.foldl State.evIrq s else s, ⟨false, false⟩)
  | none =>
    let e := { e with seq := s.events.nextSeq % 2 ^ 32 }
    s.spreadEvent e irq (evAppend s.events e)

/-- A flag is set and its event raised, without the events that the raise itself causes. -/
def State.raiseOnce (s : State) (f : FieldRef) (i cls : Nat) (a : EvArg) : State × RaiseNote :=
  let s := s.setF f i 1
  let e := s.evRec f i cls a
  if s.logServed then s.enterEvent e
  else if s.events.aonBuf.length < Config.aonBufSize then
    ({ s with events := { s.events with aonBuf := s.events.aonBuf ++ [e] } }, ⟨false, false⟩)
  else (s.bump F.BB_EV_STAT.LOST 0 1, ⟨false, false⟩)

/-- The events of a full ring and of the 1 s limit, one level deep: an overflow met while the record of
EV_OVERFLOW or RATE_DROP is entered counts in LOST and raises nothing more (DEDUCED, log entry 7). -/
def State.raiseNotes (s : State) (n : RaiseNote) : State :=
  let s := if n.overflow then (s.raiseOnce F.BB_STATUS.EV_OVERFLOW 0 1 .none).1 else s
  if n.rate then (s.raiseOnce F.BB_STATUS.RATE_DROP 0 1 .none).1 else s

/-- Hardware sets a flag with an event of class `cls` (14 R383). -/
def State.raiseCls (s : State) (f : FieldRef) (i cls : Nat) (a : EvArg) : State :=
  let (s, n) := s.raiseOnce f i cls a
  s.raiseNotes n

/-- Hardware sets a flag: its event is raised each time, even when the flag is already 1; a flag that
names no class raises none (14 R383). -/
def State.raiseArg (s : State) (f : FieldRef) (i : Nat) (a : EvArg) : State :=
  match f.cls with
  | some c => s.raiseCls f i c a
  | none => s.setF f i 1

/-- A device-wide flag with no argument. -/
def State.raise (s : State) (f : FieldRef) : State := s.raiseArg f 0 .none

/-- A flag of instance `i` with no argument. -/
def State.raiseAt (s : State) (f : FieldRef) (i : Nat) : State := s.raiseArg f i .none

/-- A device-wide flag whose event names a range offset. -/
def State.raiseOff (s : State) (f : FieldRef) (o : Nat) : State := s.raiseArg f 0 (.off o)

/-- The records of the AON buffer enter the event log in state 10, in order (14 R387). -/
def State.pumpAon (s : State) : State :=
  let l := s.events.aonBuf
  let s := { s with events := { s.events with aonBuf := [] } }
  l.foldl (fun s e => let (s, n) := s.enterEvent e; s.raiseNotes n) s

/-- A health counter of 14 Table 14.8 raised by `n`. -/
def State.health (s : State) (ix n : Nat) : State :=
  { s with events := { s.events with health := s.events.health.set ix (s.events.health.getD ix 0 + n) } }

/-- An entry appended to the health list; a full list sets LIST_FULL (14 R397). -/
def State.healthList (s : State) (ty ch loc : Nat) : State :=
  if s.events.list.length < Config.healthListSize then
    { s with events := { s.events with list := s.events.list ++ [(ty, ch, loc)] } }
  else s.raise F.BB_STATUS.LIST_FULL

/-- A health summary slot written (14 R397). -/
def State.writeSummary (s : State) : State :=
  let h : Health := { seq := s.events.summarySeq, dt := s.now, counters := s.events.health,
                      lid := s.flash.lidBins, junction := s.flash.juncBins, classes := s.flash.classCounts }
  { s with events := { s.events with
      summaries := SMap.put s.events.summaries (s.events.summarySeq % Config.healthSlots) h,
      summarySeq := s.events.summarySeq + 1 } }

/-- A SPAN_LOSS black-box record: at most 1,024 for one cause, then one summary record that carries the
last span and the count of spans it covers (14 R394). `last` closes the cause. -/
def State.spanLoss (s : State) (span cause cls : Nat) : State :=
  let n := if s.events.lossCause = cause then s.events.lossCount else 0
  if n < 1024 then
    let s := s.bbRecord cls (.spanLoss span cause 1)
    { s with events := { s.events with lossCause := cause, lossCount := n + 1 } }
  else
    -- the summary record grows with each further span of the cause
    let k := n - 1023
    let r := s.events.bbWrites.reverse
    match r with
    | b :: t =>
      match b.body with
      | .spanLoss _ c _ =>
        if k > 1 ∧ c = cause then
          let b := { b with body := .spanLoss span cause k }
          { s with events := { s.events with bbWrites := (b :: t).reverse, lossCause := cause, lossCount := n + 1 } }
        else
          let s := s.bbRecord cls (.spanLoss span cause k)
          { s with events := { s.events with lossCause := cause, lossCount := n + 1 } }
      | _ =>
        let s := s.bbRecord cls (.spanLoss span cause k)
        { s with events := { s.events with lossCause := cause, lossCount := n + 1 } }
    | [] =>
      let s := s.bbRecord cls (.spanLoss span cause k)
      { s with events := { s.events with lossCause := cause, lossCount := n + 1 } }

/-- A new cause of span losses begins (14 R394). -/
def State.newLossCause (s : State) : State :=
  { s with events := { s.events with lossCause := 0, lossCount := 0 } }

end Sys2Proof.Machine
end

