-- ==== Sys2Proof/Machine/Send.lean ====
section
/-! DEFINITION. Link messages on their way out: headers, routes, classes, credits and the ports of the
mirror streams (11 R321 to R325; 01 R39 to R41). -/

namespace Sys2Proof.Machine

open Sys2Proof

/-- Message class of 11 Table 11.7: 0 = CTL, 1 = RSP, 2 = REQ. -/
def payloadClass (p : Payload) : Nat :=
  match p with
  | .heartbeat _ | .yield _ | .linkHello _ | .timeSync _ _ _ _ | .bayState _ _ => 0
  | .mirrorWr _ _ => 2
  | .mirrorAck => 1
  | .fwdRd _ => 2
  | .fwdWr _ _ => 2
  | .fwdData _ _ => 1
  | .fwdCmp => 1
  | .ctrlReq _ => 2
  | .ctrlCmp _ => 1
  | .repairRd _ => 2
  | .repairData _ _ => 1
  | .boltUpdate _ | .boltFetch | .quotaSet _ _ _ _ | .handover _ | .handoverAck _ | .handoverReq _ => 0
  | .rejoinCopy _ _ _ => 2
  | .rejoinAck => 1
  | .mapXfer _ _ => 2
  | .unknown _ => 0

/-- Payload bytes of a message (11 Table 11.7). -/
def payloadLen (p : Payload) : Nat :=
  match p with
  | .heartbeat _ | .yield _ => 48
  | .linkHello _ | .timeSync _ _ _ _ => 32
  | .bayState _ _ => 16
  | .mirrorWr _ _ | .fwdWr _ _ => 72
  | .mirrorAck | .fwdCmp | .boltFetch | .rejoinAck => 0
  | .fwdRd _ | .repairRd _ => 8
  | .fwdData _ l | .repairData _ l => 8 + 64 * l.length
  | .ctrlReq _ => 64
  | .ctrlCmp _ => 32
  | .boltUpdate _ => 32
  | .quotaSet _ _ _ _ => 24
  | .handover l | .handoverAck l | .handoverReq l => 12 * l.length
  | .rejoinCopy _ _ _ => 4104
  | .mapXfer _ _ => 4096
  | .unknown _ => 0

/-- Credits that a message takes: one header credit and one per 64 B of payload (11 R323). -/
def payloadCost (p : Payload) : Nat := 1 + ceilDiv (payloadLen p) 64

/-- A header from this device to `dst`, all other fields zero. -/
def State.hdr (s : State) (dst : Nat) : Hdr :=
  { port := 0, src := s.devId, dst := dst, hops := 0, status := 0, tag := 0, source := 0#32, offset := 0,
    claim := 0, poison := false, last := false, urgent := false }

/-- The next request tag, and the state after it is taken (11 Table 11.6). -/
def State.newTag (s : State) : Nat × State :=
  (s.bay.nextTag % 2 ^ 32, { s with bay := { s.bay with nextTag := s.bay.nextTag + 1 } })

/-- Bytes counted in a counter of PT_TRAFFIC in whole MiB, from those left over before. -/
def State.countBytes (s : State) (f : FieldRef) (port left n : Nat) : Nat × State :=
  let t := left + n
  (t % 1048576, if 1048576 ≤ t then s.bump f port (t / 1048576) else s)

/-- Bytes sent on a port: messages on links, lines on HOST ports (11 Table 11.11; log entry 27). -/
def State.countTx (s : State) (port n : Nat) : State :=
  let (k, s) := s.countBytes F.PT_TRAFFIC.TX_MIB port (SMap.findD s.ports.txBytes port 0) n
  { s with ports := { s.ports with txBytes := SMap.put s.ports.txBytes port k } }

/-- Bytes received on a port. -/
def State.countRx (s : State) (port n : Nat) : State :=
  let (k, s) := s.countBytes F.PT_TRAFFIC.RX_MIB port (SMap.findD s.ports.rxBytes port 0) n
  { s with ports := { s.ports with rxBytes := SMap.put s.ports.rxBytes port k } }

/-- A copied span of another bolt than that of `h`: mirror traffic goes before it (03 R126). -/
def yields (h : Hdr) (x : Nat × Hdr × Payload) : Bool :=
  match x.2.2 with | .rejoinCopy _ _ _ => boltOfOff x.2.1.offset != boltOfOff h.offset | _ => false

/-- A message that waits on a port does not hold back `p`: it is of another port or class, or a copied span that mirror traffic of
another bolt overtakes (11 R323; 03 R126). -/
def letsPass (port : Nat) (h : Hdr) (p : Payload) (x : Nat × Hdr × Payload) : Bool :=
  x.1 != port || payloadClass x.2.2 != payloadClass p ||
    (match p with | .mirrorWr _ _ => yields h x | _ => false)

/-- The messages that wait, with one more behind the last that it may not pass. -/
def queueMsg (port : Nat) (h : Hdr) (p : Payload) (q : List (Nat × Hdr × Payload)) : List (Nat × Hdr × Payload) :=
  let free := (q.reverse.takeWhile (letsPass port h p)).reverse
  q.take (q.length - free.length) ++ [(port, h, p)] ++ free

/-- A message leaves on a port. -/
def State.emitMsg (s : State) (port : Nat) (h : Hdr) (p : Payload) : State :=
  (s.countTx port (32 + payloadLen p)).emit (.msg port h p)

/-- Hand a message to a port: it goes out when the port has the credits of its class and no earlier
message of the class waits there (11 R323). A class for which no credit has been reported is not metered
(DESIGN CHOICE, log entry 9). A fenced device sends no TWIN or CASC traffic (03 R102). -/
def State.sendOn (s : State) (port : Nat) (h : Hdr) (p : Payload) : State :=
  let h := { h with port := port }
  if s.twin.portsFenced then s
  else
    let k := port * 3 + payloadClass p
    let waiting := s.ports.sendq.any (fun x => !letsPass port h p x)
    match SMap.find s.ports.credits k with
    | none => if waiting then { s with ports := { s.ports with sendq := queueMsg port h p s.ports.sendq } }
              else s.emitMsg port h p
    | some c =>
      if waiting || c < payloadCost p then
        { s with ports := { s.ports with sendq := queueMsg port h p s.ports.sendq } }
      else
        let s := { s with ports := { s.ports with credits := SMap.put s.ports.credits k (c - payloadCost p) } }
        s.emitMsg port h p

/-- Messages of one class that wait on a port, sent while their credits last (11 R323); a fenced device sends none (03 R102). -/
def State.flushClass (s : State) (port cls : Nat) (q : List (Nat × Hdr × Payload)) : State :=
  match q with
  | [] => s
  | (p, h, b) :: t =>
    if s.twin.portsFenced then s
    else if p = port ∧ payloadClass b = cls then
      let k := port * 3 + cls
      match SMap.find s.ports.credits k with
      | some c =>
        if c < payloadCost b then s
        else
          let s := { s with ports := { s.ports with
            credits := SMap.put s.ports.credits k (c - payloadCost b),
            sendq := s.ports.sendq.erase (p, h, b) } }
          (s.emitMsg port h b).flushClass port cls t
      | none =>
        let s := { s with ports := { s.ports with sendq := s.ports.sendq.erase (p, h, b) } }
        (s.emitMsg port h b).flushClass port cls t
    else s.flushClass port cls t

/-- The port of a route whose link is in service (01 R39, R41). -/
def State.routePort (s : State) (dst : Nat) : Option Nat :=
  let p := if s.isSet F.BL_ROUTE.ALT_IN_USE dst then s.getF F.BL_ROUTE.ALT_PORT dst
           else s.getF F.BL_ROUTE.PRIMARY_PORT dst
  if p < 96 ∧ s.portUp p then some p else none

/-- Hops of the route in use (11 R324). -/
def State.routeHops (s : State) (dst : Nat) : Nat :=
  if s.isSet F.BL_ROUTE.ALT_IN_USE dst then s.getF F.BL_ROUTE.ALT_HOPS dst
  else s.getF F.BL_ROUTE.HOPS dst

/-- The port for a message that is no request: the route in use, else the other path. -/
def State.ctlPort (s : State) (dst : Nat) : Option Nat :=
  match s.routePort dst with
  | some p => some p
  | none =>
    let q := if s.isSet F.BL_ROUTE.ALT_IN_USE dst then s.getF F.BL_ROUTE.PRIMARY_PORT dst
             else s.getF F.BL_ROUTE.ALT_PORT dst
    if q < 96 ∧ s.portUp q then some q else none

/-- The message is a request that is held where it finds no path (01 R41, R42). -/
def isRequest (p : Payload) : Bool :=
  match p with | .fwdRd _ => true | .fwdWr _ _ => true | .ctrlReq _ => true | _ => false

/-- A request of a link finds no path to its destination, or one that is draining: it waits here (01 R41, R42). -/
def State.noPath (s : State) (dst : Nat) (p : Payload) : Bool :=
  isRequest p && (s.bay.draining.contains dst || (s.routePort dst).isNone)

/-- A request of a link held here for its path. -/
def State.holdTransit (s : State) (h : Hdr) (p : Payload) : State :=
  { s with bay := { s.bay with
      transit := s.bay.transit ++ [{ id := s.bay.nextId, hdr := h, body := p, since := s.now }], nextId := s.bay.nextId + 1 } }

/-- A message sent along the route to its destination: a request waits for a path, any other message is dropped where no path is
in service. -/
def State.send (s : State) (h : Hdr) (p : Payload) : State :=
  let h := { h with hops := s.routeHops h.dst }
  if s.noPath h.dst p then s.holdTransit h p
  else match s.ctlPort h.dst with
    | some q => s.sendOn q h p
    | none => s

/-- The requests that wait for a path to a device go, in order, once there is one (01 R41, R42). -/
def State.releaseTransit (s : State) (dst : Nat) : State :=
  match s.routePort dst with
  | none => s
  | some q =>
    if s.bay.draining.contains dst then s
    else
      let l := s.bay.transit.filter (fun t => t.hdr.dst == dst)
      let s := { s with bay := { s.bay with transit := s.bay.transit.filter (fun t => t.hdr.dst != dst) } }
      l.foldl (fun s t => s.sendOn q { t.hdr with hops := if t.hdr.src = s.devId then s.routeHops dst else t.hdr.hops } t.body) s

/-- A message sent back on the port its request came by, as the responses of a mirror stream are
(11 R325), or along the route for every other response. -/
def State.reply (s : State) (req : Hdr) (status : Nat) (stream : Bool) (p : Payload) : State :=
  let h := s.hdr req.src
  let h := { h with
    status := status, tag := req.tag, source := req.source, offset := req.offset, hops := s.routeHops req.src }
  if stream then s.sendOn req.port h p else s.send h p

/-- TWIN ports in service, in port order (11 R325). -/
def State.twinPorts (s : State) : List Nat := (s.portsOf 2).filter s.portUp

/-- The port that the mirror stream of bolt `b` belongs on (11 R325). -/
def State.streamHome (s : State) (b : Nat) : Option Nat :=
  let l := s.twinPorts
  l[b % max 1 l.length]?

/-- Messages of the stream of bolt `b` sent and not answered: mirrored stores and repair reads. -/
def State.streamBusy (s : State) (b : Nat) : Bool :=
  s.bay.reqs.any (fun r => boltOfOff r.offset == b &&
    (match r.st with | .storing _ true _ _ => true | .repairing _ _ => true | _ => false))
  || s.twin.mirrorOut.any (fun x => x.2 == b)
  || s.lines.rmwRepair.any (fun x => boltOfLine x.2 == b)
  || s.stripe.heals.any (fun x => boltOfFrame x.2 == b)
  || s.lines.copyBack.any (fun x => boltOfFrame x.2 == b)

/-- A message of the mirror stream of bolt `b` to the twin. When the number of TWIN ports has changed,
it waits until every message on the old port has been answered (11 R325). -/
def State.sendStream (s : State) (b : Nat) (h : Hdr) (p : Payload) (busy : Bool) : State :=
  match s.streamHome b with
  | none => { s with ports := { s.ports with streamWait := s.ports.streamWait ++ [(b, h, p)] } }
  | some home =>
    let cur := SMap.findD s.ports.streamPort b home
    if cur ≠ home ∧ busy = true then
      { s with ports := { s.ports with streamWait := s.ports.streamWait ++ [(b, h, p)] } }
    else
      let s := { s with ports := { s.ports with streamPort := SMap.put s.ports.streamPort b home } }
      s.sendOn home { h with hops := 1 } p

/-- Messages of the stream of bolt `b` that waited for the old port, sent when it is free. -/
def State.flushStream (s : State) (b : Nat) : State :=
  if s.streamBusy b ∧ (SMap.find s.ports.streamPort b ≠ s.streamHome b) then s
  else
    let l := s.ports.streamWait.filter (fun x => x.1 == b)
    let s := { s with ports := { s.ports with streamWait := s.ports.streamWait.filter (fun x => x.1 != b) } }
    l.foldl (fun s x => s.sendStream b x.2.1 x.2.2 false) s

/-- Every device of the bay that this device reaches (01 R24). -/
def State.reachable (s : State) : List Nat :=
  (List.range 64).filter (fun d => d != s.devId && (s.ctlPort d).isSome)

/-- The twin is reached on some TWIN port. -/
def State.twinReached (s : State) : Bool := !s.twinPorts.isEmpty

/-! Transit (11 R324). -/

/-- A message reaches its last hop away from its destination: dropped and flagged. -/
def State.hopExpired (s : State) (h : Hdr) : State := s.raiseAt F.PT_STATUS.HOP_EXPIRED h.port

/-- A message for another device is sent on under this device's routes, one hop fewer. -/
def State.sendThrough (s : State) (h : Hdr) (p : Payload) : State :=
  if h.hops ≤ 1 then s.hopExpired h
  else if s.noPath h.dst p then s.holdTransit { h with hops := h.hops - 1 } p
  else match s.ctlPort h.dst with
    | some q => s.sendOn q { h with hops := h.hops - 1 } p
    | none => s

/-- A message taken at a TWIN or CASC port in service; a fenced device takes none (03 R102). -/
def State.linkServes (s : State) (h : Hdr) : Bool := s.portUp h.port && !s.twin.portsFenced

/-- A message that this device takes for itself, or sends on. -/
def State.receive (s : State) (h : Hdr) (p : Payload) (act : State → State) : State :=
  if !s.linkServes h then s
  else
    let s := s.countRx h.port (32 + payloadLen p)
    if h.dst = s.devId then act s else s.sendThrough h p

/-- A link request that found no path in its time fails: its requester gets the code and no data (01 R43; Table 0.5). -/
def State.failTransit (s : State) (t : Transit) (code : Nat) : State :=
  let h := s.hdr t.hdr.src
  let h := { h with src := t.hdr.dst, tag := t.hdr.tag, source := t.hdr.source, offset := t.hdr.offset, status := code }
  match t.body with
  | .fwdRd _ => s.send h (.fwdData 0#64 [])
  | .fwdWr _ _ => s.send h .fwdCmp
  | _ => s.send h (.ctrlCmp [])

/-- A completion code that the spec leaves open, one of Table 0.5 (00 R13; log entry 2). -/
def State.openCode (s : State) : Nat × State :=
  ((Config.openCode s.freeIx).toNat % 14, { s with freeIx := s.freeIx + 1 })

/-- The status of a message as a completion code: a reserved one is never returned (00 R13; log entry 2). -/
def State.namedCode (s : State) (c : Nat) : Nat × State := if c < 14 then (c, s) else s.openCode

/-! Entries that fail their CRC (01 R23). -/

/-- BOLT_FETCH to devices of the bay (01 R23). -/
def State.fetchAll (s : State) (b : Nat) (devs : List Nat) : State :=
  let s := { s with bay := { s.bay with fetches := SMap.put s.bay.fetches b devs } }
  devs.foldl (fun s d => s.send { s.hdr d with offset := b * 2 ^ 36 } .boltFetch) s

/-- An entry read by the HUB is checked: one that fails its CRC is flagged, treated as unbound, and fetched
from the twin, or from every other reachable device where the twin is not reached (01 R23). An index never
bound has no entry to check. -/
def State.checkEntry (s : State) (b : Nat) : State :=
  match SMap.find s.bay.bolts b with
  | none => s
  | some e =>
    if entryCrc e = e.crc || s.bay.crcBad.contains b then s
    else
      let s := { s with bay := { s.bay with crcBad := insertSorted b s.bay.crcBad } }
      let s := s.raise F.BL_STATUS.ENTRY_CRC
      s.fetchAll b (if (s.ctlPort s.twinId).isSome then [s.twinId] else s.reachable)

end Sys2Proof.Machine
end

