-- ==== Sys2Proof/Machine/Store.lean ====
section
/-! DEFINITION. The storage of a device: poison marks, the Crown, tier D, dirty lines and their charge,
the dirty-span register, quotas, placement in tier P and destage (02, 04, 05, 06, 08). The bytes of the
range stand once, in State.mem; what this file keeps beside them says where a line lies, whether it is
dirty or poisoned and what it is charged to. Placement never changes the value that a read returns
(04 R130). -/

namespace Sys2Proof.Machine

open Sys2Proof

/-! Bolts and tenants of a line. -/

/-- The bolt is VOLATILE (01 Table 1.2). -/
def State.volatile (s : State) (b : Nat) : Bool := (s.entry b).durability == 2
/-- The bolt is MIRRORED. -/
def State.mirrored (s : State) (b : Nat) : Bool := (s.entry b).durability == 0
/-- The owning tenant of a bolt. -/
def State.tenantOf (s : State) (b : Nat) : Nat := (s.entry b).tenant

/-- The pair is whole in the sense of 02 R51: MIRRORED bolts run as MIRRORED. -/
def State.paired (s : State) : Bool :=
  match s.twin.st with | .paired | .suspect => true | _ => false

/-- The bolt is filled under 02 R425: it runs as LOCAL until its fill ends. -/
def State.filling (s : State) (b : Nat) : Bool := SMap.has s.twin.fills b

/-- A MIRRORED bolt that runs as MIRRORED now (02 R51, R425). -/
def State.runsMirrored (s : State) (b : Nat) : Bool :=
  s.mirrored b && s.paired && !s.filling b

/-- The slot of a tenant's key on this device (12 R349). -/
def State.keySlot (s : State) (t : Nat) : Option (Nat × KeySlot) :=
  s.cipher.slots.find? (fun x => x.2.tenant == t && x.2.st != .empty)

/-- The tenant's key slot is LOADED (12 R352). -/
def State.keyLoaded (s : State) (t : Nat) : Bool :=
  match s.keySlot t with | some (_, k) => k.st == .loaded | none => false

/-- The tenant's key slot is EMPTY or DELETED (12 Table 12.11). -/
def State.keyGone (s : State) (t : Nat) : Bool :=
  match s.keySlot t with | some (_, k) => k.st == .deleted | none => true

/-! Poison (02 R87 to R90). -/

/-- A line is poisoned. -/
def State.isPoison (s : State) (l : Nat) : Bool := s.lines.poison.contains l

/-- The bytes of a line outside its valid mask lose their value when it is poisoned (02 R72). -/
def State.poisonBytes (s : State) (l : Nat) : State :=
  let m := SMap.findD s.lines.mask l 0#64
  s.putLine l (~~~m) 0#512

/-- A line marked as poisoned, without its count and log. -/
def State.markPoison (s : State) (l : Nat) : State :=
  { s with lines := { s.lines with
      poison := insertSorted l s.lines.poison,
      poisonOverflow := s.lines.poisonOverflow || decide (Config.maxPoisonRecs ≤ s.lines.poison.length) } }

/-- A line newly poisoned: counted, logged with its source and reported (02 R87). A line that is already
poisoned is not counted again. -/
def State.poisonLine (s : State) (l src : Nat) : State :=
  if s.isPoison l then s
  else
    let s := (s.poisonBytes l).markPoison l
    let s := s.bump F.PW_POISON_COUNT.POISONED 0 1
    let s := s.health 9 1
    let s := s.setReg .PW_POISON_LOG 0 (word (l % 2 ^ 50 + src * 2 ^ 50))
    s.raiseArg F.PW_PERSIST_STATUS.POISON_NEW 0 (.log .PW_POISON_LOG 0)

/-- The lines of a span that hold no mark yet. -/
def State.cleanLinesOf (s : State) (sp : Nat) : Nat :=
  16384 - (s.lines.poison.filter (fun l => spanOfLine l == sp)).length

/-- Every line of a span poisoned in one act (02 R85, R87): one event for the span, every line counted. -/
def State.poisonSpan (s : State) (sp : Nat) : State :=
  let fresh := s.cleanLinesOf sp
  let rest := s.lines.poison.filter (fun l => spanOfLine l != sp)
  let all := (List.range 16384).map (fun k => sp * 16384 + k)
  let s := s.zeroRange (sp * 1048576) 1048576
  let s := { s with lines := { s.lines with
      poison := rest.filter (fun l => l < sp * 16384) ++ all ++ rest.filter (fun l => sp * 16384 < l) } }
  let s := s.bump F.PW_POISON_COUNT.POISONED 0 fresh
  let s := s.health 9 fresh
  let s := s.setReg .PW_POISON_LOG 0 (word (sp * 16384 % 2 ^ 50 + 4 * 2 ^ 50 + 2 ^ 53))
  s.raiseArg F.PW_PERSIST_STATUS.POISON_NEW 0 (.log .PW_POISON_LOG 0)

/-- The poison mark of a line removed (02 R90). -/
def State.clearPoison (s : State) (l : Nat) : State :=
  { s with lines := { s.lines with poison := removeNum l s.lines.poison } }

/-- Poison map of a frame: bit k = line k poisoned (07 Table 7.2). -/
def State.poisonMap (s : State) (f : Nat) : Word :=
  word (((List.range 64).filter (fun k => s.isPoison (f * 64 + k))).foldl (fun a k => a + 2 ^ k) 0)

/-! Written frames and quotas (04 R131, R139 to R142). -/

/-- The span record, if the span holds a written frame. -/
def State.span (s : State) (sp : Nat) : Option SpanRec := SMap.find s.tier.spans sp

/-- A frame has been written (04 R131), VOLATILE frames included. -/
def State.written (s : State) (f : Nat) : Bool :=
  s.tier.volFrames.contains f ||
  (match s.span (spanOfFrame f) with | some r => r.written.contains (f % 256) | none => false)

/-- Frames in spans of a home, over the spans that `p` selects. -/
def State.framesIn (s : State) (h : Home) (sel : Nat → Bool) : Nat :=
  ((s.tier.spans.filter (fun x => x.2.home == h && sel x.1)).map (fun x => x.2.written.length)).foldl (· + ·) 0

/-- A tenant's use of tier P or F in frames (04 R140). -/
def State.useIn (s : State) (h : Home) (t : Nat) : Nat :=
  s.framesIn h (fun sp => s.tenantOf (boltOfSpan sp) == t)

/-- Spans of a tenant that are pinned to a tier (04 R137). -/
def State.pinnedSpans (s : State) (pin : Pin) (t : Nat) : Nat :=
  (s.tier.spans.filter (fun x => x.2.pin == pin && s.tenantOf (boltOfSpan x.1) == t)).length

/-- Number of ones of a word. -/
def popcount (w : Word) : Nat := ((List.range 64).filter (fun i => w.getLsbD i)).length

/-- A line of the tenant's VOLATILE data lies in the Crown and not in tier D. -/
def State.volInCrown (s : State) (t : Nat) (c : Cell) : Bool :=
  let f := frameOfLine c.line
  c.dirty && s.volatile (boltOfLine c.line) && s.tenantOf (boltOfLine c.line) == t &&
    !(match SMap.find s.dram.dframes f with | some d => d.present.getLsbD (c.line % 64) | none => false)

/-- A tenant's tier D use in MiB with `more` further lines, rounded up (04 R140): its lines in tier D, its VOLATILE lines that
still lie in the Crown (02 R52), and 1 MiB for each span pinned to D (04 R138). -/
def State.useDWith (s : State) (t more : Nat) : Nat :=
  let pinD := s.tier.spans.filter (fun x => x.2.pin == .d)
  let lines := ((s.dram.dframes.filter (fun x =>
      s.tenantOf (boltOfFrame x.1) == t && !pinD.any (fun y => y.1 == spanOfFrame x.1))).map
        (fun x => popcount x.2.present)).foldl (· + ·) 0
  let vol := (s.crown.cells.filter (fun x => s.volInCrown t x.2)).length
  ceilDiv (64 * (lines + vol + more)) 1048576 + s.pinnedSpans .d t

/-- A tenant's tier D use in MiB (04 R140). -/
def State.useD (s : State) (t : Nat) : Nat := s.useDWith t 0

/-- A tenant's quotas. -/
def State.quota (s : State) (t : Nat) : Quota := SMap.findD s.tier.quotas t {}

/-- Free data frames of tier P and tier F. -/
def State.freeP (s : State) : Nat := s.tier.pFrames - s.framesIn .p (fun _ => true)
def State.freeF (s : State) : Nat := s.tier.fFrames - s.framesIn .f (fun _ => true)

/-- Spans of a bolt that hold a frame in a tier (01 R20; 04 R141). -/
def State.boltSpans (s : State) (h : Home) (b : Nat) : Nat :=
  (s.tier.spans.filter (fun x => x.2.home == h && boltOfSpan x.1 == b && !x.2.written.isEmpty)).length

/-- What a first store to a frame meets (04 Table 4.3). -/
inductive FirstStore where
  | ok | quota | capacity
  deriving DecidableEq, Repr

/-- The decision of the active owner on a store to frame `f` (04 R141, R142; 01 R20). -/
def State.firstStore (s : State) (f : Nat) : FirstStore :=
  if s.written f then .ok
  else
    let b := boltOfFrame f
    let t := s.tenantOf b
    let q := s.quota t
    let e := s.entry b
    let newSpan := (s.span (spanOfFrame f)).all (fun r => r.written.isEmpty)
    if q.p ≠ 0 ∧ q.f ≠ 0 ∧ q.p + q.f ≤ s.useIn .p t + s.useIn .f t then .quota
    else if newSpan ∧ e.pCap ≠ 0 ∧ e.fCap ≠ 0 ∧ e.pCap + e.fCap ≤ s.boltSpans .p b + s.boltSpans .f b then .quota
    else if s.freeP + s.freeF = 0 then .capacity
    else .ok

/-- The first write to a VOLATILE frame lies within the tier D share (02 R52; 01 R20). -/
def State.volatileFits (s : State) (f : Nat) : Bool :=
  if s.written f then true
  else
    let b := boltOfFrame f
    let t := s.tenantOf b
    let q := s.quota t
    let e := s.entry b
    let s' := { s with tier := { s.tier with volFrames := insertSorted f s.tier.volFrames } }
    let spans := nub ((s'.tier.volFrames.filter (fun g => boltOfFrame g == b)).map spanOfFrame)
    (q.d == 0 || decide (s.useDWith t 1 ≤ q.d)) && (e.dCap == 0 || decide (spans.length ≤ e.dCap))

/-- A frame counted as written: its span record made, with home P, or the frame added to it
(04 R131, R140). A VOLATILE frame has no record. -/
def State.noteWritten (s : State) (f : Nat) : State :=
  if s.written f then s
  else if s.volatile (boltOfFrame f) then
    { s with tier := { s.tier with volFrames := insertSorted f s.tier.volFrames } }
  else
    let sp := spanOfFrame f
    let r : SpanRec := match s.span sp with
      | some r => { r with written := insertSorted (f % 256) r.written }
      | none => { home := .p, heat := 0, pin := .none, move := none, written := [f % 256], lastUse := s.now }
    { s with tier := { s.tier with spans := SMap.put s.tier.spans sp r } }

/-- PROMOTE_HEAT; 0 acts as 1 (04 Table 4.7). -/
def State.promoteHeat (s : State) : Nat := max 1 (s.get F.ST_TIER_CTL.PROMOTE_HEAT)

/-! Places in flash, and reads that meet a program or an erase on their die (07 R202). -/

/-- The member position that holds P in row `r` of a group of width `w` (08 R234). -/
def parityP (w r : Nat) : Nat := w - 1 - r % w
/-- The member position that holds Q. -/
def parityQ (w r : Nat) : Nat := (parityP w r + 1) % w
/-- The member position of data position `d`. -/
def dataPos (w r d : Nat) : Nat := (parityQ w r + 1 + d) % w

/-- Width of new bands. -/
def State.fWidth (s : State) : Nat := s.get F.ST_F_CFG.WIDTH

/-- Channel and block of member `i` of band `b`: member units are dealt over the channels in order
(08 R237; the block number is a DESIGN CHOICE, log entry 23). -/
def State.bandBlock (s : State) (b w i : Nat) : Nat × Nat :=
  let n := max 1 (s.get F.ST_F_CFG.CHANNELS)
  ((b * w + i) % n, (b * w + i) / n)

/-- A flash frame address (07 R207). -/
def fpa (band slot : Nat) : Nat := band * 2 ^ 20 + slot

/-- The flash frame address of frame `k` of a span in tier F (07 R208). -/
def State.fpaOf (s : State) (sp k : Nat) : Option Nat :=
  match SMap.find s.flash.map sp with
  | none => none
  | some e =>
    if !e.written.contains k then none
    else match e.fine with
      | none => some (fpa e.band (e.slot + (e.written.filter (fun j => j < k)).length))
      | some ix => SMap.find (SMap.findD s.flash.fine ix []) k

/-- All flash frame addresses of a span. -/
def State.fpasOf (s : State) (sp : Nat) : List Nat :=
  match SMap.find s.flash.map sp with
  | some e => e.written.filterMap (s.fpaOf sp)
  | none => []

/-- Member position that holds a data slot of a band of width `w` (08 R237). -/
def slotMember (w slot : Nat) : Nat :=
  let k := 4 * max 1 (w - 2)
  dataPos w (slot / k) (slot % k / 4)

/-- Channel and block of a flash frame address. -/
def State.fpaBlock (s : State) (a : Nat) : Nat × Nat :=
  let b := a / 2 ^ 20
  let w := match SMap.find s.flash.bands b with | some x => x.width | none => s.fWidth
  s.bandBlock b w (slotMember w (a % 2 ^ 20))

/-- Channel and block of each member of a band. -/
def State.bandBlocks (s : State) (b : Nat) (x : Band) : List (Nat × Nat) :=
  (List.range x.width).map (s.bandBlock b x.width)

/-- The die of a block as one number: which die of its channel (open, log entry 2), and the channel. -/
def dieOf (p : Nat × Nat) : Nat := Config.dieOf p.1 p.2 * 32 + p.1

/-- Blocks that the program of a change writes. -/
def State.changeBlocks (s : State) (c : FChange) : List (Nat × Nat) :=
  (List.range c.frames.length).map (fun j => s.fpaBlock (fpa c.band (c.slot + j)))

/-- A read of a host access, a promotion or a read repair starts on a die (07 R202). The program or erase under way on that
die is suspended once more; after SUSPEND_MAX times the read waits and SUSPEND_LIMIT is set (DEDUCED, log entry 49). -/
def State.suspendOn (s : State) (d : Nat) : State :=
  let most := s.get F.FL_RETRY_CTL.SUSPEND_MAX
  match s.flash.changes.find? (fun c => !c.programmed && (s.changeBlocks c).any (fun p => dieOf p == d)) with
  | some c =>
    if SMap.findD c.suspends d 0 < most then
      { s with flash := { s.flash with changes := s.flash.changes.map (fun x =>
          if x.id = c.id then { x with suspends := SMap.updD x.suspends d 0 (fun n => n + 1) } else x) } }
    else s.raiseAt F.FL_STATUS.SUSPEND_LIMIT (d % 32)
  | none =>
    match s.flash.bands.find? (fun x => x.2.st == .erasing && (s.bandBlocks x.1 x.2).any (fun p => dieOf p == d)) with
    | some x =>
      if SMap.findD x.2.suspends d 0 < most then
        let y : Band := { x.2 with suspends := SMap.updD x.2.suspends d 0 (fun n => n + 1) }
        { s with flash := { s.flash with bands := SMap.put s.flash.bands x.1 y } }
      else s.raiseAt F.FL_STATUS.SUSPEND_LIMIT (d % 32)
    | none => s

/-- The read of the frame of a line that tier F holds starts. -/
def State.flashRead (s : State) (l : Nat) : State :=
  match s.fpaOf (spanOfLine l) (frameOfLine l % 256) with
  | some a => s.suspendOn (dieOf (s.fpaBlock a))
  | none => s

/-- A span of tier F starts to move to P, read from every die that holds it (04 R133; 07 R202). -/
def State.startPromotion (s : State) (sp : Nat) : State :=
  match s.span sp with
  | some r =>
    if r.home == .f && r.move != some .p then
      let s := { s with tier := { s.tier with spans := SMap.put s.tier.spans sp { r with move := some .p } } }
      (nub ((s.fpasOf sp).map (fun a => dieOf (s.fpaBlock a)))).foldl State.suspendOn s
    else s
  | none => s

/-- An access to a span, noted with its time (04 R134). -/
def State.useSpan (s : State) (sp : Nat) : State :=
  { s with tier := { s.tier with spans := SMap.upd s.tier.spans sp (fun r => { r with lastUse := s.now }) } }

/-- An access that misses the Crown and reaches a tier raises the heat of its span (04 R132) and promotes it at
PROMOTE_HEAT (04 R133). -/
def State.heat (s : State) (sp : Nat) : State :=
  match s.span sp with
  | some r =>
    let r := { r with heat := min 255 (r.heat + 1), lastUse := s.now }
    let s := { s with tier := { s.tier with spans := SMap.put s.tier.spans sp r } }
    if s.promoteHeat ≤ r.heat then s.startPromotion sp else s
  | none => s

/-! The Crown (05). -/

/-- Slice of a line: its ten 5-bit groups XORed (05 R154). -/
def lineSlice (l : Nat) : Nat :=
  ((List.range 10).map (fun k => l / 32 ^ k % 32)).foldl (fun a b => Nat.xor a b) 0

/-- Set of a line: A[18:5] (05 R154). -/
def lineSet (l : Nat) : Nat := l / 32 % 16384

/-- Key of a way of a set of a slice. -/
def cellKey (slice set way : Nat) : Nat := (slice * 16384 + set) * 16 + way

/-- The way that holds a line, if one does. -/
def State.cellAt (s : State) (l : Nat) : Option (Nat × Cell) :=
  (List.range 16).findSome? (fun w =>
    let k := cellKey (lineSlice l) (lineSet l) w
    match SMap.find s.crown.cells k with
    | some c => if c.line = l then some (k, c) else none
    | none => none)

/-- State of a way; ways 0 to 7 are always powered (05 R163). -/
def State.waySt (s : State) (w : Nat) : WaySt := if w < 8 then .on else s.crown.ways.getD (w - 8) .on

/-- A way of a set may take a line (05 R157). -/
def State.allocatable (s : State) (slice set w : Nat) : Bool :=
  s.waySt w == .on &&
  (match SMap.find s.crown.cells (cellKey slice set w) with | some c => !c.filling | none => true)

/-- One step of the victim LFSR, x^32 + x^22 + x^2 + x + 1, shifting left (05 R157; the form is a
DESIGN CHOICE, log entry 10). -/
def lfsrStep (x : BitVec 32) : BitVec 32 :=
  let b := (x.getLsbD 31).xor ((x.getLsbD 21).xor ((x.getLsbD 1).xor (x.getLsbD 0)))
  (x <<< 1) ||| (BitVec.ofBool b).setWidth 32

/-- The LFSR value that slice `n` loads from SEED (05 R158). -/
def lfsrLoad (seed n : Nat) : BitVec 32 :=
  let v := BitVec.ofNat 32 (seed % 2 ^ 32) ^^^ BitVec.ofNat 32 (n * 0x9E3779B9)
  if v = 0#32 then 1#32 else v

/-- The LFSR of a slice steps once for an allocation; a written SEED is loaded first (05 R157, R158). -/
def State.stepLfsr (s : State) (slice : Nat) : State :=
  let cur := if s.crown.reload.contains slice then lfsrLoad (s.get F.CR_LFSR_SEED.SEED) slice
             else s.crown.lfsr.getD slice 1#32
  { s with crown := { s.crown with
      lfsr := s.crown.lfsr.set slice (lfsrStep cur), reload := removeNum slice s.crown.reload } }

/-- The way that the LFSR names if it is allocatable, else the next allocatable one above (05 R157). The value read is the one
after the step of this allocation (DESIGN CHOICE, log entry 10). -/
def State.victimWay (s : State) (slice set : Nat) : Option Nat :=
  let v := (s.crown.lfsr.getD slice 1#32).toNat % 16
  ((List.range 16).map (fun k => (v + k) % 16)).find? (s.allocatable slice set)

/-! Tier D (06 R174 to R175). -/

/-- Lines of a frame as a mask bit. -/
def lineBit (l : Nat) : Word := 1#64 <<< (l % 64)

/-! Addresses of tier D (06 R174, R175, R180, R194). -/

/-- A field of an address-map order. -/
inductive AddrField where
  | sc | ch | cb | bg | ba | rk | row
  deriving DecidableEq, Repr

/-- Shape of the channels: bits of the channel number, of the column burst, of the rank, rows of a bank. -/
structure DramShape where
  chBits : Nat
  cbBits : Nat
  rkBits : Nat
  rows : Nat
  deriving DecidableEq, Repr

/-- Density in Gb of a DC_CFG.DENSITY code (06 Table 6.12). -/
def densityGb (code : Nat) : Nat := match code with | 0 => 16 | 1 => 24 | 2 => 32 | 3 => 48 | _ => 64

/-- The data capacity per channel of a build in GiB: two subchannels of 32 data bits, of components of a width, density, stack
and ranks (06 R167, Table 6.1). -/
def buildGib (b : DramBuild) : Nat := densityGb b.density * (if b.x8 then 1 else 2) * 2 ^ (b.stack + if b.pranks = 0 then 0 else 1)

/-- The shape of a build. -/
def shapeOf (b : DramBuild) : DramShape :=
  let k := if b.x8 then 6 else 7
  let rk := b.stack + b.pranks
  { chBits := Nat.log2 b.channels, cbBits := k, rkBits := rk, rows := buildGib b * 2 ^ 24 / (2 ^ (6 + k + rk)) }

/-- Bits of the ROW field. -/
def DramShape.rowBits (d : DramShape) : Nat := if d.rows ≤ 1 then 0 else Nat.log2 (d.rows - 1) + 1

/-- The pieces of a line address from bit 0 upwards: field, its lowest bit in the piece, width (06 Table 6.4). -/
def amPieces (am : Nat) (d : DramShape) : List (AddrField × Nat × Nat) :=
  match am with
  | 0 => [(.sc, 0, 1), (.ch, 0, d.chBits), (.cb, 0, d.cbBits), (.bg, 0, 3), (.ba, 0, 2), (.rk, 0, d.rkBits),
          (.row, 0, d.rowBits)]
  | 1 => [(.cb, 0, 6), (.sc, 0, 1), (.ch, 0, d.chBits), (.bg, 0, 3), (.cb, 6, d.cbBits - 6), (.ba, 0, 2),
          (.rk, 0, d.rkBits), (.row, 0, d.rowBits)]
  | 2 => [(.cb, 0, 3), (.bg, 0, 3), (.cb, 3, 3), (.sc, 0, 1), (.ch, 0, d.chBits), (.cb, 6, d.cbBits - 6),
          (.ba, 0, 2), (.rk, 0, d.rkBits), (.row, 0, d.rowBits)]
  | _ => [(.cb, 0, 6), (.sc, 0, 1), (.ch, 0, 2), (.bg, 0, 3), (.cb, 6, d.cbBits - 6), (.ba, 0, 2),
          (.rk, 0, d.rkBits), (.row, 0, d.rowBits), (.ch, 2, d.chBits - 2)]

/-- The value of a field of a line address. -/
def amField (ps : List (AddrField × Nat × Nat)) (f : AddrField) (la : Nat) : Nat :=
  match ps with
  | [] => 0
  | (g, lo, w) :: t => (if g = f then la % 2 ^ w * 2 ^ lo else 0) + amField t f (la / 2 ^ w)

/-- A bank of the device as one number: channel, subchannel, rank, bank group, bank. -/
def bankKey (ch sub rk bg ba : Nat) : Nat := (((ch * 2 + sub) * 16 + rk) * 8 + bg) * 4 + ba

/-- Bank and row of a line address. -/
def bankRow (ps : List (AddrField × Nat × Nat)) (la : Nat) : Nat × Nat :=
  (bankKey (amField ps .ch la) (amField ps .sc la) (amField ps .rk la) (amField ps .bg la) (amField ps .ba la),
   amField ps .row la)

/-- The shape in use; channels of no build hold nothing. -/
def State.shape (s : State) : DramShape :=
  match s.dram.build with
  | some b => shapeOf b
  | none => { chBits := 0, cbBits := 6, rkBits := 0, rows := 0 }

/-- The address pieces in use. -/
def State.pieces (s : State) : List (AddrField × Nat × Nat) := amPieces (s.get F.DC_MAP.AM) s.shape

/-- Lines of one channel that lie in no training row, the highest row of each bank (06 R180). -/
def DramShape.dataLines (d : DramShape) : Nat := 2 ^ (6 + d.cbBits + d.rkBits) * (d.rows - 1)

/-- D blocks of one run of addresses with no training row in it: of a channel group under AM3, of the device else. -/
def State.runBlocks (s : State) : Nat :=
  (if s.get F.DC_MAP.AM = 3 then 4 else 2 ^ s.shape.chBits) * s.shape.dataLines / 64

/-- The channel groups in service. -/
def State.groupsUp (s : State) : List Nat :=
  (List.range 8).filter (fun g => (word (s.get F.DC_MAP.GROUPS_UP)).getLsbD g)

/-- The `n`-th D block outside training rows. -/
def State.poolBlock (s : State) (n : Nat) : Option Nat :=
  let per := s.runBlocks
  if per = 0 then none
  else if s.get F.DC_MAP.AM = 3 then
    match s.groupsUp[n / per]? with
    | some g => some (g * 2 ^ (2 + s.shape.cbBits + s.shape.rkBits + s.shape.rowBits) + n % per)
    | none => none
  else if n < per then some n else none

/-- A line of the D block lies in a retired row (06 R174, R194). -/
def State.blockRetired (s : State) (b : Nat) : Bool :=
  !s.dram.retired.isEmpty &&
    (List.range 64).any (fun k => s.dram.retired.contains (bankRow s.pieces (b * 64 + k)))

/-- The first block of the pool from the `n`-th on that is free. -/
def State.scanPool (s : State) (used : List Nat) (n fuel : Nat) : Option Nat :=
  match fuel with
  | 0 => none
  | k + 1 =>
    match s.poolBlock n with
    | none => none
    | some b => if used.contains b || s.blockRetired b then s.scanPool used (n + 1) k else some b

/-- The D block that a frame would take: the lowest of the pool that is not in use. -/
def State.freeBlock (s : State) : Option Nat :=
  let used := s.dram.dframes.map (fun x => x.2.block)
  if used.length < s.get F.DC_MAP.D_BLOCKS then
    s.scanPool used 0 (used.length + 128 * s.dram.retired.length + 1)
  else none

/-- A frame of tier D that may be evicted: no dirty line, not pinned to D, not VOLATILE (06 R174;
04 R137). -/
def State.evictable (s : State) (f : Nat) (d : DFrame) : Bool :=
  d.dirty == 0#64 && !s.tier.volFrames.contains f
    && !(match s.span (spanOfFrame f) with | some r => r.pin == .d | none => false)

/-- A tenant stands at its tier D share (04 Table 4.3). -/
def State.atDShare (s : State) (t : Nat) : Bool :=
  let q := s.quota t
  q.d != 0 && decide (q.d ≤ s.useD t)

/-- Spans of a bolt with a frame in tier D (01 R20). -/
def State.boltSpansD (s : State) (b : Nat) : List Nat :=
  nub (((SMap.keys s.dram.dframes).filter (fun f => boltOfFrame f == b)).map spanOfFrame)

/-- A bolt stands at its tier D cap (01 R20; 04 R141). -/
def State.atDCap (s : State) (b : Nat) : Bool :=
  (s.entry b).dCap != 0 && decide ((s.entry b).dCap ≤ (s.boltSpansD b).length)

/-- The least recently used of the frames that `p` selects. -/
def lruFrame (l : SMap DFrame) (p : Nat → DFrame → Bool) : Option Nat :=
  (l.foldl (fun (acc : Option (Nat × Nat)) x =>
    if p x.1 x.2 then
      match acc with
      | some (_, u) => if x.2.lastUse < u then some (x.1, x.2.lastUse) else acc
      | none => some (x.1, x.2.lastUse)
    else acc) none).map Prod.fst

/-- The victim frame of tier D for a new frame: of its bolt when the bolt stands at its cap, of its tenant when that stands at
its share, else the least recently used (06 R174; 04 R141, Table 4.3). -/
def State.dVictim (s : State) (f : Nat) : Option Nat :=
  let b := boltOfFrame f
  let t := s.tenantOf b
  let ofBolt := if s.atDCap b then lruFrame s.dram.dframes (fun g d => s.evictable g d && boltOfFrame g == b) else none
  let ofTenant := if s.atDShare t then
      lruFrame s.dram.dframes (fun g d => s.evictable g d && s.tenantOf (boltOfFrame g) == t) else none
  match ofBolt, ofTenant with
  | some g, _ => some g
  | none, some g => some g
  | none, none => lruFrame s.dram.dframes s.evictable

/-- A D block for a frame that has none: a free block, or a victim's. No block when none is eligible. -/
def State.allocD (s : State) (f : Nat) : State :=
  if SMap.has s.dram.dframes f then s
  else
    let t := s.tenantOf (boltOfFrame f)
    let mk (s : State) (b : Nat) : State :=
      { s with dram := { s.dram with
          dframes := SMap.put s.dram.dframes f { block := b, present := 0#64, dirty := 0#64, lastUse := s.dram.useIx },
          useIx := s.dram.useIx + 1 } }
    let victim (s : State) : State :=
      match s.dVictim f with
      | some v =>
        match SMap.find s.dram.dframes v with
        | some d => mk { s with dram := { s.dram with dframes := SMap.del s.dram.dframes v } } d.block
        | none => s
      | none => s
    if s.atDShare t || s.atDCap (boltOfFrame f) then victim s
    else match s.freeBlock with
      | some b => mk s b
      | none => victim s

/-- A line resident in tier D. -/
def State.inTierD (s : State) (l : Nat) : Bool :=
  match SMap.find s.dram.dframes (frameOfLine l) with
  | some d => d.present.getLsbD (l % 64)
  | none => false

/-- A use of a frame in tier D. -/
def State.touchD (s : State) (f : Nat) : State :=
  { s with dram := { s.dram with
      dframes := SMap.upd s.dram.dframes f (fun d => { d with lastUse := s.dram.useIx }),
      useIx := s.dram.useIx + 1 } }

/-- The subchannel of a line resident in tier D: 2 × channel + subchannel (06 R175). -/
def State.subOf (s : State) (l : Nat) : Nat :=
  match SMap.find s.dram.dframes (frameOfLine l) with
  | some d =>
    let la := d.block * 64 + l % 64
    amField s.pieces .ch la * 2 + amField s.pieces .sc la
  | none => 0

/-- The write queue of a subchannel after a write of line `l`: at 48 entries it drains to 16, the oldest first (06 R184). -/
def queueWrite (q : List Nat) (l : Nat) : List Nat :=
  let q := q.filter (fun x => x != l) ++ [l]
  if 48 ≤ q.length then q.drop (q.length - 16) else q

/-- A write of a line of tier D enters its subchannel's queue (06 R182). -/
def State.holdWrite (s : State) (l : Nat) : State :=
  { s with dram := { s.dram with wq := SMap.updD s.dram.wq (s.subOf l) [] (fun q => queueWrite q l) } }

/-- The write of a line is held in its queue: a read of the line is served from there (06 R184, Table 6.8). -/
def State.writeHeld (s : State) (l : Nat) : Bool := (SMap.findD s.dram.wq (s.subOf l) []).contains l

/-- A line put into tier D, dirty or clean. When no D block is eligible, a dirty line is queued for
destage at once and a clean one is not kept (DESIGN CHOICE, log entry 11). -/
def State.putTierD (s : State) (l : Nat) (dirty : Bool) : State :=
  let f := frameOfLine l
  let s := s.allocD f
  match SMap.find s.dram.dframes f with
  | some d =>
    let d := { d with present := d.present ||| lineBit l,
                      dirty := if dirty then d.dirty ||| lineBit l else d.dirty &&& ~~~(lineBit l),
                      lastUse := s.dram.useIx }
    { s with dram := { s.dram with dframes := SMap.put s.dram.dframes f d, useIx := s.dram.useIx + 1 } }.holdWrite l
  | none =>
    if dirty then { s with lines := { s.lines with destageQ := insertSorted f s.lines.destageQ } } else s

/-- A line dropped from tier D, with a write of it that is still held. -/
def State.dropTierD (s : State) (l : Nat) : State :=
  let f := frameOfLine l
  let s := { s with dram := { s.dram with wq := SMap.upd s.dram.wq (s.subOf l) (fun q => q.filter (fun x => x != l)) } }
  match SMap.find s.dram.dframes f with
  | some d =>
    let d := { d with present := d.present &&& ~~~(lineBit l), dirty := d.dirty &&& ~~~(lineBit l) }
    { s with dram := { s.dram with
        dframes := if d.present = 0#64 then SMap.del s.dram.dframes f else SMap.put s.dram.dframes f d } }
  | none => s

/-! Leaving the Crown (02 R73, R74). -/

/-- The open merge-buffer entry of a line; one whose window has ended takes nothing in any more (02 Table 2.7). -/
def State.mergeOf (s : State) (l : Nat) : Option Merge :=
  s.lines.merge.find? (fun m => m.line == l && decide (s.now < m.opened + 1000))

/-- The oldest entry of a list. -/
def oldestMerge (l : List Merge) : Option Merge :=
  l.foldl (fun (a : Option Merge) m => match a with | some o => if m.opened < o.opened then some m else a | none => some m) none

/-- The entries of a line are replaced by a whole line (02 Table 2.7). -/
def State.dropMerge (s : State) (l : Nat) : State :=
  { s with lines := { s.lines with
      merge := s.lines.merge.filter (fun m => m.line != l), closing := s.lines.closing.filter (fun m => m.line != l) } }

/-- A line that leaves the Crown whole goes to tier D: dirty there, but for VOLATILE data, which has no tier below
(02 R52, R73). -/
def State.wholeToD (s : State) (l : Nat) : State := (s.dropMerge l).putTierD l (!s.volatile (boltOfLine l))

/-- A partial line enters the merge buffer of its subchannel (02 R74). A line whose mask becomes full is
written at once and loses its poison mark (R90); a 65th line closes the oldest entry, whose line is then read. -/
def State.mergeIn (s : State) (l : Nat) (mask : Word) (poison : Bool) : State :=
  match s.mergeOf l with
  | some m =>
    let mk := m.mask ||| mask
    let rest := s.lines.merge.filter (fun x => x != m)
    if mk = fullBe then
      let s := { s with lines := { s.lines with merge := rest, mask := SMap.del s.lines.mask l } }
      (s.clearPoison l).wholeToD l
    else
      let e := { m with mask := mk, poison := m.poison || poison }
      { s with lines := { s.lines with merge := rest ++ [e] } }
  | none =>
    let s := s.allocD (frameOfLine l)
    let sub := s.subOf l
    let mine := s.lines.merge.filter (fun m => m.sub == sub)
    let e : Merge := { sub := sub, line := l, mask := mask, poison := poison, opened := s.now, base := false }
    match (if mine.length < 64 then none else oldestMerge mine) with
    | some o =>
      { s with lines := { s.lines with
          merge := s.lines.merge.filter (fun m => m != o) ++ [e], closing := s.lines.closing ++ [o] } }
    | none => { s with lines := { s.lines with merge := s.lines.merge ++ [e] } }

/-- A dirty line leaves the Crown for tier D with its byte-valid mask (02 R73). -/
def State.leaveDirty (s : State) (l : Nat) : State :=
  match SMap.find s.lines.mask l with
  | some m => if m = fullBe then s.wholeToD l else s.mergeIn l m (s.isPoison l)
  | none => s.wholeToD l

/-- What the beats of a line in the Crown come to when it is read: none wrong, some corrected, or one that cannot be corrected
(05 R155). A beat with one wrong bit is corrected, one with two or more is not. -/
inductive Beats where
  | good | corrected | bad
  deriving DecidableEq, Repr

/-- The beats of a line (05 R155). -/
def State.beats (s : State) (l : Nat) : Beats :=
  match SMap.find s.crown.wrong l with
  | none => .good
  | some m => if m.any (fun x => decide (2 ≤ x.2)) then .bad else if m.any (fun x => x.2 == 1) then .corrected else .good

/-- A line of the Crown is read: its corrected beats, or its loss, are counted and flagged (05 R155, R166). -/
def State.readBeats (s : State) (l : Nat) : State :=
  match s.beats l with
  | .good => s
  | .corrected => (s.bump F.CR_ERR_STAT.CORRECTED 0 1).raise F.CR_STATUS.BEAT_CORRECTED
  | .bad => (s.bump F.CR_ERR_STAT.UNCORRECTABLE 0 1).raise F.CR_STATUS.LINE_UNCORR

/-- The beats of a line that leaves the Crown, or is written over whole, hold no wrong bit any more. -/
def State.newBeats (s : State) (l : Nat) : State :=
  { s with crown := { s.crown with wrong := SMap.del s.crown.wrong l } }

/-- The bytes of a line whose stored copy cannot be corrected are no longer known, but for those its mask
keeps (02 R72). -/
def State.loseBytes (s : State) (l : Nat) : State :=
  { s with lines := { s.lines with mask := SMap.put s.lines.mask l (SMap.findD s.lines.mask l 0#64) } }

/-- A line of a span pinned to D that leaves the Crown, or comes from below, stays resident in tier D (04 R137). -/
def State.keepD (s : State) (l : Nat) : State :=
  match s.span (spanOfLine l) with
  | some r => if r.pin == .d && !s.inTierD l then s.putTierD l false else s
  | none => s

/-- A way of the Crown emptied: a dirty line leaves for tier D, a clean one is dropped (05 R157). A dirty line that its beats
lose leaves with no byte known, and is due for repair (02 R78). -/
def State.evictCell (s : State) (k : Nat) : State :=
  match SMap.find s.crown.cells k with
  | some c =>
    let s := { s with crown := { s.crown with cells := SMap.del s.crown.cells k } }
    if c.dirty then
      let bad := s.beats c.line == .bad
      let s := (s.readBeats c.line).newBeats c.line
      if bad then
        { s with lines := { s.lines with
            mask := SMap.put s.lines.mask c.line 0#64, lost := insertSorted c.line s.lines.lost } }.wholeToD c.line
      else s.leaveDirty c.line
    else (s.newBeats c.line).keepD c.line
  | none => s

/-- The slice group of a line is stopped for a restart, so that its lines pass the Crown by (12 Table 12.5). -/
def State.crownStopped (s : State) (l : Nat) : Bool :=
  (word (s.get F.IS_FUNC_STOPPED.CROWN_GROUP)).getLsbD (lineSlice l / 4)

/-- A line allocated in the Crown by the victim rule; `none` when no way of its set is allocatable
(05 R156 to R159). -/
def State.allocCrown (s : State) (l : Nat) (dirty fill : Bool) : Option State :=
  let slice := lineSlice l
  let set := lineSet l
  let s := s.stepLfsr slice
  match s.victimWay slice set with
  | some w =>
    let k := cellKey slice set w
    let s := s.evictCell k
    some { s with crown := { s.crown with cells := SMap.put s.crown.cells k { line := l, dirty := dirty, filling := fill } } }
  | none => none

/-- A line taken out of the Crown without a write. -/
def State.dropCrown (s : State) (l : Nat) : State :=
  match s.cellAt l with
  | some (k, _) =>
    { s with crown := { s.crown with cells := SMap.del s.crown.cells k, wrong := SMap.del s.crown.wrong l } }
  | none => s

/-! Dirty lines (02 R56 to R60, R69). -/

/-- A line becomes dirty: charged once, in the order of first dirtying (02 R60, R70). -/
def State.makeDirty (s : State) (l : Nat) : State :=
  if SMap.has s.lines.dirty l then s
  else { s with lines := { s.lines with
      dirty := SMap.put s.lines.dirty l { since := s.now, ord := s.lines.ordNext },
      ordNext := s.lines.ordNext + 1 } }

/-- A line becomes clean: its charge is released and its copies in the Crown and tier D stay, clean. -/
def State.makeClean (s : State) (l : Nat) : State :=
  let s := { s with lines := { s.lines with dirty := SMap.del s.lines.dirty l } }
  let s := match s.cellAt l with
    | some (k, c) => { s with crown := { s.crown with cells := SMap.put s.crown.cells k { c with dirty := false } } }
    | none => s
  if s.inTierD l then s.putTierD l false else s

/-- A span holds a dirty line on this device. -/
def State.spanDirty (s : State) (sp : Nat) : Bool := s.lines.dirty.any (fun x => spanOfLine x.1 == sp)

/-- A repair of the span waits to install its line as dirty. -/
def State.spanInstalls (s : State) (sp : Nat) : Bool :=
  s.bay.reqs.any (fun r => spanOfOff r.offset == sp && (match r.st with | .installing _ _ => true | _ => false))

/-- The clear of a span's bit starts when the span holds no dirty line (02 R58). -/
def State.startClear (s : State) (sp : Nat) : State :=
  if s.lines.spanReg.contains sp && !s.spanDirty sp && !s.spanInstalls sp && !s.lines.spanClears.contains sp then
    { s with lines := { s.lines with spanClears := insertSorted sp s.lines.spanClears } }
  else s

/-- A store to the span must wait for a write of the dirty-span register, or, outside PAIRED, of the split
bitmap (02 R57, R58; 03 R123). -/
def State.needsSpan (s : State) (sp : Nat) : Bool :=
  let b := boltOfSpan sp
  if s.volatile b then false
  else !s.lines.spanReg.contains sp || s.lines.spanClears.contains sp
    || (s.mirrored b && s.twin.st != .paired && !s.lines.splitMap.contains sp)

/-- The write of a span's bits put on its way, unless it is already, or its clear is in flight. -/
def State.startSpanWrite (s : State) (sp : Nat) : State :=
  if s.lines.spanWrites.any (fun w => w.span == sp) || s.lines.spanClears.contains sp then s
  else { s with lines := { s.lines with spanWrites := s.lines.spanWrites ++ [{ span := sp, failed := false }] } }

/-- Lines of a set of frames dropped: their charge, marks, masks and copies go (12 R353; 07 R223). -/
def State.dropLines (s : State) (p : Nat → Bool) : State :=
  let spans := nub ((s.lines.dirty.filter (fun x => p x.1)).map (fun x => spanOfLine x.1))
  let s := { s with
    lines := { s.lines with
      dirty := s.lines.dirty.filter (fun x => !p x.1),
      poison := s.lines.poison.filter (fun l => !p l),
      mask := s.lines.mask.filter (fun x => !p x.1),
      merge := s.lines.merge.filter (fun m => !p m.line),
      closing := s.lines.closing.filter (fun m => !p m.line) },
    crown := { s.crown with
      cells := s.crown.cells.filter (fun x => !p x.2.line), wrong := s.crown.wrong.filter (fun x => !p x.1) },
    dram := { s.dram with
      dframes := ((s.dram.dframes.map (fun x =>
        let keep := word (((List.range 64).filter (fun k => !p (x.1 * 64 + k))).foldl (fun a k => a + 2 ^ k) 0)
        (x.1, { x.2 with present := x.2.present &&& keep, dirty := x.2.dirty &&& keep })))).filter
          (fun x => x.2.present != 0#64) } }
  spans.foldl State.startClear s

/-! The budget in force (02 R63 to R68). -/

/-- HYST_GIB in bytes; 0 acts as 1 (02 Table 2.16). -/
def State.hystBytes (s : State) : Nat := max 1 (s.get F.PW_DESTAGE_CTL.HYST_GIB) * 2 ^ 30

/-- START_PCT, at most 100. -/
def State.startPct (s : State) : Nat := min 100 (s.get F.PW_DESTAGE_CTL.START_PCT)

/-- STOP_PCT, below START_PCT. -/
def State.stopPct (s : State) : Nat := min (s.get F.PW_DESTAGE_CTL.STOP_PCT) (s.startPct - 1)

/-- Write-through follows the effective budget; its entry sets the flag (02 R67). -/
def State.checkWriteThrough (s : State) : State :=
  if s.effGib = 0 then
    if s.lines.writeThrough then s
    else { s with lines := { s.lines with writeThrough := true } }.raise F.PW_PERSIST_STATUS.WRITE_THROUGH
  else { s with lines := { s.lines with writeThrough := false } }

/-- Credits are withheld when the level reaches the budget and return at the budget less the hysteresis
(02 R68). Under write-through the level is that of the stores in flight and withholds nothing by itself. -/
def State.checkThrottle (s : State) : State :=
  if s.lines.throttled then
    if s.dirtyLevel ≤ s.budgetBytes - s.hystBytes then { s with lines := { s.lines with throttled := false } }
    else s
  else if s.effGib ≠ 0 ∧ s.budgetBytes ≤ s.dirtyLevel then
    { s with lines := { s.lines with throttled := true } }.raise F.PW_PERSIST_STATUS.THROTTLE_ENTERED
  else s

/-- Destage starts at START_PCT of the budget and stops below STOP_PCT (02 R69); under write-through it
runs while a line is dirty. -/
def State.checkDestage (s : State) : State :=
  if s.effGib = 0 then { s with lines := { s.lines with destaging := !s.lines.dirty.isEmpty } }
  else if s.lines.destaging then
    if s.dirtyLevel * 100 < s.stopPct * s.budgetBytes then { s with lines := { s.lines with destaging := false } }
    else s
  else if s.startPct * s.budgetBytes ≤ s.dirtyLevel * 100 then { s with lines := { s.lines with destaging := true } }
  else s

/-- The budget rules after a change of the level or of a limit. -/
def State.checkBudget (s : State) : State := s.checkWriteThrough.checkThrottle.checkDestage

/-- The effective budget has fallen: BUDGET_LOWERED and throttling when the level lies above it
(02 R66). -/
def State.budgetChanged (s : State) (before : Nat) : State :=
  let s := s.checkWriteThrough
  let s := if s.effGib < before ∧ s.budgetBytes < s.dirtyLevel then
      let s := s.raise F.PW_PERSIST_STATUS.BUDGET_LOWERED
      if s.lines.throttled then s
      else { s with lines := { s.lines with throttled := true } }.raise F.PW_PERSIST_STATUS.THROTTLE_ENTERED
    else s
  s.checkThrottle.checkDestage

/-! Stripes that destage meets (08). -/

/-- Width of tier P groups, data units per row, groups. -/
def State.pWidth (s : State) : Nat := s.get F.ST_P_CFG.WIDTH
def State.pGroups (s : State) : Nat := s.get F.ST_P_CFG.GROUPS

/-- Members of a tier P group in member order. -/
def State.groupMembers (s : State) (g : Nat) : List (Nat × Member) :=
  s.stripe.members.filter (fun x => x.1 < 32 && x.2.group == g)

/-- A member of the group is unavailable, so writes to its rows are deferred (08 R240). -/
def State.groupDeferred (s : State) (g : Nat) : Bool :=
  (s.groupMembers g).any (fun x => x.2.st == .unavailable)

/-- The Skim journal of a group. -/
def State.skim (s : State) (g : Nat) : Skim := SMap.findD s.stripe.skim g {}

/-- The Skim journal of a group replaced. -/
def State.putSkim (s : State) (g : Nat) (k : Skim) : State :=
  { s with stripe := { s.stripe with skim := SMap.put s.stripe.skim g k } }

/-- The rows that wait go into the next LIST: at most 1,000 less the rows carried over; one journal write
in flight per group (08 R243). -/
def State.startJournal (s : State) (g : Nat) : State :=
  let k := s.skim g
  if k.writing || k.waiting.isEmpty then s
  else
    let n := 1000 - k.inFlight.length
    s.putSkim g { k with batch := k.waiting.take n, waiting := k.waiting.drop n, writing := true }

/-- A row is to be written: it waits for a LIST that names it (08 R243). -/
def State.queueRow (s : State) (g row : Nat) : State :=
  let k := s.skim g
  if k.waiting.contains row || k.batch.contains row then s
  else (s.putSkim g { k with waiting := k.waiting ++ [row] }).startJournal g

/-- The lowest free slot of tier P: group and slot, groups in order (placement is local and has no
visible effect, 04 R130; DESIGN CHOICE, log entry 11). -/
def State.freeSlot (s : State) : Option (Nat × Nat) :=
  let per := s.tier.pFrames / max 1 s.pGroups
  (List.range s.pGroups).findSome? (fun g =>
    let used := s.tier.pmap.foldl (fun acc x => if x.2.1 = g then insertSorted x.2.2 acc else acc) []
    let used := s.lines.running.foldl (fun acc x => if x.2.1 = g then insertSorted x.2.2.1 acc else acc) used
    let n := lowestFreeFrom 0 used
    if n < per then some (g, n) else none)

/-- Dirty lines of a frame as a mask. -/
def State.dirtyMask (s : State) (f : Nat) : Word :=
  word (((List.range 64).filter (fun k => SMap.has s.lines.dirty (f * 64 + k))).foldl (fun a k => a + 2 ^ k) 0)

/-- A frame's destage pass starts; a span that lies in tier F moves to P first (02 R71; 04 R133), and a frame whose
encryption failed waits for its retry (12 R354). -/
def State.destageStart (s : State) (f : Nat) : State :=
  let sp := spanOfFrame f
  if SMap.has s.lines.running f || s.dirtyMask f == 0#64 || s.volatile (boltOfFrame f) || s.cipher.retries.contains f then s
  else
    match s.span sp with
    | some r =>
      if r.home == .f then s.startPromotion sp
      else
        let place := match SMap.find s.tier.pmap f with | some p => some p | none => s.freeSlot
        match place with
        | some (g, slot) =>
          if s.groupDeferred g then s
          else
            let row := slot / max 1 (s.pWidth - 2)
            let old := SMap.has s.tier.pmap f
            let rmw := s.dirtyMask f != fullBe && old
            let s := { s with lines := { s.lines with running := SMap.put s.lines.running f (g, slot, rmw) } }
            s.queueRow g row
        | none => s
    | none => s

/-- The span of the oldest dirty line, of those that may be destaged (02 R70). -/
def State.oldestSpan (s : State) : Option Nat :=
  (s.lines.dirty.foldl (fun (acc : Option (Nat × Nat)) x =>
    match acc with
    | some (_, o) => if x.2.ord < o then some (spanOfLine x.1, x.2.ord) else acc
    | none => some (spanOfLine x.1, x.2.ord)) none).map Prod.fst

/-- Dirty frames of a span. -/
def State.dirtyFrames (s : State) (sp : Nat) : List Nat :=
  nub ((s.lines.dirty.filter (fun x => spanOfLine x.1 == sp)).map (fun x => frameOfLine x.1))

/-- Destage in the states where the device does it: service open, and the down path up to the save
(02 R69 to R71; 13 R376). -/
def State.mayDestage (s : State) : Bool := s.power.state == 14 || s.power.state == 13

/-- The frames due for destage are put on their way: those queued, and every dirty frame of the span with
the oldest dirty line while destage runs (02 R69, R70). -/
def State.planDestage (s : State) : State :=
  if !s.mayDestage then s
  else
    let s := s.lines.destageQ.foldl State.destageStart s
    if s.lines.destaging then
      match s.oldestSpan with
      | some sp => (s.dirtyFrames sp).foldl State.destageStart s
      | none => s
    else s

end Sys2Proof.Machine
end

