-- ==== Sys2Proof/Machine/Places.lean ====
section
/-! DEFINITION. Stripes as places, the flash map and its changes, the moves between tiers P and F, and the counts of
Float (04 R131 to R145; 07 R207 to R220; 08 R232 to R237). -/

namespace Sys2Proof.Machine

open Sys2Proof

/-! Places in tier P (08 R233 to R236). -/

/-- Row of a tier P data slot (08 R236). -/
def State.rowOf (s : State) (slot : Nat) : Nat := slot / max 1 (s.pWidth - 2)

/-- Rows of a group. -/
def State.groupRows (s : State) : Nat := s.tier.pFrames / max 1 s.pGroups / max 1 (s.pWidth - 2)

/-- The module at a position of a group. -/
def State.moduleAt (s : State) (g pos : Nat) : Option Nat :=
  ((s.groupMembers g).find? (fun x => x.2.pos == pos)).map Prod.fst

/-- The modules that hold the units of one data slot's write: the data unit, P and Q (08 R239). -/
def State.slotModules (s : State) (g slot : Nat) : List Nat :=
  let w := s.pWidth
  let r := s.rowOf slot
  [dataPos w r (slot % max 1 (w - 2)), parityP w r, parityQ w r].filterMap (s.moduleAt g)

/-- Frame slots of the save area on one of its modules (08 R233; 04 R143). -/
def State.saveShare (s : State) (m : Nat) : Nat :=
  if s.image.saveModules.contains m then
    s.get F.PW_ENERGY_DECL.SAVE_AREA_GIB * 2 ^ 18 / max 1 s.image.saveModules.length
  else 0

/-- The frame slot of the unit of a row on a module: save area, Skim journal, spare region, data region
(08 R233). -/
def State.unitSlot (s : State) (m row : Nat) : Nat :=
  s.saveShare m + 4096 + s.get F.ST_P_CFG.P_SPARE * ceilDiv s.groupRows (max 1 (s.pWidth - 1)) + row

/-! Float (04 R145). -/

/-- Key of a Float region: module and region. -/
def regionKey (m slot : Nat) : Nat := m * 2 ^ 20 + slot / 4095

/-- PSI; 0 acts as 1. -/
def State.psi (s : State) : Nat := max 1 (s.get F.ST_FLOAT_CTL.PSI)

/-- A region: one not listed has taken no write, and its mapping starts where the module's random value puts it (04 Float). -/
def State.region (s : State) (k : Nat) : Region :=
  SMap.findD s.tier.regions k
    { start := match SMap.find s.tier.floatSeed (k / 2 ^ 20) with | some x => Config.floatStart x (k % 2 ^ 20) % 4096 | none => 0 }

/-- The region that holds the contents of region `k` after swaps (04 Float). -/
def State.regionOf (s : State) (k : Nat) : Nat :=
  match s.tier.regions.find? (fun x => x.2.holds == some k) with | some x => x.1 | none => k

/-- A frame write to a slot of a module counted, in the region that holds the slot now (04 R145). -/
def State.floatWrite (s : State) (m slot : Nat) : State :=
  let k := s.regionOf (regionKey m slot)
  let r := s.region k
  let regions := SMap.put s.tier.regions k { r with writes := r.writes + 1, sinceGap := r.sinceGap + 1 }
  { s with tier := { s.tier with
      regions := regions, modWrites := SMap.updD s.tier.modWrites m 0 (fun n => n + 1) } }

/-- Where the unit of a row on a member is written: its own slot, the substitute of a member out of service, or nowhere
(08 R240, R251). -/
def State.unitPlace (s : State) (m row : Nat) : Option (Nat × Nat) :=
  let up : Bool := match SMap.find s.stripe.members m with | some x => x.st == .inService | none => false
  if up then some (m, s.unitSlot m row)
  else match s.stripe.subst.find? (fun e => e.1 == m && e.2.1 == row) with
    | some e => some (e.2.2, s.saveShare e.2.2 + 4096 + row / max 1 (s.pWidth - 1))
    | none => none

/-- The unit writes of one frame write counted (08 R239, R240). -/
def State.floatFrame (s : State) (g slot : Nat) : State :=
  ((s.slotModules g slot).filterMap (fun m => s.unitPlace m (s.rowOf slot))).foldl (fun s x => s.floatWrite x.1 x.2) s

/-! The flash map (07 R207 to R216). -/

/-- Data slots of a band of width `w` (08 R237). -/
def State.bandCap (s : State) (w : Nat) : Nat := s.get F.ST_F_CFG.PAGES * 4 * (w - 2)

/-- Bands of the device: the blocks of the channels divided among members (07 R216; 08 R237). -/
def State.bandCount (s : State) : Nat :=
  match s.flash.build with
  | some b => b.blocksPerChannel * b.channels / max 1 s.fWidth
  | none => 0

/-- A journal record made: it takes the next SEQ and waits to be written (07 R213). -/
def State.journal (s : State) (type frame count key loc : Nat) (mask : List Nat) : State :=
  let rec_ : JRec := { seq := s.flash.jseq, type := type, frame := frame, count := count, key := key, loc := loc, mask := mask }
  { s with flash := { s.flash with
      jseq := s.flash.jseq + 1, ring := s.flash.ring ++ [rec_], jpending := s.flash.jpending + 1 } }

/-- SPAN_SET: a span lies in the run that starts at an address. -/
def State.jSpanSet (s : State) (sp a : Nat) (frames : List Nat) : State := s.journal 1 0 frames.length sp a frames

/-- FRAME_SET: a frame of a frame-mapped span lies at an address. -/
def State.jFrameSet (s : State) (sp k a : Nat) : State := s.journal 2 k 0 sp a []

/-- BAND_STATE (07 Table 7.7). -/
def State.jBand (s : State) (b : Nat) (st : BandSt) : State :=
  s.journal 6 (match st with | .free => 0 | .opened => 1 | .closed => 2 | .victim => 3 | .eligible => 4 | .erasing => 5) 0 b 0 []

/-- A band replaced. -/
def State.putBand (s : State) (b : Nat) (x : Band) : State :=
  { s with flash := { s.flash with bands := SMap.put s.flash.bands b x } }

/-- A band whose frames are all invalid becomes ELIGIBLE; in foreground mode a band that Fulling reclaimed issues its credits at
this moment (07 R212, R219; which moment is a DESIGN CHOICE, log entry 104). -/
def State.checkEligible (s : State) (b : Nat) : State :=
  match SMap.find s.flash.bands b with
  | some x =>
    if x.valid = 0 ∧ (x.st = .closed ∨ x.st = .victim) then
      let s := (s.putBand b { x with st := .eligible }).jBand b .eligible
      if s.get F.FL_FULL_STAT.MODE = 2 ∧ x.st = .victim then
        { s with flash := { s.flash with credits := s.flash.credits + (s.bandCap x.width - x.copied) } }
      else s
    else s
  | none => s

/-- Frames released: each band holds fewer valid frames (07 R212 step 3). -/
def State.release (s : State) (l : List Nat) : State :=
  l.foldl (fun s a =>
    let b := a / 2 ^ 20
    match SMap.find s.flash.bands b with
    | some x => (s.putBand b { x with valid := x.valid - 1 }).checkEligible b
    | none => s) s

/-- A band closed (07 R216; 08 R238). -/
def State.closeBand (s : State) (b : Nat) : State :=
  match SMap.find s.flash.bands b with
  | some x => ((s.putBand b { x with st := .closed, closeDt := s.now }).jBand b .closed).checkEligible b
  | none => s

/-- The lowest FREE band. -/
def State.freeBand (s : State) : Option Nat :=
  let used := SMap.keys (s.flash.bands.filter (fun x => x.2.st != .free))
  let b := lowestFreeFrom 0 used
  if b < s.bandCount then some b else none

/-- Room for a run of `n` slots in an open band of a kind; a FREE band is opened when none has room, and at
most four bands of a kind are open (07 R208, R216; which band is a DESIGN CHOICE, log entry 23). -/
def State.bandRoom (s : State) (n : Nat) (fulling : Bool) : Option (Nat × Nat × State) :=
  let w := s.fWidth
  let cap := s.bandCap w
  let opened := s.flash.bands.filter (fun x => x.2.st == .opened && x.2.fulling == fulling)
  match opened.find? (fun x => x.2.width == w && decide (x.2.next + n ≤ cap)) with
  | some (b, x) => some (b, x.next, s.putBand b { x with next := x.next + n })
  | none =>
    if cap < n then none
    else
      let s := if opened.length < 4 then s else match opened with | (b, _) :: _ => s.closeBand b | [] => s
      match s.freeBand with
      | some b =>
        let x : Band := { st := .opened, valid := 0, closeDt := 0, refresh := false, fulling := fulling,
                          copied := 0, width := w, next := n }
        some (b, 0, (s.putBand b x).jBand b .opened)
      | none => none

/-- Tier F may start a program or an erase (07 R203, R222). -/
def State.mayProgram (s : State) : Bool :=
  decide (s.power.state < 16) && s.get F.IS_FUNC_STOPPED.FLASH_GROUP == 0

/-- A change put on its way: the target run is reserved, and credits are taken where they are due (07 R212,
R219). Nothing happens where tier F may not program, has no room or no credits. -/
def State.startChange (s : State) (kind : ChgKind) (sp : Nat) (frames src : List Nat) (fulling credit : Bool) : State :=
  let n := frames.length
  let mode := s.get F.FL_FULL_STAT.MODE
  if !s.mayProgram || frames.isEmpty then s
  else if credit && (mode == 3 || (mode == 2 && decide (s.flash.credits < n))) then s
  else match s.bandRoom n fulling with
    | none => s
    | some (b, slot, s) =>
      let c : FChange := { id := s.flash.nextChange, kind := kind, span := sp, frames := frames, src := src,
                           band := b, slot := slot, fulling := fulling, programmed := false }
      { s with flash := { s.flash with
          changes := s.flash.changes ++ [c], nextChange := s.flash.nextChange + 1,
          credits := if credit && mode == 2 then s.flash.credits - n else s.flash.credits } }

/-- The pool of fine blocks: FINE_SPANS as last taken up, at most 0x4_0000 (07 Table 7.17). -/
def State.fineLimit (s : State) : Nat := min 0x40000 s.flash.finePool

/-- A span-mapped span becomes frame-mapped; no data moves (07 R210). Left alone when the pool is full. -/
def State.toFine (s : State) (sp : Nat) : State :=
  match SMap.find s.flash.map sp with
  | none => s
  | some e =>
    if e.fine.isSome || decide (s.fineLimit ≤ s.flash.fine.length) then s
    else
      let ix := lowestFreeFrom 0 (SMap.keys s.flash.fine)
      let blk := e.written.foldl (fun m k => match s.fpaOf sp k with | some a => SMap.put m k a | none => m) []
      let s := { s with flash := { s.flash with
          fine := SMap.put s.flash.fine ix blk, map := SMap.put s.flash.map sp { e with fine := some ix } } }
      s.journal 5 0 0 sp ix []

/-- A frame-mapped span is packed into a new run (07 R211). -/
def State.toSpan (s : State) (sp : Nat) : State :=
  match SMap.find s.flash.map sp with
  | some e =>
    if e.fine.isSome && !s.flash.changes.any (fun c => c.span == sp) then
      s.startChange .toSpan sp e.written (s.fpasOf sp) true false
    else s
  | none => s

/-- The frame-mapped span with the lowest LAST_SUBW_S (07 R211). -/
def State.oldestFine (s : State) : Option Nat :=
  (s.flash.map.foldl (fun (acc : Option (Nat × Nat)) x =>
    if x.2.fine.isSome then
      match acc with
      | some (_, t) => if x.2.lastSubw < t then some (x.1, x.2.lastSubw) else acc
      | none => some (x.1, x.2.lastSubw)
    else acc) none).map Prod.fst

/-- A sub-span write counted in its window of 1 s, with the promotion that it may cause (07 R210, R211). -/
def State.countSubw (s : State) (sp : Nat) : State :=
  match SMap.find s.flash.map sp with
  | none => s
  | some e =>
    let sec := s.now / 1000000000
    let win := sec % 2 ^ 24
    let n := min 255 ((if e.window = win then e.subw else 0) + 1)
    let e := { e with subw := n, window := win, lastSubw := sec % 2 ^ 32 }
    let s := { s with flash := { s.flash with map := SMap.put s.flash.map sp e } }
    if s.get F.FL_MAP_CTL.PROMOTE_WRITES < n && e.fine.isNone then
      if s.flash.fine.length < s.fineLimit then s.toFine sp
      else match s.oldestFine with | some o => s.toSpan o | none => s
    else s

/-- A copy of this run or frame is on its way. -/
def State.copying (s : State) (sp : Nat) (frames src : List Nat) : Bool :=
  s.flash.changes.any (fun c => c.span == sp && c.frames == frames && c.src == src)

/-- Frames of a span in tier F written anew: the whole run of a span-mapped span, its own frames of a frame-mapped one; those on
their way already are left (07 R209, R210). A refresh goes to a Fulling band and needs no credits (07 R216, R219). -/
def State.rewrite (s : State) (sp : Nat) (frames : List Nat) (refresh : Bool) : State :=
  match SMap.find s.flash.map sp with
  | none => s
  | some e =>
    match e.fine with
    | none =>
      if s.copying sp e.written [fpa e.band e.slot] then s
      else s.startChange .copyRun sp e.written [fpa e.band e.slot] refresh (!refresh)
    | some _ => frames.foldl (fun s k =>
        match s.fpaOf sp k with
        | some a => if s.copying sp [k] [a] then s else s.startChange .copyFrame sp [k] [a] refresh (!refresh)
        | none => s) s

/-- A sub-span write counted and put on its way (07 R209, R210). -/
def State.subSpanWrite (s : State) (sp : Nat) (frames : List Nat) (refresh : Bool) : State :=
  (s.countSubw sp).rewrite sp frames refresh

/-- The lifetime count of an error class (07 R228). -/
def State.classCount (s : State) (c n : Nat) : State :=
  { s with flash := { s.flash with
      classCounts := s.flash.classCounts.set c (s.flash.classCounts.getD c 0 + n) } }

/-- The commit of a change, if the map still names its source; its release follows (07 R212 steps 2, 3;
04 R135). -/
def State.commitChange (s : State) (c : FChange) : State :=
  let s := { s with flash := { s.flash with changes := s.flash.changes.filter (fun x => x.id != c.id) } }
  let n := c.frames.length
  let take (s : State) : State :=
    match SMap.find s.flash.bands c.band with
    | some x => s.putBand c.band { x with valid := x.valid + n }
    | none => s
  let copied (s : State) : State :=
    if c.fulling then c.src.foldl (fun s a =>
      match SMap.find s.flash.bands (a / 2 ^ 20) with
      | some x => s.putBand (a / 2 ^ 20) { x with copied := x.copied + (if c.kind = .copyRun then n else 1) }
      | none => s) s
    else s
  match c.kind with
  | .migrate =>
    match s.span c.span with
    | some r =>
      if r.move == some .f && r.home == .p && r.written == c.frames then
        let e : FSpan := { fine := none, refresh := false, band := c.band, slot := c.slot, wseq := s.flash.jseq,
                           subw := 0, window := 0, lastSubw := 0, written := c.frames }
        let s := take s
        let s := { s with
          tier := { s.tier with
            spans := SMap.put s.tier.spans c.span { r with home := .f, move := none },
            pmap := s.tier.pmap.filter (fun x => spanOfFrame x.1 != c.span) },
          flash := { s.flash with map := SMap.put s.flash.map c.span e } }
        (s.jSpanSet c.span (fpa c.band c.slot) c.frames).bump F.ST_MIG_COUNT.DEMOTED 0 1
      else s
    | none => s
  | .copyRun =>
    match SMap.find s.flash.map c.span with
    | some e =>
      if e.fine.isNone && c.src == [fpa e.band e.slot] && e.written == c.frames then
        let old := s.fpasOf c.span
        let s := copied (take s)
        let s := if e.refresh then s.classCount 8 n else s
        let s := { s with flash := { s.flash with
          map := SMap.put s.flash.map c.span { e with band := c.band, slot := c.slot, refresh := false } } }
        (s.jSpanSet c.span (fpa c.band c.slot) c.frames).release old
      else s
    | none => s
  | .copyFrame =>
    match SMap.find s.flash.map c.span, c.frames, c.src with
    | some e, k :: _, a :: _ =>
      match e.fine with
      | some ix =>
        if s.fpaOf c.span k = some a then
          let s := copied (take s)
          let s := if e.refresh then s.classCount 8 1 else s
          let s := { s with flash := { s.flash with
            fine := SMap.upd s.flash.fine ix (fun m => SMap.put m k (fpa c.band c.slot)),
            map := SMap.put s.flash.map c.span
              { e with refresh := e.refresh && s.flash.changes.any (fun x => x.span == c.span) } } }
          (s.jFrameSet c.span k (fpa c.band c.slot)).release [a]
        else s
      | none => s
    | _, _, _ => s
  | .toSpan =>
    match SMap.find s.flash.map c.span with
    | some e =>
      match e.fine with
      | some ix =>
        if s.fpasOf c.span == c.src && e.written == c.frames then
          let s := copied (take s)
          let s := { s with flash := { s.flash with
            fine := SMap.del s.flash.fine ix,
            map := SMap.put s.flash.map c.span { e with fine := none, band := c.band, slot := c.slot } } }
          (s.jSpanSet c.span (fpa c.band c.slot) c.frames).release c.src
        else s
      | none => s
    | none => s

/-- A span leaves the flash map: its frames are released and its fine block freed (07 R212, R223). -/
def State.dropFSpan (s : State) (sp : Nat) : State :=
  match SMap.find s.flash.map sp with
  | none => s
  | some e =>
    let old := s.fpasOf sp
    let s := { s with flash := { s.flash with
      map := SMap.del s.flash.map sp,
      fine := (match e.fine with | some ix => SMap.del s.flash.fine ix | none => s.flash.fine),
      changes := s.flash.changes.filter (fun c => c.span != sp) } }
    (s.journal 3 0 0 sp 0 []).release old

/-! Demotion (04 R134). -/

/-- Frames of spans on their way to tier F that `sel` picks. -/
def State.leaving (s : State) (sel : Nat → Bool) : Nat :=
  ((s.tier.spans.filter (fun x => x.2.move == some .f && sel x.1)).map (fun x => x.2.written.length)).foldl (· + ·) 0

/-- Tenant of a span. -/
def State.spanTenant (s : State) (sp : Nat) : Nat := s.tenantOf (boltOfSpan sp)

/-- A tenant's tier P use exceeds its P quota, or a bolt's spans in P exceed its P cap, when what is on its way
to F is set aside (04 R134; 01 R20). -/
def State.overP (s : State) (sp : Nat) : Bool :=
  let t := s.spanTenant sp
  let q := s.quota t
  let e := s.entry (boltOfSpan sp)
  (q.p != 0 && decide (q.p + s.leaving (fun x => s.spanTenant x == t) < s.useIn .p t))
  || (e.pCap != 0 && decide (e.pCap + (s.tier.spans.filter (fun x => x.2.move == some .f && boltOfSpan x.1 == boltOfSpan sp)).length
        < s.boltSpans .p (boltOfSpan sp)))

/-- A tenant stands at its F quota, or a bolt at its F cap (04 Table 4.3; 01 R20). -/
def State.atF (s : State) (sp : Nat) : Bool :=
  let t := s.spanTenant sp
  let q := s.quota t
  let e := s.entry (boltOfSpan sp)
  (q.f != 0 && decide (q.f ≤ s.useIn .f t + s.leaving (fun x => s.spanTenant x == t)))
  || (e.fCap != 0 && decide (e.fCap ≤ s.boltSpans .f (boltOfSpan sp)
        + (s.tier.spans.filter (fun x => x.2.move == some .f && boltOfSpan x.1 == boltOfSpan sp)).length))

/-- A tenant's tier P use exceeds its P quota, or a bolt's spans in P its P cap (04 Table 4.9; 01 R20). -/
def State.usesOverP (s : State) (sp : Nat) : Bool :=
  let t := s.spanTenant sp
  let e := s.entry (boltOfSpan sp)
  ((s.quota t).p != 0 && decide ((s.quota t).p < s.useIn .p t))
  || (e.pCap != 0 && decide (e.pCap < s.boltSpans .p (boltOfSpan sp)))

/-- A span may be demoted: home P, not pinned, no dirty line, not on its way, its tenant below its F quota
(04 R134, R137). -/
def State.mayDemote (s : State) (sp : Nat) (r : SpanRec) : Bool :=
  r.home == .p && r.pin == .none && r.move == none && !s.spanDirty sp && !s.atF sp

/-- The coldest span that `p` selects; of equal heat the one used least recently (04 R134). -/
def coldest (l : SMap SpanRec) (p : Nat → SpanRec → Bool) : Option Nat :=
  (l.foldl (fun (acc : Option (Nat × SpanRec)) x =>
    if p x.1 x.2 then
      match acc with
      | some (_, r) =>
        if x.2.heat < r.heat || (x.2.heat == r.heat && decide (x.2.lastUse < r.lastUse)) then some x else acc
      | none => some x
    else acc) none).map Prod.fst

/-- A span starts to move to F. -/
def State.startDemotion (s : State) (sp : Nat) : State :=
  { s with tier := { s.tier with spans := SMap.upd s.tier.spans sp (fun r => { r with move := some .f }) } }

/-- P_HIGH_PCT; at or below P_LOW_PCT it acts as P_LOW_PCT + 1 (04 Table 4.7). -/
def State.pHigh (s : State) : Nat :=
  max (s.get F.ST_TIER_CTL.P_HIGH_PCT) (s.get F.ST_TIER_CTL.P_LOW_PCT + 1)

/-- Spans chosen for demotion, one by one (04 R134). -/
def State.demoteLoop (s : State) (n : Nat) : State :=
  match n with
  | 0 => s
  | k + 1 =>
    match coldest s.tier.spans (fun sp r => s.mayDemote sp r && s.overP sp) with
    | some sp => (s.startDemotion sp).demoteLoop k
    | none =>
      if s.tier.demoting && decide ((s.freeP + s.leaving (fun _ => true)) * 100 < s.pHigh * s.tier.pFrames) then
        match coldest s.tier.spans s.mayDemote with
        | some sp => (s.startDemotion sp).demoteLoop k
        | none => s
      else s

/-- Moves that wait for tier F: their copies start as room and credits allow; a demotion that waits for room
sets F_FULL (04 Table 4.2; 07 R218, R219). -/
def State.planMoves (s : State) : State :=
  (s.tier.spans.filter (fun x => x.2.move == some .f
      && !s.flash.changes.any (fun c => c.span == x.1 && c.kind == .migrate))).foldl
    (fun s x =>
      let n := x.2.written.length
      if s.freeF < n + (s.flash.changes.filter (fun c => c.kind == .migrate)).foldl (fun a c => a + c.frames.length) 0
          || s.get F.FL_FULL_STAT.MODE == 3 then
        if s.isSet F.ST_TIER_STATUS.F_FULL 0 then s else s.raise F.ST_TIER_STATUS.F_FULL
      else s.startChange .migrate x.1 x.2.written [] false true) s

/-- The demotion rule applied (04 R134; Table 4.3). -/
def State.checkDemotion (s : State) : State :=
  if s.tier.pFrames = 0 then s
  else
    let dem := if s.freeP * 100 < s.get F.ST_TIER_CTL.P_LOW_PCT * s.tier.pFrames then true
               else s.tier.demoting && decide (s.freeP * 100 < s.pHigh * s.tier.pFrames)
    let s := { s with tier := { s.tier with demoting := dem } }
    let s := if s.tier.spans.any (fun x => x.2.home == .p && s.usesOverP x.1)
        && !s.isSet F.ST_TIER_STATUS.QUOTA_OVER 0 then s.raise F.ST_TIER_STATUS.QUOTA_OVER else s
    (s.demoteLoop s.tier.spans.length).planMoves

/-- The move of a span to tier P is committed: each frame gets a slot, and its flash frames are released
(04 R133, R135). It waits while tier P has no room. -/
def State.commitPromotion (s : State) (sp : Nat) (r : SpanRec) : State :=
  if s.freeP < r.written.length then s
  else
    let old := match SMap.find s.flash.map sp with | some e => e.written | none => []
    let s := old.foldl (fun s k =>
      match s.freeSlot with
      | some (g, slot) =>
        let s := { s with tier := { s.tier with pmap := SMap.put s.tier.pmap (sp * 256 + k) (g, slot) } }
        s.floatFrame g slot
      | none => s) s
    let s := s.dropFSpan sp
    let s := { s with tier := { s.tier with spans := SMap.put s.tier.spans sp { r with home := .p, move := none } } }
    s.bump F.ST_MIG_COUNT.PROMOTED 0 1

/-- A move of the span to tier F abandoned before its commit (04 Table 4.2). -/
def State.abandonDemotion (s : State) (sp : Nat) : State :=
  match s.span sp with
  | some r =>
    if r.move == some .f then
      { s with
        tier := { s.tier with spans := SMap.put s.tier.spans sp { r with move := none } },
        flash := { s.flash with changes := s.flash.changes.filter (fun c => !(c.span == sp && c.kind == .migrate)) } }
    else s
  | none => s

end Sys2Proof.Machine
end

