-- ==== Sys2Proof/Machine/Desc.lean ====
section
/-! DEFINITION. Queue entries and descriptors (09 R262 to R276): their words and fields, the checks of a descriptor, the
room of the rings, interrupts, the ERROR state, and the tiles and engines that a descriptor names (04 R147; 10 R289 to
R291). -/

namespace Sys2Proof.Machine

open Sys2Proof

/-! Queue entries (09 Table 9.1). -/

/-- Code of a queue state. -/
def QState.code (x : QState) : Nat := match x with | .stopped => 0 | .running => 1 | .error => 2 | .stopping => 3

/-- The source number of a queue (01 R44). -/
def queueSource (q : Nat) : Nat := q + 2 ^ 31

/-- The entry of a queue. -/
def State.queue (s : State) (q : Nat) : Option QEntry := SMap.find s.queues.table q

/-- The entry of a queue replaced. -/
def State.putQueue (s : State) (q : Nat) (e : QEntry) : State :=
  { s with queues := { s.queues with table := SMap.put s.queues.table q e } }

/-- The capture ring of a queue. -/
def State.cap (s : State) (q : Nat) : Cap := SMap.findD s.queues.caps q {}

/-- The capture ring of a queue replaced. -/
def State.putCap (s : State) (q : Nat) (c : Cap) : State :=
  { s with queues := { s.queues with caps := SMap.put s.queues.caps q c } }

/-- Descriptors of a queue fetched and not completed (09 Table 9.1). -/
def State.inFlight (s : State) (q : Nat) : Nat :=
  (s.queues.descs.filter (fun d => d.q == q && !d.own && d.st != .fetching && d.st != .writing)).length

/-- Word 0. -/
def QEntry.word0 (e : QEntry) : Word :=
  word (1 + bit e.capture * 2 + e.st.code * 4 + e.prio % 4 * 16 + e.tenant % 4096 * 256 + e.port % 128 * 2 ^ 20
    + e.ld % 16 * 2 ^ 28 + e.vector % 2048 * 2 ^ 32 + bit e.irqEn * 2 ^ 43 + e.irqCount % 256 * 2 ^ 48
    + e.irqUs % 256 * 2 ^ 56)
/-- Word 3. -/
def QEntry.word3 (e : QEntry) : Word :=
  word (e.sqHead % 65536 + e.sqTail % 65536 * 2 ^ 16 + e.cqTail % 65536 * 2 ^ 32 + e.cqHead % 65536 * 2 ^ 48)
/-- Word 4. -/
def QEntry.word4 (e : QEntry) (inFlight : Nat) : Word :=
  word (bit e.sqPhase + bit e.cqPhase * 2 + e.errCode % 256 * 2 ^ 8 + inFlight % 65536 * 2 ^ 16)
/-- Word 6. -/
def QEntry.word6 (e : QEntry) : Word := word (e.windowUs % 2 ^ 24 + e.winSeq % 2 ^ 32 * 2 ^ 32)
/-- Word 7. -/
def QEntry.word7 (e : QEntry) : Word := word (e.wrPtr % 2 ^ 30 + e.rdPtr % 2 ^ 30 * 2 ^ 32)

/-- Completions that the CQ has room for (09 R269). -/
def QEntry.room (e : QEntry) : Nat :=
  2 ^ e.cqLog2 - 1 - (e.cqTail + 2 ^ e.cqLog2 - e.cqHead) % 2 ^ e.cqLog2

/-! Interrupts (09 R275). -/

/-- The vector of a queue sent; dropped where its LD is detached or its port down. -/
def State.sendVector (s : State) (q : Nat) : State :=
  let s := { s with queues := { s.queues with irq := SMap.del s.queues.irq q } }
  match s.queue q with
  | some e =>
    if SMap.has s.bay.ldTenant (e.port * 16 + e.ld) && s.portUp e.port then s.msix e.port e.ld e.vector
    else s.raise F.QU_STATUS.IRQ_LOST
  | none => s

/-- An interrupt becomes pending for a completion entry whose store has completed. -/
def State.irqDue (s : State) (q : Nat) : State :=
  match s.queue q with
  | some e =>
    if !e.irqEn then s
    else
      let (n, t) := SMap.findD s.queues.irq q (0, s.now)
      let s := { s with queues := { s.queues with irq := SMap.put s.queues.irq q (n + 1, t) } }
      if max 1 e.irqCount ≤ n + 1 then s.sendVector q else s
  | none => s

/-! Errors. -/

/-- QU_ERR_LOG takes a queue or doorbell error (09 Table 9.12). -/
def State.logQueue (s : State) (q code port ld : Nat) : State :=
  (((s.put F.QU_ERR_LOG.QUEUE q).put F.QU_ERR_LOG.CODE code).put F.QU_ERR_LOG.PORT port).put F.QU_ERR_LOG.LD ld

/-- The queue enters ERROR (09 R264, R267). -/
def State.queueError (s : State) (q code port ld : Nat) : State :=
  match s.queue q with
  | some e => ((s.putQueue q { e with st := .error, errCode := code }).logQueue q code port ld).raiseArg F.QU_STATUS.Q_ERROR 0 (.log .QU_ERR_LOG 0)
  | none => s

/-! Fields of a descriptor (09 Table 9.4). -/

def descOp (d : LineData) : Nat := (lineByte d 0).toNat
def descFlags (d : LineData) : Nat := (lineByte d 1).toNat
def descPhase (d : LineData) : Bool := (lineByte d 1).getLsbD 0
def descIrq (d : LineData) : Bool := (lineByte d 1).getLsbD 1
def descNoCqe (d : LineData) : Bool := (lineByte d 1).getLsbD 2
def descParam (d : LineData) : Nat := bitsOf (lineWord d 0) 16 16
def descTag (d : LineData) : Nat := bitsOf (lineWord d 0) 32 32
def descSrc (d : LineData) : Nat := bitsOf (lineWord d 1) 0 56
def descDst (d : LineData) : Nat := bitsOf (lineWord d 2) 0 56
def descLen (d : LineData) : Nat := bitsOf (lineWord d 3) 0 40
/-- ARGS byte `i`. -/
def descArg (d : LineData) (i : Nat) : Nat := (lineByte d (32 + i)).toNat
/-- `n` ARGS bytes from `i` as a number. -/
def descArgs (d : LineData) (i n : Nat) : Nat := leNat ((List.range n).map (fun k => lineByte d (32 + i + k)))

/-- A descriptor with another SRC, DST and LEN: the part of it that lies in one bolt. -/
def descPart (d : LineData) (src dst len : Nat) : LineData :=
  lineOfWords [lineWord d 0, word src, word dst, word len, lineWord d 4, lineWord d 5, lineWord d 6, lineWord d 7]

/-- The operation writes a range, for step 4 of 01 Table 1.4 (09 R271). -/
def opWrites (op : Nat) : Bool := op == 5 || op == 6 || op == 7 || op == 8

/-! Tiles (04 R147, Table 4.5). -/

/-- Where a tile lies: rows, bytes of a row, pitch, base. -/
structure TileGeom where
  rows : Nat
  rowBytes : Nat
  pitch : Nat
  base : Nat
  deriving DecidableEq, Repr

/-- The geometry of a tile, if Table 4.5 allows it. -/
def tileGeom (layout esLog2 pitch cols base : Nat) : Option TileGeom :=
  let rb := cols * 2 ^ esLog2
  match layout with
  | 0 => if base % 262144 = 0 then some ⟨1, 262144, 0, base⟩ else none
  | 1 =>
    if base % 64 = 0 ∧ pitch % 64 = 0 ∧ 128 ≤ pitch ∧ pitch ≤ 2 ^ 25 then some ⟨2048, 128, pitch, base⟩ else none
  | 2 =>
    if esLog2 ≤ 4 ∧ rb ≠ 0 ∧ rb % 64 = 0 ∧ 262144 % rb = 0 ∧ base % 64 = 0 ∧ pitch % 64 = 0 ∧ rb ≤ pitch ∧ pitch ≤ 2 ^ 25
    then some ⟨262144 / rb, rb, pitch, base⟩ else none
  | _ => none

/-- Bytes from the base to the tile's end. -/
def TileGeom.extent (g : TileGeom) : Nat := (g.rows - 1) * g.pitch + g.rowBytes

/-- Every line of the tile lies in the bolt of its base. -/
def TileGeom.oneBolt (g : TileGeom) : Bool := boltOfOff g.base == boltOfOff (g.base + g.extent - 1)

/-- Range offset of byte `i` of the tile. -/
def TileGeom.at (g : TileGeom) (i : Nat) : Nat := g.base + i / g.rowBytes * g.pitch + i % g.rowBytes

/-- The tile that a TILE_FETCH names (10 Table 10.1). -/
def descTile (d : LineData) : Option TileGeom :=
  tileGeom (descArg d 2) (descArg d 3) (descArgs d 4 4) (descArgs d 8 4) (descSrc d)

/-! The checks of 09 R271. -/

/-- Step 1 for the fields that an opcode does not use, and for those whose values it limits (09 R270, Table 9.5;
10 R289 to R291). -/
def descFields (d : LineData) : Bool :=
  let src := lineWord d 1
  let dst := lineWord d 2
  let len := lineWord d 3
  let p := descParam d
  let noArgs := descArgs d 0 32 == 0
  let noSrc := src == 0#64
  let noDst := dst == 0#64
  let noLen := len == 0#64
  let hasLen := !noLen
  let high := bitsOf src 56 8 == 0 && bitsOf dst 56 8 == 0 && bitsOf len 40 24 == 0 && descFlags d < 8
  let engineOk := decide (descArg d 0 < 48)
  let setOk := engineOk || (decide (0xF0 ≤ descArg d 0) && decide (descArg d 0 ≤ 0xF5)) || descArg d 0 == 0xFF
  high && match descOp d with
  | 0x01 =>
    hasLen && p == 0 && noArgs
      && (decide (descSrc d + descLen d ≤ descDst d) || decide (descDst d + descLen d ≤ descSrc d))
  | 0x02 => hasLen && p == 0 && noSrc && descArgs d 8 24 == 0
  | 0x03 => hasLen && p == 0 && noSrc && noArgs
  | 0x04 => p < 2 && noSrc && noDst && noLen && noArgs
  | 0x05 => hasLen && p < 2 && noSrc && noArgs
  | 0x06 => hasLen && p < 2 && noSrc && noArgs
  | 0x07 => hasLen && p == 0 && noSrc && noArgs
  | 0x08 => hasLen && p == 0 && noSrc && noArgs
  | 0x09 =>
    p == 0 && noDst && noLen && engineOk && decide (descArg d 1 < 16) && descArgs d 12 20 == 0
      && (descTile d).isSome
      && (match descArg d 2 with
          | 0 => descArgs d 3 9 == 0
          | 1 => descArg d 3 == 0 && descArgs d 8 4 == 0
          | _ => true)
  | 0x0A =>
    hasLen && p == 0 && noDst && (if noSrc then decide (descLen d ≤ 32) else decide (descLen d ≤ 4080) && noArgs)
  | 0x0B =>
    noLen && p < 4096 && setOk && decide (descArg d 1 ≤ 64) && decide (descArg d 2 < 2) && descArg d 3 == 0
      && descArgs d 16 16 == 0 && descSrc d % 4096 == 0 && (descArg d 1 != 0 || noDst)
      && descArg d 15 == 0 && descArgs d 8 8 % 64 == 0 && (descArg d 2 == 1 || descArgs d 8 8 == 0)
  | 0x0C => hasLen && p < 2 && noArgs
  | _ => false

/-- Step 2: the opcode is allowed on the kind of the queue. -/
def descKind (d : LineData) (capture : Bool) : Bool :=
  if capture then descOp d == 0x0A || descOp d == 0x04 else descOp d != 0x0A

/-- The ranges that a descriptor names: first byte, length, whether written (09 R271). -/
def descRanges (d : LineData) : List (Nat × Nat × Bool) :=
  let n := descLen d
  match descOp d with
  | 0x01 => [(descSrc d, n, false), (descDst d, n, true)]
  | 0x02 => [(descDst d, n, true)]
  | 0x03 => [(descDst d, n, false)]
  | 0x05 | 0x06 | 0x07 | 0x08 => [(descDst d, n, true)]
  | 0x09 => match descTile d with | some g => [(g.base, g.extent, false)] | none => []
  | 0x0A => if descSrc d = 0 then [] else [(descSrc d, n, false)]
  | 0x0B =>
    [(descSrc d, 64, false)] ++ (if descArg d 1 = 0 then [] else [(descDst d, 8 * descArg d 1, false)])
      ++ (if descArg d 2 = 1 then [(descArgs d 8 7, 64, true)] else [])
  | 0x0C => [(descSrc d, n, false), (descDst d, 32, true)]
  | _ => []

/-- The bolts that a range touches. -/
def rangeBolts (lo n : Nat) : List Nat :=
  if n = 0 then [] else (List.range (boltOfOff (lo + n - 1) - boltOfOff lo + 1)).map (fun k => boltOfOff lo + k)

/-- Steps 3 and 4 of 01 Table 1.4 for one bolt and tenant: the code of the step that fails, with its flag. -/
def State.boltAccess (s : State) (b t : Nat) (write : Bool) (off : Nat) : State × Nat :=
  let e := s.entry b
  let acc := if e.access = 3 then 0 else e.access
  if s.get F.BL_RANGE_LIMIT.BOLTS ≤ b || !s.bound b then (s.raiseOff F.BL_STATUS.UNBOUND_ACCESS off, 13)
  else if e.tenant != t && (acc == 0 || (acc == 1 && write)) then (s.raiseOff F.BL_STATUS.TENANT_DENY off, 12)
  else (s, 0)

/-- Steps 3 and 4 for every bolt of the ranges; the first failure decides. -/
def State.rangeAccess (s : State) (t : Nat) (l : List (Nat × Nat × Bool)) : State × Nat :=
  l.foldl (fun (acc : State × Nat) r =>
    (rangeBolts r.1 r.2.1).foldl (fun (acc : State × Nat) b =>
      if acc.2 ≠ 0 then acc else acc.1.boltAccess b t r.2.2 (max r.1 (b * 2 ^ 36))) acc) (s, 0)

/-- The checks of R271 in order. A tile or a result block outside one bolt is refused before the tenant's right to it is
looked at (04 R147; 10 R291). -/
def State.checkDesc (s : State) (e : QEntry) (d : LineData) : State × Nat :=
  if !descFields d then (s, 7)
  else if !descKind d e.capture then (s, 12)
  else
    let split : Bool := match descOp d with
      | 0x09 => (descTile d).any (fun g => !g.oneBolt)
      | _ => false
    if split then (s, 13) else s.rangeAccess e.tenant (descRanges d)

/-! Engines that a descriptor names (10 R290). -/

/-- Engine `e` is in service. -/
def State.engineUp (s : State) (e : Nat) : Bool := s.engines.enabled.contains e

/-- An engine's state. -/
def State.engine (s : State) (e : Nat) : Engine := SMap.findD s.engines.eng e {}

/-- An engine replaced. -/
def State.putEngine (s : State) (e : Nat) (g : Engine) : State :=
  { s with engines := { s.engines with eng := SMap.put s.engines.eng e g } }

/-- Jobs that an engine holds, queued and running (10 R287). -/
def Engine.held (g : Engine) : Nat := g.jobs.length + bit g.run.isSome

/-- The engine in service of a list with the fewest jobs, the lowest number on a tie. -/
def State.leastBusy (s : State) (l : List Nat) : Option Nat :=
  (l.filter s.engineUp).foldl (fun (acc : Option Nat) e =>
    match acc with
    | some m => if (s.engine e).held < (s.engine m).held then some e else acc
    | none => some e) none

/-- Engines of a cluster. -/
def clusterEngines (c : Nat) : List Nat := (List.range 8).map (fun k => c * 8 + k)

/-- The engine that a RUN or TILE_FETCH goes to. -/
def State.pickEngine (s : State) (d : LineData) : Option Nat :=
  let n := descArg d 0
  if descOp d = 0x09 then (if s.engineUp n then some n else none)
  else if n = 0xFF then s.leastBusy (List.range 48)
  else if 0xF0 ≤ n then s.leastBusy (clusterEngines (n - 0xF0))
  else if s.engineUp n then some n
  else s.leastBusy (clusterEngines (n / 8))

/-! Jobs (10 R295 to R300). -/

/-- What a request of an engine is for: the write-back of layer `n` from a slot (0 to 15) or of an SCT layer (16), the record of
layer `n` (17), the result header (18), the fetch of an operand of layer `n` (32 + slot), a fetch for the next job
(48 + slot). -/
def engKey (n c : Nat) : Nat := n * 64 + c

/-- The code that a job ends with (10 R306). -/
def Run.code (r : Run) : Nat := r.endCode.getD (bit r.poison)

/-- The job has come to its end: its layers are complete, or it ends early and nothing of it is being written. -/
def Run.over (r : Run) : Bool :=
  !r.closing && !r.layerRunning && r.wbs.isEmpty &&
    (r.endCode.isSome || (!r.prog.layers.isEmpty && r.layer == r.prog.layers.length))

/-- What ends a job early; the first cause stands. -/
def Run.stopWith (r : Run) (code layer fault : Nat) : Run :=
  if r.endCode.isSome then { r with layerRunning := false }
  else { r with endCode := some code, failed := some layer, fault := if fault = 0 then r.fault else fault, layerRunning := false }

/-- The result header (10 Table 10.7). -/
def Run.header (r : Run) (e now : Nat) : LineData :=
  lineOfBytes (leBytes 1 r.code ++ leBytes 1 r.fault ++ leBytes 2 r.completed ++ leBytes 2 (r.failed.getD 0xFFFF) ++ leBytes 1 e
    ++ leBytes 1 0 ++ leBytes 8 r.startDt ++ leBytes 8 now ++ leBytes 4 r.holdUs)

/-- A layer record (10 Table 10.7). -/
def Wb.record (w : Wb) : LineData :=
  lineOfBytes (leBytes 1 w.status ++ leBytes 1 w.flags ++ leBytes 2 0 ++ leBytes 4 w.cycles ++ w.value.take 56)

/-- The running job of an engine changed. -/
def State.updRun (s : State) (e : Nat) (f : Run → Run) : State :=
  let g := s.engine e
  match g.run with
  | some r => s.putEngine e { g with run := some (f r) }
  | none => s

/-! Descriptors in flight. -/

/-- The descriptor with a number. -/
def State.desc (s : State) (q ix : Nat) : Option Desc := s.queues.descs.find? (fun d => d.q == q && d.ix == ix)

/-- A descriptor replaced. -/
def State.putDesc (s : State) (d : Desc) : State :=
  { s with queues := { s.queues with
      descs := s.queues.descs.map (fun x => if x.q = d.q ∧ x.ix = d.ix then d else x) } }

/-- A descriptor removed. -/
def State.delDesc (s : State) (q ix : Nat) : State :=
  { s with queues := { s.queues with descs := s.queues.descs.filter (fun x => !(x.q == q && x.ix == ix)) } }

/-- A descriptor's operation ends with a code; the first code that is not DONE stands (09 R271, R274). -/
def State.endDesc (s : State) (q ix code : Nat) : State :=
  match s.desc q ix with
  | some d => s.putDesc { d with st := .ended, code := if d.code = 0 then code else d.code }
  | none => s

/-- A code noted for a descriptor that runs on. -/
def State.noteCode (s : State) (q ix code : Nat) : State :=
  match s.desc q ix with
  | some d => s.putDesc { d with code := if d.code = 0 then code else d.code }
  | none => s

/-- One part of a descriptor's work ended; with the last one the operation ends, or goes on where it has more to do. -/
def State.descPartDone (s : State) (q ix code : Nat) : State :=
  match s.desc q ix with
  | some d =>
    (match d.st with
     | .running n =>
       let c := if d.code = 0 then code else d.code
       let st := if 1 < n then .running (n - 1) else if d.more ∧ (c = 0 ∨ c = 1) then .loaded else .ended
       s.putDesc { d with code := c, st := st }
     | _ => s)
  | none => s

/-- The store of a completion entry, or of the device's own ring record, has ended (09 R264, R275). -/
def State.entryStored (s : State) (d : Desc) (code : Nat) : State :=
  let s := s.delDesc d.q d.ix
  if code ≠ 0 then s.queueError d.q code 0x7F 0
  else if d.notify then s.irqDue d.q else s

/-- A fetched descriptor as it stands in flight (09 R268, R271; 10 R290): its line was poisoned, or it is checked. -/
def State.takeFetched (s : State) (x : Desc) (data : LineData) (poison : Bool) (code : Nat) : State :=
  match s.queue x.q with
  | some e =>
    if e.st ≠ .running then s.delDesc x.q x.ix
    else if code ≠ 0 ∧ code ≠ 1 then (s.delDesc x.q x.ix).queueError x.q code 0x7F 0
    else if !poison && descPhase data != e.sqPhase then
      let s := s.delDesc x.q x.ix
      { s with queues := { s.queues with phaseStop := insertSorted x.q s.queues.phaseStop } }
    else
      let head := (e.sqHead + 1) % 2 ^ e.sqLog2
      let s := s.putQueue x.q { e with sqHead := head, sqPhase := if head = 0 then !e.sqPhase else e.sqPhase }
      if poison then s.putDesc { x with d := 0#512, st := .ended, code := 1, stamp := s.now }
      else
        let (s, c) := s.checkDesc e data
        let x := { x with d := data, stamp := s.now }
        if c ≠ 0 then s.putDesc { x with st := .ended, code := c }
        else if descOp data = 0x09 ∨ descOp data = 0x0B then
          match s.pickEngine data with
          | some n => s.putDesc { x with st := .fetched, engine := n }
          | none => s.putDesc { x with st := .ended, code := 8 }
        else s.putDesc { x with st := .fetched }
  | none => s.delDesc x.q x.ix

end Sys2Proof.Machine
end

