-- ==== Sys2Proof/Machine/Control.lean ====
section
/-! DEFINITION. What FLUSH, MIGRATE, PIN, UNPIN and DISCARD do to this device's copy of a range of one bolt (02 R82;
04 R133 to R138; 07 R223), and the release and copying in of spans (03 R124). -/

namespace Sys2Proof.Machine

open Sys2Proof

/-- Everything that this device holds of a span is released (03 R124; 07 R223). A pin stays until UNPIN (DEDUCED, log entry
33). -/
def State.releaseSpan (s : State) (sp : Nat) : State :=
  let s := s.dropLines (fun l => spanOfLine l == sp)
  let s := (s.zeroRange (sp * 1048576) 1048576).dropFSpan sp
  let kept : SMap SpanRec := match s.span sp with
    | some r =>
      if r.pin = .none then SMap.del s.tier.spans sp
      else SMap.put s.tier.spans sp { r with home := .p, heat := 0, move := none, written := [] }
    | none => s.tier.spans
  { s with
    tier := { s.tier with
      spans := kept,
      pmap := s.tier.pmap.filter (fun x => spanOfFrame x.1 != sp),
      volFrames := s.tier.volFrames.filter (fun f => spanOfFrame f != sp) },
    flash := { s.flash with changes := s.flash.changes.filter (fun c => c.span != sp) },
    lines := { s.lines with
      destageQ := s.lines.destageQ.filter (fun f => spanOfFrame f != sp),
      running := s.lines.running.filter (fun x => spanOfFrame x.1 != sp),
      again := s.lines.again.filter (fun x => spanOfFrame x.1 != sp) } }

/-- A line of a copy taken in: installed as dirty, poisoned where the survivor's is (02 R88; 03 R124). -/
def State.copyLine (s : State) (l : Nat) (d : LineData) (poison : Bool) : State :=
  let s := { s with lines := { s.lines with mask := SMap.del s.lines.mask l } }
  let s := s.putLine l fullBe d
  let s := if poison then s.poisonLine l 6 else s.clearPoison l
  let s := s.makeDirty l
  match s.cellAt l with
  | some (k, c) => { s with crown := { s.crown with cells := SMap.put s.crown.cells k { c with dirty := true } } }
  | none => s.putTierD l true

/-- The spans that a range touches. -/
def rangeSpans (lo n : Nat) : List Nat :=
  if n = 0 then [] else (List.range (spanOfOff (lo + n - 1) - spanOfOff lo + 1)).map (fun k => spanOfOff lo + k)

/-- The spans of a range that hold a written frame here. -/
def State.spansIn (s : State) (lo n : Nat) : List Nat :=
  SMap.keys (s.tier.spans.filter (fun x =>
    decide (spanOfOff lo ≤ x.1) && decide (x.1 ≤ spanOfOff (lo + n - 1)) && !x.2.written.isEmpty))

/-- What a part of a descriptor comes to: its code, and whether it goes on. -/
structure PartEnd where
  code : Nat
  waits : Bool
  deriving DecidableEq, Repr

/-! FLUSH (02 R82). -/

/-- Frames of a range that hold a dirty line. -/
def State.dirtyIn (s : State) (lo n : Nat) : List Nat :=
  nub ((s.lines.dirty.filter (fun x => decide (lineOfOff lo ≤ x.1) && decide (x.1 ≤ lineOfOff (lo + n - 1)))).map
    (fun x => frameOfLine x.1))

/-- Frames put down for destage whatever the level. -/
def State.queueFrames (s : State) (l : List Nat) : State :=
  { s with lines := { s.lines with destageQ := l.foldl (fun a f => insertSorted f a) s.lines.destageQ } }

/-- FLUSH of a range: its dirty frames are destaged; a VOLATILE bolt is skipped. -/
def State.ownFlush (s : State) (id lo n : Nat) : State × PartEnd :=
  let l := s.dirtyIn lo n
  -- a frame with lines stored during its running pass needs one more pass
  let twice := l.filter (fun f => SMap.findD s.lines.again f 0#64 != 0#64)
  if s.volatile (boltOfOff lo) || l.isEmpty then (s, ⟨0, false⟩)
  else
    let s := s.queueFrames l
    ({ s with lines := { s.lines with flushes := s.lines.flushes ++ [FlushWait.mk id (l ++ twice)] } }, ⟨0, true⟩)

/-! MIGRATE (04 R136). -/

/-- Frames of spans. -/
def State.framesOf (s : State) (l : List Nat) : Nat :=
  (l.map (fun sp => match s.span sp with | some r => r.written.length | none => 0)).foldl (· + ·) 0

/-- The tenant's use of a tier, or a bolt's spans in it, would pass its limit with these spans in it (04 R136, R138,
Table 4.3; 01 R20). -/
def State.overTier (s : State) (h : Home) (b : Nat) (l : List Nat) : Bool :=
  let t := s.tenantOf b
  let q := match h with | .p => (s.quota t).p | .f => (s.quota t).f
  let c := match h with | .p => (s.entry b).pCap | .f => (s.entry b).fCap
  (q != 0 && decide (q < s.useIn h t + s.framesOf l)) || (c != 0 && decide (c < s.boltSpans h b + l.length))

/-- MIGRATE of a range to tier F (`toF`) or P: every span that is not there moves; spans pinned are left at F's refusal.
The limits are checked by the active owner. -/
def State.ownMigrate (s : State) (id lo n : Nat) (toF check : Bool) : State × PartEnd :=
  let h : Home := if toF then .f else .p
  let l := (s.spansIn lo n).filter (fun sp => match s.span sp with | some r => r.home != h | none => false)
  let pinned := l.filter (fun sp => toF && (match s.span sp with | some r => r.pin != .none | none => false))
  let go := l.filter (fun sp => !pinned.contains sp)
  let code := if pinned.isEmpty then 0 else 12
  if check && s.overTier h (boltOfOff lo) go then (s, ⟨2, false⟩)
  else if go.isEmpty then (s, ⟨code, false⟩)
  else
    let s := if toF then s.queueFrames (go.foldl (fun a sp => a ++ s.dirtyFrames sp) []) else go.foldl State.startPromotion s
    let w : MoveWait := { id := id, target := toF, todo := if toF then go else [], going := if toF then [] else go }
    ({ s with tier := { s.tier with moves := s.tier.moves ++ [w] } }, ⟨code, true⟩)

/-- Spans that wait to be clean start to move, and those that have moved, or whose move a store has abandoned, are done;
the numbers of the MIGRATEs with none left (04 R135, Table 4.2). -/
def State.stepMoves (s : State) : State × List Nat :=
  if s.tier.moves.isEmpty then (s, [])
  else
    let ready := s.tier.moves.flatMap (fun w => w.todo.filter (fun sp => !s.spanDirty sp))
    let s := ready.foldl (fun s sp =>
      match s.span sp with
      | some r => if r.home == .p && r.move.isNone then s.startDemotion sp else s
      | none => s) s
    let s := if ready.isEmpty then s else s.planMoves
    let moving (sp : Nat) : Bool := match s.span sp with | some r => r.move.isSome | none => false
    let l := s.tier.moves.map (fun w => MoveWait.mk w.id w.target (w.todo.filter (fun sp => !ready.contains sp))
      ((w.going ++ w.todo.filter ready.contains).filter moving))
    let ended := (l.filter (fun w => w.todo.isEmpty && w.going.isEmpty)).map (fun w => w.id)
    ({ s with tier := { s.tier with moves := l.filter (fun w => !(w.todo.isEmpty && w.going.isEmpty)) } }, ended)

/-! PIN and UNPIN (04 R137, R138). -/

/-- The record of a span with a pin state; a span that holds nothing gets one. -/
def State.setPin (s : State) (sp : Nat) (x : Pin) : State :=
  let r : SpanRec := (s.span sp).getD
    { home := .p, heat := 0, pin := .none, move := none, written := [], lastUse := s.now }
  let r := { r with pin := x }
  { s with tier := { s.tier with
      spans := if x = .none ∧ r.written = [] then SMap.del s.tier.spans sp else SMap.put s.tier.spans sp r } }

/-- Every written line of a span made resident in tier D (04 R137). -/
def State.fillD (s : State) (sp : Nat) : State :=
  match s.span sp with
  | some r =>
    r.written.foldl (fun s k =>
      let f := sp * 256 + k
      let s := s.allocD f
      { s with dram := { s.dram with dframes := SMap.upd s.dram.dframes f (fun d => { d with present := fullBe }) } }) s
  | none => s

/-- The spans pinned to D made resident again, after a restart or the return of a channel group (04 R137). -/
def State.fillPins (s : State) : State :=
  (SMap.keys (s.tier.spans.filter (fun x => x.2.pin == .d))).foldl State.fillD s

/-- The spans of a range that a PIN would take beyond its tier's quota (04 R138): with `d`, 1 MiB of the D share for
each span of the range not pinned to D; else the frames of those that lie in tier F. -/
def State.overPin (s : State) (lo n : Nat) (d : Bool) : Bool :=
  let b := boltOfOff lo
  let t := s.tenantOf b
  if d then
    let fresh := (rangeSpans lo n).filter (fun sp => match s.span sp with | some r => r.pin != .d | none => true)
    let pins := s.tier.spans.filter (fun x => x.2.pin == .d && boltOfSpan x.1 == b)
    ((s.quota t).d != 0 && decide ((s.quota t).d < s.pinnedSpans .d t + fresh.length))
      || ((s.entry b).dCap != 0 && decide ((s.entry b).dCap < pins.length + fresh.length))
  else
    s.overTier .p b ((s.spansIn lo n).filter (fun sp => match s.span sp with | some r => r.home == .f | none => false))

/-- PIN of a range to tier D (`d`) or P. The quota is checked for the range by the active owner. -/
def State.ownPin (s : State) (lo n : Nat) (d check : Bool) : State × PartEnd :=
  if s.volatile (boltOfOff lo) then (s, ⟨12, false⟩)
  else if check && s.overPin lo n d then (s, ⟨2, false⟩)
  else
    ((rangeSpans lo n).foldl (fun s sp =>
      let s := (s.abandonDemotion sp).setPin sp (if d then .d else .p)
      let s := s.startPromotion sp
      if d then s.fillD sp else s) s, ⟨0, false⟩)

/-- UNPIN of a range. -/
def State.ownUnpin (s : State) (lo n : Nat) : State × PartEnd :=
  (((rangeSpans lo n).filter (fun sp => (s.span sp).isSome)).foldl (fun s sp => s.setPin sp .none) s, ⟨0, false⟩)

/-! DISCARD (07 R223). -/

/-- One frame freed: its lines, its charge and its place go. -/
def State.freeFrame (s : State) (f : Nat) : State :=
  let sp := spanOfFrame f
  let old := match s.fpaOf sp (f % 256) with | some a => [a] | none => []
  let s := (s.dropLines (fun l => frameOfLine l == f)).zeroRange (f * 4096) 4096
  let fine := match SMap.find s.flash.map sp with
    | some e => (match e.fine with | some ix => SMap.upd s.flash.fine ix (fun m => SMap.del m (f % 256)) | none => s.flash.fine)
    | none => s.flash.fine
  let spans := SMap.upd s.tier.spans sp (fun r => { r with written := removeNum (f % 256) r.written })
  let s := { s with
    tier := { s.tier with
      spans := spans, pmap := SMap.del s.tier.pmap f,
      volFrames := removeNum f s.tier.volFrames },
    flash := { s.flash with
      fine := fine, map := SMap.upd s.flash.map sp (fun e => { e with written := removeNum (f % 256) e.written }),
      changes := s.flash.changes.filter (fun c => !(c.span == sp && c.frames.contains (f % 256))) },
    lines := { s.lines with
      destageQ := removeNum f s.lines.destageQ, running := SMap.del s.lines.running f,
      again := SMap.del s.lines.again f } }
  if old.isEmpty then s else (s.journal 4 (f % 256) 0 sp 0 []).release old

/-- DISCARD in a span that the range covers in part: each frame wholly covered is freed, where its map entry allows it. -/
def State.discardPart (s : State) (sp lo n : Nat) : State :=
  let l := ((List.range 256).map (fun k => sp * 256 + k)).filter (fun f =>
    decide (lo ≤ f * 4096) && decide (f * 4096 + 4096 ≤ lo + n) && s.written f)
  if l.isEmpty then s
  else
    let s := s.toFine sp
    let ok := match SMap.find s.flash.map sp with | some e => e.fine.isSome | none => true
    let s := if ok then l.foldl State.freeFrame (s.countSubw sp) else s.raise F.FL_DEV_STATUS.FINE_POOL_FULL
    match s.span sp with
    | some r => if r.written.isEmpty then s.releaseSpan sp else s
    | none => s

/-- Poisoned lines that the range covers and no freed frame held become lines of zeros (02 R90). -/
def State.discardPoison (s : State) (lo n : Nat) : State :=
  (s.lines.poison.filter (fun l => decide (lo ≤ l * 64) && decide (l * 64 + 64 ≤ lo + n))).foldl (fun s l =>
    let s := s.copyLine l 0#512 false
    if s.needsSpan (spanOfLine l) then s.startSpanWrite (spanOfLine l) else s) s

/-- DISCARD of a range. Outside PAIRED the spans that it changes are due for a copy to the twin (DEDUCED, log entry 33). -/
def State.ownDiscard (s : State) (lo n : Nat) : State × PartEnd :=
  let b := boltOfOff lo
  let held := (rangeSpans lo n).filter (fun sp =>
    (s.span sp).isSome || s.tier.volFrames.any (fun f => spanOfFrame f == sp) || s.spanDirty sp)
  let s := held.foldl (fun s sp =>
    if lo ≤ sp * 1048576 ∧ sp * 1048576 + 1048576 ≤ lo + n then s.releaseSpan sp else s.discardPart sp lo n) s
  let s := s.discardPoison lo n
  let s := if s.mirrored b && !s.runsMirrored b then
      { s with lines := { s.lines with splitMap := held.foldl (fun a sp => insertSorted sp a) s.lines.splitMap } }
    else s
  (s, ⟨0, false⟩)

/-- This device's own part of a descriptor, for request `id` (09 Table 9.5). -/
def State.ownPart (s : State) (id : Nat) (d : LineData) (active : Bool) : State × PartEnd :=
  let lo := descDst d
  let n := descLen d
  match descOp d with
  | 0x03 => s.ownFlush id lo n
  | 0x05 => s.ownMigrate id lo n (descParam d == 1) active
  | 0x06 => s.ownPin lo n (descParam d == 0) active
  | 0x07 => s.ownUnpin lo n
  | 0x08 => s.ownDiscard lo n
  | _ => (s, ⟨7, false⟩)

end Sys2Proof.Machine
end

