-- ==== Sys2Proof/Machine/Path.lean ====
section
/-! DEFINITION. The path of a request (01 R29 to R45, R426; 02 R53 to R59, R77 to R81): its checks, its
target, its service at this device, its forwarding, its hold and its completion in order. -/

namespace Sys2Proof.Machine

open Sys2Proof

/-! The list of requests in hand, in the order they arrived. -/

/-- The request with a number. -/
def State.req (s : State) (id : Nat) : Option Req := s.bay.reqs.find? (fun r => r.id == id)

/-- A request replaced. -/
def State.putReq (s : State) (r : Req) : State :=
  { s with bay := { s.bay with reqs := s.bay.reqs.map (fun x => if x.id = r.id then r else x) } }

/-- A request removed. -/
def State.delReq (s : State) (id : Nat) : State :=
  { s with bay := { s.bay with reqs := s.bay.reqs.filter (fun x => x.id != id) } }

/-- The bolt of a request. -/
def reqBolt (r : Req) : Nat := boltOfOff r.offset

/-- A request not yet taken up at its place. -/
def preExec (st : ReqSt) : Bool :=
  match st with | .behind | .awaiting _ | .ctrlWait | .cacheMiss | .held _ _ | .credit => true | _ => false

/-- A request waits at the input of its Crown slice (05 R159 to R161). -/
def atSlice (st : ReqSt) : Bool := match st with | .sliceWait | .entryWait | .missWait => true | _ => false

/-- The request is a store. -/
def reqWrites (r : Req) : Bool := match r.op with | .write _ _ _ => true | _ => false

/-- The request carries out a descriptor. -/
def reqCtrl (r : Req) : Bool := match r.op with | .ctrl _ => true | _ => false

/-- The request counts as a write at step 4 of 01 Table 1.4 (09 R271). -/
def reqChanges (r : Req) : Bool :=
  match r.op with | .write _ _ _ => true | .ctrl d => opWrites (descOp d) | _ => false

/-- The request fetches a tile. -/
def reqTile (r : Req) : Bool := match r.op with | .tile _ _ _ => true | _ => false

/-- The request goes to the active owner: a store, or a descriptor other than a VERIFY (09 R273). -/
def reqActive (r : Req) : Bool :=
  match r.op with | .write _ _ _ => true | .ctrl d => descOp d != 0x0C | _ => false

/-- The requests ahead of one of the same source to the same bolt (01 R44). -/
def State.ahead (s : State) (r : Req) : List Req :=
  (s.bay.reqs.takeWhile (fun x => x.id != r.id)).filter (fun x => x.src == r.src && reqBolt x == reqBolt r)

/-- An earlier request of its source and bolt keeps a request from being taken up (01 R44, R45): one that has not been itself, or,
for a request over more than one line, a store that still waits at the Crown. -/
def State.mustWait (s : State) (r : Req) : Bool :=
  (s.ahead r).any (fun x => preExec x.st || (reqWrites x && atSlice x.st && (reqCtrl r || reqTile r)))

/-- A request with a result; it completes in order (01 R44). -/
def State.finish (s : State) (r : Req) (code : Nat) (data : LineData) (poison : Bool) : State :=
  s.putReq { r with st := .done { code := code, data := data, poison := poison } }

/-- A request that fails a step (01 R30): a read returns a line with the poison indicator, whose bytes
the spec does not state (log entry 2); a write is discarded. -/
def State.fail (s : State) (r : Req) (code : Nat) : State :=
  if reqWrites r || reqCtrl r || reqTile r then s.finish r code 0#512 false
  else
    let (k, s) := s.nextFree
    s.finish r code (Config.openLine k) true

/-- A request held, its window counted from its first hold or forward (01 R42, R43). The requests of its source and bolt that wait
behind it are held from now on too. -/
def State.hold (s : State) (r : Req) (why : HoldWhy) : State :=
  let t := r.since.getD s.now
  let s := s.putReq { r with since := some t, st := .held t why }
  { s with bay := { s.bay with reqs := s.bay.reqs.map (fun x =>
      if x.src = r.src ∧ reqBolt x = reqBolt r ∧ x.st = .behind ∧ x.since = none then { x with since := some s.now } else x) } }

/-- A request that waits behind an earlier one of its source and bolt; where that one is held, its window runs (01 R43, R44). -/
def State.waitBehind (s : State) (r : Req) : State :=
  let held := (s.ahead r).any (fun x => match x.st with | .held _ _ => true | .behind => x.since.isSome | _ => false)
  s.putReq { r with since := if held then some (r.since.getD s.now) else r.since, st := .behind }

/-- What this device may not complete for a bolt: a yielding, yielded or isolated device completes nothing of its pair's MIRRORED
bolts (03 R113, R114). -/
def State.stopsAt (s : State) (b : Nat) : Option HoldWhy :=
  if !(s.mirrored b && s.isPair b) then none
  else if s.twin.fenced then some .yielding
  else match s.twin.st with
    | .yielded => some .yielding
    | .isolated => some .isolated
    | _ => none

/-- A read of this device's own, or for a VERIFY or the twin, is no service of the bolt. -/
def ownRead (r : Req) : Bool :=
  match r.who with | .mirror _ _ _ => true | .part _ => true | .device => true | .keep _ => true | _ => false

/-- A served read completes with the line (02 R89); a device that has stopped serving the bolt meanwhile holds it (03 R113,
R114). -/
def State.finishRead (s : State) (r : Req) : State :=
  let l := lineOfOff r.offset
  if !ownRead r && (s.stopsAt (reqBolt r)).isSome then s.hold r ((s.stopsAt (reqBolt r)).getD .yielding)
  else if s.isPoison l then
    let (k, s) := s.nextFree
    s.finish r 1 (Config.openLine k) true
  else s.finish r 0 (s.line l) false

/-! The input of a Crown slice (05 R159 to R162). -/

/-- Requests before one in the list, taken up at this device's Crown or waiting at it. -/
def State.before (s : State) (r : Req) : List Req := s.bay.reqs.takeWhile (fun x => x.id != r.id)

/-- The requester has the privilege of the KEEP cores, the claim logic and the Plumb-line handler (05 R162). -/
def privileged (r : Req) : Bool := match r.who with | .keep _ => true | .device => true | _ => false

/-- A request waits for the fill of its line, or for the repair that follows it. -/
def inFill (st : ReqSt) : Bool := match st with | .filling | .repairing _ _ | .installing _ _ => true | _ => false

/-- A requester's miss is outstanding in the slice of a line. -/
def State.missOf (s : State) (r : Req) : List Req :=
  (s.before r).filter (fun x => x.src == r.src && lineSlice (lineOfOff x.offset) == lineSlice (lineOfOff r.offset) && inFill x.st)

/-- A request waits at the slice input: behind an earlier request to its line that waits there; an ordinary requester's, behind
its own outstanding miss in the slice (05 R161); a privileged requester's, only where it hits the missed line or is a second
miss (05 R162). -/
def State.sliceBusy (s : State) (r : Req) : Bool :=
  let l := lineOfOff r.offset
  (s.before r).any (fun x => lineOfOff x.offset == l && atSlice x.st) ||
    (if privileged r then
      (s.missOf r).any (fun x => lineOfOff x.offset == l) || (!(s.missOf r).isEmpty && (s.cellAt l).isNone)
    else !(s.missOf r).isEmpty)

/-! Targets (01 Table 1.4 steps 5 and 6). -/

/-- A function that reads of MIRRORED bolts need here is stopped: a DRAM group under AM0 to AM2, or the
bolt's policy group (12 R341, Table 12.5; 06 Table 6.5). -/
def State.stoppedFor (s : State) (b : Nat) : Bool :=
  (s.get F.IS_FUNC_STOPPED.DRAM_GROUP != 0 && s.get F.DC_MAP.AM != 3)
  || (s.reg .IS_BOLT_STOPPED 0).getLsbD (b / 16384 % 64)

/-- The device that a request goes to. -/
def State.target (s : State) (r : Req) : Nat :=
  let b := reqBolt r
  let e := s.entry b
  let act := entryActive e
  let ownStore := (s.ahead r).any reqWrites
  if reqActive r || !s.mirrored b || ownStore then act
  else if s.isPair b then
    if !s.runsMirrored b then act
    else if s.power.state ≥ 16 then act
    else if s.stoppedFor b then s.twinId
    else s.devId
  else
    let a := 2 * e.pairId
    let ha := s.routeHops a
    let hb := s.routeHops (a + 1)
    if ha < hb then a else if hb < ha then a + 1 else act

/-! Misses (05 R160; 06 R182). -/

/-- The request came on the twin's mirror stream: a mirror apply or a repair read. -/
def fromTwin (r : Req) : Bool := match r.who with | .mirror _ _ _ => true | _ => false

/-- A repair read that this device's own recovery cannot serve (02 R79). -/
def State.badRead (s : State) (r : Req) : State :=
  let (k, s) := s.nextFree
  s.finish r 1 (Config.openLine k) true

/-- Outstanding misses of a slice. -/
def State.missesOf (s : State) (slice : Nat) : Nat := (s.crown.misses.filter (fun l => lineSlice l == slice)).length

/-- The read queue of a subchannel takes the misses that lie in its lines, 64 at most; the others wait at the
Crown (06 R182, Table 6.8). -/
def State.fillQueue (s : State) (sub : Nat) : State :=
  let q := SMap.findD s.dram.dq sub []
  let more := s.crown.misses.filter (fun l => s.inTierD l && s.subOf l == sub && !q.any (fun x => x.line == l))
  let q := q ++ (more.take (64 - q.length)).map (fun l => DReq.mk l s.now false)
  { s with dram := { s.dram with dq := if q.isEmpty then SMap.del s.dram.dq sub else SMap.put s.dram.dq sub q } }

/-- A miss entry taken for a line (05 R160); the first miss of a frame of tier F starts the frame's read, which suspends programs and
erases when `first` says that it takes the priority of a host read (07 R202). -/
def State.addMiss (s : State) (l : Nat) (first : Bool) : State :=
  let s := { s with crown := { s.crown with misses := insertSorted l s.crown.misses } }
  let s := if s.inTierD l then s.fillQueue (s.subOf l)
    else if s.crown.misses.any (fun m => m != l && frameOfLine m == frameOfLine l && !s.inTierD m) then s
    else if first then s.flashRead l
    else s
  let n := s.missesOf (lineSlice l)
  { s with crown := { s.crown with
      missMax := s.crown.missMax.set (lineSlice l) (max n (s.crown.missMax.getD (lineSlice l) 0)) } }

/-! Read repair from the twin (02 R78 to R81). -/

/-- The twin holds a copy of a span: it does while it is not lost, but for the spans that are still to be copied to it
(02 R81). -/
def State.hasTwinCopy (s : State) (sp : Nat) : Bool :=
  let b := boltOfSpan sp
  s.mirrored b && !s.filling b &&
  (match s.twin.st with
   | .taking | .solo => false
   | .feeding => !s.twin.copyList.contains sp
   | _ => true)

/-- A repair read of `n` lines from line `l` on, sent on the bolt's stream with a tag of its own. -/
def State.sendRepair (s : State) (l n : Nat) : Nat × State :=
  let b := boltOfLine l
  let (tag, s) := s.newTag
  let h := s.hdr s.twinId
  let h := { h with tag := tag, offset := l * 64, claim := (s.entry b).claim }
  (tag, s.sendStream b h (.repairRd n) (s.streamBusy b))

/-- Requests that wait for the fill of a line. -/
def State.fillWaiters (s : State) (l : Nat) : List Req :=
  s.bay.reqs.filter (fun r => lineOfOff r.offset == l && (match r.st with | .filling => true | _ => false))

/-- Requests that wait for the repair of a line. -/
def State.repairWaiters (s : State) (l : Nat) : List Req :=
  s.bay.reqs.filter (fun r => lineOfOff r.offset == l &&
    (match r.st with | .repairing _ _ => true | .installing _ _ => true | _ => false))

/-- The miss of a line ends: its entry and the mark of its way go (05 R160, R161). -/
def State.endFill (s : State) (l : Nat) : State :=
  let s := { s with crown := { s.crown with
    misses := removeNum l s.crown.misses, verifies := removeNum l s.crown.verifies } }
  let sub := s.subOf l
  let q := (SMap.findD s.dram.dq sub []).filter (fun x => x.line != l)
  let s := { s with dram := { s.dram with dq := SMap.put s.dram.dq sub q } }
  let s := s.fillQueue sub
  -- a closed merge entry that waited for its base is written back (02 R74)
  let s := if s.lines.closing.any (fun m => m.line == l && m.base) then
      { s with lines := { s.lines with closing := s.lines.closing.filter (fun m => m.line != l) } }.putTierD l
        (SMap.has s.lines.dirty l)
    else s
  match s.cellAt l with
  | some (k, c) => { s with crown := { s.crown with cells := SMap.put s.crown.cells k { c with filling := false } } }
  | none => s

/-- The repair of a line ends: a frame of tier F that had failed every local step counts as repaired (class 4) or poisoned (class 5)
(07 R205, Table 7.13). -/
def State.frameOutcome (s : State) (l c : Nat) : State :=
  let f := frameOfLine l
  if s.flash.failed.contains f then ({ s with flash := { s.flash with failed := removeNum f s.flash.failed } }).classCount c 1 else s

/-- The line is poisoned with the bytes of its mask kept, its miss ends and its waiting reads complete
(02 R72, R81). -/
def State.poisonRead (s : State) (l src : Nat) : State :=
  let w := s.fillWaiters l ++ s.repairWaiters l
  let s := (s.poisonLine l src).frameOutcome l 5
  let s := { s with lines := { s.lines with mask := SMap.del s.lines.mask l } }
  w.foldl State.finishRead (s.endFill l)

/-- A bad line that no request reads, repaired from the twin under R78, or poisoned. -/
def State.deviceRepair (s : State) (l src : Nat) : State :=
  if !(s.repairWaiters l).isEmpty then s
  else
    let s := s.loseBytes l
    if s.hasTwinCopy (spanOfLine l) then
      let (tag, s) := s.sendRepair l 1
      let r : Req := {
        id := s.bay.nextId, src := 2 ^ 35, who := .device, op := .read, offset := l * 64,
        tenant := s.tenantOf (boltOfLine l), since := none, st := .repairing tag src }
      { s with bay := { s.bay with reqs := s.bay.reqs ++ [r], nextId := s.bay.nextId + 1 } }
    else s.poisonRead l src

/-- Lines that the Crown lost as they left it are repaired or poisoned (05 R155; 02 R78, R81). -/
def State.repairLost (s : State) : State :=
  let l := s.lines.lost
  if l.isEmpty then s
  else l.foldl (fun s n => s.deviceRepair n 0) { s with lines := { s.lines with lost := [] } }

/-- An uncorrectable line met by a read: repaired from the twin where it holds a copy, else poisoned
(02 R78, R81). -/
def State.startRepair (s : State) (l src : Nat) : State :=
  let s := s.loseBytes l
  let s := ((s.fillWaiters l).filter fromTwin).foldl State.badRead s
  if s.hasTwinCopy (spanOfLine l) then
    let w := s.fillWaiters l
    if w.isEmpty then
      if s.lines.closing.any (fun m => m.line == l) then s.deviceRepair l src else s.endFill l
    else
    let (tag, s) := s.sendRepair l 1
    w.foldl (fun s r => s.putReq { r with st := .repairing tag src }) s
  else s.poisonRead l src

/-- A line may become dirty within the budget (02 R63, R78). -/
def State.roomFor (s : State) (l : Nat) : Bool :=
  SMap.has s.lines.dirty l || decide (s.dirtyLevel + 64 ≤ s.budgetBytes)

/-- The twin's data installed as a dirty line, under the bytes stored meanwhile, and returned to the
requesters (02 R72, R78). -/
def State.install (s : State) (l : Nat) (d : LineData) : State :=
  let w := s.repairWaiters l
  let s := match SMap.find s.lines.mask l with
    | some m => { s.putLine l (~~~m) d with lines := { s.lines with mask := SMap.del s.lines.mask l } }
    | none => s
  let s := (s.makeDirty l).endFill l
  let s := match s.cellAt l with
    | some (k, c) => { s with crown := { s.crown with cells := SMap.put s.crown.cells k { c with dirty := true } } }
    | none => s.putTierD l true
  let s := ((s.bump F.PW_POISON_COUNT.REPAIRED 0 1).health 10 1).frameOutcome l 4
  let s := s.raise F.PW_PERSIST_STATUS.READ_REPAIRED
  let ids := w.filterMap (fun r => match r.who with | .part id => some id | _ => none)
  let s := { s with bay := { s.bay with
    verifs := s.bay.verifs.map (fun v => if ids.contains v.id then { v with repaired := v.repaired + 1 } else v) } }
  w.foldl State.finishRead s

/-- The twin's data of a repair of line `l` has come: installed, once its span is marked and the budget has
room. -/
def State.takeRepair (s : State) (l : Nat) (d : LineData) : State :=
  let need := s.needsSpan (spanOfLine l)
  let s := if need then s.startSpanWrite (spanOfLine l) else s
  let s := (s.repairWaiters l).foldl (fun s r => s.putReq { r with st := .installing d need }) s
  if need || !s.roomFor l then s else s.install l d

/-! Service of a read (02 R72, R78; 05 R156 to R162). -/

/-- A read of a line below the Crown reaches a tier: tier D, or the line's frame in tier P or F (04 R132). -/
def State.reachesTier (s : State) (l : Nat) : Bool :=
  s.inTierD l || SMap.has s.tier.pmap (frameOfLine l) || (s.fpaOf (spanOfLine l) (frameOfLine l % 256)).isSome

/-- A tile fetch raises the heat of every span it touches by one, where one of its lines misses the Crown and reaches a tier
(04 R132). -/
def State.heatLines (s : State) (l : List Nat) : State :=
  (nub ((l.filter (fun n => (s.cellAt n).isNone && s.reachesTier n)).map spanOfLine)).foldl State.heat s

/-- A way marked as filling: it is not allocatable while the fill is awaited (05 R157). -/
def State.markFilling (s : State) (l : Nat) : State :=
  match s.cellAt l with
  | some (k, c) => { s with crown := { s.crown with cells := SMap.put s.crown.cells k { c with filling := true } } }
  | none => s

/-- A read that misses waits for a miss entry (05 R160). -/
def State.noEntry (s : State) (r : Req) : State :=
  (if r.st = .entryWait then s else s.raise F.CR_STATUS.MISS_FULL).putReq { r with st := .entryWait }

/-- A line of a tile that another device fetches here: it allocates nothing in the Crown (04 R148; 05 R156). -/
def tileRead (r : Req) : Bool := match r.op with | .peek _ => true | _ => false

/-- A read takes the priority of a host access: every one but a tile's that is not urgent (07 R202; 10 R298). -/
def hostRead (r : Req) : Bool := match r.op with | .peek u => u | _ => true

/-- A read meets a line that is uncorrectable in the Crown: its bytes, those under its mask too, are lost, and it is repaired or
poisoned (05 R155; 02 R78, R81). -/
def State.badCrown (s : State) (r : Req) : State :=
  let l := lineOfOff r.offset
  let s := (s.readBeats l).newBeats l
  let s := { s with lines := { s.lines with mask := SMap.put s.lines.mask l 0#64 } }
  (s.putReq { r with st := .filling }).startRepair l 0

/-- The look-up of a read in the Crown. `first` is false when a request that was counted tries again, so that it counts once in
CR_HIT_STAT. -/
def State.lookUp (s : State) (r : Req) (first : Bool) : State :=
  let l := lineOfOff r.offset
  let miss (s : State) : State :=
    if first then
      let s := s.bump F.CR_HIT_STAT.MISSES 0 1
      if tileRead r || !s.reachesTier l then s else s.heat (spanOfLine l)
    else s
  match s.cellAt l with
  | some (_, c) =>
    if c.filling then (miss s).putReq { r with st := .filling }
    else if SMap.has s.lines.mask l then
      -- the valid bytes are kept; the base is fetched from below (02 R72)
      if s.crown.misses.contains l then ((miss s).markFilling l).putReq { r with st := .filling }
      else if s.missesOf (lineSlice l) < Config.maxMisses then
        (((miss s).addMiss l (hostRead r)).markFilling l).putReq { r with st := .filling }
      else (miss s).noEntry r
    else if s.beats l = .bad then s.badCrown r
    else (if first then s.bump F.CR_HIT_STAT.HITS 0 1 else s).readBeats l |>.finishRead r
  | none =>
    if s.crown.misses.contains l then (miss s).putReq { r with st := .filling }
    else if s.missesOf (lineSlice l) < Config.maxMisses then
      if s.crownStopped l || tileRead r then ((miss s).addMiss l (hostRead r)).putReq { r with st := .filling }
      else match s.allocCrown l false true with
      | some s' => ((miss s').addMiss l true).putReq { r with st := .filling }
      | none => (miss s).putReq { r with st := .missWait }
    else (miss s).noEntry r

/-- A line read at this device: it waits at the input of its slice, or is looked up. -/
def State.startRead (s : State) (r : Req) (first : Bool) : State :=
  let l := lineOfOff r.offset
  -- the twin's repair read of a line that this device has itself found bad (02 R79)
  if fromTwin r && s.bay.reqs.any (fun x => lineOfOff x.offset == l &&
      (match x.st with | .repairing _ _ => true | .installing _ _ => true | _ => false)) then s.badRead r
  else if s.sliceBusy r then (if atSlice r.st then s else s.putReq { r with st := .sliceWait })
  else (s.useSpan (spanOfLine l)).lookUp r first

/-- A line read for a VERIFY (09 R273): a dirty line, or one that only tier D holds, where it is; any other from its
frame in tier P or F, past the Crown and tier D. -/
def State.startVerify (s : State) (r : Req) : State :=
  let l := lineOfOff r.offset
  let f := frameOfLine l
  if SMap.has s.lines.dirty l || s.tier.volFrames.contains f then
    if (s.cellAt l).isSome || SMap.has s.lines.mask l then s.startRead r true else s.finishRead r
  else if !s.written f then s.finishRead r
  else
    let again := s.crown.verifies.any (fun m => frameOfLine m == f)
    let s := { s with crown := { s.crown with verifies := insertSorted l s.crown.verifies } }
    let s := if again then s else (s.heat (spanOfLine l)).flashRead l
    s.putReq { r with st := .filling }

/-! Service of a store (02 R53 to R59, R72, R90). -/

/-- The valid mask of a line after a store (02 R72): a store that misses the Crown starts a mask, later
stores add to it, and a full mask is no mask. -/
def State.storeMask (s : State) (l : Nat) (be : Word) (hit : Bool) : State :=
  if be = fullBe then { s with lines := { s.lines with mask := SMap.del s.lines.mask l } }
  else
    match SMap.find s.lines.mask l with
    | some m =>
      let m := m ||| be
      { s with lines := { s.lines with mask := if m = fullBe then SMap.del s.lines.mask l else SMap.put s.lines.mask l m } }
    | none => if hit then s else { s with lines := { s.lines with mask := SMap.put s.lines.mask l be } }

/-- A store applied to a line of this device as one change (02 R55): bytes, mask, poison, Crown line,
dirty charge, and its place among the hits and misses (05 R166). The line in the Crown is newer than any below it, so it is dirty
there, VOLATILE data too (R155). `none` when no way of the set is allocatable (05 R159). -/
def State.applyStore (s : State) (l : Nat) (be : Word) (d : LineData) (poison : Bool) : Option State :=
  let counter := if (s.cellAt l).isSome then F.CR_HIT_STAT.HITS else F.CR_HIT_STAT.MISSES
  let dirty := !s.volatile (boltOfLine l)
  let placed : Option (State × Bool) := match s.cellAt l with
    | some (k, c) =>
      if s.waySt (k % 16) == .cleaning then
        -- the line moves to an allocatable way; the old copy is invalidated (05 Table 5.1)
        ((State.allocCrown { s with crown := { s.crown with cells := SMap.del s.crown.cells k } } l true c.filling).map (fun s => (s, true)))
      else
        some ({ s with crown := { s.crown with cells := SMap.put s.crown.cells k { c with dirty := true } } }, true)
    | none =>
      if s.crownStopped l then some (s, s.inTierD l && !SMap.has s.lines.mask l)
      else (s.allocCrown l true false).map (fun s => (s, false))
  match placed with
  | none => none
  | some (s, hit) =>
    let s := s.bump counter 0 1
    let s := (s.noteWritten (frameOfLine l)).useSpan (spanOfLine l)
    let s := s.putLine l be d
    let s := if be = fullBe then s.newBeats l else s
    let s := s.storeMask l be hit
    let s := if poison then s.markPoison l else if be = fullBe then s.clearPoison l else s
    let s := if dirty then s.makeDirty l else s
    let s := if SMap.has s.lines.running (frameOfLine l) then
        let again := SMap.updD s.lines.again (frameOfLine l) 0#64 (fun w => w ||| lineBit l)
        { s with lines := { s.lines with again := again } }
      else s
    let s := if (s.cellAt l).isSome then s else s.leaveDirty l
    some (s.abandonDemotion (spanOfLine l))

/-- The store of a request goes to the twin with its byte enables and the bolt's claim (02 R53 step 6;
03 R125). The tag names its acknowledgement. -/
def State.sendMirror (s : State) (r : Req) (be : Word) (d : LineData) (poison : Bool) (tag : Nat) : State :=
  let b := reqBolt r
  let h := s.hdr s.twinId
  let h := { h with
    tag := tag, source := BitVec.ofNat 32 r.src, offset := r.offset,
    claim := (s.entry b).claim, poison := poison }
  s.sendStream b h (.mirrorWr be d) (s.streamBusy b)

/-- How a store to a bolt is mirrored now: not at all, with its completion waiting for the standby, or
beside a LOCAL completion (02 R51, R425; 03 R125). -/
inductive Mirroring where
  | none | wait | beside
  deriving DecidableEq, Repr

/-- Mirroring of a bolt by the pair state (02 Table 2.1, R51, R425; 03 R116, R125). -/
def State.mirroring (s : State) (b : Nat) : Mirroring :=
  if !s.mirrored b then .none
  else match s.twin.st with
    | .solo => .none
    | .feeding => .beside
    | _ => if s.filling b then .beside else .wait

/-- A store at its active owner, or a mirror apply at the standby (02 R53 steps 4 to 7). -/
def State.startStore (s : State) (r : Req) (be : Word) (d : LineData) (poison : Bool) (mirrorApply : Bool) : State :=
  let b := reqBolt r
  let l := lineOfOff r.offset
  let f := frameOfLine l
  let sp := spanOfLine l
  let fresh := s.isPoison l
  if s.sliceBusy r then (if atSlice r.st then s else s.putReq { r with st := .sliceWait })
  else if !mirrorApply && s.volatile b && !s.volatileFits f then
    (s.raiseOff F.PW_PERSIST_STATUS.VOLATILE_FULL r.offset).fail r 2
  else
    let verdict := if mirrorApply || s.volatile b then .ok else s.firstStore f
    match verdict with
    | .quota => (s.raiseOff F.ST_TIER_STATUS.QUOTA_REFUSED r.offset).fail r 2
    | .capacity => (s.raiseOff F.ST_TIER_STATUS.CAPACITY_FULL r.offset).fail r 2
    | .ok =>
      let need := s.needsSpan sp
      match s.applyStore l be d false with
      | none => s.putReq { r with st := .missWait }
      | some s =>
        -- poison written on, or received with the store (02 R87, R89)
        let s := if poison && !fresh then s.poisonLine l (if mirrorApply then 6 else 7)
                 else if poison then s.markPoison l else s
        let s := if need then s.startSpanWrite sp else s
        let wt := s.effGib == 0 && !s.volatile b
        let s := if wt then { s with lines := { s.lines with destageQ := insertSorted f s.lines.destageQ } } else s
        let m := if mirrorApply then Mirroring.none else s.mirroring b
        let (s, tag) := match m with
          | .none => (s, 0)
          | _ =>
            let (t, s) := s.newTag
            (s.sendMirror r be d poison t, t)
        let s := match m with
          | .beside => { s with twin := { s.twin with mirrorOut := s.twin.mirrorOut ++ [(tag, b)] } }
          | _ => s
        s.putReq { r with st := .storing need (m == .wait) wt tag }

/-! Taking a request up. -/

/-- Why this device holds a request that it would serve itself (03 R95, R113, R114, Table 3.7; 12 R341;
13 R376). -/
def State.whyHold (s : State) (r : Req) : Option HoldWhy :=
  let b := reqBolt r
  if s.power.state ≥ 16 then some .downPath
  else if s.stoppedFor b then some .stopped
  else if s.bay.staleBolts.contains b then some .gate
  else if !s.mirrored b then none
  else if s.twin.fenced then some .yielding
  else match s.twin.st with
    | .isolated => some .isolated
    | .yielded => some .yielding
    | .sync => some .service
    | .rejoining => some .rejoining
    | st =>
      match s.twin.group with
      | some g =>
        if g.active && g.step ≥ 2 && g.bolts.contains b then some .rotation
        else if !reqActive r && st != .solo && st != .feeding && s.twin.leaseEnd ≤ s.now then some .lease
        else none
      | none => if !reqActive r && st != .solo && st != .feeding && s.twin.leaseEnd ≤ s.now then some .lease else none

/-- The lines of a tile, row by row, as the reads of one frame each that ask another device for them: first byte and lines
(04 R148; 11 Table 11.7). -/
def tileFrames (rows rb pitch base : Nat) : List (Nat × Nat) :=
  (List.range rows).flatMap (fun i =>
    let a := base + i * pitch
    (List.range (frameOfOff (a + rb - 1) - frameOfOff a + 1)).map (fun k =>
      let lo := max a ((frameOfOff a + k) * 4096)
      (lo, (min (a + rb) ((frameOfOff a + k + 1) * 4096) - lo) / 64)))

/-- A takeover of the bolt is in progress here (01 R42). -/
def State.takingOver (s : State) (b : Nat) : Bool :=
  s.mirrored b && s.isPair b && (match s.twin.st with | .wait => true | .taking => true | _ => false)

/-- A fetch of an engine that holds at its fence is urgent (10 R298; 11 Table 11.6). -/
def State.urgentFetch (s : State) (r : Req) : Bool :=
  match r.op, r.who with
  | .tile _ _ _, .engine e _ => (match (s.engine e).run with | some x => x.holdSince.isSome | none => false)
  | _, _ => false

/-- A request forwarded to a device, or held where no path leads to it, its path is draining, the bolt is being taken over, or
this device is isolated (01 R39, R41, R42; 03 R113). -/
def State.forward (s : State) (r : Req) (dev : Nat) : State :=
  if s.twin.st == .isolated && (s.stopsAt (reqBolt r)).isSome then s.hold r .isolated
  else if dev == s.twinId && s.takingOver (reqBolt r) then s.hold r .noTarget
  else if s.bay.draining.contains dev || s.get F.IS_FUNC_STOPPED.ROUTE == 1 then s.hold r .noTarget
  else match s.routePort dev with
    | none => s.hold r .noTarget
    | some p =>
      let (tag, s) := s.newTag
      let t := r.since.getD s.now
      let poison := match r.op with | .write _ _ q => q | _ => false
      let h := s.hdr dev
      let h := { h with
        hops := s.routeHops dev, tag := tag, source := BitVec.ofNat 32 r.src, offset := r.offset,
        claim := (s.entry (reqBolt r)).claim, poison := poison, urgent := s.urgentFetch r }
      let s := s.putReq { r with since := some t, st := .forwarded dev p tag t }
      match r.op with
      | .write be d _ => s.sendOn p h (.fwdWr be d)
      | .ctrl d => s.sendOn p h (.ctrlReq (.desc d))
      | .tile rows rb pitch =>
        (tileFrames rows rb pitch r.offset).foldl (fun s x => s.sendOn p { h with offset := x.1 } (.fwdRd x.2)) s
      | _ => s.sendOn p h (.fwdRd 1)

/-! Descriptors carried out at this device (09 Table 9.5, R273; 11 R322). -/

/-- A DISCARD of the bolt waits, or runs at the standby: later stores follow it, so that both twins take it in the bolt's
order (07 R223). -/
def State.discarding (s : State) (b : Nat) : Bool :=
  s.bay.reqs.any (fun x => reqBolt x == b &&
    (match x.op, x.st with
     | .ctrl _, .ctrlWait => true
     | .ctrl d, .ctrl _ true _ _ => descOp d == 8
     | _, _ => false))

/-- The part of a request's descriptor goes on at the standby of a bolt that runs as MIRRORED. -/
def State.sendCtrl (s : State) (r : Req) (d : LineData) : Nat × State :=
  let (tag, s) := s.newTag
  let h := s.hdr s.twinId
  let h := { h with
    tag := tag, source := BitVec.ofNat 32 r.src, offset := r.offset, claim := (s.entry (reqBolt r)).claim }
  (tag, s.send h (.ctrlReq (.desc d)))

/-- FLUSH, MIGRATE, PIN, UNPIN or DISCARD started: this device's part, and the standby's where the active owner carries it
out. A refusal leaves both twins as they are. -/
def State.startCtrl (s : State) (r : Req) (d : LineData) (standby : Bool) : State :=
  let (s, e) := s.ownPart r.id d (!standby)
  let refused := e.code == 2 || e.code == 7 || (e.code == 12 && descOp d == 6)
  if !standby && !refused && s.runsMirrored (reqBolt r) then
    let (tag, s) := s.sendCtrl r d
    s.putReq { r with st := .ctrl e.waits true tag e.code }
  else if e.waits then s.putReq { r with st := .ctrl true false 0 e.code }
  else s.finish r e.code 0#512 false

/-- The part of this device, or that of the standby, of a descriptor's request has ended. -/
def State.endCtrl (s : State) (id : Nat) (peer : Bool) (code : Nat) : State :=
  match s.req id with
  | some r =>
    (match r.st with
     | .ctrl own p tag c =>
       let own := own && peer
       let p := p && !peer
       let c := if c = 0 then code else c
       if own || p then s.putReq { r with st := .ctrl own p tag c } else s.finish r c 0#512 false
     | _ => s)
  | none => s

/-- The standby is gone, or takes nothing any more: the descriptors' parts there are over. -/
def State.dropPeerParts (s : State) : State :=
  s.bay.reqs.foldl (fun s r => match r.st with | .ctrl _ true _ _ => s.endCtrl r.id true 0 | _ => s) s

/-- The source number of the line reads of a VERIFY. -/
def verifySource (id : Nat) : Nat := 2 ^ 36 + id

/-- A line read of the VERIFY of request `id`, here or at the twin. -/
def State.verifyLine (s : State) (r : Req) (l : Nat) (twin : Bool) : State :=
  let x : Req := { id := s.bay.nextId, src := verifySource r.id, who := .part r.id,
                   op := if twin then .read else .verify, offset := l * 64, tenant := r.tenant, since := none,
                   st := .behind }
  let s := { s with bay := { s.bay with reqs := s.bay.reqs ++ [x], nextId := s.bay.nextId + 1 } }
  if twin then s.forward x s.twinId else s.startVerify x

/-- VERIFY of a range of one bolt started: each line here, and each line of the twin with BOTH, where the bolt runs as
MIRRORED (09 R273). For a MIRRORED bolt that runs as LOCAL for want of its twin BOTH has no effect, a case that R273 does not name
(DESIGN CHOICE, log entry 109). -/
def State.startVerifying (s : State) (r : Req) (d : LineData) : State :=
  let lo := descSrc d
  let n := descLen d
  let both := descParam d == 1 && s.runsMirrored (reqBolt r)
  let ls := (List.range (lineOfOff (lo + n - 1) - lineOfOff lo + 1)).map (fun k => lineOfOff lo + k)
  let v : Verif := { id := r.id, lo := lo, hi := lo + n, got := [], bad := [],
                     left := if both then 2 * ls.length else ls.length, repaired := 0 }
  let s := { s with bay := { s.bay with verifs := s.bay.verifs ++ [v] } }
  let s := s.putReq { r with st := .verifying }
  ls.foldl (fun s l =>
    let s := s.verifyLine r l false
    if both then s.verifyLine r l true else s) s

/-- The report of a VERIFY as its words (09 Table 9.6): CRC with poisoned lines as zeros, POISONED, FIRST, REPAIRED. -/
def verifReport (v : Verif) : LineData :=
  let bad (l : Nat) (p : Bool) : Bool := p || v.bad.contains l
  let poisoned := v.got.filter (fun x => bad x.1 x.2.2)
  let bytes := v.got.flatMap (fun x =>
    ((List.range 64).filter (fun k => decide (v.lo ≤ x.1 * 64 + k) && decide (x.1 * 64 + k < v.hi))).map (fun k =>
      if bad x.1 x.2.2 then 0#8 else lineByte x.2.1 k))
  let first := match poisoned with | x :: _ => x.1 * 64 | [] => 0xFFFFFFFFFFFFFFFF
  lineOfWords [word ((crc32c bytes).toNat + poisoned.length % 2 ^ 32 * 2 ^ 32), word first, word (v.repaired % 2 ^ 32)]

/-- One line of a VERIFY is in; with the last one its report is made. A read that failed ends it with the read's code. -/
def State.verifPart (s : State) (id l : Nat) (twin : Bool) (p : Resp) : State :=
  match s.bay.verifs.find? (fun v => v.id == id), s.req id with
  | some v, some r =>
    let poison := p.poison || p.code == 1
    let v' : Verif :=
      if twin then { v with bad := if poison then insertSorted l v.bad else v.bad, left := v.left - 1 }
      else { v with got := SMap.put v.got l (p.data, poison), left := v.left - 1 }
    let rest := s.bay.verifs.filter (fun x => x.id != id)
    if p.code ≠ 0 ∧ p.code ≠ 1 then
      { s with bay := { s.bay with verifs := rest } }.finish r p.code 0#512 false
    else if v'.left = 0 then
      let any := !v'.bad.isEmpty || v'.got.any (fun x => x.2.2)
      { s with bay := { s.bay with verifs := rest } }.finish r (if any then 1 else 0) (verifReport v') false
    else { s with bay := { s.bay with verifs := rest ++ [v'] } }
  | _, _ => s

/-- A store finds no credit: credits are withheld, or its line would take the dirty level above the budget (02 R63, R68). Under
write-through the lines of stores in hand lie outside the budget. -/
def State.noCredit (s : State) (r : Req) : Bool :=
  s.lines.throttled ||
    (!s.volatile (reqBolt r) && s.effGib != 0 && !s.roomFor (lineOfOff r.offset))

/-- A request served at this device. -/
def State.serve (s : State) (r : Req) (first : Bool) : State :=
  match s.whyHold r with
  | some .stopped =>
    -- a queue operation that needs a stopped function ends, a host's request waits (12 R341)
    (match r.who with
     | .queue _ _ | .engine _ _ | .part _ => s.fail r 8
     | _ => s.hold r .stopped)
  | some w => s.hold r w
  | none =>
    match r.op with
    | .write be d poison =>
      if s.noCredit r then s.putReq { r with st := .credit }
      else if !s.keyLoaded (s.tenantOf (reqBolt r)) then
        (s.raiseOff F.XT_STATUS.KEY_MISSING r.offset).fail r 10
      else if s.discarding (reqBolt r) then s.putReq { r with st := .sliceWait }
      else s.startStore r be d poison false
    | .ctrl d =>
      if descOp d = 0x0C then s.startVerifying r d
      else if descOp d = 8 && s.runsMirrored (reqBolt r) && s.streamBusy (reqBolt r) then s.putReq { r with st := .ctrlWait }
      else s.startCtrl r d false
    | .tile _ _ _ => s.putReq { r with st := .fetching }
    | _ => s.startRead r first

/-- Steps 3 to 8 of 01 Table 1.4 on the entry held. A request of another device was checked there; here
it is only served (01 R29; 11 R322). -/
def State.route (s : State) (r : Req) (first : Bool) : State :=
  let b := reqBolt r
  let e := s.entry b
  let remote := match r.who with | .remote _ _ _ _ => true | .device => true | _ => false
  if s.get F.BL_RANGE_LIMIT.BOLTS ≤ b || !s.bound b then
    (s.raiseOff F.BL_STATUS.UNBOUND_ACCESS r.offset).fail r 13
  else
    let acc := if e.access = 3 then 0 else e.access
    if !remote && e.tenant != r.tenant && (acc == 0 || (acc == 1 && reqChanges r)) then
      (s.raiseOff F.BL_STATUS.TENANT_DENY r.offset).fail r 12
    else
      let d := s.target r
      if d = s.devId then s.serve r first else s.forward r d

/-- The entry of the request's bolt is in the HUB cache (01 R21). -/
def State.lookup (s : State) (r : Req) (first : Bool) : State :=
  if s.bay.boltCache.contains (reqBolt r) then (s.bump F.BL_CACHE_STAT.HITS 0 1).route r first
  else (s.bump F.BL_CACHE_STAT.MISSES 0 1).putReq { r with st := .cacheMiss }

/-- A request taken up: not before service opens (11 R427), and not before the earlier requests of its
source to the same bolt have been (01 R44). What came on the twin's stream is served here (02 R53, R79). -/
def State.start (s : State) (r : Req) : State :=
  if s.mustWait r then s.waitBehind r
  else if fromTwin r then
    match r.op with
    | .write be d poison =>
      -- TWIN receive credits are withheld, or an earlier store of the stream still waits (02 R54, R68)
      if s.noCredit r then s.putReq { r with st := .credit }
      else if (s.ahead r).any (fun x => atSlice x.st && reqWrites x) then s.putReq { r with st := .sliceWait }
      else s.startStore r be d poison true
    | .ctrl d => s.startCtrl r d true
    | _ => s.startRead r true
  else if s.power.state < 14 || (s.power.state == 14 && !s.power.begun) then s.hold r .service
  else if (match r.who with | .part _ => true | _ => false) then s.forward r s.twinId
  else if reqWrites r && s.lines.throttled &&
      (match r.who with | .host _ _ _ => true | .queue _ _ => true | .engine _ _ => true | _ => false) then
    s.putReq { r with st := .credit }
  else s.lookup r true

/-- A new request, put behind those in hand and taken up. -/
def State.submit (s : State) (src : Nat) (who : Who) (op : ReqOp) (offset tenant : Nat) : State :=
  let r : Req := { id := s.bay.nextId, src := src, who := who, op := op, offset := offset, tenant := tenant,
                   since := none, st := .behind }
  let s := { s with bay := { s.bay with reqs := s.bay.reqs ++ [r], nextId := s.bay.nextId + 1 } }
  s.start r

/-! Completion. -/

/-- Code of a result: POISON_SEEN for a poisoned read (02 R89). -/
def respCode (p : Resp) : Nat := if p.code = 0 && p.poison then 1 else p.code

/-- Bytes of a COPY's read placed in the line to be stored. -/
def placeBytes (d : LineData) (src : LineData) (lo n pos : Nat) : LineData :=
  lineOfBytes ((List.range 64).map (fun k => if pos ≤ k ∧ k < pos + n then lineByte src (lo + (k - pos)) else lineByte d k))

/-- A read of a COPY has ended: its bytes, and its poison, go to the store that waits for them; with the last read the
store is taken up. A read that fails takes the store with it (02 R89; 09 R270). -/
def State.copyRead (s : State) (q ix : Nat) (dst lo n pos : Nat) (p : Resp) : State :=
  match s.req dst with
  | some w =>
    (match w.op, w.st with
     | .write be d poison, .awaiting left =>
       if p.code = 0 ∨ p.code = 1 then
         let bad := p.poison || p.code == 1
         let s := if bad then s.noteCode q ix 1 else s
         let w := { w with op := .write be (placeBytes d (if bad then 0#512 else p.data) lo n pos) (poison || bad) }
         s.putReq { w with st := if left ≤ 1 then .behind else .awaiting (left - 1) }
       else (s.delReq dst).descPartDone q ix p.code
     | _, _ => s)
  | none => s

/-- A line of a CAPTURE's payload, or the result of a part, goes to its descriptor. -/
def State.descTakes (s : State) (q ix : Nat) (r : Req) (p : Resp) : State :=
  match s.desc q ix with
  | some x =>
    (match r.op with
     | .read => s.putDesc { x with got := SMap.put x.got (lineOfOff r.offset) (p.data, p.poison || p.code == 1) }
     | .ctrl _ => s.putDesc { x with res := x.res ++ [(r.offset, p.code, p.data)] }
     | _ => s)
  | none => s

/-- A request of a queue has ended (09 R268 to R275). -/
def State.queueEnds (s : State) (q ix : Nat) (r : Req) (p : Resp) : State :=
  match s.desc q ix with
  | some x =>
    if x.st = .fetching then s.takeFetched x p.data (p.poison || p.code == 1) p.code
    else if x.st = .writing then s.entryStored x p.code
    else match r.op with
      | .copyTo dst lo n pos => s.copyRead q ix dst lo n pos p
      | _ => (s.descTakes q ix r p).descPartDone q ix (respCode p)
  | none => s

/-- A job has ended: its descriptor ends with its code (10 R287, R300). -/
def State.finishRun (s : State) (e : Nat) (r : Run) : State :=
  let s := s.putEngine e { s.engine e with run := none }
  let s := s.bump F.EN_COUNT.JOBS_DONE e 1
  let s := if r.code = 5 then s.raiseAt F.EN_STATUS.TILE_LATE e else s
  s.endDesc r.q r.ix r.code

/-- One store of a layer's write-back has ended; with the last one a layer that had a store refused ends the job
(10 R295, Table 10.6). -/
def Run.stored (r : Run) (n code : Nat) : Run :=
  let wbs := r.wbs.map (fun w =>
    if w.layer = n then { w with left := w.left - 1, code := if w.code = 0 then code else w.code } else w)
  match wbs.find? (fun w => w.left == 0 && w.code != 0) with
  | some w => ({ r with wbs := wbs.filter (fun x => x.layer != w.layer) }).stopWith w.code w.layer 0
  | none => { r with wbs := wbs }

/-- The fetch of an operand of layer `n` has failed: the layer does not start (10 R299). A layer that runs goes on to its
end. -/
def Run.fetchFailed (r : Run) (n slot code : Nat) : Run :=
  let r := { r with fetching := removeNum slot r.fetching }
  if r.endCode.isSome then r else { r with endCode := some code, failed := some n }

/-- A request of an engine has ended (10 R295, R299, R300). -/
def State.enginePart (s : State) (e key : Nat) (p : Resp) : State :=
  let n := key / 64
  let c := key % 64
  if c ≤ 16 then s.updRun e (fun r => r.stored n p.code)
  else if c = 18 then
    match (s.engine e).run with
    | some r => if r.closing then s.finishRun e r else s
    | none => s
  else if 32 ≤ c ∧ c < 48 ∧ p.code ≠ 0 then s.updRun e (fun r => r.fetchFailed n (c - 32) p.code)
  else s

/-- One line of a forwarded or repair read served; the answer goes when every line is in (11 R322). -/
def State.fwdPart (s : State) (dev tag line : Nat) (p : Resp) : State :=
  match s.bay.fwdIn.find? (fun f => f.dev == dev && f.tag == tag) with
  | none => s
  | some f =>
    let f' := { f with got := SMap.put f.got line (p.data, p.poison), code := if f.code = 0 then p.code else f.code }
    if f'.got.length < f'.lines then
      { s with bay := { s.bay with fwdIn := s.bay.fwdIn.map (fun x => if x = f then f' else x) } }
    else
      let s := { s with bay := { s.bay with fwdIn := s.bay.fwdIn.filter (fun x => x != f) } }
      let pm := ((f'.got.zipIdx).filter (fun x => x.1.2.2)).foldl (fun a x => a + 2 ^ x.2) 0
      let h := s.hdr dev
      let h := { h with port := f.port, tag := tag, offset := f.first * 64 }
      let ls := f'.got.map (fun x => x.2.1)
      if f.repair then s.reply { h with src := dev } f'.code true (.repairData (word pm) ls)
      else s.reply { h with src := dev } f'.code false (.fwdData (word pm) ls)

/-- A descriptor carried out for another device is answered with its code and result (11 R322). -/
def State.ctrlEnds (s : State) (dev port tag : Nat) (r : Req) (p : Resp) : State :=
  let h := s.hdr dev
  s.reply { h with src := dev, port := port, tag := tag, offset := r.offset } p.code false
    (.ctrlCmp ((List.range 4).map (fun k => lineWord p.data k)))

/-- The completion of a request leaves: to the host, to its descriptor, to the device that forwarded it
or mirrored it, or to the engine. A COPY read goes on as a store to its destination (09 R270). -/
def State.complete (s : State) (r : Req) (p : Resp) : State :=
  let s := s.delReq r.id
  match r.who with
  | .host port ld tag =>
    if s.twin.portsFenced || !s.portUp port then s
    else (if reqWrites r then s else s.countTx port 64).emit
      (.memCmp port ld tag (reqWrites r) p.data (p.poison && !reqWrites r))
  | .queue q ix => s.queueEnds q ix r p
  | .remote dev port tag _ =>
    match r.op with
    | .write _ _ _ =>
      let h := s.hdr dev
      s.reply { h with src := dev, port := port, tag := tag, offset := r.offset } p.code false .fwdCmp
    | .ctrl _ => s.ctrlEnds dev port tag r p
    | _ => s.fwdPart dev tag (lineOfOff r.offset) p
  | .mirror dev port tag =>
    match r.op with
    | .write _ _ _ =>
      let h := s.hdr dev
      s.reply { h with src := dev, port := port, tag := tag, offset := r.offset } p.code true .mirrorAck
    | .ctrl _ => s.ctrlEnds dev port tag r p
    | _ => s.fwdPart dev tag (lineOfOff r.offset) p
  | .engine e k => s.enginePart e k p
  | .part id => s.verifPart id (lineOfOff r.offset) (match r.op with | .verify => false | _ => true) p
  | .device | .keep _ => s

/-- A request at its slice input tries again. A store waits behind a DISCARD of its bolt, and a store of the twin's stream behind
the stream's earlier ones (07 R223; 02 R54). -/
def State.retrySlice (s : State) (r : Req) (first : Bool) : State :=
  match r.op with
  | .write be d poison =>
    if !fromTwin r && s.discarding (reqBolt r) then s
    else if fromTwin r && (s.ahead r).any (fun x => atSlice x.st && reqWrites x) then s
    else s.startStore r be d poison (fromTwin r)
  | _ => s.startRead r first

/-- One request moved on as far as it can go. -/
def State.advance (s : State) (id : Nat) : State :=
  match s.req id with
  | none => s
  | some r =>
    match r.st with
    | .behind => if s.mustWait r then s else s.start r
    | .ctrlWait => if s.streamBusy (reqBolt r) then s else (match r.op with | .ctrl d => s.startCtrl r d false | _ => s)
    | .credit => if s.lines.throttled then s else s.start r
    | .sliceWait => s.retrySlice r true
    | .entryWait => s.retrySlice r false
    | .missWait => s.retrySlice r false
    | .storing false false false _ =>
      if (s.ahead r).isEmpty && (s.stopsAt (reqBolt r)).isNone then
        s.complete r { code := 0, data := 0#512, poison := false }
      else s
    | .refused _ _ _ => s
    | .installing d false =>
      let l := lineOfOff r.offset
      if s.roomFor l then s.install l d else s
    | .done p => if (s.ahead r).isEmpty then s.complete r p else s
    | _ => s

/-- One pass over the requests in hand, in order. -/
def State.pass (s : State) : State := (s.bay.reqs.map (fun r => r.id)).foldl State.advance s

/-- GPF phase 1 is answered when no store is in hand (02 R83). -/
def State.checkGpf (s : State) : State :=
  if s.bay.gpfWait.isEmpty || s.bay.reqs.any reqWrites then s
  else
    let l := s.bay.gpfWait
    let s := { s with bay := { s.bay with gpfWait := [] } }
    l.foldl (fun s p => s.emit (.gpf p 1 0)) s

/-- Frames of a FLUSH that hold no dirty line any more are done; with none left its part ends (02 R82). -/
def State.checkFlush (s : State) : State :=
  let l := s.lines.flushes.map (fun w => { w with frames := w.frames.filter (fun f => s.dirtyMask f != 0#64) })
  let s := { s with lines := { s.lines with flushes := l.filter (fun w => !w.frames.isEmpty) } }
  (l.filter (fun w => w.frames.isEmpty)).foldl (fun s w => s.endCtrl w.id false 0) s

/-- MIGRATEs with no span left to move have ended here (04 R136). -/
def State.checkMoves (s : State) : State :=
  let (s, l) := s.stepMoves
  l.foldl (fun s id => s.endCtrl id false 0) s

/-- Copies taken in from the twin are acknowledged once their span is marked (02 R57; 03 R125). -/
def State.checkCopyAcks (s : State) : State :=
  let l := s.twin.copyAcks.filter (fun x => !s.needsSpan x.1)
  if l.isEmpty then s
  else
    let s := { s with twin := { s.twin with copyAcks := s.twin.copyAcks.filter (fun x => s.needsSpan x.1) } }
    l.foldl (fun s x => s.reply x.2 0 true .rejoinAck) s

/-- Requests of an engine that `sel` picks by their key are dropped. -/
def State.dropFetches (s : State) (e : Nat) (sel : Nat → Bool) : State :=
  { s with bay := { s.bay with reqs := s.bay.reqs.filter (fun r =>
      match r.who with | .engine x k => !(x == e && sel (k % 64)) | _ => true) } }

/-- A job at its end: its fetches are dropped, and its result header is written before its completion (10 R300). -/
def State.endRun (s : State) (e : Nat) (r : Run) : State :=
  let s := s.dropFetches e (fun c => decide (32 ≤ c) && decide (c < 48))
  match s.desc r.q r.ix with
  | some x =>
    if descOp x.d = 0x0B ∧ descArg x.d 2 = 1 then
      (s.updRun e (fun r => { r with closing := true })).submit (queueSource r.q) (.engine e (engKey 0 18))
        (.write fullBe (r.header e s.now) false) (descArgs x.d 8 7) r.tenant
    else s.finishRun e r
  | none => s.finishRun e r

/-- Jobs that have come to their end are ended. -/
def State.checkEngines (s : State) : State :=
  (SMap.keys s.engines.eng).foldl (fun s e =>
    match (s.engine e).run with
    | some r => if r.over then s.endRun e r else s
    | none => s) s

/-- Everything that can go on goes on: the budget rules, destage, then the requests in order; twice, since
the read of a COPY goes on as a store. -/
def State.settle (s : State) : State :=
  let s := s.repairLost.checkBudget.planDestage
  s.pass.pass.checkFlush.checkMoves.pass.checkEngines.pass.checkCopyAcks.checkGpf

/-- Every held request tried again (01 R42). -/
def State.retryHeld (s : State) : State :=
  (s.bay.reqs.filter (fun r => match r.st with | .held _ _ => true | _ => false)).foldl
    (fun s r => s.start r) s

/-- Forwarded requests that `sel` picks looked up and sent again, in order (01 R426). Their windows go on. -/
def State.resend (s : State) (sel : Req → Bool) : State :=
  let l := s.bay.reqs.filter (fun r => (match r.st with | .forwarded _ _ _ _ => true | _ => false) && sel r)
  let s := l.foldl (fun s r => s.putReq { r with st := .behind }) s
  l.foldl (fun s r => match s.req r.id with | some r => s.start r | none => s) s

/-- Stores applied and sent to the twin, of bolts that this device is no longer active for: looked up again and
forwarded in order of issue (02 Table 2.4; 03 R114). -/
def State.reissueStores (s : State) : State :=
  let l := s.bay.reqs.filter (fun r =>
    (match r.st with | .storing _ true _ _ => true | .refused _ _ _ => true | .storing _ _ _ _ => s.twin.fenced | _ => false)
      && !s.isActive (reqBolt r) && s.bound (reqBolt r) && !fromTwin r)
  let s := l.foldl (fun s r => s.putReq { r with st := .behind }) s
  l.foldl (fun s r => match s.req r.id with | some r => s.start r | none => s) s

/-- Forwarded requests whose target is another device now (01 R426). -/
def State.resendMoved (s : State) : State :=
  s.resend (fun r => match r.st with
    | .forwarded dev _ _ _ => s.target r != dev || !s.bound (reqBolt r)
    | _ => false)

end Sys2Proof.Machine
end

