-- ==== Sys2Proof/Machine/Access.lean ====
section
/-! DEFINITION. The rules of a register access that hold in every block (15 R399 to R404; 00 R8, R9):
paths, availability by power state, halves, field types, stopped functions, and the flags of a bad
access. -/

namespace Sys2Proof.Machine

open Sys2Proof

/-- The path of an access is up (15 Table 15.4): the MGMT link from state 5 to state 25, a HOST port
while it is in service. -/
def State.pathUp (s : State) (via : Via) : Bool :=
  match via with
  | .mgmt => s.power.mgmtUp && (decide (5 < s.power.state) || (s.power.state == 5 && s.power.begun))
      && decide (s.power.state ≤ 25)
  | .host p _ => s.portUp p && s.getF F.PT_CFG.PERSONALITY p == 1

/-- The path reaches the whole register space: MGMT, or the management function of its port (11 R318). -/
def State.wholeSpace (s : State) (via : Via) : Bool :=
  match via with
  | .mgmt => true
  | .host p ld => s.isSet F.PT_CFG.MGMT_EN p && s.getF F.PT_CFG.MGMT_LD p == ld

/-- The block at an offset answers in the power state (15 Table 15.4). -/
def State.blockServed (s : State) (off : Nat) : Bool :=
  let b := off / 0x100000
  if b == 0 || b == 1 || b == 3 || b == 14 then true
  else (decide (10 < s.power.state) || (s.power.state == 10 && s.power.begun)) && decide (s.power.state ≤ 20)

/-- Port number of a path in GB_ACCESS_LOG. -/
def viaPort (via : Via) : Nat := match via with | .mgmt => 0x7F | .host p _ => p
/-- LD of a path. -/
def viaLd (via : Via) : Nat := match via with | .mgmt => 0 | .host _ l => l

/-- An access flagged in GB_ACCESS_STATUS, with the access logged (15 R405). -/
def State.flagAccess (s : State) (via : Via) (off : Nat) (write : Bool) (f : FieldRef) : State :=
  let s := s.setReg .GB_ACCESS_LOG 0 (word (off % 2 ^ 26 + viaPort via * 2 ^ 32 + viaLd via * 2 ^ 39
    + bit write * 2 ^ 43 + f.lo * 2 ^ 44))
  s.raise f

/-- What becomes of an access before its register is looked at. -/
inductive Admit where
  | serve (s : State)
  | drop (s : State)
  deriving DecidableEq, Repr

/-- Path and availability of an access (15 R404; 11 R318). An access outside Table 15.4 is ignored, and
flagged if GB answers on its path. -/
def State.checkPath (s : State) (via : Via) (off : Nat) (write : Bool) : Admit :=
  if !s.pathUp via then .drop s
  else if !s.wholeSpace via && off < 0x2000000 then .drop s
  else if !s.blockServed off then .drop (s.flagAccess via off write F.GB_ACCESS_STATUS.UNAVAILABLE)
  else .serve s

/-- The instance of a register is absent: an unpopulated channel or an absent port (15 R400). -/
def State.absent (s : State) (r : Reg) (i : Nat) : Bool :=
  match r.block with
  | 8 => r.info.count == 32 && !s.isSet F.DC_CFG.POP i
  | 9 => r.info.count == 32 && !s.isSet F.FL_CFG.POP i
  | 12 =>
    (match r with
     | .PT_LD => s.getF F.PT_CFG.WIDTH (i / 16) == 0
     | .PT_QUAD => false
     | _ => r.info.count == 96 && s.getF F.PT_CFG.WIDTH i == 0)
  | _ => false

/-- The function of a register instance is stopped (15 R403). The registers that a channel-group restart
drives are the exception. -/
def State.fencedReg (s : State) (r : Reg) (i : Nat) : Bool :=
  match r.block with
  | 8 =>
    (match r with
     | .DC_TRN_CTL | .DC_TRN_PAT | .DC_PPR_CMD | .DC_MARK => false
     | _ => r.info.count == 32 && (word (s.get F.IS_FUNC_STOPPED.DRAM_GROUP)).getLsbD (i / 4))
  | 9 => r.info.count == 32 && (word (s.get F.IS_FUNC_STOPPED.FLASH_GROUP)).getLsbD (i / 4)
  | 11 => r.info.count == 48 && (word (s.get F.IS_FUNC_STOPPED.CLUSTER)).getLsbD (i / 8)
  | 12 =>
    (match r with
     | .PT_LD => (word (s.get F.IS_FUNC_STOPPED.QUAD)).getLsbD (i / 64)
     | .PT_QUAD => (word (s.get F.IS_FUNC_STOPPED.QUAD)).getLsbD i
     | _ => r.info.count == 96 && (word (s.get F.IS_FUNC_STOPPED.QUAD)).getLsbD (i / 4))
  | _ => false

/-- Bits that an access addresses (15 R402). -/
def accMask (w : AccW) : Word :=
  match w with
  | .full => 0xFFFFFFFFFFFFFFFF#64
  | .lo => 0xFFFFFFFF#64
  | .hi => 0xFFFFFFFF00000000#64

/-- The value of an access in its place in the register: a 32-bit value stands in bits [31:0]. -/
def accValue (w : AccW) (v : Word) : Word :=
  match w with
  | .full => v
  | .lo => v &&& 0xFFFFFFFF#64
  | .hi => v <<< 32

/-- The bits of a list of fields. -/
def fieldMask (l : List FieldRef) : Word :=
  l.foldl (fun m f => m ||| (word (2 ^ f.w - 1) <<< f.lo)) 0#64

/-- Bits of a register of one access type. -/
def accBits (r : Reg) (a : Acc) : Word := fieldMask (r.fields.filter (fun f => f.acc == a))

/-- Bits of a register that belong to some field. -/
def knownBits (r : Reg) : Word := fieldMask r.fields

/-- A write applied by the access types of the fields (00 R9): RW fields take the value, W1C bits written
1 are cleared, the rest is left. A write of a register of a stopped function applies its W1C fields only
(15 R403). -/
def State.writeFields (s : State) (r : Reg) (i : Nat) (w : AccW) (v : Word) (fenced : Bool) : State :=
  let m := accMask w
  let x := accValue w v
  let old := s.reg r i
  let rw := if fenced then 0#64 else (accBits r .rw ||| accBits r .wo) &&& m
  let wc := accBits r .w1c &&& m
  s.setReg r i (((old &&& ~~~rw) ||| (x &&& rw)) &&& ~~~(x &&& wc))

/-- A non-zero write to RSV bits is flagged (15 R400). -/
def State.checkRsv (s : State) (via : Via) (off : Nat) (r : Reg) (w : AccW) (v : Word) : State :=
  if accValue w v &&& accMask w &&& ~~~(knownBits r) = 0#64 then s
  else s.flagAccess via off true F.GB_ACCESS_STATUS.RSV_WRITE

/-- An RW field or a GO bit of a stopped function is addressed (15 R403). -/
def fenceTouches (r : Reg) (w : AccW) : Bool :=
  (accBits r .rw ||| accBits r .wo ||| fieldMask (r.fields.filter (fun f => f.w == 1 && f.lo == 8))) &&& accMask w != 0#64

/-- Offset of an access: a 32-bit access of the high half stands 4 bytes up (15 R402). -/
def accOff (r : Reg) (i : Nat) (w : AccW) : Nat := r.addr i + (match w with | .hi => 4 | _ => 0)

/-- The common part of a register write: admission, presence, the fence, reserved bits. `act` is what the
register does with an admitted write; it is given the state with nothing written yet. A flag of the access is set after it, so
that the set wins over a W1C of the same write (00 R9). -/
def State.writeAt (s : State) (via : Via) (r : Reg) (i : Nat) (w : AccW) (v : Word) (act : State → State) : State :=
  let off := accOff r i w
  match s.checkPath via off true with
  | .drop s => s
  | .serve s =>
    if s.absent r i then s
    else if s.fencedReg r i then
      let s := (s.writeFields r i w v true).checkRsv via off r w v
      if fenceTouches r w then s.flagAccess via off true F.GB_ACCESS_STATUS.FENCED_WRITE else s
    else (act s).checkRsv via off r w v

/-- A register write that only changes fields. -/
def State.writePlain (s : State) (via : Via) (r : Reg) (i : Nat) (w : AccW) (v : Word) : State :=
  s.writeAt via r i w v (fun s => s.writeFields r i w v false)

/-- The half of a value that a read returns (15 R402, R407): a 32-bit read returns its half. -/
def readHalf (w : AccW) (v : Word) : Word :=
  match w with
  | .full => v
  | .lo => v &&& 0xFFFFFFFF#64
  | .hi => v >>> 32

/-- A read of a register whose value is `v`, answered on its path; `after` is what the read itself
changes. An access that is not served returns zero (15 R404). -/
def State.readAt (s : State) (via : Via) (r : Reg) (i : Nat) (w : AccW) (v : Word) (after : State → State) : State :=
  let off := accOff r i w
  match s.checkPath via off false with
  | .drop s => s.emit (.mmio via off 0#64)
  | .serve s =>
    if s.absent r i then s.emit (.mmio via off 0#64)
    else after (s.emit (.mmio via off (readHalf w v)))

/-- A field that resets at each read of its half (00 Table 0.4 and the counters of every block). -/
def State.clearRead (s : State) (f : FieldRef) (i : Nat) (w : AccW) : State :=
  if (word (2 ^ f.w - 1) <<< f.lo) &&& accMask w = 0#64 then s else s.setF f i 0

/-- A counter register read: the read returns the counts and resets those it covers (14 Table 14.4). -/
def State.readCounters (s : State) (via : Via) (r : Reg) (i : Nat) (w : AccW) (fs : List FieldRef) : State :=
  s.readAt via r i w (s.reg r i) (fun s => fs.foldl (fun s f => s.clearRead f i w) s)

/-- The admission of a command given with its argument registers (15 R401 to R404): the arguments are
written first, then the command register with GO. `run` is the command. A command of a stopped function
is ignored and flagged. -/
def State.command (s : State) (via : Via) (r : Reg) (i : Nat) (args : List (Reg × Word)) (v : Word)
    (run : State → State) : State :=
  match s.checkPath via (r.addr i) true with
  | .drop s => s
  | .serve s =>
    if s.absent r i then s
    else
      let s := args.foldl (fun s a => s.setReg a.1 i a.2) s
      s.writeAt via r i .full v run

end Sys2Proof.Machine
end

