-- ==== Sys2Proof/Machine/Tiers.lean ====
section
/-! DEFINITION. The commands of tiers, quotas and Float (04 R132 to R145). -/

namespace Sys2Proof.Machine

open Sys2Proof

/-- MIGRATION_COPY_DONE (04 R135): every written frame of a moving span has been copied; the new home is
committed and the source released. -/
def execMigrationCopyDone (span at_ : Nat) (s : State) : Host.Outcome State Fault Refusal :=
  let s := s.tick at_
  .next (match s.span span with
    | some r =>
      match r.move with
      | some .p => if r.home == .f then ((s.commitPromotion span r).checkDemotion).settle else s
      | some .f =>
        -- a source frame that is being healed is copied once it has come (Table 4.2)
        if s.stripe.heals.any (fun x => spanOfFrame x.2 == span) then s
        else match s.flash.changes.find? (fun c => c.span == span && c.kind == .migrate) with
        | some c => ((s.commitChange c).checkDemotion).settle
        | none => s
      | none => s
    | none => s)

/-- DECAY_TIMER (04 R132): every heat count is halved, rounding down. -/
def execDecayTimer (at_ : Nat) (s : State) : Host.Outcome State Fault Refusal :=
  let s := s.tick at_
  .next { s with tier := { s.tier with
    spans := s.tier.spans.map (fun x => (x.1, { x.2 with heat := x.2.heat / 2 })) } }

/-- The register of a tier's quota. -/
def quotaReg (tier : Nat) : Reg :=
  match tier with | 0 => .ST_QUOTA_D | 1 => .ST_QUOTA_P | _ => .ST_QUOTA_F

/-- A quota of a tenant with the device time of its write. -/
def Quota.set (q : Quota) (tier v dt : Nat) : Quota :=
  match tier with
  | 0 => { q with d := v, dtD := dt }
  | 1 => { q with p := v, dtP := dt }
  | _ => { q with f := v, dtF := dt }

/-- A quota of a tenant. -/
def Quota.get (q : Quota) (tier : Nat) : Nat := match tier with | 0 => q.d | 1 => q.p | _ => q.f
/-- The device time of a quota's write. -/
def Quota.dt (q : Quota) (tier : Nat) : Nat := match tier with | 0 => q.dtD | 1 => q.dtP | _ => q.dtF

/-- A write of a quota register: it applies here and goes to the twin; a tenant that does not exist is
ignored (04 R139, Table 4.13). -/
def State.writeQuota (s : State) (via : Via) (tier : Nat) (w : AccW) (v : Word) : State :=
  let r := quotaReg tier
  s.writeAt via r 0 w v (fun s =>
    let t := s.get F.ST_QUOTA_SEL.TENANT
    if !s.bay.tenants.contains t then s
    else
      let old := word ((s.quota t).get tier)
      let m := accMask w &&& accBits r .rw
      let x := ((old &&& ~~~m) ||| (accValue w v &&& m)).toNat
      let s := { s with tier := { s.tier with quotas := SMap.put s.tier.quotas t ((s.quota t).set tier x s.now) } }
      let s := s.send (s.hdr s.twinId) (.quotaSet t tier x s.now)
      s.checkDemotion.settle)

/-- QUOTA_WRITE (04 R139). -/
def execQuotaWrite (via : Via) (tier : Nat) (w : AccW) (v : Word) (at_ : Nat) (s : State) :
    Host.Outcome State Fault Refusal :=
  .next ((s.tick at_).writeQuota via tier w v)

/-- QUOTA_SET (04 R139): the later device time stands; of equal ones, the write of the even device. -/
def execQuotaSet (h : Hdr) (tenant tier v dt : Nat) (s : State) : Host.Outcome State Fault Refusal :=
  .next (s.receive h (.quotaSet tenant tier v dt) (fun s =>
    let q := s.quota tenant
    if q.dt tier < dt ∨ (q.dt tier = dt ∧ s.side = 1) then
      ({ s with tier := { s.tier with quotas := SMap.put s.tier.quotas tenant (q.set tier v dt) } }).checkDemotion.settle
    else s))

/-- FLOAT_GAP_MOVE (04 R145): after PSI frame writes to a region the frame next to the gap is copied into it;
the copy counts as a write. -/
def execFloatGapMove (module region : Nat) (s : State) : Host.Outcome State Fault Refusal :=
  let k := module * 2 ^ 20 + region
  let r := s.region k
  .next (if s.psi ≤ r.sinceGap then
      -- the frame below the gap moves up into it; after slot 0 the gap is at the top again and the mapping has
      -- moved by one slot
      let r := { r with
        sinceGap := r.sinceGap - s.psi, writes := r.writes + 1,
        gap := if r.gap = 0 then 4095 else r.gap - 1,
        start := if r.gap = 0 then (r.start + 1) % 4096 else r.start }
      { s with tier := { s.tier with
          regions := SMap.put s.tier.regions k r,
          modWrites := SMap.updD s.tier.modWrites module 0 (fun n => n + 1) } }
    else s)

/-- Regions of a module. -/
def State.moduleRegions (s : State) (m : Nat) : SMap Region :=
  s.tier.regions.filter (fun x => x.1 / 2 ^ 20 == m)

/-- Region count of a module by its capacity. -/
def State.regionCount (s : State) (m : Nat) : Nat :=
  match SMap.find s.stripe.members m with
  | some x => max 1 (x.cap * 2 ^ 18 / 4096)
  | none => 1

/-- THRESH_LOG2; below 0x14 it acts as 0x14 (04 Table 4.14). -/
def State.threshLog2 (s : State) : Nat := max 0x14 (s.get F.ST_FLOAT_CTL.THRESH_LOG2)

/-- The region of a module that has received the most writes, and the least (04 Float). A region that is not
listed has received none. -/
def State.extremeRegions (s : State) (m : Nat) : Option (Nat × Nat) :=
  let l := s.moduleRegions m
  let hi := l.foldl (fun (a : Option (Nat × Nat)) x =>
    match a with | some (_, w) => if w < x.2.writes then some (x.1, x.2.writes) else a | none => some (x.1, x.2.writes)) none
  let free := lowestFreeFrom (m * 2 ^ 20) (SMap.keys l)
  let lo := if free < m * 2 ^ 20 + s.regionCount m then some (free, 0)
    else l.foldl (fun (a : Option (Nat × Nat)) x =>
      match a with | some (_, w) => if x.2.writes < w then some (x.1, x.2.writes) else a | none => some (x.1, x.2.writes)) none
  match hi, lo with
  | some (h, _), some (k, _) => some (h, k)
  | _, _ => none

/-- FLOAT_SWAP_CHECK (04 Float): a region whose count exceeds the module's mean by 2^THRESH_LOG2 swaps its
contents with the region of the lowest count; Float's copies, a region's frames each way, count as writes. -/
def execFloatSwapCheck (module : Nat) (s : State) : Host.Outcome State Fault Refusal :=
  let mean := SMap.findD s.tier.modWrites module 0 / s.regionCount module
  .next (match s.extremeRegions module with
    | some (h, l) =>
      let a := s.region h
      let b := s.region l
      if mean + 2 ^ s.threshLog2 < a.writes ∧ h ≠ l then
        let regions := SMap.put (SMap.put s.tier.regions h
            { a with writes := a.writes + 4095, holds := some (b.holds.getD l) }) l
          { b with writes := b.writes + 4095, holds := some (a.holds.getD h) }
        { s with tier := { s.tier with
            regions := regions, modWrites := SMap.updD s.tier.modWrites module 0 (fun n => n + 8190) } }.bump
          F.ST_FLOAT_STAT.SWAPS 0 1
      else s
    | none => s)

/-- ST_MIG_COUNT_READ (04 R152). -/
def execStMigCountRead (via : Via) (w : AccW) (s : State) : Host.Outcome State Fault Refusal :=
  .next (s.readCounters via .ST_MIG_COUNT 0 w [F.ST_MIG_COUNT.PROMOTED, F.ST_MIG_COUNT.DEMOTED])

end Sys2Proof.Machine
end

