-- ==== Sys2Proof/Machine/Stripes.lean ====
section
/-! DEFINITION. Stripes (08): the Skim journal, members lost and rebuilt, healing from the twin, reshape; and
the save-area bandwidth that members give (02 R62). -/

namespace Sys2Proof.Machine

open Sys2Proof

/-! Save rate (02 R61, R62). -/

/-- Twice the rate in GT/s of a PT_LINK.RATE code; code 1 is 2.5 GT/s (11 Table 11.11). -/
def rateGts (code : Nat) : Nat :=
  match code with | 1 => 5 | 2 => 10 | 3 => 16 | 4 => 32 | 5 => 64 | 6 => 128 | _ => 0

/-- The highest lane rate code of an ordering code (00 Table 0.2; 11 PT_CFG). -/
def rateLimit (code : Nat) : Nat := if code = 1 then 6 else 5

/-- Data rate per direction of a MEDIA link in bytes per second: 30 GB/s for x4 at 64 GT/s, in proportion
(02 R62; DEDUCED, log entry 24). -/
def State.linkBw (s : State) (p : Nat) : Nat :=
  if s.portUp p then rateGts (s.getF F.PT_LINK.RATE p) * s.getF F.PT_LINK.LANES p * 30000000000 / 512 else 0

/-- The MEDIA port of a module. -/
def State.modulePort (s : State) (m : Nat) : Option Nat :=
  (s.portsOf 4).find? (fun p => s.getF F.PT_CFG.MODULE p == m)

/-- Data rate of a module's link. -/
def State.moduleBw (s : State) (m : Nat) : Nat :=
  match s.modulePort m with | some p => s.linkBw p | none => 0

/-- SAVE_RATE in bytes per second (02 R62). -/
def State.calcSaveRate (s : State) : Nat :=
  let b := (s.image.saveModules.filter (fun m => !s.lines.saveOut.contains m)).foldl (fun a m => a + s.moduleBw m) 0
  min 240000000000 (b * 3584 / 8192)

/-- SAVE_RATE computed again; a fall of the budget acts as 02 R66 defines. -/
def State.updateSaveRate (s : State) : State :=
  let before := s.effGib
  let r := s.calcSaveRate
  let s := { s with lines := { s.lines with saveRate := r } }
  (s.put F.PW_ENERGY_DECL.SAVE_RATE_GBS (r / 1000000000)).budgetChanged before

/-! The Skim journal (08 R241 to R245). -/

/-- The member at a position of a group serves. -/
def State.posInService (s : State) (g pos : Nat) : Bool :=
  (s.groupMembers g).any (fun x => x.2.pos == pos && x.2.st == .inService)

/-- The journal pair of epoch `e`: a member not in service is replaced by the next upwards that is and is not
the other (08 R241). -/
def State.journalPair (s : State) (g e : Nat) : Nat × Nat :=
  let w := max 1 s.pWidth
  let up (from_ avoid : Nat) : Nat :=
    (((List.range w).map (fun k => (from_ + k) % w)).find? (fun p => p != avoid && s.posInService g p)).getD from_
  let a := up (e % w) w
  (a, up ((e + w / 2) % w) a)

/-- A new epoch of a group: its EPOCH_START goes to the new pair and lists the rows in flight; rows of a LIST
not yet written wait again (08 R244). -/
def State.advanceEpoch (s : State) (g : Nat) : State :=
  let k := s.skim g
  let e := k.epoch + 1
  let (a, b) := s.journalPair g e
  s.putSkim g { k with
    epoch := e, slot := 0, a := a, b := b, kind := 2, batch := [], waiting := k.batch ++ k.waiting, writing := true }

/-- A member of the journal pair leaves service: the group's epoch advances (08 R244). -/
def State.leavePair (s : State) (m : Nat) (x : Member) : State :=
  if m < 32 && ((s.skim x.group).a == x.pos || (s.skim x.group).b == x.pos) then s.advanceEpoch x.group else s

/-- A journal frame stands on both members of the pair: a whole-frame write on each (08 R245). -/
def State.journalWritten (s : State) (g : Nat) (k : Skim) : State :=
  [k.a, k.b].foldl (fun s p =>
    match s.moduleAt g p with
    | some m => if s.posInService g p then s.floatWrite m (s.saveShare m + k.slot) else s
    | none => s) s

/-- A row is done when no frame on its way lies in it (08 R243). -/
def State.rowDone (s : State) (g row : Nat) : State :=
  if s.lines.running.any (fun x => x.2.1 == g && s.rowOf x.2.2.1 == row) then s
  else
    let k := s.skim g
    s.putSkim g { k with inFlight := k.inFlight.filter (fun r => r != row) }

/-- SKIM_JOURNAL_WRITE_DONE (08 R243): the frame has reached the members `a` and `b`, one being enough where
the other is not in service; the rows it names may be written. -/
def execSkimJournalWriteDone (group : Nat) (a b : Bool) (at_ : Nat) (s : State) : Host.Outcome State Fault Refusal :=
  let s := s.tick at_
  let k := s.skim group
  let okA := a || !s.posInService group k.a
  let okB := b || !s.posInService group k.b
  .next (if k.writing && (a || b) && okA && okB then
      let kind := if k.kind = 2 ∧ k.batch = [] then 2 else 1
      let k' := { k with
        writing := false, seq := k.seq + 1, slot := k.slot + 1, kind := kind,
        inFlight := nub (k.inFlight ++ k.batch), batch := [] }
      let s := (s.putSkim group k').journalWritten group k
      let s := if 4096 ≤ k'.slot then s.advanceEpoch group else s.startJournal group
      s.settle
    else s)

/-- STRIPE_WRITE_DONE (08 R239): the three writes of a row's update are done. -/
def execStripeWriteDone (group row at_ : Nat) (s : State) : Host.Outcome State Fault Refusal :=
  let s := s.tick at_
  .next ((s.rowDone group row).startJournal group).settle

/-! Members (08 R249 to R254). -/

/-- A member's record replaced. -/
def State.putMember (s : State) (m : Nat) (x : Member) : State :=
  let s := { s with stripe := { s.stripe with members := SMap.put s.stripe.members m x } }
  -- FL_CFG shows whether a flash channel is a member in service (07 Table 7.15)
  if m < 32 then s else s.setF F.FL_CFG.IN_STRIPES (m - 32) (bit (x.st == .inService))

/-- A rebuild or a copy-back runs (08 Table 8.11). -/
def State.rebuilding (s : State) : Bool :=
  s.stripe.members.any (fun x => x.2.st == .rebuilding || x.2.st == .copyBack)

/-- Rows of a member that hold a written unit: the rows of its group in use, or the written pages of the bands
in tier F (08 R251). -/
def State.rowsInUse (s : State) (m : Nat) : Nat :=
  match SMap.find s.stripe.members m with
  | some x =>
    if m < 32 then
      (nub ((s.tier.pmap.filter (fun e => e.2.1 == x.group)).map (fun e => s.rowOf e.2.2))).length
    else
      (s.flash.bands.map (fun e => ceilDiv e.2.next (4 * max 1 (e.2.width - 2)))).foldl (· + ·) 0
  | none => 0

/-- A member is lost (08 R249): MEMBER_LOST, rebuild where it is on, a new epoch where it was of a journal pair,
a pause of a running reshape, and the save rate without it. -/
def State.memberLost (s : State) (m : Nat) : State :=
  match SMap.find s.stripe.members m with
  | none => s
  | some x =>
    if x.st == .lost || x.st == .rebuilding || x.st == .absent then s
    else
      let rows := s.rowsInUse m
      let on := s.isSet F.ST_REBUILD_CTL.EN 0
      let s := s.putMember m { x with
        st := if on && 0 < rows then .rebuilding else .lost,
        rowsLeft := rows, rowsTotal := rows }
      let s := s.raise F.ST_STATUS.MEMBER_LOST
      let s := s.leavePair m x
      let s := if s.stripe.reshape.st = 1 then
          ({ s with stripe := { s.stripe with
              reshape := { s.stripe.reshape with st := 2, autoPaused := true } } }).raise F.ST_STATUS.RESHAPE_PAUSED
        else s
      if m < 32 && s.image.saveModules.contains m then
        ({ s with lines := { s.lines with saveOut := insertSorted m s.lines.saveOut } }).updateSaveRate
      else s

/-- Dies of a flash channel (07 Table 7.1). -/
def State.diesOf (s : State) (_ch : Nat) : Nat := match s.flash.build with | some b => b.diesPerChannel | none => 0

/-- The LUNs of a flash channel are enumerated, and `n` are left out of service; a channel with none in service is a lost member
(07 R201). -/
def State.enumLuns (s : State) (ch n : Nat) : State :=
  let left := s.diesOf ch - n
  let s := s.setF F.FL_CFG.DIES ch left
  let s := if n = 0 then s else s.raiseAt F.FL_STATUS.ENUM_FAIL ch
  if left = 0 then s.memberLost (32 + ch) else s

/-- A spare flash block taken (07 R226). -/
def State.takeSpare (s : State) : State :=
  let left := s.flash.spareLeft
  if left = 0 then
    let s := s.raise F.FL_DEV_STATUS.SPARE_OUT
    { s with tier := { s.tier with fFrames := s.tier.fFrames - s.get F.ST_F_CFG.PAGES * 4 } }
  else
    let s := { s with flash := { s.flash with spareLeft := left - 1 } }
    if (left - 1) * 10 < s.flash.spareFmt ∧ s.flash.spareFmt ≤ left * 10 then s.raise F.FL_DEV_STATUS.SPARE_LOW else s

/-- The band of a tier F row, or the tier P row itself: what an entry of the substitution table names (08 R252). -/
def State.substPart (s : State) (m row : Nat) : Nat := if m < 32 then row else row / max 1 (s.get F.ST_F_CFG.PAGES)

/-- Spare blocks left on a flash channel: its share of the spare less what its retired blocks and the substitutes on it took
(08 R232, R252). -/
def State.channelSpare (s : State) (m : Nat) : Nat :=
  s.flash.spareFmt / max 1 (match s.flash.build with | some b => b.channels | none => 0)
    - s.getF F.FL_BLOCKS.RETIRED (m - 32) - (s.stripe.subst.filter (fun e => e.2.2 == m)).length

/-- The member that holds the substitute of a row (08 R251): in tier P the k-th survivor of the group with k = row mod survivors;
in tier F a channel outside the band (the lowest, a DESIGN CHOICE, log entry 110), or the one with the most spare blocks. -/
def State.substituteFor (s : State) (m row : Nat) : Nat :=
  match SMap.find s.stripe.members m with
  | some x =>
    if m < 32 then
      let l := ((s.groupMembers x.group).filter (fun y => y.2.st == .inService)).map Prod.fst
      l.getD (row % max 1 l.length) m
    else
      let l := (s.stripe.members.filter (fun y => 32 ≤ y.1 && y.2.st == .inService)).map Prod.fst
      let band := match SMap.find s.flash.bands (s.substPart m row) with
        | some b => (s.bandBlocks (s.substPart m row) b).map Prod.fst
        | none => []
      match l.find? (fun y => !band.contains (y - 32)) with
      | some y => y
      | none => l.foldl (fun best y => if best = m ∨ s.channelSpare best < s.channelSpare y then y else best) m
  | none => m

/-- Spare space is left for one more substitute on a member: its spare region of P_SPARE × ceil(R ÷ (W − 1)) units in tier P, a
spare block in tier F (08 R233, R252). -/
def State.spareRoom (s : State) (m holder : Nat) : Bool :=
  if m < 32 then
    decide ((s.stripe.subst.filter (fun e => e.2.2 == holder)).length
      < s.get F.ST_P_CFG.P_SPARE * ceilDiv s.groupRows (max 1 (s.pWidth - 1)))
  else decide (0 < s.flash.spareLeft)

/-- The substitution table with the missing unit of a member's row in its substitute, and with it the units of that row whose
substitutes the member held (08 R251, R252). -/
def State.substitute (s : State) (m row : Nat) : State :=
  let part := s.substPart m row
  let h := s.substituteFor m row
  let moved := s.stripe.subst.map (fun e => if e.2.1 == part && e.2.2 == m then (e.1, part, h) else e)
  if s.stripe.subst.any (fun e => e.1 == m && e.2.1 == part) then { s with stripe := { s.stripe with subst := moved } }
  else
    let s := { s with stripe := { s.stripe with subst := moved ++ [(m, part, h)] } }
    if m < 32 then s else s.takeSpare

/-- Every rebuild has ended: an automatic pause of a reshape ends too (08 Table 8.7). -/
def State.rebuildEnded (s : State) : State :=
  if s.stripe.reshape.autoPaused && !s.rebuilding then
    { s with stripe := { s.stripe with reshape := { s.stripe.reshape with st := 1, autoPaused := false } } }
  else s

/-- REBUILD_UNIT_DONE (08 R251, R252, R254): one missing unit written to its substitute, or one substitute
copied back. `spare` says that spare space for it was left. -/
def execRebuildUnitDone (member row : Nat) (spare : Bool) (at_ : Nat) (s : State) : Host.Outcome State Fault Refusal :=
  let s := s.tick at_
  .next (match SMap.find s.stripe.members member with
    | none => s
    | some x =>
      let left := x.rowsLeft - 1
      match x.st with
      | .rebuilding =>
        let known := s.stripe.subst.any (fun e => e.1 == member && e.2.1 == s.substPart member row)
        if !(spare && (known || s.spareRoom member (s.substituteFor member row))) then
          ((s.putMember member { x with st := .lost }).raise F.ST_STATUS.SPARE_SHORT).rebuildEnded
        else
          let s := (s.substitute member row).bump F.ST_REBUILD_STAT.ROWS_DONE 0 1
          if left = 0 then
            ((s.putMember member { x with st := .lost, rowsLeft := 0 }).raise F.ST_STATUS.REBUILD_DONE).rebuildEnded
          else s.putMember member { x with rowsLeft := left }
      | .copyBack =>
        let s := { s with stripe := { s.stripe with
          subst := s.stripe.subst.filter (fun e => !(e.1 == member && e.2.1 == row)) } }
        if left = 0 then
          let s := s.putMember member { x with st := .inService, rowsLeft := 0 }
          let s := { s with
            stripe := { s.stripe with subst := s.stripe.subst.filter (fun e => e.1 != member) },
            lines := { s.lines with saveOut := removeNum member s.lines.saveOut } }
          (s.raise F.ST_STATUS.COPYBACK_DONE).updateSaveRate.rebuildEnded.settle
        else s.putMember member { x with rowsLeft := left }
      | _ => s)

/-- BW of a member: its MEDIA link's data rate, or its channel's bus rate (08 R253). -/
def State.memberBw (s : State) (m : Nat) : Nat :=
  if m < 32 then s.moduleBw m else s.getF F.FL_CFG.RATE (m - 32) * 100000000

/-- FLOOR_PCT; 0 acts as 1, above 100 as 100 (08 Table 8.11). -/
def State.floorPct (s : State) : Nat := min 100 (max 1 (s.get F.ST_REBUILD_CTL.FLOOR_PCT))

/-- Share of a member in percent, rounded down, and its allowance in bytes for one window, from the host bytes
of the window before (08 R253). -/
def State.allowanceOf (s : State) (m host : Nat) : Nat × Nat :=
  let full := s.memberBw m / 1000
  let free := full - min full host
  let floor := full * s.floorPct / 100
  let a := max floor free
  (max s.floorPct (pctOf free full), a)

/-- The rows of a full resync that the allowance of the window now ending paid for: each member reads or writes one frame of a
row, in row order over every group; rebuild and copy-back take first place (08 R248, R253; DEDUCED, log entry 70). -/
def State.resyncWindow (s : State) : State :=
  if !s.stripe.resyncFull || !s.inService || s.rebuilding then s
  else
    let l := (s.stripe.members.filter (fun x => decide (x.1 < 32) && x.2.st == .inService)).map
      (fun x => SMap.findD s.stripe.allowance x.1 0 / 4096)
    let rows := match l with | [] => 0 | a :: t => t.foldl min a
    let upTo := min s.groupRows (s.stripe.resyncAt + rows)
    { s with stripe := { s.stripe with resyncAt := upTo, resyncFull := decide (upTo < s.groupRows) } }

/-- STRIPE_ALLOWANCE_WINDOW (08 R253): `use` gives the host bytes on each member in the window that ends. -/
def execStripeAllowanceWindow (use : List (Nat × Nat)) (at_ : Nat) (s : State) : Host.Outcome State Fault Refusal :=
  let s := (s.tick at_).resyncWindow
  let host (m : Nat) : Nat := ((use.find? (fun x => x.1 == m)).map Prod.snd).getD 0
  let s := s.stripe.members.foldl (fun s x =>
    { s with stripe := { s.stripe with
        allowance := SMap.put s.stripe.allowance x.1 (s.allowanceOf x.1 (host x.1)).2 } }) s
  let shares := (s.stripe.members.filter (fun x => x.2.st == .rebuilding || x.2.st == .copyBack)).map
    (fun x => (s.allowanceOf x.1 (host x.1)).1)
  .next (match shares with
    | [] => s
    | h :: t => s.put F.ST_REBUILD_STAT.SHARE_PCT (t.foldl min h))

/-! Healing from the twin (08 R256). -/

/-- The frame in a data slot of tier P, by the reverse walk of the P maps. -/
def State.frameAt (s : State) (g slot : Nat) : Option Nat :=
  (s.tier.pmap.find? (fun x => x.2 == (g, slot))).map Prod.fst

/-- Frames of a row that have been written. -/
def State.rowFrames (s : State) (g row : Nat) : List Nat :=
  (s.tier.pmap.filter (fun x => x.2.1 == g && s.rowOf x.2.2 == row)).map Prod.fst

/-- Units of a row of a tier P group that are missing: those on members out of service whose substitute, if they have one, does not
serve, and the unreadable ones (08 R250, R251, R255). A substitute on a member that is lost counts with that of its own. -/
def State.rowMissing (s : State) (g row : Nat) : Nat :=
  let serves (m : Nat) : Bool := match SMap.find s.stripe.members m with | some x => x.st == .inService | none => false
  let gone (x : Nat × Member) : Bool :=
    x.2.st != .inService && x.2.st != .absent &&
      (match s.stripe.subst.find? (fun e => e.1 == x.1 && e.2.1 == row) with
       | some e => !serves e.2.2
       | none => x.2.st != .copyBack)
  ((s.groupMembers g).filter gone).length + (s.stripe.unreadable.filter (fun y => y == (g, row))).length

/-- Frames that no copy is left of: zeros, with every line that is not dirty here poisoned; STRIPE_LOSS, the
loss log and one black-box record per span (08 R256). -/
def State.lossFrames (s : State) (l : List Nat) : State :=
  match l with
  | [] => s
  | f :: _ =>
    let s := l.foldl (fun s g =>
      ((List.range 64).filter (fun k => !SMap.has s.lines.dirty (g * 64 + k))).foldl
        (fun s k => s.poisonLine (g * 64 + k) 5) s) s
    let s := s.setReg .ST_LOSS_LOG 0 (word (f % 2 ^ 44 + min 0xFFFFF l.length * 2 ^ 44))
    let s := s.raiseArg F.ST_STATUS.STRIPE_LOSS 0 (.log .ST_LOSS_LOG 0)
    let s := (s.health 8 1).newLossCause
    (nub (l.map spanOfFrame)).foldl (fun s sp => s.spanLoss sp 3 2) s

/-- A data unit healed: its frame is read from the twin, or lost where the twin has no copy or is not reached
(08 R256). -/
def State.healFrames (s : State) (l : List Nat) : State :=
  let ask := l.filter (fun f => s.hasTwinCopy (spanOfFrame f) && s.twinReached)
  let lost := l.filter (fun f => !(s.hasTwinCopy (spanOfFrame f) && s.twinReached))
  let s := ask.foldl (fun s f =>
    let (tag, s) := s.sendRepair (f * 64) 64
    { s with stripe := { s.stripe with heals := s.stripe.heals ++ [(tag, f)] } }) s
  s.lossFrames lost

/-- The twin's frame taken for a data unit, with its poison flags; lines that are dirty here keep their value
(08 R256; 02 R88). Under an EMPTY or DELETED key slot the unit is written as zeros (12 Table 12.11). -/
def State.takeHeal (s : State) (f : Nat) (pmap : Word) (data : List LineData) : State :=
  let s := (data.zipIdx).foldl (fun s x =>
    let l := f * 64 + x.2
    if SMap.has s.lines.dirty l then s
    else
      let gone := s.keyGone (s.tenantOf (boltOfFrame f))
      let s := s.putLine l fullBe (if gone then 0#512 else x.1)
      if pmap.getLsbD x.2 && !gone then s.poisonLine l 6 else s.clearPoison l) s
  let s := s.raise F.ST_STATUS.TWIN_HEAL
  let s := s.bump F.ST_PARITY_STAT.HEALED 0 1
  match SMap.find s.tier.pmap f with
  | some (g, slot) =>
    let r := (g, s.rowOf slot)
    { s with stripe := { s.stripe with
        suspect := s.stripe.suspect.filter (fun x => x != r),
        unreadable := s.stripe.unreadable.filter (fun x => x != r) } }
  | none => s

/-- The twin's frame taken back after a restart, over the lines not stored since; with a span's last frame the clear of its
bit may start (02 Table 2.9, R58). -/
def State.takeBack (s : State) (f : Nat) (pmap : Word) (data : List LineData) : State :=
  let s := (data.zipIdx).foldl (fun s x =>
    let l := f * 64 + x.2
    if SMap.has s.lines.dirty l then s
    else
      let s := s.putLine l fullBe x.1
      if pmap.getLsbD x.2 then s.poisonLine l 6 else s.clearPoison l) s
  if s.lines.copyBack.any (fun x => spanOfFrame x.2 == spanOfFrame f) then s else s.startClear (spanOfFrame f)

/-- A span that neither a committed save nor the twin brings back: every line is poisoned (02 Table 2.9, R86). -/
def State.loseSpans (s : State) (l : List Nat) : State :=
  if l.isEmpty then s
  else
    let s := s.newLossCause
    let s := l.foldl (fun s sp => (s.poisonSpan sp).spanLoss sp 1 3) s
    let s := { s with lines := { s.lines with spanReg := s.lines.spanReg.filter (fun sp => !l.contains sp) } }
    (s.raise F.PW_PERSIST_STATUS.DIRTY_LOSS).health 4 1

/-- Frames that the twin will not bring back any more: their spans are lost. -/
def State.loseBack (s : State) (l : List (Nat × Nat)) : State :=
  let sps := nub (l.map (fun x => spanOfFrame x.2))
  ({ s with lines := { s.lines with
    copyBack := s.lines.copyBack.filter (fun x => !sps.contains (spanOfFrame x.2)) } }).loseSpans sps

/-- Repairs and heals that were waiting for a twin now lost: no twin copy exists any more (02 R81; 08 R256). -/
def State.dropRepairs (s : State) : State :=
  let reqs := s.bay.reqs.filter (fun r => match r.st with | .repairing _ _ => true | _ => false)
  let s := reqs.foldl (fun s r =>
    match s.req r.id with
    | some q => (match q.st with | .repairing _ x => s.poisonRead (lineOfOff q.offset) x | _ => s)
    | none => s) s
  let rmw := s.lines.rmwRepair
  let s := { s with lines := { s.lines with rmwRepair := [] } }
  let s := rmw.foldl (fun s x => s.poisonLine x.2 2) s
  let s := s.loseBack s.lines.copyBack
  let heals := s.stripe.heals
  let s := { s with stripe := { s.stripe with heals := [] } }
  s.lossFrames (heals.map Prod.snd)

/-! Reshape (08 R258 to R260). -/

/-- Data frames of a tier P geometry, with the rows per group of the one in use. -/
def State.geomP (s : State) (g : StripeGeom) : Nat := g.groups.length * s.groupRows * (g.pWidth - 2)

/-- Extents of 1 GiB in the data region of each member of a group (08 R259). -/
def State.groupExtents (s : State) : Nat := ceilDiv s.groupRows (2 ^ 18)

/-- Extents of the groups that hold data of the frames that `sel` picks, as group and number. -/
def State.extentsUsed (s : State) (sel : Nat → Bool) : List (Nat × Nat) :=
  (s.tier.pmap.filter (fun x => sel x.1)).foldl (fun l x =>
    let e := (x.2.1, s.rowOf x.2.2 / 2 ^ 18)
    if l.contains e then l else l ++ [e]) []

/-- Every member of a geometry has a free extent: one of no group yet, or one whose group has an extent without data (08 R258,
R259). -/
def State.extentsFree (s : State) (g : StripeGeom) : Bool :=
  let used := s.extentsUsed (fun _ => true)
  g.groups.flatten.all (fun m => match SMap.find s.stripe.members m with
    | some x => decide ((used.filter (fun e => e.1 == x.group)).length < s.groupExtents)
    | none => true)

/-- Data frames of tier F at a width (08 R237). -/
def State.geomF (s : State) (w : Nat) : Nat := s.tier.fFrames / max 1 (s.bandCap s.fWidth) * s.fWidth / max 1 w * s.bandCap w

/-- Old-width bands that hold valid data. -/
def State.oldBands (s : State) : Nat :=
  (s.flash.bands.filter (fun x => x.2.width != s.fWidth && decide (0 < x.2.valid))).length

/-- Spans still in the old layout: those of home P at or above the cursor. -/
def State.spansLeft (s : State) : Nat :=
  (s.tier.spans.filter (fun x => x.2.home == .p && decide (s.stripe.reshape.cursor ≤ x.1))).length

/-- The modules that a geometry makes members of a group, as a bit mask (08 Table 8.9). -/
def geomModules (g : StripeGeom) : Nat :=
  (List.range 32).foldl (fun a m => if g.groups.any (fun l => l.contains m) then a + 2 ^ m else a) 0

/-- The tier F part of a reshape begins: new bands open at the new width (08 R260). -/
def State.reshapeF (s : State) (old g : StripeGeom) : State :=
  let s := (s.put F.ST_F_CFG.OLD_WIDTH old.fWidth).put F.ST_F_CFG.WIDTH g.fWidth
  { s with stripe := { s.stripe with reshape := { st := 1, tier := 1, total := s.oldBands } } }

/-- Tier P has the new geometry (08 Table 8.6 step 6). -/
def State.reshapedP (s : State) (g : StripeGeom) : State :=
  let s := (s.put F.ST_P_CFG.GROUPS g.groups.length).put F.ST_P_CFG.WIDTH g.pWidth
  (s.put F.ST_P_CFG.P_SPARE g.pSpare).put F.ST_P_CFG.MODULES (geomModules g)

/-- The reshape has ended: the target is the geometry in use. -/
def State.reshapeEnd (s : State) (g : StripeGeom) : State :=
  ({ s with stripe := { s.stripe with geom := some g, target := none, reshape := { s.stripe.reshape with st := 0 } } }).raise
    F.ST_STATUS.RESHAPE_DONE

/-- A tier F reshape ends when no old-width band holds valid data (08 R260). -/
def State.endF (s : State) (g : StripeGeom) : State :=
  if s.oldBands = 0 then (s.put F.ST_F_CFG.OLD_WIDTH 0).reshapeEnd g else s

/-- A running reshape with nothing left to move ends; a target that changes both tiers reshapes P and then F (DESIGN CHOICE, log
entry 105). One that has no free extent pauses until there is one (08 Table 8.7). -/
def State.checkReshape (s : State) : State :=
  match s.stripe.target, s.stripe.geom with
  | some g, some old =>
    let r := s.stripe.reshape
    let room := s.extentsFree g
    if r.st = 2 ∧ r.noRoom = true ∧ room = true then
      { s with stripe := { s.stripe with reshape := { r with st := 1, autoPaused := false, noRoom := false } } }
    else if r.st ≠ 1 then s
    else if r.tier ≠ 0 then s.endF g
    else if s.spansLeft = 0 then
      if g.fWidth = old.fWidth then (s.reshapedP g).reshapeEnd g
      else
        let s := s.reshapedP g
        (({ s with stripe := { s.stripe with geom := some { g with fWidth := old.fWidth } } }).reshapeF old g).endF g
    else if !room then
      ({ s with stripe := { s.stripe with reshape := { r with st := 2, autoPaused := true, noRoom := true } } }).raise
        F.ST_STATUS.RESHAPE_PAUSED
    else s
  | _, _ => s

/-- The end of a command of ST_RESHAPE_CMD: its code, with GO and BUSY clear. -/
def State.reshapeCode (s : State) (code : Nat) : State :=
  ((s.put F.ST_RESHAPE_CMD.CODE code).put F.ST_RESHAPE_CMD.GO 0).put F.ST_RESHAPE_CMD.BUSY 0

/-- ST_RESHAPE_CMD START (08 R258 to R260). While a reshape runs or is paused it completes with NOT_PERMITTED as well, a case that R258
does not name (DESIGN CHOICE, log entry 106). -/
def State.reshapeStart (s : State) : State :=
  match s.stripe.target, s.stripe.geom with
  | some g, some old =>
    let p := g.groups != old.groups || g.pWidth != old.pWidth || g.pSpare != old.pSpare
    let f := g.fWidth != old.fWidth
    let inUse := s.framesIn .p (fun _ => true)
    if !(p || f) || s.rebuilding || s.stripe.resyncFull || (p && decide (s.geomP g < inUse))
        || (f && decide (s.geomF g.fWidth < s.framesIn .f (fun _ => true))) || (p && !s.extentsFree g)
        || s.stripe.reshape.st != 0 then s.reshapeCode 12
    else
      let s := if p then
          let s := { s with stripe := { s.stripe with reshape := {} } }
          { s with stripe := { s.stripe with reshape := { st := 1, total := s.spansLeft } } }
        else s.reshapeF old g
      (s.reshapeCode 0).checkReshape
  | _, _ => s.reshapeCode 12

/-- ST_RESHAPE_CMD PAUSE; with no reshape running its code is open (log entry 2). -/
def State.reshapePause (s : State) : State :=
  if s.stripe.reshape.st = 1 then
    let s := { s with stripe := { s.stripe with reshape := { s.stripe.reshape with st := 2, autoPaused := false } } }
    (s.raise F.ST_STATUS.RESHAPE_PAUSED).reshapeCode 0
  else
    let (c, s) := s.openCode
    s.reshapeCode c

/-- ST_RESHAPE_CMD RESUME; with no reshape paused its code is open (log entry 2). -/
def State.reshapeResume (s : State) : State :=
  if s.stripe.reshape.st = 2 then
    ({ s with stripe := { s.stripe with reshape := { s.stripe.reshape with st := 1, autoPaused := false } } }).reshapeCode 0
  else
    let (c, s) := s.openCode
    s.reshapeCode c

/-- A command of ST_RESHAPE_CMD by its code; a reserved code completes with BAD_DESCRIPTOR (08 Table 8.14). -/
def State.reshapeRun (s : State) (op : Nat) : State :=
  if s.isSet F.ST_RESHAPE_CMD.BUSY 0 then s.raise F.ST_STATUS.CMD_OVERRUN
  else
    let s := s.put F.ST_RESHAPE_CMD.OP op
    match op with
    | 1 => s.reshapeStart
    | 2 => s.reshapePause
    | 3 => s.reshapeResume
    | _ => s.reshapeCode 7

/-- RESHAPE_START (08 R258). -/
def execReshapeStart (via : Via) (at_ : Nat) (s : State) : Host.Outcome State Fault Refusal :=
  .next ((s.tick at_).command via .ST_RESHAPE_CMD 0 [] (word 0x101) (fun s => s.reshapeRun 1))

/-- RESHAPE_PAUSE (08 Table 8.7). -/
def execReshapePause (via : Via) (at_ : Nat) (s : State) : Host.Outcome State Fault Refusal :=
  .next ((s.tick at_).command via .ST_RESHAPE_CMD 0 [] (word 0x102) (fun s => s.reshapeRun 2))

/-- RESHAPE_RESUME (08 Table 8.7). -/
def execReshapeResume (via : Via) (at_ : Nat) (s : State) : Host.Outcome State Fault Refusal :=
  .next ((s.tick at_).command via .ST_RESHAPE_CMD 0 [] (word 0x103) (fun s => s.reshapeRun 3))

/-- RESHAPE_SPAN_DONE (08 Table 8.6 steps 3 to 6): the frames of the span stand in new-layout slots, given as
frame in span and slot; a span dirtied meanwhile is retried later (Table 8.7). -/
def execReshapeSpanDone (span group : Nat) (slots : List (Nat × Nat)) (at_ : Nat) (s : State) :
    Host.Outcome State Fault Refusal :=
  let s := s.tick at_
  let r := s.stripe.reshape
  .next (if r.tier = 0 ∧ (r.st = 1 ∨ (r.st = 2 ∧ r.autoPaused = false)) ∧ !s.spanDirty span then
      let s := slots.foldl (fun s x =>
        let f := span * 256 + x.1
        if SMap.has s.tier.pmap f then
          ({ s with tier := { s.tier with pmap := SMap.put s.tier.pmap f (group, x.2) } }).floatFrame group x.2
        else s) s
      let n := r.sinceCursor + 1
      let c := max r.cursor (span + 1)
      let r' := { r with cursor := c, sinceCursor := if n = 256 then 0 else n, saved := if n = 256 then c else r.saved }
      ({ s with stripe := { s.stripe with reshape := r' } }).checkReshape.settle
    else s)

/-- ST_PARITY_STAT_READ (08 R261). -/
def execStParityStatRead (via : Via) (w : AccW) (s : State) : Host.Outcome State Fault Refusal :=
  .next (s.readCounters via .ST_PARITY_STAT 0 w [F.ST_PARITY_STAT.MISMATCH, F.ST_PARITY_STAT.HEALED])

end Sys2Proof.Machine
end

