-- ==== Sys2Proof/Machine/Requests.lean ====
section
/-! DEFINITION. Requests of hosts, and what moves a waiting request on: entry fills, retries, expiry, the
drain of a path (01 R21, R28 to R45). -/

namespace Sys2Proof.Machine

open Sys2Proof

/-- The range offset that a committed decoder gives for a host address (01 R28): with W ways at granularity G
the address bits that pick the way drop out. -/
def hdmOffset (d : Hdm) (hpa : Nat) : Option Nat :=
  if d.base ≤ hpa ∧ hpa < d.base + d.size then
    let o := hpa - d.base
    let g := 256 * 2 ^ d.granLog2
    let w := 2 ^ d.waysLog2
    some (d.dpa + o / (g * w) * g + o % g)
  else none

/-- The range offset of a host address on an LD. -/
def State.decodeHpa (s : State) (port ld hpa : Nat) : Option Nat :=
  (SMap.findD s.bay.decoders (port * 16 + ld) []).findSome? (fun d => hdmOffset d hpa)

/-- The source number of a HOST port, LD and tag space (01 R44). -/
def hostSource (port ld : Nat) : Nat := port + ld * 128

/-- A CXL.mem request: decoded and submitted for the LD's tenant. A request that no decoder of the LD takes
fails as 01 R30 gives (PRESUMED, log entry 12). -/
def State.hostRequest (s : State) (port ld tag hpa : Nat) (op : ReqOp) : State :=
  let write := match op with | .write _ _ _ => true | _ => false
  match s.decodeHpa port ld hpa, SMap.find s.bay.ldTenant (port * 16 + ld) with
  | some o, some t => s.submit (hostSource port ld) (.host port ld tag) op o t
  | _, _ =>
    if write then s.emit (.memCmp port ld tag true 0#512 false)
    else
      let (k, s) := s.nextFree
      s.emit (.memCmp port ld tag false (Config.openLine k) true)

/-- The port takes CXL.mem requests: a HOST port in service, not fenced (03 R102). -/
def State.hostServes (s : State) (port : Nat) : Bool :=
  s.portUp port && s.getF F.PT_CFG.PERSONALITY port == 1 && !s.twin.portsFenced

/-- MEM_RD (01 R29). -/
def execMemRd (port ld tag hpa at_ : Nat) (s : State) : Host.Outcome State Fault Refusal :=
  let s := s.tick at_
  .next (if s.hostServes port then (s.hostRequest port ld tag hpa .read).settle else s)

/-- MEM_WR (02 R53). -/
def execMemWr (port ld tag hpa : Nat) (be : Word) (data : LineData) (at_ : Nat) (s : State) :
    Host.Outcome State Fault Refusal :=
  let s := s.tick at_
  .next (if s.hostServes port then ((s.countRx port 64).hostRequest port ld tag hpa (.write be data false)).settle else s)

/-- Cached entries of bolts that a BOLT_POLICY panel does not reserve (12 R337). -/
def State.cacheVictims (s : State) : List Nat :=
  s.bay.boltCache.filter (fun b =>
    let k := b / 16384 % 64
    match SMap.find s.image.policy k with
    | some (_, n) => decide (n < (s.bay.boltCache.filter (fun c => c / 16384 % 64 == k)).length)
    | none => true)

/-- An entry put into the HUB cache; a full cache gives up a victim that its LFSR picks (01 R21; a free value,
log entry 2). -/
def State.cacheEntry (s : State) (b : Nat) : State :=
  if s.bay.boltCache.contains b then s
  else if s.bay.boltCache.length < Config.boltCacheSize then
    { s with bay := { s.bay with boltCache := s.bay.boltCache ++ [b] } }
  else
    let l := s.cacheVictims
    let l := if l.isEmpty then s.bay.boltCache else l
    let v := l.getD (Config.hubVictim s.freeIx % max 1 l.length) 0
    { s with freeIx := s.freeIx + 1,
             bay := { s.bay with boltCache := s.bay.boltCache.filter (fun c => c != v) ++ [b] } }

/-- BOLT_CACHE_MISS_FILL (01 R21, R23): the entry from the tier D copy is in the cache and the waiting request
goes on. -/
def execBoltCacheMissFill (id at_ : Nat) (s : State) : Host.Outcome State Fault Refusal :=
  let s := s.tick at_
  .next (match s.req id with
    | some r =>
      (match r.st with
       | .cacheMiss => (((s.checkEntry (reqBolt r)).cacheEntry (reqBolt r)).route r true).settle
       | _ => s)
    | none => s)

/-- HELD_REQUEST_RETRY (01 R42). -/
def execHeldRequestRetry (id at_ : Nat) (s : State) : Host.Outcome State Fault Refusal :=
  let s := s.tick at_
  .next (match s.req id with
    | some r => (match r.st with | .held _ _ => (s.start r).settle | _ => s)
    | none => s)

/-- BL_FWD_TIMEOUT in ns; below 5,000 µs it acts as 5,000 (01 Table 1.13). -/
def State.fwdTimeoutNs (s : State) : Nat := max 5000 (s.get F.BL_FWD_TIMEOUT.TIMEOUT_US) * 1000

/-- What is held for a path or for an entry, and has waited for BL_FWD_TIMEOUT, fails (01 R43): its requester gets TIMEOUT. -/
def State.expireLink (s : State) (id : Nat) : State :=
  match s.bay.transit.find? (fun t => t.id == id) with
  | some t =>
    if t.since + s.fwdTimeoutNs ≤ s.now then
      let s := { s with bay := { s.bay with transit := s.bay.transit.filter (fun x => x.id != id) } }
      (s.raiseOff F.BL_STATUS.FWD_TIMEOUT t.hdr.offset).failTransit t 11
    else s
  | none =>
    match s.bay.gateHeld.find? (fun g => g.id == id) with
    | some g =>
      if g.since + s.fwdTimeoutNs ≤ s.now then
        let s := { s with bay := { s.bay with gateHeld := s.bay.gateHeld.filter (fun x => x.id != id) } }
        (s.raiseOff F.BL_STATUS.FWD_TIMEOUT g.hdr.offset).failTransit { id := id, hdr := g.hdr, body := g.body, since := g.since } 11
      else s
    | none => s

/-- HOLD_EXPIRY (01 R43): a request held, or forwarded again, for BL_FWD_TIMEOUT fails; a target that becomes
reachable at that very moment comes too late. -/
def execHoldExpiry (id at_ : Nat) (s : State) : Host.Outcome State Fault Refusal :=
  let s := s.tick at_
  .next (match s.req id with
    | some r =>
      let waits := match r.st with | .held _ _ => true | .forwarded _ _ _ _ => true | .behind => true | _ => false
      (match r.since with
       | some t =>
         if waits && decide (t + s.fwdTimeoutNs ≤ s.now) then
           ((s.raiseOff F.BL_STATUS.FWD_TIMEOUT r.offset).fail r 11).settle
         else s
       | none => s)
    | none => s.expireLink id)

/-- Requests forwarded to a device and not answered. -/
def State.outstanding (s : State) (dev : Nat) : Bool :=
  s.bay.reqs.any (fun r => match r.st with | .forwarded d _ _ _ => d == dev | _ => false)

/-- The port that the route of a device should use: the primary while its link is in service, else the
alternate. -/
def State.wantAlt (s : State) (dev : Nat) : Bool :=
  let p := s.getF F.BL_ROUTE.PRIMARY_PORT dev
  !(decide (p < 96) && s.portUp p)

/-- The path to a device changes once its outstanding requests have drained; ROUTE_ALT marks a move to the
alternate path (01 R41). -/
def State.switchRoute (s : State) (dev : Nat) : State :=
  let alt := s.wantAlt dev
  let was := s.isSet F.BL_ROUTE.ALT_IN_USE dev
  let s := { s with bay := { s.bay with draining := removeNum dev s.bay.draining } }
  let s := if alt = was then s else
    let s := s.setF F.BL_ROUTE.ALT_IN_USE dev (bit alt)
    if alt then s.raise F.BL_STATUS.ROUTE_ALT else s
  (s.releaseTransit dev).retryHeld

/-- ROUTE_DRAIN_DONE (01 R41). -/
def execRouteDrainDone (dev at_ : Nat) (s : State) : Host.Outcome State Fault Refusal :=
  let s := s.tick at_
  .next (if s.bay.draining.contains dev && !s.outstanding dev then (s.switchRoute dev).settle else s)

/-- BL_CACHE_STAT_READ (01 R48). -/
def execBlCacheStatRead (via : Via) (w : AccW) (s : State) : Host.Outcome State Fault Refusal :=
  .next (s.readCounters via .BL_CACHE_STAT 0 w [F.BL_CACHE_STAT.HITS, F.BL_CACHE_STAT.MISSES])

/-- CREDIT_RETURN (11 R323): credits of a class come back on a link, and messages that wait for them go. -/
def execCreditReturn (port cls n at_ : Nat) (s : State) : Host.Outcome State Fault Refusal :=
  let s := s.tick at_
  let k := port * 3 + cls
  let s := { s with ports := { s.ports with credits := SMap.updD s.ports.credits k 0 (fun c => c + n) } }
  .next (s.flushClass port cls s.ports.sendq)

end Sys2Proof.Machine
end

