-- ==== Sys2Proof/Machine/Durable.lean ====
section
/-! DEFINITION. Durable stores and the dirty budget (02): the dirty-span register, destage and its
read-modify-write, the merge buffer, GPF, the budget registers and poison counters. -/

namespace Sys2Proof.Machine

open Sys2Proof

/-! The dirty-span register (02 R56 to R59; 03 R123). -/

/-- The two save-area modules of a span's bit: the spans are dealt over the mirror pairs in order (02 R56;
04 R143; which pair is a DESIGN CHOICE, log entry 25). -/
def State.spanModules (s : State) (sp : Nat) : Option (Nat × Nat) :=
  let l := s.image.saveModules
  let n := l.length / 2
  if n = 0 then none
  else
    match l[2 * (sp % n)]?, l[2 * (sp % n) + 1]? with
    | some a, some b => some (a, b)
    | _, _ => none

/-- A save-area module took a write, or failed to (02 R57, R62). -/
def State.noteModule (s : State) (m : Nat) (ok : Bool) : State :=
  if ok then
    if s.lines.saveOut.contains m then
      ({ s with lines := { s.lines with saveOut := removeNum m s.lines.saveOut } }).updateSaveRate
    else s
  else if s.lines.saveOut.contains m then s
  else ({ s with lines := { s.lines with saveOut := insertSorted m s.lines.saveOut } }).updateSaveRate

/-- A span's bit is set: stores and repairs that waited for it go on (02 R57). -/
def State.spanMarked (s : State) (sp : Nat) : State :=
  let b := boltOfSpan sp
  let split := s.mirrored b && s.twin.st != .paired
  let s := { s with lines := { s.lines with
    spanReg := insertSorted sp s.lines.spanReg,
    splitMap := if split then insertSorted sp s.lines.splitMap else s.lines.splitMap,
    spanWrites := s.lines.spanWrites.filter (fun w => w.span != sp) } }
  { s with bay := { s.bay with reqs := s.bay.reqs.map (fun r =>
      if spanOfOff r.offset = sp then
        match r.st with
        | .storing true a d t => { r with st := .storing false a d t }
        | .installing d true => { r with st := .installing d false }
        | .refused true d t => { r with st := .refused false d t }
        | _ => r
      else r) } }

/-- The slot of a span's bit on the modules of its pair, in the part of the save area for the register (04 R143, R144; log entry 25). -/
def State.spanSlot (s : State) (sp : Nat) : Nat := sp / 32768 % max 1 (2 ^ 18 / max 1 s.image.saveModules.length)

/-- A frame of the save area written to the modules that took it, counted for Float (04 R145). -/
def State.saveWrites (s : State) (ms : List (Nat × Bool)) (slot : Nat) : State :=
  ms.foldl (fun s x => if x.2 then s.floatWrite x.1 slot else s) s

/-- A dirty-span write ends, first time or retried: `a` and `b` say which module of the mirror took it
(02 R57, R59). -/
def State.spanWriteEnds (s : State) (sp : Nat) (a b : Bool) : State :=
  match s.lines.spanWrites.find? (fun w => w.span == sp) with
  | none => s
  | some w =>
    let s := match s.spanModules sp with
      | some (ma, mb) => ((s.saveWrites [(ma, a), (mb, b)] (s.spanSlot sp)).noteModule ma a).noteModule mb b
      | none => s
    if a || b then
      let s := if a && b then { s with lines := { s.lines with spanDue := removeNum sp s.lines.spanDue } }
        else ({ s with lines := { s.lines with spanDue := insertSorted sp s.lines.spanDue } }).raise
          F.PW_PERSIST_STATUS.SPAN_REG_FAULT
      let s := s.spanMarked sp
      if s.lines.spanLost && s.lines.saveOut.isEmpty && !s.lines.spanWrites.any (fun x => x.failed) then
        -- the save area is whole again: the episode ends (02 R59)
        ({ s with lines := { s.lines with spanLost := false } }).checkBudget
      else s
    else
      let s := { s with lines := { s.lines with
        spanWrites := s.lines.spanWrites.map (fun x => if x = w then { x with failed := true } else x) } }
      if s.lines.spanLost then s
      else
        let before := s.effGib
        let s := { s with lines := { s.lines with spanLost := true } }
        (s.raise F.PW_PERSIST_STATUS.SPAN_REG_LOST).budgetChanged before

/-- A span's write has ended and what waited for it goes on; a span that holds no dirty line by then is cleared again (02 R58). -/
def State.spanWritten (s : State) (sp : Nat) (a b : Bool) : State := ((s.spanWriteEnds sp a b).settle).startClear sp

/-- SPAN_REG_FAULT has been cleared: the bits that one module lacks are written again (02 R57). -/
def State.rewriteSpans (s : State) : State :=
  let s := s.lines.spanDue.foldl State.startSpanWrite s
  { s with lines := { s.lines with spanDue := [] } }

/-- DIRTY_SPAN_WRITE_DONE (02 R57). -/
def execDirtySpanWriteDone (span : Nat) (a b : Bool) (at_ : Nat) (s : State) : Host.Outcome State Fault Refusal :=
  .next ((s.tick at_).spanWritten span a b)

/-- DIRTY_SPAN_RETRY (02 R59): a write that reached no module is tried again. -/
def execDirtySpanRetry (span : Nat) (a b : Bool) (at_ : Nat) (s : State) : Host.Outcome State Fault Refusal :=
  let s := s.tick at_
  .next (if s.lines.spanWrites.any (fun w => w.span == span && w.failed) then s.spanWritten span a b else s)

/-- DIRTY_SPAN_CLEAR (02 R58): the clear of a span's bit reaches tier P; a store that waited for it sets the
bit again. -/
def execDirtySpanClear (span at_ : Nat) (s : State) : Host.Outcome State Fault Refusal :=
  let s := s.tick at_
  .next (if s.lines.spanClears.contains span then
      let s := { s with lines := { s.lines with
        spanClears := removeNum span s.lines.spanClears, spanReg := removeNum span s.lines.spanReg,
        spanDue := removeNum span s.lines.spanDue } }
      let waits := s.bay.reqs.any (fun r => spanOfOff r.offset == span &&
        (match r.st with | .storing true _ _ _ => true | .installing _ true => true | .refused true _ _ => true | _ => false))
      (if waits || s.spanDirty span then s.startSpanWrite span else s).settle
    else s)

/-! Destage (02 R69 to R71, R75, R76). -/

/-- DESTAGE_AGE_EXPIRY (02 R69): a line dirty for AGE_S seconds is taken for destage. -/
def execDestageAgeExpiry (line at_ : Nat) (s : State) : Host.Outcome State Fault Refusal :=
  let s := s.tick at_
  let age := s.get F.PW_DESTAGE_CTL.AGE_S
  .next (match SMap.find s.lines.dirty line with
    | some d =>
      if age ≠ 0 ∧ d.since + age * 1000000000 ≤ s.now then
        ({ s with lines := { s.lines with destageQ := insertSorted (frameOfLine line) s.lines.destageQ } }).settle
      else s
    | none => s)

/-- The rows of a frame's pass may be written: a LIST names its row (08 R243). -/
def State.rowListed (s : State) (g row : Nat) : Bool :=
  let k := s.skim g
  k.inFlight.contains row && !k.batch.contains row && !k.waiting.contains row

/-- Write-through stores to a frame whose lines are clean now need no destage any more (02 R67). -/
def State.destaged (s : State) (f : Nat) : State :=
  { s with bay := { s.bay with reqs := s.bay.reqs.map (fun r =>
      if frameOfOff r.offset = f ∧ !SMap.has s.lines.dirty (lineOfOff r.offset) then
        match r.st with
        | .storing n a true t => { r with st := .storing n a false t }
        | .refused n true t => { r with st := .refused n false t }
        | _ => r
      else r) } }

/-- DESTAGE_FRAME_DONE (02 R70): a frame and its parity stand in tier P at a slot of a group. The lines of
`lines` that were not stored again are clean, the others stay dirty. -/
def State.onDestageFrameDone (frame group slot : Nat) (lines : Word) (at_ : Nat) (s : State) : State :=
  let s := s.tick at_
  match SMap.find s.lines.running frame with
  | some (g, sl, rmw) =>
      if g = group ∧ sl = slot ∧ rmw = false ∧ s.rowListed g (s.rowOf sl)
          ∧ !s.lines.rmwRepair.any (fun x => frameOfLine x.2 == frame) then
        let again := SMap.findD s.lines.again frame 0#64
        let clean := (List.range 64).filter (fun k => lines.getLsbD k && !again.getLsbD k
          && SMap.has s.lines.dirty (frame * 64 + k))
        let s : State := clean.foldl (fun s k =>
          ({ s with lines := { s.lines with mask := SMap.del s.lines.mask (frame * 64 + k) } }).makeClean (frame * 64 + k)) s
        let s := { s with
          lines := { s.lines with
            running := SMap.del s.lines.running frame, again := SMap.del s.lines.again frame,
            destageQ := if again = 0#64 then removeNum frame s.lines.destageQ else s.lines.destageQ,
            flushes := s.lines.flushes.map (fun w : FlushWait => FlushWait.mk w.id (w.frames.erase frame)) },
          tier := { s.tier with pmap := SMap.put s.tier.pmap frame (g, sl) } }
        let s := ((s.floatFrame g sl).rowDone g (s.rowOf sl)).destaged frame
        (s.startClear (spanOfFrame frame)).checkDemotion.settle
      else s
  | none => s

/-- A line of a frame has a whole copy in this device's Crown or tier D (02 R76): no byte of it is missing, and its way awaits no
fill. -/
def State.localCopy (s : State) (l : Nat) : Bool :=
  !SMap.has s.lines.mask l &&
    (SMap.has s.lines.dirty l || s.inTierD l || (match s.cellAt l with | some (_, c) => !c.filling | none => false))

/-- The old frame of a destage pass is read (02 R75). Where it cannot be recovered, each line with no copy here comes from the
twin, or is poisoned where the twin has none (02 R76). -/
def State.rmwRead (s : State) (frame : Nat) (ok : Bool) : State :=
  match SMap.find s.lines.running frame with
  | some (g, sl, true) =>
    let s := { s with lines := { s.lines with running := SMap.put s.lines.running frame (g, sl, false) } }
    if ok then s
    else
      let need := ((List.range 64).map (fun k => frame * 64 + k)).filter (fun l =>
        !s.localCopy l && (!s.isPoison l || SMap.has s.lines.dirty l))
      need.foldl (fun s l =>
        if s.hasTwinCopy (spanOfLine l) then
          let s := s.loseBytes l
          let (tag, s) := s.sendRepair l 1
          { s with lines := { s.lines with rmwRepair := s.lines.rmwRepair ++ [(tag, l)] } }
        else s.poisonLine l 2) s
  | _ => s

/-- RMW_READ_DONE (02 R75, R76). -/
def execRmwReadDone (frame : Nat) (ok : Bool) (at_ : Nat) (s : State) : Host.Outcome State Fault Refusal :=
  .next ((s.tick at_).rmwRead frame ok).settle

/-- The twin's line for a frame built under 02 R76. -/
def State.takeRmw (s : State) (l : Nat) (d : LineData) (ok : Bool) : State :=
  let m := SMap.findD s.lines.mask l 0#64
  let s1 := s.poisonLine l 2
  let s2 := (s.putLine l (~~~m) d).bump F.PW_POISON_COUNT.REPAIRED 0 1
  let s := if ok then s2.health 10 1 else s1
  { s with lines := { s.lines with mask := SMap.del s.lines.mask l } }

/-! GPF (02 R83). -/

/-- GPF_PHASE1 (02 R83): answered once the stores in hand are complete. -/
def execGpfPhase1 (port at_ : Nat) (s : State) : Host.Outcome State Fault Refusal :=
  let s := s.tick at_
  .next ({ s with bay := { s.bay with gpfWait := s.bay.gpfWait ++ [port] } }).settle

/-- GPF_PHASE2 (02 R83): nothing is destaged; a duration of 10 µs is reported. -/
def execGpfPhase2 (port at_ : Nat) (s : State) : Host.Outcome State Fault Refusal :=
  .next ((s.tick at_).emit (.gpf port 2 10))

/-! Budget registers (02 R61 to R67, R91). -/

/-- PW_DIRTY_BUDGET written: refused above a limit, above 0x800 or at zero (02 R65). -/
def State.writeBudget (s : State) (via : Via) (w : AccW) (v : Word) : State :=
  s.writeAt via .PW_DIRTY_BUDGET 0 w v (fun s =>
    if fieldMask [F.PW_DIRTY_BUDGET.BUDGET_GIB] &&& accMask w = 0#64 then s
    else
      let x := bitsOf (accValue w v) 0 12
      if x = 0 ∨ 0x800 < x ∨ s.limitGib < x ∨ s.saveLimitGib < x then
        s.raise F.PW_PERSIST_STATUS.BUDGET_REFUSED
      else
        let before := s.effGib
        ((s.put F.PW_DIRTY_BUDGET.BUDGET_GIB x).budgetChanged before).settle)

/-- PW_DIRTY_BUDGET_WRITE (02 R65). -/
def execPwDirtyBudgetWrite (via : Via) (w : AccW) (v : Word) (at_ : Nat) (s : State) :
    Host.Outcome State Fault Refusal :=
  .next ((s.tick at_).writeBudget via w v)

/-- PW_ENERGY_DECL written: in effect at once (02 R66). -/
def State.writeEnergy (s : State) (via : Via) (w : AccW) (v : Word) : State :=
  s.writeAt via .PW_ENERGY_DECL 0 w v (fun s =>
    let before := s.effGib
    ((s.writeFields .PW_ENERGY_DECL 0 w v false).budgetChanged before).settle)

/-- PW_ENERGY_DECL_WRITE (02 R66). -/
def execPwEnergyDeclWrite (via : Via) (w : AccW) (v : Word) (at_ : Nat) (s : State) :
    Host.Outcome State Fault Refusal :=
  .next ((s.tick at_).writeEnergy via w v)

/-- PW_PERSIST_STATUS written: a cleared SPAN_REG_FAULT lets the second module be written again (02 R57). -/
def State.writePersist (s : State) (via : Via) (w : AccW) (v : Word) : State :=
  let t := s.writePlain via .PW_PERSIST_STATUS 0 w v
  if s.isSet F.PW_PERSIST_STATUS.SPAN_REG_FAULT 0 && !t.isSet F.PW_PERSIST_STATUS.SPAN_REG_FAULT 0 then t.rewriteSpans else t

/-- PW_POISON_COUNT_READ (02 R91). -/
def execPwPoisonCountRead (via : Via) (w : AccW) (s : State) : Host.Outcome State Fault Refusal :=
  .next (s.readCounters via .PW_POISON_COUNT 0 w [F.PW_POISON_COUNT.REPAIRED, F.PW_POISON_COUNT.POISONED])

end Sys2Proof.Machine
end

