-- ==== Sys2Proof/Machine/Bolts.lean ====
section
/-! DEFINITION. Bolt entries and the commands that change them (01 R17 to R27, R49; 02 R425; 03 R107):
applying an entry, the claim gate's record, distribution, and the BL commands with the device that carries
them out. -/

namespace Sys2Proof.Machine

open Sys2Proof

/-! Entries. -/

/-- An entry of Table 1.2 from its words 0 and 2. -/
def entryOfWords (w0 w2 : Word) (claim seq : Nat) : BoltEntry :=
  sealEntry { valid := true, durability := bitsOf w0 1 2, activeSide := bitsOf w0 3 1, access := bitsOf w0 4 2,
              pairId := bitsOf w0 8 5, tenant := bitsOf w0 16 12, claim := claim,
              dCap := bitsOf w2 0 16, pCap := bitsOf w2 16 16, fCap := bitsOf w2 32 16, seq := seq, crc := 0#32 }

/-- A non-zero RSV field of word 0 or word 2 (01 Table 1.2). -/
def entryRsv (w0 w2 : Word) : Bool :=
  bitsOf w0 6 2 != 0 || bitsOf w0 13 3 != 0 || bitsOf w0 28 36 != 0 || bitsOf w2 48 16 != 0

/-- (CLAIM, SEQ) of `a` is higher than that of `b`, CLAIM first (01 R24). -/
def entryNewer (a b : BoltEntry) : Bool :=
  decide (b.claim < a.claim) || (a.claim == b.claim && decide (b.seq < a.seq))

/-- The claim gate's record of a bolt (03 R107). -/
def State.gateRecord (s : State) (b : Nat) : Nat :=
  max (SMap.findD s.bay.gate b 0) (if s.bay.crcBad.contains b then 0 else (s.entry b).claim)

/-- The gate's record rises to a claim. -/
def State.raiseGate (s : State) (b c : Nat) : State :=
  { s with bay := { s.bay with gate := SMap.put s.bay.gate b (max c (SMap.findD s.bay.gate b 0)) } }

/-- Everything that a device holds of a bolt is released: lines, frames, map entries, marks and bits
(01 Table 1.15 UNBIND, MODIFY; 04 Table 4.2). -/
def State.releaseBolt (s : State) (b : Nat) : State :=
  let s := s.dropLines (fun l => boltOfLine l == b)
  let s := s.zeroRange (b * 2 ^ 36) (2 ^ 36)
  let s := (SMap.keys (s.flash.map.filter (fun x => boltOfSpan x.1 == b))).foldl State.dropFSpan s
  { s with
    tier := { s.tier with
      spans := s.tier.spans.filter (fun x => boltOfSpan x.1 != b),
      pmap := s.tier.pmap.filter (fun x => boltOfFrame x.1 != b),
      volFrames := s.tier.volFrames.filter (fun f => boltOfFrame f != b) },
    flash := { s.flash with
      changes := s.flash.changes.filter (fun c => boltOfSpan c.span != b), failed := s.flash.failed.filter (fun f => boltOfFrame f != b) },
    lines := { s.lines with
      splitMap := s.lines.splitMap.filter (fun sp => boltOfSpan sp != b),
      destageQ := s.lines.destageQ.filter (fun f => boltOfFrame f != b),
      running := s.lines.running.filter (fun x => boltOfFrame x.1 != b),
      again := s.lines.again.filter (fun x => boltOfFrame x.1 != b),
      copyBack := s.lines.copyBack.filter (fun x => boltOfFrame x.2 != b),
      rmwRepair := s.lines.rmwRepair.filter (fun x => boltOfLine x.2 != b) },
    stripe := { s.stripe with heals := s.stripe.heals.filter (fun x => boltOfFrame x.2 != b) },
    twin := { s.twin with
      copyList := s.twin.copyList.filter (fun sp => boltOfSpan sp != b),
      fills := SMap.del s.twin.fills b } }

/-- Spans of a bolt that hold a written frame or a dirty or poisoned line here (02 R425; 03 R124). -/
def State.dataSpans (s : State) (b : Nat) : List Nat :=
  let w := SMap.keys (s.tier.spans.filter (fun x => boltOfSpan x.1 == b && !x.2.written.isEmpty))
  let d := ((s.lines.dirty.filter (fun x => boltOfLine x.1 == b)).map (fun x => spanOfLine x.1))
    ++ nub ((s.lines.poison.filter (fun l => boltOfLine l == b)).map spanOfLine)
  (d.foldl (fun acc sp => insertSorted sp acc) w)

/-- One frame of a rejoin copy or fill, with poison flags (03 R124, R125). -/
def State.sendCopyFrame (s : State) (f : Nat) (last empty : Bool) : State :=
  let b := boltOfFrame f
  let h := s.hdr s.twinId
  let h := { h with offset := f * 4096, claim := (s.entry b).claim, last := last }
  let data := if empty then [] else (List.range 64).map (fun k => s.line (f * 64 + k))
  let (tag, s) := s.newTag
  let h := { h with tag := tag }
  let s := { s with twin := { s.twin with copyOut := s.twin.copyOut ++ [(tag, f)] } }
  s.sendStream b h (.rejoinCopy empty (s.poisonMap f) data) (s.streamBusy b)

/-- The lines of a frame that this device has lost, and no repair can restore, are poisoned before they are copied (03 R124; 02
R81, R87). -/
def State.poisonBad (s : State) (f : Nat) : State :=
  ((List.range 64).map (fun k => f * 64 + k)).foldl (fun s l =>
    if s.beats l = .bad then ((s.readBeats l).newBeats l).poisonRead l 0
    else match s.repairWaiters l with
      | r :: _ => s.poisonRead l (match r.st with | .repairing _ x => x | _ => 2)
      | [] => s) s

/-- Frames of a span that hold a poisoned line. -/
def State.poisonFrames (s : State) (sp : Nat) : List Nat :=
  nub ((s.lines.poison.filter (fun l => spanOfLine l == sp)).map frameOfLine)

/-- A span copied to the twin: its written frames, and frames with dirty or poisoned lines, or one empty copy where it
holds no data (03 R124; 02 R88). `final` marks the last span of a transfer (11 Table 11.6 LAST). -/
def State.sendCopySpan (s : State) (sp : Nat) (final : Bool) : State :=
  let w := match s.span sp with | some r => r.written.map (fun k => sp * 256 + k) | none => []
  let l := (s.dirtyFrames sp ++ s.poisonFrames sp).foldl (fun acc f => insertSorted f acc) w
  match l.reverse with
  | [] => s.sendCopyFrame (sp * 256) final true
  | z :: _ => l.foldl (fun s f =>
      let s := if s.twin.st = .feeding then s.poisonBad f else s
      s.sendCopyFrame f (final && f == z) false) s

/-- The fill of a bolt starts at its first span (02 R425). A bolt with no data is filled by one empty copy. -/
def State.startFill (s : State) (b : Nat) : State :=
  let l := match s.dataSpans b with | [] => [b * 65536] | l => l
  let s := { s with twin := { s.twin with fills := SMap.put s.twin.fills b l } }
  match l with
  | sp :: t => if s.paired then s.sendCopySpan sp t.isEmpty else s
  | [] => s

/-- An entry applied to the cache and the tier D copy as one change (01 R25), with what follows from it for
the data, the held requests and the forwarded ones (01 R42, R426; 02 R425). -/
def State.applyEntry (s : State) (b : Nat) (e : BoltEntry) : State :=
  let old := s.entry b
  let s := { s with bay := { s.bay with
    bolts := SMap.put s.bay.bolts b e, crcBad := removeNum b s.bay.crcBad, fetches := SMap.del s.bay.fetches b,
    staleBolts := removeNum b s.bay.staleBolts } }
  let s := s.raiseGate b e.claim
  let s := if !e.valid then (if old.valid then s.releaseBolt b else s)
    else if old.valid && old.durability == 0 && e.durability == 1 && e.pairId == s.pairId
        && entryActive e != s.devId then s.releaseBolt b
    else if old.valid && old.durability == 1 && e.durability == 0 && e.pairId == s.pairId then
      if entryActive e = s.devId then s.startFill b
      else { s with twin := { s.twin with fills := SMap.put s.twin.fills b [] } }
    else if e.durability = 1 then { s with twin := { s.twin with fills := SMap.del s.twin.fills b } }
    else s
  s.resendMoved.reissueStores.retryHeld

/-- An entry sent to every reachable device of the bay (01 R24). -/
def State.broadcast (s : State) (b : Nat) (e : BoltEntry) : State :=
  s.reachable.foldl (fun s d =>
    let h := s.hdr d
    s.send { h with offset := b * 2 ^ 36, claim := e.claim } (.boltUpdate e)) s

/-- A change that this device makes to an entry: applied here and distributed (01 R24). -/
def State.changeEntry (s : State) (b : Nat) (e : BoltEntry) : State :=
  let e := sealEntry e
  (s.applyEntry b e).broadcast b e

/-! The BL commands (01 R49). -/

/-- Two devices of a pair are named by the bay topology panel. -/
def State.namesPair (s : State) (p : Nat) : Bool :=
  s.image.topo.any (fun x => x.2.contains (2 * p)) && s.image.topo.any (fun x => x.2.contains (2 * p + 1))

/-- Bolts bound to a pair (04 R144). -/
def State.pairBolts (s : State) (p : Nat) : Nat :=
  (s.bay.bolts.filter (fun x => x.2.valid && x.2.pairId == p)).length

/-- The lowest free bolt index (01 Table 1.15). -/
def State.freeBolt (s : State) : Option Nat :=
  let n := lowestFreeFrom 0 (SMap.keys (s.bay.bolts.filter (fun x => x.2.valid && x.2.durability != 3)))
  if n < s.get F.BL_RANGE_LIMIT.BOLTS then some n else none

/-- A command's end: its code and the four words of its result. -/
structure CmdEnd where
  code : Nat
  res : List Word
  deriving DecidableEq, Repr

/-- An end with no result. -/
def CmdEnd.of (code : Nat) : CmdEnd := { code := code, res := [] }

/-- BIND carried out (01 Table 1.15). The entry is read through the HUB's check (R23). The VALID bit of ARG1 is not looked at: a bound
entry is VALID (DESIGN CHOICE, log entry 96). -/
def State.doBind (s : State) (a0 w0 w2 : Word) : State × CmdEnd :=
  let e := entryOfWords w0 w2 0 1
  if e.durability = 3 ∨ e.access = 3 ∨ entryRsv w0 w2 = true then (s, .of 7)
  else if !s.namesPair e.pairId then (s, .of 12)
  else
    let ix : Option Nat := if a0.getLsbD 63 then s.freeBolt else some (bitsOf a0 0 20)
    match ix with
    | none => (s, .of 4)
    | some b =>
      let s := s.checkEntry b
      if s.get F.BL_RANGE_LIMIT.BOLTS ≤ b then (s, .of 13)
      else if s.bound b then (s, .of 12)
      else if !s.bay.tenants.contains e.tenant then (s, .of 12)
      else if Config.maxPairBolts ≤ s.pairBolts e.pairId then (s, .of 4)
      else
        let c := if s.bay.crcBad.contains b then s.gateRecord b + 1 else (s.entry b).claim + 1
        (s.changeEntry b { e with claim := c }, { code := 0, res := [word b] })

/-- UNBIND carried out. Its RESULT is the bolt index (DESIGN CHOICE, log entry 96). -/
def State.doUnbind (s : State) (b : Nat) : State × CmdEnd :=
  let s := s.checkEntry b
  if !s.bound b then (s, .of 13)
  else
    let e := s.entry b
    (s.changeEntry b { e with valid := false, seq := e.seq + 1 }, { code := 0, res := [word b] })

/-- MODIFY carried out. An unbound bolt is refused as UNBIND refuses it (DEDUCED, log entry 26). The VALID bit of ARG1
is not looked at, and its RESULT is the bolt index (DESIGN CHOICE, log entry 96). -/
def State.doModify (s : State) (b : Nat) (w0 w2 : Word) : State × CmdEnd :=
  let s := s.checkEntry b
  let n := entryOfWords w0 w2 0 0
  let e := s.entry b
  if n.durability = 3 ∨ n.access = 3 ∨ entryRsv w0 w2 = true then (s, .of 7)
  else if !s.bound b then (s, .of 13)
  else if n.pairId ≠ e.pairId ∨ n.tenant ≠ e.tenant ∨ (n.durability ≠ e.durability ∧ (n.durability = 2 ∨ e.durability = 2))
  then (s, .of 12)
  else
    (s.changeEntry b { e with durability := n.durability, access := n.access, dCap := n.dCap, pCap := n.pCap,
                              fCap := n.fCap, seq := e.seq + 1 }, { code := 0, res := [word b] })

/-- The words of an entry as READ_ENTRY returns them. -/
def entryWords (e : BoltEntry) : List Word := [entryWord0 e, word e.claim, entryWord2 e, entryWord3 e]

/-- The tenants of the bay below 4,096 that do not exist. -/
def State.freeTenant (s : State) : Option Nat :=
  let n := lowestFreeFrom 0 s.bay.tenants
  if n < Config.maxTenants then some n else none

/-- A tenant is added to this device's table. -/
def State.addTenant (s : State) (t : Nat) : State :=
  { s with bay := { s.bay with tenants := insertSorted t s.bay.tenants } }

/-- A tenant leaves this device: its quotas go back to zero, a DELETED key slot becomes EMPTY, and a health
summary is written (01 Table 1.15; 04 Table 4.13; 12 R349; 14 R397). -/
def State.dropTenant (s : State) (t : Nat) : State :=
  let s := { s with
    bay := { s.bay with tenants := removeNum t s.bay.tenants },
    tier := { s.tier with quotas := SMap.del s.tier.quotas t },
    cipher := { s.cipher with slots := s.cipher.slots.filter (fun x => !(x.2.tenant == t && x.2.st == KeySt.deleted)) } }
  s.writeSummary

/-- A tenant command, or its effect, told to every other device of the bay (log entry 4). -/
def State.tellTenants (s : State) (op t : Nat) : State :=
  s.reachable.foldl (fun s d =>
    let (tag, s) := s.newTag
    let h := s.hdr d
    s.send { h with tag := tag } (.ctrlReq (.bl op (word t) 0#64 1#64))) s

/-- TENANT_CREATE carried out by the lowest-numbered device. -/
def State.doTenantCreate (s : State) : State × CmdEnd :=
  match s.freeTenant with
  | none => (s, .of 4)
  | some t => ((s.addTenant t).tellTenants 0x10 t, { code := 0, res := [word t] })

/-- A tenant is deleted here and on every other device. -/
def State.deleteTenant (s : State) (t : Nat) : State × CmdEnd :=
  ((s.dropTenant t).tellTenants 0x11 t, { code := 0, res := [] })

/-- A device asked whether an LD of a tenant is attached there, its answer awaited under a tag of its own. -/
def State.askAttached (s : State) (x : TenantDel) (d : Nat) : State × TenantDel :=
  let (tag, s) := s.newTag
  (s.send { s.hdr d with tag := tag } (.ctrlReq (.bl 0x11 (word x.tenant) 0#64 2#64)), { x with waits := x.waits ++ [tag] })

/-- A TENANT_DELETE that waits for the other devices of the bay. -/
def State.putTenantDel (s : State) (x : TenantDel) (l : List Nat) : State :=
  let (s, x) := l.foldl (fun (a : State × TenantDel) d => a.1.askAttached a.2 d) (s, x)
  { s with bay := { s.bay with tenantDel := some x } }

/-- TENANT_DELETE carried out: with no bolt bound and no LD attached here, the other devices are asked for theirs; the command ends
with their last answer. Its RESULT is 0 (DESIGN CHOICE, log entry 96). -/
def State.doTenantDelete (s : State) (t : Nat) (asker : Option Hdr) : State × Option CmdEnd :=
  if !s.bay.tenants.contains t || s.bay.bolts.any (fun x => x.2.valid && x.2.tenant == t)
      || s.bay.ldTenant.any (fun x => x.2 == t) then (s, some (.of 12))
  else if s.reachable.isEmpty then
    let (s, e) := s.deleteTenant t
    (s, some e)
  else
    (s.putTenantDel { tenant := t, asker := asker, waits := [], denied := false } s.reachable, none)

/-- LD_ATTACH on the device that holds the port (01 R27, R49). Its RESULT is 0 (DESIGN CHOICE, log entry 96). -/
def State.doLdAttach (s : State) (a0 : Word) : State × CmdEnd :=
  let port := bitsOf a0 0 7
  let ld := bitsOf a0 8 4
  let t := bitsOf a0 16 12
  let k := port * 16 + ld
  if 95 < port ∨ s.getF F.PT_CFG.PERSONALITY port ≠ 1 ∨ s.getF F.PT_CFG.WIDTH port = 0
      ∨ s.getF F.PT_CFG.LD_COUNT port ≤ ld then (s, .of 12)
  else if (SMap.findD s.bay.decoders k []).length ≠ 0 then (s, .of 12)
  else if a0.getLsbD 31 then
    let s := { s with bay := { s.bay with ldTenant := SMap.del s.bay.ldTenant k } }
    ((s.setF F.PT_LD.ATTACHED k 0).setF F.PT_LD.TENANT k 0, .of 0)
  else if !s.bay.tenants.contains t then (s, .of 12)
  else
    let s := { s with bay := { s.bay with ldTenant := SMap.put s.bay.ldTenant k t } }
    ((s.setF F.PT_LD.ATTACHED k 1).setF F.PT_LD.TENANT k t, .of 0)

/-- An end that comes at once. -/
def atOnce (x : State × CmdEnd) : State × Option CmdEnd := (x.1, some x.2)

/-- READ_ENTRY on this device: a bad entry is waited for while a device asked for it may still answer (01 R23). An index at or above
BL_RANGE_LIMIT is read as any other (DESIGN CHOICE, log entry 96). -/
def State.doReadEntry (s : State) (b : Nat) (asker : Option Hdr) : State × Option CmdEnd :=
  let s := s.checkEntry b
  if !s.bay.crcBad.contains b then (s, some { code := 0, res := entryWords (s.entry b) })
  else if SMap.findD s.bay.fetches b [] = [] then (s, some (.of 6))
  else match asker with
    | some h => ({ s with bay := { s.bay with entryReads := s.bay.entryReads ++ [(b, h)] } }, none)
    | none => (s, none)

/-- A bolt or tenant command carried out on this device, for itself or for the device that asked; without an end it waits. -/
def State.doBl (s : State) (op : Nat) (a0 a1 a2 : Word) (asker : Option Hdr) : State × Option CmdEnd :=
  match op with
  | 0x01 => atOnce (s.doBind a0 a1 a2)
  | 0x02 => atOnce (s.doUnbind (bitsOf a0 0 20))
  | 0x03 => atOnce (s.doModify (bitsOf a0 0 20) a1 a2)
  | 0x04 => s.doReadEntry (bitsOf a0 0 20) asker
  | 0x10 => atOnce s.doTenantCreate
  | 0x11 => s.doTenantDelete (bitsOf a0 0 12) asker
  | 0x12 => atOnce (s.doLdAttach a0)
  | _ => (s, some (.of 7))

/-- The command ends: code, result, GO and BUSY clear (01 Tables 1.10, 1.11, 1.15). ARG0 to ARG3 are zero after a READ_ENTRY that
ends with any code but DONE (the spec says so of MEDIA_LOST; DESIGN CHOICE of the others, log entry 96). -/
def State.endBl (s : State) (op : Nat) (e : CmdEnd) : State :=
  let s := { s with bay := { s.bay with blBusy := none } }
  let s := ((s.put F.BL_CMD.GO 0).put F.BL_CMD_STATUS.BUSY 0).put F.BL_CMD_STATUS.CODE e.code
  let s := if e.code = 0 ∧ op ≠ 4 then s.put F.BL_CMD_STATUS.RESULT ((e.res.getD 0 0#64).toNat % 2 ^ 20) else s
  if op = 4 then
    (((s.setReg .BL_CMD_ARG0 0 (e.res.getD 0 0#64)).setReg .BL_CMD_ARG1 0 (e.res.getD 1 0#64)).setReg
      .BL_CMD_ARG2 0 (e.res.getD 2 0#64)).setReg .BL_CMD_ARG3 0 (e.res.getD 3 0#64)
  else s

/-- The device that carries a command out (01 R49, Table 1.15). -/
def State.blCarrier (s : State) (op : Nat) (a0 a1 : Word) : Nat :=
  let b := bitsOf a0 0 20
  match op with
  | 0x01 => bitsOf a1 8 5 * 2 + bitsOf a1 3 1
  | 0x02 | 0x03 | 0x04 => if s.bound b then entryActive (s.entry b) else s.devId
  | 0x10 | 0x11 => s.reachable.foldl min s.devId
  | _ => s.devId

/-- A BL command carried to another device as CTRL_REQ (01 R49; 11 R325). -/
def State.carryBl (s : State) (cmd : BlBusy) (d : Nat) : State :=
  let (tag, s) := s.newTag
  let s := { s with bay := { s.bay with blBusy := some { cmd with tag := some tag } } }
  let tenantOp := cmd.op == 0x10 || cmd.op == 0x11
  let b := bitsOf cmd.a0 0 20
  let h := s.hdr d
  let h := { h with
    tag := tag, offset := if tenantOp then 0 else b * 2 ^ 36,
    claim := if cmd.op = 1 ∨ tenantOp then 0 else (s.entry b).claim }
  s.send h (.ctrlReq (.bl cmd.op cmd.a0 cmd.a1 cmd.a2))

/-- A BL command carried out here, or on the device it concerns (01 R49). -/
def State.runBl (s : State) (cmd : BlBusy) : State :=
  let d := s.blCarrier cmd.op cmd.a0 cmd.a1
  if d = s.devId then
    match s.doBl cmd.op cmd.a0 cmd.a1 cmd.a2 none with
    | (s, some e) => (s.endBl cmd.op e).settle
    | (s, none) => s
  else if (s.ctlPort d).isNone then s
  else s.carryBl cmd d

/-- A BL command starts (01 R49): refused at once where its words or the reach of the bay refuse it, carried out
here, or sent to the device that carries it out. A carrier out of reach leaves it to its time limit. -/
def State.startBl (s : State) (op : Nat) (a0 a1 a2 : Word) : State :=
  if s.isSet F.BL_CMD_STATUS.BUSY 0 then s.raise F.BL_STATUS.CMD_OVERRUN
  else
    let s := ((s.put F.BL_CMD.OP op).put F.BL_CMD.GO 1).put F.BL_CMD_STATUS.BUSY 1
    let cmd : BlBusy := { op := op, a0 := a0, a1 := a1, a2 := a2, since := s.now, tag := none }
    let s := { s with bay := { s.bay with blBusy := some cmd } }
    let tenantOp := op == 0x10 || op == 0x11
    if tenantOp && s.reachable.length + 1 != s.bayDevices then s.endBl op (.of 12)
    else if op == 0x01 && (bitsOf a1 1 2 == 3 || bitsOf a1 4 2 == 3 || entryRsv a1 a2) then s.endBl op (.of 7)
    else if op == 0x01 && !s.namesPair (bitsOf a1 8 5) then s.endBl op (.of 12)
    else if op == 0x11 && s.bay.ldTenant.any (fun x => x.2 == bitsOf a0 0 12) then s.endBl op (.of 12)
    else s.runBl cmd

/-- A BL command given on a path with its arguments. -/
def State.blCommand (s : State) (via : Via) (op : Nat) (args : List (Reg × Word)) : State :=
  s.command via .BL_CMD 0 args (word (op + 256)) (fun s =>
    s.startBl op (s.reg .BL_CMD_ARG0 0) (s.reg .BL_CMD_ARG1 0) (s.reg .BL_CMD_ARG2 0))

/-- BIND (01 R49). -/
def execBind (via : Via) (a0 a1 a2 : Word) (at_ : Nat) (s : State) : Host.Outcome State Fault Refusal :=
  .next ((s.tick at_).blCommand via 0x01 [(.BL_CMD_ARG0, a0), (.BL_CMD_ARG1, a1), (.BL_CMD_ARG2, a2)])

/-- UNBIND (01 R49). -/
def execUnbind (via : Via) (a0 : Word) (at_ : Nat) (s : State) : Host.Outcome State Fault Refusal :=
  .next ((s.tick at_).blCommand via 0x02 [(.BL_CMD_ARG0, a0)])

/-- MODIFY (01 R49). -/
def execModify (via : Via) (a0 a1 a2 : Word) (at_ : Nat) (s : State) : Host.Outcome State Fault Refusal :=
  .next ((s.tick at_).blCommand via 0x03 [(.BL_CMD_ARG0, a0), (.BL_CMD_ARG1, a1), (.BL_CMD_ARG2, a2)])

/-- BL_READ_ENTRY (01 R49). -/
def execBlReadEntry (via : Via) (a0 : Word) (at_ : Nat) (s : State) : Host.Outcome State Fault Refusal :=
  .next ((s.tick at_).blCommand via 0x04 [(.BL_CMD_ARG0, a0)])

/-- TENANT_CREATE (01 R26, R49). -/
def execTenantCreate (via : Via) (at_ : Nat) (s : State) : Host.Outcome State Fault Refusal :=
  .next ((s.tick at_).blCommand via 0x10 [])

/-- TENANT_DELETE (01 R49). -/
def execTenantDelete (via : Via) (a0 : Word) (at_ : Nat) (s : State) : Host.Outcome State Fault Refusal :=
  .next ((s.tick at_).blCommand via 0x11 [(.BL_CMD_ARG0, a0)])

/-- LD_ATTACH (01 R27, R49). -/
def execLdAttach (via : Via) (a0 : Word) (at_ : Nat) (s : State) : Host.Outcome State Fault Refusal :=
  .next ((s.tick at_).blCommand via 0x12 [(.BL_CMD_ARG0, a0)])

/-- BL_CMD_TIMEOUT (01 R49): a command that has run for 10 ms ends with TIMEOUT. -/
def execBlCmdTimeout (at_ : Nat) (s : State) : Host.Outcome State Fault Refusal :=
  let s := s.tick at_
  .next (match s.bay.blBusy with
    | some c => if c.since + 10000000 ≤ s.now then s.endBl c.op (.of 11) else s
    | none => s)

/-- HDM_COMMIT (01 R27, R28; 11 R316): a decoder is committed on an LD with a tenant, on a port whose device
has opened service or not (11 R427); eight decoders at most. An LD without a tenant reports the commit
error. -/
def execHdmCommit (port ld : Nat) (d : Hdm) (at_ : Nat) (s : State) : Host.Outcome State Fault Refusal :=
  let s := s.tick at_
  let k := port * 16 + ld
  let l := SMap.findD s.bay.decoders k []
  .next (if SMap.has s.bay.ldTenant k && decide (l.length < 8) then
      let s := { s with bay := { s.bay with decoders := SMap.put s.bay.decoders k (l ++ [d]) } }
      (s.setF F.PT_LD.DECODERS k (l.length + 1)).emit (.hdm port ld true)
    else s.emit (.hdm port ld false))

end Sys2Proof.Machine
end

