-- ==== Sys2Proof/Machine/Kernels.lean ====
section
/-! DEFINITION. The built-in kernels of the engines (10 R301 to R305): what each makes of its operand tiles and its
parameters. A kernel reads only its operands; GTH and SCT reach the range through what the engine gives them and takes from
them. -/

namespace Sys2Proof.Machine

open Sys2Proof

/-! Tiles as bytes. -/

/-- Bytes of a tile. -/
def tileSize : Nat := 262144

/-- `n` bytes of a sparse table from index `i` on; an index not listed is zero. -/
def denseFrom (m : SMap Byte) (i n : Nat) : List Byte :=
  match n with
  | 0 => []
  | k + 1 =>
    match m with
    | (j, b) :: t => if j = i then b :: denseFrom t (i + 1) k else 0#8 :: denseFrom ((j, b) :: t) (i + 1) k
    | [] => 0#8 :: denseFrom [] (i + 1) k

/-- The bytes of a tile. -/
def tileBytes (t : Tile) : List Byte := denseFrom t.bytes 0 tileSize

/-- Byte `i` of a tile. -/
def tileByte (t : Tile) (i : Nat) : Byte := SMap.findD t.bytes i 0#8

/-- `n` bytes of a tile from `i` on as a number. -/
def tileNat (t : Tile) (i n : Nat) : Nat := leNat ((List.range n).map (fun k => tileByte t (i + k)))

/-- Line `l` of a tile is poisoned. -/
def tileBad (t : Tile) (l : Nat) : Bool := t.poison.contains l

/-- Line `l` of a tile. -/
def tileLine (t : Tile) (l : Nat) : LineData := lineOfBytes ((List.range 64).map (fun k => tileByte t (l * 64 + k)))

/-- A tile from its first bytes, the rest zero (10 R294). -/
def tileOf (bs : List Byte) (poison : List Nat) : Tile :=
  { bytes := ((bs.take tileSize).zipIdx.filter (fun x => x.1 != 0#8)).map (fun x => (x.2, x.1)), poison := poison }

/-- The empty tile. -/
def zeroTile : Tile := { bytes := [], poison := [] }

/-- The tile with the bytes of its poisoned lines taken as `b`. -/
def tileWith (t : Tile) (b : Byte) : SMap Byte :=
  t.poison.foldl (fun m l =>
    (List.range 64).foldl (fun m k => if b = 0#8 then SMap.del m (l * 64 + k) else SMap.put m (l * 64 + k) b) m) t.bytes

/-- What a kernel returns: its outputs, the bytes used of each, its VALUE, TRUNCATED, POISON_IN, whether it has met poison
that ends the job with POISON_SEEN, the lines it stores (SCT), and the code that ends the job at its layer. -/
structure KRes where
  outs : List Tile
  used : List Nat
  value : List Byte
  truncated : Bool
  poisonIn : Bool
  seen : Bool
  stores : List (Nat × LineData × Bool)
  code : Nat
  deriving DecidableEq, Repr

/-- A kernel that returns outputs and a value. -/
def KRes.make (outs : List Tile) (used : List Nat) (value : List Byte) (seen : Bool) : KRes :=
  { outs := outs, used := used, value := value, truncated := false, poisonIn := seen, seen := seen, stores := [], code := 0 }

/-- A kernel that ends the job with a code. -/
def KRes.fail (code : Nat) (seen : Bool) : KRes :=
  { outs := [], used := [], value := [], truncated := false, poisonIn := seen, seen := seen, stores := [], code := code }

/-- Bytes `i` to `i + n - 1` of a parameter block as a number. -/
def paramNat (p : List Byte) (i n : Nat) : Nat := leNat ((p.drop i).take n)

/-- The parameter bytes from `i` on are zero. -/
def paramZero (p : List Byte) (i : Nat) : Bool := (p.drop i).all (fun b => b == 0#8)

/-! FBC (10 R302, Table 10.8). -/

/-- Fails of a BITMAP2D tile in ascending order, row and column; a poisoned line counts as 512 fails. -/
def fbcFails (t : Tile) : List (Nat × Nat) :=
  (tileWith t 0xFF#8).flatMap (fun x =>
    ((List.range 8).filter (fun k => x.2.getLsbD k)).map (fun k => (x.1 / 128, x.1 % 128 * 8 + k)))

/-- Counts of a list of numbers. -/
def countNums (l : List Nat) : SMap Nat := l.foldl (fun m n => SMap.updD m n 0 (fun c => c + 1)) []

/-- Entries of one FBC output: row, column and bit entries, each group ascending. -/
structure FbcOut where
  rows : List Nat
  cols : List Nat
  bits : List Nat
  fails : Nat
  deriving DecidableEq, Repr

/-- The entries of a tile under the two thresholds; a threshold of 0 disables its kind. -/
def fbcEntries (rowTh colTh : Nat) (t : Tile) : FbcOut :=
  let f := fbcFails t
  let rows := (countNums (f.map Prod.fst)).filter (fun x => decide (rowTh ≠ 0 ∧ rowTh ≤ x.2))
  let cols := (countNums (f.map Prod.snd)).filter (fun x => decide (colTh ≠ 0 ∧ colTh ≤ x.2))
  let bits := f.filter (fun x => !SMap.has rows x.1 && !SMap.has cols x.2)
  { rows := rows.map (fun x => x.1 + x.2 * 2 ^ 11), cols := cols.map (fun x => x.1 + x.2 * 2 ^ 10),
    bits := bits.map (fun x => x.2 + x.1 * 2 ^ 10), fails := f.length }

/-- The output tile of an operand, its USED, and whether it is truncated. -/
def fbcTile (p : List Byte) (t : Tile) : Tile × Nat × Bool :=
  let e := fbcEntries (paramNat p 0 2) (paramNat p 2 2) t
  let rows := e.rows.take 65520
  let cols := e.cols.take (65520 - rows.length)
  let bits := e.bits.take (65520 - rows.length - cols.length)
  let n := rows.length + cols.length + bits.length
  let trunc := decide (n < e.rows.length + e.cols.length + e.bits.length)
  let head := leBytes 4 (paramNat p 4 4) ++ leBytes 4 (paramNat p 8 4) ++ leBytes 4 e.fails ++ leBytes 2 rows.length
    ++ leBytes 2 cols.length ++ leBytes 4 bits.length ++ leBytes 1 (bit trunc + bit (!t.poison.isEmpty) * 2)
    ++ leBytes 3 0 ++ leBytes 4 (64 + 4 * n) ++ leBytes 36 0
  (tileOf (head ++ (rows ++ cols ++ bits).flatMap (leBytes 4)) [], 64 + 4 * n, trunc)

/-- FBC. -/
def kFbc (p : List Byte) (ops : List Tile) : KRes :=
  let l := ops.map (fbcTile p)
  let fails := (ops.map (fun t => (fbcFails t).length)).foldl (· + ·) 0
  let seen := ops.any (fun t => !t.poison.isEmpty)
  { KRes.make (l.map (fun x => x.1)) (l.map (fun x => x.2.1)) (leBytes 8 fails) seen with
    truncated := l.any (fun x => x.2.2) }

/-! RPA (10 R303, R304). -/

/-- A region as its FBC output tells it: the listed rows and columns with their fails, and the single fails. -/
structure Region2 where
  rows : SMap Nat
  cols : SMap Nat
  bits : List (Nat × Nat)
  deriving DecidableEq, Repr

/-- The entries of an FBC output. -/
def rpaRegion (t : Tile) : Region2 :=
  let nr := tileNat t 12 2
  let nc := tileNat t 14 2
  let nb := tileNat t 16 4
  let e (k : Nat) : Nat := tileNat t (64 + 4 * k) 4
  { rows := (List.range nr).foldl (fun m k => SMap.put m (e k % 2048) (e k / 2048 % 2048)) [],
    cols := (List.range nc).foldl (fun m k => SMap.put m (e (nr + k) % 1024) (e (nr + k) / 1024 % 4096)) [],
    bits := (List.range (min nb 65520)).map (fun k => (e (nr + nc + k) / 1024 % 2048, e (nr + nc + k) % 1024)) }

/-- Spares taken so far and left. -/
structure Spares where
  rows : List Nat
  cols : List Nat
  rowsLeft : Nat
  colsLeft : Nat
  deriving DecidableEq, Repr

/-- Fails that no spare taken covers. A listed row's own fails are covered by its spare row only, a listed column's by its
spare column only, since their places are not told (DEDUCED, log entry 36). -/
def openBits (g : Region2) (x : Spares) : List (Nat × Nat) :=
  g.bits.filter (fun b => !x.rows.contains b.1 && !x.cols.contains b.2)

/-- Uncovered fails by row. -/
def openRows (g : Region2) (x : Spares) : SMap Nat :=
  (g.rows.filter (fun r => !x.rows.contains r.1)).foldl (fun m r => SMap.updD m r.1 0 (fun c => c + r.2))
    (countNums ((openBits g x).map Prod.fst))

/-- Uncovered fails by column. -/
def openCols (g : Region2) (x : Spares) : SMap Nat :=
  (g.cols.filter (fun c => !x.cols.contains c.1)).foldl (fun m c => SMap.updD m c.1 0 (fun n => n + c.2))
    (countNums ((openBits g x).map Prod.snd))

/-- The must-repair pass; `none` when a spare count would go below zero. -/
def mustPass (g : Region2) (x : Spares) (fuel : Nat) : Option Spares :=
  match fuel with
  | 0 => some x
  | k + 1 =>
    match (openRows g x).find? (fun r => decide (x.colsLeft < r.2)) with
    | some r =>
      if x.rowsLeft = 0 then none
      else mustPass g { x with rows := insertSorted r.1 x.rows, rowsLeft := x.rowsLeft - 1 } k
    | none =>
      match (openCols g x).find? (fun c => decide (x.rowsLeft < c.2)) with
      | some c =>
        if x.colsLeft = 0 then none
        else mustPass g { x with cols := insertSorted c.1 x.cols, colsLeft := x.colsLeft - 1 } k
      | none => some x

/-- The sublists of a length, in lexicographic order. -/
def choose (n : Nat) (l : List Nat) : List (List Nat) :=
  match n, l with
  | 0, _ => [[]]
  | _ + 1, [] => []
  | k + 1, a :: t => (choose k t).map (fun c => a :: c) ++ choose (k + 1) t

/-- The solution with these further rows: the columns that are then needed. It holds every listed row that is open. -/
def withRows (g : Region2) (x : Spares) (rs : List Nat) : Option Spares :=
  let x' := { x with rows := rs.foldl (fun a r => insertSorted r a) x.rows, rowsLeft := x.rowsLeft - rs.length }
  if g.rows.any (fun r => !x'.rows.contains r.1) then none
  else
    let cs := SMap.keys (openCols g x')
    if cs.length ≤ x'.colsLeft then
      some { x' with cols := cs.foldl (fun a c => insertSorted c a) x'.cols, colsLeft := x'.colsLeft - cs.length }
    else none

/-- The best of two solutions: fewest spares, then fewest rows; an earlier one stays on a tie. -/
def betterSpares (a : Option Spares) (b : Option Spares) : Option Spares :=
  match a, b with
  | none, y => y
  | x, none => x
  | some u, some v =>
    if v.rows.length + v.cols.length < u.rows.length + u.cols.length then some v else some u

/-- The solution that RPA picks: over the rows that hold an open fail, by number of rows and then by address, the first with
the fewest spares. -/
def solveRegion (g : Region2) (x : Spares) : Option Spares :=
  let cand := SMap.keys (openRows g x)
  (List.range (min x.rowsLeft cand.length + 1)).foldl (fun best n =>
    ((choose n cand).map (withRows g x)).foldl betterSpares best) none

/-- A repair record: status, spares, MUST, NODES (10 Table 10.9). -/
def rpaRecord (t : Tile) (status must nodes : Nat) (x : Option Spares) : List Byte :=
  let pad (l : List Nat) : List Byte :=
    (List.range 16).flatMap (fun k => leBytes 2 (l.getD k 0xFFFF))
  let rows := match x with | some s => s.rows | none => []
  let cols := match x with | some s => s.cols | none => []
  let body := leBytes 1 status ++ leBytes 1 rows.length ++ leBytes 1 cols.length ++ leBytes 1 must
    ++ leBytes 4 (tileNat t 8 4) ++ leBytes 4 nodes ++ leBytes 4 (tileNat t 0 4) ++ leBytes 4 (tileNat t 4 4)
    ++ leBytes 4 0 ++ pad rows ++ pad cols ++ leBytes 36 0
  body ++ leBytes 4 (crc32c body).toNat

/-- One region solved: its status and record. `nodes` is the number of search nodes, which the spec leaves open. -/
def rpaOne (p : List Byte) (nodes : Nat) (t : Tile) : Nat × List Byte :=
  let limit := 2 ^ paramNat p 2 1
  if !t.poison.isEmpty || bitsOf (word (tileNat t 20 1)) 0 2 != 0 then (3, rpaRecord t 3 0 0 none)
  else
    let g := rpaRegion t
    let x0 : Spares := { rows := [], cols := [], rowsLeft := paramNat p 0 1, colsLeft := paramNat p 1 1 }
    if tileNat t 8 4 = 0 then (0, rpaRecord t 0 0 0 none)
    else match mustPass g x0 33 with
      | none => (2, rpaRecord t 2 0 0 none)
      | some x =>
        let must := x.rows.length + x.cols.length
        if limit ≤ nodes then (4, rpaRecord t 4 must limit none)
        else match solveRegion g x with
          | some y => (1, rpaRecord t 1 must nodes (some y))
          | none => (2, rpaRecord t 2 must nodes none)

/-- RPA, with a free node count for each region from `free` on. -/
def kRpa (p : List Byte) (free : Nat) (ops : List Tile) : KRes :=
  if 16 < paramNat p 0 1 ∨ 16 < paramNat p 1 1 ∨ paramNat p 2 1 < 10 ∨ 30 < paramNat p 2 1 then .fail 7 false
  else
    let l := ops.zipIdx.map (fun x => rpaOne p (Config.rpaNodes (free + x.2)) x.1)
    let n (k : Nat) : Nat := (l.filter (fun x => x.1 == k)).length
    KRes.make [tileOf (l.flatMap (fun x => x.2)) []] [128 * ops.length] (leBytes 2 (n 1) ++ leBytes 2 (n 2) ++ leBytes 2 (n 3))
      (ops.any (fun t => !t.poison.isEmpty))

/-! CMP (10 R305). -/

/-- Bits set in bytes. -/
def onesOf (bs : List Byte) : Nat := (bs.flatMap byteBits).countP (fun b => b)

/-- CMP: (A xor B) and not M. -/
def kCmp (p : List Byte) (ops : List Tile) : KRes :=
  let masked := paramNat p 0 1
  let z := zeroTile
  let a := ops.getD 0 z
  let b := ops.getD 1 z
  let m := if masked = 1 then ops.getD 2 z else z
  if 1 < masked ∨ (masked = 1 ∧ ops.length < 3) then .fail 7 false
  else
    let out := ((tileBytes a).zip ((tileBytes b).zip (tileBytes m))).map (fun x => (x.1 ^^^ x.2.1) &&& ~~~x.2.2)
    let bad := nub (a.poison ++ b.poison ++ m.poison)
    KRes.make [tileOf out (bad.foldl (fun l x => insertSorted x l) [])] [tileSize] (leBytes 8 (onesOf out)) (!bad.isEmpty)

/-! HSH (10 R305; SHA-256 of FIPS 180-4). -/

/-- The constants of SHA-256. -/
def shaK : List (BitVec 32) :=
  [0x428a2f98#32, 0x71374491#32, 0xb5c0fbcf#32, 0xe9b5dba5#32, 0x3956c25b#32, 0x59f111f1#32, 0x923f82a4#32, 0xab1c5ed5#32,
   0xd807aa98#32, 0x12835b01#32, 0x243185be#32, 0x550c7dc3#32, 0x72be5d74#32, 0x80deb1fe#32, 0x9bdc06a7#32, 0xc19bf174#32]
  ++ [0xe49b69c1#32, 0xefbe4786#32, 0x0fc19dc6#32, 0x240ca1cc#32, 0x2de92c6f#32, 0x4a7484aa#32, 0x5cb0a9dc#32, 0x76f988da#32,
   0x983e5152#32, 0xa831c66d#32, 0xb00327c8#32, 0xbf597fc7#32, 0xc6e00bf3#32, 0xd5a79147#32, 0x06ca6351#32, 0x14292967#32]
  ++ [0x27b70a85#32, 0x2e1b2138#32, 0x4d2c6dfc#32, 0x53380d13#32, 0x650a7354#32, 0x766a0abb#32, 0x81c2c92e#32, 0x92722c85#32,
   0xa2bfe8a1#32, 0xa81a664b#32, 0xc24b8b70#32, 0xc76c51a3#32, 0xd192e819#32, 0xd6990624#32, 0xf40e3585#32, 0x106aa070#32]
  ++ [0x19a4c116#32, 0x1e376c08#32, 0x2748774c#32, 0x34b0bcb5#32, 0x391c0cb3#32, 0x4ed8aa4a#32, 0x5b9cca4f#32, 0x682e6ff3#32,
   0x748f82ee#32, 0x78a5636f#32, 0x84c87814#32, 0x8cc70208#32, 0x90befffa#32, 0xa4506ceb#32, 0xbef9a3f7#32, 0xc67178f2#32]

/-- The initial hash value. -/
def shaH : List (BitVec 32) :=
  [0x6a09e667#32, 0xbb67ae85#32, 0x3c6ef372#32, 0xa54ff53a#32, 0x510e527f#32, 0x9b05688c#32, 0x1f83d9ab#32, 0x5be0cd19#32]

/-- A word of the message block, big-endian. -/
def beWord (bs : List Byte) : BitVec 32 := BitVec.ofNat 32 (bs.foldl (fun a b => a * 256 + b.toNat) 0)

/-- The message schedule extended by `n` words, newest first. -/
def shaSched (w : List (BitVec 32)) (n : Nat) : List (BitVec 32) :=
  match n with
  | 0 => w
  | k + 1 =>
    let g (i : Nat) : BitVec 32 := w.getD i 0#32
    let a := g 14
    let b := g 1
    let s0 := a.rotateRight 7 ^^^ a.rotateRight 18 ^^^ (a >>> 3)
    let s1 := b.rotateRight 17 ^^^ b.rotateRight 19 ^^^ (b >>> 10)
    shaSched ((g 15 + s0 + g 6 + s1) :: w) k

/-- One round on the eight working variables. -/
def shaRound (v : List (BitVec 32)) (kw : BitVec 32 × BitVec 32) : List (BitVec 32) :=
  match v with
  | [a, b, c, d, e, f, g, h] =>
    let s1 := e.rotateRight 6 ^^^ e.rotateRight 11 ^^^ e.rotateRight 25
    let ch := (e &&& f) ^^^ (~~~e &&& g)
    let t1 := h + s1 + ch + kw.1 + kw.2
    let s0 := a.rotateRight 2 ^^^ a.rotateRight 13 ^^^ a.rotateRight 22
    let maj := (a &&& b) ^^^ (a &&& c) ^^^ (b &&& c)
    [t1 + (s0 + maj), a, b, c, d + t1, e, f, g]
  | x => x

/-- The sixteen words of a block. -/
def blockWords (bs : List Byte) (n : Nat) : List (BitVec 32) :=
  match n with
  | 0 => []
  | k + 1 => beWord (bs.take 4) :: blockWords (bs.drop 4) k

/-- One block into the hash value. -/
def shaBlock (h : List (BitVec 32)) (bs : List Byte) : List (BitVec 32) :=
  let w := (shaSched (blockWords bs 16).reverse 48).reverse
  let v := (shaK.zip w).foldl shaRound h
  (h.zip v).map (fun x => x.1 + x.2)

/-- Blocks of 64 bytes into the hash value. -/
def shaBlocks (h : List (BitVec 32)) (bs : List Byte) (n : Nat) : List (BitVec 32) :=
  match n with
  | 0 => h
  | k + 1 => shaBlocks (shaBlock h (bs.take 64)) (bs.drop 64) k

/-- `n` bytes of a number, big-endian. -/
def beBytes (n x : Nat) : List Byte := (leBytes n x).reverse

/-- SHA-256 of a byte string. -/
def sha256 (bs : List Byte) : List Byte :=
  let n := bs.length
  let zeros := (119 - n % 64) % 64
  let m := bs ++ [0x80#8] ++ List.replicate zeros 0#8 ++ beBytes 8 (8 * n)
  (shaBlocks shaH m (m.length / 64)).flatMap (fun w => beBytes 4 w.toNat)

/-- HSH: the operands in order as one message, poisoned lines as zeros. -/
def kHsh (ops : List Tile) : KRes :=
  let m := ops.flatMap (fun t => denseFrom (tileWith t 0#8) 0 tileSize)
  KRes.make [] [] (leBytes 8 (crc32c m).toNat ++ sha256 m) (ops.any (fun t => !t.poison.isEmpty))

/-! PEX (10 R305). -/

/-- One step of the LFSR x^64 + x^63 + x^61 + x^60 + 1, shifting left (log entry 10). -/
def lfsr64 (x : Word) : Word :=
  let b := (x.getLsbD 63).xor ((x.getLsbD 62).xor ((x.getLsbD 60).xor (x.getLsbD 59)))
  (x <<< 1) ||| (BitVec.ofBool b).setWidth 64

/-- `n` words from a first one by a step. -/
def iterWords (f : Word → Word) (x : Word) (n : Nat) : List Word :=
  match n with
  | 0 => []
  | k + 1 => x :: iterWords f (f x) k

/-- A script run from entry `i`: the words written, at most `room`; `none` for an OP that is none. -/
def runScript (t : Tile) (i : Nat) (acc : List Word) (room fuel : Nat) : Option (List Word) :=
  match fuel with
  | 0 => some acc
  | k + 1 =>
    if room ≤ acc.length then some (acc.take room)
    else
      let o := 16 * i
      let n := min (tileNat t (o + 4) 4) (room - acc.length)
      let v := word (tileNat t (o + 8) 8)
      let step := (BitVec.ofNat 16 (tileNat t (o + 2) 2)).signExtend 64
      match tileNat t o 1 with
      | 0 => some acc
      | 1 => runScript t (i + 1) (acc ++ iterWords id v n) room k
      | 2 => runScript t (i + 1) (acc ++ iterWords (fun x => x + step) v n) room k
      | 3 => runScript t (i + 1) (acc ++ iterWords lfsr64 (if v = 0#64 then 1#64 else v) n) room k
      | 4 =>
        let back := min (tileNat t (o + 4) 4) acc.length
        runScript t (i + 1) ((acc ++ (acc.drop (acc.length - back)).map (fun x => ~~~x)).take room) room k
      | _ => none

/-- Consecutive pieces of a list. -/
def pieces (l : List Byte) (size n : Nat) : List (List Byte) :=
  match n with
  | 0 => []
  | k + 1 => l.take size :: pieces (l.drop size) size k

/-- PEX: a script into `n` outputs. -/
def kPex (n : Nat) (ops : List Tile) : KRes :=
  let t := ops.getD 0 zeroTile
  if !t.poison.isEmpty then .fail 1 true
  else match runScript t 0 [] (32768 * n) 16384 with
    | none => .fail 7 false
    | some ws =>
      let bs := ws.flatMap (fun w => leBytes 8 w.toNat)
      KRes.make ((pieces bs tileSize n).map (fun b => tileOf b [])) (List.replicate n tileSize) (leBytes 8 bs.length) false

/-! LZC and LZD (10 R305; RFC 1951). -/

/-- A tile with every line poisoned. -/
def allPoison (t : Tile) : Tile := { t with poison := List.range 4096 }

/-- LZC of one tile: the output, its USED, and whether it is stored raw. The stream is a free value. -/
def lzcOne (level : Nat) (t : Tile) : Tile × Nat × Bool :=
  let m := tileBytes t
  let z := Config.deflate level m
  let r : Tile × Nat × Bool :=
    if tileSize < 16 + z.length then ({ t with poison := [] }, tileSize, true)
    else (tileOf (leBytes 4 z.length ++ leBytes 4 0 ++ leBytes 4 (crc32c m).toNat ++ leBytes 4 0 ++ z) [], 16 + z.length, false)
  if t.poison.isEmpty then r else (allPoison r.1, r.2)

/-- Mask of the places where a list holds true. -/
def maskOf (l : List Bool) : Nat := (l.zipIdx.filter (fun x => x.1)).foldl (fun a x => a + 2 ^ x.2) 0

/-- LZC. -/
def kLzc (p : List Byte) (ops : List Tile) : KRes :=
  let level := paramNat p 0 1
  if level < 1 ∨ 4 < level then .fail 7 false
  else
    let l := ops.map (lzcOne level)
    KRes.make (l.map (fun x => x.1)) (l.map (fun x => x.2.1))
      (leBytes 8 ((l.map (fun x => x.2.1)).foldl (· + ·) 0) ++ leBytes 1 (maskOf (l.map (fun x => x.2.2))))
      (ops.any (fun t => !t.poison.isEmpty))

/-- Bits of a stream, each byte from its lowest bit on. -/
def streamBits (bs : List Byte) : List Bool := bs.flatMap byteBits

/-- `n` bits as a number, the first the lowest; the rest of the stream. -/
def takeBits (n : Nat) (l : List Bool) : Option (Nat × List Bool) :=
  match n with
  | 0 => some (0, l)
  | k + 1 =>
    match l with
    | [] => none
    | b :: t => (takeBits k t).map (fun r => (bit b + 2 * r.1, r.2))

/-- A canonical code from the code lengths of its symbols: length and code of each symbol (RFC 1951 3.2.2). -/
def canonical (lens : List Nat) : List (Nat × Nat × Nat) :=
  let count (n : Nat) : Nat := (lens.filter (fun x => x == n)).length
  let first := (List.range 15).foldl (fun (acc : List Nat) n =>
    acc ++ [(acc.getLastD 0 + (if n = 0 then 0 else count n)) * 2]) [0]
  (lens.zipIdx.foldl (fun (acc : List Nat × List (Nat × Nat × Nat)) x =>
    if x.1 = 0 then acc
    else
      let c := acc.1.getD x.1 0
      (acc.1.set x.1 (c + 1), acc.2 ++ [(x.1, c, x.2)])) (first, [])).2

/-- One symbol read with a code, its bits from the highest on. -/
def readSym (code : List (Nat × Nat × Nat)) (l : List Bool) (len val fuel : Nat) : Option (Nat × List Bool) :=
  match fuel with
  | 0 => none
  | k + 1 =>
    match l with
    | [] => none
    | b :: t =>
      let v := val * 2 + bit b
      match code.find? (fun x => x.1 == len + 1 && x.2.1 == v) with
      | some x => some (x.2.2, t)
      | none => readSym code t (len + 1) v k

/-- Base and extra bits of the length codes 257 to 285. -/
def lenCodes : List (Nat × Nat) :=
  [(3, 0), (4, 0), (5, 0), (6, 0), (7, 0), (8, 0), (9, 0), (10, 0), (11, 1), (13, 1), (15, 1), (17, 1), (19, 2), (23, 2),
   (27, 2), (31, 2), (35, 3), (43, 3), (51, 3), (59, 3), (67, 4), (83, 4), (99, 4), (115, 4), (131, 5), (163, 5), (195, 5),
   (227, 5), (258, 0)]

/-- Base and extra bits of the distance codes 0 to 29. -/
def distCodes : List (Nat × Nat) :=
  [(1, 0), (2, 0), (3, 0), (4, 0), (5, 1), (7, 1), (9, 2), (13, 2), (17, 3), (25, 3), (33, 4), (49, 4), (65, 5), (97, 5),
   (129, 6), (193, 6), (257, 7), (385, 7), (513, 8), (769, 8), (1025, 9), (1537, 9), (2049, 10), (3073, 10), (4097, 11),
   (6145, 11), (8193, 12), (12289, 12), (16385, 13), (24577, 13)]

/-- `n` bytes copied from a distance back; the output stands newest first. -/
def copyBack (out : List Byte) (dist n : Nat) : List Byte :=
  match n with
  | 0 => out
  | k + 1 => copyBack (out.getD (dist - 1) 0#8 :: out) dist k

/-- The symbols of a block with its two codes, up to its end. -/
def inflateSyms (lit dist : List (Nat × Nat × Nat)) (l : List Bool) (out : List Byte) (fuel : Nat) :
    Option (List Byte × List Bool) :=
  match fuel with
  | 0 => none
  | k + 1 =>
    match readSym lit l 0 0 15 with
    | none => none
    | some (sym, l) =>
      if sym < 256 then inflateSyms lit dist l (BitVec.ofNat 8 sym :: out) k
      else if sym = 256 then some (out, l)
      else match lenCodes[sym - 257]? with
        | none => none
        | some (lb, le) =>
          match takeBits le l with
          | none => none
          | some (lx, l) =>
            match readSym dist l 0 0 15 with
            | none => none
            | some (ds, l) =>
              match distCodes[ds]? with
              | none => none
              | some (db, de) =>
                match takeBits de l with
                | none => none
                | some (dx, l) =>
                  if out.length < db + dx then none
                  else inflateSyms lit dist l (copyBack out (db + dx) (lb + lx)) k

/-- Code lengths read with the code of code lengths. -/
def readLens (code : List (Nat × Nat × Nat)) (l : List Bool) (acc : List Nat) (n fuel : Nat) :
    Option (List Nat × List Bool) :=
  match fuel with
  | 0 => none
  | k + 1 =>
    if n < acc.length then none
    else if acc.length = n then some (acc, l)
    else match readSym code l 0 0 7 with
      | none => none
      | some (sym, l) =>
        if sym < 16 then readLens code l (acc ++ [sym]) n k
        else
          let (bits, base) := match sym with | 16 => (2, 3) | 17 => (3, 3) | _ => (7, 11)
          match takeBits bits l with
          | none => none
          | some (x, l) =>
            if sym = 16 then
              match acc.getLast? with
              | some v => readLens code l (acc ++ List.replicate (base + x) v) n k
              | none => none
            else readLens code l (acc ++ List.replicate (base + x) 0) n k

/-- Order of the code lengths of code lengths. -/
def clOrder : List Nat := [16, 17, 18, 0, 8, 7, 9, 6, 10, 5, 11, 4, 12, 3, 13, 2, 14, 1, 15]

/-- The lengths of the code of code lengths, three bits each. -/
def readCl (order : List Nat) (n : Nat) (l : List Bool) (acc : List Nat) : Option (List Nat × List Bool) :=
  match n, order with
  | 0, _ => some (acc, l)
  | _ + 1, [] => none
  | k + 1, o :: t =>
    match takeBits 3 l with
    | none => none
    | some (x, l) => readCl t k l (acc.set o x)

/-- The two codes of a block of type 2. -/
def dynCodes (l : List Bool) : Option ((List (Nat × Nat × Nat)) × (List (Nat × Nat × Nat)) × List Bool) :=
  match takeBits 14 l with
  | none => none
  | some (h, l) =>
    let hlit := h % 32 + 257
    let hdist := h / 32 % 32 + 1
    let hclen := h / 1024 + 4
    match readCl clOrder hclen l (List.replicate 19 0) with
    | none => none
    | some (cl, l) =>
      match readLens (canonical cl) l [] (hlit + hdist) (hlit + hdist + 1) with
      | none => none
      | some (ls, l) => some (canonical (ls.take hlit), canonical (ls.drop hlit), l)

/-- The fixed codes of RFC 1951 3.2.6. -/
def fixedLit : List (Nat × Nat × Nat) :=
  canonical (List.replicate 144 8 ++ List.replicate 112 9 ++ List.replicate 24 7 ++ List.replicate 8 8)
def fixedDist : List (Nat × Nat × Nat) := canonical (List.replicate 30 5)

/-- Blocks of a raw DEFLATE stream up to the last one; `n` is the number of bits of the stream. -/
def inflateBlocks (n : Nat) (l : List Bool) (out : List Byte) (fuel : Nat) : Option (List Byte × List Bool) :=
  match fuel with
  | 0 => none
  | k + 1 =>
    match takeBits 3 l with
    | none => none
    | some (h, l) =>
      let body : Option (List Byte × List Bool) :=
        match h / 2 with
        | 0 =>
          let l := l.drop (l.length % 8)
          (match takeBits 32 l with
           | none => none
           | some (x, l) =>
             let len := x % 65536
             if x / 65536 ≠ 65535 - len ∨ l.length < 8 * len then none
             else
               let bs := (List.range len).map (fun i => BitVec.ofNat 8 (((takeBits 8 (l.drop (8 * i))).map Prod.fst).getD 0))
               some (bs.reverse ++ out, l.drop (8 * len)))
        | 1 => inflateSyms fixedLit fixedDist l out (n + 1)
        | 2 => (match dynCodes l with | none => none | some (a, b, l) => inflateSyms a b l out (n + 1))
        | _ => none
      match body with
      | none => none
      | some (out, l) => if h % 2 = 1 then some (out, l) else inflateBlocks n l out k

/-- The bytes of a raw DEFLATE stream, when it is one and ends within its last byte. -/
def inflate (bs : List Byte) : Option (List Byte) :=
  let l := streamBits bs
  match inflateBlocks l.length l [] (l.length + 1) with
  | some (out, rest) => if rest.length < 8 then some out.reverse else none
  | none => none

/-- LZD of one tile. -/
def lzdOne (t : Tile) (raw : Bool) : Option Tile :=
  if raw then some { t with poison := [] }
  else
    let n := tileNat t 0 4
    if tileSize < 16 + n then none
    else match inflate (((tileBytes t).drop 16).take n) with
      | some bs =>
        if bs.length = tileSize ∧ (crc32c bs).toNat = tileNat t 8 4 then some (tileOf bs []) else none
      | none => none

/-- LZD. A poisoned operand gives an output poisoned whole, whatever its bytes. -/
def kLzd (p : List Byte) (ops : List Tile) : KRes :=
  let mask := paramNat p 0 1
  if 15 < mask then .fail 7 false
  else
    let l := ops.zipIdx.map (fun x =>
      let r := lzdOne x.1 ((word mask).getLsbD x.2)
      if x.1.poison.isEmpty then r else some (allPoison (r.getD zeroTile)))
    let seen := ops.any (fun t => !t.poison.isEmpty)
    if l.any (fun x => x.isNone) then .fail 7 seen
    else
      KRes.make (l.filterMap id) (List.replicate ops.length tileSize) (leBytes 8 (tileSize * ops.length)) seen

/-! GTH and SCT (10 R305). -/

/-- Range offset of index entry `i`, on a line boundary. -/
def indexAt (t : Tile) (i : Nat) : Nat := tileNat t (8 * i) 8 % 2 ^ 56 / 64 * 64

/-- GTH of `n` lines with what the range gave for each: its bytes, and whether it was poisoned. -/
def kGth (ops : List Tile) (got : List (LineData × Bool)) : KRes :=
  let ix := ops.getD 0 zeroTile
  let bad (i : Nat) : Bool := tileBad ix (i / 8) || (got.getD i (0#512, false)).2
  let lines := got.zipIdx.map (fun x => if bad x.2 then List.replicate 64 0#8 else lineBytes x.1.1)
  let p := (List.range got.length).filter bad
  KRes.make [tileOf lines.flatten p] [tileSize] [] (!p.isEmpty)

/-- SCT: data line i stored at index entry i, in index order. An entry whose index line is poisoned names no line. -/
def kSct (n : Nat) (ops : List Tile) : KRes :=
  let d := ops.getD 0 zeroTile
  let ix := ops.getD 1 zeroTile
  let l := ((List.range n).filter (fun i => !tileBad ix (i / 8))).map (fun i => (indexAt ix i, tileLine d i, tileBad d i))
  let seen := (List.range n).any (fun i => tileBad d i || tileBad ix (i / 8))
  { KRes.make [] [] (leBytes 8 l.length) seen with stores := l }

/-- Operand and output limits of the built-in kernels (10 Table 10.5). -/
def kernelLimits (k ops outs : Nat) : Bool :=
  match k with
  | 0x01 => decide (1 ≤ ops ∧ ops ≤ 4) && outs == ops
  | 0x02 => decide (1 ≤ ops ∧ ops ≤ 6) && outs == 1
  | 0x03 => decide (2 ≤ ops ∧ ops ≤ 3) && outs == 1
  | 0x04 => decide (1 ≤ ops ∧ ops ≤ 6) && outs == 0
  | 0x05 => ops == 1 && decide (1 ≤ outs ∧ outs ≤ 4)
  | 0x06 => decide (1 ≤ ops ∧ ops ≤ 4) && outs == ops
  | 0x07 => decide (1 ≤ ops ∧ ops ≤ 4) && outs == ops
  | 0x08 => ops == 1 && outs == 1
  | 0x09 => ops == 2 && outs == 0
  | _ => false

/-- Parameter bytes that a built-in kernel uses; the others must be zero (10 R301). -/
def kernelParams (k : Nat) : Nat :=
  match k with | 0x01 => 12 | 0x02 => 3 | 0x03 => 1 | 0x06 => 1 | 0x07 => 1 | 0x08 => 4 | 0x09 => 4 | _ => 0

/-- A built-in kernel other than GTH run on its operands; `n` outputs, free values from `free` on. -/
def runKernel (k : Nat) (p : List Byte) (n free : Nat) (ops : List Tile) : KRes :=
  if !paramZero p (kernelParams k) then .fail 7 false
  else match k with
    | 0x01 => kFbc p ops
    | 0x02 => kRpa p free ops
    | 0x03 => kCmp p ops
    | 0x04 => kHsh ops
    | 0x05 => kPex n ops
    | 0x06 => kLzc p ops
    | 0x07 => kLzd p ops
    | 0x09 => if 1 ≤ paramNat p 0 4 ∧ paramNat p 0 4 ≤ 4096 then kSct (paramNat p 0 4) ops else .fail 7 false
    | _ => .fail 7 false

end Sys2Proof.Machine
end

