-- ==== Sys2Proof/Machine/Twin.lean ====
section
/-! DEFINITION. The twin relation (03): heartbeat frames, the lease, misses and carrier, the pair state
machine, takeover, yield, rotation and the start of a rejoin. -/

namespace Sys2Proof.Machine

open Sys2Proof

/-! Frames (03 R97 to R100). -/

/-- Bytes 0 to 43 of the path A payload (03 Table 3.1). -/
def hbBytes (f : HbFrame) : List Byte :=
  leBytes 1 f.ty ++ leBytes 1 f.sender ++ [f.flags] ++ leBytes 1 0 ++ leBytes 4 f.seq.toNat
    ++ leBytes 4 f.echo.toNat ++ leBytes 4 f.auditBolt ++ leBytes 8 f.sendDt ++ leBytes 8 f.claimHigh
    ++ leBytes 8 f.auditClaim ++ leBytes 4 f.periodUs

/-- The CRC of a path A payload. -/
def hbCrc (f : HbFrame) : BitVec 32 := crc32c (hbBytes f)

/-- `w` bits of a number, most significant first. -/
def msbBits (w x : Nat) : List Bool := (List.range w).map (fun k => x.testBit (w - 1 - k))

/-- The 306 bits that the CRC of a Plumb-line frame covers, in the order sent (03 Table 3.2). -/
def plumbBits (f : HbFrame) : List Bool :=
  msbBits 4 f.ty ++ msbBits 6 f.sender ++ msbBits 6 f.flags.toNat ++ msbBits 32 f.seq.toNat
    ++ msbBits 32 f.echo.toNat ++ msbBits 64 f.sendDt ++ msbBits 64 f.claimHigh ++ msbBits 20 f.auditBolt
    ++ msbBits 14 f.periodUs ++ msbBits 64 f.auditClaim

/-- The CRC of a Plumb-line frame. -/
def plumbCrc (f : HbFrame) : BitVec 32 := ~~~ crcBits 0xFFFFFFFF#32 (plumbBits f)

/-- FLAGS of Table 3.1. -/
def hbSolo (f : HbFrame) : Bool := f.flags.getLsbD 1
def hbSave (f : HbFrame) : Bool := f.flags.getLsbD 4

/-- PERIOD_US as it acts from the next heartbeat on (03 Table 3.9). -/
def State.nextPeriod (s : State) : Nat := min 10000 (max 10 (s.get F.TW_HB_CTL.PERIOD_US))

/-- The period in effect: that of the latest own heartbeat (03 Table 3.9). -/
def State.periodUs (s : State) : Nat := s.twin.period

/-- The path B period (03 R96). -/
def State.pbPeriodUs (s : State) : Nat := max 50 s.periodUs

/-- L of a heartbeat with period `p`, in ns (03 R95). -/
def leaseNs (p : Nat) : Nat := max 1000000 (4 * p * 1000)

/-- The bolts of the pair that are MIRRORED. -/
def State.mirroredBolts (s : State) : List Nat :=
  (s.bay.bolts.filter (fun x => s.bound x.1 && x.2.pairId == s.pairId && x.2.durability == 0)).map Prod.fst

/-- CLAIM_HIGH of this device: the highest claim of any bolt of its pair, or TW_CLAIM_LOCAL if higher
(03 Table 3.1). -/
def State.claimHigh (s : State) : Nat :=
  (s.bay.bolts.filter (fun x => x.2.pairId == s.pairId)).foldl (fun m x => max m x.2.claim)
    (s.reg .TW_CLAIM_LOCAL 0).toNat

/-- The claim of a takeover or rotation (03 R105). -/
def State.newClaim (s : State) : Nat :=
  max s.claimHigh (match s.twin.peer with | some f => f.claimHigh | none => 0) + 1

/-- The twin's latest valid frame shows the power-down path. -/
def State.peerSaves (s : State) : Bool := match s.twin.peer with | some f => hbSave f | none => false

/-! States (03 Table 3.4). -/

/-- Service has not opened (03 R429). -/
def State.beforeService (s : State) : Bool :=
  decide (s.power.state < 14) || (s.power.state == 14 && !s.power.begun)

/-- The spans of mirror stores without acknowledgement are marked in the split bitmap, and TW_SPLIT_DT is set,
when the device leaves PAIRED; a rotation stops after the group in hand (03 R122, R123). -/
def State.leavePaired (s : State) : State :=
  if s.twin.st != .paired then s
  else
    let s := s.setReg .TW_SPLIT_DT 0 (word s.now)
    let s := { s with twin := { s.twin with copyOut := [] } }
    let open_ := s.bay.reqs.filter (fun r =>
      match r.st with | .storing _ true _ _ => true | .refused _ _ _ => true | _ => false)
    let s := open_.foldl (fun s r =>
      let sp := spanOfOff r.offset
      if s.lines.splitMap.contains sp then s
      else
        let s := s.startSpanWrite sp
        s.putReq { r with st := (match r.st with
          | .storing _ a d t => .storing true a d t | .refused _ d t => .refused true d t | x => x) }) s
    if s.twin.slotWork.isEmpty then s
    else ({ s with twin := { s.twin with slotWork := [], slotPending := false } }).raise F.TW_STATUS.ROTATE_SKIP

/-- The pair state changed. -/
def State.setSt (s : State) (p : PairState) : State :=
  let s := if p = .paired then s else s.leavePaired
  { s with twin := { s.twin with st := p } }

/-- PAIRED is entered: the lease opens, fills start again, held requests are tried (03 Table 3.4;
02 R425). -/
def State.enterPaired (s : State) (rejoined : Bool) : State :=
  let s := s.setSt .paired
  let s := { s with twin := { s.twin with
    echoFrozen := false,
    fromRejoin := false, rejoinRole := 0, full := false, copyBuilt := false, mapsIn := [], peerSpans := [],
    peerHeld := [], divergedDone := false, saveSolo := false, pairedAt := s.now,
    slotDue := if s.twin.slotDue = 0 then s.now + max 1 (s.get F.TW_ROTATE_CTL.INTERVAL_MIN) * 60000000000
               else s.twin.slotDue } }
  let s := if rejoined then (s.raise F.TW_STATUS.REJOIN_DONE).health 6 1 else s
  let s := (SMap.keys s.twin.fills).foldl (fun s b => if s.isActive b then s.startFill b else s) s
  s.retryHeld

/-- A maps message: a list of spans in messages of at most 512 numbers (11 Table 11.7; the packing is not
visible here). -/
def State.sendMap (s : State) (k : MapKind) (status : Nat) (l : List Nat) : State :=
  s.send { s.hdr s.twinId with last := true, status := status } (.mapXfer k l)

/-- The split bitmap can be read: no mirror pair of the save area has lost both its modules (03 R123, R124; 02 R56). -/
def State.splitReadable (s : State) : Bool :=
  let l := s.image.saveModules
  (List.range (l.length / 2)).all (fun i =>
    !(s.lines.saveOut.contains (l.getD (2 * i) 0) && s.lines.saveOut.contains (l.getD (2 * i + 1) 0)))

/-- The next rejoin copies every span: FULL_REJOIN has been given, or the split bitmap cannot be read (03 R124, R129). -/
def State.wantsFull (s : State) : Bool := s.twin.fullNext || !s.splitReadable

/-- Spans of the pair's MIRRORED bolts that hold a written frame or a dirty line here (03 R124). -/
def State.heldSpans (s : State) : List Nat :=
  s.mirroredBolts.foldl (fun acc b => (s.dataSpans b).foldl (fun acc sp => insertSorted sp acc) acc) []

/-- REJOINING is entered: this device is the returner, fetches the twin's entries and sends its split bitmap and
dirty-span bits, and its spans when every span is to be copied (03 R108, R124). -/
def State.enterRejoining (s : State) : State :=
  let s := s.setSt .rejoining
  let full := s.wantsFull
  let s := { s with twin := { s.twin with
    rejoinRole := 2, fromRejoin := false, copyList := [], copyBuilt := false, copyCur := none,
    full := full, fullNext := false } }
  let s := if full then s.raise F.TW_STATUS.FULL_COPY else s
  let m := s.mirroredBolts
  let s := m.foldl (fun s b => s.send { s.hdr s.twinId with offset := b * 2 ^ 36 } .boltFetch) s
  let s := s.sendMap .split (if full then 6 else 0) (s.lines.splitMap.filter (fun sp => s.mirrored (boltOfSpan sp)))
  let s := s.sendMap .dirtySpan 0 (s.lines.spanReg.filter (fun sp => s.mirrored (boltOfSpan sp)))
  s.sendMap .held 0 s.heldSpans

/-- The device counts its stores in the split bitmap as lost after a double takeover (03 Table 3.6). -/
def State.diverged (s : State) : State :=
  if s.twin.divergedDone then s
  else
    let s := { s with twin := { s.twin with divergedDone := true } }
    let s := (s.raise F.TW_STATUS.DIVERGED).newLossCause
    s.lines.splitMap.foldl (fun s sp => s.spanLoss sp 2 3) s

/-- The claim of this device for its bolts is stale: STALE_SELF, and REJOINING (03 R109). A device in SOLO has served under it: its
stores since are lost (03 Table 3.6). -/
def State.staleRejoin (s : State) : State :=
  let s := if s.twin.st == .solo then s.diverged else s
  (s.raise F.TW_STATUS.STALE_SELF).enterRejoining

/-- The rejoin ends at the survivor: nothing left to copy, every mirror acknowledgement in (03 R127). -/
def State.checkFed (s : State) : State :=
  if s.twin.st == .feeding && s.twin.copyBuilt && s.twin.copyList.isEmpty && s.twin.mirrorOut.isEmpty then
    s.enterPaired true
  else s

/-- The survivor builds the copy list once the returner's maps are in, sends it, and copies the first span
(03 R124). -/
def State.buildCopyList (s : State) : State :=
  let have_ (k : MapKind) := s.twin.mapsIn.contains k
  if s.twin.st != .feeding || s.twin.copyBuilt || !have_ .split || !have_ .dirtySpan
      || (s.twin.full && !have_ .held) then s
  else
    let l := if s.twin.full then s.twin.peerHeld.foldl (fun acc sp => insertSorted sp acc) s.heldSpans
      else s.twin.peerSpans.foldl (fun acc sp => insertSorted sp acc)
        (s.lines.splitMap.filter (fun sp => s.mirrored (boltOfSpan sp)))
    let s := { s with twin := { s.twin with copyList := l, copyBuilt := true } }
    let s := s.sendMap .copyList 0 l
    match l with
    | [] => s.checkFed
    | sp :: t => s.sendCopySpan sp t.isEmpty

/-- FEEDING is entered: this device is the survivor; its copy list waits for the returner's maps, which may be
there already (03 R124). -/
def State.enterFeeding (s : State) : State :=
  let s := s.setSt .feeding
  let full := s.wantsFull || s.twin.full
  let s := { s with twin := { s.twin with
    rejoinRole := 1, copyList := [], copyBuilt := false,
    echoFrozen := false, full := full, fullNext := false, saveSolo := false } }
  (if full then s.raise F.TW_STATUS.FULL_COPY else s).buildCopyList

/-- T_free (03 R111). -/
def State.tFree (s : State) : Nat :=
  let l := s.twin.freeUntil.filter (fun x => s.now < x.1 + 1000000000)
  if l.isEmpty then s.twin.triggerAt else l.foldl (fun m x => max m x.2) 0

/-- TAKING is entered: ECHO_SEQ is kept, and the takeover record for the twin's MIRRORED bolts goes to eNVM
(03 R105, R106, R115, R116). -/
def State.enterTaking (s : State) (trigger : Nat) : State :=
  let poison := s.twin.fromRejoin && s.twin.st == .isolated
  let s := s.setSt .taking
  let bolts := s.mirroredBolts.filter (fun b => entryActive (s.entry b) == s.twinId)
  { s with twin := { s.twin with
    echoFrozen := true,
    taking := some { claim := s.newClaim, rotation := false, bolts := bolts, trigger := trigger, poisonList := poison } } }

/-- WAIT is entered at a trigger; a wait that has already ended starts TAKING at once (03 R112). -/
def State.enterWait (s : State) (trigger : Nat) : State :=
  let s := s.setSt .wait
  let s := { s with twin := { s.twin with triggerAt := s.now } }
  if s.tFree ≤ s.now then s.enterTaking trigger else s

/-- ISOLATED is entered (03 R113, R428). -/
def State.enterIsolated (s : State) (fromRejoin : Bool) : State :=
  let s := s.setSt .isolated
  { s with twin := { s.twin with fromRejoin := fromRejoin, enteredCarrierLost := !s.twin.carrier } }

/-- SOLO is entered without a takeover: FEEDING met a loss (03 Table 3.4). Spans not yet copied are marked. -/
def State.backToSolo (s : State) : State :=
  let left := s.twin.copyList
  let s := s.setSt .solo
  let s := { s with
    twin := { s.twin with copyOut := [], copyList := [], copyBuilt := false, rejoinRole := 0, mirrorOut := [],
                          mapsIn := [], peerSpans := [], peerHeld := [] },
    lines := { s.lines with splitMap := left.foldl (fun acc sp => insertSorted sp acc) s.lines.splitMap } }
  s.dropRepairs.dropPeerParts

/-- Path A, path B and the carrier are good. -/
def State.pathUpA (s : State) : Bool := s.twin.pathA.last.isSome && !s.twin.pathA.lost
def State.pathUpB (s : State) : Bool := s.twin.pathB.last.isSome && !s.twin.pathB.lost
def State.allGood (s : State) : Bool := s.pathUpA && s.pathUpB && s.twin.carrier

/-- Carrier lost and path A lost (03 Table 3.3 row 2). -/
def State.lossTrigger (s : State) : Bool := !s.twin.carrier && s.twin.pathA.lost
/-- The silent peer (03 Table 3.3 row 3). -/
def State.silentTrigger (s : State) : Bool := s.twin.carrier && s.twin.pathA.lost && s.twin.pathB.lost

/-- The triggers of Table 3.3 applied to the pair state after a path or the carrier has been lost (03 R110,
R112, R113, R117). The codes are those of 14 Table 14.6: 2 = carrier and path A, 3 = silent peer. -/
def State.checkTriggers (s : State) : State :=
  let loss := s.lossTrigger
  let silent := s.silentTrigger
  let silentLoss := silent && s.smallBay && s.side == 0
  let silentOdd := silent && s.smallBay && s.side == 1
  let code := if loss then 2 else 3
  match s.twin.st with
  | .sync | .paired | .suspect =>
    let s := if silent then s.raise F.TW_STATUS.SILENT_PEER else s
    if loss || silentLoss then s.enterWait code
    else if silentOdd then s.enterIsolated false
    else if silent then s.setSt .silent
    else if s.twin.st == .paired && !s.allGood then s.setSt .suspect
    else s
  | .silent => if loss then s.enterWait 2 else s
  | .isolated =>
    if loss && !s.twin.fromRejoin && !s.twin.enteredCarrierLost then s.enterWait 2 else s
  | .feeding => if loss || silentLoss then s.backToSolo else s
  | .rejoining =>
    if loss || silentLoss || silentOdd then
      let s := s.enterIsolated true
      s.raiseCls (if loss then F.TW_STATUS.CARRIER_LOST else F.TW_STATUS.SILENT_PEER) 0 3 .none
    else s
  | _ => s

/-! Claims agreed in SYNC (03 Table 3.4; Table 3.6). -/

/-- Every entry of this device sent to another: what a device that was out of reach has missed (01 R22, R24, Table 1.3). -/
def State.sendEntries (s : State) (dev : Nat) (sel : Nat → BoltEntry → Bool) : State :=
  (s.bay.bolts.filter (fun x => sel x.1 x.2)).foldl (fun s x =>
    s.send { s.hdr dev with offset := x.1 * 2 ^ 36, claim := x.2.claim } (.boltUpdate x.2)) s

/-- SYNC is entered again before service opens (03 R429): SEQ starts at a new value, and no path keeps a reference (R100). -/
def State.returnToSync (s : State) : State :=
  let s := s.setSt .sync
  let s := { s with freeIx := s.freeIx + 1 }
  { s with twin := { s.twin with
      txSeq := BitVec.ofNat 32 (Config.entropy (s.freeIx - 1)).toNat,
      pathA := { s.twin.pathA with ref := none }, pathB := { s.twin.pathB with ref := none } } }

/-- This device holds a MIRRORED bolt of its pair as active. -/
def State.holdsActive (s : State) : Bool := s.mirroredBolts.any s.isActive

/-- SYNC with valid frames on both paths: the tables are reconciled, and the sides compare SOLO and their claims (03 Table 3.4; 01
R22). Claims that differ only for bolts that this device does not hold agree once the entries are in. -/
def State.syncOutcome (s : State) (f : HbFrame) : State :=
  if !(s.pathUpA && s.pathUpB) then s
  else
    let s := s.sendEntries s.twinId (fun _ _ => true)
    if hbSolo f || (s.claimHigh < f.claimHigh && s.holdsActive) then s.enterRejoining
    else if f.claimHigh < s.claimHigh && s.holdsActive then s.enterFeeding
    else if f.claimHigh = s.claimHigh then s.enterPaired false
    else s

/-- SOLO and the twin's frames are back on both paths (03 Table 3.4, Table 3.6; 13 R377). With SOLO on both
sides the lower claim is stale; of equal ones the even device takes its bolts again. -/
def State.soloFrame (s : State) (f : HbFrame) : State :=
  if !(s.pathUpA && s.pathUpB) || hbSave f then s
  else if hbSolo f && s.claimHigh < f.claimHigh then s.staleRejoin
  else if hbSolo f && f.claimHigh == s.claimHigh && !s.twin.saveSolo then
    if s.side = 0 ∧ s.twin.taking.isNone then
      let bolts := s.mirroredBolts.filter (fun b => entryActive (s.entry b) == s.devId)
      let t : Taking := { claim := s.newClaim, rotation := false, bolts := bolts, trigger := 2, poisonList := false }
      { s with twin := { s.twin with taking := some t } }
    else s
  else s.enterFeeding

/-- SUSPECT or PAIRED, or SYNC and its outcome while service has not opened (03 R429). -/
def State.framesBack (s : State) (f : HbFrame) : State :=
  if s.beforeService then s.returnToSync.syncOutcome f
  else if s.allGood then s.enterPaired false
  else s.setSt .suspect

/-- What a valid heartbeat does to the pair state (03 Table 3.4). A frame built at or before the DT at which this device entered
PAIRED is of the rejoin that has just ended: its SOLO flag is no news (DESIGN CHOICE, log entry 97). -/
def State.heartbeatState (s : State) (f : HbFrame) : State :=
  let solo := hbSolo f && decide (s.twin.pairedAt < f.sendDt)
  match s.twin.st with
  | .sync => s.syncOutcome f
  | .paired => if solo then s.staleRejoin else if s.allGood then s else s.setSt .suspect
  | .suspect => if solo then s.staleRejoin else if s.allGood then s.enterPaired false else s
  | .wait =>
    if solo then s.staleRejoin
    else if s.lossTrigger || (s.silentTrigger && s.smallBay && s.side == 0) then s
    else s.framesBack f
  | .silent => if solo then s.staleRejoin else s.framesBack f
  | .isolated => if s.beforeService then s.returnToSync.syncOutcome f else s.enterRejoining
  | .solo => s.soloFrame f
  | _ => s

/-- What a valid YIELD does to the pair state (03 R110, R114, Table 3.4, Table 3.6). -/
def State.yieldState (s : State) (f : HbFrame) : State :=
  let both := s.twin.fenced || s.twin.st == .yielded
  let s := if both then s.raiseCls F.TW_STATUS.YIELD_RX 0 3 .none else s.raise F.TW_STATUS.YIELD_RX
  -- the row of FLAGS.SOLO goes before every other row for the same frame
  let solo := hbSolo f && decide (s.twin.pairedAt < f.sendDt)
  if s.twin.fenced then s
  else match s.twin.st with
    | .paired | .suspect | .wait | .silent => if solo then s.staleRejoin else s.enterTaking 1
    | .sync => (s.enterWait 1).enterTaking 1
    | .isolated => if s.twin.fromRejoin then s else s.enterTaking 1
    | .feeding => s.backToSolo
    | .rejoining => (s.enterIsolated true).raiseCls F.TW_STATUS.YIELD_RX 0 3 .none
    | _ => s

/-! Receiving frames (03 R95, R96, R99 to R101, R108). -/

/-- The path after a valid frame. -/
def pathHit (p : Path) (f : HbFrame) (pathB : Bool) (now : Nat) : Path :=
  { p with ref := some f.seq, last := some now, period := if pathB then max 50 f.periodUs else f.periodUs,
           miss := 0, lost := false }

/-- The frame meets the conditions of 03 R99 but for its CRC. -/
def State.frameValid (s : State) (f : HbFrame) (p : Path) : Bool :=
  f.sender == s.twinId && (f.ty == 1 || f.ty == 2) && decide (10 ≤ f.periodUs) && decide (f.periodUs ≤ 10000)
    && (match p.ref with | none => true | some r => serialLater f.seq r)

/-- The lease after a frame that echoes a heartbeat of this device (03 R95). -/
def State.renewLease (s : State) (echo : BitVec 32) : State :=
  match s.twin.sent.find? (fun x => x.1 == echo) with
  | some (_, dt, p) =>
    if dt < s.twin.leaseFrom then s
    else
      let e := dt + leaseNs p
      { s with twin := { s.twin with leaseFrom := dt, leaseEnd := e, lapsed := s.twin.lapsed && decide (e ≤ s.now) } }
  | none => s

/-- This device learns that its claim for a bolt is stale: it stops acting as active for it at once (03 R109). The entry that shows
it is fetched. -/
def State.learnStale (s : State) (b : Nat) : State :=
  if s.isActive b then { s with bay := { s.bay with staleBolts := insertSorted b s.bay.staleBolts } } else s

/-- The audit of a frame (03 R108): a higher claim is fetched, a lower one is flagged. Claim 0 is never used, so
it audits nothing. -/
def State.audit (s : State) (f : HbFrame) : State :=
  if f.auditClaim = 0 then s
  else
    let own := (s.entry f.auditBolt).claim
    if own < f.auditClaim then
      (s.learnStale f.auditBolt).send { s.hdr s.twinId with offset := f.auditBolt * 2 ^ 36 } .boltFetch
    else if f.auditClaim < own then s.raise F.TW_STATUS.CLAIM_MISMATCH
    else s

/-- The next miss deadline of a path (03 R101, R112). -/
def State.missAt (s : State) (pathB : Bool) : Nat :=
  let p := if pathB then s.twin.pathB else s.twin.pathA
  let t := p.last.getD s.twin.syncAt
  let per := (if p.last.isSome then p.period else if pathB then s.pbPeriodUs else s.periodUs) * 1000
  t + per / 2 + (p.miss + 1) * per

/-- One miss on a path: at the eighth the path is lost and its reference forgotten (03 R101). -/
def State.missOne (s : State) (pathB : Bool) : State :=
  let p := if pathB then s.twin.pathB else s.twin.pathA
  let lost := p.miss + 1 == 8
  let p := { p with miss := p.miss + 1, lost := p.lost || lost, ref := if lost then none else p.ref }
  let s := { s with twin := { s.twin with
    pathA := if pathB then s.twin.pathA else p, pathB := if pathB then p else s.twin.pathB } }
  let s := s.bump (if pathB then F.TW_MISS_STAT.MISSES_B else F.TW_MISS_STAT.MISSES_A) 0 1
  if lost then
    ((s.raise (if pathB then F.TW_STATUS.PATH_B_LOST else F.TW_STATUS.PATH_A_LOST)).checkTriggers).settle
  else s

/-- The states in which frames are awaited. -/
def State.awaitsFrames (s : State) : Bool := decide (13 ≤ s.power.state) && decide (s.power.state ≤ 20)

/-- The miss deadlines of a path that have passed are taken before a frame that arrives now: a frame stamped at a deadline counts as
missed for the window that ends there (00 R12; 03 R101). -/
def State.missDue (s : State) (pathB : Bool) (fuel : Nat) : State :=
  match fuel with
  | 0 => s
  | k + 1 =>
    let p := if pathB then s.twin.pathB else s.twin.pathA
    if s.awaitsFrames && decide (p.miss < 8) && decide (s.missAt pathB ≤ s.now) then (s.missOne pathB).missDue pathB k else s

/-- A frame received on path A or B (03 R99, R100). -/
def State.onFrame (s : State) (f : HbFrame) (pathB : Bool) : State :=
  let good := if pathB then f.crc == plumbCrc f else f.crc == hbCrc f
  let s := s.missDue pathB 8
  let p := if pathB then s.twin.pathB else s.twin.pathA
  if !good then s.raise F.TW_STATUS.FRAME_CRC
  else if !s.frameValid f p then s
  else
    -- a window that ends at this moment is taken first (03 Table 3.6)
    let s := if s.twin.st == .wait && decide (s.tFree ≤ s.now) then s.enterTaking 2 else s
    let echo := if s.twin.echoFrozen then s.twin.echoSeq
      else if p.ref.isNone then f.seq
      else if serialLater f.seq s.twin.echoSeq then f.seq else s.twin.echoSeq
    let p := pathHit p f pathB s.now
    let free := s.twin.freeUntil.filter (fun x => s.now < x.1 + 1000000000)
    let s := { s with twin := { s.twin with
      pathA := if pathB then s.twin.pathA else p,
      pathB := if pathB then p else s.twin.pathB,
      echoSeq := echo, peer := some f, 
      freeUntil := free ++ [(s.now, f.sendDt + leaseNs f.periodUs + 1000000)] } }
    let s := (s.renewLease f.echo).audit f
    let s := if f.ty = 2 then s.yieldState f else s.heartbeatState f
    (s.retryHeld).settle

/-- HEARTBEAT (03 R97, R99). -/
def execHeartbeat (h : Hdr) (f : HbFrame) (at_ : Nat) (s : State) : Host.Outcome State Fault Refusal :=
  .next ((s.tick at_).receive h (.heartbeat f) (fun s => s.onFrame f false))

/-- PLUMB_FRAME_RX (03 R98, R99). -/
def execPlumbFrameRx (f : HbFrame) (at_ : Nat) (s : State) : Host.Outcome State Fault Refusal :=
  .next ((s.tick at_).onFrame f true)

/-- YIELD (03 R114): a YIELD frame on path A or on the Plumb line. -/
def execYield (plumb : Bool) (f : HbFrame) (at_ : Nat) (s : State) : Host.Outcome State Fault Refusal :=
  .next ((s.tick at_).onFrame f plumb)

/-! Sending frames (03 R96, R108, R114). -/

/-- FLAGS of this device's frames (03 Table 3.1). SOLO stands in SOLO, and in FEEDING until the returner has
sent its maps (DEDUCED, log entry 13). -/
def State.hbFlags (s : State) : BitVec 8 :=
  let st := s.twin.st
  BitVec.ofNat 8 (bit (!s.twin.diagBad)
    + bit (st == .solo || (st == .feeding && !s.twin.copyBuilt)) * 2
    + bit (st == .isolated) * 4 + bit (st == .rejoining) * 8 + bit (decide (16 ≤ s.power.state)) * 16)

/-- The bolt of the audit: the next bound bolt of the pair for which this device is active (03 R108). -/
def State.auditBolt (s : State) : Option Nat :=
  let l := (s.bay.bolts.filter (fun x => s.isActive x.1)).map Prod.fst
  match l.find? (fun b => s.twin.auditNext ≤ b) with
  | some b => some b
  | none => l.head?

/-- Heartbeats are sent from SYNC on until the device has yielded (03 R96, R114; DEDUCED, log entry 13). -/
def State.sendsFrames (s : State) : Bool :=
  ((s.power.state == 13 && s.power.begun) || (decide (14 ≤ s.power.state) && decide (s.power.state ≤ 20)))
    && s.twin.st != .yielded && !s.twin.portsFenced

/-- A frame built now with a type (03 Table 3.1). -/
def State.buildFrame (s : State) (ty : Nat) : HbFrame × State :=
  let s := { s with twin := { s.twin with period := s.nextPeriod } }
  let seq := s.twin.txSeq + 1#32
  let ab := s.auditBolt
  let f : HbFrame := {
    ty := ty, sender := s.devId, flags := s.hbFlags, seq := seq, echo := s.twin.echoSeq,
    auditBolt := ab.getD 0, sendDt := s.now, claimHigh := s.claimHigh,
    auditClaim := (match ab with | some b => (s.entry b).claim | none => 0), periodUs := s.periodUs, crc := 0#32 }
  let f := { f with crc := hbCrc f }
  let sent := s.twin.sent.filter (fun x => s.now ≤ x.2.1 + 41000000)
  let s := { s with twin := { s.twin with
    txSeq := seq, lastHb := some f, sent := sent ++ [(seq, s.now, s.periodUs)],
    auditNext := (match ab with | some b => b + 1 | none => 0) } }
  let s := s.put F.TW_HB_SEQ.TX_SEQ seq.toNat
  let s := s.put F.TW_TIMING.LEASE_US (leaseNs s.periodUs / 1000)
  (f, s.put F.TW_TIMING.PB_PERIOD_US s.pbPeriodUs)

/-- YIELDED is entered. -/
def State.enterYielded (s : State) : State :=
  let s := s.setSt .yielded
  { s with twin := { s.twin with yieldSlots := 0, taking := none } }

/-- The yield starts: the MIRRORED bolts of the pair are fenced, YIELD frames follow in the heartbeat slots
(03 R114). -/
def State.startYield (s : State) : State :=
  if s.twin.fenced then s
  else { s with twin := { s.twin with fenced := true, yieldSlots := 8, yieldSeq := none } }

/-- The twin has echoed a SEQ at or above the first YIELD. -/
def State.yieldEchoed (s : State) : Bool :=
  match s.twin.yieldSeq, s.twin.peer with
  | some y, some f => serialGe f.echo y
  | _, _ => false

/-- HEARTBEAT_TIMER (03 R96, R114): a heartbeat, or a YIELD while the device yields, on every TWIN port in
service. -/
def execHeartbeatTimer (at_ : Nat) (s : State) : Host.Outcome State Fault Refusal :=
  let s := s.tick at_
  .next (if !s.sendsFrames then s
    else if s.twin.fenced && (s.twin.yieldSlots == 0 || s.yieldEchoed) then s.enterYielded
    else
      let ty := if s.twin.fenced then 2 else 1
      let (f, s) := s.buildFrame ty
      let s := if s.twin.fenced then
          { s with twin := { s.twin with
            yieldSlots := s.twin.yieldSlots - 1,
            yieldSeq := (match s.twin.yieldSeq with | some y => some y | none => some f.seq) } }
        else s
      let body := if ty = 2 then Payload.yield f else Payload.heartbeat f
      s.twinPorts.foldl (fun s p => s.sendOn p { s.hdr s.twinId with hops := 1 } body) s)

/-- PLUMB_SEND_TIMER (03 R96, R102): the latest frame goes to the AON island for path B, and the watchdog is fed
while the self-diagnosis is good. -/
def execPlumbSendTimer (at_ : Nat) (s : State) : Host.Outcome State Fault Refusal :=
  let s := s.tick at_
  .next (if !s.sendsFrames then s
    else match s.twin.lastHb with
      | some f =>
        let s := s.emit (.plumb { f with crc := plumbCrc f })
        if s.twin.diagBad then s else { s with twin := { s.twin with fedAt := some s.now } }
      | none => s)

/-! Misses, lease, watchdog, carrier (03 R95, R101 to R103). -/

/-- MISS_DEADLINE (03 R101): one more miss, where its deadline has come. -/
def execMissDeadline (pathB : Bool) (at_ : Nat) (s : State) : Host.Outcome State Fault Refusal :=
  let s := s.tick at_
  .next (if s.awaitsFrames && decide (s.missAt pathB ≤ s.now) then s.missOne pathB else s)

/-- LEASE_LAPSE (03 R95). -/
def execLeaseLapse (at_ : Nat) (s : State) : Host.Outcome State Fault Refusal :=
  let s := s.tick at_
  .next (if s.twin.leaseEnd ≠ 0 ∧ s.twin.leaseEnd ≤ s.now ∧ s.twin.lapsed = false then
      ({ s with twin := { s.twin with lapsed := true } }).raise F.TW_STATUS.LEASE_LAPSED
    else s)

/-- WATCHDOG_EXPIRY (03 R102): 8 path B periods without a feed. Every port is fenced, the driver stops, and the
device is YIELDED. -/
def execWatchdogExpiry (at_ : Nat) (s : State) : Host.Outcome State Fault Refusal :=
  let s := s.tick at_
  .next (match s.twin.fedAt with
    | some t =>
      if t + 8 * s.pbPeriodUs * 1000 ≤ s.now then
        let s := { s with twin := { s.twin with portsFenced := true, fenced := true, fedAt := none } }
        let s := (List.range 96).foldl (fun s p => if s.portUp p then s.setF F.PT_LINK.STATE p 3 else s) s
        s.enterYielded
      else s
    | none => s)

/-- CARRIER_LOSS (03 R103). -/
def execCarrierLoss (at_ : Nat) (s : State) : Host.Outcome State Fault Refusal :=
  let s := s.tick at_
  .next (if s.twin.carrier then
      let s := { s with twin := { s.twin with carrier := false } }
      ((s.raise F.TW_STATUS.CARRIER_LOST).checkTriggers).settle
    else s)

/-- CARRIER_PRESENT (03 R103; Table 3.4; R429). -/
def execCarrierPresent (at_ : Nat) (s : State) : Host.Outcome State Fault Refusal :=
  let s := s.tick at_
  let s := { s with twin := { s.twin with carrier := true } }
  .next ((match s.twin.st with
    | .suspect => if s.allGood then s.enterPaired false else s
    | .wait => if s.beforeService && !s.lossTrigger then s.returnToSync.checkTriggers else s
    | .sync | .paired | .feeding | .rejoining => s.checkTriggers
    | _ => s).settle)

/-- T_FREE_REACHED (03 R111, R117). -/
def execTFreeReached (at_ : Nat) (s : State) : Host.Outcome State Fault Refusal :=
  let s := s.tick at_
  .next (if s.twin.st == .wait && decide (s.tFree ≤ s.now) then s.enterTaking 2 else s)

/-- SELF_DIAGNOSIS_FAIL (03 R114). -/
def execSelfDiagnosisFail (at_ : Nat) (s : State) : Host.Outcome State Fault Refusal :=
  let s := s.tick at_
  let s := { s with twin := { s.twin with diagBad := true } }
  .next s.startYield

/-! The takeover and rotation record (03 R106, R116, R121, R428). -/

/-- Spans left on the copy list are poisoned (03 R428). -/
def State.poisonCopyList (s : State) : State :=
  let l := s.twin.copyList
  let s := s.newLossCause
  let s := l.foldl (fun s sp =>
    ((s.poisonSpan sp).raise F.PW_PERSIST_STATUS.DIRTY_LOSS).spanLoss sp 4 3) s
  { s with twin := { s.twin with copyList := [] } }

/-- The takeover record is written: each bolt gets the claim and this side; SOLO is entered, held mirror stores
complete as LOCAL, held requests are released (03 R116). -/
def State.takeOver (s : State) (t : Taking) : State :=
  let s := if t.poisonList then s.poisonCopyList else s
  let retake := s.twin.st == .solo
  let s := if retake then s else (s.raise F.TW_STATUS.TAKEOVER).health 5 1
  let s := s.bbRecord 2 (.takeover s.pairId t.trigger t.claim)
  let s := s.setSt .solo
  let s := { s with twin := { s.twin with
    taking := none, fromRejoin := false, rejoinRole := 0, mirrorOut := [], copyOut := [], mapsIn := [],
    peerSpans := [], peerHeld := [] } }
  let s := t.bolts.foldl (fun s b =>
    let e := s.entry b
    s.changeEntry b { e with claim := t.claim, activeSide := s.side, seq := e.seq + 1 }) s
  let reqs := s.bay.reqs.map (fun (r : Req) =>
    match r.st with
    | .storing n true d tag => { r with st := .storing n false d tag }
    | .refused n d tag => { r with st := .storing n false d tag }
    | _ => r)
  let s := { s with bay := { s.bay with reqs := reqs } }
  let s := s.resend (fun r => match r.st with | .forwarded dev _ _ _ => dev == s.twinId | _ => false)
  (s.dropRepairs.dropPeerParts.retryHeld).settle

/-- The group of a handover. -/
def State.dropGroup (s : State) : State := { s with twin := { s.twin with group := none } }

/-- The current active starts to hand a group over: new requests to it are held (03 Table 3.7 step 2). -/
def State.beginHandover (s : State) (bolts : List Nat) (down : Bool) : State :=
  { s with twin := { s.twin with
    group := some { bolts := bolts, active := true, step := 2, since := s.now, hold := s.now, down := down } } }

/-- Bolts with their claims. -/
def State.withClaims (s : State) (l : List Nat) : List (Nat × Nat) := l.map (fun b => (b, (s.entry b).claim))

/-- GROUP as it acts (03 Table 3.14). -/
def State.groupSize (s : State) : Nat := min 256 (max 1 (s.get F.TW_ROTATE_CTL.GROUP))

/-- SLOTS as it acts. -/
def State.slots (s : State) : Nat := max 1 (s.get F.TW_ROTATE_CTL.SLOTS)

/-- The bolts of slot `n` that are not on their target side (03 R120). -/
def State.slotBolts (s : State) (n : Nat) (cyc : Bool) : List Nat :=
  s.mirroredBolts.filter (fun b => b % s.slots == n && (s.entry b).activeSide != (b / s.slots + bit cyc) % 2)

/-- The next slot starts (03 R120). -/
def State.startSlot (s : State) : State :=
  let n := (s.twin.slot + 1) % s.slots
  let cyc := if n = 0 then !s.twin.cycle else s.twin.cycle
  { s with twin := { s.twin with
    slot := n, cycle := cyc, slotWork := s.slotBolts n cyc, slotPending := false, maxHold := 0 } }

/-- The even device names the next group of the slot (03 Table 3.7 step 1); a slot that has come due meanwhile
starts when the running one is through. On the down path the next group of the device's own bolts follows
(13 R376). -/
def State.nextGroup (s : State) (fuel : Nat) : State :=
  match fuel with
  | 0 => s
  | k + 1 =>
    if s.twin.group.isSome || s.twin.st != .paired then s
    else if !s.twin.downWork.isEmpty then
      let l := s.twin.downWork.take 256
      let s := { s with twin := { s.twin with downWork := s.twin.downWork.drop 256 } }
      s.beginHandover l true
    else if s.side = 1 ∨ s.power.state ≥ 16 ∨ s.isSet F.TW_ROTATE_CTL.EN 0 = false then s
    else match s.twin.slotWork with
      | [] => if s.twin.slotPending then s.startSlot.nextGroup k else s
      | b :: _ =>
        let act := entryActive (s.entry b)
        let l := (s.twin.slotWork.filter (fun x => entryActive (s.entry x) == act)).take s.groupSize
        let s := { s with twin := { s.twin with slotWork := s.twin.slotWork.filter (fun x => !l.contains x) } }
        if act = s.devId then s.beginHandover l false
        else
          let s := { s with twin := { s.twin with
            group := some { bolts := l, active := false, step := 1, since := s.now, hold := s.now, down := false } } }
          s.send (s.hdr s.twinId) (.handoverReq (s.withClaims l))

/-- The rotation record is written: the new active distributes its entries and acknowledges (03 Table 3.7
steps 5, 6). -/
def State.takeGroup (s : State) (t : Taking) : State :=
  let s := t.bolts.foldl (fun s b =>
    let e := s.entry b
    s.changeEntry b { e with claim := t.claim, activeSide := s.side, seq := e.seq + 1 }) s
  let s := s.send (s.hdr s.twinId) (.handoverAck (s.withClaims t.bolts))
  let s := { s with twin := { s.twin with
    taking := none, moved := satAdd 32 s.twin.moved t.bolts.length, group := none } }
  (s.nextGroup 2).settle

/-- TAKEOVER_RECORD_WRITTEN (03 R106): the record stands in its ring, TW_CLAIM_LOCAL takes the claim, and the device acts on it. -/
def State.onTakeoverRecord (s : State) : State :=
  match s.twin.taking with
  | some t =>
    let x : ClaimRec := { pair := s.pairId, claim := t.claim, side := s.side, rotation := t.rotation }
    let l := s.twin.claims ++ [x]
    let s := { s with twin := { s.twin with claims := l.drop (l.length - Config.claimRecords) } }
    let s := s.setReg .TW_CLAIM_LOCAL 0 (word (max t.claim (s.reg .TW_CLAIM_LOCAL 0).toNat))
    if t.rotation then s.takeGroup t else s.takeOver t
  | none => s

/-! Rotation timers (03 R120 to R122). -/

/-- Rotation goes on: the even device, PAIRED, with EN set (03 R120). -/
def State.rotates (s : State) : Bool :=
  s.side == 0 && s.twin.st == .paired && s.isSet F.TW_ROTATE_CTL.EN 0 && decide (s.power.state < 16)

/-- ROTATE_SLOT_TIMER (03 R120): the next slot is due; a slot that still has groups to move keeps its turn. -/
def execRotateSlotTimer (at_ : Nat) (s : State) : Host.Outcome State Fault Refusal :=
  let s := s.tick at_
  .next (if s.rotates && decide (s.twin.slotDue ≤ s.now) then
      let s := { s with twin := { s.twin with
        slotDue := s.now + max 1 (s.get F.TW_ROTATE_CTL.INTERVAL_MIN) * 60000000000 } }
      if s.twin.group.isSome || !s.twin.slotWork.isEmpty then { s with twin := { s.twin with slotPending := true } }
      else (s.startSlot.nextGroup 2).settle
    else s)

/-- Mirrored stores to a group that have not completed (03 Table 3.7 step 3). -/
def State.groupBusy (s : State) (g : Group) : Bool :=
  s.bay.reqs.any (fun r => g.bolts.contains (reqBolt r) && (match r.st with | .storing _ true _ _ => true | _ => false))

/-- HANDOVER_DRAIN_DONE (03 Table 3.7 step 4). -/
def execHandoverDrainDone (at_ : Nat) (s : State) : Host.Outcome State Fault Refusal :=
  let s := s.tick at_
  .next (match s.twin.group with
    | some g =>
      if g.active && g.step == 2 && !s.groupBusy g then
        let s := { s with twin := { s.twin with group := some { g with step := 4, since := s.now } } }
        s.send (s.hdr s.twinId) (.handover (s.withClaims g.bolts))
      else s
    | none => s)

/-- The group stays with its active: its requests are released, ROTATE_SKIP is set and the next group follows
(03 Table 3.7 step 3, R122). -/
def State.skipGroup (s : State) : State :=
  let s := s.dropGroup.raise F.TW_STATUS.ROTATE_SKIP
  (s.retryHeld.nextGroup 2).settle

/-- ROTATE_WAIT_TIMEOUT (03 Table 3.7 step 3): 1 ms after step 2 began, or after a HANDOVER_REQ that brought no
HANDOVER. -/
def State.onRotateWait (s : State) : State :=
  match s.twin.group with
  | some g =>
    if g.step ≤ 2 ∧ g.since + 1000000 ≤ s.now ∧ (s.groupBusy g = true ∨ g.step = 1) then s.skipGroup else s
  | none => s

/-- HANDOVER_TIMEOUT (03 R122): 1 ms after HANDOVER. -/
def State.onHandoverTimeout (s : State) : State :=
  match s.twin.group with
  | some g => if g.step = 4 ∧ g.since + 1000000 ≤ s.now then s.skipGroup else s
  | none => s

/-- TW_ROTATE_CTL written: with EN set again the slot number next advances INTERVAL_MIN later, and the bolts of a slot that was
stopped go on (03 R120). -/
def State.writeRotate (s : State) (via : Via) (w : AccW) (v : Word) : State :=
  s.writeAt via .TW_ROTATE_CTL 0 w v (fun s =>
    let t := s.writeFields .TW_ROTATE_CTL 0 w v false
    if !s.isSet F.TW_ROTATE_CTL.EN 0 && t.isSet F.TW_ROTATE_CTL.EN 0 then
      let t := { t with twin := { t.twin with
        slotDue := t.now + max 1 (t.get F.TW_ROTATE_CTL.INTERVAL_MIN) * 60000000000 } }
      (t.nextGroup 2).settle
    else t)

/-! TW commands (03 R129). -/

/-- The end of a TW command. -/
def State.twCode (s : State) (code : Nat) : State :=
  ((s.put F.TW_CMD.GO 0).put F.TW_CMD_STATUS.BUSY 0).put F.TW_CMD_STATUS.CODE code

/-- TW_CMD YIELD. -/
def State.cmdYield (s : State) : State :=
  if s.twin.st == .paired then s.startYield.twCode 0 else s.twCode 12

/-- TW_CMD DECLARE_LOST. -/
def State.cmdDeclareLost (s : State) : State :=
  if (s.twin.st == .silent || s.twin.st == .isolated) && decide (s.tFree ≤ s.now) then
    (s.enterTaking 4).twCode 0
  else s.twCode 12

/-- TW_CMD ROTATE_NOW. With EN = 0 it ends with DONE and nothing advances, as 03 R120 has it for EN = 0 (DESIGN CHOICE, log entry
98). -/
def State.cmdRotateNow (s : State) : State :=
  if s.side = 1 ∨ s.twin.st ≠ .paired then s.twCode 12
  else if !s.isSet F.TW_ROTATE_CTL.EN 0 then s.twCode 0
  else if s.twin.group.isSome || !s.twin.slotWork.isEmpty then
    ({ s with twin := { s.twin with slotPending := true } }).twCode 0
  else ((s.startSlot.nextGroup 2).settle).twCode 0

/-- TW_CMD FULL_REJOIN. -/
def State.cmdFullRejoin (s : State) : State :=
  ({ s with twin := { s.twin with fullNext := true } }).twCode 0

/-- A command of TW_CMD by its code (03 Table 3.16). -/
def State.twRun (s : State) (op : Nat) : State :=
  if s.isSet F.TW_CMD_STATUS.BUSY 0 then s.raise F.TW_STATUS.CMD_OVERRUN
  else
    let s := s.put F.TW_CMD.OP op
    match op with
    | 1 => s.cmdYield
    | 2 => s.cmdDeclareLost
    | 3 => s.cmdRotateNow
    | 4 => s.cmdFullRejoin
    | _ => s.twCode 7

/-- TW_CMD_YIELD (03 R129). -/
def execTwCmdYield (via : Via) (at_ : Nat) (s : State) : Host.Outcome State Fault Refusal :=
  .next ((s.tick at_).command via .TW_CMD 0 [] (word 0x101) (fun s => s.twRun 1))

/-- DECLARE_LOST (03 R129). -/
def execDeclareLost (via : Via) (at_ : Nat) (s : State) : Host.Outcome State Fault Refusal :=
  .next ((s.tick at_).command via .TW_CMD 0 [] (word 0x102) (fun s => s.twRun 2))

/-- ROTATE_NOW (03 R129). -/
def execRotateNow (via : Via) (at_ : Nat) (s : State) : Host.Outcome State Fault Refusal :=
  .next ((s.tick at_).command via .TW_CMD 0 [] (word 0x103) (fun s => s.twRun 3))

/-- FULL_REJOIN (03 R129). -/
def execFullRejoin (via : Via) (at_ : Nat) (s : State) : Host.Outcome State Fault Refusal :=
  .next ((s.tick at_).command via .TW_CMD 0 [] (word 0x104) (fun s => s.twRun 4))

/-- TW_MISS_STAT_READ (03 R128). -/
def execTwMissStatRead (via : Via) (w : AccW) (s : State) : Host.Outcome State Fault Refusal :=
  .next (s.readCounters via .TW_MISS_STAT 0 w [F.TW_MISS_STAT.MISSES_A, F.TW_MISS_STAT.MISSES_B])

end Sys2Proof.Machine
end

