-- ==== Sys2Proof/Machine/Links.lean ====
section
/-! DEFINITION. Link messages as they arrive (11 R321 to R326): transit, the claim gate and what it holds
(03 R107, R108), mirrored stores and their acknowledgement (02 R53, R54; 03 R109; 12 R352; 13 R376, R377),
forwarded and repair reads, rejoin copies and maps, handovers, time. The commands themselves stand in
Messages.lean, after the queues that a CTRL_REQ reaches. -/

namespace Sys2Proof.Machine

open Sys2Proof

/-! The claim gate (03 R107, R108). -/

/-- The bolts and claims that a gated message carries. -/
def gateClaims (h : Hdr) (p : Payload) : List (Nat × Nat) :=
  match p with
  | .handover l => l
  | _ => [(boltOfOff h.offset, h.claim)]

/-- Response that a refused gated request gets (11 R322); messages of class CTL get none. -/
def refuseWith (p : Payload) : Option Payload :=
  match p with
  | .mirrorWr _ _ => some .mirrorAck
  | .fwdRd _ => some (.fwdData 0#64 [])
  | .fwdWr _ _ => some .fwdCmp
  | .ctrlReq _ => some (.ctrlCmp [])
  | .repairRd _ => some (.repairData 0#64 [])
  | .rejoinCopy _ _ _ => some .rejoinAck
  | _ => none

/-- The message travels on a mirror stream, so its response returns on its port (11 R325). -/
def onStream (p : Payload) : Bool :=
  match p with | .mirrorWr _ _ | .repairRd _ | .rejoinCopy _ _ _ => true | _ => false

/-- The requester gets a status and no data, in the name of the device that it asked. -/
def State.refuse (s : State) (h : Hdr) (p : Payload) (status : Nat) : State :=
  match refuseWith p with
  | some r =>
    if h.dst = s.devId then s.reply h status (onStream p) r
    else
      let x := s.hdr h.src
      s.send { x with src := h.dst, status := status, tag := h.tag, source := h.source, offset := h.offset } r
  | none => s

/-- A gated message passes the gate or is refused. One above the local entry waits for the entry, which is
fetched from the sender; an update carries the entry itself (03 R107, R108). -/
def State.gate (s : State) (h : Hdr) (p : Payload) (act : State → State) : State :=
  let l := gateClaims h p
  if l.any (fun x => decide (x.2 < s.gateRecord x.1)) then (s.raise F.TW_STATUS.GATE_REFUSED).refuse h p 3
  else
    let s := l.foldl (fun s x => s.raiseGate x.1 x.2) s
    let update := match p with | .boltUpdate _ => true | _ => false
    let above := (l.filter (fun x => decide ((s.entry x.1).claim < x.2))).map Prod.fst
    if above.isEmpty || update then act s
    else
      let s := above.foldl State.learnStale s
      let g : GateHeld := { id := s.bay.nextId, hdr := h, body := p, since := s.now }
      let s := { s with bay := { s.bay with gateHeld := s.bay.gateHeld ++ [g], nextId := s.bay.nextId + 1 } }
      above.foldl (fun s b => s.send { s.hdr h.src with offset := b * 2 ^ 36 } .boltFetch) s

/-! Mirrored stores at the standby (02 R53 to R55; 12 R352; 13 R376). -/

/-- The source number of a mirror stream: the messages of one bolt on it are taken in order (02 R54, R79). -/
def streamSource : Nat := 2 ^ 34

/-- MIRROR_WR applied: refused with FENCED on the down path and with KEY_EMPTY while the tenant's key is not
LOADED, else applied in stream order and acknowledged. -/
def State.takeMirror (s : State) (h : Hdr) (be : Word) (data : LineData) : State :=
  let b := boltOfOff h.offset
  if 16 ≤ s.power.state then s.reply h 8 true .mirrorAck
  else if !s.keyLoaded (s.tenantOf b) then
    (s.raiseOff F.XT_STATUS.KEY_MISSING h.offset).reply h 10 true .mirrorAck
  else
    (s.submit streamSource (.mirror h.src h.port h.tag) (.write be data h.poison) h.offset (s.tenantOf b)).settle

/-- A span's bit in the split bitmap is due for a store that completes as LOCAL (03 R123). -/
def State.splitDue (s : State) (sp : Nat) : Bool := !s.lines.splitMap.contains sp && s.mirrored (boltOfSpan sp)

/-- The twin saves and refuses: the store completes as LOCAL, and SOLO is entered without a claim change
(13 R377). -/
def State.savedOff (s : State) (r : Req) (need wt : Bool) (tag : Nat) : State :=
  let sp := spanOfOff r.offset
  let s := if s.twin.st == .solo then s else (s.setSt .solo).dropPeerParts
  let s := { s with twin := { s.twin with saveSolo := true } }
  let due := s.splitDue sp
  let s := if due then s.startSpanWrite sp else s
  s.putReq { r with st := .storing (need || due) false wt tag }

/-- The stale device asks for the entry, and holds the store until it has it (02 Table 2.4; 03 R109). -/
def State.staleStore (s : State) (r : Req) : State :=
  let s := (s.learnStale (reqBolt r)).hold r .gate
  let s := s.send { s.hdr s.twinId with offset := reqBolt r * 2 ^ 36 } .boltFetch
  if s.paired then s.raise F.TW_STATUS.STALE_SELF else s.staleRejoin

/-- A copy of the span is due again, since a store beside it was not taken (DEDUCED, log entry 28). -/
def State.copyAgain (s : State) (sp : Nat) : State :=
  let b := boltOfSpan sp
  if s.filling b then
    let l := SMap.findD s.twin.fills b []
    { s with twin := { s.twin with fills := SMap.put s.twin.fills b (if l.contains sp then l else l ++ [sp]) } }
  else if s.twin.st == .feeding then
    { s with twin := { s.twin with copyList := insertSorted sp s.twin.copyList } }
  else s

/-- MIRROR_ACK (02 R53 step 7; Table 2.4; 03 R109, R114; 12 R352; 13 R377). While the device yields, no store
completes. -/
def State.takeAck (s : State) (h : Hdr) : State :=
  match s.twin.mirrorOut.find? (fun x => x.1 == h.tag) with
  | some x =>
    let s := { s with twin := { s.twin with mirrorOut := s.twin.mirrorOut.filter (fun y => y != x) } }
    let s := if h.status = 0 then s else s.copyAgain (spanOfOff h.offset)
    (s.flushStream x.2).checkFed
  | none =>
    match s.bay.reqs.find? (fun r => match r.st with | .storing _ true _ t => t == h.tag | _ => false) with
    | some r =>
      (match r.st with
       | .storing need _ wt tag =>
         let s :=
           if s.twin.fenced then s
           else if h.status = 3 then s.staleStore r
           else if h.status = 10 then s.putReq { r with st := .refused need wt tag }
           else if h.status = 8 then
             if s.twin.peer.any (fun f => f.flags.getLsbD 4) then s.savedOff r need wt tag
             else s.putReq { r with st := .refused need wt tag }
           else s.putReq { r with st := .storing need false wt tag }
         (s.flushStream (reqBolt r)).settle
       | _ => s)
    | none => s

/-- A refused store sent again (12 R352). -/
def State.resendMirror (s : State) (r : Req) (tag : Nat) : State :=
  match r.op with
  | .write be d poison =>
    let sp := spanOfOff r.offset
    let need := s.needsSpan sp
    let s := if need then s.startSpanWrite sp else s
    let wt := s.effGib == 0 && SMap.has s.lines.dirty (lineOfOff r.offset)
    (s.sendMirror r be d poison tag).putReq { r with st := .storing need true wt tag }
  | _ => s

/-! Forwarded and repair reads (01 R39, R426; 02 R79; 11 R322). -/

/-- The source number of a source of another device. -/
def remoteSource (dev : Nat) (source : BitVec 32) : Nat := (dev + 8) * 2 ^ 32 + source.toNat

/-- FWD_RD or REPAIR_RD: each line is read in the order of its source or stream, and the answer carries them
all. A FWD_RD of more than one line fetches lines of a tile, which allocate nothing here (04 R148; DEDUCED, log entry 111). -/
def State.takeRead (s : State) (h : Hdr) (lines : Nat) (repair : Bool) : State :=
  let l := lineOfOff h.offset
  let f : FwdIn := {
    dev := h.src, port := h.port, tag := h.tag, repair := repair, first := l, lines := lines, got := [], code := 0 }
  let s := { s with bay := { s.bay with fwdIn := s.bay.fwdIn ++ [f] } }
  let t := s.tenantOf (boltOfOff h.offset)
  let op : ReqOp := if 1 < lines then .peek h.urgent else .read
  let s := if repair || lines ≤ 1 then s else s.heatLines ((List.range lines).map (fun k => l + k))
  ((List.range lines).foldl (fun s k =>
    if repair then s.submit streamSource (.mirror h.src h.port h.tag) .read ((l + k) * 64) t
    else s.submit (remoteSource h.src h.source) (.remote h.src h.port h.tag h.source) op ((l + k) * 64) t) s).settle

/-- FWD_WR: a store of another device's source. -/
def State.takeWrite (s : State) (h : Hdr) (be : Word) (data : LineData) : State :=
  (s.submit (remoteSource h.src h.source) (.remote h.src h.port h.tag h.source) (.write be data h.poison) h.offset
    (s.tenantOf (boltOfOff h.offset))).settle

/-- The forwarded request that a response answers; one that comes from an old target is discarded (01 R426). -/
def State.forwardedReq (s : State) (h : Hdr) : Option Req :=
  s.bay.reqs.find? (fun r => match r.st with | .forwarded dev _ t _ => dev == h.src && t == h.tag | _ => false)

/-- A draining path whose requests have all been answered, or sent elsewhere (01 R41), is noticed by
ROUTE_DRAIN_DONE. A refused forward waits for the current entry, which is fetched (01 R426; 03 R108). -/
def State.staleForward (s : State) (r : Req) (src : Nat) : State :=
  (s.hold r .gate).send { s.hdr src with offset := reqBolt r * 2 ^ 36 } .boltFetch

/-- FWD_DATA (11 R322). -/
def State.takeData (s : State) (h : Hdr) (pmap : Word) (lines : List LineData) : State :=
  match s.forwardedReq h with
  | some r =>
    (if h.status = 3 then s.staleForward r h.src
     else if s.twin.st == .isolated && (s.stopsAt (reqBolt r)).isSome then s.hold r .isolated
     -- the lines of a tile come in with TILE_RESIDENT
     else if reqTile r && (h.status == 0 || h.status == 1) then s
     else
       let (c, s) := s.namedCode h.status
       s.finish r (if c = 1 then 0 else c) (lines.headD 0#512) (pmap.getLsbD 0 || (c != 0 && c != 1))).settle
  | none => s

/-- FWD_CMP (11 R322). -/
def State.takeCmp (s : State) (h : Hdr) : State :=
  match s.forwardedReq h with
  | some r =>
    (if h.status = 3 then s.staleForward r h.src
     else if s.twin.st == .isolated && (s.stopsAt (reqBolt r)).isSome then s.hold r .isolated
     else
       let (c, s) := s.namedCode h.status
       s.finish r c 0#512 false).settle
  | none => s

/-- REPAIR_DATA (02 R76, R78, R81; 08 R256): the line of a read repair, of a frame being built, or the frame of a
heal. -/
def State.takeRepairData (s : State) (h : Hdr) (pmap : Word) (lines : List LineData) : State :=
  let ok := (h.status == 0 || h.status == 1) && !lines.isEmpty
  let good := ok && !pmap.getLsbD 0
  let s := s.flushStream (boltOfOff h.offset)
  match s.lines.copyBack.find? (fun x => x.1 == h.tag) with
  | some x =>
    (if ok then ({ s with lines := { s.lines with copyBack := s.lines.copyBack.filter (fun y => y != x) } }).takeBack x.2 pmap lines
      else s.loseBack [x]).settle
  | none =>
  match s.lines.rmwRepair.find? (fun x => x.1 == h.tag) with
  | some x =>
    let s := { s with lines := { s.lines with rmwRepair := s.lines.rmwRepair.filter (fun y => y != x) } }
    (s.takeRmw x.2 (lines.headD 0#512) good).settle
  | none =>
    match s.stripe.heals.find? (fun x => x.1 == h.tag) with
    | some x =>
      let s := { s with stripe := { s.stripe with heals := s.stripe.heals.filter (fun y => y != x) } }
      (if ok then s.takeHeal x.2 pmap lines else s.lossFrames [x.2]).settle
    | none =>
      match s.bay.reqs.find? (fun r => match r.st with | .repairing t _ => t == h.tag | _ => false) with
      | some r =>
        let l := lineOfOff r.offset
        let src := match r.st with | .repairing _ x => x | _ => 2
        (if good then s.takeRepair l (lines.headD 0#512) else s.poisonRead l src).settle
      | none => s

/-! Entries (01 R23, R24; 03 R108, R109). -/

/-- The entry update tells this device that it is no longer active for a bolt that it has not itself handed
over (03 R109). -/
def State.staleNews (s : State) (b : Nat) (e : BoltEntry) : Bool :=
  s.bound b && entryActive (s.entry b) == s.devId && e.valid && e.pairId == s.pairId && entryActive e == s.twinId && e.durability == 0
    && !(match s.twin.group with | some g => g.active && g.step == 4 && g.bolts.contains b | none => false)

/-- The READ_ENTRYs of a bad entry end, this device's own and those of others (01 R23, R49). -/
def State.endReads (s : State) (b : Nat) (e : CmdEnd) : State :=
  let l := s.bay.entryReads.filter (fun x => x.1 == b)
  let s := { s with bay := { s.bay with entryReads := s.bay.entryReads.filter (fun x => x.1 != b) } }
  let s := l.foldl (fun s x => s.reply x.2 e.code false (.ctrlCmp e.res)) s
  match s.bay.blBusy with
  | some c => if c.op = 4 ∧ c.tag = none ∧ bitsOf c.a0 0 20 = b then s.endBl 4 e else s
  | none => s

/-- An update with a good CRC and a higher (CLAIM, SEQ), or for an entry that is bad here, is applied. One that
fails its CRC brings nothing; where it was the last answer waited for, a READ_ENTRY ends with MEDIA_LOST
(01 R23, R24). -/
def State.takeEntry (s : State) (h : Hdr) (e : BoltEntry) : State :=
  let b := boltOfOff h.offset
  let s := s.checkEntry b
  let bad := s.bay.crcBad.contains b
  if entryCrc e = e.crc then
    if bad || entryNewer e (s.entry b) then
      let stale := s.staleNews b e
      let s := s.applyEntry b e
      let s := if stale then (if s.paired then s.raise F.TW_STATUS.STALE_SELF
                              else if s.twin.st == .rejoining then s.raise F.TW_STATUS.STALE_SELF
                              else s.staleRejoin) else s
      if bad then s.endReads b { code := 0, res := entryWords (s.entry b) } else s
    -- the entry held is the current one: what waits for it is looked at again
    else { s with bay := { s.bay with staleBolts := removeNum b s.bay.staleBolts } }.retryHeld
  else if bad then
    let wait := removeNum h.src (SMap.findD s.bay.fetches b [])
    if !wait.isEmpty then { s with bay := { s.bay with fetches := SMap.put s.bay.fetches b wait } }
    else if h.src = s.twinId ∧ (s.reachable.filter (fun d => d != s.twinId)) ≠ [] then
      s.fetchAll b (s.reachable.filter (fun d => d != s.twinId))
    else
      { s with bay := { s.bay with fetches := SMap.del s.bay.fetches b } }.endReads b (.of 6)
  else s

/-! Handover (03 Table 3.7). -/

/-- HANDOVER at the standby: the claim C goes to eNVM with cause rotation (step 5). -/
def State.takeHandover (s : State) (l : List (Nat × Nat)) : State :=
  if s.twin.st != .paired || s.twin.taking.isSome || s.image.change.any (fun c => decide (2 ≤ c.step) && decide (c.step ≤ 8)) then s
  else
    let t : Taking := {
      claim := s.newClaim, rotation := true, bolts := l.map Prod.fst, trigger := 0, poisonList := false }
    { s with twin := { s.twin with taking := some t } }

/-- HANDOVER_ACK at the old active: the group is through and the next one follows (steps 6, 7). -/
def State.takeHandoverAck (s : State) (l : List (Nat × Nat)) : State :=
  match s.twin.group with
  | some g =>
    if g.active && g.step == 4 && g.bolts == l.map Prod.fst then
      let s := { s with twin := { s.twin with
        group := none, moved := satAdd 32 s.twin.moved l.length,
        maxHold := max s.twin.maxHold (s.now - g.hold) } }
      (s.retryHeld.nextGroup 2).settle
    else s
  | none => s

/-- HANDOVER_REQ at the odd device: it hands over the bolts named for which it is active (step 1). -/
def State.takeHandoverReq (s : State) (l : List (Nat × Nat)) : State :=
  if s.twin.st != .paired || s.twin.group.isSome then s
  else
    let b := (l.map Prod.fst).filter s.isActive
    if b.isEmpty then s else s.beginHandover b false

/-! Rejoin and fill (02 R425; 03 R124 to R127). -/

/-- The returner is through with a span: it leaves the copy list and the split bitmap (03 R125). -/
def State.spanCopied (s : State) (sp : Nat) : State :=
  { s with
    twin := { s.twin with copyList := removeNum sp s.twin.copyList },
    lines := { s.lines with splitMap := removeNum sp s.lines.splitMap } }

/-- A copy on the stream moves on from the span before. -/
def State.copyMoves (s : State) (sp : Nat) : State :=
  let s := match s.twin.copyCur with
    | some c => if c = sp then s else s.spanCopied c
    | none => s
  { s with twin := { s.twin with copyCur := some sp } }

/-- REJOIN_COPY at the returner, or at the standby of a bolt that is filled. The acknowledgement waits for the
span's bit (02 R57). -/
def State.takeCopy (s : State) (h : Hdr) (empty : Bool) (pmap : Word) (lines : List LineData) : State :=
  let f := frameOfOff h.offset
  let sp := spanOfFrame f
  let b := boltOfFrame f
  let s := s.copyMoves sp
  let s := if empty then s.releaseSpan sp
    else lines.zipIdx.foldl (fun s x => s.copyLine (f * 64 + x.2) x.1 (pmap.getLsbD x.2)) (s.noteWritten f)
  let need := !empty && s.needsSpan sp
  let s := if need then
      { s.startSpanWrite sp with twin := { s.twin with copyAcks := s.twin.copyAcks ++ [(sp, h)] } }
    else s.reply h 0 true .rejoinAck
  let s := if h.last then
      let s := { s.spanCopied sp with twin := { (s.spanCopied sp).twin with copyCur := none } }
      if s.filling b then { s with twin := { s.twin with fills := SMap.del s.twin.fills b } } else s
    else s
  let s := if s.twin.st == .rejoining && s.twin.copyBuilt && s.twin.copyList.isEmpty && h.last then
      s.enterPaired true else s
  s.retryHeld.settle

/-- The fill of a bolt goes on with its next span, or ends (02 R425). -/
def State.fillNext (s : State) (b sp : Nat) : State :=
  let l := removeNum sp (SMap.findD s.twin.fills b [])
  match l with
  | [] =>
    let s := { s with twin := { s.twin with fills := SMap.del s.twin.fills b } }
    (s.raise F.TW_STATUS.REJOIN_DONE).health 6 1
  | n :: t => { s with twin := { s.twin with fills := SMap.put s.twin.fills b l } }.sendCopySpan n t.isEmpty

/-- The rejoin goes on with the next span of the copy list, or ends (03 R125, R127). -/
def State.feedNext (s : State) (sp : Nat) : State :=
  let s := s.spanCopied sp
  match s.twin.copyList with
  | [] => s.checkFed
  | n :: t => s.sendCopySpan n t.isEmpty

/-- REJOIN_ACK at the survivor or at the active owner of a fill (03 R125). -/
def State.takeCopyAck (s : State) (h : Hdr) : State :=
  match s.twin.copyOut.find? (fun x => x.1 == h.tag) with
  | some x =>
    let sp := spanOfFrame x.2
    let b := boltOfSpan sp
    let s := { s with twin := { s.twin with copyOut := s.twin.copyOut.filter (fun y => y != x) } }
    let s := s.flushStream b
    if s.twin.copyOut.any (fun y => spanOfFrame y.2 == sp) then s
    else if s.twin.st == .feeding then (s.feedNext sp).settle
    else if s.filling b then (s.fillNext b sp).settle
    else s
  | none => s

/-- MAP_XFER (03 R124). A split bitmap with another status than DONE asks for a full copy: the returner cannot read it, or has been
told to (03 R129; the status is the model's own, log entry 95). -/
def State.takeMap (s : State) (h : Hdr) (kind : MapKind) (l : List Nat) : State :=
  let s := if kind = .split ∧ h.status ≠ 0 ∧ s.twin.full = false ∧ s.twin.copyBuilt = false then
      ({ s with twin := { s.twin with full := true } }).raise F.TW_STATUS.FULL_COPY
    else s
  match kind with
  | .copyList =>
    if s.twin.st == .rejoining then
      let s := { s with twin := { s.twin with copyList := nub l, copyBuilt := true } }
      if l.isEmpty then (s.enterPaired true).settle else s
    else s
  | .held =>
    ({ s with twin := { s.twin with peerHeld := l, mapsIn := s.twin.mapsIn ++ [MapKind.held] } }).buildCopyList
  | k =>
    ({ s with twin := { s.twin with
      peerSpans := l.foldl (fun acc sp => insertSorted sp acc) s.twin.peerSpans,
      mapsIn := s.twin.mapsIn ++ [k] } }).buildCopyList

/-! Commands of the links that pass no gate. -/

/-- MIRROR_ACK. -/
def execMirrorAck (h : Hdr) (at_ : Nat) (s : State) : Host.Outcome State Fault Refusal :=
  .next ((s.tick at_).receive h .mirrorAck (fun s => s.takeAck h))

/-- MIRROR_WR_RESEND (12 R352). -/
def execMirrorWrResend (id at_ : Nat) (s : State) : Host.Outcome State Fault Refusal :=
  let s := s.tick at_
  .next (match s.req id with
    | some r => (match r.st with | .refused _ _ tag => (s.resendMirror r tag).settle | _ => s)
    | none => s)

/-- FWD_DATA. -/
def execFwdData (h : Hdr) (pmap : Word) (lines : List LineData) (at_ : Nat) (s : State) :
    Host.Outcome State Fault Refusal :=
  .next ((s.tick at_).receive h (.fwdData pmap lines) (fun s => s.takeData h pmap lines))

/-- FWD_CMP. -/
def execFwdCmp (h : Hdr) (at_ : Nat) (s : State) : Host.Outcome State Fault Refusal :=
  .next ((s.tick at_).receive h .fwdCmp (fun s => s.takeCmp h))

/-- REPAIR_DATA. -/
def execRepairData (h : Hdr) (pmap : Word) (lines : List LineData) (at_ : Nat) (s : State) :
    Host.Outcome State Fault Refusal :=
  .next ((s.tick at_).receive h (.repairData pmap lines) (fun s => s.takeRepairData h pmap lines))

/-- BOLT_FETCH (01 R23; 03 R108): answered with the entry held here. -/
def execBoltFetch (h : Hdr) (s : State) : Host.Outcome State Fault Refusal :=
  .next (s.receive h .boltFetch (fun s =>
    let s := s.checkEntry (boltOfOff h.offset)
    let e := s.entry (boltOfOff h.offset)
    let r := s.hdr h.src
    s.send { r with tag := h.tag, offset := h.offset, claim := e.claim } (.boltUpdate e)))

/-- HANDOVER_ACK. -/
def State.onHandoverAck (h : Hdr) (l : List (Nat × Nat)) (at_ : Nat) (s : State) : State :=
  (s.tick at_).receive h (.handoverAck l) (fun s => s.takeHandoverAck l)

/-- HANDOVER_REQ. -/
def execHandoverReq (h : Hdr) (l : List (Nat × Nat)) (at_ : Nat) (s : State) : Host.Outcome State Fault Refusal :=
  .next ((s.tick at_).receive h (.handoverReq l) (fun s => s.takeHandoverReq l))

/-- REJOIN_ACK. -/
def execRejoinAck (h : Hdr) (at_ : Nat) (s : State) : Host.Outcome State Fault Refusal :=
  .next ((s.tick at_).receive h .rejoinAck (fun s => s.takeCopyAck h))

/-- MAP_XFER. -/
def execMapXfer (h : Hdr) (kind : MapKind) (l : List Nat) (at_ : Nat) (s : State) : Host.Outcome State Fault Refusal :=
  .next ((s.tick at_).receive h (.mapXfer kind l) (fun s => s.takeMap h kind l))

/-- UNKNOWN_MESSAGE (11 R322): dropped and counted. -/
def execUnknownMessage (h : Hdr) (_ty : Nat) (s : State) : Host.Outcome State Fault Refusal :=
  .next (if s.linkServes h then s.bump F.PT_ERR_STAT.REPLAYS h.port 1 else s)

/-- HOP_EXPIRY (11 R324): the last hop is spent at a device that is not the destination. -/
def execHopExpiry (h : Hdr) (p : Payload) (s : State) : Host.Outcome State Fault Refusal :=
  .next (if s.linkServes h && h.dst != s.devId then s.sendThrough { h with hops := 1 } p else s)

/-- BAY_STATE (11 R322): the count and the health flags of another device. -/
def execBayState (h : Hdr) (dirtyCount : Nat) (health : Word) (s : State) : Host.Outcome State Fault Refusal :=
  .next (s.receive h (.bayState dirtyCount health) (fun s =>
    { s with bay := { s.bay with peers := SMap.put s.bay.peers h.src (Peer.mk true dirtyCount health) } }))

/-! Time (11 R326). -/

/-- The time root: the lowest DEVICE_ID that this device reaches, or itself. -/
def State.timeRoot (s : State) : Nat := s.reachable.foldl min s.devId

/-- The offset that a TIME_SYNC answer gives at its arrival. -/
def syncOffset (t1 t2 t3 t4 : Nat) : Int := (((t2 : Int) - t1) - ((t4 : Int) - t3)) / 2

/-- An answer sets DT once in state 13; after that DT is slewed, which the stamps of the inputs show (log entry
29), and an offset beyond 1 µs in service is flagged. -/
def State.takeOffset (s : State) (o : Int) : State :=
  let s := s.put F.TM_SYNC.OFFSET_NS (o % 2 ^ 32).toNat
  if s.power.state = 13 ∧ s.time.dtSet = false then
    ({ s with time := { s.time with dt := ((s.time.dt : Int) + o).toNat, dtSet := true } }).put F.TM_SYNC.SET 1
  else
    let (n, s) := s.nextFree
    let s := s.put F.TM_SYNC.SLEW (((((Config.slew n).toNat % 20001 : Nat) : Int) - 10000) % 2 ^ 16).toNat
    if s.inService && decide (1000 < o.natAbs) then s.raise F.PT_DEV_STATUS.TIME_OFFSET
    else s

/-- The time root shown; a new one is flagged (11 R326; 15 Table 15.5). -/
def State.showRoot (s : State) : State :=
  let root := s.timeRoot
  let s := if s.get F.TM_SYNC.ROOT_ID = root then s
    else (s.put F.TM_SYNC.ROOT_ID root).raise F.TM_STATUS.ROOT_CHANGE
  s.put F.TM_SYNC.IS_ROOT (bit (root == s.devId))

/-- TIME_SYNC: a request is answered with its stamps, an answer gives an offset. -/
def execTimeSync (h : Hdr) (t1 t2 t3 : Nat) (answer : Bool) (at_ : Nat) (s : State) :
    Host.Outcome State Fault Refusal :=
  .next ((s.tick at_).receive h (.timeSync t1 t2 t3 answer) (fun s =>
    if answer then
      if s.time.syncSent = some t1 then
        { s with time := { s.time with syncSent := none } }.takeOffset (syncOffset t1 t2 t3 s.now)
      else s
    else s.send (s.hdr h.src) (.timeSync t1 s.now s.now true)))

/-- TIME_SYNC_TIMER: every 1 ms a device that is not the root asks the neighbour on its primary route to the
root. -/
def execTimeSyncTimer (at_ : Nat) (s : State) : Host.Outcome State Fault Refusal :=
  let s := (s.tick at_).showRoot
  let root := s.timeRoot
  let p := s.getF F.BL_ROUTE.PRIMARY_PORT root
  .next (if root ≠ s.devId ∧ p < 96 ∧ s.portUp p = true then
      let s := { s with time := { s.time with syncSent := some s.now } }
      s.sendOn p { s.hdr (s.getF F.PT_PEER.PEER_DEVICE p) with hops := 1 } (.timeSync s.now 0 0 false)
    else s)

end Sys2Proof.Machine
end

