-- ==== Sys2Proof/Machine/Crown.lean ====
section
/-! DEFINITION. The decode of a DRAM burst and what an error leaves behind (06 R169 to R173, R191), the end of a
Crown fill (05 R156, R161; 02 R78; 12 Table 12.11), way power-down (05 R163 to R165) and the Crown's
registers. -/

namespace Sys2Proof.Machine

open Sys2Proof

/-! The code (06 R169 to R172). -/

/-- What the decoder makes of a burst (06 Table 6.3). -/
inductive Decoded where
  | good | poisoned | corrected | poisonedCorrected | uncorrectable
  deriving DecidableEq, Repr

/-- The wrong symbols lie in one nibble DQ[3:0] or DQ[7:4] of one x8 component. Symbol 2k + h of a component is
half h of its lane DQ[k] (DESIGN CHOICE, log entry 31). -/
def oneNibble (errs : List (Nat × Nat)) : Bool :=
  match errs with
  | [] => true
  | e :: _ => errs.all (fun x => x.1 == e.1 && x.2 / 8 == e.2 / 8)

/-- The errors are of those that Table 6.2 corrects, with a component marked or not. -/
def correctable (x8 : Bool) (mark : Option Nat) (errs : List (Nat × Nat)) : Bool :=
  match mark with
  | none => if x8 then oneNibble errs else (nub (errs.map Prod.fst)).length ≤ 1
  | some m =>
    let rest := errs.filter (fun e => e.1 != m)
    if x8 then rest.isEmpty
    else (nub (rest.map Prod.fst)).length ≤ 1 && (nub (rest.map Prod.snd)).length ≤ 4

/-- The decode order of Table 6.3. -/
def decodeBurst (x8 : Bool) (mark : Option Nat) (b : Burst) : Decoded :=
  if b.errs.isEmpty then (if b.poisonPat then .poisoned else .good)
  else if correctable x8 mark b.errs then (if b.poisonPat then .poisonedCorrected else .corrected)
  else .uncorrectable

/-- The component marked in a subchannel (06 Table 6.15). -/
def State.markOf (s : State) (ch sub : Nat) : Option Nat :=
  if sub = 0 then (if s.isSet F.DC_MARK.VALID_A ch then some (s.getF F.DC_MARK.COMP_A ch) else none)
  else (if s.isSet F.DC_MARK.VALID_B ch then some (s.getF F.DC_MARK.COMP_B ch) else none)

/-- The rank number of a place: the physical rank above the 3DS rank bits. -/
def State.rankOf (s : State) (prank lrank : Nat) : Nat :=
  match s.dram.build with
  | some b => prank * 2 ^ b.stack + lrank
  | none => 0

/-- Bank and row of a place. -/
def State.rowAt (s : State) (loc : DramLoc) : Nat × Nat :=
  (bankKey loc.ch loc.sub (s.rankOf loc.prank loc.lrank) loc.bg loc.ba, loc.row)

/-- Location of a row in the field order of DC_ERR_LOG (14 R397; 06 Table 6.14). -/
def State.rowLoc (s : State) (r : Nat × Nat) : Nat :=
  let k := r.1 % 1024
  let stack := match s.dram.build with | some b => b.stack | none => 0
  let rk := k / 32 % 16
  k / 512 + rk / 2 ^ stack % 2 * 2 + rk % 2 ^ stack % 4 * 4 + k / 4 % 8 * 16 + k % 4 * 128 + r.2 % 2 ^ 18 * 512

/-- The row that such a location names. -/
def State.rowOfLoc (s : State) (ch loc : Nat) : Nat × Nat :=
  s.rowAt { ch := ch, sub := loc % 2, prank := loc / 2 % 2, lrank := loc / 4 % 4, bg := loc / 16 % 8, ba := loc / 128 % 4,
            row := loc / 512 % 2 ^ 18, cb := 0 }

/-- A row becomes a repair candidate (06 R191). Its dirty lines are taken for destage first (06 R192). -/
def State.addCandidate (s : State) (r : Nat × Nat) : State :=
  if s.dram.candidates.contains r || s.dram.retired.contains r then s
  else
    let s := { s with dram := { s.dram with candidates := s.dram.candidates ++ [r] } }
    let fs := (s.dram.dframes.filter (fun x =>
      (List.range 64).any (fun k => bankRow s.pieces (x.2.block * 64 + k) == r))).map Prod.fst
    let dirty := fs.filter (fun f => s.dirtyMask f != 0#64)
    { s with lines := { s.lines with destageQ := dirty.foldl (fun acc f => insertSorted f acc) s.lines.destageQ } }

/-- Something seen in a window of `len` ns that its first sighting opens (00 R12; log entry 30): the window with
it, and the number of distinct things in it. -/
def seeIn (w : Option Window) (now len x : Nat) : Window × Nat :=
  let w : Window := match w with
    | some w => if now < w.start + len then w else { start := now, seen := [] }
    | none => { start := now, seen := [] }
  let l := if w.seen.contains x then w.seen else w.seen ++ [x]
  ({ w with seen := l }, l.length)

/-- A component marked by hardware: DC_MARK, the flag, the health log (06 R173; 14 R397). -/
def State.markComponent (s : State) (ch sub comp : Nat) : State :=
  let s := if sub = 0 then (s.setF F.DC_MARK.COMP_A ch comp).setF F.DC_MARK.VALID_A ch 1
    else (s.setF F.DC_MARK.COMP_B ch comp).setF F.DC_MARK.VALID_B ch 1
  ((s.raiseAt F.DC_STATUS.MARKED ch).health 11 1).healthList 1 ch (sub % 2 + comp % 16 * 2 ^ 34)

/-- A corrected error counted towards a mark (06 R173): the component that failed, outside a mark. -/
def State.countMark (s : State) (loc : DramLoc) (comp line : Nat) : State :=
  if (s.markOf loc.ch loc.sub).isSome then s
  else
    let k := (loc.ch * 2 + loc.sub) * 16 + comp
    let (w, n) := seeIn (SMap.find s.dram.markWin k) s.now 1000000000 line
    let s := { s with dram := { s.dram with markWin := SMap.put s.dram.markWin k w } }
    if max 1 (s.getF F.DC_MARK.THRESH loc.ch) ≤ n then s.markComponent loc.ch loc.sub comp else s

/-- A corrected line counted towards the repair of its row (06 R191). -/
def State.countRow (s : State) (loc : DramLoc) (line : Nat) : State :=
  let r := s.rowAt loc
  let k := r.1 * 2 ^ 18 + r.2
  let (w, n) := seeIn (SMap.find s.dram.rowWin k) s.now 86400000000000 line
  let s := { s with dram := { s.dram with rowWin := SMap.put s.dram.rowWin k w } }
  if 4 ≤ n then s.addCandidate r else s

/-- DC_ERR_LOG of an error (06 Table 6.14). -/
def State.logDram (s : State) (loc : DramLoc) (comp kind source : Nat) : State :=
  s.setReg .DC_ERR_LOG loc.ch (word (loc.sub % 2 + loc.prank % 2 * 2 + loc.lrank % 4 * 4 + loc.bg % 8 * 16
    + loc.ba % 4 * 128 + loc.row % 2 ^ 18 * 512 + loc.cb % 128 * 2 ^ 27 + comp % 16 * 2 ^ 34
    + kind % 4 * 2 ^ 38 + source % 4 * 2 ^ 40))

/-- The bank and row that a line of tier D lies in (06 R175). -/
def State.lineBank (s : State) (l : Nat) : Nat × Nat :=
  match SMap.find s.dram.dframes (frameOfLine l) with
  | some d => bankRow s.pieces (d.block * 64 + l % 64)
  | none => (0, 0)

/-- A read of a row: a hit of the open row counts where it passes an older request of the bank for another row; else the row is
activated, and the subchannel's pointer moves to the bank after it (06 R182, R183). -/
def State.useRow (s : State) (sub : Nat) (r : Nat × Nat) : State :=
  let b := SMap.findD s.dram.banks r.1 {}
  if b.row = some r.2 then
    let passes := (SMap.findD s.dram.dq sub []).any (fun x => (s.lineBank x.line).1 == r.1 && (s.lineBank x.line).2 != r.2)
    if passes then { s with dram := { s.dram with banks := SMap.put s.dram.banks r.1 { b with streak := b.streak + 1 } } } else s
  else
    { s with dram := { s.dram with
        banks := SMap.put s.dram.banks r.1 { row := some r.2, streak := 0 }, ptr := SMap.put s.dram.ptr sub ((r.1 + 1) % 512) } }

/-- Symbols of one component, and components of a burst, x8 or x4 (06 R169). -/
def compSymbols (x8 : Bool) : Nat := if x8 then 16 else 8
def burstComps (x8 : Bool) : Nat := if x8 then 5 else 10

/-- The wrong symbols of a burst that lie in its code word (06 R169). -/
def burstErrs (x8 : Bool) (b : Burst) : Burst :=
  { b with errs := b.errs.filter (fun e => decide (e.1 < burstComps x8) && decide (e.2 < compSymbols x8)) }

/-- One burst read and decoded, with its counts, its log and what they lead to. `source` is that of Table 6.14:
0 = request, 1 = Trowel, 2 = merge read. -/
def State.readBurst (s : State) (loc : DramLoc) (b : Burst) (source : Nat) : State × Decoded :=
  let s := s.useRow (loc.ch * 2 + loc.sub) (s.rowAt loc)
  let mark := s.markOf loc.ch loc.sub
  let x8 := s.isSet F.DC_CFG.WIDTH loc.ch
  let b := burstErrs x8 b
  let d := decodeBurst x8 mark b
  let line := (s.rowAt loc).1 * 2 ^ 25 + loc.row * 2 ^ 7 + loc.cb
  -- the component outside the mark, if errors lie there
  let out := (b.errs.filter (fun e => some e.1 != mark)).map Prod.fst
  let comp := match out with | c :: _ => c | [] => mark.getD 15
  let fixed (s : State) (kind : Nat) : State :=
    let s := (s.bump F.DC_ERR_STAT.CORRECTED loc.ch 1).logDram loc comp kind source
    let s := s.raiseArg F.DC_STATUS.CORRECTED loc.ch (.log .DC_ERR_LOG loc.ch)
    match out with
    | c :: _ => (s.countMark loc c line).countRow loc line
    | [] => s
  match d with
  | .good => (s, d)
  | .poisoned => (s, d)
  | .corrected => (fixed s 0, d)
  | .poisonedCorrected => (fixed s 2, d)
  | .uncorrectable =>
    let s := (s.bump F.DC_ERR_STAT.UNCORRECTABLE loc.ch 1).logDram loc 15 1 source
    let s := s.raiseArg F.DC_STATUS.UNCORR loc.ch (.log .DC_ERR_LOG loc.ch)
    (if mark.isNone then s.addCandidate (s.rowAt loc) else s, d)

/-! Lines that cannot be read (06 R171; 02 R78, R81). -/

/-- The Crown holds the whole line, newer than what lies below it. -/
def State.newerInCrown (s : State) (l : Nat) : Bool :=
  (match s.cellAt l with | some (_, c) => c.dirty | none => false) && !SMap.has s.lines.mask l

/-- A line of tier D whose loss cannot be made good from below: dirty there, or of a VOLATILE frame, and not held whole and newer
in the Crown. -/
def State.onlyHere (s : State) (l : Nat) : Bool :=
  let f := frameOfLine l
  (s.tier.volFrames.contains f ||
    (match SMap.find s.dram.dframes f with | some d => d.dirty.getLsbD (l % 64) | none => false)) && !s.newerInCrown l

/-- The tier of a line below tier D, as a poison source: 2 = tier P, 3 = tier F (02 Table 2.16). -/
def State.lineTier (s : State) (l : Nat) : Nat :=
  match s.span (spanOfLine l) with
  | some r => if r.home == .f then 3 else 2
  | none => 2

/-- The frame of a line cannot be rebuilt because a function that holds a unit of its row is stopped
(07 R203; 08 R249, R250). -/
def State.unitStopped (s : State) (l : Nat) : Bool :=
  if s.lineTier l = 3 then s.get F.IS_FUNC_STOPPED.FLASH_GROUP != 0
  else match SMap.find s.tier.pmap (frameOfLine l) with
    | some (g, _) => s.groupDeferred g
    | none => false

/-- The twin's copy of a frame comes before its reconstruction: its unit is missing with no substitute, and the parity of its row
is not resynchronised or is on the suspect list (08 R247, R248). -/
def State.twinFirst (s : State) (f : Nat) : Bool :=
  match SMap.find s.tier.pmap f with
  | none => false
  | some (g, slot) =>
    let row := s.rowOf slot
    match s.moduleAt g (dataPos s.pWidth row (slot % max 1 (s.pWidth - 2))) with
    | none => false
    | some m =>
      let gone := match SMap.find s.stripe.members m with
        | some x => (x.st == .lost || x.st == .rebuilding || x.st == .copyBack)
            && !s.stripe.subst.any (fun e => e.1 == m && e.2.1 == row)
        | none => false
      let stale := (s.stripe.resyncFull && decide (s.stripe.resyncAt ≤ row)) || s.stripe.suspect.contains (g, row)
      gone && stale && s.hasTwinCopy (spanOfFrame f) && s.twinReached

/-! The end of a fill. -/

/-- The fill brings the line: its mask is full, and the reads that wait are served. -/
def State.goodFill (s : State) (l : Nat) : State :=
  let w := s.fillWaiters l
  let s := { s with lines := { s.lines with mask := SMap.del s.lines.mask l } }
  w.foldl State.finishRead ((s.endFill l).keepD l)

/-- A clean line leaves the Crown without a write. -/
def State.dropClean (s : State) (l : Nat) : State :=
  match s.cellAt l with
  | some (_, c) => if c.dirty then s else s.dropCrown l
  | none => s

/-- A frame whose tenant has no key here reads as zeros; a queue operation ends with KEY_EMPTY. The Crown does not
keep them (12 Table 12.11). -/
def State.zeroFill (s : State) (l : Nat) : State :=
  let w := s.fillWaiters l
  let s := (s.endFill l).dropClean l
  let s := s.bump F.XT_COUNT.KEY_EMPTY_READS 0 1
  w.foldl (fun s r =>
    let code := match r.who with | .queue _ _ | .engine _ _ | .part _ => 10 | _ => 0
    s.finish r code 0#512 false) s

/-- A frame that cannot be read: FENCED while a function that holds part of its row is stopped, else repaired or
poisoned (07 R203; 08 R250; 02 R78). -/
def State.badFrame (s : State) (l : Nat) : State :=
  if s.unitStopped l then
    let w := s.fillWaiters l
    let s := ((s.endFill l).dropClean l).raise F.ST_STATUS.FENCED_READ
    w.foldl (fun s r => s.fail r 8) s
  else s.startRepair l (s.lineTier l)

/-- The fill of a line from a frame of tier P or F. -/
def State.frameFill (s : State) (l : Nat) (ok : Bool) : State :=
  let t := s.tenantOf (boltOfLine l)
  if !s.written (frameOfLine l) || s.volatile (boltOfLine l) then s.goodFill l
  else if s.keyGone t then s.zeroFill l
  else if ok && s.keyLoaded t && !s.twinFirst (frameOfLine l) then s.goodFill l
  else s.badFrame l

/-- A burst that decodes as poison marks its line (06 R172, Table 6.3). -/
def State.markDecoded (s : State) (l : Nat) (d : Decoded) : State :=
  if d = .poisoned ∨ d = .poisonedCorrected then s.markPoison l else s

/-- A line that is bad in tier D and good below is fetched from below: its copy in tier D goes, and the read of its frame starts
(06 R171; 07 R202). -/
def State.readBelow (s : State) (l : Nat) : State := (s.dropTierD l).flashRead l

/-- The fill of a line from tier D: from the write that is held of it (06 R184), else from the burst read. A clean line that is bad
there is fetched again from below. -/
def State.tierDFill (s : State) (l : Nat) (loc : DramLoc) (b : Burst) : State :=
  if s.writeHeld l then (s.touchD (frameOfLine l)).goodFill l
  else
  let (s, d) := s.readBurst loc b 0
  match d with
  | .uncorrectable => if s.onlyHere l then s.startRepair l 1 else s.readBelow l
  | _ => ((s.touchD (frameOfLine l)).markDecoded l d).goodFill l

/-- CROWN_FILL_DONE (05 R156, R161; 09 R273): the read behind a miss ends, with a result of the tier where the line lies,
or the frame read of a VERIFY. -/
def execCrownFillDone (line : Nat) (res : FillRes) (at_ : Nat) (s : State) : Host.Outcome State Fault Refusal :=
  let s := s.tick at_
  .next (if !(s.repairWaiters line).isEmpty then s
    else match res with
      | .tierD loc b =>
        if s.crown.misses.contains line && s.inTierD line then (s.tierDFill line loc b).settle else s
      | .frame ok =>
        if s.crown.verifies.contains line || (s.crown.misses.contains line && !s.inTierD line) then
          (s.frameFill line ok).settle
        else s)

/-- The base of a closed entry's line lies below tier D: its frame is read, and the line is written back with it (02 R72, R74). A
line with nothing below has zeros for base. -/
def State.fetchBase (s : State) (m : Merge) : State :=
  let l := m.line
  if SMap.has s.tier.pmap (frameOfLine l) || (s.fpaOf (spanOfLine l) (frameOfLine l % 256)).isSome then
    let s := { s with lines := { s.lines with closing := s.lines.closing ++ [{ m with base := true }] } }
    if s.crown.misses.contains l then s else s.addMiss l true
  else { s with lines := { s.lines with mask := SMap.del s.lines.mask l } }.wholeToD l

/-- A closed entry's line is read from tier D where it lies, and written back as one line. Where the burst cannot be corrected
the base comes from below, or the line is repaired or poisoned. An entry whose line is poisoned stays so. -/
def State.closeMerge (s : State) (m : Merge) (loc : DramLoc) (b : Burst) : State :=
  let l := m.line
  if !SMap.has s.lines.mask l then s.wholeToD l
  else if s.inTierD l then
    let only := s.onlyHere l
    let held := s.writeHeld l
    let (s, d) := if held then (s, Decoded.good) else s.readBurst loc b 2
    match d with
    | .uncorrectable => if only then (s.wholeToD l).deviceRepair l 1 else (s.dropTierD l).fetchBase m
    | _ => ({ s with lines := { s.lines with mask := SMap.del s.lines.mask l } }.markDecoded l d).wholeToD l
  else s.fetchBase m

/-- MERGE_ENTRY_CLOSE (02 R74): the read of an entry whose window has ended, or that had to leave the buffer, comes back. -/
def execMergeEntryClose (sub line : Nat) (loc : DramLoc) (b : Burst) (at_ : Nat) (s : State) :
    Host.Outcome State Fault Refusal :=
  let s := s.tick at_
  .next (match s.lines.closing.find? (fun m => m.line == line && m.sub == sub && !m.base) with
    | some m =>
      ({ s with lines := { s.lines with closing := s.lines.closing.filter (fun x => x != m) } }.closeMerge m loc b).settle
    | none =>
      match s.lines.merge.find? (fun m => m.line == line && m.sub == sub) with
      | some m =>
        if s.now < m.opened + 1000 then s
        else ({ s with lines := { s.lines with merge := s.lines.merge.filter (fun x => x != m) } }.closeMerge m loc b).settle
      | none => s)

/-! Way power-down (05 R163 to R165, Table 5.1). -/

/-- A way's state set. -/
def State.setWay (s : State) (w : Nat) (x : WaySt) : State :=
  { s with crown := { s.crown with ways := s.crown.ways.set (w - 8) x } }

/-- OFF_REQ of a way written with a value. -/
def State.wayReq (s : State) (w : Nat) (off : Bool) : State :=
  match s.waySt w, off with
  | .on, true => s.setWay w .cleaning
  | .waking, true => { s with crown := { s.crown with wayAgain := insertSorted w s.crown.wayAgain } }
  | .waking, false => { s with crown := { s.crown with wayAgain := removeNum w s.crown.wayAgain } }
  | .cleaning, false => (s.setWay w .on).raise F.CR_STATUS.CLEAN_ABORT
  | .off, false => s.setWay w .waking
  | _, _ => s

/-- CR_WAY_PWR written (05 Table 5.3). -/
def State.writeWays (s : State) (via : Via) (w : AccW) (v : Word) : State :=
  s.writeAt via .CR_WAY_PWR 0 w v (fun s =>
    let s := s.writeFields .CR_WAY_PWR 0 w v false
    let req := s.reg .CR_WAY_PWR 0
    ((List.range 8).foldl (fun s k => s.wayReq (k + 8) (req.getLsbD (k + 8))) s).settle)

/-- WAY_OFF_REQ (05 R164). -/
def execWayOffReq (via : Via) (way at_ : Nat) (s : State) : Host.Outcome State Fault Refusal :=
  let s := s.tick at_
  .next (s.writeWays via .full (s.reg .CR_WAY_PWR 0 ||| (1#64 <<< way)))

/-- WAY_ON_REQ (05 R165). -/
def execWayOnReq (via : Via) (way at_ : Nat) (s : State) : Host.Outcome State Fault Refusal :=
  let s := s.tick at_
  .next (s.writeWays via .full (s.reg .CR_WAY_PWR 0 &&& ~~~(1#64 <<< way)))

/-- Cells of a way. -/
def State.wayCells (s : State) (w : Nat) : SMap Cell := s.crown.cells.filter (fun x => x.1 % 16 == w)

/-- The ways being cleaned power down at the end of the Crown flush of state 17 (05 Table 5.1). -/
def State.endCleaning (s : State) : State :=
  ((List.range 8).map (fun k => k + 8)).foldl (fun s w =>
    if s.waySt w == .cleaning then
      ({ s with crown := { s.crown with cells := s.crown.cells.filter (fun x => x.1 % 16 != w) } }.setWay w .off).raise
        F.CR_STATUS.WAY_OFF_DONE
    else s) s

/-- A way emptied: dirty lines go to tier D, the rest is dropped. -/
def State.cleanWay (s : State) (w : Nat) : State :=
  (s.wayCells w).foldl (fun s x => s.evictCell x.1) s

/-- WAY_CLEAN_DONE (05 R164): pending fills of the way complete first. -/
def execWayCleanDone (way at_ : Nat) (s : State) : Host.Outcome State Fault Refusal :=
  let s := s.tick at_
  .next (if s.waySt way == .cleaning && !(s.wayCells way).any (fun x => x.2.filling) then
      (((s.cleanWay way).setWay way .off).raise F.CR_STATUS.WAY_OFF_DONE).settle
    else s)

/-- WAY_POWER_UP_DONE (05 R165). -/
def execWayPowerUpDone (way at_ : Nat) (s : State) : Host.Outcome State Fault Refusal :=
  let s := s.tick at_
  .next (if s.waySt way == .waking then
      let again := s.crown.wayAgain.contains way
      let s := { s with crown := { s.crown with wayAgain := removeNum way s.crown.wayAgain } }
      ((s.setWay way (if again then .cleaning else .on)).raise F.CR_STATUS.WAY_ON_DONE).settle
    else s)

/-- CR_LFSR_SEED written: every slice loads it at its next allocation (05 R158). -/
def State.writeSeed (s : State) (via : Via) (w : AccW) (v : Word) : State :=
  s.writeAt via .CR_LFSR_SEED 0 w v (fun s =>
    let s := s.writeFields .CR_LFSR_SEED 0 w v false
    if w = .hi then s else { s with crown := { s.crown with reload := List.range 32 } })

/-- CR_LFSR_SEED_WRITE (05 R158). -/
def execCrLfsrSeedWrite (via : Via) (w : AccW) (v : Word) (at_ : Nat) (s : State) :
    Host.Outcome State Fault Refusal :=
  .next ((s.tick at_).writeSeed via w v)

/-- CR_WAY_STAT (05 Table 5.4). -/
def State.wayStat (s : State) : Word :=
  let bits (x : WaySt) : Nat :=
    ((List.range 8).filter (fun k => s.waySt (k + 8) == x)).foldl (fun a k => a + 2 ^ k) 0
  word (bits .off * 2 ^ 8 + bits .cleaning * 2 ^ 16 + bits .waking * 2 ^ 24)

/-- CR_SLICE_STAT of the selected slice (05 Table 5.7). -/
def State.sliceStat (s : State) : Word :=
  let n := s.get F.CR_SLICE_SEL.SLICE
  let dirty := (s.crown.cells.filter (fun x => x.2.dirty && lineSlice x.2.line == n)).length
  word (dirty % 2 ^ 19 + s.missesOf n % 2 ^ 9 * 2 ^ 19 + s.crown.missMax.getD n 0 % 2 ^ 9 * 2 ^ 28)

/-- CR_SLICE_STAT_READ (05 Table 5.7): the read resets MISSES_MAX. -/
def State.readSliceStat (s : State) (via : Via) (w : AccW) : State :=
  s.readAt via .CR_SLICE_STAT 0 w s.sliceStat (fun s =>
    { s with crown := { s.crown with missMax := s.crown.missMax.set (s.get F.CR_SLICE_SEL.SLICE) 0 } })

/-- CR_SLICE_STAT_READ. -/
def execCrSliceStatRead (via : Via) (w : AccW) (s : State) : Host.Outcome State Fault Refusal :=
  .next (s.readSliceStat via w)

/-- CR_HIT_STAT_READ (05 R166). -/
def execCrHitStatRead (via : Via) (w : AccW) (s : State) : Host.Outcome State Fault Refusal :=
  .next (s.readCounters via .CR_HIT_STAT 0 w [F.CR_HIT_STAT.HITS, F.CR_HIT_STAT.MISSES])

/-- CR_ERR_STAT_READ (05 R166). -/
def execCrErrStatRead (via : Via) (w : AccW) (s : State) : Host.Outcome State Fault Refusal :=
  .next (s.readCounters via .CR_ERR_STAT 0 w [F.CR_ERR_STAT.CORRECTED, F.CR_ERR_STAT.UNCORRECTABLE])

end Sys2Proof.Machine
end

