-- ==== Sys2Proof/Machine/Dram.lean ====
section
/-! DEFINITION. DRAM channels (06): training steps, request age, retraining pauses, refresh, row repair and the
Trowel. -/

namespace Sys2Proof.Machine

open Sys2Proof

/-! Training (06 R181). -/

/-- The channel's group is stopped for a restart. -/
def State.groupStopped (s : State) (ch : Nat) : Bool :=
  (word (s.get F.IS_FUNC_STOPPED.DRAM_GROUP)).getLsbD (ch / 4)

/-- A training step is accepted on the channel now. -/
def State.mayTrain (s : State) (ch : Nat) : Bool :=
  s.power.state == 10 || s.power.state == 11 || (s.power.state == 14 && s.groupStopped ch)

/-- A training step with what comes back: the lanes that mismatch and the bad bursts. -/
def State.trainStep (s : State) (ch : Nat) (lanes : BitVec 40) (bad : Nat) : State :=
  if s.getF F.DC_TRN_CTL.OP ch = 0 ∨ 4 < s.getF F.DC_TRN_CTL.OP ch then s.setF F.DC_TRN_CTL.CODE ch 7
  else if !s.mayTrain ch then s.setF F.DC_TRN_CTL.CODE ch 12
  else ((s.setF F.DC_TRN_CMP.LANE_ERR ch lanes.toNat).setF F.DC_TRN_CMP.BURSTS_BAD ch (min 0xFFFF bad)).setF
    F.DC_TRN_CTL.CODE ch 0

/-- DC_TRN_CTL written with GO. -/
def State.writeTrain (s : State) (via : Via) (ch : Nat) (w : AccW) (v : Word) (lanes : BitVec 40) (bad : Nat) : State :=
  s.writeAt via .DC_TRN_CTL ch w v (fun s => (s.writeFields .DC_TRN_CTL ch w v false).trainStep ch lanes bad)

/-- A training step of a kind, with the other fields as written. -/
def State.trainCmd (s : State) (via : Via) (ch op : Nat) (v : Word) (lanes : BitVec 40) (bad : Nat) : State :=
  s.writeTrain via ch .full (withBits (v ||| 0x100#64) 0 4 op) lanes bad

/-- CS_STEP (06 R181). -/
def execCsStep (via : Via) (ch : Nat) (v : Word) (lanes : BitVec 40) (bad at_ : Nat) (s : State) :
    Host.Outcome State Fault Refusal :=
  .next ((s.tick at_).trainCmd via ch 1 v lanes bad)

/-- CA_STEP (06 R181). -/
def execCaStep (via : Via) (ch : Nat) (v : Word) (lanes : BitVec 40) (bad at_ : Nat) (s : State) :
    Host.Outcome State Fault Refusal :=
  .next ((s.tick at_).trainCmd via ch 2 v lanes bad)

/-- DQ_READ_STEP (06 R181). -/
def execDqReadStep (via : Via) (ch : Nat) (v : Word) (lanes : BitVec 40) (bad at_ : Nat) (s : State) :
    Host.Outcome State Fault Refusal :=
  .next ((s.tick at_).trainCmd via ch 3 v lanes bad)

/-- DQ_WRITE_STEP (06 R181). -/
def execDqWriteStep (via : Via) (ch : Nat) (v : Word) (lanes : BitVec 40) (bad at_ : Nat) (s : State) :
    Host.Outcome State Fault Refusal :=
  .next ((s.tick at_).trainCmd via ch 4 v lanes bad)

/-- A bit mask of channels or groups. -/
def sumBits (l : List Nat) : Nat := (nub l).foldl (fun a c => a + 2 ^ c) 0

/-- The retraining pauses of a channel from a time on: subchannel B 5 ms after A, channel n by n × 150 µs after channel 0 (06 R185; the
time of channel 0 is a DESIGN CHOICE, log entry 101). -/
def State.setPauses (s : State) (l : List Nat) : State :=
  { s with dram := { s.dram with pauseAt := l.foldl (fun m c =>
      SMap.put (SMap.put m (2 * c) (s.now + c * 150000)) (2 * c + 1) (s.now + c * 150000 + 5000000)) s.dram.pauseAt } }

/-- Channels of a list trained and coated, but for those that failed: COATED, FAILED and TRN_FAIL (06 Table 6.7 steps 1, 2, R177). -/
def State.coatList (s : State) (l failed : List Nat) : State :=
  let bad := l.filter failed.contains
  let good := l.filter (fun c => !failed.contains c)
  let keep (f : FieldRef) : List Nat := (List.range 32).filter (fun c => (word (s.get f)).getLsbD c && !l.contains c)
  let s := (s.put F.DC_COAT_STAT.COATED (sumBits (keep F.DC_COAT_STAT.COATED ++ good))).put F.DC_COAT_STAT.FAILED
    (sumBits (keep F.DC_COAT_STAT.FAILED ++ bad))
  let s := bad.foldl (fun s c => s.raiseAt F.DC_STATUS.TRN_FAIL c) s
  s.setPauses good

/-! Scheduling, retraining, refresh (06 R182 to R190). -/

/-- The read that the rules serve next in a subchannel: one that has waited 10 µs, oldest first; else of the first bank at or after
the pointer that has one, a hit of the open row while its streak is below 16, else the oldest (06 R182, R183). The commands bring
the reads as the hardware ends them, so no meaning asks for it. -/
def State.nextRead (s : State) (sub : Nat) : Option DReq :=
  let q := SMap.findD s.dram.dq sub []
  match q.find? (fun x => x.aged) with
  | some x => some x
  | none =>
    let bank (x : DReq) : Nat := (s.lineBank x.line).1
    let turn (x : DReq) : Nat := (bank x % 512 + 512 - SMap.findD s.dram.ptr sub 0) % 512
    match q.foldl (fun (a : Option DReq) x => match a with | some y => if turn x < turn y then some x else a | none => some x) none with
    | none => none
    | some y =>
      let mine := q.filter (fun x => bank x == bank y)
      let b := SMap.findD s.dram.banks (bank y) {}
      match (if b.streak < 16 then mine.find? (fun x => b.row == some (s.lineBank x.line).2) else none) with
      | some x => some x
      | none => mine.head?

/-- A read that has waited 10 µs goes before all others of its subchannel, oldest first (06 R183). -/
def execRequestAgeExpiry (sub line at_ : Nat) (s : State) : Host.Outcome State Fault Refusal :=
  let s := s.tick at_
  let q := SMap.findD s.dram.dq sub []
  .next (if q.any (fun x => x.line == line && !x.aged && decide (x.arrived + 10000 ≤ s.now)) then
      let q := q.map (fun (x : DReq) => if x.line = line then { x with aged := true } else x)
      let q := q.filter (fun x => x.aged) ++ q.filter (fun x => !x.aged)
      { s with dram := { s.dram with dq := SMap.put s.dram.dq sub q } }
    else s)

/-- DRAM runs from power state 10 to 20 on a populated channel whose group serves. -/
def State.channelServes (s : State) (ch : Nat) : Bool :=
  s.isSet F.DC_CFG.POP ch && decide (10 ≤ s.power.state) && decide (s.power.state ≤ 20) && !s.groupStopped ch

/-- RETRAIN_PAUSE (06 R185, R186): due every 10 ms, start to start, from the time that the channel's training has set. -/
def execRetrainPause (ch sub eye lane : Nat) (noPass : List Nat) (at_ : Nat) (s : State) :
    Host.Outcome State Fault Refusal :=
  let s := s.tick at_
  let k := ch * 2 + sub
  let due := SMap.findD s.dram.pauseAt k s.now
  .next (if s.channelServes ch && decide (due ≤ s.now) then
      let s := { s with dram := { s.dram with pauseAt := SMap.put s.dram.pauseAt k (due + 10000000) } }
      let s := ((s.setF F.DC_RETRAIN.EYE_NOW ch (min 255 eye)).setF F.DC_RETRAIN.LANE ch lane).setF
        F.DC_RETRAIN.SUBCH ch sub
      let s := s.bump F.DC_RETRAIN.PAUSES ch 1
      let s := if eye < s.getF F.DC_RETRAIN.MIN_EYE ch then s.raiseAt F.DC_STATUS.EYE_LOW ch else s
      if noPass.isEmpty then s else s.raiseAt F.DC_STATUS.RETRAIN_FAIL ch
    else s)

/-- REFRESH_RATE_POLL (06 R187): the highest indication of any rank, 0 = normal, 1 = extended, 2 = above the rated
range. -/
def execRefreshRatePoll (ch : Nat) (ind : List Nat) (at_ : Nat) (s : State) : Host.Outcome State Fault Refusal :=
  let s := s.tick at_
  let top := ind.foldl max 0
  .next (if s.channelServes ch then
      let s := s.setF F.DC_REFRESH_CTL.RATE ch (min 1 top)
      if 2 ≤ top then s.raiseAt F.DC_STATUS.HOT ch else s
    else s)

/-- A refresh that falls due ends every row-hit streak of the channel (06 R190). -/
def State.endStreaks (s : State) (ch : Nat) : State :=
  { s with dram := { s.dram with
      banks := s.dram.banks.map (fun x => if x.1 / 1024 = ch then (x.1, { x.2 with streak := 0 }) else x) } }

/-- A refresh issued: all banks of the channel, or those of one bank index in every bank group, whose rows close; the others go on
serving (06 R188). -/
def State.refresh (s : State) (ch : Nat) : State :=
  let all := s.isSet F.DC_REFRESH_CTL.MODE ch
  let ix := SMap.findD s.dram.refBank ch 0
  { s with dram := { s.dram with
      banks := s.dram.banks.filter (fun x => !(x.1 / 1024 == ch && (all || x.1 % 4 == ix))),
      refBank := if all then s.dram.refBank else SMap.put s.dram.refBank ch ((ix + 1) % 4) } }

/-- REFRESH_DUE (06 R188 to R190): postponed while the queues are busy, four intervals at most; then issued. -/
def execRefreshDue (ch : Nat) (busy : Bool) (at_ : Nat) (s : State) : Host.Outcome State Fault Refusal :=
  let s := s.tick at_
  .next (if s.channelServes ch then
      let s := s.endStreaks ch
      let p := s.getF F.DC_REFRESH_CTL.POSTPONED ch
      if busy ∧ p < 4 then s.setF F.DC_REFRESH_CTL.POSTPONED ch (p + 1)
      else (s.refresh ch).setF F.DC_REFRESH_CTL.POSTPONED ch 0
    else s)

/-! Row repair (06 R191 to R194). -/

/-- Frames whose D block has a line in a row. -/
def State.rowDFrames (s : State) (r : Nat × Nat) : List Nat :=
  (s.dram.dframes.filter (fun x =>
    (List.range 64).any (fun k => bankRow s.pieces (x.2.block * 64 + k) == r))).map Prod.fst

/-- A frame of the row still holds a dirty or VOLATILE line in tier D. -/
def State.rowBusy (s : State) (r : Nat × Nat) : Bool :=
  (s.rowDFrames r).any (fun f => match SMap.find s.dram.dframes f with
    | some d => d.dirty != 0#64
    | none => false)

/-- Frames whose blocks have been taken get other blocks, with the lines that they held; the others leave tier D. -/
def State.moveVolatile (s : State) (l : SMap DFrame) : State :=
  l.foldl (fun s x =>
    if s.tier.volFrames.contains x.1 then
      let s := s.allocD x.1
      { s with dram := { s.dram with
        dframes := SMap.upd s.dram.dframes x.1 (fun n => { n with present := x.2.present, dirty := x.2.dirty }) } }
    else s) s

/-- The D blocks of a row are evicted; a VOLATILE frame moves to a block outside the row (06 R192). -/
def State.evictRow (s : State) (r : Nat × Nat) : State :=
  let fs := s.rowDFrames r
  let l := s.dram.dframes.filter (fun x => fs.contains x.1)
  let old := s.dram.retired
  let s := { s with dram := { s.dram with
    dframes := s.dram.dframes.filter (fun x => !fs.contains x.1), retired := if old.contains r then old else old ++ [r] } }
  let s := s.moveVolatile l
  { s with dram := { s.dram with retired := old } }

/-- D blocks that have a line in one row (06 Table 6.4). -/
def State.blocksOfRow (s : State) : Nat :=
  let k := s.shape.cbBits
  match s.get F.DC_MAP.AM with
  | 0 => 2 ^ k / 2 ^ (5 - s.shape.chBits)
  | 2 => 2 ^ k / 8
  | _ => 2 ^ k / 64

/-- Rows that lie in the same D blocks have the same number here: under AM0 those of every channel and subchannel, under AM2 those
of every bank group (06 Table 6.4). -/
def State.blockSet (s : State) (r : Nat × Nat) : Nat :=
  let bank := match s.get F.DC_MAP.AM with | 0 => r.1 % 512 | 2 => r.1 / 32 * 4 + r.1 % 4 | _ => r.1
  bank * 2 ^ 18 + r.2

/-- D blocks of the pool: of the groups in service, without those of training rows and retired rows (06 R174, R180, R194). Under
AM0 to AM2 every block needs every group. -/
def State.poolSize (s : State) : Nat :=
  let up := s.groupsUp
  let am3 := s.get F.DC_MAP.AM == 3
  let groups := 2 ^ s.shape.chBits / 4
  let whole := if am3 then up.length * s.runBlocks else if up.length = groups then s.runBlocks else 0
  let rows := s.dram.retired.filter (fun r => !am3 || up.contains (r.1 / 4096))
  whole - (nub (rows.map s.blockSet)).length * s.blocksOfRow

/-- A row without a spare is retired: its D blocks leave the pool, and the health log lists it (06 R194;
14 R397). -/
def State.retireRow (s : State) (ch : Nat) (r : Nat × Nat) : State :=
  let s := { s with dram := { s.dram with
    retired := if s.dram.retired.contains r then s.dram.retired else s.dram.retired ++ [r] } }
  let s := s.put F.DC_MAP.D_BLOCKS s.poolSize
  ((s.raiseAt F.DC_STATUS.PPR_EXHAUSTED ch).health 12 1).healthList 2 ch (s.rowLoc r)

/-- A repair of a row by soft PPR ends: repaired, or retired for want of a spare. -/
def State.rowRepaired (s : State) (ch : Nat) (r : Nat × Nat) (spare : Bool) : State :=
  let s := (s.evictRow r)
  let s := { s with dram := { s.dram with candidates := s.dram.candidates.filter (fun x => x != r) } }
  if spare then ({ s with dram := { s.dram with
      softRows := if s.dram.softRows.contains r then s.dram.softRows else s.dram.softRows ++ [r] } }).raiseAt F.DC_STATUS.PPR_DONE ch
  else s.retireRow ch r

/-- A hard repair of a row: for good; without a spare the row is retired, its blocks evicted (06 R193, R194). -/
def State.hardRepair (s : State) (ch : Nat) (r : Nat × Nat) (spare : Bool) : State :=
  if spare then
    { s with dram := { s.dram with
      softRows := s.dram.softRows.filter (fun x => x != r),
      hardRows := if s.dram.hardRows.contains r then s.dram.hardRows else s.dram.hardRows ++ [r] } }
  else (s.evictRow r).retireRow ch r

/-- The row that DC_PPR_CMD names. -/
def State.pprRow (s : State) (ch : Nat) : Nat × Nat :=
  s.rowAt (DramLoc.mk ch (s.getF F.DC_PPR_CMD.SUBCH ch) (s.getF F.DC_PPR_CMD.PRANK ch)
    (s.getF F.DC_PPR_CMD.LRANK ch) (s.getF F.DC_PPR_CMD.BG ch) (s.getF F.DC_PPR_CMD.BA ch)
    (s.getF F.DC_PPR_CMD.ROW ch) 0)

/-- DC_PPR_CMD ends. -/
def State.pprCode (s : State) (ch code : Nat) : State :=
  ((s.setF F.DC_PPR_CMD.GO ch 0).setF F.DC_PPR_CMD.BUSY ch 0).setF F.DC_PPR_CMD.CODE ch code

/-- PPR_REPAIR_DONE (06 R192): the blocks of the row hold no dirty line any more, and the repair ends. A register
command for the row ends with it. -/
def execPprRepairDone (ch : Nat) (loc : DramLoc) (spare : Bool) (at_ : Nat) (s : State) :
    Host.Outcome State Fault Refusal :=
  let s := s.tick at_
  let r := s.rowAt loc
  .next (if s.dram.candidates.contains r && !s.rowBusy r then
      let s := s.rowRepaired ch r spare
      (if s.isSet F.DC_PPR_CMD.BUSY ch && s.pprRow ch == r then s.pprCode ch (if spare then 0 else 6) else s).settle
    else s)

/-- A PPR command runs (06 R192 to R194): HARD only in state 10 or with the group stopped; SOFT waits until the
row's dirty lines are destaged. -/
def State.pprRun (s : State) (ch : Nat) (spare : Bool) : State :=
  let op := s.getF F.DC_PPR_CMD.OP ch
  let r := s.pprRow ch
  if op = 2 then
    if s.power.state = 10 ∨ s.groupStopped ch = true then
      (s.hardRepair ch r spare).pprCode ch (if spare then 0 else 6)
    else s.pprCode ch 12
  else if op = 1 then
    if s.rowBusy r then ((s.setF F.DC_PPR_CMD.GO ch 1).setF F.DC_PPR_CMD.BUSY ch 1).addCandidate r
    else (s.rowRepaired ch r spare).pprCode ch (if spare then 0 else 6)
  else s.pprCode ch 7

/-- DC_PPR_CMD written; GO while BUSY is ignored and flagged. -/
def State.writePpr (s : State) (via : Via) (ch : Nat) (w : AccW) (v : Word) (spare : Bool) : State :=
  s.writeAt via .DC_PPR_CMD ch w v (fun s =>
    let go := (accValue w v &&& accMask w).getLsbD 29
    if go && s.isSet F.DC_PPR_CMD.BUSY ch then s.raiseAt F.DC_STATUS.CMD_OVERRUN ch
    else
      let s := s.writeFields .DC_PPR_CMD ch w v false
      if go then (s.pprRun ch spare).settle else s)

/-- SOFT_PPR (06 R192). -/
def execSoftPpr (via : Via) (ch : Nat) (v : Word) (spare : Bool) (at_ : Nat) (s : State) :
    Host.Outcome State Fault Refusal :=
  .next ((s.tick at_).writePpr via ch .full (withBits (v ||| 0x20000000#64) 0 2 1) spare)

/-- HARD_PPR (06 R193). -/
def execHardPpr (via : Via) (ch : Nat) (v : Word) (spare : Bool) (at_ : Nat) (s : State) :
    Host.Outcome State Fault Refusal :=
  .next ((s.tick at_).writePpr via ch .full (withBits (v ||| 0x20000000#64) 0 2 2) spare)

/-! The Trowel (06 R195 to R197; 08 R257; 07 R206, R227). -/

/-- What the Trowel finds in tier D (06 Table 6.10). -/
def State.trowelD (s : State) (line : Option Nat) (loc : DramLoc) (b : Burst) : State :=
  let (s, d) := s.readBurst loc b 1
  match d, line with
  | .uncorrectable, some l =>
    if !s.inTierD l then s else if s.onlyHere l then s.deviceRepair l 1 else s.dropTierD l
  | _, _ => s

/-- What the Trowel finds in a row of tier P: an unreadable data unit is rebuilt from its stripe, which changes no
value, or healed; a mismatch of P and Q is laid to one unit and rewritten, or healed for every data unit
(06 R197; 08 R250, R255, R257). -/
def State.trowelP (s : State) (g row : Nat) (unreadable : Option Nat) (parity : Option (Option Nat)) : State :=
  let s := match unreadable with
    | some pos =>
      if s.rowMissing g row + 1 ≤ 2 then s
      else if s.groupDeferred g then s
      else
        let fs := (s.rowFrames g row).filter (fun f =>
          match SMap.find s.tier.pmap f with
          | some (_, slot) => dataPos (s.pWidth) row (slot % max 1 (s.pWidth - 2)) == pos
          | none => false)
        s.healFrames fs
    | none => s
  match parity with
  | none => s
  | some one =>
    let s := (s.raise F.ST_STATUS.PARITY_MISMATCH).bump F.ST_PARITY_STAT.MISMATCH 0 1
    match one with
    | some _ => s
    | none => s.healFrames (s.rowFrames g row)

/-- Units that a pass of a tier reads: lines of tier D, rows of tier P, programmed frames of tier F. -/
def State.trowelTotal (s : State) (tier : Nat) : Nat :=
  match tier with
  | 0 => 64 * s.get F.DC_MAP.D_BLOCKS
  | 1 => s.pGroups * s.groupRows
  | _ => (s.flash.bands.map (fun x => x.2.valid)).foldl (· + ·) 0

/-- The Trowel pass of a tier goes on by one unit; with its last the pass has ended. -/
def State.trowelCount (s : State) (tier : Nat) : State :=
  let n := s.dram.trowelDone.getD tier 0 + 1
  let fin := s.dram.trowelFin.getD tier none
  { s with dram := { s.dram with
    trowelDone := s.dram.trowelDone.set tier n,
    trowelFin := if fin.isNone && decide (s.trowelTotal tier ≤ n) then s.dram.trowelFin.set tier (some s.now) else s.dram.trowelFin } }

/-- Period of a pass in ns; 0 acts as 1 (06 Table 6.18). -/
def State.trowelNs (s : State) (tier : Nat) : Nat :=
  match tier with
  | 0 => max 1 (s.get F.DC_TROWEL_CTL.D_PERIOD_H) * 3600000000000
  | 1 => max 1 (s.get F.DC_TROWEL_CTL.P_PERIOD_H) * 3600000000000
  | _ => max 1 (s.get F.DC_TROWEL_CTL.F_PERIOD_D) * 86400000000000

/-- TROWEL_PERIOD_END (06 R195): a pass that has not ended before the end of its period is late, and the next one starts. -/
def execTrowelPeriodEnd (tier at_ : Nat) (s : State) : Host.Outcome State Fault Refusal :=
  let s := s.tick at_
  let start := s.dram.trowelStart.getD tier 0
  .next (if s.isSet F.DC_TROWEL_CTL.EN 0 && decide (start + s.trowelNs tier ≤ s.now) then
      let late := match s.dram.trowelFin.getD tier none with
        | some t => decide (start + s.trowelNs tier ≤ t)
        | none => decide (s.dram.trowelDone.getD tier 0 < s.trowelTotal tier)
      let s := { s with dram := { s.dram with
        trowelStart := s.dram.trowelStart.set tier s.now, trowelDone := s.dram.trowelDone.set tier 0,
        trowelFin := s.dram.trowelFin.set tier none } }
      let f := match tier with
        | 0 => F.DC_TROWEL_STAT.LATE_D | 1 => F.DC_TROWEL_STAT.LATE_P | _ => F.DC_TROWEL_STAT.LATE_F
      if late then s.raiseCls f 0 1 .none else s.put f 0
    else s)

/-- DC_TROWEL_STAT (06 Table 6.18). -/
def State.trowelStat (s : State) : Word :=
  let pct (t : Nat) : Nat := pctOf (s.dram.trowelDone.getD t 0) (s.trowelTotal t)
  s.reg .DC_TROWEL_STAT 0 ||| word (pct 0 + pct 1 * 2 ^ 8 + pct 2 * 2 ^ 16)

/-- DC_ERR_STAT_READ (06 Table 6.13). -/
def execDcErrStatRead (via : Via) (ch : Nat) (w : AccW) (s : State) : Host.Outcome State Fault Refusal :=
  .next (s.readCounters via .DC_ERR_STAT ch w [F.DC_ERR_STAT.CORRECTED, F.DC_ERR_STAT.UNCORRECTABLE])

end Sys2Proof.Machine
end

