-- ==== Sys2Proof/Machine/Flash.lean ====
section
/-! DEFINITION. Tier F (07): frame reads and their recovery, programs, commits and checkpoints of the map,
Fulling, erase, block retirement, temperature history and the FL registers; and what the Trowel finds. -/

namespace Sys2Proof.Machine

open Sys2Proof

/-! Places in flash. -/

/-- Key of a block of a channel. -/
def blockKey (ch block : Nat) : Nat := ch * 2 ^ 20 + block

/-- The record of a block. -/
def State.block (s : State) (ch block : Nat) : Block :=
  SMap.findD s.flash.blocks (blockKey ch block) (Block.mk 0 0 0 false false)

/-- The record of a block replaced. -/
def State.putBlock (s : State) (ch block : Nat) (x : Block) : State :=
  { s with flash := { s.flash with blocks := SMap.put s.flash.blocks (blockKey ch block) x } }

/-- Erase count of a band: the lowest of its blocks. -/
def State.bandErases (s : State) (b : Nat) (x : Band) : Nat :=
  match (s.bandBlocks b x).map (fun p => (s.block p.1 p.2).erases) with
  | [] => 0
  | e :: t => t.foldl min e

/-- A block never holds data again (07 R225, R226): counted, journaled, kept in the health log, one spare taken. -/
def State.retireBlock (s : State) (ch block : Nat) : State :=
  let x := s.block ch block
  if x.retired then s
  else
    let s := s.putBlock ch block { x with retired := true }
    let s := (s.bump F.FL_BLOCKS.RETIRED ch 1).setF F.FL_BLOCKS.GOOD ch (s.getF F.FL_BLOCKS.GOOD ch - 1)
    let s := s.raiseAt F.FL_STATUS.RETIRED ch
    (((s.journal 7 0 0 (ch + block * 32) 0 []).health 13 1).healthList 3 ch block).takeSpare

/-! Frame reads (07 R205, R206, R227). -/

/-- A span marked for refresh (07 R206). -/
def State.markRefresh (s : State) (sp : Nat) : State :=
  { s with flash := { s.flash with map := SMap.upd s.flash.map sp (fun e => { e with refresh := true }) } }

/-- One more read of a block; above the panel's limit its band is marked for refresh (07 R206). -/
def State.countBlockRead (s : State) (a : Nat) : State :=
  let (ch, block) := s.fpaBlock a
  let x := s.block ch block
  let x := { x with reads := x.reads + 1 }
  let s := s.putBlock ch block x
  let limit := match s.flash.build with | some b => b.readLimit | none => 0
  if limit ≠ 0 ∧ limit < x.reads then
    { s with flash := { s.flash with bands := SMap.upd s.flash.bands (a / 2 ^ 20) (fun b => { b with refresh := true }) } }
  else s

/-- A frame read that ends at a step of Table 7.3: 1 to 4 = the step that succeeds, 5 = none of them. Counts,
flags and refresh marks; a frame that fails them all is counted when its repair ends. Steps 1 to 3 count as corrected frames (DEDUCED, log entry 32). -/
def State.countFrameRead (s : State) (frame step entry : Nat) : State :=
  let sp := spanOfFrame frame
  match s.fpaOf sp (frame % 256) with
  | none => s
  | some a =>
    let ch := (s.fpaBlock a).1
    let s := s.countBlockRead a
    let s := if step ≤ 4 then s.classCount (step - 1) 1
      else { s with flash := { s.flash with failed := insertSorted frame s.flash.failed } }
    let s := if step ≤ 3 then s.bump F.FL_ERR_STAT.CORRECTED ch 1
      else (s.bump F.FL_ERR_STAT.UNCORRECTABLE ch 1).raiseAt F.FL_STATUS.UNCORR ch
    if 3 ≤ step ∨ (step = 2 ∧ s.get F.FL_RETRY_CTL.RETRY_REFRESH ≤ entry) then s.markRefresh sp else s

/-- A frame that no local step can read and no miss waits for, the source of a copy or a find of the Trowel: each of its lines that
lies nowhere else on this device is repaired from the twin, or poisoned (07 Table 7.3 steps 5, 6; 04 Table 4.2). -/
def State.repairFrame (s : State) (f : Nat) : State :=
  ((List.range 64).map (fun k => f * 64 + k)).foldl (fun s l =>
    if SMap.has s.lines.dirty l || s.inTierD l || (s.cellAt l).isSome || s.isPoison l then s else s.deviceRepair l 3) s

/-- FLASH_READ_DONE (07 R205): the frame's read ends at a step, and the misses that wait for it are filled. -/
def execFlashReadDone (frame step entry : Nat) (ok : Bool) (at_ : Nat) (s : State) :
    Host.Outcome State Fault Refusal :=
  let s := s.tick at_
  .next (if (s.fpaOf (spanOfFrame frame) (frame % 256)).isNone then s
    else
      let s := s.countFrameRead frame (if ok then step else 5) entry
      let ls := (s.crown.misses.filter (fun l => !s.inTierD l) ++ s.crown.verifies).filter (fun l =>
        frameOfLine l == frame && (s.repairWaiters l).isEmpty)
      (if ls.isEmpty && !ok then s.repairFrame frame else (nub ls).foldl (fun s l => s.frameFill l ok) s).settle)

/-- What the Trowel finds in tier F (07 R227): a frame that no local step can read goes to read repair. -/
def State.trowelF (s : State) (frame step entry : Nat) : State :=
  if (s.fpaOf (spanOfFrame frame) (frame % 256)).isNone then s
  else
    let s := s.countFrameRead frame step entry
    if step ≤ 4 then s else s.repairFrame frame

/-- TROWEL_READ_DONE (06 R195 to R197). -/
def execTrowelReadDone (f : TrowelFind) (at_ : Nat) (s : State) : Host.Outcome State Fault Refusal :=
  let s := s.tick at_
  .next (if !s.isSet F.DC_TROWEL_CTL.EN 0 || s.power.throttle then s
    else match f with
      | .d line loc b => ((s.trowelD line loc b).trowelCount 0).settle
      | .p group row unreadable parity => ((s.trowelP group row unreadable parity).trowelCount 1).settle
      | .f frame step entry => ((s.trowelF frame step entry).trowelCount 2).settle)

/-! Programs and commits (07 R212 to R214, R225). -/

/-- Frames of the map that lie in a block, with their spans. -/
def State.framesInBlock (s : State) (ch block : Nat) : List (Nat × List Nat) :=
  (s.flash.map.map (fun x => (x.1, x.2.written.filter (fun k =>
    match s.fpaOf x.1 k with | some a => s.fpaBlock a == (ch, block) | none => false)))).filter
      (fun x => !x.2.isEmpty)

/-- The valid frames of a block that failed a program move on: each waits for its credits, and the block is retired after its second
failure once none is left (07 R219, Table 7.12). -/
def State.relocate (s : State) (ch block : Nat) : State :=
  let x := s.block ch block
  if !x.leaving then s
  else
    let l := s.framesInBlock ch block
    if l.isEmpty then
      let s := s.putBlock ch block { x with leaving := false }
      if 2 ≤ x.fails then s.retireBlock ch block else s
    else l.foldl (fun s y => s.rewrite y.1 y.2 false) s

/-- Every relocation that waits goes on. -/
def State.relocateAll (s : State) : State :=
  (s.flash.blocks.filter (fun x => x.2.leaving)).foldl (fun s x => s.relocate (x.1 / 2 ^ 20) (x.1 % 2 ^ 20)) s

/-- A change put on its way again into a new block. -/
def State.reissue (s : State) (c : FChange) : State :=
  let s := { s with flash := { s.flash with changes := s.flash.changes.filter (fun x => x.id != c.id) } }
  s.startChange c.kind c.span c.frames c.src c.fulling false

/-- A program failure (07 Table 7.12): the band is closed and the change goes to a new block. In a migration band
the frames of the block are relocated as sub-span writes, and a second failure of the block retires it; in a
Fulling band it is retired at once. -/
def State.programFailed (s : State) (c : FChange) (ch block : Nat) : State :=
  let s := (s.raiseAt F.FL_STATUS.PROG_FAIL ch).classCount 6 1
  let x := s.block ch block
  let s := s.putBlock ch block { x with fails := x.fails + 1, leaving := x.leaving || !c.fulling }
  let s := (s.closeBand c.band).reissue c
  if c.fulling then s.retireBlock ch block
  else ((s.framesInBlock ch block).foldl (fun s y => s.countSubw y.1) s).relocate ch block

/-- FLASH_PROGRAM_DONE (07 R212 step 1, R225). -/
def execFlashProgramDone (change : Nat) (ok : Bool) (ch block at_ : Nat) (s : State) :
    Host.Outcome State Fault Refusal :=
  let s := s.tick at_
  .next (match s.flash.changes.find? (fun c => c.id == change) with
    | some c =>
      if ok then
        { s with flash := { s.flash with changes := s.flash.changes.map (fun x =>
            if x.id = change then { x with programmed := true } else x) } }
      else (s.programFailed c ch block).settle
    | none => s)

/-- MAP_COMMIT_DONE (07 R212 steps 2, 3): the journal records of a programmed change are in tier P. -/
def execMapCommitDone (change at_ : Nat) (s : State) : Host.Outcome State Fault Refusal :=
  let s := s.tick at_
  .next (match s.flash.changes.find? (fun c => c.id == change && c.programmed) with
    | some c =>
      let s := s.commitChange c
      let s := { s with flash := { s.flash with jpending := 0 } }
      s.relocateAll.checkReshape.checkDemotion.settle
    | none => s)

/-- FINE_IDLE_EXPIRY (07 R211): FINE_IDLE_S seconds have passed from LAST_SUBW_S. -/
def execFineIdleExpiry (span at_ : Nat) (s : State) : Host.Outcome State Fault Refusal :=
  let s := s.tick at_
  .next (match SMap.find s.flash.map span with
    | some e =>
      let idle := max 1 (s.get F.FL_MAP_CTL.FINE_IDLE_S)
      if e.fine.isSome && decide ((e.lastSubw + idle) * 1000000000 ≤ s.now) then s.toSpan span else s
    | none => s)

/-- Records that the journal ring has room for (07 R213). -/
def State.journalCap (s : State) : Nat := s.flash.jsize

/-- The journal is half full, or CKPT_MIN minutes have passed since the last checkpoint (07 R214). -/
def State.ckptDue (s : State) : Bool :=
  decide (s.journalCap ≤ 2 * s.flash.ring.length)
    || decide (s.flash.ckptAt + max 1 (s.get F.FL_MAP_CTL.CKPT_MIN) * 60000000000 ≤ s.now)

/-- CHECKPOINT_TRIGGER (07 R214): never less than 10 s after the start of the last one. -/
def execCheckpointTrigger (at_ : Nat) (s : State) : Host.Outcome State Fault Refusal :=
  let s := s.tick at_
  .next (if !s.flash.ckptRunning && s.ckptDue && decide (s.flash.ckptAt + 10000000000 ≤ s.now)
        && decide (11 < s.power.state) && decide (s.power.state < 16) then
      { s with flash := { s.flash with
        ckptRunning := true, ckptAt := s.now, ckptFrom := s.flash.jseq, ckptSeq := s.flash.ckptSeq + 1 } }
    else s)

/-- A checkpoint ends: CKPT_DONE is journaled and the root written into the other copy; records before its start are free. -/
def State.endCheckpoint (s : State) : State :=
  let s := s.journal 8 0 0 0 0 []
  let n := s.flash.rootSeq + 1
  let root : MapRoot := {
    ckpt := s.flash.ckptSeq, start := s.flash.ckptFrom, slot := s.flash.ckptFrom % max 1 s.flash.jsize, seq := n }
  { s with flash := { s.flash with
    ckptRunning := false, rootSeq := n, roots := SMap.put s.flash.roots (n % 2) root,
    ring := s.flash.ring.filter (fun x => decide (s.flash.ckptFrom ≤ x.seq)) } }

/-- CHECKPOINT_DONE (07 R214). -/
def execCheckpointDone (at_ : Nat) (s : State) : Host.Outcome State Fault Refusal :=
  let s := s.tick at_
  .next (if s.flash.ckptRunning then s.endCheckpoint else s)

/-! Fulling (07 R216 to R220; 08 R260). -/

/-- The mode that follows from the free percentage (07 Table 7.9). Critical is left at LOW_PCT for foreground,
which is left at HIGH_PCT. -/
def State.nextMode (s : State) (f : Nat) : Nat :=
  let m := s.get F.FL_FULL_STAT.MODE
  let low := s.get F.FL_FULL_CTL.LOW_PCT
  if f < s.get F.FL_FULL_CTL.CRIT_PCT ∨ (m = 3 ∧ f < low) then 3
  else if f < low ∨ (2 ≤ m ∧ f < s.get F.FL_FULL_CTL.HIGH_PCT) then 2
  else if f < s.get F.FL_FULL_CTL.BG_PCT then 1
  else 0

/-- The mode set, with its flags; credits lapse when foreground is left (07 R218, R219). -/
def State.setMode (s : State) (f : Nat) : State :=
  let m := s.get F.FL_FULL_STAT.MODE
  let n := s.nextMode f
  let s := (s.put F.FL_FULL_STAT.FREE_PCT (min 100 f)).put F.FL_FULL_STAT.MODE n
  let s := if m = 2 ∧ n ≠ 2 then { s with flash := { s.flash with credits := 0 } } else s
  let s := if n = 2 ∧ m < 2 then s.raise F.FL_DEV_STATUS.FG_ENTERED else s
  if n = 3 ∧ m ≠ 3 then s.raise F.FL_DEV_STATUS.CRIT_ENTERED else s

/-- The least of the CLOSED bands by a measure and then by close time. -/
def leastBand (l : SMap Band) (sel : Nat → Band → Bool) (m : Nat → Band → Nat) : Option (Nat × Band) :=
  l.foldl (fun (acc : Option (Nat × Band)) x =>
    if x.2.st == .closed && sel x.1 x.2 then
      match acc with
      | some (b, y) =>
        if m x.1 x.2 < m b y || (m x.1 x.2 == m b y && decide (x.2.closeDt < y.closeDt)) then some x else acc
      | none => some x
    else acc) none

/-- Mean erase count of the flash blocks. -/
def State.meanErases (s : State) : Nat :=
  let n := match s.flash.build with | some b => b.blocksPerChannel * b.channels | none => 0
  (s.flash.blocks.map (fun x => x.2.erases)).foldl (· + ·) 0 / max 1 n

/-- Rated cycles of the panel. -/
def State.ratedPe (s : State) : Nat := match s.flash.build with | some b => b.ratedPe | none => 0

/-- The band that Fulling takes next (07 R217; 08 R260). -/
def State.nextVictim (s : State) : Option (Nat × Band) :=
  let mode := s.get F.FL_FULL_STAT.MODE
  match leastBand s.flash.bands (fun _ x => x.refresh) (fun _ _ => 0) with
  | some b => some b
  | none =>
    let wear := if mode ≤ 1 then
        match leastBand s.flash.bands (fun _ _ => true) s.bandErases with
        | some (b, x) =>
          if (s.bandErases b x + s.get F.FL_FULL_CTL.WEAR_GAP_PCT * s.ratedPe / 100) < s.meanErases then some (b, x)
          else none
        | none => none
      else none
    match wear with
    | some b => some b
    | none =>
      match leastBand s.flash.bands (fun _ x => x.width != s.fWidth) (fun _ x => x.valid) with
      | some b => some b
      | none => if mode = 0 then none else leastBand s.flash.bands (fun _ _ => true) (fun _ x => x.valid)

/-- The valid frames of a band put on their way to a Fulling band: each run whole, each frame of a frame-mapped
span alone (07 R217). -/
def State.copyBand (s : State) (b : Nat) : State :=
  s.flash.map.foldl (fun s x =>
    let e := x.2
    match e.fine with
    | none => if e.band = b then s.rewrite x.1 e.written true else s
    | some _ =>
      s.rewrite x.1 (e.written.filter (fun k => match s.fpaOf x.1 k with | some a => a / 2 ^ 20 == b | none => false)) true) s

/-- Fulling takes a victim when it has none in hand; copies of the one in hand that found no room or were abandoned go out anew
(07 R217, R222). -/
def State.takeVictim (s : State) : State :=
  match s.flash.bands.find? (fun x => x.2.st == .victim) with
  | some (b, _) => s.copyBand b
  | none => match s.nextVictim with
    | some (b, x) =>
      let s := (s.putBand b { x with st := .victim, copied := 0 }).jBand b .victim
      let s := s.put F.FL_FULL_STAT.VICTIM_VALID_PCT (pctOf x.valid (s.bandCap x.width))
      (s.copyBand b).checkEligible b
    | none => s

/-- The spans marked for refresh rewritten ahead of every victim (07 R206). -/
def State.refreshSpans (s : State) : State :=
  (s.flash.map.filter (fun x => x.2.refresh && !s.flash.changes.any (fun c => c.span == x.1))).foldl
    (fun s x => s.subSpanWrite x.1 x.2.written true) s

/-- ELIGIBLE bands go into the erase queue (07 R220). -/
def State.startErases (s : State) : State :=
  (s.flash.bands.filter (fun x => x.2.st == .eligible)).foldl
    (fun s x => (s.putBand x.1 { x.2 with st := .erasing, suspends := [] }).jBand x.1 .erasing) s

/-- Free blocks in percent of the good blocks of tier F: those in no band that holds or awaits anything (07 R218). -/
def State.freePct (s : State) : Nat :=
  let good := (List.range 32).foldl (fun n ch => n + s.getF F.FL_BLOCKS.GOOD ch) 0
  let used := (s.flash.bands.filter (fun x => x.2.st != .free)).foldl (fun n x =>
    n + ((s.bandBlocks x.1 x.2).filter (fun p => !(s.block p.1 p.2).retired)).length) 0
  (good - used) * 100 / max 1 good

/-- FULLING_WINDOW (07 R218): every 1 ms. -/
def execFullingWindow (at_ : Nat) (s : State) : Host.Outcome State Fault Refusal :=
  let s := s.tick at_
  .next (if s.flash.build.isNone || !(decide (11 < s.power.state) && decide (s.power.state < 16)) then s
    else
      let s := s.setMode s.freePct
      let s := if s.mayProgram && !(s.power.throttle && decide (s.get F.FL_FULL_STAT.MODE ≤ 1)) then s.refreshSpans.takeVictim.startErases else s
      s.relocateAll.checkReshape.planMoves.settle)

/-- ERASE_DONE (07 R220, R225): every block of the band has been erased; those that failed are retired. -/
def execEraseDone (band : Nat) (failed : List (Nat × Nat)) (at_ : Nat) (s : State) :
    Host.Outcome State Fault Refusal :=
  let s := s.tick at_
  .next (match SMap.find s.flash.bands band with
    | some x =>
      if x.st = .erasing then
        let bl := s.bandBlocks band x
        let s := bl.foldl (fun s p =>
          let k := s.block p.1 p.2
          s.putBlock p.1 p.2 { k with erases := k.erases + 1, reads := 0 }) s
        let s := (failed.filter (fun p => bl.contains p)).foldl (fun s p =>
          ((s.raiseAt F.FL_STATUS.ERASE_FAIL p.1).classCount 7 1).retireBlock p.1 p.2) s
        let free : Band := {
          st := .free, valid := 0, closeDt := 0, refresh := false, fulling := false, copied := 0,
          width := s.fWidth, next := 0 }
        let s := ((s.putBand band free).jBand band .free).bump F.FL_FULL_STAT.BANDS_ERASED 0 1
        s.planMoves.settle
      else s
    | none => s)

/-! Temperatures, registers (07 R229 to R231; 16 R423). -/

/-- Bin of a temperature in 1/8 °C (07 R229). -/
def tempBin (t : Int) : Nat :=
  if t < -280 then 0 else if 920 ≤ t then 31 else ((t + 320) / 40).toNat

/-- TEMP_SAMPLE (07 R229; 15 GB_TEMP): both sensors, once per second. -/
def execTempSample (lid junction : BitVec 12) (at_ : Nat) (s : State) : Host.Outcome State Fault Refusal :=
  let s := s.tick at_
  let add (l : List Nat) (t : BitVec 12) : List Nat :=
    l.set (tempBin t.toInt) (satAdd 32 (l.getD (tempBin t.toInt) 0) 1)
  let s := (s.put F.GB_TEMP.LID lid.toNat).put F.GB_TEMP.JUNCTION junction.toNat
  .next { s with flash := { s.flash with
    lidBins := add s.flash.lidBins lid, juncBins := add s.flash.juncBins junction } }

/-- FL_FULL_CTL written: refused unless CRIT_PCT < LOW_PCT < HIGH_PCT ≤ BG_PCT (07 R231). -/
def State.writeFull (s : State) (via : Via) (w : AccW) (v : Word) : State :=
  s.writeAt via .FL_FULL_CTL 0 w v (fun s =>
    let n := s.writeFields .FL_FULL_CTL 0 w v false
    if n.get F.FL_FULL_CTL.CRIT_PCT < n.get F.FL_FULL_CTL.LOW_PCT
        ∧ n.get F.FL_FULL_CTL.LOW_PCT < n.get F.FL_FULL_CTL.HIGH_PCT
        ∧ n.get F.FL_FULL_CTL.HIGH_PCT ≤ n.get F.FL_FULL_CTL.BG_PCT then n
    else s.raise F.FL_DEV_STATUS.CTL_REFUSED)

/-- FL_FULL_CTL_WRITE (07 R231). -/
def execFlFullCtlWrite (via : Via) (w : AccW) (v : Word) (at_ : Nat) (s : State) :
    Host.Outcome State Fault Refusal :=
  .next ((s.tick at_).writeFull via w v)

/-- FL_ERR_STAT_READ (07 Table 7.16). -/
def execFlErrStatRead (via : Via) (ch : Nat) (w : AccW) (s : State) : Host.Outcome State Fault Refusal :=
  .next (s.readCounters via .FL_ERR_STAT ch w [F.FL_ERR_STAT.CORRECTED, F.FL_ERR_STAT.UNCORRECTABLE])

/-- ZQ_CALIBRATION_TIMER (16 R423): the impedance of the flash interface is set again; it holds no value that
software sees. -/
def execZqCalibrationTimer (at_ : Nat) (s : State) : Host.Outcome State Fault Refusal :=
  let s := s.tick at_
  .next (if s.flash.build.isSome && decide (11 ≤ s.power.state) && decide (s.power.state ≤ 20) then
      { s with flash := { s.flash with zqAt := s.now } }
    else s)

/-- FL_MAP_STAT (07 Table 7.17). -/
def State.flMapStat (s : State) : Word :=
  word (min (2 ^ 28 - 1) s.flash.map.length + min (2 ^ 19 - 1) s.flash.fine.length * 2 ^ 28
    + pctOf s.flash.ring.length s.journalCap * 2 ^ 47)

/-- FL_HEALTH (07 Table 7.20, R228). -/
def State.flHealth (s : State) : Word :=
  let pct (n : Nat) : Nat := if s.ratedPe = 0 then 0 else min 255 (n * 100 / s.ratedPe)
  word (pctOf s.flash.spareLeft s.flash.spareFmt + pct s.meanErases * 2 ^ 8
    + pct ((s.flash.blocks.map (fun x => x.2.erases)).foldl max 0) * 2 ^ 16 + min (2 ^ 24 - 1) s.ratedPe * 2 ^ 24)

/-- FL_CLASS_COUNT of the selected class (07 R228). -/
def State.flClass (s : State) : Word := word (s.flash.classCounts.getD (s.get F.FL_CLASS_SEL.CLASS) 0)

/-- FL_TEMP_STAT of the selected bin (07 R229). -/
def State.flTemp (s : State) : Word :=
  let l := if s.get F.FL_TEMP_SEL.SENSOR = 0 then s.flash.lidBins else s.flash.juncBins
  word (l.getD (s.get F.FL_TEMP_SEL.BIN) 0)

end Sys2Proof.Machine
end

