-- ==== Sys2Proof/Machine/Queues.lean ====
section
/-! DEFINITION. Queues at work (09 R262 to R285): doorbells, fetch, the opcodes that are no engine's, completions, the
context cache, capture rings and QU_CMD. -/

namespace Sys2Proof.Machine

open Sys2Proof

/-! Stores of bytes. -/

/-- Byte enables of `n` bytes from byte `pos` of a line. -/
def beRange (pos n : Nat) : Word := word ((2 ^ n - 1) * 2 ^ pos)

/-- Bytes from a range offset on as stores of lines: offset of the line, byte enables, data. -/
def lineStores (off : Nat) (bs : List Byte) : List (Nat × Word × LineData) :=
  (List.range (lineOfOff (off + bs.length - 1) - lineOfOff off + 1)).map (fun k =>
    let l := lineOfOff off + k
    let a := max off (l * 64)
    let b := min (off + bs.length) (l * 64 + 64)
    let part := (bs.drop (a - off)).take (b - a)
    (l * 64, beRange (a % 64) (b - a), lineOfBytes (List.replicate (a % 64) 0#8 ++ part)))

/-- A request of a queue for one of its descriptors. -/
def State.submitQ (s : State) (x : Desc) (op : ReqOp) (off : Nat) : State :=
  match s.queue x.q with
  | some e => s.submit (queueSource x.q) (.queue x.q x.ix) op off e.tenant
  | none => s

/-- Bytes stored for a descriptor; every line is one part. `rev` stores the later lines first (09 R278). -/
def State.storeBytes (s : State) (x : Desc) (off : Nat) (bs : List Byte) (bad : Nat → Bool) (rev : Bool) : State :=
  let l := lineStores off bs
  let s := s.putDesc { x with st := .running l.length, more := false }
  let l := if rev then l.reverse else l
  l.foldl (fun s w => s.submitQ x (.write w.2.1 w.2.2 (bad w.1)) w.1) s

/-! The context cache (09 R276). -/

/-- A queue without a context asks for its entry from tier D. -/
def State.touchContext (s : State) (q : Nat) : State :=
  if s.queues.contexts.contains q || s.queues.ctxWait.contains q then s
  else
    ({ s with queues := { s.queues with ctxWait := insertSorted q s.queues.ctxWait } }).bump F.QU_CTX_STAT.MISSES 0 1

/-- The context that gives way: the one that the LFSR names, or the next free one above it. -/
def State.ctxPick (s : State) : Option Nat :=
  let l := s.queues.contexts
  let v := Config.ctxVictim s.freeIx % max 1 l.length
  (l.drop v ++ l.take v).find? (fun q => s.inFlight q == 0)

/-- A queue's context is loaded, after an eviction where the cache is full. -/
def State.loadContext (s : State) (q : Nat) : State :=
  let wait := removeNum q s.queues.ctxWait
  if s.queues.contexts.length < Config.maxContexts then
    { s with queues := { s.queues with contexts := s.queues.contexts ++ [q], ctxWait := wait } }
  else match s.ctxPick with
    | some v =>
      { s with
        freeIx := s.freeIx + 1,
        queues := { s.queues with
          contexts := s.queues.contexts.map (fun c => if c = v then q else c), ctxWait := wait } }
    | none => s

/-- CONTEXT_LOAD_DONE (09 R276): with every context busy the load waits on. -/
def execContextLoadDone (q at_ : Nat) (s : State) : Host.Outcome State Fault Refusal :=
  let s := s.tick at_
  .next (if s.queues.ctxWait.contains q then
      if SMap.has s.queues.table q then s.loadContext q
      else { s with queues := { s.queues with ctxWait := removeNum q s.queues.ctxWait } }
    else s)

/-! Completions (09 R274, R275). -/

/-- A completion entry of 16 bytes (09 Table 9.7). -/
def cqEntry (dt tag code flags head : Nat) : List Byte :=
  leBytes 8 dt ++ leBytes 4 tag ++ leBytes 1 code ++ leBytes 1 flags ++ leBytes 2 head

/-- A completion entry stored at CQ_TAIL for descriptor or ring record `x`; CQ_TAIL moves on. -/
def State.cqWrite (s : State) (x : Desc) (e : QEntry) (tag code flags : Nat) (notify : Bool) : State :=
  let bs := cqEntry s.now tag code (flags + bit e.cqPhase) e.sqHead
  let off := e.cqBase + 16 * e.cqTail
  let tail := (e.cqTail + 1) % 2 ^ e.cqLog2
  let s := s.putQueue x.q { e with cqTail := tail, cqPhase := if tail = 0 then !e.cqPhase else e.cqPhase }
  let s := (s.touchContext x.q).putDesc { x with st := .writing, notify := notify }
  (lineStores off bs).foldl (fun s w => s.submitQ x (.write w.2.1 w.2.2 false) w.1) s

/-- A ring record or entry of the device's own, as a descriptor. -/
def State.ownDesc (s : State) (q : Nat) : Desc × State :=
  let x : Desc := { q := q, ix := s.queues.nextIx, d := 0#512, st := .running 1, code := 0, stamp := s.now, own := true,
                    more := false, held := false, notify := false, got := [], res := [], engine := 0 }
  (x, { s with queues := { s.queues with descs := s.queues.descs ++ [x], nextIx := s.queues.nextIx + 1 } })

/-- A window completion (09 R280, R283). -/
def State.winWrite (s : State) (q : Nat) (e : QEntry) (tag : Nat) (restart : Bool) : State :=
  let (x, s) := s.ownDesc q
  s.cqWrite x e (tag % 2 ^ 32) 0 (2 + bit restart * 4) true

/-- Window completions that wait, written while the CQ has room. -/
def State.flushWindows (s : State) (q fuel : Nat) : State :=
  match fuel with
  | 0 => s
  | k + 1 =>
    match s.queue q, (s.cap q).done with
    | some e, n :: t =>
      if s.inFlight q < e.room then
        let s := s.putCap q { s.cap q with done := t }
        (s.winWrite q e n false).flushWindows q k
      else s
    | _, _ => s

/-- IRQ_COALESCE_TIMER (09 R275): IRQ_US after the first interrupt became pending. -/
def execIrqCoalesceTimer (q at_ : Nat) (s : State) : Host.Outcome State Fault Refusal :=
  let s := s.tick at_
  .next (match s.queue q, SMap.find s.queues.irq q with
    | some e, some (n, t) =>
      if n ≠ 0 ∧ e.irqUs ≠ 0 ∧ t + e.irqUs * 1000 ≤ s.now then s.sendVector q else s
    | _, _ => s)

/-! QU_CMD's end and STOP (09 Table 9.14). -/

/-- A QU command ends. -/
def State.endQu (s : State) (code : Nat) : State :=
  ((s.put F.QU_CMD.GO 0).put F.QU_CMD_STATUS.BUSY 0).put F.QU_CMD_STATUS.CODE code

/-- A STOPPING queue with nothing in flight is STOPPED, and a STOP that waits for it ends. -/
def State.checkStop (s : State) (q : Nat) : State :=
  match s.queue q with
  | some e =>
    if e.st = .stopping ∧ s.inFlight q = 0 then
      let s := s.putQueue q { e with st := .stopped }
      if s.queues.stopping.any (fun x => x.1 == q) then
        ({ s with queues := { s.queues with stopping := s.queues.stopping.filter (fun x => x.1 != q) } }).endQu 0
      else s
    else s
  | none => s

/-! Capture rings (09 R278 to R283). -/

/-- Ring size in 64 B units. -/
def QEntry.units (e : QEntry) : Nat := 2 ^ (e.ringLog2 - 6)

/-- Units of the ring that may be written. -/
def QEntry.freeUnits (e : QEntry) : Nat := e.units - 1 - (e.wrPtr + e.units - e.rdPtr) % e.units

/-- Window of a stamp: W = WINDOW_US × 1,000 ns. -/
def QEntry.windowOf (e : QEntry) (dt : Nat) : Nat := dt / (max 1 e.windowUs * 1000)

/-- Record types of 09 Table 9.9. -/
def recHeader (dt seq len ty flags : Nat) : List Byte :=
  leBytes 8 dt ++ leBytes 4 seq ++ leBytes 2 len ++ leBytes 1 ty ++ leBytes 1 flags

/-- A record zero-filled to whole units. -/
def padRecord (bs : List Byte) : List Byte := bs ++ List.replicate (ceilDiv bs.length 64 * 64 - bs.length) 0#8

/-- A WINDOW_END record. -/
def windowEnd (dt : Nat) (c : Closing) : List Byte :=
  padRecord (recHeader dt c.seq 48 2 (bit c.restart + bit c.stop * 2) ++ leBytes 4 c.win ++ leBytes 4 c.records
    ++ leBytes 4 c.dropped ++ leBytes 4 (~~~c.crc).toNat)

/-- A CAPTURE stamped and not placed yet. -/
def unplaced (x : Desc) : Bool :=
  !x.own && descOp x.d == 0x0A &&
    (match x.st with | .fetched | .loaded => true | .running _ => x.more | _ => false)

/-- A CAPTURE whose record is being stored. -/
def placing (x : Desc) : Bool :=
  !x.own && descOp x.d == 0x0A && (match x.st with | .running _ => !x.more | _ => false)

/-- The open window is closed: ring space for its WINDOW_END is taken, ahead of any later record (09 R280). -/
def State.closeWindow (s : State) (q : Nat) (e : QEntry) (stop : Bool) : State :=
  let c := s.cap q
  match c.window with
  | some n =>
    let k : Closing := { win := n, unit := e.wrPtr, seq := c.seq, records := c.records, dropped := c.dropped,
                         crc := c.crc, stop := stop, restart := false, ix := none }
    let s := s.putCap q { c with
      seq := c.seq + 1, window := none, records := 0, dropped := 0, crc := 0xFFFFFFFF#32,
      closings := c.closings ++ [k] }
    s.putQueue q { e with wrPtr := (e.wrPtr + 1) % e.units }
  | none => s

/-- A WINDOW_END is stored once every record of its window has completed. -/
def State.issueEnd (s : State) (q : Nat) (k : Closing) : State :=
  match s.queue q with
  | some e =>
    if k.ix.isSome || s.queues.descs.any (fun x => x.q == q && placing x && decide (e.windowOf x.stamp ≤ k.win)) then s
    else
      let (x, s) := s.ownDesc q
      let c := s.cap q
      let s := s.putCap q { c with
        closings := c.closings.map (fun y => if y.seq = k.seq then { y with ix := some x.ix } else y) }
      s.storeBytes x (e.ringBase + 64 * k.unit) (windowEnd s.now k) (fun _ => false) true
  | none => s

/-- WINDOW_ENDs whose records have completed go out, and a window that a STOP closes is closed once nothing stamped
waits. -/
def State.issueEnds (s : State) (q : Nat) : State :=
  let s := match s.queue q with
    | some e =>
      if (s.cap q).stopDue && !s.queues.descs.any (fun x => x.q == q && unplaced x) then
        let s := s.closeWindow q e true
        s.putCap q { s.cap q with stopDue := false }
      else s
    | none => s
  (s.cap q).closings.foldl (fun s k => s.issueEnd q k) s

/-- The oldest `n` closed windows released (09 R281, R282). -/
def State.releaseWindows (s : State) (q n : Nat) : State :=
  match s.queue q with
  | some e =>
    let c := s.cap q
    (match (c.closed.take n).getLast? with
     | some u => (s.putCap q { c with closed := c.closed.drop n }).putQueue q { e with rdPtr := u % e.units }
     | none => s)
  | none => s

/-- A line of a ring that this device can read now: its own copy, not poisoned. -/
def State.ringLine (s : State) (l : Nat) : Option LineData :=
  let b := boltOfLine l
  if s.isPair b && (s.mirrored b || s.isActive b) && !s.isPoison l then some (s.line l) else none

/-- Type and size in units of the record that a ring line starts. -/
def recShape (d : LineData) : Nat × Nat :=
  let len := bitsOf (lineWord d 1) 32 16
  ((lineByte d 14).toNat, ceilDiv (16 + len) 64)

/-- The ends of the closed windows between two ring units, read forward; a stretch that cannot be read is passed unit by
unit up to the next WINDOW_END (09 R282). -/
def State.scanClosed (s : State) (e : QEntry) (u left fuel : Nat) : List Nat :=
  match fuel with
  | 0 => []
  | k + 1 =>
    if left = 0 then []
    else
      let d := (s.ringLine (lineOfOff e.ringBase + u % e.units)).map recShape
      match d with
      | some (2, _) => (u + 1) % e.units :: s.scanClosed e ((u + 1) % e.units) (left - 1) k
      | some (1, n) | some (3, n) => s.scanClosed e ((u + max 1 n) % e.units) (left - max 1 n) k
      | _ => s.scanClosed e ((u + 1) % e.units) (left - 1) k

/-- After a restart the closed windows are found in the ring the first time they are needed. -/
def State.findClosed (s : State) (q : Nat) : State :=
  match s.queue q with
  | some e =>
    let c := s.cap q
    if c.scanned then s
    else
      let n := (e.wrPtr + e.units - e.rdPtr) % e.units
      -- a WINDOW_END still on its way closes its window when it is done
      let open_ := c.closings.map (fun k => (k.unit + 1) % e.units)
      s.putCap q { c with scanned := true, closed := (s.scanClosed e e.rdPtr n n).filter (fun u => !open_.contains u) }
  | none => s

/-- The fewest of the oldest closed windows whose release leaves `need` units free. -/
def QEntry.releaseFor (e : QEntry) (closed : List Nat) (need : Nat) : Option Nat :=
  ((List.range closed.length).map (fun k => k + 1)).find? (fun n =>
    match (closed.take n).getLast? with
    | some u => decide (need ≤ { e with rdPtr := u % e.units }.freeUnits)
    | none => false)

/-- A CAPTURE dropped (09 R281). One dropped while no window is open counts in the DROPPED of the next WINDOW_END; the spec does not
say which takes it (DESIGN CHOICE, log entry 107). -/
def State.dropCapture (s : State) (x : Desc) : State :=
  let c := s.cap x.q
  let s := s.putCap x.q { c with dropped := c.dropped + 1 }
  let s := (s.bump F.QU_CAP_STAT.DROPPED 0 1).raise F.QU_STATUS.CAP_DROP
  s.endDesc x.q x.ix 9

/-- The payload of a CAPTURE: its bytes, and whether byte `i` came from a poisoned line. -/
def capPayload (x : Desc) : List Byte × (Nat → Bool) :=
  let n := descLen x.d
  let o := descSrc x.d
  if o = 0 then ((List.range n).map (fun k => lineByte x.d (32 + k)), fun _ => false)
  else
    let at_ (k : Nat) : LineData × Bool := SMap.findD x.got (lineOfOff (o + k)) (0#512, false)
    ((List.range n).map (fun k => if (at_ k).2 then 0#8 else lineByte (at_ k).1 ((o + k) % 64)), fun k => (at_ k).2)

/-- A record, with the PAD before it where it would cross the ring's end, stored from WR_PTR on. -/
def State.placeRecord (s : State) (x : Desc) (e : QEntry) (pad : Nat) : State :=
  let c := s.cap x.q
  let w := e.windowOf x.stamp
  let (bs, bad) := capPayload x
  let padBytes := padRecord (recHeader x.stamp c.seq (pad * 64 - 16) 3 0)
  let padBytes := padBytes ++ List.replicate (pad * 64 - padBytes.length) 0#8
  let seq := if pad = 0 then c.seq else c.seq + 1
  let rec_ := padRecord (recHeader x.stamp seq bs.length 1 0 ++ bs)
  let u := if pad = 0 then e.wrPtr else 0
  let k := rec_.length / 64
  let s := s.putCap x.q { c with
    seq := seq + 1, window := some w, records := c.records + 1, crc := crcBytes c.crc rec_ }
  let s := s.putQueue x.q { e with wrPtr := (u + k) % e.units, winSeq := w % 2 ^ 32 }
  let first := e.ringBase + 64 * u
  let lineBad (l : Nat) : Bool :=
    (List.range 64).any (fun j => decide (first + 16 ≤ l + j) && decide (l + j < first + 16 + bs.length)
      && bad (l + j - first - 16))
  -- later lines first, the PAD before the record
  let recs := (lineStores first rec_).reverse
  let pads := if pad = 0 then [] else (lineStores (e.ringBase + 64 * e.wrPtr) padBytes).reverse
  let s := s.putDesc { x with st := .running (recs.length + pads.length), more := false, held := false }
  let s := pads.foldl (fun s y => s.submitQ x (.write y.2.1 y.2.2 false) y.1) s
  recs.foldl (fun s y => s.submitQ x (.write y.2.1 y.2.2 (lineBad y.1)) y.1) s

/-- A stamped CAPTURE is placed under FULL_MODE (09 R281). A window that has ended is closed before a later record is
placed. -/
def State.placeCapture (s : State) (x : Desc) : State :=
  match s.queue x.q with
  | none => s
  | some e =>
    let w := e.windowOf x.stamp
    let s := match (s.cap x.q).window with
      | some n => if n = w then s else (s.closeWindow x.q e false).issueEnds x.q
      | none => s
    match s.queue x.q with
    | none => s
    | some e =>
      let k := ceilDiv (16 + descLen x.d) 64
      let pad := if e.units < e.wrPtr + k then e.units - e.wrPtr else 0
      let need := k + pad + 1
      if need ≤ e.freeUnits then s.placeRecord x e pad
      else match e.fullMode with
        | 0 => s.putDesc { x with held := true }
        | 1 => s.dropCapture x
        | _ =>
          let s := s.findClosed x.q
          match e.releaseFor (s.cap x.q).closed need with
          | some n =>
            let s := s.releaseWindows x.q n
            let s := (s.bump F.QU_CAP_STAT.OVERWRITTEN 0 n).raise F.QU_STATUS.CAP_WRAP
            (match s.queue x.q with | some e => s.placeRecord x e pad | none => s)
          | none => s.dropCapture x

/-! Fetch (09 R268, R269). -/

/-- A queue has a descriptor to fetch and may fetch it. -/
def State.mayFetch (s : State) (q : Nat) (e : QEntry) : Bool :=
  e.st == .running && e.sqHead != e.sqTail && !s.queues.phaseStop.contains q
    && decide (s.inFlight q < Config.maxInFlight)
    && decide (s.inFlight q + (s.cap q).done.length + 1 ≤ e.room)
    && !s.queues.descs.any (fun x => x.q == q && !x.own && (x.st == .fetching || x.held))

/-- The next queue of a list after the last one served, in turn. -/
def nextInTurn (l : List Nat) (last : Nat) : Option Nat :=
  match l.find? (fun q => decide (last < q)) with
  | some q => some q
  | none => l.head?

/-- Weights of the fetch classes. -/
def classWeights : List Nat := [8, 4, 2, 1]

/-- The queue that fetches next, with the arbiter after it: the highest class with turns left among those with work,
each class in turn over its queues (09 R269; the order of the turns is a DESIGN CHOICE, log entry 34). -/
def State.arbitrate (s : State) (ready : List (Nat × Nat)) : Option Nat × State :=
  let classes := (List.range 4).filter (fun c => ready.any (fun x => x.2 == c))
  let turns := if classes.any (fun c => decide (0 < s.queues.arb.getD c 0)) then s.queues.arb else classWeights
  match classes.find? (fun c => decide (0 < turns.getD c 0)) with
  | some c =>
    let l := (ready.filter (fun x => x.2 == c)).map Prod.fst
    (match nextInTurn l (s.queues.lastOf.getD c 0) with
     | some q =>
       (some q, { s with queues := { s.queues with
         arb := turns.set c (turns.getD c 0 - 1), lastOf := s.queues.lastOf.set c q } })
     | none => (none, s))
  | none => (none, s)

/-- The line of the next descriptor of a queue is read as a read of the queue's source. -/
def State.fetchFrom (s : State) (q : Nat) (e : QEntry) : State :=
  let x : Desc := { q := q, ix := s.queues.nextIx, d := 0#512, st := .fetching, code := 0, stamp := s.now, own := false,
                    more := false, held := false, notify := false, got := [], res := [], engine := 0 }
  let s := { s with queues := { s.queues with descs := s.queues.descs ++ [x], nextIx := s.queues.nextIx + 1 } }
  s.submitQ x .read (e.sqBase + 64 * e.sqHead)

/-- DESCRIPTOR_FETCH (09 R268, R269): among the queues with work and room one fetches its next descriptor. A queue without
a context loads it first. -/
def execDescriptorFetch (at_ : Nat) (s : State) : Host.Outcome State Fault Refusal :=
  let s := s.tick at_
  .next (if !s.inService then s
    else
      let work := s.queues.table.filter (fun x => s.mayFetch x.1 x.2)
      let ready := (work.filter (fun x => s.queues.contexts.contains x.1)).map (fun x => (x.1, x.2.prio))
      if ready.isEmpty then (SMap.keys work).foldl State.touchContext s
      else
        match s.arbitrate ready with
        | (some q, s) => (match s.queue q with | some e => (s.fetchFrom q e).settle | none => s)
        | (none, s) => s)

/-! Doorbells (09 R266, R267). -/

/-- A doorbell error: its flag and the log. -/
def State.doorbellError (s : State) (via : Via) (q code : Nat) (f : FieldRef) : State :=
  (s.logQueue q code (viaPort via) (viaLd via)).raiseArg f 0 (.log .QU_ERR_LOG 0)

/-- The tenant on whose behalf a doorbell write passes: none for MGMT, which passes no check. -/
def State.doorbellAllowed (s : State) (via : Via) (e : QEntry) : Bool :=
  match via with
  | .mgmt => true
  | .host p l => SMap.find s.bay.ldTenant (p * 16 + l) == some e.tenant

/-- WIN_REL applied (09 R282). -/
def State.winRel (s : State) (via : Via) (q n : Nat) : State :=
  let s := s.findClosed q
  let k := (s.cap q).closed.length
  let s := s.releaseWindows q n
  if k < n then s.doorbellError via q 7 F.QU_STATUS.DB_BAD else s

/-- An admitted doorbell write on a queue, by the checks of R267 in order. -/
def State.ringDoorbell (s : State) (via : Via) (q : Nat) (v : Word) : State :=
  match s.queue q with
  | none => s.doorbellError via q 13 F.QU_STATUS.DB_INVALID
  | some e =>
    if !s.doorbellAllowed via e then s.doorbellError via q 12 F.QU_STATUS.DB_DENY
    else
      let n := 2 ^ e.sqLog2
      let m := 2 ^ e.cqLog2
      let setSq := v.getLsbD 16
      let setCq := v.getLsbD 48
      let setWin := v.getLsbD 63
      let tail := bitsOf v 0 16
      let head := bitsOf v 32 16
      let sqBad := setSq && (decide (n ≤ tail) ||
        decide ((tail + n - e.sqHead) % n < (e.sqTail + n - e.sqHead) % n))
      let cqBad := setCq && (decide (m ≤ head) ||
        decide ((e.cqTail + m - e.cqHead) % m < (head + m - e.cqHead) % m))
      if sqBad || cqBad then (s.queueError q 7 (viaPort via) (viaLd via)).raiseArg F.QU_STATUS.DB_BAD 0 (.log .QU_ERR_LOG 0)
      else
        let s := s.putQueue q { e with
          sqTail := if setSq then tail else e.sqTail, cqHead := if setCq then head else e.cqHead }
        let s := { s with queues := { s.queues with phaseStop := removeNum q s.queues.phaseStop } }
        let s := s.touchContext q
        let s := if !setWin then s
          else if e.capture then s.winRel via q (bitsOf v 49 14)
          else s.doorbellError via q 7 F.QU_STATUS.DB_BAD
        s.flushWindows q 64

/-- A doorbell word written; a 32-bit write is refused (09 R266). -/
def State.writeDoorbell (s : State) (via : Via) (q : Nat) (w : AccW) (v : Word) : State :=
  match s.checkPath via (0x2000000 + 8 * q) true with
  | .drop s => s
  | .serve s =>
    match w with
    | .full => (s.ringDoorbell via q v).settle
    | _ => s.doorbellError via q 7 F.QU_STATUS.DB_BAD

/-- DOORBELL_WRITE (09 R266, R267). -/
def execDoorbellWrite (via : Via) (q : Nat) (w : AccW) (v : Word) (at_ : Nat) (s : State) :
    Host.Outcome State Fault Refusal :=
  .next ((s.tick at_).writeDoorbell via q w v)

/-! Descriptors at work (09 R270 to R274). -/

/-- A descriptor may start: no earlier one of its queue still waits to start, but for a RUN or TILE_FETCH that waits for its
engine, and no earlier FENCE of the queue is unfinished (09 R272, Table 9.8). -/
def State.mayStart (s : State) (x : Desc) : Bool :=
  !s.queues.descs.any (fun y => y.q == x.q && !y.own && decide (y.ix < x.ix) &&
    ((y.st == .fetched && descOp y.d != 0x0B && descOp y.d != 0x09)
      || (descOp y.d == 0x04 && y.st != .writing)))

/-- A fetched descriptor of an opcode starts, with its queue's entry. -/
def State.startDesc (s : State) (q ix op : Nat) (act : QEntry → Desc → State → State) : State :=
  match s.desc q ix, s.queue q with
  | some x, some e =>
    if x.st == .fetched && descOp x.d == op && s.inService && s.mayStart x then (act e x s).settle else s
  | _, _ => s

/-- A piece of a COPY: the destination line it goes to (counted from the first), its place in it, its length, its source. -/
structure Piece where
  ix : Nat
  pos : Nat
  n : Nat
  src : Nat
  deriving DecidableEq, Repr

/-- The pieces of destination line `j` of a COPY: what of one or two source lines goes there. -/
def copyPieces (src dst len j : Nat) : List Piece :=
  let l := (lineOfOff dst + j) * 64
  let a := max dst l
  let b := min (dst + len) (l + 64)
  let o := src + (a - dst)
  let n := min (b - a) (64 - o % 64)
  if n < b - a then [⟨j, a % 64, n, o⟩, ⟨j, a % 64 + n, b - a - n, o + n⟩] else [⟨j, a % 64, n, o⟩]

/-- A store of a COPY put in its place behind the reads, waiting for its bytes. -/
def State.addAwaiting (s : State) (x : Desc) (e : QEntry) (off : Nat) (be : Word) (left : Nat) : State :=
  let r : Req := { id := s.bay.nextId, src := queueSource x.q, who := .queue x.q x.ix, op := .write be 0#512 false,
                   offset := off, tenant := e.tenant, since := none, st := .awaiting left }
  { s with bay := { s.bay with reqs := s.bay.reqs ++ [r], nextId := s.bay.nextId + 1 } }

/-- COPY started: every read, then the stores that wait for them (09 R270; 02 R89). -/
def State.startCopy (s : State) (x : Desc) (e : QEntry) : State :=
  let src := descSrc x.d
  let dst := descDst x.d
  let len := descLen x.d
  let n := lineOfOff (dst + len - 1) - lineOfOff dst + 1
  let lines := (List.range n).map (fun j => copyPieces src dst len j)
  let base := s.bay.nextId + lines.flatten.length
  let s := s.putDesc { x with st := .running n }
  let s := lines.flatten.foldl (fun s p => s.submitQ x (.copyTo (base + p.ix) (p.src % 64) p.n p.pos) p.src) s
  lines.zipIdx.foldl (fun s y =>
    let l := (lineOfOff dst + y.2) * 64
    let a := max dst l
    let b := min (dst + len) (l + 64)
    s.addAwaiting x e l (beRange (a % 64) (b - a)) y.1.length) s

/-- COPY (09 R270). -/
def execCopy (q ix at_ : Nat) (s : State) : Host.Outcome State Fault Refusal :=
  .next ((s.tick at_).startDesc q ix 0x01 (fun e x s => s.startCopy x e))

/-- FILL started: byte i takes byte (offset mod 8) of the value. -/
def State.startFillOp (s : State) (x : Desc) : State :=
  let dst := descDst x.d
  let len := descLen x.d
  let n := lineOfOff (dst + len - 1) - lineOfOff dst + 1
  let data := lineOfWords (List.replicate 8 (lineWord x.d 4))
  let s := s.putDesc { x with st := .running n }
  (List.range n).foldl (fun s j =>
    let l := (lineOfOff dst + j) * 64
    let a := max dst l
    let b := min (dst + len) (l + 64)
    s.submitQ x (.write (beRange (a % 64) (b - a)) data false) l) s

/-- FILL (09 R270). -/
def execFill (q ix at_ : Nat) (s : State) : Host.Outcome State Fault Refusal :=
  .next ((s.tick at_).startDesc q ix 0x02 (fun _ x s => s.startFillOp x))

/-- The parts of a range that lie in one bolt each: first byte and length. -/
def boltParts (lo n : Nat) : List (Nat × Nat) :=
  (rangeBolts lo n).map (fun b =>
    let a := max lo (b * 2 ^ 36)
    (a, min (lo + n) ((b + 1) * 2 ^ 36) - a))

/-- A descriptor's DST range carried out bolt by bolt, each part by the bolt's active owner. -/
def State.startParts (s : State) (x : Desc) : State :=
  let l := boltParts (descDst x.d) (descLen x.d)
  let s := s.putDesc { x with st := .running l.length }
  l.foldl (fun s p => s.submitQ x (.ctrl (descPart x.d (descSrc x.d) p.1 p.2)) p.1) s

/-- FLUSH (02 R82). -/
def execFlush (q ix at_ : Nat) (s : State) : Host.Outcome State Fault Refusal :=
  .next ((s.tick at_).startDesc q ix 0x03 (fun _ x s => s.startParts x))

/-- The parts of a range whose bolts this device is active for, of one tenant, would together pass a limit of 04 R136 or
R138: the check comes before any span changes. `over` is the check of a list of spans for a bolt. -/
def State.partsOver (s : State) (lo n : Nat) (cost : Nat × Nat → Nat) (limit use : Nat → Nat) : Bool :=
  let l := (boltParts lo n).filter (fun p => s.isActive (boltOfOff p.1))
  l.any (fun p =>
    let t := s.tenantOf (boltOfOff p.1)
    let sum := ((l.filter (fun y => s.tenantOf (boltOfOff y.1) == t)).map cost).foldl (· + ·) 0
    limit t != 0 && sum != 0 && decide (limit t < use t + sum))

/-- Frames of the spans of a part that lie in a tier. -/
def State.partFrames (s : State) (h : Home) (p : Nat × Nat) : Nat :=
  s.framesOf ((s.spansIn p.1 p.2).filter (fun sp => match s.span sp with | some r => r.home == h | none => false))

/-- MIGRATE to a tier beyond the tenant's quota ends at once (04 R136). -/
def State.startMigrate (s : State) (x : Desc) : State :=
  let lo := descDst x.d
  let n := descLen x.d
  let past := if descParam x.d = 1 then
      s.partsOver lo n (s.partFrames .p) (fun t => (s.quota t).f) (fun t => s.useIn .f t)
    else s.partsOver lo n (s.partFrames .f) (fun t => (s.quota t).p) (fun t => s.useIn .p t)
  if past then s.endDesc x.q x.ix 2 else s.startParts x

/-- MIGRATE (04 R136). -/
def execMigrate (q ix at_ : Nat) (s : State) : Host.Outcome State Fault Refusal :=
  .next ((s.tick at_).startDesc q ix 0x05 (fun _ x s => s.startMigrate x))

/-- Spans of a part that are not pinned to D. -/
def State.partUnpinned (s : State) (p : Nat × Nat) : Nat :=
  ((rangeSpans p.1 p.2).filter (fun sp => match s.span sp with | some r => r.pin != .d | none => true)).length

/-- PIN beyond the quota of its pin tier ends at once (04 R138). -/
def State.startPin (s : State) (x : Desc) : State :=
  let lo := descDst x.d
  let n := descLen x.d
  let past := if descParam x.d = 0 then
      s.partsOver lo n s.partUnpinned (fun t => (s.quota t).d) (fun t => s.pinnedSpans .d t)
    else s.partsOver lo n (s.partFrames .f) (fun t => (s.quota t).p) (fun t => s.useIn .p t)
  if past then s.endDesc x.q x.ix 2 else s.startParts x

/-- PIN (04 R137, R138). -/
def execPin (q ix at_ : Nat) (s : State) : Host.Outcome State Fault Refusal :=
  .next ((s.tick at_).startDesc q ix 0x06 (fun _ x s => s.startPin x))

/-- UNPIN (04 R137). -/
def execUnpin (q ix at_ : Nat) (s : State) : Host.Outcome State Fault Refusal :=
  .next ((s.tick at_).startDesc q ix 0x07 (fun _ x s => s.startParts x))

/-- DISCARD (07 R223). -/
def execDiscard (q ix at_ : Nat) (s : State) : Host.Outcome State Fault Refusal :=
  .next ((s.tick at_).startDesc q ix 0x08 (fun _ x s => s.startParts x))

/-- The descriptors that a FENCE waits for have completed: those fetched before it, of its queue, or with SCOPE 1 of every
queue of the tenant here (09 R272). -/
def State.fencePassed (s : State) (x : Desc) (e : QEntry) : Bool :=
  !s.queues.descs.any (fun y => !y.own && decide (y.ix < x.ix) && y.st != .writing && y.st != .fetching &&
    (y.q == x.q || (descParam x.d == 1 && (match s.queue y.q with | some f => f.tenant == e.tenant | none => false))))

/-- FENCE (09 R272). -/
def execFence (q ix at_ : Nat) (s : State) : Host.Outcome State Fault Refusal :=
  let s := s.tick at_
  .next (match s.desc q ix, s.queue q with
    | some x, some e =>
      if x.st == .fetched && descOp x.d == 0x04 && s.fencePassed x e then s.endDesc q ix 0 else s
    | _, _ => s)

/-- CAPTURE's payload is read from SRC before it takes ring space (09 R281). -/
def State.startPayload (s : State) (x : Desc) : State :=
  let src := descSrc x.d
  let n := lineOfOff (src + descLen x.d - 1) - lineOfOff src + 1
  let s := s.putDesc { x with st := .running n, more := true }
  (List.range n).foldl (fun s k => s.submitQ x .read ((lineOfOff src + k) * 64)) s

/-- CAPTURE (09 R279, R281): the payload is read where SRC names it, and the record placed, in the order of the stamps. A
CAPTURE that waits for ring space is tried again. -/
def execCapture (q ix at_ : Nat) (s : State) : Host.Outcome State Fault Refusal :=
  let s := s.tick at_
  .next (match s.desc q ix with
    | some x =>
      let first := !s.queues.descs.any (fun y => y.q == q && decide (y.ix < ix) && unplaced y)
      if descOp x.d != 0x0A || !s.mayStart x || !s.inService then s
      else if x.st == .fetched && descSrc x.d != 0 then (s.startPayload x).settle
      else if (x.st == .fetched || x.st == .loaded) && first then (s.placeCapture x).settle
      else s
    | none => s)

/-- VERIFY carried out bolt by bolt, on the device that each bolt's reads go to (09 R273). -/
def State.startVerifyOp (s : State) (x : Desc) : State :=
  let l := boltParts (descSrc x.d) (descLen x.d)
  let s := s.putDesc { x with st := .running l.length, more := true }
  l.foldl (fun s p => s.submitQ x (.ctrl (descPart x.d p.1 (descDst x.d) p.2)) p.1) s

/-- CRC-32C of a string followed by `n` bytes whose own CRC-32C is `b`: `n` zero bytes put through the register, then
the two combined. -/
def crcJoin (a b : BitVec 32) (n : Nat) : BitVec 32 :=
  let rec zeros (c : BitVec 32) (k : Nat) : BitVec 32 :=
    match k with
    | 0 => c
    | j + 1 => zeros (crcBits c (List.replicate 8 false)) j
  zeros a n ^^^ b

/-- The report of a VERIFY over several bolts: CRC, POISONED, FIRST, REPAIRED. -/
def joinReports (l : List (Nat × LineData)) : List Byte :=
  let r := l.foldl (fun (a : BitVec 32 × Nat × Nat × Nat) x =>
    let w0 := lineWord x.2 0
    (crcJoin a.1 (w0.setWidth 32) x.1, a.2.1 + bitsOf w0 32 32, min a.2.2.1 (lineWord x.2 1).toNat,
      a.2.2.2 + bitsOf (lineWord x.2 2) 0 32)) (0#32, 0, 0xFFFFFFFFFFFFFFFF, 0)
  leBytes 4 r.1.toNat ++ leBytes 4 r.2.1 ++ leBytes 8 r.2.2.1 ++ leBytes 4 r.2.2.2 ++ List.replicate 12 0#8

/-- The report is written to DST once every part is in. -/
def State.verifyReport (s : State) (x : Desc) : State :=
  let parts := boltParts (descSrc x.d) (descLen x.d)
  let l := parts.map (fun p =>
    (p.2, match x.res.find? (fun r => r.1 == p.1) with | some r => r.2.2 | none => 0#512))
  s.storeBytes x (descDst x.d) (joinReports l) (fun _ => false) false

/-- VERIFY (09 R273). -/
def execVerify (q ix at_ : Nat) (s : State) : Host.Outcome State Fault Refusal :=
  let s := s.tick at_
  .next (match s.desc q ix with
    | some x =>
      if x.st == .loaded && descOp x.d == 0x0C then (s.verifyReport x).settle
      else s.startDesc q ix 0x0C (fun _ x s => s.startVerifyOp x)
    | none => s)

/-- What follows when a descriptor of a queue is through: WINDOW_ENDs that waited for it, a STOP. -/
def State.afterDesc (s : State) (q : Nat) : State := ((s.issueEnds q).flushWindows q 64).checkStop q

/-- DESCRIPTOR_DONE (09 R274, R275): the completion entry is stored at CQ_TAIL, unless NO_CQE is set and the status is DONE.
No entry overtakes an earlier FENCE of its queue. -/
def execDescriptorDone (q ix at_ : Nat) (s : State) : Host.Outcome State Fault Refusal :=
  let s := s.tick at_
  .next (match s.desc q ix, s.queue q with
    | some x, some e =>
      let fenced := s.queues.descs.any (fun y => y.q == q && !y.own && decide (y.ix < ix) && descOp y.d == 0x04
        && y.st != .writing)
      if x.st != .ended || x.own || fenced then s
      else if descNoCqe x.d && x.code == 0 then ((s.delDesc q ix).afterDesc q).settle
      else
        let s := s.cqWrite x e (descTag x.d) x.code 0 (descIrq x.d || x.code != 0)
        (s.afterDesc q).settle
    | _, _ => s)

/-- CAPTURE_WINDOW_END (09 R280): DT reaches the end of a window that holds records; every CAPTURE stamped in it has been
placed first. -/
def execCaptureWindowEnd (q at_ : Nat) (s : State) : Host.Outcome State Fault Refusal :=
  let s := s.tick at_
  .next (match s.queue q, (s.cap q).window with
    | some e, some n =>
      let waits := s.queues.descs.any (fun x => x.q == q && unplaced x && decide (e.windowOf x.stamp ≤ n))
      if waits || decide (e.windowOf s.now ≤ n) then s
      else ((s.closeWindow q e false).issueEnds q).settle
    | _, _ => s)

/-- WINDOW_END_DONE (09 R280): the record has completed; its window is closed, the completion is written, and WR_PTR, RD_PTR
and SEQ are saved. The completion of a restart waits for START (09 R283). -/
def execWindowEndDone (q at_ : Nat) (s : State) : Host.Outcome State Fault Refusal :=
  let s := s.tick at_
  let c := s.cap q
  .next (match s.queue q, c.closings with
    | some e, k :: t =>
      (match k.ix.bind (s.desc q) with
       | some x =>
         if x.st != .ended then s
         else if x.code ≠ 0 then
           ((s.delDesc q x.ix).putCap q { c with closings := t }).queueError q x.code 0x7F 0
         else
           let u := (k.unit + 1) % e.units
           let s := (s.delDesc q x.ix).putCap q { c with
             closings := t, closed := if c.scanned then c.closed ++ [u] else c.closed,
             saved := (u, e.rdPtr, k.seq + 1),
             restarted := if k.restart then some k.win else c.restarted,
             done := if k.restart then c.done else c.done ++ [k.win] }
           ((s.issueEnds q).flushWindows q 64).settle
       | none => s)
    | _, _ => s)

/-- The records that a restart finds in a ring from the saved WR_PTR on: unit after them, SEQ after them, their number, the
RECORDs among them, the CRC register, the stamp of the last (09 R283). -/
structure Found where
  unit : Nat
  seq : Nat
  n : Nat
  records : Nat
  crc : BitVec 32
  dt : Nat
  deriving DecidableEq, Repr

/-- The ring read forward over records whose SEQ continues and whose TYPE is valid. -/
def State.scanRing (s : State) (e : QEntry) (f : Found) (fuel : Nat) : Found :=
  match fuel with
  | 0 => f
  | k + 1 =>
    match s.ringLine (lineOfOff e.ringBase + f.unit % e.units) with
    | none => f
    | some d =>
      let (ty, n) := recShape d
      if (lineWord d 1).toNat % 2 ^ 32 ≠ f.seq % 2 ^ 32 ∨ ty < 1 ∨ 3 < ty ∨ e.units < f.unit % e.units + n then f
      else
        let lines := (List.range n).map (fun j => s.ringLine (lineOfOff e.ringBase + f.unit % e.units + j))
        if lines.any (fun x => x.isNone) then f
        else
          let bs := (lines.filterMap id).flatMap lineBytes
          s.scanRing e { unit := (f.unit + n) % e.units, seq := f.seq + 1, n := f.n + 1,
                         records := f.records + bit (ty == 1),
                         crc := if ty = 1 then crcBytes f.crc bs else f.crc, dt := (lineWord d 0).toNat } k

/-- The restart of a capture ring (09 R283): records found are closed with one WINDOW_END, whose completion is written at
START. -/
def State.restartRing (s : State) (q : Nat) : State :=
  match s.queue q with
  | some e =>
    if !e.capture then s
    else
      let c := s.cap q
      let f0 : Found := { unit := c.saved.1, seq := c.saved.2.2, n := 0, records := 0, crc := 0xFFFFFFFF#32, dt := 0 }
      let f := s.scanRing e f0 e.units
      let base : Cap := { seq := f0.seq, saved := c.saved, scanned := false, restarted := c.restarted }
      let e := { e with wrPtr := f0.unit, rdPtr := c.saved.2.1 }
      if f.n = 0 then (s.putCap q base).putQueue q e
      else
        let w := e.windowOf f.dt
        let k : Closing := { win := w, unit := f.unit, seq := f.seq, records := f.records, dropped := 0, crc := f.crc,
                             stop := false, restart := true, ix := none }
        let s := s.putCap q { base with seq := f.seq + 1, closings := [k] }
        let s := s.putQueue q { e with wrPtr := (f.unit + 1) % e.units, winSeq := w % 2 ^ 32 }
        (s.issueEnds q).raise F.QU_STATUS.RESTART_CLOSE
  | none => s

/-- At power-up every queue is STOPPED, its SQ and CQ pointers zero and both phases 1; nothing is in flight (09 R265). -/
def State.queuesUp (s : State) : State :=
  { s with queues := { s.queues with
      table := s.queues.table.map (fun x => (x.1, { x.2 with
        st := .stopped, sqHead := 0, sqTail := 0, cqTail := 0, cqHead := 0, sqPhase := true, cqPhase := true,
        errCode := 0 })),
      contexts := [], ctxWait := [], descs := [], irq := [], stopping := [], phaseStop := [] } }

/-! QU_CMD (09 R285). -/

/-- A new queue from the words of CREATE, STOPPED. WIN_SEQ starts at 0 whatever ARG4 holds in word 6 [63:32]; the spec does not say
whether it is taken (DESIGN CHOICE, log entry 108). -/
def queueOf (a0 a1 a2 a3 a4 : Word) : QEntry :=
  { capture := a0.getLsbD 1, st := .stopped, prio := bitsOf a0 4 2, tenant := bitsOf a0 8 12, port := bitsOf a0 20 7,
    ld := bitsOf a0 28 4, vector := bitsOf a0 32 11, irqEn := a0.getLsbD 43, irqCount := bitsOf a0 48 8,
    irqUs := bitsOf a0 56 8, sqBase := bitsOf a1 0 56, sqLog2 := bitsOf a1 56 5, cqBase := bitsOf a2 0 56,
    cqLog2 := bitsOf a2 56 5, sqHead := 0, sqTail := 0, cqTail := 0, cqHead := 0, sqPhase := true, cqPhase := true,
    errCode := 0, ringBase := bitsOf a3 0 56, ringLog2 := bitsOf a3 56 6, fullMode := bitsOf a3 62 2,
    windowUs := bitsOf a4 0 24, winSeq := 0, wrPtr := 0, rdPtr := 0 }

/-- The rings of a queue: base and size in bytes. -/
def QEntry.rings (e : QEntry) : List (Nat × Nat) :=
  [(e.sqBase, 2 ^ (e.sqLog2 + 6)), (e.cqBase, 2 ^ (e.cqLog2 + 4))]
    ++ (if e.capture then [(e.ringBase, 2 ^ e.ringLog2)] else [])

/-- Two rings overlap. -/
def ringsMeet (l : List (Nat × Nat)) : Bool :=
  match l with
  | [] => false
  | r :: t => t.any (fun x => decide (r.1 < x.1 + x.2) && decide (x.1 < r.1 + r.2)) || ringsMeet t

/-- The first check of CREATE that fails (09 Table 9.14). A reserved bit set, and a ring named for a normal queue, fail with
the sizes (DEDUCED, log entry 35). -/
def State.createCode (s : State) (e : QEntry) (a0 a1 a2 a3 a4 : Word) : Nat :=
  let rsv := bitsOf a0 6 2 != 0 || a0.getLsbD 27 || bitsOf a0 44 4 != 0 || bitsOf a1 61 3 != 0 || bitsOf a2 61 3 != 0
    || bitsOf a4 24 8 != 0
  let sizes := decide (6 ≤ e.sqLog2 ∧ e.sqLog2 ≤ 16 ∧ 6 ≤ e.cqLog2 ∧ e.cqLog2 ≤ 16)
  let capOk := if e.capture then
      decide (20 ≤ e.ringLog2 ∧ e.ringLog2 ≤ 36 ∧ 10 ≤ e.windowUs ∧ e.windowUs ≤ 10000000 ∧ e.fullMode ≠ 3)
    else a3 == 0#64
  let host := decide (e.port < 96) && s.getF F.PT_CFG.WIDTH e.port != 0 && s.getF F.PT_CFG.PERSONALITY e.port == 1
  let attached := SMap.find s.bay.ldTenant (e.port * 16 + e.ld) == some e.tenant
  let placed := e.rings.all (fun r =>
    r.1 % 4096 == 0 && boltOfOff r.1 == boltOfOff (r.1 + r.2 - 1) && s.bound (boltOfOff r.1)
      && s.tenantOf (boltOfOff r.1) == e.tenant)
  if rsv || !sizes || !capOk then 7
  else if !s.bay.tenants.contains e.tenant || !attached || !host then 12
  else if !placed || ringsMeet e.rings then 13
  else if Config.maxQueues ≤ s.queues.table.length then 4
  else 0

/-- CREATE carried out. -/
def State.doCreate (s : State) (a0 a1 a2 a3 a4 : Word) : State :=
  let e := queueOf a0 a1 a2 a3 a4
  let c := s.createCode e a0 a1 a2 a3 a4
  if c ≠ 0 then s.endQu c
  else
    let q := lowestFreeFrom 0 (SMap.keys s.queues.table)
    let s := s.putQueue q e
    let s := if e.capture then s.putCap q {} else s
    (s.put F.QU_CMD_STATUS.RESULT q).endQu 0

/-- What is left of a queue's descriptors and rings goes with it. -/
def State.clearQueue (s : State) (q : Nat) (caps : Bool) : State :=
  { s with queues := { s.queues with
      descs := s.queues.descs.filter (fun x => x.q != q || (!caps && x.own)),
      irq := SMap.del s.queues.irq q,
      phaseStop := removeNum q s.queues.phaseStop,
      caps := if caps then SMap.del s.queues.caps q else s.queues.caps,
      contexts := if caps then removeNum q s.queues.contexts else s.queues.contexts,
      ctxWait := if caps then removeNum q s.queues.ctxWait else s.queues.ctxWait } }

/-- A command on an existing queue. -/
def State.doQueue (s : State) (op q : Nat) (e : QEntry) : State :=
  match op with
  | 0x02 =>
    if e.st = .stopped ∨ e.st = .error then
      let s := s.clearQueue q true
      ({ s with queues := { s.queues with table := SMap.del s.queues.table q } }).endQu 0
    else s.endQu 12
  | 0x03 =>
    if e.st = .stopped then
      let s := s.putQueue q { e with st := .running, sqPhase := true, cqPhase := true }
      let c := s.cap q
      let s := match c.restarted, s.queue q with
        | some w, some e => (s.putCap q { c with restarted := none }).winWrite q e w true
        | _, _ => s
      s.endQu 0
    else s.endQu 12
  | 0x04 =>
    (match e.st with
     | .error => s.endQu 12
     | .stopped => s.endQu 0
     | _ =>
       let s := s.putQueue q { e with st := .stopping }
       let s := if e.st = .running ∧ e.capture = true ∧ (s.cap q).window.isSome = true then
           (s.putCap q { s.cap q with stopDue := true }).issueEnds q
         else s
       let s := { s with queues := { s.queues with stopping := [(q, s.now)] } }
       s.checkStop q)
  | 0x05 =>
    if e.st = .stopped ∨ e.st = .error then
      let s := s.clearQueue q false
      (s.putQueue q { e with
        st := .stopped, sqHead := 0, sqTail := 0, cqTail := 0, cqHead := 0, sqPhase := true, cqPhase := true,
        errCode := 0 }).endQu 0
    else s.endQu 12
  | _ =>
    let s := ((s.setReg .QU_CMD_ARG0 0 e.word0).setReg .QU_CMD_ARG1 0 e.word3).setReg .QU_CMD_ARG2 0 (e.word4 (s.inFlight q))
    ((s.setReg .QU_CMD_ARG3 0 e.word6).setReg .QU_CMD_ARG4 0 e.word7).endQu 0

/-- A QU command starts (09 R285). -/
def State.startQu (s : State) (op : Nat) (a0 a1 a2 a3 a4 : Word) : State :=
  if s.isSet F.QU_CMD_STATUS.BUSY 0 then s.raise F.QU_STATUS.CMD_OVERRUN
  else
    let s := ((s.put F.QU_CMD.OP op).put F.QU_CMD.GO 1).put F.QU_CMD_STATUS.BUSY 1
    if op = 0x01 then s.doCreate a0 a1 a2 a3 a4
    else if op = 0 ∨ 6 < op then s.endQu 7
    else
      let q := bitsOf a0 0 22
      match s.queue q with
      | some e => ((s.put F.QU_CMD_STATUS.RESULT q).doQueue op q e).settle
      | none => s.endQu 13

/-- A QU command given on a path with its arguments. -/
def State.quCommand (s : State) (via : Via) (op : Nat) (args : List (Reg × Word)) : State :=
  s.command via .QU_CMD 0 args (word (op + 256)) (fun s =>
    s.startQu op (s.reg .QU_CMD_ARG0 0) (s.reg .QU_CMD_ARG1 0) (s.reg .QU_CMD_ARG2 0) (s.reg .QU_CMD_ARG3 0)
      (s.reg .QU_CMD_ARG4 0))

/-- CREATE. -/
def execCreate (via : Via) (a0 a1 a2 a3 a4 : Word) (at_ : Nat) (s : State) : Host.Outcome State Fault Refusal :=
  .next ((s.tick at_).quCommand via 0x01
    [(.QU_CMD_ARG0, a0), (.QU_CMD_ARG1, a1), (.QU_CMD_ARG2, a2), (.QU_CMD_ARG3, a3), (.QU_CMD_ARG4, a4)])

/-- DELETE. -/
def execDelete (via : Via) (a0 : Word) (at_ : Nat) (s : State) : Host.Outcome State Fault Refusal :=
  .next ((s.tick at_).quCommand via 0x02 [(.QU_CMD_ARG0, a0)])

/-- START. -/
def execQuStart (via : Via) (a0 : Word) (at_ : Nat) (s : State) : Host.Outcome State Fault Refusal :=
  .next ((s.tick at_).quCommand via 0x03 [(.QU_CMD_ARG0, a0)])

/-- STOP. -/
def execQuStop (via : Via) (a0 : Word) (at_ : Nat) (s : State) : Host.Outcome State Fault Refusal :=
  .next ((s.tick at_).quCommand via 0x04 [(.QU_CMD_ARG0, a0)])

/-- QU_STOP_TIMEOUT: the queue stays STOPPING. -/
def execQuStopTimeout (at_ : Nat) (s : State) : Host.Outcome State Fault Refusal :=
  let s := s.tick at_
  .next (match s.queues.stopping with
    | (_, t) :: _ =>
      if t + s.fwdTimeoutNs ≤ s.now then ({ s with queues := { s.queues with stopping := [] } }).endQu 11 else s
    | [] => s)

/-- RESET. -/
def execQuReset (via : Via) (a0 : Word) (at_ : Nat) (s : State) : Host.Outcome State Fault Refusal :=
  .next ((s.tick at_).quCommand via 0x05 [(.QU_CMD_ARG0, a0)])

/-- READ_ENTRY. -/
def execQuReadEntry (via : Via) (a0 : Word) (at_ : Nat) (s : State) : Host.Outcome State Fault Refusal :=
  .next ((s.tick at_).quCommand via 0x06 [(.QU_CMD_ARG0, a0)])

/-- QU_CTX_STAT as read (09 Table 9.12). -/
def State.ctxStat (s : State) : Word :=
  word (s.queues.contexts.length % 2 ^ 17 + s.get F.QU_CTX_STAT.MISSES * 2 ^ 32)

/-- QU_CTX_STAT_READ. -/
def execQuCtxStatRead (via : Via) (w : AccW) (s : State) : Host.Outcome State Fault Refusal :=
  .next (s.readAt via .QU_CTX_STAT 0 w s.ctxStat (fun s => s.clearRead F.QU_CTX_STAT.MISSES 0 w))

/-- QU_CAP_STAT_READ. -/
def execQuCapStatRead (via : Via) (w : AccW) (s : State) : Host.Outcome State Fault Refusal :=
  .next (s.readCounters via .QU_CAP_STAT 0 w [F.QU_CAP_STAT.DROPPED, F.QU_CAP_STAT.OVERWRITTEN])

/-- QU_COUNT as read (09 Table 9.12). -/
def State.quCount (s : State) : Word :=
  word (s.queues.table.length % 2 ^ 23
    + (s.queues.table.filter (fun x => x.2.st == .running)).length % 2 ^ 23 * 2 ^ 23)

end Sys2Proof.Machine
end

