-- ==== Sys2Proof/Machine/Messages.lean ====
section
/-! DEFINITION. The gated link messages (11 Table 11.7; 03 R107, R108) and the control messages: what each does once the
claim gate has let it pass. -/

namespace Sys2Proof.Machine

open Sys2Proof

/-- A descriptor's part for this device: at the standby its own part, in the order of the bolt's stream; at an owner the
whole of it, as a request of the sender's source (11 R322). -/
def State.takeDesc (s : State) (h : Hdr) (d : LineData) : State :=
  let b := boltOfOff h.offset
  if h.src = s.twinId ∧ s.isPair b = true ∧ s.isActive b = false ∧ descOp d ≠ 0x0C then
    if 16 ≤ s.power.state then s.reply h 8 false (.ctrlCmp [])
    else (s.submit streamSource (.mirror h.src h.port h.tag) (.ctrl d) h.offset (s.tenantOf b)).settle
  else
    (s.submit (remoteSource h.src h.source) (.remote h.src h.port h.tag h.source) (.ctrl d) h.offset (s.tenantOf b)).settle

/-- A bolt or tenant command that another device hands on (01 R49; log entry 4). With its third argument 1 a tenant
command is the news of one carried out, with 2 the question whether an LD of the tenant is attached there. -/
def State.takeBl (s : State) (h : Hdr) (op : Nat) (a0 a1 a2 : Word) : State :=
  if op = 0x10 ∧ a2 = 1#64 then s.addTenant (bitsOf a0 0 12)
  else if op = 0x11 ∧ a2 = 1#64 then s.dropTenant (bitsOf a0 0 12)
  else if op = 0x11 ∧ a2 = 2#64 then
    s.reply h (if s.bay.ldTenant.any (fun x => x.2 == bitsOf a0 0 12) then 12 else 0) false (.ctrlCmp [])
  else
    match s.doBl op a0 a1 a2 (some h) with
    | (s, some e) => (s.reply h e.code false (.ctrlCmp e.res)).settle
    | (s, none) => s.settle

/-- An answer to the question whether an LD of a tenant is attached; with the last one the TENANT_DELETE ends (01 R49). -/
def State.takeTenantAnswer (s : State) (t : TenantDel) (tag code : Nat) : State :=
  let t := { t with waits := removeNum tag t.waits, denied := t.denied || code != 0 }
  if !t.waits.isEmpty then { s with bay := { s.bay with tenantDel := some t } }
  else
    let s := { s with bay := { s.bay with tenantDel := none } }
    let (s, e) := if t.denied then (s, CmdEnd.of 12) else s.deleteTenant t.tenant
    match t.asker with
    | some h => s.reply h e.code false (.ctrlCmp e.res)
    | none => s.endBl 0x11 e

/-- What a message does once it has passed the gate. -/
def State.takeGated (s : State) (h : Hdr) (p : Payload) : State :=
  match p with
  | .mirrorWr be data => s.takeMirror h be data
  | .fwdRd n => s.takeRead h n false
  | .fwdWr be data => s.takeWrite h be data
  | .ctrlReq (.desc d) => s.takeDesc h d
  | .ctrlReq (.bl op a0 a1 a2) => s.takeBl h op a0 a1 a2
  | .repairRd n => s.takeRead h n true
  | .boltUpdate e => s.takeEntry h e
  | .rejoinCopy empty pmap lines => s.takeCopy h empty pmap lines
  | .handover l => s.takeHandover l
  | _ => s

/-- A message that has passed the gate acts here, or goes on to its destination. -/
def State.arrive (s : State) (h : Hdr) (p : Payload) : State :=
  if h.dst = s.devId then s.takeGated h p else s.sendThrough h p

/-- A message passes the gate and acts. -/
def State.passGate (s : State) (h : Hdr) (p : Payload) : State := s.gate h p (fun s => s.arrive h p)

/-- A gated message comes in: the gate stands at the output of the receiver, for what is addressed here and for what passes
through (03 R107). -/
def State.receiveGated (s : State) (h : Hdr) (p : Payload) : State :=
  if !s.linkServes h then s else (s.countRx h.port (32 + payloadLen p)).passGate h p

/-- What was held for an entry that has come is looked at again (03 R108). -/
def State.releaseGate (s : State) : State :=
  let due (g : GateHeld) : Bool := (gateClaims g.hdr g.body).all (fun x => decide (x.2 ≤ (s.entry x.1).claim))
  let l := s.bay.gateHeld.filter due
  let s := { s with bay := { s.bay with gateHeld := s.bay.gateHeld.filter (fun g => !due g) } }
  l.foldl (fun s g => s.passGate g.hdr g.body) s

/-- CTRL_CMP (11 R322): the end of a forwarded part, of the standby's part, or of a BL command handed on. -/
def State.takeCtrlCmp (s : State) (h : Hdr) (res : List Word) : State :=
  match s.forwardedReq h with
  | some r =>
    (if h.status = 3 then s.staleForward r h.src
     else if s.twin.st == .isolated && (s.stopsAt (reqBolt r)).isSome then s.hold r .isolated
     else
       let (c, s) := s.namedCode h.status
       s.finish r c (lineOfWords res) false).settle
  | none =>
    match s.bay.reqs.find? (fun r => match r.st with | .ctrl _ true t _ => t == h.tag | _ => false) with
    | some r =>
      let (c, s) := s.namedCode h.status
      (s.endCtrl r.id true c).settle
    | none =>
      match s.bay.tenantDel.filter (fun t => t.waits.contains h.tag) with
      | some t => (s.takeTenantAnswer t h.tag h.status).settle
      | none =>
        match s.bay.blBusy with
        | some c =>
          if c.tag = some h.tag then
            let (k, s) := s.namedCode h.status
            (s.endBl c.op { code := k, res := res }).settle
          else s
        | none => s

/-- MIRROR_WR (02 R53, R54). -/
def execMirrorWr (h : Hdr) (be : Word) (data : LineData) (at_ : Nat) (s : State) : Host.Outcome State Fault Refusal :=
  .next ((s.tick at_).receiveGated h (.mirrorWr be data))

/-- FWD_RD (01 R39). -/
def execFwdRd (h : Hdr) (lines at_ : Nat) (s : State) : Host.Outcome State Fault Refusal :=
  .next ((s.tick at_).receiveGated h (.fwdRd lines))

/-- FWD_WR (01 R39). -/
def execFwdWr (h : Hdr) (be : Word) (data : LineData) (at_ : Nat) (s : State) : Host.Outcome State Fault Refusal :=
  .next ((s.tick at_).receiveGated h (.fwdWr be data))

/-- CTRL_REQ (11 R322). Commands that name no bound bolt pass no gate. -/
def execCtrlReq (h : Hdr) (op : CtrlOp) (at_ : Nat) (s : State) : Host.Outcome State Fault Refusal :=
  let gated : Bool := match op with | .desc _ => true | .bl o _ _ _ => o == 2 || o == 3 || o == 4
  .next (if gated then (s.tick at_).receiveGated h (.ctrlReq op)
    else (s.tick at_).receive h (.ctrlReq op) (fun s => s.takeGated h (.ctrlReq op)))

/-- CTRL_CMP. -/
def execCtrlCmp (h : Hdr) (res : List Word) (at_ : Nat) (s : State) : Host.Outcome State Fault Refusal :=
  .next ((s.tick at_).receive h (.ctrlCmp res) (fun s => s.takeCtrlCmp h res))

/-- REPAIR_RD (02 R79). -/
def execRepairRd (h : Hdr) (lines at_ : Nat) (s : State) : Host.Outcome State Fault Refusal :=
  .next ((s.tick at_).receiveGated h (.repairRd lines))

/-- BOLT_UPDATE (01 R23, R24; 03 R108, R109). -/
def execBoltUpdate (h : Hdr) (e : BoltEntry) (at_ : Nat) (s : State) : Host.Outcome State Fault Refusal :=
  .next ((((s.tick at_).receiveGated h (.boltUpdate e)).releaseGate).settle)

/-- HANDOVER (03 Table 3.7). -/
def execHandover (h : Hdr) (l : List (Nat × Nat)) (at_ : Nat) (s : State) : Host.Outcome State Fault Refusal :=
  .next ((s.tick at_).receiveGated h (.handover l))

/-- REJOIN_COPY (03 R124, R125). -/
def execRejoinCopy (h : Hdr) (empty : Bool) (pmap : Word) (lines : List LineData) (at_ : Nat) (s : State) :
    Host.Outcome State Fault Refusal :=
  .next ((s.tick at_).receiveGated h (.rejoinCopy empty pmap lines))

end Sys2Proof.Machine
end

