-- ==== Sys2Proof/Machine/Engines.lean ====
section
/-! DEFINITION. Engines at work (10 R286 to R306): jobs, program containers, the layer-fence contract, the result block, and
faults and stops. -/

namespace Sys2Proof.Machine

open Sys2Proof

/-! Program containers (10 R292, R293). -/

/-- `n` bytes of a byte string from `i` on as a number. -/
def bytesNat (bs : List Byte) (i n : Nat) : Nat := leNat ((bs.drop i).take n)

/-- `n` bytes of a byte string from `i` on are zero. -/
def bytesZero (bs : List Byte) (i n : Nat) : Bool := ((bs.drop i).take n).all (fun b => b == 0#8)

/-- Two-byte indices from `i` on. -/
def indexList (bs : List Byte) (i n : Nat) : List Nat := (List.range n).map (fun k => bytesNat bs (i + 2 * k) 2)

/-- A layer entry read (10 Table 10.3). -/
def layerOf (bs : List Byte) (off : Nat) : LayerE :=
  { kernel := bytesNat bs off 1, ops := indexList bs (off + 8) (min 6 (bytesNat bs (off + 1) 1)),
    outs := indexList bs (off + 20) (min 4 (bytesNat bs (off + 2) 1)), param := bytesNat bs (off + 4) 4 }

/-- A tile descriptor read (10 Table 10.4). -/
def tileOfDesc (bs : List Byte) (off : Nat) : TileD :=
  { slot := bytesNat bs off 1, kind := bytesNat bs (off + 1) 1, layout := bytesNat bs (off + 2) 1,
    esize := bytesNat bs (off + 3) 1, argIndex := bytesNat bs (off + 4) 1, trim := bytesNat bs (off + 5) 1 == 1,
    offset := bytesNat bs (off + 8) 8, pitch := bytesNat bs (off + 16) 4, cols := bytesNat bs (off + 20) 4 }

/-- CRC-32C of a container with its CRC field taken as zero. -/
def containerCrc (bs : List Byte) : Nat := (crc32c (bs.take 60 ++ leBytes 4 0 ++ bs.drop 64)).toNat

/-- A table of `n` entries of `size` bytes at `off` lies inside the container. -/
def tableInside (len off n size : Nat) : Bool := off % 64 == 0 && decide (off + n * size ≤ len)

/-- The header is in range (10 Table 10.2). -/
def headerOk (bs : List Byte) : Bool :=
  let len := bytesNat bs 36 4
  let layers := bytesNat bs 2 2
  let tiles := bytesNat bs 4 2
  let kernels := bytesNat bs 6 1
  bytesNat bs 0 2 == 1 && decide (1 ≤ layers ∧ layers ≤ 4096) && decide (1 ≤ tiles) && decide (kernels ≤ 64)
    && decide (bytesNat bs 7 1 < 2) && decide (16 ≤ bytesNat bs 12 1 ∧ bytesNat bs 12 1 ≤ 40) && bytesZero bs 13 3
    && bytesZero bs 40 20 && decide (64 ≤ len ∧ len ≤ 2 ^ 24)
    && tableInside len (bytesNat bs 16 4) layers 32 && tableInside len (bytesNat bs 20 4) tiles 32
    && tableInside len (bytesNat bs 24 4) kernels 16 && tableInside len (bytesNat bs 28 4) 0 0
    && tableInside len (bytesNat bs 32 4) 0 0

/-- Kernel entries: their code lies in a code region of at most 256 KiB inside the container, their entry in their code. -/
def kernelEntriesOk (bs : List Byte) : Bool :=
  let len := bytesNat bs 36 4
  let code := bytesNat bs 32 4
  (List.range (bytesNat bs 6 1)).all (fun k =>
    let o := bytesNat bs 24 4 + 16 * k
    let a := bytesNat bs o 4
    let n := bytesNat bs (o + 4) 4
    decide (a + n ≤ 262144 ∧ code + a + n ≤ len ∧ bytesNat bs (o + 8) 4 < n) && bytesZero bs (o + 12) 4)

/-- The bytes of a layer entry that are fixed. -/
def layerRaw (bs : List Byte) (off : Nat) : Bool :=
  decide (bytesNat bs (off + 1) 1 ≤ 6) && decide (bytesNat bs (off + 2) 1 ≤ 4) && bytesZero bs (off + 3) 1
    && bytesZero bs (off + 28) 4

/-- The bytes of a tile descriptor that are fixed. -/
def tileRaw (bs : List Byte) (off : Nat) : Bool :=
  decide (bytesNat bs off 1 < 16) && decide (bytesNat bs (off + 1) 1 < 5) && decide (bytesNat bs (off + 2) 1 < 3)
    && decide (bytesNat bs (off + 3) 1 ≤ 4) && decide (bytesNat bs (off + 5) 1 < 2) && bytesZero bs (off + 6) 2
    && bytesZero bs (off + 24) 8

/-- The container that a byte string holds; `none` where R293 ends the job before a layer is looked at. -/
def readContainer (bs : List Byte) : Option Container :=
  if !headerOk bs || containerCrc bs != bytesNat bs 60 4 || !kernelEntriesOk bs then none
  else
    let nl := bytesNat bs 2 2
    let nt := bytesNat bs 4 2
    let lo := bytesNat bs 16 4
    let td := bytesNat bs 20 4
    let po := bytesNat bs 28 4
    if !(List.range nl).all (fun k => layerRaw bs (lo + 32 * k)) || !(List.range nt).all (fun k => tileRaw bs (td + 32 * k))
    then none
    else
      let layers := (List.range nl).map (fun k => layerOf bs (lo + 32 * k))
      if layers.any (fun l => decide (bytesNat bs 36 4 < po + l.param + 32)) then none
      else some {
        layers := layers, tiles := (List.range nt).map (fun k => tileOfDesc bs (td + 32 * k)), kernels := bytesNat bs 6 1,
        tolerant := bytesNat bs 7 1 == 1, deadlineUs := bytesNat bs 8 4, cyclesLog2 := bytesNat bs 12 1,
        params := layers.map (fun l => (bs.drop (po + l.param)).take 32) }

/-- A tile descriptor of a container. -/
def Container.tile (c : Container) (i : Nat) : TileD :=
  c.tiles.getD i { slot := 0, kind := 0, layout := 0, esize := 0, argIndex := 0, trim := false, offset := 0, pitch := 0, cols := 0 }

/-- A layer of a container. -/
def Container.layer (c : Container) (n : Nat) : LayerE := c.layers.getD n { kernel := 0, ops := [], outs := [], param := 0 }

/-- Operand tiles of a layer. -/
def Container.opTiles (c : Container) (n : Nat) : List TileD := (c.layer n).ops.map c.tile

/-- Output tiles of a layer. -/
def Container.outTiles (c : Container) (n : Nat) : List TileD := (c.layer n).outs.map c.tile

/-- Slots of a layer. -/
def Container.slots (c : Container) (n : Nat) : List Nat := (c.opTiles n ++ c.outTiles n).map (fun t => t.slot)

/-- Output slots of a layer. -/
def Container.outSlots (c : Container) (n : Nat) : List Nat := (c.outTiles n).map (fun t => t.slot)

/-- The output is written back. -/
def TileD.writes (t : TileD) : Bool := t.kind == 2 || t.kind == 4

/-- The output stays in its slot. -/
def TileD.keeps (t : TileD) : Bool := t.kind == 3 || t.kind == 4

/-- The layer is an SCT layer. -/
def Container.isSct (c : Container) (n : Nat) : Bool := (c.layer n).kernel == 0x09

/-- The layer is a GTH layer. -/
def Container.isGth (c : Container) (n : Nat) : Bool := (c.layer n).kernel == 0x08

/-- A layer meets R293: kernel, counts, indices, kinds, slots and ARG_INDEX. -/
def Container.layerOk (c : Container) (n words : Nat) : Bool :=
  let l := c.layer n
  let user := decide (0x80 ≤ l.kernel)
  let named (t : TileD) : Bool := t.argIndex == 0xFF || decide (t.argIndex < words)
  (if user then decide (l.kernel < 0x80 + c.kernels) else kernelLimits l.kernel l.ops.length l.outs.length)
    && (l.ops ++ l.outs).all (fun i => decide (i < c.tiles.length))
    && (c.opTiles n).all (fun t => decide (t.kind < 2) && (t.kind == 1 || named t))
    && (c.outTiles n).all (fun t => decide (2 ≤ t.kind) && (t.kind == 3 || named t))
    && (nub (c.slots n)).length == (c.slots n).length

/-- Slots that layers from `from_` up to `n` have made KEEP. -/
def Container.kept (c : Container) (from_ n : Nat) : List Nat :=
  (List.range (n - from_)).flatMap (fun k => ((c.outTiles (from_ + k)).filter TileD.keeps).map (fun t => t.slot))

/-- RESIDENT operands of layers from `from_` on that are neither made KEEP before nor valid at the start. -/
def Container.residentOk (c : Container) (from_ : Nat) (valid : Nat → Bool) : Bool :=
  (List.range (c.layers.length - from_)).all (fun k =>
    ((c.opTiles (from_ + k)).filter (fun t => t.kind == 1)).all (fun t =>
      (c.kept from_ (from_ + k)).contains t.slot || valid t.slot))

/-- The checks of R293 on a container read: the code that ends the job, 0 where it may run. -/
def Container.check (c : Container) (resume words : Nat) (valid : Nat → Bool) : Nat :=
  if !(List.range c.layers.length).all (fun n => c.layerOk n words) || decide (c.layers.length ≤ resume)
    || !c.residentOk resume valid then 7 else 0

/-! Tiles of a job. -/

/-- Base of a tile: ARG[ARG_INDEX] + OFFSET, or OFFSET alone. -/
def Run.base (r : Run) (t : TileD) : Nat :=
  if t.argIndex = 0xFF then t.offset else (r.args.getD t.argIndex 0 + t.offset) % 2 ^ 64

/-- Where a tile of a job lies. -/
def Run.geom (r : Run) (t : TileD) : Option TileGeom := tileGeom t.layout t.esize t.pitch t.cols (r.base t)

/-- Some byte of the tile lies from `lo` up to `hi - 1`. -/
def TileGeom.meets (g : TileGeom) (lo hi : Nat) : Bool :=
  let i := if g.pitch = 0 then 0 else (lo - g.base) / g.pitch
  [i, i + 1].any (fun k =>
    decide (k < g.rows) && decide (g.base + k * g.pitch < hi) && decide (lo < g.base + k * g.pitch + g.rowBytes))

/-- Two tiles share a byte. -/
def TileGeom.overlaps (a b : TileGeom) : Bool :=
  (List.range a.rows).any (fun i => b.meets (a.base + i * a.pitch) (a.base + i * a.pitch + a.rowBytes))

/-- An operand's tile overlaps one that layer `n` writes (10 R296). -/
def Run.hits (r : Run) (g : TileGeom) (n : Nat) : Bool :=
  ((r.prog.outTiles n).filter TileD.writes).any (fun t => (r.geom t).any (fun w => g.overlaps w))

/-- The device that serves a tile's bolt for a source. -/
def State.tileTarget (s : State) (src off : Nat) : Nat :=
  s.target { id := s.bay.nextId, src := src, who := .device, op := .tile 1 64 0, offset := off, tenant := 0, since := none,
             st := .behind }

/-- Bytes of the range as a queue's job reads them: this device's copy, or what another device answered; with whether a line
of them is poisoned. `none` while no answer is there. -/
def State.jobBytes (s : State) (q off n : Nat) (src : TileSrc) : Option (List Byte × Bool) :=
  if n = 0 then some ([], false)
  else if s.tileTarget (queueSource q) off = s.devId then
    some (readBytes s.mem off n,
      (List.range (lineOfOff (off + n - 1) - lineOfOff off + 1)).any (fun k => s.isPoison (lineOfOff off + k)))
  else match src with
    | .remote t => some ((List.range n).map (tileByte t), !t.poison.isEmpty)
    | .here => none

/-- A line that a queue operation reads at this device passes the Crown: a hit, or a miss that allocates it and may raise the heat of
its span (05 R156, R166; 04 R132). -/
def State.readLine (s : State) (l : Nat) : State :=
  let s := s.useSpan (spanOfLine l)
  match s.cellAt l with
  | some _ => (s.bump F.CR_HIT_STAT.HITS 0 1).readBeats l
  | none =>
    let s := s.bump F.CR_HIT_STAT.MISSES 0 1
    let s := if s.reachesTier l then s.heat (spanOfLine l) else s
    if s.crownStopped l then s
    else match s.allocCrown l false false with
      | some s => s
      | none => s

/-- The lines of a run of bytes that a queue's job reads, where they lie on this device. -/
def State.readRun (s : State) (q off n : Nat) : State :=
  if n = 0 ∨ s.tileTarget (queueSource q) off ≠ s.devId then s
  else (List.range (lineOfOff (off + n - 1) - lineOfOff off + 1)).foldl (fun s k => s.readLine (lineOfOff off + k)) s

/-- A tile as this device assembles it, with its poison marks (04 R148 to R150). -/
def State.localTile (s : State) (g : TileGeom) : Tile :=
  let lines := (List.range 4096).map (fun k => (k, lineOfOff (g.at (64 * k))))
  { bytes := lines.flatMap (fun x =>
      ((List.range 64).map (fun j => (64 * x.1 + j, readByte s.mem (64 * x.2 + j)))).filter (fun y => y.2 != 0#8)),
    poison := (lines.filter (fun x => s.isPoison x.2)).map Prod.fst }

/-- Frames of a tile that have to be read from tier P or F: a line of them lies neither in the Crown nor in tier D. -/
def State.tileMedia (s : State) (g : TileGeom) : List Nat :=
  nub (((List.range 4096).map (fun k => lineOfOff (g.at (64 * k)))).filterMap (fun l =>
    if (s.cellAt l).isSome || s.inTierD l || !s.written (frameOfLine l) then none else some (frameOfLine l)))

/-- A tile fetch raises the heat of the spans it touches (04 R132). -/
def State.heatTile (s : State) (g : TileGeom) : State :=
  s.heatLines ((List.range 4096).map (fun k => lineOfOff (g.at (64 * k))))

/-! Fetches (10 R296, R297). -/

/-- Operands of layer `n` that are fetched and neither in nor on their way. -/
def Run.wanted (r : Run) (n : Nat) : List TileD :=
  (r.prog.opTiles n).filter (fun t => t.kind == 0 && !r.resident.contains t.slot && !r.fetching.contains t.slot)

/-- The fetch of an operand of the layer that starts next may start now (10 R296). -/
def Run.mayFetch (r : Run) (t : TileD) : Bool :=
  let g := r.geom t
  !(r.layerRunning && ((r.prog.slots r.layer).contains t.slot || r.prog.isSct r.layer || g.any (fun g => r.hits g r.layer)))
    && r.wbs.all (fun w => !w.slots.contains t.slot && !w.sct && !g.any (fun g => r.hits g w.layer))

/-- A fetch goes out as a request of the job's source; a base that Table 4.5 or R147 does not allow ends the job. -/
def State.fetchTile (s : State) (e n : Nat) (t : TileD) : State :=
  match (s.engine e).run with
  | some r =>
    (match r.geom t with
     | none => s.updRun e (fun r => r.fetchFailed n t.slot 7)
     | some g =>
       if !g.oneBolt then s.updRun e (fun r => r.fetchFailed n t.slot 13)
       else
         (s.updRun e (fun r => { r with fetching := insertSorted t.slot r.fetching })).submit (queueSource r.q)
           (.engine e (engKey n (32 + t.slot))) (.tile g.rows g.rowBytes g.pitch) g.base r.tenant)
  | none => s

/-- Every fetch that may start does. -/
def State.issueFetches (s : State) (e : Nat) : State :=
  match (s.engine e).run with
  | some r =>
    let n := if r.layerRunning then r.layer + 1 else r.layer
    if r.endCode.isSome || r.leaving || decide (r.prog.layers.length ≤ n) then s
    else ((r.wanted n).filter r.mayFetch).foldl (fun s t => s.fetchTile e n t) s
  | none => s

/-- The container of a RUN that this device can read itself, with its argument words. -/
def State.ownContainer (s : State) (x : Desc) : Option (Container × List Nat) :=
  let bytes (off n : Nat) : Option (List Byte) :=
    match s.jobBytes x.q off n .here with
    | some (bs, false) => some bs
    | _ => none
  match bytes (descSrc x.d) 64, bytes (descDst x.d) (8 * descArg x.d 1) with
  | some h, some a =>
    (match (bytes (descSrc x.d) (bytesNat h 36 4)).bind readContainer with
     | some c => some (c, (List.range (descArg x.d 1)).map (fun k => bytesNat a (8 * k) 8))
     | none => none)
  | _, _ => none

/-- A job at its start. -/
def Run.start (x : Desc) (tenant now : Nat) (c : Container) (args : List Nat) : Run :=
  { q := x.q, ix := x.ix, tenant := tenant, prog := c, args := args,
    deadlineUs := if descArgs x.d 4 4 = 0 then c.deadlineUs else descArgs x.d 4 4, layer := descParam x.d,
    layerRunning := false, resident := [], fetching := [], holdSince := none, holdUs := 0, wbs := [], completed := 0,
    poison := false, endCode := none, failed := none, fault := 0, faults := 0, startDt := now, closing := false, leaving := false }

/-- While the last layer of a job runs, the first layer's operands of the next queued RUN of the tenant are fetched into slots
that the layer does not use (10 R297). A next job whose container lies on another device is not read ahead (log entry 37). -/
def State.prefetch (s : State) (e : Nat) : State :=
  let g := s.engine e
  match g.run, g.jobs with
  | some r, (q, ix) :: _ =>
    if !r.layerRunning || r.layer + 1 != r.prog.layers.length || r.prog.isSct r.layer then s
    else match s.desc q ix, s.queue q with
      | some x, some qe =>
        if descOp x.d ≠ 0x0B ∨ qe.tenant ≠ r.tenant then s
        else match s.ownContainer x with
          | some (c, args) =>
            let nx := Run.start x qe.tenant s.now c args
            let busy := r.prog.slots r.layer ++ r.wbs.flatMap (fun w => w.slots) ++ g.prefetched
            if c.check nx.layer args.length (fun _ => true) ≠ 0 then s
            else
              ((nx.wanted nx.layer).filter (fun t => !busy.contains t.slot)).foldl (fun s t =>
                match nx.geom t with
                | some tg =>
                  if tg.oneBolt && !r.hits tg r.layer && r.wbs.all (fun w => !w.sct && !r.hits tg w.layer) then
                    s.submit (queueSource q) (.engine e (engKey nx.layer (48 + t.slot))) (.tile tg.rows tg.rowBytes tg.pitch)
                      tg.base qe.tenant
                  else s
                | none => s) s
          | none => s
      | _, _ => s
  | _, _ => s

/-! RUN and TILE_FETCH (10 R287 to R290). -/

/-- A job put on an engine; with 64 jobs there it waits in its queue. -/
def State.queueJob (s : State) (x : Desc) (e : Nat) : State :=
  let g := s.engine e
  if g.held < Config.maxJobs then
    (s.putEngine e { g with jobs := g.jobs ++ [(x.q, x.ix)] }).putDesc { x with st := .running 1, engine := e }
  else s

/-- A RUN or TILE_FETCH goes to the engine taken at its fetch. Where that engine has left service since, a RUN goes on in its
cluster (10 R290, Table 10.11). -/
def State.startJob (s : State) (x : Desc) : State :=
  if s.engineUp x.engine then s.queueJob x x.engine
  else if descOp x.d = 0x09 then s.endDesc x.q x.ix 8
  else match s.leastBusy (clusterEngines (x.engine / 8)) with
    | some e => s.queueJob x e
    | none => s.endDesc x.q x.ix 8

/-- TILE_FETCH (04 R147; 10 R287, R290). -/
def execTileFetch (q ix at_ : Nat) (s : State) : Host.Outcome State Fault Refusal :=
  .next ((s.tick at_).startDesc q ix 0x09 (fun _ x s => s.startJob x))

/-- RUN (10 R290). -/
def execRun (q ix at_ : Nat) (s : State) : Host.Outcome State Fault Refusal :=
  .next ((s.tick at_).startDesc q ix 0x0B (fun _ x s => s.startJob x))

/-! The start of a job (10 R288, R293). -/

/-- Slots valid for a tenant. -/
def Engine.valid (g : Engine) (slot : Nat) : Bool := (SMap.find g.slots slot).any (fun x => x.valid)

/-- The engine as it stands for a job of a tenant: after another tenant's job every slot is zeroed and not VALID. -/
def Engine.forTenant (g : Engine) (t : Nat) : Engine :=
  if g.tenant = t then g else { g with slots := [], tenant := t, prefetched := [] }

/-- A TILE_FETCH as a job of one tile. -/
def fetchProg (d : LineData) : Container :=
  { layers := [],
    tiles := [{ slot := descArg d 1, kind := 0, layout := descArg d 2, esize := descArg d 3, argIndex := 0xFF, trim := false,
                offset := descSrc d, pitch := descArgs d 4 4, cols := descArgs d 8 4 }],
    kernels := 0, tolerant := false, deadlineUs := 0, cyclesLog2 := 40, params := [] }

/-- A RUN starts on an engine: its container and arguments are read and checked, and the fetches of its first layer go out.
What R297 has fetched for it is in. `none` while the bytes are not here. -/
def State.startRun (s : State) (e : Nat) (x : Desc) (t : Nat) (src args : TileSrc) : Option State :=
  let g := (s.engine e).forTenant t
  let pre := g.prefetched
  let s := (s.putEngine e { g with prefetched := [] }).dropFetches e (fun c => decide (48 ≤ c))
  let none_ : Container :=
    { layers := [], tiles := [], kernels := 0, tolerant := false, deadlineUs := 0, cyclesLog2 := 40, params := [] }
  let fail (code : Nat) : State :=
    let r := Run.start x t s.now none_ []
    s.putEngine e { s.engine e with run := some { r with endCode := some code } }
  match s.jobBytes x.q (descSrc x.d) 64 src, s.jobBytes x.q (descDst x.d) (8 * descArg x.d 1) args with
  | some (h, hp), some (a, ap) =>
    let len := bytesNat h 36 4
    if hp || ap then some (fail 1)
    else if len < 64 ∨ 2 ^ 24 < len ∨ boltOfOff (descSrc x.d) ≠ boltOfOff (descSrc x.d + len - 1) then some (fail 7)
    else match s.jobBytes x.q (descSrc x.d) len src with
      | some (_, true) => some (fail 1)
      | some (bs, false) =>
        let s := (s.readRun x.q (descSrc x.d) len).readRun x.q (descDst x.d) (8 * descArg x.d 1)
        (match readContainer bs with
         | none => some (fail 7)
         | some c =>
           let words := (List.range (descArg x.d 1)).map (fun k => bytesNat a (8 * k) 8)
           let code := c.check (descParam x.d) words.length (s.engine e).valid
           let res := descArgs x.d 8 7
           if code ≠ 0 then some (fail code)
           else if descArg x.d 2 = 1 ∧ boltOfOff res ≠ boltOfOff (res + 63 + 64 * c.layers.length) then some (fail 13)
           else
             let r := Run.start x t s.now c words
             let first := ((c.opTiles r.layer).filter (fun t => t.kind == 0)).map (fun t => t.slot)
             let r := { r with resident := pre.filter (fun k => first.contains k), completed := r.layer }
             some ((s.putEngine e { s.engine e with run := some r }).issueFetches e))
      | none => none
  | _, _ => none

/-- A job that ran on engine `e` goes on at engine `n`: its requests in hand and what its slots hold go with it, and its
fetched operands are fetched again (log entry 38). -/
def State.moveRun (s : State) (e n : Nat) (r : Run) : State :=
  let s := s.dropFetches e (fun c => decide (32 ≤ c))
  let move (x : Req) : Req := match x.who with
    | .engine y k => if y = e then { x with who := Who.engine n k } else x
    | _ => x
  let s := { s with bay := { s.bay with reqs := s.bay.reqs.map move } }
  let old := s.engine e
  let s := s.putEngine e { old with run := none }
  let g := s.engine n
  let r := { r with layerRunning := false, resident := [], fetching := [], leaving := false }
  (s.putEngine n { g with slots := old.slots, tenant := r.tenant, prefetched := [], run := some r }).issueFetches n

/-- Another engine of the cluster whose job waits for an engine to go on with after a fault. -/
def State.leavingIn (s : State) (e : Nat) : Option (Nat × Run) :=
  (clusterEngines (e / 8)).findSome? (fun n =>
    if n = e then none
    else match (s.engine n).run with
      | some r => if r.leaving then some (n, r) else none
      | none => none)

/-- The next job of an engine starts: one that another engine's fault has left, or the first of its queue. -/
def State.startNext (s : State) (e : Nat) (src args : TileSrc) : State :=
  let g := s.engine e
  match s.leavingIn e, g.jobs with
  | some (n, r), _ => s.moveRun n e r
  | none, (q, ix) :: rest =>
    (match s.desc q ix, s.queue q with
     | some x, some qe =>
       let s' := s.putEngine e { g with jobs := rest }
       if descOp x.d = 0x09 then
         let r := Run.start x qe.tenant s.now (fetchProg x.d) []
         let g' := { g.forTenant qe.tenant with jobs := rest, run := some { r with layer := 0 }, prefetched := [] }
         let s := (s.putEngine e g').dropFetches e (fun c => decide (48 ≤ c))
         s.fetchTile e 0 ((fetchProg x.d).tile 0)
       else (s'.startRun e x qe.tenant src args).getD s
     | _, _ => s.putEngine e { g with jobs := rest })
  | none, [] => s

/-- JOB_START (10 R288, R293): an idle engine in service takes its next job. -/
def execJobStart (e : Nat) (src args : TileSrc) (at_ : Nat) (s : State) : Host.Outcome State Fault Refusal :=
  let s := s.tick at_
  .next (if (s.engine e).run.isSome || !s.engineUp e || !s.inService then s else (s.startNext e src args).settle)

/-! TILE_RESIDENT (10 R296, R299). -/

/-- The request that fetches into a slot of an engine, for the running job or the next one. -/
def State.slotFetch (s : State) (e slot : Nat) : Option Req :=
  s.bay.reqs.find? (fun r => match r.who with
    | .engine x k => x == e && (k % 64 == 32 + slot || k % 64 == 48 + slot)
    | _ => false)

/-- A fetched tile is whole in its slot. A TILE_FETCH has then ended, with POISON_SEEN where a line of it is poisoned
(02 R89). -/
def State.fillSlot (s : State) (e slot key : Nat) (t : Tile) : State :=
  let g := s.engine e
  let g := { g with slots := SMap.put g.slots slot { valid := true, tile := t } }
  if 48 ≤ key % 64 then s.putEngine e { g with prefetched := insertSorted slot g.prefetched }
  else
    (s.putEngine e g).updRun e (fun r =>
      let r := { r with resident := insertSorted slot r.resident, fetching := removeNum slot r.fetching }
      if r.prog.layers.isEmpty then { r with endCode := some 0, poison := !t.poison.isEmpty } else r)

/-- A TILE_FETCH whose tile is in ends with its own code. -/
def Run.fetchCode (r : Run) : Run :=
  if r.prog.layers.isEmpty && r.endCode == some 0 && r.poison then { r with endCode := some 1 } else r

/-- The tile that a fetch brings: this device's copy, or what another device answered; a code where the tenant's key is
gone (12 Table 12.11). -/
def State.fetched (s : State) (r : Req) (g : TileGeom) (src : TileSrc) : Option (Tile × Nat) :=
  let t := s.tenantOf (reqBolt r)
  match r.st, src with
  | .fetching, src =>
    if !(s.tileMedia g).isEmpty && s.keyGone t then some (zeroTile, 10)
    else if (s.tileMedia g).isEmpty || s.keyLoaded t then some (s.localTile g, 0)
    else (match src with | .remote x => some (x, 0) | .here => none)
  | .forwarded _ _ _ _, .remote x => some (x, 0)
  | _, _ => none

/-- TILE_RESIDENT (10 R296; 04 R148 to R150). -/
def execTileResident (e slot : Nat) (src : TileSrc) (at_ : Nat) (s : State) : Host.Outcome State Fault Refusal :=
  let s := s.tick at_
  .next (match s.slotFetch e slot with
    | some r =>
      (match r.op, r.who with
       | .tile rows rb pitch, .engine _ k =>
         let g : TileGeom := { rows := rows, rowBytes := rb, pitch := pitch, base := r.offset }
         (match s.fetched r g src with
          | some (_, 10) =>
            let s := s.bump F.XT_COUNT.KEY_EMPTY_READS 0 (s.tileMedia g).length
            (s.finish r 10 0#512 false).settle
          | some (t, _) =>
            let s := (s.delReq r.id).heatTile g
            (((s.fillSlot e slot k t).updRun e Run.fetchCode).prefetch e).settle
          | none => s)
       | _, _ => s)
    | none => s)

/-! The layer-fence contract (10 R294 to R298). -/

/-- Every operand of the layer is resident in its slot and every output slot is free (10 R294). -/
def State.layerReady (s : State) (e : Nat) (r : Run) : Bool :=
  let g := s.engine e
  let busy := r.wbs.flatMap (fun w => w.slots)
  !s.power.throttle && decide (r.layer < r.prog.layers.length)
    && (r.prog.opTiles r.layer).all (fun t =>
      if t.kind = 0 then r.resident.contains t.slot else g.valid t.slot && !r.fetching.contains t.slot)
    && (r.prog.outSlots r.layer).all (fun k => !busy.contains k)
    && !(r.prog.isGth r.layer && !r.wbs.isEmpty)

/-- The hold at the fence has come to the deadline (10 R298). -/
def Run.late (r : Run) (now : Nat) : Bool :=
  match r.holdSince with
  | some t => r.deadlineUs != 0 && decide (t + r.deadlineUs * 1000 ≤ now)
  | none => false

/-- The parameters of a built-in kernel are in range (10 R301, Table 10.5). -/
def paramsOk (k ops : Nat) (p : List Byte) : Bool :=
  paramZero p (kernelParams k) && match k with
  | 0x02 => decide (paramNat p 0 1 ≤ 16 ∧ paramNat p 1 1 ≤ 16 ∧ 10 ≤ paramNat p 2 1 ∧ paramNat p 2 1 ≤ 30)
  | 0x03 => decide (paramNat p 0 1 ≤ 1) && (paramNat p 0 1 == 0 || ops == 3)
  | 0x06 => decide (1 ≤ paramNat p 0 1 ∧ paramNat p 0 1 ≤ 4)
  | 0x07 => decide (paramNat p 0 1 ≤ 15)
  | 0x08 => decide (1 ≤ paramNat p 0 4 ∧ paramNat p 0 4 ≤ 4096)
  | 0x09 => decide (1 ≤ paramNat p 0 4 ∧ paramNat p 0 4 ≤ 4096)
  | _ => true

/-- Parameter block of a layer. -/
def Run.params (r : Run) (n : Nat) : List Byte := r.prog.params.getD n []

/-- The hold at the fence ends: it counts in the job and in EN_COUNT. -/
def State.endHold (s : State) (e : Nat) : State :=
  match (s.engine e).run with
  | some r =>
    (match r.holdSince with
     | some t =>
       let us := (s.now - t) / 1000
       (s.updRun e (fun r => { r with holdSince := none, holdUs := r.holdUs + us })).bump F.EN_COUNT.HOLD_US e us
     | none => s)
  | none => s

/-- The deadline has passed: the job ends with TILE_LATE once what runs is complete. -/
def State.tileLate (s : State) (e : Nat) : State :=
  (s.endHold e).updRun e (fun r => r.stopWith 5 r.layer 0)

/-- The kernel of a layer starts on whole operands. -/
def State.startLayer (s : State) (e : Nat) (r : Run) : State :=
  let l := r.prog.layer r.layer
  let s := s.endHold e
  if decide (l.kernel < 0x80) && !paramsOk l.kernel l.ops.length (r.params r.layer) then
    s.updRun e (fun r => r.stopWith 7 r.layer 0)
  else
    let slots := (r.prog.opTiles r.layer).map (fun t => t.slot)
    let s := s.updRun e (fun r => { r with
      layerRunning := true, resident := r.resident.filter (fun k => !slots.contains k) })
    (s.issueFetches e).prefetch e

/-- LAYER_START (10 R294, R298): a tile that becomes resident at the deadline is late. -/
def execLayerStart (e at_ : Nat) (s : State) : Host.Outcome State Fault Refusal :=
  let s := s.tick at_
  .next (match (s.engine e).run with
    | some r =>
      if r.layerRunning || r.leaving || r.endCode.isSome || !s.layerReady e r then s
      else if r.late s.now then (s.tileLate e).settle
      else (s.startLayer e r).settle
    | none => s)

/-- FENCE_DEADLINE (10 R298). -/
def execFenceDeadline (e at_ : Nat) (s : State) : Host.Outcome State Fault Refusal :=
  let s := s.tick at_
  .next (match (s.engine e).run with
    | some r => if !r.layerRunning && r.endCode.isNone && r.late s.now then (s.tileLate e).settle else s
    | none => s)

/-! The end of a layer (10 R295, R301 to R306). -/

/-- The tiles of a layer's operands. -/
def State.opsOf (s : State) (e : Nat) (r : Run) : List Tile :=
  (r.prog.opTiles r.layer).map (fun t => match SMap.find (s.engine e).slots t.slot with | some x => x.tile | none => zeroTile)

/-- GTH: every line that its index names is read under the checks of 01 Table 1.4; a line of another device comes with the
kernel's return. -/
def State.gather (s : State) (r : Run) (ops : List Tile) (ret : KernelRet) : State × KRes :=
  let ix := ops.getD 0 zeroTile
  let n := paramNat (r.params r.layer) 0 4
  let got := ret.outs.getD 0 zeroTile
  let (s, code) := (List.range n).foldl (fun (a : State × Nat) i =>
    if a.2 ≠ 0 || tileBad ix (i / 8) then a
    else a.1.boltAccess (boltOfOff (indexAt ix i)) r.tenant false (indexAt ix i)) (s, 0)
  if code ≠ 0 then (s, .fail code false)
  else
    let s := (List.range n).foldl (fun (s : State) i => s.readRun r.q (indexAt ix i) 64) s
    (s, kGth ops ((List.range n).map (fun i =>
      let o := indexAt ix i
      if s.tileTarget (queueSource r.q) o = s.devId then (s.line (lineOfOff o), s.isPoison (lineOfOff o))
      else (tileLine got i, tileBad got i))))

/-- A user kernel's return (10 Table 10.11, codes 0x6 and 0x7). -/
def userRes (c : Container) (ops : List Tile) (ret : KernelRet) : KRes × Nat :=
  let seen := ops.any (fun t => !t.poison.isEmpty)
  ({ KRes.make ret.outs ret.used [] seen with value := [] }, if !seen then 0 else if c.tolerant then 7 else 6)

/-- What the kernel of the running layer makes of its operands, with the fault code of poisoned operands. -/
def State.kernelRes (s : State) (e : Nat) (r : Run) (ret : KernelRet) : State × KRes × Nat :=
  let l := r.prog.layer r.layer
  let ops := s.opsOf e r
  if 0x80 ≤ l.kernel then
    let (k, f) := userRes r.prog ops ret
    (s, k, f)
  else if l.kernel = 0x08 then
    let (s, k) := s.gather r ops ret
    (s, k, 0)
  else
    let n := if l.kernel = 0x02 then ops.length else 0
    ({ s with freeIx := s.freeIx + n }, runKernel l.kernel (r.params r.layer) l.outs.length s.freeIx ops, 0)

/-- Stores that write an output back: all of its tile, or with TRIM the bytes used rounded up to lines. -/
def outStores (g : TileGeom) (t : TileD) (x : Tile) (used : Nat) (allBad : Bool) : List (Nat × LineData × Bool) :=
  let n := if t.trim then min 4096 (ceilDiv used 64) else 4096
  (List.range n).map (fun k => (g.at (64 * k), tileLine x k, allBad || tileBad x k))

/-- The outputs of a layer in their slots, marked VALID. -/
def Engine.putOuts (g : Engine) (ts : List TileD) (outs : List Tile) : Engine :=
  { g with slots := (ts.zip outs).foldl (fun m x => SMap.put m x.1.slot { valid := true, tile := x.2 }) g.slots }

/-- EN_FAULT_LOG takes a fault. -/
def State.logFault (s : State) (e code q layer slot : Nat) : State :=
  (((s.setF F.EN_FAULT_LOG.CODE e code).setF F.EN_FAULT_LOG.QUEUE e q).setF F.EN_FAULT_LOG.LAYER e layer).setF
    F.EN_FAULT_LOG.SLOT e slot

/-- The head of the layers being written back is complete: its record is written (10 R295, R300). -/
def State.completeHead (s : State) (e : Nat) : State :=
  match (s.engine e).run with
  | some r =>
    (match r.wbs, s.desc r.q r.ix with
     | w :: rest, some x =>
       if w.left ≠ 0 ∨ w.code ≠ 0 then s
       else
         let done := if w.layer = r.completed then r.completed + 1 else r.completed
         let s := s.updRun e (fun r => { r with wbs := rest, completed := done })
         let s := if descArg x.d 2 = 1 then
             s.submit (queueSource r.q) (.engine e (engKey w.layer 17)) (.write fullBe w.record false)
               (descArgs x.d 8 7 + 64 + 64 * w.layer) r.tenant
           else s
         s.issueFetches e
     | _, _ => s)
  | none => s

/-- The stores of a layer that has ended go out; the layer is complete at once where it has none. -/
def State.writeBack (s : State) (e : Nat) (r : Run) (k : KRes) (ret : KernelRet) (fault : Nat) : State :=
  let n := r.layer
  let outs := r.prog.outTiles n
  let geoms := (outs.filter TileD.writes).map (fun t => (t, r.geom t))
  if geoms.any (fun x => x.2.isNone) then s.updRun e (fun r => r.stopWith 7 n 0)
  else if geoms.any (fun x => x.2.any (fun g => !g.oneBolt)) then s.updRun e (fun r => r.stopWith 13 n 0)
  else
    let stores := outs.zipIdx.flatMap (fun x =>
      if !x.1.writes then []
      else match r.geom x.1 with
        | some g =>
          (outStores g x.1 (k.outs.getD x.2 zeroTile) (k.used.getD x.2 0) (fault == 6)).map (fun y => (x.1.slot, y))
        | none => [])
    let stores := stores ++ k.stores.map (fun y => (16, y))
    let w : Wb := { layer := n, slots := (outs.filter TileD.writes).map (fun t => t.slot), sct := r.prog.isSct n,
                    left := stores.length, code := 0, status := bit k.seen, flags := bit k.poisonIn + bit k.truncated * 2,
                    cycles := ret.cycles % 2 ^ 32, value := k.value }
    let s := s.updRun e (fun r => { r with
      layer := n + 1, layerRunning := false, wbs := r.wbs ++ [w], poison := r.poison || k.seen,
      fault := if fault = 0 then r.fault else fault })
    let s := stores.foldl (fun s x =>
      s.submit (queueSource r.q) (.engine e (engKey n x.1)) (.write fullBe x.2.2.1 x.2.2.2) x.2.1 r.tenant) s
    s.completeHead e

/-- The fetches of an engine that this device serves become urgent: their flash reads take the priority of a host read (10 R298;
07 R202). -/
def State.urgent (s : State) (e : Nat) : State :=
  s.bay.reqs.foldl (fun s r =>
    match r.op, r.who, r.st with
    | .tile rows rb pitch, .engine x _, .fetching =>
      if x = e then
        (s.tileMedia { rows := rows, rowBytes := rb, pitch := pitch, base := r.offset }).foldl (fun s f => s.flashRead (f * 64)) s
      else s
    | _, _, _ => s) s

/-- The engine holds at the fence where the next layer cannot start: its fetches become urgent (10 R298). -/
def State.fence (s : State) (e : Nat) : State :=
  match (s.engine e).run with
  | some r =>
    if r.endCode.isSome || r.layer == r.prog.layers.length || s.layerReady e r then s
    else
      let s := s.updRun e (fun r => { r with holdSince := some s.now })
      if (r.prog.opTiles r.layer).any (fun t => t.kind == 0 && !r.resident.contains t.slot) then
        (s.urgent e).raiseAt F.EN_STATUS.URGENT e
      else s
  | none => s

/-- A kernel fault ends the job at its layer (10 Table 10.11, codes 0x1 to 0x3). -/
def State.kernelFault (s : State) (e fault code slot : Nat) : State :=
  match (s.engine e).run with
  | some r =>
    let s := (s.logFault e fault r.q r.layer slot).raiseArg F.EN_STATUS.KERNEL_FAULT e (.log .EN_FAULT_LOG e)
    s.updRun e (fun r => r.stopWith code r.layer fault)
  | none => s

/-- The kernel of the running layer returns. -/
def State.endLayer (s : State) (e : Nat) (r : Run) (ret : KernelRet) : State :=
  let (s, k, fault) := s.kernelRes e r ret
  let s := if k.poisonIn then s.raiseAt F.EN_STATUS.POISON e else s
  let s := if fault = 0 then s else s.logFault e fault r.q r.layer 0
  if k.code ≠ 0 then s.updRun e (fun r => { r with poison := r.poison || k.seen }.stopWith k.code r.layer 0)
  else
    let s := s.putEngine e ((s.engine e).putOuts (r.prog.outTiles r.layer) k.outs)
    ((s.writeBack e r k ret fault).issueFetches e).fence e

/-- LAYER_END (10 R295, R298). A kernel that has passed its cycle limit ends with the fault of that limit. -/
def execLayerEnd (e : Nat) (ret : KernelRet) (at_ : Nat) (s : State) : Host.Outcome State Fault Refusal :=
  let s := s.tick at_
  .next (match (s.engine e).run with
    | some r =>
      if !r.layerRunning then s
      else if 2 ^ r.prog.cyclesLog2 < ret.cycles then (s.kernelFault e 3 11 0).settle
      else (s.endLayer e r ret).settle
    | none => s)

/-- LAYER_COMPLETE (10 R295, R300): every store of the oldest layer written back has completed. -/
def execLayerComplete (e at_ : Nat) (s : State) : Host.Outcome State Fault Refusal :=
  .next (((s.tick at_).completeHead e).settle)

/-! Faults and stops (10 R306). -/

/-- KERNEL_CYCLE_LIMIT. -/
def execKernelCycleLimit (e at_ : Nat) (s : State) : Host.Outcome State Fault Refusal :=
  let s := s.tick at_
  .next (match (s.engine e).run with
    | some r => if r.layerRunning then (s.kernelFault e 3 11 0).settle else s
    | none => s)

/-- USER_KERNEL_FAULT: an undefined instruction, or a slot outside the layer. -/
def execUserKernelFault (e code slot at_ : Nat) (s : State) : Host.Outcome State Fault Refusal :=
  let s := s.tick at_
  .next (match (s.engine e).run with
    | some r =>
      if !r.layerRunning || decide ((r.prog.layer r.layer).kernel < 0x80) then s
      else if code = 1 then (s.kernelFault e 1 7 0).settle
      else if code = 2 then (s.kernelFault e 2 12 slot).settle
      else s
    | none => s)

/-- Engines in service as EN_AVAIL shows them. -/
def State.setEngines (s : State) (l : List Nat) : State :=
  ({ s with engines := { s.engines with enabled := l } }).put F.EN_AVAIL.IN_SERVICE
    ((l.filter (fun e => decide (e < 48))).foldl (fun a e => a + 2 ^ e) 0)

/-- The running job after a fault of code 0x4: run again from the start of its layer on another engine of the cluster; a
second such fault ends it (10 Table 10.11). -/
def State.rerun (s : State) (e slot : Nat) (r : Run) : State :=
  let r := { r with faults := r.faults + 1 }
  let s := s.updRun e (fun _ => r)
  let lost := (r.prog.opTiles r.layer).any (fun t => t.kind == 1 && t.slot == slot)
  if r.closing then s
  else if 2 ≤ r.faults || (lost && decide (r.layer < r.prog.layers.length)) then s.updRun e (fun r => r.stopWith 9 r.layer 4)
  else
    let l := (clusterEngines (e / 8)).filter (fun n => n != e)
    match s.leastBusy (l.filter (fun n => (s.engine n).run.isNone)) with
    | some n => s.moveRun e n r
    | none =>
      if l.any s.engineUp then
        (s.dropFetches e (fun c => decide (32 ≤ c))).updRun e (fun r => { r with
          layerRunning := false, resident := [], fetching := [], leaving := true })
      else s.updRun e (fun r => r.stopWith 8 r.layer 4)

/-- The queued jobs of an engine that leaves service move to other engines of its cluster, or end FENCED; a TILE_FETCH names
its engine and ends FENCED (10 R290, Table 10.11). -/
def State.moveJobs (s : State) (e : Nat) : State :=
  let l := (s.engine e).jobs
  let s := s.putEngine e { s.engine e with jobs := [] }
  l.foldl (fun s j =>
    match s.desc j.1 j.2 with
    | some x =>
      if descOp x.d = 0x09 then s.endDesc j.1 j.2 8
      else match s.leastBusy (clusterEngines (e / 8)) with
        | some n => (s.putDesc { x with st := .fetched, engine := n }).queueJob { x with st := .fetched, engine := n } n
        | none => s.endDesc j.1 j.2 8
    | none => s) s

/-- ENGINE_HW_FAULT (10 Table 10.11, codes 0x4 and 0x5). -/
def execEngineHwFault (e slot at_ : Nat) (s : State) : Host.Outcome State Fault Refusal :=
  let s := s.tick at_
  .next (if !s.engineUp e then s
    else
      let g := s.engine e
      let times := (g.faultTimes.filter (fun t => decide (s.now < t + 86400000000000))) ++ [s.now]
      let s := s.putEngine e { g with faultTimes := times }
      let s := match g.run with
        | some r => s.logFault e 4 r.q r.layer slot
        | none => s.logFault e 4 0 0 slot
      let s := (s.raiseArg F.EN_STATUS.HW_FAULT e (.log .EN_FAULT_LOG e)).health 14 1
      let off := decide (max 1 (s.get F.EN_CTL.FAULT_LIMIT) ≤ times.length)
      let s := if off then s.setEngines (removeNum e s.engines.enabled) else s
      let s := match g.run with | some r => s.rerun e slot r | none => s
      let s := if off then
          let s := (s.putEngine e { s.engine e with off := true }).moveJobs e
          (s.logFault e 5 (bitsOf (s.reg .EN_FAULT_LOG e) 4 22) (bitsOf (s.reg .EN_FAULT_LOG e) 26 12) slot).raiseArg
            F.EN_DEV_STATUS.ENGINE_OFF 0 (.log .EN_FAULT_LOG e)
        else s
      s.settle)

/-- Jobs of an engine end with a code, the running layer abandoned (10 Table 10.11, codes 0x8 and 0x9). -/
def State.stopEngine (s : State) (e fault code : Nat) : State :=
  let g := s.engine e
  let s := s.putEngine e { g with jobs := [], prefetched := [] }
  let s := s.dropFetches e (fun c => decide (32 ≤ c))
  let s := s.updRun e (fun r =>
    { (r.stopWith code (if r.prog.layers.isEmpty then 0xFFFF else r.layer) fault) with wbs := [] })
  let s := match (s.engine e).run with
    | some r => s.logFault e fault r.q r.layer 0
    | none => s
  g.jobs.foldl (fun s j => s.endDesc j.1 j.2 code) s

/-- A cluster is stopped for a restart (10 Table 10.11, code 0x8). -/
def State.stopCluster (s : State) (c : Nat) : State :=
  let l := clusterEngines c
  let busy := l.any (fun e => decide (0 < (s.engine e).held))
  let s := s.setEngines (s.engines.enabled.filter (fun e => !l.contains e))
  let s := l.foldl (fun s e => s.stopEngine e 8 8) s
  let s := if busy then s.raise F.EN_DEV_STATUS.CLUSTER_FENCED else s
  s.settle

/-- A cluster starts again: its tile stores are zeroed, and engines that a fault had put off are in service (10 Table 10.11,
codes 0x5 and 0x8). -/
def State.restartCluster (s : State) (c : Nat) (built : List Nat) : State :=
  let l := (clusterEngines c).filter (fun e => built.contains e)
  let s := l.foldl (fun s e => s.putEngine e { s.engine e with slots := [], off := false, faultTimes := [] }) s
  s.setEngines (l.foldl (fun a e => insertSorted e a) s.engines.enabled)

/-- Every job ends with ABORTED in power state 16 (10 Table 10.11, code 0x9). -/
def State.abortEngines (s : State) : State :=
  (List.range 48).foldl (fun s e => if (s.engine e).held = 0 then s else s.stopEngine e 9 9) s

/-- Every tile store is zeroed and every VALID bit cleared (10 R286). -/
def State.zeroTileStores (s : State) : State :=
  { s with engines := { s.engines with eng := s.engines.eng.map (fun x => (x.1, { x.2 with slots := [], prefetched := [] })) } }

/-- EN_COUNT_READ. -/
def execEnCountRead (via : Via) (e : Nat) (w : AccW) (s : State) : Host.Outcome State Fault Refusal :=
  .next (s.readCounters via .EN_COUNT e w [F.EN_COUNT.JOBS_DONE, F.EN_COUNT.HOLD_US])

end Sys2Proof.Machine
end

