-- ==== Sys2Proof/Machine/Ports.lean ====
section
/-! DEFINITION. Ports and links (11 R308 to R320, R327 to R329): training, LINK_HELLO, links that go down, resets, modules, and
the PT commands and counters. -/

namespace Sys2Proof.Machine

open Sys2Proof

/-! Ports as the panels set them. -/

/-- Personality of a port (11 Table 11.2). -/
def State.persOf (s : State) (p : Nat) : Nat := if s.getF F.PT_CFG.WIDTH p = 0 then 0 else s.getF F.PT_CFG.PERSONALITY p

/-- PT_LINK.STATE of a port. -/
def State.linkState (s : State) (p : Nat) : Nat := s.getF F.PT_LINK.STATE p

/-- Lanes of a PT_CFG.WIDTH code. -/
def widthLanes (w : Nat) : Nat := match w with | 1 => 4 | 2 => 8 | 3 => 16 | _ => 0

/-- A port trains from power state 11 on, where it is a MEDIA port, else from 12 on (11 R313), while its quad runs. -/
def State.portTrains (s : State) (p : Nat) : Bool :=
  s.persOf p != 0 && !s.isSet F.PT_QUAD.STOPPED (p / 4) && !s.ports.disabled.contains p
    && decide ((if s.persOf p = 4 then 11 else 12) ≤ s.power.state) && decide (s.power.state ≤ 20)

/-! Routes (01 R41). -/

/-- The path of the route to a device changes with its links: at once, or once its outstanding requests have drained. -/
def State.updateRoute (s : State) (dev : Nat) : State :=
  let p := s.getF F.BL_ROUTE.PRIMARY_PORT dev
  let a := s.getF F.BL_ROUTE.ALT_PORT dev
  let alt := s.isSet F.BL_ROUTE.ALT_IN_USE dev
  let want := if p < 96 ∧ s.portUp p = true then false else if a < 96 ∧ s.portUp a = true then true else alt
  if want = alt then ({ s with bay := { s.bay with draining := removeNum dev s.bay.draining } }).releaseTransit dev
  else if s.outstanding dev then { s with bay := { s.bay with draining := insertSorted dev s.bay.draining } }
  else s.switchRoute dev

/-- Every route looked at again. -/
def State.updateRoutes (s : State) : State :=
  ((List.range 64).filter (fun d => d != s.devId)).foldl State.updateRoute s

/-- Streams whose messages wait move where they may (11 R325). -/
def State.moveStreams (s : State) : State :=
  (nub (s.ports.streamWait.map (fun x => x.1))).foldl State.flushStream s

/-! Training (11 R311 to R314). -/

/-- This device's LINK_HELLO on a port. -/
def State.sendHello (s : State) (p : Nat) : State :=
  let h : Hello := { bayId := s.image.bayId, deviceId := s.devId, port := p, personality := s.persOf p,
                     version := (match s.image.running with | some i => i.version | none => 0#64),
                     dirtyCount := s.events.health.getD 4 0 }
  let s := { s with ports := { s.ports with helloSince := SMap.put s.ports.helloSince p s.now } }
  s.sendOn p { s.hdr 0 with hops := 1 } (.linkHello h)

/-- A port in service. -/
def State.enterService (s : State) (p : Nat) : State := (s.setF F.PT_LINK.STATE p 2).raiseAt F.PT_STATUS.LINK_UP p

/-- The entries that this device owns, bound or not, sent to a device that comes within reach and may have missed them (01 R24, Table
1.3; DEDUCED, log entry 39). -/
def State.sendOwnEntries (s : State) (dev : Nat) : State := s.sendEntries dev (fun _ e => entryActive e == s.devId)

/-- A TWIN or CASC link enters service: routes and streams move, every device that is now within reach gets this device's
entries, held requests are tried. -/
def State.linkUp (s : State) (p dev : Nat) : State :=
  let known := s.reachable
  let s := (s.enterService p).updateRoutes
  let s := (nub (s.reachable ++ (if (s.ctlPort dev).isSome then [dev] else []))).foldl (fun s d =>
    if known.contains d then s else s.sendOwnEntries d) s
  s.moveStreams.retryHeld.settle

/-- The rate that a link trains at: at most the port's MAX_RATE and the rate of the device's code (00 R5; 11 R311). -/
def State.linkRate (s : State) (p rate : Nat) : Nat :=
  min rate (min (s.getF F.PT_CFG.MAX_RATE p) (rateLimit (s.get F.GB_ID.CODE)))

/-- The trained values of a link. -/
def State.setLink (s : State) (p : Nat) (t : Train) : State :=
  let t := { t with rate := s.linkRate p t.rate }
  let s := ((s.setF F.PT_LINK.RATE p t.rate).setF F.PT_LINK.LANES p t.lanes).setF F.PT_LINK.REVERSED p (bit t.reversed)
  let s := s.setF F.PT_LINK.POLARITY p t.polarity.toNat
  if t.rate < s.getF F.PT_CFG.MAX_RATE p ∨ t.lanes < widthLanes (s.getF F.PT_CFG.WIDTH p) then
    s.raiseAt F.PT_STATUS.DEGRADED p
  else s

/-- Training has failed: the port is down and tries again (11 R312). -/
def State.trainFail (s : State) (p : Nat) : State :=
  ({ s with ports := { s.ports with triedAt := SMap.put s.ports.triedAt p s.now } }.setF F.PT_LINK.STATE p 0).raiseAt
    F.PT_STATUS.TRAIN_FAIL p

/-- 100 ms have passed since a port last failed its training (11 R312). -/
def State.mayRetry (s : State) (p : Nat) : Bool :=
  match SMap.find s.ports.triedAt p with | some t => decide (t + 100000000 ≤ s.now) | none => true

/-- The bandwidth of the save area follows its links. -/
def State.mediaChanged (s : State) (p : Nat) : State := if s.persOf p = 4 then s.updateSaveRate else s

/-- A member that was unavailable while its function was stopped is in service again (08 R249). -/
def State.memberBack (s : State) (ix : Nat) : State :=
  match SMap.find s.stripe.members ix with
  | some x => if x.st == .unavailable then s.putMember ix { x with st := .inService } else s
  | none => s

/-- A port that trains starts with the credits of its partner not yet reported. -/
def State.newCredits (s : State) (p : Nat) : State :=
  { s with ports := { s.ports with credits := s.ports.credits.filter (fun x => x.1 / 3 != p) } }

/-- A port has trained. A partner without FLIT mode fails. HOST and MEDIA ports are in service, TWIN and CASC ports say
LINK_HELLO first. -/
def State.trained (s : State) (p : Nat) (t : Train) : State :=
  if !t.flit then s.trainFail p
  else
    let s := (s.setLink p t).newCredits p
    if s.persOf p = 1 then (s.enterService p).settle
    else if s.persOf p = 4 then (((s.enterService p).memberBack (s.getF F.PT_CFG.MODULE p)).mediaChanged p).settle
    else (s.setF F.PT_LINK.STATE p 1).sendHello p

/-- LINK_TRAINED (11 R311 to R314). -/
def execLinkTrained (port : Nat) (t : Train) (at_ : Nat) (s : State) : Host.Outcome State Fault Refusal :=
  let s := s.tick at_
  .next (if s.portTrains port && (s.linkState port == 0 || s.linkState port == 1) then s.trained port t else s)

/-- TRAIN_RETRY (11 R312): a port left down tries again, every 100 ms. -/
def execTrainRetry (port : Nat) (t : Option Train) (at_ : Nat) (s : State) : Host.Outcome State Fault Refusal :=
  let s := s.tick at_
  .next (if s.portTrains port && s.linkState port == 0 && s.mayRetry port then
      match t with
      | some t => s.trained port t
      | none => s.trainFail port
    else s)

/-! LINK_HELLO (11 R314). -/

/-- The routes name a device as the neighbour on a port. -/
def State.neighbour (s : State) (p dev : Nat) : Bool :=
  (s.getF F.BL_ROUTE.PRIMARY_PORT dev == p && s.getF F.BL_ROUTE.HOPS dev == 1)
    || (s.getF F.BL_ROUTE.ALT_PORT dev == p && s.getF F.BL_ROUTE.ALT_HOPS dev == 1)

/-- The peer may be on the port: bay, route and, on a TWIN port, the twin. The routes name no far port, so the peer's port is
recorded only (log entry 39). -/
def State.helloOk (s : State) (p : Nat) (h : Hello) : Bool :=
  h.bayId == s.image.bayId && (if s.persOf p = 2 then h.deviceId == s.twinId else s.neighbour p h.deviceId)

/-- LINK_HELLO. -/
def execLinkHello (port : Nat) (h : Hello) (at_ : Nat) (s : State) : Host.Outcome State Fault Refusal :=
  let s := s.tick at_
  .next (if !(s.persOf port == 2 || s.persOf port == 3) || !(s.linkState port == 1 || s.linkState port == 4)
      || s.twin.portsFenced then s
    else
      let s := s.countRx port 64
      let s := (s.setF F.PT_PEER.PEER_DEVICE port h.deviceId).setF F.PT_PEER.PEER_PORT port h.port
      if s.helloOk port h then
        let hl := match SMap.find s.bay.peers h.deviceId with | some x => x.health | none => 0#64
        let s := { s with bay := { s.bay with peers := SMap.put s.bay.peers h.deviceId (Peer.mk true h.dirtyCount hl) } }
        s.linkUp port h.deviceId
      else if s.linkState port = 4 then s
      else
        let s := { s with ports := { s.ports with helloSince := SMap.put s.ports.helloSince port s.now } }
        (s.setF F.PT_LINK.STATE port 4).raiseAt F.PT_STATUS.PEER_MISMATCH port)

/-- LINK_HELLO_TIMER (11 R314): no good LINK_HELLO in 10 ms is a mismatch; a mismatched port sends its own again every
100 ms. -/
def execLinkHelloTimer (port at_ : Nat) (s : State) : Host.Outcome State Fault Refusal :=
  let s := s.tick at_
  .next (match SMap.find s.ports.helloSince port with
    | some t =>
      if s.linkState port = 1 ∧ t + 10000000 ≤ s.now then
        let s := { s with ports := { s.ports with helloSince := SMap.put s.ports.helloSince port s.now } }
        (s.setF F.PT_LINK.STATE port 4).raiseAt F.PT_STATUS.PEER_MISMATCH port
      else if s.linkState port = 4 ∧ t + 100000000 ≤ s.now then s.sendHello port
      else s
    | none => s)

/-! Links that go down (11 Table 11.9). -/

/-- Reads in flight of the hosts on a port are dropped. -/
def State.dropReads (s : State) (p : Nat) : State :=
  { s with bay := { s.bay with reqs := s.bay.reqs.filter (fun r =>
      match r.who with | .host q _ _ => !(q == p && !reqWrites r) | _ => true) } }

/-- Messages that had not left on a port: those of a mirror stream wait for their new port, the others take their route. -/
def State.requeue (s : State) (p : Nat) : State :=
  let l := s.ports.sendq.filter (fun x => x.1 == p)
  let s := { s with ports := { s.ports with
    sendq := s.ports.sendq.filter (fun x => x.1 != p), credits := s.ports.credits.filter (fun x => x.1 / 3 != p) } }
  l.foldl (fun s x =>
    if onStream x.2.2 then
      { s with ports := { s.ports with streamWait := s.ports.streamWait ++ [(boltOfOff x.2.1.offset, x.2.1, x.2.2)] } }
    else s.send x.2.1 x.2.2) s

/-- The link of a path has gone down: what was forwarded on it and not answered is looked up and sent again (01 R426). -/
def State.resendOn (s : State) (p : Nat) : State :=
  s.resend (fun r => match r.st with | .forwarded _ q _ _ => q == p | _ => false)

/-- What a port's leaving service means for its personality. -/
def State.portLeft (s : State) (p : Nat) : State :=
  match s.persOf p with
  | 1 => (s.dropReads p).settle
  | 4 => s.updateSaveRate.settle
  | 2 =>
    let s := (((s.requeue p).updateRoutes).moveStreams).resendOn p
    let s := if s.twinPorts.length < 2 then s.raise F.PT_DEV_STATUS.TWIN_LINKS_LOW else s
    s.settle
  | _ => ((((s.requeue p).updateRoutes).moveStreams).resendOn p).settle

/-- A link goes down without being asked to. -/
def State.surpriseDown (s : State) (p : Nat) : State :=
  let pers := s.persOf p
  let s := s.setF F.PT_LINK.STATE p 0
  let s := s.raiseCls F.PT_STATUS.SURPRISE_DOWN p (if pers = 4 ∨ pers = 2 then 2 else 1) .none
  let s := if pers = 4 then s.memberLost (s.getF F.PT_CFG.MODULE p) else s
  s.portLeft p

/-- LINK_DOWN (11 R327). -/
def execLinkDown (port at_ : Nat) (s : State) : Host.Outcome State Fault Refusal :=
  let s := s.tick at_
  .next (if s.persOf port = 0 ∨ s.linkState port = 0 then s else s.surpriseDown port)

/-- LINK_ERROR (11 R312): the port retrains once; a retrain that fails leaves it down. -/
def execLinkError (port : Nat) (t : Option Train) (at_ : Nat) (s : State) : Host.Outcome State Fault Refusal :=
  let s := s.tick at_
  .next (if s.persOf port = 0 ∨ s.linkState port ≠ 2 then s
    else match t with
      | some t =>
        if t.flit then ((s.setLink port t).mediaChanged port).settle
        else (s.surpriseDown port).raiseAt F.PT_STATUS.TRAIN_FAIL port
      | none => (s.surpriseDown port).raiseAt F.PT_STATUS.TRAIN_FAIL port)

/-! Resets by the host (11 Table 11.9). -/

/-- An LD's MSI-X, mailbox and decoders are reset (11 Table 11.9). -/
def State.resetLd (s : State) (p ld : Nat) : State :=
  let k := p * 16 + ld
  let s := { s with
    bay := { s.bay with decoders := SMap.del s.bay.decoders k },
    ports := { s.ports with
      msixMasked := s.ports.msixMasked.filter (fun v => v / 2048 != k),
      msixPending := s.ports.msixPending.filter (fun v => v / 2048 != k) } }
  ((s.setF F.PT_LD.DECODERS k 0).setF F.PT_LD.MSIX_EN k 0).emit (.cfgReset p ld)

/-- HOT_RESET (11 R327): every LD of the port returns to its reset configuration; reads in flight end, stores go on. -/
def execHotReset (port at_ : Nat) (s : State) : Host.Outcome State Fault Refusal :=
  let s := s.tick at_
  .next (if s.persOf port ≠ 1 ∨ s.portUp port = false then s
    else
      let s := (List.range (max 1 (s.getF F.PT_CFG.LD_COUNT port))).foldl (fun s ld => s.resetLd port ld) s
      ((s.dropReads port).raiseAt F.PT_STATUS.HOT_RESET port).settle)

/-- FUNCTION_LEVEL_RESET (11 R327). -/
def execFunctionLevelReset (port ld at_ : Nat) (s : State) : Host.Outcome State Fault Refusal :=
  let s := s.tick at_
  .next (if s.persOf port ≠ 1 ∨ s.portUp port = false then s else s.resetLd port ld)

/-! Modules (11 R319, R320; 04 R146; 08 R249, R254). -/

/-- Declared write cycles of a module by its endurance record; 0 where there is none. -/
def State.ratedOf (s : State) (m : ModuleInfo) : Nat :=
  match s.ports.rated.find? (fun r => r.1 == m.vid && r.2.1 == m.did && r.2.2.1 == m.fw) with
  | some r => r.2.2.2
  | none => 0

/-- Frame slots of a module of `gib` GiB. -/
def frameSlots (gib : Nat) : Nat := gib * 2 ^ 18

/-- The endurance test of 04 R146. -/
def wearOk (rated slots bw : Nat) : Bool := decide (bw * 473400000 / 4096 ≤ (rated - 100000) * slots)

/-- The enumeration of a module up to step 4 (11 Table 11.5). -/
def State.enumOk (s : State) (m : ModuleInfo) : Bool :=
  m.memDevice && decide (16 ≤ m.capGib ∧ m.capGib ≤ 1024) && decide (100000000 ≤ s.ratedOf m) && m.hdmOk

/-- The random start of a module's slot mapping, drawn when it is first enumerated; the mapping of a module that holds data stays
(04 Float; DESIGN CHOICE, log entry 102). -/
def State.seedFloat (s : State) (m : Nat) : State :=
  if SMap.has s.tier.floatSeed m then s
  else
    let (ix, s) := s.nextFree
    { s with tier := { s.tier with floatSeed := SMap.put s.tier.floatSeed m ix } }

/-- A module is enumerated: its identity is shown, and it is refused or its wear is tested. -/
def State.enumerate (s : State) (p : Nat) (m : ModuleInfo) : State × Bool :=
  let s := (s.setF F.PT_PEER.MODULE_VID p m.vid).setF F.PT_PEER.MODULE_DID p m.did
  if s.enumOk m then
    let s := s.seedFloat (s.getF F.PT_CFG.MODULE p)
    let s := if wearOk (s.ratedOf m) (frameSlots m.capGib) (s.linkBw p) then s else s.raise F.ST_TIER_STATUS.WEAR_SHORT
    (s, true)
  else (s.raiseAt F.PT_STATUS.MODULE_REFUSED p, false)

/-- Step 5: the module has seen more dirty shutdowns than are recorded. The count read is recorded. -/
def State.moduleCount (s : State) (ix : Nat) (m : ModuleInfo) : State × Bool :=
  let worse := match SMap.find s.ports.modCount ix with | some n => decide (n < m.dirtyCount) | none => false
  ({ s with ports := { s.ports with modCount := SMap.put s.ports.modCount ix m.dirtyCount } }, worse)

/-- A module that comes back for a lost member: copy-back, where it is on and the module is large enough (08 R254). -/
def State.startCopyBack (s : State) (p ix : Nat) (x : Member) (m : ModuleInfo) : State :=
  if !s.isSet F.ST_REBUILD_CTL.COPYBACK_EN 0 ∨ m.capGib < x.cap then s.raiseAt F.PT_STATUS.MODULE_IDLE p
  else
    let n := s.rowsInUse ix
    let x := { x with rowsLeft := n, rowsTotal := n, cap := m.capGib, rated := s.ratedOf m }
    if n = 0 then
      let s := s.putMember ix { x with st := .inService }
      let s := { s with
        stripe := { s.stripe with subst := s.stripe.subst.filter (fun e => e.1 != ix) },
        lines := { s.lines with saveOut := removeNum ix s.lines.saveOut } }
      (s.raise F.ST_STATUS.COPYBACK_DONE).updateSaveRate
    else s.putMember ix { x with st := .copyBack }

/-- A module added on a MEDIA port in service (11 Table 11.9). -/
def State.addModule (s : State) (p : Nat) (m : ModuleInfo) : State :=
  let (s, ok) := s.enumerate p m
  if !ok then s
  else
    let ix := s.getF F.PT_CFG.MODULE p
    let (s, _) := s.moduleCount ix m
    match SMap.find s.stripe.members ix with
    | some x => if x.st == .lost || x.st == .rebuilding then s.startCopyBack p ix x m else s
    | none => s.raiseAt F.PT_STATUS.MODULE_IDLE p

/-- MODULE_HOT_ADD (11 R319, R327; 08 R254). -/
def execModuleHotAdd (port : Nat) (m : ModuleInfo) (at_ : Nat) (s : State) : Host.Outcome State Fault Refusal :=
  let s := s.tick at_
  .next (if s.persOf port ≠ 4 ∨ s.portUp port = false then s else (s.addModule port m).settle)

/-- MODULE_REQUEST_TIMEOUT (11 R320; 08 R250): an unreadable unit of its row. Where the row has more than two missing units
its frame is healed from the twin. -/
def execModuleRequestTimeout (member row : Nat) (frame : Option Nat) (at_ : Nat) (s : State) :
    Host.Outcome State Fault Refusal :=
  let s := s.tick at_
  .next (match SMap.find s.stripe.members member with
    | some x =>
      let s := { s with stripe := { s.stripe with unreadable := s.stripe.unreadable ++ [(x.group, row)] } }
      if s.rowMissing x.group row ≤ 2 || s.groupDeferred x.group then s
      else (s.healFrames frame.toList).settle
    | none => s)

/-! PT commands (11 R329). -/

/-- A PT command ends. -/
def State.ptCode (s : State) (p code : Nat) : State :=
  ((s.setF F.PT_CMD.CODE p code).setF F.PT_CMD.GO p 0).setF F.PT_CMD.BUSY p 0

/-- RETRAIN: the port leaves service and trains; the outcome comes with LINK_TRAINED or TRAIN_RETRY. -/
def State.ptRetrain (s : State) (p : Nat) : State :=
  if s.persOf p = 0 ∨ (s.persOf p = 2 ∧ s.twinPorts = [p]) then s.ptCode p 12
  else
    let was := s.portUp p
    let s := (s.setF F.PT_LINK.STATE p 1).ptCode p 0
    if was then s.portLeft p else s

/-- The module of a MEDIA port may be taken out. -/
def State.mayRemove (s : State) (p : Nat) : Bool :=
  s.persOf p == 4 && !s.rebuilding && s.stripe.reshape.st == 0 &&
    (match SMap.find s.stripe.members (s.getF F.PT_CFG.MODULE p) with
     | some x => (s.groupMembers x.group).all (fun y => y.2.st == .inService)
     | none => true)

/-- PREPARE_REMOVE: the module is a lost member and its link is disabled. -/
def State.ptRemove (s : State) (p : Nat) : State :=
  if !s.mayRemove p then s.ptCode p 12
  else
    let s := (s.memberLost (s.getF F.PT_CFG.MODULE p)).setF F.PT_LINK.STATE p 0
    let s := { s with ports := { s.ports with disabled := insertSorted p s.ports.disabled } }
    (s.ptCode p 0).portLeft p

/-- RESCAN: the port trains and enumerates the module now present. -/
def State.ptRescan (s : State) (p : Nat) (t : Option Train) (m : Option ModuleInfo) : State :=
  if s.persOf p ≠ 4 ∨ s.portUp p = true then s.ptCode p 12
  else
    let s := { s with ports := { s.ports with disabled := removeNum p s.ports.disabled } }
    let s := s.ptCode p 0
    match t with
    | none => s.trainFail p
    | some t =>
      let s := s.trained p t
      if !s.portUp p then s
      else match m with
        | some m => (s.addModule p m).settle
        | none => s.raiseAt F.PT_STATUS.MODULE_REFUSED p

/-- A PT command by its code; a reserved code completes with BAD_DESCRIPTOR. -/
def State.ptRun (s : State) (p op : Nat) (t : Option Train) (m : Option ModuleInfo) : State :=
  if s.isSet F.PT_CMD.BUSY p then s.raiseAt F.PT_STATUS.CMD_OVERRUN p
  else
    let s := s.setF F.PT_CMD.OP p op
    match op with
    | 1 => s.ptRetrain p
    | 2 => s.ptRemove p
    | 3 => s.ptRescan p t m
    | _ => s.ptCode p 7

/-- RETRAIN (11 R329). -/
def execRetrain (via : Via) (port at_ : Nat) (s : State) : Host.Outcome State Fault Refusal :=
  .next ((s.tick at_).command via .PT_CMD port [] (word 0x101) (fun s => s.ptRun port 1 none none))

/-- PREPARE_REMOVE (11 R329). -/
def execPrepareRemove (via : Via) (port at_ : Nat) (s : State) : Host.Outcome State Fault Refusal :=
  .next ((s.tick at_).command via .PT_CMD port [] (word 0x102) (fun s => s.ptRun port 2 none none))

/-- RESCAN (11 R329). -/
def execRescan (via : Via) (port : Nat) (t : Option Train) (m : Option ModuleInfo) (at_ : Nat) (s : State) :
    Host.Outcome State Fault Refusal :=
  .next ((s.tick at_).command via .PT_CMD port [] (word 0x103) (fun s => s.ptRun port 3 t m))

/-- PT_ERR_STAT_READ. -/
def execPtErrStatRead (via : Via) (port : Nat) (w : AccW) (s : State) : Host.Outcome State Fault Refusal :=
  .next (s.readCounters via .PT_ERR_STAT port w [F.PT_ERR_STAT.FEC_CORRECTED, F.PT_ERR_STAT.REPLAYS])

/-- PT_TRAFFIC_READ. -/
def execPtTrafficRead (via : Via) (port : Nat) (w : AccW) (s : State) : Host.Outcome State Fault Refusal :=
  .next (s.readCounters via .PT_TRAFFIC port w [F.PT_TRAFFIC.TX_MIB, F.PT_TRAFFIC.RX_MIB])

end Sys2Proof.Machine
end

