-- ==== Sys2Proof/Machine/Mailbox.lean ====
section
/-! DEFINITION. The memory device mailbox of an LD (11 R316, Table 11.4) and the FM-owned LD of an MLD port (11 R317). The
return codes and the opcodes are those of CXL 3.1 (PRESUMED, log entry 40). -/

namespace Sys2Proof.Machine

open Sys2Proof

/-- CXL return codes: Success, Invalid Input, Unsupported. -/
def mbOk : Nat := 0
def mbInvalid : Nat := 2
def mbUnsupported : Nat := 3

/-- Bytes as 64-bit words, little-endian. -/
def packWords (bs : List Byte) : List Word :=
  (List.range (ceilDiv bs.length 8)).map (fun k => word (leNat ((bs.drop (8 * k)).take 8)))

/-- The mailbox of a HOST port's LD answers while the port is in service and not fenced (03 R102; 11 R427). -/
def State.mailboxServes (s : State) (port ld : Nat) : Bool :=
  s.hostServes port && decide (ld < max 1 (s.getF F.PT_CFG.LD_COUNT port))

/-- An answer of a mailbox. -/
def State.mailboxAnswer (s : State) (port ld code : Nat) (data : List Word) : State :=
  if s.mailboxServes port ld then s.emit (.mailbox port ld code data) else s

/-- Capacity in 256 MiB units (11 Table 11.3). -/
def State.capacityUnits (s : State) : Nat := s.get F.BL_RANGE_LIMIT.BOLTS * 256

/-- Media error records that Get Poison List may gather (11 Table 11.3). -/
def State.maxPoisonList (s : State) : Nat := min 4194304 (65536 * s.bayDevices)

/-- IDENTIFY_MEMORY_DEVICE: total, persistent only and volatile only capacity, LSA size, Poison List maximum. -/
def execIdentifyMemoryDevice (port ld : Nat) (s : State) : Host.Outcome State Fault Refusal :=
  .next (s.mailboxAnswer port ld mbOk
    [word s.capacityUnits, word s.capacityUnits, 0#64, word 131072, word s.maxPoisonList])

/-- GET_SUPPORTED_LOGS: the Command Effects Log alone. -/
def execGetSupportedLogs (port ld : Nat) (s : State) : Host.Outcome State Fault Refusal :=
  .next (s.mailboxAnswer port ld mbOk [1#64])

/-- Opcodes of the commands of Table 11.4, in its order. The effects themselves are not stated, so they are left out. -/
def effectsLog : List Nat :=
  [0x4000, 0x0400, 0x0401, 0x0100, 0x0101, 0x4200, 0x4300, 0x4102, 0x4103, 0x0300, 0x0301]

/-- GET_LOG: entries of 4 bytes. -/
def execGetLog (port ld : Nat) (effects : Bool) (offset len : Nat) (s : State) : Host.Outcome State Fault Refusal :=
  .next (if !effects then s.mailboxAnswer port ld mbInvalid []
    else if 4 * effectsLog.length < offset + len then s.mailboxAnswer port ld mbInvalid []
    else s.mailboxAnswer port ld mbOk (((effectsLog.drop (offset / 4)).take (len / 4)).map word))

/-- Key of a CXL event log. -/
def cxlKey (port ld log : Nat) : Nat := (port * 16 + ld) * 4 + log % 4

/-- GET_EVENT_RECORDS: the overflow flag, the number of records, and the records. -/
def execGetEventRecords (port ld log : Nat) (s : State) : Host.Outcome State Fault Refusal :=
  let l := SMap.findD s.ports.cxlLogs (cxlKey port ld log) []
  .next (s.mailboxAnswer port ld mbOk ([word (bit (s.ports.cxlOverflow.contains (cxlKey port ld log))), word l.length]
    ++ l.flatMap (fun r => (List.range 4).map (fun k => r.extractLsb' (64 * k) 64))))

/-- SEQ of an event record (14 Table 14.2). -/
def recSeq (r : BitVec 256) : Nat := (r.extractLsb' 64 32).toNat

/-- CLEAR_EVENT_RECORDS (14 R388): the records named, or all of them; this LD's copy only. -/
def execClearEventRecords (port ld log : Nat) (seqs : Option (List Nat)) (s : State) : Host.Outcome State Fault Refusal :=
  let k := cxlKey port ld log
  let l := SMap.findD s.ports.cxlLogs k []
  .next (if !s.mailboxServes port ld then s
    else
      let s := match seqs with
        | none => { s with ports := { s.ports with
            cxlLogs := SMap.del s.ports.cxlLogs k, cxlOverflow := removeNum k s.ports.cxlOverflow } }
        | some q =>
          let l := l.filter (fun r => !q.contains (recSeq r))
          { s with ports := { s.ports with
            cxlLogs := if l.isEmpty then SMap.del s.ports.cxlLogs k else SMap.put s.ports.cxlLogs k l } }
      s.mailboxAnswer port ld mbOk [])

/-- ST_FLOAT_STAT.WORST_PERMILLE: the highest bound of 04 R145 relative to RATED (04 Table 4.14). -/
def State.worstPermille (s : State) : Nat :=
  (s.stripe.members.filter (fun x => decide (x.1 < 32) && x.2.rated != 0)).foldl (fun a x =>
    max a (min 1023
      ((SMap.findD s.tier.modWrites x.1 0 / max 1 (frameSlots x.2.cap) + 100000) * 1000 / x.2.rated))) 0

/-- Dirty Shutdown Count of the bay: this device's and those that the others have told (11 Table 11.4). -/
def State.bayDirtyCount (s : State) : Nat :=
  s.bay.peers.foldl (fun a x => a + x.2.dirtyCount) (s.events.health.getD 4 0)

/-- GET_HEALTH_INFO: Life Used, Device Temperature, Dirty Shutdown Count. -/
def execGetHealthInfo (port ld : Nat) (s : State) : Host.Outcome State Fault Refusal :=
  let life := min 100 (max (bitsOf s.flHealth 16 8) (s.worstPermille / 10))
  .next (s.mailboxAnswer port ld mbOk [word life, word (s.get F.GB_TEMP.JUNCTION), word s.bayDirtyCount])

/-- GET_POISON_LIST: the poisoned lines of the bolts of the LD's tenant here, and those that the other devices have answered
(`remote`); the overflow flag comes first. -/
def execGetPoisonList (port ld : Nat) (remote : List Nat) (s : State) : Host.Outcome State Fault Refusal :=
  .next (match SMap.find s.bay.ldTenant (port * 16 + ld) with
    | some t =>
      let mine (l : Nat) : Bool := s.bound (boltOfLine l) && s.tenantOf (boltOfLine l) == t
      let all := (remote.filter mine).foldl (fun a l => insertSorted l a) (s.lines.poison.filter mine)
      let full_ := s.lines.poisonOverflow || decide (s.maxPoisonList < all.length)
      s.mailboxAnswer port ld mbOk
        (word (bit full_) :: (all.take s.maxPoisonList).map (fun l => word (64 * l)))
    | none => s.mailboxAnswer port ld mbOk [0#64])

/-- Bytes of the label area. -/
def lsaSize : Nat := 131072

/-- GET_LSA. A label byte never written is zero (DESIGN CHOICE, log entry 41). -/
def execGetLsa (port ld offset len : Nat) (s : State) : Host.Outcome State Fault Refusal :=
  let m := SMap.findD s.ports.lsa (port * 16 + ld) []
  .next (if lsaSize < offset + len then s.mailboxAnswer port ld mbInvalid []
    else s.mailboxAnswer port ld mbOk (packWords ((List.range len).map (fun k => SMap.findD m (offset + k) 0#8))))

/-- SET_LSA. -/
def execSetLsa (port ld offset : Nat) (data : List Byte) (s : State) : Host.Outcome State Fault Refusal :=
  .next (if lsaSize < offset + data.length then s.mailboxAnswer port ld mbInvalid []
    else if !s.mailboxServes port ld then s
    else
      let m := SMap.findD s.ports.lsa (port * 16 + ld) []
      let m := data.zipIdx.foldl (fun m x =>
        if x.1 = 0#8 then SMap.del m (offset + x.2) else SMap.put m (offset + x.2) x.1) m
      let s := { s with ports := { s.ports with lsa := SMap.put s.ports.lsa (port * 16 + ld) m } }
      s.mailboxAnswer port ld mbOk [])

/-- GET_TIMESTAMP: device time plus the offset set; 0 while none is. -/
def execGetTimestamp (port ld at_ : Nat) (s : State) : Host.Outcome State Fault Refusal :=
  let s := s.tick at_
  .next (s.mailboxAnswer port ld mbOk
    [match s.ports.timeOff with | some (h, d) => word (h + (s.now - d)) | none => 0#64])

/-- SET_TIMESTAMP: the offset of host time against DT; DT stays. -/
def execSetTimestamp (port ld hostTime at_ : Nat) (s : State) : Host.Outcome State Fault Refusal :=
  let s := s.tick at_
  .next (if !s.mailboxServes port ld then s
    else { s with ports := { s.ports with timeOff := some (hostTime, s.now) } }.mailboxAnswer port ld mbOk [])

/-- UNSUPPORTED_MAILBOX_COMMAND (11 R316). -/
def execUnsupportedMailboxCommand (port ld _op : Nat) (s : State) : Host.Outcome State Fault Refusal :=
  .next (s.mailboxAnswer port ld mbUnsupported [])

/-! The FM-owned LD of an MLD port (11 R317). -/

/-- The number of the FM-owned LD in an answer. -/
def fmLd : Nat := 16

/-- An answer of the FM-owned LD; an SLD port has none. -/
def State.fmAnswer (s : State) (port code : Nat) (data : List Word) : State :=
  if s.hostServes port && decide (1 < s.getF F.PT_CFG.LD_COUNT port) then s.emit (.mailbox port fmLd code data) else s

/-- GET_LD_INFO: memory size and number of LDs. -/
def execGetLdInfo (port : Nat) (s : State) : Host.Outcome State Fault Refusal :=
  .next (s.fmAnswer port mbOk [word s.capacityUnits, word (s.getF F.PT_CFG.LD_COUNT port)])

/-- GET_LD_ALLOCATIONS: every LD sees the whole range. -/
def execGetLdAllocations (port : Nat) (s : State) : Host.Outcome State Fault Refusal :=
  let n := s.getF F.PT_CFG.LD_COUNT port
  .next (s.fmAnswer port mbOk (word n :: List.replicate n (word s.capacityUnits)))

/-- SET_LD_ALLOCATIONS: refused as Unsupported. -/
def execSetLdAllocations (port : Nat) (s : State) : Host.Outcome State Fault Refusal :=
  .next (s.fmAnswer port mbUnsupported [])

end Sys2Proof.Machine
end

