-- ==== Sys2Proof/Machine/Images.lean ====
section
/-! DEFINITION. Block images, their verification and their panels (12 R330 to R336), change sets and restarts of functions
(12 R337 to R342), clocks (12 R343 to R345). An image comes as its header, panels and the outcome of its signature check
(log entry 5). -/

namespace Sys2Proof.Machine

open Sys2Proof

/-! Panels (12 Tables 12.2, 12.3). -/

/-- Function class of a panel type. -/
def panelFunc (ty : Nat) : Option Nat :=
  match ty with
  | 0x01 | 0x11 | 0x20 | 0x30 | 0x41 | 0x42 | 0x60 => some 8
  | 0x10 => some 1
  | 0x21 => some 2
  | 0x31 => some 3
  | 0x40 => some 9
  | 0x50 => some 4
  | 0x51 => some 5
  | 0x61 => some 7
  | 0x62 => some 6
  | _ => none

/-- Instances of a panel type. -/
def panelCount (ty : Nat) : Nat :=
  match ty with
  | 0x10 => 24
  | 0x21 | 0x31 | 0x51 => 8
  | 0x50 => 6
  | 0x62 => 64
  | _ => 1

/-- The types that an image must hold, once for each instance. -/
def panelsRequired : List Nat := [0x01, 0x10, 0x11, 0x20, 0x30, 0x40, 0x41, 0x42, 0x50, 0x51, 0x60, 0x61]

/-- The body is one of the panel's type. -/
def bodyFits (ty : Nat) (b : PanelBody) : Bool :=
  match ty, b with
  | 0x01, .device _ | 0x10, .quad _ _ | 0x11, .media _ | 0x20, .dram _ | 0x21, .dramGroup _ | 0x30, .flash _
  | 0x31, .flashGroup _ | 0x40, .stripe _ | 0x41, .tier _ _ _ | 0x42, .power _ _ _ | 0x50, .engine _ _ | 0x51, .crown _
  | 0x60, .bay _ _ _ _ _ | 0x61, .route _ _ | 0x62, .boltPolicy _ _ => true
  | _, _ => false

/-- The body of the panel of a type and instance. -/
def imgBody (i : Image) (ty inst : Nat) : Option PanelBody :=
  (i.panels.find? (fun p => p.ty == ty && p.inst == inst)).map (fun p => p.body)

/-- Lanes of the ports of a quad mode as a PT_CFG.WIDTH code (11 Table 11.1). -/
def modeWidth (mode : Nat) : Nat := match mode with | 0 => 1 | 1 => 2 | _ => 3

/-- Port `k` of a quad is present in a mode (11 Table 11.1). -/
def modeHas (mode k : Nat) : Bool := match mode with | 0 => true | 1 => k % 2 == 0 | _ => k == 0

/-- The ports that are present, with their quad modes and panels. -/
def imgPorts (i : Image) : List (Nat × Nat × PortPanel) :=
  (List.range 24).flatMap (fun q =>
    match imgBody i 0x10 q with
    | some (.quad mode l) =>
      ((List.range 4).filter (modeHas mode)).filterMap (fun k => (l[k]?).map (fun p => (4 * q + k, mode, p)))
    | _ => [])

/-- The ports of a personality. -/
def imgPortsOf (i : Image) (pers : Nat) : List (Nat × Nat × PortPanel) :=
  (imgPorts i).filter (fun x => x.2.2.personality == pers)

/-- The modules on MEDIA ports. -/
def imgModules (i : Image) : List Nat := (imgPortsOf i 4).map (fun x => x.2.2.module)

/-! Limits of the panels (12 Table 12.3, last column). -/

/-- The highest DRAM speed of an ordering code, in 100 MT/s. -/
def speedLimit (code : Nat) : Nat := if code = 1 then 88 else 64

/-- No number stands twice in the list. -/
def distinct (l : List Nat) : Bool := (nub l).length == l.length

/-- A port's width is its mode's and allowed for its personality, its rate within the ordering code (11 Tables 11.1, 11.2; R310; 00 R6). -/
def portOk (code : Nat) (x : Nat × Nat × PortPanel) : Bool :=
  let p := x.2.2
  p.personality == 0 ||
    (decide (x.2.1 ≤ 2) && decide (p.personality ≤ 4) && p.width == modeWidth x.2.1
      && !(p.personality == 4 && p.width == 3) && decide (1 ≤ p.maxRate) && decide (p.maxRate ≤ rateLimit code))

/-- Every quad panel has a mode of 11 Table 11.1, and none names a lane rate above that of the ordering code, be its port OFF or absent
(00 R6). -/
def imgRatesOk (i : Image) (code : Nat) : Bool :=
  i.panels.all (fun x => match x.body with | .quad m l => decide (m ≤ 2) && l.all (fun p => decide (p.maxRate ≤ rateLimit code)) | _ => true)

/-- The port panel set (11 R310), but for its CASC links. -/
def imgPortsOk (i : Image) (code : Nat) : Bool :=
  let twin := imgPortsOf i 2
  imgRatesOk i code && (imgPorts i).all (portOk code) && !(imgPortsOf i 1).isEmpty
    && decide ((imgModules i).length ≤ 32) && distinct (imgModules i) && (imgModules i).all (fun m => decide (m < 32))
    && decide (2 ≤ twin.length) && decide (2 ≤ (nub (twin.map (fun x => x.1 / 4))).length)

/-- A DRAM build of 06 Table 6.1. -/
def dramOk (b : DramBuild) (code : Nat) : Bool :=
  [8, 16, 32].contains b.channels && decide (b.density ≤ 4) && decide (b.stack ≤ 2) && decide (b.pranks ≤ 1)
    && decide (48 ≤ b.speed) && decide (b.speed ≤ speedLimit code) && b.speed % 4 == 0
    && decide (buildGib b ≤ 256) && decide (b.am ≤ 3)

/-- A flash build of 07 Table 7.1 with the stripe width over it. -/
def flashOk (b : FlashBuild) (width : Nat) : Bool :=
  decide (6 ≤ b.channels) && decide (b.channels ≤ 32) && decide (width ≤ b.channels)
    && decide (1 ≤ b.targets) && decide (b.targets ≤ 16) && [1, 2, 4].contains b.luns
    && decide (b.diesPerChannel ≤ 32) && decide (b.diesPerChannel * b.channels ≤ 1024)
    && b.pageUser == 16384 && decide (2048 ≤ b.pageSpare) && [1, 2, 4].contains b.planes
    && decide (b.blocksPerChannel ≤ 131072) && decide (b.rawTib ≤ 256)
    && decide (16 ≤ b.rate) && decide (b.rate ≤ 36) && b.rate % 4 == 0 && decide (1000 ≤ b.ratedPe)

/-- A stripe geometry of 08 Table 8.1 and R237 over the modules and channels of the image. -/
def stripeOk (g : StripeGeom) (modules : List Nat) (channels : Nat) : Bool :=
  let l := g.groups.flatMap id
  decide (1 ≤ g.groups.length) && decide (g.groups.length ≤ 8) && decide (4 ≤ g.pWidth) && decide (g.pWidth ≤ 16)
    && g.groups.all (fun x => x.length == g.pWidth) && distinct l && l.all modules.contains && modules.all l.contains
    && decide (g.pSpare ≤ 2) && decide (6 ≤ g.fWidth) && decide (g.fWidth ≤ 32) && decide (g.fWidth ≤ channels)
    && decide (g.pagesPerBlock * 4 * (g.fWidth - 2) ≤ 2 ^ 20)

/-- The rails but VDD_AON and VDD_NVM stand on PWR_EN1 to PWR_EN11, one ball each (13 R368; DEDUCED, log entry 42). -/
def enablesOk (l : List Nat) : Bool := l.length == 9 && distinct l && l.all (fun e => decide (1 ≤ e) && decide (e ≤ 11))

/-- A clock in 100 MHz steps (12 Table 12.10). -/
def clockOk (lo hi mhz : Nat) : Bool := decide (lo ≤ mhz) && decide (mhz ≤ hi) && mhz % 100 == 0

/-! Bays and routes (01 R33 to R39). A topology lists the bays of every level as a level and its devices. -/

/-- The level of the smallest bay that holds two devices. -/
def levelOf (topo : List (Nat × List Nat)) (a b : Nat) : Option Nat :=
  (topo.filter (fun x => x.2.contains a && x.2.contains b)).foldl (fun m x =>
    match m with | some n => some (min n x.1) | none => some x.1) none

/-- The sub-bays of a bay. -/
def subBays (topo : List (Nat × List Nat)) (x : Nat × List Nat) : List (Nat × List Nat) :=
  topo.filter (fun y => y.1 + 1 == x.1 && y.2.all x.2.contains)

/-- A bay is a pair, or joins two to four bays of the level below, whose devices are its own (01 R33). -/
def bayOk (topo : List (Nat × List Nat)) (x : Nat × List Nat) : Bool :=
  distinct x.2 && x.2.all (fun d => decide (d < 64)) &&
  (if x.1 = 1 then
    (match x.2 with | [a, b] => a % 2 == 0 && b == a + 1 | _ => false)
  else
    let l := subBays topo x
    decide (2 ≤ l.length) && decide (l.length ≤ 4) && distinct (l.flatMap (fun y => y.2))
      && x.2.all (fun d => l.any (fun y => y.2.contains d)))

/-- The bay topology (01 R33, R35). -/
def topoOk (topo : List (Nat × List Nat)) (levels dev : Nat) : Bool :=
  decide (1 ≤ levels) && decide (levels ≤ 6) && topo.all (fun x => decide (1 ≤ x.1) && decide (x.1 ≤ levels) && bayOk topo x)
    && (match topo.filter (fun x => x.1 == levels) with | [x] => x.2.contains dev | _ => false)

/-- The devices of the whole bay. -/
def topoDevices (topo : List (Nat × List Nat)) (levels : Nat) : List Nat :=
  match topo.filter (fun x => x.1 == levels) with | x :: _ => x.2 | [] => []

/-- Most hops to a device at a level (01 R38). -/
def hopLimit (level : Nat) : Nat := if level ≤ 2 then 1 else 2 * level - 3

/-- Two sibling bays are joined by two gate links that end on different devices at each side (01 R37). -/
def gatesOk (gates : List (Nat × Nat)) (a b : Nat × List Nat) : Bool :=
  let l := (gates.filter (fun g => a.2.contains g.1 && b.2.contains g.2))
    ++ ((gates.filter (fun g => b.2.contains g.1 && a.2.contains g.2)).map (fun g => (g.2, g.1)))
  l.any (fun g => l.any (fun h => g.1 != h.1 && g.2 != h.2))

/-- The gate links of the bay (01 R37). -/
def allGatesOk (topo : List (Nat × List Nat)) (gates : List (Nat × Nat)) : Bool :=
  (topo.filter (fun x => decide (3 ≤ x.1))).all (fun x =>
    let l := subBays topo x
    l.all (fun a => l.all (fun b => a == b || gatesOk gates a b)))

/-- The route entry of a device. -/
def routeTo (l : List Route) (d : Nat) : Route := l.getD d { primary := 127, alt := 127, hops := 0, altHops := 0 }

/-- A route within its hop bound on the paths that it names, over ports that are there (01 R38, R39). -/
def routeOk (topo : List (Nat × List Nat)) (l : List Route) (dev d : Nat) : Bool :=
  let r := routeTo l d
  match levelOf topo dev d with
  | some n => decide (r.primary < 96) && decide (r.hops ≤ hopLimit n) && (decide (96 ≤ r.alt) || decide (r.altHops ≤ hopLimit n))
  | none => true

/-- A route reaches its device in one hop over a port of a personality. -/
def oneHop (r : Route) (ports : List Nat) : Bool :=
  (r.hops == 1 && ports.contains r.primary) || (r.altHops == 1 && ports.contains r.alt)

/-- The route table of the image (01 R36 to R39; 11 R310). -/
def imgRoutesOk (i : Image) : Bool :=
  match imgBody i 0x60 0, imgBody i 0x61 0 with
  | some (.bay _ _ dev levels topo), some (.route l gates) =>
    let all := (topoDevices topo levels).filter (fun d => d != dev)
    let twin := if dev % 2 = 0 then dev + 1 else dev - 1
    let tports := (imgPortsOf i 2).map (fun x => x.1)
    let cports := (imgPortsOf i 3).map (fun x => x.1)
    let t := routeTo l twin
    all.all (routeOk topo l dev) && tports.contains t.primary && (decide (96 ≤ t.alt) || tports.contains t.alt)
      && (all.filter (fun d => levelOf topo dev d == some 2)).all (fun d => oneHop (routeTo l d) cports)
      && allGatesOk topo gates
  | _, _ => false

/-- A panel keeps its own limits; those over several panels stand in `limitsOk`. -/
def imgPanelOk (i : Image) (code : Nat) (p : Panel) : Bool :=
  match p.body with
  | .dram b => dramOk b code
  | .dramGroup inBuild => inBuild
  | .flashGroup inBuild => inBuild
  | .flash b => (match imgBody i 0x40 0 with | some (.stripe g) => flashOk b g.fWidth | _ => false)
  | .stripe g => (match imgBody i 0x30 0 with | some (.flash b) => stripeOk g (imgModules i) b.channels | _ => false)
  | .tier saveGib _ l =>
    decide (2 ≤ l.length) && l.length % 2 == 0 && distinct l && l.all (imgModules i).contains && decide (2 ≤ saveGib)
  | .power _ _ en => enablesOk en
  | .engine mhz _ => clockOk 1000 2000 mhz
  | .crown mhz => clockOk 800 1600 mhz
  | .bay _ _ dev levels topo => topoOk topo levels dev
  | _ => true

/-- Step 6 of 12 Table 12.4. -/
def imgLimitsOk (i : Image) (code : Nat) : Bool :=
  i.panels.all (imgPanelOk i code) && imgPortsOk i code && (imgRoutesOk i)

/-! Verification (12 R333, R334). -/

/-- Step 5 of 12 Table 12.4. -/
def imgWellMade (i : Image) : Bool :=
  i.panels.all (fun p => p.inside && p.hdrCrcOk && p.bodyCrcOk && panelFunc p.ty == some p.func
      && decide (p.inst < panelCount p.ty) && bodyFits p.ty p.body)
    && distinct (i.panels.map (fun p => p.ty * 256 + p.inst))
    && panelsRequired.all (fun ty => (List.range (panelCount ty)).all (fun k => (imgBody i ty k).isSome))

/-- The key hash that KEY_ID selects (12 R334). -/
def State.keyHash (s : State) (keyId : Nat) : Option (BitVec 384) :=
  match s.otp.custHash, keyId with
  | none, 0 => s.otp.gwHash
  | some h, 1 => some h
  | _, _ => none

/-- The first step of 12 Table 12.4 that an image fails, with its code. -/
def State.verifyImage (s : State) (i : Image) : Option (Nat × Nat) :=
  let code := s.get F.GB_ID.CODE
  if !(i.magicOk && i.format == 1 && i.length % 4096 == 0 && decide (0 < i.length) && decide (i.length ≤ 8388608)
      && i.dirOff == 256) then some (1, 7)
  else if !(s.keyHash i.keyId == some i.pubHash && i.sigOk) then some (2, 12)
  else if i.svn < s.otp.floor then some (3, 12)
  else if !(i.code == 0 || (i.code == code && decide (code ≤ 2))) then some (4, 12)
  else if !(imgWellMade i) then some (5, 7)
  else if !imgLimitsOk i code then some (6, 12)
  else none

/-- A slot of the image partition. -/
def State.slot (s : State) (n : Nat) : ISlot := SMap.findD s.image.slots n { st := 0, code := 0, step := 0, img := none }

/-- A slot written. -/
def State.putSlot (s : State) (n : Nat) (x : ISlot) : State :=
  { s with image := { s.image with slots := if x.st = 0 then SMap.del s.image.slots n else SMap.put s.image.slots n x } }

/-- A slot verified: VALID, or REFUSED with the step and the code (12 R333). -/
def State.checkSlot (s : State) (n : Nat) : State × Nat :=
  match (s.slot n).img with
  | none => (s, 7)
  | some i =>
    match s.verifyImage i with
    | none => (s.putSlot n { st := 1, code := 0, step := 0, img := some i }, 0)
    | some (step, code) =>
      ((s.putSlot n { st := 2, code := code, step := step, img := some i }).raise F.IS_STATUS.IMAGE_REFUSED, code)

/-! Panels applied. Each shows its effect in the registers of the function's chapter (12 R332). -/

/-- A member of a tier P group as the geometry places it; a module already known keeps its state. -/
def State.placeMember (s : State) (m g pos : Nat) : State :=
  match SMap.find s.stripe.members m with
  | some x => s.putMember m { x with group := g, pos := pos }
  | none => s.putMember m { st := .inService, group := g, pos := pos, rowsLeft := 0, rowsTotal := 0, cap := 0, rated := 0 }

/-- The geometry in use: members, widths and spares (08 R232). -/
def State.useGeom (s : State) (g : StripeGeom) : State :=
  let s := { s with stripe := { s.stripe with geom := some g } }
  let s := (List.range g.groups.length).foldl (fun s k =>
    let l := g.groups.getD k []
    (List.range l.length).foldl (fun s j => s.placeMember (l.getD j 0) k j) s) s
  let s := ((s.put F.ST_P_CFG.GROUPS g.groups.length).put F.ST_P_CFG.WIDTH g.pWidth).put F.ST_P_CFG.P_SPARE g.pSpare
  let s := s.put F.ST_P_CFG.MODULES (geomModules g)
  (s.put F.ST_F_CFG.WIDTH g.fWidth).put F.ST_F_CFG.PAGES g.pagesPerBlock

/-- A STRIPE panel: the geometry of a device that has none, else the target of a reshape (08 R258). -/
def State.applyStripe (s : State) (g : StripeGeom) : State :=
  match s.stripe.geom with
  | none => s.useGeom g
  | some old =>
    let s := s.useGeom old
    { s with stripe := { s.stripe with target := if g = old then none else some g } }

/-- The DRAM panel (06 R167, R175). -/
def State.applyDram (s : State) (b : DramBuild) : State :=
  let s := { s with dram := { s.dram with build := some b } }
  let s := (s.put F.DC_MAP.AM b.am).put F.DC_MAP.CH_BITS (Nat.log2 b.channels)
  (List.range 32).foldl (fun s ch =>
    s.setReg .DC_CFG ch (if ch < b.channels then
      word (1 + bit b.x8 * 2 + b.density % 8 * 4 + b.stack % 4 * 32 + b.pranks % 2 * 128 + b.speed % 128 * 256) else 0#64)) s

/-- The FLASH panel (07 R199). The first one formats the tier: spare blocks and factory bad blocks are open (log entry 2). -/
def State.applyFlash (s : State) (b : FlashBuild) : State :=
  let fresh := s.flash.build.isNone
  let spare := min (b.channels * b.blocksPerChannel) (Config.flashSpare (b.channels * b.blocksPerChannel)).toNat
  let s := { s with flash := { s.flash with
    build := some b, spareFmt := if fresh then spare else s.flash.spareFmt, spareLeft := if fresh then spare else s.flash.spareLeft } }
  let s := (s.put F.ST_F_CFG.CHANNELS b.channels).put F.FL_RETRY_CTL.ENTRIES (b.retryEntries % 32)
  (List.range 32).foldl (fun s ch =>
    if ch < b.channels then
      let bad := min b.blocksPerChannel (Config.factoryBad ch).toNat
      let gone := (s.flash.blocks.filter (fun x => x.1 / 2 ^ 20 == ch && x.2.retired)).length
      let here := match SMap.find s.stripe.members (32 + ch) with | some x => x.st == .inService | none => true
      let s := s.setReg .FL_CFG ch (word (1 + bit b.jesd * 2 + b.rate % 64 * 4 + b.targets % 32 * 256
        + b.diesPerChannel % 64 * 2 ^ 13 + Nat.log2 b.luns % 4 * 2 ^ 19 + bit here * 2 ^ 21))
      let s := ((s.setF F.FL_BLOCKS.FACTORY_BAD ch bad).setF F.FL_BLOCKS.GOOD ch (b.blocksPerChannel - bad - gone)).setF
        F.FL_BLOCKS.RETIRED ch gone
      if SMap.has s.stripe.members (32 + ch) then s
      else s.putMember (32 + ch) { st := .inService, group := 0, pos := 0, rowsLeft := 0, rowsTotal := 0, cap := 0, rated := 0 }
    else s.setReg .FL_CFG ch 0#64) s

/-- A QUAD panel (11 R308, R309). -/
def State.applyQuad (s : State) (q mode : Nat) (l : List PortPanel) : State :=
  let s := s.setF F.PT_QUAD.MODE q mode
  (List.range 4).foldl (fun s k =>
    let n := 4 * q + k
    match l[k]? with
    | some p =>
      s.setReg .PT_CFG n (if modeHas mode k then
        word (p.personality % 8 + modeWidth mode * 8 + p.maxRate % 16 * 32
          + (if p.personality = 1 then p.ldCount % 32 else 0) * 512 + bit p.mgmtEn * 2 ^ 14 + p.mgmtLd % 16 * 2 ^ 15
          + p.module % 32 * 2 ^ 19) else 0#64)
    | none => s.setReg .PT_CFG n 0#64) s

/-- The engines that an image builds. -/
def imgEngines (i : Image) : List Nat :=
  (List.range 6).flatMap (fun c =>
    match imgBody i 0x50 c with
    | some (.engine _ l) => ((List.range 8).filter (fun k => l.getD k false)).map (fun k => 8 * c + k)
    | _ => [])

/-- The route table (01 R39). -/
def State.applyRoutes (s : State) (l : List Route) : State :=
  (List.range 64).foldl (fun s d =>
    let r := routeTo l d
    s.setReg .BL_ROUTE d (word (r.primary % 128 + r.alt % 128 * 256 + r.hops % 16 * 2 ^ 16 + r.altHops % 16 * 2 ^ 20))) s

/-- A panel applied (12 Table 12.3). -/
def State.applyPanel (s : State) (p : Panel) : State :=
  match p.body with
  | .device g => s.put F.BB_EV_CTL.ALERT_GPIO g
  | .quad mode l => s.applyQuad p.inst mode l
  | .media l => { s with ports := { s.ports with rated := l } }
  | .dram b => s.applyDram b
  | .flash b => s.applyFlash b
  | .stripe g => s.applyStripe g
  | .tier saveGib journalMib l =>
    let s := s.put F.PW_ENERGY_DECL.SAVE_AREA_GIB saveGib
    { s with flash := { s.flash with jsize := journalMib * 16384 }, image := { s.image with saveModules := l } }
  | .power u f _ => (s.put F.PW_ENERGY_DECL.USABLE_J u).put F.PW_ENERGY_DECL.FIXED_J f
  | .bay id serial dev levels topo =>
    let s := { s with image := { s.image with bayId := id, baySerial := serial, topo := topo } }
    let s := (s.put F.BL_DEVICE_ID.DEVICE_ID dev).put F.BL_DEVICE_ID.LEVELS levels
    (s.put F.BL_DEVICE_ID.BAY_DEVICES (topoDevices topo levels).length).put F.BL_RANGE_LIMIT.BOLTS
      (min 0x100000 (Config.rangeBolts id).toNat)
  | .route l _ => s.applyRoutes l
  | .boltPolicy w n =>
    { s with image := { s.image with policy := SMap.put s.image.policy p.inst (w, n) } }
  | _ => s

/-- Panels applied in the order of the image. -/
def State.applyPanels (s : State) (l : List Panel) : State := l.foldl State.applyPanel s

/-- The image of a slot runs: its panels, its version and its SVN are the device's (12 R335, R355). -/
def State.runImage (s : State) (n : Nat) (i : Image) : State :=
  let before := s.effGib
  let s := { s with image := { s.image with running := some i, policy := [] } }
  let s := (s.applyPanels i.panels).setEngines (imgEngines i)
  let s := s.setReg .IS_VERSION 0 i.version
  let s := s.put F.IS_BOOT.RUN_SLOT n
  s.updateSaveRate.budgetChanged before

/-! Commit records (12 R340). -/

/-- SEQ of the next record: one more than the latest, counting those on their way. -/
def State.commitSeq (s : State) : Nat :=
  s.image.envm.foldl (fun m x => match x with | .commit c => max m (c.seq + 1) | .wrap _ => m)
    (match s.image.commit with | some c => c.seq + 1 | none => 0)

/-- VERSION of a slot. -/
def State.slotVersion (s : State) (n : Nat) : BitVec 64 := match (s.slot n).img with | some i => i.version | none => 0#64

/-- A commit record goes to eNVM. -/
def State.sendCommit (s : State) (st cls inst old new boot fallback : Nat) : State :=
  let c : Commit := { seq := s.commitSeq, state := st, func := cls, inst := inst, oldSlot := old, newSlot := new,
                      boot := boot, fallback := fallback, oldVersion := s.slotVersion old, newVersion := s.slotVersion new,
                      dt := s.now }
  { s with image := { s.image with envm := s.image.envm ++ [.commit c] } }

/-- IS_BOOT shows the slots of the latest record. -/
def State.showBoot (s : State) : State :=
  match s.image.commit with
  | some c => (s.put F.IS_BOOT.BOOT_SLOT c.boot).put F.IS_BOOT.FALLBACK_SLOT c.fallback
  | none => (s.put F.IS_BOOT.BOOT_SLOT 0).put F.IS_BOOT.FALLBACK_SLOT 0

/-! IS_CMD (12 R356). -/

/-- An IS command ends. -/
def State.isCode (s : State) (code : Nat) : State :=
  ((s.put F.IS_CMD.GO 0).put F.IS_CMD_STATUS.BUSY 0).put F.IS_CMD_STATUS.CODE code

/-- A slot that no command may write: the running slot, the fallback slot, or one of a running change (12 R330, Table 12.8). -/
def State.slotKept (s : State) (n : Nat) : Bool :=
  (s.image.running.isSome && s.get F.IS_BOOT.RUN_SLOT == n) || s.get F.IS_BOOT.FALLBACK_SLOT == n
    || s.image.change.any (fun c => !c.restart && c.newSlot == n)

/-- IMAGE_LOAD: the image that stands at the range offset of ARG0. -/
def State.imageLoad (s : State) (a0 a1 : Word) (i : Image) : State :=
  let n := bitsOf a1 0 2
  let b := boltOfOff (bitsOf a0 0 56)
  if s.slotKept n then s.isCode 12
  else if s.get F.BL_RANGE_LIMIT.BOLTS ≤ b || !s.bound b then s.isCode 13
  else
    let (s, code) := (s.putSlot n { st := 3, code := 0, step := 0, img := some i }).checkSlot n
    s.isCode code

/-- IMAGE_ERASE. -/
def State.imageErase (s : State) (a1 : Word) : State :=
  let n := bitsOf a1 0 2
  if s.slotKept n then s.isCode 12
  else (s.putSlot n { st := 0, code := 0, step := 0, img := none }).isCode 0

/-- SVN_RAISE (12 R334, R356). -/
def State.svnRaise (s : State) : State :=
  let run := match s.image.running with | some i => i.svn | none => 0
  let low := match (s.slot (s.get F.IS_BOOT.FALLBACK_SLOT)).img with | some i => decide (i.svn < run) | none => false
  if low then s.isCode 12
  else ({ s with otp := { s.otp with floor := max s.otp.floor run } }).isCode 0

/-! Functions stopped and restarted (12 Table 12.5). -/

/-- Instances of a restartable function class. -/
def funcInstances (cls : Nat) : Nat :=
  match cls with | 1 => 24 | 2 => 8 | 3 => 8 | 4 => 6 | 5 => 8 | 6 => 64 | 7 => 1 | 8 => 1 | 9 => 1 | _ => 0

/-- The field of IS_FUNC_STOPPED for a class. -/
def stopField (cls : Nat) : Option FieldRef :=
  match cls with
  | 1 => some F.IS_FUNC_STOPPED.QUAD | 2 => some F.IS_FUNC_STOPPED.DRAM_GROUP | 3 => some F.IS_FUNC_STOPPED.FLASH_GROUP
  | 4 => some F.IS_FUNC_STOPPED.CLUSTER | 5 => some F.IS_FUNC_STOPPED.CROWN_GROUP | 7 => some F.IS_FUNC_STOPPED.ROUTE
  | _ => none

/-- Bit `n` of a number set or cleared. -/
def setBit (x n : Nat) (on : Bool) : Nat := if x.testBit n = on then x else if on then x + 2 ^ n else x - 2 ^ n

/-- The stopped bit of a function. -/
def State.markStopped (s : State) (cls inst : Nat) (on : Bool) : State :=
  let s := if cls = 1 then s.setF F.PT_QUAD.STOPPED inst (bit on) else s
  if cls = 6 then s.setReg .IS_BOLT_STOPPED 0 (word (setBit (s.reg .IS_BOLT_STOPPED 0).toNat inst on))
  else match stopField cls with
    | some f => s.put f (setBit (s.get f) inst on)
    | none => s

/-- Members of a function are unavailable while it is stopped (08 R249). -/
def State.memberAway (s : State) (ix : Nat) : State :=
  match SMap.find s.stripe.members ix with
  | some x => if x.st == .inService then (s.putMember ix { x with st := .unavailable }).leavePair ix x else s
  | none => s

/-- A port quad stops: its links go down, its modules are unavailable (12 Table 12.5; 11 Table 11.9). -/
def State.stopQuad (s : State) (q : Nat) : State :=
  let l := ((List.range 4).map (fun k => 4 * q + k)).filter (fun p => s.persOf p != 0)
  let s := (l.filter (fun p => s.persOf p == 4)).foldl (fun s p => s.memberAway (s.getF F.PT_CFG.MODULE p)) s
  l.foldl (fun s p =>
    let was := s.portUp p
    let s := s.setF F.PT_LINK.STATE p 0
    if was then s.portLeft p else s) s

/-- The frames of tier D that a stop of a DRAM group empties: those of the group under AM3, else all (06 Table 6.5). -/
def State.groupFrames (s : State) (g : Nat) : SMap DFrame :=
  if s.get F.DC_MAP.AM = 3 then
    s.dram.dframes.filter (fun x => amField s.pieces .ch (x.2.block * 64) / 4 == g)
  else s.dram.dframes

/-- Frames of a stopping group that still hold a line which is not in tier P. -/
def State.groupDirty (s : State) (g : Nat) : List Nat :=
  ((s.groupFrames g).filter (fun x => x.2.dirty != 0#64 || SMap.has s.lines.running x.1
    || s.lines.merge.any (fun m => frameOfLine m.line == x.1))).map Prod.fst

/-- The group is being emptied: nothing new is placed there, and its dirty frames are destaged first. -/
def State.emptyGroup (s : State) (g : Nat) : State :=
  let s := s.put F.DC_MAP.GROUPS_UP (setBit (s.get F.DC_MAP.GROUPS_UP) g false)
  let s := s.put F.DC_MAP.D_BLOCKS s.poolSize
  s.queueFrames (s.groupDirty g)

/-- The blocks of a DRAM group are dropped. Under AM3 its VOLATILE frames move to other groups; else VOLATILE data on the
device is lost and descriptors in flight end with FENCED (06 Table 6.5, R178). -/
def State.dropGroup3 (s : State) (g : Nat) : State :=
  let l := s.groupFrames g
  let s := { s with dram := { s.dram with dframes := s.dram.dframes.filter (fun x => !SMap.has l x.1) } }
  if s.get F.DC_MAP.AM = 3 then
    s.moveVolatile l
  else
    -- every structure is in tier P first; the flash map goes by a checkpoint (06 R178; 07 R214)
    let s := if s.flash.build.isSome then
        { s with flash := { s.flash with ckptRunning := true, ckptAt := s.now, ckptFrom := s.flash.jseq, ckptSeq := s.flash.ckptSeq + 1 } }.endCheckpoint
      else s
    let s := s.tier.volFrames.foldl (fun s f => (s.dropLines (fun k => frameOfLine k == f)).zeroRange (f * 4096) 4096) s
    let s := { s with tier := { s.tier with volFrames := [] } }
    (s.queues.descs.filter (fun d => !d.own && d.st != .ended && d.st != .writing)).foldl (fun s d => s.endDesc d.q d.ix 8) s

/-- The VOLATILE frames of a group have room in the other groups (06 R178). -/
def State.groupMoves (s : State) (g : Nat) : Bool :=
  let l := s.groupFrames g
  let others := (s.groupsUp.filter (fun x => x != g)).length * s.runBlocks
  decide ((s.tier.volFrames.filter (fun f => SMap.has s.dram.dframes f)).length ≤ others) || !l.any (fun x => s.tier.volFrames.contains x.1)

/-- The lines of a Crown slice group leave it: dirty ones for tier D, clean ones are dropped (12 Table 12.5; 05 R164). -/
def State.stopSlices (s : State) (g : Nat) : State :=
  (SMap.keys (s.crown.cells.filter (fun x => lineSlice x.2.line / 4 == g && !x.2.filling))).foldl State.evictCell s

/-- A function stops: what 12 Table 12.5 gives, and its bit. -/
def State.stopFunc (s : State) (cls inst : Nat) : State :=
  match cls with
  | 1 => (s.stopQuad inst).markStopped 1 inst true
  | 2 => (s.markStopped 2 inst true).dropGroup3 inst
  | 3 =>
    let s := s.markStopped 3 inst true
    (List.range 4).foldl (fun s k => s.memberAway (32 + 4 * inst + k)) s
  | 4 => (s.markStopped 4 inst true).stopCluster inst
  | 5 => (s.markStopped 5 inst true).stopSlices inst
  | _ => s.markStopped cls inst true

/-- A function has restarted and serves again (12 Table 12.5; 06 Table 6.5; 07 R203; 10 Table 10.11). -/
def State.startFunc (s : State) (cls inst : Nat) : State :=
  let s := s.markStopped cls inst false
  let s := match cls with
    | 1 =>
      (((List.range 4).map (fun k => 4 * inst + k)).filter (fun p => s.persOf p != 0)).foldl (fun (s : State) p =>
        s.setF F.PT_LINK.STATE p 1) s
    | 2 =>
      let s := s.put F.DC_MAP.GROUPS_UP (setBit (s.get F.DC_MAP.GROUPS_UP) inst true)
      (s.put F.DC_MAP.D_BLOCKS s.poolSize).fillPins
    | 3 =>
      let s := { s with flash := { s.flash with finePool := s.get F.FL_MAP_CTL.FINE_SPANS } }
      (List.range 4).foldl (fun s k => s.memberBack (32 + 4 * inst + k)) s
    | 4 => s.restartCluster inst (match s.image.running with | some i => (imgEngines i) | none => [])
    | 7 => s.updateRoutes
    | _ => s
  s.retryHeld.settle

/-! CHANGE and RESTART (12 R337 to R339, Table 12.6). -/

/-- Panels in which two images differ. -/
def diffPanels (a b : Image) : List Panel :=
  (a.panels.filter (fun p => imgBody b p.ty p.inst != some p.body)) ++ (b.panels.filter (fun p => imgBody a p.ty p.inst != some p.body))

/-- The difference belongs to one function instance; a STRIPE panel may differ as well; class 8 allows any (12 R337). -/
def diffAllowed (a b : Image) (cls inst : Nat) : Bool :=
  cls == 8 || (diffPanels a b).all (fun p => p.ty == 0x40 || (p.func == cls && p.inst == inst))

/-- The active MIRRORED bolts that a class hands over at step 2 (12 Table 12.5). -/
def State.handsOver (s : State) (cls inst : Nat) : List Nat :=
  let own := s.mirroredBolts.filter s.isActive
  match cls with
  | 2 => if s.get F.DC_MAP.AM = 3 then [] else own
  | 6 => own.filter (fun b => b / 16384 % 64 == inst)
  | 8 => own
  | _ => []

/-- The class needs PAIRED (12 Table 12.6 step 1). -/
def State.needsPaired (s : State) (cls : Nat) : Bool :=
  cls == 6 || cls == 8 || (cls == 2 && s.get F.DC_MAP.AM != 3)

/-- The change in progress, shown in IS_CHANGE_STAT. -/
def State.setChange (s : State) (c : Change) : State :=
  let s := { s with image := { s.image with change := some c } }
  let s := (s.put F.IS_CHANGE_STAT.STEP c.step).put F.IS_CHANGE_STAT.FUNCTION c.cls
  let s := s.put F.IS_CHANGE_STAT.INSTANCE c.inst
  if c.restart then s else s.put F.IS_CHANGE_STAT.NEW_SLOT c.newSlot

/-- The down path is asked for with a cause, from service alone (13 R375): the device releases PSYNC. -/
def State.startDown (s : State) (cause : Nat) : State :=
  if s.inService && s.power.holding then
    ({ s with power := { s.power with due := cause, holding := false } }).emit (.psync false)
  else s

/-- The change ends: its step and duration, the command's code, and the flag. -/
def State.closeChange (s : State) (c : Change) (code : Nat) : State :=
  let s := { s with image := { s.image with change := none } }
  let s := (s.put F.IS_CHANGE_STAT.STEP 0).put F.IS_CHANGE_STAT.LAST_MS ((s.now - c.since) / 1000000)
  let s := if c.pll then s else s.isCode code
  s.raise (if code = 0 then F.IS_STATUS.CHANGE_DONE else F.IS_STATUS.CHANGE_ABORTED)

/-- Step 7: the function restarts; a whole device goes down to state 9, class 9 has nothing to restart. The outcome of the
others comes with FUNCTION_RESTART_DONE. -/
def State.restartFunc (s : State) (c : Change) : State :=
  let s := s.setChange { c with step := 7 }
  if c.cls = 8 then s.startDown 5
  else if c.cls = 9 then
    (s.setChange { c with step := 8 }).sendCommit 3 c.cls c.inst c.oldSlot c.newSlot c.newSlot c.oldSlot
  else s

/-- Steps 3 and 4: the function is stopped; a change goes on with its PENDING record, a restart with step 7. -/
def State.stopped (s : State) (c : Change) : State :=
  let s := if c.cls = 8 then s.startYield else if c.cls = 9 then s else s.stopFunc c.cls c.inst
  if c.restart then s.restartFunc c
  else
    (s.setChange { c with step := 4 }).sendCommit 1 c.cls c.inst c.oldSlot c.newSlot c.oldSlot c.fallback

/-- A change that waits goes on: step 2 when its bolts are handed over, step 3 when a DRAM group holds no dirty line. A
handover that failed ends it with ABORTED (12 Table 12.8). -/
def State.stepChange (s : State) : State :=
  match s.image.change with
  | some c =>
    if c.step = 2 then
      if s.twin.group.isSome || !s.twin.downWork.isEmpty then s
      else if !(s.handsOver c.cls c.inst).isEmpty && s.needsPaired c.cls && !c.pll then s.closeChange c 9
      else if c.cls = 2 then
        let s := (s.setChange { c with step := 3 }).emptyGroup c.inst
        if (s.groupDirty c.inst).isEmpty then (s.stopped c).settle else s.settle
      else (s.stopped { c with step := 3 }).settle
    else if c.step = 3 && c.cls = 2 then
      let l := s.groupDirty c.inst
      if l.isEmpty then (s.stopped c).settle else s.queueFrames l
    else s
  | none => s

/-- Steps 1 and 2 of an accepted change or restart. -/
def State.beginChange (s : State) (c : Change) : State :=
  let l := if s.twin.st == .paired then s.handsOver c.cls c.inst else []
  let s := s.setChange { c with step := 2 }
  let s := if l.isEmpty then s
    else (({ s with twin := { s.twin with downWork := l } }).nextGroup 2).settle
  s.stepChange

/-- Conditions of step 1 that a change and a restart share: a code that refuses it, or none. -/
def State.refuseChange (s : State) (cls inst : Nat) : Option Nat :=
  if !s.inService then some 12
  else if s.needsPaired cls && s.twin.st != .paired then some 12
  else if cls = 2 && s.get F.DC_MAP.AM == 3 && !s.groupMoves inst then some 12
  else none

/-- CHANGE; a class or instance that 12 Table 12.5 does not list gets an open code (log entry 2). -/
def State.changeCmd (s : State) (a0 a1 : Word) : State :=
  let cls := bitsOf a0 0 4
  let inst := bitsOf a0 4 6
  let n := bitsOf a1 0 2
  if funcInstances cls ≤ inst then
    let (c, s) := s.openCode
    s.isCode c
  else match s.image.running, (s.slot n).img with
    | some run, some new =>
      if (s.slot n).st ≠ 1 || n == s.get F.IS_BOOT.RUN_SLOT || !diffAllowed run new cls inst then s.isCode 12
      else match s.refuseChange cls inst with
        | some code => s.isCode code
        | none =>
          (s.put F.IS_CMD_STATUS.BUSY 1).beginChange {
            restart := false, cls := cls, inst := inst, newSlot := n, oldSlot := s.get F.IS_BOOT.RUN_SLOT,
            fallback := s.get F.IS_BOOT.FALLBACK_SLOT, step := 1, since := s.now, rolling := false, pll := false }
    | _, _ => s.isCode 12

/-- RESTART. -/
def State.restartCmd (s : State) (a0 : Word) : State :=
  let cls := bitsOf a0 0 4
  let inst := bitsOf a0 4 6
  if cls = 9 then s.isCode 12
  else if funcInstances cls ≤ inst then
    let (c, s) := s.openCode
    s.isCode c
  else match s.refuseChange cls inst with
    | some code => s.isCode code
    | none =>
      (s.put F.IS_CMD_STATUS.BUSY 1).beginChange {
        restart := true, cls := cls, inst := inst, newSlot := s.get F.IS_BOOT.RUN_SLOT, oldSlot := s.get F.IS_BOOT.RUN_SLOT,
        fallback := s.get F.IS_BOOT.FALLBACK_SLOT, step := 1, since := s.now, rolling := false, pll := false }

/-- A command of IS_CMD by its code (12 R356); GO while one runs is ignored. -/
def State.isRun (s : State) (op : Nat) (a0 a1 : Word) (img : Option Image) : State :=
  if s.isSet F.IS_CMD_STATUS.BUSY 0 || s.image.change.any (fun c => !c.pll) then s.raise F.IS_STATUS.CMD_OVERRUN
  else
    let s := s.put F.IS_CMD.OP op
    match op, img with
    | 1, some i => s.imageLoad a0 a1 i
    | 1, none => s.isCode 7
    | 2, _ => s.imageErase a1
    | 3, _ => if s.image.change.isSome then s.isCode 12 else s.changeCmd a0 a1
    | 4, _ => if s.image.change.isSome then s.isCode 12 else s.restartCmd a0
    | 5, _ => s.svnRaise
    | _, _ => s.isCode 7

/-- IMAGE_LOAD (12 R356). -/
def execImageLoad (via : Via) (a0 a1 : Word) (img : Image) (at_ : Nat) (s : State) : Host.Outcome State Fault Refusal :=
  .next ((s.tick at_).command via .IS_CMD 0 [(.IS_CMD_ARG0, a0), (.IS_CMD_ARG1, a1)] (word 0x101)
    (fun s => s.isRun 1 a0 a1 (some img)))

/-- IMAGE_ERASE (12 R356). -/
def execImageErase (via : Via) (a1 : Word) (at_ : Nat) (s : State) : Host.Outcome State Fault Refusal :=
  .next ((s.tick at_).command via .IS_CMD 0 [(.IS_CMD_ARG1, a1)] (word 0x102) (fun s => s.isRun 2 0#64 a1 none))

/-- CHANGE (12 R339). -/
def execChange (via : Via) (a0 a1 : Word) (at_ : Nat) (s : State) : Host.Outcome State Fault Refusal :=
  .next ((s.tick at_).command via .IS_CMD 0 [(.IS_CMD_ARG0, a0), (.IS_CMD_ARG1, a1)] (word 0x103)
    (fun s => s.isRun 3 a0 a1 none))

/-- IS_RESTART (12 R339). -/
def execIsRestart (via : Via) (a0 : Word) (at_ : Nat) (s : State) : Host.Outcome State Fault Refusal :=
  .next ((s.tick at_).command via .IS_CMD 0 [(.IS_CMD_ARG0, a0)] (word 0x104) (fun s => s.isRun 4 a0 0#64 none))

/-- SVN_RAISE (12 R356). -/
def execSvnRaise (via : Via) (at_ : Nat) (s : State) : Host.Outcome State Fault Refusal :=
  .next ((s.tick at_).command via .IS_CMD 0 [] (word 0x105) (fun s => s.isRun 5 0#64 0#64 none))

/-- A write of IS_BOOT (12 R355): a BOOT_SET record, or refused. -/
def State.writeBoot (s : State) (via : Via) (w : AccW) (v : Word) : State :=
  s.writeAt via .IS_BOOT 0 w v (fun s =>
    let t := s.writeFields .IS_BOOT 0 w v false
    let b := t.get F.IS_BOOT.BOOT_SLOT
    let f := t.get F.IS_BOOT.FALLBACK_SLOT
    if w = .hi then s
    else if b = f || (s.slot b).st ≠ 1 || (s.slot f).st ≠ 1 then s.raise F.IS_STATUS.BOOT_REFUSED
    else s.sendCommit 5 0 0 (s.get F.IS_BOOT.BOOT_SLOT) b b f)

/-- IS_BOOT_WRITE (12 R355). -/
def execIsBootWrite (via : Via) (w : AccW) (v : Word) (at_ : Nat) (s : State) : Host.Outcome State Fault Refusal :=
  .next ((s.tick at_).writeBoot via w v)

/-! The end of the waits of a change. -/

/-- The panels of the change's function in an image, with a STRIPE panel that differs (12 R337). -/
def changedPanels (a b : Image) : List Panel :=
  a.panels.filter (fun p => imgBody b p.ty p.inst != some p.body)

/-- The panels of one image loaded over those of another into the running function (12 Table 12.6 step 5). -/
def State.loadChange (s : State) (c : Change) (slot : Nat) : State :=
  match s.image.running, (s.slot slot).img with
  | some run, some new =>
    let gone := (run.panels.filter (fun p => p.ty == 0x62 && (imgBody new 0x62 p.inst).isNone)).map (fun p => p.inst)
    let s := { s with image := { s.image with
      running := some new, policy := s.image.policy.filter (fun x => !gone.contains x.1) } }
    let s := if c.cls = 8 then s else s.applyPanels (changedPanels new run)
    (s.setReg .IS_VERSION 0 new.version).put F.IS_BOOT.RUN_SLOT slot
  | _, _ => s

/-- A change rolls back: the old slot's panels are loaded, and the function restarts with them (12 Table 12.6 step 9). -/
def State.rollBack (s : State) (c : Change) : State :=
  let s := s.setChange { c with step := 9, rolling := true }
  if c.restart then s else s.loadChange c c.oldSlot

/-- The record of a change that went back: ROLLED_BACK. -/
def State.sendRolledBack (s : State) (c : Change) : State :=
  s.sendCommit 4 c.cls c.inst c.oldSlot c.newSlot c.oldSlot c.fallback

/-- The function of a lost PLL lock that waits gets its restart once no change runs (12 R345). -/
def State.nextRelock (s : State) : State :=
  match s.image.change, s.image.relock with
  | none, (cls, inst) :: rest =>
    let s := { s with image := { s.image with relock := rest } }
    s.setChange { restart := true, cls := cls, inst := inst, newSlot := s.get F.IS_BOOT.RUN_SLOT,
                  oldSlot := s.get F.IS_BOOT.RUN_SLOT, fallback := s.get F.IS_BOOT.FALLBACK_SLOT, step := 7, since := s.now,
                  rolling := false, pll := true }
  | _, _ => s

/-- What the restart of a DRAM or flash channel group has found: `bad` names the DRAM channels that failed their training, or a flash
channel once for each LUN left out (06 R179, R181; 07 R203). -/
def State.groupFound (s : State) (cls inst : Nat) (bad : List Nat) : State :=
  let l := (List.range 4).map (fun k => 4 * inst + k)
  match cls with
  | 2 => s.coatList (l.filter (fun c => s.isSet F.DC_CFG.POP c)) bad
  | 3 => l.foldl (fun s c => s.enumLuns c (bad.filter (fun x => x == c)).length) s
  | _ => s

/-- A restart has ended (12 Table 12.6 steps 7 to 9). A function that a lost lock had stopped restarts once; where the
restart with the old panels fails too, it stays stopped (DEDUCED, log entry 43). -/
def State.restartEnds (s : State) (c : Change) (ok : Bool) : State :=
  if ok then
    if c.rolling then
      let s := s.startFunc c.cls c.inst
      if c.restart then s.closeChange c 9 else s.sendRolledBack c
    else if c.restart then (s.startFunc c.cls c.inst).closeChange c 0
    else (s.setChange { c with step := 8 }).sendCommit 3 c.cls c.inst c.oldSlot c.newSlot c.newSlot c.oldSlot
  else if c.pll then { s with image := { s.image with change := none } }
  else if c.rolling then (if c.restart then s.closeChange c 9 else s.sendRolledBack c)
  else s.rollBack c

/-- FUNCTION_RESTART_DONE (12 R339), with what a channel group has found. A DRAM channel that fails its training fails the restart. -/
def execFunctionRestartDone (r : RestartRes) (at_ : Nat) (s : State) : Host.Outcome State Fault Refusal :=
  let s := s.tick at_
  .next (match s.image.change with
    | some c =>
      if c.cls ≠ 8 && (c.step == 7 || (c.step == 9 && !s.image.envm.any (fun x => match x with | .commit _ => true | _ => false))) then
        let failed := c.cls == 2 && r.bad.any (fun x => x / 4 == c.inst && s.isSet F.DC_CFG.POP x)
        ((s.groupFound c.cls c.inst r.bad).restartEnds c (r.ok && !failed)).nextRelock
      else s
    | none => s)

/-- A commit record stands in eNVM: the change goes on (12 Table 12.6 steps 4 to 9). -/
def State.commitWritten (s : State) (r : Commit) : State :=
  let s := ({ s with image := { s.image with commit := some r } }).showBoot
  match s.image.change with
  | some c =>
    (match r.state with
     | 1 =>
       ((s.loadChange c c.newSlot).setChange { c with step := 6 }).sendCommit 2 c.cls c.inst c.oldSlot c.newSlot c.newSlot c.oldSlot
     | 2 => s.restartFunc c
     | 3 => ((if c.cls = 8 || c.cls = 9 then s else s.startFunc c.cls c.inst).closeChange c 0).nextRelock
     | 4 => ((s.raise F.IS_STATUS.ROLLED_BACK).closeChange c 9).nextRelock
     | _ => s)
  | none => if r.state = 4 then s.raise F.IS_STATUS.ROLLED_BACK else s

/-- A change is given up before its commit point: the function restarts with the old panels; the record and the code follow
(12 Table 12.8). -/
def State.abandonChange (s : State) : State :=
  match s.image.change with
  | some c =>
    if c.restart || c.rolling || 6 ≤ c.step && !(c.step == 6 && s.image.envm.any (fun x => match x with | .commit r => r.state == 2 | _ => false)) then s
    else
      let s := { s with image := { s.image with envm := s.image.envm.filter (fun x => match x with | .commit _ => false | _ => true) } }
      let s := s.setChange { c with step := 9, rolling := true }
      let s := if c.step = 6 then s.loadChange c c.oldSlot else s
      if c.step ≤ 2 then s.sendRolledBack c else (s.startFunc c.cls c.inst).sendRolledBack c
  | none => s

/-- TAKEOVER_RECORD_WRITTEN (03 R106): TW_CLAIM_LOCAL takes the claim, and the device acts on it. A change that has not reached
its commit point is given up first (12 Table 12.8). -/
def execTakeoverRecordWritten (at_ : Nat) (s : State) : Host.Outcome State Fault Refusal :=
  let s := s.tick at_
  let s := if s.twin.taking.any (fun t => !t.rotation) then s.abandonChange else s
  .next s.onTakeoverRecord

/-- HANDOVER_ACK (03 Table 3.7 step 6). -/
def execHandoverAck (h : Hdr) (l : List (Nat × Nat)) (at_ : Nat) (s : State) : Host.Outcome State Fault Refusal :=
  .next (s.onHandoverAck h l at_).stepChange

/-- ROTATE_WAIT_TIMEOUT (03 Table 3.7 step 3). -/
def execRotateWaitTimeout (at_ : Nat) (s : State) : Host.Outcome State Fault Refusal :=
  .next (s.tick at_).onRotateWait.stepChange

/-- HANDOVER_TIMEOUT (03 R122). -/
def execHandoverTimeout (at_ : Nat) (s : State) : Host.Outcome State Fault Refusal :=
  .next (s.tick at_).onHandoverTimeout.stepChange

/-- DESTAGE_FRAME_DONE (02 R70). -/
def execDestageFrameDone (frame group slot : Nat) (lines : Word) (at_ : Nat) (s : State) : Host.Outcome State Fault Refusal :=
  .next (s.onDestageFrameDone frame group slot lines at_).stepChange

/-! PLL lock (12 R345). -/

/-- The function that owns an island: class and instance; none for XT, HUB, KEEP and AON (12 Table 12.10). -/
def islandFunc (n : Nat) : Option (Nat × Nat) :=
  if n < 24 then some (1, n)
  else if n < 56 then some (2, (n - 24) / 4)
  else if n < 88 then some (3, (n - 56) / 4)
  else if n < 120 then some (5, (n - 88) / 4)
  else if n < 126 then some (4, n - 120)
  else none

/-- PLL_LOCK_LOSS (12 R345): the function is stopped and restarted once; a whole-device restart for the other islands. -/
def execPllLockLoss (island at_ : Nat) (s : State) : Host.Outcome State Fault Refusal :=
  let s := s.tick at_
  .next (if !s.inService || 136 < island then s
    else
      let s := { s with image := { s.image with unlocked := insertSorted island s.image.unlocked } }
      let s := s.raise F.IS_STATUS.CLOCK_LOST
      match islandFunc island with
      | none => s.startDown 5
      | some (cls, inst) =>
        let s := if cls = 2 then s.put F.DC_MAP.GROUPS_UP (setBit (s.get F.DC_MAP.GROUPS_UP) inst false) else s
        let s := if cls = 2 then s.put F.DC_MAP.D_BLOCKS s.poolSize else s
        let s := s.stopFunc cls inst
        (({ s with image := { s.image with relock := s.image.relock ++ [(cls, inst)] } }).nextRelock).settle)

end Sys2Proof.Machine
end

