-- ==== Sys2Proof/Machine/Cipher.lean ====
section
/-! DEFINITION. Key slots and their commands (12 R349 to R353, R358), and cipher faults (12 R354). The keys of a slot are held
with the slot; its wrap record in eNVM is held by its state and tenant (12 R351). -/

namespace Sys2Proof.Machine

open Sys2Proof

/-- A key slot. -/
def State.keyAt (s : State) (n : Nat) : KeySlot :=
  SMap.findD s.cipher.slots n { st := .empty, tenant := 0, key1 := 0, key2 := 0 }

/-- A key slot written; an EMPTY slot is not listed. -/
def State.putKey (s : State) (n : Nat) (k : KeySlot) : State :=
  { s with cipher := { s.cipher with
    slots := if k.st = .empty then SMap.del s.cipher.slots n else SMap.put s.cipher.slots n k } }

/-- The lowest EMPTY slot (12 R349). -/
def State.freeKey (s : State) : Option Nat :=
  let n := lowestFreeFrom 0 (SMap.keys s.cipher.slots)
  if n < Config.maxKeySlots then some n else none

/-- An XT command ends: its code and slot; XT_KEY_DATA is cleared (12 R350). -/
def State.xtCode (s : State) (code slot : Nat) : State :=
  let s := (List.range 8).foldl (fun (s : State) i => s.setReg .XT_KEY_DATA i 0#64) s
  let s := (s.put F.XT_CMD.GO 0).put F.XT_CMD_STATUS.BUSY 0
  (s.put F.XT_CMD_STATUS.CODE code).put F.XT_CMD_STATUS.RESULT slot

/-- The wrap record of a slot goes to eNVM; the command is complete when it stands there (12 R351, R353). -/
def State.sendWrap (s : State) (n : Nat) : State :=
  let s := { s with image := { s.image with envm := s.image.envm ++ [EnvmRec.wrap n] } }
  (s.put F.XT_CMD_STATUS.BUSY 1).put F.XT_CMD_STATUS.RESULT n

/-- Key 1 or key 2 as XT_KEY_DATA gives it (12 R350). -/
def State.keyData (s : State) (i : Nat) : BitVec 256 :=
  s.reg .XT_KEY_DATA (i + 3) ++ s.reg .XT_KEY_DATA (i + 2) ++ s.reg .XT_KEY_DATA (i + 1) ++ s.reg .XT_KEY_DATA i

/-- KEY_LOAD (12 R349, R350, Table 12.19). -/
def State.xtKeyLoad (s : State) (via : Via) (a0 : Word) : State :=
  let t := bitsOf a0 0 12
  let key1 := s.keyData 0
  let key2 := s.keyData 4
  let load := fun (n : Nat) => (s.putKey n { st := .loaded, tenant := t, key1 := key1, key2 := key2 }).sendWrap n
  if via ≠ .mgmt then (s.raise F.XT_STATUS.KEY_PATH_DENY).xtCode 12 0
  else if !s.bay.tenants.contains t then s.xtCode 12 0
  else match s.keySlot t with
    | some (n, k) =>
      if k.st ≠ .lost then s.xtCode 12 0
      else if key1 = key2 then s.xtCode 7 0
      else load n
    | none =>
      if key1 = key2 then s.xtCode 7 0
      else match s.freeKey with
        | some n => load n
        | none => s.xtCode 4 0

/-- The lines of a tenant leave this device's Crown and tier D, and its destage that has not started is dropped (12 R353). -/
def State.dropTenantLines (s : State) (t : Nat) : State :=
  let mine := fun (f : Nat) => s.tenantOf (boltOfFrame f) == t
  let frames := nub ((s.bay.reqs.filter (fun r => mine (frameOfOff r.offset))).map (fun r => frameOfOff r.offset))
  let s := s.dropLines (fun l => mine (frameOfLine l))
  let s := { s with
    lines := { s.lines with destageQ := s.lines.destageQ.filter (fun f => !mine f) },
    cipher := { s.cipher with retries := s.cipher.retries.filter (fun f => !mine f) } }
  frames.foldl State.destaged s

/-- KEY_DELETE (12 R353). -/
def State.xtKeyDelete (s : State) (a0 : Word) : State :=
  let n := bitsOf a0 0 12
  let k := s.keyAt n
  if k.st = .empty then s.xtCode 13 0
  else
    ((s.putKey n { st := .deleted, tenant := k.tenant, key1 := 0, key2 := 0 }).dropTenantLines k.tenant).checkBudget.sendWrap n

/-- KEY_FIND (12 Table 12.19). -/
def State.xtKeyFind (s : State) (a0 : Word) : State :=
  match s.keySlot (bitsOf a0 0 12) with
  | some (n, _) => s.xtCode 0 n
  | none => s.xtCode 13 0

/-- A command of XT_CMD by its code (12 R358); GO while one runs is ignored. -/
def State.xtRun (s : State) (via : Via) (op : Nat) (a0 : Word) : State :=
  if s.isSet F.XT_CMD_STATUS.BUSY 0 then s.raise F.XT_STATUS.CMD_OVERRUN
  else
    let s := s.put F.XT_CMD.OP op
    match op with
    | 1 => (s.xtKeyLoad via a0).settle
    | 2 => (s.xtKeyDelete a0).settle
    | 3 => s.xtKeyFind a0
    | _ => s.xtCode 7 0

/-- An XT command given with its argument. -/
def State.xtCommand (s : State) (via : Via) (op : Nat) (a0 : Word) : State :=
  s.command via .XT_CMD 0 [(.XT_CMD_ARG0, a0)] (word (0x100 + op)) (fun s => s.xtRun via op a0)

/-- KEY_LOAD (12 R350). -/
def execKeyLoad (via : Via) (a0 : Word) (at_ : Nat) (s : State) : Host.Outcome State Fault Refusal :=
  .next ((s.tick at_).xtCommand via 1 a0)

/-- KEY_DELETE (12 R353). -/
def execKeyDelete (via : Via) (a0 : Word) (at_ : Nat) (s : State) : Host.Outcome State Fault Refusal :=
  .next ((s.tick at_).xtCommand via 2 a0)

/-- KEY_FIND (12 R358). -/
def execKeyFind (via : Via) (a0 : Word) (at_ : Nat) (s : State) : Host.Outcome State Fault Refusal :=
  .next ((s.tick at_).xtCommand via 3 a0)

/-- A wrap record stands in eNVM: the command of its slot is complete (12 R351, R353). -/
def State.wrapWritten (s : State) (n : Nat) : State :=
  let k := s.keyAt n
  let s := { s with cipher := { s.cipher with
    wraps := if k.st = KeySt.empty then SMap.del s.cipher.wraps n else SMap.put s.cipher.wraps n (k.st, k.tenant) } }
  (s.raise (if k.st = KeySt.deleted then F.XT_STATUS.KEY_DELETED else F.XT_STATUS.KEY_LOADED)).xtCode 0 n

/-! Cipher faults (12 R354). -/

/-- Parity faults that take a core's lane out: 0 acts as 1 (12 Table 12.17). -/
def State.faultLimit (s : State) : Nat := max 1 (s.get F.XT_CTL.FAULT_LIMIT)

/-- The 24 h over which the faults of a core count. -/
def dayNs : Nat := 86400000000000

/-- A parity fault of a core counted; at the limit its lane leaves service. -/
def State.countCipher (s : State) (lane core : Nat) : State :=
  let k := lane * 16 + core
  let l := (SMap.findD s.cipher.coreFaults k []).filter (fun t => decide (s.now < t + dayNs)) ++ [s.now]
  let s := { s with cipher := { s.cipher with coreFaults := SMap.put s.cipher.coreFaults k l } }
  if s.faultLimit ≤ l.length && (s.get F.XT_AVAIL.LANES).testBit lane then
    let s := s.put F.XT_AVAIL.LANES (setBit (s.get F.XT_AVAIL.LANES) lane false)
    (s.raise F.XT_STATUS.LANE_OFF).health 15 1
  else s

/-- A read of a frame that the cipher cannot carry out: the frame is uncorrectable (02 R78, R81). -/
def State.cipherReadLost (s : State) (frame : Nat) : State :=
  let l := nub ((s.crown.misses ++ s.crown.verifies).filter (fun l => frameOfLine l == frame && !s.inTierD l
    && (s.repairWaiters l).isEmpty))
  if l.isEmpty then s.rmwRead frame false else l.foldl State.badFrame s

/-- A frame that the cipher cannot encrypt is not written: its lines stay dirty, and destage waits for the retry. -/
def State.cipherWriteLost (s : State) (frame : Nat) : State :=
  if SMap.has s.lines.running frame then
    { s with
      lines := { s.lines with
        running := SMap.del s.lines.running frame, again := SMap.del s.lines.again frame,
        destageQ := insertSorted frame s.lines.destageQ },
      cipher := { s.cipher with retries := insertSorted frame s.cipher.retries } }
  else s

/-- CIPHER_PARITY_FAULT (12 R354): a piece of a frame on a core of a lane, and its retry on a core of another lane. -/
def execCipherParityFault (lane core frame : Nat) (write retryOk : Bool) (retryCore at_ : Nat) (s : State) :
    Host.Outcome State Fault Refusal :=
  let s := (s.tick at_).raise F.XT_STATUS.CORE_FAULT
  let s := (s.bump F.XT_COUNT.FAULTS 0 (if retryOk then 1 else 2)).countCipher lane core
  .next (if retryOk then s
    else
      let s := s.setReg .XT_FAULT_LOG 0 (word (frame % 2 ^ 44 + lane / 3 % 8 * 2 ^ 44 + lane % 3 * 2 ^ 47
        + retryCore % 16 * 2 ^ 49 + bit write * 2 ^ 53))
      let s := s.raiseArg F.XT_STATUS.MEDIA_LOST 0 (.log .XT_FAULT_LOG 0)
      (if write then s.cipherWriteLost frame else s.cipherReadLost frame).settle)

/-- CIPHER_WRITE_RETRY (12 R354): destage takes the frame again. -/
def execCipherWriteRetry (frame at_ : Nat) (s : State) : Host.Outcome State Fault Refusal :=
  let s := s.tick at_
  .next (if s.cipher.retries.contains frame then
      (({ s with cipher := { s.cipher with retries := removeNum frame s.cipher.retries } }).destageStart frame).settle
    else s)

/-- XT_COUNT_READ (12 Table 12.17). -/
def execXtCountRead (via : Via) (w : AccW) (s : State) : Host.Outcome State Fault Refusal :=
  .next (s.readCounters via .XT_COUNT 0 w [F.XT_COUNT.FAULTS, F.XT_COUNT.KEY_EMPTY_READS])

end Sys2Proof.Machine
end

