-- ==== Sys2Proof/Machine/Restart.lean ====
section
/-! DEFINITION. What the device loses when its islands lose power or restart, and its own work of power states 1, 9, 10, 11
and 12: image, key coat, marks, enumeration, resync, mount, keys and records (13 Table 13.3; 06 Table 6.7; 07 Table 7.8;
08 R246; 12 R335, R336, R351; 14 R392, R397). -/

namespace Sys2Proof.Machine

open Sys2Proof

/-! Loss. -/

/-- Registers after the loss: the AON island keeps its blocks, and the split record of the twin is durable. The
others return to reset at a loss of power; at a whole-device restart with the rails on their fields that software writes stay
(13 R381; 15 R404; 03 R106, R123; 07 Table 7.17; DEDUCED, log entry 44). -/
def State.loseRegs (s : State) (railsOn : Bool) : State :=
  { s with regs := s.regs.filterMap (fun x =>
      match regAt x.1 with
      | some (r, _) =>
        if r.block == 0 || r.block == 1 || r.block == 3 || r.block == 14 || r == .TW_SPLIT_DT then some x
        else if railsOn then
          if r.block == 2 || r.block == 13 || r == .PT_MGMT_LINK then some x
          else
            let d := x.2 &&& (accBits r .rw ||| accBits r .w1c)
            if d = 0#64 then none else some (x.1, d)
        else none
      | none => none) }

/-- Copies within tier F that are not committed are abandoned; their spans stay where they were (07 R222). -/
def State.dropCopies (s : State) : State :=
  let closed (x : Band) : Band := if x.st = .victim then { x with st := .closed } else x
  { s with flash := { s.flash with
      changes := [],
      bands := s.flash.bands.map (fun x => (x.1, closed x.2)) } }

/-- Frames of VOLATILE bolts read as zeros from now on (02 Table 2.9; R52). -/
def State.loseVolatileBytes (s : State) : State :=
  let s := s.tier.volFrames.foldl (fun (s : State) f => s.zeroRange (f * 4096) 4096) s
  { s with tier := { s.tier with volFrames := [] } }

/-- Health counters and bins since the last summary are lost with KEEP's memory (14 R397). -/
def State.lastSummary (s : State) : State :=
  match SMap.find s.events.summaries ((s.events.summarySeq + Config.healthSlots - 1) % Config.healthSlots) with
  | some h =>
    { s with
      events := { s.events with health := h.counters },
      flash := { s.flash with lidBins := h.lid, juncBins := h.junction, classCounts := h.classes } }
  | none =>
    { s with
      events := { s.events with health := List.replicate 16 0 },
      flash := { s.flash with
        lidBins := List.replicate 32 0, juncBins := List.replicate 32 0, classCounts := List.replicate 9 0 } }

/-- Everything that the volatile tiers and the islands hold is lost: lines, ways, queues in flight, engines, links, the
event log. What tier P, tier F, eNVM and the AON island hold stays (02 R51, R56; 09 R265; 14 R387; 13 Table 13.3). -/
def State.loseVolatile (s : State) (railsOn : Bool) : State :=
  let s := (s.loseRegs railsOn).loseVolatileBytes.dropCopies
  let copied := if s.twin.rejoinRole = 1 then s.twin.copyList else []
  let lines : LineSt := {
    poison := s.lines.poison, poisonOverflow := s.lines.poisonOverflow, spanReg := s.lines.spanReg,
    splitMap := copied.foldl (fun acc sp => insertSorted sp acc) s.lines.splitMap, saveOut := s.lines.saveOut,
    storeZero := s.lines.storeZero, saveRate := s.lines.saveRate }
  let bay : BaySt := {
    bolts := s.bay.bolts, tenants := s.bay.tenants, ldTenant := s.bay.ldTenant, nextId := s.bay.nextId,
    nextTag := s.bay.nextTag, gate := s.bay.gate, crcBad := s.bay.crcBad }
  let twin : TwinSt := {
    fills := s.twin.fills, claims := s.twin.claims, slot := s.twin.slot, cycle := s.twin.cycle, moved := s.twin.moved, maxHold := s.twin.maxHold }
  let crown : CrownSt := { lfsr := s.crown.lfsr }
  let dram : DramSt := {
    build := s.dram.build, useIx := s.dram.useIx, hardRows := s.dram.hardRows, softRows := if railsOn then s.dram.softRows else [] }
  let queues : QueueSt := { table := s.queues.table, nextIx := s.queues.nextIx, caps := s.queues.caps }
  let ports : PortSt := {
    lsa := s.ports.lsa, rated := s.ports.rated, modCount := s.ports.modCount, timeOff := s.ports.timeOff }
  let events : EventSt := { s.events with
    log := [], head := 0, tail := 0, unread := 0, nextSeq := 0, coalesce := [], rateStart := 0, rateCount := 0,
    lossCause := 0, lossCount := 0 }
  let s := { s with
    lines := lines, bay := bay, twin := twin, crown := crown, dram := dram, queues := queues, ports := ports,
    events := events, engines := {}, jtag := { s.jtag with busy := false },
    save := { s.save with active := false },
    tier := { s.tier with
      demoting := false, moves := [], spans := s.tier.spans.map (fun x => (x.1, { x.2 with move := none })) },
    flash := { s.flash with credits := 0, ckptRunning := false, failed := [] },
    stripe := { s.stripe with
      heals := [], allowance := [], reshape := { s.stripe.reshape with cursor := s.stripe.reshape.saved, sinceCursor := 0 } },
    cipher := { s.cipher with coreFaults := [], retries := [] },
    image := { s.image with
      running := none, relock := [], policy := [], change := if railsOn then s.image.change else none } }
  if railsOn then s else s.lastSummary

/-- The black box at a stop of the eNVM writes: the record on its way is torn, the ones behind it are not written, nor is any
other record on its way (14 R392, R395; 12 Table 12.8). -/
def State.tearRecords (s : State) : State :=
  let ring := match s.events.bbWrites with
    | r :: _ => SMap.put s.events.bbRing (r.seq % Config.bbSlots) { r with torn := true }
    | [] => s.events.bbRing
  { s with events := { s.events with bbRing := ring, bbWrites := [] }, image := { s.image with envm := [] } }

/-- The records on their way stand in eNVM before its rail goes off: each takes 40 µs, the state 10 ms (14 R392; 13 R365). -/
def State.endRecords (s : State) : State :=
  let ring := s.events.bbWrites.foldl (fun m r => SMap.put m (r.seq % Config.bbSlots) r) s.events.bbRing
  { s with events := { s.events with bbRing := ring, bbWrites := [] } }

/-! State 1 (12 R336). -/

/-- The slots of the latest commit record; slot 0 where there is none. -/
def State.bootSlots (s : State) : Nat × Nat :=
  match s.image.commit with | some c => (c.boot, c.fallback) | none => (0, 0)

/-- What the AON island latches of the chosen image: enables, alert pin, DRAM build. -/
def State.latchPanels (s : State) (i : Image) : State :=
  let s := match imgBody i 0x42 0 with
    | some (.power _ _ l) => { s with power := { s.power with railMap := l } }
    | _ => s
  (i.panels.filter (fun p => p.ty == 0x01 || p.ty == 0x20)).foldl State.applyPanel s

/-- A slot chosen for this power-up. -/
def State.chooseSlot (s : State) (n : Nat) (back : Bool) : State :=
  let s := { s with image := { s.image with chosen := n, fellBack := back } }
  match (s.slot n).img with
  | some i => s.latchPanels i
  | none => s

/-- The image is chosen: the boot slot, else the fallback slot; both fail: false. -/
def State.chooseImage (s : State) : State × Bool :=
  let (b, f) := s.bootSlots
  let (s1, c1) := s.checkSlot b
  if c1 = 0 then (s1.chooseSlot b false, true)
  else
    let (s2, c2) := s1.checkSlot f
    if c2 = 0 then (s2.chooseSlot f true, true) else (s2, false)

/-! State 9 (06 Table 6.7 steps 1 to 4; 05 R158; 10 R286). -/

/-- Every LFSR loaded from a new seed of the entropy source. -/
def State.seedCrown (s : State) : State :=
  let (x, s) := s.draw
  let seed := x.toNat % 2 ^ 32
  let s := s.put F.CR_LFSR_SEED.SEED seed
  { s with crown := { s.crown with lfsr := (List.range 32).map (fun n => lfsrLoad seed n), reload := [] } }

/-- Populated DRAM channels. -/
def State.channels (s : State) : List Nat := (List.range 32).filter (fun c => s.isSet F.DC_CFG.POP c)

/-- The channels trained and coated: under AM3 the group of a channel that failed is left out, else one failure fails the
step (06 R177). -/
def State.coat (s : State) (failed : List Nat) : State :=
  let bad := failed.filter s.channels.contains
  let good := s.channels.filter (fun c => !bad.contains c)
  let s := ((s.put F.DC_COAT_STAT.COATED (sumBits good)).put F.DC_COAT_STAT.FAILED (sumBits bad)).setPauses good
  if s.get F.DC_MAP.AM = 3 then
    let s := bad.foldl (fun s c => s.raiseAt F.DC_STATUS.TRN_FAIL c) s
    let up := (nub (s.channels.map (fun (c : Nat) => c / 4))).filter (fun g => bad.all (fun c => c / 4 != g))
    let s := s.put F.DC_MAP.GROUPS_UP (sumBits up)
    s.put F.DC_MAP.D_BLOCKS s.poolSize
  else
    let s := bad.foldl (fun s c => s.raiseCls F.DC_STATUS.TRN_FAIL c 3 .none) s
    let s := s.put F.DC_MAP.GROUPS_UP (sumBits (s.channels.map (fun (c : Nat) => c / 4)))
    s.put F.DC_MAP.D_BLOCKS s.poolSize

/-- The coating did not fail the step: with AM 3, or with every populated channel trained (06 R173). -/
def State.coatOk (s : State) (failed : List Nat) : Bool :=
  decide (s.get F.DC_MAP.AM = 3) || (failed.filter s.channels.contains).isEmpty

/-! State 10 (06 R173, R194; 14 R387, R397). -/

/-- An entry of the health list reapplied: a component mark or a retired row. -/
def State.reapply (s : State) (x : Nat × Nat × Nat) : State :=
  let (ty, ch, loc) := x
  if ty = 1 then
    let comp := loc / 2 ^ 34 % 16
    if loc % 2 = 0 then (s.setF F.DC_MARK.COMP_A ch comp).setF F.DC_MARK.VALID_A ch 1
    else (s.setF F.DC_MARK.COMP_B ch comp).setF F.DC_MARK.VALID_B ch 1
  else if ty = 2 then
    let r := s.rowOfLoc ch loc
    if s.dram.retired.contains r then s else { s with dram := { s.dram with retired := s.dram.retired ++ [r] } }
  else s

/-- Channels whose DQ write delay moved by more than 1/8 UI are coated again (06 Table 6.7 step 6): tier D holds nothing yet. -/
def State.recoat (s : State) (l : List Nat) : State := s.coatList (l.filter s.channels.contains) []

/-- Marks and retired rows reapplied. -/
def State.reapplyList (s : State) : State :=
  let s := s.events.list.foldl State.reapply s
  s.put F.DC_MAP.D_BLOCKS s.poolSize

/-! State 11. -/

/-- Frame slots that Float leaves of a module: each region of 4,096 slots keeps one empty (04 R145). -/
def floatSlots (gib : Nat) : Nat := frameSlots gib / 4096 * 4095

/-- Rows of a group: each module holds its share of the save area, a Skim journal of 4,096 frames, the spare region and the
data region (08 R233). -/
def groupRowsFor (room width spare : Nat) : Nat :=
  let d := max 1 (width - 1)
  let r := room * d / (d + spare)
  match [r, r - 1, r - 2].find? (fun r => decide (r + spare * ceilDiv r d ≤ room)) with
  | some r => r
  | none => 0

/-- The data capacity of tier P: the rows that the smallest member of any group has room for (08 R232, R233; DEDUCED, log
entry 45). -/
def State.pCapacity (s : State) : Nat :=
  let rooms := (s.stripe.members.filter (fun x => x.1 < 32)).map (fun x => floatSlots x.2.cap - s.saveShare x.1 - 4096)
  match rooms with
  | [] => 0
  | a :: t => groupRowsFor (t.foldl min a) s.pWidth (s.get F.ST_P_CFG.P_SPARE) * (s.pWidth - 2) * s.pGroups

/-- The data capacity of tier F: the blocks that are neither factory bad nor spare, in bands (07 R225, R226; 08 R237). -/
def State.fCapacity (s : State) : Nat :=
  match s.flash.build with
  | some b =>
    let bad := (List.range b.channels).foldl (fun a c => a + s.getF F.FL_BLOCKS.FACTORY_BAD c) 0
    let gone := (s.flash.blocks.filter (fun x => x.2.retired)).length
    (b.blocksPerChannel * b.channels - bad - s.flash.spareFmt) / max 1 s.fWidth * s.bandCap s.fWidth
      - (gone - s.flash.spareFmt) * (s.get F.ST_F_CFG.PAGES * 4)
  | none => 0

/-- A module joins its group, or is a lost member (11 Table 11.5; 08 R249). -/
def State.joinModule (s : State) (p : Nat) (m : Option ModuleInfo) : State :=
  let ix := s.getF F.PT_CFG.MODULE p
  match m with
  | none => s.memberLost ix
  | some m =>
    let (s, ok) := s.enumerate p m
    if !ok then s.memberLost ix
    else
      let (s, worse) := s.moduleCount ix m
      if worse then s.memberLost ix
      else match SMap.find s.stripe.members ix with
        | some x => if x.st == .inService then s.putMember ix { x with cap := m.capGib, rated := s.ratedOf m } else s
        | none => s.raiseAt F.PT_STATUS.MODULE_IDLE p

/-- The ports of a list train, or are left down (11 R313). -/
def State.trainPorts (s : State) (l : List Nat) (res : List (Nat × Train)) : State :=
  l.foldl (fun s p =>
    if !s.portTrains p then s
    else match res.find? (fun x => x.1 == p) with
      | some (_, t) => s.trained p t
      | none => s.trainFail p) s

/-- MEDIA ports train and their modules are enumerated (11 R313, R319). -/
def State.bringMedia (s : State) (r : WorkRes) : State :=
  let l := s.portsOf 4
  let s := s.trainPorts l r.portsTrained
  l.foldl (fun s p => s.joinModule p
    (if s.portUp p then (r.modules.find? (fun x => x.1 == p)).map Prod.snd else none)) s

/-- The LUNs of the flash channels: `lunFailed` names a channel once for each LUN left out (07 R201). -/
def State.bringFlash (s : State) (r : WorkRes) : State :=
  let l := r.lunFailed
  let s := (nub l).foldl (fun s c => s.enumLuns c (l.filter (fun x => x == c)).length) s
  (nub r.noLun).foldl (fun s c => s.enumLuns c (s.diesOf c)) s

/-- The resync of one group by its latest journal frame (08 Table 8.3). -/
def State.resyncGroup (s : State) (g : Nat) (r : Resync) : State :=
  match r with
  | .clean =>
    let k := s.skim g
    let s := s.putSkim g { k with inFlight := [], batch := [], waiting := [], writing := false }
    if k.epoch = 0 ∨ (s.posInService g k.a && s.posInService g k.b) = true then s else s.raise F.ST_STATUS.JOURNAL_COPY_LOST
  | .list rows bad one =>
    let s := s.putSkim g { s.skim g with inFlight := [], batch := [], waiting := [], writing := false }
    let s := { s with stripe := { s.stripe with
      resyncKind := max 1 s.stripe.resyncKind, partialRows := s.stripe.partialRows + rows.length,
      suspect := s.stripe.suspect ++ (bad.map (fun r => (g, r))).filter (fun x => !s.stripe.suspect.contains x) } }
    let s := s.raise F.ST_STATUS.RESYNC_PARTIAL
    if one then s.raise F.ST_STATUS.JOURNAL_COPY_LOST else s
  | .none =>
    let s := s.putSkim g { s.skim g with inFlight := [], batch := [], waiting := [], writing := false }
    ({ s with stripe := { s.stripe with resyncKind := 2, resyncFull := true, resyncAt := 0 } }).raise F.ST_STATUS.RESYNC_FULL

/-- Resync of every group, and a new epoch of each (08 R244, R246). The cursor of a full resync stands in eNVM every 2^18 rows
(08 R248). -/
def State.resync (s : State) (r : WorkRes) : State :=
  let s := { s with stripe := { s.stripe with
    resyncKind := (if s.stripe.resyncFull then 2 else 0), partialRows := 0, resyncAt := s.stripe.resyncAt / 2 ^ 18 * 2 ^ 18 } }
  (List.range s.pGroups).foldl (fun s g =>
    (s.resyncGroup g (match r.resync.find? (fun x => x.1 == g) with | some (_, x) => x | none => .clean)).advanceEpoch g) s

/-- The mount of tier F (07 Table 7.8), and the capacities of both tiers. -/
def State.mount (s : State) (r : WorkRes) : State :=
  let s := { s with
    tier := { s.tier with pFrames := s.pCapacity, fFrames := s.fCapacity },
    flash := { s.flash with finePool := s.get F.FL_MAP_CTL.FINE_SPANS, zqAt := s.now } }
  let s := if s.flash.build.isSome && !r.mountRootOk then s.raise F.FL_DEV_STATUS.MOUNT_SCAN else s
  let s := if r.orphans then s.raise F.FL_DEV_STATUS.ORPHANS else s
  s.flash.bands.foldl (fun s x => s.checkEligible x.1) s

/-- The device key: drawn at first power-up and held in one-time-programmable cells (12 R351). -/
def State.drawDeviceKey (s : State) : State :=
  match s.otp.deviceKey with
  | some _ => s
  | none =>
    let (a, s) := s.draw
    let (b, s) := s.draw
    let (c, s) := s.draw
    let (d, s) := s.draw
    { s with otp := { s.otp with deviceKey := some (a ++ b ++ c ++ d) } }

/-- Every wrap record is unwrapped (12 R351). -/
def State.unwrapKeys (s : State) (failed : List Nat) : State :=
  let load (n : Nat) (w : KeySt × Nat) : KeySlot :=
    let k := s.keyAt n
    if failed.contains n && w.1 != KeySt.deleted then { k with st := .lost, tenant := w.2, key1 := 0, key2 := 0 }
    else { k with st := w.1, tenant := w.2 }
  let s := { s with cipher := { s.cipher with slots := s.cipher.wraps.map (fun (x : Nat × (KeySt × Nat)) => (x.1, load x.1 x.2)) } }
  if s.cipher.slots.any (fun (x : Nat × KeySlot) => x.2.st == KeySt.lost && failed.contains x.1) then s.raise F.XT_STATUS.UNWRAP_FAIL else s

/-- LD attachments are reloaded (01 R26; R49). -/
def State.reattach (s : State) : State :=
  s.bay.ldTenant.foldl (fun s x => (s.setF F.PT_LD.ATTACHED x.1 1).setF F.PT_LD.TENANT x.1 x.2) s

/-- A reshape of tier F goes on with the bands of both widths (08 R259). -/
def State.reshapeWidths (s : State) : State :=
  match s.stripe.geom, s.stripe.target with
  | some old, some g =>
    if s.stripe.reshape.st != 0 && s.stripe.reshape.tier == 1 then
      (s.put F.ST_F_CFG.OLD_WIDTH old.fWidth).put F.ST_F_CFG.WIDTH g.fWidth
    else s
  | _, _ => s

/-- The scan of the black box (14 R392, R395): the next SEQ, and torn records found. -/
def State.scanBlackBox (s : State) (torn : Bool) : State :=
  let good := s.events.bbRing.filter (fun x => !x.2.torn && x.2.seq % Config.bbSlots == x.1)
  let next := good.foldl (fun m x => max m (x.2.seq + 1)) 0
  let s := { s with events := { s.events with bbNext := next } }
  if torn || good.length < s.events.bbRing.length then s.raise F.BB_STATUS.TORN_FOUND else s

/-- The health log at state 11 (14 R397; Table 14.11). -/
def State.loadHealth (s : State) (ok : Bool) : State :=
  let s := if ok then s
    else ({ s with events := { s.events with health := List.replicate 16 0 } }).raise F.BB_STATUS.HEALTH_CRC
  s.health 1 1

/-- The records of this power-up: BOOT, and EMERGENCY after an emergency stop (14 Table 14.6; 13 Table 13.5). -/
def State.bootRecords (s : State) : State :=
  let s := s.bbRecord 0 (.boot (s.reg .IS_VERSION 0) s.image.chosen (s.get F.PW_DOWN_LOG.CAUSE) s.image.fellBack)
  match s.power.emergency with
  | some (rail, st, dt) =>
    let s := (s.health 7 1).bbRecord 3 (.emergency rail st dt)
    { s with power := { s.power with emergency := none } }
  | none => s

/-- A change whose record is PENDING was cut by the power loss: ROLLED_BACK is written (12 Table 12.8). -/
def State.closePending (s : State) : State :=
  match s.image.commit with
  | some c =>
    if c.state = 1 && s.image.change.isNone then
      s.sendCommit 4 c.func c.inst c.oldSlot c.newSlot c.boot c.fallback
    else s
  | none => s

/-- What the CRCs of the save frames' copies showed (02 Table 2.8): `bad` names frame and copy. -/
def State.checkSave (s : State) (bad : List (Nat × Nat)) : State :=
  { s with save := { s.save with frames := s.save.frames.map (fun f =>
    { f with crcOk := f.crcOk.zipIdx.map (fun x => x.1 && !bad.contains (f.seq, x.2)) }) } }

/-- The work of state 11; false where the chosen image fails (12 R335). -/
def State.workImage (s : State) (r : WorkRes) : State × Bool :=
  let (s, c) := s.checkSlot s.image.chosen
  match (s.slot s.image.chosen).img, c with
  | some i, 0 =>
    let s := s.showBoot.runImage s.image.chosen i
    let s := if s.image.fellBack then (s.put F.IS_BOOT.RAN_FALLBACK 1).raise F.IS_STATUS.RAN_FALLBACK
      else s.put F.IS_BOOT.RAN_FALLBACK 0
    let s := (s.reshapeWidths.scanBlackBox r.tornFound).checkSave r.saveBad
    let s := s.setReg .TW_CLAIM_LOCAL 0 (word (s.twin.claims.foldl (fun m x => max m x.claim) 0))
    let s := ((s.bringMedia r).bringFlash r).resync r
    let s := (((s.mount r).drawDeviceKey.unwrapKeys r.unwrapFailed).queuesUp).reattach
    let before := s.effGib
    let s := (s.updateSaveRate.budgetChanged before).closePending
    ((s.loadHealth r.healthOk).bootRecords.settle, true)
  | _, _ => (s, false)

/-! State 13: the save replay and the restart cases (02 R85, Table 2.9; 08 R247). -/

/-- A saved line replayed into tier D, dirty and charged; the lines of a DELETED slot are dropped (12 R353). -/
def State.replayLine (s : State) (l : SaveLine) : State :=
  if s.keyGone (s.tenantOf (boltOfLine l.line)) then s
  else
    let s := if l.poison then s.markPoison l.line else s
    let s := s.putLine l.line fullBe (if l.poison then 0#512 else l.data)
    (s.makeDirty l.line).putTierD l.line true

/-- A module of the save area answers. -/
def State.moduleServes (s : State) (m : Nat) : Bool :=
  match s.modulePort m with | some p => s.portUp p | none => false

/-- A save frame can be read from a module of its pair: a copy with a bad CRC is read from the other (02 Table 2.9). -/
def State.frameReads (s : State) (f : SaveFrame) : Bool :=
  (f.modules.zip f.crcOk).any (fun x => x.2 && s.moduleServes x.1)

/-- The committed save replayed, and charged: a level above the budget throttles as R66 gives (02 R63). The bits of spans that
hold no saved line are cleared, unless a frame of the save is lost. -/
def State.replaySave (s : State) : State :=
  if !s.save.committed then s
  else
    let s := (s.save.frames.filter s.frameReads).foldl (fun s f => f.lines.foldl State.replayLine s) s
    let s := if s.save.frames.all s.frameReads then
        { s with lines := { s.lines with spanReg := s.lines.spanReg.filter s.spanDirty } }
      else s
    if s.budgetBytes < s.dirtyLevel then s.budgetChanged (s.effGib + 1) else s

/-- The twin holds a good copy of a span of this device's dirty-span register (02 Table 2.9). Where both twins restarted into
PAIRED no message tells (log entry 2). -/
def State.twinGood (s : State) (sp : Nat) : Bool :=
  s.mirrored (boltOfSpan sp) &&
    (match s.twin.st with
     | .rejoining => true
     | .paired => !s.lines.splitMap.contains sp && Config.twinKept s.freeIx sp
     | _ => false)

/-- A span copied back from the twin outside a rejoin: its written frames are asked for (02 Table 2.9). -/
def State.fetchBack (s : State) (sp : Nat) : State :=
  let l := match s.span sp with | some r => r.written.map (fun k => sp * 256 + k) | none => []
  if l.isEmpty then s.startClear sp
  else l.foldl (fun s f =>
    let (tag, s) := s.sendRepair (f * 64) 64
    { s with lines := { s.lines with copyBack := s.lines.copyBack ++ [(tag, f)] } }) s

/-- The restart cases of the spans that no save brings back: copied from the twin where it holds a good copy (at the rejoin, or
here where the pair is PAIRED at once), else poisoned (02 Table 2.9, R86). Of a committed save that lost a frame, the marked
spans with no replayed line are such (DESIGN CHOICE, log entry 99). -/
def State.restartCases (s : State) : State :=
  let sel (sp : Nat) : Bool := s.bound (boltOfSpan sp) && !(s.save.committed && s.spanDirty sp)
  if s.save.committed && s.save.frames.all s.frameReads then s
  else
    let l := s.lines.spanReg.filter sel
    let lost := l.filter (fun sp => !s.twinGood sp)
    let back := if s.paired then l.filter s.twinGood else []
    let (_, s) := s.nextFree
    (back.foldl State.fetchBack s).loseSpans lost

/-- The data frames of suspect rows are taken from the twin, or poisoned (08 R247, R256). -/
def State.healSuspect (s : State) : State :=
  s.healFrames (nub (s.stripe.suspect.flatMap (fun r => s.rowFrames r.1 r.2)))

end Sys2Proof.Machine
end

