-- ==== Sys2Proof/Machine/Power.lean ====
section
/-! DEFINITION. Power sequencing (13): PSYNC and its commands, the work of each power state, rails and their monitors, the
energy store and the requests, the down path, failed steps and emergency stops. -/

namespace Sys2Proof.Machine

open Sys2Proof

/-! Rails, in the order of 13 Table 13.4. -/

/-- State in which a rail is switched on; 0 = standby (13 Table 13.4). -/
def railOnState (n : Nat) : Nat := [0, 1, 2, 3, 4, 5, 6, 7, 7, 8, 8].getD n 0

/-- State in which a rail is switched off; 0 = never. -/
def railOffState (n : Nat) : Nat := [0, 30, 29, 28, 27, 26, 25, 24, 23, 22, 21].getD n 0

/-- Warning level of a rail in ‰ of nominal. -/
def railWarn (n : Nat) : Nat := [30, 40, 30, 30, 30, 40, 40, 30, 50, 40, 80].getD n 0

/-- Fault level of a rail in ‰ of nominal. -/
def railFaultLevel (n : Nat) : Nat := [60, 80, 60, 60, 50, 70, 70, 50, 80, 70, 120].getD n 0

/-- The rail has a PMBus monitor. -/
def railPmbus (n : Nat) : Bool := n == 6 || n == 8 || n == 10

/-- The image whose panels the AON island has latched (12 R336). -/
def State.latchedImage (s : State) : Option Image :=
  match s.image.running with
  | some i => some i
  | none => (s.slot s.image.chosen).img

/-- Nominal voltage in mV; the two NAND rails take theirs from the FLASH panel. -/
def State.railNominal (s : State) (n : Nat) : Nat :=
  let flash (f : FlashBuild → Nat) : Nat :=
    match s.latchedImage with
    | some i => (match imgBody i 0x30 0 with | some (.flash b) => f b | _ => 0)
    | none => 0
  if n = 8 then flash (fun b => b.vccMv)
  else if n = 9 then flash (fun b => b.vccqMv)
  else [800, 1800, 850, 750, 900, 1200, 1800, 1100, 0, 0, 12000].getD n 0

/-- PWR_EN ball of a rail: ball 0 drives VDD_NVM, the POWER panel maps the others (13 R368). -/
def State.railBall (s : State) (n : Nat) : Nat := if n ≤ 1 then 0 else s.power.railMap.getD (n - 2) 0

/-- A rail and its monitor. -/
def State.rail (s : State) (n : Nat) : Rail := SMap.findD s.power.rails n {}

/-- A rail written. -/
def State.putRail (s : State) (n : Nat) (r : Rail) : State :=
  { s with power := { s.power with rails := SMap.put s.power.rails n r } }

/-- A rail's enable asserted or deasserted; level 3 stands until the rail is within its warning levels (13 R368). -/
def State.switchRail (s : State) (n : Nat) (on : Bool) : State :=
  let r := s.rail n
  (s.putRail n { mv := r.mv, junction := r.junction, enabled := on, level := if on then 3 else 0 }).emit
    (.pwrEn (s.railBall n) on)

/-- The rails of an on state, and of an off state. -/
def onRails (st : Nat) : List Nat := (List.range 11).filter (fun n => n != 0 && railOnState n == st)
def offRails (st : Nat) : List Nat := (List.range 11).filter (fun n => n != 0 && railOffState n == st)

/-- The rails of an on state are within their warning levels. -/
def State.railsSettled (s : State) (st : Nat) : State :=
  (onRails st).foldl (fun s n => s.putRail n { s.rail n with level := 0 }) s

/-- A rail is supervised: VDD_AON always, another one once it is up. -/
def State.railLive (s : State) (n : Nat) : Bool := n == 0 || ((s.rail n).enabled && (s.rail n).level != 3)

/-- The level of a rail; VDD_CORE shows the higher of voltage and junction (16 R416). -/
def State.railLevel (s : State) (n : Nat) : Nat :=
  if s.railLive n then max (s.rail n).level (s.rail n).jLevel else 0

/-- Some rail is in warning (a rail in fault is so too, 13 R369). -/
def State.anyWarning (s : State) : Bool := (List.range 11).any (fun n => s.railLevel n != 0)

/-! Steps (13 R360 to R363). -/

/-- The device releases PSYNC. -/
def State.letGo (s : State) : State :=
  if s.power.holding then ({ s with power := { s.power with holding := false } }).emit (.psync false) else s

/-- A cause recorded in PW_STATE and PW_DOWN_LOG. -/
def State.setCause (s : State) (c : Nat) : State :=
  ({ s with power := { s.power with cause := c } }).put F.PW_DOWN_LOG.CAUSE c

/-- The command low due next, driven at once where PSYNC is high already (13 R363). -/
def State.setCmd (s : State) (c : CmdLow) : State :=
  let s := { s with power := { s.power with cmd := some c } }
  if s.power.psyncHigh then
    s.emit (.cmdLow (match c with | .turn => 4 | .loop => 7 | .reset => 15))
  else s

/-- A state entered by a rise or a command; the highest state of the last down path is logged (13 Table 13.12). -/
def State.enterState (s : State) (n : Nat) : State :=
  let s := { s with power := { s.power with
    state := n, begun := false, downTop := if 15 ≤ n then max n s.power.downTop else s.power.downTop } }
  if 15 ≤ n then (s.put F.PW_DOWN_LOG.LAST_STATE s.power.downTop).put F.PW_DOWN_LOG.CAUSE s.power.cause else s

/-- The pair state lets service open (13 Table 13.3, state 14). -/
def State.pairReady (s : State) : Bool :=
  s.twin.st == .paired || s.twin.st == .solo || s.twin.st == .feeding || s.twin.st == .rejoining

/-- State 0 may be left (13 R373, R378). -/
def State.powerWanted (s : State) : Bool := s.power.pwrReq && s.power.supply && !s.power.waitToggle

/-- In state 0 the device releases PSYNC once it may start. -/
def State.tryStart (s : State) : State :=
  if s.power.state == 0 && s.power.holding && s.powerWanted then s.letGo else s

/-- An up-path step has failed (13 Table 13.8): TURN follows, and state 0 waits for a new PWR_REQ. -/
def State.failStep (s : State) : State :=
  let s := (s.setCause 4).raise F.PW_STATUS.STEP_FAIL
  let s := { s with power := { s.power with waitToggle := true } }
  match s.power.cmd with
  | none => (s.setCmd .turn).letGo
  | some _ => s.letGo

/-- States 1 to 13, and state 14 entered and not begun. -/
def State.upPath (s : State) : Bool :=
  (decide (1 ≤ s.power.state) && decide (s.power.state ≤ 13)) || (s.power.state == 14 && !s.power.begun)

/-- PWR_REQ or the input is lost on the up path: TURN is due once the step completes; the two unbounded waits end at once
(13 Table 13.8). -/
def State.upAbort (s : State) (cause : Nat) : State :=
  if (s.upPath || (s.power.state == 0 && !s.power.holding)) && s.power.cmd.isNone then
    let s := (s.setCause cause).setCmd .turn
    let waits := (s.power.state == 13 && !s.pairReady)
      || (s.power.state == 8 && s.power.testMode && (onRails 8).all (fun n => s.railLive n))
    if waits then s.letGo else s
  else s

/-- The supply is good again before the commit point (13 Table 13.8): the work stops, and TURN goes back to state 14. -/
def State.supplyReturn (s : State) : State :=
  if 15 ≤ s.power.state && s.power.state ≤ 18 && s.power.begun && (s.power.cause == 1 || s.power.cause == 2)
      && s.power.supply && !s.power.pfFail && s.power.pwrReq && s.power.cmd.isNone then
    let s := { s with
      save := { s.save with active := false },
      power := { s.power with turnBack := true },
      twin := { s.twin with
        downWork := [], group := match s.twin.group with | some g => if g.down && g.step = 2 then none else some g | none => none } }
    let s := (s.raise F.PW_STATUS.SAVE_ABORTED).health 3 1
    (s.setCmd .turn).letGo
  else s

/-- Emergency stop: every enable is deasserted at once, and RESET follows once PSYNC rises (13 Table 13.5). `rail` is 0xFF where no
rail is the cause. -/
def State.emergencyStop (s : State) (rail : Nat) : State :=
  if s.power.cause = 6 then s
  else
    let s := s.raise F.PW_STATUS.EMERGENCY
    let s := { s with power := { s.power with emergency := some (rail, s.power.state, s.now) } }
    let s := ((List.range 11).filter (fun n => (s.rail n).enabled)).foldl (fun s n => s.switchRail n false) s
    let s := ((s.setCause 6).tearRecords).loseVolatile false
    let s := { s with power := { s.power with mgmtUp := false, throttle := false, turnBack := false } }
    (s.setCmd .reset).letGo

/-! Throttling (13 R371). -/

/-- A warning in states 9 to 14 throttles the device. -/
def State.checkThrottling (s : State) : State :=
  if 9 ≤ s.power.state && s.power.state ≤ 14 && s.anyWarning && !s.power.throttle then
    ({ s with power := { s.power with throttle := true } }).raise F.PW_STATUS.POWER_THROTTLE
  else s

/-! The work at each step low (13 Table 13.3). -/

/-- State 13: DT is to be set, the pair state is SYNC with no frame received, the committed save is replayed, capture rings
are closed (11 R326; 03 R100, R112; 02 R85; 09 R283). -/
def State.beginSync (s : State) : State :=
  let (x, s) := s.draw
  let s := s.setSt .sync
  let s := { s with
    twin := { s.twin with
      txSeq := BitVec.ofNat 32 x.toNat, pathA := {}, pathB := {}, carrier := false, syncAt := s.now, peer := none,
      freeUntil := [], sent := [], echoSeq := 0, echoFrozen := false, fenced := false, yieldSlots := 0,
      yieldSeq := none, portsFenced := false },
    time := { s.time with dtSet := false } }
  let s := (s.put F.TM_SYNC.SET 0).replaySave
  ((SMap.keys s.queues.table).foldl State.restartRing s).settle

/-- A change whose APPLIED record is the latest is done once state 14 is reached (12 Table 12.6; Table 12.8). -/
def State.closeApplied (s : State) : State :=
  let s := match s.image.commit with
    | some c =>
      if c.state = 2 && !s.image.envm.any (fun x => match x with | .commit _ => true | _ => false) then
        s.sendCommit 3 c.func c.inst c.oldSlot c.newSlot c.boot c.fallback
      else s
    | none => s
  match s.image.change with
  | some c => if c.cls = 8 && c.restart then s.closeChange c 0 else s
  | none => s

/-- State 14: service opens; after a TURN back a twin in SOLO is rejoined (13 R380). A cause that stands starts the down path. -/
def State.beginService (s : State) : State :=
  let s := ({ s with
    save := { s.save with committed := false }, power := { s.power with cause := 0, due := 0 } }).closeApplied
  let peerSolo := match s.twin.peer with | some f => hbSolo f | none => false
  let s := if s.power.turnBack && peerSolo then s.enterRejoining else s
  let s := { s with power := { s.power with turnBack := false } }
  let s := ((s.fillPins.planMoves).retryHeld).settle
  if s.power.pfFail then s.startDown 2 else if !s.power.pwrReq then s.startDown 1 else s

/-- State 16: intake stops, engine jobs end, copies within tier F are abandoned, a change is given up, and the active MIRRORED
bolts go to the twin where it takes them (13 R376; 07 R222; 10 Table 10.11). -/
def State.beginStop (s : State) : State :=
  let s := (s.abortEngines.dropCopies).abandonChange
  let inHand := match s.twin.group with | some g => g.bolts | none => []
  let own := s.mirroredBolts.filter (fun b => s.isActive b && !inHand.contains b)
  let give := s.twin.st == .paired && !s.peerSaves
  let s := { s with twin := { s.twin with
    downWork := if give then own else [], slotWork := [], slotPending := false } }
  ((s.nextGroup 2).retryHeld).settle

/-- State 18: a new save starts (02 R84). -/
def State.beginSave (s : State) : State :=
  let s := { s with save := {
    epoch := s.save.epoch + 1, frames := [], startDt := s.now, active := true, written := false, committed := false } }
  s.put F.PW_SAVE_STAT.COMMITTED 0

/-- The work that begins at the step low of the state entered. -/
def State.beginWork (s : State) : State :=
  let st := s.power.state
  let s := (onRails st).foldl (fun s n => s.switchRail n true) s
  let s := ((offRails st).filter (fun n => (s.rail n).enabled)).foldl (fun s n => s.switchRail n false) s
  let s := s.checkThrottling
  match st with
  | 0 => s.tryStart
  | 9 => if s.time.sysclkOk then s else s.failStep
  | 10 => s.pumpAon
  | 13 => s.beginSync
  | 14 => s.beginService
  | 15 => s.setCause s.power.due
  | 16 => s.beginStop
  | 18 => s.beginSave
  | 20 => s.startYield
  | 26 => ({ s with power := { s.power with mgmtUp := false } }).put F.PT_MGMT_LINK.STATE 0
  | 28 => s.loseVolatile false
  | 30 => s.endRecords
  | _ => s

/-- The device drives the step low of the state entered: its work begins (13 R361). On the up path a request or an input that
is gone by then aborts. -/
def State.stepLow (s : State) : State :=
  let s := ({ s with power := { s.power with begun := true, holding := true, psyncHigh := false } }).emit (.psync true)
  let s := s.beginWork
  if s.upPath && s.power.pfFail then s.upAbort 2
  else if s.upPath && !s.power.pwrReq then s.upAbort 1
  else s

/-- A counted rise steps every participant; with a command due the device drives the command low instead of the step low
(13 R361, R363; 16 R420). -/
def State.rise (s : State) : State :=
  let s := if s.power.state = 0 then
      let s := { s with power := { s.power with testMode := s.power.testPin, downTop := 0 } }
      if s.power.cmd.isNone then { s with power := { s.power with cause := 0 } } else s
    else s
  let s := s.enterState ((s.power.state + 1) % 32)
  match s.power.cmd with
  | some c => ({ s with power := { s.power with psyncHigh := true } }).setCmd c
  | none => s.stepLow

/-- PSYNC_RISE (13 R361): counts while the device does not hold the line. -/
def execPsyncRise (at_ : Nat) (s : State) : Host.Outcome State Fault Refusal :=
  let s := s.tick at_
  .next (if !s.power.holding && !s.power.psyncHigh then s.rise else s)

/-- The state that TURN leads to (13 Tables 13.1, 13.9). -/
def turnTarget (st : Nat) : Option Nat :=
  if st = 1 then some 31
  else if 2 ≤ st ∧ st ≤ 7 then some (32 - st)
  else if st = 8 then some 23
  else if 9 ≤ st ∧ st ≤ 11 then some 21
  else if 12 ≤ st ∧ st ≤ 14 then some 19
  else if 15 ≤ st ∧ st ≤ 19 then some 14
  else none

/-- The counted rise after a command low of the device: the state it leads to, and its step low (13 R362, R363). -/
def State.commandRise (s : State) (c : CmdLow) (st : Nat) : State :=
  if s.power.cmd == some c && s.power.psyncHigh then
    let s := { s with power := { s.power with cmd := none, downTop := if st = 14 then 0 else s.power.downTop } }
    (s.enterState st).stepLow
  else s

/-- TURN (13 R362, R379). In a state that the table does not list it is ignored. -/
def execTurn (at_ : Nat) (s : State) : Host.Outcome State Fault Refusal :=
  let s := s.tick at_
  .next (s.commandRise .turn ((turnTarget s.power.state).getD s.power.state))

/-- LOOP (13 R362, R367): a whole-device restart goes on in state 9 with the rails on. -/
def execLoop (at_ : Nat) (s : State) : Host.Outcome State Fault Refusal :=
  let s := s.tick at_
  .next (if s.power.state = 21 ∧ s.power.cmd = some .loop ∧ s.power.psyncHigh = true then
      (s.loseVolatile true).commandRise .loop 9
    else s)

/-- PSYNC_RESET (13 R362). -/
def execPsyncReset (at_ : Nat) (s : State) : Host.Outcome State Fault Refusal :=
  .next ((s.tick at_).commandRise .reset 0)

/-! The end of the device's own work (13 R361, Table 13.3). -/

/-- A dirty line that is uncorrectable, or whose repair has not come. -/
def State.lineLost (s : State) (n : Nat) : Bool :=
  s.beats n == .bad || s.lines.lost.contains n || !(s.repairWaiters n).isEmpty

/-- A dirty line that is uncorrectable is poisoned and counted before it is saved, and its span is marked in the split bitmap
(02 R84, R87; 03 R123). -/
def State.poisonLost (s : State) (n : Nat) : State :=
  if s.lineLost n then
    let s := s.poisonLine n (if s.beats n == .bad then 0 else 1)
    { s with lines := { s.lines with splitMap := insertSorted (spanOfLine n) s.lines.splitMap } }
  else s

/-- A line as it is saved (02 Table 2.8). -/
def State.saveLine (s : State) (n : Nat) : SaveLine :=
  let p := s.isPoison n
  { line := n, poison := p, data := if p then 0#512 else s.line n }

/-- The save-area modules of save frame `n`: the frames are dealt over the mirror pairs in order (02 R84; which pair is a
DESIGN CHOICE, log entry 25). -/
def State.savePair (s : State) (n : Nat) : List Nat :=
  let l := s.image.saveModules
  let k := l.length / 2
  if k = 0 then [] else [l.getD (2 * (n % k)) 0, l.getD (2 * (n % k) + 1) 0]

/-- Save frames from number `n` on, 56 lines to a frame, at most `fuel` of them (02 Table 2.8). -/
def State.saveFrames (s : State) (fuel n : Nat) (l : List SaveLine) : List SaveFrame :=
  match fuel with
  | 0 => []
  | fuel + 1 =>
    if l.isEmpty then []
    else { seq := n, lines := l.take 56, modules := s.savePair n, crcOk := [true, true] } :: s.saveFrames fuel (n + 1) (l.drop 56)

/-- The save: every dirty line with its tag, in frames (02 R84). -/
def State.writeSave (s : State) : State :=
  let s := (SMap.keys s.lines.dirty).foldl State.poisonLost s
  let l := (SMap.keys s.lines.dirty).map s.saveLine
  let fr := s.saveFrames (ceilDiv l.length 56) 0 l
  let s := { s with save := { s.save with frames := fr, written := true } }
  let n := max 1 s.image.saveModules.length
  let s := fr.foldl (fun (s : State) f => s.saveWrites (f.modules.map (fun m => (m, true))) (2 ^ 18 / n + f.seq / max 1 (n / 2))) s
  (s.put F.PW_SAVE_STAT.FRAMES fr.length).put F.PW_SAVE_STAT.SAVE_MS (min 0xFFFF (ceilDiv (s.now - s.save.startDt) 1000000))

/-- Rows in flight complete, and every group's journal holds CLEAN (08 R245). -/
def State.cleanRows (s : State) : State :=
  let ready := s.lines.running.filter (fun x => !x.2.2.2 && s.rowListed x.2.1 (s.rowOf x.2.2.1))
  let s := ready.foldl (fun (s : State) x =>
    ({ s with tier := { s.tier with pmap := SMap.put s.tier.pmap x.1 (x.2.1, x.2.2.1) } }).floatFrame x.2.1 x.2.2.1) s
  let s := { s with lines := { s.lines with running := [], again := [], rmwRepair := [] } }
  (List.range s.pGroups).foldl (fun s g =>
    let k := s.skim g
    (s.putSkim g { k with
      kind := 3, seq := k.seq + 1, slot := k.slot + 1, inFlight := [], batch := [], waiting := [], writing := false }).journalWritten g k) s

/-- The save is committed, a health summary is written, and last the commit record: it names the save just written; else the one
found committed at this power-up, or none (13 Table 13.8; 14 Table 14.6). -/
def State.commitSave (s : State) : State :=
  let now := s.save.active && s.save.written
  let s := if now then
      let s := { s with save := { s.save with active := false, committed := true } }
      ((s.put F.PW_SAVE_STAT.COMMITTED 1).raise F.PW_STATUS.SAVE_DONE).health 2 1
    else s
  let s := s.writeSummary
  let (epoch, frames) := if s.save.committed then (s.save.epoch, s.save.frames.length) else (s.get F.PW_DOWN_LOG.EPOCH, 0)
  let s := s.put F.PW_DOWN_LOG.EPOCH (epoch % 2 ^ 32)
  s.bbRecord 0 (.commit epoch frames (if now || frames ≠ 0 then s.save.startDt else 0) s.power.cause)

/-- State 19: rows, journals, modules and the commit record (13 Table 13.3; 08 R245; 11 R320; 14 R397). -/
def State.workCommit (s : State) : State :=
  let s := s.cleanRows
  let s := { s with flash := { s.flash with jpending := 0 } }
  let s := ((s.portsOf 4).filter s.portUp).foldl (fun (s : State) p => s.emit (.mediaGpf p)) s
  s.commitSave

/-- State 20 has ended: for a whole-device restart LOOP is due in state 21 (13 R367). -/
def State.workYield (s : State) : State :=
  if s.power.cause = 5 ∧ s.power.cmd = none then (s.setCmd .loop).letGo else s.letGo

/-- State 9 ends: DRAM is coated, and a channel that failed its training fails the step. -/
def State.coated (s : State) (r : WorkRes) : State :=
  let t := s.coat r.trainFailed
  if s.coatOk r.trainFailed then t.letGo else t.failStep

/-- State 9 begins: the chosen image's panels are latched, and no cell of the image stays unlocked. -/
def State.latchChosen (s : State) : State :=
  let s := match (s.slot s.image.chosen).img with | some i => s.latchPanels i | none => s
  { s with image := { s.image with unlocked := [] } }

/-- The work of state 9: the chosen image's panels latched, the tile stores and the Crown cleared, DRAM coated. -/
def State.workCells (s : State) (r : WorkRes) : State := s.latchChosen.zeroTileStores.seedCrown.coated r

/-- The work of a state on the way down has ended. -/
def State.workDown (s : State) : State :=
  match s.power.state with
  | 15 => s.letGo
  | 16 => if s.twin.group.isNone && s.twin.downWork.isEmpty then s.letGo else s
  | 17 => (((SMap.keys (s.crown.cells.filter (fun x => x.2.dirty))).foldl State.evictCell s).endCleaning.settle).letGo
  | 18 => s.writeSave.letGo
  | 19 => s.workCommit.letGo
  | 20 =>
    if s.twin.st == .yielded then s.workYield
    else if s.twin.yieldSlots == 0 || s.yieldEchoed then s.enterYielded.workYield
    else s
  | _ => s

/-- The work of a state on the way up has ended. -/
def State.workUp (s : State) (r : WorkRes) : State :=
  match s.power.state with
  | 1 =>
    if !r.railsOk then s.failStep
    else
      let (s, ok) := (s.railsSettled 1).chooseImage
      if ok then s.letGo else s.failStep
  | 2 | 3 | 4 | 5 | 6 | 7 => if r.railsOk then (s.railsSettled s.power.state).letGo else s.failStep
  | 8 =>
    if !r.railsOk then s.failStep
    else if s.power.testMode && s.power.cmd.isNone then s.railsSettled 8
    else (s.railsSettled 8).letGo
  | 9 => s.workCells r
  | 10 => ((s.recoat r.recoat).reapplyList).letGo
  | 11 =>
    let (s, ok) := s.workImage r
    if ok then s.letGo else s.failStep
  | 12 => ((s.trainPorts (s.portsOf 1 ++ s.portsOf 2 ++ s.portsOf 3) r.portsTrained).settle).letGo
  | 13 => if s.pairReady then (s.restartCases.healSuspect.settle).letGo else s
  | _ => s

/-- The work of the running state has ended. -/
def State.workDone (s : State) (r : WorkRes) : State :=
  if 21 ≤ s.power.state then (if r.railsOk then s.letGo else s)
  else if s.power.state ≤ 14 then s.workUp r
  else s.workDown

/-- STATE_WORK_DONE (13 R361). -/
def execStateWorkDone (r : WorkRes) (at_ : Nat) (s : State) : Host.Outcome State Fault Refusal :=
  let s := s.tick at_
  .next (if s.power.begun && s.power.holding then s.workDone r else s)

/-- A state has passed its bound (13 R366; Table 13.5, last row; Table 13.8, last row). -/
def State.boundPassed (s : State) : State :=
  let st := s.power.state
  if s.power.psyncHigh then s
  else if s.power.holding then
    -- the device's own work: a rail that did not come up by its bound
    if 1 ≤ st ∧ st ≤ 8 ∧ !(onRails st).all (fun n => s.railLive n) then s.failStep else s
  else
    let s := s.raise F.PW_STATUS.PSYNC_FAULT
    if s.power.cmd == some .turn then s.emergencyStop 0xFF
    else if 1 ≤ st ∧ st ≤ 13 then s.failStep
    else if 19 ≤ st then s.emergencyStop 0xFF
    else s

/-- STATE_BOUND_EXPIRY (13 R366). -/
def execStateBoundExpiry (at_ : Nat) (s : State) : Host.Outcome State Fault Refusal :=
  .next (s.tick at_).boundPassed

/-! Rail monitors (13 R369, R370; 16 R416). -/

/-- A monitor's count of consecutive samples and the level it has reached. -/
structure Meter where
  level : Nat
  overWarn : Nat
  overFault : Nat
  inWarn : Nat
  inFault : Nat
  deriving DecidableEq, Repr

/-- A count of consecutive samples, up to three. -/
def runOf (hit : Bool) (n : Nat) : Nat := if hit then min 3 (n + 1) else 0

/-- One sample: a level is entered after three samples beyond it and left after three within; a regulator's fault bit counts at
once (13 R369). -/
def Meter.sample (m : Meter) (warn fault atOnce : Bool) : Meter :=
  let ofl := if atOnce then 3 else runOf fault m.overFault
  let ifl := runOf (!fault && !atOnce) m.inFault
  let ow := runOf warn m.overWarn
  let iw := runOf (!warn && !atOnce) m.inWarn
  let level :=
    if 3 ≤ ofl then 2
    else if m.level = 2 ∧ ifl < 3 then 2
    else if 3 ≤ ow then 1
    else if 1 ≤ m.level ∧ iw < 3 then 1
    else 0
  { level := level, overWarn := ow, overFault := ofl, inWarn := iw, inFault := ifl }

/-- What a rail in fault leads to (13 Table 13.5). -/
def State.railFaulted (s : State) (n : Nat) : State :=
  let st := s.power.state
  if s.upPath then s.failStep
  else if st = 0 then s
  else if st = 14 then s.startDown 3
  else if st ≤ 18 ∨ (st = 19 ∧ s.power.begun = false) then (if 1 ≤ n ∧ n ≤ 3 then s.emergencyStop n else s)
  else s.emergencyStop n

/-- A rail's level has changed (13 Table 13.5, Table 13.13). -/
def State.railMoved (s : State) (n old new : Nat) : State :=
  let s := if old = 0 ∧ 1 ≤ new then (s.raise F.PW_STATUS.RAIL_WARN).checkThrottling else s
  if old < 2 ∧ new = 2 then (s.raise F.PW_STATUS.RAIL_FAULT).railFaulted n else s

/-- A sample of a rail in mV, with the junction in eighths of a degree for VDD_CORE. A rail that is off or not up yet only shows
its voltage. -/
def State.sampleRail (s : State) (n mv : Nat) (faultBit : Bool) (j8 : Nat) : State :=
  let r := s.rail n
  let r := { r with mv := mv, junction := if n = 3 then j8 else r.junction }
  if !s.railLive n then s.putRail n r
  else
    let nom := s.railNominal n
    let off := if nom ≤ mv then mv - nom else nom - mv
    let m := Meter.sample ⟨r.level, r.overWarn, r.overFault, r.inWarn, r.inFault⟩
      (decide (railWarn n * nom < off * 1000)) (decide (railFaultLevel n * nom < off * 1000)) (faultBit && railPmbus n)
    let j : Meter := ⟨r.jLevel, r.jOverWarn, r.jOverFault, r.jInWarn, r.jInFault⟩
    let j := if n = 3 then j.sample (decide (800 ≤ j8)) (decide (880 ≤ j8)) false else j
    let old := max r.level r.jLevel
    let s := s.putRail n { r with
      level := m.level, overWarn := m.overWarn, overFault := m.overFault, inWarn := m.inWarn, inFault := m.inFault,
      jLevel := j.level, jOverWarn := j.overWarn, jOverFault := j.overFault, jInWarn := j.inWarn, jInFault := j.inFault }
    s.railMoved n old (max m.level j.level)

/-- RAIL_SAMPLE (13 R369). -/
def execRailSample (rail mv : Nat) (faultBit : Bool) (junction8 : Nat) (at_ : Nat) (s : State) :
    Host.Outcome State Fault Refusal :=
  let s := s.tick at_
  .next (if 10 < rail then s else s.sampleRail rail mv faultBit junction8)

/-- THROTTLE_END (13 R371). -/
def execThrottleEnd (at_ : Nat) (s : State) : Host.Outcome State Fault Refusal :=
  let s := s.tick at_
  .next (if s.power.throttle && !s.anyWarning then { s with power := { s.power with throttle := false } } else s)

/-! The energy store and the requests (13 R372, R373). -/

/-- PF_WARN_N asserted with the input good: the limit is taken as 0 until it is released (13 Table 13.6). -/
def State.checkStore (s : State) : State :=
  let before := s.effGib
  if s.power.pfWarn && !s.power.pfFail && !s.lines.storeZero then
    let s := { s with lines := { s.lines with storeZero := true } }
    ((s.raise F.PW_STATUS.STORE_NOT_READY).budgetChanged before).settle
  else if !s.power.pfWarn && s.lines.storeZero then
    (({ s with lines := { s.lines with storeZero := false } }).budgetChanged before).settle
  else s

/-- PF_WARN_CHANGE (13 R372). -/
def execPfWarnChange (low : Bool) (at_ : Nat) (s : State) : Host.Outcome State Fault Refusal :=
  let s := s.tick at_
  .next ({ s with power := { s.power with pfWarn := low } }).checkStore

/-- PF_FAIL_CHANGE (13 R372): asserted, service ends with a save and the up path is left. -/
def execPfFailChange (low : Bool) (at_ : Nat) (s : State) : Host.Outcome State Fault Refusal :=
  let s := s.tick at_
  let s := { s with power := { s.power with pfFail := low, supply := if low then false else s.power.supply } }
  .next (if low then (if s.inService then s.startDown 2 else s.upAbort 2) else s.checkStore)

/-- SUPPLY_GOOD (13 R370, R378). -/
def execSupplyGood (at_ : Nat) (s : State) : Host.Outcome State Fault Refusal :=
  let s := s.tick at_
  .next (if s.power.pfFail then s
    else (({ s with power := { s.power with supply := true } }).tryStart).supplyReturn)

/-- PWR_REQ deasserted during a whole-device restart: the rails go off (13 Table 13.8). -/
def State.restartOff (s : State) : State :=
  let p := s.power
  if p.state = 14 ∧ p.due = 5 then { s with power := { p with due := 1 } }
  else if 15 ≤ p.state ∧ p.state ≤ 20 ∧ p.cause = 5 then
    let s := { s with power := { p with cmd := if p.cmd == some CmdLow.loop then none else p.cmd } }
    s.setCause 1
  else s

/-- PWR_REQ_CHANGE (13 R373, R378). -/
def execPwrReqChange (high : Bool) (at_ : Nat) (s : State) : Host.Outcome State Fault Refusal :=
  let s := s.tick at_
  let s := { s with power := { s.power with
    pwrReq := high, waitToggle := if high then s.power.waitToggle else false } }
  .next (if high then s.tryStart.supplyReturn
    else if s.inService && s.power.holding then s.startDown 1
    else (s.upAbort 1).restartOff)

/-- ENERGY_STORE_POLL (13 R372; 02 R66): KEEP firmware lowers the declaration to what the store has. -/
def execEnergyStorePoll (joules at_ : Nat) (s : State) : Host.Outcome State Fault Refusal :=
  let s := s.tick at_
  .next (if 10 ≤ s.power.state && s.power.state ≤ 20 && joules < s.get F.PW_ENERGY_DECL.USABLE_J then
      let before := s.effGib
      ((s.put F.PW_ENERGY_DECL.USABLE_J joules).budgetChanged before).settle
    else s)

/-- SYSCLK_LOSS (16 R418; 12 R345): every PLL but those of the port quads loses lock; the device restarts. On the way up from
state 9 on it is a failed step (DEDUCED, log entry 46). -/
def execSysclkLoss (at_ : Nat) (s : State) : Host.Outcome State Fault Refusal :=
  let s := s.tick at_
  let s := { s with time := { s.time with sysclkOk := false } }
  .next (if s.power.state < 9 || 20 < s.power.state then s
    else
      let l := (List.range 112).map (fun k => k + 24)
      let s := { s with image := { s.image with unlocked := l.foldl (fun a n => insertSorted n a) s.image.unlocked } }
      let s := s.raise F.IS_STATUS.CLOCK_LOST
      if s.inService then s.startDown 5
      else if s.upPath then s.failStep
      else s)

end Sys2Proof.Machine
end

