-- ==== Sys2Proof/Machine/Events.lean ====
section
/-! DEFINITION. The rest of 14 and 15: eNVM writes that end, the event log pointers and the MSI-X interval, the eNVM read-out of
black box and health log, device time and GPIO captures, the MGMT link, AON reset. -/

namespace Sys2Proof.Machine

open Sys2Proof

/-! eNVM writes (12 R340, R351; 14 R392). -/

/-- A black-box record stands in its slot; one that fails its read-back is torn there and goes to the next slot, the ones behind
it follow (14 Table 14.11). -/
def State.recordWritten (s : State) (ok : Bool) : State :=
  match s.events.bbWrites with
  | [] => s
  | r :: t =>
    if ok then
      { s with events := { s.events with bbRing := SMap.put s.events.bbRing (r.seq % Config.bbSlots) r, bbWrites := t } }
    else
      let next (x : BBRec) : BBRec := { x with seq := x.seq + 1 }
      let s := { s with events := { s.events with
        bbRing := SMap.put s.events.bbRing (r.seq % Config.bbSlots) { r with torn := true },
        bbWrites := (r :: t).map next, bbNext := s.events.bbNext + 1 } }
      s.raise F.BB_STATUS.BB_WRITE_FAIL

/-- The oldest write of a commit or wrap record ends, else that of a black-box record. A commit or wrap record that fails its
read-back is written again. -/
def State.envmWritten (s : State) (ok : Bool) : State :=
  match s.image.envm with
  | x :: t =>
    if !ok then s
    else
      let s := { s with image := { s.image with envm := t } }
      (match x with
       | .commit c => (s.commitWritten c).settle
       | .wrap n => s.wrapWritten n)
  | [] => s.recordWritten ok

/-- ENVM_RECORD_WRITTEN (12 R340). -/
def execEnvmRecordWritten (ok : Bool) (at_ : Nat) (s : State) : Host.Outcome State Fault Refusal :=
  .next ((s.tick at_).envmWritten ok)

/-! The event log and its interrupts (14 R386, R389, R398). -/

/-- The interval of a target ends: one message covers the events since its start (14 R389). -/
def State.intervalEnds (s : State) (t : Nat) : State :=
  match SMap.find s.events.coalesce t with
  | some (st, due) =>
    if s.now < st + s.coalesceNs then s
    else if due then
      ({ s with events := { s.events with coalesce := SMap.put s.events.coalesce t (s.now, false) } }).evSend t
    else { s with events := { s.events with coalesce := SMap.del s.events.coalesce t } }
  | none => s

/-- EVENT_COALESCE_TIMER (14 R389): of a HOST port, or of MGMT. -/
def execEventCoalesceTimer (port : Option Nat) (at_ : Nat) (s : State) : Host.Outcome State Fault Refusal :=
  .next ((s.tick at_).intervalEnds (port.getD 96))

/-- BB_EV_PTR.HEAD written: it moves as far as TAIL, any other value is ignored (14 Table 14.10). -/
def State.writeHead (s : State) (via : Via) (w : AccW) (v : Word) : State :=
  s.writeAt via .BB_EV_PTR 0 w v (fun s =>
    if w = .hi then s
    else
      let n := (bitsOf v 0 12 + Config.evLogSize - s.events.head) % Config.evLogSize
      if s.events.unread < n then s.raise F.BB_STATUS.PTR_BAD
      else { s with events := { s.events with
        head := (s.events.head + n) % Config.evLogSize, unread := s.events.unread - n } })

/-- BB_EV_PTR_WRITE (14 R386). -/
def execBbEvPtrWrite (via : Via) (w : AccW) (v : Word) (at_ : Nat) (s : State) : Host.Outcome State Fault Refusal :=
  .next ((s.tick at_).writeHead via w v)

/-- BB_EV_STAT_READ (14 R398). -/
def execBbEvStatRead (via : Via) (w : AccW) (s : State) : Host.Outcome State Fault Refusal :=
  .next (s.readCounters via .BB_EV_STAT 0 w [F.BB_EV_STAT.LOST, F.BB_EV_STAT.MERGED])

/-! The read-out of eNVM (14 R393, R396, R397). An eNVM byte never written reads as zero (DESIGN CHOICE, log entry 47). -/

/-- A list of bytes filled with zeros to a length. -/
def padTo (n : Nat) (l : List Byte) : List Byte := l ++ List.replicate (n - l.length) 0#8

/-- TYPE, EVENT and BODY of a black-box record (14 Tables 14.5, 14.6). -/
def bodyBytes (b : BBody) : Nat × List Byte × List Byte :=
  let no : List Byte := List.replicate 32 0#8
  match b with
  | .event e reg pw tw dirty =>
    (1, evBytes e, leBytes 8 reg.toNat ++ leBytes 8 pw.toNat ++ leBytes 8 tw.toNat ++ leBytes 8 dirty.toNat)
  | .boot v slot cause back => (2, no, leBytes 8 v.toNat ++ leBytes 1 slot ++ leBytes 1 cause ++ leBytes 1 (bit back))
  | .commit epoch frames dt cause => (3, no, leBytes 4 epoch ++ leBytes 4 frames ++ leBytes 8 dt ++ leBytes 1 cause)
  | .spanLoss sp cause n => (4, no, leBytes 7 (sp * 1048576) ++ leBytes 1 cause ++ leBytes 4 n)
  | .takeover pair trigger claim => (5, no, padTo 8 (leBytes 1 pair ++ leBytes 1 trigger) ++ leBytes 8 claim)
  | .emergency rail st dt => (6, no, padTo 8 (leBytes 1 rail ++ leBytes 1 st) ++ leBytes 8 dt)

/-- Bytes 0 to 251 of a black-box record. -/
def recordBody (r : BBRec) : List Byte :=
  let (ty, ev, body) := bodyBytes r.body
  leBytes 8 r.seq ++ leBytes 8 r.dt ++ leBytes 1 ty ++ leBytes 1 r.cls ++ leBytes 1 r.device ++ leBytes 1 r.state
    ++ leBytes 4 r.boot ++ ev ++ padTo 196 body

/-- The 256 bytes of a black-box record. -/
def recordBytes (r : BBRec) : List Byte := recordBody r ++ leBytes 4 (crc32c (recordBody r)).toNat

/-- Bytes 0 to 4,091 of a health summary slot (14 Table 14.7). -/
def summaryBody (h : Health) : List Byte :=
  let words (n : Nat) (l : List Nat) : List Byte := (List.range n).flatMap (fun k => leBytes 8 (l.getD k 0))
  padTo 4092 (leBytes 8 h.seq ++ leBytes 8 h.dt ++ words 16 h.counters ++ words 32 h.lid ++ words 32 h.junction
    ++ words 9 h.classes)

/-- The 4 KiB of a health summary slot. -/
def summaryBytes (h : Health) : List Byte := summaryBody h ++ leBytes 4 (crc32c (summaryBody h)).toNat

/-- The 16 bytes of an entry of the health list: type, channel, location, CRC over the bytes before it (14 R397). -/
def listBytes (x : Nat × Nat × Nat) : List Byte :=
  let b := leBytes 1 x.1 ++ leBytes 1 x.2.1 ++ leBytes 2 0 ++ leBytes 8 x.2.2
  b ++ leBytes 4 (crc32c b).toNat

/-- Word `k` of a list of bytes. -/
def wordOf (l : List Byte) (k : Nat) : Word := word (leNat ((l.drop (8 * k)).take 8))

/-- The word at a byte offset of the black box. -/
def State.boxWord (s : State) (addr : Nat) : Word :=
  match SMap.find s.events.bbRing (addr / 256 % Config.bbSlots) with
  | some r => if r.torn then Config.tornWord r.seq (addr / 8 % 32) else wordOf (recordBytes r) (addr / 8 % 32)
  | none => 0#64

/-- The word at a byte offset of the health log: summary slots, then the list; zeros beyond 8 MiB (14 R397, Table 14.10). -/
def State.healthWord (s : State) (addr : Nat) : Word :=
  if 8388608 ≤ addr then 0#64
  else if addr < 4194304 then
    match SMap.find s.events.summaries (addr / 4096) with
    | some h => wordOf (summaryBytes h) (addr / 8 % 512)
    | none => 0#64
  else
    match s.events.list[(addr - 4194304) / 16]? with
    | some x => wordOf (listBytes x) (addr / 8 % 2)
    | none => 0#64

/-- The eNVM word that BB_AON_ADDR names, or an ENVM_READ (14 R396; 16 R421). -/
def State.envmWord (s : State) (addr : Nat) (health : Bool) : Word :=
  if health then s.healthWord addr else s.boxWord addr

/-- BB_AON_DATA. -/
def State.aonData (s : State) : Word :=
  s.envmWord (s.get F.BB_AON_ADDR.ADDR / 8 * 8) (s.isSet F.BB_AON_ADDR.REGION 0)

/-- BB_AON_DATA_READ (14 R396): each read adds 8 to ADDR. -/
def execBbAonDataRead (via : Via) (w : AccW) (s : State) : Host.Outcome State Fault Refusal :=
  .next (s.readAt via .BB_AON_DATA 0 w s.aonData (fun s =>
    s.put F.BB_AON_ADDR.ADDR ((s.get F.BB_AON_ADDR.ADDR / 8 * 8 + 8) % 2 ^ 24)))

/-- HEALTH_SUMMARY_TIMER (14 R397): an hour of power-on time. -/
def execHealthSummaryTimer (at_ : Nat) (s : State) : Host.Outcome State Fault Refusal :=
  let s := s.tick at_
  .next (if 11 ≤ s.power.state && s.power.state ≤ 20 then (s.health 0 1).writeSummary else s)

/-! Device time and captures (15 R406 to R408). -/

/-- TM_DT_READ (15 R407): a read of the low half latches the high half, which a read of the high half returns. -/
def execTmDtRead (via : Via) (w : AccW) (at_ : Nat) (s : State) : Host.Outcome State Fault Refusal :=
  let s := s.tick at_
  let v := word s.now
  .next (match w with
    | .full => s.readAt via .TM_DT 0 w v id
    | .lo => s.readAt via .TM_DT 0 w v (fun s =>
        { s with time := { s.time with dtHigh := BitVec.ofNat 32 (s.now / 2 ^ 32) } })
    | .hi => s.readAt via .TM_DT 0 w (word (s.time.dtHigh.toNat * 2 ^ 32)) id)

/-- TM_CAPTURE_READ (15 R408): the read re-arms the capture. -/
def execTmCaptureRead (via : Via) (w : AccW) (at_ : Nat) (s : State) : Host.Outcome State Fault Refusal :=
  let s := s.tick at_
  .next (s.readAt via .TM_CAPTURE 0 w (s.reg .TM_CAPTURE 0) (fun s =>
    { s with time := { s.time with captureUnread := false } }))

/-- The edge is one that TM_CAPTURE_CTL watches; the alert GPIO acts as off. -/
def State.watches (s : State) (gpio : Nat) (rising : Bool) : Bool :=
  gpio == s.get F.TM_CAPTURE_CTL.GPIO && gpio != s.get F.BB_EV_CTL.ALERT_GPIO
    && (s.get F.TM_CAPTURE_CTL.EDGE).testBit (if rising then 0 else 1)

/-- GPIO_EDGE (15 R408). -/
def execGpioEdge (gpio : Nat) (rising : Bool) (at_ : Nat) (s : State) : Host.Outcome State Fault Refusal :=
  let s := s.tick at_
  .next (if !s.watches gpio rising then s
    else if s.time.captureUnread then s.raise F.TM_STATUS.CAPTURE_MISSED
    else
      let s := { s with time := { s.time with captureUnread := true } }
      (s.put F.TM_CAPTURE.DT at_).raise F.TM_STATUS.CAPTURED)

/-- SYSCLK_RETURN (16 R418). -/
def execSysclkReturn (at_ : Nat) (s : State) : Host.Outcome State Fault Refusal :=
  let s := s.tick at_
  .next { s with time := { s.time with sysclkOk := true } }

/-! The MGMT link (15 R404; 11 R328). -/

/-- MGMT_LINK_DOWN. -/
def execMgmtLinkDown (at_ : Nat) (s : State) : Host.Outcome State Fault Refusal :=
  let s := s.tick at_
  .next (if s.power.mgmtUp then
      let s := { s with power := { s.power with mgmtUp := false } }
      (s.put F.PT_MGMT_LINK.STATE 0).raise F.PT_DEV_STATUS.MGMT_DOWN
    else s)

/-- MGMT_LINK_TRAINED: from the step low of state 5 to the end of state 25, at Gen4 or less. -/
def execMgmtLinkTrained (rate at_ : Nat) (s : State) : Host.Outcome State Fault Refusal :=
  let s := s.tick at_
  .next (if (decide (5 < s.power.state) || (s.power.state == 5 && s.power.begun)) && decide (s.power.state ≤ 25) then
      let s := { s with power := { s.power with mgmtUp := true } }
      (s.put F.PT_MGMT_LINK.STATE 2).put F.PT_MGMT_LINK.RATE (min 4 rate)
    else s)

/-! AON reset (15 R405, R406; 13 R360). -/

/-- AON_RESET: the AON island starts anew in state 0 with every enable deasserted; DT restarts from 0, part code and serial come
from OTP. Tier P, tier F, eNVM and OTP keep what they hold. -/
def execAonReset (code : Nat) (serial : Word) (s : State) : Host.Outcome State Fault Refusal :=
  let s := ((List.range 11).filter (fun n => (s.rail n).enabled)).foldl (fun s n => s.switchRail n false) s
  let s := s.tearRecords.loseVolatile false
  let s := { s with
    regs := s.regs.filter (fun x => match regAt x.1 with | some (r, _) => r == Reg.TW_SPLIT_DT | none => false),
    time := { sysclkOk := s.time.sysclkOk }, power := { testPin := s.power.testPin }, jtag := {},
    lines := { s.lines with storeZero := false },
    image := { s.image with chosen := 0, fellBack := false, unlocked := [] },
    events := { s.events with aonBuf := [] } }
  .next ((s.put F.GB_ID.CODE code).setReg .GB_SERIAL 0 serial)

end Sys2Proof.Machine
end

