-- ==== Sys2Proof/Machine/Jtag.lean ====
section
/-! DEFINITION. The test port (16 R419 to R421; 12 R334): one command is an instruction with one scan of its data register. -/

namespace Sys2Proof.Machine

open Sys2Proof

/-- Board test mode: TEST_MODE was high at the rise out of state 0, and state 8 has ended its work (16 R420). -/
def State.boardTest (s : State) : Bool :=
  s.power.testMode && s.power.state == 8 && s.power.begun && (onRails 8).all (fun n => s.railLive n)

/-- The current instruction. VDD_NVM goes off in state 0 when ENVM_READ is left (16 R421). -/
def State.setIr (s : State) (ir : TapIr) : State :=
  let off := s.jtag.nvmOn && ir != .envmRead
  let s := { s with jtag := { s.jtag with ir := ir, nvmOn := s.jtag.nvmOn && !off } }
  if off && s.power.state == 0 then s.switchRail 1 false else s

/-- A scan of the one-bit bypass register, which captures 0. -/
def State.scanBypass (s : State) (ir : TapIr) : State := (s.setIr ir).emit (.tdo 0xFF 0)

/-- A scan of the boundary-scan register: what the pins show goes out, the cells take what was shifted in. -/
def State.scanBoundary (s : State) (ir : TapIr) (code : Nat) (pins shift : Bsr) : State :=
  let s := s.setIr ir
  { s with jtag := { s.jtag with bsr := pins, latch := shift } }.emit (.tdo code pins)

/-- A board-test instruction, which acts as BYPASS outside board test mode (16 R420). -/
def State.boardOnly (s : State) (act : State → State) : State :=
  if s.boardTest then act s else s.scanBypass .bypass

/-- BYPASS (16 R419). -/
def execBypass (s : State) : Host.Outcome State Fault Refusal := .next (s.scanBypass .bypass)

/-- IDCODE: version 0x1, part 0x9648, manufacturer code 0x673 (16 R419). -/
def execIdcode (s : State) : Host.Outcome State Fault Refusal :=
  .next ((s.setIr .idcode).emit (.tdo 0x01 (BitVec.ofNat 8214 0x19648CE7)))

/-- SAMPLE/PRELOAD (16 Table 16.5). -/
def execSamplePreload (pins preload : Bsr) (s : State) : Host.Outcome State Fault Refusal :=
  .next (s.scanBoundary .sample 0x02 pins preload)

/-- EXTEST: the cells drive the balls, and their state is captured. -/
def execExtest (pins shift : Bsr) (s : State) : Host.Outcome State Fault Refusal :=
  .next (s.boardOnly (fun s => s.scanBoundary .extest 0x03 pins shift))

/-- CLAMP: the cells hold the balls, the bypass register is scanned. -/
def execClamp (s : State) : Host.Outcome State Fault Refusal :=
  .next (s.boardOnly (fun s => s.scanBypass .clamp))

/-- HIGHZ: the balls do not drive, the bypass register is scanned. -/
def execHighz (s : State) : Host.Outcome State Fault Refusal :=
  .next (s.boardOnly (fun s => s.scanBypass .highz))

/-- EXTEST_PULSE: the cells drive pulses. -/
def execExtestPulse (shift : Bsr) (s : State) : Host.Outcome State Fault Refusal :=
  .next (s.boardOnly (fun s =>
    let s := s.setIr .pulse
    { s with jtag := { s.jtag with latch := shift } }))

/-- EXTEST_TRAIN: the cells drive pulse trains. -/
def execExtestTrain (shift : Bsr) (s : State) : Host.Outcome State Fault Refusal :=
  .next (s.boardOnly (fun s =>
    let s := s.setIr .train
    { s with jtag := { s.jtag with latch := shift } }))

/-- The 90-bit data register of ENVM_READ as Capture-DR loads it (16 R421). -/
def State.envmCapture (s : State) : Bsr :=
  BitVec.ofNat 8214 ((if s.jtag.ready then s.jtag.data.toNat else 0) + s.jtag.addr % 2 ^ 24 * 2 ^ 64 + bit s.jtag.health * 2 ^ 88
    + bit s.jtag.ready * 2 ^ 89)

/-- ENVM_READ (16 R421): the scan brings the word asked for before, and asks for the next. In state 0 it switches VDD_NVM on. -/
def execEnvmRead (addr : Nat) (health : Bool) (at_ : Nat) (s : State) : Host.Outcome State Fault Refusal :=
  let s := s.tick at_
  let s := (s.setIr .envmRead).emit (.tdo 0x20 s.envmCapture)
  let s := { s with jtag := { s.jtag with
    addr := addr % 2 ^ 24 / 8 * 8, health := health, busy := true, ready := false, data := 0#64 } }
  .next (if s.power.state == 0 && !s.jtag.nvmOn then
      ({ s with jtag := { s.jtag with nvmOn := true } }).switchRail 1 true
    else s)

/-- ENVM_READ_DONE (16 R421): the word has been read, VDD_NVM being on. -/
def execEnvmReadDone (at_ : Nat) (s : State) : Host.Outcome State Fault Refusal :=
  let s := s.tick at_
  .next (if s.jtag.busy && (s.rail 1).enabled then
      { s with jtag := { s.jtag with
        busy := false, ready := true, data := s.envmWord s.jtag.addr s.jtag.health } }
    else s)

/-- OTP_KEYHASH (12 R334; 16 Table 16.5): in state 0, once for each key hash. -/
def execOtpKeyhash (customer : Bool) (hash : BitVec 384) (s : State) : Host.Outcome State Fault Refusal :=
  let s := s.setIr .otp
  .next (if s.power.state ≠ 0 then s
    else if customer then
      { s with otp := { s.otp with custHash := match s.otp.custHash with | some h => some h | none => some hash } }
    else { s with otp := { s.otp with gwHash := match s.otp.gwHash with | some h => some h | none => some hash } })

end Sys2Proof.Machine
end

