-- ==== Sys2Proof/Machine/RegWrite.lean ====
section
/-! DEFINITION. A write to a register by its offset (15 R399 to R404; 00 R8, R9): each register with a step of its own goes by that
step, every other one by the access types of its fields; and accesses of a bad size. -/

namespace Sys2Proof.Machine

open Sys2Proof

/-- A command register written: with GO in the addressed half the command runs with the other half as it stands (15 R402). -/
def State.writeCmd (s : State) (via : Via) (r : Reg) (i : Nat) (w : AccW) (v : Word) (op : FieldRef)
    (run : Nat → State → State) : State :=
  s.writeAt via r i w v (fun s =>
    let t := s.writeFields r i w v false
    if (accValue w v &&& accMask w).getLsbD 8 then run (t.getF op i) s else t)

/-- A command of IS_CMD started by GO; the image that IMAGE_LOAD finds is a free value (log entry 48). -/
def State.isGo (s : State) (op : Nat) : State :=
  let (ix, s) := s.nextFree
  s.isRun op (s.reg .IS_CMD_ARG0 0) (s.reg .IS_CMD_ARG1 0) (Config.imageThere ix)

/-- A command of PT_CMD started by GO; what RESCAN finds is a free value (log entry 48). -/
def State.ptGo (s : State) (p op : Nat) : State :=
  let (ix, s) := s.nextFree
  s.ptRun p op (Config.scanTrain ix) (Config.scanModule ix)

/-- DC_TRN_CTL written: with GO in the addressed half its step runs, and what it finds is a free value (log entry 48). -/
def State.trainGo (s : State) (via : Via) (ch : Nat) (w : AccW) (v : Word) : State :=
  if (accValue w v &&& accMask w).getLsbD 8 then
    let (ix, s) := s.nextFree
    s.writeTrain via ch w v (Config.stepLanes ix) (Config.stepBad ix).toNat
  else s.writePlain via .DC_TRN_CTL ch w v

/-- DC_PPR_CMD written: with GO in the addressed half the repair runs, and whether the row has a spare is a free value (log
entry 48). -/
def State.pprGo (s : State) (via : Via) (ch : Nat) (w : AccW) (v : Word) : State :=
  if (accValue w v &&& accMask w).getLsbD 29 then
    let (ix, s) := s.nextFree
    s.writePpr via ch w v (Config.rowSpare ix)
  else s.writePlain via .DC_PPR_CMD ch w v

/-- A write of a register. -/
def State.writeReg (s : State) (via : Via) (r : Reg) (i : Nat) (w : AccW) (v : Word) : State :=
  match r with
  | .PW_DIRTY_BUDGET => s.writeBudget via w v
  | .PW_ENERGY_DECL => s.writeEnergy via w v
  | .PW_DESTAGE_CTL => s.writeAt via r i w v (fun s => (s.writeFields r i w v false).checkBudget.settle)
  | .ST_TIER_CTL => s.writeAt via r i w v (fun s => (s.writeFields r i w v false).checkDemotion.settle)
  | .ST_QUOTA_D => s.writeQuota via 0 w v
  | .ST_QUOTA_P => s.writeQuota via 1 w v
  | .ST_QUOTA_F => s.writeQuota via 2 w v
  | .CR_WAY_PWR => s.writeWays via w v
  | .CR_LFSR_SEED => s.writeSeed via w v
  | .PW_PERSIST_STATUS => s.writePersist via w v
  | .TW_ROTATE_CTL => s.writeRotate via w v
  | .FL_FULL_CTL => s.writeFull via w v
  | .IS_BOOT => s.writeBoot via w v
  | .BB_EV_PTR => s.writeHead via w v
  | .BL_CMD => s.writeCmd via r i w v F.BL_CMD.OP (fun op s =>
      s.startBl op (s.reg .BL_CMD_ARG0 0) (s.reg .BL_CMD_ARG1 0) (s.reg .BL_CMD_ARG2 0))
  | .TW_CMD => s.writeCmd via r i w v F.TW_CMD.OP (fun op s => s.twRun op)
  | .ST_RESHAPE_CMD => s.writeCmd via r i w v F.ST_RESHAPE_CMD.OP (fun op s => s.reshapeRun op)
  | .QU_CMD => s.writeCmd via r i w v F.QU_CMD.OP (fun op s =>
      s.startQu op (s.reg .QU_CMD_ARG0 0) (s.reg .QU_CMD_ARG1 0) (s.reg .QU_CMD_ARG2 0) (s.reg .QU_CMD_ARG3 0)
        (s.reg .QU_CMD_ARG4 0))
  | .PT_CMD => s.writeCmd via r i w v F.PT_CMD.OP (fun op s => s.ptGo i op)
  | .IS_CMD => s.writeCmd via r i w v F.IS_CMD.OP (fun op s => s.isGo op)
  | .DC_TRN_CTL => s.trainGo via i w v
  | .DC_PPR_CMD => s.pprGo via i w v
  | .XT_CMD => s.writeCmd via r i w v F.XT_CMD.OP (fun op s => s.xtRun via op (s.reg .XT_CMD_ARG0 0))
  | r => s.writePlain via r i w v

/-- A write to an offset that holds no register: ignored, and flagged where it is not zero (15 R400). The event log window is
read-only. -/
def State.writeReserved (s : State) (via : Via) (off : Nat) (w : AccW) (v : Word) : State :=
  match s.checkPath via off true with
  | .drop s => s
  | .serve s =>
    if (decide (0x320000 ≤ off) && decide (off < 0x340000)) || accValue w v &&& accMask w = 0#64 then s
    else s.flagAccess via off true F.GB_ACCESS_STATUS.RSV_WRITE

/-- The access is aligned: 64 bits and the low half at a multiple of 8, the high half there or 4 bytes up (00 R8; 15 R402). -/
def accAligned (off : Nat) (w : AccW) : Bool := off % 8 == 0 || (w == .hi && off % 8 == 4)

/-- An access of a bad size or alignment: no effect but the flag; a read returns zeros (00 R8; 15 R405). -/
def State.badAccess (s : State) (via : Via) (off : Nat) (write : Bool) : State :=
  match s.checkPath via off write with
  | .drop s => if write then s else s.emit (.mmio via off 0#64)
  | .serve s =>
    let s := s.flagAccess via off write F.GB_ACCESS_STATUS.BAD_SIZE
    if write then s else s.emit (.mmio via off 0#64)

/-- REGISTER_WRITE (00 R8, R9; 15 R399, R400): a write of 64 bits, or of one half, at a byte offset. -/
def execRegisterWrite (via : Via) (off : Nat) (w : AccW) (v : Word) (at_ : Nat) (s : State) :
    Host.Outcome State Fault Refusal :=
  let s := s.tick at_
  let base := off / 8 * 8
  .next (if !accAligned off w then s.badAccess via off true
    else if 0x2000000 ≤ base then s.writeDoorbell via ((base - 0x2000000) / 8) w v
    else match regAt base with
      | some (r, i) => s.writeReg via r i w v
      | none => s.writeReserved via (base + (match w with | .hi => 4 | _ => 0)) w v)

/-- BAD_SIZE_ACCESS (00 R8; 15 R405). -/
def execBadSizeAccess (via : Via) (off : Nat) (write : Bool) (s : State) : Host.Outcome State Fault Refusal :=
  .next (s.badAccess via off write)

end Sys2Proof.Machine
end

