-- ==== Sys2Proof/Machine/Dispatch.lean ====
section
/-! DEFINITION. What each command does to the device: one arm per command, one meaning per arm. -/

namespace Sys2Proof.Machine

open Sys2Proof

def exec (i : Instr) (s : State) : Host.Outcome State Fault Refusal :=
  match i with
  | .registerWrite a0 a1 a2 a3 a4 => Sys2Proof.Machine.execRegisterWrite a0 a1 a2 a3 a4 s
  | .badSizeAccess a0 a1 a2 => Sys2Proof.Machine.execBadSizeAccess a0 a1 a2 s
  | .memRd a0 a1 a2 a3 a4 => Sys2Proof.Machine.execMemRd a0 a1 a2 a3 a4 s
  | .memWr a0 a1 a2 a3 a4 a5 a6 => Sys2Proof.Machine.execMemWr a0 a1 a2 a3 a4 a5 a6 s
  | .boltCacheMissFill a0 a1 => Sys2Proof.Machine.execBoltCacheMissFill a0 a1 s
  | .heldRequestRetry a0 a1 => Sys2Proof.Machine.execHeldRequestRetry a0 a1 s
  | .holdExpiry a0 a1 => Sys2Proof.Machine.execHoldExpiry a0 a1 s
  | .routeDrainDone a0 a1 => Sys2Proof.Machine.execRouteDrainDone a0 a1 s
  | .bind a0 a1 a2 a3 a4 => Sys2Proof.Machine.execBind a0 a1 a2 a3 a4 s
  | .unbind a0 a1 a2 => Sys2Proof.Machine.execUnbind a0 a1 a2 s
  | .modify a0 a1 a2 a3 a4 => Sys2Proof.Machine.execModify a0 a1 a2 a3 a4 s
  | .blReadEntry a0 a1 a2 => Sys2Proof.Machine.execBlReadEntry a0 a1 a2 s
  | .tenantCreate a0 a1 => Sys2Proof.Machine.execTenantCreate a0 a1 s
  | .tenantDelete a0 a1 a2 => Sys2Proof.Machine.execTenantDelete a0 a1 a2 s
  | .ldAttach a0 a1 a2 => Sys2Proof.Machine.execLdAttach a0 a1 a2 s
  | .blCmdTimeout a0 => Sys2Proof.Machine.execBlCmdTimeout a0 s
  | .dirtySpanWriteDone a0 a1 a2 a3 => Sys2Proof.Machine.execDirtySpanWriteDone a0 a1 a2 a3 s
  | .dirtySpanRetry a0 a1 a2 a3 => Sys2Proof.Machine.execDirtySpanRetry a0 a1 a2 a3 s
  | .dirtySpanClear a0 a1 => Sys2Proof.Machine.execDirtySpanClear a0 a1 s
  | .destageAgeExpiry a0 a1 => Sys2Proof.Machine.execDestageAgeExpiry a0 a1 s
  | .destageFrameDone a0 a1 a2 a3 a4 => Sys2Proof.Machine.execDestageFrameDone a0 a1 a2 a3 a4 s
  | .rmwReadDone a0 a1 a2 => Sys2Proof.Machine.execRmwReadDone a0 a1 a2 s
  | .mergeEntryClose a0 a1 a2 a3 a4 => Sys2Proof.Machine.execMergeEntryClose a0 a1 a2 a3 a4 s
  | .gpfPhase1 a0 a1 => Sys2Proof.Machine.execGpfPhase1 a0 a1 s
  | .gpfPhase2 a0 a1 => Sys2Proof.Machine.execGpfPhase2 a0 a1 s
  | .pwDirtyBudgetWrite a0 a1 a2 a3 => Sys2Proof.Machine.execPwDirtyBudgetWrite a0 a1 a2 a3 s
  | .pwEnergyDeclWrite a0 a1 a2 a3 => Sys2Proof.Machine.execPwEnergyDeclWrite a0 a1 a2 a3 s
  | .pwPoisonCountRead a0 a1 => Sys2Proof.Machine.execPwPoisonCountRead a0 a1 s
  | .heartbeatTimer a0 => Sys2Proof.Machine.execHeartbeatTimer a0 s
  | .plumbSendTimer a0 => Sys2Proof.Machine.execPlumbSendTimer a0 s
  | .plumbFrameRx a0 a1 => Sys2Proof.Machine.execPlumbFrameRx a0 a1 s
  | .heartbeat a0 a1 a2 => Sys2Proof.Machine.execHeartbeat a0 a1 a2 s
  | .yield a0 a1 a2 => Sys2Proof.Machine.execYield a0 a1 a2 s
  | .missDeadline a0 a1 => Sys2Proof.Machine.execMissDeadline a0 a1 s
  | .leaseLapse a0 => Sys2Proof.Machine.execLeaseLapse a0 s
  | .watchdogExpiry a0 => Sys2Proof.Machine.execWatchdogExpiry a0 s
  | .carrierLoss a0 => Sys2Proof.Machine.execCarrierLoss a0 s
  | .carrierPresent a0 => Sys2Proof.Machine.execCarrierPresent a0 s
  | .tFreeReached a0 => Sys2Proof.Machine.execTFreeReached a0 s
  | .selfDiagnosisFail a0 => Sys2Proof.Machine.execSelfDiagnosisFail a0 s
  | .takeoverRecordWritten a0 => Sys2Proof.Machine.execTakeoverRecordWritten a0 s
  | .rotateSlotTimer a0 => Sys2Proof.Machine.execRotateSlotTimer a0 s
  | .handoverDrainDone a0 => Sys2Proof.Machine.execHandoverDrainDone a0 s
  | .rotateWaitTimeout a0 => Sys2Proof.Machine.execRotateWaitTimeout a0 s
  | .handoverTimeout a0 => Sys2Proof.Machine.execHandoverTimeout a0 s
  | .twCmdYield a0 a1 => Sys2Proof.Machine.execTwCmdYield a0 a1 s
  | .declareLost a0 a1 => Sys2Proof.Machine.execDeclareLost a0 a1 s
  | .rotateNow a0 a1 => Sys2Proof.Machine.execRotateNow a0 a1 s
  | .fullRejoin a0 a1 => Sys2Proof.Machine.execFullRejoin a0 a1 s
  | .twMissStatRead a0 a1 => Sys2Proof.Machine.execTwMissStatRead a0 a1 s
  | .decayTimer a0 => Sys2Proof.Machine.execDecayTimer a0 s
  | .migrationCopyDone a0 a1 => Sys2Proof.Machine.execMigrationCopyDone a0 a1 s
  | .quotaWrite a0 a1 a2 a3 a4 => Sys2Proof.Machine.execQuotaWrite a0 a1 a2 a3 a4 s
  | .floatGapMove a0 a1 => Sys2Proof.Machine.execFloatGapMove a0 a1 s
  | .floatSwapCheck a0 => Sys2Proof.Machine.execFloatSwapCheck a0 s
  | .stMigCountRead a0 a1 => Sys2Proof.Machine.execStMigCountRead a0 a1 s
  | .crownFillDone a0 a1 a2 => Sys2Proof.Machine.execCrownFillDone a0 a1 a2 s
  | .wayOffReq a0 a1 a2 => Sys2Proof.Machine.execWayOffReq a0 a1 a2 s
  | .wayOnReq a0 a1 a2 => Sys2Proof.Machine.execWayOnReq a0 a1 a2 s
  | .wayCleanDone a0 a1 => Sys2Proof.Machine.execWayCleanDone a0 a1 s
  | .wayPowerUpDone a0 a1 => Sys2Proof.Machine.execWayPowerUpDone a0 a1 s
  | .crLfsrSeedWrite a0 a1 a2 a3 => Sys2Proof.Machine.execCrLfsrSeedWrite a0 a1 a2 a3 s
  | .crSliceStatRead a0 a1 => Sys2Proof.Machine.execCrSliceStatRead a0 a1 s
  | .crHitStatRead a0 a1 => Sys2Proof.Machine.execCrHitStatRead a0 a1 s
  | .crErrStatRead a0 a1 => Sys2Proof.Machine.execCrErrStatRead a0 a1 s
  | .csStep a0 a1 a2 a3 a4 a5 => Sys2Proof.Machine.execCsStep a0 a1 a2 a3 a4 a5 s
  | .caStep a0 a1 a2 a3 a4 a5 => Sys2Proof.Machine.execCaStep a0 a1 a2 a3 a4 a5 s
  | .dqReadStep a0 a1 a2 a3 a4 a5 => Sys2Proof.Machine.execDqReadStep a0 a1 a2 a3 a4 a5 s
  | .dqWriteStep a0 a1 a2 a3 a4 a5 => Sys2Proof.Machine.execDqWriteStep a0 a1 a2 a3 a4 a5 s
  | .requestAgeExpiry a0 a1 a2 => Sys2Proof.Machine.execRequestAgeExpiry a0 a1 a2 s
  | .retrainPause a0 a1 a2 a3 a4 a5 => Sys2Proof.Machine.execRetrainPause a0 a1 a2 a3 a4 a5 s
  | .refreshRatePoll a0 a1 a2 => Sys2Proof.Machine.execRefreshRatePoll a0 a1 a2 s
  | .refreshDue a0 a1 a2 => Sys2Proof.Machine.execRefreshDue a0 a1 a2 s
  | .pprRepairDone a0 a1 a2 a3 => Sys2Proof.Machine.execPprRepairDone a0 a1 a2 a3 s
  | .softPpr a0 a1 a2 a3 a4 => Sys2Proof.Machine.execSoftPpr a0 a1 a2 a3 a4 s
  | .hardPpr a0 a1 a2 a3 a4 => Sys2Proof.Machine.execHardPpr a0 a1 a2 a3 a4 s
  | .trowelReadDone a0 a1 => Sys2Proof.Machine.execTrowelReadDone a0 a1 s
  | .trowelPeriodEnd a0 a1 => Sys2Proof.Machine.execTrowelPeriodEnd a0 a1 s
  | .dcErrStatRead a0 a1 a2 => Sys2Proof.Machine.execDcErrStatRead a0 a1 a2 s
  | .flashReadDone a0 a1 a2 a3 a4 => Sys2Proof.Machine.execFlashReadDone a0 a1 a2 a3 a4 s
  | .flashProgramDone a0 a1 a2 a3 a4 => Sys2Proof.Machine.execFlashProgramDone a0 a1 a2 a3 a4 s
  | .mapCommitDone a0 a1 => Sys2Proof.Machine.execMapCommitDone a0 a1 s
  | .fineIdleExpiry a0 a1 => Sys2Proof.Machine.execFineIdleExpiry a0 a1 s
  | .checkpointTrigger a0 => Sys2Proof.Machine.execCheckpointTrigger a0 s
  | .checkpointDone a0 => Sys2Proof.Machine.execCheckpointDone a0 s
  | .fullingWindow a0 => Sys2Proof.Machine.execFullingWindow a0 s
  | .eraseDone a0 a1 a2 => Sys2Proof.Machine.execEraseDone a0 a1 a2 s
  | .tempSample a0 a1 a2 => Sys2Proof.Machine.execTempSample a0 a1 a2 s
  | .flFullCtlWrite a0 a1 a2 a3 => Sys2Proof.Machine.execFlFullCtlWrite a0 a1 a2 a3 s
  | .flErrStatRead a0 a1 a2 => Sys2Proof.Machine.execFlErrStatRead a0 a1 a2 s
  | .skimJournalWriteDone a0 a1 a2 a3 => Sys2Proof.Machine.execSkimJournalWriteDone a0 a1 a2 a3 s
  | .stripeWriteDone a0 a1 a2 => Sys2Proof.Machine.execStripeWriteDone a0 a1 a2 s
  | .stripeAllowanceWindow a0 a1 => Sys2Proof.Machine.execStripeAllowanceWindow a0 a1 s
  | .rebuildUnitDone a0 a1 a2 a3 => Sys2Proof.Machine.execRebuildUnitDone a0 a1 a2 a3 s
  | .reshapeStart a0 a1 => Sys2Proof.Machine.execReshapeStart a0 a1 s
  | .reshapePause a0 a1 => Sys2Proof.Machine.execReshapePause a0 a1 s
  | .reshapeResume a0 a1 => Sys2Proof.Machine.execReshapeResume a0 a1 s
  | .reshapeSpanDone a0 a1 a2 a3 => Sys2Proof.Machine.execReshapeSpanDone a0 a1 a2 a3 s
  | .stParityStatRead a0 a1 => Sys2Proof.Machine.execStParityStatRead a0 a1 s
  | .doorbellWrite a0 a1 a2 a3 a4 => Sys2Proof.Machine.execDoorbellWrite a0 a1 a2 a3 a4 s
  | .descriptorFetch a0 => Sys2Proof.Machine.execDescriptorFetch a0 s
  | .copy a0 a1 a2 => Sys2Proof.Machine.execCopy a0 a1 a2 s
  | .fill a0 a1 a2 => Sys2Proof.Machine.execFill a0 a1 a2 s
  | .flush a0 a1 a2 => Sys2Proof.Machine.execFlush a0 a1 a2 s
  | .fence a0 a1 a2 => Sys2Proof.Machine.execFence a0 a1 a2 s
  | .migrate a0 a1 a2 => Sys2Proof.Machine.execMigrate a0 a1 a2 s
  | .pin a0 a1 a2 => Sys2Proof.Machine.execPin a0 a1 a2 s
  | .unpin a0 a1 a2 => Sys2Proof.Machine.execUnpin a0 a1 a2 s
  | .discard a0 a1 a2 => Sys2Proof.Machine.execDiscard a0 a1 a2 s
  | .tileFetch a0 a1 a2 => Sys2Proof.Machine.execTileFetch a0 a1 a2 s
  | .capture a0 a1 a2 => Sys2Proof.Machine.execCapture a0 a1 a2 s
  | .run a0 a1 a2 => Sys2Proof.Machine.execRun a0 a1 a2 s
  | .verify a0 a1 a2 => Sys2Proof.Machine.execVerify a0 a1 a2 s
  | .descriptorDone a0 a1 a2 => Sys2Proof.Machine.execDescriptorDone a0 a1 a2 s
  | .irqCoalesceTimer a0 a1 => Sys2Proof.Machine.execIrqCoalesceTimer a0 a1 s
  | .contextLoadDone a0 a1 => Sys2Proof.Machine.execContextLoadDone a0 a1 s
  | .captureWindowEnd a0 a1 => Sys2Proof.Machine.execCaptureWindowEnd a0 a1 s
  | .windowEndDone a0 a1 => Sys2Proof.Machine.execWindowEndDone a0 a1 s
  | .create a0 a1 a2 a3 a4 a5 a6 => Sys2Proof.Machine.execCreate a0 a1 a2 a3 a4 a5 a6 s
  | .delete a0 a1 a2 => Sys2Proof.Machine.execDelete a0 a1 a2 s
  | .quStart a0 a1 a2 => Sys2Proof.Machine.execQuStart a0 a1 a2 s
  | .quStop a0 a1 a2 => Sys2Proof.Machine.execQuStop a0 a1 a2 s
  | .quStopTimeout a0 => Sys2Proof.Machine.execQuStopTimeout a0 s
  | .quReset a0 a1 a2 => Sys2Proof.Machine.execQuReset a0 a1 a2 s
  | .quReadEntry a0 a1 a2 => Sys2Proof.Machine.execQuReadEntry a0 a1 a2 s
  | .quCtxStatRead a0 a1 => Sys2Proof.Machine.execQuCtxStatRead a0 a1 s
  | .quCapStatRead a0 a1 => Sys2Proof.Machine.execQuCapStatRead a0 a1 s
  | .jobStart a0 a1 a2 a3 => Sys2Proof.Machine.execJobStart a0 a1 a2 a3 s
  | .tileResident a0 a1 a2 a3 => Sys2Proof.Machine.execTileResident a0 a1 a2 a3 s
  | .layerStart a0 a1 => Sys2Proof.Machine.execLayerStart a0 a1 s
  | .layerEnd a0 a1 a2 => Sys2Proof.Machine.execLayerEnd a0 a1 a2 s
  | .layerComplete a0 a1 => Sys2Proof.Machine.execLayerComplete a0 a1 s
  | .fenceDeadline a0 a1 => Sys2Proof.Machine.execFenceDeadline a0 a1 s
  | .kernelCycleLimit a0 a1 => Sys2Proof.Machine.execKernelCycleLimit a0 a1 s
  | .userKernelFault a0 a1 a2 a3 => Sys2Proof.Machine.execUserKernelFault a0 a1 a2 a3 s
  | .engineHwFault a0 a1 a2 => Sys2Proof.Machine.execEngineHwFault a0 a1 a2 s
  | .enCountRead a0 a1 a2 => Sys2Proof.Machine.execEnCountRead a0 a1 a2 s
  | .linkTrained a0 a1 a2 => Sys2Proof.Machine.execLinkTrained a0 a1 a2 s
  | .trainRetry a0 a1 a2 => Sys2Proof.Machine.execTrainRetry a0 a1 a2 s
  | .linkError a0 a1 a2 => Sys2Proof.Machine.execLinkError a0 a1 a2 s
  | .linkDown a0 a1 => Sys2Proof.Machine.execLinkDown a0 a1 s
  | .linkHello a0 a1 a2 => Sys2Proof.Machine.execLinkHello a0 a1 a2 s
  | .linkHelloTimer a0 a1 => Sys2Proof.Machine.execLinkHelloTimer a0 a1 s
  | .hdmCommit a0 a1 a2 a3 => Sys2Proof.Machine.execHdmCommit a0 a1 a2 a3 s
  | .hotReset a0 a1 => Sys2Proof.Machine.execHotReset a0 a1 s
  | .functionLevelReset a0 a1 a2 => Sys2Proof.Machine.execFunctionLevelReset a0 a1 a2 s
  | .identifyMemoryDevice a0 a1 => Sys2Proof.Machine.execIdentifyMemoryDevice a0 a1 s
  | .getSupportedLogs a0 a1 => Sys2Proof.Machine.execGetSupportedLogs a0 a1 s
  | .getLog a0 a1 a2 a3 a4 => Sys2Proof.Machine.execGetLog a0 a1 a2 a3 a4 s
  | .getEventRecords a0 a1 a2 => Sys2Proof.Machine.execGetEventRecords a0 a1 a2 s
  | .clearEventRecords a0 a1 a2 a3 => Sys2Proof.Machine.execClearEventRecords a0 a1 a2 a3 s
  | .getHealthInfo a0 a1 => Sys2Proof.Machine.execGetHealthInfo a0 a1 s
  | .getPoisonList a0 a1 a2 => Sys2Proof.Machine.execGetPoisonList a0 a1 a2 s
  | .getLsa a0 a1 a2 a3 => Sys2Proof.Machine.execGetLsa a0 a1 a2 a3 s
  | .setLsa a0 a1 a2 a3 => Sys2Proof.Machine.execSetLsa a0 a1 a2 a3 s
  | .getTimestamp a0 a1 a2 => Sys2Proof.Machine.execGetTimestamp a0 a1 a2 s
  | .setTimestamp a0 a1 a2 a3 => Sys2Proof.Machine.execSetTimestamp a0 a1 a2 a3 s
  | .getLdInfo a0 => Sys2Proof.Machine.execGetLdInfo a0 s
  | .getLdAllocations a0 => Sys2Proof.Machine.execGetLdAllocations a0 s
  | .setLdAllocations a0 => Sys2Proof.Machine.execSetLdAllocations a0 s
  | .unsupportedMailboxCommand a0 a1 a2 => Sys2Proof.Machine.execUnsupportedMailboxCommand a0 a1 a2 s
  | .moduleHotAdd a0 a1 a2 => Sys2Proof.Machine.execModuleHotAdd a0 a1 a2 s
  | .moduleRequestTimeout a0 a1 a2 a3 => Sys2Proof.Machine.execModuleRequestTimeout a0 a1 a2 a3 s
  | .timeSync a0 a1 a2 a3 a4 a5 => Sys2Proof.Machine.execTimeSync a0 a1 a2 a3 a4 a5 s
  | .timeSyncTimer a0 => Sys2Proof.Machine.execTimeSyncTimer a0 s
  | .bayState a0 a1 a2 => Sys2Proof.Machine.execBayState a0 a1 a2 s
  | .mirrorWr a0 a1 a2 a3 => Sys2Proof.Machine.execMirrorWr a0 a1 a2 a3 s
  | .mirrorAck a0 a1 => Sys2Proof.Machine.execMirrorAck a0 a1 s
  | .fwdRd a0 a1 a2 => Sys2Proof.Machine.execFwdRd a0 a1 a2 s
  | .fwdWr a0 a1 a2 a3 => Sys2Proof.Machine.execFwdWr a0 a1 a2 a3 s
  | .fwdData a0 a1 a2 a3 => Sys2Proof.Machine.execFwdData a0 a1 a2 a3 s
  | .fwdCmp a0 a1 => Sys2Proof.Machine.execFwdCmp a0 a1 s
  | .ctrlReq a0 a1 a2 => Sys2Proof.Machine.execCtrlReq a0 a1 a2 s
  | .ctrlCmp a0 a1 a2 => Sys2Proof.Machine.execCtrlCmp a0 a1 a2 s
  | .repairRd a0 a1 a2 => Sys2Proof.Machine.execRepairRd a0 a1 a2 s
  | .repairData a0 a1 a2 a3 => Sys2Proof.Machine.execRepairData a0 a1 a2 a3 s
  | .boltUpdate a0 a1 a2 => Sys2Proof.Machine.execBoltUpdate a0 a1 a2 s
  | .boltFetch a0 => Sys2Proof.Machine.execBoltFetch a0 s
  | .quotaSet a0 a1 a2 a3 a4 => Sys2Proof.Machine.execQuotaSet a0 a1 a2 a3 a4 s
  | .handover a0 a1 a2 => Sys2Proof.Machine.execHandover a0 a1 a2 s
  | .handoverAck a0 a1 a2 => Sys2Proof.Machine.execHandoverAck a0 a1 a2 s
  | .handoverReq a0 a1 a2 => Sys2Proof.Machine.execHandoverReq a0 a1 a2 s
  | .rejoinCopy a0 a1 a2 a3 a4 => Sys2Proof.Machine.execRejoinCopy a0 a1 a2 a3 a4 s
  | .rejoinAck a0 a1 => Sys2Proof.Machine.execRejoinAck a0 a1 s
  | .mapXfer a0 a1 a2 a3 => Sys2Proof.Machine.execMapXfer a0 a1 a2 a3 s
  | .unknownMessage a0 a1 => Sys2Proof.Machine.execUnknownMessage a0 a1 s
  | .hopExpiry a0 a1 => Sys2Proof.Machine.execHopExpiry a0 a1 s
  | .retrain a0 a1 a2 => Sys2Proof.Machine.execRetrain a0 a1 a2 s
  | .prepareRemove a0 a1 a2 => Sys2Proof.Machine.execPrepareRemove a0 a1 a2 s
  | .rescan a0 a1 a2 a3 a4 => Sys2Proof.Machine.execRescan a0 a1 a2 a3 a4 s
  | .ptErrStatRead a0 a1 a2 => Sys2Proof.Machine.execPtErrStatRead a0 a1 a2 s
  | .ptTrafficRead a0 a1 a2 => Sys2Proof.Machine.execPtTrafficRead a0 a1 a2 s
  | .imageLoad a0 a1 a2 a3 a4 => Sys2Proof.Machine.execImageLoad a0 a1 a2 a3 a4 s
  | .imageErase a0 a1 a2 => Sys2Proof.Machine.execImageErase a0 a1 a2 s
  | .change a0 a1 a2 a3 => Sys2Proof.Machine.execChange a0 a1 a2 a3 s
  | .isRestart a0 a1 a2 => Sys2Proof.Machine.execIsRestart a0 a1 a2 s
  | .svnRaise a0 a1 => Sys2Proof.Machine.execSvnRaise a0 a1 s
  | .functionRestartDone a0 a1 => Sys2Proof.Machine.execFunctionRestartDone a0 a1 s
  | .isBootWrite a0 a1 a2 a3 => Sys2Proof.Machine.execIsBootWrite a0 a1 a2 a3 s
  | .pllLockLoss a0 a1 => Sys2Proof.Machine.execPllLockLoss a0 a1 s
  | .keyLoad a0 a1 a2 => Sys2Proof.Machine.execKeyLoad a0 a1 a2 s
  | .keyDelete a0 a1 a2 => Sys2Proof.Machine.execKeyDelete a0 a1 a2 s
  | .keyFind a0 a1 a2 => Sys2Proof.Machine.execKeyFind a0 a1 a2 s
  | .cipherParityFault a0 a1 a2 a3 a4 a5 a6 => Sys2Proof.Machine.execCipherParityFault a0 a1 a2 a3 a4 a5 a6 s
  | .cipherWriteRetry a0 a1 => Sys2Proof.Machine.execCipherWriteRetry a0 a1 s
  | .xtCountRead a0 a1 => Sys2Proof.Machine.execXtCountRead a0 a1 s
  | .psyncRise a0 => Sys2Proof.Machine.execPsyncRise a0 s
  | .stateWorkDone a0 a1 => Sys2Proof.Machine.execStateWorkDone a0 a1 s
  | .turn a0 => Sys2Proof.Machine.execTurn a0 s
  | .loop a0 => Sys2Proof.Machine.execLoop a0 s
  | .psyncReset a0 => Sys2Proof.Machine.execPsyncReset a0 s
  | .stateBoundExpiry a0 => Sys2Proof.Machine.execStateBoundExpiry a0 s
  | .railSample a0 a1 a2 a3 a4 => Sys2Proof.Machine.execRailSample a0 a1 a2 a3 a4 s
  | .throttleEnd a0 => Sys2Proof.Machine.execThrottleEnd a0 s
  | .pfWarnChange a0 a1 => Sys2Proof.Machine.execPfWarnChange a0 a1 s
  | .pfFailChange a0 a1 => Sys2Proof.Machine.execPfFailChange a0 a1 s
  | .supplyGood a0 => Sys2Proof.Machine.execSupplyGood a0 s
  | .pwrReqChange a0 a1 => Sys2Proof.Machine.execPwrReqChange a0 a1 s
  | .energyStorePoll a0 a1 => Sys2Proof.Machine.execEnergyStorePoll a0 a1 s
  | .sysclkLoss a0 => Sys2Proof.Machine.execSysclkLoss a0 s
  | .eventCoalesceTimer a0 a1 => Sys2Proof.Machine.execEventCoalesceTimer a0 a1 s
  | .bbEvPtrWrite a0 a1 a2 a3 => Sys2Proof.Machine.execBbEvPtrWrite a0 a1 a2 a3 s
  | .bbEvStatRead a0 a1 => Sys2Proof.Machine.execBbEvStatRead a0 a1 s
  | .bbAonDataRead a0 a1 => Sys2Proof.Machine.execBbAonDataRead a0 a1 s
  | .healthSummaryTimer a0 => Sys2Proof.Machine.execHealthSummaryTimer a0 s
  | .tmDtRead a0 a1 a2 => Sys2Proof.Machine.execTmDtRead a0 a1 a2 s
  | .tmCaptureRead a0 a1 a2 => Sys2Proof.Machine.execTmCaptureRead a0 a1 a2 s
  | .gpioEdge a0 a1 a2 => Sys2Proof.Machine.execGpioEdge a0 a1 a2 s
  | .bypass => Sys2Proof.Machine.execBypass s
  | .idcode => Sys2Proof.Machine.execIdcode s
  | .samplePreload a0 a1 => Sys2Proof.Machine.execSamplePreload a0 a1 s
  | .extest a0 a1 => Sys2Proof.Machine.execExtest a0 a1 s
  | .clamp => Sys2Proof.Machine.execClamp s
  | .highz => Sys2Proof.Machine.execHighz s
  | .extestPulse a0 => Sys2Proof.Machine.execExtestPulse a0 s
  | .extestTrain a0 => Sys2Proof.Machine.execExtestTrain a0 s
  | .envmRead a0 a1 a2 => Sys2Proof.Machine.execEnvmRead a0 a1 a2 s
  | .envmReadDone a0 => Sys2Proof.Machine.execEnvmReadDone a0 s
  | .otpKeyhash a0 a1 => Sys2Proof.Machine.execOtpKeyhash a0 a1 s
  | .blCacheStatRead a0 a1 => Sys2Proof.Machine.execBlCacheStatRead a0 a1 s
  | .sysclkReturn a0 => Sys2Proof.Machine.execSysclkReturn a0 s
  | .aonReset a0 a1 => Sys2Proof.Machine.execAonReset a0 a1 s
  | .mgmtLinkDown a0 => Sys2Proof.Machine.execMgmtLinkDown a0 s
  | .mgmtLinkTrained a0 a1 => Sys2Proof.Machine.execMgmtLinkTrained a0 a1 s
  | .zqCalibrationTimer a0 => Sys2Proof.Machine.execZqCalibrationTimer a0 s
  | .mirrorWrResend a0 a1 => Sys2Proof.Machine.execMirrorWrResend a0 a1 s
  | .creditReturn a0 a1 a2 a3 => Sys2Proof.Machine.execCreditReturn a0 a1 a2 a3 s
  | .envmRecordWritten a0 a1 => Sys2Proof.Machine.execEnvmRecordWritten a0 a1 s

end Sys2Proof.Machine
end

