-- ==== Sys2Proof/Machine/Step.lean ====
section
/-! DEFINITION. One step: the command at the front of the queue, or one tick of device time when the
queue is empty (log entry 8). -/

namespace Sys2Proof.Machine

open Sys2Proof

/-- Take the command at the front of the queue and run it on the state with the queue's rest. On an
empty queue device time advances by 1 ns and nothing else happens (DESIGN CHOICE, log entry 8). -/
def step (s : State) : Host.Outcome State Fault Refusal :=
  match s.pending with
  | [] => .next (idle s)
  | c :: rest => exec c { s with pending := rest }

/-- The state with the command that the word `w` of `nbits` bits spells at the front of its queue;
unchanged where the word spells none, which is every word (Sys2Proof/Decode.lean). -/
def State.withFetchWord (s : State) (nbits w : Nat) : State :=
  match decodeTableWord nbits w with
  | some c => { s with pending := c :: s.pending }
  | none => s

end Sys2Proof.Machine
end

