-- ==== Sys2Proof/Machine/Views.lean ====
section
/-! DEFINITION. The value that software reads from each register (00 R7; 15 R399, R400): most registers are stored as they read;
those below show state that has another home. No command of the table reads a register without a step of its own, so no meaning
uses these views: they say what State means to software. -/

namespace Sys2Proof.Machine

open Sys2Proof

/-! The twin relation (03 Tables 3.10 to 3.17). -/

/-- TW_HB_SEQ (03 Table 3.12). -/
def State.hbSeq (s : State) : Word :=
  word (s.get F.TW_HB_SEQ.TX_SEQ
    + (match s.twin.peer with | some f => f.seq.toNat | none => 0) * 2 ^ 32)

/-- TW_ROTATE_STAT (03 Table 3.15). -/
def State.rotateStat (s : State) : Word :=
  word (s.twin.slot % 256 + min (2 ^ 32 - 1) s.twin.moved * 2 ^ 8 + min 0xFFFF (s.twin.maxHold / 1000) * 2 ^ 40
    + bit s.twin.cycle * 2 ^ 56)

/-- TW_REJOIN_STAT (03 Table 3.17). -/
def State.rejoinStat (s : State) : Word :=
  word (s.twin.copyList.length % 2 ^ 40 + s.twin.rejoinRole % 4 * 2 ^ 40 + bit s.twin.full * 2 ^ 42)

/-! Tiers (04 Tables 4.8 to 4.14). -/

/-- ST_TIER_STAT (04 Table 4.8). -/
def State.tierStat (s : State) : Word :=
  word (pctOf s.freeP s.tier.pFrames + pctOf s.freeF s.tier.fFrames * 2 ^ 8 + bit s.tier.demoting * 2 ^ 15
    + min 0xFFFF (s.tier.spans.filter (fun x => x.2.move.isSome)).length * 2 ^ 16)

/-- The tenant that ST_QUOTA_SEL selects. -/
def State.quotaTenant (s : State) : Nat := s.get F.ST_QUOTA_SEL.TENANT

/-- ST_USE_D, ST_USE_P and ST_USE_F (04 Table 4.13, R140). -/
def State.useStat (s : State) (tier : Nat) : Word :=
  let t := s.quotaTenant
  match tier with
  | 0 => word (s.useD t % 2 ^ 40 + s.pinnedSpans .d t * 2 ^ 40)
  | 1 => word (s.useIn .p t % 2 ^ 40 + s.pinnedSpans .p t * 2 ^ 40)
  | _ => word (s.useIn .f t % 2 ^ 40)

/-- The bound of 04 R145 on a module's cells. -/
def State.wearBound (s : State) (m : Nat) (x : Member) : Nat :=
  SMap.findD s.tier.modWrites m 0 / max 1 (frameSlots x.cap) + 100000

/-- That bound in ‰ of RATED. -/
def State.wearPermille (s : State) (m : Nat) (x : Member) : Nat :=
  if x.rated = 0 then 0 else min 1023 (s.wearBound m x * 1000 / x.rated)

/-- The module of ST_FLOAT_STAT.WORST_MODULE: the lowest of those with the highest bound relative to RATED. -/
def State.worstModule (s : State) : Nat :=
  ((s.stripe.members.filter (fun x => decide (x.1 < 32) && x.2.rated != 0)).foldl (fun (a : Option (Nat × Nat × Nat)) x =>
    let b := s.wearBound x.1 x.2
    match a with
    | some (_, c, r) => if c * x.2.rated < b * r then some (x.1, b, x.2.rated) else a
    | none => some (x.1, b, x.2.rated)) none).elim 0 Prod.fst

/-- ST_FLOAT_STAT (04 Table 4.14). -/
def State.floatStat (s : State) : Word :=
  word (bit (decide (s.get F.ST_FLOAT_CTL.PSI ≤ 0x10 ∧ s.get F.ST_FLOAT_CTL.THRESH_LOG2 ≤ 0x1A))
    + s.worstModule % 32 * 2 + s.worstPermille * 2 ^ 6 + s.get F.ST_FLOAT_STAT.SWAPS * 2 ^ 16)

/-! Stripes (08 Tables 8.9 to 8.13). -/

/-- The member that ST_MEMBER_SEL selects: module or channel. -/
def State.memberSel (s : State) : Nat := s.get F.ST_MEMBER_SEL.MEMBER + s.get F.ST_MEMBER_SEL.TIER * 32

/-- STATE of a member (08 Table 8.10). -/
def memberCode (m : MemberSt) : Nat :=
  match m with | .absent => 0 | .inService => 1 | .unavailable => 2 | .lost => 3 | .rebuilding => 4 | .copyBack => 5

/-- ST_MEMBER_STAT (08 Table 8.10). -/
def State.memberStat (s : State) : Word :=
  match SMap.find s.stripe.members s.memberSel with
  | none => 0#64
  | some x =>
    let busy := x.st == .rebuilding || x.st == .copyBack
    word (memberCode x.st + (if s.memberSel < 32 then x.group % 8 * 8 + x.pos % 32 * 64 else 0)
      + (if busy then x.rowsLeft % 2 ^ 40 * 2 ^ 11 + pctOf (x.rowsTotal - x.rowsLeft) x.rowsTotal * 2 ^ 51 else 0))

/-- ST_REBUILD_STAT (08 Table 8.11). -/
def State.rebuildStat (s : State) : Word :=
  word (s.get F.ST_REBUILD_STAT.SHARE_PCT
    + bit (s.stripe.members.any (fun x => x.2.st == .rebuilding || x.2.st == .copyBack)) * 2 ^ 7
    + s.get F.ST_REBUILD_STAT.ROWS_DONE * 2 ^ 8)

/-- ST_RESYNC_STAT (08 R248, Table 8.12). -/
def State.resyncStat (s : State) : Word :=
  word (s.stripe.resyncKind % 4 + bit s.stripe.resyncFull * 4 + min 0xFFFF s.stripe.partialRows * 2 ^ 16
    + (if s.stripe.resyncKind = 2 then min 100 (pctOf s.stripe.resyncAt s.groupRows) else 0) * 2 ^ 32
    + min 0xFFFF s.stripe.suspect.length * 2 ^ 39)

/-- ST_SKIM_STAT: the journal of the selected member's group (08 Table 8.12). -/
def State.skimStat (s : State) : Word :=
  let g := match SMap.find s.stripe.members s.memberSel with | some x => x.group | none => 0
  let k := SMap.findD s.stripe.skim g {}
  word (k.epoch % 2 ^ 32 + k.a % 32 * 2 ^ 32 + k.b % 32 * 2 ^ 37 + k.slot % 4096 * 2 ^ 42
    + min 1023 k.inFlight.length * 2 ^ 54)

/-- ST_RESHAPE_STAT (08 Table 8.13). -/
def State.reshapeStat (s : State) : Word :=
  let r := s.stripe.reshape
  let left := if r.tier = 0 then s.spansLeft else s.oldBands
  let extents := if r.tier = 0 then
      (s.extentsUsed (fun f => decide (r.cursor ≤ spanOfFrame f))).length * max 1 s.pWidth
    else left
  if r.st = 0 then 0#64
  else word (r.st % 4 + r.tier % 2 * 4 + pctOf (r.total - left) r.total * 8 + extents % 2 ^ 32 * 2 ^ 10)

/-! Engines (10 Table 10.21). -/

/-- STATE of an engine. -/
def engineCode (e : Engine) : Nat :=
  if e.off then 5
  else match e.run with
    | none => 0
    | some r =>
      if r.layerRunning then 2
      else if r.holdSince.isSome then 3
      else if !r.wbs.isEmpty || r.closing then 4
      else 1

/-- EN_STATE. -/
def State.enState (s : State) (e : Nat) : Word :=
  let x : Engine := SMap.findD s.engines.eng e {}
  word (engineCode x + min 64 (x.jobs.length + bit x.run.isSome) * 8
    + (x.slots.filter (fun y => y.2.valid && decide (y.1 < 16))).foldl (fun a y => a + 2 ^ (10 + y.1)) 0
    + x.tenant % 4096 * 2 ^ 26)

/-- EN_JOB. -/
def State.enJob (s : State) (e : Nat) : Word :=
  match (SMap.findD s.engines.eng e ({} : Engine)).run with
  | some r => word (r.q % 2 ^ 22 + r.layer % 4096 * 2 ^ 22)
  | none => 0#64

/-! Block image and islands (12 Tables 12.10, 12.16). -/

/-- IS_SLOT_STAT. -/
def State.slotStat (s : State) (n : Nat) : Word :=
  let x := s.slot n
  word (x.st % 4 + x.code % 256 * 2 ^ 8 + x.step % 16 * 2 ^ 16 + (s.slotVersion n).toNat % 2 ^ 32 * 2 ^ 32)

/-- The clock of an island in MHz (12 Table 12.10). -/
def State.islandMhz (s : State) (n : Nat) : Nat :=
  let body (ty inst : Nat) : Option PanelBody := s.image.running.bind (fun i => imgBody i ty inst)
  if n < 24 then 1000
  else if n < 56 then (match s.dram.build with | some b => b.speed * 100 / 8 | none => 0)
  else if n < 88 then (match s.flash.build with | some b => b.rate * 100 / 8 | none => 0)
  else if n < 120 then (match body 0x51 ((n - 88) / 4) with | some (.crown m) => m | _ => 1600)
  else if n < 126 then (match body 0x50 (n - 120) with | some (.engine m _) => m | _ => 2000)
  else if n < 135 then 1600
  else if n = 135 then 1200
  else if n = 136 then 100
  else 0

/-- The function of an island is stopped. -/
def State.islandStopped (s : State) (n : Nat) : Bool :=
  match islandFunc n with
  | some (c, k) => (match stopField c with | some f => (s.get f).testBit k | none => false)
  | none => false

/-- IS_ISLAND_STAT of the selected island. -/
def State.islandStat (s : State) : Word :=
  let n := s.get F.IS_ISLAND_SEL.ISLAND
  if 136 < n then 0#64
  else word (s.islandMhz n % 4096 + bit (s.islandStopped n) * 2 ^ 12 + bit (!s.image.unlocked.contains n) * 2 ^ 13)

/-- IS_SVN. -/
def State.svnStat (s : State) : Word :=
  word (s.otp.floor % 2 ^ 16 + (match s.image.running with | some i => i.svn | none => 0) % 2 ^ 16 * 2 ^ 16
    + bit s.otp.custHash.isSome * 2 ^ 32)

/-! Keys (12 Table 12.22). -/

/-- STATE of a key slot. -/
def keyCode (k : KeySt) : Nat := match k with | .empty => 0 | .loaded => 1 | .deleted => 2 | .lost => 3

/-- XT_SLOT_STAT of the selected slot. -/
def State.keyStat (s : State) : Word :=
  let k := s.keyAt (s.get F.XT_SLOT_SEL.SLOT)
  word (keyCode k.st + k.tenant % 4096 * 16)

/-- XT_SLOTS_USED. -/
def State.keysUsed (s : State) : Word :=
  let n (x : KeySt) : Nat := (s.cipher.slots.filter (fun y => y.2.st == x)).length
  word (n .loaded + n .deleted * 2 ^ 16)

/-! Rails (13 Table 13.14). -/

/-- PW_RAIL_CFG of the selected rail. -/
def State.railCfg (s : State) : Word :=
  let n := s.get F.PW_RAIL_SEL.RAIL
  if 10 < n then 0#64
  else word (s.railNominal n % 2 ^ 16 + railWarn n * 2 ^ 16 + railFaultLevel n * 2 ^ 24 + railOnState n * 2 ^ 32
    + railOffState n * 2 ^ 37 + s.railBall n % 16 * 2 ^ 42 + bit (railPmbus n) * 2 ^ 46)

/-- PW_RAIL_STAT of the selected rail: level 3 for a rail that is not enabled. VDD_AON has no enable. -/
def State.railStat (s : State) : Word :=
  let n := s.get F.PW_RAIL_SEL.RAIL
  let r := s.rail n
  if 10 < n then 0#64
  else word (min 0xFFFF r.mv + bit r.enabled * 2 ^ 16
    + (if n == 0 || r.enabled then (if r.level = 3 then 3 else s.railLevel n) else 3) * 2 ^ 17)

/-! Events (14 Tables 14.10, 14.11). -/

/-- BB_EV_PTR. -/
def State.evPtr (s : State) : Word :=
  word (s.events.head % 4096 + s.events.tail % 4096 * 2 ^ 16 + min 4096 s.events.unread * 2 ^ 28)

/-- The flags of the device that are set: block and class of each (14 R390). A flag's reset value is 0, so only a listed register
can hold one. -/
def State.flagsUp (s : State) : List (Nat × Nat) :=
  s.regs.flatMap (fun x =>
    match regAt x.1 with
    | none => []
    | some (r, i) => r.fields.filterMap (fun f =>
        match f.cls with
        | some c => if f.acc == .w1c && s.isSet f i then some (r.block, c) else none
        | none => none))

/-- BB_PENDING. -/
def State.pendingStat (s : State) : Word :=
  let l := s.flagsUp
  word ((List.range 15).foldl (fun a b =>
      if l.any (fun x => x.1 == b && decide (s.get F.BB_EV_CTL.IRQ_MIN ≤ x.2)) then a + 2 ^ b else a) 0
    + l.foldl (fun a x => max a x.2) 0 * 2 ^ 16
    + bit (l.any (fun x => decide (s.get F.BB_EV_CTL.ALERT_MIN ≤ x.2))) * 2 ^ 18)

/-- The alert pin is low (14 R390). -/
def State.alertLow (s : State) : Bool := s.pendingStat.getLsbD 18

/-- A word of the event log window: entry, word within it (14 R386). -/
def State.evWord (s : State) (n k : Nat) : Word :=
  match SMap.find s.events.log n with
  | some e => wordOf (evBytes e) k
  | none => 0#64

/-- TM_HOST_OFFSET (11 R316; 15 Table 15.5). -/
def State.hostOffset (s : State) : Word :=
  match s.ports.timeOff with
  | some (h, d) => word h - word d
  | none => 0#64

/-! Every register. -/

/-- GO of a command register reads as BUSY: hardware clears it at completion (15 R402). -/
def State.goValue (s : State) (r : Reg) (i : Nat) (busy : FieldRef) : Word :=
  withBits (s.reg r i) 8 1 (s.getF busy i)

/-- The value that software reads from instance `i` of a register. -/
def State.value (s : State) (r : Reg) (i : Nat) : Word :=
  match r with
  | .PW_STATE => s.pwState
  | .PW_DIRTY_STAT => s.dirtyStat
  | .TW_STATE => s.twState
  | .TW_CLAIM_PEER => (match s.twin.peer with | some f => word f.claimHigh | none => 0#64)
  | .TW_PEER_DT => (match s.twin.peer with | some f => word f.sendDt | none => 0#64)
  | .TW_HB_SEQ => s.hbSeq
  | .TW_LEASE_END => word s.twin.leaseEnd
  | .TW_ROTATE_STAT => s.rotateStat
  | .TW_REJOIN_STAT => s.rejoinStat
  | .ST_TIER_STAT => s.tierStat
  | .ST_QUOTA_D => word (s.quota s.quotaTenant).d
  | .ST_QUOTA_P => word (s.quota s.quotaTenant).p
  | .ST_QUOTA_F => word (s.quota s.quotaTenant).f
  | .ST_USE_D => s.useStat 0
  | .ST_USE_P => s.useStat 1
  | .ST_USE_F => s.useStat 2
  | .ST_FLOAT_STAT => s.floatStat
  | .CR_WAY_STAT => s.wayStat
  | .CR_SLICE_STAT => s.sliceStat
  | .DC_TROWEL_STAT => s.trowelStat
  | .FL_MAP_STAT => s.flMapStat
  | .FL_HEALTH => s.flHealth
  | .FL_CLASS_COUNT => s.flClass
  | .FL_TEMP_STAT => s.flTemp
  | .ST_MEMBER_STAT => s.memberStat
  | .ST_REBUILD_STAT => s.rebuildStat
  | .ST_RESYNC_STAT => s.resyncStat
  | .ST_SKIM_STAT => s.skimStat
  | .ST_RESHAPE_STAT => s.reshapeStat
  | .QU_TABLE_BASE => if s.image.running.isSome then word (Config.queueBase (s.get F.DC_MAP.D_BLOCKS)).toNat else 0#64
  | .QU_CTX_STAT => s.ctxStat
  | .QU_COUNT => s.quCount
  | .EN_STATE => s.enState i
  | .EN_JOB => s.enJob i
  | .IS_SLOT_STAT => s.slotStat i
  | .IS_ISLAND_STAT => s.islandStat
  | .IS_SVN => s.svnStat
  | .IS_CMD => s.goValue r i F.IS_CMD_STATUS.BUSY
  | .XT_CMD => s.goValue r i F.XT_CMD_STATUS.BUSY
  | .XT_SLOT_STAT => s.keyStat
  | .XT_SLOTS_USED => s.keysUsed
  | .XT_KEY_DATA => 0#64
  | .PW_RAIL_CFG => s.railCfg
  | .PW_RAIL_STAT => s.railStat
  | .BB_EV_PTR => s.evPtr
  | .BB_PENDING => s.pendingStat
  | .BB_SEQ => word s.events.bbNext
  | .BB_AON_DATA => s.aonData
  | .BB_HEALTH_DATA => word (s.events.health.getD (s.get F.BB_HEALTH_SEL.INDEX) 0)
  | .TM_DT => word s.now
  | .TM_HOST_OFFSET => s.hostOffset
  | r => s.reg r i

/-- The word that software reads at an 8-byte offset of the register space (15 R399, R400): the event log window, the registers,
zero elsewhere. -/
def State.peek (s : State) (off : Nat) : Word :=
  if 0x320000 ≤ off ∧ off < 0x340000 then s.evWord ((off - 0x320000) / 32) (off / 8 % 4)
  else match regAt off with
    | some (r, i) => if s.absent r i then 0#64 else s.value r i
    | none => 0#64

end Sys2Proof.Machine
end

