-- ==== Sys2Proof/Machine/Media.lean ====
section
/-! DEFINITION. What stands on the media: the ciphertext of frames in tiers P and F, the frame metadata, P and Q of a row, save
frames and the register of the save area, the code word of a DRAM line; and what a HOST port reports of itself (00 R14; 01 R34; 02
Table 2.8; 06 R169, R172; 07 Table 7.2; 08 R235; 11 Table 11.3; 12 R346, R347). State holds the values in clear and once, so these
views say what the media hold of them; no command of the table reads the media past the device. -/

namespace Sys2Proof.Machine

open Sys2Proof

/-! GF(2^8). Bytes are numbers below 256 here. -/

/-- Times x in the field of a polynomial. -/
def gfDouble (poly a : Nat) : Nat := if 128 ≤ a then (2 * a) ^^^ poly else 2 * a

/-- The product of two elements: `b` from its bit 0 up, `n` bits. -/
def gfMulBits (poly a b n : Nat) : Nat :=
  match n with
  | 0 => 0
  | k + 1 => (if b % 2 = 1 then a else 0) ^^^ gfMulBits poly (gfDouble poly a) (b / 2) k

/-- The product of two elements. -/
def gfMul (poly a b : Nat) : Nat := gfMulBits poly a b 8

/-- Two byte strings added. -/
def xorBytes (a b : List Nat) : List Nat := List.zipWith (fun x y => x ^^^ y) a b

/-! P and Q (08 R235). -/

/-- P of the data units of a row, each of `n` bytes. -/
def stripeP (n : Nat) (units : List (List Nat)) : List Nat := units.foldl xorBytes (List.replicate n 0)

/-- Q of the data units of a row: the first with g^0, each later one with one power of g = 2 more, over 0x11D. -/
def stripeQ (n : Nat) (units : List (List Nat)) : List Nat :=
  match units with
  | [] => List.replicate n 0
  | d :: t => xorBytes d ((stripeQ n t).map (gfDouble 0x11D))

/-- A lost data unit from P and the other data units (08 R250). -/
def fromP (p : List Nat) (others : List (List Nat)) : List Nat := others.foldl xorBytes p

/-! AES-256 (IEEE 1619; FIPS 197). -/

/-- Rows 0 to 3 of the AES S-box. -/
def sboxA : List Nat :=
  [0x63, 0x7C, 0x77, 0x7B, 0xF2, 0x6B, 0x6F, 0xC5, 0x30, 0x01, 0x67, 0x2B, 0xFE, 0xD7, 0xAB, 0x76,
   0xCA, 0x82, 0xC9, 0x7D, 0xFA, 0x59, 0x47, 0xF0, 0xAD, 0xD4, 0xA2, 0xAF, 0x9C, 0xA4, 0x72, 0xC0,
   0xB7, 0xFD, 0x93, 0x26, 0x36, 0x3F, 0xF7, 0xCC, 0x34, 0xA5, 0xE5, 0xF1, 0x71, 0xD8, 0x31, 0x15,
   0x04, 0xC7, 0x23, 0xC3, 0x18, 0x96, 0x05, 0x9A, 0x07, 0x12, 0x80, 0xE2, 0xEB, 0x27, 0xB2, 0x75]

/-- Rows 4 to 7 of the AES S-box. -/
def sboxB : List Nat :=
  [0x09, 0x83, 0x2C, 0x1A, 0x1B, 0x6E, 0x5A, 0xA0, 0x52, 0x3B, 0xD6, 0xB3, 0x29, 0xE3, 0x2F, 0x84,
   0x53, 0xD1, 0x00, 0xED, 0x20, 0xFC, 0xB1, 0x5B, 0x6A, 0xCB, 0xBE, 0x39, 0x4A, 0x4C, 0x58, 0xCF,
   0xD0, 0xEF, 0xAA, 0xFB, 0x43, 0x4D, 0x33, 0x85, 0x45, 0xF9, 0x02, 0x7F, 0x50, 0x3C, 0x9F, 0xA8,
   0x51, 0xA3, 0x40, 0x8F, 0x92, 0x9D, 0x38, 0xF5, 0xBC, 0xB6, 0xDA, 0x21, 0x10, 0xFF, 0xF3, 0xD2]

/-- Rows 8 to 11 of the AES S-box. -/
def sboxC : List Nat :=
  [0xCD, 0x0C, 0x13, 0xEC, 0x5F, 0x97, 0x44, 0x17, 0xC4, 0xA7, 0x7E, 0x3D, 0x64, 0x5D, 0x19, 0x73,
   0x60, 0x81, 0x4F, 0xDC, 0x22, 0x2A, 0x90, 0x88, 0x46, 0xEE, 0xB8, 0x14, 0xDE, 0x5E, 0x0B, 0xDB,
   0xE0, 0x32, 0x3A, 0x0A, 0x49, 0x06, 0x24, 0x5C, 0xC2, 0xD3, 0xAC, 0x62, 0x91, 0x95, 0xE4, 0x79,
   0xE7, 0xC8, 0x37, 0x6D, 0x8D, 0xD5, 0x4E, 0xA9, 0x6C, 0x56, 0xF4, 0xEA, 0x65, 0x7A, 0xAE, 0x08]

/-- Rows 12 to 15 of the AES S-box. -/
def sboxD : List Nat :=
  [0xBA, 0x78, 0x25, 0x2E, 0x1C, 0xA6, 0xB4, 0xC6, 0xE8, 0xDD, 0x74, 0x1F, 0x4B, 0xBD, 0x8B, 0x8A,
   0x70, 0x3E, 0xB5, 0x66, 0x48, 0x03, 0xF6, 0x0E, 0x61, 0x35, 0x57, 0xB9, 0x86, 0xC1, 0x1D, 0x9E,
   0xE1, 0xF8, 0x98, 0x11, 0x69, 0xD9, 0x8E, 0x94, 0x9B, 0x1E, 0x87, 0xE9, 0xCE, 0x55, 0x28, 0xDF,
   0x8C, 0xA1, 0x89, 0x0D, 0xBF, 0xE6, 0x42, 0x68, 0x41, 0x99, 0x2D, 0x0F, 0xB0, 0x54, 0xBB, 0x16]

/-- The AES S-box. -/
def sbox (x : Nat) : Nat := (sboxA ++ sboxB ++ sboxC ++ sboxD).getD x 0

/-- The next word of the key schedule from the latest eight words, newest first: word `i` with its round constant. -/
def keyWord (i rc : Nat) (w : List (List Nat)) : List Nat :=
  let last := w.headD []
  let t :=
    if i % 8 = 0 then xorBytes ((last.drop 1 ++ last.take 1).map sbox) [rc, 0, 0, 0]
    else if i % 8 = 4 then last.map sbox
    else last
  xorBytes (w.getD 7 []) t

/-- The key schedule, newest word first, from word `i` on for `n` words. -/
def keyWords (n i rc : Nat) (w : List (List Nat)) : List (List Nat) :=
  match n with
  | 0 => w
  | k + 1 => keyWords k (i + 1) (if i % 8 = 0 then gfDouble 0x11B rc else rc) (keyWord i rc w :: w)

/-- The 15 round keys of a 32-byte key. -/
def roundKeys (key : List Nat) : List (List Nat) :=
  let w := (keyWords 52 8 1 ((List.range 8).map (fun i => (key.drop (4 * i)).take 4)).reverse).reverse
  (List.range 15).map (fun r => ((w.drop (4 * r)).take 4).flatten)

/-- SubBytes and ShiftRows. -/
def subShift (b : List Nat) : List Nat := (List.range 16).map (fun i => sbox (b.getD ((4 * (i / 4 + i % 4) + i % 4) % 16) 0))

/-- MixColumns. -/
def mixColumns (b : List Nat) : List Nat :=
  (List.range 16).map (fun i =>
    let c := i / 4 * 4
    let x (k : Nat) : Nat := b.getD (c + (i + k) % 4) 0
    gfDouble 0x11B (x 0) ^^^ (gfDouble 0x11B (x 1) ^^^ x 1) ^^^ x 2 ^^^ x 3)

/-- The rounds after the first key, `ks` the keys left. -/
def aesRounds (ks : List (List Nat)) (b : List Nat) : List Nat :=
  match ks with
  | [] => b
  | [k] => xorBytes (subShift b) k
  | k :: t => aesRounds t (xorBytes (mixColumns (subShift b)) k)

/-- One 16-byte block encrypted under round keys. -/
def aesBlock (ks : List (List Nat)) (b : List Nat) : List Nat := aesRounds (ks.drop 1) (xorBytes b (ks.headD []))

/-! XTS (IEEE 1619). -/

/-- The tweak of the next block: times x in GF(2^128), bytes little-endian. -/
def nextTweak (t : List Nat) : List Nat :=
  let c := t.foldl (fun (a : List Nat × Nat) x => (a.1 ++ [(2 * x + a.2) % 256], x / 128)) ([], 0)
  if c.2 = 1 then (c.1.headD 0 ^^^ 0x87) :: c.1.drop 1 else c.1

/-- Blocks of a data unit encrypted from a tweak on, `n` blocks. -/
def xtsBlocks (ks : List (List Nat)) (n : Nat) (t d : List Nat) : List Nat :=
  match n with
  | 0 => []
  | k + 1 => xorBytes (aesBlock ks (xorBytes (d.take 16) t)) t ++ xtsBlocks ks k (nextTweak t) (d.drop 16)

/-- The bytes of a key, byte 0 its lowest bits (12 R350; DEDUCED, log entry 103). -/
def keyBytes (k : BitVec 256) : List Nat := (List.range 32).map (fun i => k.toNat / 2 ^ (8 * i) % 256)

/-- The bytes of a number, little-endian, as numbers. -/
def leNums (n x : Nat) : List Nat := (List.range n).map (fun i => x / 2 ^ (8 * i) % 256)

/-- XTS-AES-256 of a data unit under key 1 and key 2, with its sequence number little-endian in 128 bits (12 R346). -/
def xts (key1 key2 : BitVec 256) (unit : Nat) (d : List Nat) : List Nat :=
  xtsBlocks (roundKeys (keyBytes key1)) (d.length / 16) (aesBlock (roundKeys (keyBytes key2)) (leNums 16 unit)) d

/-! Frames in tiers P and F. -/

/-- The bytes of a frame in clear. -/
def State.frameClear (s : State) (f : Nat) : List Nat :=
  (List.range 64).flatMap (fun k => (lineBytes (s.line (f * 64 + k))).map BitVec.toNat)

/-- The bytes of a frame as tier P or F holds them, where none of its lines is dirty: ciphertext under the key slot of its tenant, its
unit number the range offset [55:12] (12 R346). A tenant without a slot stores none. -/
def State.frameStored (s : State) (f : Nat) : Option (List Nat) :=
  (s.keySlot (s.tenantOf (boltOfFrame f))).map (fun k => xts k.2.key1 k.2.key2 f (s.frameClear f))

/-- The metadata of a frame (07 Table 7.2): poison map, WSEQ, range offset, tenant. A frame of tier P carries no WSEQ (DESIGN CHOICE,
log entry 103). -/
def State.frameMeta (s : State) (f : Nat) : List Nat :=
  let w := match SMap.find s.flash.map (spanOfFrame f) with | some e => e.wseq | none => 0
  leNums 8 (s.poisonMap f).toNat ++ leNums 8 w ++ leNums 6 (f % 2 ^ 44) ++ leNums 2 (s.tenantOf (boltOfFrame f) % 2 ^ 12)
    ++ List.replicate 8 0

/-- A data unit of a stripe: ciphertext and metadata; a slot never written counts as zeros (08 R235). -/
def State.unitBytes (s : State) (f : Option Nat) : List Nat :=
  match f.bind (fun f => (s.frameStored f).map (fun b => b ++ s.frameMeta f)) with
  | some b => b
  | none => List.replicate 4128 0

/-- The frame in a data position of a row of tier P. -/
def State.pFrameAt (s : State) (g row d : Nat) : Option Nat :=
  (s.tier.pmap.find? (fun x => x.2.1 == g && x.2.2 == row * (s.pWidth - 2) + d)).map Prod.fst

/-- The data units of a row of tier P in order of data position (08 R234, R236). -/
def State.rowUnits (s : State) (g row : Nat) : List (List Nat) :=
  (List.range (s.pWidth - 2)).map (fun d => s.unitBytes (s.pFrameAt g row d))

/-- P and Q of a row of tier P. -/
def State.rowP (s : State) (g row : Nat) : List Nat := stripeP 4128 (s.rowUnits g row)
def State.rowQ (s : State) (g row : Nat) : List Nat := stripeQ 4128 (s.rowUnits g row)

/-- The frame in a slot of a band of tier F. -/
def State.frameInSlot (s : State) (b slot : Nat) : Option Nat :=
  s.flash.map.findSome? (fun x => (x.2.written.find? (fun k => s.fpaOf x.1 k == some (fpa b slot))).map (fun k => x.1 * 256 + k))

/-- The data units of a row of a band: a row is the page of each member, four frames to a page (08 R237). -/
def State.bandUnits (s : State) (b row w : Nat) : List (List Nat) :=
  (List.range (w - 2)).map (fun d =>
    (List.range 4).flatMap (fun j => s.unitBytes (s.frameInSlot b (row * 4 * (w - 2) + 4 * d + j))))

/-- P and Q pages of a row of a band. -/
def State.bandP (s : State) (b row w : Nat) : List Nat := stripeP (4 * 4128) (s.bandUnits b row w)
def State.bandQ (s : State) (b row w : Nat) : List Nat := stripeQ (4 * 4128) (s.bandUnits b row w)

/-! The save area (02 Table 2.8, R56; 03 R123; 12 R347). -/

/-- A save frame's bytes in clear, CRC and all (02 Table 2.8). -/
def State.saveClear (s : State) (f : SaveFrame) : List Nat :=
  let pad (n : Nat) (l : List Nat) : List Nat := l ++ List.replicate (n - l.length) 0
  let lines := pad 3584 (f.lines.flatMap (fun x => (lineBytes x.data).map BitVec.toNat))
  let tags := pad 448 (f.lines.flatMap (fun x => leNums 8 (x.line % 2 ^ 50 + bit x.poison * 2 ^ 50 + 2 ^ 51)))
  let body := lines ++ tags ++ leNums 4 s.save.epoch ++ leNums 4 f.seq ++ [f.lines.length] ++ List.replicate 7 0
    ++ leNums 8 s.save.startDt
  pad 4096 (body ++ leNums 4 (crc32c (body.map (BitVec.ofNat 8))).toNat)

/-- The save key, key 1 and key 2, of this device's key (12 R347; its derivation is open, log entry 2). -/
def State.saveKey (s : State) : BitVec 256 × BitVec 256 :=
  let k := s.otp.deviceKey.getD 0#256
  (Config.saveKey k, Config.saveTweakKey k)

/-- A frame of the save area as module `m` holds it in its slot: the unit number is m × 2^32 plus the slot (12 R347). -/
def State.saveStored (s : State) (m slot : Nat) (clear : List Nat) : List Nat :=
  xts s.saveKey.1 s.saveKey.2 (m * 2 ^ 32 + slot) clear

/-- 4 KiB of a bitmap with one bit per span, from span `sp` on (02 R56; 03 R123). -/
def bitmapClear (marked : List Nat) (sp : Nat) : List Nat :=
  (List.range 4096).map (fun i => (List.range 8).foldl (fun a k => a + (if marked.contains (sp + 8 * i + k) then 2 ^ k else 0)) 0)

/-- A frame of the dirty-span register, and of the split bitmap, in clear. -/
def State.spanRegClear (s : State) (sp : Nat) : List Nat := bitmapClear s.lines.spanReg sp
def State.splitClear (s : State) (sp : Nat) : List Nat := bitmapClear s.lines.splitMap sp

/-! The code word of a DRAM line (06 R169, R172). -/

/-- The 64 data bytes and 16 check bytes of a line: a poisoned line is zeros with the right check bytes XOR 0x5A. The code's check
symbols are a free function of the data (log entry 2). -/
def State.codeWord (s : State) (l : Nat) : LineData × BitVec 128 :=
  if s.isPoison l then (0#512, Config.rsCheck 0#512 ^^^ 0x5A5A5A5A5A5A5A5A5A5A5A5A5A5A5A5A#128)
  else (s.line l, Config.rsCheck (s.line l))

/-- The component and symbol that byte `i` of the 80 of a code word lies in: data components first (06 R169). -/
def symbolOf (x8 : Bool) (i : Nat) : Nat × Nat := (i / compSymbols x8, i % compSymbols x8)

/-! What a HOST port reports (01 R34; 11 Table 11.3). -/

/-- The values of 11 Table 11.3 that an LD function reports, but for those of Identify Memory Device. -/
structure HostCaps where
  deviceId : Nat
  classCode : Nat
  serial : Word
  maxPayload : Nat
  tenBitTags : Bool
  aspm : Bool
  flitMode : Bool
  topRate : Nat
  msixTable : Nat
  cacheCapable : Bool
  ioCapable : Bool
  memCapable : Bool
  memHwInit : Bool
  hdmCount : Nat
  viralCapable : Bool
  decoderCount : Nat
  interleave11to8 : Bool
  interleave14to12 : Bool
  ways3612 : Bool
  ways16 : Bool
  gpfBase : Nat
  gpfScale : Nat
  gpfPower : Nat
  deriving DecidableEq, Repr

/-- The values reported, the same on every HOST port of every device of the bay but for the highest link speed. -/
def State.hostCaps (s : State) : HostCaps :=
  { deviceId := 0x9648, classCode := 0x050210, serial := s.image.baySerial, maxPayload := 512, tenBitTags := true, aspm := false,
    flitMode := true, topRate := rateLimit (s.get F.GB_ID.CODE), msixTable := 0x7FF, cacheCapable := false, ioCapable := true,
    memCapable := true, memHwInit := false, hdmCount := 1, viralCapable := false, decoderCount := 4, interleave11to8 := true,
    interleave14to12 := true, ways3612 := false, ways16 := true, gpfBase := 1, gpfScale := 1, gpfPower := 0 }

end Sys2Proof.Machine
end

