-- ==== Sys2Proof/Safety.lean ====
section
/-! DEFINITION. What counts as a safe run: no command of the device stops it, and the state keeps the
forms that the named operations rely on. -/

namespace Sys2Proof.Machine

open Sys2Proof

/-- The step answers a next state: it neither faults nor is refused. -/
def Safe (s : State) : Prop := ∃ t, step s = .next t

/-- The form of the register table: offsets strictly rising, no register listed at its reset value. -/
def regsWf (m : SMap Word) : Bool := SMap.wf m && m.all (fun x => x.2 != 0#64)

/-- The bytes of the range stand in their canonical form, and so do the registers. -/
def Canonical (s : State) : Prop := memWf s.mem = true ∧ regsWf s.regs = true

end Sys2Proof.Machine
end

