-- ==== Sys2Proof/Certificates/Slice0/Obligations.lean ====
section
/-! DEFINITION. The statements for the provers. Each follows rules of spec/ named in its docstring and in OBLIGATIONS.json; a
statement about one command says that exec answers a next state, what the command does, and what it leaves alone. -/

namespace Sys2Proof.Claims

open Sys2Proof Machine

/-- A register access on this path reaches the register at an offset: the path is up, reaches the whole register space, and the
block answers in the power state (15 R404, Table 15.4; 11 R318). -/
abbrev Served (s : State) (via : Via) (off : Nat) : Prop :=
  s.pathUp via = true ∧ s.wholeSpace via = true ∧ s.blockServed off = true

/-- The register table is in its order. It holds at reset and every command keeps it (Obligations.StepKeepsCanonical). -/
abbrev RegsOrdered (s : State) : Prop := SMap.wf s.regs = true

/-- A write sets no reserved bit of its register (00 R10). -/
abbrev NoRsv (r : Reg) (w : AccW) (v : Word) : Prop := accValue w v &&& accMask w &&& ~~~(knownBits r) = 0#64

/-- The half of a 32-bit access holds a field that starts at bit `lo`. -/
def covers (w : AccW) (lo : Nat) : Bool :=
  match w with
  | .full => true
  | .lo => decide (lo < 32)
  | .hi => decide (32 ≤ lo)

/-- A flag is set in `t` and was set from `s`: its register has the flag at 1 and is as before elsewhere, every other register
stands but the counts and flags of the event log (14 R383 to R394), and of the rest of the state only the output, the event log
and the logs of the ports may change. -/
def FlagSet (s t : State) (f : FieldRef) (i : Nat) : Prop :=
  t.getF f i = 1
  ∧ (∀ r k, r.addr k ≠ f.reg.addr i → r.addr k ≠ Reg.addr .BB_EV_STAT 0 → r.addr k ≠ Reg.addr .BB_STATUS 0 →
      t.reg r k = s.reg r k)
  ∧ t = { s with regs := t.regs, out := t.out, events := t.events, ports := t.ports }

/-- GB_ACCESS_LOG after an access is flagged at bit `lo` of GB_ACCESS_STATUS (15 Table 15.3). -/
def accessLog (via : Via) (off : Nat) (write : Bool) (lo : Nat) : Word :=
  word (off % 2 ^ 26 + viaPort via * 2 ^ 32 + viaLd via * 2 ^ 39 + bit write * 2 ^ 43 + lo * 2 ^ 44)

/-- The counter registers whose read resets them: the command, the register, its number and its counters. -/
def counterReads (via : Via) (w : AccW) (n : Nat) : List (Instr × Reg × Nat × List FieldRef) :=
  [(.pwPoisonCountRead via w, .PW_POISON_COUNT, 0, [F.PW_POISON_COUNT.REPAIRED, F.PW_POISON_COUNT.POISONED]),
   (.twMissStatRead via w, .TW_MISS_STAT, 0, [F.TW_MISS_STAT.MISSES_A, F.TW_MISS_STAT.MISSES_B]),
   (.stMigCountRead via w, .ST_MIG_COUNT, 0, [F.ST_MIG_COUNT.PROMOTED, F.ST_MIG_COUNT.DEMOTED]),
   (.crHitStatRead via w, .CR_HIT_STAT, 0, [F.CR_HIT_STAT.HITS, F.CR_HIT_STAT.MISSES]),
   (.crErrStatRead via w, .CR_ERR_STAT, 0, [F.CR_ERR_STAT.CORRECTED, F.CR_ERR_STAT.UNCORRECTABLE]),
   (.dcErrStatRead via n w, .DC_ERR_STAT, n, [F.DC_ERR_STAT.CORRECTED, F.DC_ERR_STAT.UNCORRECTABLE]),
   (.flErrStatRead via n w, .FL_ERR_STAT, n, [F.FL_ERR_STAT.CORRECTED, F.FL_ERR_STAT.UNCORRECTABLE]),
   (.stParityStatRead via w, .ST_PARITY_STAT, 0, [F.ST_PARITY_STAT.MISMATCH, F.ST_PARITY_STAT.HEALED]),
   (.quCapStatRead via w, .QU_CAP_STAT, 0, [F.QU_CAP_STAT.DROPPED, F.QU_CAP_STAT.OVERWRITTEN]),
   (.enCountRead via n w, .EN_COUNT, n, [F.EN_COUNT.JOBS_DONE, F.EN_COUNT.HOLD_US]),
   (.ptErrStatRead via n w, .PT_ERR_STAT, n, [F.PT_ERR_STAT.FEC_CORRECTED, F.PT_ERR_STAT.REPLAYS]),
   (.ptTrafficRead via n w, .PT_TRAFFIC, n, [F.PT_TRAFFIC.TX_MIB, F.PT_TRAFFIC.RX_MIB]),
   (.xtCountRead via w, .XT_COUNT, 0, [F.XT_COUNT.FAULTS, F.XT_COUNT.KEY_EMPTY_READS]),
   (.bbEvStatRead via w, .BB_EV_STAT, 0, [F.BB_EV_STAT.LOST, F.BB_EV_STAT.MERGED]),
   (.blCacheStatRead via w, .BL_CACHE_STAT, 0, [F.BL_CACHE_STAT.HITS, F.BL_CACHE_STAT.MISSES])]

/-- Registers whose every write has a step of its own (the commands of opcode_table.json name it). -/
def ownStep (r : Reg) : Bool :=
  match r with
  | .PW_DIRTY_BUDGET | .PW_ENERGY_DECL | .PW_DESTAGE_CTL | .ST_TIER_CTL | .ST_QUOTA_D | .ST_QUOTA_P | .ST_QUOTA_F | .CR_WAY_PWR
  | .CR_LFSR_SEED | .FL_FULL_CTL | .IS_BOOT | .BB_EV_PTR | .BL_CMD | .TW_CMD | .ST_RESHAPE_CMD | .QU_CMD | .PT_CMD | .IS_CMD
  | .XT_CMD => true
  | _ => false

/-- A write that starts the step of a register that has one on some writes: GO of DC_TRN_CTL and of DC_PPR_CMD (06 Tables 6.15,
6.16), EN of TW_ROTATE_CTL while it is 0 (03 R120), PW_PERSIST_STATUS while SPAN_REG_FAULT is set (02 R57). -/
def startsStep (s : State) (r : Reg) (w : AccW) (v : Word) : Bool :=
  match r with
  | .DC_TRN_CTL => (accValue w v &&& accMask w).getLsbD 8
  | .DC_PPR_CMD => (accValue w v &&& accMask w).getLsbD 29
  | .TW_ROTATE_CTL => !s.isSet F.TW_ROTATE_CTL.EN 0
  | .PW_PERSIST_STATUS => s.isSet F.PW_PERSIST_STATUS.SPAN_REG_FAULT 0
  | r => ownStep r

/-- A host request of an LD is decoded to offset `o` for tenant `t`, service is open, and no request in hand has its number or
comes from its source to its bolt (01 R28, R44; 11 R427). -/
abbrev TakesHost (s : State) (port ld hpa o t : Nat) : Prop :=
  s.hostServes port = true ∧ s.decodeHpa port ld hpa = some o ∧ SMap.find s.bay.ldTenant (port * 16 + ld) = some t
  ∧ s.inService = true
  ∧ ∀ x ∈ s.bay.reqs, x.id < s.bay.nextId ∧ ¬(x.src = hostSource port ld ∧ reqBolt x = boltOfOff o)

/-- A bolt of this device alone: in range, bound, this device its active owner, not MIRRORED, its entry in the HUB cache, and no
function that its requests need stopped (01 Table 1.4; 12 Table 12.5). -/
abbrev OwnedHere (s : State) (b : Nat) : Prop :=
  b < s.get F.BL_RANGE_LIMIT.BOLTS ∧ s.bound b = true ∧ entryActive (s.entry b) = s.devId ∧ s.mirrored b = false
  ∧ s.bay.boltCache.contains b = true ∧ s.stoppedFor b = false ∧ s.bay.staleBolts.contains b = false

/-- No request in hand keeps one of source `src` from line `l` at the input of its Crown slice: none waits there for the line, and
no miss of the source is outstanding in the slice (05 R159 to R161). -/
abbrev SliceFree (s : State) (src l : Nat) : Prop :=
  ∀ x ∈ s.bay.reqs, ¬(lineOfOff x.offset = l ∧ atSlice x.st = true)
    ∧ ¬(x.src = src ∧ lineSlice (lineOfOff x.offset) = lineSlice l ∧ inFill x.st = true)

/-- A command of a command register given on this path is taken up: the path is a port of the device or MGMT, the register is
served and present, and its function runs (15 R401 to R404). -/
abbrev Taken (s : State) (via : Via) (r : Reg) (i : Nat) : Prop :=
  (match via with | .mgmt => True | .host p _ => p < 96)
  ∧ Served s via (r.addr i) ∧ s.absent r i = false ∧ s.fencedReg r i = false

/-- Argument registers written before a command (01 R49; 09 Table 9.10; 12 Tables 12.7 and 12.17). -/
def withArgs (s : State) (l : List (Reg × Word)) : State := l.foldl (fun s a => s.setReg a.1 0 a.2) s

/-- The entry held for a bolt is good by its CRC; a bolt with none was never bound (01 R17, R23). -/
abbrev EntryGood (s : State) (b : Nat) : Prop :=
  SMap.find s.bay.bolts b = none ∨ (s.entry b).crc = entryCrc (s.entry b)

/-- A BL command that runs: its arguments and BL_CMD.OP written, GO and BUSY set (01 R49). -/
def blRuns (s : State) (op : Nat) (args : List (Reg × Word)) : State :=
  let u := withArgs s args
  { ((u.put F.BL_CMD.OP op).put F.BL_CMD.GO 1).put F.BL_CMD_STATUS.BUSY 1 with
    bay := { s.bay with blBusy := some {
      op := op, a0 := u.reg .BL_CMD_ARG0 0, a1 := u.reg .BL_CMD_ARG1 0, a2 := u.reg .BL_CMD_ARG2 0, since := s.now,
      tag := none } } }

/-- The bit of a span is set in `u`: no write of it is on its way, what waited for it goes on, and bytes, marks and dirty lines are
those of `s` (02 R57). -/
def SpanMarks (s u : State) (span : Nat) : Prop :=
  span ∈ u.lines.spanReg ∧ (∀ x ∈ u.lines.spanWrites, x.span ≠ span)
  ∧ (∀ r ∈ s.bay.reqs, ∀ k d t, spanOfOff r.offset = span → r.st = .storing true k d t →
      { r with st := .storing false k d t } ∈ u.bay.reqs)
  ∧ u.mem = s.mem ∧ u.lines.dirty = s.lines.dirty ∧ u.lines.poison = s.lines.poison ∧ u.power = s.power

/-- A write of a span's bit reached no module: it is kept as failed, no request moves, the effective budget is 0 (02 R59). -/
def SpanFails (s u : State) (w : SpanWrite) : Prop :=
  u.effGib = 0 ∧ u.bay.reqs = s.bay.reqs ∧ u.lines.spanReg = s.lines.spanReg ∧ { w with failed := true } ∈ u.lines.spanWrites
  ∧ u.mem = s.mem ∧ u.lines.dirty = s.lines.dirty ∧ u.lines.poison = s.lines.poison ∧ u.power = s.power

/-- A fetched descriptor of an opcode that may start: service is open, and no earlier one of its queue still waits to start and
no earlier FENCE is unfinished (09 R272, Table 9.8). -/
abbrev Starts (s : State) (q ix op : Nat) (x : Desc) (e : QEntry) : Prop :=
  s.desc q ix = some x ∧ s.queue q = some e ∧ x.st = .fetched ∧ descOp x.d = op ∧ s.inService = true ∧ s.mayStart x = true

end Sys2Proof.Claims

open Sys2Proof Machine Claims

/-! The machine as a whole. -/

/-- A step runs the front command on the queue's rest; on an empty queue it counts 1 ns (the model's choice, log entry 8) (00
Scope, log entry 8, 15 R406). -/
def Obligations.StepRunsFrontCommand : Prop :=
  (∀ (c : Instr) (rest : List Instr) (s : State), step { s with pending := c :: rest } = exec c { s with pending := rest })
  ∧ (∀ s : State, s.pending = [] → step s = .next { s with time := { s.time with dt := s.time.dt + 1 } })

/-- Every one of the 248 commands completes in every state, and a step answers a next state from every state (00 Scope, 14
Trouble records). -/
def Obligations.EveryCommandCompletes : Prop :=
  (∀ (c : Instr) (s : State), ∃ t : State, exec c s = .next t) ∧ ∀ s : State, Safe s

/-- At reset every register of the register map holds its reset value, DT is 0 and the power state is 0 (13 R365, 15 R399, 15
R406). -/
def Obligations.ResetRegistersHoldResetValues : Prop :=
  (∀ (r : Reg) (i : Nat), State.reset.reg r i = r.reset)
  ∧ State.reset.now = 0 ∧ State.reset.power.state = 0 ∧ (∀ a, readByte State.reset.mem a = 0#8)
  ∧ State.reset.out = [] ∧ State.reset.pending = []

/-- The state after reset has its bytes and registers in canonical form (15 R399, 04 R130). -/
def Obligations.ResetStateIsCanonical : Prop :=
  Canonical State.reset

/-- Every step keeps the bytes of the range and the registers in canonical form (01 R16, 15 R399, 15 R400). -/
def Obligations.StepKeepsCanonical : Prop :=
  ∀ s t : State, Canonical s → step s = .next t → Canonical t

/-- Device time never runs backwards but for AON_RESET and a TIME_SYNC that sets it (11 R326, 15 R406). -/
def Obligations.DeviceTimeNeverRunsBack : Prop :=
  ∀ (c : Instr) (s t : State), (∀ code serial, c ≠ .aonReset code serial) →
    (∀ h t1 t2 t3 answer at_, c ≠ .timeSync h t1 t2 t3 answer at_) →
    exec c s = .next t → s.now ≤ t.now

/-- No command takes back what has left the device, uses a free value twice or changes the queue (00 R12, 11 R322). -/
def Obligations.CommandsOnlyAppendOutput : Prop :=
  ∀ (c : Instr) (s t : State), exec c s = .next t → s.out <+: t.out ∧ t.pending = s.pending ∧ s.freeIx ≤ t.freeIx

/-- The security floor only rises and a programmed one-time cell keeps its value (12 R334, 12 R351). -/
def Obligations.OneTimeCellsStay : Prop :=
  ∀ (c : Instr) (s t : State), exec c s = .next t →
    s.otp.floor ≤ t.otp.floor
    ∧ (∀ h, s.otp.gwHash = some h → t.otp.gwHash = some h)
    ∧ (∀ h, s.otp.custHash = some h → t.otp.custHash = some h)
    ∧ (∀ k, s.otp.deviceKey = some k → t.otp.deviceKey = some k)

/-- What goes on after a command leaves power, test port, one-time cells, keys, images, bolt table and pair state alone (01
R25, 13 R361, 16 R419). -/
def Obligations.FollowingRulesLeaveTheRest : Prop :=
  ∀ s : State,
    let t := s.settle
    t.pending = s.pending ∧ t.time = s.time ∧ t.power = s.power ∧ t.jtag = s.jtag ∧ t.otp = s.otp ∧ t.cipher = s.cipher
    ∧ t.image = s.image ∧ t.save = s.save
    ∧ t.bay.bolts = s.bay.bolts ∧ t.bay.tenants = s.bay.tenants ∧ t.bay.ldTenant = s.bay.ldTenant
    ∧ t.bay.decoders = s.bay.decoders ∧ t.bay.gate = s.bay.gate ∧ t.tier.quotas = s.tier.quotas
    ∧ t.twin = { s.twin with mirrorOut := t.twin.mirrorOut, copyAcks := t.twin.copyAcks }
    ∧ t.stripe = { s.stripe with skim := t.stripe.skim } ∧ t.crown.ways = s.crown.ways ∧ t.flash.blocks = s.flash.blocks

/-- A line written under byte enables changes the enabled bytes of that line and no other byte (02 R55, 01 R16). -/
def Obligations.StoreWritesEnabledBytesOnly : Prop :=
  ∀ (m : List Host.Cell) (l : Nat) (be : Word) (d : LineData) (a : Nat), memWf m = true →
    readByte (writeLine m l be d) a =
      if 64 * l ≤ a ∧ a < 64 * l + 64 ∧ beBit be (a - 64 * l) = true then lineByte d (a - 64 * l) else readByte m a

/-! Register accesses (00 R8, R9; 15 R399 to R408). -/

/-- A register write sets the RW fields, clears the W1C bits written 1, and changes nothing else (00 R9, 15 R400, 15 R402). -/
def Obligations.RegisterWriteFollowsAccessTypes : Prop :=
  ∀ (s : State) (via : Via) (r : Reg) (i : Nat) (w : AccW) (v : Word) (at_ : Nat),
    RegsOrdered s → regAt (r.addr i) = some (r, i) → r.addr i % 8 = 0 → startsStep s r w v = false →
    Served s via (accOff r i w) → s.absent r i = false → s.fencedReg r i = false →
    NoRsv r w v →
    ∃ t, exec (.registerWrite via (accOff r i w) w v at_) s = .next t
      ∧ (∀ b, b < 64 → (t.reg r i).getLsbD b =
          if (accMask w).getLsbD b then
            if (accBits r .rw ||| accBits r .wo).getLsbD b then (accValue w v).getLsbD b
            else if (accBits r .w1c).getLsbD b then (s.reg r i).getLsbD b && !(accValue w v).getLsbD b
            else (s.reg r i).getLsbD b
          else (s.reg r i).getLsbD b)
      ∧ (∀ r' k, r'.addr k ≠ r.addr i → t.reg r' k = s.reg r' k)
      ∧ t = { s.tick at_ with regs := t.regs }

/-- A write to a register of a stopped function applies its W1C bits alone and sets FENCED_WRITE (15 R403, 15 R405). -/
def Obligations.StoppedFunctionTakesOnlyClears : Prop :=
  ∀ (s : State) (via : Via) (r : Reg) (i : Nat) (w : AccW) (v : Word) (at_ : Nat),
    RegsOrdered s → regAt (r.addr i) = some (r, i) → r.addr i % 8 = 0 → startsStep s r w v = false →
    Served s via (accOff r i w) → s.absent r i = false → s.fencedReg r i = true → fenceTouches r w = true →
    NoRsv r w v →
    ∃ t, exec (.registerWrite via (accOff r i w) w v at_) s = .next t
      ∧ FlagSet (((s.tick at_).setReg r i (s.reg r i &&& ~~~(accValue w v &&& accBits r .w1c &&& accMask w))).setReg
          .GB_ACCESS_LOG 0 (accessLog via (accOff r i w) true 3))
          t F.GB_ACCESS_STATUS.FENCED_WRITE 0

/-- An access of another size, on a path that is down, outside its states or of an absent register reads zero (00 R8, 15 R405,
15 R404, 15 R400, 11 R318). -/
def Obligations.UnservedAccessesReadZero : Prop :=
  (∀ (s : State) (via : Via) (off : Nat) (write : Bool), RegsOrdered s →
     (Served s via off →
       ∃ t, FlagSet (s.setReg .GB_ACCESS_LOG 0 (accessLog via off write 0)) t F.GB_ACCESS_STATUS.BAD_SIZE 0
         ∧ exec (.badSizeAccess via off write) s = .next (if write then t else t.emit (.mmio via off 0#64)))
     ∧ (s.pathUp via = false →
       exec (.badSizeAccess via off write) s = .next (if write then s else s.emit (.mmio via off 0#64))))
  ∧ (∀ (s : State) (via : Via) (w : AccW) (n : Nat), RegsOrdered s → ∀ x ∈ counterReads via w n,
       let off := accOff x.2.1 x.2.2.1 w
       (s.pathUp via = false → exec x.1 s = .next (s.emit (.mmio via off 0#64)))
       ∧ (s.pathUp via = true → s.wholeSpace via = false → off < 0x2000000 → exec x.1 s = .next (s.emit (.mmio via off 0#64)))
       ∧ (Served s via off → s.absent x.2.1 x.2.2.1 = true → exec x.1 s = .next (s.emit (.mmio via off 0#64)))
       ∧ (s.pathUp via = true → s.wholeSpace via = true → s.blockServed off = false →
           ∃ t, FlagSet (s.setReg .GB_ACCESS_LOG 0 (accessLog via off false 2)) t F.GB_ACCESS_STATUS.UNAVAILABLE 0
             ∧ exec x.1 s = .next (t.emit (.mmio via off 0#64))))

/-- A read of a counter register returns the counts, resets those it covers, and changes nothing else (01 R48, 02 R91, 03
R128, 04 R152, 05 R166, 06 R198, 07 Table 7.16, 08 Table 8.10, 09 Table 9.12, 10 R307, 12 Table 12.17, 14 R398). -/
def Obligations.CounterReadReturnsAndResets : Prop :=
  ∀ (s : State) (via : Via) (w : AccW) (n : Nat), RegsOrdered s →
    ∀ x ∈ counterReads via w n, Served s via (accOff x.2.1 x.2.2.1 w) → s.absent x.2.1 x.2.2.1 = false →
    ∃ t, exec x.1 s = .next t
      ∧ t = { s with out := s.out ++ [.mmio via (accOff x.2.1 x.2.2.1 w) (readHalf w (s.reg x.2.1 x.2.2.1))], regs := t.regs }
      ∧ (∀ f ∈ x.2.2.2, t.getF f x.2.2.1 = if covers w f.lo then 0 else s.getF f x.2.2.1)
      ∧ (∀ r k, r.addr k ≠ x.2.1.addr x.2.2.1 → t.reg r k = s.reg r k)

/-- A 32-bit read of TM_DT's low half latches the high half, which a read of the high half returns (R407). -/
def Obligations.DeviceTimeReadLatchesHighHalf : Prop :=
  ∀ (s : State) (via : Via) (at_ : Nat), Served s via (accOff .TM_DT 0 .full) →
    let now := max s.now at_
    exec (.tmDtRead via .full at_) s = .next ((s.tick at_).emit (.mmio via (accOff .TM_DT 0 .full) (word now)))
    ∧ exec (.tmDtRead via .lo at_) s = .next { (s.tick at_).emit (.mmio via (accOff .TM_DT 0 .lo) (word (now % 2 ^ 32))) with
        time := { (s.tick at_).time with dtHigh := BitVec.ofNat 32 (now / 2 ^ 32) } }
    ∧ exec (.tmDtRead via .hi at_) s =
        .next ((s.tick at_).emit (.mmio via (accOff .TM_DT 0 .hi) (word s.time.dtHigh.toNat)))

/-- CR_SLICE_STAT, QU_CTX_STAT, BB_AON_DATA and TM_CAPTURE reads return their value and do what the read itself does (05 R166,
09 R276, 14 R396, 15 R408). -/
def Obligations.StatusReadsReturnTheirViews : Prop :=
  ∀ (s : State) (via : Via) (w : AccW) (at_ : Nat), RegsOrdered s →
    (Served s via (accOff .CR_SLICE_STAT 0 w) → exec (.crSliceStatRead via w) s =
      .next { s with
        out := s.out ++ [.mmio via (accOff .CR_SLICE_STAT 0 w) (readHalf w s.sliceStat)],
        crown := { s.crown with missMax := s.crown.missMax.set (s.get F.CR_SLICE_SEL.SLICE) 0 } })
    ∧ (Served s via (accOff .QU_CTX_STAT 0 w) →
        ∃ t, exec (.quCtxStatRead via w) s = .next t
          ∧ t = { s with out := s.out ++ [.mmio via (accOff .QU_CTX_STAT 0 w) (readHalf w s.ctxStat)], regs := t.regs }
          ∧ t.get F.QU_CTX_STAT.MISSES = (if w = .lo then s.get F.QU_CTX_STAT.MISSES else 0)
          ∧ ∀ r k, r.addr k ≠ Reg.addr .QU_CTX_STAT 0 → t.reg r k = s.reg r k)
    ∧ (Served s via (accOff .BB_AON_DATA 0 w) →
        ∃ t, exec (.bbAonDataRead via w) s = .next t
          ∧ t = { s with
            out := s.out ++ [.mmio via (accOff .BB_AON_DATA 0 w)
              (readHalf w (s.envmWord (s.get F.BB_AON_ADDR.ADDR / 8 * 8) (s.isSet F.BB_AON_ADDR.REGION 0)))],
            regs := t.regs }
          ∧ t.get F.BB_AON_ADDR.ADDR = (s.get F.BB_AON_ADDR.ADDR / 8 * 8 + 8) % 2 ^ 24
          ∧ ∀ r k, r.addr k ≠ Reg.addr .BB_AON_ADDR 0 → t.reg r k = s.reg r k)
    ∧ (Served s via (accOff .TM_CAPTURE 0 w) → exec (.tmCaptureRead via w at_) s =
        .next { (s.tick at_).emit (.mmio via (accOff .TM_CAPTURE 0 w) (readHalf w (s.reg .TM_CAPTURE 0))) with
          time := { (s.tick at_).time with captureUnread := false } })

/-! Requests of hosts (01 R21 to R45, R426; 02 R53; 11 R323). -/

/-- A host read of a line that the Crown holds here is answered with the bytes of the device's copy (01 R29, 05 R156, 02 R89,
log entry 12). -/
def Obligations.HostReadReturnsTheLineHeld : Prop :=
  ∀ (s : State) (port ld tag hpa at_ o t k : Nat) (c : Cell),
    RegsOrdered s → TakesHost s port ld hpa o t → OwnedHere s (boltOfOff o) → (s.entry (boltOfOff o)).tenant = t →
    SliceFree s (hostSource port ld) (lineOfOff o) → s.beats (lineOfOff o) = .good →
    s.cellAt (lineOfOff o) = some (k, c) → c.filling = false → SMap.has s.lines.mask (lineOfOff o) = false →
    s.isPoison (lineOfOff o) = false →
    ∃ u : State, exec (.memRd port ld tag hpa at_) s = .next (State.settle u)
      ∧ u.bay = { s.bay with
          nextId := s.bay.nextId + 1,
          reqs := s.bay.reqs ++ [{
            id := s.bay.nextId, src := hostSource port ld, who := .host port ld tag, op := .read, offset := o, tenant := t,
            since := none, st := .done { code := 0, data := s.line (lineOfOff o), poison := false } }] }
      ∧ u = { s.tick at_ with
          bay := u.bay, regs := u.regs, tier := ((s.tick at_).useSpan (spanOfLine (lineOfOff o))).tier }
      ∧ u.get F.BL_CACHE_STAT.HITS = satAdd 32 (s.get F.BL_CACHE_STAT.HITS) 1
      ∧ u.get F.CR_HIT_STAT.HITS = satAdd 32 (s.get F.CR_HIT_STAT.HITS) 1
      ∧ ∀ r i, r.addr i ≠ Reg.addr .BL_CACHE_STAT 0 → r.addr i ≠ Reg.addr .CR_HIT_STAT 0 → u.reg r i = s.reg r i

/-- A host store to a LOCAL bolt's line held in the Crown writes its enabled bytes and makes the line dirty (02 R53, 02 R55,
02 R60, 05 R157). -/
def Obligations.HostStoreWritesTheDevicesCopy : Prop :=
  ∀ (s : State) (port ld tag hpa at_ o t k : Nat) (c : Cell) (be : Word) (data : LineData),
    RegsOrdered s → TakesHost s port ld hpa o t → OwnedHere s (boltOfOff o) → (s.entry (boltOfOff o)).tenant = t →
    s.volatile (boltOfOff o) = false → s.keyLoaded t = true → s.lines.throttled = false →
    (s.effGib = 0 ∨ s.roomFor (lineOfOff o) = true) → SliceFree s (hostSource port ld) (lineOfOff o) →
    s.discarding (boltOfOff o) = false → s.written (frameOfLine (lineOfOff o)) = true →
    s.cellAt (lineOfOff o) = some (k, c) → s.waySt (k % 16) ≠ .cleaning →
    ∃ u : State, exec (.memWr port ld tag hpa be data at_) s = .next (State.settle u)
      ∧ u.mem = writeLine s.mem (lineOfOff o) be data
      ∧ SMap.has u.lines.dirty (lineOfOff o) = true
      ∧ u.req s.bay.nextId = some {
          id := s.bay.nextId, src := hostSource port ld, who := .host port ld tag, op := .write be data false, offset := o,
          tenant := t, since := none,
          st := .storing (s.needsSpan (spanOfLine (lineOfOff o))) false (u.effGib == 0) 0 }
      ∧ u.out = s.out ∧ u.power = s.power ∧ u.bay.bolts = s.bay.bolts ∧ u.twin = s.twin

/-- A host request that no decoder of its LD takes ends as R30 gives: a read with poison, a write discarded (01 R30, log entry
2, log entry 12). -/
def Obligations.UndecodedHostRequestFails : Prop :=
  ∀ (s : State) (port ld tag hpa at_ : Nat) (be : Word) (data : LineData),
    s.hostServes port = true → s.decodeHpa port ld hpa = none →
    exec (.memRd port ld tag hpa at_) s = .next (State.settle { s.tick at_ with
      freeIx := s.freeIx + 1, out := s.out ++ [.memCmp port ld tag false (Config.openLine s.freeIx) true] })
    ∧ ∃ u : State, exec (.memWr port ld tag hpa be data at_) s = .next (State.settle u)
      ∧ u.out = s.out ++ [.memCmp port ld tag true 0#512 false] ∧ u.mem = s.mem ∧ u.lines = s.lines ∧ u.bay = s.bay

/-- Fills, retries, expiries, drains and credits move a waiting request on, and a finished one leaves in its order (01 R44, 02
R89, 01 R21, 01 R42, 01 R43, 01 R41, 11 R323). -/
def Obligations.RequestsGoOnAndLeaveInOrder : Prop :=
  (∀ (s : State) (id port ld tag : Nat) (r : Req) (p : Resp),
     s.req id = some r → r.st = .done p → r.who = .host port ld tag → s.ahead r = [] →
     s.portUp port = true → s.twin.portsFenced = false →
     ∃ t : State, s.advance id = t ∧ t.out = s.out ++ [.memCmp port ld tag (reqWrites r) p.data (p.poison && !reqWrites r)]
       ∧ t.bay.reqs = s.bay.reqs.filter (fun x => x.id != r.id) ∧ t.mem = s.mem)
  ∧ (∀ (s : State) (id at_ dev port cls n since : Nat) (why : HoldWhy) (r : Req),
       (s.req id = some r → r.st = .cacheMiss → (s.entry (reqBolt r)).crc = entryCrc (s.entry (reqBolt r)) →
         s.bay.boltCache.contains (reqBolt r) = false → s.bay.boltCache.length < Config.boltCacheSize →
         exec (.boltCacheMissFill id at_) s = .next (State.settle (State.route
           { s.tick at_ with bay := { s.bay with boltCache := s.bay.boltCache ++ [reqBolt r] } } r true)))
       ∧ (s.req id = some r → r.st = .held since why →
         exec (.heldRequestRetry id at_) s = .next ((s.tick at_).start r).settle)
       ∧ (s.req id = some r → r.st = .held since why → r.since = some since → reqWrites r = true →
         since + s.fwdTimeoutNs ≤ max s.now at_ →
         exec (.holdExpiry id at_) s = .next (State.settle (((s.tick at_).raiseOff F.BL_STATUS.FWD_TIMEOUT r.offset).putReq
           { r with st := .done { code := 11, data := 0#512, poison := false } })))
       ∧ (s.bay.draining.contains dev = true → s.outstanding dev = false → s.wantAlt dev = s.isSet F.BL_ROUTE.ALT_IN_USE dev →
         exec (.routeDrainDone dev at_) s = .next (State.settle (State.retryHeld (State.releaseTransit
           { s.tick at_ with bay := { s.bay with draining := removeNum dev s.bay.draining } } dev))))
       ∧ (s.bay.draining.contains dev = true → s.outstanding dev = false → s.wantAlt dev = true →
           s.isSet F.BL_ROUTE.ALT_IN_USE dev = false →
         exec (.routeDrainDone dev at_) s = .next (State.settle (State.retryHeld (State.releaseTransit
           (State.raise (State.setF { s.tick at_ with bay := { s.bay with draining := removeNum dev s.bay.draining } }
             F.BL_ROUTE.ALT_IN_USE dev 1) F.BL_STATUS.ROUTE_ALT) dev))))
       ∧ (s.ports.sendq = [] → exec (.creditReturn port cls n at_) s = .next { s.tick at_ with
           ports := { s.ports with credits := SMap.updD s.ports.credits (port * 3 + cls) 0 (fun c => c + n) } }))

/-! Bolts, tenants and decoders (01 R17 to R28, R49). -/

/-- BIND, UNBIND, MODIFY and READ_ENTRY at the device that carries them out end with DONE and the entry (01 R17, 01 R18, 01
R24, 01 R49, 01 Table 1.15, 03 R107). -/
def Obligations.BoltEntryCommandsComplete : Prop :=
  ∀ (s : State) (via : Via) (a0 a1 a2 : Word) (at_ b : Nat), RegsOrdered s → Taken s via .BL_CMD 0 →
    s.isSet F.BL_CMD_STATUS.BUSY 0 = false →
    let e := entryOfWords a1 a2 0 1
    let n := entryOfWords a1 a2 0 0
    let o := s.entry b
    let ended (u : State) (op : Nat) (r : List Word) : State := State.settle (u.endBl op { code := 0, res := r })
    (let u := blRuns (s.tick at_) 0x01 [(.BL_CMD_ARG0, a0), (.BL_CMD_ARG1, a1), (.BL_CMD_ARG2, a2)]
     bitsOf a1 8 5 * 2 + bitsOf a1 3 1 = u.devId → e.durability ≠ 3 → e.access ≠ 3 → entryRsv a1 a2 = false →
      u.namesPair e.pairId = true → (if a0.getLsbD 63 then u.freeBolt else some (bitsOf a0 0 20)) = some b →
      b < u.get F.BL_RANGE_LIMIT.BOLTS → s.bound b = false → s.bay.tenants.contains e.tenant = true →
      s.pairBolts e.pairId < Config.maxPairBolts → s.bay.crcBad.contains b = false → EntryGood s b →
      exec (.bind via a0 a1 a2 at_) s = .next (ended (u.changeEntry b { e with claim := o.claim + 1 }) 0x01 [word b]))
    ∧ (b = bitsOf a0 0 20 → s.bound b = true → EntryGood s b → entryActive o = s.devId →
      exec (.unbind via a0 at_) s = .next (ended
        ((blRuns (s.tick at_) 0x02 [(.BL_CMD_ARG0, a0)]).changeEntry b { o with valid := false, seq := o.seq + 1 })
        0x02 [word b]))
    ∧ (b = bitsOf a0 0 20 → s.bound b = true → EntryGood s b → entryActive o = s.devId → n.durability ≠ 3 → n.access ≠ 3 →
      entryRsv a1 a2 = false → n.pairId = o.pairId → n.tenant = o.tenant →
      (n.durability = o.durability ∨ (n.durability ≠ 2 ∧ o.durability ≠ 2)) →
      exec (.modify via a0 a1 a2 at_) s = .next (ended
        ((blRuns (s.tick at_) 0x03 [(.BL_CMD_ARG0, a0), (.BL_CMD_ARG1, a1), (.BL_CMD_ARG2, a2)]).changeEntry b
          { o with durability := n.durability, access := n.access, dCap := n.dCap, pCap := n.pCap, fCap := n.fCap,
                   seq := o.seq + 1 }) 0x03 [word b]))
    ∧ (b = bitsOf a0 0 20 → s.bay.crcBad.contains b = false → EntryGood s b →
      (s.bound b = true → entryActive o = s.devId) →
      exec (.blReadEntry via a0 at_) s = .next (ended (blRuns (s.tick at_) 0x04 [(.BL_CMD_ARG0, a0)]) 0x04 (entryWords o)))

/-- A changed entry is held and raises the gate, other entries stand, and a BL command ends with its code and result (01 R23,
01 R24, 01 R25, 03 R107, 01 Table 1.10, 01 Table 1.11, 01 R49). -/
def Obligations.BoltChangesAreHeldAndEnded : Prop :=
  (∀ (s : State) (b : Nat) (e : BoltEntry),
     let t := s.changeEntry b e
     t.entry b = sealEntry e ∧ e.claim ≤ SMap.findD t.bay.gate b 0
     ∧ (∀ c, c ≠ b → t.entry c = s.entry c ∧ SMap.find t.bay.gate c = SMap.find s.bay.gate c)
     ∧ t.pending = s.pending ∧ t.time = s.time ∧ t.power = s.power ∧ t.bay.tenants = s.bay.tenants
     ∧ t.bay.decoders = s.bay.decoders ∧ t.cipher = s.cipher ∧ t.image = s.image ∧ t.tier.quotas = s.tier.quotas
     ∧ t.twin.st = s.twin.st
     ∧ ∀ a, boltOfOff a = b → readByte (s.releaseBolt b).mem a = 0#8)
  ∧ (∀ (s : State) (op code : Nat) (res : List Word), RegsOrdered s →
       let t := s.endBl op { code := code, res := res }
       t.get F.BL_CMD.GO = 0 ∧ t.get F.BL_CMD_STATUS.BUSY = 0 ∧ (code < 16 → t.get F.BL_CMD_STATUS.CODE = code)
       ∧ (code = 0 ∧ op ≠ 4 → t.get F.BL_CMD_STATUS.RESULT = (res.getD 0 0#64).toNat % 2 ^ 20)
       ∧ (op = 4 → t.reg .BL_CMD_ARG0 0 = res.getD 0 0#64 ∧ t.reg .BL_CMD_ARG1 0 = res.getD 1 0#64
           ∧ t.reg .BL_CMD_ARG2 0 = res.getD 2 0#64 ∧ t.reg .BL_CMD_ARG3 0 = res.getD 3 0#64)
       ∧ (∀ r i, r.addr i ≠ Reg.addr .BL_CMD 0 → r.addr i ≠ Reg.addr .BL_CMD_STATUS 0 →
           (op = 4 → ∀ a ∈ [Reg.BL_CMD_ARG0, .BL_CMD_ARG1, .BL_CMD_ARG2, .BL_CMD_ARG3], r.addr i ≠ a.addr 0) →
           t.reg r i = s.reg r i)
       ∧ t = { s with regs := t.regs, bay := { s.bay with blBusy := none } })

/-- TENANT_CREATE, TENANT_DELETE, LD_ATTACH, HDM_COMMIT and the 10 ms limit do what 01 R49 gives (01 R26, 01 R27, 01 R28, 01
R49, 01 Table 1.15). -/
def Obligations.TenantAndDecoderCommandsComplete : Prop :=
  ∀ (s : State) (via : Via) (a0 : Word) (at_ t port ld : Nat) (d : Hdm) (c : BlBusy), RegsOrdered s →
    let ended (u : State) (op : Nat) (r : List Word) : State := State.settle (u.endBl op { code := 0, res := r })
    let k := port * 16 + ld
    let l := SMap.findD s.bay.decoders k []
    let now := s.tick at_
    (Taken s via .BL_CMD 0 → s.isSet F.BL_CMD_STATUS.BUSY 0 = false → s.devId = 0 →
      (let u := blRuns now 0x10 []
       u.reachable.length + 1 = u.bayDevices → u.freeTenant = some t →
        exec (.tenantCreate via at_) s = .next (ended ((u.addTenant t).tellTenants 0x10 t) 0x10 [word t]))
      ∧ (let u := blRuns now 0x11 [(.BL_CMD_ARG0, a0)]
         u.reachable.length + 1 = u.bayDevices → t = bitsOf a0 0 12 → s.bay.tenants.contains t = true →
        s.bay.bolts.any (fun x => x.2.valid && x.2.tenant == t) = false → s.bay.ldTenant.any (fun x => x.2 == t) = false →
        (u.reachable = [] → exec (.tenantDelete via a0 at_) s = .next (ended (u.dropTenant t) 0x11 []))
        ∧ (u.reachable ≠ [] → exec (.tenantDelete via a0 at_) s = .next
            (u.putTenantDel { tenant := t, asker := none, waits := [], denied := false } u.reachable))))
    ∧ (Taken s via .BL_CMD 0 → s.isSet F.BL_CMD_STATUS.BUSY 0 = false → port = bitsOf a0 0 7 → ld = bitsOf a0 8 4 →
      t = bitsOf a0 16 12 → port ≤ 95 → l = [] →
      let u := blRuns now 0x12 [(.BL_CMD_ARG0, a0)]
      u.getF F.PT_CFG.PERSONALITY port = 1 → u.getF F.PT_CFG.WIDTH port ≠ 0 → ld < u.getF F.PT_CFG.LD_COUNT port →
      (a0.getLsbD 31 = true → exec (.ldAttach via a0 at_) s = .next (ended
        ((State.setF { u with bay := { u.bay with ldTenant := SMap.del s.bay.ldTenant k } } F.PT_LD.ATTACHED k 0).setF
          F.PT_LD.TENANT k 0) 0x12 []))
      ∧ (a0.getLsbD 31 = false → s.bay.tenants.contains t = true → exec (.ldAttach via a0 at_) s = .next (ended
        ((State.setF { u with bay := { u.bay with ldTenant := SMap.put s.bay.ldTenant k t } } F.PT_LD.ATTACHED k 1).setF
          F.PT_LD.TENANT k t) 0x12 [])))
    ∧ (SMap.has s.bay.ldTenant k = true → l.length < 8 → exec (.hdmCommit port ld d at_) s = .next
        (((State.setF { now with bay := { s.bay with decoders := SMap.put s.bay.decoders k (l ++ [d]) } }
          F.PT_LD.DECODERS k (l.length + 1))).emit (.hdm port ld true)))
    ∧ (SMap.has s.bay.ldTenant k = false → exec (.hdmCommit port ld d at_) s = .next (now.emit (.hdm port ld false)))
    ∧ (s.bay.blBusy = some c → c.since + 10000000 ≤ max s.now at_ →
      exec (.blCmdTimeout at_) s = .next (now.endBl c.op { code := 11, res := [] }))

/-! Durable stores and the dirty budget (02). -/

/-- A dirty-span write marks its span and lets its stores go on; one that reaches no module zeroes the budget (02 R57, 02 R58,
02 R59). -/
def Obligations.DirtySpanWritesMarkTheirSpan : Prop :=
  (∀ (s : State) (span at_ : Nat) (a b : Bool) (w : SpanWrite),
     s.lines.spanWrites.find? (fun x => x.span == span) = some w → (a || b) = true →
     ∃ u : State, exec (.dirtySpanWriteDone span a b at_) s = .next (State.startClear (State.settle u) span) ∧ SpanMarks s u span)
  ∧ (∀ (s : State) (span at_ : Nat) (a b : Bool) (w : SpanWrite),
     s.lines.spanWrites.find? (fun x => x.span == span) = some w → w.failed = true → (a || b) = true →
     ∃ u : State, exec (.dirtySpanRetry span a b at_) s = .next (State.startClear (State.settle u) span) ∧ SpanMarks s u span)
  ∧ (∀ (s : State) (span at_ : Nat) (w : SpanWrite), s.lines.spanWrites.find? (fun x => x.span == span) = some w →
     ∃ u : State, exec (.dirtySpanWriteDone span false false at_) s = .next (State.startClear (State.settle u) span)
       ∧ SpanFails s u w)
  ∧ (∀ (s : State) (span at_ : Nat) (w : SpanWrite), s.lines.spanWrites.find? (fun x => x.span == span) = some w →
     w.failed = true →
     ∃ u : State, exec (.dirtySpanRetry span false false at_) s = .next (State.startClear (State.settle u) span)
       ∧ SpanFails s u w)
  ∧ (∀ (s : State) (span at_ : Nat), s.lines.spanClears.contains span = true →
     ∃ u : State, exec (.dirtySpanClear span at_) s = .next (State.settle u)
       ∧ span ∉ u.lines.spanClears
       ∧ (∀ x, x ≠ span → (x ∈ u.lines.spanReg ↔ x ∈ s.lines.spanReg)) ∧ span ∉ u.lines.spanReg
       ∧ (s.spanDirty span = true → ∃ x ∈ u.lines.spanWrites, x.span = span)
       ∧ u.mem = s.mem ∧ u.lines.dirty = s.lines.dirty ∧ u.bay = s.bay ∧ u.regs = s.regs)
  ∧ (∀ (s : State) (span at_ : Nat) (a b : Bool),
     (s.lines.spanWrites.any (fun x => x.span == span && x.failed) = false →
       exec (.dirtySpanRetry span a b at_) s = .next (s.tick at_))
     ∧ (s.lines.spanClears.contains span = false → exec (.dirtySpanClear span at_) s = .next (s.tick at_)))

/-- A destaged frame's lines become clean, but those stored again, and no byte of the range changes (02 R70, 02 R71, 02 R75,
02 R76). -/
def Obligations.DestagedFrameIsClean : Prop :=
  ∀ (s : State) (frame group slot at_ : Nat) (lines : Word),
    (SMap.wf s.lines.dirty = true → SMap.find s.lines.running frame = some (group, slot, false) →
      s.rowListed group (s.rowOf slot) = true → s.lines.rmwRepair.any (fun x => frameOfLine x.2 == frame) = false →
      ∃ u : State, exec (.destageFrameDone frame group slot lines at_) s = .next (State.stepChange (State.settle u))
        ∧ (∀ l, SMap.has u.lines.dirty l = (SMap.has s.lines.dirty l
            && !(frameOfLine l == frame && lines.getLsbD (lineInFrame l)
              && !(SMap.findD s.lines.again frame 0#64).getLsbD (lineInFrame l))))
        ∧ SMap.find u.tier.pmap frame = some (group, slot)
        ∧ u.mem = s.mem ∧ u.lines.poison = s.lines.poison ∧ u.power = s.power ∧ u.twin = s.twin)
    ∧ (SMap.find s.lines.running frame = some (group, slot, true) →
      exec (.rmwReadDone frame true at_) s = .next (State.settle
        { s.tick at_ with lines := { s.lines with running := SMap.put s.lines.running frame (group, slot, false) } }))
    ∧ (SMap.find s.lines.running frame = some (group, slot, true) → s.mirrored (boltOfFrame frame) = false →
      ∃ u : State, exec (.rmwReadDone frame false at_) s = .next (State.settle u)
        ∧ (∀ k, k < 64 → u.isPoison (frame * 64 + k) = (s.isPoison (frame * 64 + k) || !s.localCopy (frame * 64 + k)))
        ∧ u.lines.dirty = s.lines.dirty ∧ u.power = s.power ∧ u.bay = s.bay)

/-- Aged lines, merge entries and GPF end as 02 gives, and a budget or energy declaration is in effect at once (02 R69, 02
R73, 02 R74, 02 R83, 02 R61, 02 R63, 02 R65, 02 R66). -/
def Obligations.DurableTimersAndRegistersComplete : Prop :=
  (∀ (s : State) (line at_ sub port : Nat) (loc : DramLoc) (d : Dirty) (m : Merge),
     let now := s.tick at_
     let age := s.get F.PW_DESTAGE_CTL.AGE_S
     let rest : State := { now with lines := { s.lines with merge := s.lines.merge.filter (fun x => x != m) } }
     (SMap.find s.lines.dirty line = some d → age ≠ 0 → d.since + age * 1000000000 ≤ max s.now at_ →
       exec (.destageAgeExpiry line at_) s = .next (State.settle
         { now with lines := { s.lines with destageQ := insertSorted (frameOfLine line) s.lines.destageQ } }))
     ∧ (s.lines.closing.find? (fun x => x.line == line && x.sub == sub && !x.base) = none →
       s.lines.merge.find? (fun x => x.line == line && x.sub == sub) = some m → m.opened + 1000 ≤ max s.now at_ →
       (SMap.has s.lines.mask line = true → s.inTierD line = true →
         let v : State := if s.writeHeld line = true then rest else rest.useRow (loc.ch * 2 + loc.sub) (s.rowAt loc)
         exec (.mergeEntryClose sub line loc { poisonPat := false, errs := [] } at_) s = .next (State.settle (State.wholeToD
           { v with lines := { v.lines with mask := SMap.del s.lines.mask line } } line)))
       ∧ (∀ b, SMap.has s.lines.mask line = false →
         exec (.mergeEntryClose sub line loc b at_) s = .next (State.settle (rest.wholeToD line)))
       ∧ (∀ b, SMap.has s.lines.mask line = true → s.inTierD line = false →
         exec (.mergeEntryClose sub line loc b at_) s = .next (State.settle (rest.fetchBase m))))
     ∧ exec (.gpfPhase1 port at_) s = .next (State.settle { now with bay := { s.bay with gpfWait := s.bay.gpfWait ++ [port] } })
     ∧ exec (.gpfPhase2 port at_) s = .next (now.emit (.gpf port 2 10)))
  ∧ (∀ (s : State) (via : Via) (w : AccW) (v : Word) (at_ : Nat), RegsOrdered s →
       let x := bitsOf v 0 12
       (w ≠ .hi → Served s via (accOff .PW_DIRTY_BUDGET 0 w) →
         NoRsv .PW_DIRTY_BUDGET w v →
         x ≠ 0 → x ≤ 0x800 → x ≤ s.limitGib → x ≤ s.saveLimitGib →
         exec (.pwDirtyBudgetWrite via w v at_) s = .next (State.settle
           (((s.tick at_).put F.PW_DIRTY_BUDGET.BUDGET_GIB x).budgetChanged s.effGib))
         ∧ (s.lines.spanLost = false →
           ((s.tick at_).put F.PW_DIRTY_BUDGET.BUDGET_GIB x).effGib = min x (min s.limitGib s.saveLimitGib)))
       ∧ (Served s via (accOff .PW_ENERGY_DECL 0 w) →
         NoRsv .PW_ENERGY_DECL w v →
         exec (.pwEnergyDeclWrite via w v at_) s = .next (State.settle
           (((s.tick at_).setReg .PW_ENERGY_DECL 0
             ((s.reg .PW_ENERGY_DECL 0 &&& ~~~(accBits .PW_ENERGY_DECL .rw &&& accMask w))
               ||| (accValue w v &&& accBits .PW_ENERGY_DECL .rw &&& accMask w))).budgetChanged s.effGib))))

/-- A budget above a limit, above 0x800 or zero is refused, flagged, and the previous value kept (R65). -/
def Obligations.BudgetRefusesWhatTheLimitsRefuse : Prop :=
  ∀ (s : State) (via : Via) (w : AccW) (v : Word) (at_ : Nat), RegsOrdered s → w ≠ .hi →
    Served s via (accOff .PW_DIRTY_BUDGET 0 w) → NoRsv .PW_DIRTY_BUDGET w v →
    let x := bitsOf v 0 12
    (s.limitGib < x ∨ s.saveLimitGib < x ∨ 0x800 < x ∨ x = 0) →
    ∃ t : State, exec (.pwDirtyBudgetWrite via w v at_) s = .next t
      ∧ FlagSet (s.tick at_) t F.PW_PERSIST_STATUS.BUDGET_REFUSED 0
      ∧ t.reg .PW_DIRTY_BUDGET 0 = s.reg .PW_DIRTY_BUDGET 0

/-! The twin relation (03). -/

/-- A heartbeat slot sends the frame of this device's state on every TWIN port, and path B its latest frame (03 R96, 03 R97,
03 R98, 03 R102, 03 R114). -/
def Obligations.FramesAreSentFromThisDevicesState : Prop :=
  ∀ (s : State) (at_ : Nat), s.sendsFrames = true →
    let now := s.tick at_
    ((s.twin.fenced = true → s.twin.yieldSlots ≠ 0 ∧ s.yieldEchoed = false) →
      ∃ (f : HbFrame) (u : State), exec (.heartbeatTimer at_) s = .next (u.twinPorts.foldl (fun t p =>
          State.sendOn t p { t.hdr t.twinId with hops := 1 } (if s.twin.fenced then .yield f else .heartbeat f)) u)
        ∧ f.ty = (if s.twin.fenced then 2 else 1) ∧ f.sender = s.devId ∧ f.seq = s.twin.txSeq + 1#32
        ∧ f.echo = s.twin.echoSeq ∧ f.sendDt = max s.now at_ ∧ f.claimHigh = s.claimHigh ∧ f.periodUs = s.nextPeriod
        ∧ f.crc = hbCrc f ∧ u.twin.txSeq = f.seq ∧ u.twin.lastHb = some f
        ∧ u.twin.yieldSlots = s.twin.yieldSlots - (if s.twin.fenced then 1 else 0)
        ∧ u.twin.st = s.twin.st ∧ u.twin.leaseEnd = s.twin.leaseEnd ∧ u = { now with twin := u.twin, regs := u.regs })
    ∧ (s.twin.fenced = true → s.twin.yieldSlots = 0 ∨ s.yieldEchoed = true →
      exec (.heartbeatTimer at_) s = .next now.enterYielded)
    ∧ ∀ f, s.twin.lastHb = some f → exec (.plumbSendTimer at_) s = .next
        { now with
          out := s.out ++ [.plumb { f with crc := plumbCrc f }],
          twin := { s.twin with fedAt := if s.twin.diagBad then s.twin.fedAt else some (max s.now at_) } }

/-- A frame is taken if its five conditions hold; a CRC failure is flagged, any other invalid frame counts as none (R99). -/
def Obligations.FramesAreTakenWhenValid : Prop :=
  ∀ (s u : State) (c : Instr) (pathB : Bool) (h : Hdr) (f : HbFrame) (at_ : Nat), RegsOrdered s →
    (c = .plumbFrameRx f at_ ∧ pathB = true ∧ u = s.tick at_
      ∨ c = .yield pathB f at_ ∧ u = s.tick at_
      ∨ c = .heartbeat h f at_ ∧ pathB = false ∧ u = (s.tick at_).countRx h.port 80 ∧ s.linkServes h = true
        ∧ h.dst = s.devId) →
    let path (x : State) : Path := if pathB then x.twin.pathB else x.twin.pathA
    let m := u.missDue pathB 8
    let good : Prop := f.crc = if pathB then plumbCrc f else hbCrc f
    let rest : Prop := f.sender = m.twinId ∧ (f.ty = 1 ∨ f.ty = 2) ∧ 10 ≤ f.periodUs ∧ f.periodUs ≤ 10000
      ∧ ∀ r, (path m).ref = some r → serialLater f.seq r = true
    (¬good → ∃ t : State, exec c s = .next t ∧ FlagSet m t F.TW_STATUS.FRAME_CRC 0)
    ∧ (good → ¬rest → exec c s = .next m)
    ∧ (good → rest → ∃ t : State, exec c s = .next t
        ∧ (path t).last = some (max s.now at_) ∧ (path t).miss = 0 ∧ (path t).lost = false
        ∧ (m.beforeService = false → (path t).ref = some f.seq
            ∧ (if pathB then t.twin.pathA = m.twin.pathA else t.twin.pathB = m.twin.pathB)))

/-- A YIELD of the twin takes a paired device to TAKING with a claim above every claim of the pair, and one with the SOLO flag
to REJOINING (03 R101, 03 R105, 03 R106, 03 R110, 03 R114, 03 Table 3.4). -/
def Obligations.YieldOfTheTwinStartsTakeover : Prop :=
  ∀ (s : State) (pathB : Bool) (f : HbFrame) (at_ : Nat), RegsOrdered s →
    let m := (s.tick at_).missDue pathB 8
    (f.crc = if pathB then plumbCrc f else hbCrc f) →
    m.frameValid f (if pathB then m.twin.pathB else m.twin.pathA) = true → f.ty = 2 → m.twin.fenced = false →
    (m.twin.st = .paired ∨ m.twin.st = .suspect) →
    ((hbSolo f = false ∨ f.sendDt ≤ m.twin.pairedAt) →
      ∃ (t : State) (k : Taking), exec (.yield pathB f at_) s = .next t
        ∧ t.twin.st = .taking ∧ t.twin.echoFrozen = true ∧ t.twin.taking = some k ∧ k.rotation = false ∧ k.trigger = 1
        ∧ m.claimHigh < k.claim ∧ f.claimHigh < k.claim
        ∧ (∀ x ∈ m.bay.bolts, x.2.pairId = m.pairId → x.2.claim < k.claim)
        ∧ k.bolts = m.mirroredBolts.filter (fun b => entryActive (m.entry b) == m.twinId))
    ∧ (hbSolo f = true → m.twin.pairedAt < f.sendDt →
      ∃ t : State, exec (.yield pathB f at_) s = .next t ∧ t.twin.st = .rejoining ∧ t.twin.rejoinRole = 2)

/-- Misses, the lease, the watchdog, the carrier, the wait and the self-diagnosis act as 03 gives (03 R95, 03 R101, 03 R102,
03 R103, 03 R111, 03 R114). -/
def Obligations.LossesAreCountedAndActedOn : Prop :=
  (∀ (s : State) (pathB : Bool) (at_ : Nat),
     let p := if pathB then s.twin.pathB else s.twin.pathA
     let withPath (q : Path) : State := { s.tick at_ with twin := { s.twin with
       pathA := if pathB then s.twin.pathA else q, pathB := if pathB then q else s.twin.pathB } }
     let counted (q : Path) : State :=
       (withPath q).bump (if pathB then F.TW_MISS_STAT.MISSES_B else F.TW_MISS_STAT.MISSES_A) 0 1
     (s.awaitsFrames = true → s.missAt pathB ≤ max s.now at_ → p.miss ≠ 7 →
        exec (.missDeadline pathB at_) s = .next (counted { p with miss := p.miss + 1 }))
     ∧ (s.awaitsFrames = true → s.missAt pathB ≤ max s.now at_ → p.miss = 7 →
        exec (.missDeadline pathB at_) s = .next (State.settle (State.checkTriggers
          ((counted { p with miss := 8, lost := true, ref := none }).raise
            (if pathB then F.TW_STATUS.PATH_B_LOST else F.TW_STATUS.PATH_A_LOST)))))
     ∧ (s.awaitsFrames = false ∨ max s.now at_ < s.missAt pathB →
        exec (.missDeadline pathB at_) s = .next (s.tick at_)))
  ∧ (∀ (s : State) (at_ : Nat), RegsOrdered s →
     s.twin.leaseEnd ≠ 0 → s.twin.leaseEnd ≤ max s.now at_ → s.twin.lapsed = false →
     ∃ u : State, exec (.leaseLapse at_) s = .next u
       ∧ FlagSet { s.tick at_ with twin := { s.twin with lapsed := true } } u F.TW_STATUS.LEASE_LAPSED 0)
  ∧ (∀ (s : State) (at_ : Nat), s.twin.leaseEnd = 0 ∨ max s.now at_ < s.twin.leaseEnd ∨ s.twin.lapsed = true →
     exec (.leaseLapse at_) s = .next (s.tick at_))
  ∧ (∀ (s : State) (at_ t : Nat), RegsOrdered s → s.twin.fedAt = some t → t + 8 * s.pbPeriodUs * 1000 ≤ max s.now at_ →
     ∃ u : State, exec (.watchdogExpiry at_) s = .next u ∧ u.twin.st = .yielded ∧ u.twin.portsFenced = true
       ∧ u.twin.fenced = true ∧ u.twin.fedAt = none ∧ (∀ q, q < 96 → u.portUp q = false) ∧ u.mem = s.mem)
  ∧ (∀ (s : State) (at_ : Nat), s.twin.carrier = true →
     exec (.carrierLoss at_) s = .next (State.settle (State.checkTriggers
       (State.raise { s.tick at_ with twin := { s.twin with carrier := false } } F.TW_STATUS.CARRIER_LOST))))
  ∧ (∀ (s : State) (at_ : Nat), s.twin.st = .suspect → s.pathUpA = true → s.pathUpB = true →
     ∃ u : State, exec (.carrierPresent at_) s = .next (State.settle u) ∧ u.twin.st = .paired ∧ u.twin.carrier = true
       ∧ u.twin.pairedAt = max s.now at_ ∧ u.power = s.power)
  ∧ (∀ (s : State) (at_ : Nat), s.twin.st = .solo ∨ s.twin.st = .taking ∨ s.twin.st = .yielded →
     exec (.carrierPresent at_) s = .next (State.settle { s.tick at_ with twin := { s.twin with carrier := true } }))
  ∧ (∀ (s : State) (at_ : Nat), s.twin.st = .wait → (s.tick at_).tFree ≤ max s.now at_ →
     exec (.tFreeReached at_) s = .next ((s.tick at_).enterTaking 2))
  ∧ (∀ (s : State) (at_ : Nat), exec (.selfDiagnosisFail at_) s = .next { s.tick at_ with twin := { s.twin with
       diagBad := true, fenced := true,
       yieldSlots := if s.twin.fenced then s.twin.yieldSlots else 8,
       yieldSeq := if s.twin.fenced then s.twin.yieldSeq else none } })

/-- A written takeover record raises TW_CLAIM_LOCAL, gives its bolts the claim and this side, and enters SOLO (03 R105, 03
R106, 03 R116, 02 R51). -/
def Obligations.TakeoverRecordOpensSolo : Prop :=
  ∀ (s : State) (at_ : Nat) (k : Taking), RegsOrdered s → s.twin.taking = some k → k.rotation = false →
    s.image.change = none → k.poisonList = false → k.bolts.Nodup → k.claim < 2 ^ 64 →
    ∃ t : State, exec (.takeoverRecordWritten at_) s = .next t
      ∧ t.twin.st = .solo ∧ t.twin.taking = none
      ∧ ({ pair := s.pairId, claim := k.claim, side := s.side, rotation := false } : ClaimRec) ∈ t.twin.claims
      ∧ (t.reg .TW_CLAIM_LOCAL 0).toNat = max k.claim (s.reg .TW_CLAIM_LOCAL 0).toNat
      ∧ (∀ b ∈ k.bolts, t.entry b = sealEntry { s.entry b with
          claim := k.claim, activeSide := s.side, seq := (s.entry b).seq + 1 })
      ∧ (∀ b, b ∉ k.bolts → t.entry b = s.entry b)

/-- A rotation slot, a drained group, its time limits and the four TW commands do what Tables 3.7 and 3.16 give (03 R120, 03
R121, 03 R122, 03 R129, 03 Table 3.7, 03 Table 3.16). -/
def Obligations.RotationAndTwinCommandsComplete : Prop :=
  ∀ (s : State) (via : Via) (at_ : Nat) (g : Group),
    let now := s.tick at_
    let due : State := { now with twin := { s.twin with
      slotDue := max s.now at_ + max 1 (s.get F.TW_ROTATE_CTL.INTERVAL_MIN) * 60000000000 } }
    let op (n : Nat) : State := now.put F.TW_CMD.OP n
    (s.rotates = true → s.twin.slotDue ≤ max s.now at_ →
      (s.twin.group = none → s.twin.slotWork = [] →
        exec (.rotateSlotTimer at_) s = .next (State.settle (due.startSlot.nextGroup 2)))
      ∧ ((s.twin.group.isSome = true ∨ s.twin.slotWork ≠ []) → exec (.rotateSlotTimer at_) s =
        .next { due with twin := { due.twin with slotPending := true } }))
    ∧ (s.twin.group = some g → g.active = true → g.step = 2 → s.groupBusy g = false →
      exec (.handoverDrainDone at_) s = .next (State.send
        { now with twin := { s.twin with group := some { g with step := 4, since := max s.now at_ } } }
        (s.hdr s.twinId) (.handover (s.withClaims g.bolts))))
    ∧ (s.twin.group = some g → g.since + 1000000 ≤ max s.now at_ → g.step ≤ 2 → (s.groupBusy g = true ∨ g.step = 1) →
      exec (.rotateWaitTimeout at_) s = .next now.skipGroup.stepChange)
    ∧ (s.twin.group = some g → g.since + 1000000 ≤ max s.now at_ → g.step = 4 →
      exec (.handoverTimeout at_) s = .next now.skipGroup.stepChange)
    ∧ (Taken s via .TW_CMD 0 → s.isSet F.TW_CMD_STATUS.BUSY 0 = false →
      (exec (.twCmdYield via at_) s = .next
        (if s.twin.st = .paired then (op 1).startYield.twCode 0 else (op 1).twCode 12))
      ∧ (exec (.declareLost via at_) s = .next
        (if (s.twin.st = .silent ∨ s.twin.st = .isolated) ∧ now.tFree ≤ max s.now at_ then ((op 2).enterTaking 4).twCode 0
         else (op 2).twCode 12))
      ∧ ((op 3).side = 0 → (op 3).isSet F.TW_ROTATE_CTL.EN 0 = true → s.twin.st = .paired → s.twin.group = none → s.twin.slotWork = [] →
        exec (.rotateNow via at_) s = .next ((State.settle ((op 3).startSlot.nextGroup 2)).twCode 0))
      ∧ exec (.fullRejoin via at_) s = .next
        (State.twCode { op 4 with twin := { s.twin with fullNext := true } } 0))

/-! Tiers, quotas and Float (04). -/

/-- A committed move of a span changes its home and its count, and no byte of the range; decay halves heat (04 R130, 04 R132,
04 R133, 04 R135, 04 R152). -/
def Obligations.MovesChangeNoByte : Prop :=
  ∀ (s : State) (span at_ : Nat) (r : SpanRec) (c : FChange), RegsOrdered s →
    (s.span span = some r → r.move = some .p → r.home = .f → r.written.length ≤ s.freeP →
      ∃ (u : State) (r' : SpanRec), exec (.migrationCopyDone span at_) s = .next (State.settle u)
        ∧ u.span span = some r' ∧ r'.home = .p ∧ r'.written = r.written ∧ r'.heat = r.heat
        ∧ u.get F.ST_MIG_COUNT.PROMOTED = satAdd 32 (s.get F.ST_MIG_COUNT.PROMOTED) 1
        ∧ u.mem = s.mem ∧ u.lines = s.lines ∧ u.twin = s.twin ∧ u.bay = s.bay ∧ u.power = s.power)
    ∧ (s.span span = some r → r.move = some .f → r.home = .p →
      s.stripe.heals.any (fun x => spanOfFrame x.2 == span) = false →
      s.flash.changes.find? (fun x => x.span == span && x.kind == .migrate) = some c → c.frames = r.written →
      ∃ (u : State) (r' : SpanRec), exec (.migrationCopyDone span at_) s = .next (State.settle u)
        ∧ u.span span = some r' ∧ r'.home = .f ∧ r'.written = r.written ∧ r'.heat = r.heat
        ∧ u.get F.ST_MIG_COUNT.DEMOTED = satAdd 32 (s.get F.ST_MIG_COUNT.DEMOTED) 1
        ∧ u.mem = s.mem ∧ u.lines = s.lines ∧ u.twin = s.twin ∧ u.bay = s.bay ∧ u.power = s.power)
    ∧ ∃ t : State, exec (.decayTimer at_) s = .next t
      ∧ (∀ sp, t.span sp = (s.span sp).map (fun x => { x with heat := x.heat / 2 }))
      ∧ t = { s.tick at_ with tier := { s.tier with spans := t.tier.spans } }

/-- A quota write applies and goes to the twin, the later stands, and Float moves gaps and regions after their writes (04
R139, 04 Table 4.13, 04 R145, 04 Table 4.14). -/
def Obligations.QuotasAndFloatComplete : Prop :=
  (∀ (s : State) (via : Via) (tier : Nat) (w : AccW) (v : Word) (at_ : Nat) (h : Hdr) (tn x dt : Nat),
     RegsOrdered s →
     (Served s via (accOff (quotaReg tier) 0 w) → NoRsv (quotaReg tier) w v → tn = s.get F.ST_QUOTA_SEL.TENANT →
       let now := s.tick at_
       let m := accMask w &&& accBits (quotaReg tier) .rw
       let y := ((word ((s.quota tn).get tier) &&& ~~~m) ||| (accValue w v &&& m)).toNat
       (s.bay.tenants.contains tn = true → exec (.quotaWrite via tier w v at_) s = .next (State.settle (State.checkDemotion
         (State.send { now with tier := { s.tier with
             quotas := SMap.put s.tier.quotas tn ((s.quota tn).set tier y (max s.now at_)) } }
           (s.hdr s.twinId) (.quotaSet tn tier y (max s.now at_))))))
       ∧ (s.bay.tenants.contains tn = false → exec (.quotaWrite via tier w v at_) s = .next now))
     ∧ (s.linkServes h = true → h.dst = s.devId →
       let u := s.countRx h.port 56
       let q := s.quota tn
       ((q.dt tier < dt ∨ (q.dt tier = dt ∧ s.side = 1)) → ∃ t : State, exec (.quotaSet h tn tier x dt) s = .next t
         ∧ t.quota tn = q.set tier x dt ∧ (∀ k, k ≠ tn → t.quota k = s.quota k))
       ∧ ((dt < q.dt tier ∨ (q.dt tier = dt ∧ s.side = 0)) → exec (.quotaSet h tn tier x dt) s = .next u)))
  ∧ (∀ (s : State) (m region h l : Nat),
       let k := m * 2 ^ 20 + region
       let r := s.region k
       let a := s.region h
       let b := s.region l
       let limit := SMap.findD s.tier.modWrites m 0 / s.regionCount m + 2 ^ s.threshLog2
       (s.psi ≤ r.sinceGap → exec (.floatGapMove m region) s = .next { s with tier := { s.tier with
         regions := SMap.put s.tier.regions k { r with
           sinceGap := r.sinceGap - s.psi, writes := r.writes + 1, gap := if r.gap = 0 then 4095 else r.gap - 1,
           start := if r.gap = 0 then (r.start + 1) % 4096 else r.start },
         modWrites := SMap.put s.tier.modWrites m (SMap.findD s.tier.modWrites m 0 + 1) } })
       ∧ (r.sinceGap < s.psi → exec (.floatGapMove m region) s = .next s)
       ∧ (s.extremeRegions m = some (h, l) → h ≠ l → limit < a.writes → exec (.floatSwapCheck m) s = .next (State.bump
         { s with tier := { s.tier with
             regions := SMap.put (SMap.put s.tier.regions h { a with writes := a.writes + 4095, holds := some (b.holds.getD l) })
               l { b with writes := b.writes + 4095, holds := some (a.holds.getD h) },
             modWrites := SMap.put s.tier.modWrites m (SMap.findD s.tier.modWrites m 0 + 8190) } } F.ST_FLOAT_STAT.SWAPS 0 1))
       ∧ (s.extremeRegions m = some (h, l) → a.writes ≤ limit → exec (.floatSwapCheck m) s = .next s))

/-! The Crown (05). -/

/-- The read behind a miss serves every waiting read with the line, zeros without a key, or poison (05 R156, 05 R161, 02 R81,
02 R89, 12 Table 12.11). -/
def Obligations.CrownFillServesItsReaders : Prop :=
  ∀ (s : State) (line at_ : Nat),
    let t := s.tenantOf (boltOfLine line)
    let ends (f : FillRes) (u : State) : Prop := exec (.crownFillDone line f at_) s = .next (State.settle u)
    s.crown.misses.contains line = true → s.inTierD line = false → s.repairWaiters line = [] →
    s.written (frameOfLine line) = true → (s.bay.reqs.map Req.id).Nodup → s.stopsAt (boltOfLine line) = none →
    (s.keyGone t = false → s.keyLoaded t = true → s.twinFirst (frameOfLine line) = false → s.isPoison line = false → ∃ u : State, ends (.frame true) u
      ∧ (∀ r ∈ s.fillWaiters line,
          { r with st := .done { code := 0, data := s.line line, poison := false } } ∈ u.bay.reqs)
      ∧ line ∉ u.crown.misses ∧ u.mem = s.mem ∧ u.lines.dirty = s.lines.dirty ∧ u.lines.poison = s.lines.poison)
    ∧ (∀ ok, s.volatile (boltOfLine line) = false → s.keyGone t = true → ∃ u : State, ends (.frame ok) u
      ∧ (∀ r ∈ s.fillWaiters line, ∀ port ld tag, r.who = .host port ld tag →
          { r with st := .done { code := 0, data := 0#512, poison := false } } ∈ u.bay.reqs)
      ∧ line ∉ u.crown.misses ∧ u.mem = s.mem ∧ u.lines.dirty = s.lines.dirty ∧ u.lines.poison = s.lines.poison)
    ∧ (s.volatile (boltOfLine line) = false → s.keyGone t = false → s.unitStopped line = false → s.hasTwinCopy (spanOfLine line) = false →
      ∃ u : State, ends (.frame false) u
      ∧ (∀ r ∈ s.fillWaiters line, ∃ k,
          { r with st := .done { code := 1, data := Config.openLine k, poison := true } } ∈ u.bay.reqs)
      ∧ u.isPoison line = true ∧ line ∉ u.crown.misses ∧ (∀ x, x ≠ line → u.isPoison x = s.isPoison x)
      ∧ (memWf s.mem = true → ∀ b, lineOfOff b ≠ line → readByte u.mem b = readByte s.mem b))

/-- A way asked off is cleaned and then off, a way asked on wakes and is then on, and a seed reloads the LFSRs (05 R158, 05
R163, 05 R164, 05 R165, 05 Table 5.3). -/
def Obligations.WaysPowerDownAndUp : Prop :=
  ∀ (s : State) (via : Via) (way at_ : Nat) (w : AccW) (v : Word), RegsOrdered s → s.crown.ways.length = 8 →
    8 ≤ way → way < 16 →
    let now := s.tick at_
    let pwr := s.reg .CR_WAY_PWR 0
    (Served s via (accOff .CR_WAY_PWR 0 .full) → pwr &&& ~~~(knownBits .CR_WAY_PWR) = 0#64 →
      (s.waySt way = .on → ∃ u : State, exec (.wayOffReq via way at_) s = .next (State.settle u)
        ∧ u.waySt way = .cleaning ∧ u.reg .CR_WAY_PWR 0 = pwr ||| 1#64 <<< way
        ∧ u.mem = s.mem ∧ u.lines = s.lines ∧ u.crown.cells = s.crown.cells)
      ∧ (s.waySt way = .off → ∃ u : State, exec (.wayOnReq via way at_) s = .next (State.settle u)
        ∧ u.waySt way = .waking ∧ u.reg .CR_WAY_PWR 0 = pwr &&& ~~~(1#64 <<< way)
        ∧ u.mem = s.mem ∧ u.lines = s.lines ∧ u.crown.cells = s.crown.cells))
    ∧ (s.waySt way = .cleaning → (s.wayCells way).any (fun x => x.2.filling) = false →
      ∃ u : State, exec (.wayCleanDone way at_) s = .next (State.settle u)
        ∧ u.waySt way = .off ∧ u.getF F.CR_STATUS.WAY_OFF_DONE 0 = 1 ∧ u.mem = s.mem ∧ u.lines.dirty = s.lines.dirty)
    ∧ (s.waySt way = .waking → ∃ u : State, exec (.wayPowerUpDone way at_) s = .next (State.settle u)
        ∧ u.waySt way = (if s.crown.wayAgain.contains way then .cleaning else .on)
        ∧ u.getF F.CR_STATUS.WAY_ON_DONE 0 = 1 ∧ u.mem = s.mem ∧ u.lines = s.lines ∧ u.crown.cells = s.crown.cells)
    ∧ (Served s via (accOff .CR_LFSR_SEED 0 w) → NoRsv .CR_LFSR_SEED w v → w ≠ .hi →
      ∃ u : State, exec (.crLfsrSeedWrite via w v at_) s = .next { u with crown := { s.crown with reload := List.range 32 } }
        ∧ u.get F.CR_LFSR_SEED.SEED = bitsOf v 0 32 ∧ u = { now with regs := u.regs }
        ∧ ∀ r i, r.addr i ≠ Reg.addr .CR_LFSR_SEED 0 → u.reg r i = s.reg r i)

/-! DRAM channels (06). -/

/-- Training steps report what comes back; request age, retraining, refresh rate and postponed refreshes follow 06 (06 R181,
06 Table 6.7, 06 Table 6.16, 06 R183, 06 R185, 06 R186, 06 R187, 06 R189). -/
def Obligations.TrainingAndChannelTimersComplete : Prop :=
  (∀ (s : State) (via : Via) (ch : Nat) (v : Word) (lanes : BitVec 40) (bad at_ : Nat), RegsOrdered s → ch < 32 →
     Served s via (accOff .DC_TRN_CTL ch .full) → s.absent .DC_TRN_CTL ch = false →
     ∀ x ∈ [(Instr.csStep via ch v lanes bad at_, 1), (.caStep via ch v lanes bad at_, 2),
         (.dqReadStep via ch v lanes bad at_, 3), (.dqWriteStep via ch v lanes bad at_, 4)],
       let y := withBits (v ||| 0x100#64) 0 4 x.2
       let u := (s.tick at_).writeFields .DC_TRN_CTL ch .full y false
       NoRsv .DC_TRN_CTL .full y →
       (s.mayTrain ch = true → exec x.1 s = .next
         (((u.setF F.DC_TRN_CMP.LANE_ERR ch lanes.toNat).setF F.DC_TRN_CMP.BURSTS_BAD ch (min 0xFFFF bad)).setF
           F.DC_TRN_CTL.CODE ch 0))
       ∧ (s.mayTrain ch = false → exec x.1 s = .next (u.setF F.DC_TRN_CTL.CODE ch 12))
       ∧ u.getF F.DC_TRN_CTL.OP ch = x.2)
  ∧ (∀ (s : State) (sub line ch eye lane at_ : Nat) (ind : List Nat) (busy : Bool), RegsOrdered s → ch < 32 →
       let now := s.tick at_
       let q := SMap.findD s.dram.dq sub []
       ((∃ x ∈ q, x.line = line ∧ x.aged = false ∧ x.arrived + 10000 ≤ max s.now at_) →
         ∃ t : State, exec (.requestAgeExpiry sub line at_) s = .next t
           ∧ t = { now with dram := { s.dram with dq := t.dram.dq } }
           ∧ (∀ k, k ≠ sub → SMap.find t.dram.dq k = SMap.find s.dram.dq k)
           ∧ (SMap.findD t.dram.dq sub []).length = q.length
           ∧ ∀ (i j : Nat) (x y : DReq), (SMap.findD t.dram.dq sub [])[i]? = some x → (SMap.findD t.dram.dq sub [])[j]? = some y →
               x.line = line → y.aged = false → i < j)
       ∧ (s.channelServes ch = true → SMap.findD s.dram.pauseAt (ch * 2 + sub) (max s.now at_) ≤ max s.now at_ →
         sub < 2 → lane < 64 → ∃ t : State, exec (.retrainPause ch sub eye lane [] at_) s = .next t
           ∧ t.getF F.DC_RETRAIN.EYE_NOW ch = min 255 eye
           ∧ t.getF F.DC_RETRAIN.PAUSES ch = satAdd F.DC_RETRAIN.PAUSES.w (s.getF F.DC_RETRAIN.PAUSES ch) 1
           ∧ SMap.find t.dram.pauseAt (ch * 2 + sub)
               = some (SMap.findD s.dram.pauseAt (ch * 2 + sub) (max s.now at_) + 10000000)
           ∧ (eye < s.getF F.DC_RETRAIN.MIN_EYE ch → t.getF F.DC_STATUS.EYE_LOW ch = 1)
           ∧ t.mem = s.mem ∧ t.lines = s.lines ∧ t.power = s.power)
       ∧ (s.channelServes ch = true → ind.foldl max 0 < 2 → exec (.refreshRatePoll ch ind at_) s =
           .next (now.setF F.DC_REFRESH_CTL.RATE ch (ind.foldl max 0)))
       ∧ (s.channelServes ch = true → 2 ≤ ind.foldl max 0 → ∃ t : State, exec (.refreshRatePoll ch ind at_) s = .next t
           ∧ FlagSet (now.setF F.DC_REFRESH_CTL.RATE ch 1) t F.DC_STATUS.HOT ch)
       ∧ (s.channelServes ch = true → exec (.refreshDue ch busy at_) s = .next (
           let p := s.getF F.DC_REFRESH_CTL.POSTPONED ch
           if busy = true ∧ p < 4 then (now.endStreaks ch).setF F.DC_REFRESH_CTL.POSTPONED ch (p + 1)
           else ((now.endStreaks ch).refresh ch).setF F.DC_REFRESH_CTL.POSTPONED ch 0)))

/-- Row repairs end with a spare or retire their row, and the Trowel counts each read and each late pass (06 R192, 06 R193, 06
R194, 06 R195, 06 R196, 06 R197). -/
def Obligations.RowRepairsAndTrowelComplete : Prop :=
  ∀ (s : State) (via : Via) (ch tier at_ : Nat) (loc : DramLoc) (v : Word) (line : Option Nat),
    RegsOrdered s → ch < 32 →
    let now := s.tick at_
    let cmd (op : Nat) : Word := withBits (v ||| 0x20000000#64) 0 2 op
    let u (op : Nat) : State := now.writeFields .DC_PPR_CMD ch .full (cmd op) false
    (s.dram.candidates.contains (s.rowAt loc) = true → s.rowBusy (s.rowAt loc) = false →
      s.isSet F.DC_PPR_CMD.BUSY ch = false →
      exec (.pprRepairDone ch loc true at_) s = .next (State.settle (now.rowRepaired ch (s.rowAt loc) true)))
    ∧ (Served s via (accOff .DC_PPR_CMD ch .full) → s.absent .DC_PPR_CMD ch = false →
      s.isSet F.DC_PPR_CMD.BUSY ch = false →
      (NoRsv .DC_PPR_CMD .full (cmd 1) → (u 1).rowBusy ((u 1).pprRow ch) = false →
        exec (.softPpr via ch v true at_) s = .next (State.settle
          (((u 1).rowRepaired ch ((u 1).pprRow ch) true).pprCode ch 0)))
      ∧ (NoRsv .DC_PPR_CMD .full (cmd 2) → exec (.hardPpr via ch v true at_) s = .next (State.settle
          (if s.power.state = 10 ∨ s.groupStopped ch = true then ((u 2).hardRepair ch ((u 2).pprRow ch) true).pprCode ch 0
           else (u 2).pprCode ch 12))))
    ∧ (s.isSet F.DC_TROWEL_CTL.EN 0 = true → s.power.throttle = false → tier < 3 →
      let count (x : State) (k : Nat) : State :=
        let n := x.dram.trowelDone.getD k 0 + 1
        { x with dram := { x.dram with
          trowelDone := x.dram.trowelDone.set k n,
          trowelFin := if (x.dram.trowelFin.getD k none).isNone = true ∧ x.trowelTotal k ≤ n
            then x.dram.trowelFin.set k (some x.now) else x.dram.trowelFin } }
      exec (.trowelReadDone (.d line loc { poisonPat := false, errs := [] }) at_) s
        = .next (State.settle (count (now.useRow (loc.ch * 2 + loc.sub) (s.rowAt loc)) 0))
      ∧ (∀ g row, exec (.trowelReadDone (.p g row none none) at_) s = .next (State.settle (count now 1)))
      ∧ (∀ frame step entry, (s.fpaOf (spanOfFrame frame) (frame % 256)).isSome = true → step ≤ 4 →
          exec (.trowelReadDone (.f frame step entry) at_) s
            = .next (State.settle (count (now.countFrameRead frame step entry) 2))))
    ∧ (s.isSet F.DC_TROWEL_CTL.EN 0 = true → s.dram.trowelStart.getD tier 0 + s.trowelNs tier ≤ max s.now at_ →
      let fresh : State := { now with dram := { s.dram with
        trowelStart := s.dram.trowelStart.set tier (max s.now at_), trowelDone := s.dram.trowelDone.set tier 0,
        trowelFin := s.dram.trowelFin.set tier none } }
      let bit := match tier with
        | 0 => F.DC_TROWEL_STAT.LATE_D | 1 => F.DC_TROWEL_STAT.LATE_P | _ => F.DC_TROWEL_STAT.LATE_F
      let inTime : Prop := match s.dram.trowelFin.getD tier none with
        | some x => x < s.dram.trowelStart.getD tier 0 + s.trowelNs tier
        | none => s.trowelTotal tier ≤ s.dram.trowelDone.getD tier 0
      (inTime → exec (.trowelPeriodEnd tier at_) s = .next (fresh.put bit 0))
      ∧ (¬inTime → ∃ x : State, exec (.trowelPeriodEnd tier at_) s = .next x ∧ FlagSet fresh x bit 0))

/-! The flash tier (07). -/

/-- Frame reads fill their misses, erased bands are free, and the Fulling mode follows the free percentage (07 R205, 07 R220,
07 R225, 07 R227, 07 R229, 07 R218, 07 R219, 07 R231, 07 Table 7.9). -/
def Obligations.FlashReadsErasesAndFullingComplete : Prop :=
  (∀ (s : State) (frame step entry band at_ : Nat) (ok : Bool) (x : Band) (lid junction : BitVec 12),
     let now := s.tick at_
     let fills (u : State) : List Nat := nub ((u.crown.misses.filter (fun l => !u.inTierD l) ++ u.crown.verifies).filter
       (fun l => frameOfLine l == frame && (u.repairWaiters l).isEmpty))
     let n := now.countFrameRead frame (if ok then step else 5) entry
     ((s.fpaOf (spanOfFrame frame) (frame % 256)).isSome = true → exec (.flashReadDone frame step entry ok at_) s =
       .next (State.settle (if fills n = [] ∧ ok = false then n.repairFrame frame
         else (fills n).foldl (fun t l => t.frameFill l ok) n)) ∧ n.mem = s.mem ∧ n.lines.dirty = s.lines.dirty)
     ∧ (SMap.find s.flash.bands band = some x → x.st = .erasing → (s.bandBlocks band x).Nodup →
       (∀ p ∈ s.bandBlocks band x, p.2 < 2 ^ 20) →
       ∃ u : State, exec (.eraseDone band [] at_) s = .next (State.settle u)
         ∧ (∃ y : Band, SMap.find u.flash.bands band = some y ∧ y.valid = 0 ∧ y.copied = 0
             ∧ ((∀ z ∈ s.tier.spans, z.2.move ≠ some .f) → y.st = .free))
         ∧ (∀ p ∈ s.bandBlocks band x, u.block p.1 p.2 = { s.block p.1 p.2 with
             erases := (s.block p.1 p.2).erases + 1, reads := 0 })
         ∧ u.mem = s.mem ∧ u.lines = s.lines ∧ u.bay = s.bay ∧ u.power = s.power)
     ∧ (let t : State := (now.put F.GB_TEMP.LID lid.toNat).put F.GB_TEMP.JUNCTION junction.toNat
        exec (.tempSample lid junction at_) s = .next { t with flash := { s.flash with
          lidBins := s.flash.lidBins.set (tempBin lid.toInt) (satAdd 32 (s.flash.lidBins.getD (tempBin lid.toInt) 0) 1),
          juncBins := s.flash.juncBins.set (tempBin junction.toInt)
            (satAdd 32 (s.flash.juncBins.getD (tempBin junction.toInt) 0) 1) } }
        ∧ (RegsOrdered s → t.get F.GB_TEMP.LID = lid.toNat ∧ t.get F.GB_TEMP.JUNCTION = junction.toNat))
     ∧ (s.flash.build.isSome = true → 11 ≤ s.power.state → s.power.state ≤ 20 →
       exec (.zqCalibrationTimer at_) s = .next { now with flash := { s.flash with zqAt := max s.now at_ } }))
  ∧ (∀ (s : State) (via : Via) (w : AccW) (v : Word) (at_ : Nat), RegsOrdered s →
       let now := s.tick at_
       let free := s.freePct
       let low := s.get F.FL_FULL_CTL.LOW_PCT
       let crit := s.get F.FL_FULL_CTL.CRIT_PCT
       let high := s.get F.FL_FULL_CTL.HIGH_PCT
       let bg := s.get F.FL_FULL_CTL.BG_PCT
       let m := s.get F.FL_FULL_STAT.MODE
       (s.flash.build.isSome = true → 11 < s.power.state → s.power.state < 16 →
         crit < low → low < high → high ≤ bg →
         ∃ u : State, exec (.fullingWindow at_) s = .next (State.settle u)
           ∧ u.get F.FL_FULL_STAT.FREE_PCT = free
           ∧ (free < crit → u.get F.FL_FULL_STAT.MODE = 3)
           ∧ (crit ≤ free → free < low → u.get F.FL_FULL_STAT.MODE = if m = 3 then 3 else 2)
           ∧ (low ≤ free → free < high → u.get F.FL_FULL_STAT.MODE = if 2 ≤ m then 2 else 1)
           ∧ (high ≤ free → free < bg → u.get F.FL_FULL_STAT.MODE = 1)
           ∧ (bg ≤ free → u.get F.FL_FULL_STAT.MODE = 0)
           ∧ u.mem = s.mem ∧ u.lines = s.lines ∧ u.bay = s.bay ∧ u.power = s.power)
       ∧ (Served s via (accOff .FL_FULL_CTL 0 w) → NoRsv .FL_FULL_CTL w v →
         let n := now.writeFields .FL_FULL_CTL 0 w v false
         let good := n.get F.FL_FULL_CTL.CRIT_PCT < n.get F.FL_FULL_CTL.LOW_PCT
           ∧ n.get F.FL_FULL_CTL.LOW_PCT < n.get F.FL_FULL_CTL.HIGH_PCT
           ∧ n.get F.FL_FULL_CTL.HIGH_PCT ≤ n.get F.FL_FULL_CTL.BG_PCT
         (good → exec (.flFullCtlWrite via w v at_) s = .next n)
         ∧ (¬good → ∃ t : State, exec (.flFullCtlWrite via w v at_) s = .next t
             ∧ FlagSet now t F.FL_DEV_STATUS.CTL_REFUSED 0)))

/-- Programs, commits, packings and checkpoints of the flash map change no byte, mark or dirty line (04 R130, 07 R211, 07
R212, 07 R213, 07 R214). -/
def Obligations.FlashMapChangesKeepTheBytes : Prop :=
  ∀ (s : State) (id ch block span at_ : Nat) (c : FChange) (e : FSpan),
    let now := s.tick at_
    let f := s.flash
    (f.changes.find? (fun x => x.id == id) = some c → exec (.flashProgramDone id true ch block at_) s = .next { now with
      flash := { f with changes := f.changes.map (fun x => if x.id = id then { x with programmed := true } else x) } })
    ∧ (f.changes.find? (fun x => x.id == id && x.programmed) = some c → id < f.nextChange →
      ∃ u : State, exec (.mapCommitDone id at_) s = .next (State.settle u)
        ∧ (∀ x ∈ f.changes, x.id = id → x ∉ u.flash.changes)
        ∧ (∀ fr, u.written fr = s.written fr)
        ∧ u.mem = s.mem ∧ u.lines = s.lines ∧ u.bay = s.bay ∧ u.twin = s.twin ∧ u.power = s.power)
    ∧ (SMap.find f.map span = some e → e.fine.isSome = true →
      (e.lastSubw + max 1 (s.get F.FL_MAP_CTL.FINE_IDLE_S)) * 1000000000 ≤ max s.now at_ →
      exec (.fineIdleExpiry span at_) s = .next (now.toSpan span) ∧ (now.toSpan span).mem = s.mem)
    ∧ (f.ckptRunning = false → now.ckptDue = true → f.ckptAt + 10000000000 ≤ max s.now at_ → 11 < s.power.state →
      s.power.state < 16 → exec (.checkpointTrigger at_) s = .next { now with flash := { f with
        ckptRunning := true, ckptAt := max s.now at_, ckptFrom := f.jseq, ckptSeq := f.ckptSeq + 1 } })
    ∧ (f.ckptRunning = true → exec (.checkpointDone at_) s = .next { now with flash := { f with
        ckptRunning := false, rootSeq := f.rootSeq + 1, jseq := f.jseq + 1, jpending := f.jpending + 1,
        roots := SMap.put f.roots ((f.rootSeq + 1) % 2) ({
          ckpt := f.ckptSeq, start := f.ckptFrom, slot := f.ckptFrom % max 1 f.jsize, seq := f.rootSeq + 1 } : MapRoot),
        ring := (f.ring ++ [({ seq := f.jseq, type := 8, frame := 0, count := 0, key := 0, loc := 0, mask := [] } : JRec)]).filter
          (fun x => decide (f.ckptFrom ≤ x.seq)) } })

/-! Stripes (08). -/

/-- A journal frame opens its rows, missing units go to substitutes, allowances keep the floor, and reshape moves spans (08
R239, 08 R243, 08 R251, 08 R252, 08 R253, 08 R254, 08 R258, 08 Table 8.6, 08 Table 8.7, 08 Table 8.11). -/
def Obligations.JournalRebuildAndReshapeComplete : Prop :=
  (∀ (s : State) (g row at_ : Nat) (a b : Bool),
     let now := s.tick at_
     let k := s.skim g
     let reached : Bool := k.writing && (a || b) && (a || !s.posInService g k.a) && (b || !s.posInService g k.b)
     (reached = true → k.slot + 1 < 4096 → ∃ u : State,
       exec (.skimJournalWriteDone g a b at_) s = .next (State.settle (u.startJournal g))
       ∧ u.skim g = { k with
           writing := false, seq := k.seq + 1, slot := k.slot + 1, kind := (u.skim g).kind,
           inFlight := (u.skim g).inFlight, batch := [] }
       ∧ (∀ r, (u.skim g).inFlight.contains r = (k.inFlight.contains r || k.batch.contains r))
       ∧ (∀ j, j ≠ g → u.skim j = s.skim j)
       ∧ u = { now with stripe := { s.stripe with skim := u.stripe.skim }, tier := { s.tier with
           regions := u.tier.regions, modWrites := u.tier.modWrites } })
     ∧ (reached = false → exec (.skimJournalWriteDone g a b at_) s = .next now)
     ∧ exec (.stripeWriteDone g row at_) s = .next (State.settle (State.startJournal
         (if s.lines.running.any (fun x => x.2.1 == g && s.rowOf x.2.2.1 == row) = true then now
          else now.putSkim g { k with inFlight := k.inFlight.filter (fun r => r != row) }) g)))
  ∧ (∀ (s : State) (m row at_ : Nat) (x : Member), SMap.find s.stripe.members m = some x → m < 32 →
       let now := s.tick at_
       let known := s.stripe.subst.any (fun e => e.1 == m && e.2.1 == s.substPart m row)
       let room := s.spareRoom m (s.substituteFor m row)
       let u : State := (now.substitute m row).bump F.ST_REBUILD_STAT.ROWS_DONE 0 1
       let back : State := { now with stripe := { s.stripe with
         subst := s.stripe.subst.filter (fun e => !(e.1 == m && e.2.1 == row)) } }
       (x.st = .rebuilding → (known = true ∨ room = true) →
         (1 < x.rowsLeft → exec (.rebuildUnitDone m row true at_) s = .next (u.putMember m { x with rowsLeft := x.rowsLeft - 1 }))
         ∧ (x.rowsLeft = 1 → exec (.rebuildUnitDone m row true at_) s = .next (State.rebuildEnded
             ((u.putMember m { x with st := .lost, rowsLeft := 0 }).raise F.ST_STATUS.REBUILD_DONE)))
         ∧ u.stripe.subst.any (fun e => e.1 == m && e.2.1 == s.substPart m row) = true)
       ∧ (x.st = .rebuilding → ∀ spare, (spare = false ∨ known = false ∧ room = false) →
         exec (.rebuildUnitDone m row spare at_) s = .next (State.rebuildEnded
           ((now.putMember m { x with st := .lost }).raise F.ST_STATUS.SPARE_SHORT)))
       ∧ (x.st = .copyBack →
         (1 < x.rowsLeft → exec (.rebuildUnitDone m row true at_) s = .next (back.putMember m { x with rowsLeft := x.rowsLeft - 1 }))
         ∧ (x.rowsLeft = 1 → ∃ v : State, exec (.rebuildUnitDone m row true at_) s =
             .next (State.settle (State.rebuildEnded (State.updateSaveRate (v.raise F.ST_STATUS.COPYBACK_DONE))))
             ∧ SMap.find v.stripe.members m = some { x with st := .inService, rowsLeft := 0 }
             ∧ (∀ e ∈ v.stripe.subst, e.1 ≠ m) ∧ v.lines.saveOut.contains m = false
             ∧ v = { now with
                 stripe := { s.stripe with subst := v.stripe.subst, members := v.stripe.members },
                 lines := { s.lines with saveOut := v.lines.saveOut } })))
  ∧ (∀ (s : State) (hosts : List (Nat × Nat)) (at_ : Nat), RegsOrdered s → ∃ t : State,
       let host (m : Nat) : Nat := ((hosts.find? (fun x => x.1 == m)).map Prod.snd).getD 0
       let full (m : Nat) : Nat := s.memberBw m / 1000
       let slack (m : Nat) : Nat := full m - min (full m) (host m)
       let floor : Nat := min 100 (max 1 (s.get F.ST_REBUILD_CTL.FLOOR_PCT))
       let share (m : Nat) : Nat := max floor (if full m = 0 then 0 else min 100 (slack m * 100 / full m))
       let atWork := s.stripe.members.filter (fun x => x.2.st == .rebuilding || x.2.st == .copyBack)
       exec (.stripeAllowanceWindow hosts at_) s = .next t
       ∧ (∀ x ∈ s.stripe.members, SMap.find t.stripe.allowance x.1 = some (max (full x.1 * floor / 100) (slack x.1)))
       ∧ (∀ x ∈ atWork, t.get F.ST_REBUILD_STAT.SHARE_PCT ≤ share x.1)
       ∧ (atWork ≠ [] → ∃ x ∈ atWork, t.get F.ST_REBUILD_STAT.SHARE_PCT = share x.1)
       ∧ t = { s.tick at_ with
           regs := t.regs, stripe := { (s.tick at_).resyncWindow.stripe with allowance := t.stripe.allowance } })
  ∧ (∀ (s : State) (via : Via) (g old : StripeGeom) (span group at_ : Nat) (slots : List (Nat × Nat)), RegsOrdered s →
       let now := s.tick at_
       let r := s.stripe.reshape
       let u (op : Nat) (x : Reshape) : State :=
         { now.put F.ST_RESHAPE_CMD.OP op with stripe := { s.stripe with reshape := x } }
       (Taken s via .ST_RESHAPE_CMD 0 → s.isSet F.ST_RESHAPE_CMD.BUSY 0 = false →
         (s.stripe.target = some g → s.stripe.geom = some old →
           (g.groups ≠ old.groups ∨ g.pWidth ≠ old.pWidth ∨ g.pSpare ≠ old.pSpare) → s.rebuilding = false →
           s.stripe.resyncFull = false → r.st = 0 → s.framesIn .p (fun _ => true) ≤ s.geomP g → s.extentsFree g = true →
           (g.fWidth ≠ old.fWidth → s.framesIn .f (fun _ => true) ≤ s.geomF g.fWidth) →
           exec (.reshapeStart via at_) s = .next (State.checkReshape (State.reshapeCode (u 1 {
             st := 1, tier := 0, total := (s.tier.spans.filter (fun x => x.2.home == .p)).length, cursor := 0,
             sinceCursor := 0, saved := 0, autoPaused := false, noRoom := false }) 0)))
         ∧ (s.stripe.target = some g → s.stripe.geom = some old →
           g.groups = old.groups → g.pWidth = old.pWidth → g.pSpare = old.pSpare → g.fWidth ≠ old.fWidth →
           s.rebuilding = false → s.stripe.resyncFull = false → r.st = 0 →
           s.framesIn .f (fun _ => true) ≤ s.geomF g.fWidth →
           exec (.reshapeStart via at_) s = .next (State.checkReshape (State.reshapeCode
             ((now.put F.ST_RESHAPE_CMD.OP 1).reshapeF old g) 0)))
         ∧ (r.st = 1 → exec (.reshapePause via at_) s = .next (State.reshapeCode
             (State.raise (u 2 { r with st := 2, autoPaused := false }) F.ST_STATUS.RESHAPE_PAUSED) 0))
         ∧ (r.st = 2 → exec (.reshapeResume via at_) s = .next
             (State.reshapeCode (u 3 { r with st := 1, autoPaused := false }) 0)))
       ∧ (r.tier = 0 → r.st = 1 → s.spanDirty span = false → (slots.map Prod.fst).Nodup → ∃ v : State,
           exec (.reshapeSpanDone span group slots at_) s = .next (State.settle (State.checkReshape v))
           ∧ v.stripe.reshape = { r with
               cursor := max r.cursor (span + 1),
               sinceCursor := if r.sinceCursor + 1 = 256 then 0 else r.sinceCursor + 1,
               saved := if r.sinceCursor + 1 = 256 then max r.cursor (span + 1) else r.saved }
           ∧ (∀ x ∈ slots, SMap.has s.tier.pmap (span * 256 + x.1) = true →
               SMap.find v.tier.pmap (span * 256 + x.1) = some (group, x.2))
           ∧ (∀ f, (∀ x ∈ slots, f ≠ span * 256 + x.1) → SMap.find v.tier.pmap f = SMap.find s.tier.pmap f)
           ∧ v = { now with stripe := { s.stripe with reshape := v.stripe.reshape }, tier := { s.tier with
               pmap := v.tier.pmap, regions := v.tier.regions, modWrites := v.tier.modWrites } }))

/-- P of a row with its other data units gives a lost unit's bytes, and Q weighs each unit by a power of 2 over 0x11D (08
R235, 08 R250, 08 R251). -/
def Obligations.ParityGivesBackALostUnit : Prop :=
  (∀ (n i : Nat) (units : List (List Nat)), (∀ u ∈ units, u.length = n) → i < units.length →
     fromP (stripeP n units) (units.eraseIdx i) = units.getD i [])
  ∧ (∀ n k : Nat, stripeP n (List.replicate k (List.replicate n 0)) = List.replicate n 0
       ∧ stripeQ n (List.replicate k (List.replicate n 0)) = List.replicate n 0)
  ∧ (∀ (n : Nat) (d : List Nat) (units : List (List Nat)), d.length = n → (∀ u ∈ units, u.length = n) →
       stripeP n (d :: units) = xorBytes d (stripeP n units)
       ∧ stripeQ n (d :: units) = xorBytes d ((stripeQ n units).map (gfDouble 0x11D))
       ∧ ∀ b, b < 256 → gfDouble 0x11D b = gfMul 0x11D 2 b ∧ gfDouble 0x11D b < 256)

/-! Queues (09). -/

/-- Doorbells move the tails, one queue fetches at a time, and an ended descriptor stores its entry and interrupts (09 R266,
09 R267, 09 R269, 09 R272, 09 R274, 09 R275, 09 R276, 09 Table 9.7). -/
def Obligations.QueuesFetchAndCompleteTheirDescriptors : Prop :=
  (∀ (s : State) (via : Via) (q at_ : Nat) (v : Word) (w : AccW) (e : QEntry), Served s via (0x2000000 + 8 * q) →
     let now := s.tick at_
     let n := 2 ^ e.sqLog2
     let m := 2 ^ e.cqLog2
     let tail := bitsOf v 0 16
     let head := bitsOf v 32 16
     (s.queue q = some e → (match via with | .mgmt => True | .host p l => SMap.find s.bay.ldTenant (p * 16 + l) = some e.tenant) →
       (v.getLsbD 16 = true → tail < n ∧ (e.sqTail + n - e.sqHead) % n ≤ (tail + n - e.sqHead) % n) →
       (v.getLsbD 48 = true → head < m ∧ (head + m - e.cqHead) % m ≤ (e.cqTail + m - e.cqHead) % m) →
       v.getLsbD 63 = false → s.queues.contexts.contains q = true → (s.cap q).done = [] →
       exec (.doorbellWrite via q .full v at_) s = .next (State.settle { now with queues := { s.queues with
         table := SMap.put s.queues.table q { e with
           sqTail := if v.getLsbD 16 then tail else e.sqTail, cqHead := if v.getLsbD 48 then head else e.cqHead },
         phaseStop := removeNum q s.queues.phaseStop } }))
     ∧ (s.queue q = none → exec (.doorbellWrite via q .full v at_) s = .next (State.settle
         (State.raiseArg (now.logQueue q 13 (viaPort via) (viaLd via)) F.QU_STATUS.DB_INVALID 0 (.log .QU_ERR_LOG 0))))
     ∧ (w ≠ .full → exec (.doorbellWrite via q w v at_) s = .next
         (State.raiseArg (now.logQueue q 7 (viaPort via) (viaLd via)) F.QU_STATUS.DB_BAD 0 (.log .QU_ERR_LOG 0))))
  ∧ (∀ (s : State) (at_ : Nat), SMap.wf s.queues.table = true →
       let now := s.tick at_
       let work := s.queues.table.filter (fun x => s.mayFetch x.1 x.2)
       let ready := work.filter (fun x => s.queues.contexts.contains x.1)
       let turns (u : State) (c : Nat) : Nat := u.queues.arb.getD c 0
       let fresh : Bool := !ready.any (fun x => decide (0 < turns s x.2.prio))
       (s.inService = true → ready ≠ [] → (∀ x ∈ ready, x.2.prio < 4) → s.queues.arb.length = 4 →
         ∃ x ∈ ready, ∃ u : State, exec (.descriptorFetch at_) s = .next (State.settle (u.fetchFrom x.1 x.2))
           ∧ (∀ y ∈ ready, y.2.prio < x.2.prio → fresh = false ∧ turns s y.2.prio = 0)
           ∧ turns u x.2.prio = (if fresh then [8, 4, 2, 1].getD x.2.prio 0 else turns s x.2.prio) - 1
           ∧ u = { now with queues := { s.queues with arb := u.queues.arb, lastOf := u.queues.lastOf } })
       ∧ (s.inService = true → ready = [] → exec (.descriptorFetch at_) s =
           .next ((SMap.keys work).foldl State.touchContext now)))
  ∧ (∀ (s : State) (q ix at_ : Nat) (x : Desc) (e : QEntry), s.desc q ix = some x → s.queue q = some e →
       let now := s.tick at_
       let fenced : Bool := s.queues.descs.any (fun y => y.q == q && !y.own && decide (y.ix < ix) && descOp y.d == 0x04
         && y.st != .writing)
       (x.st = .ended → x.own = false → fenced = false →
         (descNoCqe x.d = true ∧ x.code = 0 → exec (.descriptorDone q ix at_) s =
           .next (State.settle (State.afterDesc (now.delDesc q ix) q)))
         ∧ (descNoCqe x.d = false ∨ x.code ≠ 0 → exec (.descriptorDone q ix at_) s = .next (State.settle (State.afterDesc
           (now.cqWrite x e (descTag x.d) x.code 0 (descIrq x.d || x.code != 0)) q))))
       ∧ (x.st = .fetched → descOp x.d = 0x04 → exec (.fence q ix at_) s =
           .next (if s.fencePassed x e = true then now.endDesc q ix 0 else now)))
  ∧ (∀ (s : State) (x : Desc) (e : QEntry) (tag code flags : Nat) (irq : Bool), e.cqBase % 4096 = 0 →
       let o := e.cqBase + 16 * e.cqTail
       let tail := (e.cqTail + 1) % 2 ^ e.cqLog2
       let entry := leBytes 8 s.now ++ leBytes 4 tag ++ leBytes 1 code ++ leBytes 1 (flags + bit e.cqPhase) ++ leBytes 2 e.sqHead
       let u := State.putDesc (State.touchContext (s.putQueue x.q { e with
         cqTail := tail, cqPhase := if tail = 0 then !e.cqPhase else e.cqPhase }) x.q) { x with st := .writing, notify := irq }
       s.cqWrite x e tag code flags irq = u.submitQ x (.write (beRange (o % 64) 16)
         (lineOfBytes (List.replicate (o % 64) 0#8 ++ entry)) false) (o / 64 * 64))
  ∧ (∀ (s : State) (q at_ n t : Nat) (e : QEntry),
       let now := s.tick at_
       (s.queue q = some e → SMap.find s.queues.irq q = some (n, t) → n ≠ 0 → e.irqUs ≠ 0 →
         t + e.irqUs * 1000 ≤ max s.now at_ → SMap.has s.bay.ldTenant (e.port * 16 + e.ld) = true → s.portUp e.port = true →
         exec (.irqCoalesceTimer q at_) s = .next
           (State.msix { now with queues := { s.queues with irq := SMap.del s.queues.irq q } } e.port e.ld e.vector))
       ∧ (s.queues.ctxWait.contains q = true → s.queue q = some e →
         (s.queues.contexts.length < Config.maxContexts → exec (.contextLoadDone q at_) s = .next { now with queues := { s.queues with
           contexts := s.queues.contexts ++ [q], ctxWait := removeNum q s.queues.ctxWait } })
         ∧ (Config.maxContexts ≤ s.queues.contexts.length → (∃ c ∈ s.queues.contexts, s.inFlight c = 0) →
           ∃ c ∈ s.queues.contexts, s.inFlight c = 0 ∧ exec (.contextLoadDone q at_) s = .next { now with
             freeIx := s.freeIx + 1,
             queues := { s.queues with
               contexts := s.queues.contexts.map (fun k => if k = c then q else k), ctxWait := removeNum q s.queues.ctxWait } })
         ∧ (Config.maxContexts ≤ s.queues.contexts.length → (∀ c ∈ s.queues.contexts, s.inFlight c ≠ 0) →
           exec (.contextLoadDone q at_) s = .next now)))

/-- A descriptor that may start sends the requests of its opcode, and CAPTURE places one record (09 R270, 09 R273, 09 R279, 09
R280, 09 R281, 09 Table 9.9, 02 R82, 04 R136, 04 R137, 07 R223). -/
def Obligations.DescriptorsCarryOutTheirOpcodes : Prop :=
  (∀ (s : State) (q ix at_ : Nat) (x : Desc) (e : QEntry),
     let now := s.tick at_
     let src := descSrc x.d
     let dst := descDst x.d
     let len := descLen x.d
     let n := (dst + len - 1) / 64 - dst / 64 + 1
     let run (k : Nat) : State := now.putDesc { x with st := .running k }
     let parted : Host.Outcome State Fault Refusal :=
       .next (State.settle ((run 1).submitQ x (.ctrl (descPart x.d src dst len)) dst))
     let inBolt : Prop := 0 < len ∧ boltOfOff dst = boltOfOff (dst + len - 1)
     (Starts s q ix 0x01 x e → 0 < len → src % 64 + len ≤ 64 → dst % 64 + len ≤ 64 → exec (.copy q ix at_) s =
       .next (State.settle (State.addAwaiting ((run 1).submitQ x (.copyTo (s.bay.nextId + 1) (src % 64) len (dst % 64)) src)
         x e (dst / 64 * 64) (beRange (dst % 64) len) 1)))
     ∧ (Starts s q ix 0x01 x e → exec (.copy q ix at_) s = .next (State.settle (now.startCopy x e)))
     ∧ (Starts s q ix 0x02 x e → exec (.fill q ix at_) s = .next (State.settle ((List.range n).foldl (fun t j =>
         let l := (dst / 64 + j) * 64
         let a := max dst l
         t.submitQ x (.write (beRange (a % 64) (min (dst + len) (l + 64) - a))
           (lineOfWords (List.replicate 8 (lineWord x.d 4))) false) l) (run n))))
     ∧ (Starts s q ix 0x03 x e → inBolt → exec (.flush q ix at_) s = parted)
     ∧ (Starts s q ix 0x05 x e → inBolt → (∀ t, (s.quota t).p = 0 ∧ (s.quota t).f = 0) → exec (.migrate q ix at_) s = parted)
     ∧ (Starts s q ix 0x05 x e → inBolt → descParam x.d = 1 → s.isActive (boltOfOff dst) = true →
         (let t := s.tenantOf (boltOfOff dst)
          (s.quota t).f ≠ 0 ∧ s.partFrames .p (dst, len) ≠ 0 ∧ (s.quota t).f < s.useIn .f t + s.partFrames .p (dst, len)) →
         exec (.migrate q ix at_) s = .next (State.settle (now.endDesc q ix 2)))
     ∧ (Starts s q ix 0x06 x e → inBolt → (∀ t, (s.quota t).d = 0 ∧ (s.quota t).p = 0) → exec (.pin q ix at_) s = parted)
     ∧ (Starts s q ix 0x07 x e → inBolt → exec (.unpin q ix at_) s = parted)
     ∧ (Starts s q ix 0x08 x e → inBolt → exec (.discard q ix at_) s = parted)
     ∧ (Starts s q ix 0x0C x e → 0 < len → boltOfOff src = boltOfOff (src + len - 1) → exec (.verify q ix at_) s =
         .next (State.settle (State.submitQ (now.putDesc { x with st := .running 1, more := true }) x
           (.ctrl (descPart x.d src dst len)) src)))
     ∧ (s.desc q ix = some x → x.st = .loaded → descOp x.d = 0x0C → exec (.verify q ix at_) s =
         .next (State.settle (now.verifyReport x))))
  ∧ (∀ (s : State) (q ix at_ : Nat) (x : Desc) (e : QEntry),
       let now := s.tick at_
       let n := descLen x.d
       let w := e.windowOf x.stamp
       let c := s.cap q
       let record := leBytes 8 x.stamp ++ leBytes 4 c.seq ++ leBytes 2 n ++ leBytes 1 1 ++ leBytes 1 0
         ++ (List.range n).map (fun k => lineByte x.d (32 + k)) ++ List.replicate (48 - n) 0#8
       Starts s q ix 0x0A x e → s.queues.descs.any (fun y => y.q == q && decide (y.ix < ix) && unplaced y) = false →
       (descSrc x.d = 0 → n ≤ 32 → c.window = none ∨ c.window = some w → e.wrPtr + 1 ≤ e.units →
         (2 ≤ e.freeUnits → e.ringBase % 64 = 0 → exec (.capture q ix at_) s = .next (State.settle (State.submitQ
           (State.putDesc (State.putQueue (now.putCap q { c with
               seq := c.seq + 1, window := some w, records := c.records + 1, crc := crcBytes c.crc record })
             q { e with wrPtr := (e.wrPtr + 1) % e.units, winSeq := w % 2 ^ 32 })
             { x with st := .running 1, more := false, held := false })
           x (.write fullBe (lineOfBytes record) false) (e.ringBase + 64 * e.wrPtr))))
         ∧ (e.freeUnits < 2 → e.fullMode = 0 → exec (.capture q ix at_) s =
             .next (State.settle (now.putDesc { x with held := true })))
         ∧ (e.freeUnits < 2 → e.fullMode = 1 → exec (.capture q ix at_) s = .next (State.settle (State.endDesc (State.raise
             (State.bump (now.putCap q { c with dropped := c.dropped + 1 }) F.QU_CAP_STAT.DROPPED 0 1) F.QU_STATUS.CAP_DROP)
             q ix 9))))
       ∧ (descSrc x.d ≠ 0 → exec (.capture q ix at_) s = .next (State.settle (now.startPayload x))))
  ∧ (∀ (s : State) (q i win at_ : Nat) (x : Desc) (e : QEntry) (k : Closing) (l : List Closing), s.queue q = some e →
       let now := s.tick at_
       let c := s.cap q
       (c.window = some win → win < e.windowOf (max s.now at_) →
         s.queues.descs.any (fun y => y.q == q && unplaced y && decide (e.windowOf y.stamp ≤ win)) = false →
         exec (.captureWindowEnd q at_) s = .next (State.settle (State.issueEnds (State.putQueue (now.putCap q { c with
             seq := c.seq + 1, window := none, records := 0, dropped := 0, crc := 0xFFFFFFFF#32,
             closings := c.closings ++ [{
               win := win, unit := e.wrPtr, seq := c.seq, records := c.records, dropped := c.dropped, crc := c.crc,
               stop := false, restart := false, ix := none }] })
           q { e with wrPtr := (e.wrPtr + 1) % e.units }) q)))
       ∧ (c.closings = k :: l → k.ix = some i → s.desc q i = some x → x.st = .ended → x.code = 0 → k.restart = false →
         let u := (k.unit + 1) % e.units
         exec (.windowEndDone q at_) s = .next (State.settle (State.flushWindows (State.issueEnds
           (State.putCap (now.delDesc q x.ix) q { c with
             closings := l, closed := if c.scanned then c.closed ++ [u] else c.closed, saved := (u, e.rdPtr, k.seq + 1),
             done := c.done ++ [k.win] }) q) q 64))))

/-- CREATE, DELETE, START, STOP, RESET and READ_ENTRY do what Table 9.14 gives, and a STOP ends with TIMEOUT (09 R285, 09
Table 9.14, 09 Table 9.13, 09 R265). -/
def Obligations.QueueCommandsComplete : Prop :=
  ∀ (s : State) (via : Via) (a0 a1 a2 a3 a4 : Word) (q at_ : Nat) (e : QEntry), RegsOrdered s →
    let now := s.tick at_
    let given (op : Nat) (l : List (Reg × Word)) : State :=
      State.put (State.put (State.put (withArgs now l) F.QU_CMD.OP op) F.QU_CMD.GO 1) F.QU_CMD_STATUS.BUSY 1
    (Taken s via .QU_CMD 0 → s.isSet F.QU_CMD_STATUS.BUSY 0 = false →
      (let u := given 0x01 [(.QU_CMD_ARG0, a0), (.QU_CMD_ARG1, a1), (.QU_CMD_ARG2, a2), (.QU_CMD_ARG3, a3), (.QU_CMD_ARG4, a4)]
       let n := queueOf a0 a1 a2 a3 a4
       let code := u.createCode n a0 a1 a2 a3 a4
       (code = 0 → q = lowestFreeFrom 0 (SMap.keys s.queues.table) → exec (.create via a0 a1 a2 a3 a4 at_) s = .next
         (State.endQu (State.put { u with queues := { s.queues with
           table := SMap.put s.queues.table q n,
           caps := if n.capture then SMap.put s.queues.caps q {} else s.queues.caps } } F.QU_CMD_STATUS.RESULT q) 0))
       ∧ (code ≠ 0 → exec (.create via a0 a1 a2 a3 a4 at_) s = .next (u.endQu code)))
      ∧ (q = bitsOf a0 0 22 →
        let u (op : Nat) : State := (given op [(.QU_CMD_ARG0, a0)]).put F.QU_CMD_STATUS.RESULT q
        let ended (op code : Nat) : Host.Outcome State Fault Refusal := .next (State.settle ((u op).endQu code))
        (s.queue q = some e →
          (e.st = .stopped →
            (∃ v : State, exec (.delete via a0 at_) s = .next (State.settle (v.endQu 0))
              ∧ v.queues.caps = SMap.del s.queues.caps q ∧ (∀ y ∈ v.queues.descs, y.q ≠ q)
              ∧ v = { u 0x02 with queues := { v.queues with table := SMap.del s.queues.table q } }
              ∧ (∀ y ∈ s.queues.descs, y.q ≠ q → y ∈ v.queues.descs))
            ∧ ((s.cap q).restarted = none → exec (.quStart via a0 at_) s = .next (State.settle (State.endQu
                ((u 0x03).putQueue q { e with st := .running, sqPhase := true, cqPhase := true }) 0)))
            ∧ exec (.quStop via a0 at_) s = ended 0x04 0)
          ∧ (e.st = .stopped ∨ e.st = .error → exec (.quReset via a0 at_) s = .next (State.settle (State.endQu
              (State.putQueue ((u 0x05).clearQueue q false) q { e with
                st := .stopped, sqHead := 0, sqTail := 0, cqTail := 0, cqHead := 0, sqPhase := true, cqPhase := true,
                errCode := 0 }) 0)))
          ∧ (e.st = .running → exec (.delete via a0 at_) s = ended 0x02 12 ∧ exec (.quStart via a0 at_) s = ended 0x03 12
              ∧ exec (.quReset via a0 at_) s = ended 0x05 12)
          ∧ (e.st = .running → e.capture = false → s.inFlight q = 0 → ∃ v : State,
              exec (.quStop via a0 at_) s = .next (State.settle (v.endQu 0)) ∧ v.queue q = some { e with st := .stopped }
              ∧ (∀ k, k ≠ q → v.queue k = s.queue k)
              ∧ v = { u 0x04 with queues := { s.queues with table := v.queues.table, stopping := [] } })
          ∧ (e.st = .running → e.capture = false → s.inFlight q ≠ 0 → exec (.quStop via a0 at_) s = .next (State.settle
              { u 0x04 with queues := { s.queues with
                table := SMap.put s.queues.table q { e with st := .stopping }, stopping := [(q, max s.now at_)] } }))
          ∧ exec (.quReadEntry via a0 at_) s = .next (State.settle (State.endQu (withArgs (u 0x06)
              [(.QU_CMD_ARG0, e.word0), (.QU_CMD_ARG1, e.word3), (.QU_CMD_ARG2, e.word4 (s.inFlight q)),
               (.QU_CMD_ARG3, e.word6), (.QU_CMD_ARG4, e.word7)]) 0)))
        ∧ (s.queue q = none → ∀ x ∈ [(Instr.delete via a0 at_, 0x02), (.quStart via a0 at_, 0x03), (.quStop via a0 at_, 0x04),
            (.quReset via a0 at_, 0x05), (.quReadEntry via a0 at_, 0x06)],
            exec x.1 s = .next (State.endQu (given x.2 [(.QU_CMD_ARG0, a0)]) 13))))
    ∧ (∀ t l, s.queues.stopping = (q, t) :: l →
        (t + s.fwdTimeoutNs ≤ max s.now at_ → exec (.quStopTimeout at_) s = .next
          (State.endQu { now with queues := { s.queues with stopping := [] } } 11))
        ∧ (max s.now at_ < t + s.fwdTimeoutNs → exec (.quStopTimeout at_) s = .next now))

/-! Engines (10). -/

/-- Jobs queue on their engine, start when it is idle, and a fetched tile is VALID in its slot (10 R287, 10 R288, 10 R290, 10
R293, 10 R296, 04 R147, 04 R148, 10 Table 10.1, 10 Table 10.2, 02 R89). -/
def Obligations.JobsStartAndTilesBecomeResident : Prop :=
  (∀ (s : State) (q ix at_ : Nat) (x : Desc) (e : QEntry),
     let now := s.tick at_
     let g := s.engine x.engine
     let queued : Host.Outcome State Fault Refusal := .next (State.settle (State.putDesc
       (now.putEngine x.engine { g with jobs := g.jobs ++ [(q, ix)] }) { x with st := .running 1 }))
     (s.engineUp x.engine = true → g.held < Config.maxJobs →
       (Starts s q ix 0x0B x e → exec (.run q ix at_) s = queued) ∧ (Starts s q ix 0x09 x e → exec (.tileFetch q ix at_) s = queued))
     ∧ (s.engineUp x.engine = true → Config.maxJobs ≤ g.held → Starts s q ix 0x0B x e → exec (.run q ix at_) s = .next (State.settle now))
     ∧ (s.engineUp x.engine = false → Starts s q ix 0x09 x e →
       exec (.tileFetch q ix at_) s = .next (State.settle (now.endDesc q ix 8))))
  ∧ (∀ (s : State) (e q ix at_ : Nat) (src args : TileSrc) (x : Desc) (qe : QEntry) (l : List (Nat × Nat)),
       (s.engine e).run = none → s.engineUp e = true → s.inService = true → s.leavingIn e = none →
       (s.engine e).jobs = (q, ix) :: l → s.desc q ix = some x → s.queue q = some qe → (s.engine e).prefetched = [] →
       (∀ r ∈ s.bay.reqs, ∀ k, r.who = .engine e k → k % 64 < 48) →
       let now := s.tick at_
       let g := (s.engine e).forTenant qe.tenant
       let n := descArg x.d 1
       let onlyEngine (u : State) (r : Run) : Prop :=
         u.engine e = { g with jobs := l, run := some r, prefetched := [] } ∧ (∀ k, k ≠ e → u.engine k = s.engine k)
           ∧ u = { now with engines := { s.engines with eng := u.engines.eng } }
       (g.slots = if (s.engine e).tenant = qe.tenant then (s.engine e).slots else [])
       ∧ (descOp x.d = 0x09 → ∀ tg, descTile x.d = some tg → tg.oneBolt = true → ∃ u : State,
           exec (.jobStart e src args at_) s = .next (State.settle (u.submit (queueSource q) (.engine e (32 + n))
             (.tile tg.rows tg.rowBytes tg.pitch) tg.base qe.tenant))
           ∧ onlyEngine u { Run.start x qe.tenant (max s.now at_) (fetchProg x.d) [] with layer := 0, fetching := [n] })
       ∧ (descOp x.d = 0x0B → ∀ (h a bs : List Byte) (hp ap bp : Bool),
           s.jobBytes q (descSrc x.d) 64 src = some (h, hp) → s.jobBytes q (descDst x.d) (8 * n) args = some (a, ap) →
           let len := bytesNat h 36 4
           let words := (List.range n).map (fun k => bytesNat a (8 * k) 8)
           let ends (code : Nat) : Prop := ∃ (u : State) (r : Run),
             exec (.jobStart e src args at_) s = .next (State.settle u) ∧ r.endCode = some code ∧ r.ix = ix ∧ r.completed = 0
               ∧ onlyEngine u r
           (hp = true ∨ ap = true → ends 1)
           ∧ (hp = false → ap = false → 64 ≤ len → len ≤ 2 ^ 24 →
             boltOfOff (descSrc x.d) = boltOfOff (descSrc x.d + len - 1) →
             s.jobBytes q (descSrc x.d) len src = some (bs, bp) →
             (bp = true → ends 1)
             ∧ (bp = false → readContainer bs = none → ends 7)
             ∧ (bp = false → ∀ c, readContainer bs = some c →
               (c.check (descParam x.d) n g.valid ≠ 0 → ends (c.check (descParam x.d) n g.valid))
               ∧ (c.check (descParam x.d) n g.valid = 0 → descArg x.d 2 = 0 → ∃ u : State,
                 exec (.jobStart e src args at_) s = .next (State.settle (u.issueFetches e))
                 ∧ onlyEngine u { Run.start x qe.tenant (max s.now at_) c words with completed := descParam x.d })))))
  ∧ (∀ (s : State) (e slot k rows rowBytes pitch code at_ : Nat) (src : TileSrc) (r : Req) (t : Tile) (j : Run),
       s.slotFetch e slot = some r → r.op = .tile rows rowBytes pitch → r.who = .engine e k → k % 64 = 32 + slot → slot < 16 →
       (s.tick at_).fetched r { rows := rows, rowBytes := rowBytes, pitch := pitch, base := r.offset } src = some (t, code) →
       code ≠ 10 → (s.engine e).run = some j →
       let j' : Run := { j with resident := insertSorted slot j.resident, fetching := removeNum slot j.fetching }
       ∃ u : State, exec (.tileResident e slot src at_) s = .next (State.settle (u.prefetch e))
         ∧ SMap.find (u.engine e).slots slot = some { valid := true, tile := t }
         ∧ (∀ m, m ≠ slot → SMap.find (u.engine e).slots m = SMap.find (s.engine e).slots m)
         ∧ (u.engine e).run = some (if j.prog.layers = [] then
             { j' with endCode := some (if t.poison = [] then 0 else 1), poison := !t.poison.isEmpty } else j')
         ∧ (∀ m, m ≠ e → u.engine m = s.engine m)
         ∧ u.bay.reqs = s.bay.reqs.filter (fun y => y.id != r.id) ∧ u.mem = s.mem ∧ u.lines = s.lines ∧ u.queues = s.queues)

/-- A layer starts on resident tiles, ends into its slots, is complete after its stores, and faults end the job (10 R294, 10
R295, 10 R298, 10 R300, 10 R306, 10 Table 10.7, 10 Table 10.11). -/
def Obligations.LayersRunEndAndFault : Prop :=
  (∀ (s : State) (e at_ : Nat) (r : Run), (s.engine e).run = some r →
     let now := s.tick at_
     let ops := (r.prog.opTiles r.layer).map (fun t => t.slot)
     let kernel := (r.prog.layer r.layer).kernel
     let late : State := State.updRun (now.endHold e) e (fun r => r.stopWith 5 r.layer 0)
     (r.layerRunning = false → r.endCode = none →
       (r.leaving = false → s.layerReady e r = true →
         (r.late (max s.now at_) = true → exec (.layerStart e at_) s = .next (State.settle late))
         ∧ (r.late (max s.now at_) = false →
             0x80 ≤ kernel ∨ paramsOk kernel (r.prog.layer r.layer).ops.length (r.params r.layer) = true →
             exec (.layerStart e at_) s = .next (State.settle (State.prefetch (State.issueFetches (State.updRun (now.endHold e) e
               (fun r => { r with layerRunning := true, resident := r.resident.filter (fun k => !ops.contains k) })) e) e))))
       ∧ (s.layerReady e r = false → exec (.layerStart e at_) s = .next now)
       ∧ (r.late (max s.now at_) = true → exec (.fenceDeadline e at_) s = .next (State.settle late))
       ∧ (r.late (max s.now at_) = false → exec (.fenceDeadline e at_) s = .next now))
     ∧ (∀ t, r.holdSince = some t →
         let us := (s.now - t) / 1000
         s.endHold e = State.bump (s.putEngine e { s.engine e with
           run := some { r with holdSince := none, holdUs := r.holdUs + us } }) F.EN_COUNT.HOLD_US e us)
     ∧ (r.holdSince = none → s.endHold e = s))
  ∧ (∀ (s : State) (e slot at_ : Nat) (ret : KernelRet) (r : Run), (s.engine e).run = some r → r.layerRunning = true →
       let now := s.tick at_
       let kernel := (r.prog.layer r.layer).kernel
       let ts := r.prog.outTiles r.layer
       let fault (f code slot : Nat) : Host.Outcome State Fault Refusal := .next (State.settle (State.updRun
         (State.raiseArg (now.logFault e f r.q r.layer slot) F.EN_STATUS.KERNEL_FAULT e (.log .EN_FAULT_LOG e)) e
         (fun r => r.stopWith code r.layer f)))
       (ret.cycles ≤ 2 ^ r.prog.cyclesLog2 → 0x80 ≤ kernel → (∀ t ∈ s.opsOf e r, t.poison = []) →
         exec (.layerEnd e ret at_) s = .next (State.settle (State.fence (State.issueFetches (State.writeBack
           (now.putEngine e ((s.engine e).putOuts ts ret.outs)) e r (KRes.make ret.outs ret.used [] false) ret 0) e) e)))
       ∧ (ret.cycles ≤ 2 ^ r.prog.cyclesLog2 → exec (.layerEnd e ret at_) s = .next (State.settle (now.endLayer e r ret)))
       ∧ ((ts.map (fun t => t.slot)).Nodup → ∀ (i : Nat) (t : TileD) (o : Tile), ts[i]? = some t → ret.outs[i]? = some o →
           SMap.find ((s.engine e).putOuts ts ret.outs).slots t.slot = some { valid := true, tile := o })
       ∧ (2 ^ r.prog.cyclesLog2 < ret.cycles → exec (.layerEnd e ret at_) s = fault 3 11 0)
       ∧ exec (.kernelCycleLimit e at_) s = fault 3 11 0
       ∧ (0x80 ≤ kernel → exec (.userKernelFault e 1 slot at_) s = fault 1 7 0
           ∧ exec (.userKernelFault e 2 slot at_) s = fault 2 12 slot))
  ∧ (∀ (s : State) (e at_ : Nat) (r : Run) (w : Wb) (l : List Wb) (x : Desc), (s.engine e).run = some r → r.wbs = w :: l →
       s.desc r.q r.ix = some x →
       let now := s.tick at_
       let u : State := now.putEngine e { s.engine e with run := some { r with
         wbs := l, completed := if w.layer = r.completed then r.completed + 1 else r.completed } }
       (w.left = 0 → w.code = 0 →
         (descArg x.d 2 ≠ 1 → exec (.layerComplete e at_) s = .next (State.settle (u.issueFetches e)))
         ∧ (descArg x.d 2 = 1 → exec (.layerComplete e at_) s = .next (State.settle (State.issueFetches
             (u.submit (queueSource r.q) (.engine e (w.layer * 64 + 17)) (.write fullBe w.record false)
               (descArgs x.d 8 7 + 64 + 64 * w.layer) r.tenant) e))))
       ∧ (w.left ≠ 0 → exec (.layerComplete e at_) s = .next (State.settle now)))
  ∧ (∀ (s : State) (e slot at_ : Nat), RegsOrdered s → e < 48 → s.engineUp e = true →
       let now := s.tick at_
       let g := s.engine e
       let times := g.faultTimes.filter (fun t => decide (max s.now at_ < t + 86400000000000)) ++ [max s.now at_]
       let u (q layer : Nat) : State := State.health (State.raiseArg ((now.putEngine e { g with faultTimes := times }).logFault e 4
         q layer slot) F.EN_STATUS.HW_FAULT e (.log .EN_FAULT_LOG e)) 14 1
       (times.length < max 1 (s.get F.EN_CTL.FAULT_LIMIT) →
         (g.run = none → exec (.engineHwFault e slot at_) s = .next (State.settle (u 0 0)))
         ∧ (∀ r, g.run = some r → exec (.engineHwFault e slot at_) s =
             .next (State.settle (State.rerun (u r.q r.layer) e slot r))))
       ∧ (max 1 (s.get F.EN_CTL.FAULT_LIMIT) ≤ times.length → g.run = none → g.jobs = [] → ∃ t : State,
           exec (.engineHwFault e slot at_) s = .next (State.settle t)
           ∧ t.engines.enabled = removeNum e s.engines.enabled ∧ t.engine e = { g with faultTimes := times, off := true }
           ∧ (∀ k, k ≠ e → t.engine k = s.engine k) ∧ t.getF F.EN_STATUS.HW_FAULT e = 1
           ∧ t.getF F.EN_DEV_STATUS.ENGINE_OFF 0 = 1 ∧ t.getF F.EN_FAULT_LOG.CODE e = 5
           ∧ t.mem = s.mem ∧ t.lines = s.lines ∧ t.bay = s.bay ∧ t.queues = s.queues))

/-! Ports, modules and mailboxes (11). -/

/-- A trained port shows its link; HOST and MEDIA ports are in service, TWIN and CASC ports after a good LINK_HELLO (11 R311,
11 R312, 11 R313, 11 R314, 11 Table 11.11, 08 R249). -/
def Obligations.LinksTrainAndSayHello : Prop :=
  (∀ (s : State) (p at_ : Nat) (t : Train), RegsOrdered s → p < 96 →
     let now := s.tick at_
     let u := (now.setLink p t).newCredits p
     (t.lanes < 32 →
       let v := s.setLink p t
       v.getF F.PT_LINK.RATE p = min t.rate (min (s.getF F.PT_CFG.MAX_RATE p) (rateLimit (s.get F.GB_ID.CODE)))
       ∧ v.getF F.PT_LINK.LANES p = t.lanes ∧ v.getF F.PT_LINK.REVERSED p = bit t.reversed
       ∧ v.getF F.PT_LINK.POLARITY p = t.polarity.toNat ∧ v.linkState p = s.linkState p ∧ v.persOf p = s.persOf p
       ∧ (t.rate < s.getF F.PT_CFG.MAX_RATE p → v.getF F.PT_STATUS.DEGRADED p = 1))
     ∧ FlagSet (s.setF F.PT_LINK.STATE p 2) (s.enterService p) F.PT_STATUS.LINK_UP p
     ∧ (s.portTrains p = true → s.linkState p ≤ 1 → t.flit = true →
       (s.persOf p = 1 → exec (.linkTrained p t at_) s = .next (State.settle (u.enterService p)))
       ∧ (s.persOf p = 4 → exec (.linkTrained p t at_) s = .next (State.settle (State.updateSaveRate
           (State.memberBack (u.enterService p) (s.getF F.PT_CFG.MODULE p)))))
       ∧ (s.persOf p = 2 ∨ s.persOf p = 3 → exec (.linkTrained p t at_) s =
           .next (State.sendHello (u.setF F.PT_LINK.STATE p 1) p)))
     ∧ (s.portTrains p = true → s.linkState p = 0 → now.mayRetry p = true →
       exec (.trainRetry p (some t) at_) s = exec (.linkTrained p t at_) s
       ∧ (∀ c ∈ [Instr.trainRetry p none at_, .linkTrained p { t with flit := false } at_], ∃ r : State, exec c s = .next r
           ∧ FlagSet (State.setF { now with ports := { s.ports with triedAt := SMap.put s.ports.triedAt p (max s.now at_) } }
               F.PT_LINK.STATE p 0) r F.PT_STATUS.TRAIN_FAIL p))
     ∧ (now.mayRetry p = false → ∀ o, exec (.trainRetry p o at_) s = .next now)
     ∧ (s.persOf p ≠ 0 → s.linkState p = 2 →
       (t.flit = true → exec (.linkError p (some t) at_) s = .next (State.settle ((now.setLink p t).mediaChanged p)))
       ∧ exec (.linkError p none at_) s = .next (State.raiseAt (now.surpriseDown p) F.PT_STATUS.TRAIN_FAIL p)))
  ∧ (∀ (s : State) (p at_ since : Nat) (h : Hello), RegsOrdered s → p < 96 →
       let now := s.tick at_
       let b := ((now.countRx p 64).setF F.PT_PEER.PEER_DEVICE p h.deviceId).setF F.PT_PEER.PEER_PORT p h.port
       (s.persOf p = 2 ∨ s.persOf p = 3 → s.linkState p = 1 ∨ s.linkState p = 4 → s.twin.portsFenced = false →
         (s.helloOk p h = true → h.deviceId < 64 → h.port < 128 → ∃ u : State,
           exec (.linkHello p h at_) s = .next (u.linkUp p h.deviceId)
           ∧ u.getF F.PT_PEER.PEER_DEVICE p = h.deviceId ∧ u.getF F.PT_PEER.PEER_PORT p = h.port
           ∧ SMap.find u.bay.peers h.deviceId = some {
               reachable := true, dirtyCount := h.dirtyCount,
               health := match SMap.find s.bay.peers h.deviceId with | some x => x.health | none => 0#64 }
           ∧ u = { b with bay := { s.bay with peers := u.bay.peers } })
         ∧ (s.helloOk p h = false → s.linkState p = 1 → ∃ t : State, exec (.linkHello p h at_) s = .next t
           ∧ FlagSet (State.setF { b with ports := { b.ports with
               helloSince := SMap.put b.ports.helloSince p (max s.now at_) } } F.PT_LINK.STATE p 4) t F.PT_STATUS.PEER_MISMATCH p)
         ∧ (s.helloOk p h = false → s.linkState p = 4 → exec (.linkHello p h at_) s = .next b))
       ∧ (SMap.find s.ports.helloSince p = some since →
         (s.linkState p = 1 → since + 10000000 ≤ max s.now at_ → ∃ t : State, exec (.linkHelloTimer p at_) s = .next t
           ∧ FlagSet (State.setF { now with ports := { s.ports with
               helloSince := SMap.put s.ports.helloSince p (max s.now at_) } } F.PT_LINK.STATE p 4) t F.PT_STATUS.PEER_MISMATCH p)
         ∧ (s.linkState p = 4 → since + 100000000 ≤ max s.now at_ → exec (.linkHelloTimer p at_) s = .next (now.sendHello p))
         ∧ (max s.now at_ < since + 10000000 → exec (.linkHelloTimer p at_) s = .next now)))

/-- Links down drop host reads and lose modules, host resets clear their LDs, and PT commands end with their codes (11 R319,
11 R320, 11 R327, 11 R329, 11 Table 11.5, 11 Table 11.9, 08 R249, 08 R250, 08 R254). -/
def Obligations.LinksGoDownAndModulesComeAndGo : Prop :=
  (∀ (s : State) (p ld at_ : Nat) (m : ModuleInfo), RegsOrdered s → p < 96 →
     let now := s.tick at_
     let ix := s.getF F.PT_CFG.MODULE p
     (s.persOf p ≠ 0 → s.linkState p ≠ 0 → ∃ u : State, FlagSet (now.setF F.PT_LINK.STATE p 0) u F.PT_STATUS.SURPRISE_DOWN p
       ∧ (s.persOf p = 1 → exec (.linkDown p at_) s = .next (State.settle (u.dropReads p)))
       ∧ (s.persOf p = 2 ∨ s.persOf p = 3 → exec (.linkDown p at_) s = .next (u.portLeft p))
       ∧ (s.persOf p = 4 → exec (.linkDown p at_) s = .next (State.portLeft (u.memberLost ix) p)))
     ∧ (∀ r, r ∈ (s.dropReads p).bay.reqs ↔
         r ∈ s.bay.reqs ∧ ∀ l tag, r.who = .host p l tag → reqWrites r = true)
     ∧ (s.persOf p = 1 → s.portUp p = true →
       exec (.functionLevelReset p ld at_) s = .next (now.resetLd p ld)
       ∧ (s.getF F.PT_CFG.LD_COUNT p ≤ 16 → SMap.wf s.bay.decoders = true → ∃ u : State,
         exec (.hotReset p at_) s = .next (State.settle u) ∧ u.getF F.PT_STATUS.HOT_RESET p = 1
         ∧ (∀ k, k < max 1 (s.getF F.PT_CFG.LD_COUNT p) → SMap.find u.bay.decoders (p * 16 + k) = none
             ∧ u.getF F.PT_LD.DECODERS (p * 16 + k) = 0 ∧ u.getF F.PT_LD.MSIX_EN (p * 16 + k) = 0
             ∧ u.getF F.PT_LD.TENANT (p * 16 + k) = s.getF F.PT_LD.TENANT (p * 16 + k))
         ∧ (∀ k, k / 16 ≠ p → SMap.find u.bay.decoders k = SMap.find s.bay.decoders k)
         ∧ u.bay.reqs = (s.dropReads p).bay.reqs ∧ u.bay.ldTenant = s.bay.ldTenant ∧ u.bay.bolts = s.bay.bolts
         ∧ u.mem = s.mem ∧ u.lines = s.lines ∧ u.tier = s.tier ∧ u.queues = s.queues))
     ∧ (let k := p * 16 + ld
        s.resetLd p ld = State.emit (State.setF (State.setF { s with
          bay := { s.bay with decoders := SMap.del s.bay.decoders k },
          ports := { s.ports with
            msixMasked := s.ports.msixMasked.filter (fun v => v / 2048 != k),
            msixPending := s.ports.msixPending.filter (fun v => v / 2048 != k) } } F.PT_LD.DECODERS k 0)
          F.PT_LD.MSIX_EN k 0) (.cfgReset p ld))
     ∧ (s.persOf p = 4 → s.portUp p = true →
       (s.enumOk m = false → ∃ t : State, exec (.moduleHotAdd p m at_) s = .next (State.settle t)
         ∧ FlagSet ((now.setF F.PT_PEER.MODULE_VID p m.vid).setF F.PT_PEER.MODULE_DID p m.did) t F.PT_STATUS.MODULE_REFUSED p)
       ∧ (∀ x, s.enumOk m = true → SMap.find s.stripe.members ix = some x → x.st = .lost ∨ x.st = .rebuilding →
         s.isSet F.ST_REBUILD_CTL.COPYBACK_EN 0 = true → x.cap ≤ m.capGib → 0 < s.rowsInUse ix → ∃ u : State,
         exec (.moduleHotAdd p m at_) s = .next (State.settle u)
         ∧ SMap.find u.stripe.members ix = some { x with
             st := .copyBack, rowsLeft := s.rowsInUse ix, rowsTotal := s.rowsInUse ix, cap := m.capGib, rated := s.ratedOf m }
         ∧ (∀ k, k ≠ ix → SMap.find u.stripe.members k = SMap.find s.stripe.members k)
         ∧ SMap.find u.ports.modCount ix = some m.dirtyCount ∧ u.mem = s.mem ∧ u.lines = s.lines)))
  ∧ (∀ (s : State) (m row at_ : Nat) (frame : Option Nat) (x : Member), SMap.find s.stripe.members m = some x →
       let u : State := { s.tick at_ with stripe := { s.stripe with unreadable := s.stripe.unreadable ++ [(x.group, row)] } }
       (u.rowMissing x.group row ≤ 2 ∨ s.groupDeferred x.group = true → exec (.moduleRequestTimeout m row frame at_) s = .next u)
       ∧ (2 < u.rowMissing x.group row → s.groupDeferred x.group = false → exec (.moduleRequestTimeout m row frame at_) s =
           .next (State.settle (u.healFrames frame.toList))))
  ∧ (∀ (s : State) (via : Via) (p at_ : Nat) (t : Option Train) (m : Option ModuleInfo), RegsOrdered s → p < 96 →
       Taken s via .PT_CMD p → s.isSet F.PT_CMD.BUSY p = false →
       let u (op : Nat) : State := (s.tick at_).setF F.PT_CMD.OP p op
       let train := State.ptCode ((u 1).setF F.PT_LINK.STATE p 1) p 0
       (s.persOf p = 0 ∨ (s.persOf p = 2 ∧ s.twinPorts = [p]) → exec (.retrain via p at_) s = .next ((u 1).ptCode p 12))
       ∧ (s.persOf p ≠ 0 → ¬(s.persOf p = 2 ∧ s.twinPorts = [p]) → exec (.retrain via p at_) s =
           .next (if s.portUp p = true then train.portLeft p else train))
       ∧ (s.mayRemove p = false → exec (.prepareRemove via p at_) s = .next ((u 2).ptCode p 12))
       ∧ (s.mayRemove p = true →
         let v := State.setF ((u 2).memberLost (s.getF F.PT_CFG.MODULE p)) F.PT_LINK.STATE p 0
         exec (.prepareRemove via p at_) s = .next (State.portLeft (State.ptCode { v with
           ports := { v.ports with disabled := insertSorted p v.ports.disabled } } p 0) p))
       ∧ (s.persOf p ≠ 4 ∨ s.portUp p = true → exec (.rescan via p t m at_) s = .next ((u 3).ptCode p 12))
       ∧ (s.persOf p = 4 → s.portUp p = false →
         let v := State.ptCode { u 3 with ports := { s.ports with disabled := removeNum p s.ports.disabled } } p 0
         exec (.rescan via p t m at_) s = .next (match t with
           | none => v.trainFail p
           | some t =>
             let w := v.trained p t
             if w.portUp p = false then w
             else match m with
               | some m => State.settle (w.addModule p m)
               | none => w.raiseAt F.PT_STATUS.MODULE_REFUSED p)))

/-- Each mailbox command of an LD that answers gives the device's data and changes only what it sets (11 R316, 11 R317, 11
Table 11.3, 11 Table 11.4, 14 R388). -/
def Obligations.MailboxesAnswer : Prop :=
  (∀ (s : State) (p ld at_ : Nat), s.mailboxServes p ld = true →
     let k := p * 16 + ld
     let answer (u : State) (code : Nat) (d : List Word) : Host.Outcome State Fault Refusal := .next (u.emit (.mailbox p ld code d))
     let units := word (s.get F.BL_RANGE_LIMIT.BOLTS * 256)
     exec (.identifyMemoryDevice p ld) s = answer s 0
       [units, units, 0#64, word 131072, word (min 4194304 (65536 * s.bayDevices))]
     ∧ exec (.getSupportedLogs p ld) s = answer s 0 [1#64]
     ∧ (∀ off n, off + n ≤ 44 → exec (.getLog p ld true off n) s = answer s 0
         (((([0x4000, 0x0400, 0x0401, 0x0100, 0x0101, 0x4200, 0x4300, 0x4102, 0x4103, 0x0300, 0x0301] : List Nat).drop
           (off / 4)).take (n / 4)).map word))
     ∧ (∀ log, let key := cxlKey p ld log
         let l := SMap.findD s.ports.cxlLogs key []
         exec (.getEventRecords p ld log) s = answer s 0 ([word (bit (s.ports.cxlOverflow.contains key)), word l.length]
           ++ l.flatMap (fun r => (List.range 4).map (fun j => r.extractLsb' (64 * j) 64)))
         ∧ exec (.clearEventRecords p ld log none) s = answer { s with ports := { s.ports with
             cxlLogs := SMap.del s.ports.cxlLogs key, cxlOverflow := removeNum key s.ports.cxlOverflow } } 0 []
         ∧ (∀ q, SMap.wf s.ports.cxlLogs = true → ∃ u : State, exec (.clearEventRecords p ld log (some q)) s = answer u 0 []
             ∧ SMap.findD u.ports.cxlLogs key [] = l.filter (fun r => !q.contains (recSeq r))
             ∧ (∀ j, j ≠ key → SMap.find u.ports.cxlLogs j = SMap.find s.ports.cxlLogs j)
             ∧ u = { s with ports := { s.ports with cxlLogs := u.ports.cxlLogs } }))
     ∧ exec (.getHealthInfo p ld) s = answer s 0
         [word (min 100 (max (bitsOf s.flHealth 16 8) (s.worstPermille / 10))), word (s.get F.GB_TEMP.JUNCTION),
          word s.bayDirtyCount]
     ∧ (∀ t remote, SMap.find s.bay.ldTenant k = some t → s.lines.poisonOverflow = false →
         let mine (l : Nat) : Bool := s.bound (boltOfLine l) && s.tenantOf (boltOfLine l) == t
         let all := (remote.filter mine).foldl (fun a l => insertSorted l a) (s.lines.poison.filter mine)
         all.length ≤ s.maxPoisonList →
         exec (.getPoisonList p ld remote) s = answer s 0 (0#64 :: all.map (fun l => word (64 * l))))
     ∧ (∀ off n, exec (.getLsa p ld off n) s = if 131072 < off + n then answer s 2 [] else answer s 0 (packWords
         ((List.range n).map (fun j => SMap.findD (SMap.findD s.ports.lsa k []) (off + j) 0#8))))
     ∧ (∀ off data, off + data.length ≤ 131072 → SMap.wf (SMap.findD s.ports.lsa k []) = true → ∃ u : State,
         exec (.setLsa p ld off data) s = answer u 0 []
         ∧ (∀ j, SMap.findD (SMap.findD u.ports.lsa k []) j 0#8 = if off ≤ j ∧ j < off + data.length then data.getD (j - off) 0#8
             else SMap.findD (SMap.findD s.ports.lsa k []) j 0#8)
         ∧ (∀ j, j ≠ k → SMap.find u.ports.lsa j = SMap.find s.ports.lsa j)
         ∧ u = { s with ports := { s.ports with lsa := u.ports.lsa } })
     ∧ (∀ off data, 131072 < off + data.length → exec (.setLsa p ld off data) s = answer s 2 [])
     ∧ exec (.getTimestamp p ld at_) s = answer (s.tick at_) 0
         [match s.ports.timeOff with | some (h, d) => word (h + (max s.now at_ - d)) | none => 0#64]
     ∧ (∀ host, exec (.setTimestamp p ld host at_) s = answer
         { s.tick at_ with ports := { s.ports with timeOff := some (host, max s.now at_) } } 0 [])
     ∧ (∀ op, exec (.unsupportedMailboxCommand p ld op) s = answer s 3 []))
  ∧ (∀ (s : State) (p : Nat), s.hostServes p = true → 1 < s.getF F.PT_CFG.LD_COUNT p →
       let n := s.getF F.PT_CFG.LD_COUNT p
       let units := word (s.get F.BL_RANGE_LIMIT.BOLTS * 256)
       let answer (code : Nat) (d : List Word) : Host.Outcome State Fault Refusal := .next (s.emit (.mailbox p 16 code d))
       exec (.getLdInfo p) s = answer 0 [units, word n]
       ∧ exec (.getLdAllocations p) s = answer 0 (word n :: List.replicate n units)
       ∧ exec (.setLdAllocations p) s = answer 3 [])

/-! Link messages (11; 03). -/

/-- A message at the claim gate acts as a request of its source, waits for its entry, or is refused with CLAIM_STALE (03 R107,
03 R108, 11 R322, 11 Table 11.7, 02 R53, 02 R79, 01 R39, 03 R125, 12 R352, 13 R376, 03 Table 3.7). -/
def Obligations.GatedMessagesActOrAreRefused : Prop :=
  (∀ (s : State) (h : Hdr) (at_ n : Nat) (be pmap : Word) (data d : LineData) (empty : Bool) (lines : List LineData),
     RegsOrdered s → h.port < 96 → s.linkServes h = true → h.dst = s.devId →
     let b := boltOfOff h.offset
     let u (len : Nat) : State := (s.tick at_).countRx h.port (32 + len)
     let g (len : Nat) : State := (u len).raiseGate b h.claim
     let t := s.tenantOf b
     let all : List (Instr × Payload) := [(.mirrorWr h be data at_, .mirrorWr be data), (.fwdRd h n at_, .fwdRd n),
       (.fwdWr h be data at_, .fwdWr be data), (.ctrlReq h (.desc d) at_, .ctrlReq (.desc d)), (.repairRd h n at_, .repairRd n),
       (.rejoinCopy h empty pmap lines at_, .rejoinCopy empty pmap lines)]
     (h.claim < s.gateRecord b → ∀ x ∈ all,
       exec x.1 s = .next (State.refuse ((u (payloadLen x.2)).raise F.TW_STATUS.GATE_REFUSED) h x.2 3))
     ∧ (s.gateRecord b ≤ h.claim → (s.entry b).claim < h.claim → ∀ x ∈ all,
       let w := (g (payloadLen x.2)).learnStale b
       exec x.1 s = .next (State.send
         { w with bay := { w.bay with
             gateHeld := s.bay.gateHeld ++ [{ hdr := h, body := x.2, id := s.bay.nextId, since := max s.now at_ }],
             nextId := s.bay.nextId + 1 } }
         { s.hdr h.src with offset := b * 2 ^ 36 } .boltFetch))
     ∧ (s.gateRecord b ≤ h.claim → h.claim ≤ (s.entry b).claim →
       let mine (w : State) : State := w.submit streamSource (.mirror h.src h.port h.tag) (.write be data h.poison) h.offset t
       let part (w : State) : State := w.submit (remoteSource h.src h.source) (.remote h.src h.port h.tag h.source) (.ctrl d) h.offset t
       let line (k : Nat) : Nat := lineOfOff h.offset + k
       let noted (rep : Bool) : State := { g 8 with bay := { (g 8).bay with fwdIn := s.bay.fwdIn ++ [{
         dev := h.src, port := h.port, tag := h.tag, repair := rep, first := lineOfOff h.offset, lines := n, got := [],
         code := 0 }] } }
       let reads (rep : Bool) : State := (List.range n).foldl (fun w k =>
           if rep then w.submit streamSource (.mirror h.src h.port h.tag) .read (line k * 64) t
           else w.submit (remoteSource h.src h.source) (.remote h.src h.port h.tag h.source)
             (if 1 < n then .peek h.urgent else .read) (line k * 64) t)
         (if rep = true ∨ n ≤ 1 then noted rep else (noted rep).heatLines ((List.range n).map line))
       (s.power.state < 16 → s.keyLoaded t = true → exec (.mirrorWr h be data at_) s = .next (State.settle (mine (g 72))))
       ∧ (16 ≤ s.power.state → exec (.mirrorWr h be data at_) s = .next ((g 72).reply h 8 true .mirrorAck))
       ∧ (s.power.state < 16 → s.keyLoaded t = false → exec (.mirrorWr h be data at_) s =
           .next (State.reply ((g 72).raiseOff F.XT_STATUS.KEY_MISSING h.offset) h 10 true .mirrorAck))
       ∧ exec (.fwdRd h n at_) s = .next (State.settle (reads false))
       ∧ exec (.repairRd h n at_) s = .next (State.settle (reads true))
       ∧ exec (.fwdWr h be data at_) s = .next (State.settle ((g 72).submit (remoteSource h.src h.source)
           (.remote h.src h.port h.tag h.source) (.write be data h.poison) h.offset t))
       ∧ (¬(h.src = s.twinId ∧ s.isPair b = true ∧ s.isActive b = false ∧ descOp d ≠ 0x0C) →
           exec (.ctrlReq h (.desc d) at_) s = .next (State.settle (part (g 64))))
       ∧ exec (.rejoinCopy h empty pmap lines at_) s = .next ((g 4104).takeCopy h empty pmap lines)))
  ∧ (∀ (s : State) (h : Hdr) (at_ tn : Nat) (a0 : Word) (e : BoltEntry) (l : List (Nat × Nat)),
       RegsOrdered s → h.port < 96 → s.linkServes h = true → h.dst = s.devId →
       let u (len : Nat) : State := (s.tick at_).countRx h.port (32 + len)
       let b := boltOfOff h.offset
       (tn = bitsOf a0 0 12 →
         exec (.ctrlReq h (.bl 0x10 a0 0#64 1#64) at_) s = .next ((u 64).addTenant tn)
         ∧ exec (.ctrlReq h (.bl 0x11 a0 0#64 1#64) at_) s = .next ((u 64).dropTenant tn))
       ∧ (s.gateRecord b ≤ h.claim → exec (.boltUpdate h e at_) s = .next (State.settle (State.releaseGate
           (((u 32).raiseGate b h.claim).takeEntry h e))))
       ∧ (h.claim < s.gateRecord b → exec (.boltUpdate h e at_) s = .next (State.settle (State.releaseGate
           ((u 32).raise F.TW_STATUS.GATE_REFUSED))))
       ∧ ((∀ x ∈ l, s.gateRecord x.1 ≤ x.2 ∧ x.2 ≤ (s.entry x.1).claim) → s.twin.st = .paired → s.twin.taking = none →
         s.image.change = none → ∃ v : State, exec (.handover h l at_) s = .next { v with twin := { s.twin with taking := some {
             claim := s.newClaim, rotation := true, bolts := l.map Prod.fst, trigger := 0, poisonList := false } } }
           ∧ (∀ x ∈ l, x.2 ≤ SMap.findD v.bay.gate x.1 0)
           ∧ v = { u (12 * l.length) with bay := { s.bay with gate := v.bay.gate } }))

/-- Answers end their requests, news is recorded, and a message for another device goes on with one hop fewer (02 R53, 02 R78,
02 R81, 01 R23, 01 R426, 03 R114, 03 R124, 03 R125, 11 R322, 11 R324, 11 R326, 12 R352). -/
def Obligations.AnswersAndNewsOfOtherDevicesAct : Prop :=
  (∀ (s : State) (h : Hdr) (at_ : Nat) (r : Req) (pmap : Word) (lines : List LineData) (res : List Word),
     RegsOrdered s → h.port < 96 → s.linkServes h = true → h.dst = s.devId →
     let u (len : Nat) : State := (s.tick at_).countRx h.port (32 + len)
     let b := reqBolt r
     let fetch (w : State) : State := State.send (w.hold r .gate) { s.hdr h.src with offset := b * 2 ^ 36 } .boltFetch
     (∀ need wt tag, s.twin.mirrorOut.find? (fun x => x.1 == h.tag) = none → s.twin.fenced = false → r.st = .storing need true wt tag →
       s.bay.reqs.find? (fun r => match r.st with | .storing _ true _ t => t == h.tag | _ => false) = some r →
       (h.status = 0 → exec (.mirrorAck h at_) s = .next (State.settle (State.flushStream
         ((u 0).putReq { r with st := .storing need false wt tag }) b)))
       ∧ (h.status = 10 → exec (.mirrorAck h at_) s = .next (State.settle (State.flushStream
         ((u 0).putReq { r with st := .refused need wt tag }) b)))
       ∧ (h.status = 3 → exec (.mirrorAck h at_) s = .next (State.settle (((u 0).staleStore r).flushStream b))))
     ∧ (∀ need wt tag, s.req r.id = some r → r.st = .refused need wt tag →
         exec (.mirrorWrResend r.id at_) s = .next (State.settle ((s.tick at_).resendMirror r tag)))
     ∧ (s.forwardedReq h = some r → s.twin.st ≠ .isolated ∨ h.status = 3 →
       (h.status ≠ 3 → h.status < 14 →
         exec (.fwdCmp h at_) s = .next (State.settle ((u 0).finish r h.status 0#512 false))
         ∧ exec (.ctrlCmp h res at_) s = .next (State.settle ((u 32).finish r h.status (lineOfWords res) false)))
       ∧ (reqTile r = false → h.status = 0 ∨ h.status = 1 → exec (.fwdData h pmap lines at_) s = .next (State.settle
           ((u (8 + 64 * lines.length)).finish r 0 (lines.headD 0#512) (pmap.getLsbD 0))))
       ∧ (h.status = 3 → exec (.fwdCmp h at_) s = .next (State.settle (fetch (u 0)))
         ∧ exec (.fwdData h pmap lines at_) s = .next (State.settle (fetch (u (8 + 64 * lines.length))))
         ∧ exec (.ctrlCmp h res at_) s = .next (State.settle (fetch (u 32)))))
     ∧ (∀ src, s.lines.copyBack = [] → s.lines.rmwRepair = [] → s.stripe.heals = [] → r.st = .repairing h.tag src →
       s.bay.reqs.find? (fun r => match r.st with | .repairing t _ => t == h.tag | _ => false) = some r →
       let v := (u (8 + 64 * lines.length)).flushStream (boltOfOff h.offset)
       (h.status = 0 → lines ≠ [] → pmap.getLsbD 0 = false → exec (.repairData h pmap lines at_) s =
         .next (State.settle (v.takeRepair (lineOfOff r.offset) (lines.headD 0#512))))
       ∧ (h.status = 8 ∨ lines = [] ∨ pmap.getLsbD 0 = true → exec (.repairData h pmap lines at_) s =
         .next (State.settle (v.poisonRead (lineOfOff r.offset) src)))))
  ∧ (∀ (s : State) (h : Hdr) (at_ tag frame ty count : Nat) (l : List (Nat × Nat)) (spans : List Nat) (g : Group) (health : Word),
       RegsOrdered s → h.port < 96 → s.linkServes h = true → h.dst = s.devId →
       let u (len : Nat) : State := (s.tick at_).countRx h.port (32 + len)
       let now := s.countRx h.port 48
       let sp := spanOfFrame frame
       (s.twin.copyOut.find? (fun x => x.1 == h.tag) = some (tag, frame) →
         let v := State.flushStream { u 0 with twin := { s.twin with
           copyOut := s.twin.copyOut.filter (fun y => y != (tag, frame)) } } (boltOfSpan sp)
         (v.twin.copyOut.any (fun y => spanOfFrame y.2 == sp) = true → exec (.rejoinAck h at_) s = .next v)
         ∧ (v.twin.copyOut.any (fun y => spanOfFrame y.2 == sp) = false → v.twin.st = .feeding →
           exec (.rejoinAck h at_) s = .next (State.settle (v.feedNext sp))))
       ∧ (s.twin.group = some g → g.active = true → g.step = 4 → g.bolts = l.map Prod.fst →
         exec (.handoverAck h l at_) s = .next (State.stepChange (State.settle (State.nextGroup (State.retryHeld
           { u (12 * l.length) with twin := { s.twin with
               group := none, moved := satAdd 32 s.twin.moved l.length,
               maxHold := max s.twin.maxHold (max s.now at_ - g.hold) } }) 2))))
       ∧ (s.twin.st = .paired → s.twin.group = none → (l.map Prod.fst).filter s.isActive ≠ [] →
         exec (.handoverReq h l at_) s = .next { u (12 * l.length) with twin := { s.twin with group := some {
           bolts := (l.map Prod.fst).filter s.isActive, active := true, step := 2, since := max s.now at_, hold := max s.now at_,
           down := false } } })
       ∧ (s.twin.st = .rejoining → spans ≠ [] → exec (.mapXfer h .copyList spans at_) s = .next { u 4096 with twin := { s.twin with
           copyList := nub spans, copyBuilt := true } })
       ∧ exec (.mapXfer h .held spans at_) s = .next (State.buildCopyList { u 4096 with twin := { s.twin with
           peerHeld := spans, mapsIn := s.twin.mapsIn ++ [.held] } })
       ∧ (∀ k ∈ [MapKind.split, .dirtySpan], k = .dirtySpan ∨ h.status = 0 → exec (.mapXfer h k spans at_) s = .next (State.buildCopyList { u 4096 with
           twin := { s.twin with
             peerSpans := spans.foldl (fun acc x => insertSorted x acc) s.twin.peerSpans, mapsIn := s.twin.mapsIn ++ [k] } }))
       ∧ (h.status ≠ 0 → s.twin.full = false → s.twin.copyBuilt = false →
         let v := ({ u 4096 with twin := { s.twin with full := true } }).raise F.TW_STATUS.FULL_COPY
         exec (.mapXfer h .split spans at_) s = .next (State.buildCopyList { v with twin := { v.twin with
           peerSpans := spans.foldl (fun acc x => insertSorted x acc) s.twin.peerSpans, mapsIn := s.twin.mapsIn ++ [.split] } }))
       ∧ (let w := (s.countRx h.port 32).checkEntry (boltOfOff h.offset)
          let e := w.entry (boltOfOff h.offset)
          exec (.boltFetch h) s = .next (State.send w
            { s.hdr h.src with tag := h.tag, offset := h.offset, claim := e.claim } (.boltUpdate e)))
       ∧ exec (.bayState h count health) s = .next { now with bay := { s.bay with
           peers := SMap.put s.bay.peers h.src { reachable := true, dirtyCount := count, health := health } } }
       ∧ exec (.unknownMessage h ty) s = .next (s.bump F.PT_ERR_STAT.REPLAYS h.port 1))
  ∧ (∀ (s : State) (h : Hdr) (at_ t1 t2 t3 : Nat), RegsOrdered s → h.port < 96 → s.linkServes h = true → h.dst = s.devId →
       let u := (s.tick at_).countRx h.port 64
       let o := syncOffset t1 t2 t3 (max s.now at_)
       exec (.timeSync h t1 t2 t3 false at_) s =
         .next (u.send (s.hdr h.src) (.timeSync t1 (max s.now at_) (max s.now at_) true))
       ∧ (s.time.syncSent = some t1 → s.power.state = 13 → s.time.dtSet = false → ∃ v : State,
         exec (.timeSync h t1 t2 t3 true at_) s = .next v
         ∧ v.time = { u.time with dt := ((max s.now at_ : Int) + o).toNat, dtSet := true, syncSent := none }
         ∧ v.get F.TM_SYNC.SET = 1 ∧ v.get F.TM_SYNC.OFFSET_NS = (o % 2 ^ 32).toNat
         ∧ v = { u with regs := v.regs, time := v.time }))
  ∧ (∀ (s : State) (at_ : Nat), RegsOrdered s →
       let v := (s.tick at_).showRoot
       let root := s.reachable.foldl min s.devId
       (root = s.devId → exec (.timeSyncTimer at_) s = .next v)
       ∧ v.get F.TM_SYNC.ROOT_ID = root ∧ v.get F.TM_SYNC.IS_ROOT = bit (root == s.devId)
       ∧ (root ≠ s.devId → s.getF F.BL_ROUTE.PRIMARY_PORT root < 96 →
         s.portUp (s.getF F.BL_ROUTE.PRIMARY_PORT root) = true → exec (.timeSyncTimer at_) s = .next (State.sendOn
           { v with time := { v.time with syncSent := some (max s.now at_) } } (s.getF F.BL_ROUTE.PRIMARY_PORT root)
           { s.hdr (s.getF F.PT_PEER.PEER_DEVICE (s.getF F.BL_ROUTE.PRIMARY_PORT root)) with hops := 1 }
           (.timeSync (max s.now at_) 0 0 false))))
  ∧ (∀ (s : State) (h : Hdr) (p : Payload) (at_ q : Nat), RegsOrdered s → h.port < 96 →
       s.linkServes h = true → h.dst ≠ s.devId →
       (∃ t : State, exec (.hopExpiry h p) s = .next t ∧ FlagSet s t F.PT_STATUS.HOP_EXPIRED h.port)
       ∧ (1 < h.hops → s.ctlPort h.dst = some q → exec (.fwdCmp h at_) s = .next (State.sendOn
           ((s.tick at_).countRx h.port 32) q { h with hops := h.hops - 1 } .fwdCmp)))

/-! Images and changes (12). -/

/-- Images are loaded and verified, changes and restarts begin, and the boot slots and the floor move as 12 gives (12 R330, 12
R333, 12 R337, 12 R339, 12 R355, 12 R356, 12 Table 12.6, 12 Table 12.8). -/
def Obligations.ImageCommandsComplete : Prop :=
  ∀ (s : State) (via : Via) (a0 a1 v : Word) (img : Image) (w : AccW) (at_ n : Nat), RegsOrdered s →
    let now := s.tick at_
    let u (op : Nat) (l : List (Reg × Word)) : State := (withArgs now l).put F.IS_CMD.OP op
    (Taken s via .IS_CMD 0 → s.isSet F.IS_CMD_STATUS.BUSY 0 = false → s.image.change = none →
      (n = bitsOf a1 0 2 →
        let b := boltOfOff (bitsOf a0 0 56)
        let u1 := u 1 [(.IS_CMD_ARG0, a0), (.IS_CMD_ARG1, a1)]
        let u2 := u 2 [(.IS_CMD_ARG1, a1)]
        (s.slotKept n = true → exec (.imageLoad via a0 a1 img at_) s = .next (u1.isCode 12)
          ∧ exec (.imageErase via a1 at_) s = .next (u2.isCode 12))
        ∧ (s.slotKept n = false →
          exec (.imageErase via a1 at_) s = .next (State.isCode (u2.putSlot n { st := 0, code := 0, step := 0, img := none }) 0)
          ∧ (s.get F.BL_RANGE_LIMIT.BOLTS ≤ b ∨ s.bound b = false →
            exec (.imageLoad via a0 a1 img at_) s = .next (u1.isCode 13))
          ∧ (b < s.get F.BL_RANGE_LIMIT.BOLTS → s.bound b = true → ∃ x : State,
            (∀ k, k ≠ n → x.slot k = s.slot k) ∧ x = { u1 with image := { s.image with slots := x.image.slots } }
            ∧ (s.verifyImage img = none → exec (.imageLoad via a0 a1 img at_) s = .next (x.isCode 0)
                ∧ x.slot n = { st := 1, code := 0, step := 0, img := some img })
            ∧ (∀ step code, s.verifyImage img = some (step, code) → x.slot n = { st := 2, code := code, step := step, img := some img }
                ∧ ∃ t : State, FlagSet x t F.IS_STATUS.IMAGE_REFUSED 0
                    ∧ exec (.imageLoad via a0 a1 img at_) s = .next (t.isCode code)))))
      ∧ (let svn := match s.image.running with | some i => i.svn | none => 0
         let low : Bool := match (s.slot (s.get F.IS_BOOT.FALLBACK_SLOT)).img with | some i => decide (i.svn < svn) | none => false
         (low = true → exec (.svnRaise via at_) s = .next ((u 5 []).isCode 12))
         ∧ (low = false → exec (.svnRaise via at_) s = .next (State.isCode { u 5 [] with
             otp := { s.otp with floor := max s.otp.floor svn } } 0)))
      ∧ (s.inService = true → s.twin.group = none → s.twin.downWork = [] →
        let cls := bitsOf a0 0 4
        let inst := bitsOf a0 4 6
        let c (restart : Bool) (slot : Nat) : Change := {
          restart := restart, cls := cls, inst := inst, newSlot := slot, oldSlot := s.get F.IS_BOOT.RUN_SLOT,
          fallback := s.get F.IS_BOOT.FALLBACK_SLOT, step := 2, since := max s.now at_, rolling := false, pll := false }
        (∀ run new, cls = 9 → inst = 0 → n = bitsOf a1 0 2 → s.image.running = some run → (s.slot n).img = some new →
          (s.slot n).st = 1 → n ≠ s.get F.IS_BOOT.RUN_SLOT → diffAllowed run new cls inst = true →
          let x := State.setChange (State.put (u 3 [(.IS_CMD_ARG0, a0), (.IS_CMD_ARG1, a1)]) F.IS_CMD_STATUS.BUSY 1) (c false n)
          exec (.change via a0 a1 at_) s = .next (State.settle (State.sendCommit (x.setChange { c false n with step := 4 })
            1 9 0 (s.get F.IS_BOOT.RUN_SLOT) n (s.get F.IS_BOOT.RUN_SLOT) (s.get F.IS_BOOT.FALLBACK_SLOT))))
        ∧ (cls ∈ [1, 3, 4, 5, 7] → inst < funcInstances cls →
          let c := c true (s.get F.IS_BOOT.RUN_SLOT)
          let x := State.setChange (State.put (u 4 [(.IS_CMD_ARG0, a0)]) F.IS_CMD_STATUS.BUSY 1) c
          exec (.isRestart via a0 at_) s = .next (State.settle ((x.stopFunc cls inst).setChange { c with step := 7 })))))
    ∧ (Served s via (accOff .IS_BOOT 0 w) → NoRsv .IS_BOOT w v → w ≠ .hi →
      let t := now.writeFields .IS_BOOT 0 w v false
      let b := t.get F.IS_BOOT.BOOT_SLOT
      let f := t.get F.IS_BOOT.FALLBACK_SLOT
      (b ≠ f → (s.slot b).st = 1 → (s.slot f).st = 1 → exec (.isBootWrite via w v at_) s =
        .next (now.sendCommit 5 0 0 (s.get F.IS_BOOT.BOOT_SLOT) b b f))
      ∧ (b = f ∨ (s.slot b).st ≠ 1 ∨ (s.slot f).st ≠ 1 → ∃ r : State, exec (.isBootWrite via w v at_) s = .next r
        ∧ FlagSet now r F.IS_STATUS.BOOT_REFUSED 0))

/-- Restarts and the records in eNVM take a change to its next step or back, and a lost lock restarts its function (12 R339,
12 R340, 12 R345, 12 Table 12.6, 12 Table 12.8, 12 R351, 14 R392). -/
def Obligations.ChangesGoThroughTheirSteps : Prop :=
  (∀ (s : State) (at_ : Nat) (c : Change) (bad : List Nat), s.image.change = some c →
     let now := s.tick at_
     let found := now.groupFound c.cls c.inst bad
     let back := found.setChange { c with step := 9, rolling := true }
     let failed : Bool := c.cls == 2 && bad.any (fun x => x / 4 == c.inst && s.isSet F.DC_CFG.POP x)
     let noCommit : Prop := ∀ x ∈ s.image.envm, ∀ r, x ≠ .commit r
     let ends (ok : Bool) (u : State) : Prop := exec (.functionRestartDone ⟨ok, bad⟩ at_) s = .next u.nextRelock
     (c.cls ≠ 8 → c.step = 7 → c.rolling = false →
       (failed = false → c.restart = true → ends true ((found.startFunc c.cls c.inst).closeChange c 0))
       ∧ (failed = false → c.restart = false → ends true (State.sendCommit (found.setChange { c with step := 8 })
           3 c.cls c.inst c.oldSlot c.newSlot c.newSlot c.oldSlot))
       ∧ (∀ ok, ok = false ∨ failed = true →
         (c.pll = false → ends ok (if c.restart = true then back else back.loadChange c c.oldSlot))
         ∧ (c.pll = true → ends ok { found with image := { found.image with change := none } })))
     ∧ (c.cls ≠ 8 → c.step = 9 → c.rolling = true → c.restart = true → noCommit → failed = false →
       ends true ((found.startFunc c.cls c.inst).closeChange c 9))
     ∧ (∀ r l, s.image.envm = .commit r :: l →
       let v := State.showBoot { now with image := { s.image with envm := l, commit := some r } }
       exec (.envmRecordWritten true at_) s = .next (State.settle (match r.state with
         | 1 => State.sendCommit ((v.loadChange c c.newSlot).setChange { c with step := 6 }) 2 c.cls c.inst c.oldSlot c.newSlot
             c.newSlot c.oldSlot
         | 2 => v.restartFunc c
         | 3 => State.nextRelock (State.closeChange (if c.cls = 8 ∨ c.cls = 9 then v else v.startFunc c.cls c.inst) c 0)
         | 4 => State.nextRelock (State.closeChange (v.raise F.IS_STATUS.ROLLED_BACK) c 9)
         | _ => v))))
  ∧ (∀ (s : State) (at_ n : Nat) (x : EnvmRec) (l : List EnvmRec) (r : BBRec) (t : List BBRec), RegsOrdered s →
       let now := s.tick at_
       let k := s.keyAt n
       (s.image.envm = x :: l → exec (.envmRecordWritten false at_) s = .next now)
       ∧ (s.image.envm = .wrap n :: l → exec (.envmRecordWritten true at_) s = .next (State.xtCode (State.raise
           { now with image := { s.image with envm := l }, cipher := { s.cipher with
               wraps := if k.st = .empty then SMap.del s.cipher.wraps n else SMap.put s.cipher.wraps n (k.st, k.tenant) } }
           (if k.st = .deleted then F.XT_STATUS.KEY_DELETED else F.XT_STATUS.KEY_LOADED)) 0 n))
       ∧ (s.image.envm = [] → s.events.bbWrites = r :: t →
         exec (.envmRecordWritten true at_) s = .next { now with events := { s.events with
           bbRing := SMap.put s.events.bbRing (r.seq % Config.bbSlots) r, bbWrites := t } }
         ∧ ∃ v : State, exec (.envmRecordWritten false at_) s = .next v ∧ v.get F.BB_STATUS.BB_WRITE_FAIL = 1
             ∧ SMap.find v.events.bbRing (r.seq % Config.bbSlots) = some { r with torn := true } ∧ v.mem = s.mem)
       ∧ (s.image.envm = [] → s.events.bbWrites = [] → exec (.envmRecordWritten true at_) s = .next now))
  ∧ (∀ (s : State) (c : Change) (code : Nat), RegsOrdered s → c.pll = false → code < 256 →
       let t := s.closeChange c code
       t.image.change = none ∧ t.get F.IS_CHANGE_STAT.STEP = 0 ∧ t.get F.IS_CMD_STATUS.CODE = code
       ∧ t.get F.IS_CMD_STATUS.BUSY = 0 ∧ t.get F.IS_CMD.GO = 0
       ∧ t.get F.IS_CHANGE_STAT.LAST_MS = (s.now - c.since) / 1000000 % 2 ^ 32
       ∧ (code = 0 → t.get F.IS_STATUS.CHANGE_DONE = 1) ∧ (code ≠ 0 → t.get F.IS_STATUS.CHANGE_ABORTED = 1))
  ∧ (∀ (s : State) (island at_ : Nat), s.inService = true → island ≤ 136 →
       let v := State.raise { s.tick at_ with image := { s.image with unlocked := insertSorted island s.image.unlocked } }
         F.IS_STATUS.CLOCK_LOST
       (126 ≤ island → exec (.pllLockLoss island at_) s = .next (v.startDown 5))
       ∧ (∀ cls inst, islandFunc island = some (cls, inst) →
         let y := if cls = 2 then v.put F.DC_MAP.GROUPS_UP (setBit (v.get F.DC_MAP.GROUPS_UP) inst false) else v
         let x := State.stopFunc (if cls = 2 then y.put F.DC_MAP.D_BLOCKS y.poolSize else y) cls inst
         exec (.pllLockLoss island at_) s = .next (State.settle (State.nextRelock { x with
           image := { x.image with relock := x.image.relock ++ [(cls, inst)] } }))))

/-! Keys and cipher (12). -/

/-- Keys are loaded over MGMT only, deleted and found, and cipher faults are counted, retried or lost (12 R349, 12 R350, 12
R351, 12 R353, 12 R354, 12 R358, 12 Table 12.17, 12 Table 12.19). -/
def Obligations.KeyCommandsAndCipherFaultsComplete : Prop :=
  (∀ (s : State) (via : Via) (a0 : Word) (at_ n : Nat), RegsOrdered s → Taken s via .XT_CMD 0 →
     s.isSet F.XT_CMD_STATUS.BUSY 0 = false →
     let u (op : Nat) : State := (withArgs (s.tick at_) [(.XT_CMD_ARG0, a0)]).put F.XT_CMD.OP op
     let t := bitsOf a0 0 12
     let ended (op code slot : Nat) : Host.Outcome State Fault Refusal := .next (State.settle ((u op).xtCode code slot))
     (via = .mgmt → s.bay.tenants.contains t = true →
       (s.keySlot t = none → s.keyData 0 ≠ s.keyData 4 → s.freeKey = some n → exec (.keyLoad via a0 at_) s = .next (State.settle
         (State.sendWrap ((u 1).putKey n { st := .loaded, tenant := t, key1 := s.keyData 0, key2 := s.keyData 4 }) n)))
       ∧ (s.keySlot t = none → s.keyData 0 = s.keyData 4 → exec (.keyLoad via a0 at_) s = ended 1 7 0)
       ∧ (∀ k, s.keySlot t = some (n, k) → k.st ≠ .lost → exec (.keyLoad via a0 at_) s = ended 1 12 0))
     ∧ (via = .mgmt → s.bay.tenants.contains t = false → exec (.keyLoad via a0 at_) s = ended 1 12 0)
     ∧ (via ≠ .mgmt → exec (.keyLoad via a0 at_) s = .next (State.settle (State.xtCode ((u 1).raise F.XT_STATUS.KEY_PATH_DENY) 12 0)))
     ∧ (n = t → (s.keyAt n).st ≠ .empty → exec (.keyDelete via a0 at_) s = .next (State.settle (State.sendWrap (State.checkBudget
         (State.dropTenantLines ((u 2).putKey n { st := .deleted, tenant := (s.keyAt n).tenant, key1 := 0, key2 := 0 })
           (s.keyAt n).tenant)) n)))
     ∧ (n = t → (s.keyAt n).st = .empty → exec (.keyDelete via a0 at_) s = ended 2 13 0)
     ∧ (∀ k, s.keySlot t = some (n, k) → exec (.keyFind via a0 at_) s = .next ((u 3).xtCode 0 n))
     ∧ (s.keySlot t = none → exec (.keyFind via a0 at_) s = .next ((u 3).xtCode 13 0)))
  ∧ (∀ (s : State) (code slot : Nat), RegsOrdered s → code < 256 → slot < 4096 →
       let t := s.xtCode code slot
       t.get F.XT_CMD_STATUS.CODE = code ∧ t.get F.XT_CMD_STATUS.RESULT = slot ∧ t.get F.XT_CMD_STATUS.BUSY = 0
       ∧ t.get F.XT_CMD.GO = 0 ∧ (∀ i, i < 8 → t.reg .XT_KEY_DATA i = 0#64) ∧ t = { s with regs := t.regs })
  ∧ (∀ (s : State) (lane core frame retryCore at_ : Nat) (write : Bool), RegsOrdered s → lane < 24 →
       let k := lane * 16 + core
       let l := (SMap.findD s.cipher.coreFaults k []).filter (fun t => decide (max s.now at_ < t + 86400000000000)) ++ [max s.now at_]
       let lanes (u : State) : BitVec 24 := BitVec.ofNat 24 (u.get F.XT_AVAIL.LANES)
       let counted (u : State) (n : Nat) : Prop := u.get F.XT_STATUS.CORE_FAULT = 1
         ∧ u.get F.XT_COUNT.FAULTS = satAdd F.XT_COUNT.FAULTS.w (s.get F.XT_COUNT.FAULTS) n
         ∧ SMap.findD u.cipher.coreFaults k [] = l ∧ (∀ j, j ≠ lane → (lanes u).getLsbD j = (lanes s).getLsbD j)
         ∧ (l.length < max 1 (s.get F.XT_CTL.FAULT_LIMIT) → lanes u = lanes s)
         ∧ (max 1 (s.get F.XT_CTL.FAULT_LIMIT) ≤ l.length → (lanes u).getLsbD lane = false) ∧ u.mem = s.mem
         ∧ u.lines = s.lines ∧ u.cipher.retries = s.cipher.retries ∧ u.cipher.slots = s.cipher.slots
       (∃ u : State, exec (.cipherParityFault lane core frame write true retryCore at_) s = .next u ∧ counted u 1)
       ∧ (∃ u : State, exec (.cipherParityFault lane core frame write false retryCore at_) s =
           .next (State.settle (if write = true then u.cipherWriteLost frame else u.cipherReadLost frame))
           ∧ counted u 2 ∧ u.get F.XT_STATUS.MEDIA_LOST = 1))
  ∧ (∀ (s : State) (frame at_ : Nat),
       (SMap.has s.lines.running frame = true → s.cipherWriteLost frame = { s with
         lines := { s.lines with
           running := SMap.del s.lines.running frame, again := SMap.del s.lines.again frame,
           destageQ := insertSorted frame s.lines.destageQ },
         cipher := { s.cipher with retries := insertSorted frame s.cipher.retries } })
       ∧ (s.cipher.retries.contains frame = true → exec (.cipherWriteRetry frame at_) s = .next (State.settle (State.destageStart
           { s.tick at_ with cipher := { s.cipher with retries := removeNum frame s.cipher.retries } } frame)))
       ∧ (s.cipher.retries.contains frame = false → exec (.cipherWriteRetry frame at_) s = .next (s.tick at_)))

/-! Power sequencing (13). -/

/-- A counted rise steps the state, a command moves it by its table, work that ends releases PSYNC, and bounds and failures
act (13 R360, 13 R361, 13 R362, 13 R363, 13 R366, 13 R367, 13 R379, 13 Table 13.1, 13 Table 13.3, 13 Table 13.5, 13 Table
13.8, 02 R84). -/
def Obligations.PowerStatesFollowPsync : Prop :=
  (∀ (s : State) (at_ : Nat) (r : WorkRes), RegsOrdered s →
     let now := s.tick at_
     let st := s.power.state
     let cmdDone (u : State) (n : Nat) : State := { u with power := { u.power with
       cmd := none, downTop := if n = 14 then 0 else u.power.downTop } }
     (s.power.holding = false → s.power.psyncHigh = false → st ≠ 0 →
       let u := now.enterState ((st + 1) % 32)
       (s.power.cmd = none → exec (.psyncRise at_) s = .next u.stepLow)
       ∧ (∀ c, s.power.cmd = some c → exec (.psyncRise at_) s = .next ((State.emit { u with power := { u.power with
           psyncHigh := true, cmd := some c } } (.cmdLow (match c with | .turn => 4 | .loop => 7 | .reset => 15))))))
     ∧ (s.power.holding = true → exec (.psyncRise at_) s = .next now)
     ∧ (s.power.cmd = some .turn → s.power.psyncHigh = true → ∀ n,
         (st = 1 ∧ n = 31 ∨ (2 ≤ st ∧ st ≤ 7 ∧ n = 32 - st) ∨ (st = 8 ∧ n = 23) ∨ (9 ≤ st ∧ st ≤ 11 ∧ n = 21)
           ∨ (12 ≤ st ∧ st ≤ 14 ∧ n = 19) ∨ (15 ≤ st ∧ st ≤ 19 ∧ n = 14)) →
         exec (.turn at_) s = .next (State.stepLow ((cmdDone now n).enterState n)))
     ∧ (st = 21 → s.power.cmd = some .loop → s.power.psyncHigh = true → exec (.loop at_) s =
         .next (State.stepLow ((cmdDone (now.loseVolatile true) 9).enterState 9)))
     ∧ (s.power.cmd = some .reset → s.power.psyncHigh = true → exec (.psyncReset at_) s =
         .next (State.stepLow ((cmdDone now 0).enterState 0)))
     ∧ (s.power.cmd = none → ∀ x ∈ [Instr.turn at_, .loop at_, .psyncReset at_], exec x s = .next now)
     ∧ (s.power.begun = true → s.power.holding = true →
       let done (t : State) : Prop := exec (.stateWorkDone r at_) s = .next t
       (21 ≤ st → r.railsOk = true → done now.letGo)
       ∧ (2 ≤ st ∧ st ≤ 7 → r.railsOk = true → done ((now.railsSettled st).letGo))
       ∧ (1 ≤ st ∧ st ≤ 8 → r.railsOk = false → done now.failStep)
       ∧ (∀ u ok, st = 1 → r.railsOk = true → State.chooseImage (now.railsSettled 1) = (u, ok) →
           done (if ok = true then u.letGo else u.failStep))
       ∧ (st = 8 → r.railsOk = true → s.power.testMode = false → done ((now.railsSettled 8).letGo))
       ∧ (st = 8 → r.railsOk = true → s.power.testMode = true → s.power.cmd = none → done (now.railsSettled 8))
       ∧ (st = 9 → done (now.workCells r)) ∧ (st = 10 → done (State.letGo ((now.recoat r.recoat).reapplyList)))
       ∧ (∀ u ok, st = 11 → now.workImage r = (u, ok) → done (if ok = true then u.letGo else u.failStep))
       ∧ (st = 12 → done (State.letGo (State.settle
           (now.trainPorts (s.portsOf 1 ++ s.portsOf 2 ++ s.portsOf 3) r.portsTrained))))
       ∧ (st = 13 → done (if s.pairReady = true then State.letGo (State.settle (State.healSuspect now.restartCases)) else now))
       ∧ (st = 15 → done now.letGo)
       ∧ (st = 16 → done (if s.twin.group = none ∧ s.twin.downWork = [] then now.letGo else now))
       ∧ (st = 18 → done (State.letGo now.writeSave)) ∧ (st = 19 → done (State.letGo now.workCommit))
       ∧ (st = 20 → s.twin.st = .yielded → done now.workYield))
     ∧ (s.power.psyncHigh = false → s.power.holding = true →
         (1 ≤ st ∧ st ≤ 8 → (onRails st).all (fun n => s.railLive n) = false → exec (.stateBoundExpiry at_) s = .next now.failStep)
         ∧ (¬(1 ≤ st ∧ st ≤ 8) → exec (.stateBoundExpiry at_) s = .next now))
     ∧ (s.power.psyncHigh = false → s.power.holding = false → ∃ u : State, FlagSet now u F.PW_STATUS.PSYNC_FAULT 0
         ∧ (s.power.cmd ≠ some .turn →
           (1 ≤ st ∧ st ≤ 13 → exec (.stateBoundExpiry at_) s = .next u.failStep)
           ∧ (14 ≤ st ∧ st ≤ 18 → exec (.stateBoundExpiry at_) s = .next u)
           ∧ (19 ≤ st → exec (.stateBoundExpiry at_) s = .next (u.emergencyStop 0xFF)))
         ∧ (s.power.cmd = some .turn → exec (.stateBoundExpiry at_) s = .next (u.emergencyStop 0xFF))))
  ∧ (∀ (s : State) (n : Nat), RegsOrdered s →
       (s.enterState n).power.state = n ∧ (s.enterState n).power.begun = false
       ∧ (s.power.holding = true → s.letGo = State.emit { s with power := { s.power with holding := false } } (.psync false))
       ∧ (s.power.holding = false → s.letGo = s)
       ∧ (let t := s.failStep
          t.power.cause = 4 ∧ t.power.waitToggle = true ∧ t.power.holding = false ∧ t.get F.PW_STATUS.STEP_FAIL = 1
          ∧ t.get F.PW_DOWN_LOG.CAUSE = 4 ∧ (s.power.cmd = none → t.power.cmd = some .turn) ∧ t.power.state = s.power.state
          ∧ t.mem = s.mem ∧ t.lines = s.lines)
       ∧ (s.power.cause ≠ 6 →
          let t := s.emergencyStop n
          t.power.cause = 6 ∧ t.power.cmd = some .reset ∧ t.power.holding = false ∧ t.power.mgmtUp = false
          ∧ t.power.emergency = some (n, s.power.state, s.now) ∧ (∀ k, k < 11 → (t.rail k).enabled = false)
          ∧ t.power.state = s.power.state ∧ t.lines.dirty = [] ∧ t.bay.bolts = s.bay.bolts ∧ t.save.frames = s.save.frames)
       ∧ (let t := s.writeSave
          let lines := t.save.frames.flatMap (fun f => f.lines)
          t.save.written = true ∧ t.save.frames.length = (s.lines.dirty.length + 55) / 56
          ∧ lines.map (fun x => x.line) = SMap.keys s.lines.dirty ∧ (∀ f ∈ t.save.frames, f.lines.length ≤ 56)
          ∧ (SMap.wf s.lines.dirty = true → ∀ x ∈ lines, x.poison = (s.isPoison x.line || s.lineLost x.line)
            ∧ x.data = if x.poison then 0#512 else s.line x.line)
          ∧ ((∀ n ∈ SMap.keys s.lines.dirty, s.lineLost n = false) → t.mem = s.mem ∧ t.lines = s.lines)))

/-- Three samples move a rail's level, and requests, the energy store, SYSCLK and the MGMT link act on their state (13 R368,
13 R369, 13 R371, 13 R372, 13 R373, 13 R375, 13 R378, 13 Table 13.6, 02 R66, 11 R328, 16 R418, 12 R345). -/
def Obligations.RailsRequestsAndClocksAct : Prop :=
  (∀ (s : State) (n mv j8 at_ : Nat) (fb : Bool), n < 11 →
     let now := s.tick at_
     let r := s.rail n
     let nom := s.railNominal n
     let off := max mv nom - min mv nom
     let m := Meter.sample ⟨r.level, r.overWarn, r.overFault, r.inWarn, r.inFault⟩
       (decide (railWarn n * nom < off * 1000)) (decide (railFaultLevel n * nom < off * 1000)) (fb && railPmbus n)
     (s.railLive n = false → exec (.railSample n mv fb j8 at_) s =
       .next (now.putRail n { r with mv := mv, junction := if n = 3 then j8 else r.junction }))
     ∧ (s.railLive n = true → n ≠ 3 → exec (.railSample n mv fb j8 at_) s = .next (State.railMoved (now.putRail n { r with
         mv := mv, level := m.level, overWarn := m.overWarn, overFault := m.overFault, inWarn := m.inWarn,
         inFault := m.inFault }) n (max r.level r.jLevel) (max m.level r.jLevel)))
     ∧ (s.power.throttle = true → s.anyWarning = false → exec (.throttleEnd at_) s =
         .next { now with power := { s.power with throttle := false } })
     ∧ (s.power.throttle = true → s.anyWarning = true → exec (.throttleEnd at_) s = .next now))
  ∧ (∀ (m : Meter) (w f b : Bool), m.level ≤ 2 →
       (2 ≤ m.overFault → (m.sample w true b).level = 2) ∧ (m.sample w f true).level = 2
       ∧ (m.level = 0 → m.overFault < 2 → 2 ≤ m.overWarn → (m.sample true f false).level = 1)
       ∧ (m.level = 0 → m.overFault < 2 → m.overWarn < 2 → (m.sample w f false).level = 0)
       ∧ (m.level = 1 → m.inWarn < 2 → m.overFault < 2 → (m.sample w f false).level = 1)
       ∧ (m.level = 1 → 2 ≤ m.inWarn → (m.sample false false false).level = 0)
       ∧ (m.level = 2 → m.inFault < 2 → (m.sample w f false).level = 2))
  ∧ (∀ (s : State) (n k : Nat), RegsOrdered s →
       s.railMoved n k k = s ∧ (s.power.throttle = true → FlagSet s (s.railMoved n 0 1) F.PW_STATUS.RAIL_WARN 0)
       ∧ (s.power.state = 0 → FlagSet s (s.railMoved n 1 2) F.PW_STATUS.RAIL_FAULT 0))
  ∧ (∀ (s : State) (j rate at_ : Nat), RegsOrdered s →
       let now := s.tick at_
       let p := s.power
       let down (u : State) (cause : Nat) : Host.Outcome State Fault Refusal :=
         .next (State.emit { u with power := { u.power with due := cause, holding := false } } (.psync false))
       let warn (low : Bool) : State := { now with power := { p with pfWarn := low } }
       (p.pfFail = false → s.lines.storeZero = false → exec (.pfWarnChange true at_) s = .next (State.settle (State.budgetChanged
         (State.raise { warn true with lines := { s.lines with storeZero := true } } F.PW_STATUS.STORE_NOT_READY) s.effGib)))
       ∧ (s.lines.storeZero = true → exec (.pfWarnChange false at_) s = .next (State.settle (State.budgetChanged
           { warn false with lines := { s.lines with storeZero := false } } s.effGib)))
       ∧ (s.inService = true → p.holding = true →
         exec (.pfFailChange true at_) s = down { now with power := { p with pfFail := true, supply := false } } 2
         ∧ exec (.pwrReqChange false at_) s = down { now with power := { p with pwrReq := false, waitToggle := false } } 1
         ∧ (let l := (List.range 112).map (fun k => k + 24)
            exec (.sysclkLoss at_) s = down (State.raise { now with
              time := { now.time with sysclkOk := false },
              image := { s.image with unlocked := l.foldl (fun a n => insertSorted n a) s.image.unlocked } }
              F.IS_STATUS.CLOCK_LOST) 5))
       ∧ (p.pfWarn = false → s.lines.storeZero = false → exec (.pfFailChange false at_) s =
           .next { now with power := { p with pfFail := false } })
       ∧ (p.state = 0 → p.holding = true → p.pwrReq = true → p.waitToggle = false → p.pfFail = false → exec (.supplyGood at_) s =
           .next (State.emit { now with power := { p with supply := true, holding := false } } (.psync false)))
       ∧ (p.state = 0 → p.holding = true → p.supply = true → p.waitToggle = false → exec (.pwrReqChange true at_) s =
           .next (State.emit { now with power := { p with pwrReq := true, holding := false } } (.psync false)))
       ∧ (10 ≤ p.state → p.state ≤ 20 → j < s.get F.PW_ENERGY_DECL.USABLE_J → exec (.energyStorePoll j at_) s =
           .next (State.settle ((now.put F.PW_ENERGY_DECL.USABLE_J j).budgetChanged s.effGib)))
       ∧ (s.get F.PW_ENERGY_DECL.USABLE_J ≤ j → exec (.energyStorePoll j at_) s = .next now)
       ∧ (p.state < 9 → exec (.sysclkLoss at_) s = .next { now with time := { now.time with sysclkOk := false } })
       ∧ exec (.sysclkReturn at_) s = .next { now with time := { now.time with sysclkOk := true } }
       ∧ (5 < p.state → p.state ≤ 25 → ∃ t : State, exec (.mgmtLinkTrained rate at_) s = .next t
           ∧ t.get F.PT_MGMT_LINK.STATE = 2 ∧ t.get F.PT_MGMT_LINK.RATE = min 4 rate
           ∧ t = { now with regs := t.regs, power := { p with mgmtUp := true } })
       ∧ (p.mgmtUp = true → ∃ t : State, exec (.mgmtLinkDown at_) s = .next t ∧ FlagSet
           (State.put { now with power := { p with mgmtUp := false } } F.PT_MGMT_LINK.STATE 0) t F.PT_DEV_STATUS.MGMT_DOWN 0)
       ∧ (p.mgmtUp = false → exec (.mgmtLinkDown at_) s = .next now))

/-! Events and the test port (14, 15, 16). -/

/-- HEAD moves as far as TAIL, an interval's end sends one interrupt, an hour writes a summary, and an edge is captured (14
R386, 14 R389, 14 R397, 14 Table 14.7, 14 Table 14.10, 15 R408). -/
def Obligations.EventPointersTimersAndCapturesAct : Prop :=
  (∀ (s : State) (via : Via) (w : AccW) (v : Word) (at_ : Nat), RegsOrdered s → Served s via (accOff .BB_EV_PTR 0 w) →
     NoRsv .BB_EV_PTR w v → w ≠ .hi →
     let now := s.tick at_
     let n := (bitsOf v 0 12 + 4096 - s.events.head) % 4096
     (n ≤ s.events.unread → exec (.bbEvPtrWrite via w v at_) s = .next { now with events := { s.events with
       head := (s.events.head + n) % 4096, unread := s.events.unread - n } })
     ∧ (s.events.unread < n → ∃ t : State, exec (.bbEvPtrWrite via w v at_) s = .next t ∧ t.get F.BB_STATUS.PTR_BAD = 1
         ∧ t.events.head = s.events.head ∧ t = { now with regs := t.regs, out := t.out, events := t.events, ports := t.ports }))
  ∧ (∀ (s : State) (port : Option Nat) (at_ st : Nat) (due : Bool),
       let now := s.tick at_
       let k := match port with | some p => p | none => 96
       SMap.find s.events.coalesce k = some (st, due) →
       (max s.now at_ < st + s.coalesceNs → exec (.eventCoalesceTimer port at_) s = .next now)
       ∧ (st + s.coalesceNs ≤ max s.now at_ →
         (due = true → exec (.eventCoalesceTimer port at_) s = .next (State.evSend { now with events := { s.events with
           coalesce := SMap.put s.events.coalesce k (max s.now at_, false) } } k))
         ∧ (due = false → exec (.eventCoalesceTimer port at_) s = .next { now with events := { s.events with
           coalesce := SMap.del s.events.coalesce k } })))
  ∧ (∀ (s : State) (at_ : Nat), s.events.health.length = 16 →
       (11 ≤ s.power.state ∧ s.power.state ≤ 20 → ∃ t : State, exec (.healthSummaryTimer at_) s = .next t
         ∧ t.events.health.getD 0 0 = s.events.health.getD 0 0 + 1
         ∧ (∀ i, i ≠ 0 → t.events.health.getD i 0 = s.events.health.getD i 0)
         ∧ SMap.find t.events.summaries (s.events.summarySeq % Config.healthSlots) = some {
             seq := s.events.summarySeq, dt := max s.now at_, counters := t.events.health, lid := s.flash.lidBins,
             junction := s.flash.juncBins, classes := s.flash.classCounts }
         ∧ t = { s.tick at_ with events := { s.events with
             health := t.events.health, summaries := t.events.summaries, summarySeq := s.events.summarySeq + 1 } })
       ∧ (s.power.state < 11 ∨ 20 < s.power.state → exec (.healthSummaryTimer at_) s = .next (s.tick at_)))
  ∧ (∀ (s : State) (gpio at_ : Nat) (rising : Bool), RegsOrdered s →
       let now := s.tick at_
       (s.watches gpio rising = true → s.time.captureUnread = false → ∃ t : State, exec (.gpioEdge gpio rising at_) s = .next t
         ∧ FlagSet (State.put { now with time := { now.time with captureUnread := true } } F.TM_CAPTURE.DT at_) t
             F.TM_STATUS.CAPTURED 0)
       ∧ (s.watches gpio rising = true → s.time.captureUnread = true → ∃ t : State, exec (.gpioEdge gpio rising at_) s = .next t
         ∧ FlagSet now t F.TM_STATUS.CAPTURE_MISSED 0)
       ∧ (s.watches gpio rising = false → exec (.gpioEdge gpio rising at_) s = .next now))

/-- Each TAP instruction scans its register, acts as BYPASS outside board test where it must, and OTP cells are set once (16
R419, 16 R420, 16 R421, 16 Table 16.5, 12 R334). -/
def Obligations.TestPortInstructionsScan : Prop :=
  (∀ (s : State) (pins sh : Bsr), s.jtag.nvmOn = false →
     let at_ (ir : TapIr) : State := { s with jtag := { s.jtag with ir := ir } }
     let bypassed (ir : TapIr) : Host.Outcome State Fault Refusal := .next (State.emit (at_ ir) (.tdo 0xFF 0))
     let scanned (ir : TapIr) (code : Nat) : Host.Outcome State Fault Refusal :=
       .next (State.emit { s with jtag := { s.jtag with ir := ir, bsr := pins, latch := sh } } (.tdo code pins))
     let loaded (ir : TapIr) : Host.Outcome State Fault Refusal := .next { s with jtag := { s.jtag with ir := ir, latch := sh } }
     exec .bypass s = bypassed .bypass
     ∧ exec .idcode s = .next (State.emit (at_ .idcode)
         (.tdo 0x01 (BitVec.ofNat 8214 (1 + 0x673 * 2 + 0x9648 * 2 ^ 12 + 0x1 * 2 ^ 28))))
     ∧ exec (.samplePreload pins sh) s = scanned .sample 0x02
     ∧ (s.boardTest = true →
       exec (.extest pins sh) s = scanned .extest 0x03 ∧ exec .clamp s = bypassed .clamp ∧ exec .highz s = bypassed .highz
       ∧ exec (.extestPulse sh) s = loaded .pulse ∧ exec (.extestTrain sh) s = loaded .train)
     ∧ (s.boardTest = false → ∀ c ∈ [Instr.extest pins sh, .clamp, .highz, .extestPulse sh, .extestTrain sh],
         exec c s = bypassed .bypass))
  ∧ (∀ (s : State) (addr at_ : Nat) (health : Bool),
       let now := s.tick at_
       let asked := State.emit { now with jtag := { s.jtag with
         ir := .envmRead, addr := addr % 2 ^ 24 / 8 * 8, health := health, busy := true, ready := false, data := 0#64 } }
         (.tdo 0x20 s.envmCapture)
       (s.power.state ≠ 0 ∨ s.jtag.nvmOn = true → exec (.envmRead addr health at_) s = .next asked)
       ∧ (s.power.state = 0 → s.jtag.nvmOn = false → exec (.envmRead addr health at_) s = .next (State.switchRail
           { asked with jtag := { asked.jtag with nvmOn := true } } 1 true))
       ∧ (s.jtag.busy = true → (s.rail 1).enabled = true → exec (.envmReadDone at_) s = .next { now with jtag := { s.jtag with
           busy := false, ready := true, data := s.envmWord s.jtag.addr s.jtag.health } })
       ∧ (s.jtag.nvmOn = true → s.power.state = 0 → exec .bypass s = .next (State.emit (State.switchRail { s with jtag :=
           { s.jtag with ir := .bypass, nvmOn := false } } 1 false) (.tdo 0xFF 0))))
  ∧ (∀ (s : State) (hash : BitVec 384), s.jtag.nvmOn = false →
       let u : State := { s with jtag := { s.jtag with ir := .otp } }
       (s.power.state = 0 → s.otp.custHash = none → exec (.otpKeyhash true hash) s =
         .next { u with otp := { s.otp with custHash := some hash } })
       ∧ (s.power.state = 0 → s.otp.gwHash = none → exec (.otpKeyhash false hash) s =
         .next { u with otp := { s.otp with gwHash := some hash } })
       ∧ (s.power.state = 0 → s.otp.custHash ≠ none → exec (.otpKeyhash true hash) s = .next u)
       ∧ (s.power.state = 0 → s.otp.gwHash ≠ none → exec (.otpKeyhash false hash) s = .next u)
       ∧ (s.power.state ≠ 0 → ∀ c, exec (.otpKeyhash c hash) s = .next u))
end

