-- ==== Sys2Proof/Laws/Exec.lean ====
section
/-! SUPPORT. exec of each command is the meaning of that command, and a step runs the front command: the equations that a proof
rewrites with instead of unfolding exec. -/

namespace Sys2Proof.Laws

open Sys2Proof Machine

theorem step_cons (s : State) (c : Instr) (rest : List Instr) (h : s.pending = c :: rest) :
    step s = exec c { s with pending := rest } := by
  unfold step; rw [h]

theorem step_nil (s : State) (h : s.pending = []) : step s = .next (idle s) := by
  unfold step; rw [h]

@[simp] theorem exec_registerWrite (via : Via) (off : Nat) (w : AccW) (v : Word) (at_ : Nat) (s : State) :
    exec (.registerWrite via off w v at_) s = execRegisterWrite via off w v at_ s := rfl
@[simp] theorem exec_badSizeAccess (via : Via) (off : Nat) (write : Bool) (s : State) :
    exec (.badSizeAccess via off write) s = execBadSizeAccess via off write s := rfl
@[simp] theorem exec_memRd (port ld tag hpa at_ : Nat) (s : State) :
    exec (.memRd port ld tag hpa at_) s = execMemRd port ld tag hpa at_ s := rfl
@[simp] theorem exec_memWr (port ld tag hpa : Nat) (be : Word) (data : LineData) (at_ : Nat) (s : State) :
    exec (.memWr port ld tag hpa be data at_) s = execMemWr port ld tag hpa be data at_ s := rfl
@[simp] theorem exec_boltCacheMissFill (id at_ : Nat) (s : State) :
    exec (.boltCacheMissFill id at_) s = execBoltCacheMissFill id at_ s := rfl
@[simp] theorem exec_heldRequestRetry (id at_ : Nat) (s : State) :
    exec (.heldRequestRetry id at_) s = execHeldRequestRetry id at_ s := rfl
@[simp] theorem exec_holdExpiry (id at_ : Nat) (s : State) : exec (.holdExpiry id at_) s = execHoldExpiry id at_ s := rfl
@[simp] theorem exec_routeDrainDone (dev at_ : Nat) (s : State) :
    exec (.routeDrainDone dev at_) s = execRouteDrainDone dev at_ s := rfl
@[simp] theorem exec_bind (via : Via) (a0 a1 a2 : Word) (at_ : Nat) (s : State) :
    exec (.bind via a0 a1 a2 at_) s = execBind via a0 a1 a2 at_ s := rfl
@[simp] theorem exec_unbind (via : Via) (a0 : Word) (at_ : Nat) (s : State) :
    exec (.unbind via a0 at_) s = execUnbind via a0 at_ s := rfl
@[simp] theorem exec_modify (via : Via) (a0 a1 a2 : Word) (at_ : Nat) (s : State) :
    exec (.modify via a0 a1 a2 at_) s = execModify via a0 a1 a2 at_ s := rfl
@[simp] theorem exec_blReadEntry (via : Via) (a0 : Word) (at_ : Nat) (s : State) :
    exec (.blReadEntry via a0 at_) s = execBlReadEntry via a0 at_ s := rfl
@[simp] theorem exec_tenantCreate (via : Via) (at_ : Nat) (s : State) :
    exec (.tenantCreate via at_) s = execTenantCreate via at_ s := rfl
@[simp] theorem exec_tenantDelete (via : Via) (a0 : Word) (at_ : Nat) (s : State) :
    exec (.tenantDelete via a0 at_) s = execTenantDelete via a0 at_ s := rfl
@[simp] theorem exec_ldAttach (via : Via) (a0 : Word) (at_ : Nat) (s : State) :
    exec (.ldAttach via a0 at_) s = execLdAttach via a0 at_ s := rfl
@[simp] theorem exec_blCmdTimeout (at_ : Nat) (s : State) : exec (.blCmdTimeout at_) s = execBlCmdTimeout at_ s := rfl
@[simp] theorem exec_dirtySpanWriteDone (span : Nat) (a b : Bool) (at_ : Nat) (s : State) :
    exec (.dirtySpanWriteDone span a b at_) s = execDirtySpanWriteDone span a b at_ s := rfl
@[simp] theorem exec_dirtySpanRetry (span : Nat) (a b : Bool) (at_ : Nat) (s : State) :
    exec (.dirtySpanRetry span a b at_) s = execDirtySpanRetry span a b at_ s := rfl
@[simp] theorem exec_dirtySpanClear (span : Nat) (at_ : Nat) (s : State) :
    exec (.dirtySpanClear span at_) s = execDirtySpanClear span at_ s := rfl
@[simp] theorem exec_destageAgeExpiry (line at_ : Nat) (s : State) :
    exec (.destageAgeExpiry line at_) s = execDestageAgeExpiry line at_ s := rfl
@[simp] theorem exec_destageFrameDone (frame group slot : Nat) (lines : Word) (at_ : Nat) (s : State) :
    exec (.destageFrameDone frame group slot lines at_) s = execDestageFrameDone frame group slot lines at_ s := rfl
@[simp] theorem exec_rmwReadDone (frame : Nat) (ok : Bool) (at_ : Nat) (s : State) :
    exec (.rmwReadDone frame ok at_) s = execRmwReadDone frame ok at_ s := rfl
@[simp] theorem exec_mergeEntryClose (sub line : Nat) (loc : DramLoc) (b : Burst) (at_ : Nat) (s : State) :
    exec (.mergeEntryClose sub line loc b at_) s = execMergeEntryClose sub line loc b at_ s := rfl
@[simp] theorem exec_gpfPhase1 (port at_ : Nat) (s : State) : exec (.gpfPhase1 port at_) s = execGpfPhase1 port at_ s := rfl
@[simp] theorem exec_gpfPhase2 (port at_ : Nat) (s : State) : exec (.gpfPhase2 port at_) s = execGpfPhase2 port at_ s := rfl
@[simp] theorem exec_pwDirtyBudgetWrite (via : Via) (w : AccW) (v : Word) (at_ : Nat) (s : State) :
    exec (.pwDirtyBudgetWrite via w v at_) s = execPwDirtyBudgetWrite via w v at_ s := rfl
@[simp] theorem exec_pwEnergyDeclWrite (via : Via) (w : AccW) (v : Word) (at_ : Nat) (s : State) :
    exec (.pwEnergyDeclWrite via w v at_) s = execPwEnergyDeclWrite via w v at_ s := rfl
@[simp] theorem exec_pwPoisonCountRead (via : Via) (w : AccW) (s : State) :
    exec (.pwPoisonCountRead via w) s = execPwPoisonCountRead via w s := rfl
@[simp] theorem exec_heartbeatTimer (at_ : Nat) (s : State) : exec (.heartbeatTimer at_) s = execHeartbeatTimer at_ s := rfl
@[simp] theorem exec_plumbSendTimer (at_ : Nat) (s : State) : exec (.plumbSendTimer at_) s = execPlumbSendTimer at_ s := rfl
@[simp] theorem exec_plumbFrameRx (f : HbFrame) (at_ : Nat) (s : State) :
    exec (.plumbFrameRx f at_) s = execPlumbFrameRx f at_ s := rfl
@[simp] theorem exec_heartbeat (h : Hdr) (f : HbFrame) (at_ : Nat) (s : State) :
    exec (.heartbeat h f at_) s = execHeartbeat h f at_ s := rfl
@[simp] theorem exec_yield (plumb : Bool) (f : HbFrame) (at_ : Nat) (s : State) :
    exec (.yield plumb f at_) s = execYield plumb f at_ s := rfl
@[simp] theorem exec_missDeadline (pathB : Bool) (at_ : Nat) (s : State) :
    exec (.missDeadline pathB at_) s = execMissDeadline pathB at_ s := rfl
@[simp] theorem exec_leaseLapse (at_ : Nat) (s : State) : exec (.leaseLapse at_) s = execLeaseLapse at_ s := rfl
@[simp] theorem exec_watchdogExpiry (at_ : Nat) (s : State) : exec (.watchdogExpiry at_) s = execWatchdogExpiry at_ s := rfl
@[simp] theorem exec_carrierLoss (at_ : Nat) (s : State) : exec (.carrierLoss at_) s = execCarrierLoss at_ s := rfl
@[simp] theorem exec_carrierPresent (at_ : Nat) (s : State) : exec (.carrierPresent at_) s = execCarrierPresent at_ s := rfl
@[simp] theorem exec_tFreeReached (at_ : Nat) (s : State) : exec (.tFreeReached at_) s = execTFreeReached at_ s := rfl
@[simp] theorem exec_selfDiagnosisFail (at_ : Nat) (s : State) :
    exec (.selfDiagnosisFail at_) s = execSelfDiagnosisFail at_ s := rfl
@[simp] theorem exec_takeoverRecordWritten (at_ : Nat) (s : State) :
    exec (.takeoverRecordWritten at_) s = execTakeoverRecordWritten at_ s := rfl
@[simp] theorem exec_rotateSlotTimer (at_ : Nat) (s : State) :
    exec (.rotateSlotTimer at_) s = execRotateSlotTimer at_ s := rfl
@[simp] theorem exec_handoverDrainDone (at_ : Nat) (s : State) :
    exec (.handoverDrainDone at_) s = execHandoverDrainDone at_ s := rfl
@[simp] theorem exec_rotateWaitTimeout (at_ : Nat) (s : State) :
    exec (.rotateWaitTimeout at_) s = execRotateWaitTimeout at_ s := rfl
@[simp] theorem exec_handoverTimeout (at_ : Nat) (s : State) :
    exec (.handoverTimeout at_) s = execHandoverTimeout at_ s := rfl
@[simp] theorem exec_twCmdYield (via : Via) (at_ : Nat) (s : State) :
    exec (.twCmdYield via at_) s = execTwCmdYield via at_ s := rfl
@[simp] theorem exec_declareLost (via : Via) (at_ : Nat) (s : State) :
    exec (.declareLost via at_) s = execDeclareLost via at_ s := rfl
@[simp] theorem exec_rotateNow (via : Via) (at_ : Nat) (s : State) :
    exec (.rotateNow via at_) s = execRotateNow via at_ s := rfl
@[simp] theorem exec_fullRejoin (via : Via) (at_ : Nat) (s : State) :
    exec (.fullRejoin via at_) s = execFullRejoin via at_ s := rfl
@[simp] theorem exec_twMissStatRead (via : Via) (w : AccW) (s : State) :
    exec (.twMissStatRead via w) s = execTwMissStatRead via w s := rfl
@[simp] theorem exec_decayTimer (at_ : Nat) (s : State) : exec (.decayTimer at_) s = execDecayTimer at_ s := rfl
@[simp] theorem exec_migrationCopyDone (span at_ : Nat) (s : State) :
    exec (.migrationCopyDone span at_) s = execMigrationCopyDone span at_ s := rfl
@[simp] theorem exec_quotaWrite (via : Via) (tier : Nat) (w : AccW) (v : Word) (at_ : Nat) (s : State) :
    exec (.quotaWrite via tier w v at_) s = execQuotaWrite via tier w v at_ s := rfl
@[simp] theorem exec_floatGapMove (module region : Nat) (s : State) :
    exec (.floatGapMove module region) s = execFloatGapMove module region s := rfl
@[simp] theorem exec_floatSwapCheck (module : Nat) (s : State) :
    exec (.floatSwapCheck module) s = execFloatSwapCheck module s := rfl
@[simp] theorem exec_stMigCountRead (via : Via) (w : AccW) (s : State) :
    exec (.stMigCountRead via w) s = execStMigCountRead via w s := rfl
@[simp] theorem exec_crownFillDone (line : Nat) (res : FillRes) (at_ : Nat) (s : State) :
    exec (.crownFillDone line res at_) s = execCrownFillDone line res at_ s := rfl
@[simp] theorem exec_wayOffReq (via : Via) (way : Nat) (at_ : Nat) (s : State) :
    exec (.wayOffReq via way at_) s = execWayOffReq via way at_ s := rfl
@[simp] theorem exec_wayOnReq (via : Via) (way : Nat) (at_ : Nat) (s : State) :
    exec (.wayOnReq via way at_) s = execWayOnReq via way at_ s := rfl
@[simp] theorem exec_wayCleanDone (way at_ : Nat) (s : State) :
    exec (.wayCleanDone way at_) s = execWayCleanDone way at_ s := rfl
@[simp] theorem exec_wayPowerUpDone (way at_ : Nat) (s : State) :
    exec (.wayPowerUpDone way at_) s = execWayPowerUpDone way at_ s := rfl
@[simp] theorem exec_crLfsrSeedWrite (via : Via) (w : AccW) (v : Word) (at_ : Nat) (s : State) :
    exec (.crLfsrSeedWrite via w v at_) s = execCrLfsrSeedWrite via w v at_ s := rfl
@[simp] theorem exec_crSliceStatRead (via : Via) (w : AccW) (s : State) :
    exec (.crSliceStatRead via w) s = execCrSliceStatRead via w s := rfl
@[simp] theorem exec_crHitStatRead (via : Via) (w : AccW) (s : State) :
    exec (.crHitStatRead via w) s = execCrHitStatRead via w s := rfl
@[simp] theorem exec_crErrStatRead (via : Via) (w : AccW) (s : State) :
    exec (.crErrStatRead via w) s = execCrErrStatRead via w s := rfl
@[simp] theorem exec_csStep (via : Via) (ch : Nat) (v : Word) (lanes : BitVec 40) (bad at_ : Nat) (s : State) :
    exec (.csStep via ch v lanes bad at_) s = execCsStep via ch v lanes bad at_ s := rfl
@[simp] theorem exec_caStep (via : Via) (ch : Nat) (v : Word) (lanes : BitVec 40) (bad at_ : Nat) (s : State) :
    exec (.caStep via ch v lanes bad at_) s = execCaStep via ch v lanes bad at_ s := rfl
@[simp] theorem exec_dqReadStep (via : Via) (ch : Nat) (v : Word) (lanes : BitVec 40) (bad at_ : Nat) (s : State) :
    exec (.dqReadStep via ch v lanes bad at_) s = execDqReadStep via ch v lanes bad at_ s := rfl
@[simp] theorem exec_dqWriteStep (via : Via) (ch : Nat) (v : Word) (lanes : BitVec 40) (bad at_ : Nat) (s : State) :
    exec (.dqWriteStep via ch v lanes bad at_) s = execDqWriteStep via ch v lanes bad at_ s := rfl
@[simp] theorem exec_requestAgeExpiry (sub line at_ : Nat) (s : State) :
    exec (.requestAgeExpiry sub line at_) s = execRequestAgeExpiry sub line at_ s := rfl
@[simp] theorem exec_retrainPause (ch sub eye lane : Nat) (noPass : List Nat) (at_ : Nat) (s : State) :
    exec (.retrainPause ch sub eye lane noPass at_) s = execRetrainPause ch sub eye lane noPass at_ s := rfl
@[simp] theorem exec_refreshRatePoll (ch : Nat) (ind : List Nat) (at_ : Nat) (s : State) :
    exec (.refreshRatePoll ch ind at_) s = execRefreshRatePoll ch ind at_ s := rfl
@[simp] theorem exec_refreshDue (ch : Nat) (busy : Bool) (at_ : Nat) (s : State) :
    exec (.refreshDue ch busy at_) s = execRefreshDue ch busy at_ s := rfl
@[simp] theorem exec_pprRepairDone (ch : Nat) (loc : DramLoc) (spare : Bool) (at_ : Nat) (s : State) :
    exec (.pprRepairDone ch loc spare at_) s = execPprRepairDone ch loc spare at_ s := rfl
@[simp] theorem exec_softPpr (via : Via) (ch : Nat) (v : Word) (spare : Bool) (at_ : Nat) (s : State) :
    exec (.softPpr via ch v spare at_) s = execSoftPpr via ch v spare at_ s := rfl
@[simp] theorem exec_hardPpr (via : Via) (ch : Nat) (v : Word) (spare : Bool) (at_ : Nat) (s : State) :
    exec (.hardPpr via ch v spare at_) s = execHardPpr via ch v spare at_ s := rfl
@[simp] theorem exec_trowelReadDone (f : TrowelFind) (at_ : Nat) (s : State) :
    exec (.trowelReadDone f at_) s = execTrowelReadDone f at_ s := rfl
@[simp] theorem exec_trowelPeriodEnd (tier at_ : Nat) (s : State) :
    exec (.trowelPeriodEnd tier at_) s = execTrowelPeriodEnd tier at_ s := rfl
@[simp] theorem exec_dcErrStatRead (via : Via) (ch : Nat) (w : AccW) (s : State) :
    exec (.dcErrStatRead via ch w) s = execDcErrStatRead via ch w s := rfl
@[simp] theorem exec_flashReadDone (frame step entry : Nat) (ok : Bool) (at_ : Nat) (s : State) :
    exec (.flashReadDone frame step entry ok at_) s = execFlashReadDone frame step entry ok at_ s := rfl
@[simp] theorem exec_flashProgramDone (change : Nat) (ok : Bool) (ch block at_ : Nat) (s : State) :
    exec (.flashProgramDone change ok ch block at_) s = execFlashProgramDone change ok ch block at_ s := rfl
@[simp] theorem exec_mapCommitDone (change at_ : Nat) (s : State) :
    exec (.mapCommitDone change at_) s = execMapCommitDone change at_ s := rfl
@[simp] theorem exec_fineIdleExpiry (span at_ : Nat) (s : State) :
    exec (.fineIdleExpiry span at_) s = execFineIdleExpiry span at_ s := rfl
@[simp] theorem exec_checkpointTrigger (at_ : Nat) (s : State) :
    exec (.checkpointTrigger at_) s = execCheckpointTrigger at_ s := rfl
@[simp] theorem exec_checkpointDone (at_ : Nat) (s : State) : exec (.checkpointDone at_) s = execCheckpointDone at_ s := rfl
@[simp] theorem exec_fullingWindow (at_ : Nat) (s : State) :
    exec (.fullingWindow at_) s = execFullingWindow at_ s := rfl
@[simp] theorem exec_eraseDone (band : Nat) (failed : List (Nat × Nat)) (at_ : Nat) (s : State) :
    exec (.eraseDone band failed at_) s = execEraseDone band failed at_ s := rfl
@[simp] theorem exec_tempSample (lid junction : BitVec 12) (at_ : Nat) (s : State) :
    exec (.tempSample lid junction at_) s = execTempSample lid junction at_ s := rfl
@[simp] theorem exec_flFullCtlWrite (via : Via) (w : AccW) (v : Word) (at_ : Nat) (s : State) :
    exec (.flFullCtlWrite via w v at_) s = execFlFullCtlWrite via w v at_ s := rfl
@[simp] theorem exec_flErrStatRead (via : Via) (ch : Nat) (w : AccW) (s : State) :
    exec (.flErrStatRead via ch w) s = execFlErrStatRead via ch w s := rfl
@[simp] theorem exec_skimJournalWriteDone (group : Nat) (a b : Bool) (at_ : Nat) (s : State) :
    exec (.skimJournalWriteDone group a b at_) s = execSkimJournalWriteDone group a b at_ s := rfl
@[simp] theorem exec_stripeWriteDone (group row at_ : Nat) (s : State) :
    exec (.stripeWriteDone group row at_) s = execStripeWriteDone group row at_ s := rfl
@[simp] theorem exec_stripeAllowanceWindow (use : List (Nat × Nat)) (at_ : Nat) (s : State) :
    exec (.stripeAllowanceWindow use at_) s = execStripeAllowanceWindow use at_ s := rfl
@[simp] theorem exec_rebuildUnitDone (member row : Nat) (spare : Bool) (at_ : Nat) (s : State) :
    exec (.rebuildUnitDone member row spare at_) s = execRebuildUnitDone member row spare at_ s := rfl
@[simp] theorem exec_reshapeStart (via : Via) (at_ : Nat) (s : State) :
    exec (.reshapeStart via at_) s = execReshapeStart via at_ s := rfl
@[simp] theorem exec_reshapePause (via : Via) (at_ : Nat) (s : State) :
    exec (.reshapePause via at_) s = execReshapePause via at_ s := rfl
@[simp] theorem exec_reshapeResume (via : Via) (at_ : Nat) (s : State) :
    exec (.reshapeResume via at_) s = execReshapeResume via at_ s := rfl
@[simp] theorem exec_reshapeSpanDone (span group : Nat) (slots : List (Nat × Nat)) (at_ : Nat) (s : State) :
    exec (.reshapeSpanDone span group slots at_) s = execReshapeSpanDone span group slots at_ s := rfl
@[simp] theorem exec_stParityStatRead (via : Via) (w : AccW) (s : State) :
    exec (.stParityStatRead via w) s = execStParityStatRead via w s := rfl
@[simp] theorem exec_doorbellWrite (via : Via) (q : Nat) (w : AccW) (v : Word) (at_ : Nat) (s : State) :
    exec (.doorbellWrite via q w v at_) s = execDoorbellWrite via q w v at_ s := rfl
@[simp] theorem exec_descriptorFetch (at_ : Nat) (s : State) :
    exec (.descriptorFetch at_) s = execDescriptorFetch at_ s := rfl
@[simp] theorem exec_copy (q ix at_ : Nat) (s : State) : exec (.copy q ix at_) s = execCopy q ix at_ s := rfl
@[simp] theorem exec_fill (q ix at_ : Nat) (s : State) : exec (.fill q ix at_) s = execFill q ix at_ s := rfl
@[simp] theorem exec_flush (q ix at_ : Nat) (s : State) : exec (.flush q ix at_) s = execFlush q ix at_ s := rfl
@[simp] theorem exec_fence (q ix at_ : Nat) (s : State) : exec (.fence q ix at_) s = execFence q ix at_ s := rfl
@[simp] theorem exec_migrate (q ix at_ : Nat) (s : State) : exec (.migrate q ix at_) s = execMigrate q ix at_ s := rfl
@[simp] theorem exec_pin (q ix at_ : Nat) (s : State) : exec (.pin q ix at_) s = execPin q ix at_ s := rfl
@[simp] theorem exec_unpin (q ix at_ : Nat) (s : State) : exec (.unpin q ix at_) s = execUnpin q ix at_ s := rfl
@[simp] theorem exec_discard (q ix at_ : Nat) (s : State) : exec (.discard q ix at_) s = execDiscard q ix at_ s := rfl
@[simp] theorem exec_tileFetch (q ix at_ : Nat) (s : State) : exec (.tileFetch q ix at_) s = execTileFetch q ix at_ s := rfl
@[simp] theorem exec_capture (q ix at_ : Nat) (s : State) : exec (.capture q ix at_) s = execCapture q ix at_ s := rfl
@[simp] theorem exec_run (q ix at_ : Nat) (s : State) : exec (.run q ix at_) s = execRun q ix at_ s := rfl
@[simp] theorem exec_verify (q ix at_ : Nat) (s : State) : exec (.verify q ix at_) s = execVerify q ix at_ s := rfl
@[simp] theorem exec_descriptorDone (q ix at_ : Nat) (s : State) :
    exec (.descriptorDone q ix at_) s = execDescriptorDone q ix at_ s := rfl
@[simp] theorem exec_irqCoalesceTimer (q at_ : Nat) (s : State) :
    exec (.irqCoalesceTimer q at_) s = execIrqCoalesceTimer q at_ s := rfl
@[simp] theorem exec_contextLoadDone (q at_ : Nat) (s : State) :
    exec (.contextLoadDone q at_) s = execContextLoadDone q at_ s := rfl
@[simp] theorem exec_captureWindowEnd (q at_ : Nat) (s : State) :
    exec (.captureWindowEnd q at_) s = execCaptureWindowEnd q at_ s := rfl
@[simp] theorem exec_windowEndDone (q at_ : Nat) (s : State) :
    exec (.windowEndDone q at_) s = execWindowEndDone q at_ s := rfl
@[simp] theorem exec_create (via : Via) (a0 a1 a2 a3 a4 : Word) (at_ : Nat) (s : State) :
    exec (.create via a0 a1 a2 a3 a4 at_) s = execCreate via a0 a1 a2 a3 a4 at_ s := rfl
@[simp] theorem exec_delete (via : Via) (a0 : Word) (at_ : Nat) (s : State) :
    exec (.delete via a0 at_) s = execDelete via a0 at_ s := rfl
@[simp] theorem exec_quStart (via : Via) (a0 : Word) (at_ : Nat) (s : State) :
    exec (.quStart via a0 at_) s = execQuStart via a0 at_ s := rfl
@[simp] theorem exec_quStop (via : Via) (a0 : Word) (at_ : Nat) (s : State) :
    exec (.quStop via a0 at_) s = execQuStop via a0 at_ s := rfl
@[simp] theorem exec_quStopTimeout (at_ : Nat) (s : State) : exec (.quStopTimeout at_) s = execQuStopTimeout at_ s := rfl
@[simp] theorem exec_quReset (via : Via) (a0 : Word) (at_ : Nat) (s : State) :
    exec (.quReset via a0 at_) s = execQuReset via a0 at_ s := rfl
@[simp] theorem exec_quReadEntry (via : Via) (a0 : Word) (at_ : Nat) (s : State) :
    exec (.quReadEntry via a0 at_) s = execQuReadEntry via a0 at_ s := rfl
@[simp] theorem exec_quCtxStatRead (via : Via) (w : AccW) (s : State) :
    exec (.quCtxStatRead via w) s = execQuCtxStatRead via w s := rfl
@[simp] theorem exec_quCapStatRead (via : Via) (w : AccW) (s : State) :
    exec (.quCapStatRead via w) s = execQuCapStatRead via w s := rfl
@[simp] theorem exec_jobStart (e : Nat) (src : TileSrc) (args : TileSrc) (at_ : Nat) (s : State) :
    exec (.jobStart e src args at_) s = execJobStart e src args at_ s := rfl
@[simp] theorem exec_tileResident (e slot : Nat) (src : TileSrc) (at_ : Nat) (s : State) :
    exec (.tileResident e slot src at_) s = execTileResident e slot src at_ s := rfl
@[simp] theorem exec_layerStart (e at_ : Nat) (s : State) : exec (.layerStart e at_) s = execLayerStart e at_ s := rfl
@[simp] theorem exec_layerEnd (e : Nat) (ret : KernelRet) (at_ : Nat) (s : State) :
    exec (.layerEnd e ret at_) s = execLayerEnd e ret at_ s := rfl
@[simp] theorem exec_layerComplete (e at_ : Nat) (s : State) :
    exec (.layerComplete e at_) s = execLayerComplete e at_ s := rfl
@[simp] theorem exec_fenceDeadline (e at_ : Nat) (s : State) :
    exec (.fenceDeadline e at_) s = execFenceDeadline e at_ s := rfl
@[simp] theorem exec_kernelCycleLimit (e at_ : Nat) (s : State) :
    exec (.kernelCycleLimit e at_) s = execKernelCycleLimit e at_ s := rfl
@[simp] theorem exec_userKernelFault (e code slot at_ : Nat) (s : State) :
    exec (.userKernelFault e code slot at_) s = execUserKernelFault e code slot at_ s := rfl
@[simp] theorem exec_engineHwFault (e slot at_ : Nat) (s : State) :
    exec (.engineHwFault e slot at_) s = execEngineHwFault e slot at_ s := rfl
@[simp] theorem exec_enCountRead (via : Via) (e : Nat) (w : AccW) (s : State) :
    exec (.enCountRead via e w) s = execEnCountRead via e w s := rfl
@[simp] theorem exec_linkTrained (port : Nat) (t : Train) (at_ : Nat) (s : State) :
    exec (.linkTrained port t at_) s = execLinkTrained port t at_ s := rfl
@[simp] theorem exec_trainRetry (port : Nat) (t : Option Train) (at_ : Nat) (s : State) :
    exec (.trainRetry port t at_) s = execTrainRetry port t at_ s := rfl
@[simp] theorem exec_linkError (port : Nat) (t : Option Train) (at_ : Nat) (s : State) :
    exec (.linkError port t at_) s = execLinkError port t at_ s := rfl
@[simp] theorem exec_linkDown (port at_ : Nat) (s : State) : exec (.linkDown port at_) s = execLinkDown port at_ s := rfl
@[simp] theorem exec_linkHello (port : Nat) (h : Hello) (at_ : Nat) (s : State) :
    exec (.linkHello port h at_) s = execLinkHello port h at_ s := rfl
@[simp] theorem exec_linkHelloTimer (port at_ : Nat) (s : State) :
    exec (.linkHelloTimer port at_) s = execLinkHelloTimer port at_ s := rfl
@[simp] theorem exec_hdmCommit (port ld : Nat) (d : Hdm) (at_ : Nat) (s : State) :
    exec (.hdmCommit port ld d at_) s = execHdmCommit port ld d at_ s := rfl
@[simp] theorem exec_hotReset (port at_ : Nat) (s : State) : exec (.hotReset port at_) s = execHotReset port at_ s := rfl
@[simp] theorem exec_functionLevelReset (port ld at_ : Nat) (s : State) :
    exec (.functionLevelReset port ld at_) s = execFunctionLevelReset port ld at_ s := rfl
@[simp] theorem exec_identifyMemoryDevice (port ld : Nat) (s : State) :
    exec (.identifyMemoryDevice port ld) s = execIdentifyMemoryDevice port ld s := rfl
@[simp] theorem exec_getSupportedLogs (port ld : Nat) (s : State) :
    exec (.getSupportedLogs port ld) s = execGetSupportedLogs port ld s := rfl
@[simp] theorem exec_getLog (port ld : Nat) (effects : Bool) (offset len : Nat) (s : State) :
    exec (.getLog port ld effects offset len) s = execGetLog port ld effects offset len s := rfl
@[simp] theorem exec_getEventRecords (port ld log : Nat) (s : State) :
    exec (.getEventRecords port ld log) s = execGetEventRecords port ld log s := rfl
@[simp] theorem exec_clearEventRecords (port ld log : Nat) (seqs : Option (List Nat)) (s : State) :
    exec (.clearEventRecords port ld log seqs) s = execClearEventRecords port ld log seqs s := rfl
@[simp] theorem exec_getHealthInfo (port ld : Nat) (s : State) :
    exec (.getHealthInfo port ld) s = execGetHealthInfo port ld s := rfl
@[simp] theorem exec_getPoisonList (port ld : Nat) (remote : List Nat) (s : State) :
    exec (.getPoisonList port ld remote) s = execGetPoisonList port ld remote s := rfl
@[simp] theorem exec_getLsa (port ld offset len : Nat) (s : State) :
    exec (.getLsa port ld offset len) s = execGetLsa port ld offset len s := rfl
@[simp] theorem exec_setLsa (port ld offset : Nat) (data : List Byte) (s : State) :
    exec (.setLsa port ld offset data) s = execSetLsa port ld offset data s := rfl
@[simp] theorem exec_getTimestamp (port ld at_ : Nat) (s : State) :
    exec (.getTimestamp port ld at_) s = execGetTimestamp port ld at_ s := rfl
@[simp] theorem exec_setTimestamp (port ld hostTime at_ : Nat) (s : State) :
    exec (.setTimestamp port ld hostTime at_) s = execSetTimestamp port ld hostTime at_ s := rfl
@[simp] theorem exec_getLdInfo (port : Nat) (s : State) : exec (.getLdInfo port) s = execGetLdInfo port s := rfl
@[simp] theorem exec_getLdAllocations (port : Nat) (s : State) :
    exec (.getLdAllocations port) s = execGetLdAllocations port s := rfl
@[simp] theorem exec_setLdAllocations (port : Nat) (s : State) :
    exec (.setLdAllocations port) s = execSetLdAllocations port s := rfl
@[simp] theorem exec_unsupportedMailboxCommand (port ld op : Nat) (s : State) :
    exec (.unsupportedMailboxCommand port ld op) s = execUnsupportedMailboxCommand port ld op s := rfl
@[simp] theorem exec_moduleHotAdd (port : Nat) (m : ModuleInfo) (at_ : Nat) (s : State) :
    exec (.moduleHotAdd port m at_) s = execModuleHotAdd port m at_ s := rfl
@[simp] theorem exec_moduleRequestTimeout (member row : Nat) (frame : Option Nat) (at_ : Nat) (s : State) :
    exec (.moduleRequestTimeout member row frame at_) s = execModuleRequestTimeout member row frame at_ s := rfl
@[simp] theorem exec_timeSync (h : Hdr) (t1 t2 t3 : Nat) (answer : Bool) (at_ : Nat) (s : State) :
    exec (.timeSync h t1 t2 t3 answer at_) s = execTimeSync h t1 t2 t3 answer at_ s := rfl
@[simp] theorem exec_timeSyncTimer (at_ : Nat) (s : State) : exec (.timeSyncTimer at_) s = execTimeSyncTimer at_ s := rfl
@[simp] theorem exec_bayState (h : Hdr) (dirtyCount : Nat) (health : Word) (s : State) :
    exec (.bayState h dirtyCount health) s = execBayState h dirtyCount health s := rfl
@[simp] theorem exec_mirrorWr (h : Hdr) (be : Word) (data : LineData) (at_ : Nat) (s : State) :
    exec (.mirrorWr h be data at_) s = execMirrorWr h be data at_ s := rfl
@[simp] theorem exec_mirrorAck (h : Hdr) (at_ : Nat) (s : State) : exec (.mirrorAck h at_) s = execMirrorAck h at_ s := rfl
@[simp] theorem exec_fwdRd (h : Hdr) (lines at_ : Nat) (s : State) :
    exec (.fwdRd h lines at_) s = execFwdRd h lines at_ s := rfl
@[simp] theorem exec_fwdWr (h : Hdr) (be : Word) (data : LineData) (at_ : Nat) (s : State) :
    exec (.fwdWr h be data at_) s = execFwdWr h be data at_ s := rfl
@[simp] theorem exec_fwdData (h : Hdr) (pmap : Word) (lines : List LineData) (at_ : Nat) (s : State) :
    exec (.fwdData h pmap lines at_) s = execFwdData h pmap lines at_ s := rfl
@[simp] theorem exec_fwdCmp (h : Hdr) (at_ : Nat) (s : State) : exec (.fwdCmp h at_) s = execFwdCmp h at_ s := rfl
@[simp] theorem exec_ctrlReq (h : Hdr) (op : CtrlOp) (at_ : Nat) (s : State) :
    exec (.ctrlReq h op at_) s = execCtrlReq h op at_ s := rfl
@[simp] theorem exec_ctrlCmp (h : Hdr) (res : List Word) (at_ : Nat) (s : State) :
    exec (.ctrlCmp h res at_) s = execCtrlCmp h res at_ s := rfl
@[simp] theorem exec_repairRd (h : Hdr) (lines at_ : Nat) (s : State) :
    exec (.repairRd h lines at_) s = execRepairRd h lines at_ s := rfl
@[simp] theorem exec_repairData (h : Hdr) (pmap : Word) (lines : List LineData) (at_ : Nat) (s : State) :
    exec (.repairData h pmap lines at_) s = execRepairData h pmap lines at_ s := rfl
@[simp] theorem exec_boltUpdate (h : Hdr) (e : BoltEntry) (at_ : Nat) (s : State) :
    exec (.boltUpdate h e at_) s = execBoltUpdate h e at_ s := rfl
@[simp] theorem exec_boltFetch (h : Hdr) (s : State) : exec (.boltFetch h) s = execBoltFetch h s := rfl
@[simp] theorem exec_quotaSet (h : Hdr) (tenant tier v dt : Nat) (s : State) :
    exec (.quotaSet h tenant tier v dt) s = execQuotaSet h tenant tier v dt s := rfl
@[simp] theorem exec_handover (h : Hdr) (l : List (Nat × Nat)) (at_ : Nat) (s : State) :
    exec (.handover h l at_) s = execHandover h l at_ s := rfl
@[simp] theorem exec_handoverAck (h : Hdr) (l : List (Nat × Nat)) (at_ : Nat) (s : State) :
    exec (.handoverAck h l at_) s = execHandoverAck h l at_ s := rfl
@[simp] theorem exec_handoverReq (h : Hdr) (l : List (Nat × Nat)) (at_ : Nat) (s : State) :
    exec (.handoverReq h l at_) s = execHandoverReq h l at_ s := rfl
@[simp] theorem exec_rejoinCopy (h : Hdr) (empty : Bool) (pmap : Word) (lines : List LineData) (at_ : Nat) (s : State) :
    exec (.rejoinCopy h empty pmap lines at_) s = execRejoinCopy h empty pmap lines at_ s := rfl
@[simp] theorem exec_rejoinAck (h : Hdr) (at_ : Nat) (s : State) : exec (.rejoinAck h at_) s = execRejoinAck h at_ s := rfl
@[simp] theorem exec_mapXfer (h : Hdr) (kind : MapKind) (l : List Nat) (at_ : Nat) (s : State) :
    exec (.mapXfer h kind l at_) s = execMapXfer h kind l at_ s := rfl
@[simp] theorem exec_unknownMessage (h : Hdr) (ty : Nat) (s : State) :
    exec (.unknownMessage h ty) s = execUnknownMessage h ty s := rfl
@[simp] theorem exec_hopExpiry (h : Hdr) (p : Payload) (s : State) : exec (.hopExpiry h p) s = execHopExpiry h p s := rfl
@[simp] theorem exec_retrain (via : Via) (port : Nat) (at_ : Nat) (s : State) :
    exec (.retrain via port at_) s = execRetrain via port at_ s := rfl
@[simp] theorem exec_prepareRemove (via : Via) (port : Nat) (at_ : Nat) (s : State) :
    exec (.prepareRemove via port at_) s = execPrepareRemove via port at_ s := rfl
@[simp] theorem exec_rescan (via : Via) (port : Nat) (t : Option Train) (m : Option ModuleInfo) (at_ : Nat) (s : State) :
    exec (.rescan via port t m at_) s = execRescan via port t m at_ s := rfl
@[simp] theorem exec_ptErrStatRead (via : Via) (port : Nat) (w : AccW) (s : State) :
    exec (.ptErrStatRead via port w) s = execPtErrStatRead via port w s := rfl
@[simp] theorem exec_ptTrafficRead (via : Via) (port : Nat) (w : AccW) (s : State) :
    exec (.ptTrafficRead via port w) s = execPtTrafficRead via port w s := rfl
@[simp] theorem exec_imageLoad (via : Via) (a0 a1 : Word) (img : Image) (at_ : Nat) (s : State) :
    exec (.imageLoad via a0 a1 img at_) s = execImageLoad via a0 a1 img at_ s := rfl
@[simp] theorem exec_imageErase (via : Via) (a1 : Word) (at_ : Nat) (s : State) :
    exec (.imageErase via a1 at_) s = execImageErase via a1 at_ s := rfl
@[simp] theorem exec_change (via : Via) (a0 a1 : Word) (at_ : Nat) (s : State) :
    exec (.change via a0 a1 at_) s = execChange via a0 a1 at_ s := rfl
@[simp] theorem exec_isRestart (via : Via) (a0 : Word) (at_ : Nat) (s : State) :
    exec (.isRestart via a0 at_) s = execIsRestart via a0 at_ s := rfl
@[simp] theorem exec_svnRaise (via : Via) (at_ : Nat) (s : State) : exec (.svnRaise via at_) s = execSvnRaise via at_ s := rfl
@[simp] theorem exec_functionRestartDone (res : RestartRes) (at_ : Nat) (s : State) :
    exec (.functionRestartDone res at_) s = execFunctionRestartDone res at_ s := rfl
@[simp] theorem exec_isBootWrite (via : Via) (w : AccW) (v : Word) (at_ : Nat) (s : State) :
    exec (.isBootWrite via w v at_) s = execIsBootWrite via w v at_ s := rfl
@[simp] theorem exec_pllLockLoss (island at_ : Nat) (s : State) :
    exec (.pllLockLoss island at_) s = execPllLockLoss island at_ s := rfl
@[simp] theorem exec_keyLoad (via : Via) (a0 : Word) (at_ : Nat) (s : State) :
    exec (.keyLoad via a0 at_) s = execKeyLoad via a0 at_ s := rfl
@[simp] theorem exec_keyDelete (via : Via) (a0 : Word) (at_ : Nat) (s : State) :
    exec (.keyDelete via a0 at_) s = execKeyDelete via a0 at_ s := rfl
@[simp] theorem exec_keyFind (via : Via) (a0 : Word) (at_ : Nat) (s : State) :
    exec (.keyFind via a0 at_) s = execKeyFind via a0 at_ s := rfl
@[simp] theorem exec_cipherParityFault (lane core frame : Nat) (write retryOk : Bool) (retryCore at_ : Nat) (s : State) :
    exec (.cipherParityFault lane core frame write retryOk retryCore at_) s = execCipherParityFault lane core frame write retryOk retryCore at_ s := rfl
@[simp] theorem exec_cipherWriteRetry (frame at_ : Nat) (s : State) :
    exec (.cipherWriteRetry frame at_) s = execCipherWriteRetry frame at_ s := rfl
@[simp] theorem exec_xtCountRead (via : Via) (w : AccW) (s : State) :
    exec (.xtCountRead via w) s = execXtCountRead via w s := rfl
@[simp] theorem exec_psyncRise (at_ : Nat) (s : State) : exec (.psyncRise at_) s = execPsyncRise at_ s := rfl
@[simp] theorem exec_stateWorkDone (r : WorkRes) (at_ : Nat) (s : State) :
    exec (.stateWorkDone r at_) s = execStateWorkDone r at_ s := rfl
@[simp] theorem exec_turn (at_ : Nat) (s : State) : exec (.turn at_) s = execTurn at_ s := rfl
@[simp] theorem exec_loop (at_ : Nat) (s : State) : exec (.loop at_) s = execLoop at_ s := rfl
@[simp] theorem exec_psyncReset (at_ : Nat) (s : State) : exec (.psyncReset at_) s = execPsyncReset at_ s := rfl
@[simp] theorem exec_stateBoundExpiry (at_ : Nat) (s : State) :
    exec (.stateBoundExpiry at_) s = execStateBoundExpiry at_ s := rfl
@[simp] theorem exec_railSample (rail mv : Nat) (faultBit : Bool) (junction8 : Nat) (at_ : Nat) (s : State) :
    exec (.railSample rail mv faultBit junction8 at_) s = execRailSample rail mv faultBit junction8 at_ s := rfl
@[simp] theorem exec_throttleEnd (at_ : Nat) (s : State) : exec (.throttleEnd at_) s = execThrottleEnd at_ s := rfl
@[simp] theorem exec_pfWarnChange (low : Bool) (at_ : Nat) (s : State) :
    exec (.pfWarnChange low at_) s = execPfWarnChange low at_ s := rfl
@[simp] theorem exec_pfFailChange (low : Bool) (at_ : Nat) (s : State) :
    exec (.pfFailChange low at_) s = execPfFailChange low at_ s := rfl
@[simp] theorem exec_supplyGood (at_ : Nat) (s : State) : exec (.supplyGood at_) s = execSupplyGood at_ s := rfl
@[simp] theorem exec_pwrReqChange (high : Bool) (at_ : Nat) (s : State) :
    exec (.pwrReqChange high at_) s = execPwrReqChange high at_ s := rfl
@[simp] theorem exec_energyStorePoll (joules at_ : Nat) (s : State) :
    exec (.energyStorePoll joules at_) s = execEnergyStorePoll joules at_ s := rfl
@[simp] theorem exec_sysclkLoss (at_ : Nat) (s : State) : exec (.sysclkLoss at_) s = execSysclkLoss at_ s := rfl
@[simp] theorem exec_eventCoalesceTimer (port : Option Nat) (at_ : Nat) (s : State) :
    exec (.eventCoalesceTimer port at_) s = execEventCoalesceTimer port at_ s := rfl
@[simp] theorem exec_bbEvPtrWrite (via : Via) (w : AccW) (v : Word) (at_ : Nat) (s : State) :
    exec (.bbEvPtrWrite via w v at_) s = execBbEvPtrWrite via w v at_ s := rfl
@[simp] theorem exec_bbEvStatRead (via : Via) (w : AccW) (s : State) :
    exec (.bbEvStatRead via w) s = execBbEvStatRead via w s := rfl
@[simp] theorem exec_bbAonDataRead (via : Via) (w : AccW) (s : State) :
    exec (.bbAonDataRead via w) s = execBbAonDataRead via w s := rfl
@[simp] theorem exec_healthSummaryTimer (at_ : Nat) (s : State) :
    exec (.healthSummaryTimer at_) s = execHealthSummaryTimer at_ s := rfl
@[simp] theorem exec_tmDtRead (via : Via) (w : AccW) (at_ : Nat) (s : State) :
    exec (.tmDtRead via w at_) s = execTmDtRead via w at_ s := rfl
@[simp] theorem exec_tmCaptureRead (via : Via) (w : AccW) (at_ : Nat) (s : State) :
    exec (.tmCaptureRead via w at_) s = execTmCaptureRead via w at_ s := rfl
@[simp] theorem exec_gpioEdge (gpio : Nat) (rising : Bool) (at_ : Nat) (s : State) :
    exec (.gpioEdge gpio rising at_) s = execGpioEdge gpio rising at_ s := rfl
@[simp] theorem exec_bypass (s : State) : exec .bypass s = execBypass s := rfl
@[simp] theorem exec_idcode (s : State) : exec .idcode s = execIdcode s := rfl
@[simp] theorem exec_samplePreload (pins preload : Bsr) (s : State) :
    exec (.samplePreload pins preload) s = execSamplePreload pins preload s := rfl
@[simp] theorem exec_extest (pins shift : Bsr) (s : State) : exec (.extest pins shift) s = execExtest pins shift s := rfl
@[simp] theorem exec_clamp (s : State) : exec .clamp s = execClamp s := rfl
@[simp] theorem exec_highz (s : State) : exec .highz s = execHighz s := rfl
@[simp] theorem exec_extestPulse (shift : Bsr) (s : State) : exec (.extestPulse shift) s = execExtestPulse shift s := rfl
@[simp] theorem exec_extestTrain (shift : Bsr) (s : State) : exec (.extestTrain shift) s = execExtestTrain shift s := rfl
@[simp] theorem exec_envmRead (addr : Nat) (health : Bool) (at_ : Nat) (s : State) :
    exec (.envmRead addr health at_) s = execEnvmRead addr health at_ s := rfl
@[simp] theorem exec_envmReadDone (at_ : Nat) (s : State) : exec (.envmReadDone at_) s = execEnvmReadDone at_ s := rfl
@[simp] theorem exec_otpKeyhash (customer : Bool) (hash : BitVec 384) (s : State) :
    exec (.otpKeyhash customer hash) s = execOtpKeyhash customer hash s := rfl
@[simp] theorem exec_blCacheStatRead (via : Via) (w : AccW) (s : State) :
    exec (.blCacheStatRead via w) s = execBlCacheStatRead via w s := rfl
@[simp] theorem exec_sysclkReturn (at_ : Nat) (s : State) : exec (.sysclkReturn at_) s = execSysclkReturn at_ s := rfl
@[simp] theorem exec_aonReset (code : Nat) (serial : Word) (s : State) :
    exec (.aonReset code serial) s = execAonReset code serial s := rfl
@[simp] theorem exec_mgmtLinkDown (at_ : Nat) (s : State) : exec (.mgmtLinkDown at_) s = execMgmtLinkDown at_ s := rfl
@[simp] theorem exec_mgmtLinkTrained (rate at_ : Nat) (s : State) :
    exec (.mgmtLinkTrained rate at_) s = execMgmtLinkTrained rate at_ s := rfl
@[simp] theorem exec_zqCalibrationTimer (at_ : Nat) (s : State) :
    exec (.zqCalibrationTimer at_) s = execZqCalibrationTimer at_ s := rfl
@[simp] theorem exec_mirrorWrResend (id at_ : Nat) (s : State) :
    exec (.mirrorWrResend id at_) s = execMirrorWrResend id at_ s := rfl
@[simp] theorem exec_creditReturn (port cls n at_ : Nat) (s : State) :
    exec (.creditReturn port cls n at_) s = execCreditReturn port cls n at_ s := rfl
@[simp] theorem exec_envmRecordWritten (ok : Bool) (at_ : Nat) (s : State) :
    exec (.envmRecordWritten ok at_) s = execEnvmRecordWritten ok at_ s := rfl

end Sys2Proof.Laws
end

