-- ==== Sys2Proof/Laws/Map.lean ====
section
/-! SUPPORT. The laws of the sparse table: a read after a write, and the canonical form that every change keeps. -/

namespace Sys2Proof.Laws

open Sys2Proof

variable {α : Type}

theorem risesFrom_mono {lo lo' : Nat} (h : lo' ≤ lo) (m : SMap α) (w : SMap.risesFrom lo m = true) :
    SMap.risesFrom lo' m = true := by
  cases m with
  | nil => rfl
  | cons x t =>
    simp only [SMap.risesFrom, Bool.and_eq_true, decide_eq_true_eq] at w ⊢
    exact ⟨h.trans w.1, w.2⟩

theorem risesFrom_put {lo k : Nat} (h : lo ≤ k) (m : SMap α) (v : α) (w : SMap.risesFrom lo m = true) :
    SMap.risesFrom lo (SMap.put m k v) = true := by
  induction m generalizing lo with
  | nil => simp [SMap.put, SMap.risesFrom, h]
  | cons x t ih =>
    obtain ⟨j, u⟩ := x
    simp only [SMap.risesFrom, Bool.and_eq_true, decide_eq_true_eq] at w
    simp only [SMap.put]
    split
    · next e => subst e; simp [SMap.risesFrom, w.1, w.2]
    · split
      · next l =>
        simp only [SMap.risesFrom, Bool.and_eq_true, decide_eq_true_eq]
        exact ⟨h, l, w.2⟩
      · next e l =>
        simp only [SMap.risesFrom, Bool.and_eq_true, decide_eq_true_eq]
        exact ⟨w.1, ih (by omega) w.2⟩

theorem risesFrom_del {lo k : Nat} (m : SMap α) (w : SMap.risesFrom lo m = true) :
    SMap.risesFrom lo (SMap.del m k) = true := by
  induction m generalizing lo with
  | nil => rfl
  | cons x t ih =>
    obtain ⟨j, u⟩ := x
    simp only [SMap.risesFrom, Bool.and_eq_true, decide_eq_true_eq] at w
    simp only [SMap.del]
    split
    · exact risesFrom_mono (by omega) t w.2
    · split
      · simp only [SMap.risesFrom, Bool.and_eq_true, decide_eq_true_eq]; exact w
      · simp only [SMap.risesFrom, Bool.and_eq_true, decide_eq_true_eq]
        exact ⟨w.1, ih w.2⟩

theorem risesFrom_filterMap {lo : Nat} (m : SMap α) (g : Nat × α → Option (Nat × α))
    (hg : ∀ x y, g x = some y → y.1 = x.1) (w : SMap.risesFrom lo m = true) :
    SMap.risesFrom lo (m.filterMap g) = true := by
  induction m generalizing lo with
  | nil => rfl
  | cons x t ih =>
    simp only [SMap.risesFrom, Bool.and_eq_true, decide_eq_true_eq] at w
    rw [List.filterMap_cons]
    split
    · exact risesFrom_mono (by omega) _ (ih w.2)
    · next y e =>
      have k := hg x y e
      simp only [SMap.risesFrom, Bool.and_eq_true, decide_eq_true_eq]
      exact ⟨k ▸ w.1, k ▸ ih w.2⟩

theorem risesFrom_filter {lo : Nat} (m : SMap α) (p : Nat × α → Bool) (w : SMap.risesFrom lo m = true) :
    SMap.risesFrom lo (m.filter p) = true := by
  induction m generalizing lo with
  | nil => rfl
  | cons x t ih =>
    simp only [SMap.risesFrom, Bool.and_eq_true, decide_eq_true_eq] at w
    rw [List.filter_cons]
    split
    · simp only [SMap.risesFrom, Bool.and_eq_true, decide_eq_true_eq]
      exact ⟨w.1, ih w.2⟩
    · exact risesFrom_mono (by omega) _ (ih w.2)

theorem wf_put (m : SMap α) (k : Nat) (v : α) (w : SMap.wf m = true) : SMap.wf (SMap.put m k v) = true :=
  risesFrom_put (Nat.zero_le k) m v w

theorem wf_del (m : SMap α) (k : Nat) (w : SMap.wf m = true) : SMap.wf (SMap.del m k) = true :=
  risesFrom_del m w

theorem wf_filter (m : SMap α) (p : Nat × α → Bool) (w : SMap.wf m = true) :
    SMap.wf (List.filter p m) = true :=
  risesFrom_filter m p w

/-- What a changed table lists, it listed before or is the entry put. -/
theorem mem_put {m : SMap α} {k : Nat} {v : α} {x : Nat × α} (h : x ∈ SMap.put m k v) : x ∈ m ∨ x = (k, v) := by
  induction m with
  | nil => simp only [SMap.put, List.mem_singleton] at h; exact .inr h
  | cons y t ih =>
    obtain ⟨j, w⟩ := y
    simp only [SMap.put] at h
    split at h
    · next e =>
      rcases List.mem_cons.mp h with h | h
      · exact .inr h
      · exact .inl (List.mem_cons_of_mem _ h)
    · split at h
      · rcases List.mem_cons.mp h with h | h
        · exact .inr h
        · exact .inl h
      · rcases List.mem_cons.mp h with h | h
        · exact .inl (h ▸ List.mem_cons_self)
        · rcases ih h with h | h
          · exact .inl (List.mem_cons_of_mem _ h)
          · exact .inr h

theorem mem_del {m : SMap α} {k : Nat} {x : Nat × α} (h : x ∈ SMap.del m k) : x ∈ m := by
  induction m with
  | nil => exact h
  | cons y t ih =>
    obtain ⟨j, w⟩ := y
    simp only [SMap.del] at h
    split at h
    · exact List.mem_cons_of_mem _ h
    · split at h
      · exact h
      · rcases List.mem_cons.mp h with h | h
        · exact h ▸ List.mem_cons_self
        · exact List.mem_cons_of_mem _ (ih h)

theorem find_put (m : SMap α) (k j : Nat) (v : α) :
    SMap.find (SMap.put m k v) j = if k = j then some v else SMap.find m j := by
  induction m with
  | nil => simp only [SMap.put, SMap.find]; split <;> simp
  | cons x t ih =>
    obtain ⟨i, w⟩ := x
    simp only [SMap.put]
    split
    · next e => subst e; simp only [SMap.find]; split <;> rfl
    · split
      · next e l =>
        simp only [SMap.find]
        by_cases hk : k = j
        · simp [hk]
        · simp only [hk, if_false]
          by_cases hj : j < k
          · have h1 : ¬ i = j := by omega
            have h2 : j < i := by omega
            simp [hj, h1, h2]
          · simp [hj]
      · next e l =>
        simp only [SMap.find, ih]
        by_cases hi : i = j
        · subst hi
          have : ¬ k = i := fun h => e h.symm
          simp [this]
        · simp only [hi, if_false]
          by_cases hk : k = j
          · have : ¬ j < i := by omega
            simp [hk, this]
          · simp [hk]

theorem find_of_rises {lo : Nat} (m : SMap α) (w : SMap.risesFrom lo m = true) (j : Nat) (h : j < lo) :
    SMap.find m j = none := by
  cases m with
  | nil => rfl
  | cons x t =>
    simp only [SMap.risesFrom, Bool.and_eq_true, decide_eq_true_eq] at w
    have h1 : ¬ x.1 = j := by omega
    have h2 : j < x.1 := by omega
    simp [SMap.find, h1, h2]

theorem find_del {lo : Nat} (m : SMap α) (w : SMap.risesFrom lo m = true) (k j : Nat) :
    SMap.find (SMap.del m k) j = if k = j then none else SMap.find m j := by
  induction m generalizing lo with
  | nil => simp [SMap.del, SMap.find]
  | cons x t ih =>
    obtain ⟨i, u⟩ := x
    simp only [SMap.risesFrom, Bool.and_eq_true, decide_eq_true_eq] at w
    simp only [SMap.del]
    split
    · next e =>
      subst e
      by_cases hk : i = j
      · subst hk; simp [find_of_rises t w.2 i (by omega)]
      · simp only [hk, if_false, SMap.find]
        by_cases hj : j < i
        · simp [hj, find_of_rises t w.2 j (by omega)]
        · simp [hj]
    · split
      · next e l =>
        by_cases hk : k = j
        · subst hk
          have h1 : ¬ i = k := e
          simp [SMap.find, h1, l]
        · simp [hk]
      · next e l =>
        simp only [SMap.find, ih w.2]
        by_cases hi : i = j
        · subst hi
          have : ¬ k = i := fun h => e h.symm
          simp [this]
        · by_cases hk : k = j
          · simp [hi, hk]
          · simp [hi, hk]

theorem foldl_keeps {β γ : Type} {P : γ → Prop} (g : γ → β → γ) (hg : ∀ x b, P x → P (g x b)) (l : List β) (x : γ)
    (h : P x) : P (l.foldl g x) := by
  induction l generalizing x with
  | nil => exact h
  | cons b t ih => exact ih _ (hg x b h)

end Sys2Proof.Laws
end

