-- ==== Sys2Proof/Laws/Flagged.lean ====
section
/-! SUPPORT. What setting a flag leaves alone: everything but registers, the output, the event log with the black box, and the
logs and interrupts of the ports. -/

namespace Sys2Proof.Laws

open Sys2Proof Machine

/-- The parts of a state that stay. -/
structure Hush where
  pending : List Instr
  freeIx : Nat
  time : TimeSt
  bay : BaySt
  mem : List Host.Cell
  lines : LineSt
  save : SaveSt
  twin : TwinSt
  tier : TierSt
  crown : CrownSt
  dram : DramSt
  flash : FlashSt
  stripe : StripeSt
  queues : QueueSt
  engines : EngineSt
  image : ImageSt
  cipher : CipherSt
  power : PowerSt
  jtag : JtagSt
  otp : OtpSt

/-- The parts of a state. -/
def hush (s : State) : Hush :=
  { pending := s.pending, freeIx := s.freeIx, time := s.time, bay := s.bay, mem := s.mem, lines := s.lines, save := s.save, twin := s.twin, tier := s.tier, crown := s.crown, dram := s.dram, flash := s.flash, stripe := s.stripe, queues := s.queues, engines := s.engines, image := s.image, cipher := s.cipher, power := s.power, jtag := s.jtag, otp := s.otp }

/-- The parts are the same. -/
structure HushSame (a b : Hush) : Prop where
  eq : b = a

/-- The parts of `s0` stand in `s`. -/
def Flagged (s0 s : State) : Prop := HushSame (hush s0) (hush s)

theorem flagged_refl (s : State) : Flagged s s := HushSame.mk rfl

theorem flagged_trans {s t u : State} (h : Flagged s t) (k : Flagged t u) : Flagged s u :=
  HushSame.mk ((HushSame.eq k).trans (HushSame.eq h))

variable {s0 s : State}

theorem flagged_setReg (h : Flagged s0 s) (r : Reg) (i : Nat) (v : Word) : Flagged s0 (s.setReg r i v) := h

theorem flagged_setF (h : Flagged s0 s) (f : FieldRef) (i x : Nat) : Flagged s0 (s.setF f i x) := h

theorem flagged_put (h : Flagged s0 s) (f : FieldRef) (x : Nat) : Flagged s0 (s.put f x) := h

theorem flagged_bump (h : Flagged s0 s) (f : FieldRef) (i n : Nat) : Flagged s0 (s.bump f i n) := h

theorem flagged_emit (h : Flagged s0 s) (o : Out) : Flagged s0 (s.emit o) := h

/-- A loop whose every turn keeps, keeps. -/
theorem flagged_foldl {β : Type} {g : State → β → State} {l : List β} (hg : ∀ s x, Flagged s0 s → Flagged s0 (g s x))
    (h : Flagged s0 s) : Flagged s0 (l.foldl g s) :=
  foldl_keeps (P := fun s => Flagged s0 s) g (fun s x k => hg s x k) l s h

theorem flagged_foldr {β : Type} {g : β → State → State} {l : List β} (hg : ∀ s x, Flagged s0 s → Flagged s0 (g x s))
    (h : Flagged s0 s) : Flagged s0 (l.foldr g s) := by
  induction l with
  | nil => exact h
  | cons b t ih => exact hg _ b ih

/-- What may answer a state keeps, where it answers one. -/
structure OFlagged {α : Type} (s0 : State) (g : α → State) (o : Option α) : Prop where
  of : ∀ x, o = some x → Flagged s0 (g x)

theorem oflagged_none {α : Type} {g : α → State} : OFlagged s0 g none := ⟨fun _ h => by cases h⟩

theorem oflagged_some {α : Type} {g : α → State} {x : α} (h : Flagged s0 (g x)) : OFlagged s0 g (some x) :=
  ⟨fun _ e => by cases e; exact h⟩

theorem oflagged_step {α : Type} {g : α → State} {o : Option State} {f : State → α} (h : OFlagged s0 (fun x => x) o)
    (k : ∀ s, Flagged s0 s → Flagged s0 (g (f s))) : OFlagged s0 g (o.map f) := by
  refine ⟨fun x e => ?_⟩
  cases o with
  | none => cases e
  | some y => cases e; exact k y (h.of y rfl)

theorem oflagged_ite {α : Type} {g : α → State} {c : Prop} {d : Decidable c} {a b : Option α} (ha : OFlagged s0 g a)
    (hb : OFlagged s0 g b) : OFlagged s0 g (@ite _ c d a b) := by
  split
  · exact ha
  · exact hb

theorem oflagged_fst {α : Type} {t : State} {b : α} (h : OFlagged s0 Prod.fst (some (t, b))) : Flagged s0 t := h.of _ rfl

theorem oflagged_eq {α : Type} {t : State} {b : α} {o : Option (State × α)} (h : OFlagged s0 Prod.fst o) (e : o = some (t, b)) :
    Flagged s0 t := h.of _ e

/-- A state that differs from one that stays in other parts only. -/
theorem flagged_of (h : Flagged s0 s) : HushSame
    { pending := s0.pending, freeIx := s0.freeIx, time := s0.time, bay := s0.bay, mem := s0.mem, lines := s0.lines, save := s0.save, twin := s0.twin, tier := s0.tier, crown := s0.crown, dram := s0.dram, flash := s0.flash, stripe := s0.stripe, queues := s0.queues, engines := s0.engines, image := s0.image, cipher := s0.cipher, power := s0.power, jtag := s0.jtag, otp := s0.otp }
    { pending := s.pending, freeIx := s.freeIx, time := s.time, bay := s.bay, mem := s.mem, lines := s.lines, save := s.save, twin := s.twin, tier := s.tier, crown := s.crown, dram := s.dram, flash := s.flash, stripe := s.stripe, queues := s.queues, engines := s.engines, image := s.image, cipher := s.cipher, power := s.power, jtag := s.jtag, otp := s.otp } := h

/-- A state that differs from one that stays in other parts only. -/
theorem flagged_ofFree (h : Flagged s0 s) : HushSame
    { pending := s0.pending, freeIx := s0.freeIx, time := s0.time, bay := s0.bay, mem := s0.mem, lines := s0.lines, save := s0.save, twin := s0.twin, tier := s0.tier, crown := s0.crown, dram := s0.dram, flash := s0.flash, stripe := s0.stripe, queues := s0.queues, engines := s0.engines, image := s0.image, cipher := s0.cipher, power := s0.power, jtag := s0.jtag, otp := s0.otp }
    { pending := s.pending, freeIx := s.freeIx, time := s.time, bay := s.bay, mem := s.mem, lines := s.lines, save := s.save, twin := s.twin, tier := s.tier, crown := s.crown, dram := s.dram, flash := s.flash, stripe := s.stripe, queues := s.queues, engines := s.engines, image := s.image, cipher := s.cipher, power := s.power, jtag := s.jtag, otp := s.otp } := h

/-- Both ways of a choice keep. -/
theorem flagged_ite {c : Prop} {d : Decidable c} {a b : State} (ha : Flagged s0 a) (hb : Flagged s0 b) :
    Flagged s0 (@ite State c d a b) := by
  split
  · exact ha
  · exact hb

/-- The next state of a command keeps, where it answers one. -/
structure XFlagged (s0 : State) (o : Host.Outcome State Fault Refusal) : Prop where
  of : ∀ t, o = .next t → Flagged s0 t

theorem xflagged_next {t : State} (h : Flagged s0 t) : XFlagged s0 (.next t) := ⟨fun _ e => by cases e; exact h⟩

/-- A loop over pairs of a state and something else. -/
theorem flagged_foldl_fst {β γ : Type} {g : State × γ → β → State × γ} {l : List β} {p : State × γ}
    (hg : ∀ p x, Flagged s0 p.1 → Flagged s0 (g p x).1) (h : Flagged s0 p.1) : Flagged s0 (l.foldl g p).1 :=
  foldl_keeps (P := fun p => Flagged s0 p.1) g (fun p x k => hg p x k) l p h

theorem flagged_foldl_eq {β γ : Type} {g : State × γ → β → State × γ} {l : List β} {p : State × γ} {t : State} {b : γ}
    (e : l.foldl g p = (t, b)) (hg : ∀ p x, Flagged s0 p.1 → Flagged s0 (g p x).1) (h : Flagged s0 p.1) : Flagged s0 t := by
  have k := flagged_foldl_fst (l := l) hg h
  rw [e] at k
  exact k

theorem flagged_getD {o : Option State} (h : OFlagged s0 (fun x => x) o) (k : Flagged s0 s) : Flagged s0 (o.getD s) := by
  cases o with
  | none => exact k
  | some t => exact h.of t rfl

end Sys2Proof.Laws
end

