-- ==== Sys2Proof/Laws/FlaggedFlags.lean ====
section
/-! SUPPORT. The operations of Machine/Flags.lean that State.settle calls leave alone what Laws/Flagged.lean names. -/

set_option linter.unusedTactic false
set_option linter.unreachableTactic false
set_option linter.unusedVariables false

namespace Sys2Proof.Laws

open Sys2Proof Machine

theorem flagged_cxlRecord {s0 s : State} {key : Nat} {e : EvRec} (hK : Flagged s0 s) :
    Flagged s0 (State.cxlRecord s key e) := by
  unfold State.cxlRecord
  repeat' (first
    | (with_reducible assumption)
    | (intro x; first | ((have hx : Flagged s0 x := ?_); (try clear_value x); rotate_left; dsimp -zeta only [x]; rotate_right) | ((have hx : Flagged s0 x.1 := ?_); (try clear_value x); rotate_left; dsimp -zeta only [x]; rotate_right) | ((have hx : Flagged s0 x.2 := ?_); (try clear_value x); rotate_left; dsimp -zeta only [x]; rotate_right) | ((have hf : x.zzz = x.zzz := rfl); clear hf; dsimp -zeta only [x]) | (clear_value x) | skip)
    | lift_lets -underBinder
    | (with_reducible refine flagged_put ?_ ..)
    | (with_reducible refine flagged_ite ?_ ?_)
    | (fail_if_no_progress beta_reduce)
    | (dsimp only [Flagged, hush]; with_reducible refine flagged_of ?_; first | with_reducible assumption | (with_reducible refine flagged_put ?_ ..))
    | split
    | (refine flagged_ite ?_ ?_))

theorem flagged_msix {s0 s : State} {port : Nat} {ld : Nat} {vector : Nat} (hK : Flagged s0 s) :
    Flagged s0 (State.msix s port ld vector) := by
  unfold State.msix
  repeat' (first
    | (with_reducible assumption)
    | (intro x; first | ((have hx : Flagged s0 x := ?_); (try clear_value x); rotate_left; dsimp -zeta only [x]; rotate_right) | ((have hx : Flagged s0 x.1 := ?_); (try clear_value x); rotate_left; dsimp -zeta only [x]; rotate_right) | ((have hx : Flagged s0 x.2 := ?_); (try clear_value x); rotate_left; dsimp -zeta only [x]; rotate_right) | ((have hf : x.zzz = x.zzz := rfl); clear hf; dsimp -zeta only [x]) | (clear_value x) | skip)
    | lift_lets -underBinder
    | (with_reducible refine flagged_emit ?_ ..)
    | (with_reducible refine flagged_ite ?_ ?_)
    | (fail_if_no_progress beta_reduce)
    | (dsimp only [Flagged, hush]; with_reducible refine flagged_of ?_; first | with_reducible assumption | (with_reducible refine flagged_emit ?_ ..))
    | split
    | (refine flagged_ite ?_ ?_))

theorem flagged_evSend {s0 s : State} {t : Nat} (hK : Flagged s0 s) :
    Flagged s0 (State.evSend s t) := by
  unfold State.evSend
  repeat' (first
    | (with_reducible assumption)
    | (intro x; first | ((have hx : Flagged s0 x := ?_); (try clear_value x); rotate_left; dsimp -zeta only [x]; rotate_right) | ((have hx : Flagged s0 x.1 := ?_); (try clear_value x); rotate_left; dsimp -zeta only [x]; rotate_right) | ((have hx : Flagged s0 x.2 := ?_); (try clear_value x); rotate_left; dsimp -zeta only [x]; rotate_right) | ((have hf : x.zzz = x.zzz := rfl); clear hf; dsimp -zeta only [x]) | (clear_value x) | skip)
    | lift_lets -underBinder
    | (with_reducible refine flagged_emit ?_ ..)
    | (with_reducible refine flagged_put ?_ ..)
    | (with_reducible refine flagged_msix ?_ ..)
    | (with_reducible refine flagged_ite ?_ ?_)
    | (fail_if_no_progress beta_reduce)
    | (dsimp only [Flagged, hush]; with_reducible refine flagged_of ?_; first | with_reducible assumption | (with_reducible refine flagged_emit ?_ ..) | (with_reducible refine flagged_put ?_ ..) | (with_reducible refine flagged_msix ?_ ..))
    | split
    | (refine flagged_ite ?_ ?_))

theorem flagged_evIrq {s0 s : State} {t : Nat} (hK : Flagged s0 s) :
    Flagged s0 (State.evIrq s t) := by
  unfold State.evIrq
  repeat' (first
    | (with_reducible assumption)
    | (intro x; first | ((have hx : Flagged s0 x := ?_); (try clear_value x); rotate_left; dsimp -zeta only [x]; rotate_right) | ((have hx : Flagged s0 x.1 := ?_); (try clear_value x); rotate_left; dsimp -zeta only [x]; rotate_right) | ((have hx : Flagged s0 x.2 := ?_); (try clear_value x); rotate_left; dsimp -zeta only [x]; rotate_right) | ((have hf : x.zzz = x.zzz := rfl); clear hf; dsimp -zeta only [x]) | (clear_value x) | skip)
    | lift_lets -underBinder
    | (with_reducible refine flagged_put ?_ ..)
    | (with_reducible refine flagged_evSend ?_ ..)
    | (with_reducible refine flagged_ite ?_ ?_)
    | (fail_if_no_progress beta_reduce)
    | (dsimp only [Flagged, hush]; with_reducible refine flagged_of ?_; first | with_reducible assumption | (with_reducible refine flagged_put ?_ ..) | (with_reducible refine flagged_evSend ?_ ..))
    | split
    | (refine flagged_ite ?_ ?_))

theorem flagged_bbRecord {s0 s : State} {cls : Nat} {body : BBody} (hK : Flagged s0 s) :
    Flagged s0 (State.bbRecord s cls body) := by
  unfold State.bbRecord
  repeat' (first
    | (with_reducible assumption)
    | (intro x; first | ((have hx : Flagged s0 x := ?_); (try clear_value x); rotate_left; dsimp -zeta only [x]; rotate_right) | ((have hx : Flagged s0 x.1 := ?_); (try clear_value x); rotate_left; dsimp -zeta only [x]; rotate_right) | ((have hx : Flagged s0 x.2 := ?_); (try clear_value x); rotate_left; dsimp -zeta only [x]; rotate_right) | ((have hf : x.zzz = x.zzz := rfl); clear hf; dsimp -zeta only [x]) | (clear_value x) | skip)
    | lift_lets -underBinder
    | (with_reducible refine flagged_health ?_ ..)
    | (with_reducible refine flagged_getD ?_ ?_)
    | (with_reducible refine flagged_ite ?_ ?_)
    | (fail_if_no_progress beta_reduce)
    | (dsimp only [Flagged, hush]; with_reducible refine flagged_of ?_; first | with_reducible assumption | (with_reducible refine flagged_health ?_ ..))
    | split
    | (refine flagged_ite ?_ ?_))

theorem flagged_bbEvent {s0 s : State} {f : FieldRef} {i : Nat} {e : EvRec} (hK : Flagged s0 s) :
    Flagged s0 (State.bbEvent s f i e).1 := by
  unfold State.bbEvent
  repeat' (first
    | (with_reducible assumption)
    | (intro x; first | ((have hx : Flagged s0 x := ?_); (try clear_value x); rotate_left; dsimp -zeta only [x]; rotate_right) | ((have hx : Flagged s0 x.1 := ?_); (try clear_value x); rotate_left; dsimp -zeta only [x]; rotate_right) | ((have hx : Flagged s0 x.2 := ?_); (try clear_value x); rotate_left; dsimp -zeta only [x]; rotate_right) | ((have hf : x.zzz = x.zzz := rfl); clear hf; dsimp -zeta only [x]) | (clear_value x) | skip)
    | lift_lets -underBinder
    | (with_reducible refine flagged_bbRecord ?_ ..)
    | (with_reducible refine flagged_ite ?_ ?_)
    | (fail_if_no_progress beta_reduce)
    | (dsimp only [Flagged, hush]; with_reducible refine flagged_of ?_; first | with_reducible assumption | (with_reducible refine flagged_bbRecord ?_ ..))
    | split
    | (refine flagged_ite ?_ ?_))

theorem flagged_bbEvent_eq {s0 s tE : State} {bE : Bool} {f : FieldRef} {i : Nat} {e : EvRec} (hEq : State.bbEvent s f i e = (tE, bE)) (hK : Flagged s0 s) : Flagged s0 tE := by
  have k : Flagged s0 (State.bbEvent s f i e).1 := flagged_bbEvent hK
  rw [hEq] at k
  exact k

theorem flagged_spreadEvent {s0 s : State} {e : EvRec} {irq : Bool} {p : EventSt × Bool} (hK : Flagged s0 s) :
    Flagged s0 (State.spreadEvent s e irq p).1 := by
  unfold State.spreadEvent
  repeat' (first
    | (with_reducible assumption)
    | (intro x; first | ((have hx : Flagged s0 x := ?_); (try clear_value x); rotate_left; dsimp -zeta only [x]; rotate_right) | ((have hx : Flagged s0 x.1 := ?_); (try clear_value x); rotate_left; dsimp -zeta only [x]; rotate_right) | ((have hx : Flagged s0 x.2 := ?_); (try clear_value x); rotate_left; dsimp -zeta only [x]; rotate_right) | ((have hf : x.zzz = x.zzz := rfl); clear hf; dsimp -zeta only [x]) | (clear_value x) | skip)
    | lift_lets -underBinder
    | (with_reducible refine flagged_bump ?_ ..)
    | (with_reducible refine flagged_put ?_ ..)
    | (with_reducible refine flagged_cxlRecord ?_ ..)
    | (with_reducible refine flagged_evIrq ?_ ..)
    | (with_reducible refine flagged_bbEvent ?_ ..)
    | (refine flagged_bbEvent_eq (by assumption) ?_)
    | (with_reducible refine flagged_foldl (fun s x hK => ?_) ?_)
    | (with_reducible refine flagged_foldl_fst (fun s x hK => ?_) ?_)
    | (refine flagged_foldl_eq (by assumption) (fun s x hK => ?_) ?_)
    | (with_reducible refine flagged_ite ?_ ?_)
    | (fail_if_no_progress beta_reduce)
    | (dsimp only [Flagged, hush]; with_reducible refine flagged_of ?_; first | with_reducible assumption | (with_reducible refine flagged_bump ?_ ..) | (with_reducible refine flagged_put ?_ ..) | (with_reducible refine flagged_cxlRecord ?_ ..) | (with_reducible refine flagged_evIrq ?_ ..) | (with_reducible refine flagged_bbEvent ?_ ..) | (refine flagged_bbEvent_eq (by assumption) ?_))
    | split
    | (refine flagged_ite ?_ ?_))

theorem flagged_spreadEvent_eq {s0 s tE : State} {bE : RaiseNote} {e : EvRec} {irq : Bool} {p : EventSt × Bool} (hEq : State.spreadEvent s e irq p = (tE, bE)) (hK : Flagged s0 s) : Flagged s0 tE := by
  have k : Flagged s0 (State.spreadEvent s e irq p).1 := flagged_spreadEvent hK
  rw [hEq] at k
  exact k

theorem flagged_enterEvent {s0 s : State} {e : EvRec} (hK : Flagged s0 s) :
    Flagged s0 (State.enterEvent s e).1 := by
  unfold State.enterEvent
  repeat' (first
    | (with_reducible assumption)
    | (intro x; first | ((have hx : Flagged s0 x := ?_); (try clear_value x); rotate_left; dsimp -zeta only [x]; rotate_right) | ((have hx : Flagged s0 x.1 := ?_); (try clear_value x); rotate_left; dsimp -zeta only [x]; rotate_right) | ((have hx : Flagged s0 x.2 := ?_); (try clear_value x); rotate_left; dsimp -zeta only [x]; rotate_right) | ((have hf : x.zzz = x.zzz := rfl); clear hf; dsimp -zeta only [x]) | (clear_value x) | skip)
    | lift_lets -underBinder
    | (with_reducible refine flagged_bump ?_ ..)
    | (with_reducible refine flagged_evIrq ?_ ..)
    | (with_reducible refine flagged_spreadEvent ?_ ..)
    | (refine flagged_spreadEvent_eq (by assumption) ?_)
    | (with_reducible refine flagged_foldl (fun s x hK => ?_) ?_)
    | (with_reducible refine flagged_foldl_fst (fun s x hK => ?_) ?_)
    | (refine flagged_foldl_eq (by assumption) (fun s x hK => ?_) ?_)
    | (with_reducible refine flagged_ite ?_ ?_)
    | (fail_if_no_progress beta_reduce)
    | (dsimp only [Flagged, hush]; with_reducible refine flagged_of ?_; first | with_reducible assumption | (with_reducible refine flagged_bump ?_ ..) | (with_reducible refine flagged_evIrq ?_ ..) | (with_reducible refine flagged_spreadEvent ?_ ..) | (refine flagged_spreadEvent_eq (by assumption) ?_))
    | split
    | (refine flagged_ite ?_ ?_))

theorem flagged_enterEvent_eq {s0 s tE : State} {bE : RaiseNote} {e : EvRec} (hEq : State.enterEvent s e = (tE, bE)) (hK : Flagged s0 s) : Flagged s0 tE := by
  have k : Flagged s0 (State.enterEvent s e).1 := flagged_enterEvent hK
  rw [hEq] at k
  exact k

theorem flagged_raiseOnce {s0 s : State} {f : FieldRef} {i : Nat} {cls : Nat} {a : EvArg} (hK : Flagged s0 s) :
    Flagged s0 (State.raiseOnce s f i cls a).1 := by
  unfold State.raiseOnce
  repeat' (first
    | (with_reducible assumption)
    | (intro x; first | ((have hx : Flagged s0 x := ?_); (try clear_value x); rotate_left; dsimp -zeta only [x]; rotate_right) | ((have hx : Flagged s0 x.1 := ?_); (try clear_value x); rotate_left; dsimp -zeta only [x]; rotate_right) | ((have hx : Flagged s0 x.2 := ?_); (try clear_value x); rotate_left; dsimp -zeta only [x]; rotate_right) | ((have hf : x.zzz = x.zzz := rfl); clear hf; dsimp -zeta only [x]) | (clear_value x) | skip)
    | lift_lets -underBinder
    | (with_reducible refine flagged_bump ?_ ..)
    | (with_reducible refine flagged_setF ?_ ..)
    | (with_reducible refine flagged_enterEvent ?_ ..)
    | (refine flagged_enterEvent_eq (by assumption) ?_)
    | (with_reducible refine flagged_ite ?_ ?_)
    | (fail_if_no_progress beta_reduce)
    | (dsimp only [Flagged, hush]; with_reducible refine flagged_of ?_; first | with_reducible assumption | (with_reducible refine flagged_bump ?_ ..) | (with_reducible refine flagged_setF ?_ ..) | (with_reducible refine flagged_enterEvent ?_ ..) | (refine flagged_enterEvent_eq (by assumption) ?_))
    | split
    | (refine flagged_ite ?_ ?_))

theorem flagged_raiseOnce_eq {s0 s tE : State} {bE : RaiseNote} {f : FieldRef} {i : Nat} {cls : Nat} {a : EvArg} (hEq : State.raiseOnce s f i cls a = (tE, bE)) (hK : Flagged s0 s) : Flagged s0 tE := by
  have k : Flagged s0 (State.raiseOnce s f i cls a).1 := flagged_raiseOnce hK
  rw [hEq] at k
  exact k

theorem flagged_raiseNotes {s0 s : State} {n : RaiseNote} (hK : Flagged s0 s) :
    Flagged s0 (State.raiseNotes s n) := by
  unfold State.raiseNotes
  repeat' (first
    | (with_reducible assumption)
    | (intro x; first | ((have hx : Flagged s0 x := ?_); (try clear_value x); rotate_left; dsimp -zeta only [x]; rotate_right) | ((have hx : Flagged s0 x.1 := ?_); (try clear_value x); rotate_left; dsimp -zeta only [x]; rotate_right) | ((have hx : Flagged s0 x.2 := ?_); (try clear_value x); rotate_left; dsimp -zeta only [x]; rotate_right) | ((have hf : x.zzz = x.zzz := rfl); clear hf; dsimp -zeta only [x]) | (clear_value x) | skip)
    | lift_lets -underBinder
    | (with_reducible refine flagged_raiseOnce ?_ ..)
    | (refine flagged_raiseOnce_eq (by assumption) ?_)
    | (with_reducible refine flagged_ite ?_ ?_)
    | (fail_if_no_progress beta_reduce)
    | (dsimp only [Flagged, hush]; with_reducible refine flagged_of ?_; first | with_reducible assumption | (with_reducible refine flagged_raiseOnce ?_ ..) | (refine flagged_raiseOnce_eq (by assumption) ?_))
    | split
    | (refine flagged_ite ?_ ?_))

theorem flagged_raiseCls {s0 s : State} {f : FieldRef} {i : Nat} {cls : Nat} {a : EvArg} (hK : Flagged s0 s) :
    Flagged s0 (State.raiseCls s f i cls a) := by
  unfold State.raiseCls
  repeat' (first
    | (with_reducible assumption)
    | (intro x; first | ((have hx : Flagged s0 x := ?_); (try clear_value x); rotate_left; dsimp -zeta only [x]; rotate_right) | ((have hx : Flagged s0 x.1 := ?_); (try clear_value x); rotate_left; dsimp -zeta only [x]; rotate_right) | ((have hx : Flagged s0 x.2 := ?_); (try clear_value x); rotate_left; dsimp -zeta only [x]; rotate_right) | ((have hf : x.zzz = x.zzz := rfl); clear hf; dsimp -zeta only [x]) | (clear_value x) | skip)
    | lift_lets -underBinder
    | (with_reducible refine flagged_raiseOnce ?_ ..)
    | (refine flagged_raiseOnce_eq (by assumption) ?_)
    | (with_reducible refine flagged_raiseNotes ?_ ..)
    | (with_reducible refine flagged_ite ?_ ?_)
    | (fail_if_no_progress beta_reduce)
    | (dsimp only [Flagged, hush]; with_reducible refine flagged_of ?_; first | with_reducible assumption | (with_reducible refine flagged_raiseOnce ?_ ..) | (refine flagged_raiseOnce_eq (by assumption) ?_) | (with_reducible refine flagged_raiseNotes ?_ ..))
    | split
    | (refine flagged_ite ?_ ?_))

theorem flagged_raiseArg {s0 s : State} {f : FieldRef} {i : Nat} {a : EvArg} (hK : Flagged s0 s) :
    Flagged s0 (State.raiseArg s f i a) := by
  unfold State.raiseArg
  repeat' (first
    | (with_reducible assumption)
    | (intro x; first | ((have hx : Flagged s0 x := ?_); (try clear_value x); rotate_left; dsimp -zeta only [x]; rotate_right) | ((have hx : Flagged s0 x.1 := ?_); (try clear_value x); rotate_left; dsimp -zeta only [x]; rotate_right) | ((have hx : Flagged s0 x.2 := ?_); (try clear_value x); rotate_left; dsimp -zeta only [x]; rotate_right) | ((have hf : x.zzz = x.zzz := rfl); clear hf; dsimp -zeta only [x]) | (clear_value x) | skip)
    | lift_lets -underBinder
    | (with_reducible refine flagged_setF ?_ ..)
    | (with_reducible refine flagged_raiseCls ?_ ..)
    | (with_reducible refine flagged_ite ?_ ?_)
    | (fail_if_no_progress beta_reduce)
    | (dsimp only [Flagged, hush]; with_reducible refine flagged_of ?_; first | with_reducible assumption | (with_reducible refine flagged_setF ?_ ..) | (with_reducible refine flagged_raiseCls ?_ ..))
    | split
    | (refine flagged_ite ?_ ?_))

theorem flagged_raise {s0 s : State} {f : FieldRef} (hK : Flagged s0 s) :
    Flagged s0 (State.raise s f) := by
  unfold State.raise
  repeat' (first
    | (with_reducible assumption)
    | (intro x; first | ((have hx : Flagged s0 x := ?_); (try clear_value x); rotate_left; dsimp -zeta only [x]; rotate_right) | ((have hx : Flagged s0 x.1 := ?_); (try clear_value x); rotate_left; dsimp -zeta only [x]; rotate_right) | ((have hx : Flagged s0 x.2 := ?_); (try clear_value x); rotate_left; dsimp -zeta only [x]; rotate_right) | ((have hf : x.zzz = x.zzz := rfl); clear hf; dsimp -zeta only [x]) | (clear_value x) | skip)
    | lift_lets -underBinder
    | (with_reducible refine flagged_raiseArg ?_ ..)
    | (with_reducible refine flagged_ite ?_ ?_)
    | (fail_if_no_progress beta_reduce)
    | (dsimp only [Flagged, hush]; with_reducible refine flagged_of ?_; first | with_reducible assumption | (with_reducible refine flagged_raiseArg ?_ ..))
    | split
    | (refine flagged_ite ?_ ?_))

theorem flagged_raiseAt {s0 s : State} {f : FieldRef} {i : Nat} (hK : Flagged s0 s) :
    Flagged s0 (State.raiseAt s f i) := by
  unfold State.raiseAt
  repeat' (first
    | (with_reducible assumption)
    | (intro x; first | ((have hx : Flagged s0 x := ?_); (try clear_value x); rotate_left; dsimp -zeta only [x]; rotate_right) | ((have hx : Flagged s0 x.1 := ?_); (try clear_value x); rotate_left; dsimp -zeta only [x]; rotate_right) | ((have hx : Flagged s0 x.2 := ?_); (try clear_value x); rotate_left; dsimp -zeta only [x]; rotate_right) | ((have hf : x.zzz = x.zzz := rfl); clear hf; dsimp -zeta only [x]) | (clear_value x) | skip)
    | lift_lets -underBinder
    | (with_reducible refine flagged_raiseArg ?_ ..)
    | (with_reducible refine flagged_ite ?_ ?_)
    | (fail_if_no_progress beta_reduce)
    | (dsimp only [Flagged, hush]; with_reducible refine flagged_of ?_; first | with_reducible assumption | (with_reducible refine flagged_raiseArg ?_ ..))
    | split
    | (refine flagged_ite ?_ ?_))

theorem flagged_raiseOff {s0 s : State} {f : FieldRef} {o : Nat} (hK : Flagged s0 s) :
    Flagged s0 (State.raiseOff s f o) := by
  unfold State.raiseOff
  repeat' (first
    | (with_reducible assumption)
    | (intro x; first | ((have hx : Flagged s0 x := ?_); (try clear_value x); rotate_left; dsimp -zeta only [x]; rotate_right) | ((have hx : Flagged s0 x.1 := ?_); (try clear_value x); rotate_left; dsimp -zeta only [x]; rotate_right) | ((have hx : Flagged s0 x.2 := ?_); (try clear_value x); rotate_left; dsimp -zeta only [x]; rotate_right) | ((have hf : x.zzz = x.zzz := rfl); clear hf; dsimp -zeta only [x]) | (clear_value x) | skip)
    | lift_lets -underBinder
    | (with_reducible refine flagged_raiseArg ?_ ..)
    | (with_reducible refine flagged_ite ?_ ?_)
    | (fail_if_no_progress beta_reduce)
    | (dsimp only [Flagged, hush]; with_reducible refine flagged_of ?_; first | with_reducible assumption | (with_reducible refine flagged_raiseArg ?_ ..))
    | split
    | (refine flagged_ite ?_ ?_))

theorem flagged_health {s0 s : State} {ix : Nat} {n : Nat} (hK : Flagged s0 s) :
    Flagged s0 (State.health s ix n) := by
  unfold State.health
  repeat' (first
    | (with_reducible assumption)
    | (intro x; first | ((have hx : Flagged s0 x := ?_); (try clear_value x); rotate_left; dsimp -zeta only [x]; rotate_right) | ((have hx : Flagged s0 x.1 := ?_); (try clear_value x); rotate_left; dsimp -zeta only [x]; rotate_right) | ((have hx : Flagged s0 x.2 := ?_); (try clear_value x); rotate_left; dsimp -zeta only [x]; rotate_right) | ((have hf : x.zzz = x.zzz := rfl); clear hf; dsimp -zeta only [x]) | (clear_value x) | skip)
    | lift_lets -underBinder
    | (with_reducible refine flagged_getD ?_ ?_)
    | (with_reducible refine flagged_ite ?_ ?_)
    | (fail_if_no_progress beta_reduce)
    | (dsimp only [Flagged, hush]; with_reducible refine flagged_of ?_; first | with_reducible assumption)
    | split
    | (refine flagged_ite ?_ ?_))

end Sys2Proof.Laws
end

