-- ==== Sys2Proof/Laws/Keeps.lean ====
section
/-! SUPPORT. What every operation of the device keeps, said once: the queue is left alone, what has left the device stays, free
values are never taken twice, device time does not run back, the registers and the bytes of the range stay in their canonical
form, the security floor only rises and one-time cells keep what they hold. -/

namespace Sys2Proof.Laws

open Sys2Proof Machine

/-- The parts of a state that the relation is about. -/
structure Part where
  queue : List Instr
  out : List Out
  free : Nat
  dt : Nat
  regs : SMap Word
  mem : List Host.Cell
  otp : OtpSt

/-- The parts of a state. -/
def part (s : State) : Part :=
  { queue := s.pending, out := s.out, free := s.freeIx, dt := s.time.dt, regs := s.regs, mem := s.mem, otp := s.otp }

/-- One-time cells: the floor only rises, a programmed cell stays. -/
structure OtpKeeps (a b : OtpSt) : Prop where
  floor : a.floor ≤ b.floor
  gw : ∀ h, a.gwHash = some h → b.gwHash = some h
  cust : ∀ h, a.custHash = some h → b.custHash = some h
  key : ∀ h, a.deviceKey = some h → b.deviceKey = some h

/-- The relation, but for device time. -/
structure PartHolds (a b : Part) : Prop where
  queue : b.queue = a.queue
  out : a.out <+: b.out
  free : a.free ≤ b.free
  regs : regsWf a.regs = true → regsWf b.regs = true
  mem : memWf a.mem = true → memWf b.mem = true
  otp : OtpKeeps a.otp b.otp

/-- The relation with device time. -/
structure PartKeeps (a b : Part) : Prop extends PartHolds a b where
  dt : a.dt ≤ b.dt

/-- What every command keeps. -/
def Holds (s t : State) : Prop := PartHolds (part s) (part t)

/-- What every command keeps but AON_RESET and a TIME_SYNC that sets device time. -/
def Keeps (s t : State) : Prop := PartKeeps (part s) (part t)

theorem otp_refl (a : OtpSt) : OtpKeeps a a := ⟨Nat.le_refl _, fun _ h => h, fun _ h => h, fun _ h => h⟩

theorem otp_trans {a b c : OtpSt} (h : OtpKeeps a b) (k : OtpKeeps b c) : OtpKeeps a c :=
  ⟨h.floor.trans k.floor, fun x e => k.gw x (h.gw x e), fun x e => k.cust x (h.cust x e), fun x e => k.key x (h.key x e)⟩

theorem part_refl (a : Part) : PartKeeps a a :=
  { queue := rfl, out := List.prefix_rfl, free := Nat.le_refl _, regs := id, mem := id, otp := otp_refl _, dt := Nat.le_refl _ }

theorem part_trans {a b c : Part} (h : PartHolds a b) (k : PartHolds b c) : PartHolds a c :=
  { queue := k.queue.trans h.queue, out := h.out.trans k.out, free := h.free.trans k.free,
    regs := fun e => k.regs (h.regs e), mem := fun e => k.mem (h.mem e), otp := otp_trans h.otp k.otp }

theorem keeps_refl (s : State) : Keeps s s := part_refl (part s)

theorem holds_trans {s t u : State} (h : Holds s t) (k : Holds t u) : Holds s u := part_trans h k

theorem Keeps.holds {s t : State} (h : Keeps s t) : Holds s t := PartKeeps.toPartHolds h

theorem keeps_trans {s t u : State} (h : Keeps s t) (k : Keeps t u) : Keeps s u :=
  show PartKeeps (part s) (part u) from
    { part_trans (PartKeeps.toPartHolds h) (PartKeeps.toPartHolds k) with
      dt := (PartKeeps.dt h).trans (PartKeeps.dt k) }

/-- A step of the relation, from a state that keeps to the next. -/
theorem keeps_step {s0 s t : State} (h : Keeps s0 s) (k : PartKeeps (part s) (part t)) : Keeps s0 t := keeps_trans h k

theorem regsWf_iff (m : SMap Word) : regsWf m = true ↔ SMap.wf m = true ∧ ∀ x ∈ m, x.2 ≠ 0#64 := by
  simp [regsWf, List.all_eq_true]

theorem memWf_iff (m : List Host.Cell) : memWf m = true ↔ SMap.wf m = true ∧ ∀ x ∈ m, x.2 ≠ 0#8 := by
  simp [memWf, List.all_eq_true]

theorem regsWf_setReg (s : State) (r : Reg) (i : Nat) (v : Word) (w : regsWf s.regs = true) :
    regsWf (s.setReg r i v).regs = true := by
  rw [regsWf_iff] at w ⊢
  simp only [State.setReg]
  split
  · exact ⟨wf_del _ _ w.1, fun x h => w.2 x (mem_del h)⟩
  · next e =>
    refine ⟨wf_put _ _ _ w.1, fun x h => ?_⟩
    rcases mem_put h with h | h
    · exact w.2 x h
    · rw [h]; exact e

theorem regsWf_filter (m : SMap Word) (p : Nat × Word → Bool) (w : regsWf m = true) : regsWf (List.filter p m) = true := by
  rw [regsWf_iff] at w ⊢
  exact ⟨wf_filter _ _ w.1, fun x h => w.2 x (List.mem_of_mem_filter h)⟩

theorem regsWf_filterMap (m : SMap Word) (g : Nat × Word → Option (Nat × Word)) (hk : ∀ x y, g x = some y → y.1 = x.1)
    (hz : ∀ x y, x.2 ≠ 0#64 → g x = some y → y.2 ≠ 0#64) (w : regsWf m = true) : regsWf (m.filterMap g) = true := by
  rw [regsWf_iff] at w ⊢
  refine ⟨risesFrom_filterMap m g hk w.1, fun y h => ?_⟩
  obtain ⟨x, hx, e⟩ := List.mem_filterMap.mp h
  exact hz x y (w.2 x hx) e

theorem memWf_writeByte (m : List Host.Cell) (a : Nat) (b : Byte) (w : memWf m = true) : memWf (writeByte m a b) = true := by
  rw [memWf_iff] at w ⊢
  simp only [writeByte]
  split
  · exact ⟨wf_del _ _ w.1, fun x h => w.2 x (mem_del h)⟩
  · next e =>
    refine ⟨wf_put _ _ _ w.1, fun x h => ?_⟩
    rcases mem_put h with h | h
    · exact w.2 x h
    · rw [h]; exact e

theorem memWf_writeBytes (m : List Host.Cell) (a : Nat) (bs : List Byte) (w : memWf m = true) :
    memWf (writeBytes m a bs) = true := by
  induction bs generalizing m a with
  | nil => exact w
  | cons b t ih => exact ih _ _ (memWf_writeByte m a b w)

theorem memWf_writeLineUpTo (m : List Host.Cell) (l : Nat) (be : Word) (d : LineData) (n : Nat) (w : memWf m = true) :
    memWf (writeLineUpTo m l be d n) = true := by
  induction n with
  | zero => exact w
  | succ k ih =>
    simp only [writeLineUpTo]
    split
    · exact memWf_writeByte _ _ _ ih
    · exact ih

theorem memWf_writeLine (m : List Host.Cell) (l : Nat) (be : Word) (d : LineData) (w : memWf m = true) :
    memWf (writeLine m l be d) = true :=
  memWf_writeLineUpTo m l be d 64 w

theorem memWf_filter (m : List Host.Cell) (p : Host.Cell → Bool) (w : memWf m = true) : memWf (m.filter p) = true := by
  rw [memWf_iff] at w ⊢
  exact ⟨wf_filter m p w.1, fun x h => w.2 x (List.mem_of_mem_filter h)⟩

/-! The named operations. -/

variable {s0 s : State}

theorem keeps_setReg (h : Keeps s0 s) (r : Reg) (i : Nat) (v : Word) : Keeps s0 (s.setReg r i v) :=
  keeps_step h { part_refl (part s) with regs := regsWf_setReg s r i v }

theorem keeps_setF (h : Keeps s0 s) (f : FieldRef) (i x : Nat) : Keeps s0 (s.setF f i x) := keeps_setReg h _ _ _

theorem keeps_put (h : Keeps s0 s) (f : FieldRef) (x : Nat) : Keeps s0 (s.put f x) := keeps_setF h _ _ _

theorem keeps_bump (h : Keeps s0 s) (f : FieldRef) (i n : Nat) : Keeps s0 (s.bump f i n) := keeps_setF h _ _ _

theorem keeps_tick (h : Keeps s0 s) (n : Nat) : Keeps s0 (s.tick n) :=
  keeps_step h { part_refl (part s) with dt := Nat.le_max_left _ _ }

theorem keeps_emit (h : Keeps s0 s) (o : Out) : Keeps s0 (s.emit o) :=
  keeps_step h { part_refl (part s) with out := List.prefix_append _ _ }

theorem keeps_nextFree (h : Keeps s0 s) : Keeps s0 s.nextFree.2 :=
  keeps_step h { part_refl (part s) with free := Nat.le_succ _ }

theorem keeps_draw (h : Keeps s0 s) : Keeps s0 s.draw.2 :=
  keeps_step h { part_refl (part s) with free := Nat.le_succ _ }

theorem keeps_nextFree_eq {n : Nat} {t : State} (e : s.nextFree = (n, t)) (h : Keeps s0 s) : Keeps s0 t := by
  have k := keeps_nextFree h
  rw [e] at k
  exact k

theorem keeps_draw_eq {n : BitVec 64} {t : State} (e : s.draw = (n, t)) (h : Keeps s0 s) : Keeps s0 t := by
  have k := keeps_draw h
  rw [e] at k
  exact k

theorem keeps_putLine (h : Keeps s0 s) (l : Nat) (be : Word) (d : LineData) : Keeps s0 (s.putLine l be d) :=
  keeps_step h { part_refl (part s) with mem := memWf_writeLine s.mem l be d }

theorem keeps_zeroRange (h : Keeps s0 s) (a n : Nat) : Keeps s0 (s.zeroRange a n) :=
  keeps_step h { part_refl (part s) with mem := memWf_filter s.mem _ }

theorem keeps_idle (h : Keeps s0 s) : Keeps s0 (idle s) := keeps_tick h _

/-- A loop whose every turn keeps, keeps. -/
theorem keeps_foldl {β : Type} {g : State → β → State} {l : List β} (hg : ∀ s x, Keeps s0 s → Keeps s0 (g s x))
    (h : Keeps s0 s) : Keeps s0 (l.foldl g s) :=
  foldl_keeps (P := fun s => Keeps s0 s) g (fun s x k => hg s x k) l s h

theorem keeps_foldr {β : Type} {g : β → State → State} {l : List β} (hg : ∀ s x, Keeps s0 s → Keeps s0 (g x s))
    (h : Keeps s0 s) : Keeps s0 (l.foldr g s) := by
  induction l with
  | nil => exact h
  | cons b t ih => exact hg _ b ih

/-- What may answer a state keeps, where it answers one. -/
structure OKeeps {α : Type} (s0 : State) (g : α → State) (o : Option α) : Prop where
  of : ∀ x, o = some x → Keeps s0 (g x)

theorem okeeps_none {α : Type} {g : α → State} : OKeeps s0 g none := ⟨fun _ h => by cases h⟩

theorem okeeps_some {α : Type} {g : α → State} {x : α} (h : Keeps s0 (g x)) : OKeeps s0 g (some x) :=
  ⟨fun _ e => by cases e; exact h⟩

theorem okeeps_step {α : Type} {g : α → State} {o : Option State} {f : State → α} (h : OKeeps s0 (fun x => x) o)
    (k : ∀ s, Keeps s0 s → Keeps s0 (g (f s))) : OKeeps s0 g (o.map f) := by
  refine ⟨fun x e => ?_⟩
  cases o with
  | none => cases e
  | some y => cases e; exact k y (h.of y rfl)

theorem okeeps_ite {α : Type} {g : α → State} {c : Prop} {d : Decidable c} {a b : Option α} (ha : OKeeps s0 g a)
    (hb : OKeeps s0 g b) : OKeeps s0 g (@ite _ c d a b) := by
  split
  · exact ha
  · exact hb

theorem okeeps_fst {α : Type} {t : State} {b : α} (h : OKeeps s0 Prod.fst (some (t, b))) : Keeps s0 t := h.of _ rfl

theorem okeeps_eq {α : Type} {t : State} {b : α} {o : Option (State × α)} (h : OKeeps s0 Prod.fst o) (e : o = some (t, b)) :
    Keeps s0 t := h.of _ e

/-- A state that differs from one that keeps in other parts only. -/
theorem keeps_of (h : Keeps s0 s) : PartKeeps
    { queue := s0.pending, out := s0.out, free := s0.freeIx, dt := s0.time.dt, regs := s0.regs, mem := s0.mem, otp := s0.otp }
    { queue := s.pending, out := s.out, free := s.freeIx, dt := s.time.dt, regs := s.regs, mem := s.mem, otp := s.otp } := h

/-- Free values taken. -/
theorem keeps_ofFree {n : Nat} (h : Keeps s0 s) : PartKeeps
    { queue := s0.pending, out := s0.out, free := s0.freeIx, dt := s0.time.dt, regs := s0.regs, mem := s0.mem, otp := s0.otp }
    { queue := s.pending, out := s.out, free := s.freeIx + n, dt := s.time.dt, regs := s.regs, mem := s.mem, otp := s.otp } :=
  keeps_step (t := { s with freeIx := s.freeIx + n }) h { part_refl (part s) with free := Nat.le_add_right _ _ }

/-- Device time set: the relation holds from a state whose device time is 0, so it says nothing of device time. -/
theorem keeps_ofTime {n : Nat} (z : s0.time.dt = 0) (h : Keeps s0 s) : PartKeeps
    { queue := s0.pending, out := s0.out, free := s0.freeIx, dt := s0.time.dt, regs := s0.regs, mem := s0.mem, otp := s0.otp }
    { queue := s.pending, out := s.out, free := s.freeIx, dt := n, regs := s.regs, mem := s.mem, otp := s.otp } :=
  { PartKeeps.toPartHolds h with dt := by rw [z]; exact Nat.zero_le _ }

/-- One-time cells programmed, or the floor raised. -/
theorem keeps_ofOtp {o : OtpSt} (k : OtpKeeps s.otp o) (h : Keeps s0 s) : PartKeeps
    { queue := s0.pending, out := s0.out, free := s0.freeIx, dt := s0.time.dt, regs := s0.regs, mem := s0.mem, otp := s0.otp }
    { queue := s.pending, out := s.out, free := s.freeIx, dt := s.time.dt, regs := s.regs, mem := s.mem, otp := o } :=
  keeps_step (t := { s with otp := o }) h { part_refl (part s) with otp := k }

/-- Both ways of a choice keep. -/
theorem keeps_ite {c : Prop} {d : Decidable c} {a b : State} (ha : Keeps s0 a) (hb : Keeps s0 b) :
    Keeps s0 (@ite State c d a b) := by
  split
  · exact ha
  · exact hb

/-- The next state of a command keeps, where it answers one. -/
structure XKeeps (s0 : State) (o : Host.Outcome State Fault Refusal) : Prop where
  of : ∀ t, o = .next t → Keeps s0 t

theorem xkeeps_next {t : State} (h : Keeps s0 t) : XKeeps s0 (.next t) := ⟨fun _ e => by cases e; exact h⟩

/-- A pair taken apart. -/
theorem keeps_pair {α β : Type} {p : α × β} {g : α → β → State} (h : ∀ a b, p = (a, b) → Keeps s0 (g a b)) :
    Keeps s0 (match p with | (a, b) => g a b) := h p.1 p.2 rfl

theorem keeps_pair_fst {α β γ : Type} {p : α × β} {g : α → β → State × γ} (h : ∀ a b, p = (a, b) → Keeps s0 (g a b).1) :
    Keeps s0 (match p with | (a, b) => g a b).1 := h p.1 p.2 rfl

theorem keeps_pair_snd {α β γ : Type} {p : α × β} {g : α → β → γ × State} (h : ∀ a b, p = (a, b) → Keeps s0 (g a b).2) :
    Keeps s0 (match p with | (a, b) => g a b).2 := h p.1 p.2 rfl

/-- A loop over pairs of a state and something else. -/
theorem keeps_foldl_fst {β γ : Type} {g : State × γ → β → State × γ} {l : List β} {p : State × γ}
    (hg : ∀ p x, Keeps s0 p.1 → Keeps s0 (g p x).1) (h : Keeps s0 p.1) : Keeps s0 (l.foldl g p).1 :=
  foldl_keeps (P := fun p => Keeps s0 p.1) g (fun p x k => hg p x k) l p h

theorem keeps_foldl_eq {β γ : Type} {g : State × γ → β → State × γ} {l : List β} {p : State × γ} {t : State} {b : γ}
    (e : l.foldl g p = (t, b)) (hg : ∀ p x, Keeps s0 p.1 → Keeps s0 (g p x).1) (h : Keeps s0 p.1) : Keeps s0 t := by
  have k := keeps_foldl_fst (l := l) hg h
  rw [e] at k
  exact k

theorem keeps_ite_eq {γ : Type} {c : Prop} {d : Decidable c} {p q : State × γ} {t : State} {b : γ}
    (e : @ite _ c d p q = (t, b)) (h : Keeps s0 p.1) (k : Keeps s0 q.1) : Keeps s0 t := by
  split at e
  · rw [e] at h; exact h
  · rw [e] at k; exact k

theorem keeps_getD {o : Option State} (h : OKeeps s0 (fun x => x) o) (k : Keeps s0 s) : Keeps s0 (o.getD s) := by
  cases o with
  | none => exact k
  | some t => exact h.of t rfl

end Sys2Proof.Laws
end

