-- ==== Sys2Proof/Laws/KeepsFlags.lean ====
section
/-! SUPPORT. Every operation of Machine/Flags.lean keeps what Laws/Keeps.lean says. -/

set_option linter.unusedTactic false
set_option linter.unreachableTactic false
set_option linter.unusedVariables false

namespace Sys2Proof.Laws

open Sys2Proof Machine

theorem keeps_cxlRecord {s0 s : State} {key : Nat} {e : EvRec} (hK : Keeps s0 s) :
    Keeps s0 (State.cxlRecord s key e) := by
  unfold State.cxlRecord
  repeat' (first
    | (with_reducible assumption)
    | (intro x; first | ((have hx : Keeps s0 x := ?_); (try clear_value x); rotate_left; dsimp -zeta only [x]; rotate_right) | ((have hx : Keeps s0 x.1 := ?_); (try clear_value x); rotate_left; dsimp -zeta only [x]; rotate_right) | ((have hx : Keeps s0 x.2 := ?_); (try clear_value x); rotate_left; dsimp -zeta only [x]; rotate_right) | (clear_value x) | skip)
    | lift_lets -underBinder
    | (with_reducible refine keeps_put ?_ ..)
    | (with_reducible refine keeps_ite ?_ ?_)
    | (fail_if_no_progress beta_reduce)
    | (dsimp only [Keeps, part]; with_reducible refine keeps_of ?_; first | with_reducible assumption | (with_reducible refine keeps_put ?_ ..))
    | split
    | (refine keeps_ite ?_ ?_))

theorem keeps_msix {s0 s : State} {port : Nat} {ld : Nat} {vector : Nat} (hK : Keeps s0 s) :
    Keeps s0 (State.msix s port ld vector) := by
  unfold State.msix
  repeat' (first
    | (with_reducible assumption)
    | (intro x; first | ((have hx : Keeps s0 x := ?_); (try clear_value x); rotate_left; dsimp -zeta only [x]; rotate_right) | ((have hx : Keeps s0 x.1 := ?_); (try clear_value x); rotate_left; dsimp -zeta only [x]; rotate_right) | ((have hx : Keeps s0 x.2 := ?_); (try clear_value x); rotate_left; dsimp -zeta only [x]; rotate_right) | (clear_value x) | skip)
    | lift_lets -underBinder
    | (with_reducible refine keeps_emit ?_ ..)
    | (with_reducible refine keeps_ite ?_ ?_)
    | (fail_if_no_progress beta_reduce)
    | (dsimp only [Keeps, part]; with_reducible refine keeps_of ?_; first | with_reducible assumption | (with_reducible refine keeps_emit ?_ ..))
    | split
    | (refine keeps_ite ?_ ?_))

theorem keeps_evSend {s0 s : State} {t : Nat} (hK : Keeps s0 s) :
    Keeps s0 (State.evSend s t) := by
  unfold State.evSend
  repeat' (first
    | (with_reducible assumption)
    | (intro x; first | ((have hx : Keeps s0 x := ?_); (try clear_value x); rotate_left; dsimp -zeta only [x]; rotate_right) | ((have hx : Keeps s0 x.1 := ?_); (try clear_value x); rotate_left; dsimp -zeta only [x]; rotate_right) | ((have hx : Keeps s0 x.2 := ?_); (try clear_value x); rotate_left; dsimp -zeta only [x]; rotate_right) | (clear_value x) | skip)
    | lift_lets -underBinder
    | (with_reducible refine keeps_emit ?_ ..)
    | (with_reducible refine keeps_put ?_ ..)
    | (with_reducible refine keeps_msix ?_ ..)
    | (with_reducible refine keeps_ite ?_ ?_)
    | (fail_if_no_progress beta_reduce)
    | (dsimp only [Keeps, part]; with_reducible refine keeps_of ?_; first | with_reducible assumption | (with_reducible refine keeps_emit ?_ ..) | (with_reducible refine keeps_put ?_ ..) | (with_reducible refine keeps_msix ?_ ..))
    | split
    | (refine keeps_ite ?_ ?_))

theorem keeps_evIrq {s0 s : State} {t : Nat} (hK : Keeps s0 s) :
    Keeps s0 (State.evIrq s t) := by
  unfold State.evIrq
  repeat' (first
    | (with_reducible assumption)
    | (intro x; first | ((have hx : Keeps s0 x := ?_); (try clear_value x); rotate_left; dsimp -zeta only [x]; rotate_right) | ((have hx : Keeps s0 x.1 := ?_); (try clear_value x); rotate_left; dsimp -zeta only [x]; rotate_right) | ((have hx : Keeps s0 x.2 := ?_); (try clear_value x); rotate_left; dsimp -zeta only [x]; rotate_right) | (clear_value x) | skip)
    | lift_lets -underBinder
    | (with_reducible refine keeps_put ?_ ..)
    | (with_reducible refine keeps_evSend ?_ ..)
    | (with_reducible refine keeps_ite ?_ ?_)
    | (fail_if_no_progress beta_reduce)
    | (dsimp only [Keeps, part]; with_reducible refine keeps_of ?_; first | with_reducible assumption | (with_reducible refine keeps_put ?_ ..) | (with_reducible refine keeps_evSend ?_ ..))
    | split
    | (refine keeps_ite ?_ ?_))

theorem keeps_bbRecord {s0 s : State} {cls : Nat} {body : BBody} (hK : Keeps s0 s) :
    Keeps s0 (State.bbRecord s cls body) := by
  unfold State.bbRecord
  repeat' (first
    | (with_reducible assumption)
    | (intro x; first | ((have hx : Keeps s0 x := ?_); (try clear_value x); rotate_left; dsimp -zeta only [x]; rotate_right) | ((have hx : Keeps s0 x.1 := ?_); (try clear_value x); rotate_left; dsimp -zeta only [x]; rotate_right) | ((have hx : Keeps s0 x.2 := ?_); (try clear_value x); rotate_left; dsimp -zeta only [x]; rotate_right) | (clear_value x) | skip)
    | lift_lets -underBinder
    | (with_reducible refine keeps_health ?_ ..)
    | (with_reducible refine keeps_getD ?_ ?_)
    | (with_reducible refine keeps_ite ?_ ?_)
    | (fail_if_no_progress beta_reduce)
    | (dsimp only [Keeps, part]; with_reducible refine keeps_of ?_; first | with_reducible assumption | (with_reducible refine keeps_health ?_ ..))
    | split
    | (refine keeps_ite ?_ ?_))

theorem keeps_bbEvent {s0 s : State} {f : FieldRef} {i : Nat} {e : EvRec} (hK : Keeps s0 s) :
    Keeps s0 (State.bbEvent s f i e).1 := by
  unfold State.bbEvent
  repeat' (first
    | (with_reducible assumption)
    | (intro x; first | ((have hx : Keeps s0 x := ?_); (try clear_value x); rotate_left; dsimp -zeta only [x]; rotate_right) | ((have hx : Keeps s0 x.1 := ?_); (try clear_value x); rotate_left; dsimp -zeta only [x]; rotate_right) | ((have hx : Keeps s0 x.2 := ?_); (try clear_value x); rotate_left; dsimp -zeta only [x]; rotate_right) | (clear_value x) | skip)
    | lift_lets -underBinder
    | (with_reducible refine keeps_bbRecord ?_ ..)
    | (with_reducible refine keeps_ite ?_ ?_)
    | (fail_if_no_progress beta_reduce)
    | (dsimp only [Keeps, part]; with_reducible refine keeps_of ?_; first | with_reducible assumption | (with_reducible refine keeps_bbRecord ?_ ..))
    | split
    | (refine keeps_ite ?_ ?_))

theorem keeps_bbEvent_eq {s0 s tE : State} {bE : Bool} {f : FieldRef} {i : Nat} {e : EvRec} (hEq : State.bbEvent s f i e = (tE, bE)) (hK : Keeps s0 s) : Keeps s0 tE := by
  have k : Keeps s0 (State.bbEvent s f i e).1 := keeps_bbEvent hK
  rw [hEq] at k
  exact k

theorem keeps_spreadEvent {s0 s : State} {e : EvRec} {irq : Bool} {p : EventSt × Bool} (hK : Keeps s0 s) :
    Keeps s0 (State.spreadEvent s e irq p).1 := by
  unfold State.spreadEvent
  repeat' (first
    | (with_reducible assumption)
    | (intro x; first | ((have hx : Keeps s0 x := ?_); (try clear_value x); rotate_left; dsimp -zeta only [x]; rotate_right) | ((have hx : Keeps s0 x.1 := ?_); (try clear_value x); rotate_left; dsimp -zeta only [x]; rotate_right) | ((have hx : Keeps s0 x.2 := ?_); (try clear_value x); rotate_left; dsimp -zeta only [x]; rotate_right) | (clear_value x) | skip)
    | lift_lets -underBinder
    | (with_reducible refine keeps_bump ?_ ..)
    | (with_reducible refine keeps_put ?_ ..)
    | (with_reducible refine keeps_cxlRecord ?_ ..)
    | (with_reducible refine keeps_evIrq ?_ ..)
    | (with_reducible refine keeps_bbEvent ?_ ..)
    | (refine keeps_bbEvent_eq (by assumption) ?_)
    | (with_reducible refine keeps_foldl (fun s x hK => ?_) ?_)
    | (with_reducible refine keeps_foldl_fst (fun s x hK => ?_) ?_)
    | (refine keeps_foldl_eq (by assumption) (fun s x hK => ?_) ?_)
    | (with_reducible refine keeps_ite ?_ ?_)
    | (fail_if_no_progress beta_reduce)
    | (dsimp only [Keeps, part]; with_reducible refine keeps_of ?_; first | with_reducible assumption | (with_reducible refine keeps_bump ?_ ..) | (with_reducible refine keeps_put ?_ ..) | (with_reducible refine keeps_cxlRecord ?_ ..) | (with_reducible refine keeps_evIrq ?_ ..) | (with_reducible refine keeps_bbEvent ?_ ..) | (refine keeps_bbEvent_eq (by assumption) ?_) | (refine keeps_foldl_eq (by assumption) (fun s x hK => ?_) ?_))
    | split
    | (refine keeps_ite ?_ ?_))

theorem keeps_spreadEvent_eq {s0 s tE : State} {bE : RaiseNote} {e : EvRec} {irq : Bool} {p : EventSt × Bool} (hEq : State.spreadEvent s e irq p = (tE, bE)) (hK : Keeps s0 s) : Keeps s0 tE := by
  have k : Keeps s0 (State.spreadEvent s e irq p).1 := keeps_spreadEvent hK
  rw [hEq] at k
  exact k

theorem keeps_enterEvent {s0 s : State} {e : EvRec} (hK : Keeps s0 s) :
    Keeps s0 (State.enterEvent s e).1 := by
  unfold State.enterEvent
  repeat' (first
    | (with_reducible assumption)
    | (intro x; first | ((have hx : Keeps s0 x := ?_); (try clear_value x); rotate_left; dsimp -zeta only [x]; rotate_right) | ((have hx : Keeps s0 x.1 := ?_); (try clear_value x); rotate_left; dsimp -zeta only [x]; rotate_right) | ((have hx : Keeps s0 x.2 := ?_); (try clear_value x); rotate_left; dsimp -zeta only [x]; rotate_right) | (clear_value x) | skip)
    | lift_lets -underBinder
    | (with_reducible refine keeps_bump ?_ ..)
    | (with_reducible refine keeps_evIrq ?_ ..)
    | (with_reducible refine keeps_spreadEvent ?_ ..)
    | (refine keeps_spreadEvent_eq (by assumption) ?_)
    | (with_reducible refine keeps_foldl (fun s x hK => ?_) ?_)
    | (with_reducible refine keeps_foldl_fst (fun s x hK => ?_) ?_)
    | (refine keeps_foldl_eq (by assumption) (fun s x hK => ?_) ?_)
    | (with_reducible refine keeps_ite ?_ ?_)
    | (fail_if_no_progress beta_reduce)
    | (dsimp only [Keeps, part]; with_reducible refine keeps_of ?_; first | with_reducible assumption | (with_reducible refine keeps_bump ?_ ..) | (with_reducible refine keeps_evIrq ?_ ..) | (with_reducible refine keeps_spreadEvent ?_ ..) | (refine keeps_spreadEvent_eq (by assumption) ?_) | (refine keeps_foldl_eq (by assumption) (fun s x hK => ?_) ?_))
    | split
    | (refine keeps_ite ?_ ?_))

theorem keeps_enterEvent_eq {s0 s tE : State} {bE : RaiseNote} {e : EvRec} (hEq : State.enterEvent s e = (tE, bE)) (hK : Keeps s0 s) : Keeps s0 tE := by
  have k : Keeps s0 (State.enterEvent s e).1 := keeps_enterEvent hK
  rw [hEq] at k
  exact k

theorem keeps_raiseOnce {s0 s : State} {f : FieldRef} {i : Nat} {cls : Nat} {a : EvArg} (hK : Keeps s0 s) :
    Keeps s0 (State.raiseOnce s f i cls a).1 := by
  unfold State.raiseOnce
  repeat' (first
    | (with_reducible assumption)
    | (intro x; first | ((have hx : Keeps s0 x := ?_); (try clear_value x); rotate_left; dsimp -zeta only [x]; rotate_right) | ((have hx : Keeps s0 x.1 := ?_); (try clear_value x); rotate_left; dsimp -zeta only [x]; rotate_right) | ((have hx : Keeps s0 x.2 := ?_); (try clear_value x); rotate_left; dsimp -zeta only [x]; rotate_right) | (clear_value x) | skip)
    | lift_lets -underBinder
    | (with_reducible refine keeps_setF ?_ ..)
    | (with_reducible refine keeps_bump ?_ ..)
    | (with_reducible refine keeps_enterEvent ?_ ..)
    | (refine keeps_enterEvent_eq (by assumption) ?_)
    | (with_reducible refine keeps_ite ?_ ?_)
    | (fail_if_no_progress beta_reduce)
    | (dsimp only [Keeps, part]; with_reducible refine keeps_of ?_; first | with_reducible assumption | (with_reducible refine keeps_setF ?_ ..) | (with_reducible refine keeps_bump ?_ ..) | (with_reducible refine keeps_enterEvent ?_ ..) | (refine keeps_enterEvent_eq (by assumption) ?_))
    | split
    | (refine keeps_ite ?_ ?_))

theorem keeps_raiseOnce_eq {s0 s tE : State} {bE : RaiseNote} {f : FieldRef} {i : Nat} {cls : Nat} {a : EvArg} (hEq : State.raiseOnce s f i cls a = (tE, bE)) (hK : Keeps s0 s) : Keeps s0 tE := by
  have k : Keeps s0 (State.raiseOnce s f i cls a).1 := keeps_raiseOnce hK
  rw [hEq] at k
  exact k

theorem keeps_raiseNotes {s0 s : State} {n : RaiseNote} (hK : Keeps s0 s) :
    Keeps s0 (State.raiseNotes s n) := by
  unfold State.raiseNotes
  repeat' (first
    | (with_reducible assumption)
    | (intro x; first | ((have hx : Keeps s0 x := ?_); (try clear_value x); rotate_left; dsimp -zeta only [x]; rotate_right) | ((have hx : Keeps s0 x.1 := ?_); (try clear_value x); rotate_left; dsimp -zeta only [x]; rotate_right) | ((have hx : Keeps s0 x.2 := ?_); (try clear_value x); rotate_left; dsimp -zeta only [x]; rotate_right) | (clear_value x) | skip)
    | lift_lets -underBinder
    | (with_reducible refine keeps_raiseOnce ?_ ..)
    | (refine keeps_raiseOnce_eq (by assumption) ?_)
    | (with_reducible refine keeps_ite ?_ ?_)
    | (fail_if_no_progress beta_reduce)
    | (dsimp only [Keeps, part]; with_reducible refine keeps_of ?_; first | with_reducible assumption | (with_reducible refine keeps_raiseOnce ?_ ..) | (refine keeps_raiseOnce_eq (by assumption) ?_))
    | split
    | (refine keeps_ite ?_ ?_))

theorem keeps_raiseCls {s0 s : State} {f : FieldRef} {i : Nat} {cls : Nat} {a : EvArg} (hK : Keeps s0 s) :
    Keeps s0 (State.raiseCls s f i cls a) := by
  unfold State.raiseCls
  repeat' (first
    | (with_reducible assumption)
    | (intro x; first | ((have hx : Keeps s0 x := ?_); (try clear_value x); rotate_left; dsimp -zeta only [x]; rotate_right) | ((have hx : Keeps s0 x.1 := ?_); (try clear_value x); rotate_left; dsimp -zeta only [x]; rotate_right) | ((have hx : Keeps s0 x.2 := ?_); (try clear_value x); rotate_left; dsimp -zeta only [x]; rotate_right) | (clear_value x) | skip)
    | lift_lets -underBinder
    | (with_reducible refine keeps_raiseOnce ?_ ..)
    | (refine keeps_raiseOnce_eq (by assumption) ?_)
    | (with_reducible refine keeps_raiseNotes ?_ ..)
    | (with_reducible refine keeps_ite ?_ ?_)
    | (fail_if_no_progress beta_reduce)
    | (dsimp only [Keeps, part]; with_reducible refine keeps_of ?_; first | with_reducible assumption | (with_reducible refine keeps_raiseOnce ?_ ..) | (refine keeps_raiseOnce_eq (by assumption) ?_) | (with_reducible refine keeps_raiseNotes ?_ ..))
    | split
    | (refine keeps_ite ?_ ?_))

theorem keeps_raiseArg {s0 s : State} {f : FieldRef} {i : Nat} {a : EvArg} (hK : Keeps s0 s) :
    Keeps s0 (State.raiseArg s f i a) := by
  unfold State.raiseArg
  repeat' (first
    | (with_reducible assumption)
    | (intro x; first | ((have hx : Keeps s0 x := ?_); (try clear_value x); rotate_left; dsimp -zeta only [x]; rotate_right) | ((have hx : Keeps s0 x.1 := ?_); (try clear_value x); rotate_left; dsimp -zeta only [x]; rotate_right) | ((have hx : Keeps s0 x.2 := ?_); (try clear_value x); rotate_left; dsimp -zeta only [x]; rotate_right) | (clear_value x) | skip)
    | lift_lets -underBinder
    | (with_reducible refine keeps_setF ?_ ..)
    | (with_reducible refine keeps_raiseCls ?_ ..)
    | (with_reducible refine keeps_ite ?_ ?_)
    | (fail_if_no_progress beta_reduce)
    | (dsimp only [Keeps, part]; with_reducible refine keeps_of ?_; first | with_reducible assumption | (with_reducible refine keeps_setF ?_ ..) | (with_reducible refine keeps_raiseCls ?_ ..))
    | split
    | (refine keeps_ite ?_ ?_))

theorem keeps_raise {s0 s : State} {f : FieldRef} (hK : Keeps s0 s) :
    Keeps s0 (State.raise s f) := by
  unfold State.raise
  repeat' (first
    | (with_reducible assumption)
    | (intro x; first | ((have hx : Keeps s0 x := ?_); (try clear_value x); rotate_left; dsimp -zeta only [x]; rotate_right) | ((have hx : Keeps s0 x.1 := ?_); (try clear_value x); rotate_left; dsimp -zeta only [x]; rotate_right) | ((have hx : Keeps s0 x.2 := ?_); (try clear_value x); rotate_left; dsimp -zeta only [x]; rotate_right) | (clear_value x) | skip)
    | lift_lets -underBinder
    | (with_reducible refine keeps_raiseArg ?_ ..)
    | (with_reducible refine keeps_ite ?_ ?_)
    | (fail_if_no_progress beta_reduce)
    | (dsimp only [Keeps, part]; with_reducible refine keeps_of ?_; first | with_reducible assumption | (with_reducible refine keeps_raiseArg ?_ ..))
    | split
    | (refine keeps_ite ?_ ?_))

theorem keeps_raiseAt {s0 s : State} {f : FieldRef} {i : Nat} (hK : Keeps s0 s) :
    Keeps s0 (State.raiseAt s f i) := by
  unfold State.raiseAt
  repeat' (first
    | (with_reducible assumption)
    | (intro x; first | ((have hx : Keeps s0 x := ?_); (try clear_value x); rotate_left; dsimp -zeta only [x]; rotate_right) | ((have hx : Keeps s0 x.1 := ?_); (try clear_value x); rotate_left; dsimp -zeta only [x]; rotate_right) | ((have hx : Keeps s0 x.2 := ?_); (try clear_value x); rotate_left; dsimp -zeta only [x]; rotate_right) | (clear_value x) | skip)
    | lift_lets -underBinder
    | (with_reducible refine keeps_raiseArg ?_ ..)
    | (with_reducible refine keeps_ite ?_ ?_)
    | (fail_if_no_progress beta_reduce)
    | (dsimp only [Keeps, part]; with_reducible refine keeps_of ?_; first | with_reducible assumption | (with_reducible refine keeps_raiseArg ?_ ..))
    | split
    | (refine keeps_ite ?_ ?_))

theorem keeps_raiseOff {s0 s : State} {f : FieldRef} {o : Nat} (hK : Keeps s0 s) :
    Keeps s0 (State.raiseOff s f o) := by
  unfold State.raiseOff
  repeat' (first
    | (with_reducible assumption)
    | (intro x; first | ((have hx : Keeps s0 x := ?_); (try clear_value x); rotate_left; dsimp -zeta only [x]; rotate_right) | ((have hx : Keeps s0 x.1 := ?_); (try clear_value x); rotate_left; dsimp -zeta only [x]; rotate_right) | ((have hx : Keeps s0 x.2 := ?_); (try clear_value x); rotate_left; dsimp -zeta only [x]; rotate_right) | (clear_value x) | skip)
    | lift_lets -underBinder
    | (with_reducible refine keeps_raiseArg ?_ ..)
    | (with_reducible refine keeps_ite ?_ ?_)
    | (fail_if_no_progress beta_reduce)
    | (dsimp only [Keeps, part]; with_reducible refine keeps_of ?_; first | with_reducible assumption | (with_reducible refine keeps_raiseArg ?_ ..))
    | split
    | (refine keeps_ite ?_ ?_))

theorem keeps_pumpAon {s0 s : State} (hK : Keeps s0 s) :
    Keeps s0 (State.pumpAon s) := by
  unfold State.pumpAon
  repeat' (first
    | (with_reducible assumption)
    | (intro x; first | ((have hx : Keeps s0 x := ?_); (try clear_value x); rotate_left; dsimp -zeta only [x]; rotate_right) | ((have hx : Keeps s0 x.1 := ?_); (try clear_value x); rotate_left; dsimp -zeta only [x]; rotate_right) | ((have hx : Keeps s0 x.2 := ?_); (try clear_value x); rotate_left; dsimp -zeta only [x]; rotate_right) | (clear_value x) | skip)
    | lift_lets -underBinder
    | (with_reducible refine keeps_enterEvent ?_ ..)
    | (refine keeps_enterEvent_eq (by assumption) ?_)
    | (with_reducible refine keeps_raiseNotes ?_ ..)
    | (with_reducible refine keeps_foldl (fun s x hK => ?_) ?_)
    | (with_reducible refine keeps_foldl_fst (fun s x hK => ?_) ?_)
    | (refine keeps_foldl_eq (by assumption) (fun s x hK => ?_) ?_)
    | (with_reducible refine keeps_ite ?_ ?_)
    | (fail_if_no_progress beta_reduce)
    | (dsimp only [Keeps, part]; with_reducible refine keeps_of ?_; first | with_reducible assumption | (with_reducible refine keeps_enterEvent ?_ ..) | (refine keeps_enterEvent_eq (by assumption) ?_) | (with_reducible refine keeps_raiseNotes ?_ ..) | (refine keeps_foldl_eq (by assumption) (fun s x hK => ?_) ?_))
    | split
    | (refine keeps_ite ?_ ?_))

theorem keeps_health {s0 s : State} {ix : Nat} {n : Nat} (hK : Keeps s0 s) :
    Keeps s0 (State.health s ix n) := by
  unfold State.health
  repeat' (first
    | (with_reducible assumption)
    | (intro x; first | ((have hx : Keeps s0 x := ?_); (try clear_value x); rotate_left; dsimp -zeta only [x]; rotate_right) | ((have hx : Keeps s0 x.1 := ?_); (try clear_value x); rotate_left; dsimp -zeta only [x]; rotate_right) | ((have hx : Keeps s0 x.2 := ?_); (try clear_value x); rotate_left; dsimp -zeta only [x]; rotate_right) | (clear_value x) | skip)
    | lift_lets -underBinder
    | (with_reducible refine keeps_getD ?_ ?_)
    | (with_reducible refine keeps_ite ?_ ?_)
    | (fail_if_no_progress beta_reduce)
    | (dsimp only [Keeps, part]; with_reducible refine keeps_of ?_; first | with_reducible assumption)
    | split
    | (refine keeps_ite ?_ ?_))

theorem keeps_healthList {s0 s : State} {ty : Nat} {ch : Nat} {loc : Nat} (hK : Keeps s0 s) :
    Keeps s0 (State.healthList s ty ch loc) := by
  unfold State.healthList
  repeat' (first
    | (with_reducible assumption)
    | (intro x; first | ((have hx : Keeps s0 x := ?_); (try clear_value x); rotate_left; dsimp -zeta only [x]; rotate_right) | ((have hx : Keeps s0 x.1 := ?_); (try clear_value x); rotate_left; dsimp -zeta only [x]; rotate_right) | ((have hx : Keeps s0 x.2 := ?_); (try clear_value x); rotate_left; dsimp -zeta only [x]; rotate_right) | (clear_value x) | skip)
    | lift_lets -underBinder
    | (with_reducible refine keeps_raise ?_ ..)
    | (with_reducible refine keeps_ite ?_ ?_)
    | (fail_if_no_progress beta_reduce)
    | (dsimp only [Keeps, part]; with_reducible refine keeps_of ?_; first | with_reducible assumption | (with_reducible refine keeps_raise ?_ ..))
    | split
    | (refine keeps_ite ?_ ?_))

theorem keeps_writeSummary {s0 s : State} (hK : Keeps s0 s) :
    Keeps s0 (State.writeSummary s) := by
  unfold State.writeSummary
  repeat' (first
    | (with_reducible assumption)
    | (intro x; first | ((have hx : Keeps s0 x := ?_); (try clear_value x); rotate_left; dsimp -zeta only [x]; rotate_right) | ((have hx : Keeps s0 x.1 := ?_); (try clear_value x); rotate_left; dsimp -zeta only [x]; rotate_right) | ((have hx : Keeps s0 x.2 := ?_); (try clear_value x); rotate_left; dsimp -zeta only [x]; rotate_right) | (clear_value x) | skip)
    | lift_lets -underBinder
    | (with_reducible refine keeps_put ?_ ..)
    | (with_reducible refine keeps_health ?_ ..)
    | (with_reducible refine keeps_ite ?_ ?_)
    | (fail_if_no_progress beta_reduce)
    | (dsimp only [Keeps, part]; with_reducible refine keeps_of ?_; first | with_reducible assumption | (with_reducible refine keeps_put ?_ ..) | (with_reducible refine keeps_health ?_ ..))
    | split
    | (refine keeps_ite ?_ ?_))

theorem keeps_spanLoss {s0 s : State} {span : Nat} {cause : Nat} {cls : Nat} (hK : Keeps s0 s) :
    Keeps s0 (State.spanLoss s span cause cls) := by
  unfold State.spanLoss
  repeat' (first
    | (with_reducible assumption)
    | (intro x; first | ((have hx : Keeps s0 x := ?_); (try clear_value x); rotate_left; dsimp -zeta only [x]; rotate_right) | ((have hx : Keeps s0 x.1 := ?_); (try clear_value x); rotate_left; dsimp -zeta only [x]; rotate_right) | ((have hx : Keeps s0 x.2 := ?_); (try clear_value x); rotate_left; dsimp -zeta only [x]; rotate_right) | (clear_value x) | skip)
    | lift_lets -underBinder
    | (with_reducible refine keeps_bbRecord ?_ ..)
    | (with_reducible refine keeps_ite ?_ ?_)
    | (fail_if_no_progress beta_reduce)
    | (dsimp only [Keeps, part]; with_reducible refine keeps_of ?_; first | with_reducible assumption | (with_reducible refine keeps_bbRecord ?_ ..))
    | split
    | (refine keeps_ite ?_ ?_))

theorem keeps_newLossCause {s0 s : State} (hK : Keeps s0 s) :
    Keeps s0 (State.newLossCause s) := by
  unfold State.newLossCause
  repeat' (first
    | (with_reducible assumption)
    | (intro x; first | ((have hx : Keeps s0 x := ?_); (try clear_value x); rotate_left; dsimp -zeta only [x]; rotate_right) | ((have hx : Keeps s0 x.1 := ?_); (try clear_value x); rotate_left; dsimp -zeta only [x]; rotate_right) | ((have hx : Keeps s0 x.2 := ?_); (try clear_value x); rotate_left; dsimp -zeta only [x]; rotate_right) | (clear_value x) | skip)
    | lift_lets -underBinder
    | (with_reducible refine keeps_ite ?_ ?_)
    | (fail_if_no_progress beta_reduce)
    | (dsimp only [Keeps, part]; with_reducible refine keeps_of ?_; first | with_reducible assumption)
    | split
    | (refine keeps_ite ?_ ?_))

end Sys2Proof.Laws
end

