-- ==== Sys2Proof/Laws/KeepsSend.lean ====
section
/-! SUPPORT. Every operation of Machine/Send.lean keeps what Laws/Keeps.lean says. -/

set_option linter.unusedTactic false
set_option linter.unreachableTactic false
set_option linter.unusedVariables false

namespace Sys2Proof.Laws

open Sys2Proof Machine

theorem keeps_newTag {s0 s : State} (hK : Keeps s0 s) :
    Keeps s0 (State.newTag s).2 := by
  unfold State.newTag
  repeat' (first
    | (with_reducible assumption)
    | (intro x; first | ((have hx : Keeps s0 x := ?_); (try clear_value x); rotate_left; dsimp -zeta only [x]; rotate_right) | ((have hx : Keeps s0 x.1 := ?_); (try clear_value x); rotate_left; dsimp -zeta only [x]; rotate_right) | ((have hx : Keeps s0 x.2 := ?_); (try clear_value x); rotate_left; dsimp -zeta only [x]; rotate_right) | (clear_value x) | skip)
    | lift_lets -underBinder
    | (with_reducible refine keeps_ite ?_ ?_)
    | (fail_if_no_progress beta_reduce)
    | (dsimp only [Keeps, part]; with_reducible refine keeps_of ?_; first | with_reducible assumption)
    | split
    | (refine keeps_ite ?_ ?_))

theorem keeps_newTag_eq {s0 s tE : State} {bE : Nat} (hEq : State.newTag s = (bE, tE)) (hK : Keeps s0 s) : Keeps s0 tE := by
  have k : Keeps s0 (State.newTag s).2 := keeps_newTag hK
  rw [hEq] at k
  exact k

theorem keeps_countBytes {s0 s : State} {f : FieldRef} {port : Nat} {left : Nat} {n : Nat} (hK : Keeps s0 s) :
    Keeps s0 (State.countBytes s f port left n).2 := by
  unfold State.countBytes
  repeat' (first
    | (with_reducible assumption)
    | (intro x; first | ((have hx : Keeps s0 x := ?_); (try clear_value x); rotate_left; dsimp -zeta only [x]; rotate_right) | ((have hx : Keeps s0 x.1 := ?_); (try clear_value x); rotate_left; dsimp -zeta only [x]; rotate_right) | ((have hx : Keeps s0 x.2 := ?_); (try clear_value x); rotate_left; dsimp -zeta only [x]; rotate_right) | (clear_value x) | skip)
    | lift_lets -underBinder
    | (with_reducible refine keeps_bump ?_ ..)
    | (with_reducible refine keeps_ite ?_ ?_)
    | (fail_if_no_progress beta_reduce)
    | (dsimp only [Keeps, part]; with_reducible refine keeps_of ?_; first | with_reducible assumption | (with_reducible refine keeps_bump ?_ ..))
    | split
    | (refine keeps_ite ?_ ?_))

theorem keeps_countBytes_eq {s0 s tE : State} {bE : Nat} {f : FieldRef} {port : Nat} {left : Nat} {n : Nat} (hEq : State.countBytes s f port left n = (bE, tE)) (hK : Keeps s0 s) : Keeps s0 tE := by
  have k : Keeps s0 (State.countBytes s f port left n).2 := keeps_countBytes hK
  rw [hEq] at k
  exact k

theorem keeps_countTx {s0 s : State} {port : Nat} {n : Nat} (hK : Keeps s0 s) :
    Keeps s0 (State.countTx s port n) := by
  unfold State.countTx
  repeat' (first
    | (with_reducible assumption)
    | (intro x; first | ((have hx : Keeps s0 x := ?_); (try clear_value x); rotate_left; dsimp -zeta only [x]; rotate_right) | ((have hx : Keeps s0 x.1 := ?_); (try clear_value x); rotate_left; dsimp -zeta only [x]; rotate_right) | ((have hx : Keeps s0 x.2 := ?_); (try clear_value x); rotate_left; dsimp -zeta only [x]; rotate_right) | (clear_value x) | skip)
    | lift_lets -underBinder
    | (with_reducible refine keeps_put ?_ ..)
    | (with_reducible refine keeps_countBytes ?_ ..)
    | (refine keeps_countBytes_eq (by assumption) ?_)
    | (with_reducible refine keeps_ite ?_ ?_)
    | (fail_if_no_progress beta_reduce)
    | (dsimp only [Keeps, part]; with_reducible refine keeps_of ?_; first | with_reducible assumption | (with_reducible refine keeps_put ?_ ..) | (with_reducible refine keeps_countBytes ?_ ..) | (refine keeps_countBytes_eq (by assumption) ?_))
    | split
    | (refine keeps_ite ?_ ?_))

theorem keeps_countRx {s0 s : State} {port : Nat} {n : Nat} (hK : Keeps s0 s) :
    Keeps s0 (State.countRx s port n) := by
  unfold State.countRx
  repeat' (first
    | (with_reducible assumption)
    | (intro x; first | ((have hx : Keeps s0 x := ?_); (try clear_value x); rotate_left; dsimp -zeta only [x]; rotate_right) | ((have hx : Keeps s0 x.1 := ?_); (try clear_value x); rotate_left; dsimp -zeta only [x]; rotate_right) | ((have hx : Keeps s0 x.2 := ?_); (try clear_value x); rotate_left; dsimp -zeta only [x]; rotate_right) | (clear_value x) | skip)
    | lift_lets -underBinder
    | (with_reducible refine keeps_put ?_ ..)
    | (with_reducible refine keeps_countBytes ?_ ..)
    | (refine keeps_countBytes_eq (by assumption) ?_)
    | (with_reducible refine keeps_ite ?_ ?_)
    | (fail_if_no_progress beta_reduce)
    | (dsimp only [Keeps, part]; with_reducible refine keeps_of ?_; first | with_reducible assumption | (with_reducible refine keeps_put ?_ ..) | (with_reducible refine keeps_countBytes ?_ ..) | (refine keeps_countBytes_eq (by assumption) ?_))
    | split
    | (refine keeps_ite ?_ ?_))

theorem keeps_emitMsg {s0 s : State} {port : Nat} {h : Hdr} {p : Payload} (hK : Keeps s0 s) :
    Keeps s0 (State.emitMsg s port h p) := by
  unfold State.emitMsg
  repeat' (first
    | (with_reducible assumption)
    | (intro x; first | ((have hx : Keeps s0 x := ?_); (try clear_value x); rotate_left; dsimp -zeta only [x]; rotate_right) | ((have hx : Keeps s0 x.1 := ?_); (try clear_value x); rotate_left; dsimp -zeta only [x]; rotate_right) | ((have hx : Keeps s0 x.2 := ?_); (try clear_value x); rotate_left; dsimp -zeta only [x]; rotate_right) | (clear_value x) | skip)
    | lift_lets -underBinder
    | (with_reducible refine keeps_emit ?_ ..)
    | (with_reducible refine keeps_countTx ?_ ..)
    | (with_reducible refine keeps_ite ?_ ?_)
    | (fail_if_no_progress beta_reduce)
    | (dsimp only [Keeps, part]; with_reducible refine keeps_of ?_; first | with_reducible assumption | (with_reducible refine keeps_emit ?_ ..) | (with_reducible refine keeps_countTx ?_ ..))
    | split
    | (refine keeps_ite ?_ ?_))

theorem keeps_sendOn {s0 s : State} {port : Nat} {h : Hdr} {p : Payload} (hK : Keeps s0 s) :
    Keeps s0 (State.sendOn s port h p) := by
  unfold State.sendOn
  repeat' (first
    | (with_reducible assumption)
    | (intro x; first | ((have hx : Keeps s0 x := ?_); (try clear_value x); rotate_left; dsimp -zeta only [x]; rotate_right) | ((have hx : Keeps s0 x.1 := ?_); (try clear_value x); rotate_left; dsimp -zeta only [x]; rotate_right) | ((have hx : Keeps s0 x.2 := ?_); (try clear_value x); rotate_left; dsimp -zeta only [x]; rotate_right) | (clear_value x) | skip)
    | lift_lets -underBinder
    | (with_reducible refine keeps_put ?_ ..)
    | (with_reducible refine keeps_emitMsg ?_ ..)
    | (with_reducible refine keeps_ite ?_ ?_)
    | (fail_if_no_progress beta_reduce)
    | (dsimp only [Keeps, part]; with_reducible refine keeps_of ?_; first | with_reducible assumption | (with_reducible refine keeps_put ?_ ..) | (with_reducible refine keeps_emitMsg ?_ ..))
    | split
    | (refine keeps_ite ?_ ?_))

theorem keeps_flushClass {s0 s : State} {port : Nat} {cls : Nat} {q : List (Nat × Hdr × Payload)} (hK : Keeps s0 s) :
    Keeps s0 (State.flushClass s port cls q) := by
  induction q generalizing s port cls with
  | nil =>
  unfold State.flushClass
  repeat' (first
    | (with_reducible assumption)
    | (intro x; first | ((have hx : Keeps s0 x := ?_); (try clear_value x); rotate_left; dsimp -zeta only [x]; rotate_right) | ((have hx : Keeps s0 x.1 := ?_); (try clear_value x); rotate_left; dsimp -zeta only [x]; rotate_right) | ((have hx : Keeps s0 x.2 := ?_); (try clear_value x); rotate_left; dsimp -zeta only [x]; rotate_right) | (clear_value x) | skip)
    | lift_lets -underBinder
    | (with_reducible refine keeps_put ?_ ..)
    | (with_reducible refine keeps_emitMsg ?_ ..)
    | (with_reducible refine keeps_ite ?_ ?_)
    | (fail_if_no_progress beta_reduce)
    | (dsimp only [Keeps, part]; with_reducible refine keeps_of ?_; first | with_reducible assumption | (with_reducible refine keeps_put ?_ ..) | (with_reducible refine keeps_emitMsg ?_ ..))
    | split
    | (refine keeps_ite ?_ ?_))
  | cons x l ih =>
  unfold State.flushClass
  repeat' (first
    | (with_reducible assumption)
    | (intro x; first | ((have hx : Keeps s0 x := ?_); (try clear_value x); rotate_left; dsimp -zeta only [x]; rotate_right) | ((have hx : Keeps s0 x.1 := ?_); (try clear_value x); rotate_left; dsimp -zeta only [x]; rotate_right) | ((have hx : Keeps s0 x.2 := ?_); (try clear_value x); rotate_left; dsimp -zeta only [x]; rotate_right) | (clear_value x) | skip)
    | lift_lets -underBinder
    | (with_reducible apply ih)
    | (with_reducible refine keeps_put ?_ ..)
    | (with_reducible refine keeps_emitMsg ?_ ..)
    | (with_reducible refine keeps_ite ?_ ?_)
    | (fail_if_no_progress beta_reduce)
    | (dsimp only [Keeps, part]; with_reducible refine keeps_of ?_; first | with_reducible assumption | (with_reducible refine keeps_put ?_ ..) | (with_reducible refine keeps_emitMsg ?_ ..))
    | split
    | (refine keeps_ite ?_ ?_))

theorem keeps_holdTransit {s0 s : State} {h : Hdr} {p : Payload} (hK : Keeps s0 s) :
    Keeps s0 (State.holdTransit s h p) := by
  unfold State.holdTransit
  repeat' (first
    | (with_reducible assumption)
    | (intro x; first | ((have hx : Keeps s0 x := ?_); (try clear_value x); rotate_left; dsimp -zeta only [x]; rotate_right) | ((have hx : Keeps s0 x.1 := ?_); (try clear_value x); rotate_left; dsimp -zeta only [x]; rotate_right) | ((have hx : Keeps s0 x.2 := ?_); (try clear_value x); rotate_left; dsimp -zeta only [x]; rotate_right) | (clear_value x) | skip)
    | lift_lets -underBinder
    | (with_reducible refine keeps_ite ?_ ?_)
    | (fail_if_no_progress beta_reduce)
    | (dsimp only [Keeps, part]; with_reducible refine keeps_of ?_; first | with_reducible assumption)
    | split
    | (refine keeps_ite ?_ ?_))

theorem keeps_send {s0 s : State} {h : Hdr} {p : Payload} (hK : Keeps s0 s) :
    Keeps s0 (State.send s h p) := by
  unfold State.send
  repeat' (first
    | (with_reducible assumption)
    | (intro x; first | ((have hx : Keeps s0 x := ?_); (try clear_value x); rotate_left; dsimp -zeta only [x]; rotate_right) | ((have hx : Keeps s0 x.1 := ?_); (try clear_value x); rotate_left; dsimp -zeta only [x]; rotate_right) | ((have hx : Keeps s0 x.2 := ?_); (try clear_value x); rotate_left; dsimp -zeta only [x]; rotate_right) | (clear_value x) | skip)
    | lift_lets -underBinder
    | (with_reducible refine keeps_sendOn ?_ ..)
    | (with_reducible refine keeps_holdTransit ?_ ..)
    | (with_reducible refine keeps_ite ?_ ?_)
    | (fail_if_no_progress beta_reduce)
    | (dsimp only [Keeps, part]; with_reducible refine keeps_of ?_; first | with_reducible assumption | (with_reducible refine keeps_sendOn ?_ ..) | (with_reducible refine keeps_holdTransit ?_ ..))
    | split
    | (refine keeps_ite ?_ ?_))

theorem keeps_releaseTransit {s0 s : State} {dst : Nat} (hK : Keeps s0 s) :
    Keeps s0 (State.releaseTransit s dst) := by
  unfold State.releaseTransit
  repeat' (first
    | (with_reducible assumption)
    | (intro x; first | ((have hx : Keeps s0 x := ?_); (try clear_value x); rotate_left; dsimp -zeta only [x]; rotate_right) | ((have hx : Keeps s0 x.1 := ?_); (try clear_value x); rotate_left; dsimp -zeta only [x]; rotate_right) | ((have hx : Keeps s0 x.2 := ?_); (try clear_value x); rotate_left; dsimp -zeta only [x]; rotate_right) | (clear_value x) | skip)
    | lift_lets -underBinder
    | (with_reducible refine keeps_sendOn ?_ ..)
    | (with_reducible refine keeps_foldl (fun s x hK => ?_) ?_)
    | (with_reducible refine keeps_foldl_fst (fun s x hK => ?_) ?_)
    | (refine keeps_foldl_eq (by assumption) (fun s x hK => ?_) ?_)
    | (with_reducible refine keeps_ite ?_ ?_)
    | (fail_if_no_progress beta_reduce)
    | (dsimp only [Keeps, part]; with_reducible refine keeps_of ?_; first | with_reducible assumption | (with_reducible refine keeps_sendOn ?_ ..) | (refine keeps_foldl_eq (by assumption) (fun s x hK => ?_) ?_))
    | split
    | (refine keeps_ite ?_ ?_))

theorem keeps_reply {s0 s : State} {req : Hdr} {status : Nat} {stream : Bool} {p : Payload} (hK : Keeps s0 s) :
    Keeps s0 (State.reply s req status stream p) := by
  unfold State.reply
  repeat' (first
    | (with_reducible assumption)
    | (intro x; first | ((have hx : Keeps s0 x := ?_); (try clear_value x); rotate_left; dsimp -zeta only [x]; rotate_right) | ((have hx : Keeps s0 x.1 := ?_); (try clear_value x); rotate_left; dsimp -zeta only [x]; rotate_right) | ((have hx : Keeps s0 x.2 := ?_); (try clear_value x); rotate_left; dsimp -zeta only [x]; rotate_right) | (clear_value x) | skip)
    | lift_lets -underBinder
    | (with_reducible refine keeps_sendOn ?_ ..)
    | (with_reducible refine keeps_send ?_ ..)
    | (with_reducible refine keeps_ite ?_ ?_)
    | (fail_if_no_progress beta_reduce)
    | (dsimp only [Keeps, part]; with_reducible refine keeps_of ?_; first | with_reducible assumption | (with_reducible refine keeps_sendOn ?_ ..) | (with_reducible refine keeps_send ?_ ..))
    | split
    | (refine keeps_ite ?_ ?_))

theorem keeps_sendStream {s0 s : State} {b : Nat} {h : Hdr} {p : Payload} {busy : Bool} (hK : Keeps s0 s) :
    Keeps s0 (State.sendStream s b h p busy) := by
  unfold State.sendStream
  repeat' (first
    | (with_reducible assumption)
    | (intro x; first | ((have hx : Keeps s0 x := ?_); (try clear_value x); rotate_left; dsimp -zeta only [x]; rotate_right) | ((have hx : Keeps s0 x.1 := ?_); (try clear_value x); rotate_left; dsimp -zeta only [x]; rotate_right) | ((have hx : Keeps s0 x.2 := ?_); (try clear_value x); rotate_left; dsimp -zeta only [x]; rotate_right) | (clear_value x) | skip)
    | lift_lets -underBinder
    | (with_reducible refine keeps_put ?_ ..)
    | (with_reducible refine keeps_sendOn ?_ ..)
    | (with_reducible refine keeps_ite ?_ ?_)
    | (fail_if_no_progress beta_reduce)
    | (dsimp only [Keeps, part]; with_reducible refine keeps_of ?_; first | with_reducible assumption | (with_reducible refine keeps_put ?_ ..) | (with_reducible refine keeps_sendOn ?_ ..))
    | split
    | (refine keeps_ite ?_ ?_))

theorem keeps_flushStream {s0 s : State} {b : Nat} (hK : Keeps s0 s) :
    Keeps s0 (State.flushStream s b) := by
  unfold State.flushStream
  repeat' (first
    | (with_reducible assumption)
    | (intro x; first | ((have hx : Keeps s0 x := ?_); (try clear_value x); rotate_left; dsimp -zeta only [x]; rotate_right) | ((have hx : Keeps s0 x.1 := ?_); (try clear_value x); rotate_left; dsimp -zeta only [x]; rotate_right) | ((have hx : Keeps s0 x.2 := ?_); (try clear_value x); rotate_left; dsimp -zeta only [x]; rotate_right) | (clear_value x) | skip)
    | lift_lets -underBinder
    | (with_reducible refine keeps_sendStream ?_ ..)
    | (with_reducible refine keeps_foldl (fun s x hK => ?_) ?_)
    | (with_reducible refine keeps_foldl_fst (fun s x hK => ?_) ?_)
    | (refine keeps_foldl_eq (by assumption) (fun s x hK => ?_) ?_)
    | (with_reducible refine keeps_ite ?_ ?_)
    | (fail_if_no_progress beta_reduce)
    | (dsimp only [Keeps, part]; with_reducible refine keeps_of ?_; first | with_reducible assumption | (with_reducible refine keeps_sendStream ?_ ..) | (refine keeps_foldl_eq (by assumption) (fun s x hK => ?_) ?_))
    | split
    | (refine keeps_ite ?_ ?_))

theorem keeps_hopExpired {s0 s : State} {h : Hdr} (hK : Keeps s0 s) :
    Keeps s0 (State.hopExpired s h) := by
  unfold State.hopExpired
  repeat' (first
    | (with_reducible assumption)
    | (intro x; first | ((have hx : Keeps s0 x := ?_); (try clear_value x); rotate_left; dsimp -zeta only [x]; rotate_right) | ((have hx : Keeps s0 x.1 := ?_); (try clear_value x); rotate_left; dsimp -zeta only [x]; rotate_right) | ((have hx : Keeps s0 x.2 := ?_); (try clear_value x); rotate_left; dsimp -zeta only [x]; rotate_right) | (clear_value x) | skip)
    | lift_lets -underBinder
    | (with_reducible refine keeps_raiseAt ?_ ..)
    | (with_reducible refine keeps_ite ?_ ?_)
    | (fail_if_no_progress beta_reduce)
    | (dsimp only [Keeps, part]; with_reducible refine keeps_of ?_; first | with_reducible assumption | (with_reducible refine keeps_raiseAt ?_ ..))
    | split
    | (refine keeps_ite ?_ ?_))

theorem keeps_sendThrough {s0 s : State} {h : Hdr} {p : Payload} (hK : Keeps s0 s) :
    Keeps s0 (State.sendThrough s h p) := by
  unfold State.sendThrough
  repeat' (first
    | (with_reducible assumption)
    | (intro x; first | ((have hx : Keeps s0 x := ?_); (try clear_value x); rotate_left; dsimp -zeta only [x]; rotate_right) | ((have hx : Keeps s0 x.1 := ?_); (try clear_value x); rotate_left; dsimp -zeta only [x]; rotate_right) | ((have hx : Keeps s0 x.2 := ?_); (try clear_value x); rotate_left; dsimp -zeta only [x]; rotate_right) | (clear_value x) | skip)
    | lift_lets -underBinder
    | (with_reducible refine keeps_sendOn ?_ ..)
    | (with_reducible refine keeps_holdTransit ?_ ..)
    | (with_reducible refine keeps_hopExpired ?_ ..)
    | (with_reducible refine keeps_ite ?_ ?_)
    | (fail_if_no_progress beta_reduce)
    | (dsimp only [Keeps, part]; with_reducible refine keeps_of ?_; first | with_reducible assumption | (with_reducible refine keeps_sendOn ?_ ..) | (with_reducible refine keeps_holdTransit ?_ ..) | (with_reducible refine keeps_hopExpired ?_ ..))
    | split
    | (refine keeps_ite ?_ ?_))

theorem keeps_receive {s0 s : State} {h : Hdr} {p : Payload} {act : State → State} (hK : Keeps s0 s) (hact : ∀ t, Keeps s0 t → Keeps s0 (act t)) :
    Keeps s0 (State.receive s h p act) := by
  unfold State.receive
  repeat' (first
    | (with_reducible assumption)
    | (intro x; first | ((have hx : Keeps s0 x := ?_); (try clear_value x); rotate_left; dsimp -zeta only [x]; rotate_right) | ((have hx : Keeps s0 x.1 := ?_); (try clear_value x); rotate_left; dsimp -zeta only [x]; rotate_right) | ((have hx : Keeps s0 x.2 := ?_); (try clear_value x); rotate_left; dsimp -zeta only [x]; rotate_right) | (clear_value x) | skip)
    | lift_lets -underBinder
    | (with_reducible refine hact _ _ _ ?_)
    | (with_reducible refine hact _ ?_)
    | (with_reducible refine hact _ _ ?_)
    | (with_reducible refine keeps_countRx ?_ ..)
    | (with_reducible refine keeps_sendThrough ?_ ..)
    | (with_reducible refine keeps_ite ?_ ?_)
    | (fail_if_no_progress beta_reduce)
    | (dsimp only [Keeps, part]; with_reducible refine keeps_of ?_; first | with_reducible assumption | (with_reducible refine keeps_countRx ?_ ..) | (with_reducible refine keeps_sendThrough ?_ ..))
    | split
    | (refine keeps_ite ?_ ?_))

theorem keeps_failTransit {s0 s : State} {t : Transit} {code : Nat} (hK : Keeps s0 s) :
    Keeps s0 (State.failTransit s t code) := by
  unfold State.failTransit
  repeat' (first
    | (with_reducible assumption)
    | (intro x; first | ((have hx : Keeps s0 x := ?_); (try clear_value x); rotate_left; dsimp -zeta only [x]; rotate_right) | ((have hx : Keeps s0 x.1 := ?_); (try clear_value x); rotate_left; dsimp -zeta only [x]; rotate_right) | ((have hx : Keeps s0 x.2 := ?_); (try clear_value x); rotate_left; dsimp -zeta only [x]; rotate_right) | (clear_value x) | skip)
    | lift_lets -underBinder
    | (with_reducible refine keeps_send ?_ ..)
    | (with_reducible refine keeps_ite ?_ ?_)
    | (fail_if_no_progress beta_reduce)
    | (dsimp only [Keeps, part]; with_reducible refine keeps_of ?_; first | with_reducible assumption | (with_reducible refine keeps_send ?_ ..))
    | split
    | (refine keeps_ite ?_ ?_))

theorem keeps_openCode {s0 s : State} (hK : Keeps s0 s) :
    Keeps s0 (State.openCode s).2 := by
  exact keeps_step hK { part_refl (part s) with free := Nat.le_succ _ }

theorem keeps_openCode_eq {s0 s tE : State} {bE : Nat} (hEq : State.openCode s = (bE, tE)) (hK : Keeps s0 s) : Keeps s0 tE := by
  have k : Keeps s0 (State.openCode s).2 := keeps_openCode hK
  rw [hEq] at k
  exact k

theorem keeps_namedCode {s0 s : State} {c : Nat} (hK : Keeps s0 s) :
    Keeps s0 (State.namedCode s c).2 := by
  unfold State.namedCode
  repeat' (first
    | (with_reducible assumption)
    | (intro x; first | ((have hx : Keeps s0 x := ?_); (try clear_value x); rotate_left; dsimp -zeta only [x]; rotate_right) | ((have hx : Keeps s0 x.1 := ?_); (try clear_value x); rotate_left; dsimp -zeta only [x]; rotate_right) | ((have hx : Keeps s0 x.2 := ?_); (try clear_value x); rotate_left; dsimp -zeta only [x]; rotate_right) | (clear_value x) | skip)
    | lift_lets -underBinder
    | (with_reducible refine keeps_openCode ?_ ..)
    | (refine keeps_openCode_eq (by assumption) ?_)
    | (with_reducible refine keeps_ite ?_ ?_)
    | (fail_if_no_progress beta_reduce)
    | (dsimp only [Keeps, part]; with_reducible refine keeps_of ?_; first | with_reducible assumption | (with_reducible refine keeps_openCode ?_ ..) | (refine keeps_openCode_eq (by assumption) ?_))
    | split
    | (refine keeps_ite ?_ ?_))

theorem keeps_namedCode_eq {s0 s tE : State} {bE : Nat} {c : Nat} (hEq : State.namedCode s c = (bE, tE)) (hK : Keeps s0 s) : Keeps s0 tE := by
  have k : Keeps s0 (State.namedCode s c).2 := keeps_namedCode hK
  rw [hEq] at k
  exact k

theorem keeps_fetchAll {s0 s : State} {b : Nat} {devs : List Nat} (hK : Keeps s0 s) :
    Keeps s0 (State.fetchAll s b devs) := by
  unfold State.fetchAll
  repeat' (first
    | (with_reducible assumption)
    | (intro x; first | ((have hx : Keeps s0 x := ?_); (try clear_value x); rotate_left; dsimp -zeta only [x]; rotate_right) | ((have hx : Keeps s0 x.1 := ?_); (try clear_value x); rotate_left; dsimp -zeta only [x]; rotate_right) | ((have hx : Keeps s0 x.2 := ?_); (try clear_value x); rotate_left; dsimp -zeta only [x]; rotate_right) | (clear_value x) | skip)
    | lift_lets -underBinder
    | (with_reducible refine keeps_put ?_ ..)
    | (with_reducible refine keeps_send ?_ ..)
    | (with_reducible refine keeps_foldl (fun s x hK => ?_) ?_)
    | (with_reducible refine keeps_foldl_fst (fun s x hK => ?_) ?_)
    | (refine keeps_foldl_eq (by assumption) (fun s x hK => ?_) ?_)
    | (with_reducible refine keeps_ite ?_ ?_)
    | (fail_if_no_progress beta_reduce)
    | (dsimp only [Keeps, part]; with_reducible refine keeps_of ?_; first | with_reducible assumption | (with_reducible refine keeps_put ?_ ..) | (with_reducible refine keeps_send ?_ ..) | (refine keeps_foldl_eq (by assumption) (fun s x hK => ?_) ?_))
    | split
    | (refine keeps_ite ?_ ?_))

theorem keeps_checkEntry {s0 s : State} {b : Nat} (hK : Keeps s0 s) :
    Keeps s0 (State.checkEntry s b) := by
  unfold State.checkEntry
  repeat' (first
    | (with_reducible assumption)
    | (intro x; first | ((have hx : Keeps s0 x := ?_); (try clear_value x); rotate_left; dsimp -zeta only [x]; rotate_right) | ((have hx : Keeps s0 x.1 := ?_); (try clear_value x); rotate_left; dsimp -zeta only [x]; rotate_right) | ((have hx : Keeps s0 x.2 := ?_); (try clear_value x); rotate_left; dsimp -zeta only [x]; rotate_right) | (clear_value x) | skip)
    | lift_lets -underBinder
    | (with_reducible refine keeps_raise ?_ ..)
    | (with_reducible refine keeps_fetchAll ?_ ..)
    | (with_reducible refine keeps_ite ?_ ?_)
    | (fail_if_no_progress beta_reduce)
    | (dsimp only [Keeps, part]; with_reducible refine keeps_of ?_; first | with_reducible assumption | (with_reducible refine keeps_raise ?_ ..) | (with_reducible refine keeps_fetchAll ?_ ..))
    | split
    | (refine keeps_ite ?_ ?_))

end Sys2Proof.Laws
end

