-- ==== Sys2Proof/Laws/KeepsStore.lean ====
section
/-! SUPPORT. Every operation of Machine/Store.lean keeps what Laws/Keeps.lean says. -/

set_option linter.unusedTactic false
set_option linter.unreachableTactic false
set_option linter.unusedVariables false

namespace Sys2Proof.Laws

open Sys2Proof Machine

theorem keeps_poisonBytes {s0 s : State} {l : Nat} (hK : Keeps s0 s) :
    Keeps s0 (State.poisonBytes s l) := by
  unfold State.poisonBytes
  repeat' (first
    | (with_reducible assumption)
    | (intro x; first | ((have hx : Keeps s0 x := ?_); (try clear_value x); rotate_left; dsimp -zeta only [x]; rotate_right) | ((have hx : Keeps s0 x.1 := ?_); (try clear_value x); rotate_left; dsimp -zeta only [x]; rotate_right) | ((have hx : Keeps s0 x.2 := ?_); (try clear_value x); rotate_left; dsimp -zeta only [x]; rotate_right) | (clear_value x) | skip)
    | lift_lets -underBinder
    | (with_reducible refine keeps_putLine ?_ ..)
    | (with_reducible refine keeps_ite ?_ ?_)
    | (fail_if_no_progress beta_reduce)
    | (dsimp only [Keeps, part]; with_reducible refine keeps_of ?_; first | with_reducible assumption | (with_reducible refine keeps_putLine ?_ ..))
    | split
    | (refine keeps_ite ?_ ?_))

theorem keeps_markPoison {s0 s : State} {l : Nat} (hK : Keeps s0 s) :
    Keeps s0 (State.markPoison s l) := by
  unfold State.markPoison
  repeat' (first
    | (with_reducible assumption)
    | (intro x; first | ((have hx : Keeps s0 x := ?_); (try clear_value x); rotate_left; dsimp -zeta only [x]; rotate_right) | ((have hx : Keeps s0 x.1 := ?_); (try clear_value x); rotate_left; dsimp -zeta only [x]; rotate_right) | ((have hx : Keeps s0 x.2 := ?_); (try clear_value x); rotate_left; dsimp -zeta only [x]; rotate_right) | (clear_value x) | skip)
    | lift_lets -underBinder
    | (with_reducible refine keeps_ite ?_ ?_)
    | (fail_if_no_progress beta_reduce)
    | (dsimp only [Keeps, part]; with_reducible refine keeps_of ?_; first | with_reducible assumption)
    | split
    | (refine keeps_ite ?_ ?_))

theorem keeps_poisonLine {s0 s : State} {l : Nat} {src : Nat} (hK : Keeps s0 s) :
    Keeps s0 (State.poisonLine s l src) := by
  unfold State.poisonLine
  repeat' (first
    | (with_reducible assumption)
    | (intro x; first | ((have hx : Keeps s0 x := ?_); (try clear_value x); rotate_left; dsimp -zeta only [x]; rotate_right) | ((have hx : Keeps s0 x.1 := ?_); (try clear_value x); rotate_left; dsimp -zeta only [x]; rotate_right) | ((have hx : Keeps s0 x.2 := ?_); (try clear_value x); rotate_left; dsimp -zeta only [x]; rotate_right) | (clear_value x) | skip)
    | lift_lets -underBinder
    | (with_reducible refine keeps_bump ?_ ..)
    | (with_reducible refine keeps_setReg ?_ ..)
    | (with_reducible refine keeps_raiseArg ?_ ..)
    | (with_reducible refine keeps_health ?_ ..)
    | (with_reducible refine keeps_poisonBytes ?_ ..)
    | (with_reducible refine keeps_markPoison ?_ ..)
    | (with_reducible refine keeps_ite ?_ ?_)
    | (fail_if_no_progress beta_reduce)
    | (dsimp only [Keeps, part]; with_reducible refine keeps_of ?_; first | with_reducible assumption | (with_reducible refine keeps_bump ?_ ..) | (with_reducible refine keeps_setReg ?_ ..) | (with_reducible refine keeps_raiseArg ?_ ..) | (with_reducible refine keeps_health ?_ ..) | (with_reducible refine keeps_poisonBytes ?_ ..) | (with_reducible refine keeps_markPoison ?_ ..))
    | split
    | (refine keeps_ite ?_ ?_))

theorem keeps_poisonSpan {s0 s : State} {sp : Nat} (hK : Keeps s0 s) :
    Keeps s0 (State.poisonSpan s sp) := by
  unfold State.poisonSpan
  repeat' (first
    | (with_reducible assumption)
    | (intro x; first | ((have hx : Keeps s0 x := ?_); (try clear_value x); rotate_left; dsimp -zeta only [x]; rotate_right) | ((have hx : Keeps s0 x.1 := ?_); (try clear_value x); rotate_left; dsimp -zeta only [x]; rotate_right) | ((have hx : Keeps s0 x.2 := ?_); (try clear_value x); rotate_left; dsimp -zeta only [x]; rotate_right) | (clear_value x) | skip)
    | lift_lets -underBinder
    | (with_reducible refine keeps_bump ?_ ..)
    | (with_reducible refine keeps_setReg ?_ ..)
    | (with_reducible refine keeps_zeroRange ?_ ..)
    | (with_reducible refine keeps_raiseArg ?_ ..)
    | (with_reducible refine keeps_health ?_ ..)
    | (with_reducible refine keeps_ite ?_ ?_)
    | (fail_if_no_progress beta_reduce)
    | (dsimp only [Keeps, part]; with_reducible refine keeps_of ?_; first | with_reducible assumption | (with_reducible refine keeps_bump ?_ ..) | (with_reducible refine keeps_setReg ?_ ..) | (with_reducible refine keeps_zeroRange ?_ ..) | (with_reducible refine keeps_raiseArg ?_ ..) | (with_reducible refine keeps_health ?_ ..))
    | split
    | (refine keeps_ite ?_ ?_))

theorem keeps_clearPoison {s0 s : State} {l : Nat} (hK : Keeps s0 s) :
    Keeps s0 (State.clearPoison s l) := by
  unfold State.clearPoison
  repeat' (first
    | (with_reducible assumption)
    | (intro x; first | ((have hx : Keeps s0 x := ?_); (try clear_value x); rotate_left; dsimp -zeta only [x]; rotate_right) | ((have hx : Keeps s0 x.1 := ?_); (try clear_value x); rotate_left; dsimp -zeta only [x]; rotate_right) | ((have hx : Keeps s0 x.2 := ?_); (try clear_value x); rotate_left; dsimp -zeta only [x]; rotate_right) | (clear_value x) | skip)
    | lift_lets -underBinder
    | (with_reducible refine keeps_ite ?_ ?_)
    | (fail_if_no_progress beta_reduce)
    | (dsimp only [Keeps, part]; with_reducible refine keeps_of ?_; first | with_reducible assumption)
    | split
    | (refine keeps_ite ?_ ?_))

theorem keeps_noteWritten {s0 s : State} {f : Nat} (hK : Keeps s0 s) :
    Keeps s0 (State.noteWritten s f) := by
  unfold State.noteWritten
  repeat' (first
    | (with_reducible assumption)
    | (intro x; first | ((have hx : Keeps s0 x := ?_); (try clear_value x); rotate_left; dsimp -zeta only [x]; rotate_right) | ((have hx : Keeps s0 x.1 := ?_); (try clear_value x); rotate_left; dsimp -zeta only [x]; rotate_right) | ((have hx : Keeps s0 x.2 := ?_); (try clear_value x); rotate_left; dsimp -zeta only [x]; rotate_right) | (clear_value x) | skip)
    | lift_lets -underBinder
    | (with_reducible refine keeps_put ?_ ..)
    | (with_reducible refine keeps_heat ?_ ..)
    | (with_reducible refine keeps_ite ?_ ?_)
    | (fail_if_no_progress beta_reduce)
    | (dsimp only [Keeps, part]; with_reducible refine keeps_of ?_; first | with_reducible assumption | (with_reducible refine keeps_put ?_ ..) | (with_reducible refine keeps_heat ?_ ..))
    | split
    | (refine keeps_ite ?_ ?_))

theorem keeps_suspendOn {s0 s : State} {d : Nat} (hK : Keeps s0 s) :
    Keeps s0 (State.suspendOn s d) := by
  unfold State.suspendOn
  repeat' (first
    | (with_reducible assumption)
    | (intro x; first | ((have hx : Keeps s0 x := ?_); (try clear_value x); rotate_left; dsimp -zeta only [x]; rotate_right) | ((have hx : Keeps s0 x.1 := ?_); (try clear_value x); rotate_left; dsimp -zeta only [x]; rotate_right) | ((have hx : Keeps s0 x.2 := ?_); (try clear_value x); rotate_left; dsimp -zeta only [x]; rotate_right) | (clear_value x) | skip)
    | lift_lets -underBinder
    | (with_reducible refine keeps_put ?_ ..)
    | (with_reducible refine keeps_raiseAt ?_ ..)
    | (with_reducible refine keeps_ite ?_ ?_)
    | (fail_if_no_progress beta_reduce)
    | (dsimp only [Keeps, part]; with_reducible refine keeps_of ?_; first | with_reducible assumption | (with_reducible refine keeps_put ?_ ..) | (with_reducible refine keeps_raiseAt ?_ ..))
    | split
    | (refine keeps_ite ?_ ?_))

theorem keeps_flashRead {s0 s : State} {l : Nat} (hK : Keeps s0 s) :
    Keeps s0 (State.flashRead s l) := by
  unfold State.flashRead
  repeat' (first
    | (with_reducible assumption)
    | (intro x; first | ((have hx : Keeps s0 x := ?_); (try clear_value x); rotate_left; dsimp -zeta only [x]; rotate_right) | ((have hx : Keeps s0 x.1 := ?_); (try clear_value x); rotate_left; dsimp -zeta only [x]; rotate_right) | ((have hx : Keeps s0 x.2 := ?_); (try clear_value x); rotate_left; dsimp -zeta only [x]; rotate_right) | (clear_value x) | skip)
    | lift_lets -underBinder
    | (with_reducible refine keeps_suspendOn ?_ ..)
    | (with_reducible refine keeps_ite ?_ ?_)
    | (fail_if_no_progress beta_reduce)
    | (dsimp only [Keeps, part]; with_reducible refine keeps_of ?_; first | with_reducible assumption | (with_reducible refine keeps_suspendOn ?_ ..))
    | split
    | (refine keeps_ite ?_ ?_))

theorem keeps_startPromotion {s0 s : State} {sp : Nat} (hK : Keeps s0 s) :
    Keeps s0 (State.startPromotion s sp) := by
  unfold State.startPromotion
  repeat' (first
    | (with_reducible assumption)
    | (intro x; first | ((have hx : Keeps s0 x := ?_); (try clear_value x); rotate_left; dsimp -zeta only [x]; rotate_right) | ((have hx : Keeps s0 x.1 := ?_); (try clear_value x); rotate_left; dsimp -zeta only [x]; rotate_right) | ((have hx : Keeps s0 x.2 := ?_); (try clear_value x); rotate_left; dsimp -zeta only [x]; rotate_right) | (clear_value x) | skip)
    | lift_lets -underBinder
    | (with_reducible refine keeps_put ?_ ..)
    | (with_reducible refine keeps_suspendOn ?_ ..)
    | (with_reducible refine keeps_foldl (fun s x hK => ?_) ?_)
    | (with_reducible refine keeps_foldl_fst (fun s x hK => ?_) ?_)
    | (refine keeps_foldl_eq (by assumption) (fun s x hK => ?_) ?_)
    | (with_reducible refine keeps_ite ?_ ?_)
    | (fail_if_no_progress beta_reduce)
    | (dsimp only [Keeps, part]; with_reducible refine keeps_of ?_; first | with_reducible assumption | (with_reducible refine keeps_put ?_ ..) | (with_reducible refine keeps_suspendOn ?_ ..) | (refine keeps_foldl_eq (by assumption) (fun s x hK => ?_) ?_))
    | split
    | (refine keeps_ite ?_ ?_))

theorem keeps_useSpan {s0 s : State} {sp : Nat} (hK : Keeps s0 s) :
    Keeps s0 (State.useSpan s sp) := by
  unfold State.useSpan
  repeat' (first
    | (with_reducible assumption)
    | (intro x; first | ((have hx : Keeps s0 x := ?_); (try clear_value x); rotate_left; dsimp -zeta only [x]; rotate_right) | ((have hx : Keeps s0 x.1 := ?_); (try clear_value x); rotate_left; dsimp -zeta only [x]; rotate_right) | ((have hx : Keeps s0 x.2 := ?_); (try clear_value x); rotate_left; dsimp -zeta only [x]; rotate_right) | (clear_value x) | skip)
    | lift_lets -underBinder
    | (with_reducible refine keeps_ite ?_ ?_)
    | (fail_if_no_progress beta_reduce)
    | (dsimp only [Keeps, part]; with_reducible refine keeps_of ?_; first | with_reducible assumption)
    | split
    | (refine keeps_ite ?_ ?_))

theorem keeps_heat {s0 s : State} {sp : Nat} (hK : Keeps s0 s) :
    Keeps s0 (State.heat s sp) := by
  unfold State.heat
  repeat' (first
    | (with_reducible assumption)
    | (intro x; first | ((have hx : Keeps s0 x := ?_); (try clear_value x); rotate_left; dsimp -zeta only [x]; rotate_right) | ((have hx : Keeps s0 x.1 := ?_); (try clear_value x); rotate_left; dsimp -zeta only [x]; rotate_right) | ((have hx : Keeps s0 x.2 := ?_); (try clear_value x); rotate_left; dsimp -zeta only [x]; rotate_right) | (clear_value x) | skip)
    | lift_lets -underBinder
    | (with_reducible refine keeps_put ?_ ..)
    | (with_reducible refine keeps_startPromotion ?_ ..)
    | (with_reducible refine keeps_ite ?_ ?_)
    | (fail_if_no_progress beta_reduce)
    | (dsimp only [Keeps, part]; with_reducible refine keeps_of ?_; first | with_reducible assumption | (with_reducible refine keeps_put ?_ ..) | (with_reducible refine keeps_startPromotion ?_ ..))
    | split
    | (refine keeps_ite ?_ ?_))

theorem keeps_stepLfsr {s0 s : State} {slice : Nat} (hK : Keeps s0 s) :
    Keeps s0 (State.stepLfsr s slice) := by
  unfold State.stepLfsr
  repeat' (first
    | (with_reducible assumption)
    | (intro x; first | ((have hx : Keeps s0 x := ?_); (try clear_value x); rotate_left; dsimp -zeta only [x]; rotate_right) | ((have hx : Keeps s0 x.1 := ?_); (try clear_value x); rotate_left; dsimp -zeta only [x]; rotate_right) | ((have hx : Keeps s0 x.2 := ?_); (try clear_value x); rotate_left; dsimp -zeta only [x]; rotate_right) | (clear_value x) | skip)
    | lift_lets -underBinder
    | (with_reducible refine keeps_getD ?_ ?_)
    | (with_reducible refine keeps_ite ?_ ?_)
    | (fail_if_no_progress beta_reduce)
    | (dsimp only [Keeps, part]; with_reducible refine keeps_of ?_; first | with_reducible assumption)
    | split
    | (refine keeps_ite ?_ ?_))

theorem keeps_allocD {s0 s : State} {f : Nat} (hK : Keeps s0 s) :
    Keeps s0 (State.allocD s f) := by
  unfold State.allocD
  repeat' (first
    | (with_reducible assumption)
    | (intro x; first | ((have hx : Keeps s0 x := ?_); (try clear_value x); rotate_left; dsimp -zeta only [x]; rotate_right) | ((have hx : Keeps s0 x.1 := ?_); (try clear_value x); rotate_left; dsimp -zeta only [x]; rotate_right) | ((have hx : Keeps s0 x.2 := ?_); (try clear_value x); rotate_left; dsimp -zeta only [x]; rotate_right) | ((have hx : ∀ t, Keeps s0 t → Keeps s0 (x t) := ?_); (try clear_value x); rotate_left; dsimp -zeta only [x]; intros; rotate_right) | ((have hx : ∀ t a, Keeps s0 t → Keeps s0 (x t a) := ?_); (try clear_value x); rotate_left; dsimp -zeta only [x]; intros; rotate_right) | ((have hx : ∀ a t, Keeps s0 t → Keeps s0 (x a t) := ?_); (try clear_value x); rotate_left; dsimp -zeta only [x]; intros; rotate_right) | ((have hx : ∀ t a b, Keeps s0 t → Keeps s0 (x t a b) := ?_); (try clear_value x); rotate_left; dsimp -zeta only [x]; intros; rotate_right) | ((have hx : ∀ a b t, Keeps s0 t → Keeps s0 (x a b t) := ?_); (try clear_value x); rotate_left; dsimp -zeta only [x]; intros; rotate_right) | ((have hx : ∀ a, Keeps s0 (x a) := ?_); (try clear_value x); rotate_left; dsimp -zeta only [x]; intros; rotate_right) | (have hf : ∀ a, x a = x a := fun _ => rfl) | (clear_value x) | skip)
    | lift_lets -underBinder
    | (with_reducible refine keeps_put ?_ ..)
    | (with_reducible refine keeps_ite ?_ ?_)
    | (with_reducible apply_assumption)
    | (fail_if_no_progress beta_reduce)
    | (dsimp only [Keeps, part]; with_reducible refine keeps_of ?_; first | with_reducible assumption | (with_reducible refine keeps_put ?_ ..))
    | split
    | (refine keeps_ite ?_ ?_))

theorem keeps_touchD {s0 s : State} {f : Nat} (hK : Keeps s0 s) :
    Keeps s0 (State.touchD s f) := by
  unfold State.touchD
  repeat' (first
    | (with_reducible assumption)
    | (intro x; first | ((have hx : Keeps s0 x := ?_); (try clear_value x); rotate_left; dsimp -zeta only [x]; rotate_right) | ((have hx : Keeps s0 x.1 := ?_); (try clear_value x); rotate_left; dsimp -zeta only [x]; rotate_right) | ((have hx : Keeps s0 x.2 := ?_); (try clear_value x); rotate_left; dsimp -zeta only [x]; rotate_right) | (clear_value x) | skip)
    | lift_lets -underBinder
    | (with_reducible refine keeps_ite ?_ ?_)
    | (fail_if_no_progress beta_reduce)
    | (dsimp only [Keeps, part]; with_reducible refine keeps_of ?_; first | with_reducible assumption)
    | split
    | (refine keeps_ite ?_ ?_))

theorem keeps_holdWrite {s0 s : State} {l : Nat} (hK : Keeps s0 s) :
    Keeps s0 (State.holdWrite s l) := by
  unfold State.holdWrite
  repeat' (first
    | (with_reducible assumption)
    | (intro x; first | ((have hx : Keeps s0 x := ?_); (try clear_value x); rotate_left; dsimp -zeta only [x]; rotate_right) | ((have hx : Keeps s0 x.1 := ?_); (try clear_value x); rotate_left; dsimp -zeta only [x]; rotate_right) | ((have hx : Keeps s0 x.2 := ?_); (try clear_value x); rotate_left; dsimp -zeta only [x]; rotate_right) | (clear_value x) | skip)
    | lift_lets -underBinder
    | (with_reducible refine keeps_ite ?_ ?_)
    | (fail_if_no_progress beta_reduce)
    | (dsimp only [Keeps, part]; with_reducible refine keeps_of ?_; first | with_reducible assumption)
    | split
    | (refine keeps_ite ?_ ?_))

theorem keeps_putTierD {s0 s : State} {l : Nat} {dirty : Bool} (hK : Keeps s0 s) :
    Keeps s0 (State.putTierD s l dirty) := by
  unfold State.putTierD
  repeat' (first
    | (with_reducible assumption)
    | (intro x; first | ((have hx : Keeps s0 x := ?_); (try clear_value x); rotate_left; dsimp -zeta only [x]; rotate_right) | ((have hx : Keeps s0 x.1 := ?_); (try clear_value x); rotate_left; dsimp -zeta only [x]; rotate_right) | ((have hx : Keeps s0 x.2 := ?_); (try clear_value x); rotate_left; dsimp -zeta only [x]; rotate_right) | (clear_value x) | skip)
    | lift_lets -underBinder
    | (with_reducible refine keeps_put ?_ ..)
    | (with_reducible refine keeps_allocD ?_ ..)
    | (with_reducible refine keeps_holdWrite ?_ ..)
    | (with_reducible refine keeps_ite ?_ ?_)
    | (fail_if_no_progress beta_reduce)
    | (dsimp only [Keeps, part]; with_reducible refine keeps_of ?_; first | with_reducible assumption | (with_reducible refine keeps_put ?_ ..) | (with_reducible refine keeps_allocD ?_ ..) | (with_reducible refine keeps_holdWrite ?_ ..))
    | split
    | (refine keeps_ite ?_ ?_))

theorem keeps_dropTierD {s0 s : State} {l : Nat} (hK : Keeps s0 s) :
    Keeps s0 (State.dropTierD s l) := by
  unfold State.dropTierD
  repeat' (first
    | (with_reducible assumption)
    | (intro x; first | ((have hx : Keeps s0 x := ?_); (try clear_value x); rotate_left; dsimp -zeta only [x]; rotate_right) | ((have hx : Keeps s0 x.1 := ?_); (try clear_value x); rotate_left; dsimp -zeta only [x]; rotate_right) | ((have hx : Keeps s0 x.2 := ?_); (try clear_value x); rotate_left; dsimp -zeta only [x]; rotate_right) | (clear_value x) | skip)
    | lift_lets -underBinder
    | (with_reducible refine keeps_put ?_ ..)
    | (with_reducible refine keeps_ite ?_ ?_)
    | (fail_if_no_progress beta_reduce)
    | (dsimp only [Keeps, part]; with_reducible refine keeps_of ?_; first | with_reducible assumption | (with_reducible refine keeps_put ?_ ..))
    | split
    | (refine keeps_ite ?_ ?_))

theorem keeps_dropMerge {s0 s : State} {l : Nat} (hK : Keeps s0 s) :
    Keeps s0 (State.dropMerge s l) := by
  unfold State.dropMerge
  repeat' (first
    | (with_reducible assumption)
    | (intro x; first | ((have hx : Keeps s0 x := ?_); (try clear_value x); rotate_left; dsimp -zeta only [x]; rotate_right) | ((have hx : Keeps s0 x.1 := ?_); (try clear_value x); rotate_left; dsimp -zeta only [x]; rotate_right) | ((have hx : Keeps s0 x.2 := ?_); (try clear_value x); rotate_left; dsimp -zeta only [x]; rotate_right) | (clear_value x) | skip)
    | lift_lets -underBinder
    | (with_reducible refine keeps_ite ?_ ?_)
    | (fail_if_no_progress beta_reduce)
    | (dsimp only [Keeps, part]; with_reducible refine keeps_of ?_; first | with_reducible assumption)
    | split
    | (refine keeps_ite ?_ ?_))

theorem keeps_wholeToD {s0 s : State} {l : Nat} (hK : Keeps s0 s) :
    Keeps s0 (State.wholeToD s l) := by
  unfold State.wholeToD
  repeat' (first
    | (with_reducible assumption)
    | (intro x; first | ((have hx : Keeps s0 x := ?_); (try clear_value x); rotate_left; dsimp -zeta only [x]; rotate_right) | ((have hx : Keeps s0 x.1 := ?_); (try clear_value x); rotate_left; dsimp -zeta only [x]; rotate_right) | ((have hx : Keeps s0 x.2 := ?_); (try clear_value x); rotate_left; dsimp -zeta only [x]; rotate_right) | (clear_value x) | skip)
    | lift_lets -underBinder
    | (with_reducible refine keeps_putTierD ?_ ..)
    | (with_reducible refine keeps_dropMerge ?_ ..)
    | (with_reducible refine keeps_ite ?_ ?_)
    | (fail_if_no_progress beta_reduce)
    | (dsimp only [Keeps, part]; with_reducible refine keeps_of ?_; first | with_reducible assumption | (with_reducible refine keeps_putTierD ?_ ..) | (with_reducible refine keeps_dropMerge ?_ ..))
    | split
    | (refine keeps_ite ?_ ?_))

theorem keeps_mergeIn {s0 s : State} {l : Nat} {mask : Word} {poison : Bool} (hK : Keeps s0 s) :
    Keeps s0 (State.mergeIn s l mask poison) := by
  unfold State.mergeIn
  repeat' (first
    | (with_reducible assumption)
    | (intro x; first | ((have hx : Keeps s0 x := ?_); (try clear_value x); rotate_left; dsimp -zeta only [x]; rotate_right) | ((have hx : Keeps s0 x.1 := ?_); (try clear_value x); rotate_left; dsimp -zeta only [x]; rotate_right) | ((have hx : Keeps s0 x.2 := ?_); (try clear_value x); rotate_left; dsimp -zeta only [x]; rotate_right) | (clear_value x) | skip)
    | lift_lets -underBinder
    | (with_reducible refine keeps_clearPoison ?_ ..)
    | (with_reducible refine keeps_allocD ?_ ..)
    | (with_reducible refine keeps_wholeToD ?_ ..)
    | (with_reducible refine keeps_ite ?_ ?_)
    | (fail_if_no_progress beta_reduce)
    | (dsimp only [Keeps, part]; with_reducible refine keeps_of ?_; first | with_reducible assumption | (with_reducible refine keeps_clearPoison ?_ ..) | (with_reducible refine keeps_allocD ?_ ..) | (with_reducible refine keeps_wholeToD ?_ ..))
    | split
    | (refine keeps_ite ?_ ?_))

theorem keeps_leaveDirty {s0 s : State} {l : Nat} (hK : Keeps s0 s) :
    Keeps s0 (State.leaveDirty s l) := by
  unfold State.leaveDirty
  repeat' (first
    | (with_reducible assumption)
    | (intro x; first | ((have hx : Keeps s0 x := ?_); (try clear_value x); rotate_left; dsimp -zeta only [x]; rotate_right) | ((have hx : Keeps s0 x.1 := ?_); (try clear_value x); rotate_left; dsimp -zeta only [x]; rotate_right) | ((have hx : Keeps s0 x.2 := ?_); (try clear_value x); rotate_left; dsimp -zeta only [x]; rotate_right) | (clear_value x) | skip)
    | lift_lets -underBinder
    | (with_reducible refine keeps_wholeToD ?_ ..)
    | (with_reducible refine keeps_mergeIn ?_ ..)
    | (with_reducible refine keeps_ite ?_ ?_)
    | (fail_if_no_progress beta_reduce)
    | (dsimp only [Keeps, part]; with_reducible refine keeps_of ?_; first | with_reducible assumption | (with_reducible refine keeps_wholeToD ?_ ..) | (with_reducible refine keeps_mergeIn ?_ ..))
    | split
    | (refine keeps_ite ?_ ?_))

theorem keeps_readBeats {s0 s : State} {l : Nat} (hK : Keeps s0 s) :
    Keeps s0 (State.readBeats s l) := by
  unfold State.readBeats
  repeat' (first
    | (with_reducible assumption)
    | (intro x; first | ((have hx : Keeps s0 x := ?_); (try clear_value x); rotate_left; dsimp -zeta only [x]; rotate_right) | ((have hx : Keeps s0 x.1 := ?_); (try clear_value x); rotate_left; dsimp -zeta only [x]; rotate_right) | ((have hx : Keeps s0 x.2 := ?_); (try clear_value x); rotate_left; dsimp -zeta only [x]; rotate_right) | (clear_value x) | skip)
    | lift_lets -underBinder
    | (with_reducible refine keeps_bump ?_ ..)
    | (with_reducible refine keeps_raise ?_ ..)
    | (with_reducible refine keeps_ite ?_ ?_)
    | (fail_if_no_progress beta_reduce)
    | (dsimp only [Keeps, part]; with_reducible refine keeps_of ?_; first | with_reducible assumption | (with_reducible refine keeps_bump ?_ ..) | (with_reducible refine keeps_raise ?_ ..))
    | split
    | (refine keeps_ite ?_ ?_))

theorem keeps_newBeats {s0 s : State} {l : Nat} (hK : Keeps s0 s) :
    Keeps s0 (State.newBeats s l) := by
  unfold State.newBeats
  repeat' (first
    | (with_reducible assumption)
    | (intro x; first | ((have hx : Keeps s0 x := ?_); (try clear_value x); rotate_left; dsimp -zeta only [x]; rotate_right) | ((have hx : Keeps s0 x.1 := ?_); (try clear_value x); rotate_left; dsimp -zeta only [x]; rotate_right) | ((have hx : Keeps s0 x.2 := ?_); (try clear_value x); rotate_left; dsimp -zeta only [x]; rotate_right) | (clear_value x) | skip)
    | lift_lets -underBinder
    | (with_reducible refine keeps_ite ?_ ?_)
    | (fail_if_no_progress beta_reduce)
    | (dsimp only [Keeps, part]; with_reducible refine keeps_of ?_; first | with_reducible assumption)
    | split
    | (refine keeps_ite ?_ ?_))

theorem keeps_loseBytes {s0 s : State} {l : Nat} (hK : Keeps s0 s) :
    Keeps s0 (State.loseBytes s l) := by
  unfold State.loseBytes
  repeat' (first
    | (with_reducible assumption)
    | (intro x; first | ((have hx : Keeps s0 x := ?_); (try clear_value x); rotate_left; dsimp -zeta only [x]; rotate_right) | ((have hx : Keeps s0 x.1 := ?_); (try clear_value x); rotate_left; dsimp -zeta only [x]; rotate_right) | ((have hx : Keeps s0 x.2 := ?_); (try clear_value x); rotate_left; dsimp -zeta only [x]; rotate_right) | (clear_value x) | skip)
    | lift_lets -underBinder
    | (with_reducible refine keeps_put ?_ ..)
    | (with_reducible refine keeps_ite ?_ ?_)
    | (fail_if_no_progress beta_reduce)
    | (dsimp only [Keeps, part]; with_reducible refine keeps_of ?_; first | with_reducible assumption | (with_reducible refine keeps_put ?_ ..))
    | split
    | (refine keeps_ite ?_ ?_))

theorem keeps_keepD {s0 s : State} {l : Nat} (hK : Keeps s0 s) :
    Keeps s0 (State.keepD s l) := by
  unfold State.keepD
  repeat' (first
    | (with_reducible assumption)
    | (intro x; first | ((have hx : Keeps s0 x := ?_); (try clear_value x); rotate_left; dsimp -zeta only [x]; rotate_right) | ((have hx : Keeps s0 x.1 := ?_); (try clear_value x); rotate_left; dsimp -zeta only [x]; rotate_right) | ((have hx : Keeps s0 x.2 := ?_); (try clear_value x); rotate_left; dsimp -zeta only [x]; rotate_right) | (clear_value x) | skip)
    | lift_lets -underBinder
    | (with_reducible refine keeps_putTierD ?_ ..)
    | (with_reducible refine keeps_ite ?_ ?_)
    | (fail_if_no_progress beta_reduce)
    | (dsimp only [Keeps, part]; with_reducible refine keeps_of ?_; first | with_reducible assumption | (with_reducible refine keeps_putTierD ?_ ..))
    | split
    | (refine keeps_ite ?_ ?_))

theorem keeps_evictCell {s0 s : State} {k : Nat} (hK : Keeps s0 s) :
    Keeps s0 (State.evictCell s k) := by
  unfold State.evictCell
  repeat' (first
    | (with_reducible assumption)
    | (intro x; first | ((have hx : Keeps s0 x := ?_); (try clear_value x); rotate_left; dsimp -zeta only [x]; rotate_right) | ((have hx : Keeps s0 x.1 := ?_); (try clear_value x); rotate_left; dsimp -zeta only [x]; rotate_right) | ((have hx : Keeps s0 x.2 := ?_); (try clear_value x); rotate_left; dsimp -zeta only [x]; rotate_right) | (clear_value x) | skip)
    | lift_lets -underBinder
    | (with_reducible refine keeps_put ?_ ..)
    | (with_reducible refine keeps_wholeToD ?_ ..)
    | (with_reducible refine keeps_leaveDirty ?_ ..)
    | (with_reducible refine keeps_readBeats ?_ ..)
    | (with_reducible refine keeps_newBeats ?_ ..)
    | (with_reducible refine keeps_keepD ?_ ..)
    | (with_reducible refine keeps_ite ?_ ?_)
    | (fail_if_no_progress beta_reduce)
    | (dsimp only [Keeps, part]; with_reducible refine keeps_of ?_; first | with_reducible assumption | (with_reducible refine keeps_put ?_ ..) | (with_reducible refine keeps_wholeToD ?_ ..) | (with_reducible refine keeps_leaveDirty ?_ ..) | (with_reducible refine keeps_readBeats ?_ ..) | (with_reducible refine keeps_newBeats ?_ ..) | (with_reducible refine keeps_keepD ?_ ..))
    | split
    | (refine keeps_ite ?_ ?_))

theorem keeps_allocCrown_o {s0 s : State} {l : Nat} {dirty : Bool} {fill : Bool} (hK : Keeps s0 s) : OKeeps s0 (fun x => x) (State.allocCrown s l dirty fill) := by
  unfold State.allocCrown
  repeat' (first
    | (with_reducible assumption)
    | (intro x; first | ((have hx : Keeps s0 x := ?_); (try clear_value x); rotate_left; dsimp -zeta only [x]; rotate_right) | ((have hx : Keeps s0 x.1 := ?_); (try clear_value x); rotate_left; dsimp -zeta only [x]; rotate_right) | ((have hx : Keeps s0 x.2 := ?_); (try clear_value x); rotate_left; dsimp -zeta only [x]; rotate_right) | (clear_value x) | skip)
    | lift_lets -underBinder
    | (with_reducible refine keeps_put ?_ ..)
    | (with_reducible refine keeps_stepLfsr ?_ ..)
    | (with_reducible refine keeps_evictCell ?_ ..)
    | (with_reducible refine keeps_ite ?_ ?_)
    | (fail_if_no_progress beta_reduce)
    | exact okeeps_none
    | refine okeeps_some ?_
    | refine okeeps_step ?_ (fun s hK => ?_)
    | (dsimp only [Keeps, part]; with_reducible refine keeps_of ?_; first | with_reducible assumption | (with_reducible refine keeps_put ?_ ..) | (with_reducible refine keeps_stepLfsr ?_ ..) | (with_reducible refine keeps_evictCell ?_ ..))
    | split
    | (refine keeps_ite ?_ ?_))

theorem keeps_allocCrown_eq {s0 s tE : State} {l : Nat} {dirty : Bool} {fill : Bool} (hEq : State.allocCrown s l dirty fill = some tE) (hK : Keeps s0 s) : Keeps s0 tE :=
  (keeps_allocCrown_o hK).of tE hEq

theorem keeps_dropCrown {s0 s : State} {l : Nat} (hK : Keeps s0 s) :
    Keeps s0 (State.dropCrown s l) := by
  unfold State.dropCrown
  repeat' (first
    | (with_reducible assumption)
    | (intro x; first | ((have hx : Keeps s0 x := ?_); (try clear_value x); rotate_left; dsimp -zeta only [x]; rotate_right) | ((have hx : Keeps s0 x.1 := ?_); (try clear_value x); rotate_left; dsimp -zeta only [x]; rotate_right) | ((have hx : Keeps s0 x.2 := ?_); (try clear_value x); rotate_left; dsimp -zeta only [x]; rotate_right) | (clear_value x) | skip)
    | lift_lets -underBinder
    | (with_reducible refine keeps_ite ?_ ?_)
    | (fail_if_no_progress beta_reduce)
    | (dsimp only [Keeps, part]; with_reducible refine keeps_of ?_; first | with_reducible assumption)
    | split
    | (refine keeps_ite ?_ ?_))

theorem keeps_makeDirty {s0 s : State} {l : Nat} (hK : Keeps s0 s) :
    Keeps s0 (State.makeDirty s l) := by
  unfold State.makeDirty
  repeat' (first
    | (with_reducible assumption)
    | (intro x; first | ((have hx : Keeps s0 x := ?_); (try clear_value x); rotate_left; dsimp -zeta only [x]; rotate_right) | ((have hx : Keeps s0 x.1 := ?_); (try clear_value x); rotate_left; dsimp -zeta only [x]; rotate_right) | ((have hx : Keeps s0 x.2 := ?_); (try clear_value x); rotate_left; dsimp -zeta only [x]; rotate_right) | (clear_value x) | skip)
    | lift_lets -underBinder
    | (with_reducible refine keeps_put ?_ ..)
    | (with_reducible refine keeps_ite ?_ ?_)
    | (fail_if_no_progress beta_reduce)
    | (dsimp only [Keeps, part]; with_reducible refine keeps_of ?_; first | with_reducible assumption | (with_reducible refine keeps_put ?_ ..))
    | split
    | (refine keeps_ite ?_ ?_))

theorem keeps_makeClean {s0 s : State} {l : Nat} (hK : Keeps s0 s) :
    Keeps s0 (State.makeClean s l) := by
  unfold State.makeClean
  repeat' (first
    | (with_reducible assumption)
    | (intro x; first | ((have hx : Keeps s0 x := ?_); (try clear_value x); rotate_left; dsimp -zeta only [x]; rotate_right) | ((have hx : Keeps s0 x.1 := ?_); (try clear_value x); rotate_left; dsimp -zeta only [x]; rotate_right) | ((have hx : Keeps s0 x.2 := ?_); (try clear_value x); rotate_left; dsimp -zeta only [x]; rotate_right) | (clear_value x) | skip)
    | lift_lets -underBinder
    | (with_reducible refine keeps_put ?_ ..)
    | (with_reducible refine keeps_putTierD ?_ ..)
    | (with_reducible refine keeps_ite ?_ ?_)
    | (fail_if_no_progress beta_reduce)
    | (dsimp only [Keeps, part]; with_reducible refine keeps_of ?_; first | with_reducible assumption | (with_reducible refine keeps_put ?_ ..) | (with_reducible refine keeps_putTierD ?_ ..))
    | split
    | (refine keeps_ite ?_ ?_))

theorem keeps_startClear {s0 s : State} {sp : Nat} (hK : Keeps s0 s) :
    Keeps s0 (State.startClear s sp) := by
  unfold State.startClear
  repeat' (first
    | (with_reducible assumption)
    | (intro x; first | ((have hx : Keeps s0 x := ?_); (try clear_value x); rotate_left; dsimp -zeta only [x]; rotate_right) | ((have hx : Keeps s0 x.1 := ?_); (try clear_value x); rotate_left; dsimp -zeta only [x]; rotate_right) | ((have hx : Keeps s0 x.2 := ?_); (try clear_value x); rotate_left; dsimp -zeta only [x]; rotate_right) | (clear_value x) | skip)
    | lift_lets -underBinder
    | (with_reducible refine keeps_ite ?_ ?_)
    | (fail_if_no_progress beta_reduce)
    | (dsimp only [Keeps, part]; with_reducible refine keeps_of ?_; first | with_reducible assumption)
    | split
    | (refine keeps_ite ?_ ?_))

theorem keeps_startSpanWrite {s0 s : State} {sp : Nat} (hK : Keeps s0 s) :
    Keeps s0 (State.startSpanWrite s sp) := by
  unfold State.startSpanWrite
  repeat' (first
    | (with_reducible assumption)
    | (intro x; first | ((have hx : Keeps s0 x := ?_); (try clear_value x); rotate_left; dsimp -zeta only [x]; rotate_right) | ((have hx : Keeps s0 x.1 := ?_); (try clear_value x); rotate_left; dsimp -zeta only [x]; rotate_right) | ((have hx : Keeps s0 x.2 := ?_); (try clear_value x); rotate_left; dsimp -zeta only [x]; rotate_right) | (clear_value x) | skip)
    | lift_lets -underBinder
    | (with_reducible refine keeps_ite ?_ ?_)
    | (fail_if_no_progress beta_reduce)
    | (dsimp only [Keeps, part]; with_reducible refine keeps_of ?_; first | with_reducible assumption)
    | split
    | (refine keeps_ite ?_ ?_))

theorem keeps_dropLines {s0 s : State} {p : Nat → Bool} (hK : Keeps s0 s) :
    Keeps s0 (State.dropLines s p) := by
  unfold State.dropLines
  repeat' (first
    | (with_reducible assumption)
    | (intro x; first | ((have hx : Keeps s0 x := ?_); (try clear_value x); rotate_left; dsimp -zeta only [x]; rotate_right) | ((have hx : Keeps s0 x.1 := ?_); (try clear_value x); rotate_left; dsimp -zeta only [x]; rotate_right) | ((have hx : Keeps s0 x.2 := ?_); (try clear_value x); rotate_left; dsimp -zeta only [x]; rotate_right) | (clear_value x) | skip)
    | lift_lets -underBinder
    | (with_reducible refine keeps_startClear ?_ ..)
    | (with_reducible refine keeps_foldl (fun s x hK => ?_) ?_)
    | (with_reducible refine keeps_foldl_fst (fun s x hK => ?_) ?_)
    | (refine keeps_foldl_eq (by assumption) (fun s x hK => ?_) ?_)
    | (with_reducible refine keeps_ite ?_ ?_)
    | (fail_if_no_progress beta_reduce)
    | (dsimp only [Keeps, part]; with_reducible refine keeps_of ?_; first | with_reducible assumption | (with_reducible refine keeps_startClear ?_ ..) | (refine keeps_foldl_eq (by assumption) (fun s x hK => ?_) ?_))
    | split
    | (refine keeps_ite ?_ ?_))

theorem keeps_checkWriteThrough {s0 s : State} (hK : Keeps s0 s) :
    Keeps s0 (State.checkWriteThrough s) := by
  unfold State.checkWriteThrough
  repeat' (first
    | (with_reducible assumption)
    | (intro x; first | ((have hx : Keeps s0 x := ?_); (try clear_value x); rotate_left; dsimp -zeta only [x]; rotate_right) | ((have hx : Keeps s0 x.1 := ?_); (try clear_value x); rotate_left; dsimp -zeta only [x]; rotate_right) | ((have hx : Keeps s0 x.2 := ?_); (try clear_value x); rotate_left; dsimp -zeta only [x]; rotate_right) | (clear_value x) | skip)
    | lift_lets -underBinder
    | (with_reducible refine keeps_raise ?_ ..)
    | (with_reducible refine keeps_ite ?_ ?_)
    | (fail_if_no_progress beta_reduce)
    | (dsimp only [Keeps, part]; with_reducible refine keeps_of ?_; first | with_reducible assumption | (with_reducible refine keeps_raise ?_ ..))
    | split
    | (refine keeps_ite ?_ ?_))

theorem keeps_checkThrottle {s0 s : State} (hK : Keeps s0 s) :
    Keeps s0 (State.checkThrottle s) := by
  unfold State.checkThrottle
  repeat' (first
    | (with_reducible assumption)
    | (intro x; first | ((have hx : Keeps s0 x := ?_); (try clear_value x); rotate_left; dsimp -zeta only [x]; rotate_right) | ((have hx : Keeps s0 x.1 := ?_); (try clear_value x); rotate_left; dsimp -zeta only [x]; rotate_right) | ((have hx : Keeps s0 x.2 := ?_); (try clear_value x); rotate_left; dsimp -zeta only [x]; rotate_right) | (clear_value x) | skip)
    | lift_lets -underBinder
    | (with_reducible refine keeps_raise ?_ ..)
    | (with_reducible refine keeps_ite ?_ ?_)
    | (fail_if_no_progress beta_reduce)
    | (dsimp only [Keeps, part]; with_reducible refine keeps_of ?_; first | with_reducible assumption | (with_reducible refine keeps_raise ?_ ..))
    | split
    | (refine keeps_ite ?_ ?_))

theorem keeps_checkDestage {s0 s : State} (hK : Keeps s0 s) :
    Keeps s0 (State.checkDestage s) := by
  unfold State.checkDestage
  repeat' (first
    | (with_reducible assumption)
    | (intro x; first | ((have hx : Keeps s0 x := ?_); (try clear_value x); rotate_left; dsimp -zeta only [x]; rotate_right) | ((have hx : Keeps s0 x.1 := ?_); (try clear_value x); rotate_left; dsimp -zeta only [x]; rotate_right) | ((have hx : Keeps s0 x.2 := ?_); (try clear_value x); rotate_left; dsimp -zeta only [x]; rotate_right) | (clear_value x) | skip)
    | lift_lets -underBinder
    | (with_reducible refine keeps_ite ?_ ?_)
    | (fail_if_no_progress beta_reduce)
    | (dsimp only [Keeps, part]; with_reducible refine keeps_of ?_; first | with_reducible assumption)
    | split
    | (refine keeps_ite ?_ ?_))

theorem keeps_checkBudget {s0 s : State} (hK : Keeps s0 s) :
    Keeps s0 (State.checkBudget s) := by
  unfold State.checkBudget
  repeat' (first
    | (with_reducible assumption)
    | (intro x; first | ((have hx : Keeps s0 x := ?_); (try clear_value x); rotate_left; dsimp -zeta only [x]; rotate_right) | ((have hx : Keeps s0 x.1 := ?_); (try clear_value x); rotate_left; dsimp -zeta only [x]; rotate_right) | ((have hx : Keeps s0 x.2 := ?_); (try clear_value x); rotate_left; dsimp -zeta only [x]; rotate_right) | (clear_value x) | skip)
    | lift_lets -underBinder
    | (with_reducible refine keeps_checkWriteThrough ?_ ..)
    | (with_reducible refine keeps_checkThrottle ?_ ..)
    | (with_reducible refine keeps_checkDestage ?_ ..)
    | (with_reducible refine keeps_ite ?_ ?_)
    | (fail_if_no_progress beta_reduce)
    | (dsimp only [Keeps, part]; with_reducible refine keeps_of ?_; first | with_reducible assumption | (with_reducible refine keeps_checkWriteThrough ?_ ..) | (with_reducible refine keeps_checkThrottle ?_ ..) | (with_reducible refine keeps_checkDestage ?_ ..))
    | split
    | (refine keeps_ite ?_ ?_))

theorem keeps_budgetChanged {s0 s : State} {before : Nat} (hK : Keeps s0 s) :
    Keeps s0 (State.budgetChanged s before) := by
  unfold State.budgetChanged
  repeat' (first
    | (with_reducible assumption)
    | (intro x; first | ((have hx : Keeps s0 x := ?_); (try clear_value x); rotate_left; dsimp -zeta only [x]; rotate_right) | ((have hx : Keeps s0 x.1 := ?_); (try clear_value x); rotate_left; dsimp -zeta only [x]; rotate_right) | ((have hx : Keeps s0 x.2 := ?_); (try clear_value x); rotate_left; dsimp -zeta only [x]; rotate_right) | (clear_value x) | skip)
    | lift_lets -underBinder
    | (with_reducible refine keeps_raise ?_ ..)
    | (with_reducible refine keeps_checkWriteThrough ?_ ..)
    | (with_reducible refine keeps_checkThrottle ?_ ..)
    | (with_reducible refine keeps_checkDestage ?_ ..)
    | (with_reducible refine keeps_ite ?_ ?_)
    | (fail_if_no_progress beta_reduce)
    | (dsimp only [Keeps, part]; with_reducible refine keeps_of ?_; first | with_reducible assumption | (with_reducible refine keeps_raise ?_ ..) | (with_reducible refine keeps_checkWriteThrough ?_ ..) | (with_reducible refine keeps_checkThrottle ?_ ..) | (with_reducible refine keeps_checkDestage ?_ ..))
    | split
    | (refine keeps_ite ?_ ?_))

theorem keeps_putSkim {s0 s : State} {g : Nat} {k : Skim} (hK : Keeps s0 s) :
    Keeps s0 (State.putSkim s g k) := by
  unfold State.putSkim
  repeat' (first
    | (with_reducible assumption)
    | (intro x; first | ((have hx : Keeps s0 x := ?_); (try clear_value x); rotate_left; dsimp -zeta only [x]; rotate_right) | ((have hx : Keeps s0 x.1 := ?_); (try clear_value x); rotate_left; dsimp -zeta only [x]; rotate_right) | ((have hx : Keeps s0 x.2 := ?_); (try clear_value x); rotate_left; dsimp -zeta only [x]; rotate_right) | (clear_value x) | skip)
    | lift_lets -underBinder
    | (with_reducible refine keeps_put ?_ ..)
    | (with_reducible refine keeps_ite ?_ ?_)
    | (fail_if_no_progress beta_reduce)
    | (dsimp only [Keeps, part]; with_reducible refine keeps_of ?_; first | with_reducible assumption | (with_reducible refine keeps_put ?_ ..))
    | split
    | (refine keeps_ite ?_ ?_))

theorem keeps_startJournal {s0 s : State} {g : Nat} (hK : Keeps s0 s) :
    Keeps s0 (State.startJournal s g) := by
  unfold State.startJournal
  repeat' (first
    | (with_reducible assumption)
    | (intro x; first | ((have hx : Keeps s0 x := ?_); (try clear_value x); rotate_left; dsimp -zeta only [x]; rotate_right) | ((have hx : Keeps s0 x.1 := ?_); (try clear_value x); rotate_left; dsimp -zeta only [x]; rotate_right) | ((have hx : Keeps s0 x.2 := ?_); (try clear_value x); rotate_left; dsimp -zeta only [x]; rotate_right) | (clear_value x) | skip)
    | lift_lets -underBinder
    | (with_reducible refine keeps_putSkim ?_ ..)
    | (with_reducible refine keeps_ite ?_ ?_)
    | (fail_if_no_progress beta_reduce)
    | (dsimp only [Keeps, part]; with_reducible refine keeps_of ?_; first | with_reducible assumption | (with_reducible refine keeps_putSkim ?_ ..))
    | split
    | (refine keeps_ite ?_ ?_))

theorem keeps_queueRow {s0 s : State} {g : Nat} {row : Nat} (hK : Keeps s0 s) :
    Keeps s0 (State.queueRow s g row) := by
  unfold State.queueRow
  repeat' (first
    | (with_reducible assumption)
    | (intro x; first | ((have hx : Keeps s0 x := ?_); (try clear_value x); rotate_left; dsimp -zeta only [x]; rotate_right) | ((have hx : Keeps s0 x.1 := ?_); (try clear_value x); rotate_left; dsimp -zeta only [x]; rotate_right) | ((have hx : Keeps s0 x.2 := ?_); (try clear_value x); rotate_left; dsimp -zeta only [x]; rotate_right) | (clear_value x) | skip)
    | lift_lets -underBinder
    | (with_reducible refine keeps_putSkim ?_ ..)
    | (with_reducible refine keeps_startJournal ?_ ..)
    | (with_reducible refine keeps_ite ?_ ?_)
    | (fail_if_no_progress beta_reduce)
    | (dsimp only [Keeps, part]; with_reducible refine keeps_of ?_; first | with_reducible assumption | (with_reducible refine keeps_putSkim ?_ ..) | (with_reducible refine keeps_startJournal ?_ ..))
    | split
    | (refine keeps_ite ?_ ?_))

theorem keeps_destageStart {s0 s : State} {f : Nat} (hK : Keeps s0 s) :
    Keeps s0 (State.destageStart s f) := by
  unfold State.destageStart
  repeat' (first
    | (with_reducible assumption)
    | (intro x; first | ((have hx : Keeps s0 x := ?_); (try clear_value x); rotate_left; dsimp -zeta only [x]; rotate_right) | ((have hx : Keeps s0 x.1 := ?_); (try clear_value x); rotate_left; dsimp -zeta only [x]; rotate_right) | ((have hx : Keeps s0 x.2 := ?_); (try clear_value x); rotate_left; dsimp -zeta only [x]; rotate_right) | (clear_value x) | skip)
    | lift_lets -underBinder
    | (with_reducible refine keeps_put ?_ ..)
    | (with_reducible refine keeps_startPromotion ?_ ..)
    | (with_reducible refine keeps_queueRow ?_ ..)
    | (with_reducible refine keeps_ite ?_ ?_)
    | (fail_if_no_progress beta_reduce)
    | (dsimp only [Keeps, part]; with_reducible refine keeps_of ?_; first | with_reducible assumption | (with_reducible refine keeps_put ?_ ..) | (with_reducible refine keeps_startPromotion ?_ ..) | (with_reducible refine keeps_queueRow ?_ ..))
    | split
    | (refine keeps_ite ?_ ?_))

theorem keeps_planDestage {s0 s : State} (hK : Keeps s0 s) :
    Keeps s0 (State.planDestage s) := by
  unfold State.planDestage
  repeat' (first
    | (with_reducible assumption)
    | (intro x; first | ((have hx : Keeps s0 x := ?_); (try clear_value x); rotate_left; dsimp -zeta only [x]; rotate_right) | ((have hx : Keeps s0 x.1 := ?_); (try clear_value x); rotate_left; dsimp -zeta only [x]; rotate_right) | ((have hx : Keeps s0 x.2 := ?_); (try clear_value x); rotate_left; dsimp -zeta only [x]; rotate_right) | (clear_value x) | skip)
    | lift_lets -underBinder
    | (with_reducible refine keeps_destageStart ?_ ..)
    | (with_reducible refine keeps_foldl (fun s x hK => ?_) ?_)
    | (with_reducible refine keeps_foldl_fst (fun s x hK => ?_) ?_)
    | (refine keeps_foldl_eq (by assumption) (fun s x hK => ?_) ?_)
    | (with_reducible refine keeps_ite ?_ ?_)
    | (fail_if_no_progress beta_reduce)
    | (dsimp only [Keeps, part]; with_reducible refine keeps_of ?_; first | with_reducible assumption | (with_reducible refine keeps_destageStart ?_ ..) | (refine keeps_foldl_eq (by assumption) (fun s x hK => ?_) ?_))
    | split
    | (refine keeps_ite ?_ ?_))

end Sys2Proof.Laws
end

