-- ==== Sys2Proof/Laws/KeepsPlaces.lean ====
section
/-! SUPPORT. Every operation of Machine/Places.lean keeps what Laws/Keeps.lean says. -/

set_option linter.unusedTactic false
set_option linter.unreachableTactic false
set_option linter.unusedVariables false

namespace Sys2Proof.Laws

open Sys2Proof Machine

theorem keeps_floatWrite {s0 s : State} {m : Nat} {slot : Nat} (hK : Keeps s0 s) :
    Keeps s0 (State.floatWrite s m slot) := by
  unfold State.floatWrite
  repeat' (first
    | (with_reducible assumption)
    | (intro x; first | ((have hx : Keeps s0 x := ?_); (try clear_value x); rotate_left; dsimp -zeta only [x]; rotate_right) | ((have hx : Keeps s0 x.1 := ?_); (try clear_value x); rotate_left; dsimp -zeta only [x]; rotate_right) | ((have hx : Keeps s0 x.2 := ?_); (try clear_value x); rotate_left; dsimp -zeta only [x]; rotate_right) | (clear_value x) | skip)
    | lift_lets -underBinder
    | (with_reducible refine keeps_put ?_ ..)
    | (with_reducible refine keeps_ite ?_ ?_)
    | (fail_if_no_progress beta_reduce)
    | (dsimp only [Keeps, part]; with_reducible refine keeps_of ?_; first | with_reducible assumption | (with_reducible refine keeps_put ?_ ..))
    | split
    | (refine keeps_ite ?_ ?_))

theorem keeps_floatFrame {s0 s : State} {g : Nat} {slot : Nat} (hK : Keeps s0 s) :
    Keeps s0 (State.floatFrame s g slot) := by
  unfold State.floatFrame
  repeat' (first
    | (with_reducible assumption)
    | (intro x; first | ((have hx : Keeps s0 x := ?_); (try clear_value x); rotate_left; dsimp -zeta only [x]; rotate_right) | ((have hx : Keeps s0 x.1 := ?_); (try clear_value x); rotate_left; dsimp -zeta only [x]; rotate_right) | ((have hx : Keeps s0 x.2 := ?_); (try clear_value x); rotate_left; dsimp -zeta only [x]; rotate_right) | (clear_value x) | skip)
    | lift_lets -underBinder
    | (with_reducible refine keeps_floatWrite ?_ ..)
    | (with_reducible refine keeps_foldl (fun s x hK => ?_) ?_)
    | (with_reducible refine keeps_foldl_fst (fun s x hK => ?_) ?_)
    | (refine keeps_foldl_eq (by assumption) (fun s x hK => ?_) ?_)
    | (with_reducible refine keeps_ite ?_ ?_)
    | (fail_if_no_progress beta_reduce)
    | (dsimp only [Keeps, part]; with_reducible refine keeps_of ?_; first | with_reducible assumption | (with_reducible refine keeps_floatWrite ?_ ..) | (refine keeps_foldl_eq (by assumption) (fun s x hK => ?_) ?_))
    | split
    | (refine keeps_ite ?_ ?_))

theorem keeps_journal {s0 s : State} {type : Nat} {frame : Nat} {count : Nat} {key : Nat} {loc : Nat} {mask : List Nat} (hK : Keeps s0 s) :
    Keeps s0 (State.journal s type frame count key loc mask) := by
  unfold State.journal
  repeat' (first
    | (with_reducible assumption)
    | (intro x; first | ((have hx : Keeps s0 x := ?_); (try clear_value x); rotate_left; dsimp -zeta only [x]; rotate_right) | ((have hx : Keeps s0 x.1 := ?_); (try clear_value x); rotate_left; dsimp -zeta only [x]; rotate_right) | ((have hx : Keeps s0 x.2 := ?_); (try clear_value x); rotate_left; dsimp -zeta only [x]; rotate_right) | (clear_value x) | skip)
    | lift_lets -underBinder
    | (with_reducible refine keeps_ite ?_ ?_)
    | (fail_if_no_progress beta_reduce)
    | (dsimp only [Keeps, part]; with_reducible refine keeps_of ?_; first | with_reducible assumption)
    | split
    | (refine keeps_ite ?_ ?_))

theorem keeps_jSpanSet {s0 s : State} {sp : Nat} {a : Nat} {frames : List Nat} (hK : Keeps s0 s) :
    Keeps s0 (State.jSpanSet s sp a frames) := by
  unfold State.jSpanSet
  repeat' (first
    | (with_reducible assumption)
    | (intro x; first | ((have hx : Keeps s0 x := ?_); (try clear_value x); rotate_left; dsimp -zeta only [x]; rotate_right) | ((have hx : Keeps s0 x.1 := ?_); (try clear_value x); rotate_left; dsimp -zeta only [x]; rotate_right) | ((have hx : Keeps s0 x.2 := ?_); (try clear_value x); rotate_left; dsimp -zeta only [x]; rotate_right) | (clear_value x) | skip)
    | lift_lets -underBinder
    | (with_reducible refine keeps_journal ?_ ..)
    | (with_reducible refine keeps_ite ?_ ?_)
    | (fail_if_no_progress beta_reduce)
    | (dsimp only [Keeps, part]; with_reducible refine keeps_of ?_; first | with_reducible assumption | (with_reducible refine keeps_journal ?_ ..))
    | split
    | (refine keeps_ite ?_ ?_))

theorem keeps_jFrameSet {s0 s : State} {sp : Nat} {k : Nat} {a : Nat} (hK : Keeps s0 s) :
    Keeps s0 (State.jFrameSet s sp k a) := by
  unfold State.jFrameSet
  repeat' (first
    | (with_reducible assumption)
    | (intro x; first | ((have hx : Keeps s0 x := ?_); (try clear_value x); rotate_left; dsimp -zeta only [x]; rotate_right) | ((have hx : Keeps s0 x.1 := ?_); (try clear_value x); rotate_left; dsimp -zeta only [x]; rotate_right) | ((have hx : Keeps s0 x.2 := ?_); (try clear_value x); rotate_left; dsimp -zeta only [x]; rotate_right) | (clear_value x) | skip)
    | lift_lets -underBinder
    | (with_reducible refine keeps_journal ?_ ..)
    | (with_reducible refine keeps_ite ?_ ?_)
    | (fail_if_no_progress beta_reduce)
    | (dsimp only [Keeps, part]; with_reducible refine keeps_of ?_; first | with_reducible assumption | (with_reducible refine keeps_journal ?_ ..))
    | split
    | (refine keeps_ite ?_ ?_))

theorem keeps_jBand {s0 s : State} {b : Nat} {st : BandSt} (hK : Keeps s0 s) :
    Keeps s0 (State.jBand s b st) := by
  unfold State.jBand
  repeat' (first
    | (with_reducible assumption)
    | (intro x; first | ((have hx : Keeps s0 x := ?_); (try clear_value x); rotate_left; dsimp -zeta only [x]; rotate_right) | ((have hx : Keeps s0 x.1 := ?_); (try clear_value x); rotate_left; dsimp -zeta only [x]; rotate_right) | ((have hx : Keeps s0 x.2 := ?_); (try clear_value x); rotate_left; dsimp -zeta only [x]; rotate_right) | (clear_value x) | skip)
    | lift_lets -underBinder
    | (with_reducible refine keeps_journal ?_ ..)
    | (with_reducible refine keeps_ite ?_ ?_)
    | (fail_if_no_progress beta_reduce)
    | (dsimp only [Keeps, part]; with_reducible refine keeps_of ?_; first | with_reducible assumption | (with_reducible refine keeps_journal ?_ ..))
    | split
    | (refine keeps_ite ?_ ?_))

theorem keeps_putBand {s0 s : State} {b : Nat} {x : Band} (hK : Keeps s0 s) :
    Keeps s0 (State.putBand s b x) := by
  unfold State.putBand
  repeat' (first
    | (with_reducible assumption)
    | (intro x; first | ((have hx : Keeps s0 x := ?_); (try clear_value x); rotate_left; dsimp -zeta only [x]; rotate_right) | ((have hx : Keeps s0 x.1 := ?_); (try clear_value x); rotate_left; dsimp -zeta only [x]; rotate_right) | ((have hx : Keeps s0 x.2 := ?_); (try clear_value x); rotate_left; dsimp -zeta only [x]; rotate_right) | (clear_value x) | skip)
    | lift_lets -underBinder
    | (with_reducible refine keeps_put ?_ ..)
    | (with_reducible refine keeps_ite ?_ ?_)
    | (fail_if_no_progress beta_reduce)
    | (dsimp only [Keeps, part]; with_reducible refine keeps_of ?_; first | with_reducible assumption | (with_reducible refine keeps_put ?_ ..))
    | split
    | (refine keeps_ite ?_ ?_))

theorem keeps_checkEligible {s0 s : State} {b : Nat} (hK : Keeps s0 s) :
    Keeps s0 (State.checkEligible s b) := by
  unfold State.checkEligible
  repeat' (first
    | (with_reducible assumption)
    | (intro x; first | ((have hx : Keeps s0 x := ?_); (try clear_value x); rotate_left; dsimp -zeta only [x]; rotate_right) | ((have hx : Keeps s0 x.1 := ?_); (try clear_value x); rotate_left; dsimp -zeta only [x]; rotate_right) | ((have hx : Keeps s0 x.2 := ?_); (try clear_value x); rotate_left; dsimp -zeta only [x]; rotate_right) | (clear_value x) | skip)
    | lift_lets -underBinder
    | (with_reducible refine keeps_jBand ?_ ..)
    | (with_reducible refine keeps_putBand ?_ ..)
    | (with_reducible refine keeps_ite ?_ ?_)
    | (fail_if_no_progress beta_reduce)
    | (dsimp only [Keeps, part]; with_reducible refine keeps_of ?_; first | with_reducible assumption | (with_reducible refine keeps_jBand ?_ ..) | (with_reducible refine keeps_putBand ?_ ..))
    | split
    | (refine keeps_ite ?_ ?_))

theorem keeps_release {s0 s : State} {l : List Nat} (hK : Keeps s0 s) :
    Keeps s0 (State.release s l) := by
  unfold State.release
  repeat' (first
    | (with_reducible assumption)
    | (intro x; first | ((have hx : Keeps s0 x := ?_); (try clear_value x); rotate_left; dsimp -zeta only [x]; rotate_right) | ((have hx : Keeps s0 x.1 := ?_); (try clear_value x); rotate_left; dsimp -zeta only [x]; rotate_right) | ((have hx : Keeps s0 x.2 := ?_); (try clear_value x); rotate_left; dsimp -zeta only [x]; rotate_right) | (clear_value x) | skip)
    | lift_lets -underBinder
    | (with_reducible refine keeps_putBand ?_ ..)
    | (with_reducible refine keeps_checkEligible ?_ ..)
    | (with_reducible refine keeps_foldl (fun s x hK => ?_) ?_)
    | (with_reducible refine keeps_foldl_fst (fun s x hK => ?_) ?_)
    | (refine keeps_foldl_eq (by assumption) (fun s x hK => ?_) ?_)
    | (with_reducible refine keeps_ite ?_ ?_)
    | (fail_if_no_progress beta_reduce)
    | (dsimp only [Keeps, part]; with_reducible refine keeps_of ?_; first | with_reducible assumption | (with_reducible refine keeps_putBand ?_ ..) | (with_reducible refine keeps_checkEligible ?_ ..) | (refine keeps_foldl_eq (by assumption) (fun s x hK => ?_) ?_))
    | split
    | (refine keeps_ite ?_ ?_))

theorem keeps_closeBand {s0 s : State} {b : Nat} (hK : Keeps s0 s) :
    Keeps s0 (State.closeBand s b) := by
  unfold State.closeBand
  repeat' (first
    | (with_reducible assumption)
    | (intro x; first | ((have hx : Keeps s0 x := ?_); (try clear_value x); rotate_left; dsimp -zeta only [x]; rotate_right) | ((have hx : Keeps s0 x.1 := ?_); (try clear_value x); rotate_left; dsimp -zeta only [x]; rotate_right) | ((have hx : Keeps s0 x.2 := ?_); (try clear_value x); rotate_left; dsimp -zeta only [x]; rotate_right) | (clear_value x) | skip)
    | lift_lets -underBinder
    | (with_reducible refine keeps_jBand ?_ ..)
    | (with_reducible refine keeps_putBand ?_ ..)
    | (with_reducible refine keeps_checkEligible ?_ ..)
    | (with_reducible refine keeps_ite ?_ ?_)
    | (fail_if_no_progress beta_reduce)
    | (dsimp only [Keeps, part]; with_reducible refine keeps_of ?_; first | with_reducible assumption | (with_reducible refine keeps_jBand ?_ ..) | (with_reducible refine keeps_putBand ?_ ..) | (with_reducible refine keeps_checkEligible ?_ ..))
    | split
    | (refine keeps_ite ?_ ?_))

theorem keeps_bandRoom_o {s0 s : State} {n : Nat} {fulling : Bool} (hK : Keeps s0 s) : OKeeps s0 (fun x => x.2.2) (State.bandRoom s n fulling) := by
  unfold State.bandRoom
  repeat' (first
    | (with_reducible assumption)
    | (intro x; first | ((have hx : Keeps s0 x := ?_); (try clear_value x); rotate_left; dsimp -zeta only [x]; rotate_right) | ((have hx : Keeps s0 x.1 := ?_); (try clear_value x); rotate_left; dsimp -zeta only [x]; rotate_right) | ((have hx : Keeps s0 x.2 := ?_); (try clear_value x); rotate_left; dsimp -zeta only [x]; rotate_right) | (clear_value x) | skip)
    | lift_lets -underBinder
    | (with_reducible refine keeps_jBand ?_ ..)
    | (with_reducible refine keeps_putBand ?_ ..)
    | (with_reducible refine keeps_closeBand ?_ ..)
    | (with_reducible refine keeps_refresh ?_ ..)
    | (with_reducible refine keeps_ite ?_ ?_)
    | (fail_if_no_progress beta_reduce)
    | exact okeeps_none
    | refine okeeps_some ?_
    | refine okeeps_step ?_ (fun s hK => ?_)
    | (dsimp only [Keeps, part]; with_reducible refine keeps_of ?_; first | with_reducible assumption | (with_reducible refine keeps_jBand ?_ ..) | (with_reducible refine keeps_putBand ?_ ..) | (with_reducible refine keeps_closeBand ?_ ..) | (with_reducible refine keeps_refresh ?_ ..))
    | split
    | (refine keeps_ite ?_ ?_))

theorem keeps_bandRoom_eq {s0 s tE : State} {aE bE : Nat} {n : Nat} {fulling : Bool} (hEq : State.bandRoom s n fulling = some (aE, bE, tE)) (hK : Keeps s0 s) : Keeps s0 tE :=
  (keeps_bandRoom_o hK).of (aE, bE, tE) hEq

theorem keeps_startChange {s0 s : State} {kind : ChgKind} {sp : Nat} {frames : List Nat} {src : List Nat} {fulling : Bool} {credit : Bool} (hK : Keeps s0 s) :
    Keeps s0 (State.startChange s kind sp frames src fulling credit) := by
  unfold State.startChange
  repeat' (first
    | (with_reducible assumption)
    | (intro x; first | ((have hx : Keeps s0 x := ?_); (try clear_value x); rotate_left; dsimp -zeta only [x]; rotate_right) | ((have hx : Keeps s0 x.1 := ?_); (try clear_value x); rotate_left; dsimp -zeta only [x]; rotate_right) | ((have hx : Keeps s0 x.2 := ?_); (try clear_value x); rotate_left; dsimp -zeta only [x]; rotate_right) | (clear_value x) | skip)
    | lift_lets -underBinder
    | (with_reducible refine keeps_bandRoom_o ?_ ..)
    | (refine keeps_bandRoom_eq (by assumption) ?_)
    | (with_reducible refine keeps_ite ?_ ?_)
    | (fail_if_no_progress beta_reduce)
    | (dsimp only [Keeps, part]; with_reducible refine keeps_of ?_; first | with_reducible assumption | (with_reducible refine keeps_bandRoom_o ?_ ..) | (refine keeps_bandRoom_eq (by assumption) ?_))
    | split
    | (refine keeps_ite ?_ ?_))

theorem keeps_toFine {s0 s : State} {sp : Nat} (hK : Keeps s0 s) :
    Keeps s0 (State.toFine s sp) := by
  unfold State.toFine
  repeat' (first
    | (with_reducible assumption)
    | (intro x; first | ((have hx : Keeps s0 x := ?_); (try clear_value x); rotate_left; dsimp -zeta only [x]; rotate_right) | ((have hx : Keeps s0 x.1 := ?_); (try clear_value x); rotate_left; dsimp -zeta only [x]; rotate_right) | ((have hx : Keeps s0 x.2 := ?_); (try clear_value x); rotate_left; dsimp -zeta only [x]; rotate_right) | (clear_value x) | skip)
    | lift_lets -underBinder
    | (with_reducible refine keeps_put ?_ ..)
    | (with_reducible refine keeps_journal ?_ ..)
    | (with_reducible refine keeps_foldl (fun s x hK => ?_) ?_)
    | (with_reducible refine keeps_foldl_fst (fun s x hK => ?_) ?_)
    | (refine keeps_foldl_eq (by assumption) (fun s x hK => ?_) ?_)
    | (with_reducible refine keeps_ite ?_ ?_)
    | (fail_if_no_progress beta_reduce)
    | (dsimp only [Keeps, part]; with_reducible refine keeps_of ?_; first | with_reducible assumption | (with_reducible refine keeps_put ?_ ..) | (with_reducible refine keeps_journal ?_ ..) | (refine keeps_foldl_eq (by assumption) (fun s x hK => ?_) ?_))
    | split
    | (refine keeps_ite ?_ ?_))

theorem keeps_toSpan {s0 s : State} {sp : Nat} (hK : Keeps s0 s) :
    Keeps s0 (State.toSpan s sp) := by
  unfold State.toSpan
  repeat' (first
    | (with_reducible assumption)
    | (intro x; first | ((have hx : Keeps s0 x := ?_); (try clear_value x); rotate_left; dsimp -zeta only [x]; rotate_right) | ((have hx : Keeps s0 x.1 := ?_); (try clear_value x); rotate_left; dsimp -zeta only [x]; rotate_right) | ((have hx : Keeps s0 x.2 := ?_); (try clear_value x); rotate_left; dsimp -zeta only [x]; rotate_right) | (clear_value x) | skip)
    | lift_lets -underBinder
    | (with_reducible refine keeps_startChange ?_ ..)
    | (with_reducible refine keeps_ite ?_ ?_)
    | (fail_if_no_progress beta_reduce)
    | (dsimp only [Keeps, part]; with_reducible refine keeps_of ?_; first | with_reducible assumption | (with_reducible refine keeps_startChange ?_ ..))
    | split
    | (refine keeps_ite ?_ ?_))

theorem keeps_countSubw {s0 s : State} {sp : Nat} (hK : Keeps s0 s) :
    Keeps s0 (State.countSubw s sp) := by
  unfold State.countSubw
  repeat' (first
    | (with_reducible assumption)
    | (intro x; first | ((have hx : Keeps s0 x := ?_); (try clear_value x); rotate_left; dsimp -zeta only [x]; rotate_right) | ((have hx : Keeps s0 x.1 := ?_); (try clear_value x); rotate_left; dsimp -zeta only [x]; rotate_right) | ((have hx : Keeps s0 x.2 := ?_); (try clear_value x); rotate_left; dsimp -zeta only [x]; rotate_right) | (clear_value x) | skip)
    | lift_lets -underBinder
    | (with_reducible refine keeps_put ?_ ..)
    | (with_reducible refine keeps_toFine ?_ ..)
    | (with_reducible refine keeps_toSpan ?_ ..)
    | (with_reducible refine keeps_ite ?_ ?_)
    | (fail_if_no_progress beta_reduce)
    | (dsimp only [Keeps, part]; with_reducible refine keeps_of ?_; first | with_reducible assumption | (with_reducible refine keeps_put ?_ ..) | (with_reducible refine keeps_toFine ?_ ..) | (with_reducible refine keeps_toSpan ?_ ..))
    | split
    | (refine keeps_ite ?_ ?_))

theorem keeps_rewrite {s0 s : State} {sp : Nat} {frames : List Nat} {refresh : Bool} (hK : Keeps s0 s) :
    Keeps s0 (State.rewrite s sp frames refresh) := by
  unfold State.rewrite
  repeat' (first
    | (with_reducible assumption)
    | (intro x; first | ((have hx : Keeps s0 x := ?_); (try clear_value x); rotate_left; dsimp -zeta only [x]; rotate_right) | ((have hx : Keeps s0 x.1 := ?_); (try clear_value x); rotate_left; dsimp -zeta only [x]; rotate_right) | ((have hx : Keeps s0 x.2 := ?_); (try clear_value x); rotate_left; dsimp -zeta only [x]; rotate_right) | (clear_value x) | skip)
    | lift_lets -underBinder
    | (with_reducible refine keeps_startChange ?_ ..)
    | (with_reducible refine keeps_refresh ?_ ..)
    | (with_reducible refine keeps_foldl (fun s x hK => ?_) ?_)
    | (with_reducible refine keeps_foldl_fst (fun s x hK => ?_) ?_)
    | (refine keeps_foldl_eq (by assumption) (fun s x hK => ?_) ?_)
    | (with_reducible refine keeps_ite ?_ ?_)
    | (fail_if_no_progress beta_reduce)
    | (dsimp only [Keeps, part]; with_reducible refine keeps_of ?_; first | with_reducible assumption | (with_reducible refine keeps_startChange ?_ ..) | (with_reducible refine keeps_refresh ?_ ..) | (refine keeps_foldl_eq (by assumption) (fun s x hK => ?_) ?_))
    | split
    | (refine keeps_ite ?_ ?_))

theorem keeps_subSpanWrite {s0 s : State} {sp : Nat} {frames : List Nat} {refresh : Bool} (hK : Keeps s0 s) :
    Keeps s0 (State.subSpanWrite s sp frames refresh) := by
  unfold State.subSpanWrite
  repeat' (first
    | (with_reducible assumption)
    | (intro x; first | ((have hx : Keeps s0 x := ?_); (try clear_value x); rotate_left; dsimp -zeta only [x]; rotate_right) | ((have hx : Keeps s0 x.1 := ?_); (try clear_value x); rotate_left; dsimp -zeta only [x]; rotate_right) | ((have hx : Keeps s0 x.2 := ?_); (try clear_value x); rotate_left; dsimp -zeta only [x]; rotate_right) | (clear_value x) | skip)
    | lift_lets -underBinder
    | (with_reducible refine keeps_countSubw ?_ ..)
    | (with_reducible refine keeps_rewrite ?_ ..)
    | (with_reducible refine keeps_refresh ?_ ..)
    | (with_reducible refine keeps_ite ?_ ?_)
    | (fail_if_no_progress beta_reduce)
    | (dsimp only [Keeps, part]; with_reducible refine keeps_of ?_; first | with_reducible assumption | (with_reducible refine keeps_countSubw ?_ ..) | (with_reducible refine keeps_rewrite ?_ ..) | (with_reducible refine keeps_refresh ?_ ..))
    | split
    | (refine keeps_ite ?_ ?_))

theorem keeps_classCount {s0 s : State} {c : Nat} {n : Nat} (hK : Keeps s0 s) :
    Keeps s0 (State.classCount s c n) := by
  unfold State.classCount
  repeat' (first
    | (with_reducible assumption)
    | (intro x; first | ((have hx : Keeps s0 x := ?_); (try clear_value x); rotate_left; dsimp -zeta only [x]; rotate_right) | ((have hx : Keeps s0 x.1 := ?_); (try clear_value x); rotate_left; dsimp -zeta only [x]; rotate_right) | ((have hx : Keeps s0 x.2 := ?_); (try clear_value x); rotate_left; dsimp -zeta only [x]; rotate_right) | (clear_value x) | skip)
    | lift_lets -underBinder
    | (with_reducible refine keeps_getD ?_ ?_)
    | (with_reducible refine keeps_ite ?_ ?_)
    | (fail_if_no_progress beta_reduce)
    | (dsimp only [Keeps, part]; with_reducible refine keeps_of ?_; first | with_reducible assumption)
    | split
    | (refine keeps_ite ?_ ?_))

theorem keeps_commitChange {s0 s : State} {c : FChange} (hK : Keeps s0 s) :
    Keeps s0 (State.commitChange s c) := by
  unfold State.commitChange
  repeat' (first
    | (with_reducible assumption)
    | (intro x; first | ((have hx : Keeps s0 x := ?_); (try clear_value x); rotate_left; dsimp -zeta only [x]; rotate_right) | ((have hx : Keeps s0 x.1 := ?_); (try clear_value x); rotate_left; dsimp -zeta only [x]; rotate_right) | ((have hx : Keeps s0 x.2 := ?_); (try clear_value x); rotate_left; dsimp -zeta only [x]; rotate_right) | ((have hx : ∀ t, Keeps s0 t → Keeps s0 (x t) := ?_); (try clear_value x); rotate_left; dsimp -zeta only [x]; intros; rotate_right) | ((have hx : ∀ t a, Keeps s0 t → Keeps s0 (x t a) := ?_); (try clear_value x); rotate_left; dsimp -zeta only [x]; intros; rotate_right) | ((have hx : ∀ a t, Keeps s0 t → Keeps s0 (x a t) := ?_); (try clear_value x); rotate_left; dsimp -zeta only [x]; intros; rotate_right) | ((have hx : ∀ t a b, Keeps s0 t → Keeps s0 (x t a b) := ?_); (try clear_value x); rotate_left; dsimp -zeta only [x]; intros; rotate_right) | ((have hx : ∀ a b t, Keeps s0 t → Keeps s0 (x a b t) := ?_); (try clear_value x); rotate_left; dsimp -zeta only [x]; intros; rotate_right) | ((have hx : ∀ a, Keeps s0 (x a) := ?_); (try clear_value x); rotate_left; dsimp -zeta only [x]; intros; rotate_right) | (have hf : ∀ a, x a = x a := fun _ => rfl) | (clear_value x) | skip)
    | lift_lets -underBinder
    | (with_reducible refine keeps_put ?_ ..)
    | (with_reducible refine keeps_bump ?_ ..)
    | (with_reducible refine keeps_jSpanSet ?_ ..)
    | (with_reducible refine keeps_jFrameSet ?_ ..)
    | (with_reducible refine keeps_putBand ?_ ..)
    | (with_reducible refine keeps_release ?_ ..)
    | (with_reducible refine keeps_toSpan ?_ ..)
    | (with_reducible refine keeps_classCount ?_ ..)
    | (with_reducible refine keeps_refresh ?_ ..)
    | (with_reducible refine keeps_foldl (fun s x hK => ?_) ?_)
    | (with_reducible refine keeps_foldl_fst (fun s x hK => ?_) ?_)
    | (refine keeps_foldl_eq (by assumption) (fun s x hK => ?_) ?_)
    | (with_reducible refine keeps_ite ?_ ?_)
    | (with_reducible apply_assumption)
    | (fail_if_no_progress beta_reduce)
    | (dsimp only [Keeps, part]; with_reducible refine keeps_of ?_; first | with_reducible assumption | (with_reducible refine keeps_put ?_ ..) | (with_reducible refine keeps_bump ?_ ..) | (with_reducible refine keeps_jSpanSet ?_ ..) | (with_reducible refine keeps_jFrameSet ?_ ..) | (with_reducible refine keeps_putBand ?_ ..) | (with_reducible refine keeps_release ?_ ..) | (with_reducible refine keeps_toSpan ?_ ..) | (with_reducible refine keeps_classCount ?_ ..) | (with_reducible refine keeps_refresh ?_ ..) | (refine keeps_foldl_eq (by assumption) (fun s x hK => ?_) ?_))
    | split
    | (refine keeps_ite ?_ ?_))

theorem keeps_dropFSpan {s0 s : State} {sp : Nat} (hK : Keeps s0 s) :
    Keeps s0 (State.dropFSpan s sp) := by
  unfold State.dropFSpan
  repeat' (first
    | (with_reducible assumption)
    | (intro x; first | ((have hx : Keeps s0 x := ?_); (try clear_value x); rotate_left; dsimp -zeta only [x]; rotate_right) | ((have hx : Keeps s0 x.1 := ?_); (try clear_value x); rotate_left; dsimp -zeta only [x]; rotate_right) | ((have hx : Keeps s0 x.2 := ?_); (try clear_value x); rotate_left; dsimp -zeta only [x]; rotate_right) | (clear_value x) | skip)
    | lift_lets -underBinder
    | (with_reducible refine keeps_journal ?_ ..)
    | (with_reducible refine keeps_release ?_ ..)
    | (with_reducible refine keeps_ite ?_ ?_)
    | (fail_if_no_progress beta_reduce)
    | (dsimp only [Keeps, part]; with_reducible refine keeps_of ?_; first | with_reducible assumption | (with_reducible refine keeps_journal ?_ ..) | (with_reducible refine keeps_release ?_ ..))
    | split
    | (refine keeps_ite ?_ ?_))

theorem keeps_startDemotion {s0 s : State} {sp : Nat} (hK : Keeps s0 s) :
    Keeps s0 (State.startDemotion s sp) := by
  unfold State.startDemotion
  repeat' (first
    | (with_reducible assumption)
    | (intro x; first | ((have hx : Keeps s0 x := ?_); (try clear_value x); rotate_left; dsimp -zeta only [x]; rotate_right) | ((have hx : Keeps s0 x.1 := ?_); (try clear_value x); rotate_left; dsimp -zeta only [x]; rotate_right) | ((have hx : Keeps s0 x.2 := ?_); (try clear_value x); rotate_left; dsimp -zeta only [x]; rotate_right) | (clear_value x) | skip)
    | lift_lets -underBinder
    | (with_reducible refine keeps_ite ?_ ?_)
    | (fail_if_no_progress beta_reduce)
    | (dsimp only [Keeps, part]; with_reducible refine keeps_of ?_; first | with_reducible assumption)
    | split
    | (refine keeps_ite ?_ ?_))

theorem keeps_demoteLoop {s0 s : State} {n : Nat} (hK : Keeps s0 s) :
    Keeps s0 (State.demoteLoop s n) := by
  induction n generalizing s with
  | zero =>
  unfold State.demoteLoop
  repeat' (first
    | (with_reducible assumption)
    | (intro x; first | ((have hx : Keeps s0 x := ?_); (try clear_value x); rotate_left; dsimp -zeta only [x]; rotate_right) | ((have hx : Keeps s0 x.1 := ?_); (try clear_value x); rotate_left; dsimp -zeta only [x]; rotate_right) | ((have hx : Keeps s0 x.2 := ?_); (try clear_value x); rotate_left; dsimp -zeta only [x]; rotate_right) | (clear_value x) | skip)
    | lift_lets -underBinder
    | (with_reducible refine keeps_startDemotion ?_ ..)
    | (with_reducible refine keeps_ite ?_ ?_)
    | (fail_if_no_progress beta_reduce)
    | (dsimp only [Keeps, part]; with_reducible refine keeps_of ?_; first | with_reducible assumption | (with_reducible refine keeps_startDemotion ?_ ..))
    | split
    | (refine keeps_ite ?_ ?_))
  | succ n ih =>
  unfold State.demoteLoop
  repeat' (first
    | (with_reducible assumption)
    | (intro x; first | ((have hx : Keeps s0 x := ?_); (try clear_value x); rotate_left; dsimp -zeta only [x]; rotate_right) | ((have hx : Keeps s0 x.1 := ?_); (try clear_value x); rotate_left; dsimp -zeta only [x]; rotate_right) | ((have hx : Keeps s0 x.2 := ?_); (try clear_value x); rotate_left; dsimp -zeta only [x]; rotate_right) | (clear_value x) | skip)
    | lift_lets -underBinder
    | (with_reducible apply ih)
    | (with_reducible refine keeps_startDemotion ?_ ..)
    | (with_reducible refine keeps_ite ?_ ?_)
    | (fail_if_no_progress beta_reduce)
    | (dsimp only [Keeps, part]; with_reducible refine keeps_of ?_; first | with_reducible assumption | (with_reducible refine keeps_startDemotion ?_ ..))
    | split
    | (refine keeps_ite ?_ ?_))

theorem keeps_planMoves {s0 s : State} (hK : Keeps s0 s) :
    Keeps s0 (State.planMoves s) := by
  unfold State.planMoves
  repeat' (first
    | (with_reducible assumption)
    | (intro x; first | ((have hx : Keeps s0 x := ?_); (try clear_value x); rotate_left; dsimp -zeta only [x]; rotate_right) | ((have hx : Keeps s0 x.1 := ?_); (try clear_value x); rotate_left; dsimp -zeta only [x]; rotate_right) | ((have hx : Keeps s0 x.2 := ?_); (try clear_value x); rotate_left; dsimp -zeta only [x]; rotate_right) | (clear_value x) | skip)
    | lift_lets -underBinder
    | (with_reducible refine keeps_raise ?_ ..)
    | (with_reducible refine keeps_startChange ?_ ..)
    | (with_reducible refine keeps_foldl (fun s x hK => ?_) ?_)
    | (with_reducible refine keeps_foldl_fst (fun s x hK => ?_) ?_)
    | (refine keeps_foldl_eq (by assumption) (fun s x hK => ?_) ?_)
    | (with_reducible refine keeps_ite ?_ ?_)
    | (fail_if_no_progress beta_reduce)
    | (dsimp only [Keeps, part]; with_reducible refine keeps_of ?_; first | with_reducible assumption | (with_reducible refine keeps_raise ?_ ..) | (with_reducible refine keeps_startChange ?_ ..) | (refine keeps_foldl_eq (by assumption) (fun s x hK => ?_) ?_))
    | split
    | (refine keeps_ite ?_ ?_))

theorem keeps_checkDemotion {s0 s : State} (hK : Keeps s0 s) :
    Keeps s0 (State.checkDemotion s) := by
  unfold State.checkDemotion
  repeat' (first
    | (with_reducible assumption)
    | (intro x; first | ((have hx : Keeps s0 x := ?_); (try clear_value x); rotate_left; dsimp -zeta only [x]; rotate_right) | ((have hx : Keeps s0 x.1 := ?_); (try clear_value x); rotate_left; dsimp -zeta only [x]; rotate_right) | ((have hx : Keeps s0 x.2 := ?_); (try clear_value x); rotate_left; dsimp -zeta only [x]; rotate_right) | (clear_value x) | skip)
    | lift_lets -underBinder
    | (with_reducible refine keeps_raise ?_ ..)
    | (with_reducible refine keeps_demoteLoop ?_ ..)
    | (with_reducible refine keeps_planMoves ?_ ..)
    | (with_reducible refine keeps_ite ?_ ?_)
    | (fail_if_no_progress beta_reduce)
    | (dsimp only [Keeps, part]; with_reducible refine keeps_of ?_; first | with_reducible assumption | (with_reducible refine keeps_raise ?_ ..) | (with_reducible refine keeps_demoteLoop ?_ ..) | (with_reducible refine keeps_planMoves ?_ ..))
    | split
    | (refine keeps_ite ?_ ?_))

theorem keeps_commitPromotion {s0 s : State} {sp : Nat} {r : SpanRec} (hK : Keeps s0 s) :
    Keeps s0 (State.commitPromotion s sp r) := by
  unfold State.commitPromotion
  repeat' (first
    | (with_reducible assumption)
    | (intro x; first | ((have hx : Keeps s0 x := ?_); (try clear_value x); rotate_left; dsimp -zeta only [x]; rotate_right) | ((have hx : Keeps s0 x.1 := ?_); (try clear_value x); rotate_left; dsimp -zeta only [x]; rotate_right) | ((have hx : Keeps s0 x.2 := ?_); (try clear_value x); rotate_left; dsimp -zeta only [x]; rotate_right) | (clear_value x) | skip)
    | lift_lets -underBinder
    | (with_reducible refine keeps_put ?_ ..)
    | (with_reducible refine keeps_bump ?_ ..)
    | (with_reducible refine keeps_floatFrame ?_ ..)
    | (with_reducible refine keeps_dropFSpan ?_ ..)
    | (with_reducible refine keeps_foldl (fun s x hK => ?_) ?_)
    | (with_reducible refine keeps_foldl_fst (fun s x hK => ?_) ?_)
    | (refine keeps_foldl_eq (by assumption) (fun s x hK => ?_) ?_)
    | (with_reducible refine keeps_ite ?_ ?_)
    | (fail_if_no_progress beta_reduce)
    | (dsimp only [Keeps, part]; with_reducible refine keeps_of ?_; first | with_reducible assumption | (with_reducible refine keeps_put ?_ ..) | (with_reducible refine keeps_bump ?_ ..) | (with_reducible refine keeps_floatFrame ?_ ..) | (with_reducible refine keeps_dropFSpan ?_ ..) | (refine keeps_foldl_eq (by assumption) (fun s x hK => ?_) ?_))
    | split
    | (refine keeps_ite ?_ ?_))

theorem keeps_abandonDemotion {s0 s : State} {sp : Nat} (hK : Keeps s0 s) :
    Keeps s0 (State.abandonDemotion s sp) := by
  unfold State.abandonDemotion
  repeat' (first
    | (with_reducible assumption)
    | (intro x; first | ((have hx : Keeps s0 x := ?_); (try clear_value x); rotate_left; dsimp -zeta only [x]; rotate_right) | ((have hx : Keeps s0 x.1 := ?_); (try clear_value x); rotate_left; dsimp -zeta only [x]; rotate_right) | ((have hx : Keeps s0 x.2 := ?_); (try clear_value x); rotate_left; dsimp -zeta only [x]; rotate_right) | (clear_value x) | skip)
    | lift_lets -underBinder
    | (with_reducible refine keeps_put ?_ ..)
    | (with_reducible refine keeps_ite ?_ ?_)
    | (fail_if_no_progress beta_reduce)
    | (dsimp only [Keeps, part]; with_reducible refine keeps_of ?_; first | with_reducible assumption | (with_reducible refine keeps_put ?_ ..))
    | split
    | (refine keeps_ite ?_ ?_))

end Sys2Proof.Laws
end

