-- ==== Sys2Proof/Laws/KeepsDesc.lean ====
section
/-! SUPPORT. Every operation of Machine/Desc.lean keeps what Laws/Keeps.lean says. -/

set_option linter.unusedTactic false
set_option linter.unreachableTactic false
set_option linter.unusedVariables false

namespace Sys2Proof.Laws

open Sys2Proof Machine

theorem keeps_putQueue {s0 s : State} {q : Nat} {e : QEntry} (hK : Keeps s0 s) :
    Keeps s0 (State.putQueue s q e) := by
  unfold State.putQueue
  repeat' (first
    | (with_reducible assumption)
    | (intro x; first | ((have hx : Keeps s0 x := ?_); (try clear_value x); rotate_left; dsimp -zeta only [x]; rotate_right) | ((have hx : Keeps s0 x.1 := ?_); (try clear_value x); rotate_left; dsimp -zeta only [x]; rotate_right) | ((have hx : Keeps s0 x.2 := ?_); (try clear_value x); rotate_left; dsimp -zeta only [x]; rotate_right) | (clear_value x) | skip)
    | lift_lets -underBinder
    | (with_reducible refine keeps_put ?_ ..)
    | (with_reducible refine keeps_ite ?_ ?_)
    | (fail_if_no_progress beta_reduce)
    | (dsimp only [Keeps, part]; with_reducible refine keeps_of ?_; first | with_reducible assumption | (with_reducible refine keeps_put ?_ ..))
    | split
    | (refine keeps_ite ?_ ?_))

theorem keeps_putCap {s0 s : State} {q : Nat} {c : Cap} (hK : Keeps s0 s) :
    Keeps s0 (State.putCap s q c) := by
  unfold State.putCap
  repeat' (first
    | (with_reducible assumption)
    | (intro x; first | ((have hx : Keeps s0 x := ?_); (try clear_value x); rotate_left; dsimp -zeta only [x]; rotate_right) | ((have hx : Keeps s0 x.1 := ?_); (try clear_value x); rotate_left; dsimp -zeta only [x]; rotate_right) | ((have hx : Keeps s0 x.2 := ?_); (try clear_value x); rotate_left; dsimp -zeta only [x]; rotate_right) | (clear_value x) | skip)
    | lift_lets -underBinder
    | (with_reducible refine keeps_put ?_ ..)
    | (with_reducible refine keeps_ite ?_ ?_)
    | (fail_if_no_progress beta_reduce)
    | (dsimp only [Keeps, part]; with_reducible refine keeps_of ?_; first | with_reducible assumption | (with_reducible refine keeps_put ?_ ..))
    | split
    | (refine keeps_ite ?_ ?_))

theorem keeps_sendVector {s0 s : State} {q : Nat} (hK : Keeps s0 s) :
    Keeps s0 (State.sendVector s q) := by
  unfold State.sendVector
  repeat' (first
    | (with_reducible assumption)
    | (intro x; first | ((have hx : Keeps s0 x := ?_); (try clear_value x); rotate_left; dsimp -zeta only [x]; rotate_right) | ((have hx : Keeps s0 x.1 := ?_); (try clear_value x); rotate_left; dsimp -zeta only [x]; rotate_right) | ((have hx : Keeps s0 x.2 := ?_); (try clear_value x); rotate_left; dsimp -zeta only [x]; rotate_right) | (clear_value x) | skip)
    | lift_lets -underBinder
    | (with_reducible refine keeps_msix ?_ ..)
    | (with_reducible refine keeps_raise ?_ ..)
    | (with_reducible refine keeps_ite ?_ ?_)
    | (fail_if_no_progress beta_reduce)
    | (dsimp only [Keeps, part]; with_reducible refine keeps_of ?_; first | with_reducible assumption | (with_reducible refine keeps_msix ?_ ..) | (with_reducible refine keeps_raise ?_ ..))
    | split
    | (refine keeps_ite ?_ ?_))

theorem keeps_irqDue {s0 s : State} {q : Nat} (hK : Keeps s0 s) :
    Keeps s0 (State.irqDue s q) := by
  unfold State.irqDue
  repeat' (first
    | (with_reducible assumption)
    | (intro x; first | ((have hx : Keeps s0 x := ?_); (try clear_value x); rotate_left; dsimp -zeta only [x]; rotate_right) | ((have hx : Keeps s0 x.1 := ?_); (try clear_value x); rotate_left; dsimp -zeta only [x]; rotate_right) | ((have hx : Keeps s0 x.2 := ?_); (try clear_value x); rotate_left; dsimp -zeta only [x]; rotate_right) | (clear_value x) | skip)
    | lift_lets -underBinder
    | (with_reducible refine keeps_put ?_ ..)
    | (with_reducible refine keeps_sendVector ?_ ..)
    | (with_reducible refine keeps_ite ?_ ?_)
    | (fail_if_no_progress beta_reduce)
    | (dsimp only [Keeps, part]; with_reducible refine keeps_of ?_; first | with_reducible assumption | (with_reducible refine keeps_put ?_ ..) | (with_reducible refine keeps_sendVector ?_ ..))
    | split
    | (refine keeps_ite ?_ ?_))

theorem keeps_logQueue {s0 s : State} {q : Nat} {code : Nat} {port : Nat} {ld : Nat} (hK : Keeps s0 s) :
    Keeps s0 (State.logQueue s q code port ld) := by
  unfold State.logQueue
  repeat' (first
    | (with_reducible assumption)
    | (intro x; first | ((have hx : Keeps s0 x := ?_); (try clear_value x); rotate_left; dsimp -zeta only [x]; rotate_right) | ((have hx : Keeps s0 x.1 := ?_); (try clear_value x); rotate_left; dsimp -zeta only [x]; rotate_right) | ((have hx : Keeps s0 x.2 := ?_); (try clear_value x); rotate_left; dsimp -zeta only [x]; rotate_right) | (clear_value x) | skip)
    | lift_lets -underBinder
    | (with_reducible refine keeps_put ?_ ..)
    | (with_reducible refine keeps_ite ?_ ?_)
    | (fail_if_no_progress beta_reduce)
    | (dsimp only [Keeps, part]; with_reducible refine keeps_of ?_; first | with_reducible assumption | (with_reducible refine keeps_put ?_ ..))
    | split
    | (refine keeps_ite ?_ ?_))

theorem keeps_queueError {s0 s : State} {q : Nat} {code : Nat} {port : Nat} {ld : Nat} (hK : Keeps s0 s) :
    Keeps s0 (State.queueError s q code port ld) := by
  unfold State.queueError
  repeat' (first
    | (with_reducible assumption)
    | (intro x; first | ((have hx : Keeps s0 x := ?_); (try clear_value x); rotate_left; dsimp -zeta only [x]; rotate_right) | ((have hx : Keeps s0 x.1 := ?_); (try clear_value x); rotate_left; dsimp -zeta only [x]; rotate_right) | ((have hx : Keeps s0 x.2 := ?_); (try clear_value x); rotate_left; dsimp -zeta only [x]; rotate_right) | (clear_value x) | skip)
    | lift_lets -underBinder
    | (with_reducible refine keeps_raiseArg ?_ ..)
    | (with_reducible refine keeps_putQueue ?_ ..)
    | (with_reducible refine keeps_logQueue ?_ ..)
    | (with_reducible refine keeps_ite ?_ ?_)
    | (fail_if_no_progress beta_reduce)
    | (dsimp only [Keeps, part]; with_reducible refine keeps_of ?_; first | with_reducible assumption | (with_reducible refine keeps_raiseArg ?_ ..) | (with_reducible refine keeps_putQueue ?_ ..) | (with_reducible refine keeps_logQueue ?_ ..))
    | split
    | (refine keeps_ite ?_ ?_))

theorem keeps_boltAccess {s0 s : State} {b : Nat} {t : Nat} {write : Bool} {off : Nat} (hK : Keeps s0 s) :
    Keeps s0 (State.boltAccess s b t write off).1 := by
  unfold State.boltAccess
  repeat' (first
    | (with_reducible assumption)
    | (intro x; first | ((have hx : Keeps s0 x := ?_); (try clear_value x); rotate_left; dsimp -zeta only [x]; rotate_right) | ((have hx : Keeps s0 x.1 := ?_); (try clear_value x); rotate_left; dsimp -zeta only [x]; rotate_right) | ((have hx : Keeps s0 x.2 := ?_); (try clear_value x); rotate_left; dsimp -zeta only [x]; rotate_right) | (clear_value x) | skip)
    | lift_lets -underBinder
    | (with_reducible refine keeps_raiseOff ?_ ..)
    | (with_reducible refine keeps_ite ?_ ?_)
    | (fail_if_no_progress beta_reduce)
    | (dsimp only [Keeps, part]; with_reducible refine keeps_of ?_; first | with_reducible assumption | (with_reducible refine keeps_raiseOff ?_ ..))
    | split
    | (refine keeps_ite ?_ ?_))

theorem keeps_boltAccess_eq {s0 s tE : State} {bE : Nat} {b : Nat} {t : Nat} {write : Bool} {off : Nat} (hEq : State.boltAccess s b t write off = (tE, bE)) (hK : Keeps s0 s) : Keeps s0 tE := by
  have k : Keeps s0 (State.boltAccess s b t write off).1 := keeps_boltAccess hK
  rw [hEq] at k
  exact k

theorem keeps_rangeAccess {s0 s : State} {t : Nat} {l : List (Nat × Nat × Bool)} (hK : Keeps s0 s) :
    Keeps s0 (State.rangeAccess s t l).1 := by
  unfold State.rangeAccess
  repeat' (first
    | (with_reducible assumption)
    | (intro x; first | ((have hx : Keeps s0 x := ?_); (try clear_value x); rotate_left; dsimp -zeta only [x]; rotate_right) | ((have hx : Keeps s0 x.1 := ?_); (try clear_value x); rotate_left; dsimp -zeta only [x]; rotate_right) | ((have hx : Keeps s0 x.2 := ?_); (try clear_value x); rotate_left; dsimp -zeta only [x]; rotate_right) | (clear_value x) | skip)
    | lift_lets -underBinder
    | (with_reducible refine keeps_boltAccess ?_ ..)
    | (refine keeps_boltAccess_eq (by assumption) ?_)
    | (with_reducible refine keeps_foldl (fun s x hK => ?_) ?_)
    | (with_reducible refine keeps_foldl_fst (fun s x hK => ?_) ?_)
    | (refine keeps_foldl_eq (by assumption) (fun s x hK => ?_) ?_)
    | (with_reducible refine keeps_ite ?_ ?_)
    | (fail_if_no_progress beta_reduce)
    | (dsimp only [Keeps, part]; with_reducible refine keeps_of ?_; first | with_reducible assumption | (with_reducible refine keeps_boltAccess ?_ ..) | (refine keeps_boltAccess_eq (by assumption) ?_) | (refine keeps_foldl_eq (by assumption) (fun s x hK => ?_) ?_))
    | split
    | (refine keeps_ite ?_ ?_))

theorem keeps_rangeAccess_eq {s0 s tE : State} {bE : Nat} {t : Nat} {l : List (Nat × Nat × Bool)} (hEq : State.rangeAccess s t l = (tE, bE)) (hK : Keeps s0 s) : Keeps s0 tE := by
  have k : Keeps s0 (State.rangeAccess s t l).1 := keeps_rangeAccess hK
  rw [hEq] at k
  exact k

theorem keeps_checkDesc {s0 s : State} {e : QEntry} {d : LineData} (hK : Keeps s0 s) :
    Keeps s0 (State.checkDesc s e d).1 := by
  unfold State.checkDesc
  repeat' (first
    | (with_reducible assumption)
    | (intro x; first | ((have hx : Keeps s0 x := ?_); (try clear_value x); rotate_left; dsimp -zeta only [x]; rotate_right) | ((have hx : Keeps s0 x.1 := ?_); (try clear_value x); rotate_left; dsimp -zeta only [x]; rotate_right) | ((have hx : Keeps s0 x.2 := ?_); (try clear_value x); rotate_left; dsimp -zeta only [x]; rotate_right) | (clear_value x) | skip)
    | lift_lets -underBinder
    | (with_reducible refine keeps_rangeAccess ?_ ..)
    | (refine keeps_rangeAccess_eq (by assumption) ?_)
    | (with_reducible refine keeps_ite ?_ ?_)
    | (fail_if_no_progress beta_reduce)
    | (dsimp only [Keeps, part]; with_reducible refine keeps_of ?_; first | with_reducible assumption | (with_reducible refine keeps_rangeAccess ?_ ..) | (refine keeps_rangeAccess_eq (by assumption) ?_))
    | split
    | (refine keeps_ite ?_ ?_))

theorem keeps_checkDesc_eq {s0 s tE : State} {bE : Nat} {e : QEntry} {d : LineData} (hEq : State.checkDesc s e d = (tE, bE)) (hK : Keeps s0 s) : Keeps s0 tE := by
  have k : Keeps s0 (State.checkDesc s e d).1 := keeps_checkDesc hK
  rw [hEq] at k
  exact k

theorem keeps_putEngine {s0 s : State} {e : Nat} {g : Engine} (hK : Keeps s0 s) :
    Keeps s0 (State.putEngine s e g) := by
  unfold State.putEngine
  repeat' (first
    | (with_reducible assumption)
    | (intro x; first | ((have hx : Keeps s0 x := ?_); (try clear_value x); rotate_left; dsimp -zeta only [x]; rotate_right) | ((have hx : Keeps s0 x.1 := ?_); (try clear_value x); rotate_left; dsimp -zeta only [x]; rotate_right) | ((have hx : Keeps s0 x.2 := ?_); (try clear_value x); rotate_left; dsimp -zeta only [x]; rotate_right) | (clear_value x) | skip)
    | lift_lets -underBinder
    | (with_reducible refine keeps_put ?_ ..)
    | (with_reducible refine keeps_ite ?_ ?_)
    | (fail_if_no_progress beta_reduce)
    | (dsimp only [Keeps, part]; with_reducible refine keeps_of ?_; first | with_reducible assumption | (with_reducible refine keeps_put ?_ ..))
    | split
    | (refine keeps_ite ?_ ?_))

theorem keeps_updRun {s0 s : State} {e : Nat} {f : Run → Run} (hK : Keeps s0 s) :
    Keeps s0 (State.updRun s e f) := by
  unfold State.updRun
  repeat' (first
    | (with_reducible assumption)
    | (intro x; first | ((have hx : Keeps s0 x := ?_); (try clear_value x); rotate_left; dsimp -zeta only [x]; rotate_right) | ((have hx : Keeps s0 x.1 := ?_); (try clear_value x); rotate_left; dsimp -zeta only [x]; rotate_right) | ((have hx : Keeps s0 x.2 := ?_); (try clear_value x); rotate_left; dsimp -zeta only [x]; rotate_right) | (clear_value x) | skip)
    | lift_lets -underBinder
    | (with_reducible refine keeps_putEngine ?_ ..)
    | (with_reducible refine keeps_ite ?_ ?_)
    | (fail_if_no_progress beta_reduce)
    | (dsimp only [Keeps, part]; with_reducible refine keeps_of ?_; first | with_reducible assumption | (with_reducible refine keeps_putEngine ?_ ..))
    | split
    | (refine keeps_ite ?_ ?_))

theorem keeps_putDesc {s0 s : State} {d : Desc} (hK : Keeps s0 s) :
    Keeps s0 (State.putDesc s d) := by
  unfold State.putDesc
  repeat' (first
    | (with_reducible assumption)
    | (intro x; first | ((have hx : Keeps s0 x := ?_); (try clear_value x); rotate_left; dsimp -zeta only [x]; rotate_right) | ((have hx : Keeps s0 x.1 := ?_); (try clear_value x); rotate_left; dsimp -zeta only [x]; rotate_right) | ((have hx : Keeps s0 x.2 := ?_); (try clear_value x); rotate_left; dsimp -zeta only [x]; rotate_right) | (clear_value x) | skip)
    | lift_lets -underBinder
    | (with_reducible refine keeps_ite ?_ ?_)
    | (fail_if_no_progress beta_reduce)
    | (dsimp only [Keeps, part]; with_reducible refine keeps_of ?_; first | with_reducible assumption)
    | split
    | (refine keeps_ite ?_ ?_))

theorem keeps_delDesc {s0 s : State} {q : Nat} {ix : Nat} (hK : Keeps s0 s) :
    Keeps s0 (State.delDesc s q ix) := by
  unfold State.delDesc
  repeat' (first
    | (with_reducible assumption)
    | (intro x; first | ((have hx : Keeps s0 x := ?_); (try clear_value x); rotate_left; dsimp -zeta only [x]; rotate_right) | ((have hx : Keeps s0 x.1 := ?_); (try clear_value x); rotate_left; dsimp -zeta only [x]; rotate_right) | ((have hx : Keeps s0 x.2 := ?_); (try clear_value x); rotate_left; dsimp -zeta only [x]; rotate_right) | (clear_value x) | skip)
    | lift_lets -underBinder
    | (with_reducible refine keeps_ite ?_ ?_)
    | (fail_if_no_progress beta_reduce)
    | (dsimp only [Keeps, part]; with_reducible refine keeps_of ?_; first | with_reducible assumption)
    | split
    | (refine keeps_ite ?_ ?_))

theorem keeps_endDesc {s0 s : State} {q : Nat} {ix : Nat} {code : Nat} (hK : Keeps s0 s) :
    Keeps s0 (State.endDesc s q ix code) := by
  unfold State.endDesc
  repeat' (first
    | (with_reducible assumption)
    | (intro x; first | ((have hx : Keeps s0 x := ?_); (try clear_value x); rotate_left; dsimp -zeta only [x]; rotate_right) | ((have hx : Keeps s0 x.1 := ?_); (try clear_value x); rotate_left; dsimp -zeta only [x]; rotate_right) | ((have hx : Keeps s0 x.2 := ?_); (try clear_value x); rotate_left; dsimp -zeta only [x]; rotate_right) | (clear_value x) | skip)
    | lift_lets -underBinder
    | (with_reducible refine keeps_putDesc ?_ ..)
    | (with_reducible refine keeps_ite ?_ ?_)
    | (fail_if_no_progress beta_reduce)
    | (dsimp only [Keeps, part]; with_reducible refine keeps_of ?_; first | with_reducible assumption | (with_reducible refine keeps_putDesc ?_ ..))
    | split
    | (refine keeps_ite ?_ ?_))

theorem keeps_noteCode {s0 s : State} {q : Nat} {ix : Nat} {code : Nat} (hK : Keeps s0 s) :
    Keeps s0 (State.noteCode s q ix code) := by
  unfold State.noteCode
  repeat' (first
    | (with_reducible assumption)
    | (intro x; first | ((have hx : Keeps s0 x := ?_); (try clear_value x); rotate_left; dsimp -zeta only [x]; rotate_right) | ((have hx : Keeps s0 x.1 := ?_); (try clear_value x); rotate_left; dsimp -zeta only [x]; rotate_right) | ((have hx : Keeps s0 x.2 := ?_); (try clear_value x); rotate_left; dsimp -zeta only [x]; rotate_right) | (clear_value x) | skip)
    | lift_lets -underBinder
    | (with_reducible refine keeps_putDesc ?_ ..)
    | (with_reducible refine keeps_ite ?_ ?_)
    | (fail_if_no_progress beta_reduce)
    | (dsimp only [Keeps, part]; with_reducible refine keeps_of ?_; first | with_reducible assumption | (with_reducible refine keeps_putDesc ?_ ..))
    | split
    | (refine keeps_ite ?_ ?_))

theorem keeps_descPartDone {s0 s : State} {q : Nat} {ix : Nat} {code : Nat} (hK : Keeps s0 s) :
    Keeps s0 (State.descPartDone s q ix code) := by
  unfold State.descPartDone
  repeat' (first
    | (with_reducible assumption)
    | (intro x; first | ((have hx : Keeps s0 x := ?_); (try clear_value x); rotate_left; dsimp -zeta only [x]; rotate_right) | ((have hx : Keeps s0 x.1 := ?_); (try clear_value x); rotate_left; dsimp -zeta only [x]; rotate_right) | ((have hx : Keeps s0 x.2 := ?_); (try clear_value x); rotate_left; dsimp -zeta only [x]; rotate_right) | (clear_value x) | skip)
    | lift_lets -underBinder
    | (with_reducible refine keeps_putDesc ?_ ..)
    | (with_reducible refine keeps_ite ?_ ?_)
    | (fail_if_no_progress beta_reduce)
    | (dsimp only [Keeps, part]; with_reducible refine keeps_of ?_; first | with_reducible assumption | (with_reducible refine keeps_putDesc ?_ ..))
    | split
    | (refine keeps_ite ?_ ?_))

theorem keeps_entryStored {s0 s : State} {d : Desc} {code : Nat} (hK : Keeps s0 s) :
    Keeps s0 (State.entryStored s d code) := by
  unfold State.entryStored
  repeat' (first
    | (with_reducible assumption)
    | (intro x; first | ((have hx : Keeps s0 x := ?_); (try clear_value x); rotate_left; dsimp -zeta only [x]; rotate_right) | ((have hx : Keeps s0 x.1 := ?_); (try clear_value x); rotate_left; dsimp -zeta only [x]; rotate_right) | ((have hx : Keeps s0 x.2 := ?_); (try clear_value x); rotate_left; dsimp -zeta only [x]; rotate_right) | (clear_value x) | skip)
    | lift_lets -underBinder
    | (with_reducible refine keeps_irqDue ?_ ..)
    | (with_reducible refine keeps_queueError ?_ ..)
    | (with_reducible refine keeps_delDesc ?_ ..)
    | (with_reducible refine keeps_ite ?_ ?_)
    | (fail_if_no_progress beta_reduce)
    | (dsimp only [Keeps, part]; with_reducible refine keeps_of ?_; first | with_reducible assumption | (with_reducible refine keeps_irqDue ?_ ..) | (with_reducible refine keeps_queueError ?_ ..) | (with_reducible refine keeps_delDesc ?_ ..))
    | split
    | (refine keeps_ite ?_ ?_))

theorem keeps_takeFetched {s0 s : State} {x : Desc} {data : LineData} {poison : Bool} {code : Nat} (hK : Keeps s0 s) :
    Keeps s0 (State.takeFetched s x data poison code) := by
  unfold State.takeFetched
  repeat' (first
    | (with_reducible assumption)
    | (intro x; first | ((have hx : Keeps s0 x := ?_); (try clear_value x); rotate_left; dsimp -zeta only [x]; rotate_right) | ((have hx : Keeps s0 x.1 := ?_); (try clear_value x); rotate_left; dsimp -zeta only [x]; rotate_right) | ((have hx : Keeps s0 x.2 := ?_); (try clear_value x); rotate_left; dsimp -zeta only [x]; rotate_right) | (clear_value x) | skip)
    | lift_lets -underBinder
    | (with_reducible refine keeps_putQueue ?_ ..)
    | (with_reducible refine keeps_queueError ?_ ..)
    | (with_reducible refine keeps_checkDesc ?_ ..)
    | (refine keeps_checkDesc_eq (by assumption) ?_)
    | (with_reducible refine keeps_putDesc ?_ ..)
    | (with_reducible refine keeps_delDesc ?_ ..)
    | (with_reducible refine keeps_ite ?_ ?_)
    | (fail_if_no_progress beta_reduce)
    | (dsimp only [Keeps, part]; with_reducible refine keeps_of ?_; first | with_reducible assumption | (with_reducible refine keeps_putQueue ?_ ..) | (with_reducible refine keeps_queueError ?_ ..) | (with_reducible refine keeps_checkDesc ?_ ..) | (refine keeps_checkDesc_eq (by assumption) ?_) | (with_reducible refine keeps_putDesc ?_ ..) | (with_reducible refine keeps_delDesc ?_ ..))
    | split
    | (refine keeps_ite ?_ ?_))

end Sys2Proof.Laws
end

