-- ==== Sys2Proof/Laws/KeepsControl.lean ====
section
/-! SUPPORT. Every operation of Machine/Control.lean keeps what Laws/Keeps.lean says. -/

set_option linter.unusedTactic false
set_option linter.unreachableTactic false
set_option linter.unusedVariables false

namespace Sys2Proof.Laws

open Sys2Proof Machine

theorem keeps_releaseSpan {s0 s : State} {sp : Nat} (hK : Keeps s0 s) :
    Keeps s0 (State.releaseSpan s sp) := by
  unfold State.releaseSpan
  repeat' (first
    | (with_reducible assumption)
    | (intro x; first | ((have hx : Keeps s0 x := ?_); (try clear_value x); rotate_left; dsimp -zeta only [x]; rotate_right) | ((have hx : Keeps s0 x.1 := ?_); (try clear_value x); rotate_left; dsimp -zeta only [x]; rotate_right) | ((have hx : Keeps s0 x.2 := ?_); (try clear_value x); rotate_left; dsimp -zeta only [x]; rotate_right) | (clear_value x) | skip)
    | lift_lets -underBinder
    | (with_reducible refine keeps_zeroRange ?_ ..)
    | (with_reducible refine keeps_put ?_ ..)
    | (with_reducible refine keeps_heat ?_ ..)
    | (with_reducible refine keeps_dropLines ?_ ..)
    | (with_reducible refine keeps_dropFSpan ?_ ..)
    | (with_reducible refine keeps_ite ?_ ?_)
    | (fail_if_no_progress beta_reduce)
    | (dsimp only [Keeps, part]; with_reducible refine keeps_of ?_; first | with_reducible assumption | (with_reducible refine keeps_zeroRange ?_ ..) | (with_reducible refine keeps_put ?_ ..) | (with_reducible refine keeps_heat ?_ ..) | (with_reducible refine keeps_dropLines ?_ ..) | (with_reducible refine keeps_dropFSpan ?_ ..))
    | split
    | (refine keeps_ite ?_ ?_))

theorem keeps_copyLine {s0 s : State} {l : Nat} {d : LineData} {poison : Bool} (hK : Keeps s0 s) :
    Keeps s0 (State.copyLine s l d poison) := by
  unfold State.copyLine
  repeat' (first
    | (with_reducible assumption)
    | (intro x; first | ((have hx : Keeps s0 x := ?_); (try clear_value x); rotate_left; dsimp -zeta only [x]; rotate_right) | ((have hx : Keeps s0 x.1 := ?_); (try clear_value x); rotate_left; dsimp -zeta only [x]; rotate_right) | ((have hx : Keeps s0 x.2 := ?_); (try clear_value x); rotate_left; dsimp -zeta only [x]; rotate_right) | (clear_value x) | skip)
    | lift_lets -underBinder
    | (with_reducible refine keeps_put ?_ ..)
    | (with_reducible refine keeps_putLine ?_ ..)
    | (with_reducible refine keeps_poisonLine ?_ ..)
    | (with_reducible refine keeps_clearPoison ?_ ..)
    | (with_reducible refine keeps_putTierD ?_ ..)
    | (with_reducible refine keeps_makeDirty ?_ ..)
    | (with_reducible refine keeps_ite ?_ ?_)
    | (fail_if_no_progress beta_reduce)
    | (dsimp only [Keeps, part]; with_reducible refine keeps_of ?_; first | with_reducible assumption | (with_reducible refine keeps_put ?_ ..) | (with_reducible refine keeps_putLine ?_ ..) | (with_reducible refine keeps_poisonLine ?_ ..) | (with_reducible refine keeps_clearPoison ?_ ..) | (with_reducible refine keeps_putTierD ?_ ..) | (with_reducible refine keeps_makeDirty ?_ ..))
    | split
    | (refine keeps_ite ?_ ?_))

theorem keeps_queueFrames {s0 s : State} {l : List Nat} (hK : Keeps s0 s) :
    Keeps s0 (State.queueFrames s l) := by
  unfold State.queueFrames
  repeat' (first
    | (with_reducible assumption)
    | (intro x; first | ((have hx : Keeps s0 x := ?_); (try clear_value x); rotate_left; dsimp -zeta only [x]; rotate_right) | ((have hx : Keeps s0 x.1 := ?_); (try clear_value x); rotate_left; dsimp -zeta only [x]; rotate_right) | ((have hx : Keeps s0 x.2 := ?_); (try clear_value x); rotate_left; dsimp -zeta only [x]; rotate_right) | (clear_value x) | skip)
    | lift_lets -underBinder
    | (with_reducible refine keeps_foldl (fun s x hK => ?_) ?_)
    | (with_reducible refine keeps_foldl_fst (fun s x hK => ?_) ?_)
    | (refine keeps_foldl_eq (by assumption) (fun s x hK => ?_) ?_)
    | (with_reducible refine keeps_ite ?_ ?_)
    | (fail_if_no_progress beta_reduce)
    | (dsimp only [Keeps, part]; with_reducible refine keeps_of ?_; first | with_reducible assumption | (refine keeps_foldl_eq (by assumption) (fun s x hK => ?_) ?_))
    | split
    | (refine keeps_ite ?_ ?_))

theorem keeps_ownFlush {s0 s : State} {id : Nat} {lo : Nat} {n : Nat} (hK : Keeps s0 s) :
    Keeps s0 (State.ownFlush s id lo n).1 := by
  unfold State.ownFlush
  repeat' (first
    | (with_reducible assumption)
    | (intro x; first | ((have hx : Keeps s0 x := ?_); (try clear_value x); rotate_left; dsimp -zeta only [x]; rotate_right) | ((have hx : Keeps s0 x.1 := ?_); (try clear_value x); rotate_left; dsimp -zeta only [x]; rotate_right) | ((have hx : Keeps s0 x.2 := ?_); (try clear_value x); rotate_left; dsimp -zeta only [x]; rotate_right) | (clear_value x) | skip)
    | lift_lets -underBinder
    | (with_reducible refine keeps_queueFrames ?_ ..)
    | (with_reducible refine keeps_ite ?_ ?_)
    | (fail_if_no_progress beta_reduce)
    | (dsimp only [Keeps, part]; with_reducible refine keeps_of ?_; first | with_reducible assumption | (with_reducible refine keeps_queueFrames ?_ ..))
    | split
    | (refine keeps_ite ?_ ?_))

theorem keeps_ownFlush_eq {s0 s tE : State} {bE : PartEnd} {id : Nat} {lo : Nat} {n : Nat} (hEq : State.ownFlush s id lo n = (tE, bE)) (hK : Keeps s0 s) : Keeps s0 tE := by
  have k : Keeps s0 (State.ownFlush s id lo n).1 := keeps_ownFlush hK
  rw [hEq] at k
  exact k

theorem keeps_ownMigrate {s0 s : State} {id : Nat} {lo : Nat} {n : Nat} {toF : Bool} {check : Bool} (hK : Keeps s0 s) :
    Keeps s0 (State.ownMigrate s id lo n toF check).1 := by
  unfold State.ownMigrate
  repeat' (first
    | (with_reducible assumption)
    | (intro x; first | ((have hx : Keeps s0 x := ?_); (try clear_value x); rotate_left; dsimp -zeta only [x]; rotate_right) | ((have hx : Keeps s0 x.1 := ?_); (try clear_value x); rotate_left; dsimp -zeta only [x]; rotate_right) | ((have hx : Keeps s0 x.2 := ?_); (try clear_value x); rotate_left; dsimp -zeta only [x]; rotate_right) | (clear_value x) | skip)
    | lift_lets -underBinder
    | (with_reducible refine keeps_startPromotion ?_ ..)
    | (with_reducible refine keeps_queueFrames ?_ ..)
    | (with_reducible refine keeps_foldl (fun s x hK => ?_) ?_)
    | (with_reducible refine keeps_foldl_fst (fun s x hK => ?_) ?_)
    | (refine keeps_foldl_eq (by assumption) (fun s x hK => ?_) ?_)
    | (with_reducible refine keeps_ite ?_ ?_)
    | (fail_if_no_progress beta_reduce)
    | (dsimp only [Keeps, part]; with_reducible refine keeps_of ?_; first | with_reducible assumption | (with_reducible refine keeps_startPromotion ?_ ..) | (with_reducible refine keeps_queueFrames ?_ ..) | (refine keeps_foldl_eq (by assumption) (fun s x hK => ?_) ?_))
    | split
    | (refine keeps_ite ?_ ?_))

theorem keeps_ownMigrate_eq {s0 s tE : State} {bE : PartEnd} {id : Nat} {lo : Nat} {n : Nat} {toF : Bool} {check : Bool} (hEq : State.ownMigrate s id lo n toF check = (tE, bE)) (hK : Keeps s0 s) : Keeps s0 tE := by
  have k : Keeps s0 (State.ownMigrate s id lo n toF check).1 := keeps_ownMigrate hK
  rw [hEq] at k
  exact k

theorem keeps_stepMoves {s0 s : State} (hK : Keeps s0 s) :
    Keeps s0 (State.stepMoves s).1 := by
  unfold State.stepMoves
  repeat' (first
    | (with_reducible assumption)
    | (intro x; first | ((have hx : Keeps s0 x := ?_); (try clear_value x); rotate_left; dsimp -zeta only [x]; rotate_right) | ((have hx : Keeps s0 x.1 := ?_); (try clear_value x); rotate_left; dsimp -zeta only [x]; rotate_right) | ((have hx : Keeps s0 x.2 := ?_); (try clear_value x); rotate_left; dsimp -zeta only [x]; rotate_right) | ((have hx : ∀ t, Keeps s0 t → Keeps s0 (x t) := ?_); (try clear_value x); rotate_left; dsimp -zeta only [x]; intros; rotate_right) | ((have hx : ∀ t a, Keeps s0 t → Keeps s0 (x t a) := ?_); (try clear_value x); rotate_left; dsimp -zeta only [x]; intros; rotate_right) | ((have hx : ∀ a t, Keeps s0 t → Keeps s0 (x a t) := ?_); (try clear_value x); rotate_left; dsimp -zeta only [x]; intros; rotate_right) | ((have hx : ∀ t a b, Keeps s0 t → Keeps s0 (x t a b) := ?_); (try clear_value x); rotate_left; dsimp -zeta only [x]; intros; rotate_right) | ((have hx : ∀ a b t, Keeps s0 t → Keeps s0 (x a b t) := ?_); (try clear_value x); rotate_left; dsimp -zeta only [x]; intros; rotate_right) | ((have hx : ∀ a, Keeps s0 (x a) := ?_); (try clear_value x); rotate_left; dsimp -zeta only [x]; intros; rotate_right) | (have hf : ∀ a, x a = x a := fun _ => rfl) | (clear_value x) | skip)
    | lift_lets -underBinder
    | (with_reducible refine keeps_startDemotion ?_ ..)
    | (with_reducible refine keeps_planMoves ?_ ..)
    | (with_reducible refine keeps_foldl (fun s x hK => ?_) ?_)
    | (with_reducible refine keeps_foldl_fst (fun s x hK => ?_) ?_)
    | (refine keeps_foldl_eq (by assumption) (fun s x hK => ?_) ?_)
    | (with_reducible refine keeps_ite ?_ ?_)
    | (with_reducible apply_assumption)
    | (fail_if_no_progress beta_reduce)
    | (dsimp only [Keeps, part]; with_reducible refine keeps_of ?_; first | with_reducible assumption | (with_reducible refine keeps_startDemotion ?_ ..) | (with_reducible refine keeps_planMoves ?_ ..) | (refine keeps_foldl_eq (by assumption) (fun s x hK => ?_) ?_))
    | split
    | (refine keeps_ite ?_ ?_))

theorem keeps_stepMoves_eq {s0 s tE : State} {bE : List Nat} (hEq : State.stepMoves s = (tE, bE)) (hK : Keeps s0 s) : Keeps s0 tE := by
  have k : Keeps s0 (State.stepMoves s).1 := keeps_stepMoves hK
  rw [hEq] at k
  exact k

theorem keeps_setPin {s0 s : State} {sp : Nat} {x : Pin} (hK : Keeps s0 s) :
    Keeps s0 (State.setPin s sp x) := by
  unfold State.setPin
  repeat' (first
    | (with_reducible assumption)
    | (intro x; first | ((have hx : Keeps s0 x := ?_); (try clear_value x); rotate_left; dsimp -zeta only [x]; rotate_right) | ((have hx : Keeps s0 x.1 := ?_); (try clear_value x); rotate_left; dsimp -zeta only [x]; rotate_right) | ((have hx : Keeps s0 x.2 := ?_); (try clear_value x); rotate_left; dsimp -zeta only [x]; rotate_right) | (clear_value x) | skip)
    | lift_lets -underBinder
    | (with_reducible refine keeps_put ?_ ..)
    | (with_reducible refine keeps_heat ?_ ..)
    | (with_reducible refine keeps_getD ?_ ?_)
    | (with_reducible refine keeps_ite ?_ ?_)
    | (fail_if_no_progress beta_reduce)
    | (dsimp only [Keeps, part]; with_reducible refine keeps_of ?_; first | with_reducible assumption | (with_reducible refine keeps_put ?_ ..) | (with_reducible refine keeps_heat ?_ ..))
    | split
    | (refine keeps_ite ?_ ?_))

theorem keeps_fillD {s0 s : State} {sp : Nat} (hK : Keeps s0 s) :
    Keeps s0 (State.fillD s sp) := by
  unfold State.fillD
  repeat' (first
    | (with_reducible assumption)
    | (intro x; first | ((have hx : Keeps s0 x := ?_); (try clear_value x); rotate_left; dsimp -zeta only [x]; rotate_right) | ((have hx : Keeps s0 x.1 := ?_); (try clear_value x); rotate_left; dsimp -zeta only [x]; rotate_right) | ((have hx : Keeps s0 x.2 := ?_); (try clear_value x); rotate_left; dsimp -zeta only [x]; rotate_right) | (clear_value x) | skip)
    | lift_lets -underBinder
    | (with_reducible refine keeps_allocD ?_ ..)
    | (with_reducible refine keeps_foldl (fun s x hK => ?_) ?_)
    | (with_reducible refine keeps_foldl_fst (fun s x hK => ?_) ?_)
    | (refine keeps_foldl_eq (by assumption) (fun s x hK => ?_) ?_)
    | (with_reducible refine keeps_ite ?_ ?_)
    | (fail_if_no_progress beta_reduce)
    | (dsimp only [Keeps, part]; with_reducible refine keeps_of ?_; first | with_reducible assumption | (with_reducible refine keeps_allocD ?_ ..) | (refine keeps_foldl_eq (by assumption) (fun s x hK => ?_) ?_))
    | split
    | (refine keeps_ite ?_ ?_))

theorem keeps_fillPins {s0 s : State} (hK : Keeps s0 s) :
    Keeps s0 (State.fillPins s) := by
  unfold State.fillPins
  repeat' (first
    | (with_reducible assumption)
    | (intro x; first | ((have hx : Keeps s0 x := ?_); (try clear_value x); rotate_left; dsimp -zeta only [x]; rotate_right) | ((have hx : Keeps s0 x.1 := ?_); (try clear_value x); rotate_left; dsimp -zeta only [x]; rotate_right) | ((have hx : Keeps s0 x.2 := ?_); (try clear_value x); rotate_left; dsimp -zeta only [x]; rotate_right) | (clear_value x) | skip)
    | lift_lets -underBinder
    | (with_reducible refine keeps_fillD ?_ ..)
    | (with_reducible refine keeps_foldl (fun s x hK => ?_) ?_)
    | (with_reducible refine keeps_foldl_fst (fun s x hK => ?_) ?_)
    | (refine keeps_foldl_eq (by assumption) (fun s x hK => ?_) ?_)
    | (with_reducible refine keeps_ite ?_ ?_)
    | (fail_if_no_progress beta_reduce)
    | (dsimp only [Keeps, part]; with_reducible refine keeps_of ?_; first | with_reducible assumption | (with_reducible refine keeps_fillD ?_ ..) | (refine keeps_foldl_eq (by assumption) (fun s x hK => ?_) ?_))
    | split
    | (refine keeps_ite ?_ ?_))

theorem keeps_ownPin {s0 s : State} {lo : Nat} {n : Nat} {d : Bool} {check : Bool} (hK : Keeps s0 s) :
    Keeps s0 (State.ownPin s lo n d check).1 := by
  unfold State.ownPin
  repeat' (first
    | (with_reducible assumption)
    | (intro x; first | ((have hx : Keeps s0 x := ?_); (try clear_value x); rotate_left; dsimp -zeta only [x]; rotate_right) | ((have hx : Keeps s0 x.1 := ?_); (try clear_value x); rotate_left; dsimp -zeta only [x]; rotate_right) | ((have hx : Keeps s0 x.2 := ?_); (try clear_value x); rotate_left; dsimp -zeta only [x]; rotate_right) | (clear_value x) | skip)
    | lift_lets -underBinder
    | (with_reducible refine keeps_startPromotion ?_ ..)
    | (with_reducible refine keeps_abandonDemotion ?_ ..)
    | (with_reducible refine keeps_setPin ?_ ..)
    | (with_reducible refine keeps_fillD ?_ ..)
    | (with_reducible refine keeps_foldl (fun s x hK => ?_) ?_)
    | (with_reducible refine keeps_foldl_fst (fun s x hK => ?_) ?_)
    | (refine keeps_foldl_eq (by assumption) (fun s x hK => ?_) ?_)
    | (with_reducible refine keeps_ite ?_ ?_)
    | (fail_if_no_progress beta_reduce)
    | (dsimp only [Keeps, part]; with_reducible refine keeps_of ?_; first | with_reducible assumption | (with_reducible refine keeps_startPromotion ?_ ..) | (with_reducible refine keeps_abandonDemotion ?_ ..) | (with_reducible refine keeps_setPin ?_ ..) | (with_reducible refine keeps_fillD ?_ ..) | (refine keeps_foldl_eq (by assumption) (fun s x hK => ?_) ?_))
    | split
    | (refine keeps_ite ?_ ?_))

theorem keeps_ownPin_eq {s0 s tE : State} {bE : PartEnd} {lo : Nat} {n : Nat} {d : Bool} {check : Bool} (hEq : State.ownPin s lo n d check = (tE, bE)) (hK : Keeps s0 s) : Keeps s0 tE := by
  have k : Keeps s0 (State.ownPin s lo n d check).1 := keeps_ownPin hK
  rw [hEq] at k
  exact k

theorem keeps_ownUnpin {s0 s : State} {lo : Nat} {n : Nat} (hK : Keeps s0 s) :
    Keeps s0 (State.ownUnpin s lo n).1 := by
  unfold State.ownUnpin
  repeat' (first
    | (with_reducible assumption)
    | (intro x; first | ((have hx : Keeps s0 x := ?_); (try clear_value x); rotate_left; dsimp -zeta only [x]; rotate_right) | ((have hx : Keeps s0 x.1 := ?_); (try clear_value x); rotate_left; dsimp -zeta only [x]; rotate_right) | ((have hx : Keeps s0 x.2 := ?_); (try clear_value x); rotate_left; dsimp -zeta only [x]; rotate_right) | (clear_value x) | skip)
    | lift_lets -underBinder
    | (with_reducible refine keeps_setPin ?_ ..)
    | (with_reducible refine keeps_foldl (fun s x hK => ?_) ?_)
    | (with_reducible refine keeps_foldl_fst (fun s x hK => ?_) ?_)
    | (refine keeps_foldl_eq (by assumption) (fun s x hK => ?_) ?_)
    | (with_reducible refine keeps_ite ?_ ?_)
    | (fail_if_no_progress beta_reduce)
    | (dsimp only [Keeps, part]; with_reducible refine keeps_of ?_; first | with_reducible assumption | (with_reducible refine keeps_setPin ?_ ..) | (refine keeps_foldl_eq (by assumption) (fun s x hK => ?_) ?_))
    | split
    | (refine keeps_ite ?_ ?_))

theorem keeps_ownUnpin_eq {s0 s tE : State} {bE : PartEnd} {lo : Nat} {n : Nat} (hEq : State.ownUnpin s lo n = (tE, bE)) (hK : Keeps s0 s) : Keeps s0 tE := by
  have k : Keeps s0 (State.ownUnpin s lo n).1 := keeps_ownUnpin hK
  rw [hEq] at k
  exact k

theorem keeps_freeFrame {s0 s : State} {f : Nat} (hK : Keeps s0 s) :
    Keeps s0 (State.freeFrame s f) := by
  unfold State.freeFrame
  repeat' (first
    | (with_reducible assumption)
    | (intro x; first | ((have hx : Keeps s0 x := ?_); (try clear_value x); rotate_left; dsimp -zeta only [x]; rotate_right) | ((have hx : Keeps s0 x.1 := ?_); (try clear_value x); rotate_left; dsimp -zeta only [x]; rotate_right) | ((have hx : Keeps s0 x.2 := ?_); (try clear_value x); rotate_left; dsimp -zeta only [x]; rotate_right) | (clear_value x) | skip)
    | lift_lets -underBinder
    | (with_reducible refine keeps_zeroRange ?_ ..)
    | (with_reducible refine keeps_dropLines ?_ ..)
    | (with_reducible refine keeps_journal ?_ ..)
    | (with_reducible refine keeps_release ?_ ..)
    | (with_reducible refine keeps_ite ?_ ?_)
    | (fail_if_no_progress beta_reduce)
    | (dsimp only [Keeps, part]; with_reducible refine keeps_of ?_; first | with_reducible assumption | (with_reducible refine keeps_zeroRange ?_ ..) | (with_reducible refine keeps_dropLines ?_ ..) | (with_reducible refine keeps_journal ?_ ..) | (with_reducible refine keeps_release ?_ ..))
    | split
    | (refine keeps_ite ?_ ?_))

theorem keeps_discardPart {s0 s : State} {sp : Nat} {lo : Nat} {n : Nat} (hK : Keeps s0 s) :
    Keeps s0 (State.discardPart s sp lo n) := by
  unfold State.discardPart
  repeat' (first
    | (with_reducible assumption)
    | (intro x; first | ((have hx : Keeps s0 x := ?_); (try clear_value x); rotate_left; dsimp -zeta only [x]; rotate_right) | ((have hx : Keeps s0 x.1 := ?_); (try clear_value x); rotate_left; dsimp -zeta only [x]; rotate_right) | ((have hx : Keeps s0 x.2 := ?_); (try clear_value x); rotate_left; dsimp -zeta only [x]; rotate_right) | (clear_value x) | skip)
    | lift_lets -underBinder
    | (with_reducible refine keeps_raise ?_ ..)
    | (with_reducible refine keeps_toFine ?_ ..)
    | (with_reducible refine keeps_countSubw ?_ ..)
    | (with_reducible refine keeps_releaseSpan ?_ ..)
    | (with_reducible refine keeps_freeFrame ?_ ..)
    | (with_reducible refine keeps_foldl (fun s x hK => ?_) ?_)
    | (with_reducible refine keeps_foldl_fst (fun s x hK => ?_) ?_)
    | (refine keeps_foldl_eq (by assumption) (fun s x hK => ?_) ?_)
    | (with_reducible refine keeps_ite ?_ ?_)
    | (fail_if_no_progress beta_reduce)
    | (dsimp only [Keeps, part]; with_reducible refine keeps_of ?_; first | with_reducible assumption | (with_reducible refine keeps_raise ?_ ..) | (with_reducible refine keeps_toFine ?_ ..) | (with_reducible refine keeps_countSubw ?_ ..) | (with_reducible refine keeps_releaseSpan ?_ ..) | (with_reducible refine keeps_freeFrame ?_ ..) | (refine keeps_foldl_eq (by assumption) (fun s x hK => ?_) ?_))
    | split
    | (refine keeps_ite ?_ ?_))

theorem keeps_discardPoison {s0 s : State} {lo : Nat} {n : Nat} (hK : Keeps s0 s) :
    Keeps s0 (State.discardPoison s lo n) := by
  unfold State.discardPoison
  repeat' (first
    | (with_reducible assumption)
    | (intro x; first | ((have hx : Keeps s0 x := ?_); (try clear_value x); rotate_left; dsimp -zeta only [x]; rotate_right) | ((have hx : Keeps s0 x.1 := ?_); (try clear_value x); rotate_left; dsimp -zeta only [x]; rotate_right) | ((have hx : Keeps s0 x.2 := ?_); (try clear_value x); rotate_left; dsimp -zeta only [x]; rotate_right) | (clear_value x) | skip)
    | lift_lets -underBinder
    | (with_reducible refine keeps_startSpanWrite ?_ ..)
    | (with_reducible refine keeps_copyLine ?_ ..)
    | (with_reducible refine keeps_foldl (fun s x hK => ?_) ?_)
    | (with_reducible refine keeps_foldl_fst (fun s x hK => ?_) ?_)
    | (refine keeps_foldl_eq (by assumption) (fun s x hK => ?_) ?_)
    | (with_reducible refine keeps_ite ?_ ?_)
    | (fail_if_no_progress beta_reduce)
    | (dsimp only [Keeps, part]; with_reducible refine keeps_of ?_; first | with_reducible assumption | (with_reducible refine keeps_startSpanWrite ?_ ..) | (with_reducible refine keeps_copyLine ?_ ..) | (refine keeps_foldl_eq (by assumption) (fun s x hK => ?_) ?_))
    | split
    | (refine keeps_ite ?_ ?_))

theorem keeps_ownDiscard {s0 s : State} {lo : Nat} {n : Nat} (hK : Keeps s0 s) :
    Keeps s0 (State.ownDiscard s lo n).1 := by
  unfold State.ownDiscard
  repeat' (first
    | (with_reducible assumption)
    | (intro x; first | ((have hx : Keeps s0 x := ?_); (try clear_value x); rotate_left; dsimp -zeta only [x]; rotate_right) | ((have hx : Keeps s0 x.1 := ?_); (try clear_value x); rotate_left; dsimp -zeta only [x]; rotate_right) | ((have hx : Keeps s0 x.2 := ?_); (try clear_value x); rotate_left; dsimp -zeta only [x]; rotate_right) | (clear_value x) | skip)
    | lift_lets -underBinder
    | (with_reducible refine keeps_releaseSpan ?_ ..)
    | (with_reducible refine keeps_discardPart ?_ ..)
    | (with_reducible refine keeps_discardPoison ?_ ..)
    | (with_reducible refine keeps_foldl (fun s x hK => ?_) ?_)
    | (with_reducible refine keeps_foldl_fst (fun s x hK => ?_) ?_)
    | (refine keeps_foldl_eq (by assumption) (fun s x hK => ?_) ?_)
    | (with_reducible refine keeps_ite ?_ ?_)
    | (fail_if_no_progress beta_reduce)
    | (dsimp only [Keeps, part]; with_reducible refine keeps_of ?_; first | with_reducible assumption | (with_reducible refine keeps_releaseSpan ?_ ..) | (with_reducible refine keeps_discardPart ?_ ..) | (with_reducible refine keeps_discardPoison ?_ ..) | (refine keeps_foldl_eq (by assumption) (fun s x hK => ?_) ?_))
    | split
    | (refine keeps_ite ?_ ?_))

theorem keeps_ownDiscard_eq {s0 s tE : State} {bE : PartEnd} {lo : Nat} {n : Nat} (hEq : State.ownDiscard s lo n = (tE, bE)) (hK : Keeps s0 s) : Keeps s0 tE := by
  have k : Keeps s0 (State.ownDiscard s lo n).1 := keeps_ownDiscard hK
  rw [hEq] at k
  exact k

theorem keeps_ownPart {s0 s : State} {id : Nat} {d : LineData} {active : Bool} (hK : Keeps s0 s) :
    Keeps s0 (State.ownPart s id d active).1 := by
  unfold State.ownPart
  repeat' (first
    | (with_reducible assumption)
    | (intro x; first | ((have hx : Keeps s0 x := ?_); (try clear_value x); rotate_left; dsimp -zeta only [x]; rotate_right) | ((have hx : Keeps s0 x.1 := ?_); (try clear_value x); rotate_left; dsimp -zeta only [x]; rotate_right) | ((have hx : Keeps s0 x.2 := ?_); (try clear_value x); rotate_left; dsimp -zeta only [x]; rotate_right) | (clear_value x) | skip)
    | lift_lets -underBinder
    | (with_reducible refine keeps_ownFlush ?_ ..)
    | (refine keeps_ownFlush_eq (by assumption) ?_)
    | (with_reducible refine keeps_ownMigrate ?_ ..)
    | (refine keeps_ownMigrate_eq (by assumption) ?_)
    | (with_reducible refine keeps_ownPin ?_ ..)
    | (refine keeps_ownPin_eq (by assumption) ?_)
    | (with_reducible refine keeps_ownUnpin ?_ ..)
    | (refine keeps_ownUnpin_eq (by assumption) ?_)
    | (with_reducible refine keeps_ownDiscard ?_ ..)
    | (refine keeps_ownDiscard_eq (by assumption) ?_)
    | (with_reducible refine keeps_ite ?_ ?_)
    | (fail_if_no_progress beta_reduce)
    | (dsimp only [Keeps, part]; with_reducible refine keeps_of ?_; first | with_reducible assumption | (with_reducible refine keeps_ownFlush ?_ ..) | (refine keeps_ownFlush_eq (by assumption) ?_) | (with_reducible refine keeps_ownMigrate ?_ ..) | (refine keeps_ownMigrate_eq (by assumption) ?_) | (with_reducible refine keeps_ownPin ?_ ..) | (refine keeps_ownPin_eq (by assumption) ?_) | (with_reducible refine keeps_ownUnpin ?_ ..) | (refine keeps_ownUnpin_eq (by assumption) ?_) | (with_reducible refine keeps_ownDiscard ?_ ..) | (refine keeps_ownDiscard_eq (by assumption) ?_))
    | split
    | (refine keeps_ite ?_ ?_))

theorem keeps_ownPart_eq {s0 s tE : State} {bE : PartEnd} {id : Nat} {d : LineData} {active : Bool} (hEq : State.ownPart s id d active = (tE, bE)) (hK : Keeps s0 s) : Keeps s0 tE := by
  have k : Keeps s0 (State.ownPart s id d active).1 := keeps_ownPart hK
  rw [hEq] at k
  exact k

end Sys2Proof.Laws
end

