-- ==== Sys2Proof/Laws/KeepsPath.lean ====
section
/-! SUPPORT. Every operation of Machine/Path.lean keeps what Laws/Keeps.lean says. -/

set_option linter.unusedTactic false
set_option linter.unreachableTactic false
set_option linter.unusedVariables false

namespace Sys2Proof.Laws

open Sys2Proof Machine

theorem keeps_putReq {s0 s : State} {r : Req} (hK : Keeps s0 s) :
    Keeps s0 (State.putReq s r) := by
  unfold State.putReq
  repeat' (first
    | (with_reducible assumption)
    | (intro x; first | ((have hx : Keeps s0 x := ?_); (try clear_value x); rotate_left; dsimp -zeta only [x]; rotate_right) | ((have hx : Keeps s0 x.1 := ?_); (try clear_value x); rotate_left; dsimp -zeta only [x]; rotate_right) | ((have hx : Keeps s0 x.2 := ?_); (try clear_value x); rotate_left; dsimp -zeta only [x]; rotate_right) | (clear_value x) | skip)
    | lift_lets -underBinder
    | (with_reducible refine keeps_ite ?_ ?_)
    | (fail_if_no_progress beta_reduce)
    | (dsimp only [Keeps, part]; with_reducible refine keeps_of ?_; first | with_reducible assumption)
    | split
    | (refine keeps_ite ?_ ?_))

theorem keeps_delReq {s0 s : State} {id : Nat} (hK : Keeps s0 s) :
    Keeps s0 (State.delReq s id) := by
  unfold State.delReq
  repeat' (first
    | (with_reducible assumption)
    | (intro x; first | ((have hx : Keeps s0 x := ?_); (try clear_value x); rotate_left; dsimp -zeta only [x]; rotate_right) | ((have hx : Keeps s0 x.1 := ?_); (try clear_value x); rotate_left; dsimp -zeta only [x]; rotate_right) | ((have hx : Keeps s0 x.2 := ?_); (try clear_value x); rotate_left; dsimp -zeta only [x]; rotate_right) | (clear_value x) | skip)
    | lift_lets -underBinder
    | (with_reducible refine keeps_ite ?_ ?_)
    | (fail_if_no_progress beta_reduce)
    | (dsimp only [Keeps, part]; with_reducible refine keeps_of ?_; first | with_reducible assumption)
    | split
    | (refine keeps_ite ?_ ?_))

theorem keeps_finish {s0 s : State} {r : Req} {code : Nat} {data : LineData} {poison : Bool} (hK : Keeps s0 s) :
    Keeps s0 (State.finish s r code data poison) := by
  unfold State.finish
  repeat' (first
    | (with_reducible assumption)
    | (intro x; first | ((have hx : Keeps s0 x := ?_); (try clear_value x); rotate_left; dsimp -zeta only [x]; rotate_right) | ((have hx : Keeps s0 x.1 := ?_); (try clear_value x); rotate_left; dsimp -zeta only [x]; rotate_right) | ((have hx : Keeps s0 x.2 := ?_); (try clear_value x); rotate_left; dsimp -zeta only [x]; rotate_right) | (clear_value x) | skip)
    | lift_lets -underBinder
    | (with_reducible refine keeps_putReq ?_ ..)
    | (with_reducible refine keeps_ite ?_ ?_)
    | (fail_if_no_progress beta_reduce)
    | (dsimp only [Keeps, part]; with_reducible refine keeps_of ?_; first | with_reducible assumption | (with_reducible refine keeps_putReq ?_ ..))
    | split
    | (refine keeps_ite ?_ ?_))

theorem keeps_fail {s0 s : State} {r : Req} {code : Nat} (hK : Keeps s0 s) :
    Keeps s0 (State.fail s r code) := by
  unfold State.fail
  repeat' (first
    | (with_reducible assumption)
    | (intro x; first | ((have hx : Keeps s0 x := ?_); (try clear_value x); rotate_left; dsimp -zeta only [x]; rotate_right) | ((have hx : Keeps s0 x.1 := ?_); (try clear_value x); rotate_left; dsimp -zeta only [x]; rotate_right) | ((have hx : Keeps s0 x.2 := ?_); (try clear_value x); rotate_left; dsimp -zeta only [x]; rotate_right) | (clear_value x) | skip)
    | lift_lets -underBinder
    | (with_reducible refine keeps_nextFree ?_ ..)
    | (refine keeps_nextFree_eq (by assumption) ?_)
    | (with_reducible refine keeps_finish ?_ ..)
    | (with_reducible refine keeps_ite ?_ ?_)
    | (fail_if_no_progress beta_reduce)
    | (dsimp only [Keeps, part]; with_reducible refine keeps_of ?_; first | with_reducible assumption | (with_reducible refine keeps_nextFree ?_ ..) | (refine keeps_nextFree_eq (by assumption) ?_) | (with_reducible refine keeps_finish ?_ ..))
    | split
    | (refine keeps_ite ?_ ?_))

theorem keeps_hold {s0 s : State} {r : Req} {why : HoldWhy} (hK : Keeps s0 s) :
    Keeps s0 (State.hold s r why) := by
  unfold State.hold
  repeat' (first
    | (with_reducible assumption)
    | (intro x; first | ((have hx : Keeps s0 x := ?_); (try clear_value x); rotate_left; dsimp -zeta only [x]; rotate_right) | ((have hx : Keeps s0 x.1 := ?_); (try clear_value x); rotate_left; dsimp -zeta only [x]; rotate_right) | ((have hx : Keeps s0 x.2 := ?_); (try clear_value x); rotate_left; dsimp -zeta only [x]; rotate_right) | (clear_value x) | skip)
    | lift_lets -underBinder
    | (with_reducible refine keeps_putReq ?_ ..)
    | (with_reducible refine keeps_getD ?_ ?_)
    | (with_reducible refine keeps_ite ?_ ?_)
    | (fail_if_no_progress beta_reduce)
    | (dsimp only [Keeps, part]; with_reducible refine keeps_of ?_; first | with_reducible assumption | (with_reducible refine keeps_putReq ?_ ..))
    | split
    | (refine keeps_ite ?_ ?_))

theorem keeps_waitBehind {s0 s : State} {r : Req} (hK : Keeps s0 s) :
    Keeps s0 (State.waitBehind s r) := by
  unfold State.waitBehind
  repeat' (first
    | (with_reducible assumption)
    | (intro x; first | ((have hx : Keeps s0 x := ?_); (try clear_value x); rotate_left; dsimp -zeta only [x]; rotate_right) | ((have hx : Keeps s0 x.1 := ?_); (try clear_value x); rotate_left; dsimp -zeta only [x]; rotate_right) | ((have hx : Keeps s0 x.2 := ?_); (try clear_value x); rotate_left; dsimp -zeta only [x]; rotate_right) | (clear_value x) | skip)
    | lift_lets -underBinder
    | (with_reducible refine keeps_putReq ?_ ..)
    | (with_reducible refine keeps_getD ?_ ?_)
    | (with_reducible refine keeps_ite ?_ ?_)
    | (fail_if_no_progress beta_reduce)
    | (dsimp only [Keeps, part]; with_reducible refine keeps_of ?_; first | with_reducible assumption | (with_reducible refine keeps_putReq ?_ ..))
    | split
    | (refine keeps_ite ?_ ?_))

theorem keeps_finishRead {s0 s : State} {r : Req} (hK : Keeps s0 s) :
    Keeps s0 (State.finishRead s r) := by
  unfold State.finishRead
  repeat' (first
    | (with_reducible assumption)
    | (intro x; first | ((have hx : Keeps s0 x := ?_); (try clear_value x); rotate_left; dsimp -zeta only [x]; rotate_right) | ((have hx : Keeps s0 x.1 := ?_); (try clear_value x); rotate_left; dsimp -zeta only [x]; rotate_right) | ((have hx : Keeps s0 x.2 := ?_); (try clear_value x); rotate_left; dsimp -zeta only [x]; rotate_right) | (clear_value x) | skip)
    | lift_lets -underBinder
    | (with_reducible refine keeps_nextFree ?_ ..)
    | (refine keeps_nextFree_eq (by assumption) ?_)
    | (with_reducible refine keeps_finish ?_ ..)
    | (with_reducible refine keeps_hold ?_ ..)
    | (with_reducible refine keeps_getD ?_ ?_)
    | (with_reducible refine keeps_ite ?_ ?_)
    | (fail_if_no_progress beta_reduce)
    | (dsimp only [Keeps, part]; with_reducible refine keeps_of ?_; first | with_reducible assumption | (with_reducible refine keeps_nextFree ?_ ..) | (refine keeps_nextFree_eq (by assumption) ?_) | (with_reducible refine keeps_finish ?_ ..) | (with_reducible refine keeps_hold ?_ ..))
    | split
    | (refine keeps_ite ?_ ?_))

theorem keeps_badRead {s0 s : State} {r : Req} (hK : Keeps s0 s) :
    Keeps s0 (State.badRead s r) := by
  unfold State.badRead
  repeat' (first
    | (with_reducible assumption)
    | (intro x; first | ((have hx : Keeps s0 x := ?_); (try clear_value x); rotate_left; dsimp -zeta only [x]; rotate_right) | ((have hx : Keeps s0 x.1 := ?_); (try clear_value x); rotate_left; dsimp -zeta only [x]; rotate_right) | ((have hx : Keeps s0 x.2 := ?_); (try clear_value x); rotate_left; dsimp -zeta only [x]; rotate_right) | (clear_value x) | skip)
    | lift_lets -underBinder
    | (with_reducible refine keeps_nextFree ?_ ..)
    | (refine keeps_nextFree_eq (by assumption) ?_)
    | (with_reducible refine keeps_finish ?_ ..)
    | (with_reducible refine keeps_ite ?_ ?_)
    | (fail_if_no_progress beta_reduce)
    | (dsimp only [Keeps, part]; with_reducible refine keeps_of ?_; first | with_reducible assumption | (with_reducible refine keeps_nextFree ?_ ..) | (refine keeps_nextFree_eq (by assumption) ?_) | (with_reducible refine keeps_finish ?_ ..))
    | split
    | (refine keeps_ite ?_ ?_))

theorem keeps_fillQueue {s0 s : State} {sub : Nat} (hK : Keeps s0 s) :
    Keeps s0 (State.fillQueue s sub) := by
  unfold State.fillQueue
  repeat' (first
    | (with_reducible assumption)
    | (intro x; first | ((have hx : Keeps s0 x := ?_); (try clear_value x); rotate_left; dsimp -zeta only [x]; rotate_right) | ((have hx : Keeps s0 x.1 := ?_); (try clear_value x); rotate_left; dsimp -zeta only [x]; rotate_right) | ((have hx : Keeps s0 x.2 := ?_); (try clear_value x); rotate_left; dsimp -zeta only [x]; rotate_right) | (clear_value x) | skip)
    | lift_lets -underBinder
    | (with_reducible refine keeps_put ?_ ..)
    | (with_reducible refine keeps_ite ?_ ?_)
    | (fail_if_no_progress beta_reduce)
    | (dsimp only [Keeps, part]; with_reducible refine keeps_of ?_; first | with_reducible assumption | (with_reducible refine keeps_put ?_ ..))
    | split
    | (refine keeps_ite ?_ ?_))

theorem keeps_addMiss {s0 s : State} {l : Nat} {first : Bool} (hK : Keeps s0 s) :
    Keeps s0 (State.addMiss s l first) := by
  unfold State.addMiss
  repeat' (first
    | (with_reducible assumption)
    | (intro x; first | ((have hx : Keeps s0 x := ?_); (try clear_value x); rotate_left; dsimp -zeta only [x]; rotate_right) | ((have hx : Keeps s0 x.1 := ?_); (try clear_value x); rotate_left; dsimp -zeta only [x]; rotate_right) | ((have hx : Keeps s0 x.2 := ?_); (try clear_value x); rotate_left; dsimp -zeta only [x]; rotate_right) | (clear_value x) | skip)
    | lift_lets -underBinder
    | (with_reducible refine keeps_flashRead ?_ ..)
    | (with_reducible refine keeps_fillQueue ?_ ..)
    | (with_reducible refine keeps_getD ?_ ?_)
    | (with_reducible refine keeps_ite ?_ ?_)
    | (fail_if_no_progress beta_reduce)
    | (dsimp only [Keeps, part]; with_reducible refine keeps_of ?_; first | with_reducible assumption | (with_reducible refine keeps_flashRead ?_ ..) | (with_reducible refine keeps_fillQueue ?_ ..))
    | split
    | (refine keeps_ite ?_ ?_))

theorem keeps_sendRepair {s0 s : State} {l : Nat} {n : Nat} (hK : Keeps s0 s) :
    Keeps s0 (State.sendRepair s l n).2 := by
  unfold State.sendRepair
  repeat' (first
    | (with_reducible assumption)
    | (intro x; first | ((have hx : Keeps s0 x := ?_); (try clear_value x); rotate_left; dsimp -zeta only [x]; rotate_right) | ((have hx : Keeps s0 x.1 := ?_); (try clear_value x); rotate_left; dsimp -zeta only [x]; rotate_right) | ((have hx : Keeps s0 x.2 := ?_); (try clear_value x); rotate_left; dsimp -zeta only [x]; rotate_right) | (clear_value x) | skip)
    | lift_lets -underBinder
    | (with_reducible refine keeps_newTag ?_ ..)
    | (refine keeps_newTag_eq (by assumption) ?_)
    | (with_reducible refine keeps_sendStream ?_ ..)
    | (with_reducible refine keeps_ite ?_ ?_)
    | (fail_if_no_progress beta_reduce)
    | (dsimp only [Keeps, part]; with_reducible refine keeps_of ?_; first | with_reducible assumption | (with_reducible refine keeps_newTag ?_ ..) | (refine keeps_newTag_eq (by assumption) ?_) | (with_reducible refine keeps_sendStream ?_ ..))
    | split
    | (refine keeps_ite ?_ ?_))

theorem keeps_sendRepair_eq {s0 s tE : State} {bE : Nat} {l : Nat} {n : Nat} (hEq : State.sendRepair s l n = (bE, tE)) (hK : Keeps s0 s) : Keeps s0 tE := by
  have k : Keeps s0 (State.sendRepair s l n).2 := keeps_sendRepair hK
  rw [hEq] at k
  exact k

theorem keeps_endFill {s0 s : State} {l : Nat} (hK : Keeps s0 s) :
    Keeps s0 (State.endFill s l) := by
  unfold State.endFill
  repeat' (first
    | (with_reducible assumption)
    | (intro x; first | ((have hx : Keeps s0 x := ?_); (try clear_value x); rotate_left; dsimp -zeta only [x]; rotate_right) | ((have hx : Keeps s0 x.1 := ?_); (try clear_value x); rotate_left; dsimp -zeta only [x]; rotate_right) | ((have hx : Keeps s0 x.2 := ?_); (try clear_value x); rotate_left; dsimp -zeta only [x]; rotate_right) | (clear_value x) | skip)
    | lift_lets -underBinder
    | (with_reducible refine keeps_put ?_ ..)
    | (with_reducible refine keeps_putTierD ?_ ..)
    | (with_reducible refine keeps_fillQueue ?_ ..)
    | (with_reducible refine keeps_ite ?_ ?_)
    | (fail_if_no_progress beta_reduce)
    | (dsimp only [Keeps, part]; with_reducible refine keeps_of ?_; first | with_reducible assumption | (with_reducible refine keeps_put ?_ ..) | (with_reducible refine keeps_putTierD ?_ ..) | (with_reducible refine keeps_fillQueue ?_ ..))
    | split
    | (refine keeps_ite ?_ ?_))

theorem keeps_frameOutcome {s0 s : State} {l : Nat} {c : Nat} (hK : Keeps s0 s) :
    Keeps s0 (State.frameOutcome s l c) := by
  unfold State.frameOutcome
  repeat' (first
    | (with_reducible assumption)
    | (intro x; first | ((have hx : Keeps s0 x := ?_); (try clear_value x); rotate_left; dsimp -zeta only [x]; rotate_right) | ((have hx : Keeps s0 x.1 := ?_); (try clear_value x); rotate_left; dsimp -zeta only [x]; rotate_right) | ((have hx : Keeps s0 x.2 := ?_); (try clear_value x); rotate_left; dsimp -zeta only [x]; rotate_right) | (clear_value x) | skip)
    | lift_lets -underBinder
    | (with_reducible refine keeps_classCount ?_ ..)
    | (with_reducible refine keeps_ite ?_ ?_)
    | (fail_if_no_progress beta_reduce)
    | (dsimp only [Keeps, part]; with_reducible refine keeps_of ?_; first | with_reducible assumption | (with_reducible refine keeps_classCount ?_ ..))
    | split
    | (refine keeps_ite ?_ ?_))

theorem keeps_poisonRead {s0 s : State} {l : Nat} {src : Nat} (hK : Keeps s0 s) :
    Keeps s0 (State.poisonRead s l src) := by
  unfold State.poisonRead
  repeat' (first
    | (with_reducible assumption)
    | (intro x; first | ((have hx : Keeps s0 x := ?_); (try clear_value x); rotate_left; dsimp -zeta only [x]; rotate_right) | ((have hx : Keeps s0 x.1 := ?_); (try clear_value x); rotate_left; dsimp -zeta only [x]; rotate_right) | ((have hx : Keeps s0 x.2 := ?_); (try clear_value x); rotate_left; dsimp -zeta only [x]; rotate_right) | (clear_value x) | skip)
    | lift_lets -underBinder
    | (with_reducible refine keeps_poisonLine ?_ ..)
    | (with_reducible refine keeps_finishRead ?_ ..)
    | (with_reducible refine keeps_endFill ?_ ..)
    | (with_reducible refine keeps_frameOutcome ?_ ..)
    | (with_reducible refine keeps_foldl (fun s x hK => ?_) ?_)
    | (with_reducible refine keeps_foldl_fst (fun s x hK => ?_) ?_)
    | (refine keeps_foldl_eq (by assumption) (fun s x hK => ?_) ?_)
    | (with_reducible refine keeps_ite ?_ ?_)
    | (fail_if_no_progress beta_reduce)
    | (dsimp only [Keeps, part]; with_reducible refine keeps_of ?_; first | with_reducible assumption | (with_reducible refine keeps_poisonLine ?_ ..) | (with_reducible refine keeps_finishRead ?_ ..) | (with_reducible refine keeps_endFill ?_ ..) | (with_reducible refine keeps_frameOutcome ?_ ..) | (refine keeps_foldl_eq (by assumption) (fun s x hK => ?_) ?_))
    | split
    | (refine keeps_ite ?_ ?_))

theorem keeps_deviceRepair {s0 s : State} {l : Nat} {src : Nat} (hK : Keeps s0 s) :
    Keeps s0 (State.deviceRepair s l src) := by
  unfold State.deviceRepair
  repeat' (first
    | (with_reducible assumption)
    | (intro x; first | ((have hx : Keeps s0 x := ?_); (try clear_value x); rotate_left; dsimp -zeta only [x]; rotate_right) | ((have hx : Keeps s0 x.1 := ?_); (try clear_value x); rotate_left; dsimp -zeta only [x]; rotate_right) | ((have hx : Keeps s0 x.2 := ?_); (try clear_value x); rotate_left; dsimp -zeta only [x]; rotate_right) | (clear_value x) | skip)
    | lift_lets -underBinder
    | (with_reducible refine keeps_loseBytes ?_ ..)
    | (with_reducible refine keeps_sendRepair ?_ ..)
    | (refine keeps_sendRepair_eq (by assumption) ?_)
    | (with_reducible refine keeps_poisonRead ?_ ..)
    | (with_reducible refine keeps_ite ?_ ?_)
    | (fail_if_no_progress beta_reduce)
    | (dsimp only [Keeps, part]; with_reducible refine keeps_of ?_; first | with_reducible assumption | (with_reducible refine keeps_loseBytes ?_ ..) | (with_reducible refine keeps_sendRepair ?_ ..) | (refine keeps_sendRepair_eq (by assumption) ?_) | (with_reducible refine keeps_poisonRead ?_ ..))
    | split
    | (refine keeps_ite ?_ ?_))

theorem keeps_repairLost {s0 s : State} (hK : Keeps s0 s) :
    Keeps s0 (State.repairLost s) := by
  unfold State.repairLost
  repeat' (first
    | (with_reducible assumption)
    | (intro x; first | ((have hx : Keeps s0 x := ?_); (try clear_value x); rotate_left; dsimp -zeta only [x]; rotate_right) | ((have hx : Keeps s0 x.1 := ?_); (try clear_value x); rotate_left; dsimp -zeta only [x]; rotate_right) | ((have hx : Keeps s0 x.2 := ?_); (try clear_value x); rotate_left; dsimp -zeta only [x]; rotate_right) | (clear_value x) | skip)
    | lift_lets -underBinder
    | (with_reducible refine keeps_deviceRepair ?_ ..)
    | (with_reducible refine keeps_foldl (fun s x hK => ?_) ?_)
    | (with_reducible refine keeps_foldl_fst (fun s x hK => ?_) ?_)
    | (refine keeps_foldl_eq (by assumption) (fun s x hK => ?_) ?_)
    | (with_reducible refine keeps_ite ?_ ?_)
    | (fail_if_no_progress beta_reduce)
    | (dsimp only [Keeps, part]; with_reducible refine keeps_of ?_; first | with_reducible assumption | (with_reducible refine keeps_deviceRepair ?_ ..) | (refine keeps_foldl_eq (by assumption) (fun s x hK => ?_) ?_))
    | split
    | (refine keeps_ite ?_ ?_))

theorem keeps_startRepair {s0 s : State} {l : Nat} {src : Nat} (hK : Keeps s0 s) :
    Keeps s0 (State.startRepair s l src) := by
  unfold State.startRepair
  repeat' (first
    | (with_reducible assumption)
    | (intro x; first | ((have hx : Keeps s0 x := ?_); (try clear_value x); rotate_left; dsimp -zeta only [x]; rotate_right) | ((have hx : Keeps s0 x.1 := ?_); (try clear_value x); rotate_left; dsimp -zeta only [x]; rotate_right) | ((have hx : Keeps s0 x.2 := ?_); (try clear_value x); rotate_left; dsimp -zeta only [x]; rotate_right) | (clear_value x) | skip)
    | lift_lets -underBinder
    | (with_reducible refine keeps_loseBytes ?_ ..)
    | (with_reducible refine keeps_putReq ?_ ..)
    | (with_reducible refine keeps_badRead ?_ ..)
    | (with_reducible refine keeps_sendRepair ?_ ..)
    | (refine keeps_sendRepair_eq (by assumption) ?_)
    | (with_reducible refine keeps_endFill ?_ ..)
    | (with_reducible refine keeps_poisonRead ?_ ..)
    | (with_reducible refine keeps_deviceRepair ?_ ..)
    | (with_reducible refine keeps_foldl (fun s x hK => ?_) ?_)
    | (with_reducible refine keeps_foldl_fst (fun s x hK => ?_) ?_)
    | (refine keeps_foldl_eq (by assumption) (fun s x hK => ?_) ?_)
    | (with_reducible refine keeps_ite ?_ ?_)
    | (fail_if_no_progress beta_reduce)
    | (dsimp only [Keeps, part]; with_reducible refine keeps_of ?_; first | with_reducible assumption | (with_reducible refine keeps_loseBytes ?_ ..) | (with_reducible refine keeps_putReq ?_ ..) | (with_reducible refine keeps_badRead ?_ ..) | (with_reducible refine keeps_sendRepair ?_ ..) | (refine keeps_sendRepair_eq (by assumption) ?_) | (with_reducible refine keeps_endFill ?_ ..) | (with_reducible refine keeps_poisonRead ?_ ..) | (with_reducible refine keeps_deviceRepair ?_ ..) | (refine keeps_foldl_eq (by assumption) (fun s x hK => ?_) ?_))
    | split
    | (refine keeps_ite ?_ ?_))

theorem keeps_install {s0 s : State} {l : Nat} {d : LineData} (hK : Keeps s0 s) :
    Keeps s0 (State.install s l d) := by
  unfold State.install
  repeat' (first
    | (with_reducible assumption)
    | (intro x; first | ((have hx : Keeps s0 x := ?_); (try clear_value x); rotate_left; dsimp -zeta only [x]; rotate_right) | ((have hx : Keeps s0 x.1 := ?_); (try clear_value x); rotate_left; dsimp -zeta only [x]; rotate_right) | ((have hx : Keeps s0 x.2 := ?_); (try clear_value x); rotate_left; dsimp -zeta only [x]; rotate_right) | (clear_value x) | skip)
    | lift_lets -underBinder
    | (with_reducible refine keeps_putLine ?_ ..)
    | (with_reducible refine keeps_put ?_ ..)
    | (with_reducible refine keeps_bump ?_ ..)
    | (with_reducible refine keeps_raise ?_ ..)
    | (with_reducible refine keeps_health ?_ ..)
    | (with_reducible refine keeps_putTierD ?_ ..)
    | (with_reducible refine keeps_makeDirty ?_ ..)
    | (with_reducible refine keeps_finishRead ?_ ..)
    | (with_reducible refine keeps_endFill ?_ ..)
    | (with_reducible refine keeps_frameOutcome ?_ ..)
    | (with_reducible refine keeps_foldl (fun s x hK => ?_) ?_)
    | (with_reducible refine keeps_foldl_fst (fun s x hK => ?_) ?_)
    | (refine keeps_foldl_eq (by assumption) (fun s x hK => ?_) ?_)
    | (with_reducible refine keeps_ite ?_ ?_)
    | (fail_if_no_progress beta_reduce)
    | (dsimp only [Keeps, part]; with_reducible refine keeps_of ?_; first | with_reducible assumption | (with_reducible refine keeps_putLine ?_ ..) | (with_reducible refine keeps_put ?_ ..) | (with_reducible refine keeps_bump ?_ ..) | (with_reducible refine keeps_raise ?_ ..) | (with_reducible refine keeps_health ?_ ..) | (with_reducible refine keeps_putTierD ?_ ..) | (with_reducible refine keeps_makeDirty ?_ ..) | (with_reducible refine keeps_finishRead ?_ ..) | (with_reducible refine keeps_endFill ?_ ..) | (with_reducible refine keeps_frameOutcome ?_ ..) | (refine keeps_foldl_eq (by assumption) (fun s x hK => ?_) ?_))
    | split
    | (refine keeps_ite ?_ ?_))

theorem keeps_takeRepair {s0 s : State} {l : Nat} {d : LineData} (hK : Keeps s0 s) :
    Keeps s0 (State.takeRepair s l d) := by
  unfold State.takeRepair
  repeat' (first
    | (with_reducible assumption)
    | (intro x; first | ((have hx : Keeps s0 x := ?_); (try clear_value x); rotate_left; dsimp -zeta only [x]; rotate_right) | ((have hx : Keeps s0 x.1 := ?_); (try clear_value x); rotate_left; dsimp -zeta only [x]; rotate_right) | ((have hx : Keeps s0 x.2 := ?_); (try clear_value x); rotate_left; dsimp -zeta only [x]; rotate_right) | (clear_value x) | skip)
    | lift_lets -underBinder
    | (with_reducible refine keeps_startSpanWrite ?_ ..)
    | (with_reducible refine keeps_putReq ?_ ..)
    | (with_reducible refine keeps_install ?_ ..)
    | (with_reducible refine keeps_foldl (fun s x hK => ?_) ?_)
    | (with_reducible refine keeps_foldl_fst (fun s x hK => ?_) ?_)
    | (refine keeps_foldl_eq (by assumption) (fun s x hK => ?_) ?_)
    | (with_reducible refine keeps_ite ?_ ?_)
    | (fail_if_no_progress beta_reduce)
    | (dsimp only [Keeps, part]; with_reducible refine keeps_of ?_; first | with_reducible assumption | (with_reducible refine keeps_startSpanWrite ?_ ..) | (with_reducible refine keeps_putReq ?_ ..) | (with_reducible refine keeps_install ?_ ..) | (refine keeps_foldl_eq (by assumption) (fun s x hK => ?_) ?_))
    | split
    | (refine keeps_ite ?_ ?_))

theorem keeps_heatLines {s0 s : State} {l : List Nat} (hK : Keeps s0 s) :
    Keeps s0 (State.heatLines s l) := by
  unfold State.heatLines
  repeat' (first
    | (with_reducible assumption)
    | (intro x; first | ((have hx : Keeps s0 x := ?_); (try clear_value x); rotate_left; dsimp -zeta only [x]; rotate_right) | ((have hx : Keeps s0 x.1 := ?_); (try clear_value x); rotate_left; dsimp -zeta only [x]; rotate_right) | ((have hx : Keeps s0 x.2 := ?_); (try clear_value x); rotate_left; dsimp -zeta only [x]; rotate_right) | (clear_value x) | skip)
    | lift_lets -underBinder
    | (with_reducible refine keeps_heat ?_ ..)
    | (with_reducible refine keeps_foldl (fun s x hK => ?_) ?_)
    | (with_reducible refine keeps_foldl_fst (fun s x hK => ?_) ?_)
    | (refine keeps_foldl_eq (by assumption) (fun s x hK => ?_) ?_)
    | (with_reducible refine keeps_ite ?_ ?_)
    | (fail_if_no_progress beta_reduce)
    | (dsimp only [Keeps, part]; with_reducible refine keeps_of ?_; first | with_reducible assumption | (with_reducible refine keeps_heat ?_ ..) | (refine keeps_foldl_eq (by assumption) (fun s x hK => ?_) ?_))
    | split
    | (refine keeps_ite ?_ ?_))

theorem keeps_markFilling {s0 s : State} {l : Nat} (hK : Keeps s0 s) :
    Keeps s0 (State.markFilling s l) := by
  unfold State.markFilling
  repeat' (first
    | (with_reducible assumption)
    | (intro x; first | ((have hx : Keeps s0 x := ?_); (try clear_value x); rotate_left; dsimp -zeta only [x]; rotate_right) | ((have hx : Keeps s0 x.1 := ?_); (try clear_value x); rotate_left; dsimp -zeta only [x]; rotate_right) | ((have hx : Keeps s0 x.2 := ?_); (try clear_value x); rotate_left; dsimp -zeta only [x]; rotate_right) | (clear_value x) | skip)
    | lift_lets -underBinder
    | (with_reducible refine keeps_put ?_ ..)
    | (with_reducible refine keeps_ite ?_ ?_)
    | (fail_if_no_progress beta_reduce)
    | (dsimp only [Keeps, part]; with_reducible refine keeps_of ?_; first | with_reducible assumption | (with_reducible refine keeps_put ?_ ..))
    | split
    | (refine keeps_ite ?_ ?_))

theorem keeps_noEntry {s0 s : State} {r : Req} (hK : Keeps s0 s) :
    Keeps s0 (State.noEntry s r) := by
  unfold State.noEntry
  repeat' (first
    | (with_reducible assumption)
    | (intro x; first | ((have hx : Keeps s0 x := ?_); (try clear_value x); rotate_left; dsimp -zeta only [x]; rotate_right) | ((have hx : Keeps s0 x.1 := ?_); (try clear_value x); rotate_left; dsimp -zeta only [x]; rotate_right) | ((have hx : Keeps s0 x.2 := ?_); (try clear_value x); rotate_left; dsimp -zeta only [x]; rotate_right) | (clear_value x) | skip)
    | lift_lets -underBinder
    | (with_reducible refine keeps_raise ?_ ..)
    | (with_reducible refine keeps_putReq ?_ ..)
    | (with_reducible refine keeps_ite ?_ ?_)
    | (fail_if_no_progress beta_reduce)
    | (dsimp only [Keeps, part]; with_reducible refine keeps_of ?_; first | with_reducible assumption | (with_reducible refine keeps_raise ?_ ..) | (with_reducible refine keeps_putReq ?_ ..))
    | split
    | (refine keeps_ite ?_ ?_))

theorem keeps_badCrown {s0 s : State} {r : Req} (hK : Keeps s0 s) :
    Keeps s0 (State.badCrown s r) := by
  unfold State.badCrown
  repeat' (first
    | (with_reducible assumption)
    | (intro x; first | ((have hx : Keeps s0 x := ?_); (try clear_value x); rotate_left; dsimp -zeta only [x]; rotate_right) | ((have hx : Keeps s0 x.1 := ?_); (try clear_value x); rotate_left; dsimp -zeta only [x]; rotate_right) | ((have hx : Keeps s0 x.2 := ?_); (try clear_value x); rotate_left; dsimp -zeta only [x]; rotate_right) | (clear_value x) | skip)
    | lift_lets -underBinder
    | (with_reducible refine keeps_put ?_ ..)
    | (with_reducible refine keeps_readBeats ?_ ..)
    | (with_reducible refine keeps_newBeats ?_ ..)
    | (with_reducible refine keeps_putReq ?_ ..)
    | (with_reducible refine keeps_startRepair ?_ ..)
    | (with_reducible refine keeps_ite ?_ ?_)
    | (fail_if_no_progress beta_reduce)
    | (dsimp only [Keeps, part]; with_reducible refine keeps_of ?_; first | with_reducible assumption | (with_reducible refine keeps_put ?_ ..) | (with_reducible refine keeps_readBeats ?_ ..) | (with_reducible refine keeps_newBeats ?_ ..) | (with_reducible refine keeps_putReq ?_ ..) | (with_reducible refine keeps_startRepair ?_ ..))
    | split
    | (refine keeps_ite ?_ ?_))

theorem keeps_lookUp {s0 s : State} {r : Req} {first : Bool} (hK : Keeps s0 s) :
    Keeps s0 (State.lookUp s r first) := by
  unfold State.lookUp
  repeat' (first
    | (with_reducible assumption)
    | (intro x; first | ((have hx : Keeps s0 x := ?_); (try clear_value x); rotate_left; dsimp -zeta only [x]; rotate_right) | ((have hx : Keeps s0 x.1 := ?_); (try clear_value x); rotate_left; dsimp -zeta only [x]; rotate_right) | ((have hx : Keeps s0 x.2 := ?_); (try clear_value x); rotate_left; dsimp -zeta only [x]; rotate_right) | ((have hx : ∀ t, Keeps s0 t → Keeps s0 (x t) := ?_); (try clear_value x); rotate_left; dsimp -zeta only [x]; intros; rotate_right) | ((have hx : ∀ t a, Keeps s0 t → Keeps s0 (x t a) := ?_); (try clear_value x); rotate_left; dsimp -zeta only [x]; intros; rotate_right) | ((have hx : ∀ a t, Keeps s0 t → Keeps s0 (x a t) := ?_); (try clear_value x); rotate_left; dsimp -zeta only [x]; intros; rotate_right) | ((have hx : ∀ t a b, Keeps s0 t → Keeps s0 (x t a b) := ?_); (try clear_value x); rotate_left; dsimp -zeta only [x]; intros; rotate_right) | ((have hx : ∀ a b t, Keeps s0 t → Keeps s0 (x a b t) := ?_); (try clear_value x); rotate_left; dsimp -zeta only [x]; intros; rotate_right) | ((have hx : ∀ a, Keeps s0 (x a) := ?_); (try clear_value x); rotate_left; dsimp -zeta only [x]; intros; rotate_right) | (have hf : ∀ a, x a = x a := fun _ => rfl) | (clear_value x) | skip)
    | lift_lets -underBinder
    | (with_reducible refine keeps_bump ?_ ..)
    | (with_reducible refine keeps_heat ?_ ..)
    | (with_reducible refine keeps_readBeats ?_ ..)
    | (with_reducible refine keeps_allocCrown_o ?_ ..)
    | (refine keeps_allocCrown_eq (by assumption) ?_)
    | (with_reducible refine keeps_putReq ?_ ..)
    | (with_reducible refine keeps_finishRead ?_ ..)
    | (with_reducible refine keeps_addMiss ?_ ..)
    | (with_reducible refine keeps_markFilling ?_ ..)
    | (with_reducible refine keeps_noEntry ?_ ..)
    | (with_reducible refine keeps_badCrown ?_ ..)
    | (with_reducible refine keeps_ite ?_ ?_)
    | (with_reducible apply_assumption)
    | (fail_if_no_progress beta_reduce)
    | (dsimp only [Keeps, part]; with_reducible refine keeps_of ?_; first | with_reducible assumption | (with_reducible refine keeps_bump ?_ ..) | (with_reducible refine keeps_heat ?_ ..) | (with_reducible refine keeps_readBeats ?_ ..) | (with_reducible refine keeps_allocCrown_o ?_ ..) | (refine keeps_allocCrown_eq (by assumption) ?_) | (with_reducible refine keeps_putReq ?_ ..) | (with_reducible refine keeps_finishRead ?_ ..) | (with_reducible refine keeps_addMiss ?_ ..) | (with_reducible refine keeps_markFilling ?_ ..) | (with_reducible refine keeps_noEntry ?_ ..) | (with_reducible refine keeps_badCrown ?_ ..))
    | split
    | (refine keeps_ite ?_ ?_))

theorem keeps_startRead {s0 s : State} {r : Req} {first : Bool} (hK : Keeps s0 s) :
    Keeps s0 (State.startRead s r first) := by
  unfold State.startRead
  repeat' (first
    | (with_reducible assumption)
    | (intro x; first | ((have hx : Keeps s0 x := ?_); (try clear_value x); rotate_left; dsimp -zeta only [x]; rotate_right) | ((have hx : Keeps s0 x.1 := ?_); (try clear_value x); rotate_left; dsimp -zeta only [x]; rotate_right) | ((have hx : Keeps s0 x.2 := ?_); (try clear_value x); rotate_left; dsimp -zeta only [x]; rotate_right) | (clear_value x) | skip)
    | lift_lets -underBinder
    | (with_reducible refine keeps_useSpan ?_ ..)
    | (with_reducible refine keeps_putReq ?_ ..)
    | (with_reducible refine keeps_badRead ?_ ..)
    | (with_reducible refine keeps_lookUp ?_ ..)
    | (with_reducible refine keeps_ite ?_ ?_)
    | (fail_if_no_progress beta_reduce)
    | (dsimp only [Keeps, part]; with_reducible refine keeps_of ?_; first | with_reducible assumption | (with_reducible refine keeps_useSpan ?_ ..) | (with_reducible refine keeps_putReq ?_ ..) | (with_reducible refine keeps_badRead ?_ ..) | (with_reducible refine keeps_lookUp ?_ ..))
    | split
    | (refine keeps_ite ?_ ?_))

theorem keeps_startVerify {s0 s : State} {r : Req} (hK : Keeps s0 s) :
    Keeps s0 (State.startVerify s r) := by
  unfold State.startVerify
  repeat' (first
    | (with_reducible assumption)
    | (intro x; first | ((have hx : Keeps s0 x := ?_); (try clear_value x); rotate_left; dsimp -zeta only [x]; rotate_right) | ((have hx : Keeps s0 x.1 := ?_); (try clear_value x); rotate_left; dsimp -zeta only [x]; rotate_right) | ((have hx : Keeps s0 x.2 := ?_); (try clear_value x); rotate_left; dsimp -zeta only [x]; rotate_right) | (clear_value x) | skip)
    | lift_lets -underBinder
    | (with_reducible refine keeps_flashRead ?_ ..)
    | (with_reducible refine keeps_heat ?_ ..)
    | (with_reducible refine keeps_putReq ?_ ..)
    | (with_reducible refine keeps_finishRead ?_ ..)
    | (with_reducible refine keeps_startRead ?_ ..)
    | (with_reducible refine keeps_ite ?_ ?_)
    | (fail_if_no_progress beta_reduce)
    | (dsimp only [Keeps, part]; with_reducible refine keeps_of ?_; first | with_reducible assumption | (with_reducible refine keeps_flashRead ?_ ..) | (with_reducible refine keeps_heat ?_ ..) | (with_reducible refine keeps_putReq ?_ ..) | (with_reducible refine keeps_finishRead ?_ ..) | (with_reducible refine keeps_startRead ?_ ..))
    | split
    | (refine keeps_ite ?_ ?_))

theorem keeps_storeMask {s0 s : State} {l : Nat} {be : Word} {hit : Bool} (hK : Keeps s0 s) :
    Keeps s0 (State.storeMask s l be hit) := by
  unfold State.storeMask
  repeat' (first
    | (with_reducible assumption)
    | (intro x; first | ((have hx : Keeps s0 x := ?_); (try clear_value x); rotate_left; dsimp -zeta only [x]; rotate_right) | ((have hx : Keeps s0 x.1 := ?_); (try clear_value x); rotate_left; dsimp -zeta only [x]; rotate_right) | ((have hx : Keeps s0 x.2 := ?_); (try clear_value x); rotate_left; dsimp -zeta only [x]; rotate_right) | (clear_value x) | skip)
    | lift_lets -underBinder
    | (with_reducible refine keeps_put ?_ ..)
    | (with_reducible refine keeps_ite ?_ ?_)
    | (fail_if_no_progress beta_reduce)
    | (dsimp only [Keeps, part]; with_reducible refine keeps_of ?_; first | with_reducible assumption | (with_reducible refine keeps_put ?_ ..))
    | split
    | (refine keeps_ite ?_ ?_))

theorem keeps_applyStore_o {s0 s : State} {l : Nat} {be : Word} {d : LineData} {poison : Bool} (hK : Keeps s0 s) : OKeeps s0 (fun x => x) (State.applyStore s l be d poison) := by
  unfold State.applyStore
  repeat' (first
    | (with_reducible assumption)
    | (intro x; first | ((have hx : Keeps s0 x := ?_); (try clear_value x); rotate_left; dsimp -zeta only [x]; rotate_right) | ((have hx : Keeps s0 x.1 := ?_); (try clear_value x); rotate_left; dsimp -zeta only [x]; rotate_right) | ((have hx : Keeps s0 x.2 := ?_); (try clear_value x); rotate_left; dsimp -zeta only [x]; rotate_right) | ((have hx : OKeeps s0 Prod.fst x := ?_); (try clear_value x); rotate_left; dsimp -zeta only [x]; rotate_right) | (clear_value x) | skip)
    | lift_lets -underBinder
    | (with_reducible refine keeps_putLine ?_ ..)
    | (with_reducible refine keeps_put ?_ ..)
    | (with_reducible refine keeps_bump ?_ ..)
    | (with_reducible refine keeps_markPoison ?_ ..)
    | (with_reducible refine keeps_clearPoison ?_ ..)
    | (with_reducible refine keeps_noteWritten ?_ ..)
    | (with_reducible refine keeps_useSpan ?_ ..)
    | (with_reducible refine keeps_leaveDirty ?_ ..)
    | (with_reducible refine keeps_newBeats ?_ ..)
    | (with_reducible refine keeps_allocCrown_o ?_ ..)
    | (refine keeps_allocCrown_eq (by assumption) ?_)
    | (with_reducible refine keeps_makeDirty ?_ ..)
    | (with_reducible refine keeps_abandonDemotion ?_ ..)
    | (with_reducible refine keeps_storeMask ?_ ..)
    | (with_reducible refine keeps_ite ?_ ?_)
    | (fail_if_no_progress beta_reduce)
    | exact okeeps_none
    | refine okeeps_some ?_
    | refine okeeps_step ?_ (fun s hK => ?_)
    | (dsimp only [Keeps, part]; with_reducible refine keeps_of ?_; first | with_reducible assumption | (with_reducible refine keeps_putLine ?_ ..) | (with_reducible refine keeps_put ?_ ..) | (with_reducible refine keeps_bump ?_ ..) | (with_reducible refine keeps_markPoison ?_ ..) | (with_reducible refine keeps_clearPoison ?_ ..) | (with_reducible refine keeps_noteWritten ?_ ..) | (with_reducible refine keeps_useSpan ?_ ..) | (with_reducible refine keeps_leaveDirty ?_ ..) | (with_reducible refine keeps_newBeats ?_ ..) | (with_reducible refine keeps_allocCrown_o ?_ ..) | (refine keeps_allocCrown_eq (by assumption) ?_) | (with_reducible refine keeps_makeDirty ?_ ..) | (with_reducible refine keeps_abandonDemotion ?_ ..) | (with_reducible refine keeps_storeMask ?_ ..))
    | split
    | (refine keeps_ite ?_ ?_)
    | exact okeeps_none
    | refine okeeps_some ?_
    | refine okeeps_step ?_ (fun s hK => ?_)
    | exact okeeps_fst (by assumption)
    | exact okeeps_eq (by assumption) (by assumption)
    | (dsimp only))

theorem keeps_applyStore_eq {s0 s tE : State} {l : Nat} {be : Word} {d : LineData} {poison : Bool} (hEq : State.applyStore s l be d poison = some tE) (hK : Keeps s0 s) : Keeps s0 tE :=
  (keeps_applyStore_o hK).of tE hEq

theorem keeps_sendMirror {s0 s : State} {r : Req} {be : Word} {d : LineData} {poison : Bool} {tag : Nat} (hK : Keeps s0 s) :
    Keeps s0 (State.sendMirror s r be d poison tag) := by
  unfold State.sendMirror
  repeat' (first
    | (with_reducible assumption)
    | (intro x; first | ((have hx : Keeps s0 x := ?_); (try clear_value x); rotate_left; dsimp -zeta only [x]; rotate_right) | ((have hx : Keeps s0 x.1 := ?_); (try clear_value x); rotate_left; dsimp -zeta only [x]; rotate_right) | ((have hx : Keeps s0 x.2 := ?_); (try clear_value x); rotate_left; dsimp -zeta only [x]; rotate_right) | (clear_value x) | skip)
    | lift_lets -underBinder
    | (with_reducible refine keeps_sendStream ?_ ..)
    | (with_reducible refine keeps_ite ?_ ?_)
    | (fail_if_no_progress beta_reduce)
    | (dsimp only [Keeps, part]; with_reducible refine keeps_of ?_; first | with_reducible assumption | (with_reducible refine keeps_sendStream ?_ ..))
    | split
    | (refine keeps_ite ?_ ?_))

theorem keeps_startStore {s0 s : State} {r : Req} {be : Word} {d : LineData} {poison : Bool} {mirrorApply : Bool} (hK : Keeps s0 s) :
    Keeps s0 (State.startStore s r be d poison mirrorApply) := by
  unfold State.startStore
  repeat' (first
    | (with_reducible assumption)
    | (intro x; first | ((have hx : Keeps s0 x := ?_); (try clear_value x); rotate_left; dsimp -zeta only [x]; rotate_right) | ((have hx : Keeps s0 x.1 := ?_); (try clear_value x); rotate_left; dsimp -zeta only [x]; rotate_right) | ((have hx : Keeps s0 x.2 := ?_); (try clear_value x); rotate_left; dsimp -zeta only [x]; rotate_right) | (clear_value x) | skip)
    | lift_lets -underBinder
    | (with_reducible refine keeps_raiseOff ?_ ..)
    | (with_reducible refine keeps_newTag ?_ ..)
    | (refine keeps_newTag_eq (by assumption) ?_)
    | (with_reducible refine keeps_markPoison ?_ ..)
    | (with_reducible refine keeps_poisonLine ?_ ..)
    | (with_reducible refine keeps_startSpanWrite ?_ ..)
    | (with_reducible refine keeps_putReq ?_ ..)
    | (with_reducible refine keeps_fail ?_ ..)
    | (with_reducible refine keeps_applyStore_o ?_ ..)
    | (refine keeps_applyStore_eq (by assumption) ?_)
    | (with_reducible refine keeps_sendMirror ?_ ..)
    | (with_reducible refine keeps_ite ?_ ?_)
    | (fail_if_no_progress beta_reduce)
    | (dsimp only [Keeps, part]; with_reducible refine keeps_of ?_; first | with_reducible assumption | (with_reducible refine keeps_raiseOff ?_ ..) | (with_reducible refine keeps_newTag ?_ ..) | (refine keeps_newTag_eq (by assumption) ?_) | (with_reducible refine keeps_markPoison ?_ ..) | (with_reducible refine keeps_poisonLine ?_ ..) | (with_reducible refine keeps_startSpanWrite ?_ ..) | (with_reducible refine keeps_putReq ?_ ..) | (with_reducible refine keeps_fail ?_ ..) | (with_reducible refine keeps_applyStore_o ?_ ..) | (refine keeps_applyStore_eq (by assumption) ?_) | (with_reducible refine keeps_sendMirror ?_ ..))
    | split
    | (refine keeps_ite ?_ ?_))

theorem keeps_forward {s0 s : State} {r : Req} {dev : Nat} (hK : Keeps s0 s) :
    Keeps s0 (State.forward s r dev) := by
  unfold State.forward
  repeat' (first
    | (with_reducible assumption)
    | (intro x; first | ((have hx : Keeps s0 x := ?_); (try clear_value x); rotate_left; dsimp -zeta only [x]; rotate_right) | ((have hx : Keeps s0 x.1 := ?_); (try clear_value x); rotate_left; dsimp -zeta only [x]; rotate_right) | ((have hx : Keeps s0 x.2 := ?_); (try clear_value x); rotate_left; dsimp -zeta only [x]; rotate_right) | (clear_value x) | skip)
    | lift_lets -underBinder
    | (with_reducible refine keeps_newTag ?_ ..)
    | (refine keeps_newTag_eq (by assumption) ?_)
    | (with_reducible refine keeps_sendOn ?_ ..)
    | (with_reducible refine keeps_putReq ?_ ..)
    | (with_reducible refine keeps_hold ?_ ..)
    | (with_reducible refine keeps_urgent ?_ ..)
    | (with_reducible refine keeps_foldl (fun s x hK => ?_) ?_)
    | (with_reducible refine keeps_foldl_fst (fun s x hK => ?_) ?_)
    | (refine keeps_foldl_eq (by assumption) (fun s x hK => ?_) ?_)
    | (with_reducible refine keeps_getD ?_ ?_)
    | (with_reducible refine keeps_ite ?_ ?_)
    | (fail_if_no_progress beta_reduce)
    | (dsimp only [Keeps, part]; with_reducible refine keeps_of ?_; first | with_reducible assumption | (with_reducible refine keeps_newTag ?_ ..) | (refine keeps_newTag_eq (by assumption) ?_) | (with_reducible refine keeps_sendOn ?_ ..) | (with_reducible refine keeps_putReq ?_ ..) | (with_reducible refine keeps_hold ?_ ..) | (with_reducible refine keeps_urgent ?_ ..) | (refine keeps_foldl_eq (by assumption) (fun s x hK => ?_) ?_))
    | split
    | (refine keeps_ite ?_ ?_))

theorem keeps_sendCtrl {s0 s : State} {r : Req} {d : LineData} (hK : Keeps s0 s) :
    Keeps s0 (State.sendCtrl s r d).2 := by
  unfold State.sendCtrl
  repeat' (first
    | (with_reducible assumption)
    | (intro x; first | ((have hx : Keeps s0 x := ?_); (try clear_value x); rotate_left; dsimp -zeta only [x]; rotate_right) | ((have hx : Keeps s0 x.1 := ?_); (try clear_value x); rotate_left; dsimp -zeta only [x]; rotate_right) | ((have hx : Keeps s0 x.2 := ?_); (try clear_value x); rotate_left; dsimp -zeta only [x]; rotate_right) | (clear_value x) | skip)
    | lift_lets -underBinder
    | (with_reducible refine keeps_newTag ?_ ..)
    | (refine keeps_newTag_eq (by assumption) ?_)
    | (with_reducible refine keeps_send ?_ ..)
    | (with_reducible refine keeps_ite ?_ ?_)
    | (fail_if_no_progress beta_reduce)
    | (dsimp only [Keeps, part]; with_reducible refine keeps_of ?_; first | with_reducible assumption | (with_reducible refine keeps_newTag ?_ ..) | (refine keeps_newTag_eq (by assumption) ?_) | (with_reducible refine keeps_send ?_ ..))
    | split
    | (refine keeps_ite ?_ ?_))

theorem keeps_sendCtrl_eq {s0 s tE : State} {bE : Nat} {r : Req} {d : LineData} (hEq : State.sendCtrl s r d = (bE, tE)) (hK : Keeps s0 s) : Keeps s0 tE := by
  have k : Keeps s0 (State.sendCtrl s r d).2 := keeps_sendCtrl hK
  rw [hEq] at k
  exact k

theorem keeps_startCtrl {s0 s : State} {r : Req} {d : LineData} {standby : Bool} (hK : Keeps s0 s) :
    Keeps s0 (State.startCtrl s r d standby) := by
  unfold State.startCtrl
  repeat' (first
    | (with_reducible assumption)
    | (intro x; first | ((have hx : Keeps s0 x := ?_); (try clear_value x); rotate_left; dsimp -zeta only [x]; rotate_right) | ((have hx : Keeps s0 x.1 := ?_); (try clear_value x); rotate_left; dsimp -zeta only [x]; rotate_right) | ((have hx : Keeps s0 x.2 := ?_); (try clear_value x); rotate_left; dsimp -zeta only [x]; rotate_right) | (clear_value x) | skip)
    | lift_lets -underBinder
    | (with_reducible refine keeps_ownPart ?_ ..)
    | (refine keeps_ownPart_eq (by assumption) ?_)
    | (with_reducible refine keeps_putReq ?_ ..)
    | (with_reducible refine keeps_finish ?_ ..)
    | (with_reducible refine keeps_sendCtrl ?_ ..)
    | (refine keeps_sendCtrl_eq (by assumption) ?_)
    | (with_reducible refine keeps_ite ?_ ?_)
    | (fail_if_no_progress beta_reduce)
    | (dsimp only [Keeps, part]; with_reducible refine keeps_of ?_; first | with_reducible assumption | (with_reducible refine keeps_ownPart ?_ ..) | (refine keeps_ownPart_eq (by assumption) ?_) | (with_reducible refine keeps_putReq ?_ ..) | (with_reducible refine keeps_finish ?_ ..) | (with_reducible refine keeps_sendCtrl ?_ ..) | (refine keeps_sendCtrl_eq (by assumption) ?_))
    | split
    | (refine keeps_ite ?_ ?_))

theorem keeps_endCtrl {s0 s : State} {id : Nat} {peer : Bool} {code : Nat} (hK : Keeps s0 s) :
    Keeps s0 (State.endCtrl s id peer code) := by
  unfold State.endCtrl
  repeat' (first
    | (with_reducible assumption)
    | (intro x; first | ((have hx : Keeps s0 x := ?_); (try clear_value x); rotate_left; dsimp -zeta only [x]; rotate_right) | ((have hx : Keeps s0 x.1 := ?_); (try clear_value x); rotate_left; dsimp -zeta only [x]; rotate_right) | ((have hx : Keeps s0 x.2 := ?_); (try clear_value x); rotate_left; dsimp -zeta only [x]; rotate_right) | (clear_value x) | skip)
    | lift_lets -underBinder
    | (with_reducible refine keeps_putReq ?_ ..)
    | (with_reducible refine keeps_finish ?_ ..)
    | (with_reducible refine keeps_ite ?_ ?_)
    | (fail_if_no_progress beta_reduce)
    | (dsimp only [Keeps, part]; with_reducible refine keeps_of ?_; first | with_reducible assumption | (with_reducible refine keeps_putReq ?_ ..) | (with_reducible refine keeps_finish ?_ ..))
    | split
    | (refine keeps_ite ?_ ?_))

theorem keeps_dropPeerParts {s0 s : State} (hK : Keeps s0 s) :
    Keeps s0 (State.dropPeerParts s) := by
  unfold State.dropPeerParts
  repeat' (first
    | (with_reducible assumption)
    | (intro x; first | ((have hx : Keeps s0 x := ?_); (try clear_value x); rotate_left; dsimp -zeta only [x]; rotate_right) | ((have hx : Keeps s0 x.1 := ?_); (try clear_value x); rotate_left; dsimp -zeta only [x]; rotate_right) | ((have hx : Keeps s0 x.2 := ?_); (try clear_value x); rotate_left; dsimp -zeta only [x]; rotate_right) | (clear_value x) | skip)
    | lift_lets -underBinder
    | (with_reducible refine keeps_endCtrl ?_ ..)
    | (with_reducible refine keeps_foldl (fun s x hK => ?_) ?_)
    | (with_reducible refine keeps_foldl_fst (fun s x hK => ?_) ?_)
    | (refine keeps_foldl_eq (by assumption) (fun s x hK => ?_) ?_)
    | (with_reducible refine keeps_ite ?_ ?_)
    | (fail_if_no_progress beta_reduce)
    | (dsimp only [Keeps, part]; with_reducible refine keeps_of ?_; first | with_reducible assumption | (with_reducible refine keeps_endCtrl ?_ ..) | (refine keeps_foldl_eq (by assumption) (fun s x hK => ?_) ?_))
    | split
    | (refine keeps_ite ?_ ?_))

theorem keeps_verifyLine {s0 s : State} {r : Req} {l : Nat} {twin : Bool} (hK : Keeps s0 s) :
    Keeps s0 (State.verifyLine s r l twin) := by
  unfold State.verifyLine
  repeat' (first
    | (with_reducible assumption)
    | (intro x; first | ((have hx : Keeps s0 x := ?_); (try clear_value x); rotate_left; dsimp -zeta only [x]; rotate_right) | ((have hx : Keeps s0 x.1 := ?_); (try clear_value x); rotate_left; dsimp -zeta only [x]; rotate_right) | ((have hx : Keeps s0 x.2 := ?_); (try clear_value x); rotate_left; dsimp -zeta only [x]; rotate_right) | (clear_value x) | skip)
    | lift_lets -underBinder
    | (with_reducible refine keeps_startVerify ?_ ..)
    | (with_reducible refine keeps_forward ?_ ..)
    | (with_reducible refine keeps_ite ?_ ?_)
    | (fail_if_no_progress beta_reduce)
    | (dsimp only [Keeps, part]; with_reducible refine keeps_of ?_; first | with_reducible assumption | (with_reducible refine keeps_startVerify ?_ ..) | (with_reducible refine keeps_forward ?_ ..))
    | split
    | (refine keeps_ite ?_ ?_))

theorem keeps_startVerifying {s0 s : State} {r : Req} {d : LineData} (hK : Keeps s0 s) :
    Keeps s0 (State.startVerifying s r d) := by
  unfold State.startVerifying
  repeat' (first
    | (with_reducible assumption)
    | (intro x; first | ((have hx : Keeps s0 x := ?_); (try clear_value x); rotate_left; dsimp -zeta only [x]; rotate_right) | ((have hx : Keeps s0 x.1 := ?_); (try clear_value x); rotate_left; dsimp -zeta only [x]; rotate_right) | ((have hx : Keeps s0 x.2 := ?_); (try clear_value x); rotate_left; dsimp -zeta only [x]; rotate_right) | (clear_value x) | skip)
    | lift_lets -underBinder
    | (with_reducible refine keeps_putReq ?_ ..)
    | (with_reducible refine keeps_verifyLine ?_ ..)
    | (with_reducible refine keeps_foldl (fun s x hK => ?_) ?_)
    | (with_reducible refine keeps_foldl_fst (fun s x hK => ?_) ?_)
    | (refine keeps_foldl_eq (by assumption) (fun s x hK => ?_) ?_)
    | (with_reducible refine keeps_ite ?_ ?_)
    | (fail_if_no_progress beta_reduce)
    | (dsimp only [Keeps, part]; with_reducible refine keeps_of ?_; first | with_reducible assumption | (with_reducible refine keeps_putReq ?_ ..) | (with_reducible refine keeps_verifyLine ?_ ..) | (refine keeps_foldl_eq (by assumption) (fun s x hK => ?_) ?_))
    | split
    | (refine keeps_ite ?_ ?_))

theorem keeps_verifPart {s0 s : State} {id : Nat} {l : Nat} {twin : Bool} {p : Resp} (hK : Keeps s0 s) :
    Keeps s0 (State.verifPart s id l twin p) := by
  unfold State.verifPart
  repeat' (first
    | (with_reducible assumption)
    | (intro x; first | ((have hx : Keeps s0 x := ?_); (try clear_value x); rotate_left; dsimp -zeta only [x]; rotate_right) | ((have hx : Keeps s0 x.1 := ?_); (try clear_value x); rotate_left; dsimp -zeta only [x]; rotate_right) | ((have hx : Keeps s0 x.2 := ?_); (try clear_value x); rotate_left; dsimp -zeta only [x]; rotate_right) | (clear_value x) | skip)
    | lift_lets -underBinder
    | (with_reducible refine keeps_put ?_ ..)
    | (with_reducible refine keeps_finish ?_ ..)
    | (with_reducible refine keeps_ite ?_ ?_)
    | (fail_if_no_progress beta_reduce)
    | (dsimp only [Keeps, part]; with_reducible refine keeps_of ?_; first | with_reducible assumption | (with_reducible refine keeps_put ?_ ..) | (with_reducible refine keeps_finish ?_ ..))
    | split
    | (refine keeps_ite ?_ ?_))

theorem keeps_serve {s0 s : State} {r : Req} {first : Bool} (hK : Keeps s0 s) :
    Keeps s0 (State.serve s r first) := by
  unfold State.serve
  repeat' (first
    | (with_reducible assumption)
    | (intro x; first | ((have hx : Keeps s0 x := ?_); (try clear_value x); rotate_left; dsimp -zeta only [x]; rotate_right) | ((have hx : Keeps s0 x.1 := ?_); (try clear_value x); rotate_left; dsimp -zeta only [x]; rotate_right) | ((have hx : Keeps s0 x.2 := ?_); (try clear_value x); rotate_left; dsimp -zeta only [x]; rotate_right) | (clear_value x) | skip)
    | lift_lets -underBinder
    | (with_reducible refine keeps_raiseOff ?_ ..)
    | (with_reducible refine keeps_putReq ?_ ..)
    | (with_reducible refine keeps_fail ?_ ..)
    | (with_reducible refine keeps_hold ?_ ..)
    | (with_reducible refine keeps_startRead ?_ ..)
    | (with_reducible refine keeps_startStore ?_ ..)
    | (with_reducible refine keeps_startCtrl ?_ ..)
    | (with_reducible refine keeps_startVerifying ?_ ..)
    | (with_reducible refine keeps_stopped ?_ ..)
    | (with_reducible refine keeps_ite ?_ ?_)
    | (fail_if_no_progress beta_reduce)
    | (dsimp only [Keeps, part]; with_reducible refine keeps_of ?_; first | with_reducible assumption | (with_reducible refine keeps_raiseOff ?_ ..) | (with_reducible refine keeps_putReq ?_ ..) | (with_reducible refine keeps_fail ?_ ..) | (with_reducible refine keeps_hold ?_ ..) | (with_reducible refine keeps_startRead ?_ ..) | (with_reducible refine keeps_startStore ?_ ..) | (with_reducible refine keeps_startCtrl ?_ ..) | (with_reducible refine keeps_startVerifying ?_ ..) | (with_reducible refine keeps_stopped ?_ ..))
    | split
    | (refine keeps_ite ?_ ?_))

theorem keeps_route {s0 s : State} {r : Req} {first : Bool} (hK : Keeps s0 s) :
    Keeps s0 (State.route s r first) := by
  unfold State.route
  repeat' (first
    | (with_reducible assumption)
    | (intro x; first | ((have hx : Keeps s0 x := ?_); (try clear_value x); rotate_left; dsimp -zeta only [x]; rotate_right) | ((have hx : Keeps s0 x.1 := ?_); (try clear_value x); rotate_left; dsimp -zeta only [x]; rotate_right) | ((have hx : Keeps s0 x.2 := ?_); (try clear_value x); rotate_left; dsimp -zeta only [x]; rotate_right) | (clear_value x) | skip)
    | lift_lets -underBinder
    | (with_reducible refine keeps_raiseOff ?_ ..)
    | (with_reducible refine keeps_fail ?_ ..)
    | (with_reducible refine keeps_forward ?_ ..)
    | (with_reducible refine keeps_serve ?_ ..)
    | (with_reducible refine keeps_ite ?_ ?_)
    | (fail_if_no_progress beta_reduce)
    | (dsimp only [Keeps, part]; with_reducible refine keeps_of ?_; first | with_reducible assumption | (with_reducible refine keeps_raiseOff ?_ ..) | (with_reducible refine keeps_fail ?_ ..) | (with_reducible refine keeps_forward ?_ ..) | (with_reducible refine keeps_serve ?_ ..))
    | split
    | (refine keeps_ite ?_ ?_))

theorem keeps_lookup {s0 s : State} {r : Req} {first : Bool} (hK : Keeps s0 s) :
    Keeps s0 (State.lookup s r first) := by
  unfold State.lookup
  repeat' (first
    | (with_reducible assumption)
    | (intro x; first | ((have hx : Keeps s0 x := ?_); (try clear_value x); rotate_left; dsimp -zeta only [x]; rotate_right) | ((have hx : Keeps s0 x.1 := ?_); (try clear_value x); rotate_left; dsimp -zeta only [x]; rotate_right) | ((have hx : Keeps s0 x.2 := ?_); (try clear_value x); rotate_left; dsimp -zeta only [x]; rotate_right) | (clear_value x) | skip)
    | lift_lets -underBinder
    | (with_reducible refine keeps_bump ?_ ..)
    | (with_reducible refine keeps_putReq ?_ ..)
    | (with_reducible refine keeps_route ?_ ..)
    | (with_reducible refine keeps_ite ?_ ?_)
    | (fail_if_no_progress beta_reduce)
    | (dsimp only [Keeps, part]; with_reducible refine keeps_of ?_; first | with_reducible assumption | (with_reducible refine keeps_bump ?_ ..) | (with_reducible refine keeps_putReq ?_ ..) | (with_reducible refine keeps_route ?_ ..))
    | split
    | (refine keeps_ite ?_ ?_))

theorem keeps_start {s0 s : State} {r : Req} (hK : Keeps s0 s) :
    Keeps s0 (State.start s r) := by
  unfold State.start
  repeat' (first
    | (with_reducible assumption)
    | (intro x; first | ((have hx : Keeps s0 x := ?_); (try clear_value x); rotate_left; dsimp -zeta only [x]; rotate_right) | ((have hx : Keeps s0 x.1 := ?_); (try clear_value x); rotate_left; dsimp -zeta only [x]; rotate_right) | ((have hx : Keeps s0 x.2 := ?_); (try clear_value x); rotate_left; dsimp -zeta only [x]; rotate_right) | (clear_value x) | skip)
    | lift_lets -underBinder
    | (with_reducible refine keeps_putReq ?_ ..)
    | (with_reducible refine keeps_hold ?_ ..)
    | (with_reducible refine keeps_waitBehind ?_ ..)
    | (with_reducible refine keeps_startRead ?_ ..)
    | (with_reducible refine keeps_startStore ?_ ..)
    | (with_reducible refine keeps_forward ?_ ..)
    | (with_reducible refine keeps_startCtrl ?_ ..)
    | (with_reducible refine keeps_lookup ?_ ..)
    | (with_reducible refine keeps_ite ?_ ?_)
    | (fail_if_no_progress beta_reduce)
    | (dsimp only [Keeps, part]; with_reducible refine keeps_of ?_; first | with_reducible assumption | (with_reducible refine keeps_putReq ?_ ..) | (with_reducible refine keeps_hold ?_ ..) | (with_reducible refine keeps_waitBehind ?_ ..) | (with_reducible refine keeps_startRead ?_ ..) | (with_reducible refine keeps_startStore ?_ ..) | (with_reducible refine keeps_forward ?_ ..) | (with_reducible refine keeps_startCtrl ?_ ..) | (with_reducible refine keeps_lookup ?_ ..))
    | split
    | (refine keeps_ite ?_ ?_))

theorem keeps_submit {s0 s : State} {src : Nat} {who : Who} {op : ReqOp} {offset : Nat} {tenant : Nat} (hK : Keeps s0 s) :
    Keeps s0 (State.submit s src who op offset tenant) := by
  unfold State.submit
  repeat' (first
    | (with_reducible assumption)
    | (intro x; first | ((have hx : Keeps s0 x := ?_); (try clear_value x); rotate_left; dsimp -zeta only [x]; rotate_right) | ((have hx : Keeps s0 x.1 := ?_); (try clear_value x); rotate_left; dsimp -zeta only [x]; rotate_right) | ((have hx : Keeps s0 x.2 := ?_); (try clear_value x); rotate_left; dsimp -zeta only [x]; rotate_right) | (clear_value x) | skip)
    | lift_lets -underBinder
    | (with_reducible refine keeps_start ?_ ..)
    | (with_reducible refine keeps_ite ?_ ?_)
    | (fail_if_no_progress beta_reduce)
    | (dsimp only [Keeps, part]; with_reducible refine keeps_of ?_; first | with_reducible assumption | (with_reducible refine keeps_start ?_ ..))
    | split
    | (refine keeps_ite ?_ ?_))

theorem keeps_copyRead {s0 s : State} {q : Nat} {ix : Nat} {dst : Nat} {lo : Nat} {n : Nat} {pos : Nat} {p : Resp} (hK : Keeps s0 s) :
    Keeps s0 (State.copyRead s q ix dst lo n pos p) := by
  unfold State.copyRead
  repeat' (first
    | (with_reducible assumption)
    | (intro x; first | ((have hx : Keeps s0 x := ?_); (try clear_value x); rotate_left; dsimp -zeta only [x]; rotate_right) | ((have hx : Keeps s0 x.1 := ?_); (try clear_value x); rotate_left; dsimp -zeta only [x]; rotate_right) | ((have hx : Keeps s0 x.2 := ?_); (try clear_value x); rotate_left; dsimp -zeta only [x]; rotate_right) | (clear_value x) | skip)
    | lift_lets -underBinder
    | (with_reducible refine keeps_noteCode ?_ ..)
    | (with_reducible refine keeps_descPartDone ?_ ..)
    | (with_reducible refine keeps_putReq ?_ ..)
    | (with_reducible refine keeps_delReq ?_ ..)
    | (with_reducible refine keeps_ite ?_ ?_)
    | (fail_if_no_progress beta_reduce)
    | (dsimp only [Keeps, part]; with_reducible refine keeps_of ?_; first | with_reducible assumption | (with_reducible refine keeps_noteCode ?_ ..) | (with_reducible refine keeps_descPartDone ?_ ..) | (with_reducible refine keeps_putReq ?_ ..) | (with_reducible refine keeps_delReq ?_ ..))
    | split
    | (refine keeps_ite ?_ ?_))

theorem keeps_descTakes {s0 s : State} {q : Nat} {ix : Nat} {r : Req} {p : Resp} (hK : Keeps s0 s) :
    Keeps s0 (State.descTakes s q ix r p) := by
  unfold State.descTakes
  repeat' (first
    | (with_reducible assumption)
    | (intro x; first | ((have hx : Keeps s0 x := ?_); (try clear_value x); rotate_left; dsimp -zeta only [x]; rotate_right) | ((have hx : Keeps s0 x.1 := ?_); (try clear_value x); rotate_left; dsimp -zeta only [x]; rotate_right) | ((have hx : Keeps s0 x.2 := ?_); (try clear_value x); rotate_left; dsimp -zeta only [x]; rotate_right) | (clear_value x) | skip)
    | lift_lets -underBinder
    | (with_reducible refine keeps_put ?_ ..)
    | (with_reducible refine keeps_putDesc ?_ ..)
    | (with_reducible refine keeps_ite ?_ ?_)
    | (fail_if_no_progress beta_reduce)
    | (dsimp only [Keeps, part]; with_reducible refine keeps_of ?_; first | with_reducible assumption | (with_reducible refine keeps_put ?_ ..) | (with_reducible refine keeps_putDesc ?_ ..))
    | split
    | (refine keeps_ite ?_ ?_))

theorem keeps_queueEnds {s0 s : State} {q : Nat} {ix : Nat} {r : Req} {p : Resp} (hK : Keeps s0 s) :
    Keeps s0 (State.queueEnds s q ix r p) := by
  unfold State.queueEnds
  repeat' (first
    | (with_reducible assumption)
    | (intro x; first | ((have hx : Keeps s0 x := ?_); (try clear_value x); rotate_left; dsimp -zeta only [x]; rotate_right) | ((have hx : Keeps s0 x.1 := ?_); (try clear_value x); rotate_left; dsimp -zeta only [x]; rotate_right) | ((have hx : Keeps s0 x.2 := ?_); (try clear_value x); rotate_left; dsimp -zeta only [x]; rotate_right) | (clear_value x) | skip)
    | lift_lets -underBinder
    | (with_reducible refine keeps_descPartDone ?_ ..)
    | (with_reducible refine keeps_entryStored ?_ ..)
    | (with_reducible refine keeps_takeFetched ?_ ..)
    | (with_reducible refine keeps_copyRead ?_ ..)
    | (with_reducible refine keeps_descTakes ?_ ..)
    | (with_reducible refine keeps_ite ?_ ?_)
    | (fail_if_no_progress beta_reduce)
    | (dsimp only [Keeps, part]; with_reducible refine keeps_of ?_; first | with_reducible assumption | (with_reducible refine keeps_descPartDone ?_ ..) | (with_reducible refine keeps_entryStored ?_ ..) | (with_reducible refine keeps_takeFetched ?_ ..) | (with_reducible refine keeps_copyRead ?_ ..) | (with_reducible refine keeps_descTakes ?_ ..))
    | split
    | (refine keeps_ite ?_ ?_))

theorem keeps_finishRun {s0 s : State} {e : Nat} {r : Run} (hK : Keeps s0 s) :
    Keeps s0 (State.finishRun s e r) := by
  unfold State.finishRun
  repeat' (first
    | (with_reducible assumption)
    | (intro x; first | ((have hx : Keeps s0 x := ?_); (try clear_value x); rotate_left; dsimp -zeta only [x]; rotate_right) | ((have hx : Keeps s0 x.1 := ?_); (try clear_value x); rotate_left; dsimp -zeta only [x]; rotate_right) | ((have hx : Keeps s0 x.2 := ?_); (try clear_value x); rotate_left; dsimp -zeta only [x]; rotate_right) | (clear_value x) | skip)
    | lift_lets -underBinder
    | (with_reducible refine keeps_bump ?_ ..)
    | (with_reducible refine keeps_raiseAt ?_ ..)
    | (with_reducible refine keeps_putEngine ?_ ..)
    | (with_reducible refine keeps_endDesc ?_ ..)
    | (with_reducible refine keeps_ite ?_ ?_)
    | (fail_if_no_progress beta_reduce)
    | (dsimp only [Keeps, part]; with_reducible refine keeps_of ?_; first | with_reducible assumption | (with_reducible refine keeps_bump ?_ ..) | (with_reducible refine keeps_raiseAt ?_ ..) | (with_reducible refine keeps_putEngine ?_ ..) | (with_reducible refine keeps_endDesc ?_ ..))
    | split
    | (refine keeps_ite ?_ ?_))

theorem keeps_enginePart {s0 s : State} {e : Nat} {key : Nat} {p : Resp} (hK : Keeps s0 s) :
    Keeps s0 (State.enginePart s e key p) := by
  unfold State.enginePart
  repeat' (first
    | (with_reducible assumption)
    | (intro x; first | ((have hx : Keeps s0 x := ?_); (try clear_value x); rotate_left; dsimp -zeta only [x]; rotate_right) | ((have hx : Keeps s0 x.1 := ?_); (try clear_value x); rotate_left; dsimp -zeta only [x]; rotate_right) | ((have hx : Keeps s0 x.2 := ?_); (try clear_value x); rotate_left; dsimp -zeta only [x]; rotate_right) | (clear_value x) | skip)
    | lift_lets -underBinder
    | (with_reducible refine keeps_updRun ?_ ..)
    | (with_reducible refine keeps_finishRun ?_ ..)
    | (with_reducible refine keeps_ite ?_ ?_)
    | (fail_if_no_progress beta_reduce)
    | (dsimp only [Keeps, part]; with_reducible refine keeps_of ?_; first | with_reducible assumption | (with_reducible refine keeps_updRun ?_ ..) | (with_reducible refine keeps_finishRun ?_ ..))
    | split
    | (refine keeps_ite ?_ ?_))

theorem keeps_fwdPart {s0 s : State} {dev : Nat} {tag : Nat} {line : Nat} {p : Resp} (hK : Keeps s0 s) :
    Keeps s0 (State.fwdPart s dev tag line p) := by
  unfold State.fwdPart
  repeat' (first
    | (with_reducible assumption)
    | (intro x; first | ((have hx : Keeps s0 x := ?_); (try clear_value x); rotate_left; dsimp -zeta only [x]; rotate_right) | ((have hx : Keeps s0 x.1 := ?_); (try clear_value x); rotate_left; dsimp -zeta only [x]; rotate_right) | ((have hx : Keeps s0 x.2 := ?_); (try clear_value x); rotate_left; dsimp -zeta only [x]; rotate_right) | (clear_value x) | skip)
    | lift_lets -underBinder
    | (with_reducible refine keeps_put ?_ ..)
    | (with_reducible refine keeps_reply ?_ ..)
    | (with_reducible refine keeps_foldl (fun s x hK => ?_) ?_)
    | (with_reducible refine keeps_foldl_fst (fun s x hK => ?_) ?_)
    | (refine keeps_foldl_eq (by assumption) (fun s x hK => ?_) ?_)
    | (with_reducible refine keeps_ite ?_ ?_)
    | (fail_if_no_progress beta_reduce)
    | (dsimp only [Keeps, part]; with_reducible refine keeps_of ?_; first | with_reducible assumption | (with_reducible refine keeps_put ?_ ..) | (with_reducible refine keeps_reply ?_ ..) | (refine keeps_foldl_eq (by assumption) (fun s x hK => ?_) ?_))
    | split
    | (refine keeps_ite ?_ ?_))

theorem keeps_ctrlEnds {s0 s : State} {dev : Nat} {port : Nat} {tag : Nat} {r : Req} {p : Resp} (hK : Keeps s0 s) :
    Keeps s0 (State.ctrlEnds s dev port tag r p) := by
  unfold State.ctrlEnds
  repeat' (first
    | (with_reducible assumption)
    | (intro x; first | ((have hx : Keeps s0 x := ?_); (try clear_value x); rotate_left; dsimp -zeta only [x]; rotate_right) | ((have hx : Keeps s0 x.1 := ?_); (try clear_value x); rotate_left; dsimp -zeta only [x]; rotate_right) | ((have hx : Keeps s0 x.2 := ?_); (try clear_value x); rotate_left; dsimp -zeta only [x]; rotate_right) | (clear_value x) | skip)
    | lift_lets -underBinder
    | (with_reducible refine keeps_reply ?_ ..)
    | (with_reducible refine keeps_ite ?_ ?_)
    | (fail_if_no_progress beta_reduce)
    | (dsimp only [Keeps, part]; with_reducible refine keeps_of ?_; first | with_reducible assumption | (with_reducible refine keeps_reply ?_ ..))
    | split
    | (refine keeps_ite ?_ ?_))

theorem keeps_complete {s0 s : State} {r : Req} {p : Resp} (hK : Keeps s0 s) :
    Keeps s0 (State.complete s r p) := by
  unfold State.complete
  repeat' (first
    | (with_reducible assumption)
    | (intro x; first | ((have hx : Keeps s0 x := ?_); (try clear_value x); rotate_left; dsimp -zeta only [x]; rotate_right) | ((have hx : Keeps s0 x.1 := ?_); (try clear_value x); rotate_left; dsimp -zeta only [x]; rotate_right) | ((have hx : Keeps s0 x.2 := ?_); (try clear_value x); rotate_left; dsimp -zeta only [x]; rotate_right) | (clear_value x) | skip)
    | lift_lets -underBinder
    | (with_reducible refine keeps_emit ?_ ..)
    | (with_reducible refine keeps_countTx ?_ ..)
    | (with_reducible refine keeps_reply ?_ ..)
    | (with_reducible refine keeps_delReq ?_ ..)
    | (with_reducible refine keeps_verifPart ?_ ..)
    | (with_reducible refine keeps_queueEnds ?_ ..)
    | (with_reducible refine keeps_enginePart ?_ ..)
    | (with_reducible refine keeps_fwdPart ?_ ..)
    | (with_reducible refine keeps_ctrlEnds ?_ ..)
    | (with_reducible refine keeps_ite ?_ ?_)
    | (fail_if_no_progress beta_reduce)
    | (dsimp only [Keeps, part]; with_reducible refine keeps_of ?_; first | with_reducible assumption | (with_reducible refine keeps_emit ?_ ..) | (with_reducible refine keeps_countTx ?_ ..) | (with_reducible refine keeps_reply ?_ ..) | (with_reducible refine keeps_delReq ?_ ..) | (with_reducible refine keeps_verifPart ?_ ..) | (with_reducible refine keeps_queueEnds ?_ ..) | (with_reducible refine keeps_enginePart ?_ ..) | (with_reducible refine keeps_fwdPart ?_ ..) | (with_reducible refine keeps_ctrlEnds ?_ ..))
    | split
    | (refine keeps_ite ?_ ?_))

theorem keeps_retrySlice {s0 s : State} {r : Req} {first : Bool} (hK : Keeps s0 s) :
    Keeps s0 (State.retrySlice s r first) := by
  unfold State.retrySlice
  repeat' (first
    | (with_reducible assumption)
    | (intro x; first | ((have hx : Keeps s0 x := ?_); (try clear_value x); rotate_left; dsimp -zeta only [x]; rotate_right) | ((have hx : Keeps s0 x.1 := ?_); (try clear_value x); rotate_left; dsimp -zeta only [x]; rotate_right) | ((have hx : Keeps s0 x.2 := ?_); (try clear_value x); rotate_left; dsimp -zeta only [x]; rotate_right) | (clear_value x) | skip)
    | lift_lets -underBinder
    | (with_reducible refine keeps_startRead ?_ ..)
    | (with_reducible refine keeps_startStore ?_ ..)
    | (with_reducible refine keeps_ite ?_ ?_)
    | (fail_if_no_progress beta_reduce)
    | (dsimp only [Keeps, part]; with_reducible refine keeps_of ?_; first | with_reducible assumption | (with_reducible refine keeps_startRead ?_ ..) | (with_reducible refine keeps_startStore ?_ ..))
    | split
    | (refine keeps_ite ?_ ?_))

theorem keeps_advance {s0 s : State} {id : Nat} (hK : Keeps s0 s) :
    Keeps s0 (State.advance s id) := by
  unfold State.advance
  repeat' (first
    | (with_reducible assumption)
    | (intro x; first | ((have hx : Keeps s0 x := ?_); (try clear_value x); rotate_left; dsimp -zeta only [x]; rotate_right) | ((have hx : Keeps s0 x.1 := ?_); (try clear_value x); rotate_left; dsimp -zeta only [x]; rotate_right) | ((have hx : Keeps s0 x.2 := ?_); (try clear_value x); rotate_left; dsimp -zeta only [x]; rotate_right) | (clear_value x) | skip)
    | lift_lets -underBinder
    | (with_reducible refine keeps_install ?_ ..)
    | (with_reducible refine keeps_startCtrl ?_ ..)
    | (with_reducible refine keeps_start ?_ ..)
    | (with_reducible refine keeps_complete ?_ ..)
    | (with_reducible refine keeps_retrySlice ?_ ..)
    | (with_reducible refine keeps_ite ?_ ?_)
    | (fail_if_no_progress beta_reduce)
    | (dsimp only [Keeps, part]; with_reducible refine keeps_of ?_; first | with_reducible assumption | (with_reducible refine keeps_install ?_ ..) | (with_reducible refine keeps_startCtrl ?_ ..) | (with_reducible refine keeps_start ?_ ..) | (with_reducible refine keeps_complete ?_ ..) | (with_reducible refine keeps_retrySlice ?_ ..))
    | split
    | (refine keeps_ite ?_ ?_))

theorem keeps_pass {s0 s : State} (hK : Keeps s0 s) :
    Keeps s0 (State.pass s) := by
  unfold State.pass
  repeat' (first
    | (with_reducible assumption)
    | (intro x; first | ((have hx : Keeps s0 x := ?_); (try clear_value x); rotate_left; dsimp -zeta only [x]; rotate_right) | ((have hx : Keeps s0 x.1 := ?_); (try clear_value x); rotate_left; dsimp -zeta only [x]; rotate_right) | ((have hx : Keeps s0 x.2 := ?_); (try clear_value x); rotate_left; dsimp -zeta only [x]; rotate_right) | (clear_value x) | skip)
    | lift_lets -underBinder
    | (with_reducible refine keeps_advance ?_ ..)
    | (with_reducible refine keeps_foldl (fun s x hK => ?_) ?_)
    | (with_reducible refine keeps_foldl_fst (fun s x hK => ?_) ?_)
    | (refine keeps_foldl_eq (by assumption) (fun s x hK => ?_) ?_)
    | (with_reducible refine keeps_ite ?_ ?_)
    | (fail_if_no_progress beta_reduce)
    | (dsimp only [Keeps, part]; with_reducible refine keeps_of ?_; first | with_reducible assumption | (with_reducible refine keeps_advance ?_ ..) | (refine keeps_foldl_eq (by assumption) (fun s x hK => ?_) ?_))
    | split
    | (refine keeps_ite ?_ ?_))

theorem keeps_checkGpf {s0 s : State} (hK : Keeps s0 s) :
    Keeps s0 (State.checkGpf s) := by
  unfold State.checkGpf
  repeat' (first
    | (with_reducible assumption)
    | (intro x; first | ((have hx : Keeps s0 x := ?_); (try clear_value x); rotate_left; dsimp -zeta only [x]; rotate_right) | ((have hx : Keeps s0 x.1 := ?_); (try clear_value x); rotate_left; dsimp -zeta only [x]; rotate_right) | ((have hx : Keeps s0 x.2 := ?_); (try clear_value x); rotate_left; dsimp -zeta only [x]; rotate_right) | (clear_value x) | skip)
    | lift_lets -underBinder
    | (with_reducible refine keeps_emit ?_ ..)
    | (with_reducible refine keeps_foldl (fun s x hK => ?_) ?_)
    | (with_reducible refine keeps_foldl_fst (fun s x hK => ?_) ?_)
    | (refine keeps_foldl_eq (by assumption) (fun s x hK => ?_) ?_)
    | (with_reducible refine keeps_ite ?_ ?_)
    | (fail_if_no_progress beta_reduce)
    | (dsimp only [Keeps, part]; with_reducible refine keeps_of ?_; first | with_reducible assumption | (with_reducible refine keeps_emit ?_ ..) | (refine keeps_foldl_eq (by assumption) (fun s x hK => ?_) ?_))
    | split
    | (refine keeps_ite ?_ ?_))

theorem keeps_checkFlush {s0 s : State} (hK : Keeps s0 s) :
    Keeps s0 (State.checkFlush s) := by
  unfold State.checkFlush
  repeat' (first
    | (with_reducible assumption)
    | (intro x; first | ((have hx : Keeps s0 x := ?_); (try clear_value x); rotate_left; dsimp -zeta only [x]; rotate_right) | ((have hx : Keeps s0 x.1 := ?_); (try clear_value x); rotate_left; dsimp -zeta only [x]; rotate_right) | ((have hx : Keeps s0 x.2 := ?_); (try clear_value x); rotate_left; dsimp -zeta only [x]; rotate_right) | (clear_value x) | skip)
    | lift_lets -underBinder
    | (with_reducible refine keeps_endCtrl ?_ ..)
    | (with_reducible refine keeps_foldl (fun s x hK => ?_) ?_)
    | (with_reducible refine keeps_foldl_fst (fun s x hK => ?_) ?_)
    | (refine keeps_foldl_eq (by assumption) (fun s x hK => ?_) ?_)
    | (with_reducible refine keeps_ite ?_ ?_)
    | (fail_if_no_progress beta_reduce)
    | (dsimp only [Keeps, part]; with_reducible refine keeps_of ?_; first | with_reducible assumption | (with_reducible refine keeps_endCtrl ?_ ..) | (refine keeps_foldl_eq (by assumption) (fun s x hK => ?_) ?_))
    | split
    | (refine keeps_ite ?_ ?_))

theorem keeps_checkMoves {s0 s : State} (hK : Keeps s0 s) :
    Keeps s0 (State.checkMoves s) := by
  unfold State.checkMoves
  repeat' (first
    | (with_reducible assumption)
    | (intro x; first | ((have hx : Keeps s0 x := ?_); (try clear_value x); rotate_left; dsimp -zeta only [x]; rotate_right) | ((have hx : Keeps s0 x.1 := ?_); (try clear_value x); rotate_left; dsimp -zeta only [x]; rotate_right) | ((have hx : Keeps s0 x.2 := ?_); (try clear_value x); rotate_left; dsimp -zeta only [x]; rotate_right) | (clear_value x) | skip)
    | lift_lets -underBinder
    | (with_reducible refine keeps_stepMoves ?_ ..)
    | (refine keeps_stepMoves_eq (by assumption) ?_)
    | (with_reducible refine keeps_endCtrl ?_ ..)
    | (with_reducible refine keeps_foldl (fun s x hK => ?_) ?_)
    | (with_reducible refine keeps_foldl_fst (fun s x hK => ?_) ?_)
    | (refine keeps_foldl_eq (by assumption) (fun s x hK => ?_) ?_)
    | (with_reducible refine keeps_ite ?_ ?_)
    | (fail_if_no_progress beta_reduce)
    | (dsimp only [Keeps, part]; with_reducible refine keeps_of ?_; first | with_reducible assumption | (with_reducible refine keeps_stepMoves ?_ ..) | (refine keeps_stepMoves_eq (by assumption) ?_) | (with_reducible refine keeps_endCtrl ?_ ..) | (refine keeps_foldl_eq (by assumption) (fun s x hK => ?_) ?_))
    | split
    | (refine keeps_ite ?_ ?_))

theorem keeps_checkCopyAcks {s0 s : State} (hK : Keeps s0 s) :
    Keeps s0 (State.checkCopyAcks s) := by
  unfold State.checkCopyAcks
  repeat' (first
    | (with_reducible assumption)
    | (intro x; first | ((have hx : Keeps s0 x := ?_); (try clear_value x); rotate_left; dsimp -zeta only [x]; rotate_right) | ((have hx : Keeps s0 x.1 := ?_); (try clear_value x); rotate_left; dsimp -zeta only [x]; rotate_right) | ((have hx : Keeps s0 x.2 := ?_); (try clear_value x); rotate_left; dsimp -zeta only [x]; rotate_right) | (clear_value x) | skip)
    | lift_lets -underBinder
    | (with_reducible refine keeps_reply ?_ ..)
    | (with_reducible refine keeps_foldl (fun s x hK => ?_) ?_)
    | (with_reducible refine keeps_foldl_fst (fun s x hK => ?_) ?_)
    | (refine keeps_foldl_eq (by assumption) (fun s x hK => ?_) ?_)
    | (with_reducible refine keeps_ite ?_ ?_)
    | (fail_if_no_progress beta_reduce)
    | (dsimp only [Keeps, part]; with_reducible refine keeps_of ?_; first | with_reducible assumption | (with_reducible refine keeps_reply ?_ ..) | (refine keeps_foldl_eq (by assumption) (fun s x hK => ?_) ?_))
    | split
    | (refine keeps_ite ?_ ?_))

theorem keeps_dropFetches {s0 s : State} {e : Nat} {sel : Nat → Bool} (hK : Keeps s0 s) :
    Keeps s0 (State.dropFetches s e sel) := by
  unfold State.dropFetches
  repeat' (first
    | (with_reducible assumption)
    | (intro x; first | ((have hx : Keeps s0 x := ?_); (try clear_value x); rotate_left; dsimp -zeta only [x]; rotate_right) | ((have hx : Keeps s0 x.1 := ?_); (try clear_value x); rotate_left; dsimp -zeta only [x]; rotate_right) | ((have hx : Keeps s0 x.2 := ?_); (try clear_value x); rotate_left; dsimp -zeta only [x]; rotate_right) | (clear_value x) | skip)
    | lift_lets -underBinder
    | (with_reducible refine keeps_ite ?_ ?_)
    | (fail_if_no_progress beta_reduce)
    | (dsimp only [Keeps, part]; with_reducible refine keeps_of ?_; first | with_reducible assumption)
    | split
    | (refine keeps_ite ?_ ?_))

theorem keeps_endRun {s0 s : State} {e : Nat} {r : Run} (hK : Keeps s0 s) :
    Keeps s0 (State.endRun s e r) := by
  unfold State.endRun
  repeat' (first
    | (with_reducible assumption)
    | (intro x; first | ((have hx : Keeps s0 x := ?_); (try clear_value x); rotate_left; dsimp -zeta only [x]; rotate_right) | ((have hx : Keeps s0 x.1 := ?_); (try clear_value x); rotate_left; dsimp -zeta only [x]; rotate_right) | ((have hx : Keeps s0 x.2 := ?_); (try clear_value x); rotate_left; dsimp -zeta only [x]; rotate_right) | (clear_value x) | skip)
    | lift_lets -underBinder
    | (with_reducible refine keeps_updRun ?_ ..)
    | (with_reducible refine keeps_submit ?_ ..)
    | (with_reducible refine keeps_finishRun ?_ ..)
    | (with_reducible refine keeps_dropFetches ?_ ..)
    | (with_reducible refine keeps_ite ?_ ?_)
    | (fail_if_no_progress beta_reduce)
    | (dsimp only [Keeps, part]; with_reducible refine keeps_of ?_; first | with_reducible assumption | (with_reducible refine keeps_updRun ?_ ..) | (with_reducible refine keeps_submit ?_ ..) | (with_reducible refine keeps_finishRun ?_ ..) | (with_reducible refine keeps_dropFetches ?_ ..))
    | split
    | (refine keeps_ite ?_ ?_))

theorem keeps_checkEngines {s0 s : State} (hK : Keeps s0 s) :
    Keeps s0 (State.checkEngines s) := by
  unfold State.checkEngines
  repeat' (first
    | (with_reducible assumption)
    | (intro x; first | ((have hx : Keeps s0 x := ?_); (try clear_value x); rotate_left; dsimp -zeta only [x]; rotate_right) | ((have hx : Keeps s0 x.1 := ?_); (try clear_value x); rotate_left; dsimp -zeta only [x]; rotate_right) | ((have hx : Keeps s0 x.2 := ?_); (try clear_value x); rotate_left; dsimp -zeta only [x]; rotate_right) | (clear_value x) | skip)
    | lift_lets -underBinder
    | (with_reducible refine keeps_endRun ?_ ..)
    | (with_reducible refine keeps_foldl (fun s x hK => ?_) ?_)
    | (with_reducible refine keeps_foldl_fst (fun s x hK => ?_) ?_)
    | (refine keeps_foldl_eq (by assumption) (fun s x hK => ?_) ?_)
    | (with_reducible refine keeps_ite ?_ ?_)
    | (fail_if_no_progress beta_reduce)
    | (dsimp only [Keeps, part]; with_reducible refine keeps_of ?_; first | with_reducible assumption | (with_reducible refine keeps_endRun ?_ ..) | (refine keeps_foldl_eq (by assumption) (fun s x hK => ?_) ?_))
    | split
    | (refine keeps_ite ?_ ?_))

theorem keeps_settle {s0 s : State} (hK : Keeps s0 s) :
    Keeps s0 (State.settle s) := by
  unfold State.settle
  repeat' (first
    | (with_reducible assumption)
    | (intro x; first | ((have hx : Keeps s0 x := ?_); (try clear_value x); rotate_left; dsimp -zeta only [x]; rotate_right) | ((have hx : Keeps s0 x.1 := ?_); (try clear_value x); rotate_left; dsimp -zeta only [x]; rotate_right) | ((have hx : Keeps s0 x.2 := ?_); (try clear_value x); rotate_left; dsimp -zeta only [x]; rotate_right) | (clear_value x) | skip)
    | lift_lets -underBinder
    | (with_reducible refine keeps_checkBudget ?_ ..)
    | (with_reducible refine keeps_planDestage ?_ ..)
    | (with_reducible refine keeps_repairLost ?_ ..)
    | (with_reducible refine keeps_pass ?_ ..)
    | (with_reducible refine keeps_checkGpf ?_ ..)
    | (with_reducible refine keeps_checkFlush ?_ ..)
    | (with_reducible refine keeps_checkMoves ?_ ..)
    | (with_reducible refine keeps_checkCopyAcks ?_ ..)
    | (with_reducible refine keeps_checkEngines ?_ ..)
    | (with_reducible refine keeps_ite ?_ ?_)
    | (fail_if_no_progress beta_reduce)
    | (dsimp only [Keeps, part]; with_reducible refine keeps_of ?_; first | with_reducible assumption | (with_reducible refine keeps_checkBudget ?_ ..) | (with_reducible refine keeps_planDestage ?_ ..) | (with_reducible refine keeps_repairLost ?_ ..) | (with_reducible refine keeps_pass ?_ ..) | (with_reducible refine keeps_checkGpf ?_ ..) | (with_reducible refine keeps_checkFlush ?_ ..) | (with_reducible refine keeps_checkMoves ?_ ..) | (with_reducible refine keeps_checkCopyAcks ?_ ..) | (with_reducible refine keeps_checkEngines ?_ ..))
    | split
    | (refine keeps_ite ?_ ?_))

theorem keeps_retryHeld {s0 s : State} (hK : Keeps s0 s) :
    Keeps s0 (State.retryHeld s) := by
  unfold State.retryHeld
  repeat' (first
    | (with_reducible assumption)
    | (intro x; first | ((have hx : Keeps s0 x := ?_); (try clear_value x); rotate_left; dsimp -zeta only [x]; rotate_right) | ((have hx : Keeps s0 x.1 := ?_); (try clear_value x); rotate_left; dsimp -zeta only [x]; rotate_right) | ((have hx : Keeps s0 x.2 := ?_); (try clear_value x); rotate_left; dsimp -zeta only [x]; rotate_right) | (clear_value x) | skip)
    | lift_lets -underBinder
    | (with_reducible refine keeps_start ?_ ..)
    | (with_reducible refine keeps_foldl (fun s x hK => ?_) ?_)
    | (with_reducible refine keeps_foldl_fst (fun s x hK => ?_) ?_)
    | (refine keeps_foldl_eq (by assumption) (fun s x hK => ?_) ?_)
    | (with_reducible refine keeps_ite ?_ ?_)
    | (fail_if_no_progress beta_reduce)
    | (dsimp only [Keeps, part]; with_reducible refine keeps_of ?_; first | with_reducible assumption | (with_reducible refine keeps_start ?_ ..) | (refine keeps_foldl_eq (by assumption) (fun s x hK => ?_) ?_))
    | split
    | (refine keeps_ite ?_ ?_))

theorem keeps_resend {s0 s : State} {sel : Req → Bool} (hK : Keeps s0 s) :
    Keeps s0 (State.resend s sel) := by
  unfold State.resend
  repeat' (first
    | (with_reducible assumption)
    | (intro x; first | ((have hx : Keeps s0 x := ?_); (try clear_value x); rotate_left; dsimp -zeta only [x]; rotate_right) | ((have hx : Keeps s0 x.1 := ?_); (try clear_value x); rotate_left; dsimp -zeta only [x]; rotate_right) | ((have hx : Keeps s0 x.2 := ?_); (try clear_value x); rotate_left; dsimp -zeta only [x]; rotate_right) | (clear_value x) | skip)
    | lift_lets -underBinder
    | (with_reducible refine keeps_putReq ?_ ..)
    | (with_reducible refine keeps_start ?_ ..)
    | (with_reducible refine keeps_foldl (fun s x hK => ?_) ?_)
    | (with_reducible refine keeps_foldl_fst (fun s x hK => ?_) ?_)
    | (refine keeps_foldl_eq (by assumption) (fun s x hK => ?_) ?_)
    | (with_reducible refine keeps_ite ?_ ?_)
    | (fail_if_no_progress beta_reduce)
    | (dsimp only [Keeps, part]; with_reducible refine keeps_of ?_; first | with_reducible assumption | (with_reducible refine keeps_putReq ?_ ..) | (with_reducible refine keeps_start ?_ ..) | (refine keeps_foldl_eq (by assumption) (fun s x hK => ?_) ?_))
    | split
    | (refine keeps_ite ?_ ?_))

theorem keeps_reissueStores {s0 s : State} (hK : Keeps s0 s) :
    Keeps s0 (State.reissueStores s) := by
  unfold State.reissueStores
  repeat' (first
    | (with_reducible assumption)
    | (intro x; first | ((have hx : Keeps s0 x := ?_); (try clear_value x); rotate_left; dsimp -zeta only [x]; rotate_right) | ((have hx : Keeps s0 x.1 := ?_); (try clear_value x); rotate_left; dsimp -zeta only [x]; rotate_right) | ((have hx : Keeps s0 x.2 := ?_); (try clear_value x); rotate_left; dsimp -zeta only [x]; rotate_right) | (clear_value x) | skip)
    | lift_lets -underBinder
    | (with_reducible refine keeps_putReq ?_ ..)
    | (with_reducible refine keeps_start ?_ ..)
    | (with_reducible refine keeps_foldl (fun s x hK => ?_) ?_)
    | (with_reducible refine keeps_foldl_fst (fun s x hK => ?_) ?_)
    | (refine keeps_foldl_eq (by assumption) (fun s x hK => ?_) ?_)
    | (with_reducible refine keeps_ite ?_ ?_)
    | (fail_if_no_progress beta_reduce)
    | (dsimp only [Keeps, part]; with_reducible refine keeps_of ?_; first | with_reducible assumption | (with_reducible refine keeps_putReq ?_ ..) | (with_reducible refine keeps_start ?_ ..) | (refine keeps_foldl_eq (by assumption) (fun s x hK => ?_) ?_))
    | split
    | (refine keeps_ite ?_ ?_))

theorem keeps_resendMoved {s0 s : State} (hK : Keeps s0 s) :
    Keeps s0 (State.resendMoved s) := by
  unfold State.resendMoved
  repeat' (first
    | (with_reducible assumption)
    | (intro x; first | ((have hx : Keeps s0 x := ?_); (try clear_value x); rotate_left; dsimp -zeta only [x]; rotate_right) | ((have hx : Keeps s0 x.1 := ?_); (try clear_value x); rotate_left; dsimp -zeta only [x]; rotate_right) | ((have hx : Keeps s0 x.2 := ?_); (try clear_value x); rotate_left; dsimp -zeta only [x]; rotate_right) | (clear_value x) | skip)
    | lift_lets -underBinder
    | (with_reducible refine keeps_resend ?_ ..)
    | (with_reducible refine keeps_ite ?_ ?_)
    | (fail_if_no_progress beta_reduce)
    | (dsimp only [Keeps, part]; with_reducible refine keeps_of ?_; first | with_reducible assumption | (with_reducible refine keeps_resend ?_ ..))
    | split
    | (refine keeps_ite ?_ ?_))

end Sys2Proof.Laws
end

