-- ==== Sys2Proof/Laws/KeepsAccess.lean ====
section
/-! SUPPORT. Every operation of Machine/Access.lean keeps what Laws/Keeps.lean says. -/

set_option linter.unusedTactic false
set_option linter.unreachableTactic false
set_option linter.unusedVariables false

namespace Sys2Proof.Laws

open Sys2Proof Machine

theorem keeps_flagAccess {s0 s : State} {via : Via} {off : Nat} {write : Bool} {f : FieldRef} (hK : Keeps s0 s) :
    Keeps s0 (State.flagAccess s via off write f) := by
  unfold State.flagAccess
  repeat' (first
    | (with_reducible assumption)
    | (intro x; first | ((have hx : Keeps s0 x := ?_); (try clear_value x); rotate_left; dsimp -zeta only [x]; rotate_right) | ((have hx : Keeps s0 x.1 := ?_); (try clear_value x); rotate_left; dsimp -zeta only [x]; rotate_right) | ((have hx : Keeps s0 x.2 := ?_); (try clear_value x); rotate_left; dsimp -zeta only [x]; rotate_right) | (clear_value x) | skip)
    | lift_lets -underBinder
    | (with_reducible refine keeps_setReg ?_ ..)
    | (with_reducible refine keeps_raise ?_ ..)
    | (with_reducible refine keeps_ite ?_ ?_)
    | (fail_if_no_progress beta_reduce)
    | (dsimp only [Keeps, part]; with_reducible refine keeps_of ?_; first | with_reducible assumption | (with_reducible refine keeps_setReg ?_ ..) | (with_reducible refine keeps_raise ?_ ..))
    | split
    | (refine keeps_ite ?_ ?_))

/-- What an admission keeps, whether the access is served or dropped. -/
theorem keeps_admit {s0 s : State} {via : Via} {off : Nat} {write : Bool} (hK : Keeps s0 s) :
    Keeps s0 (match s.checkPath via off write with | .drop t => t | .serve t => t) := by
  unfold State.checkPath
  by_cases h1 : (!s.pathUp via) = true
  · rw [if_pos h1]; exact hK
  · rw [if_neg h1]
    by_cases h2 : (!s.wholeSpace via && decide (off < 0x2000000)) = true
    · rw [if_pos h2]; exact hK
    · rw [if_neg h2]
      by_cases h3 : (!s.blockServed off) = true
      · rw [if_pos h3]; exact keeps_flagAccess hK
      · rw [if_neg h3]; exact hK

theorem keeps_admit_drop {s0 s t : State} {via : Via} {off : Nat} {write : Bool} (e : s.checkPath via off write = .drop t)
    (hK : Keeps s0 s) : Keeps s0 t := by
  have k := keeps_admit (via := via) (off := off) (write := write) hK
  rw [e] at k
  exact k

theorem keeps_admit_serve {s0 s t : State} {via : Via} {off : Nat} {write : Bool} (e : s.checkPath via off write = .serve t)
    (hK : Keeps s0 s) : Keeps s0 t := by
  have k := keeps_admit (via := via) (off := off) (write := write) hK
  rw [e] at k
  exact k

theorem keeps_writeFields {s0 s : State} {r : Reg} {i : Nat} {w : AccW} {v : Word} {fenced : Bool} (hK : Keeps s0 s) :
    Keeps s0 (State.writeFields s r i w v fenced) := by
  unfold State.writeFields
  repeat' (first
    | (with_reducible assumption)
    | (intro x; first | ((have hx : Keeps s0 x := ?_); (try clear_value x); rotate_left; dsimp -zeta only [x]; rotate_right) | ((have hx : Keeps s0 x.1 := ?_); (try clear_value x); rotate_left; dsimp -zeta only [x]; rotate_right) | ((have hx : Keeps s0 x.2 := ?_); (try clear_value x); rotate_left; dsimp -zeta only [x]; rotate_right) | (clear_value x) | skip)
    | lift_lets -underBinder
    | (with_reducible refine keeps_setReg ?_ ..)
    | (with_reducible refine keeps_ite ?_ ?_)
    | (fail_if_no_progress beta_reduce)
    | (dsimp only [Keeps, part]; with_reducible refine keeps_of ?_; first | with_reducible assumption | (with_reducible refine keeps_setReg ?_ ..))
    | split
    | (refine keeps_ite ?_ ?_))

theorem keeps_checkRsv {s0 s : State} {via : Via} {off : Nat} {r : Reg} {w : AccW} {v : Word} (hK : Keeps s0 s) :
    Keeps s0 (State.checkRsv s via off r w v) := by
  unfold State.checkRsv
  repeat' (first
    | (with_reducible assumption)
    | (intro x; first | ((have hx : Keeps s0 x := ?_); (try clear_value x); rotate_left; dsimp -zeta only [x]; rotate_right) | ((have hx : Keeps s0 x.1 := ?_); (try clear_value x); rotate_left; dsimp -zeta only [x]; rotate_right) | ((have hx : Keeps s0 x.2 := ?_); (try clear_value x); rotate_left; dsimp -zeta only [x]; rotate_right) | (clear_value x) | skip)
    | lift_lets -underBinder
    | (with_reducible refine keeps_flagAccess ?_ ..)
    | (with_reducible refine keeps_ite ?_ ?_)
    | (fail_if_no_progress beta_reduce)
    | (dsimp only [Keeps, part]; with_reducible refine keeps_of ?_; first | with_reducible assumption | (with_reducible refine keeps_flagAccess ?_ ..))
    | split
    | (refine keeps_ite ?_ ?_))

theorem keeps_writeAt {s0 s : State} {via : Via} {r : Reg} {i : Nat} {w : AccW} {v : Word} {act : State → State} (hK : Keeps s0 s) (hact : ∀ t, Keeps s0 t → Keeps s0 (act t)) :
    Keeps s0 (State.writeAt s via r i w v act) := by
  unfold State.writeAt
  repeat' (first
    | (with_reducible assumption)
    | (intro x; first | ((have hx : Keeps s0 x := ?_); (try clear_value x); rotate_left; dsimp -zeta only [x]; rotate_right) | ((have hx : Keeps s0 x.1 := ?_); (try clear_value x); rotate_left; dsimp -zeta only [x]; rotate_right) | ((have hx : Keeps s0 x.2 := ?_); (try clear_value x); rotate_left; dsimp -zeta only [x]; rotate_right) | (clear_value x) | skip)
    | lift_lets -underBinder
    | (with_reducible refine hact _ _ _ ?_)
    | (with_reducible refine hact _ ?_)
    | (with_reducible refine hact _ _ ?_)
    | (with_reducible refine keeps_serve ?_ ..)
    | (with_reducible refine keeps_flagAccess ?_ ..)
    | (with_reducible refine keeps_writeFields ?_ ..)
    | (with_reducible refine keeps_checkRsv ?_ ..)
    | (refine keeps_admit_drop (by assumption) ?_)
    | (refine keeps_admit_serve (by assumption) ?_)
    | (with_reducible refine keeps_ite ?_ ?_)
    | (fail_if_no_progress beta_reduce)
    | (dsimp only [Keeps, part]; with_reducible refine keeps_of ?_; first | with_reducible assumption | (with_reducible refine keeps_serve ?_ ..) | (with_reducible refine keeps_flagAccess ?_ ..) | (with_reducible refine keeps_writeFields ?_ ..) | (with_reducible refine keeps_checkRsv ?_ ..) | (refine keeps_admit_drop (by assumption) ?_) | (refine keeps_admit_serve (by assumption) ?_))
    | split
    | (refine keeps_ite ?_ ?_))

theorem keeps_writePlain {s0 s : State} {via : Via} {r : Reg} {i : Nat} {w : AccW} {v : Word} (hK : Keeps s0 s) :
    Keeps s0 (State.writePlain s via r i w v) := by
  unfold State.writePlain
  repeat' (first
    | (with_reducible assumption)
    | (intro x; first | ((have hx : Keeps s0 x := ?_); (try clear_value x); rotate_left; dsimp -zeta only [x]; rotate_right) | ((have hx : Keeps s0 x.1 := ?_); (try clear_value x); rotate_left; dsimp -zeta only [x]; rotate_right) | ((have hx : Keeps s0 x.2 := ?_); (try clear_value x); rotate_left; dsimp -zeta only [x]; rotate_right) | (clear_value x) | skip)
    | lift_lets -underBinder
    | (with_reducible refine keeps_writeFields ?_ ..)
    | (with_reducible refine keeps_writeAt ?_ ?_ ..)
    | (with_reducible refine keeps_ite ?_ ?_)
    | (fail_if_no_progress beta_reduce)
    | (dsimp only [Keeps, part]; with_reducible refine keeps_of ?_; first | with_reducible assumption | (with_reducible refine keeps_writeFields ?_ ..) | (with_reducible refine keeps_writeAt ?_ ?_ ..))
    | split
    | (refine keeps_ite ?_ ?_))

theorem keeps_readAt {s0 s : State} {via : Via} {r : Reg} {i : Nat} {w : AccW} {v : Word} {after : State → State} (hK : Keeps s0 s) (hafter : ∀ t, Keeps s0 t → Keeps s0 (after t)) :
    Keeps s0 (State.readAt s via r i w v after) := by
  unfold State.readAt
  repeat' (first
    | (with_reducible assumption)
    | (intro x; first | ((have hx : Keeps s0 x := ?_); (try clear_value x); rotate_left; dsimp -zeta only [x]; rotate_right) | ((have hx : Keeps s0 x.1 := ?_); (try clear_value x); rotate_left; dsimp -zeta only [x]; rotate_right) | ((have hx : Keeps s0 x.2 := ?_); (try clear_value x); rotate_left; dsimp -zeta only [x]; rotate_right) | (clear_value x) | skip)
    | lift_lets -underBinder
    | (with_reducible refine hafter _ _ _ ?_)
    | (with_reducible refine hafter _ ?_)
    | (with_reducible refine hafter _ _ ?_)
    | (with_reducible refine keeps_emit ?_ ..)
    | (with_reducible refine keeps_serve ?_ ..)
    | (refine keeps_admit_drop (by assumption) ?_)
    | (refine keeps_admit_serve (by assumption) ?_)
    | (with_reducible refine keeps_ite ?_ ?_)
    | (fail_if_no_progress beta_reduce)
    | (dsimp only [Keeps, part]; with_reducible refine keeps_of ?_; first | with_reducible assumption | (with_reducible refine keeps_emit ?_ ..) | (with_reducible refine keeps_serve ?_ ..) | (refine keeps_admit_drop (by assumption) ?_) | (refine keeps_admit_serve (by assumption) ?_))
    | split
    | (refine keeps_ite ?_ ?_))

theorem keeps_clearRead {s0 s : State} {f : FieldRef} {i : Nat} {w : AccW} (hK : Keeps s0 s) :
    Keeps s0 (State.clearRead s f i w) := by
  unfold State.clearRead
  repeat' (first
    | (with_reducible assumption)
    | (intro x; first | ((have hx : Keeps s0 x := ?_); (try clear_value x); rotate_left; dsimp -zeta only [x]; rotate_right) | ((have hx : Keeps s0 x.1 := ?_); (try clear_value x); rotate_left; dsimp -zeta only [x]; rotate_right) | ((have hx : Keeps s0 x.2 := ?_); (try clear_value x); rotate_left; dsimp -zeta only [x]; rotate_right) | (clear_value x) | skip)
    | lift_lets -underBinder
    | (with_reducible refine keeps_setF ?_ ..)
    | (with_reducible refine keeps_ite ?_ ?_)
    | (fail_if_no_progress beta_reduce)
    | (dsimp only [Keeps, part]; with_reducible refine keeps_of ?_; first | with_reducible assumption | (with_reducible refine keeps_setF ?_ ..))
    | split
    | (refine keeps_ite ?_ ?_))

theorem keeps_readCounters {s0 s : State} {via : Via} {r : Reg} {i : Nat} {w : AccW} {fs : List FieldRef} (hK : Keeps s0 s) :
    Keeps s0 (State.readCounters s via r i w fs) := by
  unfold State.readCounters
  repeat' (first
    | (with_reducible assumption)
    | (intro x; first | ((have hx : Keeps s0 x := ?_); (try clear_value x); rotate_left; dsimp -zeta only [x]; rotate_right) | ((have hx : Keeps s0 x.1 := ?_); (try clear_value x); rotate_left; dsimp -zeta only [x]; rotate_right) | ((have hx : Keeps s0 x.2 := ?_); (try clear_value x); rotate_left; dsimp -zeta only [x]; rotate_right) | (clear_value x) | skip)
    | lift_lets -underBinder
    | (with_reducible refine keeps_readAt ?_ ?_ ..)
    | (with_reducible refine keeps_clearRead ?_ ..)
    | (with_reducible refine keeps_foldl (fun s x hK => ?_) ?_)
    | (with_reducible refine keeps_foldl_fst (fun s x hK => ?_) ?_)
    | (refine keeps_foldl_eq (by assumption) (fun s x hK => ?_) ?_)
    | (with_reducible refine keeps_ite ?_ ?_)
    | (fail_if_no_progress beta_reduce)
    | (dsimp only [Keeps, part]; with_reducible refine keeps_of ?_; first | with_reducible assumption | (with_reducible refine keeps_readAt ?_ ?_ ..) | (with_reducible refine keeps_clearRead ?_ ..) | (refine keeps_foldl_eq (by assumption) (fun s x hK => ?_) ?_))
    | split
    | (refine keeps_ite ?_ ?_))

theorem keeps_command {s0 s : State} {via : Via} {r : Reg} {i : Nat} {args : List (Reg × Word)} {v : Word} {run : State → State} (hK : Keeps s0 s) (hrun : ∀ t, Keeps s0 t → Keeps s0 (run t)) :
    Keeps s0 (State.command s via r i args v run) := by
  unfold State.command
  repeat' (first
    | (with_reducible assumption)
    | (intro x; first | ((have hx : Keeps s0 x := ?_); (try clear_value x); rotate_left; dsimp -zeta only [x]; rotate_right) | ((have hx : Keeps s0 x.1 := ?_); (try clear_value x); rotate_left; dsimp -zeta only [x]; rotate_right) | ((have hx : Keeps s0 x.2 := ?_); (try clear_value x); rotate_left; dsimp -zeta only [x]; rotate_right) | (clear_value x) | skip)
    | lift_lets -underBinder
    | (with_reducible refine hrun _ _ _ ?_)
    | (with_reducible refine hrun _ ?_)
    | (with_reducible refine hrun _ _ ?_)
    | (with_reducible refine keeps_setReg ?_ ..)
    | (with_reducible refine keeps_serve ?_ ..)
    | (with_reducible refine keeps_writeAt ?_ ?_ ..)
    | (refine keeps_admit_drop (by assumption) ?_)
    | (refine keeps_admit_serve (by assumption) ?_)
    | (with_reducible refine keeps_foldl (fun s x hK => ?_) ?_)
    | (with_reducible refine keeps_foldl_fst (fun s x hK => ?_) ?_)
    | (refine keeps_foldl_eq (by assumption) (fun s x hK => ?_) ?_)
    | (with_reducible refine keeps_ite ?_ ?_)
    | (fail_if_no_progress beta_reduce)
    | (dsimp only [Keeps, part]; with_reducible refine keeps_of ?_; first | with_reducible assumption | (with_reducible refine keeps_setReg ?_ ..) | (with_reducible refine keeps_serve ?_ ..) | (with_reducible refine keeps_writeAt ?_ ?_ ..) | (refine keeps_admit_drop (by assumption) ?_) | (refine keeps_admit_serve (by assumption) ?_) | (refine keeps_foldl_eq (by assumption) (fun s x hK => ?_) ?_))
    | split
    | (refine keeps_ite ?_ ?_))

end Sys2Proof.Laws
end

