-- ==== Sys2Proof/Laws/KeepsTiers.lean ====
section
/-! SUPPORT. Every operation of Machine/Tiers.lean keeps what Laws/Keeps.lean says. -/

set_option linter.unusedTactic false
set_option linter.unreachableTactic false
set_option linter.unusedVariables false

namespace Sys2Proof.Laws

open Sys2Proof Machine

theorem keeps_execMigrationCopyDone {s0 s : State} {span : Nat} {at_ : Nat} (hK : Keeps s0 s) :
    XKeeps s0 (execMigrationCopyDone span at_ s) := by
  unfold execMigrationCopyDone
  repeat' (first
    | (with_reducible assumption)
    | (intro x; first | ((have hx : Keeps s0 x := ?_); (try clear_value x); rotate_left; dsimp -zeta only [x]; rotate_right) | ((have hx : Keeps s0 x.1 := ?_); (try clear_value x); rotate_left; dsimp -zeta only [x]; rotate_right) | ((have hx : Keeps s0 x.2 := ?_); (try clear_value x); rotate_left; dsimp -zeta only [x]; rotate_right) | (clear_value x) | skip)
    | lift_lets -underBinder
    | (with_reducible refine keeps_tick ?_ ..)
    | (with_reducible refine keeps_commitChange ?_ ..)
    | (with_reducible refine keeps_checkDemotion ?_ ..)
    | (with_reducible refine keeps_commitPromotion ?_ ..)
    | (with_reducible refine keeps_settle ?_ ..)
    | (with_reducible refine keeps_ite ?_ ?_)
    | (with_reducible refine xkeeps_next ?_)
    | (fail_if_no_progress beta_reduce)
    | (dsimp only [Keeps, part]; with_reducible refine keeps_of ?_; first | with_reducible assumption | (with_reducible refine keeps_tick ?_ ..) | (with_reducible refine keeps_commitChange ?_ ..) | (with_reducible refine keeps_checkDemotion ?_ ..) | (with_reducible refine keeps_commitPromotion ?_ ..) | (with_reducible refine keeps_settle ?_ ..))
    | split
    | (refine keeps_ite ?_ ?_))

theorem keeps_execDecayTimer {s0 s : State} {at_ : Nat} (hK : Keeps s0 s) :
    XKeeps s0 (execDecayTimer at_ s) := by
  unfold execDecayTimer
  repeat' (first
    | (with_reducible assumption)
    | (intro x; first | ((have hx : Keeps s0 x := ?_); (try clear_value x); rotate_left; dsimp -zeta only [x]; rotate_right) | ((have hx : Keeps s0 x.1 := ?_); (try clear_value x); rotate_left; dsimp -zeta only [x]; rotate_right) | ((have hx : Keeps s0 x.2 := ?_); (try clear_value x); rotate_left; dsimp -zeta only [x]; rotate_right) | (clear_value x) | skip)
    | lift_lets -underBinder
    | (with_reducible refine keeps_tick ?_ ..)
    | (with_reducible refine keeps_heat ?_ ..)
    | (with_reducible refine keeps_ite ?_ ?_)
    | (with_reducible refine xkeeps_next ?_)
    | (fail_if_no_progress beta_reduce)
    | (dsimp only [Keeps, part]; with_reducible refine keeps_of ?_; first | with_reducible assumption | (with_reducible refine keeps_tick ?_ ..) | (with_reducible refine keeps_heat ?_ ..))
    | split
    | (refine keeps_ite ?_ ?_))

theorem keeps_writeQuota {s0 s : State} {via : Via} {tier : Nat} {w : AccW} {v : Word} (hK : Keeps s0 s) :
    Keeps s0 (State.writeQuota s via tier w v) := by
  unfold State.writeQuota
  repeat' (first
    | (with_reducible assumption)
    | (intro x; first | ((have hx : Keeps s0 x := ?_); (try clear_value x); rotate_left; dsimp -zeta only [x]; rotate_right) | ((have hx : Keeps s0 x.1 := ?_); (try clear_value x); rotate_left; dsimp -zeta only [x]; rotate_right) | ((have hx : Keeps s0 x.2 := ?_); (try clear_value x); rotate_left; dsimp -zeta only [x]; rotate_right) | (clear_value x) | skip)
    | lift_lets -underBinder
    | (with_reducible refine keeps_put ?_ ..)
    | (with_reducible refine keeps_send ?_ ..)
    | (with_reducible refine keeps_checkDemotion ?_ ..)
    | (with_reducible refine keeps_settle ?_ ..)
    | (with_reducible refine keeps_writeAt ?_ ?_ ..)
    | (with_reducible refine keeps_ite ?_ ?_)
    | (fail_if_no_progress beta_reduce)
    | (dsimp only [Keeps, part]; with_reducible refine keeps_of ?_; first | with_reducible assumption | (with_reducible refine keeps_put ?_ ..) | (with_reducible refine keeps_send ?_ ..) | (with_reducible refine keeps_checkDemotion ?_ ..) | (with_reducible refine keeps_settle ?_ ..) | (with_reducible refine keeps_writeAt ?_ ?_ ..))
    | split
    | (refine keeps_ite ?_ ?_))

theorem keeps_execQuotaWrite {s0 s : State} {via : Via} {tier : Nat} {w : AccW} {v : Word} {at_ : Nat} (hK : Keeps s0 s) :
    XKeeps s0 (execQuotaWrite via tier w v at_ s) := by
  unfold execQuotaWrite
  repeat' (first
    | (with_reducible assumption)
    | (intro x; first | ((have hx : Keeps s0 x := ?_); (try clear_value x); rotate_left; dsimp -zeta only [x]; rotate_right) | ((have hx : Keeps s0 x.1 := ?_); (try clear_value x); rotate_left; dsimp -zeta only [x]; rotate_right) | ((have hx : Keeps s0 x.2 := ?_); (try clear_value x); rotate_left; dsimp -zeta only [x]; rotate_right) | (clear_value x) | skip)
    | lift_lets -underBinder
    | (with_reducible refine keeps_tick ?_ ..)
    | (with_reducible refine keeps_writeQuota ?_ ..)
    | (with_reducible refine keeps_ite ?_ ?_)
    | (with_reducible refine xkeeps_next ?_)
    | (fail_if_no_progress beta_reduce)
    | (dsimp only [Keeps, part]; with_reducible refine keeps_of ?_; first | with_reducible assumption | (with_reducible refine keeps_tick ?_ ..) | (with_reducible refine keeps_writeQuota ?_ ..))
    | split
    | (refine keeps_ite ?_ ?_))

theorem keeps_execQuotaSet {s0 s : State} {h : Hdr} {tenant : Nat} {tier : Nat} {v : Nat} {dt : Nat} (hK : Keeps s0 s) :
    XKeeps s0 (execQuotaSet h tenant tier v dt s) := by
  unfold execQuotaSet
  repeat' (first
    | (with_reducible assumption)
    | (intro x; first | ((have hx : Keeps s0 x := ?_); (try clear_value x); rotate_left; dsimp -zeta only [x]; rotate_right) | ((have hx : Keeps s0 x.1 := ?_); (try clear_value x); rotate_left; dsimp -zeta only [x]; rotate_right) | ((have hx : Keeps s0 x.2 := ?_); (try clear_value x); rotate_left; dsimp -zeta only [x]; rotate_right) | (clear_value x) | skip)
    | lift_lets -underBinder
    | (with_reducible refine keeps_put ?_ ..)
    | (with_reducible refine keeps_receive ?_ ?_ ..)
    | (with_reducible refine keeps_checkDemotion ?_ ..)
    | (with_reducible refine keeps_settle ?_ ..)
    | (with_reducible refine keeps_ite ?_ ?_)
    | (with_reducible refine xkeeps_next ?_)
    | (fail_if_no_progress beta_reduce)
    | (dsimp only [Keeps, part]; with_reducible refine keeps_of ?_; first | with_reducible assumption | (with_reducible refine keeps_put ?_ ..) | (with_reducible refine keeps_receive ?_ ?_ ..) | (with_reducible refine keeps_checkDemotion ?_ ..) | (with_reducible refine keeps_settle ?_ ..))
    | split
    | (refine keeps_ite ?_ ?_))

theorem keeps_execFloatGapMove {s0 s : State} {module : Nat} {region : Nat} (hK : Keeps s0 s) :
    XKeeps s0 (execFloatGapMove module region s) := by
  unfold execFloatGapMove
  repeat' (first
    | (with_reducible assumption)
    | (intro x; first | ((have hx : Keeps s0 x := ?_); (try clear_value x); rotate_left; dsimp -zeta only [x]; rotate_right) | ((have hx : Keeps s0 x.1 := ?_); (try clear_value x); rotate_left; dsimp -zeta only [x]; rotate_right) | ((have hx : Keeps s0 x.2 := ?_); (try clear_value x); rotate_left; dsimp -zeta only [x]; rotate_right) | (clear_value x) | skip)
    | lift_lets -underBinder
    | (with_reducible refine keeps_put ?_ ..)
    | (with_reducible refine keeps_start ?_ ..)
    | (with_reducible refine keeps_ite ?_ ?_)
    | (with_reducible refine xkeeps_next ?_)
    | (fail_if_no_progress beta_reduce)
    | (dsimp only [Keeps, part]; with_reducible refine keeps_of ?_; first | with_reducible assumption | (with_reducible refine keeps_put ?_ ..) | (with_reducible refine keeps_start ?_ ..))
    | split
    | (refine keeps_ite ?_ ?_))

theorem keeps_execFloatSwapCheck {s0 s : State} {module : Nat} (hK : Keeps s0 s) :
    XKeeps s0 (execFloatSwapCheck module s) := by
  unfold execFloatSwapCheck
  repeat' (first
    | (with_reducible assumption)
    | (intro x; first | ((have hx : Keeps s0 x := ?_); (try clear_value x); rotate_left; dsimp -zeta only [x]; rotate_right) | ((have hx : Keeps s0 x.1 := ?_); (try clear_value x); rotate_left; dsimp -zeta only [x]; rotate_right) | ((have hx : Keeps s0 x.2 := ?_); (try clear_value x); rotate_left; dsimp -zeta only [x]; rotate_right) | (clear_value x) | skip)
    | lift_lets -underBinder
    | (with_reducible refine keeps_bump ?_ ..)
    | (with_reducible refine keeps_put ?_ ..)
    | (with_reducible refine keeps_getD ?_ ?_)
    | (with_reducible refine keeps_ite ?_ ?_)
    | (with_reducible refine xkeeps_next ?_)
    | (fail_if_no_progress beta_reduce)
    | (dsimp only [Keeps, part]; with_reducible refine keeps_of ?_; first | with_reducible assumption | (with_reducible refine keeps_bump ?_ ..) | (with_reducible refine keeps_put ?_ ..))
    | split
    | (refine keeps_ite ?_ ?_))

theorem keeps_execStMigCountRead {s0 s : State} {via : Via} {w : AccW} (hK : Keeps s0 s) :
    XKeeps s0 (execStMigCountRead via w s) := by
  unfold execStMigCountRead
  repeat' (first
    | (with_reducible assumption)
    | (intro x; first | ((have hx : Keeps s0 x := ?_); (try clear_value x); rotate_left; dsimp -zeta only [x]; rotate_right) | ((have hx : Keeps s0 x.1 := ?_); (try clear_value x); rotate_left; dsimp -zeta only [x]; rotate_right) | ((have hx : Keeps s0 x.2 := ?_); (try clear_value x); rotate_left; dsimp -zeta only [x]; rotate_right) | (clear_value x) | skip)
    | lift_lets -underBinder
    | (with_reducible refine keeps_readCounters ?_ ..)
    | (with_reducible refine keeps_ite ?_ ?_)
    | (with_reducible refine xkeeps_next ?_)
    | (fail_if_no_progress beta_reduce)
    | (dsimp only [Keeps, part]; with_reducible refine keeps_of ?_; first | with_reducible assumption | (with_reducible refine keeps_readCounters ?_ ..))
    | split
    | (refine keeps_ite ?_ ?_))

end Sys2Proof.Laws
end

