-- ==== Sys2Proof/Laws/KeepsStripes.lean ====
section
/-! SUPPORT. Every operation of Machine/Stripes.lean keeps what Laws/Keeps.lean says. -/

set_option linter.unusedTactic false
set_option linter.unreachableTactic false
set_option linter.unusedVariables false

namespace Sys2Proof.Laws

open Sys2Proof Machine

theorem keeps_updateSaveRate {s0 s : State} (hK : Keeps s0 s) :
    Keeps s0 (State.updateSaveRate s) := by
  unfold State.updateSaveRate
  repeat' (first
    | (with_reducible assumption)
    | (intro x; first | ((have hx : Keeps s0 x := ?_); (try clear_value x); rotate_left; dsimp -zeta only [x]; rotate_right) | ((have hx : Keeps s0 x.1 := ?_); (try clear_value x); rotate_left; dsimp -zeta only [x]; rotate_right) | ((have hx : Keeps s0 x.2 := ?_); (try clear_value x); rotate_left; dsimp -zeta only [x]; rotate_right) | (clear_value x) | skip)
    | lift_lets -underBinder
    | (with_reducible refine keeps_put ?_ ..)
    | (with_reducible refine keeps_budgetChanged ?_ ..)
    | (with_reducible refine keeps_ite ?_ ?_)
    | (fail_if_no_progress beta_reduce)
    | (dsimp only [Keeps, part]; with_reducible refine keeps_of ?_; first | with_reducible assumption | (with_reducible refine keeps_put ?_ ..) | (with_reducible refine keeps_budgetChanged ?_ ..))
    | split
    | (refine keeps_ite ?_ ?_))

theorem keeps_advanceEpoch {s0 s : State} {g : Nat} (hK : Keeps s0 s) :
    Keeps s0 (State.advanceEpoch s g) := by
  unfold State.advanceEpoch
  repeat' (first
    | (with_reducible assumption)
    | (intro x; first | ((have hx : Keeps s0 x := ?_); (try clear_value x); rotate_left; dsimp -zeta only [x]; rotate_right) | ((have hx : Keeps s0 x.1 := ?_); (try clear_value x); rotate_left; dsimp -zeta only [x]; rotate_right) | ((have hx : Keeps s0 x.2 := ?_); (try clear_value x); rotate_left; dsimp -zeta only [x]; rotate_right) | (clear_value x) | skip)
    | lift_lets -underBinder
    | (with_reducible refine keeps_putSkim ?_ ..)
    | (with_reducible refine keeps_ite ?_ ?_)
    | (fail_if_no_progress beta_reduce)
    | (dsimp only [Keeps, part]; with_reducible refine keeps_of ?_; first | with_reducible assumption | (with_reducible refine keeps_putSkim ?_ ..))
    | split
    | (refine keeps_ite ?_ ?_))

theorem keeps_leavePair {s0 s : State} {m : Nat} {x : Member} (hK : Keeps s0 s) :
    Keeps s0 (State.leavePair s m x) := by
  unfold State.leavePair
  repeat' (first
    | (with_reducible assumption)
    | (intro x; first | ((have hx : Keeps s0 x := ?_); (try clear_value x); rotate_left; dsimp -zeta only [x]; rotate_right) | ((have hx : Keeps s0 x.1 := ?_); (try clear_value x); rotate_left; dsimp -zeta only [x]; rotate_right) | ((have hx : Keeps s0 x.2 := ?_); (try clear_value x); rotate_left; dsimp -zeta only [x]; rotate_right) | (clear_value x) | skip)
    | lift_lets -underBinder
    | (with_reducible refine keeps_advanceEpoch ?_ ..)
    | (with_reducible refine keeps_ite ?_ ?_)
    | (fail_if_no_progress beta_reduce)
    | (dsimp only [Keeps, part]; with_reducible refine keeps_of ?_; first | with_reducible assumption | (with_reducible refine keeps_advanceEpoch ?_ ..))
    | split
    | (refine keeps_ite ?_ ?_))

theorem keeps_journalWritten {s0 s : State} {g : Nat} {k : Skim} (hK : Keeps s0 s) :
    Keeps s0 (State.journalWritten s g k) := by
  unfold State.journalWritten
  repeat' (first
    | (with_reducible assumption)
    | (intro x; first | ((have hx : Keeps s0 x := ?_); (try clear_value x); rotate_left; dsimp -zeta only [x]; rotate_right) | ((have hx : Keeps s0 x.1 := ?_); (try clear_value x); rotate_left; dsimp -zeta only [x]; rotate_right) | ((have hx : Keeps s0 x.2 := ?_); (try clear_value x); rotate_left; dsimp -zeta only [x]; rotate_right) | (clear_value x) | skip)
    | lift_lets -underBinder
    | (with_reducible refine keeps_floatWrite ?_ ..)
    | (with_reducible refine keeps_foldl (fun s x hK => ?_) ?_)
    | (with_reducible refine keeps_foldl_fst (fun s x hK => ?_) ?_)
    | (refine keeps_foldl_eq (by assumption) (fun s x hK => ?_) ?_)
    | (with_reducible refine keeps_ite ?_ ?_)
    | (fail_if_no_progress beta_reduce)
    | (dsimp only [Keeps, part]; with_reducible refine keeps_of ?_; first | with_reducible assumption | (with_reducible refine keeps_floatWrite ?_ ..) | (refine keeps_foldl_eq (by assumption) (fun s x hK => ?_) ?_))
    | split
    | (refine keeps_ite ?_ ?_))

theorem keeps_rowDone {s0 s : State} {g : Nat} {row : Nat} (hK : Keeps s0 s) :
    Keeps s0 (State.rowDone s g row) := by
  unfold State.rowDone
  repeat' (first
    | (with_reducible assumption)
    | (intro x; first | ((have hx : Keeps s0 x := ?_); (try clear_value x); rotate_left; dsimp -zeta only [x]; rotate_right) | ((have hx : Keeps s0 x.1 := ?_); (try clear_value x); rotate_left; dsimp -zeta only [x]; rotate_right) | ((have hx : Keeps s0 x.2 := ?_); (try clear_value x); rotate_left; dsimp -zeta only [x]; rotate_right) | (clear_value x) | skip)
    | lift_lets -underBinder
    | (with_reducible refine keeps_putSkim ?_ ..)
    | (with_reducible refine keeps_ite ?_ ?_)
    | (fail_if_no_progress beta_reduce)
    | (dsimp only [Keeps, part]; with_reducible refine keeps_of ?_; first | with_reducible assumption | (with_reducible refine keeps_putSkim ?_ ..))
    | split
    | (refine keeps_ite ?_ ?_))

theorem keeps_execSkimJournalWriteDone {s0 s : State} {group : Nat} {a : Bool} {b : Bool} {at_ : Nat} (hK : Keeps s0 s) :
    XKeeps s0 (execSkimJournalWriteDone group a b at_ s) := by
  unfold execSkimJournalWriteDone
  repeat' (first
    | (with_reducible assumption)
    | (intro x; first | ((have hx : Keeps s0 x := ?_); (try clear_value x); rotate_left; dsimp -zeta only [x]; rotate_right) | ((have hx : Keeps s0 x.1 := ?_); (try clear_value x); rotate_left; dsimp -zeta only [x]; rotate_right) | ((have hx : Keeps s0 x.2 := ?_); (try clear_value x); rotate_left; dsimp -zeta only [x]; rotate_right) | (clear_value x) | skip)
    | lift_lets -underBinder
    | (with_reducible refine keeps_tick ?_ ..)
    | (with_reducible refine keeps_putSkim ?_ ..)
    | (with_reducible refine keeps_startJournal ?_ ..)
    | (with_reducible refine keeps_settle ?_ ..)
    | (with_reducible refine keeps_advanceEpoch ?_ ..)
    | (with_reducible refine keeps_journalWritten ?_ ..)
    | (with_reducible refine keeps_ite ?_ ?_)
    | (with_reducible refine xkeeps_next ?_)
    | (fail_if_no_progress beta_reduce)
    | (dsimp only [Keeps, part]; with_reducible refine keeps_of ?_; first | with_reducible assumption | (with_reducible refine keeps_tick ?_ ..) | (with_reducible refine keeps_putSkim ?_ ..) | (with_reducible refine keeps_startJournal ?_ ..) | (with_reducible refine keeps_settle ?_ ..) | (with_reducible refine keeps_advanceEpoch ?_ ..) | (with_reducible refine keeps_journalWritten ?_ ..))
    | split
    | (refine keeps_ite ?_ ?_))

theorem keeps_execStripeWriteDone {s0 s : State} {group : Nat} {row : Nat} {at_ : Nat} (hK : Keeps s0 s) :
    XKeeps s0 (execStripeWriteDone group row at_ s) := by
  unfold execStripeWriteDone
  repeat' (first
    | (with_reducible assumption)
    | (intro x; first | ((have hx : Keeps s0 x := ?_); (try clear_value x); rotate_left; dsimp -zeta only [x]; rotate_right) | ((have hx : Keeps s0 x.1 := ?_); (try clear_value x); rotate_left; dsimp -zeta only [x]; rotate_right) | ((have hx : Keeps s0 x.2 := ?_); (try clear_value x); rotate_left; dsimp -zeta only [x]; rotate_right) | (clear_value x) | skip)
    | lift_lets -underBinder
    | (with_reducible refine keeps_tick ?_ ..)
    | (with_reducible refine keeps_startJournal ?_ ..)
    | (with_reducible refine keeps_settle ?_ ..)
    | (with_reducible refine keeps_rowDone ?_ ..)
    | (with_reducible refine keeps_ite ?_ ?_)
    | (with_reducible refine xkeeps_next ?_)
    | (fail_if_no_progress beta_reduce)
    | (dsimp only [Keeps, part]; with_reducible refine keeps_of ?_; first | with_reducible assumption | (with_reducible refine keeps_tick ?_ ..) | (with_reducible refine keeps_startJournal ?_ ..) | (with_reducible refine keeps_settle ?_ ..) | (with_reducible refine keeps_rowDone ?_ ..))
    | split
    | (refine keeps_ite ?_ ?_))

theorem keeps_putMember {s0 s : State} {m : Nat} {x : Member} (hK : Keeps s0 s) :
    Keeps s0 (State.putMember s m x) := by
  unfold State.putMember
  repeat' (first
    | (with_reducible assumption)
    | (intro x; first | ((have hx : Keeps s0 x := ?_); (try clear_value x); rotate_left; dsimp -zeta only [x]; rotate_right) | ((have hx : Keeps s0 x.1 := ?_); (try clear_value x); rotate_left; dsimp -zeta only [x]; rotate_right) | ((have hx : Keeps s0 x.2 := ?_); (try clear_value x); rotate_left; dsimp -zeta only [x]; rotate_right) | (clear_value x) | skip)
    | lift_lets -underBinder
    | (with_reducible refine keeps_setF ?_ ..)
    | (with_reducible refine keeps_put ?_ ..)
    | (with_reducible refine keeps_ite ?_ ?_)
    | (fail_if_no_progress beta_reduce)
    | (dsimp only [Keeps, part]; with_reducible refine keeps_of ?_; first | with_reducible assumption | (with_reducible refine keeps_setF ?_ ..) | (with_reducible refine keeps_put ?_ ..))
    | split
    | (refine keeps_ite ?_ ?_))

theorem keeps_memberLost {s0 s : State} {m : Nat} (hK : Keeps s0 s) :
    Keeps s0 (State.memberLost s m) := by
  unfold State.memberLost
  repeat' (first
    | (with_reducible assumption)
    | (intro x; first | ((have hx : Keeps s0 x := ?_); (try clear_value x); rotate_left; dsimp -zeta only [x]; rotate_right) | ((have hx : Keeps s0 x.1 := ?_); (try clear_value x); rotate_left; dsimp -zeta only [x]; rotate_right) | ((have hx : Keeps s0 x.2 := ?_); (try clear_value x); rotate_left; dsimp -zeta only [x]; rotate_right) | (clear_value x) | skip)
    | lift_lets -underBinder
    | (with_reducible refine keeps_raise ?_ ..)
    | (with_reducible refine keeps_updateSaveRate ?_ ..)
    | (with_reducible refine keeps_leavePair ?_ ..)
    | (with_reducible refine keeps_putMember ?_ ..)
    | (with_reducible refine keeps_ite ?_ ?_)
    | (fail_if_no_progress beta_reduce)
    | (dsimp only [Keeps, part]; with_reducible refine keeps_of ?_; first | with_reducible assumption | (with_reducible refine keeps_raise ?_ ..) | (with_reducible refine keeps_updateSaveRate ?_ ..) | (with_reducible refine keeps_leavePair ?_ ..) | (with_reducible refine keeps_putMember ?_ ..))
    | split
    | (refine keeps_ite ?_ ?_))

theorem keeps_enumLuns {s0 s : State} {ch : Nat} {n : Nat} (hK : Keeps s0 s) :
    Keeps s0 (State.enumLuns s ch n) := by
  unfold State.enumLuns
  repeat' (first
    | (with_reducible assumption)
    | (intro x; first | ((have hx : Keeps s0 x := ?_); (try clear_value x); rotate_left; dsimp -zeta only [x]; rotate_right) | ((have hx : Keeps s0 x.1 := ?_); (try clear_value x); rotate_left; dsimp -zeta only [x]; rotate_right) | ((have hx : Keeps s0 x.2 := ?_); (try clear_value x); rotate_left; dsimp -zeta only [x]; rotate_right) | (clear_value x) | skip)
    | lift_lets -underBinder
    | (with_reducible refine keeps_setF ?_ ..)
    | (with_reducible refine keeps_raiseAt ?_ ..)
    | (with_reducible refine keeps_memberLost ?_ ..)
    | (with_reducible refine keeps_ite ?_ ?_)
    | (fail_if_no_progress beta_reduce)
    | (dsimp only [Keeps, part]; with_reducible refine keeps_of ?_; first | with_reducible assumption | (with_reducible refine keeps_setF ?_ ..) | (with_reducible refine keeps_raiseAt ?_ ..) | (with_reducible refine keeps_memberLost ?_ ..))
    | split
    | (refine keeps_ite ?_ ?_))

theorem keeps_takeSpare {s0 s : State} (hK : Keeps s0 s) :
    Keeps s0 (State.takeSpare s) := by
  unfold State.takeSpare
  repeat' (first
    | (with_reducible assumption)
    | (intro x; first | ((have hx : Keeps s0 x := ?_); (try clear_value x); rotate_left; dsimp -zeta only [x]; rotate_right) | ((have hx : Keeps s0 x.1 := ?_); (try clear_value x); rotate_left; dsimp -zeta only [x]; rotate_right) | ((have hx : Keeps s0 x.2 := ?_); (try clear_value x); rotate_left; dsimp -zeta only [x]; rotate_right) | (clear_value x) | skip)
    | lift_lets -underBinder
    | (with_reducible refine keeps_raise ?_ ..)
    | (with_reducible refine keeps_ite ?_ ?_)
    | (fail_if_no_progress beta_reduce)
    | (dsimp only [Keeps, part]; with_reducible refine keeps_of ?_; first | with_reducible assumption | (with_reducible refine keeps_raise ?_ ..))
    | split
    | (refine keeps_ite ?_ ?_))

theorem keeps_substitute {s0 s : State} {m : Nat} {row : Nat} (hK : Keeps s0 s) :
    Keeps s0 (State.substitute s m row) := by
  unfold State.substitute
  repeat' (first
    | (with_reducible assumption)
    | (intro x; first | ((have hx : Keeps s0 x := ?_); (try clear_value x); rotate_left; dsimp -zeta only [x]; rotate_right) | ((have hx : Keeps s0 x.1 := ?_); (try clear_value x); rotate_left; dsimp -zeta only [x]; rotate_right) | ((have hx : Keeps s0 x.2 := ?_); (try clear_value x); rotate_left; dsimp -zeta only [x]; rotate_right) | (clear_value x) | skip)
    | lift_lets -underBinder
    | (with_reducible refine keeps_takeSpare ?_ ..)
    | (with_reducible refine keeps_ite ?_ ?_)
    | (fail_if_no_progress beta_reduce)
    | (dsimp only [Keeps, part]; with_reducible refine keeps_of ?_; first | with_reducible assumption | (with_reducible refine keeps_takeSpare ?_ ..))
    | split
    | (refine keeps_ite ?_ ?_))

theorem keeps_rebuildEnded {s0 s : State} (hK : Keeps s0 s) :
    Keeps s0 (State.rebuildEnded s) := by
  unfold State.rebuildEnded
  repeat' (first
    | (with_reducible assumption)
    | (intro x; first | ((have hx : Keeps s0 x := ?_); (try clear_value x); rotate_left; dsimp -zeta only [x]; rotate_right) | ((have hx : Keeps s0 x.1 := ?_); (try clear_value x); rotate_left; dsimp -zeta only [x]; rotate_right) | ((have hx : Keeps s0 x.2 := ?_); (try clear_value x); rotate_left; dsimp -zeta only [x]; rotate_right) | (clear_value x) | skip)
    | lift_lets -underBinder
    | (with_reducible refine keeps_ite ?_ ?_)
    | (fail_if_no_progress beta_reduce)
    | (dsimp only [Keeps, part]; with_reducible refine keeps_of ?_; first | with_reducible assumption)
    | split
    | (refine keeps_ite ?_ ?_))

theorem keeps_execRebuildUnitDone {s0 s : State} {member : Nat} {row : Nat} {spare : Bool} {at_ : Nat} (hK : Keeps s0 s) :
    XKeeps s0 (execRebuildUnitDone member row spare at_ s) := by
  unfold execRebuildUnitDone
  repeat' (first
    | (with_reducible assumption)
    | (intro x; first | ((have hx : Keeps s0 x := ?_); (try clear_value x); rotate_left; dsimp -zeta only [x]; rotate_right) | ((have hx : Keeps s0 x.1 := ?_); (try clear_value x); rotate_left; dsimp -zeta only [x]; rotate_right) | ((have hx : Keeps s0 x.2 := ?_); (try clear_value x); rotate_left; dsimp -zeta only [x]; rotate_right) | (clear_value x) | skip)
    | lift_lets -underBinder
    | (with_reducible refine keeps_bump ?_ ..)
    | (with_reducible refine keeps_tick ?_ ..)
    | (with_reducible refine keeps_raise ?_ ..)
    | (with_reducible refine keeps_settle ?_ ..)
    | (with_reducible refine keeps_updateSaveRate ?_ ..)
    | (with_reducible refine keeps_putMember ?_ ..)
    | (with_reducible refine keeps_substitute ?_ ..)
    | (with_reducible refine keeps_rebuildEnded ?_ ..)
    | (with_reducible refine keeps_ite ?_ ?_)
    | (with_reducible refine xkeeps_next ?_)
    | (fail_if_no_progress beta_reduce)
    | (dsimp only [Keeps, part]; with_reducible refine keeps_of ?_; first | with_reducible assumption | (with_reducible refine keeps_bump ?_ ..) | (with_reducible refine keeps_tick ?_ ..) | (with_reducible refine keeps_raise ?_ ..) | (with_reducible refine keeps_settle ?_ ..) | (with_reducible refine keeps_updateSaveRate ?_ ..) | (with_reducible refine keeps_putMember ?_ ..) | (with_reducible refine keeps_substitute ?_ ..) | (with_reducible refine keeps_rebuildEnded ?_ ..))
    | split
    | (refine keeps_ite ?_ ?_))

theorem keeps_resyncWindow {s0 s : State} (hK : Keeps s0 s) :
    Keeps s0 (State.resyncWindow s) := by
  unfold State.resyncWindow
  repeat' (first
    | (with_reducible assumption)
    | (intro x; first | ((have hx : Keeps s0 x := ?_); (try clear_value x); rotate_left; dsimp -zeta only [x]; rotate_right) | ((have hx : Keeps s0 x.1 := ?_); (try clear_value x); rotate_left; dsimp -zeta only [x]; rotate_right) | ((have hx : Keeps s0 x.2 := ?_); (try clear_value x); rotate_left; dsimp -zeta only [x]; rotate_right) | (clear_value x) | skip)
    | lift_lets -underBinder
    | (with_reducible refine keeps_foldl (fun s x hK => ?_) ?_)
    | (with_reducible refine keeps_foldl_fst (fun s x hK => ?_) ?_)
    | (refine keeps_foldl_eq (by assumption) (fun s x hK => ?_) ?_)
    | (with_reducible refine keeps_ite ?_ ?_)
    | (fail_if_no_progress beta_reduce)
    | (dsimp only [Keeps, part]; with_reducible refine keeps_of ?_; first | with_reducible assumption | (refine keeps_foldl_eq (by assumption) (fun s x hK => ?_) ?_))
    | split
    | (refine keeps_ite ?_ ?_))

theorem keeps_execStripeAllowanceWindow {s0 s : State} {use : List (Nat × Nat)} {at_ : Nat} (hK : Keeps s0 s) :
    XKeeps s0 (execStripeAllowanceWindow use at_ s) := by
  unfold execStripeAllowanceWindow
  repeat' (first
    | (with_reducible assumption)
    | (intro x; first | ((have hx : Keeps s0 x := ?_); (try clear_value x); rotate_left; dsimp -zeta only [x]; rotate_right) | ((have hx : Keeps s0 x.1 := ?_); (try clear_value x); rotate_left; dsimp -zeta only [x]; rotate_right) | ((have hx : Keeps s0 x.2 := ?_); (try clear_value x); rotate_left; dsimp -zeta only [x]; rotate_right) | ((have hx : ∀ t, Keeps s0 t → Keeps s0 (x t) := ?_); (try clear_value x); rotate_left; dsimp -zeta only [x]; intros; rotate_right) | ((have hx : ∀ t a, Keeps s0 t → Keeps s0 (x t a) := ?_); (try clear_value x); rotate_left; dsimp -zeta only [x]; intros; rotate_right) | ((have hx : ∀ a t, Keeps s0 t → Keeps s0 (x a t) := ?_); (try clear_value x); rotate_left; dsimp -zeta only [x]; intros; rotate_right) | ((have hx : ∀ t a b, Keeps s0 t → Keeps s0 (x t a b) := ?_); (try clear_value x); rotate_left; dsimp -zeta only [x]; intros; rotate_right) | ((have hx : ∀ a b t, Keeps s0 t → Keeps s0 (x a b t) := ?_); (try clear_value x); rotate_left; dsimp -zeta only [x]; intros; rotate_right) | ((have hx : ∀ a, Keeps s0 (x a) := ?_); (try clear_value x); rotate_left; dsimp -zeta only [x]; intros; rotate_right) | (have hf : ∀ a, x a = x a := fun _ => rfl) | (clear_value x) | skip)
    | lift_lets -underBinder
    | (with_reducible refine keeps_tick ?_ ..)
    | (with_reducible refine keeps_put ?_ ..)
    | (with_reducible refine keeps_resyncWindow ?_ ..)
    | (with_reducible refine keeps_foldl (fun s x hK => ?_) ?_)
    | (with_reducible refine keeps_foldl_fst (fun s x hK => ?_) ?_)
    | (refine keeps_foldl_eq (by assumption) (fun s x hK => ?_) ?_)
    | (with_reducible refine keeps_getD ?_ ?_)
    | (with_reducible refine keeps_ite ?_ ?_)
    | (with_reducible apply_assumption)
    | (with_reducible refine xkeeps_next ?_)
    | (fail_if_no_progress beta_reduce)
    | (dsimp only [Keeps, part]; with_reducible refine keeps_of ?_; first | with_reducible assumption | (with_reducible refine keeps_tick ?_ ..) | (with_reducible refine keeps_put ?_ ..) | (with_reducible refine keeps_resyncWindow ?_ ..) | (refine keeps_foldl_eq (by assumption) (fun s x hK => ?_) ?_))
    | split
    | (refine keeps_ite ?_ ?_))

theorem keeps_lossFrames {s0 s : State} {l : List Nat} (hK : Keeps s0 s) :
    Keeps s0 (State.lossFrames s l) := by
  unfold State.lossFrames
  repeat' (first
    | (with_reducible assumption)
    | (intro x; first | ((have hx : Keeps s0 x := ?_); (try clear_value x); rotate_left; dsimp -zeta only [x]; rotate_right) | ((have hx : Keeps s0 x.1 := ?_); (try clear_value x); rotate_left; dsimp -zeta only [x]; rotate_right) | ((have hx : Keeps s0 x.2 := ?_); (try clear_value x); rotate_left; dsimp -zeta only [x]; rotate_right) | (clear_value x) | skip)
    | lift_lets -underBinder
    | (with_reducible refine keeps_setReg ?_ ..)
    | (with_reducible refine keeps_raiseArg ?_ ..)
    | (with_reducible refine keeps_health ?_ ..)
    | (with_reducible refine keeps_spanLoss ?_ ..)
    | (with_reducible refine keeps_newLossCause ?_ ..)
    | (with_reducible refine keeps_poisonLine ?_ ..)
    | (with_reducible refine keeps_foldl (fun s x hK => ?_) ?_)
    | (with_reducible refine keeps_foldl_fst (fun s x hK => ?_) ?_)
    | (refine keeps_foldl_eq (by assumption) (fun s x hK => ?_) ?_)
    | (with_reducible refine keeps_ite ?_ ?_)
    | (fail_if_no_progress beta_reduce)
    | (dsimp only [Keeps, part]; with_reducible refine keeps_of ?_; first | with_reducible assumption | (with_reducible refine keeps_setReg ?_ ..) | (with_reducible refine keeps_raiseArg ?_ ..) | (with_reducible refine keeps_health ?_ ..) | (with_reducible refine keeps_spanLoss ?_ ..) | (with_reducible refine keeps_newLossCause ?_ ..) | (with_reducible refine keeps_poisonLine ?_ ..) | (refine keeps_foldl_eq (by assumption) (fun s x hK => ?_) ?_))
    | split
    | (refine keeps_ite ?_ ?_))

theorem keeps_healFrames {s0 s : State} {l : List Nat} (hK : Keeps s0 s) :
    Keeps s0 (State.healFrames s l) := by
  unfold State.healFrames
  repeat' (first
    | (with_reducible assumption)
    | (intro x; first | ((have hx : Keeps s0 x := ?_); (try clear_value x); rotate_left; dsimp -zeta only [x]; rotate_right) | ((have hx : Keeps s0 x.1 := ?_); (try clear_value x); rotate_left; dsimp -zeta only [x]; rotate_right) | ((have hx : Keeps s0 x.2 := ?_); (try clear_value x); rotate_left; dsimp -zeta only [x]; rotate_right) | (clear_value x) | skip)
    | lift_lets -underBinder
    | (with_reducible refine keeps_sendRepair ?_ ..)
    | (refine keeps_sendRepair_eq (by assumption) ?_)
    | (with_reducible refine keeps_lossFrames ?_ ..)
    | (with_reducible refine keeps_foldl (fun s x hK => ?_) ?_)
    | (with_reducible refine keeps_foldl_fst (fun s x hK => ?_) ?_)
    | (refine keeps_foldl_eq (by assumption) (fun s x hK => ?_) ?_)
    | (with_reducible refine keeps_ite ?_ ?_)
    | (fail_if_no_progress beta_reduce)
    | (dsimp only [Keeps, part]; with_reducible refine keeps_of ?_; first | with_reducible assumption | (with_reducible refine keeps_sendRepair ?_ ..) | (refine keeps_sendRepair_eq (by assumption) ?_) | (with_reducible refine keeps_lossFrames ?_ ..) | (refine keeps_foldl_eq (by assumption) (fun s x hK => ?_) ?_))
    | split
    | (refine keeps_ite ?_ ?_))

theorem keeps_takeHeal {s0 s : State} {f : Nat} {pmap : Word} {data : List LineData} (hK : Keeps s0 s) :
    Keeps s0 (State.takeHeal s f pmap data) := by
  unfold State.takeHeal
  repeat' (first
    | (with_reducible assumption)
    | (intro x; first | ((have hx : Keeps s0 x := ?_); (try clear_value x); rotate_left; dsimp -zeta only [x]; rotate_right) | ((have hx : Keeps s0 x.1 := ?_); (try clear_value x); rotate_left; dsimp -zeta only [x]; rotate_right) | ((have hx : Keeps s0 x.2 := ?_); (try clear_value x); rotate_left; dsimp -zeta only [x]; rotate_right) | (clear_value x) | skip)
    | lift_lets -underBinder
    | (with_reducible refine keeps_bump ?_ ..)
    | (with_reducible refine keeps_putLine ?_ ..)
    | (with_reducible refine keeps_raise ?_ ..)
    | (with_reducible refine keeps_poisonLine ?_ ..)
    | (with_reducible refine keeps_clearPoison ?_ ..)
    | (with_reducible refine keeps_foldl (fun s x hK => ?_) ?_)
    | (with_reducible refine keeps_foldl_fst (fun s x hK => ?_) ?_)
    | (refine keeps_foldl_eq (by assumption) (fun s x hK => ?_) ?_)
    | (with_reducible refine keeps_ite ?_ ?_)
    | (fail_if_no_progress beta_reduce)
    | (dsimp only [Keeps, part]; with_reducible refine keeps_of ?_; first | with_reducible assumption | (with_reducible refine keeps_bump ?_ ..) | (with_reducible refine keeps_putLine ?_ ..) | (with_reducible refine keeps_raise ?_ ..) | (with_reducible refine keeps_poisonLine ?_ ..) | (with_reducible refine keeps_clearPoison ?_ ..) | (refine keeps_foldl_eq (by assumption) (fun s x hK => ?_) ?_))
    | split
    | (refine keeps_ite ?_ ?_))

theorem keeps_takeBack {s0 s : State} {f : Nat} {pmap : Word} {data : List LineData} (hK : Keeps s0 s) :
    Keeps s0 (State.takeBack s f pmap data) := by
  unfold State.takeBack
  repeat' (first
    | (with_reducible assumption)
    | (intro x; first | ((have hx : Keeps s0 x := ?_); (try clear_value x); rotate_left; dsimp -zeta only [x]; rotate_right) | ((have hx : Keeps s0 x.1 := ?_); (try clear_value x); rotate_left; dsimp -zeta only [x]; rotate_right) | ((have hx : Keeps s0 x.2 := ?_); (try clear_value x); rotate_left; dsimp -zeta only [x]; rotate_right) | (clear_value x) | skip)
    | lift_lets -underBinder
    | (with_reducible refine keeps_putLine ?_ ..)
    | (with_reducible refine keeps_poisonLine ?_ ..)
    | (with_reducible refine keeps_clearPoison ?_ ..)
    | (with_reducible refine keeps_startClear ?_ ..)
    | (with_reducible refine keeps_foldl (fun s x hK => ?_) ?_)
    | (with_reducible refine keeps_foldl_fst (fun s x hK => ?_) ?_)
    | (refine keeps_foldl_eq (by assumption) (fun s x hK => ?_) ?_)
    | (with_reducible refine keeps_ite ?_ ?_)
    | (fail_if_no_progress beta_reduce)
    | (dsimp only [Keeps, part]; with_reducible refine keeps_of ?_; first | with_reducible assumption | (with_reducible refine keeps_putLine ?_ ..) | (with_reducible refine keeps_poisonLine ?_ ..) | (with_reducible refine keeps_clearPoison ?_ ..) | (with_reducible refine keeps_startClear ?_ ..) | (refine keeps_foldl_eq (by assumption) (fun s x hK => ?_) ?_))
    | split
    | (refine keeps_ite ?_ ?_))

theorem keeps_loseSpans {s0 s : State} {l : List Nat} (hK : Keeps s0 s) :
    Keeps s0 (State.loseSpans s l) := by
  unfold State.loseSpans
  repeat' (first
    | (with_reducible assumption)
    | (intro x; first | ((have hx : Keeps s0 x := ?_); (try clear_value x); rotate_left; dsimp -zeta only [x]; rotate_right) | ((have hx : Keeps s0 x.1 := ?_); (try clear_value x); rotate_left; dsimp -zeta only [x]; rotate_right) | ((have hx : Keeps s0 x.2 := ?_); (try clear_value x); rotate_left; dsimp -zeta only [x]; rotate_right) | (clear_value x) | skip)
    | lift_lets -underBinder
    | (with_reducible refine keeps_raise ?_ ..)
    | (with_reducible refine keeps_health ?_ ..)
    | (with_reducible refine keeps_spanLoss ?_ ..)
    | (with_reducible refine keeps_newLossCause ?_ ..)
    | (with_reducible refine keeps_poisonSpan ?_ ..)
    | (with_reducible refine keeps_foldl (fun s x hK => ?_) ?_)
    | (with_reducible refine keeps_foldl_fst (fun s x hK => ?_) ?_)
    | (refine keeps_foldl_eq (by assumption) (fun s x hK => ?_) ?_)
    | (with_reducible refine keeps_ite ?_ ?_)
    | (fail_if_no_progress beta_reduce)
    | (dsimp only [Keeps, part]; with_reducible refine keeps_of ?_; first | with_reducible assumption | (with_reducible refine keeps_raise ?_ ..) | (with_reducible refine keeps_health ?_ ..) | (with_reducible refine keeps_spanLoss ?_ ..) | (with_reducible refine keeps_newLossCause ?_ ..) | (with_reducible refine keeps_poisonSpan ?_ ..) | (refine keeps_foldl_eq (by assumption) (fun s x hK => ?_) ?_))
    | split
    | (refine keeps_ite ?_ ?_))

theorem keeps_loseBack {s0 s : State} {l : List (Nat × Nat)} (hK : Keeps s0 s) :
    Keeps s0 (State.loseBack s l) := by
  unfold State.loseBack
  repeat' (first
    | (with_reducible assumption)
    | (intro x; first | ((have hx : Keeps s0 x := ?_); (try clear_value x); rotate_left; dsimp -zeta only [x]; rotate_right) | ((have hx : Keeps s0 x.1 := ?_); (try clear_value x); rotate_left; dsimp -zeta only [x]; rotate_right) | ((have hx : Keeps s0 x.2 := ?_); (try clear_value x); rotate_left; dsimp -zeta only [x]; rotate_right) | (clear_value x) | skip)
    | lift_lets -underBinder
    | (with_reducible refine keeps_loseSpans ?_ ..)
    | (with_reducible refine keeps_ite ?_ ?_)
    | (fail_if_no_progress beta_reduce)
    | (dsimp only [Keeps, part]; with_reducible refine keeps_of ?_; first | with_reducible assumption | (with_reducible refine keeps_loseSpans ?_ ..))
    | split
    | (refine keeps_ite ?_ ?_))

theorem keeps_dropRepairs {s0 s : State} (hK : Keeps s0 s) :
    Keeps s0 (State.dropRepairs s) := by
  unfold State.dropRepairs
  repeat' (first
    | (with_reducible assumption)
    | (intro x; first | ((have hx : Keeps s0 x := ?_); (try clear_value x); rotate_left; dsimp -zeta only [x]; rotate_right) | ((have hx : Keeps s0 x.1 := ?_); (try clear_value x); rotate_left; dsimp -zeta only [x]; rotate_right) | ((have hx : Keeps s0 x.2 := ?_); (try clear_value x); rotate_left; dsimp -zeta only [x]; rotate_right) | (clear_value x) | skip)
    | lift_lets -underBinder
    | (with_reducible refine keeps_poisonLine ?_ ..)
    | (with_reducible refine keeps_poisonRead ?_ ..)
    | (with_reducible refine keeps_lossFrames ?_ ..)
    | (with_reducible refine keeps_loseBack ?_ ..)
    | (with_reducible refine keeps_foldl (fun s x hK => ?_) ?_)
    | (with_reducible refine keeps_foldl_fst (fun s x hK => ?_) ?_)
    | (refine keeps_foldl_eq (by assumption) (fun s x hK => ?_) ?_)
    | (with_reducible refine keeps_ite ?_ ?_)
    | (fail_if_no_progress beta_reduce)
    | (dsimp only [Keeps, part]; with_reducible refine keeps_of ?_; first | with_reducible assumption | (with_reducible refine keeps_poisonLine ?_ ..) | (with_reducible refine keeps_poisonRead ?_ ..) | (with_reducible refine keeps_lossFrames ?_ ..) | (with_reducible refine keeps_loseBack ?_ ..) | (refine keeps_foldl_eq (by assumption) (fun s x hK => ?_) ?_))
    | split
    | (refine keeps_ite ?_ ?_))

theorem keeps_reshapeF {s0 s : State} {old : StripeGeom} {g : StripeGeom} (hK : Keeps s0 s) :
    Keeps s0 (State.reshapeF s old g) := by
  unfold State.reshapeF
  repeat' (first
    | (with_reducible assumption)
    | (intro x; first | ((have hx : Keeps s0 x := ?_); (try clear_value x); rotate_left; dsimp -zeta only [x]; rotate_right) | ((have hx : Keeps s0 x.1 := ?_); (try clear_value x); rotate_left; dsimp -zeta only [x]; rotate_right) | ((have hx : Keeps s0 x.2 := ?_); (try clear_value x); rotate_left; dsimp -zeta only [x]; rotate_right) | (clear_value x) | skip)
    | lift_lets -underBinder
    | (with_reducible refine keeps_put ?_ ..)
    | (with_reducible refine keeps_ite ?_ ?_)
    | (fail_if_no_progress beta_reduce)
    | (dsimp only [Keeps, part]; with_reducible refine keeps_of ?_; first | with_reducible assumption | (with_reducible refine keeps_put ?_ ..))
    | split
    | (refine keeps_ite ?_ ?_))

theorem keeps_reshapedP {s0 s : State} {g : StripeGeom} (hK : Keeps s0 s) :
    Keeps s0 (State.reshapedP s g) := by
  unfold State.reshapedP
  repeat' (first
    | (with_reducible assumption)
    | (intro x; first | ((have hx : Keeps s0 x := ?_); (try clear_value x); rotate_left; dsimp -zeta only [x]; rotate_right) | ((have hx : Keeps s0 x.1 := ?_); (try clear_value x); rotate_left; dsimp -zeta only [x]; rotate_right) | ((have hx : Keeps s0 x.2 := ?_); (try clear_value x); rotate_left; dsimp -zeta only [x]; rotate_right) | (clear_value x) | skip)
    | lift_lets -underBinder
    | (with_reducible refine keeps_put ?_ ..)
    | (with_reducible refine keeps_ite ?_ ?_)
    | (fail_if_no_progress beta_reduce)
    | (dsimp only [Keeps, part]; with_reducible refine keeps_of ?_; first | with_reducible assumption | (with_reducible refine keeps_put ?_ ..))
    | split
    | (refine keeps_ite ?_ ?_))

theorem keeps_reshapeEnd {s0 s : State} {g : StripeGeom} (hK : Keeps s0 s) :
    Keeps s0 (State.reshapeEnd s g) := by
  unfold State.reshapeEnd
  repeat' (first
    | (with_reducible assumption)
    | (intro x; first | ((have hx : Keeps s0 x := ?_); (try clear_value x); rotate_left; dsimp -zeta only [x]; rotate_right) | ((have hx : Keeps s0 x.1 := ?_); (try clear_value x); rotate_left; dsimp -zeta only [x]; rotate_right) | ((have hx : Keeps s0 x.2 := ?_); (try clear_value x); rotate_left; dsimp -zeta only [x]; rotate_right) | (clear_value x) | skip)
    | lift_lets -underBinder
    | (with_reducible refine keeps_raise ?_ ..)
    | (with_reducible refine keeps_ite ?_ ?_)
    | (fail_if_no_progress beta_reduce)
    | (dsimp only [Keeps, part]; with_reducible refine keeps_of ?_; first | with_reducible assumption | (with_reducible refine keeps_raise ?_ ..))
    | split
    | (refine keeps_ite ?_ ?_))

theorem keeps_endF {s0 s : State} {g : StripeGeom} (hK : Keeps s0 s) :
    Keeps s0 (State.endF s g) := by
  unfold State.endF
  repeat' (first
    | (with_reducible assumption)
    | (intro x; first | ((have hx : Keeps s0 x := ?_); (try clear_value x); rotate_left; dsimp -zeta only [x]; rotate_right) | ((have hx : Keeps s0 x.1 := ?_); (try clear_value x); rotate_left; dsimp -zeta only [x]; rotate_right) | ((have hx : Keeps s0 x.2 := ?_); (try clear_value x); rotate_left; dsimp -zeta only [x]; rotate_right) | (clear_value x) | skip)
    | lift_lets -underBinder
    | (with_reducible refine keeps_put ?_ ..)
    | (with_reducible refine keeps_reshapeEnd ?_ ..)
    | (with_reducible refine keeps_ite ?_ ?_)
    | (fail_if_no_progress beta_reduce)
    | (dsimp only [Keeps, part]; with_reducible refine keeps_of ?_; first | with_reducible assumption | (with_reducible refine keeps_put ?_ ..) | (with_reducible refine keeps_reshapeEnd ?_ ..))
    | split
    | (refine keeps_ite ?_ ?_))

theorem keeps_checkReshape {s0 s : State} (hK : Keeps s0 s) :
    Keeps s0 (State.checkReshape s) := by
  unfold State.checkReshape
  repeat' (first
    | (with_reducible assumption)
    | (intro x; first | ((have hx : Keeps s0 x := ?_); (try clear_value x); rotate_left; dsimp -zeta only [x]; rotate_right) | ((have hx : Keeps s0 x.1 := ?_); (try clear_value x); rotate_left; dsimp -zeta only [x]; rotate_right) | ((have hx : Keeps s0 x.2 := ?_); (try clear_value x); rotate_left; dsimp -zeta only [x]; rotate_right) | (clear_value x) | skip)
    | lift_lets -underBinder
    | (with_reducible refine keeps_raise ?_ ..)
    | (with_reducible refine keeps_reshapeF ?_ ..)
    | (with_reducible refine keeps_reshapedP ?_ ..)
    | (with_reducible refine keeps_reshapeEnd ?_ ..)
    | (with_reducible refine keeps_endF ?_ ..)
    | (with_reducible refine keeps_ite ?_ ?_)
    | (fail_if_no_progress beta_reduce)
    | (dsimp only [Keeps, part]; with_reducible refine keeps_of ?_; first | with_reducible assumption | (with_reducible refine keeps_raise ?_ ..) | (with_reducible refine keeps_reshapeF ?_ ..) | (with_reducible refine keeps_reshapedP ?_ ..) | (with_reducible refine keeps_reshapeEnd ?_ ..) | (with_reducible refine keeps_endF ?_ ..))
    | split
    | (refine keeps_ite ?_ ?_))

theorem keeps_reshapeCode {s0 s : State} {code : Nat} (hK : Keeps s0 s) :
    Keeps s0 (State.reshapeCode s code) := by
  unfold State.reshapeCode
  repeat' (first
    | (with_reducible assumption)
    | (intro x; first | ((have hx : Keeps s0 x := ?_); (try clear_value x); rotate_left; dsimp -zeta only [x]; rotate_right) | ((have hx : Keeps s0 x.1 := ?_); (try clear_value x); rotate_left; dsimp -zeta only [x]; rotate_right) | ((have hx : Keeps s0 x.2 := ?_); (try clear_value x); rotate_left; dsimp -zeta only [x]; rotate_right) | (clear_value x) | skip)
    | lift_lets -underBinder
    | (with_reducible refine keeps_put ?_ ..)
    | (with_reducible refine keeps_ite ?_ ?_)
    | (fail_if_no_progress beta_reduce)
    | (dsimp only [Keeps, part]; with_reducible refine keeps_of ?_; first | with_reducible assumption | (with_reducible refine keeps_put ?_ ..))
    | split
    | (refine keeps_ite ?_ ?_))

theorem keeps_reshapeStart {s0 s : State} (hK : Keeps s0 s) :
    Keeps s0 (State.reshapeStart s) := by
  unfold State.reshapeStart
  repeat' (first
    | (with_reducible assumption)
    | (intro x; first | ((have hx : Keeps s0 x := ?_); (try clear_value x); rotate_left; dsimp -zeta only [x]; rotate_right) | ((have hx : Keeps s0 x.1 := ?_); (try clear_value x); rotate_left; dsimp -zeta only [x]; rotate_right) | ((have hx : Keeps s0 x.2 := ?_); (try clear_value x); rotate_left; dsimp -zeta only [x]; rotate_right) | (clear_value x) | skip)
    | lift_lets -underBinder
    | (with_reducible refine keeps_reshapeF ?_ ..)
    | (with_reducible refine keeps_checkReshape ?_ ..)
    | (with_reducible refine keeps_reshapeCode ?_ ..)
    | (with_reducible refine keeps_ite ?_ ?_)
    | (fail_if_no_progress beta_reduce)
    | (dsimp only [Keeps, part]; with_reducible refine keeps_of ?_; first | with_reducible assumption | (with_reducible refine keeps_reshapeF ?_ ..) | (with_reducible refine keeps_checkReshape ?_ ..) | (with_reducible refine keeps_reshapeCode ?_ ..))
    | split
    | (refine keeps_ite ?_ ?_))

theorem keeps_reshapePause {s0 s : State} (hK : Keeps s0 s) :
    Keeps s0 (State.reshapePause s) := by
  unfold State.reshapePause
  repeat' (first
    | (with_reducible assumption)
    | (intro x; first | ((have hx : Keeps s0 x := ?_); (try clear_value x); rotate_left; dsimp -zeta only [x]; rotate_right) | ((have hx : Keeps s0 x.1 := ?_); (try clear_value x); rotate_left; dsimp -zeta only [x]; rotate_right) | ((have hx : Keeps s0 x.2 := ?_); (try clear_value x); rotate_left; dsimp -zeta only [x]; rotate_right) | (clear_value x) | skip)
    | lift_lets -underBinder
    | (with_reducible refine keeps_raise ?_ ..)
    | (with_reducible refine keeps_openCode ?_ ..)
    | (refine keeps_openCode_eq (by assumption) ?_)
    | (with_reducible refine keeps_reshapeCode ?_ ..)
    | (with_reducible refine keeps_ite ?_ ?_)
    | (fail_if_no_progress beta_reduce)
    | (dsimp only [Keeps, part]; with_reducible refine keeps_of ?_; first | with_reducible assumption | (with_reducible refine keeps_raise ?_ ..) | (with_reducible refine keeps_openCode ?_ ..) | (refine keeps_openCode_eq (by assumption) ?_) | (with_reducible refine keeps_reshapeCode ?_ ..))
    | split
    | (refine keeps_ite ?_ ?_))

theorem keeps_reshapeResume {s0 s : State} (hK : Keeps s0 s) :
    Keeps s0 (State.reshapeResume s) := by
  unfold State.reshapeResume
  repeat' (first
    | (with_reducible assumption)
    | (intro x; first | ((have hx : Keeps s0 x := ?_); (try clear_value x); rotate_left; dsimp -zeta only [x]; rotate_right) | ((have hx : Keeps s0 x.1 := ?_); (try clear_value x); rotate_left; dsimp -zeta only [x]; rotate_right) | ((have hx : Keeps s0 x.2 := ?_); (try clear_value x); rotate_left; dsimp -zeta only [x]; rotate_right) | (clear_value x) | skip)
    | lift_lets -underBinder
    | (with_reducible refine keeps_openCode ?_ ..)
    | (refine keeps_openCode_eq (by assumption) ?_)
    | (with_reducible refine keeps_reshapeCode ?_ ..)
    | (with_reducible refine keeps_ite ?_ ?_)
    | (fail_if_no_progress beta_reduce)
    | (dsimp only [Keeps, part]; with_reducible refine keeps_of ?_; first | with_reducible assumption | (with_reducible refine keeps_openCode ?_ ..) | (refine keeps_openCode_eq (by assumption) ?_) | (with_reducible refine keeps_reshapeCode ?_ ..))
    | split
    | (refine keeps_ite ?_ ?_))

theorem keeps_reshapeRun {s0 s : State} {op : Nat} (hK : Keeps s0 s) :
    Keeps s0 (State.reshapeRun s op) := by
  unfold State.reshapeRun
  repeat' (first
    | (with_reducible assumption)
    | (intro x; first | ((have hx : Keeps s0 x := ?_); (try clear_value x); rotate_left; dsimp -zeta only [x]; rotate_right) | ((have hx : Keeps s0 x.1 := ?_); (try clear_value x); rotate_left; dsimp -zeta only [x]; rotate_right) | ((have hx : Keeps s0 x.2 := ?_); (try clear_value x); rotate_left; dsimp -zeta only [x]; rotate_right) | (clear_value x) | skip)
    | lift_lets -underBinder
    | (with_reducible refine keeps_put ?_ ..)
    | (with_reducible refine keeps_raise ?_ ..)
    | (with_reducible refine keeps_reshapeCode ?_ ..)
    | (with_reducible refine keeps_reshapeStart ?_ ..)
    | (with_reducible refine keeps_reshapePause ?_ ..)
    | (with_reducible refine keeps_reshapeResume ?_ ..)
    | (with_reducible refine keeps_ite ?_ ?_)
    | (fail_if_no_progress beta_reduce)
    | (dsimp only [Keeps, part]; with_reducible refine keeps_of ?_; first | with_reducible assumption | (with_reducible refine keeps_put ?_ ..) | (with_reducible refine keeps_raise ?_ ..) | (with_reducible refine keeps_reshapeCode ?_ ..) | (with_reducible refine keeps_reshapeStart ?_ ..) | (with_reducible refine keeps_reshapePause ?_ ..) | (with_reducible refine keeps_reshapeResume ?_ ..))
    | split
    | (refine keeps_ite ?_ ?_))

theorem keeps_execReshapeStart {s0 s : State} {via : Via} {at_ : Nat} (hK : Keeps s0 s) :
    XKeeps s0 (execReshapeStart via at_ s) := by
  unfold execReshapeStart
  repeat' (first
    | (with_reducible assumption)
    | (intro x; first | ((have hx : Keeps s0 x := ?_); (try clear_value x); rotate_left; dsimp -zeta only [x]; rotate_right) | ((have hx : Keeps s0 x.1 := ?_); (try clear_value x); rotate_left; dsimp -zeta only [x]; rotate_right) | ((have hx : Keeps s0 x.2 := ?_); (try clear_value x); rotate_left; dsimp -zeta only [x]; rotate_right) | (clear_value x) | skip)
    | lift_lets -underBinder
    | (with_reducible refine keeps_tick ?_ ..)
    | (with_reducible refine keeps_command ?_ ?_ ..)
    | (with_reducible refine keeps_reshapeRun ?_ ..)
    | (with_reducible refine keeps_ite ?_ ?_)
    | (with_reducible refine xkeeps_next ?_)
    | (fail_if_no_progress beta_reduce)
    | (dsimp only [Keeps, part]; with_reducible refine keeps_of ?_; first | with_reducible assumption | (with_reducible refine keeps_tick ?_ ..) | (with_reducible refine keeps_command ?_ ?_ ..) | (with_reducible refine keeps_reshapeRun ?_ ..))
    | split
    | (refine keeps_ite ?_ ?_))

theorem keeps_execReshapePause {s0 s : State} {via : Via} {at_ : Nat} (hK : Keeps s0 s) :
    XKeeps s0 (execReshapePause via at_ s) := by
  unfold execReshapePause
  repeat' (first
    | (with_reducible assumption)
    | (intro x; first | ((have hx : Keeps s0 x := ?_); (try clear_value x); rotate_left; dsimp -zeta only [x]; rotate_right) | ((have hx : Keeps s0 x.1 := ?_); (try clear_value x); rotate_left; dsimp -zeta only [x]; rotate_right) | ((have hx : Keeps s0 x.2 := ?_); (try clear_value x); rotate_left; dsimp -zeta only [x]; rotate_right) | (clear_value x) | skip)
    | lift_lets -underBinder
    | (with_reducible refine keeps_tick ?_ ..)
    | (with_reducible refine keeps_command ?_ ?_ ..)
    | (with_reducible refine keeps_reshapeRun ?_ ..)
    | (with_reducible refine keeps_ite ?_ ?_)
    | (with_reducible refine xkeeps_next ?_)
    | (fail_if_no_progress beta_reduce)
    | (dsimp only [Keeps, part]; with_reducible refine keeps_of ?_; first | with_reducible assumption | (with_reducible refine keeps_tick ?_ ..) | (with_reducible refine keeps_command ?_ ?_ ..) | (with_reducible refine keeps_reshapeRun ?_ ..))
    | split
    | (refine keeps_ite ?_ ?_))

theorem keeps_execReshapeResume {s0 s : State} {via : Via} {at_ : Nat} (hK : Keeps s0 s) :
    XKeeps s0 (execReshapeResume via at_ s) := by
  unfold execReshapeResume
  repeat' (first
    | (with_reducible assumption)
    | (intro x; first | ((have hx : Keeps s0 x := ?_); (try clear_value x); rotate_left; dsimp -zeta only [x]; rotate_right) | ((have hx : Keeps s0 x.1 := ?_); (try clear_value x); rotate_left; dsimp -zeta only [x]; rotate_right) | ((have hx : Keeps s0 x.2 := ?_); (try clear_value x); rotate_left; dsimp -zeta only [x]; rotate_right) | (clear_value x) | skip)
    | lift_lets -underBinder
    | (with_reducible refine keeps_tick ?_ ..)
    | (with_reducible refine keeps_command ?_ ?_ ..)
    | (with_reducible refine keeps_reshapeRun ?_ ..)
    | (with_reducible refine keeps_ite ?_ ?_)
    | (with_reducible refine xkeeps_next ?_)
    | (fail_if_no_progress beta_reduce)
    | (dsimp only [Keeps, part]; with_reducible refine keeps_of ?_; first | with_reducible assumption | (with_reducible refine keeps_tick ?_ ..) | (with_reducible refine keeps_command ?_ ?_ ..) | (with_reducible refine keeps_reshapeRun ?_ ..))
    | split
    | (refine keeps_ite ?_ ?_))

theorem keeps_execReshapeSpanDone {s0 s : State} {span : Nat} {group : Nat} {slots : List (Nat × Nat)} {at_ : Nat} (hK : Keeps s0 s) :
    XKeeps s0 (execReshapeSpanDone span group slots at_ s) := by
  unfold execReshapeSpanDone
  repeat' (first
    | (with_reducible assumption)
    | (intro x; first | ((have hx : Keeps s0 x := ?_); (try clear_value x); rotate_left; dsimp -zeta only [x]; rotate_right) | ((have hx : Keeps s0 x.1 := ?_); (try clear_value x); rotate_left; dsimp -zeta only [x]; rotate_right) | ((have hx : Keeps s0 x.2 := ?_); (try clear_value x); rotate_left; dsimp -zeta only [x]; rotate_right) | (clear_value x) | skip)
    | lift_lets -underBinder
    | (with_reducible refine keeps_tick ?_ ..)
    | (with_reducible refine keeps_put ?_ ..)
    | (with_reducible refine keeps_floatFrame ?_ ..)
    | (with_reducible refine keeps_settle ?_ ..)
    | (with_reducible refine keeps_checkReshape ?_ ..)
    | (with_reducible refine keeps_foldl (fun s x hK => ?_) ?_)
    | (with_reducible refine keeps_foldl_fst (fun s x hK => ?_) ?_)
    | (refine keeps_foldl_eq (by assumption) (fun s x hK => ?_) ?_)
    | (with_reducible refine keeps_ite ?_ ?_)
    | (with_reducible refine xkeeps_next ?_)
    | (fail_if_no_progress beta_reduce)
    | (dsimp only [Keeps, part]; with_reducible refine keeps_of ?_; first | with_reducible assumption | (with_reducible refine keeps_tick ?_ ..) | (with_reducible refine keeps_put ?_ ..) | (with_reducible refine keeps_floatFrame ?_ ..) | (with_reducible refine keeps_settle ?_ ..) | (with_reducible refine keeps_checkReshape ?_ ..) | (refine keeps_foldl_eq (by assumption) (fun s x hK => ?_) ?_))
    | split
    | (refine keeps_ite ?_ ?_))

theorem keeps_execStParityStatRead {s0 s : State} {via : Via} {w : AccW} (hK : Keeps s0 s) :
    XKeeps s0 (execStParityStatRead via w s) := by
  unfold execStParityStatRead
  repeat' (first
    | (with_reducible assumption)
    | (intro x; first | ((have hx : Keeps s0 x := ?_); (try clear_value x); rotate_left; dsimp -zeta only [x]; rotate_right) | ((have hx : Keeps s0 x.1 := ?_); (try clear_value x); rotate_left; dsimp -zeta only [x]; rotate_right) | ((have hx : Keeps s0 x.2 := ?_); (try clear_value x); rotate_left; dsimp -zeta only [x]; rotate_right) | (clear_value x) | skip)
    | lift_lets -underBinder
    | (with_reducible refine keeps_readCounters ?_ ..)
    | (with_reducible refine keeps_ite ?_ ?_)
    | (with_reducible refine xkeeps_next ?_)
    | (fail_if_no_progress beta_reduce)
    | (dsimp only [Keeps, part]; with_reducible refine keeps_of ?_; first | with_reducible assumption | (with_reducible refine keeps_readCounters ?_ ..))
    | split
    | (refine keeps_ite ?_ ?_))

end Sys2Proof.Laws
end

