-- ==== Sys2Proof/Laws/KeepsRequests.lean ====
section
/-! SUPPORT. Every operation of Machine/Requests.lean keeps what Laws/Keeps.lean says. -/

set_option linter.unusedTactic false
set_option linter.unreachableTactic false
set_option linter.unusedVariables false

namespace Sys2Proof.Laws

open Sys2Proof Machine

theorem keeps_hostRequest {s0 s : State} {port : Nat} {ld : Nat} {tag : Nat} {hpa : Nat} {op : ReqOp} (hK : Keeps s0 s) :
    Keeps s0 (State.hostRequest s port ld tag hpa op) := by
  unfold State.hostRequest
  repeat' (first
    | (with_reducible assumption)
    | (intro x; first | ((have hx : Keeps s0 x := ?_); (try clear_value x); rotate_left; dsimp -zeta only [x]; rotate_right) | ((have hx : Keeps s0 x.1 := ?_); (try clear_value x); rotate_left; dsimp -zeta only [x]; rotate_right) | ((have hx : Keeps s0 x.2 := ?_); (try clear_value x); rotate_left; dsimp -zeta only [x]; rotate_right) | (clear_value x) | skip)
    | lift_lets -underBinder
    | (with_reducible refine keeps_nextFree ?_ ..)
    | (refine keeps_nextFree_eq (by assumption) ?_)
    | (with_reducible refine keeps_emit ?_ ..)
    | (with_reducible refine keeps_submit ?_ ..)
    | (with_reducible refine keeps_ite ?_ ?_)
    | (fail_if_no_progress beta_reduce)
    | (dsimp only [Keeps, part]; with_reducible refine keeps_of ?_; first | with_reducible assumption | (with_reducible refine keeps_nextFree ?_ ..) | (refine keeps_nextFree_eq (by assumption) ?_) | (with_reducible refine keeps_emit ?_ ..) | (with_reducible refine keeps_submit ?_ ..))
    | split
    | (refine keeps_ite ?_ ?_))

theorem keeps_execMemRd {s0 s : State} {port : Nat} {ld : Nat} {tag : Nat} {hpa : Nat} {at_ : Nat} (hK : Keeps s0 s) :
    XKeeps s0 (execMemRd port ld tag hpa at_ s) := by
  unfold execMemRd
  repeat' (first
    | (with_reducible assumption)
    | (intro x; first | ((have hx : Keeps s0 x := ?_); (try clear_value x); rotate_left; dsimp -zeta only [x]; rotate_right) | ((have hx : Keeps s0 x.1 := ?_); (try clear_value x); rotate_left; dsimp -zeta only [x]; rotate_right) | ((have hx : Keeps s0 x.2 := ?_); (try clear_value x); rotate_left; dsimp -zeta only [x]; rotate_right) | (clear_value x) | skip)
    | lift_lets -underBinder
    | (with_reducible refine keeps_tick ?_ ..)
    | (with_reducible refine keeps_settle ?_ ..)
    | (with_reducible refine keeps_hostRequest ?_ ..)
    | (with_reducible refine keeps_ite ?_ ?_)
    | (with_reducible refine xkeeps_next ?_)
    | (fail_if_no_progress beta_reduce)
    | (dsimp only [Keeps, part]; with_reducible refine keeps_of ?_; first | with_reducible assumption | (with_reducible refine keeps_tick ?_ ..) | (with_reducible refine keeps_settle ?_ ..) | (with_reducible refine keeps_hostRequest ?_ ..))
    | split
    | (refine keeps_ite ?_ ?_))

theorem keeps_execMemWr {s0 s : State} {port : Nat} {ld : Nat} {tag : Nat} {hpa : Nat} {be : Word} {data : LineData} {at_ : Nat} (hK : Keeps s0 s) :
    XKeeps s0 (execMemWr port ld tag hpa be data at_ s) := by
  unfold execMemWr
  repeat' (first
    | (with_reducible assumption)
    | (intro x; first | ((have hx : Keeps s0 x := ?_); (try clear_value x); rotate_left; dsimp -zeta only [x]; rotate_right) | ((have hx : Keeps s0 x.1 := ?_); (try clear_value x); rotate_left; dsimp -zeta only [x]; rotate_right) | ((have hx : Keeps s0 x.2 := ?_); (try clear_value x); rotate_left; dsimp -zeta only [x]; rotate_right) | (clear_value x) | skip)
    | lift_lets -underBinder
    | (with_reducible refine keeps_tick ?_ ..)
    | (with_reducible refine keeps_countRx ?_ ..)
    | (with_reducible refine keeps_settle ?_ ..)
    | (with_reducible refine keeps_hostRequest ?_ ..)
    | (with_reducible refine keeps_ite ?_ ?_)
    | (with_reducible refine xkeeps_next ?_)
    | (fail_if_no_progress beta_reduce)
    | (dsimp only [Keeps, part]; with_reducible refine keeps_of ?_; first | with_reducible assumption | (with_reducible refine keeps_tick ?_ ..) | (with_reducible refine keeps_countRx ?_ ..) | (with_reducible refine keeps_settle ?_ ..) | (with_reducible refine keeps_hostRequest ?_ ..))
    | split
    | (refine keeps_ite ?_ ?_))

theorem keeps_cacheEntry {s0 s : State} {b : Nat} (hK : Keeps s0 s) :
    Keeps s0 (State.cacheEntry s b) := by
  unfold State.cacheEntry
  repeat' (first
    | (with_reducible assumption)
    | (intro x; first | ((have hx : Keeps s0 x := ?_); (try clear_value x); rotate_left; dsimp -zeta only [x]; rotate_right) | ((have hx : Keeps s0 x.1 := ?_); (try clear_value x); rotate_left; dsimp -zeta only [x]; rotate_right) | ((have hx : Keeps s0 x.2 := ?_); (try clear_value x); rotate_left; dsimp -zeta only [x]; rotate_right) | (clear_value x) | skip)
    | lift_lets -underBinder
    | (with_reducible refine keeps_getD ?_ ?_)
    | (with_reducible refine keeps_ite ?_ ?_)
    | (fail_if_no_progress beta_reduce)
    | (dsimp only [Keeps, part]; with_reducible refine keeps_of ?_; first | with_reducible assumption)
    | (dsimp only [Keeps, part]; with_reducible refine keeps_ofFree ?_; first | with_reducible assumption)
    | split
    | (refine keeps_ite ?_ ?_))

theorem keeps_execBoltCacheMissFill {s0 s : State} {id : Nat} {at_ : Nat} (hK : Keeps s0 s) :
    XKeeps s0 (execBoltCacheMissFill id at_ s) := by
  unfold execBoltCacheMissFill
  repeat' (first
    | (with_reducible assumption)
    | (intro x; first | ((have hx : Keeps s0 x := ?_); (try clear_value x); rotate_left; dsimp -zeta only [x]; rotate_right) | ((have hx : Keeps s0 x.1 := ?_); (try clear_value x); rotate_left; dsimp -zeta only [x]; rotate_right) | ((have hx : Keeps s0 x.2 := ?_); (try clear_value x); rotate_left; dsimp -zeta only [x]; rotate_right) | (clear_value x) | skip)
    | lift_lets -underBinder
    | (with_reducible refine keeps_tick ?_ ..)
    | (with_reducible refine keeps_checkEntry ?_ ..)
    | (with_reducible refine keeps_route ?_ ..)
    | (with_reducible refine keeps_settle ?_ ..)
    | (with_reducible refine keeps_cacheEntry ?_ ..)
    | (with_reducible refine keeps_ite ?_ ?_)
    | (with_reducible refine xkeeps_next ?_)
    | (fail_if_no_progress beta_reduce)
    | (dsimp only [Keeps, part]; with_reducible refine keeps_of ?_; first | with_reducible assumption | (with_reducible refine keeps_tick ?_ ..) | (with_reducible refine keeps_checkEntry ?_ ..) | (with_reducible refine keeps_route ?_ ..) | (with_reducible refine keeps_settle ?_ ..) | (with_reducible refine keeps_cacheEntry ?_ ..))
    | split
    | (refine keeps_ite ?_ ?_))

theorem keeps_execHeldRequestRetry {s0 s : State} {id : Nat} {at_ : Nat} (hK : Keeps s0 s) :
    XKeeps s0 (execHeldRequestRetry id at_ s) := by
  unfold execHeldRequestRetry
  repeat' (first
    | (with_reducible assumption)
    | (intro x; first | ((have hx : Keeps s0 x := ?_); (try clear_value x); rotate_left; dsimp -zeta only [x]; rotate_right) | ((have hx : Keeps s0 x.1 := ?_); (try clear_value x); rotate_left; dsimp -zeta only [x]; rotate_right) | ((have hx : Keeps s0 x.2 := ?_); (try clear_value x); rotate_left; dsimp -zeta only [x]; rotate_right) | (clear_value x) | skip)
    | lift_lets -underBinder
    | (with_reducible refine keeps_tick ?_ ..)
    | (with_reducible refine keeps_start ?_ ..)
    | (with_reducible refine keeps_settle ?_ ..)
    | (with_reducible refine keeps_ite ?_ ?_)
    | (with_reducible refine xkeeps_next ?_)
    | (fail_if_no_progress beta_reduce)
    | (dsimp only [Keeps, part]; with_reducible refine keeps_of ?_; first | with_reducible assumption | (with_reducible refine keeps_tick ?_ ..) | (with_reducible refine keeps_start ?_ ..) | (with_reducible refine keeps_settle ?_ ..))
    | split
    | (refine keeps_ite ?_ ?_))

theorem keeps_expireLink {s0 s : State} {id : Nat} (hK : Keeps s0 s) :
    Keeps s0 (State.expireLink s id) := by
  unfold State.expireLink
  repeat' (first
    | (with_reducible assumption)
    | (intro x; first | ((have hx : Keeps s0 x := ?_); (try clear_value x); rotate_left; dsimp -zeta only [x]; rotate_right) | ((have hx : Keeps s0 x.1 := ?_); (try clear_value x); rotate_left; dsimp -zeta only [x]; rotate_right) | ((have hx : Keeps s0 x.2 := ?_); (try clear_value x); rotate_left; dsimp -zeta only [x]; rotate_right) | (clear_value x) | skip)
    | lift_lets -underBinder
    | (with_reducible refine keeps_raiseOff ?_ ..)
    | (with_reducible refine keeps_failTransit ?_ ..)
    | (with_reducible refine keeps_ite ?_ ?_)
    | (fail_if_no_progress beta_reduce)
    | (dsimp only [Keeps, part]; with_reducible refine keeps_of ?_; first | with_reducible assumption | (with_reducible refine keeps_raiseOff ?_ ..) | (with_reducible refine keeps_failTransit ?_ ..))
    | split
    | (refine keeps_ite ?_ ?_))

theorem keeps_execHoldExpiry {s0 s : State} {id : Nat} {at_ : Nat} (hK : Keeps s0 s) :
    XKeeps s0 (execHoldExpiry id at_ s) := by
  unfold execHoldExpiry
  repeat' (first
    | (with_reducible assumption)
    | (intro x; first | ((have hx : Keeps s0 x := ?_); (try clear_value x); rotate_left; dsimp -zeta only [x]; rotate_right) | ((have hx : Keeps s0 x.1 := ?_); (try clear_value x); rotate_left; dsimp -zeta only [x]; rotate_right) | ((have hx : Keeps s0 x.2 := ?_); (try clear_value x); rotate_left; dsimp -zeta only [x]; rotate_right) | (clear_value x) | skip)
    | lift_lets -underBinder
    | (with_reducible refine keeps_tick ?_ ..)
    | (with_reducible refine keeps_raiseOff ?_ ..)
    | (with_reducible refine keeps_fail ?_ ..)
    | (with_reducible refine keeps_settle ?_ ..)
    | (with_reducible refine keeps_expireLink ?_ ..)
    | (with_reducible refine keeps_ite ?_ ?_)
    | (with_reducible refine xkeeps_next ?_)
    | (fail_if_no_progress beta_reduce)
    | (dsimp only [Keeps, part]; with_reducible refine keeps_of ?_; first | with_reducible assumption | (with_reducible refine keeps_tick ?_ ..) | (with_reducible refine keeps_raiseOff ?_ ..) | (with_reducible refine keeps_fail ?_ ..) | (with_reducible refine keeps_settle ?_ ..) | (with_reducible refine keeps_expireLink ?_ ..))
    | split
    | (refine keeps_ite ?_ ?_))

theorem keeps_switchRoute {s0 s : State} {dev : Nat} (hK : Keeps s0 s) :
    Keeps s0 (State.switchRoute s dev) := by
  unfold State.switchRoute
  repeat' (first
    | (with_reducible assumption)
    | (intro x; first | ((have hx : Keeps s0 x := ?_); (try clear_value x); rotate_left; dsimp -zeta only [x]; rotate_right) | ((have hx : Keeps s0 x.1 := ?_); (try clear_value x); rotate_left; dsimp -zeta only [x]; rotate_right) | ((have hx : Keeps s0 x.2 := ?_); (try clear_value x); rotate_left; dsimp -zeta only [x]; rotate_right) | (clear_value x) | skip)
    | lift_lets -underBinder
    | (with_reducible refine keeps_setF ?_ ..)
    | (with_reducible refine keeps_raise ?_ ..)
    | (with_reducible refine keeps_releaseTransit ?_ ..)
    | (with_reducible refine keeps_retryHeld ?_ ..)
    | (with_reducible refine keeps_ite ?_ ?_)
    | (fail_if_no_progress beta_reduce)
    | (dsimp only [Keeps, part]; with_reducible refine keeps_of ?_; first | with_reducible assumption | (with_reducible refine keeps_setF ?_ ..) | (with_reducible refine keeps_raise ?_ ..) | (with_reducible refine keeps_releaseTransit ?_ ..) | (with_reducible refine keeps_retryHeld ?_ ..))
    | split
    | (refine keeps_ite ?_ ?_))

theorem keeps_execRouteDrainDone {s0 s : State} {dev : Nat} {at_ : Nat} (hK : Keeps s0 s) :
    XKeeps s0 (execRouteDrainDone dev at_ s) := by
  unfold execRouteDrainDone
  repeat' (first
    | (with_reducible assumption)
    | (intro x; first | ((have hx : Keeps s0 x := ?_); (try clear_value x); rotate_left; dsimp -zeta only [x]; rotate_right) | ((have hx : Keeps s0 x.1 := ?_); (try clear_value x); rotate_left; dsimp -zeta only [x]; rotate_right) | ((have hx : Keeps s0 x.2 := ?_); (try clear_value x); rotate_left; dsimp -zeta only [x]; rotate_right) | (clear_value x) | skip)
    | lift_lets -underBinder
    | (with_reducible refine keeps_tick ?_ ..)
    | (with_reducible refine keeps_settle ?_ ..)
    | (with_reducible refine keeps_switchRoute ?_ ..)
    | (with_reducible refine keeps_ite ?_ ?_)
    | (with_reducible refine xkeeps_next ?_)
    | (fail_if_no_progress beta_reduce)
    | (dsimp only [Keeps, part]; with_reducible refine keeps_of ?_; first | with_reducible assumption | (with_reducible refine keeps_tick ?_ ..) | (with_reducible refine keeps_settle ?_ ..) | (with_reducible refine keeps_switchRoute ?_ ..))
    | split
    | (refine keeps_ite ?_ ?_))

theorem keeps_execBlCacheStatRead {s0 s : State} {via : Via} {w : AccW} (hK : Keeps s0 s) :
    XKeeps s0 (execBlCacheStatRead via w s) := by
  unfold execBlCacheStatRead
  repeat' (first
    | (with_reducible assumption)
    | (intro x; first | ((have hx : Keeps s0 x := ?_); (try clear_value x); rotate_left; dsimp -zeta only [x]; rotate_right) | ((have hx : Keeps s0 x.1 := ?_); (try clear_value x); rotate_left; dsimp -zeta only [x]; rotate_right) | ((have hx : Keeps s0 x.2 := ?_); (try clear_value x); rotate_left; dsimp -zeta only [x]; rotate_right) | (clear_value x) | skip)
    | lift_lets -underBinder
    | (with_reducible refine keeps_readCounters ?_ ..)
    | (with_reducible refine keeps_ite ?_ ?_)
    | (with_reducible refine xkeeps_next ?_)
    | (fail_if_no_progress beta_reduce)
    | (dsimp only [Keeps, part]; with_reducible refine keeps_of ?_; first | with_reducible assumption | (with_reducible refine keeps_readCounters ?_ ..))
    | split
    | (refine keeps_ite ?_ ?_))

theorem keeps_execCreditReturn {s0 s : State} {port : Nat} {cls : Nat} {n : Nat} {at_ : Nat} (hK : Keeps s0 s) :
    XKeeps s0 (execCreditReturn port cls n at_ s) := by
  unfold execCreditReturn
  repeat' (first
    | (with_reducible assumption)
    | (intro x; first | ((have hx : Keeps s0 x := ?_); (try clear_value x); rotate_left; dsimp -zeta only [x]; rotate_right) | ((have hx : Keeps s0 x.1 := ?_); (try clear_value x); rotate_left; dsimp -zeta only [x]; rotate_right) | ((have hx : Keeps s0 x.2 := ?_); (try clear_value x); rotate_left; dsimp -zeta only [x]; rotate_right) | (clear_value x) | skip)
    | lift_lets -underBinder
    | (with_reducible refine keeps_tick ?_ ..)
    | (with_reducible refine keeps_flushClass ?_ ..)
    | (with_reducible refine keeps_ite ?_ ?_)
    | (with_reducible refine xkeeps_next ?_)
    | (fail_if_no_progress beta_reduce)
    | (dsimp only [Keeps, part]; with_reducible refine keeps_of ?_; first | with_reducible assumption | (with_reducible refine keeps_tick ?_ ..) | (with_reducible refine keeps_flushClass ?_ ..))
    | split
    | (refine keeps_ite ?_ ?_))

end Sys2Proof.Laws
end

