-- ==== Sys2Proof/Laws/KeepsDurable.lean ====
section
/-! SUPPORT. Every operation of Machine/Durable.lean keeps what Laws/Keeps.lean says. -/

set_option linter.unusedTactic false
set_option linter.unreachableTactic false
set_option linter.unusedVariables false

namespace Sys2Proof.Laws

open Sys2Proof Machine

theorem keeps_noteModule {s0 s : State} {m : Nat} {ok : Bool} (hK : Keeps s0 s) :
    Keeps s0 (State.noteModule s m ok) := by
  unfold State.noteModule
  repeat' (first
    | (with_reducible assumption)
    | (intro x; first | ((have hx : Keeps s0 x := ?_); (try clear_value x); rotate_left; dsimp -zeta only [x]; rotate_right) | ((have hx : Keeps s0 x.1 := ?_); (try clear_value x); rotate_left; dsimp -zeta only [x]; rotate_right) | ((have hx : Keeps s0 x.2 := ?_); (try clear_value x); rotate_left; dsimp -zeta only [x]; rotate_right) | (clear_value x) | skip)
    | lift_lets -underBinder
    | (with_reducible refine keeps_updateSaveRate ?_ ..)
    | (with_reducible refine keeps_ite ?_ ?_)
    | (fail_if_no_progress beta_reduce)
    | (dsimp only [Keeps, part]; with_reducible refine keeps_of ?_; first | with_reducible assumption | (with_reducible refine keeps_updateSaveRate ?_ ..))
    | split
    | (refine keeps_ite ?_ ?_))

theorem keeps_spanMarked {s0 s : State} {sp : Nat} (hK : Keeps s0 s) :
    Keeps s0 (State.spanMarked s sp) := by
  unfold State.spanMarked
  repeat' (first
    | (with_reducible assumption)
    | (intro x; first | ((have hx : Keeps s0 x := ?_); (try clear_value x); rotate_left; dsimp -zeta only [x]; rotate_right) | ((have hx : Keeps s0 x.1 := ?_); (try clear_value x); rotate_left; dsimp -zeta only [x]; rotate_right) | ((have hx : Keeps s0 x.2 := ?_); (try clear_value x); rotate_left; dsimp -zeta only [x]; rotate_right) | (clear_value x) | skip)
    | lift_lets -underBinder
    | (with_reducible refine keeps_ite ?_ ?_)
    | (fail_if_no_progress beta_reduce)
    | (dsimp only [Keeps, part]; with_reducible refine keeps_of ?_; first | with_reducible assumption)
    | split
    | (refine keeps_ite ?_ ?_))

theorem keeps_saveWrites {s0 s : State} {ms : List (Nat × Bool)} {slot : Nat} (hK : Keeps s0 s) :
    Keeps s0 (State.saveWrites s ms slot) := by
  unfold State.saveWrites
  repeat' (first
    | (with_reducible assumption)
    | (intro x; first | ((have hx : Keeps s0 x := ?_); (try clear_value x); rotate_left; dsimp -zeta only [x]; rotate_right) | ((have hx : Keeps s0 x.1 := ?_); (try clear_value x); rotate_left; dsimp -zeta only [x]; rotate_right) | ((have hx : Keeps s0 x.2 := ?_); (try clear_value x); rotate_left; dsimp -zeta only [x]; rotate_right) | (clear_value x) | skip)
    | lift_lets -underBinder
    | (with_reducible refine keeps_floatWrite ?_ ..)
    | (with_reducible refine keeps_foldl (fun s x hK => ?_) ?_)
    | (with_reducible refine keeps_foldl_fst (fun s x hK => ?_) ?_)
    | (refine keeps_foldl_eq (by assumption) (fun s x hK => ?_) ?_)
    | (with_reducible refine keeps_ite ?_ ?_)
    | (fail_if_no_progress beta_reduce)
    | (dsimp only [Keeps, part]; with_reducible refine keeps_of ?_; first | with_reducible assumption | (with_reducible refine keeps_floatWrite ?_ ..) | (refine keeps_foldl_eq (by assumption) (fun s x hK => ?_) ?_))
    | split
    | (refine keeps_ite ?_ ?_))

theorem keeps_spanWriteEnds {s0 s : State} {sp : Nat} {a : Bool} {b : Bool} (hK : Keeps s0 s) :
    Keeps s0 (State.spanWriteEnds s sp a b) := by
  unfold State.spanWriteEnds
  repeat' (first
    | (with_reducible assumption)
    | (intro x; first | ((have hx : Keeps s0 x := ?_); (try clear_value x); rotate_left; dsimp -zeta only [x]; rotate_right) | ((have hx : Keeps s0 x.1 := ?_); (try clear_value x); rotate_left; dsimp -zeta only [x]; rotate_right) | ((have hx : Keeps s0 x.2 := ?_); (try clear_value x); rotate_left; dsimp -zeta only [x]; rotate_right) | (clear_value x) | skip)
    | lift_lets -underBinder
    | (with_reducible refine keeps_raise ?_ ..)
    | (with_reducible refine keeps_checkBudget ?_ ..)
    | (with_reducible refine keeps_budgetChanged ?_ ..)
    | (with_reducible refine keeps_noteModule ?_ ..)
    | (with_reducible refine keeps_spanMarked ?_ ..)
    | (with_reducible refine keeps_saveWrites ?_ ..)
    | (with_reducible refine keeps_ite ?_ ?_)
    | (fail_if_no_progress beta_reduce)
    | (dsimp only [Keeps, part]; with_reducible refine keeps_of ?_; first | with_reducible assumption | (with_reducible refine keeps_raise ?_ ..) | (with_reducible refine keeps_checkBudget ?_ ..) | (with_reducible refine keeps_budgetChanged ?_ ..) | (with_reducible refine keeps_noteModule ?_ ..) | (with_reducible refine keeps_spanMarked ?_ ..) | (with_reducible refine keeps_saveWrites ?_ ..))
    | split
    | (refine keeps_ite ?_ ?_))

theorem keeps_spanWritten {s0 s : State} {sp : Nat} {a : Bool} {b : Bool} (hK : Keeps s0 s) :
    Keeps s0 (State.spanWritten s sp a b) := by
  unfold State.spanWritten
  repeat' (first
    | (with_reducible assumption)
    | (intro x; first | ((have hx : Keeps s0 x := ?_); (try clear_value x); rotate_left; dsimp -zeta only [x]; rotate_right) | ((have hx : Keeps s0 x.1 := ?_); (try clear_value x); rotate_left; dsimp -zeta only [x]; rotate_right) | ((have hx : Keeps s0 x.2 := ?_); (try clear_value x); rotate_left; dsimp -zeta only [x]; rotate_right) | (clear_value x) | skip)
    | lift_lets -underBinder
    | (with_reducible refine keeps_startClear ?_ ..)
    | (with_reducible refine keeps_settle ?_ ..)
    | (with_reducible refine keeps_spanWriteEnds ?_ ..)
    | (with_reducible refine keeps_ite ?_ ?_)
    | (fail_if_no_progress beta_reduce)
    | (dsimp only [Keeps, part]; with_reducible refine keeps_of ?_; first | with_reducible assumption | (with_reducible refine keeps_startClear ?_ ..) | (with_reducible refine keeps_settle ?_ ..) | (with_reducible refine keeps_spanWriteEnds ?_ ..))
    | split
    | (refine keeps_ite ?_ ?_))

theorem keeps_rewriteSpans {s0 s : State} (hK : Keeps s0 s) :
    Keeps s0 (State.rewriteSpans s) := by
  unfold State.rewriteSpans
  repeat' (first
    | (with_reducible assumption)
    | (intro x; first | ((have hx : Keeps s0 x := ?_); (try clear_value x); rotate_left; dsimp -zeta only [x]; rotate_right) | ((have hx : Keeps s0 x.1 := ?_); (try clear_value x); rotate_left; dsimp -zeta only [x]; rotate_right) | ((have hx : Keeps s0 x.2 := ?_); (try clear_value x); rotate_left; dsimp -zeta only [x]; rotate_right) | (clear_value x) | skip)
    | lift_lets -underBinder
    | (with_reducible refine keeps_startSpanWrite ?_ ..)
    | (with_reducible refine keeps_foldl (fun s x hK => ?_) ?_)
    | (with_reducible refine keeps_foldl_fst (fun s x hK => ?_) ?_)
    | (refine keeps_foldl_eq (by assumption) (fun s x hK => ?_) ?_)
    | (with_reducible refine keeps_ite ?_ ?_)
    | (fail_if_no_progress beta_reduce)
    | (dsimp only [Keeps, part]; with_reducible refine keeps_of ?_; first | with_reducible assumption | (with_reducible refine keeps_startSpanWrite ?_ ..) | (refine keeps_foldl_eq (by assumption) (fun s x hK => ?_) ?_))
    | split
    | (refine keeps_ite ?_ ?_))

theorem keeps_execDirtySpanWriteDone {s0 s : State} {span : Nat} {a : Bool} {b : Bool} {at_ : Nat} (hK : Keeps s0 s) :
    XKeeps s0 (execDirtySpanWriteDone span a b at_ s) := by
  unfold execDirtySpanWriteDone
  repeat' (first
    | (with_reducible assumption)
    | (intro x; first | ((have hx : Keeps s0 x := ?_); (try clear_value x); rotate_left; dsimp -zeta only [x]; rotate_right) | ((have hx : Keeps s0 x.1 := ?_); (try clear_value x); rotate_left; dsimp -zeta only [x]; rotate_right) | ((have hx : Keeps s0 x.2 := ?_); (try clear_value x); rotate_left; dsimp -zeta only [x]; rotate_right) | (clear_value x) | skip)
    | lift_lets -underBinder
    | (with_reducible refine keeps_tick ?_ ..)
    | (with_reducible refine keeps_spanWritten ?_ ..)
    | (with_reducible refine keeps_ite ?_ ?_)
    | (with_reducible refine xkeeps_next ?_)
    | (fail_if_no_progress beta_reduce)
    | (dsimp only [Keeps, part]; with_reducible refine keeps_of ?_; first | with_reducible assumption | (with_reducible refine keeps_tick ?_ ..) | (with_reducible refine keeps_spanWritten ?_ ..))
    | split
    | (refine keeps_ite ?_ ?_))

theorem keeps_execDirtySpanRetry {s0 s : State} {span : Nat} {a : Bool} {b : Bool} {at_ : Nat} (hK : Keeps s0 s) :
    XKeeps s0 (execDirtySpanRetry span a b at_ s) := by
  unfold execDirtySpanRetry
  repeat' (first
    | (with_reducible assumption)
    | (intro x; first | ((have hx : Keeps s0 x := ?_); (try clear_value x); rotate_left; dsimp -zeta only [x]; rotate_right) | ((have hx : Keeps s0 x.1 := ?_); (try clear_value x); rotate_left; dsimp -zeta only [x]; rotate_right) | ((have hx : Keeps s0 x.2 := ?_); (try clear_value x); rotate_left; dsimp -zeta only [x]; rotate_right) | (clear_value x) | skip)
    | lift_lets -underBinder
    | (with_reducible refine keeps_tick ?_ ..)
    | (with_reducible refine keeps_spanWritten ?_ ..)
    | (with_reducible refine keeps_ite ?_ ?_)
    | (with_reducible refine xkeeps_next ?_)
    | (fail_if_no_progress beta_reduce)
    | (dsimp only [Keeps, part]; with_reducible refine keeps_of ?_; first | with_reducible assumption | (with_reducible refine keeps_tick ?_ ..) | (with_reducible refine keeps_spanWritten ?_ ..))
    | split
    | (refine keeps_ite ?_ ?_))

theorem keeps_execDirtySpanClear {s0 s : State} {span : Nat} {at_ : Nat} (hK : Keeps s0 s) :
    XKeeps s0 (execDirtySpanClear span at_ s) := by
  unfold execDirtySpanClear
  repeat' (first
    | (with_reducible assumption)
    | (intro x; first | ((have hx : Keeps s0 x := ?_); (try clear_value x); rotate_left; dsimp -zeta only [x]; rotate_right) | ((have hx : Keeps s0 x.1 := ?_); (try clear_value x); rotate_left; dsimp -zeta only [x]; rotate_right) | ((have hx : Keeps s0 x.2 := ?_); (try clear_value x); rotate_left; dsimp -zeta only [x]; rotate_right) | (clear_value x) | skip)
    | lift_lets -underBinder
    | (with_reducible refine keeps_tick ?_ ..)
    | (with_reducible refine keeps_startSpanWrite ?_ ..)
    | (with_reducible refine keeps_settle ?_ ..)
    | (with_reducible refine keeps_ite ?_ ?_)
    | (with_reducible refine xkeeps_next ?_)
    | (fail_if_no_progress beta_reduce)
    | (dsimp only [Keeps, part]; with_reducible refine keeps_of ?_; first | with_reducible assumption | (with_reducible refine keeps_tick ?_ ..) | (with_reducible refine keeps_startSpanWrite ?_ ..) | (with_reducible refine keeps_settle ?_ ..))
    | split
    | (refine keeps_ite ?_ ?_))

theorem keeps_execDestageAgeExpiry {s0 s : State} {line : Nat} {at_ : Nat} (hK : Keeps s0 s) :
    XKeeps s0 (execDestageAgeExpiry line at_ s) := by
  unfold execDestageAgeExpiry
  repeat' (first
    | (with_reducible assumption)
    | (intro x; first | ((have hx : Keeps s0 x := ?_); (try clear_value x); rotate_left; dsimp -zeta only [x]; rotate_right) | ((have hx : Keeps s0 x.1 := ?_); (try clear_value x); rotate_left; dsimp -zeta only [x]; rotate_right) | ((have hx : Keeps s0 x.2 := ?_); (try clear_value x); rotate_left; dsimp -zeta only [x]; rotate_right) | (clear_value x) | skip)
    | lift_lets -underBinder
    | (with_reducible refine keeps_tick ?_ ..)
    | (with_reducible refine keeps_settle ?_ ..)
    | (with_reducible refine keeps_ite ?_ ?_)
    | (with_reducible refine xkeeps_next ?_)
    | (fail_if_no_progress beta_reduce)
    | (dsimp only [Keeps, part]; with_reducible refine keeps_of ?_; first | with_reducible assumption | (with_reducible refine keeps_tick ?_ ..) | (with_reducible refine keeps_settle ?_ ..))
    | split
    | (refine keeps_ite ?_ ?_))

theorem keeps_destaged {s0 s : State} {f : Nat} (hK : Keeps s0 s) :
    Keeps s0 (State.destaged s f) := by
  unfold State.destaged
  repeat' (first
    | (with_reducible assumption)
    | (intro x; first | ((have hx : Keeps s0 x := ?_); (try clear_value x); rotate_left; dsimp -zeta only [x]; rotate_right) | ((have hx : Keeps s0 x.1 := ?_); (try clear_value x); rotate_left; dsimp -zeta only [x]; rotate_right) | ((have hx : Keeps s0 x.2 := ?_); (try clear_value x); rotate_left; dsimp -zeta only [x]; rotate_right) | (clear_value x) | skip)
    | lift_lets -underBinder
    | (with_reducible refine keeps_ite ?_ ?_)
    | (fail_if_no_progress beta_reduce)
    | (dsimp only [Keeps, part]; with_reducible refine keeps_of ?_; first | with_reducible assumption)
    | split
    | (refine keeps_ite ?_ ?_))

theorem keeps_onDestageFrameDone {s0 s : State} {frame : Nat} {group : Nat} {slot : Nat} {lines : Word} {at_ : Nat} (hK : Keeps s0 s) :
    Keeps s0 (State.onDestageFrameDone frame group slot lines at_ s) := by
  unfold State.onDestageFrameDone
  repeat' (first
    | (with_reducible assumption)
    | (intro x; first | ((have hx : Keeps s0 x := ?_); (try clear_value x); rotate_left; dsimp -zeta only [x]; rotate_right) | ((have hx : Keeps s0 x.1 := ?_); (try clear_value x); rotate_left; dsimp -zeta only [x]; rotate_right) | ((have hx : Keeps s0 x.2 := ?_); (try clear_value x); rotate_left; dsimp -zeta only [x]; rotate_right) | (clear_value x) | skip)
    | lift_lets -underBinder
    | (with_reducible refine keeps_put ?_ ..)
    | (with_reducible refine keeps_tick ?_ ..)
    | (with_reducible refine keeps_makeClean ?_ ..)
    | (with_reducible refine keeps_startClear ?_ ..)
    | (with_reducible refine keeps_floatFrame ?_ ..)
    | (with_reducible refine keeps_checkDemotion ?_ ..)
    | (with_reducible refine keeps_settle ?_ ..)
    | (with_reducible refine keeps_rowDone ?_ ..)
    | (with_reducible refine keeps_destaged ?_ ..)
    | (with_reducible refine keeps_foldl (fun s x hK => ?_) ?_)
    | (with_reducible refine keeps_foldl_fst (fun s x hK => ?_) ?_)
    | (refine keeps_foldl_eq (by assumption) (fun s x hK => ?_) ?_)
    | (with_reducible refine keeps_ite ?_ ?_)
    | (fail_if_no_progress beta_reduce)
    | (dsimp only [Keeps, part]; with_reducible refine keeps_of ?_; first | with_reducible assumption | (with_reducible refine keeps_put ?_ ..) | (with_reducible refine keeps_tick ?_ ..) | (with_reducible refine keeps_makeClean ?_ ..) | (with_reducible refine keeps_startClear ?_ ..) | (with_reducible refine keeps_floatFrame ?_ ..) | (with_reducible refine keeps_checkDemotion ?_ ..) | (with_reducible refine keeps_settle ?_ ..) | (with_reducible refine keeps_rowDone ?_ ..) | (with_reducible refine keeps_destaged ?_ ..) | (refine keeps_foldl_eq (by assumption) (fun s x hK => ?_) ?_))
    | split
    | (refine keeps_ite ?_ ?_))

theorem keeps_rmwRead {s0 s : State} {frame : Nat} {ok : Bool} (hK : Keeps s0 s) :
    Keeps s0 (State.rmwRead s frame ok) := by
  unfold State.rmwRead
  repeat' (first
    | (with_reducible assumption)
    | (intro x; first | ((have hx : Keeps s0 x := ?_); (try clear_value x); rotate_left; dsimp -zeta only [x]; rotate_right) | ((have hx : Keeps s0 x.1 := ?_); (try clear_value x); rotate_left; dsimp -zeta only [x]; rotate_right) | ((have hx : Keeps s0 x.2 := ?_); (try clear_value x); rotate_left; dsimp -zeta only [x]; rotate_right) | (clear_value x) | skip)
    | lift_lets -underBinder
    | (with_reducible refine keeps_put ?_ ..)
    | (with_reducible refine keeps_poisonLine ?_ ..)
    | (with_reducible refine keeps_loseBytes ?_ ..)
    | (with_reducible refine keeps_sendRepair ?_ ..)
    | (refine keeps_sendRepair_eq (by assumption) ?_)
    | (with_reducible refine keeps_foldl (fun s x hK => ?_) ?_)
    | (with_reducible refine keeps_foldl_fst (fun s x hK => ?_) ?_)
    | (refine keeps_foldl_eq (by assumption) (fun s x hK => ?_) ?_)
    | (with_reducible refine keeps_ite ?_ ?_)
    | (fail_if_no_progress beta_reduce)
    | (dsimp only [Keeps, part]; with_reducible refine keeps_of ?_; first | with_reducible assumption | (with_reducible refine keeps_put ?_ ..) | (with_reducible refine keeps_poisonLine ?_ ..) | (with_reducible refine keeps_loseBytes ?_ ..) | (with_reducible refine keeps_sendRepair ?_ ..) | (refine keeps_sendRepair_eq (by assumption) ?_) | (refine keeps_foldl_eq (by assumption) (fun s x hK => ?_) ?_))
    | split
    | (refine keeps_ite ?_ ?_))

theorem keeps_execRmwReadDone {s0 s : State} {frame : Nat} {ok : Bool} {at_ : Nat} (hK : Keeps s0 s) :
    XKeeps s0 (execRmwReadDone frame ok at_ s) := by
  unfold execRmwReadDone
  repeat' (first
    | (with_reducible assumption)
    | (intro x; first | ((have hx : Keeps s0 x := ?_); (try clear_value x); rotate_left; dsimp -zeta only [x]; rotate_right) | ((have hx : Keeps s0 x.1 := ?_); (try clear_value x); rotate_left; dsimp -zeta only [x]; rotate_right) | ((have hx : Keeps s0 x.2 := ?_); (try clear_value x); rotate_left; dsimp -zeta only [x]; rotate_right) | (clear_value x) | skip)
    | lift_lets -underBinder
    | (with_reducible refine keeps_tick ?_ ..)
    | (with_reducible refine keeps_settle ?_ ..)
    | (with_reducible refine keeps_rmwRead ?_ ..)
    | (with_reducible refine keeps_ite ?_ ?_)
    | (with_reducible refine xkeeps_next ?_)
    | (fail_if_no_progress beta_reduce)
    | (dsimp only [Keeps, part]; with_reducible refine keeps_of ?_; first | with_reducible assumption | (with_reducible refine keeps_tick ?_ ..) | (with_reducible refine keeps_settle ?_ ..) | (with_reducible refine keeps_rmwRead ?_ ..))
    | split
    | (refine keeps_ite ?_ ?_))

theorem keeps_takeRmw {s0 s : State} {l : Nat} {d : LineData} {ok : Bool} (hK : Keeps s0 s) :
    Keeps s0 (State.takeRmw s l d ok) := by
  unfold State.takeRmw
  repeat' (first
    | (with_reducible assumption)
    | (intro x; first | ((have hx : Keeps s0 x := ?_); (try clear_value x); rotate_left; dsimp -zeta only [x]; rotate_right) | ((have hx : Keeps s0 x.1 := ?_); (try clear_value x); rotate_left; dsimp -zeta only [x]; rotate_right) | ((have hx : Keeps s0 x.2 := ?_); (try clear_value x); rotate_left; dsimp -zeta only [x]; rotate_right) | (clear_value x) | skip)
    | lift_lets -underBinder
    | (with_reducible refine keeps_putLine ?_ ..)
    | (with_reducible refine keeps_bump ?_ ..)
    | (with_reducible refine keeps_health ?_ ..)
    | (with_reducible refine keeps_poisonLine ?_ ..)
    | (with_reducible refine keeps_ite ?_ ?_)
    | (fail_if_no_progress beta_reduce)
    | (dsimp only [Keeps, part]; with_reducible refine keeps_of ?_; first | with_reducible assumption | (with_reducible refine keeps_putLine ?_ ..) | (with_reducible refine keeps_bump ?_ ..) | (with_reducible refine keeps_health ?_ ..) | (with_reducible refine keeps_poisonLine ?_ ..))
    | split
    | (refine keeps_ite ?_ ?_))

theorem keeps_execGpfPhase1 {s0 s : State} {port : Nat} {at_ : Nat} (hK : Keeps s0 s) :
    XKeeps s0 (execGpfPhase1 port at_ s) := by
  unfold execGpfPhase1
  repeat' (first
    | (with_reducible assumption)
    | (intro x; first | ((have hx : Keeps s0 x := ?_); (try clear_value x); rotate_left; dsimp -zeta only [x]; rotate_right) | ((have hx : Keeps s0 x.1 := ?_); (try clear_value x); rotate_left; dsimp -zeta only [x]; rotate_right) | ((have hx : Keeps s0 x.2 := ?_); (try clear_value x); rotate_left; dsimp -zeta only [x]; rotate_right) | (clear_value x) | skip)
    | lift_lets -underBinder
    | (with_reducible refine keeps_tick ?_ ..)
    | (with_reducible refine keeps_settle ?_ ..)
    | (with_reducible refine keeps_ite ?_ ?_)
    | (with_reducible refine xkeeps_next ?_)
    | (fail_if_no_progress beta_reduce)
    | (dsimp only [Keeps, part]; with_reducible refine keeps_of ?_; first | with_reducible assumption | (with_reducible refine keeps_tick ?_ ..) | (with_reducible refine keeps_settle ?_ ..))
    | split
    | (refine keeps_ite ?_ ?_))

theorem keeps_execGpfPhase2 {s0 s : State} {port : Nat} {at_ : Nat} (hK : Keeps s0 s) :
    XKeeps s0 (execGpfPhase2 port at_ s) := by
  unfold execGpfPhase2
  repeat' (first
    | (with_reducible assumption)
    | (intro x; first | ((have hx : Keeps s0 x := ?_); (try clear_value x); rotate_left; dsimp -zeta only [x]; rotate_right) | ((have hx : Keeps s0 x.1 := ?_); (try clear_value x); rotate_left; dsimp -zeta only [x]; rotate_right) | ((have hx : Keeps s0 x.2 := ?_); (try clear_value x); rotate_left; dsimp -zeta only [x]; rotate_right) | (clear_value x) | skip)
    | lift_lets -underBinder
    | (with_reducible refine keeps_tick ?_ ..)
    | (with_reducible refine keeps_emit ?_ ..)
    | (with_reducible refine keeps_ite ?_ ?_)
    | (with_reducible refine xkeeps_next ?_)
    | (fail_if_no_progress beta_reduce)
    | (dsimp only [Keeps, part]; with_reducible refine keeps_of ?_; first | with_reducible assumption | (with_reducible refine keeps_tick ?_ ..) | (with_reducible refine keeps_emit ?_ ..))
    | split
    | (refine keeps_ite ?_ ?_))

theorem keeps_writeBudget {s0 s : State} {via : Via} {w : AccW} {v : Word} (hK : Keeps s0 s) :
    Keeps s0 (State.writeBudget s via w v) := by
  unfold State.writeBudget
  repeat' (first
    | (with_reducible assumption)
    | (intro x; first | ((have hx : Keeps s0 x := ?_); (try clear_value x); rotate_left; dsimp -zeta only [x]; rotate_right) | ((have hx : Keeps s0 x.1 := ?_); (try clear_value x); rotate_left; dsimp -zeta only [x]; rotate_right) | ((have hx : Keeps s0 x.2 := ?_); (try clear_value x); rotate_left; dsimp -zeta only [x]; rotate_right) | (clear_value x) | skip)
    | lift_lets -underBinder
    | (with_reducible refine keeps_put ?_ ..)
    | (with_reducible refine keeps_raise ?_ ..)
    | (with_reducible refine keeps_budgetChanged ?_ ..)
    | (with_reducible refine keeps_settle ?_ ..)
    | (with_reducible refine keeps_writeAt ?_ ?_ ..)
    | (with_reducible refine keeps_ite ?_ ?_)
    | (fail_if_no_progress beta_reduce)
    | (dsimp only [Keeps, part]; with_reducible refine keeps_of ?_; first | with_reducible assumption | (with_reducible refine keeps_put ?_ ..) | (with_reducible refine keeps_raise ?_ ..) | (with_reducible refine keeps_budgetChanged ?_ ..) | (with_reducible refine keeps_settle ?_ ..) | (with_reducible refine keeps_writeAt ?_ ?_ ..))
    | split
    | (refine keeps_ite ?_ ?_))

theorem keeps_execPwDirtyBudgetWrite {s0 s : State} {via : Via} {w : AccW} {v : Word} {at_ : Nat} (hK : Keeps s0 s) :
    XKeeps s0 (execPwDirtyBudgetWrite via w v at_ s) := by
  unfold execPwDirtyBudgetWrite
  repeat' (first
    | (with_reducible assumption)
    | (intro x; first | ((have hx : Keeps s0 x := ?_); (try clear_value x); rotate_left; dsimp -zeta only [x]; rotate_right) | ((have hx : Keeps s0 x.1 := ?_); (try clear_value x); rotate_left; dsimp -zeta only [x]; rotate_right) | ((have hx : Keeps s0 x.2 := ?_); (try clear_value x); rotate_left; dsimp -zeta only [x]; rotate_right) | (clear_value x) | skip)
    | lift_lets -underBinder
    | (with_reducible refine keeps_tick ?_ ..)
    | (with_reducible refine keeps_writeBudget ?_ ..)
    | (with_reducible refine keeps_ite ?_ ?_)
    | (with_reducible refine xkeeps_next ?_)
    | (fail_if_no_progress beta_reduce)
    | (dsimp only [Keeps, part]; with_reducible refine keeps_of ?_; first | with_reducible assumption | (with_reducible refine keeps_tick ?_ ..) | (with_reducible refine keeps_writeBudget ?_ ..))
    | split
    | (refine keeps_ite ?_ ?_))

theorem keeps_writeEnergy {s0 s : State} {via : Via} {w : AccW} {v : Word} (hK : Keeps s0 s) :
    Keeps s0 (State.writeEnergy s via w v) := by
  unfold State.writeEnergy
  repeat' (first
    | (with_reducible assumption)
    | (intro x; first | ((have hx : Keeps s0 x := ?_); (try clear_value x); rotate_left; dsimp -zeta only [x]; rotate_right) | ((have hx : Keeps s0 x.1 := ?_); (try clear_value x); rotate_left; dsimp -zeta only [x]; rotate_right) | ((have hx : Keeps s0 x.2 := ?_); (try clear_value x); rotate_left; dsimp -zeta only [x]; rotate_right) | (clear_value x) | skip)
    | lift_lets -underBinder
    | (with_reducible refine keeps_budgetChanged ?_ ..)
    | (with_reducible refine keeps_settle ?_ ..)
    | (with_reducible refine keeps_writeFields ?_ ..)
    | (with_reducible refine keeps_writeAt ?_ ?_ ..)
    | (with_reducible refine keeps_ite ?_ ?_)
    | (fail_if_no_progress beta_reduce)
    | (dsimp only [Keeps, part]; with_reducible refine keeps_of ?_; first | with_reducible assumption | (with_reducible refine keeps_budgetChanged ?_ ..) | (with_reducible refine keeps_settle ?_ ..) | (with_reducible refine keeps_writeFields ?_ ..) | (with_reducible refine keeps_writeAt ?_ ?_ ..))
    | split
    | (refine keeps_ite ?_ ?_))

theorem keeps_execPwEnergyDeclWrite {s0 s : State} {via : Via} {w : AccW} {v : Word} {at_ : Nat} (hK : Keeps s0 s) :
    XKeeps s0 (execPwEnergyDeclWrite via w v at_ s) := by
  unfold execPwEnergyDeclWrite
  repeat' (first
    | (with_reducible assumption)
    | (intro x; first | ((have hx : Keeps s0 x := ?_); (try clear_value x); rotate_left; dsimp -zeta only [x]; rotate_right) | ((have hx : Keeps s0 x.1 := ?_); (try clear_value x); rotate_left; dsimp -zeta only [x]; rotate_right) | ((have hx : Keeps s0 x.2 := ?_); (try clear_value x); rotate_left; dsimp -zeta only [x]; rotate_right) | (clear_value x) | skip)
    | lift_lets -underBinder
    | (with_reducible refine keeps_tick ?_ ..)
    | (with_reducible refine keeps_writeEnergy ?_ ..)
    | (with_reducible refine keeps_ite ?_ ?_)
    | (with_reducible refine xkeeps_next ?_)
    | (fail_if_no_progress beta_reduce)
    | (dsimp only [Keeps, part]; with_reducible refine keeps_of ?_; first | with_reducible assumption | (with_reducible refine keeps_tick ?_ ..) | (with_reducible refine keeps_writeEnergy ?_ ..))
    | split
    | (refine keeps_ite ?_ ?_))

theorem keeps_writePersist {s0 s : State} {via : Via} {w : AccW} {v : Word} (hK : Keeps s0 s) :
    Keeps s0 (State.writePersist s via w v) := by
  unfold State.writePersist
  repeat' (first
    | (with_reducible assumption)
    | (intro x; first | ((have hx : Keeps s0 x := ?_); (try clear_value x); rotate_left; dsimp -zeta only [x]; rotate_right) | ((have hx : Keeps s0 x.1 := ?_); (try clear_value x); rotate_left; dsimp -zeta only [x]; rotate_right) | ((have hx : Keeps s0 x.2 := ?_); (try clear_value x); rotate_left; dsimp -zeta only [x]; rotate_right) | (clear_value x) | skip)
    | lift_lets -underBinder
    | (with_reducible refine keeps_writePlain ?_ ..)
    | (with_reducible refine keeps_rewriteSpans ?_ ..)
    | (with_reducible refine keeps_ite ?_ ?_)
    | (fail_if_no_progress beta_reduce)
    | (dsimp only [Keeps, part]; with_reducible refine keeps_of ?_; first | with_reducible assumption | (with_reducible refine keeps_writePlain ?_ ..) | (with_reducible refine keeps_rewriteSpans ?_ ..))
    | split
    | (refine keeps_ite ?_ ?_))

theorem keeps_execPwPoisonCountRead {s0 s : State} {via : Via} {w : AccW} (hK : Keeps s0 s) :
    XKeeps s0 (execPwPoisonCountRead via w s) := by
  unfold execPwPoisonCountRead
  repeat' (first
    | (with_reducible assumption)
    | (intro x; first | ((have hx : Keeps s0 x := ?_); (try clear_value x); rotate_left; dsimp -zeta only [x]; rotate_right) | ((have hx : Keeps s0 x.1 := ?_); (try clear_value x); rotate_left; dsimp -zeta only [x]; rotate_right) | ((have hx : Keeps s0 x.2 := ?_); (try clear_value x); rotate_left; dsimp -zeta only [x]; rotate_right) | (clear_value x) | skip)
    | lift_lets -underBinder
    | (with_reducible refine keeps_readCounters ?_ ..)
    | (with_reducible refine keeps_ite ?_ ?_)
    | (with_reducible refine xkeeps_next ?_)
    | (fail_if_no_progress beta_reduce)
    | (dsimp only [Keeps, part]; with_reducible refine keeps_of ?_; first | with_reducible assumption | (with_reducible refine keeps_readCounters ?_ ..))
    | split
    | (refine keeps_ite ?_ ?_))

end Sys2Proof.Laws
end

