-- ==== Sys2Proof/Laws/KeepsBolts.lean ====
section
/-! SUPPORT. Every operation of Machine/Bolts.lean keeps what Laws/Keeps.lean says. -/

set_option linter.unusedTactic false
set_option linter.unreachableTactic false
set_option linter.unusedVariables false

namespace Sys2Proof.Laws

open Sys2Proof Machine

theorem keeps_raiseGate {s0 s : State} {b : Nat} {c : Nat} (hK : Keeps s0 s) :
    Keeps s0 (State.raiseGate s b c) := by
  unfold State.raiseGate
  repeat' (first
    | (with_reducible assumption)
    | (intro x; first | ((have hx : Keeps s0 x := ?_); (try clear_value x); rotate_left; dsimp -zeta only [x]; rotate_right) | ((have hx : Keeps s0 x.1 := ?_); (try clear_value x); rotate_left; dsimp -zeta only [x]; rotate_right) | ((have hx : Keeps s0 x.2 := ?_); (try clear_value x); rotate_left; dsimp -zeta only [x]; rotate_right) | (clear_value x) | skip)
    | lift_lets -underBinder
    | (with_reducible refine keeps_put ?_ ..)
    | (with_reducible refine keeps_gate ?_ ?_ ..)
    | (with_reducible refine keeps_ite ?_ ?_)
    | (fail_if_no_progress beta_reduce)
    | (dsimp only [Keeps, part]; with_reducible refine keeps_of ?_; first | with_reducible assumption | (with_reducible refine keeps_put ?_ ..) | (with_reducible refine keeps_gate ?_ ?_ ..))
    | split
    | (refine keeps_ite ?_ ?_))

theorem keeps_releaseBolt {s0 s : State} {b : Nat} (hK : Keeps s0 s) :
    Keeps s0 (State.releaseBolt s b) := by
  unfold State.releaseBolt
  repeat' (first
    | (with_reducible assumption)
    | (intro x; first | ((have hx : Keeps s0 x := ?_); (try clear_value x); rotate_left; dsimp -zeta only [x]; rotate_right) | ((have hx : Keeps s0 x.1 := ?_); (try clear_value x); rotate_left; dsimp -zeta only [x]; rotate_right) | ((have hx : Keeps s0 x.2 := ?_); (try clear_value x); rotate_left; dsimp -zeta only [x]; rotate_right) | (clear_value x) | skip)
    | lift_lets -underBinder
    | (with_reducible refine keeps_zeroRange ?_ ..)
    | (with_reducible refine keeps_dropLines ?_ ..)
    | (with_reducible refine keeps_dropFSpan ?_ ..)
    | (with_reducible refine keeps_foldl (fun s x hK => ?_) ?_)
    | (with_reducible refine keeps_foldl_fst (fun s x hK => ?_) ?_)
    | (refine keeps_foldl_eq (by assumption) (fun s x hK => ?_) ?_)
    | (with_reducible refine keeps_ite ?_ ?_)
    | (fail_if_no_progress beta_reduce)
    | (dsimp only [Keeps, part]; with_reducible refine keeps_of ?_; first | with_reducible assumption | (with_reducible refine keeps_zeroRange ?_ ..) | (with_reducible refine keeps_dropLines ?_ ..) | (with_reducible refine keeps_dropFSpan ?_ ..) | (refine keeps_foldl_eq (by assumption) (fun s x hK => ?_) ?_))
    | split
    | (refine keeps_ite ?_ ?_))

theorem keeps_sendCopyFrame {s0 s : State} {f : Nat} {last : Bool} {empty : Bool} (hK : Keeps s0 s) :
    Keeps s0 (State.sendCopyFrame s f last empty) := by
  unfold State.sendCopyFrame
  repeat' (first
    | (with_reducible assumption)
    | (intro x; first | ((have hx : Keeps s0 x := ?_); (try clear_value x); rotate_left; dsimp -zeta only [x]; rotate_right) | ((have hx : Keeps s0 x.1 := ?_); (try clear_value x); rotate_left; dsimp -zeta only [x]; rotate_right) | ((have hx : Keeps s0 x.2 := ?_); (try clear_value x); rotate_left; dsimp -zeta only [x]; rotate_right) | (clear_value x) | skip)
    | lift_lets -underBinder
    | (with_reducible refine keeps_newTag ?_ ..)
    | (refine keeps_newTag_eq (by assumption) ?_)
    | (with_reducible refine keeps_sendStream ?_ ..)
    | (with_reducible refine keeps_ite ?_ ?_)
    | (fail_if_no_progress beta_reduce)
    | (dsimp only [Keeps, part]; with_reducible refine keeps_of ?_; first | with_reducible assumption | (with_reducible refine keeps_newTag ?_ ..) | (refine keeps_newTag_eq (by assumption) ?_) | (with_reducible refine keeps_sendStream ?_ ..))
    | split
    | (refine keeps_ite ?_ ?_))

theorem keeps_poisonBad {s0 s : State} {f : Nat} (hK : Keeps s0 s) :
    Keeps s0 (State.poisonBad s f) := by
  unfold State.poisonBad
  repeat' (first
    | (with_reducible assumption)
    | (intro x; first | ((have hx : Keeps s0 x := ?_); (try clear_value x); rotate_left; dsimp -zeta only [x]; rotate_right) | ((have hx : Keeps s0 x.1 := ?_); (try clear_value x); rotate_left; dsimp -zeta only [x]; rotate_right) | ((have hx : Keeps s0 x.2 := ?_); (try clear_value x); rotate_left; dsimp -zeta only [x]; rotate_right) | (clear_value x) | skip)
    | lift_lets -underBinder
    | (with_reducible refine keeps_readBeats ?_ ..)
    | (with_reducible refine keeps_newBeats ?_ ..)
    | (with_reducible refine keeps_poisonRead ?_ ..)
    | (with_reducible refine keeps_foldl (fun s x hK => ?_) ?_)
    | (with_reducible refine keeps_foldl_fst (fun s x hK => ?_) ?_)
    | (refine keeps_foldl_eq (by assumption) (fun s x hK => ?_) ?_)
    | (with_reducible refine keeps_ite ?_ ?_)
    | (fail_if_no_progress beta_reduce)
    | (dsimp only [Keeps, part]; with_reducible refine keeps_of ?_; first | with_reducible assumption | (with_reducible refine keeps_readBeats ?_ ..) | (with_reducible refine keeps_newBeats ?_ ..) | (with_reducible refine keeps_poisonRead ?_ ..) | (refine keeps_foldl_eq (by assumption) (fun s x hK => ?_) ?_))
    | split
    | (refine keeps_ite ?_ ?_))

theorem keeps_sendCopySpan {s0 s : State} {sp : Nat} {final : Bool} (hK : Keeps s0 s) :
    Keeps s0 (State.sendCopySpan s sp final) := by
  unfold State.sendCopySpan
  repeat' (first
    | (with_reducible assumption)
    | (intro x; first | ((have hx : Keeps s0 x := ?_); (try clear_value x); rotate_left; dsimp -zeta only [x]; rotate_right) | ((have hx : Keeps s0 x.1 := ?_); (try clear_value x); rotate_left; dsimp -zeta only [x]; rotate_right) | ((have hx : Keeps s0 x.2 := ?_); (try clear_value x); rotate_left; dsimp -zeta only [x]; rotate_right) | (clear_value x) | skip)
    | lift_lets -underBinder
    | (with_reducible refine keeps_sendCopyFrame ?_ ..)
    | (with_reducible refine keeps_poisonBad ?_ ..)
    | (with_reducible refine keeps_foldl (fun s x hK => ?_) ?_)
    | (with_reducible refine keeps_foldl_fst (fun s x hK => ?_) ?_)
    | (refine keeps_foldl_eq (by assumption) (fun s x hK => ?_) ?_)
    | (with_reducible refine keeps_ite ?_ ?_)
    | (fail_if_no_progress beta_reduce)
    | (dsimp only [Keeps, part]; with_reducible refine keeps_of ?_; first | with_reducible assumption | (with_reducible refine keeps_sendCopyFrame ?_ ..) | (with_reducible refine keeps_poisonBad ?_ ..) | (refine keeps_foldl_eq (by assumption) (fun s x hK => ?_) ?_))
    | split
    | (refine keeps_ite ?_ ?_))

theorem keeps_startFill {s0 s : State} {b : Nat} (hK : Keeps s0 s) :
    Keeps s0 (State.startFill s b) := by
  unfold State.startFill
  repeat' (first
    | (with_reducible assumption)
    | (intro x; first | ((have hx : Keeps s0 x := ?_); (try clear_value x); rotate_left; dsimp -zeta only [x]; rotate_right) | ((have hx : Keeps s0 x.1 := ?_); (try clear_value x); rotate_left; dsimp -zeta only [x]; rotate_right) | ((have hx : Keeps s0 x.2 := ?_); (try clear_value x); rotate_left; dsimp -zeta only [x]; rotate_right) | (clear_value x) | skip)
    | lift_lets -underBinder
    | (with_reducible refine keeps_put ?_ ..)
    | (with_reducible refine keeps_sendCopySpan ?_ ..)
    | (with_reducible refine keeps_ite ?_ ?_)
    | (fail_if_no_progress beta_reduce)
    | (dsimp only [Keeps, part]; with_reducible refine keeps_of ?_; first | with_reducible assumption | (with_reducible refine keeps_put ?_ ..) | (with_reducible refine keeps_sendCopySpan ?_ ..))
    | split
    | (refine keeps_ite ?_ ?_))

theorem keeps_applyEntry {s0 s : State} {b : Nat} {e : BoltEntry} (hK : Keeps s0 s) :
    Keeps s0 (State.applyEntry s b e) := by
  unfold State.applyEntry
  repeat' (first
    | (with_reducible assumption)
    | (intro x; first | ((have hx : Keeps s0 x := ?_); (try clear_value x); rotate_left; dsimp -zeta only [x]; rotate_right) | ((have hx : Keeps s0 x.1 := ?_); (try clear_value x); rotate_left; dsimp -zeta only [x]; rotate_right) | ((have hx : Keeps s0 x.2 := ?_); (try clear_value x); rotate_left; dsimp -zeta only [x]; rotate_right) | (clear_value x) | skip)
    | lift_lets -underBinder
    | (with_reducible refine keeps_put ?_ ..)
    | (with_reducible refine keeps_retryHeld ?_ ..)
    | (with_reducible refine keeps_reissueStores ?_ ..)
    | (with_reducible refine keeps_resendMoved ?_ ..)
    | (with_reducible refine keeps_raiseGate ?_ ..)
    | (with_reducible refine keeps_releaseBolt ?_ ..)
    | (with_reducible refine keeps_startFill ?_ ..)
    | (with_reducible refine keeps_ite ?_ ?_)
    | (fail_if_no_progress beta_reduce)
    | (dsimp only [Keeps, part]; with_reducible refine keeps_of ?_; first | with_reducible assumption | (with_reducible refine keeps_put ?_ ..) | (with_reducible refine keeps_retryHeld ?_ ..) | (with_reducible refine keeps_reissueStores ?_ ..) | (with_reducible refine keeps_resendMoved ?_ ..) | (with_reducible refine keeps_raiseGate ?_ ..) | (with_reducible refine keeps_releaseBolt ?_ ..) | (with_reducible refine keeps_startFill ?_ ..))
    | split
    | (refine keeps_ite ?_ ?_))

theorem keeps_broadcast {s0 s : State} {b : Nat} {e : BoltEntry} (hK : Keeps s0 s) :
    Keeps s0 (State.broadcast s b e) := by
  unfold State.broadcast
  repeat' (first
    | (with_reducible assumption)
    | (intro x; first | ((have hx : Keeps s0 x := ?_); (try clear_value x); rotate_left; dsimp -zeta only [x]; rotate_right) | ((have hx : Keeps s0 x.1 := ?_); (try clear_value x); rotate_left; dsimp -zeta only [x]; rotate_right) | ((have hx : Keeps s0 x.2 := ?_); (try clear_value x); rotate_left; dsimp -zeta only [x]; rotate_right) | (clear_value x) | skip)
    | lift_lets -underBinder
    | (with_reducible refine keeps_send ?_ ..)
    | (with_reducible refine keeps_foldl (fun s x hK => ?_) ?_)
    | (with_reducible refine keeps_foldl_fst (fun s x hK => ?_) ?_)
    | (refine keeps_foldl_eq (by assumption) (fun s x hK => ?_) ?_)
    | (with_reducible refine keeps_ite ?_ ?_)
    | (fail_if_no_progress beta_reduce)
    | (dsimp only [Keeps, part]; with_reducible refine keeps_of ?_; first | with_reducible assumption | (with_reducible refine keeps_send ?_ ..) | (refine keeps_foldl_eq (by assumption) (fun s x hK => ?_) ?_))
    | split
    | (refine keeps_ite ?_ ?_))

theorem keeps_changeEntry {s0 s : State} {b : Nat} {e : BoltEntry} (hK : Keeps s0 s) :
    Keeps s0 (State.changeEntry s b e) := by
  unfold State.changeEntry
  repeat' (first
    | (with_reducible assumption)
    | (intro x; first | ((have hx : Keeps s0 x := ?_); (try clear_value x); rotate_left; dsimp -zeta only [x]; rotate_right) | ((have hx : Keeps s0 x.1 := ?_); (try clear_value x); rotate_left; dsimp -zeta only [x]; rotate_right) | ((have hx : Keeps s0 x.2 := ?_); (try clear_value x); rotate_left; dsimp -zeta only [x]; rotate_right) | (clear_value x) | skip)
    | lift_lets -underBinder
    | (with_reducible refine keeps_applyEntry ?_ ..)
    | (with_reducible refine keeps_broadcast ?_ ..)
    | (with_reducible refine keeps_ite ?_ ?_)
    | (fail_if_no_progress beta_reduce)
    | (dsimp only [Keeps, part]; with_reducible refine keeps_of ?_; first | with_reducible assumption | (with_reducible refine keeps_applyEntry ?_ ..) | (with_reducible refine keeps_broadcast ?_ ..))
    | split
    | (refine keeps_ite ?_ ?_))

theorem keeps_doBind {s0 s : State} {a0 : Word} {w0 : Word} {w2 : Word} (hK : Keeps s0 s) :
    Keeps s0 (State.doBind s a0 w0 w2).1 := by
  unfold State.doBind
  repeat' (first
    | (with_reducible assumption)
    | (intro x; first | ((have hx : Keeps s0 x := ?_); (try clear_value x); rotate_left; dsimp -zeta only [x]; rotate_right) | ((have hx : Keeps s0 x.1 := ?_); (try clear_value x); rotate_left; dsimp -zeta only [x]; rotate_right) | ((have hx : Keeps s0 x.2 := ?_); (try clear_value x); rotate_left; dsimp -zeta only [x]; rotate_right) | (clear_value x) | skip)
    | lift_lets -underBinder
    | (with_reducible refine keeps_checkEntry ?_ ..)
    | (with_reducible refine keeps_changeEntry ?_ ..)
    | (with_reducible refine keeps_ite ?_ ?_)
    | (fail_if_no_progress beta_reduce)
    | (dsimp only [Keeps, part]; with_reducible refine keeps_of ?_; first | with_reducible assumption | (with_reducible refine keeps_checkEntry ?_ ..) | (with_reducible refine keeps_changeEntry ?_ ..))
    | split
    | (refine keeps_ite ?_ ?_))

theorem keeps_doBind_eq {s0 s tE : State} {bE : CmdEnd} {a0 : Word} {w0 : Word} {w2 : Word} (hEq : State.doBind s a0 w0 w2 = (tE, bE)) (hK : Keeps s0 s) : Keeps s0 tE := by
  have k : Keeps s0 (State.doBind s a0 w0 w2).1 := keeps_doBind hK
  rw [hEq] at k
  exact k

theorem keeps_doUnbind {s0 s : State} {b : Nat} (hK : Keeps s0 s) :
    Keeps s0 (State.doUnbind s b).1 := by
  unfold State.doUnbind
  repeat' (first
    | (with_reducible assumption)
    | (intro x; first | ((have hx : Keeps s0 x := ?_); (try clear_value x); rotate_left; dsimp -zeta only [x]; rotate_right) | ((have hx : Keeps s0 x.1 := ?_); (try clear_value x); rotate_left; dsimp -zeta only [x]; rotate_right) | ((have hx : Keeps s0 x.2 := ?_); (try clear_value x); rotate_left; dsimp -zeta only [x]; rotate_right) | (clear_value x) | skip)
    | lift_lets -underBinder
    | (with_reducible refine keeps_checkEntry ?_ ..)
    | (with_reducible refine keeps_changeEntry ?_ ..)
    | (with_reducible refine keeps_ite ?_ ?_)
    | (fail_if_no_progress beta_reduce)
    | (dsimp only [Keeps, part]; with_reducible refine keeps_of ?_; first | with_reducible assumption | (with_reducible refine keeps_checkEntry ?_ ..) | (with_reducible refine keeps_changeEntry ?_ ..))
    | split
    | (refine keeps_ite ?_ ?_))

theorem keeps_doUnbind_eq {s0 s tE : State} {bE : CmdEnd} {b : Nat} (hEq : State.doUnbind s b = (tE, bE)) (hK : Keeps s0 s) : Keeps s0 tE := by
  have k : Keeps s0 (State.doUnbind s b).1 := keeps_doUnbind hK
  rw [hEq] at k
  exact k

theorem keeps_doModify {s0 s : State} {b : Nat} {w0 : Word} {w2 : Word} (hK : Keeps s0 s) :
    Keeps s0 (State.doModify s b w0 w2).1 := by
  unfold State.doModify
  repeat' (first
    | (with_reducible assumption)
    | (intro x; first | ((have hx : Keeps s0 x := ?_); (try clear_value x); rotate_left; dsimp -zeta only [x]; rotate_right) | ((have hx : Keeps s0 x.1 := ?_); (try clear_value x); rotate_left; dsimp -zeta only [x]; rotate_right) | ((have hx : Keeps s0 x.2 := ?_); (try clear_value x); rotate_left; dsimp -zeta only [x]; rotate_right) | (clear_value x) | skip)
    | lift_lets -underBinder
    | (with_reducible refine keeps_checkEntry ?_ ..)
    | (with_reducible refine keeps_changeEntry ?_ ..)
    | (with_reducible refine keeps_ite ?_ ?_)
    | (fail_if_no_progress beta_reduce)
    | (dsimp only [Keeps, part]; with_reducible refine keeps_of ?_; first | with_reducible assumption | (with_reducible refine keeps_checkEntry ?_ ..) | (with_reducible refine keeps_changeEntry ?_ ..))
    | split
    | (refine keeps_ite ?_ ?_))

theorem keeps_doModify_eq {s0 s tE : State} {bE : CmdEnd} {b : Nat} {w0 : Word} {w2 : Word} (hEq : State.doModify s b w0 w2 = (tE, bE)) (hK : Keeps s0 s) : Keeps s0 tE := by
  have k : Keeps s0 (State.doModify s b w0 w2).1 := keeps_doModify hK
  rw [hEq] at k
  exact k

theorem keeps_addTenant {s0 s : State} {t : Nat} (hK : Keeps s0 s) :
    Keeps s0 (State.addTenant s t) := by
  unfold State.addTenant
  repeat' (first
    | (with_reducible assumption)
    | (intro x; first | ((have hx : Keeps s0 x := ?_); (try clear_value x); rotate_left; dsimp -zeta only [x]; rotate_right) | ((have hx : Keeps s0 x.1 := ?_); (try clear_value x); rotate_left; dsimp -zeta only [x]; rotate_right) | ((have hx : Keeps s0 x.2 := ?_); (try clear_value x); rotate_left; dsimp -zeta only [x]; rotate_right) | (clear_value x) | skip)
    | lift_lets -underBinder
    | (with_reducible refine keeps_ite ?_ ?_)
    | (fail_if_no_progress beta_reduce)
    | (dsimp only [Keeps, part]; with_reducible refine keeps_of ?_; first | with_reducible assumption)
    | split
    | (refine keeps_ite ?_ ?_))

theorem keeps_dropTenant {s0 s : State} {t : Nat} (hK : Keeps s0 s) :
    Keeps s0 (State.dropTenant s t) := by
  unfold State.dropTenant
  repeat' (first
    | (with_reducible assumption)
    | (intro x; first | ((have hx : Keeps s0 x := ?_); (try clear_value x); rotate_left; dsimp -zeta only [x]; rotate_right) | ((have hx : Keeps s0 x.1 := ?_); (try clear_value x); rotate_left; dsimp -zeta only [x]; rotate_right) | ((have hx : Keeps s0 x.2 := ?_); (try clear_value x); rotate_left; dsimp -zeta only [x]; rotate_right) | (clear_value x) | skip)
    | lift_lets -underBinder
    | (with_reducible refine keeps_writeSummary ?_ ..)
    | (with_reducible refine keeps_ite ?_ ?_)
    | (fail_if_no_progress beta_reduce)
    | (dsimp only [Keeps, part]; with_reducible refine keeps_of ?_; first | with_reducible assumption | (with_reducible refine keeps_writeSummary ?_ ..))
    | split
    | (refine keeps_ite ?_ ?_))

theorem keeps_tellTenants {s0 s : State} {op : Nat} {t : Nat} (hK : Keeps s0 s) :
    Keeps s0 (State.tellTenants s op t) := by
  unfold State.tellTenants
  repeat' (first
    | (with_reducible assumption)
    | (intro x; first | ((have hx : Keeps s0 x := ?_); (try clear_value x); rotate_left; dsimp -zeta only [x]; rotate_right) | ((have hx : Keeps s0 x.1 := ?_); (try clear_value x); rotate_left; dsimp -zeta only [x]; rotate_right) | ((have hx : Keeps s0 x.2 := ?_); (try clear_value x); rotate_left; dsimp -zeta only [x]; rotate_right) | (clear_value x) | skip)
    | lift_lets -underBinder
    | (with_reducible refine keeps_newTag ?_ ..)
    | (refine keeps_newTag_eq (by assumption) ?_)
    | (with_reducible refine keeps_send ?_ ..)
    | (with_reducible refine keeps_foldl (fun s x hK => ?_) ?_)
    | (with_reducible refine keeps_foldl_fst (fun s x hK => ?_) ?_)
    | (refine keeps_foldl_eq (by assumption) (fun s x hK => ?_) ?_)
    | (with_reducible refine keeps_ite ?_ ?_)
    | (fail_if_no_progress beta_reduce)
    | (dsimp only [Keeps, part]; with_reducible refine keeps_of ?_; first | with_reducible assumption | (with_reducible refine keeps_newTag ?_ ..) | (refine keeps_newTag_eq (by assumption) ?_) | (with_reducible refine keeps_send ?_ ..) | (refine keeps_foldl_eq (by assumption) (fun s x hK => ?_) ?_))
    | split
    | (refine keeps_ite ?_ ?_))

theorem keeps_doTenantCreate {s0 s : State} (hK : Keeps s0 s) :
    Keeps s0 (State.doTenantCreate s).1 := by
  unfold State.doTenantCreate
  repeat' (first
    | (with_reducible assumption)
    | (intro x; first | ((have hx : Keeps s0 x := ?_); (try clear_value x); rotate_left; dsimp -zeta only [x]; rotate_right) | ((have hx : Keeps s0 x.1 := ?_); (try clear_value x); rotate_left; dsimp -zeta only [x]; rotate_right) | ((have hx : Keeps s0 x.2 := ?_); (try clear_value x); rotate_left; dsimp -zeta only [x]; rotate_right) | (clear_value x) | skip)
    | lift_lets -underBinder
    | (with_reducible refine keeps_addTenant ?_ ..)
    | (with_reducible refine keeps_tellTenants ?_ ..)
    | (with_reducible refine keeps_ite ?_ ?_)
    | (fail_if_no_progress beta_reduce)
    | (dsimp only [Keeps, part]; with_reducible refine keeps_of ?_; first | with_reducible assumption | (with_reducible refine keeps_addTenant ?_ ..) | (with_reducible refine keeps_tellTenants ?_ ..))
    | split
    | (refine keeps_ite ?_ ?_))

theorem keeps_doTenantCreate_eq {s0 s tE : State} {bE : CmdEnd} (hEq : State.doTenantCreate s = (tE, bE)) (hK : Keeps s0 s) : Keeps s0 tE := by
  have k : Keeps s0 (State.doTenantCreate s).1 := keeps_doTenantCreate hK
  rw [hEq] at k
  exact k

theorem keeps_deleteTenant {s0 s : State} {t : Nat} (hK : Keeps s0 s) :
    Keeps s0 (State.deleteTenant s t).1 := by
  unfold State.deleteTenant
  repeat' (first
    | (with_reducible assumption)
    | (intro x; first | ((have hx : Keeps s0 x := ?_); (try clear_value x); rotate_left; dsimp -zeta only [x]; rotate_right) | ((have hx : Keeps s0 x.1 := ?_); (try clear_value x); rotate_left; dsimp -zeta only [x]; rotate_right) | ((have hx : Keeps s0 x.2 := ?_); (try clear_value x); rotate_left; dsimp -zeta only [x]; rotate_right) | (clear_value x) | skip)
    | lift_lets -underBinder
    | (with_reducible refine keeps_dropTenant ?_ ..)
    | (with_reducible refine keeps_tellTenants ?_ ..)
    | (with_reducible refine keeps_ite ?_ ?_)
    | (fail_if_no_progress beta_reduce)
    | (dsimp only [Keeps, part]; with_reducible refine keeps_of ?_; first | with_reducible assumption | (with_reducible refine keeps_dropTenant ?_ ..) | (with_reducible refine keeps_tellTenants ?_ ..))
    | split
    | (refine keeps_ite ?_ ?_))

theorem keeps_deleteTenant_eq {s0 s tE : State} {bE : CmdEnd} {t : Nat} (hEq : State.deleteTenant s t = (tE, bE)) (hK : Keeps s0 s) : Keeps s0 tE := by
  have k : Keeps s0 (State.deleteTenant s t).1 := keeps_deleteTenant hK
  rw [hEq] at k
  exact k

theorem keeps_askAttached {s0 s : State} {x : TenantDel} {d : Nat} (hK : Keeps s0 s) :
    Keeps s0 (State.askAttached s x d).1 := by
  unfold State.askAttached
  repeat' (first
    | (with_reducible assumption)
    | (intro x; first | ((have hx : Keeps s0 x := ?_); (try clear_value x); rotate_left; dsimp -zeta only [x]; rotate_right) | ((have hx : Keeps s0 x.1 := ?_); (try clear_value x); rotate_left; dsimp -zeta only [x]; rotate_right) | ((have hx : Keeps s0 x.2 := ?_); (try clear_value x); rotate_left; dsimp -zeta only [x]; rotate_right) | (clear_value x) | skip)
    | lift_lets -underBinder
    | (with_reducible refine keeps_newTag ?_ ..)
    | (refine keeps_newTag_eq (by assumption) ?_)
    | (with_reducible refine keeps_send ?_ ..)
    | (with_reducible refine keeps_ite ?_ ?_)
    | (fail_if_no_progress beta_reduce)
    | (dsimp only [Keeps, part]; with_reducible refine keeps_of ?_; first | with_reducible assumption | (with_reducible refine keeps_newTag ?_ ..) | (refine keeps_newTag_eq (by assumption) ?_) | (with_reducible refine keeps_send ?_ ..))
    | split
    | (refine keeps_ite ?_ ?_))

theorem keeps_askAttached_eq {s0 s tE : State} {bE : TenantDel} {x : TenantDel} {d : Nat} (hEq : State.askAttached s x d = (tE, bE)) (hK : Keeps s0 s) : Keeps s0 tE := by
  have k : Keeps s0 (State.askAttached s x d).1 := keeps_askAttached hK
  rw [hEq] at k
  exact k

theorem keeps_putTenantDel {s0 s : State} {x : TenantDel} {l : List Nat} (hK : Keeps s0 s) :
    Keeps s0 (State.putTenantDel s x l) := by
  unfold State.putTenantDel
  repeat' (first
    | (with_reducible assumption)
    | (intro x; first | ((have hx : Keeps s0 x := ?_); (try clear_value x); rotate_left; dsimp -zeta only [x]; rotate_right) | ((have hx : Keeps s0 x.1 := ?_); (try clear_value x); rotate_left; dsimp -zeta only [x]; rotate_right) | ((have hx : Keeps s0 x.2 := ?_); (try clear_value x); rotate_left; dsimp -zeta only [x]; rotate_right) | (clear_value x) | skip)
    | lift_lets -underBinder
    | (with_reducible refine keeps_askAttached ?_ ..)
    | (refine keeps_askAttached_eq (by assumption) ?_)
    | (with_reducible refine keeps_foldl (fun s x hK => ?_) ?_)
    | (with_reducible refine keeps_foldl_fst (fun s x hK => ?_) ?_)
    | (refine keeps_foldl_eq (by assumption) (fun s x hK => ?_) ?_)
    | (with_reducible refine keeps_ite ?_ ?_)
    | (fail_if_no_progress beta_reduce)
    | (dsimp only [Keeps, part]; with_reducible refine keeps_of ?_; first | with_reducible assumption | (with_reducible refine keeps_askAttached ?_ ..) | (refine keeps_askAttached_eq (by assumption) ?_) | (refine keeps_foldl_eq (by assumption) (fun s x hK => ?_) ?_))
    | split
    | (refine keeps_ite ?_ ?_))

theorem keeps_doTenantDelete {s0 s : State} {t : Nat} {asker : Option Hdr} (hK : Keeps s0 s) :
    Keeps s0 (State.doTenantDelete s t asker).1 := by
  unfold State.doTenantDelete
  repeat' (first
    | (with_reducible assumption)
    | (intro x; first | ((have hx : Keeps s0 x := ?_); (try clear_value x); rotate_left; dsimp -zeta only [x]; rotate_right) | ((have hx : Keeps s0 x.1 := ?_); (try clear_value x); rotate_left; dsimp -zeta only [x]; rotate_right) | ((have hx : Keeps s0 x.2 := ?_); (try clear_value x); rotate_left; dsimp -zeta only [x]; rotate_right) | (clear_value x) | skip)
    | lift_lets -underBinder
    | (with_reducible refine keeps_deleteTenant ?_ ..)
    | (refine keeps_deleteTenant_eq (by assumption) ?_)
    | (with_reducible refine keeps_putTenantDel ?_ ..)
    | (with_reducible refine keeps_ite ?_ ?_)
    | (fail_if_no_progress beta_reduce)
    | (dsimp only [Keeps, part]; with_reducible refine keeps_of ?_; first | with_reducible assumption | (with_reducible refine keeps_deleteTenant ?_ ..) | (refine keeps_deleteTenant_eq (by assumption) ?_) | (with_reducible refine keeps_putTenantDel ?_ ..))
    | split
    | (refine keeps_ite ?_ ?_))

theorem keeps_doTenantDelete_eq {s0 s tE : State} {bE : Option CmdEnd} {t : Nat} {asker : Option Hdr} (hEq : State.doTenantDelete s t asker = (tE, bE)) (hK : Keeps s0 s) : Keeps s0 tE := by
  have k : Keeps s0 (State.doTenantDelete s t asker).1 := keeps_doTenantDelete hK
  rw [hEq] at k
  exact k

/-- An end that comes at once keeps what the command kept. -/
theorem keeps_atOnce {s0 : State} {x : State × CmdEnd} (h : Keeps s0 x.1) : Keeps s0 (atOnce x).1 := h

theorem keeps_doLdAttach {s0 s : State} {a0 : Word} (hK : Keeps s0 s) :
    Keeps s0 (State.doLdAttach s a0).1 := by
  unfold State.doLdAttach
  repeat' (first
    | (with_reducible assumption)
    | (intro x; first | ((have hx : Keeps s0 x := ?_); (try clear_value x); rotate_left; dsimp -zeta only [x]; rotate_right) | ((have hx : Keeps s0 x.1 := ?_); (try clear_value x); rotate_left; dsimp -zeta only [x]; rotate_right) | ((have hx : Keeps s0 x.2 := ?_); (try clear_value x); rotate_left; dsimp -zeta only [x]; rotate_right) | (clear_value x) | skip)
    | lift_lets -underBinder
    | (with_reducible refine keeps_setF ?_ ..)
    | (with_reducible refine keeps_put ?_ ..)
    | (with_reducible refine keeps_ite ?_ ?_)
    | (fail_if_no_progress beta_reduce)
    | (dsimp only [Keeps, part]; with_reducible refine keeps_of ?_; first | with_reducible assumption | (with_reducible refine keeps_setF ?_ ..) | (with_reducible refine keeps_put ?_ ..))
    | split
    | (refine keeps_ite ?_ ?_))

theorem keeps_doLdAttach_eq {s0 s tE : State} {bE : CmdEnd} {a0 : Word} (hEq : State.doLdAttach s a0 = (tE, bE)) (hK : Keeps s0 s) : Keeps s0 tE := by
  have k : Keeps s0 (State.doLdAttach s a0).1 := keeps_doLdAttach hK
  rw [hEq] at k
  exact k

theorem keeps_doReadEntry {s0 s : State} {b : Nat} {asker : Option Hdr} (hK : Keeps s0 s) :
    Keeps s0 (State.doReadEntry s b asker).1 := by
  unfold State.doReadEntry
  repeat' (first
    | (with_reducible assumption)
    | (intro x; first | ((have hx : Keeps s0 x := ?_); (try clear_value x); rotate_left; dsimp -zeta only [x]; rotate_right) | ((have hx : Keeps s0 x.1 := ?_); (try clear_value x); rotate_left; dsimp -zeta only [x]; rotate_right) | ((have hx : Keeps s0 x.2 := ?_); (try clear_value x); rotate_left; dsimp -zeta only [x]; rotate_right) | (clear_value x) | skip)
    | lift_lets -underBinder
    | (with_reducible refine keeps_checkEntry ?_ ..)
    | (with_reducible refine keeps_ite ?_ ?_)
    | (fail_if_no_progress beta_reduce)
    | (dsimp only [Keeps, part]; with_reducible refine keeps_of ?_; first | with_reducible assumption | (with_reducible refine keeps_checkEntry ?_ ..))
    | split
    | (refine keeps_ite ?_ ?_))

theorem keeps_doReadEntry_eq {s0 s tE : State} {bE : Option CmdEnd} {b : Nat} {asker : Option Hdr} (hEq : State.doReadEntry s b asker = (tE, bE)) (hK : Keeps s0 s) : Keeps s0 tE := by
  have k : Keeps s0 (State.doReadEntry s b asker).1 := keeps_doReadEntry hK
  rw [hEq] at k
  exact k

theorem keeps_doBl {s0 s : State} {op : Nat} {a0 : Word} {a1 : Word} {a2 : Word} {asker : Option Hdr} (hK : Keeps s0 s) :
    Keeps s0 (State.doBl s op a0 a1 a2 asker).1 := by
  unfold State.doBl
  repeat' (first
    | (with_reducible assumption)
    | (intro x; first | ((have hx : Keeps s0 x := ?_); (try clear_value x); rotate_left; dsimp -zeta only [x]; rotate_right) | ((have hx : Keeps s0 x.1 := ?_); (try clear_value x); rotate_left; dsimp -zeta only [x]; rotate_right) | ((have hx : Keeps s0 x.2 := ?_); (try clear_value x); rotate_left; dsimp -zeta only [x]; rotate_right) | (clear_value x) | skip)
    | lift_lets -underBinder
    | (with_reducible refine keeps_atOnce ?_)
    | (with_reducible refine keeps_doBind ?_ ..)
    | (refine keeps_doBind_eq (by assumption) ?_)
    | (with_reducible refine keeps_doUnbind ?_ ..)
    | (refine keeps_doUnbind_eq (by assumption) ?_)
    | (with_reducible refine keeps_doModify ?_ ..)
    | (refine keeps_doModify_eq (by assumption) ?_)
    | (with_reducible refine keeps_doTenantCreate ?_ ..)
    | (refine keeps_doTenantCreate_eq (by assumption) ?_)
    | (with_reducible refine keeps_doTenantDelete ?_ ..)
    | (refine keeps_doTenantDelete_eq (by assumption) ?_)
    | (with_reducible refine keeps_doLdAttach ?_ ..)
    | (refine keeps_doLdAttach_eq (by assumption) ?_)
    | (with_reducible refine keeps_doReadEntry ?_ ..)
    | (refine keeps_doReadEntry_eq (by assumption) ?_)
    | (with_reducible refine keeps_ite ?_ ?_)
    | (fail_if_no_progress beta_reduce)
    | (dsimp only [Keeps, part]; with_reducible refine keeps_of ?_; first | with_reducible assumption | (with_reducible refine keeps_atOnce ?_) | (with_reducible refine keeps_doBind ?_ ..) | (refine keeps_doBind_eq (by assumption) ?_) | (with_reducible refine keeps_doUnbind ?_ ..) | (refine keeps_doUnbind_eq (by assumption) ?_) | (with_reducible refine keeps_doModify ?_ ..) | (refine keeps_doModify_eq (by assumption) ?_) | (with_reducible refine keeps_doTenantCreate ?_ ..) | (refine keeps_doTenantCreate_eq (by assumption) ?_) | (with_reducible refine keeps_doTenantDelete ?_ ..) | (refine keeps_doTenantDelete_eq (by assumption) ?_) | (with_reducible refine keeps_doLdAttach ?_ ..) | (refine keeps_doLdAttach_eq (by assumption) ?_) | (with_reducible refine keeps_doReadEntry ?_ ..) | (refine keeps_doReadEntry_eq (by assumption) ?_))
    | split
    | (refine keeps_ite ?_ ?_))

theorem keeps_doBl_eq {s0 s tE : State} {bE : Option CmdEnd} {op : Nat} {a0 : Word} {a1 : Word} {a2 : Word} {asker : Option Hdr} (hEq : State.doBl s op a0 a1 a2 asker = (tE, bE)) (hK : Keeps s0 s) : Keeps s0 tE := by
  have k : Keeps s0 (State.doBl s op a0 a1 a2 asker).1 := keeps_doBl hK
  rw [hEq] at k
  exact k

theorem keeps_endBl {s0 s : State} {op : Nat} {e : CmdEnd} (hK : Keeps s0 s) :
    Keeps s0 (State.endBl s op e) := by
  unfold State.endBl
  repeat' (first
    | (with_reducible assumption)
    | (intro x; first | ((have hx : Keeps s0 x := ?_); (try clear_value x); rotate_left; dsimp -zeta only [x]; rotate_right) | ((have hx : Keeps s0 x.1 := ?_); (try clear_value x); rotate_left; dsimp -zeta only [x]; rotate_right) | ((have hx : Keeps s0 x.2 := ?_); (try clear_value x); rotate_left; dsimp -zeta only [x]; rotate_right) | (clear_value x) | skip)
    | lift_lets -underBinder
    | (with_reducible refine keeps_setReg ?_ ..)
    | (with_reducible refine keeps_put ?_ ..)
    | (with_reducible refine keeps_getD ?_ ?_)
    | (with_reducible refine keeps_ite ?_ ?_)
    | (fail_if_no_progress beta_reduce)
    | (dsimp only [Keeps, part]; with_reducible refine keeps_of ?_; first | with_reducible assumption | (with_reducible refine keeps_setReg ?_ ..) | (with_reducible refine keeps_put ?_ ..))
    | split
    | (refine keeps_ite ?_ ?_))

theorem keeps_carryBl {s0 s : State} {cmd : BlBusy} {d : Nat} (hK : Keeps s0 s) :
    Keeps s0 (State.carryBl s cmd d) := by
  unfold State.carryBl
  repeat' (first
    | (with_reducible assumption)
    | (intro x; first | ((have hx : Keeps s0 x := ?_); (try clear_value x); rotate_left; dsimp -zeta only [x]; rotate_right) | ((have hx : Keeps s0 x.1 := ?_); (try clear_value x); rotate_left; dsimp -zeta only [x]; rotate_right) | ((have hx : Keeps s0 x.2 := ?_); (try clear_value x); rotate_left; dsimp -zeta only [x]; rotate_right) | (clear_value x) | skip)
    | lift_lets -underBinder
    | (with_reducible refine keeps_newTag ?_ ..)
    | (refine keeps_newTag_eq (by assumption) ?_)
    | (with_reducible refine keeps_send ?_ ..)
    | (with_reducible refine keeps_ite ?_ ?_)
    | (fail_if_no_progress beta_reduce)
    | (dsimp only [Keeps, part]; with_reducible refine keeps_of ?_; first | with_reducible assumption | (with_reducible refine keeps_newTag ?_ ..) | (refine keeps_newTag_eq (by assumption) ?_) | (with_reducible refine keeps_send ?_ ..))
    | split
    | (refine keeps_ite ?_ ?_))

theorem keeps_runBl {s0 s : State} {cmd : BlBusy} (hK : Keeps s0 s) :
    Keeps s0 (State.runBl s cmd) := by
  unfold State.runBl
  repeat' (first
    | (with_reducible assumption)
    | (intro x; first | ((have hx : Keeps s0 x := ?_); (try clear_value x); rotate_left; dsimp -zeta only [x]; rotate_right) | ((have hx : Keeps s0 x.1 := ?_); (try clear_value x); rotate_left; dsimp -zeta only [x]; rotate_right) | ((have hx : Keeps s0 x.2 := ?_); (try clear_value x); rotate_left; dsimp -zeta only [x]; rotate_right) | (clear_value x) | skip)
    | lift_lets -underBinder
    | (with_reducible refine keeps_settle ?_ ..)
    | (with_reducible refine keeps_doBl ?_ ..)
    | (refine keeps_doBl_eq (by assumption) ?_)
    | (with_reducible refine keeps_endBl ?_ ..)
    | (with_reducible refine keeps_carryBl ?_ ..)
    | (with_reducible refine keeps_ite ?_ ?_)
    | (fail_if_no_progress beta_reduce)
    | (dsimp only [Keeps, part]; with_reducible refine keeps_of ?_; first | with_reducible assumption | (with_reducible refine keeps_settle ?_ ..) | (with_reducible refine keeps_doBl ?_ ..) | (refine keeps_doBl_eq (by assumption) ?_) | (with_reducible refine keeps_endBl ?_ ..) | (with_reducible refine keeps_carryBl ?_ ..))
    | split
    | (refine keeps_ite ?_ ?_))

theorem keeps_startBl {s0 s : State} {op : Nat} {a0 : Word} {a1 : Word} {a2 : Word} (hK : Keeps s0 s) :
    Keeps s0 (State.startBl s op a0 a1 a2) := by
  unfold State.startBl
  repeat' (first
    | (with_reducible assumption)
    | (intro x; first | ((have hx : Keeps s0 x := ?_); (try clear_value x); rotate_left; dsimp -zeta only [x]; rotate_right) | ((have hx : Keeps s0 x.1 := ?_); (try clear_value x); rotate_left; dsimp -zeta only [x]; rotate_right) | ((have hx : Keeps s0 x.2 := ?_); (try clear_value x); rotate_left; dsimp -zeta only [x]; rotate_right) | (clear_value x) | skip)
    | lift_lets -underBinder
    | (with_reducible refine keeps_put ?_ ..)
    | (with_reducible refine keeps_raise ?_ ..)
    | (with_reducible refine keeps_endBl ?_ ..)
    | (with_reducible refine keeps_runBl ?_ ..)
    | (with_reducible refine keeps_ite ?_ ?_)
    | (fail_if_no_progress beta_reduce)
    | (dsimp only [Keeps, part]; with_reducible refine keeps_of ?_; first | with_reducible assumption | (with_reducible refine keeps_put ?_ ..) | (with_reducible refine keeps_raise ?_ ..) | (with_reducible refine keeps_endBl ?_ ..) | (with_reducible refine keeps_runBl ?_ ..))
    | split
    | (refine keeps_ite ?_ ?_))

theorem keeps_blCommand {s0 s : State} {via : Via} {op : Nat} {args : List (Reg × Word)} (hK : Keeps s0 s) :
    Keeps s0 (State.blCommand s via op args) := by
  unfold State.blCommand
  repeat' (first
    | (with_reducible assumption)
    | (intro x; first | ((have hx : Keeps s0 x := ?_); (try clear_value x); rotate_left; dsimp -zeta only [x]; rotate_right) | ((have hx : Keeps s0 x.1 := ?_); (try clear_value x); rotate_left; dsimp -zeta only [x]; rotate_right) | ((have hx : Keeps s0 x.2 := ?_); (try clear_value x); rotate_left; dsimp -zeta only [x]; rotate_right) | (clear_value x) | skip)
    | lift_lets -underBinder
    | (with_reducible refine keeps_command ?_ ?_ ..)
    | (with_reducible refine keeps_startBl ?_ ..)
    | (with_reducible refine keeps_ite ?_ ?_)
    | (fail_if_no_progress beta_reduce)
    | (dsimp only [Keeps, part]; with_reducible refine keeps_of ?_; first | with_reducible assumption | (with_reducible refine keeps_command ?_ ?_ ..) | (with_reducible refine keeps_startBl ?_ ..))
    | split
    | (refine keeps_ite ?_ ?_))

theorem keeps_execBind {s0 s : State} {via : Via} {a0 : Word} {a1 : Word} {a2 : Word} {at_ : Nat} (hK : Keeps s0 s) :
    XKeeps s0 (execBind via a0 a1 a2 at_ s) := by
  unfold execBind
  repeat' (first
    | (with_reducible assumption)
    | (intro x; first | ((have hx : Keeps s0 x := ?_); (try clear_value x); rotate_left; dsimp -zeta only [x]; rotate_right) | ((have hx : Keeps s0 x.1 := ?_); (try clear_value x); rotate_left; dsimp -zeta only [x]; rotate_right) | ((have hx : Keeps s0 x.2 := ?_); (try clear_value x); rotate_left; dsimp -zeta only [x]; rotate_right) | (clear_value x) | skip)
    | lift_lets -underBinder
    | (with_reducible refine keeps_tick ?_ ..)
    | (with_reducible refine keeps_blCommand ?_ ..)
    | (with_reducible refine keeps_ite ?_ ?_)
    | (with_reducible refine xkeeps_next ?_)
    | (fail_if_no_progress beta_reduce)
    | (dsimp only [Keeps, part]; with_reducible refine keeps_of ?_; first | with_reducible assumption | (with_reducible refine keeps_tick ?_ ..) | (with_reducible refine keeps_blCommand ?_ ..))
    | split
    | (refine keeps_ite ?_ ?_))

theorem keeps_execUnbind {s0 s : State} {via : Via} {a0 : Word} {at_ : Nat} (hK : Keeps s0 s) :
    XKeeps s0 (execUnbind via a0 at_ s) := by
  unfold execUnbind
  repeat' (first
    | (with_reducible assumption)
    | (intro x; first | ((have hx : Keeps s0 x := ?_); (try clear_value x); rotate_left; dsimp -zeta only [x]; rotate_right) | ((have hx : Keeps s0 x.1 := ?_); (try clear_value x); rotate_left; dsimp -zeta only [x]; rotate_right) | ((have hx : Keeps s0 x.2 := ?_); (try clear_value x); rotate_left; dsimp -zeta only [x]; rotate_right) | (clear_value x) | skip)
    | lift_lets -underBinder
    | (with_reducible refine keeps_tick ?_ ..)
    | (with_reducible refine keeps_blCommand ?_ ..)
    | (with_reducible refine keeps_ite ?_ ?_)
    | (with_reducible refine xkeeps_next ?_)
    | (fail_if_no_progress beta_reduce)
    | (dsimp only [Keeps, part]; with_reducible refine keeps_of ?_; first | with_reducible assumption | (with_reducible refine keeps_tick ?_ ..) | (with_reducible refine keeps_blCommand ?_ ..))
    | split
    | (refine keeps_ite ?_ ?_))

theorem keeps_execModify {s0 s : State} {via : Via} {a0 : Word} {a1 : Word} {a2 : Word} {at_ : Nat} (hK : Keeps s0 s) :
    XKeeps s0 (execModify via a0 a1 a2 at_ s) := by
  unfold execModify
  repeat' (first
    | (with_reducible assumption)
    | (intro x; first | ((have hx : Keeps s0 x := ?_); (try clear_value x); rotate_left; dsimp -zeta only [x]; rotate_right) | ((have hx : Keeps s0 x.1 := ?_); (try clear_value x); rotate_left; dsimp -zeta only [x]; rotate_right) | ((have hx : Keeps s0 x.2 := ?_); (try clear_value x); rotate_left; dsimp -zeta only [x]; rotate_right) | (clear_value x) | skip)
    | lift_lets -underBinder
    | (with_reducible refine keeps_tick ?_ ..)
    | (with_reducible refine keeps_blCommand ?_ ..)
    | (with_reducible refine keeps_ite ?_ ?_)
    | (with_reducible refine xkeeps_next ?_)
    | (fail_if_no_progress beta_reduce)
    | (dsimp only [Keeps, part]; with_reducible refine keeps_of ?_; first | with_reducible assumption | (with_reducible refine keeps_tick ?_ ..) | (with_reducible refine keeps_blCommand ?_ ..))
    | split
    | (refine keeps_ite ?_ ?_))

theorem keeps_execBlReadEntry {s0 s : State} {via : Via} {a0 : Word} {at_ : Nat} (hK : Keeps s0 s) :
    XKeeps s0 (execBlReadEntry via a0 at_ s) := by
  unfold execBlReadEntry
  repeat' (first
    | (with_reducible assumption)
    | (intro x; first | ((have hx : Keeps s0 x := ?_); (try clear_value x); rotate_left; dsimp -zeta only [x]; rotate_right) | ((have hx : Keeps s0 x.1 := ?_); (try clear_value x); rotate_left; dsimp -zeta only [x]; rotate_right) | ((have hx : Keeps s0 x.2 := ?_); (try clear_value x); rotate_left; dsimp -zeta only [x]; rotate_right) | (clear_value x) | skip)
    | lift_lets -underBinder
    | (with_reducible refine keeps_tick ?_ ..)
    | (with_reducible refine keeps_blCommand ?_ ..)
    | (with_reducible refine keeps_ite ?_ ?_)
    | (with_reducible refine xkeeps_next ?_)
    | (fail_if_no_progress beta_reduce)
    | (dsimp only [Keeps, part]; with_reducible refine keeps_of ?_; first | with_reducible assumption | (with_reducible refine keeps_tick ?_ ..) | (with_reducible refine keeps_blCommand ?_ ..))
    | split
    | (refine keeps_ite ?_ ?_))

theorem keeps_execTenantCreate {s0 s : State} {via : Via} {at_ : Nat} (hK : Keeps s0 s) :
    XKeeps s0 (execTenantCreate via at_ s) := by
  unfold execTenantCreate
  repeat' (first
    | (with_reducible assumption)
    | (intro x; first | ((have hx : Keeps s0 x := ?_); (try clear_value x); rotate_left; dsimp -zeta only [x]; rotate_right) | ((have hx : Keeps s0 x.1 := ?_); (try clear_value x); rotate_left; dsimp -zeta only [x]; rotate_right) | ((have hx : Keeps s0 x.2 := ?_); (try clear_value x); rotate_left; dsimp -zeta only [x]; rotate_right) | (clear_value x) | skip)
    | lift_lets -underBinder
    | (with_reducible refine keeps_tick ?_ ..)
    | (with_reducible refine keeps_blCommand ?_ ..)
    | (with_reducible refine keeps_ite ?_ ?_)
    | (with_reducible refine xkeeps_next ?_)
    | (fail_if_no_progress beta_reduce)
    | (dsimp only [Keeps, part]; with_reducible refine keeps_of ?_; first | with_reducible assumption | (with_reducible refine keeps_tick ?_ ..) | (with_reducible refine keeps_blCommand ?_ ..))
    | split
    | (refine keeps_ite ?_ ?_))

theorem keeps_execTenantDelete {s0 s : State} {via : Via} {a0 : Word} {at_ : Nat} (hK : Keeps s0 s) :
    XKeeps s0 (execTenantDelete via a0 at_ s) := by
  unfold execTenantDelete
  repeat' (first
    | (with_reducible assumption)
    | (intro x; first | ((have hx : Keeps s0 x := ?_); (try clear_value x); rotate_left; dsimp -zeta only [x]; rotate_right) | ((have hx : Keeps s0 x.1 := ?_); (try clear_value x); rotate_left; dsimp -zeta only [x]; rotate_right) | ((have hx : Keeps s0 x.2 := ?_); (try clear_value x); rotate_left; dsimp -zeta only [x]; rotate_right) | (clear_value x) | skip)
    | lift_lets -underBinder
    | (with_reducible refine keeps_tick ?_ ..)
    | (with_reducible refine keeps_blCommand ?_ ..)
    | (with_reducible refine keeps_ite ?_ ?_)
    | (with_reducible refine xkeeps_next ?_)
    | (fail_if_no_progress beta_reduce)
    | (dsimp only [Keeps, part]; with_reducible refine keeps_of ?_; first | with_reducible assumption | (with_reducible refine keeps_tick ?_ ..) | (with_reducible refine keeps_blCommand ?_ ..))
    | split
    | (refine keeps_ite ?_ ?_))

theorem keeps_execLdAttach {s0 s : State} {via : Via} {a0 : Word} {at_ : Nat} (hK : Keeps s0 s) :
    XKeeps s0 (execLdAttach via a0 at_ s) := by
  unfold execLdAttach
  repeat' (first
    | (with_reducible assumption)
    | (intro x; first | ((have hx : Keeps s0 x := ?_); (try clear_value x); rotate_left; dsimp -zeta only [x]; rotate_right) | ((have hx : Keeps s0 x.1 := ?_); (try clear_value x); rotate_left; dsimp -zeta only [x]; rotate_right) | ((have hx : Keeps s0 x.2 := ?_); (try clear_value x); rotate_left; dsimp -zeta only [x]; rotate_right) | (clear_value x) | skip)
    | lift_lets -underBinder
    | (with_reducible refine keeps_tick ?_ ..)
    | (with_reducible refine keeps_blCommand ?_ ..)
    | (with_reducible refine keeps_ite ?_ ?_)
    | (with_reducible refine xkeeps_next ?_)
    | (fail_if_no_progress beta_reduce)
    | (dsimp only [Keeps, part]; with_reducible refine keeps_of ?_; first | with_reducible assumption | (with_reducible refine keeps_tick ?_ ..) | (with_reducible refine keeps_blCommand ?_ ..))
    | split
    | (refine keeps_ite ?_ ?_))

theorem keeps_execBlCmdTimeout {s0 s : State} {at_ : Nat} (hK : Keeps s0 s) :
    XKeeps s0 (execBlCmdTimeout at_ s) := by
  unfold execBlCmdTimeout
  repeat' (first
    | (with_reducible assumption)
    | (intro x; first | ((have hx : Keeps s0 x := ?_); (try clear_value x); rotate_left; dsimp -zeta only [x]; rotate_right) | ((have hx : Keeps s0 x.1 := ?_); (try clear_value x); rotate_left; dsimp -zeta only [x]; rotate_right) | ((have hx : Keeps s0 x.2 := ?_); (try clear_value x); rotate_left; dsimp -zeta only [x]; rotate_right) | (clear_value x) | skip)
    | lift_lets -underBinder
    | (with_reducible refine keeps_tick ?_ ..)
    | (with_reducible refine keeps_endBl ?_ ..)
    | (with_reducible refine keeps_ite ?_ ?_)
    | (with_reducible refine xkeeps_next ?_)
    | (fail_if_no_progress beta_reduce)
    | (dsimp only [Keeps, part]; with_reducible refine keeps_of ?_; first | with_reducible assumption | (with_reducible refine keeps_tick ?_ ..) | (with_reducible refine keeps_endBl ?_ ..))
    | split
    | (refine keeps_ite ?_ ?_))

theorem keeps_execHdmCommit {s0 s : State} {port : Nat} {ld : Nat} {d : Hdm} {at_ : Nat} (hK : Keeps s0 s) :
    XKeeps s0 (execHdmCommit port ld d at_ s) := by
  unfold execHdmCommit
  repeat' (first
    | (with_reducible assumption)
    | (intro x; first | ((have hx : Keeps s0 x := ?_); (try clear_value x); rotate_left; dsimp -zeta only [x]; rotate_right) | ((have hx : Keeps s0 x.1 := ?_); (try clear_value x); rotate_left; dsimp -zeta only [x]; rotate_right) | ((have hx : Keeps s0 x.2 := ?_); (try clear_value x); rotate_left; dsimp -zeta only [x]; rotate_right) | (clear_value x) | skip)
    | lift_lets -underBinder
    | (with_reducible refine keeps_emit ?_ ..)
    | (with_reducible refine keeps_setF ?_ ..)
    | (with_reducible refine keeps_tick ?_ ..)
    | (with_reducible refine keeps_put ?_ ..)
    | (with_reducible refine keeps_ite ?_ ?_)
    | (with_reducible refine xkeeps_next ?_)
    | (fail_if_no_progress beta_reduce)
    | (dsimp only [Keeps, part]; with_reducible refine keeps_of ?_; first | with_reducible assumption | (with_reducible refine keeps_emit ?_ ..) | (with_reducible refine keeps_setF ?_ ..) | (with_reducible refine keeps_tick ?_ ..) | (with_reducible refine keeps_put ?_ ..))
    | split
    | (refine keeps_ite ?_ ?_))

end Sys2Proof.Laws
end

