-- ==== Sys2Proof/Laws/KeepsTwin.lean ====
section
/-! SUPPORT. Every operation of Machine/Twin.lean keeps what Laws/Keeps.lean says. -/

set_option linter.unusedTactic false
set_option linter.unreachableTactic false
set_option linter.unusedVariables false

namespace Sys2Proof.Laws

open Sys2Proof Machine

theorem keeps_leavePaired {s0 s : State} (hK : Keeps s0 s) :
    Keeps s0 (State.leavePaired s) := by
  unfold State.leavePaired
  repeat' (first
    | (with_reducible assumption)
    | (intro x; first | ((have hx : Keeps s0 x := ?_); (try clear_value x); rotate_left; dsimp -zeta only [x]; rotate_right) | ((have hx : Keeps s0 x.1 := ?_); (try clear_value x); rotate_left; dsimp -zeta only [x]; rotate_right) | ((have hx : Keeps s0 x.2 := ?_); (try clear_value x); rotate_left; dsimp -zeta only [x]; rotate_right) | (clear_value x) | skip)
    | lift_lets -underBinder
    | (with_reducible refine keeps_setReg ?_ ..)
    | (with_reducible refine keeps_raise ?_ ..)
    | (with_reducible refine keeps_startSpanWrite ?_ ..)
    | (with_reducible refine keeps_putReq ?_ ..)
    | (with_reducible refine keeps_foldl (fun s x hK => ?_) ?_)
    | (with_reducible refine keeps_foldl_fst (fun s x hK => ?_) ?_)
    | (refine keeps_foldl_eq (by assumption) (fun s x hK => ?_) ?_)
    | (with_reducible refine keeps_ite ?_ ?_)
    | (fail_if_no_progress beta_reduce)
    | (dsimp only [Keeps, part]; with_reducible refine keeps_of ?_; first | with_reducible assumption | (with_reducible refine keeps_setReg ?_ ..) | (with_reducible refine keeps_raise ?_ ..) | (with_reducible refine keeps_startSpanWrite ?_ ..) | (with_reducible refine keeps_putReq ?_ ..) | (refine keeps_foldl_eq (by assumption) (fun s x hK => ?_) ?_))
    | split
    | (refine keeps_ite ?_ ?_))

theorem keeps_setSt {s0 s : State} {p : PairState} (hK : Keeps s0 s) :
    Keeps s0 (State.setSt s p) := by
  unfold State.setSt
  repeat' (first
    | (with_reducible assumption)
    | (intro x; first | ((have hx : Keeps s0 x := ?_); (try clear_value x); rotate_left; dsimp -zeta only [x]; rotate_right) | ((have hx : Keeps s0 x.1 := ?_); (try clear_value x); rotate_left; dsimp -zeta only [x]; rotate_right) | ((have hx : Keeps s0 x.2 := ?_); (try clear_value x); rotate_left; dsimp -zeta only [x]; rotate_right) | (clear_value x) | skip)
    | lift_lets -underBinder
    | (with_reducible refine keeps_leavePaired ?_ ..)
    | (with_reducible refine keeps_ite ?_ ?_)
    | (fail_if_no_progress beta_reduce)
    | (dsimp only [Keeps, part]; with_reducible refine keeps_of ?_; first | with_reducible assumption | (with_reducible refine keeps_leavePaired ?_ ..))
    | split
    | (refine keeps_ite ?_ ?_))

theorem keeps_enterPaired {s0 s : State} {rejoined : Bool} (hK : Keeps s0 s) :
    Keeps s0 (State.enterPaired s rejoined) := by
  unfold State.enterPaired
  repeat' (first
    | (with_reducible assumption)
    | (intro x; first | ((have hx : Keeps s0 x := ?_); (try clear_value x); rotate_left; dsimp -zeta only [x]; rotate_right) | ((have hx : Keeps s0 x.1 := ?_); (try clear_value x); rotate_left; dsimp -zeta only [x]; rotate_right) | ((have hx : Keeps s0 x.2 := ?_); (try clear_value x); rotate_left; dsimp -zeta only [x]; rotate_right) | (clear_value x) | skip)
    | lift_lets -underBinder
    | (with_reducible refine keeps_raise ?_ ..)
    | (with_reducible refine keeps_health ?_ ..)
    | (with_reducible refine keeps_retryHeld ?_ ..)
    | (with_reducible refine keeps_startFill ?_ ..)
    | (with_reducible refine keeps_setSt ?_ ..)
    | (with_reducible refine keeps_foldl (fun s x hK => ?_) ?_)
    | (with_reducible refine keeps_foldl_fst (fun s x hK => ?_) ?_)
    | (refine keeps_foldl_eq (by assumption) (fun s x hK => ?_) ?_)
    | (with_reducible refine keeps_ite ?_ ?_)
    | (fail_if_no_progress beta_reduce)
    | (dsimp only [Keeps, part]; with_reducible refine keeps_of ?_; first | with_reducible assumption | (with_reducible refine keeps_raise ?_ ..) | (with_reducible refine keeps_health ?_ ..) | (with_reducible refine keeps_retryHeld ?_ ..) | (with_reducible refine keeps_startFill ?_ ..) | (with_reducible refine keeps_setSt ?_ ..) | (refine keeps_foldl_eq (by assumption) (fun s x hK => ?_) ?_))
    | split
    | (refine keeps_ite ?_ ?_))

theorem keeps_sendMap {s0 s : State} {k : MapKind} {status : Nat} {l : List Nat} (hK : Keeps s0 s) :
    Keeps s0 (State.sendMap s k status l) := by
  unfold State.sendMap
  repeat' (first
    | (with_reducible assumption)
    | (intro x; first | ((have hx : Keeps s0 x := ?_); (try clear_value x); rotate_left; dsimp -zeta only [x]; rotate_right) | ((have hx : Keeps s0 x.1 := ?_); (try clear_value x); rotate_left; dsimp -zeta only [x]; rotate_right) | ((have hx : Keeps s0 x.2 := ?_); (try clear_value x); rotate_left; dsimp -zeta only [x]; rotate_right) | (clear_value x) | skip)
    | lift_lets -underBinder
    | (with_reducible refine keeps_send ?_ ..)
    | (with_reducible refine keeps_ite ?_ ?_)
    | (fail_if_no_progress beta_reduce)
    | (dsimp only [Keeps, part]; with_reducible refine keeps_of ?_; first | with_reducible assumption | (with_reducible refine keeps_send ?_ ..))
    | split
    | (refine keeps_ite ?_ ?_))

theorem keeps_enterRejoining {s0 s : State} (hK : Keeps s0 s) :
    Keeps s0 (State.enterRejoining s) := by
  unfold State.enterRejoining
  repeat' (first
    | (with_reducible assumption)
    | (intro x; first | ((have hx : Keeps s0 x := ?_); (try clear_value x); rotate_left; dsimp -zeta only [x]; rotate_right) | ((have hx : Keeps s0 x.1 := ?_); (try clear_value x); rotate_left; dsimp -zeta only [x]; rotate_right) | ((have hx : Keeps s0 x.2 := ?_); (try clear_value x); rotate_left; dsimp -zeta only [x]; rotate_right) | (clear_value x) | skip)
    | lift_lets -underBinder
    | (with_reducible refine keeps_raise ?_ ..)
    | (with_reducible refine keeps_send ?_ ..)
    | (with_reducible refine keeps_setSt ?_ ..)
    | (with_reducible refine keeps_sendMap ?_ ..)
    | (with_reducible refine keeps_foldl (fun s x hK => ?_) ?_)
    | (with_reducible refine keeps_foldl_fst (fun s x hK => ?_) ?_)
    | (refine keeps_foldl_eq (by assumption) (fun s x hK => ?_) ?_)
    | (with_reducible refine keeps_ite ?_ ?_)
    | (fail_if_no_progress beta_reduce)
    | (dsimp only [Keeps, part]; with_reducible refine keeps_of ?_; first | with_reducible assumption | (with_reducible refine keeps_raise ?_ ..) | (with_reducible refine keeps_send ?_ ..) | (with_reducible refine keeps_setSt ?_ ..) | (with_reducible refine keeps_sendMap ?_ ..) | (refine keeps_foldl_eq (by assumption) (fun s x hK => ?_) ?_))
    | split
    | (refine keeps_ite ?_ ?_))

theorem keeps_diverged {s0 s : State} (hK : Keeps s0 s) :
    Keeps s0 (State.diverged s) := by
  unfold State.diverged
  repeat' (first
    | (with_reducible assumption)
    | (intro x; first | ((have hx : Keeps s0 x := ?_); (try clear_value x); rotate_left; dsimp -zeta only [x]; rotate_right) | ((have hx : Keeps s0 x.1 := ?_); (try clear_value x); rotate_left; dsimp -zeta only [x]; rotate_right) | ((have hx : Keeps s0 x.2 := ?_); (try clear_value x); rotate_left; dsimp -zeta only [x]; rotate_right) | (clear_value x) | skip)
    | lift_lets -underBinder
    | (with_reducible refine keeps_raise ?_ ..)
    | (with_reducible refine keeps_spanLoss ?_ ..)
    | (with_reducible refine keeps_newLossCause ?_ ..)
    | (with_reducible refine keeps_foldl (fun s x hK => ?_) ?_)
    | (with_reducible refine keeps_foldl_fst (fun s x hK => ?_) ?_)
    | (refine keeps_foldl_eq (by assumption) (fun s x hK => ?_) ?_)
    | (with_reducible refine keeps_ite ?_ ?_)
    | (fail_if_no_progress beta_reduce)
    | (dsimp only [Keeps, part]; with_reducible refine keeps_of ?_; first | with_reducible assumption | (with_reducible refine keeps_raise ?_ ..) | (with_reducible refine keeps_spanLoss ?_ ..) | (with_reducible refine keeps_newLossCause ?_ ..) | (refine keeps_foldl_eq (by assumption) (fun s x hK => ?_) ?_))
    | split
    | (refine keeps_ite ?_ ?_))

theorem keeps_staleRejoin {s0 s : State} (hK : Keeps s0 s) :
    Keeps s0 (State.staleRejoin s) := by
  unfold State.staleRejoin
  repeat' (first
    | (with_reducible assumption)
    | (intro x; first | ((have hx : Keeps s0 x := ?_); (try clear_value x); rotate_left; dsimp -zeta only [x]; rotate_right) | ((have hx : Keeps s0 x.1 := ?_); (try clear_value x); rotate_left; dsimp -zeta only [x]; rotate_right) | ((have hx : Keeps s0 x.2 := ?_); (try clear_value x); rotate_left; dsimp -zeta only [x]; rotate_right) | (clear_value x) | skip)
    | lift_lets -underBinder
    | (with_reducible refine keeps_raise ?_ ..)
    | (with_reducible refine keeps_enterRejoining ?_ ..)
    | (with_reducible refine keeps_diverged ?_ ..)
    | (with_reducible refine keeps_ite ?_ ?_)
    | (fail_if_no_progress beta_reduce)
    | (dsimp only [Keeps, part]; with_reducible refine keeps_of ?_; first | with_reducible assumption | (with_reducible refine keeps_raise ?_ ..) | (with_reducible refine keeps_enterRejoining ?_ ..) | (with_reducible refine keeps_diverged ?_ ..))
    | split
    | (refine keeps_ite ?_ ?_))

theorem keeps_checkFed {s0 s : State} (hK : Keeps s0 s) :
    Keeps s0 (State.checkFed s) := by
  unfold State.checkFed
  repeat' (first
    | (with_reducible assumption)
    | (intro x; first | ((have hx : Keeps s0 x := ?_); (try clear_value x); rotate_left; dsimp -zeta only [x]; rotate_right) | ((have hx : Keeps s0 x.1 := ?_); (try clear_value x); rotate_left; dsimp -zeta only [x]; rotate_right) | ((have hx : Keeps s0 x.2 := ?_); (try clear_value x); rotate_left; dsimp -zeta only [x]; rotate_right) | (clear_value x) | skip)
    | lift_lets -underBinder
    | (with_reducible refine keeps_enterPaired ?_ ..)
    | (with_reducible refine keeps_ite ?_ ?_)
    | (fail_if_no_progress beta_reduce)
    | (dsimp only [Keeps, part]; with_reducible refine keeps_of ?_; first | with_reducible assumption | (with_reducible refine keeps_enterPaired ?_ ..))
    | split
    | (refine keeps_ite ?_ ?_))

theorem keeps_buildCopyList {s0 s : State} (hK : Keeps s0 s) :
    Keeps s0 (State.buildCopyList s) := by
  unfold State.buildCopyList
  repeat' (first
    | (with_reducible assumption)
    | (intro x; first | ((have hx : Keeps s0 x := ?_); (try clear_value x); rotate_left; dsimp -zeta only [x]; rotate_right) | ((have hx : Keeps s0 x.1 := ?_); (try clear_value x); rotate_left; dsimp -zeta only [x]; rotate_right) | ((have hx : Keeps s0 x.2 := ?_); (try clear_value x); rotate_left; dsimp -zeta only [x]; rotate_right) | ((have hx : ∀ t, Keeps s0 t → Keeps s0 (x t) := ?_); (try clear_value x); rotate_left; dsimp -zeta only [x]; intros; rotate_right) | ((have hx : ∀ t a, Keeps s0 t → Keeps s0 (x t a) := ?_); (try clear_value x); rotate_left; dsimp -zeta only [x]; intros; rotate_right) | ((have hx : ∀ a t, Keeps s0 t → Keeps s0 (x a t) := ?_); (try clear_value x); rotate_left; dsimp -zeta only [x]; intros; rotate_right) | ((have hx : ∀ t a b, Keeps s0 t → Keeps s0 (x t a b) := ?_); (try clear_value x); rotate_left; dsimp -zeta only [x]; intros; rotate_right) | ((have hx : ∀ a b t, Keeps s0 t → Keeps s0 (x a b t) := ?_); (try clear_value x); rotate_left; dsimp -zeta only [x]; intros; rotate_right) | ((have hx : ∀ a, Keeps s0 (x a) := ?_); (try clear_value x); rotate_left; dsimp -zeta only [x]; intros; rotate_right) | (have hf : ∀ a, x a = x a := fun _ => rfl) | (clear_value x) | skip)
    | lift_lets -underBinder
    | (with_reducible refine keeps_sendCopySpan ?_ ..)
    | (with_reducible refine keeps_sendMap ?_ ..)
    | (with_reducible refine keeps_checkFed ?_ ..)
    | (with_reducible refine keeps_foldl (fun s x hK => ?_) ?_)
    | (with_reducible refine keeps_foldl_fst (fun s x hK => ?_) ?_)
    | (refine keeps_foldl_eq (by assumption) (fun s x hK => ?_) ?_)
    | (with_reducible refine keeps_ite ?_ ?_)
    | (with_reducible apply_assumption)
    | (fail_if_no_progress beta_reduce)
    | (dsimp only [Keeps, part]; with_reducible refine keeps_of ?_; first | with_reducible assumption | (with_reducible refine keeps_sendCopySpan ?_ ..) | (with_reducible refine keeps_sendMap ?_ ..) | (with_reducible refine keeps_checkFed ?_ ..) | (refine keeps_foldl_eq (by assumption) (fun s x hK => ?_) ?_))
    | split
    | (refine keeps_ite ?_ ?_))

theorem keeps_enterFeeding {s0 s : State} (hK : Keeps s0 s) :
    Keeps s0 (State.enterFeeding s) := by
  unfold State.enterFeeding
  repeat' (first
    | (with_reducible assumption)
    | (intro x; first | ((have hx : Keeps s0 x := ?_); (try clear_value x); rotate_left; dsimp -zeta only [x]; rotate_right) | ((have hx : Keeps s0 x.1 := ?_); (try clear_value x); rotate_left; dsimp -zeta only [x]; rotate_right) | ((have hx : Keeps s0 x.2 := ?_); (try clear_value x); rotate_left; dsimp -zeta only [x]; rotate_right) | (clear_value x) | skip)
    | lift_lets -underBinder
    | (with_reducible refine keeps_raise ?_ ..)
    | (with_reducible refine keeps_setSt ?_ ..)
    | (with_reducible refine keeps_buildCopyList ?_ ..)
    | (with_reducible refine keeps_ite ?_ ?_)
    | (fail_if_no_progress beta_reduce)
    | (dsimp only [Keeps, part]; with_reducible refine keeps_of ?_; first | with_reducible assumption | (with_reducible refine keeps_raise ?_ ..) | (with_reducible refine keeps_setSt ?_ ..) | (with_reducible refine keeps_buildCopyList ?_ ..))
    | split
    | (refine keeps_ite ?_ ?_))

theorem keeps_enterTaking {s0 s : State} {trigger : Nat} (hK : Keeps s0 s) :
    Keeps s0 (State.enterTaking s trigger) := by
  unfold State.enterTaking
  repeat' (first
    | (with_reducible assumption)
    | (intro x; first | ((have hx : Keeps s0 x := ?_); (try clear_value x); rotate_left; dsimp -zeta only [x]; rotate_right) | ((have hx : Keeps s0 x.1 := ?_); (try clear_value x); rotate_left; dsimp -zeta only [x]; rotate_right) | ((have hx : Keeps s0 x.2 := ?_); (try clear_value x); rotate_left; dsimp -zeta only [x]; rotate_right) | (clear_value x) | skip)
    | lift_lets -underBinder
    | (with_reducible refine keeps_setSt ?_ ..)
    | (with_reducible refine keeps_ite ?_ ?_)
    | (fail_if_no_progress beta_reduce)
    | (dsimp only [Keeps, part]; with_reducible refine keeps_of ?_; first | with_reducible assumption | (with_reducible refine keeps_setSt ?_ ..))
    | split
    | (refine keeps_ite ?_ ?_))

theorem keeps_enterWait {s0 s : State} {trigger : Nat} (hK : Keeps s0 s) :
    Keeps s0 (State.enterWait s trigger) := by
  unfold State.enterWait
  repeat' (first
    | (with_reducible assumption)
    | (intro x; first | ((have hx : Keeps s0 x := ?_); (try clear_value x); rotate_left; dsimp -zeta only [x]; rotate_right) | ((have hx : Keeps s0 x.1 := ?_); (try clear_value x); rotate_left; dsimp -zeta only [x]; rotate_right) | ((have hx : Keeps s0 x.2 := ?_); (try clear_value x); rotate_left; dsimp -zeta only [x]; rotate_right) | (clear_value x) | skip)
    | lift_lets -underBinder
    | (with_reducible refine keeps_setSt ?_ ..)
    | (with_reducible refine keeps_enterTaking ?_ ..)
    | (with_reducible refine keeps_ite ?_ ?_)
    | (fail_if_no_progress beta_reduce)
    | (dsimp only [Keeps, part]; with_reducible refine keeps_of ?_; first | with_reducible assumption | (with_reducible refine keeps_setSt ?_ ..) | (with_reducible refine keeps_enterTaking ?_ ..))
    | split
    | (refine keeps_ite ?_ ?_))

theorem keeps_enterIsolated {s0 s : State} {fromRejoin : Bool} (hK : Keeps s0 s) :
    Keeps s0 (State.enterIsolated s fromRejoin) := by
  unfold State.enterIsolated
  repeat' (first
    | (with_reducible assumption)
    | (intro x; first | ((have hx : Keeps s0 x := ?_); (try clear_value x); rotate_left; dsimp -zeta only [x]; rotate_right) | ((have hx : Keeps s0 x.1 := ?_); (try clear_value x); rotate_left; dsimp -zeta only [x]; rotate_right) | ((have hx : Keeps s0 x.2 := ?_); (try clear_value x); rotate_left; dsimp -zeta only [x]; rotate_right) | (clear_value x) | skip)
    | lift_lets -underBinder
    | (with_reducible refine keeps_setSt ?_ ..)
    | (with_reducible refine keeps_ite ?_ ?_)
    | (fail_if_no_progress beta_reduce)
    | (dsimp only [Keeps, part]; with_reducible refine keeps_of ?_; first | with_reducible assumption | (with_reducible refine keeps_setSt ?_ ..))
    | split
    | (refine keeps_ite ?_ ?_))

theorem keeps_backToSolo {s0 s : State} (hK : Keeps s0 s) :
    Keeps s0 (State.backToSolo s) := by
  unfold State.backToSolo
  repeat' (first
    | (with_reducible assumption)
    | (intro x; first | ((have hx : Keeps s0 x := ?_); (try clear_value x); rotate_left; dsimp -zeta only [x]; rotate_right) | ((have hx : Keeps s0 x.1 := ?_); (try clear_value x); rotate_left; dsimp -zeta only [x]; rotate_right) | ((have hx : Keeps s0 x.2 := ?_); (try clear_value x); rotate_left; dsimp -zeta only [x]; rotate_right) | (clear_value x) | skip)
    | lift_lets -underBinder
    | (with_reducible refine keeps_dropPeerParts ?_ ..)
    | (with_reducible refine keeps_dropRepairs ?_ ..)
    | (with_reducible refine keeps_setSt ?_ ..)
    | (with_reducible refine keeps_foldl (fun s x hK => ?_) ?_)
    | (with_reducible refine keeps_foldl_fst (fun s x hK => ?_) ?_)
    | (refine keeps_foldl_eq (by assumption) (fun s x hK => ?_) ?_)
    | (with_reducible refine keeps_ite ?_ ?_)
    | (fail_if_no_progress beta_reduce)
    | (dsimp only [Keeps, part]; with_reducible refine keeps_of ?_; first | with_reducible assumption | (with_reducible refine keeps_dropPeerParts ?_ ..) | (with_reducible refine keeps_dropRepairs ?_ ..) | (with_reducible refine keeps_setSt ?_ ..) | (refine keeps_foldl_eq (by assumption) (fun s x hK => ?_) ?_))
    | split
    | (refine keeps_ite ?_ ?_))

theorem keeps_checkTriggers {s0 s : State} (hK : Keeps s0 s) :
    Keeps s0 (State.checkTriggers s) := by
  unfold State.checkTriggers
  repeat' (first
    | (with_reducible assumption)
    | (intro x; first | ((have hx : Keeps s0 x := ?_); (try clear_value x); rotate_left; dsimp -zeta only [x]; rotate_right) | ((have hx : Keeps s0 x.1 := ?_); (try clear_value x); rotate_left; dsimp -zeta only [x]; rotate_right) | ((have hx : Keeps s0 x.2 := ?_); (try clear_value x); rotate_left; dsimp -zeta only [x]; rotate_right) | (clear_value x) | skip)
    | lift_lets -underBinder
    | (with_reducible refine keeps_raiseCls ?_ ..)
    | (with_reducible refine keeps_raise ?_ ..)
    | (with_reducible refine keeps_setSt ?_ ..)
    | (with_reducible refine keeps_enterWait ?_ ..)
    | (with_reducible refine keeps_enterIsolated ?_ ..)
    | (with_reducible refine keeps_backToSolo ?_ ..)
    | (with_reducible refine keeps_ite ?_ ?_)
    | (fail_if_no_progress beta_reduce)
    | (dsimp only [Keeps, part]; with_reducible refine keeps_of ?_; first | with_reducible assumption | (with_reducible refine keeps_raiseCls ?_ ..) | (with_reducible refine keeps_raise ?_ ..) | (with_reducible refine keeps_setSt ?_ ..) | (with_reducible refine keeps_enterWait ?_ ..) | (with_reducible refine keeps_enterIsolated ?_ ..) | (with_reducible refine keeps_backToSolo ?_ ..))
    | split
    | (refine keeps_ite ?_ ?_))

theorem keeps_sendEntries {s0 s : State} {dev : Nat} {sel : Nat → BoltEntry → Bool} (hK : Keeps s0 s) :
    Keeps s0 (State.sendEntries s dev sel) := by
  unfold State.sendEntries
  repeat' (first
    | (with_reducible assumption)
    | (intro x; first | ((have hx : Keeps s0 x := ?_); (try clear_value x); rotate_left; dsimp -zeta only [x]; rotate_right) | ((have hx : Keeps s0 x.1 := ?_); (try clear_value x); rotate_left; dsimp -zeta only [x]; rotate_right) | ((have hx : Keeps s0 x.2 := ?_); (try clear_value x); rotate_left; dsimp -zeta only [x]; rotate_right) | (clear_value x) | skip)
    | lift_lets -underBinder
    | (with_reducible refine keeps_send ?_ ..)
    | (with_reducible refine keeps_foldl (fun s x hK => ?_) ?_)
    | (with_reducible refine keeps_foldl_fst (fun s x hK => ?_) ?_)
    | (refine keeps_foldl_eq (by assumption) (fun s x hK => ?_) ?_)
    | (with_reducible refine keeps_ite ?_ ?_)
    | (fail_if_no_progress beta_reduce)
    | (dsimp only [Keeps, part]; with_reducible refine keeps_of ?_; first | with_reducible assumption | (with_reducible refine keeps_send ?_ ..) | (refine keeps_foldl_eq (by assumption) (fun s x hK => ?_) ?_))
    | split
    | (refine keeps_ite ?_ ?_))

theorem keeps_returnToSync {s0 s : State} (hK : Keeps s0 s) :
    Keeps s0 (State.returnToSync s) := by
  unfold State.returnToSync
  repeat' (first
    | (with_reducible assumption)
    | (intro x; first | ((have hx : Keeps s0 x := ?_); (try clear_value x); rotate_left; dsimp -zeta only [x]; rotate_right) | ((have hx : Keeps s0 x.1 := ?_); (try clear_value x); rotate_left; dsimp -zeta only [x]; rotate_right) | ((have hx : Keeps s0 x.2 := ?_); (try clear_value x); rotate_left; dsimp -zeta only [x]; rotate_right) | (clear_value x) | skip)
    | lift_lets -underBinder
    | (with_reducible refine keeps_setSt ?_ ..)
    | (with_reducible refine keeps_ite ?_ ?_)
    | (fail_if_no_progress beta_reduce)
    | (dsimp only [Keeps, part]; with_reducible refine keeps_of ?_; first | with_reducible assumption | (with_reducible refine keeps_setSt ?_ ..))
    | (dsimp only [Keeps, part]; with_reducible refine keeps_ofFree ?_; first | with_reducible assumption | (with_reducible refine keeps_setSt ?_ ..))
    | split
    | (refine keeps_ite ?_ ?_))

theorem keeps_syncOutcome {s0 s : State} {f : HbFrame} (hK : Keeps s0 s) :
    Keeps s0 (State.syncOutcome s f) := by
  unfold State.syncOutcome
  repeat' (first
    | (with_reducible assumption)
    | (intro x; first | ((have hx : Keeps s0 x := ?_); (try clear_value x); rotate_left; dsimp -zeta only [x]; rotate_right) | ((have hx : Keeps s0 x.1 := ?_); (try clear_value x); rotate_left; dsimp -zeta only [x]; rotate_right) | ((have hx : Keeps s0 x.2 := ?_); (try clear_value x); rotate_left; dsimp -zeta only [x]; rotate_right) | (clear_value x) | skip)
    | lift_lets -underBinder
    | (with_reducible refine keeps_enterPaired ?_ ..)
    | (with_reducible refine keeps_enterRejoining ?_ ..)
    | (with_reducible refine keeps_enterFeeding ?_ ..)
    | (with_reducible refine keeps_sendEntries ?_ ..)
    | (with_reducible refine keeps_ite ?_ ?_)
    | (fail_if_no_progress beta_reduce)
    | (dsimp only [Keeps, part]; with_reducible refine keeps_of ?_; first | with_reducible assumption | (with_reducible refine keeps_enterPaired ?_ ..) | (with_reducible refine keeps_enterRejoining ?_ ..) | (with_reducible refine keeps_enterFeeding ?_ ..) | (with_reducible refine keeps_sendEntries ?_ ..))
    | split
    | (refine keeps_ite ?_ ?_))

theorem keeps_soloFrame {s0 s : State} {f : HbFrame} (hK : Keeps s0 s) :
    Keeps s0 (State.soloFrame s f) := by
  unfold State.soloFrame
  repeat' (first
    | (with_reducible assumption)
    | (intro x; first | ((have hx : Keeps s0 x := ?_); (try clear_value x); rotate_left; dsimp -zeta only [x]; rotate_right) | ((have hx : Keeps s0 x.1 := ?_); (try clear_value x); rotate_left; dsimp -zeta only [x]; rotate_right) | ((have hx : Keeps s0 x.2 := ?_); (try clear_value x); rotate_left; dsimp -zeta only [x]; rotate_right) | (clear_value x) | skip)
    | lift_lets -underBinder
    | (with_reducible refine keeps_staleRejoin ?_ ..)
    | (with_reducible refine keeps_enterFeeding ?_ ..)
    | (with_reducible refine keeps_ite ?_ ?_)
    | (fail_if_no_progress beta_reduce)
    | (dsimp only [Keeps, part]; with_reducible refine keeps_of ?_; first | with_reducible assumption | (with_reducible refine keeps_staleRejoin ?_ ..) | (with_reducible refine keeps_enterFeeding ?_ ..))
    | split
    | (refine keeps_ite ?_ ?_))

theorem keeps_framesBack {s0 s : State} {f : HbFrame} (hK : Keeps s0 s) :
    Keeps s0 (State.framesBack s f) := by
  unfold State.framesBack
  repeat' (first
    | (with_reducible assumption)
    | (intro x; first | ((have hx : Keeps s0 x := ?_); (try clear_value x); rotate_left; dsimp -zeta only [x]; rotate_right) | ((have hx : Keeps s0 x.1 := ?_); (try clear_value x); rotate_left; dsimp -zeta only [x]; rotate_right) | ((have hx : Keeps s0 x.2 := ?_); (try clear_value x); rotate_left; dsimp -zeta only [x]; rotate_right) | (clear_value x) | skip)
    | lift_lets -underBinder
    | (with_reducible refine keeps_setSt ?_ ..)
    | (with_reducible refine keeps_enterPaired ?_ ..)
    | (with_reducible refine keeps_returnToSync ?_ ..)
    | (with_reducible refine keeps_syncOutcome ?_ ..)
    | (with_reducible refine keeps_ite ?_ ?_)
    | (fail_if_no_progress beta_reduce)
    | (dsimp only [Keeps, part]; with_reducible refine keeps_of ?_; first | with_reducible assumption | (with_reducible refine keeps_setSt ?_ ..) | (with_reducible refine keeps_enterPaired ?_ ..) | (with_reducible refine keeps_returnToSync ?_ ..) | (with_reducible refine keeps_syncOutcome ?_ ..))
    | split
    | (refine keeps_ite ?_ ?_))

theorem keeps_heartbeatState {s0 s : State} {f : HbFrame} (hK : Keeps s0 s) :
    Keeps s0 (State.heartbeatState s f) := by
  unfold State.heartbeatState
  repeat' (first
    | (with_reducible assumption)
    | (intro x; first | ((have hx : Keeps s0 x := ?_); (try clear_value x); rotate_left; dsimp -zeta only [x]; rotate_right) | ((have hx : Keeps s0 x.1 := ?_); (try clear_value x); rotate_left; dsimp -zeta only [x]; rotate_right) | ((have hx : Keeps s0 x.2 := ?_); (try clear_value x); rotate_left; dsimp -zeta only [x]; rotate_right) | (clear_value x) | skip)
    | lift_lets -underBinder
    | (with_reducible refine keeps_setSt ?_ ..)
    | (with_reducible refine keeps_enterPaired ?_ ..)
    | (with_reducible refine keeps_enterRejoining ?_ ..)
    | (with_reducible refine keeps_staleRejoin ?_ ..)
    | (with_reducible refine keeps_returnToSync ?_ ..)
    | (with_reducible refine keeps_syncOutcome ?_ ..)
    | (with_reducible refine keeps_soloFrame ?_ ..)
    | (with_reducible refine keeps_framesBack ?_ ..)
    | (with_reducible refine keeps_ite ?_ ?_)
    | (fail_if_no_progress beta_reduce)
    | (dsimp only [Keeps, part]; with_reducible refine keeps_of ?_; first | with_reducible assumption | (with_reducible refine keeps_setSt ?_ ..) | (with_reducible refine keeps_enterPaired ?_ ..) | (with_reducible refine keeps_enterRejoining ?_ ..) | (with_reducible refine keeps_staleRejoin ?_ ..) | (with_reducible refine keeps_returnToSync ?_ ..) | (with_reducible refine keeps_syncOutcome ?_ ..) | (with_reducible refine keeps_soloFrame ?_ ..) | (with_reducible refine keeps_framesBack ?_ ..))
    | split
    | (refine keeps_ite ?_ ?_))

theorem keeps_yieldState {s0 s : State} {f : HbFrame} (hK : Keeps s0 s) :
    Keeps s0 (State.yieldState s f) := by
  unfold State.yieldState
  repeat' (first
    | (with_reducible assumption)
    | (intro x; first | ((have hx : Keeps s0 x := ?_); (try clear_value x); rotate_left; dsimp -zeta only [x]; rotate_right) | ((have hx : Keeps s0 x.1 := ?_); (try clear_value x); rotate_left; dsimp -zeta only [x]; rotate_right) | ((have hx : Keeps s0 x.2 := ?_); (try clear_value x); rotate_left; dsimp -zeta only [x]; rotate_right) | (clear_value x) | skip)
    | lift_lets -underBinder
    | (with_reducible refine keeps_raiseCls ?_ ..)
    | (with_reducible refine keeps_raise ?_ ..)
    | (with_reducible refine keeps_staleRejoin ?_ ..)
    | (with_reducible refine keeps_enterTaking ?_ ..)
    | (with_reducible refine keeps_enterWait ?_ ..)
    | (with_reducible refine keeps_enterIsolated ?_ ..)
    | (with_reducible refine keeps_backToSolo ?_ ..)
    | (with_reducible refine keeps_ite ?_ ?_)
    | (fail_if_no_progress beta_reduce)
    | (dsimp only [Keeps, part]; with_reducible refine keeps_of ?_; first | with_reducible assumption | (with_reducible refine keeps_raiseCls ?_ ..) | (with_reducible refine keeps_raise ?_ ..) | (with_reducible refine keeps_staleRejoin ?_ ..) | (with_reducible refine keeps_enterTaking ?_ ..) | (with_reducible refine keeps_enterWait ?_ ..) | (with_reducible refine keeps_enterIsolated ?_ ..) | (with_reducible refine keeps_backToSolo ?_ ..))
    | split
    | (refine keeps_ite ?_ ?_))

theorem keeps_renewLease {s0 s : State} {echo : BitVec 32} (hK : Keeps s0 s) :
    Keeps s0 (State.renewLease s echo) := by
  unfold State.renewLease
  repeat' (first
    | (with_reducible assumption)
    | (intro x; first | ((have hx : Keeps s0 x := ?_); (try clear_value x); rotate_left; dsimp -zeta only [x]; rotate_right) | ((have hx : Keeps s0 x.1 := ?_); (try clear_value x); rotate_left; dsimp -zeta only [x]; rotate_right) | ((have hx : Keeps s0 x.2 := ?_); (try clear_value x); rotate_left; dsimp -zeta only [x]; rotate_right) | (clear_value x) | skip)
    | lift_lets -underBinder
    | (with_reducible refine keeps_ite ?_ ?_)
    | (fail_if_no_progress beta_reduce)
    | (dsimp only [Keeps, part]; with_reducible refine keeps_of ?_; first | with_reducible assumption)
    | split
    | (refine keeps_ite ?_ ?_))

theorem keeps_learnStale {s0 s : State} {b : Nat} (hK : Keeps s0 s) :
    Keeps s0 (State.learnStale s b) := by
  unfold State.learnStale
  repeat' (first
    | (with_reducible assumption)
    | (intro x; first | ((have hx : Keeps s0 x := ?_); (try clear_value x); rotate_left; dsimp -zeta only [x]; rotate_right) | ((have hx : Keeps s0 x.1 := ?_); (try clear_value x); rotate_left; dsimp -zeta only [x]; rotate_right) | ((have hx : Keeps s0 x.2 := ?_); (try clear_value x); rotate_left; dsimp -zeta only [x]; rotate_right) | (clear_value x) | skip)
    | lift_lets -underBinder
    | (with_reducible refine keeps_ite ?_ ?_)
    | (fail_if_no_progress beta_reduce)
    | (dsimp only [Keeps, part]; with_reducible refine keeps_of ?_; first | with_reducible assumption)
    | split
    | (refine keeps_ite ?_ ?_))

theorem keeps_audit {s0 s : State} {f : HbFrame} (hK : Keeps s0 s) :
    Keeps s0 (State.audit s f) := by
  unfold State.audit
  repeat' (first
    | (with_reducible assumption)
    | (intro x; first | ((have hx : Keeps s0 x := ?_); (try clear_value x); rotate_left; dsimp -zeta only [x]; rotate_right) | ((have hx : Keeps s0 x.1 := ?_); (try clear_value x); rotate_left; dsimp -zeta only [x]; rotate_right) | ((have hx : Keeps s0 x.2 := ?_); (try clear_value x); rotate_left; dsimp -zeta only [x]; rotate_right) | (clear_value x) | skip)
    | lift_lets -underBinder
    | (with_reducible refine keeps_raise ?_ ..)
    | (with_reducible refine keeps_send ?_ ..)
    | (with_reducible refine keeps_learnStale ?_ ..)
    | (with_reducible refine keeps_ite ?_ ?_)
    | (fail_if_no_progress beta_reduce)
    | (dsimp only [Keeps, part]; with_reducible refine keeps_of ?_; first | with_reducible assumption | (with_reducible refine keeps_raise ?_ ..) | (with_reducible refine keeps_send ?_ ..) | (with_reducible refine keeps_learnStale ?_ ..))
    | split
    | (refine keeps_ite ?_ ?_))

theorem keeps_missOne {s0 s : State} {pathB : Bool} (hK : Keeps s0 s) :
    Keeps s0 (State.missOne s pathB) := by
  unfold State.missOne
  repeat' (first
    | (with_reducible assumption)
    | (intro x; first | ((have hx : Keeps s0 x := ?_); (try clear_value x); rotate_left; dsimp -zeta only [x]; rotate_right) | ((have hx : Keeps s0 x.1 := ?_); (try clear_value x); rotate_left; dsimp -zeta only [x]; rotate_right) | ((have hx : Keeps s0 x.2 := ?_); (try clear_value x); rotate_left; dsimp -zeta only [x]; rotate_right) | (clear_value x) | skip)
    | lift_lets -underBinder
    | (with_reducible refine keeps_bump ?_ ..)
    | (with_reducible refine keeps_raise ?_ ..)
    | (with_reducible refine keeps_settle ?_ ..)
    | (with_reducible refine keeps_checkTriggers ?_ ..)
    | (with_reducible refine keeps_ite ?_ ?_)
    | (fail_if_no_progress beta_reduce)
    | (dsimp only [Keeps, part]; with_reducible refine keeps_of ?_; first | with_reducible assumption | (with_reducible refine keeps_bump ?_ ..) | (with_reducible refine keeps_raise ?_ ..) | (with_reducible refine keeps_settle ?_ ..) | (with_reducible refine keeps_checkTriggers ?_ ..))
    | split
    | (refine keeps_ite ?_ ?_))

theorem keeps_missDue {s0 s : State} {pathB : Bool} {fuel : Nat} (hK : Keeps s0 s) :
    Keeps s0 (State.missDue s pathB fuel) := by
  induction fuel generalizing s pathB with
  | zero =>
  unfold State.missDue
  repeat' (first
    | (with_reducible assumption)
    | (intro x; first | ((have hx : Keeps s0 x := ?_); (try clear_value x); rotate_left; dsimp -zeta only [x]; rotate_right) | ((have hx : Keeps s0 x.1 := ?_); (try clear_value x); rotate_left; dsimp -zeta only [x]; rotate_right) | ((have hx : Keeps s0 x.2 := ?_); (try clear_value x); rotate_left; dsimp -zeta only [x]; rotate_right) | (clear_value x) | skip)
    | lift_lets -underBinder
    | (with_reducible refine keeps_missOne ?_ ..)
    | (with_reducible refine keeps_ite ?_ ?_)
    | (fail_if_no_progress beta_reduce)
    | (dsimp only [Keeps, part]; with_reducible refine keeps_of ?_; first | with_reducible assumption | (with_reducible refine keeps_missOne ?_ ..))
    | split
    | (refine keeps_ite ?_ ?_))
  | succ n ih =>
  unfold State.missDue
  repeat' (first
    | (with_reducible assumption)
    | (intro x; first | ((have hx : Keeps s0 x := ?_); (try clear_value x); rotate_left; dsimp -zeta only [x]; rotate_right) | ((have hx : Keeps s0 x.1 := ?_); (try clear_value x); rotate_left; dsimp -zeta only [x]; rotate_right) | ((have hx : Keeps s0 x.2 := ?_); (try clear_value x); rotate_left; dsimp -zeta only [x]; rotate_right) | (clear_value x) | skip)
    | lift_lets -underBinder
    | (with_reducible apply ih)
    | (with_reducible refine keeps_missOne ?_ ..)
    | (with_reducible refine keeps_ite ?_ ?_)
    | (fail_if_no_progress beta_reduce)
    | (dsimp only [Keeps, part]; with_reducible refine keeps_of ?_; first | with_reducible assumption | (with_reducible refine keeps_missOne ?_ ..))
    | split
    | (refine keeps_ite ?_ ?_))

theorem keeps_onFrame {s0 s : State} {f : HbFrame} {pathB : Bool} (hK : Keeps s0 s) :
    Keeps s0 (State.onFrame s f pathB) := by
  unfold State.onFrame
  repeat' (first
    | (with_reducible assumption)
    | (intro x; first | ((have hx : Keeps s0 x := ?_); (try clear_value x); rotate_left; dsimp -zeta only [x]; rotate_right) | ((have hx : Keeps s0 x.1 := ?_); (try clear_value x); rotate_left; dsimp -zeta only [x]; rotate_right) | ((have hx : Keeps s0 x.2 := ?_); (try clear_value x); rotate_left; dsimp -zeta only [x]; rotate_right) | (clear_value x) | skip)
    | lift_lets -underBinder
    | (with_reducible refine keeps_raise ?_ ..)
    | (with_reducible refine keeps_settle ?_ ..)
    | (with_reducible refine keeps_retryHeld ?_ ..)
    | (with_reducible refine keeps_enterTaking ?_ ..)
    | (with_reducible refine keeps_heartbeatState ?_ ..)
    | (with_reducible refine keeps_yieldState ?_ ..)
    | (with_reducible refine keeps_renewLease ?_ ..)
    | (with_reducible refine keeps_audit ?_ ..)
    | (with_reducible refine keeps_missDue ?_ ..)
    | (with_reducible refine keeps_ite ?_ ?_)
    | (fail_if_no_progress beta_reduce)
    | (dsimp only [Keeps, part]; with_reducible refine keeps_of ?_; first | with_reducible assumption | (with_reducible refine keeps_raise ?_ ..) | (with_reducible refine keeps_settle ?_ ..) | (with_reducible refine keeps_retryHeld ?_ ..) | (with_reducible refine keeps_enterTaking ?_ ..) | (with_reducible refine keeps_heartbeatState ?_ ..) | (with_reducible refine keeps_yieldState ?_ ..) | (with_reducible refine keeps_renewLease ?_ ..) | (with_reducible refine keeps_audit ?_ ..) | (with_reducible refine keeps_missDue ?_ ..))
    | split
    | (refine keeps_ite ?_ ?_))

theorem keeps_execHeartbeat {s0 s : State} {h : Hdr} {f : HbFrame} {at_ : Nat} (hK : Keeps s0 s) :
    XKeeps s0 (execHeartbeat h f at_ s) := by
  unfold execHeartbeat
  repeat' (first
    | (with_reducible assumption)
    | (intro x; first | ((have hx : Keeps s0 x := ?_); (try clear_value x); rotate_left; dsimp -zeta only [x]; rotate_right) | ((have hx : Keeps s0 x.1 := ?_); (try clear_value x); rotate_left; dsimp -zeta only [x]; rotate_right) | ((have hx : Keeps s0 x.2 := ?_); (try clear_value x); rotate_left; dsimp -zeta only [x]; rotate_right) | (clear_value x) | skip)
    | lift_lets -underBinder
    | (with_reducible refine keeps_tick ?_ ..)
    | (with_reducible refine keeps_receive ?_ ?_ ..)
    | (with_reducible refine keeps_onFrame ?_ ..)
    | (with_reducible refine keeps_ite ?_ ?_)
    | (with_reducible refine xkeeps_next ?_)
    | (fail_if_no_progress beta_reduce)
    | (dsimp only [Keeps, part]; with_reducible refine keeps_of ?_; first | with_reducible assumption | (with_reducible refine keeps_tick ?_ ..) | (with_reducible refine keeps_receive ?_ ?_ ..) | (with_reducible refine keeps_onFrame ?_ ..))
    | split
    | (refine keeps_ite ?_ ?_))

theorem keeps_execPlumbFrameRx {s0 s : State} {f : HbFrame} {at_ : Nat} (hK : Keeps s0 s) :
    XKeeps s0 (execPlumbFrameRx f at_ s) := by
  unfold execPlumbFrameRx
  repeat' (first
    | (with_reducible assumption)
    | (intro x; first | ((have hx : Keeps s0 x := ?_); (try clear_value x); rotate_left; dsimp -zeta only [x]; rotate_right) | ((have hx : Keeps s0 x.1 := ?_); (try clear_value x); rotate_left; dsimp -zeta only [x]; rotate_right) | ((have hx : Keeps s0 x.2 := ?_); (try clear_value x); rotate_left; dsimp -zeta only [x]; rotate_right) | (clear_value x) | skip)
    | lift_lets -underBinder
    | (with_reducible refine keeps_tick ?_ ..)
    | (with_reducible refine keeps_onFrame ?_ ..)
    | (with_reducible refine keeps_ite ?_ ?_)
    | (with_reducible refine xkeeps_next ?_)
    | (fail_if_no_progress beta_reduce)
    | (dsimp only [Keeps, part]; with_reducible refine keeps_of ?_; first | with_reducible assumption | (with_reducible refine keeps_tick ?_ ..) | (with_reducible refine keeps_onFrame ?_ ..))
    | split
    | (refine keeps_ite ?_ ?_))

theorem keeps_execYield {s0 s : State} {plumb : Bool} {f : HbFrame} {at_ : Nat} (hK : Keeps s0 s) :
    XKeeps s0 (execYield plumb f at_ s) := by
  unfold execYield
  repeat' (first
    | (with_reducible assumption)
    | (intro x; first | ((have hx : Keeps s0 x := ?_); (try clear_value x); rotate_left; dsimp -zeta only [x]; rotate_right) | ((have hx : Keeps s0 x.1 := ?_); (try clear_value x); rotate_left; dsimp -zeta only [x]; rotate_right) | ((have hx : Keeps s0 x.2 := ?_); (try clear_value x); rotate_left; dsimp -zeta only [x]; rotate_right) | (clear_value x) | skip)
    | lift_lets -underBinder
    | (with_reducible refine keeps_tick ?_ ..)
    | (with_reducible refine keeps_onFrame ?_ ..)
    | (with_reducible refine keeps_ite ?_ ?_)
    | (with_reducible refine xkeeps_next ?_)
    | (fail_if_no_progress beta_reduce)
    | (dsimp only [Keeps, part]; with_reducible refine keeps_of ?_; first | with_reducible assumption | (with_reducible refine keeps_tick ?_ ..) | (with_reducible refine keeps_onFrame ?_ ..))
    | split
    | (refine keeps_ite ?_ ?_))

theorem keeps_buildFrame {s0 s : State} {ty : Nat} (hK : Keeps s0 s) :
    Keeps s0 (State.buildFrame s ty).2 := by
  unfold State.buildFrame
  repeat' (first
    | (with_reducible assumption)
    | (intro x; first | ((have hx : Keeps s0 x := ?_); (try clear_value x); rotate_left; dsimp -zeta only [x]; rotate_right) | ((have hx : Keeps s0 x.1 := ?_); (try clear_value x); rotate_left; dsimp -zeta only [x]; rotate_right) | ((have hx : Keeps s0 x.2 := ?_); (try clear_value x); rotate_left; dsimp -zeta only [x]; rotate_right) | (clear_value x) | skip)
    | lift_lets -underBinder
    | (with_reducible refine keeps_put ?_ ..)
    | (with_reducible refine keeps_getD ?_ ?_)
    | (with_reducible refine keeps_ite ?_ ?_)
    | (fail_if_no_progress beta_reduce)
    | (dsimp only [Keeps, part]; with_reducible refine keeps_of ?_; first | with_reducible assumption | (with_reducible refine keeps_put ?_ ..))
    | split
    | (refine keeps_ite ?_ ?_))

theorem keeps_buildFrame_eq {s0 s tE : State} {bE : HbFrame} {ty : Nat} (hEq : State.buildFrame s ty = (bE, tE)) (hK : Keeps s0 s) : Keeps s0 tE := by
  have k : Keeps s0 (State.buildFrame s ty).2 := keeps_buildFrame hK
  rw [hEq] at k
  exact k

theorem keeps_enterYielded {s0 s : State} (hK : Keeps s0 s) :
    Keeps s0 (State.enterYielded s) := by
  unfold State.enterYielded
  repeat' (first
    | (with_reducible assumption)
    | (intro x; first | ((have hx : Keeps s0 x := ?_); (try clear_value x); rotate_left; dsimp -zeta only [x]; rotate_right) | ((have hx : Keeps s0 x.1 := ?_); (try clear_value x); rotate_left; dsimp -zeta only [x]; rotate_right) | ((have hx : Keeps s0 x.2 := ?_); (try clear_value x); rotate_left; dsimp -zeta only [x]; rotate_right) | (clear_value x) | skip)
    | lift_lets -underBinder
    | (with_reducible refine keeps_setSt ?_ ..)
    | (with_reducible refine keeps_ite ?_ ?_)
    | (fail_if_no_progress beta_reduce)
    | (dsimp only [Keeps, part]; with_reducible refine keeps_of ?_; first | with_reducible assumption | (with_reducible refine keeps_setSt ?_ ..))
    | split
    | (refine keeps_ite ?_ ?_))

theorem keeps_startYield {s0 s : State} (hK : Keeps s0 s) :
    Keeps s0 (State.startYield s) := by
  unfold State.startYield
  repeat' (first
    | (with_reducible assumption)
    | (intro x; first | ((have hx : Keeps s0 x := ?_); (try clear_value x); rotate_left; dsimp -zeta only [x]; rotate_right) | ((have hx : Keeps s0 x.1 := ?_); (try clear_value x); rotate_left; dsimp -zeta only [x]; rotate_right) | ((have hx : Keeps s0 x.2 := ?_); (try clear_value x); rotate_left; dsimp -zeta only [x]; rotate_right) | (clear_value x) | skip)
    | lift_lets -underBinder
    | (with_reducible refine keeps_ite ?_ ?_)
    | (fail_if_no_progress beta_reduce)
    | (dsimp only [Keeps, part]; with_reducible refine keeps_of ?_; first | with_reducible assumption)
    | split
    | (refine keeps_ite ?_ ?_))

theorem keeps_execHeartbeatTimer {s0 s : State} {at_ : Nat} (hK : Keeps s0 s) :
    XKeeps s0 (execHeartbeatTimer at_ s) := by
  unfold execHeartbeatTimer
  repeat' (first
    | (with_reducible assumption)
    | (intro x; first | ((have hx : Keeps s0 x := ?_); (try clear_value x); rotate_left; dsimp -zeta only [x]; rotate_right) | ((have hx : Keeps s0 x.1 := ?_); (try clear_value x); rotate_left; dsimp -zeta only [x]; rotate_right) | ((have hx : Keeps s0 x.2 := ?_); (try clear_value x); rotate_left; dsimp -zeta only [x]; rotate_right) | (clear_value x) | skip)
    | lift_lets -underBinder
    | (with_reducible refine keeps_tick ?_ ..)
    | (with_reducible refine keeps_sendOn ?_ ..)
    | (with_reducible refine keeps_buildFrame ?_ ..)
    | (refine keeps_buildFrame_eq (by assumption) ?_)
    | (with_reducible refine keeps_enterYielded ?_ ..)
    | (with_reducible refine keeps_foldl (fun s x hK => ?_) ?_)
    | (with_reducible refine keeps_foldl_fst (fun s x hK => ?_) ?_)
    | (refine keeps_foldl_eq (by assumption) (fun s x hK => ?_) ?_)
    | (with_reducible refine keeps_ite ?_ ?_)
    | (with_reducible refine xkeeps_next ?_)
    | (fail_if_no_progress beta_reduce)
    | (dsimp only [Keeps, part]; with_reducible refine keeps_of ?_; first | with_reducible assumption | (with_reducible refine keeps_tick ?_ ..) | (with_reducible refine keeps_sendOn ?_ ..) | (with_reducible refine keeps_buildFrame ?_ ..) | (refine keeps_buildFrame_eq (by assumption) ?_) | (with_reducible refine keeps_enterYielded ?_ ..) | (refine keeps_foldl_eq (by assumption) (fun s x hK => ?_) ?_))
    | split
    | (refine keeps_ite ?_ ?_))

theorem keeps_execPlumbSendTimer {s0 s : State} {at_ : Nat} (hK : Keeps s0 s) :
    XKeeps s0 (execPlumbSendTimer at_ s) := by
  unfold execPlumbSendTimer
  repeat' (first
    | (with_reducible assumption)
    | (intro x; first | ((have hx : Keeps s0 x := ?_); (try clear_value x); rotate_left; dsimp -zeta only [x]; rotate_right) | ((have hx : Keeps s0 x.1 := ?_); (try clear_value x); rotate_left; dsimp -zeta only [x]; rotate_right) | ((have hx : Keeps s0 x.2 := ?_); (try clear_value x); rotate_left; dsimp -zeta only [x]; rotate_right) | (clear_value x) | skip)
    | lift_lets -underBinder
    | (with_reducible refine keeps_tick ?_ ..)
    | (with_reducible refine keeps_emit ?_ ..)
    | (with_reducible refine keeps_ite ?_ ?_)
    | (with_reducible refine xkeeps_next ?_)
    | (fail_if_no_progress beta_reduce)
    | (dsimp only [Keeps, part]; with_reducible refine keeps_of ?_; first | with_reducible assumption | (with_reducible refine keeps_tick ?_ ..) | (with_reducible refine keeps_emit ?_ ..))
    | split
    | (refine keeps_ite ?_ ?_))

theorem keeps_execMissDeadline {s0 s : State} {pathB : Bool} {at_ : Nat} (hK : Keeps s0 s) :
    XKeeps s0 (execMissDeadline pathB at_ s) := by
  unfold execMissDeadline
  repeat' (first
    | (with_reducible assumption)
    | (intro x; first | ((have hx : Keeps s0 x := ?_); (try clear_value x); rotate_left; dsimp -zeta only [x]; rotate_right) | ((have hx : Keeps s0 x.1 := ?_); (try clear_value x); rotate_left; dsimp -zeta only [x]; rotate_right) | ((have hx : Keeps s0 x.2 := ?_); (try clear_value x); rotate_left; dsimp -zeta only [x]; rotate_right) | (clear_value x) | skip)
    | lift_lets -underBinder
    | (with_reducible refine keeps_tick ?_ ..)
    | (with_reducible refine keeps_missOne ?_ ..)
    | (with_reducible refine keeps_ite ?_ ?_)
    | (with_reducible refine xkeeps_next ?_)
    | (fail_if_no_progress beta_reduce)
    | (dsimp only [Keeps, part]; with_reducible refine keeps_of ?_; first | with_reducible assumption | (with_reducible refine keeps_tick ?_ ..) | (with_reducible refine keeps_missOne ?_ ..))
    | split
    | (refine keeps_ite ?_ ?_))

theorem keeps_execLeaseLapse {s0 s : State} {at_ : Nat} (hK : Keeps s0 s) :
    XKeeps s0 (execLeaseLapse at_ s) := by
  unfold execLeaseLapse
  repeat' (first
    | (with_reducible assumption)
    | (intro x; first | ((have hx : Keeps s0 x := ?_); (try clear_value x); rotate_left; dsimp -zeta only [x]; rotate_right) | ((have hx : Keeps s0 x.1 := ?_); (try clear_value x); rotate_left; dsimp -zeta only [x]; rotate_right) | ((have hx : Keeps s0 x.2 := ?_); (try clear_value x); rotate_left; dsimp -zeta only [x]; rotate_right) | (clear_value x) | skip)
    | lift_lets -underBinder
    | (with_reducible refine keeps_tick ?_ ..)
    | (with_reducible refine keeps_raise ?_ ..)
    | (with_reducible refine keeps_ite ?_ ?_)
    | (with_reducible refine xkeeps_next ?_)
    | (fail_if_no_progress beta_reduce)
    | (dsimp only [Keeps, part]; with_reducible refine keeps_of ?_; first | with_reducible assumption | (with_reducible refine keeps_tick ?_ ..) | (with_reducible refine keeps_raise ?_ ..))
    | split
    | (refine keeps_ite ?_ ?_))

theorem keeps_execWatchdogExpiry {s0 s : State} {at_ : Nat} (hK : Keeps s0 s) :
    XKeeps s0 (execWatchdogExpiry at_ s) := by
  unfold execWatchdogExpiry
  repeat' (first
    | (with_reducible assumption)
    | (intro x; first | ((have hx : Keeps s0 x := ?_); (try clear_value x); rotate_left; dsimp -zeta only [x]; rotate_right) | ((have hx : Keeps s0 x.1 := ?_); (try clear_value x); rotate_left; dsimp -zeta only [x]; rotate_right) | ((have hx : Keeps s0 x.2 := ?_); (try clear_value x); rotate_left; dsimp -zeta only [x]; rotate_right) | (clear_value x) | skip)
    | lift_lets -underBinder
    | (with_reducible refine keeps_tick ?_ ..)
    | (with_reducible refine keeps_setF ?_ ..)
    | (with_reducible refine keeps_enterYielded ?_ ..)
    | (with_reducible refine keeps_foldl (fun s x hK => ?_) ?_)
    | (with_reducible refine keeps_foldl_fst (fun s x hK => ?_) ?_)
    | (refine keeps_foldl_eq (by assumption) (fun s x hK => ?_) ?_)
    | (with_reducible refine keeps_ite ?_ ?_)
    | (with_reducible refine xkeeps_next ?_)
    | (fail_if_no_progress beta_reduce)
    | (dsimp only [Keeps, part]; with_reducible refine keeps_of ?_; first | with_reducible assumption | (with_reducible refine keeps_tick ?_ ..) | (with_reducible refine keeps_setF ?_ ..) | (with_reducible refine keeps_enterYielded ?_ ..) | (refine keeps_foldl_eq (by assumption) (fun s x hK => ?_) ?_))
    | split
    | (refine keeps_ite ?_ ?_))

theorem keeps_execCarrierLoss {s0 s : State} {at_ : Nat} (hK : Keeps s0 s) :
    XKeeps s0 (execCarrierLoss at_ s) := by
  unfold execCarrierLoss
  repeat' (first
    | (with_reducible assumption)
    | (intro x; first | ((have hx : Keeps s0 x := ?_); (try clear_value x); rotate_left; dsimp -zeta only [x]; rotate_right) | ((have hx : Keeps s0 x.1 := ?_); (try clear_value x); rotate_left; dsimp -zeta only [x]; rotate_right) | ((have hx : Keeps s0 x.2 := ?_); (try clear_value x); rotate_left; dsimp -zeta only [x]; rotate_right) | (clear_value x) | skip)
    | lift_lets -underBinder
    | (with_reducible refine keeps_tick ?_ ..)
    | (with_reducible refine keeps_raise ?_ ..)
    | (with_reducible refine keeps_settle ?_ ..)
    | (with_reducible refine keeps_checkTriggers ?_ ..)
    | (with_reducible refine keeps_ite ?_ ?_)
    | (with_reducible refine xkeeps_next ?_)
    | (fail_if_no_progress beta_reduce)
    | (dsimp only [Keeps, part]; with_reducible refine keeps_of ?_; first | with_reducible assumption | (with_reducible refine keeps_tick ?_ ..) | (with_reducible refine keeps_raise ?_ ..) | (with_reducible refine keeps_settle ?_ ..) | (with_reducible refine keeps_checkTriggers ?_ ..))
    | split
    | (refine keeps_ite ?_ ?_))

theorem keeps_execCarrierPresent {s0 s : State} {at_ : Nat} (hK : Keeps s0 s) :
    XKeeps s0 (execCarrierPresent at_ s) := by
  unfold execCarrierPresent
  repeat' (first
    | (with_reducible assumption)
    | (intro x; first | ((have hx : Keeps s0 x := ?_); (try clear_value x); rotate_left; dsimp -zeta only [x]; rotate_right) | ((have hx : Keeps s0 x.1 := ?_); (try clear_value x); rotate_left; dsimp -zeta only [x]; rotate_right) | ((have hx : Keeps s0 x.2 := ?_); (try clear_value x); rotate_left; dsimp -zeta only [x]; rotate_right) | (clear_value x) | skip)
    | lift_lets -underBinder
    | (with_reducible refine keeps_tick ?_ ..)
    | (with_reducible refine keeps_settle ?_ ..)
    | (with_reducible refine keeps_enterPaired ?_ ..)
    | (with_reducible refine keeps_checkTriggers ?_ ..)
    | (with_reducible refine keeps_returnToSync ?_ ..)
    | (with_reducible refine keeps_ite ?_ ?_)
    | (with_reducible refine xkeeps_next ?_)
    | (fail_if_no_progress beta_reduce)
    | (dsimp only [Keeps, part]; with_reducible refine keeps_of ?_; first | with_reducible assumption | (with_reducible refine keeps_tick ?_ ..) | (with_reducible refine keeps_settle ?_ ..) | (with_reducible refine keeps_enterPaired ?_ ..) | (with_reducible refine keeps_checkTriggers ?_ ..) | (with_reducible refine keeps_returnToSync ?_ ..))
    | split
    | (refine keeps_ite ?_ ?_))

theorem keeps_execTFreeReached {s0 s : State} {at_ : Nat} (hK : Keeps s0 s) :
    XKeeps s0 (execTFreeReached at_ s) := by
  unfold execTFreeReached
  repeat' (first
    | (with_reducible assumption)
    | (intro x; first | ((have hx : Keeps s0 x := ?_); (try clear_value x); rotate_left; dsimp -zeta only [x]; rotate_right) | ((have hx : Keeps s0 x.1 := ?_); (try clear_value x); rotate_left; dsimp -zeta only [x]; rotate_right) | ((have hx : Keeps s0 x.2 := ?_); (try clear_value x); rotate_left; dsimp -zeta only [x]; rotate_right) | (clear_value x) | skip)
    | lift_lets -underBinder
    | (with_reducible refine keeps_tick ?_ ..)
    | (with_reducible refine keeps_enterTaking ?_ ..)
    | (with_reducible refine keeps_ite ?_ ?_)
    | (with_reducible refine xkeeps_next ?_)
    | (fail_if_no_progress beta_reduce)
    | (dsimp only [Keeps, part]; with_reducible refine keeps_of ?_; first | with_reducible assumption | (with_reducible refine keeps_tick ?_ ..) | (with_reducible refine keeps_enterTaking ?_ ..))
    | split
    | (refine keeps_ite ?_ ?_))

theorem keeps_execSelfDiagnosisFail {s0 s : State} {at_ : Nat} (hK : Keeps s0 s) :
    XKeeps s0 (execSelfDiagnosisFail at_ s) := by
  unfold execSelfDiagnosisFail
  repeat' (first
    | (with_reducible assumption)
    | (intro x; first | ((have hx : Keeps s0 x := ?_); (try clear_value x); rotate_left; dsimp -zeta only [x]; rotate_right) | ((have hx : Keeps s0 x.1 := ?_); (try clear_value x); rotate_left; dsimp -zeta only [x]; rotate_right) | ((have hx : Keeps s0 x.2 := ?_); (try clear_value x); rotate_left; dsimp -zeta only [x]; rotate_right) | (clear_value x) | skip)
    | lift_lets -underBinder
    | (with_reducible refine keeps_tick ?_ ..)
    | (with_reducible refine keeps_startYield ?_ ..)
    | (with_reducible refine keeps_ite ?_ ?_)
    | (with_reducible refine xkeeps_next ?_)
    | (fail_if_no_progress beta_reduce)
    | (dsimp only [Keeps, part]; with_reducible refine keeps_of ?_; first | with_reducible assumption | (with_reducible refine keeps_tick ?_ ..) | (with_reducible refine keeps_startYield ?_ ..))
    | split
    | (refine keeps_ite ?_ ?_))

theorem keeps_poisonCopyList {s0 s : State} (hK : Keeps s0 s) :
    Keeps s0 (State.poisonCopyList s) := by
  unfold State.poisonCopyList
  repeat' (first
    | (with_reducible assumption)
    | (intro x; first | ((have hx : Keeps s0 x := ?_); (try clear_value x); rotate_left; dsimp -zeta only [x]; rotate_right) | ((have hx : Keeps s0 x.1 := ?_); (try clear_value x); rotate_left; dsimp -zeta only [x]; rotate_right) | ((have hx : Keeps s0 x.2 := ?_); (try clear_value x); rotate_left; dsimp -zeta only [x]; rotate_right) | (clear_value x) | skip)
    | lift_lets -underBinder
    | (with_reducible refine keeps_raise ?_ ..)
    | (with_reducible refine keeps_spanLoss ?_ ..)
    | (with_reducible refine keeps_newLossCause ?_ ..)
    | (with_reducible refine keeps_poisonSpan ?_ ..)
    | (with_reducible refine keeps_foldl (fun s x hK => ?_) ?_)
    | (with_reducible refine keeps_foldl_fst (fun s x hK => ?_) ?_)
    | (refine keeps_foldl_eq (by assumption) (fun s x hK => ?_) ?_)
    | (with_reducible refine keeps_ite ?_ ?_)
    | (fail_if_no_progress beta_reduce)
    | (dsimp only [Keeps, part]; with_reducible refine keeps_of ?_; first | with_reducible assumption | (with_reducible refine keeps_raise ?_ ..) | (with_reducible refine keeps_spanLoss ?_ ..) | (with_reducible refine keeps_newLossCause ?_ ..) | (with_reducible refine keeps_poisonSpan ?_ ..) | (refine keeps_foldl_eq (by assumption) (fun s x hK => ?_) ?_))
    | split
    | (refine keeps_ite ?_ ?_))

theorem keeps_takeOver {s0 s : State} {t : Taking} (hK : Keeps s0 s) :
    Keeps s0 (State.takeOver s t) := by
  unfold State.takeOver
  repeat' (first
    | (with_reducible assumption)
    | (intro x; first | ((have hx : Keeps s0 x := ?_); (try clear_value x); rotate_left; dsimp -zeta only [x]; rotate_right) | ((have hx : Keeps s0 x.1 := ?_); (try clear_value x); rotate_left; dsimp -zeta only [x]; rotate_right) | ((have hx : Keeps s0 x.2 := ?_); (try clear_value x); rotate_left; dsimp -zeta only [x]; rotate_right) | (clear_value x) | skip)
    | lift_lets -underBinder
    | (with_reducible refine keeps_bbRecord ?_ ..)
    | (with_reducible refine keeps_raise ?_ ..)
    | (with_reducible refine keeps_health ?_ ..)
    | (with_reducible refine keeps_dropPeerParts ?_ ..)
    | (with_reducible refine keeps_settle ?_ ..)
    | (with_reducible refine keeps_retryHeld ?_ ..)
    | (with_reducible refine keeps_resend ?_ ..)
    | (with_reducible refine keeps_dropRepairs ?_ ..)
    | (with_reducible refine keeps_changeEntry ?_ ..)
    | (with_reducible refine keeps_setSt ?_ ..)
    | (with_reducible refine keeps_poisonCopyList ?_ ..)
    | (with_reducible refine keeps_foldl (fun s x hK => ?_) ?_)
    | (with_reducible refine keeps_foldl_fst (fun s x hK => ?_) ?_)
    | (refine keeps_foldl_eq (by assumption) (fun s x hK => ?_) ?_)
    | (with_reducible refine keeps_ite ?_ ?_)
    | (fail_if_no_progress beta_reduce)
    | (dsimp only [Keeps, part]; with_reducible refine keeps_of ?_; first | with_reducible assumption | (with_reducible refine keeps_bbRecord ?_ ..) | (with_reducible refine keeps_raise ?_ ..) | (with_reducible refine keeps_health ?_ ..) | (with_reducible refine keeps_dropPeerParts ?_ ..) | (with_reducible refine keeps_settle ?_ ..) | (with_reducible refine keeps_retryHeld ?_ ..) | (with_reducible refine keeps_resend ?_ ..) | (with_reducible refine keeps_dropRepairs ?_ ..) | (with_reducible refine keeps_changeEntry ?_ ..) | (with_reducible refine keeps_setSt ?_ ..) | (with_reducible refine keeps_poisonCopyList ?_ ..) | (refine keeps_foldl_eq (by assumption) (fun s x hK => ?_) ?_))
    | split
    | (refine keeps_ite ?_ ?_))

theorem keeps_dropGroup {s0 s : State} (hK : Keeps s0 s) :
    Keeps s0 (State.dropGroup s) := by
  unfold State.dropGroup
  repeat' (first
    | (with_reducible assumption)
    | (intro x; first | ((have hx : Keeps s0 x := ?_); (try clear_value x); rotate_left; dsimp -zeta only [x]; rotate_right) | ((have hx : Keeps s0 x.1 := ?_); (try clear_value x); rotate_left; dsimp -zeta only [x]; rotate_right) | ((have hx : Keeps s0 x.2 := ?_); (try clear_value x); rotate_left; dsimp -zeta only [x]; rotate_right) | (clear_value x) | skip)
    | lift_lets -underBinder
    | (with_reducible refine keeps_ite ?_ ?_)
    | (fail_if_no_progress beta_reduce)
    | (dsimp only [Keeps, part]; with_reducible refine keeps_of ?_; first | with_reducible assumption)
    | split
    | (refine keeps_ite ?_ ?_))

theorem keeps_beginHandover {s0 s : State} {bolts : List Nat} {down : Bool} (hK : Keeps s0 s) :
    Keeps s0 (State.beginHandover s bolts down) := by
  unfold State.beginHandover
  repeat' (first
    | (with_reducible assumption)
    | (intro x; first | ((have hx : Keeps s0 x := ?_); (try clear_value x); rotate_left; dsimp -zeta only [x]; rotate_right) | ((have hx : Keeps s0 x.1 := ?_); (try clear_value x); rotate_left; dsimp -zeta only [x]; rotate_right) | ((have hx : Keeps s0 x.2 := ?_); (try clear_value x); rotate_left; dsimp -zeta only [x]; rotate_right) | (clear_value x) | skip)
    | lift_lets -underBinder
    | (with_reducible refine keeps_hold ?_ ..)
    | (with_reducible refine keeps_ite ?_ ?_)
    | (fail_if_no_progress beta_reduce)
    | (dsimp only [Keeps, part]; with_reducible refine keeps_of ?_; first | with_reducible assumption | (with_reducible refine keeps_hold ?_ ..))
    | split
    | (refine keeps_ite ?_ ?_))

theorem keeps_startSlot {s0 s : State} (hK : Keeps s0 s) :
    Keeps s0 (State.startSlot s) := by
  unfold State.startSlot
  repeat' (first
    | (with_reducible assumption)
    | (intro x; first | ((have hx : Keeps s0 x := ?_); (try clear_value x); rotate_left; dsimp -zeta only [x]; rotate_right) | ((have hx : Keeps s0 x.1 := ?_); (try clear_value x); rotate_left; dsimp -zeta only [x]; rotate_right) | ((have hx : Keeps s0 x.2 := ?_); (try clear_value x); rotate_left; dsimp -zeta only [x]; rotate_right) | (clear_value x) | skip)
    | lift_lets -underBinder
    | (with_reducible refine keeps_ite ?_ ?_)
    | (fail_if_no_progress beta_reduce)
    | (dsimp only [Keeps, part]; with_reducible refine keeps_of ?_; first | with_reducible assumption)
    | split
    | (refine keeps_ite ?_ ?_))

theorem keeps_nextGroup {s0 s : State} {fuel : Nat} (hK : Keeps s0 s) :
    Keeps s0 (State.nextGroup s fuel) := by
  induction fuel generalizing s with
  | zero =>
  unfold State.nextGroup
  repeat' (first
    | (with_reducible assumption)
    | (intro x; first | ((have hx : Keeps s0 x := ?_); (try clear_value x); rotate_left; dsimp -zeta only [x]; rotate_right) | ((have hx : Keeps s0 x.1 := ?_); (try clear_value x); rotate_left; dsimp -zeta only [x]; rotate_right) | ((have hx : Keeps s0 x.2 := ?_); (try clear_value x); rotate_left; dsimp -zeta only [x]; rotate_right) | (clear_value x) | skip)
    | lift_lets -underBinder
    | (with_reducible refine keeps_send ?_ ..)
    | (with_reducible refine keeps_hold ?_ ..)
    | (with_reducible refine keeps_beginHandover ?_ ..)
    | (with_reducible refine keeps_startSlot ?_ ..)
    | (with_reducible refine keeps_ite ?_ ?_)
    | (fail_if_no_progress beta_reduce)
    | (dsimp only [Keeps, part]; with_reducible refine keeps_of ?_; first | with_reducible assumption | (with_reducible refine keeps_send ?_ ..) | (with_reducible refine keeps_hold ?_ ..) | (with_reducible refine keeps_beginHandover ?_ ..) | (with_reducible refine keeps_startSlot ?_ ..))
    | split
    | (refine keeps_ite ?_ ?_))
  | succ n ih =>
  unfold State.nextGroup
  repeat' (first
    | (with_reducible assumption)
    | (intro x; first | ((have hx : Keeps s0 x := ?_); (try clear_value x); rotate_left; dsimp -zeta only [x]; rotate_right) | ((have hx : Keeps s0 x.1 := ?_); (try clear_value x); rotate_left; dsimp -zeta only [x]; rotate_right) | ((have hx : Keeps s0 x.2 := ?_); (try clear_value x); rotate_left; dsimp -zeta only [x]; rotate_right) | (clear_value x) | skip)
    | lift_lets -underBinder
    | (with_reducible apply ih)
    | (with_reducible refine keeps_send ?_ ..)
    | (with_reducible refine keeps_hold ?_ ..)
    | (with_reducible refine keeps_beginHandover ?_ ..)
    | (with_reducible refine keeps_startSlot ?_ ..)
    | (with_reducible refine keeps_ite ?_ ?_)
    | (fail_if_no_progress beta_reduce)
    | (dsimp only [Keeps, part]; with_reducible refine keeps_of ?_; first | with_reducible assumption | (with_reducible refine keeps_send ?_ ..) | (with_reducible refine keeps_hold ?_ ..) | (with_reducible refine keeps_beginHandover ?_ ..) | (with_reducible refine keeps_startSlot ?_ ..))
    | split
    | (refine keeps_ite ?_ ?_))

theorem keeps_takeGroup {s0 s : State} {t : Taking} (hK : Keeps s0 s) :
    Keeps s0 (State.takeGroup s t) := by
  unfold State.takeGroup
  repeat' (first
    | (with_reducible assumption)
    | (intro x; first | ((have hx : Keeps s0 x := ?_); (try clear_value x); rotate_left; dsimp -zeta only [x]; rotate_right) | ((have hx : Keeps s0 x.1 := ?_); (try clear_value x); rotate_left; dsimp -zeta only [x]; rotate_right) | ((have hx : Keeps s0 x.2 := ?_); (try clear_value x); rotate_left; dsimp -zeta only [x]; rotate_right) | (clear_value x) | skip)
    | lift_lets -underBinder
    | (with_reducible refine keeps_send ?_ ..)
    | (with_reducible refine keeps_settle ?_ ..)
    | (with_reducible refine keeps_changeEntry ?_ ..)
    | (with_reducible refine keeps_nextGroup ?_ ..)
    | (with_reducible refine keeps_foldl (fun s x hK => ?_) ?_)
    | (with_reducible refine keeps_foldl_fst (fun s x hK => ?_) ?_)
    | (refine keeps_foldl_eq (by assumption) (fun s x hK => ?_) ?_)
    | (with_reducible refine keeps_ite ?_ ?_)
    | (fail_if_no_progress beta_reduce)
    | (dsimp only [Keeps, part]; with_reducible refine keeps_of ?_; first | with_reducible assumption | (with_reducible refine keeps_send ?_ ..) | (with_reducible refine keeps_settle ?_ ..) | (with_reducible refine keeps_changeEntry ?_ ..) | (with_reducible refine keeps_nextGroup ?_ ..) | (refine keeps_foldl_eq (by assumption) (fun s x hK => ?_) ?_))
    | split
    | (refine keeps_ite ?_ ?_))

theorem keeps_onTakeoverRecord {s0 s : State} (hK : Keeps s0 s) :
    Keeps s0 (State.onTakeoverRecord s) := by
  unfold State.onTakeoverRecord
  repeat' (first
    | (with_reducible assumption)
    | (intro x; first | ((have hx : Keeps s0 x := ?_); (try clear_value x); rotate_left; dsimp -zeta only [x]; rotate_right) | ((have hx : Keeps s0 x.1 := ?_); (try clear_value x); rotate_left; dsimp -zeta only [x]; rotate_right) | ((have hx : Keeps s0 x.2 := ?_); (try clear_value x); rotate_left; dsimp -zeta only [x]; rotate_right) | (clear_value x) | skip)
    | lift_lets -underBinder
    | (with_reducible refine keeps_setReg ?_ ..)
    | (with_reducible refine keeps_takeOver ?_ ..)
    | (with_reducible refine keeps_takeGroup ?_ ..)
    | (with_reducible refine keeps_ite ?_ ?_)
    | (fail_if_no_progress beta_reduce)
    | (dsimp only [Keeps, part]; with_reducible refine keeps_of ?_; first | with_reducible assumption | (with_reducible refine keeps_setReg ?_ ..) | (with_reducible refine keeps_takeOver ?_ ..) | (with_reducible refine keeps_takeGroup ?_ ..))
    | split
    | (refine keeps_ite ?_ ?_))

theorem keeps_execRotateSlotTimer {s0 s : State} {at_ : Nat} (hK : Keeps s0 s) :
    XKeeps s0 (execRotateSlotTimer at_ s) := by
  unfold execRotateSlotTimer
  repeat' (first
    | (with_reducible assumption)
    | (intro x; first | ((have hx : Keeps s0 x := ?_); (try clear_value x); rotate_left; dsimp -zeta only [x]; rotate_right) | ((have hx : Keeps s0 x.1 := ?_); (try clear_value x); rotate_left; dsimp -zeta only [x]; rotate_right) | ((have hx : Keeps s0 x.2 := ?_); (try clear_value x); rotate_left; dsimp -zeta only [x]; rotate_right) | (clear_value x) | skip)
    | lift_lets -underBinder
    | (with_reducible refine keeps_tick ?_ ..)
    | (with_reducible refine keeps_settle ?_ ..)
    | (with_reducible refine keeps_startSlot ?_ ..)
    | (with_reducible refine keeps_nextGroup ?_ ..)
    | (with_reducible refine keeps_ite ?_ ?_)
    | (with_reducible refine xkeeps_next ?_)
    | (fail_if_no_progress beta_reduce)
    | (dsimp only [Keeps, part]; with_reducible refine keeps_of ?_; first | with_reducible assumption | (with_reducible refine keeps_tick ?_ ..) | (with_reducible refine keeps_settle ?_ ..) | (with_reducible refine keeps_startSlot ?_ ..) | (with_reducible refine keeps_nextGroup ?_ ..))
    | split
    | (refine keeps_ite ?_ ?_))

theorem keeps_execHandoverDrainDone {s0 s : State} {at_ : Nat} (hK : Keeps s0 s) :
    XKeeps s0 (execHandoverDrainDone at_ s) := by
  unfold execHandoverDrainDone
  repeat' (first
    | (with_reducible assumption)
    | (intro x; first | ((have hx : Keeps s0 x := ?_); (try clear_value x); rotate_left; dsimp -zeta only [x]; rotate_right) | ((have hx : Keeps s0 x.1 := ?_); (try clear_value x); rotate_left; dsimp -zeta only [x]; rotate_right) | ((have hx : Keeps s0 x.2 := ?_); (try clear_value x); rotate_left; dsimp -zeta only [x]; rotate_right) | (clear_value x) | skip)
    | lift_lets -underBinder
    | (with_reducible refine keeps_tick ?_ ..)
    | (with_reducible refine keeps_send ?_ ..)
    | (with_reducible refine keeps_ite ?_ ?_)
    | (with_reducible refine xkeeps_next ?_)
    | (fail_if_no_progress beta_reduce)
    | (dsimp only [Keeps, part]; with_reducible refine keeps_of ?_; first | with_reducible assumption | (with_reducible refine keeps_tick ?_ ..) | (with_reducible refine keeps_send ?_ ..))
    | split
    | (refine keeps_ite ?_ ?_))

theorem keeps_skipGroup {s0 s : State} (hK : Keeps s0 s) :
    Keeps s0 (State.skipGroup s) := by
  unfold State.skipGroup
  repeat' (first
    | (with_reducible assumption)
    | (intro x; first | ((have hx : Keeps s0 x := ?_); (try clear_value x); rotate_left; dsimp -zeta only [x]; rotate_right) | ((have hx : Keeps s0 x.1 := ?_); (try clear_value x); rotate_left; dsimp -zeta only [x]; rotate_right) | ((have hx : Keeps s0 x.2 := ?_); (try clear_value x); rotate_left; dsimp -zeta only [x]; rotate_right) | (clear_value x) | skip)
    | lift_lets -underBinder
    | (with_reducible refine keeps_raise ?_ ..)
    | (with_reducible refine keeps_settle ?_ ..)
    | (with_reducible refine keeps_retryHeld ?_ ..)
    | (with_reducible refine keeps_dropGroup ?_ ..)
    | (with_reducible refine keeps_nextGroup ?_ ..)
    | (with_reducible refine keeps_ite ?_ ?_)
    | (fail_if_no_progress beta_reduce)
    | (dsimp only [Keeps, part]; with_reducible refine keeps_of ?_; first | with_reducible assumption | (with_reducible refine keeps_raise ?_ ..) | (with_reducible refine keeps_settle ?_ ..) | (with_reducible refine keeps_retryHeld ?_ ..) | (with_reducible refine keeps_dropGroup ?_ ..) | (with_reducible refine keeps_nextGroup ?_ ..))
    | split
    | (refine keeps_ite ?_ ?_))

theorem keeps_onRotateWait {s0 s : State} (hK : Keeps s0 s) :
    Keeps s0 (State.onRotateWait s) := by
  unfold State.onRotateWait
  repeat' (first
    | (with_reducible assumption)
    | (intro x; first | ((have hx : Keeps s0 x := ?_); (try clear_value x); rotate_left; dsimp -zeta only [x]; rotate_right) | ((have hx : Keeps s0 x.1 := ?_); (try clear_value x); rotate_left; dsimp -zeta only [x]; rotate_right) | ((have hx : Keeps s0 x.2 := ?_); (try clear_value x); rotate_left; dsimp -zeta only [x]; rotate_right) | (clear_value x) | skip)
    | lift_lets -underBinder
    | (with_reducible refine keeps_skipGroup ?_ ..)
    | (with_reducible refine keeps_ite ?_ ?_)
    | (fail_if_no_progress beta_reduce)
    | (dsimp only [Keeps, part]; with_reducible refine keeps_of ?_; first | with_reducible assumption | (with_reducible refine keeps_skipGroup ?_ ..))
    | split
    | (refine keeps_ite ?_ ?_))

theorem keeps_onHandoverTimeout {s0 s : State} (hK : Keeps s0 s) :
    Keeps s0 (State.onHandoverTimeout s) := by
  unfold State.onHandoverTimeout
  repeat' (first
    | (with_reducible assumption)
    | (intro x; first | ((have hx : Keeps s0 x := ?_); (try clear_value x); rotate_left; dsimp -zeta only [x]; rotate_right) | ((have hx : Keeps s0 x.1 := ?_); (try clear_value x); rotate_left; dsimp -zeta only [x]; rotate_right) | ((have hx : Keeps s0 x.2 := ?_); (try clear_value x); rotate_left; dsimp -zeta only [x]; rotate_right) | (clear_value x) | skip)
    | lift_lets -underBinder
    | (with_reducible refine keeps_skipGroup ?_ ..)
    | (with_reducible refine keeps_ite ?_ ?_)
    | (fail_if_no_progress beta_reduce)
    | (dsimp only [Keeps, part]; with_reducible refine keeps_of ?_; first | with_reducible assumption | (with_reducible refine keeps_skipGroup ?_ ..))
    | split
    | (refine keeps_ite ?_ ?_))

theorem keeps_writeRotate {s0 s : State} {via : Via} {w : AccW} {v : Word} (hK : Keeps s0 s) :
    Keeps s0 (State.writeRotate s via w v) := by
  unfold State.writeRotate
  repeat' (first
    | (with_reducible assumption)
    | (intro x; first | ((have hx : Keeps s0 x := ?_); (try clear_value x); rotate_left; dsimp -zeta only [x]; rotate_right) | ((have hx : Keeps s0 x.1 := ?_); (try clear_value x); rotate_left; dsimp -zeta only [x]; rotate_right) | ((have hx : Keeps s0 x.2 := ?_); (try clear_value x); rotate_left; dsimp -zeta only [x]; rotate_right) | (clear_value x) | skip)
    | lift_lets -underBinder
    | (with_reducible refine keeps_settle ?_ ..)
    | (with_reducible refine keeps_writeFields ?_ ..)
    | (with_reducible refine keeps_writeAt ?_ ?_ ..)
    | (with_reducible refine keeps_nextGroup ?_ ..)
    | (with_reducible refine keeps_ite ?_ ?_)
    | (fail_if_no_progress beta_reduce)
    | (dsimp only [Keeps, part]; with_reducible refine keeps_of ?_; first | with_reducible assumption | (with_reducible refine keeps_settle ?_ ..) | (with_reducible refine keeps_writeFields ?_ ..) | (with_reducible refine keeps_writeAt ?_ ?_ ..) | (with_reducible refine keeps_nextGroup ?_ ..))
    | split
    | (refine keeps_ite ?_ ?_))

theorem keeps_twCode {s0 s : State} {code : Nat} (hK : Keeps s0 s) :
    Keeps s0 (State.twCode s code) := by
  unfold State.twCode
  repeat' (first
    | (with_reducible assumption)
    | (intro x; first | ((have hx : Keeps s0 x := ?_); (try clear_value x); rotate_left; dsimp -zeta only [x]; rotate_right) | ((have hx : Keeps s0 x.1 := ?_); (try clear_value x); rotate_left; dsimp -zeta only [x]; rotate_right) | ((have hx : Keeps s0 x.2 := ?_); (try clear_value x); rotate_left; dsimp -zeta only [x]; rotate_right) | (clear_value x) | skip)
    | lift_lets -underBinder
    | (with_reducible refine keeps_put ?_ ..)
    | (with_reducible refine keeps_ite ?_ ?_)
    | (fail_if_no_progress beta_reduce)
    | (dsimp only [Keeps, part]; with_reducible refine keeps_of ?_; first | with_reducible assumption | (with_reducible refine keeps_put ?_ ..))
    | split
    | (refine keeps_ite ?_ ?_))

theorem keeps_cmdYield {s0 s : State} (hK : Keeps s0 s) :
    Keeps s0 (State.cmdYield s) := by
  unfold State.cmdYield
  repeat' (first
    | (with_reducible assumption)
    | (intro x; first | ((have hx : Keeps s0 x := ?_); (try clear_value x); rotate_left; dsimp -zeta only [x]; rotate_right) | ((have hx : Keeps s0 x.1 := ?_); (try clear_value x); rotate_left; dsimp -zeta only [x]; rotate_right) | ((have hx : Keeps s0 x.2 := ?_); (try clear_value x); rotate_left; dsimp -zeta only [x]; rotate_right) | (clear_value x) | skip)
    | lift_lets -underBinder
    | (with_reducible refine keeps_startYield ?_ ..)
    | (with_reducible refine keeps_twCode ?_ ..)
    | (with_reducible refine keeps_ite ?_ ?_)
    | (fail_if_no_progress beta_reduce)
    | (dsimp only [Keeps, part]; with_reducible refine keeps_of ?_; first | with_reducible assumption | (with_reducible refine keeps_startYield ?_ ..) | (with_reducible refine keeps_twCode ?_ ..))
    | split
    | (refine keeps_ite ?_ ?_))

theorem keeps_cmdDeclareLost {s0 s : State} (hK : Keeps s0 s) :
    Keeps s0 (State.cmdDeclareLost s) := by
  unfold State.cmdDeclareLost
  repeat' (first
    | (with_reducible assumption)
    | (intro x; first | ((have hx : Keeps s0 x := ?_); (try clear_value x); rotate_left; dsimp -zeta only [x]; rotate_right) | ((have hx : Keeps s0 x.1 := ?_); (try clear_value x); rotate_left; dsimp -zeta only [x]; rotate_right) | ((have hx : Keeps s0 x.2 := ?_); (try clear_value x); rotate_left; dsimp -zeta only [x]; rotate_right) | (clear_value x) | skip)
    | lift_lets -underBinder
    | (with_reducible refine keeps_enterTaking ?_ ..)
    | (with_reducible refine keeps_twCode ?_ ..)
    | (with_reducible refine keeps_ite ?_ ?_)
    | (fail_if_no_progress beta_reduce)
    | (dsimp only [Keeps, part]; with_reducible refine keeps_of ?_; first | with_reducible assumption | (with_reducible refine keeps_enterTaking ?_ ..) | (with_reducible refine keeps_twCode ?_ ..))
    | split
    | (refine keeps_ite ?_ ?_))

theorem keeps_cmdRotateNow {s0 s : State} (hK : Keeps s0 s) :
    Keeps s0 (State.cmdRotateNow s) := by
  unfold State.cmdRotateNow
  repeat' (first
    | (with_reducible assumption)
    | (intro x; first | ((have hx : Keeps s0 x := ?_); (try clear_value x); rotate_left; dsimp -zeta only [x]; rotate_right) | ((have hx : Keeps s0 x.1 := ?_); (try clear_value x); rotate_left; dsimp -zeta only [x]; rotate_right) | ((have hx : Keeps s0 x.2 := ?_); (try clear_value x); rotate_left; dsimp -zeta only [x]; rotate_right) | (clear_value x) | skip)
    | lift_lets -underBinder
    | (with_reducible refine keeps_settle ?_ ..)
    | (with_reducible refine keeps_startSlot ?_ ..)
    | (with_reducible refine keeps_nextGroup ?_ ..)
    | (with_reducible refine keeps_twCode ?_ ..)
    | (with_reducible refine keeps_ite ?_ ?_)
    | (fail_if_no_progress beta_reduce)
    | (dsimp only [Keeps, part]; with_reducible refine keeps_of ?_; first | with_reducible assumption | (with_reducible refine keeps_settle ?_ ..) | (with_reducible refine keeps_startSlot ?_ ..) | (with_reducible refine keeps_nextGroup ?_ ..) | (with_reducible refine keeps_twCode ?_ ..))
    | split
    | (refine keeps_ite ?_ ?_))

theorem keeps_cmdFullRejoin {s0 s : State} (hK : Keeps s0 s) :
    Keeps s0 (State.cmdFullRejoin s) := by
  unfold State.cmdFullRejoin
  repeat' (first
    | (with_reducible assumption)
    | (intro x; first | ((have hx : Keeps s0 x := ?_); (try clear_value x); rotate_left; dsimp -zeta only [x]; rotate_right) | ((have hx : Keeps s0 x.1 := ?_); (try clear_value x); rotate_left; dsimp -zeta only [x]; rotate_right) | ((have hx : Keeps s0 x.2 := ?_); (try clear_value x); rotate_left; dsimp -zeta only [x]; rotate_right) | (clear_value x) | skip)
    | lift_lets -underBinder
    | (with_reducible refine keeps_twCode ?_ ..)
    | (with_reducible refine keeps_ite ?_ ?_)
    | (fail_if_no_progress beta_reduce)
    | (dsimp only [Keeps, part]; with_reducible refine keeps_of ?_; first | with_reducible assumption | (with_reducible refine keeps_twCode ?_ ..))
    | split
    | (refine keeps_ite ?_ ?_))

theorem keeps_twRun {s0 s : State} {op : Nat} (hK : Keeps s0 s) :
    Keeps s0 (State.twRun s op) := by
  unfold State.twRun
  repeat' (first
    | (with_reducible assumption)
    | (intro x; first | ((have hx : Keeps s0 x := ?_); (try clear_value x); rotate_left; dsimp -zeta only [x]; rotate_right) | ((have hx : Keeps s0 x.1 := ?_); (try clear_value x); rotate_left; dsimp -zeta only [x]; rotate_right) | ((have hx : Keeps s0 x.2 := ?_); (try clear_value x); rotate_left; dsimp -zeta only [x]; rotate_right) | (clear_value x) | skip)
    | lift_lets -underBinder
    | (with_reducible refine keeps_put ?_ ..)
    | (with_reducible refine keeps_raise ?_ ..)
    | (with_reducible refine keeps_twCode ?_ ..)
    | (with_reducible refine keeps_cmdYield ?_ ..)
    | (with_reducible refine keeps_cmdDeclareLost ?_ ..)
    | (with_reducible refine keeps_cmdRotateNow ?_ ..)
    | (with_reducible refine keeps_cmdFullRejoin ?_ ..)
    | (with_reducible refine keeps_ite ?_ ?_)
    | (fail_if_no_progress beta_reduce)
    | (dsimp only [Keeps, part]; with_reducible refine keeps_of ?_; first | with_reducible assumption | (with_reducible refine keeps_put ?_ ..) | (with_reducible refine keeps_raise ?_ ..) | (with_reducible refine keeps_twCode ?_ ..) | (with_reducible refine keeps_cmdYield ?_ ..) | (with_reducible refine keeps_cmdDeclareLost ?_ ..) | (with_reducible refine keeps_cmdRotateNow ?_ ..) | (with_reducible refine keeps_cmdFullRejoin ?_ ..))
    | split
    | (refine keeps_ite ?_ ?_))

theorem keeps_execTwCmdYield {s0 s : State} {via : Via} {at_ : Nat} (hK : Keeps s0 s) :
    XKeeps s0 (execTwCmdYield via at_ s) := by
  unfold execTwCmdYield
  repeat' (first
    | (with_reducible assumption)
    | (intro x; first | ((have hx : Keeps s0 x := ?_); (try clear_value x); rotate_left; dsimp -zeta only [x]; rotate_right) | ((have hx : Keeps s0 x.1 := ?_); (try clear_value x); rotate_left; dsimp -zeta only [x]; rotate_right) | ((have hx : Keeps s0 x.2 := ?_); (try clear_value x); rotate_left; dsimp -zeta only [x]; rotate_right) | (clear_value x) | skip)
    | lift_lets -underBinder
    | (with_reducible refine keeps_tick ?_ ..)
    | (with_reducible refine keeps_command ?_ ?_ ..)
    | (with_reducible refine keeps_twRun ?_ ..)
    | (with_reducible refine keeps_ite ?_ ?_)
    | (with_reducible refine xkeeps_next ?_)
    | (fail_if_no_progress beta_reduce)
    | (dsimp only [Keeps, part]; with_reducible refine keeps_of ?_; first | with_reducible assumption | (with_reducible refine keeps_tick ?_ ..) | (with_reducible refine keeps_command ?_ ?_ ..) | (with_reducible refine keeps_twRun ?_ ..))
    | split
    | (refine keeps_ite ?_ ?_))

theorem keeps_execDeclareLost {s0 s : State} {via : Via} {at_ : Nat} (hK : Keeps s0 s) :
    XKeeps s0 (execDeclareLost via at_ s) := by
  unfold execDeclareLost
  repeat' (first
    | (with_reducible assumption)
    | (intro x; first | ((have hx : Keeps s0 x := ?_); (try clear_value x); rotate_left; dsimp -zeta only [x]; rotate_right) | ((have hx : Keeps s0 x.1 := ?_); (try clear_value x); rotate_left; dsimp -zeta only [x]; rotate_right) | ((have hx : Keeps s0 x.2 := ?_); (try clear_value x); rotate_left; dsimp -zeta only [x]; rotate_right) | (clear_value x) | skip)
    | lift_lets -underBinder
    | (with_reducible refine keeps_tick ?_ ..)
    | (with_reducible refine keeps_command ?_ ?_ ..)
    | (with_reducible refine keeps_twRun ?_ ..)
    | (with_reducible refine keeps_ite ?_ ?_)
    | (with_reducible refine xkeeps_next ?_)
    | (fail_if_no_progress beta_reduce)
    | (dsimp only [Keeps, part]; with_reducible refine keeps_of ?_; first | with_reducible assumption | (with_reducible refine keeps_tick ?_ ..) | (with_reducible refine keeps_command ?_ ?_ ..) | (with_reducible refine keeps_twRun ?_ ..))
    | split
    | (refine keeps_ite ?_ ?_))

theorem keeps_execRotateNow {s0 s : State} {via : Via} {at_ : Nat} (hK : Keeps s0 s) :
    XKeeps s0 (execRotateNow via at_ s) := by
  unfold execRotateNow
  repeat' (first
    | (with_reducible assumption)
    | (intro x; first | ((have hx : Keeps s0 x := ?_); (try clear_value x); rotate_left; dsimp -zeta only [x]; rotate_right) | ((have hx : Keeps s0 x.1 := ?_); (try clear_value x); rotate_left; dsimp -zeta only [x]; rotate_right) | ((have hx : Keeps s0 x.2 := ?_); (try clear_value x); rotate_left; dsimp -zeta only [x]; rotate_right) | (clear_value x) | skip)
    | lift_lets -underBinder
    | (with_reducible refine keeps_tick ?_ ..)
    | (with_reducible refine keeps_command ?_ ?_ ..)
    | (with_reducible refine keeps_twRun ?_ ..)
    | (with_reducible refine keeps_ite ?_ ?_)
    | (with_reducible refine xkeeps_next ?_)
    | (fail_if_no_progress beta_reduce)
    | (dsimp only [Keeps, part]; with_reducible refine keeps_of ?_; first | with_reducible assumption | (with_reducible refine keeps_tick ?_ ..) | (with_reducible refine keeps_command ?_ ?_ ..) | (with_reducible refine keeps_twRun ?_ ..))
    | split
    | (refine keeps_ite ?_ ?_))

theorem keeps_execFullRejoin {s0 s : State} {via : Via} {at_ : Nat} (hK : Keeps s0 s) :
    XKeeps s0 (execFullRejoin via at_ s) := by
  unfold execFullRejoin
  repeat' (first
    | (with_reducible assumption)
    | (intro x; first | ((have hx : Keeps s0 x := ?_); (try clear_value x); rotate_left; dsimp -zeta only [x]; rotate_right) | ((have hx : Keeps s0 x.1 := ?_); (try clear_value x); rotate_left; dsimp -zeta only [x]; rotate_right) | ((have hx : Keeps s0 x.2 := ?_); (try clear_value x); rotate_left; dsimp -zeta only [x]; rotate_right) | (clear_value x) | skip)
    | lift_lets -underBinder
    | (with_reducible refine keeps_tick ?_ ..)
    | (with_reducible refine keeps_command ?_ ?_ ..)
    | (with_reducible refine keeps_twRun ?_ ..)
    | (with_reducible refine keeps_ite ?_ ?_)
    | (with_reducible refine xkeeps_next ?_)
    | (fail_if_no_progress beta_reduce)
    | (dsimp only [Keeps, part]; with_reducible refine keeps_of ?_; first | with_reducible assumption | (with_reducible refine keeps_tick ?_ ..) | (with_reducible refine keeps_command ?_ ?_ ..) | (with_reducible refine keeps_twRun ?_ ..))
    | split
    | (refine keeps_ite ?_ ?_))

theorem keeps_execTwMissStatRead {s0 s : State} {via : Via} {w : AccW} (hK : Keeps s0 s) :
    XKeeps s0 (execTwMissStatRead via w s) := by
  unfold execTwMissStatRead
  repeat' (first
    | (with_reducible assumption)
    | (intro x; first | ((have hx : Keeps s0 x := ?_); (try clear_value x); rotate_left; dsimp -zeta only [x]; rotate_right) | ((have hx : Keeps s0 x.1 := ?_); (try clear_value x); rotate_left; dsimp -zeta only [x]; rotate_right) | ((have hx : Keeps s0 x.2 := ?_); (try clear_value x); rotate_left; dsimp -zeta only [x]; rotate_right) | (clear_value x) | skip)
    | lift_lets -underBinder
    | (with_reducible refine keeps_readCounters ?_ ..)
    | (with_reducible refine keeps_ite ?_ ?_)
    | (with_reducible refine xkeeps_next ?_)
    | (fail_if_no_progress beta_reduce)
    | (dsimp only [Keeps, part]; with_reducible refine keeps_of ?_; first | with_reducible assumption | (with_reducible refine keeps_readCounters ?_ ..))
    | split
    | (refine keeps_ite ?_ ?_))

end Sys2Proof.Laws
end

