-- ==== Sys2Proof/Laws/KeepsLinks.lean ====
section
/-! SUPPORT. Every operation of Machine/Links.lean keeps what Laws/Keeps.lean says. -/

set_option linter.unusedTactic false
set_option linter.unreachableTactic false
set_option linter.unusedVariables false

namespace Sys2Proof.Laws

open Sys2Proof Machine

theorem keeps_refuse {s0 s : State} {h : Hdr} {p : Payload} {status : Nat} (hK : Keeps s0 s) :
    Keeps s0 (State.refuse s h p status) := by
  unfold State.refuse
  repeat' (first
    | (with_reducible assumption)
    | (intro x; first | ((have hx : Keeps s0 x := ?_); (try clear_value x); rotate_left; dsimp -zeta only [x]; rotate_right) | ((have hx : Keeps s0 x.1 := ?_); (try clear_value x); rotate_left; dsimp -zeta only [x]; rotate_right) | ((have hx : Keeps s0 x.2 := ?_); (try clear_value x); rotate_left; dsimp -zeta only [x]; rotate_right) | (clear_value x) | skip)
    | lift_lets -underBinder
    | (with_reducible refine keeps_send ?_ ..)
    | (with_reducible refine keeps_reply ?_ ..)
    | (with_reducible refine keeps_ite ?_ ?_)
    | (fail_if_no_progress beta_reduce)
    | (dsimp only [Keeps, part]; with_reducible refine keeps_of ?_; first | with_reducible assumption | (with_reducible refine keeps_send ?_ ..) | (with_reducible refine keeps_reply ?_ ..))
    | split
    | (refine keeps_ite ?_ ?_))

theorem keeps_gate {s0 s : State} {h : Hdr} {p : Payload} {act : State → State} (hK : Keeps s0 s) (hact : ∀ t, Keeps s0 t → Keeps s0 (act t)) :
    Keeps s0 (State.gate s h p act) := by
  unfold State.gate
  repeat' (first
    | (with_reducible assumption)
    | (intro x; first | ((have hx : Keeps s0 x := ?_); (try clear_value x); rotate_left; dsimp -zeta only [x]; rotate_right) | ((have hx : Keeps s0 x.1 := ?_); (try clear_value x); rotate_left; dsimp -zeta only [x]; rotate_right) | ((have hx : Keeps s0 x.2 := ?_); (try clear_value x); rotate_left; dsimp -zeta only [x]; rotate_right) | (clear_value x) | skip)
    | lift_lets -underBinder
    | (with_reducible refine hact _ _ _ ?_)
    | (with_reducible refine hact _ ?_)
    | (with_reducible refine hact _ _ ?_)
    | (with_reducible refine keeps_raise ?_ ..)
    | (with_reducible refine keeps_send ?_ ..)
    | (with_reducible refine keeps_raiseGate ?_ ..)
    | (with_reducible refine keeps_learnStale ?_ ..)
    | (with_reducible refine keeps_refuse ?_ ..)
    | (with_reducible refine keeps_foldl (fun s x hK => ?_) ?_)
    | (with_reducible refine keeps_foldl_fst (fun s x hK => ?_) ?_)
    | (refine keeps_foldl_eq (by assumption) (fun s x hK => ?_) ?_)
    | (with_reducible refine keeps_ite ?_ ?_)
    | (fail_if_no_progress beta_reduce)
    | (dsimp only [Keeps, part]; with_reducible refine keeps_of ?_; first | with_reducible assumption | (with_reducible refine keeps_raise ?_ ..) | (with_reducible refine keeps_send ?_ ..) | (with_reducible refine keeps_raiseGate ?_ ..) | (with_reducible refine keeps_learnStale ?_ ..) | (with_reducible refine keeps_refuse ?_ ..) | (refine keeps_foldl_eq (by assumption) (fun s x hK => ?_) ?_))
    | split
    | (refine keeps_ite ?_ ?_))

theorem keeps_takeMirror {s0 s : State} {h : Hdr} {be : Word} {data : LineData} (hK : Keeps s0 s) :
    Keeps s0 (State.takeMirror s h be data) := by
  unfold State.takeMirror
  repeat' (first
    | (with_reducible assumption)
    | (intro x; first | ((have hx : Keeps s0 x := ?_); (try clear_value x); rotate_left; dsimp -zeta only [x]; rotate_right) | ((have hx : Keeps s0 x.1 := ?_); (try clear_value x); rotate_left; dsimp -zeta only [x]; rotate_right) | ((have hx : Keeps s0 x.2 := ?_); (try clear_value x); rotate_left; dsimp -zeta only [x]; rotate_right) | (clear_value x) | skip)
    | lift_lets -underBinder
    | (with_reducible refine keeps_raiseOff ?_ ..)
    | (with_reducible refine keeps_reply ?_ ..)
    | (with_reducible refine keeps_submit ?_ ..)
    | (with_reducible refine keeps_settle ?_ ..)
    | (with_reducible refine keeps_ite ?_ ?_)
    | (fail_if_no_progress beta_reduce)
    | (dsimp only [Keeps, part]; with_reducible refine keeps_of ?_; first | with_reducible assumption | (with_reducible refine keeps_raiseOff ?_ ..) | (with_reducible refine keeps_reply ?_ ..) | (with_reducible refine keeps_submit ?_ ..) | (with_reducible refine keeps_settle ?_ ..))
    | split
    | (refine keeps_ite ?_ ?_))

theorem keeps_savedOff {s0 s : State} {r : Req} {need : Bool} {wt : Bool} {tag : Nat} (hK : Keeps s0 s) :
    Keeps s0 (State.savedOff s r need wt tag) := by
  unfold State.savedOff
  repeat' (first
    | (with_reducible assumption)
    | (intro x; first | ((have hx : Keeps s0 x := ?_); (try clear_value x); rotate_left; dsimp -zeta only [x]; rotate_right) | ((have hx : Keeps s0 x.1 := ?_); (try clear_value x); rotate_left; dsimp -zeta only [x]; rotate_right) | ((have hx : Keeps s0 x.2 := ?_); (try clear_value x); rotate_left; dsimp -zeta only [x]; rotate_right) | (clear_value x) | skip)
    | lift_lets -underBinder
    | (with_reducible refine keeps_startSpanWrite ?_ ..)
    | (with_reducible refine keeps_putReq ?_ ..)
    | (with_reducible refine keeps_dropPeerParts ?_ ..)
    | (with_reducible refine keeps_setSt ?_ ..)
    | (with_reducible refine keeps_ite ?_ ?_)
    | (fail_if_no_progress beta_reduce)
    | (dsimp only [Keeps, part]; with_reducible refine keeps_of ?_; first | with_reducible assumption | (with_reducible refine keeps_startSpanWrite ?_ ..) | (with_reducible refine keeps_putReq ?_ ..) | (with_reducible refine keeps_dropPeerParts ?_ ..) | (with_reducible refine keeps_setSt ?_ ..))
    | split
    | (refine keeps_ite ?_ ?_))

theorem keeps_staleStore {s0 s : State} {r : Req} (hK : Keeps s0 s) :
    Keeps s0 (State.staleStore s r) := by
  unfold State.staleStore
  repeat' (first
    | (with_reducible assumption)
    | (intro x; first | ((have hx : Keeps s0 x := ?_); (try clear_value x); rotate_left; dsimp -zeta only [x]; rotate_right) | ((have hx : Keeps s0 x.1 := ?_); (try clear_value x); rotate_left; dsimp -zeta only [x]; rotate_right) | ((have hx : Keeps s0 x.2 := ?_); (try clear_value x); rotate_left; dsimp -zeta only [x]; rotate_right) | (clear_value x) | skip)
    | lift_lets -underBinder
    | (with_reducible refine keeps_raise ?_ ..)
    | (with_reducible refine keeps_send ?_ ..)
    | (with_reducible refine keeps_hold ?_ ..)
    | (with_reducible refine keeps_staleRejoin ?_ ..)
    | (with_reducible refine keeps_learnStale ?_ ..)
    | (with_reducible refine keeps_gate ?_ ?_ ..)
    | (with_reducible refine keeps_ite ?_ ?_)
    | (fail_if_no_progress beta_reduce)
    | (dsimp only [Keeps, part]; with_reducible refine keeps_of ?_; first | with_reducible assumption | (with_reducible refine keeps_raise ?_ ..) | (with_reducible refine keeps_send ?_ ..) | (with_reducible refine keeps_hold ?_ ..) | (with_reducible refine keeps_staleRejoin ?_ ..) | (with_reducible refine keeps_learnStale ?_ ..) | (with_reducible refine keeps_gate ?_ ?_ ..))
    | split
    | (refine keeps_ite ?_ ?_))

theorem keeps_copyAgain {s0 s : State} {sp : Nat} (hK : Keeps s0 s) :
    Keeps s0 (State.copyAgain s sp) := by
  unfold State.copyAgain
  repeat' (first
    | (with_reducible assumption)
    | (intro x; first | ((have hx : Keeps s0 x := ?_); (try clear_value x); rotate_left; dsimp -zeta only [x]; rotate_right) | ((have hx : Keeps s0 x.1 := ?_); (try clear_value x); rotate_left; dsimp -zeta only [x]; rotate_right) | ((have hx : Keeps s0 x.2 := ?_); (try clear_value x); rotate_left; dsimp -zeta only [x]; rotate_right) | (clear_value x) | skip)
    | lift_lets -underBinder
    | (with_reducible refine keeps_put ?_ ..)
    | (with_reducible refine keeps_ite ?_ ?_)
    | (fail_if_no_progress beta_reduce)
    | (dsimp only [Keeps, part]; with_reducible refine keeps_of ?_; first | with_reducible assumption | (with_reducible refine keeps_put ?_ ..))
    | split
    | (refine keeps_ite ?_ ?_))

theorem keeps_takeAck {s0 s : State} {h : Hdr} (hK : Keeps s0 s) :
    Keeps s0 (State.takeAck s h) := by
  unfold State.takeAck
  repeat' (first
    | (with_reducible assumption)
    | (intro x; first | ((have hx : Keeps s0 x := ?_); (try clear_value x); rotate_left; dsimp -zeta only [x]; rotate_right) | ((have hx : Keeps s0 x.1 := ?_); (try clear_value x); rotate_left; dsimp -zeta only [x]; rotate_right) | ((have hx : Keeps s0 x.2 := ?_); (try clear_value x); rotate_left; dsimp -zeta only [x]; rotate_right) | (clear_value x) | skip)
    | lift_lets -underBinder
    | (with_reducible refine keeps_flushStream ?_ ..)
    | (with_reducible refine keeps_putReq ?_ ..)
    | (with_reducible refine keeps_settle ?_ ..)
    | (with_reducible refine keeps_checkFed ?_ ..)
    | (with_reducible refine keeps_savedOff ?_ ..)
    | (with_reducible refine keeps_staleStore ?_ ..)
    | (with_reducible refine keeps_copyAgain ?_ ..)
    | (with_reducible refine keeps_ite ?_ ?_)
    | (fail_if_no_progress beta_reduce)
    | (dsimp only [Keeps, part]; with_reducible refine keeps_of ?_; first | with_reducible assumption | (with_reducible refine keeps_flushStream ?_ ..) | (with_reducible refine keeps_putReq ?_ ..) | (with_reducible refine keeps_settle ?_ ..) | (with_reducible refine keeps_checkFed ?_ ..) | (with_reducible refine keeps_savedOff ?_ ..) | (with_reducible refine keeps_staleStore ?_ ..) | (with_reducible refine keeps_copyAgain ?_ ..))
    | split
    | (refine keeps_ite ?_ ?_))

theorem keeps_resendMirror {s0 s : State} {r : Req} {tag : Nat} (hK : Keeps s0 s) :
    Keeps s0 (State.resendMirror s r tag) := by
  unfold State.resendMirror
  repeat' (first
    | (with_reducible assumption)
    | (intro x; first | ((have hx : Keeps s0 x := ?_); (try clear_value x); rotate_left; dsimp -zeta only [x]; rotate_right) | ((have hx : Keeps s0 x.1 := ?_); (try clear_value x); rotate_left; dsimp -zeta only [x]; rotate_right) | ((have hx : Keeps s0 x.2 := ?_); (try clear_value x); rotate_left; dsimp -zeta only [x]; rotate_right) | (clear_value x) | skip)
    | lift_lets -underBinder
    | (with_reducible refine keeps_startSpanWrite ?_ ..)
    | (with_reducible refine keeps_putReq ?_ ..)
    | (with_reducible refine keeps_sendMirror ?_ ..)
    | (with_reducible refine keeps_ite ?_ ?_)
    | (fail_if_no_progress beta_reduce)
    | (dsimp only [Keeps, part]; with_reducible refine keeps_of ?_; first | with_reducible assumption | (with_reducible refine keeps_startSpanWrite ?_ ..) | (with_reducible refine keeps_putReq ?_ ..) | (with_reducible refine keeps_sendMirror ?_ ..))
    | split
    | (refine keeps_ite ?_ ?_))

theorem keeps_takeRead {s0 s : State} {h : Hdr} {lines : Nat} {repair : Bool} (hK : Keeps s0 s) :
    Keeps s0 (State.takeRead s h lines repair) := by
  unfold State.takeRead
  repeat' (first
    | (with_reducible assumption)
    | (intro x; first | ((have hx : Keeps s0 x := ?_); (try clear_value x); rotate_left; dsimp -zeta only [x]; rotate_right) | ((have hx : Keeps s0 x.1 := ?_); (try clear_value x); rotate_left; dsimp -zeta only [x]; rotate_right) | ((have hx : Keeps s0 x.2 := ?_); (try clear_value x); rotate_left; dsimp -zeta only [x]; rotate_right) | (clear_value x) | skip)
    | lift_lets -underBinder
    | (with_reducible refine keeps_heatLines ?_ ..)
    | (with_reducible refine keeps_submit ?_ ..)
    | (with_reducible refine keeps_settle ?_ ..)
    | (with_reducible refine keeps_urgent ?_ ..)
    | (with_reducible refine keeps_foldl (fun s x hK => ?_) ?_)
    | (with_reducible refine keeps_foldl_fst (fun s x hK => ?_) ?_)
    | (refine keeps_foldl_eq (by assumption) (fun s x hK => ?_) ?_)
    | (with_reducible refine keeps_ite ?_ ?_)
    | (fail_if_no_progress beta_reduce)
    | (dsimp only [Keeps, part]; with_reducible refine keeps_of ?_; first | with_reducible assumption | (with_reducible refine keeps_heatLines ?_ ..) | (with_reducible refine keeps_submit ?_ ..) | (with_reducible refine keeps_settle ?_ ..) | (with_reducible refine keeps_urgent ?_ ..) | (refine keeps_foldl_eq (by assumption) (fun s x hK => ?_) ?_))
    | split
    | (refine keeps_ite ?_ ?_))

theorem keeps_takeWrite {s0 s : State} {h : Hdr} {be : Word} {data : LineData} (hK : Keeps s0 s) :
    Keeps s0 (State.takeWrite s h be data) := by
  unfold State.takeWrite
  repeat' (first
    | (with_reducible assumption)
    | (intro x; first | ((have hx : Keeps s0 x := ?_); (try clear_value x); rotate_left; dsimp -zeta only [x]; rotate_right) | ((have hx : Keeps s0 x.1 := ?_); (try clear_value x); rotate_left; dsimp -zeta only [x]; rotate_right) | ((have hx : Keeps s0 x.2 := ?_); (try clear_value x); rotate_left; dsimp -zeta only [x]; rotate_right) | (clear_value x) | skip)
    | lift_lets -underBinder
    | (with_reducible refine keeps_submit ?_ ..)
    | (with_reducible refine keeps_settle ?_ ..)
    | (with_reducible refine keeps_ite ?_ ?_)
    | (fail_if_no_progress beta_reduce)
    | (dsimp only [Keeps, part]; with_reducible refine keeps_of ?_; first | with_reducible assumption | (with_reducible refine keeps_submit ?_ ..) | (with_reducible refine keeps_settle ?_ ..))
    | split
    | (refine keeps_ite ?_ ?_))

theorem keeps_staleForward {s0 s : State} {r : Req} {src : Nat} (hK : Keeps s0 s) :
    Keeps s0 (State.staleForward s r src) := by
  unfold State.staleForward
  repeat' (first
    | (with_reducible assumption)
    | (intro x; first | ((have hx : Keeps s0 x := ?_); (try clear_value x); rotate_left; dsimp -zeta only [x]; rotate_right) | ((have hx : Keeps s0 x.1 := ?_); (try clear_value x); rotate_left; dsimp -zeta only [x]; rotate_right) | ((have hx : Keeps s0 x.2 := ?_); (try clear_value x); rotate_left; dsimp -zeta only [x]; rotate_right) | (clear_value x) | skip)
    | lift_lets -underBinder
    | (with_reducible refine keeps_send ?_ ..)
    | (with_reducible refine keeps_hold ?_ ..)
    | (with_reducible refine keeps_gate ?_ ?_ ..)
    | (with_reducible refine keeps_ite ?_ ?_)
    | (fail_if_no_progress beta_reduce)
    | (dsimp only [Keeps, part]; with_reducible refine keeps_of ?_; first | with_reducible assumption | (with_reducible refine keeps_send ?_ ..) | (with_reducible refine keeps_hold ?_ ..) | (with_reducible refine keeps_gate ?_ ?_ ..))
    | split
    | (refine keeps_ite ?_ ?_))

theorem keeps_takeData {s0 s : State} {h : Hdr} {pmap : Word} {lines : List LineData} (hK : Keeps s0 s) :
    Keeps s0 (State.takeData s h pmap lines) := by
  unfold State.takeData
  repeat' (first
    | (with_reducible assumption)
    | (intro x; first | ((have hx : Keeps s0 x := ?_); (try clear_value x); rotate_left; dsimp -zeta only [x]; rotate_right) | ((have hx : Keeps s0 x.1 := ?_); (try clear_value x); rotate_left; dsimp -zeta only [x]; rotate_right) | ((have hx : Keeps s0 x.2 := ?_); (try clear_value x); rotate_left; dsimp -zeta only [x]; rotate_right) | (clear_value x) | skip)
    | lift_lets -underBinder
    | (with_reducible refine keeps_namedCode ?_ ..)
    | (refine keeps_namedCode_eq (by assumption) ?_)
    | (with_reducible refine keeps_finish ?_ ..)
    | (with_reducible refine keeps_hold ?_ ..)
    | (with_reducible refine keeps_settle ?_ ..)
    | (with_reducible refine keeps_staleForward ?_ ..)
    | (with_reducible refine keeps_ite ?_ ?_)
    | (fail_if_no_progress beta_reduce)
    | (dsimp only [Keeps, part]; with_reducible refine keeps_of ?_; first | with_reducible assumption | (with_reducible refine keeps_namedCode ?_ ..) | (refine keeps_namedCode_eq (by assumption) ?_) | (with_reducible refine keeps_finish ?_ ..) | (with_reducible refine keeps_hold ?_ ..) | (with_reducible refine keeps_settle ?_ ..) | (with_reducible refine keeps_staleForward ?_ ..))
    | split
    | (refine keeps_ite ?_ ?_))

theorem keeps_takeCmp {s0 s : State} {h : Hdr} (hK : Keeps s0 s) :
    Keeps s0 (State.takeCmp s h) := by
  unfold State.takeCmp
  repeat' (first
    | (with_reducible assumption)
    | (intro x; first | ((have hx : Keeps s0 x := ?_); (try clear_value x); rotate_left; dsimp -zeta only [x]; rotate_right) | ((have hx : Keeps s0 x.1 := ?_); (try clear_value x); rotate_left; dsimp -zeta only [x]; rotate_right) | ((have hx : Keeps s0 x.2 := ?_); (try clear_value x); rotate_left; dsimp -zeta only [x]; rotate_right) | (clear_value x) | skip)
    | lift_lets -underBinder
    | (with_reducible refine keeps_namedCode ?_ ..)
    | (refine keeps_namedCode_eq (by assumption) ?_)
    | (with_reducible refine keeps_finish ?_ ..)
    | (with_reducible refine keeps_hold ?_ ..)
    | (with_reducible refine keeps_settle ?_ ..)
    | (with_reducible refine keeps_staleForward ?_ ..)
    | (with_reducible refine keeps_ite ?_ ?_)
    | (fail_if_no_progress beta_reduce)
    | (dsimp only [Keeps, part]; with_reducible refine keeps_of ?_; first | with_reducible assumption | (with_reducible refine keeps_namedCode ?_ ..) | (refine keeps_namedCode_eq (by assumption) ?_) | (with_reducible refine keeps_finish ?_ ..) | (with_reducible refine keeps_hold ?_ ..) | (with_reducible refine keeps_settle ?_ ..) | (with_reducible refine keeps_staleForward ?_ ..))
    | split
    | (refine keeps_ite ?_ ?_))

theorem keeps_takeRepairData {s0 s : State} {h : Hdr} {pmap : Word} {lines : List LineData} (hK : Keeps s0 s) :
    Keeps s0 (State.takeRepairData s h pmap lines) := by
  unfold State.takeRepairData
  repeat' (first
    | (with_reducible assumption)
    | (intro x; first | ((have hx : Keeps s0 x := ?_); (try clear_value x); rotate_left; dsimp -zeta only [x]; rotate_right) | ((have hx : Keeps s0 x.1 := ?_); (try clear_value x); rotate_left; dsimp -zeta only [x]; rotate_right) | ((have hx : Keeps s0 x.2 := ?_); (try clear_value x); rotate_left; dsimp -zeta only [x]; rotate_right) | (clear_value x) | skip)
    | lift_lets -underBinder
    | (with_reducible refine keeps_flushStream ?_ ..)
    | (with_reducible refine keeps_poisonRead ?_ ..)
    | (with_reducible refine keeps_takeRepair ?_ ..)
    | (with_reducible refine keeps_settle ?_ ..)
    | (with_reducible refine keeps_lossFrames ?_ ..)
    | (with_reducible refine keeps_takeHeal ?_ ..)
    | (with_reducible refine keeps_takeBack ?_ ..)
    | (with_reducible refine keeps_loseBack ?_ ..)
    | (with_reducible refine keeps_takeRmw ?_ ..)
    | (with_reducible refine keeps_ite ?_ ?_)
    | (fail_if_no_progress beta_reduce)
    | (dsimp only [Keeps, part]; with_reducible refine keeps_of ?_; first | with_reducible assumption | (with_reducible refine keeps_flushStream ?_ ..) | (with_reducible refine keeps_poisonRead ?_ ..) | (with_reducible refine keeps_takeRepair ?_ ..) | (with_reducible refine keeps_settle ?_ ..) | (with_reducible refine keeps_lossFrames ?_ ..) | (with_reducible refine keeps_takeHeal ?_ ..) | (with_reducible refine keeps_takeBack ?_ ..) | (with_reducible refine keeps_loseBack ?_ ..) | (with_reducible refine keeps_takeRmw ?_ ..))
    | split
    | (refine keeps_ite ?_ ?_))

theorem keeps_endReads {s0 s : State} {b : Nat} {e : CmdEnd} (hK : Keeps s0 s) :
    Keeps s0 (State.endReads s b e) := by
  unfold State.endReads
  repeat' (first
    | (with_reducible assumption)
    | (intro x; first | ((have hx : Keeps s0 x := ?_); (try clear_value x); rotate_left; dsimp -zeta only [x]; rotate_right) | ((have hx : Keeps s0 x.1 := ?_); (try clear_value x); rotate_left; dsimp -zeta only [x]; rotate_right) | ((have hx : Keeps s0 x.2 := ?_); (try clear_value x); rotate_left; dsimp -zeta only [x]; rotate_right) | (clear_value x) | skip)
    | lift_lets -underBinder
    | (with_reducible refine keeps_reply ?_ ..)
    | (with_reducible refine keeps_endBl ?_ ..)
    | (with_reducible refine keeps_foldl (fun s x hK => ?_) ?_)
    | (with_reducible refine keeps_foldl_fst (fun s x hK => ?_) ?_)
    | (refine keeps_foldl_eq (by assumption) (fun s x hK => ?_) ?_)
    | (with_reducible refine keeps_ite ?_ ?_)
    | (fail_if_no_progress beta_reduce)
    | (dsimp only [Keeps, part]; with_reducible refine keeps_of ?_; first | with_reducible assumption | (with_reducible refine keeps_reply ?_ ..) | (with_reducible refine keeps_endBl ?_ ..) | (refine keeps_foldl_eq (by assumption) (fun s x hK => ?_) ?_))
    | split
    | (refine keeps_ite ?_ ?_))

theorem keeps_takeEntry {s0 s : State} {h : Hdr} {e : BoltEntry} (hK : Keeps s0 s) :
    Keeps s0 (State.takeEntry s h e) := by
  unfold State.takeEntry
  repeat' (first
    | (with_reducible assumption)
    | (intro x; first | ((have hx : Keeps s0 x := ?_); (try clear_value x); rotate_left; dsimp -zeta only [x]; rotate_right) | ((have hx : Keeps s0 x.1 := ?_); (try clear_value x); rotate_left; dsimp -zeta only [x]; rotate_right) | ((have hx : Keeps s0 x.2 := ?_); (try clear_value x); rotate_left; dsimp -zeta only [x]; rotate_right) | (clear_value x) | skip)
    | lift_lets -underBinder
    | (with_reducible refine keeps_put ?_ ..)
    | (with_reducible refine keeps_raise ?_ ..)
    | (with_reducible refine keeps_fetchAll ?_ ..)
    | (with_reducible refine keeps_checkEntry ?_ ..)
    | (with_reducible refine keeps_retryHeld ?_ ..)
    | (with_reducible refine keeps_applyEntry ?_ ..)
    | (with_reducible refine keeps_staleRejoin ?_ ..)
    | (with_reducible refine keeps_endReads ?_ ..)
    | (with_reducible refine keeps_ite ?_ ?_)
    | (fail_if_no_progress beta_reduce)
    | (dsimp only [Keeps, part]; with_reducible refine keeps_of ?_; first | with_reducible assumption | (with_reducible refine keeps_put ?_ ..) | (with_reducible refine keeps_raise ?_ ..) | (with_reducible refine keeps_fetchAll ?_ ..) | (with_reducible refine keeps_checkEntry ?_ ..) | (with_reducible refine keeps_retryHeld ?_ ..) | (with_reducible refine keeps_applyEntry ?_ ..) | (with_reducible refine keeps_staleRejoin ?_ ..) | (with_reducible refine keeps_endReads ?_ ..))
    | split
    | (refine keeps_ite ?_ ?_))

theorem keeps_takeHandover {s0 s : State} {l : List (Nat × Nat)} (hK : Keeps s0 s) :
    Keeps s0 (State.takeHandover s l) := by
  unfold State.takeHandover
  repeat' (first
    | (with_reducible assumption)
    | (intro x; first | ((have hx : Keeps s0 x := ?_); (try clear_value x); rotate_left; dsimp -zeta only [x]; rotate_right) | ((have hx : Keeps s0 x.1 := ?_); (try clear_value x); rotate_left; dsimp -zeta only [x]; rotate_right) | ((have hx : Keeps s0 x.2 := ?_); (try clear_value x); rotate_left; dsimp -zeta only [x]; rotate_right) | (clear_value x) | skip)
    | lift_lets -underBinder
    | (with_reducible refine keeps_ite ?_ ?_)
    | (fail_if_no_progress beta_reduce)
    | (dsimp only [Keeps, part]; with_reducible refine keeps_of ?_; first | with_reducible assumption)
    | split
    | (refine keeps_ite ?_ ?_))

theorem keeps_takeHandoverAck {s0 s : State} {l : List (Nat × Nat)} (hK : Keeps s0 s) :
    Keeps s0 (State.takeHandoverAck s l) := by
  unfold State.takeHandoverAck
  repeat' (first
    | (with_reducible assumption)
    | (intro x; first | ((have hx : Keeps s0 x := ?_); (try clear_value x); rotate_left; dsimp -zeta only [x]; rotate_right) | ((have hx : Keeps s0 x.1 := ?_); (try clear_value x); rotate_left; dsimp -zeta only [x]; rotate_right) | ((have hx : Keeps s0 x.2 := ?_); (try clear_value x); rotate_left; dsimp -zeta only [x]; rotate_right) | (clear_value x) | skip)
    | lift_lets -underBinder
    | (with_reducible refine keeps_hold ?_ ..)
    | (with_reducible refine keeps_settle ?_ ..)
    | (with_reducible refine keeps_retryHeld ?_ ..)
    | (with_reducible refine keeps_nextGroup ?_ ..)
    | (with_reducible refine keeps_ite ?_ ?_)
    | (fail_if_no_progress beta_reduce)
    | (dsimp only [Keeps, part]; with_reducible refine keeps_of ?_; first | with_reducible assumption | (with_reducible refine keeps_hold ?_ ..) | (with_reducible refine keeps_settle ?_ ..) | (with_reducible refine keeps_retryHeld ?_ ..) | (with_reducible refine keeps_nextGroup ?_ ..))
    | split
    | (refine keeps_ite ?_ ?_))

theorem keeps_takeHandoverReq {s0 s : State} {l : List (Nat × Nat)} (hK : Keeps s0 s) :
    Keeps s0 (State.takeHandoverReq s l) := by
  unfold State.takeHandoverReq
  repeat' (first
    | (with_reducible assumption)
    | (intro x; first | ((have hx : Keeps s0 x := ?_); (try clear_value x); rotate_left; dsimp -zeta only [x]; rotate_right) | ((have hx : Keeps s0 x.1 := ?_); (try clear_value x); rotate_left; dsimp -zeta only [x]; rotate_right) | ((have hx : Keeps s0 x.2 := ?_); (try clear_value x); rotate_left; dsimp -zeta only [x]; rotate_right) | (clear_value x) | skip)
    | lift_lets -underBinder
    | (with_reducible refine keeps_beginHandover ?_ ..)
    | (with_reducible refine keeps_ite ?_ ?_)
    | (fail_if_no_progress beta_reduce)
    | (dsimp only [Keeps, part]; with_reducible refine keeps_of ?_; first | with_reducible assumption | (with_reducible refine keeps_beginHandover ?_ ..))
    | split
    | (refine keeps_ite ?_ ?_))

theorem keeps_spanCopied {s0 s : State} {sp : Nat} (hK : Keeps s0 s) :
    Keeps s0 (State.spanCopied s sp) := by
  unfold State.spanCopied
  repeat' (first
    | (with_reducible assumption)
    | (intro x; first | ((have hx : Keeps s0 x := ?_); (try clear_value x); rotate_left; dsimp -zeta only [x]; rotate_right) | ((have hx : Keeps s0 x.1 := ?_); (try clear_value x); rotate_left; dsimp -zeta only [x]; rotate_right) | ((have hx : Keeps s0 x.2 := ?_); (try clear_value x); rotate_left; dsimp -zeta only [x]; rotate_right) | (clear_value x) | skip)
    | lift_lets -underBinder
    | (with_reducible refine keeps_ite ?_ ?_)
    | (fail_if_no_progress beta_reduce)
    | (dsimp only [Keeps, part]; with_reducible refine keeps_of ?_; first | with_reducible assumption)
    | split
    | (refine keeps_ite ?_ ?_))

theorem keeps_copyMoves {s0 s : State} {sp : Nat} (hK : Keeps s0 s) :
    Keeps s0 (State.copyMoves s sp) := by
  unfold State.copyMoves
  repeat' (first
    | (with_reducible assumption)
    | (intro x; first | ((have hx : Keeps s0 x := ?_); (try clear_value x); rotate_left; dsimp -zeta only [x]; rotate_right) | ((have hx : Keeps s0 x.1 := ?_); (try clear_value x); rotate_left; dsimp -zeta only [x]; rotate_right) | ((have hx : Keeps s0 x.2 := ?_); (try clear_value x); rotate_left; dsimp -zeta only [x]; rotate_right) | (clear_value x) | skip)
    | lift_lets -underBinder
    | (with_reducible refine keeps_spanCopied ?_ ..)
    | (with_reducible refine keeps_ite ?_ ?_)
    | (fail_if_no_progress beta_reduce)
    | (dsimp only [Keeps, part]; with_reducible refine keeps_of ?_; first | with_reducible assumption | (with_reducible refine keeps_spanCopied ?_ ..))
    | split
    | (refine keeps_ite ?_ ?_))

theorem keeps_takeCopy {s0 s : State} {h : Hdr} {empty : Bool} {pmap : Word} {lines : List LineData} (hK : Keeps s0 s) :
    Keeps s0 (State.takeCopy s h empty pmap lines) := by
  unfold State.takeCopy
  repeat' (first
    | (with_reducible assumption)
    | (intro x; first | ((have hx : Keeps s0 x := ?_); (try clear_value x); rotate_left; dsimp -zeta only [x]; rotate_right) | ((have hx : Keeps s0 x.1 := ?_); (try clear_value x); rotate_left; dsimp -zeta only [x]; rotate_right) | ((have hx : Keeps s0 x.2 := ?_); (try clear_value x); rotate_left; dsimp -zeta only [x]; rotate_right) | (clear_value x) | skip)
    | lift_lets -underBinder
    | (with_reducible refine keeps_reply ?_ ..)
    | (with_reducible refine keeps_noteWritten ?_ ..)
    | (with_reducible refine keeps_startSpanWrite ?_ ..)
    | (with_reducible refine keeps_releaseSpan ?_ ..)
    | (with_reducible refine keeps_copyLine ?_ ..)
    | (with_reducible refine keeps_settle ?_ ..)
    | (with_reducible refine keeps_retryHeld ?_ ..)
    | (with_reducible refine keeps_enterPaired ?_ ..)
    | (with_reducible refine keeps_spanCopied ?_ ..)
    | (with_reducible refine keeps_copyMoves ?_ ..)
    | (with_reducible refine keeps_foldl (fun s x hK => ?_) ?_)
    | (with_reducible refine keeps_foldl_fst (fun s x hK => ?_) ?_)
    | (refine keeps_foldl_eq (by assumption) (fun s x hK => ?_) ?_)
    | (with_reducible refine keeps_ite ?_ ?_)
    | (fail_if_no_progress beta_reduce)
    | (dsimp only [Keeps, part]; with_reducible refine keeps_of ?_; first | with_reducible assumption | (with_reducible refine keeps_reply ?_ ..) | (with_reducible refine keeps_noteWritten ?_ ..) | (with_reducible refine keeps_startSpanWrite ?_ ..) | (with_reducible refine keeps_releaseSpan ?_ ..) | (with_reducible refine keeps_copyLine ?_ ..) | (with_reducible refine keeps_settle ?_ ..) | (with_reducible refine keeps_retryHeld ?_ ..) | (with_reducible refine keeps_enterPaired ?_ ..) | (with_reducible refine keeps_spanCopied ?_ ..) | (with_reducible refine keeps_copyMoves ?_ ..) | (refine keeps_foldl_eq (by assumption) (fun s x hK => ?_) ?_))
    | split
    | (refine keeps_ite ?_ ?_))

theorem keeps_fillNext {s0 s : State} {b : Nat} {sp : Nat} (hK : Keeps s0 s) :
    Keeps s0 (State.fillNext s b sp) := by
  unfold State.fillNext
  repeat' (first
    | (with_reducible assumption)
    | (intro x; first | ((have hx : Keeps s0 x := ?_); (try clear_value x); rotate_left; dsimp -zeta only [x]; rotate_right) | ((have hx : Keeps s0 x.1 := ?_); (try clear_value x); rotate_left; dsimp -zeta only [x]; rotate_right) | ((have hx : Keeps s0 x.2 := ?_); (try clear_value x); rotate_left; dsimp -zeta only [x]; rotate_right) | (clear_value x) | skip)
    | lift_lets -underBinder
    | (with_reducible refine keeps_put ?_ ..)
    | (with_reducible refine keeps_raise ?_ ..)
    | (with_reducible refine keeps_health ?_ ..)
    | (with_reducible refine keeps_sendCopySpan ?_ ..)
    | (with_reducible refine keeps_ite ?_ ?_)
    | (fail_if_no_progress beta_reduce)
    | (dsimp only [Keeps, part]; with_reducible refine keeps_of ?_; first | with_reducible assumption | (with_reducible refine keeps_put ?_ ..) | (with_reducible refine keeps_raise ?_ ..) | (with_reducible refine keeps_health ?_ ..) | (with_reducible refine keeps_sendCopySpan ?_ ..))
    | split
    | (refine keeps_ite ?_ ?_))

theorem keeps_feedNext {s0 s : State} {sp : Nat} (hK : Keeps s0 s) :
    Keeps s0 (State.feedNext s sp) := by
  unfold State.feedNext
  repeat' (first
    | (with_reducible assumption)
    | (intro x; first | ((have hx : Keeps s0 x := ?_); (try clear_value x); rotate_left; dsimp -zeta only [x]; rotate_right) | ((have hx : Keeps s0 x.1 := ?_); (try clear_value x); rotate_left; dsimp -zeta only [x]; rotate_right) | ((have hx : Keeps s0 x.2 := ?_); (try clear_value x); rotate_left; dsimp -zeta only [x]; rotate_right) | (clear_value x) | skip)
    | lift_lets -underBinder
    | (with_reducible refine keeps_sendCopySpan ?_ ..)
    | (with_reducible refine keeps_checkFed ?_ ..)
    | (with_reducible refine keeps_spanCopied ?_ ..)
    | (with_reducible refine keeps_ite ?_ ?_)
    | (fail_if_no_progress beta_reduce)
    | (dsimp only [Keeps, part]; with_reducible refine keeps_of ?_; first | with_reducible assumption | (with_reducible refine keeps_sendCopySpan ?_ ..) | (with_reducible refine keeps_checkFed ?_ ..) | (with_reducible refine keeps_spanCopied ?_ ..))
    | split
    | (refine keeps_ite ?_ ?_))

theorem keeps_takeCopyAck {s0 s : State} {h : Hdr} (hK : Keeps s0 s) :
    Keeps s0 (State.takeCopyAck s h) := by
  unfold State.takeCopyAck
  repeat' (first
    | (with_reducible assumption)
    | (intro x; first | ((have hx : Keeps s0 x := ?_); (try clear_value x); rotate_left; dsimp -zeta only [x]; rotate_right) | ((have hx : Keeps s0 x.1 := ?_); (try clear_value x); rotate_left; dsimp -zeta only [x]; rotate_right) | ((have hx : Keeps s0 x.2 := ?_); (try clear_value x); rotate_left; dsimp -zeta only [x]; rotate_right) | (clear_value x) | skip)
    | lift_lets -underBinder
    | (with_reducible refine keeps_flushStream ?_ ..)
    | (with_reducible refine keeps_settle ?_ ..)
    | (with_reducible refine keeps_fillNext ?_ ..)
    | (with_reducible refine keeps_feedNext ?_ ..)
    | (with_reducible refine keeps_ite ?_ ?_)
    | (fail_if_no_progress beta_reduce)
    | (dsimp only [Keeps, part]; with_reducible refine keeps_of ?_; first | with_reducible assumption | (with_reducible refine keeps_flushStream ?_ ..) | (with_reducible refine keeps_settle ?_ ..) | (with_reducible refine keeps_fillNext ?_ ..) | (with_reducible refine keeps_feedNext ?_ ..))
    | split
    | (refine keeps_ite ?_ ?_))

theorem keeps_takeMap {s0 s : State} {h : Hdr} {kind : MapKind} {l : List Nat} (hK : Keeps s0 s) :
    Keeps s0 (State.takeMap s h kind l) := by
  unfold State.takeMap
  repeat' (first
    | (with_reducible assumption)
    | (intro x; first | ((have hx : Keeps s0 x := ?_); (try clear_value x); rotate_left; dsimp -zeta only [x]; rotate_right) | ((have hx : Keeps s0 x.1 := ?_); (try clear_value x); rotate_left; dsimp -zeta only [x]; rotate_right) | ((have hx : Keeps s0 x.2 := ?_); (try clear_value x); rotate_left; dsimp -zeta only [x]; rotate_right) | (clear_value x) | skip)
    | lift_lets -underBinder
    | (with_reducible refine keeps_raise ?_ ..)
    | (with_reducible refine keeps_settle ?_ ..)
    | (with_reducible refine keeps_enterPaired ?_ ..)
    | (with_reducible refine keeps_buildCopyList ?_ ..)
    | (with_reducible refine keeps_foldl (fun s x hK => ?_) ?_)
    | (with_reducible refine keeps_foldl_fst (fun s x hK => ?_) ?_)
    | (refine keeps_foldl_eq (by assumption) (fun s x hK => ?_) ?_)
    | (with_reducible refine keeps_ite ?_ ?_)
    | (fail_if_no_progress beta_reduce)
    | (dsimp only [Keeps, part]; with_reducible refine keeps_of ?_; first | with_reducible assumption | (with_reducible refine keeps_raise ?_ ..) | (with_reducible refine keeps_settle ?_ ..) | (with_reducible refine keeps_enterPaired ?_ ..) | (with_reducible refine keeps_buildCopyList ?_ ..) | (refine keeps_foldl_eq (by assumption) (fun s x hK => ?_) ?_))
    | split
    | (refine keeps_ite ?_ ?_))

theorem keeps_execMirrorAck {s0 s : State} {h : Hdr} {at_ : Nat} (hK : Keeps s0 s) :
    XKeeps s0 (execMirrorAck h at_ s) := by
  unfold execMirrorAck
  repeat' (first
    | (with_reducible assumption)
    | (intro x; first | ((have hx : Keeps s0 x := ?_); (try clear_value x); rotate_left; dsimp -zeta only [x]; rotate_right) | ((have hx : Keeps s0 x.1 := ?_); (try clear_value x); rotate_left; dsimp -zeta only [x]; rotate_right) | ((have hx : Keeps s0 x.2 := ?_); (try clear_value x); rotate_left; dsimp -zeta only [x]; rotate_right) | (clear_value x) | skip)
    | lift_lets -underBinder
    | (with_reducible refine keeps_tick ?_ ..)
    | (with_reducible refine keeps_receive ?_ ?_ ..)
    | (with_reducible refine keeps_takeAck ?_ ..)
    | (with_reducible refine keeps_ite ?_ ?_)
    | (with_reducible refine xkeeps_next ?_)
    | (fail_if_no_progress beta_reduce)
    | (dsimp only [Keeps, part]; with_reducible refine keeps_of ?_; first | with_reducible assumption | (with_reducible refine keeps_tick ?_ ..) | (with_reducible refine keeps_receive ?_ ?_ ..) | (with_reducible refine keeps_takeAck ?_ ..))
    | split
    | (refine keeps_ite ?_ ?_))

theorem keeps_execMirrorWrResend {s0 s : State} {id : Nat} {at_ : Nat} (hK : Keeps s0 s) :
    XKeeps s0 (execMirrorWrResend id at_ s) := by
  unfold execMirrorWrResend
  repeat' (first
    | (with_reducible assumption)
    | (intro x; first | ((have hx : Keeps s0 x := ?_); (try clear_value x); rotate_left; dsimp -zeta only [x]; rotate_right) | ((have hx : Keeps s0 x.1 := ?_); (try clear_value x); rotate_left; dsimp -zeta only [x]; rotate_right) | ((have hx : Keeps s0 x.2 := ?_); (try clear_value x); rotate_left; dsimp -zeta only [x]; rotate_right) | (clear_value x) | skip)
    | lift_lets -underBinder
    | (with_reducible refine keeps_tick ?_ ..)
    | (with_reducible refine keeps_settle ?_ ..)
    | (with_reducible refine keeps_resendMirror ?_ ..)
    | (with_reducible refine keeps_ite ?_ ?_)
    | (with_reducible refine xkeeps_next ?_)
    | (fail_if_no_progress beta_reduce)
    | (dsimp only [Keeps, part]; with_reducible refine keeps_of ?_; first | with_reducible assumption | (with_reducible refine keeps_tick ?_ ..) | (with_reducible refine keeps_settle ?_ ..) | (with_reducible refine keeps_resendMirror ?_ ..))
    | split
    | (refine keeps_ite ?_ ?_))

theorem keeps_execFwdData {s0 s : State} {h : Hdr} {pmap : Word} {lines : List LineData} {at_ : Nat} (hK : Keeps s0 s) :
    XKeeps s0 (execFwdData h pmap lines at_ s) := by
  unfold execFwdData
  repeat' (first
    | (with_reducible assumption)
    | (intro x; first | ((have hx : Keeps s0 x := ?_); (try clear_value x); rotate_left; dsimp -zeta only [x]; rotate_right) | ((have hx : Keeps s0 x.1 := ?_); (try clear_value x); rotate_left; dsimp -zeta only [x]; rotate_right) | ((have hx : Keeps s0 x.2 := ?_); (try clear_value x); rotate_left; dsimp -zeta only [x]; rotate_right) | (clear_value x) | skip)
    | lift_lets -underBinder
    | (with_reducible refine keeps_tick ?_ ..)
    | (with_reducible refine keeps_receive ?_ ?_ ..)
    | (with_reducible refine keeps_takeData ?_ ..)
    | (with_reducible refine keeps_ite ?_ ?_)
    | (with_reducible refine xkeeps_next ?_)
    | (fail_if_no_progress beta_reduce)
    | (dsimp only [Keeps, part]; with_reducible refine keeps_of ?_; first | with_reducible assumption | (with_reducible refine keeps_tick ?_ ..) | (with_reducible refine keeps_receive ?_ ?_ ..) | (with_reducible refine keeps_takeData ?_ ..))
    | split
    | (refine keeps_ite ?_ ?_))

theorem keeps_execFwdCmp {s0 s : State} {h : Hdr} {at_ : Nat} (hK : Keeps s0 s) :
    XKeeps s0 (execFwdCmp h at_ s) := by
  unfold execFwdCmp
  repeat' (first
    | (with_reducible assumption)
    | (intro x; first | ((have hx : Keeps s0 x := ?_); (try clear_value x); rotate_left; dsimp -zeta only [x]; rotate_right) | ((have hx : Keeps s0 x.1 := ?_); (try clear_value x); rotate_left; dsimp -zeta only [x]; rotate_right) | ((have hx : Keeps s0 x.2 := ?_); (try clear_value x); rotate_left; dsimp -zeta only [x]; rotate_right) | (clear_value x) | skip)
    | lift_lets -underBinder
    | (with_reducible refine keeps_tick ?_ ..)
    | (with_reducible refine keeps_receive ?_ ?_ ..)
    | (with_reducible refine keeps_takeCmp ?_ ..)
    | (with_reducible refine keeps_ite ?_ ?_)
    | (with_reducible refine xkeeps_next ?_)
    | (fail_if_no_progress beta_reduce)
    | (dsimp only [Keeps, part]; with_reducible refine keeps_of ?_; first | with_reducible assumption | (with_reducible refine keeps_tick ?_ ..) | (with_reducible refine keeps_receive ?_ ?_ ..) | (with_reducible refine keeps_takeCmp ?_ ..))
    | split
    | (refine keeps_ite ?_ ?_))

theorem keeps_execRepairData {s0 s : State} {h : Hdr} {pmap : Word} {lines : List LineData} {at_ : Nat} (hK : Keeps s0 s) :
    XKeeps s0 (execRepairData h pmap lines at_ s) := by
  unfold execRepairData
  repeat' (first
    | (with_reducible assumption)
    | (intro x; first | ((have hx : Keeps s0 x := ?_); (try clear_value x); rotate_left; dsimp -zeta only [x]; rotate_right) | ((have hx : Keeps s0 x.1 := ?_); (try clear_value x); rotate_left; dsimp -zeta only [x]; rotate_right) | ((have hx : Keeps s0 x.2 := ?_); (try clear_value x); rotate_left; dsimp -zeta only [x]; rotate_right) | (clear_value x) | skip)
    | lift_lets -underBinder
    | (with_reducible refine keeps_tick ?_ ..)
    | (with_reducible refine keeps_receive ?_ ?_ ..)
    | (with_reducible refine keeps_takeRepairData ?_ ..)
    | (with_reducible refine keeps_ite ?_ ?_)
    | (with_reducible refine xkeeps_next ?_)
    | (fail_if_no_progress beta_reduce)
    | (dsimp only [Keeps, part]; with_reducible refine keeps_of ?_; first | with_reducible assumption | (with_reducible refine keeps_tick ?_ ..) | (with_reducible refine keeps_receive ?_ ?_ ..) | (with_reducible refine keeps_takeRepairData ?_ ..))
    | split
    | (refine keeps_ite ?_ ?_))

theorem keeps_execBoltFetch {s0 s : State} {h : Hdr} (hK : Keeps s0 s) :
    XKeeps s0 (execBoltFetch h s) := by
  unfold execBoltFetch
  repeat' (first
    | (with_reducible assumption)
    | (intro x; first | ((have hx : Keeps s0 x := ?_); (try clear_value x); rotate_left; dsimp -zeta only [x]; rotate_right) | ((have hx : Keeps s0 x.1 := ?_); (try clear_value x); rotate_left; dsimp -zeta only [x]; rotate_right) | ((have hx : Keeps s0 x.2 := ?_); (try clear_value x); rotate_left; dsimp -zeta only [x]; rotate_right) | (clear_value x) | skip)
    | lift_lets -underBinder
    | (with_reducible refine keeps_send ?_ ..)
    | (with_reducible refine keeps_receive ?_ ?_ ..)
    | (with_reducible refine keeps_checkEntry ?_ ..)
    | (with_reducible refine keeps_ite ?_ ?_)
    | (with_reducible refine xkeeps_next ?_)
    | (fail_if_no_progress beta_reduce)
    | (dsimp only [Keeps, part]; with_reducible refine keeps_of ?_; first | with_reducible assumption | (with_reducible refine keeps_send ?_ ..) | (with_reducible refine keeps_receive ?_ ?_ ..) | (with_reducible refine keeps_checkEntry ?_ ..))
    | split
    | (refine keeps_ite ?_ ?_))

theorem keeps_onHandoverAck {s0 s : State} {h : Hdr} {l : List (Nat × Nat)} {at_ : Nat} (hK : Keeps s0 s) :
    Keeps s0 (State.onHandoverAck h l at_ s) := by
  unfold State.onHandoverAck
  repeat' (first
    | (with_reducible assumption)
    | (intro x; first | ((have hx : Keeps s0 x := ?_); (try clear_value x); rotate_left; dsimp -zeta only [x]; rotate_right) | ((have hx : Keeps s0 x.1 := ?_); (try clear_value x); rotate_left; dsimp -zeta only [x]; rotate_right) | ((have hx : Keeps s0 x.2 := ?_); (try clear_value x); rotate_left; dsimp -zeta only [x]; rotate_right) | (clear_value x) | skip)
    | lift_lets -underBinder
    | (with_reducible refine keeps_tick ?_ ..)
    | (with_reducible refine keeps_receive ?_ ?_ ..)
    | (with_reducible refine keeps_takeHandoverAck ?_ ..)
    | (with_reducible refine keeps_ite ?_ ?_)
    | (fail_if_no_progress beta_reduce)
    | (dsimp only [Keeps, part]; with_reducible refine keeps_of ?_; first | with_reducible assumption | (with_reducible refine keeps_tick ?_ ..) | (with_reducible refine keeps_receive ?_ ?_ ..) | (with_reducible refine keeps_takeHandoverAck ?_ ..))
    | split
    | (refine keeps_ite ?_ ?_))

theorem keeps_execHandoverReq {s0 s : State} {h : Hdr} {l : List (Nat × Nat)} {at_ : Nat} (hK : Keeps s0 s) :
    XKeeps s0 (execHandoverReq h l at_ s) := by
  unfold execHandoverReq
  repeat' (first
    | (with_reducible assumption)
    | (intro x; first | ((have hx : Keeps s0 x := ?_); (try clear_value x); rotate_left; dsimp -zeta only [x]; rotate_right) | ((have hx : Keeps s0 x.1 := ?_); (try clear_value x); rotate_left; dsimp -zeta only [x]; rotate_right) | ((have hx : Keeps s0 x.2 := ?_); (try clear_value x); rotate_left; dsimp -zeta only [x]; rotate_right) | (clear_value x) | skip)
    | lift_lets -underBinder
    | (with_reducible refine keeps_tick ?_ ..)
    | (with_reducible refine keeps_receive ?_ ?_ ..)
    | (with_reducible refine keeps_takeHandoverReq ?_ ..)
    | (with_reducible refine keeps_ite ?_ ?_)
    | (with_reducible refine xkeeps_next ?_)
    | (fail_if_no_progress beta_reduce)
    | (dsimp only [Keeps, part]; with_reducible refine keeps_of ?_; first | with_reducible assumption | (with_reducible refine keeps_tick ?_ ..) | (with_reducible refine keeps_receive ?_ ?_ ..) | (with_reducible refine keeps_takeHandoverReq ?_ ..))
    | split
    | (refine keeps_ite ?_ ?_))

theorem keeps_execRejoinAck {s0 s : State} {h : Hdr} {at_ : Nat} (hK : Keeps s0 s) :
    XKeeps s0 (execRejoinAck h at_ s) := by
  unfold execRejoinAck
  repeat' (first
    | (with_reducible assumption)
    | (intro x; first | ((have hx : Keeps s0 x := ?_); (try clear_value x); rotate_left; dsimp -zeta only [x]; rotate_right) | ((have hx : Keeps s0 x.1 := ?_); (try clear_value x); rotate_left; dsimp -zeta only [x]; rotate_right) | ((have hx : Keeps s0 x.2 := ?_); (try clear_value x); rotate_left; dsimp -zeta only [x]; rotate_right) | (clear_value x) | skip)
    | lift_lets -underBinder
    | (with_reducible refine keeps_tick ?_ ..)
    | (with_reducible refine keeps_receive ?_ ?_ ..)
    | (with_reducible refine keeps_takeCopyAck ?_ ..)
    | (with_reducible refine keeps_ite ?_ ?_)
    | (with_reducible refine xkeeps_next ?_)
    | (fail_if_no_progress beta_reduce)
    | (dsimp only [Keeps, part]; with_reducible refine keeps_of ?_; first | with_reducible assumption | (with_reducible refine keeps_tick ?_ ..) | (with_reducible refine keeps_receive ?_ ?_ ..) | (with_reducible refine keeps_takeCopyAck ?_ ..))
    | split
    | (refine keeps_ite ?_ ?_))

theorem keeps_execMapXfer {s0 s : State} {h : Hdr} {kind : MapKind} {l : List Nat} {at_ : Nat} (hK : Keeps s0 s) :
    XKeeps s0 (execMapXfer h kind l at_ s) := by
  unfold execMapXfer
  repeat' (first
    | (with_reducible assumption)
    | (intro x; first | ((have hx : Keeps s0 x := ?_); (try clear_value x); rotate_left; dsimp -zeta only [x]; rotate_right) | ((have hx : Keeps s0 x.1 := ?_); (try clear_value x); rotate_left; dsimp -zeta only [x]; rotate_right) | ((have hx : Keeps s0 x.2 := ?_); (try clear_value x); rotate_left; dsimp -zeta only [x]; rotate_right) | (clear_value x) | skip)
    | lift_lets -underBinder
    | (with_reducible refine keeps_tick ?_ ..)
    | (with_reducible refine keeps_receive ?_ ?_ ..)
    | (with_reducible refine keeps_takeMap ?_ ..)
    | (with_reducible refine keeps_ite ?_ ?_)
    | (with_reducible refine xkeeps_next ?_)
    | (fail_if_no_progress beta_reduce)
    | (dsimp only [Keeps, part]; with_reducible refine keeps_of ?_; first | with_reducible assumption | (with_reducible refine keeps_tick ?_ ..) | (with_reducible refine keeps_receive ?_ ?_ ..) | (with_reducible refine keeps_takeMap ?_ ..))
    | split
    | (refine keeps_ite ?_ ?_))

theorem keeps_execUnknownMessage {s0 s : State} {h : Hdr} {_ty : Nat} (hK : Keeps s0 s) :
    XKeeps s0 (execUnknownMessage h _ty s) := by
  unfold execUnknownMessage
  repeat' (first
    | (with_reducible assumption)
    | (intro x; first | ((have hx : Keeps s0 x := ?_); (try clear_value x); rotate_left; dsimp -zeta only [x]; rotate_right) | ((have hx : Keeps s0 x.1 := ?_); (try clear_value x); rotate_left; dsimp -zeta only [x]; rotate_right) | ((have hx : Keeps s0 x.2 := ?_); (try clear_value x); rotate_left; dsimp -zeta only [x]; rotate_right) | (clear_value x) | skip)
    | lift_lets -underBinder
    | (with_reducible refine keeps_bump ?_ ..)
    | (with_reducible refine keeps_ite ?_ ?_)
    | (with_reducible refine xkeeps_next ?_)
    | (fail_if_no_progress beta_reduce)
    | (dsimp only [Keeps, part]; with_reducible refine keeps_of ?_; first | with_reducible assumption | (with_reducible refine keeps_bump ?_ ..))
    | split
    | (refine keeps_ite ?_ ?_))

theorem keeps_execHopExpiry {s0 s : State} {h : Hdr} {p : Payload} (hK : Keeps s0 s) :
    XKeeps s0 (execHopExpiry h p s) := by
  unfold execHopExpiry
  repeat' (first
    | (with_reducible assumption)
    | (intro x; first | ((have hx : Keeps s0 x := ?_); (try clear_value x); rotate_left; dsimp -zeta only [x]; rotate_right) | ((have hx : Keeps s0 x.1 := ?_); (try clear_value x); rotate_left; dsimp -zeta only [x]; rotate_right) | ((have hx : Keeps s0 x.2 := ?_); (try clear_value x); rotate_left; dsimp -zeta only [x]; rotate_right) | (clear_value x) | skip)
    | lift_lets -underBinder
    | (with_reducible refine keeps_sendThrough ?_ ..)
    | (with_reducible refine keeps_ite ?_ ?_)
    | (with_reducible refine xkeeps_next ?_)
    | (fail_if_no_progress beta_reduce)
    | (dsimp only [Keeps, part]; with_reducible refine keeps_of ?_; first | with_reducible assumption | (with_reducible refine keeps_sendThrough ?_ ..))
    | split
    | (refine keeps_ite ?_ ?_))

theorem keeps_execBayState {s0 s : State} {h : Hdr} {dirtyCount : Nat} {health : Word} (hK : Keeps s0 s) :
    XKeeps s0 (execBayState h dirtyCount health s) := by
  unfold execBayState
  repeat' (first
    | (with_reducible assumption)
    | (intro x; first | ((have hx : Keeps s0 x := ?_); (try clear_value x); rotate_left; dsimp -zeta only [x]; rotate_right) | ((have hx : Keeps s0 x.1 := ?_); (try clear_value x); rotate_left; dsimp -zeta only [x]; rotate_right) | ((have hx : Keeps s0 x.2 := ?_); (try clear_value x); rotate_left; dsimp -zeta only [x]; rotate_right) | (clear_value x) | skip)
    | lift_lets -underBinder
    | (with_reducible refine keeps_put ?_ ..)
    | (with_reducible refine keeps_health ?_ ..)
    | (with_reducible refine keeps_receive ?_ ?_ ..)
    | (with_reducible refine keeps_ite ?_ ?_)
    | (with_reducible refine xkeeps_next ?_)
    | (fail_if_no_progress beta_reduce)
    | (dsimp only [Keeps, part]; with_reducible refine keeps_of ?_; first | with_reducible assumption | (with_reducible refine keeps_put ?_ ..) | (with_reducible refine keeps_health ?_ ..) | (with_reducible refine keeps_receive ?_ ?_ ..))
    | split
    | (refine keeps_ite ?_ ?_))

theorem keeps_takeOffset {s0 s : State} {o : Int} (hK : Keeps s0 s) (hZ : s0.time.dt = 0) :
    Keeps s0 (State.takeOffset s o) := by
  unfold State.takeOffset
  repeat' (first
    | (with_reducible assumption)
    | (intro x; first | ((have hx : Keeps s0 x := ?_); (try clear_value x); rotate_left; dsimp -zeta only [x]; rotate_right) | ((have hx : Keeps s0 x.1 := ?_); (try clear_value x); rotate_left; dsimp -zeta only [x]; rotate_right) | ((have hx : Keeps s0 x.2 := ?_); (try clear_value x); rotate_left; dsimp -zeta only [x]; rotate_right) | ((have hf : x.dt = x.dt := rfl); clear hf; dsimp -zeta only [x]) | ((have hf : x.floor = x.floor := rfl); clear hf; dsimp -zeta only [x]) | (clear_value x) | skip)
    | lift_lets -underBinder
    | (with_reducible refine keeps_nextFree ?_ ..)
    | (refine keeps_nextFree_eq (by assumption) ?_)
    | (with_reducible refine keeps_put ?_ ..)
    | (with_reducible refine keeps_raise ?_ ..)
    | (with_reducible refine keeps_ite ?_ ?_)
    | (fail_if_no_progress beta_reduce)
    | (dsimp only [Keeps, part]; with_reducible refine keeps_of ?_; first | with_reducible assumption | (with_reducible refine keeps_nextFree ?_ ..) | (refine keeps_nextFree_eq (by assumption) ?_) | (with_reducible refine keeps_put ?_ ..) | (with_reducible refine keeps_raise ?_ ..))
    | (dsimp only [Keeps, part]; with_reducible refine keeps_ofTime hZ ?_; with_reducible assumption)
    | split
    | (refine keeps_ite ?_ ?_))

theorem keeps_showRoot {s0 s : State} (hK : Keeps s0 s) :
    Keeps s0 (State.showRoot s) := by
  unfold State.showRoot
  repeat' (first
    | (with_reducible assumption)
    | (intro x; first | ((have hx : Keeps s0 x := ?_); (try clear_value x); rotate_left; dsimp -zeta only [x]; rotate_right) | ((have hx : Keeps s0 x.1 := ?_); (try clear_value x); rotate_left; dsimp -zeta only [x]; rotate_right) | ((have hx : Keeps s0 x.2 := ?_); (try clear_value x); rotate_left; dsimp -zeta only [x]; rotate_right) | (clear_value x) | skip)
    | lift_lets -underBinder
    | (with_reducible refine keeps_put ?_ ..)
    | (with_reducible refine keeps_raise ?_ ..)
    | (with_reducible refine keeps_ite ?_ ?_)
    | (fail_if_no_progress beta_reduce)
    | (dsimp only [Keeps, part]; with_reducible refine keeps_of ?_; first | with_reducible assumption | (with_reducible refine keeps_put ?_ ..) | (with_reducible refine keeps_raise ?_ ..))
    | split
    | (refine keeps_ite ?_ ?_))

theorem keeps_execTimeSync {s0 s : State} {h : Hdr} {t1 : Nat} {t2 : Nat} {t3 : Nat} {answer : Bool} {at_ : Nat} (hK : Keeps s0 s) (hZ : s0.time.dt = 0) :
    XKeeps s0 (execTimeSync h t1 t2 t3 answer at_ s) := by
  unfold execTimeSync
  repeat' (first
    | (with_reducible assumption)
    | (intro x; first | ((have hx : Keeps s0 x := ?_); (try clear_value x); rotate_left; dsimp -zeta only [x]; rotate_right) | ((have hx : Keeps s0 x.1 := ?_); (try clear_value x); rotate_left; dsimp -zeta only [x]; rotate_right) | ((have hx : Keeps s0 x.2 := ?_); (try clear_value x); rotate_left; dsimp -zeta only [x]; rotate_right) | ((have hf : x.dt = x.dt := rfl); clear hf; dsimp -zeta only [x]) | ((have hf : x.floor = x.floor := rfl); clear hf; dsimp -zeta only [x]) | (clear_value x) | skip)
    | lift_lets -underBinder
    | (with_reducible refine keeps_tick ?_ ..)
    | (with_reducible refine keeps_send ?_ ..)
    | (with_reducible refine keeps_receive ?_ ?_ ..)
    | (refine keeps_takeOffset ?_ hZ ..)
    | (with_reducible refine keeps_ite ?_ ?_)
    | (with_reducible refine xkeeps_next ?_)
    | (fail_if_no_progress beta_reduce)
    | (dsimp only [Keeps, part]; with_reducible refine keeps_of ?_; first | with_reducible assumption | (with_reducible refine keeps_tick ?_ ..) | (with_reducible refine keeps_send ?_ ..) | (with_reducible refine keeps_receive ?_ ?_ ..) | (refine keeps_takeOffset ?_ hZ ..))
    | (dsimp only [Keeps, part]; with_reducible refine keeps_ofTime hZ ?_; with_reducible assumption)
    | split
    | (refine keeps_ite ?_ ?_))

theorem keeps_execTimeSyncTimer {s0 s : State} {at_ : Nat} (hK : Keeps s0 s) :
    XKeeps s0 (execTimeSyncTimer at_ s) := by
  unfold execTimeSyncTimer
  repeat' (first
    | (with_reducible assumption)
    | (intro x; first | ((have hx : Keeps s0 x := ?_); (try clear_value x); rotate_left; dsimp -zeta only [x]; rotate_right) | ((have hx : Keeps s0 x.1 := ?_); (try clear_value x); rotate_left; dsimp -zeta only [x]; rotate_right) | ((have hx : Keeps s0 x.2 := ?_); (try clear_value x); rotate_left; dsimp -zeta only [x]; rotate_right) | ((have hf : x.dt = x.dt := rfl); clear hf; dsimp -zeta only [x]) | ((have hf : x.floor = x.floor := rfl); clear hf; dsimp -zeta only [x]) | (clear_value x) | skip)
    | lift_lets -underBinder
    | (with_reducible refine keeps_tick ?_ ..)
    | (with_reducible refine keeps_sendOn ?_ ..)
    | (with_reducible refine keeps_showRoot ?_ ..)
    | (with_reducible refine keeps_ite ?_ ?_)
    | (with_reducible refine xkeeps_next ?_)
    | (fail_if_no_progress beta_reduce)
    | (dsimp only [Keeps, part]; with_reducible refine keeps_of ?_; first | with_reducible assumption | (with_reducible refine keeps_tick ?_ ..) | (with_reducible refine keeps_sendOn ?_ ..) | (with_reducible refine keeps_showRoot ?_ ..))
    | split
    | (refine keeps_ite ?_ ?_))

end Sys2Proof.Laws
end

