-- ==== Sys2Proof/Laws/KeepsQueues.lean ====
section
/-! SUPPORT. Every operation of Machine/Queues.lean keeps what Laws/Keeps.lean says. -/

set_option linter.unusedTactic false
set_option linter.unreachableTactic false
set_option linter.unusedVariables false

namespace Sys2Proof.Laws

open Sys2Proof Machine

theorem keeps_submitQ {s0 s : State} {x : Desc} {op : ReqOp} {off : Nat} (hK : Keeps s0 s) :
    Keeps s0 (State.submitQ s x op off) := by
  unfold State.submitQ
  repeat' (first
    | (with_reducible assumption)
    | (intro x; first | ((have hx : Keeps s0 x := ?_); (try clear_value x); rotate_left; dsimp -zeta only [x]; rotate_right) | ((have hx : Keeps s0 x.1 := ?_); (try clear_value x); rotate_left; dsimp -zeta only [x]; rotate_right) | ((have hx : Keeps s0 x.2 := ?_); (try clear_value x); rotate_left; dsimp -zeta only [x]; rotate_right) | (clear_value x) | skip)
    | lift_lets -underBinder
    | (with_reducible refine keeps_submit ?_ ..)
    | (with_reducible refine keeps_ite ?_ ?_)
    | (fail_if_no_progress beta_reduce)
    | (dsimp only [Keeps, part]; with_reducible refine keeps_of ?_; first | with_reducible assumption | (with_reducible refine keeps_submit ?_ ..))
    | split
    | (refine keeps_ite ?_ ?_))

theorem keeps_storeBytes {s0 s : State} {x : Desc} {off : Nat} {bs : List Byte} {bad : Nat → Bool} {rev : Bool} (hK : Keeps s0 s) :
    Keeps s0 (State.storeBytes s x off bs bad rev) := by
  unfold State.storeBytes
  repeat' (first
    | (with_reducible assumption)
    | (intro x; first | ((have hx : Keeps s0 x := ?_); (try clear_value x); rotate_left; dsimp -zeta only [x]; rotate_right) | ((have hx : Keeps s0 x.1 := ?_); (try clear_value x); rotate_left; dsimp -zeta only [x]; rotate_right) | ((have hx : Keeps s0 x.2 := ?_); (try clear_value x); rotate_left; dsimp -zeta only [x]; rotate_right) | (clear_value x) | skip)
    | lift_lets -underBinder
    | (with_reducible refine keeps_putDesc ?_ ..)
    | (with_reducible refine keeps_submitQ ?_ ..)
    | (with_reducible refine keeps_foldl (fun s x hK => ?_) ?_)
    | (with_reducible refine keeps_foldl_fst (fun s x hK => ?_) ?_)
    | (refine keeps_foldl_eq (by assumption) (fun s x hK => ?_) ?_)
    | (with_reducible refine keeps_ite ?_ ?_)
    | (fail_if_no_progress beta_reduce)
    | (dsimp only [Keeps, part]; with_reducible refine keeps_of ?_; first | with_reducible assumption | (with_reducible refine keeps_putDesc ?_ ..) | (with_reducible refine keeps_submitQ ?_ ..) | (refine keeps_foldl_eq (by assumption) (fun s x hK => ?_) ?_))
    | split
    | (refine keeps_ite ?_ ?_))

theorem keeps_touchContext {s0 s : State} {q : Nat} (hK : Keeps s0 s) :
    Keeps s0 (State.touchContext s q) := by
  unfold State.touchContext
  repeat' (first
    | (with_reducible assumption)
    | (intro x; first | ((have hx : Keeps s0 x := ?_); (try clear_value x); rotate_left; dsimp -zeta only [x]; rotate_right) | ((have hx : Keeps s0 x.1 := ?_); (try clear_value x); rotate_left; dsimp -zeta only [x]; rotate_right) | ((have hx : Keeps s0 x.2 := ?_); (try clear_value x); rotate_left; dsimp -zeta only [x]; rotate_right) | (clear_value x) | skip)
    | lift_lets -underBinder
    | (with_reducible refine keeps_bump ?_ ..)
    | (with_reducible refine keeps_ite ?_ ?_)
    | (fail_if_no_progress beta_reduce)
    | (dsimp only [Keeps, part]; with_reducible refine keeps_of ?_; first | with_reducible assumption | (with_reducible refine keeps_bump ?_ ..))
    | split
    | (refine keeps_ite ?_ ?_))

theorem keeps_loadContext {s0 s : State} {q : Nat} (hK : Keeps s0 s) :
    Keeps s0 (State.loadContext s q) := by
  unfold State.loadContext
  repeat' (first
    | (with_reducible assumption)
    | (intro x; first | ((have hx : Keeps s0 x := ?_); (try clear_value x); rotate_left; dsimp -zeta only [x]; rotate_right) | ((have hx : Keeps s0 x.1 := ?_); (try clear_value x); rotate_left; dsimp -zeta only [x]; rotate_right) | ((have hx : Keeps s0 x.2 := ?_); (try clear_value x); rotate_left; dsimp -zeta only [x]; rotate_right) | (clear_value x) | skip)
    | lift_lets -underBinder
    | (with_reducible refine keeps_ite ?_ ?_)
    | (fail_if_no_progress beta_reduce)
    | (dsimp only [Keeps, part]; with_reducible refine keeps_of ?_; first | with_reducible assumption)
    | (dsimp only [Keeps, part]; with_reducible refine keeps_ofFree ?_; first | with_reducible assumption)
    | split
    | (refine keeps_ite ?_ ?_))

theorem keeps_execContextLoadDone {s0 s : State} {q : Nat} {at_ : Nat} (hK : Keeps s0 s) :
    XKeeps s0 (execContextLoadDone q at_ s) := by
  unfold execContextLoadDone
  repeat' (first
    | (with_reducible assumption)
    | (intro x; first | ((have hx : Keeps s0 x := ?_); (try clear_value x); rotate_left; dsimp -zeta only [x]; rotate_right) | ((have hx : Keeps s0 x.1 := ?_); (try clear_value x); rotate_left; dsimp -zeta only [x]; rotate_right) | ((have hx : Keeps s0 x.2 := ?_); (try clear_value x); rotate_left; dsimp -zeta only [x]; rotate_right) | (clear_value x) | skip)
    | lift_lets -underBinder
    | (with_reducible refine keeps_tick ?_ ..)
    | (with_reducible refine keeps_loadContext ?_ ..)
    | (with_reducible refine keeps_ite ?_ ?_)
    | (with_reducible refine xkeeps_next ?_)
    | (fail_if_no_progress beta_reduce)
    | (dsimp only [Keeps, part]; with_reducible refine keeps_of ?_; first | with_reducible assumption | (with_reducible refine keeps_tick ?_ ..) | (with_reducible refine keeps_loadContext ?_ ..))
    | split
    | (refine keeps_ite ?_ ?_))

theorem keeps_cqWrite {s0 s : State} {x : Desc} {e : QEntry} {tag : Nat} {code : Nat} {flags : Nat} {notify : Bool} (hK : Keeps s0 s) :
    Keeps s0 (State.cqWrite s x e tag code flags notify) := by
  unfold State.cqWrite
  repeat' (first
    | (with_reducible assumption)
    | (intro x; first | ((have hx : Keeps s0 x := ?_); (try clear_value x); rotate_left; dsimp -zeta only [x]; rotate_right) | ((have hx : Keeps s0 x.1 := ?_); (try clear_value x); rotate_left; dsimp -zeta only [x]; rotate_right) | ((have hx : Keeps s0 x.2 := ?_); (try clear_value x); rotate_left; dsimp -zeta only [x]; rotate_right) | (clear_value x) | skip)
    | lift_lets -underBinder
    | (with_reducible refine keeps_putQueue ?_ ..)
    | (with_reducible refine keeps_putDesc ?_ ..)
    | (with_reducible refine keeps_submitQ ?_ ..)
    | (with_reducible refine keeps_touchContext ?_ ..)
    | (with_reducible refine keeps_foldl (fun s x hK => ?_) ?_)
    | (with_reducible refine keeps_foldl_fst (fun s x hK => ?_) ?_)
    | (refine keeps_foldl_eq (by assumption) (fun s x hK => ?_) ?_)
    | (with_reducible refine keeps_ite ?_ ?_)
    | (fail_if_no_progress beta_reduce)
    | (dsimp only [Keeps, part]; with_reducible refine keeps_of ?_; first | with_reducible assumption | (with_reducible refine keeps_putQueue ?_ ..) | (with_reducible refine keeps_putDesc ?_ ..) | (with_reducible refine keeps_submitQ ?_ ..) | (with_reducible refine keeps_touchContext ?_ ..) | (refine keeps_foldl_eq (by assumption) (fun s x hK => ?_) ?_))
    | split
    | (refine keeps_ite ?_ ?_))

theorem keeps_ownDesc {s0 s : State} {q : Nat} (hK : Keeps s0 s) :
    Keeps s0 (State.ownDesc s q).2 := by
  unfold State.ownDesc
  repeat' (first
    | (with_reducible assumption)
    | (intro x; first | ((have hx : Keeps s0 x := ?_); (try clear_value x); rotate_left; dsimp -zeta only [x]; rotate_right) | ((have hx : Keeps s0 x.1 := ?_); (try clear_value x); rotate_left; dsimp -zeta only [x]; rotate_right) | ((have hx : Keeps s0 x.2 := ?_); (try clear_value x); rotate_left; dsimp -zeta only [x]; rotate_right) | (clear_value x) | skip)
    | lift_lets -underBinder
    | (with_reducible refine keeps_ite ?_ ?_)
    | (fail_if_no_progress beta_reduce)
    | (dsimp only [Keeps, part]; with_reducible refine keeps_of ?_; first | with_reducible assumption)
    | split
    | (refine keeps_ite ?_ ?_))

theorem keeps_ownDesc_eq {s0 s tE : State} {bE : Desc} {q : Nat} (hEq : State.ownDesc s q = (bE, tE)) (hK : Keeps s0 s) : Keeps s0 tE := by
  have k : Keeps s0 (State.ownDesc s q).2 := keeps_ownDesc hK
  rw [hEq] at k
  exact k

theorem keeps_winWrite {s0 s : State} {q : Nat} {e : QEntry} {tag : Nat} {restart : Bool} (hK : Keeps s0 s) :
    Keeps s0 (State.winWrite s q e tag restart) := by
  unfold State.winWrite
  repeat' (first
    | (with_reducible assumption)
    | (intro x; first | ((have hx : Keeps s0 x := ?_); (try clear_value x); rotate_left; dsimp -zeta only [x]; rotate_right) | ((have hx : Keeps s0 x.1 := ?_); (try clear_value x); rotate_left; dsimp -zeta only [x]; rotate_right) | ((have hx : Keeps s0 x.2 := ?_); (try clear_value x); rotate_left; dsimp -zeta only [x]; rotate_right) | (clear_value x) | skip)
    | lift_lets -underBinder
    | (with_reducible refine keeps_cqWrite ?_ ..)
    | (with_reducible refine keeps_ownDesc ?_ ..)
    | (refine keeps_ownDesc_eq (by assumption) ?_)
    | (with_reducible refine keeps_ite ?_ ?_)
    | (fail_if_no_progress beta_reduce)
    | (dsimp only [Keeps, part]; with_reducible refine keeps_of ?_; first | with_reducible assumption | (with_reducible refine keeps_cqWrite ?_ ..) | (with_reducible refine keeps_ownDesc ?_ ..) | (refine keeps_ownDesc_eq (by assumption) ?_))
    | split
    | (refine keeps_ite ?_ ?_))

theorem keeps_flushWindows {s0 s : State} {q : Nat} {fuel : Nat} (hK : Keeps s0 s) :
    Keeps s0 (State.flushWindows s q fuel) := by
  induction fuel generalizing s q with
  | zero =>
  unfold State.flushWindows
  repeat' (first
    | (with_reducible assumption)
    | (intro x; first | ((have hx : Keeps s0 x := ?_); (try clear_value x); rotate_left; dsimp -zeta only [x]; rotate_right) | ((have hx : Keeps s0 x.1 := ?_); (try clear_value x); rotate_left; dsimp -zeta only [x]; rotate_right) | ((have hx : Keeps s0 x.2 := ?_); (try clear_value x); rotate_left; dsimp -zeta only [x]; rotate_right) | (clear_value x) | skip)
    | lift_lets -underBinder
    | (with_reducible refine keeps_putCap ?_ ..)
    | (with_reducible refine keeps_winWrite ?_ ..)
    | (with_reducible refine keeps_ite ?_ ?_)
    | (fail_if_no_progress beta_reduce)
    | (dsimp only [Keeps, part]; with_reducible refine keeps_of ?_; first | with_reducible assumption | (with_reducible refine keeps_putCap ?_ ..) | (with_reducible refine keeps_winWrite ?_ ..))
    | split
    | (refine keeps_ite ?_ ?_))
  | succ n ih =>
  unfold State.flushWindows
  repeat' (first
    | (with_reducible assumption)
    | (intro x; first | ((have hx : Keeps s0 x := ?_); (try clear_value x); rotate_left; dsimp -zeta only [x]; rotate_right) | ((have hx : Keeps s0 x.1 := ?_); (try clear_value x); rotate_left; dsimp -zeta only [x]; rotate_right) | ((have hx : Keeps s0 x.2 := ?_); (try clear_value x); rotate_left; dsimp -zeta only [x]; rotate_right) | (clear_value x) | skip)
    | lift_lets -underBinder
    | (with_reducible apply ih)
    | (with_reducible refine keeps_putCap ?_ ..)
    | (with_reducible refine keeps_winWrite ?_ ..)
    | (with_reducible refine keeps_ite ?_ ?_)
    | (fail_if_no_progress beta_reduce)
    | (dsimp only [Keeps, part]; with_reducible refine keeps_of ?_; first | with_reducible assumption | (with_reducible refine keeps_putCap ?_ ..) | (with_reducible refine keeps_winWrite ?_ ..))
    | split
    | (refine keeps_ite ?_ ?_))

theorem keeps_execIrqCoalesceTimer {s0 s : State} {q : Nat} {at_ : Nat} (hK : Keeps s0 s) :
    XKeeps s0 (execIrqCoalesceTimer q at_ s) := by
  unfold execIrqCoalesceTimer
  repeat' (first
    | (with_reducible assumption)
    | (intro x; first | ((have hx : Keeps s0 x := ?_); (try clear_value x); rotate_left; dsimp -zeta only [x]; rotate_right) | ((have hx : Keeps s0 x.1 := ?_); (try clear_value x); rotate_left; dsimp -zeta only [x]; rotate_right) | ((have hx : Keeps s0 x.2 := ?_); (try clear_value x); rotate_left; dsimp -zeta only [x]; rotate_right) | (clear_value x) | skip)
    | lift_lets -underBinder
    | (with_reducible refine keeps_tick ?_ ..)
    | (with_reducible refine keeps_sendVector ?_ ..)
    | (with_reducible refine keeps_ite ?_ ?_)
    | (with_reducible refine xkeeps_next ?_)
    | (fail_if_no_progress beta_reduce)
    | (dsimp only [Keeps, part]; with_reducible refine keeps_of ?_; first | with_reducible assumption | (with_reducible refine keeps_tick ?_ ..) | (with_reducible refine keeps_sendVector ?_ ..))
    | split
    | (refine keeps_ite ?_ ?_))

theorem keeps_endQu {s0 s : State} {code : Nat} (hK : Keeps s0 s) :
    Keeps s0 (State.endQu s code) := by
  unfold State.endQu
  repeat' (first
    | (with_reducible assumption)
    | (intro x; first | ((have hx : Keeps s0 x := ?_); (try clear_value x); rotate_left; dsimp -zeta only [x]; rotate_right) | ((have hx : Keeps s0 x.1 := ?_); (try clear_value x); rotate_left; dsimp -zeta only [x]; rotate_right) | ((have hx : Keeps s0 x.2 := ?_); (try clear_value x); rotate_left; dsimp -zeta only [x]; rotate_right) | (clear_value x) | skip)
    | lift_lets -underBinder
    | (with_reducible refine keeps_put ?_ ..)
    | (with_reducible refine keeps_ite ?_ ?_)
    | (fail_if_no_progress beta_reduce)
    | (dsimp only [Keeps, part]; with_reducible refine keeps_of ?_; first | with_reducible assumption | (with_reducible refine keeps_put ?_ ..))
    | split
    | (refine keeps_ite ?_ ?_))

theorem keeps_checkStop {s0 s : State} {q : Nat} (hK : Keeps s0 s) :
    Keeps s0 (State.checkStop s q) := by
  unfold State.checkStop
  repeat' (first
    | (with_reducible assumption)
    | (intro x; first | ((have hx : Keeps s0 x := ?_); (try clear_value x); rotate_left; dsimp -zeta only [x]; rotate_right) | ((have hx : Keeps s0 x.1 := ?_); (try clear_value x); rotate_left; dsimp -zeta only [x]; rotate_right) | ((have hx : Keeps s0 x.2 := ?_); (try clear_value x); rotate_left; dsimp -zeta only [x]; rotate_right) | (clear_value x) | skip)
    | lift_lets -underBinder
    | (with_reducible refine keeps_putQueue ?_ ..)
    | (with_reducible refine keeps_endQu ?_ ..)
    | (with_reducible refine keeps_stopped ?_ ..)
    | (with_reducible refine keeps_ite ?_ ?_)
    | (fail_if_no_progress beta_reduce)
    | (dsimp only [Keeps, part]; with_reducible refine keeps_of ?_; first | with_reducible assumption | (with_reducible refine keeps_putQueue ?_ ..) | (with_reducible refine keeps_endQu ?_ ..) | (with_reducible refine keeps_stopped ?_ ..))
    | split
    | (refine keeps_ite ?_ ?_))

theorem keeps_closeWindow {s0 s : State} {q : Nat} {e : QEntry} {stop : Bool} (hK : Keeps s0 s) :
    Keeps s0 (State.closeWindow s q e stop) := by
  unfold State.closeWindow
  repeat' (first
    | (with_reducible assumption)
    | (intro x; first | ((have hx : Keeps s0 x := ?_); (try clear_value x); rotate_left; dsimp -zeta only [x]; rotate_right) | ((have hx : Keeps s0 x.1 := ?_); (try clear_value x); rotate_left; dsimp -zeta only [x]; rotate_right) | ((have hx : Keeps s0 x.2 := ?_); (try clear_value x); rotate_left; dsimp -zeta only [x]; rotate_right) | (clear_value x) | skip)
    | lift_lets -underBinder
    | (with_reducible refine keeps_putQueue ?_ ..)
    | (with_reducible refine keeps_putCap ?_ ..)
    | (with_reducible refine keeps_ite ?_ ?_)
    | (fail_if_no_progress beta_reduce)
    | (dsimp only [Keeps, part]; with_reducible refine keeps_of ?_; first | with_reducible assumption | (with_reducible refine keeps_putQueue ?_ ..) | (with_reducible refine keeps_putCap ?_ ..))
    | split
    | (refine keeps_ite ?_ ?_))

theorem keeps_issueEnd {s0 s : State} {q : Nat} {k : Closing} (hK : Keeps s0 s) :
    Keeps s0 (State.issueEnd s q k) := by
  unfold State.issueEnd
  repeat' (first
    | (with_reducible assumption)
    | (intro x; first | ((have hx : Keeps s0 x := ?_); (try clear_value x); rotate_left; dsimp -zeta only [x]; rotate_right) | ((have hx : Keeps s0 x.1 := ?_); (try clear_value x); rotate_left; dsimp -zeta only [x]; rotate_right) | ((have hx : Keeps s0 x.2 := ?_); (try clear_value x); rotate_left; dsimp -zeta only [x]; rotate_right) | (clear_value x) | skip)
    | lift_lets -underBinder
    | (with_reducible refine keeps_putCap ?_ ..)
    | (with_reducible refine keeps_storeBytes ?_ ..)
    | (with_reducible refine keeps_ownDesc ?_ ..)
    | (refine keeps_ownDesc_eq (by assumption) ?_)
    | (with_reducible refine keeps_ite ?_ ?_)
    | (fail_if_no_progress beta_reduce)
    | (dsimp only [Keeps, part]; with_reducible refine keeps_of ?_; first | with_reducible assumption | (with_reducible refine keeps_putCap ?_ ..) | (with_reducible refine keeps_storeBytes ?_ ..) | (with_reducible refine keeps_ownDesc ?_ ..) | (refine keeps_ownDesc_eq (by assumption) ?_))
    | split
    | (refine keeps_ite ?_ ?_))

theorem keeps_issueEnds {s0 s : State} {q : Nat} (hK : Keeps s0 s) :
    Keeps s0 (State.issueEnds s q) := by
  unfold State.issueEnds
  repeat' (first
    | (with_reducible assumption)
    | (intro x; first | ((have hx : Keeps s0 x := ?_); (try clear_value x); rotate_left; dsimp -zeta only [x]; rotate_right) | ((have hx : Keeps s0 x.1 := ?_); (try clear_value x); rotate_left; dsimp -zeta only [x]; rotate_right) | ((have hx : Keeps s0 x.2 := ?_); (try clear_value x); rotate_left; dsimp -zeta only [x]; rotate_right) | (clear_value x) | skip)
    | lift_lets -underBinder
    | (with_reducible refine keeps_putCap ?_ ..)
    | (with_reducible refine keeps_closeWindow ?_ ..)
    | (with_reducible refine keeps_issueEnd ?_ ..)
    | (with_reducible refine keeps_foldl (fun s x hK => ?_) ?_)
    | (with_reducible refine keeps_foldl_fst (fun s x hK => ?_) ?_)
    | (refine keeps_foldl_eq (by assumption) (fun s x hK => ?_) ?_)
    | (with_reducible refine keeps_ite ?_ ?_)
    | (fail_if_no_progress beta_reduce)
    | (dsimp only [Keeps, part]; with_reducible refine keeps_of ?_; first | with_reducible assumption | (with_reducible refine keeps_putCap ?_ ..) | (with_reducible refine keeps_closeWindow ?_ ..) | (with_reducible refine keeps_issueEnd ?_ ..) | (refine keeps_foldl_eq (by assumption) (fun s x hK => ?_) ?_))
    | split
    | (refine keeps_ite ?_ ?_))

theorem keeps_releaseWindows {s0 s : State} {q : Nat} {n : Nat} (hK : Keeps s0 s) :
    Keeps s0 (State.releaseWindows s q n) := by
  unfold State.releaseWindows
  repeat' (first
    | (with_reducible assumption)
    | (intro x; first | ((have hx : Keeps s0 x := ?_); (try clear_value x); rotate_left; dsimp -zeta only [x]; rotate_right) | ((have hx : Keeps s0 x.1 := ?_); (try clear_value x); rotate_left; dsimp -zeta only [x]; rotate_right) | ((have hx : Keeps s0 x.2 := ?_); (try clear_value x); rotate_left; dsimp -zeta only [x]; rotate_right) | (clear_value x) | skip)
    | lift_lets -underBinder
    | (with_reducible refine keeps_putQueue ?_ ..)
    | (with_reducible refine keeps_putCap ?_ ..)
    | (with_reducible refine keeps_ite ?_ ?_)
    | (fail_if_no_progress beta_reduce)
    | (dsimp only [Keeps, part]; with_reducible refine keeps_of ?_; first | with_reducible assumption | (with_reducible refine keeps_putQueue ?_ ..) | (with_reducible refine keeps_putCap ?_ ..))
    | split
    | (refine keeps_ite ?_ ?_))

theorem keeps_findClosed {s0 s : State} {q : Nat} (hK : Keeps s0 s) :
    Keeps s0 (State.findClosed s q) := by
  unfold State.findClosed
  repeat' (first
    | (with_reducible assumption)
    | (intro x; first | ((have hx : Keeps s0 x := ?_); (try clear_value x); rotate_left; dsimp -zeta only [x]; rotate_right) | ((have hx : Keeps s0 x.1 := ?_); (try clear_value x); rotate_left; dsimp -zeta only [x]; rotate_right) | ((have hx : Keeps s0 x.2 := ?_); (try clear_value x); rotate_left; dsimp -zeta only [x]; rotate_right) | (clear_value x) | skip)
    | lift_lets -underBinder
    | (with_reducible refine keeps_putCap ?_ ..)
    | (with_reducible refine keeps_ite ?_ ?_)
    | (fail_if_no_progress beta_reduce)
    | (dsimp only [Keeps, part]; with_reducible refine keeps_of ?_; first | with_reducible assumption | (with_reducible refine keeps_putCap ?_ ..))
    | split
    | (refine keeps_ite ?_ ?_))

theorem keeps_dropCapture {s0 s : State} {x : Desc} (hK : Keeps s0 s) :
    Keeps s0 (State.dropCapture s x) := by
  unfold State.dropCapture
  repeat' (first
    | (with_reducible assumption)
    | (intro x; first | ((have hx : Keeps s0 x := ?_); (try clear_value x); rotate_left; dsimp -zeta only [x]; rotate_right) | ((have hx : Keeps s0 x.1 := ?_); (try clear_value x); rotate_left; dsimp -zeta only [x]; rotate_right) | ((have hx : Keeps s0 x.2 := ?_); (try clear_value x); rotate_left; dsimp -zeta only [x]; rotate_right) | (clear_value x) | skip)
    | lift_lets -underBinder
    | (with_reducible refine keeps_bump ?_ ..)
    | (with_reducible refine keeps_raise ?_ ..)
    | (with_reducible refine keeps_putCap ?_ ..)
    | (with_reducible refine keeps_endDesc ?_ ..)
    | (with_reducible refine keeps_ite ?_ ?_)
    | (fail_if_no_progress beta_reduce)
    | (dsimp only [Keeps, part]; with_reducible refine keeps_of ?_; first | with_reducible assumption | (with_reducible refine keeps_bump ?_ ..) | (with_reducible refine keeps_raise ?_ ..) | (with_reducible refine keeps_putCap ?_ ..) | (with_reducible refine keeps_endDesc ?_ ..))
    | split
    | (refine keeps_ite ?_ ?_))

theorem keeps_placeRecord {s0 s : State} {x : Desc} {e : QEntry} {pad : Nat} (hK : Keeps s0 s) :
    Keeps s0 (State.placeRecord s x e pad) := by
  unfold State.placeRecord
  repeat' (first
    | (with_reducible assumption)
    | (intro x; first | ((have hx : Keeps s0 x := ?_); (try clear_value x); rotate_left; dsimp -zeta only [x]; rotate_right) | ((have hx : Keeps s0 x.1 := ?_); (try clear_value x); rotate_left; dsimp -zeta only [x]; rotate_right) | ((have hx : Keeps s0 x.2 := ?_); (try clear_value x); rotate_left; dsimp -zeta only [x]; rotate_right) | ((have hx : ∀ t, Keeps s0 t → Keeps s0 (x t) := ?_); (try clear_value x); rotate_left; dsimp -zeta only [x]; intros; rotate_right) | ((have hx : ∀ t a, Keeps s0 t → Keeps s0 (x t a) := ?_); (try clear_value x); rotate_left; dsimp -zeta only [x]; intros; rotate_right) | ((have hx : ∀ a t, Keeps s0 t → Keeps s0 (x a t) := ?_); (try clear_value x); rotate_left; dsimp -zeta only [x]; intros; rotate_right) | ((have hx : ∀ t a b, Keeps s0 t → Keeps s0 (x t a b) := ?_); (try clear_value x); rotate_left; dsimp -zeta only [x]; intros; rotate_right) | ((have hx : ∀ a b t, Keeps s0 t → Keeps s0 (x a b t) := ?_); (try clear_value x); rotate_left; dsimp -zeta only [x]; intros; rotate_right) | ((have hx : ∀ a, Keeps s0 (x a) := ?_); (try clear_value x); rotate_left; dsimp -zeta only [x]; intros; rotate_right) | (have hf : ∀ a, x a = x a := fun _ => rfl) | (clear_value x) | skip)
    | lift_lets -underBinder
    | (with_reducible refine keeps_putQueue ?_ ..)
    | (with_reducible refine keeps_putCap ?_ ..)
    | (with_reducible refine keeps_putDesc ?_ ..)
    | (with_reducible refine keeps_submitQ ?_ ..)
    | (with_reducible refine keeps_foldl (fun s x hK => ?_) ?_)
    | (with_reducible refine keeps_foldl_fst (fun s x hK => ?_) ?_)
    | (refine keeps_foldl_eq (by assumption) (fun s x hK => ?_) ?_)
    | (with_reducible refine keeps_ite ?_ ?_)
    | (with_reducible apply_assumption)
    | (fail_if_no_progress beta_reduce)
    | (dsimp only [Keeps, part]; with_reducible refine keeps_of ?_; first | with_reducible assumption | (with_reducible refine keeps_putQueue ?_ ..) | (with_reducible refine keeps_putCap ?_ ..) | (with_reducible refine keeps_putDesc ?_ ..) | (with_reducible refine keeps_submitQ ?_ ..) | (refine keeps_foldl_eq (by assumption) (fun s x hK => ?_) ?_))
    | split
    | (refine keeps_ite ?_ ?_))

theorem keeps_placeCapture {s0 s : State} {x : Desc} (hK : Keeps s0 s) :
    Keeps s0 (State.placeCapture s x) := by
  unfold State.placeCapture
  repeat' (first
    | (with_reducible assumption)
    | (intro x; first | ((have hx : Keeps s0 x := ?_); (try clear_value x); rotate_left; dsimp -zeta only [x]; rotate_right) | ((have hx : Keeps s0 x.1 := ?_); (try clear_value x); rotate_left; dsimp -zeta only [x]; rotate_right) | ((have hx : Keeps s0 x.2 := ?_); (try clear_value x); rotate_left; dsimp -zeta only [x]; rotate_right) | (clear_value x) | skip)
    | lift_lets -underBinder
    | (with_reducible refine keeps_bump ?_ ..)
    | (with_reducible refine keeps_raise ?_ ..)
    | (with_reducible refine keeps_putDesc ?_ ..)
    | (with_reducible refine keeps_closeWindow ?_ ..)
    | (with_reducible refine keeps_issueEnds ?_ ..)
    | (with_reducible refine keeps_releaseWindows ?_ ..)
    | (with_reducible refine keeps_findClosed ?_ ..)
    | (with_reducible refine keeps_dropCapture ?_ ..)
    | (with_reducible refine keeps_placeRecord ?_ ..)
    | (with_reducible refine keeps_ite ?_ ?_)
    | (fail_if_no_progress beta_reduce)
    | (dsimp only [Keeps, part]; with_reducible refine keeps_of ?_; first | with_reducible assumption | (with_reducible refine keeps_bump ?_ ..) | (with_reducible refine keeps_raise ?_ ..) | (with_reducible refine keeps_putDesc ?_ ..) | (with_reducible refine keeps_closeWindow ?_ ..) | (with_reducible refine keeps_issueEnds ?_ ..) | (with_reducible refine keeps_releaseWindows ?_ ..) | (with_reducible refine keeps_findClosed ?_ ..) | (with_reducible refine keeps_dropCapture ?_ ..) | (with_reducible refine keeps_placeRecord ?_ ..))
    | split
    | (refine keeps_ite ?_ ?_))

theorem keeps_arbitrate {s0 s : State} {ready : List (Nat × Nat)} (hK : Keeps s0 s) :
    Keeps s0 (State.arbitrate s ready).2 := by
  unfold State.arbitrate
  repeat' (first
    | (with_reducible assumption)
    | (intro x; first | ((have hx : Keeps s0 x := ?_); (try clear_value x); rotate_left; dsimp -zeta only [x]; rotate_right) | ((have hx : Keeps s0 x.1 := ?_); (try clear_value x); rotate_left; dsimp -zeta only [x]; rotate_right) | ((have hx : Keeps s0 x.2 := ?_); (try clear_value x); rotate_left; dsimp -zeta only [x]; rotate_right) | (clear_value x) | skip)
    | lift_lets -underBinder
    | (with_reducible refine keeps_getD ?_ ?_)
    | (with_reducible refine keeps_ite ?_ ?_)
    | (fail_if_no_progress beta_reduce)
    | (dsimp only [Keeps, part]; with_reducible refine keeps_of ?_; first | with_reducible assumption)
    | split
    | (refine keeps_ite ?_ ?_))

theorem keeps_arbitrate_eq {s0 s tE : State} {bE : Option Nat} {ready : List (Nat × Nat)} (hEq : State.arbitrate s ready = (bE, tE)) (hK : Keeps s0 s) : Keeps s0 tE := by
  have k : Keeps s0 (State.arbitrate s ready).2 := keeps_arbitrate hK
  rw [hEq] at k
  exact k

theorem keeps_fetchFrom {s0 s : State} {q : Nat} {e : QEntry} (hK : Keeps s0 s) :
    Keeps s0 (State.fetchFrom s q e) := by
  unfold State.fetchFrom
  repeat' (first
    | (with_reducible assumption)
    | (intro x; first | ((have hx : Keeps s0 x := ?_); (try clear_value x); rotate_left; dsimp -zeta only [x]; rotate_right) | ((have hx : Keeps s0 x.1 := ?_); (try clear_value x); rotate_left; dsimp -zeta only [x]; rotate_right) | ((have hx : Keeps s0 x.2 := ?_); (try clear_value x); rotate_left; dsimp -zeta only [x]; rotate_right) | (clear_value x) | skip)
    | lift_lets -underBinder
    | (with_reducible refine keeps_submitQ ?_ ..)
    | (with_reducible refine keeps_ite ?_ ?_)
    | (fail_if_no_progress beta_reduce)
    | (dsimp only [Keeps, part]; with_reducible refine keeps_of ?_; first | with_reducible assumption | (with_reducible refine keeps_submitQ ?_ ..))
    | split
    | (refine keeps_ite ?_ ?_))

theorem keeps_execDescriptorFetch {s0 s : State} {at_ : Nat} (hK : Keeps s0 s) :
    XKeeps s0 (execDescriptorFetch at_ s) := by
  unfold execDescriptorFetch
  repeat' (first
    | (with_reducible assumption)
    | (intro x; first | ((have hx : Keeps s0 x := ?_); (try clear_value x); rotate_left; dsimp -zeta only [x]; rotate_right) | ((have hx : Keeps s0 x.1 := ?_); (try clear_value x); rotate_left; dsimp -zeta only [x]; rotate_right) | ((have hx : Keeps s0 x.2 := ?_); (try clear_value x); rotate_left; dsimp -zeta only [x]; rotate_right) | (clear_value x) | skip)
    | lift_lets -underBinder
    | (with_reducible refine keeps_tick ?_ ..)
    | (with_reducible refine keeps_settle ?_ ..)
    | (with_reducible refine keeps_touchContext ?_ ..)
    | (with_reducible refine keeps_arbitrate ?_ ..)
    | (refine keeps_arbitrate_eq (by assumption) ?_)
    | (with_reducible refine keeps_fetchFrom ?_ ..)
    | (with_reducible refine keeps_foldl (fun s x hK => ?_) ?_)
    | (with_reducible refine keeps_foldl_fst (fun s x hK => ?_) ?_)
    | (refine keeps_foldl_eq (by assumption) (fun s x hK => ?_) ?_)
    | (with_reducible refine keeps_ite ?_ ?_)
    | (with_reducible refine xkeeps_next ?_)
    | (fail_if_no_progress beta_reduce)
    | (dsimp only [Keeps, part]; with_reducible refine keeps_of ?_; first | with_reducible assumption | (with_reducible refine keeps_tick ?_ ..) | (with_reducible refine keeps_settle ?_ ..) | (with_reducible refine keeps_touchContext ?_ ..) | (with_reducible refine keeps_arbitrate ?_ ..) | (refine keeps_arbitrate_eq (by assumption) ?_) | (with_reducible refine keeps_fetchFrom ?_ ..) | (refine keeps_foldl_eq (by assumption) (fun s x hK => ?_) ?_))
    | split
    | (refine keeps_ite ?_ ?_))

theorem keeps_doorbellError {s0 s : State} {via : Via} {q : Nat} {code : Nat} {f : FieldRef} (hK : Keeps s0 s) :
    Keeps s0 (State.doorbellError s via q code f) := by
  unfold State.doorbellError
  repeat' (first
    | (with_reducible assumption)
    | (intro x; first | ((have hx : Keeps s0 x := ?_); (try clear_value x); rotate_left; dsimp -zeta only [x]; rotate_right) | ((have hx : Keeps s0 x.1 := ?_); (try clear_value x); rotate_left; dsimp -zeta only [x]; rotate_right) | ((have hx : Keeps s0 x.2 := ?_); (try clear_value x); rotate_left; dsimp -zeta only [x]; rotate_right) | (clear_value x) | skip)
    | lift_lets -underBinder
    | (with_reducible refine keeps_raiseArg ?_ ..)
    | (with_reducible refine keeps_logQueue ?_ ..)
    | (with_reducible refine keeps_ite ?_ ?_)
    | (fail_if_no_progress beta_reduce)
    | (dsimp only [Keeps, part]; with_reducible refine keeps_of ?_; first | with_reducible assumption | (with_reducible refine keeps_raiseArg ?_ ..) | (with_reducible refine keeps_logQueue ?_ ..))
    | split
    | (refine keeps_ite ?_ ?_))

theorem keeps_winRel {s0 s : State} {via : Via} {q : Nat} {n : Nat} (hK : Keeps s0 s) :
    Keeps s0 (State.winRel s via q n) := by
  unfold State.winRel
  repeat' (first
    | (with_reducible assumption)
    | (intro x; first | ((have hx : Keeps s0 x := ?_); (try clear_value x); rotate_left; dsimp -zeta only [x]; rotate_right) | ((have hx : Keeps s0 x.1 := ?_); (try clear_value x); rotate_left; dsimp -zeta only [x]; rotate_right) | ((have hx : Keeps s0 x.2 := ?_); (try clear_value x); rotate_left; dsimp -zeta only [x]; rotate_right) | (clear_value x) | skip)
    | lift_lets -underBinder
    | (with_reducible refine keeps_releaseWindows ?_ ..)
    | (with_reducible refine keeps_findClosed ?_ ..)
    | (with_reducible refine keeps_doorbellError ?_ ..)
    | (with_reducible refine keeps_ite ?_ ?_)
    | (fail_if_no_progress beta_reduce)
    | (dsimp only [Keeps, part]; with_reducible refine keeps_of ?_; first | with_reducible assumption | (with_reducible refine keeps_releaseWindows ?_ ..) | (with_reducible refine keeps_findClosed ?_ ..) | (with_reducible refine keeps_doorbellError ?_ ..))
    | split
    | (refine keeps_ite ?_ ?_))

theorem keeps_ringDoorbell {s0 s : State} {via : Via} {q : Nat} {v : Word} (hK : Keeps s0 s) :
    Keeps s0 (State.ringDoorbell s via q v) := by
  unfold State.ringDoorbell
  repeat' (first
    | (with_reducible assumption)
    | (intro x; first | ((have hx : Keeps s0 x := ?_); (try clear_value x); rotate_left; dsimp -zeta only [x]; rotate_right) | ((have hx : Keeps s0 x.1 := ?_); (try clear_value x); rotate_left; dsimp -zeta only [x]; rotate_right) | ((have hx : Keeps s0 x.2 := ?_); (try clear_value x); rotate_left; dsimp -zeta only [x]; rotate_right) | (clear_value x) | skip)
    | lift_lets -underBinder
    | (with_reducible refine keeps_raiseArg ?_ ..)
    | (with_reducible refine keeps_putQueue ?_ ..)
    | (with_reducible refine keeps_queueError ?_ ..)
    | (with_reducible refine keeps_touchContext ?_ ..)
    | (with_reducible refine keeps_flushWindows ?_ ..)
    | (with_reducible refine keeps_doorbellError ?_ ..)
    | (with_reducible refine keeps_winRel ?_ ..)
    | (with_reducible refine keeps_ite ?_ ?_)
    | (fail_if_no_progress beta_reduce)
    | (dsimp only [Keeps, part]; with_reducible refine keeps_of ?_; first | with_reducible assumption | (with_reducible refine keeps_raiseArg ?_ ..) | (with_reducible refine keeps_putQueue ?_ ..) | (with_reducible refine keeps_queueError ?_ ..) | (with_reducible refine keeps_touchContext ?_ ..) | (with_reducible refine keeps_flushWindows ?_ ..) | (with_reducible refine keeps_doorbellError ?_ ..) | (with_reducible refine keeps_winRel ?_ ..))
    | split
    | (refine keeps_ite ?_ ?_))

theorem keeps_writeDoorbell {s0 s : State} {via : Via} {q : Nat} {w : AccW} {v : Word} (hK : Keeps s0 s) :
    Keeps s0 (State.writeDoorbell s via q w v) := by
  unfold State.writeDoorbell
  repeat' (first
    | (with_reducible assumption)
    | (intro x; first | ((have hx : Keeps s0 x := ?_); (try clear_value x); rotate_left; dsimp -zeta only [x]; rotate_right) | ((have hx : Keeps s0 x.1 := ?_); (try clear_value x); rotate_left; dsimp -zeta only [x]; rotate_right) | ((have hx : Keeps s0 x.2 := ?_); (try clear_value x); rotate_left; dsimp -zeta only [x]; rotate_right) | (clear_value x) | skip)
    | lift_lets -underBinder
    | (with_reducible refine keeps_serve ?_ ..)
    | (with_reducible refine keeps_settle ?_ ..)
    | (with_reducible refine keeps_doorbellError ?_ ..)
    | (with_reducible refine keeps_ringDoorbell ?_ ..)
    | (refine keeps_admit_drop (by assumption) ?_)
    | (refine keeps_admit_serve (by assumption) ?_)
    | (with_reducible refine keeps_ite ?_ ?_)
    | (fail_if_no_progress beta_reduce)
    | (dsimp only [Keeps, part]; with_reducible refine keeps_of ?_; first | with_reducible assumption | (with_reducible refine keeps_serve ?_ ..) | (with_reducible refine keeps_settle ?_ ..) | (with_reducible refine keeps_doorbellError ?_ ..) | (with_reducible refine keeps_ringDoorbell ?_ ..) | (refine keeps_admit_drop (by assumption) ?_) | (refine keeps_admit_serve (by assumption) ?_))
    | split
    | (refine keeps_ite ?_ ?_))

theorem keeps_execDoorbellWrite {s0 s : State} {via : Via} {q : Nat} {w : AccW} {v : Word} {at_ : Nat} (hK : Keeps s0 s) :
    XKeeps s0 (execDoorbellWrite via q w v at_ s) := by
  unfold execDoorbellWrite
  repeat' (first
    | (with_reducible assumption)
    | (intro x; first | ((have hx : Keeps s0 x := ?_); (try clear_value x); rotate_left; dsimp -zeta only [x]; rotate_right) | ((have hx : Keeps s0 x.1 := ?_); (try clear_value x); rotate_left; dsimp -zeta only [x]; rotate_right) | ((have hx : Keeps s0 x.2 := ?_); (try clear_value x); rotate_left; dsimp -zeta only [x]; rotate_right) | (clear_value x) | skip)
    | lift_lets -underBinder
    | (with_reducible refine keeps_tick ?_ ..)
    | (with_reducible refine keeps_writeDoorbell ?_ ..)
    | (with_reducible refine keeps_ite ?_ ?_)
    | (with_reducible refine xkeeps_next ?_)
    | (fail_if_no_progress beta_reduce)
    | (dsimp only [Keeps, part]; with_reducible refine keeps_of ?_; first | with_reducible assumption | (with_reducible refine keeps_tick ?_ ..) | (with_reducible refine keeps_writeDoorbell ?_ ..))
    | split
    | (refine keeps_ite ?_ ?_))

theorem keeps_startDesc {s0 s : State} {q : Nat} {ix : Nat} {op : Nat} {act : QEntry → Desc → State → State} (hK : Keeps s0 s) (hact : ∀ x0 x1 t, Keeps s0 t → Keeps s0 (act x0 x1 t)) :
    Keeps s0 (State.startDesc s q ix op act) := by
  unfold State.startDesc
  repeat' (first
    | (with_reducible assumption)
    | (intro x; first | ((have hx : Keeps s0 x := ?_); (try clear_value x); rotate_left; dsimp -zeta only [x]; rotate_right) | ((have hx : Keeps s0 x.1 := ?_); (try clear_value x); rotate_left; dsimp -zeta only [x]; rotate_right) | ((have hx : Keeps s0 x.2 := ?_); (try clear_value x); rotate_left; dsimp -zeta only [x]; rotate_right) | (clear_value x) | skip)
    | lift_lets -underBinder
    | (with_reducible refine hact _ _ _ ?_)
    | (with_reducible refine hact _ ?_)
    | (with_reducible refine hact _ _ ?_)
    | (with_reducible refine keeps_settle ?_ ..)
    | (with_reducible refine keeps_ite ?_ ?_)
    | (fail_if_no_progress beta_reduce)
    | (dsimp only [Keeps, part]; with_reducible refine keeps_of ?_; first | with_reducible assumption | (with_reducible refine keeps_settle ?_ ..))
    | split
    | (refine keeps_ite ?_ ?_))

theorem keeps_addAwaiting {s0 s : State} {x : Desc} {e : QEntry} {off : Nat} {be : Word} {left : Nat} (hK : Keeps s0 s) :
    Keeps s0 (State.addAwaiting s x e off be left) := by
  unfold State.addAwaiting
  repeat' (first
    | (with_reducible assumption)
    | (intro x; first | ((have hx : Keeps s0 x := ?_); (try clear_value x); rotate_left; dsimp -zeta only [x]; rotate_right) | ((have hx : Keeps s0 x.1 := ?_); (try clear_value x); rotate_left; dsimp -zeta only [x]; rotate_right) | ((have hx : Keeps s0 x.2 := ?_); (try clear_value x); rotate_left; dsimp -zeta only [x]; rotate_right) | (clear_value x) | skip)
    | lift_lets -underBinder
    | (with_reducible refine keeps_ite ?_ ?_)
    | (fail_if_no_progress beta_reduce)
    | (dsimp only [Keeps, part]; with_reducible refine keeps_of ?_; first | with_reducible assumption)
    | split
    | (refine keeps_ite ?_ ?_))

theorem keeps_startCopy {s0 s : State} {x : Desc} {e : QEntry} (hK : Keeps s0 s) :
    Keeps s0 (State.startCopy s x e) := by
  unfold State.startCopy
  repeat' (first
    | (with_reducible assumption)
    | (intro x; first | ((have hx : Keeps s0 x := ?_); (try clear_value x); rotate_left; dsimp -zeta only [x]; rotate_right) | ((have hx : Keeps s0 x.1 := ?_); (try clear_value x); rotate_left; dsimp -zeta only [x]; rotate_right) | ((have hx : Keeps s0 x.2 := ?_); (try clear_value x); rotate_left; dsimp -zeta only [x]; rotate_right) | (clear_value x) | skip)
    | lift_lets -underBinder
    | (with_reducible refine keeps_putDesc ?_ ..)
    | (with_reducible refine keeps_submitQ ?_ ..)
    | (with_reducible refine keeps_addAwaiting ?_ ..)
    | (with_reducible refine keeps_foldl (fun s x hK => ?_) ?_)
    | (with_reducible refine keeps_foldl_fst (fun s x hK => ?_) ?_)
    | (refine keeps_foldl_eq (by assumption) (fun s x hK => ?_) ?_)
    | (with_reducible refine keeps_ite ?_ ?_)
    | (fail_if_no_progress beta_reduce)
    | (dsimp only [Keeps, part]; with_reducible refine keeps_of ?_; first | with_reducible assumption | (with_reducible refine keeps_putDesc ?_ ..) | (with_reducible refine keeps_submitQ ?_ ..) | (with_reducible refine keeps_addAwaiting ?_ ..) | (refine keeps_foldl_eq (by assumption) (fun s x hK => ?_) ?_))
    | split
    | (refine keeps_ite ?_ ?_))

theorem keeps_execCopy {s0 s : State} {q : Nat} {ix : Nat} {at_ : Nat} (hK : Keeps s0 s) :
    XKeeps s0 (execCopy q ix at_ s) := by
  unfold execCopy
  repeat' (first
    | (with_reducible assumption)
    | (intro x; first | ((have hx : Keeps s0 x := ?_); (try clear_value x); rotate_left; dsimp -zeta only [x]; rotate_right) | ((have hx : Keeps s0 x.1 := ?_); (try clear_value x); rotate_left; dsimp -zeta only [x]; rotate_right) | ((have hx : Keeps s0 x.2 := ?_); (try clear_value x); rotate_left; dsimp -zeta only [x]; rotate_right) | (clear_value x) | skip)
    | lift_lets -underBinder
    | (with_reducible refine keeps_tick ?_ ..)
    | (with_reducible refine keeps_startDesc ?_ ?_ ..)
    | (with_reducible refine keeps_startCopy ?_ ..)
    | (with_reducible refine keeps_ite ?_ ?_)
    | (with_reducible refine xkeeps_next ?_)
    | (fail_if_no_progress beta_reduce)
    | (dsimp only [Keeps, part]; with_reducible refine keeps_of ?_; first | with_reducible assumption | (with_reducible refine keeps_tick ?_ ..) | (with_reducible refine keeps_startDesc ?_ ?_ ..) | (with_reducible refine keeps_startCopy ?_ ..))
    | split
    | (refine keeps_ite ?_ ?_))

theorem keeps_startFillOp {s0 s : State} {x : Desc} (hK : Keeps s0 s) :
    Keeps s0 (State.startFillOp s x) := by
  unfold State.startFillOp
  repeat' (first
    | (with_reducible assumption)
    | (intro x; first | ((have hx : Keeps s0 x := ?_); (try clear_value x); rotate_left; dsimp -zeta only [x]; rotate_right) | ((have hx : Keeps s0 x.1 := ?_); (try clear_value x); rotate_left; dsimp -zeta only [x]; rotate_right) | ((have hx : Keeps s0 x.2 := ?_); (try clear_value x); rotate_left; dsimp -zeta only [x]; rotate_right) | (clear_value x) | skip)
    | lift_lets -underBinder
    | (with_reducible refine keeps_putDesc ?_ ..)
    | (with_reducible refine keeps_submitQ ?_ ..)
    | (with_reducible refine keeps_foldl (fun s x hK => ?_) ?_)
    | (with_reducible refine keeps_foldl_fst (fun s x hK => ?_) ?_)
    | (refine keeps_foldl_eq (by assumption) (fun s x hK => ?_) ?_)
    | (with_reducible refine keeps_ite ?_ ?_)
    | (fail_if_no_progress beta_reduce)
    | (dsimp only [Keeps, part]; with_reducible refine keeps_of ?_; first | with_reducible assumption | (with_reducible refine keeps_putDesc ?_ ..) | (with_reducible refine keeps_submitQ ?_ ..) | (refine keeps_foldl_eq (by assumption) (fun s x hK => ?_) ?_))
    | split
    | (refine keeps_ite ?_ ?_))

theorem keeps_execFill {s0 s : State} {q : Nat} {ix : Nat} {at_ : Nat} (hK : Keeps s0 s) :
    XKeeps s0 (execFill q ix at_ s) := by
  unfold execFill
  repeat' (first
    | (with_reducible assumption)
    | (intro x; first | ((have hx : Keeps s0 x := ?_); (try clear_value x); rotate_left; dsimp -zeta only [x]; rotate_right) | ((have hx : Keeps s0 x.1 := ?_); (try clear_value x); rotate_left; dsimp -zeta only [x]; rotate_right) | ((have hx : Keeps s0 x.2 := ?_); (try clear_value x); rotate_left; dsimp -zeta only [x]; rotate_right) | (clear_value x) | skip)
    | lift_lets -underBinder
    | (with_reducible refine keeps_tick ?_ ..)
    | (with_reducible refine keeps_startDesc ?_ ?_ ..)
    | (with_reducible refine keeps_startFillOp ?_ ..)
    | (with_reducible refine keeps_ite ?_ ?_)
    | (with_reducible refine xkeeps_next ?_)
    | (fail_if_no_progress beta_reduce)
    | (dsimp only [Keeps, part]; with_reducible refine keeps_of ?_; first | with_reducible assumption | (with_reducible refine keeps_tick ?_ ..) | (with_reducible refine keeps_startDesc ?_ ?_ ..) | (with_reducible refine keeps_startFillOp ?_ ..))
    | split
    | (refine keeps_ite ?_ ?_))

theorem keeps_startParts {s0 s : State} {x : Desc} (hK : Keeps s0 s) :
    Keeps s0 (State.startParts s x) := by
  unfold State.startParts
  repeat' (first
    | (with_reducible assumption)
    | (intro x; first | ((have hx : Keeps s0 x := ?_); (try clear_value x); rotate_left; dsimp -zeta only [x]; rotate_right) | ((have hx : Keeps s0 x.1 := ?_); (try clear_value x); rotate_left; dsimp -zeta only [x]; rotate_right) | ((have hx : Keeps s0 x.2 := ?_); (try clear_value x); rotate_left; dsimp -zeta only [x]; rotate_right) | (clear_value x) | skip)
    | lift_lets -underBinder
    | (with_reducible refine keeps_putDesc ?_ ..)
    | (with_reducible refine keeps_submitQ ?_ ..)
    | (with_reducible refine keeps_foldl (fun s x hK => ?_) ?_)
    | (with_reducible refine keeps_foldl_fst (fun s x hK => ?_) ?_)
    | (refine keeps_foldl_eq (by assumption) (fun s x hK => ?_) ?_)
    | (with_reducible refine keeps_ite ?_ ?_)
    | (fail_if_no_progress beta_reduce)
    | (dsimp only [Keeps, part]; with_reducible refine keeps_of ?_; first | with_reducible assumption | (with_reducible refine keeps_putDesc ?_ ..) | (with_reducible refine keeps_submitQ ?_ ..) | (refine keeps_foldl_eq (by assumption) (fun s x hK => ?_) ?_))
    | split
    | (refine keeps_ite ?_ ?_))

theorem keeps_execFlush {s0 s : State} {q : Nat} {ix : Nat} {at_ : Nat} (hK : Keeps s0 s) :
    XKeeps s0 (execFlush q ix at_ s) := by
  unfold execFlush
  repeat' (first
    | (with_reducible assumption)
    | (intro x; first | ((have hx : Keeps s0 x := ?_); (try clear_value x); rotate_left; dsimp -zeta only [x]; rotate_right) | ((have hx : Keeps s0 x.1 := ?_); (try clear_value x); rotate_left; dsimp -zeta only [x]; rotate_right) | ((have hx : Keeps s0 x.2 := ?_); (try clear_value x); rotate_left; dsimp -zeta only [x]; rotate_right) | (clear_value x) | skip)
    | lift_lets -underBinder
    | (with_reducible refine keeps_tick ?_ ..)
    | (with_reducible refine keeps_startDesc ?_ ?_ ..)
    | (with_reducible refine keeps_startParts ?_ ..)
    | (with_reducible refine keeps_ite ?_ ?_)
    | (with_reducible refine xkeeps_next ?_)
    | (fail_if_no_progress beta_reduce)
    | (dsimp only [Keeps, part]; with_reducible refine keeps_of ?_; first | with_reducible assumption | (with_reducible refine keeps_tick ?_ ..) | (with_reducible refine keeps_startDesc ?_ ?_ ..) | (with_reducible refine keeps_startParts ?_ ..))
    | split
    | (refine keeps_ite ?_ ?_))

theorem keeps_startMigrate {s0 s : State} {x : Desc} (hK : Keeps s0 s) :
    Keeps s0 (State.startMigrate s x) := by
  unfold State.startMigrate
  repeat' (first
    | (with_reducible assumption)
    | (intro x; first | ((have hx : Keeps s0 x := ?_); (try clear_value x); rotate_left; dsimp -zeta only [x]; rotate_right) | ((have hx : Keeps s0 x.1 := ?_); (try clear_value x); rotate_left; dsimp -zeta only [x]; rotate_right) | ((have hx : Keeps s0 x.2 := ?_); (try clear_value x); rotate_left; dsimp -zeta only [x]; rotate_right) | (clear_value x) | skip)
    | lift_lets -underBinder
    | (with_reducible refine keeps_endDesc ?_ ..)
    | (with_reducible refine keeps_startParts ?_ ..)
    | (with_reducible refine keeps_ite ?_ ?_)
    | (fail_if_no_progress beta_reduce)
    | (dsimp only [Keeps, part]; with_reducible refine keeps_of ?_; first | with_reducible assumption | (with_reducible refine keeps_endDesc ?_ ..) | (with_reducible refine keeps_startParts ?_ ..))
    | split
    | (refine keeps_ite ?_ ?_))

theorem keeps_execMigrate {s0 s : State} {q : Nat} {ix : Nat} {at_ : Nat} (hK : Keeps s0 s) :
    XKeeps s0 (execMigrate q ix at_ s) := by
  unfold execMigrate
  repeat' (first
    | (with_reducible assumption)
    | (intro x; first | ((have hx : Keeps s0 x := ?_); (try clear_value x); rotate_left; dsimp -zeta only [x]; rotate_right) | ((have hx : Keeps s0 x.1 := ?_); (try clear_value x); rotate_left; dsimp -zeta only [x]; rotate_right) | ((have hx : Keeps s0 x.2 := ?_); (try clear_value x); rotate_left; dsimp -zeta only [x]; rotate_right) | (clear_value x) | skip)
    | lift_lets -underBinder
    | (with_reducible refine keeps_tick ?_ ..)
    | (with_reducible refine keeps_startDesc ?_ ?_ ..)
    | (with_reducible refine keeps_startMigrate ?_ ..)
    | (with_reducible refine keeps_ite ?_ ?_)
    | (with_reducible refine xkeeps_next ?_)
    | (fail_if_no_progress beta_reduce)
    | (dsimp only [Keeps, part]; with_reducible refine keeps_of ?_; first | with_reducible assumption | (with_reducible refine keeps_tick ?_ ..) | (with_reducible refine keeps_startDesc ?_ ?_ ..) | (with_reducible refine keeps_startMigrate ?_ ..))
    | split
    | (refine keeps_ite ?_ ?_))

theorem keeps_startPin {s0 s : State} {x : Desc} (hK : Keeps s0 s) :
    Keeps s0 (State.startPin s x) := by
  unfold State.startPin
  repeat' (first
    | (with_reducible assumption)
    | (intro x; first | ((have hx : Keeps s0 x := ?_); (try clear_value x); rotate_left; dsimp -zeta only [x]; rotate_right) | ((have hx : Keeps s0 x.1 := ?_); (try clear_value x); rotate_left; dsimp -zeta only [x]; rotate_right) | ((have hx : Keeps s0 x.2 := ?_); (try clear_value x); rotate_left; dsimp -zeta only [x]; rotate_right) | (clear_value x) | skip)
    | lift_lets -underBinder
    | (with_reducible refine keeps_endDesc ?_ ..)
    | (with_reducible refine keeps_startParts ?_ ..)
    | (with_reducible refine keeps_ite ?_ ?_)
    | (fail_if_no_progress beta_reduce)
    | (dsimp only [Keeps, part]; with_reducible refine keeps_of ?_; first | with_reducible assumption | (with_reducible refine keeps_endDesc ?_ ..) | (with_reducible refine keeps_startParts ?_ ..))
    | split
    | (refine keeps_ite ?_ ?_))

theorem keeps_execPin {s0 s : State} {q : Nat} {ix : Nat} {at_ : Nat} (hK : Keeps s0 s) :
    XKeeps s0 (execPin q ix at_ s) := by
  unfold execPin
  repeat' (first
    | (with_reducible assumption)
    | (intro x; first | ((have hx : Keeps s0 x := ?_); (try clear_value x); rotate_left; dsimp -zeta only [x]; rotate_right) | ((have hx : Keeps s0 x.1 := ?_); (try clear_value x); rotate_left; dsimp -zeta only [x]; rotate_right) | ((have hx : Keeps s0 x.2 := ?_); (try clear_value x); rotate_left; dsimp -zeta only [x]; rotate_right) | (clear_value x) | skip)
    | lift_lets -underBinder
    | (with_reducible refine keeps_tick ?_ ..)
    | (with_reducible refine keeps_startDesc ?_ ?_ ..)
    | (with_reducible refine keeps_startPin ?_ ..)
    | (with_reducible refine keeps_ite ?_ ?_)
    | (with_reducible refine xkeeps_next ?_)
    | (fail_if_no_progress beta_reduce)
    | (dsimp only [Keeps, part]; with_reducible refine keeps_of ?_; first | with_reducible assumption | (with_reducible refine keeps_tick ?_ ..) | (with_reducible refine keeps_startDesc ?_ ?_ ..) | (with_reducible refine keeps_startPin ?_ ..))
    | split
    | (refine keeps_ite ?_ ?_))

theorem keeps_execUnpin {s0 s : State} {q : Nat} {ix : Nat} {at_ : Nat} (hK : Keeps s0 s) :
    XKeeps s0 (execUnpin q ix at_ s) := by
  unfold execUnpin
  repeat' (first
    | (with_reducible assumption)
    | (intro x; first | ((have hx : Keeps s0 x := ?_); (try clear_value x); rotate_left; dsimp -zeta only [x]; rotate_right) | ((have hx : Keeps s0 x.1 := ?_); (try clear_value x); rotate_left; dsimp -zeta only [x]; rotate_right) | ((have hx : Keeps s0 x.2 := ?_); (try clear_value x); rotate_left; dsimp -zeta only [x]; rotate_right) | (clear_value x) | skip)
    | lift_lets -underBinder
    | (with_reducible refine keeps_tick ?_ ..)
    | (with_reducible refine keeps_startDesc ?_ ?_ ..)
    | (with_reducible refine keeps_startParts ?_ ..)
    | (with_reducible refine keeps_ite ?_ ?_)
    | (with_reducible refine xkeeps_next ?_)
    | (fail_if_no_progress beta_reduce)
    | (dsimp only [Keeps, part]; with_reducible refine keeps_of ?_; first | with_reducible assumption | (with_reducible refine keeps_tick ?_ ..) | (with_reducible refine keeps_startDesc ?_ ?_ ..) | (with_reducible refine keeps_startParts ?_ ..))
    | split
    | (refine keeps_ite ?_ ?_))

theorem keeps_execDiscard {s0 s : State} {q : Nat} {ix : Nat} {at_ : Nat} (hK : Keeps s0 s) :
    XKeeps s0 (execDiscard q ix at_ s) := by
  unfold execDiscard
  repeat' (first
    | (with_reducible assumption)
    | (intro x; first | ((have hx : Keeps s0 x := ?_); (try clear_value x); rotate_left; dsimp -zeta only [x]; rotate_right) | ((have hx : Keeps s0 x.1 := ?_); (try clear_value x); rotate_left; dsimp -zeta only [x]; rotate_right) | ((have hx : Keeps s0 x.2 := ?_); (try clear_value x); rotate_left; dsimp -zeta only [x]; rotate_right) | (clear_value x) | skip)
    | lift_lets -underBinder
    | (with_reducible refine keeps_tick ?_ ..)
    | (with_reducible refine keeps_startDesc ?_ ?_ ..)
    | (with_reducible refine keeps_startParts ?_ ..)
    | (with_reducible refine keeps_ite ?_ ?_)
    | (with_reducible refine xkeeps_next ?_)
    | (fail_if_no_progress beta_reduce)
    | (dsimp only [Keeps, part]; with_reducible refine keeps_of ?_; first | with_reducible assumption | (with_reducible refine keeps_tick ?_ ..) | (with_reducible refine keeps_startDesc ?_ ?_ ..) | (with_reducible refine keeps_startParts ?_ ..))
    | split
    | (refine keeps_ite ?_ ?_))

theorem keeps_execFence {s0 s : State} {q : Nat} {ix : Nat} {at_ : Nat} (hK : Keeps s0 s) :
    XKeeps s0 (execFence q ix at_ s) := by
  unfold execFence
  repeat' (first
    | (with_reducible assumption)
    | (intro x; first | ((have hx : Keeps s0 x := ?_); (try clear_value x); rotate_left; dsimp -zeta only [x]; rotate_right) | ((have hx : Keeps s0 x.1 := ?_); (try clear_value x); rotate_left; dsimp -zeta only [x]; rotate_right) | ((have hx : Keeps s0 x.2 := ?_); (try clear_value x); rotate_left; dsimp -zeta only [x]; rotate_right) | (clear_value x) | skip)
    | lift_lets -underBinder
    | (with_reducible refine keeps_tick ?_ ..)
    | (with_reducible refine keeps_endDesc ?_ ..)
    | (with_reducible refine keeps_ite ?_ ?_)
    | (with_reducible refine xkeeps_next ?_)
    | (fail_if_no_progress beta_reduce)
    | (dsimp only [Keeps, part]; with_reducible refine keeps_of ?_; first | with_reducible assumption | (with_reducible refine keeps_tick ?_ ..) | (with_reducible refine keeps_endDesc ?_ ..))
    | split
    | (refine keeps_ite ?_ ?_))

theorem keeps_startPayload {s0 s : State} {x : Desc} (hK : Keeps s0 s) :
    Keeps s0 (State.startPayload s x) := by
  unfold State.startPayload
  repeat' (first
    | (with_reducible assumption)
    | (intro x; first | ((have hx : Keeps s0 x := ?_); (try clear_value x); rotate_left; dsimp -zeta only [x]; rotate_right) | ((have hx : Keeps s0 x.1 := ?_); (try clear_value x); rotate_left; dsimp -zeta only [x]; rotate_right) | ((have hx : Keeps s0 x.2 := ?_); (try clear_value x); rotate_left; dsimp -zeta only [x]; rotate_right) | (clear_value x) | skip)
    | lift_lets -underBinder
    | (with_reducible refine keeps_putDesc ?_ ..)
    | (with_reducible refine keeps_submitQ ?_ ..)
    | (with_reducible refine keeps_foldl (fun s x hK => ?_) ?_)
    | (with_reducible refine keeps_foldl_fst (fun s x hK => ?_) ?_)
    | (refine keeps_foldl_eq (by assumption) (fun s x hK => ?_) ?_)
    | (with_reducible refine keeps_ite ?_ ?_)
    | (fail_if_no_progress beta_reduce)
    | (dsimp only [Keeps, part]; with_reducible refine keeps_of ?_; first | with_reducible assumption | (with_reducible refine keeps_putDesc ?_ ..) | (with_reducible refine keeps_submitQ ?_ ..) | (refine keeps_foldl_eq (by assumption) (fun s x hK => ?_) ?_))
    | split
    | (refine keeps_ite ?_ ?_))

theorem keeps_execCapture {s0 s : State} {q : Nat} {ix : Nat} {at_ : Nat} (hK : Keeps s0 s) :
    XKeeps s0 (execCapture q ix at_ s) := by
  unfold execCapture
  repeat' (first
    | (with_reducible assumption)
    | (intro x; first | ((have hx : Keeps s0 x := ?_); (try clear_value x); rotate_left; dsimp -zeta only [x]; rotate_right) | ((have hx : Keeps s0 x.1 := ?_); (try clear_value x); rotate_left; dsimp -zeta only [x]; rotate_right) | ((have hx : Keeps s0 x.2 := ?_); (try clear_value x); rotate_left; dsimp -zeta only [x]; rotate_right) | (clear_value x) | skip)
    | lift_lets -underBinder
    | (with_reducible refine keeps_tick ?_ ..)
    | (with_reducible refine keeps_settle ?_ ..)
    | (with_reducible refine keeps_placeCapture ?_ ..)
    | (with_reducible refine keeps_startPayload ?_ ..)
    | (with_reducible refine keeps_ite ?_ ?_)
    | (with_reducible refine xkeeps_next ?_)
    | (fail_if_no_progress beta_reduce)
    | (dsimp only [Keeps, part]; with_reducible refine keeps_of ?_; first | with_reducible assumption | (with_reducible refine keeps_tick ?_ ..) | (with_reducible refine keeps_settle ?_ ..) | (with_reducible refine keeps_placeCapture ?_ ..) | (with_reducible refine keeps_startPayload ?_ ..))
    | split
    | (refine keeps_ite ?_ ?_))

theorem keeps_startVerifyOp {s0 s : State} {x : Desc} (hK : Keeps s0 s) :
    Keeps s0 (State.startVerifyOp s x) := by
  unfold State.startVerifyOp
  repeat' (first
    | (with_reducible assumption)
    | (intro x; first | ((have hx : Keeps s0 x := ?_); (try clear_value x); rotate_left; dsimp -zeta only [x]; rotate_right) | ((have hx : Keeps s0 x.1 := ?_); (try clear_value x); rotate_left; dsimp -zeta only [x]; rotate_right) | ((have hx : Keeps s0 x.2 := ?_); (try clear_value x); rotate_left; dsimp -zeta only [x]; rotate_right) | (clear_value x) | skip)
    | lift_lets -underBinder
    | (with_reducible refine keeps_putDesc ?_ ..)
    | (with_reducible refine keeps_submitQ ?_ ..)
    | (with_reducible refine keeps_foldl (fun s x hK => ?_) ?_)
    | (with_reducible refine keeps_foldl_fst (fun s x hK => ?_) ?_)
    | (refine keeps_foldl_eq (by assumption) (fun s x hK => ?_) ?_)
    | (with_reducible refine keeps_ite ?_ ?_)
    | (fail_if_no_progress beta_reduce)
    | (dsimp only [Keeps, part]; with_reducible refine keeps_of ?_; first | with_reducible assumption | (with_reducible refine keeps_putDesc ?_ ..) | (with_reducible refine keeps_submitQ ?_ ..) | (refine keeps_foldl_eq (by assumption) (fun s x hK => ?_) ?_))
    | split
    | (refine keeps_ite ?_ ?_))

theorem keeps_verifyReport {s0 s : State} {x : Desc} (hK : Keeps s0 s) :
    Keeps s0 (State.verifyReport s x) := by
  unfold State.verifyReport
  repeat' (first
    | (with_reducible assumption)
    | (intro x; first | ((have hx : Keeps s0 x := ?_); (try clear_value x); rotate_left; dsimp -zeta only [x]; rotate_right) | ((have hx : Keeps s0 x.1 := ?_); (try clear_value x); rotate_left; dsimp -zeta only [x]; rotate_right) | ((have hx : Keeps s0 x.2 := ?_); (try clear_value x); rotate_left; dsimp -zeta only [x]; rotate_right) | (clear_value x) | skip)
    | lift_lets -underBinder
    | (with_reducible refine keeps_storeBytes ?_ ..)
    | (with_reducible refine keeps_ite ?_ ?_)
    | (fail_if_no_progress beta_reduce)
    | (dsimp only [Keeps, part]; with_reducible refine keeps_of ?_; first | with_reducible assumption | (with_reducible refine keeps_storeBytes ?_ ..))
    | split
    | (refine keeps_ite ?_ ?_))

theorem keeps_execVerify {s0 s : State} {q : Nat} {ix : Nat} {at_ : Nat} (hK : Keeps s0 s) :
    XKeeps s0 (execVerify q ix at_ s) := by
  unfold execVerify
  repeat' (first
    | (with_reducible assumption)
    | (intro x; first | ((have hx : Keeps s0 x := ?_); (try clear_value x); rotate_left; dsimp -zeta only [x]; rotate_right) | ((have hx : Keeps s0 x.1 := ?_); (try clear_value x); rotate_left; dsimp -zeta only [x]; rotate_right) | ((have hx : Keeps s0 x.2 := ?_); (try clear_value x); rotate_left; dsimp -zeta only [x]; rotate_right) | (clear_value x) | skip)
    | lift_lets -underBinder
    | (with_reducible refine keeps_tick ?_ ..)
    | (with_reducible refine keeps_settle ?_ ..)
    | (with_reducible refine keeps_startDesc ?_ ?_ ..)
    | (with_reducible refine keeps_startVerifyOp ?_ ..)
    | (with_reducible refine keeps_verifyReport ?_ ..)
    | (with_reducible refine keeps_ite ?_ ?_)
    | (with_reducible refine xkeeps_next ?_)
    | (fail_if_no_progress beta_reduce)
    | (dsimp only [Keeps, part]; with_reducible refine keeps_of ?_; first | with_reducible assumption | (with_reducible refine keeps_tick ?_ ..) | (with_reducible refine keeps_settle ?_ ..) | (with_reducible refine keeps_startDesc ?_ ?_ ..) | (with_reducible refine keeps_startVerifyOp ?_ ..) | (with_reducible refine keeps_verifyReport ?_ ..))
    | split
    | (refine keeps_ite ?_ ?_))

theorem keeps_afterDesc {s0 s : State} {q : Nat} (hK : Keeps s0 s) :
    Keeps s0 (State.afterDesc s q) := by
  unfold State.afterDesc
  repeat' (first
    | (with_reducible assumption)
    | (intro x; first | ((have hx : Keeps s0 x := ?_); (try clear_value x); rotate_left; dsimp -zeta only [x]; rotate_right) | ((have hx : Keeps s0 x.1 := ?_); (try clear_value x); rotate_left; dsimp -zeta only [x]; rotate_right) | ((have hx : Keeps s0 x.2 := ?_); (try clear_value x); rotate_left; dsimp -zeta only [x]; rotate_right) | (clear_value x) | skip)
    | lift_lets -underBinder
    | (with_reducible refine keeps_flushWindows ?_ ..)
    | (with_reducible refine keeps_checkStop ?_ ..)
    | (with_reducible refine keeps_issueEnds ?_ ..)
    | (with_reducible refine keeps_ite ?_ ?_)
    | (fail_if_no_progress beta_reduce)
    | (dsimp only [Keeps, part]; with_reducible refine keeps_of ?_; first | with_reducible assumption | (with_reducible refine keeps_flushWindows ?_ ..) | (with_reducible refine keeps_checkStop ?_ ..) | (with_reducible refine keeps_issueEnds ?_ ..))
    | split
    | (refine keeps_ite ?_ ?_))

theorem keeps_execDescriptorDone {s0 s : State} {q : Nat} {ix : Nat} {at_ : Nat} (hK : Keeps s0 s) :
    XKeeps s0 (execDescriptorDone q ix at_ s) := by
  unfold execDescriptorDone
  repeat' (first
    | (with_reducible assumption)
    | (intro x; first | ((have hx : Keeps s0 x := ?_); (try clear_value x); rotate_left; dsimp -zeta only [x]; rotate_right) | ((have hx : Keeps s0 x.1 := ?_); (try clear_value x); rotate_left; dsimp -zeta only [x]; rotate_right) | ((have hx : Keeps s0 x.2 := ?_); (try clear_value x); rotate_left; dsimp -zeta only [x]; rotate_right) | (clear_value x) | skip)
    | lift_lets -underBinder
    | (with_reducible refine keeps_tick ?_ ..)
    | (with_reducible refine keeps_delDesc ?_ ..)
    | (with_reducible refine keeps_settle ?_ ..)
    | (with_reducible refine keeps_cqWrite ?_ ..)
    | (with_reducible refine keeps_afterDesc ?_ ..)
    | (with_reducible refine keeps_ite ?_ ?_)
    | (with_reducible refine xkeeps_next ?_)
    | (fail_if_no_progress beta_reduce)
    | (dsimp only [Keeps, part]; with_reducible refine keeps_of ?_; first | with_reducible assumption | (with_reducible refine keeps_tick ?_ ..) | (with_reducible refine keeps_delDesc ?_ ..) | (with_reducible refine keeps_settle ?_ ..) | (with_reducible refine keeps_cqWrite ?_ ..) | (with_reducible refine keeps_afterDesc ?_ ..))
    | split
    | (refine keeps_ite ?_ ?_))

theorem keeps_execCaptureWindowEnd {s0 s : State} {q : Nat} {at_ : Nat} (hK : Keeps s0 s) :
    XKeeps s0 (execCaptureWindowEnd q at_ s) := by
  unfold execCaptureWindowEnd
  repeat' (first
    | (with_reducible assumption)
    | (intro x; first | ((have hx : Keeps s0 x := ?_); (try clear_value x); rotate_left; dsimp -zeta only [x]; rotate_right) | ((have hx : Keeps s0 x.1 := ?_); (try clear_value x); rotate_left; dsimp -zeta only [x]; rotate_right) | ((have hx : Keeps s0 x.2 := ?_); (try clear_value x); rotate_left; dsimp -zeta only [x]; rotate_right) | (clear_value x) | skip)
    | lift_lets -underBinder
    | (with_reducible refine keeps_tick ?_ ..)
    | (with_reducible refine keeps_settle ?_ ..)
    | (with_reducible refine keeps_closeWindow ?_ ..)
    | (with_reducible refine keeps_issueEnds ?_ ..)
    | (with_reducible refine keeps_ite ?_ ?_)
    | (with_reducible refine xkeeps_next ?_)
    | (fail_if_no_progress beta_reduce)
    | (dsimp only [Keeps, part]; with_reducible refine keeps_of ?_; first | with_reducible assumption | (with_reducible refine keeps_tick ?_ ..) | (with_reducible refine keeps_settle ?_ ..) | (with_reducible refine keeps_closeWindow ?_ ..) | (with_reducible refine keeps_issueEnds ?_ ..))
    | split
    | (refine keeps_ite ?_ ?_))

theorem keeps_execWindowEndDone {s0 s : State} {q : Nat} {at_ : Nat} (hK : Keeps s0 s) :
    XKeeps s0 (execWindowEndDone q at_ s) := by
  unfold execWindowEndDone
  repeat' (first
    | (with_reducible assumption)
    | (intro x; first | ((have hx : Keeps s0 x := ?_); (try clear_value x); rotate_left; dsimp -zeta only [x]; rotate_right) | ((have hx : Keeps s0 x.1 := ?_); (try clear_value x); rotate_left; dsimp -zeta only [x]; rotate_right) | ((have hx : Keeps s0 x.2 := ?_); (try clear_value x); rotate_left; dsimp -zeta only [x]; rotate_right) | (clear_value x) | skip)
    | lift_lets -underBinder
    | (with_reducible refine keeps_tick ?_ ..)
    | (with_reducible refine keeps_putCap ?_ ..)
    | (with_reducible refine keeps_queueError ?_ ..)
    | (with_reducible refine keeps_delDesc ?_ ..)
    | (with_reducible refine keeps_settle ?_ ..)
    | (with_reducible refine keeps_flushWindows ?_ ..)
    | (with_reducible refine keeps_issueEnds ?_ ..)
    | (with_reducible refine keeps_ite ?_ ?_)
    | (with_reducible refine xkeeps_next ?_)
    | (fail_if_no_progress beta_reduce)
    | (dsimp only [Keeps, part]; with_reducible refine keeps_of ?_; first | with_reducible assumption | (with_reducible refine keeps_tick ?_ ..) | (with_reducible refine keeps_putCap ?_ ..) | (with_reducible refine keeps_queueError ?_ ..) | (with_reducible refine keeps_delDesc ?_ ..) | (with_reducible refine keeps_settle ?_ ..) | (with_reducible refine keeps_flushWindows ?_ ..) | (with_reducible refine keeps_issueEnds ?_ ..))
    | split
    | (refine keeps_ite ?_ ?_))

theorem keeps_restartRing {s0 s : State} {q : Nat} (hK : Keeps s0 s) :
    Keeps s0 (State.restartRing s q) := by
  unfold State.restartRing
  repeat' (first
    | (with_reducible assumption)
    | (intro x; first | ((have hx : Keeps s0 x := ?_); (try clear_value x); rotate_left; dsimp -zeta only [x]; rotate_right) | ((have hx : Keeps s0 x.1 := ?_); (try clear_value x); rotate_left; dsimp -zeta only [x]; rotate_right) | ((have hx : Keeps s0 x.2 := ?_); (try clear_value x); rotate_left; dsimp -zeta only [x]; rotate_right) | (clear_value x) | skip)
    | lift_lets -underBinder
    | (with_reducible refine keeps_raise ?_ ..)
    | (with_reducible refine keeps_putQueue ?_ ..)
    | (with_reducible refine keeps_putCap ?_ ..)
    | (with_reducible refine keeps_issueEnds ?_ ..)
    | (with_reducible refine keeps_ite ?_ ?_)
    | (fail_if_no_progress beta_reduce)
    | (dsimp only [Keeps, part]; with_reducible refine keeps_of ?_; first | with_reducible assumption | (with_reducible refine keeps_raise ?_ ..) | (with_reducible refine keeps_putQueue ?_ ..) | (with_reducible refine keeps_putCap ?_ ..) | (with_reducible refine keeps_issueEnds ?_ ..))
    | split
    | (refine keeps_ite ?_ ?_))

theorem keeps_queuesUp {s0 s : State} (hK : Keeps s0 s) :
    Keeps s0 (State.queuesUp s) := by
  unfold State.queuesUp
  repeat' (first
    | (with_reducible assumption)
    | (intro x; first | ((have hx : Keeps s0 x := ?_); (try clear_value x); rotate_left; dsimp -zeta only [x]; rotate_right) | ((have hx : Keeps s0 x.1 := ?_); (try clear_value x); rotate_left; dsimp -zeta only [x]; rotate_right) | ((have hx : Keeps s0 x.2 := ?_); (try clear_value x); rotate_left; dsimp -zeta only [x]; rotate_right) | (clear_value x) | skip)
    | lift_lets -underBinder
    | (with_reducible refine keeps_stopped ?_ ..)
    | (with_reducible refine keeps_ite ?_ ?_)
    | (fail_if_no_progress beta_reduce)
    | (dsimp only [Keeps, part]; with_reducible refine keeps_of ?_; first | with_reducible assumption | (with_reducible refine keeps_stopped ?_ ..))
    | split
    | (refine keeps_ite ?_ ?_))

theorem keeps_doCreate {s0 s : State} {a0 : Word} {a1 : Word} {a2 : Word} {a3 : Word} {a4 : Word} (hK : Keeps s0 s) :
    Keeps s0 (State.doCreate s a0 a1 a2 a3 a4) := by
  unfold State.doCreate
  repeat' (first
    | (with_reducible assumption)
    | (intro x; first | ((have hx : Keeps s0 x := ?_); (try clear_value x); rotate_left; dsimp -zeta only [x]; rotate_right) | ((have hx : Keeps s0 x.1 := ?_); (try clear_value x); rotate_left; dsimp -zeta only [x]; rotate_right) | ((have hx : Keeps s0 x.2 := ?_); (try clear_value x); rotate_left; dsimp -zeta only [x]; rotate_right) | (clear_value x) | skip)
    | lift_lets -underBinder
    | (with_reducible refine keeps_put ?_ ..)
    | (with_reducible refine keeps_putQueue ?_ ..)
    | (with_reducible refine keeps_putCap ?_ ..)
    | (with_reducible refine keeps_endQu ?_ ..)
    | (with_reducible refine keeps_ite ?_ ?_)
    | (fail_if_no_progress beta_reduce)
    | (dsimp only [Keeps, part]; with_reducible refine keeps_of ?_; first | with_reducible assumption | (with_reducible refine keeps_put ?_ ..) | (with_reducible refine keeps_putQueue ?_ ..) | (with_reducible refine keeps_putCap ?_ ..) | (with_reducible refine keeps_endQu ?_ ..))
    | split
    | (refine keeps_ite ?_ ?_))

theorem keeps_clearQueue {s0 s : State} {q : Nat} {caps : Bool} (hK : Keeps s0 s) :
    Keeps s0 (State.clearQueue s q caps) := by
  unfold State.clearQueue
  repeat' (first
    | (with_reducible assumption)
    | (intro x; first | ((have hx : Keeps s0 x := ?_); (try clear_value x); rotate_left; dsimp -zeta only [x]; rotate_right) | ((have hx : Keeps s0 x.1 := ?_); (try clear_value x); rotate_left; dsimp -zeta only [x]; rotate_right) | ((have hx : Keeps s0 x.2 := ?_); (try clear_value x); rotate_left; dsimp -zeta only [x]; rotate_right) | (clear_value x) | skip)
    | lift_lets -underBinder
    | (with_reducible refine keeps_ite ?_ ?_)
    | (fail_if_no_progress beta_reduce)
    | (dsimp only [Keeps, part]; with_reducible refine keeps_of ?_; first | with_reducible assumption)
    | split
    | (refine keeps_ite ?_ ?_))

theorem keeps_doQueue {s0 s : State} {op : Nat} {q : Nat} {e : QEntry} (hK : Keeps s0 s) :
    Keeps s0 (State.doQueue s op q e) := by
  unfold State.doQueue
  repeat' (first
    | (with_reducible assumption)
    | (intro x; first | ((have hx : Keeps s0 x := ?_); (try clear_value x); rotate_left; dsimp -zeta only [x]; rotate_right) | ((have hx : Keeps s0 x.1 := ?_); (try clear_value x); rotate_left; dsimp -zeta only [x]; rotate_right) | ((have hx : Keeps s0 x.2 := ?_); (try clear_value x); rotate_left; dsimp -zeta only [x]; rotate_right) | (clear_value x) | skip)
    | lift_lets -underBinder
    | (with_reducible refine keeps_setReg ?_ ..)
    | (with_reducible refine keeps_putQueue ?_ ..)
    | (with_reducible refine keeps_putCap ?_ ..)
    | (with_reducible refine keeps_winWrite ?_ ..)
    | (with_reducible refine keeps_endQu ?_ ..)
    | (with_reducible refine keeps_checkStop ?_ ..)
    | (with_reducible refine keeps_issueEnds ?_ ..)
    | (with_reducible refine keeps_clearQueue ?_ ..)
    | (with_reducible refine keeps_stopped ?_ ..)
    | (with_reducible refine keeps_ite ?_ ?_)
    | (fail_if_no_progress beta_reduce)
    | (dsimp only [Keeps, part]; with_reducible refine keeps_of ?_; first | with_reducible assumption | (with_reducible refine keeps_setReg ?_ ..) | (with_reducible refine keeps_putQueue ?_ ..) | (with_reducible refine keeps_putCap ?_ ..) | (with_reducible refine keeps_winWrite ?_ ..) | (with_reducible refine keeps_endQu ?_ ..) | (with_reducible refine keeps_checkStop ?_ ..) | (with_reducible refine keeps_issueEnds ?_ ..) | (with_reducible refine keeps_clearQueue ?_ ..) | (with_reducible refine keeps_stopped ?_ ..))
    | split
    | (refine keeps_ite ?_ ?_))

theorem keeps_startQu {s0 s : State} {op : Nat} {a0 : Word} {a1 : Word} {a2 : Word} {a3 : Word} {a4 : Word} (hK : Keeps s0 s) :
    Keeps s0 (State.startQu s op a0 a1 a2 a3 a4) := by
  unfold State.startQu
  repeat' (first
    | (with_reducible assumption)
    | (intro x; first | ((have hx : Keeps s0 x := ?_); (try clear_value x); rotate_left; dsimp -zeta only [x]; rotate_right) | ((have hx : Keeps s0 x.1 := ?_); (try clear_value x); rotate_left; dsimp -zeta only [x]; rotate_right) | ((have hx : Keeps s0 x.2 := ?_); (try clear_value x); rotate_left; dsimp -zeta only [x]; rotate_right) | (clear_value x) | skip)
    | lift_lets -underBinder
    | (with_reducible refine keeps_put ?_ ..)
    | (with_reducible refine keeps_raise ?_ ..)
    | (with_reducible refine keeps_settle ?_ ..)
    | (with_reducible refine keeps_endQu ?_ ..)
    | (with_reducible refine keeps_doCreate ?_ ..)
    | (with_reducible refine keeps_doQueue ?_ ..)
    | (with_reducible refine keeps_ite ?_ ?_)
    | (fail_if_no_progress beta_reduce)
    | (dsimp only [Keeps, part]; with_reducible refine keeps_of ?_; first | with_reducible assumption | (with_reducible refine keeps_put ?_ ..) | (with_reducible refine keeps_raise ?_ ..) | (with_reducible refine keeps_settle ?_ ..) | (with_reducible refine keeps_endQu ?_ ..) | (with_reducible refine keeps_doCreate ?_ ..) | (with_reducible refine keeps_doQueue ?_ ..))
    | split
    | (refine keeps_ite ?_ ?_))

theorem keeps_quCommand {s0 s : State} {via : Via} {op : Nat} {args : List (Reg × Word)} (hK : Keeps s0 s) :
    Keeps s0 (State.quCommand s via op args) := by
  unfold State.quCommand
  repeat' (first
    | (with_reducible assumption)
    | (intro x; first | ((have hx : Keeps s0 x := ?_); (try clear_value x); rotate_left; dsimp -zeta only [x]; rotate_right) | ((have hx : Keeps s0 x.1 := ?_); (try clear_value x); rotate_left; dsimp -zeta only [x]; rotate_right) | ((have hx : Keeps s0 x.2 := ?_); (try clear_value x); rotate_left; dsimp -zeta only [x]; rotate_right) | (clear_value x) | skip)
    | lift_lets -underBinder
    | (with_reducible refine keeps_command ?_ ?_ ..)
    | (with_reducible refine keeps_startQu ?_ ..)
    | (with_reducible refine keeps_ite ?_ ?_)
    | (fail_if_no_progress beta_reduce)
    | (dsimp only [Keeps, part]; with_reducible refine keeps_of ?_; first | with_reducible assumption | (with_reducible refine keeps_command ?_ ?_ ..) | (with_reducible refine keeps_startQu ?_ ..))
    | split
    | (refine keeps_ite ?_ ?_))

theorem keeps_execCreate {s0 s : State} {via : Via} {a0 : Word} {a1 : Word} {a2 : Word} {a3 : Word} {a4 : Word} {at_ : Nat} (hK : Keeps s0 s) :
    XKeeps s0 (execCreate via a0 a1 a2 a3 a4 at_ s) := by
  unfold execCreate
  repeat' (first
    | (with_reducible assumption)
    | (intro x; first | ((have hx : Keeps s0 x := ?_); (try clear_value x); rotate_left; dsimp -zeta only [x]; rotate_right) | ((have hx : Keeps s0 x.1 := ?_); (try clear_value x); rotate_left; dsimp -zeta only [x]; rotate_right) | ((have hx : Keeps s0 x.2 := ?_); (try clear_value x); rotate_left; dsimp -zeta only [x]; rotate_right) | (clear_value x) | skip)
    | lift_lets -underBinder
    | (with_reducible refine keeps_tick ?_ ..)
    | (with_reducible refine keeps_quCommand ?_ ..)
    | (with_reducible refine keeps_ite ?_ ?_)
    | (with_reducible refine xkeeps_next ?_)
    | (fail_if_no_progress beta_reduce)
    | (dsimp only [Keeps, part]; with_reducible refine keeps_of ?_; first | with_reducible assumption | (with_reducible refine keeps_tick ?_ ..) | (with_reducible refine keeps_quCommand ?_ ..))
    | split
    | (refine keeps_ite ?_ ?_))

theorem keeps_execDelete {s0 s : State} {via : Via} {a0 : Word} {at_ : Nat} (hK : Keeps s0 s) :
    XKeeps s0 (execDelete via a0 at_ s) := by
  unfold execDelete
  repeat' (first
    | (with_reducible assumption)
    | (intro x; first | ((have hx : Keeps s0 x := ?_); (try clear_value x); rotate_left; dsimp -zeta only [x]; rotate_right) | ((have hx : Keeps s0 x.1 := ?_); (try clear_value x); rotate_left; dsimp -zeta only [x]; rotate_right) | ((have hx : Keeps s0 x.2 := ?_); (try clear_value x); rotate_left; dsimp -zeta only [x]; rotate_right) | (clear_value x) | skip)
    | lift_lets -underBinder
    | (with_reducible refine keeps_tick ?_ ..)
    | (with_reducible refine keeps_quCommand ?_ ..)
    | (with_reducible refine keeps_ite ?_ ?_)
    | (with_reducible refine xkeeps_next ?_)
    | (fail_if_no_progress beta_reduce)
    | (dsimp only [Keeps, part]; with_reducible refine keeps_of ?_; first | with_reducible assumption | (with_reducible refine keeps_tick ?_ ..) | (with_reducible refine keeps_quCommand ?_ ..))
    | split
    | (refine keeps_ite ?_ ?_))

theorem keeps_execQuStart {s0 s : State} {via : Via} {a0 : Word} {at_ : Nat} (hK : Keeps s0 s) :
    XKeeps s0 (execQuStart via a0 at_ s) := by
  unfold execQuStart
  repeat' (first
    | (with_reducible assumption)
    | (intro x; first | ((have hx : Keeps s0 x := ?_); (try clear_value x); rotate_left; dsimp -zeta only [x]; rotate_right) | ((have hx : Keeps s0 x.1 := ?_); (try clear_value x); rotate_left; dsimp -zeta only [x]; rotate_right) | ((have hx : Keeps s0 x.2 := ?_); (try clear_value x); rotate_left; dsimp -zeta only [x]; rotate_right) | (clear_value x) | skip)
    | lift_lets -underBinder
    | (with_reducible refine keeps_tick ?_ ..)
    | (with_reducible refine keeps_quCommand ?_ ..)
    | (with_reducible refine keeps_ite ?_ ?_)
    | (with_reducible refine xkeeps_next ?_)
    | (fail_if_no_progress beta_reduce)
    | (dsimp only [Keeps, part]; with_reducible refine keeps_of ?_; first | with_reducible assumption | (with_reducible refine keeps_tick ?_ ..) | (with_reducible refine keeps_quCommand ?_ ..))
    | split
    | (refine keeps_ite ?_ ?_))

theorem keeps_execQuStop {s0 s : State} {via : Via} {a0 : Word} {at_ : Nat} (hK : Keeps s0 s) :
    XKeeps s0 (execQuStop via a0 at_ s) := by
  unfold execQuStop
  repeat' (first
    | (with_reducible assumption)
    | (intro x; first | ((have hx : Keeps s0 x := ?_); (try clear_value x); rotate_left; dsimp -zeta only [x]; rotate_right) | ((have hx : Keeps s0 x.1 := ?_); (try clear_value x); rotate_left; dsimp -zeta only [x]; rotate_right) | ((have hx : Keeps s0 x.2 := ?_); (try clear_value x); rotate_left; dsimp -zeta only [x]; rotate_right) | (clear_value x) | skip)
    | lift_lets -underBinder
    | (with_reducible refine keeps_tick ?_ ..)
    | (with_reducible refine keeps_quCommand ?_ ..)
    | (with_reducible refine keeps_ite ?_ ?_)
    | (with_reducible refine xkeeps_next ?_)
    | (fail_if_no_progress beta_reduce)
    | (dsimp only [Keeps, part]; with_reducible refine keeps_of ?_; first | with_reducible assumption | (with_reducible refine keeps_tick ?_ ..) | (with_reducible refine keeps_quCommand ?_ ..))
    | split
    | (refine keeps_ite ?_ ?_))

theorem keeps_execQuStopTimeout {s0 s : State} {at_ : Nat} (hK : Keeps s0 s) :
    XKeeps s0 (execQuStopTimeout at_ s) := by
  unfold execQuStopTimeout
  repeat' (first
    | (with_reducible assumption)
    | (intro x; first | ((have hx : Keeps s0 x := ?_); (try clear_value x); rotate_left; dsimp -zeta only [x]; rotate_right) | ((have hx : Keeps s0 x.1 := ?_); (try clear_value x); rotate_left; dsimp -zeta only [x]; rotate_right) | ((have hx : Keeps s0 x.2 := ?_); (try clear_value x); rotate_left; dsimp -zeta only [x]; rotate_right) | (clear_value x) | skip)
    | lift_lets -underBinder
    | (with_reducible refine keeps_tick ?_ ..)
    | (with_reducible refine keeps_endQu ?_ ..)
    | (with_reducible refine keeps_ite ?_ ?_)
    | (with_reducible refine xkeeps_next ?_)
    | (fail_if_no_progress beta_reduce)
    | (dsimp only [Keeps, part]; with_reducible refine keeps_of ?_; first | with_reducible assumption | (with_reducible refine keeps_tick ?_ ..) | (with_reducible refine keeps_endQu ?_ ..))
    | split
    | (refine keeps_ite ?_ ?_))

theorem keeps_execQuReset {s0 s : State} {via : Via} {a0 : Word} {at_ : Nat} (hK : Keeps s0 s) :
    XKeeps s0 (execQuReset via a0 at_ s) := by
  unfold execQuReset
  repeat' (first
    | (with_reducible assumption)
    | (intro x; first | ((have hx : Keeps s0 x := ?_); (try clear_value x); rotate_left; dsimp -zeta only [x]; rotate_right) | ((have hx : Keeps s0 x.1 := ?_); (try clear_value x); rotate_left; dsimp -zeta only [x]; rotate_right) | ((have hx : Keeps s0 x.2 := ?_); (try clear_value x); rotate_left; dsimp -zeta only [x]; rotate_right) | (clear_value x) | skip)
    | lift_lets -underBinder
    | (with_reducible refine keeps_tick ?_ ..)
    | (with_reducible refine keeps_quCommand ?_ ..)
    | (with_reducible refine keeps_ite ?_ ?_)
    | (with_reducible refine xkeeps_next ?_)
    | (fail_if_no_progress beta_reduce)
    | (dsimp only [Keeps, part]; with_reducible refine keeps_of ?_; first | with_reducible assumption | (with_reducible refine keeps_tick ?_ ..) | (with_reducible refine keeps_quCommand ?_ ..))
    | split
    | (refine keeps_ite ?_ ?_))

theorem keeps_execQuReadEntry {s0 s : State} {via : Via} {a0 : Word} {at_ : Nat} (hK : Keeps s0 s) :
    XKeeps s0 (execQuReadEntry via a0 at_ s) := by
  unfold execQuReadEntry
  repeat' (first
    | (with_reducible assumption)
    | (intro x; first | ((have hx : Keeps s0 x := ?_); (try clear_value x); rotate_left; dsimp -zeta only [x]; rotate_right) | ((have hx : Keeps s0 x.1 := ?_); (try clear_value x); rotate_left; dsimp -zeta only [x]; rotate_right) | ((have hx : Keeps s0 x.2 := ?_); (try clear_value x); rotate_left; dsimp -zeta only [x]; rotate_right) | (clear_value x) | skip)
    | lift_lets -underBinder
    | (with_reducible refine keeps_tick ?_ ..)
    | (with_reducible refine keeps_quCommand ?_ ..)
    | (with_reducible refine keeps_ite ?_ ?_)
    | (with_reducible refine xkeeps_next ?_)
    | (fail_if_no_progress beta_reduce)
    | (dsimp only [Keeps, part]; with_reducible refine keeps_of ?_; first | with_reducible assumption | (with_reducible refine keeps_tick ?_ ..) | (with_reducible refine keeps_quCommand ?_ ..))
    | split
    | (refine keeps_ite ?_ ?_))

theorem keeps_execQuCtxStatRead {s0 s : State} {via : Via} {w : AccW} (hK : Keeps s0 s) :
    XKeeps s0 (execQuCtxStatRead via w s) := by
  unfold execQuCtxStatRead
  repeat' (first
    | (with_reducible assumption)
    | (intro x; first | ((have hx : Keeps s0 x := ?_); (try clear_value x); rotate_left; dsimp -zeta only [x]; rotate_right) | ((have hx : Keeps s0 x.1 := ?_); (try clear_value x); rotate_left; dsimp -zeta only [x]; rotate_right) | ((have hx : Keeps s0 x.2 := ?_); (try clear_value x); rotate_left; dsimp -zeta only [x]; rotate_right) | (clear_value x) | skip)
    | lift_lets -underBinder
    | (with_reducible refine keeps_readAt ?_ ?_ ..)
    | (with_reducible refine keeps_clearRead ?_ ..)
    | (with_reducible refine keeps_ite ?_ ?_)
    | (with_reducible refine xkeeps_next ?_)
    | (fail_if_no_progress beta_reduce)
    | (dsimp only [Keeps, part]; with_reducible refine keeps_of ?_; first | with_reducible assumption | (with_reducible refine keeps_readAt ?_ ?_ ..) | (with_reducible refine keeps_clearRead ?_ ..))
    | split
    | (refine keeps_ite ?_ ?_))

theorem keeps_execQuCapStatRead {s0 s : State} {via : Via} {w : AccW} (hK : Keeps s0 s) :
    XKeeps s0 (execQuCapStatRead via w s) := by
  unfold execQuCapStatRead
  repeat' (first
    | (with_reducible assumption)
    | (intro x; first | ((have hx : Keeps s0 x := ?_); (try clear_value x); rotate_left; dsimp -zeta only [x]; rotate_right) | ((have hx : Keeps s0 x.1 := ?_); (try clear_value x); rotate_left; dsimp -zeta only [x]; rotate_right) | ((have hx : Keeps s0 x.2 := ?_); (try clear_value x); rotate_left; dsimp -zeta only [x]; rotate_right) | (clear_value x) | skip)
    | lift_lets -underBinder
    | (with_reducible refine keeps_readCounters ?_ ..)
    | (with_reducible refine keeps_ite ?_ ?_)
    | (with_reducible refine xkeeps_next ?_)
    | (fail_if_no_progress beta_reduce)
    | (dsimp only [Keeps, part]; with_reducible refine keeps_of ?_; first | with_reducible assumption | (with_reducible refine keeps_readCounters ?_ ..))
    | split
    | (refine keeps_ite ?_ ?_))

end Sys2Proof.Laws
end

