-- ==== Sys2Proof/Laws/KeepsMessages.lean ====
section
/-! SUPPORT. Every operation of Machine/Messages.lean keeps what Laws/Keeps.lean says. -/

set_option linter.unusedTactic false
set_option linter.unreachableTactic false
set_option linter.unusedVariables false

namespace Sys2Proof.Laws

open Sys2Proof Machine

theorem keeps_takeDesc {s0 s : State} {h : Hdr} {d : LineData} (hK : Keeps s0 s) :
    Keeps s0 (State.takeDesc s h d) := by
  unfold State.takeDesc
  repeat' (first
    | (with_reducible assumption)
    | (intro x; first | ((have hx : Keeps s0 x := ?_); (try clear_value x); rotate_left; dsimp -zeta only [x]; rotate_right) | ((have hx : Keeps s0 x.1 := ?_); (try clear_value x); rotate_left; dsimp -zeta only [x]; rotate_right) | ((have hx : Keeps s0 x.2 := ?_); (try clear_value x); rotate_left; dsimp -zeta only [x]; rotate_right) | (clear_value x) | skip)
    | lift_lets -underBinder
    | (with_reducible refine keeps_reply ?_ ..)
    | (with_reducible refine keeps_submit ?_ ..)
    | (with_reducible refine keeps_settle ?_ ..)
    | (with_reducible refine keeps_ite ?_ ?_)
    | (fail_if_no_progress beta_reduce)
    | (dsimp only [Keeps, part]; with_reducible refine keeps_of ?_; first | with_reducible assumption | (with_reducible refine keeps_reply ?_ ..) | (with_reducible refine keeps_submit ?_ ..) | (with_reducible refine keeps_settle ?_ ..))
    | split
    | (refine keeps_ite ?_ ?_))

theorem keeps_takeBl {s0 s : State} {h : Hdr} {op : Nat} {a0 : Word} {a1 : Word} {a2 : Word} (hK : Keeps s0 s) :
    Keeps s0 (State.takeBl s h op a0 a1 a2) := by
  unfold State.takeBl
  repeat' (first
    | (with_reducible assumption)
    | (intro x; first | ((have hx : Keeps s0 x := ?_); (try clear_value x); rotate_left; dsimp -zeta only [x]; rotate_right) | ((have hx : Keeps s0 x.1 := ?_); (try clear_value x); rotate_left; dsimp -zeta only [x]; rotate_right) | ((have hx : Keeps s0 x.2 := ?_); (try clear_value x); rotate_left; dsimp -zeta only [x]; rotate_right) | (clear_value x) | skip)
    | lift_lets -underBinder
    | (with_reducible refine keeps_reply ?_ ..)
    | (with_reducible refine keeps_settle ?_ ..)
    | (with_reducible refine keeps_addTenant ?_ ..)
    | (with_reducible refine keeps_dropTenant ?_ ..)
    | (with_reducible refine keeps_doBl ?_ ..)
    | (refine keeps_doBl_eq (by assumption) ?_)
    | (with_reducible refine keeps_ite ?_ ?_)
    | (fail_if_no_progress beta_reduce)
    | (dsimp only [Keeps, part]; with_reducible refine keeps_of ?_; first | with_reducible assumption | (with_reducible refine keeps_reply ?_ ..) | (with_reducible refine keeps_settle ?_ ..) | (with_reducible refine keeps_addTenant ?_ ..) | (with_reducible refine keeps_dropTenant ?_ ..) | (with_reducible refine keeps_doBl ?_ ..) | (refine keeps_doBl_eq (by assumption) ?_))
    | split
    | (refine keeps_ite ?_ ?_))

theorem keeps_takeTenantAnswer {s0 s : State} {t : TenantDel} {tag : Nat} {code : Nat} (hK : Keeps s0 s) :
    Keeps s0 (State.takeTenantAnswer s t tag code) := by
  unfold State.takeTenantAnswer
  repeat' (first
    | (with_reducible assumption)
    | (intro x; first | ((have hx : Keeps s0 x := ?_); (try clear_value x); rotate_left; dsimp -zeta only [x]; rotate_right) | ((have hx : Keeps s0 x.1 := ?_); (try clear_value x); rotate_left; dsimp -zeta only [x]; rotate_right) | ((have hx : Keeps s0 x.2 := ?_); (try clear_value x); rotate_left; dsimp -zeta only [x]; rotate_right) | (clear_value x) | skip)
    | lift_lets -underBinder
    | (with_reducible refine keeps_reply ?_ ..)
    | (with_reducible refine keeps_deleteTenant ?_ ..)
    | (refine keeps_deleteTenant_eq (by assumption) ?_)
    | (with_reducible refine keeps_endBl ?_ ..)
    | (with_reducible refine keeps_ite ?_ ?_)
    | (fail_if_no_progress beta_reduce)
    | (dsimp only [Keeps, part]; with_reducible refine keeps_of ?_; first | with_reducible assumption | (with_reducible refine keeps_reply ?_ ..) | (with_reducible refine keeps_deleteTenant ?_ ..) | (refine keeps_deleteTenant_eq (by assumption) ?_) | (with_reducible refine keeps_endBl ?_ ..) | (refine keeps_ite_eq (by assumption) ?_ ?_))
    | (refine keeps_ite_eq (by assumption) ?_ ?_)
    | split
    | (refine keeps_ite ?_ ?_))

theorem keeps_takeGated {s0 s : State} {h : Hdr} {p : Payload} (hK : Keeps s0 s) :
    Keeps s0 (State.takeGated s h p) := by
  unfold State.takeGated
  repeat' (first
    | (with_reducible assumption)
    | (intro x; first | ((have hx : Keeps s0 x := ?_); (try clear_value x); rotate_left; dsimp -zeta only [x]; rotate_right) | ((have hx : Keeps s0 x.1 := ?_); (try clear_value x); rotate_left; dsimp -zeta only [x]; rotate_right) | ((have hx : Keeps s0 x.2 := ?_); (try clear_value x); rotate_left; dsimp -zeta only [x]; rotate_right) | (clear_value x) | skip)
    | lift_lets -underBinder
    | (with_reducible refine keeps_takeMirror ?_ ..)
    | (with_reducible refine keeps_takeRead ?_ ..)
    | (with_reducible refine keeps_takeWrite ?_ ..)
    | (with_reducible refine keeps_takeEntry ?_ ..)
    | (with_reducible refine keeps_takeHandover ?_ ..)
    | (with_reducible refine keeps_takeCopy ?_ ..)
    | (with_reducible refine keeps_takeDesc ?_ ..)
    | (with_reducible refine keeps_takeBl ?_ ..)
    | (with_reducible refine keeps_ite ?_ ?_)
    | (fail_if_no_progress beta_reduce)
    | (dsimp only [Keeps, part]; with_reducible refine keeps_of ?_; first | with_reducible assumption | (with_reducible refine keeps_takeMirror ?_ ..) | (with_reducible refine keeps_takeRead ?_ ..) | (with_reducible refine keeps_takeWrite ?_ ..) | (with_reducible refine keeps_takeEntry ?_ ..) | (with_reducible refine keeps_takeHandover ?_ ..) | (with_reducible refine keeps_takeCopy ?_ ..) | (with_reducible refine keeps_takeDesc ?_ ..) | (with_reducible refine keeps_takeBl ?_ ..))
    | split
    | (refine keeps_ite ?_ ?_))

theorem keeps_arrive {s0 s : State} {h : Hdr} {p : Payload} (hK : Keeps s0 s) :
    Keeps s0 (State.arrive s h p) := by
  unfold State.arrive
  repeat' (first
    | (with_reducible assumption)
    | (intro x; first | ((have hx : Keeps s0 x := ?_); (try clear_value x); rotate_left; dsimp -zeta only [x]; rotate_right) | ((have hx : Keeps s0 x.1 := ?_); (try clear_value x); rotate_left; dsimp -zeta only [x]; rotate_right) | ((have hx : Keeps s0 x.2 := ?_); (try clear_value x); rotate_left; dsimp -zeta only [x]; rotate_right) | (clear_value x) | skip)
    | lift_lets -underBinder
    | (with_reducible refine keeps_sendThrough ?_ ..)
    | (with_reducible refine keeps_takeGated ?_ ..)
    | (with_reducible refine keeps_ite ?_ ?_)
    | (fail_if_no_progress beta_reduce)
    | (dsimp only [Keeps, part]; with_reducible refine keeps_of ?_; first | with_reducible assumption | (with_reducible refine keeps_sendThrough ?_ ..) | (with_reducible refine keeps_takeGated ?_ ..))
    | split
    | (refine keeps_ite ?_ ?_))

theorem keeps_passGate {s0 s : State} {h : Hdr} {p : Payload} (hK : Keeps s0 s) :
    Keeps s0 (State.passGate s h p) := by
  unfold State.passGate
  repeat' (first
    | (with_reducible assumption)
    | (intro x; first | ((have hx : Keeps s0 x := ?_); (try clear_value x); rotate_left; dsimp -zeta only [x]; rotate_right) | ((have hx : Keeps s0 x.1 := ?_); (try clear_value x); rotate_left; dsimp -zeta only [x]; rotate_right) | ((have hx : Keeps s0 x.2 := ?_); (try clear_value x); rotate_left; dsimp -zeta only [x]; rotate_right) | (clear_value x) | skip)
    | lift_lets -underBinder
    | (with_reducible refine keeps_gate ?_ ?_ ..)
    | (with_reducible refine keeps_arrive ?_ ..)
    | (with_reducible refine keeps_ite ?_ ?_)
    | (fail_if_no_progress beta_reduce)
    | (dsimp only [Keeps, part]; with_reducible refine keeps_of ?_; first | with_reducible assumption | (with_reducible refine keeps_gate ?_ ?_ ..) | (with_reducible refine keeps_arrive ?_ ..))
    | split
    | (refine keeps_ite ?_ ?_))

theorem keeps_receiveGated {s0 s : State} {h : Hdr} {p : Payload} (hK : Keeps s0 s) :
    Keeps s0 (State.receiveGated s h p) := by
  unfold State.receiveGated
  repeat' (first
    | (with_reducible assumption)
    | (intro x; first | ((have hx : Keeps s0 x := ?_); (try clear_value x); rotate_left; dsimp -zeta only [x]; rotate_right) | ((have hx : Keeps s0 x.1 := ?_); (try clear_value x); rotate_left; dsimp -zeta only [x]; rotate_right) | ((have hx : Keeps s0 x.2 := ?_); (try clear_value x); rotate_left; dsimp -zeta only [x]; rotate_right) | (clear_value x) | skip)
    | lift_lets -underBinder
    | (with_reducible refine keeps_countRx ?_ ..)
    | (with_reducible refine keeps_passGate ?_ ..)
    | (with_reducible refine keeps_ite ?_ ?_)
    | (fail_if_no_progress beta_reduce)
    | (dsimp only [Keeps, part]; with_reducible refine keeps_of ?_; first | with_reducible assumption | (with_reducible refine keeps_countRx ?_ ..) | (with_reducible refine keeps_passGate ?_ ..))
    | split
    | (refine keeps_ite ?_ ?_))

theorem keeps_releaseGate {s0 s : State} (hK : Keeps s0 s) :
    Keeps s0 (State.releaseGate s) := by
  unfold State.releaseGate
  repeat' (first
    | (with_reducible assumption)
    | (intro x; first | ((have hx : Keeps s0 x := ?_); (try clear_value x); rotate_left; dsimp -zeta only [x]; rotate_right) | ((have hx : Keeps s0 x.1 := ?_); (try clear_value x); rotate_left; dsimp -zeta only [x]; rotate_right) | ((have hx : Keeps s0 x.2 := ?_); (try clear_value x); rotate_left; dsimp -zeta only [x]; rotate_right) | ((have hx : ∀ t, Keeps s0 t → Keeps s0 (x t) := ?_); (try clear_value x); rotate_left; dsimp -zeta only [x]; intros; rotate_right) | ((have hx : ∀ t a, Keeps s0 t → Keeps s0 (x t a) := ?_); (try clear_value x); rotate_left; dsimp -zeta only [x]; intros; rotate_right) | ((have hx : ∀ a t, Keeps s0 t → Keeps s0 (x a t) := ?_); (try clear_value x); rotate_left; dsimp -zeta only [x]; intros; rotate_right) | ((have hx : ∀ t a b, Keeps s0 t → Keeps s0 (x t a b) := ?_); (try clear_value x); rotate_left; dsimp -zeta only [x]; intros; rotate_right) | ((have hx : ∀ a b t, Keeps s0 t → Keeps s0 (x a b t) := ?_); (try clear_value x); rotate_left; dsimp -zeta only [x]; intros; rotate_right) | ((have hx : ∀ a, Keeps s0 (x a) := ?_); (try clear_value x); rotate_left; dsimp -zeta only [x]; intros; rotate_right) | (have hf : ∀ a, x a = x a := fun _ => rfl) | (clear_value x) | skip)
    | lift_lets -underBinder
    | (with_reducible refine keeps_passGate ?_ ..)
    | (with_reducible refine keeps_foldl (fun s x hK => ?_) ?_)
    | (with_reducible refine keeps_foldl_fst (fun s x hK => ?_) ?_)
    | (refine keeps_foldl_eq (by assumption) (fun s x hK => ?_) ?_)
    | (with_reducible refine keeps_ite ?_ ?_)
    | (with_reducible apply_assumption)
    | (fail_if_no_progress beta_reduce)
    | (dsimp only [Keeps, part]; with_reducible refine keeps_of ?_; first | with_reducible assumption | (with_reducible refine keeps_passGate ?_ ..) | (refine keeps_foldl_eq (by assumption) (fun s x hK => ?_) ?_))
    | split
    | (refine keeps_ite ?_ ?_))

theorem keeps_takeCtrlCmp {s0 s : State} {h : Hdr} {res : List Word} (hK : Keeps s0 s) :
    Keeps s0 (State.takeCtrlCmp s h res) := by
  unfold State.takeCtrlCmp
  repeat' (first
    | (with_reducible assumption)
    | (intro x; first | ((have hx : Keeps s0 x := ?_); (try clear_value x); rotate_left; dsimp -zeta only [x]; rotate_right) | ((have hx : Keeps s0 x.1 := ?_); (try clear_value x); rotate_left; dsimp -zeta only [x]; rotate_right) | ((have hx : Keeps s0 x.2 := ?_); (try clear_value x); rotate_left; dsimp -zeta only [x]; rotate_right) | (clear_value x) | skip)
    | lift_lets -underBinder
    | (with_reducible refine keeps_namedCode ?_ ..)
    | (refine keeps_namedCode_eq (by assumption) ?_)
    | (with_reducible refine keeps_finish ?_ ..)
    | (with_reducible refine keeps_hold ?_ ..)
    | (with_reducible refine keeps_endCtrl ?_ ..)
    | (with_reducible refine keeps_settle ?_ ..)
    | (with_reducible refine keeps_endBl ?_ ..)
    | (with_reducible refine keeps_staleForward ?_ ..)
    | (with_reducible refine keeps_takeTenantAnswer ?_ ..)
    | (with_reducible refine keeps_ite ?_ ?_)
    | (fail_if_no_progress beta_reduce)
    | (dsimp only [Keeps, part]; with_reducible refine keeps_of ?_; first | with_reducible assumption | (with_reducible refine keeps_namedCode ?_ ..) | (refine keeps_namedCode_eq (by assumption) ?_) | (with_reducible refine keeps_finish ?_ ..) | (with_reducible refine keeps_hold ?_ ..) | (with_reducible refine keeps_endCtrl ?_ ..) | (with_reducible refine keeps_settle ?_ ..) | (with_reducible refine keeps_endBl ?_ ..) | (with_reducible refine keeps_staleForward ?_ ..) | (with_reducible refine keeps_takeTenantAnswer ?_ ..))
    | split
    | (refine keeps_ite ?_ ?_))

theorem keeps_execMirrorWr {s0 s : State} {h : Hdr} {be : Word} {data : LineData} {at_ : Nat} (hK : Keeps s0 s) :
    XKeeps s0 (execMirrorWr h be data at_ s) := by
  unfold execMirrorWr
  repeat' (first
    | (with_reducible assumption)
    | (intro x; first | ((have hx : Keeps s0 x := ?_); (try clear_value x); rotate_left; dsimp -zeta only [x]; rotate_right) | ((have hx : Keeps s0 x.1 := ?_); (try clear_value x); rotate_left; dsimp -zeta only [x]; rotate_right) | ((have hx : Keeps s0 x.2 := ?_); (try clear_value x); rotate_left; dsimp -zeta only [x]; rotate_right) | (clear_value x) | skip)
    | lift_lets -underBinder
    | (with_reducible refine keeps_tick ?_ ..)
    | (with_reducible refine keeps_receiveGated ?_ ..)
    | (with_reducible refine keeps_ite ?_ ?_)
    | (with_reducible refine xkeeps_next ?_)
    | (fail_if_no_progress beta_reduce)
    | (dsimp only [Keeps, part]; with_reducible refine keeps_of ?_; first | with_reducible assumption | (with_reducible refine keeps_tick ?_ ..) | (with_reducible refine keeps_receiveGated ?_ ..))
    | split
    | (refine keeps_ite ?_ ?_))

theorem keeps_execFwdRd {s0 s : State} {h : Hdr} {lines : Nat} {at_ : Nat} (hK : Keeps s0 s) :
    XKeeps s0 (execFwdRd h lines at_ s) := by
  unfold execFwdRd
  repeat' (first
    | (with_reducible assumption)
    | (intro x; first | ((have hx : Keeps s0 x := ?_); (try clear_value x); rotate_left; dsimp -zeta only [x]; rotate_right) | ((have hx : Keeps s0 x.1 := ?_); (try clear_value x); rotate_left; dsimp -zeta only [x]; rotate_right) | ((have hx : Keeps s0 x.2 := ?_); (try clear_value x); rotate_left; dsimp -zeta only [x]; rotate_right) | (clear_value x) | skip)
    | lift_lets -underBinder
    | (with_reducible refine keeps_tick ?_ ..)
    | (with_reducible refine keeps_receiveGated ?_ ..)
    | (with_reducible refine keeps_ite ?_ ?_)
    | (with_reducible refine xkeeps_next ?_)
    | (fail_if_no_progress beta_reduce)
    | (dsimp only [Keeps, part]; with_reducible refine keeps_of ?_; first | with_reducible assumption | (with_reducible refine keeps_tick ?_ ..) | (with_reducible refine keeps_receiveGated ?_ ..))
    | split
    | (refine keeps_ite ?_ ?_))

theorem keeps_execFwdWr {s0 s : State} {h : Hdr} {be : Word} {data : LineData} {at_ : Nat} (hK : Keeps s0 s) :
    XKeeps s0 (execFwdWr h be data at_ s) := by
  unfold execFwdWr
  repeat' (first
    | (with_reducible assumption)
    | (intro x; first | ((have hx : Keeps s0 x := ?_); (try clear_value x); rotate_left; dsimp -zeta only [x]; rotate_right) | ((have hx : Keeps s0 x.1 := ?_); (try clear_value x); rotate_left; dsimp -zeta only [x]; rotate_right) | ((have hx : Keeps s0 x.2 := ?_); (try clear_value x); rotate_left; dsimp -zeta only [x]; rotate_right) | (clear_value x) | skip)
    | lift_lets -underBinder
    | (with_reducible refine keeps_tick ?_ ..)
    | (with_reducible refine keeps_receiveGated ?_ ..)
    | (with_reducible refine keeps_ite ?_ ?_)
    | (with_reducible refine xkeeps_next ?_)
    | (fail_if_no_progress beta_reduce)
    | (dsimp only [Keeps, part]; with_reducible refine keeps_of ?_; first | with_reducible assumption | (with_reducible refine keeps_tick ?_ ..) | (with_reducible refine keeps_receiveGated ?_ ..))
    | split
    | (refine keeps_ite ?_ ?_))

theorem keeps_execCtrlReq {s0 s : State} {h : Hdr} {op : CtrlOp} {at_ : Nat} (hK : Keeps s0 s) :
    XKeeps s0 (execCtrlReq h op at_ s) := by
  unfold execCtrlReq
  repeat' (first
    | (with_reducible assumption)
    | (intro x; first | ((have hx : Keeps s0 x := ?_); (try clear_value x); rotate_left; dsimp -zeta only [x]; rotate_right) | ((have hx : Keeps s0 x.1 := ?_); (try clear_value x); rotate_left; dsimp -zeta only [x]; rotate_right) | ((have hx : Keeps s0 x.2 := ?_); (try clear_value x); rotate_left; dsimp -zeta only [x]; rotate_right) | (clear_value x) | skip)
    | lift_lets -underBinder
    | (with_reducible refine keeps_tick ?_ ..)
    | (with_reducible refine keeps_receive ?_ ?_ ..)
    | (with_reducible refine keeps_takeGated ?_ ..)
    | (with_reducible refine keeps_receiveGated ?_ ..)
    | (with_reducible refine keeps_ite ?_ ?_)
    | (with_reducible refine xkeeps_next ?_)
    | (fail_if_no_progress beta_reduce)
    | (dsimp only [Keeps, part]; with_reducible refine keeps_of ?_; first | with_reducible assumption | (with_reducible refine keeps_tick ?_ ..) | (with_reducible refine keeps_receive ?_ ?_ ..) | (with_reducible refine keeps_takeGated ?_ ..) | (with_reducible refine keeps_receiveGated ?_ ..))
    | split
    | (refine keeps_ite ?_ ?_))

theorem keeps_execCtrlCmp {s0 s : State} {h : Hdr} {res : List Word} {at_ : Nat} (hK : Keeps s0 s) :
    XKeeps s0 (execCtrlCmp h res at_ s) := by
  unfold execCtrlCmp
  repeat' (first
    | (with_reducible assumption)
    | (intro x; first | ((have hx : Keeps s0 x := ?_); (try clear_value x); rotate_left; dsimp -zeta only [x]; rotate_right) | ((have hx : Keeps s0 x.1 := ?_); (try clear_value x); rotate_left; dsimp -zeta only [x]; rotate_right) | ((have hx : Keeps s0 x.2 := ?_); (try clear_value x); rotate_left; dsimp -zeta only [x]; rotate_right) | (clear_value x) | skip)
    | lift_lets -underBinder
    | (with_reducible refine keeps_tick ?_ ..)
    | (with_reducible refine keeps_receive ?_ ?_ ..)
    | (with_reducible refine keeps_takeCtrlCmp ?_ ..)
    | (with_reducible refine keeps_ite ?_ ?_)
    | (with_reducible refine xkeeps_next ?_)
    | (fail_if_no_progress beta_reduce)
    | (dsimp only [Keeps, part]; with_reducible refine keeps_of ?_; first | with_reducible assumption | (with_reducible refine keeps_tick ?_ ..) | (with_reducible refine keeps_receive ?_ ?_ ..) | (with_reducible refine keeps_takeCtrlCmp ?_ ..))
    | split
    | (refine keeps_ite ?_ ?_))

theorem keeps_execRepairRd {s0 s : State} {h : Hdr} {lines : Nat} {at_ : Nat} (hK : Keeps s0 s) :
    XKeeps s0 (execRepairRd h lines at_ s) := by
  unfold execRepairRd
  repeat' (first
    | (with_reducible assumption)
    | (intro x; first | ((have hx : Keeps s0 x := ?_); (try clear_value x); rotate_left; dsimp -zeta only [x]; rotate_right) | ((have hx : Keeps s0 x.1 := ?_); (try clear_value x); rotate_left; dsimp -zeta only [x]; rotate_right) | ((have hx : Keeps s0 x.2 := ?_); (try clear_value x); rotate_left; dsimp -zeta only [x]; rotate_right) | (clear_value x) | skip)
    | lift_lets -underBinder
    | (with_reducible refine keeps_tick ?_ ..)
    | (with_reducible refine keeps_receiveGated ?_ ..)
    | (with_reducible refine keeps_ite ?_ ?_)
    | (with_reducible refine xkeeps_next ?_)
    | (fail_if_no_progress beta_reduce)
    | (dsimp only [Keeps, part]; with_reducible refine keeps_of ?_; first | with_reducible assumption | (with_reducible refine keeps_tick ?_ ..) | (with_reducible refine keeps_receiveGated ?_ ..))
    | split
    | (refine keeps_ite ?_ ?_))

theorem keeps_execBoltUpdate {s0 s : State} {h : Hdr} {e : BoltEntry} {at_ : Nat} (hK : Keeps s0 s) :
    XKeeps s0 (execBoltUpdate h e at_ s) := by
  unfold execBoltUpdate
  repeat' (first
    | (with_reducible assumption)
    | (intro x; first | ((have hx : Keeps s0 x := ?_); (try clear_value x); rotate_left; dsimp -zeta only [x]; rotate_right) | ((have hx : Keeps s0 x.1 := ?_); (try clear_value x); rotate_left; dsimp -zeta only [x]; rotate_right) | ((have hx : Keeps s0 x.2 := ?_); (try clear_value x); rotate_left; dsimp -zeta only [x]; rotate_right) | (clear_value x) | skip)
    | lift_lets -underBinder
    | (with_reducible refine keeps_tick ?_ ..)
    | (with_reducible refine keeps_settle ?_ ..)
    | (with_reducible refine keeps_receiveGated ?_ ..)
    | (with_reducible refine keeps_releaseGate ?_ ..)
    | (with_reducible refine keeps_ite ?_ ?_)
    | (with_reducible refine xkeeps_next ?_)
    | (fail_if_no_progress beta_reduce)
    | (dsimp only [Keeps, part]; with_reducible refine keeps_of ?_; first | with_reducible assumption | (with_reducible refine keeps_tick ?_ ..) | (with_reducible refine keeps_settle ?_ ..) | (with_reducible refine keeps_receiveGated ?_ ..) | (with_reducible refine keeps_releaseGate ?_ ..))
    | split
    | (refine keeps_ite ?_ ?_))

theorem keeps_execHandover {s0 s : State} {h : Hdr} {l : List (Nat × Nat)} {at_ : Nat} (hK : Keeps s0 s) :
    XKeeps s0 (execHandover h l at_ s) := by
  unfold execHandover
  repeat' (first
    | (with_reducible assumption)
    | (intro x; first | ((have hx : Keeps s0 x := ?_); (try clear_value x); rotate_left; dsimp -zeta only [x]; rotate_right) | ((have hx : Keeps s0 x.1 := ?_); (try clear_value x); rotate_left; dsimp -zeta only [x]; rotate_right) | ((have hx : Keeps s0 x.2 := ?_); (try clear_value x); rotate_left; dsimp -zeta only [x]; rotate_right) | (clear_value x) | skip)
    | lift_lets -underBinder
    | (with_reducible refine keeps_tick ?_ ..)
    | (with_reducible refine keeps_receiveGated ?_ ..)
    | (with_reducible refine keeps_ite ?_ ?_)
    | (with_reducible refine xkeeps_next ?_)
    | (fail_if_no_progress beta_reduce)
    | (dsimp only [Keeps, part]; with_reducible refine keeps_of ?_; first | with_reducible assumption | (with_reducible refine keeps_tick ?_ ..) | (with_reducible refine keeps_receiveGated ?_ ..))
    | split
    | (refine keeps_ite ?_ ?_))

theorem keeps_execRejoinCopy {s0 s : State} {h : Hdr} {empty : Bool} {pmap : Word} {lines : List LineData} {at_ : Nat} (hK : Keeps s0 s) :
    XKeeps s0 (execRejoinCopy h empty pmap lines at_ s) := by
  unfold execRejoinCopy
  repeat' (first
    | (with_reducible assumption)
    | (intro x; first | ((have hx : Keeps s0 x := ?_); (try clear_value x); rotate_left; dsimp -zeta only [x]; rotate_right) | ((have hx : Keeps s0 x.1 := ?_); (try clear_value x); rotate_left; dsimp -zeta only [x]; rotate_right) | ((have hx : Keeps s0 x.2 := ?_); (try clear_value x); rotate_left; dsimp -zeta only [x]; rotate_right) | (clear_value x) | skip)
    | lift_lets -underBinder
    | (with_reducible refine keeps_tick ?_ ..)
    | (with_reducible refine keeps_receiveGated ?_ ..)
    | (with_reducible refine keeps_ite ?_ ?_)
    | (with_reducible refine xkeeps_next ?_)
    | (fail_if_no_progress beta_reduce)
    | (dsimp only [Keeps, part]; with_reducible refine keeps_of ?_; first | with_reducible assumption | (with_reducible refine keeps_tick ?_ ..) | (with_reducible refine keeps_receiveGated ?_ ..))
    | split
    | (refine keeps_ite ?_ ?_))

end Sys2Proof.Laws
end

