-- ==== Sys2Proof/Laws/KeepsEngines.lean ====
section
/-! SUPPORT. Every operation of Machine/Engines.lean keeps what Laws/Keeps.lean says. -/

set_option linter.unusedTactic false
set_option linter.unreachableTactic false
set_option linter.unusedVariables false

namespace Sys2Proof.Laws

open Sys2Proof Machine

theorem keeps_readLine {s0 s : State} {l : Nat} (hK : Keeps s0 s) :
    Keeps s0 (State.readLine s l) := by
  unfold State.readLine
  repeat' (first
    | (with_reducible assumption)
    | (intro x; first | ((have hx : Keeps s0 x := ?_); (try clear_value x); rotate_left; dsimp -zeta only [x]; rotate_right) | ((have hx : Keeps s0 x.1 := ?_); (try clear_value x); rotate_left; dsimp -zeta only [x]; rotate_right) | ((have hx : Keeps s0 x.2 := ?_); (try clear_value x); rotate_left; dsimp -zeta only [x]; rotate_right) | (clear_value x) | skip)
    | lift_lets -underBinder
    | (with_reducible refine keeps_bump ?_ ..)
    | (with_reducible refine keeps_useSpan ?_ ..)
    | (with_reducible refine keeps_heat ?_ ..)
    | (with_reducible refine keeps_readBeats ?_ ..)
    | (with_reducible refine keeps_allocCrown_o ?_ ..)
    | (refine keeps_allocCrown_eq (by assumption) ?_)
    | (with_reducible refine keeps_ite ?_ ?_)
    | (fail_if_no_progress beta_reduce)
    | (dsimp only [Keeps, part]; with_reducible refine keeps_of ?_; first | with_reducible assumption | (with_reducible refine keeps_bump ?_ ..) | (with_reducible refine keeps_useSpan ?_ ..) | (with_reducible refine keeps_heat ?_ ..) | (with_reducible refine keeps_readBeats ?_ ..) | (with_reducible refine keeps_allocCrown_o ?_ ..) | (refine keeps_allocCrown_eq (by assumption) ?_))
    | split
    | (refine keeps_ite ?_ ?_))

theorem keeps_readRun {s0 s : State} {q : Nat} {off : Nat} {n : Nat} (hK : Keeps s0 s) :
    Keeps s0 (State.readRun s q off n) := by
  unfold State.readRun
  repeat' (first
    | (with_reducible assumption)
    | (intro x; first | ((have hx : Keeps s0 x := ?_); (try clear_value x); rotate_left; dsimp -zeta only [x]; rotate_right) | ((have hx : Keeps s0 x.1 := ?_); (try clear_value x); rotate_left; dsimp -zeta only [x]; rotate_right) | ((have hx : Keeps s0 x.2 := ?_); (try clear_value x); rotate_left; dsimp -zeta only [x]; rotate_right) | (clear_value x) | skip)
    | lift_lets -underBinder
    | (with_reducible refine keeps_readLine ?_ ..)
    | (with_reducible refine keeps_foldl (fun s x hK => ?_) ?_)
    | (with_reducible refine keeps_foldl_fst (fun s x hK => ?_) ?_)
    | (refine keeps_foldl_eq (by assumption) (fun s x hK => ?_) ?_)
    | (with_reducible refine keeps_ite ?_ ?_)
    | (fail_if_no_progress beta_reduce)
    | (dsimp only [Keeps, part]; with_reducible refine keeps_of ?_; first | with_reducible assumption | (with_reducible refine keeps_readLine ?_ ..) | (refine keeps_foldl_eq (by assumption) (fun s x hK => ?_) ?_))
    | split
    | (refine keeps_ite ?_ ?_))

theorem keeps_heatTile {s0 s : State} {g : TileGeom} (hK : Keeps s0 s) :
    Keeps s0 (State.heatTile s g) := by
  unfold State.heatTile
  repeat' (first
    | (with_reducible assumption)
    | (intro x; first | ((have hx : Keeps s0 x := ?_); (try clear_value x); rotate_left; dsimp -zeta only [x]; rotate_right) | ((have hx : Keeps s0 x.1 := ?_); (try clear_value x); rotate_left; dsimp -zeta only [x]; rotate_right) | ((have hx : Keeps s0 x.2 := ?_); (try clear_value x); rotate_left; dsimp -zeta only [x]; rotate_right) | (clear_value x) | skip)
    | lift_lets -underBinder
    | (with_reducible refine keeps_heatLines ?_ ..)
    | (with_reducible refine keeps_ite ?_ ?_)
    | (fail_if_no_progress beta_reduce)
    | (dsimp only [Keeps, part]; with_reducible refine keeps_of ?_; first | with_reducible assumption | (with_reducible refine keeps_heatLines ?_ ..))
    | split
    | (refine keeps_ite ?_ ?_))

theorem keeps_fetchTile {s0 s : State} {e : Nat} {n : Nat} {t : TileD} (hK : Keeps s0 s) :
    Keeps s0 (State.fetchTile s e n t) := by
  unfold State.fetchTile
  repeat' (first
    | (with_reducible assumption)
    | (intro x; first | ((have hx : Keeps s0 x := ?_); (try clear_value x); rotate_left; dsimp -zeta only [x]; rotate_right) | ((have hx : Keeps s0 x.1 := ?_); (try clear_value x); rotate_left; dsimp -zeta only [x]; rotate_right) | ((have hx : Keeps s0 x.2 := ?_); (try clear_value x); rotate_left; dsimp -zeta only [x]; rotate_right) | (clear_value x) | skip)
    | lift_lets -underBinder
    | (with_reducible refine keeps_updRun ?_ ..)
    | (with_reducible refine keeps_submit ?_ ..)
    | (with_reducible refine keeps_ite ?_ ?_)
    | (fail_if_no_progress beta_reduce)
    | (dsimp only [Keeps, part]; with_reducible refine keeps_of ?_; first | with_reducible assumption | (with_reducible refine keeps_updRun ?_ ..) | (with_reducible refine keeps_submit ?_ ..))
    | split
    | (refine keeps_ite ?_ ?_))

theorem keeps_issueFetches {s0 s : State} {e : Nat} (hK : Keeps s0 s) :
    Keeps s0 (State.issueFetches s e) := by
  unfold State.issueFetches
  repeat' (first
    | (with_reducible assumption)
    | (intro x; first | ((have hx : Keeps s0 x := ?_); (try clear_value x); rotate_left; dsimp -zeta only [x]; rotate_right) | ((have hx : Keeps s0 x.1 := ?_); (try clear_value x); rotate_left; dsimp -zeta only [x]; rotate_right) | ((have hx : Keeps s0 x.2 := ?_); (try clear_value x); rotate_left; dsimp -zeta only [x]; rotate_right) | (clear_value x) | skip)
    | lift_lets -underBinder
    | (with_reducible refine keeps_fetchTile ?_ ..)
    | (with_reducible refine keeps_foldl (fun s x hK => ?_) ?_)
    | (with_reducible refine keeps_foldl_fst (fun s x hK => ?_) ?_)
    | (refine keeps_foldl_eq (by assumption) (fun s x hK => ?_) ?_)
    | (with_reducible refine keeps_ite ?_ ?_)
    | (fail_if_no_progress beta_reduce)
    | (dsimp only [Keeps, part]; with_reducible refine keeps_of ?_; first | with_reducible assumption | (with_reducible refine keeps_fetchTile ?_ ..) | (refine keeps_foldl_eq (by assumption) (fun s x hK => ?_) ?_))
    | split
    | (refine keeps_ite ?_ ?_))

theorem keeps_prefetch {s0 s : State} {e : Nat} (hK : Keeps s0 s) :
    Keeps s0 (State.prefetch s e) := by
  unfold State.prefetch
  repeat' (first
    | (with_reducible assumption)
    | (intro x; first | ((have hx : Keeps s0 x := ?_); (try clear_value x); rotate_left; dsimp -zeta only [x]; rotate_right) | ((have hx : Keeps s0 x.1 := ?_); (try clear_value x); rotate_left; dsimp -zeta only [x]; rotate_right) | ((have hx : Keeps s0 x.2 := ?_); (try clear_value x); rotate_left; dsimp -zeta only [x]; rotate_right) | (clear_value x) | skip)
    | lift_lets -underBinder
    | (with_reducible refine keeps_start ?_ ..)
    | (with_reducible refine keeps_submit ?_ ..)
    | (with_reducible refine keeps_foldl (fun s x hK => ?_) ?_)
    | (with_reducible refine keeps_foldl_fst (fun s x hK => ?_) ?_)
    | (refine keeps_foldl_eq (by assumption) (fun s x hK => ?_) ?_)
    | (with_reducible refine keeps_ite ?_ ?_)
    | (fail_if_no_progress beta_reduce)
    | (dsimp only [Keeps, part]; with_reducible refine keeps_of ?_; first | with_reducible assumption | (with_reducible refine keeps_start ?_ ..) | (with_reducible refine keeps_submit ?_ ..) | (refine keeps_foldl_eq (by assumption) (fun s x hK => ?_) ?_))
    | split
    | (refine keeps_ite ?_ ?_))

theorem keeps_queueJob {s0 s : State} {x : Desc} {e : Nat} (hK : Keeps s0 s) :
    Keeps s0 (State.queueJob s x e) := by
  unfold State.queueJob
  repeat' (first
    | (with_reducible assumption)
    | (intro x; first | ((have hx : Keeps s0 x := ?_); (try clear_value x); rotate_left; dsimp -zeta only [x]; rotate_right) | ((have hx : Keeps s0 x.1 := ?_); (try clear_value x); rotate_left; dsimp -zeta only [x]; rotate_right) | ((have hx : Keeps s0 x.2 := ?_); (try clear_value x); rotate_left; dsimp -zeta only [x]; rotate_right) | (clear_value x) | skip)
    | lift_lets -underBinder
    | (with_reducible refine keeps_putEngine ?_ ..)
    | (with_reducible refine keeps_putDesc ?_ ..)
    | (with_reducible refine keeps_ite ?_ ?_)
    | (fail_if_no_progress beta_reduce)
    | (dsimp only [Keeps, part]; with_reducible refine keeps_of ?_; first | with_reducible assumption | (with_reducible refine keeps_putEngine ?_ ..) | (with_reducible refine keeps_putDesc ?_ ..))
    | split
    | (refine keeps_ite ?_ ?_))

theorem keeps_startJob {s0 s : State} {x : Desc} (hK : Keeps s0 s) :
    Keeps s0 (State.startJob s x) := by
  unfold State.startJob
  repeat' (first
    | (with_reducible assumption)
    | (intro x; first | ((have hx : Keeps s0 x := ?_); (try clear_value x); rotate_left; dsimp -zeta only [x]; rotate_right) | ((have hx : Keeps s0 x.1 := ?_); (try clear_value x); rotate_left; dsimp -zeta only [x]; rotate_right) | ((have hx : Keeps s0 x.2 := ?_); (try clear_value x); rotate_left; dsimp -zeta only [x]; rotate_right) | (clear_value x) | skip)
    | lift_lets -underBinder
    | (with_reducible refine keeps_endDesc ?_ ..)
    | (with_reducible refine keeps_queueJob ?_ ..)
    | (with_reducible refine keeps_ite ?_ ?_)
    | (fail_if_no_progress beta_reduce)
    | (dsimp only [Keeps, part]; with_reducible refine keeps_of ?_; first | with_reducible assumption | (with_reducible refine keeps_endDesc ?_ ..) | (with_reducible refine keeps_queueJob ?_ ..))
    | split
    | (refine keeps_ite ?_ ?_))

theorem keeps_execTileFetch {s0 s : State} {q : Nat} {ix : Nat} {at_ : Nat} (hK : Keeps s0 s) :
    XKeeps s0 (execTileFetch q ix at_ s) := by
  unfold execTileFetch
  repeat' (first
    | (with_reducible assumption)
    | (intro x; first | ((have hx : Keeps s0 x := ?_); (try clear_value x); rotate_left; dsimp -zeta only [x]; rotate_right) | ((have hx : Keeps s0 x.1 := ?_); (try clear_value x); rotate_left; dsimp -zeta only [x]; rotate_right) | ((have hx : Keeps s0 x.2 := ?_); (try clear_value x); rotate_left; dsimp -zeta only [x]; rotate_right) | (clear_value x) | skip)
    | lift_lets -underBinder
    | (with_reducible refine keeps_tick ?_ ..)
    | (with_reducible refine keeps_startDesc ?_ ?_ ..)
    | (with_reducible refine keeps_startJob ?_ ..)
    | (with_reducible refine keeps_ite ?_ ?_)
    | (with_reducible refine xkeeps_next ?_)
    | (fail_if_no_progress beta_reduce)
    | (dsimp only [Keeps, part]; with_reducible refine keeps_of ?_; first | with_reducible assumption | (with_reducible refine keeps_tick ?_ ..) | (with_reducible refine keeps_startDesc ?_ ?_ ..) | (with_reducible refine keeps_startJob ?_ ..))
    | split
    | (refine keeps_ite ?_ ?_))

theorem keeps_execRun {s0 s : State} {q : Nat} {ix : Nat} {at_ : Nat} (hK : Keeps s0 s) :
    XKeeps s0 (execRun q ix at_ s) := by
  unfold execRun
  repeat' (first
    | (with_reducible assumption)
    | (intro x; first | ((have hx : Keeps s0 x := ?_); (try clear_value x); rotate_left; dsimp -zeta only [x]; rotate_right) | ((have hx : Keeps s0 x.1 := ?_); (try clear_value x); rotate_left; dsimp -zeta only [x]; rotate_right) | ((have hx : Keeps s0 x.2 := ?_); (try clear_value x); rotate_left; dsimp -zeta only [x]; rotate_right) | (clear_value x) | skip)
    | lift_lets -underBinder
    | (with_reducible refine keeps_tick ?_ ..)
    | (with_reducible refine keeps_startDesc ?_ ?_ ..)
    | (with_reducible refine keeps_startJob ?_ ..)
    | (with_reducible refine keeps_ite ?_ ?_)
    | (with_reducible refine xkeeps_next ?_)
    | (fail_if_no_progress beta_reduce)
    | (dsimp only [Keeps, part]; with_reducible refine keeps_of ?_; first | with_reducible assumption | (with_reducible refine keeps_tick ?_ ..) | (with_reducible refine keeps_startDesc ?_ ?_ ..) | (with_reducible refine keeps_startJob ?_ ..))
    | split
    | (refine keeps_ite ?_ ?_))

theorem keeps_startRun_o {s0 s : State} {e : Nat} {x : Desc} {t : Nat} {src : TileSrc} {args : TileSrc} (hK : Keeps s0 s) : OKeeps s0 (fun x => x) (State.startRun s e x t src args) := by
  unfold State.startRun
  lift_lets -underBinder
  intro g pre s1 none_ fail
  have h1 : Keeps s0 s1 := keeps_dropFetches (keeps_putEngine hK ..) ..
  have hf : ∀ c, Keeps s0 (fail c) := fun c => keeps_putEngine h1 ..
  clear_value g pre fail s1
  split
  · lift_lets -underBinder
    intro len
    clear_value len
    refine okeeps_ite (okeeps_some (hf _)) (okeeps_ite (okeeps_some (hf _)) ?_)
    split
    · exact okeeps_some (hf _)
    · split
      · exact okeeps_some (hf _)
      · lift_lets -underBinder
        intro s2 words code res
        have h2 : Keeps s0 s2 := keeps_readRun (keeps_readRun h1 ..) ..
        clear_value res code words s2
        refine okeeps_ite (okeeps_some (hf _)) (okeeps_ite (okeeps_some (hf _)) ?_)
        lift_lets -underBinder
        intros
        exact okeeps_some (keeps_issueFetches (keeps_putEngine h2 ..) ..)
    · exact okeeps_none
  · exact okeeps_none

theorem keeps_startRun_eq {s0 s tE : State} {e : Nat} {x : Desc} {t : Nat} {src : TileSrc} {args : TileSrc} (hEq : State.startRun s e x t src args = some tE) (hK : Keeps s0 s) : Keeps s0 tE :=
  (keeps_startRun_o hK).of tE hEq

theorem keeps_moveRun {s0 s : State} {e : Nat} {n : Nat} {r : Run} (hK : Keeps s0 s) :
    Keeps s0 (State.moveRun s e n r) := by
  unfold State.moveRun
  repeat' (first
    | (with_reducible assumption)
    | (intro x; first | ((have hx : Keeps s0 x := ?_); (try clear_value x); rotate_left; dsimp -zeta only [x]; rotate_right) | ((have hx : Keeps s0 x.1 := ?_); (try clear_value x); rotate_left; dsimp -zeta only [x]; rotate_right) | ((have hx : Keeps s0 x.2 := ?_); (try clear_value x); rotate_left; dsimp -zeta only [x]; rotate_right) | ((have hx : ∀ t, Keeps s0 t → Keeps s0 (x t) := ?_); (try clear_value x); rotate_left; dsimp -zeta only [x]; intros; rotate_right) | ((have hx : ∀ t a, Keeps s0 t → Keeps s0 (x t a) := ?_); (try clear_value x); rotate_left; dsimp -zeta only [x]; intros; rotate_right) | ((have hx : ∀ a t, Keeps s0 t → Keeps s0 (x a t) := ?_); (try clear_value x); rotate_left; dsimp -zeta only [x]; intros; rotate_right) | ((have hx : ∀ t a b, Keeps s0 t → Keeps s0 (x t a b) := ?_); (try clear_value x); rotate_left; dsimp -zeta only [x]; intros; rotate_right) | ((have hx : ∀ a b t, Keeps s0 t → Keeps s0 (x a b t) := ?_); (try clear_value x); rotate_left; dsimp -zeta only [x]; intros; rotate_right) | ((have hx : ∀ a, Keeps s0 (x a) := ?_); (try clear_value x); rotate_left; dsimp -zeta only [x]; intros; rotate_right) | (have hf : ∀ a, x a = x a := fun _ => rfl) | (clear_value x) | skip)
    | lift_lets -underBinder
    | (with_reducible refine keeps_putEngine ?_ ..)
    | (with_reducible refine keeps_dropFetches ?_ ..)
    | (with_reducible refine keeps_issueFetches ?_ ..)
    | (with_reducible refine keeps_ite ?_ ?_)
    | (with_reducible apply_assumption)
    | (fail_if_no_progress beta_reduce)
    | (dsimp only [Keeps, part]; with_reducible refine keeps_of ?_; first | with_reducible assumption | (with_reducible refine keeps_putEngine ?_ ..) | (with_reducible refine keeps_dropFetches ?_ ..) | (with_reducible refine keeps_issueFetches ?_ ..))
    | split
    | (refine keeps_ite ?_ ?_))

theorem keeps_startNext {s0 s : State} {e : Nat} {src : TileSrc} {args : TileSrc} (hK : Keeps s0 s) :
    Keeps s0 (State.startNext s e src args) := by
  unfold State.startNext
  repeat' (first
    | (with_reducible assumption)
    | (intro x; first | ((have hx : Keeps s0 x := ?_); (try clear_value x); rotate_left; dsimp -zeta only [x]; rotate_right) | ((have hx : Keeps s0 x.1 := ?_); (try clear_value x); rotate_left; dsimp -zeta only [x]; rotate_right) | ((have hx : Keeps s0 x.2 := ?_); (try clear_value x); rotate_left; dsimp -zeta only [x]; rotate_right) | (clear_value x) | skip)
    | lift_lets -underBinder
    | (with_reducible refine keeps_putEngine ?_ ..)
    | (with_reducible refine keeps_start ?_ ..)
    | (with_reducible refine keeps_dropFetches ?_ ..)
    | (with_reducible refine keeps_fetchTile ?_ ..)
    | (with_reducible refine keeps_startRun_o ?_ ..)
    | (refine keeps_startRun_eq (by assumption) ?_)
    | (with_reducible refine keeps_moveRun ?_ ..)
    | (with_reducible refine keeps_getD ?_ ?_)
    | (with_reducible refine keeps_ite ?_ ?_)
    | (fail_if_no_progress beta_reduce)
    | (dsimp only [Keeps, part]; with_reducible refine keeps_of ?_; first | with_reducible assumption | (with_reducible refine keeps_putEngine ?_ ..) | (with_reducible refine keeps_start ?_ ..) | (with_reducible refine keeps_dropFetches ?_ ..) | (with_reducible refine keeps_fetchTile ?_ ..) | (with_reducible refine keeps_startRun_o ?_ ..) | (refine keeps_startRun_eq (by assumption) ?_) | (with_reducible refine keeps_moveRun ?_ ..))
    | split
    | (refine keeps_ite ?_ ?_))

theorem keeps_execJobStart {s0 s : State} {e : Nat} {src : TileSrc} {args : TileSrc} {at_ : Nat} (hK : Keeps s0 s) :
    XKeeps s0 (execJobStart e src args at_ s) := by
  unfold execJobStart
  repeat' (first
    | (with_reducible assumption)
    | (intro x; first | ((have hx : Keeps s0 x := ?_); (try clear_value x); rotate_left; dsimp -zeta only [x]; rotate_right) | ((have hx : Keeps s0 x.1 := ?_); (try clear_value x); rotate_left; dsimp -zeta only [x]; rotate_right) | ((have hx : Keeps s0 x.2 := ?_); (try clear_value x); rotate_left; dsimp -zeta only [x]; rotate_right) | (clear_value x) | skip)
    | lift_lets -underBinder
    | (with_reducible refine keeps_tick ?_ ..)
    | (with_reducible refine keeps_settle ?_ ..)
    | (with_reducible refine keeps_startNext ?_ ..)
    | (with_reducible refine keeps_ite ?_ ?_)
    | (with_reducible refine xkeeps_next ?_)
    | (fail_if_no_progress beta_reduce)
    | (dsimp only [Keeps, part]; with_reducible refine keeps_of ?_; first | with_reducible assumption | (with_reducible refine keeps_tick ?_ ..) | (with_reducible refine keeps_settle ?_ ..) | (with_reducible refine keeps_startNext ?_ ..))
    | split
    | (refine keeps_ite ?_ ?_))

theorem keeps_fillSlot {s0 s : State} {e : Nat} {slot : Nat} {key : Nat} {t : Tile} (hK : Keeps s0 s) :
    Keeps s0 (State.fillSlot s e slot key t) := by
  unfold State.fillSlot
  repeat' (first
    | (with_reducible assumption)
    | (intro x; first | ((have hx : Keeps s0 x := ?_); (try clear_value x); rotate_left; dsimp -zeta only [x]; rotate_right) | ((have hx : Keeps s0 x.1 := ?_); (try clear_value x); rotate_left; dsimp -zeta only [x]; rotate_right) | ((have hx : Keeps s0 x.2 := ?_); (try clear_value x); rotate_left; dsimp -zeta only [x]; rotate_right) | (clear_value x) | skip)
    | lift_lets -underBinder
    | (with_reducible refine keeps_put ?_ ..)
    | (with_reducible refine keeps_putEngine ?_ ..)
    | (with_reducible refine keeps_updRun ?_ ..)
    | (with_reducible refine keeps_ite ?_ ?_)
    | (fail_if_no_progress beta_reduce)
    | (dsimp only [Keeps, part]; with_reducible refine keeps_of ?_; first | with_reducible assumption | (with_reducible refine keeps_put ?_ ..) | (with_reducible refine keeps_putEngine ?_ ..) | (with_reducible refine keeps_updRun ?_ ..))
    | split
    | (refine keeps_ite ?_ ?_))

theorem keeps_execTileResident {s0 s : State} {e : Nat} {slot : Nat} {src : TileSrc} {at_ : Nat} (hK : Keeps s0 s) :
    XKeeps s0 (execTileResident e slot src at_ s) := by
  unfold execTileResident
  repeat' (first
    | (with_reducible assumption)
    | (intro x; first | ((have hx : Keeps s0 x := ?_); (try clear_value x); rotate_left; dsimp -zeta only [x]; rotate_right) | ((have hx : Keeps s0 x.1 := ?_); (try clear_value x); rotate_left; dsimp -zeta only [x]; rotate_right) | ((have hx : Keeps s0 x.2 := ?_); (try clear_value x); rotate_left; dsimp -zeta only [x]; rotate_right) | (clear_value x) | skip)
    | lift_lets -underBinder
    | (with_reducible refine keeps_tick ?_ ..)
    | (with_reducible refine keeps_bump ?_ ..)
    | (with_reducible refine keeps_updRun ?_ ..)
    | (with_reducible refine keeps_delReq ?_ ..)
    | (with_reducible refine keeps_finish ?_ ..)
    | (with_reducible refine keeps_settle ?_ ..)
    | (with_reducible refine keeps_heatTile ?_ ..)
    | (with_reducible refine keeps_prefetch ?_ ..)
    | (with_reducible refine keeps_fillSlot ?_ ..)
    | (with_reducible refine keeps_ite ?_ ?_)
    | (with_reducible refine xkeeps_next ?_)
    | (fail_if_no_progress beta_reduce)
    | (dsimp only [Keeps, part]; with_reducible refine keeps_of ?_; first | with_reducible assumption | (with_reducible refine keeps_tick ?_ ..) | (with_reducible refine keeps_bump ?_ ..) | (with_reducible refine keeps_updRun ?_ ..) | (with_reducible refine keeps_delReq ?_ ..) | (with_reducible refine keeps_finish ?_ ..) | (with_reducible refine keeps_settle ?_ ..) | (with_reducible refine keeps_heatTile ?_ ..) | (with_reducible refine keeps_prefetch ?_ ..) | (with_reducible refine keeps_fillSlot ?_ ..))
    | split
    | (refine keeps_ite ?_ ?_))

theorem keeps_endHold {s0 s : State} {e : Nat} (hK : Keeps s0 s) :
    Keeps s0 (State.endHold s e) := by
  unfold State.endHold
  repeat' (first
    | (with_reducible assumption)
    | (intro x; first | ((have hx : Keeps s0 x := ?_); (try clear_value x); rotate_left; dsimp -zeta only [x]; rotate_right) | ((have hx : Keeps s0 x.1 := ?_); (try clear_value x); rotate_left; dsimp -zeta only [x]; rotate_right) | ((have hx : Keeps s0 x.2 := ?_); (try clear_value x); rotate_left; dsimp -zeta only [x]; rotate_right) | (clear_value x) | skip)
    | lift_lets -underBinder
    | (with_reducible refine keeps_bump ?_ ..)
    | (with_reducible refine keeps_updRun ?_ ..)
    | (with_reducible refine keeps_ite ?_ ?_)
    | (fail_if_no_progress beta_reduce)
    | (dsimp only [Keeps, part]; with_reducible refine keeps_of ?_; first | with_reducible assumption | (with_reducible refine keeps_bump ?_ ..) | (with_reducible refine keeps_updRun ?_ ..))
    | split
    | (refine keeps_ite ?_ ?_))

theorem keeps_tileLate {s0 s : State} {e : Nat} (hK : Keeps s0 s) :
    Keeps s0 (State.tileLate s e) := by
  unfold State.tileLate
  repeat' (first
    | (with_reducible assumption)
    | (intro x; first | ((have hx : Keeps s0 x := ?_); (try clear_value x); rotate_left; dsimp -zeta only [x]; rotate_right) | ((have hx : Keeps s0 x.1 := ?_); (try clear_value x); rotate_left; dsimp -zeta only [x]; rotate_right) | ((have hx : Keeps s0 x.2 := ?_); (try clear_value x); rotate_left; dsimp -zeta only [x]; rotate_right) | (clear_value x) | skip)
    | lift_lets -underBinder
    | (with_reducible refine keeps_updRun ?_ ..)
    | (with_reducible refine keeps_endHold ?_ ..)
    | (with_reducible refine keeps_ite ?_ ?_)
    | (fail_if_no_progress beta_reduce)
    | (dsimp only [Keeps, part]; with_reducible refine keeps_of ?_; first | with_reducible assumption | (with_reducible refine keeps_updRun ?_ ..) | (with_reducible refine keeps_endHold ?_ ..))
    | split
    | (refine keeps_ite ?_ ?_))

theorem keeps_startLayer {s0 s : State} {e : Nat} {r : Run} (hK : Keeps s0 s) :
    Keeps s0 (State.startLayer s e r) := by
  unfold State.startLayer
  repeat' (first
    | (with_reducible assumption)
    | (intro x; first | ((have hx : Keeps s0 x := ?_); (try clear_value x); rotate_left; dsimp -zeta only [x]; rotate_right) | ((have hx : Keeps s0 x.1 := ?_); (try clear_value x); rotate_left; dsimp -zeta only [x]; rotate_right) | ((have hx : Keeps s0 x.2 := ?_); (try clear_value x); rotate_left; dsimp -zeta only [x]; rotate_right) | (clear_value x) | skip)
    | lift_lets -underBinder
    | (with_reducible refine keeps_updRun ?_ ..)
    | (with_reducible refine keeps_issueFetches ?_ ..)
    | (with_reducible refine keeps_prefetch ?_ ..)
    | (with_reducible refine keeps_endHold ?_ ..)
    | (with_reducible refine keeps_ite ?_ ?_)
    | (fail_if_no_progress beta_reduce)
    | (dsimp only [Keeps, part]; with_reducible refine keeps_of ?_; first | with_reducible assumption | (with_reducible refine keeps_updRun ?_ ..) | (with_reducible refine keeps_issueFetches ?_ ..) | (with_reducible refine keeps_prefetch ?_ ..) | (with_reducible refine keeps_endHold ?_ ..))
    | split
    | (refine keeps_ite ?_ ?_))

theorem keeps_execLayerStart {s0 s : State} {e : Nat} {at_ : Nat} (hK : Keeps s0 s) :
    XKeeps s0 (execLayerStart e at_ s) := by
  unfold execLayerStart
  repeat' (first
    | (with_reducible assumption)
    | (intro x; first | ((have hx : Keeps s0 x := ?_); (try clear_value x); rotate_left; dsimp -zeta only [x]; rotate_right) | ((have hx : Keeps s0 x.1 := ?_); (try clear_value x); rotate_left; dsimp -zeta only [x]; rotate_right) | ((have hx : Keeps s0 x.2 := ?_); (try clear_value x); rotate_left; dsimp -zeta only [x]; rotate_right) | (clear_value x) | skip)
    | lift_lets -underBinder
    | (with_reducible refine keeps_tick ?_ ..)
    | (with_reducible refine keeps_settle ?_ ..)
    | (with_reducible refine keeps_tileLate ?_ ..)
    | (with_reducible refine keeps_startLayer ?_ ..)
    | (with_reducible refine keeps_ite ?_ ?_)
    | (with_reducible refine xkeeps_next ?_)
    | (fail_if_no_progress beta_reduce)
    | (dsimp only [Keeps, part]; with_reducible refine keeps_of ?_; first | with_reducible assumption | (with_reducible refine keeps_tick ?_ ..) | (with_reducible refine keeps_settle ?_ ..) | (with_reducible refine keeps_tileLate ?_ ..) | (with_reducible refine keeps_startLayer ?_ ..))
    | split
    | (refine keeps_ite ?_ ?_))

theorem keeps_execFenceDeadline {s0 s : State} {e : Nat} {at_ : Nat} (hK : Keeps s0 s) :
    XKeeps s0 (execFenceDeadline e at_ s) := by
  unfold execFenceDeadline
  repeat' (first
    | (with_reducible assumption)
    | (intro x; first | ((have hx : Keeps s0 x := ?_); (try clear_value x); rotate_left; dsimp -zeta only [x]; rotate_right) | ((have hx : Keeps s0 x.1 := ?_); (try clear_value x); rotate_left; dsimp -zeta only [x]; rotate_right) | ((have hx : Keeps s0 x.2 := ?_); (try clear_value x); rotate_left; dsimp -zeta only [x]; rotate_right) | (clear_value x) | skip)
    | lift_lets -underBinder
    | (with_reducible refine keeps_tick ?_ ..)
    | (with_reducible refine keeps_settle ?_ ..)
    | (with_reducible refine keeps_tileLate ?_ ..)
    | (with_reducible refine keeps_ite ?_ ?_)
    | (with_reducible refine xkeeps_next ?_)
    | (fail_if_no_progress beta_reduce)
    | (dsimp only [Keeps, part]; with_reducible refine keeps_of ?_; first | with_reducible assumption | (with_reducible refine keeps_tick ?_ ..) | (with_reducible refine keeps_settle ?_ ..) | (with_reducible refine keeps_tileLate ?_ ..))
    | split
    | (refine keeps_ite ?_ ?_))

theorem keeps_gather {s0 s : State} {r : Run} {ops : List Tile} {ret : KernelRet} (hK : Keeps s0 s) :
    Keeps s0 (State.gather s r ops ret).1 := by
  unfold State.gather
  repeat' (first
    | (with_reducible assumption)
    | (intro x; first | ((have hx : Keeps s0 x := ?_); (try clear_value x); rotate_left; dsimp -zeta only [x]; rotate_right) | ((have hx : Keeps s0 x.1 := ?_); (try clear_value x); rotate_left; dsimp -zeta only [x]; rotate_right) | ((have hx : Keeps s0 x.2 := ?_); (try clear_value x); rotate_left; dsimp -zeta only [x]; rotate_right) | (clear_value x) | skip)
    | lift_lets -underBinder
    | (with_reducible refine keeps_boltAccess ?_ ..)
    | (refine keeps_boltAccess_eq (by assumption) ?_)
    | (with_reducible refine keeps_fail ?_ ..)
    | (with_reducible refine keeps_readRun ?_ ..)
    | (with_reducible refine keeps_foldl (fun s x hK => ?_) ?_)
    | (with_reducible refine keeps_foldl_fst (fun s x hK => ?_) ?_)
    | (refine keeps_foldl_eq (by assumption) (fun s x hK => ?_) ?_)
    | (with_reducible refine keeps_getD ?_ ?_)
    | (with_reducible refine keeps_ite ?_ ?_)
    | (fail_if_no_progress beta_reduce)
    | (dsimp only [Keeps, part]; with_reducible refine keeps_of ?_; first | with_reducible assumption | (with_reducible refine keeps_boltAccess ?_ ..) | (refine keeps_boltAccess_eq (by assumption) ?_) | (with_reducible refine keeps_fail ?_ ..) | (with_reducible refine keeps_readRun ?_ ..) | (refine keeps_foldl_eq (by assumption) (fun s x hK => ?_) ?_))
    | split
    | (refine keeps_ite ?_ ?_))

theorem keeps_gather_eq {s0 s tE : State} {bE : KRes} {r : Run} {ops : List Tile} {ret : KernelRet} (hEq : State.gather s r ops ret = (tE, bE)) (hK : Keeps s0 s) : Keeps s0 tE := by
  have k : Keeps s0 (State.gather s r ops ret).1 := keeps_gather hK
  rw [hEq] at k
  exact k

theorem keeps_kernelRes {s0 s : State} {e : Nat} {r : Run} {ret : KernelRet} (hK : Keeps s0 s) :
    Keeps s0 (State.kernelRes s e r ret).1 := by
  unfold State.kernelRes
  repeat' (first
    | (with_reducible assumption)
    | (intro x; first | ((have hx : Keeps s0 x := ?_); (try clear_value x); rotate_left; dsimp -zeta only [x]; rotate_right) | ((have hx : Keeps s0 x.1 := ?_); (try clear_value x); rotate_left; dsimp -zeta only [x]; rotate_right) | ((have hx : Keeps s0 x.2 := ?_); (try clear_value x); rotate_left; dsimp -zeta only [x]; rotate_right) | (clear_value x) | skip)
    | lift_lets -underBinder
    | (with_reducible refine keeps_gather ?_ ..)
    | (refine keeps_gather_eq (by assumption) ?_)
    | (with_reducible refine keeps_ite ?_ ?_)
    | (fail_if_no_progress beta_reduce)
    | (dsimp only [Keeps, part]; with_reducible refine keeps_of ?_; first | with_reducible assumption | (with_reducible refine keeps_gather ?_ ..) | (refine keeps_gather_eq (by assumption) ?_))
    | (dsimp only [Keeps, part]; with_reducible refine keeps_ofFree ?_; first | with_reducible assumption | (with_reducible refine keeps_gather ?_ ..) | (refine keeps_gather_eq (by assumption) ?_))
    | split
    | (refine keeps_ite ?_ ?_))

theorem keeps_kernelRes_eq {s0 s tE : State} {bE : KRes × Nat} {e : Nat} {r : Run} {ret : KernelRet} (hEq : State.kernelRes s e r ret = (tE, bE)) (hK : Keeps s0 s) : Keeps s0 tE := by
  have k : Keeps s0 (State.kernelRes s e r ret).1 := keeps_kernelRes hK
  rw [hEq] at k
  exact k

theorem keeps_logFault {s0 s : State} {e : Nat} {code : Nat} {q : Nat} {layer : Nat} {slot : Nat} (hK : Keeps s0 s) :
    Keeps s0 (State.logFault s e code q layer slot) := by
  unfold State.logFault
  repeat' (first
    | (with_reducible assumption)
    | (intro x; first | ((have hx : Keeps s0 x := ?_); (try clear_value x); rotate_left; dsimp -zeta only [x]; rotate_right) | ((have hx : Keeps s0 x.1 := ?_); (try clear_value x); rotate_left; dsimp -zeta only [x]; rotate_right) | ((have hx : Keeps s0 x.2 := ?_); (try clear_value x); rotate_left; dsimp -zeta only [x]; rotate_right) | (clear_value x) | skip)
    | lift_lets -underBinder
    | (with_reducible refine keeps_setF ?_ ..)
    | (with_reducible refine keeps_ite ?_ ?_)
    | (fail_if_no_progress beta_reduce)
    | (dsimp only [Keeps, part]; with_reducible refine keeps_of ?_; first | with_reducible assumption | (with_reducible refine keeps_setF ?_ ..))
    | split
    | (refine keeps_ite ?_ ?_))

theorem keeps_completeHead {s0 s : State} {e : Nat} (hK : Keeps s0 s) :
    Keeps s0 (State.completeHead s e) := by
  unfold State.completeHead
  repeat' (first
    | (with_reducible assumption)
    | (intro x; first | ((have hx : Keeps s0 x := ?_); (try clear_value x); rotate_left; dsimp -zeta only [x]; rotate_right) | ((have hx : Keeps s0 x.1 := ?_); (try clear_value x); rotate_left; dsimp -zeta only [x]; rotate_right) | ((have hx : Keeps s0 x.2 := ?_); (try clear_value x); rotate_left; dsimp -zeta only [x]; rotate_right) | (clear_value x) | skip)
    | lift_lets -underBinder
    | (with_reducible refine keeps_updRun ?_ ..)
    | (with_reducible refine keeps_submit ?_ ..)
    | (with_reducible refine keeps_issueFetches ?_ ..)
    | (with_reducible refine keeps_ite ?_ ?_)
    | (fail_if_no_progress beta_reduce)
    | (dsimp only [Keeps, part]; with_reducible refine keeps_of ?_; first | with_reducible assumption | (with_reducible refine keeps_updRun ?_ ..) | (with_reducible refine keeps_submit ?_ ..) | (with_reducible refine keeps_issueFetches ?_ ..))
    | split
    | (refine keeps_ite ?_ ?_))

theorem keeps_writeBack {s0 s : State} {e : Nat} {r : Run} {k : KRes} {ret : KernelRet} {fault : Nat} (hK : Keeps s0 s) :
    Keeps s0 (State.writeBack s e r k ret fault) := by
  unfold State.writeBack
  repeat' (first
    | (with_reducible assumption)
    | (intro x; first | ((have hx : Keeps s0 x := ?_); (try clear_value x); rotate_left; dsimp -zeta only [x]; rotate_right) | ((have hx : Keeps s0 x.1 := ?_); (try clear_value x); rotate_left; dsimp -zeta only [x]; rotate_right) | ((have hx : Keeps s0 x.2 := ?_); (try clear_value x); rotate_left; dsimp -zeta only [x]; rotate_right) | (clear_value x) | skip)
    | lift_lets -underBinder
    | (with_reducible refine keeps_updRun ?_ ..)
    | (with_reducible refine keeps_submit ?_ ..)
    | (with_reducible refine keeps_completeHead ?_ ..)
    | (with_reducible refine keeps_foldl (fun s x hK => ?_) ?_)
    | (with_reducible refine keeps_foldl_fst (fun s x hK => ?_) ?_)
    | (refine keeps_foldl_eq (by assumption) (fun s x hK => ?_) ?_)
    | (with_reducible refine keeps_getD ?_ ?_)
    | (with_reducible refine keeps_ite ?_ ?_)
    | (fail_if_no_progress beta_reduce)
    | (dsimp only [Keeps, part]; with_reducible refine keeps_of ?_; first | with_reducible assumption | (with_reducible refine keeps_updRun ?_ ..) | (with_reducible refine keeps_submit ?_ ..) | (with_reducible refine keeps_completeHead ?_ ..) | (refine keeps_foldl_eq (by assumption) (fun s x hK => ?_) ?_))
    | split
    | (refine keeps_ite ?_ ?_))

theorem keeps_urgent {s0 s : State} {e : Nat} (hK : Keeps s0 s) :
    Keeps s0 (State.urgent s e) := by
  unfold State.urgent
  repeat' (first
    | (with_reducible assumption)
    | (intro x; first | ((have hx : Keeps s0 x := ?_); (try clear_value x); rotate_left; dsimp -zeta only [x]; rotate_right) | ((have hx : Keeps s0 x.1 := ?_); (try clear_value x); rotate_left; dsimp -zeta only [x]; rotate_right) | ((have hx : Keeps s0 x.2 := ?_); (try clear_value x); rotate_left; dsimp -zeta only [x]; rotate_right) | (clear_value x) | skip)
    | lift_lets -underBinder
    | (with_reducible refine keeps_flashRead ?_ ..)
    | (with_reducible refine keeps_foldl (fun s x hK => ?_) ?_)
    | (with_reducible refine keeps_foldl_fst (fun s x hK => ?_) ?_)
    | (refine keeps_foldl_eq (by assumption) (fun s x hK => ?_) ?_)
    | (with_reducible refine keeps_ite ?_ ?_)
    | (fail_if_no_progress beta_reduce)
    | (dsimp only [Keeps, part]; with_reducible refine keeps_of ?_; first | with_reducible assumption | (with_reducible refine keeps_flashRead ?_ ..) | (refine keeps_foldl_eq (by assumption) (fun s x hK => ?_) ?_))
    | split
    | (refine keeps_ite ?_ ?_))

theorem keeps_fence {s0 s : State} {e : Nat} (hK : Keeps s0 s) :
    Keeps s0 (State.fence s e) := by
  unfold State.fence
  repeat' (first
    | (with_reducible assumption)
    | (intro x; first | ((have hx : Keeps s0 x := ?_); (try clear_value x); rotate_left; dsimp -zeta only [x]; rotate_right) | ((have hx : Keeps s0 x.1 := ?_); (try clear_value x); rotate_left; dsimp -zeta only [x]; rotate_right) | ((have hx : Keeps s0 x.2 := ?_); (try clear_value x); rotate_left; dsimp -zeta only [x]; rotate_right) | (clear_value x) | skip)
    | lift_lets -underBinder
    | (with_reducible refine keeps_raiseAt ?_ ..)
    | (with_reducible refine keeps_updRun ?_ ..)
    | (with_reducible refine keeps_urgent ?_ ..)
    | (with_reducible refine keeps_ite ?_ ?_)
    | (fail_if_no_progress beta_reduce)
    | (dsimp only [Keeps, part]; with_reducible refine keeps_of ?_; first | with_reducible assumption | (with_reducible refine keeps_raiseAt ?_ ..) | (with_reducible refine keeps_updRun ?_ ..) | (with_reducible refine keeps_urgent ?_ ..))
    | split
    | (refine keeps_ite ?_ ?_))

theorem keeps_kernelFault {s0 s : State} {e : Nat} {fault : Nat} {code : Nat} {slot : Nat} (hK : Keeps s0 s) :
    Keeps s0 (State.kernelFault s e fault code slot) := by
  unfold State.kernelFault
  repeat' (first
    | (with_reducible assumption)
    | (intro x; first | ((have hx : Keeps s0 x := ?_); (try clear_value x); rotate_left; dsimp -zeta only [x]; rotate_right) | ((have hx : Keeps s0 x.1 := ?_); (try clear_value x); rotate_left; dsimp -zeta only [x]; rotate_right) | ((have hx : Keeps s0 x.2 := ?_); (try clear_value x); rotate_left; dsimp -zeta only [x]; rotate_right) | (clear_value x) | skip)
    | lift_lets -underBinder
    | (with_reducible refine keeps_raiseArg ?_ ..)
    | (with_reducible refine keeps_updRun ?_ ..)
    | (with_reducible refine keeps_logFault ?_ ..)
    | (with_reducible refine keeps_ite ?_ ?_)
    | (fail_if_no_progress beta_reduce)
    | (dsimp only [Keeps, part]; with_reducible refine keeps_of ?_; first | with_reducible assumption | (with_reducible refine keeps_raiseArg ?_ ..) | (with_reducible refine keeps_updRun ?_ ..) | (with_reducible refine keeps_logFault ?_ ..))
    | split
    | (refine keeps_ite ?_ ?_))

theorem keeps_endLayer {s0 s : State} {e : Nat} {r : Run} {ret : KernelRet} (hK : Keeps s0 s) :
    Keeps s0 (State.endLayer s e r ret) := by
  unfold State.endLayer
  repeat' (first
    | (with_reducible assumption)
    | (intro x; first | ((have hx : Keeps s0 x := ?_); (try clear_value x); rotate_left; dsimp -zeta only [x]; rotate_right) | ((have hx : Keeps s0 x.1 := ?_); (try clear_value x); rotate_left; dsimp -zeta only [x]; rotate_right) | ((have hx : Keeps s0 x.2 := ?_); (try clear_value x); rotate_left; dsimp -zeta only [x]; rotate_right) | (clear_value x) | skip)
    | lift_lets -underBinder
    | (with_reducible refine keeps_raiseAt ?_ ..)
    | (with_reducible refine keeps_putEngine ?_ ..)
    | (with_reducible refine keeps_updRun ?_ ..)
    | (with_reducible refine keeps_issueFetches ?_ ..)
    | (with_reducible refine keeps_kernelRes ?_ ..)
    | (refine keeps_kernelRes_eq (by assumption) ?_)
    | (with_reducible refine keeps_logFault ?_ ..)
    | (with_reducible refine keeps_writeBack ?_ ..)
    | (with_reducible refine keeps_fence ?_ ..)
    | (with_reducible refine keeps_ite ?_ ?_)
    | (fail_if_no_progress beta_reduce)
    | (dsimp only [Keeps, part]; with_reducible refine keeps_of ?_; first | with_reducible assumption | (with_reducible refine keeps_raiseAt ?_ ..) | (with_reducible refine keeps_putEngine ?_ ..) | (with_reducible refine keeps_updRun ?_ ..) | (with_reducible refine keeps_issueFetches ?_ ..) | (with_reducible refine keeps_kernelRes ?_ ..) | (refine keeps_kernelRes_eq (by assumption) ?_) | (with_reducible refine keeps_logFault ?_ ..) | (with_reducible refine keeps_writeBack ?_ ..) | (with_reducible refine keeps_fence ?_ ..))
    | split
    | (refine keeps_ite ?_ ?_))

theorem keeps_execLayerEnd {s0 s : State} {e : Nat} {ret : KernelRet} {at_ : Nat} (hK : Keeps s0 s) :
    XKeeps s0 (execLayerEnd e ret at_ s) := by
  unfold execLayerEnd
  repeat' (first
    | (with_reducible assumption)
    | (intro x; first | ((have hx : Keeps s0 x := ?_); (try clear_value x); rotate_left; dsimp -zeta only [x]; rotate_right) | ((have hx : Keeps s0 x.1 := ?_); (try clear_value x); rotate_left; dsimp -zeta only [x]; rotate_right) | ((have hx : Keeps s0 x.2 := ?_); (try clear_value x); rotate_left; dsimp -zeta only [x]; rotate_right) | (clear_value x) | skip)
    | lift_lets -underBinder
    | (with_reducible refine keeps_tick ?_ ..)
    | (with_reducible refine keeps_settle ?_ ..)
    | (with_reducible refine keeps_kernelFault ?_ ..)
    | (with_reducible refine keeps_endLayer ?_ ..)
    | (with_reducible refine keeps_ite ?_ ?_)
    | (with_reducible refine xkeeps_next ?_)
    | (fail_if_no_progress beta_reduce)
    | (dsimp only [Keeps, part]; with_reducible refine keeps_of ?_; first | with_reducible assumption | (with_reducible refine keeps_tick ?_ ..) | (with_reducible refine keeps_settle ?_ ..) | (with_reducible refine keeps_kernelFault ?_ ..) | (with_reducible refine keeps_endLayer ?_ ..))
    | split
    | (refine keeps_ite ?_ ?_))

theorem keeps_execLayerComplete {s0 s : State} {e : Nat} {at_ : Nat} (hK : Keeps s0 s) :
    XKeeps s0 (execLayerComplete e at_ s) := by
  unfold execLayerComplete
  repeat' (first
    | (with_reducible assumption)
    | (intro x; first | ((have hx : Keeps s0 x := ?_); (try clear_value x); rotate_left; dsimp -zeta only [x]; rotate_right) | ((have hx : Keeps s0 x.1 := ?_); (try clear_value x); rotate_left; dsimp -zeta only [x]; rotate_right) | ((have hx : Keeps s0 x.2 := ?_); (try clear_value x); rotate_left; dsimp -zeta only [x]; rotate_right) | (clear_value x) | skip)
    | lift_lets -underBinder
    | (with_reducible refine keeps_tick ?_ ..)
    | (with_reducible refine keeps_settle ?_ ..)
    | (with_reducible refine keeps_completeHead ?_ ..)
    | (with_reducible refine keeps_ite ?_ ?_)
    | (with_reducible refine xkeeps_next ?_)
    | (fail_if_no_progress beta_reduce)
    | (dsimp only [Keeps, part]; with_reducible refine keeps_of ?_; first | with_reducible assumption | (with_reducible refine keeps_tick ?_ ..) | (with_reducible refine keeps_settle ?_ ..) | (with_reducible refine keeps_completeHead ?_ ..))
    | split
    | (refine keeps_ite ?_ ?_))

theorem keeps_execKernelCycleLimit {s0 s : State} {e : Nat} {at_ : Nat} (hK : Keeps s0 s) :
    XKeeps s0 (execKernelCycleLimit e at_ s) := by
  unfold execKernelCycleLimit
  repeat' (first
    | (with_reducible assumption)
    | (intro x; first | ((have hx : Keeps s0 x := ?_); (try clear_value x); rotate_left; dsimp -zeta only [x]; rotate_right) | ((have hx : Keeps s0 x.1 := ?_); (try clear_value x); rotate_left; dsimp -zeta only [x]; rotate_right) | ((have hx : Keeps s0 x.2 := ?_); (try clear_value x); rotate_left; dsimp -zeta only [x]; rotate_right) | (clear_value x) | skip)
    | lift_lets -underBinder
    | (with_reducible refine keeps_tick ?_ ..)
    | (with_reducible refine keeps_settle ?_ ..)
    | (with_reducible refine keeps_kernelFault ?_ ..)
    | (with_reducible refine keeps_ite ?_ ?_)
    | (with_reducible refine xkeeps_next ?_)
    | (fail_if_no_progress beta_reduce)
    | (dsimp only [Keeps, part]; with_reducible refine keeps_of ?_; first | with_reducible assumption | (with_reducible refine keeps_tick ?_ ..) | (with_reducible refine keeps_settle ?_ ..) | (with_reducible refine keeps_kernelFault ?_ ..))
    | split
    | (refine keeps_ite ?_ ?_))

theorem keeps_execUserKernelFault {s0 s : State} {e : Nat} {code : Nat} {slot : Nat} {at_ : Nat} (hK : Keeps s0 s) :
    XKeeps s0 (execUserKernelFault e code slot at_ s) := by
  unfold execUserKernelFault
  repeat' (first
    | (with_reducible assumption)
    | (intro x; first | ((have hx : Keeps s0 x := ?_); (try clear_value x); rotate_left; dsimp -zeta only [x]; rotate_right) | ((have hx : Keeps s0 x.1 := ?_); (try clear_value x); rotate_left; dsimp -zeta only [x]; rotate_right) | ((have hx : Keeps s0 x.2 := ?_); (try clear_value x); rotate_left; dsimp -zeta only [x]; rotate_right) | (clear_value x) | skip)
    | lift_lets -underBinder
    | (with_reducible refine keeps_tick ?_ ..)
    | (with_reducible refine keeps_settle ?_ ..)
    | (with_reducible refine keeps_kernelFault ?_ ..)
    | (with_reducible refine keeps_ite ?_ ?_)
    | (with_reducible refine xkeeps_next ?_)
    | (fail_if_no_progress beta_reduce)
    | (dsimp only [Keeps, part]; with_reducible refine keeps_of ?_; first | with_reducible assumption | (with_reducible refine keeps_tick ?_ ..) | (with_reducible refine keeps_settle ?_ ..) | (with_reducible refine keeps_kernelFault ?_ ..))
    | split
    | (refine keeps_ite ?_ ?_))

theorem keeps_setEngines {s0 s : State} {l : List Nat} (hK : Keeps s0 s) :
    Keeps s0 (State.setEngines s l) := by
  unfold State.setEngines
  repeat' (first
    | (with_reducible assumption)
    | (intro x; first | ((have hx : Keeps s0 x := ?_); (try clear_value x); rotate_left; dsimp -zeta only [x]; rotate_right) | ((have hx : Keeps s0 x.1 := ?_); (try clear_value x); rotate_left; dsimp -zeta only [x]; rotate_right) | ((have hx : Keeps s0 x.2 := ?_); (try clear_value x); rotate_left; dsimp -zeta only [x]; rotate_right) | (clear_value x) | skip)
    | lift_lets -underBinder
    | (with_reducible refine keeps_put ?_ ..)
    | (with_reducible refine keeps_foldl (fun s x hK => ?_) ?_)
    | (with_reducible refine keeps_foldl_fst (fun s x hK => ?_) ?_)
    | (refine keeps_foldl_eq (by assumption) (fun s x hK => ?_) ?_)
    | (with_reducible refine keeps_ite ?_ ?_)
    | (fail_if_no_progress beta_reduce)
    | (dsimp only [Keeps, part]; with_reducible refine keeps_of ?_; first | with_reducible assumption | (with_reducible refine keeps_put ?_ ..) | (refine keeps_foldl_eq (by assumption) (fun s x hK => ?_) ?_))
    | split
    | (refine keeps_ite ?_ ?_))

theorem keeps_rerun {s0 s : State} {e : Nat} {slot : Nat} {r : Run} (hK : Keeps s0 s) :
    Keeps s0 (State.rerun s e slot r) := by
  unfold State.rerun
  repeat' (first
    | (with_reducible assumption)
    | (intro x; first | ((have hx : Keeps s0 x := ?_); (try clear_value x); rotate_left; dsimp -zeta only [x]; rotate_right) | ((have hx : Keeps s0 x.1 := ?_); (try clear_value x); rotate_left; dsimp -zeta only [x]; rotate_right) | ((have hx : Keeps s0 x.2 := ?_); (try clear_value x); rotate_left; dsimp -zeta only [x]; rotate_right) | (clear_value x) | skip)
    | lift_lets -underBinder
    | (with_reducible refine keeps_updRun ?_ ..)
    | (with_reducible refine keeps_dropFetches ?_ ..)
    | (with_reducible refine keeps_moveRun ?_ ..)
    | (with_reducible refine keeps_ite ?_ ?_)
    | (fail_if_no_progress beta_reduce)
    | (dsimp only [Keeps, part]; with_reducible refine keeps_of ?_; first | with_reducible assumption | (with_reducible refine keeps_updRun ?_ ..) | (with_reducible refine keeps_dropFetches ?_ ..) | (with_reducible refine keeps_moveRun ?_ ..))
    | split
    | (refine keeps_ite ?_ ?_))

theorem keeps_moveJobs {s0 s : State} {e : Nat} (hK : Keeps s0 s) :
    Keeps s0 (State.moveJobs s e) := by
  unfold State.moveJobs
  repeat' (first
    | (with_reducible assumption)
    | (intro x; first | ((have hx : Keeps s0 x := ?_); (try clear_value x); rotate_left; dsimp -zeta only [x]; rotate_right) | ((have hx : Keeps s0 x.1 := ?_); (try clear_value x); rotate_left; dsimp -zeta only [x]; rotate_right) | ((have hx : Keeps s0 x.2 := ?_); (try clear_value x); rotate_left; dsimp -zeta only [x]; rotate_right) | (clear_value x) | skip)
    | lift_lets -underBinder
    | (with_reducible refine keeps_putEngine ?_ ..)
    | (with_reducible refine keeps_putDesc ?_ ..)
    | (with_reducible refine keeps_endDesc ?_ ..)
    | (with_reducible refine keeps_queueJob ?_ ..)
    | (with_reducible refine keeps_foldl (fun s x hK => ?_) ?_)
    | (with_reducible refine keeps_foldl_fst (fun s x hK => ?_) ?_)
    | (refine keeps_foldl_eq (by assumption) (fun s x hK => ?_) ?_)
    | (with_reducible refine keeps_ite ?_ ?_)
    | (fail_if_no_progress beta_reduce)
    | (dsimp only [Keeps, part]; with_reducible refine keeps_of ?_; first | with_reducible assumption | (with_reducible refine keeps_putEngine ?_ ..) | (with_reducible refine keeps_putDesc ?_ ..) | (with_reducible refine keeps_endDesc ?_ ..) | (with_reducible refine keeps_queueJob ?_ ..) | (refine keeps_foldl_eq (by assumption) (fun s x hK => ?_) ?_))
    | split
    | (refine keeps_ite ?_ ?_))

theorem keeps_execEngineHwFault {s0 s : State} {e : Nat} {slot : Nat} {at_ : Nat} (hK : Keeps s0 s) :
    XKeeps s0 (execEngineHwFault e slot at_ s) := by
  unfold execEngineHwFault
  repeat' (first
    | (with_reducible assumption)
    | (intro x; first | ((have hx : Keeps s0 x := ?_); (try clear_value x); rotate_left; dsimp -zeta only [x]; rotate_right) | ((have hx : Keeps s0 x.1 := ?_); (try clear_value x); rotate_left; dsimp -zeta only [x]; rotate_right) | ((have hx : Keeps s0 x.2 := ?_); (try clear_value x); rotate_left; dsimp -zeta only [x]; rotate_right) | (clear_value x) | skip)
    | lift_lets -underBinder
    | (with_reducible refine keeps_tick ?_ ..)
    | (with_reducible refine keeps_raiseArg ?_ ..)
    | (with_reducible refine keeps_health ?_ ..)
    | (with_reducible refine keeps_putEngine ?_ ..)
    | (with_reducible refine keeps_settle ?_ ..)
    | (with_reducible refine keeps_logFault ?_ ..)
    | (with_reducible refine keeps_setEngines ?_ ..)
    | (with_reducible refine keeps_rerun ?_ ..)
    | (with_reducible refine keeps_moveJobs ?_ ..)
    | (with_reducible refine keeps_ite ?_ ?_)
    | (with_reducible refine xkeeps_next ?_)
    | (fail_if_no_progress beta_reduce)
    | (dsimp only [Keeps, part]; with_reducible refine keeps_of ?_; first | with_reducible assumption | (with_reducible refine keeps_tick ?_ ..) | (with_reducible refine keeps_raiseArg ?_ ..) | (with_reducible refine keeps_health ?_ ..) | (with_reducible refine keeps_putEngine ?_ ..) | (with_reducible refine keeps_settle ?_ ..) | (with_reducible refine keeps_logFault ?_ ..) | (with_reducible refine keeps_setEngines ?_ ..) | (with_reducible refine keeps_rerun ?_ ..) | (with_reducible refine keeps_moveJobs ?_ ..))
    | split
    | (refine keeps_ite ?_ ?_))

theorem keeps_stopEngine {s0 s : State} {e : Nat} {fault : Nat} {code : Nat} (hK : Keeps s0 s) :
    Keeps s0 (State.stopEngine s e fault code) := by
  unfold State.stopEngine
  repeat' (first
    | (with_reducible assumption)
    | (intro x; first | ((have hx : Keeps s0 x := ?_); (try clear_value x); rotate_left; dsimp -zeta only [x]; rotate_right) | ((have hx : Keeps s0 x.1 := ?_); (try clear_value x); rotate_left; dsimp -zeta only [x]; rotate_right) | ((have hx : Keeps s0 x.2 := ?_); (try clear_value x); rotate_left; dsimp -zeta only [x]; rotate_right) | (clear_value x) | skip)
    | lift_lets -underBinder
    | (with_reducible refine keeps_putEngine ?_ ..)
    | (with_reducible refine keeps_updRun ?_ ..)
    | (with_reducible refine keeps_endDesc ?_ ..)
    | (with_reducible refine keeps_dropFetches ?_ ..)
    | (with_reducible refine keeps_logFault ?_ ..)
    | (with_reducible refine keeps_foldl (fun s x hK => ?_) ?_)
    | (with_reducible refine keeps_foldl_fst (fun s x hK => ?_) ?_)
    | (refine keeps_foldl_eq (by assumption) (fun s x hK => ?_) ?_)
    | (with_reducible refine keeps_ite ?_ ?_)
    | (fail_if_no_progress beta_reduce)
    | (dsimp only [Keeps, part]; with_reducible refine keeps_of ?_; first | with_reducible assumption | (with_reducible refine keeps_putEngine ?_ ..) | (with_reducible refine keeps_updRun ?_ ..) | (with_reducible refine keeps_endDesc ?_ ..) | (with_reducible refine keeps_dropFetches ?_ ..) | (with_reducible refine keeps_logFault ?_ ..) | (refine keeps_foldl_eq (by assumption) (fun s x hK => ?_) ?_))
    | split
    | (refine keeps_ite ?_ ?_))

theorem keeps_stopCluster {s0 s : State} {c : Nat} (hK : Keeps s0 s) :
    Keeps s0 (State.stopCluster s c) := by
  unfold State.stopCluster
  repeat' (first
    | (with_reducible assumption)
    | (intro x; first | ((have hx : Keeps s0 x := ?_); (try clear_value x); rotate_left; dsimp -zeta only [x]; rotate_right) | ((have hx : Keeps s0 x.1 := ?_); (try clear_value x); rotate_left; dsimp -zeta only [x]; rotate_right) | ((have hx : Keeps s0 x.2 := ?_); (try clear_value x); rotate_left; dsimp -zeta only [x]; rotate_right) | (clear_value x) | skip)
    | lift_lets -underBinder
    | (with_reducible refine keeps_raise ?_ ..)
    | (with_reducible refine keeps_settle ?_ ..)
    | (with_reducible refine keeps_setEngines ?_ ..)
    | (with_reducible refine keeps_stopEngine ?_ ..)
    | (with_reducible refine keeps_foldl (fun s x hK => ?_) ?_)
    | (with_reducible refine keeps_foldl_fst (fun s x hK => ?_) ?_)
    | (refine keeps_foldl_eq (by assumption) (fun s x hK => ?_) ?_)
    | (with_reducible refine keeps_ite ?_ ?_)
    | (fail_if_no_progress beta_reduce)
    | (dsimp only [Keeps, part]; with_reducible refine keeps_of ?_; first | with_reducible assumption | (with_reducible refine keeps_raise ?_ ..) | (with_reducible refine keeps_settle ?_ ..) | (with_reducible refine keeps_setEngines ?_ ..) | (with_reducible refine keeps_stopEngine ?_ ..) | (refine keeps_foldl_eq (by assumption) (fun s x hK => ?_) ?_))
    | split
    | (refine keeps_ite ?_ ?_))

theorem keeps_restartCluster {s0 s : State} {c : Nat} {built : List Nat} (hK : Keeps s0 s) :
    Keeps s0 (State.restartCluster s c built) := by
  unfold State.restartCluster
  repeat' (first
    | (with_reducible assumption)
    | (intro x; first | ((have hx : Keeps s0 x := ?_); (try clear_value x); rotate_left; dsimp -zeta only [x]; rotate_right) | ((have hx : Keeps s0 x.1 := ?_); (try clear_value x); rotate_left; dsimp -zeta only [x]; rotate_right) | ((have hx : Keeps s0 x.2 := ?_); (try clear_value x); rotate_left; dsimp -zeta only [x]; rotate_right) | (clear_value x) | skip)
    | lift_lets -underBinder
    | (with_reducible refine keeps_putEngine ?_ ..)
    | (with_reducible refine keeps_setEngines ?_ ..)
    | (with_reducible refine keeps_foldl (fun s x hK => ?_) ?_)
    | (with_reducible refine keeps_foldl_fst (fun s x hK => ?_) ?_)
    | (refine keeps_foldl_eq (by assumption) (fun s x hK => ?_) ?_)
    | (with_reducible refine keeps_ite ?_ ?_)
    | (fail_if_no_progress beta_reduce)
    | (dsimp only [Keeps, part]; with_reducible refine keeps_of ?_; first | with_reducible assumption | (with_reducible refine keeps_putEngine ?_ ..) | (with_reducible refine keeps_setEngines ?_ ..) | (refine keeps_foldl_eq (by assumption) (fun s x hK => ?_) ?_))
    | split
    | (refine keeps_ite ?_ ?_))

theorem keeps_abortEngines {s0 s : State} (hK : Keeps s0 s) :
    Keeps s0 (State.abortEngines s) := by
  unfold State.abortEngines
  repeat' (first
    | (with_reducible assumption)
    | (intro x; first | ((have hx : Keeps s0 x := ?_); (try clear_value x); rotate_left; dsimp -zeta only [x]; rotate_right) | ((have hx : Keeps s0 x.1 := ?_); (try clear_value x); rotate_left; dsimp -zeta only [x]; rotate_right) | ((have hx : Keeps s0 x.2 := ?_); (try clear_value x); rotate_left; dsimp -zeta only [x]; rotate_right) | (clear_value x) | skip)
    | lift_lets -underBinder
    | (with_reducible refine keeps_stopEngine ?_ ..)
    | (with_reducible refine keeps_foldl (fun s x hK => ?_) ?_)
    | (with_reducible refine keeps_foldl_fst (fun s x hK => ?_) ?_)
    | (refine keeps_foldl_eq (by assumption) (fun s x hK => ?_) ?_)
    | (with_reducible refine keeps_ite ?_ ?_)
    | (fail_if_no_progress beta_reduce)
    | (dsimp only [Keeps, part]; with_reducible refine keeps_of ?_; first | with_reducible assumption | (with_reducible refine keeps_stopEngine ?_ ..) | (refine keeps_foldl_eq (by assumption) (fun s x hK => ?_) ?_))
    | split
    | (refine keeps_ite ?_ ?_))

theorem keeps_zeroTileStores {s0 s : State} (hK : Keeps s0 s) :
    Keeps s0 (State.zeroTileStores s) := by
  unfold State.zeroTileStores
  repeat' (first
    | (with_reducible assumption)
    | (intro x; first | ((have hx : Keeps s0 x := ?_); (try clear_value x); rotate_left; dsimp -zeta only [x]; rotate_right) | ((have hx : Keeps s0 x.1 := ?_); (try clear_value x); rotate_left; dsimp -zeta only [x]; rotate_right) | ((have hx : Keeps s0 x.2 := ?_); (try clear_value x); rotate_left; dsimp -zeta only [x]; rotate_right) | (clear_value x) | skip)
    | lift_lets -underBinder
    | (with_reducible refine keeps_ite ?_ ?_)
    | (fail_if_no_progress beta_reduce)
    | (dsimp only [Keeps, part]; with_reducible refine keeps_of ?_; first | with_reducible assumption)
    | split
    | (refine keeps_ite ?_ ?_))

theorem keeps_execEnCountRead {s0 s : State} {via : Via} {e : Nat} {w : AccW} (hK : Keeps s0 s) :
    XKeeps s0 (execEnCountRead via e w s) := by
  unfold execEnCountRead
  repeat' (first
    | (with_reducible assumption)
    | (intro x; first | ((have hx : Keeps s0 x := ?_); (try clear_value x); rotate_left; dsimp -zeta only [x]; rotate_right) | ((have hx : Keeps s0 x.1 := ?_); (try clear_value x); rotate_left; dsimp -zeta only [x]; rotate_right) | ((have hx : Keeps s0 x.2 := ?_); (try clear_value x); rotate_left; dsimp -zeta only [x]; rotate_right) | (clear_value x) | skip)
    | lift_lets -underBinder
    | (with_reducible refine keeps_readCounters ?_ ..)
    | (with_reducible refine keeps_ite ?_ ?_)
    | (with_reducible refine xkeeps_next ?_)
    | (fail_if_no_progress beta_reduce)
    | (dsimp only [Keeps, part]; with_reducible refine keeps_of ?_; first | with_reducible assumption | (with_reducible refine keeps_readCounters ?_ ..))
    | split
    | (refine keeps_ite ?_ ?_))

end Sys2Proof.Laws
end

