-- ==== Sys2Proof/Laws/KeepsImages.lean ====
section
/-! SUPPORT. Every operation of Machine/Images.lean keeps what Laws/Keeps.lean says. -/

set_option linter.unusedTactic false
set_option linter.unreachableTactic false
set_option linter.unusedVariables false

namespace Sys2Proof.Laws

open Sys2Proof Machine

theorem keeps_putSlot {s0 s : State} {n : Nat} {x : ISlot} (hK : Keeps s0 s) :
    Keeps s0 (State.putSlot s n x) := by
  unfold State.putSlot
  repeat' (first
    | (with_reducible assumption)
    | (intro x; first | ((have hx : Keeps s0 x := ?_); (try clear_value x); rotate_left; dsimp -zeta only [x]; rotate_right) | ((have hx : Keeps s0 x.1 := ?_); (try clear_value x); rotate_left; dsimp -zeta only [x]; rotate_right) | ((have hx : Keeps s0 x.2 := ?_); (try clear_value x); rotate_left; dsimp -zeta only [x]; rotate_right) | (clear_value x) | skip)
    | lift_lets -underBinder
    | (with_reducible refine keeps_put ?_ ..)
    | (with_reducible refine keeps_ite ?_ ?_)
    | (fail_if_no_progress beta_reduce)
    | (dsimp only [Keeps, part]; with_reducible refine keeps_of ?_; first | with_reducible assumption | (with_reducible refine keeps_put ?_ ..))
    | split
    | (refine keeps_ite ?_ ?_))

theorem keeps_checkSlot {s0 s : State} {n : Nat} (hK : Keeps s0 s) :
    Keeps s0 (State.checkSlot s n).1 := by
  unfold State.checkSlot
  repeat' (first
    | (with_reducible assumption)
    | (intro x; first | ((have hx : Keeps s0 x := ?_); (try clear_value x); rotate_left; dsimp -zeta only [x]; rotate_right) | ((have hx : Keeps s0 x.1 := ?_); (try clear_value x); rotate_left; dsimp -zeta only [x]; rotate_right) | ((have hx : Keeps s0 x.2 := ?_); (try clear_value x); rotate_left; dsimp -zeta only [x]; rotate_right) | (clear_value x) | skip)
    | lift_lets -underBinder
    | (with_reducible refine keeps_raise ?_ ..)
    | (with_reducible refine keeps_putSlot ?_ ..)
    | (with_reducible refine keeps_ite ?_ ?_)
    | (fail_if_no_progress beta_reduce)
    | (dsimp only [Keeps, part]; with_reducible refine keeps_of ?_; first | with_reducible assumption | (with_reducible refine keeps_raise ?_ ..) | (with_reducible refine keeps_putSlot ?_ ..))
    | split
    | (refine keeps_ite ?_ ?_))

theorem keeps_checkSlot_eq {s0 s tE : State} {bE : Nat} {n : Nat} (hEq : State.checkSlot s n = (tE, bE)) (hK : Keeps s0 s) : Keeps s0 tE := by
  have k : Keeps s0 (State.checkSlot s n).1 := keeps_checkSlot hK
  rw [hEq] at k
  exact k

theorem keeps_placeMember {s0 s : State} {m : Nat} {g : Nat} {pos : Nat} (hK : Keeps s0 s) :
    Keeps s0 (State.placeMember s m g pos) := by
  unfold State.placeMember
  repeat' (first
    | (with_reducible assumption)
    | (intro x; first | ((have hx : Keeps s0 x := ?_); (try clear_value x); rotate_left; dsimp -zeta only [x]; rotate_right) | ((have hx : Keeps s0 x.1 := ?_); (try clear_value x); rotate_left; dsimp -zeta only [x]; rotate_right) | ((have hx : Keeps s0 x.2 := ?_); (try clear_value x); rotate_left; dsimp -zeta only [x]; rotate_right) | (clear_value x) | skip)
    | lift_lets -underBinder
    | (with_reducible refine keeps_putMember ?_ ..)
    | (with_reducible refine keeps_ite ?_ ?_)
    | (fail_if_no_progress beta_reduce)
    | (dsimp only [Keeps, part]; with_reducible refine keeps_of ?_; first | with_reducible assumption | (with_reducible refine keeps_putMember ?_ ..))
    | split
    | (refine keeps_ite ?_ ?_))

theorem keeps_useGeom {s0 s : State} {g : StripeGeom} (hK : Keeps s0 s) :
    Keeps s0 (State.useGeom s g) := by
  unfold State.useGeom
  repeat' (first
    | (with_reducible assumption)
    | (intro x; first | ((have hx : Keeps s0 x := ?_); (try clear_value x); rotate_left; dsimp -zeta only [x]; rotate_right) | ((have hx : Keeps s0 x.1 := ?_); (try clear_value x); rotate_left; dsimp -zeta only [x]; rotate_right) | ((have hx : Keeps s0 x.2 := ?_); (try clear_value x); rotate_left; dsimp -zeta only [x]; rotate_right) | (clear_value x) | skip)
    | lift_lets -underBinder
    | (with_reducible refine keeps_put ?_ ..)
    | (with_reducible refine keeps_placeMember ?_ ..)
    | (with_reducible refine keeps_foldl (fun s x hK => ?_) ?_)
    | (with_reducible refine keeps_foldl_fst (fun s x hK => ?_) ?_)
    | (refine keeps_foldl_eq (by assumption) (fun s x hK => ?_) ?_)
    | (with_reducible refine keeps_getD ?_ ?_)
    | (with_reducible refine keeps_ite ?_ ?_)
    | (fail_if_no_progress beta_reduce)
    | (dsimp only [Keeps, part]; with_reducible refine keeps_of ?_; first | with_reducible assumption | (with_reducible refine keeps_put ?_ ..) | (with_reducible refine keeps_placeMember ?_ ..) | (refine keeps_foldl_eq (by assumption) (fun s x hK => ?_) ?_))
    | split
    | (refine keeps_ite ?_ ?_))

theorem keeps_applyStripe {s0 s : State} {g : StripeGeom} (hK : Keeps s0 s) :
    Keeps s0 (State.applyStripe s g) := by
  unfold State.applyStripe
  repeat' (first
    | (with_reducible assumption)
    | (intro x; first | ((have hx : Keeps s0 x := ?_); (try clear_value x); rotate_left; dsimp -zeta only [x]; rotate_right) | ((have hx : Keeps s0 x.1 := ?_); (try clear_value x); rotate_left; dsimp -zeta only [x]; rotate_right) | ((have hx : Keeps s0 x.2 := ?_); (try clear_value x); rotate_left; dsimp -zeta only [x]; rotate_right) | (clear_value x) | skip)
    | lift_lets -underBinder
    | (with_reducible refine keeps_useGeom ?_ ..)
    | (with_reducible refine keeps_ite ?_ ?_)
    | (fail_if_no_progress beta_reduce)
    | (dsimp only [Keeps, part]; with_reducible refine keeps_of ?_; first | with_reducible assumption | (with_reducible refine keeps_useGeom ?_ ..))
    | split
    | (refine keeps_ite ?_ ?_))

theorem keeps_applyDram {s0 s : State} {b : DramBuild} (hK : Keeps s0 s) :
    Keeps s0 (State.applyDram s b) := by
  unfold State.applyDram
  repeat' (first
    | (with_reducible assumption)
    | (intro x; first | ((have hx : Keeps s0 x := ?_); (try clear_value x); rotate_left; dsimp -zeta only [x]; rotate_right) | ((have hx : Keeps s0 x.1 := ?_); (try clear_value x); rotate_left; dsimp -zeta only [x]; rotate_right) | ((have hx : Keeps s0 x.2 := ?_); (try clear_value x); rotate_left; dsimp -zeta only [x]; rotate_right) | (clear_value x) | skip)
    | lift_lets -underBinder
    | (with_reducible refine keeps_put ?_ ..)
    | (with_reducible refine keeps_setReg ?_ ..)
    | (with_reducible refine keeps_foldl (fun s x hK => ?_) ?_)
    | (with_reducible refine keeps_foldl_fst (fun s x hK => ?_) ?_)
    | (refine keeps_foldl_eq (by assumption) (fun s x hK => ?_) ?_)
    | (with_reducible refine keeps_ite ?_ ?_)
    | (fail_if_no_progress beta_reduce)
    | (dsimp only [Keeps, part]; with_reducible refine keeps_of ?_; first | with_reducible assumption | (with_reducible refine keeps_put ?_ ..) | (with_reducible refine keeps_setReg ?_ ..) | (refine keeps_foldl_eq (by assumption) (fun s x hK => ?_) ?_))
    | split
    | (refine keeps_ite ?_ ?_))

theorem keeps_applyFlash {s0 s : State} {b : FlashBuild} (hK : Keeps s0 s) :
    Keeps s0 (State.applyFlash s b) := by
  unfold State.applyFlash
  repeat' (first
    | (with_reducible assumption)
    | (intro x; first | ((have hx : Keeps s0 x := ?_); (try clear_value x); rotate_left; dsimp -zeta only [x]; rotate_right) | ((have hx : Keeps s0 x.1 := ?_); (try clear_value x); rotate_left; dsimp -zeta only [x]; rotate_right) | ((have hx : Keeps s0 x.2 := ?_); (try clear_value x); rotate_left; dsimp -zeta only [x]; rotate_right) | (clear_value x) | skip)
    | lift_lets -underBinder
    | (with_reducible refine keeps_setF ?_ ..)
    | (with_reducible refine keeps_put ?_ ..)
    | (with_reducible refine keeps_setReg ?_ ..)
    | (with_reducible refine keeps_putMember ?_ ..)
    | (with_reducible refine keeps_foldl (fun s x hK => ?_) ?_)
    | (with_reducible refine keeps_foldl_fst (fun s x hK => ?_) ?_)
    | (refine keeps_foldl_eq (by assumption) (fun s x hK => ?_) ?_)
    | (with_reducible refine keeps_ite ?_ ?_)
    | (fail_if_no_progress beta_reduce)
    | (dsimp only [Keeps, part]; with_reducible refine keeps_of ?_; first | with_reducible assumption | (with_reducible refine keeps_setF ?_ ..) | (with_reducible refine keeps_put ?_ ..) | (with_reducible refine keeps_setReg ?_ ..) | (with_reducible refine keeps_putMember ?_ ..) | (refine keeps_foldl_eq (by assumption) (fun s x hK => ?_) ?_))
    | split
    | (refine keeps_ite ?_ ?_))

theorem keeps_applyQuad {s0 s : State} {q : Nat} {mode : Nat} {l : List PortPanel} (hK : Keeps s0 s) :
    Keeps s0 (State.applyQuad s q mode l) := by
  unfold State.applyQuad
  repeat' (first
    | (with_reducible assumption)
    | (intro x; first | ((have hx : Keeps s0 x := ?_); (try clear_value x); rotate_left; dsimp -zeta only [x]; rotate_right) | ((have hx : Keeps s0 x.1 := ?_); (try clear_value x); rotate_left; dsimp -zeta only [x]; rotate_right) | ((have hx : Keeps s0 x.2 := ?_); (try clear_value x); rotate_left; dsimp -zeta only [x]; rotate_right) | (clear_value x) | skip)
    | lift_lets -underBinder
    | (with_reducible refine keeps_setF ?_ ..)
    | (with_reducible refine keeps_setReg ?_ ..)
    | (with_reducible refine keeps_foldl (fun s x hK => ?_) ?_)
    | (with_reducible refine keeps_foldl_fst (fun s x hK => ?_) ?_)
    | (refine keeps_foldl_eq (by assumption) (fun s x hK => ?_) ?_)
    | (with_reducible refine keeps_ite ?_ ?_)
    | (fail_if_no_progress beta_reduce)
    | (dsimp only [Keeps, part]; with_reducible refine keeps_of ?_; first | with_reducible assumption | (with_reducible refine keeps_setF ?_ ..) | (with_reducible refine keeps_setReg ?_ ..) | (refine keeps_foldl_eq (by assumption) (fun s x hK => ?_) ?_))
    | split
    | (refine keeps_ite ?_ ?_))

theorem keeps_applyRoutes {s0 s : State} {l : List Route} (hK : Keeps s0 s) :
    Keeps s0 (State.applyRoutes s l) := by
  unfold State.applyRoutes
  repeat' (first
    | (with_reducible assumption)
    | (intro x; first | ((have hx : Keeps s0 x := ?_); (try clear_value x); rotate_left; dsimp -zeta only [x]; rotate_right) | ((have hx : Keeps s0 x.1 := ?_); (try clear_value x); rotate_left; dsimp -zeta only [x]; rotate_right) | ((have hx : Keeps s0 x.2 := ?_); (try clear_value x); rotate_left; dsimp -zeta only [x]; rotate_right) | (clear_value x) | skip)
    | lift_lets -underBinder
    | (with_reducible refine keeps_setReg ?_ ..)
    | (with_reducible refine keeps_foldl (fun s x hK => ?_) ?_)
    | (with_reducible refine keeps_foldl_fst (fun s x hK => ?_) ?_)
    | (refine keeps_foldl_eq (by assumption) (fun s x hK => ?_) ?_)
    | (with_reducible refine keeps_ite ?_ ?_)
    | (fail_if_no_progress beta_reduce)
    | (dsimp only [Keeps, part]; with_reducible refine keeps_of ?_; first | with_reducible assumption | (with_reducible refine keeps_setReg ?_ ..) | (refine keeps_foldl_eq (by assumption) (fun s x hK => ?_) ?_))
    | split
    | (refine keeps_ite ?_ ?_))

theorem keeps_applyPanel {s0 s : State} {p : Panel} (hK : Keeps s0 s) :
    Keeps s0 (State.applyPanel s p) := by
  unfold State.applyPanel
  repeat' (first
    | (with_reducible assumption)
    | (intro x; first | ((have hx : Keeps s0 x := ?_); (try clear_value x); rotate_left; dsimp -zeta only [x]; rotate_right) | ((have hx : Keeps s0 x.1 := ?_); (try clear_value x); rotate_left; dsimp -zeta only [x]; rotate_right) | ((have hx : Keeps s0 x.2 := ?_); (try clear_value x); rotate_left; dsimp -zeta only [x]; rotate_right) | (clear_value x) | skip)
    | lift_lets -underBinder
    | (with_reducible refine keeps_put ?_ ..)
    | (with_reducible refine keeps_route ?_ ..)
    | (with_reducible refine keeps_applyStripe ?_ ..)
    | (with_reducible refine keeps_applyDram ?_ ..)
    | (with_reducible refine keeps_applyFlash ?_ ..)
    | (with_reducible refine keeps_applyQuad ?_ ..)
    | (with_reducible refine keeps_applyRoutes ?_ ..)
    | (with_reducible refine keeps_ite ?_ ?_)
    | (fail_if_no_progress beta_reduce)
    | (dsimp only [Keeps, part]; with_reducible refine keeps_of ?_; first | with_reducible assumption | (with_reducible refine keeps_put ?_ ..) | (with_reducible refine keeps_route ?_ ..) | (with_reducible refine keeps_applyStripe ?_ ..) | (with_reducible refine keeps_applyDram ?_ ..) | (with_reducible refine keeps_applyFlash ?_ ..) | (with_reducible refine keeps_applyQuad ?_ ..) | (with_reducible refine keeps_applyRoutes ?_ ..))
    | split
    | (refine keeps_ite ?_ ?_))

theorem keeps_applyPanels {s0 s : State} {l : List Panel} (hK : Keeps s0 s) :
    Keeps s0 (State.applyPanels s l) := by
  unfold State.applyPanels
  repeat' (first
    | (with_reducible assumption)
    | (intro x; first | ((have hx : Keeps s0 x := ?_); (try clear_value x); rotate_left; dsimp -zeta only [x]; rotate_right) | ((have hx : Keeps s0 x.1 := ?_); (try clear_value x); rotate_left; dsimp -zeta only [x]; rotate_right) | ((have hx : Keeps s0 x.2 := ?_); (try clear_value x); rotate_left; dsimp -zeta only [x]; rotate_right) | (clear_value x) | skip)
    | lift_lets -underBinder
    | (with_reducible refine keeps_applyPanel ?_ ..)
    | (with_reducible refine keeps_foldl (fun s x hK => ?_) ?_)
    | (with_reducible refine keeps_foldl_fst (fun s x hK => ?_) ?_)
    | (refine keeps_foldl_eq (by assumption) (fun s x hK => ?_) ?_)
    | (with_reducible refine keeps_ite ?_ ?_)
    | (fail_if_no_progress beta_reduce)
    | (dsimp only [Keeps, part]; with_reducible refine keeps_of ?_; first | with_reducible assumption | (with_reducible refine keeps_applyPanel ?_ ..) | (refine keeps_foldl_eq (by assumption) (fun s x hK => ?_) ?_))
    | split
    | (refine keeps_ite ?_ ?_))

theorem keeps_runImage {s0 s : State} {n : Nat} {i : Image} (hK : Keeps s0 s) :
    Keeps s0 (State.runImage s n i) := by
  unfold State.runImage
  repeat' (first
    | (with_reducible assumption)
    | (intro x; first | ((have hx : Keeps s0 x := ?_); (try clear_value x); rotate_left; dsimp -zeta only [x]; rotate_right) | ((have hx : Keeps s0 x.1 := ?_); (try clear_value x); rotate_left; dsimp -zeta only [x]; rotate_right) | ((have hx : Keeps s0 x.2 := ?_); (try clear_value x); rotate_left; dsimp -zeta only [x]; rotate_right) | (clear_value x) | skip)
    | lift_lets -underBinder
    | (with_reducible refine keeps_put ?_ ..)
    | (with_reducible refine keeps_setReg ?_ ..)
    | (with_reducible refine keeps_budgetChanged ?_ ..)
    | (with_reducible refine keeps_updateSaveRate ?_ ..)
    | (with_reducible refine keeps_setEngines ?_ ..)
    | (with_reducible refine keeps_applyPanels ?_ ..)
    | (with_reducible refine keeps_ite ?_ ?_)
    | (fail_if_no_progress beta_reduce)
    | (dsimp only [Keeps, part]; with_reducible refine keeps_of ?_; first | with_reducible assumption | (with_reducible refine keeps_put ?_ ..) | (with_reducible refine keeps_setReg ?_ ..) | (with_reducible refine keeps_budgetChanged ?_ ..) | (with_reducible refine keeps_updateSaveRate ?_ ..) | (with_reducible refine keeps_setEngines ?_ ..) | (with_reducible refine keeps_applyPanels ?_ ..))
    | split
    | (refine keeps_ite ?_ ?_))

theorem keeps_sendCommit {s0 s : State} {st : Nat} {cls : Nat} {inst : Nat} {old : Nat} {new : Nat} {boot : Nat} {fallback : Nat} (hK : Keeps s0 s) :
    Keeps s0 (State.sendCommit s st cls inst old new boot fallback) := by
  unfold State.sendCommit
  repeat' (first
    | (with_reducible assumption)
    | (intro x; first | ((have hx : Keeps s0 x := ?_); (try clear_value x); rotate_left; dsimp -zeta only [x]; rotate_right) | ((have hx : Keeps s0 x.1 := ?_); (try clear_value x); rotate_left; dsimp -zeta only [x]; rotate_right) | ((have hx : Keeps s0 x.2 := ?_); (try clear_value x); rotate_left; dsimp -zeta only [x]; rotate_right) | (clear_value x) | skip)
    | lift_lets -underBinder
    | (with_reducible refine keeps_ite ?_ ?_)
    | (fail_if_no_progress beta_reduce)
    | (dsimp only [Keeps, part]; with_reducible refine keeps_of ?_; first | with_reducible assumption)
    | split
    | (refine keeps_ite ?_ ?_))

theorem keeps_showBoot {s0 s : State} (hK : Keeps s0 s) :
    Keeps s0 (State.showBoot s) := by
  unfold State.showBoot
  repeat' (first
    | (with_reducible assumption)
    | (intro x; first | ((have hx : Keeps s0 x := ?_); (try clear_value x); rotate_left; dsimp -zeta only [x]; rotate_right) | ((have hx : Keeps s0 x.1 := ?_); (try clear_value x); rotate_left; dsimp -zeta only [x]; rotate_right) | ((have hx : Keeps s0 x.2 := ?_); (try clear_value x); rotate_left; dsimp -zeta only [x]; rotate_right) | (clear_value x) | skip)
    | lift_lets -underBinder
    | (with_reducible refine keeps_put ?_ ..)
    | (with_reducible refine keeps_ite ?_ ?_)
    | (fail_if_no_progress beta_reduce)
    | (dsimp only [Keeps, part]; with_reducible refine keeps_of ?_; first | with_reducible assumption | (with_reducible refine keeps_put ?_ ..))
    | split
    | (refine keeps_ite ?_ ?_))

theorem keeps_isCode {s0 s : State} {code : Nat} (hK : Keeps s0 s) :
    Keeps s0 (State.isCode s code) := by
  unfold State.isCode
  repeat' (first
    | (with_reducible assumption)
    | (intro x; first | ((have hx : Keeps s0 x := ?_); (try clear_value x); rotate_left; dsimp -zeta only [x]; rotate_right) | ((have hx : Keeps s0 x.1 := ?_); (try clear_value x); rotate_left; dsimp -zeta only [x]; rotate_right) | ((have hx : Keeps s0 x.2 := ?_); (try clear_value x); rotate_left; dsimp -zeta only [x]; rotate_right) | (clear_value x) | skip)
    | lift_lets -underBinder
    | (with_reducible refine keeps_put ?_ ..)
    | (with_reducible refine keeps_ite ?_ ?_)
    | (fail_if_no_progress beta_reduce)
    | (dsimp only [Keeps, part]; with_reducible refine keeps_of ?_; first | with_reducible assumption | (with_reducible refine keeps_put ?_ ..))
    | split
    | (refine keeps_ite ?_ ?_))

theorem keeps_imageLoad {s0 s : State} {a0 : Word} {a1 : Word} {i : Image} (hK : Keeps s0 s) :
    Keeps s0 (State.imageLoad s a0 a1 i) := by
  unfold State.imageLoad
  repeat' (first
    | (with_reducible assumption)
    | (intro x; first | ((have hx : Keeps s0 x := ?_); (try clear_value x); rotate_left; dsimp -zeta only [x]; rotate_right) | ((have hx : Keeps s0 x.1 := ?_); (try clear_value x); rotate_left; dsimp -zeta only [x]; rotate_right) | ((have hx : Keeps s0 x.2 := ?_); (try clear_value x); rotate_left; dsimp -zeta only [x]; rotate_right) | (clear_value x) | skip)
    | lift_lets -underBinder
    | (with_reducible refine keeps_putSlot ?_ ..)
    | (with_reducible refine keeps_checkSlot ?_ ..)
    | (refine keeps_checkSlot_eq (by assumption) ?_)
    | (with_reducible refine keeps_isCode ?_ ..)
    | (with_reducible refine keeps_ite ?_ ?_)
    | (fail_if_no_progress beta_reduce)
    | (dsimp only [Keeps, part]; with_reducible refine keeps_of ?_; first | with_reducible assumption | (with_reducible refine keeps_putSlot ?_ ..) | (with_reducible refine keeps_checkSlot ?_ ..) | (refine keeps_checkSlot_eq (by assumption) ?_) | (with_reducible refine keeps_isCode ?_ ..))
    | split
    | (refine keeps_ite ?_ ?_))

theorem keeps_imageErase {s0 s : State} {a1 : Word} (hK : Keeps s0 s) :
    Keeps s0 (State.imageErase s a1) := by
  unfold State.imageErase
  repeat' (first
    | (with_reducible assumption)
    | (intro x; first | ((have hx : Keeps s0 x := ?_); (try clear_value x); rotate_left; dsimp -zeta only [x]; rotate_right) | ((have hx : Keeps s0 x.1 := ?_); (try clear_value x); rotate_left; dsimp -zeta only [x]; rotate_right) | ((have hx : Keeps s0 x.2 := ?_); (try clear_value x); rotate_left; dsimp -zeta only [x]; rotate_right) | (clear_value x) | skip)
    | lift_lets -underBinder
    | (with_reducible refine keeps_putSlot ?_ ..)
    | (with_reducible refine keeps_isCode ?_ ..)
    | (with_reducible refine keeps_ite ?_ ?_)
    | (fail_if_no_progress beta_reduce)
    | (dsimp only [Keeps, part]; with_reducible refine keeps_of ?_; first | with_reducible assumption | (with_reducible refine keeps_putSlot ?_ ..) | (with_reducible refine keeps_isCode ?_ ..))
    | split
    | (refine keeps_ite ?_ ?_))

theorem keeps_svnRaise {s0 s : State} (hK : Keeps s0 s) :
    Keeps s0 (State.svnRaise s) := by
  unfold State.svnRaise
  repeat' (first
    | (with_reducible assumption)
    | (intro x; first | ((have hx : Keeps s0 x := ?_); (try clear_value x); rotate_left; dsimp -zeta only [x]; rotate_right) | ((have hx : Keeps s0 x.1 := ?_); (try clear_value x); rotate_left; dsimp -zeta only [x]; rotate_right) | ((have hx : Keeps s0 x.2 := ?_); (try clear_value x); rotate_left; dsimp -zeta only [x]; rotate_right) | ((have hf : x.dt = x.dt := rfl); clear hf; dsimp -zeta only [x]) | ((have hf : x.floor = x.floor := rfl); clear hf; dsimp -zeta only [x]) | (clear_value x) | skip)
    | lift_lets -underBinder
    | (with_reducible refine keeps_isCode ?_ ..)
    | (with_reducible refine keeps_ite ?_ ?_)
    | (fail_if_no_progress beta_reduce)
    | (dsimp only [Keeps, part]; with_reducible refine keeps_of ?_; first | with_reducible assumption | (with_reducible refine keeps_isCode ?_ ..))
    | (dsimp only [Keeps, part]; refine keeps_ofOtp ?_ (by assumption); exact { otp_refl s.otp with floor := Nat.le_max_left _ _ })
    | (dsimp only [Keeps, part]; refine keeps_ofOtp ?_ (by assumption); exact { otp_refl _ with key := fun _ e => by simp_all })
    | (dsimp only [Keeps, part]; refine keeps_ofOtp ?_ (by assumption); exact { otp_refl s.otp with cust := fun _ e => by simp [e] })
    | (dsimp only [Keeps, part]; refine keeps_ofOtp ?_ (by assumption); exact { otp_refl s.otp with gw := fun _ e => by simp [e] })
    | split
    | (refine keeps_ite ?_ ?_))

theorem keeps_markStopped {s0 s : State} {cls : Nat} {inst : Nat} {on : Bool} (hK : Keeps s0 s) :
    Keeps s0 (State.markStopped s cls inst on) := by
  unfold State.markStopped
  repeat' (first
    | (with_reducible assumption)
    | (intro x; first | ((have hx : Keeps s0 x := ?_); (try clear_value x); rotate_left; dsimp -zeta only [x]; rotate_right) | ((have hx : Keeps s0 x.1 := ?_); (try clear_value x); rotate_left; dsimp -zeta only [x]; rotate_right) | ((have hx : Keeps s0 x.2 := ?_); (try clear_value x); rotate_left; dsimp -zeta only [x]; rotate_right) | (clear_value x) | skip)
    | lift_lets -underBinder
    | (with_reducible refine keeps_setF ?_ ..)
    | (with_reducible refine keeps_put ?_ ..)
    | (with_reducible refine keeps_setReg ?_ ..)
    | (with_reducible refine keeps_ite ?_ ?_)
    | (fail_if_no_progress beta_reduce)
    | (dsimp only [Keeps, part]; with_reducible refine keeps_of ?_; first | with_reducible assumption | (with_reducible refine keeps_setF ?_ ..) | (with_reducible refine keeps_put ?_ ..) | (with_reducible refine keeps_setReg ?_ ..))
    | split
    | (refine keeps_ite ?_ ?_))

theorem keeps_memberAway {s0 s : State} {ix : Nat} (hK : Keeps s0 s) :
    Keeps s0 (State.memberAway s ix) := by
  unfold State.memberAway
  repeat' (first
    | (with_reducible assumption)
    | (intro x; first | ((have hx : Keeps s0 x := ?_); (try clear_value x); rotate_left; dsimp -zeta only [x]; rotate_right) | ((have hx : Keeps s0 x.1 := ?_); (try clear_value x); rotate_left; dsimp -zeta only [x]; rotate_right) | ((have hx : Keeps s0 x.2 := ?_); (try clear_value x); rotate_left; dsimp -zeta only [x]; rotate_right) | (clear_value x) | skip)
    | lift_lets -underBinder
    | (with_reducible refine keeps_leavePair ?_ ..)
    | (with_reducible refine keeps_putMember ?_ ..)
    | (with_reducible refine keeps_ite ?_ ?_)
    | (fail_if_no_progress beta_reduce)
    | (dsimp only [Keeps, part]; with_reducible refine keeps_of ?_; first | with_reducible assumption | (with_reducible refine keeps_leavePair ?_ ..) | (with_reducible refine keeps_putMember ?_ ..))
    | split
    | (refine keeps_ite ?_ ?_))

theorem keeps_stopQuad {s0 s : State} {q : Nat} (hK : Keeps s0 s) :
    Keeps s0 (State.stopQuad s q) := by
  unfold State.stopQuad
  repeat' (first
    | (with_reducible assumption)
    | (intro x; first | ((have hx : Keeps s0 x := ?_); (try clear_value x); rotate_left; dsimp -zeta only [x]; rotate_right) | ((have hx : Keeps s0 x.1 := ?_); (try clear_value x); rotate_left; dsimp -zeta only [x]; rotate_right) | ((have hx : Keeps s0 x.2 := ?_); (try clear_value x); rotate_left; dsimp -zeta only [x]; rotate_right) | (clear_value x) | skip)
    | lift_lets -underBinder
    | (with_reducible refine keeps_setF ?_ ..)
    | (with_reducible refine keeps_portLeft ?_ ..)
    | (with_reducible refine keeps_memberAway ?_ ..)
    | (with_reducible refine keeps_foldl (fun s x hK => ?_) ?_)
    | (with_reducible refine keeps_foldl_fst (fun s x hK => ?_) ?_)
    | (refine keeps_foldl_eq (by assumption) (fun s x hK => ?_) ?_)
    | (with_reducible refine keeps_ite ?_ ?_)
    | (fail_if_no_progress beta_reduce)
    | (dsimp only [Keeps, part]; with_reducible refine keeps_of ?_; first | with_reducible assumption | (with_reducible refine keeps_setF ?_ ..) | (with_reducible refine keeps_portLeft ?_ ..) | (with_reducible refine keeps_memberAway ?_ ..) | (refine keeps_foldl_eq (by assumption) (fun s x hK => ?_) ?_))
    | split
    | (refine keeps_ite ?_ ?_))

theorem keeps_emptyGroup {s0 s : State} {g : Nat} (hK : Keeps s0 s) :
    Keeps s0 (State.emptyGroup s g) := by
  unfold State.emptyGroup
  repeat' (first
    | (with_reducible assumption)
    | (intro x; first | ((have hx : Keeps s0 x := ?_); (try clear_value x); rotate_left; dsimp -zeta only [x]; rotate_right) | ((have hx : Keeps s0 x.1 := ?_); (try clear_value x); rotate_left; dsimp -zeta only [x]; rotate_right) | ((have hx : Keeps s0 x.2 := ?_); (try clear_value x); rotate_left; dsimp -zeta only [x]; rotate_right) | (clear_value x) | skip)
    | lift_lets -underBinder
    | (with_reducible refine keeps_put ?_ ..)
    | (with_reducible refine keeps_queueFrames ?_ ..)
    | (with_reducible refine keeps_ite ?_ ?_)
    | (fail_if_no_progress beta_reduce)
    | (dsimp only [Keeps, part]; with_reducible refine keeps_of ?_; first | with_reducible assumption | (with_reducible refine keeps_put ?_ ..) | (with_reducible refine keeps_queueFrames ?_ ..))
    | split
    | (refine keeps_ite ?_ ?_))

theorem keeps_dropGroup3 {s0 s : State} {g : Nat} (hK : Keeps s0 s) :
    Keeps s0 (State.dropGroup3 s g) := by
  unfold State.dropGroup3
  repeat' (first
    | (with_reducible assumption)
    | (intro x; first | ((have hx : Keeps s0 x := ?_); (try clear_value x); rotate_left; dsimp -zeta only [x]; rotate_right) | ((have hx : Keeps s0 x.1 := ?_); (try clear_value x); rotate_left; dsimp -zeta only [x]; rotate_right) | ((have hx : Keeps s0 x.2 := ?_); (try clear_value x); rotate_left; dsimp -zeta only [x]; rotate_right) | (clear_value x) | skip)
    | lift_lets -underBinder
    | (with_reducible refine keeps_zeroRange ?_ ..)
    | (with_reducible refine keeps_dropLines ?_ ..)
    | (with_reducible refine keeps_endDesc ?_ ..)
    | (with_reducible refine keeps_moveVolatile ?_ ..)
    | (with_reducible refine keeps_endCheckpoint ?_ ..)
    | (with_reducible refine keeps_foldl (fun s x hK => ?_) ?_)
    | (with_reducible refine keeps_foldl_fst (fun s x hK => ?_) ?_)
    | (refine keeps_foldl_eq (by assumption) (fun s x hK => ?_) ?_)
    | (with_reducible refine keeps_ite ?_ ?_)
    | (fail_if_no_progress beta_reduce)
    | (dsimp only [Keeps, part]; with_reducible refine keeps_of ?_; first | with_reducible assumption | (with_reducible refine keeps_zeroRange ?_ ..) | (with_reducible refine keeps_dropLines ?_ ..) | (with_reducible refine keeps_endDesc ?_ ..) | (with_reducible refine keeps_moveVolatile ?_ ..) | (with_reducible refine keeps_endCheckpoint ?_ ..) | (refine keeps_foldl_eq (by assumption) (fun s x hK => ?_) ?_))
    | split
    | (refine keeps_ite ?_ ?_))

theorem keeps_stopSlices {s0 s : State} {g : Nat} (hK : Keeps s0 s) :
    Keeps s0 (State.stopSlices s g) := by
  unfold State.stopSlices
  repeat' (first
    | (with_reducible assumption)
    | (intro x; first | ((have hx : Keeps s0 x := ?_); (try clear_value x); rotate_left; dsimp -zeta only [x]; rotate_right) | ((have hx : Keeps s0 x.1 := ?_); (try clear_value x); rotate_left; dsimp -zeta only [x]; rotate_right) | ((have hx : Keeps s0 x.2 := ?_); (try clear_value x); rotate_left; dsimp -zeta only [x]; rotate_right) | (clear_value x) | skip)
    | lift_lets -underBinder
    | (with_reducible refine keeps_evictCell ?_ ..)
    | (with_reducible refine keeps_foldl (fun s x hK => ?_) ?_)
    | (with_reducible refine keeps_foldl_fst (fun s x hK => ?_) ?_)
    | (refine keeps_foldl_eq (by assumption) (fun s x hK => ?_) ?_)
    | (with_reducible refine keeps_ite ?_ ?_)
    | (fail_if_no_progress beta_reduce)
    | (dsimp only [Keeps, part]; with_reducible refine keeps_of ?_; first | with_reducible assumption | (with_reducible refine keeps_evictCell ?_ ..) | (refine keeps_foldl_eq (by assumption) (fun s x hK => ?_) ?_))
    | split
    | (refine keeps_ite ?_ ?_))

theorem keeps_stopFunc {s0 s : State} {cls : Nat} {inst : Nat} (hK : Keeps s0 s) :
    Keeps s0 (State.stopFunc s cls inst) := by
  unfold State.stopFunc
  repeat' (first
    | (with_reducible assumption)
    | (intro x; first | ((have hx : Keeps s0 x := ?_); (try clear_value x); rotate_left; dsimp -zeta only [x]; rotate_right) | ((have hx : Keeps s0 x.1 := ?_); (try clear_value x); rotate_left; dsimp -zeta only [x]; rotate_right) | ((have hx : Keeps s0 x.2 := ?_); (try clear_value x); rotate_left; dsimp -zeta only [x]; rotate_right) | (clear_value x) | skip)
    | lift_lets -underBinder
    | (with_reducible refine keeps_stopCluster ?_ ..)
    | (with_reducible refine keeps_markStopped ?_ ..)
    | (with_reducible refine keeps_memberAway ?_ ..)
    | (with_reducible refine keeps_stopQuad ?_ ..)
    | (with_reducible refine keeps_dropGroup3 ?_ ..)
    | (with_reducible refine keeps_stopSlices ?_ ..)
    | (with_reducible refine keeps_foldl (fun s x hK => ?_) ?_)
    | (with_reducible refine keeps_foldl_fst (fun s x hK => ?_) ?_)
    | (refine keeps_foldl_eq (by assumption) (fun s x hK => ?_) ?_)
    | (with_reducible refine keeps_ite ?_ ?_)
    | (fail_if_no_progress beta_reduce)
    | (dsimp only [Keeps, part]; with_reducible refine keeps_of ?_; first | with_reducible assumption | (with_reducible refine keeps_stopCluster ?_ ..) | (with_reducible refine keeps_markStopped ?_ ..) | (with_reducible refine keeps_memberAway ?_ ..) | (with_reducible refine keeps_stopQuad ?_ ..) | (with_reducible refine keeps_dropGroup3 ?_ ..) | (with_reducible refine keeps_stopSlices ?_ ..) | (refine keeps_foldl_eq (by assumption) (fun s x hK => ?_) ?_))
    | split
    | (refine keeps_ite ?_ ?_))

theorem keeps_startFunc {s0 s : State} {cls : Nat} {inst : Nat} (hK : Keeps s0 s) :
    Keeps s0 (State.startFunc s cls inst) := by
  unfold State.startFunc
  repeat' (first
    | (with_reducible assumption)
    | (intro x; first | ((have hx : Keeps s0 x := ?_); (try clear_value x); rotate_left; dsimp -zeta only [x]; rotate_right) | ((have hx : Keeps s0 x.1 := ?_); (try clear_value x); rotate_left; dsimp -zeta only [x]; rotate_right) | ((have hx : Keeps s0 x.2 := ?_); (try clear_value x); rotate_left; dsimp -zeta only [x]; rotate_right) | (clear_value x) | skip)
    | lift_lets -underBinder
    | (with_reducible refine keeps_setF ?_ ..)
    | (with_reducible refine keeps_put ?_ ..)
    | (with_reducible refine keeps_fillPins ?_ ..)
    | (with_reducible refine keeps_settle ?_ ..)
    | (with_reducible refine keeps_retryHeld ?_ ..)
    | (with_reducible refine keeps_restartCluster ?_ ..)
    | (with_reducible refine keeps_updateRoutes ?_ ..)
    | (with_reducible refine keeps_memberBack ?_ ..)
    | (with_reducible refine keeps_markStopped ?_ ..)
    | (with_reducible refine keeps_foldl (fun s x hK => ?_) ?_)
    | (with_reducible refine keeps_foldl_fst (fun s x hK => ?_) ?_)
    | (refine keeps_foldl_eq (by assumption) (fun s x hK => ?_) ?_)
    | (with_reducible refine keeps_ite ?_ ?_)
    | (fail_if_no_progress beta_reduce)
    | (dsimp only [Keeps, part]; with_reducible refine keeps_of ?_; first | with_reducible assumption | (with_reducible refine keeps_setF ?_ ..) | (with_reducible refine keeps_put ?_ ..) | (with_reducible refine keeps_fillPins ?_ ..) | (with_reducible refine keeps_settle ?_ ..) | (with_reducible refine keeps_retryHeld ?_ ..) | (with_reducible refine keeps_restartCluster ?_ ..) | (with_reducible refine keeps_updateRoutes ?_ ..) | (with_reducible refine keeps_memberBack ?_ ..) | (with_reducible refine keeps_markStopped ?_ ..) | (refine keeps_foldl_eq (by assumption) (fun s x hK => ?_) ?_))
    | split
    | (refine keeps_ite ?_ ?_))

theorem keeps_setChange {s0 s : State} {c : Change} (hK : Keeps s0 s) :
    Keeps s0 (State.setChange s c) := by
  unfold State.setChange
  repeat' (first
    | (with_reducible assumption)
    | (intro x; first | ((have hx : Keeps s0 x := ?_); (try clear_value x); rotate_left; dsimp -zeta only [x]; rotate_right) | ((have hx : Keeps s0 x.1 := ?_); (try clear_value x); rotate_left; dsimp -zeta only [x]; rotate_right) | ((have hx : Keeps s0 x.2 := ?_); (try clear_value x); rotate_left; dsimp -zeta only [x]; rotate_right) | (clear_value x) | skip)
    | lift_lets -underBinder
    | (with_reducible refine keeps_put ?_ ..)
    | (with_reducible refine keeps_ite ?_ ?_)
    | (fail_if_no_progress beta_reduce)
    | (dsimp only [Keeps, part]; with_reducible refine keeps_of ?_; first | with_reducible assumption | (with_reducible refine keeps_put ?_ ..))
    | split
    | (refine keeps_ite ?_ ?_))

theorem keeps_startDown {s0 s : State} {cause : Nat} (hK : Keeps s0 s) :
    Keeps s0 (State.startDown s cause) := by
  unfold State.startDown
  repeat' (first
    | (with_reducible assumption)
    | (intro x; first | ((have hx : Keeps s0 x := ?_); (try clear_value x); rotate_left; dsimp -zeta only [x]; rotate_right) | ((have hx : Keeps s0 x.1 := ?_); (try clear_value x); rotate_left; dsimp -zeta only [x]; rotate_right) | ((have hx : Keeps s0 x.2 := ?_); (try clear_value x); rotate_left; dsimp -zeta only [x]; rotate_right) | (clear_value x) | skip)
    | lift_lets -underBinder
    | (with_reducible refine keeps_emit ?_ ..)
    | (with_reducible refine keeps_ite ?_ ?_)
    | (fail_if_no_progress beta_reduce)
    | (dsimp only [Keeps, part]; with_reducible refine keeps_of ?_; first | with_reducible assumption | (with_reducible refine keeps_emit ?_ ..))
    | split
    | (refine keeps_ite ?_ ?_))

theorem keeps_closeChange {s0 s : State} {c : Change} {code : Nat} (hK : Keeps s0 s) :
    Keeps s0 (State.closeChange s c code) := by
  unfold State.closeChange
  repeat' (first
    | (with_reducible assumption)
    | (intro x; first | ((have hx : Keeps s0 x := ?_); (try clear_value x); rotate_left; dsimp -zeta only [x]; rotate_right) | ((have hx : Keeps s0 x.1 := ?_); (try clear_value x); rotate_left; dsimp -zeta only [x]; rotate_right) | ((have hx : Keeps s0 x.2 := ?_); (try clear_value x); rotate_left; dsimp -zeta only [x]; rotate_right) | (clear_value x) | skip)
    | lift_lets -underBinder
    | (with_reducible refine keeps_put ?_ ..)
    | (with_reducible refine keeps_raise ?_ ..)
    | (with_reducible refine keeps_isCode ?_ ..)
    | (with_reducible refine keeps_ite ?_ ?_)
    | (fail_if_no_progress beta_reduce)
    | (dsimp only [Keeps, part]; with_reducible refine keeps_of ?_; first | with_reducible assumption | (with_reducible refine keeps_put ?_ ..) | (with_reducible refine keeps_raise ?_ ..) | (with_reducible refine keeps_isCode ?_ ..))
    | split
    | (refine keeps_ite ?_ ?_))

theorem keeps_restartFunc {s0 s : State} {c : Change} (hK : Keeps s0 s) :
    Keeps s0 (State.restartFunc s c) := by
  unfold State.restartFunc
  repeat' (first
    | (with_reducible assumption)
    | (intro x; first | ((have hx : Keeps s0 x := ?_); (try clear_value x); rotate_left; dsimp -zeta only [x]; rotate_right) | ((have hx : Keeps s0 x.1 := ?_); (try clear_value x); rotate_left; dsimp -zeta only [x]; rotate_right) | ((have hx : Keeps s0 x.2 := ?_); (try clear_value x); rotate_left; dsimp -zeta only [x]; rotate_right) | (clear_value x) | skip)
    | lift_lets -underBinder
    | (with_reducible refine keeps_sendCommit ?_ ..)
    | (with_reducible refine keeps_setChange ?_ ..)
    | (with_reducible refine keeps_startDown ?_ ..)
    | (with_reducible refine keeps_ite ?_ ?_)
    | (fail_if_no_progress beta_reduce)
    | (dsimp only [Keeps, part]; with_reducible refine keeps_of ?_; first | with_reducible assumption | (with_reducible refine keeps_sendCommit ?_ ..) | (with_reducible refine keeps_setChange ?_ ..) | (with_reducible refine keeps_startDown ?_ ..))
    | split
    | (refine keeps_ite ?_ ?_))

theorem keeps_stopped {s0 s : State} {c : Change} (hK : Keeps s0 s) :
    Keeps s0 (State.stopped s c) := by
  unfold State.stopped
  repeat' (first
    | (with_reducible assumption)
    | (intro x; first | ((have hx : Keeps s0 x := ?_); (try clear_value x); rotate_left; dsimp -zeta only [x]; rotate_right) | ((have hx : Keeps s0 x.1 := ?_); (try clear_value x); rotate_left; dsimp -zeta only [x]; rotate_right) | ((have hx : Keeps s0 x.2 := ?_); (try clear_value x); rotate_left; dsimp -zeta only [x]; rotate_right) | (clear_value x) | skip)
    | lift_lets -underBinder
    | (with_reducible refine keeps_startYield ?_ ..)
    | (with_reducible refine keeps_sendCommit ?_ ..)
    | (with_reducible refine keeps_stopFunc ?_ ..)
    | (with_reducible refine keeps_setChange ?_ ..)
    | (with_reducible refine keeps_restartFunc ?_ ..)
    | (with_reducible refine keeps_ite ?_ ?_)
    | (fail_if_no_progress beta_reduce)
    | (dsimp only [Keeps, part]; with_reducible refine keeps_of ?_; first | with_reducible assumption | (with_reducible refine keeps_startYield ?_ ..) | (with_reducible refine keeps_sendCommit ?_ ..) | (with_reducible refine keeps_stopFunc ?_ ..) | (with_reducible refine keeps_setChange ?_ ..) | (with_reducible refine keeps_restartFunc ?_ ..))
    | split
    | (refine keeps_ite ?_ ?_))

theorem keeps_stepChange {s0 s : State} (hK : Keeps s0 s) :
    Keeps s0 (State.stepChange s) := by
  unfold State.stepChange
  repeat' (first
    | (with_reducible assumption)
    | (intro x; first | ((have hx : Keeps s0 x := ?_); (try clear_value x); rotate_left; dsimp -zeta only [x]; rotate_right) | ((have hx : Keeps s0 x.1 := ?_); (try clear_value x); rotate_left; dsimp -zeta only [x]; rotate_right) | ((have hx : Keeps s0 x.2 := ?_); (try clear_value x); rotate_left; dsimp -zeta only [x]; rotate_right) | (clear_value x) | skip)
    | lift_lets -underBinder
    | (with_reducible refine keeps_queueFrames ?_ ..)
    | (with_reducible refine keeps_settle ?_ ..)
    | (with_reducible refine keeps_emptyGroup ?_ ..)
    | (with_reducible refine keeps_setChange ?_ ..)
    | (with_reducible refine keeps_closeChange ?_ ..)
    | (with_reducible refine keeps_stopped ?_ ..)
    | (with_reducible refine keeps_ite ?_ ?_)
    | (fail_if_no_progress beta_reduce)
    | (dsimp only [Keeps, part]; with_reducible refine keeps_of ?_; first | with_reducible assumption | (with_reducible refine keeps_queueFrames ?_ ..) | (with_reducible refine keeps_settle ?_ ..) | (with_reducible refine keeps_emptyGroup ?_ ..) | (with_reducible refine keeps_setChange ?_ ..) | (with_reducible refine keeps_closeChange ?_ ..) | (with_reducible refine keeps_stopped ?_ ..))
    | split
    | (refine keeps_ite ?_ ?_))

theorem keeps_beginChange {s0 s : State} {c : Change} (hK : Keeps s0 s) :
    Keeps s0 (State.beginChange s c) := by
  unfold State.beginChange
  repeat' (first
    | (with_reducible assumption)
    | (intro x; first | ((have hx : Keeps s0 x := ?_); (try clear_value x); rotate_left; dsimp -zeta only [x]; rotate_right) | ((have hx : Keeps s0 x.1 := ?_); (try clear_value x); rotate_left; dsimp -zeta only [x]; rotate_right) | ((have hx : Keeps s0 x.2 := ?_); (try clear_value x); rotate_left; dsimp -zeta only [x]; rotate_right) | (clear_value x) | skip)
    | lift_lets -underBinder
    | (with_reducible refine keeps_settle ?_ ..)
    | (with_reducible refine keeps_nextGroup ?_ ..)
    | (with_reducible refine keeps_setChange ?_ ..)
    | (with_reducible refine keeps_stepChange ?_ ..)
    | (with_reducible refine keeps_ite ?_ ?_)
    | (fail_if_no_progress beta_reduce)
    | (dsimp only [Keeps, part]; with_reducible refine keeps_of ?_; first | with_reducible assumption | (with_reducible refine keeps_settle ?_ ..) | (with_reducible refine keeps_nextGroup ?_ ..) | (with_reducible refine keeps_setChange ?_ ..) | (with_reducible refine keeps_stepChange ?_ ..))
    | split
    | (refine keeps_ite ?_ ?_))

theorem keeps_changeCmd {s0 s : State} {a0 : Word} {a1 : Word} (hK : Keeps s0 s) :
    Keeps s0 (State.changeCmd s a0 a1) := by
  unfold State.changeCmd
  repeat' (first
    | (with_reducible assumption)
    | (intro x; first | ((have hx : Keeps s0 x := ?_); (try clear_value x); rotate_left; dsimp -zeta only [x]; rotate_right) | ((have hx : Keeps s0 x.1 := ?_); (try clear_value x); rotate_left; dsimp -zeta only [x]; rotate_right) | ((have hx : Keeps s0 x.2 := ?_); (try clear_value x); rotate_left; dsimp -zeta only [x]; rotate_right) | (clear_value x) | skip)
    | lift_lets -underBinder
    | (with_reducible refine keeps_put ?_ ..)
    | (with_reducible refine keeps_openCode ?_ ..)
    | (refine keeps_openCode_eq (by assumption) ?_)
    | (with_reducible refine keeps_isCode ?_ ..)
    | (with_reducible refine keeps_beginChange ?_ ..)
    | (with_reducible refine keeps_ite ?_ ?_)
    | (fail_if_no_progress beta_reduce)
    | (dsimp only [Keeps, part]; with_reducible refine keeps_of ?_; first | with_reducible assumption | (with_reducible refine keeps_put ?_ ..) | (with_reducible refine keeps_openCode ?_ ..) | (refine keeps_openCode_eq (by assumption) ?_) | (with_reducible refine keeps_isCode ?_ ..) | (with_reducible refine keeps_beginChange ?_ ..))
    | split
    | (refine keeps_ite ?_ ?_))

theorem keeps_restartCmd {s0 s : State} {a0 : Word} (hK : Keeps s0 s) :
    Keeps s0 (State.restartCmd s a0) := by
  unfold State.restartCmd
  repeat' (first
    | (with_reducible assumption)
    | (intro x; first | ((have hx : Keeps s0 x := ?_); (try clear_value x); rotate_left; dsimp -zeta only [x]; rotate_right) | ((have hx : Keeps s0 x.1 := ?_); (try clear_value x); rotate_left; dsimp -zeta only [x]; rotate_right) | ((have hx : Keeps s0 x.2 := ?_); (try clear_value x); rotate_left; dsimp -zeta only [x]; rotate_right) | (clear_value x) | skip)
    | lift_lets -underBinder
    | (with_reducible refine keeps_put ?_ ..)
    | (with_reducible refine keeps_openCode ?_ ..)
    | (refine keeps_openCode_eq (by assumption) ?_)
    | (with_reducible refine keeps_isCode ?_ ..)
    | (with_reducible refine keeps_beginChange ?_ ..)
    | (with_reducible refine keeps_ite ?_ ?_)
    | (fail_if_no_progress beta_reduce)
    | (dsimp only [Keeps, part]; with_reducible refine keeps_of ?_; first | with_reducible assumption | (with_reducible refine keeps_put ?_ ..) | (with_reducible refine keeps_openCode ?_ ..) | (refine keeps_openCode_eq (by assumption) ?_) | (with_reducible refine keeps_isCode ?_ ..) | (with_reducible refine keeps_beginChange ?_ ..))
    | split
    | (refine keeps_ite ?_ ?_))

theorem keeps_isRun {s0 s : State} {op : Nat} {a0 : Word} {a1 : Word} {img : Option Image} (hK : Keeps s0 s) :
    Keeps s0 (State.isRun s op a0 a1 img) := by
  unfold State.isRun
  repeat' (first
    | (with_reducible assumption)
    | (intro x; first | ((have hx : Keeps s0 x := ?_); (try clear_value x); rotate_left; dsimp -zeta only [x]; rotate_right) | ((have hx : Keeps s0 x.1 := ?_); (try clear_value x); rotate_left; dsimp -zeta only [x]; rotate_right) | ((have hx : Keeps s0 x.2 := ?_); (try clear_value x); rotate_left; dsimp -zeta only [x]; rotate_right) | (clear_value x) | skip)
    | lift_lets -underBinder
    | (with_reducible refine keeps_put ?_ ..)
    | (with_reducible refine keeps_raise ?_ ..)
    | (with_reducible refine keeps_isCode ?_ ..)
    | (with_reducible refine keeps_imageLoad ?_ ..)
    | (with_reducible refine keeps_imageErase ?_ ..)
    | (with_reducible refine keeps_svnRaise ?_ ..)
    | (with_reducible refine keeps_changeCmd ?_ ..)
    | (with_reducible refine keeps_restartCmd ?_ ..)
    | (with_reducible refine keeps_ite ?_ ?_)
    | (fail_if_no_progress beta_reduce)
    | (dsimp only [Keeps, part]; with_reducible refine keeps_of ?_; first | with_reducible assumption | (with_reducible refine keeps_put ?_ ..) | (with_reducible refine keeps_raise ?_ ..) | (with_reducible refine keeps_isCode ?_ ..) | (with_reducible refine keeps_imageLoad ?_ ..) | (with_reducible refine keeps_imageErase ?_ ..) | (with_reducible refine keeps_svnRaise ?_ ..) | (with_reducible refine keeps_changeCmd ?_ ..) | (with_reducible refine keeps_restartCmd ?_ ..))
    | split
    | (refine keeps_ite ?_ ?_))

theorem keeps_execImageLoad {s0 s : State} {via : Via} {a0 : Word} {a1 : Word} {img : Image} {at_ : Nat} (hK : Keeps s0 s) :
    XKeeps s0 (execImageLoad via a0 a1 img at_ s) := by
  unfold execImageLoad
  repeat' (first
    | (with_reducible assumption)
    | (intro x; first | ((have hx : Keeps s0 x := ?_); (try clear_value x); rotate_left; dsimp -zeta only [x]; rotate_right) | ((have hx : Keeps s0 x.1 := ?_); (try clear_value x); rotate_left; dsimp -zeta only [x]; rotate_right) | ((have hx : Keeps s0 x.2 := ?_); (try clear_value x); rotate_left; dsimp -zeta only [x]; rotate_right) | (clear_value x) | skip)
    | lift_lets -underBinder
    | (with_reducible refine keeps_tick ?_ ..)
    | (with_reducible refine keeps_command ?_ ?_ ..)
    | (with_reducible refine keeps_isRun ?_ ..)
    | (with_reducible refine keeps_ite ?_ ?_)
    | (with_reducible refine xkeeps_next ?_)
    | (fail_if_no_progress beta_reduce)
    | (dsimp only [Keeps, part]; with_reducible refine keeps_of ?_; first | with_reducible assumption | (with_reducible refine keeps_tick ?_ ..) | (with_reducible refine keeps_command ?_ ?_ ..) | (with_reducible refine keeps_isRun ?_ ..))
    | split
    | (refine keeps_ite ?_ ?_))

theorem keeps_execImageErase {s0 s : State} {via : Via} {a1 : Word} {at_ : Nat} (hK : Keeps s0 s) :
    XKeeps s0 (execImageErase via a1 at_ s) := by
  unfold execImageErase
  repeat' (first
    | (with_reducible assumption)
    | (intro x; first | ((have hx : Keeps s0 x := ?_); (try clear_value x); rotate_left; dsimp -zeta only [x]; rotate_right) | ((have hx : Keeps s0 x.1 := ?_); (try clear_value x); rotate_left; dsimp -zeta only [x]; rotate_right) | ((have hx : Keeps s0 x.2 := ?_); (try clear_value x); rotate_left; dsimp -zeta only [x]; rotate_right) | (clear_value x) | skip)
    | lift_lets -underBinder
    | (with_reducible refine keeps_tick ?_ ..)
    | (with_reducible refine keeps_command ?_ ?_ ..)
    | (with_reducible refine keeps_isRun ?_ ..)
    | (with_reducible refine keeps_ite ?_ ?_)
    | (with_reducible refine xkeeps_next ?_)
    | (fail_if_no_progress beta_reduce)
    | (dsimp only [Keeps, part]; with_reducible refine keeps_of ?_; first | with_reducible assumption | (with_reducible refine keeps_tick ?_ ..) | (with_reducible refine keeps_command ?_ ?_ ..) | (with_reducible refine keeps_isRun ?_ ..))
    | split
    | (refine keeps_ite ?_ ?_))

theorem keeps_execChange {s0 s : State} {via : Via} {a0 : Word} {a1 : Word} {at_ : Nat} (hK : Keeps s0 s) :
    XKeeps s0 (execChange via a0 a1 at_ s) := by
  unfold execChange
  repeat' (first
    | (with_reducible assumption)
    | (intro x; first | ((have hx : Keeps s0 x := ?_); (try clear_value x); rotate_left; dsimp -zeta only [x]; rotate_right) | ((have hx : Keeps s0 x.1 := ?_); (try clear_value x); rotate_left; dsimp -zeta only [x]; rotate_right) | ((have hx : Keeps s0 x.2 := ?_); (try clear_value x); rotate_left; dsimp -zeta only [x]; rotate_right) | (clear_value x) | skip)
    | lift_lets -underBinder
    | (with_reducible refine keeps_tick ?_ ..)
    | (with_reducible refine keeps_command ?_ ?_ ..)
    | (with_reducible refine keeps_isRun ?_ ..)
    | (with_reducible refine keeps_ite ?_ ?_)
    | (with_reducible refine xkeeps_next ?_)
    | (fail_if_no_progress beta_reduce)
    | (dsimp only [Keeps, part]; with_reducible refine keeps_of ?_; first | with_reducible assumption | (with_reducible refine keeps_tick ?_ ..) | (with_reducible refine keeps_command ?_ ?_ ..) | (with_reducible refine keeps_isRun ?_ ..))
    | split
    | (refine keeps_ite ?_ ?_))

theorem keeps_execIsRestart {s0 s : State} {via : Via} {a0 : Word} {at_ : Nat} (hK : Keeps s0 s) :
    XKeeps s0 (execIsRestart via a0 at_ s) := by
  unfold execIsRestart
  repeat' (first
    | (with_reducible assumption)
    | (intro x; first | ((have hx : Keeps s0 x := ?_); (try clear_value x); rotate_left; dsimp -zeta only [x]; rotate_right) | ((have hx : Keeps s0 x.1 := ?_); (try clear_value x); rotate_left; dsimp -zeta only [x]; rotate_right) | ((have hx : Keeps s0 x.2 := ?_); (try clear_value x); rotate_left; dsimp -zeta only [x]; rotate_right) | (clear_value x) | skip)
    | lift_lets -underBinder
    | (with_reducible refine keeps_tick ?_ ..)
    | (with_reducible refine keeps_command ?_ ?_ ..)
    | (with_reducible refine keeps_isRun ?_ ..)
    | (with_reducible refine keeps_ite ?_ ?_)
    | (with_reducible refine xkeeps_next ?_)
    | (fail_if_no_progress beta_reduce)
    | (dsimp only [Keeps, part]; with_reducible refine keeps_of ?_; first | with_reducible assumption | (with_reducible refine keeps_tick ?_ ..) | (with_reducible refine keeps_command ?_ ?_ ..) | (with_reducible refine keeps_isRun ?_ ..))
    | split
    | (refine keeps_ite ?_ ?_))

theorem keeps_execSvnRaise {s0 s : State} {via : Via} {at_ : Nat} (hK : Keeps s0 s) :
    XKeeps s0 (execSvnRaise via at_ s) := by
  unfold execSvnRaise
  repeat' (first
    | (with_reducible assumption)
    | (intro x; first | ((have hx : Keeps s0 x := ?_); (try clear_value x); rotate_left; dsimp -zeta only [x]; rotate_right) | ((have hx : Keeps s0 x.1 := ?_); (try clear_value x); rotate_left; dsimp -zeta only [x]; rotate_right) | ((have hx : Keeps s0 x.2 := ?_); (try clear_value x); rotate_left; dsimp -zeta only [x]; rotate_right) | (clear_value x) | skip)
    | lift_lets -underBinder
    | (with_reducible refine keeps_tick ?_ ..)
    | (with_reducible refine keeps_command ?_ ?_ ..)
    | (with_reducible refine keeps_isRun ?_ ..)
    | (with_reducible refine keeps_ite ?_ ?_)
    | (with_reducible refine xkeeps_next ?_)
    | (fail_if_no_progress beta_reduce)
    | (dsimp only [Keeps, part]; with_reducible refine keeps_of ?_; first | with_reducible assumption | (with_reducible refine keeps_tick ?_ ..) | (with_reducible refine keeps_command ?_ ?_ ..) | (with_reducible refine keeps_isRun ?_ ..))
    | split
    | (refine keeps_ite ?_ ?_))

theorem keeps_writeBoot {s0 s : State} {via : Via} {w : AccW} {v : Word} (hK : Keeps s0 s) :
    Keeps s0 (State.writeBoot s via w v) := by
  unfold State.writeBoot
  repeat' (first
    | (with_reducible assumption)
    | (intro x; first | ((have hx : Keeps s0 x := ?_); (try clear_value x); rotate_left; dsimp -zeta only [x]; rotate_right) | ((have hx : Keeps s0 x.1 := ?_); (try clear_value x); rotate_left; dsimp -zeta only [x]; rotate_right) | ((have hx : Keeps s0 x.2 := ?_); (try clear_value x); rotate_left; dsimp -zeta only [x]; rotate_right) | (clear_value x) | skip)
    | lift_lets -underBinder
    | (with_reducible refine keeps_raise ?_ ..)
    | (with_reducible refine keeps_writeFields ?_ ..)
    | (with_reducible refine keeps_writeAt ?_ ?_ ..)
    | (with_reducible refine keeps_sendCommit ?_ ..)
    | (with_reducible refine keeps_ite ?_ ?_)
    | (fail_if_no_progress beta_reduce)
    | (dsimp only [Keeps, part]; with_reducible refine keeps_of ?_; first | with_reducible assumption | (with_reducible refine keeps_raise ?_ ..) | (with_reducible refine keeps_writeFields ?_ ..) | (with_reducible refine keeps_writeAt ?_ ?_ ..) | (with_reducible refine keeps_sendCommit ?_ ..))
    | split
    | (refine keeps_ite ?_ ?_))

theorem keeps_execIsBootWrite {s0 s : State} {via : Via} {w : AccW} {v : Word} {at_ : Nat} (hK : Keeps s0 s) :
    XKeeps s0 (execIsBootWrite via w v at_ s) := by
  unfold execIsBootWrite
  repeat' (first
    | (with_reducible assumption)
    | (intro x; first | ((have hx : Keeps s0 x := ?_); (try clear_value x); rotate_left; dsimp -zeta only [x]; rotate_right) | ((have hx : Keeps s0 x.1 := ?_); (try clear_value x); rotate_left; dsimp -zeta only [x]; rotate_right) | ((have hx : Keeps s0 x.2 := ?_); (try clear_value x); rotate_left; dsimp -zeta only [x]; rotate_right) | (clear_value x) | skip)
    | lift_lets -underBinder
    | (with_reducible refine keeps_tick ?_ ..)
    | (with_reducible refine keeps_writeBoot ?_ ..)
    | (with_reducible refine keeps_ite ?_ ?_)
    | (with_reducible refine xkeeps_next ?_)
    | (fail_if_no_progress beta_reduce)
    | (dsimp only [Keeps, part]; with_reducible refine keeps_of ?_; first | with_reducible assumption | (with_reducible refine keeps_tick ?_ ..) | (with_reducible refine keeps_writeBoot ?_ ..))
    | split
    | (refine keeps_ite ?_ ?_))

theorem keeps_loadChange {s0 s : State} {c : Change} {slot : Nat} (hK : Keeps s0 s) :
    Keeps s0 (State.loadChange s c slot) := by
  unfold State.loadChange
  repeat' (first
    | (with_reducible assumption)
    | (intro x; first | ((have hx : Keeps s0 x := ?_); (try clear_value x); rotate_left; dsimp -zeta only [x]; rotate_right) | ((have hx : Keeps s0 x.1 := ?_); (try clear_value x); rotate_left; dsimp -zeta only [x]; rotate_right) | ((have hx : Keeps s0 x.2 := ?_); (try clear_value x); rotate_left; dsimp -zeta only [x]; rotate_right) | (clear_value x) | skip)
    | lift_lets -underBinder
    | (with_reducible refine keeps_put ?_ ..)
    | (with_reducible refine keeps_setReg ?_ ..)
    | (with_reducible refine keeps_applyPanels ?_ ..)
    | (with_reducible refine keeps_ite ?_ ?_)
    | (fail_if_no_progress beta_reduce)
    | (dsimp only [Keeps, part]; with_reducible refine keeps_of ?_; first | with_reducible assumption | (with_reducible refine keeps_put ?_ ..) | (with_reducible refine keeps_setReg ?_ ..) | (with_reducible refine keeps_applyPanels ?_ ..))
    | split
    | (refine keeps_ite ?_ ?_))

theorem keeps_rollBack {s0 s : State} {c : Change} (hK : Keeps s0 s) :
    Keeps s0 (State.rollBack s c) := by
  unfold State.rollBack
  repeat' (first
    | (with_reducible assumption)
    | (intro x; first | ((have hx : Keeps s0 x := ?_); (try clear_value x); rotate_left; dsimp -zeta only [x]; rotate_right) | ((have hx : Keeps s0 x.1 := ?_); (try clear_value x); rotate_left; dsimp -zeta only [x]; rotate_right) | ((have hx : Keeps s0 x.2 := ?_); (try clear_value x); rotate_left; dsimp -zeta only [x]; rotate_right) | (clear_value x) | skip)
    | lift_lets -underBinder
    | (with_reducible refine keeps_setChange ?_ ..)
    | (with_reducible refine keeps_loadChange ?_ ..)
    | (with_reducible refine keeps_ite ?_ ?_)
    | (fail_if_no_progress beta_reduce)
    | (dsimp only [Keeps, part]; with_reducible refine keeps_of ?_; first | with_reducible assumption | (with_reducible refine keeps_setChange ?_ ..) | (with_reducible refine keeps_loadChange ?_ ..))
    | split
    | (refine keeps_ite ?_ ?_))

theorem keeps_sendRolledBack {s0 s : State} {c : Change} (hK : Keeps s0 s) :
    Keeps s0 (State.sendRolledBack s c) := by
  unfold State.sendRolledBack
  repeat' (first
    | (with_reducible assumption)
    | (intro x; first | ((have hx : Keeps s0 x := ?_); (try clear_value x); rotate_left; dsimp -zeta only [x]; rotate_right) | ((have hx : Keeps s0 x.1 := ?_); (try clear_value x); rotate_left; dsimp -zeta only [x]; rotate_right) | ((have hx : Keeps s0 x.2 := ?_); (try clear_value x); rotate_left; dsimp -zeta only [x]; rotate_right) | (clear_value x) | skip)
    | lift_lets -underBinder
    | (with_reducible refine keeps_sendCommit ?_ ..)
    | (with_reducible refine keeps_ite ?_ ?_)
    | (fail_if_no_progress beta_reduce)
    | (dsimp only [Keeps, part]; with_reducible refine keeps_of ?_; first | with_reducible assumption | (with_reducible refine keeps_sendCommit ?_ ..))
    | split
    | (refine keeps_ite ?_ ?_))

theorem keeps_nextRelock {s0 s : State} (hK : Keeps s0 s) :
    Keeps s0 (State.nextRelock s) := by
  unfold State.nextRelock
  repeat' (first
    | (with_reducible assumption)
    | (intro x; first | ((have hx : Keeps s0 x := ?_); (try clear_value x); rotate_left; dsimp -zeta only [x]; rotate_right) | ((have hx : Keeps s0 x.1 := ?_); (try clear_value x); rotate_left; dsimp -zeta only [x]; rotate_right) | ((have hx : Keeps s0 x.2 := ?_); (try clear_value x); rotate_left; dsimp -zeta only [x]; rotate_right) | (clear_value x) | skip)
    | lift_lets -underBinder
    | (with_reducible refine keeps_setChange ?_ ..)
    | (with_reducible refine keeps_ite ?_ ?_)
    | (fail_if_no_progress beta_reduce)
    | (dsimp only [Keeps, part]; with_reducible refine keeps_of ?_; first | with_reducible assumption | (with_reducible refine keeps_setChange ?_ ..))
    | split
    | (refine keeps_ite ?_ ?_))

theorem keeps_groupFound {s0 s : State} {cls : Nat} {inst : Nat} {bad : List Nat} (hK : Keeps s0 s) :
    Keeps s0 (State.groupFound s cls inst bad) := by
  unfold State.groupFound
  repeat' (first
    | (with_reducible assumption)
    | (intro x; first | ((have hx : Keeps s0 x := ?_); (try clear_value x); rotate_left; dsimp -zeta only [x]; rotate_right) | ((have hx : Keeps s0 x.1 := ?_); (try clear_value x); rotate_left; dsimp -zeta only [x]; rotate_right) | ((have hx : Keeps s0 x.2 := ?_); (try clear_value x); rotate_left; dsimp -zeta only [x]; rotate_right) | (clear_value x) | skip)
    | lift_lets -underBinder
    | (with_reducible refine keeps_enumLuns ?_ ..)
    | (with_reducible refine keeps_coatList ?_ ..)
    | (with_reducible refine keeps_foldl (fun s x hK => ?_) ?_)
    | (with_reducible refine keeps_foldl_fst (fun s x hK => ?_) ?_)
    | (refine keeps_foldl_eq (by assumption) (fun s x hK => ?_) ?_)
    | (with_reducible refine keeps_ite ?_ ?_)
    | (fail_if_no_progress beta_reduce)
    | (dsimp only [Keeps, part]; with_reducible refine keeps_of ?_; first | with_reducible assumption | (with_reducible refine keeps_enumLuns ?_ ..) | (with_reducible refine keeps_coatList ?_ ..) | (refine keeps_foldl_eq (by assumption) (fun s x hK => ?_) ?_))
    | split
    | (refine keeps_ite ?_ ?_))

theorem keeps_restartEnds {s0 s : State} {c : Change} {ok : Bool} (hK : Keeps s0 s) :
    Keeps s0 (State.restartEnds s c ok) := by
  unfold State.restartEnds
  repeat' (first
    | (with_reducible assumption)
    | (intro x; first | ((have hx : Keeps s0 x := ?_); (try clear_value x); rotate_left; dsimp -zeta only [x]; rotate_right) | ((have hx : Keeps s0 x.1 := ?_); (try clear_value x); rotate_left; dsimp -zeta only [x]; rotate_right) | ((have hx : Keeps s0 x.2 := ?_); (try clear_value x); rotate_left; dsimp -zeta only [x]; rotate_right) | (clear_value x) | skip)
    | lift_lets -underBinder
    | (with_reducible refine keeps_sendCommit ?_ ..)
    | (with_reducible refine keeps_startFunc ?_ ..)
    | (with_reducible refine keeps_setChange ?_ ..)
    | (with_reducible refine keeps_closeChange ?_ ..)
    | (with_reducible refine keeps_rollBack ?_ ..)
    | (with_reducible refine keeps_sendRolledBack ?_ ..)
    | (with_reducible refine keeps_ite ?_ ?_)
    | (fail_if_no_progress beta_reduce)
    | (dsimp only [Keeps, part]; with_reducible refine keeps_of ?_; first | with_reducible assumption | (with_reducible refine keeps_sendCommit ?_ ..) | (with_reducible refine keeps_startFunc ?_ ..) | (with_reducible refine keeps_setChange ?_ ..) | (with_reducible refine keeps_closeChange ?_ ..) | (with_reducible refine keeps_rollBack ?_ ..) | (with_reducible refine keeps_sendRolledBack ?_ ..))
    | split
    | (refine keeps_ite ?_ ?_))

theorem keeps_execFunctionRestartDone {s0 s : State} {r : RestartRes} {at_ : Nat} (hK : Keeps s0 s) :
    XKeeps s0 (execFunctionRestartDone r at_ s) := by
  unfold execFunctionRestartDone
  repeat' (first
    | (with_reducible assumption)
    | (intro x; first | ((have hx : Keeps s0 x := ?_); (try clear_value x); rotate_left; dsimp -zeta only [x]; rotate_right) | ((have hx : Keeps s0 x.1 := ?_); (try clear_value x); rotate_left; dsimp -zeta only [x]; rotate_right) | ((have hx : Keeps s0 x.2 := ?_); (try clear_value x); rotate_left; dsimp -zeta only [x]; rotate_right) | (clear_value x) | skip)
    | lift_lets -underBinder
    | (with_reducible refine keeps_tick ?_ ..)
    | (with_reducible refine keeps_nextRelock ?_ ..)
    | (with_reducible refine keeps_groupFound ?_ ..)
    | (with_reducible refine keeps_restartEnds ?_ ..)
    | (with_reducible refine keeps_ite ?_ ?_)
    | (with_reducible refine xkeeps_next ?_)
    | (fail_if_no_progress beta_reduce)
    | (dsimp only [Keeps, part]; with_reducible refine keeps_of ?_; first | with_reducible assumption | (with_reducible refine keeps_tick ?_ ..) | (with_reducible refine keeps_nextRelock ?_ ..) | (with_reducible refine keeps_groupFound ?_ ..) | (with_reducible refine keeps_restartEnds ?_ ..))
    | split
    | (refine keeps_ite ?_ ?_))

theorem keeps_commitWritten {s0 s : State} {r : Commit} (hK : Keeps s0 s) :
    Keeps s0 (State.commitWritten s r) := by
  unfold State.commitWritten
  repeat' (first
    | (with_reducible assumption)
    | (intro x; first | ((have hx : Keeps s0 x := ?_); (try clear_value x); rotate_left; dsimp -zeta only [x]; rotate_right) | ((have hx : Keeps s0 x.1 := ?_); (try clear_value x); rotate_left; dsimp -zeta only [x]; rotate_right) | ((have hx : Keeps s0 x.2 := ?_); (try clear_value x); rotate_left; dsimp -zeta only [x]; rotate_right) | (clear_value x) | skip)
    | lift_lets -underBinder
    | (with_reducible refine keeps_raise ?_ ..)
    | (with_reducible refine keeps_sendCommit ?_ ..)
    | (with_reducible refine keeps_showBoot ?_ ..)
    | (with_reducible refine keeps_startFunc ?_ ..)
    | (with_reducible refine keeps_setChange ?_ ..)
    | (with_reducible refine keeps_closeChange ?_ ..)
    | (with_reducible refine keeps_restartFunc ?_ ..)
    | (with_reducible refine keeps_loadChange ?_ ..)
    | (with_reducible refine keeps_nextRelock ?_ ..)
    | (with_reducible refine keeps_ite ?_ ?_)
    | (fail_if_no_progress beta_reduce)
    | (dsimp only [Keeps, part]; with_reducible refine keeps_of ?_; first | with_reducible assumption | (with_reducible refine keeps_raise ?_ ..) | (with_reducible refine keeps_sendCommit ?_ ..) | (with_reducible refine keeps_showBoot ?_ ..) | (with_reducible refine keeps_startFunc ?_ ..) | (with_reducible refine keeps_setChange ?_ ..) | (with_reducible refine keeps_closeChange ?_ ..) | (with_reducible refine keeps_restartFunc ?_ ..) | (with_reducible refine keeps_loadChange ?_ ..) | (with_reducible refine keeps_nextRelock ?_ ..))
    | split
    | (refine keeps_ite ?_ ?_))

theorem keeps_abandonChange {s0 s : State} (hK : Keeps s0 s) :
    Keeps s0 (State.abandonChange s) := by
  unfold State.abandonChange
  repeat' (first
    | (with_reducible assumption)
    | (intro x; first | ((have hx : Keeps s0 x := ?_); (try clear_value x); rotate_left; dsimp -zeta only [x]; rotate_right) | ((have hx : Keeps s0 x.1 := ?_); (try clear_value x); rotate_left; dsimp -zeta only [x]; rotate_right) | ((have hx : Keeps s0 x.2 := ?_); (try clear_value x); rotate_left; dsimp -zeta only [x]; rotate_right) | (clear_value x) | skip)
    | lift_lets -underBinder
    | (with_reducible refine keeps_startFunc ?_ ..)
    | (with_reducible refine keeps_setChange ?_ ..)
    | (with_reducible refine keeps_loadChange ?_ ..)
    | (with_reducible refine keeps_sendRolledBack ?_ ..)
    | (with_reducible refine keeps_ite ?_ ?_)
    | (fail_if_no_progress beta_reduce)
    | (dsimp only [Keeps, part]; with_reducible refine keeps_of ?_; first | with_reducible assumption | (with_reducible refine keeps_startFunc ?_ ..) | (with_reducible refine keeps_setChange ?_ ..) | (with_reducible refine keeps_loadChange ?_ ..) | (with_reducible refine keeps_sendRolledBack ?_ ..))
    | split
    | (refine keeps_ite ?_ ?_))

theorem keeps_execTakeoverRecordWritten {s0 s : State} {at_ : Nat} (hK : Keeps s0 s) :
    XKeeps s0 (execTakeoverRecordWritten at_ s) := by
  unfold execTakeoverRecordWritten
  repeat' (first
    | (with_reducible assumption)
    | (intro x; first | ((have hx : Keeps s0 x := ?_); (try clear_value x); rotate_left; dsimp -zeta only [x]; rotate_right) | ((have hx : Keeps s0 x.1 := ?_); (try clear_value x); rotate_left; dsimp -zeta only [x]; rotate_right) | ((have hx : Keeps s0 x.2 := ?_); (try clear_value x); rotate_left; dsimp -zeta only [x]; rotate_right) | (clear_value x) | skip)
    | lift_lets -underBinder
    | (with_reducible refine keeps_tick ?_ ..)
    | (with_reducible refine keeps_onTakeoverRecord ?_ ..)
    | (with_reducible refine keeps_abandonChange ?_ ..)
    | (with_reducible refine keeps_ite ?_ ?_)
    | (with_reducible refine xkeeps_next ?_)
    | (fail_if_no_progress beta_reduce)
    | (dsimp only [Keeps, part]; with_reducible refine keeps_of ?_; first | with_reducible assumption | (with_reducible refine keeps_tick ?_ ..) | (with_reducible refine keeps_onTakeoverRecord ?_ ..) | (with_reducible refine keeps_abandonChange ?_ ..))
    | split
    | (refine keeps_ite ?_ ?_))

theorem keeps_execHandoverAck {s0 s : State} {h : Hdr} {l : List (Nat × Nat)} {at_ : Nat} (hK : Keeps s0 s) :
    XKeeps s0 (execHandoverAck h l at_ s) := by
  unfold execHandoverAck
  repeat' (first
    | (with_reducible assumption)
    | (intro x; first | ((have hx : Keeps s0 x := ?_); (try clear_value x); rotate_left; dsimp -zeta only [x]; rotate_right) | ((have hx : Keeps s0 x.1 := ?_); (try clear_value x); rotate_left; dsimp -zeta only [x]; rotate_right) | ((have hx : Keeps s0 x.2 := ?_); (try clear_value x); rotate_left; dsimp -zeta only [x]; rotate_right) | (clear_value x) | skip)
    | lift_lets -underBinder
    | (with_reducible refine keeps_onHandoverAck ?_ ..)
    | (with_reducible refine keeps_stepChange ?_ ..)
    | (with_reducible refine keeps_ite ?_ ?_)
    | (with_reducible refine xkeeps_next ?_)
    | (fail_if_no_progress beta_reduce)
    | (dsimp only [Keeps, part]; with_reducible refine keeps_of ?_; first | with_reducible assumption | (with_reducible refine keeps_onHandoverAck ?_ ..) | (with_reducible refine keeps_stepChange ?_ ..))
    | split
    | (refine keeps_ite ?_ ?_))

theorem keeps_execRotateWaitTimeout {s0 s : State} {at_ : Nat} (hK : Keeps s0 s) :
    XKeeps s0 (execRotateWaitTimeout at_ s) := by
  unfold execRotateWaitTimeout
  repeat' (first
    | (with_reducible assumption)
    | (intro x; first | ((have hx : Keeps s0 x := ?_); (try clear_value x); rotate_left; dsimp -zeta only [x]; rotate_right) | ((have hx : Keeps s0 x.1 := ?_); (try clear_value x); rotate_left; dsimp -zeta only [x]; rotate_right) | ((have hx : Keeps s0 x.2 := ?_); (try clear_value x); rotate_left; dsimp -zeta only [x]; rotate_right) | (clear_value x) | skip)
    | lift_lets -underBinder
    | (with_reducible refine keeps_tick ?_ ..)
    | (with_reducible refine keeps_onRotateWait ?_ ..)
    | (with_reducible refine keeps_stepChange ?_ ..)
    | (with_reducible refine keeps_ite ?_ ?_)
    | (with_reducible refine xkeeps_next ?_)
    | (fail_if_no_progress beta_reduce)
    | (dsimp only [Keeps, part]; with_reducible refine keeps_of ?_; first | with_reducible assumption | (with_reducible refine keeps_tick ?_ ..) | (with_reducible refine keeps_onRotateWait ?_ ..) | (with_reducible refine keeps_stepChange ?_ ..))
    | split
    | (refine keeps_ite ?_ ?_))

theorem keeps_execHandoverTimeout {s0 s : State} {at_ : Nat} (hK : Keeps s0 s) :
    XKeeps s0 (execHandoverTimeout at_ s) := by
  unfold execHandoverTimeout
  repeat' (first
    | (with_reducible assumption)
    | (intro x; first | ((have hx : Keeps s0 x := ?_); (try clear_value x); rotate_left; dsimp -zeta only [x]; rotate_right) | ((have hx : Keeps s0 x.1 := ?_); (try clear_value x); rotate_left; dsimp -zeta only [x]; rotate_right) | ((have hx : Keeps s0 x.2 := ?_); (try clear_value x); rotate_left; dsimp -zeta only [x]; rotate_right) | (clear_value x) | skip)
    | lift_lets -underBinder
    | (with_reducible refine keeps_tick ?_ ..)
    | (with_reducible refine keeps_onHandoverTimeout ?_ ..)
    | (with_reducible refine keeps_stepChange ?_ ..)
    | (with_reducible refine keeps_ite ?_ ?_)
    | (with_reducible refine xkeeps_next ?_)
    | (fail_if_no_progress beta_reduce)
    | (dsimp only [Keeps, part]; with_reducible refine keeps_of ?_; first | with_reducible assumption | (with_reducible refine keeps_tick ?_ ..) | (with_reducible refine keeps_onHandoverTimeout ?_ ..) | (with_reducible refine keeps_stepChange ?_ ..))
    | split
    | (refine keeps_ite ?_ ?_))

theorem keeps_execDestageFrameDone {s0 s : State} {frame : Nat} {group : Nat} {slot : Nat} {lines : Word} {at_ : Nat} (hK : Keeps s0 s) :
    XKeeps s0 (execDestageFrameDone frame group slot lines at_ s) := by
  unfold execDestageFrameDone
  repeat' (first
    | (with_reducible assumption)
    | (intro x; first | ((have hx : Keeps s0 x := ?_); (try clear_value x); rotate_left; dsimp -zeta only [x]; rotate_right) | ((have hx : Keeps s0 x.1 := ?_); (try clear_value x); rotate_left; dsimp -zeta only [x]; rotate_right) | ((have hx : Keeps s0 x.2 := ?_); (try clear_value x); rotate_left; dsimp -zeta only [x]; rotate_right) | (clear_value x) | skip)
    | lift_lets -underBinder
    | (with_reducible refine keeps_onDestageFrameDone ?_ ..)
    | (with_reducible refine keeps_stepChange ?_ ..)
    | (with_reducible refine keeps_ite ?_ ?_)
    | (with_reducible refine xkeeps_next ?_)
    | (fail_if_no_progress beta_reduce)
    | (dsimp only [Keeps, part]; with_reducible refine keeps_of ?_; first | with_reducible assumption | (with_reducible refine keeps_onDestageFrameDone ?_ ..) | (with_reducible refine keeps_stepChange ?_ ..))
    | split
    | (refine keeps_ite ?_ ?_))

theorem keeps_execPllLockLoss {s0 s : State} {island : Nat} {at_ : Nat} (hK : Keeps s0 s) :
    XKeeps s0 (execPllLockLoss island at_ s) := by
  unfold execPllLockLoss
  repeat' (first
    | (with_reducible assumption)
    | (intro x; first | ((have hx : Keeps s0 x := ?_); (try clear_value x); rotate_left; dsimp -zeta only [x]; rotate_right) | ((have hx : Keeps s0 x.1 := ?_); (try clear_value x); rotate_left; dsimp -zeta only [x]; rotate_right) | ((have hx : Keeps s0 x.2 := ?_); (try clear_value x); rotate_left; dsimp -zeta only [x]; rotate_right) | (clear_value x) | skip)
    | lift_lets -underBinder
    | (with_reducible refine keeps_put ?_ ..)
    | (with_reducible refine keeps_tick ?_ ..)
    | (with_reducible refine keeps_raise ?_ ..)
    | (with_reducible refine keeps_settle ?_ ..)
    | (with_reducible refine keeps_stopFunc ?_ ..)
    | (with_reducible refine keeps_startDown ?_ ..)
    | (with_reducible refine keeps_nextRelock ?_ ..)
    | (with_reducible refine keeps_ite ?_ ?_)
    | (with_reducible refine xkeeps_next ?_)
    | (fail_if_no_progress beta_reduce)
    | (dsimp only [Keeps, part]; with_reducible refine keeps_of ?_; first | with_reducible assumption | (with_reducible refine keeps_put ?_ ..) | (with_reducible refine keeps_tick ?_ ..) | (with_reducible refine keeps_raise ?_ ..) | (with_reducible refine keeps_settle ?_ ..) | (with_reducible refine keeps_stopFunc ?_ ..) | (with_reducible refine keeps_startDown ?_ ..) | (with_reducible refine keeps_nextRelock ?_ ..))
    | split
    | (refine keeps_ite ?_ ?_))

end Sys2Proof.Laws
end

