-- ==== Sys2Proof/Laws/KeepsPower.lean ====
section
/-! SUPPORT. Every operation of Machine/Power.lean keeps what Laws/Keeps.lean says. -/

set_option linter.unusedTactic false
set_option linter.unreachableTactic false
set_option linter.unusedVariables false

namespace Sys2Proof.Laws

open Sys2Proof Machine

theorem keeps_putRail {s0 s : State} {n : Nat} {r : Rail} (hK : Keeps s0 s) :
    Keeps s0 (State.putRail s n r) := by
  unfold State.putRail
  repeat' (first
    | (with_reducible assumption)
    | (intro x; first | ((have hx : Keeps s0 x := ?_); (try clear_value x); rotate_left; dsimp -zeta only [x]; rotate_right) | ((have hx : Keeps s0 x.1 := ?_); (try clear_value x); rotate_left; dsimp -zeta only [x]; rotate_right) | ((have hx : Keeps s0 x.2 := ?_); (try clear_value x); rotate_left; dsimp -zeta only [x]; rotate_right) | (clear_value x) | skip)
    | lift_lets -underBinder
    | (with_reducible refine keeps_put ?_ ..)
    | (with_reducible refine keeps_ite ?_ ?_)
    | (fail_if_no_progress beta_reduce)
    | (dsimp only [Keeps, part]; with_reducible refine keeps_of ?_; first | with_reducible assumption | (with_reducible refine keeps_put ?_ ..))
    | split
    | (refine keeps_ite ?_ ?_))

theorem keeps_switchRail {s0 s : State} {n : Nat} {on : Bool} (hK : Keeps s0 s) :
    Keeps s0 (State.switchRail s n on) := by
  unfold State.switchRail
  repeat' (first
    | (with_reducible assumption)
    | (intro x; first | ((have hx : Keeps s0 x := ?_); (try clear_value x); rotate_left; dsimp -zeta only [x]; rotate_right) | ((have hx : Keeps s0 x.1 := ?_); (try clear_value x); rotate_left; dsimp -zeta only [x]; rotate_right) | ((have hx : Keeps s0 x.2 := ?_); (try clear_value x); rotate_left; dsimp -zeta only [x]; rotate_right) | (clear_value x) | skip)
    | lift_lets -underBinder
    | (with_reducible refine keeps_emit ?_ ..)
    | (with_reducible refine keeps_putRail ?_ ..)
    | (with_reducible refine keeps_ite ?_ ?_)
    | (fail_if_no_progress beta_reduce)
    | (dsimp only [Keeps, part]; with_reducible refine keeps_of ?_; first | with_reducible assumption | (with_reducible refine keeps_emit ?_ ..) | (with_reducible refine keeps_putRail ?_ ..))
    | split
    | (refine keeps_ite ?_ ?_))

theorem keeps_railsSettled {s0 s : State} {st : Nat} (hK : Keeps s0 s) :
    Keeps s0 (State.railsSettled s st) := by
  unfold State.railsSettled
  repeat' (first
    | (with_reducible assumption)
    | (intro x; first | ((have hx : Keeps s0 x := ?_); (try clear_value x); rotate_left; dsimp -zeta only [x]; rotate_right) | ((have hx : Keeps s0 x.1 := ?_); (try clear_value x); rotate_left; dsimp -zeta only [x]; rotate_right) | ((have hx : Keeps s0 x.2 := ?_); (try clear_value x); rotate_left; dsimp -zeta only [x]; rotate_right) | (clear_value x) | skip)
    | lift_lets -underBinder
    | (with_reducible refine keeps_putRail ?_ ..)
    | (with_reducible refine keeps_foldl (fun s x hK => ?_) ?_)
    | (with_reducible refine keeps_foldl_fst (fun s x hK => ?_) ?_)
    | (refine keeps_foldl_eq (by assumption) (fun s x hK => ?_) ?_)
    | (with_reducible refine keeps_ite ?_ ?_)
    | (fail_if_no_progress beta_reduce)
    | (dsimp only [Keeps, part]; with_reducible refine keeps_of ?_; first | with_reducible assumption | (with_reducible refine keeps_putRail ?_ ..) | (refine keeps_foldl_eq (by assumption) (fun s x hK => ?_) ?_))
    | split
    | (refine keeps_ite ?_ ?_))

theorem keeps_letGo {s0 s : State} (hK : Keeps s0 s) :
    Keeps s0 (State.letGo s) := by
  unfold State.letGo
  repeat' (first
    | (with_reducible assumption)
    | (intro x; first | ((have hx : Keeps s0 x := ?_); (try clear_value x); rotate_left; dsimp -zeta only [x]; rotate_right) | ((have hx : Keeps s0 x.1 := ?_); (try clear_value x); rotate_left; dsimp -zeta only [x]; rotate_right) | ((have hx : Keeps s0 x.2 := ?_); (try clear_value x); rotate_left; dsimp -zeta only [x]; rotate_right) | (clear_value x) | skip)
    | lift_lets -underBinder
    | (with_reducible refine keeps_emit ?_ ..)
    | (with_reducible refine keeps_ite ?_ ?_)
    | (fail_if_no_progress beta_reduce)
    | (dsimp only [Keeps, part]; with_reducible refine keeps_of ?_; first | with_reducible assumption | (with_reducible refine keeps_emit ?_ ..))
    | split
    | (refine keeps_ite ?_ ?_))

theorem keeps_setCause {s0 s : State} {c : Nat} (hK : Keeps s0 s) :
    Keeps s0 (State.setCause s c) := by
  unfold State.setCause
  repeat' (first
    | (with_reducible assumption)
    | (intro x; first | ((have hx : Keeps s0 x := ?_); (try clear_value x); rotate_left; dsimp -zeta only [x]; rotate_right) | ((have hx : Keeps s0 x.1 := ?_); (try clear_value x); rotate_left; dsimp -zeta only [x]; rotate_right) | ((have hx : Keeps s0 x.2 := ?_); (try clear_value x); rotate_left; dsimp -zeta only [x]; rotate_right) | (clear_value x) | skip)
    | lift_lets -underBinder
    | (with_reducible refine keeps_put ?_ ..)
    | (with_reducible refine keeps_ite ?_ ?_)
    | (fail_if_no_progress beta_reduce)
    | (dsimp only [Keeps, part]; with_reducible refine keeps_of ?_; first | with_reducible assumption | (with_reducible refine keeps_put ?_ ..))
    | split
    | (refine keeps_ite ?_ ?_))

theorem keeps_setCmd {s0 s : State} {c : CmdLow} (hK : Keeps s0 s) :
    Keeps s0 (State.setCmd s c) := by
  unfold State.setCmd
  repeat' (first
    | (with_reducible assumption)
    | (intro x; first | ((have hx : Keeps s0 x := ?_); (try clear_value x); rotate_left; dsimp -zeta only [x]; rotate_right) | ((have hx : Keeps s0 x.1 := ?_); (try clear_value x); rotate_left; dsimp -zeta only [x]; rotate_right) | ((have hx : Keeps s0 x.2 := ?_); (try clear_value x); rotate_left; dsimp -zeta only [x]; rotate_right) | (clear_value x) | skip)
    | lift_lets -underBinder
    | (with_reducible refine keeps_emit ?_ ..)
    | (with_reducible refine keeps_ite ?_ ?_)
    | (fail_if_no_progress beta_reduce)
    | (dsimp only [Keeps, part]; with_reducible refine keeps_of ?_; first | with_reducible assumption | (with_reducible refine keeps_emit ?_ ..))
    | split
    | (refine keeps_ite ?_ ?_))

theorem keeps_enterState {s0 s : State} {n : Nat} (hK : Keeps s0 s) :
    Keeps s0 (State.enterState s n) := by
  unfold State.enterState
  repeat' (first
    | (with_reducible assumption)
    | (intro x; first | ((have hx : Keeps s0 x := ?_); (try clear_value x); rotate_left; dsimp -zeta only [x]; rotate_right) | ((have hx : Keeps s0 x.1 := ?_); (try clear_value x); rotate_left; dsimp -zeta only [x]; rotate_right) | ((have hx : Keeps s0 x.2 := ?_); (try clear_value x); rotate_left; dsimp -zeta only [x]; rotate_right) | (clear_value x) | skip)
    | lift_lets -underBinder
    | (with_reducible refine keeps_put ?_ ..)
    | (with_reducible refine keeps_ite ?_ ?_)
    | (fail_if_no_progress beta_reduce)
    | (dsimp only [Keeps, part]; with_reducible refine keeps_of ?_; first | with_reducible assumption | (with_reducible refine keeps_put ?_ ..))
    | split
    | (refine keeps_ite ?_ ?_))

theorem keeps_tryStart {s0 s : State} (hK : Keeps s0 s) :
    Keeps s0 (State.tryStart s) := by
  unfold State.tryStart
  repeat' (first
    | (with_reducible assumption)
    | (intro x; first | ((have hx : Keeps s0 x := ?_); (try clear_value x); rotate_left; dsimp -zeta only [x]; rotate_right) | ((have hx : Keeps s0 x.1 := ?_); (try clear_value x); rotate_left; dsimp -zeta only [x]; rotate_right) | ((have hx : Keeps s0 x.2 := ?_); (try clear_value x); rotate_left; dsimp -zeta only [x]; rotate_right) | (clear_value x) | skip)
    | lift_lets -underBinder
    | (with_reducible refine keeps_letGo ?_ ..)
    | (with_reducible refine keeps_ite ?_ ?_)
    | (fail_if_no_progress beta_reduce)
    | (dsimp only [Keeps, part]; with_reducible refine keeps_of ?_; first | with_reducible assumption | (with_reducible refine keeps_letGo ?_ ..))
    | split
    | (refine keeps_ite ?_ ?_))

theorem keeps_failStep {s0 s : State} (hK : Keeps s0 s) :
    Keeps s0 (State.failStep s) := by
  unfold State.failStep
  repeat' (first
    | (with_reducible assumption)
    | (intro x; first | ((have hx : Keeps s0 x := ?_); (try clear_value x); rotate_left; dsimp -zeta only [x]; rotate_right) | ((have hx : Keeps s0 x.1 := ?_); (try clear_value x); rotate_left; dsimp -zeta only [x]; rotate_right) | ((have hx : Keeps s0 x.2 := ?_); (try clear_value x); rotate_left; dsimp -zeta only [x]; rotate_right) | (clear_value x) | skip)
    | lift_lets -underBinder
    | (with_reducible refine keeps_raise ?_ ..)
    | (with_reducible refine keeps_letGo ?_ ..)
    | (with_reducible refine keeps_setCause ?_ ..)
    | (with_reducible refine keeps_setCmd ?_ ..)
    | (with_reducible refine keeps_ite ?_ ?_)
    | (fail_if_no_progress beta_reduce)
    | (dsimp only [Keeps, part]; with_reducible refine keeps_of ?_; first | with_reducible assumption | (with_reducible refine keeps_raise ?_ ..) | (with_reducible refine keeps_letGo ?_ ..) | (with_reducible refine keeps_setCause ?_ ..) | (with_reducible refine keeps_setCmd ?_ ..))
    | split
    | (refine keeps_ite ?_ ?_))

theorem keeps_upAbort {s0 s : State} {cause : Nat} (hK : Keeps s0 s) :
    Keeps s0 (State.upAbort s cause) := by
  unfold State.upAbort
  repeat' (first
    | (with_reducible assumption)
    | (intro x; first | ((have hx : Keeps s0 x := ?_); (try clear_value x); rotate_left; dsimp -zeta only [x]; rotate_right) | ((have hx : Keeps s0 x.1 := ?_); (try clear_value x); rotate_left; dsimp -zeta only [x]; rotate_right) | ((have hx : Keeps s0 x.2 := ?_); (try clear_value x); rotate_left; dsimp -zeta only [x]; rotate_right) | (clear_value x) | skip)
    | lift_lets -underBinder
    | (with_reducible refine keeps_letGo ?_ ..)
    | (with_reducible refine keeps_setCause ?_ ..)
    | (with_reducible refine keeps_setCmd ?_ ..)
    | (with_reducible refine keeps_ite ?_ ?_)
    | (fail_if_no_progress beta_reduce)
    | (dsimp only [Keeps, part]; with_reducible refine keeps_of ?_; first | with_reducible assumption | (with_reducible refine keeps_letGo ?_ ..) | (with_reducible refine keeps_setCause ?_ ..) | (with_reducible refine keeps_setCmd ?_ ..))
    | split
    | (refine keeps_ite ?_ ?_))

theorem keeps_supplyReturn {s0 s : State} (hK : Keeps s0 s) :
    Keeps s0 (State.supplyReturn s) := by
  unfold State.supplyReturn
  repeat' (first
    | (with_reducible assumption)
    | (intro x; first | ((have hx : Keeps s0 x := ?_); (try clear_value x); rotate_left; dsimp -zeta only [x]; rotate_right) | ((have hx : Keeps s0 x.1 := ?_); (try clear_value x); rotate_left; dsimp -zeta only [x]; rotate_right) | ((have hx : Keeps s0 x.2 := ?_); (try clear_value x); rotate_left; dsimp -zeta only [x]; rotate_right) | (clear_value x) | skip)
    | lift_lets -underBinder
    | (with_reducible refine keeps_raise ?_ ..)
    | (with_reducible refine keeps_health ?_ ..)
    | (with_reducible refine keeps_letGo ?_ ..)
    | (with_reducible refine keeps_setCmd ?_ ..)
    | (with_reducible refine keeps_ite ?_ ?_)
    | (fail_if_no_progress beta_reduce)
    | (dsimp only [Keeps, part]; with_reducible refine keeps_of ?_; first | with_reducible assumption | (with_reducible refine keeps_raise ?_ ..) | (with_reducible refine keeps_health ?_ ..) | (with_reducible refine keeps_letGo ?_ ..) | (with_reducible refine keeps_setCmd ?_ ..))
    | split
    | (refine keeps_ite ?_ ?_))

theorem keeps_emergencyStop {s0 s : State} {rail : Nat} (hK : Keeps s0 s) :
    Keeps s0 (State.emergencyStop s rail) := by
  unfold State.emergencyStop
  repeat' (first
    | (with_reducible assumption)
    | (intro x; first | ((have hx : Keeps s0 x := ?_); (try clear_value x); rotate_left; dsimp -zeta only [x]; rotate_right) | ((have hx : Keeps s0 x.1 := ?_); (try clear_value x); rotate_left; dsimp -zeta only [x]; rotate_right) | ((have hx : Keeps s0 x.2 := ?_); (try clear_value x); rotate_left; dsimp -zeta only [x]; rotate_right) | (clear_value x) | skip)
    | lift_lets -underBinder
    | (with_reducible refine keeps_raise ?_ ..)
    | (with_reducible refine keeps_loseVolatile ?_ ..)
    | (with_reducible refine keeps_tearRecords ?_ ..)
    | (with_reducible refine keeps_switchRail ?_ ..)
    | (with_reducible refine keeps_letGo ?_ ..)
    | (with_reducible refine keeps_setCause ?_ ..)
    | (with_reducible refine keeps_setCmd ?_ ..)
    | (with_reducible refine keeps_foldl (fun s x hK => ?_) ?_)
    | (with_reducible refine keeps_foldl_fst (fun s x hK => ?_) ?_)
    | (refine keeps_foldl_eq (by assumption) (fun s x hK => ?_) ?_)
    | (with_reducible refine keeps_ite ?_ ?_)
    | (fail_if_no_progress beta_reduce)
    | (dsimp only [Keeps, part]; with_reducible refine keeps_of ?_; first | with_reducible assumption | (with_reducible refine keeps_raise ?_ ..) | (with_reducible refine keeps_loseVolatile ?_ ..) | (with_reducible refine keeps_tearRecords ?_ ..) | (with_reducible refine keeps_switchRail ?_ ..) | (with_reducible refine keeps_letGo ?_ ..) | (with_reducible refine keeps_setCause ?_ ..) | (with_reducible refine keeps_setCmd ?_ ..) | (refine keeps_foldl_eq (by assumption) (fun s x hK => ?_) ?_))
    | split
    | (refine keeps_ite ?_ ?_))

theorem keeps_checkThrottling {s0 s : State} (hK : Keeps s0 s) :
    Keeps s0 (State.checkThrottling s) := by
  unfold State.checkThrottling
  repeat' (first
    | (with_reducible assumption)
    | (intro x; first | ((have hx : Keeps s0 x := ?_); (try clear_value x); rotate_left; dsimp -zeta only [x]; rotate_right) | ((have hx : Keeps s0 x.1 := ?_); (try clear_value x); rotate_left; dsimp -zeta only [x]; rotate_right) | ((have hx : Keeps s0 x.2 := ?_); (try clear_value x); rotate_left; dsimp -zeta only [x]; rotate_right) | (clear_value x) | skip)
    | lift_lets -underBinder
    | (with_reducible refine keeps_raise ?_ ..)
    | (with_reducible refine keeps_ite ?_ ?_)
    | (fail_if_no_progress beta_reduce)
    | (dsimp only [Keeps, part]; with_reducible refine keeps_of ?_; first | with_reducible assumption | (with_reducible refine keeps_raise ?_ ..))
    | split
    | (refine keeps_ite ?_ ?_))

theorem keeps_beginSync {s0 s : State} (hK : Keeps s0 s) :
    Keeps s0 (State.beginSync s) := by
  unfold State.beginSync
  repeat' (first
    | (with_reducible assumption)
    | (intro x; first | ((have hx : Keeps s0 x := ?_); (try clear_value x); rotate_left; dsimp -zeta only [x]; rotate_right) | ((have hx : Keeps s0 x.1 := ?_); (try clear_value x); rotate_left; dsimp -zeta only [x]; rotate_right) | ((have hx : Keeps s0 x.2 := ?_); (try clear_value x); rotate_left; dsimp -zeta only [x]; rotate_right) | ((have hf : x.dt = x.dt := rfl); clear hf; dsimp -zeta only [x]) | ((have hf : x.floor = x.floor := rfl); clear hf; dsimp -zeta only [x]) | (clear_value x) | skip)
    | lift_lets -underBinder
    | (with_reducible refine keeps_put ?_ ..)
    | (with_reducible refine keeps_draw ?_ ..)
    | (refine keeps_draw_eq (by assumption) ?_)
    | (with_reducible refine keeps_settle ?_ ..)
    | (with_reducible refine keeps_setSt ?_ ..)
    | (with_reducible refine keeps_restartRing ?_ ..)
    | (with_reducible refine keeps_replaySave ?_ ..)
    | (with_reducible refine keeps_foldl (fun s x hK => ?_) ?_)
    | (with_reducible refine keeps_foldl_fst (fun s x hK => ?_) ?_)
    | (refine keeps_foldl_eq (by assumption) (fun s x hK => ?_) ?_)
    | (with_reducible refine keeps_ite ?_ ?_)
    | (fail_if_no_progress beta_reduce)
    | (dsimp only [Keeps, part]; with_reducible refine keeps_of ?_; first | with_reducible assumption | (with_reducible refine keeps_put ?_ ..) | (with_reducible refine keeps_draw ?_ ..) | (refine keeps_draw_eq (by assumption) ?_) | (with_reducible refine keeps_settle ?_ ..) | (with_reducible refine keeps_setSt ?_ ..) | (with_reducible refine keeps_restartRing ?_ ..) | (with_reducible refine keeps_replaySave ?_ ..) | (refine keeps_foldl_eq (by assumption) (fun s x hK => ?_) ?_))
    | split
    | (refine keeps_ite ?_ ?_))

theorem keeps_closeApplied {s0 s : State} (hK : Keeps s0 s) :
    Keeps s0 (State.closeApplied s) := by
  unfold State.closeApplied
  repeat' (first
    | (with_reducible assumption)
    | (intro x; first | ((have hx : Keeps s0 x := ?_); (try clear_value x); rotate_left; dsimp -zeta only [x]; rotate_right) | ((have hx : Keeps s0 x.1 := ?_); (try clear_value x); rotate_left; dsimp -zeta only [x]; rotate_right) | ((have hx : Keeps s0 x.2 := ?_); (try clear_value x); rotate_left; dsimp -zeta only [x]; rotate_right) | (clear_value x) | skip)
    | lift_lets -underBinder
    | (with_reducible refine keeps_sendCommit ?_ ..)
    | (with_reducible refine keeps_closeChange ?_ ..)
    | (with_reducible refine keeps_ite ?_ ?_)
    | (fail_if_no_progress beta_reduce)
    | (dsimp only [Keeps, part]; with_reducible refine keeps_of ?_; first | with_reducible assumption | (with_reducible refine keeps_sendCommit ?_ ..) | (with_reducible refine keeps_closeChange ?_ ..))
    | split
    | (refine keeps_ite ?_ ?_))

theorem keeps_beginService {s0 s : State} (hK : Keeps s0 s) :
    Keeps s0 (State.beginService s) := by
  unfold State.beginService
  repeat' (first
    | (with_reducible assumption)
    | (intro x; first | ((have hx : Keeps s0 x := ?_); (try clear_value x); rotate_left; dsimp -zeta only [x]; rotate_right) | ((have hx : Keeps s0 x.1 := ?_); (try clear_value x); rotate_left; dsimp -zeta only [x]; rotate_right) | ((have hx : Keeps s0 x.2 := ?_); (try clear_value x); rotate_left; dsimp -zeta only [x]; rotate_right) | (clear_value x) | skip)
    | lift_lets -underBinder
    | (with_reducible refine keeps_planMoves ?_ ..)
    | (with_reducible refine keeps_fillPins ?_ ..)
    | (with_reducible refine keeps_settle ?_ ..)
    | (with_reducible refine keeps_retryHeld ?_ ..)
    | (with_reducible refine keeps_enterRejoining ?_ ..)
    | (with_reducible refine keeps_startDown ?_ ..)
    | (with_reducible refine keeps_closeApplied ?_ ..)
    | (with_reducible refine keeps_ite ?_ ?_)
    | (fail_if_no_progress beta_reduce)
    | (dsimp only [Keeps, part]; with_reducible refine keeps_of ?_; first | with_reducible assumption | (with_reducible refine keeps_planMoves ?_ ..) | (with_reducible refine keeps_fillPins ?_ ..) | (with_reducible refine keeps_settle ?_ ..) | (with_reducible refine keeps_retryHeld ?_ ..) | (with_reducible refine keeps_enterRejoining ?_ ..) | (with_reducible refine keeps_startDown ?_ ..) | (with_reducible refine keeps_closeApplied ?_ ..))
    | split
    | (refine keeps_ite ?_ ?_))

theorem keeps_beginStop {s0 s : State} (hK : Keeps s0 s) :
    Keeps s0 (State.beginStop s) := by
  unfold State.beginStop
  repeat' (first
    | (with_reducible assumption)
    | (intro x; first | ((have hx : Keeps s0 x := ?_); (try clear_value x); rotate_left; dsimp -zeta only [x]; rotate_right) | ((have hx : Keeps s0 x.1 := ?_); (try clear_value x); rotate_left; dsimp -zeta only [x]; rotate_right) | ((have hx : Keeps s0 x.2 := ?_); (try clear_value x); rotate_left; dsimp -zeta only [x]; rotate_right) | (clear_value x) | skip)
    | lift_lets -underBinder
    | (with_reducible refine keeps_settle ?_ ..)
    | (with_reducible refine keeps_retryHeld ?_ ..)
    | (with_reducible refine keeps_nextGroup ?_ ..)
    | (with_reducible refine keeps_abortEngines ?_ ..)
    | (with_reducible refine keeps_abandonChange ?_ ..)
    | (with_reducible refine keeps_dropCopies ?_ ..)
    | (with_reducible refine keeps_ite ?_ ?_)
    | (fail_if_no_progress beta_reduce)
    | (dsimp only [Keeps, part]; with_reducible refine keeps_of ?_; first | with_reducible assumption | (with_reducible refine keeps_settle ?_ ..) | (with_reducible refine keeps_retryHeld ?_ ..) | (with_reducible refine keeps_nextGroup ?_ ..) | (with_reducible refine keeps_abortEngines ?_ ..) | (with_reducible refine keeps_abandonChange ?_ ..) | (with_reducible refine keeps_dropCopies ?_ ..))
    | split
    | (refine keeps_ite ?_ ?_))

theorem keeps_beginSave {s0 s : State} (hK : Keeps s0 s) :
    Keeps s0 (State.beginSave s) := by
  unfold State.beginSave
  repeat' (first
    | (with_reducible assumption)
    | (intro x; first | ((have hx : Keeps s0 x := ?_); (try clear_value x); rotate_left; dsimp -zeta only [x]; rotate_right) | ((have hx : Keeps s0 x.1 := ?_); (try clear_value x); rotate_left; dsimp -zeta only [x]; rotate_right) | ((have hx : Keeps s0 x.2 := ?_); (try clear_value x); rotate_left; dsimp -zeta only [x]; rotate_right) | (clear_value x) | skip)
    | lift_lets -underBinder
    | (with_reducible refine keeps_put ?_ ..)
    | (with_reducible refine keeps_ite ?_ ?_)
    | (fail_if_no_progress beta_reduce)
    | (dsimp only [Keeps, part]; with_reducible refine keeps_of ?_; first | with_reducible assumption | (with_reducible refine keeps_put ?_ ..))
    | split
    | (refine keeps_ite ?_ ?_))

theorem keeps_beginWork {s0 s : State} (hK : Keeps s0 s) :
    Keeps s0 (State.beginWork s) := by
  unfold State.beginWork
  repeat' (first
    | (with_reducible assumption)
    | (intro x; first | ((have hx : Keeps s0 x := ?_); (try clear_value x); rotate_left; dsimp -zeta only [x]; rotate_right) | ((have hx : Keeps s0 x.1 := ?_); (try clear_value x); rotate_left; dsimp -zeta only [x]; rotate_right) | ((have hx : Keeps s0 x.2 := ?_); (try clear_value x); rotate_left; dsimp -zeta only [x]; rotate_right) | (clear_value x) | skip)
    | lift_lets -underBinder
    | (with_reducible refine keeps_put ?_ ..)
    | (with_reducible refine keeps_pumpAon ?_ ..)
    | (with_reducible refine keeps_startYield ?_ ..)
    | (with_reducible refine keeps_loseVolatile ?_ ..)
    | (with_reducible refine keeps_endRecords ?_ ..)
    | (with_reducible refine keeps_switchRail ?_ ..)
    | (with_reducible refine keeps_setCause ?_ ..)
    | (with_reducible refine keeps_tryStart ?_ ..)
    | (with_reducible refine keeps_failStep ?_ ..)
    | (with_reducible refine keeps_checkThrottling ?_ ..)
    | (with_reducible refine keeps_beginSync ?_ ..)
    | (with_reducible refine keeps_beginService ?_ ..)
    | (with_reducible refine keeps_beginStop ?_ ..)
    | (with_reducible refine keeps_beginSave ?_ ..)
    | (with_reducible refine keeps_foldl (fun s x hK => ?_) ?_)
    | (with_reducible refine keeps_foldl_fst (fun s x hK => ?_) ?_)
    | (refine keeps_foldl_eq (by assumption) (fun s x hK => ?_) ?_)
    | (with_reducible refine keeps_ite ?_ ?_)
    | (fail_if_no_progress beta_reduce)
    | (dsimp only [Keeps, part]; with_reducible refine keeps_of ?_; first | with_reducible assumption | (with_reducible refine keeps_put ?_ ..) | (with_reducible refine keeps_pumpAon ?_ ..) | (with_reducible refine keeps_startYield ?_ ..) | (with_reducible refine keeps_loseVolatile ?_ ..) | (with_reducible refine keeps_endRecords ?_ ..) | (with_reducible refine keeps_switchRail ?_ ..) | (with_reducible refine keeps_setCause ?_ ..) | (with_reducible refine keeps_tryStart ?_ ..) | (with_reducible refine keeps_failStep ?_ ..) | (with_reducible refine keeps_checkThrottling ?_ ..) | (with_reducible refine keeps_beginSync ?_ ..) | (with_reducible refine keeps_beginService ?_ ..) | (with_reducible refine keeps_beginStop ?_ ..) | (with_reducible refine keeps_beginSave ?_ ..) | (refine keeps_foldl_eq (by assumption) (fun s x hK => ?_) ?_))
    | split
    | (refine keeps_ite ?_ ?_))

theorem keeps_stepLow {s0 s : State} (hK : Keeps s0 s) :
    Keeps s0 (State.stepLow s) := by
  unfold State.stepLow
  repeat' (first
    | (with_reducible assumption)
    | (intro x; first | ((have hx : Keeps s0 x := ?_); (try clear_value x); rotate_left; dsimp -zeta only [x]; rotate_right) | ((have hx : Keeps s0 x.1 := ?_); (try clear_value x); rotate_left; dsimp -zeta only [x]; rotate_right) | ((have hx : Keeps s0 x.2 := ?_); (try clear_value x); rotate_left; dsimp -zeta only [x]; rotate_right) | (clear_value x) | skip)
    | lift_lets -underBinder
    | (with_reducible refine keeps_emit ?_ ..)
    | (with_reducible refine keeps_upAbort ?_ ..)
    | (with_reducible refine keeps_beginWork ?_ ..)
    | (with_reducible refine keeps_ite ?_ ?_)
    | (fail_if_no_progress beta_reduce)
    | (dsimp only [Keeps, part]; with_reducible refine keeps_of ?_; first | with_reducible assumption | (with_reducible refine keeps_emit ?_ ..) | (with_reducible refine keeps_upAbort ?_ ..) | (with_reducible refine keeps_beginWork ?_ ..))
    | split
    | (refine keeps_ite ?_ ?_))

theorem keeps_rise {s0 s : State} (hK : Keeps s0 s) :
    Keeps s0 (State.rise s) := by
  unfold State.rise
  repeat' (first
    | (with_reducible assumption)
    | (intro x; first | ((have hx : Keeps s0 x := ?_); (try clear_value x); rotate_left; dsimp -zeta only [x]; rotate_right) | ((have hx : Keeps s0 x.1 := ?_); (try clear_value x); rotate_left; dsimp -zeta only [x]; rotate_right) | ((have hx : Keeps s0 x.2 := ?_); (try clear_value x); rotate_left; dsimp -zeta only [x]; rotate_right) | (clear_value x) | skip)
    | lift_lets -underBinder
    | (with_reducible refine keeps_setCmd ?_ ..)
    | (with_reducible refine keeps_enterState ?_ ..)
    | (with_reducible refine keeps_stepLow ?_ ..)
    | (with_reducible refine keeps_ite ?_ ?_)
    | (fail_if_no_progress beta_reduce)
    | (dsimp only [Keeps, part]; with_reducible refine keeps_of ?_; first | with_reducible assumption | (with_reducible refine keeps_setCmd ?_ ..) | (with_reducible refine keeps_enterState ?_ ..) | (with_reducible refine keeps_stepLow ?_ ..))
    | split
    | (refine keeps_ite ?_ ?_))

theorem keeps_execPsyncRise {s0 s : State} {at_ : Nat} (hK : Keeps s0 s) :
    XKeeps s0 (execPsyncRise at_ s) := by
  unfold execPsyncRise
  repeat' (first
    | (with_reducible assumption)
    | (intro x; first | ((have hx : Keeps s0 x := ?_); (try clear_value x); rotate_left; dsimp -zeta only [x]; rotate_right) | ((have hx : Keeps s0 x.1 := ?_); (try clear_value x); rotate_left; dsimp -zeta only [x]; rotate_right) | ((have hx : Keeps s0 x.2 := ?_); (try clear_value x); rotate_left; dsimp -zeta only [x]; rotate_right) | (clear_value x) | skip)
    | lift_lets -underBinder
    | (with_reducible refine keeps_tick ?_ ..)
    | (with_reducible refine keeps_rise ?_ ..)
    | (with_reducible refine keeps_ite ?_ ?_)
    | (with_reducible refine xkeeps_next ?_)
    | (fail_if_no_progress beta_reduce)
    | (dsimp only [Keeps, part]; with_reducible refine keeps_of ?_; first | with_reducible assumption | (with_reducible refine keeps_tick ?_ ..) | (with_reducible refine keeps_rise ?_ ..))
    | split
    | (refine keeps_ite ?_ ?_))

theorem keeps_commandRise {s0 s : State} {c : CmdLow} {st : Nat} (hK : Keeps s0 s) :
    Keeps s0 (State.commandRise s c st) := by
  unfold State.commandRise
  repeat' (first
    | (with_reducible assumption)
    | (intro x; first | ((have hx : Keeps s0 x := ?_); (try clear_value x); rotate_left; dsimp -zeta only [x]; rotate_right) | ((have hx : Keeps s0 x.1 := ?_); (try clear_value x); rotate_left; dsimp -zeta only [x]; rotate_right) | ((have hx : Keeps s0 x.2 := ?_); (try clear_value x); rotate_left; dsimp -zeta only [x]; rotate_right) | (clear_value x) | skip)
    | lift_lets -underBinder
    | (with_reducible refine keeps_enterState ?_ ..)
    | (with_reducible refine keeps_stepLow ?_ ..)
    | (with_reducible refine keeps_ite ?_ ?_)
    | (fail_if_no_progress beta_reduce)
    | (dsimp only [Keeps, part]; with_reducible refine keeps_of ?_; first | with_reducible assumption | (with_reducible refine keeps_enterState ?_ ..) | (with_reducible refine keeps_stepLow ?_ ..))
    | split
    | (refine keeps_ite ?_ ?_))

theorem keeps_execTurn {s0 s : State} {at_ : Nat} (hK : Keeps s0 s) :
    XKeeps s0 (execTurn at_ s) := by
  unfold execTurn
  repeat' (first
    | (with_reducible assumption)
    | (intro x; first | ((have hx : Keeps s0 x := ?_); (try clear_value x); rotate_left; dsimp -zeta only [x]; rotate_right) | ((have hx : Keeps s0 x.1 := ?_); (try clear_value x); rotate_left; dsimp -zeta only [x]; rotate_right) | ((have hx : Keeps s0 x.2 := ?_); (try clear_value x); rotate_left; dsimp -zeta only [x]; rotate_right) | (clear_value x) | skip)
    | lift_lets -underBinder
    | (with_reducible refine keeps_tick ?_ ..)
    | (with_reducible refine keeps_commandRise ?_ ..)
    | (with_reducible refine keeps_getD ?_ ?_)
    | (with_reducible refine keeps_ite ?_ ?_)
    | (with_reducible refine xkeeps_next ?_)
    | (fail_if_no_progress beta_reduce)
    | (dsimp only [Keeps, part]; with_reducible refine keeps_of ?_; first | with_reducible assumption | (with_reducible refine keeps_tick ?_ ..) | (with_reducible refine keeps_commandRise ?_ ..))
    | split
    | (refine keeps_ite ?_ ?_))

theorem keeps_execLoop {s0 s : State} {at_ : Nat} (hK : Keeps s0 s) :
    XKeeps s0 (execLoop at_ s) := by
  unfold execLoop
  repeat' (first
    | (with_reducible assumption)
    | (intro x; first | ((have hx : Keeps s0 x := ?_); (try clear_value x); rotate_left; dsimp -zeta only [x]; rotate_right) | ((have hx : Keeps s0 x.1 := ?_); (try clear_value x); rotate_left; dsimp -zeta only [x]; rotate_right) | ((have hx : Keeps s0 x.2 := ?_); (try clear_value x); rotate_left; dsimp -zeta only [x]; rotate_right) | (clear_value x) | skip)
    | lift_lets -underBinder
    | (with_reducible refine keeps_tick ?_ ..)
    | (with_reducible refine keeps_loseVolatile ?_ ..)
    | (with_reducible refine keeps_commandRise ?_ ..)
    | (with_reducible refine keeps_ite ?_ ?_)
    | (with_reducible refine xkeeps_next ?_)
    | (fail_if_no_progress beta_reduce)
    | (dsimp only [Keeps, part]; with_reducible refine keeps_of ?_; first | with_reducible assumption | (with_reducible refine keeps_tick ?_ ..) | (with_reducible refine keeps_loseVolatile ?_ ..) | (with_reducible refine keeps_commandRise ?_ ..))
    | split
    | (refine keeps_ite ?_ ?_))

theorem keeps_execPsyncReset {s0 s : State} {at_ : Nat} (hK : Keeps s0 s) :
    XKeeps s0 (execPsyncReset at_ s) := by
  unfold execPsyncReset
  repeat' (first
    | (with_reducible assumption)
    | (intro x; first | ((have hx : Keeps s0 x := ?_); (try clear_value x); rotate_left; dsimp -zeta only [x]; rotate_right) | ((have hx : Keeps s0 x.1 := ?_); (try clear_value x); rotate_left; dsimp -zeta only [x]; rotate_right) | ((have hx : Keeps s0 x.2 := ?_); (try clear_value x); rotate_left; dsimp -zeta only [x]; rotate_right) | (clear_value x) | skip)
    | lift_lets -underBinder
    | (with_reducible refine keeps_tick ?_ ..)
    | (with_reducible refine keeps_commandRise ?_ ..)
    | (with_reducible refine keeps_ite ?_ ?_)
    | (with_reducible refine xkeeps_next ?_)
    | (fail_if_no_progress beta_reduce)
    | (dsimp only [Keeps, part]; with_reducible refine keeps_of ?_; first | with_reducible assumption | (with_reducible refine keeps_tick ?_ ..) | (with_reducible refine keeps_commandRise ?_ ..))
    | split
    | (refine keeps_ite ?_ ?_))

theorem keeps_poisonLost {s0 s : State} {n : Nat} (hK : Keeps s0 s) :
    Keeps s0 (State.poisonLost s n) := by
  unfold State.poisonLost
  repeat' (first
    | (with_reducible assumption)
    | (intro x; first | ((have hx : Keeps s0 x := ?_); (try clear_value x); rotate_left; dsimp -zeta only [x]; rotate_right) | ((have hx : Keeps s0 x.1 := ?_); (try clear_value x); rotate_left; dsimp -zeta only [x]; rotate_right) | ((have hx : Keeps s0 x.2 := ?_); (try clear_value x); rotate_left; dsimp -zeta only [x]; rotate_right) | (clear_value x) | skip)
    | lift_lets -underBinder
    | (with_reducible refine keeps_poisonLine ?_ ..)
    | (with_reducible refine keeps_ite ?_ ?_)
    | (fail_if_no_progress beta_reduce)
    | (dsimp only [Keeps, part]; with_reducible refine keeps_of ?_; first | with_reducible assumption | (with_reducible refine keeps_poisonLine ?_ ..))
    | split
    | (refine keeps_ite ?_ ?_))

theorem keeps_writeSave {s0 s : State} (hK : Keeps s0 s) :
    Keeps s0 (State.writeSave s) := by
  unfold State.writeSave
  repeat' (first
    | (with_reducible assumption)
    | (intro x; first | ((have hx : Keeps s0 x := ?_); (try clear_value x); rotate_left; dsimp -zeta only [x]; rotate_right) | ((have hx : Keeps s0 x.1 := ?_); (try clear_value x); rotate_left; dsimp -zeta only [x]; rotate_right) | ((have hx : Keeps s0 x.2 := ?_); (try clear_value x); rotate_left; dsimp -zeta only [x]; rotate_right) | (clear_value x) | skip)
    | lift_lets -underBinder
    | (with_reducible refine keeps_put ?_ ..)
    | (with_reducible refine keeps_saveWrites ?_ ..)
    | (with_reducible refine keeps_poisonLost ?_ ..)
    | (with_reducible refine keeps_foldl (fun s x hK => ?_) ?_)
    | (with_reducible refine keeps_foldl_fst (fun s x hK => ?_) ?_)
    | (refine keeps_foldl_eq (by assumption) (fun s x hK => ?_) ?_)
    | (with_reducible refine keeps_ite ?_ ?_)
    | (fail_if_no_progress beta_reduce)
    | (dsimp only [Keeps, part]; with_reducible refine keeps_of ?_; first | with_reducible assumption | (with_reducible refine keeps_put ?_ ..) | (with_reducible refine keeps_saveWrites ?_ ..) | (with_reducible refine keeps_poisonLost ?_ ..) | (refine keeps_foldl_eq (by assumption) (fun s x hK => ?_) ?_))
    | split
    | (refine keeps_ite ?_ ?_))

theorem keeps_cleanRows {s0 s : State} (hK : Keeps s0 s) :
    Keeps s0 (State.cleanRows s) := by
  unfold State.cleanRows
  repeat' (first
    | (with_reducible assumption)
    | (intro x; first | ((have hx : Keeps s0 x := ?_); (try clear_value x); rotate_left; dsimp -zeta only [x]; rotate_right) | ((have hx : Keeps s0 x.1 := ?_); (try clear_value x); rotate_left; dsimp -zeta only [x]; rotate_right) | ((have hx : Keeps s0 x.2 := ?_); (try clear_value x); rotate_left; dsimp -zeta only [x]; rotate_right) | (clear_value x) | skip)
    | lift_lets -underBinder
    | (with_reducible refine keeps_put ?_ ..)
    | (with_reducible refine keeps_putSkim ?_ ..)
    | (with_reducible refine keeps_floatFrame ?_ ..)
    | (with_reducible refine keeps_journalWritten ?_ ..)
    | (with_reducible refine keeps_foldl (fun s x hK => ?_) ?_)
    | (with_reducible refine keeps_foldl_fst (fun s x hK => ?_) ?_)
    | (refine keeps_foldl_eq (by assumption) (fun s x hK => ?_) ?_)
    | (with_reducible refine keeps_ite ?_ ?_)
    | (fail_if_no_progress beta_reduce)
    | (dsimp only [Keeps, part]; with_reducible refine keeps_of ?_; first | with_reducible assumption | (with_reducible refine keeps_put ?_ ..) | (with_reducible refine keeps_putSkim ?_ ..) | (with_reducible refine keeps_floatFrame ?_ ..) | (with_reducible refine keeps_journalWritten ?_ ..) | (refine keeps_foldl_eq (by assumption) (fun s x hK => ?_) ?_))
    | split
    | (refine keeps_ite ?_ ?_))

theorem keeps_commitSave {s0 s : State} (hK : Keeps s0 s) :
    Keeps s0 (State.commitSave s) := by
  unfold State.commitSave
  repeat' (first
    | (with_reducible assumption)
    | (intro x; first | ((have hx : Keeps s0 x := ?_); (try clear_value x); rotate_left; dsimp -zeta only [x]; rotate_right) | ((have hx : Keeps s0 x.1 := ?_); (try clear_value x); rotate_left; dsimp -zeta only [x]; rotate_right) | ((have hx : Keeps s0 x.2 := ?_); (try clear_value x); rotate_left; dsimp -zeta only [x]; rotate_right) | (clear_value x) | skip)
    | lift_lets -underBinder
    | (with_reducible refine keeps_put ?_ ..)
    | (with_reducible refine keeps_bbRecord ?_ ..)
    | (with_reducible refine keeps_raise ?_ ..)
    | (with_reducible refine keeps_health ?_ ..)
    | (with_reducible refine keeps_writeSummary ?_ ..)
    | (with_reducible refine keeps_ite ?_ ?_)
    | (fail_if_no_progress beta_reduce)
    | (dsimp only [Keeps, part]; with_reducible refine keeps_of ?_; first | with_reducible assumption | (with_reducible refine keeps_put ?_ ..) | (with_reducible refine keeps_bbRecord ?_ ..) | (with_reducible refine keeps_raise ?_ ..) | (with_reducible refine keeps_health ?_ ..) | (with_reducible refine keeps_writeSummary ?_ ..) | (refine keeps_ite_eq (by assumption) ?_ ?_))
    | (refine keeps_ite_eq (by assumption) ?_ ?_)
    | split
    | (refine keeps_ite ?_ ?_))

theorem keeps_workCommit {s0 s : State} (hK : Keeps s0 s) :
    Keeps s0 (State.workCommit s) := by
  unfold State.workCommit
  repeat' (first
    | (with_reducible assumption)
    | (intro x; first | ((have hx : Keeps s0 x := ?_); (try clear_value x); rotate_left; dsimp -zeta only [x]; rotate_right) | ((have hx : Keeps s0 x.1 := ?_); (try clear_value x); rotate_left; dsimp -zeta only [x]; rotate_right) | ((have hx : Keeps s0 x.2 := ?_); (try clear_value x); rotate_left; dsimp -zeta only [x]; rotate_right) | (clear_value x) | skip)
    | lift_lets -underBinder
    | (with_reducible refine keeps_emit ?_ ..)
    | (with_reducible refine keeps_cleanRows ?_ ..)
    | (with_reducible refine keeps_commitSave ?_ ..)
    | (with_reducible refine keeps_foldl (fun s x hK => ?_) ?_)
    | (with_reducible refine keeps_foldl_fst (fun s x hK => ?_) ?_)
    | (refine keeps_foldl_eq (by assumption) (fun s x hK => ?_) ?_)
    | (with_reducible refine keeps_ite ?_ ?_)
    | (fail_if_no_progress beta_reduce)
    | (dsimp only [Keeps, part]; with_reducible refine keeps_of ?_; first | with_reducible assumption | (with_reducible refine keeps_emit ?_ ..) | (with_reducible refine keeps_cleanRows ?_ ..) | (with_reducible refine keeps_commitSave ?_ ..) | (refine keeps_foldl_eq (by assumption) (fun s x hK => ?_) ?_))
    | split
    | (refine keeps_ite ?_ ?_))

theorem keeps_workYield {s0 s : State} (hK : Keeps s0 s) :
    Keeps s0 (State.workYield s) := by
  unfold State.workYield
  repeat' (first
    | (with_reducible assumption)
    | (intro x; first | ((have hx : Keeps s0 x := ?_); (try clear_value x); rotate_left; dsimp -zeta only [x]; rotate_right) | ((have hx : Keeps s0 x.1 := ?_); (try clear_value x); rotate_left; dsimp -zeta only [x]; rotate_right) | ((have hx : Keeps s0 x.2 := ?_); (try clear_value x); rotate_left; dsimp -zeta only [x]; rotate_right) | (clear_value x) | skip)
    | lift_lets -underBinder
    | (with_reducible refine keeps_letGo ?_ ..)
    | (with_reducible refine keeps_setCmd ?_ ..)
    | (with_reducible refine keeps_ite ?_ ?_)
    | (fail_if_no_progress beta_reduce)
    | (dsimp only [Keeps, part]; with_reducible refine keeps_of ?_; first | with_reducible assumption | (with_reducible refine keeps_letGo ?_ ..) | (with_reducible refine keeps_setCmd ?_ ..))
    | split
    | (refine keeps_ite ?_ ?_))

theorem keeps_coated {s0 s : State} {r : WorkRes} (hK : Keeps s0 s) :
    Keeps s0 (State.coated s r) := by
  unfold State.coated
  repeat' (first
    | (with_reducible assumption)
    | (intro x; first | ((have hx : Keeps s0 x := ?_); (try clear_value x); rotate_left; dsimp -zeta only [x]; rotate_right) | ((have hx : Keeps s0 x.1 := ?_); (try clear_value x); rotate_left; dsimp -zeta only [x]; rotate_right) | ((have hx : Keeps s0 x.2 := ?_); (try clear_value x); rotate_left; dsimp -zeta only [x]; rotate_right) | (clear_value x) | skip)
    | lift_lets -underBinder
    | (with_reducible refine keeps_coat ?_ ..)
    | (with_reducible refine keeps_letGo ?_ ..)
    | (with_reducible refine keeps_failStep ?_ ..)
    | (with_reducible refine keeps_ite ?_ ?_)
    | (fail_if_no_progress beta_reduce)
    | (dsimp only [Keeps, part]; with_reducible refine keeps_of ?_; first | with_reducible assumption | (with_reducible refine keeps_coat ?_ ..) | (with_reducible refine keeps_letGo ?_ ..) | (with_reducible refine keeps_failStep ?_ ..))
    | split
    | (refine keeps_ite ?_ ?_))

theorem keeps_latchChosen {s0 s : State} (hK : Keeps s0 s) :
    Keeps s0 (State.latchChosen s) := by
  unfold State.latchChosen
  repeat' (first
    | (with_reducible assumption)
    | (intro x; first | ((have hx : Keeps s0 x := ?_); (try clear_value x); rotate_left; dsimp -zeta only [x]; rotate_right) | ((have hx : Keeps s0 x.1 := ?_); (try clear_value x); rotate_left; dsimp -zeta only [x]; rotate_right) | ((have hx : Keeps s0 x.2 := ?_); (try clear_value x); rotate_left; dsimp -zeta only [x]; rotate_right) | (clear_value x) | skip)
    | lift_lets -underBinder
    | (with_reducible refine keeps_latchPanels ?_ ..)
    | (with_reducible refine keeps_ite ?_ ?_)
    | (fail_if_no_progress beta_reduce)
    | (dsimp only [Keeps, part]; with_reducible refine keeps_of ?_; first | with_reducible assumption | (with_reducible refine keeps_latchPanels ?_ ..))
    | split
    | (refine keeps_ite ?_ ?_))

theorem keeps_workCells {s0 s : State} {r : WorkRes} (hK : Keeps s0 s) :
    Keeps s0 (State.workCells s r) := by
  unfold State.workCells
  repeat' (first
    | (with_reducible assumption)
    | (intro x; first | ((have hx : Keeps s0 x := ?_); (try clear_value x); rotate_left; dsimp -zeta only [x]; rotate_right) | ((have hx : Keeps s0 x.1 := ?_); (try clear_value x); rotate_left; dsimp -zeta only [x]; rotate_right) | ((have hx : Keeps s0 x.2 := ?_); (try clear_value x); rotate_left; dsimp -zeta only [x]; rotate_right) | (clear_value x) | skip)
    | lift_lets -underBinder
    | (with_reducible refine keeps_zeroTileStores ?_ ..)
    | (with_reducible refine keeps_seedCrown ?_ ..)
    | (with_reducible refine keeps_coated ?_ ..)
    | (with_reducible refine keeps_latchChosen ?_ ..)
    | (with_reducible refine keeps_ite ?_ ?_)
    | (fail_if_no_progress beta_reduce)
    | (dsimp only [Keeps, part]; with_reducible refine keeps_of ?_; first | with_reducible assumption | (with_reducible refine keeps_zeroTileStores ?_ ..) | (with_reducible refine keeps_seedCrown ?_ ..) | (with_reducible refine keeps_coated ?_ ..) | (with_reducible refine keeps_latchChosen ?_ ..))
    | split
    | (refine keeps_ite ?_ ?_))

theorem keeps_workDown {s0 s : State} (hK : Keeps s0 s) :
    Keeps s0 (State.workDown s) := by
  unfold State.workDown
  repeat' (first
    | (with_reducible assumption)
    | (intro x; first | ((have hx : Keeps s0 x := ?_); (try clear_value x); rotate_left; dsimp -zeta only [x]; rotate_right) | ((have hx : Keeps s0 x.1 := ?_); (try clear_value x); rotate_left; dsimp -zeta only [x]; rotate_right) | ((have hx : Keeps s0 x.2 := ?_); (try clear_value x); rotate_left; dsimp -zeta only [x]; rotate_right) | (clear_value x) | skip)
    | lift_lets -underBinder
    | (with_reducible refine keeps_evictCell ?_ ..)
    | (with_reducible refine keeps_settle ?_ ..)
    | (with_reducible refine keeps_enterYielded ?_ ..)
    | (with_reducible refine keeps_endCleaning ?_ ..)
    | (with_reducible refine keeps_letGo ?_ ..)
    | (with_reducible refine keeps_writeSave ?_ ..)
    | (with_reducible refine keeps_workCommit ?_ ..)
    | (with_reducible refine keeps_workYield ?_ ..)
    | (with_reducible refine keeps_foldl (fun s x hK => ?_) ?_)
    | (with_reducible refine keeps_foldl_fst (fun s x hK => ?_) ?_)
    | (refine keeps_foldl_eq (by assumption) (fun s x hK => ?_) ?_)
    | (with_reducible refine keeps_ite ?_ ?_)
    | (fail_if_no_progress beta_reduce)
    | (dsimp only [Keeps, part]; with_reducible refine keeps_of ?_; first | with_reducible assumption | (with_reducible refine keeps_evictCell ?_ ..) | (with_reducible refine keeps_settle ?_ ..) | (with_reducible refine keeps_enterYielded ?_ ..) | (with_reducible refine keeps_endCleaning ?_ ..) | (with_reducible refine keeps_letGo ?_ ..) | (with_reducible refine keeps_writeSave ?_ ..) | (with_reducible refine keeps_workCommit ?_ ..) | (with_reducible refine keeps_workYield ?_ ..) | (refine keeps_foldl_eq (by assumption) (fun s x hK => ?_) ?_))
    | split
    | (refine keeps_ite ?_ ?_))

theorem keeps_workUp {s0 s : State} {r : WorkRes} (hK : Keeps s0 s) :
    Keeps s0 (State.workUp s r) := by
  unfold State.workUp
  repeat' (first
    | (with_reducible assumption)
    | (intro x; first | ((have hx : Keeps s0 x := ?_); (try clear_value x); rotate_left; dsimp -zeta only [x]; rotate_right) | ((have hx : Keeps s0 x.1 := ?_); (try clear_value x); rotate_left; dsimp -zeta only [x]; rotate_right) | ((have hx : Keeps s0 x.2 := ?_); (try clear_value x); rotate_left; dsimp -zeta only [x]; rotate_right) | (clear_value x) | skip)
    | lift_lets -underBinder
    | (with_reducible refine keeps_settle ?_ ..)
    | (with_reducible refine keeps_chooseImage ?_ ..)
    | (refine keeps_chooseImage_eq (by assumption) ?_)
    | (with_reducible refine keeps_recoat ?_ ..)
    | (with_reducible refine keeps_reapplyList ?_ ..)
    | (with_reducible refine keeps_trainPorts ?_ ..)
    | (with_reducible refine keeps_workImage ?_ ..)
    | (refine keeps_workImage_eq (by assumption) ?_)
    | (with_reducible refine keeps_restartCases ?_ ..)
    | (with_reducible refine keeps_healSuspect ?_ ..)
    | (with_reducible refine keeps_railsSettled ?_ ..)
    | (with_reducible refine keeps_letGo ?_ ..)
    | (with_reducible refine keeps_failStep ?_ ..)
    | (with_reducible refine keeps_workCells ?_ ..)
    | (with_reducible refine keeps_ite ?_ ?_)
    | (fail_if_no_progress beta_reduce)
    | (dsimp only [Keeps, part]; with_reducible refine keeps_of ?_; first | with_reducible assumption | (with_reducible refine keeps_settle ?_ ..) | (with_reducible refine keeps_chooseImage ?_ ..) | (refine keeps_chooseImage_eq (by assumption) ?_) | (with_reducible refine keeps_recoat ?_ ..) | (with_reducible refine keeps_reapplyList ?_ ..) | (with_reducible refine keeps_trainPorts ?_ ..) | (with_reducible refine keeps_workImage ?_ ..) | (refine keeps_workImage_eq (by assumption) ?_) | (with_reducible refine keeps_restartCases ?_ ..) | (with_reducible refine keeps_healSuspect ?_ ..) | (with_reducible refine keeps_railsSettled ?_ ..) | (with_reducible refine keeps_letGo ?_ ..) | (with_reducible refine keeps_failStep ?_ ..) | (with_reducible refine keeps_workCells ?_ ..))
    | split
    | (refine keeps_ite ?_ ?_))

theorem keeps_workDone {s0 s : State} {r : WorkRes} (hK : Keeps s0 s) :
    Keeps s0 (State.workDone s r) := by
  unfold State.workDone
  repeat' (first
    | (with_reducible assumption)
    | (intro x; first | ((have hx : Keeps s0 x := ?_); (try clear_value x); rotate_left; dsimp -zeta only [x]; rotate_right) | ((have hx : Keeps s0 x.1 := ?_); (try clear_value x); rotate_left; dsimp -zeta only [x]; rotate_right) | ((have hx : Keeps s0 x.2 := ?_); (try clear_value x); rotate_left; dsimp -zeta only [x]; rotate_right) | (clear_value x) | skip)
    | lift_lets -underBinder
    | (with_reducible refine keeps_letGo ?_ ..)
    | (with_reducible refine keeps_workDown ?_ ..)
    | (with_reducible refine keeps_workUp ?_ ..)
    | (with_reducible refine keeps_ite ?_ ?_)
    | (fail_if_no_progress beta_reduce)
    | (dsimp only [Keeps, part]; with_reducible refine keeps_of ?_; first | with_reducible assumption | (with_reducible refine keeps_letGo ?_ ..) | (with_reducible refine keeps_workDown ?_ ..) | (with_reducible refine keeps_workUp ?_ ..))
    | split
    | (refine keeps_ite ?_ ?_))

theorem keeps_execStateWorkDone {s0 s : State} {r : WorkRes} {at_ : Nat} (hK : Keeps s0 s) :
    XKeeps s0 (execStateWorkDone r at_ s) := by
  unfold execStateWorkDone
  repeat' (first
    | (with_reducible assumption)
    | (intro x; first | ((have hx : Keeps s0 x := ?_); (try clear_value x); rotate_left; dsimp -zeta only [x]; rotate_right) | ((have hx : Keeps s0 x.1 := ?_); (try clear_value x); rotate_left; dsimp -zeta only [x]; rotate_right) | ((have hx : Keeps s0 x.2 := ?_); (try clear_value x); rotate_left; dsimp -zeta only [x]; rotate_right) | (clear_value x) | skip)
    | lift_lets -underBinder
    | (with_reducible refine keeps_tick ?_ ..)
    | (with_reducible refine keeps_workDone ?_ ..)
    | (with_reducible refine keeps_ite ?_ ?_)
    | (with_reducible refine xkeeps_next ?_)
    | (fail_if_no_progress beta_reduce)
    | (dsimp only [Keeps, part]; with_reducible refine keeps_of ?_; first | with_reducible assumption | (with_reducible refine keeps_tick ?_ ..) | (with_reducible refine keeps_workDone ?_ ..))
    | split
    | (refine keeps_ite ?_ ?_))

theorem keeps_boundPassed {s0 s : State} (hK : Keeps s0 s) :
    Keeps s0 (State.boundPassed s) := by
  unfold State.boundPassed
  repeat' (first
    | (with_reducible assumption)
    | (intro x; first | ((have hx : Keeps s0 x := ?_); (try clear_value x); rotate_left; dsimp -zeta only [x]; rotate_right) | ((have hx : Keeps s0 x.1 := ?_); (try clear_value x); rotate_left; dsimp -zeta only [x]; rotate_right) | ((have hx : Keeps s0 x.2 := ?_); (try clear_value x); rotate_left; dsimp -zeta only [x]; rotate_right) | (clear_value x) | skip)
    | lift_lets -underBinder
    | (with_reducible refine keeps_raise ?_ ..)
    | (with_reducible refine keeps_failStep ?_ ..)
    | (with_reducible refine keeps_emergencyStop ?_ ..)
    | (with_reducible refine keeps_ite ?_ ?_)
    | (fail_if_no_progress beta_reduce)
    | (dsimp only [Keeps, part]; with_reducible refine keeps_of ?_; first | with_reducible assumption | (with_reducible refine keeps_raise ?_ ..) | (with_reducible refine keeps_failStep ?_ ..) | (with_reducible refine keeps_emergencyStop ?_ ..))
    | split
    | (refine keeps_ite ?_ ?_))

theorem keeps_execStateBoundExpiry {s0 s : State} {at_ : Nat} (hK : Keeps s0 s) :
    XKeeps s0 (execStateBoundExpiry at_ s) := by
  unfold execStateBoundExpiry
  repeat' (first
    | (with_reducible assumption)
    | (intro x; first | ((have hx : Keeps s0 x := ?_); (try clear_value x); rotate_left; dsimp -zeta only [x]; rotate_right) | ((have hx : Keeps s0 x.1 := ?_); (try clear_value x); rotate_left; dsimp -zeta only [x]; rotate_right) | ((have hx : Keeps s0 x.2 := ?_); (try clear_value x); rotate_left; dsimp -zeta only [x]; rotate_right) | (clear_value x) | skip)
    | lift_lets -underBinder
    | (with_reducible refine keeps_tick ?_ ..)
    | (with_reducible refine keeps_boundPassed ?_ ..)
    | (with_reducible refine keeps_ite ?_ ?_)
    | (with_reducible refine xkeeps_next ?_)
    | (fail_if_no_progress beta_reduce)
    | (dsimp only [Keeps, part]; with_reducible refine keeps_of ?_; first | with_reducible assumption | (with_reducible refine keeps_tick ?_ ..) | (with_reducible refine keeps_boundPassed ?_ ..))
    | split
    | (refine keeps_ite ?_ ?_))

theorem keeps_railFaulted {s0 s : State} {n : Nat} (hK : Keeps s0 s) :
    Keeps s0 (State.railFaulted s n) := by
  unfold State.railFaulted
  repeat' (first
    | (with_reducible assumption)
    | (intro x; first | ((have hx : Keeps s0 x := ?_); (try clear_value x); rotate_left; dsimp -zeta only [x]; rotate_right) | ((have hx : Keeps s0 x.1 := ?_); (try clear_value x); rotate_left; dsimp -zeta only [x]; rotate_right) | ((have hx : Keeps s0 x.2 := ?_); (try clear_value x); rotate_left; dsimp -zeta only [x]; rotate_right) | (clear_value x) | skip)
    | lift_lets -underBinder
    | (with_reducible refine keeps_startDown ?_ ..)
    | (with_reducible refine keeps_failStep ?_ ..)
    | (with_reducible refine keeps_emergencyStop ?_ ..)
    | (with_reducible refine keeps_ite ?_ ?_)
    | (fail_if_no_progress beta_reduce)
    | (dsimp only [Keeps, part]; with_reducible refine keeps_of ?_; first | with_reducible assumption | (with_reducible refine keeps_startDown ?_ ..) | (with_reducible refine keeps_failStep ?_ ..) | (with_reducible refine keeps_emergencyStop ?_ ..))
    | split
    | (refine keeps_ite ?_ ?_))

theorem keeps_railMoved {s0 s : State} {n : Nat} {old : Nat} {new : Nat} (hK : Keeps s0 s) :
    Keeps s0 (State.railMoved s n old new) := by
  unfold State.railMoved
  repeat' (first
    | (with_reducible assumption)
    | (intro x; first | ((have hx : Keeps s0 x := ?_); (try clear_value x); rotate_left; dsimp -zeta only [x]; rotate_right) | ((have hx : Keeps s0 x.1 := ?_); (try clear_value x); rotate_left; dsimp -zeta only [x]; rotate_right) | ((have hx : Keeps s0 x.2 := ?_); (try clear_value x); rotate_left; dsimp -zeta only [x]; rotate_right) | (clear_value x) | skip)
    | lift_lets -underBinder
    | (with_reducible refine keeps_raise ?_ ..)
    | (with_reducible refine keeps_checkThrottling ?_ ..)
    | (with_reducible refine keeps_railFaulted ?_ ..)
    | (with_reducible refine keeps_ite ?_ ?_)
    | (fail_if_no_progress beta_reduce)
    | (dsimp only [Keeps, part]; with_reducible refine keeps_of ?_; first | with_reducible assumption | (with_reducible refine keeps_raise ?_ ..) | (with_reducible refine keeps_checkThrottling ?_ ..) | (with_reducible refine keeps_railFaulted ?_ ..))
    | split
    | (refine keeps_ite ?_ ?_))

theorem keeps_sampleRail {s0 s : State} {n : Nat} {mv : Nat} {faultBit : Bool} {j8 : Nat} (hK : Keeps s0 s) :
    Keeps s0 (State.sampleRail s n mv faultBit j8) := by
  unfold State.sampleRail
  repeat' (first
    | (with_reducible assumption)
    | (intro x; first | ((have hx : Keeps s0 x := ?_); (try clear_value x); rotate_left; dsimp -zeta only [x]; rotate_right) | ((have hx : Keeps s0 x.1 := ?_); (try clear_value x); rotate_left; dsimp -zeta only [x]; rotate_right) | ((have hx : Keeps s0 x.2 := ?_); (try clear_value x); rotate_left; dsimp -zeta only [x]; rotate_right) | (clear_value x) | skip)
    | lift_lets -underBinder
    | (with_reducible refine keeps_putRail ?_ ..)
    | (with_reducible refine keeps_railMoved ?_ ..)
    | (with_reducible refine keeps_ite ?_ ?_)
    | (fail_if_no_progress beta_reduce)
    | (dsimp only [Keeps, part]; with_reducible refine keeps_of ?_; first | with_reducible assumption | (with_reducible refine keeps_putRail ?_ ..) | (with_reducible refine keeps_railMoved ?_ ..))
    | split
    | (refine keeps_ite ?_ ?_))

theorem keeps_execRailSample {s0 s : State} {rail : Nat} {mv : Nat} {faultBit : Bool} {junction8 : Nat} {at_ : Nat} (hK : Keeps s0 s) :
    XKeeps s0 (execRailSample rail mv faultBit junction8 at_ s) := by
  unfold execRailSample
  repeat' (first
    | (with_reducible assumption)
    | (intro x; first | ((have hx : Keeps s0 x := ?_); (try clear_value x); rotate_left; dsimp -zeta only [x]; rotate_right) | ((have hx : Keeps s0 x.1 := ?_); (try clear_value x); rotate_left; dsimp -zeta only [x]; rotate_right) | ((have hx : Keeps s0 x.2 := ?_); (try clear_value x); rotate_left; dsimp -zeta only [x]; rotate_right) | (clear_value x) | skip)
    | lift_lets -underBinder
    | (with_reducible refine keeps_tick ?_ ..)
    | (with_reducible refine keeps_sampleRail ?_ ..)
    | (with_reducible refine keeps_ite ?_ ?_)
    | (with_reducible refine xkeeps_next ?_)
    | (fail_if_no_progress beta_reduce)
    | (dsimp only [Keeps, part]; with_reducible refine keeps_of ?_; first | with_reducible assumption | (with_reducible refine keeps_tick ?_ ..) | (with_reducible refine keeps_sampleRail ?_ ..))
    | split
    | (refine keeps_ite ?_ ?_))

theorem keeps_execThrottleEnd {s0 s : State} {at_ : Nat} (hK : Keeps s0 s) :
    XKeeps s0 (execThrottleEnd at_ s) := by
  unfold execThrottleEnd
  repeat' (first
    | (with_reducible assumption)
    | (intro x; first | ((have hx : Keeps s0 x := ?_); (try clear_value x); rotate_left; dsimp -zeta only [x]; rotate_right) | ((have hx : Keeps s0 x.1 := ?_); (try clear_value x); rotate_left; dsimp -zeta only [x]; rotate_right) | ((have hx : Keeps s0 x.2 := ?_); (try clear_value x); rotate_left; dsimp -zeta only [x]; rotate_right) | (clear_value x) | skip)
    | lift_lets -underBinder
    | (with_reducible refine keeps_tick ?_ ..)
    | (with_reducible refine keeps_ite ?_ ?_)
    | (with_reducible refine xkeeps_next ?_)
    | (fail_if_no_progress beta_reduce)
    | (dsimp only [Keeps, part]; with_reducible refine keeps_of ?_; first | with_reducible assumption | (with_reducible refine keeps_tick ?_ ..))
    | split
    | (refine keeps_ite ?_ ?_))

theorem keeps_checkStore {s0 s : State} (hK : Keeps s0 s) :
    Keeps s0 (State.checkStore s) := by
  unfold State.checkStore
  repeat' (first
    | (with_reducible assumption)
    | (intro x; first | ((have hx : Keeps s0 x := ?_); (try clear_value x); rotate_left; dsimp -zeta only [x]; rotate_right) | ((have hx : Keeps s0 x.1 := ?_); (try clear_value x); rotate_left; dsimp -zeta only [x]; rotate_right) | ((have hx : Keeps s0 x.2 := ?_); (try clear_value x); rotate_left; dsimp -zeta only [x]; rotate_right) | (clear_value x) | skip)
    | lift_lets -underBinder
    | (with_reducible refine keeps_raise ?_ ..)
    | (with_reducible refine keeps_budgetChanged ?_ ..)
    | (with_reducible refine keeps_settle ?_ ..)
    | (with_reducible refine keeps_ite ?_ ?_)
    | (fail_if_no_progress beta_reduce)
    | (dsimp only [Keeps, part]; with_reducible refine keeps_of ?_; first | with_reducible assumption | (with_reducible refine keeps_raise ?_ ..) | (with_reducible refine keeps_budgetChanged ?_ ..) | (with_reducible refine keeps_settle ?_ ..))
    | split
    | (refine keeps_ite ?_ ?_))

theorem keeps_execPfWarnChange {s0 s : State} {low : Bool} {at_ : Nat} (hK : Keeps s0 s) :
    XKeeps s0 (execPfWarnChange low at_ s) := by
  unfold execPfWarnChange
  repeat' (first
    | (with_reducible assumption)
    | (intro x; first | ((have hx : Keeps s0 x := ?_); (try clear_value x); rotate_left; dsimp -zeta only [x]; rotate_right) | ((have hx : Keeps s0 x.1 := ?_); (try clear_value x); rotate_left; dsimp -zeta only [x]; rotate_right) | ((have hx : Keeps s0 x.2 := ?_); (try clear_value x); rotate_left; dsimp -zeta only [x]; rotate_right) | (clear_value x) | skip)
    | lift_lets -underBinder
    | (with_reducible refine keeps_tick ?_ ..)
    | (with_reducible refine keeps_checkStore ?_ ..)
    | (with_reducible refine keeps_ite ?_ ?_)
    | (with_reducible refine xkeeps_next ?_)
    | (fail_if_no_progress beta_reduce)
    | (dsimp only [Keeps, part]; with_reducible refine keeps_of ?_; first | with_reducible assumption | (with_reducible refine keeps_tick ?_ ..) | (with_reducible refine keeps_checkStore ?_ ..))
    | split
    | (refine keeps_ite ?_ ?_))

theorem keeps_execPfFailChange {s0 s : State} {low : Bool} {at_ : Nat} (hK : Keeps s0 s) :
    XKeeps s0 (execPfFailChange low at_ s) := by
  unfold execPfFailChange
  repeat' (first
    | (with_reducible assumption)
    | (intro x; first | ((have hx : Keeps s0 x := ?_); (try clear_value x); rotate_left; dsimp -zeta only [x]; rotate_right) | ((have hx : Keeps s0 x.1 := ?_); (try clear_value x); rotate_left; dsimp -zeta only [x]; rotate_right) | ((have hx : Keeps s0 x.2 := ?_); (try clear_value x); rotate_left; dsimp -zeta only [x]; rotate_right) | (clear_value x) | skip)
    | lift_lets -underBinder
    | (with_reducible refine keeps_tick ?_ ..)
    | (with_reducible refine keeps_startDown ?_ ..)
    | (with_reducible refine keeps_upAbort ?_ ..)
    | (with_reducible refine keeps_checkStore ?_ ..)
    | (with_reducible refine keeps_ite ?_ ?_)
    | (with_reducible refine xkeeps_next ?_)
    | (fail_if_no_progress beta_reduce)
    | (dsimp only [Keeps, part]; with_reducible refine keeps_of ?_; first | with_reducible assumption | (with_reducible refine keeps_tick ?_ ..) | (with_reducible refine keeps_startDown ?_ ..) | (with_reducible refine keeps_upAbort ?_ ..) | (with_reducible refine keeps_checkStore ?_ ..))
    | split
    | (refine keeps_ite ?_ ?_))

theorem keeps_execSupplyGood {s0 s : State} {at_ : Nat} (hK : Keeps s0 s) :
    XKeeps s0 (execSupplyGood at_ s) := by
  unfold execSupplyGood
  repeat' (first
    | (with_reducible assumption)
    | (intro x; first | ((have hx : Keeps s0 x := ?_); (try clear_value x); rotate_left; dsimp -zeta only [x]; rotate_right) | ((have hx : Keeps s0 x.1 := ?_); (try clear_value x); rotate_left; dsimp -zeta only [x]; rotate_right) | ((have hx : Keeps s0 x.2 := ?_); (try clear_value x); rotate_left; dsimp -zeta only [x]; rotate_right) | (clear_value x) | skip)
    | lift_lets -underBinder
    | (with_reducible refine keeps_tick ?_ ..)
    | (with_reducible refine keeps_tryStart ?_ ..)
    | (with_reducible refine keeps_supplyReturn ?_ ..)
    | (with_reducible refine keeps_ite ?_ ?_)
    | (with_reducible refine xkeeps_next ?_)
    | (fail_if_no_progress beta_reduce)
    | (dsimp only [Keeps, part]; with_reducible refine keeps_of ?_; first | with_reducible assumption | (with_reducible refine keeps_tick ?_ ..) | (with_reducible refine keeps_tryStart ?_ ..) | (with_reducible refine keeps_supplyReturn ?_ ..))
    | split
    | (refine keeps_ite ?_ ?_))

theorem keeps_restartOff {s0 s : State} (hK : Keeps s0 s) :
    Keeps s0 (State.restartOff s) := by
  unfold State.restartOff
  repeat' (first
    | (with_reducible assumption)
    | (intro x; first | ((have hx : Keeps s0 x := ?_); (try clear_value x); rotate_left; dsimp -zeta only [x]; rotate_right) | ((have hx : Keeps s0 x.1 := ?_); (try clear_value x); rotate_left; dsimp -zeta only [x]; rotate_right) | ((have hx : Keeps s0 x.2 := ?_); (try clear_value x); rotate_left; dsimp -zeta only [x]; rotate_right) | (clear_value x) | skip)
    | lift_lets -underBinder
    | (with_reducible refine keeps_setCause ?_ ..)
    | (with_reducible refine keeps_ite ?_ ?_)
    | (fail_if_no_progress beta_reduce)
    | (dsimp only [Keeps, part]; with_reducible refine keeps_of ?_; first | with_reducible assumption | (with_reducible refine keeps_setCause ?_ ..))
    | split
    | (refine keeps_ite ?_ ?_))

theorem keeps_execPwrReqChange {s0 s : State} {high : Bool} {at_ : Nat} (hK : Keeps s0 s) :
    XKeeps s0 (execPwrReqChange high at_ s) := by
  unfold execPwrReqChange
  repeat' (first
    | (with_reducible assumption)
    | (intro x; first | ((have hx : Keeps s0 x := ?_); (try clear_value x); rotate_left; dsimp -zeta only [x]; rotate_right) | ((have hx : Keeps s0 x.1 := ?_); (try clear_value x); rotate_left; dsimp -zeta only [x]; rotate_right) | ((have hx : Keeps s0 x.2 := ?_); (try clear_value x); rotate_left; dsimp -zeta only [x]; rotate_right) | (clear_value x) | skip)
    | lift_lets -underBinder
    | (with_reducible refine keeps_tick ?_ ..)
    | (with_reducible refine keeps_startDown ?_ ..)
    | (with_reducible refine keeps_tryStart ?_ ..)
    | (with_reducible refine keeps_upAbort ?_ ..)
    | (with_reducible refine keeps_supplyReturn ?_ ..)
    | (with_reducible refine keeps_restartOff ?_ ..)
    | (with_reducible refine keeps_ite ?_ ?_)
    | (with_reducible refine xkeeps_next ?_)
    | (fail_if_no_progress beta_reduce)
    | (dsimp only [Keeps, part]; with_reducible refine keeps_of ?_; first | with_reducible assumption | (with_reducible refine keeps_tick ?_ ..) | (with_reducible refine keeps_startDown ?_ ..) | (with_reducible refine keeps_tryStart ?_ ..) | (with_reducible refine keeps_upAbort ?_ ..) | (with_reducible refine keeps_supplyReturn ?_ ..) | (with_reducible refine keeps_restartOff ?_ ..))
    | split
    | (refine keeps_ite ?_ ?_))

theorem keeps_execEnergyStorePoll {s0 s : State} {joules : Nat} {at_ : Nat} (hK : Keeps s0 s) :
    XKeeps s0 (execEnergyStorePoll joules at_ s) := by
  unfold execEnergyStorePoll
  repeat' (first
    | (with_reducible assumption)
    | (intro x; first | ((have hx : Keeps s0 x := ?_); (try clear_value x); rotate_left; dsimp -zeta only [x]; rotate_right) | ((have hx : Keeps s0 x.1 := ?_); (try clear_value x); rotate_left; dsimp -zeta only [x]; rotate_right) | ((have hx : Keeps s0 x.2 := ?_); (try clear_value x); rotate_left; dsimp -zeta only [x]; rotate_right) | (clear_value x) | skip)
    | lift_lets -underBinder
    | (with_reducible refine keeps_put ?_ ..)
    | (with_reducible refine keeps_tick ?_ ..)
    | (with_reducible refine keeps_budgetChanged ?_ ..)
    | (with_reducible refine keeps_settle ?_ ..)
    | (with_reducible refine keeps_ite ?_ ?_)
    | (with_reducible refine xkeeps_next ?_)
    | (fail_if_no_progress beta_reduce)
    | (dsimp only [Keeps, part]; with_reducible refine keeps_of ?_; first | with_reducible assumption | (with_reducible refine keeps_put ?_ ..) | (with_reducible refine keeps_tick ?_ ..) | (with_reducible refine keeps_budgetChanged ?_ ..) | (with_reducible refine keeps_settle ?_ ..))
    | split
    | (refine keeps_ite ?_ ?_))

theorem keeps_execSysclkLoss {s0 s : State} {at_ : Nat} (hK : Keeps s0 s) :
    XKeeps s0 (execSysclkLoss at_ s) := by
  unfold execSysclkLoss
  repeat' (first
    | (with_reducible assumption)
    | (intro x; first | ((have hx : Keeps s0 x := ?_); (try clear_value x); rotate_left; dsimp -zeta only [x]; rotate_right) | ((have hx : Keeps s0 x.1 := ?_); (try clear_value x); rotate_left; dsimp -zeta only [x]; rotate_right) | ((have hx : Keeps s0 x.2 := ?_); (try clear_value x); rotate_left; dsimp -zeta only [x]; rotate_right) | ((have hf : x.dt = x.dt := rfl); clear hf; dsimp -zeta only [x]) | ((have hf : x.floor = x.floor := rfl); clear hf; dsimp -zeta only [x]) | (clear_value x) | skip)
    | lift_lets -underBinder
    | (with_reducible refine keeps_tick ?_ ..)
    | (with_reducible refine keeps_raise ?_ ..)
    | (with_reducible refine keeps_startDown ?_ ..)
    | (with_reducible refine keeps_failStep ?_ ..)
    | (with_reducible refine keeps_foldl (fun s x hK => ?_) ?_)
    | (with_reducible refine keeps_foldl_fst (fun s x hK => ?_) ?_)
    | (refine keeps_foldl_eq (by assumption) (fun s x hK => ?_) ?_)
    | (with_reducible refine keeps_ite ?_ ?_)
    | (with_reducible refine xkeeps_next ?_)
    | (fail_if_no_progress beta_reduce)
    | (dsimp only [Keeps, part]; with_reducible refine keeps_of ?_; first | with_reducible assumption | (with_reducible refine keeps_tick ?_ ..) | (with_reducible refine keeps_raise ?_ ..) | (with_reducible refine keeps_startDown ?_ ..) | (with_reducible refine keeps_failStep ?_ ..) | (refine keeps_foldl_eq (by assumption) (fun s x hK => ?_) ?_))
    | split
    | (refine keeps_ite ?_ ?_))

end Sys2Proof.Laws
end

