-- ==== Sys2Proof/Laws/KeepsJtag.lean ====
section
/-! SUPPORT. Every operation of Machine/Jtag.lean keeps what Laws/Keeps.lean says. -/

set_option linter.unusedTactic false
set_option linter.unreachableTactic false
set_option linter.unusedVariables false

namespace Sys2Proof.Laws

open Sys2Proof Machine

theorem keeps_setIr {s0 s : State} {ir : TapIr} (hK : Keeps s0 s) :
    Keeps s0 (State.setIr s ir) := by
  unfold State.setIr
  repeat' (first
    | (with_reducible assumption)
    | (intro x; first | ((have hx : Keeps s0 x := ?_); (try clear_value x); rotate_left; dsimp -zeta only [x]; rotate_right) | ((have hx : Keeps s0 x.1 := ?_); (try clear_value x); rotate_left; dsimp -zeta only [x]; rotate_right) | ((have hx : Keeps s0 x.2 := ?_); (try clear_value x); rotate_left; dsimp -zeta only [x]; rotate_right) | (clear_value x) | skip)
    | lift_lets -underBinder
    | (with_reducible refine keeps_switchRail ?_ ..)
    | (with_reducible refine keeps_ite ?_ ?_)
    | (fail_if_no_progress beta_reduce)
    | (dsimp only [Keeps, part]; with_reducible refine keeps_of ?_; first | with_reducible assumption | (with_reducible refine keeps_switchRail ?_ ..))
    | split
    | (refine keeps_ite ?_ ?_))

theorem keeps_scanBypass {s0 s : State} {ir : TapIr} (hK : Keeps s0 s) :
    Keeps s0 (State.scanBypass s ir) := by
  unfold State.scanBypass
  repeat' (first
    | (with_reducible assumption)
    | (intro x; first | ((have hx : Keeps s0 x := ?_); (try clear_value x); rotate_left; dsimp -zeta only [x]; rotate_right) | ((have hx : Keeps s0 x.1 := ?_); (try clear_value x); rotate_left; dsimp -zeta only [x]; rotate_right) | ((have hx : Keeps s0 x.2 := ?_); (try clear_value x); rotate_left; dsimp -zeta only [x]; rotate_right) | (clear_value x) | skip)
    | lift_lets -underBinder
    | (with_reducible refine keeps_emit ?_ ..)
    | (with_reducible refine keeps_setIr ?_ ..)
    | (with_reducible refine keeps_ite ?_ ?_)
    | (fail_if_no_progress beta_reduce)
    | (dsimp only [Keeps, part]; with_reducible refine keeps_of ?_; first | with_reducible assumption | (with_reducible refine keeps_emit ?_ ..) | (with_reducible refine keeps_setIr ?_ ..))
    | split
    | (refine keeps_ite ?_ ?_))

theorem keeps_scanBoundary {s0 s : State} {ir : TapIr} {code : Nat} {pins : Bsr} {shift : Bsr} (hK : Keeps s0 s) :
    Keeps s0 (State.scanBoundary s ir code pins shift) := by
  unfold State.scanBoundary
  repeat' (first
    | (with_reducible assumption)
    | (intro x; first | ((have hx : Keeps s0 x := ?_); (try clear_value x); rotate_left; dsimp -zeta only [x]; rotate_right) | ((have hx : Keeps s0 x.1 := ?_); (try clear_value x); rotate_left; dsimp -zeta only [x]; rotate_right) | ((have hx : Keeps s0 x.2 := ?_); (try clear_value x); rotate_left; dsimp -zeta only [x]; rotate_right) | (clear_value x) | skip)
    | lift_lets -underBinder
    | (with_reducible refine keeps_emit ?_ ..)
    | (with_reducible refine keeps_setIr ?_ ..)
    | (with_reducible refine keeps_ite ?_ ?_)
    | (fail_if_no_progress beta_reduce)
    | (dsimp only [Keeps, part]; with_reducible refine keeps_of ?_; first | with_reducible assumption | (with_reducible refine keeps_emit ?_ ..) | (with_reducible refine keeps_setIr ?_ ..))
    | split
    | (refine keeps_ite ?_ ?_))

theorem keeps_boardOnly {s0 s : State} {act : State → State} (hK : Keeps s0 s) (hact : ∀ t, Keeps s0 t → Keeps s0 (act t)) :
    Keeps s0 (State.boardOnly s act) := by
  unfold State.boardOnly
  repeat' (first
    | (with_reducible assumption)
    | (intro x; first | ((have hx : Keeps s0 x := ?_); (try clear_value x); rotate_left; dsimp -zeta only [x]; rotate_right) | ((have hx : Keeps s0 x.1 := ?_); (try clear_value x); rotate_left; dsimp -zeta only [x]; rotate_right) | ((have hx : Keeps s0 x.2 := ?_); (try clear_value x); rotate_left; dsimp -zeta only [x]; rotate_right) | (clear_value x) | skip)
    | lift_lets -underBinder
    | (with_reducible refine hact _ _ _ ?_)
    | (with_reducible refine hact _ ?_)
    | (with_reducible refine hact _ _ ?_)
    | (with_reducible refine keeps_scanBypass ?_ ..)
    | (with_reducible refine keeps_ite ?_ ?_)
    | (fail_if_no_progress beta_reduce)
    | (dsimp only [Keeps, part]; with_reducible refine keeps_of ?_; first | with_reducible assumption | (with_reducible refine keeps_scanBypass ?_ ..))
    | split
    | (refine keeps_ite ?_ ?_))

theorem keeps_execBypass {s0 s : State} (hK : Keeps s0 s) :
    XKeeps s0 (execBypass s) := by
  unfold execBypass
  repeat' (first
    | (with_reducible assumption)
    | (intro x; first | ((have hx : Keeps s0 x := ?_); (try clear_value x); rotate_left; dsimp -zeta only [x]; rotate_right) | ((have hx : Keeps s0 x.1 := ?_); (try clear_value x); rotate_left; dsimp -zeta only [x]; rotate_right) | ((have hx : Keeps s0 x.2 := ?_); (try clear_value x); rotate_left; dsimp -zeta only [x]; rotate_right) | (clear_value x) | skip)
    | lift_lets -underBinder
    | (with_reducible refine keeps_scanBypass ?_ ..)
    | (with_reducible refine keeps_ite ?_ ?_)
    | (with_reducible refine xkeeps_next ?_)
    | (fail_if_no_progress beta_reduce)
    | (dsimp only [Keeps, part]; with_reducible refine keeps_of ?_; first | with_reducible assumption | (with_reducible refine keeps_scanBypass ?_ ..))
    | split
    | (refine keeps_ite ?_ ?_))

theorem keeps_execIdcode {s0 s : State} (hK : Keeps s0 s) :
    XKeeps s0 (execIdcode s) := by
  unfold execIdcode
  repeat' (first
    | (with_reducible assumption)
    | (intro x; first | ((have hx : Keeps s0 x := ?_); (try clear_value x); rotate_left; dsimp -zeta only [x]; rotate_right) | ((have hx : Keeps s0 x.1 := ?_); (try clear_value x); rotate_left; dsimp -zeta only [x]; rotate_right) | ((have hx : Keeps s0 x.2 := ?_); (try clear_value x); rotate_left; dsimp -zeta only [x]; rotate_right) | (clear_value x) | skip)
    | lift_lets -underBinder
    | (with_reducible refine keeps_emit ?_ ..)
    | (with_reducible refine keeps_setIr ?_ ..)
    | (with_reducible refine keeps_ite ?_ ?_)
    | (with_reducible refine xkeeps_next ?_)
    | (fail_if_no_progress beta_reduce)
    | (dsimp only [Keeps, part]; with_reducible refine keeps_of ?_; first | with_reducible assumption | (with_reducible refine keeps_emit ?_ ..) | (with_reducible refine keeps_setIr ?_ ..))
    | split
    | (refine keeps_ite ?_ ?_))

theorem keeps_execSamplePreload {s0 s : State} {pins : Bsr} {preload : Bsr} (hK : Keeps s0 s) :
    XKeeps s0 (execSamplePreload pins preload s) := by
  unfold execSamplePreload
  repeat' (first
    | (with_reducible assumption)
    | (intro x; first | ((have hx : Keeps s0 x := ?_); (try clear_value x); rotate_left; dsimp -zeta only [x]; rotate_right) | ((have hx : Keeps s0 x.1 := ?_); (try clear_value x); rotate_left; dsimp -zeta only [x]; rotate_right) | ((have hx : Keeps s0 x.2 := ?_); (try clear_value x); rotate_left; dsimp -zeta only [x]; rotate_right) | (clear_value x) | skip)
    | lift_lets -underBinder
    | (with_reducible refine keeps_scanBoundary ?_ ..)
    | (with_reducible refine keeps_ite ?_ ?_)
    | (with_reducible refine xkeeps_next ?_)
    | (fail_if_no_progress beta_reduce)
    | (dsimp only [Keeps, part]; with_reducible refine keeps_of ?_; first | with_reducible assumption | (with_reducible refine keeps_scanBoundary ?_ ..))
    | split
    | (refine keeps_ite ?_ ?_))

theorem keeps_execExtest {s0 s : State} {pins : Bsr} {shift : Bsr} (hK : Keeps s0 s) :
    XKeeps s0 (execExtest pins shift s) := by
  unfold execExtest
  repeat' (first
    | (with_reducible assumption)
    | (intro x; first | ((have hx : Keeps s0 x := ?_); (try clear_value x); rotate_left; dsimp -zeta only [x]; rotate_right) | ((have hx : Keeps s0 x.1 := ?_); (try clear_value x); rotate_left; dsimp -zeta only [x]; rotate_right) | ((have hx : Keeps s0 x.2 := ?_); (try clear_value x); rotate_left; dsimp -zeta only [x]; rotate_right) | (clear_value x) | skip)
    | lift_lets -underBinder
    | (with_reducible refine keeps_scanBoundary ?_ ..)
    | (with_reducible refine keeps_boardOnly ?_ ?_ ..)
    | (with_reducible refine keeps_ite ?_ ?_)
    | (with_reducible refine xkeeps_next ?_)
    | (fail_if_no_progress beta_reduce)
    | (dsimp only [Keeps, part]; with_reducible refine keeps_of ?_; first | with_reducible assumption | (with_reducible refine keeps_scanBoundary ?_ ..) | (with_reducible refine keeps_boardOnly ?_ ?_ ..))
    | split
    | (refine keeps_ite ?_ ?_))

theorem keeps_execClamp {s0 s : State} (hK : Keeps s0 s) :
    XKeeps s0 (execClamp s) := by
  unfold execClamp
  repeat' (first
    | (with_reducible assumption)
    | (intro x; first | ((have hx : Keeps s0 x := ?_); (try clear_value x); rotate_left; dsimp -zeta only [x]; rotate_right) | ((have hx : Keeps s0 x.1 := ?_); (try clear_value x); rotate_left; dsimp -zeta only [x]; rotate_right) | ((have hx : Keeps s0 x.2 := ?_); (try clear_value x); rotate_left; dsimp -zeta only [x]; rotate_right) | (clear_value x) | skip)
    | lift_lets -underBinder
    | (with_reducible refine keeps_scanBypass ?_ ..)
    | (with_reducible refine keeps_boardOnly ?_ ?_ ..)
    | (with_reducible refine keeps_ite ?_ ?_)
    | (with_reducible refine xkeeps_next ?_)
    | (fail_if_no_progress beta_reduce)
    | (dsimp only [Keeps, part]; with_reducible refine keeps_of ?_; first | with_reducible assumption | (with_reducible refine keeps_scanBypass ?_ ..) | (with_reducible refine keeps_boardOnly ?_ ?_ ..))
    | split
    | (refine keeps_ite ?_ ?_))

theorem keeps_execHighz {s0 s : State} (hK : Keeps s0 s) :
    XKeeps s0 (execHighz s) := by
  unfold execHighz
  repeat' (first
    | (with_reducible assumption)
    | (intro x; first | ((have hx : Keeps s0 x := ?_); (try clear_value x); rotate_left; dsimp -zeta only [x]; rotate_right) | ((have hx : Keeps s0 x.1 := ?_); (try clear_value x); rotate_left; dsimp -zeta only [x]; rotate_right) | ((have hx : Keeps s0 x.2 := ?_); (try clear_value x); rotate_left; dsimp -zeta only [x]; rotate_right) | (clear_value x) | skip)
    | lift_lets -underBinder
    | (with_reducible refine keeps_scanBypass ?_ ..)
    | (with_reducible refine keeps_boardOnly ?_ ?_ ..)
    | (with_reducible refine keeps_ite ?_ ?_)
    | (with_reducible refine xkeeps_next ?_)
    | (fail_if_no_progress beta_reduce)
    | (dsimp only [Keeps, part]; with_reducible refine keeps_of ?_; first | with_reducible assumption | (with_reducible refine keeps_scanBypass ?_ ..) | (with_reducible refine keeps_boardOnly ?_ ?_ ..))
    | split
    | (refine keeps_ite ?_ ?_))

theorem keeps_execExtestPulse {s0 s : State} {shift : Bsr} (hK : Keeps s0 s) :
    XKeeps s0 (execExtestPulse shift s) := by
  unfold execExtestPulse
  repeat' (first
    | (with_reducible assumption)
    | (intro x; first | ((have hx : Keeps s0 x := ?_); (try clear_value x); rotate_left; dsimp -zeta only [x]; rotate_right) | ((have hx : Keeps s0 x.1 := ?_); (try clear_value x); rotate_left; dsimp -zeta only [x]; rotate_right) | ((have hx : Keeps s0 x.2 := ?_); (try clear_value x); rotate_left; dsimp -zeta only [x]; rotate_right) | (clear_value x) | skip)
    | lift_lets -underBinder
    | (with_reducible refine keeps_setIr ?_ ..)
    | (with_reducible refine keeps_boardOnly ?_ ?_ ..)
    | (with_reducible refine keeps_ite ?_ ?_)
    | (with_reducible refine xkeeps_next ?_)
    | (fail_if_no_progress beta_reduce)
    | (dsimp only [Keeps, part]; with_reducible refine keeps_of ?_; first | with_reducible assumption | (with_reducible refine keeps_setIr ?_ ..) | (with_reducible refine keeps_boardOnly ?_ ?_ ..))
    | split
    | (refine keeps_ite ?_ ?_))

theorem keeps_execExtestTrain {s0 s : State} {shift : Bsr} (hK : Keeps s0 s) :
    XKeeps s0 (execExtestTrain shift s) := by
  unfold execExtestTrain
  repeat' (first
    | (with_reducible assumption)
    | (intro x; first | ((have hx : Keeps s0 x := ?_); (try clear_value x); rotate_left; dsimp -zeta only [x]; rotate_right) | ((have hx : Keeps s0 x.1 := ?_); (try clear_value x); rotate_left; dsimp -zeta only [x]; rotate_right) | ((have hx : Keeps s0 x.2 := ?_); (try clear_value x); rotate_left; dsimp -zeta only [x]; rotate_right) | (clear_value x) | skip)
    | lift_lets -underBinder
    | (with_reducible refine keeps_setIr ?_ ..)
    | (with_reducible refine keeps_boardOnly ?_ ?_ ..)
    | (with_reducible refine keeps_ite ?_ ?_)
    | (with_reducible refine xkeeps_next ?_)
    | (fail_if_no_progress beta_reduce)
    | (dsimp only [Keeps, part]; with_reducible refine keeps_of ?_; first | with_reducible assumption | (with_reducible refine keeps_setIr ?_ ..) | (with_reducible refine keeps_boardOnly ?_ ?_ ..))
    | split
    | (refine keeps_ite ?_ ?_))

theorem keeps_execEnvmRead {s0 s : State} {addr : Nat} {health : Bool} {at_ : Nat} (hK : Keeps s0 s) :
    XKeeps s0 (execEnvmRead addr health at_ s) := by
  unfold execEnvmRead
  repeat' (first
    | (with_reducible assumption)
    | (intro x; first | ((have hx : Keeps s0 x := ?_); (try clear_value x); rotate_left; dsimp -zeta only [x]; rotate_right) | ((have hx : Keeps s0 x.1 := ?_); (try clear_value x); rotate_left; dsimp -zeta only [x]; rotate_right) | ((have hx : Keeps s0 x.2 := ?_); (try clear_value x); rotate_left; dsimp -zeta only [x]; rotate_right) | (clear_value x) | skip)
    | lift_lets -underBinder
    | (with_reducible refine keeps_emit ?_ ..)
    | (with_reducible refine keeps_tick ?_ ..)
    | (with_reducible refine keeps_health ?_ ..)
    | (with_reducible refine keeps_switchRail ?_ ..)
    | (with_reducible refine keeps_setIr ?_ ..)
    | (with_reducible refine keeps_ite ?_ ?_)
    | (with_reducible refine xkeeps_next ?_)
    | (fail_if_no_progress beta_reduce)
    | (dsimp only [Keeps, part]; with_reducible refine keeps_of ?_; first | with_reducible assumption | (with_reducible refine keeps_emit ?_ ..) | (with_reducible refine keeps_tick ?_ ..) | (with_reducible refine keeps_health ?_ ..) | (with_reducible refine keeps_switchRail ?_ ..) | (with_reducible refine keeps_setIr ?_ ..))
    | split
    | (refine keeps_ite ?_ ?_))

theorem keeps_execEnvmReadDone {s0 s : State} {at_ : Nat} (hK : Keeps s0 s) :
    XKeeps s0 (execEnvmReadDone at_ s) := by
  unfold execEnvmReadDone
  repeat' (first
    | (with_reducible assumption)
    | (intro x; first | ((have hx : Keeps s0 x := ?_); (try clear_value x); rotate_left; dsimp -zeta only [x]; rotate_right) | ((have hx : Keeps s0 x.1 := ?_); (try clear_value x); rotate_left; dsimp -zeta only [x]; rotate_right) | ((have hx : Keeps s0 x.2 := ?_); (try clear_value x); rotate_left; dsimp -zeta only [x]; rotate_right) | (clear_value x) | skip)
    | lift_lets -underBinder
    | (with_reducible refine keeps_tick ?_ ..)
    | (with_reducible refine keeps_health ?_ ..)
    | (with_reducible refine keeps_ite ?_ ?_)
    | (with_reducible refine xkeeps_next ?_)
    | (fail_if_no_progress beta_reduce)
    | (dsimp only [Keeps, part]; with_reducible refine keeps_of ?_; first | with_reducible assumption | (with_reducible refine keeps_tick ?_ ..) | (with_reducible refine keeps_health ?_ ..))
    | split
    | (refine keeps_ite ?_ ?_))

theorem keeps_execOtpKeyhash {s0 s : State} {customer : Bool} {hash : BitVec 384} (hK : Keeps s0 s) :
    XKeeps s0 (execOtpKeyhash customer hash s) := by
  unfold execOtpKeyhash
  have h1 : Keeps s0 (s.setIr .otp) := keeps_setIr hK ..
  generalize s.setIr .otp = t at h1 ⊢
  refine xkeeps_next (keeps_ite h1 (keeps_ite ?_ ?_))
  · exact keeps_step h1 { part_refl (part t) with
      otp := { otp_refl t.otp with cust := fun _ e => by dsimp only [part] at e ⊢; rw [e] } }
  · exact keeps_step h1 { part_refl (part t) with
      otp := { otp_refl t.otp with gw := fun _ e => by dsimp only [part] at e ⊢; rw [e] } }

end Sys2Proof.Laws
end

