-- ==== Sys2Proof/Laws/KeepsRegWrite.lean ====
section
/-! SUPPORT. Every operation of Machine/RegWrite.lean keeps what Laws/Keeps.lean says. -/

set_option linter.unusedTactic false
set_option linter.unreachableTactic false
set_option linter.unusedVariables false

namespace Sys2Proof.Laws

open Sys2Proof Machine

theorem keeps_writeCmd {s0 s : State} {via : Via} {r : Reg} {i : Nat} {w : AccW} {v : Word} {op : FieldRef} {run : Nat → State → State} (hK : Keeps s0 s) (hrun : ∀ x0 t, Keeps s0 t → Keeps s0 (run x0 t)) :
    Keeps s0 (State.writeCmd s via r i w v op run) := by
  unfold State.writeCmd
  repeat' (first
    | (with_reducible assumption)
    | (intro x; first | ((have hx : Keeps s0 x := ?_); (try clear_value x); rotate_left; dsimp -zeta only [x]; rotate_right) | ((have hx : Keeps s0 x.1 := ?_); (try clear_value x); rotate_left; dsimp -zeta only [x]; rotate_right) | ((have hx : Keeps s0 x.2 := ?_); (try clear_value x); rotate_left; dsimp -zeta only [x]; rotate_right) | (clear_value x) | skip)
    | lift_lets -underBinder
    | (with_reducible refine hrun _ _ _ ?_)
    | (with_reducible refine hrun _ ?_)
    | (with_reducible refine hrun _ _ ?_)
    | (with_reducible refine keeps_writeFields ?_ ..)
    | (with_reducible refine keeps_writeAt ?_ ?_ ..)
    | (with_reducible refine keeps_ite ?_ ?_)
    | (fail_if_no_progress beta_reduce)
    | (dsimp only [Keeps, part]; with_reducible refine keeps_of ?_; first | with_reducible assumption | (with_reducible refine keeps_writeFields ?_ ..) | (with_reducible refine keeps_writeAt ?_ ?_ ..))
    | split
    | (refine keeps_ite ?_ ?_))

theorem keeps_isGo {s0 s : State} {op : Nat} (hK : Keeps s0 s) :
    Keeps s0 (State.isGo s op) := by
  unfold State.isGo
  repeat' (first
    | (with_reducible assumption)
    | (intro x; first | ((have hx : Keeps s0 x := ?_); (try clear_value x); rotate_left; dsimp -zeta only [x]; rotate_right) | ((have hx : Keeps s0 x.1 := ?_); (try clear_value x); rotate_left; dsimp -zeta only [x]; rotate_right) | ((have hx : Keeps s0 x.2 := ?_); (try clear_value x); rotate_left; dsimp -zeta only [x]; rotate_right) | (clear_value x) | skip)
    | lift_lets -underBinder
    | (with_reducible refine keeps_nextFree ?_ ..)
    | (refine keeps_nextFree_eq (by assumption) ?_)
    | (with_reducible refine keeps_isRun ?_ ..)
    | (with_reducible refine keeps_ite ?_ ?_)
    | (fail_if_no_progress beta_reduce)
    | (dsimp only [Keeps, part]; with_reducible refine keeps_of ?_; first | with_reducible assumption | (with_reducible refine keeps_nextFree ?_ ..) | (refine keeps_nextFree_eq (by assumption) ?_) | (with_reducible refine keeps_isRun ?_ ..))
    | split
    | (refine keeps_ite ?_ ?_))

theorem keeps_ptGo {s0 s : State} {p : Nat} {op : Nat} (hK : Keeps s0 s) :
    Keeps s0 (State.ptGo s p op) := by
  unfold State.ptGo
  repeat' (first
    | (with_reducible assumption)
    | (intro x; first | ((have hx : Keeps s0 x := ?_); (try clear_value x); rotate_left; dsimp -zeta only [x]; rotate_right) | ((have hx : Keeps s0 x.1 := ?_); (try clear_value x); rotate_left; dsimp -zeta only [x]; rotate_right) | ((have hx : Keeps s0 x.2 := ?_); (try clear_value x); rotate_left; dsimp -zeta only [x]; rotate_right) | (clear_value x) | skip)
    | lift_lets -underBinder
    | (with_reducible refine keeps_nextFree ?_ ..)
    | (refine keeps_nextFree_eq (by assumption) ?_)
    | (with_reducible refine keeps_ptRun ?_ ..)
    | (with_reducible refine keeps_ite ?_ ?_)
    | (fail_if_no_progress beta_reduce)
    | (dsimp only [Keeps, part]; with_reducible refine keeps_of ?_; first | with_reducible assumption | (with_reducible refine keeps_nextFree ?_ ..) | (refine keeps_nextFree_eq (by assumption) ?_) | (with_reducible refine keeps_ptRun ?_ ..))
    | split
    | (refine keeps_ite ?_ ?_))

theorem keeps_trainGo {s0 s : State} {via : Via} {ch : Nat} {w : AccW} {v : Word} (hK : Keeps s0 s) :
    Keeps s0 (State.trainGo s via ch w v) := by
  unfold State.trainGo
  repeat' (first
    | (with_reducible assumption)
    | (intro x; first | ((have hx : Keeps s0 x := ?_); (try clear_value x); rotate_left; dsimp -zeta only [x]; rotate_right) | ((have hx : Keeps s0 x.1 := ?_); (try clear_value x); rotate_left; dsimp -zeta only [x]; rotate_right) | ((have hx : Keeps s0 x.2 := ?_); (try clear_value x); rotate_left; dsimp -zeta only [x]; rotate_right) | (clear_value x) | skip)
    | lift_lets -underBinder
    | (with_reducible refine keeps_nextFree ?_ ..)
    | (refine keeps_nextFree_eq (by assumption) ?_)
    | (with_reducible refine keeps_writePlain ?_ ..)
    | (with_reducible refine keeps_writeTrain ?_ ..)
    | (with_reducible refine keeps_ite ?_ ?_)
    | (fail_if_no_progress beta_reduce)
    | (dsimp only [Keeps, part]; with_reducible refine keeps_of ?_; first | with_reducible assumption | (with_reducible refine keeps_nextFree ?_ ..) | (refine keeps_nextFree_eq (by assumption) ?_) | (with_reducible refine keeps_writePlain ?_ ..) | (with_reducible refine keeps_writeTrain ?_ ..))
    | split
    | (refine keeps_ite ?_ ?_))

theorem keeps_pprGo {s0 s : State} {via : Via} {ch : Nat} {w : AccW} {v : Word} (hK : Keeps s0 s) :
    Keeps s0 (State.pprGo s via ch w v) := by
  unfold State.pprGo
  repeat' (first
    | (with_reducible assumption)
    | (intro x; first | ((have hx : Keeps s0 x := ?_); (try clear_value x); rotate_left; dsimp -zeta only [x]; rotate_right) | ((have hx : Keeps s0 x.1 := ?_); (try clear_value x); rotate_left; dsimp -zeta only [x]; rotate_right) | ((have hx : Keeps s0 x.2 := ?_); (try clear_value x); rotate_left; dsimp -zeta only [x]; rotate_right) | (clear_value x) | skip)
    | lift_lets -underBinder
    | (with_reducible refine keeps_nextFree ?_ ..)
    | (refine keeps_nextFree_eq (by assumption) ?_)
    | (with_reducible refine keeps_writePlain ?_ ..)
    | (with_reducible refine keeps_writePpr ?_ ..)
    | (with_reducible refine keeps_ite ?_ ?_)
    | (fail_if_no_progress beta_reduce)
    | (dsimp only [Keeps, part]; with_reducible refine keeps_of ?_; first | with_reducible assumption | (with_reducible refine keeps_nextFree ?_ ..) | (refine keeps_nextFree_eq (by assumption) ?_) | (with_reducible refine keeps_writePlain ?_ ..) | (with_reducible refine keeps_writePpr ?_ ..))
    | split
    | (refine keeps_ite ?_ ?_))

theorem keeps_writeReg {s0 s : State} {via : Via} {r : Reg} {i : Nat} {w : AccW} {v : Word} (hK : Keeps s0 s) :
    Keeps s0 (State.writeReg s via r i w v) := by
  unfold State.writeReg
  repeat' (first
    | (with_reducible assumption)
    | (intro x; first | ((have hx : Keeps s0 x := ?_); (try clear_value x); rotate_left; dsimp -zeta only [x]; rotate_right) | ((have hx : Keeps s0 x.1 := ?_); (try clear_value x); rotate_left; dsimp -zeta only [x]; rotate_right) | ((have hx : Keeps s0 x.2 := ?_); (try clear_value x); rotate_left; dsimp -zeta only [x]; rotate_right) | (clear_value x) | skip)
    | lift_lets -underBinder
    | (with_reducible refine keeps_checkBudget ?_ ..)
    | (with_reducible refine keeps_checkDemotion ?_ ..)
    | (with_reducible refine keeps_settle ?_ ..)
    | (with_reducible refine keeps_writeFields ?_ ..)
    | (with_reducible refine keeps_writeAt ?_ ?_ ..)
    | (with_reducible refine keeps_writePlain ?_ ..)
    | (with_reducible refine keeps_writeQuota ?_ ..)
    | (with_reducible refine keeps_reshapeRun ?_ ..)
    | (with_reducible refine keeps_writeBudget ?_ ..)
    | (with_reducible refine keeps_writeEnergy ?_ ..)
    | (with_reducible refine keeps_writePersist ?_ ..)
    | (with_reducible refine keeps_startBl ?_ ..)
    | (with_reducible refine keeps_writeRotate ?_ ..)
    | (with_reducible refine keeps_twRun ?_ ..)
    | (with_reducible refine keeps_writeWays ?_ ..)
    | (with_reducible refine keeps_writeSeed ?_ ..)
    | (with_reducible refine keeps_writeFull ?_ ..)
    | (with_reducible refine keeps_startQu ?_ ..)
    | (with_reducible refine keeps_writeBoot ?_ ..)
    | (with_reducible refine keeps_xtRun ?_ ..)
    | (with_reducible refine keeps_writeHead ?_ ..)
    | (with_reducible refine keeps_writeCmd ?_ ?_ ..)
    | (with_reducible refine keeps_isGo ?_ ..)
    | (with_reducible refine keeps_ptGo ?_ ..)
    | (with_reducible refine keeps_trainGo ?_ ..)
    | (with_reducible refine keeps_pprGo ?_ ..)
    | (with_reducible refine keeps_ite ?_ ?_)
    | (fail_if_no_progress beta_reduce)
    | (dsimp only [Keeps, part]; with_reducible refine keeps_of ?_; first | with_reducible assumption | (with_reducible refine keeps_checkBudget ?_ ..) | (with_reducible refine keeps_checkDemotion ?_ ..) | (with_reducible refine keeps_settle ?_ ..) | (with_reducible refine keeps_writeFields ?_ ..) | (with_reducible refine keeps_writeAt ?_ ?_ ..) | (with_reducible refine keeps_writePlain ?_ ..) | (with_reducible refine keeps_writeQuota ?_ ..) | (with_reducible refine keeps_reshapeRun ?_ ..) | (with_reducible refine keeps_writeBudget ?_ ..) | (with_reducible refine keeps_writeEnergy ?_ ..) | (with_reducible refine keeps_writePersist ?_ ..) | (with_reducible refine keeps_startBl ?_ ..) | (with_reducible refine keeps_writeRotate ?_ ..) | (with_reducible refine keeps_twRun ?_ ..) | (with_reducible refine keeps_writeWays ?_ ..) | (with_reducible refine keeps_writeSeed ?_ ..) | (with_reducible refine keeps_writeFull ?_ ..) | (with_reducible refine keeps_startQu ?_ ..) | (with_reducible refine keeps_writeBoot ?_ ..) | (with_reducible refine keeps_xtRun ?_ ..) | (with_reducible refine keeps_writeHead ?_ ..) | (with_reducible refine keeps_writeCmd ?_ ?_ ..) | (with_reducible refine keeps_isGo ?_ ..) | (with_reducible refine keeps_ptGo ?_ ..) | (with_reducible refine keeps_trainGo ?_ ..) | (with_reducible refine keeps_pprGo ?_ ..))
    | split
    | (refine keeps_ite ?_ ?_))

theorem keeps_writeReserved {s0 s : State} {via : Via} {off : Nat} {w : AccW} {v : Word} (hK : Keeps s0 s) :
    Keeps s0 (State.writeReserved s via off w v) := by
  unfold State.writeReserved
  repeat' (first
    | (with_reducible assumption)
    | (intro x; first | ((have hx : Keeps s0 x := ?_); (try clear_value x); rotate_left; dsimp -zeta only [x]; rotate_right) | ((have hx : Keeps s0 x.1 := ?_); (try clear_value x); rotate_left; dsimp -zeta only [x]; rotate_right) | ((have hx : Keeps s0 x.2 := ?_); (try clear_value x); rotate_left; dsimp -zeta only [x]; rotate_right) | (clear_value x) | skip)
    | lift_lets -underBinder
    | (with_reducible refine keeps_serve ?_ ..)
    | (with_reducible refine keeps_flagAccess ?_ ..)
    | (refine keeps_admit_drop (by assumption) ?_)
    | (refine keeps_admit_serve (by assumption) ?_)
    | (with_reducible refine keeps_ite ?_ ?_)
    | (fail_if_no_progress beta_reduce)
    | (dsimp only [Keeps, part]; with_reducible refine keeps_of ?_; first | with_reducible assumption | (with_reducible refine keeps_serve ?_ ..) | (with_reducible refine keeps_flagAccess ?_ ..) | (refine keeps_admit_drop (by assumption) ?_) | (refine keeps_admit_serve (by assumption) ?_))
    | split
    | (refine keeps_ite ?_ ?_))

theorem keeps_badAccess {s0 s : State} {via : Via} {off : Nat} {write : Bool} (hK : Keeps s0 s) :
    Keeps s0 (State.badAccess s via off write) := by
  unfold State.badAccess
  repeat' (first
    | (with_reducible assumption)
    | (intro x; first | ((have hx : Keeps s0 x := ?_); (try clear_value x); rotate_left; dsimp -zeta only [x]; rotate_right) | ((have hx : Keeps s0 x.1 := ?_); (try clear_value x); rotate_left; dsimp -zeta only [x]; rotate_right) | ((have hx : Keeps s0 x.2 := ?_); (try clear_value x); rotate_left; dsimp -zeta only [x]; rotate_right) | (clear_value x) | skip)
    | lift_lets -underBinder
    | (with_reducible refine keeps_emit ?_ ..)
    | (with_reducible refine keeps_serve ?_ ..)
    | (with_reducible refine keeps_flagAccess ?_ ..)
    | (refine keeps_admit_drop (by assumption) ?_)
    | (refine keeps_admit_serve (by assumption) ?_)
    | (with_reducible refine keeps_ite ?_ ?_)
    | (fail_if_no_progress beta_reduce)
    | (dsimp only [Keeps, part]; with_reducible refine keeps_of ?_; first | with_reducible assumption | (with_reducible refine keeps_emit ?_ ..) | (with_reducible refine keeps_serve ?_ ..) | (with_reducible refine keeps_flagAccess ?_ ..) | (refine keeps_admit_drop (by assumption) ?_) | (refine keeps_admit_serve (by assumption) ?_))
    | split
    | (refine keeps_ite ?_ ?_))

theorem keeps_execRegisterWrite {s0 s : State} {via : Via} {off : Nat} {w : AccW} {v : Word} {at_ : Nat} (hK : Keeps s0 s) :
    XKeeps s0 (execRegisterWrite via off w v at_ s) := by
  unfold execRegisterWrite
  repeat' (first
    | (with_reducible assumption)
    | (intro x; first | ((have hx : Keeps s0 x := ?_); (try clear_value x); rotate_left; dsimp -zeta only [x]; rotate_right) | ((have hx : Keeps s0 x.1 := ?_); (try clear_value x); rotate_left; dsimp -zeta only [x]; rotate_right) | ((have hx : Keeps s0 x.2 := ?_); (try clear_value x); rotate_left; dsimp -zeta only [x]; rotate_right) | (clear_value x) | skip)
    | lift_lets -underBinder
    | (with_reducible refine keeps_tick ?_ ..)
    | (with_reducible refine keeps_writeDoorbell ?_ ..)
    | (with_reducible refine keeps_writeReg ?_ ..)
    | (with_reducible refine keeps_writeReserved ?_ ..)
    | (with_reducible refine keeps_badAccess ?_ ..)
    | (with_reducible refine keeps_ite ?_ ?_)
    | (with_reducible refine xkeeps_next ?_)
    | (fail_if_no_progress beta_reduce)
    | (dsimp only [Keeps, part]; with_reducible refine keeps_of ?_; first | with_reducible assumption | (with_reducible refine keeps_tick ?_ ..) | (with_reducible refine keeps_writeDoorbell ?_ ..) | (with_reducible refine keeps_writeReg ?_ ..) | (with_reducible refine keeps_writeReserved ?_ ..) | (with_reducible refine keeps_badAccess ?_ ..))
    | split
    | (refine keeps_ite ?_ ?_))

theorem keeps_execBadSizeAccess {s0 s : State} {via : Via} {off : Nat} {write : Bool} (hK : Keeps s0 s) :
    XKeeps s0 (execBadSizeAccess via off write s) := by
  unfold execBadSizeAccess
  repeat' (first
    | (with_reducible assumption)
    | (intro x; first | ((have hx : Keeps s0 x := ?_); (try clear_value x); rotate_left; dsimp -zeta only [x]; rotate_right) | ((have hx : Keeps s0 x.1 := ?_); (try clear_value x); rotate_left; dsimp -zeta only [x]; rotate_right) | ((have hx : Keeps s0 x.2 := ?_); (try clear_value x); rotate_left; dsimp -zeta only [x]; rotate_right) | (clear_value x) | skip)
    | lift_lets -underBinder
    | (with_reducible refine keeps_badAccess ?_ ..)
    | (with_reducible refine keeps_ite ?_ ?_)
    | (with_reducible refine xkeeps_next ?_)
    | (fail_if_no_progress beta_reduce)
    | (dsimp only [Keeps, part]; with_reducible refine keeps_of ?_; first | with_reducible assumption | (with_reducible refine keeps_badAccess ?_ ..))
    | split
    | (refine keeps_ite ?_ ?_))

end Sys2Proof.Laws
end

