-- ==== Sys2Proof/Laws/State.lean ====
section
/-! SUPPORT. What each named operation over the state leaves and what it writes, field by field; registers read back what was
written; bit fields. -/

namespace Sys2Proof.Laws

open Sys2Proof Machine

/-! State.setReg. -/

@[simp] theorem setReg_pending (s : State) (r : Reg) (i : Nat) (v : Word) : (s.setReg r i v).pending = s.pending := rfl
@[simp] theorem setReg_out (s : State) (r : Reg) (i : Nat) (v : Word) : (s.setReg r i v).out = s.out := rfl
@[simp] theorem setReg_freeIx (s : State) (r : Reg) (i : Nat) (v : Word) : (s.setReg r i v).freeIx = s.freeIx := rfl
@[simp] theorem setReg_time (s : State) (r : Reg) (i : Nat) (v : Word) : (s.setReg r i v).time = s.time := rfl
@[simp] theorem setReg_bay (s : State) (r : Reg) (i : Nat) (v : Word) : (s.setReg r i v).bay = s.bay := rfl
@[simp] theorem setReg_mem (s : State) (r : Reg) (i : Nat) (v : Word) : (s.setReg r i v).mem = s.mem := rfl
@[simp] theorem setReg_lines (s : State) (r : Reg) (i : Nat) (v : Word) : (s.setReg r i v).lines = s.lines := rfl
@[simp] theorem setReg_save (s : State) (r : Reg) (i : Nat) (v : Word) : (s.setReg r i v).save = s.save := rfl
@[simp] theorem setReg_twin (s : State) (r : Reg) (i : Nat) (v : Word) : (s.setReg r i v).twin = s.twin := rfl
@[simp] theorem setReg_tier (s : State) (r : Reg) (i : Nat) (v : Word) : (s.setReg r i v).tier = s.tier := rfl
@[simp] theorem setReg_crown (s : State) (r : Reg) (i : Nat) (v : Word) : (s.setReg r i v).crown = s.crown := rfl
@[simp] theorem setReg_dram (s : State) (r : Reg) (i : Nat) (v : Word) : (s.setReg r i v).dram = s.dram := rfl
@[simp] theorem setReg_flash (s : State) (r : Reg) (i : Nat) (v : Word) : (s.setReg r i v).flash = s.flash := rfl
@[simp] theorem setReg_stripe (s : State) (r : Reg) (i : Nat) (v : Word) : (s.setReg r i v).stripe = s.stripe := rfl
@[simp] theorem setReg_queues (s : State) (r : Reg) (i : Nat) (v : Word) : (s.setReg r i v).queues = s.queues := rfl
@[simp] theorem setReg_engines (s : State) (r : Reg) (i : Nat) (v : Word) : (s.setReg r i v).engines = s.engines := rfl
@[simp] theorem setReg_ports (s : State) (r : Reg) (i : Nat) (v : Word) : (s.setReg r i v).ports = s.ports := rfl
@[simp] theorem setReg_image (s : State) (r : Reg) (i : Nat) (v : Word) : (s.setReg r i v).image = s.image := rfl
@[simp] theorem setReg_cipher (s : State) (r : Reg) (i : Nat) (v : Word) : (s.setReg r i v).cipher = s.cipher := rfl
@[simp] theorem setReg_power (s : State) (r : Reg) (i : Nat) (v : Word) : (s.setReg r i v).power = s.power := rfl
@[simp] theorem setReg_events (s : State) (r : Reg) (i : Nat) (v : Word) : (s.setReg r i v).events = s.events := rfl
@[simp] theorem setReg_jtag (s : State) (r : Reg) (i : Nat) (v : Word) : (s.setReg r i v).jtag = s.jtag := rfl
@[simp] theorem setReg_otp (s : State) (r : Reg) (i : Nat) (v : Word) : (s.setReg r i v).otp = s.otp := rfl

/-! State.setF. -/

@[simp] theorem setF_pending (s : State) (f : FieldRef) (i x : Nat) : (s.setF f i x).pending = s.pending := rfl
@[simp] theorem setF_out (s : State) (f : FieldRef) (i x : Nat) : (s.setF f i x).out = s.out := rfl
@[simp] theorem setF_freeIx (s : State) (f : FieldRef) (i x : Nat) : (s.setF f i x).freeIx = s.freeIx := rfl
@[simp] theorem setF_time (s : State) (f : FieldRef) (i x : Nat) : (s.setF f i x).time = s.time := rfl
@[simp] theorem setF_bay (s : State) (f : FieldRef) (i x : Nat) : (s.setF f i x).bay = s.bay := rfl
@[simp] theorem setF_mem (s : State) (f : FieldRef) (i x : Nat) : (s.setF f i x).mem = s.mem := rfl
@[simp] theorem setF_lines (s : State) (f : FieldRef) (i x : Nat) : (s.setF f i x).lines = s.lines := rfl
@[simp] theorem setF_save (s : State) (f : FieldRef) (i x : Nat) : (s.setF f i x).save = s.save := rfl
@[simp] theorem setF_twin (s : State) (f : FieldRef) (i x : Nat) : (s.setF f i x).twin = s.twin := rfl
@[simp] theorem setF_tier (s : State) (f : FieldRef) (i x : Nat) : (s.setF f i x).tier = s.tier := rfl
@[simp] theorem setF_crown (s : State) (f : FieldRef) (i x : Nat) : (s.setF f i x).crown = s.crown := rfl
@[simp] theorem setF_dram (s : State) (f : FieldRef) (i x : Nat) : (s.setF f i x).dram = s.dram := rfl
@[simp] theorem setF_flash (s : State) (f : FieldRef) (i x : Nat) : (s.setF f i x).flash = s.flash := rfl
@[simp] theorem setF_stripe (s : State) (f : FieldRef) (i x : Nat) : (s.setF f i x).stripe = s.stripe := rfl
@[simp] theorem setF_queues (s : State) (f : FieldRef) (i x : Nat) : (s.setF f i x).queues = s.queues := rfl
@[simp] theorem setF_engines (s : State) (f : FieldRef) (i x : Nat) : (s.setF f i x).engines = s.engines := rfl
@[simp] theorem setF_ports (s : State) (f : FieldRef) (i x : Nat) : (s.setF f i x).ports = s.ports := rfl
@[simp] theorem setF_image (s : State) (f : FieldRef) (i x : Nat) : (s.setF f i x).image = s.image := rfl
@[simp] theorem setF_cipher (s : State) (f : FieldRef) (i x : Nat) : (s.setF f i x).cipher = s.cipher := rfl
@[simp] theorem setF_power (s : State) (f : FieldRef) (i x : Nat) : (s.setF f i x).power = s.power := rfl
@[simp] theorem setF_events (s : State) (f : FieldRef) (i x : Nat) : (s.setF f i x).events = s.events := rfl
@[simp] theorem setF_jtag (s : State) (f : FieldRef) (i x : Nat) : (s.setF f i x).jtag = s.jtag := rfl
@[simp] theorem setF_otp (s : State) (f : FieldRef) (i x : Nat) : (s.setF f i x).otp = s.otp := rfl

/-! State.put. -/

@[simp] theorem put_pending (s : State) (f : FieldRef) (x : Nat) : (s.put f x).pending = s.pending := rfl
@[simp] theorem put_out (s : State) (f : FieldRef) (x : Nat) : (s.put f x).out = s.out := rfl
@[simp] theorem put_freeIx (s : State) (f : FieldRef) (x : Nat) : (s.put f x).freeIx = s.freeIx := rfl
@[simp] theorem put_time (s : State) (f : FieldRef) (x : Nat) : (s.put f x).time = s.time := rfl
@[simp] theorem put_bay (s : State) (f : FieldRef) (x : Nat) : (s.put f x).bay = s.bay := rfl
@[simp] theorem put_mem (s : State) (f : FieldRef) (x : Nat) : (s.put f x).mem = s.mem := rfl
@[simp] theorem put_lines (s : State) (f : FieldRef) (x : Nat) : (s.put f x).lines = s.lines := rfl
@[simp] theorem put_save (s : State) (f : FieldRef) (x : Nat) : (s.put f x).save = s.save := rfl
@[simp] theorem put_twin (s : State) (f : FieldRef) (x : Nat) : (s.put f x).twin = s.twin := rfl
@[simp] theorem put_tier (s : State) (f : FieldRef) (x : Nat) : (s.put f x).tier = s.tier := rfl
@[simp] theorem put_crown (s : State) (f : FieldRef) (x : Nat) : (s.put f x).crown = s.crown := rfl
@[simp] theorem put_dram (s : State) (f : FieldRef) (x : Nat) : (s.put f x).dram = s.dram := rfl
@[simp] theorem put_flash (s : State) (f : FieldRef) (x : Nat) : (s.put f x).flash = s.flash := rfl
@[simp] theorem put_stripe (s : State) (f : FieldRef) (x : Nat) : (s.put f x).stripe = s.stripe := rfl
@[simp] theorem put_queues (s : State) (f : FieldRef) (x : Nat) : (s.put f x).queues = s.queues := rfl
@[simp] theorem put_engines (s : State) (f : FieldRef) (x : Nat) : (s.put f x).engines = s.engines := rfl
@[simp] theorem put_ports (s : State) (f : FieldRef) (x : Nat) : (s.put f x).ports = s.ports := rfl
@[simp] theorem put_image (s : State) (f : FieldRef) (x : Nat) : (s.put f x).image = s.image := rfl
@[simp] theorem put_cipher (s : State) (f : FieldRef) (x : Nat) : (s.put f x).cipher = s.cipher := rfl
@[simp] theorem put_power (s : State) (f : FieldRef) (x : Nat) : (s.put f x).power = s.power := rfl
@[simp] theorem put_events (s : State) (f : FieldRef) (x : Nat) : (s.put f x).events = s.events := rfl
@[simp] theorem put_jtag (s : State) (f : FieldRef) (x : Nat) : (s.put f x).jtag = s.jtag := rfl
@[simp] theorem put_otp (s : State) (f : FieldRef) (x : Nat) : (s.put f x).otp = s.otp := rfl

/-! State.bump. -/

@[simp] theorem bump_pending (s : State) (f : FieldRef) (i n : Nat) : (s.bump f i n).pending = s.pending := rfl
@[simp] theorem bump_out (s : State) (f : FieldRef) (i n : Nat) : (s.bump f i n).out = s.out := rfl
@[simp] theorem bump_freeIx (s : State) (f : FieldRef) (i n : Nat) : (s.bump f i n).freeIx = s.freeIx := rfl
@[simp] theorem bump_time (s : State) (f : FieldRef) (i n : Nat) : (s.bump f i n).time = s.time := rfl
@[simp] theorem bump_bay (s : State) (f : FieldRef) (i n : Nat) : (s.bump f i n).bay = s.bay := rfl
@[simp] theorem bump_mem (s : State) (f : FieldRef) (i n : Nat) : (s.bump f i n).mem = s.mem := rfl
@[simp] theorem bump_lines (s : State) (f : FieldRef) (i n : Nat) : (s.bump f i n).lines = s.lines := rfl
@[simp] theorem bump_save (s : State) (f : FieldRef) (i n : Nat) : (s.bump f i n).save = s.save := rfl
@[simp] theorem bump_twin (s : State) (f : FieldRef) (i n : Nat) : (s.bump f i n).twin = s.twin := rfl
@[simp] theorem bump_tier (s : State) (f : FieldRef) (i n : Nat) : (s.bump f i n).tier = s.tier := rfl
@[simp] theorem bump_crown (s : State) (f : FieldRef) (i n : Nat) : (s.bump f i n).crown = s.crown := rfl
@[simp] theorem bump_dram (s : State) (f : FieldRef) (i n : Nat) : (s.bump f i n).dram = s.dram := rfl
@[simp] theorem bump_flash (s : State) (f : FieldRef) (i n : Nat) : (s.bump f i n).flash = s.flash := rfl
@[simp] theorem bump_stripe (s : State) (f : FieldRef) (i n : Nat) : (s.bump f i n).stripe = s.stripe := rfl
@[simp] theorem bump_queues (s : State) (f : FieldRef) (i n : Nat) : (s.bump f i n).queues = s.queues := rfl
@[simp] theorem bump_engines (s : State) (f : FieldRef) (i n : Nat) : (s.bump f i n).engines = s.engines := rfl
@[simp] theorem bump_ports (s : State) (f : FieldRef) (i n : Nat) : (s.bump f i n).ports = s.ports := rfl
@[simp] theorem bump_image (s : State) (f : FieldRef) (i n : Nat) : (s.bump f i n).image = s.image := rfl
@[simp] theorem bump_cipher (s : State) (f : FieldRef) (i n : Nat) : (s.bump f i n).cipher = s.cipher := rfl
@[simp] theorem bump_power (s : State) (f : FieldRef) (i n : Nat) : (s.bump f i n).power = s.power := rfl
@[simp] theorem bump_events (s : State) (f : FieldRef) (i n : Nat) : (s.bump f i n).events = s.events := rfl
@[simp] theorem bump_jtag (s : State) (f : FieldRef) (i n : Nat) : (s.bump f i n).jtag = s.jtag := rfl
@[simp] theorem bump_otp (s : State) (f : FieldRef) (i n : Nat) : (s.bump f i n).otp = s.otp := rfl

/-! State.tick. -/

@[simp] theorem tick_pending (s : State) (a : Nat) : (s.tick a).pending = s.pending := rfl
@[simp] theorem tick_out (s : State) (a : Nat) : (s.tick a).out = s.out := rfl
@[simp] theorem tick_regs (s : State) (a : Nat) : (s.tick a).regs = s.regs := rfl
@[simp] theorem tick_freeIx (s : State) (a : Nat) : (s.tick a).freeIx = s.freeIx := rfl
@[simp] theorem tick_bay (s : State) (a : Nat) : (s.tick a).bay = s.bay := rfl
@[simp] theorem tick_mem (s : State) (a : Nat) : (s.tick a).mem = s.mem := rfl
@[simp] theorem tick_lines (s : State) (a : Nat) : (s.tick a).lines = s.lines := rfl
@[simp] theorem tick_save (s : State) (a : Nat) : (s.tick a).save = s.save := rfl
@[simp] theorem tick_twin (s : State) (a : Nat) : (s.tick a).twin = s.twin := rfl
@[simp] theorem tick_tier (s : State) (a : Nat) : (s.tick a).tier = s.tier := rfl
@[simp] theorem tick_crown (s : State) (a : Nat) : (s.tick a).crown = s.crown := rfl
@[simp] theorem tick_dram (s : State) (a : Nat) : (s.tick a).dram = s.dram := rfl
@[simp] theorem tick_flash (s : State) (a : Nat) : (s.tick a).flash = s.flash := rfl
@[simp] theorem tick_stripe (s : State) (a : Nat) : (s.tick a).stripe = s.stripe := rfl
@[simp] theorem tick_queues (s : State) (a : Nat) : (s.tick a).queues = s.queues := rfl
@[simp] theorem tick_engines (s : State) (a : Nat) : (s.tick a).engines = s.engines := rfl
@[simp] theorem tick_ports (s : State) (a : Nat) : (s.tick a).ports = s.ports := rfl
@[simp] theorem tick_image (s : State) (a : Nat) : (s.tick a).image = s.image := rfl
@[simp] theorem tick_cipher (s : State) (a : Nat) : (s.tick a).cipher = s.cipher := rfl
@[simp] theorem tick_power (s : State) (a : Nat) : (s.tick a).power = s.power := rfl
@[simp] theorem tick_events (s : State) (a : Nat) : (s.tick a).events = s.events := rfl
@[simp] theorem tick_jtag (s : State) (a : Nat) : (s.tick a).jtag = s.jtag := rfl
@[simp] theorem tick_otp (s : State) (a : Nat) : (s.tick a).otp = s.otp := rfl

/-! State.emit. -/

@[simp] theorem emit_pending (s : State) (o : Out) : (s.emit o).pending = s.pending := rfl
@[simp] theorem emit_regs (s : State) (o : Out) : (s.emit o).regs = s.regs := rfl
@[simp] theorem emit_freeIx (s : State) (o : Out) : (s.emit o).freeIx = s.freeIx := rfl
@[simp] theorem emit_time (s : State) (o : Out) : (s.emit o).time = s.time := rfl
@[simp] theorem emit_bay (s : State) (o : Out) : (s.emit o).bay = s.bay := rfl
@[simp] theorem emit_mem (s : State) (o : Out) : (s.emit o).mem = s.mem := rfl
@[simp] theorem emit_lines (s : State) (o : Out) : (s.emit o).lines = s.lines := rfl
@[simp] theorem emit_save (s : State) (o : Out) : (s.emit o).save = s.save := rfl
@[simp] theorem emit_twin (s : State) (o : Out) : (s.emit o).twin = s.twin := rfl
@[simp] theorem emit_tier (s : State) (o : Out) : (s.emit o).tier = s.tier := rfl
@[simp] theorem emit_crown (s : State) (o : Out) : (s.emit o).crown = s.crown := rfl
@[simp] theorem emit_dram (s : State) (o : Out) : (s.emit o).dram = s.dram := rfl
@[simp] theorem emit_flash (s : State) (o : Out) : (s.emit o).flash = s.flash := rfl
@[simp] theorem emit_stripe (s : State) (o : Out) : (s.emit o).stripe = s.stripe := rfl
@[simp] theorem emit_queues (s : State) (o : Out) : (s.emit o).queues = s.queues := rfl
@[simp] theorem emit_engines (s : State) (o : Out) : (s.emit o).engines = s.engines := rfl
@[simp] theorem emit_ports (s : State) (o : Out) : (s.emit o).ports = s.ports := rfl
@[simp] theorem emit_image (s : State) (o : Out) : (s.emit o).image = s.image := rfl
@[simp] theorem emit_cipher (s : State) (o : Out) : (s.emit o).cipher = s.cipher := rfl
@[simp] theorem emit_power (s : State) (o : Out) : (s.emit o).power = s.power := rfl
@[simp] theorem emit_events (s : State) (o : Out) : (s.emit o).events = s.events := rfl
@[simp] theorem emit_jtag (s : State) (o : Out) : (s.emit o).jtag = s.jtag := rfl
@[simp] theorem emit_otp (s : State) (o : Out) : (s.emit o).otp = s.otp := rfl

/-! State.putLine. -/

@[simp] theorem putLine_pending (s : State) (l : Nat) (be : Word) (d : LineData) : (s.putLine l be d).pending = s.pending := rfl
@[simp] theorem putLine_out (s : State) (l : Nat) (be : Word) (d : LineData) : (s.putLine l be d).out = s.out := rfl
@[simp] theorem putLine_regs (s : State) (l : Nat) (be : Word) (d : LineData) : (s.putLine l be d).regs = s.regs := rfl
@[simp] theorem putLine_freeIx (s : State) (l : Nat) (be : Word) (d : LineData) : (s.putLine l be d).freeIx = s.freeIx := rfl
@[simp] theorem putLine_time (s : State) (l : Nat) (be : Word) (d : LineData) : (s.putLine l be d).time = s.time := rfl
@[simp] theorem putLine_bay (s : State) (l : Nat) (be : Word) (d : LineData) : (s.putLine l be d).bay = s.bay := rfl
@[simp] theorem putLine_lines (s : State) (l : Nat) (be : Word) (d : LineData) : (s.putLine l be d).lines = s.lines := rfl
@[simp] theorem putLine_save (s : State) (l : Nat) (be : Word) (d : LineData) : (s.putLine l be d).save = s.save := rfl
@[simp] theorem putLine_twin (s : State) (l : Nat) (be : Word) (d : LineData) : (s.putLine l be d).twin = s.twin := rfl
@[simp] theorem putLine_tier (s : State) (l : Nat) (be : Word) (d : LineData) : (s.putLine l be d).tier = s.tier := rfl
@[simp] theorem putLine_crown (s : State) (l : Nat) (be : Word) (d : LineData) : (s.putLine l be d).crown = s.crown := rfl
@[simp] theorem putLine_dram (s : State) (l : Nat) (be : Word) (d : LineData) : (s.putLine l be d).dram = s.dram := rfl
@[simp] theorem putLine_flash (s : State) (l : Nat) (be : Word) (d : LineData) : (s.putLine l be d).flash = s.flash := rfl
@[simp] theorem putLine_stripe (s : State) (l : Nat) (be : Word) (d : LineData) : (s.putLine l be d).stripe = s.stripe := rfl
@[simp] theorem putLine_queues (s : State) (l : Nat) (be : Word) (d : LineData) : (s.putLine l be d).queues = s.queues := rfl
@[simp] theorem putLine_engines (s : State) (l : Nat) (be : Word) (d : LineData) : (s.putLine l be d).engines = s.engines := rfl
@[simp] theorem putLine_ports (s : State) (l : Nat) (be : Word) (d : LineData) : (s.putLine l be d).ports = s.ports := rfl
@[simp] theorem putLine_image (s : State) (l : Nat) (be : Word) (d : LineData) : (s.putLine l be d).image = s.image := rfl
@[simp] theorem putLine_cipher (s : State) (l : Nat) (be : Word) (d : LineData) : (s.putLine l be d).cipher = s.cipher := rfl
@[simp] theorem putLine_power (s : State) (l : Nat) (be : Word) (d : LineData) : (s.putLine l be d).power = s.power := rfl
@[simp] theorem putLine_events (s : State) (l : Nat) (be : Word) (d : LineData) : (s.putLine l be d).events = s.events := rfl
@[simp] theorem putLine_jtag (s : State) (l : Nat) (be : Word) (d : LineData) : (s.putLine l be d).jtag = s.jtag := rfl
@[simp] theorem putLine_otp (s : State) (l : Nat) (be : Word) (d : LineData) : (s.putLine l be d).otp = s.otp := rfl

/-! State.zeroRange. -/

@[simp] theorem zeroRange_pending (s : State) (a n : Nat) : (s.zeroRange a n).pending = s.pending := rfl
@[simp] theorem zeroRange_out (s : State) (a n : Nat) : (s.zeroRange a n).out = s.out := rfl
@[simp] theorem zeroRange_regs (s : State) (a n : Nat) : (s.zeroRange a n).regs = s.regs := rfl
@[simp] theorem zeroRange_freeIx (s : State) (a n : Nat) : (s.zeroRange a n).freeIx = s.freeIx := rfl
@[simp] theorem zeroRange_time (s : State) (a n : Nat) : (s.zeroRange a n).time = s.time := rfl
@[simp] theorem zeroRange_bay (s : State) (a n : Nat) : (s.zeroRange a n).bay = s.bay := rfl
@[simp] theorem zeroRange_lines (s : State) (a n : Nat) : (s.zeroRange a n).lines = s.lines := rfl
@[simp] theorem zeroRange_save (s : State) (a n : Nat) : (s.zeroRange a n).save = s.save := rfl
@[simp] theorem zeroRange_twin (s : State) (a n : Nat) : (s.zeroRange a n).twin = s.twin := rfl
@[simp] theorem zeroRange_tier (s : State) (a n : Nat) : (s.zeroRange a n).tier = s.tier := rfl
@[simp] theorem zeroRange_crown (s : State) (a n : Nat) : (s.zeroRange a n).crown = s.crown := rfl
@[simp] theorem zeroRange_dram (s : State) (a n : Nat) : (s.zeroRange a n).dram = s.dram := rfl
@[simp] theorem zeroRange_flash (s : State) (a n : Nat) : (s.zeroRange a n).flash = s.flash := rfl
@[simp] theorem zeroRange_stripe (s : State) (a n : Nat) : (s.zeroRange a n).stripe = s.stripe := rfl
@[simp] theorem zeroRange_queues (s : State) (a n : Nat) : (s.zeroRange a n).queues = s.queues := rfl
@[simp] theorem zeroRange_engines (s : State) (a n : Nat) : (s.zeroRange a n).engines = s.engines := rfl
@[simp] theorem zeroRange_ports (s : State) (a n : Nat) : (s.zeroRange a n).ports = s.ports := rfl
@[simp] theorem zeroRange_image (s : State) (a n : Nat) : (s.zeroRange a n).image = s.image := rfl
@[simp] theorem zeroRange_cipher (s : State) (a n : Nat) : (s.zeroRange a n).cipher = s.cipher := rfl
@[simp] theorem zeroRange_power (s : State) (a n : Nat) : (s.zeroRange a n).power = s.power := rfl
@[simp] theorem zeroRange_events (s : State) (a n : Nat) : (s.zeroRange a n).events = s.events := rfl
@[simp] theorem zeroRange_jtag (s : State) (a n : Nat) : (s.zeroRange a n).jtag = s.jtag := rfl
@[simp] theorem zeroRange_otp (s : State) (a n : Nat) : (s.zeroRange a n).otp = s.otp := rfl

/-! State.health. -/

@[simp] theorem health_pending (s : State) (ix n : Nat) : (s.health ix n).pending = s.pending := rfl
@[simp] theorem health_out (s : State) (ix n : Nat) : (s.health ix n).out = s.out := rfl
@[simp] theorem health_regs (s : State) (ix n : Nat) : (s.health ix n).regs = s.regs := rfl
@[simp] theorem health_freeIx (s : State) (ix n : Nat) : (s.health ix n).freeIx = s.freeIx := rfl
@[simp] theorem health_time (s : State) (ix n : Nat) : (s.health ix n).time = s.time := rfl
@[simp] theorem health_bay (s : State) (ix n : Nat) : (s.health ix n).bay = s.bay := rfl
@[simp] theorem health_mem (s : State) (ix n : Nat) : (s.health ix n).mem = s.mem := rfl
@[simp] theorem health_lines (s : State) (ix n : Nat) : (s.health ix n).lines = s.lines := rfl
@[simp] theorem health_save (s : State) (ix n : Nat) : (s.health ix n).save = s.save := rfl
@[simp] theorem health_twin (s : State) (ix n : Nat) : (s.health ix n).twin = s.twin := rfl
@[simp] theorem health_tier (s : State) (ix n : Nat) : (s.health ix n).tier = s.tier := rfl
@[simp] theorem health_crown (s : State) (ix n : Nat) : (s.health ix n).crown = s.crown := rfl
@[simp] theorem health_dram (s : State) (ix n : Nat) : (s.health ix n).dram = s.dram := rfl
@[simp] theorem health_flash (s : State) (ix n : Nat) : (s.health ix n).flash = s.flash := rfl
@[simp] theorem health_stripe (s : State) (ix n : Nat) : (s.health ix n).stripe = s.stripe := rfl
@[simp] theorem health_queues (s : State) (ix n : Nat) : (s.health ix n).queues = s.queues := rfl
@[simp] theorem health_engines (s : State) (ix n : Nat) : (s.health ix n).engines = s.engines := rfl
@[simp] theorem health_ports (s : State) (ix n : Nat) : (s.health ix n).ports = s.ports := rfl
@[simp] theorem health_image (s : State) (ix n : Nat) : (s.health ix n).image = s.image := rfl
@[simp] theorem health_cipher (s : State) (ix n : Nat) : (s.health ix n).cipher = s.cipher := rfl
@[simp] theorem health_power (s : State) (ix n : Nat) : (s.health ix n).power = s.power := rfl
@[simp] theorem health_jtag (s : State) (ix n : Nat) : (s.health ix n).jtag = s.jtag := rfl
@[simp] theorem health_otp (s : State) (ix n : Nat) : (s.health ix n).otp = s.otp := rfl

/-! What they write. -/

@[simp] theorem tick_dt (s : State) (a : Nat) : (s.tick a).time.dt = max s.time.dt a := rfl
@[simp] theorem tick_now (s : State) (a : Nat) : (s.tick a).now = max s.now a := rfl
@[simp] theorem emit_out (s : State) (o : Out) : (s.emit o).out = s.out ++ [o] := rfl
@[simp] theorem emit_now (s : State) (o : Out) : (s.emit o).now = s.now := rfl
@[simp] theorem setReg_now (s : State) (r : Reg) (i : Nat) (v : Word) : (s.setReg r i v).now = s.now := rfl
@[simp] theorem setF_now (s : State) (f : FieldRef) (i x : Nat) : (s.setF f i x).now = s.now := rfl
@[simp] theorem put_now (s : State) (f : FieldRef) (x : Nat) : (s.put f x).now = s.now := rfl

/-- Registers are read from the table of registers alone. -/
theorem reg_of_regs {s t : State} (h : t.regs = s.regs) (r : Reg) (i : Nat) : t.reg r i = s.reg r i := by
  unfold State.reg; rw [h]

theorem getF_of_regs {s t : State} (h : t.regs = s.regs) (f : FieldRef) (i : Nat) : t.getF f i = s.getF f i := by
  unfold State.getF; rw [reg_of_regs h]

theorem get_of_regs {s t : State} (h : t.regs = s.regs) (f : FieldRef) : t.get f = s.get f := getF_of_regs h f 0

@[simp] theorem tick_reg (s : State) (a : Nat) (r : Reg) (i : Nat) : (s.tick a).reg r i = s.reg r i := rfl
@[simp] theorem tick_getF (s : State) (a : Nat) (f : FieldRef) (i : Nat) : (s.tick a).getF f i = s.getF f i := rfl
@[simp] theorem tick_get (s : State) (a : Nat) (f : FieldRef) : (s.tick a).get f = s.get f := rfl
@[simp] theorem tick_isSet (s : State) (a : Nat) (f : FieldRef) (i : Nat) : (s.tick a).isSet f i = s.isSet f i := rfl
@[simp] theorem emit_reg (s : State) (o : Out) (r : Reg) (i : Nat) : (s.emit o).reg r i = s.reg r i := rfl
@[simp] theorem emit_getF (s : State) (o : Out) (f : FieldRef) (i : Nat) : (s.emit o).getF f i = s.getF f i := rfl
@[simp] theorem emit_get (s : State) (o : Out) (f : FieldRef) : (s.emit o).get f = s.get f := rfl

/-- The table of registers keeps its order. -/
theorem wf_setReg {s : State} (w : SMap.wf s.regs = true) (r : Reg) (i : Nat) (v : Word) : SMap.wf (s.setReg r i v).regs = true := by
  unfold State.setReg
  dsimp only
  split
  · exact wf_del _ _ w
  · exact wf_put _ _ _ w

theorem wf_setF {s : State} (w : SMap.wf s.regs = true) (f : FieldRef) (i x : Nat) : SMap.wf (s.setF f i x).regs = true :=
  wf_setReg w _ _ _

theorem wf_put_field {s : State} (w : SMap.wf s.regs = true) (f : FieldRef) (x : Nat) : SMap.wf (s.put f x).regs = true :=
  wf_setReg w _ _ _

/-- A register reads back what was written to it. -/
theorem reg_setReg {s : State} (w : SMap.wf s.regs = true) (r : Reg) (i : Nat) (v : Word) : (s.setReg r i v).reg r i = v := by
  unfold State.reg State.setReg SMap.findD
  dsimp only
  split
  · next e =>
    rw [find_del _ w, if_pos rfl]
    have h : v = r.reset := by simpa using e
    rw [h]; simp
  · rw [find_put, if_pos rfl, Option.getD_some, BitVec.xor_assoc, BitVec.xor_self, BitVec.xor_zero]

/-- A register at another offset keeps its value. -/
theorem reg_setReg_ne {s : State} (w : SMap.wf s.regs = true) {r r' : Reg} {i i' : Nat} (v : Word) (h : r.addr i ≠ r'.addr i') :
    (s.setReg r i v).reg r' i' = s.reg r' i' := by
  unfold State.reg State.setReg SMap.findD
  dsimp only
  split
  · rw [find_del _ w, if_neg h]
  · rw [find_put, if_neg h]

theorem reg_setF_ne {s : State} (w : SMap.wf s.regs = true) {f : FieldRef} {r' : Reg} {i i' : Nat} (x : Nat)
    (h : f.reg.addr i ≠ r'.addr i') : (s.setF f i x).reg r' i' = s.reg r' i' := reg_setReg_ne w _ h

/-- A word split at a field: what lies above it, the field, what lies below. -/
theorem split_field (V lo w : Nat) :
    V = V / 2 ^ lo / 2 ^ w * 2 ^ w * 2 ^ lo + V / 2 ^ lo % 2 ^ w * 2 ^ lo + V % 2 ^ lo := by
  have a := Nat.div_add_mod V (2 ^ lo)
  have b := Nat.div_add_mod (V / 2 ^ lo) (2 ^ w)
  calc V = 2 ^ lo * (V / 2 ^ lo) + V % 2 ^ lo := a.symm
    _ = 2 ^ lo * (2 ^ w * (V / 2 ^ lo / 2 ^ w) + V / 2 ^ lo % 2 ^ w) + V % 2 ^ lo := by rw [b]
    _ = _ := by ring

/-- The word with a field replaced, as a number. -/
theorem withBits_toNat (v : Word) (lo w x : Nat) (h : lo + w ≤ 64) :
    (withBits v lo w x).toNat = v.toNat / 2 ^ lo / 2 ^ w * 2 ^ w * 2 ^ lo + x % 2 ^ w * 2 ^ lo + v.toNat % 2 ^ lo := by
  have hp : 0 < 2 ^ w := Nat.two_pow_pos w
  have hl : 0 < 2 ^ lo := Nat.two_pow_pos lo
  have hv : v.toNat < 2 ^ 64 := v.isLt
  have hx : x % 2 ^ w < 2 ^ w := Nat.mod_lt _ hp
  have h64 : (2 : Nat) ^ 64 = 2 ^ (64 - lo - w) * 2 ^ w * 2 ^ lo := by
    rw [← Nat.pow_add, ← Nat.pow_add]; congr 1; omega
  unfold withBits bitsOf
  rw [BitVec.toNat_ofNat]
  have e := split_field v.toNat lo w
  have hlow : v.toNat % 2 ^ lo < 2 ^ lo := Nat.mod_lt _ hl
  have hhi : v.toNat / 2 ^ lo / 2 ^ w < 2 ^ (64 - lo - w) := by
    rw [Nat.div_div_eq_div_mul, Nat.div_lt_iff_lt_mul (Nat.mul_pos hl hp), ← Nat.pow_add, ← Nat.pow_add]
    have : 64 - lo - w + (lo + w) = 64 := by omega
    rw [this]; exact hv
  generalize v.toNat / 2 ^ lo / 2 ^ w = H at *
  generalize v.toNat / 2 ^ lo % 2 ^ w = M at *
  generalize v.toNat % 2 ^ lo = L at *
  generalize v.toNat = V at *
  generalize x % 2 ^ w = X at *
  have s1 : V - M * 2 ^ lo + X * 2 ^ lo = H * 2 ^ w * 2 ^ lo + X * 2 ^ lo + L := by omega
  rw [s1]
  refine Nat.mod_eq_of_lt ?_
  rw [h64]
  have a1 : H * 2 ^ w + X < 2 ^ (64 - lo - w) * 2 ^ w := by
    calc H * 2 ^ w + X < H * 2 ^ w + 2 ^ w := by omega
      _ = (H + 1) * 2 ^ w := by ring
      _ ≤ 2 ^ (64 - lo - w) * 2 ^ w := Nat.mul_le_mul_right _ hhi
  calc H * 2 ^ w * 2 ^ lo + X * 2 ^ lo + L < H * 2 ^ w * 2 ^ lo + X * 2 ^ lo + 2 ^ lo := by omega
    _ = (H * 2 ^ w + X + 1) * 2 ^ lo := by ring
    _ ≤ _ := Nat.mul_le_mul_right _ a1

/-- A field of a word after its own field is replaced. -/
theorem bitsOf_withBits (v : Word) (lo w x : Nat) (h : lo + w ≤ 64) : bitsOf (withBits v lo w x) lo w = x % 2 ^ w := by
  have hp : 0 < 2 ^ w := Nat.two_pow_pos w
  have hl : 0 < 2 ^ lo := Nat.two_pow_pos lo
  unfold bitsOf
  rw [withBits_toNat v lo w x h]
  have hx : x % 2 ^ w < 2 ^ w := Nat.mod_lt _ hp
  have hlow : v.toNat % 2 ^ lo < 2 ^ lo := Nat.mod_lt _ hl
  generalize v.toNat / 2 ^ lo / 2 ^ w = H at *
  generalize v.toNat % 2 ^ lo = L at *
  generalize x % 2 ^ w = X at *
  have q : (H * 2 ^ w * 2 ^ lo + X * 2 ^ lo + L) / 2 ^ lo = H * 2 ^ w + X := by
    have : H * 2 ^ w * 2 ^ lo + X * 2 ^ lo + L = L + 2 ^ lo * (H * 2 ^ w + X) := by ring
    rw [this, Nat.add_mul_div_left _ _ hl, Nat.div_eq_of_lt hlow, Nat.zero_add]
  rw [q]
  have : H * 2 ^ w + X = X + 2 ^ w * H := by ring
  rw [this, Nat.add_mul_mod_self_left, Nat.mod_eq_of_lt hx]

/-- Another field of a word after a field is replaced. -/
theorem bitsOf_withBits_ne (v : Word) (lo w x lo' w' : Nat) (h : lo + w ≤ 64) (d : lo + w ≤ lo' ∨ lo' + w' ≤ lo) :
    bitsOf (withBits v lo w x) lo' w' = bitsOf v lo' w' := by
  have hl : 0 < 2 ^ lo := Nat.two_pow_pos lo
  have hp : 0 < 2 ^ w := Nat.two_pow_pos w
  unfold bitsOf
  rw [withBits_toNat v lo w x h]
  have e := split_field v.toNat lo w
  have hx : x % 2 ^ w < 2 ^ w := Nat.mod_lt _ hp
  have hm : v.toNat / 2 ^ lo % 2 ^ w < 2 ^ w := Nat.mod_lt _ hp
  have hlow : v.toNat % 2 ^ lo < 2 ^ lo := Nat.mod_lt _ hl
  generalize v.toNat / 2 ^ lo / 2 ^ w = H at *
  generalize v.toNat / 2 ^ lo % 2 ^ w = M at *
  generalize v.toNat % 2 ^ lo = L at *
  generalize v.toNat = V at *
  generalize x % 2 ^ w = X at *
  subst e
  rcases d with d | d
  · have k : (2 : Nat) ^ lo' = 2 ^ lo * 2 ^ w * 2 ^ (lo' - lo - w) := by
      rw [← Nat.pow_add, ← Nat.pow_add]; congr 1; omega
    have f : ∀ Y, Y < 2 ^ w → (H * 2 ^ w * 2 ^ lo + Y * 2 ^ lo + L) / 2 ^ lo' = H / 2 ^ (lo' - lo - w) := by
      intro Y hY
      rw [k, ← Nat.div_div_eq_div_mul, ← Nat.div_div_eq_div_mul]
      have q : (H * 2 ^ w * 2 ^ lo + Y * 2 ^ lo + L) / 2 ^ lo = Y + 2 ^ w * H := by
        have : H * 2 ^ w * 2 ^ lo + Y * 2 ^ lo + L = L + 2 ^ lo * (Y + 2 ^ w * H) := by ring
        rw [this, Nat.add_mul_div_left _ _ hl, Nat.div_eq_of_lt hlow, Nat.zero_add]
      rw [q, Nat.add_mul_div_left _ _ hp, Nat.div_eq_of_lt hY, Nat.zero_add]
    rw [f X hx, f M hm]
  · have hl' : 0 < 2 ^ lo' := Nat.two_pow_pos lo'
    have k : (2 : Nat) ^ lo = 2 ^ lo' * (2 ^ w' * 2 ^ (lo - lo' - w')) := by
      rw [← Nat.pow_add, ← Nat.pow_add]; congr 1; omega
    have f : ∀ Y, (H * 2 ^ w * 2 ^ lo + Y * 2 ^ lo + L) / 2 ^ lo' % 2 ^ w' = L / 2 ^ lo' % 2 ^ w' := by
      intro Y
      have : H * 2 ^ w * 2 ^ lo + Y * 2 ^ lo + L
          = L + 2 ^ lo' * (2 ^ w' * (2 ^ (lo - lo' - w') * (H * 2 ^ w + Y))) := by rw [k]; ring
      rw [this, Nat.add_mul_div_left _ _ hl', Nat.add_mul_mod_self_left]
    rw [f X, f M]

/-- A field reads back what was written to it. -/
theorem getF_setF {s : State} (w : SMap.wf s.regs = true) (f : FieldRef) (i x : Nat) (h : f.lo + f.w ≤ 64) :
    (s.setF f i x).getF f i = x % 2 ^ f.w := by
  unfold State.getF State.setF
  rw [reg_setReg w, bitsOf_withBits _ _ _ _ h]

/-- A field of the same register keeps its value. -/
theorem getF_setF_ne {s : State} (w : SMap.wf s.regs = true) (f g : FieldRef) (i x : Nat) (hr : g.reg = f.reg)
    (h : f.lo + f.w ≤ 64) (d : f.lo + f.w ≤ g.lo ∨ g.lo + g.w ≤ f.lo) : (s.setF f i x).getF g i = s.getF g i := by
  unfold State.getF State.setF
  rw [hr, reg_setReg w, bitsOf_withBits_ne _ _ _ _ _ _ h d]

/-- A field of a register at another offset keeps its value. -/
theorem getF_setF_other {s : State} (w : SMap.wf s.regs = true) (f g : FieldRef) (i j x : Nat)
    (h : f.reg.addr i ≠ g.reg.addr j) : (s.setF f i x).getF g j = s.getF g j := by
  unfold State.getF
  rw [reg_setF_ne w _ h]

end Sys2Proof.Laws
end

