-- ==== Sys2Proof/Laws/Logged.lean ====
section
/-! SUPPORT. What setting a flag writes: the flag itself, and of the other registers at most BB_EV_STAT and BB_STATUS. -/

namespace Sys2Proof.Laws

open Sys2Proof Machine

/-- Registers but BB_EV_STAT and BB_STATUS stand as they were. -/
structure RegsStand (a b : SMap Word) : Prop where
  wf : SMap.wf a = true → SMap.wf b = true
  same : SMap.wf a = true → ∀ k, k ≠ Reg.addr .BB_EV_STAT 0 → k ≠ Reg.addr .BB_STATUS 0 → SMap.findD b k 0#64 = SMap.findD a k 0#64

/-- The registers of `s0` but those two stand in `s`. -/
def Logged (s0 s : State) : Prop := RegsStand s0.regs s.regs

theorem logged_refl (s : State) : Logged s s := RegsStand.mk id (fun _ _ _ _ => rfl)

theorem logged_trans {s t u : State} (h : Logged s t) (k : Logged t u) : Logged s u :=
  RegsStand.mk (fun w => RegsStand.wf k (RegsStand.wf h w))
    (fun w n a b => (RegsStand.same k (RegsStand.wf h w) n a b).trans (RegsStand.same h w n a b))

variable {s0 s : State}

theorem regsStand_setReg (s : State) (r : Reg) (i : Nat) (v : Word)
    (hr : r.addr i = Reg.addr .BB_EV_STAT 0 ∨ r.addr i = Reg.addr .BB_STATUS 0) : Logged s (s.setReg r i v) := by
  refine RegsStand.mk (fun w => wf_setReg w r i v) (fun w k a b => ?_)
  have n : r.addr i ≠ k := by
    rcases hr with e | e <;> rw [e]
    · exact Ne.symm a
    · exact Ne.symm b
  unfold State.setReg SMap.findD
  dsimp only
  split
  · rw [find_del _ w, if_neg n]
  · rw [find_put, if_neg n]

theorem logged_put (h : Logged s0 s) (f : FieldRef) (x : Nat)
    (hf : f.reg = .BB_EV_STAT ∨ f.reg = .BB_STATUS := by first | exact .inl rfl | exact .inr rfl) : Logged s0 (s.put f x) :=
  logged_trans h (regsStand_setReg s _ _ _ (by rcases hf with e | e <;> simp [e]))

theorem logged_bump (h : Logged s0 s) (f : FieldRef) (i n : Nat)
    (hf : f.reg = .BB_EV_STAT ∨ f.reg = .BB_STATUS := by first | exact .inl rfl | exact .inr rfl)
    (hi : i = 0 := by rfl) : Logged s0 (s.bump f i n) :=
  logged_trans h (regsStand_setReg s _ _ _ (by subst hi; rcases hf with e | e <;> simp [e]))

theorem logged_emit (h : Logged s0 s) (o : Out) : Logged s0 (s.emit o) := h

/-- A loop whose every turn keeps the relation keeps it. -/
theorem logged_foldl {β : Type} {g : State → β → State} {l : List β} (hg : ∀ s x, Logged s0 s → Logged s0 (g s x))
    (h : Logged s0 s) : Logged s0 (l.foldl g s) :=
  foldl_keeps (P := fun s => Logged s0 s) g (fun s x k => hg s x k) l s h

/-- A state with the same registers. -/
theorem logged_of (h : Logged s0 s) : RegsStand s0.regs s.regs := h

/-- Both ways of a choice. -/
theorem logged_ite {c : Prop} {d : Decidable c} {a b : State} (ha : Logged s0 a) (hb : Logged s0 b) :
    Logged s0 (@ite State c d a b) := by
  split
  · exact ha
  · exact hb

end Sys2Proof.Laws
end

