-- ==== Sys2Proof/Laws/LoggedFlags.lean ====
section
/-! SUPPORT. The operations of Machine/Flags.lean that State.settle calls leave alone what Laws/Logged.lean names. -/

set_option linter.unusedTactic false
set_option linter.unreachableTactic false
set_option linter.unusedVariables false

namespace Sys2Proof.Laws

open Sys2Proof Machine

theorem logged_cxlRecord {s0 s : State} {key : Nat} {e : EvRec} (hK : Logged s0 s) :
    Logged s0 (State.cxlRecord s key e) := by
  unfold State.cxlRecord
  repeat' (first
    | (with_reducible assumption)
    | (intro x; first | ((have hx : Logged s0 x := ?_); (try clear_value x); rotate_left; dsimp -zeta only [x]; rotate_right) | ((have hx : Logged s0 x.1 := ?_); (try clear_value x); rotate_left; dsimp -zeta only [x]; rotate_right) | ((have hx : Logged s0 x.2 := ?_); (try clear_value x); rotate_left; dsimp -zeta only [x]; rotate_right) | ((have hf : x.zzz = x.zzz := rfl); clear hf; dsimp -zeta only [x]) | (clear_value x) | skip)
    | lift_lets -underBinder
    | (with_reducible refine logged_put ?_ ..)
    | (with_reducible refine logged_ite ?_ ?_)
    | (fail_if_no_progress beta_reduce)
    | (dsimp only [Logged]; with_reducible refine logged_of ?_; first | with_reducible assumption | (with_reducible refine logged_put ?_ ..))
    | split
    | (refine logged_ite ?_ ?_))

theorem logged_msix {s0 s : State} {port : Nat} {ld : Nat} {vector : Nat} (hK : Logged s0 s) :
    Logged s0 (State.msix s port ld vector) := by
  unfold State.msix
  repeat' (first
    | (with_reducible assumption)
    | (intro x; first | ((have hx : Logged s0 x := ?_); (try clear_value x); rotate_left; dsimp -zeta only [x]; rotate_right) | ((have hx : Logged s0 x.1 := ?_); (try clear_value x); rotate_left; dsimp -zeta only [x]; rotate_right) | ((have hx : Logged s0 x.2 := ?_); (try clear_value x); rotate_left; dsimp -zeta only [x]; rotate_right) | ((have hf : x.zzz = x.zzz := rfl); clear hf; dsimp -zeta only [x]) | (clear_value x) | skip)
    | lift_lets -underBinder
    | (with_reducible refine logged_emit ?_ ..)
    | (with_reducible refine logged_ite ?_ ?_)
    | (fail_if_no_progress beta_reduce)
    | (dsimp only [Logged]; with_reducible refine logged_of ?_; first | with_reducible assumption | (with_reducible refine logged_emit ?_ ..))
    | split
    | (refine logged_ite ?_ ?_))

theorem logged_evSend {s0 s : State} {t : Nat} (hK : Logged s0 s) :
    Logged s0 (State.evSend s t) := by
  unfold State.evSend
  repeat' (first
    | (with_reducible assumption)
    | (intro x; first | ((have hx : Logged s0 x := ?_); (try clear_value x); rotate_left; dsimp -zeta only [x]; rotate_right) | ((have hx : Logged s0 x.1 := ?_); (try clear_value x); rotate_left; dsimp -zeta only [x]; rotate_right) | ((have hx : Logged s0 x.2 := ?_); (try clear_value x); rotate_left; dsimp -zeta only [x]; rotate_right) | ((have hf : x.zzz = x.zzz := rfl); clear hf; dsimp -zeta only [x]) | (clear_value x) | skip)
    | lift_lets -underBinder
    | (with_reducible refine logged_emit ?_ ..)
    | (with_reducible refine logged_put ?_ ..)
    | (with_reducible refine logged_msix ?_ ..)
    | (with_reducible refine logged_ite ?_ ?_)
    | (fail_if_no_progress beta_reduce)
    | (dsimp only [Logged]; with_reducible refine logged_of ?_; first | with_reducible assumption | (with_reducible refine logged_emit ?_ ..) | (with_reducible refine logged_put ?_ ..) | (with_reducible refine logged_msix ?_ ..))
    | split
    | (refine logged_ite ?_ ?_))

theorem logged_evIrq {s0 s : State} {t : Nat} (hK : Logged s0 s) :
    Logged s0 (State.evIrq s t) := by
  unfold State.evIrq
  repeat' (first
    | (with_reducible assumption)
    | (intro x; first | ((have hx : Logged s0 x := ?_); (try clear_value x); rotate_left; dsimp -zeta only [x]; rotate_right) | ((have hx : Logged s0 x.1 := ?_); (try clear_value x); rotate_left; dsimp -zeta only [x]; rotate_right) | ((have hx : Logged s0 x.2 := ?_); (try clear_value x); rotate_left; dsimp -zeta only [x]; rotate_right) | ((have hf : x.zzz = x.zzz := rfl); clear hf; dsimp -zeta only [x]) | (clear_value x) | skip)
    | lift_lets -underBinder
    | (with_reducible refine logged_put ?_ ..)
    | (with_reducible refine logged_evSend ?_ ..)
    | (with_reducible refine logged_ite ?_ ?_)
    | (fail_if_no_progress beta_reduce)
    | (dsimp only [Logged]; with_reducible refine logged_of ?_; first | with_reducible assumption | (with_reducible refine logged_put ?_ ..) | (with_reducible refine logged_evSend ?_ ..))
    | split
    | (refine logged_ite ?_ ?_))

theorem logged_bbRecord {s0 s : State} {cls : Nat} {body : BBody} (hK : Logged s0 s) :
    Logged s0 (State.bbRecord s cls body) := by
  unfold State.bbRecord
  repeat' (first
    | (with_reducible assumption)
    | (intro x; first | ((have hx : Logged s0 x := ?_); (try clear_value x); rotate_left; dsimp -zeta only [x]; rotate_right) | ((have hx : Logged s0 x.1 := ?_); (try clear_value x); rotate_left; dsimp -zeta only [x]; rotate_right) | ((have hx : Logged s0 x.2 := ?_); (try clear_value x); rotate_left; dsimp -zeta only [x]; rotate_right) | ((have hf : x.zzz = x.zzz := rfl); clear hf; dsimp -zeta only [x]) | (clear_value x) | skip)
    | lift_lets -underBinder
    | (with_reducible refine logged_getD ?_ ?_)
    | (with_reducible refine logged_ite ?_ ?_)
    | (fail_if_no_progress beta_reduce)
    | (dsimp only [Logged]; with_reducible refine logged_of ?_; first | with_reducible assumption)
    | split
    | (refine logged_ite ?_ ?_))

theorem logged_bbEvent {s0 s : State} {f : FieldRef} {i : Nat} {e : EvRec} (hK : Logged s0 s) :
    Logged s0 (State.bbEvent s f i e).1 := by
  unfold State.bbEvent
  repeat' (first
    | (with_reducible assumption)
    | (intro x; first | ((have hx : Logged s0 x := ?_); (try clear_value x); rotate_left; dsimp -zeta only [x]; rotate_right) | ((have hx : Logged s0 x.1 := ?_); (try clear_value x); rotate_left; dsimp -zeta only [x]; rotate_right) | ((have hx : Logged s0 x.2 := ?_); (try clear_value x); rotate_left; dsimp -zeta only [x]; rotate_right) | ((have hf : x.zzz = x.zzz := rfl); clear hf; dsimp -zeta only [x]) | (clear_value x) | skip)
    | lift_lets -underBinder
    | (with_reducible refine logged_bbRecord ?_ ..)
    | (with_reducible refine logged_ite ?_ ?_)
    | (fail_if_no_progress beta_reduce)
    | (dsimp only [Logged]; with_reducible refine logged_of ?_; first | with_reducible assumption | (with_reducible refine logged_bbRecord ?_ ..))
    | split
    | (refine logged_ite ?_ ?_))

theorem logged_bbEvent_eq {s0 s tE : State} {bE : Bool} {f : FieldRef} {i : Nat} {e : EvRec} (hEq : State.bbEvent s f i e = (tE, bE)) (hK : Logged s0 s) : Logged s0 tE := by
  have k : Logged s0 (State.bbEvent s f i e).1 := logged_bbEvent hK
  rw [hEq] at k
  exact k

theorem logged_spreadEvent {s0 s : State} {e : EvRec} {irq : Bool} {p : EventSt × Bool} (hK : Logged s0 s) :
    Logged s0 (State.spreadEvent s e irq p).1 := by
  unfold State.spreadEvent
  repeat' (first
    | (with_reducible assumption)
    | (intro x; first | ((have hx : Logged s0 x := ?_); (try clear_value x); rotate_left; dsimp -zeta only [x]; rotate_right) | ((have hx : Logged s0 x.1 := ?_); (try clear_value x); rotate_left; dsimp -zeta only [x]; rotate_right) | ((have hx : Logged s0 x.2 := ?_); (try clear_value x); rotate_left; dsimp -zeta only [x]; rotate_right) | ((have hf : x.zzz = x.zzz := rfl); clear hf; dsimp -zeta only [x]) | (clear_value x) | skip)
    | lift_lets -underBinder
    | (with_reducible refine logged_put ?_ ..)
    | (with_reducible refine logged_bump ?_ ..)
    | (with_reducible refine logged_cxlRecord ?_ ..)
    | (with_reducible refine logged_evIrq ?_ ..)
    | (with_reducible refine logged_bbEvent ?_ ..)
    | (refine logged_bbEvent_eq (by assumption) ?_)
    | (with_reducible refine logged_foldl (fun s x hK => ?_) ?_)
    | (with_reducible refine logged_foldl_fst (fun s x hK => ?_) ?_)
    | (refine logged_foldl_eq (by assumption) (fun s x hK => ?_) ?_)
    | (with_reducible refine logged_ite ?_ ?_)
    | (fail_if_no_progress beta_reduce)
    | (dsimp only [Logged]; with_reducible refine logged_of ?_; first | with_reducible assumption | (with_reducible refine logged_put ?_ ..) | (with_reducible refine logged_bump ?_ ..) | (with_reducible refine logged_cxlRecord ?_ ..) | (with_reducible refine logged_evIrq ?_ ..) | (with_reducible refine logged_bbEvent ?_ ..) | (refine logged_bbEvent_eq (by assumption) ?_))
    | split
    | (refine logged_ite ?_ ?_))

theorem logged_spreadEvent_eq {s0 s tE : State} {bE : RaiseNote} {e : EvRec} {irq : Bool} {p : EventSt × Bool} (hEq : State.spreadEvent s e irq p = (tE, bE)) (hK : Logged s0 s) : Logged s0 tE := by
  have k : Logged s0 (State.spreadEvent s e irq p).1 := logged_spreadEvent hK
  rw [hEq] at k
  exact k

theorem logged_enterEvent {s0 s : State} {e : EvRec} (hK : Logged s0 s) :
    Logged s0 (State.enterEvent s e).1 := by
  unfold State.enterEvent
  repeat' (first
    | (with_reducible assumption)
    | (intro x; first | ((have hx : Logged s0 x := ?_); (try clear_value x); rotate_left; dsimp -zeta only [x]; rotate_right) | ((have hx : Logged s0 x.1 := ?_); (try clear_value x); rotate_left; dsimp -zeta only [x]; rotate_right) | ((have hx : Logged s0 x.2 := ?_); (try clear_value x); rotate_left; dsimp -zeta only [x]; rotate_right) | ((have hf : x.zzz = x.zzz := rfl); clear hf; dsimp -zeta only [x]) | (clear_value x) | skip)
    | lift_lets -underBinder
    | (with_reducible refine logged_bump ?_ ..)
    | (with_reducible refine logged_evIrq ?_ ..)
    | (with_reducible refine logged_spreadEvent ?_ ..)
    | (refine logged_spreadEvent_eq (by assumption) ?_)
    | (with_reducible refine logged_foldl (fun s x hK => ?_) ?_)
    | (with_reducible refine logged_foldl_fst (fun s x hK => ?_) ?_)
    | (refine logged_foldl_eq (by assumption) (fun s x hK => ?_) ?_)
    | (with_reducible refine logged_ite ?_ ?_)
    | (fail_if_no_progress beta_reduce)
    | (dsimp only [Logged]; with_reducible refine logged_of ?_; first | with_reducible assumption | (with_reducible refine logged_bump ?_ ..) | (with_reducible refine logged_evIrq ?_ ..) | (with_reducible refine logged_spreadEvent ?_ ..) | (refine logged_spreadEvent_eq (by assumption) ?_))
    | split
    | (refine logged_ite ?_ ?_))

theorem logged_enterEvent_eq {s0 s tE : State} {bE : RaiseNote} {e : EvRec} (hEq : State.enterEvent s e = (tE, bE)) (hK : Logged s0 s) : Logged s0 tE := by
  have k : Logged s0 (State.enterEvent s e).1 := logged_enterEvent hK
  rw [hEq] at k
  exact k

end Sys2Proof.Laws
end

