-- ==== Sys2Proof/Laws/Raise.lean ====
section
/-! SUPPORT. Setting a flag: what it writes and what it leaves, in one lemma each. -/

namespace Sys2Proof.Laws

open Sys2Proof Machine

/-- The registers after one flag is set with its event. -/
theorem logged_raiseOnce (s : State) (f : FieldRef) (i cls : Nat) (a : EvArg) :
    Logged (s.setF f i 1) (s.raiseOnce f i cls a).1 := by
  unfold State.raiseOnce
  dsimp only
  split
  · exact logged_enterEvent (logged_refl _)
  · split
    · exact logged_refl _
    · exact logged_bump (logged_refl _) _ _ _

theorem logged_statusOnce {s0 s : State} (h : Logged s0 s) (f : FieldRef) (cls : Nat) (a : EvArg) (hf : f.reg = .BB_STATUS) :
    Logged s0 (s.raiseOnce f 0 cls a).1 :=
  logged_trans h (logged_trans (logged_put (logged_refl s) f 1 (.inr hf)) (logged_raiseOnce s f 0 cls a))

theorem logged_raiseNotes {s0 s : State} (h : Logged s0 s) (n : RaiseNote) : Logged s0 (s.raiseNotes n) := by
  unfold State.raiseNotes
  dsimp only
  have h1 : Logged s0 (if n.overflow = true then (s.raiseOnce F.BB_STATUS.EV_OVERFLOW 0 1 .none).1 else s) :=
    logged_ite (logged_statusOnce h _ _ _ rfl) h
  exact logged_ite (logged_statusOnce h1 _ _ _ rfl) h1

theorem logged_raiseCls (s : State) (f : FieldRef) (i cls : Nat) (a : EvArg) : Logged (s.setF f i 1) (s.raiseCls f i cls a) := by
  unfold State.raiseCls
  have h := logged_raiseOnce s f i cls a
  cases e : s.raiseOnce f i cls a with
  | mk t n =>
    rw [e] at h
    exact logged_raiseNotes h n

theorem logged_raiseArg (s : State) (f : FieldRef) (i : Nat) (a : EvArg) : Logged (s.setF f i 1) (s.raiseArg f i a) := by
  unfold State.raiseArg
  split
  · exact logged_raiseCls s f i _ a
  · exact logged_refl _

/-- A flag that is set leaves the registers at other offsets, but for BB_EV_STAT and BB_STATUS. -/
theorem raiseArg_reg {s : State} (w : SMap.wf s.regs = true) (f : FieldRef) (i : Nat) (a : EvArg) (r : Reg) (k : Nat)
    (h1 : r.addr k ≠ Reg.addr .BB_EV_STAT 0) (h2 : r.addr k ≠ Reg.addr .BB_STATUS 0) (h3 : f.reg.addr i ≠ r.addr k) :
    (s.raiseArg f i a).reg r k = s.reg r k := by
  have h := RegsStand.same (logged_raiseArg s f i a) (wf_setF w f i 1) (r.addr k) h1 h2
  have g := reg_setF_ne w (f := f) (i := i) (x := 1) h3
  unfold State.reg at g ⊢
  rw [h, g]

/-- A flag that is set is set, where it is not one of BB_EV_STAT and BB_STATUS. -/
theorem raiseArg_getF {s : State} (w : SMap.wf s.regs = true) (f : FieldRef) (i : Nat) (a : EvArg) (hb : f.lo + f.w ≤ 64)
    (h1 : f.reg.addr i ≠ Reg.addr .BB_EV_STAT 0) (h2 : f.reg.addr i ≠ Reg.addr .BB_STATUS 0) :
    (s.raiseArg f i a).getF f i = 1 % 2 ^ f.w := by
  have h := RegsStand.same (logged_raiseArg s f i a) (wf_setF w f i 1) (f.reg.addr i) h1 h2
  have g := getF_setF w f i 1 hb
  unfold State.getF State.reg at g ⊢
  rw [h, g]

theorem wf_raiseArg {s : State} (w : SMap.wf s.regs = true) (f : FieldRef) (i : Nat) (a : EvArg) :
    SMap.wf (s.raiseArg f i a).regs = true :=
  RegsStand.wf (logged_raiseArg s f i a) (wf_setF w f i 1)

/-- What setting a flag changes: registers, the output, events and the ports' logs. -/
theorem raiseArg_eq (s : State) (f : FieldRef) (i : Nat) (a : EvArg) :
    s.raiseArg f i a = { s with
      regs := (s.raiseArg f i a).regs, out := (s.raiseArg f i a).out, events := (s.raiseArg f i a).events,
      ports := (s.raiseArg f i a).ports } := by
  have h := HushSame.eq (show HushSame (hush s) (hush (s.raiseArg f i a)) from flagged_raiseArg (flagged_refl s))
  generalize s.raiseArg f i a = t at h
  unfold hush at h
  injection h with h1 h2 h3 h4 h5 h6 h7 h8 h9 h10 h11 h12 h13 h14 h15 h16 h17 h18 h19 h20
  cases s; cases t
  simp_all

end Sys2Proof.Laws
end

