-- ==== Sys2Proof/Laws/Registers.lean ====
section
/-! SUPPORT. Accesses to registers: one lemma for the admission of a read, of a plain write and of a command given with its
arguments, which statements about commands cite. -/

namespace Sys2Proof.Laws

open Sys2Proof Machine Claims

/-- An access that is served is admitted as it stands. -/
theorem admit_served {s : State} {via : Via} {off : Nat} (h : Served s via off) (wr : Bool) : s.checkPath via off wr = .serve s := by
  obtain ⟨a, b, c⟩ := h
  simp [State.checkPath, a, b, c]

theorem served_tick {s : State} {via : Via} {off : Nat} (h : Served s via off) (a : Nat) : Served (s.tick a) via off := h

theorem taken_tick {s : State} {via : Via} {r : Reg} {i : Nat} (h : Taken s via r i) (a : Nat) : Taken (s.tick a) via r i := h

/-- A write that is served, of a register that is present, with no reserved bit written 1 and its function running, does what
its register does. -/
theorem writeAt_taken {s : State} {via : Via} {r : Reg} {i : Nat} {w : AccW} {v : Word} (h : Served s via (accOff r i w))
    (ha : s.absent r i = false) (hf : s.fencedReg r i = false) (hv : accValue w v &&& accMask w &&& ~~~(knownBits r) = 0#64)
    (act : State → State) : s.writeAt via r i w v act = act s := by
  unfold State.writeAt State.checkRsv
  simp [admit_served h, ha, hf, hv]

/-- The registers that the admission of an access reads. -/
def gatesAccess (r : Reg) : Bool :=
  match r with
  | .PT_LINK | .PT_CFG => true
  | _ => false

/-- Argument registers never lie where the admission of an access looks. -/
def argReg (r : Reg) : Bool :=
  match r with
  | .BL_CMD_ARG0 | .BL_CMD_ARG1 | .BL_CMD_ARG2 | .QU_CMD_ARG0 | .QU_CMD_ARG1 | .QU_CMD_ARG2 | .QU_CMD_ARG3 | .QU_CMD_ARG4
  | .IS_CMD_ARG0 | .IS_CMD_ARG1 | .XT_CMD_ARG0 => true
  | _ => false

theorem argReg_apart {r g : Reg} (hr : argReg r = true) (hg : gatesAccess g = true) (p : Nat) (hp : p < 96) :
    r.addr 0 ≠ g.addr p := by
  cases r <;> cases hr <;> cases g <;> cases hg <;> simp [Reg.addr, Reg.info] <;> omega

theorem wf_withArgs {s : State} (w : RegsOrdered s) (l : List (Reg × Word)) : RegsOrdered (withArgs s l) := by
  induction l generalizing s with
  | nil => exact w
  | cons a t ih => exact ih (wf_setReg w a.1 0 a.2)

theorem withArgs_reg_ne {s : State} (w : RegsOrdered s) (l : List (Reg × Word)) (r : Reg) (i : Nat)
    (h : ∀ a ∈ l, a.1.addr 0 ≠ r.addr i) : (withArgs s l).reg r i = s.reg r i := by
  induction l generalizing s with
  | nil => rfl
  | cons a t ih =>
    have e := ih (s := s.setReg a.1 0 a.2) (wf_setReg w a.1 0 a.2) (fun x hx => h x (List.mem_cons_of_mem _ hx))
    exact e.trans (reg_setReg_ne w a.2 (h a (List.mem_cons_self ..)))

theorem withArgs_eq (s : State) (l : List (Reg × Word)) : withArgs s l = { s with regs := (withArgs s l).regs } := by
  induction l generalizing s with
  | nil => rfl
  | cons a t ih => exact ih (s.setReg a.1 0 a.2)

/-- Arguments written leave the admission of an access as it was. -/
theorem served_withArgs {s : State} (w : RegsOrdered s) {l : List (Reg × Word)} (hl : ∀ a ∈ l, argReg a.1 = true) {via : Via}
    (hp : match via with | .mgmt => True | .host p _ => p < 96) {off : Nat} (h : Served s via off) :
    Served (withArgs s l) via off := by
  have e := withArgs_eq s l
  have rd : ∀ (g : Reg) (p : Nat), gatesAccess g = true → p < 96 → (withArgs s l).reg g p = s.reg g p := fun g p hg hp =>
    withArgs_reg_ne w l g p (fun a ha => argReg_apart (hl a ha) hg p hp)
  obtain ⟨a, b, c⟩ := h
  cases via with
  | mgmt =>
    refine ⟨?_, rfl, ?_⟩
    · rw [e]; exact a
    · rw [e]; exact c
  | host p ld =>
    refine ⟨?_, ?_, ?_⟩
    · change (bitsOf (s.reg F.PT_LINK.STATE.reg p) F.PT_LINK.STATE.lo F.PT_LINK.STATE.w == 2
        && bitsOf (s.reg F.PT_CFG.PERSONALITY.reg p) F.PT_CFG.PERSONALITY.lo F.PT_CFG.PERSONALITY.w == 1) = true at a
      change (bitsOf ((withArgs s l).reg F.PT_LINK.STATE.reg p) F.PT_LINK.STATE.lo F.PT_LINK.STATE.w == 2
        && bitsOf ((withArgs s l).reg F.PT_CFG.PERSONALITY.reg p) F.PT_CFG.PERSONALITY.lo F.PT_CFG.PERSONALITY.w == 1) = true
      rw [show F.PT_LINK.STATE.reg = .PT_LINK from rfl, show F.PT_CFG.PERSONALITY.reg = .PT_CFG from rfl,
        rd .PT_LINK p rfl hp, rd .PT_CFG p rfl hp]
      exact a
    · change (bitsOf (s.reg F.PT_CFG.MGMT_EN.reg p) F.PT_CFG.MGMT_EN.lo F.PT_CFG.MGMT_EN.w == 1
        && bitsOf (s.reg F.PT_CFG.MGMT_LD.reg p) F.PT_CFG.MGMT_LD.lo F.PT_CFG.MGMT_LD.w == ld) = true at b
      change (bitsOf ((withArgs s l).reg F.PT_CFG.MGMT_EN.reg p) F.PT_CFG.MGMT_EN.lo F.PT_CFG.MGMT_EN.w == 1
        && bitsOf ((withArgs s l).reg F.PT_CFG.MGMT_LD.reg p) F.PT_CFG.MGMT_LD.lo F.PT_CFG.MGMT_LD.w == ld) = true
      rw [show F.PT_CFG.MGMT_EN.reg = .PT_CFG from rfl, show F.PT_CFG.MGMT_LD.reg = .PT_CFG from rfl, rd .PT_CFG p rfl hp]
      exact b
    · rw [e]; exact c

/-- A command register with arguments is taken: the command runs on the state with its arguments written. -/
theorem command_taken {s : State} (w : RegsOrdered s) {via : Via} {r : Reg} {i : Nat} (h : Taken s via r i)
    {l : List (Reg × Word)} (hl : ∀ a ∈ l, argReg a.1 = true) (h0 : l = [] ∨ (i = 0 ∧ ∀ s : State, s.absent r 0 = false ∧ s.fencedReg r 0 = false))
    {v : Word} (hv : v &&& ~~~(knownBits r) = 0#64) (run : State → State) : s.command via r i l v run = run (withArgs s l) := by
  obtain ⟨hp, hs, ha, hf⟩ := h
  have hw : accValue .full v &&& accMask .full &&& ~~~(knownBits r) = 0#64 := by
    rw [show accValue .full v &&& accMask .full = v from BitVec.and_allOnes]
    exact hv
  unfold State.command
  simp only [admit_served hs, ha]
  rcases h0 with rfl | ⟨rfl, h0⟩
  · exact writeAt_taken (w := .full) hs ha hf hw run
  · exact writeAt_taken (s := withArgs s l) (w := .full) (served_withArgs w hl hp hs) (h0 _).1 (h0 _).2 hw run

end Sys2Proof.Laws
end

