-- ==== Sys2Proof/Laws/Served.lean ====
section
/-! SUPPORT. Accesses that are served, flags set and counters reset, in the terms of the statements: what a proof of a register
command cites instead of unfolding the access path. -/

namespace Sys2Proof.Laws

open Sys2Proof Machine Claims

/-- The halves of a register lie in its own word. -/
theorem accOff_word (r : Reg) (i : Nat) (w : AccW) (h : r.addr i % 8 = 0) : accOff r i w / 8 * 8 = r.addr i := by
  unfold accOff
  cases w <;> simp <;> omega

/-- An admitted access changes nothing by its admission. -/
theorem serve_same {s t : State} {via : Via} {off : Nat} {write : Bool} (h : s.checkPath via off write = .serve t) : t = s := by
  unfold State.checkPath at h
  split at h
  · cases h
  · split at h
    · cases h
    · split at h
      · cases h
      · cases h; rfl

/-- Two steps that agree on the state at hand make the same register write. -/
theorem writeAt_congr {s : State} {via : Via} {r : Reg} {i : Nat} {w : AccW} {v : Word} {f g : State → State} (h : f s = g s) :
    s.writeAt via r i w v f = s.writeAt via r i w v g := by
  unfold State.writeAt
  dsimp only
  split
  · rfl
  · next t e => rw [serve_same e, h]

/-- A write that starts no step of its own follows the access types. -/
theorem writeReg_plain (s : State) (via : Via) (r : Reg) (i : Nat) (w : AccW) (v : Word) (h0 : r.info.count ≤ 1 → i = 0)
    (h : startsStep s r w v = false) : s.writeReg via r i w v = s.writePlain via r i w v := by
  cases r <;> try first | (simp [startsStep, ownStep] at h; done) | rfl
  case PW_PERSIST_STATUS =>
    obtain rfl := h0 (by decide)
    simp only [startsStep] at h
    simp only [State.writeReg, State.writePersist, h, Bool.false_and, Bool.false_eq_true, if_false]
  case TW_ROTATE_CTL =>
    obtain rfl := h0 (by decide)
    simp only [startsStep] at h
    exact writeAt_congr (by simp only [h, Bool.false_and, Bool.false_eq_true, if_false])
  case DC_TRN_CTL => simp only [startsStep] at h; simp only [State.writeReg, State.trainGo, h, Bool.false_eq_true, if_false]
  case DC_PPR_CMD => simp only [startsStep] at h; simp only [State.writeReg, State.pprGo, h, Bool.false_eq_true, if_false]

/-- The registers lie below the doorbells. -/
theorem regAt_lt {off : Nat} {r : Reg} {i : Nat} (h : regAt off = some (r, i)) : off < 0x2000000 := by
  by_contra hle
  unfold regAt at h
  have big : 32 ≤ off / 0x100000 := by omega
  have e : regsOfBlock (off / 0x100000) = [] := by
    generalize off / 0x100000 = b at big
    unfold regsOfBlock
    split <;> first | omega | rfl
  rw [e] at h
  simp at h

/-- A one-bit flag set with its event is set, and nothing but the event's own registers moves with it. -/
theorem flagSet_raiseArg {s : State} (w : RegsOrdered s) (f : FieldRef) (i : Nat) (a : EvArg) (hb : f.lo + f.w ≤ 64) (hw : f.w = 1)
    (h1 : f.reg.addr i ≠ Reg.addr .BB_EV_STAT 0) (h2 : f.reg.addr i ≠ Reg.addr .BB_STATUS 0) : FlagSet s (s.raiseArg f i a) f i := by
  refine ⟨?_, fun r k a1 a2 a3 => raiseArg_reg w f i a r k a2 a3 (Ne.symm a1), raiseArg_eq s f i a⟩
  rw [raiseArg_getF w f i a hb h1 h2, hw]
  rfl

/-- A refused access sets its flag and its log. -/
theorem flagSet_flagAccess {s : State} (w : RegsOrdered s) (via : Via) (off : Nat) (wr : Bool) (f : FieldRef)
    (hf : f.reg = .GB_ACCESS_STATUS) (hb : f.lo + f.w ≤ 64) (hw : f.w = 1) :
    FlagSet (s.setReg .GB_ACCESS_LOG 0 (accessLog via off wr f.lo)) (s.flagAccess via off wr f) f 0 := by
  unfold State.flagAccess
  refine flagSet_raiseArg (wf_setReg w _ _ _) f 0 .none hb hw ?_ ?_ <;> rw [hf] <;> decide

/-- A read that resets a field clears it if the access covers it, and leaves the rest. -/
theorem clearRead_spec {s : State} (w : RegsOrdered s) (f : FieldRef) (i : Nat) (a : AccW) (hb : f.lo + f.w ≤ 64)
    (hc : ((word (2 ^ f.w - 1) <<< f.lo) &&& accMask a = 0#64) = (covers a f.lo = false)) :
    (s.clearRead f i a).getF f i = (if covers a f.lo then 0 else s.getF f i) ∧ RegsOrdered (s.clearRead f i a)
    ∧ (∀ r k, r.addr k ≠ f.reg.addr i → (s.clearRead f i a).reg r k = s.reg r k)
    ∧ (∀ g : FieldRef, g.reg = f.reg → (f.lo + f.w ≤ g.lo ∨ g.lo + g.w ≤ f.lo) → (s.clearRead f i a).getF g i = s.getF g i)
    ∧ s.clearRead f i a = { s with regs := (s.clearRead f i a).regs } := by
  unfold State.clearRead
  simp only [hc]
  cases h : covers a f.lo
  · simp
    exact w
  · simp
    refine ⟨?_, wf_setF w _ _ _, fun r k n => reg_setF_ne w _ (Ne.symm n), fun g e d => getF_setF_ne w f g i 0 e hb d, rfl⟩
    rw [getF_setF w _ _ _ hb]
    simp

end Sys2Proof.Laws
end

