-- ==== Sys2Proof/Laws/Stays.lean ====
section
/-! SUPPORT. What the rules that follow a command leave alone (State.settle and what it calls): the queue, device time, the power
sequence, the test port, the one-time cells, images, the save area, keys, the bolt table, tenants, decoders, quotas and the pair
state. -/

namespace Sys2Proof.Laws

open Sys2Proof Machine

/-- The parts of a state that stay. -/
structure Still where
  queue : List Instr
  time : TimeSt
  power : PowerSt
  jtag : JtagSt
  otp : OtpSt
  image : ImageSt
  save : SaveSt
  cipher : CipherSt
  bolts : SMap BoltEntry
  crcBad : List Nat
  fetches : SMap (List Nat)
  boltCache : List Nat
  draining : List Nat
  gateHeld : List GateHeld
  tenants : List Nat
  ldTenant : SMap Nat
  decoders : SMap (List Hdm)
  gate : SMap Nat
  quotas : SMap Quota
  twin : TwinSt
  stripe : StripeSt
  enabled : List Nat
  lsa : SMap (SMap Byte)
  timeOff : Option (Nat × Nat)
  peers : SMap Peer
  blBusy : Option BlBusy
  ways : List WaySt
  blocks : SMap Block

/-- The parts of a state. -/
def still (s : State) : Still :=
  { queue := s.pending, time := s.time, power := s.power, jtag := s.jtag, otp := s.otp, image := s.image, save := s.save, cipher := s.cipher, bolts := s.bay.bolts, crcBad := s.bay.crcBad, fetches := s.bay.fetches, boltCache := s.bay.boltCache, draining := s.bay.draining, gateHeld := s.bay.gateHeld, tenants := s.bay.tenants, ldTenant := s.bay.ldTenant, decoders := s.bay.decoders, gate := s.bay.gate, quotas := s.tier.quotas, twin := { s.twin with mirrorOut := [], copyAcks := [] }, stripe := { s.stripe with skim := [] }, enabled := s.engines.enabled, lsa := s.ports.lsa, timeOff := s.ports.timeOff, peers := s.bay.peers, blBusy := s.bay.blBusy, ways := s.crown.ways, blocks := s.flash.blocks }

/-- The parts are the same. -/
structure StillSame (a b : Still) : Prop where
  eq : b = a

/-- The parts of `s0` stand in `s`. -/
def Stays (s0 s : State) : Prop := StillSame (still s0) (still s)

theorem stays_refl (s : State) : Stays s s := StillSame.mk rfl

theorem stays_trans {s t u : State} (h : Stays s t) (k : Stays t u) : Stays s u :=
  StillSame.mk ((StillSame.eq k).trans (StillSame.eq h))

variable {s0 s : State}

theorem stays_setReg (h : Stays s0 s) (r : Reg) (i : Nat) (v : Word) : Stays s0 (s.setReg r i v) := h

theorem stays_setF (h : Stays s0 s) (f : FieldRef) (i x : Nat) : Stays s0 (s.setF f i x) := h

theorem stays_put (h : Stays s0 s) (f : FieldRef) (x : Nat) : Stays s0 (s.put f x) := h

theorem stays_bump (h : Stays s0 s) (f : FieldRef) (i n : Nat) : Stays s0 (s.bump f i n) := h

theorem stays_emit (h : Stays s0 s) (o : Out) : Stays s0 (s.emit o) := h

theorem stays_putLine (h : Stays s0 s) (l : Nat) (be : Word) (d : LineData) : Stays s0 (s.putLine l be d) := h

theorem stays_zeroRange (h : Stays s0 s) (a n : Nat) : Stays s0 (s.zeroRange a n) := h

theorem stays_nextFree (h : Stays s0 s) : Stays s0 s.nextFree.2 := h

theorem stays_draw (h : Stays s0 s) : Stays s0 s.draw.2 := h

theorem stays_nextFree_eq {n : Nat} {t : State} (e : s.nextFree = (n, t)) (h : Stays s0 s) : Stays s0 t := by
  have k := stays_nextFree h
  rw [e] at k
  exact k

theorem stays_draw_eq {n : BitVec 64} {t : State} (e : s.draw = (n, t)) (h : Stays s0 s) : Stays s0 t := by
  have k := stays_draw h
  rw [e] at k
  exact k

/-- A loop whose every turn keeps, keeps. -/
theorem stays_foldl {β : Type} {g : State → β → State} {l : List β} (hg : ∀ s x, Stays s0 s → Stays s0 (g s x))
    (h : Stays s0 s) : Stays s0 (l.foldl g s) :=
  foldl_keeps (P := fun s => Stays s0 s) g (fun s x k => hg s x k) l s h

theorem stays_foldr {β : Type} {g : β → State → State} {l : List β} (hg : ∀ s x, Stays s0 s → Stays s0 (g x s))
    (h : Stays s0 s) : Stays s0 (l.foldr g s) := by
  induction l with
  | nil => exact h
  | cons b t ih => exact hg _ b ih

/-- What may answer a state keeps, where it answers one. -/
structure OStays {α : Type} (s0 : State) (g : α → State) (o : Option α) : Prop where
  of : ∀ x, o = some x → Stays s0 (g x)

theorem ostays_none {α : Type} {g : α → State} : OStays s0 g none := ⟨fun _ h => by cases h⟩

theorem ostays_some {α : Type} {g : α → State} {x : α} (h : Stays s0 (g x)) : OStays s0 g (some x) :=
  ⟨fun _ e => by cases e; exact h⟩

theorem ostays_step {α : Type} {g : α → State} {o : Option State} {f : State → α} (h : OStays s0 (fun x => x) o)
    (k : ∀ s, Stays s0 s → Stays s0 (g (f s))) : OStays s0 g (o.map f) := by
  refine ⟨fun x e => ?_⟩
  cases o with
  | none => cases e
  | some y => cases e; exact k y (h.of y rfl)

theorem ostays_ite {α : Type} {g : α → State} {c : Prop} {d : Decidable c} {a b : Option α} (ha : OStays s0 g a)
    (hb : OStays s0 g b) : OStays s0 g (@ite _ c d a b) := by
  split
  · exact ha
  · exact hb

theorem ostays_fst {α : Type} {t : State} {b : α} (h : OStays s0 Prod.fst (some (t, b))) : Stays s0 t := h.of _ rfl

theorem ostays_eq {α : Type} {t : State} {b : α} {o : Option (State × α)} (h : OStays s0 Prod.fst o) (e : o = some (t, b)) :
    Stays s0 t := h.of _ e

/-- A state that differs from one that stays in other parts only. -/
theorem stays_of (h : Stays s0 s) : StillSame
    { queue := s0.pending, time := s0.time, power := s0.power, jtag := s0.jtag, otp := s0.otp, image := s0.image, save := s0.save, cipher := s0.cipher, bolts := s0.bay.bolts, crcBad := s0.bay.crcBad, fetches := s0.bay.fetches, boltCache := s0.bay.boltCache, draining := s0.bay.draining, gateHeld := s0.bay.gateHeld, tenants := s0.bay.tenants, ldTenant := s0.bay.ldTenant, decoders := s0.bay.decoders, gate := s0.bay.gate, quotas := s0.tier.quotas, twin := { s0.twin with mirrorOut := [], copyAcks := [] }, stripe := { s0.stripe with skim := [] }, enabled := s0.engines.enabled, lsa := s0.ports.lsa, timeOff := s0.ports.timeOff, peers := s0.bay.peers, blBusy := s0.bay.blBusy, ways := s0.crown.ways, blocks := s0.flash.blocks }
    { queue := s.pending, time := s.time, power := s.power, jtag := s.jtag, otp := s.otp, image := s.image, save := s.save, cipher := s.cipher, bolts := s.bay.bolts, crcBad := s.bay.crcBad, fetches := s.bay.fetches, boltCache := s.bay.boltCache, draining := s.bay.draining, gateHeld := s.bay.gateHeld, tenants := s.bay.tenants, ldTenant := s.bay.ldTenant, decoders := s.bay.decoders, gate := s.bay.gate, quotas := s.tier.quotas, twin := { s.twin with mirrorOut := [], copyAcks := [] }, stripe := { s.stripe with skim := [] }, enabled := s.engines.enabled, lsa := s.ports.lsa, timeOff := s.ports.timeOff, peers := s.bay.peers, blBusy := s.bay.blBusy, ways := s.crown.ways, blocks := s.flash.blocks } := h

/-- A state that differs from one that stays in other parts only. -/
theorem stays_ofFree (h : Stays s0 s) : StillSame
    { queue := s0.pending, time := s0.time, power := s0.power, jtag := s0.jtag, otp := s0.otp, image := s0.image, save := s0.save, cipher := s0.cipher, bolts := s0.bay.bolts, crcBad := s0.bay.crcBad, fetches := s0.bay.fetches, boltCache := s0.bay.boltCache, draining := s0.bay.draining, gateHeld := s0.bay.gateHeld, tenants := s0.bay.tenants, ldTenant := s0.bay.ldTenant, decoders := s0.bay.decoders, gate := s0.bay.gate, quotas := s0.tier.quotas, twin := { s0.twin with mirrorOut := [], copyAcks := [] }, stripe := { s0.stripe with skim := [] }, enabled := s0.engines.enabled, lsa := s0.ports.lsa, timeOff := s0.ports.timeOff, peers := s0.bay.peers, blBusy := s0.bay.blBusy, ways := s0.crown.ways, blocks := s0.flash.blocks }
    { queue := s.pending, time := s.time, power := s.power, jtag := s.jtag, otp := s.otp, image := s.image, save := s.save, cipher := s.cipher, bolts := s.bay.bolts, crcBad := s.bay.crcBad, fetches := s.bay.fetches, boltCache := s.bay.boltCache, draining := s.bay.draining, gateHeld := s.bay.gateHeld, tenants := s.bay.tenants, ldTenant := s.bay.ldTenant, decoders := s.bay.decoders, gate := s.bay.gate, quotas := s.tier.quotas, twin := { s.twin with mirrorOut := [], copyAcks := [] }, stripe := { s.stripe with skim := [] }, enabled := s.engines.enabled, lsa := s.ports.lsa, timeOff := s.ports.timeOff, peers := s.bay.peers, blBusy := s.bay.blBusy, ways := s.crown.ways, blocks := s.flash.blocks } := h

/-- Both ways of a choice keep. -/
theorem stays_ite {c : Prop} {d : Decidable c} {a b : State} (ha : Stays s0 a) (hb : Stays s0 b) :
    Stays s0 (@ite State c d a b) := by
  split
  · exact ha
  · exact hb

/-- The next state of a command keeps, where it answers one. -/
structure XStays (s0 : State) (o : Host.Outcome State Fault Refusal) : Prop where
  of : ∀ t, o = .next t → Stays s0 t

theorem xstays_next {t : State} (h : Stays s0 t) : XStays s0 (.next t) := ⟨fun _ e => by cases e; exact h⟩

/-- A loop over pairs of a state and something else. -/
theorem stays_foldl_fst {β γ : Type} {g : State × γ → β → State × γ} {l : List β} {p : State × γ}
    (hg : ∀ p x, Stays s0 p.1 → Stays s0 (g p x).1) (h : Stays s0 p.1) : Stays s0 (l.foldl g p).1 :=
  foldl_keeps (P := fun p => Stays s0 p.1) g (fun p x k => hg p x k) l p h

theorem stays_foldl_eq {β γ : Type} {g : State × γ → β → State × γ} {l : List β} {p : State × γ} {t : State} {b : γ}
    (e : l.foldl g p = (t, b)) (hg : ∀ p x, Stays s0 p.1 → Stays s0 (g p x).1) (h : Stays s0 p.1) : Stays s0 t := by
  have k := stays_foldl_fst (l := l) hg h
  rw [e] at k
  exact k

theorem stays_getD {o : Option State} (h : OStays s0 (fun x => x) o) (k : Stays s0 s) : Stays s0 (o.getD s) := by
  cases o with
  | none => exact k
  | some t => exact h.of t rfl

end Sys2Proof.Laws
end

