-- ==== Sys2Proof/Laws/StaysFlags.lean ====
section
/-! SUPPORT. The operations of Machine/Flags.lean that State.settle calls leave alone what Laws/Stays.lean names. -/

set_option linter.unusedTactic false
set_option linter.unreachableTactic false
set_option linter.unusedVariables false

namespace Sys2Proof.Laws

open Sys2Proof Machine

theorem stays_cxlRecord {s0 s : State} {key : Nat} {e : EvRec} (hK : Stays s0 s) :
    Stays s0 (State.cxlRecord s key e) := by
  unfold State.cxlRecord
  repeat' (first
    | (with_reducible assumption)
    | (intro x; first | ((have hx : Stays s0 x := ?_); (try clear_value x); rotate_left; dsimp -zeta only [x]; rotate_right) | ((have hx : Stays s0 x.1 := ?_); (try clear_value x); rotate_left; dsimp -zeta only [x]; rotate_right) | ((have hx : Stays s0 x.2 := ?_); (try clear_value x); rotate_left; dsimp -zeta only [x]; rotate_right) | ((have hf : x.ldTenant = x.ldTenant := rfl); clear hf; dsimp -zeta only [x]) | ((have hf : x.fromRejoin = x.fromRejoin := rfl); clear hf; dsimp -zeta only [x]) | ((have hf : x.quotas = x.quotas := rfl); clear hf; dsimp -zeta only [x]) | ((have hf : x.resyncKind = x.resyncKind := rfl); clear hf; dsimp -zeta only [x]) | ((have hf : x.eng = x.eng := rfl); clear hf; dsimp -zeta only [x]) | ((have hf : x.lsa = x.lsa := rfl); clear hf; dsimp -zeta only [x]) | ((have hf : x.missMax = x.missMax := rfl); clear hf; dsimp -zeta only [x]) | ((have hf : x.jseq = x.jseq := rfl); clear hf; dsimp -zeta only [x]) | (clear_value x) | skip)
    | lift_lets -underBinder
    | (with_reducible refine stays_put ?_ ..)
    | (with_reducible refine stays_ite ?_ ?_)
    | (fail_if_no_progress beta_reduce)
    | (dsimp only [Stays, still]; with_reducible refine stays_of ?_; first | with_reducible assumption | (with_reducible refine stays_put ?_ ..))
    | split
    | (refine stays_ite ?_ ?_))

theorem stays_msix {s0 s : State} {port : Nat} {ld : Nat} {vector : Nat} (hK : Stays s0 s) :
    Stays s0 (State.msix s port ld vector) := by
  unfold State.msix
  repeat' (first
    | (with_reducible assumption)
    | (intro x; first | ((have hx : Stays s0 x := ?_); (try clear_value x); rotate_left; dsimp -zeta only [x]; rotate_right) | ((have hx : Stays s0 x.1 := ?_); (try clear_value x); rotate_left; dsimp -zeta only [x]; rotate_right) | ((have hx : Stays s0 x.2 := ?_); (try clear_value x); rotate_left; dsimp -zeta only [x]; rotate_right) | ((have hf : x.ldTenant = x.ldTenant := rfl); clear hf; dsimp -zeta only [x]) | ((have hf : x.fromRejoin = x.fromRejoin := rfl); clear hf; dsimp -zeta only [x]) | ((have hf : x.quotas = x.quotas := rfl); clear hf; dsimp -zeta only [x]) | ((have hf : x.resyncKind = x.resyncKind := rfl); clear hf; dsimp -zeta only [x]) | ((have hf : x.eng = x.eng := rfl); clear hf; dsimp -zeta only [x]) | ((have hf : x.lsa = x.lsa := rfl); clear hf; dsimp -zeta only [x]) | ((have hf : x.missMax = x.missMax := rfl); clear hf; dsimp -zeta only [x]) | ((have hf : x.jseq = x.jseq := rfl); clear hf; dsimp -zeta only [x]) | (clear_value x) | skip)
    | lift_lets -underBinder
    | (with_reducible refine stays_emit ?_ ..)
    | (with_reducible refine stays_ite ?_ ?_)
    | (fail_if_no_progress beta_reduce)
    | (dsimp only [Stays, still]; with_reducible refine stays_of ?_; first | with_reducible assumption | (with_reducible refine stays_emit ?_ ..))
    | split
    | (refine stays_ite ?_ ?_))

theorem stays_evSend {s0 s : State} {t : Nat} (hK : Stays s0 s) :
    Stays s0 (State.evSend s t) := by
  unfold State.evSend
  repeat' (first
    | (with_reducible assumption)
    | (intro x; first | ((have hx : Stays s0 x := ?_); (try clear_value x); rotate_left; dsimp -zeta only [x]; rotate_right) | ((have hx : Stays s0 x.1 := ?_); (try clear_value x); rotate_left; dsimp -zeta only [x]; rotate_right) | ((have hx : Stays s0 x.2 := ?_); (try clear_value x); rotate_left; dsimp -zeta only [x]; rotate_right) | ((have hf : x.ldTenant = x.ldTenant := rfl); clear hf; dsimp -zeta only [x]) | ((have hf : x.fromRejoin = x.fromRejoin := rfl); clear hf; dsimp -zeta only [x]) | ((have hf : x.quotas = x.quotas := rfl); clear hf; dsimp -zeta only [x]) | ((have hf : x.resyncKind = x.resyncKind := rfl); clear hf; dsimp -zeta only [x]) | ((have hf : x.eng = x.eng := rfl); clear hf; dsimp -zeta only [x]) | ((have hf : x.lsa = x.lsa := rfl); clear hf; dsimp -zeta only [x]) | ((have hf : x.missMax = x.missMax := rfl); clear hf; dsimp -zeta only [x]) | ((have hf : x.jseq = x.jseq := rfl); clear hf; dsimp -zeta only [x]) | (clear_value x) | skip)
    | lift_lets -underBinder
    | (with_reducible refine stays_emit ?_ ..)
    | (with_reducible refine stays_put ?_ ..)
    | (with_reducible refine stays_msix ?_ ..)
    | (with_reducible refine stays_ite ?_ ?_)
    | (fail_if_no_progress beta_reduce)
    | (dsimp only [Stays, still]; with_reducible refine stays_of ?_; first | with_reducible assumption | (with_reducible refine stays_emit ?_ ..) | (with_reducible refine stays_put ?_ ..) | (with_reducible refine stays_msix ?_ ..))
    | split
    | (refine stays_ite ?_ ?_))

theorem stays_evIrq {s0 s : State} {t : Nat} (hK : Stays s0 s) :
    Stays s0 (State.evIrq s t) := by
  unfold State.evIrq
  repeat' (first
    | (with_reducible assumption)
    | (intro x; first | ((have hx : Stays s0 x := ?_); (try clear_value x); rotate_left; dsimp -zeta only [x]; rotate_right) | ((have hx : Stays s0 x.1 := ?_); (try clear_value x); rotate_left; dsimp -zeta only [x]; rotate_right) | ((have hx : Stays s0 x.2 := ?_); (try clear_value x); rotate_left; dsimp -zeta only [x]; rotate_right) | ((have hf : x.ldTenant = x.ldTenant := rfl); clear hf; dsimp -zeta only [x]) | ((have hf : x.fromRejoin = x.fromRejoin := rfl); clear hf; dsimp -zeta only [x]) | ((have hf : x.quotas = x.quotas := rfl); clear hf; dsimp -zeta only [x]) | ((have hf : x.resyncKind = x.resyncKind := rfl); clear hf; dsimp -zeta only [x]) | ((have hf : x.eng = x.eng := rfl); clear hf; dsimp -zeta only [x]) | ((have hf : x.lsa = x.lsa := rfl); clear hf; dsimp -zeta only [x]) | ((have hf : x.missMax = x.missMax := rfl); clear hf; dsimp -zeta only [x]) | ((have hf : x.jseq = x.jseq := rfl); clear hf; dsimp -zeta only [x]) | (clear_value x) | skip)
    | lift_lets -underBinder
    | (with_reducible refine stays_put ?_ ..)
    | (with_reducible refine stays_evSend ?_ ..)
    | (with_reducible refine stays_ite ?_ ?_)
    | (fail_if_no_progress beta_reduce)
    | (dsimp only [Stays, still]; with_reducible refine stays_of ?_; first | with_reducible assumption | (with_reducible refine stays_put ?_ ..) | (with_reducible refine stays_evSend ?_ ..))
    | split
    | (refine stays_ite ?_ ?_))

theorem stays_bbRecord {s0 s : State} {cls : Nat} {body : BBody} (hK : Stays s0 s) :
    Stays s0 (State.bbRecord s cls body) := by
  unfold State.bbRecord
  repeat' (first
    | (with_reducible assumption)
    | (intro x; first | ((have hx : Stays s0 x := ?_); (try clear_value x); rotate_left; dsimp -zeta only [x]; rotate_right) | ((have hx : Stays s0 x.1 := ?_); (try clear_value x); rotate_left; dsimp -zeta only [x]; rotate_right) | ((have hx : Stays s0 x.2 := ?_); (try clear_value x); rotate_left; dsimp -zeta only [x]; rotate_right) | ((have hf : x.ldTenant = x.ldTenant := rfl); clear hf; dsimp -zeta only [x]) | ((have hf : x.fromRejoin = x.fromRejoin := rfl); clear hf; dsimp -zeta only [x]) | ((have hf : x.quotas = x.quotas := rfl); clear hf; dsimp -zeta only [x]) | ((have hf : x.resyncKind = x.resyncKind := rfl); clear hf; dsimp -zeta only [x]) | ((have hf : x.eng = x.eng := rfl); clear hf; dsimp -zeta only [x]) | ((have hf : x.lsa = x.lsa := rfl); clear hf; dsimp -zeta only [x]) | ((have hf : x.missMax = x.missMax := rfl); clear hf; dsimp -zeta only [x]) | ((have hf : x.jseq = x.jseq := rfl); clear hf; dsimp -zeta only [x]) | (clear_value x) | skip)
    | lift_lets -underBinder
    | (with_reducible refine stays_health ?_ ..)
    | (with_reducible refine stays_getD ?_ ?_)
    | (with_reducible refine stays_ite ?_ ?_)
    | (fail_if_no_progress beta_reduce)
    | (dsimp only [Stays, still]; with_reducible refine stays_of ?_; first | with_reducible assumption | (with_reducible refine stays_health ?_ ..))
    | split
    | (refine stays_ite ?_ ?_))

theorem stays_bbEvent {s0 s : State} {f : FieldRef} {i : Nat} {e : EvRec} (hK : Stays s0 s) :
    Stays s0 (State.bbEvent s f i e).1 := by
  unfold State.bbEvent
  repeat' (first
    | (with_reducible assumption)
    | (intro x; first | ((have hx : Stays s0 x := ?_); (try clear_value x); rotate_left; dsimp -zeta only [x]; rotate_right) | ((have hx : Stays s0 x.1 := ?_); (try clear_value x); rotate_left; dsimp -zeta only [x]; rotate_right) | ((have hx : Stays s0 x.2 := ?_); (try clear_value x); rotate_left; dsimp -zeta only [x]; rotate_right) | ((have hf : x.ldTenant = x.ldTenant := rfl); clear hf; dsimp -zeta only [x]) | ((have hf : x.fromRejoin = x.fromRejoin := rfl); clear hf; dsimp -zeta only [x]) | ((have hf : x.quotas = x.quotas := rfl); clear hf; dsimp -zeta only [x]) | ((have hf : x.resyncKind = x.resyncKind := rfl); clear hf; dsimp -zeta only [x]) | ((have hf : x.eng = x.eng := rfl); clear hf; dsimp -zeta only [x]) | ((have hf : x.lsa = x.lsa := rfl); clear hf; dsimp -zeta only [x]) | ((have hf : x.missMax = x.missMax := rfl); clear hf; dsimp -zeta only [x]) | ((have hf : x.jseq = x.jseq := rfl); clear hf; dsimp -zeta only [x]) | (clear_value x) | skip)
    | lift_lets -underBinder
    | (with_reducible refine stays_bbRecord ?_ ..)
    | (with_reducible refine stays_ite ?_ ?_)
    | (fail_if_no_progress beta_reduce)
    | (dsimp only [Stays, still]; with_reducible refine stays_of ?_; first | with_reducible assumption | (with_reducible refine stays_bbRecord ?_ ..))
    | split
    | (refine stays_ite ?_ ?_))

theorem stays_bbEvent_eq {s0 s tE : State} {bE : Bool} {f : FieldRef} {i : Nat} {e : EvRec} (hEq : State.bbEvent s f i e = (tE, bE)) (hK : Stays s0 s) : Stays s0 tE := by
  have k : Stays s0 (State.bbEvent s f i e).1 := stays_bbEvent hK
  rw [hEq] at k
  exact k

theorem stays_spreadEvent {s0 s : State} {e : EvRec} {irq : Bool} {p : EventSt × Bool} (hK : Stays s0 s) :
    Stays s0 (State.spreadEvent s e irq p).1 := by
  unfold State.spreadEvent
  repeat' (first
    | (with_reducible assumption)
    | (intro x; first | ((have hx : Stays s0 x := ?_); (try clear_value x); rotate_left; dsimp -zeta only [x]; rotate_right) | ((have hx : Stays s0 x.1 := ?_); (try clear_value x); rotate_left; dsimp -zeta only [x]; rotate_right) | ((have hx : Stays s0 x.2 := ?_); (try clear_value x); rotate_left; dsimp -zeta only [x]; rotate_right) | ((have hf : x.ldTenant = x.ldTenant := rfl); clear hf; dsimp -zeta only [x]) | ((have hf : x.fromRejoin = x.fromRejoin := rfl); clear hf; dsimp -zeta only [x]) | ((have hf : x.quotas = x.quotas := rfl); clear hf; dsimp -zeta only [x]) | ((have hf : x.resyncKind = x.resyncKind := rfl); clear hf; dsimp -zeta only [x]) | ((have hf : x.eng = x.eng := rfl); clear hf; dsimp -zeta only [x]) | ((have hf : x.lsa = x.lsa := rfl); clear hf; dsimp -zeta only [x]) | ((have hf : x.missMax = x.missMax := rfl); clear hf; dsimp -zeta only [x]) | ((have hf : x.jseq = x.jseq := rfl); clear hf; dsimp -zeta only [x]) | (clear_value x) | skip)
    | lift_lets -underBinder
    | (with_reducible refine stays_bump ?_ ..)
    | (with_reducible refine stays_put ?_ ..)
    | (with_reducible refine stays_cxlRecord ?_ ..)
    | (with_reducible refine stays_evIrq ?_ ..)
    | (with_reducible refine stays_bbEvent ?_ ..)
    | (refine stays_bbEvent_eq (by assumption) ?_)
    | (with_reducible refine stays_foldl (fun s x hK => ?_) ?_)
    | (with_reducible refine stays_foldl_fst (fun s x hK => ?_) ?_)
    | (refine stays_foldl_eq (by assumption) (fun s x hK => ?_) ?_)
    | (with_reducible refine stays_ite ?_ ?_)
    | (fail_if_no_progress beta_reduce)
    | (dsimp only [Stays, still]; with_reducible refine stays_of ?_; first | with_reducible assumption | (with_reducible refine stays_bump ?_ ..) | (with_reducible refine stays_put ?_ ..) | (with_reducible refine stays_cxlRecord ?_ ..) | (with_reducible refine stays_evIrq ?_ ..) | (with_reducible refine stays_bbEvent ?_ ..) | (refine stays_bbEvent_eq (by assumption) ?_) | (refine stays_foldl_eq (by assumption) (fun s x hK => ?_) ?_))
    | split
    | (refine stays_ite ?_ ?_))

theorem stays_spreadEvent_eq {s0 s tE : State} {bE : RaiseNote} {e : EvRec} {irq : Bool} {p : EventSt × Bool} (hEq : State.spreadEvent s e irq p = (tE, bE)) (hK : Stays s0 s) : Stays s0 tE := by
  have k : Stays s0 (State.spreadEvent s e irq p).1 := stays_spreadEvent hK
  rw [hEq] at k
  exact k

theorem stays_enterEvent {s0 s : State} {e : EvRec} (hK : Stays s0 s) :
    Stays s0 (State.enterEvent s e).1 := by
  unfold State.enterEvent
  repeat' (first
    | (with_reducible assumption)
    | (intro x; first | ((have hx : Stays s0 x := ?_); (try clear_value x); rotate_left; dsimp -zeta only [x]; rotate_right) | ((have hx : Stays s0 x.1 := ?_); (try clear_value x); rotate_left; dsimp -zeta only [x]; rotate_right) | ((have hx : Stays s0 x.2 := ?_); (try clear_value x); rotate_left; dsimp -zeta only [x]; rotate_right) | ((have hf : x.ldTenant = x.ldTenant := rfl); clear hf; dsimp -zeta only [x]) | ((have hf : x.fromRejoin = x.fromRejoin := rfl); clear hf; dsimp -zeta only [x]) | ((have hf : x.quotas = x.quotas := rfl); clear hf; dsimp -zeta only [x]) | ((have hf : x.resyncKind = x.resyncKind := rfl); clear hf; dsimp -zeta only [x]) | ((have hf : x.eng = x.eng := rfl); clear hf; dsimp -zeta only [x]) | ((have hf : x.lsa = x.lsa := rfl); clear hf; dsimp -zeta only [x]) | ((have hf : x.missMax = x.missMax := rfl); clear hf; dsimp -zeta only [x]) | ((have hf : x.jseq = x.jseq := rfl); clear hf; dsimp -zeta only [x]) | (clear_value x) | skip)
    | lift_lets -underBinder
    | (with_reducible refine stays_bump ?_ ..)
    | (with_reducible refine stays_evIrq ?_ ..)
    | (with_reducible refine stays_spreadEvent ?_ ..)
    | (refine stays_spreadEvent_eq (by assumption) ?_)
    | (with_reducible refine stays_foldl (fun s x hK => ?_) ?_)
    | (with_reducible refine stays_foldl_fst (fun s x hK => ?_) ?_)
    | (refine stays_foldl_eq (by assumption) (fun s x hK => ?_) ?_)
    | (with_reducible refine stays_ite ?_ ?_)
    | (fail_if_no_progress beta_reduce)
    | (dsimp only [Stays, still]; with_reducible refine stays_of ?_; first | with_reducible assumption | (with_reducible refine stays_bump ?_ ..) | (with_reducible refine stays_evIrq ?_ ..) | (with_reducible refine stays_spreadEvent ?_ ..) | (refine stays_spreadEvent_eq (by assumption) ?_) | (refine stays_foldl_eq (by assumption) (fun s x hK => ?_) ?_))
    | split
    | (refine stays_ite ?_ ?_))

theorem stays_enterEvent_eq {s0 s tE : State} {bE : RaiseNote} {e : EvRec} (hEq : State.enterEvent s e = (tE, bE)) (hK : Stays s0 s) : Stays s0 tE := by
  have k : Stays s0 (State.enterEvent s e).1 := stays_enterEvent hK
  rw [hEq] at k
  exact k

theorem stays_raiseOnce {s0 s : State} {f : FieldRef} {i : Nat} {cls : Nat} {a : EvArg} (hK : Stays s0 s) :
    Stays s0 (State.raiseOnce s f i cls a).1 := by
  unfold State.raiseOnce
  repeat' (first
    | (with_reducible assumption)
    | (intro x; first | ((have hx : Stays s0 x := ?_); (try clear_value x); rotate_left; dsimp -zeta only [x]; rotate_right) | ((have hx : Stays s0 x.1 := ?_); (try clear_value x); rotate_left; dsimp -zeta only [x]; rotate_right) | ((have hx : Stays s0 x.2 := ?_); (try clear_value x); rotate_left; dsimp -zeta only [x]; rotate_right) | ((have hf : x.ldTenant = x.ldTenant := rfl); clear hf; dsimp -zeta only [x]) | ((have hf : x.fromRejoin = x.fromRejoin := rfl); clear hf; dsimp -zeta only [x]) | ((have hf : x.quotas = x.quotas := rfl); clear hf; dsimp -zeta only [x]) | ((have hf : x.resyncKind = x.resyncKind := rfl); clear hf; dsimp -zeta only [x]) | ((have hf : x.eng = x.eng := rfl); clear hf; dsimp -zeta only [x]) | ((have hf : x.lsa = x.lsa := rfl); clear hf; dsimp -zeta only [x]) | ((have hf : x.missMax = x.missMax := rfl); clear hf; dsimp -zeta only [x]) | ((have hf : x.jseq = x.jseq := rfl); clear hf; dsimp -zeta only [x]) | (clear_value x) | skip)
    | lift_lets -underBinder
    | (with_reducible refine stays_bump ?_ ..)
    | (with_reducible refine stays_setF ?_ ..)
    | (with_reducible refine stays_enterEvent ?_ ..)
    | (refine stays_enterEvent_eq (by assumption) ?_)
    | (with_reducible refine stays_ite ?_ ?_)
    | (fail_if_no_progress beta_reduce)
    | (dsimp only [Stays, still]; with_reducible refine stays_of ?_; first | with_reducible assumption | (with_reducible refine stays_bump ?_ ..) | (with_reducible refine stays_setF ?_ ..) | (with_reducible refine stays_enterEvent ?_ ..) | (refine stays_enterEvent_eq (by assumption) ?_))
    | split
    | (refine stays_ite ?_ ?_))

theorem stays_raiseOnce_eq {s0 s tE : State} {bE : RaiseNote} {f : FieldRef} {i : Nat} {cls : Nat} {a : EvArg} (hEq : State.raiseOnce s f i cls a = (tE, bE)) (hK : Stays s0 s) : Stays s0 tE := by
  have k : Stays s0 (State.raiseOnce s f i cls a).1 := stays_raiseOnce hK
  rw [hEq] at k
  exact k

theorem stays_raiseNotes {s0 s : State} {n : RaiseNote} (hK : Stays s0 s) :
    Stays s0 (State.raiseNotes s n) := by
  unfold State.raiseNotes
  repeat' (first
    | (with_reducible assumption)
    | (intro x; first | ((have hx : Stays s0 x := ?_); (try clear_value x); rotate_left; dsimp -zeta only [x]; rotate_right) | ((have hx : Stays s0 x.1 := ?_); (try clear_value x); rotate_left; dsimp -zeta only [x]; rotate_right) | ((have hx : Stays s0 x.2 := ?_); (try clear_value x); rotate_left; dsimp -zeta only [x]; rotate_right) | ((have hf : x.ldTenant = x.ldTenant := rfl); clear hf; dsimp -zeta only [x]) | ((have hf : x.fromRejoin = x.fromRejoin := rfl); clear hf; dsimp -zeta only [x]) | ((have hf : x.quotas = x.quotas := rfl); clear hf; dsimp -zeta only [x]) | ((have hf : x.resyncKind = x.resyncKind := rfl); clear hf; dsimp -zeta only [x]) | ((have hf : x.eng = x.eng := rfl); clear hf; dsimp -zeta only [x]) | ((have hf : x.lsa = x.lsa := rfl); clear hf; dsimp -zeta only [x]) | ((have hf : x.missMax = x.missMax := rfl); clear hf; dsimp -zeta only [x]) | ((have hf : x.jseq = x.jseq := rfl); clear hf; dsimp -zeta only [x]) | (clear_value x) | skip)
    | lift_lets -underBinder
    | (with_reducible refine stays_raiseOnce ?_ ..)
    | (refine stays_raiseOnce_eq (by assumption) ?_)
    | (with_reducible refine stays_ite ?_ ?_)
    | (fail_if_no_progress beta_reduce)
    | (dsimp only [Stays, still]; with_reducible refine stays_of ?_; first | with_reducible assumption | (with_reducible refine stays_raiseOnce ?_ ..) | (refine stays_raiseOnce_eq (by assumption) ?_))
    | split
    | (refine stays_ite ?_ ?_))

theorem stays_raiseCls {s0 s : State} {f : FieldRef} {i : Nat} {cls : Nat} {a : EvArg} (hK : Stays s0 s) :
    Stays s0 (State.raiseCls s f i cls a) := by
  unfold State.raiseCls
  repeat' (first
    | (with_reducible assumption)
    | (intro x; first | ((have hx : Stays s0 x := ?_); (try clear_value x); rotate_left; dsimp -zeta only [x]; rotate_right) | ((have hx : Stays s0 x.1 := ?_); (try clear_value x); rotate_left; dsimp -zeta only [x]; rotate_right) | ((have hx : Stays s0 x.2 := ?_); (try clear_value x); rotate_left; dsimp -zeta only [x]; rotate_right) | ((have hf : x.ldTenant = x.ldTenant := rfl); clear hf; dsimp -zeta only [x]) | ((have hf : x.fromRejoin = x.fromRejoin := rfl); clear hf; dsimp -zeta only [x]) | ((have hf : x.quotas = x.quotas := rfl); clear hf; dsimp -zeta only [x]) | ((have hf : x.resyncKind = x.resyncKind := rfl); clear hf; dsimp -zeta only [x]) | ((have hf : x.eng = x.eng := rfl); clear hf; dsimp -zeta only [x]) | ((have hf : x.lsa = x.lsa := rfl); clear hf; dsimp -zeta only [x]) | ((have hf : x.missMax = x.missMax := rfl); clear hf; dsimp -zeta only [x]) | ((have hf : x.jseq = x.jseq := rfl); clear hf; dsimp -zeta only [x]) | (clear_value x) | skip)
    | lift_lets -underBinder
    | (with_reducible refine stays_raiseOnce ?_ ..)
    | (refine stays_raiseOnce_eq (by assumption) ?_)
    | (with_reducible refine stays_raiseNotes ?_ ..)
    | (with_reducible refine stays_ite ?_ ?_)
    | (fail_if_no_progress beta_reduce)
    | (dsimp only [Stays, still]; with_reducible refine stays_of ?_; first | with_reducible assumption | (with_reducible refine stays_raiseOnce ?_ ..) | (refine stays_raiseOnce_eq (by assumption) ?_) | (with_reducible refine stays_raiseNotes ?_ ..))
    | split
    | (refine stays_ite ?_ ?_))

theorem stays_raiseArg {s0 s : State} {f : FieldRef} {i : Nat} {a : EvArg} (hK : Stays s0 s) :
    Stays s0 (State.raiseArg s f i a) := by
  unfold State.raiseArg
  repeat' (first
    | (with_reducible assumption)
    | (intro x; first | ((have hx : Stays s0 x := ?_); (try clear_value x); rotate_left; dsimp -zeta only [x]; rotate_right) | ((have hx : Stays s0 x.1 := ?_); (try clear_value x); rotate_left; dsimp -zeta only [x]; rotate_right) | ((have hx : Stays s0 x.2 := ?_); (try clear_value x); rotate_left; dsimp -zeta only [x]; rotate_right) | ((have hf : x.ldTenant = x.ldTenant := rfl); clear hf; dsimp -zeta only [x]) | ((have hf : x.fromRejoin = x.fromRejoin := rfl); clear hf; dsimp -zeta only [x]) | ((have hf : x.quotas = x.quotas := rfl); clear hf; dsimp -zeta only [x]) | ((have hf : x.resyncKind = x.resyncKind := rfl); clear hf; dsimp -zeta only [x]) | ((have hf : x.eng = x.eng := rfl); clear hf; dsimp -zeta only [x]) | ((have hf : x.lsa = x.lsa := rfl); clear hf; dsimp -zeta only [x]) | ((have hf : x.missMax = x.missMax := rfl); clear hf; dsimp -zeta only [x]) | ((have hf : x.jseq = x.jseq := rfl); clear hf; dsimp -zeta only [x]) | (clear_value x) | skip)
    | lift_lets -underBinder
    | (with_reducible refine stays_setF ?_ ..)
    | (with_reducible refine stays_raiseCls ?_ ..)
    | (with_reducible refine stays_ite ?_ ?_)
    | (fail_if_no_progress beta_reduce)
    | (dsimp only [Stays, still]; with_reducible refine stays_of ?_; first | with_reducible assumption | (with_reducible refine stays_setF ?_ ..) | (with_reducible refine stays_raiseCls ?_ ..))
    | split
    | (refine stays_ite ?_ ?_))

theorem stays_raise {s0 s : State} {f : FieldRef} (hK : Stays s0 s) :
    Stays s0 (State.raise s f) := by
  unfold State.raise
  repeat' (first
    | (with_reducible assumption)
    | (intro x; first | ((have hx : Stays s0 x := ?_); (try clear_value x); rotate_left; dsimp -zeta only [x]; rotate_right) | ((have hx : Stays s0 x.1 := ?_); (try clear_value x); rotate_left; dsimp -zeta only [x]; rotate_right) | ((have hx : Stays s0 x.2 := ?_); (try clear_value x); rotate_left; dsimp -zeta only [x]; rotate_right) | ((have hf : x.ldTenant = x.ldTenant := rfl); clear hf; dsimp -zeta only [x]) | ((have hf : x.fromRejoin = x.fromRejoin := rfl); clear hf; dsimp -zeta only [x]) | ((have hf : x.quotas = x.quotas := rfl); clear hf; dsimp -zeta only [x]) | ((have hf : x.resyncKind = x.resyncKind := rfl); clear hf; dsimp -zeta only [x]) | ((have hf : x.eng = x.eng := rfl); clear hf; dsimp -zeta only [x]) | ((have hf : x.lsa = x.lsa := rfl); clear hf; dsimp -zeta only [x]) | ((have hf : x.missMax = x.missMax := rfl); clear hf; dsimp -zeta only [x]) | ((have hf : x.jseq = x.jseq := rfl); clear hf; dsimp -zeta only [x]) | (clear_value x) | skip)
    | lift_lets -underBinder
    | (with_reducible refine stays_raiseArg ?_ ..)
    | (with_reducible refine stays_ite ?_ ?_)
    | (fail_if_no_progress beta_reduce)
    | (dsimp only [Stays, still]; with_reducible refine stays_of ?_; first | with_reducible assumption | (with_reducible refine stays_raiseArg ?_ ..))
    | split
    | (refine stays_ite ?_ ?_))

theorem stays_raiseAt {s0 s : State} {f : FieldRef} {i : Nat} (hK : Stays s0 s) :
    Stays s0 (State.raiseAt s f i) := by
  unfold State.raiseAt
  repeat' (first
    | (with_reducible assumption)
    | (intro x; first | ((have hx : Stays s0 x := ?_); (try clear_value x); rotate_left; dsimp -zeta only [x]; rotate_right) | ((have hx : Stays s0 x.1 := ?_); (try clear_value x); rotate_left; dsimp -zeta only [x]; rotate_right) | ((have hx : Stays s0 x.2 := ?_); (try clear_value x); rotate_left; dsimp -zeta only [x]; rotate_right) | ((have hf : x.ldTenant = x.ldTenant := rfl); clear hf; dsimp -zeta only [x]) | ((have hf : x.fromRejoin = x.fromRejoin := rfl); clear hf; dsimp -zeta only [x]) | ((have hf : x.quotas = x.quotas := rfl); clear hf; dsimp -zeta only [x]) | ((have hf : x.resyncKind = x.resyncKind := rfl); clear hf; dsimp -zeta only [x]) | ((have hf : x.eng = x.eng := rfl); clear hf; dsimp -zeta only [x]) | ((have hf : x.lsa = x.lsa := rfl); clear hf; dsimp -zeta only [x]) | ((have hf : x.missMax = x.missMax := rfl); clear hf; dsimp -zeta only [x]) | ((have hf : x.jseq = x.jseq := rfl); clear hf; dsimp -zeta only [x]) | (clear_value x) | skip)
    | lift_lets -underBinder
    | (with_reducible refine stays_raiseArg ?_ ..)
    | (with_reducible refine stays_ite ?_ ?_)
    | (fail_if_no_progress beta_reduce)
    | (dsimp only [Stays, still]; with_reducible refine stays_of ?_; first | with_reducible assumption | (with_reducible refine stays_raiseArg ?_ ..))
    | split
    | (refine stays_ite ?_ ?_))

theorem stays_raiseOff {s0 s : State} {f : FieldRef} {o : Nat} (hK : Stays s0 s) :
    Stays s0 (State.raiseOff s f o) := by
  unfold State.raiseOff
  repeat' (first
    | (with_reducible assumption)
    | (intro x; first | ((have hx : Stays s0 x := ?_); (try clear_value x); rotate_left; dsimp -zeta only [x]; rotate_right) | ((have hx : Stays s0 x.1 := ?_); (try clear_value x); rotate_left; dsimp -zeta only [x]; rotate_right) | ((have hx : Stays s0 x.2 := ?_); (try clear_value x); rotate_left; dsimp -zeta only [x]; rotate_right) | ((have hf : x.ldTenant = x.ldTenant := rfl); clear hf; dsimp -zeta only [x]) | ((have hf : x.fromRejoin = x.fromRejoin := rfl); clear hf; dsimp -zeta only [x]) | ((have hf : x.quotas = x.quotas := rfl); clear hf; dsimp -zeta only [x]) | ((have hf : x.resyncKind = x.resyncKind := rfl); clear hf; dsimp -zeta only [x]) | ((have hf : x.eng = x.eng := rfl); clear hf; dsimp -zeta only [x]) | ((have hf : x.lsa = x.lsa := rfl); clear hf; dsimp -zeta only [x]) | ((have hf : x.missMax = x.missMax := rfl); clear hf; dsimp -zeta only [x]) | ((have hf : x.jseq = x.jseq := rfl); clear hf; dsimp -zeta only [x]) | (clear_value x) | skip)
    | lift_lets -underBinder
    | (with_reducible refine stays_raiseArg ?_ ..)
    | (with_reducible refine stays_ite ?_ ?_)
    | (fail_if_no_progress beta_reduce)
    | (dsimp only [Stays, still]; with_reducible refine stays_of ?_; first | with_reducible assumption | (with_reducible refine stays_raiseArg ?_ ..))
    | split
    | (refine stays_ite ?_ ?_))

theorem stays_health {s0 s : State} {ix : Nat} {n : Nat} (hK : Stays s0 s) :
    Stays s0 (State.health s ix n) := by
  unfold State.health
  repeat' (first
    | (with_reducible assumption)
    | (intro x; first | ((have hx : Stays s0 x := ?_); (try clear_value x); rotate_left; dsimp -zeta only [x]; rotate_right) | ((have hx : Stays s0 x.1 := ?_); (try clear_value x); rotate_left; dsimp -zeta only [x]; rotate_right) | ((have hx : Stays s0 x.2 := ?_); (try clear_value x); rotate_left; dsimp -zeta only [x]; rotate_right) | ((have hf : x.ldTenant = x.ldTenant := rfl); clear hf; dsimp -zeta only [x]) | ((have hf : x.fromRejoin = x.fromRejoin := rfl); clear hf; dsimp -zeta only [x]) | ((have hf : x.quotas = x.quotas := rfl); clear hf; dsimp -zeta only [x]) | ((have hf : x.resyncKind = x.resyncKind := rfl); clear hf; dsimp -zeta only [x]) | ((have hf : x.eng = x.eng := rfl); clear hf; dsimp -zeta only [x]) | ((have hf : x.lsa = x.lsa := rfl); clear hf; dsimp -zeta only [x]) | ((have hf : x.missMax = x.missMax := rfl); clear hf; dsimp -zeta only [x]) | ((have hf : x.jseq = x.jseq := rfl); clear hf; dsimp -zeta only [x]) | (clear_value x) | skip)
    | lift_lets -underBinder
    | (with_reducible refine stays_getD ?_ ?_)
    | (with_reducible refine stays_ite ?_ ?_)
    | (fail_if_no_progress beta_reduce)
    | (dsimp only [Stays, still]; with_reducible refine stays_of ?_; first | with_reducible assumption)
    | split
    | (refine stays_ite ?_ ?_))

end Sys2Proof.Laws
end

