-- ==== Sys2Proof/Laws/StaysSend.lean ====
section
/-! SUPPORT. The operations of Machine/Send.lean that State.settle calls leave alone what Laws/Stays.lean names. -/

set_option linter.unusedTactic false
set_option linter.unreachableTactic false
set_option linter.unusedVariables false

namespace Sys2Proof.Laws

open Sys2Proof Machine

theorem stays_newTag {s0 s : State} (hK : Stays s0 s) :
    Stays s0 (State.newTag s).2 := by
  unfold State.newTag
  repeat' (first
    | (with_reducible assumption)
    | (intro x; first | ((have hx : Stays s0 x := ?_); (try clear_value x); rotate_left; dsimp -zeta only [x]; rotate_right) | ((have hx : Stays s0 x.1 := ?_); (try clear_value x); rotate_left; dsimp -zeta only [x]; rotate_right) | ((have hx : Stays s0 x.2 := ?_); (try clear_value x); rotate_left; dsimp -zeta only [x]; rotate_right) | ((have hf : x.ldTenant = x.ldTenant := rfl); clear hf; dsimp -zeta only [x]) | ((have hf : x.fromRejoin = x.fromRejoin := rfl); clear hf; dsimp -zeta only [x]) | ((have hf : x.quotas = x.quotas := rfl); clear hf; dsimp -zeta only [x]) | ((have hf : x.resyncKind = x.resyncKind := rfl); clear hf; dsimp -zeta only [x]) | ((have hf : x.eng = x.eng := rfl); clear hf; dsimp -zeta only [x]) | ((have hf : x.lsa = x.lsa := rfl); clear hf; dsimp -zeta only [x]) | ((have hf : x.missMax = x.missMax := rfl); clear hf; dsimp -zeta only [x]) | ((have hf : x.jseq = x.jseq := rfl); clear hf; dsimp -zeta only [x]) | (clear_value x) | skip)
    | lift_lets -underBinder
    | (with_reducible refine stays_ite ?_ ?_)
    | (fail_if_no_progress beta_reduce)
    | (dsimp only [Stays, still]; with_reducible refine stays_of ?_; first | with_reducible assumption)
    | split
    | (refine stays_ite ?_ ?_))

theorem stays_newTag_eq {s0 s tE : State} {bE : Nat} (hEq : State.newTag s = (bE, tE)) (hK : Stays s0 s) : Stays s0 tE := by
  have k : Stays s0 (State.newTag s).2 := stays_newTag hK
  rw [hEq] at k
  exact k

theorem stays_countBytes {s0 s : State} {f : FieldRef} {port : Nat} {left : Nat} {n : Nat} (hK : Stays s0 s) :
    Stays s0 (State.countBytes s f port left n).2 := by
  unfold State.countBytes
  repeat' (first
    | (with_reducible assumption)
    | (intro x; first | ((have hx : Stays s0 x := ?_); (try clear_value x); rotate_left; dsimp -zeta only [x]; rotate_right) | ((have hx : Stays s0 x.1 := ?_); (try clear_value x); rotate_left; dsimp -zeta only [x]; rotate_right) | ((have hx : Stays s0 x.2 := ?_); (try clear_value x); rotate_left; dsimp -zeta only [x]; rotate_right) | ((have hf : x.ldTenant = x.ldTenant := rfl); clear hf; dsimp -zeta only [x]) | ((have hf : x.fromRejoin = x.fromRejoin := rfl); clear hf; dsimp -zeta only [x]) | ((have hf : x.quotas = x.quotas := rfl); clear hf; dsimp -zeta only [x]) | ((have hf : x.resyncKind = x.resyncKind := rfl); clear hf; dsimp -zeta only [x]) | ((have hf : x.eng = x.eng := rfl); clear hf; dsimp -zeta only [x]) | ((have hf : x.lsa = x.lsa := rfl); clear hf; dsimp -zeta only [x]) | ((have hf : x.missMax = x.missMax := rfl); clear hf; dsimp -zeta only [x]) | ((have hf : x.jseq = x.jseq := rfl); clear hf; dsimp -zeta only [x]) | (clear_value x) | skip)
    | lift_lets -underBinder
    | (with_reducible refine stays_bump ?_ ..)
    | (with_reducible refine stays_ite ?_ ?_)
    | (fail_if_no_progress beta_reduce)
    | (dsimp only [Stays, still]; with_reducible refine stays_of ?_; first | with_reducible assumption | (with_reducible refine stays_bump ?_ ..))
    | split
    | (refine stays_ite ?_ ?_))

theorem stays_countBytes_eq {s0 s tE : State} {bE : Nat} {f : FieldRef} {port : Nat} {left : Nat} {n : Nat} (hEq : State.countBytes s f port left n = (bE, tE)) (hK : Stays s0 s) : Stays s0 tE := by
  have k : Stays s0 (State.countBytes s f port left n).2 := stays_countBytes hK
  rw [hEq] at k
  exact k

theorem stays_countTx {s0 s : State} {port : Nat} {n : Nat} (hK : Stays s0 s) :
    Stays s0 (State.countTx s port n) := by
  unfold State.countTx
  repeat' (first
    | (with_reducible assumption)
    | (intro x; first | ((have hx : Stays s0 x := ?_); (try clear_value x); rotate_left; dsimp -zeta only [x]; rotate_right) | ((have hx : Stays s0 x.1 := ?_); (try clear_value x); rotate_left; dsimp -zeta only [x]; rotate_right) | ((have hx : Stays s0 x.2 := ?_); (try clear_value x); rotate_left; dsimp -zeta only [x]; rotate_right) | ((have hf : x.ldTenant = x.ldTenant := rfl); clear hf; dsimp -zeta only [x]) | ((have hf : x.fromRejoin = x.fromRejoin := rfl); clear hf; dsimp -zeta only [x]) | ((have hf : x.quotas = x.quotas := rfl); clear hf; dsimp -zeta only [x]) | ((have hf : x.resyncKind = x.resyncKind := rfl); clear hf; dsimp -zeta only [x]) | ((have hf : x.eng = x.eng := rfl); clear hf; dsimp -zeta only [x]) | ((have hf : x.lsa = x.lsa := rfl); clear hf; dsimp -zeta only [x]) | ((have hf : x.missMax = x.missMax := rfl); clear hf; dsimp -zeta only [x]) | ((have hf : x.jseq = x.jseq := rfl); clear hf; dsimp -zeta only [x]) | (clear_value x) | skip)
    | lift_lets -underBinder
    | (with_reducible refine stays_put ?_ ..)
    | (with_reducible refine stays_countBytes ?_ ..)
    | (refine stays_countBytes_eq (by assumption) ?_)
    | (with_reducible refine stays_ite ?_ ?_)
    | (fail_if_no_progress beta_reduce)
    | (dsimp only [Stays, still]; with_reducible refine stays_of ?_; first | with_reducible assumption | (with_reducible refine stays_put ?_ ..) | (with_reducible refine stays_countBytes ?_ ..) | (refine stays_countBytes_eq (by assumption) ?_))
    | split
    | (refine stays_ite ?_ ?_))

theorem stays_emitMsg {s0 s : State} {port : Nat} {h : Hdr} {p : Payload} (hK : Stays s0 s) :
    Stays s0 (State.emitMsg s port h p) := by
  unfold State.emitMsg
  repeat' (first
    | (with_reducible assumption)
    | (intro x; first | ((have hx : Stays s0 x := ?_); (try clear_value x); rotate_left; dsimp -zeta only [x]; rotate_right) | ((have hx : Stays s0 x.1 := ?_); (try clear_value x); rotate_left; dsimp -zeta only [x]; rotate_right) | ((have hx : Stays s0 x.2 := ?_); (try clear_value x); rotate_left; dsimp -zeta only [x]; rotate_right) | ((have hf : x.ldTenant = x.ldTenant := rfl); clear hf; dsimp -zeta only [x]) | ((have hf : x.fromRejoin = x.fromRejoin := rfl); clear hf; dsimp -zeta only [x]) | ((have hf : x.quotas = x.quotas := rfl); clear hf; dsimp -zeta only [x]) | ((have hf : x.resyncKind = x.resyncKind := rfl); clear hf; dsimp -zeta only [x]) | ((have hf : x.eng = x.eng := rfl); clear hf; dsimp -zeta only [x]) | ((have hf : x.lsa = x.lsa := rfl); clear hf; dsimp -zeta only [x]) | ((have hf : x.missMax = x.missMax := rfl); clear hf; dsimp -zeta only [x]) | ((have hf : x.jseq = x.jseq := rfl); clear hf; dsimp -zeta only [x]) | (clear_value x) | skip)
    | lift_lets -underBinder
    | (with_reducible refine stays_emit ?_ ..)
    | (with_reducible refine stays_countTx ?_ ..)
    | (with_reducible refine stays_ite ?_ ?_)
    | (fail_if_no_progress beta_reduce)
    | (dsimp only [Stays, still]; with_reducible refine stays_of ?_; first | with_reducible assumption | (with_reducible refine stays_emit ?_ ..) | (with_reducible refine stays_countTx ?_ ..))
    | split
    | (refine stays_ite ?_ ?_))

theorem stays_sendOn {s0 s : State} {port : Nat} {h : Hdr} {p : Payload} (hK : Stays s0 s) :
    Stays s0 (State.sendOn s port h p) := by
  unfold State.sendOn
  repeat' (first
    | (with_reducible assumption)
    | (intro x; first | ((have hx : Stays s0 x := ?_); (try clear_value x); rotate_left; dsimp -zeta only [x]; rotate_right) | ((have hx : Stays s0 x.1 := ?_); (try clear_value x); rotate_left; dsimp -zeta only [x]; rotate_right) | ((have hx : Stays s0 x.2 := ?_); (try clear_value x); rotate_left; dsimp -zeta only [x]; rotate_right) | ((have hf : x.ldTenant = x.ldTenant := rfl); clear hf; dsimp -zeta only [x]) | ((have hf : x.fromRejoin = x.fromRejoin := rfl); clear hf; dsimp -zeta only [x]) | ((have hf : x.quotas = x.quotas := rfl); clear hf; dsimp -zeta only [x]) | ((have hf : x.resyncKind = x.resyncKind := rfl); clear hf; dsimp -zeta only [x]) | ((have hf : x.eng = x.eng := rfl); clear hf; dsimp -zeta only [x]) | ((have hf : x.lsa = x.lsa := rfl); clear hf; dsimp -zeta only [x]) | ((have hf : x.missMax = x.missMax := rfl); clear hf; dsimp -zeta only [x]) | ((have hf : x.jseq = x.jseq := rfl); clear hf; dsimp -zeta only [x]) | (clear_value x) | skip)
    | lift_lets -underBinder
    | (with_reducible refine stays_put ?_ ..)
    | (with_reducible refine stays_emitMsg ?_ ..)
    | (with_reducible refine stays_ite ?_ ?_)
    | (fail_if_no_progress beta_reduce)
    | (dsimp only [Stays, still]; with_reducible refine stays_of ?_; first | with_reducible assumption | (with_reducible refine stays_put ?_ ..) | (with_reducible refine stays_emitMsg ?_ ..))
    | split
    | (refine stays_ite ?_ ?_))

theorem stays_holdTransit {s0 s : State} {h : Hdr} {p : Payload} (hK : Stays s0 s) :
    Stays s0 (State.holdTransit s h p) := by
  unfold State.holdTransit
  repeat' (first
    | (with_reducible assumption)
    | (intro x; first | ((have hx : Stays s0 x := ?_); (try clear_value x); rotate_left; dsimp -zeta only [x]; rotate_right) | ((have hx : Stays s0 x.1 := ?_); (try clear_value x); rotate_left; dsimp -zeta only [x]; rotate_right) | ((have hx : Stays s0 x.2 := ?_); (try clear_value x); rotate_left; dsimp -zeta only [x]; rotate_right) | ((have hf : x.ldTenant = x.ldTenant := rfl); clear hf; dsimp -zeta only [x]) | ((have hf : x.fromRejoin = x.fromRejoin := rfl); clear hf; dsimp -zeta only [x]) | ((have hf : x.quotas = x.quotas := rfl); clear hf; dsimp -zeta only [x]) | ((have hf : x.resyncKind = x.resyncKind := rfl); clear hf; dsimp -zeta only [x]) | ((have hf : x.eng = x.eng := rfl); clear hf; dsimp -zeta only [x]) | ((have hf : x.lsa = x.lsa := rfl); clear hf; dsimp -zeta only [x]) | ((have hf : x.missMax = x.missMax := rfl); clear hf; dsimp -zeta only [x]) | ((have hf : x.jseq = x.jseq := rfl); clear hf; dsimp -zeta only [x]) | (clear_value x) | skip)
    | lift_lets -underBinder
    | (with_reducible refine stays_ite ?_ ?_)
    | (fail_if_no_progress beta_reduce)
    | (dsimp only [Stays, still]; with_reducible refine stays_of ?_; first | with_reducible assumption)
    | split
    | (refine stays_ite ?_ ?_))

theorem stays_send {s0 s : State} {h : Hdr} {p : Payload} (hK : Stays s0 s) :
    Stays s0 (State.send s h p) := by
  unfold State.send
  repeat' (first
    | (with_reducible assumption)
    | (intro x; first | ((have hx : Stays s0 x := ?_); (try clear_value x); rotate_left; dsimp -zeta only [x]; rotate_right) | ((have hx : Stays s0 x.1 := ?_); (try clear_value x); rotate_left; dsimp -zeta only [x]; rotate_right) | ((have hx : Stays s0 x.2 := ?_); (try clear_value x); rotate_left; dsimp -zeta only [x]; rotate_right) | ((have hf : x.ldTenant = x.ldTenant := rfl); clear hf; dsimp -zeta only [x]) | ((have hf : x.fromRejoin = x.fromRejoin := rfl); clear hf; dsimp -zeta only [x]) | ((have hf : x.quotas = x.quotas := rfl); clear hf; dsimp -zeta only [x]) | ((have hf : x.resyncKind = x.resyncKind := rfl); clear hf; dsimp -zeta only [x]) | ((have hf : x.eng = x.eng := rfl); clear hf; dsimp -zeta only [x]) | ((have hf : x.lsa = x.lsa := rfl); clear hf; dsimp -zeta only [x]) | ((have hf : x.missMax = x.missMax := rfl); clear hf; dsimp -zeta only [x]) | ((have hf : x.jseq = x.jseq := rfl); clear hf; dsimp -zeta only [x]) | (clear_value x) | skip)
    | lift_lets -underBinder
    | (with_reducible refine stays_sendOn ?_ ..)
    | (with_reducible refine stays_holdTransit ?_ ..)
    | (with_reducible refine stays_ite ?_ ?_)
    | (fail_if_no_progress beta_reduce)
    | (dsimp only [Stays, still]; with_reducible refine stays_of ?_; first | with_reducible assumption | (with_reducible refine stays_sendOn ?_ ..) | (with_reducible refine stays_holdTransit ?_ ..))
    | split
    | (refine stays_ite ?_ ?_))

theorem stays_releaseTransit {s0 s : State} {dst : Nat} (hK : Stays s0 s) :
    Stays s0 (State.releaseTransit s dst) := by
  unfold State.releaseTransit
  repeat' (first
    | (with_reducible assumption)
    | (intro x; first | ((have hx : Stays s0 x := ?_); (try clear_value x); rotate_left; dsimp -zeta only [x]; rotate_right) | ((have hx : Stays s0 x.1 := ?_); (try clear_value x); rotate_left; dsimp -zeta only [x]; rotate_right) | ((have hx : Stays s0 x.2 := ?_); (try clear_value x); rotate_left; dsimp -zeta only [x]; rotate_right) | ((have hf : x.ldTenant = x.ldTenant := rfl); clear hf; dsimp -zeta only [x]) | ((have hf : x.fromRejoin = x.fromRejoin := rfl); clear hf; dsimp -zeta only [x]) | ((have hf : x.quotas = x.quotas := rfl); clear hf; dsimp -zeta only [x]) | ((have hf : x.resyncKind = x.resyncKind := rfl); clear hf; dsimp -zeta only [x]) | ((have hf : x.eng = x.eng := rfl); clear hf; dsimp -zeta only [x]) | ((have hf : x.lsa = x.lsa := rfl); clear hf; dsimp -zeta only [x]) | ((have hf : x.missMax = x.missMax := rfl); clear hf; dsimp -zeta only [x]) | ((have hf : x.jseq = x.jseq := rfl); clear hf; dsimp -zeta only [x]) | (clear_value x) | skip)
    | lift_lets -underBinder
    | (with_reducible refine stays_sendOn ?_ ..)
    | (with_reducible refine stays_foldl (fun s x hK => ?_) ?_)
    | (with_reducible refine stays_foldl_fst (fun s x hK => ?_) ?_)
    | (refine stays_foldl_eq (by assumption) (fun s x hK => ?_) ?_)
    | (with_reducible refine stays_ite ?_ ?_)
    | (fail_if_no_progress beta_reduce)
    | (dsimp only [Stays, still]; with_reducible refine stays_of ?_; first | with_reducible assumption | (with_reducible refine stays_sendOn ?_ ..) | (refine stays_foldl_eq (by assumption) (fun s x hK => ?_) ?_))
    | split
    | (refine stays_ite ?_ ?_))

theorem stays_reply {s0 s : State} {req : Hdr} {status : Nat} {stream : Bool} {p : Payload} (hK : Stays s0 s) :
    Stays s0 (State.reply s req status stream p) := by
  unfold State.reply
  repeat' (first
    | (with_reducible assumption)
    | (intro x; first | ((have hx : Stays s0 x := ?_); (try clear_value x); rotate_left; dsimp -zeta only [x]; rotate_right) | ((have hx : Stays s0 x.1 := ?_); (try clear_value x); rotate_left; dsimp -zeta only [x]; rotate_right) | ((have hx : Stays s0 x.2 := ?_); (try clear_value x); rotate_left; dsimp -zeta only [x]; rotate_right) | ((have hf : x.ldTenant = x.ldTenant := rfl); clear hf; dsimp -zeta only [x]) | ((have hf : x.fromRejoin = x.fromRejoin := rfl); clear hf; dsimp -zeta only [x]) | ((have hf : x.quotas = x.quotas := rfl); clear hf; dsimp -zeta only [x]) | ((have hf : x.resyncKind = x.resyncKind := rfl); clear hf; dsimp -zeta only [x]) | ((have hf : x.eng = x.eng := rfl); clear hf; dsimp -zeta only [x]) | ((have hf : x.lsa = x.lsa := rfl); clear hf; dsimp -zeta only [x]) | ((have hf : x.missMax = x.missMax := rfl); clear hf; dsimp -zeta only [x]) | ((have hf : x.jseq = x.jseq := rfl); clear hf; dsimp -zeta only [x]) | (clear_value x) | skip)
    | lift_lets -underBinder
    | (with_reducible refine stays_sendOn ?_ ..)
    | (with_reducible refine stays_send ?_ ..)
    | (with_reducible refine stays_ite ?_ ?_)
    | (fail_if_no_progress beta_reduce)
    | (dsimp only [Stays, still]; with_reducible refine stays_of ?_; first | with_reducible assumption | (with_reducible refine stays_sendOn ?_ ..) | (with_reducible refine stays_send ?_ ..))
    | split
    | (refine stays_ite ?_ ?_))

theorem stays_sendStream {s0 s : State} {b : Nat} {h : Hdr} {p : Payload} {busy : Bool} (hK : Stays s0 s) :
    Stays s0 (State.sendStream s b h p busy) := by
  unfold State.sendStream
  repeat' (first
    | (with_reducible assumption)
    | (intro x; first | ((have hx : Stays s0 x := ?_); (try clear_value x); rotate_left; dsimp -zeta only [x]; rotate_right) | ((have hx : Stays s0 x.1 := ?_); (try clear_value x); rotate_left; dsimp -zeta only [x]; rotate_right) | ((have hx : Stays s0 x.2 := ?_); (try clear_value x); rotate_left; dsimp -zeta only [x]; rotate_right) | ((have hf : x.ldTenant = x.ldTenant := rfl); clear hf; dsimp -zeta only [x]) | ((have hf : x.fromRejoin = x.fromRejoin := rfl); clear hf; dsimp -zeta only [x]) | ((have hf : x.quotas = x.quotas := rfl); clear hf; dsimp -zeta only [x]) | ((have hf : x.resyncKind = x.resyncKind := rfl); clear hf; dsimp -zeta only [x]) | ((have hf : x.eng = x.eng := rfl); clear hf; dsimp -zeta only [x]) | ((have hf : x.lsa = x.lsa := rfl); clear hf; dsimp -zeta only [x]) | ((have hf : x.missMax = x.missMax := rfl); clear hf; dsimp -zeta only [x]) | ((have hf : x.jseq = x.jseq := rfl); clear hf; dsimp -zeta only [x]) | (clear_value x) | skip)
    | lift_lets -underBinder
    | (with_reducible refine stays_put ?_ ..)
    | (with_reducible refine stays_sendOn ?_ ..)
    | (with_reducible refine stays_ite ?_ ?_)
    | (fail_if_no_progress beta_reduce)
    | (dsimp only [Stays, still]; with_reducible refine stays_of ?_; first | with_reducible assumption | (with_reducible refine stays_put ?_ ..) | (with_reducible refine stays_sendOn ?_ ..))
    | split
    | (refine stays_ite ?_ ?_))

theorem stays_flushStream {s0 s : State} {b : Nat} (hK : Stays s0 s) :
    Stays s0 (State.flushStream s b) := by
  unfold State.flushStream
  repeat' (first
    | (with_reducible assumption)
    | (intro x; first | ((have hx : Stays s0 x := ?_); (try clear_value x); rotate_left; dsimp -zeta only [x]; rotate_right) | ((have hx : Stays s0 x.1 := ?_); (try clear_value x); rotate_left; dsimp -zeta only [x]; rotate_right) | ((have hx : Stays s0 x.2 := ?_); (try clear_value x); rotate_left; dsimp -zeta only [x]; rotate_right) | ((have hf : x.ldTenant = x.ldTenant := rfl); clear hf; dsimp -zeta only [x]) | ((have hf : x.fromRejoin = x.fromRejoin := rfl); clear hf; dsimp -zeta only [x]) | ((have hf : x.quotas = x.quotas := rfl); clear hf; dsimp -zeta only [x]) | ((have hf : x.resyncKind = x.resyncKind := rfl); clear hf; dsimp -zeta only [x]) | ((have hf : x.eng = x.eng := rfl); clear hf; dsimp -zeta only [x]) | ((have hf : x.lsa = x.lsa := rfl); clear hf; dsimp -zeta only [x]) | ((have hf : x.missMax = x.missMax := rfl); clear hf; dsimp -zeta only [x]) | ((have hf : x.jseq = x.jseq := rfl); clear hf; dsimp -zeta only [x]) | (clear_value x) | skip)
    | lift_lets -underBinder
    | (with_reducible refine stays_sendStream ?_ ..)
    | (with_reducible refine stays_foldl (fun s x hK => ?_) ?_)
    | (with_reducible refine stays_foldl_fst (fun s x hK => ?_) ?_)
    | (refine stays_foldl_eq (by assumption) (fun s x hK => ?_) ?_)
    | (with_reducible refine stays_ite ?_ ?_)
    | (fail_if_no_progress beta_reduce)
    | (dsimp only [Stays, still]; with_reducible refine stays_of ?_; first | with_reducible assumption | (with_reducible refine stays_sendStream ?_ ..) | (refine stays_foldl_eq (by assumption) (fun s x hK => ?_) ?_))
    | split
    | (refine stays_ite ?_ ?_))

end Sys2Proof.Laws
end

