-- ==== Sys2Proof/Laws/StaysStore.lean ====
section
/-! SUPPORT. The operations of Machine/Store.lean that State.settle calls leave alone what Laws/Stays.lean names. -/

set_option linter.unusedTactic false
set_option linter.unreachableTactic false
set_option linter.unusedVariables false

namespace Sys2Proof.Laws

open Sys2Proof Machine

theorem stays_poisonBytes {s0 s : State} {l : Nat} (hK : Stays s0 s) :
    Stays s0 (State.poisonBytes s l) := by
  unfold State.poisonBytes
  repeat' (first
    | (with_reducible assumption)
    | (intro x; first | ((have hx : Stays s0 x := ?_); (try clear_value x); rotate_left; dsimp -zeta only [x]; rotate_right) | ((have hx : Stays s0 x.1 := ?_); (try clear_value x); rotate_left; dsimp -zeta only [x]; rotate_right) | ((have hx : Stays s0 x.2 := ?_); (try clear_value x); rotate_left; dsimp -zeta only [x]; rotate_right) | ((have hf : x.ldTenant = x.ldTenant := rfl); clear hf; dsimp -zeta only [x]) | ((have hf : x.fromRejoin = x.fromRejoin := rfl); clear hf; dsimp -zeta only [x]) | ((have hf : x.quotas = x.quotas := rfl); clear hf; dsimp -zeta only [x]) | ((have hf : x.resyncKind = x.resyncKind := rfl); clear hf; dsimp -zeta only [x]) | ((have hf : x.eng = x.eng := rfl); clear hf; dsimp -zeta only [x]) | ((have hf : x.lsa = x.lsa := rfl); clear hf; dsimp -zeta only [x]) | ((have hf : x.missMax = x.missMax := rfl); clear hf; dsimp -zeta only [x]) | ((have hf : x.jseq = x.jseq := rfl); clear hf; dsimp -zeta only [x]) | (clear_value x) | skip)
    | lift_lets -underBinder
    | (with_reducible refine stays_putLine ?_ ..)
    | (with_reducible refine stays_ite ?_ ?_)
    | (fail_if_no_progress beta_reduce)
    | (dsimp only [Stays, still]; with_reducible refine stays_of ?_; first | with_reducible assumption | (with_reducible refine stays_putLine ?_ ..))
    | split
    | (refine stays_ite ?_ ?_))

theorem stays_markPoison {s0 s : State} {l : Nat} (hK : Stays s0 s) :
    Stays s0 (State.markPoison s l) := by
  unfold State.markPoison
  repeat' (first
    | (with_reducible assumption)
    | (intro x; first | ((have hx : Stays s0 x := ?_); (try clear_value x); rotate_left; dsimp -zeta only [x]; rotate_right) | ((have hx : Stays s0 x.1 := ?_); (try clear_value x); rotate_left; dsimp -zeta only [x]; rotate_right) | ((have hx : Stays s0 x.2 := ?_); (try clear_value x); rotate_left; dsimp -zeta only [x]; rotate_right) | ((have hf : x.ldTenant = x.ldTenant := rfl); clear hf; dsimp -zeta only [x]) | ((have hf : x.fromRejoin = x.fromRejoin := rfl); clear hf; dsimp -zeta only [x]) | ((have hf : x.quotas = x.quotas := rfl); clear hf; dsimp -zeta only [x]) | ((have hf : x.resyncKind = x.resyncKind := rfl); clear hf; dsimp -zeta only [x]) | ((have hf : x.eng = x.eng := rfl); clear hf; dsimp -zeta only [x]) | ((have hf : x.lsa = x.lsa := rfl); clear hf; dsimp -zeta only [x]) | ((have hf : x.missMax = x.missMax := rfl); clear hf; dsimp -zeta only [x]) | ((have hf : x.jseq = x.jseq := rfl); clear hf; dsimp -zeta only [x]) | (clear_value x) | skip)
    | lift_lets -underBinder
    | (with_reducible refine stays_ite ?_ ?_)
    | (fail_if_no_progress beta_reduce)
    | (dsimp only [Stays, still]; with_reducible refine stays_of ?_; first | with_reducible assumption)
    | split
    | (refine stays_ite ?_ ?_))

theorem stays_poisonLine {s0 s : State} {l : Nat} {src : Nat} (hK : Stays s0 s) :
    Stays s0 (State.poisonLine s l src) := by
  unfold State.poisonLine
  repeat' (first
    | (with_reducible assumption)
    | (intro x; first | ((have hx : Stays s0 x := ?_); (try clear_value x); rotate_left; dsimp -zeta only [x]; rotate_right) | ((have hx : Stays s0 x.1 := ?_); (try clear_value x); rotate_left; dsimp -zeta only [x]; rotate_right) | ((have hx : Stays s0 x.2 := ?_); (try clear_value x); rotate_left; dsimp -zeta only [x]; rotate_right) | ((have hf : x.ldTenant = x.ldTenant := rfl); clear hf; dsimp -zeta only [x]) | ((have hf : x.fromRejoin = x.fromRejoin := rfl); clear hf; dsimp -zeta only [x]) | ((have hf : x.quotas = x.quotas := rfl); clear hf; dsimp -zeta only [x]) | ((have hf : x.resyncKind = x.resyncKind := rfl); clear hf; dsimp -zeta only [x]) | ((have hf : x.eng = x.eng := rfl); clear hf; dsimp -zeta only [x]) | ((have hf : x.lsa = x.lsa := rfl); clear hf; dsimp -zeta only [x]) | ((have hf : x.missMax = x.missMax := rfl); clear hf; dsimp -zeta only [x]) | ((have hf : x.jseq = x.jseq := rfl); clear hf; dsimp -zeta only [x]) | (clear_value x) | skip)
    | lift_lets -underBinder
    | (with_reducible refine stays_bump ?_ ..)
    | (with_reducible refine stays_setReg ?_ ..)
    | (with_reducible refine stays_raiseArg ?_ ..)
    | (with_reducible refine stays_health ?_ ..)
    | (with_reducible refine stays_poisonBytes ?_ ..)
    | (with_reducible refine stays_markPoison ?_ ..)
    | (with_reducible refine stays_ite ?_ ?_)
    | (fail_if_no_progress beta_reduce)
    | (dsimp only [Stays, still]; with_reducible refine stays_of ?_; first | with_reducible assumption | (with_reducible refine stays_bump ?_ ..) | (with_reducible refine stays_setReg ?_ ..) | (with_reducible refine stays_raiseArg ?_ ..) | (with_reducible refine stays_health ?_ ..) | (with_reducible refine stays_poisonBytes ?_ ..) | (with_reducible refine stays_markPoison ?_ ..))
    | split
    | (refine stays_ite ?_ ?_))

theorem stays_clearPoison {s0 s : State} {l : Nat} (hK : Stays s0 s) :
    Stays s0 (State.clearPoison s l) := by
  unfold State.clearPoison
  repeat' (first
    | (with_reducible assumption)
    | (intro x; first | ((have hx : Stays s0 x := ?_); (try clear_value x); rotate_left; dsimp -zeta only [x]; rotate_right) | ((have hx : Stays s0 x.1 := ?_); (try clear_value x); rotate_left; dsimp -zeta only [x]; rotate_right) | ((have hx : Stays s0 x.2 := ?_); (try clear_value x); rotate_left; dsimp -zeta only [x]; rotate_right) | ((have hf : x.ldTenant = x.ldTenant := rfl); clear hf; dsimp -zeta only [x]) | ((have hf : x.fromRejoin = x.fromRejoin := rfl); clear hf; dsimp -zeta only [x]) | ((have hf : x.quotas = x.quotas := rfl); clear hf; dsimp -zeta only [x]) | ((have hf : x.resyncKind = x.resyncKind := rfl); clear hf; dsimp -zeta only [x]) | ((have hf : x.eng = x.eng := rfl); clear hf; dsimp -zeta only [x]) | ((have hf : x.lsa = x.lsa := rfl); clear hf; dsimp -zeta only [x]) | ((have hf : x.missMax = x.missMax := rfl); clear hf; dsimp -zeta only [x]) | ((have hf : x.jseq = x.jseq := rfl); clear hf; dsimp -zeta only [x]) | (clear_value x) | skip)
    | lift_lets -underBinder
    | (with_reducible refine stays_ite ?_ ?_)
    | (fail_if_no_progress beta_reduce)
    | (dsimp only [Stays, still]; with_reducible refine stays_of ?_; first | with_reducible assumption)
    | split
    | (refine stays_ite ?_ ?_))

theorem stays_noteWritten {s0 s : State} {f : Nat} (hK : Stays s0 s) :
    Stays s0 (State.noteWritten s f) := by
  unfold State.noteWritten
  repeat' (first
    | (with_reducible assumption)
    | (intro x; first | ((have hx : Stays s0 x := ?_); (try clear_value x); rotate_left; dsimp -zeta only [x]; rotate_right) | ((have hx : Stays s0 x.1 := ?_); (try clear_value x); rotate_left; dsimp -zeta only [x]; rotate_right) | ((have hx : Stays s0 x.2 := ?_); (try clear_value x); rotate_left; dsimp -zeta only [x]; rotate_right) | ((have hf : x.ldTenant = x.ldTenant := rfl); clear hf; dsimp -zeta only [x]) | ((have hf : x.fromRejoin = x.fromRejoin := rfl); clear hf; dsimp -zeta only [x]) | ((have hf : x.quotas = x.quotas := rfl); clear hf; dsimp -zeta only [x]) | ((have hf : x.resyncKind = x.resyncKind := rfl); clear hf; dsimp -zeta only [x]) | ((have hf : x.eng = x.eng := rfl); clear hf; dsimp -zeta only [x]) | ((have hf : x.lsa = x.lsa := rfl); clear hf; dsimp -zeta only [x]) | ((have hf : x.missMax = x.missMax := rfl); clear hf; dsimp -zeta only [x]) | ((have hf : x.jseq = x.jseq := rfl); clear hf; dsimp -zeta only [x]) | (clear_value x) | skip)
    | lift_lets -underBinder
    | (with_reducible refine stays_put ?_ ..)
    | (with_reducible refine stays_heat ?_ ..)
    | (with_reducible refine stays_ite ?_ ?_)
    | (fail_if_no_progress beta_reduce)
    | (dsimp only [Stays, still]; with_reducible refine stays_of ?_; first | with_reducible assumption | (with_reducible refine stays_put ?_ ..) | (with_reducible refine stays_heat ?_ ..))
    | split
    | (refine stays_ite ?_ ?_))

theorem stays_suspendOn {s0 s : State} {d : Nat} (hK : Stays s0 s) :
    Stays s0 (State.suspendOn s d) := by
  unfold State.suspendOn
  repeat' (first
    | (with_reducible assumption)
    | (intro x; first | ((have hx : Stays s0 x := ?_); (try clear_value x); rotate_left; dsimp -zeta only [x]; rotate_right) | ((have hx : Stays s0 x.1 := ?_); (try clear_value x); rotate_left; dsimp -zeta only [x]; rotate_right) | ((have hx : Stays s0 x.2 := ?_); (try clear_value x); rotate_left; dsimp -zeta only [x]; rotate_right) | ((have hf : x.ldTenant = x.ldTenant := rfl); clear hf; dsimp -zeta only [x]) | ((have hf : x.fromRejoin = x.fromRejoin := rfl); clear hf; dsimp -zeta only [x]) | ((have hf : x.quotas = x.quotas := rfl); clear hf; dsimp -zeta only [x]) | ((have hf : x.resyncKind = x.resyncKind := rfl); clear hf; dsimp -zeta only [x]) | ((have hf : x.eng = x.eng := rfl); clear hf; dsimp -zeta only [x]) | ((have hf : x.lsa = x.lsa := rfl); clear hf; dsimp -zeta only [x]) | ((have hf : x.missMax = x.missMax := rfl); clear hf; dsimp -zeta only [x]) | ((have hf : x.jseq = x.jseq := rfl); clear hf; dsimp -zeta only [x]) | (clear_value x) | skip)
    | lift_lets -underBinder
    | (with_reducible refine stays_put ?_ ..)
    | (with_reducible refine stays_raiseAt ?_ ..)
    | (with_reducible refine stays_ite ?_ ?_)
    | (fail_if_no_progress beta_reduce)
    | (dsimp only [Stays, still]; with_reducible refine stays_of ?_; first | with_reducible assumption | (with_reducible refine stays_put ?_ ..) | (with_reducible refine stays_raiseAt ?_ ..))
    | split
    | (refine stays_ite ?_ ?_))

theorem stays_flashRead {s0 s : State} {l : Nat} (hK : Stays s0 s) :
    Stays s0 (State.flashRead s l) := by
  unfold State.flashRead
  repeat' (first
    | (with_reducible assumption)
    | (intro x; first | ((have hx : Stays s0 x := ?_); (try clear_value x); rotate_left; dsimp -zeta only [x]; rotate_right) | ((have hx : Stays s0 x.1 := ?_); (try clear_value x); rotate_left; dsimp -zeta only [x]; rotate_right) | ((have hx : Stays s0 x.2 := ?_); (try clear_value x); rotate_left; dsimp -zeta only [x]; rotate_right) | ((have hf : x.ldTenant = x.ldTenant := rfl); clear hf; dsimp -zeta only [x]) | ((have hf : x.fromRejoin = x.fromRejoin := rfl); clear hf; dsimp -zeta only [x]) | ((have hf : x.quotas = x.quotas := rfl); clear hf; dsimp -zeta only [x]) | ((have hf : x.resyncKind = x.resyncKind := rfl); clear hf; dsimp -zeta only [x]) | ((have hf : x.eng = x.eng := rfl); clear hf; dsimp -zeta only [x]) | ((have hf : x.lsa = x.lsa := rfl); clear hf; dsimp -zeta only [x]) | ((have hf : x.missMax = x.missMax := rfl); clear hf; dsimp -zeta only [x]) | ((have hf : x.jseq = x.jseq := rfl); clear hf; dsimp -zeta only [x]) | (clear_value x) | skip)
    | lift_lets -underBinder
    | (with_reducible refine stays_suspendOn ?_ ..)
    | (with_reducible refine stays_ite ?_ ?_)
    | (fail_if_no_progress beta_reduce)
    | (dsimp only [Stays, still]; with_reducible refine stays_of ?_; first | with_reducible assumption | (with_reducible refine stays_suspendOn ?_ ..))
    | split
    | (refine stays_ite ?_ ?_))

theorem stays_startPromotion {s0 s : State} {sp : Nat} (hK : Stays s0 s) :
    Stays s0 (State.startPromotion s sp) := by
  unfold State.startPromotion
  repeat' (first
    | (with_reducible assumption)
    | (intro x; first | ((have hx : Stays s0 x := ?_); (try clear_value x); rotate_left; dsimp -zeta only [x]; rotate_right) | ((have hx : Stays s0 x.1 := ?_); (try clear_value x); rotate_left; dsimp -zeta only [x]; rotate_right) | ((have hx : Stays s0 x.2 := ?_); (try clear_value x); rotate_left; dsimp -zeta only [x]; rotate_right) | ((have hf : x.ldTenant = x.ldTenant := rfl); clear hf; dsimp -zeta only [x]) | ((have hf : x.fromRejoin = x.fromRejoin := rfl); clear hf; dsimp -zeta only [x]) | ((have hf : x.quotas = x.quotas := rfl); clear hf; dsimp -zeta only [x]) | ((have hf : x.resyncKind = x.resyncKind := rfl); clear hf; dsimp -zeta only [x]) | ((have hf : x.eng = x.eng := rfl); clear hf; dsimp -zeta only [x]) | ((have hf : x.lsa = x.lsa := rfl); clear hf; dsimp -zeta only [x]) | ((have hf : x.missMax = x.missMax := rfl); clear hf; dsimp -zeta only [x]) | ((have hf : x.jseq = x.jseq := rfl); clear hf; dsimp -zeta only [x]) | (clear_value x) | skip)
    | lift_lets -underBinder
    | (with_reducible refine stays_put ?_ ..)
    | (with_reducible refine stays_suspendOn ?_ ..)
    | (with_reducible refine stays_foldl (fun s x hK => ?_) ?_)
    | (with_reducible refine stays_foldl_fst (fun s x hK => ?_) ?_)
    | (refine stays_foldl_eq (by assumption) (fun s x hK => ?_) ?_)
    | (with_reducible refine stays_ite ?_ ?_)
    | (fail_if_no_progress beta_reduce)
    | (dsimp only [Stays, still]; with_reducible refine stays_of ?_; first | with_reducible assumption | (with_reducible refine stays_put ?_ ..) | (with_reducible refine stays_suspendOn ?_ ..) | (refine stays_foldl_eq (by assumption) (fun s x hK => ?_) ?_))
    | split
    | (refine stays_ite ?_ ?_))

theorem stays_useSpan {s0 s : State} {sp : Nat} (hK : Stays s0 s) :
    Stays s0 (State.useSpan s sp) := by
  unfold State.useSpan
  repeat' (first
    | (with_reducible assumption)
    | (intro x; first | ((have hx : Stays s0 x := ?_); (try clear_value x); rotate_left; dsimp -zeta only [x]; rotate_right) | ((have hx : Stays s0 x.1 := ?_); (try clear_value x); rotate_left; dsimp -zeta only [x]; rotate_right) | ((have hx : Stays s0 x.2 := ?_); (try clear_value x); rotate_left; dsimp -zeta only [x]; rotate_right) | ((have hf : x.ldTenant = x.ldTenant := rfl); clear hf; dsimp -zeta only [x]) | ((have hf : x.fromRejoin = x.fromRejoin := rfl); clear hf; dsimp -zeta only [x]) | ((have hf : x.quotas = x.quotas := rfl); clear hf; dsimp -zeta only [x]) | ((have hf : x.resyncKind = x.resyncKind := rfl); clear hf; dsimp -zeta only [x]) | ((have hf : x.eng = x.eng := rfl); clear hf; dsimp -zeta only [x]) | ((have hf : x.lsa = x.lsa := rfl); clear hf; dsimp -zeta only [x]) | ((have hf : x.missMax = x.missMax := rfl); clear hf; dsimp -zeta only [x]) | ((have hf : x.jseq = x.jseq := rfl); clear hf; dsimp -zeta only [x]) | (clear_value x) | skip)
    | lift_lets -underBinder
    | (with_reducible refine stays_ite ?_ ?_)
    | (fail_if_no_progress beta_reduce)
    | (dsimp only [Stays, still]; with_reducible refine stays_of ?_; first | with_reducible assumption)
    | split
    | (refine stays_ite ?_ ?_))

theorem stays_heat {s0 s : State} {sp : Nat} (hK : Stays s0 s) :
    Stays s0 (State.heat s sp) := by
  unfold State.heat
  repeat' (first
    | (with_reducible assumption)
    | (intro x; first | ((have hx : Stays s0 x := ?_); (try clear_value x); rotate_left; dsimp -zeta only [x]; rotate_right) | ((have hx : Stays s0 x.1 := ?_); (try clear_value x); rotate_left; dsimp -zeta only [x]; rotate_right) | ((have hx : Stays s0 x.2 := ?_); (try clear_value x); rotate_left; dsimp -zeta only [x]; rotate_right) | ((have hf : x.ldTenant = x.ldTenant := rfl); clear hf; dsimp -zeta only [x]) | ((have hf : x.fromRejoin = x.fromRejoin := rfl); clear hf; dsimp -zeta only [x]) | ((have hf : x.quotas = x.quotas := rfl); clear hf; dsimp -zeta only [x]) | ((have hf : x.resyncKind = x.resyncKind := rfl); clear hf; dsimp -zeta only [x]) | ((have hf : x.eng = x.eng := rfl); clear hf; dsimp -zeta only [x]) | ((have hf : x.lsa = x.lsa := rfl); clear hf; dsimp -zeta only [x]) | ((have hf : x.missMax = x.missMax := rfl); clear hf; dsimp -zeta only [x]) | ((have hf : x.jseq = x.jseq := rfl); clear hf; dsimp -zeta only [x]) | (clear_value x) | skip)
    | lift_lets -underBinder
    | (with_reducible refine stays_put ?_ ..)
    | (with_reducible refine stays_startPromotion ?_ ..)
    | (with_reducible refine stays_ite ?_ ?_)
    | (fail_if_no_progress beta_reduce)
    | (dsimp only [Stays, still]; with_reducible refine stays_of ?_; first | with_reducible assumption | (with_reducible refine stays_put ?_ ..) | (with_reducible refine stays_startPromotion ?_ ..))
    | split
    | (refine stays_ite ?_ ?_))

theorem stays_stepLfsr {s0 s : State} {slice : Nat} (hK : Stays s0 s) :
    Stays s0 (State.stepLfsr s slice) := by
  unfold State.stepLfsr
  repeat' (first
    | (with_reducible assumption)
    | (intro x; first | ((have hx : Stays s0 x := ?_); (try clear_value x); rotate_left; dsimp -zeta only [x]; rotate_right) | ((have hx : Stays s0 x.1 := ?_); (try clear_value x); rotate_left; dsimp -zeta only [x]; rotate_right) | ((have hx : Stays s0 x.2 := ?_); (try clear_value x); rotate_left; dsimp -zeta only [x]; rotate_right) | ((have hf : x.ldTenant = x.ldTenant := rfl); clear hf; dsimp -zeta only [x]) | ((have hf : x.fromRejoin = x.fromRejoin := rfl); clear hf; dsimp -zeta only [x]) | ((have hf : x.quotas = x.quotas := rfl); clear hf; dsimp -zeta only [x]) | ((have hf : x.resyncKind = x.resyncKind := rfl); clear hf; dsimp -zeta only [x]) | ((have hf : x.eng = x.eng := rfl); clear hf; dsimp -zeta only [x]) | ((have hf : x.lsa = x.lsa := rfl); clear hf; dsimp -zeta only [x]) | ((have hf : x.missMax = x.missMax := rfl); clear hf; dsimp -zeta only [x]) | ((have hf : x.jseq = x.jseq := rfl); clear hf; dsimp -zeta only [x]) | (clear_value x) | skip)
    | lift_lets -underBinder
    | (with_reducible refine stays_getD ?_ ?_)
    | (with_reducible refine stays_ite ?_ ?_)
    | (fail_if_no_progress beta_reduce)
    | (dsimp only [Stays, still]; with_reducible refine stays_of ?_; first | with_reducible assumption)
    | split
    | (refine stays_ite ?_ ?_))

theorem stays_allocD {s0 s : State} {f : Nat} (hK : Stays s0 s) :
    Stays s0 (State.allocD s f) := by
  unfold State.allocD
  repeat' (first
    | (with_reducible assumption)
    | (intro x; first | ((have hx : Stays s0 x := ?_); (try clear_value x); rotate_left; dsimp -zeta only [x]; rotate_right) | ((have hx : Stays s0 x.1 := ?_); (try clear_value x); rotate_left; dsimp -zeta only [x]; rotate_right) | ((have hx : Stays s0 x.2 := ?_); (try clear_value x); rotate_left; dsimp -zeta only [x]; rotate_right) | ((have hx : ∀ t, Stays s0 t → Stays s0 (x t) := ?_); (try clear_value x); rotate_left; dsimp -zeta only [x]; intros; rotate_right) | ((have hx : ∀ t a, Stays s0 t → Stays s0 (x t a) := ?_); (try clear_value x); rotate_left; dsimp -zeta only [x]; intros; rotate_right) | ((have hx : ∀ a t, Stays s0 t → Stays s0 (x a t) := ?_); (try clear_value x); rotate_left; dsimp -zeta only [x]; intros; rotate_right) | ((have hx : ∀ t a b, Stays s0 t → Stays s0 (x t a b) := ?_); (try clear_value x); rotate_left; dsimp -zeta only [x]; intros; rotate_right) | ((have hx : ∀ a b t, Stays s0 t → Stays s0 (x a b t) := ?_); (try clear_value x); rotate_left; dsimp -zeta only [x]; intros; rotate_right) | ((have hx : ∀ a, Stays s0 (x a) := ?_); (try clear_value x); rotate_left; dsimp -zeta only [x]; intros; rotate_right) | (have hf : ∀ a, x a = x a := fun _ => rfl) | ((have hf : x.ldTenant = x.ldTenant := rfl); clear hf; dsimp -zeta only [x]) | ((have hf : x.fromRejoin = x.fromRejoin := rfl); clear hf; dsimp -zeta only [x]) | ((have hf : x.quotas = x.quotas := rfl); clear hf; dsimp -zeta only [x]) | ((have hf : x.resyncKind = x.resyncKind := rfl); clear hf; dsimp -zeta only [x]) | ((have hf : x.eng = x.eng := rfl); clear hf; dsimp -zeta only [x]) | ((have hf : x.lsa = x.lsa := rfl); clear hf; dsimp -zeta only [x]) | ((have hf : x.missMax = x.missMax := rfl); clear hf; dsimp -zeta only [x]) | ((have hf : x.jseq = x.jseq := rfl); clear hf; dsimp -zeta only [x]) | (clear_value x) | skip)
    | lift_lets -underBinder
    | (with_reducible refine stays_put ?_ ..)
    | (with_reducible refine stays_ite ?_ ?_)
    | (with_reducible apply_assumption)
    | (fail_if_no_progress beta_reduce)
    | (dsimp only [Stays, still]; with_reducible refine stays_of ?_; first | with_reducible assumption | (with_reducible refine stays_put ?_ ..))
    | split
    | (refine stays_ite ?_ ?_))

theorem stays_holdWrite {s0 s : State} {l : Nat} (hK : Stays s0 s) :
    Stays s0 (State.holdWrite s l) := by
  unfold State.holdWrite
  repeat' (first
    | (with_reducible assumption)
    | (intro x; first | ((have hx : Stays s0 x := ?_); (try clear_value x); rotate_left; dsimp -zeta only [x]; rotate_right) | ((have hx : Stays s0 x.1 := ?_); (try clear_value x); rotate_left; dsimp -zeta only [x]; rotate_right) | ((have hx : Stays s0 x.2 := ?_); (try clear_value x); rotate_left; dsimp -zeta only [x]; rotate_right) | ((have hf : x.ldTenant = x.ldTenant := rfl); clear hf; dsimp -zeta only [x]) | ((have hf : x.fromRejoin = x.fromRejoin := rfl); clear hf; dsimp -zeta only [x]) | ((have hf : x.quotas = x.quotas := rfl); clear hf; dsimp -zeta only [x]) | ((have hf : x.resyncKind = x.resyncKind := rfl); clear hf; dsimp -zeta only [x]) | ((have hf : x.eng = x.eng := rfl); clear hf; dsimp -zeta only [x]) | ((have hf : x.lsa = x.lsa := rfl); clear hf; dsimp -zeta only [x]) | ((have hf : x.missMax = x.missMax := rfl); clear hf; dsimp -zeta only [x]) | ((have hf : x.jseq = x.jseq := rfl); clear hf; dsimp -zeta only [x]) | (clear_value x) | skip)
    | lift_lets -underBinder
    | (with_reducible refine stays_ite ?_ ?_)
    | (fail_if_no_progress beta_reduce)
    | (dsimp only [Stays, still]; with_reducible refine stays_of ?_; first | with_reducible assumption)
    | split
    | (refine stays_ite ?_ ?_))

theorem stays_putTierD {s0 s : State} {l : Nat} {dirty : Bool} (hK : Stays s0 s) :
    Stays s0 (State.putTierD s l dirty) := by
  unfold State.putTierD
  repeat' (first
    | (with_reducible assumption)
    | (intro x; first | ((have hx : Stays s0 x := ?_); (try clear_value x); rotate_left; dsimp -zeta only [x]; rotate_right) | ((have hx : Stays s0 x.1 := ?_); (try clear_value x); rotate_left; dsimp -zeta only [x]; rotate_right) | ((have hx : Stays s0 x.2 := ?_); (try clear_value x); rotate_left; dsimp -zeta only [x]; rotate_right) | ((have hf : x.ldTenant = x.ldTenant := rfl); clear hf; dsimp -zeta only [x]) | ((have hf : x.fromRejoin = x.fromRejoin := rfl); clear hf; dsimp -zeta only [x]) | ((have hf : x.quotas = x.quotas := rfl); clear hf; dsimp -zeta only [x]) | ((have hf : x.resyncKind = x.resyncKind := rfl); clear hf; dsimp -zeta only [x]) | ((have hf : x.eng = x.eng := rfl); clear hf; dsimp -zeta only [x]) | ((have hf : x.lsa = x.lsa := rfl); clear hf; dsimp -zeta only [x]) | ((have hf : x.missMax = x.missMax := rfl); clear hf; dsimp -zeta only [x]) | ((have hf : x.jseq = x.jseq := rfl); clear hf; dsimp -zeta only [x]) | (clear_value x) | skip)
    | lift_lets -underBinder
    | (with_reducible refine stays_put ?_ ..)
    | (with_reducible refine stays_allocD ?_ ..)
    | (with_reducible refine stays_holdWrite ?_ ..)
    | (with_reducible refine stays_ite ?_ ?_)
    | (fail_if_no_progress beta_reduce)
    | (dsimp only [Stays, still]; with_reducible refine stays_of ?_; first | with_reducible assumption | (with_reducible refine stays_put ?_ ..) | (with_reducible refine stays_allocD ?_ ..) | (with_reducible refine stays_holdWrite ?_ ..))
    | split
    | (refine stays_ite ?_ ?_))

theorem stays_dropMerge {s0 s : State} {l : Nat} (hK : Stays s0 s) :
    Stays s0 (State.dropMerge s l) := by
  unfold State.dropMerge
  repeat' (first
    | (with_reducible assumption)
    | (intro x; first | ((have hx : Stays s0 x := ?_); (try clear_value x); rotate_left; dsimp -zeta only [x]; rotate_right) | ((have hx : Stays s0 x.1 := ?_); (try clear_value x); rotate_left; dsimp -zeta only [x]; rotate_right) | ((have hx : Stays s0 x.2 := ?_); (try clear_value x); rotate_left; dsimp -zeta only [x]; rotate_right) | ((have hf : x.ldTenant = x.ldTenant := rfl); clear hf; dsimp -zeta only [x]) | ((have hf : x.fromRejoin = x.fromRejoin := rfl); clear hf; dsimp -zeta only [x]) | ((have hf : x.quotas = x.quotas := rfl); clear hf; dsimp -zeta only [x]) | ((have hf : x.resyncKind = x.resyncKind := rfl); clear hf; dsimp -zeta only [x]) | ((have hf : x.eng = x.eng := rfl); clear hf; dsimp -zeta only [x]) | ((have hf : x.lsa = x.lsa := rfl); clear hf; dsimp -zeta only [x]) | ((have hf : x.missMax = x.missMax := rfl); clear hf; dsimp -zeta only [x]) | ((have hf : x.jseq = x.jseq := rfl); clear hf; dsimp -zeta only [x]) | (clear_value x) | skip)
    | lift_lets -underBinder
    | (with_reducible refine stays_ite ?_ ?_)
    | (fail_if_no_progress beta_reduce)
    | (dsimp only [Stays, still]; with_reducible refine stays_of ?_; first | with_reducible assumption)
    | split
    | (refine stays_ite ?_ ?_))

theorem stays_wholeToD {s0 s : State} {l : Nat} (hK : Stays s0 s) :
    Stays s0 (State.wholeToD s l) := by
  unfold State.wholeToD
  repeat' (first
    | (with_reducible assumption)
    | (intro x; first | ((have hx : Stays s0 x := ?_); (try clear_value x); rotate_left; dsimp -zeta only [x]; rotate_right) | ((have hx : Stays s0 x.1 := ?_); (try clear_value x); rotate_left; dsimp -zeta only [x]; rotate_right) | ((have hx : Stays s0 x.2 := ?_); (try clear_value x); rotate_left; dsimp -zeta only [x]; rotate_right) | ((have hf : x.ldTenant = x.ldTenant := rfl); clear hf; dsimp -zeta only [x]) | ((have hf : x.fromRejoin = x.fromRejoin := rfl); clear hf; dsimp -zeta only [x]) | ((have hf : x.quotas = x.quotas := rfl); clear hf; dsimp -zeta only [x]) | ((have hf : x.resyncKind = x.resyncKind := rfl); clear hf; dsimp -zeta only [x]) | ((have hf : x.eng = x.eng := rfl); clear hf; dsimp -zeta only [x]) | ((have hf : x.lsa = x.lsa := rfl); clear hf; dsimp -zeta only [x]) | ((have hf : x.missMax = x.missMax := rfl); clear hf; dsimp -zeta only [x]) | ((have hf : x.jseq = x.jseq := rfl); clear hf; dsimp -zeta only [x]) | (clear_value x) | skip)
    | lift_lets -underBinder
    | (with_reducible refine stays_putTierD ?_ ..)
    | (with_reducible refine stays_dropMerge ?_ ..)
    | (with_reducible refine stays_ite ?_ ?_)
    | (fail_if_no_progress beta_reduce)
    | (dsimp only [Stays, still]; with_reducible refine stays_of ?_; first | with_reducible assumption | (with_reducible refine stays_putTierD ?_ ..) | (with_reducible refine stays_dropMerge ?_ ..))
    | split
    | (refine stays_ite ?_ ?_))

theorem stays_mergeIn {s0 s : State} {l : Nat} {mask : Word} {poison : Bool} (hK : Stays s0 s) :
    Stays s0 (State.mergeIn s l mask poison) := by
  unfold State.mergeIn
  repeat' (first
    | (with_reducible assumption)
    | (intro x; first | ((have hx : Stays s0 x := ?_); (try clear_value x); rotate_left; dsimp -zeta only [x]; rotate_right) | ((have hx : Stays s0 x.1 := ?_); (try clear_value x); rotate_left; dsimp -zeta only [x]; rotate_right) | ((have hx : Stays s0 x.2 := ?_); (try clear_value x); rotate_left; dsimp -zeta only [x]; rotate_right) | ((have hf : x.ldTenant = x.ldTenant := rfl); clear hf; dsimp -zeta only [x]) | ((have hf : x.fromRejoin = x.fromRejoin := rfl); clear hf; dsimp -zeta only [x]) | ((have hf : x.quotas = x.quotas := rfl); clear hf; dsimp -zeta only [x]) | ((have hf : x.resyncKind = x.resyncKind := rfl); clear hf; dsimp -zeta only [x]) | ((have hf : x.eng = x.eng := rfl); clear hf; dsimp -zeta only [x]) | ((have hf : x.lsa = x.lsa := rfl); clear hf; dsimp -zeta only [x]) | ((have hf : x.missMax = x.missMax := rfl); clear hf; dsimp -zeta only [x]) | ((have hf : x.jseq = x.jseq := rfl); clear hf; dsimp -zeta only [x]) | (clear_value x) | skip)
    | lift_lets -underBinder
    | (with_reducible refine stays_clearPoison ?_ ..)
    | (with_reducible refine stays_allocD ?_ ..)
    | (with_reducible refine stays_wholeToD ?_ ..)
    | (with_reducible refine stays_ite ?_ ?_)
    | (fail_if_no_progress beta_reduce)
    | (dsimp only [Stays, still]; with_reducible refine stays_of ?_; first | with_reducible assumption | (with_reducible refine stays_clearPoison ?_ ..) | (with_reducible refine stays_allocD ?_ ..) | (with_reducible refine stays_wholeToD ?_ ..))
    | split
    | (refine stays_ite ?_ ?_))

theorem stays_leaveDirty {s0 s : State} {l : Nat} (hK : Stays s0 s) :
    Stays s0 (State.leaveDirty s l) := by
  unfold State.leaveDirty
  repeat' (first
    | (with_reducible assumption)
    | (intro x; first | ((have hx : Stays s0 x := ?_); (try clear_value x); rotate_left; dsimp -zeta only [x]; rotate_right) | ((have hx : Stays s0 x.1 := ?_); (try clear_value x); rotate_left; dsimp -zeta only [x]; rotate_right) | ((have hx : Stays s0 x.2 := ?_); (try clear_value x); rotate_left; dsimp -zeta only [x]; rotate_right) | ((have hf : x.ldTenant = x.ldTenant := rfl); clear hf; dsimp -zeta only [x]) | ((have hf : x.fromRejoin = x.fromRejoin := rfl); clear hf; dsimp -zeta only [x]) | ((have hf : x.quotas = x.quotas := rfl); clear hf; dsimp -zeta only [x]) | ((have hf : x.resyncKind = x.resyncKind := rfl); clear hf; dsimp -zeta only [x]) | ((have hf : x.eng = x.eng := rfl); clear hf; dsimp -zeta only [x]) | ((have hf : x.lsa = x.lsa := rfl); clear hf; dsimp -zeta only [x]) | ((have hf : x.missMax = x.missMax := rfl); clear hf; dsimp -zeta only [x]) | ((have hf : x.jseq = x.jseq := rfl); clear hf; dsimp -zeta only [x]) | (clear_value x) | skip)
    | lift_lets -underBinder
    | (with_reducible refine stays_wholeToD ?_ ..)
    | (with_reducible refine stays_mergeIn ?_ ..)
    | (with_reducible refine stays_ite ?_ ?_)
    | (fail_if_no_progress beta_reduce)
    | (dsimp only [Stays, still]; with_reducible refine stays_of ?_; first | with_reducible assumption | (with_reducible refine stays_wholeToD ?_ ..) | (with_reducible refine stays_mergeIn ?_ ..))
    | split
    | (refine stays_ite ?_ ?_))

theorem stays_readBeats {s0 s : State} {l : Nat} (hK : Stays s0 s) :
    Stays s0 (State.readBeats s l) := by
  unfold State.readBeats
  repeat' (first
    | (with_reducible assumption)
    | (intro x; first | ((have hx : Stays s0 x := ?_); (try clear_value x); rotate_left; dsimp -zeta only [x]; rotate_right) | ((have hx : Stays s0 x.1 := ?_); (try clear_value x); rotate_left; dsimp -zeta only [x]; rotate_right) | ((have hx : Stays s0 x.2 := ?_); (try clear_value x); rotate_left; dsimp -zeta only [x]; rotate_right) | ((have hf : x.ldTenant = x.ldTenant := rfl); clear hf; dsimp -zeta only [x]) | ((have hf : x.fromRejoin = x.fromRejoin := rfl); clear hf; dsimp -zeta only [x]) | ((have hf : x.quotas = x.quotas := rfl); clear hf; dsimp -zeta only [x]) | ((have hf : x.resyncKind = x.resyncKind := rfl); clear hf; dsimp -zeta only [x]) | ((have hf : x.eng = x.eng := rfl); clear hf; dsimp -zeta only [x]) | ((have hf : x.lsa = x.lsa := rfl); clear hf; dsimp -zeta only [x]) | ((have hf : x.missMax = x.missMax := rfl); clear hf; dsimp -zeta only [x]) | ((have hf : x.jseq = x.jseq := rfl); clear hf; dsimp -zeta only [x]) | (clear_value x) | skip)
    | lift_lets -underBinder
    | (with_reducible refine stays_bump ?_ ..)
    | (with_reducible refine stays_raise ?_ ..)
    | (with_reducible refine stays_ite ?_ ?_)
    | (fail_if_no_progress beta_reduce)
    | (dsimp only [Stays, still]; with_reducible refine stays_of ?_; first | with_reducible assumption | (with_reducible refine stays_bump ?_ ..) | (with_reducible refine stays_raise ?_ ..))
    | split
    | (refine stays_ite ?_ ?_))

theorem stays_newBeats {s0 s : State} {l : Nat} (hK : Stays s0 s) :
    Stays s0 (State.newBeats s l) := by
  unfold State.newBeats
  repeat' (first
    | (with_reducible assumption)
    | (intro x; first | ((have hx : Stays s0 x := ?_); (try clear_value x); rotate_left; dsimp -zeta only [x]; rotate_right) | ((have hx : Stays s0 x.1 := ?_); (try clear_value x); rotate_left; dsimp -zeta only [x]; rotate_right) | ((have hx : Stays s0 x.2 := ?_); (try clear_value x); rotate_left; dsimp -zeta only [x]; rotate_right) | ((have hf : x.ldTenant = x.ldTenant := rfl); clear hf; dsimp -zeta only [x]) | ((have hf : x.fromRejoin = x.fromRejoin := rfl); clear hf; dsimp -zeta only [x]) | ((have hf : x.quotas = x.quotas := rfl); clear hf; dsimp -zeta only [x]) | ((have hf : x.resyncKind = x.resyncKind := rfl); clear hf; dsimp -zeta only [x]) | ((have hf : x.eng = x.eng := rfl); clear hf; dsimp -zeta only [x]) | ((have hf : x.lsa = x.lsa := rfl); clear hf; dsimp -zeta only [x]) | ((have hf : x.missMax = x.missMax := rfl); clear hf; dsimp -zeta only [x]) | ((have hf : x.jseq = x.jseq := rfl); clear hf; dsimp -zeta only [x]) | (clear_value x) | skip)
    | lift_lets -underBinder
    | (with_reducible refine stays_ite ?_ ?_)
    | (fail_if_no_progress beta_reduce)
    | (dsimp only [Stays, still]; with_reducible refine stays_of ?_; first | with_reducible assumption)
    | split
    | (refine stays_ite ?_ ?_))

theorem stays_loseBytes {s0 s : State} {l : Nat} (hK : Stays s0 s) :
    Stays s0 (State.loseBytes s l) := by
  unfold State.loseBytes
  repeat' (first
    | (with_reducible assumption)
    | (intro x; first | ((have hx : Stays s0 x := ?_); (try clear_value x); rotate_left; dsimp -zeta only [x]; rotate_right) | ((have hx : Stays s0 x.1 := ?_); (try clear_value x); rotate_left; dsimp -zeta only [x]; rotate_right) | ((have hx : Stays s0 x.2 := ?_); (try clear_value x); rotate_left; dsimp -zeta only [x]; rotate_right) | ((have hf : x.ldTenant = x.ldTenant := rfl); clear hf; dsimp -zeta only [x]) | ((have hf : x.fromRejoin = x.fromRejoin := rfl); clear hf; dsimp -zeta only [x]) | ((have hf : x.quotas = x.quotas := rfl); clear hf; dsimp -zeta only [x]) | ((have hf : x.resyncKind = x.resyncKind := rfl); clear hf; dsimp -zeta only [x]) | ((have hf : x.eng = x.eng := rfl); clear hf; dsimp -zeta only [x]) | ((have hf : x.lsa = x.lsa := rfl); clear hf; dsimp -zeta only [x]) | ((have hf : x.missMax = x.missMax := rfl); clear hf; dsimp -zeta only [x]) | ((have hf : x.jseq = x.jseq := rfl); clear hf; dsimp -zeta only [x]) | (clear_value x) | skip)
    | lift_lets -underBinder
    | (with_reducible refine stays_put ?_ ..)
    | (with_reducible refine stays_ite ?_ ?_)
    | (fail_if_no_progress beta_reduce)
    | (dsimp only [Stays, still]; with_reducible refine stays_of ?_; first | with_reducible assumption | (with_reducible refine stays_put ?_ ..))
    | split
    | (refine stays_ite ?_ ?_))

theorem stays_keepD {s0 s : State} {l : Nat} (hK : Stays s0 s) :
    Stays s0 (State.keepD s l) := by
  unfold State.keepD
  repeat' (first
    | (with_reducible assumption)
    | (intro x; first | ((have hx : Stays s0 x := ?_); (try clear_value x); rotate_left; dsimp -zeta only [x]; rotate_right) | ((have hx : Stays s0 x.1 := ?_); (try clear_value x); rotate_left; dsimp -zeta only [x]; rotate_right) | ((have hx : Stays s0 x.2 := ?_); (try clear_value x); rotate_left; dsimp -zeta only [x]; rotate_right) | ((have hf : x.ldTenant = x.ldTenant := rfl); clear hf; dsimp -zeta only [x]) | ((have hf : x.fromRejoin = x.fromRejoin := rfl); clear hf; dsimp -zeta only [x]) | ((have hf : x.quotas = x.quotas := rfl); clear hf; dsimp -zeta only [x]) | ((have hf : x.resyncKind = x.resyncKind := rfl); clear hf; dsimp -zeta only [x]) | ((have hf : x.eng = x.eng := rfl); clear hf; dsimp -zeta only [x]) | ((have hf : x.lsa = x.lsa := rfl); clear hf; dsimp -zeta only [x]) | ((have hf : x.missMax = x.missMax := rfl); clear hf; dsimp -zeta only [x]) | ((have hf : x.jseq = x.jseq := rfl); clear hf; dsimp -zeta only [x]) | (clear_value x) | skip)
    | lift_lets -underBinder
    | (with_reducible refine stays_putTierD ?_ ..)
    | (with_reducible refine stays_ite ?_ ?_)
    | (fail_if_no_progress beta_reduce)
    | (dsimp only [Stays, still]; with_reducible refine stays_of ?_; first | with_reducible assumption | (with_reducible refine stays_putTierD ?_ ..))
    | split
    | (refine stays_ite ?_ ?_))

theorem stays_evictCell {s0 s : State} {k : Nat} (hK : Stays s0 s) :
    Stays s0 (State.evictCell s k) := by
  unfold State.evictCell
  repeat' (first
    | (with_reducible assumption)
    | (intro x; first | ((have hx : Stays s0 x := ?_); (try clear_value x); rotate_left; dsimp -zeta only [x]; rotate_right) | ((have hx : Stays s0 x.1 := ?_); (try clear_value x); rotate_left; dsimp -zeta only [x]; rotate_right) | ((have hx : Stays s0 x.2 := ?_); (try clear_value x); rotate_left; dsimp -zeta only [x]; rotate_right) | ((have hf : x.ldTenant = x.ldTenant := rfl); clear hf; dsimp -zeta only [x]) | ((have hf : x.fromRejoin = x.fromRejoin := rfl); clear hf; dsimp -zeta only [x]) | ((have hf : x.quotas = x.quotas := rfl); clear hf; dsimp -zeta only [x]) | ((have hf : x.resyncKind = x.resyncKind := rfl); clear hf; dsimp -zeta only [x]) | ((have hf : x.eng = x.eng := rfl); clear hf; dsimp -zeta only [x]) | ((have hf : x.lsa = x.lsa := rfl); clear hf; dsimp -zeta only [x]) | ((have hf : x.missMax = x.missMax := rfl); clear hf; dsimp -zeta only [x]) | ((have hf : x.jseq = x.jseq := rfl); clear hf; dsimp -zeta only [x]) | (clear_value x) | skip)
    | lift_lets -underBinder
    | (with_reducible refine stays_put ?_ ..)
    | (with_reducible refine stays_wholeToD ?_ ..)
    | (with_reducible refine stays_leaveDirty ?_ ..)
    | (with_reducible refine stays_readBeats ?_ ..)
    | (with_reducible refine stays_newBeats ?_ ..)
    | (with_reducible refine stays_keepD ?_ ..)
    | (with_reducible refine stays_ite ?_ ?_)
    | (fail_if_no_progress beta_reduce)
    | (dsimp only [Stays, still]; with_reducible refine stays_of ?_; first | with_reducible assumption | (with_reducible refine stays_put ?_ ..) | (with_reducible refine stays_wholeToD ?_ ..) | (with_reducible refine stays_leaveDirty ?_ ..) | (with_reducible refine stays_readBeats ?_ ..) | (with_reducible refine stays_newBeats ?_ ..) | (with_reducible refine stays_keepD ?_ ..))
    | split
    | (refine stays_ite ?_ ?_))

theorem stays_allocCrown_o {s0 s : State} {l : Nat} {dirty : Bool} {fill : Bool} (hK : Stays s0 s) : OStays s0 (fun x => x) (State.allocCrown s l dirty fill) := by
  unfold State.allocCrown
  repeat' (first
    | (with_reducible assumption)
    | (intro x; first | ((have hx : Stays s0 x := ?_); (try clear_value x); rotate_left; dsimp -zeta only [x]; rotate_right) | ((have hx : Stays s0 x.1 := ?_); (try clear_value x); rotate_left; dsimp -zeta only [x]; rotate_right) | ((have hx : Stays s0 x.2 := ?_); (try clear_value x); rotate_left; dsimp -zeta only [x]; rotate_right) | ((have hf : x.ldTenant = x.ldTenant := rfl); clear hf; dsimp -zeta only [x]) | ((have hf : x.fromRejoin = x.fromRejoin := rfl); clear hf; dsimp -zeta only [x]) | ((have hf : x.quotas = x.quotas := rfl); clear hf; dsimp -zeta only [x]) | ((have hf : x.resyncKind = x.resyncKind := rfl); clear hf; dsimp -zeta only [x]) | ((have hf : x.eng = x.eng := rfl); clear hf; dsimp -zeta only [x]) | ((have hf : x.lsa = x.lsa := rfl); clear hf; dsimp -zeta only [x]) | ((have hf : x.missMax = x.missMax := rfl); clear hf; dsimp -zeta only [x]) | ((have hf : x.jseq = x.jseq := rfl); clear hf; dsimp -zeta only [x]) | (clear_value x) | skip)
    | lift_lets -underBinder
    | (with_reducible refine stays_put ?_ ..)
    | (with_reducible refine stays_stepLfsr ?_ ..)
    | (with_reducible refine stays_evictCell ?_ ..)
    | (with_reducible refine stays_ite ?_ ?_)
    | (fail_if_no_progress beta_reduce)
    | exact ostays_none
    | refine ostays_some ?_
    | refine ostays_step ?_ (fun s hK => ?_)
    | (dsimp only [Stays, still]; with_reducible refine stays_of ?_; first | with_reducible assumption | (with_reducible refine stays_put ?_ ..) | (with_reducible refine stays_stepLfsr ?_ ..) | (with_reducible refine stays_evictCell ?_ ..))
    | split
    | (refine stays_ite ?_ ?_))

theorem stays_allocCrown_eq {s0 s tE : State} {l : Nat} {dirty : Bool} {fill : Bool} (hEq : State.allocCrown s l dirty fill = some tE) (hK : Stays s0 s) : Stays s0 tE :=
  (stays_allocCrown_o hK).of tE hEq

theorem stays_makeDirty {s0 s : State} {l : Nat} (hK : Stays s0 s) :
    Stays s0 (State.makeDirty s l) := by
  unfold State.makeDirty
  repeat' (first
    | (with_reducible assumption)
    | (intro x; first | ((have hx : Stays s0 x := ?_); (try clear_value x); rotate_left; dsimp -zeta only [x]; rotate_right) | ((have hx : Stays s0 x.1 := ?_); (try clear_value x); rotate_left; dsimp -zeta only [x]; rotate_right) | ((have hx : Stays s0 x.2 := ?_); (try clear_value x); rotate_left; dsimp -zeta only [x]; rotate_right) | ((have hf : x.ldTenant = x.ldTenant := rfl); clear hf; dsimp -zeta only [x]) | ((have hf : x.fromRejoin = x.fromRejoin := rfl); clear hf; dsimp -zeta only [x]) | ((have hf : x.quotas = x.quotas := rfl); clear hf; dsimp -zeta only [x]) | ((have hf : x.resyncKind = x.resyncKind := rfl); clear hf; dsimp -zeta only [x]) | ((have hf : x.eng = x.eng := rfl); clear hf; dsimp -zeta only [x]) | ((have hf : x.lsa = x.lsa := rfl); clear hf; dsimp -zeta only [x]) | ((have hf : x.missMax = x.missMax := rfl); clear hf; dsimp -zeta only [x]) | ((have hf : x.jseq = x.jseq := rfl); clear hf; dsimp -zeta only [x]) | (clear_value x) | skip)
    | lift_lets -underBinder
    | (with_reducible refine stays_put ?_ ..)
    | (with_reducible refine stays_ite ?_ ?_)
    | (fail_if_no_progress beta_reduce)
    | (dsimp only [Stays, still]; with_reducible refine stays_of ?_; first | with_reducible assumption | (with_reducible refine stays_put ?_ ..))
    | split
    | (refine stays_ite ?_ ?_))

theorem stays_startClear {s0 s : State} {sp : Nat} (hK : Stays s0 s) :
    Stays s0 (State.startClear s sp) := by
  unfold State.startClear
  repeat' (first
    | (with_reducible assumption)
    | (intro x; first | ((have hx : Stays s0 x := ?_); (try clear_value x); rotate_left; dsimp -zeta only [x]; rotate_right) | ((have hx : Stays s0 x.1 := ?_); (try clear_value x); rotate_left; dsimp -zeta only [x]; rotate_right) | ((have hx : Stays s0 x.2 := ?_); (try clear_value x); rotate_left; dsimp -zeta only [x]; rotate_right) | ((have hf : x.ldTenant = x.ldTenant := rfl); clear hf; dsimp -zeta only [x]) | ((have hf : x.fromRejoin = x.fromRejoin := rfl); clear hf; dsimp -zeta only [x]) | ((have hf : x.quotas = x.quotas := rfl); clear hf; dsimp -zeta only [x]) | ((have hf : x.resyncKind = x.resyncKind := rfl); clear hf; dsimp -zeta only [x]) | ((have hf : x.eng = x.eng := rfl); clear hf; dsimp -zeta only [x]) | ((have hf : x.lsa = x.lsa := rfl); clear hf; dsimp -zeta only [x]) | ((have hf : x.missMax = x.missMax := rfl); clear hf; dsimp -zeta only [x]) | ((have hf : x.jseq = x.jseq := rfl); clear hf; dsimp -zeta only [x]) | (clear_value x) | skip)
    | lift_lets -underBinder
    | (with_reducible refine stays_ite ?_ ?_)
    | (fail_if_no_progress beta_reduce)
    | (dsimp only [Stays, still]; with_reducible refine stays_of ?_; first | with_reducible assumption)
    | split
    | (refine stays_ite ?_ ?_))

theorem stays_startSpanWrite {s0 s : State} {sp : Nat} (hK : Stays s0 s) :
    Stays s0 (State.startSpanWrite s sp) := by
  unfold State.startSpanWrite
  repeat' (first
    | (with_reducible assumption)
    | (intro x; first | ((have hx : Stays s0 x := ?_); (try clear_value x); rotate_left; dsimp -zeta only [x]; rotate_right) | ((have hx : Stays s0 x.1 := ?_); (try clear_value x); rotate_left; dsimp -zeta only [x]; rotate_right) | ((have hx : Stays s0 x.2 := ?_); (try clear_value x); rotate_left; dsimp -zeta only [x]; rotate_right) | ((have hf : x.ldTenant = x.ldTenant := rfl); clear hf; dsimp -zeta only [x]) | ((have hf : x.fromRejoin = x.fromRejoin := rfl); clear hf; dsimp -zeta only [x]) | ((have hf : x.quotas = x.quotas := rfl); clear hf; dsimp -zeta only [x]) | ((have hf : x.resyncKind = x.resyncKind := rfl); clear hf; dsimp -zeta only [x]) | ((have hf : x.eng = x.eng := rfl); clear hf; dsimp -zeta only [x]) | ((have hf : x.lsa = x.lsa := rfl); clear hf; dsimp -zeta only [x]) | ((have hf : x.missMax = x.missMax := rfl); clear hf; dsimp -zeta only [x]) | ((have hf : x.jseq = x.jseq := rfl); clear hf; dsimp -zeta only [x]) | (clear_value x) | skip)
    | lift_lets -underBinder
    | (with_reducible refine stays_ite ?_ ?_)
    | (fail_if_no_progress beta_reduce)
    | (dsimp only [Stays, still]; with_reducible refine stays_of ?_; first | with_reducible assumption)
    | split
    | (refine stays_ite ?_ ?_))

theorem stays_dropLines {s0 s : State} {p : Nat → Bool} (hK : Stays s0 s) :
    Stays s0 (State.dropLines s p) := by
  unfold State.dropLines
  repeat' (first
    | (with_reducible assumption)
    | (intro x; first | ((have hx : Stays s0 x := ?_); (try clear_value x); rotate_left; dsimp -zeta only [x]; rotate_right) | ((have hx : Stays s0 x.1 := ?_); (try clear_value x); rotate_left; dsimp -zeta only [x]; rotate_right) | ((have hx : Stays s0 x.2 := ?_); (try clear_value x); rotate_left; dsimp -zeta only [x]; rotate_right) | ((have hf : x.ldTenant = x.ldTenant := rfl); clear hf; dsimp -zeta only [x]) | ((have hf : x.fromRejoin = x.fromRejoin := rfl); clear hf; dsimp -zeta only [x]) | ((have hf : x.quotas = x.quotas := rfl); clear hf; dsimp -zeta only [x]) | ((have hf : x.resyncKind = x.resyncKind := rfl); clear hf; dsimp -zeta only [x]) | ((have hf : x.eng = x.eng := rfl); clear hf; dsimp -zeta only [x]) | ((have hf : x.lsa = x.lsa := rfl); clear hf; dsimp -zeta only [x]) | ((have hf : x.missMax = x.missMax := rfl); clear hf; dsimp -zeta only [x]) | ((have hf : x.jseq = x.jseq := rfl); clear hf; dsimp -zeta only [x]) | (clear_value x) | skip)
    | lift_lets -underBinder
    | (with_reducible refine stays_startClear ?_ ..)
    | (with_reducible refine stays_foldl (fun s x hK => ?_) ?_)
    | (with_reducible refine stays_foldl_fst (fun s x hK => ?_) ?_)
    | (refine stays_foldl_eq (by assumption) (fun s x hK => ?_) ?_)
    | (with_reducible refine stays_ite ?_ ?_)
    | (fail_if_no_progress beta_reduce)
    | (dsimp only [Stays, still]; with_reducible refine stays_of ?_; first | with_reducible assumption | (with_reducible refine stays_startClear ?_ ..) | (refine stays_foldl_eq (by assumption) (fun s x hK => ?_) ?_))
    | split
    | (refine stays_ite ?_ ?_))

theorem stays_checkWriteThrough {s0 s : State} (hK : Stays s0 s) :
    Stays s0 (State.checkWriteThrough s) := by
  unfold State.checkWriteThrough
  repeat' (first
    | (with_reducible assumption)
    | (intro x; first | ((have hx : Stays s0 x := ?_); (try clear_value x); rotate_left; dsimp -zeta only [x]; rotate_right) | ((have hx : Stays s0 x.1 := ?_); (try clear_value x); rotate_left; dsimp -zeta only [x]; rotate_right) | ((have hx : Stays s0 x.2 := ?_); (try clear_value x); rotate_left; dsimp -zeta only [x]; rotate_right) | ((have hf : x.ldTenant = x.ldTenant := rfl); clear hf; dsimp -zeta only [x]) | ((have hf : x.fromRejoin = x.fromRejoin := rfl); clear hf; dsimp -zeta only [x]) | ((have hf : x.quotas = x.quotas := rfl); clear hf; dsimp -zeta only [x]) | ((have hf : x.resyncKind = x.resyncKind := rfl); clear hf; dsimp -zeta only [x]) | ((have hf : x.eng = x.eng := rfl); clear hf; dsimp -zeta only [x]) | ((have hf : x.lsa = x.lsa := rfl); clear hf; dsimp -zeta only [x]) | ((have hf : x.missMax = x.missMax := rfl); clear hf; dsimp -zeta only [x]) | ((have hf : x.jseq = x.jseq := rfl); clear hf; dsimp -zeta only [x]) | (clear_value x) | skip)
    | lift_lets -underBinder
    | (with_reducible refine stays_raise ?_ ..)
    | (with_reducible refine stays_ite ?_ ?_)
    | (fail_if_no_progress beta_reduce)
    | (dsimp only [Stays, still]; with_reducible refine stays_of ?_; first | with_reducible assumption | (with_reducible refine stays_raise ?_ ..))
    | split
    | (refine stays_ite ?_ ?_))

theorem stays_checkThrottle {s0 s : State} (hK : Stays s0 s) :
    Stays s0 (State.checkThrottle s) := by
  unfold State.checkThrottle
  repeat' (first
    | (with_reducible assumption)
    | (intro x; first | ((have hx : Stays s0 x := ?_); (try clear_value x); rotate_left; dsimp -zeta only [x]; rotate_right) | ((have hx : Stays s0 x.1 := ?_); (try clear_value x); rotate_left; dsimp -zeta only [x]; rotate_right) | ((have hx : Stays s0 x.2 := ?_); (try clear_value x); rotate_left; dsimp -zeta only [x]; rotate_right) | ((have hf : x.ldTenant = x.ldTenant := rfl); clear hf; dsimp -zeta only [x]) | ((have hf : x.fromRejoin = x.fromRejoin := rfl); clear hf; dsimp -zeta only [x]) | ((have hf : x.quotas = x.quotas := rfl); clear hf; dsimp -zeta only [x]) | ((have hf : x.resyncKind = x.resyncKind := rfl); clear hf; dsimp -zeta only [x]) | ((have hf : x.eng = x.eng := rfl); clear hf; dsimp -zeta only [x]) | ((have hf : x.lsa = x.lsa := rfl); clear hf; dsimp -zeta only [x]) | ((have hf : x.missMax = x.missMax := rfl); clear hf; dsimp -zeta only [x]) | ((have hf : x.jseq = x.jseq := rfl); clear hf; dsimp -zeta only [x]) | (clear_value x) | skip)
    | lift_lets -underBinder
    | (with_reducible refine stays_raise ?_ ..)
    | (with_reducible refine stays_ite ?_ ?_)
    | (fail_if_no_progress beta_reduce)
    | (dsimp only [Stays, still]; with_reducible refine stays_of ?_; first | with_reducible assumption | (with_reducible refine stays_raise ?_ ..))
    | split
    | (refine stays_ite ?_ ?_))

theorem stays_checkDestage {s0 s : State} (hK : Stays s0 s) :
    Stays s0 (State.checkDestage s) := by
  unfold State.checkDestage
  repeat' (first
    | (with_reducible assumption)
    | (intro x; first | ((have hx : Stays s0 x := ?_); (try clear_value x); rotate_left; dsimp -zeta only [x]; rotate_right) | ((have hx : Stays s0 x.1 := ?_); (try clear_value x); rotate_left; dsimp -zeta only [x]; rotate_right) | ((have hx : Stays s0 x.2 := ?_); (try clear_value x); rotate_left; dsimp -zeta only [x]; rotate_right) | ((have hf : x.ldTenant = x.ldTenant := rfl); clear hf; dsimp -zeta only [x]) | ((have hf : x.fromRejoin = x.fromRejoin := rfl); clear hf; dsimp -zeta only [x]) | ((have hf : x.quotas = x.quotas := rfl); clear hf; dsimp -zeta only [x]) | ((have hf : x.resyncKind = x.resyncKind := rfl); clear hf; dsimp -zeta only [x]) | ((have hf : x.eng = x.eng := rfl); clear hf; dsimp -zeta only [x]) | ((have hf : x.lsa = x.lsa := rfl); clear hf; dsimp -zeta only [x]) | ((have hf : x.missMax = x.missMax := rfl); clear hf; dsimp -zeta only [x]) | ((have hf : x.jseq = x.jseq := rfl); clear hf; dsimp -zeta only [x]) | (clear_value x) | skip)
    | lift_lets -underBinder
    | (with_reducible refine stays_ite ?_ ?_)
    | (fail_if_no_progress beta_reduce)
    | (dsimp only [Stays, still]; with_reducible refine stays_of ?_; first | with_reducible assumption)
    | split
    | (refine stays_ite ?_ ?_))

theorem stays_checkBudget {s0 s : State} (hK : Stays s0 s) :
    Stays s0 (State.checkBudget s) := by
  unfold State.checkBudget
  repeat' (first
    | (with_reducible assumption)
    | (intro x; first | ((have hx : Stays s0 x := ?_); (try clear_value x); rotate_left; dsimp -zeta only [x]; rotate_right) | ((have hx : Stays s0 x.1 := ?_); (try clear_value x); rotate_left; dsimp -zeta only [x]; rotate_right) | ((have hx : Stays s0 x.2 := ?_); (try clear_value x); rotate_left; dsimp -zeta only [x]; rotate_right) | ((have hf : x.ldTenant = x.ldTenant := rfl); clear hf; dsimp -zeta only [x]) | ((have hf : x.fromRejoin = x.fromRejoin := rfl); clear hf; dsimp -zeta only [x]) | ((have hf : x.quotas = x.quotas := rfl); clear hf; dsimp -zeta only [x]) | ((have hf : x.resyncKind = x.resyncKind := rfl); clear hf; dsimp -zeta only [x]) | ((have hf : x.eng = x.eng := rfl); clear hf; dsimp -zeta only [x]) | ((have hf : x.lsa = x.lsa := rfl); clear hf; dsimp -zeta only [x]) | ((have hf : x.missMax = x.missMax := rfl); clear hf; dsimp -zeta only [x]) | ((have hf : x.jseq = x.jseq := rfl); clear hf; dsimp -zeta only [x]) | (clear_value x) | skip)
    | lift_lets -underBinder
    | (with_reducible refine stays_checkWriteThrough ?_ ..)
    | (with_reducible refine stays_checkThrottle ?_ ..)
    | (with_reducible refine stays_checkDestage ?_ ..)
    | (with_reducible refine stays_ite ?_ ?_)
    | (fail_if_no_progress beta_reduce)
    | (dsimp only [Stays, still]; with_reducible refine stays_of ?_; first | with_reducible assumption | (with_reducible refine stays_checkWriteThrough ?_ ..) | (with_reducible refine stays_checkThrottle ?_ ..) | (with_reducible refine stays_checkDestage ?_ ..))
    | split
    | (refine stays_ite ?_ ?_))

theorem stays_budgetChanged {s0 s : State} {before : Nat} (hK : Stays s0 s) :
    Stays s0 (State.budgetChanged s before) := by
  unfold State.budgetChanged
  repeat' (first
    | (with_reducible assumption)
    | (intro x; first | ((have hx : Stays s0 x := ?_); (try clear_value x); rotate_left; dsimp -zeta only [x]; rotate_right) | ((have hx : Stays s0 x.1 := ?_); (try clear_value x); rotate_left; dsimp -zeta only [x]; rotate_right) | ((have hx : Stays s0 x.2 := ?_); (try clear_value x); rotate_left; dsimp -zeta only [x]; rotate_right) | ((have hf : x.ldTenant = x.ldTenant := rfl); clear hf; dsimp -zeta only [x]) | ((have hf : x.fromRejoin = x.fromRejoin := rfl); clear hf; dsimp -zeta only [x]) | ((have hf : x.quotas = x.quotas := rfl); clear hf; dsimp -zeta only [x]) | ((have hf : x.resyncKind = x.resyncKind := rfl); clear hf; dsimp -zeta only [x]) | ((have hf : x.eng = x.eng := rfl); clear hf; dsimp -zeta only [x]) | ((have hf : x.lsa = x.lsa := rfl); clear hf; dsimp -zeta only [x]) | ((have hf : x.missMax = x.missMax := rfl); clear hf; dsimp -zeta only [x]) | ((have hf : x.jseq = x.jseq := rfl); clear hf; dsimp -zeta only [x]) | (clear_value x) | skip)
    | lift_lets -underBinder
    | (with_reducible refine stays_raise ?_ ..)
    | (with_reducible refine stays_checkWriteThrough ?_ ..)
    | (with_reducible refine stays_checkThrottle ?_ ..)
    | (with_reducible refine stays_checkDestage ?_ ..)
    | (with_reducible refine stays_ite ?_ ?_)
    | (fail_if_no_progress beta_reduce)
    | (dsimp only [Stays, still]; with_reducible refine stays_of ?_; first | with_reducible assumption | (with_reducible refine stays_raise ?_ ..) | (with_reducible refine stays_checkWriteThrough ?_ ..) | (with_reducible refine stays_checkThrottle ?_ ..) | (with_reducible refine stays_checkDestage ?_ ..))
    | split
    | (refine stays_ite ?_ ?_))

theorem stays_putSkim {s0 s : State} {g : Nat} {k : Skim} (hK : Stays s0 s) :
    Stays s0 (State.putSkim s g k) := by
  unfold State.putSkim
  repeat' (first
    | (with_reducible assumption)
    | (intro x; first | ((have hx : Stays s0 x := ?_); (try clear_value x); rotate_left; dsimp -zeta only [x]; rotate_right) | ((have hx : Stays s0 x.1 := ?_); (try clear_value x); rotate_left; dsimp -zeta only [x]; rotate_right) | ((have hx : Stays s0 x.2 := ?_); (try clear_value x); rotate_left; dsimp -zeta only [x]; rotate_right) | ((have hf : x.ldTenant = x.ldTenant := rfl); clear hf; dsimp -zeta only [x]) | ((have hf : x.fromRejoin = x.fromRejoin := rfl); clear hf; dsimp -zeta only [x]) | ((have hf : x.quotas = x.quotas := rfl); clear hf; dsimp -zeta only [x]) | ((have hf : x.resyncKind = x.resyncKind := rfl); clear hf; dsimp -zeta only [x]) | ((have hf : x.eng = x.eng := rfl); clear hf; dsimp -zeta only [x]) | ((have hf : x.lsa = x.lsa := rfl); clear hf; dsimp -zeta only [x]) | ((have hf : x.missMax = x.missMax := rfl); clear hf; dsimp -zeta only [x]) | ((have hf : x.jseq = x.jseq := rfl); clear hf; dsimp -zeta only [x]) | (clear_value x) | skip)
    | lift_lets -underBinder
    | (with_reducible refine stays_put ?_ ..)
    | (with_reducible refine stays_ite ?_ ?_)
    | (fail_if_no_progress beta_reduce)
    | (dsimp only [Stays, still]; with_reducible refine stays_of ?_; first | with_reducible assumption | (with_reducible refine stays_put ?_ ..))
    | split
    | (refine stays_ite ?_ ?_))

theorem stays_startJournal {s0 s : State} {g : Nat} (hK : Stays s0 s) :
    Stays s0 (State.startJournal s g) := by
  unfold State.startJournal
  repeat' (first
    | (with_reducible assumption)
    | (intro x; first | ((have hx : Stays s0 x := ?_); (try clear_value x); rotate_left; dsimp -zeta only [x]; rotate_right) | ((have hx : Stays s0 x.1 := ?_); (try clear_value x); rotate_left; dsimp -zeta only [x]; rotate_right) | ((have hx : Stays s0 x.2 := ?_); (try clear_value x); rotate_left; dsimp -zeta only [x]; rotate_right) | ((have hf : x.ldTenant = x.ldTenant := rfl); clear hf; dsimp -zeta only [x]) | ((have hf : x.fromRejoin = x.fromRejoin := rfl); clear hf; dsimp -zeta only [x]) | ((have hf : x.quotas = x.quotas := rfl); clear hf; dsimp -zeta only [x]) | ((have hf : x.resyncKind = x.resyncKind := rfl); clear hf; dsimp -zeta only [x]) | ((have hf : x.eng = x.eng := rfl); clear hf; dsimp -zeta only [x]) | ((have hf : x.lsa = x.lsa := rfl); clear hf; dsimp -zeta only [x]) | ((have hf : x.missMax = x.missMax := rfl); clear hf; dsimp -zeta only [x]) | ((have hf : x.jseq = x.jseq := rfl); clear hf; dsimp -zeta only [x]) | (clear_value x) | skip)
    | lift_lets -underBinder
    | (with_reducible refine stays_putSkim ?_ ..)
    | (with_reducible refine stays_ite ?_ ?_)
    | (fail_if_no_progress beta_reduce)
    | (dsimp only [Stays, still]; with_reducible refine stays_of ?_; first | with_reducible assumption | (with_reducible refine stays_putSkim ?_ ..))
    | split
    | (refine stays_ite ?_ ?_))

theorem stays_queueRow {s0 s : State} {g : Nat} {row : Nat} (hK : Stays s0 s) :
    Stays s0 (State.queueRow s g row) := by
  unfold State.queueRow
  repeat' (first
    | (with_reducible assumption)
    | (intro x; first | ((have hx : Stays s0 x := ?_); (try clear_value x); rotate_left; dsimp -zeta only [x]; rotate_right) | ((have hx : Stays s0 x.1 := ?_); (try clear_value x); rotate_left; dsimp -zeta only [x]; rotate_right) | ((have hx : Stays s0 x.2 := ?_); (try clear_value x); rotate_left; dsimp -zeta only [x]; rotate_right) | ((have hf : x.ldTenant = x.ldTenant := rfl); clear hf; dsimp -zeta only [x]) | ((have hf : x.fromRejoin = x.fromRejoin := rfl); clear hf; dsimp -zeta only [x]) | ((have hf : x.quotas = x.quotas := rfl); clear hf; dsimp -zeta only [x]) | ((have hf : x.resyncKind = x.resyncKind := rfl); clear hf; dsimp -zeta only [x]) | ((have hf : x.eng = x.eng := rfl); clear hf; dsimp -zeta only [x]) | ((have hf : x.lsa = x.lsa := rfl); clear hf; dsimp -zeta only [x]) | ((have hf : x.missMax = x.missMax := rfl); clear hf; dsimp -zeta only [x]) | ((have hf : x.jseq = x.jseq := rfl); clear hf; dsimp -zeta only [x]) | (clear_value x) | skip)
    | lift_lets -underBinder
    | (with_reducible refine stays_putSkim ?_ ..)
    | (with_reducible refine stays_startJournal ?_ ..)
    | (with_reducible refine stays_ite ?_ ?_)
    | (fail_if_no_progress beta_reduce)
    | (dsimp only [Stays, still]; with_reducible refine stays_of ?_; first | with_reducible assumption | (with_reducible refine stays_putSkim ?_ ..) | (with_reducible refine stays_startJournal ?_ ..))
    | split
    | (refine stays_ite ?_ ?_))

theorem stays_destageStart {s0 s : State} {f : Nat} (hK : Stays s0 s) :
    Stays s0 (State.destageStart s f) := by
  unfold State.destageStart
  repeat' (first
    | (with_reducible assumption)
    | (intro x; first | ((have hx : Stays s0 x := ?_); (try clear_value x); rotate_left; dsimp -zeta only [x]; rotate_right) | ((have hx : Stays s0 x.1 := ?_); (try clear_value x); rotate_left; dsimp -zeta only [x]; rotate_right) | ((have hx : Stays s0 x.2 := ?_); (try clear_value x); rotate_left; dsimp -zeta only [x]; rotate_right) | ((have hf : x.ldTenant = x.ldTenant := rfl); clear hf; dsimp -zeta only [x]) | ((have hf : x.fromRejoin = x.fromRejoin := rfl); clear hf; dsimp -zeta only [x]) | ((have hf : x.quotas = x.quotas := rfl); clear hf; dsimp -zeta only [x]) | ((have hf : x.resyncKind = x.resyncKind := rfl); clear hf; dsimp -zeta only [x]) | ((have hf : x.eng = x.eng := rfl); clear hf; dsimp -zeta only [x]) | ((have hf : x.lsa = x.lsa := rfl); clear hf; dsimp -zeta only [x]) | ((have hf : x.missMax = x.missMax := rfl); clear hf; dsimp -zeta only [x]) | ((have hf : x.jseq = x.jseq := rfl); clear hf; dsimp -zeta only [x]) | (clear_value x) | skip)
    | lift_lets -underBinder
    | (with_reducible refine stays_put ?_ ..)
    | (with_reducible refine stays_startPromotion ?_ ..)
    | (with_reducible refine stays_queueRow ?_ ..)
    | (with_reducible refine stays_ite ?_ ?_)
    | (fail_if_no_progress beta_reduce)
    | (dsimp only [Stays, still]; with_reducible refine stays_of ?_; first | with_reducible assumption | (with_reducible refine stays_put ?_ ..) | (with_reducible refine stays_startPromotion ?_ ..) | (with_reducible refine stays_queueRow ?_ ..))
    | split
    | (refine stays_ite ?_ ?_))

theorem stays_planDestage {s0 s : State} (hK : Stays s0 s) :
    Stays s0 (State.planDestage s) := by
  unfold State.planDestage
  repeat' (first
    | (with_reducible assumption)
    | (intro x; first | ((have hx : Stays s0 x := ?_); (try clear_value x); rotate_left; dsimp -zeta only [x]; rotate_right) | ((have hx : Stays s0 x.1 := ?_); (try clear_value x); rotate_left; dsimp -zeta only [x]; rotate_right) | ((have hx : Stays s0 x.2 := ?_); (try clear_value x); rotate_left; dsimp -zeta only [x]; rotate_right) | ((have hf : x.ldTenant = x.ldTenant := rfl); clear hf; dsimp -zeta only [x]) | ((have hf : x.fromRejoin = x.fromRejoin := rfl); clear hf; dsimp -zeta only [x]) | ((have hf : x.quotas = x.quotas := rfl); clear hf; dsimp -zeta only [x]) | ((have hf : x.resyncKind = x.resyncKind := rfl); clear hf; dsimp -zeta only [x]) | ((have hf : x.eng = x.eng := rfl); clear hf; dsimp -zeta only [x]) | ((have hf : x.lsa = x.lsa := rfl); clear hf; dsimp -zeta only [x]) | ((have hf : x.missMax = x.missMax := rfl); clear hf; dsimp -zeta only [x]) | ((have hf : x.jseq = x.jseq := rfl); clear hf; dsimp -zeta only [x]) | (clear_value x) | skip)
    | lift_lets -underBinder
    | (with_reducible refine stays_destageStart ?_ ..)
    | (with_reducible refine stays_foldl (fun s x hK => ?_) ?_)
    | (with_reducible refine stays_foldl_fst (fun s x hK => ?_) ?_)
    | (refine stays_foldl_eq (by assumption) (fun s x hK => ?_) ?_)
    | (with_reducible refine stays_ite ?_ ?_)
    | (fail_if_no_progress beta_reduce)
    | (dsimp only [Stays, still]; with_reducible refine stays_of ?_; first | with_reducible assumption | (with_reducible refine stays_destageStart ?_ ..) | (refine stays_foldl_eq (by assumption) (fun s x hK => ?_) ?_))
    | split
    | (refine stays_ite ?_ ?_))

end Sys2Proof.Laws
end

