-- ==== Sys2Proof/Laws/StaysPlaces.lean ====
section
/-! SUPPORT. The operations of Machine/Places.lean that State.settle calls leave alone what Laws/Stays.lean names. -/

set_option linter.unusedTactic false
set_option linter.unreachableTactic false
set_option linter.unusedVariables false

namespace Sys2Proof.Laws

open Sys2Proof Machine

theorem stays_journal {s0 s : State} {type : Nat} {frame : Nat} {count : Nat} {key : Nat} {loc : Nat} {mask : List Nat} (hK : Stays s0 s) :
    Stays s0 (State.journal s type frame count key loc mask) := by
  unfold State.journal
  repeat' (first
    | (with_reducible assumption)
    | (intro x; first | ((have hx : Stays s0 x := ?_); (try clear_value x); rotate_left; dsimp -zeta only [x]; rotate_right) | ((have hx : Stays s0 x.1 := ?_); (try clear_value x); rotate_left; dsimp -zeta only [x]; rotate_right) | ((have hx : Stays s0 x.2 := ?_); (try clear_value x); rotate_left; dsimp -zeta only [x]; rotate_right) | ((have hf : x.ldTenant = x.ldTenant := rfl); clear hf; dsimp -zeta only [x]) | ((have hf : x.fromRejoin = x.fromRejoin := rfl); clear hf; dsimp -zeta only [x]) | ((have hf : x.quotas = x.quotas := rfl); clear hf; dsimp -zeta only [x]) | ((have hf : x.resyncKind = x.resyncKind := rfl); clear hf; dsimp -zeta only [x]) | ((have hf : x.eng = x.eng := rfl); clear hf; dsimp -zeta only [x]) | ((have hf : x.lsa = x.lsa := rfl); clear hf; dsimp -zeta only [x]) | ((have hf : x.missMax = x.missMax := rfl); clear hf; dsimp -zeta only [x]) | ((have hf : x.jseq = x.jseq := rfl); clear hf; dsimp -zeta only [x]) | (clear_value x) | skip)
    | lift_lets -underBinder
    | (with_reducible refine stays_ite ?_ ?_)
    | (fail_if_no_progress beta_reduce)
    | (dsimp only [Stays, still]; with_reducible refine stays_of ?_; first | with_reducible assumption)
    | split
    | (refine stays_ite ?_ ?_))

theorem stays_jBand {s0 s : State} {b : Nat} {st : BandSt} (hK : Stays s0 s) :
    Stays s0 (State.jBand s b st) := by
  unfold State.jBand
  repeat' (first
    | (with_reducible assumption)
    | (intro x; first | ((have hx : Stays s0 x := ?_); (try clear_value x); rotate_left; dsimp -zeta only [x]; rotate_right) | ((have hx : Stays s0 x.1 := ?_); (try clear_value x); rotate_left; dsimp -zeta only [x]; rotate_right) | ((have hx : Stays s0 x.2 := ?_); (try clear_value x); rotate_left; dsimp -zeta only [x]; rotate_right) | ((have hf : x.ldTenant = x.ldTenant := rfl); clear hf; dsimp -zeta only [x]) | ((have hf : x.fromRejoin = x.fromRejoin := rfl); clear hf; dsimp -zeta only [x]) | ((have hf : x.quotas = x.quotas := rfl); clear hf; dsimp -zeta only [x]) | ((have hf : x.resyncKind = x.resyncKind := rfl); clear hf; dsimp -zeta only [x]) | ((have hf : x.eng = x.eng := rfl); clear hf; dsimp -zeta only [x]) | ((have hf : x.lsa = x.lsa := rfl); clear hf; dsimp -zeta only [x]) | ((have hf : x.missMax = x.missMax := rfl); clear hf; dsimp -zeta only [x]) | ((have hf : x.jseq = x.jseq := rfl); clear hf; dsimp -zeta only [x]) | (clear_value x) | skip)
    | lift_lets -underBinder
    | (with_reducible refine stays_journal ?_ ..)
    | (with_reducible refine stays_ite ?_ ?_)
    | (fail_if_no_progress beta_reduce)
    | (dsimp only [Stays, still]; with_reducible refine stays_of ?_; first | with_reducible assumption | (with_reducible refine stays_journal ?_ ..))
    | split
    | (refine stays_ite ?_ ?_))

theorem stays_putBand {s0 s : State} {b : Nat} {x : Band} (hK : Stays s0 s) :
    Stays s0 (State.putBand s b x) := by
  unfold State.putBand
  repeat' (first
    | (with_reducible assumption)
    | (intro x; first | ((have hx : Stays s0 x := ?_); (try clear_value x); rotate_left; dsimp -zeta only [x]; rotate_right) | ((have hx : Stays s0 x.1 := ?_); (try clear_value x); rotate_left; dsimp -zeta only [x]; rotate_right) | ((have hx : Stays s0 x.2 := ?_); (try clear_value x); rotate_left; dsimp -zeta only [x]; rotate_right) | ((have hf : x.ldTenant = x.ldTenant := rfl); clear hf; dsimp -zeta only [x]) | ((have hf : x.fromRejoin = x.fromRejoin := rfl); clear hf; dsimp -zeta only [x]) | ((have hf : x.quotas = x.quotas := rfl); clear hf; dsimp -zeta only [x]) | ((have hf : x.resyncKind = x.resyncKind := rfl); clear hf; dsimp -zeta only [x]) | ((have hf : x.eng = x.eng := rfl); clear hf; dsimp -zeta only [x]) | ((have hf : x.lsa = x.lsa := rfl); clear hf; dsimp -zeta only [x]) | ((have hf : x.missMax = x.missMax := rfl); clear hf; dsimp -zeta only [x]) | ((have hf : x.jseq = x.jseq := rfl); clear hf; dsimp -zeta only [x]) | (clear_value x) | skip)
    | lift_lets -underBinder
    | (with_reducible refine stays_put ?_ ..)
    | (with_reducible refine stays_ite ?_ ?_)
    | (fail_if_no_progress beta_reduce)
    | (dsimp only [Stays, still]; with_reducible refine stays_of ?_; first | with_reducible assumption | (with_reducible refine stays_put ?_ ..))
    | split
    | (refine stays_ite ?_ ?_))

theorem stays_checkEligible {s0 s : State} {b : Nat} (hK : Stays s0 s) :
    Stays s0 (State.checkEligible s b) := by
  unfold State.checkEligible
  repeat' (first
    | (with_reducible assumption)
    | (intro x; first | ((have hx : Stays s0 x := ?_); (try clear_value x); rotate_left; dsimp -zeta only [x]; rotate_right) | ((have hx : Stays s0 x.1 := ?_); (try clear_value x); rotate_left; dsimp -zeta only [x]; rotate_right) | ((have hx : Stays s0 x.2 := ?_); (try clear_value x); rotate_left; dsimp -zeta only [x]; rotate_right) | ((have hf : x.ldTenant = x.ldTenant := rfl); clear hf; dsimp -zeta only [x]) | ((have hf : x.fromRejoin = x.fromRejoin := rfl); clear hf; dsimp -zeta only [x]) | ((have hf : x.quotas = x.quotas := rfl); clear hf; dsimp -zeta only [x]) | ((have hf : x.resyncKind = x.resyncKind := rfl); clear hf; dsimp -zeta only [x]) | ((have hf : x.eng = x.eng := rfl); clear hf; dsimp -zeta only [x]) | ((have hf : x.lsa = x.lsa := rfl); clear hf; dsimp -zeta only [x]) | ((have hf : x.missMax = x.missMax := rfl); clear hf; dsimp -zeta only [x]) | ((have hf : x.jseq = x.jseq := rfl); clear hf; dsimp -zeta only [x]) | (clear_value x) | skip)
    | lift_lets -underBinder
    | (with_reducible refine stays_jBand ?_ ..)
    | (with_reducible refine stays_putBand ?_ ..)
    | (with_reducible refine stays_ite ?_ ?_)
    | (fail_if_no_progress beta_reduce)
    | (dsimp only [Stays, still]; with_reducible refine stays_of ?_; first | with_reducible assumption | (with_reducible refine stays_jBand ?_ ..) | (with_reducible refine stays_putBand ?_ ..))
    | split
    | (refine stays_ite ?_ ?_))

theorem stays_release {s0 s : State} {l : List Nat} (hK : Stays s0 s) :
    Stays s0 (State.release s l) := by
  unfold State.release
  repeat' (first
    | (with_reducible assumption)
    | (intro x; first | ((have hx : Stays s0 x := ?_); (try clear_value x); rotate_left; dsimp -zeta only [x]; rotate_right) | ((have hx : Stays s0 x.1 := ?_); (try clear_value x); rotate_left; dsimp -zeta only [x]; rotate_right) | ((have hx : Stays s0 x.2 := ?_); (try clear_value x); rotate_left; dsimp -zeta only [x]; rotate_right) | ((have hf : x.ldTenant = x.ldTenant := rfl); clear hf; dsimp -zeta only [x]) | ((have hf : x.fromRejoin = x.fromRejoin := rfl); clear hf; dsimp -zeta only [x]) | ((have hf : x.quotas = x.quotas := rfl); clear hf; dsimp -zeta only [x]) | ((have hf : x.resyncKind = x.resyncKind := rfl); clear hf; dsimp -zeta only [x]) | ((have hf : x.eng = x.eng := rfl); clear hf; dsimp -zeta only [x]) | ((have hf : x.lsa = x.lsa := rfl); clear hf; dsimp -zeta only [x]) | ((have hf : x.missMax = x.missMax := rfl); clear hf; dsimp -zeta only [x]) | ((have hf : x.jseq = x.jseq := rfl); clear hf; dsimp -zeta only [x]) | (clear_value x) | skip)
    | lift_lets -underBinder
    | (with_reducible refine stays_putBand ?_ ..)
    | (with_reducible refine stays_checkEligible ?_ ..)
    | (with_reducible refine stays_foldl (fun s x hK => ?_) ?_)
    | (with_reducible refine stays_foldl_fst (fun s x hK => ?_) ?_)
    | (refine stays_foldl_eq (by assumption) (fun s x hK => ?_) ?_)
    | (with_reducible refine stays_ite ?_ ?_)
    | (fail_if_no_progress beta_reduce)
    | (dsimp only [Stays, still]; with_reducible refine stays_of ?_; first | with_reducible assumption | (with_reducible refine stays_putBand ?_ ..) | (with_reducible refine stays_checkEligible ?_ ..) | (refine stays_foldl_eq (by assumption) (fun s x hK => ?_) ?_))
    | split
    | (refine stays_ite ?_ ?_))

theorem stays_closeBand {s0 s : State} {b : Nat} (hK : Stays s0 s) :
    Stays s0 (State.closeBand s b) := by
  unfold State.closeBand
  repeat' (first
    | (with_reducible assumption)
    | (intro x; first | ((have hx : Stays s0 x := ?_); (try clear_value x); rotate_left; dsimp -zeta only [x]; rotate_right) | ((have hx : Stays s0 x.1 := ?_); (try clear_value x); rotate_left; dsimp -zeta only [x]; rotate_right) | ((have hx : Stays s0 x.2 := ?_); (try clear_value x); rotate_left; dsimp -zeta only [x]; rotate_right) | ((have hf : x.ldTenant = x.ldTenant := rfl); clear hf; dsimp -zeta only [x]) | ((have hf : x.fromRejoin = x.fromRejoin := rfl); clear hf; dsimp -zeta only [x]) | ((have hf : x.quotas = x.quotas := rfl); clear hf; dsimp -zeta only [x]) | ((have hf : x.resyncKind = x.resyncKind := rfl); clear hf; dsimp -zeta only [x]) | ((have hf : x.eng = x.eng := rfl); clear hf; dsimp -zeta only [x]) | ((have hf : x.lsa = x.lsa := rfl); clear hf; dsimp -zeta only [x]) | ((have hf : x.missMax = x.missMax := rfl); clear hf; dsimp -zeta only [x]) | ((have hf : x.jseq = x.jseq := rfl); clear hf; dsimp -zeta only [x]) | (clear_value x) | skip)
    | lift_lets -underBinder
    | (with_reducible refine stays_jBand ?_ ..)
    | (with_reducible refine stays_putBand ?_ ..)
    | (with_reducible refine stays_checkEligible ?_ ..)
    | (with_reducible refine stays_ite ?_ ?_)
    | (fail_if_no_progress beta_reduce)
    | (dsimp only [Stays, still]; with_reducible refine stays_of ?_; first | with_reducible assumption | (with_reducible refine stays_jBand ?_ ..) | (with_reducible refine stays_putBand ?_ ..) | (with_reducible refine stays_checkEligible ?_ ..))
    | split
    | (refine stays_ite ?_ ?_))

theorem stays_bandRoom_o {s0 s : State} {n : Nat} {fulling : Bool} (hK : Stays s0 s) : OStays s0 (fun x => x.2.2) (State.bandRoom s n fulling) := by
  unfold State.bandRoom
  repeat' (first
    | (with_reducible assumption)
    | (intro x; first | ((have hx : Stays s0 x := ?_); (try clear_value x); rotate_left; dsimp -zeta only [x]; rotate_right) | ((have hx : Stays s0 x.1 := ?_); (try clear_value x); rotate_left; dsimp -zeta only [x]; rotate_right) | ((have hx : Stays s0 x.2 := ?_); (try clear_value x); rotate_left; dsimp -zeta only [x]; rotate_right) | ((have hf : x.ldTenant = x.ldTenant := rfl); clear hf; dsimp -zeta only [x]) | ((have hf : x.fromRejoin = x.fromRejoin := rfl); clear hf; dsimp -zeta only [x]) | ((have hf : x.quotas = x.quotas := rfl); clear hf; dsimp -zeta only [x]) | ((have hf : x.resyncKind = x.resyncKind := rfl); clear hf; dsimp -zeta only [x]) | ((have hf : x.eng = x.eng := rfl); clear hf; dsimp -zeta only [x]) | ((have hf : x.lsa = x.lsa := rfl); clear hf; dsimp -zeta only [x]) | ((have hf : x.missMax = x.missMax := rfl); clear hf; dsimp -zeta only [x]) | ((have hf : x.jseq = x.jseq := rfl); clear hf; dsimp -zeta only [x]) | (clear_value x) | skip)
    | lift_lets -underBinder
    | (with_reducible refine stays_jBand ?_ ..)
    | (with_reducible refine stays_putBand ?_ ..)
    | (with_reducible refine stays_closeBand ?_ ..)
    | (with_reducible refine stays_refresh ?_ ..)
    | (with_reducible refine stays_ite ?_ ?_)
    | (fail_if_no_progress beta_reduce)
    | exact ostays_none
    | refine ostays_some ?_
    | refine ostays_step ?_ (fun s hK => ?_)
    | (dsimp only [Stays, still]; with_reducible refine stays_of ?_; first | with_reducible assumption | (with_reducible refine stays_jBand ?_ ..) | (with_reducible refine stays_putBand ?_ ..) | (with_reducible refine stays_closeBand ?_ ..) | (with_reducible refine stays_refresh ?_ ..))
    | split
    | (refine stays_ite ?_ ?_))

theorem stays_bandRoom_eq {s0 s tE : State} {aE bE : Nat} {n : Nat} {fulling : Bool} (hEq : State.bandRoom s n fulling = some (aE, bE, tE)) (hK : Stays s0 s) : Stays s0 tE :=
  (stays_bandRoom_o hK).of (aE, bE, tE) hEq

theorem stays_startChange {s0 s : State} {kind : ChgKind} {sp : Nat} {frames : List Nat} {src : List Nat} {fulling : Bool} {credit : Bool} (hK : Stays s0 s) :
    Stays s0 (State.startChange s kind sp frames src fulling credit) := by
  unfold State.startChange
  repeat' (first
    | (with_reducible assumption)
    | (intro x; first | ((have hx : Stays s0 x := ?_); (try clear_value x); rotate_left; dsimp -zeta only [x]; rotate_right) | ((have hx : Stays s0 x.1 := ?_); (try clear_value x); rotate_left; dsimp -zeta only [x]; rotate_right) | ((have hx : Stays s0 x.2 := ?_); (try clear_value x); rotate_left; dsimp -zeta only [x]; rotate_right) | ((have hf : x.ldTenant = x.ldTenant := rfl); clear hf; dsimp -zeta only [x]) | ((have hf : x.fromRejoin = x.fromRejoin := rfl); clear hf; dsimp -zeta only [x]) | ((have hf : x.quotas = x.quotas := rfl); clear hf; dsimp -zeta only [x]) | ((have hf : x.resyncKind = x.resyncKind := rfl); clear hf; dsimp -zeta only [x]) | ((have hf : x.eng = x.eng := rfl); clear hf; dsimp -zeta only [x]) | ((have hf : x.lsa = x.lsa := rfl); clear hf; dsimp -zeta only [x]) | ((have hf : x.missMax = x.missMax := rfl); clear hf; dsimp -zeta only [x]) | ((have hf : x.jseq = x.jseq := rfl); clear hf; dsimp -zeta only [x]) | (clear_value x) | skip)
    | lift_lets -underBinder
    | (with_reducible refine stays_bandRoom_o ?_ ..)
    | (refine stays_bandRoom_eq (by assumption) ?_)
    | (with_reducible refine stays_ite ?_ ?_)
    | (fail_if_no_progress beta_reduce)
    | (dsimp only [Stays, still]; with_reducible refine stays_of ?_; first | with_reducible assumption | (with_reducible refine stays_bandRoom_o ?_ ..) | (refine stays_bandRoom_eq (by assumption) ?_))
    | split
    | (refine stays_ite ?_ ?_))

theorem stays_toFine {s0 s : State} {sp : Nat} (hK : Stays s0 s) :
    Stays s0 (State.toFine s sp) := by
  unfold State.toFine
  repeat' (first
    | (with_reducible assumption)
    | (intro x; first | ((have hx : Stays s0 x := ?_); (try clear_value x); rotate_left; dsimp -zeta only [x]; rotate_right) | ((have hx : Stays s0 x.1 := ?_); (try clear_value x); rotate_left; dsimp -zeta only [x]; rotate_right) | ((have hx : Stays s0 x.2 := ?_); (try clear_value x); rotate_left; dsimp -zeta only [x]; rotate_right) | ((have hf : x.ldTenant = x.ldTenant := rfl); clear hf; dsimp -zeta only [x]) | ((have hf : x.fromRejoin = x.fromRejoin := rfl); clear hf; dsimp -zeta only [x]) | ((have hf : x.quotas = x.quotas := rfl); clear hf; dsimp -zeta only [x]) | ((have hf : x.resyncKind = x.resyncKind := rfl); clear hf; dsimp -zeta only [x]) | ((have hf : x.eng = x.eng := rfl); clear hf; dsimp -zeta only [x]) | ((have hf : x.lsa = x.lsa := rfl); clear hf; dsimp -zeta only [x]) | ((have hf : x.missMax = x.missMax := rfl); clear hf; dsimp -zeta only [x]) | ((have hf : x.jseq = x.jseq := rfl); clear hf; dsimp -zeta only [x]) | (clear_value x) | skip)
    | lift_lets -underBinder
    | (with_reducible refine stays_put ?_ ..)
    | (with_reducible refine stays_journal ?_ ..)
    | (with_reducible refine stays_foldl (fun s x hK => ?_) ?_)
    | (with_reducible refine stays_foldl_fst (fun s x hK => ?_) ?_)
    | (refine stays_foldl_eq (by assumption) (fun s x hK => ?_) ?_)
    | (with_reducible refine stays_ite ?_ ?_)
    | (fail_if_no_progress beta_reduce)
    | (dsimp only [Stays, still]; with_reducible refine stays_of ?_; first | with_reducible assumption | (with_reducible refine stays_put ?_ ..) | (with_reducible refine stays_journal ?_ ..) | (refine stays_foldl_eq (by assumption) (fun s x hK => ?_) ?_))
    | split
    | (refine stays_ite ?_ ?_))

theorem stays_toSpan {s0 s : State} {sp : Nat} (hK : Stays s0 s) :
    Stays s0 (State.toSpan s sp) := by
  unfold State.toSpan
  repeat' (first
    | (with_reducible assumption)
    | (intro x; first | ((have hx : Stays s0 x := ?_); (try clear_value x); rotate_left; dsimp -zeta only [x]; rotate_right) | ((have hx : Stays s0 x.1 := ?_); (try clear_value x); rotate_left; dsimp -zeta only [x]; rotate_right) | ((have hx : Stays s0 x.2 := ?_); (try clear_value x); rotate_left; dsimp -zeta only [x]; rotate_right) | ((have hf : x.ldTenant = x.ldTenant := rfl); clear hf; dsimp -zeta only [x]) | ((have hf : x.fromRejoin = x.fromRejoin := rfl); clear hf; dsimp -zeta only [x]) | ((have hf : x.quotas = x.quotas := rfl); clear hf; dsimp -zeta only [x]) | ((have hf : x.resyncKind = x.resyncKind := rfl); clear hf; dsimp -zeta only [x]) | ((have hf : x.eng = x.eng := rfl); clear hf; dsimp -zeta only [x]) | ((have hf : x.lsa = x.lsa := rfl); clear hf; dsimp -zeta only [x]) | ((have hf : x.missMax = x.missMax := rfl); clear hf; dsimp -zeta only [x]) | ((have hf : x.jseq = x.jseq := rfl); clear hf; dsimp -zeta only [x]) | (clear_value x) | skip)
    | lift_lets -underBinder
    | (with_reducible refine stays_startChange ?_ ..)
    | (with_reducible refine stays_ite ?_ ?_)
    | (fail_if_no_progress beta_reduce)
    | (dsimp only [Stays, still]; with_reducible refine stays_of ?_; first | with_reducible assumption | (with_reducible refine stays_startChange ?_ ..))
    | split
    | (refine stays_ite ?_ ?_))

theorem stays_countSubw {s0 s : State} {sp : Nat} (hK : Stays s0 s) :
    Stays s0 (State.countSubw s sp) := by
  unfold State.countSubw
  repeat' (first
    | (with_reducible assumption)
    | (intro x; first | ((have hx : Stays s0 x := ?_); (try clear_value x); rotate_left; dsimp -zeta only [x]; rotate_right) | ((have hx : Stays s0 x.1 := ?_); (try clear_value x); rotate_left; dsimp -zeta only [x]; rotate_right) | ((have hx : Stays s0 x.2 := ?_); (try clear_value x); rotate_left; dsimp -zeta only [x]; rotate_right) | ((have hf : x.ldTenant = x.ldTenant := rfl); clear hf; dsimp -zeta only [x]) | ((have hf : x.fromRejoin = x.fromRejoin := rfl); clear hf; dsimp -zeta only [x]) | ((have hf : x.quotas = x.quotas := rfl); clear hf; dsimp -zeta only [x]) | ((have hf : x.resyncKind = x.resyncKind := rfl); clear hf; dsimp -zeta only [x]) | ((have hf : x.eng = x.eng := rfl); clear hf; dsimp -zeta only [x]) | ((have hf : x.lsa = x.lsa := rfl); clear hf; dsimp -zeta only [x]) | ((have hf : x.missMax = x.missMax := rfl); clear hf; dsimp -zeta only [x]) | ((have hf : x.jseq = x.jseq := rfl); clear hf; dsimp -zeta only [x]) | (clear_value x) | skip)
    | lift_lets -underBinder
    | (with_reducible refine stays_put ?_ ..)
    | (with_reducible refine stays_toFine ?_ ..)
    | (with_reducible refine stays_toSpan ?_ ..)
    | (with_reducible refine stays_ite ?_ ?_)
    | (fail_if_no_progress beta_reduce)
    | (dsimp only [Stays, still]; with_reducible refine stays_of ?_; first | with_reducible assumption | (with_reducible refine stays_put ?_ ..) | (with_reducible refine stays_toFine ?_ ..) | (with_reducible refine stays_toSpan ?_ ..))
    | split
    | (refine stays_ite ?_ ?_))

theorem stays_classCount {s0 s : State} {c : Nat} {n : Nat} (hK : Stays s0 s) :
    Stays s0 (State.classCount s c n) := by
  unfold State.classCount
  repeat' (first
    | (with_reducible assumption)
    | (intro x; first | ((have hx : Stays s0 x := ?_); (try clear_value x); rotate_left; dsimp -zeta only [x]; rotate_right) | ((have hx : Stays s0 x.1 := ?_); (try clear_value x); rotate_left; dsimp -zeta only [x]; rotate_right) | ((have hx : Stays s0 x.2 := ?_); (try clear_value x); rotate_left; dsimp -zeta only [x]; rotate_right) | ((have hf : x.ldTenant = x.ldTenant := rfl); clear hf; dsimp -zeta only [x]) | ((have hf : x.fromRejoin = x.fromRejoin := rfl); clear hf; dsimp -zeta only [x]) | ((have hf : x.quotas = x.quotas := rfl); clear hf; dsimp -zeta only [x]) | ((have hf : x.resyncKind = x.resyncKind := rfl); clear hf; dsimp -zeta only [x]) | ((have hf : x.eng = x.eng := rfl); clear hf; dsimp -zeta only [x]) | ((have hf : x.lsa = x.lsa := rfl); clear hf; dsimp -zeta only [x]) | ((have hf : x.missMax = x.missMax := rfl); clear hf; dsimp -zeta only [x]) | ((have hf : x.jseq = x.jseq := rfl); clear hf; dsimp -zeta only [x]) | (clear_value x) | skip)
    | lift_lets -underBinder
    | (with_reducible refine stays_getD ?_ ?_)
    | (with_reducible refine stays_ite ?_ ?_)
    | (fail_if_no_progress beta_reduce)
    | (dsimp only [Stays, still]; with_reducible refine stays_of ?_; first | with_reducible assumption)
    | split
    | (refine stays_ite ?_ ?_))

theorem stays_dropFSpan {s0 s : State} {sp : Nat} (hK : Stays s0 s) :
    Stays s0 (State.dropFSpan s sp) := by
  unfold State.dropFSpan
  repeat' (first
    | (with_reducible assumption)
    | (intro x; first | ((have hx : Stays s0 x := ?_); (try clear_value x); rotate_left; dsimp -zeta only [x]; rotate_right) | ((have hx : Stays s0 x.1 := ?_); (try clear_value x); rotate_left; dsimp -zeta only [x]; rotate_right) | ((have hx : Stays s0 x.2 := ?_); (try clear_value x); rotate_left; dsimp -zeta only [x]; rotate_right) | ((have hf : x.ldTenant = x.ldTenant := rfl); clear hf; dsimp -zeta only [x]) | ((have hf : x.fromRejoin = x.fromRejoin := rfl); clear hf; dsimp -zeta only [x]) | ((have hf : x.quotas = x.quotas := rfl); clear hf; dsimp -zeta only [x]) | ((have hf : x.resyncKind = x.resyncKind := rfl); clear hf; dsimp -zeta only [x]) | ((have hf : x.eng = x.eng := rfl); clear hf; dsimp -zeta only [x]) | ((have hf : x.lsa = x.lsa := rfl); clear hf; dsimp -zeta only [x]) | ((have hf : x.missMax = x.missMax := rfl); clear hf; dsimp -zeta only [x]) | ((have hf : x.jseq = x.jseq := rfl); clear hf; dsimp -zeta only [x]) | (clear_value x) | skip)
    | lift_lets -underBinder
    | (with_reducible refine stays_journal ?_ ..)
    | (with_reducible refine stays_release ?_ ..)
    | (with_reducible refine stays_ite ?_ ?_)
    | (fail_if_no_progress beta_reduce)
    | (dsimp only [Stays, still]; with_reducible refine stays_of ?_; first | with_reducible assumption | (with_reducible refine stays_journal ?_ ..) | (with_reducible refine stays_release ?_ ..))
    | split
    | (refine stays_ite ?_ ?_))

theorem stays_startDemotion {s0 s : State} {sp : Nat} (hK : Stays s0 s) :
    Stays s0 (State.startDemotion s sp) := by
  unfold State.startDemotion
  repeat' (first
    | (with_reducible assumption)
    | (intro x; first | ((have hx : Stays s0 x := ?_); (try clear_value x); rotate_left; dsimp -zeta only [x]; rotate_right) | ((have hx : Stays s0 x.1 := ?_); (try clear_value x); rotate_left; dsimp -zeta only [x]; rotate_right) | ((have hx : Stays s0 x.2 := ?_); (try clear_value x); rotate_left; dsimp -zeta only [x]; rotate_right) | ((have hf : x.ldTenant = x.ldTenant := rfl); clear hf; dsimp -zeta only [x]) | ((have hf : x.fromRejoin = x.fromRejoin := rfl); clear hf; dsimp -zeta only [x]) | ((have hf : x.quotas = x.quotas := rfl); clear hf; dsimp -zeta only [x]) | ((have hf : x.resyncKind = x.resyncKind := rfl); clear hf; dsimp -zeta only [x]) | ((have hf : x.eng = x.eng := rfl); clear hf; dsimp -zeta only [x]) | ((have hf : x.lsa = x.lsa := rfl); clear hf; dsimp -zeta only [x]) | ((have hf : x.missMax = x.missMax := rfl); clear hf; dsimp -zeta only [x]) | ((have hf : x.jseq = x.jseq := rfl); clear hf; dsimp -zeta only [x]) | (clear_value x) | skip)
    | lift_lets -underBinder
    | (with_reducible refine stays_ite ?_ ?_)
    | (fail_if_no_progress beta_reduce)
    | (dsimp only [Stays, still]; with_reducible refine stays_of ?_; first | with_reducible assumption)
    | split
    | (refine stays_ite ?_ ?_))

theorem stays_planMoves {s0 s : State} (hK : Stays s0 s) :
    Stays s0 (State.planMoves s) := by
  unfold State.planMoves
  repeat' (first
    | (with_reducible assumption)
    | (intro x; first | ((have hx : Stays s0 x := ?_); (try clear_value x); rotate_left; dsimp -zeta only [x]; rotate_right) | ((have hx : Stays s0 x.1 := ?_); (try clear_value x); rotate_left; dsimp -zeta only [x]; rotate_right) | ((have hx : Stays s0 x.2 := ?_); (try clear_value x); rotate_left; dsimp -zeta only [x]; rotate_right) | ((have hf : x.ldTenant = x.ldTenant := rfl); clear hf; dsimp -zeta only [x]) | ((have hf : x.fromRejoin = x.fromRejoin := rfl); clear hf; dsimp -zeta only [x]) | ((have hf : x.quotas = x.quotas := rfl); clear hf; dsimp -zeta only [x]) | ((have hf : x.resyncKind = x.resyncKind := rfl); clear hf; dsimp -zeta only [x]) | ((have hf : x.eng = x.eng := rfl); clear hf; dsimp -zeta only [x]) | ((have hf : x.lsa = x.lsa := rfl); clear hf; dsimp -zeta only [x]) | ((have hf : x.missMax = x.missMax := rfl); clear hf; dsimp -zeta only [x]) | ((have hf : x.jseq = x.jseq := rfl); clear hf; dsimp -zeta only [x]) | (clear_value x) | skip)
    | lift_lets -underBinder
    | (with_reducible refine stays_raise ?_ ..)
    | (with_reducible refine stays_startChange ?_ ..)
    | (with_reducible refine stays_foldl (fun s x hK => ?_) ?_)
    | (with_reducible refine stays_foldl_fst (fun s x hK => ?_) ?_)
    | (refine stays_foldl_eq (by assumption) (fun s x hK => ?_) ?_)
    | (with_reducible refine stays_ite ?_ ?_)
    | (fail_if_no_progress beta_reduce)
    | (dsimp only [Stays, still]; with_reducible refine stays_of ?_; first | with_reducible assumption | (with_reducible refine stays_raise ?_ ..) | (with_reducible refine stays_startChange ?_ ..) | (refine stays_foldl_eq (by assumption) (fun s x hK => ?_) ?_))
    | split
    | (refine stays_ite ?_ ?_))

theorem stays_abandonDemotion {s0 s : State} {sp : Nat} (hK : Stays s0 s) :
    Stays s0 (State.abandonDemotion s sp) := by
  unfold State.abandonDemotion
  repeat' (first
    | (with_reducible assumption)
    | (intro x; first | ((have hx : Stays s0 x := ?_); (try clear_value x); rotate_left; dsimp -zeta only [x]; rotate_right) | ((have hx : Stays s0 x.1 := ?_); (try clear_value x); rotate_left; dsimp -zeta only [x]; rotate_right) | ((have hx : Stays s0 x.2 := ?_); (try clear_value x); rotate_left; dsimp -zeta only [x]; rotate_right) | ((have hf : x.ldTenant = x.ldTenant := rfl); clear hf; dsimp -zeta only [x]) | ((have hf : x.fromRejoin = x.fromRejoin := rfl); clear hf; dsimp -zeta only [x]) | ((have hf : x.quotas = x.quotas := rfl); clear hf; dsimp -zeta only [x]) | ((have hf : x.resyncKind = x.resyncKind := rfl); clear hf; dsimp -zeta only [x]) | ((have hf : x.eng = x.eng := rfl); clear hf; dsimp -zeta only [x]) | ((have hf : x.lsa = x.lsa := rfl); clear hf; dsimp -zeta only [x]) | ((have hf : x.missMax = x.missMax := rfl); clear hf; dsimp -zeta only [x]) | ((have hf : x.jseq = x.jseq := rfl); clear hf; dsimp -zeta only [x]) | (clear_value x) | skip)
    | lift_lets -underBinder
    | (with_reducible refine stays_put ?_ ..)
    | (with_reducible refine stays_ite ?_ ?_)
    | (fail_if_no_progress beta_reduce)
    | (dsimp only [Stays, still]; with_reducible refine stays_of ?_; first | with_reducible assumption | (with_reducible refine stays_put ?_ ..))
    | split
    | (refine stays_ite ?_ ?_))

end Sys2Proof.Laws
end

