-- ==== Sys2Proof/Laws/StaysDesc.lean ====
section
/-! SUPPORT. The operations of Machine/Desc.lean that State.settle calls leave alone what Laws/Stays.lean names. -/

set_option linter.unusedTactic false
set_option linter.unreachableTactic false
set_option linter.unusedVariables false

namespace Sys2Proof.Laws

open Sys2Proof Machine

theorem stays_putQueue {s0 s : State} {q : Nat} {e : QEntry} (hK : Stays s0 s) :
    Stays s0 (State.putQueue s q e) := by
  unfold State.putQueue
  repeat' (first
    | (with_reducible assumption)
    | (intro x; first | ((have hx : Stays s0 x := ?_); (try clear_value x); rotate_left; dsimp -zeta only [x]; rotate_right) | ((have hx : Stays s0 x.1 := ?_); (try clear_value x); rotate_left; dsimp -zeta only [x]; rotate_right) | ((have hx : Stays s0 x.2 := ?_); (try clear_value x); rotate_left; dsimp -zeta only [x]; rotate_right) | ((have hf : x.ldTenant = x.ldTenant := rfl); clear hf; dsimp -zeta only [x]) | ((have hf : x.fromRejoin = x.fromRejoin := rfl); clear hf; dsimp -zeta only [x]) | ((have hf : x.quotas = x.quotas := rfl); clear hf; dsimp -zeta only [x]) | ((have hf : x.resyncKind = x.resyncKind := rfl); clear hf; dsimp -zeta only [x]) | ((have hf : x.eng = x.eng := rfl); clear hf; dsimp -zeta only [x]) | ((have hf : x.lsa = x.lsa := rfl); clear hf; dsimp -zeta only [x]) | ((have hf : x.missMax = x.missMax := rfl); clear hf; dsimp -zeta only [x]) | ((have hf : x.jseq = x.jseq := rfl); clear hf; dsimp -zeta only [x]) | (clear_value x) | skip)
    | lift_lets -underBinder
    | (with_reducible refine stays_put ?_ ..)
    | (with_reducible refine stays_ite ?_ ?_)
    | (fail_if_no_progress beta_reduce)
    | (dsimp only [Stays, still]; with_reducible refine stays_of ?_; first | with_reducible assumption | (with_reducible refine stays_put ?_ ..))
    | split
    | (refine stays_ite ?_ ?_))

theorem stays_sendVector {s0 s : State} {q : Nat} (hK : Stays s0 s) :
    Stays s0 (State.sendVector s q) := by
  unfold State.sendVector
  repeat' (first
    | (with_reducible assumption)
    | (intro x; first | ((have hx : Stays s0 x := ?_); (try clear_value x); rotate_left; dsimp -zeta only [x]; rotate_right) | ((have hx : Stays s0 x.1 := ?_); (try clear_value x); rotate_left; dsimp -zeta only [x]; rotate_right) | ((have hx : Stays s0 x.2 := ?_); (try clear_value x); rotate_left; dsimp -zeta only [x]; rotate_right) | ((have hf : x.ldTenant = x.ldTenant := rfl); clear hf; dsimp -zeta only [x]) | ((have hf : x.fromRejoin = x.fromRejoin := rfl); clear hf; dsimp -zeta only [x]) | ((have hf : x.quotas = x.quotas := rfl); clear hf; dsimp -zeta only [x]) | ((have hf : x.resyncKind = x.resyncKind := rfl); clear hf; dsimp -zeta only [x]) | ((have hf : x.eng = x.eng := rfl); clear hf; dsimp -zeta only [x]) | ((have hf : x.lsa = x.lsa := rfl); clear hf; dsimp -zeta only [x]) | ((have hf : x.missMax = x.missMax := rfl); clear hf; dsimp -zeta only [x]) | ((have hf : x.jseq = x.jseq := rfl); clear hf; dsimp -zeta only [x]) | (clear_value x) | skip)
    | lift_lets -underBinder
    | (with_reducible refine stays_msix ?_ ..)
    | (with_reducible refine stays_raise ?_ ..)
    | (with_reducible refine stays_ite ?_ ?_)
    | (fail_if_no_progress beta_reduce)
    | (dsimp only [Stays, still]; with_reducible refine stays_of ?_; first | with_reducible assumption | (with_reducible refine stays_msix ?_ ..) | (with_reducible refine stays_raise ?_ ..))
    | split
    | (refine stays_ite ?_ ?_))

theorem stays_irqDue {s0 s : State} {q : Nat} (hK : Stays s0 s) :
    Stays s0 (State.irqDue s q) := by
  unfold State.irqDue
  repeat' (first
    | (with_reducible assumption)
    | (intro x; first | ((have hx : Stays s0 x := ?_); (try clear_value x); rotate_left; dsimp -zeta only [x]; rotate_right) | ((have hx : Stays s0 x.1 := ?_); (try clear_value x); rotate_left; dsimp -zeta only [x]; rotate_right) | ((have hx : Stays s0 x.2 := ?_); (try clear_value x); rotate_left; dsimp -zeta only [x]; rotate_right) | ((have hf : x.ldTenant = x.ldTenant := rfl); clear hf; dsimp -zeta only [x]) | ((have hf : x.fromRejoin = x.fromRejoin := rfl); clear hf; dsimp -zeta only [x]) | ((have hf : x.quotas = x.quotas := rfl); clear hf; dsimp -zeta only [x]) | ((have hf : x.resyncKind = x.resyncKind := rfl); clear hf; dsimp -zeta only [x]) | ((have hf : x.eng = x.eng := rfl); clear hf; dsimp -zeta only [x]) | ((have hf : x.lsa = x.lsa := rfl); clear hf; dsimp -zeta only [x]) | ((have hf : x.missMax = x.missMax := rfl); clear hf; dsimp -zeta only [x]) | ((have hf : x.jseq = x.jseq := rfl); clear hf; dsimp -zeta only [x]) | (clear_value x) | skip)
    | lift_lets -underBinder
    | (with_reducible refine stays_put ?_ ..)
    | (with_reducible refine stays_sendVector ?_ ..)
    | (with_reducible refine stays_ite ?_ ?_)
    | (fail_if_no_progress beta_reduce)
    | (dsimp only [Stays, still]; with_reducible refine stays_of ?_; first | with_reducible assumption | (with_reducible refine stays_put ?_ ..) | (with_reducible refine stays_sendVector ?_ ..))
    | split
    | (refine stays_ite ?_ ?_))

theorem stays_logQueue {s0 s : State} {q : Nat} {code : Nat} {port : Nat} {ld : Nat} (hK : Stays s0 s) :
    Stays s0 (State.logQueue s q code port ld) := by
  unfold State.logQueue
  repeat' (first
    | (with_reducible assumption)
    | (intro x; first | ((have hx : Stays s0 x := ?_); (try clear_value x); rotate_left; dsimp -zeta only [x]; rotate_right) | ((have hx : Stays s0 x.1 := ?_); (try clear_value x); rotate_left; dsimp -zeta only [x]; rotate_right) | ((have hx : Stays s0 x.2 := ?_); (try clear_value x); rotate_left; dsimp -zeta only [x]; rotate_right) | ((have hf : x.ldTenant = x.ldTenant := rfl); clear hf; dsimp -zeta only [x]) | ((have hf : x.fromRejoin = x.fromRejoin := rfl); clear hf; dsimp -zeta only [x]) | ((have hf : x.quotas = x.quotas := rfl); clear hf; dsimp -zeta only [x]) | ((have hf : x.resyncKind = x.resyncKind := rfl); clear hf; dsimp -zeta only [x]) | ((have hf : x.eng = x.eng := rfl); clear hf; dsimp -zeta only [x]) | ((have hf : x.lsa = x.lsa := rfl); clear hf; dsimp -zeta only [x]) | ((have hf : x.missMax = x.missMax := rfl); clear hf; dsimp -zeta only [x]) | ((have hf : x.jseq = x.jseq := rfl); clear hf; dsimp -zeta only [x]) | (clear_value x) | skip)
    | lift_lets -underBinder
    | (with_reducible refine stays_put ?_ ..)
    | (with_reducible refine stays_ite ?_ ?_)
    | (fail_if_no_progress beta_reduce)
    | (dsimp only [Stays, still]; with_reducible refine stays_of ?_; first | with_reducible assumption | (with_reducible refine stays_put ?_ ..))
    | split
    | (refine stays_ite ?_ ?_))

theorem stays_queueError {s0 s : State} {q : Nat} {code : Nat} {port : Nat} {ld : Nat} (hK : Stays s0 s) :
    Stays s0 (State.queueError s q code port ld) := by
  unfold State.queueError
  repeat' (first
    | (with_reducible assumption)
    | (intro x; first | ((have hx : Stays s0 x := ?_); (try clear_value x); rotate_left; dsimp -zeta only [x]; rotate_right) | ((have hx : Stays s0 x.1 := ?_); (try clear_value x); rotate_left; dsimp -zeta only [x]; rotate_right) | ((have hx : Stays s0 x.2 := ?_); (try clear_value x); rotate_left; dsimp -zeta only [x]; rotate_right) | ((have hf : x.ldTenant = x.ldTenant := rfl); clear hf; dsimp -zeta only [x]) | ((have hf : x.fromRejoin = x.fromRejoin := rfl); clear hf; dsimp -zeta only [x]) | ((have hf : x.quotas = x.quotas := rfl); clear hf; dsimp -zeta only [x]) | ((have hf : x.resyncKind = x.resyncKind := rfl); clear hf; dsimp -zeta only [x]) | ((have hf : x.eng = x.eng := rfl); clear hf; dsimp -zeta only [x]) | ((have hf : x.lsa = x.lsa := rfl); clear hf; dsimp -zeta only [x]) | ((have hf : x.missMax = x.missMax := rfl); clear hf; dsimp -zeta only [x]) | ((have hf : x.jseq = x.jseq := rfl); clear hf; dsimp -zeta only [x]) | (clear_value x) | skip)
    | lift_lets -underBinder
    | (with_reducible refine stays_raiseArg ?_ ..)
    | (with_reducible refine stays_putQueue ?_ ..)
    | (with_reducible refine stays_logQueue ?_ ..)
    | (with_reducible refine stays_ite ?_ ?_)
    | (fail_if_no_progress beta_reduce)
    | (dsimp only [Stays, still]; with_reducible refine stays_of ?_; first | with_reducible assumption | (with_reducible refine stays_raiseArg ?_ ..) | (with_reducible refine stays_putQueue ?_ ..) | (with_reducible refine stays_logQueue ?_ ..))
    | split
    | (refine stays_ite ?_ ?_))

theorem stays_boltAccess {s0 s : State} {b : Nat} {t : Nat} {write : Bool} {off : Nat} (hK : Stays s0 s) :
    Stays s0 (State.boltAccess s b t write off).1 := by
  unfold State.boltAccess
  repeat' (first
    | (with_reducible assumption)
    | (intro x; first | ((have hx : Stays s0 x := ?_); (try clear_value x); rotate_left; dsimp -zeta only [x]; rotate_right) | ((have hx : Stays s0 x.1 := ?_); (try clear_value x); rotate_left; dsimp -zeta only [x]; rotate_right) | ((have hx : Stays s0 x.2 := ?_); (try clear_value x); rotate_left; dsimp -zeta only [x]; rotate_right) | ((have hf : x.ldTenant = x.ldTenant := rfl); clear hf; dsimp -zeta only [x]) | ((have hf : x.fromRejoin = x.fromRejoin := rfl); clear hf; dsimp -zeta only [x]) | ((have hf : x.quotas = x.quotas := rfl); clear hf; dsimp -zeta only [x]) | ((have hf : x.resyncKind = x.resyncKind := rfl); clear hf; dsimp -zeta only [x]) | ((have hf : x.eng = x.eng := rfl); clear hf; dsimp -zeta only [x]) | ((have hf : x.lsa = x.lsa := rfl); clear hf; dsimp -zeta only [x]) | ((have hf : x.missMax = x.missMax := rfl); clear hf; dsimp -zeta only [x]) | ((have hf : x.jseq = x.jseq := rfl); clear hf; dsimp -zeta only [x]) | (clear_value x) | skip)
    | lift_lets -underBinder
    | (with_reducible refine stays_raiseOff ?_ ..)
    | (with_reducible refine stays_ite ?_ ?_)
    | (fail_if_no_progress beta_reduce)
    | (dsimp only [Stays, still]; with_reducible refine stays_of ?_; first | with_reducible assumption | (with_reducible refine stays_raiseOff ?_ ..))
    | split
    | (refine stays_ite ?_ ?_))

theorem stays_boltAccess_eq {s0 s tE : State} {bE : Nat} {b : Nat} {t : Nat} {write : Bool} {off : Nat} (hEq : State.boltAccess s b t write off = (tE, bE)) (hK : Stays s0 s) : Stays s0 tE := by
  have k : Stays s0 (State.boltAccess s b t write off).1 := stays_boltAccess hK
  rw [hEq] at k
  exact k

theorem stays_rangeAccess {s0 s : State} {t : Nat} {l : List (Nat × Nat × Bool)} (hK : Stays s0 s) :
    Stays s0 (State.rangeAccess s t l).1 := by
  unfold State.rangeAccess
  repeat' (first
    | (with_reducible assumption)
    | (intro x; first | ((have hx : Stays s0 x := ?_); (try clear_value x); rotate_left; dsimp -zeta only [x]; rotate_right) | ((have hx : Stays s0 x.1 := ?_); (try clear_value x); rotate_left; dsimp -zeta only [x]; rotate_right) | ((have hx : Stays s0 x.2 := ?_); (try clear_value x); rotate_left; dsimp -zeta only [x]; rotate_right) | ((have hf : x.ldTenant = x.ldTenant := rfl); clear hf; dsimp -zeta only [x]) | ((have hf : x.fromRejoin = x.fromRejoin := rfl); clear hf; dsimp -zeta only [x]) | ((have hf : x.quotas = x.quotas := rfl); clear hf; dsimp -zeta only [x]) | ((have hf : x.resyncKind = x.resyncKind := rfl); clear hf; dsimp -zeta only [x]) | ((have hf : x.eng = x.eng := rfl); clear hf; dsimp -zeta only [x]) | ((have hf : x.lsa = x.lsa := rfl); clear hf; dsimp -zeta only [x]) | ((have hf : x.missMax = x.missMax := rfl); clear hf; dsimp -zeta only [x]) | ((have hf : x.jseq = x.jseq := rfl); clear hf; dsimp -zeta only [x]) | (clear_value x) | skip)
    | lift_lets -underBinder
    | (with_reducible refine stays_boltAccess ?_ ..)
    | (refine stays_boltAccess_eq (by assumption) ?_)
    | (with_reducible refine stays_foldl (fun s x hK => ?_) ?_)
    | (with_reducible refine stays_foldl_fst (fun s x hK => ?_) ?_)
    | (refine stays_foldl_eq (by assumption) (fun s x hK => ?_) ?_)
    | (with_reducible refine stays_ite ?_ ?_)
    | (fail_if_no_progress beta_reduce)
    | (dsimp only [Stays, still]; with_reducible refine stays_of ?_; first | with_reducible assumption | (with_reducible refine stays_boltAccess ?_ ..) | (refine stays_boltAccess_eq (by assumption) ?_) | (refine stays_foldl_eq (by assumption) (fun s x hK => ?_) ?_))
    | split
    | (refine stays_ite ?_ ?_))

theorem stays_rangeAccess_eq {s0 s tE : State} {bE : Nat} {t : Nat} {l : List (Nat × Nat × Bool)} (hEq : State.rangeAccess s t l = (tE, bE)) (hK : Stays s0 s) : Stays s0 tE := by
  have k : Stays s0 (State.rangeAccess s t l).1 := stays_rangeAccess hK
  rw [hEq] at k
  exact k

theorem stays_checkDesc {s0 s : State} {e : QEntry} {d : LineData} (hK : Stays s0 s) :
    Stays s0 (State.checkDesc s e d).1 := by
  unfold State.checkDesc
  repeat' (first
    | (with_reducible assumption)
    | (intro x; first | ((have hx : Stays s0 x := ?_); (try clear_value x); rotate_left; dsimp -zeta only [x]; rotate_right) | ((have hx : Stays s0 x.1 := ?_); (try clear_value x); rotate_left; dsimp -zeta only [x]; rotate_right) | ((have hx : Stays s0 x.2 := ?_); (try clear_value x); rotate_left; dsimp -zeta only [x]; rotate_right) | ((have hf : x.ldTenant = x.ldTenant := rfl); clear hf; dsimp -zeta only [x]) | ((have hf : x.fromRejoin = x.fromRejoin := rfl); clear hf; dsimp -zeta only [x]) | ((have hf : x.quotas = x.quotas := rfl); clear hf; dsimp -zeta only [x]) | ((have hf : x.resyncKind = x.resyncKind := rfl); clear hf; dsimp -zeta only [x]) | ((have hf : x.eng = x.eng := rfl); clear hf; dsimp -zeta only [x]) | ((have hf : x.lsa = x.lsa := rfl); clear hf; dsimp -zeta only [x]) | ((have hf : x.missMax = x.missMax := rfl); clear hf; dsimp -zeta only [x]) | ((have hf : x.jseq = x.jseq := rfl); clear hf; dsimp -zeta only [x]) | (clear_value x) | skip)
    | lift_lets -underBinder
    | (with_reducible refine stays_rangeAccess ?_ ..)
    | (refine stays_rangeAccess_eq (by assumption) ?_)
    | (with_reducible refine stays_ite ?_ ?_)
    | (fail_if_no_progress beta_reduce)
    | (dsimp only [Stays, still]; with_reducible refine stays_of ?_; first | with_reducible assumption | (with_reducible refine stays_rangeAccess ?_ ..) | (refine stays_rangeAccess_eq (by assumption) ?_))
    | split
    | (refine stays_ite ?_ ?_))

theorem stays_checkDesc_eq {s0 s tE : State} {bE : Nat} {e : QEntry} {d : LineData} (hEq : State.checkDesc s e d = (tE, bE)) (hK : Stays s0 s) : Stays s0 tE := by
  have k : Stays s0 (State.checkDesc s e d).1 := stays_checkDesc hK
  rw [hEq] at k
  exact k

theorem stays_putEngine {s0 s : State} {e : Nat} {g : Engine} (hK : Stays s0 s) :
    Stays s0 (State.putEngine s e g) := by
  unfold State.putEngine
  repeat' (first
    | (with_reducible assumption)
    | (intro x; first | ((have hx : Stays s0 x := ?_); (try clear_value x); rotate_left; dsimp -zeta only [x]; rotate_right) | ((have hx : Stays s0 x.1 := ?_); (try clear_value x); rotate_left; dsimp -zeta only [x]; rotate_right) | ((have hx : Stays s0 x.2 := ?_); (try clear_value x); rotate_left; dsimp -zeta only [x]; rotate_right) | ((have hf : x.ldTenant = x.ldTenant := rfl); clear hf; dsimp -zeta only [x]) | ((have hf : x.fromRejoin = x.fromRejoin := rfl); clear hf; dsimp -zeta only [x]) | ((have hf : x.quotas = x.quotas := rfl); clear hf; dsimp -zeta only [x]) | ((have hf : x.resyncKind = x.resyncKind := rfl); clear hf; dsimp -zeta only [x]) | ((have hf : x.eng = x.eng := rfl); clear hf; dsimp -zeta only [x]) | ((have hf : x.lsa = x.lsa := rfl); clear hf; dsimp -zeta only [x]) | ((have hf : x.missMax = x.missMax := rfl); clear hf; dsimp -zeta only [x]) | ((have hf : x.jseq = x.jseq := rfl); clear hf; dsimp -zeta only [x]) | (clear_value x) | skip)
    | lift_lets -underBinder
    | (with_reducible refine stays_put ?_ ..)
    | (with_reducible refine stays_ite ?_ ?_)
    | (fail_if_no_progress beta_reduce)
    | (dsimp only [Stays, still]; with_reducible refine stays_of ?_; first | with_reducible assumption | (with_reducible refine stays_put ?_ ..))
    | split
    | (refine stays_ite ?_ ?_))

theorem stays_updRun {s0 s : State} {e : Nat} {f : Run → Run} (hK : Stays s0 s) :
    Stays s0 (State.updRun s e f) := by
  unfold State.updRun
  repeat' (first
    | (with_reducible assumption)
    | (intro x; first | ((have hx : Stays s0 x := ?_); (try clear_value x); rotate_left; dsimp -zeta only [x]; rotate_right) | ((have hx : Stays s0 x.1 := ?_); (try clear_value x); rotate_left; dsimp -zeta only [x]; rotate_right) | ((have hx : Stays s0 x.2 := ?_); (try clear_value x); rotate_left; dsimp -zeta only [x]; rotate_right) | ((have hf : x.ldTenant = x.ldTenant := rfl); clear hf; dsimp -zeta only [x]) | ((have hf : x.fromRejoin = x.fromRejoin := rfl); clear hf; dsimp -zeta only [x]) | ((have hf : x.quotas = x.quotas := rfl); clear hf; dsimp -zeta only [x]) | ((have hf : x.resyncKind = x.resyncKind := rfl); clear hf; dsimp -zeta only [x]) | ((have hf : x.eng = x.eng := rfl); clear hf; dsimp -zeta only [x]) | ((have hf : x.lsa = x.lsa := rfl); clear hf; dsimp -zeta only [x]) | ((have hf : x.missMax = x.missMax := rfl); clear hf; dsimp -zeta only [x]) | ((have hf : x.jseq = x.jseq := rfl); clear hf; dsimp -zeta only [x]) | (clear_value x) | skip)
    | lift_lets -underBinder
    | (with_reducible refine stays_putEngine ?_ ..)
    | (with_reducible refine stays_ite ?_ ?_)
    | (fail_if_no_progress beta_reduce)
    | (dsimp only [Stays, still]; with_reducible refine stays_of ?_; first | with_reducible assumption | (with_reducible refine stays_putEngine ?_ ..))
    | split
    | (refine stays_ite ?_ ?_))

theorem stays_putDesc {s0 s : State} {d : Desc} (hK : Stays s0 s) :
    Stays s0 (State.putDesc s d) := by
  unfold State.putDesc
  repeat' (first
    | (with_reducible assumption)
    | (intro x; first | ((have hx : Stays s0 x := ?_); (try clear_value x); rotate_left; dsimp -zeta only [x]; rotate_right) | ((have hx : Stays s0 x.1 := ?_); (try clear_value x); rotate_left; dsimp -zeta only [x]; rotate_right) | ((have hx : Stays s0 x.2 := ?_); (try clear_value x); rotate_left; dsimp -zeta only [x]; rotate_right) | ((have hf : x.ldTenant = x.ldTenant := rfl); clear hf; dsimp -zeta only [x]) | ((have hf : x.fromRejoin = x.fromRejoin := rfl); clear hf; dsimp -zeta only [x]) | ((have hf : x.quotas = x.quotas := rfl); clear hf; dsimp -zeta only [x]) | ((have hf : x.resyncKind = x.resyncKind := rfl); clear hf; dsimp -zeta only [x]) | ((have hf : x.eng = x.eng := rfl); clear hf; dsimp -zeta only [x]) | ((have hf : x.lsa = x.lsa := rfl); clear hf; dsimp -zeta only [x]) | ((have hf : x.missMax = x.missMax := rfl); clear hf; dsimp -zeta only [x]) | ((have hf : x.jseq = x.jseq := rfl); clear hf; dsimp -zeta only [x]) | (clear_value x) | skip)
    | lift_lets -underBinder
    | (with_reducible refine stays_ite ?_ ?_)
    | (fail_if_no_progress beta_reduce)
    | (dsimp only [Stays, still]; with_reducible refine stays_of ?_; first | with_reducible assumption)
    | split
    | (refine stays_ite ?_ ?_))

theorem stays_delDesc {s0 s : State} {q : Nat} {ix : Nat} (hK : Stays s0 s) :
    Stays s0 (State.delDesc s q ix) := by
  unfold State.delDesc
  repeat' (first
    | (with_reducible assumption)
    | (intro x; first | ((have hx : Stays s0 x := ?_); (try clear_value x); rotate_left; dsimp -zeta only [x]; rotate_right) | ((have hx : Stays s0 x.1 := ?_); (try clear_value x); rotate_left; dsimp -zeta only [x]; rotate_right) | ((have hx : Stays s0 x.2 := ?_); (try clear_value x); rotate_left; dsimp -zeta only [x]; rotate_right) | ((have hf : x.ldTenant = x.ldTenant := rfl); clear hf; dsimp -zeta only [x]) | ((have hf : x.fromRejoin = x.fromRejoin := rfl); clear hf; dsimp -zeta only [x]) | ((have hf : x.quotas = x.quotas := rfl); clear hf; dsimp -zeta only [x]) | ((have hf : x.resyncKind = x.resyncKind := rfl); clear hf; dsimp -zeta only [x]) | ((have hf : x.eng = x.eng := rfl); clear hf; dsimp -zeta only [x]) | ((have hf : x.lsa = x.lsa := rfl); clear hf; dsimp -zeta only [x]) | ((have hf : x.missMax = x.missMax := rfl); clear hf; dsimp -zeta only [x]) | ((have hf : x.jseq = x.jseq := rfl); clear hf; dsimp -zeta only [x]) | (clear_value x) | skip)
    | lift_lets -underBinder
    | (with_reducible refine stays_ite ?_ ?_)
    | (fail_if_no_progress beta_reduce)
    | (dsimp only [Stays, still]; with_reducible refine stays_of ?_; first | with_reducible assumption)
    | split
    | (refine stays_ite ?_ ?_))

theorem stays_endDesc {s0 s : State} {q : Nat} {ix : Nat} {code : Nat} (hK : Stays s0 s) :
    Stays s0 (State.endDesc s q ix code) := by
  unfold State.endDesc
  repeat' (first
    | (with_reducible assumption)
    | (intro x; first | ((have hx : Stays s0 x := ?_); (try clear_value x); rotate_left; dsimp -zeta only [x]; rotate_right) | ((have hx : Stays s0 x.1 := ?_); (try clear_value x); rotate_left; dsimp -zeta only [x]; rotate_right) | ((have hx : Stays s0 x.2 := ?_); (try clear_value x); rotate_left; dsimp -zeta only [x]; rotate_right) | ((have hf : x.ldTenant = x.ldTenant := rfl); clear hf; dsimp -zeta only [x]) | ((have hf : x.fromRejoin = x.fromRejoin := rfl); clear hf; dsimp -zeta only [x]) | ((have hf : x.quotas = x.quotas := rfl); clear hf; dsimp -zeta only [x]) | ((have hf : x.resyncKind = x.resyncKind := rfl); clear hf; dsimp -zeta only [x]) | ((have hf : x.eng = x.eng := rfl); clear hf; dsimp -zeta only [x]) | ((have hf : x.lsa = x.lsa := rfl); clear hf; dsimp -zeta only [x]) | ((have hf : x.missMax = x.missMax := rfl); clear hf; dsimp -zeta only [x]) | ((have hf : x.jseq = x.jseq := rfl); clear hf; dsimp -zeta only [x]) | (clear_value x) | skip)
    | lift_lets -underBinder
    | (with_reducible refine stays_putDesc ?_ ..)
    | (with_reducible refine stays_ite ?_ ?_)
    | (fail_if_no_progress beta_reduce)
    | (dsimp only [Stays, still]; with_reducible refine stays_of ?_; first | with_reducible assumption | (with_reducible refine stays_putDesc ?_ ..))
    | split
    | (refine stays_ite ?_ ?_))

theorem stays_noteCode {s0 s : State} {q : Nat} {ix : Nat} {code : Nat} (hK : Stays s0 s) :
    Stays s0 (State.noteCode s q ix code) := by
  unfold State.noteCode
  repeat' (first
    | (with_reducible assumption)
    | (intro x; first | ((have hx : Stays s0 x := ?_); (try clear_value x); rotate_left; dsimp -zeta only [x]; rotate_right) | ((have hx : Stays s0 x.1 := ?_); (try clear_value x); rotate_left; dsimp -zeta only [x]; rotate_right) | ((have hx : Stays s0 x.2 := ?_); (try clear_value x); rotate_left; dsimp -zeta only [x]; rotate_right) | ((have hf : x.ldTenant = x.ldTenant := rfl); clear hf; dsimp -zeta only [x]) | ((have hf : x.fromRejoin = x.fromRejoin := rfl); clear hf; dsimp -zeta only [x]) | ((have hf : x.quotas = x.quotas := rfl); clear hf; dsimp -zeta only [x]) | ((have hf : x.resyncKind = x.resyncKind := rfl); clear hf; dsimp -zeta only [x]) | ((have hf : x.eng = x.eng := rfl); clear hf; dsimp -zeta only [x]) | ((have hf : x.lsa = x.lsa := rfl); clear hf; dsimp -zeta only [x]) | ((have hf : x.missMax = x.missMax := rfl); clear hf; dsimp -zeta only [x]) | ((have hf : x.jseq = x.jseq := rfl); clear hf; dsimp -zeta only [x]) | (clear_value x) | skip)
    | lift_lets -underBinder
    | (with_reducible refine stays_putDesc ?_ ..)
    | (with_reducible refine stays_ite ?_ ?_)
    | (fail_if_no_progress beta_reduce)
    | (dsimp only [Stays, still]; with_reducible refine stays_of ?_; first | with_reducible assumption | (with_reducible refine stays_putDesc ?_ ..))
    | split
    | (refine stays_ite ?_ ?_))

theorem stays_descPartDone {s0 s : State} {q : Nat} {ix : Nat} {code : Nat} (hK : Stays s0 s) :
    Stays s0 (State.descPartDone s q ix code) := by
  unfold State.descPartDone
  repeat' (first
    | (with_reducible assumption)
    | (intro x; first | ((have hx : Stays s0 x := ?_); (try clear_value x); rotate_left; dsimp -zeta only [x]; rotate_right) | ((have hx : Stays s0 x.1 := ?_); (try clear_value x); rotate_left; dsimp -zeta only [x]; rotate_right) | ((have hx : Stays s0 x.2 := ?_); (try clear_value x); rotate_left; dsimp -zeta only [x]; rotate_right) | ((have hf : x.ldTenant = x.ldTenant := rfl); clear hf; dsimp -zeta only [x]) | ((have hf : x.fromRejoin = x.fromRejoin := rfl); clear hf; dsimp -zeta only [x]) | ((have hf : x.quotas = x.quotas := rfl); clear hf; dsimp -zeta only [x]) | ((have hf : x.resyncKind = x.resyncKind := rfl); clear hf; dsimp -zeta only [x]) | ((have hf : x.eng = x.eng := rfl); clear hf; dsimp -zeta only [x]) | ((have hf : x.lsa = x.lsa := rfl); clear hf; dsimp -zeta only [x]) | ((have hf : x.missMax = x.missMax := rfl); clear hf; dsimp -zeta only [x]) | ((have hf : x.jseq = x.jseq := rfl); clear hf; dsimp -zeta only [x]) | (clear_value x) | skip)
    | lift_lets -underBinder
    | (with_reducible refine stays_putDesc ?_ ..)
    | (with_reducible refine stays_ite ?_ ?_)
    | (fail_if_no_progress beta_reduce)
    | (dsimp only [Stays, still]; with_reducible refine stays_of ?_; first | with_reducible assumption | (with_reducible refine stays_putDesc ?_ ..))
    | split
    | (refine stays_ite ?_ ?_))

theorem stays_entryStored {s0 s : State} {d : Desc} {code : Nat} (hK : Stays s0 s) :
    Stays s0 (State.entryStored s d code) := by
  unfold State.entryStored
  repeat' (first
    | (with_reducible assumption)
    | (intro x; first | ((have hx : Stays s0 x := ?_); (try clear_value x); rotate_left; dsimp -zeta only [x]; rotate_right) | ((have hx : Stays s0 x.1 := ?_); (try clear_value x); rotate_left; dsimp -zeta only [x]; rotate_right) | ((have hx : Stays s0 x.2 := ?_); (try clear_value x); rotate_left; dsimp -zeta only [x]; rotate_right) | ((have hf : x.ldTenant = x.ldTenant := rfl); clear hf; dsimp -zeta only [x]) | ((have hf : x.fromRejoin = x.fromRejoin := rfl); clear hf; dsimp -zeta only [x]) | ((have hf : x.quotas = x.quotas := rfl); clear hf; dsimp -zeta only [x]) | ((have hf : x.resyncKind = x.resyncKind := rfl); clear hf; dsimp -zeta only [x]) | ((have hf : x.eng = x.eng := rfl); clear hf; dsimp -zeta only [x]) | ((have hf : x.lsa = x.lsa := rfl); clear hf; dsimp -zeta only [x]) | ((have hf : x.missMax = x.missMax := rfl); clear hf; dsimp -zeta only [x]) | ((have hf : x.jseq = x.jseq := rfl); clear hf; dsimp -zeta only [x]) | (clear_value x) | skip)
    | lift_lets -underBinder
    | (with_reducible refine stays_irqDue ?_ ..)
    | (with_reducible refine stays_queueError ?_ ..)
    | (with_reducible refine stays_delDesc ?_ ..)
    | (with_reducible refine stays_ite ?_ ?_)
    | (fail_if_no_progress beta_reduce)
    | (dsimp only [Stays, still]; with_reducible refine stays_of ?_; first | with_reducible assumption | (with_reducible refine stays_irqDue ?_ ..) | (with_reducible refine stays_queueError ?_ ..) | (with_reducible refine stays_delDesc ?_ ..))
    | split
    | (refine stays_ite ?_ ?_))

theorem stays_takeFetched {s0 s : State} {x : Desc} {data : LineData} {poison : Bool} {code : Nat} (hK : Stays s0 s) :
    Stays s0 (State.takeFetched s x data poison code) := by
  unfold State.takeFetched
  repeat' (first
    | (with_reducible assumption)
    | (intro x; first | ((have hx : Stays s0 x := ?_); (try clear_value x); rotate_left; dsimp -zeta only [x]; rotate_right) | ((have hx : Stays s0 x.1 := ?_); (try clear_value x); rotate_left; dsimp -zeta only [x]; rotate_right) | ((have hx : Stays s0 x.2 := ?_); (try clear_value x); rotate_left; dsimp -zeta only [x]; rotate_right) | ((have hf : x.ldTenant = x.ldTenant := rfl); clear hf; dsimp -zeta only [x]) | ((have hf : x.fromRejoin = x.fromRejoin := rfl); clear hf; dsimp -zeta only [x]) | ((have hf : x.quotas = x.quotas := rfl); clear hf; dsimp -zeta only [x]) | ((have hf : x.resyncKind = x.resyncKind := rfl); clear hf; dsimp -zeta only [x]) | ((have hf : x.eng = x.eng := rfl); clear hf; dsimp -zeta only [x]) | ((have hf : x.lsa = x.lsa := rfl); clear hf; dsimp -zeta only [x]) | ((have hf : x.missMax = x.missMax := rfl); clear hf; dsimp -zeta only [x]) | ((have hf : x.jseq = x.jseq := rfl); clear hf; dsimp -zeta only [x]) | (clear_value x) | skip)
    | lift_lets -underBinder
    | (with_reducible refine stays_putQueue ?_ ..)
    | (with_reducible refine stays_queueError ?_ ..)
    | (with_reducible refine stays_checkDesc ?_ ..)
    | (refine stays_checkDesc_eq (by assumption) ?_)
    | (with_reducible refine stays_putDesc ?_ ..)
    | (with_reducible refine stays_delDesc ?_ ..)
    | (with_reducible refine stays_ite ?_ ?_)
    | (fail_if_no_progress beta_reduce)
    | (dsimp only [Stays, still]; with_reducible refine stays_of ?_; first | with_reducible assumption | (with_reducible refine stays_putQueue ?_ ..) | (with_reducible refine stays_queueError ?_ ..) | (with_reducible refine stays_checkDesc ?_ ..) | (refine stays_checkDesc_eq (by assumption) ?_) | (with_reducible refine stays_putDesc ?_ ..) | (with_reducible refine stays_delDesc ?_ ..))
    | split
    | (refine stays_ite ?_ ?_))

end Sys2Proof.Laws
end

