-- ==== Sys2Proof/WellFormed.lean ====
section
/-! DEFINITION. Which commands are well formed: every number that names a thing lies in the range
the spec gives that thing. exec is total on ill-formed commands too; a sender that follows the spec
sends only well-formed ones. -/

namespace Sys2Proof

/-- Ports P00 to P95 (11 R308). -/
def okPort (p : Nat) : Bool := decide (p < 96)
/-- LDs 0 to 15 (11 R317). -/
def okLd (l : Nat) : Bool := decide (l < 16)
/-- A 64-bit device or host time, or host physical address (00 R12). -/
def okDt (t : Nat) : Bool := decide (t < 2 ^ 64)
/-- Offsets of the 64 MiB register space (15 R399). -/
def okOff (o : Nat) : Bool := decide (o < 2 ^ 26)
/-- A path of a register access (15 R401). -/
def okVia (v : Via) : Bool :=
  match v with
  | .mgmt => true
  | .host p l => okPort p && okLd l
/-- A 16-bit CXL.mem tag. -/
def okTag (t : Nat) : Bool := decide (t < 2 ^ 16)
/-- Devices 0 to 63 (01 R35). -/
def okDev (d : Nat) : Bool := decide (d < 64)
/-- Lines of the range: offset bits [55:6] (01 R16). -/
def okLine (l : Nat) : Bool := decide (l < 2 ^ 50)
/-- Frames of the range: offset bits [55:12]. -/
def okFrame (f : Nat) : Bool := decide (f < 2 ^ 44)
/-- A frame, where one is named. -/
def okOptFrame (f : Option Nat) : Bool := f.all okFrame
/-- A port, where one is named. -/
def okOptPort (p : Option Nat) : Bool := p.all okPort
/-- Spans of the range: offset bits [55:20]. -/
def okSpan (s : Nat) : Bool := decide (s < 2 ^ 36)
/-- Tenants 0 to 4,095 (01 R26). -/
def okTenant (t : Nat) : Bool := decide (t < 4096)
/-- Ways 0 to 15 of a Crown slice (05 R154). -/
def okWay (w : Nat) : Bool := decide (w < 16)
/-- Subchannels: two of each of 32 channels (06 R168). -/
def okSub (s : Nat) : Bool := decide (s < 64)
/-- DRAM and flash channels 0 to 31. -/
def okCh (c : Nat) : Bool := decide (c < 32)
/-- Queues 0 to 4,194,303 (09 R262). -/
def okQueue (q : Nat) : Bool := decide (q < 4194304)
/-- Engines E00 to E47 (10 R286). -/
def okEngine (e : Nat) : Bool := decide (e < 48)
/-- Tile-store slots 0 to 15 (10 R286). -/
def okSlot (s : Nat) : Bool := decide (s < 16)
/-- Module indices 0 to 31 (11 R310). -/
def okModule (m : Nat) : Bool := decide (m < 32)
/-- Stripe members: modules 0 to 31, flash channels 32 to 63 (08). -/
def okMember (m : Nat) : Bool := decide (m < 64)
/-- Rails 0 to 10 in the order of 13 Table 13.4. -/
def okRail (r : Nat) : Bool := decide (r < 11)
/-- GPIO 0 to 15. -/
def okGpio (g : Nat) : Bool := decide (g < 16)
/-- Tiers D, P and F as 0, 1 and 2. -/
def okTier (t : Nat) : Bool := decide (t < 3)
/-- DRAM data lanes of a 40-bit subchannel (06). -/
def okLane (l : Nat) : Bool := decide (l < 40)
/-- Cipher lanes 3 × island + lane (12 R348). -/
def okLane24 (l : Nat) : Bool := decide (l < 24)
/-- Cores of a cipher lane. -/
def okCore (c : Nat) : Bool := decide (c < 16)
/-- Sample of a rail in mV (13 Table 13.12). -/
def okMv (m : Nat) : Bool := decide (m < 65536)
/-- A junction sample in 1/8 °C. -/
def okJunction (j : Nat) : Bool := decide (j < 2048)
/-- Islands 0 to 136 (12 R343). -/
def okIsland (i : Nat) : Bool := decide (i < 137)
/-- CXL event logs: Informational, Warning, Failure, Fatal (14 Table 14.1). -/
def okEvLog (l : Nat) : Bool := decide (l < 4)
/-- Stripe groups of tier P and the group of tier F (08). -/
def okGroup (g : Nat) : Bool := decide (g < 64)
/-- Byte offsets of the black-box or health-log partition (14 Table 14.10). -/
def okNvmAddr (a : Nat) : Bool := decide (a < 2 ^ 24) && a % 8 == 0
/-- Lane rate codes of PT_CFG.MAX_RATE (11 Table 11.11). -/
def okRate (r : Nat) : Bool := decide (r ≤ 6)
/-- Message classes CTL, RSP and REQ (11 R323). -/
def okCreditClass (c : Nat) : Bool := decide (c < 3)
/-- Stripe rows are counted in 32 bits (08 Table 8.10). -/
def okRow (r : Nat) : Bool := decide (r < 2 ^ 32)
/-- An eye width in the steps of DC_TRN_CMP (06). -/
def okEye (e : Nat) : Bool := decide (e < 256)
/-- A count of failed lanes (06). -/
def okBad (b : Nat) : Bool := decide (b < 65536)
/-- An 8-bit code. -/
def okByte (b : Nat) : Bool := decide (b < 256)
/-- Lines of one frame in a message: 1 to 64 (11 Table 11.7). -/
def okNlines (n : Nat) : Bool := decide (1 ≤ n) && decide (n ≤ 64)
/-- Line payloads of a message: at most 64. -/
def okLines (l : List LineData) : Bool := decide (l.length ≤ 64)
/-- Offsets in the 128 KiB label area of an LD (11 Table 11.3). -/
def okLsa (o : Nat) : Bool := decide (o < 131072)
/-- A link message header (11 Table 11.6). -/
def okHdr (h : Hdr) : Bool :=
  okPort h.port && okDev h.src && okDev h.dst && decide (h.hops < 256) && decide (h.status < 256)
    && decide (h.tag < 2 ^ 32) && decide (h.offset < 2 ^ 56) && decide (h.claim < 2 ^ 64)
/-- A heartbeat frame (03 Table 3.1). -/
def okHb (f : HbFrame) : Bool :=
  decide (f.ty < 16) && okDev f.sender && decide (f.auditBolt < 2 ^ 20) && okDt f.sendDt
    && decide (f.claimHigh < 2 ^ 64) && decide (f.auditClaim < 2 ^ 64) && decide (f.periodUs < 16384)
/-- A bolt table entry (01 Table 1.2). -/
def okEntry (e : BoltEntry) : Bool :=
  decide (e.durability < 4) && decide (e.activeSide < 2) && decide (e.access < 4)
    && decide (e.pairId < 32) && okTenant e.tenant && decide (e.claim < 2 ^ 64)
    && decide (e.dCap < 65536) && decide (e.pCap < 65536) && decide (e.fCap < 65536)
    && decide (e.seq < 2 ^ 32)
/-- LINK_HELLO (11 Table 11.7). -/
def okHello (h : Hello) : Bool :=
  okDev h.deviceId && decide (h.port < 96) && decide (h.personality < 5)
/-- An HDM decoder: 1, 2, 4, 8 or 16 ways of 256 B to 16 KiB (01 R28). -/
def okHdm (d : Hdm) : Bool :=
  decide (d.base < 2 ^ 64) && decide (d.size < 2 ^ 64) && decide (d.dpa < 2 ^ 56)
    && decide (d.waysLog2 ≤ 4) && decide (d.granLog2 ≤ 6)
/-- A place in DRAM (06 Table 6.14). -/
def okLoc (l : DramLoc) : Bool := okCh l.ch && decide (l.sub < 2) && decide (l.prank < 4)
/-- The outcome of link training (11 R311). -/
def okTrain (t : Train) : Bool := okRate t.rate && decide (t.lanes ≤ 16)
/-- An optional training outcome. -/
def okOptTrain (t : Option Train) : Bool := t.all okTrain
/-- What a module tells (11 Table 11.5). -/
def okModuleInfo (m : ModuleInfo) : Bool := decide (m.vid < 65536) && decide (m.did < 65536)
/-- An optional module. -/
def okOptModuleInfo (m : Option ModuleInfo) : Bool := m.all okModuleInfo
/-- What a Trowel read met. -/
def okTrowel (t : TrowelFind) : Bool :=
  match t with
  | .d l loc _ => l.all okLine && okLoc loc
  | .p g r _ _ => okGroup g && okRow r
  | .f f _ _ => okFrame f
/-- What a Crown fill met. -/
def okFill (r : FillRes) : Bool :=
  match r with
  | .tierD loc _ => okLoc loc
  | .frame _ => true

/-- The command is well formed. -/
def Instr.wellFormed (i : Instr) : Bool :=
  match i with
  | .registerWrite via off _ _ at_ => okVia via && okOff off && okDt at_
  | .badSizeAccess via off _ => okVia via && okOff off
  | .memRd port ld tag hpa at_ => okPort port && okLd ld && okTag tag && okDt hpa && okDt at_
  | .memWr port ld tag hpa _ _ at_ => okPort port && okLd ld && okTag tag && okDt hpa && okDt at_
  | .boltCacheMissFill _ at_ => okDt at_
  | .heldRequestRetry _ at_ => okDt at_
  | .holdExpiry _ at_ => okDt at_
  | .routeDrainDone dev at_ => okDev dev && okDt at_
  | .bind via _ _ _ at_ => okVia via && okDt at_
  | .unbind via _ at_ => okVia via && okDt at_
  | .modify via _ _ _ at_ => okVia via && okDt at_
  | .blReadEntry via _ at_ => okVia via && okDt at_
  | .tenantCreate via at_ => okVia via && okDt at_
  | .tenantDelete via _ at_ => okVia via && okDt at_
  | .ldAttach via _ at_ => okVia via && okDt at_
  | .blCmdTimeout at_ => okDt at_
  | .dirtySpanWriteDone span _ _ at_ => okSpan span && okDt at_
  | .dirtySpanRetry span _ _ at_ => okSpan span && okDt at_
  | .dirtySpanClear span at_ => okSpan span && okDt at_
  | .destageAgeExpiry line at_ => okLine line && okDt at_
  | .destageFrameDone frame group _ _ at_ => okFrame frame && okGroup group && okDt at_
  | .rmwReadDone frame _ at_ => okFrame frame && okDt at_
  | .mergeEntryClose sub line loc _ at_ => okSub sub && okLine line && okLoc loc && okDt at_
  | .gpfPhase1 port at_ => okPort port && okDt at_
  | .gpfPhase2 port at_ => okPort port && okDt at_
  | .pwDirtyBudgetWrite via _ _ at_ => okVia via && okDt at_
  | .pwEnergyDeclWrite via _ _ at_ => okVia via && okDt at_
  | .pwPoisonCountRead via _ => okVia via
  | .heartbeatTimer at_ => okDt at_
  | .plumbSendTimer at_ => okDt at_
  | .plumbFrameRx f at_ => okHb f && okDt at_
  | .heartbeat h f at_ => okHdr h && okHb f && okDt at_
  | .yield _ f at_ => okHb f && okDt at_
  | .missDeadline _ at_ => okDt at_
  | .leaseLapse at_ => okDt at_
  | .watchdogExpiry at_ => okDt at_
  | .carrierLoss at_ => okDt at_
  | .carrierPresent at_ => okDt at_
  | .tFreeReached at_ => okDt at_
  | .selfDiagnosisFail at_ => okDt at_
  | .takeoverRecordWritten at_ => okDt at_
  | .rotateSlotTimer at_ => okDt at_
  | .handoverDrainDone at_ => okDt at_
  | .rotateWaitTimeout at_ => okDt at_
  | .handoverTimeout at_ => okDt at_
  | .twCmdYield via at_ => okVia via && okDt at_
  | .declareLost via at_ => okVia via && okDt at_
  | .rotateNow via at_ => okVia via && okDt at_
  | .fullRejoin via at_ => okVia via && okDt at_
  | .twMissStatRead via _ => okVia via
  | .decayTimer at_ => okDt at_
  | .migrationCopyDone span at_ => okSpan span && okDt at_
  | .quotaWrite via tier _ _ at_ => okVia via && okTier tier && okDt at_
  | .floatGapMove module _ => okModule module
  | .floatSwapCheck module => okModule module
  | .stMigCountRead via _ => okVia via
  | .crownFillDone line res at_ => okLine line && okFill res && okDt at_
  | .wayOffReq via way at_ => okVia via && okWay way && okDt at_
  | .wayOnReq via way at_ => okVia via && okWay way && okDt at_
  | .wayCleanDone way at_ => okWay way && okDt at_
  | .wayPowerUpDone way at_ => okWay way && okDt at_
  | .crLfsrSeedWrite via _ _ at_ => okVia via && okDt at_
  | .crSliceStatRead via _ => okVia via
  | .crHitStatRead via _ => okVia via
  | .crErrStatRead via _ => okVia via
  | .csStep via ch _ _ bad at_ => okVia via && okCh ch && okBad bad && okDt at_
  | .caStep via ch _ _ bad at_ => okVia via && okCh ch && okBad bad && okDt at_
  | .dqReadStep via ch _ _ bad at_ => okVia via && okCh ch && okBad bad && okDt at_
  | .dqWriteStep via ch _ _ bad at_ => okVia via && okCh ch && okBad bad && okDt at_
  | .requestAgeExpiry sub line at_ => okSub sub && okLine line && okDt at_
  | .retrainPause ch sub eye lane _ at_ => okCh ch && okSub sub && okEye eye && okLane lane && okDt at_
  | .refreshRatePoll ch _ at_ => okCh ch && okDt at_
  | .refreshDue ch _ at_ => okCh ch && okDt at_
  | .pprRepairDone ch loc _ at_ => okCh ch && okLoc loc && okDt at_
  | .softPpr via ch _ _ at_ => okVia via && okCh ch && okDt at_
  | .hardPpr via ch _ _ at_ => okVia via && okCh ch && okDt at_
  | .trowelReadDone f at_ => okTrowel f && okDt at_
  | .trowelPeriodEnd tier at_ => okTier tier && okDt at_
  | .dcErrStatRead via ch _ => okVia via && okCh ch
  | .flashReadDone frame _ _ _ at_ => okFrame frame && okDt at_
  | .flashProgramDone _ _ ch _ at_ => okCh ch && okDt at_
  | .mapCommitDone _ at_ => okDt at_
  | .fineIdleExpiry span at_ => okSpan span && okDt at_
  | .checkpointTrigger at_ => okDt at_
  | .checkpointDone at_ => okDt at_
  | .fullingWindow at_ => okDt at_
  | .eraseDone _ _ at_ => okDt at_
  | .tempSample _ _ at_ => okDt at_
  | .flFullCtlWrite via _ _ at_ => okVia via && okDt at_
  | .flErrStatRead via ch _ => okVia via && okCh ch
  | .skimJournalWriteDone group _ _ at_ => okGroup group && okDt at_
  | .stripeWriteDone group row at_ => okGroup group && okRow row && okDt at_
  | .stripeAllowanceWindow _ at_ => okDt at_
  | .rebuildUnitDone member row _ at_ => okMember member && okRow row && okDt at_
  | .reshapeStart via at_ => okVia via && okDt at_
  | .reshapePause via at_ => okVia via && okDt at_
  | .reshapeResume via at_ => okVia via && okDt at_
  | .reshapeSpanDone span group _ at_ => okSpan span && okGroup group && okDt at_
  | .stParityStatRead via _ => okVia via
  | .doorbellWrite via q _ _ at_ => okVia via && okQueue q && okDt at_
  | .descriptorFetch at_ => okDt at_
  | .copy q _ at_ => okQueue q && okDt at_
  | .fill q _ at_ => okQueue q && okDt at_
  | .flush q _ at_ => okQueue q && okDt at_
  | .fence q _ at_ => okQueue q && okDt at_
  | .migrate q _ at_ => okQueue q && okDt at_
  | .pin q _ at_ => okQueue q && okDt at_
  | .unpin q _ at_ => okQueue q && okDt at_
  | .discard q _ at_ => okQueue q && okDt at_
  | .tileFetch q _ at_ => okQueue q && okDt at_
  | .capture q _ at_ => okQueue q && okDt at_
  | .run q _ at_ => okQueue q && okDt at_
  | .verify q _ at_ => okQueue q && okDt at_
  | .descriptorDone q _ at_ => okQueue q && okDt at_
  | .irqCoalesceTimer q at_ => okQueue q && okDt at_
  | .contextLoadDone q at_ => okQueue q && okDt at_
  | .captureWindowEnd q at_ => okQueue q && okDt at_
  | .windowEndDone q at_ => okQueue q && okDt at_
  | .create via _ _ _ _ _ at_ => okVia via && okDt at_
  | .delete via _ at_ => okVia via && okDt at_
  | .quStart via _ at_ => okVia via && okDt at_
  | .quStop via _ at_ => okVia via && okDt at_
  | .quStopTimeout at_ => okDt at_
  | .quReset via _ at_ => okVia via && okDt at_
  | .quReadEntry via _ at_ => okVia via && okDt at_
  | .quCtxStatRead via _ => okVia via
  | .quCapStatRead via _ => okVia via
  | .jobStart e _ _ at_ => okEngine e && okDt at_
  | .tileResident e slot _ at_ => okEngine e && okSlot slot && okDt at_
  | .layerStart e at_ => okEngine e && okDt at_
  | .layerEnd e _ at_ => okEngine e && okDt at_
  | .layerComplete e at_ => okEngine e && okDt at_
  | .fenceDeadline e at_ => okEngine e && okDt at_
  | .kernelCycleLimit e at_ => okEngine e && okDt at_
  | .userKernelFault e code slot at_ => okEngine e && okByte code && okSlot slot && okDt at_
  | .engineHwFault e slot at_ => okEngine e && okSlot slot && okDt at_
  | .enCountRead via e _ => okVia via && okEngine e
  | .linkTrained port t at_ => okPort port && okTrain t && okDt at_
  | .trainRetry port t at_ => okPort port && okOptTrain t && okDt at_
  | .linkError port t at_ => okPort port && okOptTrain t && okDt at_
  | .linkDown port at_ => okPort port && okDt at_
  | .linkHello port h at_ => okPort port && okHello h && okDt at_
  | .linkHelloTimer port at_ => okPort port && okDt at_
  | .hdmCommit port ld d at_ => okPort port && okLd ld && okHdm d && okDt at_
  | .hotReset port at_ => okPort port && okDt at_
  | .functionLevelReset port ld at_ => okPort port && okLd ld && okDt at_
  | .identifyMemoryDevice port ld => okPort port && okLd ld
  | .getSupportedLogs port ld => okPort port && okLd ld
  | .getLog port ld _ _ _ => okPort port && okLd ld
  | .getEventRecords port ld log => okPort port && okLd ld && okEvLog log
  | .clearEventRecords port ld log _ => okPort port && okLd ld && okEvLog log
  | .getHealthInfo port ld => okPort port && okLd ld
  | .getPoisonList port ld _ => okPort port && okLd ld
  | .getLsa port ld offset _ => okPort port && okLd ld && okLsa offset
  | .setLsa port ld offset _ => okPort port && okLd ld && okLsa offset
  | .getTimestamp port ld at_ => okPort port && okLd ld && okDt at_
  | .setTimestamp port ld hostTime at_ => okPort port && okLd ld && okDt hostTime && okDt at_
  | .getLdInfo port => okPort port
  | .getLdAllocations port => okPort port
  | .setLdAllocations port => okPort port
  | .unsupportedMailboxCommand port ld _ => okPort port && okLd ld
  | .moduleHotAdd port m at_ => okPort port && okModuleInfo m && okDt at_
  | .moduleRequestTimeout member row frame at_ => okMember member && okRow row && okOptFrame frame && okDt at_
  | .timeSync h t1 t2 t3 _ at_ => okHdr h && okDt t1 && okDt t2 && okDt t3 && okDt at_
  | .timeSyncTimer at_ => okDt at_
  | .bayState h _ _ => okHdr h
  | .mirrorWr h _ _ at_ => okHdr h && okDt at_
  | .mirrorAck h at_ => okHdr h && okDt at_
  | .fwdRd h lines at_ => okHdr h && okNlines lines && okDt at_
  | .fwdWr h _ _ at_ => okHdr h && okDt at_
  | .fwdData h _ lines at_ => okHdr h && okLines lines && okDt at_
  | .fwdCmp h at_ => okHdr h && okDt at_
  | .ctrlReq h _ at_ => okHdr h && okDt at_
  | .ctrlCmp h _ at_ => okHdr h && okDt at_
  | .repairRd h lines at_ => okHdr h && okNlines lines && okDt at_
  | .repairData h _ lines at_ => okHdr h && okLines lines && okDt at_
  | .boltUpdate h e at_ => okHdr h && okEntry e && okDt at_
  | .boltFetch h => okHdr h
  | .quotaSet h tenant tier _ dt => okHdr h && okTenant tenant && okTier tier && okDt dt
  | .handover h _ at_ => okHdr h && okDt at_
  | .handoverAck h _ at_ => okHdr h && okDt at_
  | .handoverReq h _ at_ => okHdr h && okDt at_
  | .rejoinCopy h _ _ lines at_ => okHdr h && okLines lines && okDt at_
  | .rejoinAck h at_ => okHdr h && okDt at_
  | .mapXfer h _ _ at_ => okHdr h && okDt at_
  | .unknownMessage h _ => okHdr h
  | .hopExpiry h _ => okHdr h
  | .retrain via port at_ => okVia via && okPort port && okDt at_
  | .prepareRemove via port at_ => okVia via && okPort port && okDt at_
  | .rescan via port t m at_ => okVia via && okPort port && okOptTrain t && okOptModuleInfo m && okDt at_
  | .ptErrStatRead via port _ => okVia via && okPort port
  | .ptTrafficRead via port _ => okVia via && okPort port
  | .imageLoad via _ _ _ at_ => okVia via && okDt at_
  | .imageErase via _ at_ => okVia via && okDt at_
  | .change via _ _ at_ => okVia via && okDt at_
  | .isRestart via _ at_ => okVia via && okDt at_
  | .svnRaise via at_ => okVia via && okDt at_
  | .functionRestartDone _ at_ => okDt at_
  | .isBootWrite via _ _ at_ => okVia via && okDt at_
  | .pllLockLoss island at_ => okIsland island && okDt at_
  | .keyLoad via _ at_ => okVia via && okDt at_
  | .keyDelete via _ at_ => okVia via && okDt at_
  | .keyFind via _ at_ => okVia via && okDt at_
  | .cipherParityFault lane core frame _ _ retryCore at_ => okLane24 lane && okCore core && okFrame frame && okCore retryCore && okDt at_
  | .cipherWriteRetry frame at_ => okFrame frame && okDt at_
  | .xtCountRead via _ => okVia via
  | .psyncRise at_ => okDt at_
  | .stateWorkDone _ at_ => okDt at_
  | .turn at_ => okDt at_
  | .loop at_ => okDt at_
  | .psyncReset at_ => okDt at_
  | .stateBoundExpiry at_ => okDt at_
  | .railSample rail mv _ junction8 at_ => okRail rail && okMv mv && okJunction junction8 && okDt at_
  | .throttleEnd at_ => okDt at_
  | .pfWarnChange _ at_ => okDt at_
  | .pfFailChange _ at_ => okDt at_
  | .supplyGood at_ => okDt at_
  | .pwrReqChange _ at_ => okDt at_
  | .energyStorePoll _ at_ => okDt at_
  | .sysclkLoss at_ => okDt at_
  | .eventCoalesceTimer port at_ => okOptPort port && okDt at_
  | .bbEvPtrWrite via _ _ at_ => okVia via && okDt at_
  | .bbEvStatRead via _ => okVia via
  | .bbAonDataRead via _ => okVia via
  | .healthSummaryTimer at_ => okDt at_
  | .tmDtRead via _ at_ => okVia via && okDt at_
  | .tmCaptureRead via _ at_ => okVia via && okDt at_
  | .gpioEdge gpio _ at_ => okGpio gpio && okDt at_
  | .bypass => true
  | .idcode => true
  | .samplePreload _ _ => true
  | .extest _ _ => true
  | .clamp => true
  | .highz => true
  | .extestPulse _ => true
  | .extestTrain _ => true
  | .envmRead addr _ at_ => okNvmAddr addr && okDt at_
  | .envmReadDone at_ => okDt at_
  | .otpKeyhash _ _ => true
  | .blCacheStatRead via _ => okVia via
  | .sysclkReturn at_ => okDt at_
  | .aonReset _ _ => true
  | .mgmtLinkDown at_ => okDt at_
  | .mgmtLinkTrained rate at_ => okRate rate && okDt at_
  | .zqCalibrationTimer at_ => okDt at_
  | .mirrorWrResend _ at_ => okDt at_
  | .creditReturn port cls _ at_ => okPort port && okCreditClass cls && okDt at_
  | .envmRecordWritten _ at_ => okDt at_

end Sys2Proof
end

