-- ==== Sys2Proof/Tests/Slice0.lean ====
section
/-! SUPPORT. Tests of the model on small states, an ill-formed command for each check of WellFormed.lean, and for every statement
of Certificates/Slice0/Obligations.lean that has hypotheses a state and operands that meet them. Expected values are worked out
from the tables of spec/ that a comment names. -/

namespace Sys2Proof.Tests

set_option Elab.async false

open Sys2Proof Machine Claims

/-! A small device: number 0 of a bay of two, in service, with one port of each personality, one tenant and four bolts. -/

/-- Register fields set on a state. -/
def fields (l : List (FieldRef × Nat × Nat)) (s : State) : State := l.foldl (fun s x => s.setF x.1 x.2.1 x.2.2) s

/-- An entry with its CRC. -/
def ent (durability side tenant claim : Nat) : BoltEntry := sealEntry {
  valid := true, durability := durability, activeSide := side, access := 0, pairId := 0, tenant := tenant, claim := claim,
  dCap := 0, pCap := 0, fCap := 0, seq := 1, crc := 0#32 }

/-- A queue of tenant 1 with rings of 16 entries. -/
def que (capture : Bool) (st : QState) : QEntry := {
  capture := capture, st := st, prio := 0, tenant := 1, port := 0, ld := 0, vector := 3, irqEn := true, irqCount := 4, irqUs := 1,
  sqBase := 2 ^ 36, sqLog2 := 4, cqBase := 2 ^ 36 + 4096, cqLog2 := 4, sqHead := 0, sqTail := 0, cqTail := 0, cqHead := 0,
  sqPhase := true, cqPhase := true, errCode := 0, ringBase := 2 ^ 36 + 8192, ringLog2 := 12, fullMode := 0, windowUs := 1,
  winSeq := 0, wrPtr := 0, rdPtr := 0 }

/-- The first line of bolt 1, and of bolts 2 to 4. -/
def ln (bolt : Nat) : Nat := bolt * 2 ^ 30

/-- A stripe geometry of one group of four modules. -/
def geom : StripeGeom := { groups := [[0, 1, 2, 3]], pWidth := 4, pSpare := 1, fWidth := 4, pagesPerBlock := 0 }

/-- A module of group 0. -/
def member (st : MemberSt) (pos rows : Nat) : Member :=
  { st := st, group := 0, pos := pos, rowsLeft := rows, rowsTotal := rows, cap := 128, rated := 0 }

/-- Ports: 0 HOST, 4 TWIN, 8 CASC, 12 MEDIA with module 0, all in service; 1 HOST that is down. -/
def dev : State :=
  let s := fields [
    (F.BL_DEVICE_ID.DEVICE_ID, 0, 0), (F.BL_DEVICE_ID.BAY_DEVICES, 0, 2), (F.BL_RANGE_LIMIT.BOLTS, 0, 8),
    (F.PT_CFG.PERSONALITY, 0, 1), (F.PT_CFG.WIDTH, 0, 1), (F.PT_CFG.LD_COUNT, 0, 2), (F.PT_CFG.MGMT_EN, 0, 1),
    (F.PT_CFG.MAX_RATE, 0, 6), (F.PT_LINK.STATE, 0, 2),
    (F.PT_CFG.PERSONALITY, 1, 1), (F.PT_CFG.WIDTH, 1, 1), (F.PT_CFG.LD_COUNT, 1, 1), (F.PT_CFG.MAX_RATE, 1, 6),
    (F.PT_CFG.PERSONALITY, 4, 2), (F.PT_CFG.WIDTH, 4, 1), (F.PT_LINK.STATE, 4, 2), (F.PT_PEER.PEER_DEVICE, 4, 1),
    (F.PT_CFG.PERSONALITY, 8, 3), (F.PT_CFG.WIDTH, 8, 1), (F.PT_LINK.STATE, 8, 2), (F.PT_PEER.PEER_DEVICE, 8, 1),
    (F.PT_CFG.PERSONALITY, 12, 4), (F.PT_CFG.WIDTH, 12, 1), (F.PT_LINK.STATE, 12, 2),
    (F.BL_ROUTE.PRIMARY_PORT, 1, 4), (F.BL_ROUTE.ALT_PORT, 1, 8),
    (F.ST_P_CFG.GROUPS, 0, 1), (F.ST_P_CFG.WIDTH, 0, 4),
    (F.PW_ENERGY_DECL.USABLE_J, 0, 3000), (F.PW_ENERGY_DECL.FIXED_J, 0, 0), (F.PW_ENERGY_DECL.SAVE_AREA_GIB, 0, 100),
    (F.PW_DIRTY_BUDGET.BUDGET_GIB, 0, 4)] State.reset
  { s with
    power := { s.power with
      state := 14, begun := true, holding := true, pwrReq := true, supply := true, mgmtUp := true },
    time := { s.time with dt := 1000000000 },
    bay := { s.bay with
      bolts := [(1, ent 1 0 1 5), (2, ent 0 0 1 6), (3, ent 2 0 1 7), (4, ent 0 1 1 8)], boltCache := [1, 2, 3, 4],
      tenants := [1, 2], ldTenant := [(0, 1)],
      decoders := [(0, [{ base := 0, size := 2 ^ 39, dpa := 0, waysLog2 := 0, granLog2 := 0 }])] },
    cipher := { s.cipher with slots := [(0, { st := .loaded, tenant := 1, key1 := 1, key2 := 2 })] },
    crown := { s.crown with
      cells := [(cellKey (lineSlice (ln 1)) (lineSet (ln 1)) 0, { line := ln 1, dirty := false, filling := false })] },
    lines := { s.lines with saveRate := 10 * 2 ^ 30 },
    tier := { s.tier with
      spans := [(65536, { home := .p, heat := 9, pin := .none, move := none, written := [0, 1], lastUse := 0 })],
      pmap := [(2 ^ 24, (0, 0)), (2 ^ 24 + 1, (0, 1))], pFrames := 4096 },
    stripe := { s.stripe with
      geom := some geom, members := (List.range 4).map (fun k => (k, member .inService k 0)) },
    twin := { s.twin with st := .paired },
    image := { s.image with topo := [(0, [0, 1])] },
    queues := { s.queues with table := [(0, que false .running), (1, que true .running)], contexts := [0, 1] } }

/-- What is asked of the next state of a command. -/
def after (c : Instr) (s : State) (p : State → Bool) : Bool :=
  match exec c s with | .next t => p t | _ => false

/-! The machine and its register accesses. -/

theorem witness_StepRunsFrontCommand : State.reset.pending = [] := by decide +kernel

theorem witness_StepKeepsCanonical : Canonical State.reset ∧ ∃ t, step State.reset = .next t :=
  ⟨by unfold Canonical; decide +kernel, _, rfl⟩

theorem witness_DeviceTimeNeverRunsBack :
    (∀ code serial, Instr.bypass ≠ .aonReset code serial) ∧ (∀ h a b c d e, Instr.bypass ≠ .timeSync h a b c d e)
    ∧ ∃ t, exec .bypass State.reset = .next t :=
  ⟨fun _ _ => by simp, fun _ _ _ _ _ _ => by simp, _, rfl⟩

theorem witness_CommandsOnlyAppendOutput : ∃ t, exec .bypass State.reset = .next t := ⟨_, rfl⟩

/-- Every cell programmed, the floor at its highest. -/
def fused : State := { State.reset with otp := { gwHash := some 1, custHash := some 2, deviceKey := some 3, floor := 2 ^ 32 } }

theorem witness_OneTimeCellsStay : (∃ t, exec (.otpKeyhash true 7) fused = .next t)
    ∧ fused.otp.gwHash = some 1 ∧ fused.otp.custHash = some 2 ∧ fused.otp.deviceKey = some 3 := ⟨⟨_, rfl⟩, by decide +kernel⟩

theorem witness_StoreWritesEnabledBytesOnly : memWf [(64, 1#8), (127, 2#8)] = true := by decide +kernel

theorem witness_RegisterWriteFollowsAccessTypes :
    (RegsOrdered dev ∧ regAt (Reg.BB_EV_CTL.addr 0) = some (.BB_EV_CTL, 0) ∧ Reg.BB_EV_CTL.addr 0 % 8 = 0
      ∧ startsStep dev .BB_EV_CTL .full (knownBits .BB_EV_CTL) = false ∧ Served dev .mgmt (accOff .BB_EV_CTL 0 .full) ∧ dev.absent .BB_EV_CTL 0 = false
      ∧ dev.fencedReg .BB_EV_CTL 0 = false ∧ NoRsv .BB_EV_CTL .full (knownBits .BB_EV_CTL))
    ∧ (regAt (Reg.PT_STATUS.addr 12) = some (.PT_STATUS, 12) ∧ Reg.PT_STATUS.addr 12 % 8 = 0
      ∧ startsStep dev .PT_STATUS .hi 0#64 = false
      ∧ Served dev (.host 0 0) (accOff .PT_STATUS 12 .hi) ∧ dev.absent .PT_STATUS 12 = false
      ∧ dev.fencedReg .PT_STATUS 12 = false ∧ NoRsv .PT_STATUS .hi 0#64) := by decide +kernel

/-- Every restartable function stopped, channel 31 populated. -/
def stopped : State := fields [
  (F.IS_FUNC_STOPPED.DRAM_GROUP, 0, 0xFF), (F.IS_FUNC_STOPPED.QUAD, 0, 0xFFFFFF), (F.DC_CFG.POP, 31, 1)] dev

theorem witness_StoppedFunctionTakesOnlyClears :
    RegsOrdered stopped ∧ regAt (Reg.DC_RETRAIN.addr 31) = some (.DC_RETRAIN, 31) ∧ Reg.DC_RETRAIN.addr 31 % 8 = 0
    ∧ startsStep stopped .DC_RETRAIN .full (knownBits .DC_RETRAIN) = false ∧ Served stopped .mgmt (accOff .DC_RETRAIN 31 .full)
    ∧ stopped.absent .DC_RETRAIN 31 = false ∧ stopped.fencedReg .DC_RETRAIN 31 = true ∧ fenceTouches .DC_RETRAIN .full = true
    ∧ NoRsv .DC_RETRAIN .full (knownBits .DC_RETRAIN) := by decide +kernel

/-- The same device in state 9, and with the MGMT link down. -/
def state9 : State := { dev with power := { dev.power with state := 9 } }
def noMgmt : State := { dev with power := { dev.power with mgmtUp := false } }

theorem witness_UnservedAccessesReadZero :
    RegsOrdered dev ∧ Served dev .mgmt 0x3FFFFFF ∧ noMgmt.pathUp .mgmt = false ∧ RegsOrdered noMgmt
    ∧ (dev.pathUp (.host 0 1) = true ∧ dev.wholeSpace (.host 0 1) = false
      ∧ ∀ x ∈ counterReads (.host 0 1) .hi 0, accOff x.2.1 x.2.2.1 .hi < 0x2000000)
    ∧ (∀ x ∈ counterReads .mgmt .full 95, (x.2.1 = .PT_ERR_STAT ∨ x.2.1 = .PT_TRAFFIC) →
        Served dev .mgmt (accOff x.2.1 x.2.2.1 .full) ∧ dev.absent x.2.1 x.2.2.1 = true)
    ∧ RegsOrdered state9 ∧ state9.pathUp .mgmt = true ∧ state9.wholeSpace .mgmt = true
    ∧ ∀ x ∈ counterReads .mgmt .lo 0, x.2.1 = .BB_EV_STAT ∨ x.2.1 = .XT_COUNT ∨ x.2.1 = .PW_POISON_COUNT
        ∨ state9.blockServed (accOff x.2.1 x.2.2.1 .lo) = false := by decide +kernel

/-- Channel 0 of DRAM and of flash populated. -/
def populated : State := fields [(F.DC_CFG.POP, 0, 1), (F.FL_CFG.POP, 0, 1)] dev

theorem witness_CounterReadReturnsAndResets : RegsOrdered populated
    ∧ (∀ x ∈ counterReads .mgmt .hi 0, Served populated .mgmt (accOff x.2.1 x.2.2.1 .hi)
        ∧ populated.absent x.2.1 x.2.2.1 = false) := by decide +kernel

theorem witness_DeviceTimeReadLatchesHighHalf : Served state9 .mgmt (accOff .TM_DT 0 .full)
    ∧ Served dev (.host 0 0) (accOff .TM_DT 0 .full) := by decide +kernel

theorem witness_StatusReadsReturnTheirViews : RegsOrdered dev ∧ ∀ w ∈ [AccW.full, .lo, .hi],
    Served dev .mgmt (accOff .CR_SLICE_STAT 0 w) ∧ Served dev .mgmt (accOff .QU_CTX_STAT 0 w)
    ∧ Served dev .mgmt (accOff .BB_AON_DATA 0 w) ∧ Served dev .mgmt (accOff .TM_CAPTURE 0 w) := by decide +kernel

/-! Requests of hosts. -/

theorem witness_HostReadReturnsTheLineHeld :
    let o := 2 ^ 36 + 63
    let k := cellKey (lineSlice (ln 1)) (lineSet (ln 1)) 0
    RegsOrdered dev ∧ TakesHost dev 0 0 o o 1 ∧ OwnedHere dev (boltOfOff o) ∧ (dev.entry (boltOfOff o)).tenant = 1
    ∧ SliceFree dev (hostSource 0 0) (lineOfOff o) ∧ dev.beats (lineOfOff o) = .good
    ∧ dev.cellAt (lineOfOff o) = some (k, { line := ln 1, dirty := false, filling := false })
    ∧ SMap.has dev.lines.mask (lineOfOff o) = false ∧ dev.isPoison (lineOfOff o) = false := by decide +kernel

theorem witness_HostStoreWritesTheDevicesCopy :
    let o := 2 ^ 36
    let k := cellKey (lineSlice (ln 1)) (lineSet (ln 1)) 0
    RegsOrdered dev ∧ TakesHost dev 0 0 o o 1 ∧ OwnedHere dev (boltOfOff o) ∧ (dev.entry (boltOfOff o)).tenant = 1
    ∧ dev.volatile (boltOfOff o) = false ∧ dev.keyLoaded 1 = true ∧ dev.lines.throttled = false
    ∧ dev.roomFor (lineOfOff o) = true ∧ SliceFree dev (hostSource 0 0) (lineOfOff o)
    ∧ dev.discarding (boltOfOff o) = false ∧ dev.written (frameOfLine (lineOfOff o)) = true
    ∧ dev.cellAt (lineOfOff o) = some (k, { line := ln 1, dirty := false, filling := false })
    ∧ dev.waySt (k % 16) ≠ .cleaning := by decide +kernel

theorem witness_UndecodedHostRequestFails :
    dev.hostServes 0 = true ∧ dev.decodeHpa 0 0 (2 ^ 39) = none ∧ dev.decodeHpa 0 1 0 = none := by decide +kernel

/-- A request of HOST port 0, LD 0, for a line of bolt 1. -/
def req (id : Nat) (op : ReqOp) (offset : Nat) (st : ReqSt) : Req :=
  { id := id, src := 0, who := .host 0 0 9, op := op, offset := offset, tenant := 1, since := some 0, st := st }

/-- The device with these requests in hand. -/
def withReqs (l : List Req) (s : State) : State := { s with bay := { s.bay with reqs := l, nextId := 50 } }

theorem witness_RequestsGoOnAndLeaveInOrder :
    let p : Resp := { code := 0, data := 0, poison := true }
    let a := withReqs [req 0 .read (2 ^ 36) (.done p)] dev
    let b : State := { withReqs [req 0 .read (2 ^ 36) .cacheMiss] dev with
      bay := { (withReqs [req 0 .read (2 ^ 36) .cacheMiss] dev).bay with boltCache := [2] } }
    let c := withReqs [req 0 (.write 1 0 false) (2 ^ 36) (.held 0 .lease)] dev
    let d (up : Nat) : State := { fields [(F.PT_LINK.STATE, 4, up)] dev with bay := { dev.bay with draining := [1] } }
    (a.req 0 = some (req 0 .read (2 ^ 36) (.done p)) ∧ a.ahead (req 0 .read (2 ^ 36) (.done p)) = []
      ∧ a.portUp 0 = true ∧ a.twin.portsFenced = false)
    ∧ (b.req 0 = some (req 0 .read (2 ^ 36) .cacheMiss) ∧ (b.entry 1).crc = entryCrc (b.entry 1)
      ∧ b.bay.boltCache.contains 1 = false ∧ b.bay.boltCache.length < Config.boltCacheSize)
    ∧ (c.req 0 = some (req 0 (.write 1 0 false) (2 ^ 36) (.held 0 .lease))
      ∧ reqWrites (req 0 (.write 1 0 false) (2 ^ 36) (.held 0 .lease)) = true ∧ 0 + c.fwdTimeoutNs ≤ max c.now c.fwdTimeoutNs)
    ∧ ((d 2).bay.draining.contains 1 = true ∧ (d 2).outstanding 1 = false ∧ (d 2).wantAlt 1 = (d 2).isSet F.BL_ROUTE.ALT_IN_USE 1)
    ∧ ((d 0).bay.draining.contains 1 = true ∧ (d 0).outstanding 1 = false ∧ (d 0).wantAlt 1 = true
      ∧ (d 0).isSet F.BL_ROUTE.ALT_IN_USE 1 = false)
    ∧ dev.ports.sendq = [] := by decide +kernel

/-! Bolts, tenants and decoders. -/

theorem witness_BoltEntryCommandsComplete :
    let w0 : Word := 0x10000#64
    let u (a0 : Word) := blRuns (dev.tick 0) 0x01 [(.BL_CMD_ARG0, a0), (.BL_CMD_ARG1, w0), (.BL_CMD_ARG2, 0)]
    let e := entryOfWords w0 0 0 1
    RegsOrdered dev ∧ Taken dev .mgmt .BL_CMD 0 ∧ Taken dev (.host 0 0) .BL_CMD 0 ∧ dev.isSet F.BL_CMD_STATUS.BUSY 0 = false
    ∧ (bitsOf w0 8 5 * 2 + bitsOf w0 3 1 = (u 7).devId ∧ e.durability ≠ 3 ∧ e.access ≠ 3 ∧ entryRsv w0 0 = false
      ∧ (u 7).namesPair e.pairId = true ∧ bitsOf (7 : Word) 0 20 = 7 ∧ 7 < (u 7).get F.BL_RANGE_LIMIT.BOLTS
      ∧ (u (1#64 <<< 63)).freeBolt = some 0 ∧ dev.bound 7 = false ∧ dev.bound 0 = false
      ∧ dev.bay.tenants.contains e.tenant = true ∧ dev.pairBolts e.pairId < Config.maxPairBolts
      ∧ dev.bay.crcBad.contains 7 = false ∧ EntryGood dev 7 ∧ EntryGood dev 0)
    ∧ (dev.bound 1 = true ∧ EntryGood dev 1 ∧ entryActive (dev.entry 1) = dev.devId)
    ∧ ((entryOfWords 0x10002#64 0xFFFFFFFFFFFF#64 0 0).durability = (dev.entry 1).durability
      ∧ (entryOfWords 0x10002#64 0xFFFFFFFFFFFF#64 0 0).access ≠ 3 ∧ entryRsv 0x10002#64 0xFFFFFFFFFFFF#64 = false
      ∧ (entryOfWords 0x10002#64 0xFFFFFFFFFFFF#64 0 0).pairId = (dev.entry 1).pairId
      ∧ (entryOfWords 0x10002#64 0xFFFFFFFFFFFF#64 0 0).tenant = (dev.entry 1).tenant)
    ∧ (dev.bay.crcBad.contains 0 = false ∧ EntryGood dev 0 ∧ dev.bound 0 = false) := by decide +kernel

theorem witness_BoltChangesAreHeldAndEnded : RegsOrdered dev ∧ (15 : Nat) < 16 ∧ boltOfOff (2 ^ 36 * 3 - 1) = 2 := by decide +kernel

theorem witness_TenantAndDecoderCommandsComplete :
    let u := blRuns (dev.tick 0) 0x10 []
    let v := blRuns (dev.tick 0) 0x11 [(.BL_CMD_ARG0, 2)]
    let alone : State := fields [
      (F.BL_DEVICE_ID.BAY_DEVICES, 0, 1), (F.PT_LINK.STATE, 4, 0), (F.PT_LINK.STATE, 8, 0)] dev
    let x := blRuns (dev.tick 0) 0x12 [(.BL_CMD_ARG0, 0x10100#64)]
    let busy : BlBusy := { op := 0x01, a0 := 0, a1 := 0, a2 := 0, since := 0, tag := none }
    let s : State := { dev with bay := { dev.bay with blBusy := some busy } }
    RegsOrdered dev ∧ Taken dev .mgmt .BL_CMD 0 ∧ dev.isSet F.BL_CMD_STATUS.BUSY 0 = false ∧ dev.devId = 0
    ∧ (u.reachable.length + 1 = u.bayDevices ∧ u.freeTenant = some 0)
    ∧ (v.reachable ≠ [] ∧ RegsOrdered alone ∧ Taken alone .mgmt .BL_CMD 0
      ∧ (blRuns alone 0x11 [(.BL_CMD_ARG0, 2)]).reachable = [] ∧ (blRuns alone 0x11 [(.BL_CMD_ARG0, 2)]).bayDevices = 1)
    ∧ (v.reachable.length + 1 = v.bayDevices ∧ dev.bay.tenants.contains 2 = true
      ∧ dev.bay.bolts.any (fun x => x.2.valid && x.2.tenant == 2) = false ∧ dev.bay.ldTenant.any (fun x => x.2 == 2) = false)
    ∧ (SMap.findD dev.bay.decoders 1 [] = [] ∧ bitsOf (0x10100#64 : Word) 8 4 = 1 ∧ bitsOf (0x10100#64 : Word) 16 12 = 1
      ∧ x.getF F.PT_CFG.PERSONALITY 0 = 1 ∧ x.getF F.PT_CFG.WIDTH 0 ≠ 0 ∧ 1 < x.getF F.PT_CFG.LD_COUNT 0
      ∧ (0x10100#64 : Word).getLsbD 31 = false ∧ (0x80010100#64 : Word).getLsbD 31 = true)
    ∧ (SMap.has dev.bay.ldTenant 0 = true ∧ (SMap.findD dev.bay.decoders 0 []).length < 8)
    ∧ SMap.has dev.bay.ldTenant 1 = false
    ∧ (s.bay.blBusy = some busy ∧ busy.since + 10000000 ≤ max s.now 10000000) := by decide +kernel

/-! Durable stores and the dirty budget. -/

/-- Line 0 of bolt 1 dirty since time 0; its span's write on its way or failed, its clear on its way. -/
def dirty (failed : Bool) : State :=
  { withReqs [req 0 (.write 1 0 false) (2 ^ 36) (.storing true false false 0)] dev with
    lines := { dev.lines with
      dirty := [(ln 1, { since := 0, ord := 0 })], spanWrites := [{ span := 65536, failed := failed }], spanClears := [65537] } }

theorem witness_DirtySpanWritesMarkTheirSpan : ∀ f ∈ [true, false],
    (dirty f).lines.spanWrites.find? (fun x => x.span == 65536) = some { span := 65536, failed := f }
    ∧ (dirty f).lines.spanWrites.any (fun x => x.span == 65537 && x.failed) = false
    ∧ (dirty f).lines.spanClears.contains 65536 = false ∧ spanOfOff (2 ^ 36) = 65536 ∧ (dirty f).lines.spanClears.contains 65537 = true
    ∧ (dirty f).spanDirty 65536 = true := by decide +kernel

/-- A destage pass of frame 0 of bolt 1, read or to be read, in a group of four modules. -/
def passing (read : Bool) : State :=
  { dirty false with
    lines := { (dirty false).lines with running := [(2 ^ 24, (0, 5, read))] },
    stripe := { dev.stripe with skim := [(0, { inFlight := [2] })] } }

theorem witness_DestagedFrameIsClean :
    (SMap.wf (passing false).lines.dirty = true ∧ SMap.find (passing false).lines.running (2 ^ 24) = some (0, 5, false)
      ∧ (passing false).rowListed 0 ((passing false).rowOf 5) = true
      ∧ (passing false).lines.rmwRepair.any (fun x => frameOfLine x.2 == 2 ^ 24) = false)
    ∧ (SMap.find (passing true).lines.running (2 ^ 24) = some (0, 5, true)
      ∧ (passing true).mirrored (boltOfFrame (2 ^ 24)) = false) := by decide +kernel

theorem witness_DurableTimersAndRegistersComplete :
    let m : Merge := { sub := 63, line := ln 1, mask := 1, poison := false, opened := 0, base := false }
    let d : DFrame := { block := 0, present := 1, dirty := 0, lastUse := 0 }
    let s : State := { fields [(F.PW_DESTAGE_CTL.AGE_S, 0, 1)] (dirty false) with
      lines := { (dirty false).lines with merge := [m] } }
    let t : State := { s with dram := { s.dram with dframes := [(2 ^ 24, d)] } }
    let masked (x : State) : State := { x with lines := { x.lines with mask := [(ln 1, 1)] } }
    (SMap.find s.lines.dirty (ln 1) = some { since := 0, ord := 0 } ∧ s.get F.PW_DESTAGE_CTL.AGE_S ≠ 0
      ∧ 0 + s.get F.PW_DESTAGE_CTL.AGE_S * 1000000000 ≤ max s.now 0)
    ∧ (s.lines.merge.find? (fun x => x.line == ln 1 && x.sub == 63) = some m ∧ m.opened + 1000 ≤ max s.now 0
      ∧ s.inTierD (ln 1) = false ∧ t.inTierD (ln 1) = true ∧ SMap.has s.lines.mask (ln 1) = false
      ∧ SMap.has (masked s).lines.mask (ln 1) = true ∧ (masked s).inTierD (ln 1) = false ∧ (masked t).inTierD (ln 1) = true
      ∧ s.lines.closing.find? (fun x => x.line == ln 1 && x.sub == 63 && !x.base) = none)
    ∧ (RegsOrdered dev ∧ Served dev .mgmt (accOff .PW_DIRTY_BUDGET 0 .full) ∧ NoRsv .PW_DIRTY_BUDGET .full 86#64
      ∧ bitsOf 86#64 0 12 = 86 ∧ 86 ≤ dev.limitGib ∧ 86 ≤ dev.saveLimitGib ∧ dev.lines.spanLost = false)
    ∧ (Served dev .mgmt (accOff .PW_ENERGY_DECL 0 .hi) ∧ NoRsv .PW_ENERGY_DECL .hi 0#64) := by decide +kernel

theorem witness_BudgetRefusesWhatTheLimitsRefuse :
    RegsOrdered dev ∧ Served dev .mgmt (accOff .PW_DIRTY_BUDGET 0 .lo)
    ∧ (NoRsv .PW_DIRTY_BUDGET .lo 0#64 ∧ NoRsv .PW_DIRTY_BUDGET .lo 87#64 ∧ NoRsv .PW_DIRTY_BUDGET .lo 101#64
      ∧ NoRsv .PW_DIRTY_BUDGET .lo 0x801#64)
    ∧ bitsOf 0#64 0 12 = 0 ∧ dev.saveLimitGib < bitsOf 87#64 0 12 ∧ dev.limitGib < bitsOf 101#64 0 12
    ∧ 0x800 < bitsOf 0x801#64 0 12 := by decide +kernel

/-! The twin relation. -/

/-- A frame of the twin with the CRC of its path. -/
def frame (ty : Nat) (pathB : Bool) (seq : Nat) : HbFrame :=
  let f : HbFrame := {
    ty := ty, sender := 1, flags := 0, seq := BitVec.ofNat 32 seq, echo := 0, auditBolt := 0, sendDt := 0,
    claimHigh := 99, auditClaim := 0, periodUs := 10, crc := 0#32 }
  { f with crc := if pathB then plumbCrc f else hbCrc f }

/-- The device with its twin record changed. -/
def twin (f : TwinSt → TwinSt) (s : State) : State := { s with twin := f s.twin }

/-- The device with its power record changed. -/
def power (f : PowerSt → PowerSt) (s : State) : State := { s with power := f s.power }

theorem witness_FramesAreSentFromThisDevicesState :
    let y (n : Nat) := twin (fun t => { t with fenced := true, yieldSlots := n, lastHb := some (frame 1 false 0) }) dev
    (dev.sendsFrames = true ∧ dev.twin.fenced = false)
    ∧ ((y 1).sendsFrames = true ∧ (y 1).twin.yieldSlots ≠ 0 ∧ (y 1).yieldEchoed = false)
    ∧ ((y 0).sendsFrames = true ∧ (y 0).twin.fenced = true ∧ (y 0).twin.yieldSlots = 0)
    ∧ (y 0).twin.lastHb = some (frame 1 false 0) := by decide +kernel

/-- A header of a message of the twin, for this device, on its TWIN port. -/
def hdr (dst status claim offset : Nat) : Hdr :=
  { port := 4, src := 1, dst := dst, hops := 2, status := status, tag := 3, source := 0, offset := offset, claim := claim,
    poison := false, last := true, urgent := false }

theorem witness_FramesAreTakenWhenValid :
    let h := hdr 0 0 0 0
    RegsOrdered dev ∧ dev.linkServes h = true ∧ h.dst = dev.devId
    ∧ (frame 1 true 5).crc = plumbCrc (frame 1 true 5) ∧ (frame 2 false 5).crc = hbCrc (frame 2 false 5)
    ∧ ({ frame 1 true 5 with crc := 0#32 } : HbFrame).crc ≠ plumbCrc { frame 1 true 5 with crc := 0#32 }
    ∧ (frame 3 true 5).crc = plumbCrc (frame 3 true 5) ∧ ¬((frame 3 true 5).ty = 1 ∨ (frame 3 true 5).ty = 2)
    ∧ (frame 1 true 5).sender = dev.twinId ∧ 10 ≤ (frame 1 true 5).periodUs ∧ (frame 1 true 5).periodUs ≤ 10000
    ∧ (∀ m ∈ [(dev.tick 0).missDue true 8, ((dev.tick 0).countRx 4 80).missDue false 8],
        m.beforeService = false ∧ m.twin.pathB.ref = none ∧ m.twin.pathA.ref = none ∧ m.twinId = 1)
    ∧ serialLater 0#32 0xFFFFFFFF#32 = true := by decide +kernel

theorem witness_YieldOfTheTwinStartsTakeover : ∀ b ∈ [true, false],
    let s := twin (fun t => { t with pathA := { last := some 1000000000 }, pathB := { last := some 1000000000 } }) dev
    let m := (s.tick 0).missDue b 8
    let x := frame 2 b 5
    let g : HbFrame := { x with flags := 2, sendDt := 1 }
    let y : HbFrame := { g with crc := if b then plumbCrc g else hbCrc g }
    RegsOrdered s ∧ (∀ f ∈ [x, y], f.crc = (if b then plumbCrc f else hbCrc f)
      ∧ m.frameValid f (if b then m.twin.pathB else m.twin.pathA) = true ∧ f.ty = 2)
    ∧ m.twin.fenced = false ∧ m.twin.st = .paired ∧ hbSolo x = false ∧ hbSolo y = true
    ∧ m.twin.pairedAt < y.sendDt := by decide +kernel

theorem witness_LossesAreCountedAndActedOn :
    let p (n : Nat) := twin (fun t => { t with pathA := { last := some 0, miss := n }, pathB := { last := some 0, miss := n } }) dev
    let l := twin (fun t => { t with leaseEnd := 1, lapsed := false, fedAt := some 0, carrier := true }) dev
    let u := twin (fun t => { t with
      st := .suspect, carrier := true,
      pathA := { last := some 1000000000 }, pathB := { last := some 1000000000 } }) dev
    let w := twin (fun t => { t with st := .wait }) dev
    let o := twin (fun t => { t with st := .solo }) dev
    let y : State := { dev with power := { dev.power with state := 12 } }
    RegsOrdered (p 7) ∧ 13 ≤ dev.power.state ∧ dev.power.state ≤ 20
    ∧ (∀ n ∈ [0, 7], ∀ b ∈ [true, false], (p n).missAt b ≤ max (p n).now 0)
    ∧ (l.twin.leaseEnd ≠ 0 ∧ l.twin.leaseEnd ≤ max l.now 0 ∧ l.twin.lapsed = false)
    ∧ (l.twin.fedAt = some 0 ∧ 0 + 8 * l.pbPeriodUs * 1000 ≤ max l.now 0) ∧ l.twin.carrier = true
    ∧ (u.twin.st = .suspect ∧ u.pathUpA = true ∧ u.pathUpB = true)
    ∧ (o.twin.st = .solo ∧ y.awaitsFrames = false ∧ dev.twin.leaseEnd = 0 ∧ RegsOrdered l ∧ (p 0).awaitsFrames = true
      ∧ RegsOrdered o ∧ (p 7).awaitsFrames = true)
    ∧ (w.twin.st = .wait ∧ (w.tick 0).tFree ≤ max w.now 0) := by decide +kernel

theorem witness_TakeoverRecordOpensSolo :
    let k : Taking := { claim := 2 ^ 64 - 1, rotation := false, bolts := [2, 4], trigger := 1, poisonList := false }
    let s := twin (fun t => { t with st := .taking, taking := some k }) dev
    RegsOrdered s ∧ s.twin.taking = some k ∧ k.rotation = false ∧ s.image.change = none ∧ k.poisonList = false
    ∧ k.bolts.Nodup ∧ k.claim < 2 ^ 64 := by decide +kernel

/-- A group of bolt 2 in handover at a step, since time 0. -/
def group (step : Nat) : Group := { bolts := [2], active := true, step := step, since := 0, hold := 0, down := false }

theorem witness_RotationAndTwinCommandsComplete :
    let e := fields [(F.TW_ROTATE_CTL.EN, 0, 1)] dev
    let r := twin (fun t => { t with slotDue := 5, pairedAt := 0 }) dev
    let g (n : Nat) := twin (fun t => { t with group := some (group n) }) dev
    let b := withReqs [req 0 (.write 1 0 false) (2 ^ 37) (.storing false true false 1)] (g 2)
    (r.rotates = true ∧ r.twin.slotDue ≤ max r.now 0 ∧ r.twin.group = none ∧ r.twin.slotWork = [])
    ∧ ((g 2).rotates = true ∧ (g 2).twin.slotDue ≤ max (g 2).now 0 ∧ (g 2).twin.group.isSome = true)
    ∧ ((g 2).twin.group = some (group 2) ∧ (group 2).active = true ∧ (g 2).groupBusy (group 2) = false)
    ∧ (b.twin.group = some (group 2) ∧ (group 2).since + 1000000 ≤ max b.now 0 ∧ b.groupBusy (group 2) = true)
    ∧ ((g 1).twin.group = some (group 1) ∧ (group 1).step = 1)
    ∧ ((g 4).twin.group = some (group 4) ∧ (group 4).since + 1000000 ≤ max (g 4).now 0 ∧ (group 4).step = 4)
    ∧ (Taken dev .mgmt .TW_CMD 0 ∧ dev.isSet F.TW_CMD_STATUS.BUSY 0 = false
      ∧ ((e.tick 0).put F.TW_CMD.OP 3).isSet F.TW_ROTATE_CTL.EN 0 = true ∧ Taken e .mgmt .TW_CMD 0
      ∧ e.isSet F.TW_CMD_STATUS.BUSY 0 = false ∧ e.twin.st = .paired ∧ e.twin.group = none ∧ e.twin.slotWork = []
      ∧ ((e.tick 0).put F.TW_CMD.OP 3).side = 0 ∧ dev.twin.st = .paired ∧ dev.twin.group = none ∧ dev.twin.slotWork = [])
    := by decide +kernel

/-! Tiers, quotas and Float. -/

theorem witness_MovesChangeNoByte :
    let p : SpanRec := { home := .p, heat := 1, pin := .none, move := some .f, written := [255], lastUse := 0 }
    let f : SpanRec := { p with home := .f, move := some .p }
    let c : FChange := {
      id := 0, kind := .migrate, span := 65536, frames := [255], src := [], band := 0, slot := 0, fulling := false,
      programmed := true }
    let s (r : SpanRec) : State := { dev with
      tier := { dev.tier with spans := [(65536, r)], pFrames := 1 }, flash := { dev.flash with changes := [c] } }
    (RegsOrdered (s f) ∧ (s f).span 65536 = some f ∧ f.move = some .p ∧ f.home = .f ∧ f.written.length ≤ (s f).freeP)
    ∧ ((s p).span 65536 = some p ∧ p.move = some .f ∧ p.home = .p
      ∧ (s p).flash.changes.find? (fun x => x.span == 65536 && x.kind == .migrate) = some c ∧ c.frames = p.written
      ∧ (s p).stripe.heals.any (fun x => spanOfFrame x.2 == 65536) = false) := by decide +kernel

theorem witness_QuotasAndFloatComplete :
    let s (n : Nat) := fields [(F.ST_QUOTA_SEL.TENANT, 0, n)] dev
    let odd := fields [(F.BL_DEVICE_ID.DEVICE_ID, 0, 1)] dev
    let r (sg w : Nat) : State := { dev with stripe := {}, tier := { dev.tier with
      regions := [(0, { sinceGap := sg, writes := w }), (1, {})] } }
    (∀ t ∈ ([0, 1, 2] : List Nat), Served (s 1) .mgmt (accOff (quotaReg t) 0 .full) ∧ NoRsv (quotaReg t) .full 0#64)
    ∧ RegsOrdered (s 1) ∧ 1 = (s 1).get F.ST_QUOTA_SEL.TENANT ∧ (s 1).bay.tenants.contains 1 = true
    ∧ 4095 = (s 4095).get F.ST_QUOTA_SEL.TENANT ∧ (s 4095).bay.tenants.contains 4095 = false
    ∧ dev.linkServes (hdr 0 0 0 0) = true ∧ (hdr 0 0 0 0).dst = dev.devId ∧ (dev.quota 1).dt 2 < 1
    ∧ ((dev.quota 1).dt 2 = 0 ∧ dev.side = 0 ∧ odd.side = 1 ∧ odd.linkServes (hdr 1 0 0 0) = true)
    ∧ (dev.psi ≤ ((r dev.psi 0).region 0).sinceGap ∧ ((r 0 0).region 0).sinceGap < dev.psi)
    ∧ (∀ n ∈ ([2 ^ 26, 2 ^ 26 + 1] : List Nat), (r 0 n).extremeRegions 0 = some (0, 1)
      ∧ ((r 0 n).region 0).writes = n
      ∧ SMap.findD (r 0 n).tier.modWrites 0 0 / (r 0 n).regionCount 0 + 2 ^ (r 0 n).threshLog2 = 2 ^ 26) := by decide +kernel

/-! The Crown. -/

theorem witness_CrownFillServesItsReaders :
    let l := ln 1 + 1
    let s : State := { withReqs [req 0 .read (2 ^ 36 + 64) .filling] dev with crown := { dev.crown with misses := [l] } }
    let g : State := { s with cipher := {} }
    (s.tenantOf (boltOfLine l) = 1 ∧ s.crown.misses.contains l = true ∧ s.inTierD l = false ∧ s.repairWaiters l = []
      ∧ s.written (frameOfLine l) = true ∧ (s.bay.reqs.map Req.id).Nodup
      ∧ s.stopsAt (boltOfLine l) = none ∧ s.volatile (boltOfLine l) = false ∧ s.twinFirst (frameOfLine l) = false)
    ∧ (s.keyGone 1 = false ∧ s.keyLoaded 1 = true ∧ s.isPoison l = false ∧ s.fillWaiters l ≠ [])
    ∧ (g.keyGone 1 = true ∧ g.crown.misses.contains l = true ∧ g.fillWaiters l ≠ []
      ∧ g.stopsAt (boltOfLine l) = none ∧ g.inTierD l = false ∧ g.repairWaiters l = [])
    ∧ (s.unitStopped l = false ∧ s.hasTwinCopy (spanOfLine l) = false) := by decide +kernel

theorem witness_WaysPowerDownAndUp :
    let s (x : WaySt) : State := { dev with crown := { dev.crown with ways := [.on, .on, .on, .on, .on, .on, .on, x] } }
    (∀ x ∈ [WaySt.on, .off, .cleaning, .waking], RegsOrdered (s x) ∧ (s x).crown.ways.length = 8 ∧ (s x).waySt 15 = x)
    ∧ dev.waySt 8 = .on ∧ Served dev .mgmt (accOff .CR_WAY_PWR 0 .full)
    ∧ dev.reg .CR_WAY_PWR 0 &&& ~~~(knownBits .CR_WAY_PWR) = 0#64
    ∧ ((s .cleaning).wayCells 15).any (fun x => x.2.filling) = false
    ∧ Served dev .mgmt (accOff .CR_LFSR_SEED 0 .lo) ∧ NoRsv .CR_LFSR_SEED .lo 0xFFFFFFFF#64 := by decide +kernel

/-! DRAM channels. -/

theorem witness_TrainingAndChannelTimersComplete :
    let s := fields [(F.DC_CFG.POP, 31, 1)] dev
    let t := power (fun p => { p with state := 11 }) s
    let q (aged : Bool) : DReq := { line := 5, arrived := 0, aged := aged }
    let d : State := { s with dram := { s.dram with dq := [(63, [{ line := 6, arrived := 0, aged := false }, q false])] } }
    (RegsOrdered s ∧ Served s .mgmt (accOff .DC_TRN_CTL 31 .full) ∧ s.absent .DC_TRN_CTL 31 = false
      ∧ (∀ n ∈ [1, 2, 3, 4], NoRsv .DC_TRN_CTL .full (withBits (0#64 ||| 0x100#64) 0 4 n)) ∧ s.mayTrain 31 = false)
    ∧ (Served t .mgmt (accOff .DC_TRN_CTL 31 .full) ∧ t.absent .DC_TRN_CTL 31 = false ∧ t.mayTrain 31 = true)
    ∧ (∃ x ∈ SMap.findD d.dram.dq 63 [], x.line = 5 ∧ x.aged = false ∧ x.arrived + 10000 ≤ max d.now 0)
    ∧ (s.channelServes 31 = true ∧ SMap.findD s.dram.pauseAt (31 * 2 + 1) (max s.now 0) ≤ max s.now 0
      ∧ ([0, 1] : List Nat).foldl max 0 < 2 ∧ 2 ≤ ([2] : List Nat).foldl max 0) := by decide +kernel

theorem witness_RowRepairsAndTrowelComplete :
    let loc : DramLoc := { ch := 0, sub := 0, prank := 0, lrank := 0, bg := 0, ba := 0, row := 0, cb := 0 }
    let d := fields [(F.DC_CFG.POP, 0, 1), (F.DC_TROWEL_CTL.EN, 0, 1)] dev
    let s : State := { d with dram := { d.dram with trowelDone := [0, 2048, 0] } }
    let fin (x : Nat) : State := { s with dram := { s.dram with trowelFin := [some (x * s.trowelNs 0), none, none] } }
    let ten := power (fun p => { p with state := 10 }) s
    let r : State := { s with dram := { s.dram with candidates := [s.rowAt loc] } }
    let u (op : Nat) : State := (s.tick 0).writeFields .DC_PPR_CMD 0 .full (withBits (0#64 ||| 0x20000000#64) 0 2 op) false
    (RegsOrdered r ∧ r.dram.candidates.contains (r.rowAt loc) = true ∧ r.rowBusy (r.rowAt loc) = false
      ∧ r.isSet F.DC_PPR_CMD.BUSY 0 = false)
    ∧ (Served s .mgmt (accOff .DC_PPR_CMD 0 .full) ∧ s.absent .DC_PPR_CMD 0 = false ∧ s.isSet F.DC_PPR_CMD.BUSY 0 = false
      ∧ (u 1).rowBusy ((u 1).pprRow 0) = false
      ∧ ∀ op ∈ ([1, 2] : List Nat), NoRsv .DC_PPR_CMD .full (withBits (0#64 ||| 0x20000000#64) 0 2 op))
    ∧ (s.isSet F.DC_TROWEL_CTL.EN 0 = true ∧ s.power.throttle = false)
    ∧ (∀ t ∈ ([0, 1, 2] : List Nat), s.dram.trowelStart.getD t 0 + s.trowelNs t ≤ max s.now (s.trowelNs t)
      ∧ s.trowelTotal t ≤ s.dram.trowelDone.getD t 0)
    ∧ (d.dram.trowelFin.getD 1 none = none ∧ d.dram.trowelDone.getD 1 0 < d.trowelTotal 1)
    ∧ (∀ x ∈ ([0, 1] : List Nat), (fin x).dram.trowelFin.getD 0 none = some (x * (fin x).trowelNs 0))
    ∧ (ten.power.state = 10 ∧ ten.isSet F.DC_PPR_CMD.BUSY 0 = false ∧ Served ten .mgmt (accOff .DC_PPR_CMD 0 .full)) := by decide +kernel

/-! The flash tier. -/

/-- A flash build of 32 channels. -/
def flashBuild : FlashBuild := {
  channels := 32, jesd := true, rate := 24, targets := 8, luns := 2, diesPerChannel := 16, pageUser := 16384, pageSpare := 2048,
  planes := 4, blocksPerChannel := 1024, rawTib := 32, ratedPe := 3000, retryEntries := 5, readLimit := 100000, vccMv := 2500,
  vccqMv := 1200 }

/-- Span 65,536 in tier F, in band 0, with frame 255 written. -/
def fspan (fine : Option Nat) : FSpan := {
  fine := fine, refresh := false, band := 0, slot := 0, subw := 0, window := 0, lastSubw := 0, written := [255], wseq := 0 }

/-- A band over four channels. -/
def band (st : BandSt) : Band :=
  { st := st, valid := 1, closeDt := 0, refresh := false, fulling := false, copied := 0, width := 4, next := 1 }

/-- A change that copies frame 255 of span 65,536. -/
def chg (programmed : Bool) : FChange :=
  { id := 0, kind := .copyRun, span := 65536, frames := [255], src := [0], band := 0, slot := 0, fulling := false,
    programmed := programmed }

/-- The device with a flash build, the span and the band, and a change in hand. -/
def flash (st : BandSt) (fine : Option Nat) (programmed : Bool) : State :=
  { dev with flash := { dev.flash with
      build := some flashBuild, map := [(65536, fspan fine)], bands := [(0, band st)], changes := [chg programmed],
      nextChange := 1 } }

/-- The device with 100 good blocks of which `n` are free. -/
def freeBlocks (n : Nat) : State :=
  { fields [(F.FL_BLOCKS.GOOD, 0, 100)] (flash .opened none false) with
    flash := { (flash .opened none false).flash with bands := [(0, { band .opened with width := 100 - n })] } }

theorem witness_FlashReadsErasesAndFullingComplete :
    let s := flash .erasing none false
    let u (n : Nat) := power (fun p => { p with state := n }) s
    let v : Word := s.reg .FL_FULL_CTL 0
    ((s.fpaOf (spanOfFrame (2 ^ 24 + 255)) ((2 ^ 24 + 255) % 256)).isSome = true)
    ∧ (SMap.find s.flash.bands 0 = some (band .erasing) ∧ (band .erasing).st = .erasing
      ∧ (s.bandBlocks 0 (band .erasing)).Nodup ∧ ∀ p ∈ s.bandBlocks 0 (band .erasing), p.2 < 2 ^ 20)
    ∧ (∀ z ∈ s.tier.spans, z.2.move ≠ some .f) ∧ RegsOrdered s
    ∧ ((u 11).flash.build.isSome = true ∧ (u 11).power.state = 11 ∧ (u 20).power.state ≤ 20)
    ∧ ((u 12).flash.build.isSome = true ∧ 11 < (u 12).power.state ∧ (u 15).power.state < 16
      ∧ s.get F.FL_FULL_CTL.CRIT_PCT < s.get F.FL_FULL_CTL.LOW_PCT
      ∧ s.get F.FL_FULL_CTL.LOW_PCT < s.get F.FL_FULL_CTL.HIGH_PCT
      ∧ s.get F.FL_FULL_CTL.HIGH_PCT ≤ s.get F.FL_FULL_CTL.BG_PCT)
    ∧ (s.get F.FL_FULL_CTL.CRIT_PCT = 2 ∧ s.get F.FL_FULL_CTL.LOW_PCT = 5 ∧ s.get F.FL_FULL_CTL.HIGH_PCT = 7
      ∧ s.get F.FL_FULL_CTL.BG_PCT = 10 ∧ ∀ n ∈ ([1, 2, 4, 5, 6, 7, 9, 10] : List Nat), (freeBlocks n).freePct = n)
    ∧ (Served s .mgmt (accOff .FL_FULL_CTL 0 .full) ∧ NoRsv .FL_FULL_CTL .full v ∧ NoRsv .FL_FULL_CTL .full 0#64
      ∧ (s.tick 0).writeFields .FL_FULL_CTL 0 .full v false = s.tick 0
      ∧ ((s.tick 0).writeFields .FL_FULL_CTL 0 .full 0 false).get F.FL_FULL_CTL.LOW_PCT = 0) := by decide +kernel

theorem witness_FlashMapChangesKeepTheBytes :
    let s (p : Bool) := flash .opened (some 0) p
    let t : State := { s true with time := { (s true).time with dt := 2 ^ 60 }, flash := { (s true).flash with ckptAt := 0 } }
    let c : State := { t with flash := { t.flash with ckptRunning := true } }
    ((s false).flash.changes.find? (fun x => x.id == 0) = some (chg false))
    ∧ ((s true).flash.changes.find? (fun x => x.id == 0 && x.programmed) = some (chg true) ∧ 0 < (s true).flash.nextChange)
    ∧ (SMap.find t.flash.map 65536 = some (fspan (some 0)) ∧ (fspan (some 0)).fine.isSome = true
      ∧ ((fspan (some 0)).lastSubw + max 1 (t.get F.FL_MAP_CTL.FINE_IDLE_S)) * 1000000000 ≤ max t.now 0)
    ∧ (t.flash.ckptRunning = false ∧ (t.tick 0).ckptDue = true ∧ t.flash.ckptAt + 10000000000 ≤ max t.now 0
      ∧ 11 < t.power.state ∧ t.power.state < 16)
    ∧ c.flash.ckptRunning = true := by decide +kernel

/-! Stripes. -/

/-- The device with its stripes changed. -/
def stripe (f : StripeSt → StripeSt) (s : State) : State := { s with stripe := f s.stripe }

theorem witness_JournalRebuildAndReshapeComplete :
    let k : Skim := { a := 0, b := 2, slot := 4094, writing := true, batch := [7] }
    let j := stripe (fun x => { x with skim := [(0, k)] }) dev
    let m (st : MemberSt) (n : Nat) := stripe (fun x => { x with members := SMap.put x.members 3 (member st 3 n) }) dev
    let g : StripeGeom := { geom with pSpare := 0 }
    let r (n : Nat) := stripe (fun x => { x with target := some g, reshape := { x.reshape with st := n } })
      { dev with tier := { dev.tier with pFrames := 2 ^ 20 } }
    let f : StripeGeom := { geom with fWidth := 5 }
    let w : State := stripe (fun x => { x with target := some f }) dev
    let room (s : State) := fields [(F.ST_P_CFG.P_SPARE, 0, 1)] s
    ((j.skim 0).writing = true ∧ (j.skim 0).slot + 1 < 4096 ∧ j.posInService 0 0 = true ∧ j.posInService 0 2 = true)
    ∧ (dev.skim 0).writing = false
    ∧ (∀ st ∈ [MemberSt.rebuilding, .copyBack], ∀ n ∈ ([1, 2] : List Nat),
        SMap.find (m st n).stripe.members 3 = some (member st 3 n)
        ∧ (m st n).stripe.subst.any (fun e => e.1 == 3 && e.2.1 == (m st n).substPart 3 0) = false
        ∧ (m st n).spareRoom 3 ((m st n).substituteFor 3 0) = false
        ∧ SMap.find (room (m st n)).stripe.members 3 = some (member st 3 n)
        ∧ (room (m st n)).spareRoom 3 ((room (m st n)).substituteFor 3 0) = true)
    ∧ (RegsOrdered (m .rebuilding 1)
      ∧ (m .rebuilding 1).stripe.members.filter (fun x => x.2.st == .rebuilding || x.2.st == .copyBack) ≠ [])
    ∧ (Taken (r 0) .mgmt .ST_RESHAPE_CMD 0 ∧ (r 0).isSet F.ST_RESHAPE_CMD.BUSY 0 = false
      ∧ (r 0).stripe.target = some g ∧ (r 0).stripe.geom = some geom ∧ g.pSpare ≠ geom.pSpare ∧ (r 0).rebuilding = false
      ∧ (r 0).stripe.resyncFull = false ∧ (r 0).stripe.reshape.st = 0
      ∧ (r 0).framesIn .p (fun _ => true) ≤ (r 0).geomP g ∧ (r 0).extentsFree g = true ∧ g.fWidth = geom.fWidth)
    ∧ (Taken w .mgmt .ST_RESHAPE_CMD 0 ∧ w.isSet F.ST_RESHAPE_CMD.BUSY 0 = false ∧ w.stripe.target = some f
      ∧ w.stripe.geom = some geom ∧ f.groups = geom.groups ∧ f.pWidth = geom.pWidth ∧ f.pSpare = geom.pSpare
      ∧ f.fWidth ≠ geom.fWidth ∧ w.rebuilding = false ∧ w.stripe.resyncFull = false ∧ w.stripe.reshape.st = 0
      ∧ w.framesIn .f (fun _ => true) ≤ w.geomF f.fWidth)
    ∧ (Taken (r 1) .mgmt .ST_RESHAPE_CMD 0 ∧ (r 1).stripe.reshape.st = 1) ∧ (r 2).stripe.reshape.st = 2
    ∧ ((r 1).stripe.reshape.tier = 0 ∧ (r 1).spanDirty 65536 = false
      ∧ (([(0, 5), (255, 6)] : List (Nat × Nat)).map Prod.fst).Nodup) := by decide +kernel

/-! Queues. -/

/-- A descriptor of queue `q` with an opcode, ranges and arguments. -/
def desc (q op src dst len : Nat) (st : DescSt) (args : List Word) : Desc := {
  q := q, ix := 0, d := lineOfWords ([word op, word src, word dst, word len] ++ args), st := st, code := 0, stamp := 0,
  own := false, more := false, held := false, notify := false, got := [], res := [], engine := 47 }

/-- The device with its queues changed. -/
def queues (f : QueueSt → QueueSt) (s : State) : State := { s with queues := f s.queues }

/-- The device with one descriptor in hand. -/
def withDesc (x : Desc) (s : State) : State := queues (fun q => { q with descs := [x] }) s

theorem witness_QueuesFetchAndCompleteTheirDescriptors :
    let e := que false .running
    let bell : Word := word (15 + 2 ^ 16)
    let f := queues (fun q => { q with table := [(0, { e with sqTail := 15 }), (1, que true .running)] }) dev
    let g := queues (fun q => { q with contexts := [] }) f
    let d (st : DescSt) (op : Nat) := desc 0 op 0 0 0 st []
    let i := queues (fun q => { q with irq := [(0, (1, 0))], ctxWait := [1] }) dev
    (Served dev .mgmt 0x2000000 ∧ Served dev (.host 0 0) (0x2000000 + 8 * 4194303) ∧ dev.queue 0 = some e
      ∧ SMap.find dev.bay.ldTenant 0 = some e.tenant
      ∧ (bell.getLsbD 16 = true ∧ bitsOf bell 0 16 < 2 ^ e.sqLog2 ∧ (e.sqTail + 16 - e.sqHead) % 16 ≤ (15 + 16 - e.sqHead) % 16)
      ∧ bell.getLsbD 48 = false ∧ bell.getLsbD 63 = false ∧ dev.queues.contexts.contains 0 = true ∧ (dev.cap 0).done = [])
    ∧ dev.queue 4194303 = none
    ∧ (SMap.wf f.queues.table = true ∧ f.inService = true ∧ f.queues.arb.length = 4
      ∧ (f.queues.table.filter (fun x => f.mayFetch x.1 x.2)).map Prod.fst = [0] ∧ f.queues.contexts.contains 0 = true
      ∧ (g.queues.table.filter (fun x => g.mayFetch x.1 x.2)).map Prod.fst = [0] ∧ g.queues.contexts = [])
    ∧ ((withDesc (d .ended 2) dev).desc 0 0 = some (d .ended 2) ∧ (d .ended 2).own = false
      ∧ descNoCqe (d .ended 2).d = false ∧ descNoCqe (d .ended 0x402).d = true
      ∧ (withDesc (d .fetched 4) dev).desc 0 0 = some (d .fetched 4) ∧ descOp (d .fetched 4).d = 4)
    ∧ e.cqBase % 4096 = 0
    ∧ (i.queue 0 = some e ∧ SMap.find i.queues.irq 0 = some (1, 0) ∧ e.irqUs ≠ 0 ∧ 0 + e.irqUs * 1000 ≤ max i.now 0
      ∧ SMap.has i.bay.ldTenant (e.port * 16 + e.ld) = true ∧ i.portUp e.port = true)
    ∧ (i.queues.ctxWait.contains 1 = true ∧ i.queue 1 = some (que true .running)
      ∧ i.queues.contexts.length < Config.maxContexts) := by decide +kernel

/-- Every context in use, by queue 0. -/
def full (l : List Desc) : State :=
  queues (fun q => { q with contexts := List.replicate Config.maxContexts 0, ctxWait := [1], descs := l }) dev

theorem witness_QueuesFetchAndCompleteTheirDescriptors_full :
    let x := desc 0 2 0 0 64 (.running 1) []
    ((full []).queues.ctxWait.contains 1 = true ∧ (full []).queue 1 = some (que true .running)
      ∧ Config.maxContexts ≤ (full []).queues.contexts.length ∧ ∃ c ∈ (full []).queues.contexts, (full []).inFlight c = 0)
    ∧ (Config.maxContexts ≤ (full [x]).queues.contexts.length
      ∧ ∀ c ∈ (full [x]).queues.contexts, (full [x]).inFlight c ≠ 0) := by
  have l (d : List Desc) : (full d).queues.contexts = List.replicate Config.maxContexts 0 := rfl
  have n : Config.maxContexts ≠ 0 := by decide
  refine ⟨⟨by decide +kernel, by decide +kernel, ?_, 0, ?_, by decide +kernel⟩, ?_, fun c h => ?_⟩
  · rw [l, List.length_replicate]
  · rw [l]; exact List.mem_replicate.2 ⟨n, rfl⟩
  · rw [l, List.length_replicate]
  · rw [l] at h
    obtain ⟨-, rfl⟩ := List.mem_replicate.1 h
    decide +kernel

/-- A descriptor alone in hand that may start. -/
abbrev StartsAlone (x : Desc) : Prop := Starts (withDesc x dev) x.q 0 (descOp x.d) x (que (x.q == 1) .running)

theorem witness_DescriptorsCarryOutTheirOpcodes :
    let o := 2 ^ 36
    let x (op : Nat) := desc 0 op o o 64 .fetched []
    let y := desc 0 12 o o 64 .loaded []
    let m : State := { withDesc (desc 0 (5 + 2 ^ 16) 0 o 64 .fetched []) dev with
      tier := { dev.tier with quotas := [(1, { f := 1 })] } }
    (∀ op ∈ ([1, 2, 3, 5, 6, 7, 8, 12] : List Nat), StartsAlone (x op) ∧ descOp (x op).d = op)
    ∧ (0 < descLen (x 1).d ∧ descSrc (x 1).d % 64 + descLen (x 1).d ≤ 64 ∧ descDst (x 1).d % 64 + descLen (x 1).d ≤ 64)
    ∧ boltOfOff (descDst (x 3).d) = boltOfOff (descDst (x 3).d + descLen (x 3).d - 1)
    ∧ boltOfOff (descSrc (x 12).d) = boltOfOff (descSrc (x 12).d + descLen (x 12).d - 1)
    ∧ (Starts m 0 0 5 (desc 0 (5 + 2 ^ 16) 0 o 64 .fetched []) (que false .running)
      ∧ descParam (desc 0 (5 + 2 ^ 16) 0 o 64 .fetched []).d = 1 ∧ m.isActive (boltOfOff o) = true)
    ∧ (m.tenantOf (boltOfOff o) = 1 ∧ (m.quota 1).f ≠ 0 ∧ m.partFrames .p (o, 64) ≠ 0
      ∧ (m.quota 1).f < m.useIn .f 1 + m.partFrames .p (o, 64))
    ∧ ((withDesc y dev).desc 0 0 = some y ∧ y.st = .loaded ∧ descOp y.d = 12) := by decide +kernel

/-- A CAPTURE of queue 1 with its payload in the descriptor, or at `src`. -/
def capture (src : Nat) : Desc := desc 1 0x0A src 0 32 .fetched []

/-- Queue 1 with its ring full: all its units but one. -/
def ringFull (mode : Nat) : QEntry := { que true .running with rdPtr := 1, fullMode := mode }

theorem witness_DescriptorsCarryOutTheirOpcodes_capture :
    let e := que true .running
    let q (n : Nat) := queues (fun t => { t with table := SMap.put t.table 1 (ringFull n) }) (withDesc (capture 0) dev)
    (StartsAlone (capture 0) ∧ (withDesc (capture 0) dev).queues.descs.any (fun y => y.q == 1 && decide (y.ix < 0) && unplaced y)
      = false)
    ∧ (descSrc (capture 0).d = 0 ∧ descLen (capture 0).d ≤ 32 ∧ ((withDesc (capture 0) dev).cap 1).window = none
      ∧ e.wrPtr + 1 ≤ e.units ∧ 2 ≤ e.freeUnits ∧ e.ringBase % 64 = 0)
    ∧ (∀ n ∈ ([0, 1] : List Nat), Starts (q n) 1 0 0x0A (capture 0) (ringFull n) ∧ (ringFull n).freeUnits < 2)
    ∧ StartsAlone (capture (2 ^ 36)) ∧ descSrc (capture (2 ^ 36)).d ≠ 0 := by decide +kernel

theorem witness_DescriptorsCarryOutTheirOpcodes_windows :
    let e := que true .running
    let k : Closing := {
      win := 0, unit := 0, seq := 0, records := 1, dropped := 0, crc := 0#32, stop := false, restart := false, ix := some 0 }
    let x := desc 1 0 0 0 0 .ended []
    let v := queues (fun t => { t with caps := [(1, { window := some 0 })] }) dev
    let z := queues (fun t => { t with caps := [(1, { closings := [k] })], descs := [x] }) dev
    (v.queue 1 = some e ∧ (v.cap 1).window = some 0 ∧ 0 < e.windowOf (max v.now 0)
      ∧ v.queues.descs.any (fun y => y.q == 1 && unplaced y && decide (e.windowOf y.stamp ≤ 0)) = false)
    ∧ (z.queue 1 = some e ∧ (z.cap 1).closings = [k] ∧ k.ix = some 0 ∧ z.desc 1 0 = some x ∧ x.st = .ended ∧ x.code = 0
      ∧ k.restart = false) := by decide +kernel

/-- No tenant of the device has a quota, so MIGRATE and PIN go on whatever the tenant. -/
theorem witness_DescriptorsCarryOutTheirOpcodes_quota : ∀ t, (dev.quota t).d = 0 ∧ (dev.quota t).p = 0 ∧ (dev.quota t).f = 0 :=
  fun _ => ⟨rfl, rfl, rfl⟩

theorem witness_QueueCommandsComplete :
    let a0 : Word := word (1 * 256 + 0 * 2 ^ 20)
    let t (st : QState) (capture : Bool) := queues (fun q => { q with table := [(0, { que capture st with irqUs := 0 })] }) dev
    let busy := withDesc (desc 0 2 0 0 64 (.running 1) []) (t .running false)
    let stop := queues (fun q => { q with stopping := [(0, 0)] }) (t .stopping false)
    let a1 : Word := word (2 ^ 36 + 6 * 2 ^ 56)
    let a2 : Word := word (2 ^ 36 + 4096 + 16 * 2 ^ 56)
    let u := State.put (State.put (State.put (withArgs (dev.tick 0) [(.QU_CMD_ARG0, a0), (.QU_CMD_ARG1, a1), (.QU_CMD_ARG2, a2),
      (.QU_CMD_ARG3, 0), (.QU_CMD_ARG4, 0)]) F.QU_CMD.OP 1) F.QU_CMD.GO 1) F.QU_CMD_STATUS.BUSY 1
    u.createCode (queueOf a0 a1 a2 0 0) a0 a1 a2 0 0 = 0
    ∧ (RegsOrdered dev ∧ Taken dev .mgmt .QU_CMD 0 ∧ dev.isSet F.QU_CMD_STATUS.BUSY 0 = false
      ∧ dev.createCode (queueOf a0 0 0 0 0) a0 0 0 0 0 = 7 ∧ lowestFreeFrom 0 (SMap.keys dev.queues.table) = 2)
    ∧ (∀ st ∈ [QState.stopped, .running, .error], Taken (t st false) .mgmt .QU_CMD 0
        ∧ (t st false).isSet F.QU_CMD_STATUS.BUSY 0 = false ∧ (t st false).queue 0 = some { que false st with irqUs := 0 }
        ∧ ((t st false).cap 0).restarted = none)
    ∧ ((t .running false).inFlight 0 = 0 ∧ busy.inFlight 0 ≠ 0 ∧ busy.queue 0 = some { que false .running with irqUs := 0 })
    ∧ (bitsOf (0x3FFFFF : Word) 0 22 = 4194303 ∧ dev.queue 4194303 = none)
    ∧ (stop.queues.stopping = [(0, 0)] ∧ 0 + stop.fwdTimeoutNs ≤ max stop.now 0
      ∧ max (0 : Nat) 0 < 0 + stop.fwdTimeoutNs) := by decide +kernel

theorem witness_ParityGivesBackALostUnit :
    (∀ u ∈ ([[1, 2], [3, 255]] : List (List Nat)), u.length = 2) ∧ 1 < ([[1, 2], [3, 255]] : List (List Nat)).length
    ∧ (255 : Nat) < 256 := by decide

/-! Engines. -/

/-- Engine 47 changed, in service. -/
def engine (g : Engine) (s : State) : State :=
  { s with engines := { s.engines with eng := [(47, g)], enabled := [47] } }

/-- A container of one GTH layer over two tiles, with its CRC (10 Tables 10.2 to 10.4). -/
def container : List Byte :=
  let header := leBytes 2 1 ++ leBytes 2 1 ++ leBytes 2 2 ++ leBytes 2 0 ++ leBytes 4 0 ++ leBytes 4 40 ++ leBytes 4 64
    ++ leBytes 4 128 ++ leBytes 4 192 ++ leBytes 4 192 ++ leBytes 4 192 ++ leBytes 4 224 ++ leBytes 20 0
  let layer := leBytes 4 0x010106 ++ leBytes 4 0 ++ leBytes 12 0 ++ leBytes 12 1 ++ leBytes 32 0
  let tiles := leBytes 8 0xFF00000000 ++ leBytes 24 (2 ^ 36) ++ leBytes 8 0xFF00000301 ++ leBytes 24 (2 ^ 36 + 262144)
  let rest := layer ++ tiles ++ leBytes 32 1
  header ++ leBytes 4 (containerCrc (header ++ leBytes 4 0 ++ rest)) ++ rest

/-- Line data that is a RUN of the container at bolt 1. -/
def runDesc : Desc := desc 0 0x0B (2 ^ 36) 0 0 (.running 1) []

/-- The device with the container in memory and the RUN first in the queue of engine 47. -/
def jobAt (x : Desc) (bs : List Byte) : State :=
  { withDesc x (engine { jobs := [(0, 0)] } dev) with mem := writeBytes [] (2 ^ 36) bs }

/-- What every job start asks of the state. -/
abbrev JobStarts (s : State) (x : Desc) : Prop :=
  (s.engine 47).run = none ∧ s.engineUp 47 = true ∧ s.inService = true ∧ s.leavingIn 47 = none
  ∧ (s.engine 47).jobs = [(0, 0)] ∧ s.desc 0 0 = some x ∧ s.queue 0 = some (que false .running)
  ∧ (s.engine 47).prefetched = [] ∧ s.bay.reqs = []

theorem witness_JobsStartAndTilesBecomeResident :
    let r := desc 0 0x0B (2 ^ 36) 0 0 .fetched []
    let t := desc 0 0x09 (2 ^ 36) 0 0 .fetched []
    let jobs (n : Nat) : Engine := { jobs := List.replicate n (0, 9) }
    (∀ x ∈ [r, t], let s := withDesc x (engine (jobs (Config.maxJobs - 1)) dev)
      s.engineUp 47 = true ∧ (s.engine 47).held < Config.maxJobs ∧ Starts s 0 0 (descOp x.d) x (que false .running))
    ∧ (let s := withDesc r (engine (jobs Config.maxJobs) dev)
       Config.maxJobs ≤ (s.engine 47).held ∧ Starts s 0 0 0x0B r (que false .running))
    ∧ ((withDesc t dev).engineUp 47 = false ∧ Starts (withDesc t dev) 0 0 0x09 t (que false .running))
    := by decide +kernel

set_option maxRecDepth 100000 in
theorem witness_JobsStartAndTilesBecomeResident_start :
    let f := desc 0 0x09 (2 ^ 36) 0 0 (.running 1) [0x0F00#64, 0, 0, 0]
    let s := jobAt runDesc container
    JobStarts (jobAt f []) f ∧ (descTile f.d).map TileGeom.oneBolt = some true
    ∧ JobStarts s runDesc ∧ bytesNat (container.take 64) 36 4 = 224
    ∧ s.jobBytes 0 (descSrc runDesc.d) 64 .here = some (container.take 64, false)
    ∧ s.jobBytes 0 (descDst runDesc.d) 0 .here = some ([], false) := by decide +kernel

set_option maxRecDepth 100000 in
theorem witness_JobsStartAndTilesBecomeResident_runs :
    let s := jobAt runDesc container
    s.jobBytes 0 (descSrc runDesc.d) 224 .here = some (container, false)
    ∧ boltOfOff (descSrc runDesc.d) = boltOfOff (descSrc runDesc.d + 224 - 1) ∧ descArg runDesc.d 2 = 0
    ∧ (readContainer container).map (fun c => c.check (descParam runDesc.d) 0 ((s.engine 47).forTenant 1).valid) = some 0
    := by decide +kernel

set_option maxRecDepth 100000 in
theorem witness_JobsStartAndTilesBecomeResident_ends :
    let bad := container.take 60 ++ List.replicate 164 0#8
    let z := jobAt runDesc bad
    let s := jobAt runDesc container
    let p : State := { s with lines := { s.lines with poison := [ln 1] } }
    JobStarts z runDesc ∧ z.jobBytes 0 (descSrc runDesc.d) 224 .here = some (bad, false) ∧ readContainer bad = none
    ∧ JobStarts p runDesc ∧ p.jobBytes 0 (descSrc runDesc.d) 64 .here = some (container.take 64, true) := by decide +kernel

/-- A job of two layers of a user kernel over one operand slot and one output slot. -/
def prog : Container := {
  layers := [{ kernel := 0x80, ops := [0], outs := [1], param := 0 }, { kernel := 0x80, ops := [0], outs := [1], param := 0 }],
  tiles := [{ slot := 0, kind := 0, layout := 0, esize := 0, argIndex := 255, trim := false, offset := 2 ^ 36, pitch := 0, cols := 0 },
    { slot := 15, kind := 3, layout := 0, esize := 0, argIndex := 255, trim := false, offset := 2 ^ 36, pitch := 0, cols := 0 }],
  kernels := 1, tolerant := false, deadlineUs := 1, cyclesLog2 := 16, params := [] }

/-- The job running on engine 47. -/
def job (running : Bool) (resident : List Nat) (hold : Option Nat) (wbs : List Wb) : Run :=
  { Run.start runDesc 1 0 prog [] with layerRunning := running, resident := resident, holdSince := hold, wbs := wbs }

theorem witness_JobsStartAndTilesBecomeResident_tile :
    let r : Req := { req 7 (.tile 1 262144 0) (2 ^ 36) (.forwarded 1 4 3 0) with who := .engine 47 (32 + 15) }
    let t : Tile := { bytes := [], poison := [4095] }
    let s := withReqs [r] (engine { run := some (job false [] none []) } dev)
    s.slotFetch 47 15 = some r ∧ (32 + 15) % 64 = 32 + 15
    ∧ (s.tick 0).fetched r { rows := 1, rowBytes := 262144, pitch := 0, base := r.offset } (.remote t) = some (t, 0)
    ∧ (s.engine 47).run = some (job false [] none []) := by decide +kernel

theorem witness_LayersRunEndAndFault :
    let s (r : Run) := withDesc runDesc (engine { run := some r } dev)
    let w (n : Nat) : Wb :=
      { layer := 0, slots := [15], sct := false, left := n, code := 0, status := 0, flags := 0, cycles := 0, value := [] }
    let a := job false [0] none []
    let b := job false [] (some 0) []
    let c := job true [] none []
    let d (n : Nat) := job false [] none [w n]
    let late := job false [0] (some 0) []
    ((s a).engine 47).run = some a ∧ a.layerRunning = false ∧ a.endCode = none ∧ a.leaving = false
    ∧ (s a).layerReady 47 a = true ∧ a.late (max (s a).now 0) = false ∧ 0x80 ≤ (a.prog.layer a.layer).kernel
    ∧ ((s late).layerReady 47 late = true ∧ late.late (max (s late).now 0) = true)
    ∧ ((s b).layerReady 47 b = false ∧ b.late (max (s b).now 0) = true ∧ b.holdSince = some 0)
    ∧ (((s c).engine 47).run = some c ∧ c.layerRunning = true ∧ (∀ t ∈ (s c).opsOf 47 c, t.poison = [])
      ∧ ((c.prog.outTiles c.layer).map (fun t => t.slot)).Nodup ∧ (c.prog.outTiles c.layer).length = 1
      ∧ 2 ^ c.prog.cyclesLog2 = 65536)
    ∧ (∀ n ∈ ([0, 1] : List Nat), ((s (d n)).engine 47).run = some (d n) ∧ (d n).wbs = [w n]
      ∧ (s (d n)).desc (d n).q (d n).ix = some runDesc ∧ descArg runDesc.d 2 ≠ 1)
    := by decide +kernel

theorem witness_LayersRunEndAndFault_hardware :
    let e (n : Nat) := engine { faultTimes := List.replicate n 1000000000 } dev
    let times (s : State) := (s.engine 47).faultTimes.filter (fun t => decide (max s.now 0 < t + 86400000000000)) ++ [max s.now 0]
    let x := desc 0 0x0B (2 ^ 36) 0 0 (.running 1) [0x10000#64]
    (RegsOrdered (e 0) ∧ (e 0).engineUp 47 = true ∧ (times (e 0)).length < max 1 ((e 0).get F.EN_CTL.FAULT_LIMIT)
      ∧ ((e 0).engine 47).run = none)
    ∧ (max 1 ((e 99).get F.EN_CTL.FAULT_LIMIT) ≤ (times (e 99)).length ∧ ((e 99).engine 47).run = none
      ∧ ((e 99).engine 47).jobs = [])
    ∧ descArg x.d 2 = 1 := by decide +kernel

/-! Ports, modules and mailboxes. -/

/-- The device with port `p` in a link state. -/
def link (p st : Nat) (s : State) : State := s.setF F.PT_LINK.STATE p st

theorem witness_LinksTrainAndSayHello :
    let h (b : BitVec 64) : Hello := { bayId := b, deviceId := 1, port := 127, personality := 2, version := 0, dirtyCount := 0 }
    let since (p st : Nat) : State := { link p st dev with ports := { dev.ports with helloSince := [(p, 0)] } }
    let tried (at_ : Nat) : State := { link 4 0 dev with ports := { dev.ports with triedAt := [(4, at_)] } }
    RegsOrdered dev ∧ (16 : Nat) < 32 ∧ ((link 4 0 dev).tick 0).mayRetry 4 = true ∧ ((tried 0).tick 0).mayRetry 4 = true
    ∧ ((tried 950000000).tick 0).mayRetry 4 = false
    ∧ (∀ x ∈ ([(0, 1), (12, 4), (4, 2), (8, 3)] : List (Nat × Nat)), (link x.1 0 dev).portTrains x.1 = true
        ∧ (link x.1 0 dev).linkState x.1 ≤ 1 ∧ (link x.1 0 dev).linkState x.1 = 0 ∧ (link x.1 0 dev).persOf x.1 = x.2
        ∧ dev.persOf x.1 ≠ 0 ∧ dev.linkState x.1 = 2)
    ∧ (∀ st ∈ ([1, 4] : List Nat), RegsOrdered (link 4 st dev) ∧ (link 4 st dev).persOf 4 = 2 ∧ (link 4 st dev).linkState 4 = st
        ∧ (link 4 st dev).twin.portsFenced = false ∧ (link 4 st dev).helloOk 4 (h 0) = true
        ∧ (link 4 st dev).helloOk 4 (h 1) = false
        ∧ SMap.find (since 4 st).ports.helloSince 4 = some 0 ∧ (since 4 st).linkState 4 = st)
    ∧ 0 + 10000000 ≤ max (since 4 1).now 0 ∧ 0 + 100000000 ≤ max (since 4 4).now 0
    ∧ (let z : State := { State.reset with ports := { State.reset.ports with helloSince := [(95, 0)] } }
       SMap.find z.ports.helloSince 95 = some 0 ∧ max z.now 9999999 < 0 + 10000000) := by decide +kernel

theorem witness_LinksGoDownAndModulesComeAndGo :
    let m (ok : Bool) : ModuleInfo :=
      { memDevice := true, capGib := if ok then 128 else 15, vid := 1, did := 2, fw := 3, hdmOk := true, dirtyCount := 4 }
    let l (st : MemberSt) : State := { stripe (fun x => { x with members := SMap.put x.members 0 (member st 0 0) }) dev with
      ports := { dev.ports with rated := [(1, 2, 3, 100000000)] } }
    let c := fields [(F.ST_REBUILD_CTL.COPYBACK_EN, 0, 1)] (l .lost)
    let two := stripe (fun x => { x with members := SMap.put x.members 1 (member .lost 1 0) }) (l .lost)
    let unread (s : State) : State := stripe (fun x => { x with unreadable := [(0, 7)] }) s
    (RegsOrdered dev ∧ ∀ x ∈ ([(0, 1), (4, 2), (8, 3), (12, 4)] : List (Nat × Nat)),
        dev.persOf x.1 = x.2 ∧ dev.persOf x.1 ≠ 0 ∧ dev.linkState x.1 ≠ 0)
    ∧ (dev.portUp 0 = true ∧ dev.getF F.PT_CFG.LD_COUNT 0 ≤ 16 ∧ SMap.wf dev.bay.decoders = true)
    ∧ (dev.portUp 12 = true ∧ dev.enumOk (m false) = false)
    ∧ (c.portUp 12 = true ∧ c.enumOk (m true) = true ∧ c.getF F.PT_CFG.MODULE 12 = 0
      ∧ SMap.find c.stripe.members 0 = some (member .lost 0 0) ∧ c.isSet F.ST_REBUILD_CTL.COPYBACK_EN 0 = true
      ∧ (member .lost 0 0).cap ≤ (m true).capGib ∧ 0 < c.rowsInUse 0)
    ∧ (SMap.find (l .lost).stripe.members 0 = some (member .lost 0 0)
      ∧ (unread (l .lost)).rowMissing 0 7 ≤ 2 ∧ SMap.find two.stripe.members 2 = some (member .inService 2 0)
      ∧ 2 < (unread two).rowMissing 0 7 ∧ two.groupDeferred 0 = false)
    ∧ (∀ p ∈ ([0, 4, 8, 12, 95] : List Nat), p < 96 ∧ (p = 95 ∨ Taken dev .mgmt .PT_CMD p ∧ dev.isSet F.PT_CMD.BUSY p = false))
    ∧ (dev.persOf 4 = 2 ∧ dev.twinPorts = [4] ∧ dev.persOf 0 ≠ 0 ∧ ¬(dev.persOf 0 = 2 ∧ dev.twinPorts = [0])
      ∧ dev.mayRemove 0 = false ∧ dev.mayRemove 12 = true ∧ dev.persOf 0 ≠ 4 ∧ (link 12 0 dev).portUp 12 = false
      ∧ Taken (link 12 0 dev) .mgmt .PT_CMD 12) := by decide +kernel

theorem witness_MailboxesAnswer :
    dev.mailboxServes 0 1 = true ∧ SMap.wf dev.ports.cxlLogs = true ∧ SMap.find dev.bay.ldTenant 0 = some 1
    ∧ dev.mailboxServes 0 0 = true ∧ dev.lines.poisonOverflow = false ∧ dev.lines.poison = [] ∧ 0 ≤ dev.maxPoisonList
    ∧ SMap.wf (SMap.findD dev.ports.lsa 0 []) = true ∧ 131071 + 1 ≤ 131072 ∧ (131072 : Nat) < 131072 + 1
    ∧ dev.hostServes 0 = true ∧ 1 < dev.getF F.PT_CFG.LD_COUNT 0 := by decide +kernel

/-! Link messages. -/

theorem witness_GatedMessagesActOrAreRefused :
    let h (claim : Nat) := hdr 0 0 claim (2 * 2 ^ 36)
    let down := power (fun p => { p with state := 16 }) dev
    let bare : State := { dev with cipher := {} }
    (RegsOrdered dev ∧ (h 0).port < 96 ∧ dev.linkServes (h 0) = true ∧ (h 0).dst = dev.devId)
    ∧ (h 5).claim < dev.gateRecord 2 ∧ (dev.gateRecord 2 ≤ (h 7).claim ∧ (dev.entry 2).claim < (h 7).claim)
    ∧ (dev.gateRecord 2 ≤ (h 6).claim ∧ (h 6).claim ≤ (dev.entry 2).claim ∧ dev.power.state < 16
      ∧ dev.keyLoaded (dev.tenantOf 2) = true)
    ∧ (16 ≤ down.power.state ∧ down.linkServes (h 6) = true ∧ down.gateRecord 2 ≤ (h 6).claim)
    ∧ (bare.keyLoaded (bare.tenantOf 2) = false ∧ bare.linkServes (h 6) = true)
    ∧ ¬((h 6).src = dev.twinId ∧ dev.isPair 2 = true ∧ dev.isActive 2 = false)
    ∧ ((∀ x ∈ ([(4, 8)] : List (Nat × Nat)), dev.gateRecord x.1 ≤ x.2 ∧ x.2 ≤ (dev.entry x.1).claim) ∧ dev.twin.st = .paired
      ∧ dev.twin.taking = none ∧ dev.image.change = none) := by decide +kernel

theorem witness_AnswersAndNewsOfOtherDevicesAct :
    let h (st : Nat) := hdr 0 st 0 (2 ^ 37)
    let store := req 0 (.write 1 0 false) (2 ^ 37) (.storing false true false 3)
    let stay := req 0 (.write 1 0 false) (2 ^ 37) (.refused true false 3)
    let fwd := req 0 .read (2 ^ 38) (.forwarded 1 4 3 0)
    let rep := req 0 .read (2 ^ 37) (.repairing 3 0)
    let a := withReqs [store] dev
    let r := withReqs [rep] dev
    (RegsOrdered dev ∧ (h 0).port < 96 ∧ a.linkServes (h 0) = true ∧ (h 0).dst = a.devId
      ∧ a.twin.mirrorOut.find? (fun x => x.1 == 3) = none ∧ a.twin.fenced = false
      ∧ a.bay.reqs.find? (fun r => match r.st with | .storing _ true _ t => t == 3 | _ => false) = some store)
    ∧ ((withReqs [stay] dev).req stay.id = some stay ∧ stay.st = .refused true false 3)
    ∧ ((withReqs [fwd] dev).forwardedReq (h 3) = some fwd ∧ reqTile fwd = false ∧ (withReqs [fwd] dev).twin.st ≠ .isolated)
    ∧ (r.lines.copyBack = [] ∧ rep.st = .repairing 3 0 ∧ r.lines.rmwRepair = [] ∧ r.stripe.heals = []
      ∧ r.bay.reqs.find? (fun r => match r.st with | .repairing t _ => t == 3 | _ => false) = some rep) := by decide +kernel

theorem witness_AnswersAndNewsOfOtherDevicesAct_twin :
    let copies (l : List (Nat × Nat)) := twin (fun t => { t with st := .feeding, copyOut := l }) dev
    let g := twin (fun t => { t with group := some (group 4) }) dev
    let re := twin (fun t => { t with st := .rejoining }) dev
    (∀ l ∈ ([[(3, 2 ^ 25)], [(3, 2 ^ 25), (4, 2 ^ 25 + 255)]] : List (List (Nat × Nat))),
      (copies l).twin.copyOut.find? (fun x => x.1 == 3) = some (3, 2 ^ 25) ∧ (copies l).twin.st = .feeding)
    ∧ (g.twin.group = some (group 4) ∧ (group 4).active = true ∧ (group 4).step = 4 ∧ (group 4).bolts = [2])
    ∧ (dev.twin.st = .paired ∧ dev.twin.group = none ∧ [2, 4].filter dev.isActive ≠ [])
    ∧ (re.twin.st = .rejoining ∧ re.linkServes (hdr 0 0 0 0) = true)
    ∧ (dev.twin.full = false ∧ dev.twin.copyBuilt = false ∧ (hdr 0 2 0 0).status ≠ 0) := by decide +kernel

theorem witness_AnswersAndNewsOfOtherDevicesAct_time :
    let s : State := { power (fun p => { p with state := 13 }) dev with
      time := { dev.time with syncSent := some 7, dtSet := false } }
    let odd := fields [(F.BL_DEVICE_ID.DEVICE_ID, 0, 1), (F.BL_ROUTE.PRIMARY_PORT, 0, 4)] dev
    (RegsOrdered s ∧ s.linkServes (hdr 0 0 0 0) = true ∧ (hdr 0 0 0 0).dst = s.devId ∧ s.time.syncSent = some 7
      ∧ s.power.state = 13 ∧ s.time.dtSet = false)
    ∧ dev.reachable.foldl min dev.devId = dev.devId
    ∧ (RegsOrdered odd ∧ odd.reachable.foldl min odd.devId = 0 ∧ 0 ≠ odd.devId ∧ odd.getF F.BL_ROUTE.PRIMARY_PORT 0 < 96
      ∧ odd.portUp (odd.getF F.BL_ROUTE.PRIMARY_PORT 0) = true)
    ∧ (dev.linkServes (hdr 1 0 0 0) = true ∧ (hdr 1 0 0 0).dst ≠ dev.devId ∧ 1 < (hdr 1 0 0 0).hops
      ∧ dev.ctlPort 1 = some 4) := by decide +kernel

/-! Images. -/

/-- A port of an image. -/
def pport (pers module : Nat) : PortPanel :=
  { personality := pers, width := 1, maxRate := 5, ldCount := 1, mgmtEn := false, mgmtLd := 0, module := module }

/-- A panel of an image. -/
def panel (ty inst : Nat) (b : PanelBody) : Panel :=
  { ty := ty, func := (panelFunc ty).getD 0, inst := inst, inside := true, hdrCrcOk := true, bodyCrcOk := true, body := b }

/-- The ports of a quad: HOST, TWIN, CASC, MEDIA with modules 0 to 3, none, TWIN. -/
def quadOf (q : Nat) : List PortPanel :=
  match q with
  | 0 => [pport 1 0, pport 0 0, pport 0 0, pport 0 0]
  | 1 | 5 => [pport 2 0, pport 0 0, pport 0 0, pport 0 0]
  | 2 => [pport 3 0, pport 0 0, pport 0 0, pport 0 0]
  | 3 => [pport 4 0, pport 4 1, pport 4 2, pport 4 3]
  | _ => [pport 0 0, pport 0 0, pport 0 0, pport 0 0]

/-- An image of device 0 of a bay of two, with `spare` spare rows a group. -/
def image (svn spare : Nat) : Image := {
  magicOk := true, format := 1, length := 8192, version := BitVec.ofNat 64 (16 + spare), svn := svn, code := 0, keyId := 0,
  dirOff := 256, pubHash := 5#384, sigOk := true,
  panels := [
    panel 0x01 0 (.device 0), panel 0x11 0 (.media [(1, 2, 3, 100000000)]),
    panel 0x20 0 (.dram { channels := 8, x8 := false, density := 1, stack := 0, pranks := 0, speed := 48, am := 0 }),
    panel 0x30 0 (.flash {
      channels := 6, jesd := false, rate := 16, targets := 1, luns := 1, diesPerChannel := 1, pageUser := 16384,
      pageSpare := 2048, planes := 1, blocksPerChannel := 8, rawTib := 1, ratedPe := 1000, retryEntries := 2, readLimit := 100,
      vccMv := 2500, vccqMv := 1200 }),
    panel 0x40 0 (.stripe { groups := [[0, 1, 2, 3]], pWidth := 4, pSpare := spare, fWidth := 6, pagesPerBlock := 4 }),
    panel 0x41 0 (.tier 2 8 [0, 1]), panel 0x42 0 (.power 3000 0 [1, 2, 3, 4, 5, 6, 7, 8, 9]),
    panel 0x60 0 (.bay 1#64 2#64 0 1 [(1, [0, 1])]),
    panel 0x61 0 (.route [{ primary := 127, alt := 127, hops := 0, altHops := 0 }, { primary := 4, alt := 20, hops := 1, altHops := 1 }] [])]
    ++ (List.range 24).map (fun q => panel 0x10 q (.quad 0 (quadOf q)))
    ++ (List.range 6).map (fun c => panel 0x50 c (.engine 1000 [true]))
    ++ (List.range 8).map (fun g => panel 0x51 g (.crown 800)) }

/-- The device with the image running from slot 0, a second image in slot 1, and the fallback slot 2. -/
def booted (svn : Nat) : State :=
  let s := fields [(F.IS_BOOT.BOOT_SLOT, 0, 0), (F.IS_BOOT.FALLBACK_SLOT, 0, 2)] dev
  { s with
    otp := { s.otp with gwHash := some 5#384 },
    image := { s.image with
      running := some (image 3 1),
      slots := [(0, { st := 1, code := 0, step := 0, img := some (image 3 1) }),
        (1, { st := 1, code := 0, step := 0, img := some (image 3 2) }),
        (2, { st := 1, code := 0, step := 0, img := some (image svn 1) })] } }

theorem witness_ImageCommandsComplete :
    let s := booted 2
    let bad := { image 3 1 with sigOk := false }
    RegsOrdered s ∧ Taken s .mgmt .IS_CMD 0 ∧ s.isSet F.IS_CMD_STATUS.BUSY 0 = false ∧ s.image.change = none
    ∧ (∀ n ∈ ([0, 2] : List Nat), s.slotKept n = true) ∧ (∀ n ∈ ([1, 3] : List Nat), s.slotKept n = false)
    ∧ s.get F.BL_RANGE_LIMIT.BOLTS ≤ boltOfOff (bitsOf (8 * 2 ^ 36) 0 56) ∧ s.bound (boltOfOff (bitsOf (7 * 2 ^ 36) 0 56)) = false
    ∧ boltOfOff (bitsOf (2 * 2 ^ 36) 0 56) < s.get F.BL_RANGE_LIMIT.BOLTS ∧ s.bound (boltOfOff (bitsOf (2 * 2 ^ 36) 0 56)) = true
    ∧ s.verifyImage (image 3 1) = none ∧ s.verifyImage bad = some (2, 12) ∧ s.image.running = some (image 3 1)
    ∧ (s.slot (s.get F.IS_BOOT.FALLBACK_SLOT)).img = some (image 2 1)
    ∧ ((booted 3).slot ((booted 3).get F.IS_BOOT.FALLBACK_SLOT)).img = some (image 3 1) := by decide +kernel

theorem witness_ImageCommandsComplete_changes :
    let s := booted 2
    s.inService = true ∧ s.twin.group = none ∧ s.twin.downWork = [] ∧ s.image.running = some (image 3 1)
    ∧ (s.slot 1).img = some (image 3 2) ∧ (s.slot 1).st = 1 ∧ 1 ≠ s.get F.IS_BOOT.RUN_SLOT
    ∧ diffAllowed (image 3 1) (image 3 2) 9 0 = true ∧ bitsOf 9#64 0 4 = 9 ∧ bitsOf 9#64 4 6 = 0
    ∧ (∀ x ∈ ([(1, 23), (3, 7), (4, 5), (5, 7), (7, 0)] : List (Nat × Nat)),
        x.1 ∈ [1, 3, 4, 5, 7] ∧ x.2 < funcInstances x.1 ∧ bitsOf (word (x.1 + 16 * x.2)) 0 4 = x.1
        ∧ bitsOf (word (x.1 + 16 * x.2)) 4 6 = x.2)
    ∧ Served s .mgmt (accOff .IS_BOOT 0 .full)
    ∧ NoRsv .IS_BOOT .full 0x21#64 ∧ NoRsv .IS_BOOT .full 0x10#64 ∧ NoRsv .IS_BOOT .full 0x33#64 := by decide +kernel

/-- A change of a function. -/
def change (restart : Bool) (cls step : Nat) (rolling pll : Bool) : Change := {
  restart := restart, cls := cls, inst := 0, newSlot := 1, oldSlot := 0, fallback := 2, step := step, since := 0, rolling := rolling,
  pll := pll }

/-- A commit record. -/
def commit (st : Nat) : Commit := {
  seq := 1, state := st, func := 9, inst := 0, oldSlot := 0, newSlot := 1, boot := 0, fallback := 2, oldVersion := 0, newVersion := 0,
  dt := 0 }

theorem witness_ChangesGoThroughTheirSteps :
    let s (c : Change) (l : List EnvmRec) : State :=
      { booted 2 with image := { (booted 2).image with change := some c, envm := l } }
    (∀ r ∈ [true, false], ∀ p ∈ [true, false], (s (change r 3 7 false p) []).image.change = some (change r 3 7 false p)
      ∧ (change r 3 7 false p).cls ≠ 8 ∧ (change r 3 7 false p).step = 7 ∧ (change r 3 7 false p).pll = p
      ∧ (change r 3 7 false p).restart = r)
    ∧ ((change true 3 9 true false).cls ≠ 8 ∧ (change true 3 9 true false).step = 9)
    ∧ (∀ st ∈ ([1, 2, 3, 4, 5] : List Nat), (s (change false 9 4 false false) [.commit (commit st)]).image.envm = [.commit (commit st)])
    ∧ (RegsOrdered (s (change false 9 4 false false) [.wrap 4095])
      ∧ (s (change false 9 4 false false) [.wrap 4095]).image.envm = .wrap 4095 :: [] ∧ (RegsOrdered dev ∧ dev.image.envm = []
      ∧ dev.events.bbWrites = []))
    ∧ (let r : BBRec := { seq := 1, dt := 0, cls := 1, device := 0, state := 14, boot := 1, body := .emergency 1 14 0, torn := false }
       let w : State := { dev with events := { dev.events with bbWrites := [r] } }
       RegsOrdered w ∧ w.image.envm = [] ∧ w.events.bbWrites = r :: [])
    ∧ (change false 3 7 false false).pll = false ∧ (255 : Nat) < 256
    ∧ dev.inService = true ∧ (∀ k ∈ ([126, 136] : List Nat), k ≤ 136 ∧ 126 ≤ k)
    ∧ (∀ x ∈ ([(0, 1, 0), (23, 1, 23), (24, 2, 0), (55, 2, 7), (125, 4, 5)] : List (Nat × Nat × Nat)),
        x.1 ≤ 136 ∧ islandFunc x.1 = some x.2) := by decide +kernel

theorem witness_ChangesGoThroughTheirSteps_back :
    let c := change true 3 9 true false
    let s : State := { booted 2 with image := { (booted 2).image with change := some c, envm := [] } }
    s.image.change = some c ∧ c.cls ≠ 8 ∧ c.step = 9 ∧ c.rolling = true ∧ c.restart = true ∧ s.image.envm = []
    ∧ (change true 2 7 false false).cls = 2 ∧ (change true 2 7 false false).inst = 0
    ∧ ([0] : List Nat).any (fun x => x / 4 == 0 && populated.isSet F.DC_CFG.POP x) = true := by decide +kernel

/-! Keys and cipher. -/

theorem witness_KeyCommandsAndCipherFaultsComplete :
    let s := dev.setReg .XT_KEY_DATA 0 7#64
    let k : KeySlot := { st := .loaded, tenant := 1, key1 := 1, key2 := 2 }
    (RegsOrdered s ∧ Taken s .mgmt .XT_CMD 0 ∧ Taken s (.host 0 0) .XT_CMD 0 ∧ s.isSet F.XT_CMD_STATUS.BUSY 0 = false)
    ∧ (s.bay.tenants.contains (bitsOf 2#64 0 12) = true ∧ s.keySlot 2 = none ∧ s.keyData 0 ≠ s.keyData 4 ∧ s.freeKey = some 1
      ∧ dev.keyData 0 = dev.keyData 4 ∧ s.keySlot 1 = some (0, k) ∧ k.st ≠ .lost ∧ s.bay.tenants.contains 4095 = false)
    ∧ (s.keyAt 0).st ≠ .empty ∧ (s.keyAt 4095).st = .empty ∧ (255 : Nat) < 256 ∧ (4095 : Nat) < 4096 := by decide +kernel

/-- The device with `n` faults of the last core of lane 23 in its window, and a frame whose write is tried again. -/
def cores (n : Nat) : State :=
  { dev with cipher := { dev.cipher with coreFaults := [(383, List.replicate n 1000000000)], retries := [7] } }

theorem witness_KeyCommandsAndCipherFaultsComplete_cores :
    let times (u : State) := (SMap.findD u.cipher.coreFaults (23 * 16 + 15) []).filter
      (fun t => decide (max u.now 0 < t + 86400000000000)) ++ [max u.now 0]
    (RegsOrdered (cores 0) ∧ (23 : Nat) < 24 ∧ (times (cores 0)).length < max 1 ((cores 0).get F.XT_CTL.FAULT_LIMIT)
      ∧ max 1 ((cores 99).get F.XT_CTL.FAULT_LIMIT) ≤ (times (cores 99)).length)
    ∧ (cores 0).cipher.retries.contains 7 = true ∧ dev.cipher.retries.contains 7 = false
    ∧ SMap.has ({ dev with lines := { dev.lines with running := [(7, 3)] } } : State).lines.running 7 = true := by decide +kernel

/-! Power. -/

/-- The device in a power state: whether its work has begun, whether it holds PSYNC, and a command low that is due. -/
def pw (st : Nat) (begun holding : Bool) (cmd : Option CmdLow) (high : Bool) : State :=
  power (fun p => { p with state := st, begun := begun, holding := holding, cmd := cmd, psyncHigh := high }) dev

/-- What the work of a state met: nothing bad. -/
def res (railsOk : Bool) : WorkRes := {
  railsOk := railsOk, trainFailed := [], recoat := [], lunFailed := [], noLun := [], modules := [], resync := [], mountRootOk := true,
  orphans := false, unwrapFailed := [], tornFound := false, healthOk := true, portsTrained := [], saveBad := [] }

theorem witness_PowerStatesFollowPsync :
    (∀ st ∈ ([1, 14, 31] : List Nat), ∀ c ∈ [none, some CmdLow.turn, some .loop, some .reset],
      RegsOrdered (pw st true false c false) ∧ (pw st true false c false).power.holding = false
      ∧ (pw st true false c false).power.psyncHigh = false ∧ (pw st true false c false).power.state = st
      ∧ (pw st true false c false).power.cmd = c)
    ∧ (∀ x ∈ ([(1, 31), (2, 30), (7, 25), (8, 23), (9, 21), (11, 21), (12, 19), (14, 19), (15, 14), (19, 14)] : List (Nat × Nat)),
        (pw x.1 true false (some .turn) true).power.cmd = some .turn ∧ (pw x.1 true false (some .turn) true).power.psyncHigh = true
        ∧ (pw x.1 true false (some .turn) true).power.state = x.1
        ∧ (x.1 = 1 ∧ x.2 = 31 ∨ (2 ≤ x.1 ∧ x.1 ≤ 7 ∧ x.2 = 32 - x.1) ∨ (x.1 = 8 ∧ x.2 = 23) ∨ (9 ≤ x.1 ∧ x.1 ≤ 11 ∧ x.2 = 21)
           ∨ (12 ≤ x.1 ∧ x.1 ≤ 14 ∧ x.2 = 19) ∨ (15 ≤ x.1 ∧ x.1 ≤ 19 ∧ x.2 = 14)))
    ∧ ((pw 21 true false (some .loop) true).power.state = 21 ∧ (pw 21 true false (some .loop) true).power.cmd = some .loop
      ∧ (pw 21 true false (some .loop) true).power.psyncHigh = true)
    ∧ ((pw 31 true false (some .reset) true).power.cmd = some .reset ∧ (pw 31 true false (some .reset) true).power.psyncHigh = true)
    ∧ (∀ st ∈ ([1, 2, 7, 8, 9, 10, 11, 12, 13, 15, 16, 18, 19, 20, 21, 31] : List Nat), (pw st true true none false).power.begun = true
        ∧ (pw st true true none false).power.holding = true ∧ (pw st true true none false).power.state = st)
    ∧ (∀ ok ∈ [true, false], (res ok).railsOk = ok)
    ∧ (pw 13 true true none false).pairReady = true ∧ (pw 16 true true none false).twin.group = none
    ∧ ({ pw 20 true true none false with twin := { dev.twin with st := .yielded } } : State).twin.st = .yielded := by decide +kernel

theorem witness_PowerStatesFollowPsync_bounds :
    (∀ st ∈ ([1, 8] : List Nat), (onRails st).all (fun n => (pw st true true none false).railLive n) = false)
    ∧ (∀ st ∈ ([0, 9, 31] : List Nat), ¬(1 ≤ (pw st true true none false).power.state ∧ (pw st true true none false).power.state ≤ 8)
        ∧ (pw st true true none false).power.psyncHigh = false ∧ (pw st true true none false).power.holding = true)
    ∧ (∀ st ∈ ([1, 13, 14, 18, 19, 31] : List Nat), ∀ c ∈ [none, some CmdLow.turn],
        (pw st true false c false).power.psyncHigh = false ∧ (pw st true false c false).power.holding = false
        ∧ (pw st true false c false).power.cmd = c ∧ (pw st true false c false).power.state = st)
    ∧ RegsOrdered dev ∧ dev.power.holding = true ∧ (pw 14 true false none false).power.holding = false ∧ dev.power.cmd = none
    ∧ dev.power.cause ≠ 6 := by decide +kernel

/-- The device with a live rail at a level. -/
def railed (n level mv : Nat) : State := dev.putRail n { mv := mv, level := level, enabled := true }

theorem witness_RailsRequestsAndClocksAct :
    (∀ n ∈ ([1, 10] : List Nat), n < 11 ∧ dev.railLive n = false) ∧ (∀ n ∈ ([0, 1, 10] : List Nat),
      (railed n 1 0).railLive n = true ∧ n ≠ 3)
    ∧ (let t := power (fun p => { p with throttle := true }) dev
       t.power.throttle = true ∧ t.anyWarning = false
       ∧ ({ t with power := { t.power with rails := [(2, { level := 1, enabled := true })] } } : State).anyWarning = true
       ∧ RegsOrdered t)
    ∧ (let m (l n : Nat) : Meter := ⟨l, n, n, n, n⟩
       ∀ l ∈ ([0, 1, 2] : List Nat), (m l 2).level ≤ 2 ∧ (m l 2).level = l ∧ 2 ≤ (m l 2).overFault ∧ 2 ≤ (m l 2).inWarn
         ∧ (m l 0).overFault < 2 ∧ (m l 0).overWarn < 2 ∧ (m l 0).inWarn < 2 ∧ (m l 0).inFault < 2)
    ∧ (let m : Meter := ⟨0, 2, 0, 0, 0⟩
       m.level = 0 ∧ m.overFault < 2 ∧ 2 ≤ m.overWarn)
    ∧ (let z := power (fun p => { p with state := 0 }) dev
       RegsOrdered z ∧ z.power.state = 0)
    ∧ (let z : State := { dev with lines := { dev.lines with storeZero := true } }
       dev.power.pfFail = false ∧ dev.lines.storeZero = false ∧ dev.power.pfWarn = false ∧ z.lines.storeZero = true
       ∧ dev.inService = true ∧ dev.power.holding = true ∧ RegsOrdered dev)
    ∧ (let z (a b : Bool) := power (fun p => { p with state := 0, pwrReq := a, supply := b }) dev
       (z true false).power.state = 0 ∧ (z true false).power.holding = true ∧ (z true false).power.pwrReq = true
       ∧ (z true false).power.waitToggle = false ∧ (z true false).power.pfFail = false ∧ (z false true).power.supply = true)
    ∧ (10 ≤ dev.power.state ∧ dev.power.state ≤ 20 ∧ 2999 < dev.get F.PW_ENERGY_DECL.USABLE_J
      ∧ dev.get F.PW_ENERGY_DECL.USABLE_J ≤ 3000)
    ∧ (power (fun p => { p with state := 8 }) dev).power.state < 9
    ∧ (∀ st ∈ ([6, 25] : List Nat), 5 < (pw st true true none false).power.state ∧ (pw st true true none false).power.state ≤ 25)
    ∧ dev.power.mgmtUp = true ∧ (power (fun p => { p with mgmtUp := false }) dev).power.mgmtUp = false := by decide +kernel

/-! Events and the test port. -/

theorem witness_EventPointersTimersAndCapturesAct :
    let e : State := { dev with events := { dev.events with unread := 3, head := 4094, tail := 1 } }
    (RegsOrdered e ∧ (∀ w ∈ [AccW.full, .lo], Served e .mgmt (accOff .BB_EV_PTR 0 w) ∧ w ≠ .hi
        ∧ NoRsv .BB_EV_PTR w 1#64 ∧ NoRsv .BB_EV_PTR w 2#64)
      ∧ (bitsOf 1#64 0 12 + 4096 - e.events.head) % 4096 ≤ e.events.unread
      ∧ e.events.unread < (bitsOf 2#64 0 12 + 4096 - e.events.head) % 4096)
    ∧ (∀ due ∈ [true, false],
        let c (st : Nat) : State := { dev with events := { dev.events with coalesce := [(96, (st, due))] } }
        SMap.find (c 0).events.coalesce 96 = some (0, due) ∧ 0 + (c 0).coalesceNs ≤ max (c 0).now 0
        ∧ max (c 1000000000).now 0 < 1000000000 + (c 1000000000).coalesceNs)
    ∧ (∀ st ∈ ([11, 20] : List Nat), (pw st true true none false).events.health.length = 16
        ∧ 11 ≤ (pw st true true none false).power.state ∧ (pw st true true none false).power.state ≤ 20)
    ∧ ((pw 10 true true none false).power.state < 11 ∧ 20 < (pw 21 true true none false).power.state)
    ∧ (let w := fields [(F.TM_CAPTURE_CTL.GPIO, 0, 5), (F.TM_CAPTURE_CTL.EDGE, 0, 1)] dev
       RegsOrdered w ∧ w.watches 5 true = true ∧ w.watches 5 false = false ∧ w.time.captureUnread = false
       ∧ ({ w with time := { w.time with captureUnread := true } } : State).watches 5 true = true) := by decide +kernel

theorem witness_TestPortInstructionsScan :
    let b := ((pw 8 true true none false).putRail 9 { enabled := true }).putRail 10 { enabled := true }
    let t : State := { b with power := { b.power with testMode := true } }
    let z := pw 0 true true none false
    let on (s : State) : State := { s with jtag := { s.jtag with nvmOn := true } }
    t.jtag.nvmOn = false ∧ t.boardTest = true ∧ dev.boardTest = false ∧ dev.jtag.nvmOn = false
    ∧ dev.power.state ≠ 0 ∧ (on z).jtag.nvmOn = true ∧ z.power.state = 0 ∧ z.jtag.nvmOn = false
    ∧ (let r := (State.putRail { dev with jtag := { dev.jtag with busy := true } } 1 { enabled := true })
       r.jtag.busy = true ∧ (r.rail 1).enabled = true)
    ∧ z.otp.custHash = none ∧ z.otp.gwHash = none
    ∧ ({ z with otp := { z.otp with custHash := some 1, gwHash := some 2 } } : State).otp.custHash ≠ none
    ∧ ({ z with otp := { z.otp with custHash := some 1, gwHash := some 2 } } : State).otp.gwHash ≠ none := by decide +kernel

/-! For each check of WellFormed.lean a command at the end of its range, which it takes, and one past it, which it refuses. -/

/-- A place in DRAM. -/
def loc (ch sub prank : Nat) : DramLoc := { ch := ch, sub := sub, prank := prank, lrank := 0, bg := 0, ba := 0, row := 0, cb := 0 }

/-- A pair of commands, of which only the first is well formed. -/
abbrev Parts (a b : Instr) : Prop := a.wellFormed = true ∧ b.wellFormed = false

theorem test_ill_formed_numbers_are_refused :
    (∀ f ∈ ([fun n => .linkDown n 0, fun n => .registerWrite (.host n 0) 0 .full 0 0, fun n => .eventCoalesceTimer (some n) 0]
        : List (Nat → Instr)), Parts (f 95) (f 96))
    ∧ Parts (.functionLevelReset 0 15 0) (.functionLevelReset 0 16 0)
    ∧ Parts (.leaseLapse (2 ^ 64 - 1)) (.leaseLapse (2 ^ 64))
    ∧ Parts (.registerWrite .mgmt (2 ^ 26 - 1) .full 0 0) (.registerWrite .mgmt (2 ^ 26) .full 0 0)
    ∧ Parts (.memRd 0 0 65535 0 0) (.memRd 0 0 65536 0 0)
    ∧ Parts (.routeDrainDone 63 0) (.routeDrainDone 64 0)
    ∧ Parts (.destageAgeExpiry (2 ^ 50 - 1) 0) (.destageAgeExpiry (2 ^ 50) 0)
    ∧ Parts (.cipherWriteRetry (2 ^ 44 - 1) 0) (.cipherWriteRetry (2 ^ 44) 0)
    ∧ Parts (.moduleRequestTimeout 0 0 (some (2 ^ 44 - 1)) 0) (.moduleRequestTimeout 0 0 (some (2 ^ 44)) 0)
    ∧ Parts (.migrationCopyDone (2 ^ 36 - 1) 0) (.migrationCopyDone (2 ^ 36) 0)
    ∧ Parts (.quotaSet (hdr 0 0 0 0) 4095 2 0 0) (.quotaSet (hdr 0 0 0 0) 4096 2 0 0)
    ∧ Parts (.wayCleanDone 15 0) (.wayCleanDone 16 0)
    ∧ Parts (.requestAgeExpiry 63 0 0) (.requestAgeExpiry 64 0 0)
    ∧ Parts (.refreshDue 31 false 0) (.refreshDue 32 false 0)
    ∧ Parts (.contextLoadDone 4194303 0) (.contextLoadDone 4194304 0)
    ∧ Parts (.layerStart 47 0) (.layerStart 48 0)
    ∧ Parts (.engineHwFault 0 15 0) (.engineHwFault 0 16 0)
    ∧ Parts (.floatSwapCheck 31) (.floatSwapCheck 32)
    ∧ Parts (.rebuildUnitDone 63 0 false 0) (.rebuildUnitDone 64 0 false 0)
    ∧ Parts (.stripeWriteDone 63 (2 ^ 32 - 1) 0) (.stripeWriteDone 64 0 0)
    ∧ Parts (.stripeWriteDone 0 (2 ^ 32 - 1) 0) (.stripeWriteDone 0 (2 ^ 32) 0) := by decide +kernel

theorem test_ill_formed_fields_are_refused :
    Parts (.railSample 10 65535 false 2047 0) (.railSample 11 0 false 0 0)
    ∧ (.railSample 0 65536 false 0 0 : Instr).wellFormed = false ∧ (.railSample 0 0 false 2048 0 : Instr).wellFormed = false
    ∧ Parts (.gpioEdge 15 true 0) (.gpioEdge 16 true 0)
    ∧ Parts (.trowelPeriodEnd 2 0) (.trowelPeriodEnd 3 0)
    ∧ Parts (.retrainPause 0 0 255 39 [] 0) (.retrainPause 0 0 0 40 [] 0)
    ∧ (.retrainPause 0 0 256 0 [] 0 : Instr).wellFormed = false
    ∧ Parts (.cipherParityFault 23 15 0 false false 15 0) (.cipherParityFault 24 0 0 false false 0 0)
    ∧ (.cipherParityFault 0 16 0 false false 0 0 : Instr).wellFormed = false
    ∧ Parts (.pllLockLoss 136 0) (.pllLockLoss 137 0)
    ∧ Parts (.getEventRecords 0 0 3) (.getEventRecords 0 0 4)
    ∧ Parts (.envmRead (2 ^ 24 - 8) true 0) (.envmRead (2 ^ 24) true 0) ∧ (.envmRead 4 true 0 : Instr).wellFormed = false
    ∧ Parts (.mgmtLinkTrained 6 0) (.mgmtLinkTrained 7 0)
    ∧ Parts (.creditReturn 0 2 1 0) (.creditReturn 0 3 1 0)
    ∧ Parts (.csStep .mgmt 0 0 0 65535 0) (.csStep .mgmt 0 0 0 65536 0)
    ∧ Parts (.userKernelFault 0 255 0 0) (.userKernelFault 0 256 0 0)
    ∧ Parts (.fwdRd (hdr 0 0 0 0) 64 0) (.fwdRd (hdr 0 0 0 0) 65 0) ∧ (.fwdRd (hdr 0 0 0 0) 0 0 : Instr).wellFormed = false
    ∧ Parts (.fwdData (hdr 0 0 0 0) 0 (List.replicate 64 0) 0) (.fwdData (hdr 0 0 0 0) 0 (List.replicate 65 0) 0)
    ∧ Parts (.getLsa 0 0 131071 1) (.getLsa 0 0 131072 1) := by decide +kernel

theorem test_ill_formed_bodies_are_refused :
    let h := hdr 63 255 (2 ^ 64 - 1) (2 ^ 56 - 1)
    let f := frame 1 false 0
    let e := ent 3 1 4095 0
    let hello : Hello := { bayId := 0, deviceId := 63, port := 95, personality := 4, version := 0, dirtyCount := 0 }
    let d : Hdm := { base := 0, size := 2 ^ 64 - 1, dpa := 0, waysLog2 := 4, granLog2 := 6 }
    let t : Train := { flit := true, rate := 6, lanes := 16, reversed := false, polarity := 0 }
    let m : ModuleInfo := { memDevice := true, capGib := 16, vid := 65535, did := 65535, fw := 0, hdmOk := true, dirtyCount := 0 }
    let b : Burst := { poisonPat := false, errs := [] }
    (∀ x ∈ [hdr 64 0 0 0, hdr 0 256 0 0, hdr 0 0 (2 ^ 64) 0, hdr 0 0 0 (2 ^ 56), { h with port := 96 }, { h with src := 64 },
        { h with hops := 256 }, { h with tag := 2 ^ 32 }], Parts (.fwdCmp h 0) (.fwdCmp x 0))
    ∧ (∀ x ∈ [{ f with ty := 16 }, { f with sender := 64 }, { f with auditBolt := 2 ^ 20 }, { f with periodUs := 16384 }],
        Parts (.plumbFrameRx f 0) (.plumbFrameRx x 0))
    ∧ (∀ x ∈ [{ e with durability := 4 }, { e with activeSide := 2 }, { e with access := 4 }, { e with pairId := 32 },
        { e with tenant := 4096 }, { e with dCap := 65536 }, { e with seq := 2 ^ 32 }], Parts (.boltUpdate h e 0) (.boltUpdate h x 0))
    ∧ (∀ x ∈ [{ hello with deviceId := 64 }, { hello with port := 96 }, { hello with personality := 5 }],
        Parts (.linkHello 0 hello 0) (.linkHello 0 x 0))
    ∧ (∀ x ∈ [{ d with size := 2 ^ 64 }, { d with dpa := 2 ^ 56 }, { d with waysLog2 := 5 }, { d with granLog2 := 7 }],
        Parts (.hdmCommit 0 0 d 0) (.hdmCommit 0 0 x 0))
    ∧ (∀ x ∈ [loc 32 0 0, loc 0 2 0, loc 0 0 4], Parts (.pprRepairDone 0 (loc 31 1 3) true 0) (.pprRepairDone 0 x true 0)
        ∧ Parts (.crownFillDone 0 (.tierD (loc 31 1 3) b) 0) (.crownFillDone 0 (.tierD x b) 0)
        ∧ Parts (.trowelReadDone (.d none (loc 31 1 3) b) 0) (.trowelReadDone (.d none x b) 0))
    ∧ Parts (.trowelReadDone (.p 63 0 none none) 0) (.trowelReadDone (.p 64 0 none none) 0)
    ∧ (∀ x ∈ [{ t with rate := 7 }, { t with lanes := 17 }], Parts (.linkTrained 0 t 0) (.linkTrained 0 x 0)
        ∧ Parts (.trainRetry 0 (some t) 0) (.trainRetry 0 (some x) 0))
    ∧ (∀ x ∈ [{ m with vid := 65536 }, { m with did := 65536 }], Parts (.moduleHotAdd 0 m 0) (.moduleHotAdd 0 x 0)
        ∧ Parts (.rescan .mgmt 0 none (some m) 0) (.rescan .mgmt 0 none (some x) 0)) := by decide +kernel

/-! Tests: the worked examples and tables of the spec, and single commands. -/

/-- 15 Table 15.2; 09 Table 9.2: SET_SQ with SQ_TAIL 2. -/
theorem test_address_decode :
    regAt 0x00C2F010 = some (.PT_STATUS, 47) ∧ regAt 0x00848008 = some (.DC_STATUS, 18) ∧ regAt 0x00BC0008 = some (.EN_AVAIL, 0)
    ∧ (let s := queues (fun q => { q with table := [(65539, que false .running)], contexts := [65539] }) dev
       after (.registerWrite .mgmt 0x02080018 .full 0x10002#64 0) s
         (fun t => (SMap.find t.queues.table 65539).any (fun x => x.sqTail == 2)) = true) := by decide +kernel

/-- The device of 02 Table 2.5. -/
def memoryTester : State :=
  let s := fields [
    (F.PW_ENERGY_DECL.USABLE_J, 0, 1100), (F.PW_ENERGY_DECL.FIXED_J, 0, 180), (F.PW_ENERGY_DECL.SAVE_AREA_GIB, 0, 1024),
    (F.PW_DIRTY_BUDGET.BUDGET_GIB, 0, 512)] dev
  { s with lines := { s.lines with saveRate := 240000000000 } }

/-- 02 Table 2.5. -/
theorem test_budget_limits :
    memoryTester.limitGib = 685 ∧ memoryTester.saveLimitGib = 895
    ∧ after (.pwDirtyBudgetWrite .mgmt .full 1024#64 0) memoryTester
        (fun t => t.effGib == 512 && t.get F.PW_PERSIST_STATUS.BUDGET_REFUSED == 1) = true
    ∧ after (.pwDirtyBudgetWrite .mgmt .full 640#64 0) memoryTester
        (fun t => t.effGib == 640 && t.get F.PW_PERSIST_STATUS.BUDGET_REFUSED == 0) = true := by decide +kernel

/-- 06 Table 6.6: the fields of line 5 of D block 0x6026_93ED. -/
theorem test_dram_address_fields :
    let b : DramBuild := { channels := 32, x8 := false, density := 2, stack := 2, pranks := 0, speed := 64, am := 3 }
    let s := dev.applyDram b
    let f (x : AddrField) : Nat := amField s.pieces x (0x602693ED * 64 + 5)
    f .cb = 69 ∧ f .sc = 1 ∧ f .ch = 26 ∧ f .bg = 5 ∧ f .ba = 3 ∧ f .rk = 1 ∧ f .row = 0x4D2 := by decide +kernel

/-- 01 R38. -/
theorem test_hop_limits : [1, 2, 3, 4, 5, 6].map hopLimit = [1, 1, 3, 5, 7, 9] := by decide

/-- 11 Table 11.8: 104 B and 32 B with the header. -/
theorem test_message_lengths :
    32 + payloadLen (.mirrorWr 0 0) = 104 ∧ 32 + payloadLen .mirrorAck = 32 := by decide

/-- The CRC-32C of the digits 1 to 9 (log entry 6). -/
theorem test_crc32c : crc32c ((List.range 9).map (fun k => BitVec.ofNat 8 (0x31 + k))) = 0xE3069283#32 := by decide +kernel

/-- 03 R100: half of the number circle is later. -/
theorem test_serial_order :
    serialLater 0#32 0xFFFFFFFF#32 = true ∧ serialLater 0x80000000#32 0#32 = false ∧ serialLater 0x7FFFFFFF#32 0#32 = true := by decide

/-- 01 R28: two ways of 256 B; the third granule is the second of this way. -/
theorem test_hdm_interleave :
    let d : Hdm := { base := 2 ^ 40, size := 2 ^ 20, dpa := 2 ^ 36, waysLog2 := 1, granLog2 := 0 }
    hdmOffset d (2 ^ 40 + 512 + 7) = some (2 ^ 36 + 256 + 7) ∧ hdmOffset d (2 ^ 40 + 2 ^ 20) = none ∧ hdmOffset d (2 ^ 40 - 1) = none := by
  decide +kernel

/-- 00 Table 0.4: a write of ones to a W1C field clears what it covers. -/
theorem test_write_one_clears :
    let s := fields [(F.PW_STATUS.RAIL_WARN, 0, 1), (F.PW_STATUS.STEP_FAIL, 0, 1)] dev
    after (.registerWrite .mgmt (Reg.addr .PW_STATUS 0) .full (BitVec.twoPow 64 F.PW_STATUS.STEP_FAIL.lo) 0) s
      (fun t => t.get F.PW_STATUS.STEP_FAIL == 0 && t.get F.PW_STATUS.RAIL_WARN == 1) = true := by decide +kernel

/-- 02 R55, 01 R28: a store writes the bytes that its mask enables. -/
theorem test_store_writes_its_bytes :
    after (.memWr 0 0 9 (2 * 2 ^ 36) 0x81#64 (BitVec.ofNat 512 (0xAA * 2 ^ 56 + 0xBBCC)) 0) dev
      (fun t => readByte t.mem (2 * 2 ^ 36) == 0xCC#8 && readByte t.mem (2 * 2 ^ 36 + 1) == 0#8
        && readByte t.mem (2 * 2 ^ 36 + 7) == 0xAA#8 && readByte t.mem (2 * 2 ^ 36 + 8) == 0#8) = true := by decide +kernel

/-- 01 R30: an address that no decoder takes completes with poison. -/
theorem test_undecoded_read_is_poisoned :
    after (.memRd 0 0 9 (2 ^ 40) 0) dev (fun t => t.out.any (fun o => match o with | .memCmp 0 0 9 false _ p => p | _ => false)) = true := by
  decide +kernel

/-- 05 R157: the successor of 1 under x^32 + x^22 + x^2 + x + 1, shifting left (log entry 10). -/
theorem test_victim_lfsr : lfsrStep 1#32 = 3#32 ∧ lfsrStep 0x80000000#32 = 1#32 ∧ lfsrLoad 0 0 = 1#32
    ∧ lfsrLoad 0 2 = 0x3C6EF372#32 := by decide +kernel

/-- 09 Table 9.14, RESET: NOT_PERMITTED for a queue that is RUNNING. -/
theorem test_running_queue_is_not_reset :
    after (.quReset .mgmt 0 0) dev (fun t => t.get F.QU_CMD_STATUS.CODE == 12 && SMap.has t.queues.table 0) = true := by decide +kernel

/-- 10 R305, FIPS 180-4: the digest of "abc". -/
theorem test_sha256 :
    (sha256 [0x61#8, 0x62#8, 0x63#8]).take 4 = [0xBA#8, 0x78#8, 0x16#8, 0xBF#8] := by decide +kernel

/-- 10 R305, RFC 1951: a fixed block of the single byte 0x61, and a stored block of two bytes. -/
theorem test_inflate :
    inflate [0x4B#8, 0x04#8, 0x00#8] = some [0x61#8]
    ∧ inflate [0x01#8, 0x02#8, 0x00#8, 0xFD#8, 0xFF#8, 0x11#8, 0x22#8] = some [0x11#8, 0x22#8]
    ∧ inflate [0x07#8] = none := by decide +kernel

/-- 10 Table 10.8: three fails in row 1, of which column 8 fails twice: one row entry with its count, the rest as bits. -/
theorem test_fail_bitmap_entries :
    let t : Tile := { bytes := [(128, 3#8), (129, 1#8), (257, 1#8)], poison := [] }
    fbcFails t = [(1, 0), (1, 1), (1, 8), (2, 8)]
    ∧ fbcEntries 3 0 t = { rows := [1 + 3 * 2 ^ 11], cols := [], bits := [8 + 2 * 2 ^ 10], fails := 4 }
    ∧ fbcEntries 0 2 t = { rows := [], cols := [8 + 2 * 2 ^ 10], bits := [0 + 1 * 2 ^ 10, 1 + 1 * 2 ^ 10], fails := 4 } := by
  decide +kernel

/-- 10 R305: a PEX script of two words from 5 by −1, and their inverses. -/
theorem test_pattern_script :
    let t : Tile := { bytes := [(0, 2#8), (2, 0xFF#8), (3, 0xFF#8), (4, 2#8), (8, 5#8), (16, 4#8), (20, 2#8)], poison := [] }
    runScript t 0 [] 16 16 = some [5#64, 4#64, ~~~5#64, ~~~4#64] := by decide +kernel

/-- 16 R419: IDCODE 0x1964_8CE7 in the first 32 bits. -/
theorem test_idcode :
    after .idcode dev (fun t => t.out.any (fun o => match o with | .tdo 1 v => v.toNat == 0x19648CE7 | _ => false)) = true := by
  decide +kernel

/-- 13 Table 13.10: TURN in state 19, not begun, leads to state 14. -/
theorem test_turn_in_state_19 :
    after (.turn 0) (pw 19 false false (some .turn) true) (fun t => t.power.state == 14) = true := by decide +kernel

/-- 13 R361: a counted rise enters the next state. -/
theorem test_rise_enters_the_next_state :
    after (.psyncRise 0) (pw 24 true false none false) (fun t => t.power.state == 25) = true
    ∧ after (.psyncRise 0) (pw 31 true false none false) (fun t => t.power.state == 0) = true := by decide +kernel

/-- 13 R369, Table 13.5: VDD_CORE of 750 mV faults beyond 60 ‰ at the third sample in a row; the device goes down from state 14
with a save, and stops in state 16. -/
theorem test_rail_fault :
    let s (st : Nat) := (pw st true true none false).putRail 3 { mv := 750, enabled := true, overFault := 2 }
    after (.railSample 3 796 false 0 0) (s 14) (fun t => t.power.due == 3 && t.power.cause == 0) = true
    ∧ after (.railSample 3 795 false 0 0) (s 14) (fun t => t.power.due == 0) = true
    ∧ after (.railSample 3 796 false 0 0) (s 16) (fun t => t.power.cause == 6) = true := by decide +kernel

/-- 14 worked example: the torn record 200,004 stands in slot 3,396. -/
theorem test_torn_record :
    let r : BBRec := { seq := 200004, dt := 0, cls := 1, device := 0, state := 14, boot := 1, body := .emergency 1 14 0, torn := false }
    let s : State := { dev with events := { dev.events with bbWrites := [r] } }
    after (.envmRecordWritten false 0) s
      (fun t => (SMap.find t.events.bbRing 3396).any (fun x => x.torn && x.seq == 200004)) = true := by decide +kernel

/-- 12 R350: equal key halves are refused with BAD_DESCRIPTOR, another path with NOT_PERMITTED. -/
theorem test_key_load_refused :
    after (.keyLoad .mgmt 2 0) dev (fun t => t.get F.XT_CMD_STATUS.CODE == 7) = true
    ∧ after (.keyLoad (.host 0 0) 2 0) dev (fun t => t.get F.XT_CMD_STATUS.CODE == 12 && t.get F.XT_STATUS.KEY_PATH_DENY == 1) = true := by
  decide +kernel

/-- 12 R330, R356: the running slot is kept, another one is erased. -/
theorem test_image_erase :
    after (.imageErase .mgmt 0 0) (booted 2) (fun t => t.get F.IS_CMD_STATUS.CODE == 12) = true
    ∧ after (.imageErase .mgmt 1 0) (booted 2) (fun t => t.get F.IS_CMD_STATUS.CODE == 0 && (t.slot 1).st == 0) = true := by
  decide +kernel

/-- 12 Table 12.4: the step that an image fails first. -/
theorem test_image_verification :
    let i := image 3 1
    (booted 2).verifyImage { i with magicOk := false, sigOk := false } = some (1, 7)
    ∧ ({ booted 2 with otp := { (booted 2).otp with floor := 4 } } : State).verifyImage i = some (3, 12)
    ∧ (booted 2).verifyImage { i with panels := i.panels.drop 1 } = some (5, 7)
    ∧ (booted 2).verifyImage (image 3 3) = some (6, 12) := by decide +kernel

/-- 16 Table 16.5: cells that hold a hash keep it. -/
theorem test_one_time_cells :
    let s : State := { pw 0 true true none false with otp := { dev.otp with custHash := some 7 } }
    after (.otpKeyhash true 8) s (fun t => t.otp.custHash == some 7) = true
    ∧ after (.otpKeyhash false 8) s (fun t => t.otp.gwHash == some 8) = true := by decide +kernel

/-- 11 R324: a message whose last hop is used up goes no further. -/
theorem test_hop_expiry :
    after (.hopExpiry { hdr 1 0 0 0 with hops := 1 } .mirrorAck) dev (fun t => t.getF F.PT_STATUS.HOP_EXPIRED 4 == 1) = true := by
  decide +kernel

/-- 15 R407: a read of the low half of TM_DT latches the high half. -/
theorem test_device_time_halves :
    let s : State := { dev with time := { dev.time with dt := 5 * 2 ^ 32 + 6 } }
    after (.tmDtRead .mgmt .lo 0) s (fun t => t.time.dtHigh == 5#32) = true := by decide +kernel

/-- 08 R248, R253: a full resync goes on by what the allowance of a window pays for, and ends with the last row. -/
theorem test_full_resync :
    let m : Member := { st := .inService, group := 0, pos := 0, rowsLeft := 0, rowsTotal := 0, cap := 1, rated := 0 }
    let p : State := (State.reset.put F.ST_P_CFG.WIDTH 4).put F.ST_P_CFG.GROUPS 1
    let s : State := { p with
      power := { p.power with state := 14, begun := true }
      tier := { p.tier with pFrames := 40 }
      stripe := { p.stripe with members := [(0, m)], allowance := [(0, 50000)], resyncKind := 2, resyncFull := true } }
    after (.stripeAllowanceWindow [] 5) s (fun t => t.stripe.resyncAt == 12 && t.stripe.resyncFull && bitsOf t.resyncStat 32 7 == 60) = true
    ∧ (s.resyncWindow.resyncWindow).stripe.resyncFull = false := by decide +kernel

/-- 08 R235: bytes 0x80, 0x80 and 0x01 of three data units; 2 · 0x80 is 0x1D, and 4 · 0x01 is 4. -/
theorem test_parity_bytes :
    stripeP 1 [[0x80], [0x80], [0x01]] = [0x01] ∧ stripeQ 1 [[0x80], [0x80], [0x01]] = [0x99] := by decide

/-- 12 R346: AES-256, the example of FIPS 197, C.3. -/
theorem test_aes_block :
    aesBlock (roundKeys (List.range 32)) ((List.range 16).map (fun i => 17 * i)) =
      [0x8E, 0xA2, 0xB7, 0xCA, 0x51, 0x67, 0x45, 0xBF, 0xEA, 0xFC, 0x49, 0x90, 0x4B, 0x49, 0x60, 0x89] := by decide +kernel

/-- 12 R346: the first two blocks of IEEE 1619-2018, vector 10: data unit 0xFF, bytes 0, 1, 2, …; its keys byte 0 first. -/
theorem test_xts_blocks :
    xts 0x2776966649575999699370245777496226357174286053234590452818281827#256
      0x9245947409820551379993169741880295278333646284239397585326594131#256 0xFF (List.range 32) =
      [0x1C, 0x3B, 0x3A, 0x10, 0x2F, 0x77, 0x03, 0x86, 0xE4, 0x83, 0x6C, 0x99, 0xE3, 0x70, 0xCF, 0x9B,
        0xEA, 0x00, 0x80, 0x3F, 0x5E, 0x48, 0x23, 0x57, 0xA4, 0xAE, 0x12, 0xD4, 0x14, 0xA3, 0xE6, 0x3B] := by decide +kernel

end Sys2Proof.Tests
end

section
/-! PROOFS. What every command keeps, for exec as a whole: one case per command, from its lemma under Laws/. -/

namespace Sys2Proof.Proofs

open Sys2Proof Machine Laws

/-- The two commands that may set device time back: AON_RESET and TIME_SYNC (11 R326, 15 R406). -/
def setsTime (c : Instr) : Bool :=
  match c with
  | .aonReset .. | .timeSync .. => true
  | _ => false

section
variable {s0 s t : State}

/-- Every command keeps what `Keeps` says; of the two that set device time this holds from a state whose device time is 0. -/
theorem exec_keeps (c : Instr) (hz : setsTime c = true → s0.time.dt = 0) (h : Keeps s0 s) : XKeeps s0 (exec c s) :=
  match c with
  | .registerWrite .. => keeps_execRegisterWrite h
  | .badSizeAccess .. => keeps_execBadSizeAccess h
  | .memRd .. => keeps_execMemRd h
  | .memWr .. => keeps_execMemWr h
  | .boltCacheMissFill .. => keeps_execBoltCacheMissFill h
  | .heldRequestRetry .. => keeps_execHeldRequestRetry h
  | .holdExpiry .. => keeps_execHoldExpiry h
  | .routeDrainDone .. => keeps_execRouteDrainDone h
  | .bind .. => keeps_execBind h
  | .unbind .. => keeps_execUnbind h
  | .modify .. => keeps_execModify h
  | .blReadEntry .. => keeps_execBlReadEntry h
  | .tenantCreate .. => keeps_execTenantCreate h
  | .tenantDelete .. => keeps_execTenantDelete h
  | .ldAttach .. => keeps_execLdAttach h
  | .blCmdTimeout .. => keeps_execBlCmdTimeout h
  | .dirtySpanWriteDone .. => keeps_execDirtySpanWriteDone h
  | .dirtySpanRetry .. => keeps_execDirtySpanRetry h
  | .dirtySpanClear .. => keeps_execDirtySpanClear h
  | .destageAgeExpiry .. => keeps_execDestageAgeExpiry h
  | .destageFrameDone .. => keeps_execDestageFrameDone h
  | .rmwReadDone .. => keeps_execRmwReadDone h
  | .mergeEntryClose .. => keeps_execMergeEntryClose h
  | .gpfPhase1 .. => keeps_execGpfPhase1 h
  | .gpfPhase2 .. => keeps_execGpfPhase2 h
  | .pwDirtyBudgetWrite .. => keeps_execPwDirtyBudgetWrite h
  | .pwEnergyDeclWrite .. => keeps_execPwEnergyDeclWrite h
  | .pwPoisonCountRead .. => keeps_execPwPoisonCountRead h
  | .heartbeatTimer .. => keeps_execHeartbeatTimer h
  | .plumbSendTimer .. => keeps_execPlumbSendTimer h
  | .plumbFrameRx .. => keeps_execPlumbFrameRx h
  | .heartbeat .. => keeps_execHeartbeat h
  | .yield .. => keeps_execYield h
  | .missDeadline .. => keeps_execMissDeadline h
  | .leaseLapse .. => keeps_execLeaseLapse h
  | .watchdogExpiry .. => keeps_execWatchdogExpiry h
  | .carrierLoss .. => keeps_execCarrierLoss h
  | .carrierPresent .. => keeps_execCarrierPresent h
  | .tFreeReached .. => keeps_execTFreeReached h
  | .selfDiagnosisFail .. => keeps_execSelfDiagnosisFail h
  | .takeoverRecordWritten .. => keeps_execTakeoverRecordWritten h
  | .rotateSlotTimer .. => keeps_execRotateSlotTimer h
  | .handoverDrainDone .. => keeps_execHandoverDrainDone h
  | .rotateWaitTimeout .. => keeps_execRotateWaitTimeout h
  | .handoverTimeout .. => keeps_execHandoverTimeout h
  | .twCmdYield .. => keeps_execTwCmdYield h
  | .declareLost .. => keeps_execDeclareLost h
  | .rotateNow .. => keeps_execRotateNow h
  | .fullRejoin .. => keeps_execFullRejoin h
  | .twMissStatRead .. => keeps_execTwMissStatRead h
  | .decayTimer .. => keeps_execDecayTimer h
  | .migrationCopyDone .. => keeps_execMigrationCopyDone h
  | .quotaWrite .. => keeps_execQuotaWrite h
  | .floatGapMove .. => keeps_execFloatGapMove h
  | .floatSwapCheck .. => keeps_execFloatSwapCheck h
  | .stMigCountRead .. => keeps_execStMigCountRead h
  | .crownFillDone .. => keeps_execCrownFillDone h
  | .wayOffReq .. => keeps_execWayOffReq h
  | .wayOnReq .. => keeps_execWayOnReq h
  | .wayCleanDone .. => keeps_execWayCleanDone h
  | .wayPowerUpDone .. => keeps_execWayPowerUpDone h
  | .crLfsrSeedWrite .. => keeps_execCrLfsrSeedWrite h
  | .crSliceStatRead .. => keeps_execCrSliceStatRead h
  | .crHitStatRead .. => keeps_execCrHitStatRead h
  | .crErrStatRead .. => keeps_execCrErrStatRead h
  | .csStep .. => keeps_execCsStep h
  | .caStep .. => keeps_execCaStep h
  | .dqReadStep .. => keeps_execDqReadStep h
  | .dqWriteStep .. => keeps_execDqWriteStep h
  | .requestAgeExpiry .. => keeps_execRequestAgeExpiry h
  | .retrainPause .. => keeps_execRetrainPause h
  | .refreshRatePoll .. => keeps_execRefreshRatePoll h
  | .refreshDue .. => keeps_execRefreshDue h
  | .pprRepairDone .. => keeps_execPprRepairDone h
  | .softPpr .. => keeps_execSoftPpr h
  | .hardPpr .. => keeps_execHardPpr h
  | .trowelReadDone .. => keeps_execTrowelReadDone h
  | .trowelPeriodEnd .. => keeps_execTrowelPeriodEnd h
  | .dcErrStatRead .. => keeps_execDcErrStatRead h
  | .flashReadDone .. => keeps_execFlashReadDone h
  | .flashProgramDone .. => keeps_execFlashProgramDone h
  | .mapCommitDone .. => keeps_execMapCommitDone h
  | .fineIdleExpiry .. => keeps_execFineIdleExpiry h
  | .checkpointTrigger .. => keeps_execCheckpointTrigger h
  | .checkpointDone .. => keeps_execCheckpointDone h
  | .fullingWindow .. => keeps_execFullingWindow h
  | .eraseDone .. => keeps_execEraseDone h
  | .tempSample .. => keeps_execTempSample h
  | .flFullCtlWrite .. => keeps_execFlFullCtlWrite h
  | .flErrStatRead .. => keeps_execFlErrStatRead h
  | .skimJournalWriteDone .. => keeps_execSkimJournalWriteDone h
  | .stripeWriteDone .. => keeps_execStripeWriteDone h
  | .stripeAllowanceWindow .. => keeps_execStripeAllowanceWindow h
  | .rebuildUnitDone .. => keeps_execRebuildUnitDone h
  | .reshapeStart .. => keeps_execReshapeStart h
  | .reshapePause .. => keeps_execReshapePause h
  | .reshapeResume .. => keeps_execReshapeResume h
  | .reshapeSpanDone .. => keeps_execReshapeSpanDone h
  | .stParityStatRead .. => keeps_execStParityStatRead h
  | .doorbellWrite .. => keeps_execDoorbellWrite h
  | .descriptorFetch .. => keeps_execDescriptorFetch h
  | .copy .. => keeps_execCopy h
  | .fill .. => keeps_execFill h
  | .flush .. => keeps_execFlush h
  | .fence .. => keeps_execFence h
  | .migrate .. => keeps_execMigrate h
  | .pin .. => keeps_execPin h
  | .unpin .. => keeps_execUnpin h
  | .discard .. => keeps_execDiscard h
  | .tileFetch .. => keeps_execTileFetch h
  | .capture .. => keeps_execCapture h
  | .run .. => keeps_execRun h
  | .verify .. => keeps_execVerify h
  | .descriptorDone .. => keeps_execDescriptorDone h
  | .irqCoalesceTimer .. => keeps_execIrqCoalesceTimer h
  | .contextLoadDone .. => keeps_execContextLoadDone h
  | .captureWindowEnd .. => keeps_execCaptureWindowEnd h
  | .windowEndDone .. => keeps_execWindowEndDone h
  | .create .. => keeps_execCreate h
  | .delete .. => keeps_execDelete h
  | .quStart .. => keeps_execQuStart h
  | .quStop .. => keeps_execQuStop h
  | .quStopTimeout .. => keeps_execQuStopTimeout h
  | .quReset .. => keeps_execQuReset h
  | .quReadEntry .. => keeps_execQuReadEntry h
  | .quCtxStatRead .. => keeps_execQuCtxStatRead h
  | .quCapStatRead .. => keeps_execQuCapStatRead h
  | .jobStart .. => keeps_execJobStart h
  | .tileResident .. => keeps_execTileResident h
  | .layerStart .. => keeps_execLayerStart h
  | .layerEnd .. => keeps_execLayerEnd h
  | .layerComplete .. => keeps_execLayerComplete h
  | .fenceDeadline .. => keeps_execFenceDeadline h
  | .kernelCycleLimit .. => keeps_execKernelCycleLimit h
  | .userKernelFault .. => keeps_execUserKernelFault h
  | .engineHwFault .. => keeps_execEngineHwFault h
  | .enCountRead .. => keeps_execEnCountRead h
  | .linkTrained .. => keeps_execLinkTrained h
  | .trainRetry .. => keeps_execTrainRetry h
  | .linkError .. => keeps_execLinkError h
  | .linkDown .. => keeps_execLinkDown h
  | .linkHello .. => keeps_execLinkHello h
  | .linkHelloTimer .. => keeps_execLinkHelloTimer h
  | .hdmCommit .. => keeps_execHdmCommit h
  | .hotReset .. => keeps_execHotReset h
  | .functionLevelReset .. => keeps_execFunctionLevelReset h
  | .identifyMemoryDevice .. => keeps_execIdentifyMemoryDevice h
  | .getSupportedLogs .. => keeps_execGetSupportedLogs h
  | .getLog .. => keeps_execGetLog h
  | .getEventRecords .. => keeps_execGetEventRecords h
  | .clearEventRecords .. => keeps_execClearEventRecords h
  | .getHealthInfo .. => keeps_execGetHealthInfo h
  | .getPoisonList .. => keeps_execGetPoisonList h
  | .getLsa .. => keeps_execGetLsa h
  | .setLsa .. => keeps_execSetLsa h
  | .getTimestamp .. => keeps_execGetTimestamp h
  | .setTimestamp .. => keeps_execSetTimestamp h
  | .getLdInfo .. => keeps_execGetLdInfo h
  | .getLdAllocations .. => keeps_execGetLdAllocations h
  | .setLdAllocations .. => keeps_execSetLdAllocations h
  | .unsupportedMailboxCommand _ _ op => keeps_execUnsupportedMailboxCommand (_op := op) h
  | .moduleHotAdd .. => keeps_execModuleHotAdd h
  | .moduleRequestTimeout .. => keeps_execModuleRequestTimeout h
  | .timeSync .. => keeps_execTimeSync h (hz rfl)
  | .timeSyncTimer .. => keeps_execTimeSyncTimer h
  | .bayState .. => keeps_execBayState h
  | .mirrorWr .. => keeps_execMirrorWr h
  | .mirrorAck .. => keeps_execMirrorAck h
  | .fwdRd .. => keeps_execFwdRd h
  | .fwdWr .. => keeps_execFwdWr h
  | .fwdData .. => keeps_execFwdData h
  | .fwdCmp .. => keeps_execFwdCmp h
  | .ctrlReq .. => keeps_execCtrlReq h
  | .ctrlCmp .. => keeps_execCtrlCmp h
  | .repairRd .. => keeps_execRepairRd h
  | .repairData .. => keeps_execRepairData h
  | .boltUpdate .. => keeps_execBoltUpdate h
  | .boltFetch .. => keeps_execBoltFetch h
  | .quotaSet .. => keeps_execQuotaSet h
  | .handover .. => keeps_execHandover h
  | .handoverAck .. => keeps_execHandoverAck h
  | .handoverReq .. => keeps_execHandoverReq h
  | .rejoinCopy .. => keeps_execRejoinCopy h
  | .rejoinAck .. => keeps_execRejoinAck h
  | .mapXfer .. => keeps_execMapXfer h
  | .unknownMessage _ ty => keeps_execUnknownMessage (_ty := ty) h
  | .hopExpiry .. => keeps_execHopExpiry h
  | .retrain .. => keeps_execRetrain h
  | .prepareRemove .. => keeps_execPrepareRemove h
  | .rescan .. => keeps_execRescan h
  | .ptErrStatRead .. => keeps_execPtErrStatRead h
  | .ptTrafficRead .. => keeps_execPtTrafficRead h
  | .imageLoad .. => keeps_execImageLoad h
  | .imageErase .. => keeps_execImageErase h
  | .change .. => keeps_execChange h
  | .isRestart .. => keeps_execIsRestart h
  | .svnRaise .. => keeps_execSvnRaise h
  | .functionRestartDone .. => keeps_execFunctionRestartDone h
  | .isBootWrite .. => keeps_execIsBootWrite h
  | .pllLockLoss .. => keeps_execPllLockLoss h
  | .keyLoad .. => keeps_execKeyLoad h
  | .keyDelete .. => keeps_execKeyDelete h
  | .keyFind .. => keeps_execKeyFind h
  | .cipherParityFault .. => keeps_execCipherParityFault h
  | .cipherWriteRetry .. => keeps_execCipherWriteRetry h
  | .xtCountRead .. => keeps_execXtCountRead h
  | .psyncRise .. => keeps_execPsyncRise h
  | .stateWorkDone .. => keeps_execStateWorkDone h
  | .turn .. => keeps_execTurn h
  | .loop .. => keeps_execLoop h
  | .psyncReset .. => keeps_execPsyncReset h
  | .stateBoundExpiry .. => keeps_execStateBoundExpiry h
  | .railSample .. => keeps_execRailSample h
  | .throttleEnd .. => keeps_execThrottleEnd h
  | .pfWarnChange .. => keeps_execPfWarnChange h
  | .pfFailChange .. => keeps_execPfFailChange h
  | .supplyGood .. => keeps_execSupplyGood h
  | .pwrReqChange .. => keeps_execPwrReqChange h
  | .energyStorePoll .. => keeps_execEnergyStorePoll h
  | .sysclkLoss .. => keeps_execSysclkLoss h
  | .eventCoalesceTimer .. => keeps_execEventCoalesceTimer h
  | .bbEvPtrWrite .. => keeps_execBbEvPtrWrite h
  | .bbEvStatRead .. => keeps_execBbEvStatRead h
  | .bbAonDataRead .. => keeps_execBbAonDataRead h
  | .healthSummaryTimer .. => keeps_execHealthSummaryTimer h
  | .tmDtRead .. => keeps_execTmDtRead h
  | .tmCaptureRead .. => keeps_execTmCaptureRead h
  | .gpioEdge .. => keeps_execGpioEdge h
  | .bypass => keeps_execBypass h
  | .idcode => keeps_execIdcode h
  | .samplePreload .. => keeps_execSamplePreload h
  | .extest .. => keeps_execExtest h
  | .clamp => keeps_execClamp h
  | .highz => keeps_execHighz h
  | .extestPulse .. => keeps_execExtestPulse h
  | .extestTrain .. => keeps_execExtestTrain h
  | .envmRead .. => keeps_execEnvmRead h
  | .envmReadDone .. => keeps_execEnvmReadDone h
  | .otpKeyhash .. => keeps_execOtpKeyhash h
  | .blCacheStatRead .. => keeps_execBlCacheStatRead h
  | .sysclkReturn .. => keeps_execSysclkReturn h
  | .aonReset .. => keeps_execAonReset h (hz rfl)
  | .mgmtLinkDown .. => keeps_execMgmtLinkDown h
  | .mgmtLinkTrained .. => keeps_execMgmtLinkTrained h
  | .zqCalibrationTimer .. => keeps_execZqCalibrationTimer h
  | .mirrorWrResend .. => keeps_execMirrorWrResend h
  | .creditReturn .. => keeps_execCreditReturn h
  | .envmRecordWritten .. => keeps_execEnvmRecordWritten h
/-- The state at device time 0. -/
def atTimeZero (s : State) : State := { s with time := { s.time with dt := 0 } }

theorem keeps_atTimeZero (s : State) : Keeps (atTimeZero s) s := { part_refl (part s) with dt := Nat.zero_le _ }

/-- Every command keeps the relation but for device time. -/
theorem exec_holds {c : Instr} (e : exec c s = .next t) : Holds s t :=
  have k : Keeps (atTimeZero s) t := (exec_keeps c (fun _ => rfl) (keeps_atTimeZero s)).of t e
  { PartKeeps.toPartHolds k with }

end

/-- Settles O7: what `exec_holds` says of the output, the queue and the free values. -/
theorem commandsOnlyAppendOutput : Obligations.CommandsOnlyAppendOutput := by
  intro c s t e
  have k : Holds s t := exec_holds e
  exact ⟨PartHolds.out k, PartHolds.queue k, PartHolds.free k⟩

end Sys2Proof.Proofs
end

section
/-! PROOFS. A register write that starts no step of its own. -/

namespace Sys2Proof.Proofs

open Sys2Proof Machine Laws Claims

/-! What a plain register write does to the register (00 R9; 15 R402). -/

/-- A field takes its value or is cleared by ones, never both: no bit of a register is of both kinds. -/
theorem written_disjoint_cleared (r : Reg) : (accBits r .rw ||| accBits r .wo) &&& accBits r .w1c = 0#64 := by
  cases r <;> rfl

/-- No bit of a register is both written and cleared by ones. -/
theorem not_written_and_cleared (r : Reg) (b : Nat) :
    ¬((accBits r .rw ||| accBits r .wo).getLsbD b = true ∧ (accBits r .w1c).getLsbD b = true) := by
  rintro ⟨hw, hc⟩
  have h := congrArg (·.getLsbD b) (written_disjoint_cleared r)
  simp only [BitVec.getLsbD_and, hw, hc, BitVec.getLsbD_zero] at h
  cases h

/-- Bit `b` of a word written by masks: `rw` the bits that take `x`, `wc` those that a 1 of `x` clears, within `m`. -/
theorem getLsbD_maskedWrite (old x m rw wc : Word) (b : Nat) (hb : b < 64)
    (hd : ¬(rw.getLsbD b = true ∧ wc.getLsbD b = true)) :
    (((old &&& ~~~(rw &&& m)) ||| (x &&& (rw &&& m))) &&& ~~~(x &&& (wc &&& m))).getLsbD b =
      if m.getLsbD b then
        if rw.getLsbD b then x.getLsbD b
        else if wc.getLsbD b then old.getLsbD b && !x.getLsbD b
        else old.getLsbD b
      else old.getLsbD b := by
  simp only [BitVec.getLsbD_and, BitVec.getLsbD_or, BitVec.getLsbD_not, hb, decide_true, Bool.true_and]
  cases hm : m.getLsbD b
  · simp
  · cases hr : rw.getLsbD b
    · cases hc : wc.getLsbD b <;> simp
    · have hc : wc.getLsbD b = false := by simpa [hr] using hd
      simp [hc]

section
variable {s : State} {r : Reg} {i : Nat}

/-- Each bit of a register after a plain write, by its access type (00 Table 0.4). -/
theorem writeFields_getLsbD (wf : RegsOrdered s) (r : Reg) (i : Nat) (w : AccW) (v : Word) (b : Nat) (hb : b < 64) :
    ((s.writeFields r i w v false).reg r i).getLsbD b =
      if (accMask w).getLsbD b then
        if (accBits r .rw ||| accBits r .wo).getLsbD b then (accValue w v).getLsbD b
        else if (accBits r .w1c).getLsbD b then (s.reg r i).getLsbD b && !(accValue w v).getLsbD b
        else (s.reg r i).getLsbD b
      else (s.reg r i).getLsbD b := by
  unfold State.writeFields
  rw [reg_setReg wf]
  exact getLsbD_maskedWrite _ _ _ _ _ b hb (not_written_and_cleared r b)

/-- A plain write leaves the registers at other offsets. -/
theorem writeFields_reg_ne (wf : RegsOrdered s) (w : AccW) (v : Word) (fenced : Bool) {r' : Reg} {k : Nat}
    (h : r'.addr k ≠ r.addr i) : (s.writeFields r i w v fenced).reg r' k = s.reg r' k :=
  reg_setReg_ne wf _ h.symm

/-- A plain write changes the table of registers alone. -/
theorem writeFields_eq (s : State) (r : Reg) (i : Nat) (w : AccW) (v : Word) (fenced : Bool) :
    s.writeFields r i w v fenced = { s with regs := (s.writeFields r i w v fenced).regs } := rfl

end

/-! How REGISTER_WRITE reaches its register (15 R399 to R402). -/

section
variable {s : State} {r : Reg} {i : Nat}

/-- An access of a register at a multiple of 8 is aligned. -/
theorem accAligned_accOff (w : AccW) (h : r.addr i % 8 = 0) : accAligned (accOff r i w) w = true := by
  cases w <;> simp [accAligned, accOff, Nat.add_mod, h]

theorem instAt_of_regAt {off : Nat} (h : regAt off = some (r, i)) : r.instAt off = some i := by
  obtain ⟨r', _, e⟩ := List.exists_of_findSome?_eq_some h
  obtain ⟨i', hi, e⟩ := Option.map_eq_some_iff.mp e
  cases e
  exact hi

/-- A register that stands once is found with number 0. -/
theorem regAt_single {off : Nat} (h : regAt off = some (r, i)) (hc : r.info.count ≤ 1) : i = 0 := by
  have hi := instAt_of_regAt h
  unfold Reg.instAt at hi
  split at hi
  case h_1 => exact absurd hc (by decide)
  case h_2 =>
    split at hi
    case isTrue =>
      obtain ⟨-, h0⟩ := Option.ite_none_right_eq_some.mp hi
      exact (Option.some.inj h0).symm
    case isFalse =>
      obtain ⟨-, hi⟩ := Option.ite_none_right_eq_some.mp hi
      obtain ⟨⟨-, hlt⟩, hi⟩ := Option.ite_none_right_eq_some.mp hi
      have hi := Option.some.inj hi
      omega

/-- A write to an offset that holds a register goes to it. -/
theorem exec_registerWrite_regAt (s : State) (via : Via) (w : AccW) (v : Word) (at_ : Nat)
    (hr : regAt (r.addr i) = some (r, i)) (h8 : r.addr i % 8 = 0) :
    exec (.registerWrite via (accOff r i w) w v at_) s = .next ((s.tick at_).writeReg via r i w v) := by
  have hlt : ¬ 0x2000000 ≤ r.addr i := Nat.not_le.mpr (regAt_lt hr)
  simp only [exec_registerWrite, execRegisterWrite, accAligned_accOff w h8, accOff_word r i w h8, hlt, hr, Bool.not_true,
    Bool.false_eq_true, if_false]

/-- A write that is taken and starts no step of its own is a plain write of the fields. -/
theorem writeReg_taken {via : Via} {w : AccW} {v : Word} (hr : regAt (r.addr i) = some (r, i))
    (hs : startsStep s r w v = false) (hp : Served s via (accOff r i w)) (ha : s.absent r i = false)
    (hf : s.fencedReg r i = false) (hv : NoRsv r w v) : s.writeReg via r i w v = s.writeFields r i w v false :=
  (writeReg_plain s via r i w v (regAt_single hr) hs).trans (writeAt_taken hp ha hf hv _)

end

/-- Settles O11: the write is a plain write of the fields at the new device time. -/
theorem registerWriteFollowsAccessTypes : Obligations.RegisterWriteFollowsAccessTypes := by
  intro s via r i w v at_ wf hr h8 hs hp ha hf hv
  have e : (s.tick at_).writeReg via r i w v = (s.tick at_).writeFields r i w v false :=
    writeReg_taken hr hs hp ha hf hv
  refine ⟨(s.tick at_).writeFields r i w v false, ?_, ?_, ?_, writeFields_eq ..⟩
  · rw [exec_registerWrite_regAt s via w v at_ hr h8, e]
  · exact writeFields_getLsbD (s := s.tick at_) wf r i w v
  · exact fun r' k => writeFields_reg_ne (s := s.tick at_) wf w v false

end Sys2Proof.Proofs
end

section
/-! PROOFS. Accesses that are not served (00 R8; 15 R404, R405; 11 R318). -/

namespace Sys2Proof.Proofs

open Sys2Proof Machine Laws Claims

section
variable {s : State} {via : Via} {off : Nat} {write : Bool}

/-- On a path that is down nothing answers. -/
theorem checkPath_down (h : s.pathUp via = false) : s.checkPath via off write = .drop s := by
  simp [State.checkPath, h]

/-- The registers are not mapped for an LD without management. -/
theorem checkPath_unmapped (hu : s.pathUp via = true) (hw : s.wholeSpace via = false) (ho : off < 0x2000000) :
    s.checkPath via off write = .drop s := by
  simp [State.checkPath, hu, hw, ho]

/-- A block that does not answer in the power state flags the access. -/
theorem checkPath_unavailable (hu : s.pathUp via = true) (hw : s.wholeSpace via = true) (hb : s.blockServed off = false) :
    s.checkPath via off write = .drop (s.flagAccess via off write F.GB_ACCESS_STATUS.UNAVAILABLE) := by
  simp [State.checkPath, hu, hw, hb]

/-- A bad access that is served is flagged and does no more than return zero to a read. -/
theorem badAccess_served (h : Served s via off) : s.badAccess via off write =
    if write then s.flagAccess via off write F.GB_ACCESS_STATUS.BAD_SIZE
    else (s.flagAccess via off write F.GB_ACCESS_STATUS.BAD_SIZE).emit (.mmio via off 0#64) := by
  simp only [State.badAccess, admit_served h]

/-- A bad access on a path that is down does no more than return zero to a read. -/
theorem badAccess_down (h : s.pathUp via = false) :
    s.badAccess via off write = if write then s else s.emit (.mmio via off 0#64) := by
  simp only [State.badAccess, checkPath_down h]

end

section
variable {s : State} {r : Reg} {i : Nat} {via : Via} {w : AccW} {x : Word} {after : State → State}

/-- A read that is not admitted returns zero on what its admission leaves. -/
theorem readAt_dropped {t : State} (h : s.checkPath via (accOff r i w) false = .drop t) :
    s.readAt via r i w x after = t.emit (.mmio via (accOff r i w) 0#64) := by
  simp only [State.readAt, h]

/-- A read of an absent register returns zero. -/
theorem readAt_absent (h : Served s via (accOff r i w)) (ha : s.absent r i = true) :
    s.readAt via r i w x after = s.emit (.mmio via (accOff r i w) 0#64) := by
  simp only [State.readAt, admit_served h, ha, if_true]

end

/-- Each of the counter reads is a read of its register that resets its counters. -/
theorem exec_counterRead {via : Via} {w : AccW} {n : Nat} {x : Instr × Reg × Nat × List FieldRef}
    (hx : x ∈ counterReads via w n) (s : State) :
    exec x.1 s = .next (s.readCounters via x.2.1 x.2.2.1 w x.2.2.2) := by
  fin_cases hx <;> rfl

/-- Settles O13: by the case of the admission that refuses the access. -/
theorem unservedAccessesReadZero : Obligations.UnservedAccessesReadZero := by
  refine ⟨fun s via off write wf => ⟨fun hs => ?_, fun hd => ?_⟩, fun s via w n wf x hx => ?_⟩
  · refine ⟨s.flagAccess via off write F.GB_ACCESS_STATUS.BAD_SIZE,
      flagSet_flagAccess wf via off write F.GB_ACCESS_STATUS.BAD_SIZE rfl (by decide) rfl, ?_⟩
    exact congrArg Host.Outcome.next (badAccess_served hs)
  · exact congrArg Host.Outcome.next (badAccess_down hd)
  · simp only [exec_counterRead hx, State.readCounters]
    refine ⟨fun hd => ?_, fun hu hw ho => ?_, fun hs ha => ?_, fun hu hw hb => ?_⟩
    · rw [readAt_dropped (checkPath_down hd)]
    · rw [readAt_dropped (checkPath_unmapped hu hw ho)]
    · rw [readAt_absent hs ha]
    · refine ⟨s.flagAccess via (accOff x.2.1 x.2.2.1 w) false F.GB_ACCESS_STATUS.UNAVAILABLE,
        flagSet_flagAccess wf via _ false F.GB_ACCESS_STATUS.UNAVAILABLE rfl (by decide) rfl, ?_⟩
      rw [readAt_dropped (checkPath_unavailable hu hw hb)]

end Sys2Proof.Proofs
end

section
/-! PROOFS. What every step keeps, and what the rules that follow a command leave alone. -/

namespace Sys2Proof.Proofs

open Sys2Proof Machine Laws

/-- Every command keeps the canonical forms of bytes and registers. -/
theorem exec_keeps_canonical {c : Instr} {s t : State} (h : Canonical s) (e : exec c s = .next t) : Canonical t :=
  have k : Holds s t := exec_holds e
  ⟨PartHolds.mem k h.1, PartHolds.regs k h.2⟩

/-- Settles O5: by the case of the queue; a command keeps the forms, a tick moves device time alone. -/
theorem stepKeepsCanonical : Obligations.StepKeepsCanonical := by
  intro s t h e
  cases hq : s.pending with
  | nil =>
    rw [step_nil s hq] at e
    cases e
    exact h
  | cons c rest =>
    rw [step_cons s c rest hq] at e
    exact exec_keeps_canonical (s := { s with pending := rest }) h e

/-- The rules that follow leave what `still` lists. -/
theorem still_settle (s : State) : still s.settle = still s := StillSame.eq (stays_settle (stays_refl s))

/-- A twin relation that agrees with another but for its open copies is the other with its own open copies. -/
theorem twin_eq_of_closed {a b : TwinSt}
    (h : { b with mirrorOut := [], copyAcks := [] } = { a with mirrorOut := [], copyAcks := [] }) :
    b = { a with mirrorOut := b.mirrorOut, copyAcks := b.copyAcks } :=
  congrArg (fun x : TwinSt => { x with mirrorOut := b.mirrorOut, copyAcks := b.copyAcks }) h

/-- Stripes that agree with others but for their journals are the others with their own journals. -/
theorem stripe_eq_of_closed {a b : StripeSt} (h : { b with skim := [] } = { a with skim := [] }) :
    b = { a with skim := b.skim } :=
  congrArg (fun x : StripeSt => { x with skim := b.skim }) h

/-- Settles O9: each part is one of those that `still` lists. -/
theorem followingRulesLeaveTheRest : Obligations.FollowingRulesLeaveTheRest := by
  intro s t
  have h : still t = still s := still_settle s
  clear_value t
  exact ⟨congrArg Still.queue h, congrArg Still.time h, congrArg Still.power h, congrArg Still.jtag h, congrArg Still.otp h,
    congrArg Still.cipher h, congrArg Still.image h, congrArg Still.save h, congrArg Still.bolts h, congrArg Still.tenants h,
    congrArg Still.ldTenant h, congrArg Still.decoders h, congrArg Still.gate h, congrArg Still.quotas h,
    twin_eq_of_closed (congrArg Still.twin h), stripe_eq_of_closed (congrArg Still.stripe h), congrArg Still.ways h,
    congrArg Still.blocks h⟩

end Sys2Proof.Proofs
end

section
/-! PROOFS. Counter registers that a read resets (00 Table 0.4; 14 Table 14.4). -/

namespace Sys2Proof.Proofs

open Sys2Proof Machine Laws Claims

/-- The counter in the low half of a counter register. -/
def lowCount (r : Reg) : FieldRef := ⟨r, 0, 32, .ro, none⟩

/-- The counter in the high half of a counter register. -/
def highCount (r : Reg) : FieldRef := ⟨r, 32, 32, .ro, none⟩

/-- Each of the counter registers holds two counters, one in each half. -/
theorem counterReads_halves {via : Via} {w : AccW} {n : Nat} {x : Instr × Reg × Nat × List FieldRef}
    (hx : x ∈ counterReads via w n) : x.2.2.2 = [lowCount x.2.1, highCount x.2.1] := by
  fin_cases hx <;> rfl

/-- An access misses the low counter exactly where it does not cover it. -/
theorem lowCount_covered (a : AccW) : ((word (2 ^ 32 - 1) <<< 0) &&& accMask a = 0#64) = (covers a 0 = false) := by
  cases a <;> decide

/-- An access misses the high counter exactly where it does not cover it. -/
theorem highCount_covered (a : AccW) : ((word (2 ^ 32 - 1) <<< 32) &&& accMask a = 0#64) = (covers a 32 = false) := by
  cases a <;> decide

section
variable {s : State}

/-- A served read of a register that is present returns its value and does what the read itself does. -/
theorem readAt_served {via : Via} {r : Reg} {i : Nat} {w : AccW} {v : Word} {after : State → State}
    (h : Served s via (accOff r i w)) (ha : s.absent r i = false) :
    s.readAt via r i w v after = after (s.emit (.mmio via (accOff r i w) (readHalf w v))) := by
  simp only [State.readAt, admit_served h, ha, Bool.false_eq_true, if_false]

/-- Both counters of a register after a read: those covered are 0, the others and every other register stand. -/
theorem clearRead_both (wf : RegsOrdered s) (r : Reg) (i : Nat) (a : AccW) :
    let t := (s.clearRead (lowCount r) i a).clearRead (highCount r) i a
    t.getF (lowCount r) i = (if covers a 0 then 0 else s.getF (lowCount r) i)
    ∧ t.getF (highCount r) i = (if covers a 32 then 0 else s.getF (highCount r) i)
    ∧ (∀ r' k, r'.addr k ≠ r.addr i → t.reg r' k = s.reg r' k) ∧ t = { s with regs := t.regs } := by
  obtain ⟨low, wf1, other1, half1, eq1⟩ := clearRead_spec wf (lowCount r) i a (by simp [lowCount]) (lowCount_covered a)
  obtain ⟨high, -, other2, half2, eq2⟩ := clearRead_spec wf1 (highCount r) i a (by simp [highCount]) (highCount_covered a)
  refine ⟨(half2 (lowCount r) rfl (.inr (by simp [lowCount, highCount]))).trans low, ?_,
    fun r' k h => (other2 r' k h).trans (other1 r' k h), ?_⟩
  · rw [high, half1 (highCount r) rfl (.inl (by simp [lowCount, highCount]))]
    rfl
  · rw [eq2, eq1]

end

/-- Settles O14: the read is served, and it clears the two counters of its register by halves. -/
theorem counterReadReturnsAndResets : Obligations.CounterReadReturnsAndResets := by
  intro s via w n wf x hx hs ha
  obtain ⟨low, high, other, eq⟩ :=
    clearRead_both (s := s.emit (.mmio via (accOff x.2.1 x.2.2.1 w) (readHalf w (s.reg x.2.1 x.2.2.1)))) wf x.2.1 x.2.2.1 w
  refine ⟨_, (exec_counterRead hx s).trans (congrArg Host.Outcome.next (readAt_served hs ha)), ?_⟩
  rw [counterReads_halves hx]
  refine ⟨eq, fun f hf => ?_, other⟩
  rcases List.mem_pair.mp hf with rfl | rfl
  · exact low
  · exact high

end Sys2Proof.Proofs
end

section
/-! PROOFS. A host read of a line held here, step by step (01 R28, R29, R44, Table 1.4; 05 R156 to R162). -/

namespace Sys2Proof.Proofs

open Sys2Proof Machine Laws Claims

/-! A new request behind those in hand. -/

/-- A request put behind those in hand. -/
def queued (s : State) (r : Req) : State :=
  { s with bay := { s.bay with reqs := s.bay.reqs ++ [r], nextId := s.bay.nextId + 1 } }

/-- The request that a host's read is at first. -/
def readReq (s : State) (port ld tag o t : Nat) : Req :=
  { id := s.bay.nextId, src := hostSource port ld, who := .host port ld tag, op := .read, offset := o, tenant := t,
    since := none, st := .behind }

section
variable {s u : State} {r : Req}

/-- A host read that a decoder takes is queued and taken up. -/
theorem hostRequest_read {port ld tag hpa o t : Nat} (hd : s.decodeHpa port ld hpa = some o)
    (ht : SMap.find s.bay.ldTenant (port * 16 + ld) = some t) :
    s.hostRequest port ld tag hpa .read = (queued s (readReq s port ld tag o t)).start (readReq s port ld tag o t) := by
  simp only [State.hostRequest, hd, ht]
  rfl

/-- What was in hand stands before a request with a number of its own. -/
theorem before_queued (h : ∀ x ∈ s.bay.reqs, x.id ≠ r.id) : (queued s r).before r = s.bay.reqs := by
  have all : ∀ x ∈ s.bay.reqs, (x.id != r.id) = true := fun x hx => bne_iff_ne.mpr (h x hx)
  simp [State.before, queued, List.takeWhile_append_of_pos all]

/-- A queued request of a number of its own replaced is its replacement queued. -/
theorem putReq_queued {r' : Req} (h : ∀ x ∈ s.bay.reqs, x.id ≠ r'.id) (hid : r.id = r'.id) :
    (queued s r).putReq r' = queued s r' := by
  have same : s.bay.reqs.map (fun x => if x.id = r'.id then r' else x) = s.bay.reqs :=
    (List.map_congr_left (fun x hx => if_neg (h x hx))).trans (List.map_id _)
  simp only [State.putReq, queued, List.map_append, same, List.map_cons, List.map_nil, hid, if_true]

/-- A request with none of its source and bolt before it need not wait. -/
theorem mustWait_of_none_ahead (h : ∀ x ∈ u.before r, ¬(x.src = r.src ∧ reqBolt x = reqBolt r)) :
    u.mustWait r = false := by
  have alone : u.ahead r = [] := List.filter_eq_nil_iff.mpr (fun x hx => by simpa using h x hx)
  simp [State.mustWait, alone]

/-- An ordinary request that no other keeps at the input of its slice goes to the Crown (05 R161). -/
theorem sliceBusy_of_free (hb : u.before r = s.bay.reqs) (hp : privileged r = false)
    (h : SliceFree s r.src (lineOfOff r.offset)) : u.sliceBusy r = false := by
  have noMiss : u.missOf r = [] := by
    refine List.filter_eq_nil_iff.mpr (fun x hx => ?_)
    have k := (h x (hb ▸ hx)).2
    simp only [Bool.and_eq_true, beq_iff_eq]
    exact fun ⟨⟨a, b⟩, c⟩ => k ⟨a, b, c⟩
  have noneWaits : (u.before r).any (fun x => lineOfOff x.offset == lineOfOff r.offset && atSlice x.st) = false := by
    refine List.any_eq_false.mpr (fun x hx => ?_)
    have k := (h x (hb ▸ hx)).1
    simp only [Bool.and_eq_true, beq_iff_eq]
    exact k
  simp only [State.sliceBusy, noneWaits, hp, noMiss, List.isEmpty_nil, Bool.not_true, Bool.or_false, Bool.false_eq_true,
    if_false]

end

/-! The steps of a read by a host, each where nothing stands in its way. -/

section
variable {s : State} {r : Req} {port ld tag : Nat}

/-- In service a host read that need not wait is looked up. -/
theorem start_read (who : r.who = .host port ld tag) (op : r.op = .read) (hw : s.mustWait r = false)
    (hs : s.inService = true) : s.start r = s.lookup r true := by
  obtain ⟨h14, hb⟩ : s.power.state = 14 ∧ s.power.begun = true := by simpa [State.inService] using hs
  simp [State.start, hw, fromTwin, who, reqWrites, op, h14, hb]

/-- The tenant's own request to a bolt of this device alone is served here (01 Table 1.4). -/
theorem route_ownTenant (who : r.who = .host port ld tag) (own : OwnedHere s (reqBolt r))
    (ht : (s.entry (reqBolt r)).tenant = r.tenant) (first : Bool) :
    s.route r first = s.serve r first := by
  obtain ⟨range, bound, active, single, -, -, -⟩ := own
  have target : s.target r = s.devId := by simp [State.target, single, active]
  simp [State.route, Nat.not_le.mpr range, bound, who, ht, target]

/-- A read that nothing holds goes to the Crown. -/
theorem serve_read (op : r.op = .read) (own : OwnedHere s (reqBolt r)) (hp : s.power.state < 16) (first : Bool) :
    s.serve r first = s.startRead r first := by
  obtain ⟨-, -, -, single, -, running, fresh⟩ := own
  have go : s.whyHold r = none := by
    simp only [State.whyHold, ge_iff_le, Nat.not_le.mpr hp, running, fresh, single, Bool.not_false, Bool.false_eq_true, if_false,
      if_true]
  simp only [State.serve, go, op]

/-- A read that its slice takes is looked up in the Crown. -/
theorem startRead_host (who : r.who = .host port ld tag) (hf : s.sliceBusy r = false) (first : Bool) :
    s.startRead r first = (s.useSpan (spanOfLine (lineOfOff r.offset))).lookUp r first := by
  simp [State.startRead, fromTwin, who, hf]

/-- A good line held in the Crown answers the read: the hit is counted and the request is done with the line. -/
theorem lookUp_held {k : Nat} {c : Cell} (hc : s.cellAt (lineOfOff r.offset) = some (k, c)) (hfill : c.filling = false)
    (hmask : SMap.has s.lines.mask (lineOfOff r.offset) = false) (hbeats : s.beats (lineOfOff r.offset) = .good)
    (hpoison : s.isPoison (lineOfOff r.offset) = false) (single : s.mirrored (reqBolt r) = false) :
    s.lookUp r true = (s.bump F.CR_HIT_STAT.HITS 0 1).finish r 0 (s.line (lineOfOff r.offset)) false := by
  let t := s.bump F.CR_HIT_STAT.HITS 0 1
  have counted : t.readBeats (lineOfOff r.offset) = t := by
    have hb : t.beats (lineOfOff r.offset) = .good := hbeats
    simp only [State.readBeats, hb]
  have served : t.finishRead r = t.finish r 0 (s.line (lineOfOff r.offset)) false := by
    have hp : t.isPoison (lineOfOff r.offset) = false := hpoison
    have hm : t.mirrored (reqBolt r) = false := single
    have line : t.line (lineOfOff r.offset) = s.line (lineOfOff r.offset) := rfl
    simp [State.finishRead, State.stopsAt, hm, hp, line]
  have notBad : Beats.good ≠ Beats.bad := by decide
  simp only [State.lookUp, hc, hfill, hmask, hbeats, notBad, Bool.false_eq_true, if_false, if_true]
  exact (congrArg (State.finishRead · r) counted).trans served

end

/-! Counting a hit leaves what the steps look at. -/

section
variable {s : State}

/-- A counter raised leaves the fields of registers at other offsets. -/
theorem getF_bump_other (wf : RegsOrdered s) (f g : FieldRef) (i j n : Nat) (h : f.reg.addr i ≠ g.reg.addr j) :
    (s.bump f i n).getF g j = s.getF g j := getF_setF_other wf f g i j _ h

/-- A counter raised leaves the registers at other offsets. -/
theorem reg_bump_other (wf : RegsOrdered s) (f : FieldRef) (i n : Nat) {r : Reg} {k : Nat} (h : r.addr k ≠ f.reg.addr i) :
    (s.bump f i n).reg r k = s.reg r k := reg_setF_ne wf _ h.symm

/-- A counter raised reads as its sum, held at its width. -/
theorem getF_bump (wf : RegsOrdered s) (f : FieldRef) (i n : Nat) (h : f.lo + f.w ≤ 64) :
    (s.bump f i n).getF f i = satAdd f.w (s.getF f i) n := by
  have fits : satAdd f.w (s.getF f i) n < 2 ^ f.w :=
    lt_of_le_of_lt (Nat.min_le_left ..) (Nat.sub_lt (Nat.two_pow_pos f.w) Nat.one_pos)
  exact (getF_setF wf f i _ h).trans (Nat.mod_eq_of_lt fits)

/-- A hit in the HUB cache counted leaves a bolt of this device alone so. -/
theorem ownedHere_countHit (wf : RegsOrdered s) {b : Nat} (own : OwnedHere s b) :
    OwnedHere (s.bump F.BL_CACHE_STAT.HITS 0 1) b := by
  have field (g : FieldRef) (h : Reg.addr .BL_CACHE_STAT 0 ≠ g.reg.addr 0) :
      (s.bump F.BL_CACHE_STAT.HITS 0 1).get g = s.get g := getF_bump_other wf F.BL_CACHE_STAT.HITS g 0 0 1 h
  obtain ⟨range, bound, active, single, cached, running, fresh⟩ := own
  refine ⟨?_, bound, ?_, single, cached, ?_, fresh⟩
  · rwa [field _ (by decide)]
  · exact active.trans (field F.BL_DEVICE_ID.DEVICE_ID (by decide)).symm
  · rw [← running]
    unfold State.stoppedFor
    rw [field _ (by decide), field _ (by decide), reg_bump_other wf _ _ _ (by decide)]

end

/-- The host's read done with the line held. -/
def doneReq (s : State) (port ld tag o t : Nat) : Req :=
  { readReq s port ld tag o t with st := .done { code := 0, data := s.line (lineOfOff o), poison := false } }

/-- A hit of the HUB cache and one of the Crown on a line counted, and the line's span used. -/
def hitCounted (s : State) (l : Nat) : State :=
  ((s.bump F.BL_CACHE_STAT.HITS 0 1).useSpan (spanOfLine l)).bump F.CR_HIT_STAT.HITS 0 1

/-- The state in which a host read of a held line is done. -/
def readDone (s : State) (port ld tag o t : Nat) : State := hitCounted (queued s (doneReq s port ld tag o t)) (lineOfOff o)

/-- A host read of a good line that the Crown holds here is done at once. -/
theorem start_heldRead {s : State} {port ld tag o t k : Nat} {c : Cell} (wf : RegsOrdered s) (hs : s.inService = true)
    (hr : ∀ x ∈ s.bay.reqs, x.id < s.bay.nextId ∧ ¬(x.src = hostSource port ld ∧ reqBolt x = boltOfOff o))
    (own : OwnedHere s (boltOfOff o)) (ht : (s.entry (boltOfOff o)).tenant = t)
    (free : SliceFree s (hostSource port ld) (lineOfOff o)) (hbeats : s.beats (lineOfOff o) = .good)
    (hc : s.cellAt (lineOfOff o) = some (k, c)) (hfill : c.filling = false) (hmask : SMap.has s.lines.mask (lineOfOff o) = false)
    (hpoison : s.isPoison (lineOfOff o) = false) :
    (queued s (readReq s port ld tag o t)).start (readReq s port ld tag o t) = readDone s port ld tag o t := by
  let r := readReq s port ld tag o t
  let q := queued s r
  let h := q.bump F.BL_CACHE_STAT.HITS 0 1
  have fresh : ∀ x ∈ s.bay.reqs, x.id ≠ r.id := fun x hx => Nat.ne_of_lt (hr x hx).1
  have done : q.putReq (doneReq s port ld tag o t) = queued s (doneReq s port ld tag o t) := putReq_queued fresh rfl
  have hb : q.before r = s.bay.reqs := before_queued fresh
  have wait : q.mustWait r = false := mustWait_of_none_ahead (fun x hx => (hr x (hb ▸ hx)).2)
  have ownQ : OwnedHere h (reqBolt r) := ownedHere_countHit (s := q) wf own
  obtain ⟨-, -, -, single, cached, -, -⟩ := own
  have p14 : s.power.state = 14 := by simpa using (Bool.and_eq_true_iff.mp hs).1
  have p16 : h.power.state < 16 := by
    change s.power.state < 16
    omega
  calc q.start r
      = q.lookup r true := start_read rfl rfl wait hs
    _ = h.route r true := if_pos cached
    _ = h.serve r true := route_ownTenant rfl ownQ ht true
    _ = h.startRead r true := serve_read rfl ownQ p16 true
    _ = (h.useSpan (spanOfLine (lineOfOff o))).lookUp r true :=
        startRead_host (s := h) rfl (sliceBusy_of_free (s := s) (u := h) hb rfl free) true
    _ = ((h.useSpan (spanOfLine (lineOfOff o))).bump F.CR_HIT_STAT.HITS 0 1).finish r 0 (s.line (lineOfOff o)) false :=
        lookUp_held (s := h.useSpan (spanOfLine (lineOfOff o))) (r := r) hc hfill hmask hbeats hpoison single
    _ = hitCounted (q.putReq (doneReq s port ld tag o t)) (lineOfOff o) := rfl
    _ = readDone s port ld tag o t := congrArg (hitCounted · (lineOfOff o)) done

/-- Settles O17: the read is taken up, looked up, served here and done with the line held. -/
theorem hostReadReturnsTheLineHeld : Obligations.HostReadReturnsTheLineHeld := by
  intro s port ld tag hpa at_ o t k c wf takes own ht free hbeats hc hfill hmask hpoison
  obtain ⟨serves, decoded, tenant, open_, hr⟩ := takes
  let v := s.tick at_
  have done : v.hostRequest port ld tag hpa .read = readDone v port ld tag o t :=
    (hostRequest_read (s := v) decoded tenant).trans
      (start_heldRead (s := v) wf open_ hr own ht free hbeats hc hfill hmask hpoison)
  have served : v.hostServes port = true := serves
  let q := queued v (doneReq v port ld tag o t)
  have wfQ : RegsOrdered (q.bump F.BL_CACHE_STAT.HITS 0 1) := wf_setF (s := q) wf _ _ _
  refine ⟨readDone v port ld tag o t, ?_, rfl, rfl, ?_, ?_, fun r i h1 h2 => ?_⟩
  · simp only [exec_memRd, execMemRd]
    rw [if_pos served, done]
  · calc (readDone v port ld tag o t).get F.BL_CACHE_STAT.HITS
        = (q.bump F.BL_CACHE_STAT.HITS 0 1).get F.BL_CACHE_STAT.HITS :=
          getF_bump_other (s := (q.bump F.BL_CACHE_STAT.HITS 0 1).useSpan _) wfQ F.CR_HIT_STAT.HITS F.BL_CACHE_STAT.HITS 0 0 1
            (by decide)
      _ = satAdd 32 (s.get F.BL_CACHE_STAT.HITS) 1 := getF_bump (s := q) wf F.BL_CACHE_STAT.HITS 0 1 (by decide)
  · calc (readDone v port ld tag o t).get F.CR_HIT_STAT.HITS
        = satAdd 32 ((q.bump F.BL_CACHE_STAT.HITS 0 1).get F.CR_HIT_STAT.HITS) 1 :=
          getF_bump (s := (q.bump F.BL_CACHE_STAT.HITS 0 1).useSpan _) wfQ F.CR_HIT_STAT.HITS 0 1 (by decide)
      _ = satAdd 32 (s.get F.CR_HIT_STAT.HITS) 1 :=
          congrArg (satAdd 32 · 1) (getF_bump_other (s := q) wf F.BL_CACHE_STAT.HITS F.CR_HIT_STAT.HITS 0 0 1 (by decide))
  · calc (readDone v port ld tag o t).reg r i
        = (q.bump F.BL_CACHE_STAT.HITS 0 1).reg r i :=
          reg_bump_other (s := (q.bump F.BL_CACHE_STAT.HITS 0 1).useSpan _) wfQ F.CR_HIT_STAT.HITS 0 1 h2
      _ = s.reg r i := reg_bump_other (s := q) wf F.BL_CACHE_STAT.HITS 0 1 h1

end Sys2Proof.Proofs
end

section
/-! PROOFS. Host requests that no decoder takes (01 R28, R30), and what moves a waiting request on (01 R21, R41 to R44). -/

namespace Sys2Proof.Proofs

open Sys2Proof Machine Laws Claims

/-! Requests that no decoder takes. -/

section
variable {s : State} {port ld tag hpa : Nat}

/-- An undecoded read is answered with a free line and the poison indicator. -/
theorem hostRequest_undecodedRead (hd : s.decodeHpa port ld hpa = none) :
    s.hostRequest port ld tag hpa .read = { s with
      freeIx := s.freeIx + 1, out := s.out ++ [.memCmp port ld tag false (Config.openLine s.freeIx) true] } := by
  simp only [State.hostRequest, hd]
  rfl

/-- An undecoded write is completed and discarded. -/
theorem hostRequest_undecodedWrite (hd : s.decodeHpa port ld hpa = none) (be : Word) (data : LineData) (poison : Bool) :
    s.hostRequest port ld tag hpa (.write be data poison) = s.emit (.memCmp port ld tag true 0#512 false) := by
  simp only [State.hostRequest, hd, if_true]

/-- A count of bytes changes the registers alone. -/
theorem countBytes_eq (s : State) (f : FieldRef) (port left n : Nat) :
    (s.countBytes f port left n).2 = { s with regs := (s.countBytes f port left n).2.regs } := by
  unfold State.countBytes
  by_cases full : 1048576 ≤ left + n
  · simp only [if_pos full]
    rfl
  · simp only [if_neg full]

/-- Bytes received change the registers and what the ports keep of them alone. -/
theorem countRx_eq (s : State) (port n : Nat) :
    s.countRx port n = { s with regs := (s.countRx port n).regs, ports := (s.countRx port n).ports } := by
  unfold State.countRx
  dsimp only
  rw [countBytes_eq]

/-- Bytes sent change the registers and what the ports keep of them alone. -/
theorem countTx_eq (s : State) (port n : Nat) :
    s.countTx port n = { s with regs := (s.countTx port n).regs, ports := (s.countTx port n).ports } := by
  unfold State.countTx
  dsimp only
  rw [countBytes_eq]

end

/-- Settles O19: no decoder takes the address, so the read is poisoned and the write discarded. -/
theorem undecodedHostRequestFails : Obligations.UndecodedHostRequestFails := by
  intro s port ld tag hpa at_ be data serves undecoded
  let v := s.tick at_
  have served : v.hostServes port = true := serves
  constructor
  · simp only [exec_memRd, execMemRd]
    rw [if_pos served, hostRequest_undecodedRead (s := v) undecoded]
    rfl
  · let u := v.countRx port 64
    have eq : u = { v with regs := u.regs, ports := u.ports } := countRx_eq v port 64
    have missed : u.decodeHpa port ld hpa = none := by
      rw [eq]
      exact undecoded
    refine ⟨u.emit (.memCmp port ld tag true 0#512 false), ?_, ?_, ?_, ?_, ?_⟩
    · simp only [exec_memWr, execMemWr]
      rw [if_pos served, hostRequest_undecodedWrite missed]
    all_goals
      rw [eq]
      rfl

/-! What moves a waiting request on. -/

section
variable {s : State} {r : Req}

/-- The completion of a host's request leaves on its port: data and poison indicator for a read, neither for a write. -/
theorem complete_host {port ld tag : Nat} (p : Resp) (who : r.who = .host port ld tag) (up : s.portUp port = true)
    (free : s.twin.portsFenced = false) :
    s.complete r p = (if reqWrites r then s.delReq r.id else (s.delReq r.id).countTx port 64).emit
      (.memCmp port ld tag (reqWrites r) p.data (p.poison && !reqWrites r)) := by
  have go : ((s.delReq r.id).twin.portsFenced || !(s.delReq r.id).portUp port) = false := by
    have up' : (s.delReq r.id).portUp port = true := up
    have free' : (s.delReq r.id).twin.portsFenced = false := free
    rw [up', free']
    rfl
  simp only [State.complete, who, go, Bool.false_eq_true, if_false]

/-- A finished request with none ahead of it completes. -/
theorem advance_done {id : Nat} {p : Resp} (hr : s.req id = some r) (hst : r.st = .done p) (first : s.ahead r = []) :
    s.advance id = s.complete r p := by
  simp only [State.advance, hr, hst, first, List.isEmpty_nil, if_true]

/-- A finished request of a host with none ahead of it leaves, and its completion with it. -/
theorem advance_host {id port ld tag : Nat} {p : Resp} (hr : s.req id = some r) (hst : r.st = .done p)
    (who : r.who = .host port ld tag) (first : s.ahead r = []) (up : s.portUp port = true) (free : s.twin.portsFenced = false) :
    (s.advance id).out = s.out ++ [.memCmp port ld tag (reqWrites r) p.data (p.poison && !reqWrites r)]
    ∧ (s.advance id).bay.reqs = s.bay.reqs.filter (fun x => x.id != r.id) ∧ (s.advance id).mem = s.mem := by
  rw [advance_done hr hst first, complete_host p who up free]
  cases reqWrites r
  · rw [if_neg Bool.false_ne_true, countTx_eq]
    exact ⟨rfl, rfl, rfl⟩
  · rw [if_pos rfl]
    exact ⟨rfl, rfl, rfl⟩

/-- An entry that is good by its CRC stands as it is when it is read. -/
theorem checkEntry_good {b : Nat} (h : EntryGood s b) : s.checkEntry b = s := by
  unfold State.checkEntry
  split
  · rfl
  · next e found =>
    have good : entryCrc e = e.crc := by
      have entry : s.entry b = e := by simp only [State.entry, SMap.findD, found, Option.getD_some]
      rcases h with unbound | h
      · rw [unbound] at found
        cases found
      · rw [← entry, h]
    simp [good]

/-- An entry is put into a cache with room. -/
theorem cacheEntry_room {b : Nat} (absent : s.bay.boltCache.contains b = false)
    (room : s.bay.boltCache.length < Config.boltCacheSize) :
    s.cacheEntry b = { s with bay := { s.bay with boltCache := s.bay.boltCache ++ [b] } } := by
  simp only [State.cacheEntry, absent, room, Bool.false_eq_true, if_false, if_true]

/-- A store that fails is discarded and ends with its code. -/
theorem fail_store (h : reqWrites r = true) (code : Nat) :
    s.fail r code = s.putReq { r with st := .done { code := code, data := 0#512, poison := false } } := by
  simp only [State.fail, h, Bool.true_or, if_true]
  rfl

end

section
variable {s : State} {id : Nat} {r : Req} (at_ : Nat)

/-- A fill with the good entry puts it into a cache with room and routes the request (01 R21). -/
theorem exec_fill (hr : s.req id = some r) (hst : r.st = .cacheMiss)
    (good : (s.entry (reqBolt r)).crc = entryCrc (s.entry (reqBolt r)))
    (absent : s.bay.boltCache.contains (reqBolt r) = false) (room : s.bay.boltCache.length < Config.boltCacheSize) :
    exec (.boltCacheMissFill id at_) s = .next (State.settle (State.route
      { s.tick at_ with bay := { s.bay with boltCache := s.bay.boltCache ++ [reqBolt r] } } r true)) := by
  have held : (s.tick at_).req id = some r := hr
  have checked : (s.tick at_).checkEntry (reqBolt r) = s.tick at_ := checkEntry_good (s := s.tick at_) (.inr good)
  simp only [exec_boltCacheMissFill, execBoltCacheMissFill, held, hst, checked]
  rw [cacheEntry_room (s := s.tick at_) absent room]
  rfl

/-- A held request is taken up again (01 R42). -/
theorem exec_retry {since : Nat} {why : HoldWhy} (hr : s.req id = some r) (hst : r.st = .held since why) :
    exec (.heldRequestRetry id at_) s = .next ((s.tick at_).start r).settle := by
  have held : (s.tick at_).req id = some r := hr
  simp only [exec_heldRequestRetry, execHeldRequestRetry, held, hst]

/-- A held store whose time is over fails with TIMEOUT (01 R43). -/
theorem exec_expire {since since' : Nat} {why : HoldWhy} (hr : s.req id = some r) (hst : r.st = .held since' why)
    (from_ : r.since = some since) (store : reqWrites r = true) (late : since + s.fwdTimeoutNs ≤ max s.now at_) :
    exec (.holdExpiry id at_) s = .next (State.settle (((s.tick at_).raiseOff F.BL_STATUS.FWD_TIMEOUT r.offset).putReq
      { r with st := .done { code := 11, data := 0#512, poison := false } })) := by
  have held : (s.tick at_).req id = some r := hr
  have passed : since + (s.tick at_).fwdTimeoutNs ≤ (s.tick at_).now := late
  simp only [exec_holdExpiry, execHoldExpiry, held, hst, from_, passed, decide_true, Bool.and_self, if_true, fail_store store]

/-- The path of a device with nothing outstanding is switched (01 R41). -/
theorem exec_drained {dev : Nat} (draining : s.bay.draining.contains dev = true) (drained : s.outstanding dev = false) :
    exec (.routeDrainDone dev at_) s = .next ((s.tick at_).switchRoute dev).settle := by
  have go : ((s.tick at_).bay.draining.contains dev && !(s.tick at_).outstanding dev) = true := by
    have d : (s.tick at_).outstanding dev = false := drained
    rw [d, Bool.not_false, Bool.and_true]
    exact draining
  simp only [exec_routeDrainDone, execRouteDrainDone]
  rw [if_pos go]

/-- A drain that leaves the path as it is. -/
theorem switchRoute_same {dev : Nat} (same : s.wantAlt dev = s.isSet F.BL_ROUTE.ALT_IN_USE dev) :
    s.switchRoute dev = State.retryHeld (State.releaseTransit
      { s with bay := { s.bay with draining := removeNum dev s.bay.draining } } dev) := by
  simp only [State.switchRoute, same, if_true]

/-- A drain that moves to the alternate path sets ROUTE_ALT. -/
theorem switchRoute_toAlt {dev : Nat} (want : s.wantAlt dev = true) (was : s.isSet F.BL_ROUTE.ALT_IN_USE dev = false) :
    s.switchRoute dev = State.retryHeld (State.releaseTransit (State.raise (State.setF
      { s with bay := { s.bay with draining := removeNum dev s.bay.draining } } F.BL_ROUTE.ALT_IN_USE dev 1)
      F.BL_STATUS.ROUTE_ALT) dev) := by
  simp only [State.switchRoute, want, was, Bool.true_eq_false, if_false, if_true]
  rfl

/-- With no message waiting none is sent. -/
theorem flushClass_nil (s : State) (port cls : Nat) : s.flushClass port cls [] = s := by
  simp only [State.flushClass]

/-- Credits that come back for a class with no message waiting are added (11 R323). -/
theorem exec_credits {port cls n : Nat} (idle : s.ports.sendq = []) :
    exec (.creditReturn port cls n at_) s = .next { s.tick at_ with
      ports := { s.ports with credits := SMap.updD s.ports.credits (port * 3 + cls) 0 (fun c => c + n) } } := by
  have noneWaits : (s.tick at_).ports.sendq = [] := idle
  exact congrArg Host.Outcome.next ((congrArg (State.flushClass _ port cls) noneWaits).trans (flushClass_nil _ port cls))

end

/-- Settles O20: one lemma per command, and one for the completion of a finished request. -/
theorem requestsGoOnAndLeaveInOrder : Obligations.RequestsGoOnAndLeaveInOrder := by
  refine ⟨fun s id port ld tag r p hr hst who first up free => ⟨_, rfl, advance_host hr hst who first up free⟩,
    fun s id at_ dev port cls n since why r => ⟨exec_fill at_, exec_retry at_, exec_expire at_, fun d o same => ?_,
      fun d o want was => ?_, exec_credits at_⟩⟩
  · rw [exec_drained at_ d o, switchRoute_same (s := s.tick at_) same]
    rfl
  · rw [exec_drained at_ d o, switchRoute_toAlt (s := s.tick at_) want was]
    rfl

end Sys2Proof.Proofs
end

section
/-! PROOFS. A BL command that starts (01 R49, Table 1.15): taken from its registers, not refused, carried out on this device. -/

namespace Sys2Proof.Proofs

open Sys2Proof Machine Laws Claims

/-- The command that `blRuns` keeps as running. -/
def blCmd (s : State) (op : Nat) (args : List (Reg × Word)) : BlBusy :=
  { op := op, a0 := (withArgs s args).reg .BL_CMD_ARG0 0, a1 := (withArgs s args).reg .BL_CMD_ARG1 0,
    a2 := (withArgs s args).reg .BL_CMD_ARG2 0, since := s.now, tag := none }

/-- A command taken up: its operation, GO and BUSY set, and kept as running. -/
def blStarted (s : State) (c : BlBusy) : State :=
  { ((s.put F.BL_CMD.OP c.op).put F.BL_CMD.GO 1).put F.BL_CMD_STATUS.BUSY 1 with bay := { s.bay with blBusy := some c } }

/-- What refuses a command before it is carried out: the reach of the bay, the words of a BIND, an LD of the tenant. -/
def blRefused (u : State) (c : BlBusy) : Bool :=
  ((c.op == 0x10 || c.op == 0x11) && u.reachable.length + 1 != u.bayDevices)
  || (c.op == 0x01 && (bitsOf c.a1 1 2 == 3 || bitsOf c.a1 4 2 == 3 || entryRsv c.a1 c.a2))
  || (c.op == 0x01 && !u.namesPair (bitsOf c.a1 8 5))
  || (c.op == 0x11 && u.bay.ldTenant.any (fun x => x.2 == bitsOf c.a0 0 12))

/-- The arguments of a BL command. -/
def blArg (r : Reg) : Bool :=
  match r with
  | .BL_CMD_ARG0 | .BL_CMD_ARG1 | .BL_CMD_ARG2 => true
  | _ => false

section
variable {s : State} {op : Nat} {args : List (Reg × Word)}

/-- `blRuns` is the command started on its arguments. -/
theorem blStarted_withArgs (s : State) (op : Nat) (args : List (Reg × Word)) :
    blStarted (withArgs s args) (blCmd s op args) = blRuns s op args := by
  obtain ⟨regs, h⟩ : ∃ regs, withArgs s args = { s with regs := regs } := ⟨_, withArgs_eq s args⟩
  unfold blRuns blStarted blCmd
  rw [h]

/-- A field set leaves the registers at other offsets. -/
theorem put_reg_ne (wf : RegsOrdered s) (f : FieldRef) (x : Nat) {r : Reg} {i : Nat} (h : f.reg.addr 0 ≠ r.addr i) :
    (s.put f x).reg r i = s.reg r i := reg_setF_ne wf x h

/-- Another bay leaves the registers. -/
theorem withBay_reg (s : State) (b : BaySt) (r : Reg) (i : Nat) : ({ s with bay := b } : State).reg r i = s.reg r i := rfl

/-- A command taken up leaves every register but its own. -/
theorem blStarted_reg (wf : RegsOrdered s) (c : BlBusy) {r : Reg} {i : Nat} (hcmd : Reg.addr .BL_CMD 0 ≠ r.addr i)
    (hst : Reg.addr .BL_CMD_STATUS 0 ≠ r.addr i) : (blStarted s c).reg r i = s.reg r i := by
  have wf1 := wf_put_field wf F.BL_CMD.OP c.op
  have wf2 := wf_put_field wf1 F.BL_CMD.GO 1
  calc (blStarted s c).reg r i
      = (((s.put F.BL_CMD.OP c.op).put F.BL_CMD.GO 1).put F.BL_CMD_STATUS.BUSY 1).reg r i := withBay_reg _ _ r i
    _ = ((s.put F.BL_CMD.OP c.op).put F.BL_CMD.GO 1).reg r i := put_reg_ne wf2 F.BL_CMD_STATUS.BUSY 1 hst
    _ = (s.put F.BL_CMD.OP c.op).reg r i := put_reg_ne wf1 F.BL_CMD.GO 1 hcmd
    _ = s.reg r i := put_reg_ne wf F.BL_CMD.OP c.op hcmd

/-- A device is the same device while its command runs. -/
theorem blRuns_devId (wf : RegsOrdered s) (hl : ∀ a ∈ args, blArg a.1 = true) : (blRuns s op args).devId = s.devId := by
  have apart : ∀ r, blArg r = true → r.addr 0 ≠ Reg.addr .BL_DEVICE_ID 0 := fun r hr => by cases r <;> cases hr <;> decide
  have h : (blRuns s op args).reg .BL_DEVICE_ID 0 = s.reg .BL_DEVICE_ID 0 := by
    rw [← blStarted_withArgs, blStarted_reg (wf_withArgs wf args) _ (by decide) (by decide)]
    exact withArgs_reg_ne wf args _ _ (fun a ha => apart a.1 (hl a ha))
  exact congrArg (bitsOf · _ _) h

/-- A command that finds none running and is not refused runs. -/
theorem startBl_runs {c : BlBusy} (now : c.since = s.now) (new : c.tag = none) (idle : s.isSet F.BL_CMD_STATUS.BUSY 0 = false)
    (ok : blRefused (blStarted s c) c = false) : s.startBl c.op c.a0 c.a1 c.a2 = (blStarted s c).runBl c := by
  obtain ⟨op, a0, a1, a2, since, tag⟩ := c
  subst now new
  obtain ⟨⟨⟨reach, words⟩, pair⟩, ld⟩ := by simpa only [blRefused, Bool.or_eq_false_iff] using ok
  unfold State.startBl
  rw [if_neg (Bool.eq_false_iff.mp idle)]
  exact (if_neg (Bool.eq_false_iff.mp reach)).trans ((if_neg (Bool.eq_false_iff.mp words)).trans
    ((if_neg (Bool.eq_false_iff.mp pair)).trans (if_neg (Bool.eq_false_iff.mp ld))))

end

/-! The arguments of a command, and its taking. -/

section
variable {s : State} {op : Nat} {args : List (Reg × Word)}

/-- The first argument written reads back, where no later one lies at its offset. -/
theorem withArgs_reg_head (wf : RegsOrdered s) (r : Reg) (v : Word) (h : ∀ a ∈ args, a.1.addr 0 ≠ r.addr 0) :
    (withArgs s ((r, v) :: args)).reg r 0 = v :=
  (withArgs_reg_ne (s := s.setReg r 0 v) (wf_setReg wf r 0 v) args r 0 h).trans (reg_setReg wf r 0 v)

/-- A command with ARG0 alone has it. -/
theorem blCmd_a0 (wf : RegsOrdered s) (a0 : Word) : (blCmd s op [(.BL_CMD_ARG0, a0)]).a0 = a0 :=
  withArgs_reg_head wf _ a0 (by simp)

/-- A command with ARG0 to ARG2 has them. -/
theorem blCmd_words (wf : RegsOrdered s) (a0 a1 a2 : Word) :
    blCmd s op [(.BL_CMD_ARG0, a0), (.BL_CMD_ARG1, a1), (.BL_CMD_ARG2, a2)]
      = { op := op, a0 := a0, a1 := a1, a2 := a2, since := s.now, tag := none } := by
  have wf0 : RegsOrdered (s.setReg .BL_CMD_ARG0 0 a0) := wf_setReg wf _ _ _
  have wf1 : RegsOrdered ((s.setReg .BL_CMD_ARG0 0 a0).setReg .BL_CMD_ARG1 0 a1) := wf_setReg wf0 _ _ _
  have h0 := withArgs_reg_head (args := [(.BL_CMD_ARG1, a1), (.BL_CMD_ARG2, a2)]) wf .BL_CMD_ARG0 a0
    (by simp [Reg.addr, Reg.info])
  have h1 := withArgs_reg_head (args := [(.BL_CMD_ARG2, a2)]) wf0 .BL_CMD_ARG1 a1 (by simp [Reg.addr, Reg.info])
  have h2 := withArgs_reg_head (args := []) wf1 .BL_CMD_ARG2 a2 (by simp)
  simp only [blCmd, h0]
  exact congrArg₂ (fun x y => BlBusy.mk op a0 x y s.now none) h1 h2

/-- Arguments leave whether a command runs. -/
theorem withArgs_idle (wf : RegsOrdered s) (hl : ∀ a ∈ args, blArg a.1 = true)
    (idle : s.isSet F.BL_CMD_STATUS.BUSY 0 = false) :
    (withArgs s args).isSet F.BL_CMD_STATUS.BUSY 0 = false := by
  have apart : ∀ r, blArg r = true → r.addr 0 ≠ Reg.addr .BL_CMD_STATUS 0 := fun r hr => by cases r <;> cases hr <;> decide
  have h : (withArgs s args).reg .BL_CMD_STATUS 0 = s.reg .BL_CMD_STATUS 0 :=
    withArgs_reg_ne wf args _ _ (fun a ha => apart a.1 (hl a ha))
  exact (congrArg (fun x => bitsOf x F.BL_CMD_STATUS.BUSY.lo F.BL_CMD_STATUS.BUSY.w == 1) h).trans idle

/-- A BL command that is taken, finds none running and is not refused runs. -/
theorem blCommand_runs {via : Via} (wf : RegsOrdered s) (h : Taken s via .BL_CMD 0)
    (idle : s.isSet F.BL_CMD_STATUS.BUSY 0 = false) (hl : ∀ a ∈ args, blArg a.1 = true)
    (known : word (op + 256) &&& ~~~(knownBits .BL_CMD) = 0#64)
    (ok : blRefused (blRuns s op args) (blCmd s op args) = false) :
    s.blCommand via op args = (blRuns s op args).runBl (blCmd s op args) := by
  have isArg : ∀ r, blArg r = true → argReg r = true := fun r hr => by cases r <;> cases hr <;> rfl
  have now : (blCmd s op args).since = (withArgs s args).now := by
    rw [withArgs_eq]
    rfl
  rw [← blStarted_withArgs] at ok ⊢
  exact (command_taken wf h (fun a ha => isArg a.1 (hl a ha)) (.inr ⟨rfl, fun _ => ⟨rfl, rfl⟩⟩) known _).trans
    (startBl_runs now rfl (withArgs_idle wf hl idle) ok)

/-- A command that this device carries out at once ends, and the rules that follow run. -/
theorem runBl_here {u t : State} {c : BlBusy} {e : CmdEnd} (here : u.blCarrier c.op c.a0 c.a1 = u.devId)
    (did : u.doBl c.op c.a0 c.a1 c.a2 none = (t, some e)) : u.runBl c = (t.endBl c.op e).settle := by
  simp only [State.runBl, here, did, if_true]

/-- A command that this device carries out and that waits for others goes on running. -/
theorem runBl_waits {u t : State} {c : BlBusy} (here : u.blCarrier c.op c.a0 c.a1 = u.devId)
    (did : u.doBl c.op c.a0 c.a1 c.a2 none = (t, none)) : u.runBl c = t := by
  simp only [State.runBl, here, did, if_true]

end

/-! Bolt commands carried out. -/

section
variable {u : State} {b : Nat} {o : BoltEntry} (held : u.entry b = o)
include held

/-- BIND of a free bolt whose entry is good binds it with a claim one above the held (01 R49, Table 1.15). -/
theorem doBind_free {a0 a1 a2 : Word} (dur : (entryOfWords a1 a2 0 1).durability ≠ 3)
    (acc : (entryOfWords a1 a2 0 1).access ≠ 3)
    (rsv : entryRsv a1 a2 = false) (pair : u.namesPair (entryOfWords a1 a2 0 1).pairId = true)
    (ix : (if a0.getLsbD 63 then u.freeBolt else some (bitsOf a0 0 20)) = some b) (range : b < u.get F.BL_RANGE_LIMIT.BOLTS)
    (free : u.bound b = false) (tenant : u.bay.tenants.contains (entryOfWords a1 a2 0 1).tenant = true)
    (room : u.pairBolts (entryOfWords a1 a2 0 1).pairId < Config.maxPairBolts) (crc : u.bay.crcBad.contains b = false)
    (good : EntryGood u b) :
    u.doBind a0 a1 a2 = (u.changeEntry b { entryOfWords a1 a2 0 1 with claim := o.claim + 1 },
      { code := 0, res := [word b] }) := by
  simp only [State.doBind, dur, acc, rsv, pair, ix, checkEntry_good good, held, Nat.not_le.mpr range, free, tenant,
    Nat.not_le.mpr room, crc, Bool.not_true, Bool.false_eq_true, or_self, if_false]

/-- UNBIND of a bound bolt clears VALID and raises SEQ. -/
theorem doUnbind_bound (bound : u.bound b = true) (good : EntryGood u b) :
    u.doUnbind b = (u.changeEntry b { o with valid := false, seq := o.seq + 1 },
      { code := 0, res := [word b] }) := by
  simp only [State.doUnbind, checkEntry_good good, held, bound, Bool.not_true, Bool.false_eq_true, if_false]

/-- MODIFY of a bound bolt that keeps pair, tenant and VOLATILE writes durability, access and caps and raises SEQ. -/
theorem doModify_bound {a1 a2 : Word} (bound : u.bound b = true) (good : EntryGood u b)
    (dur : (entryOfWords a1 a2 0 0).durability ≠ 3) (acc : (entryOfWords a1 a2 0 0).access ≠ 3) (rsv : entryRsv a1 a2 = false)
    (pair : (entryOfWords a1 a2 0 0).pairId = o.pairId) (tenant : (entryOfWords a1 a2 0 0).tenant = o.tenant)
    (vol : (entryOfWords a1 a2 0 0).durability = o.durability
      ∨ ((entryOfWords a1 a2 0 0).durability ≠ 2 ∧ o.durability ≠ 2)) :
    u.doModify b a1 a2 = (u.changeEntry b { o with
        durability := (entryOfWords a1 a2 0 0).durability, access := (entryOfWords a1 a2 0 0).access,
        dCap := (entryOfWords a1 a2 0 0).dCap, pCap := (entryOfWords a1 a2 0 0).pCap, fCap := (entryOfWords a1 a2 0 0).fCap,
        seq := o.seq + 1 }, { code := 0, res := [word b] }) := by
  have kept : ¬((entryOfWords a1 a2 0 0).durability ≠ o.durability
      ∧ ((entryOfWords a1 a2 0 0).durability = 2 ∨ o.durability = 2)) := by
    rintro ⟨differ, two⟩
    rcases vol with same | ⟨n2, o2⟩
    · exact differ same
    · exact two.elim n2 o2
  simp only [State.doModify, checkEntry_good good, held, dur, acc, rsv, bound, pair, tenant, kept, Bool.not_true,
    Bool.false_eq_true, ne_eq, not_true_eq_false, or_self, if_false]

/-- READ_ENTRY of a good entry returns its words at once. -/
theorem doReadEntry_good {asker : Option Hdr} (crc : u.bay.crcBad.contains b = false) (good : EntryGood u b) :
    u.doReadEntry b asker = (u, some { code := 0, res := entryWords o }) := by
  simp only [State.doReadEntry, checkEntry_good good, held, crc, Bool.not_false, if_true]

end

section
variable {s : State} {op : Nat} {args : List (Reg × Word)}

/-! Of the bay a running command changes the record of itself alone. -/

theorem blRuns_entry (s : State) (op : Nat) (args : List (Reg × Word)) (b : Nat) : (blRuns s op args).entry b = s.entry b := rfl

theorem blRuns_bound (s : State) (op : Nat) (args : List (Reg × Word)) (b : Nat) : (blRuns s op args).bound b = s.bound b := rfl

theorem blRuns_tenants (s : State) (op : Nat) (args : List (Reg × Word)) :
    (blRuns s op args).bay.tenants = s.bay.tenants := rfl

theorem blRuns_crcBad (s : State) (op : Nat) (args : List (Reg × Word)) : (blRuns s op args).bay.crcBad = s.bay.crcBad := rfl

theorem blRuns_pairBolts (s : State) (op : Nat) (args : List (Reg × Word)) (p : Nat) :
    (blRuns s op args).pairBolts p = s.pairBolts p := rfl

theorem blRuns_ldTenant (s : State) (op : Nat) (args : List (Reg × Word)) :
    (blRuns s op args).bay.ldTenant = s.bay.ldTenant := rfl

theorem blRuns_decoders (s : State) (op : Nat) (args : List (Reg × Word)) :
    (blRuns s op args).bay.decoders = s.bay.decoders := rfl

theorem blRuns_bolts (s : State) (op : Nat) (args : List (Reg × Word)) : (blRuns s op args).bay.bolts = s.bay.bolts := rfl

/-- A good entry stays good while a command runs. -/
theorem entryGood_blRuns {b : Nat} (good : EntryGood s b) (op : Nat) (args : List (Reg × Word)) :
    EntryGood (blRuns s op args) b := good

/-- The device of a bolt's entry carries out the commands on the bolt, or any device where it is unbound. -/
theorem blCarrier_active {u : State} {op : Nat} {a0 a1 : Word} (hop : op = 0x02 ∨ op = 0x03 ∨ op = 0x04)
    (active : u.bound (bitsOf a0 0 20) = true → entryActive (u.entry (bitsOf a0 0 20)) = u.devId) :
    u.blCarrier op a0 a1 = u.devId := by
  have carrier : u.blCarrier op a0 a1 = if u.bound (bitsOf a0 0 20) then entryActive (u.entry (bitsOf a0 0 20)) else u.devId := by
    rcases hop with rfl | rfl | rfl <;> rfl
  rw [carrier]
  split
  · next bound => exact active bound
  · rfl

end

end Sys2Proof.Proofs
end

section
/-! PROOFS. BIND, UNBIND, MODIFY and READ_ENTRY from their registers to their end (01 R17, R18, R49, Table 1.15). -/

namespace Sys2Proof.Proofs

open Sys2Proof Machine Laws Claims

/-! What does not refuse a command. -/

/-- Only BIND and the tenant commands are refused before they are carried out. -/
theorem blRefused_other {u s : State} {op : Nat} {args : List (Reg × Word)} (bind : op ≠ 0x01) (create : op ≠ 0x10)
    (delete : op ≠ 0x11) : blRefused u (blCmd s op args) = false := by
  simp [blRefused, blCmd, bind, create, delete]

/-! The operation that a command's number stands for. -/

theorem doBl_bind (u : State) (a0 a1 a2 : Word) (asker : Option Hdr) :
    u.doBl 0x01 a0 a1 a2 asker = atOnce (u.doBind a0 a1 a2) := rfl

theorem doBl_unbind (u : State) (a0 a1 a2 : Word) (asker : Option Hdr) :
    u.doBl 0x02 a0 a1 a2 asker = atOnce (u.doUnbind (bitsOf a0 0 20)) := rfl

theorem doBl_modify (u : State) (a0 a1 a2 : Word) (asker : Option Hdr) :
    u.doBl 0x03 a0 a1 a2 asker = atOnce (u.doModify (bitsOf a0 0 20) a1 a2) := rfl

theorem doBl_readEntry (u : State) (a0 a1 a2 : Word) (asker : Option Hdr) :
    u.doBl 0x04 a0 a1 a2 asker = u.doReadEntry (bitsOf a0 0 20) asker := rfl

theorem blCarrier_bind (u : State) (a0 a1 : Word) : u.blCarrier 0x01 a0 a1 = bitsOf a1 8 5 * 2 + bitsOf a1 3 1 := rfl


/-- A BIND of good words to a pair of the bay is not refused. -/
theorem blRefused_bind {u : State} {c : BlBusy} (op : c.op = 0x01) (dur : (entryOfWords c.a1 c.a2 0 1).durability ≠ 3)
    (acc : (entryOfWords c.a1 c.a2 0 1).access ≠ 3) (rsv : entryRsv c.a1 c.a2 = false)
    (pair : u.namesPair (entryOfWords c.a1 c.a2 0 1).pairId = true) : blRefused u c = false := by
  have dur' : bitsOf c.a1 1 2 ≠ 3 := dur
  have acc' : bitsOf c.a1 4 2 ≠ 3 := acc
  have pair' : u.namesPair (bitsOf c.a1 8 5) = true := pair
  simp [blRefused, op, dur', acc', rsv, pair']

section
variable {s : State} {via : Via} (wf : RegsOrdered s) (h : Taken s via .BL_CMD 0) (idle : s.isSet F.BL_CMD_STATUS.BUSY 0 = false)
include wf h idle

/-- A BL command that this device carries out at once ends with its result, and the rules that follow run. -/
theorem blCommand_ends {t : State} {op : Nat} {args : List (Reg × Word)} {e : CmdEnd} (hl : ∀ a ∈ args, blArg a.1 = true)
    (known : word (op + 256) &&& ~~~(knownBits .BL_CMD) = 0#64)
    (ok : blRefused (blRuns s op args) (blCmd s op args) = false)
    (here : (blRuns s op args).blCarrier op (blCmd s op args).a0 (blCmd s op args).a1 = (blRuns s op args).devId)
    (did : (blRuns s op args).doBl op (blCmd s op args).a0 (blCmd s op args).a1 (blCmd s op args).a2 none = (t, some e)) :
    s.blCommand via op args = (t.endBl op e).settle :=
  (blCommand_runs wf h idle hl known ok).trans (runBl_here (c := blCmd s op args) here did)

/-- BIND of a free bolt to a pair of the bay, given to the device that the entry names, ends with the bolt's index. -/
theorem bind_ends {a0 a1 a2 : Word} {b : Nat} :
    let u := blRuns s 0x01 [(.BL_CMD_ARG0, a0), (.BL_CMD_ARG1, a1), (.BL_CMD_ARG2, a2)]
    let e := entryOfWords a1 a2 0 1
    bitsOf a1 8 5 * 2 + bitsOf a1 3 1 = u.devId → e.durability ≠ 3 → e.access ≠ 3 → entryRsv a1 a2 = false →
    u.namesPair e.pairId = true → (if a0.getLsbD 63 then u.freeBolt else some (bitsOf a0 0 20)) = some b →
    b < u.get F.BL_RANGE_LIMIT.BOLTS → s.bound b = false → s.bay.tenants.contains e.tenant = true →
    s.pairBolts e.pairId < Config.maxPairBolts → s.bay.crcBad.contains b = false → EntryGood s b →
    s.blCommand via 0x01 [(.BL_CMD_ARG0, a0), (.BL_CMD_ARG1, a1), (.BL_CMD_ARG2, a2)]
      = ((u.changeEntry b { e with claim := (s.entry b).claim + 1 }).endBl 0x01 { code := 0, res := [word b] }).settle := by
  intro u e here dur acc rsv pair ix range free tenant room crc good
  have words := blCmd_words (op := 0x01) wf a0 a1 a2
  refine blCommand_ends wf h idle (by simp [blArg]) (by decide) ?_ ?_ ?_
  · rw [words]
    exact blRefused_bind rfl dur acc rsv pair
  · rw [words, blCarrier_bind]
    exact here
  · rw [words, doBl_bind, doBind_free (blRuns_entry s _ _ b) dur acc rsv pair ix range ((blRuns_bound ..).trans free)
      (by rw [blRuns_tenants, tenant]) (by rwa [blRuns_pairBolts]) (by rw [blRuns_crcBad, crc]) (entryGood_blRuns good _ _)]
    rfl

/-- UNBIND of a bound bolt, given to its active device, ends with its index. -/
theorem unbind_ends {a0 : Word} {b : Nat} (hb : b = bitsOf a0 0 20) (bound : s.bound b = true) (good : EntryGood s b)
    (active : entryActive (s.entry b) = s.devId) :
    s.blCommand via 0x02 [(.BL_CMD_ARG0, a0)]
      = (((blRuns s 0x02 [(.BL_CMD_ARG0, a0)]).changeEntry b
          { s.entry b with valid := false, seq := (s.entry b).seq + 1 }).endBl 0x02 { code := 0, res := [word b] }).settle := by
  subst hb
  have args : ∀ a ∈ [(Reg.BL_CMD_ARG0, a0)], blArg a.1 = true := by simp [blArg]
  have word0 := blCmd_a0 (op := 0x02) wf a0
  refine blCommand_ends wf h idle args (by decide) (blRefused_other (by decide) (by decide) (by decide)) ?_ ?_
  · rw [word0]
    exact blCarrier_active (.inl rfl) (fun _ => by
      rw [blRuns_entry, blRuns_devId wf args, active])
  · rw [word0, doBl_unbind, doUnbind_bound (blRuns_entry ..) ((blRuns_bound ..).trans bound) (entryGood_blRuns good _ _)]
    rfl

/-- MODIFY of a bound bolt that keeps pair, tenant and VOLATILE, given to its active device, ends with its index. -/
theorem modify_ends {a0 a1 a2 : Word} {b : Nat} (hb : b = bitsOf a0 0 20) (bound : s.bound b = true) (good : EntryGood s b)
    (active : entryActive (s.entry b) = s.devId) (dur : (entryOfWords a1 a2 0 0).durability ≠ 3)
    (acc : (entryOfWords a1 a2 0 0).access ≠ 3) (rsv : entryRsv a1 a2 = false)
    (pair : (entryOfWords a1 a2 0 0).pairId = (s.entry b).pairId) (tenant : (entryOfWords a1 a2 0 0).tenant = (s.entry b).tenant)
    (vol : (entryOfWords a1 a2 0 0).durability = (s.entry b).durability
      ∨ ((entryOfWords a1 a2 0 0).durability ≠ 2 ∧ (s.entry b).durability ≠ 2)) :
    s.blCommand via 0x03 [(.BL_CMD_ARG0, a0), (.BL_CMD_ARG1, a1), (.BL_CMD_ARG2, a2)]
      = (((blRuns s 0x03 [(.BL_CMD_ARG0, a0), (.BL_CMD_ARG1, a1), (.BL_CMD_ARG2, a2)]).changeEntry b { s.entry b with
          durability := (entryOfWords a1 a2 0 0).durability, access := (entryOfWords a1 a2 0 0).access,
          dCap := (entryOfWords a1 a2 0 0).dCap, pCap := (entryOfWords a1 a2 0 0).pCap, fCap := (entryOfWords a1 a2 0 0).fCap,
          seq := (s.entry b).seq + 1 }).endBl 0x03 { code := 0, res := [word b] }).settle := by
  subst hb
  have args : ∀ a ∈ [(Reg.BL_CMD_ARG0, a0), (.BL_CMD_ARG1, a1), (.BL_CMD_ARG2, a2)], blArg a.1 = true := by simp [blArg]
  have words := blCmd_words (op := 0x03) wf a0 a1 a2
  refine blCommand_ends wf h idle args (by decide) (blRefused_other (by decide) (by decide) (by decide)) ?_ ?_
  · rw [words]
    exact blCarrier_active (.inr (.inl rfl)) (fun _ => by
      rw [blRuns_entry, blRuns_devId wf args, active])
  · rw [words, doBl_modify, doModify_bound (blRuns_entry ..) ((blRuns_bound ..).trans bound) (entryGood_blRuns good _ _) dur acc
      rsv pair tenant vol]
    rfl

/-- READ_ENTRY of a good entry, given to its bolt's active device, ends with the entry's words. -/
theorem readEntry_ends {a0 : Word} {b : Nat} (hb : b = bitsOf a0 0 20) (crc : s.bay.crcBad.contains b = false)
    (good : EntryGood s b) (active : s.bound b = true → entryActive (s.entry b) = s.devId) :
    s.blCommand via 0x04 [(.BL_CMD_ARG0, a0)]
      = ((blRuns s 0x04 [(.BL_CMD_ARG0, a0)]).endBl 0x04 { code := 0, res := entryWords (s.entry b) }).settle := by
  subst hb
  have args : ∀ a ∈ [(Reg.BL_CMD_ARG0, a0)], blArg a.1 = true := by simp [blArg]
  have word0 := blCmd_a0 (op := 0x04) wf a0
  refine blCommand_ends wf h idle args (by decide) (blRefused_other (by decide) (by decide) (by decide)) ?_ ?_
  · rw [word0]
    exact blCarrier_active (.inr (.inr rfl)) (fun bound => by
      rw [blRuns_entry, blRuns_devId wf args, active ((blRuns_bound ..).symm.trans bound)])
  · rw [word0, doBl_readEntry]
    exact doReadEntry_good (blRuns_entry ..) (by rw [blRuns_crcBad, crc]) (entryGood_blRuns good _ _)

end

/-- Settles O21: each command is taken, not refused, carried out on this device and ended. -/
theorem boltEntryCommandsComplete : Obligations.BoltEntryCommandsComplete := by
  intro s via a0 a1 a2 at_ b wf taken idle
  have wf' : RegsOrdered (s.tick at_) := wf
  have taken' := taken_tick taken at_
  exact ⟨fun here dur acc rsv pair ix range free tenant room crc good => congrArg Host.Outcome.next
      (bind_ends wf' taken' idle here dur acc rsv pair ix range free tenant room crc good),
    fun hb bound good active => congrArg Host.Outcome.next (unbind_ends wf' taken' idle hb bound good active),
    fun hb bound good active dur acc rsv pair tenant vol => congrArg Host.Outcome.next
      (modify_ends wf' taken' idle hb bound good active dur acc rsv pair tenant vol),
    fun hb crc good active => congrArg Host.Outcome.next (readEntry_ends wf' taken' idle hb crc good active)⟩

end Sys2Proof.Proofs
end

section
/-! PROOFS. Tenants, LDs and decoders (01 R26 to R28, R49, Table 1.15). -/

namespace Sys2Proof.Proofs

open Sys2Proof Machine Laws Claims

/-! What each command does to the device that carries it out. -/

section
variable {u : State} {t : Nat}

/-- TENANT_CREATE adds the lowest free tenant and tells the bay. -/
theorem doTenantCreate_free (free : u.freeTenant = some t) :
    u.doTenantCreate = ((u.addTenant t).tellTenants 0x10 t, { code := 0, res := [word t] }) := by
  simp only [State.doTenantCreate, free]

/-- A dropped tenant leaves the reach of the device. -/
theorem dropTenant_reachable (u : State) (t : Nat) : (u.dropTenant t).reachable = u.reachable := rfl

/-- With no other device reached none is told. -/
theorem tellTenants_alone (alone : u.reachable = []) (op t : Nat) : u.tellTenants op t = u := by
  simp only [State.tellTenants, alone, List.foldl_nil]

/-- A tenant with no bolt and no LD is dropped at once by a device that reaches no other. -/
theorem doTenantDelete_alone (tenantHere : u.bay.tenants.contains t = true)
    (bolts : u.bay.bolts.any (fun x => x.2.valid && x.2.tenant == t) = false)
    (lds : u.bay.ldTenant.any (fun x => x.2 == t) = false) (alone : u.reachable = []) (asker : Option Hdr) :
    u.doTenantDelete t asker = (u.dropTenant t, some { code := 0, res := [] }) := by
  have told : u.deleteTenant t = (u.dropTenant t, { code := 0, res := [] }) := by
    rw [State.deleteTenant, tellTenants_alone ((dropTenant_reachable u t).trans alone)]
  simp only [State.doTenantDelete, tenantHere, bolts, lds, alone, told, List.isEmpty_nil, Bool.not_true, Bool.or_false,
    Bool.false_eq_true, if_false, if_true]

/-- A tenant with no bolt and no LD here is asked after at every other device reached. -/
theorem doTenantDelete_asks (tenantHere : u.bay.tenants.contains t = true)
    (bolts : u.bay.bolts.any (fun x => x.2.valid && x.2.tenant == t) = false)
    (lds : u.bay.ldTenant.any (fun x => x.2 == t) = false) (others : u.reachable ≠ []) (asker : Option Hdr) :
    u.doTenantDelete t asker
      = (u.putTenantDel { tenant := t, asker := asker, waits := [], denied := false } u.reachable, none) := by
  have some_ : u.reachable.isEmpty = false := List.isEmpty_eq_false_iff.mpr others
  simp only [State.doTenantDelete, tenantHere, bolts, lds, some_, Bool.not_true, Bool.or_false, Bool.false_eq_true, if_false]

end

section
variable {u : State} {a0 : Word} {port ld : Nat} (hport : port = bitsOf a0 0 7) (hld : ld = bitsOf a0 8 4) (range : port ≤ 95)
  (empty : SMap.findD u.bay.decoders (port * 16 + ld) [] = []) (host : u.getF F.PT_CFG.PERSONALITY port = 1)
  (width : u.getF F.PT_CFG.WIDTH port ≠ 0) (has : ld < u.getF F.PT_CFG.LD_COUNT port)
include hport hld range empty host width has

/-- LD_ATTACH with DETACH takes the tenant of an LD with no decoder. -/
theorem doLdAttach_detach (detach : a0.getLsbD 31 = true) :
    u.doLdAttach a0 = ((State.setF { u with bay := { u.bay with ldTenant := SMap.del u.bay.ldTenant (port * 16 + ld) } }
      F.PT_LD.ATTACHED (port * 16 + ld) 0).setF F.PT_LD.TENANT (port * 16 + ld) 0, .of 0) := by
  subst hport hld
  simp only [State.doLdAttach, Nat.not_lt.mpr range, host, width, Nat.not_le.mpr has, empty, detach, ne_eq, not_true_eq_false,
    or_self, List.length_nil, if_false, if_true]

/-- LD_ATTACH of a tenant that exists gives it to an LD with no decoder. -/
theorem doLdAttach_attach {t : Nat} (ht : t = bitsOf a0 16 12) (attach : a0.getLsbD 31 = false)
    (tenantHere : u.bay.tenants.contains t = true) :
    u.doLdAttach a0 = ((State.setF { u with bay := { u.bay with ldTenant := SMap.put u.bay.ldTenant (port * 16 + ld) t } }
      F.PT_LD.ATTACHED (port * 16 + ld) 1).setF F.PT_LD.TENANT (port * 16 + ld) t, .of 0) := by
  subst hport hld ht
  simp only [State.doLdAttach, Nat.not_lt.mpr range, host, width, Nat.not_le.mpr has, empty, attach, tenantHere, ne_eq,
    not_true_eq_false, or_self, List.length_nil, Bool.not_true, Bool.false_eq_true, if_false]

end

/-! The commands from their registers to their end. -/

/-- The lowest of a list and 0 is 0. -/
theorem foldl_min_zero (l : List Nat) : l.foldl min 0 = 0 := by
  induction l with
  | nil => rfl
  | cons x l ih => rw [List.foldl_cons, Nat.zero_min, ih]

/-- Device 0 carries out the tenant commands that it is given. -/
theorem blCarrier_tenant {u : State} {op : Nat} (a0 a1 : Word) (hop : op = 0x10 ∨ op = 0x11) (zero : u.devId = 0) :
    u.blCarrier op a0 a1 = u.devId := by
  have carrier : u.blCarrier op a0 a1 = u.reachable.foldl min u.devId := by
    rcases hop with rfl | rfl <;> rfl
  rw [carrier, zero, foldl_min_zero]

/-- A tenant command in a bay wholly reached is not refused, but for a TENANT_DELETE of a tenant with an LD here. -/
theorem blRefused_tenant {u : State} {c : BlBusy} (bind : c.op ≠ 0x01) (reach : u.reachable.length + 1 = u.bayDevices)
    (lds : c.op = 0x11 → u.bay.ldTenant.any (fun x => x.2 == bitsOf c.a0 0 12) = false) : blRefused u c = false := by
  have free : (c.op == 0x11 && u.bay.ldTenant.any (fun x => x.2 == bitsOf c.a0 0 12)) = false := by
    by_cases op : c.op = 0x11
    · rw [lds op, Bool.and_false]
    · rw [beq_false_of_ne op, Bool.false_and]
  simp only [blRefused, free, reach, beq_false_of_ne bind, bne_self_eq_false, Bool.and_false, Bool.false_and, Bool.or_false]

theorem doBl_tenantCreate (u : State) (a0 a1 a2 : Word) (asker : Option Hdr) :
    u.doBl 0x10 a0 a1 a2 asker = atOnce u.doTenantCreate := rfl

theorem doBl_tenantDelete (u : State) (a0 a1 a2 : Word) (asker : Option Hdr) :
    u.doBl 0x11 a0 a1 a2 asker = u.doTenantDelete (bitsOf a0 0 12) asker := rfl

theorem doBl_ldAttach (u : State) (a0 a1 a2 : Word) (asker : Option Hdr) :
    u.doBl 0x12 a0 a1 a2 asker = atOnce (u.doLdAttach a0) := rfl

theorem blCarrier_ldAttach (u : State) (a0 a1 : Word) : u.blCarrier 0x12 a0 a1 = u.devId := rfl

section
variable {s : State} {via : Via} (wf : RegsOrdered s) (h : Taken s via .BL_CMD 0) (idle : s.isSet F.BL_CMD_STATUS.BUSY 0 = false)
include wf h idle

/-- TENANT_CREATE at device 0 of a bay wholly reached ends with the number of the tenant added. -/
theorem tenantCreate_ends {t : Nat} (zero : s.devId = 0)
    (reach : (blRuns s 0x10 []).reachable.length + 1 = (blRuns s 0x10 []).bayDevices)
    (free : (blRuns s 0x10 []).freeTenant = some t) :
    s.blCommand via 0x10 []
      = ((((blRuns s 0x10 []).addTenant t).tellTenants 0x10 t).endBl 0x10 { code := 0, res := [word t] }).settle := by
  have args : ∀ a ∈ ([] : List (Reg × Word)), blArg a.1 = true := by simp
  have zero' : (blRuns s 0x10 []).devId = 0 := (blRuns_devId wf args).trans zero
  refine blCommand_ends wf h idle args (by decide) (blRefused_tenant (by simp [blCmd]) reach (by simp [blCmd]))
    (blCarrier_tenant _ _ (.inl rfl) zero') ?_
  rw [doBl_tenantCreate, doTenantCreate_free free]
  rfl

/-- TENANT_DELETE at device 0 of a bay wholly reached is carried out there. -/
theorem tenantDelete_runs {a0 : Word} {t : Nat}
    (reach : (blRuns s 0x11 [(.BL_CMD_ARG0, a0)]).reachable.length + 1 = (blRuns s 0x11 [(.BL_CMD_ARG0, a0)]).bayDevices)
    (ht : t = bitsOf a0 0 12) (lds : s.bay.ldTenant.any (fun x => x.2 == t) = false) :
    s.blCommand via 0x11 [(.BL_CMD_ARG0, a0)]
      = (blRuns s 0x11 [(.BL_CMD_ARG0, a0)]).runBl (blCmd s 0x11 [(.BL_CMD_ARG0, a0)]) := by
  have args : ∀ a ∈ [(Reg.BL_CMD_ARG0, a0)], blArg a.1 = true := by simp [blArg]
  refine blCommand_runs wf h idle args (by decide) (blRefused_tenant (by simp [blCmd]) reach (fun _ => ?_))
  rw [blRuns_ldTenant, blCmd_a0 wf, ← ht]
  exact lds

section
variable {a0 : Word} {t : Nat} (zero : s.devId = 0)
  (reach : (blRuns s 0x11 [(.BL_CMD_ARG0, a0)]).reachable.length + 1 = (blRuns s 0x11 [(.BL_CMD_ARG0, a0)]).bayDevices)
  (ht : t = bitsOf a0 0 12) (tenantHere : s.bay.tenants.contains t = true)
  (bolts : s.bay.bolts.any (fun x => x.2.valid && x.2.tenant == t) = false)
  (lds : s.bay.ldTenant.any (fun x => x.2 == t) = false)
include zero reach ht tenantHere bolts lds

/-- TENANT_DELETE in a bay of one device drops the tenant at once. -/
theorem tenantDelete_ends (alone : (blRuns s 0x11 [(.BL_CMD_ARG0, a0)]).reachable = []) :
    s.blCommand via 0x11 [(.BL_CMD_ARG0, a0)]
      = (((blRuns s 0x11 [(.BL_CMD_ARG0, a0)]).dropTenant t).endBl 0x11 { code := 0, res := [] }).settle := by
  have args : ∀ a ∈ [(Reg.BL_CMD_ARG0, a0)], blArg a.1 = true := by simp [blArg]
  have zero' : (blRuns s 0x11 [(.BL_CMD_ARG0, a0)]).devId = 0 := (blRuns_devId wf args).trans zero
  rw [tenantDelete_runs wf h idle reach ht lds]
  refine runBl_here (c := blCmd s 0x11 _) (blCarrier_tenant _ _ (.inr rfl) zero') ?_
  rw [blCmd_a0 wf]
  exact (doBl_tenantDelete ..).trans (ht ▸ doTenantDelete_alone (by rwa [blRuns_tenants]) (by rwa [blRuns_bolts])
    (by rwa [blRuns_ldTenant]) alone none)

/-- TENANT_DELETE in a bay of more devices asks the others first. -/
theorem tenantDelete_asks (others : (blRuns s 0x11 [(.BL_CMD_ARG0, a0)]).reachable ≠ []) :
    s.blCommand via 0x11 [(.BL_CMD_ARG0, a0)]
      = (blRuns s 0x11 [(.BL_CMD_ARG0, a0)]).putTenantDel { tenant := t, asker := none, waits := [], denied := false }
          (blRuns s 0x11 [(.BL_CMD_ARG0, a0)]).reachable := by
  have args : ∀ a ∈ [(Reg.BL_CMD_ARG0, a0)], blArg a.1 = true := by simp [blArg]
  have zero' : (blRuns s 0x11 [(.BL_CMD_ARG0, a0)]).devId = 0 := (blRuns_devId wf args).trans zero
  rw [tenantDelete_runs wf h idle reach ht lds]
  refine runBl_waits (c := blCmd s 0x11 _) (blCarrier_tenant _ _ (.inr rfl) zero') ?_
  rw [blCmd_a0 wf]
  exact (doBl_tenantDelete ..).trans (ht ▸ doTenantDelete_asks (by rwa [blRuns_tenants]) (by rwa [blRuns_bolts])
    (by rwa [blRuns_ldTenant]) others none)

end

/-- LD_ATTACH ends with no result once the LD has its tenant, or none. -/
theorem ldAttach_ends {a0 : Word} {t : State} (did : (blRuns s 0x12 [(.BL_CMD_ARG0, a0)]).doLdAttach a0 = (t, .of 0)) :
    s.blCommand via 0x12 [(.BL_CMD_ARG0, a0)] = (t.endBl 0x12 { code := 0, res := [] }).settle := by
  refine blCommand_ends wf h idle (by simp [blArg]) (by decide) (blRefused_other (by decide) (by decide) (by decide))
    (blCarrier_ldAttach ..) ?_
  rw [doBl_ldAttach, blCmd_a0 wf, did]
  rfl

end

/-! Decoders and the time limit. -/

section
variable {s : State}

/-- A decoder is committed on an LD with a tenant and room for it, and counted (01 R28). -/
theorem exec_commit {port ld : Nat} (d : Hdm) (at_ : Nat) (tenant : SMap.has s.bay.ldTenant (port * 16 + ld) = true)
    (room : (SMap.findD s.bay.decoders (port * 16 + ld) []).length < 8) :
    exec (.hdmCommit port ld d at_) s = .next ((State.setF { s.tick at_ with bay := { s.bay with
        decoders := SMap.put s.bay.decoders (port * 16 + ld) (SMap.findD s.bay.decoders (port * 16 + ld) [] ++ [d]) } }
      F.PT_LD.DECODERS (port * 16 + ld) ((SMap.findD s.bay.decoders (port * 16 + ld) []).length + 1)).emit
      (.hdm port ld true)) := by
  have go : (SMap.has (s.tick at_).bay.ldTenant (port * 16 + ld)
      && decide ((SMap.findD (s.tick at_).bay.decoders (port * 16 + ld) []).length < 8)) = true := by
    rw [tick_bay, tenant, decide_eq_true room]
    rfl
  exact congrArg Host.Outcome.next (if_pos go)

/-- An LD with no tenant reports the commit error. -/
theorem exec_commitError {port ld : Nat} (d : Hdm) (at_ : Nat) (tenant : SMap.has s.bay.ldTenant (port * 16 + ld) = false) :
    exec (.hdmCommit port ld d at_) s = .next ((s.tick at_).emit (.hdm port ld false)) := by
  have stop : ¬(SMap.has (s.tick at_).bay.ldTenant (port * 16 + ld)
      && decide ((SMap.findD (s.tick at_).bay.decoders (port * 16 + ld) []).length < 8)) = true := by
    rw [tick_bay, tenant, Bool.false_and]
    exact Bool.false_ne_true
  exact congrArg Host.Outcome.next (if_neg stop)

/-- A command that has run for 10 ms ends with TIMEOUT (01 R49). -/
theorem exec_blTimeout {c : BlBusy} {at_ : Nat} (runs : s.bay.blBusy = some c) (late : c.since + 10000000 ≤ max s.now at_) :
    exec (.blCmdTimeout at_) s = .next ((s.tick at_).endBl c.op { code := 11, res := [] }) := by
  have passed : c.since + 10000000 ≤ (s.tick at_).now := late
  simp only [exec_blCmdTimeout, execBlCmdTimeout, tick_bay, runs, passed, if_true]
  rfl

end

/-- Settles O23: one lemma per command. -/
theorem tenantAndDecoderCommandsComplete : Obligations.TenantAndDecoderCommandsComplete := by
  intro s via a0 at_ t port ld d c wf ended k l now
  have wf' : RegsOrdered now := wf
  refine ⟨fun taken idle zero => ⟨fun reach free => congrArg Host.Outcome.next
      (tenantCreate_ends wf' (taken_tick taken at_) idle zero reach free),
    fun reach ht tenantHere bolts lds => ⟨fun alone => congrArg Host.Outcome.next
      (tenantDelete_ends wf' (taken_tick taken at_) idle zero reach ht tenantHere bolts lds alone),
      fun others => congrArg Host.Outcome.next
      (tenantDelete_asks wf' (taken_tick taken at_) idle zero reach ht tenantHere bolts lds others)⟩⟩,
    fun taken idle hport hld ht range empty host width has => ⟨fun detach => congrArg Host.Outcome.next ?_,
      fun attach tenantHere => congrArg Host.Outcome.next ?_⟩,
    exec_commit d at_, exec_commitError d at_, exec_blTimeout⟩
  · refine ldAttach_ends wf' (taken_tick taken at_) idle (doLdAttach_detach hport hld range ?_ host width has detach)
    rw [blRuns_decoders]
    exact empty
  · refine ldAttach_ends wf' (taken_tick taken at_) idle (doLdAttach_attach hport hld range ?_ host width has ht attach ?_)
    · rw [blRuns_decoders]
      exact empty
    · rw [blRuns_tenants]
      exact tenantHere

end Sys2Proof.Proofs
end

section
/-! PROOFS. A line written under its byte enables, byte by byte (02 R55; 01 R16). -/

namespace Sys2Proof.Proofs

open Sys2Proof Machine Laws

section
variable {m : List Host.Cell} (w : memWf m = true)
include w

/-- A byte written reads back, and every other byte reads as before. -/
theorem readByte_writeByte (a b : Nat) (x : Byte) :
    readByte (writeByte m a x) b = if a = b then x else readByte m b := by
  have rises : SMap.wf m = true := ((memWf_iff m).mp w).1
  unfold readByte writeByte SMap.findD
  by_cases zero : x = 0#8
  · rw [if_pos zero, find_del m rises]
    split
    · exact zero.symm
    · rfl
  · rw [if_neg zero, find_put]
    split <;> rfl

/-- The first `n` bytes of a line written: those enabled read the data, every other byte reads as before. -/
theorem readByte_writeLineUpTo (l : Nat) (be : Word) (d : LineData) (n a : Nat) :
    readByte (writeLineUpTo m l be d n) a =
      if 64 * l ≤ a ∧ a < 64 * l + n ∧ beBit be (a - 64 * l) = true then lineByte d (a - 64 * l) else readByte m a := by
  induction n with
  | zero => exact (if_neg (by omega)).symm
  | succ k ih =>
    have wk : memWf (writeLineUpTo m l be d k) = true := memWf_writeLineUpTo m l be d k w
    simp only [writeLineUpTo]
    by_cases here : a = 64 * l + k
    · have offset : a - 64 * l = k := by omega
      cases enabled : beBit be k
      · rw [if_neg Bool.false_ne_true, ih, offset, enabled]
        simp
      · rw [if_pos rfl, readByte_writeByte wk, if_pos here.symm, offset, enabled,
          if_pos ⟨by omega, by omega, rfl⟩]
    · have same : a < 64 * l + (k + 1) ↔ a < 64 * l + k := by omega
      simp only [same]
      rw [← ih]
      split
      · rw [readByte_writeByte wk, if_neg (Ne.symm here)]
      · rfl

end

/-- Settles O10: by induction on the number of bytes of the line that are written. -/
theorem storeWritesEnabledBytesOnly : Obligations.StoreWritesEnabledBytesOnly := by
  intro m l be d a w
  exact readByte_writeLineUpTo w l be d 64 a

end Sys2Proof.Proofs
end

section
/-! PROOFS. The budget and energy declarations written (02 R61, R63, R65, R66). -/

namespace Sys2Proof.Proofs

open Sys2Proof Machine Laws Claims

/-- An access that covers the low half of a register carries its low fields in their place. -/
theorem bitsOf_accValue {a : AccW} (low : a ≠ .hi) (v : Word) {w : Nat} (h : w ≤ 32) :
    bitsOf (accValue a v) 0 w = bitsOf v 0 w := by
  cases a with
  | full => rfl
  | hi => exact absurd rfl low
  | lo =>
    have half : (accValue .lo v).toNat = v.toNat % 2 ^ 32 := by
      rw [accValue, BitVec.toNat_and]
      exact Nat.and_two_pow_sub_one_eq_mod v.toNat 32
    simp only [bitsOf, half, pow_zero, Nat.div_one]
    exact Nat.mod_mod_of_dvd _ (Nat.pow_dvd_pow 2 h)

/-- A field is less than its width allows. -/
theorem bitsOf_lt (v : Word) (lo w : Nat) : bitsOf v lo w < 2 ^ w := Nat.mod_lt _ (Nat.two_pow_pos w)

/-- What refuses a value of BUDGET_GIB (02 R65). -/
def budgetRefused (s : State) (x : Nat) : Prop := x = 0 ∨ 0x800 < x ∨ s.limitGib < x ∨ s.saveLimitGib < x

section
variable {s : State} {via : Via} {w : AccW} {v : Word}

/-- A write of BUDGET_GIB that is taken either is refused and flagged, or is in effect at once. -/
theorem writeBudget_taken (low : w ≠ .hi) (served : Served s via (accOff .PW_DIRTY_BUDGET 0 w))
    (rsv : NoRsv .PW_DIRTY_BUDGET w v) :
    (budgetRefused s (bitsOf v 0 12) → s.writeBudget via w v = s.raise F.PW_PERSIST_STATUS.BUDGET_REFUSED)
    ∧ (¬budgetRefused s (bitsOf v 0 12) → s.writeBudget via w v =
        ((s.put F.PW_DIRTY_BUDGET.BUDGET_GIB (bitsOf v 0 12)).budgetChanged s.effGib).settle) := by
  have addressed : fieldMask [F.PW_DIRTY_BUDGET.BUDGET_GIB] &&& accMask w ≠ 0#64 := by
    cases w
    · decide
    · decide
    · exact absurd rfl low
  have taken := writeAt_taken (s := s) served rfl rfl rsv
  unfold State.writeBudget
  rw [taken, if_neg addressed, bitsOf_accValue low v (by decide)]
  exact ⟨fun h => if_pos h, fun h => if_neg h⟩

/-- A field at a value leaves the effective limits, where it lies outside PW_ENERGY_DECL. -/
theorem limits_put (wf : RegsOrdered s) (f : FieldRef) (x : Nat) (apart : f.reg.addr 0 ≠ Reg.addr .PW_ENERGY_DECL 0) :
    (s.put f x).limitGib = s.limitGib ∧ (s.put f x).saveLimitGib = s.saveLimitGib := by
  have field (g : FieldRef) (h : g.reg = .PW_ENERGY_DECL) : (s.put f x).get g = s.get g :=
    getF_setF_other wf f g 0 0 x (h ▸ apart)
  unfold State.limitGib State.saveLimitGib
  rw [field F.PW_ENERGY_DECL.USABLE_J rfl, field F.PW_ENERGY_DECL.FIXED_J rfl, field F.PW_ENERGY_DECL.SAVE_AREA_GIB rfl]
  exact ⟨rfl, rfl⟩

/-- Out of an episode of R59 the budget in effect is the least of the declared one and the two limits (02 R63). -/
theorem effGib_put_budget (wf : RegsOrdered s) {x : Nat} (fits : x < 2 ^ 12) (whole : s.lines.spanLost = false) :
    (s.put F.PW_DIRTY_BUDGET.BUDGET_GIB x).effGib = min x (min s.limitGib s.saveLimitGib) := by
  obtain ⟨limit, area⟩ := limits_put wf F.PW_DIRTY_BUDGET.BUDGET_GIB x (by decide)
  have budget : (s.put F.PW_DIRTY_BUDGET.BUDGET_GIB x).get F.PW_DIRTY_BUDGET.BUDGET_GIB = x :=
    (getF_setF wf F.PW_DIRTY_BUDGET.BUDGET_GIB 0 x (by decide)).trans (Nat.mod_eq_of_lt fits)
  have episode : (s.put F.PW_DIRTY_BUDGET.BUDGET_GIB x).lines.spanLost = false := whole
  unfold State.effGib
  rw [episode, if_neg Bool.false_ne_true, budget, limit, area]

/-- PW_ENERGY_DECL has no bit that a 1 clears and none that is written only. -/
theorem writeFields_energyDecl (s : State) (w : AccW) (v : Word) :
    s.writeFields .PW_ENERGY_DECL 0 w v false = s.setReg .PW_ENERGY_DECL 0
      ((s.reg .PW_ENERGY_DECL 0 &&& ~~~(accBits .PW_ENERGY_DECL .rw &&& accMask w))
        ||| (accValue w v &&& accBits .PW_ENERGY_DECL .rw &&& accMask w)) := by
  have noOnes : accBits .PW_ENERGY_DECL .w1c = 0#64 := by decide
  have noWriteOnly : accBits .PW_ENERGY_DECL .wo = 0#64 := by decide
  simp only [State.writeFields, noOnes, noWriteOnly, Bool.false_eq_true, if_false, BitVec.or_zero, BitVec.zero_and,
    BitVec.and_zero, BitVec.not_zero, BitVec.and_allOnes, BitVec.and_assoc]

/-- A write of PW_ENERGY_DECL that is taken is in effect at once (02 R66). -/
theorem writeEnergy_taken (served : Served s via (accOff .PW_ENERGY_DECL 0 w)) (rsv : NoRsv .PW_ENERGY_DECL w v) :
    s.writeEnergy via w v = ((s.writeFields .PW_ENERGY_DECL 0 w v false).budgetChanged s.effGib).settle :=
  writeAt_taken served rfl rfl rsv _

end

/-- Settles O27: a value above a limit, above 0x800 or zero is refused. -/
theorem budgetRefusesWhatTheLimitsRefuse : Obligations.BudgetRefusesWhatTheLimitsRefuse := by
  intro s via w v at_ wf low served rsv x limits
  have refused : budgetRefused (s.tick at_) x := by
    have limits' : s.limitGib < x ∨ s.saveLimitGib < x ∨ 0x800 < x ∨ x = 0 := limits
    change x = 0 ∨ 0x800 < x ∨ s.limitGib < x ∨ s.saveLimitGib < x
    omega
  refine ⟨(s.tick at_).raise F.PW_PERSIST_STATUS.BUDGET_REFUSED, ?_, ?_, ?_⟩
  · exact congrArg Host.Outcome.next ((writeBudget_taken (s := s.tick at_) low served rsv).1 refused)
  · exact flagSet_raiseArg (s := s.tick at_) wf F.PW_PERSIST_STATUS.BUDGET_REFUSED 0 .none (by decide) rfl (by decide) (by decide)
  · exact raiseArg_reg (s := s.tick at_) wf F.PW_PERSIST_STATUS.BUDGET_REFUSED 0 .none .PW_DIRTY_BUDGET 0 (by decide) (by decide)
      (by decide)

end Sys2Proof.Proofs
end

section
/-! PROOFS. Aged lines, merge entries and GPF (02 R69, R73, R74, R83; 06 R171, R184). -/

namespace Sys2Proof.Proofs

open Sys2Proof Machine Laws Claims

/-- A burst with no wrong symbol. -/
def cleanBurst : Burst := { poisonPat := false, errs := [] }

section
variable {s : State} {m : Merge} {loc : DramLoc}

/-- A burst with no wrong symbol reads well: the row is used, and nothing is counted. -/
theorem readBurst_clean (s : State) (loc : DramLoc) (source : Nat) :
    s.readBurst loc cleanBurst source = (s.useRow (loc.ch * 2 + loc.sub) (s.rowAt loc), Decoded.good) := rfl

/-- The line of a closed entry that misses no byte is written to tier D (02 R73). -/
theorem closeMerge_whole (b : Burst) (whole : SMap.has s.lines.mask m.line = false) : s.closeMerge m loc b = s.wholeToD m.line := by
  simp only [State.closeMerge, whole, Bool.not_false, if_true]

/-- The base of a closed entry that tier D does not hold comes from below (02 R74). -/
theorem closeMerge_below (b : Burst) (partly : SMap.has s.lines.mask m.line = true) (below : s.inTierD m.line = false) :
    s.closeMerge m loc b = s.fetchBase m := by
  simp only [State.closeMerge, partly, below, Bool.not_true, Bool.false_eq_true, if_false]

/-- A row that is read leaves the lines as they are. -/
theorem useRow_lines (s : State) (sub : Nat) (r : Nat × Nat) : (s.useRow sub r).lines = s.lines := by
  unfold State.useRow
  dsimp only
  split
  · split <;> rfl
  · rfl

/-- A closed entry whose base tier D reads well, or still holds as a write, is written back as one line (02 R74; 06 R184). -/
theorem closeMerge_tierD (partly : SMap.has s.lines.mask m.line = true) (here : s.inTierD m.line = true) :
    let v : State := if s.writeHeld m.line = true then s else s.useRow (loc.ch * 2 + loc.sub) (s.rowAt loc)
    s.closeMerge m loc cleanBurst
      = State.wholeToD { v with lines := { v.lines with mask := SMap.del s.lines.mask m.line } } m.line := by
  simp only [State.closeMerge, partly, here, readBurst_clean, Bool.not_true, Bool.false_eq_true, if_false, if_true]
  cases s.writeHeld m.line
  · simp only [Bool.false_eq_true, if_false, State.markDecoded, useRow_lines]
    rfl
  · rfl

end

section
variable {s : State} {line sub : Nat} {m : Merge} {at_ : Nat}

/-- An entry whose window has ended is closed (02 R74). -/
theorem exec_mergeEnds (loc : DramLoc) (b : Burst)
    (noneClosing : s.lines.closing.find? (fun x => x.line == line && x.sub == sub && !x.base) = none)
    (entry : s.lines.merge.find? (fun x => x.line == line && x.sub == sub) = some m) (old : m.opened + 1000 ≤ max s.now at_) :
    exec (.mergeEntryClose sub line loc b at_) s = .next (State.settle (State.closeMerge
      { s.tick at_ with lines := { s.lines with merge := s.lines.merge.filter (fun x => x != m) } } m loc b)) := by
  have passed : ¬(s.tick at_).now < m.opened + 1000 := Nat.not_lt.mpr old
  simp only [exec_mergeEntryClose, execMergeEntryClose, tick_lines, noneClosing, entry, passed, if_false]

/-- A line that has been dirty for AGE_S seconds puts its frame down for destage (02 R69). -/
theorem exec_aged {d : Dirty} (dirty : SMap.find s.lines.dirty line = some d) (on : s.get F.PW_DESTAGE_CTL.AGE_S ≠ 0)
    (old : d.since + s.get F.PW_DESTAGE_CTL.AGE_S * 1000000000 ≤ max s.now at_) :
    exec (.destageAgeExpiry line at_) s = .next (State.settle
      { s.tick at_ with lines := { s.lines with destageQ := insertSorted (frameOfLine line) s.lines.destageQ } }) := by
  have due : (s.tick at_).get F.PW_DESTAGE_CTL.AGE_S ≠ 0
      ∧ d.since + (s.tick at_).get F.PW_DESTAGE_CTL.AGE_S * 1000000000 ≤ (s.tick at_).now := ⟨on, old⟩
  simp only [exec_destageAgeExpiry, execDestageAgeExpiry, tick_lines, dirty]
  rw [if_pos due]

end

/-- Settles O26: one lemma per command, and one per case of a closed merge entry. -/
theorem durableTimersAndRegistersComplete : Obligations.DurableTimersAndRegistersComplete := by
  constructor
  · intro s line at_ sub port loc d m now age rest
    refine ⟨exec_aged, fun noneClosing entry old => ?_, rfl, rfl⟩
    have ofEntry : m.line = line := by
      have picked := List.find?_some entry
      simp only [Bool.and_eq_true, beq_iff_eq] at picked
      exact picked.1
    subst ofEntry
    have closes (b : Burst) := exec_mergeEnds loc b noneClosing entry old
    refine ⟨fun partly here => ?_, fun b whole => ?_, fun b partly below => ?_⟩ <;> rw [closes]
    · exact congrArg (Host.Outcome.next ∘ State.settle) (closeMerge_tierD (s := rest) partly here)
    · exact congrArg (Host.Outcome.next ∘ State.settle) (closeMerge_whole (s := rest) b whole)
    · exact congrArg (Host.Outcome.next ∘ State.settle) (closeMerge_below (s := rest) b partly below)
  · intro s via w v at_ wf x
    refine ⟨fun low served rsv nonzero le800 leLimit leArea => ⟨?_, fun whole => ?_⟩, fun served rsv => ?_⟩
    · have taken : ¬budgetRefused (s.tick at_) x := by
        change ¬(x = 0 ∨ 0x800 < x ∨ s.limitGib < x ∨ s.saveLimitGib < x)
        omega
      exact congrArg Host.Outcome.next ((writeBudget_taken (s := s.tick at_) low served rsv).2 taken)
    · exact effGib_put_budget (s := s.tick at_) wf (bitsOf_lt v 0 12) whole
    · exact congrArg Host.Outcome.next ((writeEnergy_taken (s := s.tick at_) served rsv).trans
        (by rw [writeFields_energyDecl]; rfl))

end Sys2Proof.Proofs
end

section
/-! PROOFS. A destaged frame (02 R70, R71, R75, R76): what the rules of places, tiers and Float leave alone. -/

namespace Sys2Proof.Proofs

open Sys2Proof Machine Laws Claims

/-! What placing, counting and moving leave alone. -/

/-- The bytes of the range, the dirty and the poisoned lines, the power sequence, the pair state and the slots in tier P. -/
structure Core where
  mem : List Host.Cell
  dirty : SMap Dirty
  poison : List Nat
  power : PowerSt
  twin : TwinSt
  pmap : SMap (Nat × Nat)

/-- These parts of a state. -/
def core (s : State) : Core :=
  { mem := s.mem, dirty := s.lines.dirty, poison := s.lines.poison, power := s.power, twin := s.twin, pmap := s.tier.pmap }

/-- A loop whose every turn leaves these parts leaves them. -/
theorem core_foldl {β : Type} {g : State → β → State} (l : List β) (s : State) (h : ∀ t x, core (g t x) = core t) :
    core (l.foldl g s) = core s :=
  foldl_keeps (P := fun t => core t = core s) g (fun t x k => (h t x).trans k) l s rfl

/-- Both ways of a choice. -/
theorem core_ite {c : Prop} [Decidable c] {a b : State} {x : Core} (ha : core a = x) (hb : core b = x) :
    core (if c then a else b) = x := by
  split
  · exact ha
  · exact hb

theorem core_raise (s : State) (f : FieldRef) : core (s.raise f) = core s := by
  rw [show s.raise f = s.raiseArg f 0 .none from rfl, raiseArg_eq]
  rfl

theorem core_floatFrame (s : State) (g slot : Nat) : core (s.floatFrame g slot) = core s :=
  core_foldl _ s (fun _ _ => rfl)

theorem core_rowDone (s : State) (g row : Nat) : core (s.rowDone g row) = core s := by
  unfold State.rowDone
  split <;> rfl

theorem core_startClear (s : State) (sp : Nat) : core (s.startClear sp) = core s := by
  unfold State.startClear
  split <;> rfl

theorem core_checkEligible (s : State) (b : Nat) : core (s.checkEligible b) = core s := by
  unfold State.checkEligible
  split
  · dsimp only
    split
    · split <;> rfl
    · rfl
  · rfl

theorem core_closeBand (s : State) (b : Nat) : core (s.closeBand b) = core s := by
  unfold State.closeBand
  split
  · exact core_checkEligible _ b
  · rfl

/-- A run of slots reserved in a band leaves these parts. -/
theorem core_bandRoom {s t : State} {n b slot : Nat} {fulling : Bool} (h : s.bandRoom n fulling = some (b, slot, t)) :
    core t = core s := by
  unfold State.bandRoom at h
  dsimp only at h
  split at h
  · cases h
    rfl
  · split at h
    · cases h
    · split at h
      · next opened _ =>
        cases h
        change core (if _ then s else _) = core s
        split
        · rfl
        · split
          · exact core_closeBand s _
          · rfl
      · cases h

theorem core_startChange (s : State) (kind : ChgKind) (sp : Nat) (frames src : List Nat) (fulling credit : Bool) :
    core (s.startChange kind sp frames src fulling credit) = core s := by
  unfold State.startChange
  dsimp only
  split
  · rfl
  · split
    · rfl
    · split
      · rfl
      · next room =>
        have reserved := core_bandRoom room
        exact reserved

theorem core_planMoves (s : State) : core s.planMoves = core s := by
  refine core_foldl _ s (fun t x => ?_)
  dsimp only
  split
  · split
    · rfl
    · exact core_raise t _
  · exact core_startChange t ..

theorem core_demoteLoop (s : State) (n : Nat) : core (s.demoteLoop n) = core s := by
  induction n generalizing s with
  | zero => rfl
  | succ k ih =>
    unfold State.demoteLoop
    split
    · exact ih _
    · split
      · split
        · exact ih _
        · rfl
      · rfl

theorem core_checkDemotion (s : State) : core s.checkDemotion = core s := by
  unfold State.checkDemotion
  split
  · rfl
  · dsimp only
    rw [core_planMoves, core_demoteLoop]
    exact core_ite (core_raise _ _) rfl

/-! A line becomes clean. -/

/-- A D block is given to a frame in tier D alone. -/
theorem allocD_eq (s : State) (f : Nat) : s.allocD f = { s with dram := (s.allocD f).dram } := by
  unfold State.allocD
  dsimp only
  repeat' split
  all_goals rfl

/-- A clean line is put into tier D alone. -/
theorem putTierD_clean_eq (s : State) (l : Nat) : s.putTierD l false = { s with dram := (s.putTierD l false).dram } := by
  unfold State.putTierD
  dsimp only
  rw [allocD_eq]
  split <;> rfl

/-- A line that becomes clean leaves the list of dirty lines; its copies in the Crown and in tier D stay, clean. -/
theorem makeClean_eq (s : State) (l : Nat) : s.makeClean l = { s with
    lines := { s.lines with dirty := SMap.del s.lines.dirty l }, crown := (s.makeClean l).crown, dram := (s.makeClean l).dram } := by
  have cleanInD (t : State) : (if t.inTierD l then t.putTierD l false else t)
      = { t with dram := (if t.inTierD l then t.putTierD l false else t).dram } := by
    split
    · exact putTierD_clean_eq t l
    · rfl
  unfold State.makeClean
  dsimp only
  rw [cleanInD]
  split <;> rfl

/-- A line that a destage pass has written: its mask goes, and it is clean (02 R70, R72). -/
def lineDestaged (s : State) (l : Nat) : State :=
  { s with lines := { s.lines with mask := SMap.del s.lines.mask l } }.makeClean l

/-- Lines of a frame destaged are dirty no more, the other dirty lines stay, and the lines keep their marks and their passes. -/
theorem foldl_lineDestaged (ks : List Nat) (frame : Nat) {s : State} (wf : SMap.wf s.lines.dirty = true) :
    let u := ks.foldl (fun s k => lineDestaged s (frame * 64 + k)) s
    (∀ l, SMap.has u.lines.dirty l = (SMap.has s.lines.dirty l && !ks.any (fun k => frame * 64 + k == l)))
    ∧ u = { s with lines := { s.lines with dirty := u.lines.dirty, mask := u.lines.mask }, crown := u.crown, dram := u.dram } := by
  induction ks generalizing s with
  | nil => exact ⟨fun l => (Bool.and_true _).symm, rfl⟩
  | cons k ks ih =>
    have one := makeClean_eq { s with lines := { s.lines with mask := SMap.del s.lines.mask (frame * 64 + k) } } (frame * 64 + k)
    have dirty : (lineDestaged s (frame * 64 + k)).lines.dirty = SMap.del s.lines.dirty (frame * 64 + k) :=
      congrArg (fun t : State => t.lines.dirty) one
    obtain ⟨others, rest⟩ := ih (s := lineDestaged s (frame * 64 + k)) (dirty ▸ wf_del _ _ wf)
    refine ⟨fun l => ?_, ?_⟩
    · have first : SMap.has (SMap.del s.lines.dirty (frame * 64 + k)) l = (SMap.has s.lines.dirty l && !(frame * 64 + k == l)) := by
        unfold SMap.has
        rw [find_del _ wf]
        by_cases same : frame * 64 + k = l <;> simp [same]
      rw [List.foldl_cons, others, dirty, first, List.any_cons, Bool.not_or, Bool.and_assoc]
    · rw [List.foldl_cons, rest]
      unfold lineDestaged
      rw [one]

/-! A destage pass that ends. -/

/-- The lines of a pass that are clean at its end: written, not stored again, and dirty until now (02 R70). -/
def passLines (s : State) (frame : Nat) (lines : Word) : List Nat :=
  (List.range 64).filter (fun k => lines.getLsbD k && !(SMap.findD s.lines.again frame 0#64).getLsbD k
    && SMap.has s.lines.dirty (frame * 64 + k))

/-- The lines of a pass clean, its frame at its slot and the pass over. -/
def passOver (s : State) (frame group slot : Nat) (lines : Word) : State :=
  let again := SMap.findD s.lines.again frame 0#64
  let t : State := (passLines s frame lines).foldl (fun s k => lineDestaged s (frame * 64 + k)) s
  { t with
    lines := { t.lines with
      running := SMap.del t.lines.running frame, again := SMap.del t.lines.again frame,
      destageQ := if again = 0#64 then removeNum frame t.lines.destageQ else t.lines.destageQ,
      flushes := t.lines.flushes.map (fun w : FlushWait => FlushWait.mk w.id (w.frames.erase frame)) },
    tier := { t.tier with pmap := SMap.put t.tier.pmap frame (group, slot) } }

/-- What follows the end of a pass: counts of Float, the row, stores under write-through, the span's bit and demotion. -/
def passCounted (s : State) (frame group slot : Nat) : State :=
  ((((s.floatFrame group slot).rowDone group (s.rowOf slot)).destaged frame).startClear (spanOfFrame frame)).checkDemotion

theorem core_passCounted (s : State) (frame group slot : Nat) : core (passCounted s frame group slot) = core s := by
  have bayOnly (t : State) : core (t.destaged frame) = core t := rfl
  unfold passCounted
  rw [core_checkDemotion, core_startClear, bayOnly, core_rowDone, core_floatFrame]

section
variable {s : State} {frame group slot : Nat}

/-- The end of a pass that waits for nothing (02 R70). -/
theorem onDestageFrameDone_runs (lines : Word) (at_ : Nat)
    (pass : SMap.find s.lines.running frame = some (group, slot, false)) (listed : s.rowListed group (s.rowOf slot) = true)
    (whole : s.lines.rmwRepair.any (fun x => frameOfLine x.2 == frame) = false) :
    s.onDestageFrameDone frame group slot lines at_
      = (passCounted (passOver (s.tick at_) frame group slot lines) frame group slot).settle := by
  have listed' : (s.tick at_).rowListed group ((s.tick at_).rowOf slot) = true := listed
  simp only [State.onDestageFrameDone, tick_lines, pass, whole, listed', Bool.not_false, and_self, if_true]
  rfl

/-- The lines of a pass are those of its frame that were written, not stored again and dirty. -/
theorem passLines_any (lines : Word) (l : Nat) :
    (SMap.has s.lines.dirty l && !(passLines s frame lines).any (fun k => frame * 64 + k == l))
      = (SMap.has s.lines.dirty l && !(frameOfLine l == frame && lines.getLsbD (lineInFrame l)
          && !(SMap.findD s.lines.again frame 0#64).getLsbD (lineInFrame l))) := by
  cases dirty : SMap.has s.lines.dirty l with
  | false => rfl
  | true =>
    have same : (passLines s frame lines).any (fun k => frame * 64 + k == l)
        = (frameOfLine l == frame && lines.getLsbD (lineInFrame l)
          && !(SMap.findD s.lines.again frame 0#64).getLsbD (lineInFrame l)) := by
      rw [Bool.eq_iff_iff]
      simp only [List.any_eq_true, passLines, List.mem_filter, List.mem_range, Bool.and_eq_true, beq_iff_eq, and_assoc]
      constructor
      · rintro ⟨k, lt, written, notAgain, -, rfl⟩
        have inFrame : lineInFrame (frame * 64 + k) = k := by unfold lineInFrame; omega
        have ofFrame : frameOfLine (frame * 64 + k) = frame := by unfold frameOfLine; omega
        rw [inFrame]
        exact ⟨ofFrame, written, notAgain⟩
      · rintro ⟨ofFrame, written, notAgain⟩
        have place : frame * 64 + lineInFrame l = l := by
          unfold frameOfLine at ofFrame
          unfold lineInFrame
          omega
        exact ⟨lineInFrame l, Nat.mod_lt _ (by decide), written, notAgain, (congrArg (SMap.has s.lines.dirty) place).trans dirty,
          place⟩
    rw [same]

/-- At the end of a pass its lines are clean, its frame lies at its slot, and bytes, marks, power and pair state stand. -/
theorem passOver_core (lines : Word) (wf : SMap.wf s.lines.dirty = true) :
    let u := passOver s frame group slot lines
    (∀ l, SMap.has u.lines.dirty l = (SMap.has s.lines.dirty l
        && !(frameOfLine l == frame && lines.getLsbD (lineInFrame l)
          && !(SMap.findD s.lines.again frame 0#64).getLsbD (lineInFrame l))))
    ∧ core u = { core s with dirty := u.lines.dirty, pmap := SMap.put s.tier.pmap frame (group, slot) } := by
  obtain ⟨clean, rest⟩ := foldl_lineDestaged (passLines s frame lines) frame wf
  refine ⟨fun l => (clean l).trans (passLines_any lines l), ?_⟩
  unfold passOver
  dsimp only
  rw [rest]
  rfl

end

/-! The old frame of a pass (02 R75, R76). -/

section
variable {s : State} {l src : Nat}

/-- A number put into a rising list is in it, with those that were. -/
theorem contains_insertSorted (k j : Nat) (l : List Nat) : (insertSorted k l).contains j = (l.contains j || j == k) := by
  induction l with
  | nil =>
    simp only [insertSorted, List.contains_cons, List.contains_nil, Bool.or_false, Bool.false_or]
  | cons i t ih =>
    simp only [insertSorted]
    split
    · next same =>
      subst same
      simp only [List.contains_cons]
      cases j == i <;> simp
    · split
      · simp only [List.contains_cons]
        rw [Bool.or_comm]
      · simp only [List.contains_cons, ih, Bool.or_assoc]

/-- A line newly poisoned loses its bytes and is marked; the rest is its count, its log and its flag (02 R87). -/
theorem hush_poisonLine (fresh : s.isPoison l = false) : hush (s.poisonLine l src) = hush ((s.poisonBytes l).markPoison l) := by
  unfold State.poisonLine
  rw [if_neg (Bool.eq_false_iff.mp fresh)]
  exact HushSame.eq (flagged_raiseArg (flagged_setReg (flagged_health (flagged_bump (flagged_refl _) ..)) ..))

/-- A line that is poisoned is marked, once. -/
theorem isPoison_poisonLine (s : State) (l src j : Nat) : (s.poisonLine l src).isPoison j = (s.isPoison j || j == l) := by
  cases marked : s.isPoison l with
  | true =>
    have same : s.poisonLine l src = s := if_pos marked
    rw [same]
    by_cases here : j = l
    · rw [here, marked, Bool.true_or]
    · rw [beq_false_of_ne here, Bool.or_false]
  | false =>
    exact (congrArg (fun h : Hush => h.lines.poison.contains j) (hush_poisonLine marked)).trans
      (contains_insertSorted l j s.lines.poison)

/-- What poisoning a line leaves alone. -/
theorem poisonLine_leaves (s : State) (l src : Nat) : (s.poisonLine l src).lines.dirty = s.lines.dirty
    ∧ (s.poisonLine l src).power = s.power ∧ (s.poisonLine l src).bay = s.bay ∧ (s.poisonLine l src).twin = s.twin := by
  cases marked : s.isPoison l with
  | true =>
    have same : s.poisonLine l src = s := if_pos marked
    rw [same]
    exact ⟨rfl, rfl, rfl, rfl⟩
  | false =>
    have h := hush_poisonLine (src := src) marked
    exact ⟨congrArg (fun h : Hush => h.lines.dirty) h, congrArg Hush.power h, congrArg Hush.bay h, congrArg Hush.twin h⟩

/-- A bolt that is not MIRRORED has no copy at the twin. -/
theorem hasTwinCopy_single {sp : Nat} (single : s.mirrored (boltOfSpan sp) = false) : s.hasTwinCopy sp = false := by
  simp only [State.hasTwinCopy, single, Bool.false_and]

end

/-- A loop that poisons lines marks them, and leaves dirty lines, power, requests and the pair state. -/
theorem foldl_poisonLine (ls : List Nat) (s : State) (src : Nat) :
    let u := ls.foldl (fun s l => s.poisonLine l src) s
    (∀ j, u.isPoison j = (s.isPoison j || ls.contains j)) ∧ u.lines.dirty = s.lines.dirty ∧ u.power = s.power ∧ u.bay = s.bay
    ∧ u.twin = s.twin := by
  induction ls generalizing s with
  | nil => exact ⟨fun j => (Bool.or_false _).symm, rfl, rfl, rfl, rfl⟩
  | cons l ls ih =>
    obtain ⟨marks, dirty, power, bay, twin⟩ := ih (s.poisonLine l src)
    obtain ⟨dirty1, power1, bay1, twin1⟩ := poisonLine_leaves s l src
    refine ⟨fun j => ?_, dirty.trans dirty1, power.trans power1, bay.trans bay1, twin.trans twin1⟩
    rw [List.foldl_cons, marks, isPoison_poisonLine, List.contains_cons, Bool.or_assoc]

/-- The lines of a frame whose old frame is lost that have no whole copy here (02 R76). -/
def lostLines (s : State) (frame : Nat) : List Nat :=
  ((List.range 64).map (fun k => frame * 64 + k)).filter (fun l =>
    !s.localCopy l && (!s.isPoison l || SMap.has s.lines.dirty l))

/-- A line of the frame is lost where it has no whole copy here; a poisoned one stays poisoned either way. -/
theorem lostLines_contains {s : State} {frame k : Nat} (h : k < 64) :
    (s.isPoison (frame * 64 + k) || (lostLines s frame).contains (frame * 64 + k))
      = (s.isPoison (frame * 64 + k) || !s.localCopy (frame * 64 + k)) := by
  cases marked : s.isPoison (frame * 64 + k) with
  | true => rfl
  | false =>
    have inFrame : (frame * 64 + k) ∈ (List.range 64).map (fun k => frame * 64 + k) :=
      List.mem_map.mpr ⟨k, List.mem_range.mpr h, rfl⟩
    rw [Bool.eq_iff_iff]
    simp [lostLines, List.mem_filter, inFrame, marked, -List.mem_map]

section
variable {s : State} {frame group slot : Nat}

/-- An old frame that was recovered lets the pass go on (02 R75). -/
theorem rmwRead_recovered (pass : SMap.find s.lines.running frame = some (group, slot, true)) :
    s.rmwRead frame true
      = { s with lines := { s.lines with running := SMap.put s.lines.running frame (group, slot, false) } } := by
  simp only [State.rmwRead, pass, if_true]

/-- The lines of one frame lie in one bolt. -/
theorem boltOfSpan_frame {k : Nat} (h : k < 64) : boltOfSpan (spanOfLine (frame * 64 + k)) = boltOfFrame frame := by
  unfold boltOfSpan spanOfLine boltOfFrame
  omega

/-- Where no twin holds a copy, the lines of an old frame that is lost are poisoned (02 R76). -/
theorem foldl_lost (single : s.mirrored (boltOfFrame frame) = false) (ls : List Nat)
    (inFrame : ∀ l ∈ ls, boltOfSpan (spanOfLine l) = boltOfFrame frame) :
    ls.foldl (fun s l =>
        if s.hasTwinCopy (spanOfLine l) then
          let s := s.loseBytes l
          let (tag, s) := s.sendRepair l 1
          { s with lines := { s.lines with rmwRepair := s.lines.rmwRepair ++ [(tag, l)] } }
        else s.poisonLine l 2) s = ls.foldl (fun s l => s.poisonLine l 2) s := by
  induction ls generalizing s with
  | nil => rfl
  | cons l ls ih =>
    have noCopy : s.hasTwinCopy (spanOfLine l) = false :=
      hasTwinCopy_single (by rw [inFrame l (List.mem_cons_self ..), single])
    have single' : (s.poisonLine l 2).mirrored (boltOfFrame frame) = false := by
      obtain ⟨-, -, bay, -⟩ := poisonLine_leaves s l 2
      unfold State.mirrored State.entry
      rw [bay]
      exact single
    rw [List.foldl_cons, List.foldl_cons, noCopy, if_neg Bool.false_ne_true]
    exact ih single' (fun x hx => inFrame x (List.mem_cons_of_mem _ hx))

/-- An old frame that is lost poisons the lines with no copy here, where no twin holds one (02 R76). -/
theorem rmwRead_lost (pass : SMap.find s.lines.running frame = some (group, slot, true))
    (single : s.mirrored (boltOfFrame frame) = false) :
    let t : State := { s with lines := { s.lines with running := SMap.put s.lines.running frame (group, slot, false) } }
    s.rmwRead frame false = (lostLines t frame).foldl (fun s l => s.poisonLine l 2) t := by
  intro t
  have inFrame : ∀ l ∈ lostLines t frame, boltOfSpan (spanOfLine l) = boltOfFrame frame := by
    intro l hl
    obtain ⟨inList, -⟩ := List.mem_filter.mp hl
    obtain ⟨k, hk, rfl⟩ := List.mem_map.mp inList
    exact boltOfSpan_frame (List.mem_range.mp hk)
  simp only [State.rmwRead, pass, Bool.false_eq_true, if_false]
  exact foldl_lost (s := t) single _ inFrame

end

/-- Settles O25: the end of a pass, and the two ends of the read of its old frame. -/
theorem destagedFrameIsClean : Obligations.DestagedFrameIsClean := by
  intro s frame group slot at_ lines
  refine ⟨fun wf pass listed whole => ?_, fun pass => ?_, fun pass single => ?_⟩
  · obtain ⟨v, hv⟩ : ∃ v, v = passOver (s.tick at_) frame group slot lines := ⟨_, rfl⟩
    obtain ⟨clean, parts⟩ := passOver_core (s := s.tick at_) (frame := frame) (group := group) (slot := slot) lines wf
    rw [← hv] at clean parts
    have kept : core (passCounted v frame group slot) = core v := core_passCounted v frame group slot
    refine ⟨passCounted v frame group slot, ?_, fun l => ?_, ?_, ?_, ?_, ?_, ?_⟩
    · rw [exec_destageFrameDone, execDestageFrameDone, onDestageFrameDone_runs lines at_ pass listed whole, hv]
    · exact (congrArg (fun c : Core => SMap.has c.dirty l) kept).trans (clean l)
    · have slots : (passCounted v frame group slot).tier.pmap = SMap.put s.tier.pmap frame (group, slot) :=
        congrArg Core.pmap (kept.trans parts)
      rw [slots, find_put, if_pos rfl]
    · exact congrArg Core.mem (kept.trans parts)
    · exact congrArg Core.poison (kept.trans parts)
    · exact congrArg Core.power (kept.trans parts)
    · exact congrArg Core.twin (kept.trans parts)
  · rw [exec_rmwReadDone, execRmwReadDone, rmwRead_recovered (s := s.tick at_) pass]
    rfl
  · let t : State := { s.tick at_ with
      lines := { s.lines with running := SMap.put s.lines.running frame (group, slot, false) } }
    obtain ⟨marks, dirty, power, bay, -⟩ := foldl_poisonLine (lostLines t frame) t 2
    refine ⟨(lostLines t frame).foldl (fun s l => s.poisonLine l 2) t, ?_, fun k hk => ?_, dirty, power, bay⟩
    · rw [exec_rmwReadDone, execRmwReadDone, rmwRead_lost (s := s.tick at_) pass single]
      rfl
    · exact (marks _).trans (lostLines_contains (s := t) hk)

end Sys2Proof.Proofs
end

section
/-! PROOFS. A host store to a line that the Crown holds here, step by step (02 R53, R55, R60; 05 R157). -/

namespace Sys2Proof.Proofs

open Sys2Proof Machine Laws Claims

/-! What the placement of a store leaves alone. -/

/-- The parts of a state that a store's bytes, marks and places leave alone once the line is written. -/
structure Around where
  regs : SMap Word
  out : List Out
  bay : BaySt
  mem : List Host.Cell
  power : PowerSt
  twin : TwinSt
  cells : SMap Cell
  running : SMap (Nat × Nat × Bool)
  spanLost : Bool
  storeZero : Bool
  saveRate : Nat

/-- These parts of a state. -/
def around (s : State) : Around :=
  { regs := s.regs, out := s.out, bay := s.bay, mem := s.mem, power := s.power, twin := s.twin, cells := s.crown.cells,
    running := s.lines.running, spanLost := s.lines.spanLost, storeZero := s.lines.storeZero, saveRate := s.lines.saveRate }

section
variable {s : State} {l : Nat}

/-- The look-up of a line in the Crown reads its cells alone. -/
theorem cellAt_of_cells {t : State} (h : t.crown.cells = s.crown.cells) : t.cellAt l = s.cellAt l := by
  unfold State.cellAt
  rw [h]

/-- A line that the Crown holds is held in one of the ways of its set. -/
theorem cellAt_some {k : Nat} {c : Cell} (h : s.cellAt l = some (k, c)) :
    c.line = l ∧ SMap.find s.crown.cells k = some c ∧ ∃ w, w < 16 ∧ k = cellKey (lineSlice l) (lineSet l) w := by
  obtain ⟨w, hw, found⟩ := List.exists_of_findSome?_eq_some h
  dsimp only at found
  split at found
  · next x at_ =>
    split at found
    · next line =>
      cases found
      exact ⟨line, at_, w, List.mem_range.mp hw, rfl⟩
    · cases found
  · cases found

/-- A line that lies in a cell of its set is held. -/
theorem cellAt_isSome {c : Cell} {w : Nat} (hw : w < 16) (line : c.line = l)
    (at_ : SMap.find s.crown.cells (cellKey (lineSlice l) (lineSet l) w) = some c) : (s.cellAt l).isSome = true := by
  unfold State.cellAt
  rw [List.findSome?_isSome_iff]
  exact ⟨w, List.mem_range.mpr hw, by simp [at_, line]⟩

theorem around_storeMask (s : State) (l : Nat) (be : Word) (hit : Bool) : around (s.storeMask l be hit) = around s := by
  unfold State.storeMask
  repeat' split
  all_goals rfl

theorem around_makeDirty (s : State) (l : Nat) : around (s.makeDirty l) = around s := by
  unfold State.makeDirty
  split <;> rfl

theorem around_noteWritten (s : State) (f : Nat) : around (s.noteWritten f) = around s := by
  unfold State.noteWritten
  repeat' split
  all_goals rfl

theorem around_abandonDemotion (s : State) (sp : Nat) : around (s.abandonDemotion sp) = around s := by
  unfold State.abandonDemotion
  repeat' split
  all_goals rfl

/-- Both ways of a choice. -/
theorem around_ite {c : Prop} [Decidable c] {a b : State} {x : Around} (ha : around a = x) (hb : around b = x) :
    around (if c then a else b) = x := by
  split
  · exact ha
  · exact hb

/-- A line made dirty is dirty. -/
theorem has_makeDirty (s : State) (l : Nat) : SMap.has (s.makeDirty l).lines.dirty l = true := by
  unfold State.makeDirty
  split
  · assumption
  · simp [SMap.has, find_put]

end

/-! A store to a line that the Crown holds. -/

/-- The Crown's copy of a line made dirty, and the hit counted (05 R155, R166). -/
def storeHits (s : State) (k : Nat) (c : Cell) : State :=
  State.bump { s with crown := { s.crown with cells := SMap.put s.crown.cells k { c with dirty := true } } } F.CR_HIT_STAT.HITS 0 1

/-- The bytes of a store, and the mask and the mark of its line (02 R55, R72, R90). -/
def storeBytes (s : State) (l : Nat) (be : Word) (d : LineData) : State :=
  let s := ((s.noteWritten (frameOfLine l)).useSpan (spanOfLine l)).putLine l be d
  let s := (if be = fullBe then s.newBeats l else s).storeMask l be true
  if be = fullBe then s.clearPoison l else s

/-- A line dirty, and stored again where a destage pass of its frame runs (02 R60, R70). -/
def storeDirties (s : State) (l : Nat) : State :=
  let s := s.makeDirty l
  if SMap.has s.lines.running (frameOfLine l) then
    { s with lines := { s.lines with
      again := SMap.updD s.lines.again (frameOfLine l) 0#64 (fun w => w ||| lineBit l) } }
  else s

/-- A store to a line that the Crown holds, applied. -/
def storeApplied (s : State) (k : Nat) (c : Cell) (l : Nat) (be : Word) (d : LineData) : State :=
  (storeDirties (storeBytes (storeHits s k c) l be d) l).abandonDemotion (spanOfLine l)

section
variable {s : State} {l : Nat}

theorem around_storeBytes (s : State) (l : Nat) (be : Word) (d : LineData) :
    around (storeBytes s l be d) = { around s with mem := writeLine s.mem l be d } := by
  have put : around (((s.noteWritten (frameOfLine l)).useSpan (spanOfLine l)).putLine l be d)
      = { around s with mem := writeLine s.mem l be d } :=
    congrArg (fun a : Around => { a with mem := writeLine a.mem l be d }) (around_noteWritten s (frameOfLine l))
  have masked (t : State) : around ((if be = fullBe then t.newBeats l else t).storeMask l be true) = around t :=
    (around_storeMask ..).trans (around_ite rfl rfl)
  exact around_ite ((masked _).trans put) ((masked _).trans put)

theorem around_storeDirties (s : State) (l : Nat) : around (storeDirties s l) = around s :=
  around_ite (around_makeDirty s l) (around_makeDirty s l)

theorem has_storeDirties (s : State) (l : Nat) : SMap.has (storeDirties s l).lines.dirty l = true := by
  unfold storeDirties
  dsimp only
  split <;> exact has_makeDirty s l

/-- A store applied to a line held writes its bytes, and of the parts around only the bytes, the cells and the hits change. -/
theorem around_storeApplied (s : State) (k : Nat) (c : Cell) (l : Nat) (be : Word) (d : LineData) :
    around (storeApplied s k c l be d) = { around s with
      regs := (s.bump F.CR_HIT_STAT.HITS 0 1).regs, mem := writeLine s.mem l be d,
      cells := SMap.put s.crown.cells k { c with dirty := true } } := by
  unfold storeApplied
  rw [around_abandonDemotion, around_storeDirties, around_storeBytes]
  rfl

/-- The line of a store that is applied is dirty (02 R60). -/
theorem has_storeApplied (s : State) (k : Nat) (c : Cell) (l : Nat) (be : Word) (d : LineData) :
    SMap.has (storeApplied s k c l be d).lines.dirty l = true := by
  have dirty := has_storeDirties (storeBytes (storeHits s k c) l be d) l
  unfold storeApplied State.abandonDemotion
  split
  · split <;> exact dirty
  · exact dirty

/-- A store to a durable line that lies in a way not being cleaned is applied there (05 R157). -/
theorem applyStore_held {k : Nat} {c : Cell} (held : s.cellAt l = some (k, c)) (way : s.waySt (k % 16) ≠ .cleaning)
    (durable : s.volatile (boltOfLine l) = false) (be : Word) (d : LineData) :
    s.applyStore l be d false = some (storeApplied s k c l be d) := by
  obtain ⟨line, -, w, hw, key⟩ := cellAt_some held
  have stays : ((storeDirties (storeBytes (storeHits s k c) l be d) l).cellAt l).isSome = true := by
    have cells : (storeDirties (storeBytes (storeHits s k c) l be d) l).crown.cells
        = SMap.put s.crown.cells k { c with dirty := true } :=
      (congrArg Around.cells (around_storeDirties ..)).trans (congrArg Around.cells (around_storeBytes ..))
    refine cellAt_isSome (c := { c with dirty := true }) hw line ?_
    rw [cells, ← key, find_put, if_pos rfl]
  have leaves : (if ((storeDirties (storeBytes (storeHits s k c) l be d) l).cellAt l).isSome
      then storeDirties (storeBytes (storeHits s k c) l be d) l
      else (storeDirties (storeBytes (storeHits s k c) l be d) l).leaveDirty l)
      = storeDirties (storeBytes (storeHits s k c) l be d) l := if_pos stays
  unfold storeApplied
  rw [← leaves]
  simp only [State.applyStore, held, durable, beq_false_of_ne way, Option.isSome_some, Bool.not_false, Bool.false_eq_true,
    if_false, if_true]
  rfl

end

/-! The effective budget and the room in it, from the registers and the lines that they read. -/

section
variable {s t : State}

/-- The effective budget reads two registers, the episode of R59 and the rate of the save. -/
theorem effGib_congr (budget : t.reg .PW_DIRTY_BUDGET 0 = s.reg .PW_DIRTY_BUDGET 0)
    (energy : t.reg .PW_ENERGY_DECL 0 = s.reg .PW_ENERGY_DECL 0) (lost : t.lines.spanLost = s.lines.spanLost)
    (zero : t.lines.storeZero = s.lines.storeZero) (rate : t.lines.saveRate = s.lines.saveRate) : t.effGib = s.effGib := by
  have field (f : FieldRef) (h : t.reg f.reg 0 = s.reg f.reg 0) : t.get f = s.get f := congrArg (bitsOf · f.lo f.w) h
  simp only [State.effGib, State.limitGib, State.saveLimitGib, lost, zero, rate, field F.PW_DIRTY_BUDGET.BUDGET_GIB budget,
    field F.PW_ENERGY_DECL.USABLE_J energy, field F.PW_ENERGY_DECL.FIXED_J energy, field F.PW_ENERGY_DECL.SAVE_AREA_GIB energy]

/-- Room for a line depends on the effective budget and on the dirty lines. -/
theorem roomFor_congr {l : Nat} (budget : t.effGib = s.effGib) (dirty : t.lines.dirty = s.lines.dirty) :
    t.roomFor l = s.roomFor l := by
  have level : t.dirtyLevel = s.dirtyLevel := by rw [State.dirtyLevel, dirty, State.dirtyLevel]
  have bytes : t.budgetBytes = s.budgetBytes := by rw [State.budgetBytes, budget, State.budgetBytes]
  unfold State.roomFor
  rw [level, bytes, dirty]

/-- A bolt of this device alone stays so where its entry and the registers that decide on it stand. -/
theorem ownedHere_congr {b : Nat} (bay : t.bay = s.bay)
    (regs : ∀ r ∈ [Reg.BL_RANGE_LIMIT, .BL_DEVICE_ID, .IS_FUNC_STOPPED, .IS_BOLT_STOPPED, .DC_MAP], t.reg r 0 = s.reg r 0)
    (own : OwnedHere s b) : OwnedHere t b := by
  have field (f : FieldRef) (h : f.reg ∈ [Reg.BL_RANGE_LIMIT, .BL_DEVICE_ID, .IS_FUNC_STOPPED, .IS_BOLT_STOPPED, .DC_MAP]) :
      t.get f = s.get f := congrArg (bitsOf · f.lo f.w) (regs f.reg h)
  obtain ⟨range, bound, active, single, cached, running, fresh⟩ := own
  have entry : t.entry b = s.entry b := by rw [State.entry, bay, State.entry]
  refine ⟨?_, ?_, ?_, ?_, ?_, ?_, ?_⟩
  · rwa [field _ (by decide)]
  · rwa [State.bound, entry, bay]
  · rw [entry, active]
    exact (field F.BL_DEVICE_ID.DEVICE_ID (by decide)).symm
  · rwa [State.mirrored, entry]
  · rwa [bay]
  · rwa [State.stoppedFor, field _ (by decide), field _ (by decide), regs _ (by decide)]
  · rwa [bay]

end

/-! The steps of a store by a host, each where nothing stands in its way. -/

/-- The request that a host's store is at first. -/
def storeReq (s : State) (port ld tag o t : Nat) (be : Word) (data : LineData) : Req :=
  { id := s.bay.nextId, src := hostSource port ld, who := .host port ld tag, op := .write be data false, offset := o,
    tenant := t, since := none, st := .behind }

section
variable {s : State} {r : Req} {port ld tag : Nat} {be : Word} {data : LineData}

/-- A host store that a decoder takes is queued and taken up. -/
theorem hostRequest_write {hpa o t : Nat} (hd : s.decodeHpa port ld hpa = some o)
    (ht : SMap.find s.bay.ldTenant (port * 16 + ld) = some t) :
    s.hostRequest port ld tag hpa (.write be data false)
      = (queued s (storeReq s port ld tag o t be data)).start (storeReq s port ld tag o t be data) := by
  simp only [State.hostRequest, hd, ht]
  rfl

/-- In service, with credits, a host store that need not wait is looked up. -/
theorem start_write (who : r.who = .host port ld tag) (hw : s.mustWait r = false) (hs : s.inService = true)
    (credits : s.lines.throttled = false) : s.start r = s.lookup r true := by
  obtain ⟨h14, hb⟩ : s.power.state = 14 ∧ s.power.begun = true := by simpa [State.inService] using hs
  simp [State.start, hw, fromTwin, who, credits, h14, hb]

/-- A store that nothing holds, with room in the budget and its tenant's key loaded, is stored. -/
theorem serve_write (op : r.op = .write be data false) (own : OwnedHere s (reqBolt r)) (hp : s.power.state < 16)
    (credit : s.noCredit r = false) (key : s.keyLoaded (s.tenantOf (reqBolt r)) = true)
    (settled : s.discarding (reqBolt r) = false) (first : Bool) : s.serve r first = s.startStore r be data false false := by
  obtain ⟨-, -, -, single, -, running, fresh⟩ := own
  have go : s.whyHold r = none := by
    simp only [State.whyHold, ge_iff_le, Nat.not_le.mpr hp, running, fresh, single, Bool.not_false, Bool.false_eq_true, if_false,
      if_true]
  simp only [State.serve, go, op, credit, key, settled, Bool.not_true, Bool.false_eq_true, if_false]

/-- A store whose span's bit is not set puts the write of the bit on its way (02 R57). -/
def spanAsked (s : State) (sp : Nat) (need : Bool) : State := if need then s.startSpanWrite sp else s

/-- Under write-through the frame of a store is due for destage at once (02 R67). -/
def writtenThrough (s : State) (f : Nat) (wt : Bool) : State :=
  if wt then { s with lines := { s.lines with destageQ := insertSorted f s.lines.destageQ } } else s

/-- A store applied, of a bolt of this device alone: it waits for its span's bit, and for write-through under a zero budget
(02 R53, R57, R67). -/
def stored (s : State) (r : Req) (need : Bool) : State :=
  let s := spanAsked s (spanOfLine (lineOfOff r.offset)) need
  (writtenThrough s (frameOfLine (lineOfOff r.offset)) (s.effGib == 0)).putReq
    { r with st := .storing need false (s.effGib == 0) 0 }

/-- The end of a store at its active owner: it goes to the twin where its bolt is mirrored, and waits (02 R53 steps 6, 7). -/
def storeWaits (s : State) (r : Req) (be : Word) (d : LineData) (need wt : Bool) : State :=
  let m := s.mirroring (reqBolt r)
  let (s, tag) := match m with
    | .none => (s, 0)
    | _ =>
      let (t, s) := s.newTag
      (s.sendMirror r be d false t, t)
  let s := match m with
    | .beside => { s with twin := { s.twin with mirrorOut := s.twin.mirrorOut ++ [(tag, reqBolt r)] } }
    | _ => s
  s.putReq { r with st := .storing need (m == .wait) wt tag }

/-- A store of a bolt that is not mirrored goes to no twin. -/
theorem storeWaits_single (alone : s.mirroring (reqBolt r) = .none) (need wt : Bool) :
    storeWaits s r be data need wt = s.putReq { r with st := .storing need false wt 0 } := by
  simp only [storeWaits, alone]
  rfl

theorem around_spanAsked (s : State) (sp : Nat) (need : Bool) : around (spanAsked s sp need) = around s := by
  unfold spanAsked State.startSpanWrite
  exact around_ite (around_ite rfl rfl) rfl

theorem around_writtenThrough (s : State) (f : Nat) (wt : Bool) : around (writtenThrough s f wt) = around s :=
  around_ite rfl rfl

/-- The line of an offset lies in the bolt of the offset. -/
theorem boltOfLine_lineOfOff (o : Nat) : boltOfLine (lineOfOff o) = boltOfOff o := by
  unfold boltOfLine lineOfOff boltOfOff
  omega

/-- A store of a durable, written frame to a line that the Crown holds is applied at once. -/
theorem startStore_held {k : Nat} {c : Cell} (free : s.sliceBusy r = false) (durable : s.volatile (reqBolt r) = false)
    (single : s.mirrored (reqBolt r) = false) (old : s.written (frameOfLine (lineOfOff r.offset)) = true)
    (held : s.cellAt (lineOfOff r.offset) = some (k, c)) (way : s.waySt (k % 16) ≠ .cleaning) :
    s.startStore r be data false false = stored (storeApplied s k c (lineOfOff r.offset) be data) r
      (s.needsSpan (spanOfLine (lineOfOff r.offset))) := by
  let l := lineOfOff r.offset
  have applied : s.applyStore l be data false = some (storeApplied s k c l be data) :=
    applyStore_held held way ((boltOfLine_lineOfOff r.offset).symm ▸ durable) be data
  have accepted : s.firstStore (frameOfLine l) = .ok := if_pos old
  let w := spanAsked (storeApplied s k c l be data) (spanOfLine l) (s.needsSpan (spanOfLine l))
  have bay : w.bay = s.bay :=
    (congrArg Around.bay (around_spanAsked ..)).trans (congrArg Around.bay (around_storeApplied ..))
  have durable' : w.volatile (reqBolt r) = false := by
    rw [State.volatile, State.entry, bay]
    exact durable
  have unmirrored (f : Nat) (wt : Bool) : (writtenThrough w f wt).mirroring (reqBolt r) = .none := by
    have bay' : (writtenThrough w f wt).bay = s.bay := (congrArg Around.bay (around_writtenThrough w f wt)).trans bay
    have single' : (writtenThrough w f wt).mirrored (reqBolt r) = false := by
      rw [State.mirrored, State.entry, bay']
      exact single
    simp only [State.mirroring, single', Bool.not_false, if_true]
  have through : (w.effGib == 0 && !w.volatile (reqBolt r)) = (w.effGib == 0) := by
    rw [durable', Bool.not_false, Bool.and_true]
  have stores : s.startStore r be data false false
      = storeWaits (writtenThrough w (frameOfLine l) (w.effGib == 0 && !w.volatile (reqBolt r))) r be data
          (s.needsSpan (spanOfLine l)) (w.effGib == 0 && !w.volatile (reqBolt r)) := by
    unfold State.startStore
    dsimp only
    rw [free, durable, if_neg Bool.false_ne_true, if_neg (by simp), if_neg (by simp), accepted, applied]
    rfl
  rw [stores, through, storeWaits_single (unmirrored _ _)]
  rfl

/-- The write of a span's bit and write-through leave the dirty lines. -/
theorem stored_dirty (need : Bool) : (stored s r need).lines.dirty = s.lines.dirty := by
  have asked (sp : Nat) : (spanAsked s sp need).lines.dirty = s.lines.dirty := by
    unfold spanAsked State.startSpanWrite
    repeat' split
    all_goals rfl
  have through (t : State) (f : Nat) (wt : Bool) : (writtenThrough t f wt).lines.dirty = t.lines.dirty := by
    unfold writtenThrough
    split <;> rfl
  exact (through ..).trans (asked _)

/-- A store that waits is its request replaced, on a state whose other parts stand. -/
theorem around_stored (need : Bool) : around (stored s r need) = { around s with bay := (s.putReq
    { r with st := .storing need false ((stored s r need).effGib == 0) 0 }).bay } := by
  let w := spanAsked s (spanOfLine (lineOfOff r.offset)) need
  let v := writtenThrough w (frameOfLine (lineOfOff r.offset)) (w.effGib == 0)
  have parts : around v = around s := (around_writtenThrough ..).trans (around_spanAsked ..)
  have budget : (stored s r need).effGib = w.effGib := by
    change v.effGib = w.effGib
    change (if w.effGib == 0 then _ else w : State).effGib = w.effGib
    split <;> rfl
  rw [budget]
  exact congrArg (fun a : Around => { a with bay := { a.bay with reqs := a.bay.reqs.map (fun x : Req =>
    if x.id = r.id then { r with st := .storing need false (w.effGib == 0) 0 } else x) } }) parts

/-- A request queued with a number of its own is found by it. -/
theorem req_queued (fresh : ∀ x ∈ s.bay.reqs, x.id ≠ r.id) : (queued s r).req r.id = some r := by
  have others : s.bay.reqs.find? (fun x => x.id == r.id) = none :=
    List.find?_eq_none.mpr (fun x hx => by simpa using fresh x hx)
  simp [State.req, queued, List.find?_append, others]

/-- A store queued is no DISCARD. -/
theorem discarding_queued_write (op : r.op = .write be data false) (b : Nat) :
    (queued s r).discarding b = s.discarding b := by
  unfold State.discarding queued
  simp [op]

end

/-- A host store that its steps do not stop is applied and waits. -/
theorem start_heldWrite {s : State} {port ld tag o t k : Nat} {c : Cell} {be : Word} {data : LineData} (wf : RegsOrdered s)
    (hs : s.inService = true)
    (hr : ∀ x ∈ s.bay.reqs, x.id < s.bay.nextId ∧ ¬(x.src = hostSource port ld ∧ reqBolt x = boltOfOff o))
    (own : OwnedHere s (boltOfOff o)) (ht : (s.entry (boltOfOff o)).tenant = t) (durable : s.volatile (boltOfOff o) = false)
    (key : s.keyLoaded t = true) (credits : s.lines.throttled = false)
    (room : s.effGib = 0 ∨ s.roomFor (lineOfOff o) = true) (free : SliceFree s (hostSource port ld) (lineOfOff o))
    (settled : s.discarding (boltOfOff o) = false) (old : s.written (frameOfLine (lineOfOff o)) = true)
    (held : s.cellAt (lineOfOff o) = some (k, c)) (way : s.waySt (k % 16) ≠ .cleaning) :
    let r := storeReq s port ld tag o t be data
    (queued s r).start r = stored (storeApplied ((queued s r).bump F.BL_CACHE_STAT.HITS 0 1) k c (lineOfOff o) be data) r
      (s.needsSpan (spanOfLine (lineOfOff o))) := by
  intro r
  let q := queued s r
  let h := q.bump F.BL_CACHE_STAT.HITS 0 1
  have fresh : ∀ x ∈ s.bay.reqs, x.id ≠ r.id := fun x hx => Nat.ne_of_lt (hr x hx).1
  have hb : q.before r = s.bay.reqs := before_queued fresh
  have wait : q.mustWait r = false := mustWait_of_none_ahead (fun x hx => (hr x (hb ▸ hx)).2)
  have ownH : OwnedHere h (reqBolt r) := ownedHere_countHit (s := q) wf own
  have budget : h.effGib = s.effGib :=
    effGib_congr (reg_bump_other (s := q) wf _ 0 1 (by decide)) (reg_bump_other (s := q) wf _ 0 1 (by decide)) rfl rfl rfl
  have credit : h.noCredit r = false := by
    have room' : (h.effGib != 0 && !h.roomFor (lineOfOff o)) = false := by
      rw [roomFor_congr (s := s) budget rfl, budget]
      rcases room with zero | fits
      · rw [zero]
        rfl
      · rw [fits, Bool.not_true, Bool.and_false]
    have throttled : h.lines.throttled = false := credits
    have lineRoom : (!h.volatile (reqBolt r) && h.effGib != 0 && !h.roomFor (lineOfOff r.offset)) = false := by
      rw [Bool.and_assoc]
      exact (congrArg (!h.volatile (reqBolt r) && ·) room').trans (Bool.and_false _)
    rw [State.noCredit, throttled, lineRoom, Bool.or_self]
  have keyed : h.keyLoaded (h.tenantOf (reqBolt r)) = true := by
    have tenant : h.tenantOf (reqBolt r) = t := ht
    rw [tenant]
    exact key
  have notDiscarding : h.discarding (reqBolt r) = false := (discarding_queued_write (s := s) rfl _).trans settled
  obtain ⟨-, -, -, single, cached, -, -⟩ := own
  have p14 : s.power.state = 14 := by simpa using (Bool.and_eq_true_iff.mp hs).1
  have p16 : h.power.state < 16 := by
    change s.power.state < 16
    omega
  calc q.start r
      = q.lookup r true := start_write rfl wait hs credits
    _ = h.route r true := if_pos cached
    _ = h.serve r true := route_ownTenant rfl ownH ht true
    _ = h.startStore r be data false false := serve_write rfl ownH p16 credit keyed notDiscarding true
    _ = stored (storeApplied h k c (lineOfOff o) be data) r (h.needsSpan (spanOfLine (lineOfOff o))) :=
        startStore_held (s := h) (sliceBusy_of_free (s := s) (u := h) hb rfl free) durable single old held way

/-- Bytes received leave the table of registers in order, and every register but the counter of their port. -/
theorem countRx_regs {s : State} (wf : RegsOrdered s) (port n : Nat) : RegsOrdered (s.countRx port n)
    ∧ ∀ r k, r.addr k ≠ Reg.addr .PT_TRAFFIC port → (s.countRx port n).reg r k = s.reg r k := by
  have regs : (s.countRx port n).regs
      = (s.countBytes F.PT_TRAFFIC.RX_MIB port (SMap.findD s.ports.rxBytes port 0) n).2.regs := rfl
  unfold RegsOrdered State.reg
  rw [regs]
  unfold State.countBytes
  dsimp only
  split
  · exact ⟨wf_setF wf _ _ _, fun r k apart => reg_bump_other wf F.PT_TRAFFIC.RX_MIB port _ apart⟩
  · exact ⟨wf, fun _ _ _ => rfl⟩

/-- The registers of the ports lie above those of the other blocks on a request's path. -/
theorem below_ports {r : Reg} {k : Nat} (low : r.addr k < 0xc00000) (port : Nat) : r.addr k ≠ Reg.addr .PT_TRAFFIC port := by
  have above : 0xc00000 ≤ Reg.addr .PT_TRAFFIC port := by
    simp only [Reg.addr, Reg.info]
    omega
  omega

/-- Settles O18: the store is taken up, looked up, served here, applied to the line held, and waits. -/
theorem hostStoreWritesTheDevicesCopy : Obligations.HostStoreWritesTheDevicesCopy := by
  intro s port ld tag hpa at_ o t k c be data wf takes own ht durable key credits room free settled old held way
  obtain ⟨serves, decoded, tenant, open_, hr⟩ := takes
  have eq : (s.tick at_).countRx port 64 = _ := countRx_eq (s.tick at_) port 64
  obtain ⟨wfV, low⟩ := countRx_regs (s := s.tick at_) wf port 64
  have exec_ : exec (.memWr port ld tag hpa be data at_) s
      = .next (((s.tick at_).countRx port 64).hostRequest port ld tag hpa (.write be data false)).settle := by
    rw [exec_memWr, execMemWr]
    exact congrArg Host.Outcome.next (if_pos serves)
  generalize (s.tick at_).countRx port 64 = v at eq wfV low exec_
  obtain ⟨regs, ports, rfl⟩ : ∃ regs ports, v = { s.tick at_ with regs := regs, ports := ports } := ⟨_, _, eq⟩
  let v : State := { s.tick at_ with regs := regs, ports := ports }
  have same (r : Reg) (h : r.addr 0 < 0xc00000) : v.reg r 0 = s.reg r 0 := low r 0 (below_ports h port)
  have budget : v.effGib = s.effGib := effGib_congr (same _ (by decide)) (same _ (by decide)) rfl rfl rfl
  have ownV : OwnedHere v (boltOfOff o) := by
    refine ownedHere_congr (s := s) rfl (fun r hr => same r ?_) own
    fin_cases hr <;> decide
  have roomV : v.effGib = 0 ∨ v.roomFor (lineOfOff o) = true := by
    rw [budget, roomFor_congr (s := s) budget rfl]
    exact room
  let r := storeReq v port ld tag o t be data
  let h := (queued v r).bump F.BL_CACHE_STAT.HITS 0 1
  let a := storeApplied h k c (lineOfOff o) be data
  let need := s.needsSpan (spanOfLine (lineOfOff o))
  have done : v.hostRequest port ld tag hpa (.write be data false) = stored a r need :=
    (hostRequest_write (s := v) decoded tenant).trans
      (start_heldWrite (s := v) wfV open_ hr ownV ht durable key credits roomV free settled old held way)
  let u := stored a r need
  let r' : Req := { r with st := .storing need false (u.effGib == 0) 0 }
  have waits : around u = { around a with bay := (a.putReq r').bay } := around_stored need
  have applied := around_storeApplied h k c (lineOfOff o) be data
  have fresh : ∀ x ∈ v.bay.reqs, x.id ≠ r.id := fun x hx => Nat.ne_of_lt (hr x hx).1
  have bay : u.bay = (queued v r').bay := by
    calc u.bay = (a.putReq r').bay := congrArg Around.bay waits
      _ = ((queued v r).putReq r').bay := by
        unfold State.putReq
        rw [show a.bay = (queued v r).bay from congrArg Around.bay applied]
      _ = (queued v r').bay := congrArg State.bay (putReq_queued fresh rfl)
  refine ⟨u, ?_, ?_, ?_, ?_, ?_, ?_, ?_, ?_⟩
  · rw [exec_, done]
  · exact (congrArg Around.mem waits).trans (congrArg Around.mem applied)
  · have dirty : SMap.has a.lines.dirty (lineOfOff o) = true := has_storeApplied ..
    rwa [← stored_dirty (s := a) (r := r) need] at dirty
  · rw [State.req, bay]
    exact req_queued (s := v) (r := r') fresh
  · exact (congrArg Around.out waits).trans (congrArg Around.out applied)
  · exact (congrArg Around.power waits).trans (congrArg Around.power applied)
  · rw [bay]
    rfl
  · exact (congrArg Around.twin waits).trans (congrArg Around.twin applied)

end Sys2Proof.Proofs
end

section
/-! PROOFS. Messages that reach this device: what their receipt leaves, and what each answer and each piece of news does (02 R53,
R78, R81; 01 R23; 03 R124, R125; 11 R322, R324, R326). -/

namespace Sys2Proof.Proofs

open Sys2Proof Machine Laws Claims

/-! The receipt of a message. -/

/-- A field reads the bits up to its highest. -/
theorem bitsOf_congr {v v' : Word} {lo w : Nat} (same : ∀ i < lo + w, v.getLsbD i = v'.getLsbD i) :
    bitsOf v lo w = bitsOf v' lo w := by
  refine Nat.eq_of_testBit_eq fun i => ?_
  unfold bitsOf
  rw [Nat.testBit_mod_two_pow, Nat.testBit_mod_two_pow, Nat.testBit_div_two_pow, Nat.testBit_div_two_pow]
  by_cases hi : i < w
  · exact congrArg (_ && ·) (same (i + lo) (by omega))
  · simp [hi]

/-- A field written leaves the bits below it. -/
theorem getLsbD_withBits_below (v : Word) {lo w i : Nat} (x : Nat) (fits : lo + w ≤ 64) (below : i < lo) :
    (withBits v lo w x).getLsbD i = v.getLsbD i := by
  have same := bitsOf_withBits_ne v lo w x i 1 fits (.inr below)
  unfold bitsOf at same
  rw [BitVec.getLsbD, BitVec.getLsbD, Nat.testBit_eq_decide_div_mod_eq, Nat.testBit_eq_decide_div_mod_eq]
  simpa using congrArg (fun n => decide (n = 1)) same

section
variable {s : State}

/-- Bytes received change no field in the lower half of its register: RX_MIB is the upper half of its own. -/
theorem countRx_getF (wf : RegsOrdered s) (port n : Nat) {g : FieldRef} (low : g.lo + g.w ≤ 32) (j : Nat) :
    (s.countRx port n).getF g j = s.getF g j := by
  by_cases apart : g.reg.addr j = Reg.addr .PT_TRAFFIC port
  · have regs : (s.countRx port n).regs
        = (s.countBytes F.PT_TRAFFIC.RX_MIB port (SMap.findD s.ports.rxBytes port 0) n).2.regs := rfl
    have shared (t : State) : t.reg g.reg j = t.reg .PT_TRAFFIC port ^^^ (Reg.reset .PT_TRAFFIC ^^^ g.reg.reset) := by
      unfold State.reg
      rw [apart, BitVec.xor_assoc, ← BitVec.xor_assoc (Reg.reset .PT_TRAFFIC), BitVec.xor_self, BitVec.zero_xor]
    have counted : ∀ i < 32, ((s.countRx port n).reg .PT_TRAFFIC port).getLsbD i = (s.reg .PT_TRAFFIC port).getLsbD i := by
      intro i hi
      unfold State.reg
      rw [regs]
      unfold State.countBytes
      dsimp only
      split
      · have bumped := reg_setReg wf Reg.PT_TRAFFIC port (withBits (s.reg .PT_TRAFFIC port) 32 32
          (satAdd 32 (s.getF F.PT_TRAFFIC.RX_MIB port) ((SMap.findD s.ports.rxBytes port 0 + n) / 1048576)))
        exact (congrArg (BitVec.getLsbD · i) bumped).trans (getLsbD_withBits_below _ _ (by decide) hi)
      · rfl
    refine bitsOf_congr fun i hi => ?_
    simp only [shared, BitVec.getLsbD_xor, counted i (by omega)]
  · exact congrArg (bitsOf · g.lo g.w) ((countRx_regs wf port n).2 _ _ apart)

theorem countRx_devId (wf : RegsOrdered s) (port n : Nat) : (s.countRx port n).devId = s.devId :=
  countRx_getF wf port n (by decide) 0

/-- A header of this device's names its DEVICE_ID alone. -/
theorem hdr_congr {t : State} (same : t.devId = s.devId) (dst : Nat) : t.hdr dst = s.hdr dst := by
  unfold State.hdr
  rw [same]

theorem countRx_hdr (wf : RegsOrdered s) (port n dst : Nat) : (s.countRx port n).hdr dst = s.hdr dst :=
  hdr_congr (countRx_devId wf port n) dst

@[simp] theorem countRx_time (port n : Nat) : (s.countRx port n).time = s.time := by rw [countRx_eq]
@[simp] theorem countRx_bay (port n : Nat) : (s.countRx port n).bay = s.bay := by rw [countRx_eq]
@[simp] theorem countRx_twin (port n : Nat) : (s.countRx port n).twin = s.twin := by rw [countRx_eq]
@[simp] theorem countRx_lines (port n : Nat) : (s.countRx port n).lines = s.lines := by rw [countRx_eq]
@[simp] theorem countRx_stripe (port n : Nat) : (s.countRx port n).stripe = s.stripe := by rw [countRx_eq]
@[simp] theorem countRx_power (port n : Nat) : (s.countRx port n).power = s.power := by rw [countRx_eq]

/-- Bytes received leave the bolts that this device is active for. -/
theorem countRx_isActive (wf : RegsOrdered s) (port n : Nat) : (s.countRx port n).isActive = s.isActive := by
  funext b
  rw [State.isActive, State.bound, State.entry, countRx_devId wf, countRx_bay]
  rfl

/-- A message for this device is counted, and acts. -/
theorem receive_here {h : Hdr} (wf : RegsOrdered s) (serves : s.linkServes h = true) (here : h.dst = s.devId) (p : Payload)
    (act : State → State) : s.receive h p act = act (s.countRx h.port (32 + payloadLen p)) := by
  simp only [State.receive, serves, countRx_devId wf, here, Bool.not_true, Bool.false_eq_true, if_false, if_true]

/-- A message for another device is counted, and goes on. -/
theorem receive_through {h : Hdr} (wf : RegsOrdered s) (serves : s.linkServes h = true) (away : h.dst ≠ s.devId) (p : Payload)
    (act : State → State) : s.receive h p act = (s.countRx h.port (32 + payloadLen p)).sendThrough h p := by
  simp only [State.receive, serves, countRx_devId wf, away, Bool.not_true, Bool.false_eq_true, if_false]

/-- The port of a route is read from the route and from the links. -/
theorem ctlPort_congr {t : State} {d : Nat}
    (route : ∀ f ∈ [F.BL_ROUTE.PRIMARY_PORT, F.BL_ROUTE.ALT_PORT, F.BL_ROUTE.ALT_IN_USE], t.getF f d = s.getF f d)
    (link : ∀ p < 96, t.portUp p = s.portUp p) : t.ctlPort d = s.ctlPort d := by
  have primary := route F.BL_ROUTE.PRIMARY_PORT (by simp)
  have alt := route F.BL_ROUTE.ALT_PORT (by simp)
  have inUse := route F.BL_ROUTE.ALT_IN_USE (by simp)
  have up (p : Nat) : (if p < 96 ∧ t.portUp p = true then some p else none)
      = if p < 96 ∧ s.portUp p = true then some p else none :=
    if_congr (and_congr_right fun hp => by rw [link p hp]) rfl rfl
  unfold State.ctlPort State.routePort State.isSet
  rw [primary, alt, inUse, up, up]

theorem countRx_ctlPort (wf : RegsOrdered s) (port n d : Nat) : (s.countRx port n).ctlPort d = s.ctlPort d := by
  refine ctlPort_congr (fun f hf => countRx_getF wf port n ?_ d) fun p _ => ?_
  · fin_cases hf <;> decide
  · exact congrArg (· == 2) (countRx_getF (g := F.PT_LINK.STATE) wf port n (by decide) p)

end

/-! Answers that end what waits for them. -/

section
variable {s : State} {h : Hdr} {r : Req}

/-- The acknowledgement of a store that waits for the twin, on a device that is not fenced (02 R53; 12 R352; 03 R109). -/
theorem takeAck_storing {need wt : Bool} {tag : Nat} (sent : s.twin.mirrorOut.find? (fun x => x.1 == h.tag) = none)
    (open_ : s.twin.fenced = false) (waits : r.st = .storing need true wt tag)
    (found : s.bay.reqs.find? (fun r => match r.st with | .storing _ true _ t => t == h.tag | _ => false) = some r) :
    (h.status = 0 →
      s.takeAck h = State.settle (State.flushStream (s.putReq { r with st := .storing need false wt tag }) (reqBolt r)))
    ∧ (h.status = 10 →
      s.takeAck h = State.settle (State.flushStream (s.putReq { r with st := .refused need wt tag }) (reqBolt r)))
    ∧ (h.status = 3 → s.takeAck h = State.settle ((s.staleStore r).flushStream (reqBolt r))) := by
  unfold State.takeAck
  rw [sent]
  dsimp only
  split
  · next x heq =>
    obtain rfl : x = r := Option.some.inj (heq.symm.trans found)
    rw [waits, open_]
    refine ⟨fun ok => ?_, fun empty => ?_, fun stale => ?_⟩
    · rw [ok]; rfl
    · rw [empty]; rfl
    · rw [stale]; rfl
  · next heq => cases heq.symm.trans found

/-- A refused store is sent again while it is refused (12 R352). -/
theorem exec_resend {at_ tag : Nat} {need wt : Bool} (found : s.req r.id = some r) (refused : r.st = .refused need wt tag) :
    exec (.mirrorWrResend r.id at_) s = .next (State.settle ((s.tick at_).resendMirror r tag)) := by
  have here : (s.tick at_).req r.id = some r := found
  rw [exec_mirrorWrResend, execMirrorWrResend]
  simp only [here, refused]

/-- A status of Table 0.5 is named as it is. -/
theorem namedCode_of_lt {code : Nat} (named : code < 14) : s.namedCode code = (code, s) := if_pos named

/-- An answer to a forwarded request ends it where the device is not isolated, or has it wait for the entry (11 R322; 01 R426). -/
theorem takeCmp_forwarded (found : s.forwardedReq h = some r) :
    (h.status = 3 → s.takeCmp h = (s.staleForward r h.src).settle)
    ∧ (h.status ≠ 3 → h.status < 14 → s.twin.st ≠ .isolated → s.takeCmp h = (s.finish r h.status 0#512 false).settle) := by
  refine ⟨fun stale => ?_, fun current named open_ => ?_⟩
  · simp only [State.takeCmp, found, stale, if_true]
  · simp only [State.takeCmp, found, current, named, namedCode_of_lt, beq_false_of_ne open_, Bool.false_and,
      Bool.false_eq_true, if_false]

theorem takeCtrlCmp_forwarded {res : List Word} (found : s.forwardedReq h = some r) :
    (h.status = 3 → s.takeCtrlCmp h res = (s.staleForward r h.src).settle)
    ∧ (h.status ≠ 3 → h.status < 14 → s.twin.st ≠ .isolated →
      s.takeCtrlCmp h res = (s.finish r h.status (lineOfWords res) false).settle) := by
  refine ⟨fun stale => ?_, fun current named open_ => ?_⟩
  · simp only [State.takeCtrlCmp, found, stale, if_true]
  · simp only [State.takeCtrlCmp, found, current, named, namedCode_of_lt, beq_false_of_ne open_, Bool.false_and,
      Bool.false_eq_true, if_false]

theorem takeData_forwarded {pmap : Word} {lines : List LineData} (found : s.forwardedReq h = some r) :
    (h.status = 3 → s.takeData h pmap lines = (s.staleForward r h.src).settle)
    ∧ (reqTile r = false → h.status = 0 ∨ h.status = 1 → s.twin.st ≠ .isolated →
      s.takeData h pmap lines = (s.finish r 0 (lines.headD 0#512) (pmap.getLsbD 0)).settle) := by
  refine ⟨fun stale => ?_, fun line good open_ => ?_⟩
  · simp only [State.takeData, found, stale, if_true]
  · rcases good with e | e <;>
      simp [State.takeData, found, e, line, State.namedCode, beq_false_of_ne open_]

/-- A message that is sent, or waits, changes the registers, the output and what the ports keep alone. -/
def SentOnly (s t : State) : Prop := t = { s with regs := t.regs, out := t.out, ports := t.ports }

theorem SentOnly.trans {t u : State} (a : SentOnly s t) (b : SentOnly t u) : SentOnly s u := by
  unfold SentOnly at *
  rw [a] at b
  exact b

theorem SentOnly.parts {t : State} (k : SentOnly s t) :
    t.bay = s.bay ∧ t.twin = s.twin ∧ t.lines = s.lines ∧ t.stripe = s.stripe := by
  unfold SentOnly at k
  rw [k]
  exact ⟨rfl, rfl, rfl, rfl⟩

theorem sentOnly_emitMsg (s : State) (port : Nat) (h : Hdr) (p : Payload) : SentOnly s (s.emitMsg port h p) := by
  unfold SentOnly State.emitMsg
  rw [countTx_eq]
  rfl

theorem sentOnly_sendOn (s : State) (port : Nat) (h : Hdr) (p : Payload) : SentOnly s (s.sendOn port h p) := by
  unfold State.sendOn
  dsimp only
  split
  · rfl
  · split
    · split
      · rfl
      · exact sentOnly_emitMsg ..
    · split
      · rfl
      · exact sentOnly_emitMsg { s with ports := _ } ..

theorem sentOnly_sendStream (s : State) (b : Nat) (h : Hdr) (p : Payload) (busy : Bool) : SentOnly s (s.sendStream b h p busy) := by
  unfold State.sendStream
  dsimp only
  split
  · rfl
  · split
    · rfl
    · exact sentOnly_sendOn ..

theorem sentOnly_flushStream (s : State) (b : Nat) : SentOnly s (s.flushStream b) := by
  unfold State.flushStream
  split
  · rfl
  · exact foldl_keeps (P := SentOnly s) _ (fun t x k => k.trans (sentOnly_sendStream ..)) _ _ rfl

/-- The answer to a read repair gives the waiting read its line, or poison, where no copy for a frame waits for it (02 R78, R81). -/
theorem takeRepairData_repairing {pmap : Word} {lines : List LineData} {src : Nat}
    (back : s.lines.copyBack = []) (built : s.lines.rmwRepair = [])
    (heals : s.stripe.heals = []) (waits : r.st = .repairing h.tag src)
    (found : s.bay.reqs.find? (fun r => match r.st with | .repairing t _ => t == h.tag | _ => false) = some r) :
    let v := s.flushStream (boltOfOff h.offset)
    (h.status = 0 → lines ≠ [] → pmap.getLsbD 0 = false →
      s.takeRepairData h pmap lines = State.settle (v.takeRepair (lineOfOff r.offset) (lines.headD 0#512)))
    ∧ (h.status = 8 ∨ lines = [] ∨ pmap.getLsbD 0 = true →
      s.takeRepairData h pmap lines = State.settle (v.poisonRead (lineOfOff r.offset) src)) := by
  intro v
  obtain ⟨bay, -, lines_, stripe⟩ : v.bay = s.bay ∧ _ := (sentOnly_flushStream s _).parts
  have eq (good : Bool) (hg : ((h.status == 0 || h.status == 1) && !lines.isEmpty && !pmap.getLsbD 0) = good) :
      s.takeRepairData h pmap lines
        = (if good then v.takeRepair (lineOfOff r.offset) (lines.headD 0#512) else v.poisonRead (lineOfOff r.offset) src).settle := by
    unfold State.takeRepairData
    dsimp only
    rw [hg, lines_, stripe, bay, back, built, heals]
    dsimp only [List.find?_nil]
    split
    · next x heq =>
      obtain rfl : x = r := Option.some.inj (heq.symm.trans found)
      rw [waits]
    · next heq => cases heq.symm.trans found
  refine ⟨fun ok some_ clean => ?_, fun bad => ?_⟩
  · exact eq true (by rw [ok, clean, List.isEmpty_eq_false_iff.mpr some_]; rfl)
  · refine eq false ?_
    rcases bad with e | e | e <;> simp [e]

end

/-! Copies, handovers and maps (03). -/

section
variable {s : State} {h : Hdr}

/-- The acknowledgement of a frame's copy: the rejoin goes on with the next span after the last of its own (03 R125). -/
theorem takeCopyAck_found {tag frame : Nat} (found : s.twin.copyOut.find? (fun x => x.1 == h.tag) = some (tag, frame)) :
    let v := State.flushStream { s with twin := { s.twin with
      copyOut := s.twin.copyOut.filter (fun y => y != (tag, frame)) } } (boltOfSpan (spanOfFrame frame))
    (v.twin.copyOut.any (fun y => spanOfFrame y.2 == spanOfFrame frame) = true → s.takeCopyAck h = v)
    ∧ (v.twin.copyOut.any (fun y => spanOfFrame y.2 == spanOfFrame frame) = false → v.twin.st = .feeding →
      s.takeCopyAck h = State.settle (v.feedNext (spanOfFrame frame))) := by
  intro v
  unfold State.takeCopyAck
  rw [found]
  exact ⟨fun more => if_pos more, fun last feeds => (if_neg (by rw [last]; decide)).trans (if_pos (by rw [feeds]; rfl))⟩

/-- The last acknowledgement of a group ends it, and the next one follows (03 Table 3.7). -/
theorem takeHandoverAck_group {l : List (Nat × Nat)} {g : Group} (group : s.twin.group = some g) (active : g.active = true)
    (step : g.step = 4) (bolts : g.bolts = l.map Prod.fst) :
    s.takeHandoverAck l = State.settle (State.nextGroup (State.retryHeld { s with twin := { s.twin with
      group := none, moved := satAdd 32 s.twin.moved l.length, maxHold := max s.twin.maxHold (s.now - g.hold) } }) 2) := by
  unfold State.takeHandoverAck
  rw [group]
  exact if_pos (by rw [active, step, bolts]; simp)

/-- A paired device without a group begins to hand over the bolts that it is active for (03 Table 3.7 step 1). -/
theorem takeHandoverReq_active {l : List (Nat × Nat)} (paired : s.twin.st = .paired) (idle : s.twin.group = none)
    (some_ : (l.map Prod.fst).filter s.isActive ≠ []) :
    s.takeHandoverReq l = s.beginHandover ((l.map Prod.fst).filter s.isActive) false := by
  unfold State.takeHandoverReq
  dsimp only
  rw [paired, idle, List.isEmpty_eq_false_iff.mpr some_]
  rfl

/-- A flag that is set leaves the twin. -/
theorem raise_twin (f : FieldRef) : (s.raise f).twin = s.twin := by
  unfold State.raise
  rw [raiseArg_eq]

/-- A map that asks for no full copy is taken as it is (03 R124; log entry 95). -/
theorem takeMap_plain {k : MapKind} {spans : List Nat} (plain : k = .split → h.status = 0) :
    (s.twin.st = .rejoining → spans ≠ [] → k = .copyList → s.takeMap h k spans =
      { s with twin := { s.twin with copyList := nub spans, copyBuilt := true } })
    ∧ (k = .held → s.takeMap h k spans =
      State.buildCopyList { s with twin := { s.twin with peerHeld := spans, mapsIn := s.twin.mapsIn ++ [.held] } })
    ∧ (k ∈ [MapKind.split, .dirtySpan] → s.takeMap h k spans = State.buildCopyList { s with twin := { s.twin with
        peerSpans := spans.foldl (fun acc x => insertSorted x acc) s.twin.peerSpans, mapsIn := s.twin.mapsIn ++ [k] } }) := by
  have no : ¬(k = .split ∧ h.status ≠ 0 ∧ s.twin.full = false ∧ s.twin.copyBuilt = false) := fun full => full.2.1 (plain full.1)
  unfold State.takeMap
  dsimp only
  rw [if_neg no]
  refine ⟨fun rejoins some_ kind => ?_, fun kind => ?_, fun kind => ?_⟩
  · subst kind
    dsimp only
    rw [rejoins, List.isEmpty_eq_false_iff.mpr some_]
    rfl
  · subst kind
    rfl
  · fin_cases kind <;> rfl

/-- A split bitmap with another status than DONE has everything copied (03 R129; log entry 95). -/
theorem takeMap_full {spans : List Nat} (bad : h.status ≠ 0) (notYet : s.twin.full = false) (unbuilt : s.twin.copyBuilt = false) :
    let v := ({ s with twin := { s.twin with full := true } }).raise F.TW_STATUS.FULL_COPY
    s.takeMap h .split spans = State.buildCopyList { v with twin := { v.twin with
      peerSpans := spans.foldl (fun acc x => insertSorted x acc) s.twin.peerSpans, mapsIn := s.twin.mapsIn ++ [.split] } } := by
  intro v
  have twin : v.twin = { s.twin with full := true } := raise_twin _
  unfold State.takeMap
  dsimp only
  rw [if_pos ⟨rfl, bad, notYet, unbuilt⟩]
  change State.buildCopyList { v with twin := { v.twin with
      peerSpans := spans.foldl (fun acc x => insertSorted x acc) v.twin.peerSpans, mapsIn := v.twin.mapsIn ++ [.split] } } = _
  rw [twin]

/-! The entry that a fetch gets. -/

/-- The registers stand in order and name the same device. -/
def NamesDevice (n : Nat) (s : State) : Prop := RegsOrdered s ∧ s.devId = n

section
variable {n : Nat}

theorem namesDevice_setF (k : NamesDevice n s) (f : FieldRef) (i x : Nat) (apart : f.reg.addr i ≠ Reg.addr .BL_DEVICE_ID 0) :
    NamesDevice n (s.setF f i x) :=
  ⟨wf_setF k.1 f i x, (getF_setF_other k.1 f F.BL_DEVICE_ID.DEVICE_ID i 0 x apart).trans k.2⟩

theorem namesDevice_raise (k : NamesDevice n s) (f : FieldRef) (apart : f.reg.addr 0 ≠ Reg.addr .BL_DEVICE_ID 0) :
    NamesDevice n (s.raise f) :=
  ⟨wf_raiseArg k.1 f 0 .none, (congrArg (bitsOf · 0 6)
    (raiseArg_reg k.1 f 0 .none .BL_DEVICE_ID 0 (by decide) (by decide) apart)).trans k.2⟩

theorem namesDevice_emitMsg (k : NamesDevice n s) (port : Nat) (h : Hdr) (p : Payload) : NamesDevice n (s.emitMsg port h p) := by
  have apart : Reg.addr .BL_DEVICE_ID 0 ≠ Reg.addr .PT_TRAFFIC port := below_ports (by decide) port
  have counted (left len : Nat) : NamesDevice n (s.countBytes F.PT_TRAFFIC.TX_MIB port left len).2 := by
    unfold State.countBytes
    dsimp only
    split
    · exact namesDevice_setF k _ _ _ apart.symm
    · exact k
  exact counted _ _

theorem namesDevice_sendOn (k : NamesDevice n s) (port : Nat) (h : Hdr) (p : Payload) : NamesDevice n (s.sendOn port h p) := by
  unfold State.sendOn
  dsimp only
  split
  · exact k
  · split
    · split
      · exact k
      · exact namesDevice_emitMsg k ..
    · split
      · exact k
      · refine namesDevice_emitMsg ?_ ..
        exact k

theorem namesDevice_send (k : NamesDevice n s) (h : Hdr) (p : Payload) : NamesDevice n (s.send h p) := by
  unfold State.send
  dsimp only
  split
  · exact k
  · split
    · exact namesDevice_sendOn k ..
    · exact k

/-- An entry checked, and fetched where it is bad, leaves the device its name. -/
theorem namesDevice_checkEntry (k : NamesDevice n s) (b : Nat) : NamesDevice n (s.checkEntry b) := by
  have fetched (t : State) (ht : NamesDevice n t) (devs : List Nat) : NamesDevice n (t.fetchAll b devs) :=
    foldl_keeps (P := NamesDevice n) _ (fun u d hu => namesDevice_send hu ..) devs _ ht
  unfold State.checkEntry
  split
  · exact k
  · split
    · exact k
    · refine fetched _ (namesDevice_raise ?_ F.BL_STATUS.ENTRY_CRC (by decide)) _
      exact k

end
end

/-! Time (11 R326). -/

section
variable {s : State}

/-- The first offset in state 13 sets DT and is shown. -/
theorem takeOffset_first (wf : RegsOrdered s) (start : s.power.state = 13) (unset : s.time.dtSet = false) (o : Int) :
    let v := s.takeOffset o
    v.time = { s.time with dt := ((s.time.dt : Int) + o).toNat, dtSet := true }
    ∧ v.get F.TM_SYNC.SET = 1 ∧ v.get F.TM_SYNC.OFFSET_NS = (o % 2 ^ 32).toNat
    ∧ v = { s with regs := v.regs, time := v.time } := by
  intro v
  let shown := s.put F.TM_SYNC.OFFSET_NS (o % 2 ^ 32).toNat
  let slewed : State := { shown with time := { s.time with dt := ((s.time.dt : Int) + o).toNat, dtSet := true } }
  have eq : v = slewed.put F.TM_SYNC.SET 1 := if_pos ⟨start, unset⟩
  have wf' : RegsOrdered slewed := wf_put_field wf _ _
  have small : (o % 2 ^ 32).toNat < 2 ^ 32 := by omega
  rw [eq]
  refine ⟨rfl, getF_setF wf' F.TM_SYNC.SET 0 1 (by decide), ?_, rfl⟩
  exact (getF_setF_ne wf' F.TM_SYNC.SET F.TM_SYNC.OFFSET_NS 0 1 rfl (by decide) (by decide)).trans
    ((getF_setF wf F.TM_SYNC.OFFSET_NS 0 _ (by decide)).trans (Nat.mod_eq_of_lt small))

/-- The lowest of some numbers and a first is at most the first. -/
theorem foldl_min_le (l : List Nat) (n : Nat) : l.foldl min n ≤ n := by
  induction l generalizing n with
  | nil => exact le_refl n
  | cons x l ih => exact (ih _).trans (min_le_left n x)

theorem timeRoot_lt (s : State) : s.timeRoot < 64 := (foldl_min_le _ _).trans_lt (bitsOf_lt _ 0 6)

/-- The offsets of the registers that showing the root writes. -/
def rootRegs : List Nat := [Reg.TM_SYNC, .TM_STATUS, .BB_EV_STAT, .BB_STATUS].map (Reg.addr · 0)

/-- The number of the root shown, before it is said whether that is this device. -/
def rootNamed (s : State) : State :=
  if s.get F.TM_SYNC.ROOT_ID = s.timeRoot then s
  else (s.put F.TM_SYNC.ROOT_ID s.timeRoot).raise F.TM_STATUS.ROOT_CHANGE

/-- The number of the root shown changes only the registers that show it and those of its flag's event. -/
theorem rootNamed_regs (wf : RegsOrdered s) : RegsOrdered (rootNamed s)
    ∧ ∀ r k, r.addr k ∉ rootRegs → (rootNamed s).reg r k = s.reg r k := by
  unfold rootNamed
  split
  · exact ⟨wf, fun _ _ _ => rfl⟩
  · have wf' : RegsOrdered (s.put F.TM_SYNC.ROOT_ID s.timeRoot) := wf_put_field wf _ _
    refine ⟨wf_raiseArg wf' _ 0 .none, fun r k apart => ?_⟩
    obtain ⟨sync, status, log, flags⟩ : r.addr k ≠ Reg.addr .TM_SYNC 0 ∧ r.addr k ≠ Reg.addr .TM_STATUS 0
        ∧ r.addr k ≠ Reg.addr .BB_EV_STAT 0 ∧ r.addr k ≠ Reg.addr .BB_STATUS 0 := by simpa [rootRegs] using apart
    exact (raiseArg_reg wf' F.TM_STATUS.ROOT_CHANGE 0 .none r k log flags status.symm).trans
      (reg_setF_ne wf (f := F.TM_SYNC.ROOT_ID) (i := 0) _ sync.symm)

theorem rootNamed_rootId (wf : RegsOrdered s) : (rootNamed s).get F.TM_SYNC.ROOT_ID = s.timeRoot := by
  unfold rootNamed
  split
  · assumption
  · have wf' : RegsOrdered (s.put F.TM_SYNC.ROOT_ID s.timeRoot) := wf_put_field wf _ _
    have stands := raiseArg_reg wf' F.TM_STATUS.ROOT_CHANGE 0 .none .TM_SYNC 0 (by decide) (by decide) (by decide)
    exact (congrArg (bitsOf · 0 6) stands).trans
      ((getF_setF wf F.TM_SYNC.ROOT_ID 0 _ (by decide)).trans (Nat.mod_eq_of_lt (timeRoot_lt s)))

/-- The root shown is the lowest device reached, and only the registers that show it and its flag's event change. -/
theorem showRoot_regs (wf : RegsOrdered s) : (∀ r k, r.addr k ∉ rootRegs → s.showRoot.reg r k = s.reg r k)
    ∧ s.showRoot.get F.TM_SYNC.ROOT_ID = s.timeRoot ∧ s.showRoot.get F.TM_SYNC.IS_ROOT = bit (s.timeRoot == s.devId) := by
  obtain ⟨wf', stands⟩ := rootNamed_regs wf
  have name : (rootNamed s).devId = s.devId := congrArg (bitsOf · 0 6) (stands .BL_DEVICE_ID 0 (by decide))
  have eq : s.showRoot = (rootNamed s).put F.TM_SYNC.IS_ROOT (bit (s.timeRoot == s.devId)) := by
    rw [← name]
    rfl
  rw [eq]
  refine ⟨fun r k apart => ?_, ?_, ?_⟩
  · have sync : r.addr k ≠ Reg.addr .TM_SYNC 0 := fun e => apart (by simp [rootRegs, e])
    exact (reg_setF_ne wf' (f := F.TM_SYNC.IS_ROOT) (i := 0) _ sync.symm).trans (stands r k apart)
  · exact (getF_setF_ne wf' F.TM_SYNC.IS_ROOT F.TM_SYNC.ROOT_ID 0 _ rfl (by decide) (by decide)).trans (rootNamed_rootId wf)
  · refine (getF_setF wf' F.TM_SYNC.IS_ROOT 0 _ (by decide)).trans ?_
    cases s.timeRoot == s.devId <;> rfl

theorem showRoot_time (s : State) : s.showRoot.time = s.time := by
  have named : (rootNamed s).time = s.time := by
    unfold rootNamed State.raise
    split
    · rfl
    · rw [raiseArg_eq]
      rfl
  exact named

/-- The root shown leaves the routes, the links and so the root. -/
theorem showRoot_paths (wf : RegsOrdered s) : s.showRoot.devId = s.devId ∧ s.showRoot.timeRoot = s.timeRoot
    ∧ (∀ p < 96, s.showRoot.portUp p = s.portUp p) ∧ (∀ f : FieldRef, f.reg = .BL_ROUTE → ∀ d < 64, s.showRoot.getF f d = s.getF f d)
    ∧ ∀ p < 96, s.showRoot.getF F.PT_PEER.PEER_DEVICE p = s.getF F.PT_PEER.PEER_DEVICE p := by
  obtain ⟨stands, -, -⟩ := showRoot_regs wf
  have name : s.showRoot.devId = s.devId := congrArg (bitsOf · 0 6) (stands .BL_DEVICE_ID 0 (by decide))
  have link (p : Nat) (hp : p < 96) : s.showRoot.portUp p = s.portUp p :=
    congrArg (bitsOf · 0 4 == 2) (stands .PT_LINK p (by simp [rootRegs, Reg.addr, Reg.info]; omega))
  have route (f : FieldRef) (hf : f.reg = .BL_ROUTE) (d : Nat) (hd : d < 64) : s.showRoot.getF f d = s.getF f d :=
    congrArg (bitsOf · f.lo f.w) (stands f.reg d (by simp [hf, rootRegs, Reg.addr, Reg.info]; omega))
  have peer (p : Nat) (hp : p < 96) : s.showRoot.getF F.PT_PEER.PEER_DEVICE p = s.getF F.PT_PEER.PEER_DEVICE p :=
    congrArg (bitsOf · 0 6) (stands .PT_PEER p (by simp [rootRegs, Reg.addr, Reg.info]; omega))
  have reached : s.showRoot.reachable = s.reachable := by
    refine List.filter_congr fun d hd => ?_
    have near : s.showRoot.ctlPort d = s.ctlPort d :=
      ctlPort_congr (fun f hf => route f (by fin_cases hf <;> rfl) d (List.mem_range.mp hd)) link
    rw [name, near]
  exact ⟨name, by rw [State.timeRoot, reached, name, State.timeRoot], link, route, peer⟩

end

/-! The commands. -/

section
variable {s : State} {h : Hdr}

/-- A message for this device, taken at a time, acts after the time and its bytes are counted. -/
theorem heard (wf : RegsOrdered s) (serves : s.linkServes h = true) (here : h.dst = s.devId) (at_ : Nat) (p : Payload)
    (act : State → State) : (.next ((s.tick at_).receive h p act) : Host.Outcome State Fault Refusal)
      = .next (act ((s.tick at_).countRx h.port (32 + payloadLen p))) :=
  congrArg _ (receive_here (s := s.tick at_) wf serves here p act)

/-- A refused forward waits for its entry, asked for in the device's name. -/
theorem staleForward_heard (wf : RegsOrdered s) (at_ n src : Nat) (r : Req) :
    let u := (s.tick at_).countRx h.port n
    u.staleForward r src = State.send (u.hold r .gate) { s.hdr src with offset := reqBolt r * 2 ^ 36 } .boltFetch := by
  intro u
  have name : u.hdr src = s.hdr src := countRx_hdr (s := s.tick at_) wf ..
  rw [← name]
  rfl

/-- A TIME_SYNC request gets its stamps; an answer in state 13 sets DT once (11 R326). -/
theorem exec_timeSync_here {h : Hdr} {at_ t1 t2 t3 : Nat} (wf : RegsOrdered s) (serves : s.linkServes h = true)
    (here : h.dst = s.devId) :
    let u := (s.tick at_).countRx h.port 64
    let o := syncOffset t1 t2 t3 (max s.now at_)
    exec (.timeSync h t1 t2 t3 false at_) s =
      .next (u.send (s.hdr h.src) (.timeSync t1 (max s.now at_) (max s.now at_) true))
    ∧ (s.time.syncSent = some t1 → s.power.state = 13 → s.time.dtSet = false → ∃ v : State,
      exec (.timeSync h t1 t2 t3 true at_) s = .next v
      ∧ v.time = { u.time with dt := ((max s.now at_ : Int) + o).toNat, dtSet := true, syncSent := none }
      ∧ v.get F.TM_SYNC.SET = 1 ∧ v.get F.TM_SYNC.OFFSET_NS = (o % 2 ^ 32).toNat
      ∧ v = { u with regs := v.regs, time := v.time }) := by
  intro u o
  have sync (answer : Bool) := heard wf serves here at_ (.timeSync t1 t2 t3 answer)
  have time : u.time = (s.tick at_).time := countRx_time ..
  have now_ : u.now = max s.now at_ := congrArg TimeSt.dt time
  refine ⟨?_, fun sent start unset => ?_⟩
  · refine (sync false _).trans ?_
    change Host.Outcome.next (u.send (u.hdr h.src) (.timeSync t1 u.now u.now true)) = _
    rw [countRx_hdr (s := s.tick at_) wf, now_]
    rfl
  · let w : State := { u with time := { u.time with syncSent := none } }
    have wf' : RegsOrdered w := (countRx_regs (s := s.tick at_) wf _ _).1
    obtain ⟨dt, set_, offset, rest⟩ := takeOffset_first wf' (by rw [countRx_power]; exact start)
      ((congrArg TimeSt.dtSet time).trans unset) o
    have answer : exec (.timeSync h t1 t2 t3 true at_) s = .next (w.takeOffset o) := by
      refine (sync true _).trans ?_
      change Host.Outcome.next (if u.time.syncSent = some t1 then w.takeOffset (syncOffset t1 t2 t3 u.now) else u) = _
      rw [now_, if_pos (by rw [time]; exact sent)]
    refine ⟨w.takeOffset o, answer, dt.trans ?_, set_, offset, rest⟩
    have arrival : (w.time.dt : Int) = max (s.now : Int) at_ := (congrArg Nat.cast now_).trans (Nat.cast_max ..)
    rw [arrival]

/-- TIME_SYNC_TIMER shows the root, and asks the neighbour on the primary route to it (11 R326). -/
theorem exec_timer {at_ : Nat} (wf : RegsOrdered s) :
    let v := (s.tick at_).showRoot
    let p := s.getF F.BL_ROUTE.PRIMARY_PORT s.timeRoot
    (s.timeRoot = s.devId → exec (.timeSyncTimer at_) s = .next v)
    ∧ (s.timeRoot ≠ s.devId → p < 96 → s.portUp p = true → exec (.timeSyncTimer at_) s = .next (State.sendOn
        { v with time := { v.time with syncSent := some (max s.now at_) } } p
        { s.hdr (s.getF F.PT_PEER.PEER_DEVICE p) with hops := 1 } (.timeSync (max s.now at_) 0 0 false))) := by
  intro v p
  have wf' : RegsOrdered (s.tick at_) := wf
  obtain ⟨name, sameRoot, link, route, peer⟩ := showRoot_paths wf'
  have now_ : v.now = max s.now at_ := congrArg TimeSt.dt (showRoot_time (s.tick at_))
  let root := s.timeRoot
  have port : v.getF F.BL_ROUTE.PRIMARY_PORT v.timeRoot = p := by
    rw [sameRoot]
    exact route _ rfl root (timeRoot_lt s)
  have timer : exec (.timeSyncTimer at_) s = .next (if root ≠ s.devId ∧ p < 96 ∧ v.portUp p = true then
      State.sendOn { v with time := { v.time with syncSent := some (max s.now at_) } } p
        { s.hdr (v.getF F.PT_PEER.PEER_DEVICE p) with hops := 1 } (.timeSync (max s.now at_) 0 0 false) else v) := by
    have named (d : Nat) : v.hdr d = s.hdr d := hdr_congr (s := s) name d
    have root_ : v.timeRoot = root := sameRoot
    have self : v.devId = s.devId := name
    rw [← port, ← now_, ← named, ← root_, ← self]
    rfl
  refine ⟨fun self => ?_, fun other near up => ?_⟩
  · exact timer.trans (congrArg _ (if_neg fun asks => asks.1 self))
  · have neighbour : v.getF F.PT_PEER.PEER_DEVICE p = s.getF F.PT_PEER.PEER_DEVICE p := peer p near
    rw [← neighbour]
    exact timer.trans (congrArg _ (if_pos ⟨other, near, (link p near).trans up⟩))

/-- A message at its last hop is dropped and flagged (11 R324). -/
theorem exec_lastHop {h : Hdr} {p : Payload} (wf : RegsOrdered s) (serves : s.linkServes h = true) (away : h.dst ≠ s.devId) :
    ∃ t : State, exec (.hopExpiry h p) s = .next t ∧ FlagSet s t F.PT_STATUS.HOP_EXPIRED h.port := by
  refine ⟨s.raiseAt F.PT_STATUS.HOP_EXPIRED h.port, ?_, ?_⟩
  · exact congrArg _ (if_pos (by rw [serves, bne_iff_ne.mpr away]; rfl))
  · have above : Reg.addr .PT_STATUS h.port ≥ 0xc00000 := by
      simp only [Reg.addr, Reg.info]
      omega
    exact flagSet_raiseArg wf F.PT_STATUS.HOP_EXPIRED h.port .none (by decide) rfl
      (fun e => absurd (e ▸ above) (by decide)) (fun e => absurd (e ▸ above) (by decide))

/-- An answer for another device goes on along its route with one hop fewer (11 R324). -/
theorem exec_fwdCmp_through {h : Hdr} {at_ q : Nat} (wf : RegsOrdered s) (serves : s.linkServes h = true)
    (away : h.dst ≠ s.devId) (hops : 1 < h.hops) (route : s.ctlPort h.dst = some q) :
    exec (.fwdCmp h at_) s
      = .next (((s.tick at_).countRx h.port 32).sendOn q { h with hops := h.hops - 1 } .fwdCmp) := by
  let u := (s.tick at_).countRx h.port 32
  have goes : exec (.fwdCmp h at_) s = .next (u.sendThrough h .fwdCmp) :=
    congrArg _ (receive_through (s := s.tick at_) wf serves away .fwdCmp _)
  have path : u.ctlPort h.dst = some q := (countRx_ctlPort (s := s.tick at_) wf ..).trans route
  rw [goes, State.sendThrough, if_neg (Nat.not_le.mpr hops)]
  dsimp only [State.noPath, isRequest]
  rw [path]
  rfl

end

/-- Settles O53: a message for this device is counted and acts, and each act is the lemma about it; one for another device goes on. -/
theorem answersAndNewsOfOtherDevicesAct : Obligations.AnswersAndNewsOfOtherDevicesAct := by
  refine ⟨?_, ?_, ?_, ?_, ?_⟩
  · intro s h at_ r pmap lines res wf _ serves here u b fetch
    have stale (n : Nat) : (u n).staleForward r h.src = fetch (u n) := staleForward_heard wf at_ _ h.src r
    have same (n : Nat) : (u n).bay = s.bay ∧ (u n).twin = s.twin ∧ (u n).lines = s.lines ∧ (u n).stripe = s.stripe :=
      ⟨countRx_bay .., countRx_twin .., countRx_lines .., countRx_stripe ..⟩
    refine ⟨?_, ?_, ?_, ?_⟩
    · intro need wt tag sent open_ waits found
      obtain ⟨bay, twin, -, -⟩ := same 0
      obtain ⟨ok, empty, stale⟩ := takeAck_storing (s := u 0) (by rw [twin]; exact sent) (by rw [twin]; exact open_) waits
        (by rw [bay]; exact found)
      have ack : exec (.mirrorAck h at_) s = .next ((u 0).takeAck h) := heard wf serves here at_ .mirrorAck _
      rw [ack]
      exact ⟨fun e => congrArg _ (ok e), fun e => congrArg _ (empty e), fun e => congrArg _ (stale e)⟩
    · intro need wt tag found refused
      exact exec_resend found refused
    · intro found open_
      have found' (n : Nat) : (u n).forwardedReq h = some r := by
        rw [State.forwardedReq, (same n).1]
        exact found
      have reachable (n : Nat) (current : h.status ≠ 3) : (u n).twin.st ≠ .isolated := by
        rw [(same n).2.1]
        exact open_.resolve_right current
      have cmp : exec (.fwdCmp h at_) s = .next ((u 0).takeCmp h) := heard wf serves here at_ .fwdCmp _
      have ctrl : exec (.ctrlCmp h res at_) s = .next ((u 32).takeCtrlCmp h res) := heard wf serves here at_ (.ctrlCmp res) _
      have data : exec (.fwdData h pmap lines at_) s = .next ((u (8 + 64 * lines.length)).takeData h pmap lines) :=
        heard wf serves here at_ (.fwdData pmap lines) _
      rw [cmp, ctrl, data]
      refine ⟨fun current named => ⟨?_, ?_⟩, fun line good => ?_, fun e => ⟨?_, ?_, ?_⟩⟩
      · rw [(takeCmp_forwarded (found' 0)).2 current named (reachable 0 current)]
      · rw [(takeCtrlCmp_forwarded (found' 32)).2 current named (reachable 32 current)]
      · have current : h.status ≠ 3 := by omega
        rw [(takeData_forwarded (found' _)).2 line good (reachable _ current)]
      · rw [(takeCmp_forwarded (found' 0)).1 e, stale]
      · rw [(takeData_forwarded (found' _)).1 e, stale]
      · rw [(takeCtrlCmp_forwarded (found' 32)).1 e, stale]
    · intro src back built heals waits found v
      obtain ⟨bay, -, held, stripe⟩ := same (8 + 64 * lines.length)
      have data : exec (.repairData h pmap lines at_) s = .next ((u (8 + 64 * lines.length)).takeRepairData h pmap lines) :=
        heard wf serves here at_ (.repairData pmap lines) _
      obtain ⟨line, poison⟩ := takeRepairData_repairing (s := u (8 + 64 * lines.length)) (pmap := pmap) (lines := lines)
        (by rw [held]; exact back) (by rw [held]; exact built) (by rw [stripe]; exact heals) waits (by rw [bay]; exact found)
      rw [data]
      exact ⟨fun ok some_ clean => congrArg _ (line ok some_ clean), fun bad => congrArg _ (poison bad)⟩
  · intro s h at_ tag frame ty count l spans g health wf _ serves here u now sp
    have twin (n : Nat) : (u n).twin = s.twin := countRx_twin ..
    have time (n : Nat) : (u n).now = max s.now at_ := congrArg TimeSt.dt (countRx_time ..)
    have maps (k : MapKind) : exec (.mapXfer h k spans at_) s = .next ((u 4096).takeMap h k spans) :=
      heard wf serves here at_ (.mapXfer k spans) _
    refine ⟨?_, ?_, ?_, ?_, ?_, ?_, ?_, ?_, ?_, ?_⟩
    · intro found v
      have ack : exec (.rejoinAck h at_) s = .next ((u 0).takeCopyAck h) := heard wf serves here at_ .rejoinAck _
      obtain ⟨more, last⟩ := takeCopyAck_found (s := u 0) (by rw [twin]; exact found)
      rw [twin] at more last
      rw [ack]
      exact ⟨fun e => congrArg _ (more e), fun e feeds => congrArg _ (last e feeds)⟩
    · intro group active step bolts
      have ack := receive_here (s := s.tick at_) wf serves here (.handoverAck l) (fun s => s.takeHandoverAck l)
      have ends := takeHandoverAck_group (s := u (12 * l.length)) (by rw [twin]; exact group) active step bolts
      rw [twin, time] at ends
      exact congrArg (fun t : State => Host.Outcome.next t.stepChange) (ack.trans ends)
    · intro paired idle some_
      have req : exec (.handoverReq h l at_) s = .next ((u (12 * l.length)).takeHandoverReq l) :=
        heard wf serves here at_ (.handoverReq l) _
      have active : (u (12 * l.length)).isActive = s.isActive := countRx_isActive (s := s.tick at_) wf ..
      rw [req, takeHandoverReq_active (by rw [twin]; exact paired) (by rw [twin]; exact idle) (by rw [active]; exact some_),
        active, State.beginHandover, twin, time]
    · intro rejoins some_
      rw [maps, (takeMap_plain (s := u 4096) (k := .copyList) nofun).1 (by rw [twin]; exact rejoins) some_ rfl, twin]
    · rw [maps, (takeMap_plain (s := u 4096) (k := .held) nofun).2.1 rfl, twin]
    · intro k kind plain
      rw [maps, (takeMap_plain (s := u 4096) (fun e => plain.resolve_left (by rw [e]; decide))).2.2 kind, twin]
    · intro bad notYet unbuilt v
      rw [maps, takeMap_full (s := u 4096) bad (by rw [twin]; exact notYet) (by rw [twin]; exact unbuilt), twin]
    · intro w e
      have name : NamesDevice s.devId w :=
        namesDevice_checkEntry ⟨(countRx_regs wf h.port 32).1, countRx_devId wf h.port 32⟩ _
      have fetch : exec (.boltFetch h) s = .next (State.send w
          { w.hdr h.src with tag := h.tag, offset := h.offset, claim := e.claim } (.boltUpdate e)) :=
        congrArg _ (receive_here wf serves here .boltFetch _)
      rw [fetch, hdr_congr name.2]
    · have news : exec (.bayState h count health) s = .next { now with bay := { now.bay with
          peers := SMap.put now.bay.peers h.src { reachable := true, dirtyCount := count, health := health } } } :=
        congrArg _ (receive_here wf serves here (.bayState count health) _)
      rw [news, countRx_bay]
    · exact congrArg _ (if_pos serves)
  · intro s h at_ t1 t2 t3 wf _ serves here
    exact exec_timeSync_here wf serves here
  · intro s at_ wf v root
    obtain ⟨-, rootId, isRoot⟩ := showRoot_regs (s := s.tick at_) wf
    obtain ⟨self, asks⟩ := exec_timer (at_ := at_) wf
    exact ⟨self, rootId, isRoot, asks⟩
  · intro s h p at_ q wf _ serves away
    exact ⟨exec_lastHop wf serves away, exec_fwdCmp_through wf serves away⟩

end Sys2Proof.Proofs
end

section
/-! PROOFS. Frames sent (03 R96, R97, R98, R102, R114): the frame that a heartbeat slot builds, and its way out on both paths. -/

namespace Sys2Proof.Proofs

open Sys2Proof Machine Laws Claims

/-- What a heartbeat slot leaves before it sends: the frame built, and one YIELD slot less while the device yields (03 R96, R114). -/
def slotTaken (s : State) (ty : Nat) : State :=
  let u := (s.buildFrame ty).2
  if u.twin.fenced then
    { u with twin := { u.twin with
      yieldSlots := u.twin.yieldSlots - 1,
      yieldSeq := (match u.twin.yieldSeq with | some y => some y | none => some (s.buildFrame ty).1.seq) } }
  else u

/-- The frame of a slot on every TWIN port in service (03 R96). -/
def sentOnTwinPorts (s : State) (body : Payload) : State :=
  s.twinPorts.foldl (fun t p => t.sendOn p { t.hdr t.twinId with hops := 1 } body) s

section
variable {s : State} {at_ : Nat}

/-- The CRC of a frame covers its other fields. -/
theorem hbCrc_crc (f : HbFrame) (c : BitVec 32) : hbCrc { f with crc := c } = hbCrc f := rfl

/-- A frame built is of the device's state now (03 Table 3.1). -/
theorem buildFrame_frame (s : State) (ty : Nat) : let f := (s.buildFrame ty).1
    f.ty = ty ∧ f.sender = s.devId ∧ f.seq = s.twin.txSeq + 1#32 ∧ f.echo = s.twin.echoSeq ∧ f.sendDt = s.now
    ∧ f.claimHigh = s.claimHigh ∧ f.periodUs = s.nextPeriod ∧ f.crc = hbCrc f :=
  ⟨rfl, rfl, rfl, rfl, rfl, rfl, rfl, (hbCrc_crc _ _).symm⟩

/-- Registers written beside a twin record leave the rest. -/
theorem put_put_put_withTwin (s : State) (twin : TwinSt) (f g k : FieldRef) (x y z : Nat) :
    let u := ((({ s with twin := twin } : State).put f x).put g y).put k z
    u = { s with twin := u.twin, regs := u.regs } := rfl

/-- A frame built becomes the latest one, and changes the twin record and registers alone. -/
theorem buildFrame_state (s : State) (ty : Nat) : let f := (s.buildFrame ty).1
    let u := (s.buildFrame ty).2
    u.twin.txSeq = f.seq ∧ u.twin.lastHb = some f ∧ u.twin.fenced = s.twin.fenced ∧ u.twin.yieldSlots = s.twin.yieldSlots
    ∧ u.twin.st = s.twin.st ∧ u.twin.leaseEnd = s.twin.leaseEnd ∧ u = { s with twin := u.twin, regs := u.regs } :=
  ⟨rfl, rfl, rfl, rfl, rfl, rfl, put_put_put_withTwin s _ _ _ _ _ _ _⟩

/-- A twin record put in place of another leaves what the other left. -/
theorem withTwin_rest {u : State} (rest : u = { s with twin := u.twin, regs := u.regs }) (twin : TwinSt) :
    ({ u with twin := twin } : State) = { s with twin := twin, regs := u.regs } :=
  congrArg (fun v : State => ({ v with twin := twin } : State)) rest

/-- A slot taken makes its frame the latest one, and changes the twin record and registers alone. -/
theorem slotTaken_twin (s : State) (ty : Nat) : let f := (s.buildFrame ty).1
    let u := slotTaken s ty
    u.twin.txSeq = f.seq ∧ u.twin.lastHb = some f ∧ u.twin.yieldSlots = s.twin.yieldSlots - (if s.twin.fenced then 1 else 0)
    ∧ u.twin.st = s.twin.st ∧ u.twin.leaseEnd = s.twin.leaseEnd ∧ u = { s with twin := u.twin, regs := u.regs } := by
  obtain ⟨tx, latest, fenced, slots, st, lease, rest⟩ := buildFrame_state s ty
  unfold slotTaken
  generalize s.buildFrame ty = b at *
  dsimp only at *
  by_cases yields : s.twin.fenced = true
  · rw [if_pos (fenced.trans yields), if_pos yields]
    exact ⟨tx, latest, congrArg (· - 1) slots, st, lease, withTwin_rest rest _⟩
  · rw [if_neg (fenced ▸ yields), if_neg yields]
    exact ⟨tx, latest, slots, st, lease, rest⟩

/-- A slot of a device that sends frames, with nothing that ends its yield. -/
theorem heartbeatTimer_sends (sends : s.sendsFrames = true)
    (yields : s.twin.fenced = true → s.twin.yieldSlots ≠ 0 ∧ s.yieldEchoed = false) :
    exec (.heartbeatTimer at_) s = .next (let now := s.tick at_
      let ty := if s.twin.fenced then 2 else 1
      let f := (now.buildFrame ty).1
      sentOnTwinPorts (slotTaken now ty) (if s.twin.fenced then .yield f else .heartbeat f)) := by
  have sends' : (s.tick at_).sendsFrames = true := sends
  have goes : (s.twin.fenced && (s.twin.yieldSlots == 0 || (s.tick at_).yieldEchoed)) = false := by
    cases fenced : s.twin.fenced
    · rfl
    · obtain ⟨left, open_⟩ := yields fenced
      have open' : (s.tick at_).yieldEchoed = false := open_
      rw [open', beq_false_of_ne left]
      rfl
  have goes' : ¬((s.tick at_).twin.fenced && ((s.tick at_).twin.yieldSlots == 0 || (s.tick at_).yieldEchoed)) = true := by
    rw [tick_twin, goes]
    decide
  have body (f : HbFrame) : (if (if s.twin.fenced = true then 2 else 1) = 2 then Payload.yield f else .heartbeat f)
      = if s.twin.fenced = true then .yield f else .heartbeat f := by
    split <;> rfl
  rw [exec_heartbeatTimer, execHeartbeatTimer]
  dsimp only
  rw [if_neg (by rw [sends']; decide), if_neg goes', tick_twin, body]
  rfl

end

/-- Settles O28: the slot's frame is the one built now, sent on every TWIN port; the Plumb line gets the latest. -/
theorem framesAreSentFromThisDevicesState : Obligations.FramesAreSentFromThisDevicesState := by
  intro s at_ sends now
  have sends' : now.sendsFrames = true := sends
  refine ⟨fun yields => ?_, fun fenced done => ?_, fun f latest => ?_⟩
  · let ty := if s.twin.fenced then 2 else 1
    obtain ⟨kind, sender, seq, echo, dt, high, period, crc⟩ := buildFrame_frame now ty
    obtain ⟨tx, last, slots, st, lease, rest⟩ := slotTaken_twin now ty
    exact ⟨(now.buildFrame ty).1, slotTaken now ty, heartbeatTimer_sends sends yields, kind, sender, seq, echo, dt, high, period,
      crc, tx, last, slots, st, lease, rest⟩
  · have ends : (now.twin.fenced && (now.twin.yieldSlots == 0 || now.yieldEchoed)) = true := by
      have echoed : now.yieldEchoed = s.yieldEchoed := rfl
      rw [echoed, show now.twin = s.twin from rfl, fenced]
      rcases done with e | e <;> simp [e]
    rw [exec_heartbeatTimer, execHeartbeatTimer]
    dsimp only
    rw [if_neg (by rw [sends']; decide), if_pos ends]
  · have found : now.twin.lastHb = some f := latest
    rw [exec_plumbSendTimer, execPlumbSendTimer]
    dsimp only
    rw [if_neg (by rw [sends']; decide), found]
    dsimp only
    by_cases bad : s.twin.diagBad = true
    · rw [if_pos bad]
      exact congrArg _ (if_pos bad)
    · rw [if_neg bad]
      exact congrArg _ (if_neg bad)

end Sys2Proof.Proofs
end

section
/-! PROOFS. The claim gate (03 R107, R108): a gated message received is refused, waits for its entry, or acts; and the control
messages that name no bolt (11 R322). -/

namespace Sys2Proof.Proofs

open Sys2Proof Machine Laws Claims

/-- An update carries the entry itself (03 R108). -/
def carriesEntry (p : Payload) : Bool := match p with | .boltUpdate _ => true | _ => false

/-- The records of the bolts that a message names, at its claims (03 R107). -/
def raiseGates (s : State) (l : List (Nat × Nat)) : State := l.foldl (fun s x => s.raiseGate x.1 x.2) s

/-- A message that waits at the gate for the entries of bolts, and the fetches of them (03 R108). -/
def holdAtGate (s : State) (h : Hdr) (p : Payload) (above : List Nat) : State :=
  let w := above.foldl State.learnStale s
  above.foldl (fun s b => s.send { s.hdr h.src with offset := b * 2 ^ 36 } .boltFetch)
    { w with bay := { w.bay with
      gateHeld := w.bay.gateHeld ++ [{ id := w.bay.nextId, hdr := h, body := p, since := w.now }], nextId := w.bay.nextId + 1 } }

/-- The state on which a message of some bytes acts once it has passed the gate. -/
def gatePassed (s : State) (h : Hdr) (at_ len : Nat) : State :=
  ((s.tick at_).countRx h.port (32 + len)).raiseGate (boltOfOff h.offset) h.claim

section
variable {s : State} {h : Hdr} {p : Payload} {act : State → State}

/-! The gate. -/

/-- The gate in its three ways. -/
theorem gate_eq (s : State) (h : Hdr) (p : Payload) (act : State → State) : s.gate h p act =
    let l := gateClaims h p
    let u := raiseGates s l
    let above := (l.filter (fun x => decide ((u.entry x.1).claim < x.2))).map Prod.fst
    if l.any (fun x => decide (x.2 < s.gateRecord x.1)) then (s.raise F.TW_STATUS.GATE_REFUSED).refuse h p 3
    else if above.isEmpty || carriesEntry p then act u else holdAtGate u h p above := by
  cases p <;> rfl

/-- The records of bolts rise to their claims, and nothing else changes. -/
theorem raiseGates_eq (s : State) (l : List (Nat × Nat)) :
    raiseGates s l = { s with bay := { s.bay with gate := (raiseGates s l).bay.gate } } :=
  foldl_keeps (P := fun u : State => u = { s with bay := { s.bay with gate := u.bay.gate } }) _
    (fun _ x eq => congrArg (fun v : State => v.raiseGate x.1 x.2) eq) l s rfl

theorem raiseGates_entry (s : State) (l : List (Nat × Nat)) (b : Nat) : (raiseGates s l).entry b = s.entry b := by
  rw [raiseGates_eq]
  rfl

/-- A claim below its record is refused (03 R107). -/
theorem gate_refuses {x : Nat × Nat} (named : x ∈ gateClaims h p) (below : x.2 < s.gateRecord x.1) :
    s.gate h p act = (s.raise F.TW_STATUS.GATE_REFUSED).refuse h p 3 := by
  rw [gate_eq]
  exact if_pos (List.any_eq_true.mpr ⟨x, named, decide_eq_true below⟩)

/-- Every claim held here, or one that an update carries, passes: the records rise, and the message acts (03 R107, R108). -/
theorem gate_passes (atLeast : ∀ x ∈ gateClaims h p, s.gateRecord x.1 ≤ x.2)
    (held : (∀ x ∈ gateClaims h p, x.2 ≤ (s.entry x.1).claim) ∨ carriesEntry p = true) :
    s.gate h p act = act (raiseGates s (gateClaims h p)) := by
  have admitted : ¬(gateClaims h p).any (fun x => decide (x.2 < s.gateRecord x.1)) = true := by simpa using atLeast
  rw [gate_eq]
  refine (if_neg admitted).trans (if_pos ?_)
  rcases held with current | update
  · have none_ : (gateClaims h p).filter (fun x => decide (((raiseGates s (gateClaims h p)).entry x.1).claim < x.2)) = [] :=
      List.filter_eq_nil_iff.mpr fun x hx => by simpa [raiseGates_entry] using current x hx
    rw [none_]
    rfl
  · rw [update, Bool.or_true]

/-- The bolt that every gated message but HANDOVER names (11 Table 11.7). -/
def namesOneBolt (h : Hdr) (p : Payload) : Prop := gateClaims h p = [(boltOfOff h.offset, h.claim)]

/-- A claim above the entry of the one bolt named waits for it (03 R108). -/
theorem gate_waits (one : namesOneBolt h p) (plain : carriesEntry p = false)
    (atLeast : s.gateRecord (boltOfOff h.offset) ≤ h.claim) (above : (s.entry (boltOfOff h.offset)).claim < h.claim) :
    s.gate h p act = holdAtGate (s.raiseGate (boltOfOff h.offset) h.claim) h p [boltOfOff h.offset] := by
  have admitted : ¬(gateClaims h p).any (fun x => decide (x.2 < s.gateRecord x.1)) = true := by
    rw [one]
    simpa using atLeast
  have waits : (gateClaims h p).filter (fun x => decide (((raiseGates s (gateClaims h p)).entry x.1).claim < x.2))
      = [(boltOfOff h.offset, h.claim)] := by
    rw [one]
    exact List.filter_cons_of_pos (decide_eq_true above)
  rw [gate_eq]
  refine (if_neg admitted).trans ?_
  rw [waits, plain, one]
  rfl

/-! The receipt of a gated message. -/

/-- The record and the entry of a bolt stand where the bay does. -/
theorem gateRecord_congr {u : State} (bay : u.bay = s.bay) (b : Nat) : u.gateRecord b = s.gateRecord b := by
  rw [State.gateRecord, State.entry, bay, State.gateRecord, State.entry]

theorem countRx_gateRecord (port n b : Nat) : (s.countRx port n).gateRecord b = s.gateRecord b :=
  gateRecord_congr (countRx_bay ..) b

theorem countRx_entry (port n b : Nat) : (s.countRx port n).entry b = s.entry b := by
  rw [State.entry, countRx_bay, State.entry]

/-- A gated message for this device is counted and meets the gate. -/
theorem receiveGated_gate (serves : s.linkServes h = true) (p : Payload) : s.receiveGated h p
    = (s.countRx h.port (32 + payloadLen p)).gate h p (fun s => s.arrive h p) := by
  unfold State.receiveGated
  rw [serves]
  rfl

/-- A message for this device that passes the gate acts on the state whose records have risen. -/
theorem receiveGated_passes (wf : RegsOrdered s) (serves : s.linkServes h = true) (here : h.dst = s.devId)
    (atLeast : ∀ x ∈ gateClaims h p, s.gateRecord x.1 ≤ x.2)
    (held : (∀ x ∈ gateClaims h p, x.2 ≤ (s.entry x.1).claim) ∨ carriesEntry p = true) :
    s.receiveGated h p = (raiseGates (s.countRx h.port (32 + payloadLen p)) (gateClaims h p)).takeGated h p := by
  have here' : h.dst = (raiseGates (s.countRx h.port (32 + payloadLen p)) (gateClaims h p)).devId := by
    rw [raiseGates_eq]
    exact here.trans (countRx_devId wf ..).symm
  rw [receiveGated_gate serves, gate_passes (by simpa only [countRx_gateRecord] using atLeast)
    (by simpa only [countRx_entry] using held)]
  exact if_pos here'

/-- A device learns that its claim is stale: nothing of the gate, no number and no name changes. -/
theorem learnStale_held (s : State) (b : Nat) : (s.learnStale b).bay.gateHeld = s.bay.gateHeld
    ∧ (s.learnStale b).bay.nextId = s.bay.nextId ∧ (s.learnStale b).now = s.now ∧ (s.learnStale b).devId = s.devId := by
  unfold State.learnStale
  split <;> exact ⟨rfl, rfl, rfl, rfl⟩

/-- The gated messages that name one bolt and carry no entry, each with its command (11 Table 11.7). -/
def gatedMessages (h : Hdr) (at_ n : Nat) (be pmap : Word) (data d : LineData) (empty : Bool) (lines : List LineData) :
    List (Instr × Payload) :=
  [(.mirrorWr h be data at_, .mirrorWr be data), (.fwdRd h n at_, .fwdRd n), (.fwdWr h be data at_, .fwdWr be data),
   (.ctrlReq h (.desc d) at_, .ctrlReq (.desc d)), (.repairRd h n at_, .repairRd n),
   (.rejoinCopy h empty pmap lines at_, .rejoinCopy empty pmap lines)]

section
variable {at_ n : Nat} {be pmap : Word} {data d : LineData} {empty : Bool} {lines : List LineData} {x : Instr × Payload}
  (gated : x ∈ gatedMessages h at_ n be pmap data d empty lines)
include gated

/-- Each of these commands is the receipt of its message. -/
theorem exec_gatedMessage : exec x.1 s = .next ((s.tick at_).receiveGated h x.2) ∧ namesOneBolt h x.2
    ∧ carriesEntry x.2 = false := by
  unfold gatedMessages at gated
  fin_cases gated <;> exact ⟨rfl, rfl, rfl⟩

/-- One below the record is refused with CLAIM_STALE (03 R107). -/
theorem exec_gatedMessage_below (serves : s.linkServes h = true) (below : h.claim < s.gateRecord (boltOfOff h.offset)) :
    exec x.1 s = .next (State.refuse
      (((s.tick at_).countRx h.port (32 + payloadLen x.2)).raise F.TW_STATUS.GATE_REFUSED) h x.2 3) := by
  obtain ⟨receipt, one, -⟩ := exec_gatedMessage (s := s) gated
  have named : (boltOfOff h.offset, h.claim) ∈ gateClaims h x.2 := by
    rw [one]
    exact List.mem_singleton_self _
  rw [receipt, receiveGated_gate (s := s.tick at_) serves,
    gate_refuses named (by rw [countRx_gateRecord]; exact below)]

/-- One above the entry waits for it, and the entry is fetched (03 R108). -/
theorem exec_gatedMessage_above (wf : RegsOrdered s) (serves : s.linkServes h = true)
    (atLeast : s.gateRecord (boltOfOff h.offset) ≤ h.claim) (above : (s.entry (boltOfOff h.offset)).claim < h.claim) :
    let b := boltOfOff h.offset
    let w := (((s.tick at_).countRx h.port (32 + payloadLen x.2)).raiseGate b h.claim).learnStale b
    exec x.1 s = .next (State.send
      { w with bay := { w.bay with
          gateHeld := s.bay.gateHeld ++ [{ hdr := h, body := x.2, id := s.bay.nextId, since := max s.now at_ }],
          nextId := s.bay.nextId + 1 } }
      { s.hdr h.src with offset := b * 2 ^ 36 } .boltFetch) := by
  intro b w
  obtain ⟨receipt, one, plain⟩ := exec_gatedMessage (s := s) gated
  obtain ⟨held, next, now_, name⟩ := learnStale_held
    (((s.tick at_).countRx h.port (32 + payloadLen x.2)).raiseGate b h.claim) b
  have bay : ((s.tick at_).countRx h.port (32 + payloadLen x.2)).bay = s.bay := countRx_bay ..
  have held' : w.bay.gateHeld = s.bay.gateHeld := held.trans (congrArg BaySt.gateHeld bay :)
  have next' : w.bay.nextId = s.bay.nextId := next.trans (congrArg BaySt.nextId bay :)
  have now' : w.now = max s.now at_ := now_.trans (congrArg TimeSt.dt (countRx_time ..))
  have name' : w.devId = s.devId := name.trans (countRx_devId (s := s.tick at_) wf ..)
  have named : w.hdr h.src = s.hdr h.src := hdr_congr name' _
  rw [receipt, receiveGated_gate (s := s.tick at_) serves, gate_waits one plain
    (by rw [countRx_gateRecord]; exact atLeast) (by rw [countRx_entry]; exact above), ← held', ← next', ← now', ← named]
  rfl

/-- One whose claim is held here acts. -/
theorem exec_gatedMessage_held (wf : RegsOrdered s) (serves : s.linkServes h = true) (here : h.dst = s.devId)
    (atLeast : s.gateRecord (boltOfOff h.offset) ≤ h.claim) (held : h.claim ≤ (s.entry (boltOfOff h.offset)).claim) :
    exec x.1 s = .next ((gatePassed s h at_ (payloadLen x.2)).takeGated h x.2) := by
  obtain ⟨receipt, one, -⟩ := exec_gatedMessage (s := s) gated
  have atLeast' : ∀ y ∈ gateClaims h x.2, s.gateRecord y.1 ≤ y.2 := by
    rw [one]
    simpa using atLeast
  have held' : ∀ y ∈ gateClaims h x.2, y.2 ≤ (s.entry y.1).claim := by
    rw [one]
    simpa using held
  rw [receipt, receiveGated_passes (s := s.tick at_) wf serves here atLeast' (.inl held'), one]
  rfl

end

end

/-! What each message does here. -/

section
variable {s : State} {h : Hdr}

/-- The news of a tenant created or deleted (01 R49; log entry 4). -/
theorem takeBl_news (s : State) (h : Hdr) (a0 a1 : Word) : s.takeBl h 0x10 a0 a1 1#64 = s.addTenant (bitsOf a0 0 12)
    ∧ s.takeBl h 0x11 a0 a1 1#64 = s.dropTenant (bitsOf a0 0 12) :=
  ⟨if_pos ⟨rfl, rfl⟩, (if_neg (by decide)).trans (if_pos ⟨rfl, rfl⟩)⟩

/-- MIRROR_WR at the standby: refused on the down path and without a key, else a store of the mirror stream (02 R53; 12 R352;
13 R376). -/
theorem takeMirror_cases (s : State) (h : Hdr) (be : Word) (data : LineData) : let t := s.tenantOf (boltOfOff h.offset)
    (s.power.state < 16 → s.keyLoaded t = true → s.takeMirror h be data = State.settle
      (s.submit streamSource (.mirror h.src h.port h.tag) (.write be data h.poison) h.offset t))
    ∧ (16 ≤ s.power.state → s.takeMirror h be data = s.reply h 8 true .mirrorAck)
    ∧ (s.power.state < 16 → s.keyLoaded t = false → s.takeMirror h be data
      = (s.raiseOff F.XT_STATUS.KEY_MISSING h.offset).reply h 10 true .mirrorAck) := by
  intro t
  unfold State.takeMirror
  refine ⟨fun up key => ?_, fun down => if_pos down, fun up key => ?_⟩
  · exact (if_neg (Nat.not_le.mpr up)).trans (if_neg (by rw [key]; decide))
  · exact (if_neg (Nat.not_le.mpr up)).trans (if_pos (by rw [key]; decide))

/-- The read of a message before it is served: noted, with the heat of a tile's lines, and one read a line in the order of its source
or stream (01 R39; 02 R79; 04 R132). -/
def readAsked (s : State) (h : Hdr) (n : Nat) (rep : Bool) (fwdIn : List FwdIn) (t : Nat) : State :=
  let line (k : Nat) : Nat := lineOfOff h.offset + k
  let noted : State := { s with bay := { s.bay with fwdIn := fwdIn ++ [{
    dev := h.src, port := h.port, tag := h.tag, repair := rep, first := lineOfOff h.offset, lines := n, got := [], code := 0 }] } }
  (List.range n).foldl (fun w k =>
      if rep then w.submit streamSource (.mirror h.src h.port h.tag) .read (line k * 64) t
      else w.submit (remoteSource h.src h.source) (.remote h.src h.port h.tag h.source)
        (if 1 < n then .peek h.urgent else .read) (line k * 64) t)
    (if rep = true ∨ n ≤ 1 then noted else noted.heatLines ((List.range n).map line))

/-- FWD_RD and REPAIR_RD read each of their lines (01 R39; 02 R79). -/
theorem takeRead_eq (s : State) (h : Hdr) (n : Nat) (rep : Bool) : s.takeRead h n rep
    = State.settle (readAsked s h n rep s.bay.fwdIn (s.tenantOf (boltOfOff h.offset))) := by
  have plain : (rep || decide (n ≤ 1)) = true ↔ rep = true ∨ n ≤ 1 := by simp
  exact congrArg (fun w : State => State.settle ((List.range n).foldl _ w)) (if_congr plain rfl rfl)

/-- FWD_WR stores in the order of its source (11 R322). -/
theorem takeGated_fwdWr (s : State) (h : Hdr) (be : Word) (data : LineData) : s.takeGated h (.fwdWr be data)
    = State.settle (s.submit (remoteSource h.src h.source) (.remote h.src h.port h.tag h.source) (.write be data h.poison) h.offset
      (s.tenantOf (boltOfOff h.offset))) := rfl

/-- A descriptor's part that is not the standby's own is a request of its source (11 R322). -/
theorem takeDesc_owner {d : LineData}
    (owner : ¬(h.src = s.twinId ∧ s.isPair (boltOfOff h.offset) = true ∧ s.isActive (boltOfOff h.offset) = false ∧ descOp d ≠ 0x0C)) :
    s.takeDesc h d = State.settle (s.submit (remoteSource h.src h.source) (.remote h.src h.port h.tag h.source) (.ctrl d) h.offset
      (s.tenantOf (boltOfOff h.offset))) := if_neg owner

/-- The device's name, its bolts and its links are all that the twin and the pair of a bolt depend on. -/
theorem standby_congr {u : State} (name : u.devId = s.devId) (bay : u.bay.bolts = s.bay.bolts) (bad : u.bay.crcBad = s.bay.crcBad)
    (stale : u.bay.staleBolts = s.bay.staleBolts) (b : Nat) :
    u.twinId = s.twinId ∧ u.isPair b = s.isPair b ∧ u.isActive b = s.isActive b := by
  refine ⟨?_, ?_, ?_⟩
  · rw [State.twinId, name, State.twinId]
  · rw [State.isPair, State.bound, State.entry, State.pairId, name, bay, bad]
    rfl
  · rw [State.isActive, State.bound, State.entry, name, bay, bad, stale]
    rfl

/-- A HANDOVER in PAIRED takes its claim to eNVM (03 Table 3.7 step 5). -/
theorem takeHandover_paired {l : List (Nat × Nat)} (paired : s.twin.st = .paired) (idle : s.twin.taking = none)
    (still : s.image.change = none) : s.takeHandover l = { s with twin := { s.twin with taking := some {
      claim := s.newClaim, rotation := true, bolts := l.map Prod.fst, trigger := 0, poisonList := false } } } := by
  unfold State.takeHandover
  rw [paired, idle, still]
  rfl

/-- The claim of a takeover or rotation is read from the bolts, the device's name, its claim and the twin's. -/
theorem newClaim_congr {u : State} (name : u.devId = s.devId) (bolts : u.bay.bolts = s.bay.bolts)
    (claim : u.reg .TW_CLAIM_LOCAL 0 = s.reg .TW_CLAIM_LOCAL 0) (peer : u.twin.peer = s.twin.peer) : u.newClaim = s.newClaim := by
  rw [State.newClaim, State.claimHigh, State.pairId, name, bolts, claim, peer]
  rfl

/-- The record of a bolt after one has risen. -/
theorem findD_raiseGate (s : State) (b c k : Nat) : SMap.findD (s.raiseGate b c).bay.gate k 0
    = if b = k then max c (SMap.findD s.bay.gate b 0) else SMap.findD s.bay.gate k 0 := by
  unfold State.raiseGate SMap.findD
  rw [find_put]
  split <;> rfl

/-- No record falls. -/
theorem gate_le_raiseGates (s : State) (l : List (Nat × Nat)) (k : Nat) :
    SMap.findD s.bay.gate k 0 ≤ SMap.findD (raiseGates s l).bay.gate k 0 := by
  refine foldl_keeps (P := fun u : State => SMap.findD s.bay.gate k 0 ≤ SMap.findD u.bay.gate k 0) _ (fun u x low => ?_) l s
    (le_refl _)
  rw [findD_raiseGate]
  split
  · next e =>
    subst e
    exact low.trans (le_max_right _ _)
  · exact low

/-- A record that has risen to a claim stands there or above. -/
theorem le_raiseGates (s : State) (l : List (Nat × Nat)) : ∀ x ∈ l, x.2 ≤ SMap.findD (raiseGates s l).bay.gate x.1 0 := by
  induction l generalizing s with
  | nil => exact fun x hx => absurd hx (List.not_mem_nil)
  | cons y l ih =>
    intro x hx
    rcases List.mem_cons.mp hx with rfl | later
    · refine le_trans ?_ (gate_le_raiseGates (s.raiseGate x.1 x.2) l x.1)
      rw [findD_raiseGate, if_pos rfl]
      exact le_max_left _ _
    · exact ih _ x later

end

/-! The messages whose claim is held here. -/

section
variable {s : State} {h : Hdr}

/-- Counting a message and the rise of a record leave all that its handlers look at. -/
theorem gatePassed_rest (s : State) (h : Hdr) (at_ len : Nat) : let g := gatePassed s h at_ len
    g.power = s.power ∧ (∀ t, g.keyLoaded t = s.keyLoaded t) ∧ (∀ b, g.tenantOf b = s.tenantOf b)
    ∧ g.bay.fwdIn = s.bay.fwdIn := by
  refine ⟨countRx_power .., fun t => ?_, fun b => congrArg BoltEntry.tenant (countRx_entry (s := s.tick at_) ..),
    (congrArg BaySt.fwdIn (countRx_bay (s := s.tick at_) ..) :)⟩
  have cipher : (gatePassed s h at_ len).cipher = s.cipher :=
    (congrArg State.cipher (countRx_eq (s.tick at_) h.port (32 + len)) :)
  rw [State.keyLoaded, State.keySlot, cipher]
  rfl

/-- It leaves the twin, the pair and the side of a bolt. -/
theorem gatePassed_standby (wf : RegsOrdered s) (at_ len b : Nat) : let g := gatePassed s h at_ len
    g.twinId = s.twinId ∧ g.isPair b = s.isPair b ∧ g.isActive b = s.isActive b := by
  have bay : ((s.tick at_).countRx h.port (32 + len)).bay = s.bay := countRx_bay ..
  exact standby_congr (countRx_devId (s := s.tick at_) wf ..) (congrArg BaySt.bolts bay :) (congrArg BaySt.crcBad bay :)
    (congrArg BaySt.staleBolts bay :) b

/-- One whose claim is held here acts on that state. -/
theorem exec_gatedMessage_passed {at_ n : Nat} {be pmap : Word} {data d : LineData} {empty : Bool} {lines : List LineData}
    (wf : RegsOrdered s) (serves : s.linkServes h = true) (here : h.dst = s.devId)
    (atLeast : s.gateRecord (boltOfOff h.offset) ≤ h.claim) (held : h.claim ≤ (s.entry (boltOfOff h.offset)).claim) :
    let g := gatePassed s h at_
    exec (.mirrorWr h be data at_) s = .next ((g 72).takeMirror h be data)
    ∧ exec (.fwdRd h n at_) s = .next ((g 8).takeRead h n false)
    ∧ exec (.repairRd h n at_) s = .next ((g 8).takeRead h n true)
    ∧ exec (.fwdWr h be data at_) s = .next ((g 72).takeGated h (.fwdWr be data))
    ∧ exec (.ctrlReq h (.desc d) at_) s = .next ((g 64).takeDesc h d)
    ∧ exec (.rejoinCopy h empty pmap lines at_) s = .next ((g 4104).takeCopy h empty pmap lines) := by
  have acts {i : Instr} {p : Payload} (gated : (i, p) ∈ gatedMessages h at_ n be pmap data d empty lines) :
      exec i s = .next ((gatePassed s h at_ (payloadLen p)).takeGated h p) :=
    exec_gatedMessage_held gated wf serves here atLeast held
  refine ⟨acts (p := .mirrorWr be data) ?_, acts (p := .fwdRd n) ?_, acts (p := .repairRd n) ?_, acts (p := .fwdWr be data) ?_,
    acts (p := .ctrlReq (.desc d)) ?_, acts (p := .rejoinCopy empty pmap lines) ?_⟩ <;> simp [gatedMessages]

/-- BOLT_UPDATE at the gate: it looks at its entry or is refused, and what waited goes on (03 R108). -/
theorem exec_boltUpdate (wf : RegsOrdered s) (serves : s.linkServes h = true) (here : h.dst = s.devId) (e : BoltEntry) (at_ : Nat) :
    let u := (s.tick at_).countRx h.port 64
    let b := boltOfOff h.offset
    (s.gateRecord b ≤ h.claim → exec (.boltUpdate h e at_) s = .next (State.settle (State.releaseGate
        ((u.raiseGate b h.claim).takeEntry h e))))
    ∧ (h.claim < s.gateRecord b → exec (.boltUpdate h e at_) s = .next (State.settle (State.releaseGate
        (u.raise F.TW_STATUS.GATE_REFUSED)))) := by
  intro u b
  refine ⟨fun atLeast => ?_, fun below => ?_⟩
  · have named : ∀ x ∈ gateClaims h (.boltUpdate e), s.gateRecord x.1 ≤ x.2 := by simpa [gateClaims] using atLeast
    have passes := receiveGated_passes (s := s.tick at_) (p := .boltUpdate e) wf serves here named (.inr rfl)
    exact congrArg (fun v : State => Host.Outcome.next v.releaseGate.settle) passes
  · have refused : (s.tick at_).receiveGated h (.boltUpdate e) = u.raise F.TW_STATUS.GATE_REFUSED := by
      rw [receiveGated_gate (s := s.tick at_) serves,
        gate_refuses (x := (b, h.claim)) (List.mem_singleton_self _) (by rw [countRx_gateRecord]; exact below)]
      rfl
    exact congrArg (fun v : State => Host.Outcome.next v.releaseGate.settle) refused

/-- The claim that the records of bolts leave as it was. -/
theorem raiseGates_newClaim (wf : RegsOrdered s) (port n : Nat) (l : List (Nat × Nat)) :
    (raiseGates (s.countRx port n) l).newClaim = s.newClaim := by
  have eq := raiseGates_eq (s.countRx port n) l
  have regs (r : Reg) : (raiseGates (s.countRx port n) l).reg r 0 = (s.countRx port n).reg r 0 := by
    rw [eq]
    rfl
  obtain ⟨-, low⟩ := countRx_regs wf port n
  refine newClaim_congr ?_ ?_ ?_ ?_
  · exact (congrArg (bitsOf · 0 6) (regs .BL_DEVICE_ID)).trans (countRx_devId wf ..)
  · exact (congrArg (fun x : State => x.bay.bolts) eq).trans (congrArg BaySt.bolts (countRx_bay ..) :)
  · exact (regs .TW_CLAIM_LOCAL).trans (low _ 0 (below_ports (by decide) _))
  · exact (congrArg (fun x : State => x.twin.peer) eq).trans (congrArg TwinSt.peer (countRx_twin ..) :)

/-- A HANDOVER in PAIRED whose claims are held here takes its claim to eNVM, and the records of its bolts rise (03 Table 3.7). -/
theorem exec_handover_paired {l : List (Nat × Nat)} (wf : RegsOrdered s) (serves : s.linkServes h = true) (here : h.dst = s.devId)
    (at_ : Nat) (claims : ∀ x ∈ l, s.gateRecord x.1 ≤ x.2 ∧ x.2 ≤ (s.entry x.1).claim) (paired : s.twin.st = .paired)
    (idle : s.twin.taking = none) (still : s.image.change = none) :
    let v := raiseGates ((s.tick at_).countRx h.port (32 + 12 * l.length)) l
    exec (.handover h l at_) s = .next { v with twin := { s.twin with taking := some {
      claim := s.newClaim, rotation := true, bolts := l.map Prod.fst, trigger := 0, poisonList := false } } } := by
  intro v
  have eq : v = _ := raiseGates_eq _ l
  have twin : v.twin = s.twin := (congrArg State.twin eq).trans (countRx_twin ..)
  have image : v.image = s.image :=
    (congrArg State.image eq).trans (congrArg State.image (countRx_eq (s.tick at_) h.port (32 + 12 * l.length)) :)
  have claim : v.newClaim = s.newClaim := raiseGates_newClaim (s := s.tick at_) wf ..
  have passes := receiveGated_passes (s := s.tick at_) (p := .handover l) wf serves here (fun x hx => (claims x hx).1)
    (.inl fun x hx => (claims x hx).2)
  have taken := takeHandover_paired (s := v) (l := l) (by rw [twin]; exact paired) (by rw [twin]; exact idle)
    (by rw [image]; exact still)
  rw [claim, twin] at taken
  exact congrArg Host.Outcome.next (passes.trans taken)

end

/-- Settles O52: each gated message is refused, waits, or acts by its own lemma; the others pass no gate or one for all they name. -/
theorem gatedMessagesActOrAreRefused : Obligations.GatedMessagesActOrAreRefused := by
  refine ⟨?_, ?_⟩
  · intro s h at_ n be pmap data d empty lines wf _ serves here b u g t all
    refine ⟨fun below x hx => exec_gatedMessage_below hx serves below,
      fun atLeast above x hx => exec_gatedMessage_above hx wf serves atLeast above, fun atLeast held => ?_⟩
    intro mine part line noted reads
    obtain ⟨mirror, fwdRd, repairRd, fwdWr, ctrlReq, copy⟩ := exec_gatedMessage_passed (at_ := at_) (n := n) (be := be)
      (pmap := pmap) (data := data) (d := d) (empty := empty) (lines := lines) wf serves here atLeast held
    have rest := gatePassed_rest s h at_
    obtain ⟨stores, down, bare⟩ := takeMirror_cases (gatePassed s h at_ 72) h be data
    obtain ⟨power, key, tenant, -⟩ := rest 72
    rw [tenant, power, key] at stores bare
    rw [power] at down
    have read (rep : Bool) : (gatePassed s h at_ 8).takeRead h n rep = State.settle (reads rep) := by
      obtain ⟨-, -, tenant, fwd⟩ := rest 8
      rw [takeRead_eq, fwd, tenant]
      rfl
    refine ⟨fun up key => mirror.trans (congrArg _ (stores up key)), fun off => mirror.trans (congrArg _ (down off)),
      fun up key => mirror.trans (congrArg _ (bare up key)), fwdRd.trans (congrArg _ (read false)),
      repairRd.trans (congrArg _ (read true)), ?_, fun owner => ?_, copy⟩
    · rw [takeGated_fwdWr, (rest 72).2.2.1] at fwdWr
      exact fwdWr
    · obtain ⟨twin, pair, active⟩ := gatePassed_standby (h := h) wf at_ 64 b
      have acted := takeDesc_owner (s := gatePassed s h at_ 64) (h := h) (d := d) (by rw [twin, pair, active]; exact owner)
      rw [(rest 64).2.2.1] at acted
      exact ctrlReq.trans (congrArg _ acted)
  · intro s h at_ tn a0 e l wf _ serves here u b
    obtain ⟨passes, refused⟩ := exec_boltUpdate wf serves here e at_
    obtain ⟨created, deleted⟩ := takeBl_news (u 64) h a0 0#64
    have add : exec (.ctrlReq h (.bl 0x10 a0 0#64 1#64) at_) s = .next ((u 64).takeBl h 0x10 a0 0#64 1#64) :=
      heard wf serves here at_ (.ctrlReq (.bl 0x10 a0 0#64 1#64)) (fun w => w.takeBl h 0x10 a0 0#64 1#64)
    have drop : exec (.ctrlReq h (.bl 0x11 a0 0#64 1#64) at_) s = .next ((u 64).takeBl h 0x11 a0 0#64 1#64) :=
      heard wf serves here at_ (.ctrlReq (.bl 0x11 a0 0#64 1#64)) (fun w => w.takeBl h 0x11 a0 0#64 1#64)
    refine ⟨fun tenant => ?_, passes, refused, fun claims paired idle still => ?_⟩
    · rw [tenant, ← created, ← deleted]
      exact ⟨add, drop⟩
    · have bay : (u (12 * l.length)).bay = s.bay := countRx_bay ..
      refine ⟨_, exec_handover_paired wf serves here at_ claims paired idle still, le_raiseGates _ l, ?_⟩
      rw [← bay]
      exact raiseGates_eq ..

end Sys2Proof.Proofs
end

section
/-! PROOFS. The registers of a device's claim and name, TW_CLAIM_LOCAL and BL_DEVICE_ID, through what the device does of itself (03
R105, R106): a lemma for each operation, its proof the operation's own shape. -/

namespace Sys2Proof.Proofs

set_option Elab.async false

open Sys2Proof Machine Laws Claims

/-- The places of the claim and of the name. -/
def nameAddrs : List Nat := [Reg.addr .TW_CLAIM_LOCAL 0, Reg.addr .BL_DEVICE_ID 0]

/-- The registers are in order, and the claim and the name read as in `m`. -/
def NamesHeld (m : SMap Word) (s : State) : Prop := RegsOrdered s ∧ ∀ k ∈ nameAddrs, SMap.findD s.regs k 0 = SMap.findD m k 0

/-- The register has no place of the claim or the name. -/
def aside (r : Reg) : Bool :=
  decide (Reg.addr .BL_DEVICE_ID 0 < r.info.base) || (r.info.stride == 0 && nameAddrs.all (fun k => k != r.info.base))

theorem base_le_addr (r : Reg) (i : Nat) : r.info.base ≤ r.addr i := by
  unfold Reg.addr
  split <;> omega

theorem addr_of_device_wide {r : Reg} (wide : r.info.stride = 0) (i : Nat) : r.addr i = r.info.base := by
  unfold Reg.addr
  split
  · exact absurd wide (by decide)
  · rw [wide, Nat.mul_zero, Nat.add_zero]

theorem addr_of_aside {r : Reg} (apart : aside r = true) (i : Nat) : r.addr i ∉ nameAddrs := by
  have low : ∀ k ∈ nameAddrs, k ≤ Reg.addr .BL_DEVICE_ID 0 := by decide
  rcases Bool.or_eq_true_iff.mp apart with above | wide
  · intro named
    exact absurd ((low _ named).trans_lt (of_decide_eq_true above)) (base_le_addr r i).not_gt
  · obtain ⟨stride, other⟩ := Bool.and_eq_true_iff.mp wide
    rw [addr_of_device_wide (beq_iff_eq.mp stride)]
    exact fun named => absurd (List.all_eq_true.mp other _ named) (by simp)

variable {m : SMap Word} {s : State}

theorem namesHeld_refl (wf : RegsOrdered s) : NamesHeld s.regs s := ⟨wf, fun _ _ => rfl⟩

/-! What writes a register. -/

theorem held_setReg (h : NamesHeld m s) {r : Reg} {i : Nat} {v : Word} (apart : aside r = true := by rfl) :
    NamesHeld m (s.setReg r i v) := by
  obtain ⟨wf, same⟩ := h
  refine ⟨wf_setReg wf r i v, fun k named => ?_⟩
  have other : r.addr i ≠ k := fun e => addr_of_aside apart i (e ▸ named)
  rw [← same k named]
  unfold State.setReg SMap.findD
  dsimp only
  split
  · rw [find_del _ wf, if_neg other]
  · rw [find_put, if_neg other]

theorem held_setF (h : NamesHeld m s) {f : FieldRef} {i x : Nat} (apart : aside f.reg = true := by rfl) :
    NamesHeld m (s.setF f i x) := held_setReg h apart

theorem held_put (h : NamesHeld m s) {f : FieldRef} {x : Nat} (apart : aside f.reg = true := by rfl) :
    NamesHeld m (s.put f x) := held_setReg h apart

theorem held_bump (h : NamesHeld m s) {f : FieldRef} {i n : Nat} (apart : aside f.reg = true := by rfl) :
    NamesHeld m (s.bump f i n) := held_setReg h apart

theorem held_countBytes (h : NamesHeld m s) {f : FieldRef} {port left n : Nat} (apart : aside f.reg = true := by rfl) :
    NamesHeld m (s.countBytes f port left n).2 := by
  unfold State.countBytes
  dsimp only
  split
  · exact held_bump h apart
  · exact h

/-- A flag set, and what it logs, leaves both. -/
theorem held_logged {t : State} (h : NamesHeld m s) (logged : Logged s t) : NamesHeld m t := by
  obtain ⟨wf, same⟩ := h
  refine ⟨RegsStand.wf logged wf, fun k named => (RegsStand.same logged wf k ?_ ?_).trans (same k named)⟩
  · rintro rfl
    exact absurd named (by decide)
  · rintro rfl
    exact absurd named (by decide)

theorem held_raiseCls (h : NamesHeld m s) {f : FieldRef} {i cls : Nat} {a : EvArg} (apart : aside f.reg = true := by rfl) :
    NamesHeld m (s.raiseCls f i cls a) := held_logged (held_setF h apart) (logged_raiseCls ..)

theorem held_raiseArg (h : NamesHeld m s) {f : FieldRef} {i : Nat} {a : EvArg} (apart : aside f.reg = true := by rfl) :
    NamesHeld m (s.raiseArg f i a) := held_logged (held_setF h apart) (logged_raiseArg ..)

theorem held_raise (h : NamesHeld m s) {f : FieldRef} (apart : aside f.reg = true := by rfl) :
    NamesHeld m (s.raise f) := held_raiseArg h apart

theorem held_raiseAt (h : NamesHeld m s) {f : FieldRef} {i : Nat} (apart : aside f.reg = true := by rfl) :
    NamesHeld m (s.raiseAt f i) := held_raiseArg h apart

theorem held_raiseOff (h : NamesHeld m s) {f : FieldRef} {o : Nat} (apart : aside f.reg = true := by rfl) :
    NamesHeld m (s.raiseOff f o) := held_raiseArg h apart

/-! Cases and lists. -/

/-- An operation that writes no register. -/
theorem held_same {t : State} (h : NamesHeld m s) (same : t.regs = s.regs := by rfl) : NamesHeld m t := by
  unfold NamesHeld RegsOrdered
  rw [same]
  exact h

/-- The same, where the operation follows others: what it leaves is looked at first. -/
theorem held_after {t : State} (same : t.regs = s.regs := by rfl) (h : NamesHeld m s) : NamesHeld m t := held_same h same

theorem held_ite {c : Prop} [Decidable c] {t u : State} (yes : NamesHeld m t) (no : NamesHeld m u) :
    NamesHeld m (if c then t else u) := by
  split
  · exact yes
  · exact no

/-- A step that is taken or not. -/
theorem held_opt {c : Prop} [Decidable c] {t : State} (h : NamesHeld m s) (step : NamesHeld m s → NamesHeld m t) :
    NamesHeld m (if c then t else s) := held_ite (step h) h

theorem held_else {c : Prop} [Decidable c] {t : State} (h : NamesHeld m s) (step : NamesHeld m s → NamesHeld m t) :
    NamesHeld m (if c then s else t) := held_ite h (step h)

theorem held_ite_fst {α : Type} {c : Prop} [Decidable c] {t u : State × α} (yes : NamesHeld m t.1) (no : NamesHeld m u.1) :
    NamesHeld m (if c then t else u).1 := by
  split
  · exact yes
  · exact no

theorem held_foldl {β : Type} {f : State → β → State} {l : List β} (h : NamesHeld m s)
    (keeps : ∀ u x, NamesHeld m u → NamesHeld m (f u x)) : NamesHeld m (l.foldl f s) :=
  foldl_keeps (P := fun u => NamesHeld m u) f keeps l s h

/-! The operations, in the order of the model. -/

theorem held_emit (h : NamesHeld m s) {o : Out} : NamesHeld m (s.emit o) := by
  unfold State.emit
  exact held_same h

theorem held_putLine (h : NamesHeld m s) {l : Nat} {be : Word} {d : LineData} : NamesHeld m (s.putLine l be d) := by
  unfold State.putLine
  exact held_same h

theorem held_zeroRange (h : NamesHeld m s) {a n : Nat} : NamesHeld m (s.zeroRange a n) := by
  unfold State.zeroRange
  exact held_same h

theorem held_msix (h : NamesHeld m s) {port ld vector : Nat} : NamesHeld m (s.msix port ld vector) := by
  unfold State.msix
  exact held_ite (held_same h) (held_same h)

theorem held_bbRecord (h : NamesHeld m s) {cls : Nat} {body : BBody} : NamesHeld m (s.bbRecord cls body) := by
  unfold State.bbRecord
  exact held_same h

theorem held_health (h : NamesHeld m s) {ix n : Nat} : NamesHeld m (s.health ix n) := by
  unfold State.health
  exact held_same h

theorem held_spanLoss (h : NamesHeld m s) {span cause cls : Nat} : NamesHeld m (s.spanLoss span cause cls) := by
  unfold State.spanLoss
  refine held_ite (held_same h) ?_
  dsimp only
  split
  · split
    · exact held_ite (held_same h) (held_same h)
    · exact held_same h
  · exact held_same h

theorem held_newLossCause (h : NamesHeld m s) : NamesHeld m s.newLossCause := by
  unfold State.newLossCause
  exact held_same h

theorem held_newTag (h : NamesHeld m s) : NamesHeld m s.newTag.2 := by
  unfold State.newTag
  exact held_same h

theorem held_countTx (h : NamesHeld m s) {port n : Nat} : NamesHeld m (s.countTx port n) := by
  unfold State.countTx
  exact held_after (h := held_countBytes h)

theorem held_emitMsg (h : NamesHeld m s) {port : Nat} {hd : Hdr} {p : Payload} : NamesHeld m (s.emitMsg port hd p) := by
  unfold State.emitMsg
  exact held_emit (held_countTx h)

theorem held_sendOn (h : NamesHeld m s) {port : Nat} {hd : Hdr} {p : Payload} : NamesHeld m (s.sendOn port hd p) := by
  unfold State.sendOn
  refine held_ite h ?_
  dsimp only
  split
  · exact held_ite (held_same h) (held_emitMsg h)
  · exact held_ite (held_same h) (held_emitMsg (held_same h))

theorem held_send (h : NamesHeld m s) {hd : Hdr} {p : Payload} : NamesHeld m (s.send hd p) := by
  unfold State.send
  refine held_ite (held_same h) ?_
  dsimp only
  split
  · exact held_sendOn h
  · exact h

theorem held_reply (h : NamesHeld m s) {req : Hdr} {status : Nat} {stream : Bool} {p : Payload} : NamesHeld m (s.reply req status
    stream p) := by
  unfold State.reply
  exact held_ite (held_sendOn h) (held_send h)

theorem held_sendStream (h : NamesHeld m s) {b : Nat} {hd : Hdr} {p : Payload} {busy : Bool} : NamesHeld m (s.sendStream b hd p
    busy) := by
  unfold State.sendStream
  dsimp only
  split
  · exact held_same h
  · exact held_ite (held_same h) (held_sendOn (held_same h))

theorem held_poisonLine (h : NamesHeld m s) {l src : Nat} : NamesHeld m (s.poisonLine l src) := by
  unfold State.poisonLine
  exact held_ite h (held_raiseArg (held_setReg (held_health (held_bump (held_same h)))))

theorem held_poisonSpan (h : NamesHeld m s) {sp : Nat} : NamesHeld m (s.poisonSpan sp) := by
  unfold State.poisonSpan
  exact held_raiseArg (held_setReg (held_health (held_bump (held_same h))))

theorem held_noteWritten (h : NamesHeld m s) {f : Nat} : NamesHeld m (s.noteWritten f) := by
  unfold State.noteWritten
  exact held_ite h (held_ite (held_same h) (held_same h))

theorem held_suspendOn (h : NamesHeld m s) {d : Nat} : NamesHeld m (s.suspendOn d) := by
  unfold State.suspendOn
  dsimp only
  split
  · exact held_ite (held_same h) (held_raiseAt h)
  · split
    · exact held_ite (held_same h) (held_raiseAt h)
    · exact h

theorem held_flashRead (h : NamesHeld m s) {l : Nat} : NamesHeld m (s.flashRead l) := by
  unfold State.flashRead
  split
  · exact held_suspendOn h
  · exact h

theorem held_startPromotion (h : NamesHeld m s) {sp : Nat} : NamesHeld m (s.startPromotion sp) := by
  unfold State.startPromotion
  dsimp only
  split
  · exact held_ite (held_foldl (held_same h) (fun _ _ h => held_suspendOn h)) h
  · exact h

theorem held_useSpan (h : NamesHeld m s) {sp : Nat} : NamesHeld m (s.useSpan sp) := by
  unfold State.useSpan
  exact held_same h

theorem held_heat (h : NamesHeld m s) {sp : Nat} : NamesHeld m (s.heat sp) := by
  unfold State.heat
  dsimp only
  split
  · exact held_opt (held_same h) (fun h1 => held_startPromotion h1)
  · exact h

theorem held_allocD (h : NamesHeld m s) {f : Nat} : NamesHeld m (s.allocD f) := by
  unfold State.allocD
  refine held_ite h ?_
  refine held_else ?_ (fun h1 => ?_)
  · dsimp only
    split
    · split
      · exact held_same h
      · exact h
    · exact h
  · dsimp only
    split
    · exact held_same h
    · exact h1

theorem held_holdWrite (h : NamesHeld m s) {l : Nat} : NamesHeld m (s.holdWrite l) := by
  unfold State.holdWrite
  exact held_same h

theorem held_putTierD (h : NamesHeld m s) {l : Nat} {dirty : Bool} : NamesHeld m (s.putTierD l dirty) := by
  unfold State.putTierD
  dsimp only
  split
  · exact held_holdWrite (held_after (h := held_allocD h))
  · exact held_opt (held_allocD h) (fun h1 => held_same h1)

theorem held_wholeToD (h : NamesHeld m s) {l : Nat} : NamesHeld m (s.wholeToD l) := by
  unfold State.wholeToD
  exact held_putTierD (held_same h)

theorem held_mergeIn (h : NamesHeld m s) {l : Nat} {mask : Word} {poison : Bool} : NamesHeld m (s.mergeIn l mask poison) := by
  unfold State.mergeIn
  dsimp only
  split
  · exact held_ite (held_wholeToD (held_same h)) (held_same h)
  · split <;> exact held_after (h := held_allocD h)

theorem held_leaveDirty (h : NamesHeld m s) {l : Nat} : NamesHeld m (s.leaveDirty l) := by
  unfold State.leaveDirty
  split
  · exact held_ite (held_wholeToD h) (held_mergeIn h)
  · exact held_wholeToD h

theorem held_readBeats (h : NamesHeld m s) {l : Nat} : NamesHeld m (s.readBeats l) := by
  unfold State.readBeats
  split
  · exact h
  · exact held_raise (held_bump h)
  · exact held_raise (held_bump h)

theorem held_newBeats (h : NamesHeld m s) {l : Nat} : NamesHeld m (s.newBeats l) := by
  unfold State.newBeats
  exact held_same h

theorem held_keepD (h : NamesHeld m s) {l : Nat} : NamesHeld m (s.keepD l) := by
  unfold State.keepD
  split
  · exact held_ite (held_putTierD h) h
  · exact h

theorem held_evictCell (h : NamesHeld m s) {k : Nat} : NamesHeld m (s.evictCell k) := by
  unfold State.evictCell
  dsimp only
  split
  · exact held_ite (held_ite (held_wholeToD (held_after (h := held_readBeats (held_same h)))) (held_leaveDirty (held_newBeats
        (held_readBeats (held_same h))))) (held_keepD (held_same h))
  · exact h

theorem held_allocCrown (h : NamesHeld m s) {l : Nat} {dirty fill : Bool} {t : State}
    (e : s.allocCrown l dirty fill = some t) : NamesHeld m t := by
  unfold State.allocCrown at e
  dsimp only at e
  split at e
  · rw [← Option.some.inj e]
    exact held_after (h := held_evictCell (held_same h))
  · cases e

theorem held_makeDirty (h : NamesHeld m s) {l : Nat} : NamesHeld m (s.makeDirty l) := by
  unfold State.makeDirty
  exact held_ite h (held_same h)

theorem held_startClear (h : NamesHeld m s) {sp : Nat} : NamesHeld m (s.startClear sp) := by
  unfold State.startClear
  exact held_ite (held_same h) h

theorem held_startSpanWrite (h : NamesHeld m s) {sp : Nat} : NamesHeld m (s.startSpanWrite sp) := by
  unfold State.startSpanWrite
  exact held_ite h (held_same h)

theorem held_dropLines (h : NamesHeld m s) {p : Nat → Bool} : NamesHeld m (s.dropLines p) := by
  unfold State.dropLines
  exact held_foldl (held_same h) (fun _ _ h => held_startClear h)

theorem held_checkWriteThrough (h : NamesHeld m s) : NamesHeld m s.checkWriteThrough := by
  unfold State.checkWriteThrough
  exact held_ite (held_ite h (held_raise (held_same h))) (held_same h)

theorem held_checkThrottle (h : NamesHeld m s) : NamesHeld m s.checkThrottle := by
  unfold State.checkThrottle
  exact held_ite (held_ite (held_same h) h) (held_ite (held_raise (held_same h)) h)

theorem held_checkDestage (h : NamesHeld m s) : NamesHeld m s.checkDestage := by
  unfold State.checkDestage
  exact held_ite (held_same h) (held_ite (held_ite (held_same h) h) (held_ite (held_same h) h))

theorem held_checkBudget (h : NamesHeld m s) : NamesHeld m s.checkBudget := by
  unfold State.checkBudget
  exact held_checkDestage (held_checkThrottle (held_checkWriteThrough h))

theorem held_startJournal (h : NamesHeld m s) {g : Nat} : NamesHeld m (s.startJournal g) := by
  unfold State.startJournal
  exact held_ite h (held_same h)

theorem held_queueRow (h : NamesHeld m s) {g row : Nat} : NamesHeld m (s.queueRow g row) := by
  unfold State.queueRow
  exact held_ite h (held_startJournal (held_same h))

theorem held_destageStart (h : NamesHeld m s) {f : Nat} : NamesHeld m (s.destageStart f) := by
  unfold State.destageStart
  refine held_ite h ?_
  dsimp only
  split
  · refine held_ite (held_startPromotion h) ?_
    split
    · exact held_ite h (held_queueRow (held_same h))
    · exact h
  · exact h

theorem held_planDestage (h : NamesHeld m s) : NamesHeld m s.planDestage := by
  unfold State.planDestage
  refine held_ite h ?_
  refine held_opt (held_foldl h (fun _ _ h => held_destageStart h)) (fun h1 => ?_)
  split
  · exact held_foldl h1 (fun _ _ h => held_destageStart h)
  · exact h1

theorem held_checkEligible (h : NamesHeld m s) {b : Nat} : NamesHeld m (s.checkEligible b) := by
  unfold State.checkEligible
  dsimp only
  split
  · exact held_ite (held_opt (held_same h) (fun h1 => held_same h1)) h
  · exact h

theorem held_release (h : NamesHeld m s) {l : List Nat} : NamesHeld m (s.release l) := by
  unfold State.release
  refine held_foldl h (fun _ _ h => ?_)
  dsimp only
  split
  · exact held_checkEligible (held_same h)
  · exact h

theorem held_closeBand (h : NamesHeld m s) {b : Nat} : NamesHeld m (s.closeBand b) := by
  unfold State.closeBand
  split
  · exact held_checkEligible (held_same h)
  · exact h

theorem held_bandRoom (h : NamesHeld m s) {n b slot : Nat} {fulling : Bool} {t : State}
    (e : s.bandRoom n fulling = some (b, slot, t)) : NamesHeld m t := by
  unfold State.bandRoom at e
  dsimp only at e
  split at e
  · cases e
    exact held_same h
  · split at e
    · cases e
    · split at e
      · cases e
        refine held_same (s := ite _ _ _) (held_ite h ?_)
        split
        · exact held_closeBand h
        · exact h
      · cases e

theorem held_startChange (h : NamesHeld m s) {kind : ChgKind} {sp : Nat} {frames src : List Nat} {fulling credit : Bool} :
    NamesHeld m (s.startChange kind sp frames src fulling credit) := by
  unfold State.startChange
  refine held_ite h (held_ite h ?_)
  split
  · exact h
  · next e => exact held_same (held_bandRoom h e)

theorem held_toFine (h : NamesHeld m s) {sp : Nat} : NamesHeld m (s.toFine sp) := by
  unfold State.toFine
  dsimp only
  split
  · exact h
  · exact held_ite h (held_same h)

theorem held_toSpan (h : NamesHeld m s) {sp : Nat} : NamesHeld m (s.toSpan sp) := by
  unfold State.toSpan
  split
  · exact held_ite (held_startChange h) h
  · exact h

theorem held_countSubw (h : NamesHeld m s) {sp : Nat} : NamesHeld m (s.countSubw sp) := by
  unfold State.countSubw
  dsimp only
  split
  · exact h
  · refine held_opt (held_same h) (fun h1 => ?_)
    refine held_ite (held_toFine h1) ?_
    split
    · exact held_toSpan h1
    · exact h1

theorem held_dropFSpan (h : NamesHeld m s) {sp : Nat} : NamesHeld m (s.dropFSpan sp) := by
  unfold State.dropFSpan
  dsimp only
  split
  · exact h
  · exact held_release (held_same h)

theorem held_planMoves (h : NamesHeld m s) : NamesHeld m s.planMoves := by
  unfold State.planMoves
  exact held_foldl h (fun _ _ h => held_ite (held_ite h (held_raise h)) (held_startChange h))

theorem held_abandonDemotion (h : NamesHeld m s) {sp : Nat} : NamesHeld m (s.abandonDemotion sp) := by
  unfold State.abandonDemotion
  dsimp only
  split
  · exact held_ite (held_same h) h
  · exact h

theorem held_sendVector (h : NamesHeld m s) {q : Nat} : NamesHeld m (s.sendVector q) := by
  unfold State.sendVector
  dsimp only
  split
  · exact held_ite (held_msix (held_same h)) (held_raise (held_same h))
  · exact held_same h

theorem held_irqDue (h : NamesHeld m s) {q : Nat} : NamesHeld m (s.irqDue q) := by
  unfold State.irqDue
  dsimp only
  split
  · exact held_ite h (held_opt (held_same h) (fun h1 => held_sendVector h1))
  · exact h

theorem held_logQueue (h : NamesHeld m s) {q code port ld : Nat} : NamesHeld m (s.logQueue q code port ld) := by
  unfold State.logQueue
  exact held_put (held_put (held_put (held_put h)))

theorem held_queueError (h : NamesHeld m s) {q code port ld : Nat} : NamesHeld m (s.queueError q code port ld) := by
  unfold State.queueError
  split
  · exact held_raiseArg (held_logQueue (held_same h))
  · exact h

theorem held_boltAccess (h : NamesHeld m s) {b t : Nat} {write : Bool} {off : Nat} :
    NamesHeld m (s.boltAccess b t write off).1 := by
  unfold State.boltAccess
  exact held_ite_fst (held_raiseOff h) (held_ite_fst (held_raiseOff h) h)

theorem held_rangeAccess (h : NamesHeld m s) {t : Nat} {l : List (Nat × Nat × Bool)} :
    NamesHeld m (s.rangeAccess t l).1 := by
  unfold State.rangeAccess
  refine foldl_keeps (P := fun u : State × Nat => NamesHeld m u.1) _ (fun u x h => ?_) l (s, 0) h
  refine foldl_keeps (P := fun u : State × Nat => NamesHeld m u.1) _ (fun u x h => ?_) _ u h
  split
  · exact h
  · exact held_boltAccess h

theorem held_checkDesc (h : NamesHeld m s) {e : QEntry} {d : LineData} : NamesHeld m (s.checkDesc e d).1 := by
  unfold State.checkDesc
  exact held_ite_fst h (held_ite_fst h (held_ite_fst h (held_rangeAccess h)))

theorem held_updRun (h : NamesHeld m s) {e : Nat} {f : Run → Run} : NamesHeld m (s.updRun e f) := by
  unfold State.updRun
  dsimp only
  split
  · exact held_same h
  · exact h

theorem held_putDesc (h : NamesHeld m s) {d : Desc} : NamesHeld m (s.putDesc d) := by
  unfold State.putDesc
  exact held_same h

theorem held_endDesc (h : NamesHeld m s) {q ix code : Nat} : NamesHeld m (s.endDesc q ix code) := by
  unfold State.endDesc
  split
  · exact held_same h
  · exact h

theorem held_noteCode (h : NamesHeld m s) {q ix code : Nat} : NamesHeld m (s.noteCode q ix code) := by
  unfold State.noteCode
  split
  · exact held_same h
  · exact h

theorem held_descPartDone (h : NamesHeld m s) {q ix code : Nat} : NamesHeld m (s.descPartDone q ix code) := by
  unfold State.descPartDone
  dsimp only
  split
  · split
    · exact held_same h
    · exact h
  · exact h

theorem held_entryStored (h : NamesHeld m s) {d : Desc} {code : Nat} : NamesHeld m (s.entryStored d code) := by
  unfold State.entryStored
  exact held_ite (held_queueError (held_same h)) (held_opt (held_same h) (fun h1 => held_irqDue h1))

theorem held_takeFetched (h : NamesHeld m s) {x : Desc} {data : LineData} {poison : Bool} {code : Nat} : NamesHeld m
    (s.takeFetched x data poison code) := by
  unfold State.takeFetched
  dsimp only
  split
  · refine held_else (held_same h) (fun h1 => ?_)
    refine held_ite (held_queueError h1) ?_
    refine held_ite (held_same h1) ?_
    refine held_ite (held_same h) ?_
    refine held_ite (held_putDesc (held_checkDesc (held_same h))) ?_
    refine held_ite ?_ (held_putDesc (held_checkDesc (held_same h)))
    split <;> exact held_putDesc (held_checkDesc (held_same h))
  · exact held_same h

theorem held_releaseSpan (h : NamesHeld m s) {sp : Nat} : NamesHeld m (s.releaseSpan sp) := by
  unfold State.releaseSpan
  exact held_after (h := held_dropFSpan (held_zeroRange (held_dropLines h)))

theorem held_copyLine (h : NamesHeld m s) {l : Nat} {d : LineData} {poison : Bool} : NamesHeld m (s.copyLine l d poison) := by
  unfold State.copyLine
  dsimp only
  split
  · exact held_after (h := held_makeDirty (held_ite (held_poisonLine (held_same h)) (held_same h)))
  · exact held_putTierD (held_makeDirty (held_ite (held_poisonLine (held_same h)) (held_same h)))

theorem held_ownFlush (h : NamesHeld m s) {id lo n : Nat} : NamesHeld m (s.ownFlush id lo n).1 := by
  unfold State.ownFlush
  exact held_ite_fst h (held_same h)

theorem held_ownMigrate (h : NamesHeld m s) {id lo n : Nat} {toF check : Bool} :
    NamesHeld m (s.ownMigrate id lo n toF check).1 := by
  unfold State.ownMigrate
  exact held_ite_fst h (held_ite_fst h (held_after (h := held_ite (held_same h) (held_foldl h (fun _ _ h => held_startPromotion
      h)))))

theorem held_stepMoves (h : NamesHeld m s) : NamesHeld m s.stepMoves.1 := by
  unfold State.stepMoves
  refine held_ite_fst h ?_
  refine held_after (h := ?_)
  refine held_else ?_ (fun h1 => held_planMoves h1)
  refine held_foldl h (fun _ _ h => ?_)
  split
  · exact held_ite (held_same h) h
  · exact h

theorem held_setPin (h : NamesHeld m s) {sp : Nat} {x : Pin} : NamesHeld m (s.setPin sp x) := by
  unfold State.setPin
  exact held_same h

theorem held_fillD (h : NamesHeld m s) {sp : Nat} : NamesHeld m (s.fillD sp) := by
  unfold State.fillD
  dsimp only
  split
  · exact held_foldl h (fun _ _ h => held_after (h := held_allocD h))
  · exact h

theorem held_ownPin (h : NamesHeld m s) {lo n : Nat} {d check : Bool} : NamesHeld m (s.ownPin lo n d check).1 := by
  unfold State.ownPin
  exact held_ite_fst h (held_ite_fst h (held_foldl h (fun _ _ h => held_opt (held_startPromotion (held_setPin
      (held_abandonDemotion h))) (fun h2 => held_fillD h2))))

theorem held_ownUnpin (h : NamesHeld m s) {lo n : Nat} : NamesHeld m (s.ownUnpin lo n).1 := by
  unfold State.ownUnpin
  exact held_foldl h (fun _ _ h => held_same h)

theorem held_freeFrame (h : NamesHeld m s) {f : Nat} : NamesHeld m (s.freeFrame f) := by
  unfold State.freeFrame
  exact held_else (held_after (h := held_dropLines h)) (fun h1 => held_release (held_same h1))

theorem held_discardPart (h : NamesHeld m s) {sp lo n : Nat} : NamesHeld m (s.discardPart sp lo n) := by
  unfold State.discardPart
  refine held_ite h ?_
  dsimp only
  split
  · exact held_opt (held_ite (held_foldl (held_countSubw (held_toFine h)) (fun _ _ h => held_freeFrame h)) (held_raise
        (held_toFine h))) (fun h1 => held_releaseSpan h1)
  · exact held_ite (held_foldl (held_countSubw (held_toFine h)) (fun _ _ h => held_freeFrame h)) (held_raise (held_toFine h))

theorem held_discardPoison (h : NamesHeld m s) {lo n : Nat} : NamesHeld m (s.discardPoison lo n) := by
  unfold State.discardPoison
  exact held_foldl h (fun _ _ h => held_opt (held_copyLine h) (fun h2 => held_startSpanWrite h2))

theorem held_ownDiscard (h : NamesHeld m s) {lo n : Nat} : NamesHeld m (s.ownDiscard lo n).1 := by
  unfold State.ownDiscard
  exact held_opt (held_discardPoison (held_foldl h (fun _ _ h => held_ite (held_releaseSpan h) (held_discardPart h)))) (fun h1 =>
      held_same h1)

theorem held_ownPart (h : NamesHeld m s) {id : Nat} {d : LineData} {active : Bool} : NamesHeld m (s.ownPart id d active).1 := by
  unfold State.ownPart
  dsimp only
  split
  · exact held_ownFlush h
  · exact held_ownMigrate h
  · exact held_ownPin h
  · exact held_ownUnpin h
  · exact held_ownDiscard h
  · exact h

theorem held_putReq (h : NamesHeld m s) {r : Req} : NamesHeld m (s.putReq r) := by
  unfold State.putReq
  exact held_same h

theorem held_finish (h : NamesHeld m s) {r : Req} {code : Nat} {data : LineData} {poison : Bool} : NamesHeld m (s.finish r code
    data poison) := by
  unfold State.finish
  exact held_same h

theorem held_fail (h : NamesHeld m s) {r : Req} {code : Nat} : NamesHeld m (s.fail r code) := by
  unfold State.fail
  exact held_ite (held_same h) (held_same h)

theorem held_finishRead (h : NamesHeld m s) {r : Req} : NamesHeld m (s.finishRead r) := by
  unfold State.finishRead
  exact held_ite (held_same h) (held_ite (held_same h) (held_same h))

theorem held_addMiss (h : NamesHeld m s) {l : Nat} {first : Bool} : NamesHeld m (s.addMiss l first) := by
  unfold State.addMiss
  exact held_after (h := held_ite (held_same h) (held_else (held_same h) (fun h1 => held_ite (held_flashRead h1) h1)))

theorem held_sendRepair (h : NamesHeld m s) {l n : Nat} : NamesHeld m (s.sendRepair l n).2 := by
  unfold State.sendRepair
  exact held_sendStream (held_same h)

theorem held_endFill (h : NamesHeld m s) {l : Nat} : NamesHeld m (s.endFill l) := by
  unfold State.endFill
  dsimp only
  split
  · exact held_after (h := held_opt (held_same h) (fun h1 => held_putTierD (held_same h1)))
  · exact held_opt (held_same h) (fun h1 => held_putTierD (held_same h1))

theorem held_frameOutcome (h : NamesHeld m s) {l c : Nat} : NamesHeld m (s.frameOutcome l c) := by
  unfold State.frameOutcome
  exact held_ite (held_same h) h

theorem held_poisonRead (h : NamesHeld m s) {l src : Nat} : NamesHeld m (s.poisonRead l src) := by
  unfold State.poisonRead
  exact held_foldl (held_endFill (held_after (h := held_frameOutcome (held_poisonLine h)))) (fun _ _ h => held_finishRead h)

theorem held_deviceRepair (h : NamesHeld m s) {l src : Nat} : NamesHeld m (s.deviceRepair l src) := by
  unfold State.deviceRepair
  exact held_ite h (held_ite (held_after (h := held_sendRepair (held_same h))) (held_poisonRead (held_same h)))

theorem held_repairLost (h : NamesHeld m s) : NamesHeld m s.repairLost := by
  unfold State.repairLost
  exact held_ite h (held_foldl (held_same h) (fun _ _ h => held_deviceRepair h))

theorem held_startRepair (h : NamesHeld m s) {l src : Nat} : NamesHeld m (s.startRepair l src) := by
  unfold State.startRepair
  exact held_ite (held_ite (held_ite (held_deviceRepair (held_foldl (held_same h) (fun _ _ h => held_same h))) (held_endFill
      (held_foldl (held_same h) (fun _ _ h => held_same h)))) (held_foldl (held_sendRepair (held_foldl (held_same h) (fun _ _ h
      => held_same h))) (fun _ _ h => held_same h))) (held_poisonRead (held_foldl (held_same h) (fun _ _ h => held_same h)))

theorem held_withBay (h : NamesHeld m s) {bay : BaySt} : NamesHeld m { s with bay := bay } := h

theorem held_withCrown (h : NamesHeld m s) {crown : CrownSt} : NamesHeld m { s with crown := crown } := h

theorem held_install (h : NamesHeld m s) {l : Nat} {d : LineData} : NamesHeld m (s.install l d) := by
  unfold State.install
  refine held_foldl (held_withBay (held_raise (held_frameOutcome (held_health (held_bump ?_))))) (fun _ _ h => held_finishRead h)
  dsimp only
  split
  · refine held_withCrown (held_endFill (held_makeDirty ?_))
    split <;> exact held_same h
  · refine held_putTierD (held_endFill (held_makeDirty ?_))
    split <;> exact held_same h

theorem held_markFilling (h : NamesHeld m s) {l : Nat} : NamesHeld m (s.markFilling l) := by
  unfold State.markFilling
  dsimp only
  split
  · exact held_same h
  · exact h

theorem held_noEntry (h : NamesHeld m s) {r : Req} : NamesHeld m (s.noEntry r) := by
  unfold State.noEntry
  exact held_putReq (held_ite h (held_raise h))

theorem held_badCrown (h : NamesHeld m s) {r : Req} : NamesHeld m (s.badCrown r) := by
  unfold State.badCrown
  exact held_startRepair (held_putReq (held_after (h := held_readBeats h)))

theorem held_lookUp (h : NamesHeld m s) {r : Req} {first : Bool} : NamesHeld m (s.lookUp r first) := by
  unfold State.lookUp
  extract_lets l miss
  have missed {u : State} (h : NamesHeld m u) : NamesHeld m (miss u) :=
    held_ite (held_ite (held_bump h) (held_heat (held_bump h))) h
  split
  · refine held_ite (missed h) (held_ite (held_ite (held_markFilling (missed h)) (held_ite (held_markFilling
      (held_addMiss (missed h))) (held_noEntry (missed h)))) (held_ite (held_badCrown h) ?_))
    exact held_finishRead (held_readBeats (held_ite (held_bump h) h))
  · refine held_ite (missed h) (held_ite (held_ite (held_addMiss (missed h)) ?_) (held_noEntry (missed h)))
    split
    · next e => exact held_addMiss (missed (held_allocCrown h e))
    · exact missed h

theorem held_startRead (h : NamesHeld m s) {r : Req} {first : Bool} : NamesHeld m (s.startRead r first) := by
  unfold State.startRead
  exact held_ite (held_same h) (held_ite (held_ite h (held_same h)) (held_lookUp (held_same h)))

theorem held_startVerify (h : NamesHeld m s) {r : Req} : NamesHeld m (s.startVerify r) := by
  unfold State.startVerify
  exact held_ite (held_ite (held_startRead h) (held_finishRead h)) (held_ite (held_finishRead h) (held_putReq (held_else
      (held_same h) (fun h1 => held_flashRead (held_heat h1)))))

theorem held_storeMask (h : NamesHeld m s) {l : Nat} {be : Word} {hit : Bool} : NamesHeld m (s.storeMask l be hit) := by
  unfold State.storeMask
  refine held_ite (held_same h) ?_
  dsimp only
  split
  · exact held_same h
  · exact held_ite h (held_same h)

theorem held_applyStore (h : NamesHeld m s) {l : Nat} {be : Word} {d : LineData} {poison : Bool} {t : State}
    (e : s.applyStore l be d poison = some t) : NamesHeld m t := by
  unfold State.applyStore at e
  dsimp only at e
  split at e
  · cases e
  · next u hit room =>
    have h : NamesHeld m u := by
      split at room
      · split at room
        · obtain ⟨v, alloc, eq⟩ := Option.map_eq_some_iff.mp room
          cases eq
          exact held_allocCrown (held_same h) alloc
        · cases room
          exact held_same h
      · split at room
        · cases room
          exact h
        · obtain ⟨v, alloc, eq⟩ := Option.map_eq_some_iff.mp room
          cases eq
          exact held_allocCrown h alloc
    rw [← Option.some.inj e]
    refine held_abandonDemotion (held_else (held_opt (held_opt ?_ (fun h => held_makeDirty h)) (fun h => held_same h))
      (fun h => held_leaveDirty h))
    have apart : aside (if (s.cellAt l).isSome = true then F.CR_HIT_STAT.HITS else F.CR_HIT_STAT.MISSES).reg = true := by
      split <;> rfl
    have masked {v : State} (h : NamesHeld m v) : NamesHeld m (State.storeMask (if be = fullBe then v.newBeats l else v) l be
        hit) :=
      held_storeMask (held_opt h (fun h => held_same h))
    exact held_ite (held_same (masked (held_putLine (held_useSpan (held_noteWritten (held_bump h apart))))))
      (held_opt (masked (held_putLine (held_useSpan (held_noteWritten (held_bump h apart))))) (fun h => held_same h))

theorem held_sendMirror (h : NamesHeld m s) {r : Req} {be : Word} {d : LineData} {poison : Bool} {tag : Nat} : NamesHeld m
    (s.sendMirror r be d poison tag) := by
  unfold State.sendMirror
  exact held_sendStream h

theorem held_startStore (h : NamesHeld m s) {r : Req} {be : Word} {d : LineData} {poison mirrorApply : Bool} :
    NamesHeld m (s.startStore r be d poison mirrorApply) := by
  unfold State.startStore
  refine held_ite (held_ite h (held_same h)) (held_ite (held_fail (held_raiseOff h)) ?_)
  dsimp only
  split
  · exact held_fail (held_raiseOff h)
  · exact held_fail (held_raiseOff h)
  · split
    · exact held_same h
    · next u stored =>
      have h := held_applyStore h stored
      refine held_putReq ?_
      generalize (if mirrorApply = true then Mirroring.none else _) = mode
      cases mode
      · exact held_opt (held_opt (held_ite (held_poisonLine h) (held_opt h (fun h => held_same h)))
          (fun h => held_startSpanWrite h)) (fun h => held_same h)
      · exact held_sendMirror (held_newTag (held_opt (held_opt (held_ite (held_poisonLine h) (held_opt h (fun h => held_same h)))
          (fun h => held_startSpanWrite h)) (fun h => held_same h)))
      · exact held_after (h := held_sendMirror (held_newTag (held_opt (held_opt (held_ite (held_poisonLine h)
          (held_opt h (fun h => held_same h))) (fun h => held_startSpanWrite h)) (fun h => held_same h))))

theorem held_forward (h : NamesHeld m s) {r : Req} {dev : Nat} : NamesHeld m (s.forward r dev) := by
  unfold State.forward
  refine held_ite (held_same h) ?_
  refine held_else (held_same h) (fun h1 => ?_)
  refine held_ite h1 ?_
  dsimp only
  split
  · exact h1
  · split
    · exact held_sendOn (held_same h)
    · exact held_sendOn (held_same h)
    · exact held_foldl (held_same h) (fun _ _ h => held_sendOn h)
    · exact held_sendOn (held_same h)

theorem held_sendCtrl (h : NamesHeld m s) {r : Req} {d : LineData} : NamesHeld m (s.sendCtrl r d).2 := by
  unfold State.sendCtrl
  exact held_send (held_same h)

theorem held_startCtrl (h : NamesHeld m s) {r : Req} {d : LineData} {standby : Bool} : NamesHeld m (s.startCtrl r d standby) := by
  unfold State.startCtrl
  exact held_ite (held_putReq (held_sendCtrl (held_ownPart h))) (held_ite (held_putReq (held_ownPart h)) (held_finish
      (held_ownPart h)))

theorem held_endCtrl (h : NamesHeld m s) {id : Nat} {peer : Bool} {code : Nat} : NamesHeld m (s.endCtrl id peer code) := by
  unfold State.endCtrl
  dsimp only
  split
  · split
    · exact held_ite (held_same h) (held_same h)
    · exact h
  · exact h

theorem held_dropPeerParts (h : NamesHeld m s) : NamesHeld m s.dropPeerParts := by
  unfold State.dropPeerParts
  refine held_foldl h (fun _ _ h => ?_)
  split
  · exact held_endCtrl h
  · exact h

theorem held_verifyLine (h : NamesHeld m s) {r : Req} {l : Nat} {twin : Bool} : NamesHeld m (s.verifyLine r l twin) := by
  unfold State.verifyLine
  exact held_ite (held_forward (held_same h)) (held_startVerify (held_same h))

theorem held_startVerifying (h : NamesHeld m s) {r : Req} {d : LineData} : NamesHeld m (s.startVerifying r d) := by
  unfold State.startVerifying
  exact held_foldl (held_same h) (fun _ _ h => held_opt (held_verifyLine h) (fun h2 => held_verifyLine h2))

theorem held_verifPart (h : NamesHeld m s) {id l : Nat} {twin : Bool} {p : Resp} : NamesHeld m (s.verifPart id l twin p) := by
  unfold State.verifPart
  dsimp only
  split
  · exact held_ite (held_same h) (held_ite (held_same h) (held_same h))
  · exact h

theorem held_serve (h : NamesHeld m s) {r : Req} {first : Bool} : NamesHeld m (s.serve r first) := by
  unfold State.serve
  split
  · split
    · exact held_fail h
    · exact held_fail h
    · exact held_fail h
    · exact held_same h
  · exact held_same h
  · split
    · exact held_ite (held_same h) (held_ite (held_fail (held_raiseOff h)) (held_ite (held_same h) (held_startStore h)))
    · exact held_ite (held_startVerifying h) (held_ite (held_same h) (held_startCtrl h))
    · exact held_same h
    · exact held_startRead h

theorem held_route (h : NamesHeld m s) {r : Req} {first : Bool} : NamesHeld m (s.route r first) := by
  unfold State.route
  exact held_ite (held_fail (held_raiseOff h)) (held_ite (held_fail (held_raiseOff h)) (held_ite (held_serve h) (held_forward h)))

theorem held_lookup (h : NamesHeld m s) {r : Req} {first : Bool} : NamesHeld m (s.lookup r first) := by
  unfold State.lookup
  exact held_ite (held_route (held_bump h)) (held_putReq (held_bump h))

theorem held_start (h : NamesHeld m s) {r : Req} : NamesHeld m (s.start r) := by
  unfold State.start
  refine held_ite (held_same h) ?_
  refine held_ite ?_ (held_ite (held_same h) (held_ite (held_forward h) (held_ite (held_same h) (held_lookup h))))
  split
  · exact held_ite (held_same h) (held_ite (held_same h) (held_startStore h))
  · exact held_startCtrl h
  · exact held_startRead h

theorem held_submit (h : NamesHeld m s) {src : Nat} {who : Who} {op : ReqOp} {offset tenant : Nat} : NamesHeld m (s.submit src
    who op offset tenant) := by
  unfold State.submit
  exact held_start (held_same h)

theorem held_copyRead (h : NamesHeld m s) {q ix dst lo n pos : Nat} {p : Resp} : NamesHeld m (s.copyRead q ix dst lo n pos p) :=
    by
  unfold State.copyRead
  dsimp only
  split
  · split
    · exact held_ite (held_putReq (held_ite (held_noteCode h) h)) (held_descPartDone (held_same h))
    · exact h
  · exact h

theorem held_descTakes (h : NamesHeld m s) {q ix : Nat} {r : Req} {p : Resp} : NamesHeld m (s.descTakes q ix r p) := by
  unfold State.descTakes
  split
  · split
    · exact held_same h
    · exact held_same h
    · exact h
  · exact h

theorem held_queueEnds (h : NamesHeld m s) {q ix : Nat} {r : Req} {p : Resp} : NamesHeld m (s.queueEnds q ix r p) := by
  unfold State.queueEnds
  split
  · refine held_ite (held_takeFetched h) ?_
    refine held_ite (held_entryStored h) ?_
    split
    · exact held_copyRead h
    · exact held_descPartDone (held_descTakes h)
  · exact h

theorem held_finishRun (h : NamesHeld m s) {e : Nat} {r : Run} : NamesHeld m (s.finishRun e r) := by
  unfold State.finishRun
  exact held_endDesc (held_opt (held_bump (held_same h)) (fun h1 => held_raiseAt h1))

theorem held_enginePart (h : NamesHeld m s) {e key : Nat} {p : Resp} : NamesHeld m (s.enginePart e key p) := by
  unfold State.enginePart
  refine held_ite (held_updRun h) ?_
  refine held_ite ?_ (held_ite (held_updRun h) h)
  split
  · exact held_ite (held_finishRun h) h
  · exact h

theorem held_fwdPart (h : NamesHeld m s) {dev tag line : Nat} {p : Resp} : NamesHeld m (s.fwdPart dev tag line p) := by
  unfold State.fwdPart
  dsimp only
  split
  · exact h
  · exact held_ite (held_same h) (held_ite (held_reply (held_same h)) (held_reply (held_same h)))

theorem held_ctrlEnds (h : NamesHeld m s) {dev port tag : Nat} {r : Req} {p : Resp} :
    NamesHeld m (s.ctrlEnds dev port tag r p) := by
  unfold State.ctrlEnds
  exact held_reply h

theorem held_complete (h : NamesHeld m s) {r : Req} {p : Resp} : NamesHeld m (s.complete r p) := by
  unfold State.complete
  dsimp only
  split
  · exact held_else (held_same h) (fun h1 => held_emit (held_ite h1 (held_countTx h1)))
  · exact held_queueEnds (held_same h)
  · split
    · exact held_reply (held_same h)
    · exact held_ctrlEnds (held_same h)
    · exact held_fwdPart (held_same h)
  · split
    · exact held_reply (held_same h)
    · exact held_ctrlEnds (held_same h)
    · exact held_fwdPart (held_same h)
  · exact held_enginePart (held_same h)
  · exact held_verifPart (held_same h)
  · exact held_same h
  · exact held_same h

theorem held_retrySlice (h : NamesHeld m s) {r : Req} {first : Bool} : NamesHeld m (s.retrySlice r first) := by
  unfold State.retrySlice
  split
  · exact held_ite h (held_ite h (held_startStore h))
  · exact held_startRead h

theorem held_advance (h : NamesHeld m s) {id : Nat} : NamesHeld m (s.advance id) := by
  unfold State.advance
  dsimp only
  split
  · exact h
  · split
    · exact held_ite h (held_start h)
    · refine held_ite h ?_
      split
      · exact held_startCtrl h
      · exact h
    · exact held_ite h (held_start h)
    · exact held_retrySlice h
    · exact held_retrySlice h
    · exact held_retrySlice h
    · exact held_ite (held_complete h) h
    · exact h
    · exact held_ite (held_install h) h
    · exact held_ite (held_complete h) h
    · exact h

theorem held_pass (h : NamesHeld m s) : NamesHeld m s.pass := by
  unfold State.pass
  exact held_foldl h (fun _ _ h => held_advance h)

theorem held_checkGpf (h : NamesHeld m s) : NamesHeld m s.checkGpf := by
  unfold State.checkGpf
  exact held_ite h (held_foldl (held_same h) (fun _ _ h => held_same h))

theorem held_checkFlush (h : NamesHeld m s) : NamesHeld m s.checkFlush := by
  unfold State.checkFlush
  exact held_foldl (held_same h) (fun _ _ h => held_endCtrl h)

theorem held_checkMoves (h : NamesHeld m s) : NamesHeld m s.checkMoves := by
  unfold State.checkMoves
  exact held_foldl (held_stepMoves h) (fun _ _ h => held_endCtrl h)

theorem held_checkCopyAcks (h : NamesHeld m s) : NamesHeld m s.checkCopyAcks := by
  unfold State.checkCopyAcks
  exact held_ite h (held_foldl (held_same h) (fun _ _ h => held_reply h))

theorem held_endRun (h : NamesHeld m s) {e : Nat} {r : Run} : NamesHeld m (s.endRun e r) := by
  unfold State.endRun
  dsimp only
  split
  · exact held_ite (held_submit (held_updRun (held_same h))) (held_finishRun (held_same h))
  · exact held_finishRun (held_same h)

theorem held_checkEngines (h : NamesHeld m s) : NamesHeld m s.checkEngines := by
  unfold State.checkEngines
  refine held_foldl h (fun _ _ h => ?_)
  split
  · exact held_ite (held_endRun h) h
  · exact h

theorem held_settle (h : NamesHeld m s) : NamesHeld m s.settle := by
  unfold State.settle
  exact held_checkGpf (held_checkCopyAcks (held_pass (held_checkEngines (held_pass (held_checkMoves (held_checkFlush (held_pass
      (held_pass (held_planDestage (held_checkBudget (held_repairLost h)))))))))))

theorem held_retryHeld (h : NamesHeld m s) : NamesHeld m s.retryHeld := by
  unfold State.retryHeld
  exact held_foldl h (fun _ _ h => held_start h)

theorem held_resend (h : NamesHeld m s) {sel : Req → Bool} : NamesHeld m (s.resend sel) := by
  unfold State.resend
  refine held_foldl (held_foldl h (fun _ _ h => held_same h)) (fun _ _ h => ?_)
  split
  · exact held_start h
  · exact h

theorem held_reissueStores (h : NamesHeld m s) : NamesHeld m s.reissueStores := by
  unfold State.reissueStores
  refine held_foldl (held_foldl h (fun _ _ h => held_same h)) (fun _ _ h => ?_)
  split
  · exact held_start h
  · exact h

theorem held_resendMoved (h : NamesHeld m s) : NamesHeld m s.resendMoved := by
  unfold State.resendMoved
  exact held_resend h

theorem held_lossFrames (h : NamesHeld m s) {l : List Nat} : NamesHeld m (s.lossFrames l) := by
  unfold State.lossFrames
  dsimp only
  split
  · exact h
  · exact held_foldl (held_newLossCause (held_health (held_raiseArg (held_setReg (held_foldl h (fun _ _ h => held_foldl h (fun _
        _ h => held_poisonLine h))))))) (fun _ _ h => held_spanLoss h)

theorem held_loseSpans (h : NamesHeld m s) {l : List Nat} : NamesHeld m (s.loseSpans l) := by
  unfold State.loseSpans
  exact held_ite h (held_health (held_raise (held_after (h := held_foldl (held_same h) (fun _ _ h => held_spanLoss
      (held_poisonSpan h))))))

theorem held_loseBack (h : NamesHeld m s) {l : List (Nat × Nat)} : NamesHeld m (s.loseBack l) := by
  unfold State.loseBack
  exact held_loseSpans (held_same h)

theorem held_dropRepairs (h : NamesHeld m s) : NamesHeld m s.dropRepairs := by
  unfold State.dropRepairs
  refine held_lossFrames ?_
  refine held_after (h := ?_)
  refine held_loseBack ?_
  refine held_foldl ?_ (fun _ _ h => held_poisonLine h)
  refine held_after (h := ?_)
  refine held_foldl h (fun _ _ h => ?_)
  split
  · split
    · exact held_poisonRead h
    · exact h
  · exact h

theorem held_releaseBolt (h : NamesHeld m s) {b : Nat} : NamesHeld m (s.releaseBolt b) := by
  unfold State.releaseBolt
  exact held_after (h := held_foldl (held_zeroRange (held_dropLines h)) (fun _ _ h => held_dropFSpan h))

theorem held_sendCopyFrame (h : NamesHeld m s) {f : Nat} {last empty : Bool} : NamesHeld m (s.sendCopyFrame f last empty) := by
  unfold State.sendCopyFrame
  exact held_sendStream (held_same h)

theorem held_poisonBad (h : NamesHeld m s) {f : Nat} : NamesHeld m (s.poisonBad f) := by
  unfold State.poisonBad
  refine held_foldl h (fun _ _ h => ?_)
  refine held_ite (held_poisonRead (held_newBeats (held_readBeats h))) ?_
  split
  · exact held_poisonRead h
  · exact h

theorem held_sendCopySpan (h : NamesHeld m s) {sp : Nat} {final : Bool} : NamesHeld m (s.sendCopySpan sp final) := by
  unfold State.sendCopySpan
  dsimp only
  split
  · exact held_sendCopyFrame h
  · exact held_foldl h (fun _ _ h => held_sendCopyFrame (held_ite (held_poisonBad h) h))

theorem held_startFill (h : NamesHeld m s) {b : Nat} : NamesHeld m (s.startFill b) := by
  unfold State.startFill
  dsimp only
  split
  · exact held_opt (held_same h) (fun h1 => held_sendCopySpan h1)
  · exact held_same h

theorem held_applyEntry (h : NamesHeld m s) {b : Nat} {e : BoltEntry} : NamesHeld m (s.applyEntry b e) := by
  unfold State.applyEntry
  exact held_retryHeld (held_reissueStores (held_resendMoved (held_ite (held_opt (held_same h) (fun h1 => held_releaseBolt h1))
      (held_ite (held_releaseBolt (held_same h)) (held_ite (held_ite (held_startFill (held_same h)) (held_same h)) (held_opt
      (held_same h) (fun h1 => held_same h1)))))))

theorem held_broadcast (h : NamesHeld m s) {b : Nat} {e : BoltEntry} : NamesHeld m (s.broadcast b e) := by
  unfold State.broadcast
  exact held_foldl h (fun _ _ h => held_send h)

theorem held_changeEntry (h : NamesHeld m s) {b : Nat} {e : BoltEntry} : NamesHeld m (s.changeEntry b e) := by
  unfold State.changeEntry
  exact held_broadcast (held_applyEntry h)

theorem held_leavePaired (h : NamesHeld m s) : NamesHeld m s.leavePaired := by
  unfold State.leavePaired
  exact held_ite h (held_else (held_foldl (held_after (h := held_setReg h)) (fun _ _ h => held_ite h (held_putReq
      (held_startSpanWrite h)))) (fun h1 => held_raise (held_same h1)))

theorem held_setSt (h : NamesHeld m s) {p : PairState} : NamesHeld m (s.setSt p) := by
  unfold State.setSt
  exact held_after (h := held_ite h (held_leavePaired h))

theorem held_enterTaking (h : NamesHeld m s) {trigger : Nat} : NamesHeld m (s.enterTaking trigger) := by
  unfold State.enterTaking
  exact held_after (h := held_setSt h)

theorem held_enterWait (h : NamesHeld m s) {trigger : Nat} : NamesHeld m (s.enterWait trigger) := by
  unfold State.enterWait
  exact held_opt (held_after (h := held_setSt h)) (fun h1 => held_enterTaking h1)

theorem held_enterIsolated (h : NamesHeld m s) {fromRejoin : Bool} : NamesHeld m (s.enterIsolated fromRejoin) := by
  unfold State.enterIsolated
  exact held_after (h := held_setSt h)

theorem held_backToSolo (h : NamesHeld m s) : NamesHeld m s.backToSolo := by
  unfold State.backToSolo
  exact held_dropPeerParts (held_dropRepairs (held_after (h := held_setSt h)))

theorem held_checkTriggers (h : NamesHeld m s) : NamesHeld m s.checkTriggers := by
  have back {u : State} (h : NamesHeld m u) {c1 c2 c3 c4 : Prop} [Decidable c1] [Decidable c2] [Decidable c3] [Decidable c4]
      {code : Nat} {b : Bool} : NamesHeld m (if c1 then u.enterWait code else if c2 then u.enterIsolated b
        else if c3 then u.setSt .silent else if c4 then u.setSt .suspect else u) :=
    held_ite (held_enterWait h) (held_ite (held_enterIsolated h) (held_ite (held_setSt h) (held_ite (held_setSt h) h)))
  unfold State.checkTriggers
  dsimp only
  split
  · exact back (held_opt h (fun h => held_raise h))
  · exact back (held_opt h (fun h => held_raise h))
  · exact back (held_opt h (fun h => held_raise h))
  · exact held_ite (held_enterWait h) h
  · exact held_ite (held_enterWait h) h
  · exact held_ite (held_backToSolo h) h
  · exact held_ite (held_raiseCls (held_enterIsolated h) (by split <;> rfl)) h
  · exact h

theorem held_learnStale (h : NamesHeld m s) {b : Nat} : NamesHeld m (s.learnStale b) := by
  unfold State.learnStale
  exact held_ite (held_same h) h

theorem held_audit (h : NamesHeld m s) {f : HbFrame} : NamesHeld m (s.audit f) := by
  unfold State.audit
  exact held_ite h (held_ite (held_send (held_learnStale h)) (held_ite (held_raise h) h))

theorem held_missOne (h : NamesHeld m s) {pathB : Bool} : NamesHeld m (s.missOne pathB) := by
  have bumped {u : State} (h : NamesHeld m u) {i n : Nat} :
      NamesHeld m (u.bump (if pathB then F.TW_MISS_STAT.MISSES_B else F.TW_MISS_STAT.MISSES_A) i n) :=
    held_bump h (by cases pathB <;> rfl)
  have lost {u : State} (h : NamesHeld m u) :
      NamesHeld m (u.raise (if pathB then F.TW_STATUS.PATH_B_LOST else F.TW_STATUS.PATH_A_LOST)) :=
    held_raise h (by cases pathB <;> rfl)
  unfold State.missOne
  exact held_opt (bumped (held_same h)) (fun h => held_settle (held_checkTriggers (lost h)))

theorem held_missDue (h : NamesHeld m s) {pathB : Bool} {fuel : Nat} : NamesHeld m (s.missDue pathB fuel) := by
  induction fuel generalizing s with
  | zero => exact h
  | succ k ih => exact held_ite (ih (held_missOne h)) h

end Sys2Proof.Proofs
end

section
/-! PROOFS. What the data of a pair does not touch of the pair: its state, its paths and its entries, while bolts are copied, filled,
released, repaired or lost. -/

namespace Sys2Proof.Proofs

set_option Elab.async false

open Sys2Proof Machine Laws Claims

/-- A twin relation but for its copies and fills on the way, and the slots of a rotation. -/
def settledTwin (t : TwinSt) : TwinSt :=
  { t with copyList := [], fills := [], copyOut := [], mirrorOut := [], copyAcks := [], slotWork := [], slotPending := false }

/-- The twin relation so read, the entries and those that do not count, the power state and device time. -/
def pairPart (s : State) : TwinSt × SMap BoltEntry × List Nat × PowerSt × TimeSt :=
  (settledTwin s.twin, s.bay.bolts, s.bay.crcBad, s.power, s.time)

/-- They are as in `s0`. -/
def PairHeld (s0 s : State) : Prop := pairPart s = pairPart s0

theorem pairHeld_refl (s : State) : PairHeld s s := rfl

theorem PairHeld.trans {s t u : State} (h : PairHeld s t) (k : PairHeld t u) : PairHeld s u := Eq.trans k h

theorem PairHeld.twin {s t : State} (h : PairHeld s t) : settledTwin t.twin = settledTwin s.twin := congrArg Prod.fst h

theorem PairHeld.bolts {s t : State} (h : PairHeld s t) : t.bay.bolts = s.bay.bolts := congrArg (fun x => x.2.1) h

theorem PairHeld.power {s t : State} (h : PairHeld s t) : t.power = s.power := congrArg (fun x => x.2.2.2.1) h

theorem PairHeld.time {s t : State} (h : PairHeld s t) : t.time = s.time := congrArg (fun x => x.2.2.2.2) h

theorem PairHeld.crcBad {s t : State} (h : PairHeld s t) : t.bay.crcBad = s.bay.crcBad := congrArg (fun x => x.2.2.1) h

theorem pairHeld_of_stays {s t : State} (h : Stays s t) : PairHeld s t := by
  have eq := StillSame.eq h
  have twin : settledTwin t.twin = settledTwin s.twin := congrArg (fun x => settledTwin x.twin) eq
  have bolts : t.bay.bolts = s.bay.bolts := congrArg Still.bolts eq
  have bad : t.bay.crcBad = s.bay.crcBad := congrArg Still.crcBad eq
  have power : t.power = s.power := congrArg Still.power eq
  have time : t.time = s.time := congrArg Still.time eq
  unfold PairHeld pairPart
  rw [twin, bolts, bad, power, time]

variable {s0 s : State}

theorem pair_stays {t : State} (h : PairHeld s0 s) (k : Stays s t) : PairHeld s0 t := h.trans (pairHeld_of_stays k)

theorem pair_same {t : State} (h : PairHeld s0 s) (same : pairPart t = pairPart s := by rfl) : PairHeld s0 t := same.trans h

theorem pair_after {t : State} (same : pairPart t = pairPart s := by rfl) (h : PairHeld s0 s) : PairHeld s0 t := pair_same h same

theorem pair_ite {c : Prop} [Decidable c] {t u : State} (yes : PairHeld s0 t) (no : PairHeld s0 u) :
    PairHeld s0 (if c then t else u) := by
  split
  · exact yes
  · exact no

theorem pair_opt {c : Prop} [Decidable c] {t : State} (h : PairHeld s0 s) (step : PairHeld s0 s → PairHeld s0 t) :
    PairHeld s0 (if c then t else s) := pair_ite (step h) h

theorem pair_else {c : Prop} [Decidable c] {t : State} (h : PairHeld s0 s) (step : PairHeld s0 s → PairHeld s0 t) :
    PairHeld s0 (if c then s else t) := pair_ite h (step h)

theorem pair_foldl {β : Type} {f : State → β → State} {l : List β} (h : PairHeld s0 s)
    (keeps : ∀ u x, PairHeld s0 u → PairHeld s0 (f u x)) : PairHeld s0 (l.foldl f s) :=
  foldl_keeps (P := PairHeld s0) f keeps l s h

theorem pair_spanLoss (h : PairHeld s0 s) {span cause cls : Nat} : PairHeld s0 (s.spanLoss span cause cls) := by
  unfold State.spanLoss
  refine pair_ite (pair_same h) ?_
  dsimp only
  split
  · split
    · exact pair_ite (pair_same h) (pair_same h)
    · exact pair_same h
  · exact pair_same h

theorem pair_newLossCause (h : PairHeld s0 s) : PairHeld s0 s.newLossCause := by
  unfold State.newLossCause
  exact pair_same h

theorem pair_poisonSpan (h : PairHeld s0 s) {sp : Nat} : PairHeld s0 (s.poisonSpan sp) := by
  unfold State.poisonSpan
  exact pair_stays (pair_same h) (stays_raiseArg (stays_setReg (stays_health (stays_bump (stays_refl _) ..) ..) ..) ..)

theorem pair_dropPeerParts (h : PairHeld s0 s) : PairHeld s0 s.dropPeerParts := by
  unfold State.dropPeerParts
  refine pair_foldl h (fun _ _ h => ?_)
  split
  · exact pair_stays h (stays_endCtrl (stays_refl _) ..)
  · exact h

theorem pair_reissueStores (h : PairHeld s0 s) : PairHeld s0 s.reissueStores := by
  unfold State.reissueStores
  refine pair_foldl (pair_foldl h (fun _ _ h => pair_stays h (stays_putReq (stays_refl _) ..))) (fun _ _ h => ?_)
  split
  · exact pair_stays h (stays_start (stays_refl _) ..)
  · exact h

theorem pair_resendMoved (h : PairHeld s0 s) : PairHeld s0 s.resendMoved := by
  unfold State.resendMoved
  exact pair_stays h (stays_resend (stays_refl _) ..)

theorem pair_lossFrames (h : PairHeld s0 s) {l : List Nat} : PairHeld s0 (s.lossFrames l) := by
  unfold State.lossFrames
  dsimp only
  split
  · exact h
  · exact pair_foldl (pair_newLossCause (pair_stays (pair_foldl h (fun _ _ h => pair_foldl h (fun _ _ h => pair_stays h
        (stays_poisonLine (stays_refl _) ..)))) (stays_health (stays_raiseArg (stays_setReg (stays_refl _) ..) ..) ..))) (fun _ _
        h => pair_spanLoss h)

theorem pair_loseSpans (h : PairHeld s0 s) {l : List Nat} : PairHeld s0 (s.loseSpans l) := by
  unfold State.loseSpans
  exact pair_ite h (pair_stays (pair_after (h := pair_foldl (pair_same h) (fun _ _ h => pair_spanLoss (pair_poisonSpan h))))
      (stays_health (stays_raise (stays_refl _) ..) ..))

theorem pair_loseBack (h : PairHeld s0 s) {l : List (Nat × Nat)} : PairHeld s0 (s.loseBack l) := by
  unfold State.loseBack
  exact pair_loseSpans (pair_same h)

theorem pair_dropRepairs (h : PairHeld s0 s) : PairHeld s0 s.dropRepairs := by
  unfold State.dropRepairs
  refine pair_lossFrames ?_
  refine pair_after (h := ?_)
  refine pair_loseBack ?_
  refine pair_foldl ?_ (fun _ _ h => pair_stays h (stays_poisonLine (stays_refl _) ..))
  refine pair_after (h := ?_)
  refine pair_foldl h (fun _ _ h => ?_)
  split
  · split
    · exact pair_stays h (stays_poisonRead (stays_refl _) ..)
    · exact h
  · exact h

theorem pair_releaseBolt (h : PairHeld s0 s) {b : Nat} : PairHeld s0 (s.releaseBolt b) := by
  unfold State.releaseBolt
  exact pair_after (h := pair_foldl (pair_stays h (stays_zeroRange (stays_dropLines (stays_refl _) ..) ..)) (fun _ _ h =>
      pair_stays h (stays_dropFSpan (stays_refl _) ..)))

theorem pair_sendCopyFrame (h : PairHeld s0 s) {f : Nat} {last empty : Bool} : PairHeld s0 (s.sendCopyFrame f last empty) := by
  unfold State.sendCopyFrame
  exact pair_stays (pair_same h) (stays_sendStream (stays_refl _) ..)

theorem pair_poisonBad (h : PairHeld s0 s) {f : Nat} : PairHeld s0 (s.poisonBad f) := by
  unfold State.poisonBad
  refine pair_foldl h (fun _ _ h => ?_)
  refine pair_ite (pair_stays h (stays_poisonRead (stays_newBeats (stays_readBeats (stays_refl _) ..) ..) ..)) ?_
  split
  · exact pair_stays h (stays_poisonRead (stays_refl _) ..)
  · exact h

theorem pair_sendCopySpan (h : PairHeld s0 s) {sp : Nat} {final : Bool} : PairHeld s0 (s.sendCopySpan sp final) := by
  unfold State.sendCopySpan
  dsimp only
  split
  · exact pair_sendCopyFrame h
  · exact pair_foldl h (fun _ _ h => pair_sendCopyFrame (pair_ite (pair_poisonBad h) h))

theorem pair_startFill (h : PairHeld s0 s) {b : Nat} : PairHeld s0 (s.startFill b) := by
  unfold State.startFill
  dsimp only
  split
  · exact pair_opt (pair_same h) (fun h1 => pair_sendCopySpan h1)
  · exact pair_same h

theorem pair_broadcast (h : PairHeld s0 s) {b : Nat} {e : BoltEntry} : PairHeld s0 (s.broadcast b e) := by
  unfold State.broadcast
  exact pair_foldl h (fun _ _ h => pair_stays h (stays_send (stays_refl _) ..))

theorem pair_leavePaired (h : PairHeld s0 s) : PairHeld s0 s.leavePaired := by
  unfold State.leavePaired
  exact pair_ite h (pair_else (pair_foldl (pair_same h) (fun _ _ h => pair_ite h (pair_stays h (stays_putReq
      (stays_startSpanWrite (stays_refl _) ..) ..)))) (fun h1 => pair_stays (pair_same h1) (stays_raise (stays_refl _) ..)))

theorem pair_sendMap (h : PairHeld s0 s) {k : MapKind} {status : Nat} {l : List Nat} : PairHeld s0 (s.sendMap k status l) := by
  unfold State.sendMap
  exact pair_stays h (stays_send (stays_refl _) ..)

theorem pair_learnStale (h : PairHeld s0 s) {b : Nat} : PairHeld s0 (s.learnStale b) := by
  unfold State.learnStale
  exact pair_ite (pair_same h) h

theorem pair_audit (h : PairHeld s0 s) {f : HbFrame} : PairHeld s0 (s.audit f) := by
  unfold State.audit
  exact pair_ite h (pair_ite (pair_stays (pair_learnStale h) (stays_send (stays_refl _) ..)) (pair_ite (pair_stays h (stays_raise
      (stays_refl _) ..)) h))

end Sys2Proof.Proofs
end

section
/-! PROOFS. The takeover record (03 R105, R106, R116): each of its bolts takes the claim and this side, and SOLO opens. -/

namespace Sys2Proof.Proofs

open Sys2Proof Machine Laws Claims

section
variable {m : SMap Word} {s t : State}

/-! What holds of a state whose claim, name or pair are held. -/

/-- A register at one of the places reads as in the table held. -/
theorem NamesHeld.reg (h : NamesHeld s.regs t) {r : Reg} (named : r.addr 0 ∈ nameAddrs) : t.reg r 0 = s.reg r 0 := by
  exact congrArg (· ^^^ r.reset) (h.2 _ named)

theorem NamesHeld.claimLocal (h : NamesHeld s.regs t) : t.reg .TW_CLAIM_LOCAL 0 = s.reg .TW_CLAIM_LOCAL 0 :=
  h.reg (.head _)

theorem NamesHeld.devId (h : NamesHeld s.regs t) : t.devId = s.devId :=
  congrArg (bitsOf · _ _) (h.reg (r := .BL_DEVICE_ID) (.tail _ (.head _)))

theorem NamesHeld.side (h : NamesHeld s.regs t) : t.side = s.side := by
  rw [State.side, h.devId, State.side]

theorem PairHeld.entry (h : PairHeld s t) (b : Nat) : t.entry b = s.entry b := by
  rw [State.entry, h.bolts, State.entry]

theorem PairHeld.st (h : PairHeld s t) : t.twin.st = s.twin.st := (congrArg TwinSt.st h.twin :)

theorem PairHeld.taking (h : PairHeld s t) : t.twin.taking = s.twin.taking := (congrArg TwinSt.taking h.twin :)

theorem PairHeld.claims (h : PairHeld s t) : t.twin.claims = s.twin.claims := (congrArg TwinSt.claims h.twin :)

end

section
variable {s : State}

/-! An entry changed here. -/

/-- The entries and the gate's record that an entry applied writes. -/
def entryPut (s : State) (b : Nat) (e : BoltEntry) : State :=
  State.raiseGate { s with bay := { s.bay with
    bolts := SMap.put s.bay.bolts b e, crcBad := removeNum b s.bay.crcBad, fetches := SMap.del s.bay.fetches b,
    staleBolts := removeNum b s.bay.staleBolts } } b e.claim

/-- Applying it leaves the rest of the pair. -/
theorem applyEntry_pairHeld (s : State) (b : Nat) (e : BoltEntry) : PairHeld (entryPut s b e) (s.applyEntry b e) := by
  have h := pairHeld_refl (entryPut s b e)
  exact pair_stays (pair_reissueStores (pair_resendMoved (pair_ite (pair_ite (pair_releaseBolt h) h)
    (pair_ite (pair_releaseBolt h) (pair_ite (pair_ite (pair_startFill h) (pair_same h)) (pair_ite (pair_same h) h))))))
    (stays_retryHeld (stays_refl _))

theorem changeEntry_pairHeld (s : State) (b : Nat) (e : BoltEntry) :
    PairHeld (entryPut s b (sealEntry e)) (s.changeEntry b e) := pair_broadcast (applyEntry_pairHeld ..)

/-- The entries after an entry is changed. -/
theorem changeEntry_entry (s : State) (b : Nat) (e : BoltEntry) (c : Nat) :
    (s.changeEntry b e).entry c = if b = c then sealEntry e else s.entry c := by
  rw [(changeEntry_pairHeld s b e).entry]
  unfold entryPut State.raiseGate State.entry SMap.findD
  dsimp only
  rw [find_put]
  split <;> rfl

/-! The takeover. -/

/-- The entry of a bolt taken: the claim, this side, SEQ one higher (03 R116). -/
def takenEntry (s : State) (claim : Nat) (e : BoltEntry) : BoltEntry :=
  sealEntry { e with claim := claim, activeSide := s.side, seq := e.seq + 1 }

/-- The bolts of a list taken from `u` on. -/
structure BoltsTaken (u : State) (claim : Nat) (l : List Nat) (v : State) : Prop where
  names : NamesHeld u.regs v
  st : v.twin.st = u.twin.st
  taking : v.twin.taking = u.twin.taking
  claims : v.twin.claims = u.twin.claims
  taken : ∀ b ∈ l, v.entry b = takenEntry u claim (u.entry b)
  others : ∀ b, b ∉ l → v.entry b = u.entry b

/-- One bolt more. -/
theorem boltsTaken_cons {u v : State} {claim b : Nat} {l : List Nat} (new : b ∉ l) (h : BoltsTaken u claim l v) :
    BoltsTaken u claim (b :: l) (v.changeEntry b { v.entry b with
      claim := claim, activeSide := v.side, seq := (v.entry b).seq + 1 }) := by
  obtain ⟨names, st, taking, claims, taken, others⟩ := h
  have held := changeEntry_pairHeld v b { v.entry b with claim := claim, activeSide := v.side, seq := (v.entry b).seq + 1 }
  refine ⟨held_changeEntry names, held.st.trans st, held.taking.trans taking, held.claims.trans claims, fun c hc => ?_,
    fun c hc => ?_⟩
  · rw [changeEntry_entry]
    split
    · next same => rw [← same, others b new, names.side, takenEntry]
    · next other => exact taken c ((List.mem_cons.mp hc).resolve_left (Ne.symm other))
  · rw [changeEntry_entry, if_neg (List.ne_of_not_mem_cons hc).symm, others c (List.not_mem_of_not_mem_cons hc)]

/-- All of them, in order. -/
theorem boltsTaken_foldl {u v : State} {claim : Nat} {l done : List Nat} (nodup : l.Nodup) (new : ∀ b ∈ l, b ∉ done)
    (h : BoltsTaken u claim done v) : BoltsTaken u claim (l.reverse ++ done) (l.foldl (fun s b =>
      s.changeEntry b { s.entry b with claim := claim, activeSide := s.side, seq := (s.entry b).seq + 1 }) v) := by
  induction l generalizing v done with
  | nil => exact h
  | cons b l ih =>
    obtain ⟨once, rest⟩ := List.nodup_cons.mp nodup
    rw [List.reverse_cons, List.append_assoc]
    refine ih rest (fun c hc twice => ?_) (boltsTaken_cons (new b (.head _)) h)
    rcases List.mem_cons.mp twice with rfl | before
    · exact once hc
    · exact new c (.tail _ hc) before

/-- SOLO as a takeover enters it: what the pair was doing is given up (03 R116). -/
def soloOpened (s : State) (k : Taking) : State :=
  let s := if s.twin.st == .solo then s else (s.raise F.TW_STATUS.TAKEOVER).health 5 1
  let s := (s.bbRecord 2 (.takeover s.pairId k.trigger k.claim)).setSt .solo
  { s with twin := { s.twin with
    taking := none, fromRejoin := false, rejoinRole := 0, mirrorOut := [], copyOut := [], mapsIn := [],
    peerSpans := [], peerHeld := [] } }

theorem soloOpened_boltsTaken (wf : RegsOrdered s) (k : Taking) : NamesHeld s.regs (soloOpened s k)
    ∧ (soloOpened s k).twin.st = .solo ∧ (soloOpened s k).twin.taking = none
    ∧ (soloOpened s k).twin.claims = s.twin.claims ∧ ∀ b, (soloOpened s k).entry b = s.entry b := by
  have h := namesHeld_refl wf
  have p := pairHeld_refl s
  have names : NamesHeld s.regs (soloOpened s k) :=
    held_after (h := held_setSt (held_bbRecord (held_else h (fun h => held_health (held_raise h)))))
  have pair : PairHeld s (State.leavePaired (State.bbRecord
      (if s.twin.st == .solo then s else (s.raise F.TW_STATUS.TAKEOVER).health 5 1) 2
      (.takeover (State.pairId (if s.twin.st == .solo then s else (s.raise F.TW_STATUS.TAKEOVER).health 5 1)) k.trigger k.claim))) :=
    pair_leavePaired (pair_stays (pair_else p (fun p => pair_stays p (stays_health (stays_raise (stays_refl _)))))
      (stays_bbRecord (stays_refl _)))
  exact ⟨names, rfl, rfl, pair.claims, pair.entry⟩

/-- What follows the takeover leaves its bolts taken. -/
theorem boltsTaken_held {u v t : State} {claim : Nat} {l : List Nat} (h : BoltsTaken u claim l v) (names : NamesHeld u.regs t)
    (pair : PairHeld v t) : BoltsTaken u claim l t :=
  ⟨names, pair.st.trans h.st, pair.taking.trans h.taking, pair.claims.trans h.claims,
    fun b hb => (pair.entry b).trans (h.taken b hb), fun b hb => (pair.entry b).trans (h.others b hb)⟩

/-- A takeover takes the bolts of its record. -/
theorem takeOver_boltsTaken (wf : RegsOrdered s) {k : Taking} (plain : k.poisonList = false) (nodup : k.bolts.Nodup) :
    BoltsTaken (soloOpened s k) k.claim (k.bolts.reverse ++ []) (s.takeOver k) := by
  obtain ⟨names, -⟩ := soloOpened_boltsTaken wf k
  have start : BoltsTaken (soloOpened s k) k.claim [] (soloOpened s k) :=
    ⟨namesHeld_refl names.1, rfl, rfl, rfl, fun _ hb => absurd hb List.not_mem_nil, fun _ _ => rfl⟩
  have taken := boltsTaken_foldl nodup (fun _ _ => List.not_mem_nil) start
  unfold State.takeOver
  rw [plain]
  refine boltsTaken_held taken ?_ ?_
  · exact held_settle (held_retryHeld (held_dropPeerParts (held_dropRepairs (held_resend (held_same taken.names)))))
  · exact pair_stays (pair_dropPeerParts (pair_dropRepairs (pair_stays (pair_same (pairHeld_refl _))
      (stays_resend (stays_refl _))))) (stays_settle (stays_retryHeld (stays_refl _)))

/-- The state as the record is written: it stands in the ring, and TW_CLAIM_LOCAL takes its claim (03 R106). -/
def recordTaken (s : State) (k : Taking) : State :=
  let l := s.twin.claims ++ [{ pair := s.pairId, claim := k.claim, side := s.side, rotation := k.rotation }]
  let s := { s with twin := { s.twin with claims := l.drop (l.length - Config.claimRecords) } }
  s.setReg .TW_CLAIM_LOCAL 0 (word (max k.claim (s.reg .TW_CLAIM_LOCAL 0).toNat))

/-- A claim written to TW_CLAIM_LOCAL. -/
theorem claimWritten_reads (wf : RegsOrdered s) {claim : Nat} (fits : claim < 2 ^ 64) :
    let w := s.setReg .TW_CLAIM_LOCAL 0 (word claim)
    RegsOrdered w ∧ w.side = s.side ∧ (w.reg .TW_CLAIM_LOCAL 0).toNat = claim := by
  have name : (s.setReg .TW_CLAIM_LOCAL 0 (word claim)).reg .BL_DEVICE_ID 0 = s.reg .BL_DEVICE_ID 0 :=
    reg_setReg_ne wf _ (by decide)
  exact ⟨wf_setReg wf _ _ _, congrArg (fun v => bitsOf v _ _ % 2) name,
    (congrArg BitVec.toNat (reg_setReg wf ..)).trans (Nat.mod_eq_of_lt fits)⟩

/-- The last record stays in the ring. -/
theorem last_mem_drop (l : List ClaimRec) (x : ClaimRec) {n : Nat} (le : n ≤ l.length) : x ∈ (l ++ [x]).drop n := by
  rw [List.drop_append_of_le_length le]
  exact List.mem_append_right _ (List.mem_singleton_self _)

/-- What the record raises, and what it leaves. -/
theorem recordTaken_reads (wf : RegsOrdered s) (k : Taking) (fits : k.claim < 2 ^ 64) : let w := recordTaken s k
    RegsOrdered w ∧ w.side = s.side ∧ (∀ b, w.entry b = s.entry b)
    ∧ (w.reg .TW_CLAIM_LOCAL 0).toNat = max k.claim (s.reg .TW_CLAIM_LOCAL 0).toNat
    ∧ ({ pair := s.pairId, claim := k.claim, side := s.side, rotation := k.rotation } : ClaimRec) ∈ w.twin.claims := by
  unfold recordTaken
  dsimp only
  generalize ring : List.drop _ _ = l
  have last : { pair := s.pairId, claim := k.claim, side := s.side, rotation := k.rotation } ∈ l := by
    rw [← ring]
    refine last_mem_drop _ _ ?_
    rw [List.length_append, List.length_singleton]
    exact Nat.sub_le_of_le_add (Nat.add_le_add_left (Nat.le_of_ble_eq_true rfl) _)
  obtain ⟨wfw, side, claim⟩ := claimWritten_reads (s := { s with twin := { s.twin with claims := l } }) wf
    (max_lt fits (s.reg .TW_CLAIM_LOCAL 0).isLt)
  exact ⟨wfw, side, fun _ => rfl, claim, last⟩

theorem onTakeoverRecord_takeover {k : Taking} (taking : s.twin.taking = some k) (takes : k.rotation = false) :
    s.onTakeoverRecord = (recordTaken s k).takeOver k := by
  unfold State.onTakeoverRecord recordTaken
  rw [taking]
  dsimp only
  rw [if_neg (by rw [takes]; decide)]

theorem exec_takeoverRecord {k : Taking} (at_ : Nat) (taking : s.twin.taking = some k) (takes : k.rotation = false)
    (still : s.image.change = none) :
    exec (.takeoverRecordWritten at_) s = .next ((recordTaken (s.tick at_) k).takeOver k) := by
  have abandon : (s.tick at_).abandonChange = s.tick at_ := by
    unfold State.abandonChange
    rw [show (s.tick at_).image.change = none from still]
  have taker : s.twin.taking.any (fun t => !t.rotation) = true := by
    rw [taking]
    exact congrArg (! ·) takes
  refine congrArg Host.Outcome.next ?_
  rw [← onTakeoverRecord_takeover (s := s.tick at_) taking takes]
  exact congrArg State.onTakeoverRecord ((if_pos taker).trans abandon)

end

/-- Settles O32: the record raises the claim, the takeover takes its bolts one by one, and what follows leaves them. -/
theorem takeoverRecordOpensSolo : Obligations.TakeoverRecordOpensSolo := by
  intro s at_ k wf taking takes still plain nodup fits
  obtain ⟨wfw, side, entry, claim, ring⟩ := recordTaken_reads (s := s.tick at_) wf k fits
  have written := exec_takeoverRecord at_ taking takes still
  generalize recordTaken (s.tick at_) k = w at wfw side entry claim ring written
  obtain ⟨namesW, stW, idleW, ringW, sameW⟩ := soloOpened_boltsTaken wfw k
  obtain ⟨names, st, idle, claims, taken, others⟩ := takeOver_boltsTaken wfw plain nodup
  have member (b : Nat) : b ∈ k.bolts.reverse ++ [] ↔ b ∈ k.bolts := by simp
  refine ⟨w.takeOver k, written, st.trans stW, idle.trans idleW, ?_, ?_, fun b hb => ?_, fun b hb => ?_⟩
  · rw [claims, ringW, ← takes]
    exact ring
  · rw [names.claimLocal, namesW.claimLocal]
    exact claim
  · rw [taken b ((member b).mpr hb), takenEntry, namesW.side, side, sameW, entry]
    rfl
  · rw [others b (fun h => hb ((member b).mp h)), sameW, entry]
    rfl

end Sys2Proof.Proofs
end

section
/-! PROOFS. A frame received (03 R99 to R101): dropped, or taken by the path that it came by and then by the pair. -/

namespace Sys2Proof.Proofs

open Sys2Proof Machine Laws Claims

/-- The path that a frame comes by. -/
def pathOf (t : TwinSt) (pathB : Bool) : Path := if pathB then t.pathB else t.pathA

/-- The CRC of a frame on its path (03 R98, R99). -/
def frameCrc (f : HbFrame) (pathB : Bool) : BitVec 32 := if pathB then plumbCrc f else hbCrc f

/-- A window of WAIT that ends as the frame arrives starts TAKING first (03 Table 3.6). -/
def waitEnded (s : State) : State := if s.twin.st == .wait && decide (s.tFree ≤ s.now) then s.enterTaking 2 else s

/-- A valid frame noted: its path, the sequence number to echo, the twin's latest frame and its lease (03 R99 to R101, R111). -/
def frameNoted (s : State) (f : HbFrame) (pathB : Bool) (p : Path) : State :=
  { s with twin := { s.twin with
    pathA := if pathB then s.twin.pathA else pathHit p f pathB s.now,
    pathB := if pathB then pathHit p f pathB s.now else s.twin.pathB,
    echoSeq := if s.twin.echoFrozen then s.twin.echoSeq else if p.ref.isNone then f.seq
      else if serialLater f.seq s.twin.echoSeq then f.seq else s.twin.echoSeq,
    peer := some f,
    freeUntil := s.twin.freeUntil.filter (fun x => s.now < x.1 + 1000000000)
      ++ [(s.now, f.sendDt + leaseNs f.periodUs + 1000000)] } }

/-- The lease and the audit of a frame noted (03 R95, R108). -/
def frameAudited (s : State) (f : HbFrame) (pathB : Bool) : State :=
  ((frameNoted (waitEnded s) f pathB (pathOf s.twin pathB)).renewLease f.echo).audit f

section
variable {s m : State} {f : HbFrame} {pathB : Bool}

/-- A frame in its three ways, on the state after the miss deadlines. -/
theorem onFrame_eq (missed : s.missDue pathB 8 = m) : s.onFrame f pathB =
    if f.crc = frameCrc f pathB then
      if m.frameValid f (pathOf m.twin pathB) = true then
        (if f.ty = 2 then (frameAudited m f pathB).yieldState f else (frameAudited m f pathB).heartbeatState f).retryHeld.settle
      else m
    else m.raise F.TW_STATUS.FRAME_CRC := by
  subst missed
  have good : (if pathB then f.crc == plumbCrc f else f.crc == hbCrc f) = decide (f.crc = frameCrc f pathB) := by
    cases pathB <;> rfl
  unfold State.onFrame
  rw [good]
  by_cases same : f.crc = frameCrc f pathB
  · rw [if_pos same]
    refine (if_neg (by simp [same])).trans ?_
    by_cases valid : (s.missDue pathB 8).frameValid f (pathOf (s.missDue pathB 8).twin pathB) = true
    · exact (if_neg (by rw [Bool.not_eq_true', Bool.not_eq_false]; exact valid)).trans (if_pos valid).symm
    · exact (if_pos (by rw [Bool.not_eq_true', ← Bool.not_eq_true]; exact valid)).trans (if_neg valid).symm
  · exact (if_pos (by simp [same])).trans (if_neg same).symm

/-- The lease of a frame writes the lease alone. -/
theorem renewLease_eq (s : State) (echo : BitVec 32) : let t := (s.renewLease echo).twin
    s.renewLease echo = { s with twin := { s.twin with leaseFrom := t.leaseFrom, leaseEnd := t.leaseEnd, lapsed := t.lapsed } } := by
  unfold State.renewLease
  split
  · split <;> rfl
  · rfl

/-- A frame noted while the device does not wait changes the paths, what to echo and the lease. -/
theorem frameAudited_reads (wf : RegsOrdered m) (busy : m.twin.st ≠ .wait) (f : HbFrame) (pathB : Bool) :
    let v := frameAudited m f pathB
    NamesHeld m.regs v ∧ v.bay.bolts = m.bay.bolts ∧ v.bay.crcBad = m.bay.crcBad ∧ v.power = m.power
    ∧ v.twin.st = m.twin.st ∧ v.twin.fenced = m.twin.fenced ∧ v.twin.pairedAt = m.twin.pairedAt ∧ v.twin.peer = some f := by
  have ended : waitEnded m = m := if_neg (by simp [busy])
  have names : NamesHeld m.regs (frameAudited m f pathB) := by
    refine held_audit ?_
    rw [renewLease_eq, ended]
    exact held_same (namesHeld_refl wf)
  have pair : PairHeld ((frameNoted m f pathB (pathOf m.twin pathB)).renewLease f.echo) (frameAudited m f pathB) := by
    unfold frameAudited
    rw [ended]
    exact pair_audit (pairHeld_refl _)
  rw [renewLease_eq] at pair
  exact ⟨names, pair.bolts, pair.crcBad, pair.power, pair.st, (congrArg TwinSt.fenced pair.twin :),
    (congrArg TwinSt.pairedAt pair.twin :), (congrArg TwinSt.peer pair.twin :)⟩

end

end Sys2Proof.Proofs
end

section
/-! PROOFS. A YIELD of the twin (03 R105, R110, R114; Table 3.4): TAKING with a new claim, or REJOINING. -/

namespace Sys2Proof.Proofs

open Sys2Proof Machine Laws Claims

section
variable {s u : State}

/-! Claims of a pair. -/

/-- CLAIM_HIGH is read from the bolts, the device's name and its claim. -/
theorem claimHigh_congr (name : u.devId = s.devId) (bolts : u.bay.bolts = s.bay.bolts)
    (claim : u.reg .TW_CLAIM_LOCAL 0 = s.reg .TW_CLAIM_LOCAL 0) : u.claimHigh = s.claimHigh := by
  rw [State.claimHigh, State.pairId, name, bolts, claim]
  rfl

/-- The bolts of a pair are read from the entries and the device's name. -/
theorem mirroredBolts_congr (name : u.devId = s.devId) (bolts : u.bay.bolts = s.bay.bolts) (bad : u.bay.crcBad = s.bay.crcBad) :
    u.mirroredBolts = s.mirroredBolts := by
  have bound (b : Nat) : u.bound b = s.bound b := by
    rw [State.bound, State.entry, bolts, bad]
    rfl
  unfold State.mirroredBolts
  rw [State.pairId, name, bolts]
  exact congrArg (fun p => (List.filter p s.bay.bolts).map Prod.fst) (funext fun x => by rw [bound]; rfl)

/-- A maximum taken along a list is no lower than where it starts, nor than any value on its way. -/
theorem le_foldl_max {α : Type} (g : α → Nat) (l : List α) (n : Nat) :
    n ≤ l.foldl (fun m x => max m (g x)) n ∧ ∀ x ∈ l, g x ≤ l.foldl (fun m x => max m (g x)) n := by
  induction l generalizing n with
  | nil => exact ⟨le_refl _, fun x hx => absurd hx List.not_mem_nil⟩
  | cons y l ih =>
    obtain ⟨base, each⟩ := ih (max n (g y))
    refine ⟨(le_max_left _ _).trans base, fun x hx => ?_⟩
    rcases List.mem_cons.mp hx with rfl | later
    · exact (le_max_right _ _).trans base
    · exact each x later

/-- No claim of the pair is above CLAIM_HIGH. -/
theorem claim_le_claimHigh {x : Nat × BoltEntry} (listed : x ∈ s.bay.bolts) (own : x.2.pairId = s.pairId) :
    x.2.claim ≤ s.claimHigh :=
  (le_foldl_max (fun x : Nat × BoltEntry => x.2.claim) _ _).2 x (List.mem_filter.mpr ⟨listed, beq_iff_eq.mpr own⟩)

/-- A new claim is above both CLAIM_HIGHs. -/
theorem lt_newClaim {f : HbFrame} (peer : s.twin.peer = some f) : s.claimHigh < s.newClaim ∧ f.claimHigh < s.newClaim := by
  unfold State.newClaim
  rw [peer]
  exact ⟨Nat.lt_succ_of_le (le_max_left _ _), Nat.lt_succ_of_le (le_max_right _ _)⟩

/-! TAKING and REJOINING entered. -/

/-- TAKING as it is entered from a state that is not fenced by a rejoin. -/
theorem enterTaking_reads (wf : RegsOrdered s) (trigger : Nat) : (s.enterTaking trigger).twin.st = .taking
    ∧ (s.enterTaking trigger).twin.echoFrozen = true
    ∧ ∃ k, (s.enterTaking trigger).twin.taking = some k ∧ k.rotation = false ∧ k.trigger = trigger
    ∧ k.claim = s.newClaim ∧ k.bolts = s.mirroredBolts.filter (fun b => entryActive (s.entry b) == s.twinId) := by
  have names : NamesHeld s.regs (s.setSt .taking) := held_setSt (namesHeld_refl wf)
  have pair : PairHeld s s.leavePaired := pair_leavePaired (pairHeld_refl s)
  refine ⟨rfl, rfl, _, rfl, rfl, rfl, ?_, ?_⟩
  · exact newClaim_congr names.devId pair.bolts names.claimLocal (congrArg TwinSt.peer pair.twin :)
  · have twin : (s.setSt .taking).twinId = s.twinId := by rw [State.twinId, names.devId, State.twinId]
    have entry (b : Nat) : (s.setSt .taking).entry b = s.entry b := pair.entry b
    have mirrored := mirroredBolts_congr (u := s.setSt .taking) names.devId pair.bolts pair.crcBad
    show (s.setSt .taking).mirroredBolts.filter (fun b => entryActive ((s.setSt .taking).entry b) == (s.setSt .taking).twinId) = _
    rw [mirrored, twin]
    exact congrArg (fun p => List.filter p s.mirroredBolts) (funext fun b => by rw [entry])

/-- The returner of a rejoin, before it sends its maps (03 R124). -/
def returnerSet (s : State) : State :=
  let s := s.setSt .rejoining
  { s with twin := { s.twin with
    rejoinRole := 2, fromRejoin := false, copyList := [], copyBuilt := false, copyCur := none,
    full := s.wantsFull, fullNext := false } }

theorem enterRejoining_pairHeld (s : State) : PairHeld (returnerSet s) s.enterRejoining :=
  pair_sendMap (pair_sendMap (pair_sendMap (pair_foldl
    (pair_opt (pairHeld_refl _) (fun h => pair_stays h (stays_raise (stays_refl _))))
    (fun _ _ h => pair_stays h (stays_send (stays_refl _))))))

/-- A device that learns that its claims are stale enters REJOINING as the returner (03 R109). -/
theorem staleRejoin_reads (s : State) : s.staleRejoin.twin.st = .rejoining ∧ s.staleRejoin.twin.rejoinRole = 2 := by
  have pair := enterRejoining_pairHeld ((if s.twin.st == .solo then s.diverged else s).raise F.TW_STATUS.STALE_SELF)
  exact ⟨pair.st, (congrArg TwinSt.rejoinRole pair.twin :)⟩

/-- What the rules of a settled state leave of the twin. -/
theorem settled_pairHeld (s : State) : PairHeld s s.retryHeld.settle :=
  pairHeld_of_stays (stays_settle (stays_retryHeld (stays_refl s)))

/-- A YIELD of the twin in PAIRED or SUSPECT: TAKING, or REJOINING where it shows SOLO (03 Table 3.4). -/
theorem yieldState_eq {f : HbFrame} (free : s.twin.fenced = false) (pair : s.twin.st = .paired ∨ s.twin.st = .suspect) :
    s.yieldState f = if hbSolo f && decide (s.twin.pairedAt < f.sendDt) then (s.raise F.TW_STATUS.YIELD_RX).staleRejoin
      else (s.raise F.TW_STATUS.YIELD_RX).enterTaking 1 := by
  have twin : (s.raise F.TW_STATUS.YIELD_RX).twin = s.twin := raise_twin ..
  have alone : (s.twin.fenced || s.twin.st == .yielded) = false := by
    rw [free]
    rcases pair with eq | eq <;> rw [eq] <;> rfl
  unfold State.yieldState
  dsimp only
  rw [alone, if_neg Bool.false_ne_true, twin, free, if_neg Bool.false_ne_true]
  rcases pair with eq | eq <;> rw [eq]

/-- A YIELD that starts a takeover, to its end: the record on its way is of the state that the flag leaves. -/
theorem yielded_taking {f : HbFrame} (wf : RegsOrdered s) (free : s.twin.fenced = false)
    (pair : s.twin.st = .paired ∨ s.twin.st = .suspect) (plain : (hbSolo f && decide (s.twin.pairedAt < f.sendDt)) = false)
    {t y : State} (ends : (s.yieldState f).retryHeld.settle = t) (raised : s.raise F.TW_STATUS.YIELD_RX = y) :
    t.twin.st = .taking ∧ t.twin.echoFrozen = true ∧ ∃ k, t.twin.taking = some k ∧ k.rotation = false ∧ k.trigger = 1
    ∧ k.claim = y.newClaim ∧ k.bolts = y.mirroredBolts.filter (fun b => entryActive (y.entry b) == y.twinId) := by
  rw [yieldState_eq free pair, plain, if_neg Bool.false_ne_true, raised] at ends
  have wfy : RegsOrdered y := raised ▸ (held_raise (namesHeld_refl wf)).1
  obtain ⟨taking, frozen, k, record, rest⟩ := enterTaking_reads wfy 1
  have after := settled_pairHeld (y.enterTaking 1)
  rw [ends] at after
  exact ⟨after.st.trans taking, (congrArg TwinSt.echoFrozen after.twin :).trans frozen, k, after.taking.trans record, rest⟩

/-- A YIELD that shows SOLO, to its end. -/
theorem yielded_rejoining {f : HbFrame} (free : s.twin.fenced = false) (pair : s.twin.st = .paired ∨ s.twin.st = .suspect)
    (solo : (hbSolo f && decide (s.twin.pairedAt < f.sendDt)) = true) {t : State}
    (ends : (s.yieldState f).retryHeld.settle = t) : t.twin.st = .rejoining ∧ t.twin.rejoinRole = 2 := by
  rw [yieldState_eq free pair, solo, if_pos rfl] at ends
  obtain ⟨rejoining, role⟩ := staleRejoin_reads (s.raise F.TW_STATUS.YIELD_RX)
  have after := settled_pairHeld (s.raise F.TW_STATUS.YIELD_RX).staleRejoin
  rw [ends] at after
  exact ⟨after.st.trans rejoining, (congrArg TwinSt.rejoinRole after.twin :).trans role⟩

end

/-- Settles O30: the frame noted leaves the claims and the entries, and the pair's state then takes over or rejoins. -/
theorem yieldOfTheTwinStartsTakeover : Obligations.YieldOfTheTwinStartsTakeover := by
  intro s pathB f at_ wf m crc valid ty free pair
  have wfm : RegsOrdered m := (held_missDue (namesHeld_refl (s := s.tick at_) wf)).1
  have busy : m.twin.st ≠ .wait := by
    rcases pair with eq | eq <;> rw [eq] <;> decide
  obtain ⟨names, bolts, bad, -, st, fenced, pairedAt, peer⟩ := frameAudited_reads wfm busy f pathB
  have taken : exec (.yield pathB f at_) s = .next ((frameAudited m f pathB).yieldState f).retryHeld.settle := by
    refine congrArg Host.Outcome.next ((onFrame_eq (m := m) rfl).trans ((if_pos crc).trans ((if_pos valid).trans ?_)))
    rw [if_pos ty]
  generalize frameAudited m f pathB = v at names bolts bad st fenced pairedAt peer taken
  generalize ends : (v.yieldState f).retryHeld.settle = t at taken
  have free : v.twin.fenced = false := fenced.trans free
  have pair : v.twin.st = .paired ∨ v.twin.st = .suspect := by rwa [st]
  rw [← pairedAt]
  refine ⟨fun plain => ?_, fun solo since => ?_⟩
  · have plain : (hbSolo f && decide (v.twin.pairedAt < f.sendDt)) = false := by
      rcases plain with no | before
      · rw [no]
        rfl
      · rw [decide_eq_false (Nat.not_lt.mpr before), Bool.and_false]
    have raised : PairHeld v (v.raise F.TW_STATUS.YIELD_RX) := pair_stays (pairHeld_refl v) (stays_raise (stays_refl v))
    have named : NamesHeld m.regs (v.raise F.TW_STATUS.YIELD_RX) := held_raise names
    obtain ⟨taking, frozen, k, record, rotation, trigger, claim, list⟩ := yielded_taking names.1 free pair plain ends rfl
    have bolts := raised.bolts.trans bolts
    have high := claimHigh_congr named.devId bolts named.claimLocal
    obtain ⟨own, twins⟩ := lt_newClaim ((congrArg TwinSt.peer raised.twin :).trans peer)
    rw [← claim, high] at own
    rw [← claim] at twins
    refine ⟨t, k, taken, taking, frozen, record, rotation, trigger, own, twins, fun x listed mine => ?_, ?_⟩
    · exact (claim_le_claimHigh listed mine).trans_lt own
    · have twin : (v.raise F.TW_STATUS.YIELD_RX).twinId = m.twinId := by rw [State.twinId, named.devId, State.twinId]
      rw [list, mirroredBolts_congr named.devId bolts (raised.crcBad.trans bad), twin]
      exact congrArg (fun p => List.filter p m.mirroredBolts) (funext fun b => by rw [State.entry, bolts, State.entry])
  · have solo : (hbSolo f && decide (v.twin.pairedAt < f.sendDt)) = true := by
      rw [solo, decide_eq_true since]
      rfl
    exact ⟨t, taken, yielded_rejoining free pair solo ends⟩

end Sys2Proof.Proofs
end

section
/-! PROOFS. The paths of the twin relation (03 R99 to R101, R429): what a frame does to the pair's state leaves the paths, but that
SYNC entered again before service opens forgets their references. -/

namespace Sys2Proof.Proofs

set_option Elab.async false

open Sys2Proof Machine Laws Claims

/-- A path but for its reference. -/
def withoutRef (p : Path) : Path := { p with ref := none }

/-- The power state, device time and the two paths. -/
def pathPart (s : State) : PowerSt × TimeSt × Path × Path := (s.power, s.time, s.twin.pathA, s.twin.pathB)

/-- The power state, device time and the paths stand, and so do the references once service has opened. -/
structure PathsHeld (s0 s : State) : Prop where
  power : s.power = s0.power
  time : s.time = s0.time
  pathA : withoutRef s.twin.pathA = withoutRef s0.twin.pathA
  pathB : withoutRef s.twin.pathB = withoutRef s0.twin.pathB
  refs : s0.beforeService = false → s.twin.pathA = s0.twin.pathA ∧ s.twin.pathB = s0.twin.pathB

theorem beforeService_congr {s t : State} (power : t.power = s.power) : t.beforeService = s.beforeService := by
  rw [State.beforeService, power, State.beforeService]

theorem pathsHeld_of_part {s t : State} (same : pathPart t = pathPart s) : PathsHeld s t := by
  have power : t.power = s.power := congrArg Prod.fst same
  have time : t.time = s.time := congrArg (fun x => x.2.1) same
  have pathA : t.twin.pathA = s.twin.pathA := congrArg (fun x => x.2.2.1) same
  have pathB : t.twin.pathB = s.twin.pathB := congrArg (fun x => x.2.2.2) same
  exact ⟨power, time, congrArg withoutRef pathA, congrArg withoutRef pathB, fun _ => ⟨pathA, pathB⟩⟩

theorem pathsHeld_refl (s : State) : PathsHeld s s := pathsHeld_of_part rfl

theorem PathsHeld.trans {s t u : State} (h : PathsHeld s t) (k : PathsHeld t u) : PathsHeld s u := by
  refine ⟨k.power.trans h.power, k.time.trans h.time, k.pathA.trans h.pathA, k.pathB.trans h.pathB, fun opened => ?_⟩
  obtain ⟨a, b⟩ := h.refs opened
  obtain ⟨a', b'⟩ := k.refs ((beforeService_congr h.power).trans opened)
  exact ⟨a'.trans a, b'.trans b⟩

variable {s0 s : State}

theorem path_same {t : State} (h : PathsHeld s0 s) (same : pathPart t = pathPart s := by rfl) : PathsHeld s0 t :=
  h.trans (pathsHeld_of_part same)

theorem path_after {t : State} (same : pathPart t = pathPart s := by rfl) (h : PathsHeld s0 s) : PathsHeld s0 t := path_same h same

theorem path_pair {t : State} (h : PathsHeld s0 s) (k : PairHeld s t) : PathsHeld s0 t := by
  refine path_same h ?_
  have pathA : t.twin.pathA = s.twin.pathA := (congrArg TwinSt.pathA k.twin :)
  have pathB : t.twin.pathB = s.twin.pathB := (congrArg TwinSt.pathB k.twin :)
  rw [pathPart, k.power, k.time, pathA, pathB, pathPart]

theorem path_stays {t : State} (h : PathsHeld s0 s) (k : Stays s t) : PathsHeld s0 t := path_pair h (pairHeld_of_stays k)

theorem path_ite {c : Prop} [Decidable c] {t u : State} (yes : PathsHeld s0 t) (no : PathsHeld s0 u) :
    PathsHeld s0 (if c then t else u) := by
  split
  · exact yes
  · exact no

theorem path_opt {c : Prop} [Decidable c] {t : State} (h : PathsHeld s0 s) (step : PathsHeld s0 s → PathsHeld s0 t) :
    PathsHeld s0 (if c then t else s) := path_ite (step h) h

theorem path_foldl {β : Type} {f : State → β → State} {l : List β} (h : PathsHeld s0 s)
    (keeps : ∀ u x, PathsHeld s0 u → PathsHeld s0 (f u x)) : PathsHeld s0 (l.foldl f s) :=
  foldl_keeps (P := PathsHeld s0) f keeps l s h

/-- Before service opens, the references may be forgotten. -/
theorem path_returnToSync (h : PathsHeld s0 s) (before : s.beforeService = true) : PathsHeld s0 s.returnToSync := by
  have p : PathsHeld s0 (s.setSt .sync) := path_same (path_pair h (pair_leavePaired (pairHeld_refl s)))
  refine ⟨p.power, p.time, p.pathA, p.pathB, fun opened => ?_⟩
  rw [beforeService_congr h.power, opened] at before
  cases before

theorem path_setSt (h : PathsHeld s0 s) {p : PairState} : PathsHeld s0 (s.setSt p) := by
  unfold State.setSt
  exact path_after (h := path_ite h (path_pair h (pair_leavePaired (pairHeld_refl _))))

theorem path_enterPaired (h : PathsHeld s0 s) {rejoined : Bool} : PathsHeld s0 (s.enterPaired rejoined) := by
  unfold State.enterPaired
  refine path_stays (path_foldl ?_ (fun _ _ h => path_ite (path_pair h (pair_startFill (pairHeld_refl _))) h))
    (stays_retryHeld (stays_refl _))
  exact path_opt (path_after (h := path_setSt h)) (fun h => path_stays h (stays_health (stays_raise (stays_refl _))))

theorem path_enterRejoining (h : PathsHeld s0 s) : PathsHeld s0 s.enterRejoining := by
  unfold State.enterRejoining
  refine path_pair (path_foldl ?_ (fun _ _ h => path_stays h (stays_send (stays_refl _))))
    (pair_sendMap (pair_sendMap (pair_sendMap (pairHeld_refl _))))
  exact path_opt (path_after (h := path_setSt h)) (fun h => path_stays h (stays_raise (stays_refl _)))

theorem path_diverged (h : PathsHeld s0 s) : PathsHeld s0 s.diverged := by
  unfold State.diverged
  refine path_ite h (path_foldl ?_ (fun _ _ h => path_pair h (pair_spanLoss (pairHeld_refl _))))
  exact path_pair (path_stays (path_same h) (stays_raise (stays_refl _))) (pair_newLossCause (pairHeld_refl _))

theorem path_staleRejoin (h : PathsHeld s0 s) : PathsHeld s0 s.staleRejoin := by
  unfold State.staleRejoin
  exact path_enterRejoining (path_stays (path_ite (path_diverged h) h) (stays_raise (stays_refl _)))

theorem path_checkFed (h : PathsHeld s0 s) : PathsHeld s0 s.checkFed := by
  unfold State.checkFed
  exact path_ite (path_enterPaired h) h

theorem path_buildCopyList (h : PathsHeld s0 s) : PathsHeld s0 s.buildCopyList := by
  unfold State.buildCopyList
  refine path_ite h ?_
  dsimp only
  split
  · exact path_checkFed (path_pair (path_same h) (pair_sendMap (pairHeld_refl _)))
  · exact path_pair (path_same h) (pair_sendCopySpan (pair_sendMap (pairHeld_refl _)))

theorem path_enterFeeding (h : PathsHeld s0 s) : PathsHeld s0 s.enterFeeding := by
  unfold State.enterFeeding
  exact path_buildCopyList (path_opt (path_after (h := path_setSt h)) (fun h1 => path_stays h1 (stays_raise (stays_refl _))))

theorem path_enterTaking (h : PathsHeld s0 s) {trigger : Nat} : PathsHeld s0 (s.enterTaking trigger) := by
  unfold State.enterTaking
  exact path_after (h := path_setSt h)

theorem path_enterWait (h : PathsHeld s0 s) {trigger : Nat} : PathsHeld s0 (s.enterWait trigger) := by
  unfold State.enterWait
  exact path_opt (path_after (h := path_setSt h)) (fun h1 => path_enterTaking h1)

theorem path_enterIsolated (h : PathsHeld s0 s) {fromRejoin : Bool} : PathsHeld s0 (s.enterIsolated fromRejoin) := by
  unfold State.enterIsolated
  exact path_after (h := path_setSt h)

theorem path_backToSolo (h : PathsHeld s0 s) : PathsHeld s0 s.backToSolo := by
  unfold State.backToSolo
  exact path_pair (path_after (h := path_setSt h)) (pair_dropPeerParts (pair_dropRepairs (pairHeld_refl _)))

theorem path_checkTriggers (h : PathsHeld s0 s) : PathsHeld s0 s.checkTriggers := by
  have back {u : State} (h : PathsHeld s0 u) {c1 c2 c3 c4 : Prop} [Decidable c1] [Decidable c2] [Decidable c3] [Decidable c4]
      {code : Nat} {b : Bool} : PathsHeld s0 (if c1 then u.enterWait code else if c2 then u.enterIsolated b
        else if c3 then u.setSt .silent else if c4 then u.setSt .suspect else u) :=
    path_ite (path_enterWait h) (path_ite (path_enterIsolated h) (path_ite (path_setSt h) (path_ite (path_setSt h) h)))
  unfold State.checkTriggers
  dsimp only
  split
  · exact back (path_opt h (fun h => path_stays h (stays_raise (stays_refl _))))
  · exact back (path_opt h (fun h => path_stays h (stays_raise (stays_refl _))))
  · exact back (path_opt h (fun h => path_stays h (stays_raise (stays_refl _))))
  · exact path_ite (path_enterWait h) h
  · exact path_ite (path_enterWait h) h
  · exact path_ite (path_backToSolo h) h
  · exact path_ite (path_stays (path_enterIsolated h) (stays_raiseCls (stays_refl _))) h
  · exact h

theorem path_sendEntries (h :
    PathsHeld s0 s) {dev : Nat} {sel : Nat → BoltEntry → Bool} : PathsHeld s0 (s.sendEntries dev sel) := by
  unfold State.sendEntries
  exact path_foldl h (fun _ _ h => path_stays h (stays_send (stays_refl _)))

theorem path_syncOutcome (h : PathsHeld s0 s) {f : HbFrame} : PathsHeld s0 (s.syncOutcome f) := by
  unfold State.syncOutcome
  exact path_ite h (path_ite (path_enterRejoining (path_sendEntries h)) (path_ite (path_enterFeeding (path_sendEntries h))
      (path_opt (path_sendEntries h) (fun h1 => path_enterPaired h1))))

theorem path_soloFrame (h : PathsHeld s0 s) {f : HbFrame} : PathsHeld s0 (s.soloFrame f) := by
  unfold State.soloFrame
  exact path_ite h (path_ite (path_staleRejoin h) (path_ite (path_ite (path_same h) h) (path_enterFeeding h)))

/-- SYNC entered again before service opens, and its outcome; else what follows. -/
theorem path_syncAgain (h : PathsHeld s0 s) {f : HbFrame} {t : State} (no : PathsHeld s0 t) :
    PathsHeld s0 (if s.beforeService = true then s.returnToSync.syncOutcome f else t) := by
  split
  · next before => exact path_syncOutcome (path_returnToSync h before)
  · exact no

theorem path_framesBack (h : PathsHeld s0 s) {f : HbFrame} : PathsHeld s0 (s.framesBack f) := by
  unfold State.framesBack
  exact path_syncAgain h (path_ite (path_enterPaired h) (path_setSt h))

theorem path_heartbeatState (h : PathsHeld s0 s) {f : HbFrame} : PathsHeld s0 (s.heartbeatState f) := by
  unfold State.heartbeatState
  dsimp only
  split
  · exact path_syncOutcome h
  · exact path_ite (path_staleRejoin h) (path_ite h (path_setSt h))
  · exact path_ite (path_staleRejoin h) (path_ite (path_enterPaired h) h)
  · exact path_ite (path_staleRejoin h) (path_ite h (path_framesBack h))
  · exact path_ite (path_staleRejoin h) (path_framesBack h)
  · exact path_syncAgain h (path_enterRejoining h)
  · exact path_soloFrame h
  · exact h

theorem path_yieldState (h : PathsHeld s0 s) {f : HbFrame} : PathsHeld s0 (s.yieldState f) := by
  have raised : PathsHeld s0 (if (s.twin.fenced || s.twin.st == .yielded) = true then s.raiseCls F.TW_STATUS.YIELD_RX 0 3 .none
      else s.raise F.TW_STATUS.YIELD_RX) :=
    path_ite (path_stays h (stays_raiseCls (stays_refl _))) (path_stays h (stays_raise (stays_refl _)))
  unfold State.yieldState
  dsimp only
  generalize (if (s.twin.fenced || s.twin.st == .yielded) = true then s.raiseCls F.TW_STATUS.YIELD_RX 0 3 .none
    else s.raise F.TW_STATUS.YIELD_RX) = u at raised ⊢
  refine path_ite raised ?_
  split
  · exact path_ite (path_staleRejoin raised) (path_enterTaking raised)
  · exact path_ite (path_staleRejoin raised) (path_enterTaking raised)
  · exact path_ite (path_staleRejoin raised) (path_enterTaking raised)
  · exact path_ite (path_staleRejoin raised) (path_enterTaking raised)
  · exact path_enterTaking (path_enterWait raised)
  · exact path_ite raised (path_enterTaking raised)
  · exact path_backToSolo raised
  · exact path_stays (path_enterIsolated raised) (stays_raiseCls (stays_refl _))
  · exact raised

end Sys2Proof.Proofs
end

section
/-! PROOFS. What a frame leaves (03 R99): a flag, nothing, or its path as it hit. -/

namespace Sys2Proof.Proofs

open Sys2Proof Machine Laws Claims

section
variable {s m u : State} {f : HbFrame} {pathB : Bool}

/-- Miss deadlines that have passed do not move device time. -/
theorem missOne_time (s : State) (pathB : Bool) : (s.missOne pathB).time = s.time :=
  (path_opt (pathsHeld_refl _) (fun h => path_stays (path_checkTriggers (path_stays h (stays_raise (stays_refl _))))
    (stays_settle (stays_refl _))) : PathsHeld _ (s.missOne pathB)).time

theorem time_ite {c : Prop} [Decidable c] {t : State} (yes : t.time = s.time) : (if c then t else s).time = s.time := by
  split
  · exact yes
  · rfl

theorem missDue_time (s : State) (pathB : Bool) (fuel : Nat) : (s.missDue pathB fuel).time = s.time := by
  induction fuel generalizing s with
  | zero => rfl
  | succ k ih => exact time_ite ((ih _).trans (missOne_time s pathB))

/-- The conditions of a valid frame but for its CRC (03 R99). -/
theorem frameValid_iff {p : Path} : m.frameValid f p = true ↔ f.sender = m.twinId ∧ (f.ty = 1 ∨ f.ty = 2) ∧ 10 ≤ f.periodUs
    ∧ f.periodUs ≤ 10000 ∧ ∀ r, p.ref = some r → serialLater f.seq r = true := by
  unfold State.frameValid
  cases p.ref <;> simp [and_assoc]

/-- A frame taken leaves its path as it hit, and the other path as it was, but for references before service opens. -/
theorem frameTaken_paths (f : HbFrame) (pathB : Bool) : PathsHeld (frameNoted (waitEnded m) f pathB (pathOf m.twin pathB))
    (if f.ty = 2 then (frameAudited m f pathB).yieldState f else (frameAudited m f pathB).heartbeatState f).retryHeld.settle := by
  have leased : PathsHeld (frameNoted (waitEnded m) f pathB (pathOf m.twin pathB))
      ((frameNoted (waitEnded m) f pathB (pathOf m.twin pathB)).renewLease f.echo) := by
    rw [renewLease_eq]
    exact path_same (pathsHeld_refl _)
  have audited : PathsHeld (frameNoted (waitEnded m) f pathB (pathOf m.twin pathB)) (frameAudited m f pathB) :=
    path_pair leased (pair_audit (pairHeld_refl _))
  exact path_pair (path_ite (path_yieldState audited) (path_heartbeatState audited)) (settled_pairHeld _)

theorem waitEnded_paths (m : State) : PathsHeld m (waitEnded m) := path_opt (pathsHeld_refl m) (fun h => path_enterTaking h)

/-- The path that a frame came by has been hit, and the other path is as before the frame. -/
theorem paths_after_frame {p : Path} {t : State} (paths : PathsHeld (frameNoted (waitEnded m) f pathB p) t) :
    (pathOf t.twin pathB).last = some m.now ∧ (pathOf t.twin pathB).miss = 0 ∧ (pathOf t.twin pathB).lost = false
    ∧ (m.beforeService = false → (pathOf t.twin pathB).ref = some f.seq
      ∧ if pathB then t.twin.pathA = m.twin.pathA else t.twin.pathB = m.twin.pathB) := by
  have ended := waitEnded_paths m
  have now : (waitEnded m).now = m.now := congrArg TimeSt.dt ended.time
  have open_ (h : m.beforeService = false) : (frameNoted (waitEnded m) f pathB p).beforeService = false :=
    (beforeService_congr (s := m) ended.power).trans h
  cases pathB
  · have hit : withoutRef t.twin.pathA = withoutRef (pathHit p f false (waitEnded m).now) := paths.pathA
    refine ⟨(congrArg Path.last hit).trans (congrArg some now), congrArg Path.miss hit, congrArg Path.lost hit, fun h => ?_⟩
    obtain ⟨hit, other⟩ := paths.refs (open_ h)
    exact ⟨congrArg Path.ref hit, other.trans (ended.refs h).2⟩
  · have hit : withoutRef t.twin.pathB = withoutRef (pathHit p f true (waitEnded m).now) := paths.pathB
    refine ⟨(congrArg Path.last hit).trans (congrArg some now), congrArg Path.miss hit, congrArg Path.lost hit, fun h => ?_⟩
    obtain ⟨other, hit⟩ := paths.refs (open_ h)
    exact ⟨congrArg Path.ref hit, other.trans (ended.refs h).1⟩

end

/-- Each command that brings a frame is the frame's receipt, on the state that counts it. -/
theorem exec_frame {s u : State} {c : Instr} {pathB : Bool} {h : Hdr} {f : HbFrame} {at_ : Nat} (wf : RegsOrdered s)
    (receipt : c = .plumbFrameRx f at_ ∧ pathB = true ∧ u = s.tick at_
      ∨ c = .yield pathB f at_ ∧ u = s.tick at_
      ∨ c = .heartbeat h f at_ ∧ pathB = false ∧ u = (s.tick at_).countRx h.port 80 ∧ s.linkServes h = true ∧ h.dst = s.devId) :
    exec c s = .next (u.onFrame f pathB) ∧ RegsOrdered u ∧ u.now = max s.now at_ := by
  rcases receipt with ⟨rfl, rfl, rfl⟩ | ⟨rfl, rfl⟩ | ⟨rfl, rfl, rfl, serves, here⟩
  · exact ⟨rfl, wf, rfl⟩
  · exact ⟨rfl, wf, rfl⟩
  · exact ⟨heard wf serves here at_ (.heartbeat f) (fun s => s.onFrame f false), (countRx_regs (s := s.tick at_) wf ..).1,
      congrArg TimeSt.dt (countRx_time ..)⟩

/-- Settles O29: the frame's three ways, each on the state after the miss deadlines. -/
theorem framesAreTakenWhenValid : Obligations.FramesAreTakenWhenValid := by
  intro s u c pathB h f at_ wf receipt path m good rest
  obtain ⟨taken, wfu, now⟩ := exec_frame wf receipt
  have wfm : RegsOrdered m := (held_missDue (namesHeld_refl wfu)).1
  have time : m.now = max s.now at_ := (congrArg TimeSt.dt (missDue_time u pathB 8)).trans now
  rw [onFrame_eq (m := m) rfl] at taken
  refine ⟨fun bad => ?_, fun crc invalid => ?_, fun crc valid => ?_⟩
  · rw [if_neg (show ¬f.crc = frameCrc f pathB from bad)] at taken
    exact ⟨_, taken, flagSet_raiseArg wfm F.TW_STATUS.FRAME_CRC 0 .none (by decide) rfl (by decide) (by decide)⟩
  · have drop : ¬m.frameValid f (pathOf m.twin pathB) = true := fun valid => invalid (frameValid_iff.mp valid)
    rwa [if_pos (show f.crc = frameCrc f pathB from crc), if_neg drop] at taken
  · rw [if_pos (show f.crc = frameCrc f pathB from crc), if_pos ((frameValid_iff (p := pathOf m.twin pathB)).mpr valid)] at taken
    have after := paths_after_frame (frameTaken_paths (m := m) f pathB)
    rw [time] at after
    exact ⟨_, taken, after⟩

end Sys2Proof.Proofs
end

section
/-! PROOFS. What moves of spans between tiers and changes of the flash map leave alone (04 R130, R134, R135; 07 R212): a lemma for
each operation, its proof the operation's own shape. -/

namespace Sys2Proof.Proofs

set_option Elab.async false

open Sys2Proof Machine Laws Claims

/-- The bytes of the range, the lines, the bay, the pair, the power sequence, the VOLATILE frames and the quotas. -/
def keptPart (s : State) : List Host.Cell × LineSt × BaySt × TwinSt × PowerSt × List Nat × SMap Quota :=
  (s.mem, s.lines, s.bay, s.twin, s.power, s.tier.volFrames, s.tier.quotas)

/-- What the flash map's changes leave of `s0`: the parts that no move touches, the written frames of every span, and the changes in
hand but for those that ended and new ones. -/
structure MapHeld (s0 s : State) : Prop where
  kept : keptPart s = keptPart s0
  written : ∀ sp, (s.span sp).map SpanRec.written = (s0.span sp).map SpanRec.written
  newest : s0.flash.nextChange ≤ s.flash.nextChange
  changes : ∀ c ∈ s.flash.changes, c ∈ s0.flash.changes ∨ s0.flash.nextChange ≤ c.id

/-- A span record, whether or not the span is on its way. -/
def atRest (r : SpanRec) : SpanRec := { r with move := none }

/-- What the choice and the start of moves leave of `s0` besides: each span's record but for its way, and the count of moves. -/
structure MovesHeld (s0 s : State) : Prop where
  map : MapHeld s0 s
  spans : ∀ sp, (s.span sp).map atRest = (s0.span sp).map atRest
  count : RegsOrdered s0 → RegsOrdered s ∧ s.reg .ST_MIG_COUNT 0 = s0.reg .ST_MIG_COUNT 0

theorem MapHeld.trans {s t u : State} (h : MapHeld s t) (k : MapHeld t u) : MapHeld s u where
  kept := k.kept.trans h.kept
  written sp := (k.written sp).trans (h.written sp)
  newest := h.newest.trans k.newest
  changes c hc := (k.changes c hc).elim (h.changes c) (fun new => .inr (h.newest.trans new))

theorem MovesHeld.trans {s t u : State} (h : MovesHeld s t) (k : MovesHeld t u) : MovesHeld s u where
  map := h.map.trans k.map
  spans sp := (k.spans sp).trans (h.spans sp)
  count wf := by
    obtain ⟨wft, first⟩ := h.count wf
    obtain ⟨wfu, second⟩ := k.count wft
    exact ⟨wfu, second.trans first⟩

theorem MapHeld.mem {s t : State} (h : MapHeld s t) : t.mem = s.mem := congrArg Prod.fst h.kept

theorem MapHeld.lines {s t : State} (h : MapHeld s t) : t.lines = s.lines := congrArg (fun x => x.2.1) h.kept

theorem MapHeld.bay {s t : State} (h : MapHeld s t) : t.bay = s.bay := congrArg (fun x => x.2.2.1) h.kept

theorem MapHeld.twin {s t : State} (h : MapHeld s t) : t.twin = s.twin := congrArg (fun x => x.2.2.2.1) h.kept

theorem MapHeld.power {s t : State} (h : MapHeld s t) : t.power = s.power := congrArg (fun x => x.2.2.2.2.1) h.kept

theorem MapHeld.volFrames {s t : State} (h : MapHeld s t) : t.tier.volFrames = s.tier.volFrames :=
  congrArg (fun x => x.2.2.2.2.2.1) h.kept

theorem MapHeld.quotas {s t : State} (h : MapHeld s t) : t.tier.quotas = s.tier.quotas :=
  congrArg (fun x => x.2.2.2.2.2.2) h.kept

/-- A frame is written where it is a VOLATILE one or its span's record lists it (04 R131). -/
theorem written_eq (s : State) (f : Nat) : s.written f = (s.tier.volFrames.contains f
    || (((s.span (spanOfFrame f)).map SpanRec.written).getD []).contains (f % 256)) := by
  unfold State.written
  cases s.span (spanOfFrame f) <;> rfl

/-- Changes of the map leave every frame as written as it was (04 R131). -/
theorem MapHeld.frames {s t : State} (h : MapHeld s t) (f : Nat) : t.written f = s.written f := by
  rw [written_eq, written_eq, h.volFrames, h.written]

/-- The records of spans but for their ways give their written frames. -/
theorem written_of_atRest {s t : State} (h : ∀ sp, (t.span sp).map atRest = (s.span sp).map atRest) (sp : Nat) :
    (t.span sp).map SpanRec.written = (s.span sp).map SpanRec.written := by
  have same := congrArg (Option.map SpanRec.written) (h sp)
  rwa [Option.map_map, Option.map_map] at same

/-- A span keeps all of its record but its way. -/
theorem MovesHeld.span {s t : State} (h : MovesHeld s t) {sp : Nat} {r : SpanRec} (found : s.span sp = some r) :
    ∃ r', t.span sp = some r' ∧ r'.home = r.home ∧ r'.written = r.written ∧ r'.heat = r.heat := by
  have same := h.spans sp
  rw [found] at same
  obtain ⟨r', after, rest⟩ := Option.map_eq_some_iff.mp same
  exact ⟨r', after, congrArg (·.home) rest, congrArg (·.written) rest, congrArg (·.heat) rest⟩

/-! What an operation may touch. -/

/-- What the relation reads of a state. -/
def movesPart (s : State) := (keptPart s, s.tier.spans, s.flash.nextChange, s.flash.changes, s.regs)

theorem movesHeld_of_part {s t : State} (same : movesPart t = movesPart s) : MovesHeld s t := by
  have spans : t.tier.spans = s.tier.spans := congrArg (fun x => x.2.1) same
  have next : t.flash.nextChange = s.flash.nextChange := congrArg (fun x => x.2.2.1) same
  have changes : t.flash.changes = s.flash.changes := congrArg (fun x => x.2.2.2.1) same
  have regs : t.regs = s.regs := congrArg (fun x => x.2.2.2.2) same
  have rest (sp : Nat) : t.span sp = s.span sp := congrArg (SMap.find · sp) spans
  refine ⟨⟨congrArg Prod.fst same, fun sp => by rw [rest], next.ge, fun c hc => .inl (changes ▸ hc)⟩,
    fun sp => by rw [rest], ?_⟩
  exact fun wf => ⟨by rw [RegsOrdered, regs]; exact wf, reg_of_regs regs ..⟩

theorem movesHeld_refl (s : State) : MovesHeld s s := movesHeld_of_part rfl

variable {s0 s : State}

theorem moves_same {t : State} (h : MovesHeld s0 s) (same : movesPart t = movesPart s := by rfl) : MovesHeld s0 t :=
  h.trans (movesHeld_of_part same)

/-- The same, where the operation follows others: what it leaves is looked at first. -/
theorem moves_after {t : State} (same : movesPart t = movesPart s := by rfl) (h : MovesHeld s0 s) : MovesHeld s0 t :=
  moves_same h same

theorem moves_ite {c : Prop} [Decidable c] {t u : State} (yes : MovesHeld s0 t) (no : MovesHeld s0 u) :
    MovesHeld s0 (if c then t else u) := by
  split
  · exact yes
  · exact no

/-- A step that is taken or not. -/
theorem moves_opt {c : Prop} [Decidable c] {t : State} (h : MovesHeld s0 s) (step : MovesHeld s0 s → MovesHeld s0 t) :
    MovesHeld s0 (if c then t else s) := moves_ite (step h) h

theorem moves_foldl {β : Type} {f : State → β → State} {l : List β} (h : MovesHeld s0 s)
    (keeps : ∀ u x, MovesHeld s0 u → MovesHeld s0 (f u x)) : MovesHeld s0 (l.foldl f s) :=
  foldl_keeps (P := MovesHeld s0) f keeps l s h

/-- Changes that end. -/
theorem moves_fewerChanges (h : MovesHeld s0 s) (p : FChange → Bool) :
    MovesHeld s0 { s with flash := { s.flash with changes := s.flash.changes.filter p } } :=
  h.trans ⟨⟨rfl, fun _ => rfl, le_rfl, fun _ hc => .inl (List.mem_of_mem_filter hc)⟩, fun _ => rfl, fun wf => ⟨wf, rfl⟩⟩

/-! Registers and flags. -/

/-- The register lies beside ST_MIG_COUNT, at every index. -/
def besideMigCount (r : Reg) : Bool := r.info.stride % 0x4000 == 0 && r.info.base % 0x4000 != 0x2018

theorem addr_of_besideMigCount {r : Reg} (apart : besideMigCount r = true) (i : Nat) :
    r.addr i ≠ Reg.addr .ST_MIG_COUNT 0 := by
  obtain ⟨stride, base⟩ := Bool.and_eq_true_iff.mp apart
  have strided : r.addr i = r.info.base + i * r.info.stride := by
    unfold Reg.addr
    split
    · exact absurd stride (by decide)
    · rfl
  obtain ⟨n, hn⟩ := Nat.dvd_of_mod_eq_zero (beq_iff_eq.mp stride)
  have place : r.addr i % 0x4000 = r.info.base % 0x4000 := by
    rw [strided, hn, Nat.mul_left_comm, Nat.add_mul_mod_self_left]
  intro same
  rw [same] at place
  exact bne_iff_ne.mp base (place.symm.trans (by decide))

theorem moves_setF (h : MovesHeld s0 s) {f : FieldRef} {i x : Nat} (apart : besideMigCount f.reg = true := by rfl) :
    MovesHeld s0 (s.setF f i x) :=
  h.trans ⟨⟨rfl, fun _ => rfl, le_rfl, fun _ => .inl⟩, fun _ => rfl,
    fun wf => ⟨wf_setF wf f i x, reg_setF_ne wf x (addr_of_besideMigCount apart i)⟩⟩

theorem moves_raiseArg (h : MovesHeld s0 s) {f : FieldRef} {i : Nat} {a : EvArg} (apart : besideMigCount f.reg = true := by rfl) :
    MovesHeld s0 (s.raiseArg f i a) := by
  have parts := raiseArg_eq s f i a
  have kept : keptPart (s.raiseArg f i a) = keptPart s := (congrArg keptPart parts :)
  have flash : (s.raiseArg f i a).flash = s.flash := (congrArg State.flash parts :)
  have spans (sp : Nat) : (s.raiseArg f i a).span sp = s.span sp := (congrArg (State.span · sp) parts :)
  refine h.trans ⟨⟨kept, fun sp => by rw [spans], by rw [flash], fun c hc => .inl (flash ▸ hc)⟩, fun sp => by rw [spans],
    fun wf => ⟨wf_raiseArg wf f i a, raiseArg_reg wf f i a _ _ (by decide) (by decide) (addr_of_besideMigCount apart i)⟩⟩

theorem moves_raise (h : MovesHeld s0 s) {f : FieldRef} (apart : besideMigCount f.reg = true := by rfl) :
    MovesHeld s0 (s.raise f) := moves_raiseArg h apart

theorem moves_raiseAt (h : MovesHeld s0 s) {f : FieldRef} {i : Nat} (apart : besideMigCount f.reg = true := by rfl) :
    MovesHeld s0 (s.raiseAt f i) := moves_raiseArg h apart

/-! Bands, changes and spans of the flash map. -/

theorem moves_checkEligible (h : MovesHeld s0 s) {b : Nat} : MovesHeld s0 (s.checkEligible b) := by
  unfold State.checkEligible
  split
  · exact moves_opt h (fun h => moves_opt (moves_same h) (fun h => moves_same h))
  · exact h

theorem moves_release (h : MovesHeld s0 s) {l : List Nat} : MovesHeld s0 (s.release l) := by
  unfold State.release
  refine moves_foldl h (fun _ _ h => ?_)
  dsimp only
  split
  · exact moves_checkEligible (moves_same h)
  · exact h

theorem moves_closeBand (h : MovesHeld s0 s) {b : Nat} : MovesHeld s0 (s.closeBand b) := by
  unfold State.closeBand
  split
  · exact moves_checkEligible (moves_same h)
  · exact h

theorem moves_bandRoom (h : MovesHeld s0 s) {n b slot : Nat} {fulling : Bool} {t : State}
    (room : s.bandRoom n fulling = some (b, slot, t)) : MovesHeld s0 t := by
  unfold State.bandRoom at room
  dsimp only at room
  split at room
  · cases room
    exact moves_same h
  · split at room
    · cases room
    · split at room
      · cases room
        refine moves_same (s := ite _ _ _) (moves_ite h ?_)
        split
        · exact moves_closeBand h
        · exact h
      · cases room

/-- A change put on its way takes the next number. -/
theorem moves_newChange (h : MovesHeld s0 s) {c : FChange} (credits : Nat) (number : s.flash.nextChange = c.id := by rfl) :
    MovesHeld s0 { s with flash := { s.flash with
      changes := s.flash.changes ++ [c], nextChange := s.flash.nextChange + 1, credits := credits } } := by
  refine h.trans ⟨⟨rfl, fun _ => rfl, Nat.le_succ _, fun x hx => ?_⟩, fun _ => rfl, fun wf => ⟨wf, rfl⟩⟩
  rcases List.mem_append.mp hx with old | new
  · exact .inl old
  · exact .inr (List.mem_singleton.mp new ▸ number.le)

theorem moves_startChange (h : MovesHeld s0 s) {kind : ChgKind} {sp : Nat} {frames src : List Nat} {fulling credit : Bool} :
    MovesHeld s0 (s.startChange kind sp frames src fulling credit) := by
  unfold State.startChange
  refine moves_ite h (moves_ite h ?_)
  split
  · exact h
  · next room => exact moves_newChange (moves_bandRoom h room) _

theorem moves_dropFSpan (h : MovesHeld s0 s) {sp : Nat} : MovesHeld s0 (s.dropFSpan sp) := by
  unfold State.dropFSpan
  split
  · exact h
  · exact moves_release (moves_after (h := moves_fewerChanges h (fun c => c.span != sp)))

/-! Places in tier P, and the demotion rule (04 R134, R145). -/

theorem moves_floatFrame (h : MovesHeld s0 s) {g slot : Nat} : MovesHeld s0 (s.floatFrame g slot) :=
  moves_foldl h (fun _ _ h => moves_same h)

/-- A listed value changed. -/
theorem find_upd {α : Type} (m : SMap α) (k j : Nat) (f : α → α) :
    SMap.find (SMap.upd m k f) j = if k = j then (SMap.find m j).map f else SMap.find m j := by
  unfold SMap.upd
  by_cases here : k = j
  · subst here
    cases listed : SMap.find m k with
    | none => simp [listed]
    | some v => simp [find_put]
  · rw [if_neg here]
    cases SMap.find m k with
    | none => rfl
    | some v => exact (find_put ..).trans (if_neg here)

theorem moves_startDemotion (h : MovesHeld s0 s) {sp : Nat} : MovesHeld s0 (s.startDemotion sp) := by
  have spans (k : Nat) : ((s.startDemotion sp).span k).map atRest = (s.span k).map atRest := by
    have found : (s.startDemotion sp).span k
        = if sp = k then (s.span k).map (fun r => { r with move := some .f }) else s.span k := find_upd ..
    rw [found]
    split
    · rw [Option.map_map]
      rfl
    · rfl
  exact h.trans ⟨⟨rfl, written_of_atRest spans, le_rfl, fun _ => .inl⟩, spans, fun wf => ⟨wf, rfl⟩⟩

theorem moves_demoteLoop (n : Nat) (h : MovesHeld s0 s) : MovesHeld s0 (s.demoteLoop n) := by
  induction n generalizing s with
  | zero => exact h
  | succ k ih =>
    unfold State.demoteLoop
    split
    · exact ih (moves_startDemotion h)
    · refine moves_opt h (fun h => ?_)
      split
      · exact ih (moves_startDemotion h)
      · exact h

theorem moves_planMoves (h : MovesHeld s0 s) : MovesHeld s0 s.planMoves :=
  moves_foldl h (fun _ _ h => moves_ite (moves_ite h (moves_raise h)) (moves_startChange h))

theorem moves_checkDemotion (h : MovesHeld s0 s) : MovesHeld s0 s.checkDemotion := by
  unfold State.checkDemotion
  exact moves_ite h (moves_planMoves (moves_demoteLoop _ (moves_opt (moves_same h) (fun h => moves_raise h))))

end Sys2Proof.Proofs
end

section
/-! PROOFS. The moves of spans committed and heat decayed (04 R130, R132, R133, R135, R152). -/

namespace Sys2Proof.Proofs

set_option Elab.async false

open Sys2Proof Machine Laws Claims

/-- The commit of a move: the span has its new record, and the move is counted (04 R135, R152). -/
def rehomed (s : State) (sp : Nat) (r : SpanRec) (f : FieldRef) : State :=
  ({ s with tier := { s.tier with spans := SMap.put s.tier.spans sp r } }).bump f 0 1

/-- The state before a change, without it among those in hand. -/
def withoutChange (s : State) (id : Nat) : State :=
  { s with flash := { s.flash with changes := s.flash.changes.filter (fun x => x.id != id) } }

section
variable {s v : State} {sp : Nat} {r : SpanRec}

/-- A promotion with room gives its frames slots, releases its flash frames, and is committed (04 R133, R135). -/
theorem commitPromotion_rehomes (room : r.written.length ≤ s.freeP) : ∃ v, MovesHeld s v
    ∧ s.commitPromotion sp r = rehomed v sp { r with home := .p, move := none } F.ST_MIG_COUNT.PROMOTED := by
  unfold State.commitPromotion
  rw [if_neg room.not_gt]
  refine ⟨_, moves_dropFSpan (moves_foldl (movesHeld_refl s) (fun u k h => ?_)), rfl⟩
  dsimp only
  split
  · exact moves_floatFrame (moves_same h)
  · exact h

/-- The frames of a change are counted in their band (07 R212). -/
def bandTakes (s : State) (b n : Nat) : State :=
  match SMap.find s.flash.bands b with
  | some x => s.putBand b { x with valid := x.valid + n }
  | none => s

theorem moves_bandTakes {s0 : State} (h : MovesHeld s0 s) (b n : Nat) : MovesHeld s0 (bandTakes s b n) := by
  unfold bandTakes
  split
  · exact moves_same h
  · exact h

/-- A migration to tier F up to the new home of its span: its frames lie in their band and in the map, and tier P has none of them
any more. -/
def migrated (s : State) (c : FChange) : State :=
  let t := bandTakes (withoutChange s c.id) c.band c.frames.length
  let e : FSpan := { fine := none, refresh := false, band := c.band, slot := c.slot, wseq := s.flash.jseq, subw := 0, window := 0,
                     lastSubw := 0, written := c.frames }
  State.jSpanSet { t with
    tier := { t.tier with pmap := t.tier.pmap.filter (fun x => spanOfFrame x.1 != c.span) },
    flash := { t.flash with map := SMap.put t.flash.map c.span e } } c.span (fpa c.band c.slot) c.frames

theorem migrated_moves (s : State) (c : FChange) : MovesHeld (withoutChange s c.id) (migrated s c) :=
  moves_after (h := moves_bandTakes (movesHeld_refl _) c.band c.frames.length)

/-- A migration to tier F is committed where its span is still on its way and has the frames that were copied (04 R135; 07 R212). -/
theorem commitChange_migrate {c : FChange} (kind : c.kind = .migrate) : s.commitChange c =
    match s.span c.span with
    | some r =>
      if r.move == some .f && r.home == .p && r.written == c.frames then
        rehomed (migrated s c) c.span { r with home := .f, move := none } F.ST_MIG_COUNT.DEMOTED
      else withoutChange s c.id
    | none => withoutChange s c.id := by
  obtain ⟨id, kind', sp, frames, src, band, slot, fulling, programmed⟩ := c
  obtain rfl : kind' = .migrate := kind
  rfl

/-- The commit of a move leaves what no move touches, and the span's written frames. -/
theorem rehomed_map {r' : SpanRec} (kept : MovesHeld s v) (found : s.span sp = some r) (frames : r'.written = r.written)
    (f : FieldRef) : MapHeld s (rehomed v sp r' f) := by
  refine kept.map.trans ⟨rfl, fun k => ?_, le_rfl, fun _ => .inl⟩
  have spans : (rehomed v sp r' f).span k = if sp = k then some r' else v.span k := find_put ..
  rw [spans]
  split
  · next here =>
    subst here
    rw [kept.map.written, found]
    exact congrArg some frames
  · rfl

/-- Where the count of moves stands, so do its fields. -/
theorem MovesHeld.get {f : FieldRef} (h : MovesHeld s v) (wf : RegsOrdered s) (place : f.reg = .ST_MIG_COUNT) :
    v.get f = s.get f := by
  obtain ⟨-, same⟩ := h.count wf
  unfold State.get State.getF
  rw [place, same]

/-- After the commit and the demotion rule the span has its new record, but for a move that it may start, the move is counted, and
the rest stands. -/
theorem rehomed_checkDemotion {r' : SpanRec} {f : FieldRef} (kept : MovesHeld s v) (wf : RegsOrdered s) (found : s.span sp = some r)
    (frames : r'.written = r.written) (place : f.reg = .ST_MIG_COUNT) (fits : f.lo + f.w ≤ 64) :
    let u := (rehomed v sp r' f).checkDemotion
    ∃ x, (u.span sp = some x ∧ x.home = r'.home ∧ x.written = r'.written ∧ x.heat = r'.heat)
      ∧ u.get f = satAdd f.w (s.get f) 1 ∧ MapHeld s u := by
  intro u
  have after : MovesHeld (rehomed v sp r' f) u := moves_checkDemotion (movesHeld_refl _)
  obtain ⟨wfv, -⟩ := kept.count wf
  have counted : u.get f = satAdd f.w (s.get f) 1 := calc
    u.get f = (rehomed v sp r' f).get f := after.get (wf_setF wfv ..) place
    _ = satAdd f.w (v.get f) 1 := getF_bump wfv f 0 1 fits
    _ = satAdd f.w (s.get f) 1 := by rw [kept.get wf place]
  obtain ⟨x, record⟩ := after.span (sp := sp) ((find_put ..).trans (if_pos rfl))
  exact ⟨x, record, counted, (rehomed_map kept found frames f).trans after.map⟩

end

section
variable {s : State} {span at_ : Nat} {r : SpanRec}

/-- MIGRATION_COPY_DONE of a span on its way to tier P commits its move. -/
theorem exec_promoted (found : s.span span = some r) (way : r.move = some .p) (home : r.home = .f) :
    exec (.migrationCopyDone span at_) s = .next (((s.tick at_).commitPromotion span r).checkDemotion.settle) := by
  have found' : (s.tick at_).span span = some r := found
  simp only [exec_migrationCopyDone, execMigrationCopyDone, found', way, home, beq_self_eq_true, if_true]

/-- MIGRATION_COPY_DONE of a span on its way to tier F commits its migration, where no frame of it is being healed. -/
theorem exec_demoted {c : FChange} (found : s.span span = some r) (way : r.move = some .f)
    (whole : s.stripe.heals.any (fun x => spanOfFrame x.2 == span) = false)
    (change : s.flash.changes.find? (fun x => x.span == span && x.kind == .migrate) = some c) :
    exec (.migrationCopyDone span at_) s = .next (((s.tick at_).commitChange c).checkDemotion.settle) := by
  have found' : (s.tick at_).span span = some r := found
  simp only [exec_migrationCopyDone, execMigrationCopyDone, found', way, tick_stripe, tick_flash, whole, change,
    Bool.false_eq_true, if_false]

end

/-- A value found in a table that was changed throughout is the changed one. -/
theorem find_mapValues {α : Type} (g : α → α) (m : SMap α) (k : Nat) :
    SMap.find (m.map (fun x => (x.1, g x.2))) k = (SMap.find m k).map g := by
  induction m with
  | nil => rfl
  | cons x t ih =>
    rw [List.map_cons, SMap.find, SMap.find, ih]
    split
    · rfl
    · split <;> rfl

/-- Settles O34: the two commits, each with the demotion rule after it, and the decay. -/
theorem movesChangeNoByte : Obligations.MovesChangeNoByte := by
  intro s span at_ r c wf
  refine ⟨fun found way home room => ?_, fun found way home whole change frames => ?_, ?_⟩
  · obtain ⟨v, kept, commit⟩ := commitPromotion_rehomes (s := s.tick at_) (sp := span) room
    obtain ⟨r', record, counted, map⟩ := rehomed_checkDemotion (r' := { r with home := .p, move := none }) kept wf found rfl
      (f := F.ST_MIG_COUNT.PROMOTED) rfl (by decide)
    obtain ⟨after, home', written, heat⟩ := record
    exact ⟨_, r', (exec_promoted found way home).trans (by rw [commit]), after, home', written, heat, counted, map.mem, map.lines,
      map.twin, map.bay, map.power⟩
  · obtain ⟨atSpan, kind⟩ := Bool.and_eq_true_iff.mp (List.find?_some change :)
    obtain rfl : c.span = span := beq_iff_eq.mp atSpan
    have stands : (r.move == some .f && r.home == .p && r.written == c.frames) = true := by simp [way, home, frames]
    have found' : (s.tick at_).span c.span = some r := found
    have commit := commitChange_migrate (s := s.tick at_) (beq_iff_eq.mp kind)
    simp only [found', stands, if_true] at commit
    obtain ⟨r', record, counted, map⟩ := rehomed_checkDemotion (r' := { r with home := .f, move := none })
      (migrated_moves (s.tick at_) c) wf found rfl (f := F.ST_MIG_COUNT.DEMOTED) rfl (by decide)
    obtain ⟨after, home', written, heat⟩ := record
    exact ⟨_, r', (exec_demoted found way whole change).trans (by rw [commit]), after, home', written, heat, counted, map.mem,
      map.lines, map.twin, map.bay, map.power⟩
  · exact ⟨_, rfl, find_mapValues (fun x : SpanRec => { x with heat := x.heat / 2 }) s.tier.spans, rfl⟩

end Sys2Proof.Proofs
end

section
/-! PROOFS. Programs, commits, packings and checkpoints of the flash map (04 R130; 07 R211 to R214). -/

namespace Sys2Proof.Proofs

set_option Elab.async false

open Sys2Proof Machine Laws Claims

/-! Frames written anew, blocks retired and reshape (07 R219, R225, R226; 08 R258 to R260). -/

section
variable {s0 s : State}

theorem moves_rewrite (h : MovesHeld s0 s) {sp : Nat} {frames : List Nat} {refresh : Bool} :
    MovesHeld s0 (s.rewrite sp frames refresh) := by
  unfold State.rewrite
  split
  · exact h
  · split
    · exact moves_ite h (moves_startChange h)
    · refine moves_foldl h (fun _ _ h => ?_)
      split
      · exact moves_ite h (moves_startChange h)
      · exact h

theorem moves_takeSpare (h : MovesHeld s0 s) : MovesHeld s0 s.takeSpare := by
  unfold State.takeSpare
  exact moves_ite (moves_after (h := moves_raise h)) (moves_opt (moves_same h) (fun h => moves_raise h))

theorem moves_journal (h : MovesHeld s0 s) {type frame count key loc : Nat} {mask : List Nat} :
    MovesHeld s0 (s.journal type frame count key loc mask) := moves_same h

theorem moves_health (h : MovesHeld s0 s) {ix n : Nat} : MovesHeld s0 (s.health ix n) := moves_same h

theorem moves_healthList (h : MovesHeld s0 s) {ty ch loc : Nat} : MovesHeld s0 (s.healthList ty ch loc) := by
  unfold State.healthList
  exact moves_ite (moves_same h) (moves_raise h)

theorem moves_retireBlock (h : MovesHeld s0 s) {ch block : Nat} : MovesHeld s0 (s.retireBlock ch block) := by
  unfold State.retireBlock
  exact moves_ite h (moves_takeSpare (moves_healthList (moves_health (moves_journal
    (moves_raiseAt (moves_setF (moves_setF (moves_same h))))))))

theorem moves_relocate (h : MovesHeld s0 s) {ch block : Nat} : MovesHeld s0 (s.relocate ch block) := by
  unfold State.relocate
  exact moves_ite h (moves_ite (moves_ite (moves_retireBlock (moves_same h)) (moves_same h))
    (moves_foldl h (fun _ _ h => moves_rewrite h)))

theorem moves_relocateAll (h : MovesHeld s0 s) : MovesHeld s0 s.relocateAll := moves_foldl h (fun _ _ h => moves_relocate h)

theorem moves_reshapedP (h : MovesHeld s0 s) {g : StripeGeom} : MovesHeld s0 (s.reshapedP g) :=
  moves_setF (moves_setF (moves_setF (moves_setF h)))

theorem moves_stripe (h : MovesHeld s0 s) (x : StripeSt) : MovesHeld s0 { s with stripe := x } := moves_same h

theorem moves_reshapeF (h : MovesHeld s0 s) {old g : StripeGeom} : MovesHeld s0 (s.reshapeF old g) :=
  moves_stripe (s := (s.put F.ST_F_CFG.OLD_WIDTH old.fWidth).put F.ST_F_CFG.WIDTH g.fWidth) (moves_setF (moves_setF h)) _

theorem moves_reshapeEnd (h : MovesHeld s0 s) {g : StripeGeom} : MovesHeld s0 (s.reshapeEnd g) := moves_raise (moves_stripe h _)

theorem moves_endF (h : MovesHeld s0 s) {g : StripeGeom} : MovesHeld s0 (s.endF g) := by
  unfold State.endF
  exact moves_ite (moves_reshapeEnd (moves_setF h)) h

theorem moves_checkReshape (h : MovesHeld s0 s) : MovesHeld s0 s.checkReshape := by
  unfold State.checkReshape
  split
  · next g old _ _ =>
    have shaped : MovesHeld s0 (s.reshapedP g) := moves_reshapedP h
    refine moves_ite (moves_stripe h _) (moves_ite h (moves_ite (moves_endF h) (moves_ite (moves_ite ?_ ?_) ?_)))
    · exact moves_reshapeEnd shaped
    · exact moves_endF (moves_reshapeF (moves_stripe shaped _))
    · exact moves_ite (moves_raise (moves_stripe h _)) h
  · exact h

end

/-! The commit of a change (07 R212). -/

/-- The commit of a change that is no migration leaves every span's record: it counts its frames in their bands, enters them in the
map, and releases what they replace. -/
theorem moves_commitCopy (s : State) {c : FChange} (copy : c.kind ≠ .migrate) :
    MovesHeld (withoutChange s c.id) (s.commitChange c) := by
  unfold State.commitChange
  extract_lets _ w n take copied
  have h : MovesHeld (withoutChange s c.id) w := movesHeld_refl _
  have takes {t : State} (k : MovesHeld (withoutChange s c.id) t) : MovesHeld (withoutChange s c.id) (copied (take t)) := by
    have taken : MovesHeld (withoutChange s c.id) (take t) := by
      unfold take
      split
      · exact moves_same k
      · exact k
    refine moves_opt taken (fun k => moves_foldl k (fun _ _ k => ?_))
    split
    · exact moves_same k
    · exact k
  clear_value take copied
  split
  · next migration => exact absurd migration copy
  · split
    · exact moves_ite (moves_release (moves_after (h := moves_opt (takes h) (fun k => moves_same k)))) h
    · exact h
  · split
    · split
      · exact moves_ite (moves_release (moves_after (h := moves_opt (takes h) (fun k => moves_same k)))) h
      · exact h
    · exact h
  · split
    · split
      · exact moves_ite (moves_release (moves_after (h := takes h))) h
      · exact h
    · exact h

/-- The commit of a change leaves what no move touches, and every written frame. -/
theorem commitChange_map (s : State) (c : FChange) : MapHeld (withoutChange s c.id) (s.commitChange c) := by
  by_cases kind : c.kind = .migrate
  · rw [commitChange_migrate kind]
    split
    · next r found =>
      split
      · exact rehomed_map (r' := { r with home := .f, move := none }) (migrated_moves s c) found rfl _
      · exact (movesHeld_refl _).map
    · exact (movesHeld_refl _).map
  · exact (moves_commitCopy s kind).map

/-- The records of a journal are written. -/
theorem moves_journaled (s : State) : MovesHeld s { s with flash := { s.flash with jpending := 0 } } := movesHeld_of_part rfl

/-- What MAP_COMMIT_DONE of a programmed change does before the rules that follow (07 R212, R219; 08 R258). -/
def mapCommitted (s : State) (c : FChange) : State :=
  let t := s.commitChange c
  State.checkDemotion (State.checkReshape (State.relocateAll { t with flash := { t.flash with jpending := 0 } }))

theorem mapCommitted_map (s : State) (c : FChange) : MapHeld (withoutChange s c.id) (mapCommitted s c) :=
  ((commitChange_map s c).trans (moves_journaled _).map).trans
    (moves_checkDemotion (moves_checkReshape (moves_relocateAll (movesHeld_refl _)))).map

/-- A change taken out of those in hand does not come back: new ones have later numbers. -/
theorem MapHeld.gone {s u : State} {id : Nat} (h : MapHeld (withoutChange s id) u) (old : id < s.flash.nextChange) {x : FChange}
    (named : x.id = id) : x ∉ u.flash.changes := by
  intro inHand
  rcases h.changes x inHand with kept | new
  · exact bne_iff_ne.mp (List.mem_filter.mp kept).2 named
  · exact absurd (named ▸ old) new.not_gt

section
variable {s : State} {id at_ : Nat} {c : FChange}

theorem exec_mapCommit (found : s.flash.changes.find? (fun x => x.id == id && x.programmed) = some c) :
    exec (.mapCommitDone id at_) s = .next (mapCommitted (s.tick at_) c).settle := by
  simp only [exec_mapCommitDone, execMapCommitDone, tick_flash, found]
  rfl

/-- FLASH_PROGRAM_DONE of a change in hand marks it programmed (07 R212 step 1). -/
theorem exec_programmed {ch block : Nat} (found : s.flash.changes.find? (fun x => x.id == id) = some c) :
    exec (.flashProgramDone id true ch block at_) s = .next { s.tick at_ with flash := { s.flash with
      changes := s.flash.changes.map (fun x => if x.id = id then { x with programmed := true } else x) } } := by
  simp only [exec_flashProgramDone, execFlashProgramDone, tick_flash, found, if_true]

end

theorem moves_toSpan {s0 s : State} (h : MovesHeld s0 s) {sp : Nat} : MovesHeld s0 (s.toSpan sp) := by
  unfold State.toSpan
  split
  · exact moves_ite (moves_startChange h) h
  · exact h

section
variable {s : State} {at_ : Nat}

/-- FINE_IDLE_EXPIRY of a frame-mapped span idle long enough packs it (07 R211). -/
theorem exec_fineIdle {span : Nat} {e : FSpan} (found : SMap.find s.flash.map span = some e) (fine : e.fine.isSome = true)
    (idle : (e.lastSubw + max 1 (s.get F.FL_MAP_CTL.FINE_IDLE_S)) * 1000000000 ≤ max s.now at_) :
    exec (.fineIdleExpiry span at_) s = .next ((s.tick at_).toSpan span) := by
  simp only [exec_fineIdleExpiry, execFineIdleExpiry, tick_flash, tick_get, tick_now, found, fine, idle, decide_true,
    Bool.and_self, if_true]

/-- CHECKPOINT_TRIGGER that is due starts a checkpoint in states 12 to 15 (07 R214). -/
theorem exec_checkpointStarts (idle : s.flash.ckptRunning = false) (due : (s.tick at_).ckptDue = true)
    (spaced : s.flash.ckptAt + 10000000000 ≤ max s.now at_) (above : 11 < s.power.state) (below : s.power.state < 16) :
    exec (.checkpointTrigger at_) s = .next { s.tick at_ with flash := { s.flash with
      ckptRunning := true, ckptAt := max s.now at_, ckptFrom := s.flash.jseq, ckptSeq := s.flash.ckptSeq + 1 } } := by
  simp only [exec_checkpointTrigger, execCheckpointTrigger, tick_flash, tick_power, tick_now, idle, due, spaced, above, below,
    Bool.not_false, decide_true, Bool.and_self, if_true]

/-- CHECKPOINT_DONE ends the checkpoint that runs (07 R214). -/
theorem exec_checkpointEnds (runs : s.flash.ckptRunning = true) :
    exec (.checkpointDone at_) s = .next (s.tick at_).endCheckpoint := by
  simp only [exec_checkpointDone, execCheckpointDone, tick_flash, runs, if_true]

end

/-- Settles O41: a change programmed, a change committed, a packing, and the start and the end of a checkpoint. -/
theorem flashMapChangesKeepTheBytes : Obligations.FlashMapChangesKeepTheBytes := by
  intro s id ch block span at_ c e now f
  refine ⟨fun found => exec_programmed found, fun found old => ?_, fun found fine idle => ?_, exec_checkpointStarts,
    exec_checkpointEnds⟩
  · have named : (c.id == id && c.programmed) = true := (List.find?_some found :)
    obtain rfl : c.id = id := beq_iff_eq.mp (Bool.and_eq_true_iff.mp named).1
    have map := mapCommitted_map now c
    exact ⟨_, exec_mapCommit found, fun x _ same => map.gone old same, map.frames, map.mem, map.lines, map.bay, map.twin,
      map.power⟩
  · exact ⟨exec_fineIdle found fine idle, (moves_toSpan (movesHeld_refl now)).map.mem⟩

end Sys2Proof.Proofs
end

section
/-! PROOFS. Quotas written and received, and the moves of Float (04 R139, R145; Tables 4.13, 4.14). -/

namespace Sys2Proof.Proofs

set_option Elab.async false

open Sys2Proof Machine Laws Claims

/-! Quotas (04 R139). -/

section
variable {s : State} {via : Via} {tier at_ tn : Nat} {w : AccW} {v : Word}

/-- The quota registers are device-wide, and no function fences them. -/
theorem quotaReg_plain (s : State) (tier : Nat) : s.absent (quotaReg tier) 0 = false ∧ s.fencedReg (quotaReg tier) 0 = false := by
  unfold quotaReg
  split <;> exact ⟨rfl, rfl⟩

/-- What a quota register holds of a tenant after a write: the bits that the access covers, and the rest as it was. -/
def quotaWritten (s : State) (tn tier : Nat) (w : AccW) (v : Word) : Nat :=
  let m := accMask w &&& accBits (quotaReg tier) .rw
  ((word ((s.quota tn).get tier) &&& ~~~m) ||| (accValue w v &&& m)).toNat

/-- A tenant's quota of a tier at a value, with the device time of its write. -/
def withQuota (s : State) (tn tier x dt : Nat) : State :=
  { s with tier := { s.tier with quotas := SMap.put s.tier.quotas tn ((s.quota tn).set tier x dt) } }

/-- A quota write that is taken applies to the tenant selected and goes to the twin; without that tenant it does nothing (04
R139). -/
theorem exec_quotaWritten (served : Served s via (accOff (quotaReg tier) 0 w)) (rsv : NoRsv (quotaReg tier) w v)
    (selected : tn = s.get F.ST_QUOTA_SEL.TENANT) :
    exec (.quotaWrite via tier w v at_) s = .next (
      if s.bay.tenants.contains tn then
        State.settle (State.checkDemotion (State.send
          (withQuota (s.tick at_) tn tier (quotaWritten s tn tier w v) (max s.now at_)) (s.hdr s.twinId)
          (.quotaSet tn tier (quotaWritten s tn tier w v) (max s.now at_))))
      else s.tick at_) := by
  subst selected
  obtain ⟨present, free⟩ := quotaReg_plain (s.tick at_) tier
  have taken := writeAt_taken (s := s.tick at_) (via := via) served present free rsv
  rw [exec_quotaWrite, execQuotaWrite, State.writeQuota, taken]
  cases known : s.bay.tenants.contains (s.get F.ST_QUOTA_SEL.TENANT) with
  | true =>
    simp only [tick_get, tick_bay, known, Bool.not_true, Bool.false_eq_true, if_true, if_false]
    rfl
  | false => simp only [tick_get, tick_bay, known, Bool.not_false, Bool.false_eq_true, if_true, if_false]

/-- Bytes received leave the quotas. -/
theorem countRx_quota (s : State) (port n k : Nat) : (s.countRx port n).quota k = s.quota k := by
  have tier : (s.countRx port n).tier = s.tier := by rw [countRx_eq]
  exact congrArg (fun x : TierSt => SMap.findD x.quotas k {}) tier

/-- A quota received takes the place of an earlier one; of equal ones that of the even device stands (04 R139). -/
theorem exec_quotaReceived {h : Hdr} {x dt : Nat} (wf : RegsOrdered s) (serves : s.linkServes h = true) (here : h.dst = s.devId) :
    exec (.quotaSet h tn tier x dt) s = .next (
      if (s.quota tn).dt tier < dt ∨ ((s.quota tn).dt tier = dt ∧ s.side = 1) then
        (withQuota (s.countRx h.port 56) tn tier x dt).checkDemotion.settle
      else s.countRx h.port 56) := by
  have side : (s.countRx h.port 56).side = s.side := congrArg (· % 2) (countRx_devId wf h.port 56)
  rw [exec_quotaSet, execQuotaSet, receive_here wf serves here]
  change Host.Outcome.next (if ((s.countRx h.port 56).quota tn).dt tier < dt
    ∨ (((s.countRx h.port 56).quota tn).dt tier = dt ∧ (s.countRx h.port 56).side = 1) then _ else _) = _
  rw [side, countRx_quota]
  rfl

/-- The rules that follow leave the quotas. -/
theorem quota_settled (s : State) (k : Nat) : s.checkDemotion.settle.quota k = s.quota k := by
  have settled := still_settle s.checkDemotion
  generalize s.checkDemotion.settle = t at settled ⊢
  have quotas : t.tier.quotas = s.tier.quotas :=
    (congrArg Still.quotas settled).trans (moves_checkDemotion (movesHeld_refl s)).map.quotas
  exact congrArg (fun m => SMap.findD m k {}) quotas

/-- A quota put is the tenant's, and the others' stand. -/
theorem withQuota_quota (s : State) (tn tier x dt k : Nat) :
    (withQuota s tn tier x dt).quota k = if tn = k then (s.quota tn).set tier x dt else s.quota k := by
  have found : SMap.find (SMap.put s.tier.quotas tn ((s.quota tn).set tier x dt)) k = _ := find_put ..
  unfold State.quota SMap.findD withQuota
  rw [found]
  split <;> rfl

end

/-! Float (04 R145). -/

section
variable {s : State} {m : Nat}

/-- FLOAT_SWAP_CHECK of a module whose most and least written regions are known. -/
theorem exec_swapCheck {h l : Nat} (extremes : s.extremeRegions m = some (h, l)) :
    exec (.floatSwapCheck m) s = .next (
      let a := s.region h
      let b := s.region l
      if SMap.findD s.tier.modWrites m 0 / s.regionCount m + 2 ^ s.threshLog2 < a.writes ∧ h ≠ l then State.bump
        { s with tier := { s.tier with
            regions := SMap.put (SMap.put s.tier.regions h { a with writes := a.writes + 4095, holds := some (b.holds.getD l) })
              l { b with writes := b.writes + 4095, holds := some (a.holds.getD h) },
            modWrites := SMap.put s.tier.modWrites m (SMap.findD s.tier.modWrites m 0 + 8190) } } F.ST_FLOAT_STAT.SWAPS 0 1
      else s) := by
  rw [exec_floatSwapCheck, execFloatSwapCheck, extremes]
  rfl

end

/-- Settles O35: a quota written and received, and Float's moves on both sides of their thresholds. -/
theorem quotasAndFloatComplete : Obligations.QuotasAndFloatComplete := by
  refine ⟨fun s via tier w v at_ h tn x dt wf => ⟨fun served rsv selected => ?_, fun serves here => ?_⟩,
    fun s m region h l => ⟨fun full => ?_, fun early => ?_, fun extremes apart exceeds => ?_, fun extremes under => ?_⟩⟩
  · have taken := exec_quotaWritten (at_ := at_) served rsv selected
    refine ⟨fun known => ?_, fun unknown => ?_⟩
    · rwa [if_pos known] at taken
    · rwa [unknown, if_neg Bool.false_ne_true] at taken
  · have received := exec_quotaReceived (tn := tn) (tier := tier) (x := x) (dt := dt) wf serves here
    refine ⟨fun later => ?_, fun earlier => ?_⟩
    · rw [if_pos later] at received
      refine ⟨_, received, ?_, fun k other => ?_⟩
      · rw [quota_settled, withQuota_quota, if_pos rfl, countRx_quota]
      · rw [quota_settled, withQuota_quota, if_neg other.symm, countRx_quota]
    · have stands : ¬((s.quota tn).dt tier < dt ∨ ((s.quota tn).dt tier = dt ∧ s.side = 1)) := by omega
      rwa [if_neg stands] at received
  · exact congrArg _ (if_pos full)
  · exact congrArg _ (if_neg early.not_ge)
  · exact (exec_swapCheck extremes).trans (congrArg _ (if_pos ⟨exceeds, apart⟩))
  · exact (exec_swapCheck extremes).trans (congrArg _ (if_neg fun swap => under.not_gt swap.1))

end Sys2Proof.Proofs
end

section
/-! PROOFS. Status registers whose read has an effect of its own (05 R166; 09 R276; 14 R396; 15 R408). -/

namespace Sys2Proof.Proofs

open Sys2Proof Machine Laws Claims

section
variable {s : State} {via : Via} {w : AccW}

/-- CR_SLICE_STAT_READ served: the selected slice's counts, and its MISSES_MAX reset (05 R166). -/
theorem exec_sliceStatServed (served : Served s via (accOff .CR_SLICE_STAT 0 w)) :
    exec (.crSliceStatRead via w) s = .next { s.emit (.mmio via (accOff .CR_SLICE_STAT 0 w) (readHalf w s.sliceStat)) with
      crown := { s.crown with missMax := s.crown.missMax.set (s.get F.CR_SLICE_SEL.SLICE) 0 } } :=
  congrArg Host.Outcome.next (readAt_served served rfl)

/-- QU_CTX_STAT_READ served: contexts in use and misses, and MISSES reset where the access covers it (09 R276). -/
theorem exec_ctxStatServed (served : Served s via (accOff .QU_CTX_STAT 0 w)) :
    exec (.quCtxStatRead via w) s =
      .next ((s.emit (.mmio via (accOff .QU_CTX_STAT 0 w) (readHalf w s.ctxStat))).clearRead F.QU_CTX_STAT.MISSES 0 w) :=
  congrArg Host.Outcome.next (readAt_served served rfl)

/-- BB_AON_DATA_READ served: the word that BB_AON_ADDR names, and 8 added to the address (14 R396). -/
theorem exec_aonDataServed (served : Served s via (accOff .BB_AON_DATA 0 w)) :
    exec (.bbAonDataRead via w) s =
      .next ((s.emit (.mmio via (accOff .BB_AON_DATA 0 w) (readHalf w s.aonData))).put F.BB_AON_ADDR.ADDR
        ((s.get F.BB_AON_ADDR.ADDR / 8 * 8 + 8) % 2 ^ 24)) :=
  congrArg Host.Outcome.next (readAt_served served rfl)

/-- TM_CAPTURE_READ served: the capture, armed again (15 R408). -/
theorem exec_captureServed (served : Served s via (accOff .TM_CAPTURE 0 w)) (at_ : Nat) :
    exec (.tmCaptureRead via w at_) s =
      .next { (s.tick at_).emit (.mmio via (accOff .TM_CAPTURE 0 w) (readHalf w (s.reg .TM_CAPTURE 0))) with
        time := { (s.tick at_).time with captureUnread := false } } :=
  congrArg Host.Outcome.next (readAt_served (served_tick served at_) rfl)

end

/-- Settles O16: one lemma per read; what the read resets or writes is one field of one register, or no register. -/
theorem statusReadsReturnTheirViews : Obligations.StatusReadsReturnTheirViews := by
  intro s via w at_ wf
  refine ⟨exec_sliceStatServed, fun served => ?_, fun served => ?_, fun served => exec_captureServed served at_⟩
  · obtain ⟨misses, -, others, -, eq⟩ :=
      clearRead_spec (s := s.emit (.mmio via (accOff .QU_CTX_STAT 0 w) (readHalf w s.ctxStat))) wf F.QU_CTX_STAT.MISSES 0 w
        (by decide) (highCount_covered w)
    refine ⟨_, exec_ctxStatServed served, eq, ?_, others⟩
    cases w <;> exact misses
  · refine ⟨_, exec_aonDataServed served, rfl, ?_, fun r k apart => ?_⟩
    · exact (getF_setF (s := s.emit _) wf F.BB_AON_ADDR.ADDR 0 _ (by decide)).trans (Nat.mod_mod ..)
    · exact reg_setF_ne (s := s.emit _) wf _ apart.symm

end Sys2Proof.Proofs
end

section
/-! PROOFS. The registers from BL_DEVICE_ID up, through flags and counts of the registers below it (14 R383 to R394). They stand even
where the table of registers is not in its order, which no statement about the end of a fill supposes: a fill that poisons its line
asks for the device's name after it has raised a flag. -/

namespace Sys2Proof.Proofs

open Sys2Proof Machine Laws Claims

/-- The registers from BL_DEVICE_ID up are listed in `s` as in `s0`. -/
def UpperHeld (s0 s : State) : Prop := ∀ k, Reg.addr .BL_DEVICE_ID 0 ≤ k → SMap.find s.regs k = SMap.find s0.regs k

/-- A key above the one removed is found as before, in a table of any order. -/
theorem find_del_above {α : Type} (m : SMap α) {k j : Nat} (above : k < j) : SMap.find (SMap.del m k) j = SMap.find m j := by
  induction m with
  | nil => rfl
  | cons x t ih =>
    obtain ⟨i, v⟩ := x
    simp only [SMap.del]
    split
    · next same =>
      have apart : i ≠ j := by omega
      have later : ¬ j < i := by omega
      simp only [SMap.find, apart, later, if_false]
    · split
      · rfl
      · simp only [SMap.find, ih]

variable {s0 s : State}

theorem upper_refl (s : State) : UpperHeld s s := fun _ _ => rfl

/-- An operation that writes no register. -/
theorem upper_same {t : State} (h : UpperHeld s0 s) (same : t.regs = s.regs := by rfl) : UpperHeld s0 t := by
  unfold UpperHeld
  rw [same]
  exact h

theorem upper_setReg (h : UpperHeld s0 s) {r : Reg} {i : Nat} {v : Word}
    (low : r.addr i < Reg.addr .BL_DEVICE_ID 0 := by decide) : UpperHeld s0 (s.setReg r i v) := by
  intro k upper
  rw [← h k upper]
  unfold State.setReg
  dsimp only
  split
  · exact find_del_above _ (low.trans_le upper)
  · rw [find_put, if_neg (low.trans_le upper).ne]

theorem upper_setF (h : UpperHeld s0 s) {f : FieldRef} {i x : Nat} (low : f.reg.addr i < Reg.addr .BL_DEVICE_ID 0 := by decide) :
    UpperHeld s0 (s.setF f i x) := upper_setReg h low

theorem upper_put (h : UpperHeld s0 s) {f : FieldRef} {x : Nat} (low : f.reg.addr 0 < Reg.addr .BL_DEVICE_ID 0 := by decide) :
    UpperHeld s0 (s.put f x) := upper_setReg h low

theorem upper_bump (h : UpperHeld s0 s) {f : FieldRef} {i n : Nat} (low : f.reg.addr i < Reg.addr .BL_DEVICE_ID 0 := by decide) :
    UpperHeld s0 (s.bump f i n) := upper_setReg h low

theorem upper_ite {c : Prop} [Decidable c] {t u : State} (yes : UpperHeld s0 t) (no : UpperHeld s0 u) :
    UpperHeld s0 (if c then t else u) := by
  split
  · exact yes
  · exact no

/-- A step that is taken or not. -/
theorem upper_opt {c : Prop} [Decidable c] {t : State} (h : UpperHeld s0 s) (step : UpperHeld s0 s → UpperHeld s0 t) :
    UpperHeld s0 (if c then t else s) := upper_ite (step h) h

theorem upper_foldl {β : Type} {f : State → β → State} {l : List β} (h : UpperHeld s0 s)
    (keeps : ∀ u x, UpperHeld s0 u → UpperHeld s0 (f u x)) : UpperHeld s0 (l.foldl f s) :=
  foldl_keeps (P := UpperHeld s0) f keeps l s h

/-! An event and its targets. -/

theorem upper_cxlRecord (h : UpperHeld s0 s) {key : Nat} {e : EvRec} : UpperHeld s0 (s.cxlRecord key e) := upper_ite h h

theorem upper_msix (h : UpperHeld s0 s) {port ld vector : Nat} : UpperHeld s0 (s.msix port ld vector) := upper_ite h h

theorem upper_evSend (h : UpperHeld s0 s) {t : Nat} : UpperHeld s0 (s.evSend t) :=
  upper_ite h (upper_ite (upper_msix h) (upper_put h))

theorem upper_evIrq (h : UpperHeld s0 s) {t : Nat} : UpperHeld s0 (s.evIrq t) := by
  unfold State.evIrq
  dsimp only
  split
  · exact upper_ite (upper_same h) (upper_evSend (upper_same h))
  · exact upper_evSend (upper_same h)

theorem upper_bbEvent (h : UpperHeld s0 s) {f : FieldRef} {i : Nat} {e : EvRec} : UpperHeld s0 (s.bbEvent f i e).1 := by
  unfold State.bbEvent
  dsimp only
  split
  · exact h
  · split
    · split <;> split <;> exact h
    · exact h

theorem upper_spreadEvent (h : UpperHeld s0 s) {e : EvRec} {irq : Bool} {p : EventSt × Bool} :
    UpperHeld s0 (s.spreadEvent e irq p).1 := by
  unfold State.spreadEvent
  extract_lets s1 s2 s3 s4
  have lost : UpperHeld s0 s2 := upper_opt (s := s1) h fun h => upper_put (upper_bump h)
  have copied : UpperHeld s0 s3 := upper_opt lost fun h => upper_foldl h fun _ _ h => upper_cxlRecord h
  have sent : UpperHeld s0 s4 := upper_opt copied fun h => upper_foldl h fun _ _ h => upper_evIrq h
  split
  · exact upper_opt (upper_bbEvent sent) fun h => upper_put h
  · exact sent

theorem upper_enterEvent (h : UpperHeld s0 s) {e : EvRec} : UpperHeld s0 (s.enterEvent e).1 := by
  unfold State.enterEvent
  dsimp only
  split
  · exact upper_ite (upper_foldl (upper_bump h) fun _ _ h => upper_evIrq h) (upper_bump h)
  · exact upper_spreadEvent h

theorem upper_raiseOnce (h : UpperHeld s0 s) {f : FieldRef} {i cls : Nat} {a : EvArg}
    (low : f.reg.addr i < Reg.addr .BL_DEVICE_ID 0) : UpperHeld s0 (s.raiseOnce f i cls a).1 := by
  unfold State.raiseOnce
  dsimp only
  split
  · exact upper_enterEvent (upper_setF h low)
  · split
    · exact upper_setF h low
    · exact upper_bump (upper_setF h low)

theorem upper_raiseNotes (h : UpperHeld s0 s) {n : RaiseNote} : UpperHeld s0 (s.raiseNotes n) := by
  unfold State.raiseNotes
  have overflow : UpperHeld s0 (if n.overflow then (s.raiseOnce F.BB_STATUS.EV_OVERFLOW 0 1 .none).1 else s) :=
    upper_ite (upper_raiseOnce h (by decide)) h
  exact upper_ite (upper_raiseOnce overflow (by decide)) overflow

/-- A flag set in a register below BL_DEVICE_ID. -/
theorem upper_raiseArg (h : UpperHeld s0 s) {f : FieldRef} {i : Nat} {a : EvArg}
    (low : f.reg.addr i < Reg.addr .BL_DEVICE_ID 0 := by decide) : UpperHeld s0 (s.raiseArg f i a) := by
  unfold State.raiseArg
  split
  · exact upper_raiseNotes (upper_raiseOnce h low)
  · exact upper_setF h low

theorem upper_health (h : UpperHeld s0 s) {ix n : Nat} : UpperHeld s0 (s.health ix n) := upper_same h

/-- A line newly poisoned counts, logs and flags in registers of the PW block (02 R87). -/
theorem upper_poisonLine (h : UpperHeld s0 s) {l src : Nat} : UpperHeld s0 (s.poisonLine l src) := by
  unfold State.poisonLine
  exact upper_ite h (upper_raiseArg (upper_setReg (upper_health (upper_bump (upper_same h)))))

/-- The device keeps its name. -/
theorem UpperHeld.devId (h : UpperHeld s0 s) : s.devId = s0.devId := by
  have same : s.reg .BL_DEVICE_ID 0 = s0.reg .BL_DEVICE_ID 0 := by
    unfold State.reg SMap.findD
    rw [h _ le_rfl]
  exact congrArg (fun v => bitsOf v F.BL_DEVICE_ID.DEVICE_ID.lo F.BL_DEVICE_ID.DEVICE_ID.w) same

end Sys2Proof.Proofs
end

section
/-! PROOFS. Requests that end one after another (01 R44): each has its result, and the others stand. -/

namespace Sys2Proof.Proofs

open Sys2Proof Machine Laws Claims

/-- `t` is `s` but for its requests and the free values taken. -/
def Answered (s t : State) : Prop := ∃ reqs ix, t = { s with bay := { s.bay with reqs := reqs }, freeIx := ix }

/-- From `s` to `t` every request of `w` ends, with a result that `good` allows; no other request changes and none is new. -/
structure Ended (w : List Req) (good : Req → Resp → Prop) (s t : State) : Prop where
  ids : t.bay.reqs.map Req.id = s.bay.reqs.map Req.id
  ended : ∀ r ∈ w, ∃ p, good r p ∧ { r with st := .done p } ∈ t.bay.reqs
  others : ∀ x ∈ s.bay.reqs, (∀ r ∈ w, r.id ≠ x.id) → x ∈ t.bay.reqs
  only : ∀ x ∈ t.bay.reqs, x ∈ s.bay.reqs ∨ ∃ p, x.st = .done p

/-- One request replaced by its end. -/
theorem ended_putReq {s : State} {r : Req} {p : Resp} {good : Req → Resp → Prop} (here : r ∈ s.bay.reqs) (result : good r p) :
    Ended [r] good s (s.putReq { r with st := .done p }) where
  ids := by
    simp only [State.putReq, List.map_map]
    refine List.map_congr_left fun x _ => ?_
    simp only [Function.comp_apply]
    split
    · next same => exact same.symm
    · rfl
  ended := by
    intro x hx
    obtain rfl := List.mem_singleton.mp hx
    exact ⟨p, result, List.mem_map.mpr ⟨x, here, if_pos rfl⟩⟩
  others x hx apart := List.mem_map.mpr ⟨x, hx, if_neg (apart r (List.mem_singleton_self r)).symm⟩
  only := by
    intro y hy
    obtain ⟨x, hx, rfl⟩ := List.mem_map.mp hy
    split
    · exact .inr ⟨p, rfl⟩
    · exact .inl hx

/-- Ends that follow one another, of requests numbered apart. -/
theorem Ended.append {v w : List Req} {good : Req → Resp → Prop} {s t u : State} (first : Ended v good s t)
    (second : Ended w good t u) (apart : ∀ x ∈ v, ∀ y ∈ w, y.id ≠ x.id) : Ended (v ++ w) good s u where
  ids := second.ids.trans first.ids
  ended := by
    intro r hr
    rcases List.mem_append.mp hr with early | late
    · obtain ⟨p, result, there⟩ := first.ended r early
      exact ⟨p, result, second.others _ there (apart r early)⟩
    · exact second.ended r late
  others x hx none := second.others x (first.others x hx fun r hr => none r (List.mem_append_left w hr))
    fun r hr => none r (List.mem_append_right v hr)
  only x hx := (second.only x hx).elim (first.only x) .inr

/-- A loop whose every turn ends its request ends all of them. -/
theorem foldl_ended {f : State → Req → State} {good : Req → Resp → Prop} {s : State} (w : List Req)
    (step : ∀ t, Answered s t → ∀ r ∈ w, ∃ p n, good r p ∧ f t r = State.putReq { t with freeIx := n } { r with st := .done p })
    (numbered : (w.map Req.id).Nodup) (t : State) (before : Answered s t) (here : ∀ r ∈ w, r ∈ t.bay.reqs) :
    Answered s (w.foldl f t) ∧ Ended w good t (w.foldl f t) := by
  induction w generalizing t with
  | nil => exact ⟨before, rfl, fun _ hr => absurd hr List.not_mem_nil, fun _ hx _ => hx, fun _ hx => .inl hx⟩
  | cons r w ih =>
    obtain ⟨new, rest⟩ := List.nodup_cons.mp numbered
    have apart : ∀ y ∈ w, y.id ≠ r.id := fun y hy same => new (same ▸ List.mem_map_of_mem hy)
    obtain ⟨p, n, result, turn⟩ := step t before r List.mem_cons_self
    have one : Ended [r] good t (f t r) := by
      rw [turn]
      exact { ended_putReq (s := { t with freeIx := n }) (here r List.mem_cons_self) result with }
    have after : Answered s (f t r) := by
      obtain ⟨reqs, ix, rfl⟩ := before
      exact ⟨_, _, turn⟩
    obtain ⟨answered, others⟩ := ih (fun t ht x hx => step t ht x (List.mem_cons_of_mem r hx)) rest (f t r) after
      (fun x hx => one.others x (here x (List.mem_cons_of_mem r hx))
        (fun y hy => List.mem_singleton.mp hy ▸ (apart x hx).symm))
    exact ⟨answered, one.append others fun x hx => List.mem_singleton.mp hx ▸ apart⟩

end Sys2Proof.Proofs
end

section
/-! PROOFS. The end of a Crown fill (05 R156, R161; 02 R78, R81, R89; 12 Table 12.11): every read that waits for the line ends, with
its bytes, with zeros or with poison. -/

namespace Sys2Proof.Proofs

open Sys2Proof Machine Laws Claims

/-! What the end of a miss leaves alone. -/

section
variable {s v : State} {l : Nat}

/-- A line is put into tier D, or its frame into the queue for destage; nothing else changes. -/
theorem putTierD_eq (s : State) (l : Nat) (dirty : Bool) : s.putTierD l dirty = { s with
    dram := (s.putTierD l dirty).dram, lines := { s.lines with destageQ := (s.putTierD l dirty).lines.destageQ } } := by
  unfold State.putTierD
  dsimp only
  rw [allocD_eq]
  split
  · rfl
  · split <;> rfl

theorem keepD_eq (s : State) (l : Nat) : s.keepD l = { s with dram := (s.keepD l).dram } := by
  unfold State.keepD
  split
  · split
    · exact putTierD_clean_eq s l
    · rfl
  · rfl

theorem dropClean_eq (s : State) (l : Nat) : s.dropClean l = { s with crown := { s.crown with
    cells := (s.dropClean l).crown.cells, wrong := (s.dropClean l).crown.wrong } } := by
  unfold State.dropClean State.dropCrown
  split
  · split
    · rfl
    · split <;> rfl
  · rfl

/-- The miss of line `l` is over: its entry is gone, and bytes, dirty lines, poison marks, requests and the pair are as in `s`. -/
structure FillOver (l : Nat) (s v : State) : Prop where
  core : core v = core s
  bay : v.bay = s.bay
  misses : v.crown.misses = removeNum l s.crown.misses

theorem FillOver.mem (gone : FillOver l s v) : v.mem = s.mem := congrArg Core.mem gone.core

theorem FillOver.poison (gone : FillOver l s v) : v.lines.poison = s.lines.poison := congrArg Core.poison gone.core

/-- A step that touches cells, tier D and the lists of lines alone. -/
theorem FillOver.step {t : State} (gone : FillOver l s v) (parts : Proofs.core t = Proofs.core v := by rfl) (bay : t.bay = v.bay := by rfl)
    (misses : t.crown.misses = v.crown.misses := by rfl) : FillOver l s t :=
  ⟨parts.trans gone.core, bay.trans gone.bay, misses.trans gone.misses⟩

/-- The entry of a miss gone, and the next misses in its read queue. -/
def missTaken (s : State) (l : Nat) : State :=
  let t : State := { s with crown := { s.crown with
    misses := removeNum l s.crown.misses, verifies := removeNum l s.crown.verifies } }
  State.fillQueue { t with dram := { t.dram with
    dq := SMap.put t.dram.dq (t.subOf l) ((SMap.findD t.dram.dq (t.subOf l) []).filter (fun x => x.line != l)) } } (t.subOf l)

/-- A closed merge entry that waited for its base written back (02 R74). -/
def baseWritten (s : State) (l : Nat) : State :=
  if s.lines.closing.any (fun m => m.line == l && m.base) then
    State.putTierD { s with lines := { s.lines with closing := s.lines.closing.filter (fun m => m.line != l) } } l
      (SMap.has s.lines.dirty l)
  else s

/-- The way of a line no longer marked as filling. -/
def wayFilled (s : State) (l : Nat) : State :=
  match s.cellAt l with
  | some (k, c) => { s with crown := { s.crown with cells := SMap.put s.crown.cells k { c with filling := false } } }
  | none => s

theorem endFill_eq (s : State) (l : Nat) : s.endFill l = wayFilled (baseWritten (missTaken s l) l) l := by
  unfold wayFilled baseWritten missTaken
  rfl

/-- The end of a miss takes its entry and writes no register. -/
theorem endFill_leaves (s : State) (l : Nat) : FillOver l s (s.endFill l) ∧ (s.endFill l).regs = s.regs := by
  have taken : FillOver l s (missTaken s l) ∧ (missTaken s l).regs = s.regs := ⟨⟨rfl, rfl, rfl⟩, rfl⟩
  rw [endFill_eq]
  generalize missTaken s l = v at taken ⊢
  have written : FillOver l s (baseWritten v l) ∧ (baseWritten v l).regs = s.regs := by
    unfold baseWritten
    split
    · rw [putTierD_eq]
      exact ⟨taken.1.step, taken.2⟩
    · exact taken
  generalize baseWritten v l = v at written ⊢
  unfold wayFilled
  split
  · exact ⟨written.1.step, written.2⟩
  · exact written

theorem FillOver.keepD (gone : FillOver l s v) : FillOver l s (v.keepD l) := by
  rw [keepD_eq]
  exact gone.step

theorem FillOver.dropClean (gone : FillOver l s v) : FillOver l s (v.dropClean l) := by
  rw [dropClean_eq]
  exact gone.step

/-- After a miss is over and its reads are answered, the entry is gone, and bytes, dirty lines and marks stand. -/
theorem FillOver.answered {u : State} (gone : FillOver l s v) (answered : Answered v u) :
    l ∉ u.crown.misses ∧ u.mem = s.mem ∧ u.lines.dirty = s.lines.dirty ∧ u.lines.poison = s.lines.poison := by
  obtain ⟨reqs, ix, rfl⟩ := answered
  refine ⟨?_, gone.mem, congrArg Core.dirty gone.core, gone.poison⟩
  change l ∉ v.crown.misses
  rw [gone.misses]
  simp [removeNum]

end

/-! The reads that wait for a fill. -/

section
variable {s : State} {l : Nat}

theorem mem_fillWaiters {r : Req} : r ∈ s.fillWaiters l ↔ r ∈ s.bay.reqs ∧ lineOfOff r.offset = l ∧ r.st = .filling := by
  cases h : r.st <;> simp [State.fillWaiters, h]

theorem st_ne_done_of_mem_repairWaiters {r : Req} (waits : r ∈ s.repairWaiters l) (p : Resp) : r.st ≠ .done p := by
  intro ended
  obtain ⟨-, waits⟩ := List.mem_filter.mp waits
  simp [ended] at waits

/-- A read that waits for a fill is of the line's bolt. -/
theorem reqBolt_of_waiter {r : Req} (waits : r ∈ s.fillWaiters l) : reqBolt r = boltOfLine l := by
  obtain ⟨-, here, -⟩ := mem_fillWaiters.mp waits
  rw [← here, boltOfLine_lineOfOff]
  rfl

/-- The reads that wait are numbered apart where all requests are. -/
theorem fillWaiters_numbered (numbered : (s.bay.reqs.map Req.id).Nodup) : ((s.fillWaiters l).map Req.id).Nodup :=
  numbered.sublist (List.filter_sublist.map Req.id)

/-- Whether this device may complete reads of a bolt hangs on the entries, the pair's state and the device's name. -/
theorem stopsAt_congr {t : State} {b : Nat} (bolts : t.bay.bolts = s.bay.bolts) (bad : t.bay.crcBad = s.bay.crcBad)
    (twin : t.twin = s.twin) (name : t.devId = s.devId) : t.stopsAt b = s.stopsAt b := by
  unfold State.stopsAt State.mirrored State.isPair State.bound State.pairId State.entry
  rw [bolts, bad, twin, name]

/-- Reads answered leave what this device may complete. -/
theorem Answered.stopsAt {t : State} (answered : Answered s t) {b : Nat} : t.stopsAt b = s.stopsAt b := by
  obtain ⟨reqs, ix, rfl⟩ := answered
  exact stopsAt_congr rfl rfl rfl rfl

/-- Reads answered leave every byte. -/
theorem Answered.mem {t : State} (answered : Answered s t) : t.mem = s.mem := by
  obtain ⟨reqs, ix, rfl⟩ := answered
  rfl

/-- Reads answered poison nothing. -/
theorem Answered.isPoison {t : State} (answered : Answered s t) (x : Nat) : t.isPoison x = s.isPoison x := by
  obtain ⟨reqs, ix, rfl⟩ := answered
  rfl

theorem Answered.line {t : State} (answered : Answered s t) (x : Nat) : t.line x = s.line x := by
  unfold State.line
  rw [answered.mem]

/-- A read of an unpoisoned line of a bolt that this device may complete reads of ends with the bytes. -/
theorem finishRead_good {r : Req} (serves : s.stopsAt (reqBolt r) = none) (clean : s.isPoison (lineOfOff r.offset) = false) :
    s.finishRead r = s.finish r 0 (s.line (lineOfOff r.offset)) false := by
  simp only [State.finishRead, serves, clean, Option.isSome_none, Bool.and_false, Bool.false_eq_true, if_false]

/-- A read of a poisoned line ends with POISON_SEEN over a free line (02 R89). -/
theorem finishRead_poisoned {r : Req} (serves : s.stopsAt (reqBolt r) = none) (bad : s.isPoison (lineOfOff r.offset) = true) :
    s.finishRead r = s.badRead r := by
  simp only [State.finishRead, serves, bad, Option.isSome_none, Bool.and_false, Bool.false_eq_true, if_false, if_true,
    State.badRead]

/-- All reads that wait for a line end, where each turn of the loop over them ends its own. -/
theorem waiters_ended {v : State} {f : State → Req → State} {good : Req → Resp → Prop} (gone : v.bay = s.bay)
    (numbered : (s.bay.reqs.map Req.id).Nodup)
    (step : ∀ t, Answered v t → ∀ r ∈ s.fillWaiters l,
      ∃ p n, good r p ∧ f t r = State.putReq { t with freeIx := n } { r with st := .done p }) :
    Answered v ((s.fillWaiters l).foldl f v) ∧ Ended (s.fillWaiters l) good v ((s.fillWaiters l).foldl f v) :=
  foldl_ended _ step (fillWaiters_numbered numbered) v ⟨_, _, rfl⟩
    (fun _ hr => gone ▸ (mem_fillWaiters.mp hr).1)

end

/-! A good read, and one of a tenant without its key. -/

section
variable {s : State} {l : Nat}

/-- The result of a good read of line `l`. -/
def goodResp (s : State) (l : Nat) : Resp := { code := 0, data := s.line l, poison := false }

/-- The result of a read that meets poison: POISON_SEEN, and a free line with the poison indicator (log entry 2). -/
def PoisonResp (_ : Req) (p : Resp) : Prop := ∃ k, p = { code := 1, data := Config.openLine k, poison := true }

/-- The result of a read without a key: zeros, for a host with no code. -/
def ZeroResp (r : Req) (p : Resp) : Prop := ∀ port ld tag, r.who = .host port ld tag → p = { code := 0, data := 0#512, poison := false }

/-- The line is whole and its miss over; what a good fill leaves to its readers (05 R156). -/
def lineFilled (s : State) (l : Nat) : State :=
  (State.endFill { s with lines := { s.lines with mask := SMap.del s.lines.mask l } } l).keepD l

theorem goodFill_eq (s : State) (l : Nat) : s.goodFill l = (s.fillWaiters l).foldl State.finishRead (lineFilled s l) := rfl

theorem lineFilled_leaves (s : State) (l : Nat) : FillOver l s (lineFilled s l) ∧ (lineFilled s l).regs = s.regs := by
  obtain ⟨gone, regs⟩ := endFill_leaves { s with lines := { s.lines with mask := SMap.del s.lines.mask l } } l
  unfold lineFilled
  refine ⟨⟨gone.keepD.core, gone.keepD.bay, gone.keepD.misses⟩, ?_⟩
  rw [keepD_eq]
  exact regs

/-- A good fill ends every waiting read of an unpoisoned line with its bytes (05 R156, 02 R89). -/
theorem goodFill_serves (numbered : (s.bay.reqs.map Req.id).Nodup) (serves : s.stopsAt (boltOfLine l) = none)
    (clean : s.isPoison l = false) : Answered (lineFilled s l) (s.goodFill l)
      ∧ Ended (s.fillWaiters l) (fun _ p => p = goodResp s l) (lineFilled s l) (s.goodFill l) := by
  obtain ⟨gone, regs⟩ := lineFilled_leaves s l
  rw [goodFill_eq]
  generalize lineFilled s l = v at gone regs ⊢
  refine waiters_ended gone.bay numbered fun t answered r waits => ⟨goodResp s l, t.freeIx, rfl, ?_⟩
  have may : v.stopsAt (reqBolt r) = none := by
    rw [reqBolt_of_waiter waits, ← serves]
    exact stopsAt_congr (congrArg BaySt.bolts gone.bay) (congrArg BaySt.crcBad gone.bay) (congrArg Core.twin gone.core)
      (get_of_regs regs F.BL_DEVICE_ID.DEVICE_ID)
  have marks : v.isPoison l = false := by
    unfold State.isPoison at clean ⊢
    rwa [gone.poison]
  have bytes : v.line l = s.line l := by
    unfold State.line
    rw [gone.mem]
  obtain ⟨-, here, -⟩ := mem_fillWaiters.mp waits
  rw [finishRead_good (answered.stopsAt.trans may) (here.symm ▸ (answered.isPoison l).trans marks), here, answered.line, bytes]
  rfl

/-- A read of a tenant without its key ends with zeros (12 Table 12.11). -/
def zeroRead (s : State) (r : Req) : State :=
  s.finish r (match r.who with | .queue _ _ | .engine _ _ | .part _ => 10 | _ => 0) 0#512 false

/-- The miss of a tenant without its key over and counted; the Crown keeps nothing of it. -/
def keylessFilled (s : State) (l : Nat) : State := ((s.endFill l).dropClean l).bump F.XT_COUNT.KEY_EMPTY_READS 0 1

theorem zeroFill_eq (s : State) (l : Nat) : s.zeroFill l = (s.fillWaiters l).foldl zeroRead (keylessFilled s l) := rfl

theorem core_bump (s : State) (f : FieldRef) (i n : Nat) : core (s.bump f i n) = core s := rfl

theorem keylessFilled_leaves (s : State) (l : Nat) : FillOver l s (keylessFilled s l) := by
  have gone := (endFill_leaves s l).1.dropClean
  unfold keylessFilled
  generalize (s.endFill l).dropClean l = v at gone ⊢
  exact gone.step (core_bump v _ 0 1) (bump_bay v _ 0 1) (congrArg CrownSt.misses (bump_crown v _ 0 1))

/-- A fill of a tenant without its key ends every waiting read with zeros (12 Table 12.11). -/
theorem zeroFill_serves (numbered : (s.bay.reqs.map Req.id).Nodup) : Answered (keylessFilled s l) (s.zeroFill l)
    ∧ Ended (s.fillWaiters l) ZeroResp (keylessFilled s l) (s.zeroFill l) := by
  rw [zeroFill_eq]
  refine waiters_ended (keylessFilled_leaves s l).bay numbered fun t _ r _ => ⟨_, t.freeIx, ?_, rfl⟩
  intro port ld tag host
  rw [host]

end

/-! A read that cannot be recovered. -/

section
variable {s : State} {l src : Nat}

/-- The twin's own reads of a lost line are answered with poison before anything else (02 R79). -/
def twinRefused (s : State) (l : Nat) : State := ((s.fillWaiters l).filter fromTwin).foldl State.badRead s

/-- A line poisoned, its mask gone (02 R72, R81). -/
def linePoisoned (s : State) (l src : Nat) : State :=
  let t := (s.poisonLine l src).frameOutcome l 5
  { t with lines := { t.lines with mask := SMap.del t.lines.mask l } }

theorem frameOutcome_eq (s : State) (l c : Nat) : s.frameOutcome l c = { s with flash := (s.frameOutcome l c).flash } := by
  unfold State.frameOutcome State.classCount
  dsimp only
  split <;> rfl

/-- A poisoned line is marked, and the requests, the pair and the device's name stand. -/
theorem linePoisoned_leaves (s : State) (l src : Nat) : let t := linePoisoned s l src
    (∀ x, t.isPoison x = (s.isPoison x || x == l)) ∧ t.bay = s.bay ∧ t.twin = s.twin ∧ t.devId = s.devId
    ∧ t.mem = (s.poisonLine l src).mem := by
  obtain ⟨-, -, bay, twin⟩ := poisonLine_leaves s l src
  have marks := isPoison_poisonLine s l src
  have name := (upper_poisonLine (upper_refl s) (l := l) (src := src)).devId
  unfold linePoisoned
  rw [frameOutcome_eq]
  exact ⟨marks, bay, twin, name, rfl⟩

/-- Poisoning a line leaves the bytes of the others. -/
theorem readByte_poisonLine (wf : memWf s.mem = true) {b : Nat} (other : lineOfOff b ≠ l) :
    readByte (s.poisonLine l src).mem b = readByte s.mem b := by
  cases marked : s.isPoison l with
  | true =>
    have same : s.poisonLine l src = s := if_pos marked
    rw [same]
  | false =>
    rw [show (s.poisonLine l src).mem = _ from congrArg Hush.mem (hush_poisonLine marked)]
    refine (readByte_writeLineUpTo wf l _ 0#512 64 b).trans (if_neg ?_)
    rintro ⟨from_, upTo, -⟩
    unfold lineOfOff at other
    omega

/-- Reads answered leave what the twin has a copy of. -/
theorem Answered.hasTwinCopy {t : State} (answered : Answered s t) (sp : Nat) : t.hasTwinCopy sp = s.hasTwinCopy sp := by
  obtain ⟨reqs, ix, rfl⟩ := answered
  rfl

theorem twinRefused_ended (numbered : (s.bay.reqs.map Req.id).Nodup) : Answered s (twinRefused s l)
    ∧ Ended ((s.fillWaiters l).filter fromTwin) PoisonResp s (twinRefused s l) :=
  foldl_ended _ (fun t _ _ _ => ⟨_, t.freeIx + 1, ⟨t.freeIx, rfl⟩, rfl⟩)
    ((fillWaiters_numbered numbered).sublist (List.filter_sublist.map Req.id)) s ⟨_, _, rfl⟩
    (fun _ hr => (mem_fillWaiters.mp (List.mem_of_mem_filter hr)).1)

/-- An uncorrectable line of which the twin has no copy: the twin's reads end first, then the line is poisoned (02 R81). -/
theorem startRepair_alone (numbered : (s.bay.reqs.map Req.id).Nodup) (alone : s.hasTwinCopy (spanOfLine l) = false) :
    s.startRepair l src = (twinRefused (s.loseBytes l) l).poisonRead l src := by
  have none : (twinRefused (s.loseBytes l) l).hasTwinCopy (spanOfLine l) = false :=
    ((twinRefused_ended (s := s.loseBytes l) numbered).1.hasTwinCopy _).trans alone
  exact if_neg (Bool.eq_false_iff.mp none)

/-- With no repair under way, poisoning a line ends the reads that wait for its fill. -/
theorem poisonRead_eq (noRepair : s.repairWaiters l = []) :
    s.poisonRead l src = (s.fillWaiters l).foldl State.finishRead ((linePoisoned s l src).endFill l) := by
  simp only [State.poisonRead, noRepair, List.append_nil]
  rfl

theorem poisonRead_ended (numbered : (s.bay.reqs.map Req.id).Nodup) (serves : s.stopsAt (boltOfLine l) = none)
    (noRepair : s.repairWaiters l = []) :
    let v := (linePoisoned s l src).endFill l
    Answered v (s.poisonRead l src) ∧ Ended (s.fillWaiters l) PoisonResp v (s.poisonRead l src) := by
  obtain ⟨marks, bay, twin, name, -⟩ := linePoisoned_leaves s l src
  obtain ⟨gone, regs⟩ := endFill_leaves (linePoisoned s l src) l
  rw [poisonRead_eq noRepair]
  generalize linePoisoned s l src = p at marks bay twin name gone regs ⊢
  dsimp only
  generalize p.endFill l = v at gone regs ⊢
  have bay := gone.bay.trans bay
  refine waiters_ended bay numbered fun t answered r waits => ⟨_, t.freeIx + 1, ⟨t.freeIx, rfl⟩, ?_⟩
  have may : v.stopsAt (reqBolt r) = none := by
    rw [reqBolt_of_waiter waits, ← serves]
    exact stopsAt_congr (congrArg BaySt.bolts bay) (congrArg BaySt.crcBad bay) ((congrArg Core.twin gone.core).trans twin)
      ((get_of_regs regs F.BL_DEVICE_ID.DEVICE_ID).trans name)
  have marked : v.isPoison l = true := by
    have mark := marks l
    unfold State.isPoison at mark ⊢
    rw [gone.poison, mark, beq_self_eq_true, Bool.or_true]
  obtain ⟨-, here, -⟩ := mem_fillWaiters.mp waits
  rw [finishRead_poisoned (answered.stopsAt.trans may) (here.symm ▸ (answered.isPoison l).trans marked)]
  rfl

/-- Requests numbered apart are told by their numbers. -/
theorem eq_of_id {x y : Req} (numbered : (s.bay.reqs.map Req.id).Nodup) (hx : x ∈ s.bay.reqs) (hy : y ∈ s.bay.reqs)
    (same : x.id = y.id) : x = y := List.inj_on_of_nodup_map numbered hx hy same

/-- Ended reads wait for no repair. -/
theorem Ended.repairWaiters {t : State} {w : List Req} {good : Req → Resp → Prop} (ended : Ended w good s t)
    (noRepair : s.repairWaiters l = []) : t.repairWaiters l = [] := by
  refine List.filter_eq_nil_iff.mpr fun x hx waits => ?_
  rcases ended.only x hx with was | ⟨p, done⟩
  · exact List.filter_eq_nil_iff.mp noRepair x was waits
  · exact st_ne_done_of_mem_repairWaiters (List.mem_filter.mpr ⟨hx, waits⟩) p done

/-- A read that cannot be recovered, with no good copy at the twin, ends every waiting read with poison (02 R81, R89). -/
theorem startRepair_ended (numbered : (s.bay.reqs.map Req.id).Nodup) (serves : s.stopsAt (boltOfLine l) = none)
    (alone : s.hasTwinCopy (spanOfLine l) = false) (noRepair : s.repairWaiters l = []) :
    ∀ r ∈ s.fillWaiters l, ∃ p, PoisonResp r p ∧ { r with st := .done p } ∈ (s.startRepair l src).bay.reqs := by
  rw [startRepair_alone numbered alone]
  obtain ⟨answered, first⟩ := twinRefused_ended (s := s.loseBytes l) (l := l) numbered
  have bay := (endFill_leaves (linePoisoned (twinRefused (s.loseBytes l) l) l src) l).1.bay.trans
    (linePoisoned_leaves (twinRefused (s.loseBytes l) l) l src).2.1
  generalize twinRefused (s.loseBytes l) l = t at answered first bay ⊢
  have numbered' : (t.bay.reqs.map Req.id).Nodup := first.ids ▸ numbered
  obtain ⟨-, second⟩ := poisonRead_ended (src := src) numbered' (answered.stopsAt.trans serves) (first.repairWaiters noRepair)
  intro r waits
  obtain ⟨inHand, here, filling⟩ := mem_fillWaiters.mp waits
  by_cases twins : fromTwin r = true
  · obtain ⟨p, poison, ended⟩ := first.ended r (List.mem_filter.mpr ⟨waits, twins⟩)
    refine ⟨p, poison, second.others _ (bay ▸ ended) fun x hx same => ?_⟩
    obtain ⟨inHand', -, filling'⟩ := mem_fillWaiters.mp hx
    rw [eq_of_id numbered' inHand' ended same] at filling'
    cases filling'
  · have stays : r ∈ t.bay.reqs := first.others r inHand fun x hx same => by
      obtain ⟨hx, twin⟩ := List.mem_filter.mp hx
      exact twins (eq_of_id numbered (mem_fillWaiters.mp hx).1 inHand same ▸ twin)
    exact second.ended r (mem_fillWaiters.mpr ⟨stays, here, filling⟩)

/-- Such a read poisons its line, ends the miss, and leaves the marks and the bytes of the other lines. -/
theorem startRepair_leaves (numbered : (s.bay.reqs.map Req.id).Nodup) (serves : s.stopsAt (boltOfLine l) = none)
    (alone : s.hasTwinCopy (spanOfLine l) = false) (noRepair : s.repairWaiters l = []) : let u := s.startRepair l src
    (∀ x, u.isPoison x = (s.isPoison x || x == l)) ∧ l ∉ u.crown.misses
    ∧ (memWf s.mem = true → ∀ b, lineOfOff b ≠ l → readByte u.mem b = readByte s.mem b) := by
  rw [startRepair_alone numbered alone]
  obtain ⟨answered, first⟩ := twinRefused_ended (s := s.loseBytes l) (l := l) numbered
  generalize twinRefused (s.loseBytes l) l = t at answered first ⊢
  have numbered' : (t.bay.reqs.map Req.id).Nodup := first.ids ▸ numbered
  obtain ⟨ended, -⟩ := poisonRead_ended (src := src) numbered' (answered.stopsAt.trans serves) (first.repairWaiters noRepair)
  obtain ⟨marks, -, -, -, bytes⟩ := linePoisoned_leaves t l src
  obtain ⟨gone, mem, -, poison⟩ := (endFill_leaves (linePoisoned t l src) l).1.answered ended
  refine ⟨fun x => ?_, gone, fun wf b other => ?_⟩
  · have same : t.isPoison x = s.isPoison x := answered.isPoison x
    rw [← same, ← marks x]
    unfold State.isPoison
    rw [poison]
  · have same : t.mem = s.mem := answered.mem
    rw [← same] at wf ⊢
    rw [mem, bytes, readByte_poisonLine wf other]

end

/-! The fill of a frame (05 R156). -/

section
variable {s : State} {line at_ : Nat} {ok : Bool}

/-- CROWN_FILL_DONE of a missing line outside tier D that no repair waits for. -/
theorem exec_frameFill (missing : s.crown.misses.contains line = true) (below : s.inTierD line = false)
    (noRepair : s.repairWaiters line = []) {u : State} (fill : (s.tick at_).frameFill line ok = u) :
    exec (.crownFillDone line (.frame ok) at_) s = .next (State.settle u) := by
  have below' : (s.tick at_).inTierD line = false := below
  have noRepair' : (s.tick at_).repairWaiters line = [] := noRepair
  simp only [exec_crownFillDone, execCrownFillDone, noRepair', List.isEmpty_nil, Bool.not_true, Bool.false_eq_true, if_false,
    tick_crown, missing, below', Bool.not_false, Bool.and_self, Bool.or_true, if_true, fill]

theorem frameFill_good (written : s.written (frameOfLine line) = true) (key : s.keyGone (s.tenantOf (boltOfLine line)) = false)
    (loaded : s.keyLoaded (s.tenantOf (boltOfLine line)) = true) (own : s.twinFirst (frameOfLine line) = false) :
    s.frameFill line true = s.goodFill line := by
  simp only [State.frameFill, written, key, loaded, own, Bool.not_true, Bool.not_false, Bool.and_self, Bool.false_or,
    Bool.false_eq_true, if_false, if_true, ite_self]

theorem frameFill_keyless (written : s.written (frameOfLine line) = true) (durable : s.volatile (boltOfLine line) = false)
    (key : s.keyGone (s.tenantOf (boltOfLine line)) = true) : s.frameFill line ok = s.zeroFill line := by
  simp only [State.frameFill, written, durable, key, Bool.not_true, Bool.or_self, Bool.false_eq_true, if_false, if_true]

theorem frameFill_bad (written : s.written (frameOfLine line) = true) (durable : s.volatile (boltOfLine line) = false)
    (key : s.keyGone (s.tenantOf (boltOfLine line)) = false) (whole : s.unitStopped line = false) :
    s.frameFill line false = s.startRepair line (s.lineTier line) := by
  simp only [State.frameFill, State.badFrame, written, durable, key, whole, Bool.not_true, Bool.or_self, Bool.false_and,
    Bool.false_eq_true, if_false]

end

/-- Settles O36: a good fill, zeros without a key, and a line poisoned. -/
theorem crownFillServesItsReaders : Obligations.CrownFillServesItsReaders := by
  intro s line at_ t ends missing below noRepair written numbered serves
  let now := s.tick at_
  refine ⟨fun key loaded own clean => ?_, fun ok durable key => ?_, fun durable key whole alone => ?_⟩
  · obtain ⟨answered, ended⟩ := goodFill_serves (s := now) numbered serves clean
    refine ⟨now.goodFill line, ?_, fun r waits => ?_, (lineFilled_leaves now line).1.answered answered⟩
    · exact exec_frameFill missing below noRepair (frameFill_good (s := now) written key loaded own)
    · obtain ⟨p, rfl, there⟩ := ended.ended r waits
      exact there
  · obtain ⟨answered, ended⟩ := zeroFill_serves (s := now) (l := line) numbered
    refine ⟨now.zeroFill line, ?_, fun r waits port ld tag host => ?_, (keylessFilled_leaves now line).answered answered⟩
    · exact exec_frameFill missing below noRepair (frameFill_keyless (s := now) written durable key)
    · obtain ⟨p, zeros, there⟩ := ended.ended r waits
      rwa [zeros port ld tag host] at there
  · obtain ⟨marks, gone, bytes⟩ :=
      startRepair_leaves (s := now) (src := now.lineTier line) numbered serves alone noRepair
    refine ⟨now.startRepair line (now.lineTier line), ?_, fun r waits => ?_, ?_, gone, fun x other => ?_, bytes⟩
    · exact exec_frameFill missing below noRepair (frameFill_bad (s := now) written durable key whole)
    · obtain ⟨p, ⟨k, rfl⟩, there⟩ := startRepair_ended (s := now) numbered serves alone noRepair r waits
      exact ⟨k, there⟩
    · rw [marks, beq_self_eq_true, Bool.or_true]
    · rw [marks, beq_false_of_ne other, Bool.or_false]
      rfl

end Sys2Proof.Proofs
end

section
/-! PROOFS. Ways that power down and up, and the seed of the slices (05 R158, R163 to R165). -/

namespace Sys2Proof.Proofs

open Sys2Proof Machine Laws Claims

/-! What a flag leaves, and the word of a register whose every field is written. -/

section
variable {s : State}

theorem hush_raise (s : State) (f : FieldRef) : hush (s.raise f) = hush s := HushSame.eq (flagged_raise (flagged_refl s))

/-- A one-bit flag that is raised is set. -/
theorem getF_raise (wf : RegsOrdered s) (f : FieldRef) (bits : f.lo + f.w ≤ 64) (one : f.w = 1)
    (stat : f.reg.addr 0 ≠ Reg.addr .BB_EV_STAT 0) (status : f.reg.addr 0 ≠ Reg.addr .BB_STATUS 0) : (s.raise f).getF f 0 = 1 := by
  rw [show s.raise f = s.raiseArg f 0 .none from rfl, raiseArg_getF wf f 0 .none bits stat status, one]
  rfl

/-- A word without bits outside `k` is its bits in `k`. -/
theorem and_known {x k : Word} (known : x &&& ~~~k = 0#64) : x &&& k = x := by
  calc x &&& k = (x &&& k) ||| (x &&& ~~~k) := by rw [known, BitVec.or_zero]
    _ = x := by rw [← BitVec.and_or_distrib_left, BitVec.or_not_self, BitVec.and_allOnes]

/-- A register whose known bits are all written by value reads what was written whole to it. -/
theorem reg_writeFields_full (wf : RegsOrdered s) {r : Reg} {i : Nat} {v : Word} (plain : accBits r .rw ||| accBits r .wo = knownBits r)
    (noClear : accBits r .w1c = 0#64) (was : s.reg r i &&& ~~~(knownBits r) = 0#64) (known : v &&& ~~~(knownBits r) = 0#64) :
    (s.writeFields r i .full v false).reg r i = v := by
  have full : accMask .full = BitVec.allOnes 64 := rfl
  unfold State.writeFields
  rw [reg_setReg wf]
  simp only [Bool.false_eq_true, if_false, full, plain, noClear, BitVec.and_allOnes, BitVec.and_zero, BitVec.not_zero, was,
    BitVec.zero_or]
  exact and_known known

/-- Words with the same low half. -/
theorem bitsOf_low_congr {x y : Word} (same : ∀ b < 32, x.getLsbD b = y.getLsbD b) : bitsOf x 0 32 = bitsOf y 0 32 := by
  have low (v : Word) : bitsOf v 0 32 = (v.setWidth 32).toNat := by
    simp only [bitsOf, pow_zero, Nat.div_one, BitVec.toNat_setWidth]
  rw [low, low]
  refine congrArg BitVec.toNat (BitVec.eq_of_getLsbD_eq fun b hb => ?_)
  simp only [BitVec.getLsbD_setWidth, same b hb]

end

/-! The state of a way. -/

section
variable {s : State} {way : Nat}

/-- A way set reads back, and the others stand. -/
theorem waySt_setWay (eight : s.crown.ways.length = 8) (low : 8 ≤ way) (high : way < 16) (x : WaySt) {k : Nat} (own : 8 ≤ k) :
    (s.setWay way x).waySt k = if k = way then x else s.waySt k := by
  have place : k - 8 = way - 8 ↔ k = way := by omega
  have there : way - 8 < s.crown.ways.length := by omega
  unfold State.setWay State.waySt
  rw [if_neg own.not_gt, if_neg own.not_gt, List.getD_eq_getElem?_getD, List.getD_eq_getElem?_getD, List.getElem?_set]
  by_cases here : k = way
  · subst here
    simp [there]
  · rw [if_neg fun e => here (place.mp e.symm), if_neg here]

/-- What a written OFF_REQ bit makes of a way (05 R164, R165, Table 5.1). -/
def wayAsked (x : WaySt) (off : Bool) : WaySt :=
  match x, off with
  | .on, true => .cleaning
  | .cleaning, false => .on
  | .off, false => .waking
  | x, _ => x

/-- Only the states of ways changed, and registers beside CR_WAY_PWR. -/
structure WaysOnly (s t : State) : Prop where
  rest : hush t = { hush s with crown := { s.crown with ways := t.crown.ways, wayAgain := t.crown.wayAgain } }
  length : t.crown.ways.length = s.crown.ways.length
  regs : RegsOrdered s → RegsOrdered t ∧ t.reg .CR_WAY_PWR 0 = s.reg .CR_WAY_PWR 0

theorem waysOnly_refl (s : State) : WaysOnly s s := ⟨rfl, rfl, fun wf => ⟨wf, rfl⟩⟩

theorem WaysOnly.trans {t u : State} (h : WaysOnly s t) (k : WaysOnly t u) : WaysOnly s u where
  rest := by
    have crown : t.crown = _ := congrArg Hush.crown h.rest
    rw [k.rest, h.rest, crown]
  length := k.length.trans h.length
  regs wf := by
    obtain ⟨wft, first⟩ := h.regs wf
    obtain ⟨wfu, second⟩ := k.regs wft
    exact ⟨wfu, second.trans first⟩

theorem WaysOnly.mem {t : State} (h : WaysOnly s t) : t.mem = s.mem := congrArg Hush.mem h.rest

theorem WaysOnly.lines {t : State} (h : WaysOnly s t) : t.lines = s.lines := congrArg Hush.lines h.rest

theorem WaysOnly.cells {t : State} (h : WaysOnly s t) : t.crown.cells = s.crown.cells :=
  congrArg (fun h : Hush => h.crown.cells) h.rest

theorem waysOnly_setWay (s : State) (way : Nat) (x : WaySt) : WaysOnly s (s.setWay way x) :=
  ⟨rfl, List.length_set, fun wf => ⟨wf, rfl⟩⟩

/-- A flag of CR_STATUS. -/
theorem waysOnly_raise (s : State) (f : FieldRef) (status : f.reg = .CR_STATUS) : WaysOnly s (s.raise f) where
  rest := by
    have crown : (s.raise f).crown = s.crown := congrArg Hush.crown (hush_raise s f)
    rw [hush_raise, crown]
    rfl
  length := congrArg (fun h : Hush => h.crown.ways.length) (hush_raise s f)
  regs wf := ⟨wf_raiseArg wf f 0 .none,
    raiseArg_reg wf f 0 .none .CR_WAY_PWR 0 (by decide) (by decide) (by rw [status]; decide)⟩

theorem waysOnly_wayReq (s : State) (way : Nat) (off : Bool) : WaysOnly s (s.wayReq way off) := by
  unfold State.wayReq
  split
  · exact waysOnly_setWay s way _
  · exact ⟨rfl, rfl, fun wf => ⟨wf, rfl⟩⟩
  · exact ⟨rfl, rfl, fun wf => ⟨wf, rfl⟩⟩
  · exact (waysOnly_setWay s way _).trans (waysOnly_raise _ _ rfl)
  · exact waysOnly_setWay s way _
  · exact waysOnly_refl s

theorem waySt_raise (s : State) (f : FieldRef) (k : Nat) : (s.raise f).waySt k = s.waySt k := by
  unfold State.waySt
  rw [show (s.raise f).crown = s.crown from congrArg Hush.crown (hush_raise s f)]

/-- The written bit of a way acts on that way alone. -/
theorem waySt_wayReq (eight : s.crown.ways.length = 8) (low : 8 ≤ way) (high : way < 16) (off : Bool) {k : Nat} (own : 8 ≤ k) :
    (s.wayReq way off).waySt k = if k = way then wayAsked (s.waySt way) off else s.waySt k := by
  have unmoved (same : wayAsked (s.waySt way) off = s.waySt way) :
      s.waySt k = if k = way then wayAsked (s.waySt way) off else s.waySt k := by
    rw [same]
    split
    · next here => rw [here]
    · rfl
  unfold State.wayReq
  cases st : s.waySt way <;> cases off <;> rw [st] at unmoved
  case on.true => exact waySt_setWay eight low high _ own
  case cleaning.false => exact (waySt_raise _ _ k).trans (waySt_setWay eight low high _ own)
  case off.false => exact waySt_setWay eight low high _ own
  all_goals exact unmoved rfl

/-- The bits of a written word asked of ways one after another. -/
def waysAsked (s : State) (req : Word) (ks : List Nat) : State :=
  ks.foldl (fun s k => s.wayReq (k + 8) (req.getLsbD (k + 8))) s

theorem waysOnly_waysAsked (s : State) (req : Word) (ks : List Nat) : WaysOnly s (waysAsked s req ks) :=
  foldl_keeps (P := WaysOnly s) _ (fun t k h => h.trans (waysOnly_wayReq t (k + 8) _)) ks s (waysOnly_refl s)

/-- Each way asked once goes where its bit says. -/
theorem waySt_waysAsked (req : Word) (ks : List Nat) (eight : s.crown.ways.length = 8) (ways : ∀ k ∈ ks, k < 8) (once : ks.Nodup)
    (j : Nat) : (waysAsked s req ks).waySt (j + 8)
      = if j ∈ ks then wayAsked (s.waySt (j + 8)) (req.getLsbD (j + 8)) else s.waySt (j + 8) := by
  induction ks generalizing s with
  | nil => rfl
  | cons k ks ih =>
    obtain ⟨new, once⟩ := List.nodup_cons.mp once
    have inRange : k < 8 := ways k List.mem_cons_self
    have first := waySt_wayReq (s := s) eight (Nat.le_add_left 8 k) (Nat.add_lt_add_right inRange 8) (req.getLsbD (k + 8))
      (Nat.le_add_left 8 j)
    have rest := ih (s := s.wayReq (k + 8) (req.getLsbD (k + 8))) ((waysOnly_wayReq s _ _).length.trans eight)
      (fun x hx => ways x (List.mem_cons_of_mem k hx)) once
    refine rest.trans ?_
    by_cases here : j = k
    · subst here
      rw [if_neg new, first, if_pos rfl, if_pos List.mem_cons_self]
    · have apart : j + 8 ≠ k + 8 := fun same => here (Nat.add_right_cancel same)
      simp only [first, apart, if_false, List.mem_cons, here, false_or]

end

/-! CR_WAY_PWR written (05 Table 5.3). -/

section
variable {s : State} {via : Via} {way : Nat} {v : Word}

/-- CR_WAY_PWR with a word of OFF_REQ bits written. -/
def waysWritten (s : State) (v : Word) : State := waysAsked (s.writeFields .CR_WAY_PWR 0 .full v false) v (List.range 8)

theorem writeWays_served (wf : RegsOrdered s) (served : Served s via (accOff .CR_WAY_PWR 0 .full))
    (was : s.reg .CR_WAY_PWR 0 &&& ~~~(knownBits .CR_WAY_PWR) = 0#64) (known : v &&& ~~~(knownBits .CR_WAY_PWR) = 0#64) :
    s.writeWays via .full v = (waysWritten s v).settle := by
  have noRsv : NoRsv .CR_WAY_PWR .full v := by
    rw [NoRsv, show accValue .full v &&& accMask .full = v from BitVec.and_allOnes]
    exact known
  have reads := reg_writeFields_full wf rfl rfl was known
  unfold State.writeWays
  rw [writeAt_taken served rfl rfl noRsv]
  dsimp only
  rw [reads]
  rfl

/-- After the write each way stands where its bit sends it, the register reads the word, and bytes, lines and cells stand. -/
theorem waysWritten_leaves (wf : RegsOrdered s) (eight : s.crown.ways.length = 8)
    (was : s.reg .CR_WAY_PWR 0 &&& ~~~(knownBits .CR_WAY_PWR) = 0#64) (known : v &&& ~~~(knownBits .CR_WAY_PWR) = 0#64)
    (low : 8 ≤ way) (high : way < 16) : let u := waysWritten s v
    u.waySt way = wayAsked (s.waySt way) (v.getLsbD way) ∧ u.reg .CR_WAY_PWR 0 = v
    ∧ u.mem = s.mem ∧ u.lines = s.lines ∧ u.crown.cells = s.crown.cells := by
  have wft : RegsOrdered (s.writeFields .CR_WAY_PWR 0 .full v false) := wf_setReg wf _ _ _
  have reads := reg_writeFields_full wf rfl rfl was known
  obtain ⟨regs, eq⟩ : ∃ regs, s.writeFields .CR_WAY_PWR 0 .full v false = { s with regs := regs } := ⟨_, rfl⟩
  unfold waysWritten
  rw [eq] at wft reads ⊢
  have only := waysOnly_waysAsked { s with regs := regs } v (List.range 8)
  have asked := waySt_waysAsked (s := { s with regs := regs }) v (List.range 8) eight (fun _ => List.mem_range.mp)
    List.nodup_range (way - 8)
  rw [if_pos (List.mem_range.mpr (by omega)), Nat.sub_add_cancel low] at asked
  exact ⟨asked, (only.regs wft).2.trans reads, only.mem, only.lines, only.cells⟩

/-- The bit of a way lies in OFF_REQ. -/
theorem wayBit_known (low : 8 ≤ way) (high : way < 16) : (1#64 <<< way) &&& ~~~(knownBits .CR_WAY_PWR) = 0#64 := by
  interval_cases way <;> rfl

theorem getLsbD_wayBit (high : way < 16) : (1#64 <<< way).getLsbD way = true := by
  simp [BitVec.getLsbD_shiftLeft]
  omega

end

/-! A way emptied (05 R164): where its dirty lines go. -/

section
variable {s : State}

/-- The bytes of the range and the dirty lines. -/
def dirtyPart (s : State) : List Host.Cell × SMap Dirty := (s.mem, s.lines.dirty)

theorem dirtyPart_raise (s : State) (f : FieldRef) : dirtyPart (s.raise f) = dirtyPart s :=
  congrArg (fun h : Hush => (h.mem, h.lines.dirty)) (hush_raise s f)

theorem dirtyPart_bump (s : State) (f : FieldRef) (i n : Nat) : dirtyPart (s.bump f i n) = dirtyPart s := rfl

theorem dirtyPart_readBeats (s : State) (l : Nat) : dirtyPart (s.readBeats l) = dirtyPart s := by
  unfold State.readBeats
  split
  · rfl
  · exact (dirtyPart_raise _ _).trans (dirtyPart_bump s _ 0 1)
  · exact (dirtyPart_raise _ _).trans (dirtyPart_bump s _ 0 1)

theorem dirtyPart_putTierD (s : State) (l : Nat) (dirty : Bool) : dirtyPart (s.putTierD l dirty) = dirtyPart s := by
  rw [putTierD_eq]
  rfl

theorem dirtyPart_wholeToD (s : State) (l : Nat) : dirtyPart (s.wholeToD l) = dirtyPart s := dirtyPart_putTierD _ l _

theorem dirtyPart_mergeIn (s : State) (l : Nat) (mask : Word) (poison : Bool) : dirtyPart (s.mergeIn l mask poison) = dirtyPart s := by
  unfold State.mergeIn
  split
  · dsimp only
    split
    · exact dirtyPart_wholeToD _ l
    · rfl
  · rw [allocD_eq]
    dsimp only
    split <;> rfl

theorem dirtyPart_leaveDirty (s : State) (l : Nat) : dirtyPart (s.leaveDirty l) = dirtyPart s := by
  unfold State.leaveDirty
  split
  · split
    · exact dirtyPart_wholeToD s l
    · exact dirtyPart_mergeIn s l ..
  · exact dirtyPart_wholeToD s l

theorem dirtyPart_keepD (s : State) (l : Nat) : dirtyPart (s.keepD l) = dirtyPart s := by
  rw [keepD_eq]
  rfl

theorem dirtyPart_evictCell (s : State) (k : Nat) : dirtyPart (s.evictCell k) = dirtyPart s := by
  unfold State.evictCell
  split
  · dsimp only
    split
    · split
      · exact (dirtyPart_wholeToD _ _).trans (dirtyPart_readBeats _ _)
      · exact (dirtyPart_leaveDirty _ _).trans (dirtyPart_readBeats _ _)
    · exact dirtyPart_keepD _ _
  · rfl

/-- Emptying a way writes no byte and makes no line clean; its flags leave the order of the registers and the ways. -/
theorem cleanWay_leaves (wf : RegsOrdered s) (way : Nat) : let t := s.cleanWay way
    RegsOrdered t ∧ t.crown.ways = s.crown.ways ∧ dirtyPart t = dirtyPart s := by
  obtain ⟨order, -⟩ : NamesHeld s.regs (s.cleanWay way) :=
    held_foldl (namesHeld_refl wf) (fun _ _ h => held_evictCell h)
  have ways : Stays s (s.cleanWay way) := stays_foldl (fun _ _ h => stays_evictCell h) (stays_refl s)
  exact ⟨order, congrArg Still.ways (StillSame.eq ways),
    foldl_keeps (P := fun t => dirtyPart t = dirtyPart s) _ (fun t x h => (dirtyPart_evictCell t x.1).trans h) _ s rfl⟩

end

/-! The commands. -/

section
variable {s : State} {via : Via} {way at_ : Nat}

theorem exec_wayCleaned (cleaning : s.waySt way = .cleaning) (noFill : (s.wayCells way).any (fun x => x.2.filling) = false) :
    exec (.wayCleanDone way at_) s = .next
      ((((s.tick at_).cleanWay way).setWay way .off).raise F.CR_STATUS.WAY_OFF_DONE).settle := by
  have cleaning' : (s.tick at_).waySt way = .cleaning := cleaning
  have noFill' : ((s.tick at_).wayCells way).any (fun x => x.2.filling) = false := noFill
  simp only [exec_wayCleanDone, execWayCleanDone, cleaning', noFill', beq_self_eq_true, Bool.not_false, Bool.and_self, if_true]

/-- What a way that is awake goes to: cleaning where it was asked off again (05 R165). -/
def wokenTo (s : State) (way : Nat) : WaySt := if s.crown.wayAgain.contains way then .cleaning else .on

/-- A way that is awake no longer remembers whether it was asked off again. -/
def wayAwake (s : State) (way : Nat) : State :=
  State.setWay { s with crown := { s.crown with wayAgain := removeNum way s.crown.wayAgain } } way (wokenTo s way)

theorem exec_wayWoken (waking : s.waySt way = .waking) : exec (.wayPowerUpDone way at_) s = .next
    ((wayAwake (s.tick at_) way).raise F.CR_STATUS.WAY_ON_DONE).settle := by
  have waking' : (s.tick at_).waySt way = .waking := waking
  simp only [exec_wayPowerUpDone, execWayPowerUpDone, waking', beq_self_eq_true, if_true]
  rfl

/-- A way is set to a new state and its flag raised: the flag is set, and bytes, lines and cells stand. -/
theorem setWay_raise_leaves (wf : RegsOrdered s) (eight : s.crown.ways.length = 8) (low : 8 ≤ way) (high : way < 16) (x : WaySt)
    (f : FieldRef) (bits : f.lo + f.w ≤ 64) (one : f.w = 1) (status : f.reg = .CR_STATUS) :
    let u := (s.setWay way x).raise f
    u.waySt way = x ∧ u.getF f 0 = 1 ∧ u.mem = s.mem ∧ u.lines = s.lines ∧ u.crown.cells = s.crown.cells := by
  have only := (waysOnly_setWay s way x).trans (waysOnly_raise _ f status)
  refine ⟨?_, getF_raise (s := s.setWay way x) wf f bits one (by rw [status]; decide) (by rw [status]; decide), only.mem,
    only.lines, only.cells⟩
  rw [waySt_raise, waySt_setWay eight low high x low, if_pos rfl]

/-- CR_LFSR_SEED with its seed written: every slice loads it (05 R158). -/
theorem exec_seedWritten {w : AccW} {v : Word} (served : Served s via (accOff .CR_LFSR_SEED 0 w)) (noRsv : NoRsv .CR_LFSR_SEED w v)
    (seed : w ≠ .hi) : exec (.crLfsrSeedWrite via w v at_) s = .next
      { (s.tick at_).writeFields .CR_LFSR_SEED 0 w v false with crown := { s.crown with reload := List.range 32 } } := by
  simp only [exec_crLfsrSeedWrite, execCrLfsrSeedWrite, State.writeSeed]
  rw [writeAt_taken (served_tick served at_) rfl rfl noRsv, if_neg seed]
  rfl

/-- The seed reads back what its half of the register was written with. -/
theorem seed_written (wf : RegsOrdered s) {w : AccW} (v : Word) (seed : w ≠ .hi) :
    (s.writeFields .CR_LFSR_SEED 0 w v false).get F.CR_LFSR_SEED.SEED = bitsOf v 0 32 := by
  refine bitsOf_low_congr fun b hb => ?_
  have low : ((BitVec.allOnes 32).setWidth 64).getLsbD b = true := by
    rw [BitVec.getLsbD_setWidth, BitVec.getLsbD_allOnes, decide_eq_true hb, decide_eq_true (by omega), Bool.and_self]
  have plain : (accBits .CR_LFSR_SEED .rw ||| accBits .CR_LFSR_SEED .wo).getLsbD b = true := low
  rw [show F.CR_LFSR_SEED.SEED.reg = .CR_LFSR_SEED from rfl, writeFields_getLsbD wf _ 0 w v b (by omega), plain]
  cases w with
  | full =>
    have all : (accMask .full).getLsbD b = true := by
      rw [show accMask .full = BitVec.allOnes 64 from rfl, BitVec.getLsbD_allOnes]
      exact decide_eq_true (by omega)
    rw [all]
    rfl
  | lo =>
    have half : (0xFFFFFFFF#64).getLsbD b = true := low
    rw [show accMask .lo = 0xFFFFFFFF#64 from rfl, half, if_pos rfl, if_pos rfl]
    simp only [accValue, BitVec.getLsbD_and, half, Bool.and_true]
  | hi => exact absurd rfl seed

end

/-- Settles O37: the written bits of CR_WAY_PWR, the end of a cleaning and of a waking, and the seed. -/
theorem waysPowerDownAndUp : Obligations.WaysPowerDownAndUp := by
  intro s via way at_ w v wf eight low high now pwr
  refine ⟨fun served was => ⟨fun on => ?_, fun off => ?_⟩, fun cleaning noFill => ?_, fun waking => ?_, fun served noRsv seed => ?_⟩
  · have known : (pwr ||| 1#64 <<< way) &&& ~~~(knownBits .CR_WAY_PWR) = 0#64 := by
      rw [BitVec.and_or_distrib_right, was, wayBit_known low high, BitVec.or_zero]
    obtain ⟨there, reads⟩ := waysWritten_leaves (s := now) wf eight was known low high
    refine ⟨waysWritten now (pwr ||| 1#64 <<< way), ?_, ?_, reads⟩
    · exact congrArg Host.Outcome.next (writeWays_served (s := now) wf served was known)
    · rw [there, show now.waySt way = .on from on, BitVec.getLsbD_or, getLsbD_wayBit high, Bool.or_true]
      rfl
  · have known : (pwr &&& ~~~(1#64 <<< way)) &&& ~~~(knownBits .CR_WAY_PWR) = 0#64 := by
      rw [BitVec.and_assoc, BitVec.and_comm (~~~(1#64 <<< way)), ← BitVec.and_assoc, was, BitVec.zero_and]
    obtain ⟨there, reads⟩ := waysWritten_leaves (s := now) wf eight was known low high
    refine ⟨waysWritten now (pwr &&& ~~~(1#64 <<< way)), ?_, ?_, reads⟩
    · exact congrArg Host.Outcome.next (writeWays_served (s := now) wf served was known)
    · rw [there, show now.waySt way = .off from off, BitVec.getLsbD_and, BitVec.getLsbD_not, getLsbD_wayBit high]
      simp only [Bool.not_true, Bool.and_false]
      rfl
  · obtain ⟨order, ways, parts⟩ := cleanWay_leaves (s := now) wf way
    obtain ⟨there, flag, mem, lines, -⟩ := setWay_raise_leaves order (ways ▸ eight) low high .off F.CR_STATUS.WAY_OFF_DONE
      (by decide) rfl rfl
    exact ⟨_, exec_wayCleaned cleaning noFill, there, flag, mem.trans (congrArg Prod.fst parts),
      (congrArg LineSt.dirty lines).trans (congrArg Prod.snd parts)⟩
  · obtain ⟨there, flag, rest⟩ := setWay_raise_leaves
      (s := { now with crown := { now.crown with wayAgain := removeNum way now.crown.wayAgain } }) wf eight low high
      (wokenTo now way) F.CR_STATUS.WAY_ON_DONE (by decide) rfl rfl
    exact ⟨_, exec_wayWoken waking, there, flag, rest⟩
  · exact ⟨now.writeFields .CR_LFSR_SEED 0 w v false, exec_seedWritten served noRsv seed, seed_written (s := now) wf v seed,
      writeFields_eq .., fun r i apart => writeFields_reg_ne (s := now) wf w v false apart⟩

end Sys2Proof.Proofs
end

section
/-! PROOFS. FULLING_WINDOW on a device that holds the record of a block of channel 32 (07 R218, R219, R225). The register map has
channels 0 to 31, and no statement bounds the channels of the block records: FL_BLOCKS of a channel 32 lies at FL_FULL_STAT, so the
retirement of that block writes over the Fulling status. The end state is known only through `State.settle`, so the proof shows what
`State.settle` leaves of FL_FULL_STAT before service opens, whatever else the state holds. -/

namespace Sys2Proof.Proofs

open Sys2Proof Machine Laws Claims

/-- The place of FL_FULL_STAT. -/
def fullStat : Nat := Reg.addr .FL_FULL_STAT 0

/-- A key that is found stays so when another is removed, in a table of any order. -/
theorem find_del_of_found {α : Type} {m : SMap α} {k j : Nat} {v : α} (found : SMap.find m j = some v) (apart : k ≠ j) :
    SMap.find (SMap.del m k) j = some v := by
  induction m with
  | nil => exact found
  | cons x t ih =>
    obtain ⟨i, u⟩ := x
    rw [SMap.find] at found
    rw [SMap.del]
    split at found
    · next here =>
      rw [if_neg (here ▸ apart.symm)]
      split <;> rw [SMap.find, if_pos here, found]
    · next other =>
      split at found
      · cases found
      · next above =>
        split
        · exact found
        · split
          · rw [SMap.find, if_neg other, if_neg above, found]
          · rw [SMap.find, if_neg other, if_neg above, ih found]


/-- A request that waits for service to open, and did not come on the twin's stream. -/
def AwaitsService (r : Req) : Prop := fromTwin r = false ∧ (r.st = .behind ∨ ∃ since why, r.st = .held since why)

/-- Service has not opened, FL_FULL_STAT is listed with `w`, and every request in hand waits for service to open. -/
structure Unopened (w : Word) (s : State) : Prop where
  listed : SMap.find s.regs fullStat = some w
  state : s.power.state = 12
  reqs : ∀ r ∈ s.bay.reqs, AwaitsService r

section
variable {w : Word} {s t : State}

/-- What `Unopened` reads of a state. -/
def unopenedPart (s : State) : SMap Word × PowerSt × List Req := (s.regs, s.power, s.bay.reqs)

theorem unopened_same (h : Unopened w s) (same : unopenedPart t = unopenedPart s := by rfl) : Unopened w t := by
  obtain ⟨listed, state, reqs⟩ := h
  have regs : t.regs = s.regs := congrArg Prod.fst same
  have power : t.power = s.power := congrArg (fun x => x.2.1) same
  have hand : t.bay.reqs = s.bay.reqs := congrArg (fun x => x.2.2) same
  exact ⟨regs ▸ listed, power ▸ state, hand ▸ reqs⟩

/-- The same, where the operation follows others: what it leaves is looked at first. -/
theorem unopened_after (same : unopenedPart t = unopenedPart s := by rfl) (h : Unopened w s) : Unopened w t :=
  unopened_same h same

theorem unopened_ite {c : Prop} [Decidable c] {u : State} (yes : Unopened w t) (no : Unopened w u) :
    Unopened w (if c then t else u) := by
  split
  · exact yes
  · exact no

/-- A step that is taken or not. -/
theorem unopened_opt {c : Prop} [Decidable c] (h : Unopened w s) (step : Unopened w s → Unopened w t) :
    Unopened w (if c then t else s) := unopened_ite (step h) h

theorem unopened_foldl {β : Type} {f : State → β → State} {l : List β} (h : Unopened w s)
    (keeps : ∀ u x, Unopened w u → Unopened w (f u x)) : Unopened w (l.foldl f s) :=
  foldl_keeps (P := Unopened w) f keeps l s h

/-! Registers and flags. -/

/-- A register block above FL_FULL_STAT has no place at it, at any index. -/
theorem addr_ne_fullStat {r : Reg} (above : fullStat < r.info.base) (i : Nat) : r.addr i ≠ fullStat :=
  (above.trans_le (base_le_addr r i)).ne'

theorem unopened_setReg (h : Unopened w s) {r : Reg} {i : Nat} {v : Word} (apart : r.addr i ≠ fullStat) :
    Unopened w (s.setReg r i v) := by
  obtain ⟨listed, state, reqs⟩ := h
  refine ⟨?_, state, reqs⟩
  unfold State.setReg
  dsimp only
  split
  · exact find_del_of_found listed apart
  · rw [find_put, if_neg apart, listed]

/-- A flag's event and what it logs write below BL_DEVICE_ID. -/
theorem upper_raiseArg_setF (s : State) (f : FieldRef) (i : Nat) (a : EvArg) : UpperHeld (s.setF f i 1) (s.raiseArg f i a) := by
  have once (c : Nat) : UpperHeld (s.setF f i 1) (s.raiseOnce f i c a).1 := by
    unfold State.raiseOnce
    dsimp only
    split
    · exact upper_enterEvent (upper_refl _)
    · split
      · exact upper_refl _
      · exact upper_bump (upper_refl _)
  unfold State.raiseArg
  split
  · exact upper_raiseNotes (once _)
  · exact upper_refl _

theorem unopened_raiseArg (h : Unopened w s) {f : FieldRef} {i : Nat} {a : EvArg} (apart : f.reg.addr i ≠ fullStat) :
    Unopened w (s.raiseArg f i a) := by
  obtain ⟨listed, -, -⟩ := unopened_setReg h (v := withBits (s.reg f.reg i) f.lo f.w 1) apart
  obtain ⟨-, state, reqs⟩ := h
  have parts := raiseArg_eq s f i a
  have power : (s.raiseArg f i a).power = s.power := (congrArg State.power parts :)
  have hand : (s.raiseArg f i a).bay = s.bay := (congrArg State.bay parts :)
  refine ⟨?_, power ▸ state, hand ▸ reqs⟩
  rw [upper_raiseArg_setF s f i a fullStat (by decide)]
  exact listed

theorem unopened_raise (h : Unopened w s) {f : FieldRef} (apart : f.reg.addr 0 ≠ fullStat := by decide) :
    Unopened w (s.raise f) := unopened_raiseArg h apart

/-! Requests in hand. -/

theorem unopened_mapReqs (h : Unopened w s) {g : Req → Req} (keeps : ∀ x, AwaitsService x → AwaitsService (g x)) :
    Unopened w { s with bay := { s.bay with reqs := s.bay.reqs.map g } } := by
  obtain ⟨listed, state, reqs⟩ := h
  refine ⟨listed, state, fun r there => ?_⟩
  obtain ⟨x, old, rfl⟩ := List.mem_map.mp there
  exact keeps x (reqs x old)

theorem unopened_putReq (h : Unopened w s) {r : Req} (awaits : AwaitsService r) : Unopened w (s.putReq r) := by
  refine unopened_mapReqs h fun x old => ?_
  split
  · exact awaits
  · exact old

theorem unopened_hold (h : Unopened w s) {r : Req} {why : HoldWhy} (own : fromTwin r = false) : Unopened w (s.hold r why) := by
  have held : AwaitsService { r with since := some (r.since.getD s.now), st := .held (r.since.getD s.now) why } :=
    ⟨own, .inr ⟨_, _, rfl⟩⟩
  refine unopened_mapReqs (unopened_putReq h held) fun x old => ?_
  split
  · exact old
  · exact old

/-- Before service opens a request taken up waits behind another, or for service (11 R427). -/
theorem unopened_start (h : Unopened w s) {r : Req} (own : fromTwin r = false) : Unopened w (s.start r) := by
  have before : (s.power.state < 14 || (s.power.state == 14 && !s.power.begun)) = true := by rw [h.state]; rfl
  unfold State.start
  rw [if_neg (Bool.eq_false_iff.mp own), if_pos before]
  exact unopened_ite (unopened_putReq h ⟨own, .inl rfl⟩) (unopened_hold h own)

/-- A request of an engine, before service opens. -/
theorem unopened_submit (h : Unopened w s) {src e key : Nat} {op : ReqOp} {offset tenant : Nat} :
    Unopened w (s.submit src (.engine e key) op offset tenant) := by
  refine unopened_start ?_ rfl
  obtain ⟨listed, state, reqs⟩ := h
  refine ⟨listed, state, fun r there => ?_⟩
  rcases List.mem_append.mp there with old | new
  · exact reqs r old
  · rw [List.mem_singleton.mp new]
    exact ⟨rfl, .inl rfl⟩

theorem unopened_advance (h : Unopened w s) {id : Nat} : Unopened w (s.advance id) := by
  unfold State.advance
  split
  · exact h
  · next r found =>
    obtain ⟨own, behind | ⟨_, _, held⟩⟩ := h.reqs r (List.mem_of_find?_eq_some found)
    · rw [behind]
      exact unopened_ite h (unopened_start h own)
    · rw [held]
      exact h

theorem unopened_pass (h : Unopened w s) : Unopened w s.pass := unopened_foldl h fun _ _ h => unopened_advance h

/-- No descriptor's part runs before service opens, so none ends. -/
theorem unopened_endCtrl (h : Unopened w s) {id : Nat} {peer : Bool} {code : Nat} : Unopened w (s.endCtrl id peer code) := by
  unfold State.endCtrl
  split
  · next r found =>
    obtain ⟨-, behind | ⟨_, _, held⟩⟩ := h.reqs r (List.mem_of_find?_eq_some found)
    · rw [behind]
      exact h
    · rw [held]
      exact h
  · exact h

/-! Messages. -/

theorem unopened_emitMsg (h : Unopened w s) {port : Nat} {hd : Hdr} {p : Payload} : Unopened w (s.emitMsg port hd p) := by
  unfold State.emitMsg State.countTx State.countBytes
  dsimp only
  refine unopened_after (h := unopened_opt (c := 1048576 ≤ _) h fun h => unopened_setReg h ?_)
  exact addr_ne_fullStat (by decide) port

theorem unopened_sendOn (h : Unopened w s) {port : Nat} {hd : Hdr} {p : Payload} : Unopened w (s.sendOn port hd p) := by
  unfold State.sendOn
  refine unopened_ite h ?_
  dsimp only
  split
  · exact unopened_ite (unopened_same h) (unopened_emitMsg h)
  · exact unopened_ite (unopened_same h) (unopened_emitMsg (unopened_same h))

theorem unopened_reply (h : Unopened w s) {req : Hdr} {status : Nat} {stream : Bool} {p : Payload} :
    Unopened w (s.reply req status stream p) := by
  unfold State.reply State.send
  refine unopened_ite (unopened_sendOn h) (unopened_ite (unopened_same h) ?_)
  split
  · exact unopened_sendOn h
  · exact h

/-! The rules that follow a command, in the order of `State.settle`. -/

theorem unopened_checkBudget (h : Unopened w s) : Unopened w s.checkBudget := by
  have through : Unopened w s.checkWriteThrough :=
    unopened_ite (unopened_ite h (unopened_raise (unopened_same h))) (unopened_same h)
  have throttle : Unopened w s.checkWriteThrough.checkThrottle :=
    unopened_ite (unopened_ite (unopened_same through) through) (unopened_opt through fun h => unopened_raise (unopened_same h))
  exact unopened_ite (unopened_same throttle)
    (unopened_ite (unopened_opt throttle fun h => unopened_same h) (unopened_opt throttle fun h => unopened_same h))

/-- Nothing is destaged before state 13. -/
theorem unopened_planDestage (h : Unopened w s) : Unopened w s.planDestage := by
  have early : (!s.mayDestage) = true := by
    unfold State.mayDestage
    rw [h.state]
    rfl
  unfold State.planDestage
  rw [if_pos early]
  exact h

theorem unopened_checkFlush (h : Unopened w s) : Unopened w s.checkFlush :=
  unopened_foldl (unopened_same h) fun _ _ h => unopened_endCtrl h

theorem unopened_closeBand (h : Unopened w s) {b : Nat} : Unopened w (s.closeBand b) := by
  have eligible {u : State} (h : Unopened w u) : Unopened w (u.checkEligible b) := by
    unfold State.checkEligible
    split
    · exact unopened_opt h fun h => unopened_opt (unopened_same h) fun h => unopened_same h
    · exact h
  unfold State.closeBand
  split
  · exact eligible (unopened_same h)
  · exact h

theorem unopened_startChange (h : Unopened w s) {kind : ChgKind} {sp : Nat} {frames src : List Nat} {fulling credit : Bool} :
    Unopened w (s.startChange kind sp frames src fulling credit) := by
  have room {n b slot : Nat} {t : State} (found : s.bandRoom n fulling = some (b, slot, t)) : Unopened w t := by
    unfold State.bandRoom at found
    dsimp only at found
    split at found
    · cases found
      exact unopened_same h
    · split at found
      · cases found
      · split at found
        · cases found
          refine unopened_same (s := ite _ _ _) (unopened_ite h ?_)
          split
          · exact unopened_closeBand h
          · exact h
        · cases found
  unfold State.startChange
  refine unopened_ite h (unopened_ite h ?_)
  split
  · exact h
  · next found => exact unopened_same (room found)

theorem unopened_planMoves (h : Unopened w s) : Unopened w s.planMoves :=
  unopened_foldl h fun _ _ h => unopened_ite (unopened_ite h (unopened_raise h)) (unopened_startChange h)

theorem unopened_stepMoves (h : Unopened w s) : Unopened w s.stepMoves.1 := by
  have demoted (l : List Nat) : Unopened w (l.foldl (fun s sp =>
      match s.span sp with
      | some r => if r.home == .p && r.move.isNone then s.startDemotion sp else s
      | none => s) s) := by
    refine unopened_foldl h fun _ _ h => ?_
    split
    · exact unopened_opt h fun h => unopened_same h
    · exact h
  unfold State.stepMoves
  split
  · exact h
  · exact unopened_after (h := unopened_ite (demoted _) (unopened_planMoves (demoted _)))

theorem unopened_checkMoves (h : Unopened w s) : Unopened w s.checkMoves :=
  unopened_foldl (unopened_stepMoves h) fun _ _ h => unopened_endCtrl h

theorem unopened_finishRun (h : Unopened w s) {e : Nat} {r : Run} : Unopened w (s.finishRun e r) := by
  have done : Unopened w ((s.putEngine e { s.engine e with run := none }).bump F.EN_COUNT.JOBS_DONE e 1) :=
    unopened_setReg (unopened_same h) (addr_ne_fullStat (by decide) e)
  have late := unopened_opt (c := r.code = 5) done fun h =>
    unopened_raiseArg (f := F.EN_STATUS.TILE_LATE) (i := e) (a := .none) h (addr_ne_fullStat (by decide) e)
  unfold State.finishRun State.endDesc
  dsimp only
  split
  · exact unopened_same late
  · exact late

theorem unopened_endRun (h : Unopened w s) {e : Nat} {r : Run} : Unopened w (s.endRun e r) := by
  have dropped (sel : Nat → Bool) : Unopened w (s.dropFetches e sel) := by
    obtain ⟨listed, state, reqs⟩ := h
    exact ⟨listed, state, fun r there => reqs r (List.mem_of_mem_filter there)⟩
  have closing {u : State} (h : Unopened w u) (f : Run → Run) : Unopened w (u.updRun e f) := by
    unfold State.updRun
    dsimp only
    split
    · exact unopened_same h
    · exact h
  unfold State.endRun
  dsimp only
  split
  · exact unopened_ite (unopened_submit (closing (dropped _) _)) (unopened_finishRun (dropped _))
  · exact unopened_finishRun (dropped _)

theorem unopened_checkEngines (h : Unopened w s) : Unopened w s.checkEngines := by
  refine unopened_foldl h fun _ _ h => ?_
  split
  · exact unopened_opt h fun h => unopened_endRun h
  · exact h

theorem unopened_checkCopyAcks (h : Unopened w s) : Unopened w s.checkCopyAcks :=
  unopened_ite h (unopened_foldl (unopened_same h) fun _ _ h => unopened_reply h)

theorem unopened_checkGpf (h : Unopened w s) : Unopened w s.checkGpf :=
  unopened_ite h (unopened_foldl (unopened_same h) fun _ _ h => unopened_same h)

/-- Before service opens, and with no line lost, the rules that follow a command leave FL_FULL_STAT. -/
theorem unopened_settle (h : Unopened w s) (whole : s.lines.lost = []) : Unopened w s.settle := by
  have repaired : s.repairLost = s := by
    unfold State.repairLost
    rw [whole]
    rfl
  unfold State.settle
  rw [repaired]
  exact unopened_checkGpf (unopened_checkCopyAcks (unopened_pass (unopened_checkEngines (unopened_pass (unopened_checkMoves
    (unopened_checkFlush (unopened_pass (unopened_pass (unopened_planDestage (unopened_checkBudget h))))))))))

end

/-! The Fulling window of the device that refutes. -/

/-- What a window does before the rules that follow: the mode, the victim and the erases where tier F may program, then the
relocations and moves that wait (07 R218). -/
def fullingTurn (s : State) : State :=
  let t := s.setMode s.freePct
  let u := if t.mayProgram && !(t.power.throttle && decide (t.get F.FL_FULL_STAT.MODE ≤ 1)) then
    t.refreshSpans.takeVictim.startErases else t
  u.relocateAll.checkReshape.planMoves

/-- FULLING_WINDOW with a flash build in states 12 to 15. -/
theorem exec_fullingTurn {s : State} {at_ : Nat} (build : s.flash.build.isSome = true) (above : 11 < s.power.state)
    (below : s.power.state < 16) : exec (.fullingWindow at_) s = .next (fullingTurn (s.tick at_)).settle := by
  have runs : ¬((s.tick at_).flash.build.isNone ||
      !(decide (11 < (s.tick at_).power.state) && decide ((s.tick at_).power.state < 16))) = true := by
    rw [tick_flash, tick_power, decide_eq_true above, decide_eq_true below, Option.isNone_eq_false_iff.mpr build]
    decide
  rw [exec_fullingWindow, execFullingWindow]
  exact congrArg _ (if_neg runs)

/-- A flash build of 32 channels. -/
def strayBuild : FlashBuild := {
  channels := 32, jesd := true, rate := 24, targets := 8, luns := 2, diesPerChannel := 16, pageUser := 16384, pageSpare := 2048,
  planes := 4, blocksPerChannel := 1024, rawTib := 32, ratedPe := 3000, retryEntries := 5, readLimit := 100000, vccMv := 2500,
  vccqMv := 1200 }

/-- A block that failed two programs and is to be retired. -/
def failedBlock : Block := { erases := 0, fails := 2, reads := 0, retired := false, leaving := true }

/-- State 12, with the 100 good blocks of channel 0 all free, and the record of a failed block of channel 32. -/
def strayBlock : State := { State.reset with
  regs := [(Reg.addr .FL_BLOCKS 0, 100#64)]
  flash := { build := some strayBuild, blocks := [(blockKey 32 0, failedBlock)] }
  power := { state := 12 } }

/-- A free percentage other than 0, its reset value, is one that FL_FULL_STAT is listed with. -/
theorem listed_of_freePct {s : State} {n : Nat} (shows : s.get F.FL_FULL_STAT.FREE_PCT = n) (nonzero : n ≠ 0) :
    ∃ w, SMap.find s.regs fullStat = some w ∧ bitsOf w 0 7 = n := by
  have read : bitsOf ((SMap.find s.regs fullStat).getD 0#64 ^^^ 0#64) 0 7 = n := shows
  rw [BitVec.xor_zero] at read
  cases listed : SMap.find s.regs fullStat with
  | none =>
    rw [listed] at read
    exact absurd read.symm nonzero
  | some w =>
    rw [listed] at read
    exact ⟨w, rfl, read⟩

/-- The retirement takes one from the 100 percent just set, and the rest of the command leaves FL_FULL_STAT so. -/
theorem strayBlock_settled : SMap.find (fullingTurn (strayBlock.tick 0)).settle.regs fullStat = some 0x100063#64 := by
  have turned : Unopened 0x100063#64 (fullingTurn (strayBlock.tick 0)) := by
    refine ⟨by decide, by decide, ?_⟩
    have idle : (fullingTurn (strayBlock.tick 0)).bay.reqs = [] := by decide
    rw [idle]
    exact fun _ there => absurd there List.not_mem_nil
  exact (unopened_settle turned (by decide)).listed

/-- Refutes O40: FULLING_WINDOW sets FREE_PCT to 100 and then retires the block of channel 32, whose count of good blocks takes one
from FREE_PCT, and no state that shows 100 settles to that outcome. -/
theorem not_flashReadsErasesAndFullingComplete : ¬ Obligations.FlashReadsErasesAndFullingComplete := by
  intro h
  obtain ⟨-, windows⟩ := h
  obtain ⟨window, -⟩ := windows strayBlock .mgmt .full 0#64 0 (by decide)
  obtain ⟨u, ran, shows, -, -, -, -, -, -, lines, bay, power⟩ := window rfl (by decide) (by decide) (by decide) (by decide)
    (by decide)
  have same : (fullingTurn (strayBlock.tick 0)).settle = u.settle :=
    Host.Outcome.next.inj ((exec_fullingTurn (at_ := 0) rfl (by decide) (by decide)).symm.trans ran)
  have full : strayBlock.freePct = 100 := by decide
  rw [full] at shows
  obtain ⟨w, listed, hundred⟩ := listed_of_freePct shows (by decide)
  have unopened : Unopened w u := ⟨listed, power ▸ rfl, fun r there => absurd (bay ▸ there) List.not_mem_nil⟩
  have kept : SMap.find u.settle.regs fullStat = some w := (unopened_settle unopened (lines ▸ rfl)).listed
  rw [← same, strayBlock_settled] at kept
  obtain rfl := Option.some.inj kept
  exact absurd hundred (by decide)

end Sys2Proof.Proofs
end

section
/-! PROOFS. P and Q of a row (08 R235, R250, R251): byte strings added, and a unit got back from P. -/

namespace Sys2Proof.Proofs

open Sys2Proof Machine

/-! Byte strings added. -/

theorem length_xorBytes (a b : List Nat) : (xorBytes a b).length = min a.length b.length := List.length_zipWith ..

theorem xorBytes_comm (a b : List Nat) : xorBytes a b = xorBytes b a :=
  List.zipWith_comm_of_comm Nat.xor_comm

theorem xorBytes_assoc (a b c : List Nat) : xorBytes (xorBytes a b) c = xorBytes a (xorBytes b c) := by
  induction a generalizing b c with
  | nil => rfl
  | cons x a ih =>
    cases b with
    | nil => rfl
    | cons y b =>
      cases c with
      | nil => rfl
      | cons z c => exact congrArg₂ List.cons (Nat.xor_assoc x y z) (ih b c)

/-- Zeros add nothing. -/
theorem zeros_xorBytes (a : List Nat) : xorBytes (List.replicate a.length 0) a = a := by
  induction a with
  | nil => rfl
  | cons x a ih => exact congrArg₂ List.cons (Nat.zero_xor x) ih

/-- A string added twice is gone. -/
theorem xorBytes_cancel {a d : List Nat} (len : a.length = d.length) : xorBytes (xorBytes a d) d = a := by
  induction a generalizing d with
  | nil => rfl
  | cons x a ih =>
    cases d with
    | nil => cases len
    | cons y d => exact congrArg₂ List.cons (Nat.xor_xor_cancel_right x y) (ih (Nat.succ.inj len))

theorem xorBytes_right_comm (a b c : List Nat) : xorBytes (xorBytes a b) c = xorBytes (xorBytes a c) b := by
  rw [xorBytes_assoc, xorBytes_comm b c, xorBytes_assoc]

/-! Sums of units. -/

/-- One unit more in the sum, first or last. -/
theorem foldl_xorBytes (units : List (List Nat)) (a d : List Nat) :
    units.foldl xorBytes (xorBytes a d) = xorBytes (units.foldl xorBytes a) d := by
  induction units generalizing a with
  | nil => rfl
  | cons u units ih =>
    rw [List.foldl_cons, List.foldl_cons, xorBytes_right_comm, ih]

theorem length_foldl_xorBytes {n : Nat} {units : List (List Nat)} {a : List Nat} (len : a.length = n)
    (lens : ∀ u ∈ units, u.length = n) : (units.foldl xorBytes a).length = n :=
  List.foldlRecOn (motive := fun sum => sum.length = n) units xorBytes len fun sum lenSum u hu => by
    rw [length_xorBytes, lenSum, lens u hu, Nat.min_self]

/-- Units added twice are gone. -/
theorem foldl_xorBytes_cancel {n : Nat} {units : List (List Nat)} {a : List Nat} (len : a.length = n)
    (lens : ∀ u ∈ units, u.length = n) : units.foldl xorBytes (units.foldl xorBytes a) = a := by
  induction units with
  | nil => rfl
  | cons d units ih =>
    obtain ⟨lenD, rest⟩ := List.forall_mem_cons.mp lens
    have same : (units.foldl xorBytes a).length = d.length := (length_foldl_xorBytes len rest).trans lenD.symm
    rw [List.foldl_cons, List.foldl_cons, foldl_xorBytes units a d, xorBytes_cancel same, ih rest]

/-- A unit taken out of a row adds itself to the sum of the others. -/
theorem foldl_xorBytes_eraseIdx {units : List (List Nat)} {i : Nat} (inRow : i < units.length) (a : List Nat) :
    units.foldl xorBytes a = (units.eraseIdx i).foldl xorBytes (xorBytes a (units.getD i [])) := by
  induction units generalizing i a with
  | nil => cases inRow
  | cons d units ih =>
    cases i with
    | zero => rfl
    | succ i =>
      have sum := ih (Nat.lt_of_succ_lt_succ inRow) (xorBytes a d)
      rwa [xorBytes_right_comm] at sum

/-- P and the other data units of a row give a unit of it (08 R250). -/
theorem fromP_stripeP {n i : Nat} {units : List (List Nat)} (lens : ∀ u ∈ units, u.length = n) (inRow : i < units.length) :
    fromP (stripeP n units) (units.eraseIdx i) = units.getD i [] := by
  have lenUnit : (units.getD i []).length = n := by
    rw [List.getD_eq_getElem _ _ inRow]
    exact lens _ (List.getElem_mem inRow)
  have sumOfUnit : xorBytes (List.replicate n 0) (units.getD i []) = units.getD i [] := lenUnit ▸ zeros_xorBytes _
  rw [fromP, stripeP, foldl_xorBytes_eraseIdx inRow, sumOfUnit]
  exact foldl_xorBytes_cancel lenUnit fun u hu => lens u (List.mem_of_mem_eraseIdx hu)

/-- A unit put before the others adds itself to P. -/
theorem stripeP_cons (n : Nat) (d : List Nat) (units : List (List Nat)) :
    stripeP n (d :: units) = xorBytes d (stripeP n units) := by
  rw [xorBytes_comm]
  exact foldl_xorBytes units _ d

/-- Units that are all zeros give P and Q of zeros. -/
theorem stripes_zeros (n k : Nat) : stripeP n (List.replicate k (List.replicate n 0)) = List.replicate n 0
    ∧ stripeQ n (List.replicate k (List.replicate n 0)) = List.replicate n 0 := by
  have sum : xorBytes (List.replicate n 0) (List.replicate n 0) = List.replicate n 0 := by
    simpa only [List.length_replicate] using zeros_xorBytes (List.replicate n 0)
  induction k with
  | zero => exact ⟨rfl, rfl⟩
  | succ k ih =>
    obtain ⟨sumP, sumQ⟩ := ih
    refine ⟨?_, ?_⟩
    · rw [List.replicate_succ, stripeP_cons, sumP, sum]
    · rw [List.replicate_succ, stripeQ, sumQ, List.map_replicate]
      exact sum

/-- Doubling a byte in the field of 0x11D is its product with 2, and stays a byte (08 R235). -/
theorem gfDouble_byte : ∀ b < 256, gfDouble 0x11D b = gfMul 0x11D 2 b ∧ gfDouble 0x11D b < 256 := by decide +kernel

/-- Settles O43, by taking the lost unit out of the sum that is P: what is left in it cancels with the other units. -/
theorem parityGivesBackALostUnit : Obligations.ParityGivesBackALostUnit :=
  ⟨fun _ _ _ lens inRow => fromP_stripeP lens inRow, stripes_zeros,
    fun n d units _ _ => ⟨stripeP_cons n d units, rfl, gfDouble_byte⟩⟩

end Sys2Proof.Proofs
end

section
/-! PROOFS. The Skim journal (08 R239, R243): a frame that stands opens its rows, and a row that is done leaves. -/

namespace Sys2Proof.Proofs

open Sys2Proof Machine Laws

/-! Writes that Float counts (04 R145). -/

/-- `t` is `s` but for Float's counts of writes. -/
def Counted (s t : State) : Prop :=
  ∃ regions modWrites, t = { s with tier := { s.tier with regions := regions, modWrites := modWrites } }

theorem counted_refl (s : State) : Counted s s := ⟨_, _, rfl⟩

theorem Counted.trans {s t u : State} (h : Counted s t) (k : Counted t u) : Counted s u := by
  obtain ⟨_, _, rfl⟩ := h
  obtain ⟨_, _, rfl⟩ := k
  exact ⟨_, _, rfl⟩

theorem counted_foldl {β : Type} {f : State → β → State} (step : ∀ s x, Counted s (f s x)) (l : List β) (s : State) :
    Counted s (l.foldl f s) :=
  foldl_keeps (P := Counted s) f (fun t x h => h.trans (step t x)) l s (counted_refl s)

theorem counted_floatWrite (s : State) (m slot : Nat) : Counted s (s.floatWrite m slot) := ⟨_, _, rfl⟩

theorem counted_floatFrame (s : State) (g slot : Nat) : Counted s (s.floatFrame g slot) :=
  counted_foldl (fun t _ => counted_floatWrite t _ _) _ s

theorem counted_journalWritten (s : State) (g : Nat) (k : Skim) : Counted s (s.journalWritten g k) := by
  refine counted_foldl (fun t p => ?_) _ s
  split
  · split
    · exact counted_floatWrite t _ _
    · exact counted_refl t
  · exact counted_refl t

/-! Rows in flight. -/

/-- A list without its repeats has the elements of the list. -/
theorem mem_nub {l : List Nat} {x : Nat} : x ∈ nub l ↔ x ∈ l := by
  suffices joined : ∀ seen : List Nat,
      x ∈ l.foldl (fun acc y => if acc.contains y then acc else acc ++ [y]) seen ↔ x ∈ seen ∨ x ∈ l by
    exact (joined []).trans (by simp only [List.not_mem_nil, false_or])
  induction l with
  | nil => simp
  | cons y l ih =>
    intro seen
    rw [List.foldl_cons, ih]
    split
    · next old =>
      rw [List.mem_cons]
      refine ⟨Or.imp_right .inr, ?_⟩
      rintro (before | rfl | later)
      · exact .inl before
      · exact .inl (List.contains_iff_mem.mp old)
      · exact .inr later
    · rw [List.mem_append, List.mem_singleton, List.mem_cons, or_assoc]

theorem contains_nub_append (l m : List Nat) (x : Nat) : (nub (l ++ m)).contains x = (l.contains x || m.contains x) := by
  rw [← List.contains_append, Bool.eq_iff_iff, List.contains_iff_mem, List.contains_iff_mem, mem_nub]

theorem putSkim_skim (s : State) (g j : Nat) (k : Skim) : (s.putSkim g k).skim j = if g = j then k else s.skim j := by
  have found : SMap.find (SMap.put s.stripe.skim g k) j = _ := find_put ..
  unfold State.skim SMap.findD State.putSkim
  rw [found]
  split <;> rfl

/-! The commands. -/

section
variable {s : State} {g at_ : Nat} {a b : Bool}

/-- The journal of a group after its frame stands: sequence and slot one on, its rows in flight (08 R243). -/
def frameStands (k : Skim) : Skim := { k with
  writing := false, seq := k.seq + 1, slot := k.slot + 1, kind := if k.kind = 2 ∧ k.batch = [] then 2 else 1,
  inFlight := nub (k.inFlight ++ k.batch), batch := [] }

/-- A frame is on its way and has reached one member, and each member of the pair that serves (08 R243). -/
def frameReached (s : State) (g : Nat) (a b : Bool) : Bool :=
  (s.skim g).writing && (a || b) && (a || !s.posInService g (s.skim g).a) && (b || !s.posInService g (s.skim g).b)

theorem exec_frameStands (reached : frameReached s g a b = true) (fits : (s.skim g).slot + 1 < 4096) :
    exec (.skimJournalWriteDone g a b at_) s = .next
      ((((s.tick at_).putSkim g (frameStands (s.skim g))).journalWritten g (s.skim g)).startJournal g).settle :=
  congrArg Host.Outcome.next ((if_pos reached).trans (congrArg State.settle (if_neg fits.not_ge)))

theorem exec_frameShort (short : frameReached s g a b = false) : exec (.skimJournalWriteDone g a b at_) s = .next (s.tick at_) :=
  congrArg Host.Outcome.next (if_neg (Bool.eq_false_iff.mp short))

end

end Sys2Proof.Proofs
end

section
/-! PROOFS. Missing units rebuilt and copied back (08 R251, R252, R254). -/

namespace Sys2Proof.Proofs

open Sys2Proof Machine Laws

section
variable {s : State} {m row at_ : Nat} {x : Member} {spare : Bool}

/-- The unit of the row has a substitute already (08 R252). -/
def hasSubstitute (s : State) (m row : Nat) : Bool := s.stripe.subst.any (fun e => e.1 == m && e.2.1 == s.substPart m row)

/-- The device with a missing unit written to its substitute and counted. -/
def unitRebuilt (s : State) (m row : Nat) : State := (s.substitute m row).bump F.ST_REBUILD_STAT.ROWS_DONE 0 1

/-- The device with a unit back on its member. -/
def unitBack (s : State) (m row : Nat) : State := { s with stripe := { s.stripe with
  subst := s.stripe.subst.filter (fun e => !(e.1 == m && e.2.1 == row)) } }

/-- The device with a tier P member in service again, before its save rate counts (08 R254). -/
def memberBack (s : State) (m row : Nat) (x : Member) : State := { s with
  stripe := { s.stripe with
    subst := (unitBack s m row).stripe.subst.filter (fun e => e.1 != m),
    members := SMap.put s.stripe.members m { x with st := .inService, rowsLeft := 0 } },
  lines := { s.lines with saveOut := removeNum m s.lines.saveOut } }

theorem exec_rebuildUnit (found : SMap.find s.stripe.members m = some x) (st : x.st = .rebuilding) :
    exec (.rebuildUnitDone m row spare at_) s = .next (
      if (!(spare && (hasSubstitute s m row || s.spareRoom m (s.substituteFor m row)))) = true then
        State.rebuildEnded (((s.tick at_).putMember m { x with st := .lost }).raise F.ST_STATUS.SPARE_SHORT)
      else if x.rowsLeft - 1 = 0 then State.rebuildEnded
        (((unitRebuilt (s.tick at_) m row).putMember m { x with st := .lost, rowsLeft := 0 }).raise F.ST_STATUS.REBUILD_DONE)
      else (unitRebuilt (s.tick at_) m row).putMember m { x with rowsLeft := x.rowsLeft - 1 }) := by
  rw [exec_rebuildUnitDone, execRebuildUnitDone]
  simp only [tick_stripe, found, st]
  rfl

theorem exec_copyBackUnit (found : SMap.find s.stripe.members m = some x) (st : x.st = .copyBack) (low : m < 32) :
    exec (.rebuildUnitDone m row spare at_) s = .next (
      if x.rowsLeft - 1 = 0 then State.settle (State.rebuildEnded (State.updateSaveRate
        ((memberBack (s.tick at_) m row x).raise F.ST_STATUS.COPYBACK_DONE)))
      else (unitBack (s.tick at_) m row).putMember m { x with rowsLeft := x.rowsLeft - 1 }) := by
  rw [exec_rebuildUnitDone, execRebuildUnitDone]
  simp only [tick_stripe, found, st, State.putMember, low, if_true]
  rfl

/-- A unit given a substitute has one (08 R251, R252). -/
theorem substitute_hasSubstitute (low : m < 32) :
    (s.substitute m row).stripe.subst.any (fun e => e.1 == m && e.2.1 == s.substPart m row) = true := by
  have kept (l : List (Nat × Nat × Nat)) (part h : Nat) :
      (l.map (fun e => if e.2.1 == part && e.2.2 == m then (e.1, part, h) else e)).any (fun e => e.1 == m && e.2.1 == part)
        = l.any (fun e => e.1 == m && e.2.1 == part) := by
    rw [List.any_map]
    refine congrArg (l.any ·) (funext fun e => ?_)
    simp only [Function.comp]
    split
    · next moved => rw [(Bool.and_eq_true_iff.mp moved).1, beq_self_eq_true]
    · rfl
  unfold State.substitute
  simp only [if_pos low]
  split
  · next known => exact (kept ..).trans known
  · simp only [List.any_append, List.any_cons, beq_self_eq_true, Bool.and_self, Bool.true_or, Bool.or_true]

end

end Sys2Proof.Proofs
end

section
/-! PROOFS. STRIPE_ALLOWANCE_WINDOW (08 R253): what the host left of each member's rate, at least the floor. -/

namespace Sys2Proof.Proofs

open Sys2Proof Machine Laws Claims

/-- A window leaves all but how far a full resync has come. -/
theorem resyncWindow_eq (s : State) : ∃ upTo runs,
    s.resyncWindow = { s with stripe := { s.stripe with resyncAt := upTo, resyncFull := runs } } := by
  unfold State.resyncWindow
  split
  · exact ⟨_, _, rfl⟩
  · exact ⟨_, _, rfl⟩

/-- The host bytes on a member in the window that ends. -/
def hostUse (hosts : List (Nat × Nat)) (m : Nat) : Nat := ((hosts.find? (fun x => x.1 == m)).map Prod.snd).getD 0

/-- Every member's allowance set, as the window leaves it. -/
def allowances (s : State) (hosts : List (Nat × Nat)) (members : SMap Member) (old : SMap Nat) : SMap Nat :=
  members.foldl (fun l x => SMap.put l x.1 (s.allowanceOf x.1 (hostUse hosts x.1)).2) old

theorem foldl_allowances (s : State) (hosts : List (Nat × Nat)) (members : SMap Member) :
    members.foldl (fun s x => { s with stripe := { s.stripe with
      allowance := SMap.put s.stripe.allowance x.1 (s.allowanceOf x.1 (hostUse hosts x.1)).2 } }) s
    = { s with stripe := { s.stripe with allowance := allowances s hosts members s.stripe.allowance } } := by
  induction members generalizing s with
  | nil => rfl
  | cons x members ih => exact ih _

/-- A member's allowance is found where it is one of the members or is there already. -/
theorem find_allowances (s : State) (hosts : List (Nat × Nat)) {members : SMap Member} {m : Nat} {old : SMap Nat}
    (there : (∃ x ∈ members, x.1 = m) ∨ SMap.find old m = some (s.allowanceOf m (hostUse hosts m)).2) :
    SMap.find (allowances s hosts members old) m = some (s.allowanceOf m (hostUse hosts m)).2 := by
  induction members generalizing old with
  | nil => exact there.resolve_left (by simp)
  | cons x members ih =>
    refine ih ?_
    rw [find_put]
    by_cases here : x.1 = m
    · exact .inr (by rw [if_pos here, here])
    · rw [if_neg here]
      exact there.imp_left fun ⟨y, among, named⟩ =>
        ⟨y, (List.mem_cons.mp among).resolve_left fun first => here (first ▸ named), named⟩

/-- The device with every allowance set. -/
def allowed (s : State) (hosts : List (Nat × Nat)) : State :=
  { s with stripe := { s.stripe with allowance := allowances s hosts s.stripe.members s.stripe.allowance } }

/-- The shares of the members at rebuild or copy-back. -/
def shares (s : State) (hosts : List (Nat × Nat)) : List Nat :=
  (s.stripe.members.filter (fun x => x.2.st == .rebuilding || x.2.st == .copyBack)).map
    (fun x => (s.allowanceOf x.1 (hostUse hosts x.1)).1)

/-- The device with the lowest share of the members at rebuild shown. -/
def shareShown (s : State) (l : List Nat) : State :=
  match l.min? with
  | some n => s.put F.ST_REBUILD_STAT.SHARE_PCT n
  | none => s

theorem exec_allowanceWindow (s : State) (hosts : List (Nat × Nat)) (at_ : Nat) :
    exec (.stripeAllowanceWindow hosts at_) s
      = .next (shareShown (allowed (s.tick at_).resyncWindow hosts) (shares (s.tick at_).resyncWindow hosts)) := by
  have each := foldl_allowances (s.tick at_).resyncWindow hosts (s.tick at_).resyncWindow.stripe.members
  refine congrArg Host.Outcome.next ?_
  unfold hostUse at each
  dsimp only
  rw [each]
  change (match shares (s.tick at_).resyncWindow hosts with | [] => _ | h :: t => _) = _
  cases shares (s.tick at_).resyncWindow hosts <;> rfl

theorem share_le (s : State) (m host : Nat) : (s.allowanceOf m host).1 ≤ 100 := by
  have floor : s.floorPct ≤ 100 := Nat.min_le_left ..
  have pct (a b : Nat) : pctOf a b ≤ 100 := by
    unfold pctOf
    split
    · exact Nat.zero_le _
    · exact Nat.min_le_left ..
  exact Nat.max_le.mpr ⟨floor, pct ..⟩

/-- The lowest share is shown, where there is one; of the rest only a register changes. -/
theorem shareShown_spec {s : State} (wf : RegsOrdered s) {l : List Nat} (small : ∀ n ∈ l, n ≤ 100) :
    (∀ n ∈ l, (shareShown s l).get F.ST_REBUILD_STAT.SHARE_PCT ≤ n)
    ∧ (l ≠ [] → (shareShown s l).get F.ST_REBUILD_STAT.SHARE_PCT ∈ l)
    ∧ ∃ regs, shareShown s l = { s with regs := regs } := by
  unfold shareShown
  cases lowest : l.min? with
  | none =>
    rw [List.min?_eq_none_iff] at lowest
    subst lowest
    exact ⟨fun _ among => absurd among List.not_mem_nil, fun nonempty => absurd rfl nonempty, _, rfl⟩
  | some n =>
    obtain ⟨among, least⟩ := List.min?_eq_some_iff.mp lowest
    have shown : (s.put F.ST_REBUILD_STAT.SHARE_PCT n).get F.ST_REBUILD_STAT.SHARE_PCT = n :=
      (getF_setF wf F.ST_REBUILD_STAT.SHARE_PCT 0 n (by decide)).trans
        (Nat.mod_eq_of_lt ((small n among).trans_lt (by decide)))
    dsimp only
    rw [shown]
    exact ⟨least, fun _ => among, _, rfl⟩

end Sys2Proof.Proofs
end

section
/-! PROOFS. Reshape (08 R258, Tables 8.6 and 8.7): its commands, and a span moved to its new slots. -/

namespace Sys2Proof.Proofs

open Sys2Proof Machine Laws Claims

/-! The commands of ST_RESHAPE_CMD. -/

section
variable {s : State} {via : Via} {at_ : Nat}

/-- A command of ST_RESHAPE_CMD that is taken, with none running, has its code in OP and runs. -/
theorem command_reshape (wf : RegsOrdered s) (taken : Taken s via .ST_RESHAPE_CMD 0) {v : Word}
    (known : v &&& ~~~(knownBits .ST_RESHAPE_CMD) = 0#64) (run : State → State) :
    (s.tick at_).command via .ST_RESHAPE_CMD 0 [] v run = run (s.tick at_) :=
  command_taken (s := s.tick at_) wf (taken_tick taken at_) (fun _ none => absurd none List.not_mem_nil) (.inl rfl) known run

theorem exec_reshapeStart_taken (wf : RegsOrdered s) (taken : Taken s via .ST_RESHAPE_CMD 0)
    (idle : s.isSet F.ST_RESHAPE_CMD.BUSY 0 = false) :
    exec (.reshapeStart via at_) s = .next ((s.tick at_).put F.ST_RESHAPE_CMD.OP 1).reshapeStart :=
  congrArg Host.Outcome.next ((command_reshape wf taken (by decide) _).trans (if_neg (Bool.eq_false_iff.mp idle)))

theorem exec_reshapePause_taken (wf : RegsOrdered s) (taken : Taken s via .ST_RESHAPE_CMD 0)
    (idle : s.isSet F.ST_RESHAPE_CMD.BUSY 0 = false) :
    exec (.reshapePause via at_) s = .next ((s.tick at_).put F.ST_RESHAPE_CMD.OP 2).reshapePause :=
  congrArg Host.Outcome.next ((command_reshape wf taken (by decide) _).trans (if_neg (Bool.eq_false_iff.mp idle)))

theorem exec_reshapeResume_taken (wf : RegsOrdered s) (taken : Taken s via .ST_RESHAPE_CMD 0)
    (idle : s.isSet F.ST_RESHAPE_CMD.BUSY 0 = false) :
    exec (.reshapeResume via at_) s = .next ((s.tick at_).put F.ST_RESHAPE_CMD.OP 3).reshapeResume :=
  congrArg Host.Outcome.next ((command_reshape wf taken (by decide) _).trans (if_neg (Bool.eq_false_iff.mp idle)))

end

/-! START (08 R258 to R260). -/

section
variable {s : State} {g old : StripeGeom}

/-- The target changes tier P. -/
def changesP (g old : StripeGeom) : Bool := g.groups != old.groups || g.pWidth != old.pWidth || g.pSpare != old.pSpare

/-- What refuses a target (08 R258). -/
def reshapeRefused (s : State) (g old : StripeGeom) : Bool :=
  !(changesP g old || g.fWidth != old.fWidth) || s.rebuilding || s.stripe.resyncFull
    || (changesP g old && decide (s.geomP g < s.framesIn .p (fun _ => true)))
    || (g.fWidth != old.fWidth && decide (s.geomF g.fWidth < s.framesIn .f (fun _ => true)))
    || (changesP g old && !s.extentsFree g) || s.stripe.reshape.st != 0

/-- A reshape of tier P at its first span. -/
def reshapeP (s : State) : State := { s with stripe := { s.stripe with reshape := {
  st := 1, tier := 0, total := (s.tier.spans.filter (fun x => x.2.home == .p)).length, cursor := 0,
  sinceCursor := 0, saved := 0, autoPaused := false, noRoom := false } } }

/-- At cursor 0 every span of home P is left to move. -/
theorem spansLeft_atStart (s : State) (start : s.stripe.reshape.cursor = 0) :
    s.spansLeft = (s.tier.spans.filter (fun x => x.2.home == .p)).length := by
  unfold State.spansLeft
  simp only [start, Nat.zero_le, decide_true, Bool.and_true]

/-- A target that is not refused starts in the tier that it changes first. -/
theorem reshapeStart_accepted (target : s.stripe.target = some g) (geom : s.stripe.geom = some old)
    (accepted : reshapeRefused s g old = false) :
    s.reshapeStart = ((if changesP g old = true then reshapeP s else s.reshapeF old g).reshapeCode 0).checkReshape := by
  have first : State.spansLeft { s with stripe := { s.stripe with reshape := {} } }
      = (s.tier.spans.filter (fun x => x.2.home == .p)).length := spansLeft_atStart _ rfl
  unfold State.reshapeStart
  rw [target, geom]
  refine (if_neg (Bool.eq_false_iff.mp accepted)).trans ?_
  dsimp only
  rw [first]
  rfl

theorem changesP_iff : changesP g old = true ↔ g.groups ≠ old.groups ∨ g.pWidth ≠ old.pWidth ∨ g.pSpare ≠ old.pSpare := by
  rw [changesP, Bool.or_eq_true, Bool.or_eq_true, bne_iff_ne, bne_iff_ne, bne_iff_ne, or_assoc]

/-- A target that changes a tier, and fits each that it changes, is not refused while nothing else moves units (08 R258). -/
theorem reshapeRefused_eq_false (changes : changesP g old = true ∨ g.fWidth ≠ old.fWidth) (quiet : s.rebuilding = false)
    (noResync : s.stripe.resyncFull = false) (atRest : s.stripe.reshape.st = 0)
    (fitsP : changesP g old = true → s.framesIn .p (fun _ => true) ≤ s.geomP g ∧ s.extentsFree g = true)
    (fitsF : g.fWidth ≠ old.fWidth → s.framesIn .f (fun _ => true) ≤ s.geomF g.fWidth) : reshapeRefused s g old = false := by
  have changed : (changesP g old || g.fWidth != old.fWidth) = true := by
    rwa [Bool.or_eq_true, bne_iff_ne]
  have roomF : (g.fWidth != old.fWidth && decide (s.geomF g.fWidth < s.framesIn .f (fun _ => true))) = false := by
    by_cases same : g.fWidth = old.fWidth
    · rw [same, bne_self_eq_false, Bool.false_and]
    · rw [decide_eq_false (fitsF same).not_gt, Bool.and_false]
  obtain ⟨roomP, freeP⟩ : (changesP g old && decide (s.geomP g < s.framesIn .p (fun _ => true))) = false
      ∧ (changesP g old && !s.extentsFree g) = false := by
    cases p : changesP g old with
    | false => exact ⟨rfl, rfl⟩
    | true =>
      obtain ⟨fits, extents⟩ := fitsP p
      rw [decide_eq_false fits.not_gt, extents]
      exact ⟨rfl, rfl⟩
  rw [reshapeRefused, changed, quiet, noResync, roomP, roomF, freeP, atRest]
  rfl

/-- The operation of a reshape command leaves what the geometry in use gives. -/
theorem reshapeRefused_putOp (wf : RegsOrdered s) (op : Nat) :
    reshapeRefused (s.put F.ST_RESHAPE_CMD.OP op) g old = reshapeRefused s g old := by
  have other (f : FieldRef) (apart : Reg.addr .ST_RESHAPE_CMD 0 ≠ f.reg.addr 0) :
      (s.put F.ST_RESHAPE_CMD.OP op).get f = s.get f := getF_setF_other wf F.ST_RESHAPE_CMD.OP f 0 0 op apart
  have width : (s.put F.ST_RESHAPE_CMD.OP op).pWidth = s.pWidth := other F.ST_P_CFG.WIDTH (by decide)
  have groups : (s.put F.ST_RESHAPE_CMD.OP op).pGroups = s.pGroups := other F.ST_P_CFG.GROUPS (by decide)
  have rows : (s.put F.ST_RESHAPE_CMD.OP op).groupRows = s.groupRows := by
    rw [State.groupRows, width, groups]
    rfl
  have fitsP : (s.put F.ST_RESHAPE_CMD.OP op).geomP g = s.geomP g := by
    rw [State.geomP, rows]
    rfl
  have widthF : (s.put F.ST_RESHAPE_CMD.OP op).fWidth = s.fWidth := other F.ST_F_CFG.WIDTH (by decide)
  have band (w : Nat) : (s.put F.ST_RESHAPE_CMD.OP op).bandCap w = s.bandCap w :=
    congrArg (· * 4 * (w - 2)) (other F.ST_F_CFG.PAGES (by decide))
  have fitsF (w : Nat) : (s.put F.ST_RESHAPE_CMD.OP op).geomF w = s.geomF w := by
    rw [State.geomF, widthF, band, band]
    rfl
  have row : (s.put F.ST_RESHAPE_CMD.OP op).rowOf = s.rowOf := by
    funext slot
    rw [State.rowOf, width]
    rfl
  have extents : (s.put F.ST_RESHAPE_CMD.OP op).extentsFree g = s.extentsFree g := by
    rw [State.extentsFree, State.groupExtents, rows, State.extentsUsed, row]
    rfl
  rw [reshapeRefused, fitsP, fitsF, extents]
  rfl

/-- RESHAPE_START of a target that is not refused. -/
theorem exec_reshapeStarts {via : Via} {at_ : Nat} (wf : RegsOrdered s) (taken : Taken s via .ST_RESHAPE_CMD 0)
    (idle : s.isSet F.ST_RESHAPE_CMD.BUSY 0 = false) (target : s.stripe.target = some g) (geom : s.stripe.geom = some old)
    (accepted : reshapeRefused s g old = false) :
    exec (.reshapeStart via at_) s = .next (State.checkReshape (State.reshapeCode
      (if changesP g old = true then reshapeP ((s.tick at_).put F.ST_RESHAPE_CMD.OP 1)
        else ((s.tick at_).put F.ST_RESHAPE_CMD.OP 1).reshapeF old g) 0)) := by
  rw [exec_reshapeStart_taken wf taken idle]
  exact congrArg Host.Outcome.next (reshapeStart_accepted (s := (s.tick at_).put F.ST_RESHAPE_CMD.OP 1) target geom
    ((reshapeRefused_putOp (s := s.tick at_) wf 1).trans accepted))

end

/-! A span moved (08 Table 8.6). -/

section
variable {span group : Nat}

/-- The slot map with a frame of a span in the slot given, where the map lists the frame. -/
def withSlot (span group : Nat) (pmap : SMap (Nat × Nat)) (x : Nat × Nat) : SMap (Nat × Nat) :=
  if SMap.has pmap (span * 256 + x.1) = true then SMap.put pmap (span * 256 + x.1) (group, x.2) else pmap

/-- The slot map with the frames of a span that it lists in the slots given. -/
def reslotted (span group : Nat) (slots : List (Nat × Nat)) (pmap : SMap (Nat × Nat)) : SMap (Nat × Nat) :=
  slots.foldl (withSlot span group) pmap

/-- A frame put leaves the slots of the others. -/
theorem find_withSlot_other {pmap : SMap (Nat × Nat)} {x : Nat × Nat} {f : Nat} (other : f ≠ span * 256 + x.1) :
    SMap.find (withSlot span group pmap x) f = SMap.find pmap f := by
  unfold withSlot
  split
  · rw [find_put, if_neg other.symm]
  · rfl

/-- A frame of a span in its slot, where it has one. -/
def reslot (span group : Nat) (s : State) (x : Nat × Nat) : State :=
  if SMap.has s.tier.pmap (span * 256 + x.1) = true then
    ({ s with tier := { s.tier with pmap := SMap.put s.tier.pmap (span * 256 + x.1) (group, x.2) } } : State).floatFrame group x.2
  else s

theorem foldl_reslot (slots : List (Nat × Nat)) (s : State) : ∃ regions modWrites,
    slots.foldl (reslot span group) s = { s with tier := { s.tier with
      pmap := reslotted span group slots s.tier.pmap, regions := regions, modWrites := modWrites } } := by
  induction slots generalizing s with
  | nil => exact ⟨_, _, rfl⟩
  | cons x slots ih =>
    obtain ⟨regions, modWrites, first⟩ : ∃ regions modWrites, reslot span group s x = { s with tier := { s.tier with
        pmap := reslotted span group [x] s.tier.pmap, regions := regions, modWrites := modWrites } } := by
      unfold reslot reslotted
      rw [List.foldl_cons, List.foldl_nil, withSlot]
      split
      · exact counted_floatFrame _ group x.2
      · exact ⟨_, _, rfl⟩
    obtain ⟨regions', modWrites', rest⟩ := ih (reslot span group s x)
    refine ⟨regions', modWrites', rest.trans ?_⟩
    rw [first]
    rfl

/-- Frames that are not given keep their slots. -/
theorem find_reslotted_other {slots : List (Nat × Nat)} {f : Nat} (other : ∀ x ∈ slots, f ≠ span * 256 + x.1)
    (pmap : SMap (Nat × Nat)) : SMap.find (reslotted span group slots pmap) f = SMap.find pmap f := by
  induction slots generalizing pmap with
  | nil => rfl
  | cons x slots ih =>
    obtain ⟨apart, rest⟩ := List.forall_mem_cons.mp other
    exact (ih rest _).trans (find_withSlot_other apart)

/-- Each frame given once, and listed, is in its slot. -/
theorem find_reslotted {slots : List (Nat × Nat)} (once : (slots.map Prod.fst).Nodup) {pmap : SMap (Nat × Nat)} {x : Nat × Nat}
    (given : x ∈ slots) (listed : SMap.has pmap (span * 256 + x.1) = true) :
    SMap.find (reslotted span group slots pmap) (span * 256 + x.1) = some (group, x.2) := by
  induction slots generalizing pmap with
  | nil => cases given
  | cons y slots ih =>
    obtain ⟨new, once⟩ := List.nodup_cons.mp once
    rcases List.mem_cons.mp given with rfl | later
    · have apart : ∀ z ∈ slots, span * 256 + x.1 ≠ span * 256 + z.1 := fun z hz same =>
        new (Nat.add_left_cancel same ▸ List.mem_map_of_mem hz)
      refine (find_reslotted_other apart _).trans ?_
      rw [withSlot, if_pos listed, find_put, if_pos rfl]
    · have apart : span * 256 + x.1 ≠ span * 256 + y.1 := fun same =>
        new (Nat.add_left_cancel same ▸ List.mem_map_of_mem later)
      refine ih once later ?_
      rw [SMap.has, find_withSlot_other apart]
      exact listed

/-- The cursor past a span, saved with every 256th (08 Table 8.6 step 5). -/
def cursorPast (r : Reshape) (span : Nat) : Reshape := { r with
  cursor := max r.cursor (span + 1), sinceCursor := if r.sinceCursor + 1 = 256 then 0 else r.sinceCursor + 1,
  saved := if r.sinceCursor + 1 = 256 then max r.cursor (span + 1) else r.saved }

/-- The device with its reshape so. -/
def withReshape (s : State) (r : Reshape) : State := { s with stripe := { s.stripe with reshape := r } }

theorem exec_spanMoved {s : State} {slots : List (Nat × Nat)} {at_ : Nat} (tierP : s.stripe.reshape.tier = 0)
    (runs : s.stripe.reshape.st = 1) (clean : s.spanDirty span = false) :
    exec (.reshapeSpanDone span group slots at_) s = .next (State.settle (State.checkReshape
      (withReshape (slots.foldl (reslot span group) (s.tick at_)) (cursorPast s.stripe.reshape span)))) := by
  have going : (s.tick at_).stripe.reshape.tier = 0 ∧ ((s.tick at_).stripe.reshape.st = 1
      ∨ ((s.tick at_).stripe.reshape.st = 2 ∧ (s.tick at_).stripe.reshape.autoPaused = false))
      ∧ (!(s.tick at_).spanDirty span) = true := ⟨tierP, .inl runs, congrArg (!·) clean⟩
  rw [exec_reshapeSpanDone, execReshapeSpanDone]
  exact congrArg Host.Outcome.next (if_pos going)

end

end Sys2Proof.Proofs
end

section
/-! PROOFS. The commands of stripes (08 R239 to R258), each clause from the lemmas above. -/

namespace Sys2Proof.Proofs

open Sys2Proof Machine Laws Claims

section
variable {s : State}

/-- A frame that stands opens the rows that it names; of the rest only Float's counts change (08 R243). -/
theorem frameStands_opensRows {g at_ : Nat} {a b : Bool} (reached : frameReached s g a b = true)
    (fits : (s.skim g).slot + 1 < 4096) : ∃ u : State,
      exec (.skimJournalWriteDone g a b at_) s = .next (State.settle (u.startJournal g))
      ∧ u.skim g = frameStands (s.skim g) ∧ (∀ j, j ≠ g → u.skim j = s.skim j)
      ∧ u = { s.tick at_ with stripe := { s.stripe with skim := u.stripe.skim }, tier := { s.tier with
          regions := u.tier.regions, modWrites := u.tier.modWrites } } := by
  obtain ⟨regions, modWrites, written⟩ :=
    counted_journalWritten ((s.tick at_).putSkim g (frameStands (s.skim g))) g (s.skim g)
  have ran := exec_frameStands (at_ := at_) reached fits
  rw [written] at ran
  refine ⟨_, ran, ?_, fun j other => ?_, rfl⟩
  · exact (putSkim_skim (s.tick at_) g g _).trans (if_pos rfl)
  · exact (putSkim_skim (s.tick at_) g j _).trans (if_neg other.symm)

/-- A unit for which there is spare space goes to its substitute, and the last one ends the rebuild (08 R251). -/
theorem exec_unitRebuilt {m row at_ : Nat} {x : Member} (found : SMap.find s.stripe.members m = some x) (st : x.st = .rebuilding)
    (space : hasSubstitute s m row = true ∨ s.spareRoom m (s.substituteFor m row) = true) :
    exec (.rebuildUnitDone m row true at_) s = .next (if x.rowsLeft - 1 = 0 then State.rebuildEnded
        (((unitRebuilt (s.tick at_) m row).putMember m { x with st := .lost, rowsLeft := 0 }).raise F.ST_STATUS.REBUILD_DONE)
      else (unitRebuilt (s.tick at_) m row).putMember m { x with rowsLeft := x.rowsLeft - 1 }) := by
  rw [exec_rebuildUnit found st, Bool.or_eq_true_iff.mpr space]
  rfl

/-- Without spare space the rebuild stops (08 R252). -/
theorem exec_spareShort {m row at_ : Nat} {x : Member} {spare : Bool} (found : SMap.find s.stripe.members m = some x)
    (st : x.st = .rebuilding)
    (short : spare = false ∨ hasSubstitute s m row = false ∧ s.spareRoom m (s.substituteFor m row) = false) :
    exec (.rebuildUnitDone m row spare at_) s = .next
      (State.rebuildEnded (((s.tick at_).putMember m { x with st := .lost }).raise F.ST_STATUS.SPARE_SHORT)) := by
  have none : (spare && (hasSubstitute s m row || s.spareRoom m (s.substituteFor m row))) = false := by
    rw [Bool.and_eq_false_iff, Bool.or_eq_false_iff]
    exact short
  rw [exec_rebuildUnit found st, none]
  rfl

/-- A member back in service has no substitute and is none of those that the save rate counts without (08 R254). -/
theorem memberBack_spec (m row : Nat) (x : Member) :
    SMap.find (memberBack s m row x).stripe.members m = some { x with st := .inService, rowsLeft := 0 }
    ∧ (∀ e ∈ (memberBack s m row x).stripe.subst, e.1 ≠ m) ∧ (memberBack s m row x).lines.saveOut.contains m = false := by
  refine ⟨(find_put ..).trans (if_pos rfl), fun e among => ?_, ?_⟩
  · exact bne_iff_ne.mp (List.mem_filter.mp among).2
  · rw [Bool.eq_false_iff]
    exact fun among => bne_iff_ne.mp (List.mem_filter.mp (List.contains_iff_mem.mp among)).2 rfl

/-- After a window every member has its allowance, the lowest share of those at rebuild shows, and a full resync has gone on (08
R248, R253). -/
theorem allowanceWindow_spec (wf : RegsOrdered s) (hosts : List (Nat × Nat)) (at_ : Nat) : ∃ t : State,
    exec (.stripeAllowanceWindow hosts at_) s = .next t
    ∧ (∀ x ∈ s.stripe.members, SMap.find t.stripe.allowance x.1 = some (s.allowanceOf x.1 (hostUse hosts x.1)).2)
    ∧ (∀ n ∈ shares s hosts, t.get F.ST_REBUILD_STAT.SHARE_PCT ≤ n)
    ∧ (shares s hosts ≠ [] → t.get F.ST_REBUILD_STAT.SHARE_PCT ∈ shares s hosts)
    ∧ t = { s.tick at_ with
        regs := t.regs, stripe := { (s.tick at_).resyncWindow.stripe with allowance := t.stripe.allowance } } := by
  have ran := exec_allowanceWindow s hosts at_
  obtain ⟨upTo, runs, window⟩ := resyncWindow_eq (s.tick at_)
  rw [window] at ran ⊢
  have small : ∀ n ∈ shares s hosts, n ≤ 100 := fun n among => by
    obtain ⟨x, -, rfl⟩ := List.mem_map.mp among
    exact share_le s ..
  obtain ⟨least, among, regs, rest⟩ := shareShown_spec (s := allowed { s.tick at_ with
    stripe := { s.stripe with resyncAt := upTo, resyncFull := runs } } hosts) wf small
  rw [rest] at least among
  exact ⟨_, ran.trans (congrArg Host.Outcome.next rest), fun x member => find_allowances s hosts (.inl ⟨x, member, rfl⟩),
    least, among, rfl⟩

/-- A frame moved with its span is in its new slot, and the others stay (08 Table 8.6). -/
theorem spanMoved_spec {span group at_ : Nat} {slots : List (Nat × Nat)} (tierP : s.stripe.reshape.tier = 0)
    (runs : s.stripe.reshape.st = 1) (clean : s.spanDirty span = false) (once : (slots.map Prod.fst).Nodup) : ∃ v : State,
    exec (.reshapeSpanDone span group slots at_) s = .next (State.settle (State.checkReshape v))
    ∧ v.stripe.reshape = cursorPast s.stripe.reshape span
    ∧ (∀ x ∈ slots, SMap.has s.tier.pmap (span * 256 + x.1) = true →
        SMap.find v.tier.pmap (span * 256 + x.1) = some (group, x.2))
    ∧ (∀ f, (∀ x ∈ slots, f ≠ span * 256 + x.1) → SMap.find v.tier.pmap f = SMap.find s.tier.pmap f)
    ∧ v = { s.tick at_ with stripe := { s.stripe with reshape := v.stripe.reshape }, tier := { s.tier with
        pmap := v.tier.pmap, regions := v.tier.regions, modWrites := v.tier.modWrites } } := by
  obtain ⟨regions, modWrites, moved⟩ := foldl_reslot (span := span) (group := group) slots (s.tick at_)
  have ran := exec_spanMoved (group := group) (slots := slots) (at_ := at_) tierP runs clean
  rw [moved] at ran
  exact ⟨_, ran, rfl, fun x given listed => find_reslotted once given listed, fun f other => find_reslotted_other other _, rfl⟩

end

/-- Settles O42, command by command: a journal frame's rows, a rebuilt or copied-back unit, a window's allowances, a reshape's
commands and a span moved. -/
theorem journalRebuildAndReshapeComplete : Obligations.JournalRebuildAndReshapeComplete := by
  refine ⟨fun s g row at_ a b => ⟨fun reached fits => ?_, exec_frameShort, rfl⟩,
    fun s m row at_ x found low => ⟨fun st space => ?_, fun st spare short => ?_, fun st => ?_⟩, fun s hosts at_ wf => ?_,
    fun s via g old span group at_ slots wf => ⟨fun taken idle => ⟨?_, ?_, ?_, ?_⟩, fun tierP runs clean once => ?_⟩⟩
  · obtain ⟨u, ran, own, others, rest⟩ := frameStands_opensRows (at_ := at_) reached fits
    refine ⟨u, ran, ?_, fun r => ?_, others, rest⟩
    · rw [own]
      rfl
    · rw [own]
      exact contains_nub_append ..
  · have ran := exec_unitRebuilt (row := row) (at_ := at_) found st space
    refine ⟨fun more => ?_, fun last => ?_, substitute_hasSubstitute low⟩
    · rwa [if_neg (Nat.sub_ne_zero_of_lt more)] at ran
    · rwa [if_pos (Nat.sub_eq_zero_of_le last.le)] at ran
  · exact exec_spareShort found st short
  · have ran := exec_copyBackUnit (row := row) (at_ := at_) (spare := true) found st low
    refine ⟨fun more => ?_, fun last => ?_⟩
    · rwa [if_neg (Nat.sub_ne_zero_of_lt more)] at ran
    · rw [if_pos (Nat.sub_eq_zero_of_le last.le)] at ran
      obtain ⟨serves, noSubstitute, counted⟩ := memberBack_spec (s := s.tick at_) m row x
      exact ⟨memberBack (s.tick at_) m row x, ran, serves, noSubstitute, counted, rfl⟩
  · obtain ⟨t, ran, allowance, least, among, rest⟩ := allowanceWindow_spec wf hosts at_
    refine ⟨t, ran, allowance, fun x work => least _ (List.mem_map_of_mem work), fun anyWork => ?_, rest⟩
    obtain ⟨x, work, shown⟩ := List.mem_map.mp (among (mt List.map_eq_nil_iff.mp anyWork))
    exact ⟨x, work, shown.symm⟩
  · intro target geom changes quiet noResync atRest fitsP extents fitsF
    have changesTier := changesP_iff.mpr changes
    have ran := exec_reshapeStarts (at_ := at_) wf taken idle target geom
      (reshapeRefused_eq_false (.inl changesTier) quiet noResync atRest (fun _ => ⟨fitsP, extents⟩) fitsF)
    rwa [if_pos changesTier] at ran
  · intro target geom groups width spare changes quiet noResync atRest fitsF
    have keepsP : ¬changesP g old = true := fun changesTier =>
      (changesP_iff.mp changesTier).elim (absurd groups) (Or.rec (absurd width) (absurd spare))
    have ran := exec_reshapeStarts (at_ := at_) wf taken idle target geom
      (reshapeRefused_eq_false (.inr changes) quiet noResync atRest (fun p => absurd p keepsP) (fun _ => fitsF))
    rwa [if_neg keepsP] at ran
  · exact fun runs => (exec_reshapePause_taken wf taken idle).trans (congrArg Host.Outcome.next (if_pos runs))
  · exact fun paused => (exec_reshapeResume_taken wf taken idle).trans (congrArg Host.Outcome.next (if_pos paused))
  · exact spanMoved_spec tierP runs clean once

end Sys2Proof.Proofs
end

section
/-! PROOFS. What device time leaves of the queues, bytes that a queue stores into one line, and a range that lies in one bolt (09
R270, R273, R275). -/

namespace Sys2Proof.Proofs

open Sys2Proof Machine Laws

/-! Device time moves nothing of the queues. -/

section
variable (s : State) (at_ q ix : Nat)

@[simp] theorem tick_desc : (s.tick at_).desc q ix = s.desc q ix := rfl
@[simp] theorem tick_queue : (s.tick at_).queue q = s.queue q := rfl
@[simp] theorem tick_cap : (s.tick at_).cap q = s.cap q := rfl
@[simp] theorem tick_inService : (s.tick at_).inService = s.inService := rfl
@[simp] theorem tick_mayStart (x : Desc) : (s.tick at_).mayStart x = s.mayStart x := rfl

end

/-! Bytes and parts. -/

theorem length_leBytes (n v : Nat) : (leBytes n v).length = n := by
  induction n generalizing v with
  | zero => rfl
  | succ n ih => rw [leBytes, List.length_cons, ih]

/-- Bytes that lie in one line are one store. -/
theorem lineStores_one {off n : Nat} {bs : List Byte} (long : bs.length = n) (nonempty : 0 < n) (inLine : off % 64 + n ≤ 64) :
    lineStores off bs = [(off / 64 * 64, beRange (off % 64) n, lineOfBytes (List.replicate (off % 64) 0#8 ++ bs))] := by
  subst long
  have lines : lineOfOff (off + bs.length - 1) - lineOfOff off + 1 = 1 := by
    unfold lineOfOff
    omega
  have low : max off (off / 64 * 64) = off := by omega
  have high : min (off + bs.length) (off / 64 * 64 + 64) = off + bs.length := by omega
  unfold lineStores
  rw [lines]
  simp only [List.range_one, List.map_cons, List.map_nil, Nat.add_zero, lineOfOff, low, high, Nat.add_sub_cancel_left,
    Nat.sub_self, List.drop_zero, List.take_length]

/-- A range that lies in one bolt is one part. -/
theorem boltParts_one {lo n : Nat} (nonempty : 0 < n) (inBolt : boltOfOff lo = boltOfOff (lo + n - 1)) :
    boltParts lo n = [(lo, n)] := by
  have bolts : rangeBolts lo n = [boltOfOff lo] := by
    rw [rangeBolts, if_neg nonempty.ne', ← inBolt, Nat.sub_self]
    rfl
  unfold boltOfOff at inBolt
  have low : max lo (lo / 2 ^ 36 * 2 ^ 36) = lo := by omega
  have high : min (lo + n) ((lo / 2 ^ 36 + 1) * 2 ^ 36) = lo + n := by omega
  rw [boltParts, bolts]
  simp only [List.map_cons, List.map_nil, boltOfOff, low, high, Nat.add_sub_cancel_left]

end Sys2Proof.Proofs
end

section
/-! PROOFS. Doorbells (09 R266, R267). -/

namespace Sys2Proof.Proofs

open Sys2Proof Machine Laws Claims

section
variable {s : State} {via : Via} {q at_ : Nat} {v : Word} {w : AccW} {e : QEntry}

/-- A doorbell write of 64 bits that is served rings, and the rules that follow run. -/
theorem exec_doorbellWrite_full (served : Served s via (0x2000000 + 8 * q)) :
    exec (.doorbellWrite via q .full v at_) s = .next ((s.tick at_).ringDoorbell via q v).settle := by
  rw [exec_doorbellWrite, execDoorbellWrite, State.writeDoorbell, admit_served (served_tick served at_)]

/-- A doorbell write of 32 bits is refused. -/
theorem exec_doorbellWrite_half (served : Served s via (0x2000000 + 8 * q)) (half : w ≠ .full) :
    exec (.doorbellWrite via q w v at_) s = .next ((s.tick at_).doorbellError via q 7 F.QU_STATUS.DB_BAD) := by
  rw [exec_doorbellWrite, execDoorbellWrite, State.writeDoorbell, admit_served (served_tick served at_)]
  cases w with
  | full => exact absurd rfl half
  | lo => rfl
  | hi => rfl

theorem ringDoorbell_missing (missing : s.queue q = none) :
    s.ringDoorbell via q v = s.doorbellError via q 13 F.QU_STATUS.DB_INVALID := by
  rw [State.ringDoorbell, missing]

/-- With no window completion waiting none is written. -/
theorem flushWindows_none (none : (s.cap q).done = []) (fuel : Nat) : s.flushWindows q fuel = s := by
  cases fuel with
  | zero => rfl
  | succ fuel => cases entry : s.queue q <;> simp only [State.flushWindows, none, entry]

/-- A queue in the context cache asks for no context. -/
theorem touchContext_held (held : s.queues.contexts.contains q = true) : s.touchContext q = s :=
  if_pos (by rw [held, Bool.true_or])

/-- The doorbell of a queue rung by its tenant or by MGMT. -/
theorem doorbellAllowed_own
    (own : match via with | .mgmt => True | .host p l => SMap.find s.bay.ldTenant (p * 16 + l) = some e.tenant) :
    s.doorbellAllowed via e = true := by
  cases via with
  | mgmt => rfl
  | host p l => exact beq_iff_eq.mpr own

/-- The queue as its doorbell leaves it: the pointers that it names set, its phase looked for again. -/
def rung (s : State) (q : Nat) (v : Word) (e : QEntry) : State := { s with queues := { s.queues with
  table := SMap.put s.queues.table q { e with
    sqTail := if v.getLsbD 16 then bitsOf v 0 16 else e.sqTail, cqHead := if v.getLsbD 48 then bitsOf v 32 16 else e.cqHead },
  phaseStop := removeNum q s.queues.phaseStop } }

/-- A pointer that is not set, or lies in its ring and no further than allowed, is no error (09 R267). -/
theorem pointer_inRange {set : Bool} {size new near far : Nat} (ok : set = true → new < size ∧ near ≤ far) :
    (set && (decide (size ≤ new) || decide (far < near))) = false := by
  cases set with
  | false => rfl
  | true =>
    obtain ⟨inRing, reach⟩ := ok rfl
    rw [decide_eq_false inRing.not_ge, decide_eq_false reach.not_gt]
    rfl

/-- A doorbell with a tail and a head in range, of a queue with a context and no window completion waiting, sets them. -/
theorem ringDoorbell_inRange (entry : s.queue q = some e) (own : s.doorbellAllowed via e = true)
    (tail : v.getLsbD 16 = true → bitsOf v 0 16 < 2 ^ e.sqLog2
      ∧ (e.sqTail + 2 ^ e.sqLog2 - e.sqHead) % 2 ^ e.sqLog2 ≤ (bitsOf v 0 16 + 2 ^ e.sqLog2 - e.sqHead) % 2 ^ e.sqLog2)
    (head : v.getLsbD 48 = true → bitsOf v 32 16 < 2 ^ e.cqLog2
      ∧ (bitsOf v 32 16 + 2 ^ e.cqLog2 - e.cqHead) % 2 ^ e.cqLog2 ≤ (e.cqTail + 2 ^ e.cqLog2 - e.cqHead) % 2 ^ e.cqLog2)
    (noWindow : v.getLsbD 63 = false) (held : s.queues.contexts.contains q = true) (none : (s.cap q).done = []) :
    s.ringDoorbell via q v = rung s q v e := by
  have context : (rung s q v e).touchContext q = rung s q v e := touchContext_held held
  have windows : (rung s q v e).flushWindows q 64 = rung s q v e := flushWindows_none (s := rung s q v e) none 64
  simp only [State.ringDoorbell, entry, own, pointer_inRange tail, pointer_inRange head, noWindow, Bool.not_true, Bool.not_false,
    Bool.or_self, Bool.false_eq_true, if_false, if_true]
  exact (congrArg (fun t => State.flushWindows t q 64) context).trans windows

end

end Sys2Proof.Proofs
end

section
/-! PROOFS. DESCRIPTOR_FETCH (09 R268, R269): the arbiter among the queues that may fetch and hold a context. -/

namespace Sys2Proof.Proofs

open Sys2Proof Machine Laws Claims

/-- What a canonical table lists is found. -/
theorem find_of_mem {α : Type} {lo : Nat} {m : SMap α} (rises : SMap.risesFrom lo m = true) {x : Nat × α} (listed : x ∈ m) :
    lo ≤ x.1 ∧ SMap.find m x.1 = some x.2 := by
  induction m generalizing lo with
  | nil => exact absurd listed List.not_mem_nil
  | cons y rest ih =>
    obtain ⟨low, rises⟩ : lo ≤ y.1 ∧ SMap.risesFrom (y.1 + 1) rest = true := by
      simpa [SMap.risesFrom] using rises
    rcases List.mem_cons.mp listed with rfl | later
    · exact ⟨low, if_pos rfl⟩
    · obtain ⟨above, found⟩ := ih rises later
      refine ⟨by omega, (if_neg (by omega)).trans ((if_neg (by omega)).trans found)⟩

/-- The next in turn of a list is one of it. -/
theorem nextInTurn_mem {l : List Nat} (nonempty : l ≠ []) (last : Nat) : ∃ q ∈ l, nextInTurn l last = some q := by
  unfold nextInTurn
  cases found : l.find? (fun q => decide (last < q)) with
  | some q => exact ⟨q, List.mem_of_find?_eq_some found, rfl⟩
  | none => exact ⟨l.head nonempty, List.head_mem nonempty, List.head?_eq_some_head nonempty⟩

section
variable {s : State} {ready : List (Nat × Nat)}

/-- Some class with work has turns left. -/
def turnsLeft (arb : List Nat) (ready : List (Nat × Nat)) : Bool := ready.any (fun x => decide (0 < arb.getD x.2 0))

/-- The turns of the classes: with none left among those with work they start anew (09 R269). -/
def turnsOf (arb : List Nat) (ready : List (Nat × Nat)) : List Nat := if turnsLeft arb ready then arb else classWeights

/-- The arbiter after a turn of queue `q` of class `c`. -/
def turnTaken (s : State) (turns : List Nat) (q c : Nat) : State := { s with queues := { s.queues with
  arb := turns.set c (turns.getD c 0 - 1), lastOf := s.queues.lastOf.set c q } }

/-- The classes of those that are ready. -/
def readyClasses (ready : List (Nat × Nat)) : List Nat := (List.range 4).filter (fun c => ready.any (fun x => x.2 == c))

theorem mem_readyClasses {c : Nat} : c ∈ readyClasses ready ↔ c < 4 ∧ ∃ x ∈ ready, x.2 = c := by
  simp [readyClasses]

/-- No class that is ready before the first with turns left has one. -/
theorem turns_before_first {turns : List Nat} {c : Nat} {y : Nat × Nat}
    (first : (readyClasses ready).find? (fun c => decide (0 < turns.getD c 0)) = some c) (listed : y ∈ ready)
    (before : y.2 < c) : turns.getD y.2 0 = 0 := by
  rw [readyClasses, List.find?_filter] at first
  obtain ⟨-, -, none⟩ := List.find?_range_eq_some.mp first
  have noTurn := none y.2 before
  have isReady : ready.any (fun x => x.2 == y.2) = true := List.any_eq_true.mpr ⟨y, listed, beq_self_eq_true y.2⟩
  simpa [isReady] using noTurn

variable (inClass : ∀ x ∈ ready, x.2 < 4)
include inClass

theorem readyClasses_any (arb : List Nat) :
    (readyClasses ready).any (fun c => decide (0 < arb.getD c 0)) = turnsLeft arb ready := by
  rw [Bool.eq_iff_iff, turnsLeft, List.any_eq_true, List.any_eq_true]
  constructor
  · rintro ⟨c, inReady, left⟩
    obtain ⟨-, x, listed, rfl⟩ := mem_readyClasses.mp inReady
    exact ⟨x, listed, left⟩
  · rintro ⟨x, listed, left⟩
    exact ⟨x.2, mem_readyClasses.mpr ⟨inClass x listed, x, listed, rfl⟩, left⟩

/-- Among those that are ready the turns in force leave one. -/
theorem turnsOf_left (nonempty : ready ≠ []) (arb : List Nat) : ∃ x ∈ ready, 0 < (turnsOf arb ready).getD x.2 0 := by
  unfold turnsOf
  cases left : turnsLeft arb ready with
  | true =>
    obtain ⟨x, listed, more⟩ := List.any_eq_true.mp left
    exact ⟨x, listed, of_decide_eq_true more⟩
  | false =>
    have weights : ∀ c < 4, 0 < classWeights.getD c 0 := by decide
    exact ⟨ready.head nonempty, List.head_mem nonempty, weights _ (inClass _ (List.head_mem nonempty))⟩

/-- A class that is ready and has turns left, before which none has, gives its turn to its next queue. -/
theorem arbitrate_first {c q : Nat}
    (first : (readyClasses ready).find? (fun c => decide (0 < (turnsOf s.queues.arb ready).getD c 0)) = some c)
    (next : nextInTurn ((ready.filter (fun x => x.2 == c)).map Prod.fst) (s.queues.lastOf.getD c 0) = some q) :
    s.arbitrate ready = (some q, turnTaken s (turnsOf s.queues.arb ready) q c) := by
  have classes : (List.range 4).filter (fun c => ready.any (fun x => x.2 == c)) = readyClasses ready := rfl
  have turns : (if (readyClasses ready).any (fun c => decide (0 < s.queues.arb.getD c 0)) = true then s.queues.arb
      else classWeights) = turnsOf s.queues.arb ready := by
    rw [readyClasses_any inClass, turnsOf]
  simp only [State.arbitrate, classes, turns, first, next]
  rfl

/-- The arbiter gives the turn to a queue of the first class that is ready and has turns left (09 R269; log entry 34). -/
theorem arbitrate_spec (nonempty : ready ≠ []) : ∃ x ∈ ready,
    s.arbitrate ready = (some x.1, turnTaken s (turnsOf s.queues.arb ready) x.1 x.2)
    ∧ ∀ y ∈ ready, y.2 < x.2 → (turnsOf s.queues.arb ready).getD y.2 0 = 0 := by
  obtain ⟨c, first⟩ : ∃ c,
      (readyClasses ready).find? (fun c => decide (0 < (turnsOf s.queues.arb ready).getD c 0)) = some c := by
    obtain ⟨x, listed, left⟩ := turnsOf_left inClass nonempty s.queues.arb
    refine Option.isSome_iff_exists.mp (List.find?_isSome.mpr ⟨x.2, ?_, decide_eq_true left⟩)
    exact mem_readyClasses.mpr ⟨inClass x listed, x, listed, rfl⟩
  obtain ⟨-, z, zReady, sameClass⟩ := mem_readyClasses.mp (List.mem_of_find?_eq_some first)
  have queues : (ready.filter (fun x => x.2 == c)).map Prod.fst ≠ [] :=
    List.ne_nil_of_mem (List.mem_map_of_mem (List.mem_filter.mpr ⟨zReady, beq_iff_eq.mpr sameClass⟩))
  obtain ⟨q, inList, next⟩ := nextInTurn_mem queues (s.queues.lastOf.getD c 0)
  obtain ⟨x, listed, rfl⟩ := List.mem_map.mp inList
  obtain ⟨xReady, isClass⟩ := List.mem_filter.mp listed
  obtain rfl : x.2 = c := beq_iff_eq.mp isClass
  exact ⟨x, xReady, arbitrate_first inClass first next, fun y yReady before => turns_before_first first yReady before⟩

/-- The turn taken is one of those that the class had. -/
theorem turnTaken_turns {x : Nat × Nat} (listed : x ∈ ready) (four : s.queues.arb.length = 4) :
    (turnTaken s (turnsOf s.queues.arb ready) x.1 x.2).queues.arb.getD x.2 0
      = (if turnsLeft s.queues.arb ready then s.queues.arb.getD x.2 0 else classWeights.getD x.2 0) - 1 := by
  have long : (turnsOf s.queues.arb ready).length = 4 := by
    rw [turnsOf, apply_ite List.length, four]
    exact ite_self _
  have inside : x.2 < (turnsOf s.queues.arb ready).length := long ▸ inClass x listed
  have taken : ((turnsOf s.queues.arb ready).set x.2 ((turnsOf s.queues.arb ready).getD x.2 0 - 1)).getD x.2 0
      = (turnsOf s.queues.arb ready).getD x.2 0 - 1 := by
    rw [List.getD_eq_getElem?_getD, List.getElem?_set_self inside, Option.getD_some]
  refine taken.trans (congrArg (· - 1) ?_)
  unfold turnsOf
  split <;> rfl

end

section
variable {s : State} {at_ : Nat}

/-- The queues that may fetch (09 R268, R269). -/
def fetchers (s : State) : SMap QEntry := s.queues.table.filter (fun x => s.mayFetch x.1 x.2)

/-- Those of them that hold a context. -/
def readyQueues (s : State) : SMap QEntry := (fetchers s).filter (fun x => s.queues.contexts.contains x.1)

/-- The queues that are ready, with their classes. -/
def readyOf (s : State) : List (Nat × Nat) := (readyQueues s).map (fun x => (x.1, x.2.prio))

/-- A queue that is ready stands in the table. -/
theorem queue_of_ready (canonical : SMap.wf s.queues.table = true) {x : Nat × QEntry} (ready : x ∈ readyQueues s) :
    s.queue x.1 = some x.2 := by
  obtain ⟨fetches, -⟩ := List.mem_filter.mp ready
  obtain ⟨listed, -⟩ := List.mem_filter.mp fetches
  exact (find_of_mem canonical listed).2

/-- What the arbiter's choice does: its queue fetches. -/
def fetchTurn (turn : Option Nat × State) : State :=
  match turn with
  | (some q, u) => (match u.queue q with | some e => (u.fetchFrom q e).settle | none => u)
  | (none, u) => u

theorem fetchTurn_some {q : Nat} {e : QEntry} {u : State} (entry : u.queue q = some e) :
    fetchTurn (some q, u) = (u.fetchFrom q e).settle := by
  rw [fetchTurn, entry]

/-- In service either each that may fetch asks for its context, or one that is ready fetches. -/
theorem exec_descriptorFetch_inService (service : s.inService = true) : exec (.descriptorFetch at_) s = .next
    (if (readyOf s).isEmpty = true then (SMap.keys (fetchers s)).foldl State.touchContext (s.tick at_)
      else fetchTurn ((s.tick at_).arbitrate (readyOf s))) := by
  have serves : ¬(!(s.tick at_).inService) = true := by
    rw [tick_inService, service]
    decide
  exact congrArg Host.Outcome.next (if_neg serves)

theorem turnsLeft_readyOf (arb : List Nat) :
    turnsLeft arb (readyOf s) = (readyQueues s).any (fun x => decide (0 < arb.getD x.2.prio 0)) := List.any_map

theorem readyOf_isEmpty : (readyOf s).isEmpty = true ↔ readyQueues s = [] := by
  rw [List.isEmpty_iff, readyOf, List.map_eq_nil_iff]

end

end Sys2Proof.Proofs
end

section
/-! PROOFS. Completion entries, interrupts and contexts (09 R272, R274 to R276, Table 9.7). -/

namespace Sys2Proof.Proofs

open Sys2Proof Machine Laws Claims

section
variable {s : State} {q ix at_ : Nat} {x : Desc} {e : QEntry}

/-! Descriptors that have ended. -/

/-- An earlier FENCE of the queue is unfinished (09 R272). -/
def fencedBehind (s : State) (q ix : Nat) : Bool := s.queues.descs.any (fun y => y.q == q && !y.own && decide (y.ix < ix)
  && descOp y.d == 0x04 && y.st != .writing)

/-- A descriptor that has ended, behind no FENCE, leaves without an entry or has its entry stored. -/
theorem exec_descriptorDone_ended (found : s.desc q ix = some x) (entry : s.queue q = some e) (ended : x.st = .ended)
    (notOwn : x.own = false) (free : fencedBehind s q ix = false) : exec (.descriptorDone q ix at_) s = .next (State.settle
      (State.afterDesc (if descNoCqe x.d && x.code == 0 then (s.tick at_).delDesc q ix
        else (s.tick at_).cqWrite x e (descTag x.d) x.code 0 (descIrq x.d || x.code != 0)) q)) := by
  have free' : fencedBehind (s.tick at_) q ix = false := free
  have goes : ¬(x.st != .ended || x.own || fencedBehind (s.tick at_) q ix) = true := by
    rw [ended, notOwn, free']
    decide
  rw [exec_descriptorDone, execDescriptorDone, tick_desc, tick_queue, found, entry]
  refine congrArg Host.Outcome.next ((if_neg goes).trans ?_)
  split <;> rfl

/-- A FENCE ends when what it waits for has completed, and waits else (09 R272). -/
theorem exec_fence_fetched (found : s.desc q ix = some x) (entry : s.queue q = some e) (fetched : x.st = .fetched)
    (opcode : descOp x.d = 0x04) : exec (.fence q ix at_) s
      = .next (if s.fencePassed x e = true then (s.tick at_).endDesc q ix 0 else s.tick at_) := by
  rw [exec_fence, execFence, tick_desc, tick_queue, found, entry]
  simp only [fetched, opcode, beq_self_eq_true, Bool.true_and]
  rfl

/-! Completion entries (09 Table 9.7). -/

theorem length_cqEntry (dt tag code flags head : Nat) : (cqEntry dt tag code flags head).length = 16 := by
  simp only [cqEntry, List.length_append, length_leBytes]

/-- An entry never crosses a line, so it is one store. -/
theorem cqWrite_one (aligned : e.cqBase % 4096 = 0) (tag code flags : Nat) (irq : Bool) : s.cqWrite x e tag code flags irq
    = State.submitQ (State.putDesc (State.touchContext (s.putQueue x.q { e with
        cqTail := (e.cqTail + 1) % 2 ^ e.cqLog2,
        cqPhase := if (e.cqTail + 1) % 2 ^ e.cqLog2 = 0 then !e.cqPhase else e.cqPhase }) x.q)
        { x with st := .writing, notify := irq }) x
      (.write (beRange ((e.cqBase + 16 * e.cqTail) % 64) 16) (lineOfBytes (List.replicate ((e.cqBase + 16 * e.cqTail) % 64) 0#8
        ++ cqEntry s.now tag code (flags + bit e.cqPhase) e.sqHead)) false) ((e.cqBase + 16 * e.cqTail) / 64 * 64) := by
  have inLine : (e.cqBase + 16 * e.cqTail) % 64 + 16 ≤ 64 := by omega
  simp only [State.cqWrite, lineStores_one (length_cqEntry ..) (by decide : 0 < 16) inLine, List.foldl_cons, List.foldl_nil]

/-! Interrupts (09 R275). -/

/-- The vector of a queue whose LD is attached, on a port that is up, is sent. -/
theorem sendVector_up (entry : s.queue q = some e) (attached : SMap.has s.bay.ldTenant (e.port * 16 + e.ld) = true)
    (up : s.portUp e.port = true) : s.sendVector q
      = State.msix { s with queues := { s.queues with irq := SMap.del s.queues.irq q } } e.port e.ld e.vector := by
  have entry' : State.queue { s with queues := { s.queues with irq := SMap.del s.queues.irq q } } q = some e := entry
  simp only [State.sendVector, entry']
  exact if_pos ((Bool.and_eq_true _ _).mpr ⟨attached, up⟩)

/-- The interrupt that waits is sent once its time has come. -/
theorem exec_irqCoalesceTimer_due {n t : Nat} (entry : s.queue q = some e) (waits : SMap.find s.queues.irq q = some (n, t))
    (pending : n ≠ 0) (timed : e.irqUs ≠ 0) (due : t + e.irqUs * 1000 ≤ max s.now at_) :
    exec (.irqCoalesceTimer q at_) s = .next ((s.tick at_).sendVector q) := by
  rw [exec_irqCoalesceTimer, execIrqCoalesceTimer, tick_queue, tick_queues, entry, waits]
  exact congrArg Host.Outcome.next (if_pos ⟨pending, timed, due⟩)

/-! The context cache (09 R276). -/

/-- A context that is asked for by a queue that exists is loaded. -/
theorem exec_contextLoadDone_asked (asked : s.queues.ctxWait.contains q = true) (entry : s.queue q = some e) :
    exec (.contextLoadDone q at_) s = .next ((s.tick at_).loadContext q) := by
  have listed : SMap.has s.queues.table q = true := Option.isSome_iff_exists.mpr ⟨e, entry⟩
  exact congrArg Host.Outcome.next ((if_pos asked).trans (if_pos listed))

/-- The cache looked through from one context on has them all. -/
theorem mem_fromOn {l : List Nat} {n c : Nat} : c ∈ l.drop n ++ l.take n ↔ c ∈ l := by
  rw [List.mem_append, or_comm, ← List.mem_append, List.take_append_drop]

/-- The context that gives way is an idle one. -/
theorem ctxPick_idle (idle : ∃ c ∈ s.queues.contexts, s.inFlight c = 0) :
    ∃ c ∈ s.queues.contexts, s.inFlight c = 0 ∧ s.ctxPick = some c := by
  obtain ⟨d, listed, free⟩ := idle
  obtain ⟨c, picked⟩ : ∃ c, s.ctxPick = some c :=
    Option.isSome_iff_exists.mp (List.find?_isSome.mpr ⟨d, mem_fromOn.mpr listed, beq_iff_eq.mpr free⟩)
  exact ⟨c, mem_fromOn.mp (List.mem_of_find?_eq_some picked),
    beq_iff_eq.mp (List.find?_some (p := fun k => s.inFlight k == 0) picked), picked⟩

/-- With every context busy none gives way. -/
theorem ctxPick_busy (busy : ∀ c ∈ s.queues.contexts, s.inFlight c ≠ 0) : s.ctxPick = none :=
  List.find?_eq_none.mpr fun c listed free => busy c (mem_fromOn.mp listed) (beq_iff_eq.mp free)

/-- A full cache loads a context in the place of the one that gives way. -/
theorem loadContext_full (full : Config.maxContexts ≤ s.queues.contexts.length) {c : Nat} (picked : s.ctxPick = some c) :
    s.loadContext q = { s with
      freeIx := s.freeIx + 1,
      queues := { s.queues with
        contexts := s.queues.contexts.map (fun k => if k = c then q else k), ctxWait := removeNum q s.queues.ctxWait } } := by
  simp only [State.loadContext, if_neg full.not_gt, picked]

/-- With every context of a full cache busy the load waits. -/
theorem loadContext_busy (full : Config.maxContexts ≤ s.queues.contexts.length) (busy : s.ctxPick = none) :
    s.loadContext q = s := by
  simp only [State.loadContext, if_neg full.not_gt, busy]

end

end Sys2Proof.Proofs
end

section
/-! PROOFS. Queues fetch and complete their descriptors (09 R266 to R276), each clause from the lemmas above. -/

namespace Sys2Proof.Proofs

open Sys2Proof Machine Laws Claims

/-- The queue that fetches is ready, of the first class that has a turn, and pays it (09 R269). -/
theorem descriptorFetch_takesTurn {s : State} (at_ : Nat) (canonical : SMap.wf s.queues.table = true)
    (service : s.inService = true) (nonempty : readyQueues s ≠ [])
    (inClass : ∀ x ∈ readyQueues s, x.2.prio < 4) (four : s.queues.arb.length = 4) :
    ∃ x ∈ readyQueues s, ∃ u : State, exec (.descriptorFetch at_) s = .next (State.settle (u.fetchFrom x.1 x.2))
      ∧ (∀ y ∈ readyQueues s, y.2.prio < x.2.prio →
          turnsLeft s.queues.arb (readyOf s) = true ∧ s.queues.arb.getD y.2.prio 0 = 0)
      ∧ u.queues.arb.getD x.2.prio 0
        = (if turnsLeft s.queues.arb (readyOf s) then s.queues.arb.getD x.2.prio 0 else classWeights.getD x.2.prio 0) - 1
      ∧ u = { s.tick at_ with queues := { s.queues with arb := u.queues.arb, lastOf := u.queues.lastOf } } := by
  have classes : ∀ y ∈ readyOf s, y.2 < 4 := by
    intro y listed
    obtain ⟨x, ready, rfl⟩ := List.mem_map.mp listed
    exact inClass x ready
  have someReady : readyOf s ≠ [] := mt List.map_eq_nil_iff.mp nonempty
  obtain ⟨y, listed, turn, first⟩ := arbitrate_spec (s := s.tick at_) classes someReady
  obtain ⟨x, ready, rfl⟩ := List.mem_map.mp listed
  refine ⟨x, ready, turnTaken (s.tick at_) (turnsOf s.queues.arb (readyOf s)) x.1 x.2.prio, ?_, fun z zReady before => ?_,
    turnTaken_turns (s := s.tick at_) classes listed four, rfl⟩
  · rw [exec_descriptorFetch_inService service, if_neg (mt readyOf_isEmpty.mp nonempty), turn]
    exact congrArg Host.Outcome.next (fetchTurn_some (queue_of_ready canonical ready))
  · have spent : (turnsOf s.queues.arb (readyOf s)).getD z.2.prio 0 = 0 := first _ (List.mem_map_of_mem zReady) before
    cases left : turnsLeft s.queues.arb (readyOf s) with
    | true =>
      rw [turnsOf, left] at spent
      exact ⟨rfl, spent⟩
    | false =>
      have weights : ∀ c < 4, classWeights.getD c 0 ≠ 0 := by decide
      rw [turnsOf, left] at spent
      exact absurd spent (weights _ (inClass z zReady))

/-- Settles O44: doorbells, the arbiter, completions, entries, interrupts and contexts. -/
theorem queuesFetchAndCompleteTheirDescriptors : Obligations.QueuesFetchAndCompleteTheirDescriptors := by
  refine ⟨fun s via q at_ v w e served =>
      ⟨fun entry own tail head noWindow held none => ?_, fun missing => ?_, fun half => ?_⟩,
    fun s at_ canonical => ⟨fun service nonempty inClass four => ?_, fun service none => ?_⟩,
    fun s q ix at_ x e found entry =>
      ⟨fun ended notOwn free => ⟨fun silent => ?_, fun entered => ?_⟩, fun fetched opcode => ?_⟩,
    fun s x e tag code flags irq aligned => cqWrite_one aligned tag code flags irq,
    fun s q at_ n t e => ⟨fun entry waits pending timed due attached up => ?_, fun asked entry =>
      ⟨fun room => ?_, fun full idle => ?_, fun full busy => ?_⟩⟩⟩
  · rw [exec_doorbellWrite_full served,
      ringDoorbell_inRange (s := s.tick at_) entry (doorbellAllowed_own own) tail head noWindow held none]
    rfl
  · rw [exec_doorbellWrite_full served, ringDoorbell_missing (s := s.tick at_) missing]
    rfl
  · exact exec_doorbellWrite_half served half
  · obtain ⟨x, ready, u, ran, first, paid, rest⟩ := descriptorFetch_takesTurn at_ canonical service nonempty inClass four
    rw [turnsLeft_readyOf] at first paid
    refine ⟨x, ready, u, ran, fun y yReady before => ?_, paid.trans ?_, rest⟩
    · obtain ⟨left, spent⟩ := first y yReady before
      exact ⟨congrArg not left, spent⟩
    · change _ = (if (!(readyQueues s).any _) = true then _ else _) - 1
      cases (readyQueues s).any (fun x => decide (0 < s.queues.arb.getD x.2.prio 0)) <;> rfl
  · rw [exec_descriptorFetch_inService service, if_pos (readyOf_isEmpty.mpr none)]
    rfl
  · rw [exec_descriptorDone_ended found entry ended notOwn free, if_pos (by simpa using silent)]
  · rw [exec_descriptorDone_ended found entry ended notOwn free, if_neg (by rcases entered with shown | failed <;> simp [*])]
  · exact exec_fence_fetched found entry fetched opcode
  · exact (exec_irqCoalesceTimer_due entry waits pending timed due).trans
      (congrArg Host.Outcome.next (sendVector_up (s := s.tick at_) entry attached up))
  · exact (exec_contextLoadDone_asked asked entry).trans (congrArg Host.Outcome.next (if_pos room))
  · obtain ⟨c, listed, free, picked⟩ := ctxPick_idle (s := s.tick at_) idle
    exact ⟨c, listed, free, (exec_contextLoadDone_asked asked entry).trans
      (congrArg Host.Outcome.next (loadContext_full (s := s.tick at_) full picked))⟩
  · exact (exec_contextLoadDone_asked asked entry).trans
      (congrArg Host.Outcome.next (loadContext_busy (s := s.tick at_) full (ctxPick_busy (s := s.tick at_) busy)))

end Sys2Proof.Proofs
end

section
/-! PROOFS. A descriptor that may start does so by its opcode (09 R270, R272, R273, Table 9.5). -/

namespace Sys2Proof.Proofs

open Sys2Proof Machine Laws Claims

section
variable {s : State} {q ix op at_ : Nat} {x : Desc} {e : QEntry}

/-- A descriptor is found under its own queue and number. -/
theorem key_of_desc (found : s.desc q ix = some x) : x.q = q ∧ x.ix = ix := by
  have key : (x.q == q && x.ix == ix) = true :=
    List.find?_some (p := fun y : Desc => y.q == q && y.ix == ix) found
  rwa [Bool.and_eq_true, beq_iff_eq, beq_iff_eq] at key

/-- A descriptor that may start does what its opcode asks, and the rules that follow run. -/
theorem startDesc_starts (starts : Starts s q ix op x e) (act : QEntry → Desc → State → State) :
    (s.tick at_).startDesc q ix op act = (act e x (s.tick at_)).settle := by
  obtain ⟨found, entry, fetched, opcode, service, may⟩ := starts
  rw [State.startDesc, tick_desc, tick_queue, tick_inService, found, entry]
  exact if_pos (by rw [fetched, opcode, service, tick_mayStart, may]; simp)

/-- A DST range in one bolt is carried out as one part (09 R273). -/
theorem startParts_one (nonempty : 0 < descLen x.d)
    (inBolt : boltOfOff (descDst x.d) = boltOfOff (descDst x.d + descLen x.d - 1)) :
    s.startParts x = (s.putDesc { x with st := .running 1 }).submitQ x
      (.ctrl (descPart x.d (descSrc x.d) (descDst x.d) (descLen x.d))) (descDst x.d) := by
  unfold State.startParts
  rw [boltParts_one nonempty inBolt]
  rfl

/-- A VERIFY of a range in one bolt is carried out as one part (09 R273). -/
theorem startVerifyOp_one (nonempty : 0 < descLen x.d)
    (inBolt : boltOfOff (descSrc x.d) = boltOfOff (descSrc x.d + descLen x.d - 1)) :
    s.startVerifyOp x = (s.putDesc { x with st := .running 1, more := true }).submitQ x
      (.ctrl (descPart x.d (descSrc x.d) (descDst x.d) (descLen x.d))) (descSrc x.d) := by
  unfold State.startVerifyOp
  rw [boltParts_one nonempty inBolt]
  rfl

/-- VERIFY of a fetched descriptor starts it. -/
theorem exec_verify_fetched (found : s.desc q ix = some x) (fetched : x.st = .fetched) : exec (.verify q ix at_) s
    = .next ((s.tick at_).startDesc q ix 0x0C (fun _ x s => s.startVerifyOp x)) := by
  have notIn : ¬(x.st == .loaded && descOp x.d == 0x0C) = true := fun done =>
    absurd ((Bool.and_eq_true _ _).mp done).1 (by rw [fetched]; decide)
  rw [exec_verify, execVerify, tick_desc, found]
  exact congrArg Host.Outcome.next (if_neg notIn)

/-- VERIFY whose parts are all in writes its report. -/
theorem exec_verify_loaded (found : s.desc q ix = some x) (loaded : x.st = .loaded) (opcode : descOp x.d = 0x0C) :
    exec (.verify q ix at_) s = .next ((s.tick at_).verifyReport x).settle := by
  have allIn : (x.st == .loaded && descOp x.d == 0x0C) = true := by
    rw [loaded, opcode]
    decide
  rw [exec_verify, execVerify, tick_desc, found]
  exact congrArg Host.Outcome.next (if_pos allIn)

/-! Quotas (04 R136, R138). -/

/-- Without a limit nothing is past it. -/
theorem partsOver_unlimited {lo n : Nat} {cost : Nat × Nat → Nat} {limit use : Nat → Nat} (free : ∀ t, limit t = 0) :
    s.partsOver lo n cost limit use = false := by
  unfold State.partsOver
  rw [List.any_eq_false]
  intro p _
  simp only [free, bne_self_eq_false, Bool.false_and, Bool.false_eq_true, not_false_eq_true]

/-- A range in one bolt, active here, is past the limit of its tenant when its cost is. -/
theorem partsOver_one {lo n : Nat} {cost : Nat × Nat → Nat} {limit use : Nat → Nat} (nonempty : 0 < n)
    (inBolt : boltOfOff lo = boltOfOff (lo + n - 1)) (active : s.isActive (boltOfOff lo) = true)
    (limited : limit (s.tenantOf (boltOfOff lo)) ≠ 0) (costs : cost (lo, n) ≠ 0)
    (past : limit (s.tenantOf (boltOfOff lo)) < use (s.tenantOf (boltOfOff lo)) + cost (lo, n)) :
    s.partsOver lo n cost limit use = true := by
  simp [State.partsOver, boltParts_one nonempty inBolt, active, limited, costs, past]

theorem startMigrate_unlimited (free : ∀ t, (s.quota t).p = 0 ∧ (s.quota t).f = 0) : s.startMigrate x = s.startParts x := by
  unfold State.startMigrate
  simp only [partsOver_unlimited fun t => (free t).1, partsOver_unlimited fun t => (free t).2, ite_self, Bool.false_eq_true,
    if_false]

theorem startPin_unlimited (free : ∀ t, (s.quota t).d = 0 ∧ (s.quota t).p = 0) : s.startPin x = s.startParts x := by
  unfold State.startPin
  simp only [partsOver_unlimited fun t => (free t).1, partsOver_unlimited fun t => (free t).2, ite_self, Bool.false_eq_true,
    if_false]

/-- MIGRATE to tier F past the tenant's quota ends QUOTA_EXCEEDED. -/
theorem startMigrate_past (toF : descParam x.d = 1)
    (past : s.partsOver (descDst x.d) (descLen x.d) (s.partFrames .p) (fun t => (s.quota t).f) (fun t => s.useIn .f t) = true) :
    s.startMigrate x = s.endDesc x.q x.ix 2 := by
  unfold State.startMigrate
  simp only [toF, past, if_true]

/-! COPY within a line (09 R270; 02 R89). -/

/-- What goes from within one line to within one line is one piece. -/
theorem copyPieces_line {src dst len : Nat} (srcLine : src % 64 + len ≤ 64) (dstLine : dst % 64 + len ≤ 64) :
    copyPieces src dst len 0 = [⟨0, dst % 64, len, src⟩] := by
  have low : max dst (dst / 64 * 64) = dst := by omega
  have high : min (dst + len) (dst / 64 * 64 + 64) = dst + len := by omega
  have whole : min len (64 - src % 64) = len := by omega
  simp only [copyPieces, lineOfOff, Nat.add_zero, low, high, Nat.sub_self, Nat.add_sub_cancel_left, whole, lt_irrefl, if_false]

/-- COPY within a line reads SRC once, and its store waits behind the read. -/
theorem startCopy_line (nonempty : 0 < descLen x.d) (srcLine : descSrc x.d % 64 + descLen x.d ≤ 64)
    (dstLine : descDst x.d % 64 + descLen x.d ≤ 64) : s.startCopy x e = State.addAwaiting
      ((s.putDesc { x with st := .running 1 }).submitQ x
        (.copyTo (s.bay.nextId + 1) (descSrc x.d % 64) (descLen x.d) (descDst x.d % 64)) (descSrc x.d))
      x e (descDst x.d / 64 * 64) (beRange (descDst x.d % 64) (descLen x.d)) 1 := by
  have lines : lineOfOff (descDst x.d + descLen x.d - 1) - lineOfOff (descDst x.d) + 1 = 1 := by
    unfold lineOfOff
    omega
  have low : max (descDst x.d) (descDst x.d / 64 * 64) = descDst x.d := by omega
  have high : min (descDst x.d + descLen x.d) (descDst x.d / 64 * 64 + 64) = descDst x.d + descLen x.d := by omega
  simp only [State.startCopy, lines]
  simp only [List.range_one, List.map_cons, List.map_nil, copyPieces_line srcLine dstLine, List.flatten_cons, List.flatten_nil,
    List.append_nil, List.length_cons, List.length_nil, List.foldl_cons, List.foldl_nil, List.zipIdx_cons, List.zipIdx_nil,
    Nat.zero_add, Nat.add_zero, lineOfOff, low, high, Nat.add_sub_cancel_left]

end

end Sys2Proof.Proofs
end

section
/-! PROOFS. CAPTURE places its record in the ring, and windows close (09 R279 to R281, Table 9.9). -/

namespace Sys2Proof.Proofs

open Sys2Proof Machine Laws Claims

section
variable {s : State} {q ix at_ : Nat} {x : Desc} {e : QEntry}

/-- The payload of a CAPTURE that stands in its descriptor. -/
def ownPayload (x : Desc) : List Byte := (List.range (descLen x.d)).map (fun k => lineByte x.d (32 + k))

/-- The record of a CAPTURE with its own payload: header, payload and zeros up to one unit (09 Table 9.9). -/
def ownRecord (x : Desc) (seq : Nat) : List Byte :=
  leBytes 8 x.stamp ++ leBytes 4 seq ++ leBytes 2 (descLen x.d) ++ leBytes 1 1 ++ leBytes 1 0 ++ ownPayload x
    ++ List.replicate (48 - descLen x.d) 0#8

theorem length_ownPayload : (ownPayload x).length = descLen x.d := by
  rw [ownPayload, List.length_map, List.length_range]

theorem capPayload_own (own : descSrc x.d = 0) : capPayload x = (ownPayload x, fun _ => false) := if_pos own

/-- Header and payload of up to 32 bytes are padded to one unit. -/
theorem padRecord_own (short : descLen x.d ≤ 32) (seq : Nat) :
    padRecord (recHeader x.stamp seq (ownPayload x).length 1 0 ++ ownPayload x) = ownRecord x seq := by
  have long : (recHeader x.stamp seq (ownPayload x).length 1 0 ++ ownPayload x).length = 16 + descLen x.d := by
    simp only [recHeader, List.length_append, length_leBytes, length_ownPayload]
  have zeros : ceilDiv (16 + descLen x.d) 64 * 64 - (16 + descLen x.d) = 48 - descLen x.d := by
    unfold ceilDiv
    omega
  rw [padRecord, long, zeros, length_ownPayload]
  rfl

theorem length_ownRecord (short : descLen x.d ≤ 32) (seq : Nat) : (ownRecord x seq).length = 64 := by
  simp only [ownRecord, List.length_append, length_leBytes, length_ownPayload, List.length_replicate]
  omega

/-- The record of one unit at WR_PTR is one store of a whole line. -/
theorem lineStores_unit {base unit : Nat} {bs : List Byte} (long : bs.length = 64) (aligned : base % 64 = 0) :
    lineStores (base + 64 * unit) bs = [(base + 64 * unit, fullBe, lineOfBytes bs)] := by
  have start : (base + 64 * unit) % 64 = 0 := by omega
  have line : (base + 64 * unit) / 64 * 64 = base + 64 * unit := by omega
  rw [lineStores_one long (by decide) (by omega), start, line]
  rfl

/-- A CAPTURE with its own payload placed without a PAD counts in its window and in the CRC, and stores one record at WR_PTR. -/
theorem placeRecord_own (own : descSrc x.d = 0) (short : descLen x.d ≤ 32) (aligned : e.ringBase % 64 = 0) :
    s.placeRecord x e 0 = State.submitQ
      (State.putDesc (State.putQueue (s.putCap x.q { s.cap x.q with
          seq := (s.cap x.q).seq + 1, window := some (e.windowOf x.stamp), records := (s.cap x.q).records + 1,
          crc := crcBytes (s.cap x.q).crc (ownRecord x (s.cap x.q).seq) })
        x.q { e with wrPtr := (e.wrPtr + 1) % e.units, winSeq := e.windowOf x.stamp % 2 ^ 32 })
        { x with st := .running 1, more := false, held := false })
      x (.write fullBe (lineOfBytes (ownRecord x (s.cap x.q).seq)) false) (e.ringBase + 64 * e.wrPtr) := by
  have units : 64 / 64 = 1 := rfl
  simp only [State.placeRecord, capPayload_own own, if_true, padRecord_own short, length_ownRecord short, units,
    lineStores_unit (length_ownRecord short _) aligned, List.reverse_cons, List.reverse_nil, List.nil_append, List.length_cons,
    List.length_nil, List.foldl_cons, List.foldl_nil, Nat.add_zero, Nat.zero_add, Bool.and_false]
  rfl

/-- A CAPTURE of one unit for no other window than the open one, with no PAD before it, is placed where the ring has room for it
and a WINDOW_END, and else waits or is dropped by FULL_MODE (09 R281). -/
theorem placeCapture_unit (entry : s.queue x.q = some e)
    (opened : (s.cap x.q).window = none ∨ (s.cap x.q).window = some (e.windowOf x.stamp)) (short : descLen x.d ≤ 32)
    (fits : e.wrPtr + 1 ≤ e.units) (mode : 2 ≤ e.freeUnits ∨ e.fullMode = 0 ∨ e.fullMode = 1) :
    s.placeCapture x = if 2 ≤ e.freeUnits then s.placeRecord x e 0 else
      if e.fullMode = 0 then s.putDesc { x with held := true } else s.dropCapture x := by
  have one : ceilDiv (16 + descLen x.d) 64 = 1 := by
    unfold ceilDiv
    omega
  have noPad : ¬e.units < e.wrPtr + 1 := fits.not_gt
  rcases opened with closed | same
  case' inl => simp only [State.placeCapture, entry, closed, one, if_neg noPad, Nat.add_zero, Nat.reduceAdd]
  case' inr => simp only [State.placeCapture, entry, same, if_true, one, if_neg noPad, Nat.add_zero, Nat.reduceAdd]
  all_goals
    by_cases room : 2 ≤ e.freeUnits
    · rw [if_pos room, if_pos room]
    · rcases mode.resolve_left room with waits | drops
      · simp only [waits, if_true]
      · simp only [drops, one_ne_zero, if_false]

/-- A CAPTURE that may start, behind no earlier one that has no place yet, is placed, or has its payload read first. -/
theorem exec_capture_starts (starts : Starts s q ix 0x0A x e)
    (first : s.queues.descs.any (fun y => y.q == q && decide (y.ix < ix) && unplaced y) = false) :
    exec (.capture q ix at_) s = .next (State.settle
      (if descSrc x.d = 0 then (s.tick at_).placeCapture x else (s.tick at_).startPayload x)) := by
  obtain ⟨found, entry, fetched, opcode, service, may⟩ := starts
  rw [exec_capture, execCapture, tick_desc, tick_queues, found, first]
  by_cases own : descSrc x.d = 0
  · simp [opcode, service, may, fetched, own]
  · simp [opcode, service, may, fetched, own]

/-! Windows (09 R280). -/

/-- The record that a window is closed with: its counts, at the unit of WR_PTR. -/
def closingOf (s : State) (q : Nat) (e : QEntry) (win : Nat) : Closing := {
  win := win, unit := e.wrPtr, seq := (s.cap q).seq, records := (s.cap q).records, dropped := (s.cap q).dropped,
  crc := (s.cap q).crc, stop := false, restart := false, ix := none }

/-- A window that is closed takes the unit of its WINDOW_END, and its counts start anew. -/
theorem closeWindow_open {win : Nat} (opened : (s.cap q).window = some win) :
    s.closeWindow q e false = State.putQueue (s.putCap q { s.cap q with
        seq := (s.cap q).seq + 1, window := none, records := 0, dropped := 0, crc := 0xFFFFFFFF#32,
        closings := (s.cap q).closings ++ [closingOf s q e win] }) q { e with wrPtr := (e.wrPtr + 1) % e.units } := by
  simp only [State.closeWindow, opened]
  rfl

/-- A window whose end has passed, with no CAPTURE of it waiting, is closed. -/
theorem exec_captureWindowEnd_passed {win : Nat} (entry : s.queue q = some e) (opened : (s.cap q).window = some win)
    (passed : win < e.windowOf (max s.now at_))
    (quiet : s.queues.descs.any (fun y => y.q == q && unplaced y && decide (e.windowOf y.stamp ≤ win)) = false) :
    exec (.captureWindowEnd q at_) s = .next (State.settle (State.issueEnds ((s.tick at_).closeWindow q e false) q)) := by
  have passed' : decide (e.windowOf (s.tick at_).now ≤ win) = false := decide_eq_false passed.not_ge
  rw [exec_captureWindowEnd, execCaptureWindowEnd, tick_queue, tick_cap, tick_queues, entry, opened]
  simp only [quiet, passed', Bool.or_false, Bool.false_eq_true, if_false]

/-- A WINDOW_END that is stored closes its window and saves the pointers. -/
theorem exec_windowEndDone_stored {i : Nat} {k : Closing} {l : List Closing} (entry : s.queue q = some e)
    (closings : (s.cap q).closings = k :: l) (number : k.ix = some i) (found : s.desc q i = some x) (ended : x.st = .ended)
    (good : x.code = 0) (fresh : k.restart = false) :
    exec (.windowEndDone q at_) s = .next (State.settle (State.flushWindows (State.issueEnds
      (State.putCap ((s.tick at_).delDesc q x.ix) q { s.cap q with
        closings := l,
        closed := if (s.cap q).scanned then (s.cap q).closed ++ [(k.unit + 1) % e.units] else (s.cap q).closed,
        saved := ((k.unit + 1) % e.units, e.rdPtr, k.seq + 1), done := (s.cap q).done ++ [k.win] }) q) q 64)) := by
  have numbered : k.ix.bind ((s.tick at_).desc q) = some x := by
    rw [number]
    exact found
  rw [exec_windowEndDone, execWindowEndDone, tick_queue, tick_cap, entry, closings]
  simp only [numbered, ended, good, fresh, bne_self_eq_false, ne_eq, not_true_eq_false, Bool.false_eq_true, if_false]

end

/-- Settles O45: each opcode by what its descriptor starts, CAPTURE by its record, windows by their records. -/
theorem descriptorsCarryOutTheirOpcodes : Obligations.DescriptorsCarryOutTheirOpcodes := by
  refine ⟨fun s q ix at_ x e => ?_, fun s q ix at_ x e starts first => ?_, fun s q i win at_ x e k l entry => ⟨?_, ?_⟩⟩
  · have does {op : Nat} {act : QEntry → Desc → State → State} (starts : Starts s q ix op x e) {t : State}
        (acts : act e x (s.tick at_) = t) :
        (.next ((s.tick at_).startDesc q ix op act) : Host.Outcome State Fault Refusal) = .next t.settle :=
      congrArg Host.Outcome.next ((startDesc_starts starts act).trans (congrArg State.settle acts))
    refine ⟨fun starts nonempty srcLine dstLine => does starts (startCopy_line nonempty srcLine dstLine),
      fun starts => does starts rfl, fun starts => does starts rfl,
      fun starts ⟨nonempty, inBolt⟩ => does starts (startParts_one nonempty inBolt),
      fun starts ⟨nonempty, inBolt⟩ free =>
        does starts ((startMigrate_unlimited (s := s.tick at_) free).trans (startParts_one nonempty inBolt)),
      fun starts ⟨nonempty, inBolt⟩ toF active ⟨limited, costs, past⟩ => ?_,
      fun starts ⟨nonempty, inBolt⟩ free =>
        does starts ((startPin_unlimited (s := s.tick at_) free).trans (startParts_one nonempty inBolt)),
      fun starts ⟨nonempty, inBolt⟩ => does starts (startParts_one nonempty inBolt),
      fun starts ⟨nonempty, inBolt⟩ => does starts (startParts_one nonempty inBolt), fun starts nonempty inBolt => ?_,
      fun found loaded opcode => exec_verify_loaded found loaded opcode⟩
    · have ⟨found, _⟩ := starts
      obtain ⟨rfl, rfl⟩ := key_of_desc found
      exact does starts (startMigrate_past (s := s.tick at_) toF
        (partsOver_one (s := s.tick at_) nonempty inBolt active limited costs past))
    · have ⟨found, _, fetched, _⟩ := starts
      exact (exec_verify_fetched found fetched).trans (does starts (startVerifyOp_one nonempty inBolt))
  · have ⟨found, entry, _⟩ := starts
    obtain ⟨rfl, rfl⟩ := key_of_desc found
    have ran := exec_capture_starts (at_ := at_) starts first
    refine ⟨fun own short opened fits => ?_, fun other =>
      ran.trans (congrArg (Host.Outcome.next ∘ State.settle) (if_neg other))⟩
    rw [if_pos own] at ran
    have placed := placeCapture_unit (s := s.tick at_) entry opened short fits
    refine ⟨fun room aligned => ?_, fun full waits => ?_, fun full drops => ?_⟩
    · rw [ran, placed (.inl room), if_pos room, placeRecord_own own short aligned]
      rfl
    · rw [ran, placed (.inr (.inl waits)), if_neg full.not_ge, if_pos waits]
    · rw [ran, placed (.inr (.inr drops)), if_neg full.not_ge, if_neg (by rw [drops]; decide)]
      rfl
  · intro opened passed quiet
    rw [exec_captureWindowEnd_passed entry opened passed quiet, closeWindow_open (s := s.tick at_) opened]
    rfl
  · exact exec_windowEndDone_stored entry

end Sys2Proof.Proofs
end

section
/-! PROOFS. The commands of QU_CMD (09 R285, Table 9.14): each taken with its arguments, run on its queue and ended with its
code. -/

namespace Sys2Proof.Proofs

open Sys2Proof Machine Laws Claims

/-! How QU_CMD takes a command. -/

/-- A QU command taken up: its operation, GO and BUSY set (09 R285). -/
def quGiven (s : State) (op : Nat) : State := ((s.put F.QU_CMD.OP op).put F.QU_CMD.GO 1).put F.QU_CMD_STATUS.BUSY 1

/-- The arguments of a QU command. -/
def quArg (r : Reg) : Bool :=
  match r with
  | .QU_CMD_ARG0 | .QU_CMD_ARG1 | .QU_CMD_ARG2 | .QU_CMD_ARG3 | .QU_CMD_ARG4 => true
  | _ => false

section
variable {s : State} {via : Via} {op : Nat} {a0 a1 a2 a3 a4 : Word} {args : List (Reg × Word)}

/-- Arguments leave whether a QU command runs. -/
theorem withQuArgs_idle (wf : RegsOrdered s) (all : ∀ a ∈ args, quArg a.1 = true)
    (idle : s.isSet F.QU_CMD_STATUS.BUSY 0 = false) : (withArgs s args).isSet F.QU_CMD_STATUS.BUSY 0 = false := by
  have apart : ∀ r, quArg r = true → r.addr 0 ≠ Reg.addr .QU_CMD_STATUS 0 := fun r arg => by
    cases r <;> cases arg <;> decide
  have kept : (withArgs s args).reg .QU_CMD_STATUS 0 = s.reg .QU_CMD_STATUS 0 :=
    withArgs_reg_ne wf args _ _ fun a listed => apart a.1 (all a listed)
  exact (congrArg (fun v => bitsOf v F.QU_CMD_STATUS.BUSY.lo F.QU_CMD_STATUS.BUSY.w == 1) kept).trans idle

/-- A QU command that is taken starts with the arguments as they stand in their registers. -/
theorem quCommand_taken (wf : RegsOrdered s) (taken : Taken s via .QU_CMD 0) (all : ∀ a ∈ args, quArg a.1 = true)
    (known : op ∈ [1, 2, 3, 4, 5, 6]) :
    s.quCommand via op args = (withArgs s args).startQu op ((withArgs s args).reg .QU_CMD_ARG0 0)
      ((withArgs s args).reg .QU_CMD_ARG1 0) ((withArgs s args).reg .QU_CMD_ARG2 0) ((withArgs s args).reg .QU_CMD_ARG3 0)
      ((withArgs s args).reg .QU_CMD_ARG4 0) := by
  have isArg : ∀ r, quArg r = true → argReg r = true := fun r arg => by cases r <;> cases arg <;> rfl
  have noRsv : ∀ n ∈ [1, 2, 3, 4, 5, 6], word (n + 256) &&& ~~~(knownBits .QU_CMD) = 0#64 := by decide
  exact command_taken wf taken (fun a listed => isArg a.1 (all a listed)) (.inr ⟨rfl, fun _ => ⟨rfl, rfl⟩⟩)
    (noRsv op known) _

/-- Each argument of a list that names every register once reads back. -/
theorem withArgs_reg_mem (wf : RegsOrdered s) (once : (args.map (fun a => a.1.addr 0)).Nodup) {r : Reg} {v : Word}
    (listed : (r, v) ∈ args) : (withArgs s args).reg r 0 = v := by
  induction args generalizing s with
  | nil => exact absurd listed List.not_mem_nil
  | cons a rest ih =>
    obtain ⟨fresh, once⟩ := List.nodup_cons.mp once
    rcases List.mem_cons.mp listed with rfl | later
    · exact withArgs_reg_head wf r v fun x inRest same => fresh (List.mem_map.mpr ⟨x, inRest, same⟩)
    · exact ih (wf_setReg wf _ _ _) once later

/-- The arguments of CREATE, in their registers. -/
def createArgs (a0 a1 a2 a3 a4 : Word) : List (Reg × Word) :=
  [(.QU_CMD_ARG0, a0), (.QU_CMD_ARG1, a1), (.QU_CMD_ARG2, a2), (.QU_CMD_ARG3, a3), (.QU_CMD_ARG4, a4)]

theorem createArgs_once : ((createArgs a0 a1 a2 a3 a4).map (fun a => a.1.addr 0)).Nodup := by
  have offsets : [Reg.addr .QU_CMD_ARG0 0, Reg.addr .QU_CMD_ARG1 0, Reg.addr .QU_CMD_ARG2 0, Reg.addr .QU_CMD_ARG3 0,
    Reg.addr .QU_CMD_ARG4 0].Nodup := by decide
  exact offsets

section
variable (wf : RegsOrdered s) (taken : Taken s via .QU_CMD 0) (idle : s.isSet F.QU_CMD_STATUS.BUSY 0 = false)
include wf taken idle

/-- CREATE runs on its words. -/
theorem quCommand_create : s.quCommand via 0x01 (createArgs a0 a1 a2 a3 a4)
    = (quGiven (withArgs s (createArgs a0 a1 a2 a3 a4)) 0x01).doCreate a0 a1 a2 a3 a4 := by
  have all : ∀ a ∈ createArgs a0 a1 a2 a3 a4, quArg a.1 = true := by simp [createArgs, quArg]
  have reads {r : Reg} {v : Word} (listed : (r, v) ∈ createArgs a0 a1 a2 a3 a4) := withArgs_reg_mem wf createArgs_once listed
  rw [quCommand_taken wf taken all (by decide), reads (v := a0) (by simp [createArgs]), reads (v := a1) (by simp [createArgs]),
    reads (v := a2) (by simp [createArgs]), reads (v := a3) (by simp [createArgs]), reads (v := a4) (by simp [createArgs])]
  exact if_neg (Bool.eq_false_iff.mp (withQuArgs_idle wf all idle))

/-- A command on a queue names it in ARG0. -/
theorem quCommand_queue (known : op ∈ [2, 3, 4, 5, 6]) :
    s.quCommand via op [(.QU_CMD_ARG0, a0)] = match s.queue (bitsOf a0 0 22) with
      | some e => (((quGiven (withArgs s [(.QU_CMD_ARG0, a0)]) op).put F.QU_CMD_STATUS.RESULT (bitsOf a0 0 22)).doQueue op
          (bitsOf a0 0 22) e).settle
      | none => (quGiven (withArgs s [(.QU_CMD_ARG0, a0)]) op).endQu 13 := by
  have all : ∀ a ∈ [(Reg.QU_CMD_ARG0, a0)], quArg a.1 = true := by simp [quArg]
  have notCreate : op ≠ 1 ∧ ¬(op = 0 ∨ 6 < op) := by
    revert op
    decide
  rw [quCommand_taken wf taken all (List.mem_cons_of_mem _ known), withArgs_reg_head wf .QU_CMD_ARG0 a0 (by simp)]
  exact (if_neg (Bool.eq_false_iff.mp (withQuArgs_idle wf all idle))).trans
    ((if_neg notCreate.1).trans (if_neg notCreate.2))

end

end

/-! What each command does to its queue (09 Table 9.14). The queues that it finds are named, so that a proof does not look for
them behind the registers written before. -/

section
variable {u : State} {k : QueueSt} {q : Nat} {e : QEntry}

/-- CREATE whose checks pass puts the queue under the lowest free number. -/
theorem doCreate_passed (held : u.queues = k) {a0 a1 a2 a3 a4 : Word} (lowest : q = lowestFreeFrom 0 (SMap.keys k.table))
    (passed : u.createCode (queueOf a0 a1 a2 a3 a4) a0 a1 a2 a3 a4 = 0) :
    u.doCreate a0 a1 a2 a3 a4 = State.endQu (State.put { u with queues := { k with
      table := SMap.put k.table q (queueOf a0 a1 a2 a3 a4),
      caps := if (queueOf a0 a1 a2 a3 a4).capture then SMap.put k.caps q {} else k.caps } } F.QU_CMD_STATUS.RESULT q) 0 := by
  subst held lowest
  refine (if_neg (not_not_intro passed)).trans ?_
  cases (queueOf a0 a1 a2 a3 a4).capture <;> rfl

/-- CREATE that fails a check ends with its code. -/
theorem doCreate_failed {a0 a1 a2 a3 a4 : Word} (failed : u.createCode (queueOf a0 a1 a2 a3 a4) a0 a1 a2 a3 a4 ≠ 0) :
    u.doCreate a0 a1 a2 a3 a4 = u.endQu (u.createCode (queueOf a0 a1 a2 a3 a4) a0 a1 a2 a3 a4) := if_pos failed

/-- A queue deleted, with what it holds. -/
def queueGone (u : State) (q : Nat) : State :=
  { u.clearQueue q true with queues := { (u.clearQueue q true).queues with table := SMap.del u.queues.table q } }

/-- DELETE of a queue at rest takes it away. -/
theorem doQueue_delete (rest : e.st = .stopped ∨ e.st = .error) : u.doQueue 0x02 q e = (queueGone u q).endQu 0 := if_pos rest

/-- A deleted queue leaves all but the queues alone, and of them its entry is gone. -/
theorem queueGone_eq (held : u.queues = k) (q : Nat) : queueGone u q
    = { u with queues := { (queueGone u q).queues with table := SMap.del k.table q } } := by
  subst held
  rfl

theorem queueGone_caps (held : u.queues = k) (q : Nat) : (queueGone u q).queues.caps = SMap.del k.caps q := by
  subst held
  rfl

/-- A deleted queue has no descriptor left, and every other queue has its own. -/
theorem mem_queueGone_descs (held : u.queues = k) (q : Nat) (y : Desc) :
    y ∈ (queueGone u q).queues.descs ↔ y ∈ k.descs ∧ y.q ≠ q := by
  subst held
  simp [queueGone, State.clearQueue]

/-- START of a STOPPED queue with no restart to report. -/
theorem doQueue_start (stopped : e.st = .stopped) (noRestart : (u.cap q).restarted = none) : u.doQueue 0x03 q e
    = State.endQu (u.putQueue q { e with st := .running, sqPhase := true, cqPhase := true }) 0 := by
  refine (if_pos stopped).trans ?_
  have same : (State.cap (u.putQueue q { e with st := .running, sqPhase := true, cqPhase := true }) q).restarted = none :=
    noRestart
  rw [same]

/-- STOP of a STOPPED queue ends at once. -/
theorem doQueue_stopStopped (stopped : e.st = .stopped) : u.doQueue 0x04 q e = u.endQu 0 := by
  simp only [State.doQueue, stopped]

/-- RESET of a queue at rest zeroes its pointers and code and sets both phases. -/
theorem doQueue_reset (rest : e.st = .stopped ∨ e.st = .error) : u.doQueue 0x05 q e
    = State.endQu (State.putQueue (u.clearQueue q false) q { e with
        st := .stopped, sqHead := 0, sqTail := 0, cqTail := 0, cqHead := 0, sqPhase := true, cqPhase := true, errCode := 0 }) 0 :=
  if_pos rest

/-- READ_ENTRY reads the words into the arguments. -/
theorem doQueue_readEntry {n : Nat} (flight : u.inFlight q = n) : u.doQueue 0x06 q e
    = State.endQu (withArgs u [(.QU_CMD_ARG0, e.word0), (.QU_CMD_ARG1, e.word3), (.QU_CMD_ARG2, e.word4 n),
        (.QU_CMD_ARG3, e.word6), (.QU_CMD_ARG4, e.word7)]) 0 := by
  subst flight
  rfl

/-! DELETE, START and RESET take no RUNNING queue. -/

theorem not_rest_of_running (running : e.st = .running) : ¬(e.st = .stopped ∨ e.st = .error) := by
  simp [running]

theorem doQueue_deleteRunning (running : e.st = .running) : u.doQueue 0x02 q e = u.endQu 12 :=
  if_neg (not_rest_of_running running)

theorem doQueue_startRunning (running : e.st = .running) : u.doQueue 0x03 q e = u.endQu 12 :=
  if_neg fun stopped => not_rest_of_running running (.inl stopped)

theorem doQueue_resetRunning (running : e.st = .running) : u.doQueue 0x05 q e = u.endQu 12 :=
  if_neg (not_rest_of_running running)

/-- The queue STOPPING, with the STOP of time `t` that waits for it (09 Table 9.14). -/
def stopWaits (u : State) (k : QueueSt) (q : Nat) (e : QEntry) (t : Nat) : State :=
  { u with queues := { k with table := SMap.put k.table q { e with st := .stopping }, stopping := [(q, t)] } }

/-- The queue STOPPED, with no STOP that waits. -/
def queueStopped (u : State) (k : QueueSt) (q : Nat) (e : QEntry) : State := { u with queues := { k with
  table := SMap.put (SMap.put k.table q { e with st := .stopping }) q { e with st := .stopped }, stopping := [] } }

/-- STOP of a RUNNING normal queue makes it STOPPING, and looks for what is in flight. -/
theorem doQueue_stop (held : u.queues = k) {t : Nat} (now : u.now = t) (running : e.st = .running)
    (normal : e.capture = false) : u.doQueue 0x04 q e = (stopWaits u k q e t).checkStop q := by
  subst held now
  simp only [State.doQueue, running]
  rw [if_neg (by simp [normal])]
  rfl

theorem stopWaits_queue (t : Nat) : (stopWaits u k q e t).queue q = some { e with st := .stopping } :=
  (find_put ..).trans (if_pos rfl)

/-- Of the queues only the one that stopped has a new entry. -/
theorem queueStopped_queue (n : Nat) :
    (queueStopped u k q e).queue n = if q = n then some { e with st := .stopped } else SMap.find k.table n := by
  refine (find_put ..).trans ?_
  rw [find_put]
  by_cases same : q = n
  · rw [if_pos same, if_pos same]
  · rw [if_neg same, if_neg same, if_neg same]

variable (held : u.queues = k) {t : Nat}
include held

/-- A STOP leaves what is in flight. -/
theorem stopWaits_inFlight : (stopWaits u k q e t).inFlight q = u.inFlight q := by
  subst held
  rfl

/-- With nothing in flight the queue is STOPPED and the STOP ends. -/
theorem stopWaits_ends (quiet : u.inFlight q = 0) :
    (stopWaits u k q e t).checkStop q = (queueStopped u k q e).endQu 0 := by
  have waits : ([(q, t)] : List (Nat × Nat)).any (fun x => x.1 == q) = true := by simp
  have gone : ([(q, t)] : List (Nat × Nat)).filter (fun x => x.1 != q) = [] := by simp
  unfold State.checkStop
  rw [stopWaits_queue]
  refine (if_pos ⟨rfl, (stopWaits_inFlight held).trans quiet⟩).trans ((if_pos waits).trans ?_)
  simp only [State.putQueue, stopWaits, queueStopped, gone]

/-- With something in flight the queue stays STOPPING. -/
theorem stopWaits_waits (busy : u.inFlight q ≠ 0) : (stopWaits u k q e t).checkStop q = stopWaits u k q e t := by
  unfold State.checkStop
  rw [stopWaits_queue]
  exact if_neg fun stops => busy ((stopWaits_inFlight held).symm.trans stops.2)

end

/-! From the command's registers to its end. -/

section
variable {s : State} {via : Via} {a0 : Word} {at_ q op : Nat}

/-- A command on queue `q` taken up: its number in ARG0 and in RESULT. -/
def quOn (s : State) (a0 : Word) (op q : Nat) : State :=
  (quGiven (withArgs s [(.QU_CMD_ARG0, a0)]) op).put F.QU_CMD_STATUS.RESULT q

/-- A command taken up leaves all but the registers. -/
theorem quGiven_eq (s : State) (args : List (Reg × Word)) (op : Nat) :
    quGiven (withArgs s args) op = { s with regs := (quGiven (withArgs s args) op).regs } := by
  rw [withArgs_eq]
  rfl

theorem quGiven_queues (s : State) (args : List (Reg × Word)) (op : Nat) :
    (quGiven (withArgs s args) op).queues = s.queues := by
  rw [quGiven_eq]

theorem quOn_queues (s : State) (a0 : Word) (op q : Nat) : (quOn s a0 op q).queues = s.queues := by
  rw [quOn, put_queues, quGiven_queues]

theorem quOn_now (s : State) (a0 : Word) (op q : Nat) : (quOn s a0 op q).now = s.now := by
  rw [quOn, State.now, put_time, quGiven_eq, State.now]

theorem quOn_cap (s : State) (a0 : Word) (op q : Nat) : (quOn s a0 op q).cap q = s.cap q := by
  rw [State.cap, quOn_queues, State.cap]

theorem quOn_inFlight (s : State) (a0 : Word) (op q : Nat) : (quOn s a0 op q).inFlight q = s.inFlight q := by
  rw [State.inFlight, quOn_queues, State.inFlight]

section
variable (wf : RegsOrdered s) (taken : Taken s via .QU_CMD 0) (idle : s.isSet F.QU_CMD_STATUS.BUSY 0 = false)
  (number : q = bitsOf a0 0 22)
include wf taken idle number

/-- A command on a queue that exists is carried out on it. -/
theorem quCommand_found {e : QEntry} (found : s.queue q = some e) (known : op ∈ [2, 3, 4, 5, 6]) :
    s.quCommand via op [(.QU_CMD_ARG0, a0)] = ((quOn s a0 op q).doQueue op q e).settle := by
  subst number
  rw [quCommand_queue wf taken idle known, found]
  rfl

/-- A command on a number with no queue ends with RANGE_ERROR. -/
theorem quCommand_missing (missing : s.queue q = none) (known : op ∈ [2, 3, 4, 5, 6]) :
    s.quCommand via op [(.QU_CMD_ARG0, a0)] = (quGiven (withArgs s [(.QU_CMD_ARG0, a0)]) op).endQu 13 := by
  subst number
  rw [quCommand_queue wf taken idle known, missing]

end

/-- A STOP that waits ends with TIMEOUT once its time is over, and waits until then. -/
theorem exec_quStopTimeout_waiting {t : Nat} {l : List (Nat × Nat)} (stopping : s.queues.stopping = (q, t) :: l) :
    exec (.quStopTimeout at_) s = .next (if t + s.fwdTimeoutNs ≤ max s.now at_ then
      State.endQu { s.tick at_ with queues := { s.queues with stopping := [] } } 11 else s.tick at_) := by
  rw [exec_quStopTimeout, execQuStopTimeout, tick_queues, stopping]
  rfl

end

/-- Settles O46, command by command: each is taken with its arguments, and ends as `doCreate` and `doQueue` do. -/
theorem queueCommandsComplete : Obligations.QueueCommandsComplete := by
  refine fun s via a0 a1 a2 a3 a4 q at_ e wf => ⟨fun taken idle => ⟨⟨fun passed lowest => ?_, fun failed => ?_⟩,
    fun number => ⟨fun found => ?_, fun missing => ?_⟩⟩, fun t l stopping => ⟨fun late => ?_, fun early => ?_⟩⟩
  · exact congrArg Host.Outcome.next ((quCommand_create (s := s.tick at_) wf (taken_tick taken at_) idle).trans
      (doCreate_passed (quGiven_queues (s.tick at_) _ _) lowest passed))
  · exact congrArg Host.Outcome.next ((quCommand_create (s := s.tick at_) wf (taken_tick taken at_) idle).trans
      (doCreate_failed failed))
  · have ends {op : Nat} (known : op ∈ [2, 3, 4, 5, 6]) {t : State} (does : (quOn (s.tick at_) a0 op q).doQueue op q e = t) :
        (.next ((s.tick at_).quCommand via op [(.QU_CMD_ARG0, a0)]) : Host.Outcome State Fault Refusal) = .next t.settle :=
      congrArg Host.Outcome.next ((quCommand_found (s := s.tick at_) wf (taken_tick taken at_) idle number found known).trans
        (congrArg State.settle does))
    have held (op : Nat) : (quOn (s.tick at_) a0 op q).queues = s.queues := quOn_queues (s.tick at_) a0 op q
    have now : (quOn (s.tick at_) a0 4 q).now = max s.now at_ := quOn_now (s.tick at_) a0 4 q
    have flight (op : Nat) : (quOn (s.tick at_) a0 op q).inFlight q = s.inFlight q := quOn_inFlight (s.tick at_) a0 op q
    refine ⟨fun stopped => ⟨?_, fun noRestart => ?_, ?_⟩, fun rest => ?_, fun running => ?_, fun running normal quiet => ?_,
      fun running normal busy => ?_, ?_⟩
    · exact ⟨queueGone (quOn (s.tick at_) a0 2 q) q, ends (by decide) (doQueue_delete (.inl stopped)),
        queueGone_caps (held 2) q, fun y left => ((mem_queueGone_descs (held 2) q y).mp left).2, queueGone_eq (held 2) q,
        fun y listed other => (mem_queueGone_descs (held 2) q y).mpr ⟨listed, other⟩⟩
    · exact ends (by decide) (doQueue_start stopped ((congrArg Cap.restarted (quOn_cap (s.tick at_) a0 3 q)).trans noRestart))
    · exact ends (by decide) (doQueue_stopStopped stopped)
    · exact ends (by decide) (doQueue_reset rest)
    · exact ⟨ends (by decide) (doQueue_deleteRunning running), ends (by decide) (doQueue_startRunning running),
        ends (by decide) (doQueue_resetRunning running)⟩
    · exact ⟨queueStopped (quOn (s.tick at_) a0 4 q) s.queues q e,
        ends (by decide) ((doQueue_stop (held 4) now running normal).trans
          (stopWaits_ends (held 4) ((flight 4).trans quiet))), (queueStopped_queue q).trans (if_pos rfl),
        fun k other => (queueStopped_queue k).trans (if_neg other.symm), rfl⟩
    · exact ends (by decide) ((doQueue_stop (held 4) now running normal).trans
        (stopWaits_waits (held 4) (mt (flight 4).symm.trans busy)))
    · exact ends (by decide) (doQueue_readEntry (flight 6))
  · have ends (op : Nat) (known : op ∈ [2, 3, 4, 5, 6]) := congrArg (Host.Outcome.next (φ := Fault) (ρ := Refusal))
      (quCommand_missing (s := s.tick at_) wf (taken_tick taken at_) idle number missing known)
    simp only [List.forall_mem_cons, List.not_mem_nil, false_imp_iff]
    exact ⟨ends 2 (by decide), ends 3 (by decide), ends 4 (by decide), ends 5 (by decide), ends 6 (by decide),
      fun _ => trivial⟩
  · exact (exec_quStopTimeout_waiting stopping).trans (congrArg Host.Outcome.next (if_pos late))
  · exact (exec_quStopTimeout_waiting stopping).trans (congrArg Host.Outcome.next (if_neg early.not_ge))

end Sys2Proof.Proofs
end

section
/-! PROOFS. Device time does not run back (00 R12; 11 R326; 15 R406). -/

namespace Sys2Proof.Proofs

set_option Elab.async false

open Sys2Proof Machine Laws

/-- A command that is neither AON_RESET nor TIME_SYNC does not set device time. -/
theorem setsTime_other {c : Instr} (notReset : ∀ code serial, c ≠ .aonReset code serial)
    (notSync : ∀ h t1 t2 t3 answer at_, c ≠ .timeSync h t1 t2 t3 answer at_) : setsTime c = false := by
  unfold setsTime
  split
  · exact absurd rfl (notReset _ _)
  · exact absurd rfl (notSync _ _ _ _ _ _)
  · rfl

/-- Settles O6: what `exec_keeps` says of device time, for a command that does not set it. -/
theorem deviceTimeNeverRunsBack : Obligations.DeviceTimeNeverRunsBack := by
  intro c s t notReset notSync e
  have sets : setsTime c = false := setsTime_other notReset notSync
  have kept : Keeps s t := (exec_keeps c (fun h => absurd (sets.symm.trans h) (by decide)) (keeps_refl s)).of t e
  exact PartKeeps.dt kept

end Sys2Proof.Proofs
end

section
/-! PROOFS. The mailbox of an LD and the FM-owned LD of its port (11 R316, R317, Tables 11.3, 11.4; 14 R388). -/

namespace Sys2Proof.Proofs

set_option Elab.async false

open Sys2Proof Machine Laws Claims

/-! Bytes of a label area (11 Table 11.4): a table of bytes in rising order, written one after another. -/

section
variable {m : SMap Byte} (rises : SMap.wf m = true)
include rises

theorem wf_writeByte (a : Nat) (x : Byte) : SMap.wf (writeByte m a x) = true := by
  unfold writeByte
  split
  · exact wf_del m a rises
  · exact wf_put m a x rises

/-- A byte put into a table in rising order reads back; every other byte stands. -/
theorem findD_writeByte (a j : Nat) (x : Byte) :
    SMap.findD (writeByte m a x) j 0#8 = if a = j then x else SMap.findD m j 0#8 := by
  unfold writeByte SMap.findD
  by_cases zero : x = 0#8
  · rw [if_pos zero, find_del m rises]
    split
    · exact zero.symm
    · rfl
  · rw [if_neg zero, find_put]
    split <;> rfl

end

/-- Bytes written from `a` on read back; every other byte stands. -/
theorem findD_writeBytes {m : SMap Byte} (rises : SMap.wf m = true) (a j : Nat) (bs : List Byte) :
    SMap.findD (writeBytes m a bs) j 0#8 =
      if a ≤ j ∧ j < a + bs.length then bs.getD (j - a) 0#8 else SMap.findD m j 0#8 := by
  induction bs generalizing m a with
  | nil => exact (if_neg (fun within => absurd within.2 (not_lt.mpr within.1))).symm
  | cons b rest ih =>
    rw [writeBytes, ih (wf_writeByte rises a b), findD_writeByte rises, List.length_cons]
    rcases lt_trichotomy j a with before | rfl | after
    · rw [if_neg (by omega), if_neg (by omega), if_neg (by omega)]
    · rw [if_neg (by omega), if_pos rfl, if_pos (by omega), Nat.sub_self, List.getD_cons_zero]
    · have next : j - a = j - (a + 1) + 1 := by omega
      rw [if_neg after.ne, next, List.getD_cons_succ]
      exact if_congr (by omega) rfl rfl

/-- SET_LSA's bytes, each put at its place, are the bytes written from the offset on. -/
theorem foldl_zipIdx_eq_writeBytes (m : SMap Byte) (offset n : Nat) (bs : List Byte) :
    (bs.zipIdx n).foldl (fun m x => if x.1 = 0#8 then SMap.del m (offset + x.2) else SMap.put m (offset + x.2) x.1) m
      = writeBytes m (offset + n) bs := by
  induction bs generalizing m n with
  | nil => rfl
  | cons b rest ih => exact ih _ (n + 1)

/-! Records cleared (14 R388). -/

/-- The logs after the records named are cleared of one of them. -/
def clearedLogs (logs : SMap (List (BitVec 256))) (key : Nat) (seqs : List Nat) : SMap (List (BitVec 256)) :=
  let l := (SMap.findD logs key []).filter (fun r => !seqs.contains (recSeq r))
  if l.isEmpty then SMap.del logs key else SMap.put logs key l

section
variable {logs : SMap (List (BitVec 256))} (rises : SMap.wf logs = true) (key : Nat) (seqs : List Nat)
include rises

theorem find_clearedLogs_self : SMap.findD (clearedLogs logs key seqs) key []
    = (SMap.findD logs key []).filter (fun r => !seqs.contains (recSeq r)) := by
  unfold clearedLogs
  dsimp only
  generalize (SMap.findD logs key []).filter (fun r => !seqs.contains (recSeq r)) = l
  unfold SMap.findD
  cases l with
  | nil => rw [List.isEmpty_nil, if_pos rfl, find_del logs rises, if_pos rfl]; rfl
  | cons r rest => rw [List.isEmpty_cons, if_neg Bool.false_ne_true, find_put, if_pos rfl]; rfl

theorem find_clearedLogs_other {j : Nat} (other : j ≠ key) : SMap.find (clearedLogs logs key seqs) j = SMap.find logs j := by
  unfold clearedLogs
  dsimp only
  split
  · rw [find_del logs rises, if_neg other.symm]
  · rw [find_put, if_neg other.symm]

end

/-! The commands of an LD that answers. -/

section
variable {s : State} {p ld : Nat} (serves : s.mailboxServes p ld = true)
include serves

theorem mailboxAnswer_serves (code : Nat) (data : List Word) :
    s.mailboxAnswer p ld code data = s.emit (.mailbox p ld code data) := if_pos serves

/-- An answer after a change to what the ports hold. -/
theorem mailboxAnswer_ports (x : PortSt) (data : List Word) :
    State.mailboxAnswer { s with ports := x } p ld mbOk data = State.emit { s with ports := x } (.mailbox p ld mbOk data) :=
  if_pos serves

theorem exec_getLog_within {off n : Nat} (within : off + n ≤ 44) :
    exec (.getLog p ld true off n) s = .next (s.emit (.mailbox p ld mbOk (((effectsLog.drop (off / 4)).take (n / 4)).map word))) := by
  have inside : ¬ 4 * effectsLog.length < off + n := not_lt.mpr within
  exact congrArg Host.Outcome.next ((if_neg inside).trans (mailboxAnswer_serves serves mbOk _))

/-- CLEAR_EVENT_RECORDS without a list clears the log whole. -/
theorem exec_clearEventRecords_all (log : Nat) : exec (.clearEventRecords p ld log none) s = .next (State.emit { s with
    ports := { s.ports with
      cxlLogs := SMap.del s.ports.cxlLogs (cxlKey p ld log)
      cxlOverflow := removeNum (cxlKey p ld log) s.ports.cxlOverflow } } (.mailbox p ld mbOk [])) := by
  refine congrArg Host.Outcome.next ((if_neg (by rw [serves]; decide)).trans ?_)
  exact mailboxAnswer_ports serves _ []

/-- CLEAR_EVENT_RECORDS with a list clears the records that it names. -/
theorem exec_clearEventRecords_named (log : Nat) (seqs : List Nat) :
    exec (.clearEventRecords p ld log (some seqs)) s = .next (State.emit { s with
      ports := { s.ports with cxlLogs := clearedLogs s.ports.cxlLogs (cxlKey p ld log) seqs } } (.mailbox p ld mbOk [])) := by
  refine congrArg Host.Outcome.next ((if_neg (by rw [serves]; decide)).trans ?_)
  exact mailboxAnswer_ports serves _ []

/-- GET_POISON_LIST of an LD with a tenant, where the list is whole. -/
theorem exec_getPoisonList_whole {t : Nat} {remote : List Nat} (tenant : SMap.find s.bay.ldTenant (p * 16 + ld) = some t)
    (noOverflow : s.lines.poisonOverflow = false) :
    let mine (l : Nat) : Bool := s.bound (boltOfLine l) && s.tenantOf (boltOfLine l) == t
    let all := (remote.filter mine).foldl (fun a l => insertSorted l a) (s.lines.poison.filter mine)
    all.length ≤ s.maxPoisonList →
      exec (.getPoisonList p ld remote) s = .next (s.emit (.mailbox p ld mbOk (0#64 :: all.map (fun l => word (64 * l))))) := by
  intro mine all fits
  have whole : (s.lines.poisonOverflow || decide (s.maxPoisonList < all.length)) = false := by
    rw [noOverflow, decide_eq_false (not_lt.mpr fits)]; rfl
  rw [exec_getPoisonList, execGetPoisonList, tenant]
  refine congrArg Host.Outcome.next ((mailboxAnswer_serves serves mbOk _).trans ?_)
  rw [List.take_of_length_le fits, whole]
  rfl

theorem exec_getLsa_answers (off n : Nat) : exec (.getLsa p ld off n) s =
    if 131072 < off + n then .next (s.emit (.mailbox p ld mbInvalid [])) else .next (s.emit (.mailbox p ld mbOk (packWords
      ((List.range n).map (fun j => SMap.findD (SMap.findD s.ports.lsa (p * 16 + ld) []) (off + j) 0#8))))) := by
  have answers := mailboxAnswer_serves serves
  rw [exec_getLsa, execGetLsa, answers, answers]
  exact apply_ite Host.Outcome.next _ _ _

/-- SET_LSA within the label area writes its bytes there. -/
theorem exec_setLsa_within {off : Nat} {data : List Byte} (within : off + data.length ≤ 131072) :
    exec (.setLsa p ld off data) s = .next (State.emit { s with ports := { s.ports with
      lsa := SMap.put s.ports.lsa (p * 16 + ld) (writeBytes (SMap.findD s.ports.lsa (p * 16 + ld) []) off data) } }
      (.mailbox p ld mbOk [])) := by
  have inside : ¬ lsaSize < off + data.length := not_lt.mpr within
  refine congrArg Host.Outcome.next ((if_neg inside).trans ((if_neg (by rw [serves]; decide)).trans ?_))
  rw [show writeBytes _ off data = _ from (foldl_zipIdx_eq_writeBytes _ off 0 data).symm]
  exact mailboxAnswer_ports serves _ []

/-- SET_LSA past the label area is Invalid Input. -/
theorem exec_setLsa_past {off : Nat} {data : List Byte} (past : 131072 < off + data.length) :
    exec (.setLsa p ld off data) s = .next (s.emit (.mailbox p ld mbInvalid [])) :=
  congrArg Host.Outcome.next ((if_pos past).trans (mailboxAnswer_serves serves mbInvalid []))

/-- SET_TIMESTAMP keeps host time beside device time. -/
theorem exec_setTimestamp_serves (host at_ : Nat) : exec (.setTimestamp p ld host at_) s = .next (State.emit
    { s.tick at_ with ports := { s.ports with timeOff := some (host, max s.now at_) } } (.mailbox p ld mbOk [])) := by
  have still : (s.tick at_).mailboxServes p ld = true := serves
  refine congrArg Host.Outcome.next ((if_neg (by rw [still]; decide)).trans ?_)
  exact mailboxAnswer_ports (s := s.tick at_) still _ []

end

/-! The FM-owned LD (11 R317). -/

theorem fmAnswer_serves {s : State} {p : Nat} (serves : s.hostServes p = true) (several : 1 < s.getF F.PT_CFG.LD_COUNT p)
    (code : Nat) (data : List Word) : s.fmAnswer p code data = s.emit (.mailbox p fmLd code data) :=
  if_pos (Bool.and_eq_true_iff.mpr ⟨serves, decide_eq_true several⟩)

/-- Settles O51, command by command: each answers through `mailboxAnswer` or `fmAnswer`, and a command that sets something does so
before. -/
theorem mailboxesAnswer : Obligations.MailboxesAnswer := by
  refine ⟨fun s p ld at_ serves => ?_, fun s p serves several => ?_⟩
  · have answers (code : Nat) (data : List Word) := congrArg (Host.Outcome.next (φ := Fault) (ρ := Refusal))
      (mailboxAnswer_serves serves code data)
    refine ⟨answers _ _, answers _ _, fun off n => exec_getLog_within serves, fun log => ⟨answers _ _,
      exec_clearEventRecords_all serves log, fun q rises => ?_⟩, answers _ _, fun t remote => exec_getPoisonList_whole serves,
      exec_getLsa_answers serves, fun off data within rises => ?_, fun off data => exec_setLsa_past serves, ?_,
      fun host => exec_setTimestamp_serves serves host at_, fun op => answers _ _⟩
    · exact ⟨_, exec_clearEventRecords_named serves log q, find_clearedLogs_self rises _ q,
        fun j other => find_clearedLogs_other rises _ q other, rfl⟩
    · refine ⟨_, exec_setLsa_within serves within, fun j => ?_, fun j other => ?_, rfl⟩
      · rw [← findD_writeBytes rises]
        exact congrArg (SMap.findD · j 0#8) (by rw [SMap.findD, find_put, if_pos rfl]; rfl)
      · exact (find_put _ _ j _).trans (if_neg other.symm)
    · exact congrArg Host.Outcome.next (mailboxAnswer_serves (s := s.tick at_) serves mbOk _)
  · have answers (code : Nat) (data : List Word) := congrArg (Host.Outcome.next (φ := Fault) (ρ := Refusal))
      (fmAnswer_serves serves several code data)
    exact ⟨answers _ _, answers _ _, answers _ _⟩

end Sys2Proof.Proofs
end

section
/-! PROOFS. The registers of a port (11 Tables 11.10 to 11.14): each at its own offsets, so that a command of a port that writes some
of them leaves what the rules of ports read in the others. -/

namespace Sys2Proof.Proofs

set_option Elab.async false

open Sys2Proof Machine Laws Claims

/-- Registers that a port has, one word for each port, and for each LD in PT_LD. -/
def portReg (r : Reg) : Bool :=
  match r with
  | .PT_CFG | .PT_LINK | .PT_STATUS | .PT_PEER | .PT_CMD | .PT_LD => true
  | _ => false

/-- The register of a port at an offset of its page: the words of LDs from 0x100 on, every other register below. -/
def pageReg (offset : Nat) : Reg :=
  match offset with
  | 0 => .PT_CFG
  | 0x08 => .PT_LINK
  | 0x10 => .PT_STATUS
  | 0x20 => .PT_PEER
  | 0x28 => .PT_CMD
  | _ => .PT_LD

theorem pageReg_addr {r : Reg} (port : portReg r = true) (p : Nat) : pageReg (min (r.addr p % 0x1000) 0x100) = r := by
  have inPage : min (r.addr p % 0x1000) 0x100 = r.info.base % 0x1000 := by
    cases r <;> cases port <;> (simp only [Reg.addr, Reg.info]; omega)
  rw [inPage]
  cases r <;> cases port <;> rfl

/-- Two registers of a port never lie at one offset. -/
theorem portReg_apart {r g : Reg} (port : portReg r = true) (port' : portReg g = true) (other : r ≠ g) (p q : Nat) :
    r.addr p ≠ g.addr q := fun same =>
  other (by rw [← pageReg_addr port p, same, pageReg_addr port' q])

/-- The registers of other blocks lie below those of the ports. -/
theorem portReg_above {r : Reg} (port : portReg r = true) (p : Nat) : 0xc00000 ≤ r.addr p := by
  cases r <;> cases port <;> simp [Reg.addr, Reg.info] <;> omega

theorem portReg_ne_below {r : Reg} (port : portReg r = true) (p : Nat) {a : Nat} (below : a < 0xc00000) : r.addr p ≠ a :=
  (below.trans_le (portReg_above port p)).ne'

variable {s t : State} {f : FieldRef} {i : Nat}

/-- A field reads alike where its register does. -/
theorem getF_of_reg (same : t.reg f.reg i = s.reg f.reg i) : t.getF f i = s.getF f i := by
  unfold State.getF
  rw [same]

/-- What a flag set leaves of the registers of ports: all but the flag's own. -/
theorem flagSet_portReg_same (set : FlagSet s t f i) {r : Reg} (port : portReg r = true) (k : Nat)
    (apart : r.addr k ≠ f.reg.addr i) : t.reg r k = s.reg r k := by
  obtain ⟨-, others, -⟩ := set
  exact others r k apart (portReg_ne_below port k (by decide)) (portReg_ne_below port k (by decide))

/-- A flag of a port set with its event, of any class. -/
theorem flagSet_raiseCls_port (wf : RegsOrdered s) (status : f.reg = .PT_STATUS) (bits : f.lo + f.w ≤ 64) (one : f.w = 1)
    (cls : Nat) (a : EvArg) : FlagSet s (s.raiseCls f i cls a) f i := by
  have above {a : Nat} (below : a < 0xc00000) : f.reg.addr i ≠ a := status ▸ portReg_ne_below rfl i below
  exact flagSet_raiseArg (f := { f with cls := some cls }) wf i a bits one (above (by decide)) (above (by decide))

/-- A flag of a port set with its event. -/
theorem flagSet_raiseAt_port (wf : RegsOrdered s) (status : f.reg = .PT_STATUS) (bits : f.lo + f.w ≤ 64) (one : f.w = 1) :
    FlagSet s (s.raiseAt f i) f i := by
  have above {a : Nat} (below : a < 0xc00000) : f.reg.addr i ≠ a := status ▸ portReg_ne_below rfl i below
  exact flagSet_raiseArg wf f i .none bits one (above (by decide)) (above (by decide))

/-- A port of a personality that is up is not one that the command leaves alone. -/
theorem portServes {s : State} {p pers : Nat} (isPers : s.persOf p = pers) (up : s.portUp p = true) :
    ¬(s.persOf p ≠ pers ∨ s.portUp p = false) :=
  not_or.mpr ⟨not_not.mpr isPers, fun down => absurd (up.symm.trans down) (by decide)⟩

/-! What the rules of ports read: PT_CFG and PT_LINK. -/

/-- PT_CFG and PT_LINK of every port read in `t` as in `s`. -/
def PortsRead (s t : State) : Prop := ∀ q, t.reg .PT_CFG q = s.reg .PT_CFG q ∧ t.reg .PT_LINK q = s.reg .PT_LINK q

theorem portsRead_setF (wf : RegsOrdered s) (port : portReg f.reg = true) (cfg : f.reg ≠ .PT_CFG) (link : f.reg ≠ .PT_LINK)
    (x : Nat) : PortsRead s (s.setF f i x) :=
  fun q => ⟨reg_setF_ne wf x (portReg_apart port rfl cfg i q), reg_setF_ne wf x (portReg_apart port rfl link i q)⟩

section
variable (same : PortsRead s t)
include same

theorem PortsRead.cfg (word : f.reg = .PT_CFG) (q : Nat) : t.getF f q = s.getF f q :=
  getF_of_reg (word ▸ (same q).1)

theorem PortsRead.portUp (q : Nat) : t.portUp q = s.portUp q :=
  congrArg (fun v => bitsOf v F.PT_LINK.STATE.lo F.PT_LINK.STATE.w == 2) (same q).2

theorem PortsRead.persOf (q : Nat) : t.persOf q = s.persOf q := by
  unfold State.persOf
  rw [same.cfg rfl, same.cfg rfl]

theorem PortsRead.portsOf (pers : Nat) : t.portsOf pers = s.portsOf pers := by
  unfold State.portsOf
  simp only [same.cfg (f := F.PT_CFG.WIDTH) rfl, same.cfg (f := F.PT_CFG.PERSONALITY) rfl]

theorem PortsRead.twinPorts : t.twinPorts = s.twinPorts := by
  unfold State.twinPorts
  rw [same.portsOf, funext same.portUp]

/-- Whether a module may be taken out rests on its port and on the stripes. -/
theorem PortsRead.mayRemove (stripe : t.stripe = s.stripe) (q : Nat) : t.mayRemove q = s.mayRemove q := by
  unfold State.mayRemove State.rebuilding State.groupMembers
  rw [same.persOf, same.cfg rfl, stripe]

end

end Sys2Proof.Proofs
end

section
/-! PROOFS. Links that go down, and resets by the host (11 R312, R327; Table 11.9). -/

namespace Sys2Proof.Proofs

set_option Elab.async false

open Sys2Proof Machine Laws Claims

/-! LINK_DOWN (11 Table 11.9). -/

theorem mem_dropReads (s : State) (p : Nat) (r : Req) : r ∈ (s.dropReads p).bay.reqs ↔
    r ∈ s.bay.reqs ∧ ∀ l tag, r.who = .host p l tag → reqWrites r = true := by
  refine List.mem_filter.trans (and_congr_right fun _ => ?_)
  cases r.who with
  | host q l tag => by_cases here : q = p <;> simp [here]
  | _ => simp

/-- The link of a port down and flagged (11 R312, R327). -/
def downFlagged (s : State) (p : Nat) : State :=
  (s.setF F.PT_LINK.STATE p 0).raiseCls F.PT_STATUS.SURPRISE_DOWN p (if s.persOf p = 4 ∨ s.persOf p = 2 then 2 else 1) .none

section
variable {s : State} {p : Nat}

theorem flagSet_downFlagged (wf : RegsOrdered s) :
    FlagSet (s.setF F.PT_LINK.STATE p 0) (downFlagged s p) F.PT_STATUS.SURPRISE_DOWN p :=
  flagSet_raiseCls_port (wf_setF wf _ _ _) rfl (by decide) rfl _ _

theorem downFlagged_cfg (wf : RegsOrdered s) (q : Nat) : (downFlagged s p).reg .PT_CFG q = s.reg .PT_CFG q :=
  (flagSet_portReg_same (flagSet_downFlagged wf) rfl q (portReg_apart rfl rfl (by decide) q p)).trans
    (reg_setF_ne wf 0 (portReg_apart rfl rfl (by decide) p q))

theorem downFlagged_persOf (wf : RegsOrdered s) : (downFlagged s p).persOf p = s.persOf p := by
  unfold State.persOf
  rw [getF_of_reg (f := F.PT_CFG.WIDTH) (downFlagged_cfg wf p), getF_of_reg (f := F.PT_CFG.PERSONALITY) (downFlagged_cfg wf p)]

/-- A link of a port but a MEDIA port goes down. -/
theorem surpriseDown_leaves (notMedia : s.persOf p ≠ 4) : s.surpriseDown p = (downFlagged s p).portLeft p :=
  congrArg (State.portLeft · p) (if_neg notMedia)

/-- A MEDIA link goes down with its module (08 R249). -/
theorem surpriseDown_media (wf : RegsOrdered s) (media : s.persOf p = 4) :
    s.surpriseDown p = State.portLeft ((downFlagged s p).memberLost (s.getF F.PT_CFG.MODULE p)) p := by
  have named : (downFlagged s p).getF F.PT_CFG.MODULE p = s.getF F.PT_CFG.MODULE p :=
    getF_of_reg (downFlagged_cfg wf p)
  rw [← named]
  exact congrArg (State.portLeft · p) (if_pos media)

/-- A HOST port that leaves service drops its reads. -/
theorem portLeft_host (host : s.persOf p = 1) : s.portLeft p = State.settle (s.dropReads p) := by
  unfold State.portLeft
  rw [host]
  rfl

theorem exec_linkDown_up (present : s.persOf p ≠ 0) (up : s.linkState p ≠ 0) (at_ : Nat) :
    exec (.linkDown p at_) s = .next ((s.tick at_).surpriseDown p) :=
  congrArg Host.Outcome.next (if_neg (not_or.mpr ⟨present, up⟩))

end

/-! Resets by the host (11 R327). -/

theorem exec_functionLevelReset_up {s : State} {p : Nat} (host : s.persOf p = 1) (up : s.portUp p = true) (ld at_ : Nat) :
    exec (.functionLevelReset p ld at_) s = .next ((s.tick at_).resetLd p ld) :=
  congrArg Host.Outcome.next (if_neg (portServes host up))

/-- The first `n` LDs of a port reset. -/
def resetLds (s : State) (p n : Nat) : State := (List.range n).foldl (fun s ld => s.resetLd p ld) s

theorem resetLds_succ (s : State) (p n : Nat) : resetLds s p (n + 1) = (resetLds s p n).resetLd p n := by
  unfold resetLds
  rw [List.range_succ, List.foldl_append]
  rfl

/-- What the reset of LDs and its flag leave: all but registers, output, events, decoders and what the ports log. -/
def ldRest (s : State) : State :=
  { s with regs := [], out := [], events := {}, bay := { s.bay with decoders := [] }, ports := {} }

/-- Requests, attachments, bolts, bytes, lines, tiers and queues are among what `ldRest` keeps. -/
theorem ldRest_parts {s u : State} (same : ldRest u = ldRest s) : u.bay.reqs = s.bay.reqs ∧ u.bay.ldTenant = s.bay.ldTenant
    ∧ u.bay.bolts = s.bay.bolts ∧ u.mem = s.mem ∧ u.lines = s.lines ∧ u.tier = s.tier ∧ u.queues = s.queues :=
  ⟨(congrArg (fun u : State => u.bay.reqs) same :), (congrArg (fun u : State => u.bay.ldTenant) same :),
    (congrArg (fun u : State => u.bay.bolts) same :), (congrArg State.mem same :), (congrArg State.lines same :),
    (congrArg State.tier same :), (congrArg State.queues same :)⟩

/-- What the reset of the first `n` LDs of a port does: their decoders and interrupts are off, and the rest but for the interrupts
that waited stands. -/
structure LdsReset (s u : State) (p n : Nat) : Prop where
  ordered : RegsOrdered u
  rises : SMap.wf u.bay.decoders = true
  decoders : ∀ k, SMap.find u.bay.decoders k = if k / 16 = p ∧ k % 16 < n then none else SMap.find s.bay.decoders k
  cleared : ∀ k, k < n → u.getF F.PT_LD.DECODERS (p * 16 + k) = 0 ∧ u.getF F.PT_LD.MSIX_EN (p * 16 + k) = 0
  tenant : ∀ k, u.getF F.PT_LD.TENANT k = s.getF F.PT_LD.TENANT k
  rest : ldRest u = ldRest s

/-- The words of two LDs lie apart. -/
theorem ldAddr_apart {j k : Nat} (other : j ≠ k) : Reg.addr .PT_LD j ≠ Reg.addr .PT_LD k := by
  simp only [Reg.addr, Reg.info]
  omega

/-- The state with the words of an LD reset. -/
def ldCleared (s : State) (k : Nat) : State := (s.setF F.PT_LD.DECODERS k 0).setF F.PT_LD.MSIX_EN k 0

theorem ldRest_setF (s : State) (f : FieldRef) (i x : Nat) : ldRest (s.setF f i x) = ldRest s := rfl

theorem ldRest_emit (s : State) (o : Out) : ldRest (s.emit o) = ldRest s := rfl

theorem ldRest_resetLd (s : State) (p ld : Nat) : ldRest (s.resetLd p ld) = ldRest s :=
  (ldRest_emit _ _).trans ((ldRest_setF _ _ _ _).trans ((ldRest_setF _ _ _ _).trans rfl))

theorem resetLd_decoders (s : State) (p ld : Nat) :
    (s.resetLd p ld).bay.decoders = SMap.del s.bay.decoders (p * 16 + ld) := rfl

theorem resetLd_regs (s : State) (p ld : Nat) : (s.resetLd p ld).regs = (ldCleared s (p * 16 + ld)).regs := rfl

section
variable {s : State} (wf : RegsOrdered s) (p ld : Nat)
include wf

/-- The reset of an LD leaves the words of the other LDs. -/
theorem resetLd_getF_other {f : FieldRef} (word : f.reg = .PT_LD) {k : Nat} (other : k ≠ p * 16 + ld) :
    (s.resetLd p ld).getF f k = s.getF f k := by
  have apart : Reg.addr .PT_LD (p * 16 + ld) ≠ f.reg.addr k := word ▸ ldAddr_apart other.symm
  rw [getF_of_regs (resetLd_regs s p ld), ldCleared, getF_setF_other (wf_setF wf _ _ _) _ _ _ _ _ apart,
    getF_setF_other wf _ _ _ _ _ apart]

/-- The reset of an LD leaves its tenant (11 Table 11.9). -/
theorem resetLd_tenant (k : Nat) : (s.resetLd p ld).getF F.PT_LD.TENANT k = s.getF F.PT_LD.TENANT k := by
  by_cases here : k = p * 16 + ld
  · rw [here, getF_of_regs (resetLd_regs s p ld), ldCleared,
      getF_setF_ne (wf_setF wf _ _ _) F.PT_LD.MSIX_EN F.PT_LD.TENANT _ 0 rfl (by decide) (by decide),
      getF_setF_ne wf F.PT_LD.DECODERS F.PT_LD.TENANT _ 0 rfl (by decide) (by decide)]
  · exact resetLd_getF_other wf p ld rfl here

theorem resetLd_cleared : (s.resetLd p ld).getF F.PT_LD.DECODERS (p * 16 + ld) = 0
    ∧ (s.resetLd p ld).getF F.PT_LD.MSIX_EN (p * 16 + ld) = 0 := by
  have wf' := wf_setF wf F.PT_LD.DECODERS (p * 16 + ld) 0
  constructor
  · rw [getF_of_regs (resetLd_regs s p ld), ldCleared, getF_setF_ne wf' F.PT_LD.MSIX_EN F.PT_LD.DECODERS _ 0 rfl (by decide) (by decide),
      getF_setF wf F.PT_LD.DECODERS _ 0 (by decide), Nat.zero_mod]
  · rw [getF_of_regs (resetLd_regs s p ld), ldCleared, getF_setF wf' F.PT_LD.MSIX_EN _ 0 (by decide), Nat.zero_mod]

end

theorem ldsReset_none {s : State} (p : Nat) (wf : RegsOrdered s) (rises : SMap.wf s.bay.decoders = true) : LdsReset s s p 0 where
  ordered := wf
  rises := rises
  decoders _ := (if_neg fun named => absurd named.2 (Nat.not_lt_zero _)).symm
  cleared _ below := absurd below (Nat.not_lt_zero _)
  tenant _ := rfl
  rest := rfl

/-- One LD more is reset. -/
theorem ldsReset_next {s u : State} {p n : Nat} (reset : LdsReset s u p n) (few : n < 16) :
    LdsReset s (u.resetLd p n) p (n + 1) := by
  obtain ⟨ordered, rises, decoders, cleared, tenant, rest⟩ := reset
  refine { ordered := ?_, rises := ?_, decoders := fun k => ?_, cleared := fun k below => ?_,
           tenant := fun k => (resetLd_tenant ordered p n k).trans (tenant k), rest := (ldRest_resetLd u p n).trans rest }
  · rw [RegsOrdered, resetLd_regs]
    exact wf_setF (wf_setF ordered _ _ _) _ _ _
  · rw [resetLd_decoders]
    exact wf_del _ _ rises
  · rw [resetLd_decoders, find_del _ rises, decoders]
    by_cases here : p * 16 + n = k
    · rw [if_pos here, if_pos (by omega)]
    · rw [if_neg here]
      exact if_congr (by omega) rfl rfl
  · by_cases last : k = n
    · subst last
      exact resetLd_cleared ordered p k
    · have other : p * 16 + k ≠ p * 16 + n := by omega
      rw [resetLd_getF_other ordered p n rfl other, resetLd_getF_other ordered p n rfl other]
      exact cleared k (by omega)

/-- The LDs of a port are reset one after another. -/
theorem ldsReset {s : State} {p n : Nat} (few : n ≤ 16) (wf : RegsOrdered s) (rises : SMap.wf s.bay.decoders = true) :
    LdsReset s (resetLds s p n) p n := by
  induction n with
  | zero => exact ldsReset_none p wf rises
  | succ n ih =>
    rw [resetLds_succ]
    exact ldsReset_next (ih (by omega)) few

/-- The port after the reset of its LDs drops its reads and flags the reset. -/
def hotResetDone (s : State) (p : Nat) : State :=
  ((resetLds s p (max 1 (s.getF F.PT_CFG.LD_COUNT p))).dropReads p).raiseAt F.PT_STATUS.HOT_RESET p

section
variable {s : State} {p : Nat}

theorem exec_hotReset_up (host : s.persOf p = 1) (up : s.portUp p = true) (at_ : Nat) :
    exec (.hotReset p at_) s = .next (State.settle (hotResetDone (s.tick at_) p)) :=
  congrArg Host.Outcome.next (if_neg (portServes host up))

section
variable (wf : RegsOrdered s) (rises : SMap.wf s.bay.decoders = true) (few : s.getF F.PT_CFG.LD_COUNT p ≤ 16)
include wf rises few

theorem hotReset_lds : LdsReset s (resetLds s p (max 1 (s.getF F.PT_CFG.LD_COUNT p))) p (max 1 (s.getF F.PT_CFG.LD_COUNT p)) :=
  ldsReset (max_le (by decide) few) wf rises

/-- The flag of a reset (11 R327). -/
theorem flagSet_hotResetDone : FlagSet
    ((resetLds s p (max 1 (s.getF F.PT_CFG.LD_COUNT p))).dropReads p) (hotResetDone s p) F.PT_STATUS.HOT_RESET p :=
  flagSet_raiseAt_port (hotReset_lds wf rises few).ordered rfl (by decide) rfl

/-- The words of LDs are those that the resets of the LDs leave. -/
theorem hotResetDone_getF {f : FieldRef} (word : f.reg = .PT_LD) (k : Nat) : (hotResetDone s p).getF f k
    = (resetLds s p (max 1 (s.getF F.PT_CFG.LD_COUNT p))).getF f k := by
  have apart : f.reg.addr k ≠ Reg.addr .PT_STATUS p := word ▸ portReg_apart rfl rfl (by decide) k p
  exact getF_of_reg (flagSet_portReg_same (flagSet_hotResetDone wf rises few) (word ▸ rfl) k apart)

theorem hotResetDone_decoders (k : Nat) : SMap.find (hotResetDone s p).bay.decoders k =
    if k / 16 = p ∧ k % 16 < max 1 (s.getF F.PT_CFG.LD_COUNT p) then none else SMap.find s.bay.decoders k := by
  obtain ⟨-, -, stands⟩ := flagSet_hotResetDone wf rises few
  rw [show (hotResetDone s p).bay.decoders = _ from congrArg (fun u : State => u.bay.decoders) stands]
  exact (hotReset_lds wf rises few).decoders k

/-- But for the reads of the port's hosts a reset leaves what `ldRest` names. -/
theorem hotResetDone_rest : ldRest (hotResetDone s p) = ldRest (s.dropReads p) := by
  obtain ⟨-, -, stands⟩ := flagSet_hotResetDone wf rises few
  have flagged : ldRest (hotResetDone s p) = (ldRest (resetLds s p (max 1 (s.getF F.PT_CFG.LD_COUNT p)))).dropReads p :=
    (congrArg ldRest stands).trans rfl
  rw [flagged, (hotReset_lds wf rises few).rest]
  rfl

end

end

end Sys2Proof.Proofs
end

section
/-! PROOFS. The commands of PT_CMD (11 R329, Table 11.14). -/

namespace Sys2Proof.Proofs

set_option Elab.async false

open Sys2Proof Machine Laws Claims

/-- PT_CMD with the operation of a command that is taken. -/
def ptGiven (s : State) (p op : Nat) : State := s.setF F.PT_CMD.OP p op

/-- The port as a RESCAN lets it train: enabled, its command ended. -/
def rescanStarted (s : State) (p : Nat) : State :=
  State.ptCode { s with ports := { s.ports with disabled := removeNum p s.ports.disabled } } p 0

/-- A RESCAN from its training on. -/
def rescanEnds (s : State) (p : Nat) (t : Option Train) (m : Option ModuleInfo) : State :=
  match t with
  | none => s.trainFail p
  | some t =>
    if (s.trained p t).portUp p = false then s.trained p t
    else match m with
      | some m => State.settle ((s.trained p t).addModule p m)
      | none => (s.trained p t).raiseAt F.PT_STATUS.MODULE_REFUSED p

section
variable {s : State} {p : Nat} {t : Option Train} {m : Option ModuleInfo}

/-- RETRAIN where it may: the port trains, and leaves service if it was in it. -/
theorem ptRetrain_runs (present : s.persOf p ≠ 0) (others : ¬(s.persOf p = 2 ∧ s.twinPorts = [p])) :
    s.ptRetrain p = if s.portUp p = true then State.portLeft (State.ptCode (s.setF F.PT_LINK.STATE p 1) p 0) p
      else State.ptCode (s.setF F.PT_LINK.STATE p 1) p 0 :=
  if_neg (not_or.mpr ⟨present, others⟩)

/-- RESCAN where it may. -/
theorem ptRescan_runs (media : s.persOf p = 4) (down : s.portUp p = false) :
    s.ptRescan p t m = rescanEnds (rescanStarted s p) p t m := by
  have serves : ¬(s.persOf p ≠ 4 ∨ s.portUp p = true) := not_or.mpr ⟨not_not.mpr media, Bool.eq_false_iff.mp down⟩
  refine (if_neg serves).trans ?_
  cases t with
  | none => rfl
  | some t =>
    refine if_congr (Bool.not_eq_true' _).to_iff rfl ?_
    cases m <;> rfl

end

section
variable {s : State} {via : Via} {p : Nat} (wf : RegsOrdered s) (taken : Taken s via .PT_CMD p) (at_ : Nat)
include wf

/-- The operation given moves nothing that the rules of ports read. -/
theorem portsRead_ptGiven (op : Nat) : PortsRead s (ptGiven (s.tick at_) p op) :=
  portsRead_setF (s := s.tick at_) wf rfl (by decide) (by decide) op

include taken

/-- PT_CMD runs a command that is taken. -/
theorem ptCommand_taken {op : Nat} (known : word (0x100 + op) &&& ~~~(knownBits .PT_CMD) = 0#64) (t : Option Train)
    (m : Option ModuleInfo) : (s.tick at_).command via .PT_CMD p [] (word (0x100 + op)) (fun s => s.ptRun p op t m)
      = (s.tick at_).ptRun p op t m :=
  command_taken (s := s.tick at_) wf (taken_tick taken at_) (l := []) (fun _ none => absurd none List.not_mem_nil) (.inl rfl)
    known _

variable (idle : s.isSet F.PT_CMD.BUSY p = false)
include idle

theorem exec_retrain_taken : exec (.retrain via p at_) s = .next ((ptGiven (s.tick at_) p 1).ptRetrain p) :=
  congrArg Host.Outcome.next
    ((ptCommand_taken wf taken at_ (op := 1) (by decide) none none).trans (if_neg (Bool.eq_false_iff.mp idle)))

theorem exec_prepareRemove_taken : exec (.prepareRemove via p at_) s = .next ((ptGiven (s.tick at_) p 2).ptRemove p) :=
  congrArg Host.Outcome.next
    ((ptCommand_taken wf taken at_ (op := 2) (by decide) none none).trans (if_neg (Bool.eq_false_iff.mp idle)))

theorem exec_rescan_taken (t : Option Train) (m : Option ModuleInfo) :
    exec (.rescan via p t m at_) s = .next ((ptGiven (s.tick at_) p 3).ptRescan p t m) :=
  congrArg Host.Outcome.next
    ((ptCommand_taken wf taken at_ (op := 3) (by decide) t m).trans (if_neg (Bool.eq_false_iff.mp idle)))

end

end Sys2Proof.Proofs
end

section
/-! PROOFS. A flag set leaves of the ports all but the CXL event logs and the interrupts that wait (14 R388, R389). -/

namespace Sys2Proof.Proofs

set_option Elab.async false

open Sys2Proof Machine Laws Claims

/-- What the ports hold but for their event logs and the interrupts that wait. -/
def portsBeside (s : State) : PortSt := { s.ports with cxlLogs := [], cxlOverflow := [], msixPending := [] }

theorem portsBeside_foldl {β : Type} {g : State → β → State} (turn : ∀ s x, portsBeside (g s x) = portsBeside s) (l : List β)
    (s : State) : portsBeside (l.foldl g s) = portsBeside s :=
  foldl_keeps (P := fun t => portsBeside t = portsBeside s) g (fun t x kept => (turn t x).trans kept) l s rfl

theorem portsBeside_ite {c : Prop} [Decidable c] {t u : State} {x : PortSt} (yes : portsBeside t = x) (no : portsBeside u = x) :
    portsBeside (if c then t else u) = x := by
  split
  · exact yes
  · exact no

/-- An operation that leaves the ports alone. -/
theorem portsBeside_of {s t : State} (same : t.ports = s.ports) : portsBeside t = portsBeside s := by
  unfold portsBeside
  rw [same]

variable (s : State)

theorem portsBeside_cxlRecord (key : Nat) (e : EvRec) : portsBeside (s.cxlRecord key e) = portsBeside s :=
  portsBeside_ite rfl rfl

theorem portsBeside_evSend (t : Nat) : portsBeside (s.evSend t) = portsBeside s :=
  portsBeside_ite rfl (portsBeside_ite (portsBeside_ite rfl rfl) rfl)

theorem portsBeside_evIrq (t : Nat) : portsBeside (s.evIrq t) = portsBeside s := by
  unfold State.evIrq
  dsimp only
  split
  · exact portsBeside_ite rfl (portsBeside_evSend _ t)
  · exact portsBeside_evSend _ t

theorem portsBeside_bbEvent (f : FieldRef) (i : Nat) (e : EvRec) : portsBeside (s.bbEvent f i e).1 = portsBeside s := by
  unfold State.bbEvent
  dsimp only
  split
  · rfl
  · split
    · split <;> split <;> rfl
    · rfl

theorem portsBeside_spreadEvent (e : EvRec) (irq : Bool) (p : EventSt × Bool) :
    portsBeside (s.spreadEvent e irq p).1 = portsBeside s := by
  unfold State.spreadEvent
  extract_lets s1 s2 s3 s4
  have lost : portsBeside s2 = portsBeside s := portsBeside_ite (t := _) rfl rfl
  have copied : portsBeside s3 = portsBeside s :=
    portsBeside_ite ((portsBeside_foldl (fun t k => portsBeside_cxlRecord t k e) _ _).trans lost) lost
  have sent : portsBeside s4 = portsBeside s :=
    portsBeside_ite ((portsBeside_foldl portsBeside_evIrq _ _).trans copied) copied
  split
  · next f i named =>
    have noted : portsBeside (s4.bbEvent f i e).1 = portsBeside s := (portsBeside_bbEvent s4 f i e).trans sent
    exact portsBeside_ite (c := _) noted noted
  · exact sent

theorem portsBeside_enterEvent (e : EvRec) : portsBeside (s.enterEvent e).1 = portsBeside s := by
  unfold State.enterEvent
  dsimp only
  split
  · have counted : ∀ u : State, portsBeside (u.bump F.BB_EV_STAT.MERGED 0 1) = portsBeside u := fun u =>
      portsBeside_of (bump_ports u _ _ _)
    exact portsBeside_ite ((portsBeside_foldl portsBeside_evIrq _ _).trans (counted _)) (counted _)
  · exact portsBeside_spreadEvent s _ _ _

theorem portsBeside_raiseOnce (f : FieldRef) (i cls : Nat) (a : EvArg) :
    portsBeside (s.raiseOnce f i cls a).1 = portsBeside s := by
  unfold State.raiseOnce
  dsimp only
  split
  · exact portsBeside_enterEvent _ _
  · split <;> rfl

theorem portsBeside_raiseNotes (n : RaiseNote) : portsBeside (s.raiseNotes n) = portsBeside s := by
  unfold State.raiseNotes
  have overflow : portsBeside (if n.overflow then (s.raiseOnce F.BB_STATUS.EV_OVERFLOW 0 1 .none).1 else s) = portsBeside s :=
    portsBeside_ite (portsBeside_raiseOnce s _ _ _ _) rfl
  exact portsBeside_ite ((portsBeside_raiseOnce _ _ _ _ _).trans overflow) overflow

theorem portsBeside_raiseArg (f : FieldRef) (i : Nat) (a : EvArg) : portsBeside (s.raiseArg f i a) = portsBeside s := by
  unfold State.raiseArg
  split
  · exact (portsBeside_raiseNotes _ _).trans (portsBeside_raiseOnce s f i _ a)
  · rfl

end Sys2Proof.Proofs
end

section
/-! PROOFS. Modules added, and modules that do not answer (11 R319, R320; 08 R250, R254). -/

namespace Sys2Proof.Proofs

set_option Elab.async false

open Sys2Proof Machine Laws Claims

/-! Enumeration (11 Table 11.5). -/

/-- The identity of a module shown. -/
def identified (s : State) (p : Nat) (m : ModuleInfo) : State :=
  (s.setF F.PT_PEER.MODULE_VID p m.vid).setF F.PT_PEER.MODULE_DID p m.did

/-- A module that passes its enumeration (11 Table 11.5; 04 R146). -/
def enumerated (s : State) (p : Nat) (m : ModuleInfo) : State :=
  let u := (identified s p m).seedFloat ((identified s p m).getF F.PT_CFG.MODULE p)
  if wearOk (u.ratedOf m) (frameSlots m.capGib) (u.linkBw p) then u else u.raise F.ST_TIER_STATUS.WEAR_SHORT

/-- The parts of a state that an enumeration leaves alone. -/
structure EnumPart where
  stripe : StripeSt
  pmap : SMap (Nat × Nat)
  bands : SMap Band
  mem : List Host.Cell
  lines : LineSt
  ports : PortSt

/-- These parts of a state. -/
def enumPart (s : State) : EnumPart :=
  { stripe := s.stripe, pmap := s.tier.pmap, bands := s.flash.bands, mem := s.mem, lines := s.lines, ports := portsBeside s }

section
variable (s : State) (p ix : Nat) (m : ModuleInfo)

theorem enumPart_setF (f : FieldRef) (i x : Nat) : enumPart (s.setF f i x) = enumPart s := rfl

theorem enumPart_identified : enumPart (identified s p m) = enumPart s := (enumPart_setF _ _ _ _).trans (enumPart_setF s _ _ _)

theorem enumPart_seedFloat : enumPart (s.seedFloat ix) = enumPart s := by
  unfold State.seedFloat
  split <;> rfl

theorem seedFloat_regs : (s.seedFloat ix).regs = s.regs := by
  unfold State.seedFloat
  split <;> rfl

theorem enumPart_raise (f : FieldRef) : enumPart (s.raise f) = enumPart s := by
  have hushed := hush_raise s f
  unfold enumPart
  rw [show (s.raise f).stripe = s.stripe from congrArg Hush.stripe hushed,
    show (s.raise f).tier = s.tier from congrArg Hush.tier hushed,
    show (s.raise f).flash = s.flash from congrArg Hush.flash hushed,
    show (s.raise f).mem = s.mem from congrArg Hush.mem hushed,
    show (s.raise f).lines = s.lines from congrArg Hush.lines hushed,
    show portsBeside (s.raise f) = portsBeside s from portsBeside_raiseArg s f 0 .none]

theorem enumPart_enumerated : enumPart (enumerated s p m) = enumPart s := by
  have seeded : enumPart ((identified s p m).seedFloat ((identified s p m).getF F.PT_CFG.MODULE p)) = enumPart s :=
    (enumPart_seedFloat _ _).trans (enumPart_identified s p m)
  unfold enumerated
  dsimp only
  split
  · exact seeded
  · exact (enumPart_raise _ _).trans seeded

end

section
variable {s : State} {p : Nat} {m : ModuleInfo}

/-- An enumeration leaves the registers but the identity shown and what WEAR_SHORT sets. -/
theorem enumerated_reg (wf : RegsOrdered s) {r : Reg} {k : Nat} (peer : Reg.addr .PT_PEER p ≠ r.addr k)
    (tier : Reg.addr .ST_TIER_STATUS 0 ≠ r.addr k) (stat : r.addr k ≠ Reg.addr .BB_EV_STAT 0)
    (status : r.addr k ≠ Reg.addr .BB_STATUS 0) : (enumerated s p m).reg r k = s.reg r k := by
  have wf' : RegsOrdered (identified s p m) := wf_setF (wf_setF wf _ _ _) _ _ _
  have shown : (identified s p m).reg r k = s.reg r k := by
    unfold identified
    rw [reg_setF_ne (wf_setF wf _ _ _) _ peer, reg_setF_ne wf _ peer]
  have seeded := reg_of_regs (seedFloat_regs (identified s p m) ((identified s p m).getF F.PT_CFG.MODULE p)) r k
  unfold enumerated
  dsimp only
  split
  · exact seeded.trans shown
  · refine (raiseArg_reg ?_ _ 0 .none r k stat status tier).trans (seeded.trans shown)
    rw [seedFloat_regs]
    exact wf'

/-- A port's own registers but PT_PEER stand. -/
theorem enumerated_cfg (wf : RegsOrdered s) (q : Nat) : (enumerated s p m).reg .PT_CFG q = s.reg .PT_CFG q :=
  enumerated_reg wf (portReg_apart rfl rfl (by decide) p q) (portReg_ne_below rfl q (by decide)).symm
    (portReg_ne_below rfl q (by decide)) (portReg_ne_below rfl q (by decide))

/-- A register of the tiers, whose block lies below the ports. -/
theorem enumerated_below (wf : RegsOrdered s) {r : Reg} (below : r.addr 0 < 0xc00000)
    (tier : Reg.addr .ST_TIER_STATUS 0 ≠ r.addr 0) (stat : r.addr 0 ≠ Reg.addr .BB_EV_STAT 0)
    (status : r.addr 0 ≠ Reg.addr .BB_STATUS 0) : (enumerated s p m).reg r 0 = s.reg r 0 :=
  enumerated_reg wf (portReg_ne_below rfl p below) tier stat status

/-- Whether a module passes rests on it and on the endurance records. -/
theorem enumOk_setF (s : State) (f : FieldRef) (i x : Nat) : (s.setF f i x).enumOk m = s.enumOk m := rfl

theorem identified_enumOk : (identified s p m).enumOk m = s.enumOk m := (enumOk_setF _ _ _ _).trans (enumOk_setF s _ _ _)

theorem enumerate_passes (passes : s.enumOk m = true) : s.enumerate p m = (enumerated s p m, true) :=
  if_pos (identified_enumOk.trans passes)

theorem enumerate_fails (fails : s.enumOk m = false) :
    s.enumerate p m = ((identified s p m).raiseAt F.PT_STATUS.MODULE_REFUSED p, false) :=
  if_neg (Bool.eq_false_iff.mp (identified_enumOk.trans fails))

end

/-! Copy-back (08 R254). -/

/-- The record of a member that copies back all its rows to a module. -/
def copyBackMember (s : State) (ix : Nat) (x : Member) (m : ModuleInfo) : Member :=
  { x with
    st := .copyBack, rowsLeft := s.rowsInUse ix, rowsTotal := s.rowsInUse ix, cap := m.capGib, rated := s.ratedOf m }

theorem startCopyBack_starts {s : State} {ix : Nat} {x : Member} {m : ModuleInfo} (p : Nat)
    (on : s.isSet F.ST_REBUILD_CTL.COPYBACK_EN 0 = true) (fits : x.cap ≤ m.capGib) (used : 0 < s.rowsInUse ix) :
    s.startCopyBack p ix x m = s.putMember ix (copyBackMember s ix x m) := by
  have may : ¬((!s.isSet F.ST_REBUILD_CTL.COPYBACK_EN 0) = true ∨ m.capGib < x.cap) := by
    rw [on]
    exact not_or.mpr ⟨by decide, not_lt.mpr fits⟩
  exact (if_neg may).trans (if_neg used.ne')

/-- The record of a member of tier P is kept with the stripes alone. -/
theorem putMember_low {ix : Nat} (low : ix < 32) (s : State) (x : Member) :
    s.putMember ix x = { s with stripe := { s.stripe with members := SMap.put s.stripe.members ix x } } := if_pos low

/-- Rows in use are counted in the maps of tiers P and F. -/
theorem rowsInUse_of {s t : State} (parts : enumPart t = enumPart s) (width : t.pWidth = s.pWidth) (ix : Nat) :
    t.rowsInUse ix = s.rowsInUse ix := by
  unfold State.rowsInUse State.rowOf
  rw [show t.stripe = s.stripe from congrArg EnumPart.stripe parts, show t.tier.pmap = s.tier.pmap from congrArg EnumPart.pmap parts,
    show t.flash.bands = s.flash.bands from congrArg EnumPart.bands parts, width]

/-- The endurance record of a module is found among those of the ports. -/
theorem ratedOf_of {s t : State} (parts : enumPart t = enumPart s) (m : ModuleInfo) : t.ratedOf m = s.ratedOf m := by
  have records : t.ports.rated = s.ports.rated := congrArg (fun x : EnumPart => x.ports.rated) parts
  unfold State.ratedOf
  rw [records]

/-- The count of dirty shutdowns of a module recorded (11 Table 11.5). -/
def withCount (s : State) (ix : Nat) (m : ModuleInfo) : State :=
  { s with ports := { s.ports with modCount := SMap.put s.ports.modCount ix m.dirtyCount } }

theorem withCount_stripe {s t : State} (parts : enumPart t = enumPart s) (ix : Nat) (m : ModuleInfo) :
    (withCount t ix m).stripe = s.stripe := congrArg EnumPart.stripe parts

section
variable (s : State) (ix : Nat) (m : ModuleInfo)

theorem moduleCount_fst : (s.moduleCount ix m).1 = withCount s ix m := rfl

theorem copyBackMember_withCount (x : Member) : copyBackMember (withCount s ix m) ix x m = copyBackMember s ix x m := rfl

theorem startCopyBack_counted {x : Member} (p : Nat) (on : s.isSet F.ST_REBUILD_CTL.COPYBACK_EN 0 = true) (fits : x.cap ≤ m.capGib)
    (used : 0 < s.rowsInUse ix) :
    (withCount s ix m).startCopyBack p ix x m = (withCount s ix m).putMember ix (copyBackMember s ix x m) :=
  startCopyBack_starts (s := withCount s ix m) p on fits used

end

/-- A module that is refused adds nothing. -/
theorem addModule_refused {s u : State} {p : Nat} {m : ModuleInfo} (refused : s.enumerate p m = (u, false)) :
    s.addModule p m = u := by
  unfold State.addModule
  rw [refused]
  rfl

/-- An enumerated module for a lost member comes to copy-back. -/
theorem addModule_returns {s u : State} {p : Nat} {m : ModuleInfo} {x : Member} (passes : s.enumerate p m = (u, true))
    (found : SMap.find (withCount u (u.getF F.PT_CFG.MODULE p) m).stripe.members (u.getF F.PT_CFG.MODULE p) = some x)
    (gone : x.st = .lost ∨ x.st = .rebuilding) :
    s.addModule p m = (withCount u (u.getF F.PT_CFG.MODULE p) m).startCopyBack p (u.getF F.PT_CFG.MODULE p) x m := by
  have isGone : (x.st == .lost || x.st == .rebuilding) = true := by
    rcases gone with h | h <;> rw [h] <;> rfl
  unfold State.addModule
  rw [passes]
  dsimp only
  rw [moduleCount_fst, found]
  exact (if_neg Bool.false_ne_true).trans (if_pos isGone)

section
variable {s : State} {p : Nat} {m : ModuleInfo} (wf : RegsOrdered s)
include wf

theorem enumerated_module : (enumerated s p m).getF F.PT_CFG.MODULE p = s.getF F.PT_CFG.MODULE p :=
  getF_of_reg (enumerated_cfg wf p)

theorem enumerated_rowsInUse (ix : Nat) : (enumerated s p m).rowsInUse ix = s.rowsInUse ix := by
  have width : (enumerated s p m).getF F.ST_P_CFG.WIDTH 0 = s.getF F.ST_P_CFG.WIDTH 0 :=
    getF_of_reg (enumerated_below wf (by decide) (by decide) (by decide) (by decide))
  exact rowsInUse_of (enumPart_enumerated s p m) width ix

theorem enumerated_copybackOn :
    (enumerated s p m).isSet F.ST_REBUILD_CTL.COPYBACK_EN 0 = s.isSet F.ST_REBUILD_CTL.COPYBACK_EN 0 := by
  unfold State.isSet
  rw [getF_of_reg (enumerated_below wf (by decide) (by decide) (by decide) (by decide))]

theorem copyBackMember_enumerated (ix : Nat) (x : Member) :
    copyBackMember (enumerated s p m) ix x m = copyBackMember s ix x m := by
  unfold copyBackMember
  rw [enumerated_rowsInUse wf, ratedOf_of (enumPart_enumerated s p m)]

/-- A module in a lost member's place, as large as the old one, copies back (08 R254). -/
theorem addModule_copiesBack {x : Member} (passes : s.enumOk m = true)
    (found : SMap.find s.stripe.members (s.getF F.PT_CFG.MODULE p) = some x) (gone : x.st = .lost ∨ x.st = .rebuilding)
    (on : s.isSet F.ST_REBUILD_CTL.COPYBACK_EN 0 = true) (fits : x.cap ≤ m.capGib)
    (used : 0 < s.rowsInUse (s.getF F.PT_CFG.MODULE p)) :
    s.addModule p m = (withCount (enumerated s p m) (s.getF F.PT_CFG.MODULE p) m).putMember (s.getF F.PT_CFG.MODULE p)
      (copyBackMember s (s.getF F.PT_CFG.MODULE p) x m) := by
  have listed := withCount_stripe (enumPart_enumerated s p m) (s.getF F.PT_CFG.MODULE p) m
  have named : (enumerated s p m).getF F.PT_CFG.MODULE p = s.getF F.PT_CFG.MODULE p := enumerated_module wf
  rw [← listed, ← named] at found
  rw [addModule_returns (enumerate_passes passes) found gone, named, startCopyBack_counted _ _ _ _
    ((enumerated_copybackOn wf).trans on) fits (used.trans_eq (enumerated_rowsInUse wf _).symm), copyBackMember_enumerated wf]

end

/-- A member's record put, and its module's count. -/
theorem countedMember_spec {s u : State} {ix : Nat} (parts : enumPart u = enumPart s) (low : ix < 32) (m : ModuleInfo) (y : Member) :
    let v := (withCount u ix m).putMember ix y
    SMap.find v.stripe.members ix = some y ∧ (∀ k, k ≠ ix → SMap.find v.stripe.members k = SMap.find s.stripe.members k)
    ∧ SMap.find v.ports.modCount ix = some m.dirtyCount ∧ v.mem = s.mem ∧ v.lines = s.lines := by
  have stripe : u.stripe = s.stripe := congrArg EnumPart.stripe parts
  dsimp only
  rw [putMember_low low]
  refine ⟨(find_put ..).trans (if_pos rfl), fun k other => ?_, (find_put ..).trans (if_pos rfl),
    congrArg EnumPart.mem parts, congrArg EnumPart.lines parts⟩
  rw [← stripe]
  exact (find_put ..).trans (if_neg other.symm)

/-- MODULE names one of 32 modules (11 Table 11.10). -/
theorem module_lt (s : State) (p : Nat) : s.getF F.PT_CFG.MODULE p < 32 := Nat.mod_lt _ (by decide)

/-! The commands. -/

section
variable {s : State}

theorem exec_moduleHotAdd_up {p : Nat} (media : s.persOf p = 4) (up : s.portUp p = true) (m : ModuleInfo) (at_ : Nat) :
    exec (.moduleHotAdd p m at_) s = .next (State.settle ((s.tick at_).addModule p m)) :=
  congrArg Host.Outcome.next (if_neg (portServes media up))

/-- The row of a request that timed out has one unit more that cannot be read (08 R250). -/
def unitLost (s : State) (g row : Nat) : State :=
  { s with stripe := { s.stripe with unreadable := s.stripe.unreadable ++ [(g, row)] } }

variable {member : Nat} {x : Member} (found : SMap.find s.stripe.members member = some x) (row : Nat) (frame : Option Nat) (at_ : Nat)
include found

theorem exec_moduleRequestTimeout_found : exec (.moduleRequestTimeout member row frame at_) s = .next
    (let u := unitLost (s.tick at_) x.group row
     if u.rowMissing x.group row ≤ 2 || u.groupDeferred x.group then u else State.settle (u.healFrames frame.toList)) := by
  rw [exec_moduleRequestTimeout, execModuleRequestTimeout, tick_stripe, found]
  rfl

end

end Sys2Proof.Proofs
end

section
/-! PROOFS. Links, resets, modules and the commands of a port (11 R319, R320, R327, R329; 08 R249, R250, R254), each clause from the
lemmas above. -/

namespace Sys2Proof.Proofs

set_option Elab.async false

open Sys2Proof Machine Laws Claims

section
variable {s : State} {p : Nat} (wf : RegsOrdered s) (at_ : Nat)
include wf

/-- LINK_DOWN by the personality of the port (11 Table 11.9). -/
theorem linkDown_spec (present : s.persOf p ≠ 0) (up : s.linkState p ≠ 0) :
    let u := downFlagged (s.tick at_) p
    FlagSet ((s.tick at_).setF F.PT_LINK.STATE p 0) u F.PT_STATUS.SURPRISE_DOWN p
    ∧ (s.persOf p = 1 → exec (.linkDown p at_) s = .next (State.settle (u.dropReads p)))
    ∧ (s.persOf p = 2 ∨ s.persOf p = 3 → exec (.linkDown p at_) s = .next (u.portLeft p))
    ∧ (s.persOf p = 4 → exec (.linkDown p at_) s = .next (State.portLeft (u.memberLost (s.getF F.PT_CFG.MODULE p)) p)) := by
  have wf' : RegsOrdered (s.tick at_) := wf
  have leaves (notMedia : s.persOf p ≠ 4) : exec (.linkDown p at_) s = .next ((downFlagged (s.tick at_) p).portLeft p) :=
    (exec_linkDown_up present up at_).trans (congrArg Host.Outcome.next (surpriseDown_leaves (s := s.tick at_) notMedia))
  refine ⟨flagSet_downFlagged wf', fun host => ?_, fun link => leaves (by omega), fun media => ?_⟩
  · rw [leaves (by omega), portLeft_host ((downFlagged_persOf wf').trans host)]
  · rw [exec_linkDown_up present up, surpriseDown_media wf' media]
    rfl

/-- HOT_RESET of a HOST port in service (11 R327, Table 11.9). -/
theorem hotReset_spec (host : s.persOf p = 1) (up : s.portUp p = true) (few : s.getF F.PT_CFG.LD_COUNT p ≤ 16)
    (rises : SMap.wf s.bay.decoders = true) : ∃ u : State,
    exec (.hotReset p at_) s = .next (State.settle u) ∧ u.getF F.PT_STATUS.HOT_RESET p = 1
    ∧ (∀ k, k < max 1 (s.getF F.PT_CFG.LD_COUNT p) → SMap.find u.bay.decoders (p * 16 + k) = none
        ∧ u.getF F.PT_LD.DECODERS (p * 16 + k) = 0 ∧ u.getF F.PT_LD.MSIX_EN (p * 16 + k) = 0
        ∧ u.getF F.PT_LD.TENANT (p * 16 + k) = s.getF F.PT_LD.TENANT (p * 16 + k))
    ∧ (∀ k, k / 16 ≠ p → SMap.find u.bay.decoders k = SMap.find s.bay.decoders k)
    ∧ u.bay.reqs = (s.dropReads p).bay.reqs ∧ u.bay.ldTenant = s.bay.ldTenant ∧ u.bay.bolts = s.bay.bolts
    ∧ u.mem = s.mem ∧ u.lines = s.lines ∧ u.tier = s.tier ∧ u.queues = s.queues := by
  have wf' : RegsOrdered (s.tick at_) := wf
  obtain ⟨flag, -, -⟩ := flagSet_hotResetDone wf' rises few
  obtain ⟨-, -, -, cleared, tenant, -⟩ := hotReset_lds wf' rises few
  have parts := ldRest_parts (hotResetDone_rest wf' rises few)
  have decoders := hotResetDone_decoders wf' rises few
  have words {f : FieldRef} (word : f.reg = .PT_LD) := hotResetDone_getF wf' rises few word
  refine ⟨hotResetDone (s.tick at_) p, exec_hotReset_up host up at_, flag, fun k below => ⟨?_, ?_, ?_, ?_⟩, fun k other => ?_,
    parts⟩
  · have named : (p * 16 + k) / 16 = p ∧ (p * 16 + k) % 16 < max 1 (s.getF F.PT_CFG.LD_COUNT p) := by omega
    exact (decoders _).trans (if_pos named)
  · exact (words rfl _).trans (cleared k below).1
  · exact (words rfl _).trans (cleared k below).2
  · exact (words rfl _).trans (tenant _)
  · exact (decoders k).trans (if_neg fun named => other named.1)

/-- MODULE_HOT_ADD of a module that is refused (11 Table 11.5). -/
theorem hotAdd_refused {m : ModuleInfo} (media : s.persOf p = 4) (up : s.portUp p = true) (refused : s.enumOk m = false) :
    ∃ t : State, exec (.moduleHotAdd p m at_) s = .next (State.settle t)
      ∧ FlagSet (identified (s.tick at_) p m) t F.PT_STATUS.MODULE_REFUSED p := by
  have shown : RegsOrdered (identified (s.tick at_) p m) := wf_setF (wf_setF wf _ _ _) _ _ _
  refine ⟨_, exec_moduleHotAdd_up media up m at_, ?_⟩
  rw [addModule_refused (enumerate_fails (s := s.tick at_) refused)]
  exact flagSet_raiseAt_port shown rfl (by decide) rfl

/-- MODULE_HOT_ADD for a lost member (08 R254). -/
theorem hotAdd_copiesBack {m : ModuleInfo} {x : Member} (media : s.persOf p = 4) (up : s.portUp p = true)
    (passes : s.enumOk m = true) (found : SMap.find s.stripe.members (s.getF F.PT_CFG.MODULE p) = some x)
    (gone : x.st = .lost ∨ x.st = .rebuilding) (on : s.isSet F.ST_REBUILD_CTL.COPYBACK_EN 0 = true) (fits : x.cap ≤ m.capGib)
    (used : 0 < s.rowsInUse (s.getF F.PT_CFG.MODULE p)) : ∃ u : State,
    exec (.moduleHotAdd p m at_) s = .next (State.settle u)
    ∧ SMap.find u.stripe.members (s.getF F.PT_CFG.MODULE p) = some (copyBackMember s (s.getF F.PT_CFG.MODULE p) x m)
    ∧ (∀ k, k ≠ s.getF F.PT_CFG.MODULE p → SMap.find u.stripe.members k = SMap.find s.stripe.members k)
    ∧ SMap.find u.ports.modCount (s.getF F.PT_CFG.MODULE p) = some m.dirtyCount ∧ u.mem = s.mem ∧ u.lines = s.lines := by
  refine ⟨_, exec_moduleHotAdd_up media up m at_, ?_⟩
  rw [addModule_copiesBack (s := s.tick at_) wf passes found gone on fits used]
  exact countedMember_spec (s := s.tick at_) (enumPart_enumerated _ _ _) (module_lt s p) m _

end

/-- MODULE_REQUEST_TIMEOUT heals where more than two units of the row are missing and no write is deferred (11 R320; 08 R250). -/
theorem moduleRequestTimeout_spec {s : State} {member : Nat} {x : Member} (found : SMap.find s.stripe.members member = some x)
    (row at_ : Nat) (frame : Option Nat) :
    let u := unitLost (s.tick at_) x.group row
    (u.rowMissing x.group row ≤ 2 ∨ s.groupDeferred x.group = true →
      exec (.moduleRequestTimeout member row frame at_) s = .next u)
    ∧ (2 < u.rowMissing x.group row → s.groupDeferred x.group = false →
      exec (.moduleRequestTimeout member row frame at_) s = .next (State.settle (u.healFrames frame.toList))) := by
  have runs := exec_moduleRequestTimeout_found found row frame at_
  refine ⟨fun stands => runs.trans (congrArg Host.Outcome.next (if_pos ?_)),
    fun many noneDeferred => runs.trans (congrArg Host.Outcome.next (if_neg ?_))⟩
  · exact Bool.or_eq_true_iff.mpr (stands.imp_left decide_eq_true)
  · exact fun h => (Bool.or_eq_true_iff.mp h).elim (fun few => absurd (of_decide_eq_true few) many.not_ge)
      (fun deferred => absurd (noneDeferred.symm.trans deferred) (by decide))

section
variable {s : State} {via : Via} {p : Nat} (wf : RegsOrdered s) (taken : Taken s via .PT_CMD p)
  (idle : s.isSet F.PT_CMD.BUSY p = false) (at_ : Nat)
include wf taken idle

/-- RETRAIN (11 Table 11.14). -/
theorem retrain_spec : let u := ptGiven (s.tick at_) p 1
    let train := State.ptCode (u.setF F.PT_LINK.STATE p 1) p 0
    (s.persOf p = 0 ∨ (s.persOf p = 2 ∧ s.twinPorts = [p]) → exec (.retrain via p at_) s = .next (u.ptCode p 12))
    ∧ (s.persOf p ≠ 0 → ¬(s.persOf p = 2 ∧ s.twinPorts = [p]) →
      exec (.retrain via p at_) s = .next (if s.portUp p = true then train.portLeft p else train)) := by
  have same := portsRead_ptGiven (p := p) wf at_ 1
  have runs := exec_retrain_taken wf taken at_ idle
  rw [← same.persOf, ← same.twinPorts, ← same.portUp]
  exact ⟨fun refused => runs.trans (congrArg Host.Outcome.next (if_pos refused)),
    fun present others => runs.trans (congrArg Host.Outcome.next (ptRetrain_runs present others))⟩

/-- PREPARE_REMOVE (11 Table 11.14). -/
theorem prepareRemove_spec : let u := ptGiven (s.tick at_) p 2
    let v := State.setF (u.memberLost (s.getF F.PT_CFG.MODULE p)) F.PT_LINK.STATE p 0
    (s.mayRemove p = false → exec (.prepareRemove via p at_) s = .next (u.ptCode p 12))
    ∧ (s.mayRemove p = true → exec (.prepareRemove via p at_) s = .next (State.portLeft (State.ptCode { v with
        ports := { v.ports with disabled := insertSorted p v.ports.disabled } } p 0) p)) := by
  have same := portsRead_ptGiven (p := p) wf at_ 2
  have runs := exec_prepareRemove_taken wf taken at_ idle
  rw [← same.mayRemove rfl, ← same.cfg rfl]
  exact ⟨fun mayNot => runs.trans (congrArg Host.Outcome.next (if_pos (by rw [mayNot]; rfl))),
    fun may => runs.trans (congrArg Host.Outcome.next (if_neg (by rw [may]; decide)))⟩

/-- RESCAN (11 Table 11.14). -/
theorem rescan_spec (t : Option Train) (m : Option ModuleInfo) : let u := ptGiven (s.tick at_) p 3
    (s.persOf p ≠ 4 ∨ s.portUp p = true → exec (.rescan via p t m at_) s = .next (u.ptCode p 12))
    ∧ (s.persOf p = 4 → s.portUp p = false →
      exec (.rescan via p t m at_) s = .next (rescanEnds (rescanStarted u p) p t m)) := by
  have same := portsRead_ptGiven (p := p) wf at_ 3
  have runs := exec_rescan_taken wf taken at_ idle t m
  rw [← same.persOf, ← same.portUp]
  exact ⟨fun refused => runs.trans (congrArg Host.Outcome.next (if_pos refused)),
    fun media down => runs.trans (congrArg Host.Outcome.next (ptRescan_runs media down))⟩

end

/-- Settles O50, event by event: links that go down, resets, modules, and the commands of PT_CMD. -/
theorem linksGoDownAndModulesComeAndGo : Obligations.LinksGoDownAndModulesComeAndGo := by
  refine ⟨fun s p ld at_ m wf _ => ⟨fun present up => ⟨_, linkDown_spec wf at_ present up⟩, mem_dropReads s p,
    fun host up => ⟨exec_functionLevelReset_up host up ld at_, fun few rises => hotReset_spec wf at_ host up few rises⟩, rfl,
    fun media up => ⟨hotAdd_refused wf at_ media up, fun x passes found gone on fits used =>
      hotAdd_copiesBack wf at_ media up passes found gone on fits used⟩⟩,
    fun s m row at_ frame x found => moduleRequestTimeout_spec found row at_ frame,
    fun s via p at_ t m wf _ taken idle => ?_⟩
  obtain ⟨retrainRefused, retrains⟩ := retrain_spec wf taken idle at_
  obtain ⟨staysIn, removes⟩ := prepareRemove_spec wf taken idle at_
  obtain ⟨rescanRefused, rescans⟩ := rescan_spec wf taken idle at_ t m
  refine ⟨retrainRefused, retrains, staysIn, removes, rescanRefused, fun media down => (rescans media down).trans ?_⟩
  cases t with
  | none => rfl
  | some t => cases m <;> rfl

end Sys2Proof.Proofs
end
